-- ==== Sys2Proof/Word.lean ====
section
/-! DEFINITION. The word types of the hub: 32-bit register words (R4), octets, and 64-bit doublewords. -/
namespace Sys2Proof

/-- A register word (R4). -/
abbrev Word := BitVec 32
/-- An octet of memory (R590). -/
abbrev Byte := BitVec 8
/-- A 64-bit item (R25, R45). -/
abbrev DWord := BitVec 64

end Sys2Proof
end

