-- ==== Sys2Proof/Machine/RegMap.lean ====
section
/-! DEFINITION. The register map of the hub (R29, R48 and the register tables of every chapter): one name per register,
equal to page * 0x1000 + offset, with the unit, attachment or index as arguments where the tables repeat a register,
and one name per register field, its bit range. RGA and RGB share names (first argument: 0 Ring A, 1 Ring B). -/
namespace Sys2Proof.Machine

/-- A register field: bits hi down to lo (R5). -/
structure Fld where
  hi : Nat
  lo : Nat
deriving DecidableEq, Repr

/-! ### The page header (R29, 02_address_space_and_register_pages.md); p is the page number -/
abbrev rPG_ID (p : Nat) : Nat := p * 0x1000 + 0x000
abbrev rPG_CTRL (p : Nat) : Nat := p * 0x1000 + 0x004
abbrev rPG_STATUS (p : Nat) : Nat := p * 0x1000 + 0x008
abbrev rPG_IRQ_STAT (p : Nat) : Nat := p * 0x1000 + 0x00C
abbrev rPG_IRQ_EN (p : Nat) : Nat := p * 0x1000 + 0x010
abbrev rPG_IRQ_FORCE (p : Nat) : Nat := p * 0x1000 + 0x014
abbrev rPG_FAULT (p : Nat) : Nat := p * 0x1000 + 0x018
abbrev rPG_FAULT_INJ (p : Nat) : Nat := p * 0x1000 + 0x01C
abbrev rPG_CLAIM (p : Nat) : Nat := p * 0x1000 + 0x020
abbrev rPG_LOCK (p : Nat) : Nat := p * 0x1000 + 0x024
abbrev fPG_ID_block_type : Fld := ⟨31, 16⟩
abbrev fPG_ID_instance : Fld := ⟨15, 8⟩
abbrev fPG_ID_version : Fld := ⟨7, 0⟩
abbrev fPG_CTRL_unlock : Fld := ⟨15, 8⟩
abbrev fPG_CTRL_expert : Fld := ⟨2, 2⟩
abbrev fPG_CTRL_block_reset : Fld := ⟨1, 1⟩
abbrev fPG_CTRL_enable : Fld := ⟨0, 0⟩
abbrev fPG_STATUS_claim_owner : Fld := ⟨31, 24⟩
abbrev fPG_STATUS_block_status : Fld := ⟨23, 16⟩
abbrev fPG_STATUS_lock_refused : Fld := ⟨7, 7⟩
abbrev fPG_STATUS_claim_refused : Fld := ⟨6, 6⟩
abbrev fPG_STATUS_privilege_refused : Fld := ⟨5, 5⟩
abbrev fPG_STATUS_expert_refused : Fld := ⟨4, 4⟩
abbrev fPG_STATUS_prefetch_refused : Fld := ⟨3, 3⟩
abbrev fPG_STATUS_config_warning : Fld := ⟨2, 2⟩
abbrev fPG_STATUS_reset_active : Fld := ⟨1, 1⟩
abbrev fPG_STATUS_ready : Fld := ⟨0, 0⟩
abbrev fPG_IRQ_STAT_irq : Fld := ⟨31, 0⟩
abbrev fPG_IRQ_EN_en : Fld := ⟨31, 0⟩
abbrev fPG_IRQ_FORCE_force : Fld := ⟨31, 0⟩
abbrev fPG_FAULT_valid : Fld := ⟨31, 31⟩
abbrev fPG_FAULT_severe : Fld := ⟨16, 16⟩
abbrev fPG_FAULT_count : Fld := ⟨15, 8⟩
abbrev fPG_FAULT_source : Fld := ⟨6, 0⟩
abbrev fPG_FAULT_INJ_checkers : Fld := ⟨21, 16⟩
abbrev fPG_FAULT_INJ_checker : Fld := ⟨11, 8⟩
abbrev fPG_FAULT_INJ_double : Fld := ⟨1, 1⟩
abbrev fPG_FAULT_INJ_arm : Fld := ⟨0, 0⟩
abbrev fPG_CLAIM_claim : Fld := ⟨31, 0⟩
abbrev fPG_CLAIM_claim_epoch : Fld := ⟨31, 24⟩
abbrev fPG_CLAIM_claim_priority : Fld := ⟨23, 0⟩
abbrev fPG_LOCK_locker : Fld := ⟨15, 8⟩
abbrev fPG_LOCK_lock : Fld := ⟨0, 0⟩

/-! ### Ring page (03_ring_links_and_frames.md) -/
abbrev rRGA_CFG (r : Nat) : Nat := 0x20040 + 0x4000 * r
abbrev fRGA_CFG_timing : Fld := ⟨2, 1⟩
abbrev fRGA_CFG_rate : Fld := ⟨0, 0⟩
abbrev rRGA_STATUS (r : Nat) : Nat := 0x20044 + 0x4000 * r
abbrev fRGA_STATUS_ring_ready : Fld := ⟨3, 3⟩
abbrev fRGA_STATUS_timing_used : Fld := ⟨2, 1⟩
abbrev fRGA_STATUS_tx_clock_locked : Fld := ⟨0, 0⟩
abbrev rRGA_EXP (r : Nat) : Nat := 0x20800 + 0x4000 * r
abbrev fRGA_EXP_elastic_fill : Fld := ⟨2, 0⟩

/-! ### Port pages (03_ring_links_and_frames.md) -/
abbrev rRGA_PORT_CTRL (r : Nat) (p : Nat) : Nat := 0x21040 + 0x4000 * r + 0x1000 * p
abbrev fRGA_PORT_CTRL_holdoff : Fld := ⟨23, 16⟩
abbrev fRGA_PORT_CTRL_train_timeout : Fld := ⟨15, 8⟩
abbrev fRGA_PORT_CTRL_enable : Fld := ⟨0, 0⟩
abbrev rRGA_PORT_STATE (r : Nat) (p : Nat) : Nat := 0x21044 + 0x4000 * r + 0x1000 * p
abbrev fRGA_PORT_STATE_elastic_now : Fld := ⟨20, 16⟩
abbrev fRGA_PORT_STATE_tx_buffer : Fld := ⟨15, 13⟩
abbrev fRGA_PORT_STATE_tx_failed : Fld := ⟨12, 12⟩
abbrev fRGA_PORT_STATE_peer_port : Fld := ⟨11, 11⟩
abbrev fRGA_PORT_STATE_miswire : Fld := ⟨10, 10⟩
abbrev fRGA_PORT_STATE_tx_fault : Fld := ⟨9, 9⟩
abbrev fRGA_PORT_STATE_mod_abs : Fld := ⟨8, 8⟩
abbrev fRGA_PORT_STATE_los : Fld := ⟨7, 7⟩
abbrev fRGA_PORT_STATE_remote_fault_rx : Fld := ⟨6, 6⟩
abbrev fRGA_PORT_STATE_hi_ber : Fld := ⟨5, 5⟩
abbrev fRGA_PORT_STATE_block_lock : Fld := ⟨4, 4⟩
abbrev fRGA_PORT_STATE_state : Fld := ⟨2, 0⟩
abbrev rRGA_PORT_DELAY (r : Nat) (p : Nat) : Nat := 0x21048 + 0x4000 * r + 0x1000 * p
abbrev fRGA_PORT_DELAY_delay_max : Fld := ⟨31, 16⟩
abbrev fRGA_PORT_DELAY_delay_min : Fld := ⟨15, 0⟩
abbrev rRGA_PORT_PAD (r : Nat) (p : Nat) : Nat := 0x2104C + 0x4000 * r + 0x1000 * p
abbrev fRGA_PORT_PAD_pad : Fld := ⟨3, 0⟩
abbrev rRGA_CNT_RX_FRAMES (r : Nat) (p : Nat) : Nat := 0x21080 + 0x4000 * r + 0x1000 * p
abbrev rRGA_CNT_TX_FRAMES (r : Nat) (p : Nat) : Nat := 0x21084 + 0x4000 * r + 0x1000 * p
abbrev rRGA_CNT_TRANSIT (r : Nat) (p : Nat) : Nat := 0x21088 + 0x4000 * r + 0x1000 * p
abbrev rRGA_CNT_TAKEOFF (r : Nat) (p : Nat) : Nat := 0x2108C + 0x4000 * r + 0x1000 * p
abbrev rRGA_CNT_HDR_CRC (r : Nat) (p : Nat) : Nat := 0x21090 + 0x4000 * r + 0x1000 * p
abbrev rRGA_CNT_CRC32 (r : Nat) (p : Nat) : Nat := 0x21094 + 0x4000 * r + 0x1000 * p
abbrev rRGA_CNT_TAIL_MARKED (r : Nat) (p : Nat) : Nat := 0x21098 + 0x4000 * r + 0x1000 * p
abbrev rRGA_CNT_MALFORMED (r : Nat) (p : Nat) : Nat := 0x2109C + 0x4000 * r + 0x1000 * p
abbrev rRGA_CNT_RETURNED (r : Nat) (p : Nat) : Nat := 0x210A0 + 0x4000 * r + 0x1000 * p
abbrev rRGA_CNT_EXPIRED (r : Nat) (p : Nat) : Nat := 0x210A4 + 0x4000 * r + 0x1000 * p
abbrev rRGA_CNT_RX_OVERFLOW (r : Nat) (p : Nat) : Nat := 0x210A8 + 0x4000 * r + 0x1000 * p
abbrev rRGA_CNT_DOWN (r : Nat) (p : Nat) : Nat := 0x210AC + 0x4000 * r + 0x1000 * p
abbrev rRGA_CNT_SLIP (r : Nat) (p : Nat) : Nat := 0x210B0 + 0x4000 * r + 0x1000 * p
abbrev rRGA_CNT_UNKNOWN_SET (r : Nat) (p : Nat) : Nat := 0x210B4 + 0x4000 * r + 0x1000 * p
abbrev rRGA_CNT_TRANSIT_DROP (r : Nat) (p : Nat) : Nat := 0x210B8 + 0x4000 * r + 0x1000 * p
abbrev rRGA_PORT_CMD (r : Nat) (p : Nat) : Nat := 0x21600 + 0x4000 * r + 0x1000 * p
abbrev fRGA_PORT_CMD_retrain : Fld := ⟨0, 0⟩
abbrev rRGA_PORT_TEST (r : Nat) (p : Nat) : Nat := 0x21800 + 0x4000 * r + 0x1000 * p
abbrev fRGA_PORT_TEST_prbs_tx : Fld := ⟨0, 0⟩
abbrev fRGA_PORT_TEST_prbs_rx : Fld := ⟨1, 1⟩
abbrev rRGA_PORT_PRBS_ERR (r : Nat) (p : Nat) : Nat := 0x21804 + 0x4000 * r + 0x1000 * p

/-! ### Module page (03_ring_links_and_frames.md) -/
abbrev rRGA_MOD_STATUS (r : Nat) (p : Nat) : Nat := 0x23040 + 0x4000 * r + 0x20 * p
abbrev fRGA_MOD_STATUS_identifier : Fld := ⟨15, 8⟩
abbrev fRGA_MOD_STATUS_ext_cal : Fld := ⟨5, 5⟩
abbrev fRGA_MOD_STATUS_diag_alarm : Fld := ⟨4, 4⟩
abbrev fRGA_MOD_STATUS_tx_fault : Fld := ⟨3, 3⟩
abbrev fRGA_MOD_STATUS_rate_ok : Fld := ⟨2, 2⟩
abbrev fRGA_MOD_STATUS_id_ok : Fld := ⟨1, 1⟩
abbrev fRGA_MOD_STATUS_present : Fld := ⟨0, 0⟩
abbrev rRGA_MOD_TEMP_VCC (r : Nat) (p : Nat) : Nat := 0x23044 + 0x4000 * r + 0x20 * p
abbrev rRGA_MOD_BIAS_TXP (r : Nat) (p : Nat) : Nat := 0x23048 + 0x4000 * r + 0x20 * p
abbrev rRGA_MOD_RXP_ALARM (r : Nat) (p : Nat) : Nat := 0x2304C + 0x4000 * r + 0x20 * p
abbrev rRGA_MOD_CFG (r : Nat) : Nat := 0x23070 + 0x4000 * r
abbrev fRGA_MOD_CFG_poll_en : Fld := ⟨0, 0⟩
abbrev fRGA_MOD_CFG_alarm_fault_en : Fld := ⟨1, 1⟩
abbrev rRGA_MOD_ACC (r : Nat) : Nat := 0x23600 + 0x4000 * r
abbrev fRGA_MOD_ACC_go : Fld := ⟨31, 31⟩
abbrev fRGA_MOD_ACC_write : Fld := ⟨30, 30⟩
abbrev fRGA_MOD_ACC_device : Fld := ⟨29, 29⟩
abbrev fRGA_MOD_ACC_port : Fld := ⟨28, 28⟩
abbrev fRGA_MOD_ACC_nack : Fld := ⟨27, 27⟩
abbrev fRGA_MOD_ACC_address : Fld := ⟨23, 16⟩
abbrev fRGA_MOD_ACC_wdata : Fld := ⟨15, 8⟩
abbrev fRGA_MOD_ACC_rdata : Fld := ⟨7, 0⟩

/-! ### RCTL (04_ring_operation.md) -/
abbrev rRCTL_CTRL : Nat := 0x28040
abbrev fRCTL_CTRL_join_en : Fld := ⟨4, 4⟩
abbrev fRCTL_CTRL_remote_reset_en : Fld := ⟨3, 3⟩
abbrev fRCTL_CTRL_sleep_veto : Fld := ⟨2, 2⟩
abbrev fRCTL_CTRL_enable_b : Fld := ⟨1, 1⟩
abbrev fRCTL_CTRL_enable_a : Fld := ⟨0, 0⟩
abbrev rRCTL_CFG : Nat := 0x28044
abbrev fRCTL_CFG_priority : Fld := ⟨31, 16⟩
abbrev fRCTL_CFG_upper : Fld := ⟨0, 0⟩
abbrev rRCTL_RING : Nat := 0x28048
abbrev fRCTL_RING_ring_b : Fld := ⟨25, 16⟩
abbrev fRCTL_RING_ring_a : Fld := ⟨9, 0⟩
abbrev rRCTL_TIMERS : Nat := 0x2804C
abbrev fRCTL_TIMERS_resync : Fld := ⟨31, 28⟩
abbrev fRCTL_TIMERS_beacon_miss : Fld := ⟨27, 24⟩
abbrev fRCTL_TIMERS_beacon_k : Fld := ⟨20, 16⟩
abbrev fRCTL_TIMERS_elect_timeout : Fld := ⟨15, 8⟩
abbrev fRCTL_TIMERS_settle : Fld := ⟨7, 0⟩
abbrev rRCTL_RESET_KEY : Nat := 0x28050
abbrev fRCTL_RESET_KEY_key : Fld := ⟨31, 0⟩
abbrev rRCTL_STATUS (x : Nat) : Nat := 0x28060 + 0x40 * x
abbrev fRCTL_STATUS_stations : Fld := ⟨31, 24⟩
abbrev fRCTL_STATUS_station : Fld := ⟨23, 16⟩
abbrev fRCTL_STATUS_last_cause : Fld := ⟨15, 12⟩
abbrev fRCTL_STATUS_order_broken : Fld := ⟨8, 8⟩
abbrev fRCTL_STATUS_heal_deferred : Fld := ⟨7, 7⟩
abbrev fRCTL_STATUS_open : Fld := ⟨6, 6⟩
abbrev fRCTL_STATUS_ring_ready : Fld := ⟨5, 5⟩
abbrev fRCTL_STATUS_kept : Fld := ⟨4, 4⟩
abbrev fRCTL_STATUS_state : Fld := ⟨2, 0⟩
abbrev rRCTL_MASTER (x : Nat) : Nat := 0x28064 + 0x40 * x
abbrev fRCTL_MASTER_priority : Fld := ⟨31, 16⟩
abbrev fRCTL_MASTER_master_station : Fld := ⟨7, 0⟩
abbrev rRCTL_MASTER_UID (x : Nat) (n : Nat) : Nat := 0x28068 + 0x40 * x + 0x4 * n
abbrev rRCTL_OFFSET0 (x : Nat) : Nat := 0x28078 + 0x40 * x
abbrev rRCTL_OFFSET1 (x : Nat) : Nat := 0x2807C + 0x40 * x
abbrev rRCTL_LOOP (x : Nat) : Nat := 0x28080 + 0x40 * x
abbrev fRCTL_LOOP_loop1 : Fld := ⟨31, 16⟩
abbrev fRCTL_LOOP_loop0 : Fld := ⟨15, 0⟩
abbrev rRCTL_SPAN (x : Nat) : Nat := 0x28084 + 0x40 * x
abbrev fRCTL_SPAN_path1_dead : Fld := ⟨9, 9⟩
abbrev fRCTL_SPAN_path0_dead : Fld := ⟨8, 8⟩
abbrev fRCTL_SPAN_span_station : Fld := ⟨7, 0⟩
abbrev rRCTL_TREE (x : Nat) : Nat := 0x28088 + 0x40 * x
abbrev fRCTL_TREE_up_exit : Fld := ⟨23, 16⟩
abbrev fRCTL_TREE_subtree_last : Fld := ⟨15, 6⟩
abbrev fRCTL_TREE_joined : Fld := ⟨5, 5⟩
abbrev fRCTL_TREE_level : Fld := ⟨3, 0⟩
abbrev rRCTL_ROUTE (x : Nat) (n : Nat) : Nat := 0x28100 + 0x100 * x + 0x4 * n
abbrev fRCTL_ROUTE_valid : Fld := ⟨31, 31⟩
abbrev fRCTL_ROUTE_first : Fld := ⟨29, 20⟩
abbrev fRCTL_ROUTE_last : Fld := ⟨19, 10⟩
abbrev fRCTL_ROUTE_exit : Fld := ⟨7, 0⟩
abbrev rRCTL_CNT_ELECT (x : Nat) : Nat := 0x28300 + 0x40 * x
abbrev rRCTL_CNT_BREAK (x : Nat) : Nat := 0x28304 + 0x40 * x
abbrev rRCTL_CNT_HEAL (x : Nat) : Nat := 0x28308 + 0x40 * x
abbrev rRCTL_CNT_WRAP (x : Nat) : Nat := 0x2830C + 0x40 * x
abbrev rRCTL_CNT_WRAP_DROP (x : Nat) : Nat := 0x28310 + 0x40 * x
abbrev rRCTL_CNT_TWIN_DROP (x : Nat) : Nat := 0x28314 + 0x40 * x
abbrev rRCTL_CNT_DEMOTE (x : Nat) : Nat := 0x28318 + 0x40 * x
abbrev rRCTL_CNT_NOROUTE (x : Nat) : Nat := 0x2831C + 0x40 * x
abbrev rRCTL_CNT_BAD_MSG : Nat := 0x28380
abbrev rRCTL_CMD : Nat := 0x28600
abbrev fRCTL_CMD_reset : Fld := ⟨5, 5⟩
abbrev fRCTL_CMD_sleep : Fld := ⟨4, 4⟩
abbrev fRCTL_CMD_renumber_b : Fld := ⟨3, 3⟩
abbrev fRCTL_CMD_renumber_a : Fld := ⟨2, 2⟩
abbrev fRCTL_CMD_elect_b : Fld := ⟨1, 1⟩
abbrev fRCTL_CMD_elect_a : Fld := ⟨0, 0⟩
abbrev rRCTL_CMD_ARG : Nat := 0x28604
abbrev fRCTL_CMD_ARG_station : Fld := ⟨7, 0⟩
abbrev rRCTL_EXP : Nat := 0x28800
abbrev fRCTL_EXP_hold_span : Fld := ⟨1, 1⟩
abbrev fRCTL_EXP_no_wrap : Fld := ⟨0, 0⟩

/-! ### Control page (05_fabric_core.md) -/
abbrev rFAB_PORT_EN : Nat := 0x10040
abbrev fFAB_PORT_EN_en : Fld := ⟨15, 0⟩
abbrev rFAB_STATUS : Nat := 0x10044
abbrev fFAB_STATUS_phase : Fld := ⟨19, 16⟩
abbrev fFAB_STATUS_shed_level : Fld := ⟨15, 14⟩
abbrev fFAB_STATUS_seats_booked : Fld := ⟨8, 0⟩
abbrev rFAB_ROUND : Nat := 0x10048
abbrev rFAB_EXP : Nat := 0x10800
abbrev fFAB_EXP_class2_gap : Fld := ⟨11, 8⟩
abbrev fFAB_EXP_class3_gap : Fld := ⟨7, 4⟩
abbrev fFAB_EXP_aim_off : Fld := ⟨0, 0⟩

/-! ### Limit page (05_fabric_core.md) -/
abbrev rFAB_LIMIT (n : Nat) : Nat := 0x11040 + 0x4 * n
abbrev fFAB_LIMIT_class3_cells : Fld := ⟨31, 24⟩
abbrev fFAB_LIMIT_class2_cells : Fld := ⟨23, 16⟩
abbrev fFAB_LIMIT_class1_cells : Fld := ⟨15, 8⟩
abbrev fFAB_LIMIT_class0_cells : Fld := ⟨7, 0⟩
abbrev rFAB_OUTCAP (n : Nat) : Nat := 0x11080 + 0x4 * n
abbrev fFAB_OUTCAP_cap : Fld := ⟨13, 0⟩
abbrev rFAB_LIMIT_SUM : Nat := 0x110C0
abbrev fFAB_LIMIT_SUM_sum : Fld := ⟨9, 0⟩

/-! ### Occupancy (05_fabric_core.md) -/
abbrev rFAB_MID_OCC (n : Nat) : Nat := 0x12040 + 0x4 * n
abbrev fFAB_MID_OCC_high_water : Fld := ⟨25, 16⟩
abbrev fFAB_MID_OCC_used : Fld := ⟨9, 0⟩
abbrev rFAB_OUT_OCC (n : Nat) : Nat := 0x12080 + 0x4 * n
abbrev fFAB_OUT_OCC_rsq_held : Fld := ⟨28, 16⟩
abbrev fFAB_OUT_OCC_cap_used : Fld := ⟨13, 0⟩
abbrev rFAB_OCC_CMD : Nat := 0x12600
abbrev fFAB_OCC_CMD_clear : Fld := ⟨0, 0⟩

/-! ### Counter page (05_fabric_core.md) -/
abbrev rFAB_CELLS_IN (n : Nat) : Nat := 0x13040 + 0x10 * n
abbrev rFAB_CELLS_OUT (n : Nat) : Nat := 0x13044 + 0x10 * n
abbrev rFAB_HELD (n : Nat) : Nat := 0x13048 + 0x10 * n
abbrev rFAB_DISCARD (n : Nat) : Nat := 0x1304C + 0x10 * n

/-! ### Resequencer (05_fabric_core.md) -/
abbrev rFAB_RSQ_SEL : Nat := 0x14040
abbrev fFAB_RSQ_SEL_class : Fld := ⟨9, 8⟩
abbrev fFAB_RSQ_SEL_input : Fld := ⟨7, 4⟩
abbrev fFAB_RSQ_SEL_output : Fld := ⟨3, 0⟩
abbrev rFAB_RSQ_VIEW : Nat := 0x14044
abbrev fFAB_RSQ_VIEW_expected : Fld := ⟨31, 16⟩
abbrev fFAB_RSQ_VIEW_next : Fld := ⟨15, 0⟩
abbrev rFAB_RSQ_HELD_LO : Nat := 0x14048
abbrev rFAB_RSQ_HELD_HI : Nat := 0x1404C
abbrev rFAB_CNT_TAG_FAULT : Nat := 0x14080
abbrev rFAB_CNT_CREDIT_HOLD : Nat := 0x14084

/-! ### Aim (05_fabric_core.md) -/
abbrev rFAB_AIM_MAX : Nat := 0x15040
abbrev fFAB_AIM_MAX_q : Fld := ⟨15, 8⟩
abbrev fFAB_AIM_MAX_crossing : Fld := ⟨4, 0⟩
abbrev rFAB_CNT_AIM_BLOCKED : Nat := 0x15044
abbrev rFAB_AIM_CMD : Nat := 0x15600
abbrev fFAB_AIM_CMD_clear : Fld := ⟨0, 0⟩

/-! ### Trace (05_fabric_core.md) -/
abbrev rFAB_TRACE_CFG : Nat := 0x16800
abbrev fFAB_TRACE_CFG_enable : Fld := ⟨31, 31⟩
abbrev fFAB_TRACE_CFG_in_port : Fld := ⟨19, 16⟩
abbrev fFAB_TRACE_CFG_out_port : Fld := ⟨15, 12⟩
abbrev fFAB_TRACE_CFG_class_mask : Fld := ⟨11, 8⟩
abbrev fFAB_TRACE_CFG_any_out : Fld := ⟨1, 1⟩
abbrev fFAB_TRACE_CFG_any_in : Fld := ⟨0, 0⟩
abbrev rFAB_TRACE_POP : Nat := 0x16F00
abbrev rFAB_TRACE_POP_HI : Nat := 0x16F04
abbrev rFAB_TRACE_REPLAY : Nat := 0x16F80
abbrev rFAB_TRACE_REPLAY_HI : Nat := 0x16F84

/-! ### Test page (05_fabric_core.md) -/
abbrev rFAB_TEST : Nat := 0x17800
abbrev fFAB_TEST_freeze : Fld := ⟨0, 0⟩
abbrev rFAB_TEST_STEP : Nat := 0x17E00
abbrev fFAB_TEST_STEP_step : Fld := ⟨0, 0⟩

/-! ### PACE (05_fabric_core.md) -/
abbrev rPACE_CTRL : Nat := 0x18040
abbrev fPACE_CTRL_loop_en : Fld := ⟨0, 0⟩
abbrev rPACE_CFG : Nat := 0x18044
abbrev fPACE_CFG_lower_ms : Fld := ⟨31, 24⟩
abbrev fPACE_CFG_settle_us : Fld := ⟨23, 16⟩
abbrev fPACE_CFG_max_code : Fld := ⟨11, 8⟩
abbrev fPACE_CFG_min_code : Fld := ⟨7, 4⟩
abbrev fPACE_CFG_start_code : Fld := ⟨3, 0⟩
abbrev rPACE_THRESH : Nat := 0x18048
abbrev fPACE_THRESH_raise_at : Fld := ⟨31, 16⟩
abbrev fPACE_THRESH_lower_at : Fld := ⟨15, 0⟩
abbrev rPACE_LIMITS : Nat := 0x1804C
abbrev fPACE_LIMITS_breach : Fld := ⟨31, 16⟩
abbrev fPACE_LIMITS_warning : Fld := ⟨15, 0⟩
abbrev rPACE_BEAT : Nat := 0x18060
abbrev fPACE_BEAT_beat_max : Fld := ⟨31, 16⟩
abbrev fPACE_BEAT_beat : Fld := ⟨15, 0⟩
abbrev rPACE_BEAT_MIN : Nat := 0x18064
abbrev fPACE_BEAT_MIN_beat_min : Fld := ⟨15, 0⟩
abbrev rPACE_CODE : Nat := 0x18068
abbrev fPACE_CODE_shed_level : Fld := ⟨9, 8⟩
abbrev fPACE_CODE_selfcheck_failed : Fld := ⟨7, 7⟩
abbrev fPACE_CODE_breach : Fld := ⟨6, 6⟩
abbrev fPACE_CODE_warning : Fld := ⟨5, 5⟩
abbrev fPACE_CODE_driving : Fld := ⟨4, 4⟩
abbrev fPACE_CODE_code : Fld := ⟨3, 0⟩
abbrev rPACE_CNT_WARN : Nat := 0x18080
abbrev rPACE_CNT_BREACH : Nat := 0x18084
abbrev rPACE_CNT_UP : Nat := 0x18088
abbrev rPACE_CNT_DOWN : Nat := 0x1808C
abbrev rPACE_CMD : Nat := 0x18600
abbrev fPACE_CMD_clear : Fld := ⟨0, 0⟩
abbrev fPACE_CMD_read : Fld := ⟨1, 1⟩
abbrev rPACE_EXP : Nat := 0x18800
abbrev fPACE_EXP_warn_at : Fld := ⟨31, 16⟩
abbrev fPACE_EXP_manual : Fld := ⟨4, 4⟩
abbrev fPACE_EXP_manual_code : Fld := ⟨3, 0⟩

/-! ### Control page (06_flows_and_contexts.md) -/
abbrev rFLOW_CTRL : Nat := 0x30040
abbrev fFLOW_CTRL_paging_en : Fld := ⟨0, 0⟩
abbrev rFLOW_CFG : Nat := 0x30044
abbrev fFLOW_CFG_pin_max : Fld := ⟨27, 16⟩
abbrev rFLOW_BACK : Nat := 0x30048
abbrev fFLOW_BACK_base : Fld := ⟨31, 7⟩
abbrev rFLOW_BACK_SIZE : Nat := 0x3004C
abbrev fFLOW_BACK_SIZE_entries : Fld := ⟨20, 0⟩
abbrev rFLOW_COUNT : Nat := 0x30050
abbrev fFLOW_COUNT_resident : Fld := ⟨28, 16⟩
abbrev fFLOW_COUNT_pinned : Fld := ⟨12, 0⟩
abbrev rFLOW_TOTAL : Nat := 0x30054
abbrev fFLOW_TOTAL_flows : Fld := ⟨16, 0⟩
abbrev rFLOW_PAGER : Nat := 0x30058
abbrev fFLOW_PAGER_flow : Fld := ⟨31, 16⟩
abbrev fFLOW_PAGER_pending : Fld := ⟨9, 4⟩
abbrev fFLOW_PAGER_busy : Fld := ⟨0, 0⟩
abbrev rFLOW_ARG0 : Nat := 0x30060
abbrev fFLOW_ARG0_role : Fld := ⟨31, 30⟩
abbrev fFLOW_ARG0_class : Fld := ⟨29, 28⟩
abbrev fFLOW_ARG0_key_en : Fld := ⟨27, 27⟩
abbrev fFLOW_ARG0_key_slot : Fld := ⟨23, 16⟩
abbrev fFLOW_ARG0_endpoint_port : Fld := ⟨11, 8⟩
abbrev fFLOW_ARG0_endpoint_queue : Fld := ⟨7, 0⟩
abbrev rFLOW_ARG1 : Nat := 0x30064
abbrev fFLOW_ARG1_src_node : Fld := ⟨31, 14⟩
abbrev rFLOW_ARG2 : Nat := 0x30068
abbrev fFLOW_ARG2_dest_node : Fld := ⟨31, 14⟩
abbrev fFLOW_ARG2_max_payload : Fld := ⟨9, 0⟩
abbrev rFLOW_ARG3 : Nat := 0x3006C
abbrev fFLOW_ARG3_backing_set : Fld := ⟨31, 31⟩
abbrev fFLOW_ARG3_backing : Fld := ⟨19, 0⟩
abbrev rFLOW_RESULT : Nat := 0x30070
abbrev fFLOW_RESULT_done : Fld := ⟨31, 31⟩
abbrev fFLOW_RESULT_detail : Fld := ⟨23, 16⟩
abbrev fFLOW_RESULT_code : Fld := ⟨3, 0⟩
abbrev rFLOW_CNT_MISS : Nat := 0x30080
abbrev rFLOW_CNT_FETCH : Nat := 0x30084
abbrev rFLOW_CNT_WRITEBACK : Nat := 0x30088
abbrev rFLOW_CNT_PAGER_FAULT : Nat := 0x3008C
abbrev rFLOW_CNT_NO_FLOW : Nat := 0x30090
abbrev rFLOW_CNT_DISABLED : Nat := 0x30094
abbrev rFLOW_CNT_FOREIGN : Nat := 0x30098
abbrev rFLOW_CNT_NO_VICTIM : Nat := 0x3009C
abbrev rFLOW_CNT_SYS_FULL : Nat := 0x300A0
abbrev rFLOW_CNT_DIRECT_REFUSED : Nat := 0x300A4
abbrev rFLOW_CNT_ECC_FIXED : Nat := 0x300A8
abbrev rFLOW_CMD : Nat := 0x30600
abbrev fFLOW_CMD_go : Fld := ⟨31, 31⟩
abbrev fFLOW_CMD_op : Fld := ⟨19, 16⟩
abbrev fFLOW_CMD_flow_id : Fld := ⟨15, 0⟩

/-! ### View (06_flows_and_contexts.md) -/
abbrev rFLOW_VIEW (n : Nat) : Nat := 0x31800 + 0x4 * n
abbrev rFLOW_VIEW_SEL : Nat := 0x31880
abbrev fFLOW_VIEW_SEL_holder : Fld := ⟨31, 24⟩
abbrev fFLOW_VIEW_SEL_flow_id : Fld := ⟨15, 0⟩
abbrev rFLOW_VIEW_RESULT : Nat := 0x31884
abbrev fFLOW_VIEW_RESULT_done : Fld := ⟨31, 31⟩
abbrev fFLOW_VIEW_RESULT_code : Fld := ⟨3, 0⟩
abbrev rFLOW_VIEW_CMD : Nat := 0x31E00
abbrev fFLOW_VIEW_CMD_load : Fld := ⟨0, 0⟩
abbrev fFLOW_VIEW_CMD_store : Fld := ⟨1, 1⟩
abbrev fFLOW_VIEW_CMD_release : Fld := ⟨2, 2⟩

/-! ### System window (06_flows_and_contexts.md) -/
abbrev rFLOW_SYS_CFG : Nat := 0x32040
abbrev fFLOW_SYS_CFG_guard_k : Fld := ⟨4, 0⟩
abbrev rFLOW_SYS_COUNT : Nat := 0x32044
abbrev fFLOW_SYS_COUNT_protected : Fld := ⟨25, 16⟩
abbrev fFLOW_SYS_COUNT_used : Fld := ⟨9, 0⟩

/-! ### Pager (06_flows_and_contexts.md) -/
abbrev rFLOW_PF_CAP : Nat := 0x33040
abbrev fFLOW_PF_CAP_valid : Fld := ⟨31, 31⟩
abbrev fFLOW_PF_CAP_direction : Fld := ⟨19, 18⟩
abbrev fFLOW_PF_CAP_cause : Fld := ⟨17, 16⟩
abbrev fFLOW_PF_CAP_flow_id : Fld := ⟨15, 0⟩
abbrev rFLOW_PF_ADDR : Nat := 0x33044
abbrev rFLOW_PF_CMD : Nat := 0x33600
abbrev fFLOW_PF_CMD_clear : Fld := ⟨0, 0⟩
abbrev rFLOW_PAGER_EXP : Nat := 0x33800
abbrev fFLOW_PAGER_EXP_retry : Fld := ⟨15, 8⟩
abbrev fFLOW_PAGER_EXP_max_pending : Fld := ⟨6, 4⟩

/-! ### Control page (07_timetable_and_delivery_bounds.md) -/
abbrev rTTB_CFG : Nat := 0x38040
abbrev fTTB_CFG_bulk_gap : Fld := ⟨15, 8⟩
abbrev fTTB_CFG_share_pct : Fld := ⟨6, 0⟩
abbrev rTTB_SRC (x : Nat) : Nat := 0x38044 + 0x4 * x
abbrev fTTB_SRC_addr : Fld := ⟨31, 0⟩
abbrev rTTB_STATUS (x : Nat) : Nat := 0x38050 + 0x10 * x
abbrev fTTB_STATUS_valid : Fld := ⟨31, 31⟩
abbrev fTTB_STATUS_pending : Fld := ⟨30, 30⟩
abbrev fTTB_STATUS_bank : Fld := ⟨29, 29⟩
abbrev fTTB_STATUS_missed : Fld := ⟨28, 28⟩
abbrev fTTB_STATUS_spacing_stale : Fld := ⟨27, 27⟩
abbrev fTTB_STATUS_n : Fld := ⟨20, 16⟩
abbrev fTTB_STATUS_table_id : Fld := ⟨15, 0⟩
abbrev rTTB_USE (x : Nat) : Nat := 0x38054 + 0x10 * x
abbrev fTTB_USE_assigned_slots : Fld := ⟨31, 16⟩
abbrev fTTB_USE_store_cells : Fld := ⟨8, 0⟩
abbrev rTTB_PENDING (x : Nat) : Nat := 0x38058 + 0x10 * x
abbrev fTTB_PENDING_effect : Fld := ⟨19, 0⟩
abbrev rTTB_OWNED (x : Nat) : Nat := 0x3805C + 0x10 * x
abbrev fTTB_OWNED_owned : Fld := ⟨16, 0⟩
abbrev rTTB_FAULT_CAUSE : Nat := 0x38070
abbrev fTTB_FAULT_CAUSE_class0_lost : Fld := ⟨4, 4⟩
abbrev fTTB_FAULT_CAUSE_readmit_failed : Fld := ⟨3, 3⟩
abbrev fTTB_FAULT_CAUSE_spacing_stale : Fld := ⟨2, 2⟩
abbrev fTTB_FAULT_CAUSE_table_refused : Fld := ⟨1, 1⟩
abbrev fTTB_FAULT_CAUSE_image_refused : Fld := ⟨0, 0⟩
abbrev rTTB_CMD : Nat := 0x38600
abbrev fTTB_CMD_distribute : Fld := ⟨1, 0⟩
abbrev rTTB_EXP : Nat := 0x38800
abbrev fTTB_EXP_bank_write : Fld := ⟨1, 1⟩
abbrev fTTB_EXP_spacing_off : Fld := ⟨0, 0⟩
abbrev rTTB_EXP_SWAP : Nat := 0x38E00
abbrev fTTB_EXP_SWAP_swap : Fld := ⟨1, 0⟩

/-! ### Memory window (07_timetable_and_delivery_bounds.md) -/
abbrev rTTB_MEM_ADDR : Nat := 0x39040
abbrev fTTB_MEM_ADDR_offset : Fld := ⟨18, 2⟩
abbrev rTTB_MEM_DATA : Nat := 0x39044
abbrev rTTB_MEM_DATA_INC : Nat := 0x39600

/-! ### Admission log (07_timetable_and_delivery_bounds.md) -/
abbrev rTTB_LOG_STATUS : Nat := 0x3A040
abbrev fTTB_LOG_STATUS_held : Fld := ⟨20, 16⟩
abbrev fTTB_LOG_STATUS_lost : Fld := ⟨15, 0⟩
abbrev rTTB_LOG_POP : Nat := 0x3A700
abbrev fTTB_LOG_POP_flow_id : Fld := ⟨31, 16⟩
abbrev fTTB_LOG_POP_code : Fld := ⟨15, 8⟩
abbrev fTTB_LOG_POP_readmit_fail : Fld := ⟨0, 0⟩
abbrev rTTB_LOG_REPLAY : Nat := 0x3A780

/-! ### Counter page (07_timetable_and_delivery_bounds.md) -/
abbrev rTTB_CNT_SENT (x : Nat) : Nat := 0x3B040 + 0x20 * x
abbrev rTTB_CNT_EMPTY (x : Nat) : Nat := 0x3B044 + 0x20 * x
abbrev rTTB_CNT_OVERRUN (x : Nat) : Nat := 0x3B048 + 0x20 * x
abbrev rTTB_CNT_READMIT_DROP (x : Nat) : Nat := 0x3B04C + 0x20 * x
abbrev rTTB_CNT_TABLES (x : Nat) : Nat := 0x3B050 + 0x20 * x
abbrev rTTB_CNT_RESERVE : Nat := 0x3B080
abbrev rTTB_CNT_LOST0 : Nat := 0x3B084
abbrev rTTB_CNT_REFUSED : Nat := 0x3B088

/-! ### TB pages (08_time_bases.md) -/
abbrev rTB_CFG (b : Nat) : Nat := 0x40040 + 0x1000 * b
abbrev fTB_CFG_sync_k : Fld := ⟨28, 24⟩
abbrev fTB_CFG_lock_count : Fld := ⟨23, 20⟩
abbrev fTB_CFG_root_follow : Fld := ⟨16, 16⟩
abbrev fTB_CFG_lock_ns : Fld := ⟨15, 0⟩
abbrev rTB_STATUS (b : Nat) : Nat := 0x40044 + 0x1000 * b
abbrev fTB_STATUS_level : Fld := ⟨15, 8⟩
abbrev fTB_STATUS_step_used : Fld := ⟨3, 3⟩
abbrev fTB_STATUS_step_refused : Fld := ⟨2, 2⟩
abbrev fTB_STATUS_source_valid : Fld := ⟨1, 1⟩
abbrev fTB_STATUS_locked : Fld := ⟨0, 0⟩
abbrev rTB_SERVO (b : Nat) : Nat := 0x40048 + 0x1000 * b
abbrev fTB_SERVO_step_ns : Fld := ⟨15, 0⟩
abbrev rTB_OFFSET (b : Nat) : Nat := 0x4004C + 0x1000 * b
abbrev rTB_RATE_LO (b : Nat) : Nat := 0x40050 + 0x1000 * b
abbrev rTB_RATE_HI (b : Nat) : Nat := 0x40054 + 0x1000 * b
abbrev fTB_RATE_HI_rate : Fld := ⟨15, 0⟩
abbrev rTB_STEP_LO (b : Nat) : Nat := 0x40058 + 0x1000 * b
abbrev rTB_STEP_HI (b : Nat) : Nat := 0x4005C + 0x1000 * b
abbrev rTB_SNAP_NS (b : Nat) : Nat := 0x40060 + 0x1000 * b
abbrev rTB_SNAP_SEC_LO (b : Nat) : Nat := 0x40064 + 0x1000 * b
abbrev rTB_SNAP_SEC_HI (b : Nat) : Nat := 0x40068 + 0x1000 * b
abbrev fTB_SNAP_SEC_HI_sec : Fld := ⟨15, 0⟩
abbrev rTB_SNAP_IC_LO (b : Nat) : Nat := 0x4006C + 0x1000 * b
abbrev rTB_SNAP_IC_HI (b : Nat) : Nat := 0x40070 + 0x1000 * b
abbrev rTB_STEP_AT_LO (b : Nat) : Nat := 0x40074 + 0x1000 * b
abbrev rTB_STEP_AT_HI (b : Nat) : Nat := 0x40078 + 0x1000 * b
abbrev rTB_SOURCE (b : Nat) : Nat := 0x4007C + 0x1000 * b
abbrev fTB_SOURCE_node : Fld := ⟨31, 14⟩
abbrev fTB_SOURCE_kind : Fld := ⟨1, 0⟩
abbrev rTB_CNT_STEP (b : Nat) : Nat := 0x40080 + 0x1000 * b
abbrev rTB_CNT_SYNC (b : Nat) : Nat := 0x40084 + 0x1000 * b
abbrev rTB_CNT_LOCK_LOST (b : Nat) : Nat := 0x40088 + 0x1000 * b
abbrev rTB_CNT_BAD (b : Nat) : Nat := 0x4008C + 0x1000 * b
abbrev rTB_CMD (b : Nat) : Nat := 0x40600 + 0x1000 * b
abbrev fTB_CMD_snap : Fld := ⟨0, 0⟩
abbrev fTB_CMD_step : Fld := ⟨1, 1⟩
abbrev rTB_SESSION (b : Nat) : Nat := 0x40604 + 0x1000 * b
abbrev fTB_SESSION_open : Fld := ⟨0, 0⟩
abbrev fTB_SESSION_number : Fld := ⟨31, 16⟩
abbrev rTB_EXP (b : Nat) : Nat := 0x40800 + 0x1000 * b
abbrev fTB_EXP_servo_off : Fld := ⟨0, 0⟩
abbrev fTB_EXP_sync_off : Fld := ⟨1, 1⟩

/-! ### TSU (08_time_bases.md) -/
abbrev rTSU_TUNNEL : Nat := 0x44040
abbrev fTSU_TUNNEL_enable : Fld := ⟨0, 0⟩
abbrev fTSU_TUNNEL_two_step : Fld := ⟨1, 1⟩
abbrev fTSU_TUNNEL_l2_en : Fld := ⟨2, 2⟩
abbrev fTSU_TUNNEL_udp_en : Fld := ⟨3, 3⟩
abbrev rTSU_BASE_SEL : Nat := 0x44044
abbrev fTSU_BASE_SEL_sel : Fld := ⟨9, 0⟩
abbrev rTSU_IC_LO : Nat := 0x44048
abbrev rTSU_IC_HI : Nat := 0x4404C
abbrev rTSU_CAP_STATUS : Nat := 0x44050
abbrev fTSU_CAP_STATUS_held : Fld := ⟨22, 16⟩
abbrev fTSU_CAP_STATUS_lost : Fld := ⟨15, 0⟩
abbrev rTSU_CNT_TC_ORPHAN : Nat := 0x44054
abbrev rTSU_CNT_TUNNEL_LONG : Nat := 0x44058
abbrev rTSU_ASYM (n : Nat) : Nat := 0x44060 + 0x4 * n
abbrev fTSU_ASYM_tx_comp : Fld := ⟨31, 16⟩
abbrev fTSU_ASYM_rx_comp : Fld := ⟨15, 0⟩
abbrev rTSU_PEER (n : Nat) : Nat := 0x440A0 + 0x4 * n
abbrev fTSU_PEER_node : Fld := ⟨31, 14⟩
abbrev fTSU_PEER_valid : Fld := ⟨0, 0⟩
abbrev rTSU_EVT_CFG (u : Nat) : Nat := 0x44100 + 0x20 * u
abbrev fTSU_EVT_CFG_base : Fld := ⟨31, 30⟩
abbrev fTSU_EVT_CFG_mode : Fld := ⟨29, 28⟩
abbrev fTSU_EVT_CFG_edge : Fld := ⟨27, 26⟩
abbrev fTSU_EVT_CFG_action : Fld := ⟨25, 24⟩
abbrev fTSU_EVT_CFG_level : Fld := ⟨23, 23⟩
abbrev fTSU_EVT_CFG_width : Fld := ⟨22, 16⟩
abbrev fTSU_EVT_CFG_irq : Fld := ⟨10, 10⟩
abbrev fTSU_EVT_CFG_trig_do : Fld := ⟨9, 9⟩
abbrev fTSU_EVT_CFG_trig_clove : Fld := ⟨8, 8⟩
abbrev rTSU_EVT_NS (u : Nat) : Nat := 0x44104 + 0x20 * u
abbrev fTSU_EVT_NS_ns : Fld := ⟨31, 0⟩
abbrev rTSU_EVT_SEC_LO (u : Nat) : Nat := 0x44108 + 0x20 * u
abbrev rTSU_EVT_SEC_HI (u : Nat) : Nat := 0x4410C + 0x20 * u
abbrev fTSU_EVT_SEC_HI_sec : Fld := ⟨15, 0⟩
abbrev rTSU_EVT_PER (u : Nat) : Nat := 0x44110 + 0x20 * u
abbrev fTSU_EVT_PER_period : Fld := ⟨31, 0⟩
abbrev rTSU_EVT_STATUS (u : Nat) : Nat := 0x44114 + 0x20 * u
abbrev fTSU_EVT_STATUS_late : Fld := ⟨2, 2⟩
abbrev fTSU_EVT_STATUS_fired : Fld := ⟨1, 1⟩
abbrev fTSU_EVT_STATUS_armed : Fld := ⟨0, 0⟩
abbrev rTSU_CMD : Nat := 0x44600
abbrev fTSU_CMD_snap_all : Fld := ⟨0, 0⟩
abbrev rTSU_ARM : Nat := 0x44604
abbrev rTSU_CAP_POP : Nat := 0x44700
abbrev rTSU_CAP_POP_HI : Nat := 0x44704
abbrev rTSU_CAP_REPLAY : Nat := 0x44780
abbrev rTSU_CAP_REPLAY_HI : Nat := 0x44784

/-! ### HBA and HBB (09_host_ports_and_bridge.md) -/
abbrev rHBx_CFG (h : Nat) : Nat := 0x68040 + 0x1000 * h
abbrev fHBx_CFG_strap_warden : Fld := ⟨1, 1⟩
abbrev fHBx_CFG_mode : Fld := ⟨0, 0⟩
abbrev rHBx_STATUS (h : Nat) : Nat := 0x68044 + 0x1000 * h
abbrev fHBx_STATUS_ltssm : Fld := ⟨3, 0⟩
abbrev fHBx_STATUS_rate : Fld := ⟨4, 4⟩
abbrev rHBx_QSPI_CFG (h : Nat) : Nat := 0x68048 + 0x1000 * h
abbrev fHBx_QSPI_CFG_wait : Fld := ⟨5, 0⟩
abbrev rHBx_RETRY (h : Nat) : Nat := 0x6804C + 0x1000 * h
abbrev fHBx_RETRY_retries : Fld := ⟨18, 16⟩
abbrev fHBx_RETRY_rsp_timeout : Fld := ⟨15, 0⟩
abbrev rHBx_POSTED (h : Nat) : Nat := 0x68050 + 0x1000 * h
abbrev fHBx_POSTED_age_k : Fld := ⟨28, 24⟩
abbrev fHBx_POSTED_confirm_timeout : Fld := ⟨15, 0⟩
abbrev rHBx_BAR4_CS (h : Nat) : Nat := 0x68054 + 0x1000 * h
abbrev fHBx_BAR4_CS_cs1_sel : Fld := ⟨18, 16⟩
abbrev fHBx_BAR4_CS_cs0_sel : Fld := ⟨3, 0⟩
abbrev rHBx_QATTR (h : Nat) : Nat := 0x68058 + 0x1000 * h
abbrev fHBx_QATTR_enable : Fld := ⟨31, 31⟩
abbrev fHBx_QATTR_halted : Fld := ⟨30, 30⟩
abbrev fHBx_QATTR_halt_en : Fld := ⟨29, 29⟩
abbrev fHBx_QATTR_prefetch : Fld := ⟨28, 28⟩
abbrev fHBx_QATTR_downgraded : Fld := ⟨27, 27⟩
abbrev fHBx_QATTR_posted : Fld := ⟨26, 26⟩
abbrev fHBx_QATTR_wclass : Fld := ⟨25, 24⟩
abbrev fHBx_QATTR_rclass : Fld := ⟨23, 22⟩
abbrev rHBx_LAST_ERR (h : Nat) : Nat := 0x6805C + 0x1000 * h
abbrev fHBx_LAST_ERR_status : Fld := ⟨31, 28⟩
abbrev fHBx_LAST_ERR_subcode : Fld := ⟨27, 24⟩
abbrev fHBx_LAST_ERR_window : Fld := ⟨23, 16⟩
abbrev fHBx_LAST_ERR_tag : Fld := ⟨15, 0⟩
abbrev rHBx_PWE_STATUS (h : Nat) : Nat := 0x68060 + 0x1000 * h
abbrev fHBx_PWE_STATUS_overflow : Fld := ⟨31, 16⟩
abbrev fHBx_PWE_STATUS_valid : Fld := ⟨15, 0⟩
abbrev rHBx_OUTSTANDING (h : Nat) : Nat := 0x68064 + 0x1000 * h
abbrev fHBx_OUTSTANDING_entries : Fld := ⟨29, 24⟩
abbrev fHBx_OUTSTANDING_nonposted : Fld := ⟨5, 0⟩
abbrev rHBx_MSIX_PBA (h : Nat) : Nat := 0x68068 + 0x1000 * h
abbrev rHBx_MSIX_PBA_HI (h : Nat) : Nat := 0x6806C + 0x1000 * h
abbrev rHBx_CNT_DUP_RSP (h : Nat) : Nat := 0x68070 + 0x1000 * h
abbrev rHBx_CNT_RETRY (h : Nat) : Nat := 0x68074 + 0x1000 * h
abbrev rHBx_CNT_PF_REFUSED (h : Nat) : Nat := 0x68078 + 0x1000 * h
abbrev rHBx_CNT_HALT_DROP (h : Nat) : Nat := 0x6807C + 0x1000 * h
abbrev rHBx_WIN_BASE (h : Nat) (n : Nat) : Nat := 0x68080 + 0x1000 * h + 0x8 * n
abbrev fHBx_WIN_BASE_base : Fld := ⟨27, 0⟩
abbrev rHBx_WIN_ATTR (h : Nat) (n : Nat) : Nat := 0x68084 + 0x1000 * h + 0x8 * n
abbrev fHBx_WIN_ATTR_enable : Fld := ⟨31, 31⟩
abbrev fHBx_WIN_ATTR_halted : Fld := ⟨30, 30⟩
abbrev fHBx_WIN_ATTR_halt_en : Fld := ⟨29, 29⟩
abbrev fHBx_WIN_ATTR_prefetch : Fld := ⟨28, 28⟩
abbrev fHBx_WIN_ATTR_downgraded : Fld := ⟨27, 27⟩
abbrev fHBx_WIN_ATTR_posted : Fld := ⟨26, 26⟩
abbrev fHBx_WIN_ATTR_wclass : Fld := ⟨25, 24⟩
abbrev fHBx_WIN_ATTR_rclass : Fld := ⟨23, 22⟩
abbrev rHBx_IRQ_ROUTE (h : Nat) (n : Nat) : Nat := 0x68100 + 0x1000 * h + 0x4 * n
abbrev rHBx_MSIX_ADDR_LO (h : Nat) (n : Nat) : Nat := 0x68200 + 0x1000 * h + 0x10 * n
abbrev rHBx_MSIX_ADDR_HI (h : Nat) (n : Nat) : Nat := 0x68204 + 0x1000 * h + 0x10 * n
abbrev rHBx_MSIX_DATA (h : Nat) (n : Nat) : Nat := 0x68208 + 0x1000 * h + 0x10 * n
abbrev rHBx_MSIX_CTRL (h : Nat) (n : Nat) : Nat := 0x6820C + 0x1000 * h + 0x10 * n
abbrev fHBx_MSIX_CTRL_mask : Fld := ⟨0, 0⟩
abbrev rHBx_PWE (h : Nat) (n : Nat) (w : Nat) : Nat := 0x68400 + 0x1000 * h + 0x20 * n + 0x4 * w
abbrev rHBx_FENCE (h : Nat) : Nat := 0x68600 + 0x1000 * h
abbrev fHBx_FENCE_errors : Fld := ⟨31, 16⟩
abbrev fHBx_FENCE_in_flight : Fld := ⟨15, 0⟩
abbrev rHBx_FENCE_REQ (h : Nat) : Nat := 0x68604 + 0x1000 * h
abbrev fHBx_FENCE_REQ_send : Fld := ⟨0, 0⟩
abbrev rHBx_PWE_CLR (h : Nat) : Nat := 0x68608 + 0x1000 * h
abbrev fHBx_PWE_CLR_free : Fld := ⟨15, 0⟩
abbrev rHBx_WIN_RESUME (h : Nat) : Nat := 0x6860C + 0x1000 * h
abbrev fHBx_WIN_RESUME_resume : Fld := ⟨16, 0⟩

/-! ### ARB (09_host_ports_and_bridge.md) -/
abbrev rARB_CFG : Nat := 0x05040
abbrev fARB_CFG_bridge_hold_us : Fld := ⟨31, 16⟩
abbrev fARB_CFG_bridge_sem : Fld := ⟨5, 0⟩
abbrev rARB_HB_CFG (h : Nat) : Nat := 0x05044 + 0x4 * h
abbrev fARB_HB_CFG_en : Fld := ⟨31, 31⟩
abbrev fARB_HB_CFG_miss_count : Fld := ⟨19, 16⟩
abbrev fARB_HB_CFG_period_ms : Fld := ⟨9, 0⟩
abbrev rARB_HB_STATUS : Nat := 0x0504C
abbrev rARB_CONFLICT_LO : Nat := 0x05050
abbrev rARB_CONFLICT_HI : Nat := 0x05054
abbrev rARB_SEM_HELD_LO : Nat := 0x05058
abbrev rARB_SEM_HELD_HI : Nat := 0x0505C
abbrev rARB_CNT_FORCED : Nat := 0x05060
abbrev rARB_CNT_CONFLICT : Nat := 0x05064
abbrev rARB_CNT_SEM_EXPIRED : Nat := 0x05068
abbrev rARB_CNT_SEM_FULL : Nat := 0x0506C
abbrev rARB_OWNER (n : Nat) : Nat := 0x05100 + 0x4 * n
abbrev fARB_OWNER_node : Fld := ⟨31, 14⟩
abbrev fARB_OWNER_master : Fld := ⟨7, 0⟩
abbrev rARB_SEM_STATE (n : Nat) : Nat := 0x05200 + 0x4 * n
abbrev fARB_SEM_STATE_holder : Fld := ⟨31, 24⟩
abbrev fARB_SEM_STATE_waiters : Fld := ⟨19, 16⟩
abbrev fARB_SEM_STATE_waiting : Fld := ⟨1, 1⟩
abbrev fARB_SEM_STATE_mine : Fld := ⟨0, 0⟩
abbrev rARB_SEM_NODE (n : Nat) : Nat := 0x05300 + 0x4 * n
abbrev fARB_SEM_NODE_node : Fld := ⟨31, 14⟩
abbrev rARB_SEM_CMD : Nat := 0x05600
abbrev fARB_SEM_CMD_op : Fld := ⟨8, 6⟩
abbrev fARB_SEM_CMD_sem : Fld := ⟨5, 0⟩
abbrev rARB_HB (h : Nat) : Nat := 0x05604 + 0x4 * h
abbrev rARB_SEM_FORCE : Nat := 0x0560C
abbrev fARB_SEM_FORCE_go : Fld := ⟨31, 31⟩
abbrev fARB_SEM_FORCE_sem : Fld := ⟨5, 0⟩
abbrev rARB_CLAIM_CLEAR : Nat := 0x05610
abbrev fARB_CLAIM_CLEAR_go : Fld := ⟨31, 31⟩
abbrev fARB_CLAIM_CLEAR_resource : Fld := ⟨5, 0⟩

/-! ### POLL (09_host_ports_and_bridge.md) -/
abbrev rPOLL_CTRL : Nat := 0x6A040
abbrev fPOLL_CTRL_run : Fld := ⟨0, 0⟩
abbrev rPOLL_TABLE : Nat := 0x6A044
abbrev fPOLL_TABLE_base : Fld := ⟨31, 4⟩
abbrev rPOLL_COUNT : Nat := 0x6A048
abbrev fPOLL_COUNT_entries : Fld := ⟨10, 0⟩
abbrev rPOLL_CFG : Nat := 0x6A04C
abbrev fPOLL_CFG_miss_limit : Fld := ⟨18, 16⟩
abbrev rPOLL_STATUS : Nat := 0x6A050
abbrev fPOLL_STATUS_held : Fld := ⟨22, 16⟩
abbrev fPOLL_STATUS_lost : Fld := ⟨15, 0⟩
abbrev rPOLL_CNT_SENT : Nat := 0x6A054
abbrev rPOLL_CNT_SLIP : Nat := 0x6A058
abbrev rPOLL_CNT_MISS : Nat := 0x6A05C
abbrev rTGT_CFG : Nat := 0x6A060
abbrev fTGT_CFG_order_wait : Fld := ⟨15, 0⟩
abbrev rTGT_CNT_ORDER_WAIT : Nat := 0x6A064
abbrev rTGT_CNT_CACHE_HIT : Nat := 0x6A068
abbrev rPOLL_EVT_POP : Nat := 0x6A700
abbrev rPOLL_EVT_POP_HI : Nat := 0x6A704
abbrev rPOLL_EVT_REPLAY : Nat := 0x6A780
abbrev rPOLL_EVT_REPLAY_HI : Nat := 0x6A784

/-! ### XLT (10_protection_and_dma.md) -/
abbrev rXLT_LEVEL : Nat := 0x08040
abbrev fXLT_LEVEL_host_b : Fld := ⟨3, 2⟩
abbrev fXLT_LEVEL_host_a : Fld := ⟨1, 0⟩
abbrev rXLT_SPACE_SEL : Nat := 0x08044
abbrev fXLT_SPACE_SEL_sel : Fld := ⟨13, 0⟩
abbrev rXLT_TABLE_BASE : Nat := 0x08048
abbrev fXLT_TABLE_BASE_base : Fld := ⟨31, 12⟩
abbrev rXLT_TABLE_SIZE : Nat := 0x0804C
abbrev fXLT_TABLE_SIZE_size : Fld := ⟨31, 12⟩
abbrev rXLT_ROOT (n : Nat) : Nat := 0x08050 + 0x4 * n
abbrev fXLT_ROOT_root : Fld := ⟨31, 14⟩
abbrev fXLT_ROOT_valid : Fld := ⟨0, 0⟩
abbrev rXLT_STATUS : Nat := 0x08060
abbrev fXLT_STATUS_barrier_slow : Fld := ⟨8, 8⟩
abbrev fXLT_STATUS_barrier_busy : Fld := ⟨0, 0⟩
abbrev rXLT_BARRIER : Nat := 0x08600
abbrev fXLT_BARRIER_page : Fld := ⟨31, 12⟩
abbrev fXLT_BARRIER_space : Fld := ⟨9, 8⟩
abbrev fXLT_BARRIER_scope : Fld := ⟨1, 0⟩
abbrev rXLT_EXP : Nat := 0x08800
abbrev fXLT_EXP_tlb_off : Fld := ⟨0, 0⟩
abbrev rXLT_REMOTE_CFG : Nat := 0x09040
abbrev fXLT_REMOTE_CFG_master_op : Fld := ⟨0, 0⟩
abbrev rXLT_REMOTE (n : Nat) : Nat := 0x09100 + 0x4 * n
abbrev fXLT_REMOTE_node : Fld := ⟨31, 14⟩
abbrev fXLT_REMOTE_whole_ring : Fld := ⟨13, 13⟩
abbrev fXLT_REMOTE_level : Fld := ⟨2, 1⟩
abbrev fXLT_REMOTE_valid : Fld := ⟨0, 0⟩
abbrev rXLT_FCAP_INFO : Nat := 0x0A040
abbrev fXLT_FCAP_INFO_valid : Fld := ⟨31, 31⟩
abbrev fXLT_FCAP_INFO_cause : Fld := ⟨27, 24⟩
abbrev fXLT_FCAP_INFO_master : Fld := ⟨23, 16⟩
abbrev fXLT_FCAP_INFO_space : Fld := ⟨15, 14⟩
abbrev fXLT_FCAP_INFO_access : Fld := ⟨13, 12⟩
abbrev rXLT_FCAP_ADDR : Nat := 0x0A044
abbrev rXLT_FCAP_NODE : Nat := 0x0A048
abbrev fXLT_FCAP_NODE_node : Fld := ⟨31, 14⟩
abbrev rXLT_CNT_FAULT : Nat := 0x0A080
abbrev rXLT_FCAP_CMD : Nat := 0x0A600
abbrev fXLT_FCAP_CMD_clear : Fld := ⟨0, 0⟩
abbrev rXLT_CNT_HIT : Nat := 0x0B080
abbrev rXLT_CNT_WALK : Nat := 0x0B084
abbrev rXLT_TLB_SEL : Nat := 0x0B800
abbrev fXLT_TLB_SEL_entry : Fld := ⟨5, 0⟩
abbrev rXLT_TLB_TAG : Nat := 0x0B804
abbrev rXLT_TLB_PTE_LO : Nat := 0x0B808
abbrev rXLT_TLB_PTE_HI : Nat := 0x0B80C

/-! ### DMA pages (10_protection_and_dma.md) -/
abbrev rDMA_CTRL (c : Nat) : Nat := 0x50040 + 0x1000 * c
abbrev fDMA_CTRL_rx : Fld := ⟨0, 0⟩
abbrev rDMA_STATE (c : Nat) : Nat := 0x50044 + 0x1000 * c
abbrev fDMA_STATE_owner : Fld := ⟨31, 24⟩
abbrev fDMA_STATE_fault_cause : Fld := ⟨19, 16⟩
abbrev fDMA_STATE_state : Fld := ⟨2, 0⟩
abbrev rDMA_DESC (c : Nat) : Nat := 0x50048 + 0x1000 * c
abbrev fDMA_DESC_desc : Fld := ⟨31, 5⟩
abbrev rDMA_CUR_DESC (c : Nat) : Nat := 0x5004C + 0x1000 * c
abbrev rDMA_CUR_SRC_LO (c : Nat) : Nat := 0x50050 + 0x1000 * c
abbrev rDMA_CUR_SRC_HI (c : Nat) : Nat := 0x50054 + 0x1000 * c
abbrev rDMA_CUR_DST_LO (c : Nat) : Nat := 0x50058 + 0x1000 * c
abbrev rDMA_CUR_DST_HI (c : Nat) : Nat := 0x5005C + 0x1000 * c
abbrev rDMA_CUR_LEFT (c : Nat) : Nat := 0x50060 + 0x1000 * c
abbrev fDMA_CUR_LEFT_left : Fld := ⟨23, 0⟩
abbrev rDMA_FAULT_ADDR (c : Nat) : Nat := 0x50064 + 0x1000 * c
abbrev rDMA_RX_CFG (c : Nat) : Nat := 0x50070 + 0x1000 * c
abbrev fDMA_RX_CFG_port : Fld := ⟨31, 28⟩
abbrev fDMA_RX_CFG_ring_k : Fld := ⟨27, 24⟩
abbrev fDMA_RX_CFG_queue : Fld := ⟨23, 16⟩
abbrev fDMA_RX_CFG_header : Fld := ⟨15, 15⟩
abbrev fDMA_RX_CFG_stall : Fld := ⟨13, 0⟩
abbrev rDMA_RX_RING (c : Nat) : Nat := 0x50074 + 0x1000 * c
abbrev fDMA_RX_RING_base : Fld := ⟨31, 5⟩
abbrev rDMA_RX_HEAD (c : Nat) : Nat := 0x50078 + 0x1000 * c
abbrev fDMA_RX_HEAD_head : Fld := ⟨15, 0⟩
abbrev rDMA_RX_TAIL (c : Nat) : Nat := 0x5007C + 0x1000 * c
abbrev fDMA_RX_TAIL_tail : Fld := ⟨15, 0⟩
abbrev rDMA_RSV_CFG (c : Nat) : Nat := 0x50080 + 0x1000 * c
abbrev fDMA_RSV_CFG_buf_len : Fld := ⟨10, 0⟩
abbrev rDMA_RSV_COUNT (c : Nat) : Nat := 0x50084 + 0x1000 * c
abbrev fDMA_RSV_COUNT_items : Fld := ⟨21, 16⟩
abbrev fDMA_RSV_COUNT_buffers : Fld := ⟨5, 0⟩
abbrev rDMA_CNT_DESC (c : Nat) : Nat := 0x50090 + 0x1000 * c
abbrev rDMA_CNT_FAULT (c : Nat) : Nat := 0x50094 + 0x1000 * c
abbrev rDMA_CNT_POSTED_ERR (c : Nat) : Nat := 0x50098 + 0x1000 * c
abbrev rDMA_CNT_RX_FRAMES (c : Nat) : Nat := 0x5009C + 0x1000 * c
abbrev rDMA_CNT_STALL (c : Nat) : Nat := 0x500A0 + 0x1000 * c
abbrev rDMA_CMD (c : Nat) : Nat := 0x50600 + 0x1000 * c
abbrev fDMA_CMD_start : Fld := ⟨0, 0⟩
abbrev fDMA_CMD_resume : Fld := ⟨1, 1⟩
abbrev fDMA_CMD_abort : Fld := ⟨2, 2⟩
abbrev fDMA_CMD_stop : Fld := ⟨3, 3⟩
abbrev rDMA_RSV_PUSH (c : Nat) : Nat := 0x50604 + 0x1000 * c
abbrev rDMA_RSV_POP (c : Nat) : Nat := 0x50700 + 0x1000 * c
abbrev rDMA_RSV_POP_HI (c : Nat) : Nat := 0x50704 + 0x1000 * c
abbrev rDMA_RSV_REPLAY (c : Nat) : Nat := 0x50780 + 0x1000 * c
abbrev rDMA_RSV_REPLAY_HI (c : Nat) : Nat := 0x50784 + 0x1000 * c
abbrev rDMA_EXP (c : Nat) : Nat := 0x50800 + 0x1000 * c
abbrev fDMA_EXP_retries : Fld := ⟨18, 16⟩
abbrev fDMA_EXP_rsp_timeout : Fld := ⟨15, 0⟩

/-! ### DMAA (10_protection_and_dma.md) -/
abbrev rDMAA_CFG : Nat := 0x60040
abbrev fDMAA_CFG_warden_only : Fld := ⟨15, 0⟩
abbrev rDMAA_STATUS : Nat := 0x60044
abbrev rDMAA_CNT_NONE : Nat := 0x60080
abbrev rDMAA_CNT_FORCED_FREE : Nat := 0x60084
abbrev rDMAA_CNT_UNBOUND : Nat := 0x60088
abbrev rDMAA_OWNER (n : Nat) : Nat := 0x60100 + 0x4 * n
abbrev fDMAA_OWNER_node : Fld := ⟨31, 14⟩
abbrev fDMAA_OWNER_att : Fld := ⟨8, 8⟩
abbrev fDMAA_OWNER_owner : Fld := ⟨7, 0⟩
abbrev rDMAA_FREE : Nat := 0x60600
abbrev rDMAA_ALLOC : Nat := 0x60700
abbrev rDMAA_ALLOC_REPLAY : Nat := 0x60780

/-! ### PMUX (11_field_pins_and_queues.md) -/
abbrev rPMUX_BANK (c : Nat) : Nat := 0xB0040 + 0x1000 * c
abbrev fPMUX_BANK_supply_ok : Fld := ⟨8, 8⟩
abbrev fPMUX_BANK_level : Fld := ⟨1, 0⟩
abbrev rPMUX_GPIO_IN (c : Nat) : Nat := 0xB0044 + 0x1000 * c
abbrev rPMUX_GPIO_OUT (c : Nat) : Nat := 0xB0048 + 0x1000 * c
abbrev rPMUX_GPIO_OE (c : Nat) : Nat := 0xB004C + 0x1000 * c
abbrev rPMUX_GPIO_RISE_EN (c : Nat) : Nat := 0xB0050 + 0x1000 * c
abbrev rPMUX_GPIO_FALL_EN (c : Nat) : Nat := 0xB0054 + 0x1000 * c
abbrev rPMUX_GPIO_EDGE (c : Nat) : Nat := 0xB0058 + 0x1000 * c
abbrev rPMUX_GPIO_SET (c : Nat) : Nat := 0xB0060 + 0x1000 * c
abbrev rPMUX_GPIO_CLR (c : Nat) : Nat := 0xB0064 + 0x1000 * c
abbrev rPMUX_PIN (c : Nat) (n : Nat) : Nat := 0xB0080 + 0x1000 * c + 0x4 * n
abbrev fPMUX_PIN_filter : Fld := ⟨23, 20⟩
abbrev fPMUX_PIN_invert : Fld := ⟨19, 19⟩
abbrev fPMUX_PIN_od : Fld := ⟨18, 18⟩
abbrev fPMUX_PIN_pull : Fld := ⟨17, 16⟩
abbrev fPMUX_PIN_drive : Fld := ⟨15, 14⟩
abbrev fPMUX_PIN_slew : Fld := ⟨13, 13⟩
abbrev fPMUX_PIN_function : Fld := ⟨6, 0⟩

/-! ### FQ pages (11_field_pins_and_queues.md) -/
abbrev rFQ_MEM (c : Nat) : Nat := 0xB4040 + 0x1000 * c
abbrev fFQ_MEM_depths : Fld := ⟨27, 16⟩
abbrev fFQ_MEM_used : Fld := ⟨11, 0⟩
abbrev rFQ_CNT_RX_FRAMES (c : Nat) : Nat := 0xB4044 + 0x1000 * c
abbrev rFQ_CNT_TX_FRAMES (c : Nat) : Nat := 0xB4048 + 0x1000 * c
abbrev rFQ_CNT_BAD_FRAME (c : Nat) : Nat := 0xB404C + 0x1000 * c
abbrev rFQ_CNT_NO_QUEUE (c : Nat) : Nat := 0xB4050 + 0x1000 * c
abbrev rFQ_CNT_TX_REFUSED (c : Nat) : Nat := 0xB4054 + 0x1000 * c
abbrev rFQ_CNT_PUSH_REFUSED (c : Nat) : Nat := 0xB4058 + 0x1000 * c
abbrev rFQ_CNT_RAGGED (c : Nat) : Nat := 0xB405C + 0x1000 * c
abbrev rFQ_CNT_DISCARD_WORDS (c : Nat) : Nat := 0xB4060 + 0x1000 * c
abbrev rFQ_CNT_ECC_FIXED (c : Nat) : Nat := 0xB4064 + 0x1000 * c
abbrev rFQ_QCFG (c : Nat) (q : Nat) : Nat := 0xB4080 + 0x1000 * c + 0x4 * q
abbrev fFQ_QCFG_enable : Fld := ⟨31, 31⟩
abbrev fFQ_QCFG_width : Fld := ⟨29, 28⟩
abbrev fFQ_QCFG_window : Fld := ⟨27, 24⟩
abbrev fFQ_QCFG_rx_depth : Fld := ⟨23, 16⟩
abbrev fFQ_QCFG_tx_depth : Fld := ⟨15, 8⟩
abbrev rFQ_BIND (c : Nat) (q : Nat) : Nat := 0xB4100 + 0x1000 * c + 0x4 * q
abbrev fFQ_BIND_rx_mode : Fld := ⟨31, 30⟩
abbrev fFQ_BIND_tx_mode : Fld := ⟨29, 28⟩
abbrev fFQ_BIND_max_words : Fld := ⟨27, 22⟩
abbrev fFQ_BIND_flow_id : Fld := ⟨15, 0⟩
abbrev rFQ_IDLE (c : Nat) (q : Nat) : Nat := 0xB4180 + 0x1000 * c + 0x4 * q
abbrev rFQ_STATUS (c : Nat) (q : Nat) : Nat := 0xB4200 + 0x1000 * c + 0x4 * q
abbrev fFQ_STATUS_packets : Fld := ⟨31, 24⟩
abbrev fFQ_STATUS_rx_words : Fld := ⟨23, 16⟩
abbrev fFQ_STATUS_tx_free : Fld := ⟨15, 8⟩
abbrev fFQ_STATUS_credits : Fld := ⟨4, 0⟩
abbrev rFQ_DATA_LO (c : Nat) (q : Nat) : Nat := 0xB4280 + 0x1000 * c + 0x8 * q
abbrev rFQ_DATA_HI (c : Nat) (q : Nat) : Nat := 0xB4284 + 0x1000 * c + 0x8 * q
abbrev rFQ_TXDATA_LO (c : Nat) (q : Nat) : Nat := 0xB4380 + 0x1000 * c + 0x8 * q
abbrev fFQ_TXDATA_LO_data : Fld := ⟨31, 0⟩
abbrev rFQ_TXDATA_HI (c : Nat) (q : Nat) : Nat := 0xB4384 + 0x1000 * c + 0x8 * q
abbrev fFQ_TXDATA_HI_data : Fld := ⟨31, 0⟩
abbrev rFQ_PUSH (c : Nat) (q : Nat) : Nat := 0xB4600 + 0x1000 * c + 0x4 * q
abbrev rFQ_CMD (c : Nat) : Nat := 0xB4680 + 0x1000 * c
abbrev fFQ_CMD_queue : Fld := ⟨4, 0⟩
abbrev fFQ_CMD_close_rx : Fld := ⟨8, 8⟩
abbrev fFQ_CMD_flush_rx : Fld := ⟨9, 9⟩
abbrev fFQ_CMD_flush_tx : Fld := ⟨10, 10⟩
abbrev rFQ_POP (c : Nat) (q : Nat) : Nat := 0xB4700 + 0x1000 * c + 0x4 * q
abbrev fFQ_POP_packets : Fld := ⟨31, 24⟩
abbrev fFQ_POP_idle : Fld := ⟨16, 16⟩
abbrev fFQ_POP_bad : Fld := ⟨12, 12⟩
abbrev fFQ_POP_end : Fld := ⟨11, 11⟩
abbrev fFQ_POP_valid : Fld := ⟨3, 0⟩
abbrev rFQ_POP_REPLAY (c : Nat) (q : Nat) : Nat := 0xB4780 + 0x1000 * c + 0x4 * q

/-! ### UART (12_uart_spi_i2c.md) -/
abbrev rUART_CFG (u : Nat) : Nat := 0x80040 + 0x1000 * u
abbrev fUART_CFG_idle_bits : Fld := ⟨23, 16⟩
abbrev fUART_CFG_err_fault : Fld := ⟨14, 14⟩
abbrev fUART_CFG_tx_en : Fld := ⟨13, 13⟩
abbrev fUART_CFG_rx_en : Fld := ⟨12, 12⟩
abbrev fUART_CFG_addr_filter : Fld := ⟨11, 11⟩
abbrev fUART_CFG_addr_mode : Fld := ⟨10, 10⟩
abbrev fUART_CFG_echo_off : Fld := ⟨9, 9⟩
abbrev fUART_CFG_rs485 : Fld := ⟨8, 8⟩
abbrev fUART_CFG_stop2 : Fld := ⟨7, 7⟩
abbrev fUART_CFG_parity : Fld := ⟨6, 4⟩
abbrev fUART_CFG_data_bits : Fld := ⟨3, 0⟩
abbrev rUART_BAUD (u : Nat) : Nat := 0x80044 + 0x1000 * u
abbrev fUART_BAUD_div : Fld := ⟨23, 4⟩
abbrev fUART_BAUD_frac : Fld := ⟨3, 0⟩
abbrev rUART_DE (u : Nat) : Nat := 0x80048 + 0x1000 * u
abbrev fUART_DE_gap_bits : Fld := ⟨23, 16⟩
abbrev fUART_DE_de_hold : Fld := ⟨15, 8⟩
abbrev fUART_DE_de_setup : Fld := ⟨7, 0⟩
abbrev rUART_ADDR (u : Nat) : Nat := 0x8004C + 0x1000 * u
abbrev fUART_ADDR_mask : Fld := ⟨15, 8⟩
abbrev fUART_ADDR_addr : Fld := ⟨7, 0⟩
abbrev rUART_BRK (u : Nat) : Nat := 0x80050 + 0x1000 * u
abbrev fUART_BRK_brk_bits : Fld := ⟨7, 0⟩
abbrev rUART_STATUS (u : Nat) : Nat := 0x80054 + 0x1000 * u
abbrev fUART_STATUS_held : Fld := ⟨10, 8⟩
abbrev fUART_STATUS_rxd_low : Fld := ⟨4, 4⟩
abbrev fUART_STATUS_rxd : Fld := ⟨3, 3⟩
abbrev fUART_STATUS_de : Fld := ⟨2, 2⟩
abbrev fUART_STATUS_receiving : Fld := ⟨1, 1⟩
abbrev fUART_STATUS_transmitting : Fld := ⟨0, 0⟩
abbrev rUART_CNT_RX_CHARS (u : Nat) : Nat := 0x80080 + 0x1000 * u
abbrev rUART_CNT_TX_CHARS (u : Nat) : Nat := 0x80084 + 0x1000 * u
abbrev rUART_CNT_PARITY (u : Nat) : Nat := 0x80088 + 0x1000 * u
abbrev rUART_CNT_FRAMING (u : Nat) : Nat := 0x8008C + 0x1000 * u
abbrev rUART_CNT_BREAK (u : Nat) : Nat := 0x80090 + 0x1000 * u
abbrev rUART_CNT_OVERRUN (u : Nat) : Nat := 0x80094 + 0x1000 * u
abbrev rUART_CNT_FILTERED (u : Nat) : Nat := 0x80098 + 0x1000 * u
abbrev rUART_CMD (u : Nat) : Nat := 0x80600 + 0x1000 * u
abbrev fUART_CMD_send_break : Fld := ⟨0, 0⟩

/-! ### SPI (12_uart_spi_i2c.md) -/
abbrev rSPI_CFG (u : Nat) : Nat := 0x98040 + 0x1000 * u
abbrev fSPI_CFG_rx_en : Fld := ⟨24, 24⟩
abbrev fSPI_CFG_sample_delay : Fld := ⟨22, 20⟩
abbrev fSPI_CFG_cs : Fld := ⟨17, 16⟩
abbrev fSPI_CFG_frame_bits : Fld := ⟨13, 8⟩
abbrev fSPI_CFG_lsb_first : Fld := ⟨3, 3⟩
abbrev fSPI_CFG_mode : Fld := ⟨2, 1⟩
abbrev fSPI_CFG_target : Fld := ⟨0, 0⟩
abbrev rSPI_CLK (u : Nat) : Nat := 0x98044 + 0x1000 * u
abbrev fSPI_CLK_div : Fld := ⟨11, 0⟩
abbrev rSPI_TIMING (u : Nat) : Nat := 0x98048 + 0x1000 * u
abbrev fSPI_TIMING_cs_idle : Fld := ⟨31, 24⟩
abbrev fSPI_TIMING_frame_gap : Fld := ⟨23, 16⟩
abbrev fSPI_TIMING_cs_hold : Fld := ⟨15, 8⟩
abbrev fSPI_TIMING_cs_setup : Fld := ⟨7, 0⟩
abbrev rSPI_STATUS (u : Nat) : Nat := 0x9804C + 0x1000 * u
abbrev fSPI_STATUS_held : Fld := ⟨10, 8⟩
abbrev fSPI_STATUS_cs_in_use : Fld := ⟨5, 4⟩
abbrev fSPI_STATUS_waiting : Fld := ⟨2, 2⟩
abbrev fSPI_STATUS_cs_active : Fld := ⟨1, 1⟩
abbrev fSPI_STATUS_busy : Fld := ⟨0, 0⟩
abbrev rSPI_CNT_FRAMES (u : Nat) : Nat := 0x98080 + 0x1000 * u
abbrev rSPI_CNT_PACKETS (u : Nat) : Nat := 0x98084 + 0x1000 * u
abbrev rSPI_CNT_OVERRUN (u : Nat) : Nat := 0x98088 + 0x1000 * u
abbrev rSPI_CNT_UNDERRUN (u : Nat) : Nat := 0x9808C + 0x1000 * u
abbrev rSPI_CNT_ABORTED (u : Nat) : Nat := 0x98090 + 0x1000 * u
abbrev rSPI_CMD (u : Nat) : Nat := 0x98600 + 0x1000 * u
abbrev fSPI_CMD_end : Fld := ⟨16, 16⟩
abbrev fSPI_CMD_count : Fld := ⟨15, 0⟩

/-! ### I2C (12_uart_spi_i2c.md) -/
abbrev rIIC_CFG (u : Nat) : Nat := 0xA0040 + 0x1000 * u
abbrev fIIC_CFG_stretch_limit : Fld := ⟨31, 24⟩
abbrev fIIC_CFG_taddr : Fld := ⟨14, 8⟩
abbrev fIIC_CFG_general_call : Fld := ⟨2, 2⟩
abbrev fIIC_CFG_controller_en : Fld := ⟨1, 1⟩
abbrev fIIC_CFG_target_en : Fld := ⟨0, 0⟩
abbrev rIIC_SCL (u : Nat) : Nat := 0xA0044 + 0x1000 * u
abbrev fIIC_SCL_scl_high : Fld := ⟨31, 16⟩
abbrev fIIC_SCL_scl_low : Fld := ⟨15, 0⟩
abbrev rIIC_TIME (u : Nat) : Nat := 0xA0048 + 0x1000 * u
abbrev fIIC_TIME_timeout : Fld := ⟨31, 16⟩
abbrev fIIC_TIME_setup : Fld := ⟨15, 8⟩
abbrev fIIC_TIME_hold : Fld := ⟨7, 0⟩
abbrev rIIC_STATUS (u : Nat) : Nat := 0xA004C + 0x1000 * u
abbrev fIIC_STATUS_sda : Fld := ⟨5, 5⟩
abbrev fIIC_STATUS_scl : Fld := ⟨4, 4⟩
abbrev fIIC_STATUS_addressed : Fld := ⟨3, 3⟩
abbrev fIIC_STATUS_stretching : Fld := ⟨2, 2⟩
abbrev fIIC_STATUS_holding : Fld := ⟨1, 1⟩
abbrev fIIC_STATUS_bus_busy : Fld := ⟨0, 0⟩
abbrev rIIC_CNT_NACK (u : Nat) : Nat := 0xA0080 + 0x1000 * u
abbrev rIIC_CNT_ARB_LOST (u : Nat) : Nat := 0xA0084 + 0x1000 * u
abbrev rIIC_CNT_BUS_ERR (u : Nat) : Nat := 0xA0088 + 0x1000 * u
abbrev rIIC_CNT_TIMEOUT (u : Nat) : Nat := 0xA008C + 0x1000 * u
abbrev rIIC_CNT_T_UNDERRUN (u : Nat) : Nat := 0xA0090 + 0x1000 * u
abbrev rIIC_CNT_T_OVERRUN (u : Nat) : Nat := 0xA0094 + 0x1000 * u
abbrev rIIC_CNT_DISCARD (u : Nat) : Nat := 0xA0098 + 0x1000 * u
abbrev rIIC_CMD (u : Nat) : Nat := 0xA0600 + 0x1000 * u
abbrev fIIC_CMD_bus_clear : Fld := ⟨0, 0⟩
abbrev fIIC_CMD_release : Fld := ⟨1, 1⟩

/-! ### CANF (13_can_fd.md) -/
abbrev rCANF_CFG (u : Nat) : Nat := 0x90040 + 0x1000 * u
abbrev fCANF_CFG_tbase : Fld := ⟨23, 22⟩
abbrev fCANF_CFG_pex_en : Fld := ⟨21, 21⟩
abbrev fCANF_CFG_warn_fault : Fld := ⟨20, 20⟩
abbrev fCANF_CFG_listen_only : Fld := ⟨15, 15⟩
abbrev fCANF_CFG_fd_en : Fld := ⟨13, 13⟩
abbrev fCANF_CFG_one_shot : Fld := ⟨12, 12⟩
abbrev fCANF_CFG_tx_order : Fld := ⟨11, 11⟩
abbrev rCANF_NBT (u : Nat) : Nat := 0x90044 + 0x1000 * u
abbrev fCANF_NBT_nsjw : Fld := ⟨31, 25⟩
abbrev fCANF_NBT_ntseg2 : Fld := ⟨24, 18⟩
abbrev fCANF_NBT_ntseg1 : Fld := ⟨17, 10⟩
abbrev fCANF_NBT_nbrp : Fld := ⟨7, 0⟩
abbrev rCANF_DBT (u : Nat) : Nat := 0x90048 + 0x1000 * u
abbrev fCANF_DBT_dsjw : Fld := ⟨27, 24⟩
abbrev fCANF_DBT_dtseg2 : Fld := ⟨19, 16⟩
abbrev fCANF_DBT_dtseg1 : Fld := ⟨12, 8⟩
abbrev fCANF_DBT_dbrp : Fld := ⟨4, 0⟩
abbrev rCANF_TDC (u : Nat) : Nat := 0x9004C + 0x1000 * u
abbrev fCANF_TDC_tdc_en : Fld := ⟨31, 31⟩
abbrev fCANF_TDC_tdc_filter : Fld := ⟨22, 16⟩
abbrev fCANF_TDC_tdc_offset : Fld := ⟨6, 0⟩
abbrev rCANF_STATUS (u : Nat) : Nat := 0x90050 + 0x1000 * u
abbrev fCANF_STATUS_fifo_frames : Fld := ⟨29, 24⟩
abbrev fCANF_STATUS_recover_count : Fld := ⟨23, 16⟩
abbrev fCANF_STATUS_loader_waiting : Fld := ⟨4, 4⟩
abbrev fCANF_STATUS_data_phase : Fld := ⟨3, 3⟩
abbrev fCANF_STATUS_receiving : Fld := ⟨2, 2⟩
abbrev fCANF_STATUS_transmitting : Fld := ⟨1, 1⟩
abbrev fCANF_STATUS_bus_idle : Fld := ⟨0, 0⟩
abbrev rCANF_ERR (u : Nat) : Nat := 0x90054 + 0x1000 * u
abbrev fCANF_ERR_lec : Fld := ⟨30, 28⟩
abbrev fCANF_ERR_lec_data : Fld := ⟨27, 27⟩
abbrev fCANF_ERR_warning : Fld := ⟨26, 26⟩
abbrev fCANF_ERR_state : Fld := ⟨25, 24⟩
abbrev fCANF_ERR_tec : Fld := ⟨16, 8⟩
abbrev fCANF_ERR_rec : Fld := ⟨7, 0⟩
abbrev rCANF_TDC_MEAS (u : Nat) : Nat := 0x90058 + 0x1000 * u
abbrev fCANF_TDC_MEAS_clipped : Fld := ⟨7, 7⟩
abbrev fCANF_TDC_MEAS_delay : Fld := ⟨6, 0⟩
abbrev rCANF_TXB (u : Nat) (n : Nat) : Nat := 0x90060 + 0x1000 * u + 0x4 * n
abbrev fCANF_TXB_state : Fld := ⟨31, 30⟩
abbrev fCANF_TXB_result : Fld := ⟨29, 27⟩
abbrev fCANF_TXB_attempts : Fld := ⟨23, 16⟩
abbrev fCANF_TXB_tag : Fld := ⟨15, 0⟩
abbrev rCANF_FILT_CFG (u : Nat) : Nat := 0x90070 + 0x1000 * u
abbrev fCANF_FILT_CFG_default : Fld := ⟨0, 0⟩
abbrev rCANF_CNT_RX_FRAMES (u : Nat) : Nat := 0x90080 + 0x1000 * u
abbrev rCANF_CNT_TX_FRAMES (u : Nat) : Nat := 0x90084 + 0x1000 * u
abbrev rCANF_CNT_RX_LOST (u : Nat) : Nat := 0x90088 + 0x1000 * u
abbrev rCANF_CNT_FILTERED (u : Nat) : Nat := 0x9008C + 0x1000 * u
abbrev rCANF_CNT_TX_BAD (u : Nat) : Nat := 0x90090 + 0x1000 * u
abbrev rCANF_CNT_ARB_LOST (u : Nat) : Nat := 0x90094 + 0x1000 * u
abbrev rCANF_CNT_STUFF_ERR (u : Nat) : Nat := 0x90098 + 0x1000 * u
abbrev rCANF_CNT_FORM_ERR (u : Nat) : Nat := 0x9009C + 0x1000 * u
abbrev rCANF_CNT_ACK_ERR (u : Nat) : Nat := 0x900A0 + 0x1000 * u
abbrev rCANF_CNT_BIT_ERR (u : Nat) : Nat := 0x900A4 + 0x1000 * u
abbrev rCANF_CNT_CRC_ERR (u : Nat) : Nat := 0x900A8 + 0x1000 * u
abbrev rCANF_CNT_BUSOFF (u : Nat) : Nat := 0x900AC + 0x1000 * u
abbrev rCANF_CNT_PEX (u : Nat) : Nat := 0x900B0 + 0x1000 * u
abbrev rCANF_FILT_ID (u : Nat) (n : Nat) : Nat := 0x90100 + 0x1000 * u + 0x8 * n
abbrev fCANF_FILT_ID_enable : Fld := ⟨31, 31⟩
abbrev fCANF_FILT_ID_ide : Fld := ⟨30, 30⟩
abbrev fCANF_FILT_ID_action : Fld := ⟨29, 29⟩
abbrev fCANF_FILT_ID_id : Fld := ⟨28, 0⟩
abbrev rCANF_FILT_MASK (u : Nat) (n : Nat) : Nat := 0x90104 + 0x1000 * u + 0x8 * n
abbrev fCANF_FILT_MASK_mask : Fld := ⟨28, 0⟩
abbrev rCANF_CMD (u : Nat) : Nat := 0x90600 + 0x1000 * u
abbrev fCANF_CMD_abort : Fld := ⟨2, 0⟩
abbrev fCANF_CMD_recover : Fld := ⟨8, 8⟩
abbrev rCANF_EXP (u : Nat) : Nat := 0x90800 + 0x1000 * u
abbrev fCANF_EXP_rx_own : Fld := ⟨1, 1⟩
abbrev fCANF_EXP_loopback : Fld := ⟨0, 0⟩

/-! ### CLOV (14_clove_engines.md) -/
abbrev rCLOV_CFG (e : Nat) : Nat := 0xA8040 + 0x1000 * e
abbrev fCLOV_CFG_join : Fld := ⟨23, 16⟩
abbrev fCLOV_CFG_rotation : Fld := ⟨2, 0⟩
abbrev rCLOV_STATUS (e : Nat) : Nat := 0xA8044 + 0x1000 * e
abbrev fCLOV_STATUS_stalled : Fld := ⟨31, 16⟩
abbrev fCLOV_STATUS_active : Fld := ⟨15, 0⟩
abbrev rCLOV_BANK (e : Nat) : Nat := 0xA8048 + 0x1000 * e
abbrev fCLOV_BANK_chan_bank : Fld := ⟨31, 16⟩
abbrev fCLOV_BANK_swap_pending : Fld := ⟨1, 1⟩
abbrev fCLOV_BANK_bank : Fld := ⟨0, 0⟩
abbrev rCLOV_EVENT_EN (e : Nat) : Nat := 0xA804C + 0x1000 * e
abbrev rCLOV_EVENT (e : Nat) : Nat := 0xA8050 + 0x1000 * e
abbrev rCLOV_PMEM_ADDR (e : Nat) : Nat := 0xA8054 + 0x1000 * e
abbrev fCLOV_PMEM_ADDR_bank : Fld := ⟨10, 10⟩
abbrev fCLOV_PMEM_ADDR_word : Fld := ⟨9, 0⟩
abbrev rCLOV_PMEM_DATA (e : Nat) : Nat := 0xA8058 + 0x1000 * e
abbrev rCLOV_SYNC_SEL_LO (e : Nat) : Nat := 0xA8060 + 0x1000 * e
abbrev rCLOV_SYNC_SEL_HI (e : Nat) : Nat := 0xA8064 + 0x1000 * e
abbrev rCLOV_SYNC_STATUS (e : Nat) : Nat := 0xA8068 + 0x1000 * e
abbrev fCLOV_SYNC_STATUS_armed : Fld := ⟨31, 31⟩
abbrev fCLOV_SYNC_STATUS_unit : Fld := ⟨3, 0⟩
abbrev rCLOV_CNT_REFUSED (e : Nat) : Nat := 0xA8080 + 0x1000 * e
abbrev rCLOV_CNT_EDGE_LOST (e : Nat) : Nat := 0xA8084 + 0x1000 * e
abbrev rCLOV_CNT_ERROR (e : Nat) : Nat := 0xA8088 + 0x1000 * e
abbrev rCLOV_CH_CFG (e : Nat) (k : Nat) : Nat := 0xA8100 + 0x1000 * e + 0x20 * k
abbrev fCLOV_CH_CFG_pin_count : Fld := ⟨10, 8⟩
abbrev fCLOV_CH_CFG_pin_base : Fld := ⟨4, 0⟩
abbrev rCLOV_CH_ENTRY (e : Nat) (k : Nat) : Nat := 0xA8104 + 0x1000 * e + 0x20 * k
abbrev fCLOV_CH_ENTRY_entry_b : Fld := ⟨25, 16⟩
abbrev fCLOV_CH_ENTRY_entry_a : Fld := ⟨9, 0⟩
abbrev rCLOV_CH_STATUS (e : Nat) (k : Nat) : Nat := 0xA8108 + 0x1000 * e + 0x20 * k
abbrev fCLOV_CH_STATUS_pc : Fld := ⟨25, 16⟩
abbrev fCLOV_CH_STATUS_bank : Fld := ⟨15, 15⟩
abbrev fCLOV_CH_STATUS_end : Fld := ⟨11, 11⟩
abbrev fCLOV_CH_STATUS_idle : Fld := ⟨10, 10⟩
abbrev fCLOV_CH_STATUS_timeout : Fld := ⟨9, 9⟩
abbrev fCLOV_CH_STATUS_match : Fld := ⟨8, 8⟩
abbrev fCLOV_CH_STATUS_stop_cause : Fld := ⟨5, 4⟩
abbrev fCLOV_CH_STATUS_state : Fld := ⟨1, 0⟩
abbrev rCLOV_CH_PC (e : Nat) (k : Nat) : Nat := 0xA810C + 0x1000 * e + 0x20 * k
abbrev fCLOV_CH_PC_pc : Fld := ⟨9, 0⟩
abbrev rCLOV_CH_SO (e : Nat) (k : Nat) : Nat := 0xA8110 + 0x1000 * e + 0x20 * k
abbrev rCLOV_CH_SI (e : Nat) (k : Nat) : Nat := 0xA8114 + 0x1000 * e + 0x20 * k
abbrev rCLOV_CH_COUNTER (e : Nat) (k : Nat) : Nat := 0xA8118 + 0x1000 * e + 0x20 * k
abbrev fCLOV_CH_COUNTER_counter : Fld := ⟨15, 0⟩
abbrev rCLOV_CH_SCRATCH (e : Nat) (k : Nat) : Nat := 0xA811C + 0x1000 * e + 0x20 * k
abbrev fCLOV_CH_SCRATCH_scratch1 : Fld := ⟨31, 16⟩
abbrev fCLOV_CH_SCRATCH_scratch0 : Fld := ⟨15, 0⟩
abbrev rCLOV_MV_CFG (e : Nat) (k : Nat) : Nat := 0xA8300 + 0x1000 * e + 0x10 * k
abbrev fCLOV_MV_CFG_rx_en : Fld := ⟨31, 31⟩
abbrev fCLOV_MV_CFG_tx_en : Fld := ⟨30, 30⟩
abbrev fCLOV_MV_CFG_rx_fault : Fld := ⟨29, 29⟩
abbrev fCLOV_MV_CFG_tx_fault : Fld := ⟨28, 28⟩
abbrev fCLOV_MV_CFG_size : Fld := ⟨3, 0⟩
abbrev rCLOV_MV_BASE (e : Nat) (k : Nat) : Nat := 0xA8304 + 0x1000 * e + 0x10 * k
abbrev fCLOV_MV_BASE_base : Fld := ⟨31, 4⟩
abbrev rCLOV_MV_RX (e : Nat) (k : Nat) : Nat := 0xA8308 + 0x1000 * e + 0x10 * k
abbrev fCLOV_MV_RX_head : Fld := ⟨31, 16⟩
abbrev fCLOV_MV_RX_tail : Fld := ⟨15, 0⟩
abbrev rCLOV_MV_TX (e : Nat) (k : Nat) : Nat := 0xA830C + 0x1000 * e + 0x10 * k
abbrev fCLOV_MV_TX_head : Fld := ⟨31, 16⟩
abbrev fCLOV_MV_TX_tail : Fld := ⟨15, 0⟩
abbrev rCLOV_PMEM_DATA_INC (e : Nat) : Nat := 0xA8600 + 0x1000 * e
abbrev rCLOV_START (e : Nat) : Nat := 0xA8604 + 0x1000 * e
abbrev rCLOV_STOP (e : Nat) : Nat := 0xA8608 + 0x1000 * e
abbrev rCLOV_CMD (e : Nat) : Nat := 0xA860C + 0x1000 * e
abbrev fCLOV_CMD_swap : Fld := ⟨0, 0⟩
abbrev rCLOV_SYNC_CMD (e : Nat) : Nat := 0xA8610 + 0x1000 * e
abbrev fCLOV_SYNC_CMD_disarm : Fld := ⟨10, 10⟩
abbrev fCLOV_SYNC_CMD_arm : Fld := ⟨9, 9⟩
abbrev fCLOV_SYNC_CMD_now : Fld := ⟨8, 8⟩
abbrev fCLOV_SYNC_CMD_unit : Fld := ⟨3, 0⟩
abbrev rCLOV_EXP (e : Nat) : Nat := 0xA8800 + 0x1000 * e
abbrev fCLOV_EXP_step_mode : Fld := ⟨0, 0⟩
abbrev rCLOV_STEP (e : Nat) : Nat := 0xA8E00 + 0x1000 * e

/-! ### EMAC (15_ethernet_macs.md) -/
abbrev rxx_CFG (m : Nat) : Nat := 0x70040 + 0x1000 * m
abbrev fxx_CFG_max_frame : Fld := ⟨22, 12⟩
abbrev fxx_CFG_promisc : Fld := ⟨10, 10⟩
abbrev fxx_CFG_speed : Fld := ⟨9, 8⟩
abbrev fxx_CFG_pause_en : Fld := ⟨7, 7⟩
abbrev fxx_CFG_txc_delay : Fld := ⟨6, 6⟩
abbrev fxx_CFG_rxc_delay : Fld := ⟨5, 5⟩
abbrev fxx_CFG_inband : Fld := ⟨4, 4⟩
abbrev fxx_CFG_mcast_en : Fld := ⟨3, 3⟩
abbrev fxx_CFG_bcast_en : Fld := ⟨2, 2⟩
abbrev fxx_CFG_tx_en : Fld := ⟨1, 1⟩
abbrev fxx_CFG_rx_en : Fld := ⟨0, 0⟩
abbrev rxx_ADDR_LO (m : Nat) : Nat := 0x70044 + 0x1000 * m
abbrev rxx_ADDR_HI (m : Nat) : Nat := 0x70048 + 0x1000 * m
abbrev fxx_ADDR_HI_addr : Fld := ⟨15, 0⟩
abbrev rxx_STATUS (m : Nat) : Nat := 0x7004C + 0x1000 * m
abbrev fxx_STATUS_attempt : Fld := ⟨11, 8⟩
abbrev fxx_STATUS_pause_active : Fld := ⟨7, 7⟩
abbrev fxx_STATUS_crs : Fld := ⟨6, 6⟩
abbrev fxx_STATUS_transmitting : Fld := ⟨5, 5⟩
abbrev fxx_STATUS_half_duplex : Fld := ⟨4, 4⟩
abbrev fxx_STATUS_link_speed : Fld := ⟨3, 2⟩
abbrev fxx_STATUS_link_up : Fld := ⟨1, 1⟩
abbrev fxx_STATUS_receiving : Fld := ⟨0, 0⟩
abbrev rxx_RX_BIND (m : Nat) (n : Nat) : Nat := 0x70050 + 0x1000 * m + 0x4 * n
abbrev fxx_RX_BIND_valid : Fld := ⟨31, 31⟩
abbrev fxx_RX_BIND_flow_id : Fld := ⟨15, 0⟩
abbrev rxx_ETYPE (m : Nat) : Nat := 0x70060 + 0x1000 * m
abbrev fxx_ETYPE_etype : Fld := ⟨15, 0⟩
abbrev rxx_CNT_HALF (m : Nat) : Nat := 0x70064 + 0x1000 * m
abbrev rxx_CNT_HALF_HI (m : Nat) : Nat := 0x70068 + 0x1000 * m
abbrev fxx_CNT_HALF_HI_half : Fld := ⟨7, 0⟩
abbrev rxx_WAKE_CFG (m : Nat) : Nat := 0x7006C + 0x1000 * m
abbrev fxx_WAKE_CFG_en : Fld := ⟨7, 0⟩
abbrev rxx_WAKE_STATUS (m : Nat) : Nat := 0x70070 + 0x1000 * m
abbrev fxx_WAKE_STATUS_matched : Fld := ⟨7, 0⟩
abbrev rxx_CNT (m : Nat) (n : Nat) : Nat := 0x70100 + 0x1000 * m + 0x4 * n
abbrev rxx_SNAP (m : Nat) (n : Nat) : Nat := 0x70200 + 0x1000 * m + 0x4 * n
abbrev rxx_WAKE_MASK (m : Nat) (w : Nat) (n : Nat) : Nat := 0x70300 + 0x1000 * m + 0x20 * w + 0x4 * n
abbrev rxx_WAKE_CHECK (m : Nat) (w : Nat) : Nat := 0x70310 + 0x1000 * m + 0x20 * w
abbrev fxx_WAKE_CHECK_check : Fld := ⟨15, 0⟩
abbrev rxx_MDIO_ACC (m : Nat) : Nat := 0x70600 + 0x1000 * m
abbrev fxx_MDIO_ACC_go : Fld := ⟨31, 31⟩
abbrev fxx_MDIO_ACC_write : Fld := ⟨30, 30⟩
abbrev fxx_MDIO_ACC_phy : Fld := ⟨29, 25⟩
abbrev fxx_MDIO_ACC_reg : Fld := ⟨24, 20⟩
abbrev fxx_MDIO_ACC_data : Fld := ⟨15, 0⟩
abbrev rxx_CNT_CMD (m : Nat) : Nat := 0x70604 + 0x1000 * m
abbrev fxx_CNT_CMD_freeze : Fld := ⟨0, 0⟩
abbrev fxx_CNT_CMD_clear : Fld := ⟨1, 1⟩
abbrev rxx_TXS_POP (m : Nat) : Nat := 0x70700 + 0x1000 * m
abbrev rxx_TXS_POP_HI (m : Nat) : Nat := 0x70704 + 0x1000 * m
abbrev rxx_TXS_REPLAY (m : Nat) : Nat := 0x70780 + 0x1000 * m
abbrev rxx_TXS_REPLAY_HI (m : Nat) : Nat := 0x70784 + 0x1000 * m
abbrev rxx_EXP (m : Nat) : Nat := 0x70800 + 0x1000 * m
abbrev fxx_EXP_attempt_limit : Fld := ⟨15, 12⟩
abbrev fxx_EXP_backoff_limit : Fld := ⟨11, 8⟩
abbrev fxx_EXP_keep_bad : Fld := ⟨3, 3⟩
abbrev fxx_EXP_keep_fcs : Fld := ⟨2, 2⟩
abbrev fxx_EXP_tx_fcs_given : Fld := ⟨1, 1⟩

/-! ### CIPH (16_cipher_and_key_store.md) -/
abbrev rCIPH_CFG : Nat := 0x48040
abbrev fCIPH_CFG_erase_after : Fld := ⟨31, 28⟩
abbrev fCIPH_CFG_erase_k : Fld := ⟨27, 24⟩
abbrev fCIPH_CFG_check_mode : Fld := ⟨4, 4⟩
abbrev fCIPH_CFG_dummy_max : Fld := ⟨2, 0⟩
abbrev rCIPH_STATUS : Nat := 0x48044
abbrev fCIPH_STATUS_mismatches : Fld := ⟨19, 16⟩
abbrev fCIPH_STATUS_class0 : Fld := ⟨8, 8⟩
abbrev fCIPH_STATUS_busy : Fld := ⟨1, 0⟩
abbrev rCIPH_MM_CAP : Nat := 0x48048
abbrev fCIPH_MM_CAP_valid : Fld := ⟨31, 31⟩
abbrev fCIPH_MM_CAP_job : Fld := ⟨28, 28⟩
abbrev fCIPH_MM_CAP_pair : Fld := ⟨24, 24⟩
abbrev fCIPH_MM_CAP_slot : Fld := ⟨23, 16⟩
abbrev fCIPH_MM_CAP_flow : Fld := ⟨15, 0⟩
abbrev rCIPH_MM_CMD : Nat := 0x48600
abbrev fCIPH_MM_CMD_clear : Fld := ⟨0, 0⟩
abbrev rCIPH_JR_CFG (j : Nat) : Nat := 0x49040 + 0x20 * j
abbrev fCIPH_JR_CFG_enable : Fld := ⟨31, 31⟩
abbrev fCIPH_JR_CFG_level : Fld := ⟨29, 28⟩
abbrev fCIPH_JR_CFG_ring_k : Fld := ⟨3, 0⟩
abbrev rCIPH_JR_BASE (j : Nat) : Nat := 0x49044 + 0x20 * j
abbrev fCIPH_JR_BASE_base : Fld := ⟨31, 6⟩
abbrev rCIPH_JR_HEAD (j : Nat) : Nat := 0x49048 + 0x20 * j
abbrev fCIPH_JR_HEAD_head : Fld := ⟨15, 0⟩
abbrev rCIPH_JR_TAIL (j : Nat) : Nat := 0x4904C + 0x20 * j
abbrev fCIPH_JR_TAIL_tail : Fld := ⟨15, 0⟩
abbrev rCIPH_JR_STATUS (j : Nat) : Nat := 0x49050 + 0x20 * j
abbrev fCIPH_JR_STATUS_cause : Fld := ⟨19, 16⟩
abbrev fCIPH_JR_STATUS_state : Fld := ⟨1, 0⟩
abbrev rCIPH_JR_FAULT_ADDR (j : Nat) : Nat := 0x49054 + 0x20 * j
abbrev rCIPH_JR_CMD : Nat := 0x49600
abbrev fCIPH_JR_CMD_abort : Fld := ⟨9, 8⟩
abbrev fCIPH_JR_CMD_resume : Fld := ⟨1, 0⟩
abbrev rCIPH_CNT_ENC : Nat := 0x4A080
abbrev rCIPH_CNT_DEC : Nat := 0x4A084
abbrev rCIPH_CNT_UNTRUSTED : Nat := 0x4A088
abbrev rCIPH_CNT_MISMATCH : Nat := 0x4A08C
abbrev rCIPH_CNT_KEY_REFUSED : Nat := 0x4A090
abbrev rCIPH_CNT_REVOKED : Nat := 0x4A094
abbrev rCIPH_CNT_OVERSIZE : Nat := 0x4A098
abbrev rCIPH_CNT_JOBS : Nat := 0x4A09C
abbrev rCIPH_CNT_ERASE : Nat := 0x4A0A0
abbrev rCIPH_KAT_RESULT : Nat := 0x4B800
abbrev fCIPH_KAT_RESULT_done : Fld := ⟨31, 31⟩
abbrev fCIPH_KAT_RESULT_pass : Fld := ⟨0, 0⟩
abbrev rCIPH_KAT : Nat := 0x4BE00
abbrev fCIPH_KAT_run : Fld := ⟨0, 0⟩

/-! ### KEY pages (16_cipher_and_key_store.md) -/
abbrev rKEY_CFG : Nat := 0x4C040
abbrev fKEY_CFG_commit_ms : Fld := ⟨15, 0⟩
abbrev rKEY_STATUS : Nat := 0x4C044
abbrev fKEY_STATUS_erased : Fld := ⟨8, 8⟩
abbrev fKEY_STATUS_queued : Fld := ⟨6, 4⟩
abbrev fKEY_STATUS_otp_root_loaded : Fld := ⟨2, 2⟩
abbrev fKEY_STATUS_otp_prov_loaded : Fld := ⟨1, 1⟩
abbrev fKEY_STATUS_pending : Fld := ⟨0, 0⟩
abbrev rKEY_SEL : Nat := 0x4C048
abbrev fKEY_SEL_slot : Fld := ⟨7, 0⟩
abbrev rKEY_VIEW_STATE : Nat := 0x4C04C
abbrev fKEY_VIEW_STATE_parent : Fld := ⟨15, 8⟩
abbrev fKEY_VIEW_STATE_depth : Fld := ⟨6, 4⟩
abbrev fKEY_VIEW_STATE_state : Fld := ⟨2, 0⟩
abbrev rKEY_VIEW_ATTR_LO : Nat := 0x4C050
abbrev rKEY_VIEW_ATTR_HI : Nat := 0x4C054
abbrev rKEY_VIEW_USES : Nat := 0x4C058
abbrev fKEY_VIEW_USES_uses : Fld := ⟨24, 0⟩
abbrev rKEY_RESULT : Nat := 0x4C060
abbrev fKEY_RESULT_done : Fld := ⟨31, 31⟩
abbrev fKEY_RESULT_slot : Fld := ⟨23, 16⟩
abbrev fKEY_RESULT_code : Fld := ⟨3, 0⟩
abbrev rKEY_MSG (n : Nat) : Nat := 0x4C080 + 0x4 * n
abbrev rKEY_CMD_NODE : Nat := 0x4C0D8
abbrev fKEY_CMD_NODE_node : Fld := ⟨31, 14⟩
abbrev rKEY_OPEN_DATA (n : Nat) : Nat := 0x4C100 + 0x4 * n
abbrev rKEY_OPEN_ATTR_LO : Nat := 0x4C120
abbrev rKEY_OPEN_ATTR_HI : Nat := 0x4C124
abbrev rKEY_CMD : Nat := 0x4C600
abbrev fKEY_CMD_open : Fld := ⟨10, 8⟩
abbrev fKEY_CMD_apply : Fld := ⟨0, 0⟩
abbrev fKEY_CMD_send : Fld := ⟨1, 1⟩
abbrev fKEY_CMD_open_write : Fld := ⟨2, 2⟩
abbrev fKEY_CMD_open_clear : Fld := ⟨3, 3⟩
abbrev rKEY_COMMIT : Nat := 0x4C604
abbrev fKEY_COMMIT_commit : Fld := ⟨0, 0⟩
abbrev fKEY_COMMIT_abort : Fld := ⟨1, 1⟩
abbrev rKEY_LOG_POP : Nat := 0x4C700
abbrev fKEY_LOG_POP_slot : Fld := ⟨31, 24⟩
abbrev fKEY_LOG_POP_code : Fld := ⟨23, 16⟩
abbrev fKEY_LOG_POP_result : Fld := ⟨15, 8⟩
abbrev fKEY_LOG_POP_origin : Fld := ⟨0, 0⟩
abbrev rKEY_LOG_POP_HI : Nat := 0x4C704
abbrev rKEY_LOG_REPLAY : Nat := 0x4C780
abbrev rKEY_LOG_REPLAY_HI : Nat := 0x4C784
abbrev rKEY_CTR (n : Nat) : Nat := 0x4D040 + 0x4 * n
abbrev fKEY_CTR_ctr : Fld := ⟨31, 0⟩
abbrev rKEY_CTR_LOCK : Nat := 0x4D440
abbrev fKEY_CTR_LOCK_locked : Fld := ⟨0, 0⟩

/-! ### Hot-swap (17_power_die.md) -/
abbrev rPD_HS_CFG : Nat := 0xF0040
abbrev fPD_HS_CFG_retry_clear_s : Fld := ⟨31, 24⟩
abbrev fPD_HS_CFG_cooldown : Fld := ⟨19, 16⟩
abbrev fPD_HS_CFG_retries : Fld := ⟨14, 12⟩
abbrev fPD_HS_CFG_fault_ms : Fld := ⟨10, 8⟩
abbrev fPD_HS_CFG_vth : Fld := ⟨7, 4⟩
abbrev fPD_HS_CFG_rate : Fld := ⟨2, 0⟩
abbrev rPD_HS_STATUS : Nat := 0xF0044
abbrev fPD_HS_STATUS_state : Fld := ⟨26, 24⟩
abbrev fPD_HS_STATUS_pgood : Fld := ⟨23, 23⟩
abbrev fPD_HS_STATUS_in_limit : Fld := ⟨22, 22⟩
abbrev fPD_HS_STATUS_hpwr_en : Fld := ⟨21, 21⟩
abbrev fPD_HS_STATUS_latched : Fld := ⟨20, 20⟩
abbrev fPD_HS_STATUS_retry_count : Fld := ⟨19, 16⟩
abbrev fPD_HS_STATUS_otp_rows : Fld := ⟨14, 12⟩
abbrev fPD_HS_STATUS_cooldown_left : Fld := ⟨10, 0⟩
abbrev rPD_HS_FAULT : Nat := 0xF0048
abbrev fPD_HS_FAULT_bits : Fld := ⟨7, 0⟩
abbrev rPD_FEED_STATUS : Nat := 0xF004C
abbrev fPD_FEED_STATUS_valid : Fld := ⟨1, 0⟩
abbrev fPD_FEED_STATUS_present : Fld := ⟨5, 4⟩
abbrev fPD_FEED_STATUS_conducting : Fld := ⟨9, 8⟩
abbrev rPD_CNT_TRIP : Nat := 0xF0080
abbrev rPD_CNT_FEED_LOSS : Nat := 0xF0084
abbrev rPD_HS_CMD : Nat := 0xF0600
abbrev fPD_HS_CMD_clear_retries : Fld := ⟨0, 0⟩
abbrev rPD_HS_EXP : Nat := 0xF0800
abbrev fPD_HS_EXP_feed1_off : Fld := ⟨0, 0⟩
abbrev fPD_HS_EXP_feed2_off : Fld := ⟨1, 1⟩
abbrev rPD_OTP_PROG : Nat := 0xF0E00
abbrev fPD_OTP_PROG_program : Fld := ⟨0, 0⟩

/-! ### Supervision (17_power_die.md) -/
abbrev rPD_SUP_STATUS : Nat := 0xF1040
abbrev fPD_SUP_STATUS_below_warn : Fld := ⟨5, 0⟩
abbrev fPD_SUP_STATUS_below_reset : Fld := ⟨13, 8⟩
abbrev rPD_SUP_DIP : Nat := 0xF1044
abbrev fPD_SUP_DIP_dip : Fld := ⟨5, 0⟩
abbrev rPD_SUP_VCORE_NOM : Nat := 0xF1048
abbrev fPD_SUP_VCORE_NOM_mv : Fld := ⟨9, 0⟩
abbrev rPD_SUP_LAST (s : Nat) : Nat := 0xF1050 + 0x4 * s
abbrev fPD_SUP_LAST_min : Fld := ⟨31, 16⟩
abbrev fPD_SUP_LAST_dur : Fld := ⟨15, 0⟩
abbrev rPD_CNT_DIP : Nat := 0xF1080
abbrev rPD_LINK_STATUS : Nat := 0xF2040
abbrev fPD_LINK_STATUS_dropped : Fld := ⟨31, 16⟩
abbrev fPD_LINK_STATUS_silent : Fld := ⟨1, 1⟩
abbrev fPD_LINK_STATUS_up : Fld := ⟨0, 0⟩
abbrev rPD_STRAP : Nat := 0xF2044
abbrev fPD_STRAP_dostrap : Fld := ⟨3, 0⟩
abbrev rPD_RESET_CAUSE : Nat := 0xF2048
abbrev fPD_RESET_CAUSE_cause : Fld := ⟨4, 0⟩
abbrev rPD_EVT_STATUS : Nat := 0xF204C
abbrev fPD_EVT_STATUS_waiting : Fld := ⟨21, 16⟩
abbrev fPD_EVT_STATUS_lost : Fld := ⟨15, 0⟩
abbrev rPD_L6_WAKE : Nat := 0xF2050
abbrev fPD_L6_WAKE_timer : Fld := ⟨31, 16⟩
abbrev fPD_L6_WAKE_enable : Fld := ⟨0, 0⟩
abbrev rPD_CNT_DISAGREE : Nat := 0xF2080
abbrev rPD_CNT_LINK_LOSS : Nat := 0xF2084
abbrev rPD_MEAS_FEED : Nat := 0xF3040
abbrev rPD_MEAS_VOUT : Nat := 0xF3044
abbrev rPD_MEAS_CURRENT : Nat := 0xF3048
abbrev fPD_MEAS_CURRENT_ma : Fld := ⟨15, 0⟩
abbrev rPD_MEAS_TEMP : Nat := 0xF304C
abbrev fPD_MEAS_TEMP_temp : Fld := ⟨15, 0⟩
abbrev rPD_SHUNT : Nat := 0xF3050
abbrev fPD_SHUNT_shunt : Fld := ⟨15, 0⟩

/-! ### Discrete (17_power_die.md) -/
abbrev rPD_DIO_IN (g : Nat) : Nat := 0xF4040 + 0x1000 * g
abbrev fPD_DIO_IN_in : Fld := ⟨3, 0⟩
abbrev rPD_DIO_EDGE (g : Nat) : Nat := 0xF4044 + 0x1000 * g
abbrev fPD_DIO_EDGE_rise : Fld := ⟨3, 0⟩
abbrev fPD_DIO_EDGE_fall : Fld := ⟨7, 4⟩
abbrev rPD_DIO_OUT (g : Nat) : Nat := 0xF4048 + 0x1000 * g
abbrev fPD_DIO_OUT_out : Fld := ⟨3, 0⟩
abbrev rPD_DIO_STATE (g : Nat) : Nat := 0xF404C + 0x1000 * g
abbrev fPD_DIO_STATE_conducting : Fld := ⟨3, 0⟩
abbrev fPD_DIO_STATE_link_loss : Fld := ⟨8, 8⟩
abbrev fPD_DIO_STATE_strap_hold : Fld := ⟨9, 9⟩
abbrev fPD_DIO_STATE_supply_off : Fld := ⟨10, 10⟩
abbrev rPD_DIO_DIAG (g : Nat) : Nat := 0xF4050 + 0x1000 * g
abbrev fPD_DIO_DIAG_short : Fld := ⟨3, 0⟩
abbrev fPD_DIO_DIAG_open : Fld := ⟨7, 4⟩
abbrev fPD_DIO_DIAG_overtemp : Fld := ⟨11, 8⟩
abbrev rPD_DI_CFG (g : Nat) (i : Nat) : Nat := 0xF4060 + 0x1000 * g + 0x4 * i
abbrev fPD_DI_CFG_ledger_m : Fld := ⟨15, 12⟩
abbrev fPD_DI_CFG_ledger_en : Fld := ⟨11, 11⟩
abbrev fPD_DI_CFG_wake : Fld := ⟨10, 10⟩
abbrev fPD_DI_CFG_count_edge : Fld := ⟨9, 8⟩
abbrev fPD_DI_CFG_filter : Fld := ⟨7, 4⟩
abbrev fPD_DI_CFG_type : Fld := ⟨0, 0⟩
abbrev rPD_DO_CFG (g : Nat) (i : Nat) : Nat := 0xF4070 + 0x1000 * g + 0x4 * i
abbrev fPD_DO_CFG_open_det : Fld := ⟨0, 0⟩
abbrev rPD_DI_COUNT (g : Nat) (i : Nat) : Nat := 0xF4080 + 0x1000 * g + 0x4 * i
abbrev rPD_DO_CUR (g : Nat) (i : Nat) : Nat := 0xF4090 + 0x1000 * g + 0x4 * i
abbrev fPD_DO_CUR_ma : Fld := ⟨11, 0⟩
abbrev rPD_DO_TIMED (g : Nat) (i : Nat) : Nat := 0xF40A0 + 0x1000 * g + 0x4 * i
abbrev fPD_DO_TIMED_arm : Fld := ⟨31, 31⟩
abbrev fPD_DO_TIMED_level : Fld := ⟨8, 8⟩
abbrev fPD_DO_TIMED_unit : Fld := ⟨3, 0⟩
abbrev rPD_DIO_SET (g : Nat) : Nat := 0xF4600 + 0x1000 * g
abbrev rPD_DIO_CLR (g : Nat) : Nat := 0xF4604 + 0x1000 * g

/-! ### FLT (18_faults_and_inspection_ledger.md) -/
abbrev rFLT_CFG : Nat := 0x04040
abbrev fFLT_CFG_inject_cap : Fld := ⟨0, 0⟩
abbrev rFLT_PENDING : Nat := 0x04044
abbrev fFLT_PENDING_pending : Fld := ⟨8, 0⟩
abbrev fFLT_PENDING_level2 : Fld := ⟨24, 16⟩
abbrev rFLT_LAST : Nat := 0x04048
abbrev fFLT_LAST_source : Fld := ⟨22, 16⟩
abbrev fFLT_LAST_effective : Fld := ⟨10, 8⟩
abbrev fFLT_LAST_configured : Fld := ⟨6, 4⟩
abbrev fFLT_LAST_severe : Fld := ⟨3, 3⟩
abbrev fFLT_LAST_escalated : Fld := ⟨2, 2⟩
abbrev fFLT_LAST_injected : Fld := ⟨1, 1⟩
abbrev fFLT_LAST_wire : Fld := ⟨0, 0⟩
abbrev rFLT_WIRE : Nat := 0x0404C
abbrev fFLT_WIRE_valid : Fld := ⟨31, 31⟩
abbrev fFLT_WIRE_source : Fld := ⟨6, 0⟩
abbrev rFLT_ERRN : Nat := 0x04050
abbrev fFLT_ERRN_asserted : Fld := ⟨0, 0⟩
abbrev fFLT_ERRN_cause : Fld := ⟨3, 1⟩
abbrev fFLT_ERRN_source : Fld := ⟨14, 8⟩
abbrev rFLT_RAISED (n : Nat) : Nat := 0x04060 + 0x4 * n
abbrev fFLT_RAISED_raised : Fld := ⟨31, 0⟩
abbrev rFLT_SEVERE (n : Nat) : Nat := 0x04070 + 0x4 * n
abbrev rFLT_CNT_EVENTS : Nat := 0x04080
abbrev rFLT_CNT_ESCALATED : Nat := 0x04084
abbrev rFLT_CNT_WIRE : Nat := 0x04088
abbrev rFLT_CNT_CHIP_RESET : Nat := 0x0408C
abbrev rFLT_SRC_CFG (n : Nat) : Nat := 0x04100 + 0x4 * n
abbrev fFLT_SRC_CFG_window_k : Fld := ⟨19, 16⟩
abbrev fFLT_SRC_CFG_count_n : Fld := ⟨15, 8⟩
abbrev fFLT_SRC_CFG_severe_level : Fld := ⟨6, 4⟩
abbrev fFLT_SRC_CFG_minor_level : Fld := ⟨2, 0⟩
abbrev rFLT_SRC_COUNT (n : Nat) : Nat := 0x04300 + 0x4 * n
abbrev rFLT_CAP (k : Nat) (w : Nat) : Nat := 0x04400 + 0x20 * k + 0x4 * w
abbrev rFLT_ACK : Nat := 0x04600
abbrev fFLT_ACK_ack : Fld := ⟨8, 0⟩
abbrev rFLT_CAP_CLR : Nat := 0x04604
abbrev fFLT_CAP_CLR_clear : Fld := ⟨8, 0⟩
abbrev rFLT_ERRN_CLR : Nat := 0x04608
abbrev fFLT_ERRN_CLR_release : Fld := ⟨0, 0⟩
abbrev rFLT_EXP : Nat := 0x04800
abbrev fFLT_EXP_hold_high : Fld := ⟨0, 0⟩

/-! ### LEDG (18_faults_and_inspection_ledger.md) -/
abbrev rLEDG_CFG : Nat := 0x06040
abbrev fLEDG_CFG_wrap : Fld := ⟨12, 12⟩
abbrev fLEDG_CFG_fault_level : Fld := ⟨10, 8⟩
abbrev fLEDG_CFG_slot : Fld := ⟨7, 0⟩
abbrev rLEDG_PART_BASE : Nat := 0x06044
abbrev fLEDG_PART_BASE_base : Fld := ⟨31, 12⟩
abbrev rLEDG_PART_SIZE : Nat := 0x06048
abbrev fLEDG_PART_SIZE_sectors : Fld := ⟨15, 0⟩
abbrev rLEDG_STATUS : Nat := 0x0604C
abbrev fLEDG_STATUS_anchored : Fld := ⟨31, 31⟩
abbrev fLEDG_STATUS_partition_full : Fld := ⟨30, 30⟩
abbrev fLEDG_STATUS_untagged : Fld := ⟨29, 29⟩
abbrev fLEDG_STATUS_flushing : Fld := ⟨28, 28⟩
abbrev fLEDG_STATUS_staged : Fld := ⟨25, 16⟩
abbrev rLEDG_RESUME_NUM : Nat := 0x06050
abbrev rLEDG_RESUME_OFF : Nat := 0x06054
abbrev rLEDG_RESUME_TAG_HI : Nat := 0x06058
abbrev rLEDG_RESUME_TAG_LO : Nat := 0x0605C
abbrev rLEDG_NEXT_NUM : Nat := 0x06060
abbrev rLEDG_NEXT_OFF : Nat := 0x06064
abbrev rLEDG_TAG_HI : Nat := 0x06068
abbrev rLEDG_TAG_LO : Nat := 0x0606C
abbrev rLEDG_NOTE_HI : Nat := 0x06070
abbrev rLEDG_NOTE_LO : Nat := 0x06074
abbrev rLEDG_CNT_ENTRIES : Nat := 0x06080
abbrev rLEDG_CNT_LOST : Nat := 0x06084
abbrev rLEDG_CNT_FLUSH_ERR : Nat := 0x06088
abbrev rLEDG_CNT_SUMMARY : Nat := 0x0608C
abbrev rLEDG_CMD : Nat := 0x06600
abbrev fLEDG_CMD_anchor : Fld := ⟨0, 0⟩
abbrev fLEDG_CMD_fresh : Fld := ⟨1, 1⟩
abbrev fLEDG_CMD_flush_now : Fld := ⟨2, 2⟩
abbrev fLEDG_CMD_note : Fld := ⟨3, 3⟩

/-! ### RST (19_resets_and_power_ladder.md) -/
abbrev rRST_CAUSE : Nat := 0x01040
abbrev fRST_CAUSE_code : Fld := ⟨31, 24⟩
abbrev fRST_CAUSE_resume : Fld := ⟨8, 8⟩
abbrev fRST_CAUSE_software : Fld := ⟨7, 7⟩
abbrev fRST_CAUSE_ring : Fld := ⟨6, 6⟩
abbrev fRST_CAUSE_fault : Fld := ⟨5, 5⟩
abbrev fRST_CAUSE_watchdog : Fld := ⟨4, 4⟩
abbrev fRST_CAUSE_reset_n : Fld := ⟨3, 3⟩
abbrev fRST_CAUSE_l6_exit : Fld := ⟨2, 2⟩
abbrev fRST_CAUSE_brownout : Fld := ⟨1, 1⟩
abbrev fRST_CAUSE_power_on : Fld := ⟨0, 0⟩
abbrev rRST_WDT_CFG : Nat := 0x01044
abbrev fRST_WDT_CFG_enable : Fld := ⟨31, 31⟩
abbrev fRST_WDT_CFG_host_kick : Fld := ⟨30, 30⟩
abbrev fRST_WDT_CFG_stage2_ms : Fld := ⟨27, 16⟩
abbrev fRST_WDT_CFG_stage1_ms : Fld := ⟨15, 0⟩
abbrev rRST_WDT_STATUS : Nat := 0x01048
abbrev fRST_WDT_STATUS_stage2 : Fld := ⟨31, 31⟩
abbrev fRST_WDT_STATUS_ms_left : Fld := ⟨15, 0⟩
abbrev rRST_CNT_WARM : Nat := 0x01080
abbrev rRST_CNT_WDT : Nat := 0x01084
abbrev rRST_CMD : Nat := 0x01600
abbrev fRST_CMD_chip_reset : Fld := ⟨0, 0⟩
abbrev fRST_CMD_key : Fld := ⟨15, 8⟩
abbrev rRST_WDT_KICK : Nat := 0x01604

/-! ### PWR (19_resets_and_power_ladder.md) -/
abbrev rPWR_CFG : Nat := 0x02040
abbrev fPWR_CFG_allow_bridge : Fld := ⟨16, 16⟩
abbrev fPWR_CFG_hush_us : Fld := ⟨15, 8⟩
abbrev fPWR_CFG_hush_en : Fld := ⟨0, 0⟩
abbrev rPWR_STATUS : Nat := 0x02044
abbrev fPWR_STATUS_busy : Fld := ⟨31, 31⟩
abbrev fPWR_STATUS_refusal : Fld := ⟨23, 16⟩
abbrev fPWR_STATUS_wake : Fld := ⟨15, 8⟩
abbrev fPWR_STATUS_last_level : Fld := ⟨6, 4⟩
abbrev fPWR_STATUS_level : Fld := ⟨2, 0⟩
abbrev rPWR_WAKE_EN : Nat := 0x02048
abbrev fPWR_WAKE_EN_en : Fld := ⟨7, 0⟩
abbrev rPWR_WAKE_TIMER : Nat := 0x0204C
abbrev fPWR_WAKE_TIMER_enable : Fld := ⟨31, 31⟩
abbrev fPWR_WAKE_TIMER_seconds : Fld := ⟨23, 0⟩
abbrev rPWR_WAKE_SRC : Nat := 0x02050
abbrev fPWR_WAKE_SRC_src : Fld := ⟨7, 0⟩
abbrev rPWR_CNT_ENTRY : Nat := 0x02080
abbrev rPWR_CNT_REFUSED : Nat := 0x02084
abbrev rPWR_CMD : Nat := 0x02600
abbrev fPWR_CMD_go : Fld := ⟨31, 31⟩
abbrev fPWR_CMD_target : Fld := ⟨2, 0⟩
abbrev rPWR_EXP : Nat := 0x02800
abbrev fPWR_EXP_force : Fld := ⟨0, 0⟩

/-! ### CLK (19_resets_and_power_ladder.md) -/
abbrev rCLK_STATUS : Nat := 0x03040
abbrev fCLK_STATUS_running : Fld := ⟨8, 0⟩
abbrev fCLK_STATUS_field_pll : Fld := ⟨16, 16⟩
abbrev fCLK_STATUS_ring_a_lock : Fld := ⟨17, 17⟩
abbrev fCLK_STATUS_ring_b_lock : Fld := ⟨18, 18⟩
abbrev fCLK_STATUS_crystal : Fld := ⟨19, 19⟩
abbrev fCLK_STATUS_ref_ok : Fld := ⟨20, 20⟩
abbrev rCLK_GATE : Nat := 0x03044
abbrev fCLK_GATE_gate : Fld := ⟨4, 1⟩
abbrev rCLK_AON : Nat := 0x03048
abbrev fCLK_AON_xtal32_en : Fld := ⟨0, 0⟩
abbrev rCLK_REF_PPM : Nat := 0x0304C
abbrev fCLK_REF_PPM_ppm : Fld := ⟨15, 0⟩
abbrev rCLK_CNT_UNLOCK : Nat := 0x03080

/-! ### FWU (20_boot_and_firmware_update.md) -/
abbrev rFWU_CFG : Nat := 0xC0040
abbrev fFWU_CFG_target : Fld := ⟨1, 1⟩
abbrev fFWU_CFG_ring_en : Fld := ⟨0, 0⟩
abbrev rFWU_STATUS : Nat := 0xC0044
abbrev fFWU_STATUS_cumin : Fld := ⟨8, 8⟩
abbrev fFWU_STATUS_recovery : Fld := ⟨7, 7⟩
abbrev fFWU_STATUS_handover_active : Fld := ⟨6, 6⟩
abbrev fFWU_STATUS_confirm_pending : Fld := ⟨5, 5⟩
abbrev fFWU_STATUS_trial : Fld := ⟨4, 4⟩
abbrev fFWU_STATUS_commit_ok : Fld := ⟨3, 3⟩
abbrev fFWU_STATUS_erasing : Fld := ⟨2, 2⟩
abbrev fFWU_STATUS_session_open : Fld := ⟨1, 1⟩
abbrev fFWU_STATUS_inactive : Fld := ⟨0, 0⟩
abbrev rFWU_SESSION : Nat := 0xC0048
abbrev fFWU_SESSION_session : Fld := ⟨15, 0⟩
abbrev rFWU_BLK_ADDR : Nat := 0xC004C
abbrev rFWU_SEND_NODE : Nat := 0xC0050
abbrev fFWU_SEND_NODE_node : Fld := ⟨31, 14⟩
abbrev rFWU_RESULT : Nat := 0xC0054
abbrev fFWU_RESULT_done : Fld := ⟨31, 31⟩
abbrev fFWU_RESULT_bit : Fld := ⟨27, 24⟩
abbrev fFWU_RESULT_verify : Fld := ⟨19, 16⟩
abbrev fFWU_RESULT_block : Fld := ⟨11, 8⟩
abbrev fFWU_RESULT_code : Fld := ⟨3, 0⟩
abbrev rFWU_CONFIRM_LEFT : Nat := 0xC0058
abbrev fFWU_CONFIRM_LEFT_ms : Fld := ⟨13, 0⟩
abbrev rFWU_OTP_INFO : Nat := 0xC005C
abbrev fFWU_OTP_INFO_boot_ring : Fld := ⟨29, 20⟩
abbrev fFWU_OTP_INFO_xspi_boot : Fld := ⟨16, 16⟩
abbrev fFWU_OTP_INFO_customer : Fld := ⟨12, 12⟩
abbrev fFWU_OTP_INFO_revoke : Fld := ⟨11, 8⟩
abbrev fFWU_OTP_INFO_svn : Fld := ⟨5, 0⟩
abbrev rFWU_IMG_VERSION : Nat := 0xC0060
abbrev rFWU_RUN_VERSION : Nat := 0xC0064
abbrev rFWU_CNT_BLOCKS : Nat := 0xC0080
abbrev rFWU_CNT_REFUSED : Nat := 0xC0084
abbrev rFWU_CNT_FRAG_DISCARD : Nat := 0xC0088
abbrev rFWU_CNT_COMMIT_FAIL : Nat := 0xC008C
abbrev rFWU_MEAS (n : Nat) (w : Nat) : Nat := 0xC0100 + 0x20 * n + 0x4 * w
abbrev rFWU_MEAS_DATA (n : Nat) : Nat := 0xC0180 + 0x4 * n
abbrev rFWU_CMD : Nat := 0xC0600
abbrev fFWU_CMD_cmd : Fld := ⟨8, 0⟩
abbrev rFWU_MEAS_EXT : Nat := 0xC0604

/-! ### XSPI (20_boot_and_firmware_update.md) -/
abbrev rXSPI_CS0_CFG : Nat := 0xC1040
abbrev fXSPI_CS0_CFG_mode : Fld := ⟨8, 8⟩
abbrev fXSPI_CS0_CFG_size : Fld := ⟨4, 0⟩
abbrev rXSPI_CS1_CFG : Nat := 0xC1044
abbrev fXSPI_CS1_CFG_mode : Fld := ⟨8, 8⟩
abbrev fXSPI_CS1_CFG_size : Fld := ⟨4, 0⟩
abbrev rXSPI_TIMING : Nat := 0xC1048
abbrev fXSPI_TIMING_dummy : Fld := ⟨20, 16⟩
abbrev fXSPI_TIMING_timeout : Fld := ⟨15, 0⟩
abbrev rXSPI_CMD_A : Nat := 0xC104C
abbrev rXSPI_CMD_B : Nat := 0xC1050
abbrev fXSPI_CMD_B_erase4k : Fld := ⟨31, 24⟩
abbrev fXSPI_CMD_B_erase64k : Fld := ⟨23, 16⟩
abbrev fXSPI_CMD_B_page : Fld := ⟨3, 0⟩
abbrev rXSPI_STATUS : Nat := 0xC1054
abbrev fXSPI_STATUS_cs1_busy : Fld := ⟨2, 2⟩
abbrev fXSPI_STATUS_cs0_wip : Fld := ⟨1, 1⟩
abbrev fXSPI_STATUS_cs0_busy : Fld := ⟨0, 0⟩
abbrev rXSPI_CNT_READ_ERR : Nat := 0xC1080
abbrev rXSPI_CNT_TIMEOUT : Nat := 0xC1084

/-! ### ANI (20_boot_and_firmware_update.md) -/
abbrev rANI_BOOT_INFO : Nat := 0xC2040
abbrev fANI_BOOT_INFO_other_code : Fld := ⟨27, 24⟩
abbrev fANI_BOOT_INFO_boot_sel : Fld := ⟨17, 16⟩
abbrev fANI_BOOT_INFO_record_valid : Fld := ⟨7, 7⟩
abbrev fANI_BOOT_INFO_rollback : Fld := ⟨6, 6⟩
abbrev fANI_BOOT_INFO_handover : Fld := ⟨5, 5⟩
abbrev fANI_BOOT_INFO_recovery : Fld := ⟨4, 4⟩
abbrev fANI_BOOT_INFO_trial : Fld := ⟨3, 3⟩
abbrev fANI_BOOT_INFO_load_area : Fld := ⟨2, 2⟩
abbrev fANI_BOOT_INFO_resume : Fld := ⟨1, 1⟩
abbrev fANI_BOOT_INFO_slot : Fld := ⟨0, 0⟩
abbrev rANI_CUMIN_VERSION : Nat := 0xC2044
abbrev rANI_HANDOVER : Nat := 0xC2048
abbrev fANI_HANDOVER_ready : Fld := ⟨0, 0⟩
abbrev fANI_HANDOVER_resumed : Fld := ⟨1, 1⟩
abbrev rANI_MB_STATUS (h : Nat) : Nat := 0xC2060 + 0x4 * h
abbrev fANI_MB_STATUS_busy : Fld := ⟨31, 31⟩
abbrev fANI_MB_STATUS_done : Fld := ⟨30, 30⟩
abbrev fANI_MB_STATUS_seq : Fld := ⟨15, 0⟩
abbrev rANI_CNT_MB_VIOL : Nat := 0xC2080
abbrev rANI_CNT_EXCEPTION : Nat := 0xC2084
abbrev rANI_MB_DOORBELL (h : Nat) : Nat := 0xC2600 + 0x4 * h
abbrev rANI_MB_ACK : Nat := 0xC2608
abbrev fANI_MB_ACK_done_a : Fld := ⟨0, 0⟩
abbrev fANI_MB_ACK_done_b : Fld := ⟨1, 1⟩

/-! ### CHIP (21_electrical_and_package.md) -/
abbrev rCHIP_UID0 : Nat := 0x00040
abbrev rCHIP_UID1 : Nat := 0x00044
abbrev rCHIP_UID2 : Nat := 0x00048
abbrev rCHIP_UID3 : Nat := 0x0004C
abbrev rCHIP_REV : Nat := 0x00050
abbrev fCHIP_REV_stepping : Fld := ⟨15, 8⟩
abbrev fCHIP_REV_ordering : Fld := ⟨7, 0⟩
abbrev rCHIP_IDCODE : Nat := 0x00054
abbrev rCHIP_STRAPS : Nat := 0x00058
abbrev fCHIP_STRAPS_recover_n : Fld := ⟨8, 8⟩
abbrev fCHIP_STRAPS_host_b_mode : Fld := ⟨7, 7⟩
abbrev fCHIP_STRAPS_host_a_mode : Fld := ⟨6, 6⟩
abbrev fCHIP_STRAPS_hpriv_b : Fld := ⟨5, 5⟩
abbrev fCHIP_STRAPS_hpriv_a : Fld := ⟨4, 4⟩
abbrev fCHIP_STRAPS_boot_sel : Fld := ⟨1, 0⟩
abbrev rCHIP_TEMP : Nat := 0x0005C
abbrev fCHIP_TEMP_temp : Fld := ⟨15, 0⟩
abbrev rCHIP_TEMP_MAX : Nat := 0x00080
abbrev fCHIP_TEMP_MAX_max : Fld := ⟨15, 0⟩
abbrev rCHIP_CMD : Nat := 0x00600
abbrev fCHIP_CMD_clear : Fld := ⟨0, 0⟩

end Sys2Proof.Machine
end

