-- ==== Sys2Proof/Machine/Bits.lean ====
section
/-! DEFINITION. Bit fields of register words, octet order and sign extension: the helpers every meaning uses. -/
namespace Sys2Proof.Machine

/-- The value of bits hi down to lo of a natural number. -/
def natBits (w hi lo : Nat) : Nat := (w >>> lo) % 2 ^ (hi + 1 - lo)

/-- A natural number with its bits hi down to lo replaced by v. -/
def natPut (w hi lo v : Nat) : Nat :=
  (w >>> (hi + 1)) <<< (hi + 1) + (v % 2 ^ (hi + 1 - lo)) <<< lo + w % 2 ^ lo

/-- The value of a field of a word. -/
def fldOf (w : Word) (f : Fld) : Nat := natBits w.toNat f.hi f.lo

/-- A word with one field replaced. -/
def fldPut (w : Word) (f : Fld) (v : Nat) : Word := BitVec.ofNat 32 (natPut w.toNat f.hi f.lo v)

/-- Bit n of a word. -/
def bitOf (w : Word) (n : Nat) : Bool := w.toNat.testBit n

/-- The mask of bits hi down to lo. -/
def maskOf (hi lo : Nat) : Word := BitVec.ofNat 32 ((2 ^ (hi + 1 - lo) - 1) <<< lo)

/-- 1 for true. -/
def b2n (b : Bool) : Nat := if b then 1 else 0

/-- The natural number as a word. -/
def toW (n : Nat) : Word := BitVec.ofNat 32 n

/-- The octet n. -/
def toB (n : Nat) : Byte := BitVec.ofNat 8 n

/-- The n low octets of a number, least significant first (R590). -/
def leBytes : Nat → Nat → List Byte
  | 0, _ => []
  | n + 1, v => toB v :: leBytes n (v / 256)

/-- The number that octets stand for, least significant first (R590). -/
def leNat : List Byte → Nat
  | [] => 0
  | b :: bs => b.toNat + 256 * leNat bs

/-- The n low octets of a number, most significant first. -/
def beBytes (n v : Nat) : List Byte := (leBytes n v).reverse

/-- The number that octets stand for, most significant first. -/
def beNat (bs : List Byte) : Nat := leNat bs.reverse

/-- The integer that the low w bits of n stand for in two's complement. -/
def sxInt (w n : Nat) : Int :=
  let m := n % 2 ^ w
  if 2 ^ (w - 1) ≤ m then (m : Int) - 2 ^ w else m

/-- The two's complement of an integer in w bits. -/
def toTwos (w : Nat) (i : Int) : Nat := (i % (2 ^ w : Nat)).toNat

/-- A saturating add of 1 to a count of at most m. -/
def satInc (m n : Nat) : Nat := if n < m then n + 1 else m

/-- The nearest value to n within lo to hi. -/
def clampN (lo hi n : Nat) : Nat := if n < lo then lo else if hi < n then hi else n

/-- n elements taken from position i. -/
def slice {α : Type} (l : List α) (i n : Nat) : List α := (l.drop i).take n

/-- The list with element i replaced (unchanged when there is none). -/
def setNth {α : Type} (l : List α) (i : Nat) (a : α) : List α := l.set i a

/-- Element i of a list, or a default. -/
def nthD {α : Type} (l : List α) (i : Nat) (d : α) : α := (l[i]?).getD d

end Sys2Proof.Machine
end

