-- ==== Sys2Proof/Config.lean ====
section
/-! DEFINITION. What an implementation, a chip or a board fixes, and the free values: constants with no body, of which no
proof can see the value, for what the spec leaves open. Strap levels at power-on are named values (log entry 6). -/
namespace Sys2Proof.Config

/-- A value the spec leaves open; applied to the counter State.free, which the step advances (log entry 4). -/
opaque freeNat : Nat → Nat

/-- The unique ID of the chip (R588, CHIP_UID0 to 3). -/
opaque uid : BitVec 128
/-- The ordering code of CHIP_REV: true for QRH-128-X, false for QRH-128-E (R1, R588). -/
opaque orderingX : Bool
/-- ANI_CUMIN_VERSION, fixed per stepping (R567). -/
opaque cuminVersion : BitVec 32
/-- The octets of the Cumin ROM (R21); their content is not given. -/
opaque cuminRom : Nat → BitVec 8

/-- The OTP fields of R542 as programmed: vendor key hashes and their revoke bits, the customer key hash (0 = not programmed), the security
version, xspi_boot and boot_ring. -/
opaque otpVendorHash : Nat → BitVec 256
opaque otpRevoked : BitVec 4
opaque otpCustomerHash : BitVec 256
opaque otpSvn : BitVec 6
opaque otpXspiBoot : Bool
opaque otpBootRing : BitVec 10
/-- The value by which Cumin extends MEAS0: a hash of the OTP fields, straps and Cumin version in an encoding that the spec does not give; it
depends on the security version in force (R549). -/
opaque cuminMeasure : Nat → BitVec 256

/-- The straps as sampled at power-on, in the layout of CHIP_STRAPS (R588): RECOVER_N high, both host ports in PCI Express
mode, HPRIV_A = 1, HPRIV_B = 0, BOOT_SEL 0. DESIGN CHOICE (log entry 6): the board fixes them, so every cold reset samples the same. -/
def strapsAtReset : BitVec 32 := 0x110

/-- The discrete-output straps DOSTRAP0 to 3 at power-on (R490 group, PD_STRAP). DESIGN CHOICE (log entry 6). -/
def dostrapAtReset : BitVec 32 := 0

/-- The identification of the PCI Express function, the double words at offsets 0x00, 0x08 and 0x2C of its configuration header: Vendor ID 0x1F5A,
Device ID 0x0128, class code 0x08_8000, revision the stepping A0, Subsystem Vendor ID 0x1F5A, Subsystem ID 0x0128 (R245). The table of operations
has no configuration access. -/
def pcieIdentity : List (Nat × BitVec 32) := [(0x00, 0x01281F5A), (0x08, 0x08800000), (0x2C, 0x01281F5A)]

end Sys2Proof.Config
end

