-- ==== Sys2Proof/Machine/RegTable.lean ====
section
/-! DEFINITION. The register tables: for every page its registers with the access code (R5), the class (R6) and the reset
value of every field, as the tables of the spec give them. Registers are described by offset, number of copies and stride. -/
namespace Sys2Proof.Machine

/-- The access codes of R5. -/
inductive Acc where
  | ro | rw | rwl | wo | w1c | w1s | rc | rp | sc
deriving DecidableEq, Repr

/-- The reset classes of R6. -/
inductive Cls where
  | v | w | s | k | p
deriving DecidableEq, Repr

/-- One field of a register. -/
structure RField where
  hi : Nat
  lo : Nat
  acc : Acc
  cls : Cls
deriving DecidableEq, Repr

/-- One register, or n copies of it at a stride, with its reset value. -/
structure RDesc where
  off : Nat
  n : Nat
  stride : Nat
  reset : Nat
  fields : List RField
deriving DecidableEq, Repr

/-- Pages 0x20, 0x24. -/
def tableRG : List RDesc := [
  /- RGA_CFG -/ ⟨0x040, 1, 4, 0x00000006, [⟨2, 1, .rw, .w⟩, ⟨0, 0, .rwl, .w⟩]⟩,
  /- RGA_STATUS -/ ⟨0x044, 1, 4, 0x00000000, [⟨3, 3, .ro, .v⟩, ⟨2, 1, .ro, .v⟩, ⟨0, 0, .ro, .v⟩]⟩,
  /- RGA_EXP -/ ⟨0x800, 1, 4, 0x00000002, [⟨2, 0, .rwl, .w⟩]⟩]

/-- Pages 0x21, 0x22, 0x25, 0x26. -/
def tableRP : List RDesc := [
  /- RGA_PORT_CTRL -/ ⟨0x040, 1, 4, 0x00013200, [⟨23, 16, .rw, .w⟩, ⟨15, 8, .rw, .w⟩, ⟨0, 0, .rw, .w⟩]⟩,
  /- RGA_PORT_STATE -/ ⟨0x044, 1, 4, 0x00000000, [⟨20, 16, .ro, .v⟩, ⟨15, 13, .ro, .v⟩, ⟨12, 12, .ro, .v⟩, ⟨11, 11, .ro, .v⟩, ⟨10, 10, .ro, .v⟩, ⟨9, 9, .ro, .v⟩, ⟨8, 8, .ro, .v⟩, ⟨7, 7, .ro, .v⟩, ⟨6, 6, .ro, .v⟩, ⟨5, 5, .ro, .v⟩, ⟨4, 4, .ro, .v⟩, ⟨2, 0, .ro, .v⟩]⟩,
  /- RGA_PORT_DELAY -/ ⟨0x048, 1, 4, 0x00000000, [⟨31, 16, .ro, .v⟩, ⟨15, 0, .ro, .v⟩]⟩,
  /- RGA_PORT_PAD -/ ⟨0x04C, 1, 4, 0x00000000, [⟨3, 0, .rw, .w⟩]⟩,
  /- RGA_CNT_RX_FRAMES -/ ⟨0x080, 1, 4, 0x00000000, [⟨31, 0, .ro, .s⟩]⟩,
  /- RGA_CNT_TX_FRAMES -/ ⟨0x084, 1, 4, 0x00000000, [⟨31, 0, .ro, .s⟩]⟩,
  /- RGA_CNT_TRANSIT -/ ⟨0x088, 1, 4, 0x00000000, [⟨31, 0, .ro, .s⟩]⟩,
  /- RGA_CNT_TAKEOFF -/ ⟨0x08C, 1, 4, 0x00000000, [⟨31, 0, .ro, .s⟩]⟩,
  /- RGA_CNT_HDR_CRC -/ ⟨0x090, 1, 4, 0x00000000, [⟨31, 0, .ro, .s⟩]⟩,
  /- RGA_CNT_CRC32 -/ ⟨0x094, 1, 4, 0x00000000, [⟨31, 0, .ro, .s⟩]⟩,
  /- RGA_CNT_TAIL_MARKED -/ ⟨0x098, 1, 4, 0x00000000, [⟨31, 0, .ro, .s⟩]⟩,
  /- RGA_CNT_MALFORMED -/ ⟨0x09C, 1, 4, 0x00000000, [⟨31, 0, .ro, .s⟩]⟩,
  /- RGA_CNT_RETURNED -/ ⟨0x0A0, 1, 4, 0x00000000, [⟨31, 0, .ro, .s⟩]⟩,
  /- RGA_CNT_EXPIRED -/ ⟨0x0A4, 1, 4, 0x00000000, [⟨31, 0, .ro, .s⟩]⟩,
  /- RGA_CNT_RX_OVERFLOW -/ ⟨0x0A8, 1, 4, 0x00000000, [⟨31, 0, .ro, .s⟩]⟩,
  /- RGA_CNT_DOWN -/ ⟨0x0AC, 1, 4, 0x00000000, [⟨31, 0, .ro, .s⟩]⟩,
  /- RGA_CNT_SLIP -/ ⟨0x0B0, 1, 4, 0x00000000, [⟨31, 0, .ro, .s⟩]⟩,
  /- RGA_CNT_UNKNOWN_SET -/ ⟨0x0B4, 1, 4, 0x00000000, [⟨31, 0, .ro, .s⟩]⟩,
  /- RGA_CNT_TRANSIT_DROP -/ ⟨0x0B8, 1, 4, 0x00000000, [⟨31, 0, .ro, .s⟩]⟩,
  /- RGA_PORT_CMD -/ ⟨0x600, 1, 4, 0x00000000, [⟨0, 0, .sc, .v⟩]⟩,
  /- RGA_PORT_TEST -/ ⟨0x800, 1, 4, 0x00000000, [⟨0, 0, .rw, .v⟩, ⟨1, 1, .rw, .v⟩]⟩,
  /- RGA_PORT_PRBS_ERR -/ ⟨0x804, 1, 4, 0x00000000, [⟨31, 0, .ro, .v⟩]⟩]

/-- Pages 0x23, 0x27. -/
def tableRM : List RDesc := [
  /- RGA_MOD_STATUS -/ ⟨0x040, 2, 32, 0x00000000, [⟨15, 8, .ro, .v⟩, ⟨5, 5, .ro, .v⟩, ⟨4, 4, .ro, .v⟩, ⟨3, 3, .ro, .v⟩, ⟨2, 2, .ro, .v⟩, ⟨1, 1, .ro, .v⟩, ⟨0, 0, .ro, .v⟩]⟩,
  /- RGA_MOD_TEMP_VCC -/ ⟨0x044, 2, 32, 0x00000000, [⟨31, 0, .ro, .v⟩]⟩,
  /- RGA_MOD_BIAS_TXP -/ ⟨0x048, 2, 32, 0x00000000, [⟨31, 0, .ro, .v⟩]⟩,
  /- RGA_MOD_RXP_ALARM -/ ⟨0x04C, 2, 32, 0x00000000, [⟨31, 0, .ro, .v⟩]⟩,
  /- RGA_MOD_CFG -/ ⟨0x070, 1, 4, 0x00000001, [⟨0, 0, .rw, .w⟩, ⟨1, 1, .rw, .w⟩]⟩,
  /- RGA_MOD_ACC -/ ⟨0x600, 1, 4, 0x00000000, [⟨31, 31, .sc, .v⟩, ⟨30, 30, .rw, .v⟩, ⟨29, 29, .rw, .v⟩, ⟨28, 28, .rw, .v⟩, ⟨27, 27, .ro, .v⟩, ⟨23, 16, .rw, .v⟩, ⟨15, 8, .rw, .v⟩, ⟨7, 0, .ro, .v⟩]⟩]

/-- Page 0x28. -/
def tableRCTL : List RDesc := [
  /- RCTL_CTRL -/ ⟨0x040, 1, 4, 0x00000000, [⟨4, 4, .rw, .w⟩, ⟨3, 3, .rw, .w⟩, ⟨2, 2, .rw, .w⟩, ⟨1, 1, .rw, .w⟩, ⟨0, 0, .rw, .w⟩]⟩,
  /- RCTL_CFG -/ ⟨0x044, 1, 4, 0x00000000, [⟨31, 16, .rwl, .w⟩, ⟨0, 0, .rwl, .w⟩]⟩,
  /- RCTL_RING -/ ⟨0x048, 1, 4, 0x03FF03FF, [⟨25, 16, .rwl, .w⟩, ⟨9, 0, .rwl, .w⟩]⟩,
  /- RCTL_TIMERS -/ ⟨0x04C, 1, 4, 0x03101414, [⟨31, 28, .rw, .w⟩, ⟨27, 24, .rw, .w⟩, ⟨20, 16, .rw, .w⟩, ⟨15, 8, .rw, .w⟩, ⟨7, 0, .rw, .w⟩]⟩,
  /- RCTL_RESET_KEY -/ ⟨0x050, 1, 4, 0x00000000, [⟨31, 0, .wo, .w⟩]⟩,
  /- RCTL_STATUS -/ ⟨0x060, 2, 64, 0x00000000, [⟨31, 24, .ro, .v⟩, ⟨23, 16, .ro, .v⟩, ⟨15, 12, .ro, .v⟩, ⟨8, 8, .ro, .v⟩, ⟨7, 7, .ro, .v⟩, ⟨6, 6, .ro, .v⟩, ⟨5, 5, .ro, .v⟩, ⟨4, 4, .ro, .v⟩, ⟨2, 0, .ro, .v⟩]⟩,
  /- RCTL_MASTER -/ ⟨0x064, 2, 64, 0x000000FF, [⟨31, 16, .ro, .v⟩, ⟨7, 0, .ro, .v⟩]⟩,
  /- RCTL_MASTER_UID -/ ⟨0x068, 4, 4, 0x00000000, [⟨31, 0, .ro, .v⟩]⟩,
  /- RCTL_MASTER_UID -/ ⟨0x0A8, 4, 4, 0x00000000, [⟨31, 0, .ro, .v⟩]⟩,
  /- RCTL_OFFSET0 -/ ⟨0x078, 2, 64, 0x00000000, [⟨31, 0, .ro, .v⟩]⟩,
  /- RCTL_OFFSET1 -/ ⟨0x07C, 2, 64, 0x00000000, [⟨31, 0, .ro, .v⟩]⟩,
  /- RCTL_LOOP -/ ⟨0x080, 2, 64, 0x00000000, [⟨31, 16, .ro, .v⟩, ⟨15, 0, .ro, .v⟩]⟩,
  /- RCTL_SPAN -/ ⟨0x084, 2, 64, 0x000000FF, [⟨9, 9, .ro, .v⟩, ⟨8, 8, .ro, .v⟩, ⟨7, 0, .ro, .v⟩]⟩,
  /- RCTL_TREE -/ ⟨0x088, 2, 64, 0x00FF0000, [⟨23, 16, .rwl, .w⟩, ⟨15, 6, .rwl, .w⟩, ⟨5, 5, .ro, .v⟩, ⟨3, 0, .ro, .v⟩]⟩,
  /- RCTL_ROUTE -/ ⟨0x100, 128, 4, 0x00000000, [⟨31, 31, .rwl, .w⟩, ⟨29, 20, .rwl, .w⟩, ⟨19, 10, .rwl, .w⟩, ⟨7, 0, .rwl, .w⟩]⟩,
  /- RCTL_CNT_ELECT -/ ⟨0x300, 2, 64, 0x00000000, [⟨31, 0, .ro, .s⟩]⟩,
  /- RCTL_CNT_BREAK -/ ⟨0x304, 2, 64, 0x00000000, [⟨31, 0, .ro, .s⟩]⟩,
  /- RCTL_CNT_HEAL -/ ⟨0x308, 2, 64, 0x00000000, [⟨31, 0, .ro, .s⟩]⟩,
  /- RCTL_CNT_WRAP -/ ⟨0x30C, 2, 64, 0x00000000, [⟨31, 0, .ro, .s⟩]⟩,
  /- RCTL_CNT_WRAP_DROP -/ ⟨0x310, 2, 64, 0x00000000, [⟨31, 0, .ro, .s⟩]⟩,
  /- RCTL_CNT_TWIN_DROP -/ ⟨0x314, 2, 64, 0x00000000, [⟨31, 0, .ro, .s⟩]⟩,
  /- RCTL_CNT_DEMOTE -/ ⟨0x318, 2, 64, 0x00000000, [⟨31, 0, .ro, .s⟩]⟩,
  /- RCTL_CNT_NOROUTE -/ ⟨0x31C, 2, 64, 0x00000000, [⟨31, 0, .ro, .s⟩]⟩,
  /- RCTL_CNT_BAD_MSG -/ ⟨0x380, 1, 4, 0x00000000, [⟨31, 0, .ro, .s⟩]⟩,
  /- RCTL_CMD -/ ⟨0x600, 1, 4, 0x00000000, [⟨5, 5, .sc, .v⟩, ⟨4, 4, .sc, .v⟩, ⟨3, 3, .sc, .v⟩, ⟨2, 2, .sc, .v⟩, ⟨1, 1, .sc, .v⟩, ⟨0, 0, .sc, .v⟩]⟩,
  /- RCTL_CMD_ARG -/ ⟨0x604, 1, 4, 0x00000000, [⟨7, 0, .rw, .v⟩]⟩,
  /- RCTL_EXP -/ ⟨0x800, 1, 4, 0x00000000, [⟨1, 1, .rw, .w⟩, ⟨0, 0, .rw, .w⟩]⟩]

/-- Page 0x10. -/
def tableFAB0 : List RDesc := [
  /- FAB_PORT_EN -/ ⟨0x040, 1, 4, 0x0000FFFF, [⟨15, 0, .rw, .w⟩]⟩,
  /- FAB_STATUS -/ ⟨0x044, 1, 4, 0x00000000, [⟨19, 16, .ro, .v⟩, ⟨15, 14, .ro, .v⟩, ⟨8, 0, .ro, .v⟩]⟩,
  /- FAB_ROUND -/ ⟨0x048, 1, 4, 0x00000000, [⟨31, 0, .ro, .v⟩]⟩,
  /- FAB_EXP -/ ⟨0x800, 1, 4, 0x00000240, [⟨11, 8, .rw, .w⟩, ⟨7, 4, .rw, .w⟩, ⟨0, 0, .rw, .w⟩]⟩]

/-- Page 0x11. -/
def tableFAB1 : List RDesc := [
  /- FAB_LIMIT -/ ⟨0x040, 16, 4, 0x0C0C0602, [⟨31, 24, .rwl, .w⟩, ⟨23, 16, .rwl, .w⟩, ⟨15, 8, .rwl, .w⟩, ⟨7, 0, .rwl, .w⟩]⟩,
  /- FAB_OUTCAP -/ ⟨0x080, 16, 4, 0x00000100, [⟨13, 0, .rwl, .w⟩]⟩,
  /- FAB_LIMIT_SUM -/ ⟨0x0C0, 1, 4, 0x00000200, [⟨9, 0, .ro, .v⟩]⟩]

/-- Page 0x12. -/
def tableFAB2 : List RDesc := [
  /- FAB_MID_OCC -/ ⟨0x040, 16, 4, 0x00000000, [⟨25, 16, .ro, .v⟩, ⟨9, 0, .ro, .v⟩]⟩,
  /- FAB_OUT_OCC -/ ⟨0x080, 16, 4, 0x00000000, [⟨28, 16, .ro, .v⟩, ⟨13, 0, .ro, .v⟩]⟩,
  /- FAB_OCC_CMD -/ ⟨0x600, 1, 4, 0x00000000, [⟨0, 0, .sc, .v⟩]⟩]

/-- Page 0x13. -/
def tableFAB3 : List RDesc := [
  /- FAB_CELLS_IN -/ ⟨0x040, 16, 16, 0x00000000, [⟨31, 0, .ro, .s⟩]⟩,
  /- FAB_CELLS_OUT -/ ⟨0x044, 16, 16, 0x00000000, [⟨31, 0, .ro, .s⟩]⟩,
  /- FAB_HELD -/ ⟨0x048, 16, 16, 0x00000000, [⟨31, 0, .ro, .s⟩]⟩,
  /- FAB_DISCARD -/ ⟨0x04C, 16, 16, 0x00000000, [⟨31, 0, .ro, .s⟩]⟩]

/-- Page 0x14. -/
def tableFAB4 : List RDesc := [
  /- FAB_RSQ_SEL -/ ⟨0x040, 1, 4, 0x00000000, [⟨9, 8, .rw, .v⟩, ⟨7, 4, .rw, .v⟩, ⟨3, 0, .rw, .v⟩]⟩,
  /- FAB_RSQ_VIEW -/ ⟨0x044, 1, 4, 0x00000000, [⟨31, 16, .ro, .v⟩, ⟨15, 0, .ro, .v⟩]⟩,
  /- FAB_RSQ_HELD_LO -/ ⟨0x048, 1, 4, 0x00000000, [⟨31, 0, .ro, .v⟩]⟩,
  /- FAB_RSQ_HELD_HI -/ ⟨0x04C, 1, 4, 0x00000000, [⟨31, 0, .ro, .v⟩]⟩,
  /- FAB_CNT_TAG_FAULT -/ ⟨0x080, 1, 4, 0x00000000, [⟨31, 0, .ro, .s⟩]⟩,
  /- FAB_CNT_CREDIT_HOLD -/ ⟨0x084, 1, 4, 0x00000000, [⟨31, 0, .ro, .s⟩]⟩]

/-- Page 0x15. -/
def tableFAB5 : List RDesc := [
  /- FAB_AIM_MAX -/ ⟨0x040, 1, 4, 0x00000000, [⟨15, 8, .ro, .v⟩, ⟨4, 0, .ro, .v⟩]⟩,
  /- FAB_CNT_AIM_BLOCKED -/ ⟨0x044, 1, 4, 0x00000000, [⟨31, 0, .ro, .s⟩]⟩,
  /- FAB_AIM_CMD -/ ⟨0x600, 1, 4, 0x00000000, [⟨0, 0, .sc, .v⟩]⟩]

/-- Page 0x16. -/
def tableFAB6 : List RDesc := [
  /- FAB_TRACE_CFG -/ ⟨0x800, 1, 4, 0x00000000, [⟨31, 31, .rw, .v⟩, ⟨19, 16, .rw, .v⟩, ⟨15, 12, .rw, .v⟩, ⟨11, 8, .rw, .v⟩, ⟨1, 1, .rw, .v⟩, ⟨0, 0, .rw, .v⟩]⟩,
  /- FAB_TRACE_POP -/ ⟨0xF00, 1, 4, 0x00000000, [⟨31, 0, .rp, .v⟩]⟩,
  /- FAB_TRACE_POP_HI -/ ⟨0xF04, 1, 4, 0x00000000, [⟨31, 0, .ro, .v⟩]⟩,
  /- FAB_TRACE_REPLAY -/ ⟨0xF80, 1, 4, 0x00000000, [⟨31, 0, .ro, .v⟩]⟩,
  /- FAB_TRACE_REPLAY_HI -/ ⟨0xF84, 1, 4, 0x00000000, [⟨31, 0, .ro, .v⟩]⟩]

/-- Page 0x17. -/
def tableFAB7 : List RDesc := [
  /- FAB_TEST -/ ⟨0x800, 1, 4, 0x00000000, [⟨0, 0, .rw, .v⟩]⟩,
  /- FAB_TEST_STEP -/ ⟨0xE00, 1, 4, 0x00000000, [⟨0, 0, .sc, .v⟩]⟩]

/-- Page 0x18. -/
def tablePACE : List RDesc := [
  /- PACE_CTRL -/ ⟨0x040, 1, 4, 0x00000000, [⟨0, 0, .rw, .w⟩]⟩,
  /- PACE_CFG -/ ⟨0x044, 1, 4, 0x64140F0F, [⟨31, 24, .rwl, .w⟩, ⟨23, 16, .rwl, .w⟩, ⟨11, 8, .rwl, .w⟩, ⟨7, 4, .rwl, .w⟩, ⟨3, 0, .rwl, .w⟩]⟩,
  /- PACE_THRESH -/ ⟨0x048, 1, 4, 0x035202BC, [⟨31, 16, .rwl, .w⟩, ⟨15, 0, .rwl, .w⟩]⟩,
  /- PACE_LIMITS -/ ⟨0x04C, 1, 4, 0x03E80384, [⟨31, 16, .ro, .v⟩, ⟨15, 0, .ro, .v⟩]⟩,
  /- PACE_BEAT -/ ⟨0x060, 1, 4, 0x00000000, [⟨31, 16, .ro, .v⟩, ⟨15, 0, .ro, .v⟩]⟩,
  /- PACE_BEAT_MIN -/ ⟨0x064, 1, 4, 0x0000FFFF, [⟨15, 0, .ro, .v⟩]⟩,
  /- PACE_CODE -/ ⟨0x068, 1, 4, 0x0000000F, [⟨9, 8, .ro, .v⟩, ⟨7, 7, .ro, .w⟩, ⟨6, 6, .ro, .v⟩, ⟨5, 5, .ro, .v⟩, ⟨4, 4, .ro, .w⟩, ⟨3, 0, .ro, .w⟩]⟩,
  /- PACE_CNT_WARN -/ ⟨0x080, 1, 4, 0x00000000, [⟨31, 0, .ro, .s⟩]⟩,
  /- PACE_CNT_BREACH -/ ⟨0x084, 1, 4, 0x00000000, [⟨31, 0, .ro, .s⟩]⟩,
  /- PACE_CNT_UP -/ ⟨0x088, 1, 4, 0x00000000, [⟨31, 0, .ro, .s⟩]⟩,
  /- PACE_CNT_DOWN -/ ⟨0x08C, 1, 4, 0x00000000, [⟨31, 0, .ro, .s⟩]⟩,
  /- PACE_CMD -/ ⟨0x600, 1, 4, 0x00000000, [⟨0, 0, .sc, .v⟩, ⟨1, 1, .sc, .v⟩]⟩,
  /- PACE_EXP -/ ⟨0x800, 1, 4, 0x00000000, [⟨31, 16, .rw, .w⟩, ⟨4, 4, .rw, .w⟩, ⟨3, 0, .rw, .w⟩]⟩]

/-- Page 0x30. -/
def tableFLOW0 : List RDesc := [
  /- FLOW_CTRL -/ ⟨0x040, 1, 4, 0x00000000, [⟨0, 0, .rw, .w⟩]⟩,
  /- FLOW_CFG -/ ⟨0x044, 1, 4, 0x0C000000, [⟨27, 16, .rwl, .w⟩]⟩,
  /- FLOW_BACK -/ ⟨0x048, 1, 4, 0x00000000, [⟨31, 7, .rwl, .w⟩]⟩,
  /- FLOW_BACK_SIZE -/ ⟨0x04C, 1, 4, 0x00010000, [⟨20, 0, .rwl, .w⟩]⟩,
  /- FLOW_COUNT -/ ⟨0x050, 1, 4, 0x00000000, [⟨28, 16, .ro, .v⟩, ⟨12, 0, .ro, .v⟩]⟩,
  /- FLOW_TOTAL -/ ⟨0x054, 1, 4, 0x00000000, [⟨16, 0, .ro, .v⟩]⟩,
  /- FLOW_PAGER -/ ⟨0x058, 1, 4, 0x00000000, [⟨31, 16, .ro, .v⟩, ⟨9, 4, .ro, .v⟩, ⟨0, 0, .ro, .v⟩]⟩,
  /- FLOW_ARG0 -/ ⟨0x060, 1, 4, 0x00000000, [⟨31, 30, .rw, .v⟩, ⟨29, 28, .rw, .v⟩, ⟨27, 27, .rw, .v⟩, ⟨23, 16, .rw, .v⟩, ⟨11, 8, .rw, .v⟩, ⟨7, 0, .rw, .v⟩]⟩,
  /- FLOW_ARG1 -/ ⟨0x064, 1, 4, 0x00000000, [⟨31, 14, .rw, .v⟩]⟩,
  /- FLOW_ARG2 -/ ⟨0x068, 1, 4, 0x00000000, [⟨31, 14, .rw, .v⟩, ⟨9, 0, .rw, .v⟩]⟩,
  /- FLOW_ARG3 -/ ⟨0x06C, 1, 4, 0x00000000, [⟨31, 31, .rw, .v⟩, ⟨19, 0, .rw, .v⟩]⟩,
  /- FLOW_RESULT -/ ⟨0x070, 1, 4, 0x00000000, [⟨31, 31, .ro, .v⟩, ⟨23, 16, .ro, .v⟩, ⟨3, 0, .ro, .v⟩]⟩,
  /- FLOW_CNT_MISS -/ ⟨0x080, 1, 4, 0x00000000, [⟨31, 0, .ro, .s⟩]⟩,
  /- FLOW_CNT_FETCH -/ ⟨0x084, 1, 4, 0x00000000, [⟨31, 0, .ro, .s⟩]⟩,
  /- FLOW_CNT_WRITEBACK -/ ⟨0x088, 1, 4, 0x00000000, [⟨31, 0, .ro, .s⟩]⟩,
  /- FLOW_CNT_PAGER_FAULT -/ ⟨0x08C, 1, 4, 0x00000000, [⟨31, 0, .ro, .s⟩]⟩,
  /- FLOW_CNT_NO_FLOW -/ ⟨0x090, 1, 4, 0x00000000, [⟨31, 0, .ro, .s⟩]⟩,
  /- FLOW_CNT_DISABLED -/ ⟨0x094, 1, 4, 0x00000000, [⟨31, 0, .ro, .s⟩]⟩,
  /- FLOW_CNT_FOREIGN -/ ⟨0x098, 1, 4, 0x00000000, [⟨31, 0, .ro, .s⟩]⟩,
  /- FLOW_CNT_NO_VICTIM -/ ⟨0x09C, 1, 4, 0x00000000, [⟨31, 0, .ro, .s⟩]⟩,
  /- FLOW_CNT_SYS_FULL -/ ⟨0x0A0, 1, 4, 0x00000000, [⟨31, 0, .ro, .s⟩]⟩,
  /- FLOW_CNT_DIRECT_REFUSED -/ ⟨0x0A4, 1, 4, 0x00000000, [⟨31, 0, .ro, .s⟩]⟩,
  /- FLOW_CNT_ECC_FIXED -/ ⟨0x0A8, 1, 4, 0x00000000, [⟨31, 0, .ro, .s⟩]⟩,
  /- FLOW_CMD -/ ⟨0x600, 1, 4, 0x00000000, [⟨31, 31, .sc, .v⟩, ⟨19, 16, .rw, .v⟩, ⟨15, 0, .rw, .v⟩]⟩]

/-- Page 0x31. -/
def tableFLOW1 : List RDesc := [
  /- FLOW_VIEW -/ ⟨0x800, 32, 4, 0x00000000, [⟨31, 0, .rw, .v⟩]⟩,
  /- FLOW_VIEW_SEL -/ ⟨0x880, 1, 4, 0xFF000000, [⟨31, 24, .ro, .v⟩, ⟨15, 0, .rw, .v⟩]⟩,
  /- FLOW_VIEW_RESULT -/ ⟨0x884, 1, 4, 0x00000000, [⟨31, 31, .ro, .v⟩, ⟨3, 0, .ro, .v⟩]⟩,
  /- FLOW_VIEW_CMD -/ ⟨0xE00, 1, 4, 0x00000000, [⟨0, 0, .sc, .v⟩, ⟨1, 1, .sc, .v⟩, ⟨2, 2, .sc, .v⟩]⟩]

/-- Page 0x32. -/
def tableFLOW2 : List RDesc := [
  /- FLOW_SYS_CFG -/ ⟨0x040, 1, 4, 0x00000010, [⟨4, 0, .rwl, .w⟩]⟩,
  /- FLOW_SYS_COUNT -/ ⟨0x044, 1, 4, 0x00000000, [⟨25, 16, .ro, .v⟩, ⟨9, 0, .ro, .v⟩]⟩]

/-- Page 0x33. -/
def tableFLOW3 : List RDesc := [
  /- FLOW_PF_CAP -/ ⟨0x040, 1, 4, 0x00000000, [⟨31, 31, .ro, .s⟩, ⟨19, 18, .ro, .s⟩, ⟨17, 16, .ro, .s⟩, ⟨15, 0, .ro, .s⟩]⟩,
  /- FLOW_PF_ADDR -/ ⟨0x044, 1, 4, 0x00000000, [⟨31, 0, .ro, .s⟩]⟩,
  /- FLOW_PF_CMD -/ ⟨0x600, 1, 4, 0x00000000, [⟨0, 0, .sc, .v⟩]⟩,
  /- FLOW_PAGER_EXP -/ ⟨0x800, 1, 4, 0x00000A40, [⟨15, 8, .rw, .w⟩, ⟨6, 4, .rw, .w⟩]⟩]

/-- Page 0x38. -/
def tableTTB0 : List RDesc := [
  /- TTB_CFG -/ ⟨0x040, 1, 4, 0x0000403C, [⟨15, 8, .rwl, .w⟩, ⟨6, 0, .rwl, .w⟩]⟩,
  /- TTB_SRC -/ ⟨0x044, 2, 4, 0x00000000, [⟨31, 0, .rwl, .w⟩]⟩,
  /- TTB_STATUS -/ ⟨0x050, 2, 16, 0x00000000, [⟨31, 31, .ro, .v⟩, ⟨30, 30, .ro, .v⟩, ⟨29, 29, .ro, .v⟩, ⟨28, 28, .ro, .v⟩, ⟨27, 27, .ro, .v⟩, ⟨20, 16, .ro, .v⟩, ⟨15, 0, .ro, .v⟩]⟩,
  /- TTB_USE -/ ⟨0x054, 2, 16, 0x00000000, [⟨31, 16, .ro, .v⟩, ⟨8, 0, .ro, .v⟩]⟩,
  /- TTB_PENDING -/ ⟨0x058, 2, 16, 0x00000000, [⟨19, 0, .ro, .v⟩]⟩,
  /- TTB_OWNED -/ ⟨0x05C, 2, 16, 0x00000000, [⟨16, 0, .ro, .v⟩]⟩,
  /- TTB_FAULT_CAUSE -/ ⟨0x070, 1, 4, 0x00000000, [⟨4, 4, .w1c, .s⟩, ⟨3, 3, .w1c, .s⟩, ⟨2, 2, .w1c, .s⟩, ⟨1, 1, .w1c, .s⟩, ⟨0, 0, .w1c, .s⟩]⟩,
  /- TTB_CMD -/ ⟨0x600, 1, 4, 0x00000000, [⟨1, 0, .sc, .v⟩]⟩,
  /- TTB_EXP -/ ⟨0x800, 1, 4, 0x00000000, [⟨1, 1, .rw, .w⟩, ⟨0, 0, .rw, .w⟩]⟩,
  /- TTB_EXP_SWAP -/ ⟨0xE00, 1, 4, 0x00000000, [⟨1, 0, .sc, .v⟩]⟩]

/-- Page 0x39. -/
def tableTTB1 : List RDesc := [
  /- TTB_MEM_ADDR -/ ⟨0x040, 1, 4, 0x00000000, [⟨18, 2, .rw, .v⟩]⟩,
  /- TTB_MEM_DATA -/ ⟨0x044, 1, 4, 0x00000000, [⟨31, 0, .rw, .v⟩]⟩,
  /- TTB_MEM_DATA_INC -/ ⟨0x600, 1, 4, 0x00000000, [⟨31, 0, .rw, .v⟩]⟩]

/-- Page 0x3A. -/
def tableTTB2 : List RDesc := [
  /- TTB_LOG_STATUS -/ ⟨0x040, 1, 4, 0x00000000, [⟨20, 16, .ro, .v⟩, ⟨15, 0, .ro, .v⟩]⟩,
  /- TTB_LOG_POP -/ ⟨0x700, 1, 4, 0x00000000, [⟨31, 16, .rp, .v⟩, ⟨15, 8, .rp, .v⟩, ⟨0, 0, .rp, .v⟩]⟩,
  /- TTB_LOG_REPLAY -/ ⟨0x780, 1, 4, 0x00000000, [⟨31, 0, .ro, .v⟩]⟩]

/-- Page 0x3B. -/
def tableTTB3 : List RDesc := [
  /- TTB_CNT_SENT -/ ⟨0x040, 2, 32, 0x00000000, [⟨31, 0, .ro, .s⟩]⟩,
  /- TTB_CNT_EMPTY -/ ⟨0x044, 2, 32, 0x00000000, [⟨31, 0, .ro, .s⟩]⟩,
  /- TTB_CNT_OVERRUN -/ ⟨0x048, 2, 32, 0x00000000, [⟨31, 0, .ro, .s⟩]⟩,
  /- TTB_CNT_READMIT_DROP -/ ⟨0x04C, 2, 32, 0x00000000, [⟨31, 0, .ro, .s⟩]⟩,
  /- TTB_CNT_TABLES -/ ⟨0x050, 2, 32, 0x00000000, [⟨31, 0, .ro, .s⟩]⟩,
  /- TTB_CNT_RESERVE -/ ⟨0x080, 1, 4, 0x00000000, [⟨31, 0, .ro, .s⟩]⟩,
  /- TTB_CNT_LOST0 -/ ⟨0x084, 1, 4, 0x00000000, [⟨31, 0, .ro, .s⟩]⟩,
  /- TTB_CNT_REFUSED -/ ⟨0x088, 1, 4, 0x00000000, [⟨31, 0, .ro, .s⟩]⟩]

/-- TB0, page 0x40 (R242). -/
def tableTB0 : List RDesc := [
  /- TB_CFG -/ ⟨0x040, 1, 4, 0x103001F4, [⟨28, 24, .rwl, .w⟩, ⟨23, 20, .rwl, .w⟩, ⟨16, 16, .rwl, .w⟩, ⟨15, 0, .rwl, .w⟩]⟩,
  /- TB_STATUS -/ ⟨0x044, 1, 4, 0x00000000, [⟨15, 8, .ro, .v⟩, ⟨3, 3, .ro, .w⟩, ⟨2, 2, .w1c, .v⟩, ⟨1, 1, .ro, .v⟩, ⟨0, 0, .ro, .v⟩]⟩,
  /- TB_SERVO -/ ⟨0x048, 1, 4, 0x000003E8, [⟨15, 0, .rwl, .w⟩]⟩,
  /- TB_OFFSET -/ ⟨0x04C, 1, 4, 0x00000000, [⟨31, 0, .ro, .v⟩]⟩,
  /- TB_RATE_LO -/ ⟨0x050, 1, 4, 0x00000000, [⟨31, 0, .rw, .w⟩]⟩,
  /- TB_RATE_HI -/ ⟨0x054, 1, 4, 0x00000400, [⟨15, 0, .rw, .w⟩]⟩,
  /- TB_STEP_LO -/ ⟨0x058, 1, 4, 0x00000000, [⟨31, 0, .rw, .v⟩]⟩,
  /- TB_STEP_HI -/ ⟨0x05C, 1, 4, 0x00000000, [⟨31, 0, .rw, .v⟩]⟩,
  /- TB_SNAP_NS -/ ⟨0x060, 1, 4, 0x00000000, [⟨31, 0, .ro, .v⟩]⟩,
  /- TB_SNAP_SEC_LO -/ ⟨0x064, 1, 4, 0x00000000, [⟨31, 0, .ro, .v⟩]⟩,
  /- TB_SNAP_SEC_HI -/ ⟨0x068, 1, 4, 0x00000000, [⟨15, 0, .ro, .v⟩]⟩,
  /- TB_SNAP_IC_LO -/ ⟨0x06C, 1, 4, 0x00000000, [⟨31, 0, .ro, .v⟩]⟩,
  /- TB_SNAP_IC_HI -/ ⟨0x070, 1, 4, 0x00000000, [⟨31, 0, .ro, .v⟩]⟩,
  /- TB_STEP_AT_LO -/ ⟨0x074, 1, 4, 0x00000000, [⟨31, 0, .ro, .v⟩]⟩,
  /- TB_STEP_AT_HI -/ ⟨0x078, 1, 4, 0x00000000, [⟨31, 0, .ro, .v⟩]⟩,
  /- TB_SOURCE -/ ⟨0x07C, 1, 4, 0x00000000, [⟨31, 14, .ro, .v⟩, ⟨1, 0, .ro, .v⟩]⟩,
  /- TB_CNT_STEP -/ ⟨0x080, 1, 4, 0x00000000, [⟨31, 0, .ro, .s⟩]⟩,
  /- TB_CNT_SYNC -/ ⟨0x084, 1, 4, 0x00000000, [⟨31, 0, .ro, .s⟩]⟩,
  /- TB_CNT_LOCK_LOST -/ ⟨0x088, 1, 4, 0x00000000, [⟨31, 0, .ro, .s⟩]⟩,
  /- TB_CNT_BAD -/ ⟨0x08C, 1, 4, 0x00000000, [⟨31, 0, .ro, .s⟩]⟩,
  /- TB_CMD -/ ⟨0x600, 1, 4, 0x00000000, [⟨0, 0, .sc, .v⟩, ⟨1, 1, .sc, .v⟩]⟩,
  /- TB_SESSION -/ ⟨0x604, 1, 4, 0x00000000, [⟨0, 0, .sc, .w⟩, ⟨31, 16, .ro, .w⟩]⟩,
  /- TB_EXP -/ ⟨0x800, 1, 4, 0x00000000, [⟨0, 0, .rw, .w⟩, ⟨1, 1, .rw, .w⟩]⟩]

/-- TB1 to TB3, pages 0x41 to 0x43: the servo registers are on TB0 only (R242). -/
def tableTBn : List RDesc := [
  /- TB_CFG -/ ⟨0x040, 1, 4, 0x00000000, [⟨28, 24, .ro, .w⟩, ⟨23, 20, .ro, .w⟩, ⟨16, 16, .ro, .w⟩, ⟨15, 0, .ro, .w⟩]⟩,
  /- TB_STATUS -/ ⟨0x044, 1, 4, 0x00000000, [⟨15, 8, .ro, .v⟩, ⟨3, 3, .ro, .w⟩, ⟨2, 2, .w1c, .v⟩, ⟨1, 1, .ro, .v⟩, ⟨0, 0, .ro, .v⟩]⟩,
  /- TB_SERVO -/ ⟨0x048, 1, 4, 0x00000000, [⟨15, 0, .ro, .w⟩]⟩,
  /- TB_OFFSET -/ ⟨0x04C, 1, 4, 0x00000000, [⟨31, 0, .ro, .v⟩]⟩,
  /- TB_RATE_LO -/ ⟨0x050, 1, 4, 0x00000000, [⟨31, 0, .rw, .w⟩]⟩,
  /- TB_RATE_HI -/ ⟨0x054, 1, 4, 0x00000400, [⟨15, 0, .rw, .w⟩]⟩,
  /- TB_STEP_LO -/ ⟨0x058, 1, 4, 0x00000000, [⟨31, 0, .rw, .v⟩]⟩,
  /- TB_STEP_HI -/ ⟨0x05C, 1, 4, 0x00000000, [⟨31, 0, .rw, .v⟩]⟩,
  /- TB_SNAP_NS -/ ⟨0x060, 1, 4, 0x00000000, [⟨31, 0, .ro, .v⟩]⟩,
  /- TB_SNAP_SEC_LO -/ ⟨0x064, 1, 4, 0x00000000, [⟨31, 0, .ro, .v⟩]⟩,
  /- TB_SNAP_SEC_HI -/ ⟨0x068, 1, 4, 0x00000000, [⟨15, 0, .ro, .v⟩]⟩,
  /- TB_SNAP_IC_LO -/ ⟨0x06C, 1, 4, 0x00000000, [⟨31, 0, .ro, .v⟩]⟩,
  /- TB_SNAP_IC_HI -/ ⟨0x070, 1, 4, 0x00000000, [⟨31, 0, .ro, .v⟩]⟩,
  /- TB_STEP_AT_LO -/ ⟨0x074, 1, 4, 0x00000000, [⟨31, 0, .ro, .v⟩]⟩,
  /- TB_STEP_AT_HI -/ ⟨0x078, 1, 4, 0x00000000, [⟨31, 0, .ro, .v⟩]⟩,
  /- TB_SOURCE -/ ⟨0x07C, 1, 4, 0x00000000, [⟨31, 14, .ro, .v⟩, ⟨1, 0, .ro, .v⟩]⟩,
  /- TB_CNT_STEP -/ ⟨0x080, 1, 4, 0x00000000, [⟨31, 0, .ro, .s⟩]⟩,
  /- TB_CNT_SYNC -/ ⟨0x084, 1, 4, 0x00000000, [⟨31, 0, .ro, .s⟩]⟩,
  /- TB_CNT_LOCK_LOST -/ ⟨0x088, 1, 4, 0x00000000, [⟨31, 0, .ro, .s⟩]⟩,
  /- TB_CNT_BAD -/ ⟨0x08C, 1, 4, 0x00000000, [⟨31, 0, .ro, .s⟩]⟩,
  /- TB_CMD -/ ⟨0x600, 1, 4, 0x00000000, [⟨0, 0, .sc, .v⟩, ⟨1, 1, .sc, .v⟩]⟩,
  /- TB_SESSION -/ ⟨0x604, 1, 4, 0x00000000, [⟨0, 0, .sc, .w⟩, ⟨31, 16, .ro, .w⟩]⟩,
  /- TB_EXP -/ ⟨0x800, 1, 4, 0x00000000, [⟨0, 0, .rw, .w⟩, ⟨1, 1, .rw, .w⟩]⟩]

/-- Page 0x44. -/
def tableTSU : List RDesc := [
  /- TSU_TUNNEL -/ ⟨0x040, 1, 4, 0x00000000, [⟨0, 0, .rw, .w⟩, ⟨1, 1, .rw, .w⟩, ⟨2, 2, .rw, .w⟩, ⟨3, 3, .rw, .w⟩]⟩,
  /- TSU_BASE_SEL -/ ⟨0x044, 1, 4, 0x00000001, [⟨9, 0, .rw, .w⟩]⟩,
  /- TSU_IC_LO -/ ⟨0x048, 1, 4, 0x00000000, [⟨31, 0, .ro, .v⟩]⟩,
  /- TSU_IC_HI -/ ⟨0x04C, 1, 4, 0x00000000, [⟨31, 0, .ro, .v⟩]⟩,
  /- TSU_CAP_STATUS -/ ⟨0x050, 1, 4, 0x00000000, [⟨22, 16, .ro, .v⟩, ⟨15, 0, .ro, .v⟩]⟩,
  /- TSU_CNT_TC_ORPHAN -/ ⟨0x054, 1, 4, 0x00000000, [⟨31, 0, .ro, .s⟩]⟩,
  /- TSU_CNT_TUNNEL_LONG -/ ⟨0x058, 1, 4, 0x00000000, [⟨31, 0, .ro, .s⟩]⟩,
  /- TSU_ASYM -/ ⟨0x060, 9, 4, 0x00000000, [⟨31, 16, .rw, .w⟩, ⟨15, 0, .rw, .w⟩]⟩,
  /- TSU_PEER -/ ⟨0x0A0, 8, 4, 0x00000000, [⟨31, 14, .rw, .w⟩, ⟨0, 0, .rw, .w⟩]⟩,
  /- TSU_EVT_CFG -/ ⟨0x100, 16, 32, 0x00000000, [⟨31, 30, .rw, .w⟩, ⟨29, 28, .rw, .w⟩, ⟨27, 26, .rw, .w⟩, ⟨25, 24, .rw, .w⟩, ⟨23, 23, .rw, .w⟩, ⟨22, 16, .rw, .w⟩, ⟨10, 10, .rw, .w⟩, ⟨9, 9, .rw, .w⟩, ⟨8, 8, .rw, .w⟩]⟩,
  /- TSU_EVT_NS -/ ⟨0x104, 16, 32, 0x00000000, [⟨31, 0, .rw, .w⟩]⟩,
  /- TSU_EVT_SEC_LO -/ ⟨0x108, 16, 32, 0x00000000, [⟨31, 0, .rw, .w⟩]⟩,
  /- TSU_EVT_SEC_HI -/ ⟨0x10C, 16, 32, 0x00000000, [⟨15, 0, .rw, .w⟩]⟩,
  /- TSU_EVT_PER -/ ⟨0x110, 16, 32, 0x00000000, [⟨31, 0, .rw, .w⟩]⟩,
  /- TSU_EVT_STATUS -/ ⟨0x114, 16, 32, 0x00000000, [⟨2, 2, .w1c, .v⟩, ⟨1, 1, .w1c, .v⟩, ⟨0, 0, .ro, .v⟩]⟩,
  /- TSU_CMD -/ ⟨0x600, 1, 4, 0x00000000, [⟨0, 0, .sc, .v⟩]⟩,
  /- TSU_ARM -/ ⟨0x604, 1, 4, 0x00000000, [⟨31, 0, .sc, .v⟩]⟩,
  /- TSU_CAP_POP -/ ⟨0x700, 1, 4, 0x00000000, [⟨31, 0, .rp, .v⟩]⟩,
  /- TSU_CAP_POP_HI -/ ⟨0x704, 1, 4, 0x00000000, [⟨31, 0, .ro, .v⟩]⟩,
  /- TSU_CAP_REPLAY -/ ⟨0x780, 1, 4, 0x00000000, [⟨31, 0, .ro, .v⟩]⟩,
  /- TSU_CAP_REPLAY_HI -/ ⟨0x784, 1, 4, 0x00000000, [⟨31, 0, .ro, .v⟩]⟩]

/-- Pages 0x68, 0x69. -/
def tableHB : List RDesc := [
  /- HBx_CFG -/ ⟨0x040, 1, 4, 0x00000000, [⟨1, 1, .ro, .s⟩, ⟨0, 0, .ro, .s⟩]⟩,
  /- HBx_STATUS -/ ⟨0x044, 1, 4, 0x00000000, [⟨3, 0, .ro, .v⟩, ⟨4, 4, .ro, .v⟩]⟩,
  /- HBx_QSPI_CFG -/ ⟨0x048, 1, 4, 0x00000010, [⟨5, 0, .rw, .w⟩]⟩,
  /- HBx_RETRY -/ ⟨0x04C, 1, 4, 0x000300C8, [⟨18, 16, .rw, .w⟩, ⟨15, 0, .rw, .w⟩]⟩,
  /- HBx_POSTED -/ ⟨0x050, 1, 4, 0x1000000A, [⟨28, 24, .rw, .w⟩, ⟨15, 0, .rw, .w⟩]⟩,
  /- HBx_BAR4_CS -/ ⟨0x054, 1, 4, 0x00000000, [⟨18, 16, .rw, .w⟩, ⟨3, 0, .rw, .w⟩]⟩,
  /- HBx_QATTR -/ ⟨0x058, 1, 4, 0x05800000, [⟨31, 31, .rw, .w⟩, ⟨30, 30, .ro, .w⟩, ⟨29, 29, .rw, .w⟩, ⟨28, 28, .rw, .w⟩, ⟨27, 27, .ro, .w⟩, ⟨26, 26, .rw, .w⟩, ⟨25, 24, .rw, .w⟩, ⟨23, 22, .rw, .w⟩]⟩,
  /- HBx_LAST_ERR -/ ⟨0x05C, 1, 4, 0x00000000, [⟨31, 28, .ro, .v⟩, ⟨27, 24, .ro, .v⟩, ⟨23, 16, .ro, .v⟩, ⟨15, 0, .ro, .v⟩]⟩,
  /- HBx_PWE_STATUS -/ ⟨0x060, 1, 4, 0x00000000, [⟨31, 16, .ro, .v⟩, ⟨15, 0, .ro, .v⟩]⟩,
  /- HBx_OUTSTANDING -/ ⟨0x064, 1, 4, 0x00000000, [⟨29, 24, .ro, .v⟩, ⟨5, 0, .ro, .v⟩]⟩,
  /- HBx_MSIX_PBA -/ ⟨0x068, 1, 4, 0x00000000, [⟨31, 0, .ro, .v⟩]⟩,
  /- HBx_MSIX_PBA_HI -/ ⟨0x06C, 1, 4, 0x00000000, [⟨31, 0, .ro, .v⟩]⟩,
  /- HBx_CNT_DUP_RSP -/ ⟨0x070, 1, 4, 0x00000000, [⟨31, 0, .ro, .s⟩]⟩,
  /- HBx_CNT_RETRY -/ ⟨0x074, 1, 4, 0x00000000, [⟨31, 0, .ro, .s⟩]⟩,
  /- HBx_CNT_PF_REFUSED -/ ⟨0x078, 1, 4, 0x00000000, [⟨31, 0, .ro, .s⟩]⟩,
  /- HBx_CNT_HALT_DROP -/ ⟨0x07C, 1, 4, 0x00000000, [⟨31, 0, .ro, .s⟩]⟩,
  /- HBx_WIN_BASE -/ ⟨0x080, 16, 8, 0x00000000, [⟨27, 0, .rw, .w⟩]⟩,
  /- HBx_WIN_ATTR -/ ⟨0x084, 16, 8, 0x05800000, [⟨31, 31, .rw, .w⟩, ⟨30, 30, .ro, .w⟩, ⟨29, 29, .rw, .w⟩, ⟨28, 28, .rw, .w⟩, ⟨27, 27, .ro, .w⟩, ⟨26, 26, .rw, .w⟩, ⟨25, 24, .rw, .w⟩, ⟨23, 22, .rw, .w⟩]⟩,
  /- HBx_IRQ_ROUTE -/ ⟨0x100, 64, 4, 0x00000000, [⟨31, 0, .rw, .w⟩]⟩,
  /- HBx_MSIX_ADDR_LO -/ ⟨0x200, 32, 16, 0x00000000, [⟨31, 0, .rw, .w⟩]⟩,
  /- HBx_MSIX_ADDR_HI -/ ⟨0x204, 32, 16, 0x00000000, [⟨31, 0, .rw, .w⟩]⟩,
  /- HBx_MSIX_DATA -/ ⟨0x208, 32, 16, 0x00000000, [⟨31, 0, .rw, .w⟩]⟩,
  /- HBx_MSIX_CTRL -/ ⟨0x20C, 32, 16, 0x00000001, [⟨0, 0, .rw, .w⟩]⟩,
  /- HBx_PWE -/ ⟨0x400, 128, 4, 0x00000000, [⟨31, 0, .ro, .v⟩]⟩,
  /- HBx_FENCE -/ ⟨0x600, 1, 4, 0x00000000, [⟨31, 16, .rc, .v⟩, ⟨15, 0, .ro, .v⟩]⟩,
  /- HBx_FENCE_REQ -/ ⟨0x604, 1, 4, 0x00000000, [⟨0, 0, .sc, .v⟩]⟩,
  /- HBx_PWE_CLR -/ ⟨0x608, 1, 4, 0x00000000, [⟨15, 0, .sc, .v⟩]⟩,
  /- HBx_WIN_RESUME -/ ⟨0x60C, 1, 4, 0x00000000, [⟨16, 0, .sc, .v⟩]⟩]

/-- Page 0x05. -/
def tableARB : List RDesc := [
  /- ARB_CFG -/ ⟨0x040, 1, 4, 0x03E8003F, [⟨31, 16, .rwl, .w⟩, ⟨5, 0, .rwl, .w⟩]⟩,
  /- ARB_HB_CFG -/ ⟨0x044, 2, 4, 0x00030064, [⟨31, 31, .rw, .w⟩, ⟨19, 16, .rw, .w⟩, ⟨9, 0, .rw, .w⟩]⟩,
  /- ARB_HB_STATUS -/ ⟨0x04C, 1, 4, 0x00000000, [⟨31, 0, .ro, .v⟩]⟩,
  /- ARB_CONFLICT_LO -/ ⟨0x050, 1, 4, 0x00000000, [⟨31, 0, .ro, .v⟩]⟩,
  /- ARB_CONFLICT_HI -/ ⟨0x054, 1, 4, 0x00000000, [⟨31, 0, .ro, .v⟩]⟩,
  /- ARB_SEM_HELD_LO -/ ⟨0x058, 1, 4, 0x00000000, [⟨31, 0, .ro, .v⟩]⟩,
  /- ARB_SEM_HELD_HI -/ ⟨0x05C, 1, 4, 0x00000000, [⟨31, 0, .ro, .v⟩]⟩,
  /- ARB_CNT_FORCED -/ ⟨0x060, 1, 4, 0x00000000, [⟨31, 0, .ro, .s⟩]⟩,
  /- ARB_CNT_CONFLICT -/ ⟨0x064, 1, 4, 0x00000000, [⟨31, 0, .ro, .s⟩]⟩,
  /- ARB_CNT_SEM_EXPIRED -/ ⟨0x068, 1, 4, 0x00000000, [⟨31, 0, .ro, .s⟩]⟩,
  /- ARB_CNT_SEM_FULL -/ ⟨0x06C, 1, 4, 0x00000000, [⟨31, 0, .ro, .s⟩]⟩,
  /- ARB_OWNER -/ ⟨0x100, 56, 4, 0x000000FF, [⟨31, 14, .ro, .w⟩, ⟨7, 0, .ro, .w⟩]⟩,
  /- ARB_SEM_STATE -/ ⟨0x200, 64, 4, 0xFF000000, [⟨31, 24, .ro, .v⟩, ⟨19, 16, .ro, .v⟩, ⟨1, 1, .ro, .v⟩, ⟨0, 0, .ro, .v⟩]⟩,
  /- ARB_SEM_NODE -/ ⟨0x300, 64, 4, 0x00000000, [⟨31, 14, .ro, .v⟩]⟩,
  /- ARB_SEM_CMD -/ ⟨0x600, 1, 4, 0x00000000, [⟨8, 6, .wo, .v⟩, ⟨5, 0, .wo, .v⟩]⟩,
  /- ARB_HB -/ ⟨0x604, 2, 4, 0x00000000, [⟨31, 0, .wo, .v⟩]⟩,
  /- ARB_SEM_FORCE -/ ⟨0x60C, 1, 4, 0x00000000, [⟨31, 31, .sc, .v⟩, ⟨5, 0, .wo, .v⟩]⟩,
  /- ARB_CLAIM_CLEAR -/ ⟨0x610, 1, 4, 0x00000000, [⟨31, 31, .sc, .v⟩, ⟨5, 0, .wo, .v⟩]⟩]

/-- Page 0x6A. -/
def tablePOLL : List RDesc := [
  /- POLL_CTRL -/ ⟨0x040, 1, 4, 0x00000000, [⟨0, 0, .rw, .w⟩]⟩,
  /- POLL_TABLE -/ ⟨0x044, 1, 4, 0x00000000, [⟨31, 4, .rwl, .w⟩]⟩,
  /- POLL_COUNT -/ ⟨0x048, 1, 4, 0x00000000, [⟨10, 0, .rwl, .w⟩]⟩,
  /- POLL_CFG -/ ⟨0x04C, 1, 4, 0x00030000, [⟨18, 16, .rw, .w⟩]⟩,
  /- POLL_STATUS -/ ⟨0x050, 1, 4, 0x00000000, [⟨22, 16, .ro, .v⟩, ⟨15, 0, .ro, .v⟩]⟩,
  /- POLL_CNT_SENT -/ ⟨0x054, 1, 4, 0x00000000, [⟨31, 0, .ro, .s⟩]⟩,
  /- POLL_CNT_SLIP -/ ⟨0x058, 1, 4, 0x00000000, [⟨31, 0, .ro, .s⟩]⟩,
  /- POLL_CNT_MISS -/ ⟨0x05C, 1, 4, 0x00000000, [⟨31, 0, .ro, .s⟩]⟩,
  /- TGT_CFG -/ ⟨0x060, 1, 4, 0x00000FA0, [⟨15, 0, .rw, .w⟩]⟩,
  /- TGT_CNT_ORDER_WAIT -/ ⟨0x064, 1, 4, 0x00000000, [⟨31, 0, .ro, .s⟩]⟩,
  /- TGT_CNT_CACHE_HIT -/ ⟨0x068, 1, 4, 0x00000000, [⟨31, 0, .ro, .s⟩]⟩,
  /- POLL_EVT_POP -/ ⟨0x700, 1, 4, 0x00000000, [⟨31, 0, .rp, .v⟩]⟩,
  /- POLL_EVT_POP_HI -/ ⟨0x704, 1, 4, 0x00000000, [⟨31, 0, .ro, .v⟩]⟩,
  /- POLL_EVT_REPLAY -/ ⟨0x780, 1, 4, 0x00000000, [⟨31, 0, .ro, .v⟩]⟩,
  /- POLL_EVT_REPLAY_HI -/ ⟨0x784, 1, 4, 0x00000000, [⟨31, 0, .ro, .v⟩]⟩]

/-- Page 0x08. -/
def tableXLT08 : List RDesc := [
  /- XLT_LEVEL -/ ⟨0x040, 1, 4, 0x00000000, [⟨3, 2, .rw, .w⟩, ⟨1, 0, .rw, .w⟩]⟩,
  /- XLT_SPACE_SEL -/ ⟨0x044, 1, 4, 0x000000E4, [⟨13, 0, .rwl, .w⟩]⟩,
  /- XLT_TABLE_BASE -/ ⟨0x048, 1, 4, 0x001C0000, [⟨31, 12, .rwl, .w⟩]⟩,
  /- XLT_TABLE_SIZE -/ ⟨0x04C, 1, 4, 0x00000000, [⟨31, 12, .rwl, .w⟩]⟩,
  /- XLT_ROOT -/ ⟨0x050, 4, 4, 0x00000000, [⟨31, 14, .rw, .w⟩, ⟨0, 0, .rw, .w⟩]⟩,
  /- XLT_STATUS -/ ⟨0x060, 1, 4, 0x00000000, [⟨8, 8, .ro, .v⟩, ⟨0, 0, .ro, .v⟩]⟩,
  /- XLT_BARRIER -/ ⟨0x600, 1, 4, 0x00000000, [⟨31, 12, .wo, .v⟩, ⟨9, 8, .wo, .v⟩, ⟨1, 0, .wo, .v⟩]⟩,
  /- XLT_EXP -/ ⟨0x800, 1, 4, 0x00000000, [⟨0, 0, .rw, .w⟩]⟩]

/-- Page 0x09. -/
def tableXLT09 : List RDesc := [
  /- XLT_REMOTE_CFG -/ ⟨0x040, 1, 4, 0x00000001, [⟨0, 0, .rw, .w⟩]⟩,
  /- XLT_REMOTE -/ ⟨0x100, 64, 4, 0x00000000, [⟨31, 14, .rw, .w⟩, ⟨13, 13, .rw, .w⟩, ⟨2, 1, .rw, .w⟩, ⟨0, 0, .rw, .w⟩]⟩]

/-- Page 0x0A. -/
def tableXLT0A : List RDesc := [
  /- XLT_FCAP_INFO -/ ⟨0x040, 1, 4, 0x00000000, [⟨31, 31, .ro, .s⟩, ⟨27, 24, .ro, .s⟩, ⟨23, 16, .ro, .s⟩, ⟨15, 14, .ro, .s⟩, ⟨13, 12, .ro, .s⟩]⟩,
  /- XLT_FCAP_ADDR -/ ⟨0x044, 1, 4, 0x00000000, [⟨31, 0, .ro, .s⟩]⟩,
  /- XLT_FCAP_NODE -/ ⟨0x048, 1, 4, 0x00000000, [⟨31, 14, .ro, .s⟩]⟩,
  /- XLT_CNT_FAULT -/ ⟨0x080, 1, 4, 0x00000000, [⟨31, 0, .ro, .s⟩]⟩,
  /- XLT_FCAP_CMD -/ ⟨0x600, 1, 4, 0x00000000, [⟨0, 0, .sc, .v⟩]⟩]

/-- Page 0x0B. -/
def tableXLT0B : List RDesc := [
  /- XLT_CNT_HIT -/ ⟨0x080, 1, 4, 0x00000000, [⟨31, 0, .ro, .s⟩]⟩,
  /- XLT_CNT_WALK -/ ⟨0x084, 1, 4, 0x00000000, [⟨31, 0, .ro, .s⟩]⟩,
  /- XLT_TLB_SEL -/ ⟨0x800, 1, 4, 0x00000000, [⟨5, 0, .rw, .v⟩]⟩,
  /- XLT_TLB_TAG -/ ⟨0x804, 1, 4, 0x00000000, [⟨31, 0, .ro, .v⟩]⟩,
  /- XLT_TLB_PTE_LO -/ ⟨0x808, 1, 4, 0x00000000, [⟨31, 0, .ro, .v⟩]⟩,
  /- XLT_TLB_PTE_HI -/ ⟨0x80C, 1, 4, 0x00000000, [⟨31, 0, .ro, .v⟩]⟩]

/-- Pages 0x50, 0x51, 0x52, 0x53, 0x54, 0x55, 0x56, 0x57, 0x58, 0x59, 0x5A, 0x5B, 0x5C, 0x5D, 0x5E, 0x5F. -/
def tableDMA : List RDesc := [
  /- DMA_CTRL -/ ⟨0x040, 1, 4, 0x00000000, [⟨0, 0, .rw, .w⟩]⟩,
  /- DMA_STATE -/ ⟨0x044, 1, 4, 0xFF000000, [⟨31, 24, .ro, .v⟩, ⟨19, 16, .ro, .v⟩, ⟨2, 0, .ro, .v⟩]⟩,
  /- DMA_DESC -/ ⟨0x048, 1, 4, 0x00000000, [⟨31, 5, .rw, .w⟩]⟩,
  /- DMA_CUR_DESC -/ ⟨0x04C, 1, 4, 0x00000000, [⟨31, 0, .ro, .v⟩]⟩,
  /- DMA_CUR_SRC_LO -/ ⟨0x050, 1, 4, 0x00000000, [⟨31, 0, .ro, .v⟩]⟩,
  /- DMA_CUR_SRC_HI -/ ⟨0x054, 1, 4, 0x00000000, [⟨31, 0, .ro, .v⟩]⟩,
  /- DMA_CUR_DST_LO -/ ⟨0x058, 1, 4, 0x00000000, [⟨31, 0, .ro, .v⟩]⟩,
  /- DMA_CUR_DST_HI -/ ⟨0x05C, 1, 4, 0x00000000, [⟨31, 0, .ro, .v⟩]⟩,
  /- DMA_CUR_LEFT -/ ⟨0x060, 1, 4, 0x00000000, [⟨23, 0, .ro, .v⟩]⟩,
  /- DMA_FAULT_ADDR -/ ⟨0x064, 1, 4, 0x00000000, [⟨31, 0, .ro, .v⟩]⟩,
  /- DMA_RX_CFG -/ ⟨0x070, 1, 4, 0x03000064, [⟨31, 28, .rw, .w⟩, ⟨27, 24, .rw, .w⟩, ⟨23, 16, .rw, .w⟩, ⟨15, 15, .rw, .w⟩, ⟨13, 0, .rw, .w⟩]⟩,
  /- DMA_RX_RING -/ ⟨0x074, 1, 4, 0x00000000, [⟨31, 5, .rw, .w⟩]⟩,
  /- DMA_RX_HEAD -/ ⟨0x078, 1, 4, 0x00000000, [⟨15, 0, .ro, .v⟩]⟩,
  /- DMA_RX_TAIL -/ ⟨0x07C, 1, 4, 0x00000000, [⟨15, 0, .rw, .v⟩]⟩,
  /- DMA_RSV_CFG -/ ⟨0x080, 1, 4, 0x00000200, [⟨10, 0, .rw, .w⟩]⟩,
  /- DMA_RSV_COUNT -/ ⟨0x084, 1, 4, 0x00000000, [⟨21, 16, .ro, .v⟩, ⟨5, 0, .ro, .v⟩]⟩,
  /- DMA_CNT_DESC -/ ⟨0x090, 1, 4, 0x00000000, [⟨31, 0, .ro, .s⟩]⟩,
  /- DMA_CNT_FAULT -/ ⟨0x094, 1, 4, 0x00000000, [⟨31, 0, .ro, .s⟩]⟩,
  /- DMA_CNT_POSTED_ERR -/ ⟨0x098, 1, 4, 0x00000000, [⟨31, 0, .ro, .s⟩]⟩,
  /- DMA_CNT_RX_FRAMES -/ ⟨0x09C, 1, 4, 0x00000000, [⟨31, 0, .ro, .s⟩]⟩,
  /- DMA_CNT_STALL -/ ⟨0x0A0, 1, 4, 0x00000000, [⟨31, 0, .ro, .s⟩]⟩,
  /- DMA_CMD -/ ⟨0x600, 1, 4, 0x00000000, [⟨0, 0, .sc, .v⟩, ⟨1, 1, .sc, .v⟩, ⟨2, 2, .sc, .v⟩, ⟨3, 3, .sc, .v⟩]⟩,
  /- DMA_RSV_PUSH -/ ⟨0x604, 1, 4, 0x00000000, [⟨31, 0, .wo, .v⟩]⟩,
  /- DMA_RSV_POP -/ ⟨0x700, 1, 4, 0x00000000, [⟨31, 0, .rp, .v⟩]⟩,
  /- DMA_RSV_POP_HI -/ ⟨0x704, 1, 4, 0x00000000, [⟨31, 0, .ro, .v⟩]⟩,
  /- DMA_RSV_REPLAY -/ ⟨0x780, 1, 4, 0x00000000, [⟨31, 0, .ro, .v⟩]⟩,
  /- DMA_RSV_REPLAY_HI -/ ⟨0x784, 1, 4, 0x00000000, [⟨31, 0, .ro, .v⟩]⟩,
  /- DMA_EXP -/ ⟨0x800, 1, 4, 0x000300C8, [⟨18, 16, .rw, .w⟩, ⟨15, 0, .rw, .w⟩]⟩]

/-- Page 0x60. -/
def tableDMAA : List RDesc := [
  /- DMAA_CFG -/ ⟨0x040, 1, 4, 0x00000000, [⟨15, 0, .rwl, .w⟩]⟩,
  /- DMAA_STATUS -/ ⟨0x044, 1, 4, 0x00000000, [⟨31, 0, .ro, .v⟩]⟩,
  /- DMAA_CNT_NONE -/ ⟨0x080, 1, 4, 0x00000000, [⟨31, 0, .ro, .s⟩]⟩,
  /- DMAA_CNT_FORCED_FREE -/ ⟨0x084, 1, 4, 0x00000000, [⟨31, 0, .ro, .s⟩]⟩,
  /- DMAA_CNT_UNBOUND -/ ⟨0x088, 1, 4, 0x00000000, [⟨31, 0, .ro, .s⟩]⟩,
  /- DMAA_OWNER -/ ⟨0x100, 16, 4, 0x000000FF, [⟨31, 14, .ro, .w⟩, ⟨8, 8, .ro, .w⟩, ⟨7, 0, .ro, .w⟩]⟩,
  /- DMAA_FREE -/ ⟨0x600, 1, 4, 0x00000000, [⟨31, 0, .wo, .v⟩]⟩,
  /- DMAA_ALLOC -/ ⟨0x700, 1, 4, 0x00000000, [⟨31, 0, .rp, .v⟩]⟩,
  /- DMAA_ALLOC_REPLAY -/ ⟨0x780, 1, 4, 0x00000000, [⟨31, 0, .ro, .v⟩]⟩]

/-- Pages 0xB0, 0xB1, 0xB2, 0xB3. -/
def tablePMUX : List RDesc := [
  /- PMUX_BANK -/ ⟨0x040, 1, 4, 0x00000000, [⟨8, 8, .ro, .v⟩, ⟨1, 0, .rwl, .w⟩]⟩,
  /- PMUX_GPIO_IN -/ ⟨0x044, 1, 4, 0x00000000, [⟨31, 0, .ro, .v⟩]⟩,
  /- PMUX_GPIO_OUT -/ ⟨0x048, 1, 4, 0x00000000, [⟨31, 0, .rw, .w⟩]⟩,
  /- PMUX_GPIO_OE -/ ⟨0x04C, 1, 4, 0x00000000, [⟨31, 0, .rw, .w⟩]⟩,
  /- PMUX_GPIO_RISE_EN -/ ⟨0x050, 1, 4, 0x00000000, [⟨31, 0, .rw, .w⟩]⟩,
  /- PMUX_GPIO_FALL_EN -/ ⟨0x054, 1, 4, 0x00000000, [⟨31, 0, .rw, .w⟩]⟩,
  /- PMUX_GPIO_EDGE -/ ⟨0x058, 1, 4, 0x00000000, [⟨31, 0, .w1c, .v⟩]⟩,
  /- PMUX_GPIO_SET -/ ⟨0x060, 1, 4, 0x00000000, [⟨31, 0, .wo, .v⟩]⟩,
  /- PMUX_GPIO_CLR -/ ⟨0x064, 1, 4, 0x00000000, [⟨31, 0, .wo, .v⟩]⟩,
  /- PMUX_PIN -/ ⟨0x080, 32, 4, 0x00000000, [⟨23, 20, .rwl, .w⟩, ⟨19, 19, .rwl, .w⟩, ⟨18, 18, .rwl, .w⟩, ⟨17, 16, .rwl, .w⟩, ⟨15, 14, .rwl, .w⟩, ⟨13, 13, .rwl, .w⟩, ⟨6, 0, .rwl, .w⟩]⟩]

/-- Pages 0xB4, 0xB5, 0xB6, 0xB7. -/
def tableFQ : List RDesc := [
  /- FQ_MEM -/ ⟨0x040, 1, 4, 0x04800000, [⟨27, 16, .ro, .v⟩, ⟨11, 0, .ro, .v⟩]⟩,
  /- FQ_CNT_RX_FRAMES -/ ⟨0x044, 1, 4, 0x00000000, [⟨31, 0, .ro, .s⟩]⟩,
  /- FQ_CNT_TX_FRAMES -/ ⟨0x048, 1, 4, 0x00000000, [⟨31, 0, .ro, .s⟩]⟩,
  /- FQ_CNT_BAD_FRAME -/ ⟨0x04C, 1, 4, 0x00000000, [⟨31, 0, .ro, .s⟩]⟩,
  /- FQ_CNT_NO_QUEUE -/ ⟨0x050, 1, 4, 0x00000000, [⟨31, 0, .ro, .s⟩]⟩,
  /- FQ_CNT_TX_REFUSED -/ ⟨0x054, 1, 4, 0x00000000, [⟨31, 0, .ro, .s⟩]⟩,
  /- FQ_CNT_PUSH_REFUSED -/ ⟨0x058, 1, 4, 0x00000000, [⟨31, 0, .ro, .s⟩]⟩,
  /- FQ_CNT_RAGGED -/ ⟨0x05C, 1, 4, 0x00000000, [⟨31, 0, .ro, .s⟩]⟩,
  /- FQ_CNT_DISCARD_WORDS -/ ⟨0x060, 1, 4, 0x00000000, [⟨31, 0, .ro, .s⟩]⟩,
  /- FQ_CNT_ECC_FIXED -/ ⟨0x064, 1, 4, 0x00000000, [⟨31, 0, .ro, .s⟩]⟩,
  /- FQ_QCFG -/ ⟨0x080, 10, 4, 0x08202000, [⟨31, 31, .rw, .w⟩, ⟨29, 28, .rw, .w⟩, ⟨27, 24, .rw, .w⟩, ⟨23, 16, .rw, .w⟩, ⟨15, 8, .rw, .w⟩]⟩,
  /- FQ_QCFG -/ ⟨0x0C0, 16, 4, 0x28101000, [⟨31, 31, .rw, .w⟩, ⟨29, 28, .rw, .w⟩, ⟨27, 24, .rw, .w⟩, ⟨23, 16, .rw, .w⟩, ⟨15, 8, .rw, .w⟩]⟩,
  /- FQ_BIND -/ ⟨0x100, 10, 4, 0x0F000000, [⟨31, 30, .rw, .w⟩, ⟨29, 28, .rw, .w⟩, ⟨27, 22, .rw, .w⟩, ⟨15, 0, .rw, .w⟩]⟩,
  /- FQ_BIND -/ ⟨0x140, 16, 4, 0x0F000000, [⟨31, 30, .rw, .w⟩, ⟨29, 28, .rw, .w⟩, ⟨27, 22, .rw, .w⟩, ⟨15, 0, .rw, .w⟩]⟩,
  /- FQ_IDLE -/ ⟨0x180, 10, 4, 0x00000000, [⟨31, 0, .rw, .w⟩]⟩,
  /- FQ_IDLE -/ ⟨0x1C0, 16, 4, 0x00000000, [⟨31, 0, .rw, .w⟩]⟩,
  /- FQ_STATUS -/ ⟨0x200, 10, 4, 0x00000000, [⟨31, 24, .ro, .v⟩, ⟨23, 16, .ro, .v⟩, ⟨15, 8, .ro, .v⟩, ⟨4, 0, .ro, .v⟩]⟩,
  /- FQ_STATUS -/ ⟨0x240, 16, 4, 0x00000000, [⟨31, 24, .ro, .v⟩, ⟨23, 16, .ro, .v⟩, ⟨15, 8, .ro, .v⟩, ⟨4, 0, .ro, .v⟩]⟩,
  /- FQ_DATA_LO -/ ⟨0x280, 10, 8, 0x00000000, [⟨31, 0, .ro, .v⟩]⟩,
  /- FQ_DATA_LO -/ ⟨0x300, 16, 8, 0x00000000, [⟨31, 0, .ro, .v⟩]⟩,
  /- FQ_DATA_HI -/ ⟨0x284, 10, 8, 0x00000000, [⟨31, 0, .ro, .v⟩]⟩,
  /- FQ_DATA_HI -/ ⟨0x304, 16, 8, 0x00000000, [⟨31, 0, .ro, .v⟩]⟩,
  /- FQ_TXDATA_LO -/ ⟨0x380, 10, 8, 0x00000000, [⟨31, 0, .rw, .v⟩]⟩,
  /- FQ_TXDATA_LO -/ ⟨0x400, 16, 8, 0x00000000, [⟨31, 0, .rw, .v⟩]⟩,
  /- FQ_TXDATA_HI -/ ⟨0x384, 10, 8, 0x00000000, [⟨31, 0, .rw, .v⟩]⟩,
  /- FQ_TXDATA_HI -/ ⟨0x404, 16, 8, 0x00000000, [⟨31, 0, .rw, .v⟩]⟩,
  /- FQ_PUSH -/ ⟨0x600, 10, 4, 0x00000000, [⟨31, 0, .wo, .v⟩]⟩,
  /- FQ_PUSH -/ ⟨0x640, 16, 4, 0x00000000, [⟨31, 0, .wo, .v⟩]⟩,
  /- FQ_CMD -/ ⟨0x680, 1, 4, 0x00000000, [⟨4, 0, .sc, .v⟩, ⟨8, 8, .sc, .v⟩, ⟨9, 9, .sc, .v⟩, ⟨10, 10, .sc, .v⟩]⟩,
  /- FQ_POP -/ ⟨0x700, 10, 4, 0x00000000, [⟨31, 24, .rp, .v⟩, ⟨16, 16, .rp, .v⟩, ⟨12, 12, .rp, .v⟩, ⟨11, 11, .rp, .v⟩, ⟨3, 0, .rp, .v⟩]⟩,
  /- FQ_POP -/ ⟨0x740, 16, 4, 0x00000000, [⟨31, 24, .rp, .v⟩, ⟨16, 16, .rp, .v⟩, ⟨12, 12, .rp, .v⟩, ⟨11, 11, .rp, .v⟩, ⟨3, 0, .rp, .v⟩]⟩,
  /- FQ_POP_REPLAY -/ ⟨0x780, 10, 4, 0x00000000, [⟨31, 0, .ro, .v⟩]⟩,
  /- FQ_POP_REPLAY -/ ⟨0x7C0, 16, 4, 0x00000000, [⟨31, 0, .ro, .v⟩]⟩]

/-- Pages 0x80, 0x81, 0x82, 0x83, 0x84, 0x85, 0x86, 0x87, 0x88, 0x89, 0x8A, 0x8B, 0x8C, 0x8D, 0x8E, 0x8F. -/
def tableUART : List RDesc := [
  /- UART_CFG -/ ⟨0x040, 1, 4, 0x00143208, [⟨23, 16, .rw, .w⟩, ⟨14, 14, .rw, .w⟩, ⟨13, 13, .rw, .w⟩, ⟨12, 12, .rw, .w⟩, ⟨11, 11, .rw, .w⟩, ⟨10, 10, .rw, .w⟩, ⟨9, 9, .rw, .w⟩, ⟨8, 8, .rw, .w⟩, ⟨7, 7, .rw, .w⟩, ⟨6, 4, .rw, .w⟩, ⟨3, 0, .rw, .w⟩]⟩,
  /- UART_BAUD -/ ⟨0x044, 1, 4, 0x00003641, [⟨23, 4, .rw, .w⟩, ⟨3, 0, .rw, .w⟩]⟩,
  /- UART_DE -/ ⟨0x048, 1, 4, 0x00000808, [⟨23, 16, .rw, .w⟩, ⟨15, 8, .rw, .w⟩, ⟨7, 0, .rw, .w⟩]⟩,
  /- UART_ADDR -/ ⟨0x04C, 1, 4, 0x0000FF00, [⟨15, 8, .rw, .w⟩, ⟨7, 0, .rw, .w⟩]⟩,
  /- UART_BRK -/ ⟨0x050, 1, 4, 0x0000000D, [⟨7, 0, .rw, .w⟩]⟩,
  /- UART_STATUS -/ ⟨0x054, 1, 4, 0x00000000, [⟨10, 8, .ro, .v⟩, ⟨4, 4, .ro, .v⟩, ⟨3, 3, .ro, .v⟩, ⟨2, 2, .ro, .v⟩, ⟨1, 1, .ro, .v⟩, ⟨0, 0, .ro, .v⟩]⟩,
  /- UART_CNT_RX_CHARS -/ ⟨0x080, 1, 4, 0x00000000, [⟨31, 0, .ro, .s⟩]⟩,
  /- UART_CNT_TX_CHARS -/ ⟨0x084, 1, 4, 0x00000000, [⟨31, 0, .ro, .s⟩]⟩,
  /- UART_CNT_PARITY -/ ⟨0x088, 1, 4, 0x00000000, [⟨31, 0, .ro, .s⟩]⟩,
  /- UART_CNT_FRAMING -/ ⟨0x08C, 1, 4, 0x00000000, [⟨31, 0, .ro, .s⟩]⟩,
  /- UART_CNT_BREAK -/ ⟨0x090, 1, 4, 0x00000000, [⟨31, 0, .ro, .s⟩]⟩,
  /- UART_CNT_OVERRUN -/ ⟨0x094, 1, 4, 0x00000000, [⟨31, 0, .ro, .s⟩]⟩,
  /- UART_CNT_FILTERED -/ ⟨0x098, 1, 4, 0x00000000, [⟨31, 0, .ro, .s⟩]⟩,
  /- UART_CMD -/ ⟨0x600, 1, 4, 0x00000000, [⟨0, 0, .sc, .v⟩]⟩]

/-- Pages 0x98, 0x99, 0x9A, 0x9B, 0x9C, 0x9D, 0x9E, 0x9F. -/
def tableSPI : List RDesc := [
  /- SPI_CFG -/ ⟨0x040, 1, 4, 0x01000800, [⟨24, 24, .rw, .w⟩, ⟨22, 20, .rw, .w⟩, ⟨17, 16, .rw, .w⟩, ⟨13, 8, .rw, .w⟩, ⟨3, 3, .rw, .w⟩, ⟨2, 1, .rw, .w⟩, ⟨0, 0, .rw, .w⟩]⟩,
  /- SPI_CLK -/ ⟨0x044, 1, 4, 0x00000031, [⟨11, 0, .rw, .w⟩]⟩,
  /- SPI_TIMING -/ ⟨0x048, 1, 4, 0x00000000, [⟨31, 24, .rw, .w⟩, ⟨23, 16, .rw, .w⟩, ⟨15, 8, .rw, .w⟩, ⟨7, 0, .rw, .w⟩]⟩,
  /- SPI_STATUS -/ ⟨0x04C, 1, 4, 0x00000000, [⟨10, 8, .ro, .v⟩, ⟨5, 4, .ro, .v⟩, ⟨2, 2, .ro, .v⟩, ⟨1, 1, .ro, .v⟩, ⟨0, 0, .ro, .v⟩]⟩,
  /- SPI_CNT_FRAMES -/ ⟨0x080, 1, 4, 0x00000000, [⟨31, 0, .ro, .s⟩]⟩,
  /- SPI_CNT_PACKETS -/ ⟨0x084, 1, 4, 0x00000000, [⟨31, 0, .ro, .s⟩]⟩,
  /- SPI_CNT_OVERRUN -/ ⟨0x088, 1, 4, 0x00000000, [⟨31, 0, .ro, .s⟩]⟩,
  /- SPI_CNT_UNDERRUN -/ ⟨0x08C, 1, 4, 0x00000000, [⟨31, 0, .ro, .s⟩]⟩,
  /- SPI_CNT_ABORTED -/ ⟨0x090, 1, 4, 0x00000000, [⟨31, 0, .ro, .s⟩]⟩,
  /- SPI_CMD -/ ⟨0x600, 1, 4, 0x00000000, [⟨16, 16, .sc, .v⟩, ⟨15, 0, .sc, .v⟩]⟩]

/-- Pages 0xA0, 0xA1, 0xA2, 0xA3, 0xA4, 0xA5, 0xA6, 0xA7. -/
def tableIIC : List RDesc := [
  /- IIC_CFG -/ ⟨0x040, 1, 4, 0x00000000, [⟨31, 24, .rw, .w⟩, ⟨14, 8, .rw, .w⟩, ⟨2, 2, .rw, .w⟩, ⟨1, 1, .rw, .w⟩, ⟨0, 0, .rw, .w⟩]⟩,
  /- IIC_SCL -/ ⟨0x044, 1, 4, 0x01CC021C, [⟨31, 16, .rw, .w⟩, ⟨15, 0, .rw, .w⟩]⟩,
  /- IIC_TIME -/ ⟨0x048, 1, 4, 0x09C4781E, [⟨31, 16, .rw, .w⟩, ⟨15, 8, .rw, .w⟩, ⟨7, 0, .rw, .w⟩]⟩,
  /- IIC_STATUS -/ ⟨0x04C, 1, 4, 0x00000000, [⟨5, 5, .ro, .v⟩, ⟨4, 4, .ro, .v⟩, ⟨3, 3, .ro, .v⟩, ⟨2, 2, .ro, .v⟩, ⟨1, 1, .ro, .v⟩, ⟨0, 0, .ro, .v⟩]⟩,
  /- IIC_CNT_NACK -/ ⟨0x080, 1, 4, 0x00000000, [⟨31, 0, .ro, .s⟩]⟩,
  /- IIC_CNT_ARB_LOST -/ ⟨0x084, 1, 4, 0x00000000, [⟨31, 0, .ro, .s⟩]⟩,
  /- IIC_CNT_BUS_ERR -/ ⟨0x088, 1, 4, 0x00000000, [⟨31, 0, .ro, .s⟩]⟩,
  /- IIC_CNT_TIMEOUT -/ ⟨0x08C, 1, 4, 0x00000000, [⟨31, 0, .ro, .s⟩]⟩,
  /- IIC_CNT_T_UNDERRUN -/ ⟨0x090, 1, 4, 0x00000000, [⟨31, 0, .ro, .s⟩]⟩,
  /- IIC_CNT_T_OVERRUN -/ ⟨0x094, 1, 4, 0x00000000, [⟨31, 0, .ro, .s⟩]⟩,
  /- IIC_CNT_DISCARD -/ ⟨0x098, 1, 4, 0x00000000, [⟨31, 0, .ro, .s⟩]⟩,
  /- IIC_CMD -/ ⟨0x600, 1, 4, 0x00000000, [⟨0, 0, .sc, .v⟩, ⟨1, 1, .sc, .v⟩]⟩]

/-- Pages 0x90, 0x91, 0x92, 0x93, 0x94, 0x95, 0x96, 0x97. -/
def tableCANF : List RDesc := [
  /- CANF_CFG -/ ⟨0x040, 1, 4, 0x00002000, [⟨23, 22, .rw, .w⟩, ⟨21, 21, .rw, .w⟩, ⟨20, 20, .rw, .w⟩, ⟨15, 15, .rw, .w⟩, ⟨13, 13, .rw, .w⟩, ⟨12, 12, .rw, .w⟩, ⟨11, 11, .rw, .w⟩]⟩,
  /- CANF_NBT -/ ⟨0x044, 1, 4, 0x3E7DF800, [⟨31, 25, .rw, .w⟩, ⟨24, 18, .rw, .w⟩, ⟨17, 10, .rw, .w⟩, ⟨7, 0, .rw, .w⟩]⟩,
  /- CANF_DBT -/ ⟨0x048, 1, 4, 0x09091C00, [⟨27, 24, .rw, .w⟩, ⟨19, 16, .rw, .w⟩, ⟨12, 8, .rw, .w⟩, ⟨4, 0, .rw, .w⟩]⟩,
  /- CANF_TDC -/ ⟨0x04C, 1, 4, 0x8000001E, [⟨31, 31, .rw, .w⟩, ⟨22, 16, .rw, .w⟩, ⟨6, 0, .rw, .w⟩]⟩,
  /- CANF_STATUS -/ ⟨0x050, 1, 4, 0x00000000, [⟨29, 24, .ro, .v⟩, ⟨23, 16, .ro, .v⟩, ⟨4, 4, .ro, .v⟩, ⟨3, 3, .ro, .v⟩, ⟨2, 2, .ro, .v⟩, ⟨1, 1, .ro, .v⟩, ⟨0, 0, .ro, .v⟩]⟩,
  /- CANF_ERR -/ ⟨0x054, 1, 4, 0x00000000, [⟨30, 28, .ro, .v⟩, ⟨27, 27, .ro, .v⟩, ⟨26, 26, .ro, .w⟩, ⟨25, 24, .ro, .w⟩, ⟨16, 8, .ro, .w⟩, ⟨7, 0, .ro, .w⟩]⟩,
  /- CANF_TDC_MEAS -/ ⟨0x058, 1, 4, 0x00000000, [⟨7, 7, .ro, .v⟩, ⟨6, 0, .ro, .v⟩]⟩,
  /- CANF_TXB -/ ⟨0x060, 3, 4, 0x00000000, [⟨31, 30, .ro, .v⟩, ⟨29, 27, .ro, .v⟩, ⟨23, 16, .ro, .v⟩, ⟨15, 0, .ro, .v⟩]⟩,
  /- CANF_FILT_CFG -/ ⟨0x070, 1, 4, 0x00000001, [⟨0, 0, .rw, .w⟩]⟩,
  /- CANF_CNT_RX_FRAMES -/ ⟨0x080, 1, 4, 0x00000000, [⟨31, 0, .ro, .s⟩]⟩,
  /- CANF_CNT_TX_FRAMES -/ ⟨0x084, 1, 4, 0x00000000, [⟨31, 0, .ro, .s⟩]⟩,
  /- CANF_CNT_RX_LOST -/ ⟨0x088, 1, 4, 0x00000000, [⟨31, 0, .ro, .s⟩]⟩,
  /- CANF_CNT_FILTERED -/ ⟨0x08C, 1, 4, 0x00000000, [⟨31, 0, .ro, .s⟩]⟩,
  /- CANF_CNT_TX_BAD -/ ⟨0x090, 1, 4, 0x00000000, [⟨31, 0, .ro, .s⟩]⟩,
  /- CANF_CNT_ARB_LOST -/ ⟨0x094, 1, 4, 0x00000000, [⟨31, 0, .ro, .s⟩]⟩,
  /- CANF_CNT_STUFF_ERR -/ ⟨0x098, 1, 4, 0x00000000, [⟨31, 0, .ro, .s⟩]⟩,
  /- CANF_CNT_FORM_ERR -/ ⟨0x09C, 1, 4, 0x00000000, [⟨31, 0, .ro, .s⟩]⟩,
  /- CANF_CNT_ACK_ERR -/ ⟨0x0A0, 1, 4, 0x00000000, [⟨31, 0, .ro, .s⟩]⟩,
  /- CANF_CNT_BIT_ERR -/ ⟨0x0A4, 1, 4, 0x00000000, [⟨31, 0, .ro, .s⟩]⟩,
  /- CANF_CNT_CRC_ERR -/ ⟨0x0A8, 1, 4, 0x00000000, [⟨31, 0, .ro, .s⟩]⟩,
  /- CANF_CNT_BUSOFF -/ ⟨0x0AC, 1, 4, 0x00000000, [⟨31, 0, .ro, .s⟩]⟩,
  /- CANF_CNT_PEX -/ ⟨0x0B0, 1, 4, 0x00000000, [⟨31, 0, .ro, .s⟩]⟩,
  /- CANF_FILT_ID -/ ⟨0x100, 32, 8, 0x00000000, [⟨31, 31, .rw, .w⟩, ⟨30, 30, .rw, .w⟩, ⟨29, 29, .rw, .w⟩, ⟨28, 0, .rw, .w⟩]⟩,
  /- CANF_FILT_MASK -/ ⟨0x104, 32, 8, 0x00000000, [⟨28, 0, .rw, .w⟩]⟩,
  /- CANF_CMD -/ ⟨0x600, 1, 4, 0x00000000, [⟨2, 0, .sc, .v⟩, ⟨8, 8, .sc, .v⟩]⟩,
  /- CANF_EXP -/ ⟨0x800, 1, 4, 0x00000000, [⟨1, 1, .rw, .w⟩, ⟨0, 0, .rw, .w⟩]⟩]

/-- Pages 0xA8, 0xA9, 0xAA, 0xAB. -/
def tableCLOV : List RDesc := [
  /- CLOV_CFG -/ ⟨0x040, 1, 4, 0x00000004, [⟨23, 16, .rw, .w⟩, ⟨2, 0, .rw, .w⟩]⟩,
  /- CLOV_STATUS -/ ⟨0x044, 1, 4, 0x00000000, [⟨31, 16, .ro, .v⟩, ⟨15, 0, .ro, .v⟩]⟩,
  /- CLOV_BANK -/ ⟨0x048, 1, 4, 0x00000000, [⟨31, 16, .ro, .v⟩, ⟨1, 1, .ro, .v⟩, ⟨0, 0, .ro, .w⟩]⟩,
  /- CLOV_EVENT_EN -/ ⟨0x04C, 1, 4, 0x00000000, [⟨31, 0, .rw, .w⟩]⟩,
  /- CLOV_EVENT -/ ⟨0x050, 1, 4, 0x00000000, [⟨31, 0, .w1c, .v⟩]⟩,
  /- CLOV_PMEM_ADDR -/ ⟨0x054, 1, 4, 0x00000000, [⟨10, 10, .rw, .v⟩, ⟨9, 0, .rw, .v⟩]⟩,
  /- CLOV_PMEM_DATA -/ ⟨0x058, 1, 4, 0x00000000, [⟨31, 0, .rw, .w⟩]⟩,
  /- CLOV_SYNC_SEL_LO -/ ⟨0x060, 1, 4, 0x00000000, [⟨31, 0, .rw, .v⟩]⟩,
  /- CLOV_SYNC_SEL_HI -/ ⟨0x064, 1, 4, 0x00000000, [⟨31, 0, .rw, .v⟩]⟩,
  /- CLOV_SYNC_STATUS -/ ⟨0x068, 1, 4, 0x00000000, [⟨31, 31, .ro, .v⟩, ⟨3, 0, .ro, .v⟩]⟩,
  /- CLOV_CNT_REFUSED -/ ⟨0x080, 1, 4, 0x00000000, [⟨31, 0, .ro, .s⟩]⟩,
  /- CLOV_CNT_EDGE_LOST -/ ⟨0x084, 1, 4, 0x00000000, [⟨31, 0, .ro, .s⟩]⟩,
  /- CLOV_CNT_ERROR -/ ⟨0x088, 1, 4, 0x00000000, [⟨31, 0, .ro, .s⟩]⟩,
  /- CLOV_CH_CFG -/ ⟨0x100, 16, 32, 0x00000000, [⟨10, 8, .rw, .w⟩, ⟨4, 0, .rw, .w⟩]⟩,
  /- CLOV_CH_ENTRY -/ ⟨0x104, 16, 32, 0x00000000, [⟨25, 16, .rw, .w⟩, ⟨9, 0, .rw, .w⟩]⟩,
  /- CLOV_CH_STATUS -/ ⟨0x108, 16, 32, 0x00000000, [⟨25, 16, .ro, .v⟩, ⟨15, 15, .ro, .v⟩, ⟨11, 11, .ro, .v⟩, ⟨10, 10, .ro, .v⟩, ⟨9, 9, .ro, .v⟩, ⟨8, 8, .ro, .v⟩, ⟨5, 4, .ro, .v⟩, ⟨1, 0, .ro, .v⟩]⟩,
  /- CLOV_CH_PC -/ ⟨0x10C, 16, 32, 0x00000000, [⟨9, 0, .ro, .v⟩]⟩,
  /- CLOV_CH_SO -/ ⟨0x110, 16, 32, 0x00000000, [⟨31, 0, .rw, .v⟩]⟩,
  /- CLOV_CH_SI -/ ⟨0x114, 16, 32, 0x00000000, [⟨31, 0, .rw, .v⟩]⟩,
  /- CLOV_CH_COUNTER -/ ⟨0x118, 16, 32, 0x00000000, [⟨15, 0, .rw, .v⟩]⟩,
  /- CLOV_CH_SCRATCH -/ ⟨0x11C, 16, 32, 0x00000000, [⟨31, 16, .rw, .v⟩, ⟨15, 0, .rw, .v⟩]⟩,
  /- CLOV_MV_CFG -/ ⟨0x300, 16, 16, 0x00000002, [⟨31, 31, .rw, .w⟩, ⟨30, 30, .rw, .w⟩, ⟨29, 29, .w1c, .w⟩, ⟨28, 28, .w1c, .w⟩, ⟨3, 0, .rw, .w⟩]⟩,
  /- CLOV_MV_BASE -/ ⟨0x304, 16, 16, 0x00000000, [⟨31, 4, .rw, .w⟩]⟩,
  /- CLOV_MV_RX -/ ⟨0x308, 16, 16, 0x00000000, [⟨31, 16, .ro, .v⟩, ⟨15, 0, .rw, .v⟩]⟩,
  /- CLOV_MV_TX -/ ⟨0x30C, 16, 16, 0x00000000, [⟨31, 16, .ro, .v⟩, ⟨15, 0, .rw, .v⟩]⟩,
  /- CLOV_PMEM_DATA_INC -/ ⟨0x600, 1, 4, 0x00000000, [⟨31, 0, .rw, .w⟩]⟩,
  /- CLOV_START -/ ⟨0x604, 1, 4, 0x00000000, [⟨31, 0, .wo, .v⟩]⟩,
  /- CLOV_STOP -/ ⟨0x608, 1, 4, 0x00000000, [⟨31, 0, .wo, .v⟩]⟩,
  /- CLOV_CMD -/ ⟨0x60C, 1, 4, 0x00000000, [⟨0, 0, .sc, .v⟩]⟩,
  /- CLOV_SYNC_CMD -/ ⟨0x610, 1, 4, 0x00000000, [⟨10, 10, .sc, .v⟩, ⟨9, 9, .sc, .v⟩, ⟨8, 8, .sc, .v⟩, ⟨3, 0, .rw, .v⟩]⟩,
  /- CLOV_EXP -/ ⟨0x800, 1, 4, 0x00000000, [⟨0, 0, .rw, .w⟩]⟩,
  /- CLOV_STEP -/ ⟨0xE00, 1, 4, 0x00000000, [⟨31, 0, .wo, .v⟩]⟩]

/-- EMAC, page 0x70 (R432). -/
def tableEMAC : List RDesc := [
  /- xx_CFG -/ ⟨0x040, 1, 4, 0x005F220F, [⟨22, 12, .rw, .w⟩, ⟨10, 10, .rw, .w⟩, ⟨9, 8, .rw, .w⟩, ⟨7, 7, .rw, .w⟩, ⟨6, 6, .rw, .w⟩, ⟨5, 5, .rw, .w⟩, ⟨4, 4, .rw, .w⟩, ⟨3, 3, .rw, .w⟩, ⟨2, 2, .rw, .w⟩, ⟨1, 1, .rw, .w⟩, ⟨0, 0, .rw, .w⟩]⟩,
  /- xx_ADDR_LO -/ ⟨0x044, 1, 4, 0x00000000, [⟨31, 0, .rw, .w⟩]⟩,
  /- xx_ADDR_HI -/ ⟨0x048, 1, 4, 0x00000000, [⟨15, 0, .rw, .w⟩]⟩,
  /- xx_STATUS -/ ⟨0x04C, 1, 4, 0x00000000, [⟨11, 8, .ro, .v⟩, ⟨7, 7, .ro, .v⟩, ⟨6, 6, .ro, .v⟩, ⟨5, 5, .ro, .v⟩, ⟨4, 4, .ro, .v⟩, ⟨3, 2, .ro, .v⟩, ⟨1, 1, .ro, .v⟩, ⟨0, 0, .ro, .v⟩]⟩,
  /- xx_RX_BIND -/ ⟨0x050, 4, 4, 0x00000000, [⟨31, 31, .rw, .w⟩, ⟨15, 0, .rw, .w⟩]⟩,
  /- xx_ETYPE -/ ⟨0x060, 1, 4, 0x00000000, [⟨15, 0, .rw, .w⟩]⟩,
  /- xx_CNT_HALF -/ ⟨0x064, 1, 4, 0x00000000, [⟨31, 0, .w1c, .v⟩]⟩,
  /- xx_CNT_HALF_HI -/ ⟨0x068, 1, 4, 0x00000000, [⟨7, 0, .w1c, .v⟩]⟩,
  /- xx_WAKE_CFG -/ ⟨0x06C, 1, 4, 0x00000000, [⟨7, 0, .rw, .s⟩]⟩,
  /- xx_WAKE_STATUS -/ ⟨0x070, 1, 4, 0x00000000, [⟨7, 0, .w1c, .s⟩]⟩,
  /- xx_CNT -/ ⟨0x100, 40, 4, 0x00000000, [⟨31, 0, .ro, .s⟩]⟩,
  /- xx_SNAP -/ ⟨0x200, 40, 4, 0x00000000, [⟨31, 0, .ro, .v⟩]⟩,
  /- xx_WAKE_MASK -/ ⟨0x300, 4, 4, 0x00000000, [⟨31, 0, .rw, .s⟩]⟩,
  /- xx_WAKE_MASK -/ ⟨0x320, 4, 4, 0x00000000, [⟨31, 0, .rw, .s⟩]⟩,
  /- xx_WAKE_MASK -/ ⟨0x340, 4, 4, 0x00000000, [⟨31, 0, .rw, .s⟩]⟩,
  /- xx_WAKE_MASK -/ ⟨0x360, 4, 4, 0x00000000, [⟨31, 0, .rw, .s⟩]⟩,
  /- xx_WAKE_MASK -/ ⟨0x380, 4, 4, 0x00000000, [⟨31, 0, .rw, .s⟩]⟩,
  /- xx_WAKE_MASK -/ ⟨0x3A0, 4, 4, 0x00000000, [⟨31, 0, .rw, .s⟩]⟩,
  /- xx_WAKE_MASK -/ ⟨0x3C0, 4, 4, 0x00000000, [⟨31, 0, .rw, .s⟩]⟩,
  /- xx_WAKE_MASK -/ ⟨0x3E0, 4, 4, 0x00000000, [⟨31, 0, .rw, .s⟩]⟩,
  /- xx_WAKE_CHECK -/ ⟨0x310, 8, 32, 0x00000000, [⟨15, 0, .rw, .s⟩]⟩,
  /- xx_MDIO_ACC -/ ⟨0x600, 1, 4, 0x00000000, [⟨31, 31, .sc, .v⟩, ⟨30, 30, .rw, .v⟩, ⟨29, 25, .rw, .v⟩, ⟨24, 20, .rw, .v⟩, ⟨15, 0, .rw, .v⟩]⟩,
  /- xx_CNT_CMD -/ ⟨0x604, 1, 4, 0x00000000, [⟨0, 0, .sc, .v⟩, ⟨1, 1, .sc, .v⟩]⟩,
  /- xx_TXS_POP -/ ⟨0x700, 1, 4, 0x00000000, [⟨31, 0, .rp, .v⟩]⟩,
  /- xx_TXS_POP_HI -/ ⟨0x704, 1, 4, 0x00000000, [⟨31, 0, .ro, .v⟩]⟩,
  /- xx_TXS_REPLAY -/ ⟨0x780, 1, 4, 0x00000000, [⟨31, 0, .ro, .v⟩]⟩,
  /- xx_TXS_REPLAY_HI -/ ⟨0x784, 1, 4, 0x00000000, [⟨31, 0, .ro, .v⟩]⟩,
  /- xx_EXP -/ ⟨0x800, 1, 4, 0x00000000, [⟨15, 12, .ro, .w⟩, ⟨11, 8, .ro, .w⟩, ⟨3, 3, .rw, .w⟩, ⟨2, 2, .rw, .w⟩, ⟨1, 1, .rw, .w⟩]⟩]

/-- TSM, pages 0x71 to 0x74 (R432). -/
def tableTSM : List RDesc := [
  /- xx_CFG -/ ⟨0x040, 1, 4, 0x005F200F, [⟨22, 12, .rw, .w⟩, ⟨10, 10, .rw, .w⟩, ⟨9, 8, .ro, .w⟩, ⟨7, 7, .ro, .w⟩, ⟨6, 6, .ro, .w⟩, ⟨5, 5, .ro, .w⟩, ⟨4, 4, .ro, .w⟩, ⟨3, 3, .rw, .w⟩, ⟨2, 2, .rw, .w⟩, ⟨1, 1, .rw, .w⟩, ⟨0, 0, .rw, .w⟩]⟩,
  /- xx_ADDR_LO -/ ⟨0x044, 1, 4, 0x00000000, [⟨31, 0, .rw, .w⟩]⟩,
  /- xx_ADDR_HI -/ ⟨0x048, 1, 4, 0x00000000, [⟨15, 0, .rw, .w⟩]⟩,
  /- xx_STATUS -/ ⟨0x04C, 1, 4, 0x00000000, [⟨11, 8, .ro, .v⟩, ⟨7, 7, .ro, .v⟩, ⟨6, 6, .ro, .v⟩, ⟨5, 5, .ro, .v⟩, ⟨4, 4, .ro, .v⟩, ⟨3, 2, .ro, .v⟩, ⟨1, 1, .ro, .v⟩, ⟨0, 0, .ro, .v⟩]⟩,
  /- xx_RX_BIND -/ ⟨0x050, 4, 4, 0x00000000, [⟨31, 31, .rw, .w⟩, ⟨15, 0, .rw, .w⟩]⟩,
  /- xx_ETYPE -/ ⟨0x060, 1, 4, 0x00000000, [⟨15, 0, .rw, .w⟩]⟩,
  /- xx_CNT_HALF -/ ⟨0x064, 1, 4, 0x00000000, [⟨31, 0, .w1c, .v⟩]⟩,
  /- xx_CNT_HALF_HI -/ ⟨0x068, 1, 4, 0x00000000, [⟨7, 0, .w1c, .v⟩]⟩,
  /- xx_WAKE_CFG -/ ⟨0x06C, 1, 4, 0x00000000, [⟨7, 0, .rw, .s⟩]⟩,
  /- xx_WAKE_STATUS -/ ⟨0x070, 1, 4, 0x00000000, [⟨7, 0, .w1c, .s⟩]⟩,
  /- xx_CNT -/ ⟨0x100, 40, 4, 0x00000000, [⟨31, 0, .ro, .s⟩]⟩,
  /- xx_SNAP -/ ⟨0x200, 40, 4, 0x00000000, [⟨31, 0, .ro, .v⟩]⟩,
  /- xx_WAKE_MASK -/ ⟨0x300, 4, 4, 0x00000000, [⟨31, 0, .rw, .s⟩]⟩,
  /- xx_WAKE_MASK -/ ⟨0x320, 4, 4, 0x00000000, [⟨31, 0, .rw, .s⟩]⟩,
  /- xx_WAKE_MASK -/ ⟨0x340, 4, 4, 0x00000000, [⟨31, 0, .rw, .s⟩]⟩,
  /- xx_WAKE_MASK -/ ⟨0x360, 4, 4, 0x00000000, [⟨31, 0, .rw, .s⟩]⟩,
  /- xx_WAKE_MASK -/ ⟨0x380, 4, 4, 0x00000000, [⟨31, 0, .rw, .s⟩]⟩,
  /- xx_WAKE_MASK -/ ⟨0x3A0, 4, 4, 0x00000000, [⟨31, 0, .rw, .s⟩]⟩,
  /- xx_WAKE_MASK -/ ⟨0x3C0, 4, 4, 0x00000000, [⟨31, 0, .rw, .s⟩]⟩,
  /- xx_WAKE_MASK -/ ⟨0x3E0, 4, 4, 0x00000000, [⟨31, 0, .rw, .s⟩]⟩,
  /- xx_WAKE_CHECK -/ ⟨0x310, 8, 32, 0x00000000, [⟨15, 0, .rw, .s⟩]⟩,
  /- xx_MDIO_ACC -/ ⟨0x600, 1, 4, 0x00000000, [⟨31, 31, .sc, .v⟩, ⟨30, 30, .rw, .v⟩, ⟨29, 25, .rw, .v⟩, ⟨24, 20, .rw, .v⟩, ⟨15, 0, .rw, .v⟩]⟩,
  /- xx_CNT_CMD -/ ⟨0x604, 1, 4, 0x00000000, [⟨0, 0, .sc, .v⟩, ⟨1, 1, .sc, .v⟩]⟩,
  /- xx_TXS_POP -/ ⟨0x700, 1, 4, 0x00000000, [⟨31, 0, .rp, .v⟩]⟩,
  /- xx_TXS_POP_HI -/ ⟨0x704, 1, 4, 0x00000000, [⟨31, 0, .ro, .v⟩]⟩,
  /- xx_TXS_REPLAY -/ ⟨0x780, 1, 4, 0x00000000, [⟨31, 0, .ro, .v⟩]⟩,
  /- xx_TXS_REPLAY_HI -/ ⟨0x784, 1, 4, 0x00000000, [⟨31, 0, .ro, .v⟩]⟩,
  /- xx_EXP -/ ⟨0x800, 1, 4, 0x0000FA00, [⟨15, 12, .rw, .w⟩, ⟨11, 8, .rw, .w⟩, ⟨3, 3, .rw, .w⟩, ⟨2, 2, .rw, .w⟩, ⟨1, 1, .rw, .w⟩]⟩]

/-- Page 0x48. -/
def tableCIPH48 : List RDesc := [
  /- CIPH_CFG -/ ⟨0x040, 1, 4, 0x24000007, [⟨31, 28, .rwl, .w⟩, ⟨27, 24, .rwl, .w⟩, ⟨4, 4, .rwl, .w⟩, ⟨2, 0, .rwl, .w⟩]⟩,
  /- CIPH_STATUS -/ ⟨0x044, 1, 4, 0x00000000, [⟨19, 16, .ro, .v⟩, ⟨8, 8, .ro, .v⟩, ⟨1, 0, .ro, .v⟩]⟩,
  /- CIPH_MM_CAP -/ ⟨0x048, 1, 4, 0x00000000, [⟨31, 31, .ro, .s⟩, ⟨28, 28, .ro, .s⟩, ⟨24, 24, .ro, .s⟩, ⟨23, 16, .ro, .s⟩, ⟨15, 0, .ro, .s⟩]⟩,
  /- CIPH_MM_CMD -/ ⟨0x600, 1, 4, 0x00000000, [⟨0, 0, .sc, .v⟩]⟩]

/-- Page 0x49. -/
def tableCIPH49 : List RDesc := [
  /- CIPH_JR_CFG -/ ⟨0x040, 2, 32, 0x00000003, [⟨31, 31, .rw, .w⟩, ⟨29, 28, .rw, .w⟩, ⟨3, 0, .rw, .w⟩]⟩,
  /- CIPH_JR_BASE -/ ⟨0x044, 2, 32, 0x00000000, [⟨31, 6, .rw, .w⟩]⟩,
  /- CIPH_JR_HEAD -/ ⟨0x048, 2, 32, 0x00000000, [⟨15, 0, .ro, .v⟩]⟩,
  /- CIPH_JR_TAIL -/ ⟨0x04C, 2, 32, 0x00000000, [⟨15, 0, .rw, .v⟩]⟩,
  /- CIPH_JR_STATUS -/ ⟨0x050, 2, 32, 0x00000000, [⟨19, 16, .ro, .v⟩, ⟨1, 0, .ro, .v⟩]⟩,
  /- CIPH_JR_FAULT_ADDR -/ ⟨0x054, 2, 32, 0x00000000, [⟨31, 0, .ro, .v⟩]⟩,
  /- CIPH_JR_CMD -/ ⟨0x600, 1, 4, 0x00000000, [⟨9, 8, .sc, .v⟩, ⟨1, 0, .sc, .v⟩]⟩]

/-- Page 0x4A. -/
def tableCIPH4A : List RDesc := [
  /- CIPH_CNT_ENC -/ ⟨0x080, 1, 4, 0x00000000, [⟨31, 0, .ro, .s⟩]⟩,
  /- CIPH_CNT_DEC -/ ⟨0x084, 1, 4, 0x00000000, [⟨31, 0, .ro, .s⟩]⟩,
  /- CIPH_CNT_UNTRUSTED -/ ⟨0x088, 1, 4, 0x00000000, [⟨31, 0, .ro, .s⟩]⟩,
  /- CIPH_CNT_MISMATCH -/ ⟨0x08C, 1, 4, 0x00000000, [⟨31, 0, .ro, .s⟩]⟩,
  /- CIPH_CNT_KEY_REFUSED -/ ⟨0x090, 1, 4, 0x00000000, [⟨31, 0, .ro, .s⟩]⟩,
  /- CIPH_CNT_REVOKED -/ ⟨0x094, 1, 4, 0x00000000, [⟨31, 0, .ro, .s⟩]⟩,
  /- CIPH_CNT_OVERSIZE -/ ⟨0x098, 1, 4, 0x00000000, [⟨31, 0, .ro, .s⟩]⟩,
  /- CIPH_CNT_JOBS -/ ⟨0x09C, 1, 4, 0x00000000, [⟨31, 0, .ro, .s⟩]⟩,
  /- CIPH_CNT_ERASE -/ ⟨0x0A0, 1, 4, 0x00000000, [⟨31, 0, .ro, .s⟩]⟩]

/-- Page 0x4B. -/
def tableCIPH4B : List RDesc := [
  /- CIPH_KAT_RESULT -/ ⟨0x800, 1, 4, 0x00000000, [⟨31, 31, .ro, .v⟩, ⟨0, 0, .ro, .v⟩]⟩,
  /- CIPH_KAT -/ ⟨0xE00, 1, 4, 0x00000000, [⟨0, 0, .sc, .v⟩]⟩]

/-- Page 0x4C. -/
def tableKEY4C : List RDesc := [
  /- KEY_CFG -/ ⟨0x040, 1, 4, 0x000007D0, [⟨15, 0, .rw, .w⟩]⟩,
  /- KEY_STATUS -/ ⟨0x044, 1, 4, 0x00000000, [⟨8, 8, .ro, .s⟩, ⟨6, 4, .ro, .v⟩, ⟨2, 2, .ro, .s⟩, ⟨1, 1, .ro, .s⟩, ⟨0, 0, .ro, .v⟩]⟩,
  /- KEY_SEL -/ ⟨0x048, 1, 4, 0x00000000, [⟨7, 0, .rw, .v⟩]⟩,
  /- KEY_VIEW_STATE -/ ⟨0x04C, 1, 4, 0x00000000, [⟨15, 8, .ro, .s⟩, ⟨6, 4, .ro, .s⟩, ⟨2, 0, .ro, .s⟩]⟩,
  /- KEY_VIEW_ATTR_LO -/ ⟨0x050, 1, 4, 0x00000000, [⟨31, 0, .ro, .s⟩]⟩,
  /- KEY_VIEW_ATTR_HI -/ ⟨0x054, 1, 4, 0x00000000, [⟨31, 0, .ro, .s⟩]⟩,
  /- KEY_VIEW_USES -/ ⟨0x058, 1, 4, 0x00000000, [⟨24, 0, .ro, .s⟩]⟩,
  /- KEY_RESULT -/ ⟨0x060, 1, 4, 0x00000000, [⟨31, 31, .ro, .v⟩, ⟨23, 16, .ro, .v⟩, ⟨3, 0, .ro, .v⟩]⟩,
  /- KEY_MSG -/ ⟨0x080, 22, 4, 0x00000000, [⟨31, 0, .rw, .v⟩]⟩,
  /- KEY_CMD_NODE -/ ⟨0x0D8, 1, 4, 0x00000000, [⟨31, 14, .rw, .v⟩]⟩,
  /- KEY_OPEN_DATA -/ ⟨0x100, 8, 4, 0x00000000, [⟨31, 0, .wo, .v⟩]⟩,
  /- KEY_OPEN_ATTR_LO -/ ⟨0x120, 1, 4, 0x00000000, [⟨31, 0, .rw, .v⟩]⟩,
  /- KEY_OPEN_ATTR_HI -/ ⟨0x124, 1, 4, 0xFF000000, [⟨31, 0, .rw, .v⟩]⟩,
  /- KEY_CMD -/ ⟨0x600, 1, 4, 0x00000000, [⟨10, 8, .wo, .v⟩, ⟨0, 0, .sc, .v⟩, ⟨1, 1, .sc, .v⟩, ⟨2, 2, .sc, .v⟩, ⟨3, 3, .sc, .v⟩]⟩,
  /- KEY_COMMIT -/ ⟨0x604, 1, 4, 0x00000000, [⟨0, 0, .sc, .v⟩, ⟨1, 1, .sc, .v⟩]⟩,
  /- KEY_LOG_POP -/ ⟨0x700, 1, 4, 0x00000000, [⟨31, 24, .rp, .v⟩, ⟨23, 16, .rp, .v⟩, ⟨15, 8, .rp, .v⟩, ⟨0, 0, .rp, .v⟩]⟩,
  /- KEY_LOG_POP_HI -/ ⟨0x704, 1, 4, 0x00000000, [⟨31, 0, .ro, .v⟩]⟩,
  /- KEY_LOG_REPLAY -/ ⟨0x780, 1, 4, 0x00000000, [⟨31, 0, .ro, .v⟩]⟩,
  /- KEY_LOG_REPLAY_HI -/ ⟨0x784, 1, 4, 0x00000000, [⟨31, 0, .ro, .v⟩]⟩]

/-- Page 0x4D. -/
def tableKEY4D : List RDesc := [
  /- KEY_CTR -/ ⟨0x040, 256, 4, 0x00000000, [⟨31, 0, .rw, .s⟩]⟩,
  /- KEY_CTR_LOCK -/ ⟨0x440, 1, 4, 0x00000000, [⟨0, 0, .w1s, .s⟩]⟩]

/-- Page 0xF0. -/
def tablePD0 : List RDesc := [
  /- PD_HS_CFG -/ ⟨0x040, 1, 4, 0x3C043333, [⟨31, 24, .rwl, .p⟩, ⟨19, 16, .rwl, .p⟩, ⟨14, 12, .rwl, .p⟩, ⟨10, 8, .rwl, .p⟩, ⟨7, 4, .rwl, .p⟩, ⟨2, 0, .rwl, .p⟩]⟩,
  /- PD_HS_STATUS -/ ⟨0x044, 1, 4, 0x00000000, [⟨26, 24, .ro, .p⟩, ⟨23, 23, .ro, .p⟩, ⟨22, 22, .ro, .p⟩, ⟨21, 21, .ro, .p⟩, ⟨20, 20, .ro, .p⟩, ⟨19, 16, .ro, .p⟩, ⟨14, 12, .ro, .p⟩, ⟨10, 0, .ro, .p⟩]⟩,
  /- PD_HS_FAULT -/ ⟨0x048, 1, 4, 0x00000000, [⟨7, 0, .w1c, .p⟩]⟩,
  /- PD_FEED_STATUS -/ ⟨0x04C, 1, 4, 0x00000000, [⟨1, 0, .ro, .p⟩, ⟨5, 4, .ro, .p⟩, ⟨9, 8, .ro, .p⟩]⟩,
  /- PD_CNT_TRIP -/ ⟨0x080, 1, 4, 0x00000000, [⟨31, 0, .ro, .p⟩]⟩,
  /- PD_CNT_FEED_LOSS -/ ⟨0x084, 1, 4, 0x00000000, [⟨31, 0, .ro, .p⟩]⟩,
  /- PD_HS_CMD -/ ⟨0x600, 1, 4, 0x00000000, [⟨0, 0, .sc, .v⟩]⟩,
  /- PD_HS_EXP -/ ⟨0x800, 1, 4, 0x00000000, [⟨0, 0, .rw, .p⟩, ⟨1, 1, .rw, .p⟩]⟩,
  /- PD_OTP_PROG -/ ⟨0xE00, 1, 4, 0x00000000, [⟨0, 0, .sc, .v⟩]⟩]

/-- Page 0xF1. -/
def tablePD1F1 : List RDesc := [
  /- PD_SUP_STATUS -/ ⟨0x040, 1, 4, 0x00000000, [⟨5, 0, .ro, .p⟩, ⟨13, 8, .ro, .p⟩]⟩,
  /- PD_SUP_DIP -/ ⟨0x044, 1, 4, 0x00000000, [⟨5, 0, .w1c, .p⟩]⟩,
  /- PD_SUP_VCORE_NOM -/ ⟨0x048, 1, 4, 0x00000384, [⟨9, 0, .ro, .p⟩]⟩,
  /- PD_SUP_LAST -/ ⟨0x050, 6, 4, 0x00000000, [⟨31, 16, .ro, .p⟩, ⟨15, 0, .ro, .p⟩]⟩,
  /- PD_CNT_DIP -/ ⟨0x080, 1, 4, 0x00000000, [⟨31, 0, .ro, .p⟩]⟩]

/-- Page 0xF2. -/
def tablePD1F2 : List RDesc := [
  /- PD_LINK_STATUS -/ ⟨0x040, 1, 4, 0x00000000, [⟨31, 16, .ro, .v⟩, ⟨1, 1, .ro, .v⟩, ⟨0, 0, .ro, .v⟩]⟩,
  /- PD_STRAP -/ ⟨0x044, 1, 4, 0x00000000, [⟨3, 0, .ro, .p⟩]⟩,
  /- PD_RESET_CAUSE -/ ⟨0x048, 1, 4, 0x00000000, [⟨4, 0, .w1c, .p⟩]⟩,
  /- PD_EVT_STATUS -/ ⟨0x04C, 1, 4, 0x00000000, [⟨21, 16, .ro, .p⟩, ⟨15, 0, .ro, .p⟩]⟩,
  /- PD_L6_WAKE -/ ⟨0x050, 1, 4, 0x00000000, [⟨31, 16, .rw, .p⟩, ⟨0, 0, .rw, .p⟩]⟩,
  /- PD_CNT_DISAGREE -/ ⟨0x080, 1, 4, 0x00000000, [⟨31, 0, .ro, .s⟩]⟩,
  /- PD_CNT_LINK_LOSS -/ ⟨0x084, 1, 4, 0x00000000, [⟨31, 0, .ro, .s⟩]⟩]

/-- Page 0xF3. -/
def tablePD1F3 : List RDesc := [
  /- PD_MEAS_FEED -/ ⟨0x040, 1, 4, 0x00000000, [⟨31, 0, .ro, .p⟩]⟩,
  /- PD_MEAS_VOUT -/ ⟨0x044, 1, 4, 0x00000000, [⟨31, 0, .ro, .p⟩]⟩,
  /- PD_MEAS_CURRENT -/ ⟨0x048, 1, 4, 0x00000000, [⟨15, 0, .ro, .p⟩]⟩,
  /- PD_MEAS_TEMP -/ ⟨0x04C, 1, 4, 0x00000000, [⟨15, 0, .ro, .p⟩]⟩,
  /- PD_SHUNT -/ ⟨0x050, 1, 4, 0x000001F4, [⟨15, 0, .rw, .p⟩]⟩]

/-- Pages 0xF4, 0xF5, 0xF6, 0xF7. -/
def tablePDD : List RDesc := [
  /- PD_DIO_IN -/ ⟨0x040, 1, 4, 0x00000000, [⟨3, 0, .ro, .p⟩]⟩,
  /- PD_DIO_EDGE -/ ⟨0x044, 1, 4, 0x00000000, [⟨3, 0, .w1c, .p⟩, ⟨7, 4, .w1c, .p⟩]⟩,
  /- PD_DIO_OUT -/ ⟨0x048, 1, 4, 0x00000000, [⟨3, 0, .rw, .p⟩]⟩,
  /- PD_DIO_STATE -/ ⟨0x04C, 1, 4, 0x00000000, [⟨3, 0, .ro, .p⟩, ⟨8, 8, .ro, .p⟩, ⟨9, 9, .ro, .p⟩, ⟨10, 10, .ro, .p⟩]⟩,
  /- PD_DIO_DIAG -/ ⟨0x050, 1, 4, 0x00000000, [⟨3, 0, .w1c, .p⟩, ⟨7, 4, .w1c, .p⟩, ⟨11, 8, .w1c, .p⟩]⟩,
  /- PD_DI_CFG -/ ⟨0x060, 4, 4, 0x00000130, [⟨15, 12, .rw, .p⟩, ⟨11, 11, .rw, .p⟩, ⟨10, 10, .rw, .p⟩, ⟨9, 8, .rw, .p⟩, ⟨7, 4, .rw, .p⟩, ⟨0, 0, .rw, .p⟩]⟩,
  /- PD_DO_CFG -/ ⟨0x070, 4, 4, 0x00000001, [⟨0, 0, .rw, .p⟩]⟩,
  /- PD_DI_COUNT -/ ⟨0x080, 4, 4, 0x00000000, [⟨31, 0, .ro, .p⟩]⟩,
  /- PD_DO_CUR -/ ⟨0x090, 4, 4, 0x00000000, [⟨11, 0, .ro, .p⟩]⟩,
  /- PD_DO_TIMED -/ ⟨0x0A0, 4, 4, 0x00000000, [⟨31, 31, .rw, .p⟩, ⟨8, 8, .rw, .p⟩, ⟨3, 0, .rw, .p⟩]⟩,
  /- PD_DIO_SET -/ ⟨0x600, 1, 4, 0x00000000, [⟨31, 0, .wo, .v⟩]⟩,
  /- PD_DIO_CLR -/ ⟨0x604, 1, 4, 0x00000000, [⟨31, 0, .wo, .v⟩]⟩]

/-- Page 0x04. -/
def tableFLT : List RDesc := [
  /- FLT_CFG -/ ⟨0x040, 1, 4, 0x00000000, [⟨0, 0, .rw, .w⟩]⟩,
  /- FLT_PENDING -/ ⟨0x044, 1, 4, 0x00000000, [⟨8, 0, .ro, .s⟩, ⟨24, 16, .ro, .s⟩]⟩,
  /- FLT_LAST -/ ⟨0x048, 1, 4, 0x00000000, [⟨22, 16, .ro, .v⟩, ⟨10, 8, .ro, .v⟩, ⟨6, 4, .ro, .v⟩, ⟨3, 3, .ro, .v⟩, ⟨2, 2, .ro, .v⟩, ⟨1, 1, .ro, .v⟩, ⟨0, 0, .ro, .v⟩]⟩,
  /- FLT_WIRE -/ ⟨0x04C, 1, 4, 0x00000000, [⟨31, 31, .ro, .s⟩, ⟨6, 0, .ro, .s⟩]⟩,
  /- FLT_ERRN -/ ⟨0x050, 1, 4, 0x00000000, [⟨0, 0, .ro, .p⟩, ⟨3, 1, .ro, .p⟩, ⟨14, 8, .ro, .p⟩]⟩,
  /- FLT_RAISED -/ ⟨0x060, 4, 4, 0x00000000, [⟨31, 0, .w1c, .s⟩]⟩,
  /- FLT_SEVERE -/ ⟨0x070, 4, 4, 0x00000000, [⟨31, 0, .ro, .s⟩]⟩,
  /- FLT_CNT_EVENTS -/ ⟨0x080, 1, 4, 0x00000000, [⟨31, 0, .ro, .s⟩]⟩,
  /- FLT_CNT_ESCALATED -/ ⟨0x084, 1, 4, 0x00000000, [⟨31, 0, .ro, .s⟩]⟩,
  /- FLT_CNT_WIRE -/ ⟨0x088, 1, 4, 0x00000000, [⟨31, 0, .ro, .s⟩]⟩,
  /- FLT_CNT_CHIP_RESET -/ ⟨0x08C, 1, 4, 0x00000000, [⟨31, 0, .ro, .s⟩]⟩,
  /- FLT_SRC_CFG -/ ⟨0x100, 128, 4, 0x00000000, [⟨19, 16, .rwl, .w⟩, ⟨15, 8, .rwl, .w⟩, ⟨6, 4, .rwl, .w⟩, ⟨2, 0, .rwl, .w⟩]⟩,
  /- FLT_SRC_COUNT -/ ⟨0x300, 32, 4, 0x00000000, [⟨31, 0, .ro, .s⟩]⟩,
  /- FLT_CAP -/ ⟨0x400, 72, 4, 0x00000000, [⟨31, 0, .ro, .s⟩]⟩,
  /- FLT_ACK -/ ⟨0x600, 1, 4, 0x00000000, [⟨8, 0, .sc, .v⟩]⟩,
  /- FLT_CAP_CLR -/ ⟨0x604, 1, 4, 0x00000000, [⟨8, 0, .sc, .v⟩]⟩,
  /- FLT_ERRN_CLR -/ ⟨0x608, 1, 4, 0x00000000, [⟨0, 0, .sc, .v⟩]⟩,
  /- FLT_EXP -/ ⟨0x800, 1, 4, 0x00000000, [⟨0, 0, .rw, .w⟩]⟩]

/-- Page 0x06. -/
def tableLEDG : List RDesc := [
  /- LEDG_CFG -/ ⟨0x040, 1, 4, 0x00000200, [⟨12, 12, .rwl, .w⟩, ⟨10, 8, .rwl, .w⟩, ⟨7, 0, .rwl, .w⟩]⟩,
  /- LEDG_PART_BASE -/ ⟨0x044, 1, 4, 0x00000000, [⟨31, 12, .rwl, .w⟩]⟩,
  /- LEDG_PART_SIZE -/ ⟨0x048, 1, 4, 0x00000000, [⟨15, 0, .rwl, .w⟩]⟩,
  /- LEDG_STATUS -/ ⟨0x04C, 1, 4, 0x00000000, [⟨31, 31, .ro, .s⟩, ⟨30, 30, .ro, .v⟩, ⟨29, 29, .ro, .v⟩, ⟨28, 28, .ro, .v⟩, ⟨25, 16, .ro, .s⟩]⟩,
  /- LEDG_RESUME_NUM -/ ⟨0x050, 1, 4, 0x00000000, [⟨31, 0, .rw, .s⟩]⟩,
  /- LEDG_RESUME_OFF -/ ⟨0x054, 1, 4, 0x00000000, [⟨31, 0, .rw, .s⟩]⟩,
  /- LEDG_RESUME_TAG_HI -/ ⟨0x058, 1, 4, 0x00000000, [⟨31, 0, .rw, .s⟩]⟩,
  /- LEDG_RESUME_TAG_LO -/ ⟨0x05C, 1, 4, 0x00000000, [⟨31, 0, .rw, .s⟩]⟩,
  /- LEDG_NEXT_NUM -/ ⟨0x060, 1, 4, 0x00000000, [⟨31, 0, .ro, .s⟩]⟩,
  /- LEDG_NEXT_OFF -/ ⟨0x064, 1, 4, 0x00000000, [⟨31, 0, .ro, .s⟩]⟩,
  /- LEDG_TAG_HI -/ ⟨0x068, 1, 4, 0x00000000, [⟨31, 0, .ro, .s⟩]⟩,
  /- LEDG_TAG_LO -/ ⟨0x06C, 1, 4, 0x00000000, [⟨31, 0, .ro, .s⟩]⟩,
  /- LEDG_NOTE_HI -/ ⟨0x070, 1, 4, 0x00000000, [⟨31, 0, .rw, .v⟩]⟩,
  /- LEDG_NOTE_LO -/ ⟨0x074, 1, 4, 0x00000000, [⟨31, 0, .rw, .v⟩]⟩,
  /- LEDG_CNT_ENTRIES -/ ⟨0x080, 1, 4, 0x00000000, [⟨31, 0, .ro, .s⟩]⟩,
  /- LEDG_CNT_LOST -/ ⟨0x084, 1, 4, 0x00000000, [⟨31, 0, .ro, .s⟩]⟩,
  /- LEDG_CNT_FLUSH_ERR -/ ⟨0x088, 1, 4, 0x00000000, [⟨31, 0, .ro, .s⟩]⟩,
  /- LEDG_CNT_SUMMARY -/ ⟨0x08C, 1, 4, 0x00000000, [⟨31, 0, .ro, .s⟩]⟩,
  /- LEDG_CMD -/ ⟨0x600, 1, 4, 0x00000000, [⟨0, 0, .sc, .v⟩, ⟨1, 1, .sc, .v⟩, ⟨2, 2, .sc, .v⟩, ⟨3, 3, .sc, .v⟩]⟩]

/-- Page 0x01. -/
def tableRST : List RDesc := [
  /- RST_CAUSE -/ ⟨0x040, 1, 4, 0x00000000, [⟨31, 24, .ro, .s⟩, ⟨8, 8, .w1c, .s⟩, ⟨7, 7, .w1c, .s⟩, ⟨6, 6, .w1c, .s⟩, ⟨5, 5, .w1c, .s⟩, ⟨4, 4, .w1c, .s⟩, ⟨3, 3, .w1c, .s⟩, ⟨2, 2, .w1c, .s⟩, ⟨1, 1, .w1c, .s⟩, ⟨0, 0, .w1c, .s⟩]⟩,
  /- RST_WDT_CFG -/ ⟨0x044, 1, 4, 0x006403E8, [⟨31, 31, .rwl, .w⟩, ⟨30, 30, .rwl, .w⟩, ⟨27, 16, .rwl, .w⟩, ⟨15, 0, .rwl, .w⟩]⟩,
  /- RST_WDT_STATUS -/ ⟨0x048, 1, 4, 0x00000000, [⟨31, 31, .ro, .v⟩, ⟨15, 0, .ro, .v⟩]⟩,
  /- RST_CNT_WARM -/ ⟨0x080, 1, 4, 0x00000000, [⟨31, 0, .ro, .s⟩]⟩,
  /- RST_CNT_WDT -/ ⟨0x084, 1, 4, 0x00000000, [⟨31, 0, .ro, .s⟩]⟩,
  /- RST_CMD -/ ⟨0x600, 1, 4, 0x00000000, [⟨0, 0, .sc, .v⟩, ⟨15, 8, .sc, .v⟩]⟩,
  /- RST_WDT_KICK -/ ⟨0x604, 1, 4, 0x00000000, [⟨31, 0, .wo, .v⟩]⟩]

/-- Page 0x02. -/
def tablePWR : List RDesc := [
  /- PWR_CFG -/ ⟨0x040, 1, 4, 0x00000A01, [⟨16, 16, .rw, .w⟩, ⟨15, 8, .rw, .w⟩, ⟨0, 0, .rw, .w⟩]⟩,
  /- PWR_STATUS -/ ⟨0x044, 1, 4, 0x00000000, [⟨31, 31, .ro, .v⟩, ⟨23, 16, .ro, .v⟩, ⟨15, 8, .ro, .v⟩, ⟨6, 4, .ro, .v⟩, ⟨2, 0, .ro, .v⟩]⟩,
  /- PWR_WAKE_EN -/ ⟨0x048, 1, 4, 0x000000FF, [⟨7, 0, .rw, .k⟩]⟩,
  /- PWR_WAKE_TIMER -/ ⟨0x04C, 1, 4, 0x00000000, [⟨31, 31, .rw, .k⟩, ⟨23, 0, .rw, .k⟩]⟩,
  /- PWR_WAKE_SRC -/ ⟨0x050, 1, 4, 0x00000000, [⟨7, 0, .w1c, .k⟩]⟩,
  /- PWR_CNT_ENTRY -/ ⟨0x080, 1, 4, 0x00000000, [⟨31, 0, .ro, .s⟩]⟩,
  /- PWR_CNT_REFUSED -/ ⟨0x084, 1, 4, 0x00000000, [⟨31, 0, .ro, .s⟩]⟩,
  /- PWR_CMD -/ ⟨0x600, 1, 4, 0x00000000, [⟨31, 31, .sc, .v⟩, ⟨2, 0, .wo, .v⟩]⟩,
  /- PWR_EXP -/ ⟨0x800, 1, 4, 0x00000000, [⟨0, 0, .rw, .w⟩]⟩]

/-- Page 0x03. -/
def tableCLK : List RDesc := [
  /- CLK_STATUS -/ ⟨0x040, 1, 4, 0x00000000, [⟨8, 0, .ro, .v⟩, ⟨16, 16, .ro, .v⟩, ⟨17, 17, .ro, .v⟩, ⟨18, 18, .ro, .v⟩, ⟨19, 19, .ro, .v⟩, ⟨20, 20, .ro, .v⟩]⟩,
  /- CLK_GATE -/ ⟨0x044, 1, 4, 0x00000000, [⟨4, 1, .rw, .w⟩]⟩,
  /- CLK_AON -/ ⟨0x048, 1, 4, 0x00000000, [⟨0, 0, .rwl, .k⟩]⟩,
  /- CLK_REF_PPM -/ ⟨0x04C, 1, 4, 0x00008000, [⟨15, 0, .ro, .v⟩]⟩,
  /- CLK_CNT_UNLOCK -/ ⟨0x080, 1, 4, 0x00000000, [⟨31, 0, .ro, .s⟩]⟩]

/-- Page 0xC0. -/
def tableFWU : List RDesc := [
  /- FWU_CFG -/ ⟨0x040, 1, 4, 0x00000000, [⟨1, 1, .rw, .w⟩, ⟨0, 0, .rw, .w⟩]⟩,
  /- FWU_STATUS -/ ⟨0x044, 1, 4, 0x00000000, [⟨8, 8, .ro, .v⟩, ⟨7, 7, .ro, .v⟩, ⟨6, 6, .ro, .v⟩, ⟨5, 5, .ro, .v⟩, ⟨4, 4, .ro, .v⟩, ⟨3, 3, .ro, .v⟩, ⟨2, 2, .ro, .v⟩, ⟨1, 1, .ro, .v⟩, ⟨0, 0, .ro, .v⟩]⟩,
  /- FWU_SESSION -/ ⟨0x048, 1, 4, 0x00000000, [⟨15, 0, .ro, .w⟩]⟩,
  /- FWU_BLK_ADDR -/ ⟨0x04C, 1, 4, 0x00000000, [⟨31, 0, .rw, .v⟩]⟩,
  /- FWU_SEND_NODE -/ ⟨0x050, 1, 4, 0x00000000, [⟨31, 14, .rw, .v⟩]⟩,
  /- FWU_RESULT -/ ⟨0x054, 1, 4, 0x00000000, [⟨31, 31, .ro, .v⟩, ⟨27, 24, .ro, .v⟩, ⟨19, 16, .ro, .v⟩, ⟨11, 8, .ro, .v⟩, ⟨3, 0, .ro, .v⟩]⟩,
  /- FWU_CONFIRM_LEFT -/ ⟨0x058, 1, 4, 0x00000000, [⟨13, 0, .ro, .v⟩]⟩,
  /- FWU_OTP_INFO -/ ⟨0x05C, 1, 4, 0x00000000, [⟨29, 20, .ro, .w⟩, ⟨16, 16, .ro, .w⟩, ⟨12, 12, .ro, .w⟩, ⟨11, 8, .ro, .w⟩, ⟨5, 0, .ro, .w⟩]⟩,
  /- FWU_IMG_VERSION -/ ⟨0x060, 1, 4, 0x00000000, [⟨31, 0, .ro, .v⟩]⟩,
  /- FWU_RUN_VERSION -/ ⟨0x064, 1, 4, 0x00000000, [⟨31, 0, .ro, .w⟩]⟩,
  /- FWU_CNT_BLOCKS -/ ⟨0x080, 1, 4, 0x00000000, [⟨31, 0, .ro, .s⟩]⟩,
  /- FWU_CNT_REFUSED -/ ⟨0x084, 1, 4, 0x00000000, [⟨31, 0, .ro, .s⟩]⟩,
  /- FWU_CNT_FRAG_DISCARD -/ ⟨0x088, 1, 4, 0x00000000, [⟨31, 0, .ro, .s⟩]⟩,
  /- FWU_CNT_COMMIT_FAIL -/ ⟨0x08C, 1, 4, 0x00000000, [⟨31, 0, .ro, .s⟩]⟩,
  /- FWU_MEAS -/ ⟨0x100, 32, 4, 0x00000000, [⟨31, 0, .ro, .w⟩]⟩,
  /- FWU_MEAS_DATA -/ ⟨0x180, 8, 4, 0x00000000, [⟨31, 0, .rw, .v⟩]⟩,
  /- FWU_CMD -/ ⟨0x600, 1, 4, 0x00000000, [⟨8, 0, .sc, .v⟩]⟩,
  /- FWU_MEAS_EXT -/ ⟨0x604, 1, 4, 0x00000000, [⟨31, 0, .wo, .v⟩]⟩]

/-- Page 0xC1. -/
def tableXSPI : List RDesc := [
  /- XSPI_CS0_CFG -/ ⟨0x040, 1, 4, 0x00000000, [⟨8, 8, .rwl, .w⟩, ⟨4, 0, .rwl, .w⟩]⟩,
  /- XSPI_CS1_CFG -/ ⟨0x044, 1, 4, 0x00000100, [⟨8, 8, .rwl, .w⟩, ⟨4, 0, .rwl, .w⟩]⟩,
  /- XSPI_TIMING -/ ⟨0x048, 1, 4, 0x00140032, [⟨20, 16, .rw, .w⟩, ⟨15, 0, .rw, .w⟩]⟩,
  /- XSPI_CMD_A -/ ⟨0x04C, 1, 4, 0xEE120605, [⟨31, 0, .rw, .w⟩]⟩,
  /- XSPI_CMD_B -/ ⟨0x050, 1, 4, 0x21DC0008, [⟨31, 24, .rw, .w⟩, ⟨23, 16, .rw, .w⟩, ⟨3, 0, .rw, .w⟩]⟩,
  /- XSPI_STATUS -/ ⟨0x054, 1, 4, 0x00000000, [⟨2, 2, .ro, .v⟩, ⟨1, 1, .ro, .v⟩, ⟨0, 0, .ro, .v⟩]⟩,
  /- XSPI_CNT_READ_ERR -/ ⟨0x080, 1, 4, 0x00000000, [⟨31, 0, .ro, .s⟩]⟩,
  /- XSPI_CNT_TIMEOUT -/ ⟨0x084, 1, 4, 0x00000000, [⟨31, 0, .ro, .s⟩]⟩]

/-- Page 0xC2. -/
def tableANI : List RDesc := [
  /- ANI_BOOT_INFO -/ ⟨0x040, 1, 4, 0x00000000, [⟨27, 24, .ro, .w⟩, ⟨17, 16, .ro, .w⟩, ⟨7, 7, .ro, .w⟩, ⟨6, 6, .ro, .w⟩, ⟨5, 5, .ro, .w⟩, ⟨4, 4, .ro, .w⟩, ⟨3, 3, .ro, .w⟩, ⟨2, 2, .ro, .w⟩, ⟨1, 1, .ro, .w⟩, ⟨0, 0, .ro, .w⟩]⟩,
  /- ANI_CUMIN_VERSION -/ ⟨0x044, 1, 4, 0x00000000, [⟨31, 0, .ro, .v⟩]⟩,
  /- ANI_HANDOVER -/ ⟨0x048, 1, 4, 0x00000000, [⟨0, 0, .rw, .v⟩, ⟨1, 1, .rw, .v⟩]⟩,
  /- ANI_MB_STATUS -/ ⟨0x060, 2, 4, 0x00000000, [⟨31, 31, .ro, .v⟩, ⟨30, 30, .ro, .v⟩, ⟨15, 0, .ro, .v⟩]⟩,
  /- ANI_CNT_MB_VIOL -/ ⟨0x080, 1, 4, 0x00000000, [⟨31, 0, .ro, .s⟩]⟩,
  /- ANI_CNT_EXCEPTION -/ ⟨0x084, 1, 4, 0x00000000, [⟨31, 0, .ro, .s⟩]⟩,
  /- ANI_MB_DOORBELL -/ ⟨0x600, 2, 4, 0x00000000, [⟨31, 0, .wo, .v⟩]⟩,
  /- ANI_MB_ACK -/ ⟨0x608, 1, 4, 0x00000000, [⟨0, 0, .sc, .v⟩, ⟨1, 1, .sc, .v⟩]⟩]

/-- Page 0x00. -/
def tableCHIP : List RDesc := [
  /- CHIP_UID0 -/ ⟨0x040, 1, 4, 0x00000000, [⟨31, 0, .ro, .v⟩]⟩,
  /- CHIP_UID1 -/ ⟨0x044, 1, 4, 0x00000000, [⟨31, 0, .ro, .v⟩]⟩,
  /- CHIP_UID2 -/ ⟨0x048, 1, 4, 0x00000000, [⟨31, 0, .ro, .v⟩]⟩,
  /- CHIP_UID3 -/ ⟨0x04C, 1, 4, 0x00000000, [⟨31, 0, .ro, .v⟩]⟩,
  /- CHIP_REV -/ ⟨0x050, 1, 4, 0x00000000, [⟨15, 8, .ro, .v⟩, ⟨7, 0, .ro, .v⟩]⟩,
  /- CHIP_IDCODE -/ ⟨0x054, 1, 4, 0x00128635, [⟨31, 0, .ro, .v⟩]⟩,
  /- CHIP_STRAPS -/ ⟨0x058, 1, 4, 0x00000000, [⟨8, 8, .ro, .s⟩, ⟨7, 7, .ro, .s⟩, ⟨6, 6, .ro, .s⟩, ⟨5, 5, .ro, .s⟩, ⟨4, 4, .ro, .s⟩, ⟨1, 0, .ro, .s⟩]⟩,
  /- CHIP_TEMP -/ ⟨0x05C, 1, 4, 0x00000000, [⟨15, 0, .ro, .v⟩]⟩,
  /- CHIP_TEMP_MAX -/ ⟨0x080, 1, 4, 0x00008000, [⟨15, 0, .ro, .s⟩]⟩,
  /- CHIP_CMD -/ ⟨0x600, 1, 4, 0x00000000, [⟨0, 0, .sc, .v⟩]⟩]

/-- The register table of a page beyond its header; [] for a page that has header registers only. -/
def pageTable (p : Nat) : List RDesc :=
  match p with
  | 0x00 => tableCHIP
  | 0x01 => tableRST
  | 0x02 => tablePWR
  | 0x03 => tableCLK
  | 0x04 => tableFLT
  | 0x05 => tableARB
  | 0x06 => tableLEDG
  | 0x08 => tableXLT08
  | 0x09 => tableXLT09
  | 0x0A => tableXLT0A
  | 0x0B => tableXLT0B
  | 0x10 => tableFAB0
  | 0x11 => tableFAB1
  | 0x12 => tableFAB2
  | 0x13 => tableFAB3
  | 0x14 => tableFAB4
  | 0x15 => tableFAB5
  | 0x16 => tableFAB6
  | 0x17 => tableFAB7
  | 0x18 => tablePACE
  | 0x20 => tableRG
  | 0x21 => tableRP
  | 0x22 => tableRP
  | 0x23 => tableRM
  | 0x24 => tableRG
  | 0x25 => tableRP
  | 0x26 => tableRP
  | 0x27 => tableRM
  | 0x28 => tableRCTL
  | 0x30 => tableFLOW0
  | 0x31 => tableFLOW1
  | 0x32 => tableFLOW2
  | 0x33 => tableFLOW3
  | 0x38 => tableTTB0
  | 0x39 => tableTTB1
  | 0x3A => tableTTB2
  | 0x3B => tableTTB3
  | 0x40 => tableTB0
  | 0x41 => tableTBn
  | 0x42 => tableTBn
  | 0x43 => tableTBn
  | 0x44 => tableTSU
  | 0x48 => tableCIPH48
  | 0x49 => tableCIPH49
  | 0x4A => tableCIPH4A
  | 0x4B => tableCIPH4B
  | 0x4C => tableKEY4C
  | 0x4D => tableKEY4D
  | 0x50 => tableDMA
  | 0x51 => tableDMA
  | 0x52 => tableDMA
  | 0x53 => tableDMA
  | 0x54 => tableDMA
  | 0x55 => tableDMA
  | 0x56 => tableDMA
  | 0x57 => tableDMA
  | 0x58 => tableDMA
  | 0x59 => tableDMA
  | 0x5A => tableDMA
  | 0x5B => tableDMA
  | 0x5C => tableDMA
  | 0x5D => tableDMA
  | 0x5E => tableDMA
  | 0x5F => tableDMA
  | 0x60 => tableDMAA
  | 0x68 => tableHB
  | 0x69 => tableHB
  | 0x6A => tablePOLL
  | 0x70 => tableEMAC
  | 0x71 => tableTSM
  | 0x72 => tableTSM
  | 0x73 => tableTSM
  | 0x74 => tableTSM
  | 0x80 => tableUART
  | 0x81 => tableUART
  | 0x82 => tableUART
  | 0x83 => tableUART
  | 0x84 => tableUART
  | 0x85 => tableUART
  | 0x86 => tableUART
  | 0x87 => tableUART
  | 0x88 => tableUART
  | 0x89 => tableUART
  | 0x8A => tableUART
  | 0x8B => tableUART
  | 0x8C => tableUART
  | 0x8D => tableUART
  | 0x8E => tableUART
  | 0x8F => tableUART
  | 0x90 => tableCANF
  | 0x91 => tableCANF
  | 0x92 => tableCANF
  | 0x93 => tableCANF
  | 0x94 => tableCANF
  | 0x95 => tableCANF
  | 0x96 => tableCANF
  | 0x97 => tableCANF
  | 0x98 => tableSPI
  | 0x99 => tableSPI
  | 0x9A => tableSPI
  | 0x9B => tableSPI
  | 0x9C => tableSPI
  | 0x9D => tableSPI
  | 0x9E => tableSPI
  | 0x9F => tableSPI
  | 0xA0 => tableIIC
  | 0xA1 => tableIIC
  | 0xA2 => tableIIC
  | 0xA3 => tableIIC
  | 0xA4 => tableIIC
  | 0xA5 => tableIIC
  | 0xA6 => tableIIC
  | 0xA7 => tableIIC
  | 0xA8 => tableCLOV
  | 0xA9 => tableCLOV
  | 0xAA => tableCLOV
  | 0xAB => tableCLOV
  | 0xB0 => tablePMUX
  | 0xB1 => tablePMUX
  | 0xB2 => tablePMUX
  | 0xB3 => tablePMUX
  | 0xB4 => tableFQ
  | 0xB5 => tableFQ
  | 0xB6 => tableFQ
  | 0xB7 => tableFQ
  | 0xC0 => tableFWU
  | 0xC1 => tableXSPI
  | 0xC2 => tableANI
  | 0xF0 => tablePD0
  | 0xF1 => tablePD1F1
  | 0xF2 => tablePD1F2
  | 0xF3 => tablePD1F3
  | 0xF4 => tablePDD
  | 0xF5 => tablePDD
  | 0xF6 => tablePDD
  | 0xF7 => tablePDD
  | _ => []

end Sys2Proof.Machine
end

