-- ==== Sys2Proof/Machine/Sparse.lean ====
section
/-! DEFINITION. Sparse stores: a list of key and value pairs in one canonical form (keys strictly rising, no entry equal to
what an unlisted key reads as), with a default function for unlisted keys. Registers, memory, timetable memory and the
per-unit tables are all stores of this kind. -/
namespace Sys2Proof.Machine

variable {β : Type}

/-- What key k reads as: its listed value, or the default. -/
def spGet (d : Nat → β) : List (Nat × β) → Nat → β
  | [], k => d k
  | (a, v) :: m, k => if a = k then v else spGet d m k

/-- The store without key k. -/
def spErase : List (Nat × β) → Nat → List (Nat × β)
  | [], _ => []
  | (a, v) :: m, k => if a = k then spErase m k else (a, v) :: spErase m k

/-- The store with key k put in its place among the keys. -/
def spInsert : List (Nat × β) → Nat → β → List (Nat × β)
  | [], k, v => [(k, v)]
  | (a, w) :: m, k, v => if k < a then (k, v) :: (a, w) :: m else (a, w) :: spInsert m k v

/-- Writing v at key k: writing the default removes the entry. -/
def spSet [DecidableEq β] (d : Nat → β) (m : List (Nat × β)) (k : Nat) (v : β) : List (Nat × β) :=
  if v = d k then spErase m k else spInsert (spErase m k) k v

/-- The canonical form: keys strictly rising, and no entry equal to its key's default. -/
def spWf [DecidableEq β] (d : Nat → β) : List (Nat × β) → Bool
  | [] => true
  | [(k, v)] => decide (v ≠ d k)
  | (k, v) :: (k', v') :: m => decide (k < k') && decide (v ≠ d k) && spWf d ((k', v') :: m)

/-- Every listed value passed through f, the canonical form kept: entries that become their default go. -/
def spMap [DecidableEq β] (d : Nat → β) (f : Nat → β → β) : List (Nat × β) → List (Nat × β)
  | [] => []
  | (k, v) :: m =>
    let v' := f k v
    if v' = d k then spMap d f m else (k, v') :: spMap d f m

/-- The store without the keys that p holds of. -/
def spDrop (p : Nat → Bool) (m : List (Nat × β)) : List (Nat × β) := m.filter (fun e => !p e.1)

end Sys2Proof.Machine
end

