-- ==== Sys2Proof/Machine/Regs.lean ====
section
/-! DEFINITION. What the register tables give: the page directory (R48), the header resets of each page (R29, R589), the
reset value of every register, and the masks of its bits by access code (R5) and class (R6). -/
namespace Sys2Proof.Machine

/-- An access class of R46. -/
inductive PageCls where
  | a | b | c | d
deriving DecidableEq, Repr

/-- One group of the page directory (R48). -/
structure PageGroup where
  first : Nat
  last : Nat
  blockType : Nat
  cls : PageCls
  claimed : Bool
deriving DecidableEq, Repr

/-- The page directory (R48). -/
def pageGroups : List PageGroup := [
  ⟨0x00, 0x00, 0x0001, .b, false⟩, ⟨0x01, 0x01, 0x0002, .b, false⟩, ⟨0x02, 0x02, 0x0003, .b, false⟩,
  ⟨0x03, 0x03, 0x0004, .b, false⟩, ⟨0x04, 0x04, 0x0005, .a, false⟩, ⟨0x05, 0x05, 0x0006, .a, false⟩,
  ⟨0x06, 0x06, 0x0007, .b, false⟩, ⟨0x08, 0x0B, 0x0010, .b, false⟩, ⟨0x10, 0x17, 0x0011, .b, false⟩,
  ⟨0x18, 0x18, 0x0012, .b, false⟩, ⟨0x20, 0x23, 0x0020, .b, false⟩, ⟨0x24, 0x27, 0x0021, .b, false⟩,
  ⟨0x28, 0x28, 0x0022, .b, false⟩, ⟨0x30, 0x33, 0x0030, .a, false⟩, ⟨0x38, 0x3B, 0x0031, .b, false⟩,
  ⟨0x40, 0x43, 0x0040, .a, false⟩, ⟨0x44, 0x44, 0x0041, .a, false⟩, ⟨0x48, 0x4B, 0x0048, .c, false⟩,
  ⟨0x4C, 0x4D, 0x0049, .d, false⟩, ⟨0x50, 0x5F, 0x0050, .a, false⟩, ⟨0x60, 0x60, 0x0051, .a, false⟩,
  ⟨0x68, 0x68, 0x0068, .b, false⟩, ⟨0x69, 0x69, 0x0068, .b, false⟩, ⟨0x6A, 0x6A, 0x0069, .a, false⟩,
  ⟨0x70, 0x70, 0x0070, .a, false⟩, ⟨0x71, 0x74, 0x0071, .a, true⟩, ⟨0x80, 0x8F, 0x0080, .a, true⟩,
  ⟨0x90, 0x97, 0x0090, .a, true⟩, ⟨0x98, 0x9F, 0x0098, .a, true⟩, ⟨0xA0, 0xA7, 0x00A0, .a, true⟩,
  ⟨0xA8, 0xAB, 0x00A8, .a, true⟩, ⟨0xB0, 0xB3, 0x00B0, .a, true⟩, ⟨0xB4, 0xB7, 0x00B4, .a, false⟩,
  ⟨0xC0, 0xC0, 0x00C0, .b, false⟩, ⟨0xC1, 0xC1, 0x00C1, .b, false⟩, ⟨0xC2, 0xC2, 0x00C2, .a, false⟩,
  ⟨0xF0, 0xF3, 0x00F0, .b, false⟩, ⟨0xF4, 0xF7, 0x00F4, .a, true⟩]

/-- The group that a page belongs to, none for an unpopulated page (R30, R48). -/
def pageGroup (p : Nat) : Option PageGroup := pageGroups.find? (fun g => g.first ≤ p && p ≤ g.last)

/-- The page is one of the 136 populated ones (R48). -/
def populated (p : Nat) : Bool := (pageGroup p).isSome

/-- The populated pages, 0x00 upwards (R48). -/
def populatedPages : List Nat := (List.range 256).filter populated

/-- The groups that form one block over several pages (R32). -/
def multiPageBlock (p : Nat) : Bool :=
  (0x08 ≤ p && p ≤ 0x0B) || (0x10 ≤ p && p ≤ 0x17) || (0x20 ≤ p && p ≤ 0x27) || (0x30 ≤ p && p ≤ 0x33) ||
  (0x38 ≤ p && p ≤ 0x3B) || (0x48 ≤ p && p ≤ 0x4D) || (0xF0 ≤ p && p ≤ 0xF3)

/-- The page whose header governs the block of a page: the first page of a multi-page block, else the page itself (R32). -/
def blockHead (p : Nat) : Nat :=
  match pageGroup p with
  | some g => if multiPageBlock p then g.first else p
  | none => p

/-- The pages of the block of a page (R32). -/
def blockPages (p : Nat) : List Nat :=
  match pageGroup p with
  | some g => if multiPageBlock p then (List.range (g.last + 1 - g.first)).map (· + g.first) else [p]
  | none => []

/-- The blocks that have no block reset: CHIP, RST, PWR, CLK, FLT, LEDG, KEY, ANI and PD (R32). -/
def noBlockReset (p : Nat) : Bool :=
  p ≤ 0x04 || p = 0x06 || p = 0x4C || p = 0x4D || p = 0xC2 || 0xF0 ≤ p

/-- The block of a page has a block reset on this page: the first page of a multi-page block, and no block without (R32). -/
def hasBlockReset (p : Nat) : Bool := populated p && !noBlockReset p && blockHead p = p

/-- The pages whose PG_CTRL.enable resets to 1 (R29, R33). -/
def enableAtReset (p : Nat) : Bool :=
  p ≤ 0x06 || (0x08 ≤ p && p ≤ 0x0B) || (0x10 ≤ p && p ≤ 0x18) || (0x40 ≤ p && p ≤ 0x44) ||
  p = 0x4C || p = 0x4D || p = 0x60 || p = 0x68 || p = 0x69 || p = 0xC0 || p = 0xC1 || p = 0xC2 || 0xF0 ≤ p

/-- PG_FAULT_INJ.checkers of a page: checker 5 everywhere, and the others of R589. -/
def checkersOf (p : Nat) : Nat :=
  0x20 +
  (if p = 0x10 then 0x3 else if p = 0x18 then 0x10 else if p = 0x20 || p = 0x24 then 0x4 else if p = 0x08 then 0x2
   else if p = 0x30 then 0x1 else if p = 0x44 then 0x2 else if p = 0x48 then 0x8 else if p = 0x4C then 0x1
   else if p = 0x68 || p = 0x69 then 0x4 else if 0x90 ≤ p && p ≤ 0x97 then 0x1 else if 0xA8 ≤ p && p ≤ 0xAB then 0x1
   else if 0xB4 ≤ p && p ≤ 0xB7 then 0x1 else if 0x70 ≤ p && p ≤ 0x74 then 0x1 else 0)

/-- The reset value of a header register of a populated page (R29, R589). -/
def headerReset (p off : Nat) : Nat :=
  match pageGroup p with
  | none => 0
  | some g =>
    if off = 0x000 then g.blockType * 0x10000 + (p - g.first) * 0x100 + 0x01
    else if off = 0x004 then b2n (enableAtReset p)
    else if off = 0x008 then 0xFF000001
    else if off = 0x01C then checkersOf p * 0x10000
    else if off = 0x024 then 0x0000FF00
    else 0

/-- The fields of the header registers with their access codes and classes (R29). -/
def headerFields (off : Nat) : List RField :=
  if off = 0x000 then [⟨31, 0, .ro, .v⟩]
  else if off = 0x004 then [⟨15, 8, .wo, .v⟩, ⟨2, 2, .rw, .v⟩, ⟨1, 1, .sc, .v⟩, ⟨0, 0, .rw, .w⟩]
  else if off = 0x008 then [⟨31, 24, .ro, .w⟩, ⟨23, 16, .ro, .v⟩, ⟨7, 3, .w1c, .w⟩, ⟨2, 0, .ro, .v⟩]
  else if off = 0x00C then [⟨31, 0, .w1c, .v⟩]
  else if off = 0x010 then [⟨31, 0, .rw, .v⟩]
  else if off = 0x014 then [⟨31, 0, .wo, .v⟩]
  else if off = 0x018 then [⟨31, 31, .w1c, .s⟩, ⟨16, 16, .ro, .s⟩, ⟨15, 8, .ro, .s⟩, ⟨6, 0, .ro, .s⟩]
  else if off = 0x01C then [⟨21, 16, .ro, .v⟩, ⟨11, 8, .rw, .v⟩, ⟨1, 1, .rw, .v⟩, ⟨0, 0, .sc, .v⟩]
  else if off = 0x020 then [⟨31, 0, .rw, .w⟩]
  else if off = 0x024 then [⟨15, 8, .ro, .w⟩, ⟨0, 0, .w1s, .w⟩]
  else []

/-- The reset value of FLT_SRC_CFG of source n (R501, R502). -/
def srcCfgReset (n : Nat) : Nat :=
  if n = 0 || n = 6 || n = 14 || n = 20 || n = 21 || n = 31 || n = 48 || n = 56 || n = 122 then 0x00030810
  else if n ≤ 3 || n = 5 then 0x00030821
  else if n = 4 then 0x00030831
  else if n = 7 || (16 ≤ n && n ≤ 19) || n = 22 || n = 23 then 0x00030811
  else if (8 ≤ n && n ≤ 10) || n = 57 then 0x00030842
  else if n = 12 || n = 60 || n = 66 then 0x00030822
  else if n = 11 || n = 13 || n = 15 || (24 ≤ n && n ≤ 30) then 0x00030821
  else if (32 ≤ n && n ≤ 37) || n = 40 then 0x00030821
  else if n = 47 || n = 71 || (92 ≤ n && n ≤ 95) then 0x00030800
  else if (38 ≤ n && n ≤ 46) || (49 ≤ n && n ≤ 55) then 0x00030811
  else if n = 58 || n = 59 then 0x00030821
  else if n = 61 || n = 67 || n = 68 || n = 70 then 0x00030842
  else if (62 ≤ n && n ≤ 65) || n = 69 || (72 ≤ n && n ≤ 91) then 0x00030811
  else if n = 96 || n = 97 || n = 104 || (107 ≤ n && n ≤ 109) || n = 112 || n = 121 then 0x00030811
  else if n = 98 || n = 99 || (101 ≤ n && n ≤ 103) || n = 113 || n = 117 || n = 123 then 0x00030822
  else if n = 100 || n = 105 || n = 106 || n = 111 || n = 115 || n = 116 || n = 120 || n = 125 then 0x00030821
  else if n = 110 || n = 118 || n = 119 || n = 124 || n = 126 then 0x00030842
  else if n = 114 then 0x00030852
  else if n = 127 then 0x00030142
  else 0

/-- The row of the register table that a page offset falls in. -/
def findDesc (ds : List RDesc) (off : Nat) : Option RDesc :=
  ds.find? (fun d => d.off ≤ off && (off - d.off) % d.stride = 0 && (off - d.off) / d.stride < d.n)

/-- The register at a page and offset: its description, none at a reserved offset (R4). -/
def regDesc (p off : Nat) : Option RDesc := findDesc (pageTable p) off

/-- The fields of the register at a page and offset. -/
def regFields (p off : Nat) : List RField :=
  if off < 0x040 then (if populated p then headerFields off else [])
  else match regDesc p off with
    | some d => d.fields
    | none => []

/-- The bits of a field list that one access code covers. -/
def accMask (fs : List RField) (a : Acc) : Nat :=
  fs.foldl (fun m f => if f.acc = a then m ||| ((2 ^ (f.hi + 1 - f.lo) - 1) <<< f.lo) else m) 0

/-- The bits of the register at an address that are no reserved ones (R4). -/
def fieldMask (a : Nat) : Word :=
  toW ((regFields (a / 0x1000) (a % 0x1000)).foldl (fun m f => m ||| ((2 ^ (f.hi + 1 - f.lo) - 1) <<< f.lo)) 0)

/-- The bits of a field list that one class covers. -/
def clsMask (fs : List RField) (c : Cls) : Nat :=
  fs.foldl (fun m f => if f.cls = c then m ||| ((2 ^ (f.hi + 1 - f.lo) - 1) <<< f.lo) else m) 0

/-- Reset values fixed per chip, by straps or per unit, which the register tables state in words (log entry 6). -/
def specialReset (a : Nat) : Option Word :=
  if a = rCHIP_UID0 then some (Config.uid.extractLsb' 96 32)
  else if a = rCHIP_UID1 then some (Config.uid.extractLsb' 64 32)
  else if a = rCHIP_UID2 then some (Config.uid.extractLsb' 32 32)
  else if a = rCHIP_UID3 then some (Config.uid.extractLsb' 0 32)
  else if a = rCHIP_REV then some (if Config.orderingX then 0x58 else 0x45)
  else if a = rCHIP_IDCODE then some 0x00128635
  else if a = rCHIP_STRAPS then some Config.strapsAtReset
  else if a = rPD_STRAP then some Config.dostrapAtReset
  else if a = rANI_CUMIN_VERSION then some Config.cuminVersion
  else if a = rHBx_CFG 0 then some (toW (2 * b2n (bitOf Config.strapsAtReset 4) + b2n (bitOf Config.strapsAtReset 6)))
  else if a = rHBx_CFG 1 then some (toW (2 * b2n (bitOf Config.strapsAtReset 5) + b2n (bitOf Config.strapsAtReset 7)))
  else if a = rXLT_LEVEL then
    some (toW ((if bitOf Config.strapsAtReset 4 then 2 else 1) + 4 * (if bitOf Config.strapsAtReset 5 then 2 else 1)))
  else if rFLT_SRC_CFG 0 ≤ a && a ≤ rFLT_SRC_CFG 127 && a % 4 = 0 then some (toW (srcCfgReset ((a - rFLT_SRC_CFG 0) / 4)))
  else none

/-- The reset value of the register at an address of the register map (R6, R29, R501, and the register tables). -/
def resetWord (a : Nat) : Word :=
  match specialReset a with
  | some w => w
  | none =>
    let p := a / 0x1000
    let off := a % 0x1000
    if off < 0x040 then toW (headerReset p off)
    else match regDesc p off with
      | some d => toW d.reset
      | none => 0

end Sys2Proof.Machine
end

