-- ==== Sys2Proof/Syntax.lean ====
section
/-! DEFINITION. The commands of the hub: one constructor per row of the table of operations and events, with what each
carries. The commands come from outside (a register access, a frame, a pin, a measured value) or are the expiry of a time;
what the environment supplies (a frame's octets, a time stamp, a level, a module's byte) is the command's operand. -/
namespace Sys2Proof.Machine

/-- The three levels of R283, least privileged first. -/
inductive Level where
  | guest | operator | warden
deriving DecidableEq, Repr

/-- A requester: its master ID (R286), and for master 0x30 its source node and the ring attachment it arrived on. -/
structure Req where
  master : Nat
  node : Nat
  att : Nat
deriving DecidableEq, Repr

/-- A ring frame as it stands on a lane: the six header words of R62 and the payload octets. -/
structure Frame where
  w0 : Word
  w1 : Word
  w2 : Word
  w3 : Word
  w4 : Word
  w5 : Word
  payload : List Byte
deriving DecidableEq, Repr

/-- How the blocks of a received frame end (R72 to R74). -/
inductive TailKind where
  | clean        -- every block of the extent and the terminate or closing block are sound
  | errorBlock   -- an error block stands at the terminate or closing position (R74)
  | broken       -- a control block inside the extent, or block lock lost during it (R73)
deriving DecidableEq, Repr

/-- An ordered set: a 4-bit O code and the octets D1 to D3 (R53, R54). -/
structure OrdSet where
  o : BitVec 4
  d1 : Byte
  d2 : Byte
  d3 : Byte
deriving DecidableEq, Repr

/-- What a window of a port's error monitor has counted (R53, R83): invalid sync headers, and bit errors against PRBS31. -/
structure BerWindow where
  bad : Nat
  errs : Nat
deriving DecidableEq, Repr

/-- What a TRAIN ordered set says (R54). -/
structure Train where
  quarter : Bool
  version : Nat
  port : Nat     -- 0 East, 1 West
  ack : Bool
  ready : Bool
deriving DecidableEq, Repr

/-- What stands in block 0 of a received slot, for R57. -/
inductive Block0 where
  | frameData     -- a data block that starts or continues a frame
  | slotSet (value : Nat)  -- a SLOT set with its 24-bit value
  | remoteFault
  | train (t : Train)
  | misplacedSlot  -- a SLOT set at a position other than block 0
  | strayData      -- a data block outside a frame's extent
  | other          -- none of these
deriving DecidableEq, Repr

/-- The claim of a hub: 2-octet priority over the 128-bit unique ID (R88). -/
abbrev Claim := Nat

/-- CLAIM (R88). -/
structure ClaimMsg where
  claim : Claim
  ring : Nat
  ready : Bool
  readyMaster : Bool
  master : Nat
deriving DecidableEq, Repr

/-- NUMBER (R88); offsets and the transit delay are signed, in 0.1 ns. -/
structure NumberMsg where
  station : Nat
  path : Nat
  kept : Bool
  openRing : Bool
  uid : Nat
  fwd : Int
  bwd : Int
  transit : Int
deriving DecidableEq, Repr

/-- REPORT (R88). -/
structure Report where
  station : Nat
  uid : Nat
  off0 : Int
  off1 : Int
  linkW : Int
  linkE : Int
deriving DecidableEq, Repr

/-- READY (R88); one pad octet per station. -/
structure ReadyMsg where
  n : Nat
  openRing : Bool
  loop0 : Nat
  loop1 : Nat
  pads : List Nat
deriving DecidableEq, Repr

/-- BEACON (R88). -/
structure BeaconMsg where
  claim : Claim
  master : Nat
  n : Nat
  number : Nat
  takeover : Bool
deriving DecidableEq, Repr

/-- DEMOTE (R88, R113). -/
structure DemoteMsg where
  claim : Claim
  master : Nat
  effect : Nat
  step : Int
deriving DecidableEq, Repr

/-- A span and its directions, as BREAK and HEALED carry them and as hubs keep them (R88, R107, R109). -/
structure Broken where
  station : Nat
  path0 : Bool
  path1 : Bool
deriving DecidableEq, Repr

/-- What the bus gives a command: ACK, NACK, arbitration lost, or a bus error. -/
inductive IicBus where
  | ok | nack | lost | error
deriving DecidableEq, Repr

/-- What a bus controller does to the target: an address byte after START or a repeated START, a byte it writes, or its ACK or NACK of a
byte it read. -/
inductive IicTgt where
  | address (restart : Bool) (byte : Nat)
  | written (byte : Nat)
  | answered (ack : Bool)
deriving DecidableEq, Repr

/-- What goes wrong on a CAN bus (R374): a stuff, form, acknowledgement, bit (recessive sent, dominant sent) or CRC error, or a recessive res
bit in an FD frame (R360). -/
inductive CanErr where
  | stuff | form | ack | bitRec | bitDom | crc | res
deriving DecidableEq, Repr

/-- How far an error moves the error count by ISO 11898-1: the ordinary amount, 8 for a receiver that the standard charges more, or not at all
where the standard excepts the transmitter. -/
inductive CanCharge where
  | plain | more | none
deriving DecidableEq, Repr

/-- How much of a frame's operation at the cipher a command covers: all of it, its start, or the rest of one that has started (R464). -/
inductive CiphPhase where
  | whole | start | rest
deriving DecidableEq, Repr

/-- A PCI Express request (R245 to R247, R264): a memory read of n octets, a posted memory write, or an AtomicOp: 1 FetchAdd, 2 Swap, 3 CAS,
of `len` octets, with its operand (for a CAS the swap value) and the compare value. -/
inductive PcieOp where
  | read (n : Nat)
  | write (data : List Byte)
  | atomic (op len operand compare : Nat)
deriving DecidableEq, Repr

/-- An access by a requester (R25, R26): a read of n octets, which may be a prefetch, or a write. -/
inductive AccOp where
  | read (n : Nat) (mayPrefetch : Bool)
  | write (data : List Byte)
deriving DecidableEq, Repr

end Sys2Proof.Machine

namespace Sys2Proof
open Machine

/-- The commands: one constructor per row of the table of operations and events (opcode_table.json), in its order. -/
inductive Instr where
  /-- REGISTER_WRITE (R46): A write to a register that has no row of its own is checked for size, privilege, expert, claim and lock, and then stored or ignored. -/
  | registerWrite (q : Req) (a : Nat) (v : Word)
  /-- HOST_REQUEST (R247): A host or requester access reaches a page or memory range and completes with an R28 status. -/
  | hostRequest (q : Req) (a : Nat) (op : AccOp)
  /-- BLOCK_RESET (R31): Setting PG_CTRL.block_reset clears the V fields of the block within 5 µs while page accesses are held. -/
  | blockReset (q : Req) (p : Nat) (v : Word)
  /-- BLOCK_ENABLE (R33): Writing PG_CTRL.enable starts or stops a block at its next frame, burst, item or character boundary. -/
  | blockEnable (q : Req) (p : Nat) (v : Word)
  /-- EXPERT_UNLOCK (R40): A write of expert = 1 with unlock 0x5A opens the expert region, subject to lock and level. -/
  | expertUnlock (q : Req) (p : Nat) (v : Word)
  /-- PG_IRQ_FORCE (R34): Writing PG_IRQ_FORCE sets bits of PG_IRQ_STAT exactly as their events would. -/
  | pgIrqForce (q : Req) (p : Nat) (v : Word)
  /-- PG_FAULT_CLEAR (R35): Writing 1 to PG_FAULT.valid clears every field of the page's fault view without acknowledging at the collector. -/
  | pgFaultClear (q : Req) (p : Nat) (v : Word)
  /-- PG_FAULT_INJ (R36): A Warden write arms injection on a present checker so that the next checked access sees inverted check bits. -/
  | pgFaultInj (q : Req) (p : Nat) (v : Word)
  /-- PG_CLAIM (R274): A write to PG_CLAIM replaces the writer's presented claim and the resource is decided again as open, owned or in conflict. -/
  | pgClaim (q : Req) (p : Nat) (v : Word)
  /-- PG_LOCK (R38): A Warden write sets PG_LOCK.lock, making every RWL field of the page read-only until a warm or cold reset. -/
  | pgLock (q : Req) (p : Nat) (v : Word)
  /-- PORT_ENABLE (R76): Writing RGA_PORT_CTRL.enable starts the port training state machine at MODULE or moves it to OFF. -/
  | portEnable (q : Req) (r p : Fin 2) (v : Word)
  /-- MODULE_CHECK (R80): The port's read of SFF-8472 page A0h completes and the module passes to WAKE or stays in MODULE. -/
  | moduleCheck (r p : Fin 2) (ack : Bool) (b0 b12 b92 : Byte)
  /-- MODULE_RETRY (R76): The 100 ms retry timer of MODULE expires and the module checks run again. -/
  | moduleRetry (r p : Fin 2)
  /-- MODULE_PIN_CHANGE (R81): MOD_ABS or TX_FAULT goes high and the port returns to MODULE or DOWN, raising the module fault source. -/
  | modulePinChange (r p : Fin 2) (modAbs txFault los : Bool)
  /-- BLOCK_LOCK (R76): The receiver gains clause 49 block lock and the port moves from WAKE to LOCK. -/
  | blockLock (r p : Fin 2)
  /-- BLOCK_LOCK_LOST (R77): The receiver loses block lock and the port leaves its state for WAKE or DOWN, reporting a break to ring control. -/
  | blockLockLost (r p : Fin 2)
  /-- HIGH_BER (R53): The high bit error ratio condition is met in UP and the port goes to DOWN. -/
  | highBer (r p : Fin 2) (w : BerWindow)
  /-- TRAIN_TIMEOUT (R76): The train_timeout expires in WAKE, LOCK or ALIGN. -/
  | trainTimeout (r p : Fin 2)
  /-- TRAIN (R76): A TRAIN ordered set is received and the port acknowledges, moves to ALIGN, or records a miswire. -/
  | train (r p : Fin 2) (t : OrdSet)
  /-- ALIGN_COMPLETE (R76): Four SLOT sets 16 blocks apart with peer ready take the port to UP. -/
  | alignComplete (r p : Fin 2)
  /-- ALIGNMENT_ERROR (R57): A misplaced SLOT set, data block, TRAIN set in UP or two empty slots takes the port to DOWN. -/
  | alignmentError (r p : Fin 2) (b : Block0)
  /-- SLIP (R59): The elastic fill departs from its set value beyond the limit and the port goes to DOWN. -/
  | slip (r p : Fin 2) (fill : Nat)
  /-- HOLDOFF_EXPIRE (R76): The DOWN holdoff expires and the port returns to WAKE. -/
  | holdoffExpire (r p : Fin 2)
  /-- REMOTE_FAULT (R77): A port in UP receives remote fault sets and reports its transmit direction failed. -/
  | remoteFault (r p : Fin 2) (present : Bool)
  /-- RETRAIN (R76): RGA_PORT_CMD.retrain forces the port to DOWN and then WAKE. -/
  | retrain (q : Req) (r p : Fin 2) (v : Word)
  /-- MODULE_ACCESS (R82): RGA_MOD_ACC.go starts a management-bus access to a module byte, refused writes returning nack. -/
  | moduleAccess (q : Req) (r : Fin 2) (v : Word)
  /-- MODULE_ACCESS_DONE (R82): A module management-bus access completes, go clears and the completion interrupt is set. -/
  | moduleAccessDone (r : Fin 2) (nack : Bool) (data : Byte)
  /-- RING_FRAME_RECEIVED (R67): A port takes in a frame's header, checks it and strips, takes off, copies, discards or forwards it. -/
  | ringFrameReceived (r p : Fin 2) (f : Frame) (crc : Word) (t : TailKind) (sub : Fin 4)
  /-- SLOT_FILL (R70): At each slot start a transmitter chooses a continuation, transit frame, buffered frame, local frame or empty slot. -/
  | slotFill (x p : Fin 2) (slot : Nat) (sub : Fin 4)
  /-- PAD_APPLY (R61): A new loop pad takes effect in the next slot with no frame through the receiver, changing the transit delay. -/
  | padApply (r p : Fin 2)
  /-- RCTL_ENABLE (R89): Writing an attachment enable in RCTL_CTRL starts ring control in ELECT or takes it to OFF. -/
  | rctlEnable (q : Req) (v : Word)
  /-- CLAIM_RECEIVED (R91): A CLAIM message is received, adopted and relayed if higher, and compared for healing, joining or two masters. -/
  | claimReceived (x p : Fin 2) (m : ClaimMsg) (step : Int) (pad : Nat)
  /-- CLAIM_SEND (R91): Every 1 ms in ELECT the hub sends CLAIM on each port that is UP. -/
  | claimSend (x : Fin 2)
  /-- SETTLE_EXPIRE (R93): Settle expires and the hub whose own claim is best starts counting or takes over quietly. -/
  | settleExpire (x : Fin 2)
  /-- ELECT_TIMEOUT (R89): elect_timeout expires and ring control returns to ELECT with its own claim. -/
  | electTimeout (x : Fin 2)
  /-- COUNT_RECEIVED (R94): A COUNT is received and relayed with hubs passed raised, answered with END, or completes counting at the master. -/
  | countReceived (x p : Fin 2) (passed path uid : Nat)
  /-- END_RECEIVED (R94): An END is relayed back toward the master or completes open-ring counting. -/
  | endReceived (x p : Fin 2) (passed path uid : Nat)
  /-- NUMBER_RECEIVED (R95): A NUMBER gives the receiver its station number and offsets, and it relays the next NUMBER. -/
  | numberReceived (x p : Fin 2) (m : NumberMsg)
  /-- DELAY_REQ_SEND (R96): The hub sends a DELAY_REQ for one of the 8 exchanges, 100 µs apart, on entry to UP and each epoch. -/
  | delayReqSend (x p : Fin 2)
  /-- DELAY_REQ_RECEIVED (R96): A DELAY_REQ is answered with DELAY_RESP carrying receive and send stamps. -/
  | delayReqReceived (x p : Fin 2) (path src stamp : Nat)
  /-- DELAY_RESP_RECEIVED (R96): A DELAY_RESP is received and the link delay is computed once 8 exchanges are done. -/
  | delayRespReceived (x p : Fin 2) (path t2 t3 src stamp : Nat)
  /-- REPORT_RECEIVED (R98): The master collects REPORTs and, when all have arrived, computes pads and sends READY and TABLE or returns to ELECT. -/
  | reportReceived (x : Fin 2) (m : Report)
  /-- READY_RECEIVED (R89): A station receives READY, writes its pads, sets ring_ready and enters MEMBER. -/
  | readyReceived (x : Fin 2) (m : ReadyMsg) (slot : Nat)
  /-- BEACON_SEND (R101): The master sends BEACON every 2^beacon_k slots. -/
  | beaconSend (x : Fin 2)
  /-- BEACON_RECEIVED (R115): A member receives BEACON, resetting its miss count or adopting a new master on takeover. -/
  | beaconReceived (x : Fin 2) (m : BeaconMsg)
  /-- BEACON_MISS (R115): beacon_miss consecutive BEACONs are missed and the member enters ELECT with kept = 1, raising source 28. -/
  | beaconMiss (x : Fin 2)
  /-- BREAK_RECEIVED (R109): A station receives BREAK and steers its originated frames away from the broken span. -/
  | breakReceived (x : Fin 2) (b : Broken)
  /-- HEALED_RECEIVED (R112): A station receives HEALED, stops wrapping and steers class 2 and 3 frames back to the shorter path. -/
  | healedReceived (x : Fin 2) (b : Broken) (loop0 loop1 : Nat)
  /-- JOIN_RECEIVED (R103): The master gives a joiner a station number and sends ASSIGN. -/
  | joinReceived (x : Fin 2) (station side uid : Nat)
  /-- ASSIGN_RECEIVED (R103): An ASSIGN is relayed link-local and the joiner enters AWAIT with its number. -/
  | assignReceived (x : Fin 2) (station neighbour uid : Nat)
  /-- DEMOTE_RECEIVED (R113): A loser master receives DEMOTE, broadcasts it with an effect slot count and stops BEACON. -/
  | demoteReceived (x : Fin 2) (m : DemoteMsg)
  /-- DEMOTE_EFFECT (R113): At the effect slot the loser segment steps its grids, opens a TB0 session, enters MEMBER and sets class 0 flows to re-admission. -/
  | demoteEffect (x : Fin 2)
  /-- SLEEP_RECEIVED (R120): A station receives SLEEP and answers VETO when sleep_veto is set. -/
  | sleepReceived (x : Fin 2) (cancel : Bool)
  /-- VETO_RECEIVED (R120): A master that receives VETO before the next epoch boundary sends SLEEP with cancel. -/
  | vetoReceived (x : Fin 2) (station : Nat)
  /-- SLEEP_SET_RECEIVED (R120): A hub that receives SLEEP ordered sets without the SLEEP frame sleeps at once. -/
  | sleepSetReceived (x : Fin 2)
  /-- RESET_MESSAGE (R122): A RESET addressed to the station with the right key causes a warm reset, otherwise it is counted as bad. -/
  | resetMessage (x : Fin 2) (station : Nat) (key : Word)
  /-- TREE_RECEIVED (R119): A station receives TREE and sets joined and its level. -/
  | treeReceived (x : Fin 2) (level upper : Nat)
  /-- TREE_SEND (R119): A bridge whose upper ring is joined and lower ring ready sends TREE with level + 1 on its lower ring. -/
  | treeSend
  /-- RCTL_ELECT (R89): RCTL_CMD.elect sends a master back to ELECT with kept = 1. -/
  | rctlElect (q : Req) (v : Word)
  /-- RCTL_RENUMBER (R89): RCTL_CMD.renumber sends a master to ELECT with kept = 0 and clears ring_ready. -/
  | rctlRenumber (q : Req) (v : Word)
  /-- RCTL_SLEEP (R120): RCTL_CMD.sleep makes a master send SLEEP on its rings. -/
  | rctlSleep (q : Req) (v : Word)
  /-- RCTL_RESET (R122): RCTL_CMD.reset sends a RESET message to the station in RCTL_CMD_ARG. -/
  | rctlReset (q : Req) (v : Word)
  /-- EPOCH_BOUNDARY (R12): The slot count passes an epoch boundary and the epoch-scaled activities of the management plane act. -/
  | epochBoundary (mods : List (Nat × List Byte))
  /-- FRAME_INGRESS (R132): Cell 0 of a frame at a fabric input is looked up and the output of the whole frame is fixed. -/
  | frameIngress (n : Fin 16) (env : Option Frame)
  /-- FABRIC_ROUND (R129): A round completes on all 32 connections and each input and middle sends its chosen cell. -/
  | fabricRound
  /-- BANK_COUNT_REBUILD (R154): A bank's disagreeing count is rebuilt from its free list in the next round in which the bank is idle. -/
  | bankCountRebuild (m : Fin 16)
  /-- FAB_LIMIT_WRITE (R143): A write to FAB_LIMITn is refused when the sum would exceed 512, otherwise it takes effect. -/
  | fabLimitWrite (q : Req) (n : Fin 16) (v : Word)
  /-- FAB_OCC_CMD (R155): FAB_OCC_CMD clears every high_water mark. -/
  | fabOccCmd (q : Req) (v : Word)
  /-- FAB_AIM_CMD (R155): FAB_AIM_CMD clears FAB_AIM_MAX. -/
  | fabAimCmd (q : Req) (v : Word)
  /-- FAB_TRACE_POP (R45): A read of FAB_TRACE_POP pops a trace item into the replay register. -/
  | fabTracePop (q : Req) (mayPrefetch wide : Bool)
  /-- FAB_TEST_STEP (R155): While frozen, FAB_TEST_STEP executes one round. -/
  | fabTestStep (q : Req) (v : Word)
  /-- PACE_READING (R148): Every 256 ns the gauge reports the beat, and shedding and the VCORE code act on it. -/
  | paceReading (b0 b1 : Nat)
  /-- PACE_SETTLE_END (R151): The settle timer ends and the count of readings above raise_at starts again. -/
  | paceSettleEnd
  /-- PACE_LOWER (R151): The beat has stayed below lower_at for lower_ms without a dip flag and the code is lowered by 1. -/
  | paceLower
  /-- PACE_LOOP_ENABLE (R151): Writing loop_en from 0 to 1 drives start_code on VCORE_SET and starts the settle timer. -/
  | paceLoopEnable (q : Req) (v : Word)
  /-- PACE_CFG_WRITE (R151): A write of PACE_CFG that leaves the code outside min_code to max_code moves it to the nearest limit. -/
  | paceCfgWrite (q : Req) (v : Word)
  /-- PACE_CLEAR_BEAT (R156): PACE_CMD bit 0 clears beat_max and PACE_BEAT_MIN. -/
  | paceClearBeat (q : Req) (v : Word)
  /-- PACE_OUT_OF_TURN (R152): A reading out of turn is taken on command, on a VCORE dip or before the first round after a restart. -/
  | paceOutOfTurn (b0 b1 : Nat)
  /-- FLOW_CREATE (R164): FLOW_CMD create takes a context slot and writes the context from the arguments. -/
  | flowCreate (q : Req) (f : Nat)
  /-- FLOW_DELETE (R164): FLOW_CMD delete makes a disabled flow absent and frees its slot. -/
  | flowDelete (q : Req) (f : Nat)
  /-- FLOW_ENABLE (R164): FLOW_CMD enable sets the window start values and enables the flow, after admission for class 0. -/
  | flowEnable (q : Req) (f : Nat)
  /-- FLOW_DISABLE (R164): FLOW_CMD disable clears enabled between two frames and discards later frames and stored frames. -/
  | flowDisable (q : Req) (f : Nat)
  /-- FLOW_PIN (R164): FLOW_CMD pin fetches a paged-out context and pins it, within pin_max. -/
  | flowPin (q : Req) (f : Nat)
  /-- FLOW_UNPIN (R164): FLOW_CMD unpin clears pinned unless the flow is an enabled class 0 flow. -/
  | flowUnpin (q : Req) (f : Nat)
  /-- FLOW_WRITE_BACK (R164): FLOW_CMD write back writes a resident context to its backing index without evicting it. -/
  | flowWriteBack (q : Req) (f : Nat)
  /-- FLOW_CMD_COMPLETE (R165): A flow command that had to fetch or evict completes and its result is written to FLOW_RESULT. -/
  | flowCmdComplete (err : Option Nat) (noVictim : Bool)
  /-- VIEW_LOAD (R166): FLOW_VIEW_CMD load copies a context into the view and holds it resident. -/
  | viewLoad (q : Req) (v : Word)
  /-- VIEW_STORE (R166): FLOW_VIEW_CMD store writes the view fields back between two frames and ends the hold. -/
  | viewStore (q : Req) (v : Word)
  /-- VIEW_RELEASE (R166): FLOW_VIEW_CMD release ends the hold without writing. -/
  | viewRelease (q : Req) (v : Word)
  /-- CONTEXT_DIRECT_WRITE (R163): A direct write to the context store reaches only counters of a resident context, otherwise it is refused and counted. -/
  | contextDirectWrite (q : Req) (a : Nat) (bs : List Byte)
  /-- PAGER_MISS (R170): The pager takes the next miss, chooses a victim and starts its write-back or the fetch. -/
  | pagerMiss
  /-- PAGER_WRITEBACK_DONE (R170): A victim's write-back completes and its entry becomes paged out, or a fault keeps it resident. -/
  | pagerWritebackDone (err : Option Nat)
  /-- PAGER_FETCH_DONE (R170): A fetch completes, its check word is checked and the context is installed and its frames released. -/
  | pagerFetchDone (err : Option Nat)
  /-- PAGER_RETRY (R173): After retry × 10 µs the pager tries a faulted fetch again. -/
  | pagerRetry (f : Nat)
  /-- SYS_WINDOW_UNPROTECT (R179): A system window cache entry's guard expires and frames waiting for an entry take it. -/
  | sysWindowUnprotect (src flow : Nat)
  /-- FLOW_PF_CMD (R181): FLOW_PF_CMD clears the pager fault capture. -/
  | flowPfCmd (q : Req) (v : Word)
  /-- TTB_DISTRIBUTE (R189): TTB_CMD distribute makes the master check its image and send TABLE fragments with an effect slot count. -/
  | ttbDistribute (q : Req) (v : Word)
  /-- TABLE_RECEIVED (R190): A station assembles TABLE fragments into its inactive bank and accepts, refuses or re-admits. -/
  | tableReceived (x : Fin 2) (id n stations effect no count : Nat) (crc : Word) (data : List Byte)
  /-- TABLE_EFFECT (R190): A pending table becomes active at its effect slot count, or is missed when incomplete. -/
  | tableEffect (x : Fin 2)
  /-- CLASS0_STORE (R196): A class 0 frame is stored in the ring egress transmit store or discarded as overrun. -/
  | class0Store (o : Fin 4)
  /-- TTB_MEM_DATA (R185): A write of TTB_MEM_DATA writes timetable memory where allowed, otherwise sets config_warning. -/
  | ttbMemData (q : Req) (v : Word)
  /-- TTB_MEM_DATA_INC (R185): An access to TTB_MEM_DATA_INC acts as TTB_MEM_DATA and adds 4 to TTB_MEM_ADDR. -/
  | ttbMemDataInc (q : Req) (w : Option Word) (mayPrefetch : Bool)
  /-- TTB_EXP_SWAP (R213): TTB_EXP_SWAP makes the inactive bank active at the next period boundary while bank_write = 1. -/
  | ttbExpSwap (q : Req) (v : Word)
  /-- TTB_LOG_POP (R44): A read of TTB_LOG_POP pops an admission refusal. -/
  | ttbLogPop (q : Req) (mayPrefetch : Bool)
  /-- RX_FRAME_WRITE (R306): A frame delivered to a receive queue is written into ring buffers, the overflow reserve, or lost. -/
  | rxFrameWrite (o : Fin 16) (host : List (Nat × Byte))
  /-- RX_STALL_EXPIRE (R211): The receive-stall timer expires and the waiting frame completes truncated. -/
  | rxStallExpire (c : Fin 16)
  /-- TB_SNAP (R242): TB_CMD snap latches the base and the island count at one tick. -/
  | tbSnap (q : Req) (b : Fin 4) (v : Word)
  /-- TB_STEP (R219): TB_CMD step applies the first step of a session at the next tick or is refused. -/
  | tbStep (q : Req) (b : Fin 4) (v : Word)
  /-- TB_SESSION_OPEN (R220): A Warden write of TB_SESSION.open opens a new session and clears step_used. -/
  | tbSessionOpen (q : Req) (b : Fin 4) (v : Word)
  /-- TB_RATE_WRITE (R216): A write to TB_RATE_HI applies the 48-bit increment at the next tick, limited to ±1,000 ppm. -/
  | tbRateWrite (q : Req) (b : Fin 4) (v : Word)
  /-- SYNC_SEND (R229): A ring master sends SYNC, or a bridge sends UPLINK, every 2^sync_k slots. -/
  | syncSend (x : Fin 2)
  /-- TIME_MESSAGE_RECEIVED (R227): A SYNC or UPLINK is received and the hub computes its TB0 offset and lock state. -/
  | timeMessageReceived (x p : Fin 2) (f : Frame) (stamp : Nat)
  /-- SOURCE_TIMEOUT (R231): No message from the servo source for 4 × 2^sync_k slots unlocks TB0. -/
  | sourceTimeout
  /-- TUNNEL_RECEIVED (R234): A TUNNEL message is passed to the management MAC, which corrects and sends the event message. -/
  | tunnelReceived (x p : Fin 2) (f : Frame) (sub : Fin 4)
  /-- TC_ORPHAN_TIMEOUT (R235): A two-step residence with no matching general message within 1 s is dropped and counted. -/
  | tcOrphanTimeout (seq : Nat)
  /-- TSU_SNAP_ALL (R243): TSU_CMD snap_all latches all four bases and the island count at one tick. -/
  | tsuSnapAll (q : Req) (v : Word)
  /-- TSU_ARM (R239): A write to TSU_ARM arms or disarms event units, firing late where the time has passed. -/
  | tsuArm (q : Req) (v : Word)
  /-- EVENT_COMPARE (R239): An armed unit's base reaches its compare time and it acts, drives triggers and re-arms or disarms. -/
  | eventCompare (u : Fin 16)
  /-- EVENT_CAPTURE (R238): A selected edge at an event pin is stamped into the capture FIFO or counted lost. -/
  | eventCapture (u : Fin 16) (rising : Bool) (sub : Fin 4)
  /-- TSU_CAP_POP (R238): A read of TSU_CAP_POP pops a capture item. -/
  | tsuCapPop (q : Req) (mayPrefetch wide : Bool)
  /-- PCIE_REQUEST (R247): A PCI Express request in a BAR is served as local or fabric requests and completed. -/
  | pcieRequest (h : Fin 2) (id : Nat) (bar : Fin 3) (off : Nat) (op : PcieOp) (full : Bool)
  /-- MSIX_UNMASK (R248): Unmasking a vector whose request is still 1 sends its pending message. -/
  | msixUnmask (q : Req) (h : Fin 2) (n : Fin 32) (v : Word)
  /-- QSPI_LOCAL_READ (R250): Quad-SPI command 0x01 reads local data. -/
  | qspiLocalRead (h : Fin 2) (bad late : Bool) (a len : Nat)
  /-- QSPI_LOCAL_WRITE (R250): Quad-SPI command 0x02 writes local data. -/
  | qspiLocalWrite (h : Fin 2) (bad late : Bool) (a : Nat) (data : List Byte)
  /-- QSPI_FABRIC_READ (R250): Quad-SPI command 0x03 issues a fabric read. -/
  | qspiFabricRead (h : Fin 2) (bad : Bool) (fab len : Nat)
  /-- QSPI_FABRIC_POSTED_WRITE (R250): Quad-SPI command 0x04 issues a fabric posted write. -/
  | qspiFabricPostedWrite (h : Fin 2) (bad : Bool) (fab : Nat) (data : List Byte)
  /-- QSPI_FABRIC_NONPOSTED_WRITE (R250): Quad-SPI command 0x05 issues a fabric non-posted write. -/
  | qspiFabricNonpostedWrite (h : Fin 2) (bad : Bool) (fab : Nat) (data : List Byte)
  /-- QSPI_FABRIC_ATOMIC (R250): Quad-SPI command 0x06 issues a fabric atomic. -/
  | qspiFabricAtomic (h : Fin 2) (bad : Bool) (fab op len operand compare : Nat)
  /-- QSPI_RESULT (R252): Quad-SPI command 0x07 returns the status and data of the pending command. -/
  | qspiResult (h : Fin 2) (bad : Bool)
  /-- QSPI_INTERRUPT_STATUS (R250): Quad-SPI command 0x08 returns the pending vector bits. -/
  | qspiInterruptStatus (h : Fin 2) (bad : Bool)
  /-- RESPONSE_RECEIVED (R258): A response or notice for an outstanding tag completes the request, or a duplicate is discarded. -/
  | responseReceived (port : Fin 3)
  /-- REQUEST_RETRY (R258): A non-posted request with no response within rsp_timeout is resent or fails with subcode 3. -/
  | requestRetry (b : Fin 18) (tag : Fin 65536)
  /-- TARGET_REQUEST (R261): The target engine receives a request and performs it when ordering allows, answering from cache where it matches. -/
  | targetRequest (port : Fin 3)
  /-- ORDER_WAIT_EXPIRE (R261): A request that waited order_wait is performed anyway and source 42 is raised. -/
  | orderWaitExpire
  /-- POSTED_ACK_SEND (R266): After 2^10 slots with a non-zero count the target sends an ack of performed posted writes. -/
  | postedAckSend (src flow : Nat)
  /-- POSTED_NOTICE_RECEIVED (R267): An ack lowers in-flight counts, and an error notice is logged in the posted-write log. -/
  | postedNoticeReceived (port : Fin 3)
  /-- POSTED_CONFIRM_TIMEOUT (R267): In-flight posted writes unconfirmed for confirm_timeout are logged as one failure. -/
  | postedConfirmTimeout (h : Fin 2) (node : Nat)
  /-- PREFETCH_EXPIRE (R262): A read buffer entry is dropped 1 µs after its fetch. -/
  | prefetchExpire (h : Fin 2)
  /-- SEM_HOLD_EXPIRE (R265): A ring requester's semaphore hold expires after bridge_hold_us, invalidating its token. -/
  | semHoldExpire (n : Fin 64)
  /-- FENCE_READ (R269): A read of HBx_FENCE returns in_flight and errors and clears the error count. -/
  | fenceRead (q : Req) (h : Fin 2) (mayPrefetch : Bool)
  /-- FENCE_REQUEST (R269): HBx_FENCE_REQ sends an ack request to every node with writes in flight. -/
  | fenceRequest (q : Req) (h : Fin 2) (v : Word)
  /-- PWE_CLEAR (R267): HBx_PWE_CLR frees the selected posted-write log entries. -/
  | pweClear (q : Req) (h : Fin 2) (v : Word)
  /-- WINDOW_RESUME (R270): HBx_WIN_RESUME clears halted of a window or of HBx_QATTR. -/
  | windowResume (q : Req) (h : Fin 2) (v : Word)
  /-- WINDOW_ATTR_WRITE (R263): A window attribute or base write that would prefetch register pages is downgraded. -/
  | windowAttrWrite (q : Req) (h : Fin 2) (n : Fin 16) (base : Bool) (v : Word)
  /-- POLL_DUE (R272): A poll entry falls due and is sent, or counted as slipped. -/
  | pollDue (c : Nat)
  /-- POLL_RESPONSE (R273): A poll response updates the entry and pushes an event when the masked value changes. -/
  | pollResponse
  /-- POLL_MISS (R272): A poll unanswered within 2^k slots adds a miss and pushes an event. -/
  | pollMiss (n : Fin 1024)
  /-- POLL_EVT_POP (R273): A read of POLL_EVT_POP pops a poll event. -/
  | pollEvtPop (q : Req) (mayPrefetch wide : Bool)
  /-- HEARTBEAT (R276): A write to ARB_HB_A or ARB_HB_B marks the present window as beaten. -/
  | heartbeat (q : Req) (h : Fin 2) (v : Word)
  /-- HEARTBEAT_ENABLE (R276): Setting ARB_HB_CFG_x.en starts the first heartbeat window with the miss count at 0. -/
  | heartbeatEnable (q : Req) (h : Fin 2) (v : Word)
  /-- HEARTBEAT_WINDOW_END (R276): A heartbeat window ends and the host's miss count is cleared or raised, forcing its claims at miss_count. -/
  | heartbeatWindowEnd (h : Fin 2)
  /-- SEM_REQUEST (R278): ARB_SEM_CMD op 1 takes a free semaphore or joins its queue. -/
  | semRequest (q : Req) (v : Word)
  /-- SEM_RELEASE (R278): ARB_SEM_CMD op 2 releases a held semaphore or leaves its queue. -/
  | semRelease (q : Req) (v : Word)
  /-- SEM_TRY (R278): ARB_SEM_CMD op 3 requests a semaphore only if it is free. -/
  | semTry (q : Req) (v : Word)
  /-- SEM_FORCE (R278): A Warden ARB_SEM_FORCE releases a semaphore. -/
  | semForce (q : Req) (v : Word)
  /-- CLAIM_CLEAR (R275): A Warden ARB_CLAIM_CLEAR sets every presented claim of a resource to 0. -/
  | claimClear (q : Req) (v : Word)
  /-- LEVEL_WRITE (R284): A Warden write of XLT_LEVEL sets host levels at or below their strap. -/
  | levelWrite (q : Req) (v : Word)
  /-- BARRIER (R293): A write of XLT_BARRIER removes TLB entries in its scope and waits for earlier translations to retire. -/
  | barrier (q : Req) (v : Word)
  /-- BARRIER_COMPLETE (R293): Every access translated before the barrier has retired and the barrier write completes. -/
  | barrierComplete
  /-- BARRIER_SLOW (R293): A barrier not complete 10 µs after acceptance sets barrier_slow and raises source 52. -/
  | barrierSlow
  /-- XLT_FCAP_CMD (R309): XLT_FCAP_CMD clears the translation fault capture. -/
  | xltFcapCmd (q : Req) (v : Word)
  /-- DMAA_ALLOC (R295): A read of DMAA_ALLOC gives the reader the lowest free channel it may hold. -/
  | dmaaAlloc (q : Req) (mayPrefetch : Bool)
  /-- DMAA_FREE (R296): A write of DMAA_FREE frees a channel, stopping it at its next burst boundary. -/
  | dmaaFree (q : Req) (v : Word)
  /-- DMA_START (R302): DMA_CMD start takes an idle or stopped channel to RUN or RECEIVE. -/
  | dmaStart (q : Req) (c : Fin 16) (v : Word)
  /-- DMA_RESUME (R301): DMA_CMD resume redoes the faulting burst in full and continues. -/
  | dmaResume (q : Req) (c : Fin 16) (v : Word)
  /-- DMA_ABORT (R301): DMA_CMD abort completes the descriptor with status 1 and stops the channel. -/
  | dmaAbort (q : Req) (c : Fin 16) (v : Word)
  /-- DMA_STOP (R302): DMA_CMD stop returns the channel to IDLE once the descriptor or open frames complete. -/
  | dmaStop (q : Req) (c : Fin 16) (v : Word)
  /-- DMA_BURST (R300): A channel's burst or descriptor step completes and the current registers advance, or it faults. -/
  | dmaBurst (c : Fin 16) (host : List (Nat × Byte))
  /-- RX_TAIL_WRITE (R305): A write of DMA_RX_TAIL supplies receive descriptors unless it would overfill the ring. -/
  | rxTailWrite (q : Req) (c : Fin 16) (v : Word)
  /-- RSV_PUSH (R307): A write of DMA_RSV_PUSH adds a buffer to the overflow reserve. -/
  | rsvPush (q : Req) (c : Fin 16) (v : Word)
  /-- RSV_POP (R307): A read of DMA_RSV_POP pops a filled reserve item and frees a place. -/
  | rsvPop (q : Req) (c : Fin 16) (mayPrefetch wide : Bool)
  /-- PIN_FUNCTION_WRITE (R316): A write to PMUX_PINp changes the pin's function after two released cycles, or is refused. -/
  | pinFunctionWrite (q : Req) (c : Fin 4) (p : Fin 32) (v : Word)
  /-- BANK_LEVEL_WRITE (R318): A write of PMUX_BANK.level is accepted only while every pin of the cluster is in function none. -/
  | bankLevelWrite (q : Req) (c : Fin 4) (v : Word)
  /-- GPIO_SET (R320): A write to PMUX_GPIO_SET sets selected output bits. -/
  | gpioSet (q : Req) (c : Fin 4) (v : Word)
  /-- GPIO_CLR (R320): A write to PMUX_GPIO_CLR clears selected output bits. -/
  | gpioClr (q : Req) (c : Fin 4) (v : Word)
  /-- GPIO_EDGE (R321): A filtered level change at a pin updates PMUX_GPIO_IN and records an enabled edge. -/
  | gpioEdge (c : Fin 4) (p : Fin 32) (level : Bool)
  /-- FQ_ITEM_PRODUCED (R323): A producer gives an item against a credit, committing a word when full or end-marked. -/
  | fqItemProduced (c : Fin 4) (n : Fin 32) (item : Nat) (last : Bool)
  /-- FQ_POP (R327): A read of FQ_POPq pops a committed word or returns the idle value. -/
  | fqPop (q : Req) (c : Fin 4) (n : Fin 32) (mayPrefetch : Bool)
  /-- FQ_PUSH (R327): A write of FQ_PUSHq pushes the transmit data as one word, or is refused. -/
  | fqPush (q : Req) (c : Fin 4) (n : Fin 32) (v : Word)
  /-- FQ_CLOSE_RX (R324): FQ_CMD close_rx closes the open receive word as end-marked. -/
  | fqCloseRx (q : Req) (c : Fin 4) (v : Word)
  /-- FQ_FLUSH_RX (R331): FQ_CMD flush_rx discards the receive queue's words. -/
  | fqFlushRx (q : Req) (c : Fin 4) (v : Word)
  /-- FQ_FLUSH_TX (R331): FQ_CMD flush_tx discards the transmit queue's words. -/
  | fqFlushTx (q : Req) (c : Fin 4) (v : Word)
  /-- FQ_QCFG_WRITE (R330): A write of FQ_QCFGq reconfigures a queue, withdraws credits when disabling, or is refused. -/
  | fqQcfgWrite (q : Req) (c : Fin 4) (n : Fin 32) (v : Word)
  /-- FQ_FRAME_DELIVER (R329): A frame waiting in the field egress buffer moves into its transmit queue when there is room, or is discarded. -/
  | fqFrameDeliver (c : Fin 4)
  /-- UART_RX_CHAR (R343): A UART character, break or error is received and held or produced as an item. -/
  | uartRxChar (n : Fin 16) (data : Nat) (addr par stop : Bool)
  /-- UART_IDLE_END (R344): idle_bits of mark after a stop bit end the packet. -/
  | uartIdleEnd (n : Fin 16)
  /-- UART_TX_CHAR (R345): The transmitter starts a character from a committed word, driving DE first in RS-485 mode. -/
  | uartTxChar (n : Fin 16)
  /-- UART_DE_RELEASE (R345): de_hold after the last stop bit DE goes inactive. -/
  | uartDeRelease (n : Fin 16)
  /-- UART_SEND_BREAK (R346): UART_CMD.send_break holds TXD low for brk_bits bit times after the character in progress. -/
  | uartSendBreak (q : Req) (n : Fin 16) (v : Word)
  /-- SPI_FRAME (R349): The SPI controller clocks a frame when it holds an item and a credit, producing a receive item. -/
  | spiFrame (n : Fin 8) (miso : Nat)
  /-- SPI_COUNT (R350): SPI_CMD count clocks a number of idle-value frames. -/
  | spiCount (q : Req) (n : Fin 8) (v : Word)
  /-- SPI_TARGET_FRAME (R351): A frame clocked by an external controller completes at the SPI target. -/
  | spiTargetFrame (n : Fin 8) (mosi : Nat)
  /-- SPI_CS_RELEASE (R351): CS0 release ends the target's packet and discards a partial frame. -/
  | spiCsRelease (n : Fin 8) (part : Bool)
  /-- I2C_COMMAND (R355): The I2C controller carries out a command item: WRITE, READ, START or STOP. -/
  | i2cCommand (n : Fin 8) (b : IicBus) (data : Nat)
  /-- I2C_SCL_TIMEOUT (R359): SCL held low longer than timeout is counted and ends the transaction with status 6. -/
  | i2cSclTimeout (n : Fin 8)
  /-- I2C_BUS_CLEAR (R359): IIC_CMD.bus_clear sends up to 9 SCL pulses and a STOP. -/
  | i2cBusClear (q : Req) (n : Fin 8) (v : Word)
  /-- I2C_RELEASE (R359): IIC_CMD.release sends STOP if the unit holds the bus. -/
  | i2cRelease (q : Req) (n : Fin 8) (v : Word)
  /-- I2C_TARGET_BYTE (R357): The I2C target receives an address or data byte, or sends one, producing or taking items. -/
  | i2cTargetByte (n : Fin 8) (e : IicTgt)
  /-- I2C_STRETCH_LIMIT (R357): The target's stretch_limit passes and it NACKs or sends the idle byte. -/
  | i2cStretchLimit (n : Fin 8)
  /-- I2C_TARGET_STOP (R357): A STOP on the bus ends the target's packet. -/
  | i2cTargetStop (n : Fin 8)
  /-- CAN_TX_LOAD (R366): The loader takes a complete transmit packet into a free buffer, or refuses it. -/
  | canTxLoad (n : Fin 8)
  /-- CAN_TX_CHOOSE (R368): At the second intermission bit or on a pending buffer with the bus idle, the controller chooses the frame to send. -/
  | canTxChoose (n : Fin 8)
  /-- CAN_TX_DONE (R369): A transmission succeeds at the end of EOF and the buffer is freed with result 1. -/
  | canTxDone (n : Fin 8) (age measured : Nat)
  /-- CAN_ARB_LOST (R369): A transmitting buffer loses arbitration and stays pending or is freed with result 2. -/
  | canArbLost (n : Fin 8)
  /-- CAN_BUS_ERROR (R374): A bus error updates TEC or REC and the confinement state. -/
  | canBusError (n : Fin 8) (e : CanErr) (dataPhase tx : Bool) (charge : CanCharge)
  /-- CAN_RX_FRAME (R371): A valid received frame is filtered and stored in the receive FIFO or lost. -/
  | canRxFrame (n : Fin 8) (hdr dlc : Nat) (brs esi : Bool) (data : List Byte) (age : Nat)
  /-- CAN_ABORT (R370): CANF_CMD abort frees a pending buffer with result 4 or marks a frame on the bus. -/
  | canAbort (q : Req) (n : Fin 8) (v : Word)
  /-- CAN_RECOVER (R376): CANF_CMD.recover starts bus-off recovery. -/
  | canRecover (q : Req) (n : Fin 8) (v : Word)
  /-- CAN_RECOVERY_COMPLETE (R376): The 128th sequence of 11 recessive bits returns the controller to error active. -/
  | canRecoveryComplete (n : Fin 8)
  /-- CAN_BUS_INTEGRATE (R377): After enable, 11 consecutive recessive bits let the controller take part in bus traffic. -/
  | canBusIntegrate (n : Fin 8)
  /-- JUMP (R390): A Clove JUMP sets PC to its target. -/
  | jump (e : Fin 4) (k : Fin 16)
  /-- COUNT (R391): A Clove COUNT decrements a register and branches. -/
  | count (e : Fin 4) (k : Fin 16)
  /-- PAUSE (R392): A Clove PAUSE takes its operand in turns. -/
  | pause (e : Fin 4) (k : Fin 16)
  /-- HALT (R393): A Clove HALT makes the channel idle with stop_cause 1. -/
  | halt (e : Fin 4) (k : Fin 16)
  /-- SHOUT (R394): A Clove SHOUT sends n bits of SO on the data pin, timed or clocked. -/
  | shout (e : Fin 4) (k : Fin 16)
  /-- SHIN (R395): A Clove SHIN samples n bits of the data pin into SI, timed or clocked. -/
  | shin (e : Fin 4) (k : Fin 16) (pins : List Bool)
  /-- EXCH (R396): A Clove EXCH moves registers as its operand selects. -/
  | exch (e : Fin 4) (k : Fin 16)
  /-- LOADC (R397): A Clove LOADC loads a register. -/
  | loadc (e : Fin 4) (k : Fin 16)
  /-- TEST (R398): A Clove TEST branches when its condition holds. -/
  | test (e : Fin 4) (k : Fin 16)
  /-- TAKE (R399): A Clove TAKE pulls one item from the transmit small queue, or the idle item. -/
  | take (e : Fin 4) (k : Fin 16)
  /-- GIVE (R400): A Clove GIVE pushes an item into the receive small queue, stalling while it is full. -/
  | give (e : Fin 4) (k : Fin 16)
  /-- MATCH (R401): A Clove MATCH sets the match flag from a comparison. -/
  | cloveMatch (e : Fin 4) (k : Fin 16)
  /-- EDGE (R402): A Clove EDGE arms a pin's detector and waits for an edge or a timeout by counter. -/
  | edge (e : Fin 4) (k : Fin 16)
  /-- SIGNAL (R403): A Clove SIGNAL sets a bit of CLOV_EVENT and may request an interrupt. -/
  | signal (e : Fin 4) (k : Fin 16)
  /-- BANKPT (R404): A Clove BANKPT moves the channel to the new bank when a swap is pending. -/
  | bankpt (e : Fin 4) (k : Fin 16)
  /-- CLOVE_RESERVED_OPCODE (R389): A reserved opcode or an uncorrectable program word makes the channel idle with stop_cause 3. -/
  | cloveReservedOpcode (e : Fin 4) (k : Fin 16)
  /-- CLOVE_GIVE_ROOM (R400): A stalled GIVE finds room and pushes its item. -/
  | cloveGiveRoom (e : Fin 4) (k : Fin 16)
  /-- CLOVE_EDGE_SEEN (R402): A waiting EDGE recognises its edge and completes with timeout 0. -/
  | cloveEdgeSeen (e : Fin 4) (k : Fin 16) (waited : Nat)
  /-- CLOVE_EDGE_TIMEOUT (R402): A waiting EDGE's counter reaches 0 and it completes with timeout 1. -/
  | cloveEdgeTimeout (e : Fin 4) (k : Fin 16)
  /-- CLOVE_SHIFT_COMPLETE (R394): A clocked shift recognises its n-th clock edge and completes. -/
  | cloveShiftComplete (e : Fin 4) (k : Fin 16)
  /-- CLOV_START (R409): A write to CLOV_START starts channels at their entry, or refuses them. -/
  | clovStart (q : Req) (e : Fin 4) (v : Word)
  /-- CLOV_STOP (R409): A write to CLOV_STOP makes channels idle at once with stop_cause 2. -/
  | clovStop (q : Req) (e : Fin 4) (v : Word)
  /-- CLOV_SWAP (R412): CLOV_CMD.swap flips the bank and moves channels to it as their states allow. -/
  | clovSwap (q : Req) (e : Fin 4) (v : Word)
  /-- CLOV_SYNC_NOW (R410): CLOV_SYNC_CMD.now starts every selected channel on one field-clock edge. -/
  | clovSyncNow (q : Req) (v : Word)
  /-- CLOV_SYNC_ARM (R410): CLOV_SYNC_CMD.arm waits for an event unit's trigger to start the selected channels. -/
  | clovSyncArm (q : Req) (v : Word)
  /-- CLOV_SYNC_DISARM (R415): CLOV_SYNC_CMD.disarm cancels an arm. -/
  | clovSyncDisarm (q : Req) (v : Word)
  /-- CLOV_SYNC_TRIGGER (R410): The armed trigger arrives and the selected channels start 10 ns to 20 ns after the compare. -/
  | clovSyncTrigger (u : Fin 16)
  /-- CLOV_PMEM_DATA (R411): A write of CLOV_PMEM_DATA writes a program word, refused when its bank is in use. -/
  | clovPmemData (q : Req) (e : Fin 4) (v : Word)
  /-- CLOV_PMEM_DATA_INC (R415): A write of CLOV_PMEM_DATA_INC writes a program word and advances the address. -/
  | clovPmemDataInc (q : Req) (e : Fin 4) (v : Word)
  /-- CLOV_STEP (R415): In step mode a write to CLOV_STEP makes a channel execute its next turn. -/
  | clovStep (q : Req) (e : Fin 4) (v : Word)
  /-- MOVER_TRANSFER (R407): The queue mover moves one word between a Clove field queue and its ring in memory. -/
  | moverTransfer (e : Fin 4) (k : Fin 16) (tx : Bool)
  /-- MOVER_FAULT_CLEAR (R408): Writing 1 to a mover fault bit clears it and retries the same entry. -/
  | moverFaultClear (q : Req) (e : Fin 4) (k : Fin 16) (v : Word)
  /-- MAC_FRAME_RECEIVED (R419): A MAC receives a whole frame, checks it, and forwards it as segments or drops it. -/
  | macFrameReceived (m : Fin 5) (data : List Byte) (partOctet phyErr : Bool) (age : Nat) (inband : Option Nat)
  /-- MAC_SEGMENT_DELIVER (R422): A segment at FP8 or FP9 opens, extends or completes a frame assembly, or is discarded. -/
  | macSegmentDeliver (t1s : Bool)
  /-- MAC_TX_FRAME (R423): The transmitter sends a completed frame with preamble, padding and FCS, stamping it if asked. -/
  | macTxFrame (m : Fin 5) (deferred : Bool)
  /-- PAUSE_END (R423): The pause time of a received PAUSE runs out and transmission resumes. -/
  | pauseEnd
  /-- T1S_COLLISION (R426): A T1S MAC detects a collision, jams and backs off or discards the frame. -/
  | t1sCollision (c : Fin 4) (late : Bool)
  /-- T1S_BACKOFF_END (R426): The back-off ends and the MAC defers again before retrying. -/
  | t1sBackoffEnd (c : Fin 4)
  /-- MDIO_ACCESS (R432): xx_MDIO_ACC go starts a clause 22 management access. -/
  | mdioAccess (q : Req) (m : Fin 5) (v : Word)
  /-- MDIO_DONE (R432): A management access completes and go clears with the read result. -/
  | mdioDone (m : Fin 5) (data : Nat)
  /-- CNT_FREEZE (R428): xx_CNT_CMD.freeze copies all counters into the snapshot registers in one cycle. -/
  | cntFreeze (q : Req) (m : Fin 5) (v : Word)
  /-- CNT_CLEAR (R428): xx_CNT_CMD.clear with freeze sets the counters to 0 in the same cycle. -/
  | cntClear (q : Req) (m : Fin 5) (v : Word)
  /-- TXS_POP (R425): A read of xx_TXS_POP pops a transmit stamp. -/
  | txsPop (q : Req) (m : Fin 5) (mayPrefetch wide : Bool)
  /-- CIPHER_FRAME (R438): The cipher protects, checks or opens a frame at FP7 and returns it with cipher_done. -/
  | cipherFrame (ph : CiphPhase)
  /-- GLITCH_ALARM (R466): A voltage-glitch alarm erases the key store and raises source 67. -/
  | glitchAlarm
  /-- TAMPER_ALARM (R466): A tamper alarm erases the key store and raises source 68. -/
  | tamperAlarm
  /-- JOB_RING_TAIL (R444): Advancing CIPH_JRr_TAIL supplies job descriptors to a cipher ring. -/
  | jobRingTail (q : Req) (r : Fin 2) (v : Word)
  /-- CIPHER_JOB_COMPLETE (R445): A cipher memory job completes and writes its status word, or faults the ring. -/
  | cipherJobComplete (r : Fin 2)
  /-- JOB_RING_RESUME (R446): CIPH_JR_CMD resume restarts a faulted job from its start. -/
  | jobRingResume (q : Req) (v : Word)
  /-- JOB_RING_ABORT (R446): CIPH_JR_CMD abort completes the job with status 7 and stops the ring. -/
  | jobRingAbort (q : Req) (v : Word)
  /-- CIPH_MM_CMD (R468): CIPH_MM_CMD clears the mismatch capture. -/
  | ciphMmCmd (q : Req) (v : Word)
  /-- CIPH_KAT (R468): CIPH_KAT runs the known-answer tests on both pairs. -/
  | ciphKat (q : Req) (v : Word)
  /-- CIPH_KAT_DONE (R468): The known-answer tests complete with pass or fail, raising source 70 on failure. -/
  | ciphKatDone (pass : Bool)
  /-- KEY_APPLY (R456): KEY_CMD apply queues the update message in KEY_MSG for checking. -/
  | keyApply (q : Req) (v : Word)
  /-- KEY_SEND (R459): KEY_CMD send sends the message as a kind 0xB frame to one node. -/
  | keySend (q : Req) (v : Word)
  /-- KEY_OPEN_WRITE (R448): KEY_CMD open_write installs a key in an open slot in one step. -/
  | keyOpenWrite (q : Req) (v : Word)
  /-- KEY_OPEN_CLEAR (R469): KEY_CMD open_clear empties an open slot and revokes its descendants. -/
  | keyOpenClear (q : Req) (v : Word)
  /-- KEY_MESSAGE (R456): The store checks an update message from its queue and holds it for commit, applies a restore, or refuses it. -/
  | keyMessage
  /-- KEY_COMMIT (R457): KEY_COMMIT.commit applies the pending message, its counter and a ledger record. -/
  | keyCommit (q : Req) (v : Word)
  /-- KEY_COMMIT_ABORT (R457): KEY_COMMIT.abort ends the pending message with code 10. -/
  | keyCommitAbort (q : Req) (v : Word)
  /-- KEY_COMMIT_TIMEOUT (R457): commit_ms passes without a commit and the message ends with code 10. -/
  | keyCommitTimeout
  /-- KEY_CTR_LOCK (R457): Anise sets KEY_CTR_LOCK.locked, after which messages are accepted. -/
  | keyCtrLock (q : Req) (v : Word)
  /-- KEY_LOG_POP (R469): A read of KEY_LOG_POP pops a key store result. -/
  | keyLogPop (q : Req) (mayPrefetch wide : Bool)
  /-- FEED_CHANGE (R472): A feed becomes valid or invalid and the ideal diodes and feed-ready state follow. -/
  | feedChange (n : Fin 2) (valid : Bool) (mv : Nat)
  /-- PRESENCE_CHANGE (R480): A PRESn_N pin changes, stopping a feed within 10 µs when it goes high. -/
  | presenceChange (n : Fin 2) (low : Bool)
  /-- ORING_FAULT (R473): An ORing fault condition is met and source 104 is raised. -/
  | oringFault (n : Fin 2)
  /-- OVERVOLTAGE (R474): VIN rises above the overvoltage level and HSG is pulled off. -/
  | overvoltage
  /-- OVERVOLTAGE_END (R474): VIN falls below 37.0 V and the sequencer goes to CHECK. -/
  | overvoltageEnd
  /-- DEBOUNCE_END (R476): The debounce time elapses with feed ready and the sequencer goes to CHECK. -/
  | debounceEnd
  /-- RAMP_START (R475): CHECK finds VOUT below 80 % of VIN and the ramp starts. -/
  | rampStart
  /-- FET_SHORT (R475): VOUT stays at 80 % of VIN for 200 ms in CHECK and the sequencer latches off. -/
  | fetShort
  /-- ENHANCEMENT_BEGIN (R475): VOUT reaches VIN − 0.5 V and full enhancement begins. -/
  | enhancementBegin
  /-- GATE_ENHANCED (R475): HSG reaches VOUT + 4 V within 2 ms and the sequencer enters SETTLE. -/
  | gateEnhanced
  /-- GATE_NO_RISE (R475): The gate fails to enhance in time and the sequencer trips. -/
  | gateNoRise
  /-- LIMIT_ONSET (R477): The sense voltage reaches the current-limit threshold and the fault timer runs. -/
  | limitOnset
  /-- LIMIT_END (R477): The current leaves limit and the fault timer holds. -/
  | limitEnd
  /-- LIMIT_CLEAR (R477): The limit is inactive for 1 ms and the fault timer clears. -/
  | limitClear
  /-- HOTSWAP_TRIP (R475): The fault timer expires, HSG turns off and the sequencer enters COOL or LATCHED. -/
  | hotswapTrip
  /-- PGOOD_RELEASE (R478): The settle window completes with VOUT at 92 % and PGOOD and HPWR_EN are released. -/
  | pgoodRelease
  /-- PGOOD_LOW (R475): VOUT falls below 85 % of VIN and PGOOD is pulled low. -/
  | pgoodLow
  /-- COOLDOWN_END (R475): The cool-down ends and the sequencer goes to CHECK or WAIT. -/
  | cooldownEnd
  /-- RETRY_CLEAR (R479): PGOOD has stayed released for retry_clear_s and the retry count returns to 0. -/
  | retryClear
  /-- CLEAR_RETRIES (R479): PD_HS_CMD.clear_retries sets the retry count to 0. -/
  | clearRetries (q : Req) (v : Word)
  /-- HOLDCAP_LOW (R481): HOLDCAP falls below 3.0 V and the power die resets. -/
  | holdcapLow
  /-- PD_OTP_PROGRAM (R471): PD_OTP_PROG.program stores PD_HS_CFG in the next OTP row. -/
  | pdOtpProgram (q : Req) (v : Word)
  /-- SUPPLY_DIP (R484): A supply dips below warning and recovers, setting its dip flag and raising source 105. -/
  | supplyDip (n : Fin 6) (low : Option Nat) (us : Nat)
  /-- BROWNOUT (R485): VCORE or VDD18 crosses its reset level and the hub die takes a cold reset with HPWR_EN held low 10 ms. -/
  | brownout (n : Fin 2)
  /-- VIOF_RESET_LEVEL (R485): A VIOFc supply crosses its reset level, raising source 106 and holding the cluster's pins high-impedance. -/
  | viofResetLevel (c : Fin 4)
  /-- BANK_SUPPLY_OK (R484): A VIOFc supply has been above warning for 1 ms and supply_ok returns to 1. -/
  | bankSupplyOk (c : Fin 4)
  /-- PD_WRITE_ACK (R9): The power die acknowledges a forwarded write, which completes with status 0x0. -/
  | pdWriteAck
  /-- PD_WRITE_RESEND (R486): An unacknowledged die-link write is sent again with the same sequence number. -/
  | pdWriteResend
  /-- MIRROR_COMPARE (R487): Every 10 ms the hub die compares its mirror and replaces differing words. -/
  | mirrorCompare (upset : List (Nat × Word))
  /-- DIE_LINK_SILENT (R488): No valid frame for 10 ms declares silence and the outputs take their link-loss states. -/
  | dieLinkSilent
  /-- DIE_LINK_RESTORED (R488): The link returns, the mirror is refreshed and pending sources are raised. -/
  | dieLinkRestored
  /-- DI_EDGE (R490): A filtered edge on a discrete input is counted, recorded and may wake the hub. -/
  | diEdge (n : Fin 16) (level : Bool)
  /-- DO_SHORT (R492): An output in limit for 200 µs or at thermal shutdown is latched off. -/
  | doShort (n : Fin 16) (overtemp : Bool)
  /-- DO_OPEN_LOAD (R492): An on output carries less than 5 mA for 10 ms and its open bit is set. -/
  | doOpenLoad (n : Fin 16)
  /-- DO_TIMED_FIRE (R493): An event unit trigger switches an armed output to its level. -/
  | doTimedFire (u : Fin 16)
  /-- PD_DIO_SET (R488): A write to PD_DIO_SET sets output bits and ends the group's link-loss state. -/
  | pdDioSet (q : Req) (g : Fin 4) (v : Word)
  /-- PD_DIO_CLR (R488): A write to PD_DIO_CLR clears output bits and ends the group's link-loss state. -/
  | pdDioClr (q : Req) (g : Fin 4) (v : Word)
  /-- PD_DIO_OUT_WRITE (R492): A write to PD_DIO_OUT sets requested outputs, unlatches outputs written 0 and ends link loss. -/
  | pdDioOutWrite (q : Req) (g : Fin 4) (v : Word)
  /-- PD_TEMPERATURE_HIGH (R497): The power-die temperature exceeds 135 °C and source 110 is raised. -/
  | pdTemperatureHigh
  /-- FAULT_EVENT (R504): A source raises, is counted, classified minor or severe, and its reaction level is applied. -/
  | faultEvent (src : Fin 127) (page master node type size addr : Nat)
  /-- ERROR_PAIR_EQUAL (R500): An error-wire pair reads equal for one cycle and source 127 is raised. -/
  | errorPairEqual (src : Fin 127) (page : Nat)
  /-- ERROR_PAIR_STUCK (R500): A pair stays equal for 64 cycles and the source carried on it is raised once. -/
  | errorPairStuck (src : Fin 127) (page : Nat)
  /-- FLT_ACK (R506): A write of FLT_ACK acknowledges classes, ending their pending state. -/
  | fltAck (q : Req) (v : Word)
  /-- FLT_CAP_CLR (R508): FLT_CAP_CLR clears a class's first-error capture. -/
  | fltCapClr (q : Req) (v : Word)
  /-- FLT_ERRN_CLR (R510): A Warden FLT_ERRN_CLR releases ERR_N. -/
  | fltErrnClr (q : Req) (v : Word)
  /-- LEVEL5_RESET (R505): After staging and ERR_N, the warm reset of a level 5 reaction begins on the acknowledgement or after 20 µs. -/
  | level5Reset
  /-- LEDGER_FLUSH_DONE (R517): A flush completes, or fails and is retried, raising source 115 on failure. -/
  | ledgerFlushDone (failed : Option Nat)
  /-- LEDG_ANCHOR (R519): LEDG_CMD anchor resumes the chain from the resume registers. -/
  | ledgAnchor (q : Req) (v : Word)
  /-- LEDG_FRESH (R519): LEDG_CMD fresh starts the partition with a type 0x60 entry at offset 0. -/
  | ledgFresh (q : Req) (v : Word)
  /-- LEDG_FLUSH_NOW (R517): LEDG_CMD flush_now starts a flush at once. -/
  | ledgFlushNow (q : Req) (v : Word)
  /-- LEDG_NOTE (R512): LEDG_CMD note stages a type 0x70 entry from the note registers. -/
  | ledgNote (q : Req) (v : Word)
  /-- COLD_RESET (R523): A cold cause stops the hub die, clears its classes and memory, samples straps and starts Cumin. -/
  | coldReset (cause : Fin 4)
  /-- WARM_RESET (R523): A warm cause stops the hub die, clears the warm classes and starts Cumin. -/
  | warmReset (cause : Fin 5)
  /-- RESET_N (R525): RESET_N held low for 1 µs causes a warm reset. -/
  | resetN
  /-- POWER_DIE_RESET (R522): The power die resets, clearing every class P field and restarting the hub die cold. -/
  | powerDieReset
  /-- CHIP_RESET (R538): A Warden RST_CMD.chip_reset with key 0xC3 causes a warm reset. -/
  | chipReset (q : Req) (v : Word)
  /-- WDT_ENABLE (R528): Setting RST_WDT_CFG.enable starts watchdog stage 1. -/
  | wdtEnable (q : Req) (v : Word)
  /-- WDT_KICK (R528): A write of 0xA55A to RST_WDT_KICK by an allowed requester restarts stage 1. -/
  | wdtKick (q : Req) (v : Word)
  /-- WDT_STAGE1_EXPIRE (R528): Stage 1 expires, raising source 113 and starting stage 2. -/
  | wdtStage1Expire
  /-- WDT_STAGE2_EXPIRE (R528): Stage 2 expires and the hub takes a warm reset with cause watchdog. -/
  | wdtStage2Expire
  /-- PWR_CMD (R531): A Warden PWR_CMD is checked and, if accepted, the hub enters the target level step by step. -/
  | pwrCmd (q : Req) (v : Word)
  /-- HUSH_ENTER (R530): After hush_us without activity the hub enters L1. -/
  | hushEnter
  /-- HUSH_EXIT (R530): Activity or an interrupt returns the hub from L1 to L0. -/
  | hushExit
  /-- WAKE (R534): An enabled wake source wakes the hub from L2 to L6 and the exit steps run. -/
  | wake (codes : List (Fin 8)) (b0 b1 : Nat)
  /-- WAKE_TIMER_EXPIRE (R534): PWR_WAKE_TIMER or PD_L6_WAKE expires and wakes the hub. -/
  | wakeTimerExpire (b0 b1 : Nat)
  /-- PLL_UNLOCK (R540): A clocked-island PLL loses lock and source 118 is raised. -/
  | pllUnlock (pll : Fin 3)
  /-- REFCLK_FAULT (R540): The reference clock is absent or outside ±200 ppm and source 119 is raised. -/
  | refclkFault (ppm : Option Nat)
  /-- CHIP_TEMP_CMD (R588): CHIP_CMD clears CHIP_TEMP_MAX. -/
  | chipTempCmd (q : Req) (v : Word)
  /-- CHIP_TEMP_HIGH (R588): CHIP_TEMP passes 115 °C or 130 °C, raising source 125 or 126. -/
  | chipTempHigh (t : Nat)
  /-- CUMIN_START (R548): Cumin reads OTP and straps, chooses and verifies an image, measures it and starts Anise or recovery. -/
  | cuminStart (otpBad : Bool) (bad : Nat)
  /-- FWU_OPEN (R550): FWU_CMD open begins a session and erases the inactive slot or clears the load area. -/
  | fwuOpen (q : Req) (v : Word)
  /-- FWU_ERASE_DONE (R550): The erase of the inactive slot completes and erasing clears. -/
  | fwuEraseDone
  /-- FWU_WRITE (R552): FWU_CMD write checks and writes the update block at FWU_BLK_ADDR. -/
  | fwuWrite (q : Req) (v : Word) (bad : Bool)
  /-- FWU_COMMIT (R555): FWU_CMD commit verifies the image in the inactive slot and sets commit_ok. -/
  | fwuCommit (q : Req) (v : Word) (bad : Bool)
  /-- FWU_ACTIVATE (R556): FWU_CMD activate writes a boot control record with a trial of the inactive slot. -/
  | fwuActivate (q : Req) (v : Word)
  /-- FWU_HANDOVER (R560): FWU_CMD handover starts a hitless handover to the committed image, or is refused. -/
  | fwuHandover (q : Req) (v : Word)
  /-- FWU_CONFIRM (R557): FWU_CMD confirm by Anise makes the image's slot active and may raise svn. -/
  | fwuConfirm (q : Req) (v : Word)
  /-- FWU_LOAD (R562): FWU_CMD load verifies the image in the load area and starts it. -/
  | fwuLoad (q : Req) (v : Word)
  /-- FWU_SEND (R553): FWU_CMD send sends a block to a remote hub as kind 0xC fragments. -/
  | fwuSend (q : Req) (v : Word)
  /-- FWU_ABORT (R550): FWU_CMD abort ends the session. -/
  | fwuAbort (q : Req) (v : Word)
  /-- FW_FRAGMENT_RECEIVED (R554): A firmware fragment is assembled into a block, which is handled like a host block when complete. -/
  | fwFragmentReceived (bad : Bool)
  /-- FW_ASSEMBLY_TIMEOUT (R554): A block not complete 100 ms after its first fragment is discarded. -/
  | fwAssemblyTimeout
  /-- CONFIRM_TIMEOUT (R558): An unconfirmed image is rolled back after 10 s by warm reset or handover. -/
  | confirmTimeout
  /-- HANDOVER_READY (R560): ANI_HANDOVER.ready, or 10 ms, makes FWU stop Anise and copy the new body. -/
  | handoverReady (q : Req) (v : Word)
  /-- HANDOVER_TIMEOUT (R560): The old firmware has not written ready within 10 ms and FWU stops Anise. -/
  | handoverTimeout
  /-- HANDOVER_COPY_DONE (R560): The body copy and check complete and FWU starts Anise at the entry, or rolls back. -/
  | handoverCopyDone (bad : Nat)
  /-- HANDOVER_RESUMED (R560): The new firmware writes ANI_HANDOVER.resumed and handover_active clears. -/
  | handoverResumed (q : Req) (v : Word)
  /-- FWU_MEAS_EXT (R549): A Warden write of FWU_MEAS_EXT extends MEAS2 or MEAS3. -/
  | fwuMeasExt (q : Req) (v : Word)
  /-- XSPI_TIMEOUT (R566): An xSPI device does not respond within its timeout and source 120 is raised. -/
  | xspiTimeout
  /-- MAILBOX_DOORBELL (R564): A host's doorbell write starts Anise acting on its mailbox request, or is a violation or repeat. -/
  | mailboxDoorbell (q : Req) (h : Fin 2) (v : Word)
  /-- MAILBOX_VERSION (R564): Mailbox code 0x0001 returns image, state and Cumin versions. -/
  | mailboxVersion (h : Fin 2)
  /-- MAILBOX_HEALTH (R564): Mailbox code 0x0002 returns health registers. -/
  | mailboxHealth (h : Fin 2)
  /-- APPLY_CONFIGURATION (R564): Mailbox code 0x0010 applies a configuration record from CS0. -/
  | applyConfiguration (h : Fin 2) (ok : Bool) (writes : List (Nat × Word))
  /-- SAVE_RESTORE_AREA (R564): Mailbox code 0x0011 writes the firmware restore area. -/
  | saveRestoreArea (h : Fin 2) (data : List Byte)
  /-- SERVO_STATE (R564): Mailbox code 0x0020 returns the servo state. -/
  | servoState (h : Fin 2)
  /-- RESTORE_KEYS (R564): Mailbox code 0x0030 restores the sealed slots. -/
  | restoreKeys (h : Fin 2)
  /-- ENTER_LEVEL (R564): Mailbox code 0x0040 makes Anise save and write PWR_CMD. -/
  | enterLevel (h : Fin 2)
  /-- MAILBOX_HANDOVER (R564): Mailbox code 0x0050 makes Anise write FWU_CMD.handover for a Warden host. -/
  | mailboxHandover (h : Fin 2)
  /-- MAILBOX_ACK (R564): ANI_MB_ACK clears a mailbox's done flag. -/
  | mailboxAck (q : Req) (v : Word)
  /-- EXTEST (R582): The EXTEST instruction drives pins from the boundary register. -/
  | extest
  /-- IDCODE (R582): The IDCODE instruction selects the identification register. -/
  | idcode
  /-- SAMPLE_PRELOAD (R582): The SAMPLE/PRELOAD instruction samples and preloads the boundary register. -/
  | samplePreload (pins load : List Bool)
  /-- HIGHZ (R582): The HIGHZ instruction places outputs in high impedance. -/
  | highz
  /-- CLAMP (R582): The CLAMP instruction holds pins from the boundary register with bypass selected. -/
  | clamp
  /-- EXTEST_PULSE (R582): The IEEE 1149.6 EXTEST_PULSE instruction tests AC-coupled lanes. -/
  | extestPulse
  /-- EXTEST_TRAIN (R582): The IEEE 1149.6 EXTEST_TRAIN instruction tests AC-coupled lanes with a train. -/
  | extestTrain
  /-- BYPASS (R582): The BYPASS instruction, and every unknown code, selects the bypass register. -/
  | bypass (code : BitVec 8)
  /-- TX_CLOCK_LOCKED (R58): The ring PCS transmit clock achieves lock to its chosen source, setting tx_clock_locked and switching the elastic buffer from slot compensation to slip detection. -/
  | txClockLocked (r : Fin 2)
  /-- RESPONSE_CACHE_UNPROTECT (R259): A response cache entry's 2^16-slot protection expires, so a request waiting at FP6 for an entry can take it. -/
  | responseCacheUnprotect (src flow tag : Nat)
  /-- POSTED_ENTRY_AGED (R261): A posted-destination table entry with no write in flight becomes older than 2^age_k slots and replaceable, releasing a posted write waiting for a new node. -/
  | postedEntryAged (b : Fin 18) (node : Nat)
  /-- PCIE_LINK_CHANGE (R279): A host port's PCI Express link trains up or leaves DL_Active, updating HBx_STATUS and link up, and raising source 34 or 35 on loss. -/
  | pcieLinkChange (h : Fin 2) (ltssm : Fin 6) (gen2 up : Bool)
  /-- INBAND_STATUS_CHANGE (R417): The RGMII in-band status reports a change of link, speed or duplex, updating EMAC_STATUS, setting PG_IRQ_STAT bit 6 and raising source 112 for half duplex. -/
  | inbandStatusChange (st : Fin 16)
  /-- SUPPLY_BELOW_WARNING (R484): A supervised supply falls below its warning level, clearing PMUX_BANK.supply_ok for VIOFc and signalling the pace gauge for VCORE. -/
  | supplyBelowWarning (n : Fin 6)
  /-- DIE_LINK_PUSH (R486): The hub die takes a die-link heartbeat or push frame, updating the mirror and restarting the silence timer, or drops and counts a frame with a CRC error. -/
  | dieLinkPush (crcError : Bool) (words : List (Nat × Word))
deriving DecidableEq, Repr

end Sys2Proof
end

