-- ==== Sys2Proof/Machine/State.lean ====
section
/-! DEFINITION. The state of the hub as plain data, and the reset state. Registers are one sparse store keyed by their place in
the register map (page * 0x1000 + offset), whose defaults are the reset values; what the spec gives the hub beside its
registers stands in the structures below. -/
namespace Sys2Proof.Machine

/-- What stops the hub's model for good: nothing in the spec does, so no meaning raises a fault. -/
inductive Fault where
  /-- raised by no command (safe): every command of the table has an effect -/
  | none
deriving DecidableEq, Repr

/-- Why a command has no meaning here. -/
inductive Refusal where
  /-- raised by an arm of the dispatch whose command has no meaning yet (safe); no arm does -/
  | notModelled (mnemonic : String)
deriving DecidableEq, Repr

/-- Where the completion of a request goes. -/
inductive Cont where
  | done (q : Req)              -- to the requester itself
  | host (h id part : Nat)      -- piece `part` of PCI Express request `id` of host port h (R247)
  | posted (h fab win : Nat)    -- a posted write of host port h to this hub, with its fabric address: only a failure is reported (R267, R268)
  | qspi (h : Nat)              -- the result buffer of host port h (R252)
  | npost (h win : Nat)         -- a non-posted write from a PCI Express posted write of host port h: only a failure is recorded
  | dma (c : Nat)               -- DMA channel c (R299)
  | atom (id : Nat)             -- a step of atomic `id` (R264)
  | ring (f : Frame)            -- the requester of ring request f (R256)
  | here (h win : Nat) (c : Cont) -- a non-posted access of host port h to this hub: a failure is recorded first (R257)
  | drop
deriving DecidableEq, Repr

/-- A frame taken off a ring, with its discard mark (R71, R74). -/
structure Taken where
  frame : Frame
  bad : Bool
  ic : Nat := 0                 -- its receive stamp, raw: the island count (R222)
  tb : Nat := 0                 -- and TB0, in nanoseconds
deriving DecidableEq, Repr

/-- A frame waiting in a transit buffer or a local queue of a port, with how its tail is to be sent. -/
structure Queued where
  frame : Frame
  tail : TailKind
  crc : Word       -- the trailer to send (R66, R72)
  since : Option Int := none -- where the time until it leaves is added to its correction: the instant from which it counts, in 0.1 ns of the
                             -- island count (R68, R226)
deriving DecidableEq, Repr

/-- What a ring port holds beside its registers (R57, R61, R70, R71, R76). -/
structure PortSt where
  peerSeen : Bool := false      -- a valid TRAIN has been received in LOCK or ALIGN (R76)
  peerReady : Bool := false     -- ready of the last TRAIN received
  slotSets : Nat := 0           -- SLOT sets received 16 blocks apart in ALIGN
  bareSlots : Nat := 0          -- consecutive slots with nothing of R57 in block 0
  padForce : Nat := 0           -- the pad in force (R61)
  padPending : Bool := false    -- a pad written while UP has not taken effect
  failRaised : Bool := false    -- the module fault has been raised for this entry to MODULE (R81)
  takeoff : List Taken := []    -- the take-off buffer, oldest first (R71)
  transit : List Queued := []   -- the transit buffer, oldest first (R70)
  inProgress : Nat := 0         -- slots that the frame on the output still occupies
  slotAt : Option Nat := none   -- the slot last begun at this port, none before the first (R70, R198)
  localQ : List Queued := []    -- local frames of classes 1 to 3, oldest first (R70 item 5)
  bulkWait : Nat := 0           -- slots since the last bulk frame (R198)
  fresh : Nat := 0              -- slots since the last local start before ring ready (R60)
  modAbs : Bool := false        -- level of xx_MOD_ABS, high = module absent
  txFault : Bool := false       -- level of xx_TX_FAULT
  los : Bool := false           -- level of xx_LOS
  fixed : Nat := 0              -- the fixed part of the transit delay since entry to UP, in 0.1 ns (R69)
  reqAt : Option Nat := none    -- the raw send stamp of the DELAY_REQ that waits for its answer (R96, R222)
  diag : Bool := false          -- the module declares diagnostics: byte 92 bit 6 as last read (R80)
deriving DecidableEq, Repr

/-- A sequence window (R104). -/
structure SeqWin where
  top : Nat := 0xFFFF
  window : Nat := 0xFFFFFFFFFFFFFFFF
  oldRun : Nat := 0
deriving DecidableEq, Repr

/-- A ring-control message taken off and waiting for ring control (R85, R87, R88). -/
structure RcMsg where
  port : Nat
  src : Nat
  payload : List Byte
  stamp : Nat := 0              -- its raw receive stamp, in the island count (R222)
deriving DecidableEq, Repr

/-- What ring control of one attachment holds beside RCTL_x registers (R89 to R120). -/
structure RcSt where
  best : Nat := 0               -- best claim (R88, R91)
  bestReady : Bool := false     -- it was advertised by a ready master
  numbered : Bool := false      -- the hub has a station number
  count : Nat := 0              -- N, up to 256 (R94)
  openNum : Bool := false       -- the ring was numbered open (R94)
  pass : Bool := false          -- the master runs a kept NUMBER pass and waits for its REPORTs (R103, R115)
  off0 : Option Int := none     -- offset on path 0 in 0.1 ns, as this numbering gave it (R97)
  off1 : Option Int := none     -- offset on path 1
  expect : List Nat := []       -- stations whose REPORT the master waits for
  pads : List Nat := []         -- the pads of the last READY sent (R98)
  masterClaim : Nat := 0        -- claim of the present master
  end0 : Option Nat := none     -- END count of path 0
  end1 : Option Nat := none     -- END count of path 1
  exch : List (Nat × Int) := [] -- delay exchanges done: port, one-way delay in 0.1 ns (R96)
  linkE : Option Int := none    -- link delay into East
  linkW : Option Int := none    -- link delay into West
  heldNumber : List (Nat × NumberMsg) := []  -- NUMBERs waiting for the link delay of their port
  heldReport : Bool := false    -- a REPORT waits for a link delay
  reports : List Report := []   -- REPORTs the master has collected
  neighbours : List (Nat × Nat × Nat) := []  -- station, its West and its East neighbour at the last numbering (R101)
  uids : List (Nat × Nat) := [] -- station and unique ID as reported (R100)
  windows : List (Nat × SeqWin) := []        -- one sequence window per source station (R86)
  seq : Nat := 0                -- routed frames sent (R86)
  beaconNo : Nat := 0           -- beacon number (R101)
  misses : Nat := 0             -- consecutive BEACONs missed (R115)
  readyAt : Option Nat := none  -- the slot count at ring ready while the ring is in its first epoch (R89, R102)
  passTable : Bool := false     -- the kept pass ends with TABLE as well (R113 step 7)
  tookOver : Bool := false      -- a quiet takeover's NUMBER pass is not over: its READY brings re-admission (R199)
  broken : List Broken := []    -- spans marked broken (R107, R109)
  healedPeer : List Nat := []   -- ports whose peer has sent HEALED (R112)
  outOfService : List Nat := [] -- ports up again and not yet healed (R111)
  demote : Option (DemoteMsg) := none        -- a DEMOTE waiting for its effect slot (R113)
  sleepEpochs : Option Nat := none           -- epoch boundaries still to pass before sleep (R120)
  inbox : List RcMsg := []
  heldTime : List (Nat × Frame × Nat × Nat) := []  -- time messages waiting for the link delay of their port: port, frame, receive stamps (R96)
deriving DecidableEq, Repr

/-- The claim that a ring requester presents, with the attachment on which its write arrived (R274, R285). -/
structure RingClaim where
  node : Nat
  claim : Nat
  att : Nat
deriving DecidableEq, Repr

/-- The claims presented for one resource (R274). -/
structure ClaimSt where
  hostA : Nat := 0
  hostB : Nat := 0
  anise : Nat := 0
  ring : List RingClaim := []     -- at most two
deriving DecidableEq, Repr

/-- One hardware semaphore (R278): holder and waiters, each a requester; the lock token of a ring holder (R265). -/
structure SemSt where
  holder : Option Req := none
  waiters : List (Req × Cont) := []   -- with where the grant goes
  token : Nat := 0
deriving DecidableEq, Repr

/-- The heartbeat watch of one host (R276, R277). -/
structure BeatSt where
  beaten : Bool := false      -- the present window has a beat
  good : Nat := 0             -- consecutive beaten windows while forced
  period : Nat := 0           -- period of the present window, ms
deriving DecidableEq, Repr

/-- A time base: 48-bit seconds, nanoseconds, and the fraction of a nanosecond in units of 2^-40 ns (R214, R216). -/
structure BaseSt where
  sec : Nat := 0
  ns : Nat := 0
  frac : Nat := 0
  inc : Nat := 0x40000000000    -- the increment in force, in 2^-40 ns (R216)
  step : Option Int := none     -- a step that applies at the next tick, ns (R219)
deriving DecidableEq, Repr

/-- A fraction, not reduced: the servo's frequency estimate (R230). -/
structure Frac where
  num : Int := 0
  den : Nat := 1
deriving DecidableEq, Repr

/-- A two-step residence posted to Anise (R235): messageType, sequenceId and sourcePortIdentity of the event message, and the residence in
units of 2^-16 ns. -/
structure Residence where
  type : Nat
  seq : Nat
  port : List Byte
  time : Int
deriving DecidableEq, Repr

/-- The servo of TB0 and the time island (R217, R230, R231). -/
structure ServoSt where
  y : Frac := {}                -- the frequency estimate
  sum : Int := 0                -- offsets gathered in this epoch, in 1/655360 ns
  n : Nat := 0                  -- how many
  good : Nat := 0               -- consecutive updates within lock_ns
  bad : Nat := 0                -- consecutive updates beyond 4 * lock_ns
  srcLocked : Bool := false     -- source_locked of the source's last message
  srcUid : Nat := 0             -- unique ID of the source's master
  seq0 : Nat := 0               -- transmit sequence of flow 0xF4F0 (R225)
  seq1 : Nat := 0               -- transmit sequence of flow 0xF4F1
  island : Nat := 0             -- the island count (R217)
  cap : List Nat := []          -- the capture FIFO, oldest first (R238)
  capLost : Bool := false       -- captures were lost since the last one stored
  edgeAt : List (Nat × Nat) := [] -- 1 + island time of each event unit's last captured edge, sparse (R224)
  evtLevel : List (Nat × Bool) := [] -- the level each event unit's compare drives, before the pin's invert (R239)
  pulses : List (Nat × Nat) := []    -- 1 + island time at which each unit's pulse ends, sparse (R239)
  lateUnits : List Nat := []         -- armed units whose time a write has placed at or before their base (R243)
  trigs : List (Nat × Bool) := []    -- trigger lines driven and not yet delivered: unit, true for Clove (R240)
  residences : List Residence := []  -- two-step residences posted and not matched (R235)
deriving DecidableEq, Repr

/-- An entry of the TLB (R291). -/
structure TlbEnt where
  page : Nat
  space : Nat
  lo : Word
  hi : Word
deriving DecidableEq, Repr

/-- What the lookup of a frame took from its flow's context: the frame finishes under it, whatever the context becomes (R13). -/
structure HeldCtx where
  flow : Nat
  role : Nat
  keyEn : Bool
  key : Nat
  port : Nat
  queue : Nat
  lost : Bool := false          -- cnt_discarded has counted the frame: the cipher sent it on with discard (R439, R443)
deriving DecidableEq, Repr

/-- A cell that holds space in a bank, as the limits and caps count it: its input, output, class and middle (R142, R144). -/
structure BankCell where
  inp : Nat
  out : Nat
  cls : Nat
  mid : Nat
deriving DecidableEq, Repr

/-- A frame at a fabric port: presented at an input (R132), waiting at it for its context (R169) or for a system window (R179), or
delivered at an output and not taken yet (R141). `orig` is the port that originated it and `level` the rank of its sender's level
(R14, R283). -/
structure Delivered where
  inp : Nat
  frame : Frame
  discard : Bool
  cipherDone : Bool
  orig : Nat := 0
  level : Nat := 2
  untrusted : Bool := false     -- its authentication failed (R442)
  held : Option HeldCtx := none -- the context it was looked up under (R13)
  rx : Option (Nat × Nat) := none -- its raw receive stamps at a ring port: island count, TB0 nanoseconds (R222)
  came : Nat := 0               -- TB0 nanoseconds when its first cell reached egress (R305)
  waited : Bool := false        -- it has waited for a system window, and FLOW_CNT_SYS_FULL has counted it (R179)
  bank : List BankCell := []    -- the cells that it still holds in the banks, until its endpoint has taken them (R142)
deriving DecidableEq, Repr

/-- What the pager is asked to do: a miss of a flow, or the eviction that a create needs (R164, R170). -/
inductive Job where
  | fetch (flow : Nat)
  | evict
deriving DecidableEq, Repr

/-- A job in service: what it is, the context slot it will fill, and whether that slot's victim is being written back. -/
structure PagerJob where
  job : Job
  slot : Nat
  victim : Option Nat := none   -- the victim's flow while its write-back runs
deriving DecidableEq, Repr

/-- An entry of the system window cache (R179). -/
structure SysWin where
  src : Nat
  flow : Nat
  win : SeqWin
  last : Nat                    -- slot count of its last frame
  guarded : Bool
  posted : Nat := 0             -- posted writes performed since the last ack (R266)
  ackSeq : Nat := 0             -- sequence of the last of them
  node : Nat := 0               -- this hub's node ID that it was addressed to
deriving DecidableEq, Repr

/-- A view hold (R166). -/
structure Hold where
  q : Req
  flow : Nat
  epochs : Nat                  -- epoch boundaries until it lapses
deriving DecidableEq, Repr

/-- The context manager beside its registers and memories (R164 to R179). -/
structure FlowSt where
  slots : List (Nat × Nat) := []     -- context slot and flow ID + 1; 0 is free
  total : Nat := 0                   -- flows that exist
  used : List (Nat × Nat) := []      -- context slot and its last-use mark
  clock : Nat := 0                   -- marks given
  dirty : List (Nat × Bool) := []    -- slots changed since their fetch or creation (R170)
  stuck : List (Nat × Bool) := []    -- slots whose write-back faulted (R173)
  misses : List Job := []            -- misses pending, oldest first
  job : Option PagerJob := none
  waiting : List Delivered := []       -- frames waiting at the inputs, oldest first
  hold : Option Hold := none
  retries : List Nat := []           -- flows whose fetch has faulted and waits for its retry (R173)
  noVictim : List Job := []          -- the misses counted in FLOW_CNT_NO_VICTIM and not served yet (R172)
  again : List Nat := []             -- flows whose re-admission failed with code 0x02 alone (R199)
  wait : Option (Nat × Nat) := none  -- the flow command that fetches, evicts or writes back: op and flow (R164)
  waitFault : Bool := false          -- its backing-store access has faulted (R165 code 7)
  load : Option (Req × Nat) := none  -- the view load that fetches: requester and flow (R166)
  fresh : List (Nat × Bool) := []    -- paged-out flows enabled since, whose window starts anew at their fetch (R161, R164)
  sys : List SysWin := []            -- most recently used first
deriving DecidableEq, Repr

/-- A TABLE set that is being assembled (R188, R190). -/
structure Assembly where
  id : Nat
  n : Nat
  stations : Nat
  effect : Nat
  count : Nat
  crc : Word
  frags : List (Nat × List Byte)
deriving DecidableEq, Repr

/-- A complete table that waits for its effect slot (R190, R192). -/
structure TablePend where
  id : Nat
  n : Nat
  effect : Nat
deriving DecidableEq, Repr

/-- The timetable of one attachment beside its registers and memory (R190 to R197). -/
structure TtbSt where
  asm : Option Assembly := none
  pend : Option TablePend := none
  due : Option Nat := none           -- effect slot count of a set that is not complete
  swap : Option Nat := none          -- the period boundary at which TTB_EXP_SWAP acts, a slot count modulo 2^20 (R213)
  sentEffect : Option Nat := none    -- the master has distributed, with this effect (R189)
  store0 : List (Nat × Queued) := [] -- class 0 transmit store of the East port: flow and frame, oldest first (R196)
  store1 : List (Nat × Queued) := [] -- of the West port
deriving DecidableEq, Repr

/-- A cell (R126). -/
structure FCell where
  inp : Nat
  out : Nat
  cls : Nat
  first : Bool
  last : Bool
  discard : Bool
  cipherDone : Bool
  orig : Nat
  level : Nat
  untrusted : Bool := false
  held : Option HeldCtx := none -- the context that its frame was looked up under (R13)
  rx : Option (Nat × Nat) := none -- the receive stamps of its frame (R222)
  data : List Byte
  tag : Nat := 0
  mid : Nat := 0
  seated : Bool := false
  send : Nat := 0               -- the round booked for its send (R135), plus 1; 0 while none is booked
  exit : Nat := 0               -- the round booked for its exit
  came : Nat := 0               -- TB0 nanoseconds when it reached egress (R305)
  seen : Nat := 0               -- the round before which it was presented to the aim rule, plus 1; 0 before that
deriving DecidableEq, Repr

/-- One class at an output's egress: cells released and not read yet, and those of the frame in progress (R141). -/
structure EgressSt where
  queue : List FCell := []
  got : List FCell := []
deriving DecidableEq, Repr

/-- A stream of the resequencer (R138, R139). -/
structure StreamSt where
  next : Nat := 0
  outst : Nat := 0
  e : Nat := 0
  held : List FCell := []       -- descriptors held, with their tags
deriving DecidableEq, Repr

/-- The fabric core (R126 to R147). -/
structure FabSt where
  round : Nat := 0                          -- the next round number; FAB_ROUND shows its low 32 bits
  inputs : List (Nat × List FCell) := []    -- cells presented at an input, in order
  mids : List (Nat × List FCell) := []      -- cells queued in a middle, in order of entry
  streams : List (Nat × StreamSt) := []     -- key (input * 16 + output) * 4 + class
  egress : List (Nat × EgressSt) := []      -- key output * 4 + class
  rr : List (Nat × Nat) := []               -- key input * 4 + class: output served last
  lastSent : List (Nat × Nat) := []         -- key input * 4 + class: round of the last cell + 1
  src : List (Nat × List Delivered) := []   -- frames that the hub's own blocks present at an input, oldest first
  ports : List (Nat × List Delivered) := [] -- frames delivered to a port and not taken yet, oldest first
  trace : List Nat := []                    -- trace items, oldest first
deriving DecidableEq, Repr

/-- A slot of the Saffron store (R448 to R452). -/
structure KeySlot where
  st : Nat := 0                 -- state code (R452)
  key : List Byte := []         -- 32 octets, octet 0 first
  attr : Nat := 0               -- 64 bits (R449)
  label : List Byte := []       -- the label of a QRN-40 slot (R462)
  left : Nat := 0               -- uses remaining
  depth : Nat := 0
deriving DecidableEq, Repr

/-- The pace gauge and loop (R148 to R152). -/
structure PaceSt where
  shed : Fin 3 := 0             -- shedding level
  calm : Nat := 0               -- consecutive readings at or below the exit threshold
  above : Nat := 0              -- consecutive readings above raise_at
  settling : Bool := false
  noHead : Bool := false        -- the run of readings of source 9
  below : Bool := false         -- the lower_ms window runs
deriving DecidableEq, Repr

/-- A write on its way over the die link (R9, R486). -/
structure PdWrite where
  q : Req
  addr : Nat
  value : Word
  cont : Cont
deriving DecidableEq, Repr

/-- An access that its register page has not served yet (R27, R31): who makes it, its local address, what it is, and where its completion
goes. -/
structure HeldAcc where
  q : Req
  addr : Nat
  op : AccOp
  cont : Cont
deriving DecidableEq, Repr

/-- A non-posted request of a bridge (R255 to R260): kind, target, data, attributes and where its completion goes. -/
structure NpReq where
  tag : Nat := 0
  kind : Nat
  node : Nat
  addr : Nat
  len : Nat
  data : List Byte
  win : Nat
  cls : Nat
  pf : Bool := false
  retry : Nat := 0
  lock : Option Nat := none     -- the lock token of a locked request (R264)
  op : Nat := 0                 -- kind 0xA: 1 acquire-wait, 2 acquire-try, 3 release
  cont : Cont
deriving DecidableEq, Repr

/-- An entry of the posted-destination table (R261). -/
structure PdtEnt where
  node : Nat
  seq : Nat
  n : Nat                       -- posted writes in flight
  aged : Bool := false          -- older than 2^age_k slots since its last posted write
  win : Nat := 31
deriving DecidableEq, Repr

/-- What a bridge remembers of a posted write it sent, for its error notice (R267, R268). -/
structure Posted where
  tag : Nat
  win : Nat
  seq : Nat
  node : Nat
  bcast : Bool
deriving DecidableEq, Repr

/-- A posted write that waits for an entry of the posted-destination table (R261). -/
structure PostWait where
  node : Nat
  addr : Nat
  data : List Byte
  win : Nat
  cls : Nat
deriving DecidableEq, Repr

/-- A PCI Express read or atomic in progress: its pieces and how many have been returned (R247). -/
structure HostRd where
  id : Nat
  parts : List (Option (Nat × List Byte))
  sent : Nat := 0
deriving DecidableEq, Repr

/-- An atomic in progress (R264): op 1 FetchAdd, 2 Swap, 3 CAS. -/
structure Atom where
  id : Nat
  node : Option Nat             -- none: this hub
  addr : Nat
  len : Nat
  op : Nat
  operand : Nat
  compare : Nat
  win : Nat
  cls : Nat
  step : Nat := 0               -- the step of R264 whose answer it waits for: 1, 3 or 6; 0 before it begins
  token : Nat := 0
  old : List Byte := []
  ret : Cont                    -- where it completes
  name : Nat := 0x3FFFF         -- bits 49:32 of the fabric address it was issued with (R268)
deriving DecidableEq, Repr

/-- A request of a host port to its own hub that waits for its turn (R260). -/
inductive LocalReq where
  | read (addr n win : Nat) (pf : Bool) (c : Cont)
  | write (addr : Nat) (data : List Byte) (c : Cont)
  | atomic (a : Atom)
deriving DecidableEq, Repr

/-- A bridge: of a host port, or of a DMA channel, which keeps a host port's order (R255, R261, R299). -/
structure BrSt where
  seq0 : Nat := 0               -- transmit sequence of the posted flow (R255)
  seq1 : Nat := 0               -- of the flow of non-posted requests
  outst : List NpReq := []      -- requests outstanding
  queue : List NpReq := []      -- requests waiting for their turn (R245, R260)
  issued : List (Nat × Bool) := []   -- tags ever issued (R258)
  pdt : List PdtEnt := []
  wait : List PostWait := []
  posted : List Posted := []
  buffer : List (Nat × Nat × List Byte) := []  -- the read buffer: node + 1 or 0, address, 64 octets (R262)
  reads : List HostRd := []
  atoms : List Atom := []
  locals : List LocalReq := []  -- requests to this hub that wait behind an earlier one (R260)
  nextId : Nat := 0
  result : Option (Nat × Nat × List Byte) := none  -- quad-SPI: status, subcode and data of the last command (R252)
  busy : Bool := false          -- a quad-SPI command is pending
deriving DecidableEq, Repr

/-- An entry of the target engine's response cache (R259). -/
structure CacheEnt where
  src : Nat
  flow : Nat
  tag : Nat
  status : Nat
  data : List Byte
  guarded : Bool := true
deriving DecidableEq, Repr

/-- The target engine: requests that wait for an earlier posted write, oldest first, and the response cache (R259, R261). -/
structure TgtSt where
  waiting : List (Frame × Nat) := []   -- with the fabric input it came from
  cache : List CacheEnt := []          -- newest first
deriving DecidableEq, Repr

/-- The polling engine beside its table and registers (R271 to R273). -/
structure PollSt where
  unsent : List Nat := []       -- entries due and not sent, in the order they fell due
  outst : List (Nat × Nat) := []  -- entry and the tag of its poll
  seq : Nat := 0                -- transmit sequence of flow 0xF200
  issued : List (Nat × Bool) := []   -- tags ever issued (R258)
  last : Option Nat := none     -- slot count of the last poll sent
  events : List Nat := []       -- the event FIFO, oldest first
  want : Nat := 0               -- hosts whose vector the pending events request, bit h (R273)
deriving DecidableEq, Repr

/-- A frame open at a receive queue (R306): what has been written, and in which descriptors. -/
structure RxOpen where
  d : Delivered
  pos : Nat := 0
  descs : List (Nat × Nat) := []   -- translated address of the descriptor, and octets written to its buffer
  time : Nat                       -- TB0 nanoseconds of its first cell
deriving DecidableEq, Repr

/-- A DMA channel beside its registers (R295 to R307). -/
structure DmaSt where
  desc : List Word := []        -- the descriptor in progress; empty when the next step fetches one
  started : Bool := false       -- its setup has passed (R298)
  gather : List Byte := []      -- octets of the frame of op 3
  ending : Option (Nat × Nat) := none  -- status and subcode whose write-back is still to be made
  stopReq : Bool := false
  rx : Bool := false            -- RECEIVE, or FAULTED out of it
  busy : Bool := false          -- a request that has not been answered is outstanding
  landing : Bool := false       -- it is the write of the octets that a remote read has returned
  result : Option (Nat × List Byte) := none  -- its answer: status and data (R299)
  rsv : List Nat := []          -- reserve buffers held (R307)
  fifo : List Nat := []         -- filled reserve items, oldest first
  open_ : List RxOpen := []     -- frames of classes 1 to 3 that wait for a buffer, oldest first (R211)
  postedErr : Bool := false     -- a posted-write error since the last fence (R299)
deriving DecidableEq, Repr

/-- A fault event on its way to the collector (R499, R504, R508): the source, the access it was checking, the page that owns
it where the source alone does not say (R592), and whether it was injected (R509) or comes from a stuck pair (R500). -/
structure FaultEv where
  source : Nat
  page : Nat            -- the owning page where R592 leaves it to the event
  master : Nat := 0xFF
  node : Nat := 0
  type : Nat := 0       -- 0 none, 1 read, 2 write, 3 fetch, 4 atomic
  size : Nat := 0
  addr : Nat := 0
  injected : Bool := false
  wire : Bool := false
deriving DecidableEq, Repr

/-- What the collector and the ledger hold beside their registers (R503 to R518). -/
structure LedgSt where
  head : Nat := 0              -- first staged entry in the staging area
  seen : List (Nat × Nat × Nat) := []  -- sources with an entry this epoch: source, later events, highest level (R513)
  lost : Nat := 0              -- entries lost since the last type 0x61 entry
  flushTo : Nat := 0           -- entries the flush in progress takes
deriving DecidableEq, Repr

/-- A word of a field queue: octet i in bits 8i + 7 to 8i, its valid octets, and its end mark (R323). -/
structure FqWord where
  data : Nat
  valid : Nat
  last : Bool
deriving DecidableEq, Repr

/-- A field queue number: its receive and transmit queues (R322 to R331). -/
structure FqSt where
  rx : List FqWord := []        -- committed receive words, oldest first
  opened : List Byte := []      -- octets of the open word
  credits : Nat := 0            -- credits outstanding at the narrow producer (R325)
  tx : List FqWord := []        -- transmit words, oldest first
  txPos : Nat := 0              -- octets of the head transmit word already taken
  number : Nat := 0             -- the packet number of the next frame (R328)
  inside : Bool := false        -- the next frame continues a packet
  hold : List (Nat × Bool) := []  -- complete items that its unit keeps while it has no credit, with their end marks (R338)
deriving DecidableEq, Repr

/-- A UART, SPI or I2C unit beside its registers and queue (R337 to R359). -/
structure UnitSt where
  pend : Option Nat := none     -- the item held back until it is known whether it ends a packet (R337)
  overrun : Bool := false       -- the next item produced carries overrun (R343)
  pass : Bool := false          -- the address filter lets characters through (R344)
  de : Bool := false            -- DE is active (R345)
  lastEnd : Bool := false       -- the last character sent carried the end mark
  brk : Bool := false           -- the last thing received was a break
  cs : Option Nat := none       -- the chip select in use while CS is active (R349); for a target, 0
  inPacket : Bool := false      -- a packet of transmit items is in progress
  waiting : Bool := false       -- the SPI controller pauses between frames (R349)
  count : Nat := 0              -- frames left of SPI_CMD.count (R350)
  countEnd : Bool := false
  bus : Bool := false           -- the I2C controller holds the bus (R355)
  skip : Bool := false          -- the rest of the packet's commands is discarded (R356)
  addressed : Bool := false     -- the I2C target is addressed (R357)
  stretch : Nat := 0            -- the I2C target stretches SCL: 1 without a credit, 2 without an item
deriving DecidableEq, Repr

/-- A transmit buffer of a CAN controller: the header and control items and the data items of its frame (R365). -/
structure CanBuf where
  hdr : Nat := 0
  ctl : Nat := 0
  data : List Nat := []
deriving DecidableEq, Repr

/-- A CAN FD controller beside its registers and queue (R366 to R377). Its receive FIFO is the queue's kept items. -/
structure CanSt where
  joined : Bool := false        -- it takes part in bus traffic (R377)
  waiting : Bool := false       -- a packet waits for its buffer (R366)
  overrun : Bool := false       -- frames were lost before the next one stored (R373)
  buf0 : CanBuf := {}
  buf1 : CanBuf := {}
  buf2 : CanBuf := {}
deriving DecidableEq, Repr

/-- A channel of a Clove engine beside its registers (R381 to R412). Its receive small queue is its field queue's kept items. -/
structure ClovCh where
  state : Nat := 0              -- 0 idle, 1 running, 2 stalled (R387)
  cause : Nat := 0              -- stop cause: 0 none, 1 HALT, 2 stop or block reset, 3 error
  pc : Nat := 0
  bank : Nat := 0               -- the bank the channel executes from
  matched : Bool := false       -- flags (R389)
  timeout : Bool := false
  idle : Bool := false
  ended : Bool := false
  instr : Option Word := none   -- the latched instruction
  turn : Nat := 0               -- own turns it has taken
  delay : Nat := 0              -- delay turns it still takes
  left : Nat := 0               -- clock edges a shift still waits for (R394)
  edges : Nat := 0              -- awaited edges since the channel's previous turn (R388)
  moves : Bool := false         -- moves to the new bank when its latched instruction is done (R412)
  txq : List (Nat × Bool) := [] -- the transmit small queue (R405)
  pins : List (Option Bool) := [none, none, none, none] -- levels driven on pin offsets 0 to 3, none where released (R384)
deriving DecidableEq, Repr

/-- An Ethernet frame that waits for the line: its octets as assembled, the frame number, and whether it is to be stamped (R422, R425). -/
structure MacTx where
  data : List Byte
  number : Nat
  stamp : Bool
deriving DecidableEq, Repr

/-- An assembly of segments: source flow, frame number, D, and the octets so far (R422). -/
structure MacAsm where
  flow : Nat
  number : Nat
  size : Nat
  stamp : Bool
  data : List Byte
deriving DecidableEq, Repr

/-- A MAC beside its registers (R419 to R426): 0 the management MAC, 1 + c T1S MAC c. -/
structure MacSt where
  number : Nat := 0             -- the number of the next frame received
  asm : List MacAsm := []       -- open assemblies, oldest first
  txq : List MacTx := []        -- complete frames, in the order of completion
  stamps : List Nat := []       -- the transmit stamp FIFO, oldest first
  attempt : Nat := 0            -- collisions of the frame in progress
  backoff : Option Nat := none  -- it backs off this many slots of 512 bit times
deriving DecidableEq, Repr

/-- An update message in the store's queue: from the ring or local, by master 0x00 or not, and its octets (R454, R456). -/
structure KeyMsg where
  ring : Bool
  anise : Bool
  data : List Byte
deriving DecidableEq, Repr

/-- The Saffron store's message handling (R456 to R459) and its log (R469). -/
structure KeyMgr where
  queue : List KeyMsg := []     -- messages waiting to be checked, oldest first
  pending : Option KeyMsg := none -- the message that waits for its commit
  log : List Nat := []          -- results not popped yet, oldest first, 64 bits each
  seq : Nat := 0                -- transmit sequence of system flow 0xF4B0
deriving DecidableEq, Repr

/-- The key of an operation as it was when the operation started (R464): the slot, the key octets, its attributes, and whether the operation took
the slot's last use. -/
structure KeyUse where
  slot : Nat
  key : List Byte
  attr : Nat
  last : Bool
deriving DecidableEq, Repr

/-- A frame that the cipher has begun with (R438, R464): none of a key where it was refused. -/
structure CiphFrame where
  d : Delivered
  slot : Nat
  use : Option KeyUse
deriving DecidableEq, Repr

/-- A memory job in progress: its descriptor's words and its key (R445). -/
structure CiphJob where
  words : List Nat
  use : KeyUse
deriving DecidableEq, Repr

/-- The cipher engine beside its registers. -/
structure CiphSt where
  frame : Option CiphFrame := none
  job0 : Option CiphJob := none
  job1 : Option CiphJob := none
  window : Nat := 0             -- the window of the mismatches counted, and how many (R437)
  count : Nat := 0
deriving DecidableEq, Repr

/-- An event in the power die's buffer: its code, argument octet, data, and millisecond count (R494). -/
structure PdEvt where
  code : Nat
  arg : Nat
  data : List Byte
  ms : Nat
deriving DecidableEq, Repr

/-- The power die (R470 to R497). Its own registers are authoritative; the hub's registers of its pages are the mirror (R8, R9). -/
structure PdSt where
  regs : List (Nat × Word) := [] -- the power die's registers; an unlisted one holds its reset value
  on : Bool := true             -- it is out of its own reset
  valid : Nat := 0              -- feeds valid, bit n for FEED n + 1
  pres : Nat := 0               -- PRESn_N low
  mv1 : Nat := 0                -- feed voltages, mV
  mv2 : Nat := 0
  seated : Nat := 0             -- PRESn_N low without a break since the end of the power-die reset (R476)
  lost : Bool := false          -- both feeds have been lost since the power-die reset (R481)
  debMs : Nat := 0              -- the debounce time that runs (R476)
  debounced : Bool := false     -- it has elapsed with feed ready
  enh : Bool := false           -- RAMP, enhancing (R475)
  held : Bool := false          -- the fault timer is not clear (R477)
  first : Bool := true          -- the first ramp since the power-die reset is not over (R471)
  otp : List Word := []         -- configuration OTP rows programmed, oldest first (R471)
  clearRun : Bool := false      -- PGOOD has been released since the last trip: retry_clear_s runs (R479)
  ov : Bool := false            -- VIN is above the overvoltage level (R474)
  l6 : Bool := false            -- the hub is in L6 (R478)
  latched : Nat := 0            -- outputs latched off, bit n for DOn (R492)
  pend : List (Nat × Nat) := [] -- pending flags: source and page (R482)
  evts : List PdEvt := []       -- the event buffer, oldest first (R494)
  ticks : Nat := 0              -- its clock, in ticks of 4 ns
  crc : Nat := 0                -- frames dropped in this epoch (R497)
deriving DecidableEq, Repr

/-- Power levels beside the PWR page (R529 to R537). -/
structure PwrSt where
  level : Nat := 0              -- 0 Run, 1 Hush, 2 to 6 asleep
  waking : Bool := false        -- a wake source has acted and the exit has not run
  wakeEn : Nat := 0xFF          -- PWR_WAKE_EN as it stood at entry to L6
  unlocked : Nat := 0           -- PLLs that have lost lock: bit 0 field, 1 Ring A, 2 Ring B (R540)
  refBad : Bool := false        -- the reference clock is absent or out of limits (R540)
  resume : Nat := 0             -- the hub restarts from L4 or L5 and Cumin has not started (R536)
  waitFor : Option (Nat × Nat) := none -- an entry to L5 or L6 waits for a flush of the ledger: the level, and since when, in ticks of 4 ns (R519)
deriving DecidableEq, Repr

/-- Resets and the watchdog (R522 to R528). -/
structure RstSt where
  active : Bool := false        -- a warm or cold reset has begun and Cumin has not started
  cold : Bool := false          -- it is a cold one
  causes : List Nat := []       -- causes seen since it began (R524)
  stage : Nat := 0              -- watchdog stage that runs, 0 none
  since : Nat := 0              -- when it started, in ticks of 4 ns
deriving DecidableEq, Repr

/-- A block being assembled from firmware fragments (R554): session, offset, length, fragment count, and the fragments it has. -/
structure FwAsm where
  session : Nat
  offset : Nat
  length : Nat
  count : Nat
  got : List Nat
deriving DecidableEq, Repr

/-- Boot and firmware update beside the FWU and ANI pages (R541 to R564). -/
structure BootSt where
  hdr : List Byte := []         -- the header of the running image
  slot : Nat := 0               -- the slot it runs from
  pages : List Nat := []        -- pages of the slot or the load area written in this session (R552)
  asm : Option FwAsm := none
  ho : Nat := 0                 -- handover: 1 waits for ready, 2 copies, 3 waits for resumed (R560)
  hoSlot : Nat := 0             -- the slot it starts
  hoBack : Bool := false        -- it is a rollback
  hoOpen : Bool := false        -- the handover area is writable by Anise (R560, R561)
  heldRes : List Residence := []  -- residences that wait to be posted until a handover has ended (R561)
  held : List (Nat × Nat × Nat) := []  -- Anise's work that waits for the end of a handover (R561): 0 SYNC or UPLINK of an attachment,
                                -- 1 the servo's update, 2 a residence to post, 3 an answer to repeat in a mailbox
  since : Nat := 0              -- when the confirm time began, in ticks of 4 ns (R557)
  svn : Nat := 0                -- what OTP svn has been raised to (R557)
  seqA : Nat := 0               -- the sequence of the mailbox request being served, host A (R564)
  seqB : Nat := 0
  ansA : Bool := false          -- a request of the mailbox has been answered since reset, host A
  ansB : Bool := false
  send : Nat := 0               -- transmit sequence of system flow 0xF4C0
deriving DecidableEq, Repr

/-- The data register that the test access port's instruction selects between TDI and TDO. -/
inductive TapReg where
  | bypass | identification | boundary
deriving DecidableEq, Repr

/-- What drives the balls of the boundary register: the hub, the boundary register (steadily, with a pulse or with a train on the AC-coupled
lanes), or nothing. -/
inductive TapDrive where
  | hub | boundary | pulse | train | highZ
deriving DecidableEq, Repr

/-- The test access port (R582). -/
structure TapSt where
  ir : Nat := 0x01              -- the instruction in force; IDCODE after a reset of the port
  reg : TapReg := .identification
  drive : TapDrive := .hub
  boundary : List Bool := []    -- the levels preloaded into the boundary register, in chain order
  sample : List Bool := []      -- the levels of the balls as last sampled
deriving DecidableEq, Repr

/-- What a port puts on its lane in one slot (R53, R56, R57, R70, R76). -/
inductive Lane where
  | empty (slotSet : Nat)                        -- an empty slot: a SLOT set with this 24-bit value, then idle blocks
  | frame (f : Frame) (crc : Word) (t : TailKind) -- the first slot of a frame
  | cont                                         -- a further slot of the frame in progress
  | set (t : OrdSet)                             -- one ordered set between frames (R120)
  | train (t : OrdSet) (slotSet : Option OrdSet) -- TRAIN sets, with a SLOT set in block 0 where there is one (R76)
  | fault                                        -- remote fault sets in place of idles (R54, R76)
  | idles                                        -- idle blocks
  | prbs                                         -- PRBS31 in place of blocks (R83)
  | idle                                         -- electrical idle begins
deriving DecidableEq, Repr

/-- What leaves the hub, or passes between two of its blocks where only the passing is observable; the newest first in
State.out. The list is the model's own (log entry 3). -/
inductive Out where
  | done (q : Req) (status : Nat) (data : List Byte)   -- a request completes (R28)
  | lane (r p : Nat) (l : Lane)                        -- a ring lane
  | msix (h v : Nat)                                   -- an MSI-X message of host port h (R248)
  | trap                                               -- the non-maskable trap to Anise (R504)
  | modBus (r p dev addr : Nat) (wr : Option Nat)      -- a module management-bus access begins (R82)
  | evt (u : Nat) (level : Option Bool)                -- what event unit u drives on its pin: none is released (R239, R317)
  | trig (u : Nat) (clove dout : Bool)                 -- the trigger lines of event unit u (R240)
  | mac (m : Nat) (f : List Byte)                      -- MAC m sends an Ethernet frame, FCS included (R423)
  | residence (r : Residence)                          -- a two-step residence posted to Anise (R235)
  | vcore (code : Nat)                                 -- VCORE_SET[3:0] is driven with a code (R151)
  | cpl (h id part status : Nat) (data : List Byte)    -- a PCI Express completion with its R28 status (R247)
  | qspi (h status : Nat) (data : List Byte) (crc : Byte)   -- a quad-SPI reply: status octet, data, and the CRC-8 over both (R249 to R251)
  | uart (n data : Nat) (addr : Bool)                  -- UART n sends a character
  | uartBreak (n bits : Nat)                           -- UART n holds TXD low for this many bit times (R346)
  | spi (n cs bits value : Nat)                        -- SPI n shifts out a frame
  | can (n hdr ctl : Nat) (esi : Bool) (data : List Nat) -- CAN controller n starts a frame (R365, R368)
  | clove (c p : Nat) (level : Option Bool)             -- a Clove channel drives a pin of cluster c, or releases it (R384)
  | jam (m : Nat)                                       -- T1S MAC m - 1 sends a jam (R426)
  | mdio (m : Nat) (w : Word)                           -- a clause 22 access of MAC m begins, as xx_MDIO_ACC holds it
  | handover                                            -- the handover event to Anise (R560)
  | die (a : Nat) (v : Word)                             -- a write sent over the die link (R486)
  | i2c (n : Nat) (op : Nat) (value : Nat)             -- I2C n on its bus: 0 byte, 1 ACK, 2 START and address, 3 STOP, 4 NACK, 5 bus clear
  | busWrite (h addr : Nat) (data : List Byte)         -- bus mastering into the memory of host h (R294)
deriving DecidableEq, Repr

/-- The state of the hub. -/
structure State where
  /-- every register of the register map; an unlisted one holds its reset value -/
  regs : List (Nat × Word)
  /-- local memory: SRAM, retention bank, keep area, xSPI windows (R21), octet by octet -/
  mem : List Host.Cell
  /-- timetable memory (R23, R185) -/
  ttm : List Host.Cell
  /-- the words of general SRAM that ECC found uncorrectable, newest first (R502); one counts while it reads as all ones -/
  sramBad : List Nat
  /-- the commands waiting, first in, first out -/
  pending : List Instr
  /-- what has left the hub, newest first (log entry 3) -/
  out : List Out
  /-- the free-value counter (log entry 4) -/
  free : Nat
  /-- the slot count, epochs above bit 20 (R12) -/
  slot : Nat
  /-- tenths of a nanosecond since the last slot that was counted without a ready ring (R12) -/
  slotPhase : Nat
  /-- ring ports, key 2 * ring + port -/
  ports : List (Nat × PortSt)
  /-- ring control, key attachment -/
  rcs : List (Nat × RcSt)
  /-- claims, key resource (R274) -/
  claims : List (Nat × ClaimSt)
  /-- semaphores (R278) -/
  sems : List (Nat × SemSt)
  /-- heartbeats, key host -/
  beats : List (Nat × BeatSt)
  /-- time bases TB0 to TB3 -/
  bases : List (Nat × BaseSt)
  /-- writes forwarded over the die link and not acknowledged, oldest first (R9) -/
  pdWrites : List PdWrite
  /-- accesses that wait for their register page, in the order in which they reached it (R27, R31) -/
  held : List HeldAcc
  /-- the blocks in block reset, by their first page (R31) -/
  resets : List Nat
  /-- TB0's servo, the island count and the capture FIFO -/
  servo : ServoSt
  /-- the TLB, most recently used first (R291) -/
  tlb : List TlbEnt
  /-- the context manager -/
  flw : FlowSt
  /-- timetable, key attachment -/
  ttbs : List (Nat × TtbSt)
  /-- admission refusals waiting to be popped, oldest first (R199) -/
  ttbLog : List Word
  /-- the fabric core -/
  fab : FabSt
  /-- bridges: key 0 and 1 the host ports, 2 + c DMA channel c -/
  brs : List (Nat × BrSt)
  /-- the target engine -/
  tgt : TgtSt
  /-- the polling engine -/
  poll : PollSt
  /-- DMA channels, key channel -/
  dmas : List (Nat × DmaSt)
  /-- barriers accepted and not complete: who waits, oldest first (R293) -/
  barriers : List Cont
  /-- filtered levels at the balls of each cluster, bit p for pin p, 0 until a level arrives (R320) -/
  balls : List (Nat × Word)
  /-- field queues, key 32 * cluster + queue -/
  fqs : List (Nat × FqSt)
  /-- UART, SPI and I2C units, key page -/
  units : List (Nat × UnitSt)
  /-- CAN FD controllers, key controller -/
  cans : List (Nat × CanSt)
  /-- Clove channels, key 16 * engine + channel -/
  clvs : List (Nat × ClovCh)
  /-- Clove program memory, key 2048 * engine + 1024 * bank + address (R411) -/
  pmem : List (Nat × Word)
  /-- Ethernet MACs, key 0 management, 1 + c T1S MAC c -/
  macs : List (Nat × MacSt)
  /-- the power die -/
  pd : PdSt
  /-- power levels -/
  pwr : PwrSt
  /-- resets and the watchdog -/
  rst : RstSt
  /-- boot and firmware update -/
  boot : BootSt
  /-- the test access port -/
  tap : TapSt
  /-- the Saffron store, key slot -/
  keys : List (Nat × KeySlot)
  /-- the Saffron store's messages and log -/
  kmgr : KeyMgr
  /-- the cipher engine -/
  ciph : CiphSt
  /-- the pace gauge -/
  pace : PaceSt
  /-- ledger -/
  ledg : LedgSt
  /-- fault events that this command has raised and the collector has not taken yet; empty between commands -/
  raises : List FaultEv
  /-- a level 5 reaction waits for its warm reset (R505) -/
  level5 : Bool
deriving DecidableEq, Repr

/-- The machine right after a cold reset, every register at its reset value, nothing listed in memory. -/
def State.reset : State where
  regs := [(rRST_CAUSE, 0x01000001)]
  mem := []
  ttm := []
  sramBad := []
  pending := []
  out := []
  free := 0
  slot := 0
  slotPhase := 0
  ports := []
  rcs := []
  claims := []
  sems := []
  beats := []
  bases := []
  pdWrites := []
  held := []
  resets := []
  servo := {}
  tlb := []
  flw := {}
  ttbs := []
  ttbLog := []
  fab := {}
  brs := []
  tgt := {}
  poll := {}
  dmas := []
  barriers := []
  balls := []
  fqs := []
  units := []
  cans := []
  clvs := []
  pmem := []
  macs := []
  pd := {}
  pwr := {}
  rst := { active := true, cold := true, causes := [0x01] }
  boot := {}
  tap := {}
  keys := []
  kmgr := {}
  ciph := {}
  pace := {}
  ledg := {}
  raises := []
  level5 := false

end Sys2Proof.Machine
end

