-- ==== Sys2Proof/Machine/Ops.lean ====
section
/-! DEFINITION. The named operations over registers, memory, interrupts, refusals, outputs, free values and fault events, which
every meaning uses. -/
namespace Sys2Proof.Machine

/-! ### Registers -/

/-- The value of the register at an address of the register map. -/
def State.reg (s : State) (a : Nat) : Word := spGet resetWord s.regs a

/-- The state with one register set. -/
def State.setReg (s : State) (a : Nat) (v : Word) : State := { s with regs := spSet resetWord s.regs a v }

/-- The value of a field. -/
def State.get (s : State) (a : Nat) (f : Fld) : Nat := fldOf (s.reg a) f

/-- A field that is one bit, as a Bool. -/
def State.flag (s : State) (a : Nat) (f : Fld) : Bool := s.get a f != 0

/-- The state with one field set. -/
def State.put (s : State) (a : Nat) (f : Fld) (v : Nat) : State := s.setReg a (fldPut (s.reg a) f v)

/-- A 32-bit counter that wraps adds n (the tables: counters are 32 bits and wrap). -/
def State.addCnt (s : State) (a : Nat) (n : Nat) : State := s.setReg a (s.reg a + toW n)

/-- A 32-bit counter that wraps adds 1. -/
def State.inc (s : State) (a : Nat) : State := s.addCnt a 1

/-- A field that counts and stops at its largest value adds 1. -/
def State.incSat (s : State) (a : Nat) (f : Fld) : State :=
  s.put a f (satInc (2 ^ (f.hi + 1 - f.lo) - 1) (s.get a f))

/-! ### Outputs, free values, fault events -/

/-- The state with one more output. -/
def State.emit (s : State) (o : Out) : State := { s with out := o :: s.out }

/-- The state with one free value used (log entry 4). -/
def State.step1 (s : State) : State := { s with free := s.free + 1 }

/-- The free value the next use draws (log entry 4). -/
def State.freeN (s : State) : Nat := Config.freeNat s.free

/-- A fault event presented to the collector (R499). -/
def State.fault (s : State) (e : FaultEv) : State := { s with raises := s.raises ++ [e] }

/-- A fault source with no access, owned by the page that R592 names or by the page given. -/
def State.raise (s : State) (src : Nat) (page : Nat := 0xFFF) : State :=
  s.fault { source := src, page := page }

/-! ### Interrupts and refusals -/

/-- Sets bits of a page's PG_IRQ_STAT (R34). -/
def State.irqBits (s : State) (p : Nat) (m : Word) : State := s.setReg (rPG_IRQ_STAT p) (s.reg (rPG_IRQ_STAT p) ||| m)

/-- An event sets bit n of a page's PG_IRQ_STAT (R34). -/
def State.irq (s : State) (p n : Nat) : State := s.irqBits p (toW (2 ^ n))

/-- Sets a refusal flag of a page's PG_STATUS; PG_IRQ_STAT.refused is set when the flag goes from 0 to 1 (R29). -/
def State.refuse (s : State) (p : Nat) (f : Fld) : State :=
  if s.flag (rPG_STATUS p) f then s else (s.put (rPG_STATUS p) f 1).irq p 0

/-- The block has downgraded or corrected a setting (R29). -/
def State.warn (s : State) (p : Nat) : State := s.put (rPG_STATUS p) fPG_STATUS_config_warning 1

/-- The pages that request an interrupt: a bit set in PG_IRQ_STAT and in PG_IRQ_EN (R34). A page with no bit set has no
listed PG_IRQ_STAT, so the listed registers are all there is to look at. -/
def State.reqPages (s : State) : List Nat :=
  (s.regs.filter (fun e => e.1 % 0x1000 = 0x00C && (e.2 &&& s.reg (e.1 + 4)) != 0)).map (fun e => e.1 / 0x1000)

/-- The block of a page operates (R33): PG_CTRL.enable of the page that governs it (R32). -/
def State.enabled (s : State) (p : Nat) : Bool := s.flag (rPG_CTRL (blockHead p)) fPG_CTRL_enable

/-- What a block does of its own: nothing while it is disabled (R33). -/
def State.ifOn (s : State) (p : Nat) (f : State → State) : State := if s.enabled p then f s else s

/-- The field, host and RGMII islands have their clocks: from L2 on they are gated (R529, R532). -/
def State.fieldRuns (s : State) : Bool := s.pwr.level < 2

/-- What a unit of a gated island does of its own: nothing in L2 and deeper (R532, R537). -/
def State.onField (s : State) (f : State → State) : State := if s.fieldRuns then f s else s

/-! ### Injection (R36, R509, R589) -/

/-- The armed checker c of page p, if any: whether two bits are inverted. -/
def State.armed (s : State) (p c : Nat) : Option Bool :=
  let w := s.reg (rPG_FAULT_INJ p)
  if bitOf w 0 && natBits w.toNat 11 8 = c then some (bitOf w 1) else none

/-- The injection of page p has been made. -/
def State.disarm (s : State) (p : Nat) : State := s.put (rPG_FAULT_INJ p) fPG_FAULT_INJ_arm 0

/-- A fault source raised by an injected event (R509). -/
def State.raiseInj (s : State) (src page : Nat) : State := s.fault { source := src, page := page, injected := true }

/-! ### Memory (R21, R590) -/

/-- What a byte of local memory that nothing has written reads as: SRAM, the retention bank and the keep area are zero after
reset (R523, R526); the xSPI flash reads as erased (R511) and the xSPI RAM as zero (log entry 10). -/
def memDefault (a : Nat) : Byte := if 0x20000000 ≤ a && a ≤ 0x2FFFFFFF then 0xFF else 0

/-- The canonical form of local memory: addresses strictly rising, no entry equal to what an unlisted address reads as. -/
def Memory.wf (m : List Host.Cell) : Bool := spWf memDefault m

/-- One octet of local memory. -/
def State.byte (s : State) (a : Nat) : Byte := spGet memDefault s.mem a

/-- One octet of local memory written. -/
def State.setByte (s : State) (a : Nat) (b : Byte) : State := { s with mem := spSet memDefault s.mem a b }

/-- n octets of local memory from address a upwards. -/
def State.bytes (s : State) : Nat → Nat → List Byte
  | _, 0 => []
  | a, n + 1 => s.byte a :: s.bytes (a + 1) n

/-- Octets written to local memory from address a upwards. -/
def State.setBytes (s : State) (a : Nat) : List Byte → State
  | [] => s
  | b :: bs => (s.setByte a b).setBytes (a + 1) bs

/-- A 32-bit word of local memory (R590). -/
def State.word (s : State) (a : Nat) : Word := toW (leNat (s.bytes a 4))

/-- A 32-bit word of local memory written. -/
def State.setWord (s : State) (a : Nat) (w : Word) : State := s.setBytes a (leBytes 4 w.toNat)

/-- What timetable memory reads as at reset: owner bytes 0xFF, unused calendar entries 0xFFFFFFFF, bitmaps 0 (R185), and the
slot lists, of which the spec gives no reset content, 0 (log entry 10). -/
def ttmDefault (a : Nat) : Byte := if a < 0x40000 || (0x44000 ≤ a && a < 0x44800) then 0xFF else 0

/-- The canonical form of timetable memory. -/
def Memory.ttWf (m : List Host.Cell) : Bool := spWf ttmDefault m

/-- One octet of timetable memory. -/
def State.ttByte (s : State) (a : Nat) : Byte := spGet ttmDefault s.ttm a

/-- One octet of timetable memory written. -/
def State.setTtByte (s : State) (a : Nat) (b : Byte) : State := { s with ttm := spSet ttmDefault s.ttm a b }

/-- A word of timetable memory (R590). -/
def State.ttWord (s : State) (a : Nat) : Word :=
  toW ((s.ttByte a).toNat + 256 * (s.ttByte (a + 1)).toNat + 65536 * (s.ttByte (a + 2)).toNat + 16777216 * (s.ttByte (a + 3)).toNat)

/-- Octets written to timetable memory from a upwards. -/
def State.setTtBytes (s : State) (a : Nat) : List Byte → State
  | [] => s
  | b :: bs => (s.setTtByte a b).setTtBytes (a + 1) bs

/-! ### The structures beside the registers -/

/-- Port p of ring r. -/
def State.port (s : State) (r p : Nat) : PortSt := spGet (fun _ => {}) s.ports (2 * r + p)
def State.setPort (s : State) (r p : Nat) (x : PortSt) : State := { s with ports := spSet (fun _ => {}) s.ports (2 * r + p) x }

/-- Ring control of attachment x. -/
def State.rc (s : State) (x : Nat) : RcSt := spGet (fun _ => {}) s.rcs x
def State.setRc (s : State) (x : Nat) (c : RcSt) : State := { s with rcs := spSet (fun _ => {}) s.rcs x c }

/-- The claims of resource i (R274). -/
def State.claim (s : State) (i : Nat) : ClaimSt := spGet (fun _ => {}) s.claims i
def State.setClaim (s : State) (i : Nat) (c : ClaimSt) : State := { s with claims := spSet (fun _ => {}) s.claims i c }

/-- Semaphore n (R278). -/
def State.sem (s : State) (n : Nat) : SemSt := spGet (fun _ => {}) s.sems n
def State.setSem (s : State) (n : Nat) (x : SemSt) : State := { s with sems := spSet (fun _ => {}) s.sems n x }

/-- The heartbeat watch of host h. -/
def State.beat (s : State) (h : Nat) : BeatSt := spGet (fun _ => {}) s.beats h
def State.setBeat (s : State) (h : Nat) (x : BeatSt) : State := { s with beats := spSet (fun _ => {}) s.beats h x }

/-- The timetable of attachment x. -/
def State.ttb (s : State) (x : Nat) : TtbSt := spGet (fun _ => {}) s.ttbs x
def State.setTtb (s : State) (x : Nat) (t : TtbSt) : State := { s with ttbs := spSet (fun _ => {}) s.ttbs x t }

/-- Bridge b: 0 and 1 of the host ports, 2 + c of DMA channel c. -/
def State.br (s : State) (b : Nat) : BrSt := spGet (fun _ => {}) s.brs b
def State.setBr (s : State) (b : Nat) (x : BrSt) : State := { s with brs := spSet (fun _ => {}) s.brs b x }

/-- DMA channel c. -/
def State.dma (s : State) (c : Nat) : DmaSt := spGet (fun _ => {}) s.dmas c
def State.setDma (s : State) (c : Nat) (x : DmaSt) : State := { s with dmas := spSet (fun _ => {}) s.dmas c x }

/-- Filtered levels at the balls of cluster c. -/
def State.ball (s : State) (c : Nat) : Word := spGet (fun _ => 0) s.balls c
def State.setBall (s : State) (c : Nat) (w : Word) : State := { s with balls := spSet (fun _ => 0) s.balls c w }

/-- Field queue q of cluster c. -/
def State.fq (s : State) (c q : Nat) : FqSt := spGet (fun _ => {}) s.fqs (32 * c + q)
def State.setFq (s : State) (c q : Nat) (x : FqSt) : State := { s with fqs := spSet (fun _ => {}) s.fqs (32 * c + q) x }

/-- The serial unit of page p. -/
def State.unit (s : State) (p : Nat) : UnitSt := spGet (fun _ => {}) s.units p
def State.setUnit (s : State) (p : Nat) (x : UnitSt) : State := { s with units := spSet (fun _ => {}) s.units p x }

/-- CAN controller n. -/
def State.can (s : State) (n : Nat) : CanSt := spGet (fun _ => {}) s.cans n
def State.setCan (s : State) (n : Nat) (x : CanSt) : State := { s with cans := spSet (fun _ => {}) s.cans n x }

/-- Channel k of Clove engine e. -/
def State.clv (s : State) (e k : Nat) : ClovCh := spGet (fun _ => {}) s.clvs (16 * e + k)
def State.setClv (s : State) (e k : Nat) (x : ClovCh) : State := { s with clvs := spSet (fun _ => {}) s.clvs (16 * e + k) x }

/-- A word of Clove program memory (R411); what nothing has written reads 0. -/
def State.prog (s : State) (e bank a : Nat) : Word := spGet (fun _ => 0) s.pmem (2048 * e + 1024 * bank + a)
def State.setProg (s : State) (e bank a : Nat) (w : Word) : State := { s with pmem := spSet (fun _ => 0) s.pmem (2048 * e + 1024 * bank + a) w }

/-- MAC m: 0 the management MAC, 1 + c T1S MAC c. -/
def State.mac (s : State) (m : Nat) : MacSt := spGet (fun _ => {}) s.macs m
def State.setMac (s : State) (m : Nat) (x : MacSt) : State := { s with macs := spSet (fun _ => {}) s.macs m x }

/-- Key slot n of the Saffron store. -/
def State.key (s : State) (n : Nat) : KeySlot := spGet (fun _ => {}) s.keys n
def State.setKey (s : State) (n : Nat) (k : KeySlot) : State := { s with keys := spSet (fun _ => {}) s.keys n k }

/-! ### Identity -/

/-- The unique ID of this hub (R588). -/
def State.uid (s : State) : Nat :=
  (s.reg rCHIP_UID0).toNat * 2 ^ 96 + (s.reg rCHIP_UID1).toNat * 2 ^ 64 + (s.reg rCHIP_UID2).toNat * 2 ^ 32 + (s.reg rCHIP_UID3).toNat

/-- The configured ring number of attachment x (RCTL_RING). -/
def State.ringNo (s : State) (x : Nat) : Nat := if x = 0 then s.get rRCTL_RING fRCTL_RING_ring_a else s.get rRCTL_RING fRCTL_RING_ring_b

/-- Ring control of attachment x is enabled (RCTL_CTRL). -/
def State.rcEnabled (s : State) (x : Nat) : Bool := if x = 0 then s.flag rRCTL_CTRL fRCTL_CTRL_enable_a else s.flag rRCTL_CTRL fRCTL_CTRL_enable_b

/-- Ring control of attachment x runs: it is enabled, and so is its block (R33, R89). -/
def State.rcOn (s : State) (x : Nat) : Bool := s.rcEnabled x && s.enabled 0x28

/-- The hub is a bridge hub: it has ring control enabled on Ring B as well (R51, R84). -/
def State.isBridge (s : State) : Bool := s.rcEnabled 1

/-- The node ID of attachment x, once numbered: ring in bits 17:8, station in bits 7:0. -/
def State.nodeId (s : State) (x : Nat) : Option Nat :=
  if (s.rc x).numbered then some (s.ringNo x * 256 + s.get (rRCTL_STATUS x) fRCTL_STATUS_station) else none

end Sys2Proof.Machine
end

