-- ==== Sys2Proof/Machine/Ledger.lean ====
section
/-! DEFINITION. Staging of ledger entries (R511, R512, R516, R518). -/
namespace Sys2Proof.Machine

/-- Time base b. -/
def State.base (s : State) (b : Nat) : BaseSt := spGet (fun _ => {}) s.bases b
def State.setBase (s : State) (b : Nat) (x : BaseSt) : State := { s with bases := spSet (fun _ => {}) s.bases b x }

/-- The first octet of the ledger staging area (R21, R516). -/
def stagingBase : Nat := 0x0030C000

/-- The number of entries staged (LEDG_STATUS). -/
def State.staged (s : State) : Nat := s.get rLEDG_STATUS fLEDG_STATUS_staged

/-- A time less a number of milliseconds, not before zero: seconds and nanoseconds. -/
def timeLessMs (sec ns ms : Nat) : Nat × Nat :=
  let t := sec * 1000000000 + ns - ms * 1000000
  (t / 1000000000, t % 1000000000)

/-- The octets 0 to 31 of an entry before tagging (R511): the tag is zero until the flush. `pdMs` is the milliseconds since a
power-die event, for which pd_time is set (R512). -/
def ledgerOctets (s : State) (type detail : Nat) (data : List Byte) (gap : Bool) (number : Nat) (pdMs : Option Nat) : List Byte :=
  let b := s.base 0
  let t := match pdMs with
    | some ms => timeLessMs b.sec b.ns ms
    | none => (b.sec, b.ns)
  let flags := b2n (s.flag (rTB_STATUS 0) fTB_STATUS_locked) + 2 * b2n gap + 4 * b2n pdMs.isSome
  [toB type, toB flags] ++ beBytes 2 detail ++ beBytes 4 number ++ beBytes 6 t.1 ++ beBytes 4 t.2
    ++ (data ++ List.replicate 6 0).take 6 ++ List.replicate 8 0

/-- Puts one entry behind those staged; the caller has checked that there is room (R516). -/
def State.stagePut (s : State) (type detail : Nat) (data : List Byte) (gap : Bool) (pdMs : Option Nat) : State :=
  let n := s.staged
  let i := (s.ledg.head + n) % 512
  let number := ((s.reg rLEDG_NEXT_NUM).toNat + n) % 2 ^ 32
  (s.setBytes (stagingBase + 32 * i) (ledgerOctets s type detail data gap number pdMs)).put rLEDG_STATUS fLEDG_STATUS_staged (n + 1)

/-- Stages an entry, or loses it when the staging area is full (R516, R518). The first entry after a loss carries gap and
follows a type 0x61 entry with the count of entries lost. A disabled ledger takes no entry (R33). -/
def State.stage (s : State) (type detail : Nat) (data : List Byte) (pdMs : Option Nat := none) : State :=
  if !s.enabled 0x06 then s else
  let lost := s.ledg.lost
  let need := if lost = 0 then 1 else 2
  if 512 < s.staged + need then
    (({ s with ledg := { s.ledg with lost := lost + 1 } }.inc rLEDG_CNT_LOST).irq 0x06 3).raise 116
  else if lost = 0 then s.stagePut type detail data false pdMs
  else
    (({ s with ledg := { s.ledg with lost := 0 } }).stagePut 0x61 0 (beBytes 4 lost) false none).stagePut type detail data true pdMs

end Sys2Proof.Machine
end

