-- ==== Sys2Proof/Machine/Guard.lean ====
section
/-! DEFINITION. Who may do what: levels (R283 to R285), claims (R274, R275), and the checks that every register access passes
(R25, R28, R30, R37 to R40, R43, R46, R591), with the storing of a write by access code and lock (R4, R5, R38). -/
namespace Sys2Proof.Machine

/-! ### Claims -/

/-- The resource that a page is, for claim-protected pages (the table before R274). -/
def resourceOf (p : Nat) : Option Nat :=
  if 0x71 ≤ p && p ≤ 0x74 then some (p - 0x71)
  else if 0x80 ≤ p && p ≤ 0x8F then some (p - 0x80 + 4)
  else if 0x90 ≤ p && p ≤ 0x97 then some (p - 0x90 + 20)
  else if 0x98 ≤ p && p ≤ 0x9F then some (p - 0x98 + 28)
  else if 0xA0 ≤ p && p ≤ 0xA7 then some (p - 0xA0 + 36)
  else if 0xA8 ≤ p && p ≤ 0xAB then some (p - 0xA8 + 44)
  else if 0xB0 ≤ p && p ≤ 0xB3 then some (p - 0xB0 + 48)
  else if 0xF4 ≤ p && p ≤ 0xF7 then some (p - 0xF4 + 52)
  else none

/-- The page of a resource. -/
def pageOfResource (i : Nat) : Nat :=
  if i < 4 then 0x71 + i else if i < 20 then 0x80 + (i - 4) else if i < 28 then 0x90 + (i - 20)
  else if i < 36 then 0x98 + (i - 28) else if i < 44 then 0xA0 + (i - 36) else if i < 48 then 0xA8 + (i - 44)
  else if i < 52 then 0xB0 + (i - 48) else 0xF4 + (i - 52)

/-- The presented claims of a resource: master, node, claim (R274). -/
def ClaimSt.list (c : ClaimSt) : List (Nat × Nat × Nat) :=
  [(1, 0, c.hostA), (2, 0, c.hostB), (0, 0, c.anise)] ++ c.ring.map (fun e => (0x30, e.node, e.claim))

/-- The state of a resource (R274). -/
inductive Own where
  | opened
  | owned (master node : Nat)
  | conflict (m1 m2 : Nat)
deriving DecidableEq, Repr

/-- The state that the presented claims give (R274, R275). -/
def ClaimSt.own (c : ClaimSt) : Own :=
  let top := c.list.foldl (fun m e => max m e.2.2) 0
  if top = 0 then .opened
  else match c.list.filter (fun e => e.2.2 = top) with
    | [e] => .owned e.1 e.2.1
    | e :: f :: _ => .conflict e.1 f.1
    | [] => .opened

/-- The largest claim of a resource that is owned, else 0: what a read of PG_CLAIM returns (R29). -/
def ClaimSt.accepted (c : ClaimSt) : Nat :=
  match c.own with
  | .owned _ _ => c.list.foldl (fun m e => max m e.2.2) 0
  | _ => 0

/-- The master ID that PG_STATUS.claim_owner and ARB_OWNER show (R274, R275). -/
def Own.master : Own → Nat
  | .owned m _ => m
  | _ => 0xFF

/-- The owner's node, shown when the owner is 0x30. -/
def Own.node : Own → Nat
  | .owned 0x30 n => n
  | _ => 0

/-- The resource is in conflict (R275). -/
def Own.isConflict : Own → Bool
  | .conflict _ _ => true
  | _ => false

/-- The first two presenters of a conflict, for the ledger (R512). -/
def Own.pair : Own → Nat × Nat
  | .conflict a b => (a, b)
  | _ => (0xFF, 0xFF)

/-- Replaces the claims of resource i and decides it again: claim_owner, ARB_OWNER, ARB_CONFLICT, the interrupts of R281, fault
source 40 and the ledger records of R512. `how` is 0 claim, 1 heartbeat forced, 2 Warden clear. -/
def State.redecide (s : State) (i : Nat) (c : ClaimSt) (how : Nat) : State :=
  let o := (s.claim i).own
  let n := c.own
  let p := pageOfResource i
  let s := s.setClaim i c
  let s := s.put (rPG_STATUS p) fPG_STATUS_claim_owner n.master
  let s := s.setReg (rARB_OWNER i) (toW (n.node * 2 ^ 14 + n.master))
  let ca := if i < 32 then rARB_CONFLICT_LO else rARB_CONFLICT_HI
  let s := s.setReg ca (toW (natPut (s.reg ca).toNat (i % 32) (i % 32) (b2n n.isConflict)))
  let s := if n.isConflict && !o.isConflict then
      (((s.inc rARB_CNT_CONFLICT).irq 0x05 4).raise 40).stage 0x11 i [toB n.pair.1, toB n.pair.2, 1]
    else if !n.isConflict && o.isConflict then (s.irq 0x05 5).stage 0x11 i [toB o.pair.1, toB o.pair.2, 0]
    else s
  if n.master = o.master && n.node = o.node then s
  else (s.irq 0x05 6).stage 0x10 i
    ([toB o.master, toB n.master] ++ beBytes 3 n.node ++ [toB how])

/-! ### Levels -/

/-- The level code of a field: 0 Guest, 1 Operator, 2 Warden; other codes act as Guest. -/
def levelOfCode (n : Nat) : Level := if n = 2 then .warden else if n = 1 then .operator else .guest

/-- A level as a number, least privileged first (R283). -/
def lvlRank : Level → Nat
  | .guest => 0
  | .operator => 1
  | .warden => 2

/-- The level of a source node arriving on attachment x (R285). -/
def State.remoteLevel (s : State) (node x : Nat) : Level :=
  let hit := (List.range 64).find? (fun n =>
    let w := s.reg (rXLT_REMOTE n)
    fldOf w fXLT_REMOTE_valid != 0 &&
      (if fldOf w fXLT_REMOTE_whole_ring != 0 then fldOf w fXLT_REMOTE_node / 256 = node / 256 else fldOf w fXLT_REMOTE_node = node))
  match hit with
  | some n => levelOfCode (s.get (rXLT_REMOTE n) fXLT_REMOTE_level)
  | none =>
    if s.flag rXLT_REMOTE_CFG fXLT_REMOTE_CFG_master_op &&
        node = s.ringNo x * 256 + s.get (rRCTL_MASTER x) fRCTL_MASTER_master_station &&
        s.get (rRCTL_MASTER x) fRCTL_MASTER_master_station != 0xFF then .operator
    else .guest

/-- The level of a requester that is no DMA channel and no Clove engine (R283). -/
def State.plainLevel (s : State) (q : Req) : Level :=
  if q.master = 0x00 || q.master = 0x31 || q.master = 0x40 || q.master = 0x41 then .warden
  else if q.master = 0x01 then levelOfCode (s.get rXLT_LEVEL fXLT_LEVEL_host_a)
  else if q.master = 0x02 then levelOfCode (s.get rXLT_LEVEL fXLT_LEVEL_host_b)
  else if q.master = 0x30 then s.remoteLevel q.node q.att
  else .guest

/-- The requester as owners and holders are compared: a node at the ring, whatever its attachment, else the master (R274, R278, R296). -/
def Req.who (q : Req) : Req := if q.master = 0x30 then ⟨0x30, q.node, 0⟩ else ⟨q.master, 0, 0⟩

/-- The requester that owns DMA channel c (DMAA_OWNER), none while it is free (R295). -/
def State.dmaOwner (s : State) (c : Nat) : Option Req :=
  let w := s.reg (rDMAA_OWNER c)
  if fldOf w fDMAA_OWNER_owner = 0xFF then none
  else some ⟨fldOf w fDMAA_OWNER_owner, fldOf w fDMAA_OWNER_node, fldOf w fDMAA_OWNER_att⟩

/-- The requester owns DMA channel c (R296). -/
def State.dmaOwns (s : State) (c : Nat) (q : Req) : Bool := (s.dmaOwner c).any (fun o => o.who = q.who)

/-- The level of a requester (R283): a DMA channel has the present level of its owner, a Clove engine that of the accepted
claim owner of its page, a ring owner on the attachment on which its claim arrived (log entry 96). -/
def State.levelOf (s : State) (q : Req) : Level :=
  if 0x10 ≤ q.master && q.master ≤ 0x1F then
    match s.dmaOwner (q.master - 0x10) with
    | some o => s.plainLevel o
    | none => .guest
  else if 0x20 ≤ q.master && q.master ≤ 0x23 then
    let c := s.claim (44 + (q.master - 0x20))
    match c.own with
    | .owned m n => s.plainLevel ⟨m, n, ((c.ring.find? (fun e => m = 0x30 && e.node = n)).map RingClaim.att).getD 0⟩
    | _ => .guest
  else s.plainLevel q

/-- The lowest level that reads a page of an access class (R46). -/
def readLevel : PageCls → Level
  | .a => .guest
  | .b => .guest
  | .c => .operator
  | .d => .warden

/-- The lowest level that writes a page of an access class (R46). -/
def writeLevel : PageCls → Level
  | .a => .operator
  | .b => .warden
  | .c => .warden
  | .d => .warden

/-- Whether a requester may write resource i as its claims stand (R274). A DMA channel presents the claim of its owner. -/
def State.claimAllows (s : State) (i : Nat) (q : Req) : Bool :=
  let q' := if 0x10 ≤ q.master && q.master ≤ 0x1F then (s.dmaOwner (q.master - 0x10)).getD q else q
  match (s.claim i).own with
  | .opened => true
  | .owned m n => m = q'.master && (m != 0x30 || n = q'.node)
  | .conflict _ _ => false

/-! ### The checks of a register access -/

/-- The side-effect ranges of R43 beyond the page header. -/
def sideEffect (off : Nat) : Bool := (0x600 ≤ off && off ≤ 0x77F) || (0xE00 ≤ off && off ≤ 0xF7F)

/-- A completion with its status and data (R28). -/
def State.done (s : State) (q : Req) (status : Nat) (data : List Byte := []) : State := s.emit (.done q status data)

/-- The access that a fault capture records (R508). -/
def accessEv (src page : Nat) (q : Req) (type size addr : Nat) : FaultEv :=
  { source := src, page := page, master := q.master, node := if q.master = 0x30 then q.node else 0, type := type, size := size, addr := addr }

/-- Fields of PG_STATUS that privilege, expert and claim refusals set. -/
def State.privRefused (s : State) (p : Nat) : State := s.refuse p fPG_STATUS_privilege_refused
def State.expertRefused (s : State) (p : Nat) : State := s.refuse p fPG_STATUS_expert_refused

/-- A write value as the lock leaves it: once PG_LOCK.lock is set every RWL field keeps its present value, and lock_refused is
set when the write would have changed one (R38). -/
def State.lockAdjust (s : State) (a : Nat) (v : Word) : Word × State :=
  let p := a / 0x1000
  if s.flag (rPG_LOCK p) fPG_LOCK_lock then
    let m := toW (accMask (regFields p (a % 0x1000)) .rwl)
    let old := s.reg a
    let v' := (v &&& ~~~m) ||| (old &&& m)
    (v', if (v &&& m) = (old &&& m) then s else s.refuse p fPG_STATUS_lock_refused)
  else (v, s)

/-- The word a write leaves by the access codes alone (R4, R5): RW and RWL fields take the value, W1C bits clear, W1S bits set,
all others stay. -/
def storeWord (a : Nat) (old v : Word) : Word :=
  let fs := regFields (a / 0x1000) (a % 0x1000)
  let rw := toW (accMask fs .rw ||| accMask fs .rwl)
  let c := toW (accMask fs .w1c)
  let st := toW (accMask fs .w1s)
  ((v &&& rw) ||| (old &&& ~~~rw)) &&& ~~~(v &&& c) ||| (v &&& st)

/-- The plain effect of an accepted write. -/
def State.store (s : State) (a : Nat) (v : Word) : State := s.setReg a (storeWord a (s.reg a) v)

/-- The outcome of the checks of an access: go on, or complete with a status and nothing more. -/
inductive Verdict where
  | go
  | stop (status : Nat)
deriving DecidableEq, Repr

/-- The level that a write at a page offset needs: the page's class (R46), but Operator on FWU while Cumin runs (R562), and any
level for a host's kick of the watchdog while host_kick = 1 (R528). -/
def State.writeNeeds (s : State) (q : Req) (p off : Nat) : Level :=
  match pageGroup p with
  | none => .warden
  | some g =>
    if p = 0xC0 && s.flag rFWU_STATUS fFWU_STATUS_cumin then .operator
    else if p = 0x01 && off = 0x604 && s.flag rRST_WDT_CFG fRST_WDT_CFG_host_kick && (q.master = 1 || q.master = 2) then .guest
    else writeLevel g.cls

/-- Writes that a rule reserves to a level or to master IDs (R591): R36, R38, R220, R221, R275, R276, R278, R296, R415, R457, R458, R471,
R504, R510, R531, R538, R549, R557, R560, R564. -/
def State.reservedOk (s : State) (q : Req) (a : Nat) (v : Word) : Bool :=
  let lvl := s.levelOf q
  let p := a / 0x1000
  let off := a % 0x1000
  let warden := lvl = .warden
  if off = 0x01C then warden
  else if off = 0x024 then warden || !bitOf v 0
  else if a = rTB_RATE_LO 0 || a = rTB_RATE_HI 0 then s.flag (rTB_EXP 0) fTB_EXP_servo_off || q.master = 0
  else if a = rTB_CMD 0 then !bitOf v 1 || s.flag (rTB_EXP 0) fTB_EXP_servo_off || q.master = 0
  else if 0x40 ≤ p && p ≤ 0x43 && off = 0x604 then warden || !bitOf v 0
  else if a = rARB_HB 0 then q.master = 1
  else if a = rARB_HB 1 then q.master = 2
  else if a = rARB_SEM_FORCE || a = rARB_CLAIM_CLEAR then warden
  else if a = rDMAA_CFG then warden
  else if a = rDMAA_FREE then warden || !bitOf v 31
  else if a = rKEY_COMMIT then q.master = 0
  else if a = rKEY_CMD then !bitOf v 0 || !bitOf (s.reg (rKEY_MSG 0)) 0 || q.master = 0
  else if rKEY_CTR 0 ≤ a && a ≤ rKEY_CTR 255 then q.master = 0
  else if a = rKEY_CTR_LOCK then q.master = 0
  else if a = rPD_OTP_PROG then warden
  else if a = rFLT_ERRN_CLR || a = rFLT_EXP then warden
  else if a = rRST_CMD || a = rPWR_CMD then warden
  else if a = rFWU_MEAS_EXT then warden
  else if a = rFWU_CMD then !bitOf v 5 || q.master = 0
  else if 0x50 ≤ p && p ≤ 0x5F && 0x040 ≤ off then warden || s.dmaOwns (p - 0x50) q
  else if a = rANI_HANDOVER then q.master = 0
  else if a = rANI_MB_DOORBELL 0 then q.master = 1
  else if a = rANI_MB_DOORBELL 1 then q.master = 2
  else true

/-- The checks of a 32-bit write, in the order of R30, R46, R39, R591, R37: what it completes with when it is turned away, and the
flags that sets. An unpopulated page is status 0x1 and source 48; a level below the page's or a reserved register is 0x2 with
privilege_refused; the closed expert region and the claim rules ignore the write with status 0x0 and their flag. -/
def State.checkWrite (s : State) (q : Req) (a : Nat) (v : Word) : Verdict × State :=
  let p := a / 0x1000
  let off := a % 0x1000
  if !populated p then (.stop 1, s.fault (accessEv 48 0xFFF q 2 4 (0x10000000 + a)))
  else if lvlRank (s.levelOf q) < lvlRank (s.writeNeeds q p off) then (.stop 2, s.privRefused p)
  else if 0x800 ≤ off && s.levelOf q = .guest then (.stop 2, s.privRefused p)
  else if 0x800 ≤ off && !s.flag (rPG_CTRL p) fPG_CTRL_expert then (.stop 0, s.expertRefused p)
  else if !s.reservedOk q a v then (.stop 2, s.privRefused p)
  else match resourceOf p with
    | some i => if 0x040 ≤ off && !s.claimAllows i q then (.stop 0, s.refuse p fPG_STATUS_claim_refused) else (.go, s)
    | none => (.go, s)

/-- A command in an SC field of a disabled block is ignored and sets config_warning (R33). -/
def scWindow (off : Nat) : Bool := (0x600 ≤ off && off ≤ 0x6FF) || (0xE00 ≤ off && off ≤ 0xEFF)

/-- The write's fields that command: SC fields of the register (R33). -/
def commands (a : Nat) (v : Word) : Bool :=
  let fs := regFields (a / 0x1000) (a % 0x1000)
  (v.toNat &&& accMask fs .sc) != 0

/-- The page of a register cannot serve an access to it now: its block is in block reset, which holds all but the header (R31), or a write
of the page waits for the power die, so that the access before it has not completed (R27). -/
def State.pageBusy (s : State) (a : Nat) : Bool :=
  (0x040 ≤ a % 0x1000 && s.resets.contains (blockHead (a / 0x1000))) || s.pdWrites.any (fun w => w.addr / 0x1000 = a / 0x1000)

/-- An access joins those that wait for their page; `a` is the address in the register map. -/
def State.hold (s : State) (q : Req) (a : Nat) (op : AccOp) (c : Cont) : State :=
  { s with held := s.held ++ [⟨q, 0x10000000 + a, op, c⟩] }

/-- What a write that has passed the checks does: the lock, then the register's effect. The answer is the status it completes with (R28),
or none while its completion waits. A command in an SC field of a disabled block is ignored with config_warning (R33). A PD page's registers
beyond the header live on the power die, so a write there waits for the die link, or completes with 0x5 while the link is silent (R9, R47);
`fx`, the effect of an accepted write, says true where it holds the completion back. `c` is where a completion that waits goes. -/
def State.regEffect (s : State) (q : Req) (a : Nat) (v : Word) (c : Cont) (fx : Word → State → Bool × State) : Option Nat × State :=
  let p := a / 0x1000
  let off := a % 0x1000
  let lv := s.lockAdjust a v
  if scWindow off && !s.enabled p && commands a v then (some 0, lv.2.warn p)
  else if 0xF0 ≤ p && 0x040 ≤ off then
    if s.flag rPD_LINK_STATUS fPD_LINK_STATUS_silent then (some 5, lv.2)
    else (none, { lv.2.emit (.die a lv.1) with pdWrites := lv.2.pdWrites ++ [⟨q, a, lv.1, c⟩] })
  else
    let r := fx lv.1 lv.2
    (if r.1 then none else some 0, r.2)

/-- A register write by a requester: it waits for its page, or the checks turn it away, or it has its effect. -/
def State.regWriteHold (s : State) (q : Req) (a : Nat) (v : Word) (c : Cont) (fx : Word → State → Bool × State) : Option Nat × State :=
  if s.pageBusy a then (none, s.hold q a (.write (leBytes 4 v.toNat)) c)
  else match s.checkWrite q a v with
    | (.stop st, s') => (some st, s')
    | (.go, s') => s'.regEffect q a v c fx

/-- A register write whose effect holds nothing back. -/
def State.regWrite (s : State) (q : Req) (a : Nat) (v : Word) (c : Cont) (fx : Word → State → State) : Option Nat × State :=
  s.regWriteHold q a v c (fun w t => (false, fx w t))

/-- The read buffer of host port h is dropped (R262). -/
def State.bufferDrop (s : State) (h : Nat) : State := s.setBr h { s.br h with buffer := [] }

/-- Any write of a host drops its read buffer (R262). -/
def State.hostWrote (s : State) (q : Req) : State := if q.master = 1 || q.master = 2 then s.bufferDrop (q.master - 1) else s

/-- A write completes to its requester. -/
def State.wrote (s : State) (q : Req) (st : Nat) : State := (s.hostWrote q).done q st

/-- What a write answers is reported to its requester. -/
def answered (q : Req) (r : Option Nat × State) : State :=
  match r.1 with
  | some st => r.2.wrote q st
  | none => r.2.hostWrote q

/-- A register write by a requester, reported to it. -/
def State.writeReg (s : State) (q : Req) (a : Nat) (v : Word) (fx : Word → State → State) : State :=
  answered q (s.regWrite q a v (.done q) fx)

/-- The level a read needs: the page's class (R46); a Guest may not read a side-effect range (R43) or the expert region (R39). -/
def State.checkRead (s : State) (q : Req) (a : Nat) (mayPrefetch : Bool) : Verdict × State :=
  let p := a / 0x1000
  let off := a % 0x1000
  match pageGroup p with
  | none =>
    if off = 0 then (.go, s) else (.stop 1, s.fault (accessEv 48 0xFFF q 1 4 (0x10000000 + a)))
  | some g =>
    if lvlRank (s.levelOf q) < lvlRank (readLevel g.cls) then (.stop 2, s.privRefused p)
    else if (sideEffect off || 0x800 ≤ off) && s.levelOf q = .guest then (.stop 2, s.privRefused p)
    else if sideEffect off && mayPrefetch then (.stop 6, s.refuse p fPG_STATUS_prefetch_refused)
    else (.go, s)

/-- A read of an item at a register: the checks, then the item and the effect of the read. While expert = 0 the expert region reads 0
and sets expert_refused (R39). The answer is the status, the item and the state. -/
def State.readItem (s : State) (q : Req) (a : Nat) (mayPrefetch : Bool) (rd : State → Nat × State) : Nat × Nat × State :=
  match s.checkRead q a mayPrefetch with
  | (.stop st, s') => (st, 0, s')
  | (.go, s') =>
    let p := a / 0x1000
    let off := a % 0x1000
    if 0x800 ≤ off && populated p && !s'.flag (rPG_CTRL p) fPG_CTRL_expert then (0, 0, s'.expertRefused p)
    else
      let r := rd s'
      (0, r.1, r.2)

/-- A pop of an item, or the register's empty value (R44). -/
def popOr (empty : Nat) (pop : State → Option (Nat × State)) (s : State) : Nat × State := (pop s).getD (empty, s)

/-- A read of an item at a register by a row of its own, answered to its requester; it waits for its page where that is busy. -/
def State.rowRead (s : State) (q : Req) (a : Nat) (mayPrefetch wide : Bool) (rd : State → Nat × State) : State :=
  if s.pageBusy a then s.hold q a (.read (if wide then 8 else 4) mayPrefetch) (.done q)
  else
    let r := s.readItem q a mayPrefetch rd
    r.2.2.done q r.1 (if r.1 != 0 then [] else leBytes (if wide then 8 else 4) r.2.1)

/-- A read that pops: a 32-bit read returns the low word of the item, a 64-bit read the whole item (R25, R44, R45). -/
def State.popRead (s : State) (q : Req) (a : Nat) (mayPrefetch wide : Bool) (empty : Nat) (pop : State → Option (Nat × State)) : State :=
  s.rowRead q a mayPrefetch wide (popOr empty pop)

end Sys2Proof.Machine
end

