-- ==== Sys2Proof/Machine/Frames.lean ====
section
/-! DEFINITION. Ring frames: header fields (R62), check codes (R65, R66, R251), the octets of a frame, and the message payloads
of ring control (R88). -/
namespace Sys2Proof.Machine

/-! ### Check codes -/

/-- One octet of CRC-16 with polynomial 0x1021, most significant bit first (R65). -/
def crc16Step (c : BitVec 16) (b : Byte) : BitVec 16 :=
  (List.range 8).foldl (fun c _ => if c.msb then (c <<< 1) ^^^ 0x1021 else c <<< 1) (c ^^^ ((b.setWidth 16) <<< 8))

/-- CRC-16 of R65: initial value 0xFFFF, no reflection, no final XOR. -/
def crc16 (bs : List Byte) : BitVec 16 := bs.foldl crc16Step 0xFFFF

/-- One octet of the reflected CRC-32C with polynomial 0x1EDC6F41 (R66). -/
def crc32Step (c : Word) (b : Byte) : Word :=
  (List.range 8).foldl (fun c _ => if c.getLsbD 0 then (c >>> 1) ^^^ 0x82F63B78 else c >>> 1) (c ^^^ b.setWidth 32)

/-- CRC-32C of R66: initial value and final XOR 0xFFFFFFFF, reflected. -/
def crc32c (bs : List Byte) : Word := bs.foldl crc32Step 0xFFFFFFFF ^^^ 0xFFFFFFFF

/-- One octet of CRC-8 with polynomial 0x1D, most significant bit first (R251). -/
def crc8Step (c b : Byte) : Byte :=
  (List.range 8).foldl (fun c _ => if c.msb then (c <<< 1) ^^^ 0x1D else c <<< 1) (c ^^^ b)

/-- CRC-8 of R251: initial value and final XOR 0xFF, no reflection. -/
def crc8 (bs : List Byte) : Byte := bs.foldl crc8Step 0xFF ^^^ 0xFF

/-! ### Header fields (R62) -/

def Frame.kind (f : Frame) : Nat := natBits f.w0.toNat 31 28
def Frame.cls (f : Frame) : Nat := natBits f.w0.toNat 27 26
def Frame.path (f : Frame) : Nat := natBits f.w0.toNat 25 25
def Frame.twin (f : Frame) : Nat := natBits f.w0.toNat 24 24
def Frame.hops (f : Frame) : Nat := natBits f.w0.toNat 23 16
def Frame.length (f : Frame) : Nat := natBits f.w0.toNat 9 0
def Frame.dest (f : Frame) : Nat := natBits f.w1.toNat 31 14
def Frame.src (f : Frame) : Nat := natBits f.w2.toNat 31 14
def Frame.flow (f : Frame) : Nat := natBits f.w3.toNat 31 16
def Frame.seq (f : Frame) : Nat := natBits f.w3.toNat 15 0
/-- The correction field, signed nanoseconds * 2^16. -/
def Frame.correction (f : Frame) : Int := sxInt 48 (f.w4.toNat * 2 ^ 16 + natBits f.w5.toNat 31 16)
def Frame.headerCrc (f : Frame) : Nat := natBits f.w5.toNat 15 0

/-- Octets 0 to 21 of the header, most significant octet first (R55, R65). -/
def Frame.head22 (f : Frame) : List Byte :=
  beBytes 4 f.w0.toNat ++ beBytes 4 f.w1.toNat ++ beBytes 4 f.w2.toNat ++ beBytes 4 f.w3.toNat ++ beBytes 4 f.w4.toNat ++
    beBytes 2 (natBits f.w5.toNat 31 16)

/-- The header CRC that the header should carry (R65). -/
def Frame.crcWanted (f : Frame) : Nat := (crc16 f.head22).toNat

/-- The frame with its header CRC made right (R68). -/
def Frame.seal (f : Frame) : Frame := { f with w5 := toW (natPut f.w5.toNat 15 0 f.crcWanted) }

/-- The trailer CRC-32C of a frame: octets 1 and 16 to 23 taken as 0 (R66). -/
def Frame.trailer (f : Frame) : Word :=
  crc32c ((beBytes 4 (natPut f.w0.toNat 23 16 0) ++ beBytes 4 f.w1.toNat ++ beBytes 4 f.w2.toNat ++ beBytes 4 f.w3.toNat) ++
    List.replicate 8 0 ++ f.payload)

/-- The octets of a frame, header then payload, without its CRC-32C (R55, R127). -/
def Frame.octets (f : Frame) : List Byte := f.head22 ++ beBytes 2 f.headerCrc ++ f.payload

/-- The slots a frame occupies (R56). -/
def Frame.slots (f : Frame) : Nat := (28 + f.length + 127) / 128

/-- The frame with path and hops set, its header CRC made right (R68, R86). -/
def Frame.routed (f : Frame) (path hops : Nat) : Frame :=
  ({ f with w0 := toW (natPut (natPut f.w0.toNat 25 25 path) 23 16 hops) }).seal

/-- The correction field with nanoseconds added, saturating at its most positive value (R68). -/
def Frame.addCorrection (f : Frame) (scaled : Int) : Frame :=
  let c := min (f.correction + scaled) (2 ^ 47 - 1)
  let n := toTwos 48 c
  { f with w4 := toW (n / 2 ^ 16), w5 := toW (natPut f.w5.toNat 31 16 (n % 2 ^ 16)) }

/-- A header from its fields (R62), sealed. -/
def mkFrame (kind cls path twin hops dest src flow seq : Nat) (payload : List Byte) : Frame :=
  ({ w0 := toW (kind % 16 * 2 ^ 28 + cls % 4 * 2 ^ 26 + path % 2 * 2 ^ 25 + twin % 2 * 2 ^ 24 + hops % 256 * 2 ^ 16 + payload.length % 1024),
     w1 := toW (dest % 2 ^ 18 * 2 ^ 14), w2 := toW (src % 2 ^ 18 * 2 ^ 14),
     w3 := toW (flow % 65536 * 65536 + seq % 65536), w4 := 0, w5 := 0, payload := payload } : Frame).seal

/-- The classes each kind may use (R64). -/
def kindAllows (kind cls : Nat) : Bool :=
  if kind = 0 then true
  else if kind = 1 || kind = 2 || kind = 3 || kind = 4 || kind = 0xA then 1 ≤ cls
  else if kind = 5 || kind = 7 || kind = 8 || kind = 9 then cls = 1
  else if kind = 6 then cls = 1 || cls = 2
  else if kind = 0xB then cls = 2
  else if kind = 0xC then cls = 3
  else false

/-- Octets of a payload replaced from position i. -/
def patchAt (l : List Byte) (i : Nat) (bs : List Byte) : List Byte := l.take i ++ bs ++ l.drop (i + bs.length)

/-! ### Sequence windows (R104) -/

/-- What a sequence window decides on a frame. -/
inductive SeqVerdict where
  | deliver | duplicate | late | resync | tooOld
deriving DecidableEq, Repr

/-- The window delivers the frame. -/
def SeqVerdict.delivers : SeqVerdict → Bool
  | .deliver | .late | .resync => true
  | _ => false

/-- The sequence window algorithm of R104. -/
def SeqWin.accept (w : SeqWin) (s resync : Nat) : SeqVerdict × SeqWin :=
  let d := (s + 65536 - w.top) % 65536
  if d = 0 then (.duplicate, w)
  else if d < 32768 then
    (.deliver, { top := s, window := if 64 ≤ d then 1 else (w.window <<< d ||| 1) % 2 ^ 64, oldRun := 0 })
  else
    let b := 65536 - d
    if b < 64 then
      if w.window.testBit b then (.duplicate, w)
      else (.late, { w with window := w.window ||| 2 ^ b, oldRun := 0 })
    else if resync ≤ w.oldRun + 1 then (.resync, { top := s, window := 1, oldRun := 0 })
    else (.tooOld, { w with oldRun := w.oldRun + 1 })

/-- RCTL_TIMERS.resync; 0 acts as 4 (R104). -/
def State.resync (s : State) : Nat :=
  let n := s.get rRCTL_TIMERS fRCTL_TIMERS_resync
  if n = 0 then 4 else n

/-! ### Ring-control payloads (R88) -/

/-- The common word of a ring-control message. -/
def rcHead (code : Nat) : List Byte := [toB code, 1, 0, 0]

/-- A signed 32-bit field in 0.1 ns. -/
def be32s (i : Int) : List Byte := beBytes 4 (toTwos 32 i)

def ClaimMsg.octets (m : ClaimMsg) : List Byte :=
  rcHead 0x01 ++ beBytes 18 m.claim ++ beBytes 2 (m.ring % 1024) ++ [toB (b2n m.ready + 2 * b2n m.readyMaster), toB m.master]
/-- COUNT (0x02) and END (0x03): hubs passed, path, master unique ID. -/
def countOctets (code passed path uid : Nat) : List Byte := rcHead code ++ [toB passed, toB path] ++ beBytes 16 uid
def NumberMsg.octets (m : NumberMsg) : List Byte :=
  rcHead 0x04 ++ [toB m.station, toB (m.path + 2 * b2n m.kept + 4 * b2n m.openRing)] ++ beBytes 16 m.uid ++ [0, 0] ++
    be32s m.fwd ++ be32s m.bwd ++ be32s m.transit
def delayReqOctets (path : Nat) : List Byte := rcHead 0x05 ++ [toB path]
def delayRespOctets (path rx tx : Nat) : List Byte := rcHead 0x06 ++ [toB path, 0, 0, 0] ++ beBytes 8 rx ++ beBytes 8 tx
def BeaconMsg.octets (m : BeaconMsg) : List Byte :=
  rcHead 0x08 ++ beBytes 18 m.claim ++ [toB m.master, toB m.n] ++ beBytes 4 m.number ++ [toB (b2n m.takeover)]
def Report.octets (m : Report) : List Byte :=
  rcHead 0x10 ++ [toB m.station, 0] ++ beBytes 16 m.uid ++ [0, 0] ++ be32s m.off0 ++ be32s m.off1 ++ be32s m.linkW ++ be32s m.linkE
def ReadyMsg.octets (m : ReadyMsg) : List Byte :=
  rcHead 0x11 ++ [toB m.n, toB (b2n m.openRing)] ++ beBytes 2 m.loop0 ++ beBytes 2 m.loop1 ++ [0, 0] ++ m.pads.map toB
/-- BREAK (0x12) and HEALED (0x13). -/
def breakOctets (code station : Nat) (p0 p1 : Bool) : List Byte := rcHead code ++ [toB station, toB (b2n p0 + 2 * b2n p1)]
def joinOctets (station side uid : Nat) : List Byte := rcHead 0x14 ++ [toB station, toB side] ++ beBytes 16 uid
def assignOctets (station neighbour uid : Nat) : List Byte := rcHead 0x15 ++ [toB station, toB neighbour] ++ beBytes 16 uid
def DemoteMsg.octets (m : DemoteMsg) : List Byte :=
  rcHead 0x16 ++ beBytes 18 m.claim ++ [toB m.master, 0] ++ beBytes 4 m.effect ++ be32s m.step
def sleepOctets (cancel : Bool) : List Byte := rcHead 0x18 ++ [3, toB (b2n cancel)]
def vetoOctets (station : Nat) : List Byte := rcHead 0x19 ++ [toB station]
def resetOctets (station : Nat) (key : Word) : List Byte := rcHead 0x1A ++ [toB station, 0, 0, 0] ++ beBytes 4 key.toNat
def treeOctets (level upper : Nat) : List Byte := rcHead 0x1B ++ [toB level, 0] ++ beBytes 2 upper

/-- The codes of R88's table. -/
def knownRcCode (c : Nat) : Bool := (1 ≤ c && c ≤ 6) || c = 8 || (0x10 ≤ c && c ≤ 0x1B)

/-! ### Ports, paths and sending -/

/-- The training state of a port (R76); its one home is RGA_PORT_STATE.state. -/
def State.portState (s : State) (r p : Nat) : Nat := s.get (rRGA_PORT_STATE r p) fRGA_PORT_STATE_state

/-- The port is in UP (R76). -/
def State.isUp (s : State) (r p : Nat) : Bool := s.portState r p = 5

/-- The hub can send on the port: it is UP, and its peer does not report remote fault (R77, R107). -/
def State.canSend (s : State) (r p : Nat) : Bool :=
  s.isUp r p && !s.flag (rRGA_PORT_STATE r p) fRGA_PORT_STATE_tx_failed && !((s.rc r).outOfService.contains p)

/-- Ring control's own frames that cross a span out of service: its link-local messages, by which the span's hubs meet, and HEALED, which
ends it (R96, R111 to R113; log entry 93). -/
def crossesSpan (f : Frame) : Bool :=
  (f.kind = 8 || f.kind = 9) && (f.src % 256 = 255 || nthD f.payload 0 0 = 0x13)

/-- A frame can leave on a port: the port can send, or it is out of service and the frame is one of ring control that crosses the span. -/
def State.mayLeave (s : State) (x p : Nat) (f : Frame) : Bool :=
  s.canSend x p || (s.isUp x p && !s.flag (rRGA_PORT_STATE x p) fRGA_PORT_STATE_tx_failed && crossesSpan f)

/-- Transit hubs that a frame passes from station a to station b on a path, on a ring of n stations (R67). -/
def transits (n path a b : Nat) : Nat :=
  let d := if path = 0 then (b + n - a) % n else (a + n - b) % n
  d - 1

/-- A local frame put behind those of a port's queue (R70 item 5); `since` as in Queued. -/
def State.enqueue (s : State) (r p : Nat) (f : Frame) (since : Option Int := none) : State :=
  let x := s.port r p
  s.setPort r p { x with localQ := x.localQ ++ [{ frame := f, tail := .clean, crc := f.trailer, since := since }] }

/-- Path and port: path 0 leaves by East (port 0), path 1 by West (port 1) (R52). -/
def pathOfPort (p : Nat) : Nat := p

/-- The path on which a frame arrives at a port: path 0 at West, path 1 at East (R52). -/
def arrivalPath (p : Nat) : Nat := if p = 1 then 0 else 1

/-- A link-local message sent on each port of the ring that is UP (R85). -/
def State.sendLocalOn (s : State) (x : Nat) (ports : List Nat) (kind : Nat) (payload : List Byte) : State :=
  let node := s.ringNo x * 256 + 255
  ports.foldl (fun s p => if s.isUp x p then s.enqueue x p (mkFrame kind 1 (pathOfPort p) 1 0 node node 0xFFFF 0 payload) else s) s

def State.sendLocal (s : State) (x kind : Nat) (payload : List Byte) : State := s.sendLocalOn x [0, 1] kind payload

/-- Before a station knows N it counts 256, so that its hops suffice (R67, R86). -/
def State.stationsOr256 (s : State) (x : Nat) : Nat := if (s.rc x).count = 0 then 256 else (s.rc x).count

/-- The path that does not cross a broken span, for a frame of class 2 or 3 from station a to b; the shorter one while both
serve, path 0 when they are equal (R109, R112; log entry 14). -/
def State.choosePath (s : State) (x a b : Nat) : Nat :=
  let c := s.rc x
  let n := if c.count = 0 then 256 else c.count
  let crosses (path : Nat) : Bool := c.broken.any (fun br =>
    let from0 := (br.station + n - a) % n
    let to0 := (b + n - a) % n
    if path = 0 then br.path0 && from0 < to0 else br.path1 && to0 ≤ from0)
  if crosses 0 && !crosses 1 then 1
  else if crosses 1 && !crosses 0 then 0
  else if transits n 1 a b < transits n 0 a b then 1 else 0

/-- A frame from this station sent on its ring as its class asks: classes 0 and 1 on both paths with twin = 1 (R63, R109), classes
2 and 3 on one path (R109). `f` carries class, kind and addresses; path, twin and hops are set here (R86). -/
def State.sendRing (s : State) (x : Nat) (f : Frame) : State :=
  let c := s.rc x
  let n := if c.count = 0 then 256 else c.count
  let own := s.get (rRCTL_STATUS x) fRCTL_STATUS_station
  let b := f.dest % 256
  let hops (path : Nat) : Nat := if b = 255 then n - 1 else transits n path own b
  if f.cls ≤ 1 then
    [0, 1].foldl (fun s p =>
      if s.mayLeave x p f then s.enqueue x p (({ f with w0 := toW (natPut f.w0.toNat 24 24 1) }).routed p (hops p)) else s) s
  else
    let p := s.choosePath x own b
    s.enqueue x p (({ f with w0 := toW (natPut f.w0.toNat 24 24 0) }).routed p (hops p))

/-- A routed ring-control message to a station of the ring, or to station 255 (R86). Only a numbered hub sends it. -/
def State.sendRouted (s : State) (x kind station : Nat) (payload : List Byte) : State :=
  match s.nodeId x with
  | none => s
  | some me =>
    let c := s.rc x
    let s := s.setRc x { c with seq := (c.seq + 1) % 65536 }
    s.sendRing x (mkFrame kind 1 0 1 0 (s.ringNo x * 256 + station) me 0xFFFF c.seq payload)

end Sys2Proof.Machine
end

