-- ==== Sys2Proof/Decode.lean ====
section
/-! DEFINITION. The hub has no instruction encoding: the table of operations and events gives its rows no bits (log entry 2). The one command
set that the spec does spell in octets is that of a quad-SPI frame (R249, R250), read and written here. -/
namespace Sys2Proof
open Machine

/-- The command that a word spells by the table's bits: none, since no row of the table has bits (log entry 2). -/
def decodeTableWord (_nbits _w : Nat) : Option Instr := none

/-- The command of a quad-SPI frame at port h, from the octets that the host sends: command octet, address, fields, CRC-8 (R249, R250). A frame
that ends early or whose CRC-8 is wrong is damaged; the operands of an atomic go lowest octet first, as data does. No code: none. -/
def qspiCommand (h : Fin 2) (late : Bool) (l : List Byte) : Option Instr :=
  let body := l.dropLast
  let a := beNat (slice body 1 4)
  let fab := beNat (slice body 1 8)
  let n4 := (nthD body 5 0).toNat
  let n8 := (nthD body 9 0).toNat
  let n10 := (nthD body 10 0).toNat
  let bad (n : Nat) : Bool := body.length != n || l.getLast? != some (crc8 body)
  match (nthD l 0 0).toNat with
  | 1 => some (.qspiLocalRead h (bad 6) late a n4)
  | 2 => some (.qspiLocalWrite h (bad (6 + n4)) late a (slice body 6 n4))
  | 3 => some (.qspiFabricRead h (bad 10) fab n8)
  | 4 => some (.qspiFabricPostedWrite h (bad (10 + n8)) fab (slice body 10 n8))
  | 5 => some (.qspiFabricNonpostedWrite h (bad (10 + n8)) fab (slice body 10 n8))
  | 6 =>
    let first := leNat (slice body 11 n10)
    if n8 = 3 then some (.qspiFabricAtomic h (bad (11 + 2 * n10)) fab n8 n10 (leNat (slice body (11 + n10) n10)) first)
    else some (.qspiFabricAtomic h (bad (11 + n10)) fab n8 n10 first 0)
  | 7 => some (.qspiResult h (bad 1))
  | 8 => some (.qspiInterruptStatus h (bad 1))
  | _ => none

/-- A frame's octets from its body: the CRC-8 goes last (R249). -/
def qspiSealed (body : List Byte) : List Byte := body ++ [crc8 body]

/-- The octets that the host sends for a command of quad-SPI (R250); none for the other commands. -/
def qspiOctets : Instr → Option (List Byte)
  | .qspiLocalRead _ _ _ a n => some (qspiSealed (1 :: beBytes 4 a ++ [toB n]))
  | .qspiLocalWrite _ _ _ a d => some (qspiSealed (2 :: beBytes 4 a ++ toB d.length :: d))
  | .qspiFabricRead _ _ f n => some (qspiSealed (3 :: beBytes 8 f ++ [toB n]))
  | .qspiFabricPostedWrite _ _ f d => some (qspiSealed (4 :: beBytes 8 f ++ toB d.length :: d))
  | .qspiFabricNonpostedWrite _ _ f d => some (qspiSealed (5 :: beBytes 8 f ++ toB d.length :: d))
  | .qspiFabricAtomic _ _ f op n x y =>
    some (qspiSealed (6 :: beBytes 8 f ++ [toB op, toB n] ++ (if op = 3 then leBytes n y else []) ++ leBytes n x))
  | .qspiResult _ _ => some (qspiSealed [7])
  | .qspiInterruptStatus _ _ => some (qspiSealed [8])
  | _ => none

end Sys2Proof
end

