-- ==== Sys2Proof/Machine/Lanes.lean ====
section
/-! DEFINITION. What a ring lane carries (R49 to R57, R72 to R74): rates, ordered sets, 66-bit blocks, the scrambler, the blocks of a frame and
of every slot that a port sends. Bit positions inside a 66-bit block are those of IEEE 802.3 clause 49, which R53 names (log entry 90). -/
namespace Sys2Proof.Machine

/-! ### Rates (R49) -/

/-- The block time in 0.1 ns. -/
def blockTenths (quarter : Bool) : Nat := if quarter then 256 else 64
/-- The slot of 16 blocks in 0.1 ns. -/
def slotTenths (quarter : Bool) : Nat := 16 * blockTenths quarter
/-- The window of the high bit error ratio, in µs (R53). -/
def berWindow (quarter : Bool) : Nat := if quarter then 500 else 125
/-- The invalid sync headers in one window that are a high bit error ratio (clause 49; log entry 90). -/
def berLimit : Nat := 16

/-! ### Ordered sets (R54) -/

def OrdSet.remoteFault : OrdSet := ⟨0x0, 0x00, 0x00, 0x02⟩
/-- A SLOT set with a 24-bit value. -/
def OrdSet.slot (v : Nat) : OrdSet := ⟨0xB, toB (v / 65536), toB (v / 256), toB v⟩
/-- The n-th SLEEP set (R120). -/
def OrdSet.sleep (n : Nat) : OrdSet := ⟨0xA, 0x02, toB n, 0x03⟩
/-- The set that says t. -/
def Train.ordSet (t : Train) : OrdSet :=
  ⟨0xA, 0x01, toB (t.port * 128 + b2n t.ack * 64 + b2n t.ready * 32), toB (b2n t.quarter * 128 + t.version)⟩

/-- What a received ordered set is. -/
inductive SetKind where
  | remoteFault
  | train (t : Train)
  | sleep
  | slot (v : Nat)
  | unknown
deriving DecidableEq, Repr

def OrdSet.kind (t : OrdSet) : SetKind :=
  if t.o = 0xB then .slot (t.d1.toNat * 65536 + t.d2.toNat * 256 + t.d3.toNat)
  else if t.o = 0x0 && t.d1 = 0x00 then .remoteFault
  else if t.o = 0xA && t.d1 = 0x01 then
    .train ⟨t.d3.getLsbD 7, natBits t.d3.toNat 3 0, b2n (t.d2.getLsbD 7), t.d2.getLsbD 6, t.d2.getLsbD 5⟩
  else if t.o = 0xA && t.d1 = 0x02 then .sleep
  else .unknown

/-! ### Blocks (R53) -/

/-- The blocks a hub sends. -/
inductive Block where
  | data (octets : List Byte)
  | idle
  | error
  | terminate
  | set (t : OrdSet)
deriving DecidableEq, Repr

/-- A 66-bit block: the sync header, and the payload of 64 bits, of which bit 0 is sent first. -/
structure Block66 where
  sync : BitVec 2
  body : BitVec 64
deriving DecidableEq, Repr

/-- Eight error characters of 7 bits. -/
def errorChars : Nat := (List.range 8).foldl (fun n i => n + 0x1E * 2 ^ (7 * i)) 0

def Block.encode : Block → Block66
  | .data l => ⟨0b01, BitVec.ofNat 64 (leNat ((l ++ List.replicate 8 0).take 8))⟩
  | .idle => ⟨0b10, 0x1E⟩
  | .error => ⟨0b10, BitVec.ofNat 64 (0x1E + errorChars * 256)⟩
  | .terminate => ⟨0b10, 0x87⟩
  | .set t => ⟨0b10, BitVec.ofNat 64 (0x4B + t.d1.toNat * 2 ^ 8 + t.d2.toNat * 2 ^ 16 + t.d3.toNat * 2 ^ 24 + t.o.toNat * 2 ^ 32)⟩

/-- A received block. Whatever is none of the blocks that a hub sends is an error block. -/
def Block66.decode (b : Block66) : Block :=
  let n := b.body.toNat
  if b.sync = 0b01 then .data (leBytes 8 n)
  else if b.sync != 0b10 then .error
  else if n = 0x1E then .idle
  else if n = 0x87 then .terminate
  else if natBits n 7 0 = 0x4B then
    .set ⟨BitVec.ofNat 4 (natBits n 35 32), toB (natBits n 15 8), toB (natBits n 23 16), toB (natBits n 31 24)⟩
  else .error

/-! ### The scrambler x^58 + x^39 + 1 (R53) -/

/-- One bit scrambled; the last 58 scrambled bits are the history, the newest in bit 0. -/
def scrambleBit (h : BitVec 58) (d : Bool) : Bool × BitVec 58 :=
  let o := d ^^ h.getLsbD 38 ^^ h.getLsbD 57
  (o, (h <<< 1) ||| BitVec.ofNat 58 (b2n o))

/-- One bit descrambled: the history takes the bit as received. -/
def descrambleBit (h : BitVec 58) (o : Bool) : Bool × BitVec 58 :=
  (o ^^ h.getLsbD 38 ^^ h.getLsbD 57, (h <<< 1) ||| BitVec.ofNat 58 (b2n o))

def scramble : BitVec 58 → List Bool → List Bool
  | _, [] => []
  | h, d :: l => (scrambleBit h d).1 :: scramble (scrambleBit h d).2 l

def descramble : BitVec 58 → List Bool → List Bool
  | _, [] => []
  | h, d :: l => (descrambleBit h d).1 :: descramble (descrambleBit h d).2 l

/-- The bits of a block payload in the order of sending. -/
def Block66.bits (b : Block66) : List Bool := (List.range 64).map (fun i => b.body.getLsbD i)

/-! ### Frames on the lane (R55, R56, R72, R73) -/

/-- The octets of a frame as a lane carries them: header, payload, and the CRC-32C, least significant octet first. -/
def Frame.wire (f : Frame) (crc : Word) : List Byte := f.octets ++ leBytes 4 crc.toNat

/-- The data blocks of octets: eight a block, the closing one filled with 0x00. -/
def dataBlocks (l : List Byte) : List Block :=
  (List.range ((l.length + 7) / 8)).map (fun j => .data ((slice l (8 * j) 8 ++ List.replicate 8 0).take 8))

/-- The blocks of a frame over its slots: data, then a terminate block and idles unless the closing block ends the last slot (R56). A marked tail
has an error block at the terminate position, or in place of the closing block (R72); of a broken frame, blocks from `cut` on and
the terminate position are error blocks (R73). -/
def Frame.blocks (f : Frame) (crc : Word) (t : TailKind) (cut : Nat) : List Block :=
  let d := dataBlocks (f.wire crc)
  let n := d.length
  let rest := 16 * f.slots - n
  match t with
  | .clean => d ++ (if rest = 0 then [] else .terminate :: List.replicate (rest - 1) .idle)
  | .errorBlock => if rest = 0 then d.take (n - 1) ++ [.error] else d ++ .error :: List.replicate (rest - 1) .idle
  | .broken => d.take cut ++ List.replicate (n - cut) .error ++ (if rest = 0 then [] else .error :: List.replicate (rest - 1) .idle)

/-- How a received frame of n octets ends, from the blocks of its slots: a control block inside its extent, an error block at the closing
or terminate position, or neither (R73, R74). -/
def tailOf (n : Nat) (l : List Block) : TailKind :=
  let k := (n + 7) / 8
  let isData (b : Block) : Bool := match b with
    | .data _ => true
    | _ => false
  let full := k % 16 = 0
  if !((l.take (if full then k - 1 else k)).all isData) then .broken
  else if l[if full then k - 1 else k]? = some .error then .errorBlock
  else if full && !((l[k - 1]?).any isData) then .broken
  else .clean

/-- The blocks of what a port puts on its lane; a frame's stand with its first slot. In LOCK and ALIGN the place of the TRAIN set in the slot is
the model's (log entry 90). -/
def Lane.blocks (cut : Nat) : Lane → List Block
  | .empty v => .set (.slot v) :: List.replicate 15 .idle
  | .frame f crc t => f.blocks crc t cut
  | .set t => [.set t]
  | .train t none => .set t :: List.replicate 15 .idle
  | .train t (some v) => .set v :: .set t :: List.replicate 14 .idle
  | .fault => List.replicate 16 (.set .remoteFault)
  | .idles => List.replicate 16 .idle
  | .cont | .prbs | .idle => []

end Sys2Proof.Machine
end

