-- ==== Sys2Proof/Machine/Xlt.lean ====
section
/-! DEFINITION. The translation unit (R287 to R291): spaces, the table window, the TLB, walks and the checks of R290. -/
namespace Sys2Proof.Machine

/-- What a translated access does (R290). -/
inductive Xfer where
  | read | write | fetch
deriving DecidableEq, Repr

/-- The access code of XLT_FCAP_INFO. -/
def Xfer.code : Xfer → Nat
  | .read => 0
  | .write => 1
  | .fetch => 2

/-- The outcome of a translation: the cause of R290 (0 when every check passed), the target bus and the output address. -/
structure Xlated where
  cause : Nat
  target : Nat := 0
  out : Nat := 0
  se : Bool := false
deriving DecidableEq, Repr

/-- The requester in whose name a translated master acts, for its space: a DMA channel's owner (R287). -/
def State.spaceOf (s : State) (master : Nat) : Nat :=
  let m := if 0x10 ≤ master && master ≤ 0x1F then
      (match s.dmaOwner (master - 0x10) with
        | some o => o.master
        | none => 0) else master
  let g := if m = 0x01 then 1 else if m = 0x02 then 2 else if m = 0x30 then 3
    else if 0x20 ≤ m && m ≤ 0x23 then 4 else if m = 0x41 then 5 else if m = 0x40 then 6 else 0
  natBits (s.reg rXLT_SPACE_SEL).toNat (2 * g + 1) (2 * g)

/-- The effective table window: first octet and the octet after the last (R288). -/
def State.window (s : State) : Nat × Nat :=
  let b := (s.reg rXLT_TABLE_BASE).toNat / 4096 * 4096
  let n := (s.reg rXLT_TABLE_SIZE).toNat / 4096 * 4096
  (max b 0x1C0000, min (b + n) 0x300000)

/-- n octets from address a lie wholly within the effective window. -/
def State.inWindow (s : State) (a n : Nat) : Bool :=
  let w := s.window
  w.1 ≤ a && a + n ≤ w.2

/-- There is no table window: a size of 0 (R309). -/
def State.noWindow (s : State) : Bool := (s.reg rXLT_TABLE_SIZE).toNat / 4096 = 0

/-- The root of a space is valid, and its level-1 table lies in the effective window; with no window it is the walk that fails (R288 to R290,
R309). -/
def State.rootOk (s : State) (space : Nat) : Bool :=
  let root := s.reg (rXLT_ROOT space)
  bitOf root 0 && (s.noWindow || s.inWindow (root.toNat / 2 ^ 14 * 2 ^ 14) 16384)

/-- A word that was found uncorrectable and has not been rewritten since (R502; log entry 85). -/
def State.badWord (s : State) (a : Nat) : Bool := s.sramBad.contains a && s.word a = 0xFFFFFFFF

/-- A walk: the cause, with the page entry (R288, causes 1 to 3). With no window every walk fails with cause 2 (R309). Cause 10 names an entry of
the two that held an uncorrectable word (R290). -/
def State.walk (s : State) (space a : Nat) : Nat × Word × Word :=
  let base := (s.reg (rXLT_ROOT space)).toNat / 2 ^ 14 * 2 ^ 14
  if !s.rootOk space then (1, 0, 0)
  else if s.noWindow then (2, 0, 0)
  else
    let l1 := s.word (base + 8 * (a / 2 ^ 21))
    let t := l1.toNat / 4096 * 4096
    if !bitOf l1 0 || !s.inWindow t 4096 then (2, 0, 0)
    else
      let e := t + 8 * (a / 4096 % 512)
      let lo := s.word e
      if !bitOf lo 0 then (3, 0, 0)
      else
        let l := base + 8 * (a / 2 ^ 21)
        (if [l, l + 4, e, e + 4].any s.badWord then 10 else 0, lo, s.word (e + 4))

/-- The page entry for an address: from the TLB, or by a walk, which fills the TLB (R291). An armed parity checker takes the entry
found, which is discarded and walked again (R308, R589). -/
def State.pageEntry (s : State) (space a : Nat) : (Nat × Word × Word) × State :=
  let off := s.flag rXLT_EXP fXLT_EXP_tlb_off
  let walkIn (s : State) : (Nat × Word × Word) × State :=
    let r := s.walk space a
    let s := s.inc rXLT_CNT_WALK
    if r.1 != 0 || off then (r, s)
    else (r, { s with tlb := (⟨a / 4096, space, r.2.1, r.2.2⟩ :: s.tlb).take 64 })
  match (if off then none else s.tlb.find? (fun e => e.page = a / 4096 && e.space = space)) with
  | none => walkIn s
  | some e =>
    let rest := s.tlb.filter (fun x => !(x.page = a / 4096 && x.space = space))
    match s.armed 0x08 1 with
    | some _ => walkIn (((s.disarm 0x08).raiseInj 51 0x0A) |> fun t => { t with tlb := rest })
    | none => ((0, e.lo, e.hi), { s.inc rXLT_CNT_HIT with tlb := e :: rest })

/-- The octet lies in the register pages, in a range that a translated master must not touch: a side-effect range of R43 or a page
header. -/
def sideEffectAddr (a : Nat) : Bool := sideEffect (a % 4096) || a % 4096 < 0x040

/-- Translation of one access (R288 to R290). `bus` is the host port that the receive channel is bound to and that is in PCI Express
mode, as target code 1 or 2, else 0 (R294). -/
def State.translate (s : State) (master : Nat) (level : Level) (a : Nat) (x : Xfer) (bus : Nat := 0) : Xlated × State :=
  let space := s.spaceOf master
  if !s.enabled 0x08 || !s.rootOk space then (⟨1, 0, 0, false⟩, s)
  else
    let r := s.pageEntry space a
    let s := r.2
    let lo := r.1.2.1
    let page := (r.1.2.2.toNat * 2 ^ 32 + lo.toNat) / 4096
    let out := page * 4096 + a % 4096
    let tgt := natBits lo.toNat 11 10
    let min := natBits lo.toNat 9 8
    let need := if min = 3 then 2 else min
    let se := bitOf lo 7
    let inPages := tgt = 0 && 0x10000000 ≤ out && out ≤ 0x100FFFFF
    let cause :=
      if r.1.1 != 0 && r.1.1 != 10 then r.1.1
      else if x = .read && !bitOf lo 4 then 4
      else if x = .write && !bitOf lo 5 then 5
      else if x = .fetch && !bitOf lo 6 then 6
      else if lvlRank level < need then 7
      else if inPages && (!se || sideEffectAddr out) then 8
      else if tgt != 0 && tgt != bus then 9
      else if r.1.1 = 10 then 10
      else if tgt = 0 && 2 ^ 32 ≤ out then 11
      else 0
    (⟨cause, tgt, out, se⟩, s)

/-- A failed access recorded: the count, the first-fault capture with its interrupt, and the fault source, 11 in the pager's case
(R290, R309). -/
def State.xltFault (s : State) (master a : Nat) (x : Xfer) (cause size : Nat) : State :=
  let s := s.inc rXLT_CNT_FAULT
  let s := if s.flag rXLT_FCAP_INFO fXLT_FCAP_INFO_valid then s
    else
      let s := s.setReg rXLT_FCAP_INFO (toW (2 ^ 31 + cause * 2 ^ 24 + master * 2 ^ 16 + s.spaceOf master * 2 ^ 14 + x.code * 2 ^ 12))
      let s := s.setReg rXLT_FCAP_ADDR (toW a)
      let node := if 0x10 ≤ master && master ≤ 0x1F then
          (match s.dmaOwner (master - 0x10) with
            | some o => if o.master = 0x30 then o.node else 0
            | none => 0) else 0
      (s.setReg rXLT_FCAP_NODE (toW (node * 2 ^ 14))).irq 0x0A 2
  if master = 0x41 then s
  else
    let src := if cause ≤ 3 then 49 else if cause = 10 then 51 else 50
    s.fault { source := src, page := 0x0A, master := master, type := x.code + 1, size := size, addr := a }

end Sys2Proof.Machine
end

