-- ==== Sys2Proof/Machine/Time.lean ====
section
/-! DEFINITION. The time island (R214 to R220, R223, R231, R232, R239): bases, steps, sessions, lock, event units. -/
namespace Sys2Proof.Machine

/-! ### Bases -/

/-- A base in nanoseconds. -/
def BaseSt.total (b : BaseSt) : Nat := b.sec * 1000000000 + b.ns

/-- A base set to a number of nanoseconds, its seconds of 48 bits. -/
def BaseSt.setTotal (b : BaseSt) (n : Nat) : BaseSt := { b with sec := n / 1000000000 % 2 ^ 48, ns := n % 1000000000 }

/-- One 4 ns tick of a base: the increment is added to fraction and nanoseconds (R215). -/
def BaseSt.tick (b : BaseSt) : BaseSt :=
  let f := b.frac + b.inc
  { b.setTotal (b.total + f / 2 ^ 40) with frac := f % 2 ^ 40 }

/-- The time bases and the island count stand still in L3 and deeper (R218). -/
def State.islandRuns (s : State) : Bool := s.pwr.level < 3

/-- The clocks go on by one tick of 4 ns: the power die's, and unless the time island stands, the bases and the island count (R215, R217). -/
def State.clockTick (s : State) : State :=
  let s : State := { s with pd := { s.pd with ticks := s.pd.ticks + 1 } }
  if s.islandRuns then
    let s := [0, 1, 2, 3].foldl (fun s b => if s.enabled (0x40 + b) then s.setBase b (s.base b).tick else s) s
    { s with servo := { s.servo with island := (s.servo.island + 4) % 2 ^ 64 } }
  else s

/-- The slot count of a hub with no ready ring, in slots of 102.4 ns of its reference clock (R12). The last slot of an epoch ends with the
command EPOCH_BOUNDARY, so the count stands there until it comes (log entry 81). -/
def State.slotTick (s : State) : State :=
  if !s.islandRuns || s.flag (rRCTL_STATUS 0) fRCTL_STATUS_ring_ready || s.flag (rRCTL_STATUS 1) fRCTL_STATUS_ring_ready then s
  else if s.slotPhase + 40 < 1024 then { s with slotPhase := s.slotPhase + 40 }
  else if s.slot % 2 ^ 20 = 2 ^ 20 - 1 then s
  else { s with slotPhase := s.slotPhase + 40 - 1024, slot := s.slot + 1 }

/-! ### Roles (R228) -/

/-- The attachment that TB0 follows: a bridge's upper one, else Ring A. -/
def State.timeAtt (s : State) : Nat := if s.isBridge then s.get rRCTL_CFG fRCTL_CFG_upper else 0

/-- The hub is master of ring 0 on the attachment that TB0 follows. -/
def State.isRoot (s : State) : Bool :=
  s.get (rRCTL_STATUS s.timeAtt) fRCTL_STATUS_state = 5 && s.ringNo s.timeAtt = 0

/-- The kind of source of TB0: 0 reference, 1 SYNC, 2 UPLINK, 3 TB1 (R228, R233). -/
def State.sourceKind (s : State) : Nat :=
  if s.isRoot then (if s.flag (rTB_CFG 0) fTB_CFG_root_follow then 3 else 0)
  else if s.get (rRCTL_STATUS s.timeAtt) fRCTL_STATUS_state = 5 then 2 else 1

/-- The unique ID of the present master of attachment x (RCTL_x_MASTER_UID). -/
def State.masterUid (s : State) (x : Nat) : Nat :=
  (s.reg (rRCTL_MASTER_UID x 0)).toNat * 2 ^ 96 + (s.reg (rRCTL_MASTER_UID x 1)).toNat * 2 ^ 64 +
    (s.reg (rRCTL_MASTER_UID x 2)).toNat * 2 ^ 32 + (s.reg (rRCTL_MASTER_UID x 3)).toNat

/-! ### Work of Anise (R561) -/

/-- Work that Anise drives: done now, or kept until the handover in progress has ended. -/
def State.anise (s : State) (w : Nat × Nat × Nat) (act : State → State) : State :=
  if s.flag rFWU_STATUS fFWU_STATUS_handover_active then
    (if s.boot.held.contains w then s else { s with boot := { s.boot with held := s.boot.held ++ [w] } })
  else act s

/-! ### Lock (R231, R232) -/

def State.setLocked (s : State) (b : Bool) : State := s.put (rTB_STATUS 0) fTB_STATUS_locked (b2n b)
def State.locked (s : State) : Bool := s.flag (rTB_STATUS 0) fTB_STATUS_locked

/-- TB0 leaves the locked state: source 30, the count, the interrupt (R232, R241, R242). -/
def State.lockLost (s : State) : State :=
  if s.locked then (((s.setLocked false).inc (rTB_CNT_LOCK_LOST 0)).irq 0x40 5).raise 30
  else s

/-- TB0 becomes locked. -/
def State.lockGain (s : State) : State := if s.locked then s else (s.setLocked true).irq 0x40 4

/-- The master of ring 0 is locked while its attachment is ring-ready, and, when it follows TB1, while TB1 is locked under the ordinary-clock
firmware, of which the spec gives no more: a free value (R231, log entry 4). -/
def State.rootLock (s : State) : State :=
  if s.isRoot then
    if !s.flag (rRCTL_STATUS s.timeAtt) fRCTL_STATUS_ring_ready then s.lockLost
    else if !s.flag (rTB_CFG 0) fTB_CFG_root_follow then s.lockGain
    else if s.freeN % 2 = 1 then s.step1.lockGain else s.step1.lockLost
  else s

/-- A block reset of TB0: lock and source_valid clear, with source 30 where it was locked, and the epoch's offsets are discarded (R215). -/
def State.tbReset (s : State) : State :=
  let s := s.lockLost
  { s with servo := { s.servo with sum := 0, n := 0 } }

/-! ### Sessions and steps (R219, R220) -/

/-- A servo session opens on base b (R220): step_used clears, the number rises; on TB0 the frequency estimate returns to 0 (R230) and
the lock is lost (R231), to be regained at once by the master of ring 0. -/
def State.openSession (s : State) (b : Nat) : State :=
  let s := s.put (rTB_STATUS b) fTB_STATUS_step_used 0
  let s := s.put (rTB_SESSION b) fTB_SESSION_number (s.get (rTB_SESSION b) fTB_SESSION_number + 1)
  let s := s.irq (0x40 + b) 6
  if b = 0 then (({ s with servo := { s.servo with y := {}, good := 0, bad := 0 } }).lockLost).rootLock else s

/-- The base that event unit u compares or captures with. -/
def State.unitBase (s : State) (u : Nat) : Nat := s.get (rTSU_EVT_CFG u) fTSU_EVT_CFG_base

/-- The compare time of unit u in nanoseconds. -/
def State.compareTime (s : State) (u : Nat) : Nat :=
  (s.get (rTSU_EVT_SEC_HI u) fTSU_EVT_SEC_HI_sec * 2 ^ 32 + (s.reg (rTSU_EVT_SEC_LO u)).toNat) * 1000000000 + (s.reg (rTSU_EVT_NS u)).toNat

/-- The compare time of unit u set. -/
def State.setCompare (s : State) (u t : Nat) : State :=
  let sec := t / 1000000000 % 2 ^ 48
  ((s.setReg (rTSU_EVT_NS u) (toW (t % 1000000000))).setReg (rTSU_EVT_SEC_LO u) (toW sec)).setReg (rTSU_EVT_SEC_HI u) (toW (sec / 2 ^ 32))

/-- The pin of event unit u is routed to the event function (R237, R319). -/
def State.eventPin (s : State) (u : Nat) : Bool := s.get (rPMUX_PIN (u / 4) (u % 4)) fPMUX_PIN_function = 3

/-- The edge that unit u sees of one at its ball: the pin's invert turns it round (R317). -/
def State.pinEdge (s : State) (u : Nat) (rising : Bool) : Bool := rising != s.flag (rPMUX_PIN (u / 4) (u % 4)) fPMUX_PIN_invert

/-- Event unit u is armed and in compare mode, and its block works (R33, R239). -/
def State.comparing (s : State) (u : Nat) : Bool :=
  s.enabled 0x44 && s.flag (rTSU_EVT_STATUS u) fTSU_EVT_STATUS_armed && s.get (rTSU_EVT_CFG u) fTSU_EVT_CFG_mode = 2

def State.unitArmed (s : State) (u : Nat) : Bool := s.flag (rTSU_EVT_STATUS u) fTSU_EVT_STATUS_armed

/-- The level that unit u's compare gives its pin, before invert: 0 until a firing sets it (log entry 82). -/
def State.eventLevel (s : State) (u : Nat) : Bool := spGet (fun _ => false) s.servo.evtLevel u

/-- What unit u drives at its ball: none while the pin is not routed to it, its cluster has no supply, it is not in compare mode, or an
open-drain pin is high (R237, R317 to R319). -/
def State.eventDrive (s : State) (u : Nat) : Option Bool :=
  let a := rPMUX_PIN (u / 4) (u % 4)
  let high := s.eventLevel u != s.flag a fPMUX_PIN_invert
  if s.eventPin u && s.get (rTSU_EVT_CFG u) fTSU_EVT_CFG_mode = 2 && s.flag (rPMUX_BANK (u / 4)) fPMUX_BANK_supply_ok && s.enabled (0xB0 + u / 4) then
    (if high && s.flag a fPMUX_PIN_od then none else some high)
  else none

/-- Unit u gives its pin a level; a pulse that ran there is over. -/
def State.setEvent (s : State) (u : Nat) (l : Bool) : State :=
  let s : State := { s with servo := { s.servo with evtLevel := spSet (fun _ => false) s.servo.evtLevel u l, pulses := spSet (fun _ => 0) s.servo.pulses u 0 } }
  if s.eventPin u then s.emit (.evt u (s.eventDrive u)) else s

/-- The action of unit u on firing (R239, R243): a pulse of `width` times 10 ns with the polarity `level`, a toggle, a level, or nothing. -/
def State.eventAction (s : State) (u : Nat) : State :=
  let cfg := s.reg (rTSU_EVT_CFG u)
  let l := fldOf cfg fTSU_EVT_CFG_level = 1
  let action := fldOf cfg fTSU_EVT_CFG_action
  if action = 0 then
    let s := s.setEvent u l
    { s with servo := { s.servo with
        pulses := spSet (fun _ => 0) s.servo.pulses u (s.servo.island + 10 * max 1 (fldOf cfg fTSU_EVT_CFG_width) + 1) } }
  else if action = 1 then s.setEvent u (!s.eventLevel u)
  else if action = 2 then s.setEvent u l
  else s

/-- The pulses that end at this tick: the pin goes back to the other level. -/
def State.endPulses (s : State) : State :=
  s.servo.pulses.foldl (fun (s : State) e => if e.2 ≤ s.servo.island + 1 then s.setEvent e.1 (!s.eventLevel e.1) else s) s

/-- Unit u drives a trigger line (R240): it stands until the block that it reaches takes it, in the same tick. -/
def State.trigger (s : State) (u : Nat) (clove : Bool) : State :=
  if s.servo.trigs.contains (u, clove) then s else { s with servo := { s.servo with trigs := s.servo.trigs ++ [(u, clove)] } }

/-- A trigger line that event unit u drives is taken: none where it drives none (R240). -/
def State.takeTrig (s : State) (u : Nat) (clove : Bool) (act : State → State) : State :=
  if s.servo.trigs.contains (u, clove) then act { s with servo := { s.servo with trigs := s.servo.trigs.filter (· != (u, clove)) } } else s

/-- Unit u fires: its action, its trigger lines, the flags and interrupts; then it disarms, or its compare time advances by whole
periods to the first that lies after `now` (R239, R240). A compare drives its pin only in function 0x03 (R319). -/
def State.fireUnit (s : State) (u now : Nat) (late : Bool) : State :=
  let cfg := s.reg (rTSU_EVT_CFG u)
  let a := rTSU_EVT_STATUS u
  let s := s.put a fTSU_EVT_STATUS_fired 1
  let s : State := { s with servo := { s.servo with lateUnits := s.servo.lateUnits.filter (· != u) } }
  let s := if late then (s.put a fTSU_EVT_STATUS_late 1).irq 0x44 5 else s
  let s := if fldOf cfg fTSU_EVT_CFG_irq = 1 then s.irq 0x44 4 else s
  let s := s.eventAction u
  let tc := fldOf cfg fTSU_EVT_CFG_trig_clove = 1
  let td := fldOf cfg fTSU_EVT_CFG_trig_do = 1
  let s := if tc || td then s.emit (.trig u tc td) else s
  let s := if tc then s.trigger u true else s
  let s := if td then s.trigger u false else s
  let per := (s.reg (rTSU_EVT_PER u)).toNat
  if per = 0 then s.put a fTSU_EVT_STATUS_armed 0
  else
    let c := s.compareTime u
    s.setCompare u (if c + per ≤ now then c + ((now - c) / per + 1) * per else c + per)

/-- Base b takes a step of n nanoseconds (R219, R220, R239): the island count is recorded; an armed unit whose compare time the step
passes over fires once, late; a TB0 step is recorded in the ledger (R512). -/
def State.applyStep (s : State) (b : Nat) (n : Int) : State :=
  let old := (s.base b).total
  let new := (((old : Int) + n) % ((2 : Int) ^ 48 * 1000000000)).toNat
  let s := s.setBase b ((s.base b).setTotal new)
  let ic := s.servo.island
  let s := (s.setReg (rTB_STEP_AT_LO b) (toW ic)).setReg (rTB_STEP_AT_HI b) (toW (ic / 2 ^ 32))
  let s := ((s.put (rTB_STATUS b) fTB_STATUS_step_used 1).inc (rTB_CNT_STEP b)).irq (0x40 + b) 2
  let s := if 0 < n then
      (List.range 16).foldl (fun s u =>
        if s.comparing u && s.unitBase u = b && old < s.compareTime u && s.compareTime u ≤ new then s.fireUnit u new true else s) s
    else s
  if b = 0 then s.stage 0x04 0 (beBytes 6 (toTwos 48 (max (-(2 ^ 47)) (min n (2 ^ 47 - 1))))) else s

/-- A step is asked for on base b: the first of a session applies at the next tick, a later one is refused (R219). -/
def State.askStep (s : State) (b : Nat) (n : Int) : State :=
  if s.flag (rTB_STATUS b) fTB_STATUS_step_used || (s.base b).step.isSome then
    (s.put (rTB_STATUS b) fTB_STATUS_step_refused 1).irq (0x40 + b) 3
  else s.setBase b { s.base b with step := some n }

/-- The armed units of base b whose compare time their base has reached at a tick fire (R239): late where a write had placed the time at or
before the base. -/
def State.fireDue (s : State) (b : Nat) : State :=
  (List.range 16).foldl (fun s u =>
    if s.comparing u && s.unitBase u = b && s.compareTime u ≤ (s.base b).total then
      s.fireUnit u (s.base b).total (s.servo.lateUnits.contains u) else s) s

/-- The step of base b that waits applies at this tick, before its compares (R219). -/
def State.stepDue (s : State) (b : Nat) : State :=
  match (s.base b).step with
  | none => s
  | some n => (s.setBase b { s.base b with step := none }).applyStep b n

/-- One tick of the time island's bases, steps, pulses and compares (R215 to R219, R239). -/
def State.timeTick (s : State) : State :=
  let s := s.clockTick
  if s.islandRuns then [0, 1, 2, 3].foldl (fun s b => (s.stepDue b).fireDue b) s.endPulses else s

/-- The limits of the increment: ±1,000 ppm of nominal (R216). -/
def incMin : Nat := 4393648464593
def incMax : Nat := 4402444557615

/-- The increment of base b is written: within its limits, and in force from the next tick (R216). -/
def State.setRate (s : State) (b v : Nat) : State :=
  let n := clampN incMin incMax v
  let s := s.setBase b { s.base b with inc := n }
  let s := (s.setReg (rTB_RATE_LO b) (toW n)).setReg (rTB_RATE_HI b) (toW (n / 2 ^ 32))
  if n = v then s else s.warn (0x40 + b)

/-! ### Stamps (R223) -/

/-- Transmit and receive compensation of a point, in 0.1 ns. -/
def State.txComp (s : State) (n : Nat) : Int := sxInt 16 (s.get (rTSU_ASYM n) fTSU_ASYM_tx_comp)
def State.rxComp (s : State) (n : Nat) : Int := sxInt 16 (s.get (rTSU_ASYM n) fTSU_ASYM_rx_comp)

/-- The raw stamp of an event `sub` ns after the last tick, in the island count (R217, R222). -/
def State.rawStamp (s : State) (sub : Nat) : Nat := s.servo.island + sub

/-- The transmit stamp of a frame that leaves port p of ring x now, in 0.1 ns of the island count (R222, R223). -/
def State.txStamp (s : State) (x p sub : Nat) : Int := (s.rawStamp sub : Int) * 10 + s.txComp (2 * x + p)

/-- A raw receive stamp of port p of ring x, compensated, in 0.1 ns (R223). -/
def State.rxStamp (s : State) (x p raw : Nat) : Int := (raw : Int) * 10 - s.rxComp (2 * x + p)

/-- The link delay into port p of attachment x, in 0.1 ns (R96). -/
def State.linkDelay (s : State) (x p : Nat) : Option Int := if p = 0 then (s.rc x).linkE else (s.rc x).linkW

end Sys2Proof.Machine
end

