-- ==== Sys2Proof/Machine/Flow.lean ====
section
/-! DEFINITION. The context manager: the flow index table (R160), contexts (R162), sequence windows of user and system flows
(R104, R179), context slots, misses and victims (R169 to R171). -/
namespace Sys2Proof.Machine

/-! ### The flow index table and the contexts -/

/-- The address of the index entry of a flow (R160). -/
def entAddr (f : Nat) : Nat := 0x180000 + 4 * f
/-- The address of a context slot (R160). -/
def ctxAddr (k : Nat) : Nat := 0x100000 + 128 * k

def State.ent (s : State) (f : Nat) : Nat := (s.word (entAddr f)).toNat
def State.setEnt (s : State) (f n : Nat) : State := s.setWord (entAddr f) (toW n)

/-- States of an entry: 0 absent, 1 resident, 2 paged out, 3 moving. -/
def entState (e : Nat) : Nat := natBits e 31 30
def entPinned (e : Nat) : Bool := natBits e 29 29 = 1
def entEnabled (e : Nat) : Bool := natBits e 28 28 = 1
def entLoc (e : Nat) : Nat := natBits e 19 0
/-- The context slot of a resident flow. -/
def entSlot (e : Nat) : Nat := natBits e 11 0

/-- A field of a context: bits hi down to lo of the word at an offset. -/
def State.ctx (s : State) (k off hi lo : Nat) : Nat := natBits (s.word (ctxAddr k + off)).toNat hi lo

/-- The slot's context has changed since its fetch or creation (R170). -/
def State.touch (s : State) (k : Nat) : State :=
  { s with flw := { s.flw with dirty := spSet (fun _ => false) s.flw.dirty k true } }

/-- A field of a context set. -/
def State.setCtx (s : State) (k off hi lo v : Nat) : State :=
  (s.setWord (ctxAddr k + off) (toW (natPut (s.word (ctxAddr k + off)).toNat hi lo v))).touch k

/-- A 32-bit counter of a context adds n. -/
def State.cntCtx (s : State) (k off n : Nat) : State :=
  (s.setWord (ctxAddr k + off) (s.word (ctxAddr k + off) + toW n)).touch k

/-- cnt_octets, 64 bits, adds n. -/
def State.addOctets (s : State) (k n : Nat) : State :=
  let t := (s.word (ctxAddr k + 0x48)).toNat + 2 ^ 32 * (s.word (ctxAddr k + 0x4C)).toNat + n
  ((s.setWord (ctxAddr k + 0x48) (toW t)).setWord (ctxAddr k + 0x4C) (toW (t / 2 ^ 32))).touch k

/-- The fields of R162 by name. -/
def State.ctxRole (s : State) (k : Nat) : Nat := s.ctx k 0 15 14
def State.ctxClass (s : State) (k : Nat) : Nat := s.ctx k 0 13 12
def State.ctxEnabled (s : State) (k : Nat) : Bool := s.ctx k 0 11 11 = 1
def State.ctxPinned (s : State) (k : Nat) : Bool := s.ctx k 0 10 10 = 1
def State.ctxReadmit (s : State) (k : Nat) : Bool := s.ctx k 0 9 9 = 1
def State.ctxKeyEn (s : State) (k : Nat) : Bool := s.ctx k 0 8 8 = 1
def State.ctxKey (s : State) (k : Nat) : Nat := s.ctx k 0 7 0
def State.ctxFlow (s : State) (k : Nat) : Nat := s.ctx k 0 31 16
def State.ctxPort (s : State) (k : Nat) : Nat := s.ctx k 8 11 8
def State.ctxQueue (s : State) (k : Nat) : Nat := s.ctx k 8 7 0

/-- What a frame of the flow in slot k takes with it from its lookup (R13). -/
def State.holdCtx (s : State) (k : Nat) : HeldCtx := 
  { flow := s.ctxFlow k, role := s.ctxRole k, keyEn := s.ctxKeyEn k, key := s.ctxKey k, port := s.ctxPort k, queue := s.ctxQueue k }

/-- enabled, in the entry and in the context, in one step (R161). -/
def State.setEnabled (s : State) (f k : Nat) (b : Bool) : State :=
  (s.setEnt f (natPut (s.ent f) 28 28 (b2n b))).setCtx k 0 11 11 (b2n b)

/-- pinned, in the entry and in the context (R161). -/
def State.setPinned (s : State) (f k : Nat) (b : Bool) : State :=
  (s.setEnt f (natPut (s.ent f) 29 29 (b2n b))).setCtx k 0 10 10 (b2n b)

def State.setReadmit (s : State) (k : Nat) (b : Bool) : State := s.setCtx k 0 9 9 (b2n b)

/-- The window of a context set to the start values of R104. -/
def State.startWindow (s : State) (k : Nat) : State :=
  (((s.setCtx k 0x0C 15 0 0xFFFF).setCtx k 0x10 31 0 0xFFFFFFFF).setCtx k 0x14 31 0 0xFFFFFFFF).setCtx k 0x18 31 28 0

/-- The sequence window of a context. -/
def State.ctxWin (s : State) (k : Nat) : SeqWin :=
  ⟨s.ctx k 0x0C 15 0, (s.word (ctxAddr k + 0x10)).toNat + 2 ^ 32 * (s.word (ctxAddr k + 0x14)).toNat, s.ctx k 0x18 31 28⟩

/-- The window of a context after a frame. -/
def State.setCtxWin (s : State) (k : Nat) (w : SeqWin) : State :=
  (((s.setCtx k 0x0C 15 0 w.top).setCtx k 0x10 31 0 (w.window % 2 ^ 32)).setCtx k 0x14 31 0 (w.window / 2 ^ 32)).setCtx k 0x18 31 28 (min 15 w.oldRun)

/-- A frame passes the window of its context, with the count that R104 names (R162). -/
def State.windowCtx (s : State) (k seq : Nat) : SeqVerdict × State :=
  let r := (s.ctxWin k).accept seq s.resync
  let s := s.setCtxWin k r.2
  (r.1, match r.1 with
    | .deliver => s
    | .duplicate => s.cntCtx k 0x50 1
    | .late => s.cntCtx k 0x54 1
    | .tooOld => s.cntCtx k 0x58 1
    | .resync => s.cntCtx k 0x5C 1)

/-- The last-use mark of a slot (R168 row 4). -/
def State.markUse (s : State) (k : Nat) : State :=
  { s with flw := { s.flw with used := spSet (fun _ => 0) s.flw.used k (s.flw.clock + 1), clock := s.flw.clock + 1 } }

/-- A context that comes into a slot has not been looked up there. -/
def State.unmarkUse (s : State) (k : Nat) : State := { s with flw := { s.flw with used := spSet (fun _ => 0) s.flw.used k 0 } }

/-! ### Context slots -/

/-- The flow in a slot, none when the slot is free. -/
def State.slotFlow (s : State) (k : Nat) : Option Nat :=
  match spGet (fun _ => 0) s.flw.slots k with
  | 0 => none
  | n + 1 => some n

/-- The slots that hold a resident context, with their flows. -/
def State.residents (s : State) : List (Nat × Nat) := s.flw.slots.map (fun e => (e.1, e.2 - 1))

/-- The lowest free slot (R164: the hub chooses), the slot of a job in service apart. -/
def State.freeSlot (s : State) : Option Nat :=
  (List.range 4096).find? (fun k => (s.slotFlow k).isNone && !(s.flw.job.any (fun j => j.slot = k)))

/-- Pinned contexts (R174). -/
def State.pinnedCount (s : State) : Nat := (s.residents.filter (fun e => s.ctxPinned e.1)).length

def State.setSlot (s : State) (k : Nat) (f : Option Nat) : State :=
  { s with flw := { s.flw with slots := spSet (fun _ => 0) s.flw.slots k (match f with | some n => n + 1 | none => 0) } }

/-- The jobs or commands that concern a flow (R171). -/
def State.busyFlow (s : State) (f : Nat) : Bool :=
  s.flw.misses.contains (.fetch f) ||
    (match s.flw.job with
      | some j => j.job = .fetch f || j.victim = some f
      | none => false) ||
    s.flw.retries.contains f || s.flw.wait.any (fun w => w.2 = f) || s.flw.load.any (fun w => w.2 = f)

/-- Frames of a flow are in the core, or at an endpoint in the middle (R171): cells in it, frames that an endpoint has not taken from the banks,
that wait at a receive channel, or that the cipher works on. -/
def State.flowInCore (s : State) (f : Nat) : Bool :=
  let cell (c : FCell) : Bool := c.held.any (fun h => h.flow = f)
  let frame (d : Delivered) : Bool := d.held.any (fun h => h.flow = f)
  s.fab.inputs.any (fun e => e.2.any cell) || s.fab.mids.any (fun e => e.2.any cell) || s.fab.streams.any (fun e => e.2.held.any cell) ||
    s.fab.egress.any (fun e => e.2.queue.any cell || e.2.got.any cell) ||
    s.fab.ports.any (fun e => e.2.any (fun d => d.bank != [] && frame d)) || s.fab.src.any (fun e => e.2.any frame) ||
    s.dmas.any (fun e => e.2.open_.any (fun o => frame o.d)) || s.ciph.frame.any (fun x => frame x.d)

/-- The victim of R171: the least recently looked-up resident context that may leave its slot. With paging off none may (R177). -/
def State.victim (s : State) : Option (Nat × Nat) :=
  let ok := s.residents.filter (fun e =>
    s.flag rFLOW_CTRL fFLOW_CTRL_paging_en && !s.ctxPinned e.1 && !(s.flw.hold.any (fun h => h.flow = e.2)) && !s.busyFlow e.2 &&
      !spGet (fun _ => false) s.flw.stuck e.1 && !s.flowInCore e.2)
  ok.foldl (fun best e =>
    match best with
    | none => some e
    | some b => if spGet (fun _ => 0) s.flw.used e.1 < spGet (fun _ => 0) s.flw.used b.1 then some e else some b) none

/-- The check word of a context: CRC-32C over offsets 0x00 to 0x7B (R162). -/
def State.ctxCheck (s : State) (k : Nat) : Word := crc32c (s.bytes (ctxAddr k) 124)

/-- A frame or command meets a flow that is not resident: a miss, counted once for each flow waiting (R168 row 5, R170). The entry
becomes moving. -/
def State.miss (s : State) (f : Nat) : State :=
  if s.busyFlow f then s
  else
    let s := s.inc rFLOW_CNT_MISS
    let s := s.setEnt f (natPut (s.ent f) 31 30 3)
    { s with flw := { s.flw with misses := s.flw.misses ++ [.fetch f] } }

/-- Frames of a flow that wait at the inputs are discarded and counted (R164 delete). -/
def State.dropWaiting (s : State) (f : Nat) : State :=
  let out := s.flw.waiting.filter (fun w => w.frame.flow = f)
  let s := { s with flw := { s.flw with waiting := s.flw.waiting.filter (fun w => w.frame.flow != f) } }
  s.addCnt rFLOW_CNT_DISABLED out.length

/-- A frame or a block reset abandons the eviction in progress: the victim stays resident, and the miss is served anew (R167, R171). -/
def State.abandonEvict (s : State) : State :=
  match s.flw.job with
  | none => s
  | some j =>
    let s := match j.victim with
      | some v => s.setEnt v (natPut (natPut (s.ent v) 31 30 1) 19 0 j.slot)
      | none => s
    { s with flw := { s.flw with job := none, misses := j.job :: s.flw.misses } }

/-- The pager's job stops short where it writes flow f back: f stays resident (R171; a command on f does the same, log entry 83). -/
def State.keepVictim (s : State) (f : Nat) : State := if s.flw.job.any (fun j => j.victim = some f) then s.abandonEvict else s

/-- The fetch of a flow is no longer wanted: its miss, its retry and its fetch in service end, with the eviction that served it, and its
entry stays paged out (R173). -/
def State.cancelFetch (s : State) (f : Nat) : State :=
  let s : State := if s.flw.job.any (fun j => j.job = .fetch f) then s.abandonEvict else s
  let flw := { s.flw with misses := s.flw.misses.filter (fun j => j != Job.fetch f) }
  let flw := { flw with retries := flw.retries.filter (· != f) }
  let flw := { flw with noVictim := flw.noVictim.filter (fun j => j != Job.fetch f) }
  let s : State := { s with flw := flw }
  if entState (s.ent f) = 3 then s.setEnt f (natPut (s.ent f) 31 30 2) else s

/-- A flow has been disabled: its fetch ends, unless a view load waits for it too (R166, R173). -/
def State.unwanted (s : State) (f : Nat) : State := if s.flw.load.any (fun w => w.2 = f) then s else s.cancelFetch f

/-- A block reset of FLOW ends a view hold, abandons the command in progress and restarts pending fetches and evictions; the table, the
contexts and the system cache stay (R164, R167). -/
def State.flowReset (s : State) : State :=
  let s := s.abandonEvict
  { s with flw := { s.flw with hold := none, wait := none, waitFault := false, load := none } }

/-- The translated address of a backing index (R160). -/
def State.backAddr (s : State) (b : Nat) : Nat := (s.reg rFLOW_BACK).toNat / 128 * 128 + 128 * b

/-- The enabled class 0 flows, by slot (they are pinned, so resident). -/
def State.timedFlows (s : State) : List (Nat × Nat) :=
  s.residents.filter (fun e => s.ctxEnabled e.1 && s.ctxClass e.1 = 0)

/-! ### System flows (R178, R179) -/

/-- The endpoint port of a system flow's requester code; none when it is reserved (R178). -/
def sysPort (flow : Nat) : Option Nat :=
  let r := natBits flow 11 8
  if r = 0 then some 4 else if r = 1 then some 5 else if r = 2 || r = 3 then some 6 else if r = 4 then some 14 else none

/-- A frame of a system flow passes the window of its source and flow ID. None when every entry is protected; an entry that counts posted
writes stays until their ack is sent (R266). -/
def State.windowSys (s : State) (src flow seq : Nat) : Option (SeqVerdict × State) :=
  let run (e : SysWin) (rest : List SysWin) : SeqVerdict × State :=
    let r := e.win.accept seq s.resync
    (r.1, { s with flw := { s.flw with sys := { e with win := r.2, last := s.slot, guarded := true } :: rest } })
  match s.flw.sys.find? (fun e => e.src = src && e.flow = flow) with
  | some e => some (run e (s.flw.sys.filter (fun x => !(x.src = src && x.flow = flow))))
  | none =>
    if s.flw.sys.length < 512 then some (run ⟨src, flow, {}, 0, true, 0, 0, 0⟩ s.flw.sys)
    else match (s.flw.sys.reverse.find? (fun e => !e.guarded && e.posted = 0)) with
      | some v => some (run ⟨src, flow, {}, 0, true, 0, 0, 0⟩ (s.flw.sys.filter (fun x => !(x.src = v.src && x.flow = v.flow))))
      | none => none

end Sys2Proof.Machine
end

