-- ==== Sys2Proof/Machine/Timetable.lean ====
section
/-! DEFINITION. The timetable (R182 to R202): banks, bitmap and calendar, slot lists, admission and re-admission, distribution
and activation, and what ring_ready does to them. -/
namespace Sys2Proof.Machine

/-! ### Memory layout (R185) -/

def bankBase (x bank : Nat) : Nat := 0x20000 * x + 0x10000 * bank
def bitmapBase (x : Nat) : Nat := 0x40000 + 0x2000 * x
def calBase (x : Nat) : Nat := 0x44000 + 0x400 * x

def State.ttValid (s : State) (x : Nat) : Bool := s.flag (rTTB_STATUS x) fTTB_STATUS_valid
def State.ttMissed (s : State) (x : Nat) : Bool := s.flag (rTTB_STATUS x) fTTB_STATUS_missed
def State.ttBank (s : State) (x : Nat) : Nat := s.get (rTTB_STATUS x) fTTB_STATUS_bank
/-- The period of the active table (R182). -/
def State.ttPeriod (s : State) (x : Nat) : Nat := 2 ^ s.get (rTTB_STATUS x) fTTB_STATUS_n

/-- The owner byte of a slot in a bank. -/
def State.owner (s : State) (x bank k : Nat) : Nat := (s.ttByte (bankBase x bank + k)).toNat

/-- The bitmap bit of a slot. -/
def State.mapBit (s : State) (x k : Nat) : Bool := (s.ttByte (bitmapBase x + k / 8)).toNat.testBit (k % 8)
def State.setMapBit (s : State) (x k : Nat) (b : Bool) : State :=
  let a := bitmapBase x + k / 8
  s.setTtByte a (toB (natPut (s.ttByte a).toNat (k % 8) (k % 8) (b2n b)))

/-- The bitmap bits of the slots k to k + n - 1. -/
def State.setMapBits (s : State) (x k n : Nat) (b : Bool) : State :=
  (List.range n).foldl (fun s i => s.setMapBit x (k + i) b) s

/-- A calendar entry (R185). -/
structure CalEnt where
  slot : Nat
  span : Nat
  ctx : Nat
deriving DecidableEq, Repr

/-- The entries of a send calendar from entry i on, at most `fuel`. -/
def State.calFrom (s : State) (x : Nat) : Nat → Nat → List CalEnt
  | 0, _ => []
  | fuel + 1, i =>
    let w := (s.ttWord (calBase x + 4 * i)).toNat
    if w = 0xFFFFFFFF then [] else ⟨natBits w 31 16, natBits w 13 12, natBits w 11 0⟩ :: s.calFrom x fuel (i + 1)

/-- The send calendar of attachment x. -/
def State.calendar (s : State) (x : Nat) : List CalEnt := s.calFrom x 256 0

/-- The octets of calendar entries. -/
def calOctets : List CalEnt → List Byte
  | [] => []
  | e :: l => leBytes 4 (e.slot * 65536 + e.span * 4096 + e.ctx) ++ calOctets l

/-- The send calendar replaced; entries that are left over become unused. -/
def State.setCalendar (s : State) (x : Nat) (l : List CalEnt) : State :=
  let old := (s.calendar x).length
  s.setTtBytes (calBase x) (calOctets l ++ List.replicate (4 * (old - l.length)) 0xFF)

/-- An entry put in its place by slot. -/
def calInsert (e : CalEnt) : List CalEnt → List CalEnt
  | [] => [e]
  | c :: l => if e.slot < c.slot then e :: c :: l else c :: calInsert e l

/-- Slots owned by this station in the active bank (TTB_x_OWNED). -/
def State.ownedCount (s : State) (x : Nat) : Nat :=
  if s.ttValid x then
    let b := bankBase x (s.ttBank x)
    (s.ttm.filter (fun c => b ≤ c.1 && c.1 < b + s.ttPeriod x && c.2.toNat = s.get (rRCTL_STATUS x) fRCTL_STATUS_station)).length
  else 0

/-! ### Slot lists (R193, R194) -/

structure SlotEnt where
  last : Bool
  arrive : Bool
  att : Nat
  span : Nat
  sender : Nat
  slot : Nat
deriving DecidableEq, Repr

def slotEntOf (w : Nat) : SlotEnt :=
  ⟨natBits w 31 31 = 1, natBits w 30 30 = 1, natBits w 29 29, natBits w 25 24, natBits w 23 16, natBits w 15 0⟩

/-- The list from entry e on: none when it leaves the region or has more than `fuel` entries. -/
def State.slotList (s : State) : Nat → Nat → Option (List SlotEnt)
  | 0, _ => none
  | fuel + 1, e =>
    if 49152 ≤ e then none
    else
      let x := slotEntOf (s.ttWord (0x50000 + 4 * e)).toNat
      if x.last then some [x] else (s.slotList fuel (e + 1)).map (x :: ·)

/-- The list of the context in slot k. -/
def State.ctxList (s : State) (k : Nat) : Option (List SlotEnt) := s.slotList 64 (s.ctx k 0x1C 31 16)

/-- The send entries and the arrive entries that a role uses (R194). -/
def sends (l : List SlotEnt) : List SlotEnt := l.filter (fun e => !e.arrive)
def arrives (l : List SlotEnt) : List SlotEnt := l.filter (fun e => e.arrive)

/-- The send entries on attachment x of the context in slot k, where its role sends. -/
def State.sendsOn (s : State) (k x : Nat) : List SlotEnt :=
  if s.ctxRole k = 1 then [] else (sends ((s.ctxList k).getD [])).filter (fun e => e.att = x)

/-- The slots that the enabled transmit and relay flows hold on attachment x, but for the context in slot k: as many cells (R199, R200,
TTB_x_USE). -/
def State.committed (s : State) (x k : Nat) : Nat :=
  (s.timedFlows.filter (fun e => e.1 != k)).foldl (fun n e => n + (s.sendsOn e.1 x).foldl (fun m a => m + a.span + 1) 0) 0

/-- Every send slot of the context in slot k on attachment x is owned by this station in the active bank (R191). -/
def State.ownsSlots (s : State) (k x : Nat) : Bool :=
  s.ttValid x && (s.sendsOn k x).all (fun e => (List.range (e.span + 1)).all (fun i =>
    e.slot + i < s.ttPeriod x && s.owner x (s.ttBank x) (e.slot + i) = s.get (rRCTL_STATUS x) fRCTL_STATUS_station))

/-- The flow names an attachment in its list. -/
def State.names (s : State) (k x : Nat) : Bool := ((s.ctxList k).getD []).any (fun e => e.att = x)

/-! ### The cause register (R212) -/

/-- A cause bit is set; source 15 when it goes from 0 to 1. -/
def State.ttbCause (s : State) (f : Fld) : State :=
  if s.flag rTTB_FAULT_CAUSE f then s else (s.put rTTB_FAULT_CAUSE f 1).raise 15

/-! ### Spacing (R201) -/

/-- Two ranges of given lengths, modulo p, have a slot in common. -/
def rangesMeet (p a la b lb : Nat) : Bool := (b + p - a % p) % p < la || (a + p - b % p) % p < lb

/-- The candidate ranges of an arrive entry: first slots and length. -/
def State.candidates (s : State) (p : Nat) (e : SlotEnt) : List Nat × Nat :=
  let opn := s.flag (rRCTL_STATUS e.att) fRCTL_STATUS_open
  let l0 := if opn then 0 else s.get (rRCTL_LOOP e.att) fRCTL_LOOP_loop0
  let l1 := if opn then 0 else s.get (rRCTL_LOOP e.att) fRCTL_LOOP_loop1
  let d := if s.flag (rRGA_CFG e.att) fRGA_CFG_rate then 5 else 20
  ([e.slot % p, (e.slot + l0) % p, (e.slot + l1) % p], e.span + d)

/-- Two entries keep clear of each other. -/
def State.clear (s : State) (p : Nat) (a b : SlotEnt) : Bool :=
  let x := s.candidates p a
  let y := s.candidates p b
  x.1.all (fun i => y.1.all (fun j => !rangesMeet p i x.2 j y.2))

/-- Every two entries of a list keep clear. -/
def State.clearList (s : State) (p : Nat) : List SlotEnt → Bool
  | [] => true
  | e :: l => l.all (fun x => s.clear p e x) && s.clearList p l

/-- Two receive contexts share a group: the endpoint port, or the keyed group. -/
def State.sameGroup (s : State) (k j : Nat) : Bool :=
  s.ctxPort k = s.ctxPort j || (s.ctxKeyEn k && s.ctxKeyEn j)

/-- The spacing check of the receive context in slot k, against the other enabled receive flows, with period p (R201). -/
def State.spacingOk (s : State) (k p : Nat) : Bool :=
  let mine := arrives ((s.ctxList k).getD [])
  let att := (mine.head?.map (·.att)).getD 0
  let others := s.timedFlows.filter (fun e => e.1 != k && s.ctxRole e.1 = 1 && s.sameGroup k e.1)
  mine.all (fun e => e.att = att) && s.clearList p mine &&
    others.all (fun o => (arrives ((s.ctxList o.1).getD [])).all (fun b => b.att = att && mine.all (fun a => s.clear p a b)))

/-- A change of RCTL_x_LOOP: the enabled receive flows of the attachment are checked again (R201). -/
def State.spacingRecheck (s : State) (x : Nat) : State :=
  let flows := s.timedFlows.filter (fun e => s.ctxRole e.1 = 1 && s.names e.1 x)
  let ok := flows.all (fun e => s.spacingOk e.1 (s.ttPeriod x))
  if ok then s.put (rTTB_STATUS x) fTTB_STATUS_spacing_stale 0
  else (s.put (rTTB_STATUS x) fTTB_STATUS_spacing_stale 1).ttbCause fTTB_FAULT_CAUSE_spacing_stale

/-! ### Admission (R199, R200) -/

/-- The payload growth of a key slot's frame mode (R439). -/
def State.growth (s : State) (key : Nat) : Nat := if natBits (s.key key).attr 30 29 = 2 then 8 else 24

/-- The banks that a slot check is made against: the active one, and the pending one; bank and period. -/
def State.checkBanks (s : State) (x : Nat) : List (Nat × Nat) :=
  (s.ttBank x, s.ttPeriod x) :: (match (s.ttb x).pend with
    | some t => [(1 - s.ttBank x, 2 ^ t.n)]
    | none => [])

/-- The slots of entry e in order. -/
def entSlots (e : SlotEnt) : List Nat := (List.range (e.span + 1)).map (· + e.slot)

/-- Slots strictly rising. -/
def rising : List SlotEnt → Bool
  | a :: b :: l => decide (a.slot < b.slot) && rising (b :: l)
  | _ => true

/-- The list is well formed for the role and the periods (R199, 0x04). -/
def State.wellFormed (s : State) (role : Nat) (l : List SlotEnt) : Bool :=
  let snd := sends l
  let arr := arrives l
  (if role = 0 then arr = [] else if role = 1 then snd = []
    else (match arr.head?, snd.head? with
      | some a, some b => a.att != b.att && arr.all (fun e => e.att = a.att) && snd.all (fun e => e.att = b.att)
      | _, _ => false)) &&
    l.all (fun e => (s.checkBanks e.att).all (fun b => e.slot + e.span < b.2)) && rising snd

/-- The admission checks in order for the context in slot k: 0 when every one passes, else the code of the first that fails. The
flow's own bitmap bits and calendar entries are not in the way: the caller has removed them. -/
def State.admission (s : State) (k : Nat) : Nat :=
  let role := s.ctxRole k
  let own (x : Nat) := s.get (rRCTL_STATUS x) fRCTL_STATUS_station
  if !s.ctxPinned k then 0x01
  else
    let l := (s.ctxList k).getD []
    let atts := [0, 1].filter (fun x => l.any (fun e => e.att = x))
    let snd := if role = 1 then [] else sends l
    let used := if role = 1 then arrives l else snd
    if !(atts.all (fun x => s.flag (rRCTL_STATUS x) fRCTL_STATUS_ring_ready)) || !s.locked then 0x02
    else if !(atts.all (fun x => s.ttValid x && !s.ttMissed x)) then 0x03
    else if (s.ctxList k).isNone || !s.wellFormed role l then 0x04
    else if !(snd.all (fun e => (s.checkBanks e.att).all (fun b => (entSlots e).all (fun i => s.owner e.att b.1 i = own e.att)))) then 0x05
    else if !(snd.all (fun e => (entSlots e).all (fun i => s.mapBit e.att i))) then 0x06
    else if s.ctx k 0x1C 15 0 != used.foldl (fun n e => n + e.span + 1) 0 then 0x07
    else if !(snd.all (fun e =>
        28 + s.ctx k 0x28 9 0 + (if role = 0 && s.ctxKeyEn k then s.growth (s.ctxKey k) else 0) ≤ 128 * (e.span + 1))) then 0x08
    else
      let slotsOn (x : Nat) := (snd.filter (fun e => e.att = x)).foldl (fun n e => n + e.span + 1) 0
      let countOn (x : Nat) := (snd.filter (fun e => e.att = x)).length
      let pct := s.get rTTB_CFG fTTB_CFG_share_pct
      if snd.any (fun e => (s.checkBanks e.att).any (fun b => b.2 * pct / 100 < s.committed e.att k + slotsOn e.att)) then 0x09
      else if snd.any (fun e => 256 < s.committed e.att k + slotsOn e.att || 256 < (s.calendar e.att).length + countOn e.att) then 0x0A
      else if role = 1 && !s.flag rTTB_EXP fTTB_EXP_spacing_off &&
          !(atts.all (fun x => (s.checkBanks x).all (fun b => s.spacingOk k b.2))) then 0x0B
      else 0

/-- The slots of the flow in context slot k are taken: bitmap bits cleared, calendar entries inserted (R199). -/
def State.install (s : State) (k : Nat) : State :=
  if s.ctxRole k = 1 then s
  else (sends ((s.ctxList k).getD [])).foldl (fun s e =>
    (s.setMapBits e.att e.slot (e.span + 1) false).setCalendar e.att (calInsert ⟨e.slot, e.span, k⟩ (s.calendar e.att))) s

/-- The slots of the enabled flow in context slot k are given back on attachment x: they are free again where it held them (R191), and
its calendar entries go. -/
def State.uninstallOn (s : State) (k x : Nat) : State :=
  let s := if s.ownsSlots k x then (s.sendsOn k x).foldl (fun s e => s.setMapBits x e.slot (e.span + 1) true) s else s
  let cal := s.calendar x
  if cal.all (fun e => e.ctx != k) then s else s.setCalendar x (cal.filter (fun e => e.ctx != k))

def State.uninstall (s : State) (k : Nat) : State := (s.uninstallOn k 0).uninstallOn k 1

/-- A refusal is logged, or counted when the log is full (R199, R213). -/
def State.logRefusal (s : State) (flow code : Nat) (readmit : Bool) : State :=
  let s := s.inc rTTB_CNT_REFUSED
  if s.ttbLog.length < 16 then ({ s with ttbLog := s.ttbLog ++ [toW (flow * 65536 + code * 256 + b2n readmit)] }).irq 0x38 3
  else s.incSat rTTB_LOG_STATUS fTTB_LOG_STATUS_lost

/-- The discarded frames of a disabled flow are removed from the transmit stores and counted (R199). -/
def State.dropStored (s : State) (flow : Nat) : State :=
  [0, 1].foldl (fun s x =>
    let t := s.ttb x
    let cells (l : List (Nat × Queued)) (i : Nat) (s : State) : State :=
      l.foldl (fun s e => if e.1 = flow then s.addCnt (rFAB_DISCARD i) ((24 + e.2.frame.length + 127) / 128) else s) s
    let s := cells t.store1 (2 * x + 1) (cells t.store0 (2 * x) s)
    s.setTtb x { t with store0 := t.store0.filter (fun e => e.1 != flow), store1 := t.store1.filter (fun e => e.1 != flow) }) s

/-- A flow is disabled (R164, R199). -/
def State.disableFlow (s : State) (f k : Nat) : State :=
  let s := if s.ctxClass k = 0 then (s.uninstall k).dropStored f else s
  s.setEnabled f k false

/-- Re-admission of the flow in slot k (R199): the checks are made as if it held no slots; it keeps them while only code 0x02 fails, and is tried
again at each epoch boundary. -/
def State.readmitOne (s : State) (k f : Nat) : State :=
  let s : State := { s with flw := { s.flw with again := s.flw.again.filter (· != f) } }
  let t := s.uninstall k
  let code := t.admission k
  if code = 0 then ((t.install k).setReadmit k false).irq 0x38 4
  else if code = 2 then { s with flw := { s.flw with again := s.flw.again ++ [f] } }
  else
    ((((t.disableFlow f k).setReadmit k false).logRefusal f code true).irq 0x38 4).ttbCause fTTB_FAULT_CAUSE_readmit_failed

/-- Every enabled flow with readmit = 1 runs the checks again (R199). -/
def State.readmitAll (s : State) : State :=
  (s.timedFlows.filter (fun e => s.ctxReadmit e.1)).foldl (fun s e => s.readmitOne e.1 e.2) s

/-- At an epoch boundary those run them whose re-admission has failed with code 0x02 alone (R199). -/
def State.readmitAgain (s : State) : State :=
  (s.timedFlows.filter (fun e => s.ctxReadmit e.1 && s.flw.again.contains e.2)).foldl (fun s e => s.readmitOne e.1 e.2) s

/-- readmit is set on the enabled class 0 flows that name an attachment. -/
def State.markReadmit (s : State) (x : Nat) : State :=
  (s.timedFlows.filter (fun e => s.names e.1 x)).foldl (fun s e => s.setReadmit e.1 true) s

/-! ### Slots in force (R183, R190, R198) -/

/-- The period exponent of a bank that TTB_EXP_SWAP makes active: that of the active table, or the whole bank where there is none (R213,
log entry 32). -/
def State.swapN (s : State) (x : Nat) : Nat := if s.ttValid x then s.get (rTTB_STATUS x) fTTB_STATUS_n else 16

/-- Slot a lies at or after slot count e, both modulo 2^20. -/
def notBefore (e a : Nat) : Bool := (a + 2 ^ 20 - e % 2 ^ 20) % 2 ^ 20 < 2 ^ 19

/-- The owner byte in force for a slot, a pending switch taken into account (R183, R190, R198, R213). -/
def State.ownerAt (s : State) (x slot : Nat) : Nat :=
  let t := s.ttb x
  let sw := match t.pend, t.swap with
    | some p, some e => if notBefore p.effect slot then some p.n else if notBefore e slot then some (s.swapN x) else none
    | some p, none => if notBefore p.effect slot then some p.n else none
    | none, some e => if notBefore e slot then some (s.swapN x) else none
    | none, none => none
  match sw with
  | some n => s.owner x (1 - s.ttBank x) (slot % 2 ^ n)
  | none => if s.ttValid x then s.owner x (s.ttBank x) (slot % s.ttPeriod x) else 0xFF

/-- Every slot that a frame of n slots would take is unreserved (R198). -/
def State.unreserved (s : State) (x slot n : Nat) : Bool := (List.range n).all (fun i => s.ownerAt x (slot + i) = 0xFF)

/-! ### Tables (R186 to R192) -/

/-- The bitmap from the active bank (R191): a bit is 1 where this station owns the slot and no enabled flow holds it whose send slots on the
attachment are all owned. -/
def State.rebuildMap (s : State) (x : Nat) : State :=
  let b := bankBase x (s.ttBank x)
  let p := s.ttPeriod x
  let own := s.get (rRCTL_STATUS x) fRCTL_STATUS_station
  let mine := (s.ttm.filter (fun c => b ≤ c.1 && c.1 < b + p && c.2.toNat = own)).map (fun c => c.1 - b)
  let s := { s with ttm := spDrop (fun a => bitmapBase x ≤ a && a < bitmapBase x + 0x2000) s.ttm }
  let s := mine.foldl (fun s k => s.setMapBit x k true) s
  (s.timedFlows.filter (fun e => s.ownsSlots e.1 x)).foldl (fun s e =>
    (s.sendsOn e.1 x).foldl (fun s a => s.setMapBits x a.slot (a.span + 1) false) s) s

/-- Octets of a set's owner map that the fragments so far hold: place in the map and octet (R188). -/
def Assembly.octets (a : Assembly) : List (Nat × Byte) :=
  a.frags.flatMap (fun f => ((List.range f.2.length).map (fun i => (448 * f.1 + i, nthD f.2 i 0))).filterMap (fun e =>
    if 16 * a.stations ≤ e.1 && e.1 < 16 * a.stations + 2 ^ min a.n 16 then some (e.1 - 16 * a.stations, e.2) else none))

/-- Fragments are assembled in the inactive bank, unless a pending table stands there (R190; log entry 32). -/
def State.showAsm (s : State) (x : Nat) : State :=
  match (s.ttb x).asm, (s.ttb x).pend with
  | some a, none => a.octets.foldl (fun s e => s.setTtByte (bankBase x (1 - s.ttBank x) + e.1) e.2) s
  | _, _ => s

/-- A table in the inactive bank becomes active (R190, R191): the banks change places, the calendar loses the entries of flows whose
slots are no longer owned, the bitmap is rebuilt, and flows with readmit run the checks. -/
def State.activate (s : State) (x id n : Nat) : State :=
  let bank := 1 - s.ttBank x
  let stale := s.get (rTTB_STATUS x) fTTB_STATUS_spacing_stale
  let s := s.setReg (rTTB_STATUS x) (toW (2 ^ 31 + bank * 2 ^ 29 + stale * 2 ^ 27 + n * 2 ^ 16 + id))
  let s := s.setReg (rTTB_PENDING x) 0
  let s := s.setTtb x { s.ttb x with pend := none, swap := none }
  let s := (s.inc (rTTB_CNT_TABLES x)).irq 0x38 2
  let own := s.get (rRCTL_STATUS x) fRCTL_STATUS_station
  let cal := s.calendar x
  let kept (e : CalEnt) : Bool := (List.range (e.span + 1)).all (fun i => e.slot + i < 2 ^ n && s.owner x bank (e.slot + i) = own)
  let lostCtx := (cal.filter (fun e => !kept e)).map (·.ctx)
  let s := lostCtx.foldl (fun s k => s.setReadmit k true) s
  let s := s.setCalendar x (cal.filter (fun e => !lostCtx.contains e.ctx))
  ((s.rebuildMap x).showAsm x).readmitAll

/-- The owner map written into the inactive bank: bytes at and above P read 0xFF (R185). -/
def State.loadBank (s : State) (x : Nat) (owners : List Byte) : State :=
  let b := bankBase x (1 - s.ttBank x)
  let s := { s with ttm := spDrop (fun a => b ≤ a && a < b + 0x10000) s.ttm }
  s.setTtBytes b owners

/-- A table waits for its effect slot count (R190). -/
def State.pendTable (s : State) (x id n effect : Nat) : State :=
  ((s.setTtb x { s.ttb x with pend := some ⟨id, n, effect⟩ }).put (rTTB_STATUS x) fTTB_STATUS_pending 1).setReg (rTTB_PENDING x) (toW effect)

/-- An accepted table: at once, or pending; after a missed one, missed clears and it becomes active at the next period boundary (R190, R192). -/
def State.acceptTable (s : State) (x id n effect : Nat) (owners : List Byte) : State :=
  let s := (s.setTtb x { s.ttb x with asm := none, due := none }).loadBank x owners
  if s.ttMissed x then (s.put (rTTB_STATUS x) fTTB_STATUS_missed 0).pendTable x id n ((s.slot / 2 ^ n + 1) * 2 ^ n % 2 ^ 20)
  else if effect = 0xFFFFFFFF then s.activate x id n
  else s.pendTable x id n (effect % 2 ^ 20)

/-- A set of fragments is complete: the checks of R190 on the assembled data. -/
def State.completeTable (s : State) (x : Nat) (a : Assembly) : State :=
  let data := (List.range a.count).foldl (fun d i => d ++ (match a.frags.find? (fun f => f.1 = i) with
    | some f => f.2
    | none => [])) []
  let own := s.get (rRCTL_STATUS x) fRCTL_STATUS_station
  if crc32c data = a.crc && a.stations = s.get (rRCTL_STATUS x) fRCTL_STATUS_stations &&
      beNat (slice data (16 * own) 16) = s.uid && data.length = 16 * a.stations + 2 ^ a.n then
    s.acceptTable x a.id a.n a.effect (data.drop (16 * a.stations))
  else
    (s.setTtb x { s.ttb x with asm := none }).ttbCause fTTB_FAULT_CAUSE_table_refused

/-- One fragment arrives (R188, R190). While bank_write = 1 the hub takes none (R213, log entry 32). -/
def State.tableFragment (s : State) (x id n stations effect no count : Nat) (crc : Word) (data : List Byte) : State :=
  if !s.enabled 0x38 || s.flag rTTB_EXP fTTB_EXP_bank_write then s
  else if s.ttValid x && s.get (rTTB_STATUS x) fTTB_STATUS_table_id = id then
    (if no + 1 = count then s.readmitAll else s)
  else if (s.ttb x).pend.any (fun t => t.id = id) then s
  else
    let t := s.ttb x
    let base : Assembly := match t.asm with
      | some a => if a.id = id then a else ⟨id, n, stations, effect, count, crc, []⟩
      | none => ⟨id, n, stations, effect, count, crc, []⟩
    let a := { base with effect := effect, frags := (no, data) :: base.frags.filter (fun f => f.1 != no) }
    let s := (s.setTtb x { t with asm := some a, due := if effect = 0xFFFFFFFF then t.due else some (effect % 2 ^ 20) }).showAsm x
    if (List.range count).all (fun i => a.frags.any (fun f => f.1 = i)) then s.completeTable x a else s

/-- The effect slot count passes (R190, R192): a complete table becomes active; a set that is not complete is missed, and no table is
in force. -/
def State.tableEffect (s : State) (x : Nat) : State :=
  match (s.ttb x).pend with
  | some t => s.activate x t.id t.n
  | none =>
    if (s.ttb x).due.isSome && (s.ttb x).asm.isSome then
      let s := s.setTtb x { s.ttb x with due := none }
      let s := (s.put (rTTB_STATUS x) fTTB_STATUS_valid 0).put (rTTB_STATUS x) fTTB_STATUS_missed 1
      ((s.irq 0x38 6).markReadmit x).ttbCause fTTB_FAULT_CAUSE_table_refused
    else s

/-- The n-th part of a list, of 448 octets. -/
def fragment (d : List Byte) (i : Nat) : List Byte := slice d (448 * i) 448

/-- The fragments of an image sent as TABLE messages to station 255 (R188). -/
def State.sendTable (s : State) (x id n stations effect : Nat) (crc : Word) (d : List Byte) : State :=
  let count := (d.length + 447) / 448
  (List.range count).foldl (fun s i =>
    s.sendRouted x 0x9 255 (rcHead 0x17 ++ beBytes 2 id ++ [toB n, toB stations] ++ beBytes 4 effect ++ beBytes 2 i ++ beBytes 2 count ++
      beBytes 4 crc.toNat ++ fragment d i)) s

/-- The master distributes its image (R187 to R189). -/
def State.distribute (s : State) (x effect : Nat) : State :=
  let src := (s.reg (rTTB_SRC x)).toNat
  if !s.enabled 0x38 || src = 0 || s.flag rTTB_EXP fTTB_EXP_bank_write then s
  else
    let h := s.bytes src 32
    let id := beNat (slice h 4 2)
    let n := (nthD h 6 0).toNat
    let ring := beNat (slice h 8 2)
    let stations := (nthD h 10 0).toNat
    let reserved := beNat (slice h 12 4)
    let crc := toW (beNat (slice h 16 4))
    let d := s.bytes (src + 32) (16 * stations + 2 ^ (min n 16))
    let c := s.rc x
    let own := s.get (rRCTL_STATUS x) fRCTL_STATUS_station
    let uidOf (k : Nat) : Option Nat := if k = own then some s.uid else (c.uids.find? (fun e => e.1 = k)).map (·.2)
    let ok := 0x20000000 ≤ src && src ≤ 0x2FFFFFFF && beNat (slice h 0 4) = 0x5454424C && 8 ≤ n && n ≤ 16 && crc32c d = crc &&
      ring = s.ringNo x && stations = c.count &&
      (List.range stations).all (fun k => uidOf k = some (beNat (slice d (16 * k) 16))) &&
      reserved ≤ 2 ^ n * s.get rTTB_CFG fTTB_CFG_share_pct / 100
    if ok then
      let s := s.setTtb x { s.ttb x with sentEffect := some effect }
      let s := s.sendTable x id n stations effect crc d
      if s.ttValid x && s.get (rTTB_STATUS x) fTTB_STATUS_table_id = id then s.readmitAll
      else if (s.ttb x).pend.any (fun t => t.id = id) then s
      else s.acceptTable x id n effect (d.drop (16 * stations))
    else s.ttbCause fTTB_FAULT_CAUSE_image_refused

/-- A block reset of TTB: the refusals logged and what is pending or half assembled go with the V fields that show them (R31, R213). -/
def State.ttbReset (s : State) : State :=
  [0, 1].foldl (fun s x => s.setTtb x { s.ttb x with asm := none, pend := none, due := none, swap := none }) { s with ttbLog := [] }

/-! ### Ring ready (R89, R100, R119, R202) -/

/-- ring_ready of attachment x clears: banks invalid, bitmap and calendar cleared, readmit set (R202), TB0's lock lost where it came
from this ring (R231). -/
def State.ringReadyClear (s : State) (x : Nat) : State :=
  if s.flag (rRCTL_STATUS x) fRCTL_STATUS_ring_ready then
    let s := ((s.put (rRCTL_STATUS x) fRCTL_STATUS_ring_ready 0).put (rRGA_STATUS x) fRGA_STATUS_ring_ready 0).irq 0x28 (2 + x)
    let s := s.markReadmit x
    let s := ((s.put (rTTB_STATUS x) fTTB_STATUS_valid 0).put (rTTB_STATUS x) fTTB_STATUS_pending 0).setReg (rTTB_PENDING x) 0
    let s := s.setTtb x { s.ttb x with asm := none, pend := none, due := none, swap := none, sentEffect := none }
    let s := { s with ttm := spDrop (fun a => (bitmapBase x ≤ a && a < bitmapBase x + 0x2000) ||
      (calBase x ≤ a && a < calBase x + 0x400)) s.ttm }
    if x = s.timeAtt then s.lockLost else s
  else s

/-- ring_ready of attachment x is set (R89, R90): ring 0 is joined at level 0 (R119), and at its master TB0 is locked (R231). Bit 9
of PG_IRQ_STAT, a tree join, is not set for ring 0, which joins no ring above it: R125 does not say (DESIGN CHOICE, log entry 98). -/
def State.ringReadySet (s : State) (x : Nat) : State :=
  let s := if s.flag (rRCTL_STATUS x) fRCTL_STATUS_ring_ready then s
    else ((s.put (rRCTL_STATUS x) fRCTL_STATUS_ring_ready 1).put (rRGA_STATUS x) fRGA_STATUS_ring_ready 1).irq 0x28 (2 + x)
  let s := s.setRc x { s.rc x with readyAt := if (s.rc x).bestReady then none else some s.slot }
  let s := if s.ringNo x = 0 then (s.put (rRCTL_TREE x) fRCTL_TREE_joined 1).put (rRCTL_TREE x) fRCTL_TREE_level 0 else s
  s.rootLock

end Sys2Proof.Machine
end

