-- ==== Sys2Proof/Machine/Ports.lean ====
section
/-! DEFINITION. Ring ports and ring control, the operations that several commands share: training states (R76, R83), leaving and
entering UP (R75, R77, R107), the entries to ELECT (R89, R91), span breaks (R107, R109), the block reset of a ring (R83). -/
namespace Sys2Proof.Machine

/-- The page of port p of ring r. -/
def portPage (r p : Nat) : Nat := 0x21 + 4 * r + p
/-- The ring page of ring r. -/
def ringPage (r : Nat) : Nat := 0x20 + 4 * r
/-- The module page of ring r. -/
def modulePage (r : Nat) : Nat := 0x23 + 4 * r

/-- The ring runs at quarter rate (R50). -/
def State.quarter (s : State) (r : Nat) : Bool := s.flag (rRGA_CFG r) fRGA_CFG_rate

/-- The lower attachment of a bridge hub (RCTL_CFG.upper). -/
def State.lowerAtt (s : State) : Nat := 1 - s.get rRCTL_CFG fRCTL_CFG_upper

/-- Ring-control state codes (R89). -/
abbrev rcOff : Nat := 0
abbrev rcElect : Nat := 1
abbrev rcCount : Nat := 2
abbrev rcNumber : Nat := 3
abbrev rcAwait : Nat := 4
abbrev rcMaster : Nat := 5
abbrev rcMember : Nat := 6
abbrev rcSleep : Nat := 7

/-- Port states (R76). -/
abbrev pOff : Nat := 0
abbrev pModule : Nat := 1
abbrev pWake : Nat := 2
abbrev pLock : Nat := 3
abbrev pAlign : Nat := 4
abbrev pUp : Nat := 5
abbrev pDown : Nat := 6

/-- The state of ring control of attachment x; its one home is RCTL_x_STATUS.state. -/
def State.rcState (s : State) (x : Nat) : Nat := s.get (rRCTL_STATUS x) fRCTL_STATUS_state
def State.setRcState (s : State) (x n : Nat) : State := s.put (rRCTL_STATUS x) fRCTL_STATUS_state n

/-- The hub's own claim: RCTL_CFG.priority over the unique ID (R88). -/
def State.ownClaim (s : State) : Nat := s.get rRCTL_CFG fRCTL_CFG_priority * 2 ^ 128 + s.uid

/-- The present station number. -/
def State.station (s : State) (x : Nat) : Nat := s.get (rRCTL_STATUS x) fRCTL_STATUS_station

/-- The CLAIM this hub advertises (R91, R102): in MASTER and MEMBER its master's, else the best it has heard. -/
def State.claimMsg (s : State) (x : Nat) : ClaimMsg :=
  let c := s.rc x
  let st := s.rcState x
  let ready := s.flag (rRCTL_STATUS x) fRCTL_STATUS_ring_ready
  if st = rcMaster || st = rcMember then
    ⟨c.masterClaim, s.ringNo x, ready, ready, s.get (rRCTL_MASTER x) fRCTL_MASTER_master_station⟩
  else ⟨if c.best = 0 then s.ownClaim else c.best, s.ringNo x, ready, c.bestReady, 0xFF⟩

/-- CLAIM on each port that is UP (R91). -/
def State.sendClaim (s : State) (x : Nat) : State := s.sendLocal x 0x8 (s.claimMsg x).octets

/-- Entry to ELECT (R89): kept, the cause, the count of entries, best claim := own claim, and CLAIM sent (R91). With kept = 0 the
hub has no station number, and a deferred heal is over (R111). -/
def State.enterElect (s : State) (x : Nat) (kept : Bool) (cause : Nat) : State :=
  let s := s.setRcState x rcElect
  let s := s.put (rRCTL_STATUS x) fRCTL_STATUS_kept (b2n kept)
  let s := s.put (rRCTL_STATUS x) fRCTL_STATUS_last_cause cause
  let s := s.inc (rRCTL_CNT_ELECT x)
  let s := if kept then s else s.put (rRCTL_STATUS x) fRCTL_STATUS_heal_deferred 0
  let c := s.rc x
  let s := s.setRc x { c with best := s.ownClaim, bestReady := false, numbered := kept && c.numbered, end0 := none, end1 := none,
                              reports := [], expect := [], pass := false, off0 := none, off1 := none, heldReport := false,
                              heldNumber := [], misses := 0, windows := if kept then c.windows else [] }
  s.sendClaim x

/-- Ring control starts when its attachment and the block are enabled, its ring number is configured and a port is UP (R89, row OFF). -/
def State.rcStart (s : State) (x : Nat) : State :=
  if s.rcState x = rcOff && s.rcOn x && s.ringNo x != 1023 && (s.isUp x 0 || s.isUp x 1) then s.enterElect x false 1 else s

/-- Ring control of an attachment goes to OFF (R89): the station number is cleared, and ring_ready with it (R202). RCTL_MASTER keeps
the last master here and in ELECT: the spec does not say when it becomes 0xFF again (DESIGN CHOICE, log entry 98). -/
def State.rcStop (s : State) (x : Nat) : State :=
  let s := (s.ringReadyClear x).setRcState x rcOff
  let s := s.put (rRCTL_STATUS x) fRCTL_STATUS_station 0
  let c := s.rc x
  s.setRc x { seq := c.seq, windows := c.windows, linkE := c.linkE, linkW := c.linkW, exch := c.exch }

/-- The ring runs with this hub numbered: in MASTER and MEMBER, and in an election in which it keeps its number (R107, R109). -/
def State.onRing (s : State) (x : Nat) : Bool :=
  s.rcState x = rcMaster || s.rcState x = rcMember || (s.rcState x = rcElect && s.flag (rRCTL_STATUS x) fRCTL_STATUS_kept)

/-- RCTL_x_SPAN shows a span that is reported, with every direction of it that is broken (R125). -/
def State.showSpan (s : State) (x station : Nat) : State :=
  match (s.rc x).broken.find? (fun e => e.station = station) with
  | some e => s.setReg (rRCTL_SPAN x) (toW (b2n e.path1 * 512 + b2n e.path0 * 256 + station))
  | none => s.setReg (rRCTL_SPAN x) 0xFF

/-- RCTL_x_STATUS.open: a direction is broken, or the ring was numbered open. -/
def State.showOpen (s : State) (x : Nat) : State :=
  let c := s.rc x
  s.put (rRCTL_STATUS x) fRCTL_STATUS_open (b2n (c.openNum || c.broken != []))

/-- RCTL_x_LOOP shows the loops in slots, 0 while open; a change rechecks spacing (R98, R125, R201). -/
def State.setLoops (s : State) (x l0 l1 : Nat) : State :=
  let w := if s.flag (rRCTL_STATUS x) fRCTL_STATUS_open then 0 else toW (l1 % 65536 * 65536 + l0 % 65536)
  if w = s.reg (rRCTL_LOOP x) then s else (s.setReg (rRCTL_LOOP x) w).spacingRecheck x

/-- Adds a broken direction to the list of broken spans (R107, R109). -/
def addBroken (l : List Broken) (b : Broken) : List Broken :=
  match l.find? (fun e => e.station = b.station) with
  | some e => ⟨b.station, e.path0 || b.path0, e.path1 || b.path1⟩ :: l.filter (fun e => e.station != b.station)
  | none => b :: l

/-- Directions of a span are broken: they are kept, shown, and the ring is open (R109, R125). -/
def State.markBroken (s : State) (x : Nat) (b : Broken) : State :=
  let c := s.rc x
  let s := s.setRc x { c with broken := addBroken c.broken b }
  (((s.showSpan x b.station).showOpen x).setLoops x 0 0).irq 0x28 4

/-- A direction at this hub is marked broken: counted, shown, and reported by BREAK (R107). -/
def State.spanBreak (s : State) (x station : Nat) (p0 p1 : Bool) : State :=
  if s.onRing x then
    ((s.markBroken x ⟨station, p0, p1⟩).inc (rRCTL_CNT_BREAK x)).sendRouted x 0x9 255 (breakOctets 0x12 station p0 p1)
  else s

/-- The station whose East port faces the span at port p of this hub (R88 BREAK). -/
def State.spanStation (s : State) (x p : Nat) : Nat :=
  let n := (s.rc x).count
  if p = 0 then s.station x else if n = 0 then s.station x else (s.station x + n - 1) % n

/-- Ring control learns that a port has left UP: a broken direction on a ring that runs (R107), and a claim and a fresh settle in ELECT (R89). -/
def State.rcPortDown (s : State) (x p : Nat) : State :=
  if !s.enabled 0x28 then s
  else
    let s := s.spanBreak x (s.spanStation x p) (p = 1) (p = 0)
    if s.rcState x = rcElect then s.sendClaim x else s

/-- A port toward a broken span is out of service until the span heals (R111, R112). -/
def State.holdSpan (s : State) (x p : Nat) : State :=
  let c := s.rc x
  if s.onRing x && c.broken.any (fun b => b.station = s.spanStation x p) then
    s.setRc x { c with outOfService := p :: c.outOfService.filter (· != p) }
  else s

/-- Ring control learns that a port has entered UP: it starts (R89); a span that was broken stays out of service until it heals, and CLAIM
is exchanged over it (R111); in ELECT it claims again (R89). -/
def State.rcPortUp (s : State) (x p : Nat) : State :=
  let s := s.rcStart x
  if !s.enabled 0x28 then s
  else
    let s := s.holdSpan x p
    if s.rcState x = rcElect || s.rcState x = rcMaster || s.rcState x = rcMember then s.sendClaim x else s

/-- The training state of a port changes, with the flags of RGA_PORT_STATE that a fresh start of training clears. -/
def State.setPortState (s : State) (r p n : Nat) : State := s.put (rRGA_PORT_STATE r p) fRGA_PORT_STATE_state n

/-- What training has found so far is forgotten. -/
def PortSt.untrained (x : PortSt) : PortSt := { x with peerSeen := false, peerReady := false, slotSets := 0, bareSlots := 0 }

/-- Whether a port's module pins are good: MOD_ABS and TX_FAULT low (R76, R80). -/
def State.modulePinsOk (s : State) (r p : Nat) : Bool :=
  !(s.port r p).modAbs && !(s.port r p).txFault

/-- Entry to MODULE (R76, R81): the module fault may be raised again. -/
def State.toModule (s : State) (r p : Nat) : State :=
  (s.setPort r p { (s.port r p).untrained with failRaised := false }).setPortState r p pModule

/-- Entry to WAKE: training starts afresh. With MOD_ABS or TX_FAULT high the port goes on to MODULE (R76). -/
def State.toWake (s : State) (r p : Nat) : State :=
  if s.modulePinsOk r p then
    ((s.setPort r p (s.port r p).untrained).put (rRGA_PORT_STATE r p) fRGA_PORT_STATE_miswire 0).setPortState r p pWake
  else (s.put (rRGA_PORT_STATE r p) fRGA_PORT_STATE_miswire 0).toModule r p

/-- The clock source that RGA_CFG.timing chooses: 0 reference, 1 East, 2 West, 3 holdover (R58, R99). -/
def State.timingChoice (s : State) (r : Nat) : Nat :=
  let t := s.get (rRGA_CFG r) fRGA_CFG_timing
  if t < 3 then (if t = 0 || s.isUp r (t - 1) then t else 3)
  else if s.rcState r = rcMaster then 0
  else if s.isUp r 1 then 2 else if s.isUp r 0 then 1 else 3

/-- When the timing port goes down the clock holds its last frequency, unless ring control names another port (R58, R99). -/
def State.timingDown (s : State) (r p : Nat) : State :=
  if s.get (rRGA_STATUS r) fRGA_STATUS_timing_used = p + 1 then s.put (rRGA_STATUS r) fRGA_STATUS_timing_used (s.timingChoice r) else s

/-- The effects of leaving UP: the count, the interrupt, source 16 to 19, the link delay discarded (R96), the frame in progress
abandoned, and ring control told, and the transmit clock in holdover where the port was its source (R58, R75, R77, R107). -/
def State.leaveUp (s : State) (r p next : Nat) : State :=
  let s := ((s.setPortState r p next).inc (rRGA_CNT_DOWN r p)).irq (portPage r p) 3
  let s := s.raise (16 + 2 * r + p) (portPage r p)
  let x := s.port r p
  let s := s.setPort r p { x with inProgress := 0, bareSlots := 0, slotSets := 0, reqAt := none }
  let s := s.timingDown r p
  let c := s.rc r
  let s := s.setRc r { c with exch := c.exch.filter (fun e => e.1 != p), linkE := if p = 0 then none else c.linkE,
                              linkW := if p = 1 then none else c.linkW, outOfService := c.outOfService.filter (· != p) }
  s.rcPortDown r p

/-- The fill that the elastic buffer is set to: elastic_fill, at most 1 at quarter rate, with the pad in force (R59). -/
def State.fillSet (s : State) (r p : Nat) : Nat :=
  let f := s.get (rRGA_EXP r) fRGA_EXP_elastic_fill
  (if s.quarter r then min f 1 else f) + (s.port r p).padForce

/-- The transit delay from a receiver, in 0.1 ns: the fixed part, and a block time for each block in the elastic buffer, loop pad included (R69). -/
def State.delayNow (s : State) (r p : Nat) : Nat :=
  (s.port r p).fixed + s.get (rRGA_PORT_STATE r p) fRGA_PORT_STATE_elastic_now * blockTenths (s.quarter r)

/-- RGA_PORT_DELAY keeps the largest and the smallest delay since entry to UP (R69, R83). -/
def State.noteDelay (s : State) (r p : Nat) : State :=
  let a := rRGA_PORT_DELAY r p
  let d := min 65535 (s.delayNow r p)
  (s.put a fRGA_PORT_DELAY_delay_max (max d (s.get a fRGA_PORT_DELAY_delay_max))).put a fRGA_PORT_DELAY_delay_min
    (min d (s.get a fRGA_PORT_DELAY_delay_min))

/-- The bound on the fixed part of the transit delay, in 0.1 ns (R69). -/
def fixedBound (quarter : Bool) : Nat := if quarter then 2080 else 920

/-- Entry to UP (R59, R61, R69, R76, R83): the pad takes effect, the elastic buffer starts at its set value, the fixed part of the transit delay
takes a value within its bound that the spec leaves open (a free value), the delay is measured anew, and ring control is told. -/
def State.enterUp (s : State) (r p : Nat) : State :=
  let x := s.port r p
  let s := s.setPort r p { x with bareSlots := 0, padForce := s.get (rRGA_PORT_PAD r p) fRGA_PORT_PAD_pad, padPending := false, inProgress := 0,
                                  fixed := 1 + s.freeN % fixedBound (s.quarter r) }
  let s := s.step1.put (rRGA_PORT_STATE r p) fRGA_PORT_STATE_elastic_now (s.fillSet r p)
  let s := ((s.setPortState r p pUp).setReg (rRGA_PORT_DELAY r p) 0xFFFF).noteDelay r p
  (s.irq (portPage r p) 2).rcPortUp r p

/-- The port goes to DOWN from UP (R76). -/
def State.upToDown (s : State) (r p : Nat) : State := s.leaveUp r p pDown

/-- The block reset of a ring acts on both ports: each port in WAKE or a later state leaves it, one that was UP with the effects
of leaving UP; every V field and what the port holds is cleared; an enabled port starts again from MODULE (R83). The V fields
themselves are cleared by the caller, and the pins keep their levels. -/
def State.ringResetPort (s : State) (r p : Nat) : State :=
  let s := if s.isUp r p then s.leaveUp r p pOff else s
  let x := s.port r p
  s.setPort r p { modAbs := x.modAbs, txFault := x.txFault, los := x.los }

/-- RGA_PORT_STATE shows the levels of the port's pins (R83). -/
def State.showPins (s : State) (r p : Nat) : State :=
  let x := s.port r p
  ((s.put (rRGA_PORT_STATE r p) fRGA_PORT_STATE_mod_abs (b2n x.modAbs)).put (rRGA_PORT_STATE r p) fRGA_PORT_STATE_tx_fault
    (b2n x.txFault)).put (rRGA_PORT_STATE r p) fRGA_PORT_STATE_los (b2n x.los)

/-- Every state moves to OFF (R76). -/
def State.portOff (s : State) (r p : Nat) : State := if s.isUp r p then s.leaveUp r p pOff else s.setPortState r p pOff

/-- After the V fields have gone: the pins show again, and an enabled port of an enabled block starts again from MODULE (R33, R83). -/
def State.ringRestartPort (s : State) (r p : Nat) : State :=
  let x := s.port r p
  let s := s.showPins r p
  let s := (s.put (rRGA_MOD_STATUS r p) fRGA_MOD_STATUS_present (b2n !x.modAbs)).put (rRGA_MOD_STATUS r p) fRGA_MOD_STATUS_tx_fault (b2n x.txFault)
  if s.flag (rRGA_PORT_CTRL r p) fRGA_PORT_CTRL_enable && s.enabled (ringPage r) then s.toModule r p else s

end Sys2Proof.Machine
end

