-- ==== Sys2Proof/Machine/FabCore.lean ====
section
/-! DEFINITION. The structures of the fabric core, the octets and cells of a frame (R126, R127), and its block reset (R146). -/
namespace Sys2Proof.Machine

/-! ### The structures of the core -/

def State.fabIn (s : State) (i : Nat) : List FCell := spGet (fun _ => []) s.fab.inputs i
def State.setFabIn (s : State) (i : Nat) (l : List FCell) : State :=
  { s with fab := { s.fab with inputs := spSet (fun _ => []) s.fab.inputs i l } }
def State.fabMid (s : State) (m : Nat) : List FCell := spGet (fun _ => []) s.fab.mids m
def State.setFabMid (s : State) (m : Nat) (l : List FCell) : State :=
  { s with fab := { s.fab with mids := spSet (fun _ => []) s.fab.mids m l } }
def State.stream (s : State) (k : Nat) : StreamSt := spGet (fun _ => {}) s.fab.streams k
def State.setStream (s : State) (k : Nat) (x : StreamSt) : State :=
  { s with fab := { s.fab with streams := spSet (fun _ => {}) s.fab.streams k x } }

def State.egress (s : State) (o c : Nat) : EgressSt := spGet (fun _ => {}) s.fab.egress (o * 4 + c)
def State.setEgress (s : State) (o c : Nat) (x : EgressSt) : State :=
  { s with fab := { s.fab with egress := spSet (fun _ => {}) s.fab.egress (o * 4 + c) x } }

/-- Frames that blocks of the hub present at input i. -/
def State.fabSrc (s : State) (i : Nat) : List Delivered := spGet (fun _ => []) s.fab.src i
def State.setFabSrc (s : State) (i : Nat) (l : List Delivered) : State :=
  { s with fab := { s.fab with src := spSet (fun _ => []) s.fab.src i l } }

/-- Frames delivered at output o and not taken yet. -/
def State.outbox (s : State) (o : Nat) : List Delivered := spGet (fun _ => []) s.fab.ports o
def State.setOutbox (s : State) (o : Nat) (l : List Delivered) : State :=
  { s with fab := { s.fab with ports := spSet (fun _ => []) s.fab.ports o l } }

/-- A block of the hub presents a frame at input i, its sender holding a level (R14). -/
def State.present (s : State) (i : Nat) (f : Frame) (level : Level := .warden) (cipherDone : Bool := false) (discard : Bool := false)
    (untrusted : Bool := false) :
    State :=
  s.setFabSrc i (s.fabSrc i ++
    [{ inp := i, frame := f, discard := discard, cipherDone := cipherDone, orig := i, level := lvlRank level, untrusted := untrusted }])

/-- The stream of an input, an output and a class (R138). -/
def streamKey (i o c : Nat) : Nat := (i * 16 + o) * 4 + c

/-- The frame that octets stand for (R62, R127). -/
def frameOf (l : List Byte) : Frame :=
  { w0 := toW (beNat (slice l 0 4)), w1 := toW (beNat (slice l 4 4)), w2 := toW (beNat (slice l 8 4)), w3 := toW (beNat (slice l 12 4)),
    w4 := toW (beNat (slice l 16 4)), w5 := toW (beNat (slice l 20 4)), payload := l.drop 24 }

/-- The cells a frame takes (R127). -/
def Frame.cells (f : Frame) : Nat := (24 + f.payload.length + 127) / 128

/-- A frame cut into cells for an output (R126, R127). -/
def cellsOf (o : Nat) (d : Delivered) : List FCell :=
  let l := d.frame.octets
  let n := d.frame.cells
  (List.range n).map (fun j =>
    { inp := d.inp, out := o, cls := d.frame.cls, first := decide (j = 0), last := decide (j + 1 = n),
      discard := d.discard && decide (j + 1 = n), cipherDone := d.cipherDone, orig := d.orig, level := d.level, untrusted := d.untrusted,
      held := d.held, rx := d.rx, data := slice l (128 * j) 128 })

/-- The outputs that endpoints read straight from the banks: memory delivery, the cipher and FP15 (R141). The others store a frame whole in
their port's buffer. -/
def atMemory (o : Nat) : Bool := o = 4 || o = 5 || o = 6 || o = 7 || o = 14 || o = 15

/-- What the limits and caps count of a cell in a middle's bank. -/
def FCell.place (c : FCell) : BankCell := ⟨c.inp, c.out, c.cls, c.mid⟩

/-- The cells of a frame at a receive channel that are not written into a buffer yet. -/
def State.rxUnread (s : State) (c : Nat) (o : RxOpen) : List BankCell :=
  o.d.bank.drop ((o.pos + (if s.flag (rDMA_RX_CFG c) fDMA_RX_CFG_header then 0 else 24)) / 128)

/-- Every cell that holds space in a bank (R139, R142): queued in a middle, held by a resequencer, released and not read by egress, or of a
frame whose endpoint has not taken it. -/
def State.bankCells (s : State) : List BankCell :=
  s.fab.mids.flatMap (fun e => e.2.map FCell.place) ++ s.fab.streams.flatMap (fun e => e.2.held.map FCell.place) ++
    s.fab.egress.flatMap (fun e => (e.2.queue ++ if atMemory (e.1 / 4) then e.2.got else []).map FCell.place) ++
    s.fab.ports.flatMap (fun e => e.2.flatMap (fun d => d.bank)) ++
    s.dmas.flatMap (fun e => e.2.open_.flatMap (s.rxUnread e.1))

/-- Cells of a frame from input i are discarded (FAB_DISCARD). -/
def State.discardCells (s : State) (i n : Nat) : State := s.addCnt (rFAB_DISCARD i) n

/-! ### What a flow's context counts (R141, R168) -/

/-- A frame handed over at a receive context (R168, R207). -/
def State.handOver (s : State) (f : Frame) : State :=
  if f.kind = 0 && entState (s.ent f.flow) = 1 then
    let k := entSlot (s.ent f.flow)
    let s := (s.cntCtx k 0x44 1).addOctets k f.payload.length
    (s.setCtx k 0x2C 31 16 f.seq).setCtx k 0x78 31 0 (s.base 0).ns
  else s

/-- A frame of a user flow that ended with discard (R141, R168: cnt_discarded). -/
def State.countLostFlow (s : State) (f : Nat) : State :=
  if entState (s.ent f) = 1 then s.cntCtx (entSlot (s.ent f)) 0x6C 1 else s

def State.countLost (s : State) (f : Frame) : State := if f.kind = 0 then s.countLostFlow f.flow else s

/-- A frame discarded at its output, unless it has been counted before. -/
def State.countDropped (s : State) (d : Delivered) : State := if d.held.any HeldCtx.lost then s else s.countLost d.frame

/-- A cell in the core is discarded: counted at the port it came from, and its flow counts the frame with the last one (R14, R146, R168). -/
def State.loseCell (s : State) (c : FCell) : State :=
  let s := s.discardCells c.orig 1
  match c.last, c.held with
  | true, some h => if h.lost then s else s.countLostFlow h.flow
  | _, _ => s

/-! ### Block reset (R146) -/

/-- The part of a frame that has come to an output. -/
def frameOfCells (l : List FCell) : Frame := frameOf (l.flatMap (fun c => c.data))

/-- A frame waits whole at an output that reads it from the banks: at a memory output it completes with discard, at the cipher or FP15 it
is gone with its cells. -/
def State.resetOutbox (s : State) (o : Nat) : State :=
  let l := s.outbox o
  let s := l.foldl (fun s d => s.discardCells d.orig d.bank.length) s
  if o = 7 || o = 15 then l.foldl (fun s d => s.countLost d.frame) (s.setOutbox o [])
  else s.setOutbox o (l.map (fun d => { d with discard := true, bank := [] }))

/-- The frame in progress at an output's class: at a memory output it completes with discard, elsewhere its cells are discarded. The cells
of its input that the reset finds elsewhere in the core are the rest of it and of later frames. -/
def State.resetEgress (s : State) (o cls : Nat) : State :=
  let e := s.egress o cls
  match e.got with
  | [] => s
  | g :: _ =>
    if o = 7 || o = 15 || !atMemory o then e.got.foldl (fun s c => s.loseCell c) s
    else
      let d : Delivered := { inp := g.inp, frame := frameOfCells e.got, discard := true, cipherDone := g.cipherDone }
      s.setOutbox o (s.outbox o ++ [{ d with orig := g.orig, level := g.level, held := g.held, rx := g.rx, came := g.came }])

/-- The cell stands for the end of a frame in progress at a memory output: its endpoint counts the frame, so the core does not. -/
def State.endsOpen (s : State) (cells : List FCell) (c : FCell) : Bool :=
  c.last && atMemory c.out && c.out != 7 && c.out != 15 && (match (s.egress c.out c.cls).got with
    | [] => false
    | g :: _ => g.inp = c.inp && g.held = c.held &&
        cells.find? (fun x => x.last && x.inp = c.inp && x.out = c.out && x.cls = c.cls && x.held = g.held) = some c)

/-- A block reset of FAB: every cell in the core is discarded and counted at its input, frames in progress at memory outputs complete
with discard, and tags, counts, windows and seats are cleared. Frames stored whole in a port's buffer, and frames not yet looked up, are not
in the core. -/
def State.fabReset (s : State) : State :=
  let cells := s.fab.egress.flatMap (fun e => e.2.queue) ++ s.fab.streams.flatMap (fun e => e.2.held) ++
    s.fab.mids.flatMap (fun e => e.2) ++ s.fab.inputs.flatMap (fun e => e.2)
  let s := cells.foldl (fun s c => if s.endsOpen cells c then s.discardCells c.orig 1 else s.loseCell c) s
  let s := [4, 5, 6, 7, 14, 15].foldl (fun s o => s.resetOutbox o) s
  let s := s.fab.egress.foldl (fun s e => s.resetEgress (e.1 / 4) (e.1 % 4)) s
  { s with fab := { src := s.fab.src, ports := s.fab.ports } }

/-- FAB is enabled: every expected tag and held map is 0 (R139), and the tags at the inputs with them, so a cell that the core still held is
discarded (log entry 87). The round number and the trace stand. -/
def State.fabStart (s : State) : State :=
  let round := s.fab.round
  let trace := s.fab.trace
  let s := s.fabReset
  { s with fab := { s.fab with round := round, trace := trace } }

end Sys2Proof.Machine
end

