-- ==== Sys2Proof/Machine/LocalMem.lean ====
section
/-! DEFINITION. Local memory as requesters and engines reach it (R21, R22, R24, R26, R28, R161, R163, R288): which region an address is in,
what an access completes with, and what a write leaves. -/
namespace Sys2Proof.Machine

/-- The ranges of R21 beside the register pages. -/
inductive Region where
  | anise | context | index | general | restore | staging | keep | cs0 | cs1 | rom
deriving DecidableEq, Repr

/-- The range an address lies in; none in a hole or in the register pages (R21). -/
def regionOf (a : Nat) : Option Region :=
  if a < 0x100000 then some .anise
  else if a < 0x180000 then some .context
  else if a < 0x1C0000 then some .index
  else if a < 0x300000 then some .general
  else if a < 0x30C000 then some .restore
  else if a < 0x310000 then some .staging
  else if a < 0x310100 then some .keep
  else if 0x20000000 ≤ a && a < 0x30000000 then some .cs0
  else if 0x30000000 ≤ a && a < 0x40000000 then some .cs1
  else if 0xFFFF0000 ≤ a && a < 0x100000000 then some .rom
  else none

/-- The octets fitted on a chip select: a CS1 size of 0 is none (R22, XSPI_CS0_CFG, XSPI_CS1_CFG). -/
def State.fitted (s : State) (cs : Nat) : Nat :=
  let n := if cs = 0 then s.get rXSPI_CS0_CFG fXSPI_CS0_CFG_size else s.get rXSPI_CS1_CFG fXSPI_CS1_CFG_size
  if n = 0 then 0 else 2 ^ n

/-- n octets from address a lie in one memory range, within the device fitted (R21, R22). -/
def State.memRange (s : State) (a n : Nat) : Option Region :=
  match regionOf a with
  | none => none
  | some r =>
    if regionOf (a + n - 1) != some r then none
    else if r = .cs0 && s.fitted 0 < a + n - 0x20000000 then none
    else if r = .cs1 && s.fitted 1 < a + n - 0x30000000 then none
    else some r

/-- A size and alignment that memory accepts: 1, 2, 4 or 8 octets aligned, or a burst of up to 128 within a 128-octet line (R26). A
misaligned access of 2, 4 or 8 octets that stays in its line is served as a burst (DESIGN CHOICE, log entry 97). -/
def memShape (a n : Nat) : Bool :=
  (n = 1 || ((n = 2 || n = 4 || n = 8) && a % n = 0) || (0 < n && n ≤ 128 && a % 128 + n ≤ 128))

/-- The octets of a range: the Cumin ROM is a constant of the chip (R21). -/
def State.octetAt (s : State) (a : Nat) : Byte := if 0xFFFF0000 ≤ a then Config.cuminRom (a - 0xFFFF0000) else s.byte a
def State.octets (s : State) (a n : Nat) : List Byte := (List.range n).map (fun i => s.octetAt (a + i))

/-- Any octet of the access lies in the effective table window (R288). -/
def State.touchesWindow (s : State) (a n : Nat) : Bool :=
  let w := s.window
  decide (w.1 < w.2) && a < w.2 && w.1 < a + n

/-- What a read of n octets completes with (R21, R22, R26, R28). -/
def State.memReadStatus (s : State) (master : Nat) (lvl : Level) (a n : Nat) : Nat :=
  match s.memRange a n with
  | none => 1
  | some r =>
    if r = .anise && master != 0 then 2
    else if r = .rom && lvl != .warden then 2
    else if r != .anise && lvl = .guest then 2
    else if !memShape a n then 3
    else 0

/-- Areas of general SRAM that one master writes: the request half of a mailbox its host alone, the response half Anise alone (R563); the
handover area is read-only to Anise except from the start of a handover to the start of the new image (R560, R561). -/
def State.reservedArea (s : State) (master a n : Nat) : Bool :=
  if 0x2E0000 ≤ a && a < 0x2E2000 then
    let h := (a - 0x2E0000) / 0x1000
    if (a - 0x2E0000) % 0x1000 < 0x800 then master != 1 + h || 0x800 < (a - 0x2E0000) % 0x1000 + n else master != 0
  else 0x2F0000 ≤ a && a < 0x300000 && master = 0 && !s.boot.hoOpen

/-- What a write of n octets completes with (R21, R22, R26, R28, R288). An access of memory that fails both for its level and for its size or
alignment completes with 0x2: R28 gives no order (DESIGN CHOICE, log entry 23). -/
def State.memWriteStatus (s : State) (master : Nat) (lvl : Level) (a n : Nat) : Nat :=
  match s.memRange a n with
  | none => 1
  | some r =>
    if r = .rom || r = .staging then 4
    else if r = .anise then (if master != 0 then 2 else if memShape a n then 0 else 3)
    else if r = .index then (if memShape a n then 0 else 3)
    else if lvl = .guest then 2
    else if s.reservedArea master a n then 2
    else if (r = .restore || r = .keep || r = .cs0) && lvl != .warden then 2
    else if s.touchesWindow a n && lvl != .warden then 2
    else if !memShape a n then 3
    else 0

/-- A direct write to the context store: it reaches offsets 0x40 to 0x73 of a resident context, and else is ignored and counted (R163).
A slot whose context is being fetched or written back holds no resident one. -/
def State.directWrite (s : State) (a : Nat) (bs : List Byte) : State :=
  let k := (a - 0x100000) / 128
  let off := (a - 0x100000) % 128
  let res := match s.slotFlow k with
    | some f => entState (s.ent f) = 1
    | none => false
  if res && 0x40 ≤ off && off + bs.length ≤ 0x74 then (s.setBytes a bs).touch k else s.inc rFLOW_CNT_DIRECT_REFUSED

/-- The effect of a write that completes with status 0x0: the flow index table ignores requesters (R161), the context store takes what
R163 allows, every other range takes the octets. -/
def State.memStore (s : State) (a : Nat) (bs : List Byte) : State :=
  match regionOf a with
  | some .index => s
  | some .context => s.directWrite a bs
  | some .rom => s
  | some .staging => s
  | some _ => s.setBytes a bs
  | none => s

/-- A read or write by one of the hub's own engines through a translation that has passed: false where the target is no memory of this
hub (R22). -/
def State.backedBy (s : State) (a n : Nat) : Bool :=
  match s.memRange a n with
  | some .general | some .cs0 | some .cs1 | some .restore | some .keep => true
  | _ => false

/-- A requester's write of octets to local memory: its status and its effect; an address that does not exist raises source 48 (R22). -/
def State.memWriteReq (s : State) (q : Req) (a : Nat) (bs : List Byte) : Nat × State :=
  let st := s.memWriteStatus q.master (s.levelOf q) a bs.length
  if st = 1 then (1, s.fault (accessEv 48 0xFFF q 2 bs.length a)) else if st = 0 then (0, s.memStore a bs) else (st, s)

/-- An uncorrectable error in a flow's entry or context disables it in one step; its frames that wait are discarded and counted (R180). -/
def State.eccDisable (s : State) (f : Nat) : State :=
  let e := s.ent f
  if entState e = 0 || !entEnabled e then s
  else if entState e = 1 then (s.disableFlow f (entSlot e)).dropWaiting f
  else ((s.setEnt f (natPut e 28 28 0)).unwanted f).dropWaiting f

/-- The flow whose entry or context lies at a local address of the two memories (R160). -/
def State.flowAt (s : State) (a : Nat) : Option Nat :=
  if 0x180000 ≤ a then some ((a - 0x180000) / 4) else s.slotFlow ((a - 0x100000) / 128)

/-- A real fault of source 13: the flow that the address lies in is disabled; an address elsewhere names none, and the flow is a free value
(R180, log entry 85). -/
def State.flowFault (s : State) (a : Nat) : State :=
  if 0x100000 ≤ a && a < 0x1C0000 then (match s.flowAt a with
    | some f => s.eccDisable f
    | none => s)
  else s.step1.eccDisable (s.freeN % 0xF000)

/-- A read of the flow index table or the context store that an armed checker takes: one bit is corrected and counted, two raise source 13
and disable the flow (R180, R589). -/
def State.flowEcc (s : State) (a : Nat) : State :=
  match s.armed 0x30 0 with
  | none => s
  | some false => (s.disarm 0x30).inc rFLOW_CNT_ECC_FIXED
  | some true =>
    let s := (s.disarm 0x30).raiseInj 13 0x30
    match s.flowAt a with
    | none => s
    | some f => s.eccDisable f

/-- A requester's read of octets of local memory: status, octets and effect. -/
def State.memReadReq (s : State) (q : Req) (a n : Nat) : Nat × List Byte × State :=
  let st := s.memReadStatus q.master (s.levelOf q) a n
  if st = 1 then (1, [], s.fault (accessEv 48 0xFFF q 1 n a))
  else if st = 0 then (0, s.octets a n, if 0x100000 ≤ a && a < 0x1C0000 then s.flowEcc a else s)
  else (st, [], s)

end Sys2Proof.Machine
end

