-- ==== Sys2Proof/Machine/Dma.lean ====
section
/-! DEFINITION. DMA channels as their registers, descriptors and receive queues use them (R209 to R211, R294 to R307): translated access,
completion of a descriptor, faults, and the writing of received frames. -/
namespace Sys2Proof.Machine

/-! ### A channel -/

/-- The state of channel c (R302): 0 FREE, 1 IDLE, 2 RUN, 3 FAULTED, 4 STOPPED, 5 RECEIVE. -/
def State.chState (s : State) (c : Nat) : Nat := s.get (rDMA_STATE c) fDMA_STATE_state
def State.setChState (s : State) (c n : Nat) : State := s.put (rDMA_STATE c) fDMA_STATE_state n

/-- The master ID of a translated master (R283, R287): c is a DMA channel, 16 + e the queue mover of Clove engine e, 48 + r job ring r of
the cipher. -/
def xlMaster (c : Nat) : Nat := if 48 ≤ c then 0x40 else 0x10 + c

/-- The translated master's own requester (R286). -/
def dmaReq (c : Nat) : Req := ⟨xlMaster c, 0, 0⟩

/-- The present level of the master: a job ring's is set in its configuration (R283, R444). -/
def State.dmaLevel (s : State) (c : Nat) : Level :=
  if 48 ≤ c then levelOfCode (min 2 (s.get (rCIPH_JR_CFG (c - 48)) fCIPH_JR_CFG_level)) else s.levelOf (dmaReq c)

/-- The binding of a channel: port and queue (R303). -/
def State.binding (s : State) (c : Nat) : Option (Nat × Nat) :=
  let p := s.get (rDMA_RX_CFG c) fDMA_RX_CFG_port
  if p = 0 then none else some (p, s.get (rDMA_RX_CFG c) fDMA_RX_CFG_queue)

/-- The host bus that a channel in receive mode may use, as target code: FP4 host A's, FP5 host B's, in PCI Express mode (R294). -/
def State.dmaBus (s : State) (c : Nat) : Nat :=
  if !(s.dma c).rx then 0
  else match s.binding c with
    | some (4, _) => if s.get (rHBx_CFG 0) fHBx_CFG_mode = 0 then 1 else 0
    | some (5, _) => if s.get (rHBx_CFG 1) fHBx_CFG_mode = 0 then 2 else 0
    | _ => 0

/-! ### Translated ranges -/

/-- A part of a translated range: target bus, output address, octets. -/
structure Piece where
  target : Nat
  out : Nat
  len : Nat
deriving DecidableEq, Repr

/-- Translation of n octets from a, page by page before anything moves (R291): the pieces, or the cause and address of the fault, which is
recorded. `first` is the start of the transfer's side: a page met later with se = 1 fails with cause 8 (R298). -/
def State.xlRange : Nat → State → Nat → Nat → Nat → Xfer → Option Nat → (Option (Nat × Nat) × List Piece) × State
  | 0, s, _, _, _, _, _ => ((none, []), s)
  | k + 1, s, c, a, n, x, first =>
    if n = 0 then ((none, []), s)
    else
      let a := a % 2 ^ 32
      let m := min n (4096 - a % 4096)
      let r := s.translate (xlMaster c) (s.dmaLevel c) a x (s.dmaBus c)
      let cause := if r.1.cause != 0 then r.1.cause else if r.1.se && first.any (fun b => b / 4096 != a / 4096) then 8 else 0
      if cause != 0 then ((some (cause, a), []), r.2.xltFault (xlMaster c) a x cause m)
      else
        let t := State.xlRange k r.2 c (a + m) (n - m) x first
        ((t.1.1, ⟨r.1.target, r.1.out, m⟩ :: t.1.2), t.2)

/-- Enough pages for any range that a burst, a descriptor or a frame takes. -/
def State.xlate (s : State) (c a n : Nat) (x : Xfer) (first : Option Nat := none) : (Option (Nat × Nat) × List Piece) × State :=
  s.xlRange (n / 4096 + 2) c a n x first

/-- An octet of a host's memory, as the command that reads it brings it; one that it does not bring is a free value (log entries 4, 8). -/
def hostOctet (host : List (Nat × Byte)) (n a : Nat) : Byte := spGet (fun k => toB (Config.freeNat (n + k))) host a

/-- The octets of a range in memory, in parts that do not cross a 128-octet line (R26). -/
def State.readLocal : Nat → State → Req → Nat → Nat → Nat × List Byte × State
  | 0, s, _, _, _ => (0, [], s)
  | k + 1, s, q, a, n =>
    if n = 0 then (0, [], s)
    else
      let m := min n (128 - a % 128)
      let r := s.memReadReq q a m
      if r.1 != 0 then (r.1, [], r.2.2)
      else
        let t := State.readLocal k r.2.2 q (a + m) (n - m)
        (t.1, r.2.1 ++ t.2.1, t.2.2)

/-- Octets written to memory, in parts that do not cross a 128-octet line (R26). -/
def State.writeLocal : Nat → State → Req → Nat → List Byte → Nat × State
  | 0, s, _, _, _ => (0, s)
  | k + 1, s, q, a, bs =>
    if bs = [] then (0, s)
    else
      let m := min bs.length (128 - a % 128)
      let r := s.memWriteReq q a (bs.take m)
      if r.1 != 0 then r else State.writeLocal k r.2 q (a + m) (bs.drop m)

/-- The octets of translated pieces: local memory, or a host's memory (R294). The answer is the R28 status, the octets and the state. -/
def State.readPieces (s : State) (c : Nat) (host : List (Nat × Byte)) : List Piece → Nat × List Byte × State
  | [] => (0, [], s)
  | p :: ps =>
    let r := if p.target = 0 then s.readLocal (p.len / 128 + 2) (dmaReq c) p.out p.len
      else (0, (List.range p.len).map (fun i => hostOctet host s.free (p.out + i)), s.step1)
    if r.1 != 0 then (r.1, [], r.2.2)
    else
      let t := State.readPieces r.2.2 c host ps
      (t.1, r.2.1 ++ t.2.1, t.2.2)

/-- Octets written to translated pieces (R294). -/
def State.writePieces (s : State) (c : Nat) : List Piece → List Byte → Nat × State
  | [], _ => (0, s)
  | p :: ps, bs =>
    let l := bs.take p.len
    let r := if p.target = 0 then s.writeLocal (p.len / 128 + 2) (dmaReq c) p.out l
      else (0, s.emit (.busWrite (p.target - 1) p.out l))
    if r.1 != 0 then r else State.writePieces r.2 c ps (bs.drop p.len)

/-! ### Faults and completion (R297, R301, R302) -/

/-- A fault takes the channel to FAULTED: cause, address, count, interrupt (R301). -/
def State.dmaFault (s : State) (c cause a : Nat) : State :=
  let s := (s.put (rDMA_STATE c) fDMA_STATE_fault_cause cause).setReg (rDMA_FAULT_ADDR c) (toW a)
  ((s.inc (rDMA_CNT_FAULT c)).irq (0x50 + c) 3).setChState c 3

/-- A word of the descriptor in progress. -/
def DmaSt.word (d : DmaSt) (i : Nat) : Nat := (nthD d.desc i 0).toNat

/-- The channel enters STOPPED (R310). -/
def State.dmaStopped (s : State) (c : Nat) : State := (s.setChState c 4).irq (0x50 + c) 4

/-- A descriptor whose word 7 has been written is done: the count, the interrupt, and the next state of the channel. `final` where an abort,
a free or a block reset ends it. -/
def State.dmaDone (s : State) (c st : Nat) (final : Bool) : State :=
  let d := s.dma c
  let s := s.setDma c { d with desc := [], started := false, gather := [], ending := none, busy := false }
  let s := s.inc (rDMA_CNT_DESC c)
  let s := if natBits (d.word 0) 25 25 = 1 then s.irq (0x50 + c) 2 else s
  if final then s
  else if st = 2 || st = 3 || st = 5 || st = 6 then
    (s.fault { source := if st = 2 || st = 5 then 53 else 54, page := 0x50 + c, master := 0x10 + c }).dmaStopped c
  else if natBits (d.word 0) 24 24 = 1 || d.stopReq then (s.setDma c { s.dma c with stopReq := false }).setChState c 1
  else s.setReg (rDMA_CUR_DESC c) (toW (d.word 6))

/-- Completion of the descriptor in progress: word 7 written back with write permission (R297); a fault leaves it to be made again at resume,
unless the completion is final. -/
def State.dmaComplete (s : State) (c st sub : Nat) (final : Bool := false) : State :=
  let d := s.dma c
  let left := s.get (rDMA_CUR_LEFT c) fDMA_CUR_LEFT_left
  let moved := natBits (d.word 1) 23 0 - left
  let w7 := 2 ^ 31 + st % 16 * 2 ^ 27 + sub % 8 * 2 ^ 24 + moved
  let a := (s.reg (rDMA_CUR_DESC c)).toNat + 28
  let r := s.xlate c a 4 .write
  match r.1.1 with
  | some (cause, fa) =>
    if final then r.2.dmaDone c st true
    else (r.2.setDma c { d with ending := some (st, sub) }).dmaFault c cause fa
  | none => (r.2.writePieces c r.1.2 (leBytes 4 w7)).2.dmaDone c st final

/-! ### Receive queues (R303 to R307) -/

/-- The channel that serves a queue: in RECEIVE, or FAULTED out of it (R303). -/
def State.rxChannel (s : State) (port queue : Nat) : Option Nat :=
  (List.range 16).find? (fun c => s.enabled (0x50 + c) && s.binding c = some (port, queue) &&
    (s.chState c = 5 || (s.chState c = 3 && (s.dma c).rx)))

/-- The octets of a frame as its queue receives them (R306). -/
def State.rxOctets (s : State) (c : Nat) (f : Frame) : List Byte :=
  if s.flag (rDMA_RX_CFG c) fDMA_RX_CFG_header then f.octets else f.payload

/-- The next buffer of the ring: its descriptor's address, the translated buffer for up to `want` octets, and how many it takes. None when the
ring is dry, while the channel is FAULTED, and on a fault, which takes the channel to FAULTED (R305, R306). A buf_len that is no
multiple of 64 from 64 to 65,472 counts as the nearest below, at least 64. -/
def State.takeBuffer (s : State) (c : Nat) (host : List (Nat × Byte)) (want : Nat) : Option (Nat × List Piece × Nat) × State :=
  let head := s.get (rDMA_RX_HEAD c) fDMA_RX_HEAD_head
  let tail := s.get (rDMA_RX_TAIL c) fDMA_RX_TAIL_tail
  if s.chState c != 5 || head = tail then (none, s)
  else
    let a := (s.reg (rDMA_RX_RING c)).toNat / 32 * 32 + 32 * (head % 2 ^ s.get (rDMA_RX_CFG c) fDMA_RX_CFG_ring_k)
    let r := s.xlate c a 8 .fetch
    match r.1.1 with
    | some (cause, fa) => (none, r.2.dmaFault c cause fa)
    | none =>
      let m := r.2.readPieces c host r.1.2
      let buf := leNat (m.2.1.take 4)
      let len := max 64 (leNat (slice m.2.1 4 2) / 64 * 64)
      let n := min want len
      let b := m.2.2.xlate c buf n .write
      match b.1.1 with
      | some (cause, fa) => (none, b.2.dmaFault c cause fa)
      | none => (some (a, b.1.2, n), b.2.put (rDMA_RX_HEAD c) fDMA_RX_HEAD_head ((head + 1) % 65536))

/-- A frame goes on into ring buffers; true when all of it is written. -/
def State.rxFill : Nat → State → Nat → List (Nat × Byte) → RxOpen → Bool × RxOpen × State
  | 0, s, _, _, o => (true, o, s)
  | k + 1, s, c, host, o =>
    let l := s.rxOctets c o.d.frame
    if l.length ≤ o.pos && o.descs != [] then (true, o, s)
    else match s.takeBuffer c host (l.length - o.pos) with
      | (none, s) => (false, o, s)
      | (some (a, ps, n), s) =>
        let s := (s.writePieces c ps (slice l o.pos n)).2
        State.rxFill k s c host { o with pos := o.pos + n, descs := o.descs ++ [(a, n)] }

/-- A class 0 frame goes on into the overflow reserve (R209, R307): the frame's new place and how many reserve buffers it took; a reserve
buffer whose translation faults counts as an empty reserve (R306). -/
def State.rsvFill : Nat → State → Nat → RxOpen → Nat → RxOpen × Nat × State
  | 0, s, _, o, n => (o, n, s)
  | k + 1, s, c, o, used =>
    let l := s.rxOctets c o.d.frame
    let d := s.dma c
    match d.rsv with
    | [] => (o, used, s)
    | b :: rest =>
      if l.length ≤ o.pos && (o.descs != [] || used != 0) then (o, used, s)
      else
        let n := min (s.get (rDMA_RSV_CFG c) fDMA_RSV_CFG_buf_len) (l.length - o.pos)
        let r := s.xlate c b n .write
        match r.1.1 with
        | some _ => (o, used, r.2)
        | none =>
          let s := (r.2.writePieces c r.1.2 (slice l o.pos n)).2
          let last := l.length ≤ o.pos + n
          let item := b * 2 ^ 32 + o.d.frame.flow * 2 ^ 16 + 2 ^ 15 + b2n (decide (o.pos = 0)) * 2 ^ 14 + b2n last * 2 ^ 13 +
            b2n o.d.untrusted * 2 ^ 11 + n
          let s := (s.setDma c { s.dma c with rsv := rest, fifo := (s.dma c).fifo ++ [item] }).irq (0x50 + c) 6
          State.rsvFill k s c { o with pos := o.pos + n } (used + 1)

/-- The word 2 of a frame's descriptor i of n (R305). -/
def rxWord2 (o : RxOpen) (status i n len : Nat) (reserve : Bool) : Nat :=
  2 ^ 31 + status * 2 ^ 28 + b2n (decide (i = 0 ∧ status ≠ 2)) * 2 ^ 27 + b2n (decide (i + 1 = n ∧ status = 0) && !reserve) * 2 ^ 26 +
    b2n o.d.untrusted * 2 ^ 25 + b2n (decide (i + 1 = n) && reserve) * 2 ^ 24 + o.d.frame.cls * 2 ^ 22 + i % 64 * 2 ^ 16 + len

/-- The descriptors of a frame complete: 0 ok, 1 truncated, 2 discarded (R305, R306). -/
def State.rxDescs (s : State) (c : Nat) (o : RxOpen) (status : Nat) (reserve : Bool) : State :=
  let n := o.descs.length
  (List.range n).foldl (fun s i =>
    let e := nthD o.descs i (0, 0)
    let f := o.d.frame
    let ws := [rxWord2 o status i n e.2 reserve, f.flow * 65536 + f.seq, f.src * 2 ^ 14, o.time, 0, 0]
    let r := s.xlate c (e.1 + 8) 24 .write
    match r.1.1 with
    | some (cause, fa) => r.2.dmaFault c cause fa
    | none => (r.2.writePieces c r.1.2 (ws.flatMap (leBytes 4))).2) s

/-- A count of a user flow's context. -/
def State.flowCount (s : State) (f : Frame) (off : Nat) : State :=
  if f.kind = 0 && entState (s.ent f.flow) = 1 then s.cntCtx (entSlot (s.ent f.flow)) off 1 else s

/-- A frame ends at its queue: descriptors, counts and interrupt (R168, R210, R211, R305, R310). -/
def State.rxFinish (s : State) (c : Nat) (o : RxOpen) (status : Nat) (reserve : Bool := false) (lost : Bool := false) : State :=
  let f := o.d.frame
  let s := s.rxDescs c o status reserve
  let s := (s.inc (rDMA_CNT_RX_FRAMES c)).irq (0x50 + c) 5
  if status = 0 then
    s.handOver f
  else if status = 2 then s.countLost f
  else if lost then s.flowCount f 0x68
  else s.flowCount f 0x64

/-- A class 0 frame is lost (R210). -/
def State.lost0 (s : State) : State := (((s.inc rTTB_CNT_LOST0).ttbCause fTTB_FAULT_CAUSE_class0_lost).raise 12).irq 0x38 5

/-- Frames of classes 1 to 3 that wait at a channel go on, in order (R211). -/
def State.rxPump : Nat → State → Nat → List (Nat × Byte) → State
  | 0, s, _, _ => s
  | k + 1, s, c, host =>
    match (s.dma c).open_ with
    | [] => s
    | o :: rest =>
      match s.rxFill 16 c host o with
      | (false, o, s) => s.setDma c { s.dma c with open_ := o :: rest }
      | (true, o, s) => State.rxPump k ((s.setDma c { s.dma c with open_ := rest }).rxFinish c o 0) c host

/-- A frame delivered at endpoint port `port` for a receive queue (R303 to R306, R209 to R211). -/
def State.rxFrame (s : State) (port : Nat) (host : List (Nat × Byte)) (d : Delivered) : State :=
  let f := d.frame
  let queue := (d.held.map HeldCtx.queue).getD 0
  match s.rxChannel port queue with
  | none =>
    let s := ((s.flowCount f 0x68).inc rDMAA_CNT_UNBOUND).fault { source := 55, page := 0x60 }
    if f.cls = 0 then s.lost0 else s
  | some c =>
    let o : RxOpen := { d := d, time := d.came }
    if d.discard then
      match s.takeBuffer c host 0 with
      | (none, s) => s.rxFinish c o 2
      | (some (a, _, _), s) => s.rxFinish c { o with descs := [(a, 0)] } 2
    else if f.cls != 0 then (s.setDma c { s.dma c with open_ := (s.dma c).open_ ++ [o] }).rxPump 16 c host
    else match s.rxFill 16 c host o with
      | (true, o, s) => s.rxFinish c o 0
      | (false, o, s) =>
        let r := s.rsvFill 33 c o 0
        let used := r.2.1 != 0
        let s := if used then r.2.2.inc rTTB_CNT_RESERVE else r.2.2
        if (s.rxOctets c f).length ≤ r.1.pos && (used || o.descs != []) then s.rxFinish c r.1 0 used
        else
          let s := if used then
              let x := s.dma c
              s.setDma c { x with fifo := x.fifo.dropLast ++ (x.fifo.getLast?.toList.map (fun i => natPut i 12 12 1)) }
            else s
          s.lost0.rxFinish c r.1 1 used true

/-- The receive-stall timer of a channel ends its waiting frame (R211); no timer runs while the ring holds a buffer for it. -/
def State.rxStall (s : State) (c : Nat) : State :=
  let d := s.dma c
  if !s.enabled (0x50 + c) then s
  else if s.chState c = 5 && s.get (rDMA_RX_HEAD c) fDMA_RX_HEAD_head != s.get (rDMA_RX_TAIL c) fDMA_RX_TAIL_tail then s else
  match d.open_ with
  | [] => s
  | o :: rest =>
    let head := if s.flag (rDMA_RX_CFG c) fDMA_RX_CFG_header then 0 else 24
    let s := s.setDma c { d with open_ := rest }
    let s := s.discardCells o.d.orig (o.d.frame.cells - (o.pos + head) / 128)
    let s := (s.inc (rDMA_CNT_STALL c)).irq (0x50 + c) 7
    (s.rxFinish c o 1).rxPump 16 c []

/-- A block reset of FAB completes the frames in progress at receive channels with discard (R146). -/
def State.rxDiscardOpen (s : State) : State :=
  (List.range 16).foldl (fun s c =>
    let l := (s.dma c).open_
    l.foldl (fun s o => (s.discardCells o.d.orig (s.rxUnread c o).length).rxFinish c o 2) (s.setDma c { s.dma c with open_ := [] })) s

/-! ### Ending a channel's work (R296, R301, R310) -/

/-- The descriptor in progress completes with status 1 and open frames complete truncated; remote requests in flight are no longer waited for. -/
def State.dmaHalt (s : State) (c : Nat) : State :=
  let s := if (s.dma c).desc = [] then s else s.dmaComplete c 1 0 true
  let l := (s.dma c).open_
  let s := s.setDma c { s.dma c with open_ := [], stopReq := false, busy := false }
  let b := s.br (2 + c)
  let drop (l : List NpReq) : List NpReq := l.map (fun r => { r with cont := .drop })
  let s := s.setBr (2 + c) { b with outst := drop b.outst, queue := [] }
  l.foldl (fun s o => s.rxFinish c o 1) s

/-- A channel is freed (R296). -/
def State.dmaFree (s : State) (c : Nat) (forced : Bool) : State :=
  let s := s.dmaHalt c
  let s := s.setDma c { s.dma c with rx := false }
  let s := (s.setReg (rDMAA_OWNER c) 0xFF).setReg (rDMA_STATE c) 0xFF000000
  if forced then s.inc rDMAA_CNT_FORCED_FREE else s

/-- A block reset of a channel's page acts as an abort (R310); what the channel held beside its registers goes with its V fields. The mark
in stopReq says for `dmaRestart` that the channel was busy. -/
def State.dmaBlockReset (s : State) (c : Nat) : State :=
  let st := s.chState c
  (s.dmaHalt c).setDma c { stopReq := st = 2 || st = 3 || st = 5 }

/-- After the block reset the channel still has its owner: STOPPED where it was busy, else IDLE (R310). -/
def State.dmaRestart (s : State) (c : Nat) : State :=
  let w := s.reg (rDMAA_OWNER c)
  let busy := (s.dma c).stopReq
  let s := s.setDma c {}
  if fldOf w fDMAA_OWNER_owner = 0xFF then s
  else (s.put (rDMA_STATE c) fDMA_STATE_owner (fldOf w fDMAA_OWNER_owner)).setChState c (if busy then 4 else 1)

end Sys2Proof.Machine
end

