-- ==== Sys2Proof/Machine/Crypto.lean ====
section
/-! DEFINITION. The algorithms that R433, R440, R455, R460 and R514 name: AES (FIPS 197), GCM (SP 800-38D), CTR, CMAC (SP 800-38B), the
RFC 3394 unwrap, SHA-256 and the SP 800-108 counter-mode KDF. The spec names the standards; the text of them here is PRESUMED (log
entry 7). -/
namespace Sys2Proof.Machine

/-! ### AES -/

/-- The S-box of FIPS 197. -/
def sboxTable : List Nat :=
  [0x63, 0x7C, 0x77, 0x7B, 0xF2, 0x6B, 0x6F, 0xC5, 0x30, 0x01, 0x67, 0x2B, 0xFE, 0xD7, 0xAB, 0x76] ++
  [0xCA, 0x82, 0xC9, 0x7D, 0xFA, 0x59, 0x47, 0xF0, 0xAD, 0xD4, 0xA2, 0xAF, 0x9C, 0xA4, 0x72, 0xC0] ++
  [0xB7, 0xFD, 0x93, 0x26, 0x36, 0x3F, 0xF7, 0xCC, 0x34, 0xA5, 0xE5, 0xF1, 0x71, 0xD8, 0x31, 0x15] ++
  [0x04, 0xC7, 0x23, 0xC3, 0x18, 0x96, 0x05, 0x9A, 0x07, 0x12, 0x80, 0xE2, 0xEB, 0x27, 0xB2, 0x75] ++
  [0x09, 0x83, 0x2C, 0x1A, 0x1B, 0x6E, 0x5A, 0xA0, 0x52, 0x3B, 0xD6, 0xB3, 0x29, 0xE3, 0x2F, 0x84] ++
  [0x53, 0xD1, 0x00, 0xED, 0x20, 0xFC, 0xB1, 0x5B, 0x6A, 0xCB, 0xBE, 0x39, 0x4A, 0x4C, 0x58, 0xCF] ++
  [0xD0, 0xEF, 0xAA, 0xFB, 0x43, 0x4D, 0x33, 0x85, 0x45, 0xF9, 0x02, 0x7F, 0x50, 0x3C, 0x9F, 0xA8] ++
  [0x51, 0xA3, 0x40, 0x8F, 0x92, 0x9D, 0x38, 0xF5, 0xBC, 0xB6, 0xDA, 0x21, 0x10, 0xFF, 0xF3, 0xD2] ++
  [0xCD, 0x0C, 0x13, 0xEC, 0x5F, 0x97, 0x44, 0x17, 0xC4, 0xA7, 0x7E, 0x3D, 0x64, 0x5D, 0x19, 0x73] ++
  [0x60, 0x81, 0x4F, 0xDC, 0x22, 0x2A, 0x90, 0x88, 0x46, 0xEE, 0xB8, 0x14, 0xDE, 0x5E, 0x0B, 0xDB] ++
  [0xE0, 0x32, 0x3A, 0x0A, 0x49, 0x06, 0x24, 0x5C, 0xC2, 0xD3, 0xAC, 0x62, 0x91, 0x95, 0xE4, 0x79] ++
  [0xE7, 0xC8, 0x37, 0x6D, 0x8D, 0xD5, 0x4E, 0xA9, 0x6C, 0x56, 0xF4, 0xEA, 0x65, 0x7A, 0xAE, 0x08] ++
  [0xBA, 0x78, 0x25, 0x2E, 0x1C, 0xA6, 0xB4, 0xC6, 0xE8, 0xDD, 0x74, 0x1F, 0x4B, 0xBD, 0x8B, 0x8A] ++
  [0x70, 0x3E, 0xB5, 0x66, 0x48, 0x03, 0xF6, 0x0E, 0x61, 0x35, 0x57, 0xB9, 0x86, 0xC1, 0x1D, 0x9E] ++
  [0xE1, 0xF8, 0x98, 0x11, 0x69, 0xD9, 0x8E, 0x94, 0x9B, 0x1E, 0x87, 0xE9, 0xCE, 0x55, 0x28, 0xDF] ++
  [0x8C, 0xA1, 0x89, 0x0D, 0xBF, 0xE6, 0x42, 0x68, 0x41, 0x99, 0x2D, 0x0F, 0xB0, 0x54, 0xBB, 0x16]

/-- Its inverse. -/
def sboxInvTable : List Nat :=
  [0x52, 0x09, 0x6A, 0xD5, 0x30, 0x36, 0xA5, 0x38, 0xBF, 0x40, 0xA3, 0x9E, 0x81, 0xF3, 0xD7, 0xFB] ++
  [0x7C, 0xE3, 0x39, 0x82, 0x9B, 0x2F, 0xFF, 0x87, 0x34, 0x8E, 0x43, 0x44, 0xC4, 0xDE, 0xE9, 0xCB] ++
  [0x54, 0x7B, 0x94, 0x32, 0xA6, 0xC2, 0x23, 0x3D, 0xEE, 0x4C, 0x95, 0x0B, 0x42, 0xFA, 0xC3, 0x4E] ++
  [0x08, 0x2E, 0xA1, 0x66, 0x28, 0xD9, 0x24, 0xB2, 0x76, 0x5B, 0xA2, 0x49, 0x6D, 0x8B, 0xD1, 0x25] ++
  [0x72, 0xF8, 0xF6, 0x64, 0x86, 0x68, 0x98, 0x16, 0xD4, 0xA4, 0x5C, 0xCC, 0x5D, 0x65, 0xB6, 0x92] ++
  [0x6C, 0x70, 0x48, 0x50, 0xFD, 0xED, 0xB9, 0xDA, 0x5E, 0x15, 0x46, 0x57, 0xA7, 0x8D, 0x9D, 0x84] ++
  [0x90, 0xD8, 0xAB, 0x00, 0x8C, 0xBC, 0xD3, 0x0A, 0xF7, 0xE4, 0x58, 0x05, 0xB8, 0xB3, 0x45, 0x06] ++
  [0xD0, 0x2C, 0x1E, 0x8F, 0xCA, 0x3F, 0x0F, 0x02, 0xC1, 0xAF, 0xBD, 0x03, 0x01, 0x13, 0x8A, 0x6B] ++
  [0x3A, 0x91, 0x11, 0x41, 0x4F, 0x67, 0xDC, 0xEA, 0x97, 0xF2, 0xCF, 0xCE, 0xF0, 0xB4, 0xE6, 0x73] ++
  [0x96, 0xAC, 0x74, 0x22, 0xE7, 0xAD, 0x35, 0x85, 0xE2, 0xF9, 0x37, 0xE8, 0x1C, 0x75, 0xDF, 0x6E] ++
  [0x47, 0xF1, 0x1A, 0x71, 0x1D, 0x29, 0xC5, 0x89, 0x6F, 0xB7, 0x62, 0x0E, 0xAA, 0x18, 0xBE, 0x1B] ++
  [0xFC, 0x56, 0x3E, 0x4B, 0xC6, 0xD2, 0x79, 0x20, 0x9A, 0xDB, 0xC0, 0xFE, 0x78, 0xCD, 0x5A, 0xF4] ++
  [0x1F, 0xDD, 0xA8, 0x33, 0x88, 0x07, 0xC7, 0x31, 0xB1, 0x12, 0x10, 0x59, 0x27, 0x80, 0xEC, 0x5F] ++
  [0x60, 0x51, 0x7F, 0xA9, 0x19, 0xB5, 0x4A, 0x0D, 0x2D, 0xE5, 0x7A, 0x9F, 0x93, 0xC9, 0x9C, 0xEF] ++
  [0xA0, 0xE0, 0x3B, 0x4D, 0xAE, 0x2A, 0xF5, 0xB0, 0xC8, 0xEB, 0xBB, 0x3C, 0x83, 0x53, 0x99, 0x61] ++
  [0x17, 0x2B, 0x04, 0x7E, 0xBA, 0x77, 0xD6, 0x26, 0xE1, 0x69, 0x14, 0x63, 0x55, 0x21, 0x0C, 0x7D]

def sbox (b : Byte) : Byte := toB (nthD sboxTable b.toNat 0)
def sboxInv (b : Byte) : Byte := toB (nthD sboxInvTable b.toNat 0)

/-- Octets combined by exclusive or. -/
def xorL (a b : List Byte) : List Byte := List.zipWith (fun x y => x ^^^ y) a b

/-- Multiplication by x in the field of AES. -/
def xtime (b : Byte) : Byte := if b.toNat < 128 then b <<< 1 else (b <<< 1) ^^^ 0x1B

/-- Multiplication in the field of AES, by the low bits of n. -/
def gmul : Nat → Nat → Byte → Byte
  | 0, _, _ => 0
  | k + 1, n, b => (if n % 2 = 1 then b else 0) ^^^ gmul k (n / 2) (xtime b)

/-- The key schedule's words, the newest first. -/
def keyWords (nk : Nat) : Nat → Nat → List (List Byte) → List (List Byte)
  | 0, _, acc => acc
  | n + 1, i, acc =>
    let t := acc.head?.getD []
    let t := if i % nk = 0 then xorL ((t.drop 1 ++ t.take 1).map sbox) [toB (nthD [1, 2, 4, 8, 16, 32, 64, 128, 0x1B, 0x36] (i / nk - 1) 0), 0, 0, 0]
      else if 6 < nk && i % nk = 4 then t.map sbox else t
    keyWords nk n (i + 1) (xorL t (nthD acc (nk - 1) []) :: acc)

/-- The round keys of a key of 16 or 32 octets, 16 octets each. -/
def schedule (key : List Byte) : List (List Byte) :=
  let nk := key.length / 4
  let n := 4 * (nk + 7)
  let first := (List.range nk).map (fun i => slice key (4 * i) 4)
  let l := ((keyWords nk (n - nk) nk first.reverse).reverse).flatten
  (List.range (nk + 7)).map (fun i => slice l (16 * i) 16)

def shiftRows (l : List Byte) : List Byte := (List.range 16).map (fun i => nthD l ((i + 4 * (i % 4)) % 16) 0)
def unshiftRows (l : List Byte) : List Byte := (List.range 16).map (fun i => nthD l ((i + 12 * (i % 4)) % 16) 0)

/-- Each column by the circulant matrix whose first row is c. -/
def mixWith (c : List Nat) (l : List Byte) : List Byte :=
  (List.range 16).map (fun i => (List.range 4).foldl (fun acc j => acc ^^^ gmul 4 (nthD c ((j + 4 - i % 4) % 4) 0) (nthD l (i / 4 * 4 + j) 0)) 0)

/-- AES of one block under a key schedule. -/
def aes (ks : List (List Byte)) (block : List Byte) : List Byte :=
  match ks with
  | [] => block
  | k0 :: rest =>
    let mid := rest.dropLast.foldl (fun st k => xorL (mixWith [2, 3, 1, 1] (shiftRows (st.map sbox))) k) (xorL block k0)
    xorL (shiftRows (mid.map sbox)) (rest.getLast?.getD [])

/-- The inverse cipher. -/
def aesInv (ks : List (List Byte)) (block : List Byte) : List Byte :=
  match ks.reverse with
  | [] => block
  | k0 :: rest =>
    let mid := rest.dropLast.foldl (fun st k => mixWith [14, 11, 13, 9] (xorL ((unshiftRows st).map sboxInv) k)) (xorL block k0)
    xorL ((unshiftRows mid).map sboxInv) (rest.getLast?.getD [])

/-! ### Modes -/

/-- n octets of CTR keystream from a counter block, incremented as a 128-bit big-endian integer (R433). -/
def keystream (ks : List (List Byte)) (ctr n : Nat) : List Byte :=
  ((List.range ((n + 15) / 16)).flatMap (fun i => aes ks (beBytes 16 ((ctr + i) % 2 ^ 128)))).take n

/-- CTR, either way. -/
def ctrMode (ks : List (List Byte)) (ctr : Nat) (data : List Byte) : List Byte := xorL data (keystream ks ctr data.length)

/-- Multiplication in the field of GHASH, bit 0 first. -/
def ghashMul : Nat → Nat → Nat → Nat → Nat
  | 0, _, _, z => z
  | k + 1, x, v, z =>
    ghashMul k x (if v % 2 = 1 then v / 2 ^^^ (0xE1 * 2 ^ 120) else v / 2) (if x.testBit k then z ^^^ v else z)

/-- Octets with zeros up to a multiple of 16. -/
def pad16 (l : List Byte) : List Byte := l ++ List.replicate ((16 - l.length % 16) % 16) 0

/-- GHASH over octets, a multiple of 16 of them. -/
def ghash (h : Nat) (l : List Byte) : Nat :=
  (List.range (l.length / 16)).foldl (fun y i => ghashMul 128 (y ^^^ beNat (slice l (16 * i) 16)) h 0) 0

/-- The GCM tag of a ciphertext with a 96-bit IV. -/
def gcmTag (ks : List (List Byte)) (iv aad ct : List Byte) : List Byte :=
  let h := beNat (aes ks (List.replicate 16 0))
  let s := ghash h (pad16 aad ++ pad16 ct ++ beBytes 8 (8 * aad.length) ++ beBytes 8 (8 * ct.length))
  xorL (beBytes 16 s) (aes ks (iv ++ [0, 0, 0, 1]))

/-- The data of GCM, either way: its counter runs modulo 2^32 in the last four octets. -/
def gcmData (ks : List (List Byte)) (iv data : List Byte) : List Byte :=
  xorL data (((List.range ((data.length + 15) / 16)).flatMap (fun i => aes ks (iv ++ beBytes 4 ((2 + i) % 2 ^ 32)))).take data.length)

/-- Doubling in the field of CMAC. -/
def cmacDouble (n : Nat) : Nat := if n < 2 ^ 127 then 2 * n else (2 * n % 2 ^ 128) ^^^ 0x87

/-- CMAC with a 128-bit tag. -/
def cmac (ks : List (List Byte)) (msg : List Byte) : List Byte :=
  let k1 := cmacDouble (beNat (aes ks (List.replicate 16 0)))
  let n := max 1 ((msg.length + 15) / 16)
  let last := msg.drop (16 * (n - 1))
  let last := if last.length = 16 then xorL last (beBytes 16 k1)
    else xorL (pad16 (last ++ [0x80])) (beBytes 16 (cmacDouble k1))
  let c := (List.range (n - 1)).foldl (fun c i => aes ks (xorL c (slice msg (16 * i) 16))) (List.replicate 16 0)
  aes ks (xorL c last)

/-! ### RFC 3394 -/

/-- One step of the unwrap on the check value and the registers. -/
def unwrapStep (ks : List (List Byte)) (n : Nat) (a : List Byte × List (List Byte)) (t : Nat) : List Byte × List (List Byte) :=
  let i := (t - 1) % n
  let b := aesInv ks (xorL a.1 (beBytes 8 t) ++ nthD a.2 i [])
  (b.take 8, setNth a.2 i (b.drop 8))

/-- The unwrapped key: none where its integrity check fails. -/
def unwrapKey (ks : List (List Byte)) (c : List Byte) : Option (List Byte) :=
  let n := c.length / 8 - 1
  let r := (List.range (6 * n)).foldl (fun a j => unwrapStep ks n a (6 * n - j)) (c.take 8, (List.range n).map (fun i => slice c (8 * (i + 1)) 8))
  if r.1 = List.replicate 8 0xA6 then some r.2.flatten else none

/-! ### SHA-256 and the KDF -/

def shaK : List Nat :=
  [0x428A2F98, 0x71374491, 0xB5C0FBCF, 0xE9B5DBA5, 0x3956C25B, 0x59F111F1, 0x923F82A4, 0xAB1C5ED5] ++
  [0xD807AA98, 0x12835B01, 0x243185BE, 0x550C7DC3, 0x72BE5D74, 0x80DEB1FE, 0x9BDC06A7, 0xC19BF174] ++
  [0xE49B69C1, 0xEFBE4786, 0x0FC19DC6, 0x240CA1CC, 0x2DE92C6F, 0x4A7484AA, 0x5CB0A9DC, 0x76F988DA] ++
  [0x983E5152, 0xA831C66D, 0xB00327C8, 0xBF597FC7, 0xC6E00BF3, 0xD5A79147, 0x06CA6351, 0x14292967] ++
  [0x27B70A85, 0x2E1B2138, 0x4D2C6DFC, 0x53380D13, 0x650A7354, 0x766A0ABB, 0x81C2C92E, 0x92722C85] ++
  [0xA2BFE8A1, 0xA81A664B, 0xC24B8B70, 0xC76C51A3, 0xD192E819, 0xD6990624, 0xF40E3585, 0x106AA070] ++
  [0x19A4C116, 0x1E376C08, 0x2748774C, 0x34B0BCB5, 0x391C0CB3, 0x4ED8AA4A, 0x5B9CCA4F, 0x682E6FF3] ++
  [0x748F82EE, 0x78A5636F, 0x84C87814, 0x8CC70208, 0x90BEFFFA, 0xA4506CEB, 0xBEF9A3F7, 0xC67178F2]

def shaH : List Nat :=
  [0x6A09E667, 0xBB67AE85, 0x3C6EF372, 0xA54FF53A, 0x510E527F, 0x9B05688C, 0x1F83D9AB, 0x5BE0CD19]

/-- The message schedule of a block, the newest word first. -/
def shaWords : Nat → List Word → List Word
  | 0, acc => acc
  | k + 1, acc =>
    let w15 := nthD acc 14 0
    let w2 := nthD acc 1 0
    let s0 := w15.rotateRight 7 ^^^ w15.rotateRight 18 ^^^ (w15 >>> 3)
    let s1 := w2.rotateRight 17 ^^^ w2.rotateRight 19 ^^^ (w2 >>> 10)
    shaWords k ((nthD acc 15 0 + s0 + nthD acc 6 0 + s1) :: acc)

/-- One round on the eight working words. -/
def shaRound (st : List Word) (kw : Word) : List Word :=
  match st with
  | [a, b, c, d, e, f, g, h] =>
    let s1 := e.rotateRight 6 ^^^ e.rotateRight 11 ^^^ e.rotateRight 25
    let t1 := h + s1 + ((e &&& f) ^^^ (~~~e &&& g)) + kw
    let s0 := a.rotateRight 2 ^^^ a.rotateRight 13 ^^^ a.rotateRight 22
    [t1 + s0 + ((a &&& b) ^^^ (a &&& c) ^^^ (b &&& c)), a, b, c, d + t1, e, f, g]
  | l => l

/-- One block into the hash. -/
def shaBlock (h : List Word) (blk : List Byte) : List Word :=
  let w0 := ((List.range 16).map (fun i => toW (beNat (slice blk (4 * i) 4)))).reverse
  let w := (shaWords 48 w0).reverse
  let st := (List.zipWith (fun k w => toW k + w) shaK w).foldl shaRound h
  List.zipWith (fun a b => a + b) h st

/-- SHA-256. -/
def sha256 (msg : List Byte) : List Byte :=
  let z := (119 - msg.length % 64) % 64
  let m := msg ++ [0x80] ++ List.replicate z 0 ++ beBytes 8 (8 * msg.length)
  let h := (List.range (m.length / 64)).foldl (fun h i => shaBlock h (slice m (64 * i) 64)) (shaH.map toW)
  h.flatMap (fun w => beBytes 4 w.toNat)

/-- The SP 800-108 KDF in counter mode with CMAC, for a key of 128 or 256 bits (R460). -/
def kdf (ks : List (List Byte)) (label ctx : List Byte) (bits : Nat) : List Byte :=
  let k (i : Nat) : List Byte := cmac ks (beBytes 4 i ++ label ++ [0] ++ ctx ++ beBytes 4 bits)
  if bits = 256 then k 1 ++ k 2 else k 1

end Sys2Proof.Machine
end

