-- ==== Sys2Proof/Machine/Keys.lean ====
section
/-! DEFINITION. The Saffron store (R448 to R466): slots and attributes, use of a key, revocation, update messages, erasure. -/
namespace Sys2Proof.Machine

/-! ### Attributes (R449) -/

def attrParent (a : Nat) : Nat := natBits a 63 56
def attrUses (a : Nat) : Nat := natBits a 55 31
def attrMode (a : Nat) : Nat := natBits a 30 29
def attrKey256 (a : Nat) : Bool := a.testBit 28
def attrExpire (a : Nat) : Bool := a.testBit 27
def attrMix (a : Nat) : Bool := a.testBit 26
def attrQrn (a : Nat) : Bool := a.testBit 25
def attrLedger (a : Nat) : Bool := a.testBit 24
def attrDerive (a : Nat) : Bool := a.testBit 23
def attrMac (a : Nat) : Bool := a.testBit 22
def attrDecrypt (a : Nat) : Bool := a.testBit 21
def attrEncrypt (a : Nat) : Bool := a.testBit 20

/-- Attributes that R449 refuses with code 9. -/
def attrBad (a : Nat) : Bool := 2 ^ 24 < attrUses a || attrMode a = 3 || a % 2 ^ 20 != 0

/-- The octets of a key that its size uses. -/
def keyOctets (attr : Nat) (key : List Byte) : List Byte := key.take (if attrKey256 attr then 32 else 16)

/-! ### The parent chain (R463) -/

/-- The parent of a slot: 0xFF where it has none, as at depth 0 (R448, R456). -/
def KeySlot.parent (x : KeySlot) : Nat := if x.depth = 0 then 0xFF else attrParent x.attr

/-- A slot is valid and so is every ancestor along its chain, at most 4 deep. -/
def State.chainOk : Nat → State → Nat → Bool
  | 0, _, _ => false
  | k + 1, s, n =>
    let x := s.key n
    x.st = 1 && (x.parent = 0xFF || State.chainOk k s x.parent)

def State.keyOk (s : State) (n : Nat) : Bool := s.chainOk 5 n

/-- Every ancestor of a slot is valid. -/
def State.parentsOk (s : State) (n : Nat) : Bool :=
  let p := (s.key n).parent
  p = 0xFF || s.keyOk p

/-- Slot a is an ancestor of slot n. -/
def State.isAncestor : Nat → State → Nat → Nat → Bool
  | 0, _, _, _ => false
  | k + 1, s, a, n =>
    let p := (s.key n).parent
    (s.key n).st != 0 && p != 0xFF && (p = a || State.isAncestor k s a p)

/-- Every descendant of slot n becomes revoked (R465). -/
def State.revoke (s : State) (n : Nat) : State :=
  let l := (List.range 256).filter (fun x => s.isAncestor 5 n x)
  if l = [] then s
  else (l.foldl (fun (s : State) x => s.setKey x { s.key x with st := 4 }) s).irq 0x4C 4

/-! ### The log (R459, R469, R512) -/

/-- A result is logged and recorded in the ledger; an item that finds the log full is dropped. -/
def State.keyLog (s : State) (slot code result : Nat) (ring : Bool) (counter : Nat) : State :=
  let item := counter * 2 ^ 32 + slot * 2 ^ 24 + code * 2 ^ 16 + result * 2 ^ 8 + b2n ring
  let s := if s.kmgr.log.length < 16 then { s with kmgr := { s.kmgr with log := s.kmgr.log ++ [item] } } else s
  (s.irq 0x4C 2).stage 0x30 (slot * 256 + result) ([toB code, toB (b2n ring)] ++ beBytes 4 counter)

/-! ### Use of a key (R450, R452, R462, R464) -/

/-- An operation takes one use of a slot. The slot is disabled with its last use; the operation runs to completion. -/
def State.takeUse (s : State) (n : Nat) : Bool × State :=
  let x := s.key n
  if attrUses x.attr = 0 then (false, s)
  else if 1 < x.left then (false, s.setKey n { x with left := x.left - 1 })
  else
    let s := (s.setKey n { x with left := 0, st := 2 }).revoke n
    (true, (((s.irq 0x4C 6).raise 64 0x4C)).keyLog n 0x10 0 false 0)

/-- A read of key memory that an armed checker takes (R452, R589): the slot becomes invalid, and source 66 is raised. -/
def State.keyEcc (s : State) (n : Nat) : Bool × State :=
  match s.armed 0x4C 0 with
  | none => (false, s)
  | some false => (false, s.disarm 0x4C)
  | some true =>
    let s := s.disarm 0x4C
    (true, ((s.setKey n { s.key n with st := 3 }).revoke n).raiseInj 66 0x4C)

/-- The key of a slot: its own, or the one a QRN-40 slot derives from its parent (R462). -/
def State.keyNow (s : State) (n : Nat) : List Byte :=
  let x := s.key n
  if attrQrn x.attr then
    let p := s.key (attrParent x.attr)
    cmac (schedule (keyOctets p.attr p.key)) ([0x51, 0x52, 0x4E, 0x34] ++ x.label)
  else keyOctets x.attr x.key

/-- The start of an operation on a slot: none where the slot fails R463, lacks the usage or serves the ledger only (R443); else its key as it
stands now, one use taken. -/
def State.keyStart (s : State) (n : Nat) (usage : Nat → Bool) : Option KeyUse × State :=
  let x := s.key n
  let qrnOk := !attrQrn x.attr || (attrParent x.attr != 0xFF && attrDerive (s.key (attrParent x.attr)).attr)
  if !s.keyOk n || !usage x.attr || attrLedger x.attr || !qrnOk then (none, s)
  else
    let e := s.keyEcc n
    if e.1 then (none, e.2)
    else
      let k := e.2.keyNow n
      let u := e.2.takeUse n
      (some ⟨n, k, x.attr, u.1⟩, u.2)

/-- The key, or an ancestor, has stopped being valid since the operation started (R464). -/
def State.revokedSince (s : State) (u : KeyUse) : Bool := if u.last then !s.parentsOk u.slot else !s.keyOk u.slot

/-! ### Erasure (R466) -/

/-- The store is erased; what is in progress at the cipher is ended by the caller. -/
def State.keyErase (s : State) : State :=
  let s := { s with keys := [] }
  let s := (((s.put rKEY_STATUS fKEY_STATUS_erased 1).inc rCIPH_CNT_ERASE).irq 0x48 3).irq 0x4C 5
  (s.raise 61 0x4C).keyLog 0 0x13 0 false 0

/-! ### Update messages (R454 to R458, R460) -/

def KeyMsg.code (m : KeyMsg) : Nat := (nthD m.data 0 0).toNat
def KeyMsg.slot (m : KeyMsg) : Nat := (nthD m.data 2 0).toNat
def KeyMsg.flags (m : KeyMsg) : Nat := (nthD m.data 3 0).toNat
def KeyMsg.restore (m : KeyMsg) : Bool := m.flags.testBit 0
def KeyMsg.counter (m : KeyMsg) : Nat := beNat (slice m.data 20 4)
def KeyMsg.attr (m : KeyMsg) : Nat := beNat (slice m.data 24 8)

/-- The unwrapped key of an install message (R455): the wrapping key is derived from slot 1. -/
def State.msgKey (s : State) (m : KeyMsg) : Option (List Byte) :=
  let x := s.key 1
  let label : List Byte := [0x53, 0x41, 0x46, 0x46, 0x52, 0x4F, 0x4E, 0x2D, 0x57, 0x52, 0x41, 0x50] ++ List.replicate 20 0
  let kek := kdf (schedule (keyOctets x.attr x.key)) label [] 256
  unwrapKey (schedule kek) (slice m.data 32 40)

/-- The format of a message (code 2): code, version, flags, padding, and restore only by a local apply. -/
def KeyMsg.badFormat (m : KeyMsg) : Bool :=
  let c := m.code
  let zeros (i n : Nat) : Bool := (slice m.data i n).all (· = 0)
  m.data.length != 88 || c = 0 || 3 < c || nthD m.data 1 0 != 1 || 1 < m.flags || (m.restore && (m.ring || !m.anise)) ||
    (c = 2 && !zeros 64 8) || (c = 3 && (!zeros 24 8 || !zeros 32 40))

/-- The parent that a message names does not do (code 8): not valid, without derive, or too deep; a derive needs one. -/
def State.badParent (s : State) (m : KeyMsg) : Bool :=
  let p := attrParent m.attr
  if m.code = 3 then false
  else if p = 0xFF then m.code = 2
  else !s.keyOk p || !attrDerive (s.key p).attr || attrLedger (s.key p).attr || 4 < (s.key p).depth + 1

/-- The attributes do not do (code 9). -/
def KeyMsg.badAttr (m : KeyMsg) : Bool :=
  let a := m.attr
  m.code != 3 && (attrBad a || (attrKey256 a && attrQrn a) || (attrMix a && attrQrn a) || (attrQrn a && m.code != 2) || (attrMix a && m.code != 2))

/-- The result code of the checks of R456, in their order; 1 when every check passes. Slot 1 must be valid for the CMAC check to be made. -/
def State.msgCheck (s : State) (m : KeyMsg) : Nat :=
  if !s.flag rKEY_CTR_LOCK fKEY_CTR_LOCK_locked then 11
  else if m.badFormat then 2
  else if beNat (slice m.data 4 16) != s.uid then 3
  else if m.slot < 8 then 4
  else if !s.keyOk 1 then 12
  else if cmac (schedule (keyOctets (s.key 1).attr (s.key 1).key)) (m.data.take 72) != m.data.drop 72 then 5
  else
    let stored := (s.reg (rKEY_CTR m.slot)).toNat
    if (if m.restore then m.counter != stored else m.counter ≤ stored) then 6
    else if m.code = 1 && (s.msgKey m).isNone then 7
    else if s.badParent m then 8
    else if m.badAttr then 9
    else 1

/-- KEY_RESULT shows a result. -/
def State.keyResult (s : State) (slot code : Nat) (done : Bool) : State := s.setReg rKEY_RESULT (toW (b2n done * 2 ^ 31 + slot * 2 ^ 16 + code))

/-- A message ends with a result code (R456): codes 2 to 9 and 12 raise source 62, code 10 source 65. -/
def State.msgEnd (s : State) (m : KeyMsg) (code : Nat) : State :=
  let s := (s.keyResult m.slot code true).keyLog m.slot m.code code m.ring m.counter
  if (2 ≤ code && code ≤ 9) || code = 12 then s.raise 62 0x4C else if code = 10 then s.raise 65 0x4C else s

/-- The measurements D that a derivation mixes in (R460). -/
def State.measD (s : State) : List Byte :=
  sha256 ((List.range 4).flatMap (fun n => (List.range 8).flatMap (fun w => beBytes 4 (s.reg (rFWU_MEAS n w)).toNat)))

/-- The key that a message gives its slot: unwrapped, or derived from its parent; a QRN-40 slot holds none (R460, R462). -/
def State.msgNewKey (s : State) (m : KeyMsg) : List Byte × State :=
  let a := m.attr
  if m.code = 1 then ((s.msgKey m).getD [], s)
  else if attrQrn a then ([], s)
  else
    let p := attrParent a
    let k := kdf (schedule (s.keyNow p)) (slice m.data 32 32) (if attrMix a then s.measD else []) (if attrKey256 a then 256 else 128)
    (k, (s.takeUse p).2)

/-- A message takes effect (R457, R458): the slot changes, the counter is taken, the result is logged. A parent that is no longer valid ends it
with code 8. -/
def State.msgApply (s : State) (m : KeyMsg) : State :=
  let n := m.slot
  if s.badParent m then s.msgEnd m 8
  else
    let s := if m.code = 3 then (s.setKey n { s.key n with st := 3 }).revoke n
      else
        let s := s.revoke n
        let k := s.msgNewKey m
        let p := attrParent m.attr
        k.2.setKey n { st := 1, key := k.1, attr := m.attr, label := if m.code = 2 then slice m.data 32 32 else [], left := attrUses m.attr,
                       depth := if p = 0xFF then 0 else (k.2.key p).depth + 1 }
    (s.setReg (rKEY_CTR n) (toW m.counter)).msgEnd m 0

/-- The store takes the next message of its queue, when none waits for its commit, and checks it. -/
def State.keyMessage (s : State) : State :=
  match s.kmgr.pending, s.kmgr.queue with
  | none, m :: rest =>
    let s := { s with kmgr := { s.kmgr with queue := rest } }
    let c := s.msgCheck m
    if c != 1 then s.msgEnd m c
    else if m.restore then s.msgApply m
    else
      let s := { s with kmgr := { s.kmgr with pending := some m } }
      ((s.keyResult m.slot 1 false).put rKEY_STATUS fKEY_STATUS_pending 1).irq 0x4C 3
  | _, _ => s

/-- The pending message is committed, or ends with code 10 (R457). -/
def State.keyCommitEnd (s : State) (commit : Bool) : State :=
  match s.kmgr.pending with
  | none => s
  | some m =>
    let s := { s with kmgr := { s.kmgr with pending := none } }
    let s := s.put rKEY_STATUS fKEY_STATUS_pending 0
    if commit then s.msgApply m else s.msgEnd m 10

/-- A message joins the queue; one that finds it full, or the counters not locked, ends with code 11 at once. -/
def State.keyQueue (s : State) (m : KeyMsg) : State :=
  if !s.flag rKEY_CTR_LOCK fKEY_CTR_LOCK_locked || 4 ≤ s.kmgr.queue.length then s.msgEnd m 11
  else { s with kmgr := { s.kmgr with queue := s.kmgr.queue ++ [m] } }

end Sys2Proof.Machine
end

