-- ==== Sys2Proof/Machine/Cipher.lean ====
section
/-! DEFINITION. The cipher engine (R433 to R447): mismatches, frames that end, memory jobs, erasure, block reset. -/
namespace Sys2Proof.Machine

/-! ### Frames at FP7 -/

/-- A frame with another payload: its length and header CRC follow. -/
def Frame.withPayload (f : Frame) (p : List Byte) : Frame :=
  ({ f with w0 := toW (natPut f.w0.toNat 9 0 p.length), payload := p }).seal

/-- The cipher counts a frame that it sends on with discard, unless the memory endpoint it goes to counts it as it completes its descriptors
(R141, R439, R443). -/
def countsLost (h : HeldCtx) : Bool := !(h.role = 1 && (h.port = 4 || h.port = 5 || h.port = 6 || h.port = 14))

/-- A frame goes back to input FP7 with cipher_done (R438). One that carries discard is counted here, once. -/
def State.cipherOut (s : State) (d : Delivered) (f : Frame) (discard untrusted : Bool) : State :=
  let lost := d.discard || discard
  let s := match d.held with
    | some h => if lost && countsLost h then s.countLostFlow h.flow else s
    | none => s
  let held := d.held.map (fun h => { h with lost := lost && countsLost h })
  s.setFabSrc 7 (s.fabSrc 7 ++ [{ d with inp := 7, frame := f, cipherDone := true, orig := 7, bank := [], discard := lost, held := held,
                                         untrusted := d.untrusted || untrusted }])

/-- The context slot of a resident flow. -/
def State.ctxOf (s : State) (flow : Nat) : Option Nat := if entState (s.ent flow) = 1 then some (entSlot (s.ent flow)) else none

/-- The frame in progress ends with discard (R447, R466). -/
def State.cipherDropFrame (s : State) : State :=
  match s.ciph.frame with
  | none => s
  | some x => ({ s with ciph := { s.ciph with frame := none } }).cipherOut x.d x.d.frame true false

/-! ### Mismatches (R437) -/

/-- The window of 2^erase_k epochs that the present epoch lies in. -/
def State.eraseWindow (s : State) : Nat := s.slot / 2 ^ 20 / 2 ^ s.get rCIPH_CFG fCIPH_CFG_erase_k

/-- Mismatches in the present window: CIPH_STATUS.mismatches. -/
def State.mismatches (s : State) : Nat := if s.ciph.window = s.eraseWindow then s.ciph.count else 0

/-- An armed compare checker takes the next block (R589). -/
def State.cipherArmed (s : State) : Bool × State :=
  match s.armed 0x48 3 with
  | none => (false, s)
  | some _ => (true, s.disarm 0x48)

/-! ### Memory jobs (R444 to R446) -/

def CiphSt.job (c : CiphSt) (r : Nat) : Option CiphJob := if r = 0 then c.job0 else c.job1
def State.setJob (s : State) (r : Nat) (j : Option CiphJob) : State :=
  { s with ciph := if r = 0 then { s.ciph with job0 := j } else { s.ciph with job1 := j } }

/-- Job ring r as a translated master of `xlate`. -/
def jrMaster (r : Nat) : Nat := 48 + r

def State.jrHead (s : State) (r : Nat) : Nat := s.get (rCIPH_JR_HEAD r) fCIPH_JR_HEAD_head
def State.jrState (s : State) (r : Nat) : Nat := s.get (rCIPH_JR_STATUS r) fCIPH_JR_STATUS_state

/-- The descriptor at the head of a ring. -/
def State.jrDesc (s : State) (r : Nat) : Nat :=
  (s.reg (rCIPH_JR_BASE r)).toNat / 64 * 64 + 64 * (s.jrHead r % 2 ^ s.get (rCIPH_JR_CFG r) fCIPH_JR_CFG_ring_k)

/-- A fault stops the ring (R446). -/
def State.jrFault (s : State) (r cause a : Nat) : State :=
  let s := s.setReg (rCIPH_JR_STATUS r) (toW (cause * 2 ^ 16 + 2))
  ((s.setReg (rCIPH_JR_FAULT_ADDR r) (toW a)).setJob r none).irq 0x49 3

/-- A job completes: word 15, the counts, and the ring goes on behind it (R445). A fault of the write stops the ring. -/
def State.jrDone (s : State) (r status bytes : Nat) (revoked irq : Bool) : State :=
  let w := toW (2 ^ 31 + status * 2 ^ 27 + b2n revoked * 2 ^ 26 + bytes)
  let x := s.xlate (jrMaster r) (s.jrDesc r + 60) 4 .write
  match x.1.1 with
  | some (cause, a) => x.2.jrFault r cause a
  | none =>
    let s := (x.2.writePieces (jrMaster r) x.1.2 (leBytes 4 w.toNat)).2
    let s := ((s.setJob r none).inc rCIPH_CNT_JOBS).setReg (rCIPH_JR_HEAD r) (toW ((s.jrHead r + 1) % 65536))
    let s := s.setReg (rCIPH_JR_STATUS r) 0
    let s := if status = 1 then s.raise 69 0x48 else if status = 2 || status = 5 then s.raise 63 0x48 else s
    if irq then s.irq 0x49 2 else s

/-- A word of a job's descriptor. -/
def jobWord (l : List Nat) (i : Nat) : Nat := nthD l i 0

/-- The ranges that a job touches: address, octets, and whether it writes them. -/
def jobRanges (l : List Nat) : List (Nat × Nat × Bool) :=
  let op := jobWord l 0 / 2 ^ 28
  let n := jobWord l 1 % 2 ^ 24
  [(jobWord l 2, n, false)] ++ (if op ≤ 2 then [(jobWord l 3, n, true)] else []) ++
    (if op != 2 then [(jobWord l 4, jobWord l 5 % 65536, false)] else []) ++
    (if op ≤ 1 then [(jobWord l 6, 12, false)] else if op = 2 then [(jobWord l 6, 16, false)] else []) ++
    (if op != 2 then [(jobWord l 7, 16, op = 0 || op = 3)] else [])

/-- A range reaches a side-effect range through a page that allows the register pages (R444). -/
def State.jobTouches (s : State) (r : Nat) (e : Nat × Nat × Bool) : Bool :=
  let pages := if e.2.1 = 0 then 0 else (e.1 % 4096 + e.2.1 + 4095) / 4096
  (List.range pages).any fun i =>
    let a := (if i = 0 then e.1 else e.1 / 4096 * 4096 + 4096 * i) % 2 ^ 32
    let t := (s.translate 0x40 (s.dmaLevel (jrMaster r)) a (if e.2.2 then .write else .read)).1
    let first := a % 4096
    let last := if i + 1 = pages then (e.1 + e.2.1 - 1) % 4096 else 4095
    (t.cause = 0 || t.cause = 8) && t.se && t.target = 0 && 0x10000000 ≤ t.out && t.out ≤ 0x100FFFFF &&
      (first < 0x040 || (first ≤ 0x77F && 0x600 ≤ last) || (first ≤ 0xF7F && 0xE00 ≤ last))

/-- The descriptor is none that R445 allows. -/
def State.jobBad (s : State) (r : Nat) (l : List Nat) : Bool :=
  let w0 := jobWord l 0
  4 < w0 / 2 ^ 28 || natBits w0 26 8 != 0 || natBits (jobWord l 1) 31 24 != 0 || natBits (jobWord l 5) 31 16 != 0 ||
    (slice l 8 7).any (· != 0) || (jobRanges l).any (s.jobTouches r)

/-- The usage that an op needs (status 2). -/
def jobUsage (op attr : Nat) : Bool :=
  if op = 0 || op = 2 then attrEncrypt attr else if op = 1 then attrDecrypt attr else attrMac attr

/-- A ring takes the jobs at its head until one is in progress: those refused complete at once. -/
def State.jrStart : Nat → State → Nat → State
  | 0, s, _ => s
  | k + 1, s, r =>
    if !s.enabled 0x48 || !s.flag (rCIPH_JR_CFG r) fCIPH_JR_CFG_enable || s.jrState r = 2 || (s.ciph.job r).isSome ||
        s.jrHead r = s.get (rCIPH_JR_TAIL r) fCIPH_JR_TAIL_tail then s
    else
      let x := s.xlate (jrMaster r) (s.jrDesc r) 64 .fetch
      match x.1.1 with
      | some (cause, a) => x.2.jrFault r cause a
      | none =>
        let m := x.2.readPieces (jrMaster r) [] x.1.2
        let s := m.2.2
        let l := (List.range 16).map (fun i => leNat (slice m.2.1 (4 * i) 4))
        let irq := (jobWord l 0).testBit 27
        if m.1 != 0 then State.jrStart k (s.jrDone r 4 0 false false) r
        else if s.jobBad r l then State.jrStart k (s.jrDone r 5 0 false irq) r
        else
          let u := s.keyStart (jobWord l 0 % 256) (jobUsage (jobWord l 0 / 2 ^ 28))
          match u.1 with
          | none => State.jrStart k (u.2.jrDone r 2 0 false irq) r
          | some use => (u.2.setJob r (some ⟨l, use⟩)).setReg (rCIPH_JR_STATUS r) 1

/-- A range read for a job: the status 0, or 4 where memory turns it away, or the fault. -/
def State.jobRead (s : State) (r a n : Nat) : (Option (Nat × Nat) × Nat × List Byte) × State :=
  let x := s.xlate (jrMaster r) a n .read
  match x.1.1 with
  | some f => ((some f, 0, []), x.2)
  | none =>
    let m := x.2.readPieces (jrMaster r) [] x.1.2
    ((none, (if m.1 = 0 then 0 else 4), m.2.1), m.2.2)

/-- What a job gives: the octets for its destination, for its tag, and its status. -/
structure JobOut where
  data : List Byte
  tag : List Byte
  status : Nat
deriving DecidableEq, Repr

/-- The computation of a job (R433, R445). -/
def jobCompute (op : Nat) (key iv aad src tag : List Byte) : JobOut :=
  let ks := schedule key
  if op = 0 then
    let c := gcmData ks iv src
    ⟨c, gcmTag ks iv aad c, 0⟩
  else if op = 1 then ⟨gcmData ks iv src, [], if gcmTag ks iv aad src = tag then 0 else 1⟩
  else if op = 2 then ⟨ctrMode ks (beNat iv) src, [], 0⟩
  else if op = 3 then ⟨[], cmac ks (aad ++ src), 0⟩
  else ⟨[], [], if cmac ks (aad ++ src) = tag then 0 else 1⟩

/-- Octets written for a job. -/
def State.jobWrite (s : State) (r a : Nat) (bs : List Byte) : (Option (Nat × Nat) × Nat) × State :=
  if bs = [] then ((none, 0), s)
  else
    let x := s.xlate (jrMaster r) a bs.length .write
    match x.1.1 with
    | some f => ((some f, 0), x.2)
    | none =>
      let m := x.2.writePieces (jrMaster r) x.1.2 bs
      ((none, if m.1 = 0 then 0 else 4), m.2)

/-! ### Ending what is in progress (R447, R466) -/

/-- Every job in progress completes with a status. -/
def State.jobsEnd (s : State) (status : Nat) : State :=
  [0, 1].foldl (fun (s : State) r =>
    match s.ciph.job r with
    | none => s
    | some j => s.jrDone r status 0 (s.revokedSince j.use) ((jobWord j.words 0).testBit 27)) s

/-- Erasure (R466): frames in progress are marked discard, jobs complete with status 6. -/
def State.erase (s : State) : State :=
  let s := s.cipherDropFrame
  let s := [0, 1].foldl (fun (s : State) r =>
    match s.ciph.job r with
    | none => s
    | some j => s.jrDone r 6 0 false ((jobWord j.words 0).testBit 27)) s
  let s := s.keyErase
  (s.jrStart 4 0).jrStart 4 1

/-- A compare mismatch of a frame or job (R437), its source raised: the counts, the capture, and erasure at erase_after within one window. The
pair that worked on the block is open (log entry 4). -/
def State.cipherMismatch (s : State) (job : Bool) (slot what : Nat) : State :=
  let w := s.eraseWindow
  let n := s.mismatches + 1
  let s := (s.inc rCIPH_CNT_MISMATCH).irq 0x48 2
  let s := if s.flag rCIPH_MM_CAP fCIPH_MM_CAP_valid then s
    else s.step1.setReg rCIPH_MM_CAP (toW (2 ^ 31 + b2n job * 2 ^ 28 + s.freeN % 2 * 2 ^ 24 + slot * 2 ^ 16 + what))
  let s : State := { s with ciph := { s.ciph with window := w, count := n } }
  if max 1 (s.get rCIPH_CFG fCIPH_CFG_erase_after) ≤ n then ({ s with ciph := { s.ciph with count := 0 } }).erase else s

/-- A block reset of CIPH (R447). -/
def State.cipherBlockReset (s : State) : State :=
  let s := s.cipherDropFrame.jobsEnd 7
  { s with ciph := {} }

end Sys2Proof.Machine
end

