-- ==== Sys2Proof/Machine/Fq.lean ====
section
/-! DEFINITION. Pins and field queues as units reach them (R312 to R332): which pin carries a signal, items, words, credits, frames. -/
namespace Sys2Proof.Machine

/-! ### Pins (R314, R315, R320) -/

/-- The function of a pin. -/
def State.pinFn (s : State) (c p : Nat) : Nat := s.get (rPMUX_PIN c p) fPMUX_PIN_function

/-- The pin of the cluster that carries a function. -/
def State.carrier (s : State) (c fn : Nat) : Option Nat := (List.range 32).find? (fun p => s.pinFn c p = fn)

/-- A function is routed to some pin. -/
def State.routed (s : State) (c fn : Nat) : Bool := (s.carrier c fn).isSome

/-- What a GPIO pin drives at its ball: none while it is high-impedance (R317, R318, R320). -/
def State.gpioDrive (s : State) (c p : Nat) : Option Bool :=
  let high := bitOf (s.reg (rPMUX_GPIO_OUT c)) p != s.flag (rPMUX_PIN c p) fPMUX_PIN_invert
  if s.pinFn c p = 1 && bitOf (s.reg (rPMUX_GPIO_OE c)) p && s.flag (rPMUX_BANK c) fPMUX_BANK_supply_ok && s.enabled (0xB0 + c) then
    (if high && s.flag (rPMUX_PIN c p) fPMUX_PIN_od then none else some high)
  else none

/-- The filtered level at a ball: what a GPIO pin drives, else what the board gives it (R320, R321; log entry 102). -/
def State.ballLevel (s : State) (c p : Nat) : Bool := (s.gpioDrive c p).getD (bitOf (s.ball c) p)

/-- The level that a pin shows: after invert, which REF_CLK does not have; 0 in function none (R317, R320). -/
def State.pinLevel (s : State) (c p : Nat) : Bool :=
  s.pinFn c p != 0 && (s.ballLevel c p != (s.pinFn c p != 0x38 && s.flag (rPMUX_PIN c p) fPMUX_PIN_invert))

/-- PMUX_GPIO_IN (R320). -/
def State.gpioIn (s : State) (c : Nat) : Word :=
  toW ((List.range 32).foldl (fun n p => n + b2n (s.pinLevel c p) * 2 ^ p) 0)

/-- The level of a unit input: that of its pin, or its idle level while no pin carries it (R315). -/
def State.inputLevel (s : State) (c fn : Nat) (idle : Bool) : Bool :=
  match s.carrier c fn with
  | some p => s.pinLevel c p
  | none => idle

/-! ### Queue settings (R312, R330, R334) -/

/-- The queue number exists (R312). -/
def fqExists (q : Nat) : Bool := q < 10 || (16 ≤ q && q < 32)

def State.fqOn (s : State) (c q : Nat) : Bool := fqExists q && s.flag (rFQ_QCFG c q) fFQ_QCFG_enable && s.enabled (0xB4 + c)

/-- Octets of an item (R323). -/
def State.fqWidth (s : State) (c q : Nat) : Nat :=
  let n := s.get (rFQ_QCFG c q) fFQ_QCFG_width
  if n = 0 then 1 else if n = 1 then 2 else 4

def State.fqWindow (s : State) (c q : Nat) : Nat :=
  let n := s.get (rFQ_QCFG c q) fFQ_QCFG_window
  if n = 0 then 16 else n

def State.rxDepth (s : State) (c q : Nat) : Nat := s.get (rFQ_QCFG c q) fFQ_QCFG_rx_depth
def State.txDepth (s : State) (c q : Nat) : Nat := s.get (rFQ_QCFG c q) fFQ_QCFG_tx_depth
def State.rxMode (s : State) (c q : Nat) : Nat := s.get (rFQ_BIND c q) fFQ_BIND_rx_mode
def State.txMode (s : State) (c q : Nat) : Nat := s.get (rFQ_BIND c q) fFQ_BIND_tx_mode

/-- Whole packets waiting in a receive queue (R324). -/
def FqSt.packets (x : FqSt) : Nat := (x.rx.filter (fun w => w.last)).length

/-- Free transmit words for a register-mode producer: FQ_STATUSq.tx_free. -/
def State.txFree (s : State) (c q : Nat) : Nat :=
  if s.fqOn c q && s.txMode c q = 0 then s.txDepth c q - (s.fq c q).tx.length else 0

/-- The fabric port of the cluster holds: a frame of it waits at its input (R147). -/
def State.fqHeld (s : State) (c q : Nat) : Bool := s.rxMode c q = 1 && !(s.fabSrc (10 + c)).isEmpty

/-- Credits topped up to the largest value that R325 allows. -/
def State.fqTopUp (s : State) (c q : Nat) : State :=
  if !s.fqOn c q then s.setFq c q { s.fq c q with credits := 0 }
  else if s.fqHeld c q then s
  else
    let x := s.fq c q
    let used := x.rx.length + (if x.opened = [] then 0 else 1)
    s.setFq c q { x with credits := min (s.fqWindow c q) (s.rxDepth c q - used) }

/-- The cluster's field-queue fault source with a discard counted (R332, R334). -/
def State.fqFault (s : State) (c : Nat) : State := (s.irq (0xB4 + c) 3).raise (72 + c)

/-- A read of queue memory that an armed checker takes: true where the word is bad (R332, R589). -/
def State.fqEcc (s : State) (c : Nat) : Bool × State :=
  match s.armed (0xB4 + c) 0 with
  | none => (false, s)
  | some false => (false, (s.disarm (0xB4 + c)).inc (rFQ_CNT_ECC_FIXED c))
  | some true => (true, ((s.disarm (0xB4 + c)).irq (0xB4 + c) 4).raiseInj (72 + c) (0xB4 + c))

/-! ### Frames of a receive queue in fabric mode (R328) -/

/-- The words of the next frame of a queue: through the first end mark, or max_words of an unfinished packet; none while neither is there. -/
def State.fqReady (s : State) (c q : Nat) : Option (List FqWord) :=
  let m := max 1 (s.get (rFQ_BIND c q) fFQ_BIND_max_words)
  let l := (s.fq c q).rx.take m
  match l.findIdx? (fun w => w.last) with
  | some i => some (l.take (i + 1))
  | none => if l.length = m then some l else none

/-- The octets of a word that its tag covers. -/
def FqWord.octets (w : FqWord) : List Byte := (leBytes 8 w.data).take w.valid

/-- The frame of a queue's words (R328). -/
def fqFrame (q flow number : Nat) (first : Bool) (ws : List FqWord) : Frame :=
  let last := ws.getLast?.getD ⟨0, 8, false⟩
  let head := [toB q, toB (b2n last.last * 128 + b2n first * 64 + last.valid)] ++ beBytes 2 number
  mkFrame 0 0 0 0 0 0 0 flow 0 (head ++ (ws.dropLast.flatMap (fun w => leBytes 8 w.data)) ++ last.octets)

/-- A frame of queue q, when one is ready and the port is free, is presented at FP10 + c (R328, R332). -/
def State.fqSendOne (s : State) (c q : Nat) : State :=
  if s.rxMode c q != 1 || !s.fqOn c q || !(s.fabSrc (10 + c)).isEmpty then s
  else match s.fqReady c q with
    | none => s
    | some ws =>
      let x := s.fq c q
      let last := (ws.getLast?.map (fun w => w.last)).getD false
      let r := s.fqEcc c
      let s := r.2.setFq c q { x with rx := x.rx.drop ws.length, number := if last then (x.number + 1) % 65536 else x.number, inside := !last }
      if r.1 then (s.inc (rFQ_CNT_TX_REFUSED c)).fqTopUp c q
      else
        let f := fqFrame q (s.get (rFQ_BIND c q) fFQ_BIND_flow_id) x.number (!x.inside) ws
        ((s.present (10 + c) f .warden).fqTopUp c q)

/-! ### The narrow side (R323, R325, R326) -/

/-- The open word is committed, with an end mark or full (R323, R324). -/
def State.fqCommit (s : State) (c q : Nat) (last : Bool) : State :=
  let x := s.fq c q
  let s := s.setFq c q { x with rx := x.rx ++ [⟨leNat x.opened, x.opened.length, last⟩], opened := [] }
  let s := if last && s.rxMode c q = 0 then s.irq (0xB4 + c) 2 else s
  (s.fqSendOne c q).fqTopUp c q

/-- An item produced against a credit (R323, R325); without a credit there is none, and a disabled queue takes none (R331). -/
def State.fqPut (s : State) (c q item : Nat) (last : Bool) : State :=
  let x := s.fq c q
  if !s.fqOn c q || x.credits = 0 then s
  else
    let l := x.opened ++ leBytes (s.fqWidth c q) item
    let s := s.setFq c q { x with opened := l, credits := x.credits - 1 }
    if last || 8 ≤ l.length then s.fqCommit c q last else s.fqTopUp c q

/-- Items that a unit keeps without a credit are produced as credits come (R338). -/
def State.fqDrain : Nat → State → Nat → Nat → State
  | 0, s, _, _ => s
  | k + 1, s, c, q =>
    let x := s.fq c q
    match x.hold with
    | [] => s
    | (i, e) :: rest => if x.credits = 0 then s else State.fqDrain k ((s.setFq c q { x with hold := rest }).fqPut c q i e) c q

/-- Credits topped up, and the unit's kept items produced. -/
def State.fqGrant (s : State) (c q : Nat) : State := (s.fqTopUp c q).fqDrain ((s.fq c q).hold.length + 1) c q

/-- The next ready frame of the cluster, lowest queue first, once the port is free; then credits that the port held back. -/
def State.fqSend (s : State) (c : Nat) : State :=
  let s := (List.range 32).foldl (fun s q => if fqExists q then s.fqSendOne c q else s) s
  if (s.fabSrc (10 + c)).isEmpty then (List.range 32).foldl (fun s q => if s.fqOn c q && s.rxMode c q = 1 then s.fqGrant c q else s) s else s

/-- An item produced by a unit that keeps it while it has no credit. -/
def State.fqProduce (s : State) (c q item : Nat) (last : Bool) : State :=
  let x := s.fq c q
  if x.hold = [] && x.credits != 0 then (s.fqPut c q item last).fqGrant c q
  else s.setFq c q { x with hold := x.hold ++ [(item, last)] }

/-- An item of a transmit queue as its narrow consumer takes it. -/
structure Taken1 where
  item : Nat
  last : Bool
  idle : Bool
deriving DecidableEq, Repr

/-- An item taken from a transmit queue; the idle item from an empty one (R326). The read of a word that is begun takes an armed checker (R332,
R589). -/
def State.fqTake (s : State) (c q : Nat) : Taken1 × State :=
  let x := s.fq c q
  let w := s.fqWidth c q
  match (if s.fqOn c q then x.tx else []) with
  | [] => (⟨(s.reg (rFQ_IDLE c q)).toNat % 2 ^ (8 * w), false, true⟩, s)
  | h :: rest =>
    let l := (h.octets.drop x.txPos).take w
    let ended := h.valid ≤ x.txPos + w
    let s := s.setFq c q { x with tx := if ended then rest else x.tx, txPos := if ended then 0 else x.txPos + w }
    let s := if l.length < w then s.inc (rFQ_CNT_RAGGED c) else s
    let s := if x.txPos = 0 then (s.fqEcc c).2 else s
    (⟨leNat l, h.last && ended, false⟩, s)

/-- A transmit word is waiting. -/
def State.fqHasTx (s : State) (c q : Nat) : Bool := s.fqOn c q && (s.fq c q).tx != []

/-! ### Discards (R331) -/

/-- Words discarded and counted. -/
def State.fqDrop (s : State) (c n : Nat) : State := if n = 0 then s else (s.addCnt (rFQ_CNT_DISCARD_WORDS c) n).irq (0xB4 + c) 3

/-- A flush of a receive queue. Packets whose end goes with it count in the packet number, and what comes after an open word or a word without
end mark goes on within its packet (R328; log entry 100). -/
def State.fqFlushRx (s : State) (c q : Nat) : State :=
  let x := s.fq c q
  let inside := if x.opened != [] then true else match x.rx.getLast? with
    | some w => !w.last
    | none => x.inside
  let n := (x.number + x.packets) % 65536
  ((s.setFq c q { x with rx := [], opened := [], inside := inside, number := n }).fqDrop c x.rx.length).fqGrant c q

def State.fqFlushTx (s : State) (c q : Nat) : State :=
  let x := s.fq c q
  (s.setFq c q { x with tx := [], txPos := 0 }).fqDrop c x.tx.length

/-- A queue whose enable is cleared, or whose block is reset: its words and credits go. -/
def State.fqClear (s : State) (c q : Nat) : State :=
  let x := s.fq c q
  (s.setFq c q { hold := x.hold }).fqDrop c (x.rx.length + x.tx.length)

/-- A block reset of the FQ page (R331). -/
def State.fqBlockReset (s : State) (c : Nat) : State := (List.range 32).foldl (fun s q => s.fqClear c q) s

/-- After a block reset, enabled queues have their credits again (R331, R325). -/
def State.fqRestart (s : State) (c : Nat) : State := (List.range 32).foldl (fun s q => if s.fqOn c q then s.fqGrant c q else s) s

end Sys2Proof.Machine
end

