-- ==== Sys2Proof/Machine/Units.lean ====
section
/-! DEFINITION. What the serial units share (R335 to R340): their queues, enabling, held items, and their outputs at rest. -/
namespace Sys2Proof.Machine

/-- The cluster and queue of a unit's page (R312). -/
def unitQueue (p : Nat) : Option (Nat × Nat) :=
  if 0x80 ≤ p && p ≤ 0x8F then some ((p - 0x80) / 4, (p - 0x80) % 4)
  else if 0x98 ≤ p && p ≤ 0x9F then some ((p - 0x98) / 2, 4 + (p - 0x98) % 2)
  else if 0xA0 ≤ p && p ≤ 0xA7 then some ((p - 0xA0) / 2, 6 + (p - 0xA0) % 2)
  else if 0x90 ≤ p && p ≤ 0x97 then some ((p - 0x90) / 2, 8 + (p - 0x90) % 2)
  else none

/-- The least item width of a unit, octets (R336, R347, R352, R358, R361). -/
def State.unitWidth (s : State) (p : Nat) : Nat :=
  if p ≤ 0x8F then
    (if s.get (rUART_CFG (p - 0x80)) fUART_CFG_data_bits ≤ 8 && !s.flag (rUART_CFG (p - 0x80)) fUART_CFG_addr_mode then 1 else 2)
  else if p ≤ 0x97 then 4
  else if p ≤ 0x9F then
    let n := s.get (rSPI_CFG (p - 0x98)) fSPI_CFG_frame_bits
    if n ≤ 8 then 1 else if n ≤ 16 then 2 else 4
  else 2

/-- Enable may be set on a page: a unit's queue is enabled and wide enough (R336, R361). -/
def State.mayEnable (s : State) (p : Nat) : Bool :=
  match unitQueue p with
  | none => true
  | some (c, q) =>
    let w := s.fqWidth c q
    s.flag (rFQ_QCFG c q) fFQ_QCFG_enable && (if 0x90 ≤ p && p ≤ 0x97 then w = 4 else s.unitWidth p ≤ w)

/-- Complete items a unit keeps: those without a credit and the one held back (R337, R338). -/
def State.unitHeld (s : State) (p : Nat) : Nat :=
  match unitQueue p with
  | none => 0
  | some (c, q) => (s.fq c q).hold.length + b2n (s.unit p).pend.isSome

/-- The item held back goes on, with the end mark when it ends its packet (R337). -/
def State.unitRelease (s : State) (p : Nat) (last : Bool) : State :=
  match (s.unit p).pend, unitQueue p with
  | some i, some (c, q) => (s.setUnit p { s.unit p with pend := none }).fqProduce c q i last
  | _, _ => s

/-- A received item is complete: the one before it goes on and this one is held back. -/
def State.unitItem (s : State) (p i : Nat) : State :=
  let s := s.unitRelease p false
  s.setUnit p { s.unit p with pend := some i }

/-- The fault source of the serial units of a cluster (R340). -/
def State.unitFault (s : State) (p : Nat) : State :=
  match unitQueue p with
  | some (c, _) => s.fault { source := 76 + c, page := p }
  | none => s

/-- The unit stops: its outputs go to their idle states (R339). A unit that owes the bus a STOP has sent it. -/
def State.unitStop (s : State) (p : Nat) (owed : Bool) : State :=
  let u := s.unit p
  let s := if 0xA0 ≤ p && u.bus && owed then s.emit (.i2c (p - 0xA0) 3 0) else s
  s.setUnit p { u with de := false, cs := none, inPacket := false, waiting := false, bus := false, addressed := false, stretch := 0 }

/-- A block reset abandons the unit's work and empties its holding buffer; its queue is not flushed (R31, R339). -/
def State.unitBlockReset (s : State) (p : Nat) : State :=
  match unitQueue p with
  | some (c, q) => (s.setUnit p {}).setFq c q { s.fq c q with hold := [] }
  | none => s

/-! ### CAN controllers as their pages see them (R375, R377) -/

/-- The confinement state: 0 error active, 1 error passive, 2 bus-off, 3 recovering. -/
def State.canState (s : State) (n : Nat) : Nat := s.get (rCANF_ERR n) fCANF_ERR_state

/-- The state of transmit buffer b: 0 free, 1 pending, 2 transmitting, 3 abort requested. -/
def State.canBufState (s : State) (n b : Nat) : Nat := s.get (rCANF_TXB n b) fCANF_TXB_state

/-- The buffer whose frame is on the bus. -/
def State.canOnBus (s : State) (n : Nat) : Option Nat := [0, 1, 2].find? (fun b => 2 ≤ s.canBufState n b)

/-- A block reset clears the buffers and the FIFO and takes the controller off the bus until it is enabled or integrates again (R377). -/
def State.canBlockReset (s : State) (n : Nat) : State :=
  let c := n / 2
  let q := 8 + n % 2
  (s.setCan n {}).setFq c q { s.fq c q with hold := [] }

/-- enable = 0: a frame in progress finishes first, then the controller takes no further part (R377). -/
def State.canLeave (s : State) (n : Nat) : State :=
  if (s.canOnBus n).isSome then s else s.setCan n { s.can n with joined := false }

/-- enable = 1: the controller waits for 11 recessive bits, unless it is bus-off or recovering (R377). -/
def State.canJoin (s : State) (n : Nat) : State := s.setCan n { s.can n with joined := false }

/-- A page's enable is cleared by a write (R339, R377). -/
def State.onDisable (s : State) (p : Nat) : State :=
  if (0x80 ≤ p && p ≤ 0x8F) || (0x98 ≤ p && p ≤ 0xA7) then s.unitStop p true
  else if 0x90 ≤ p && p ≤ 0x97 then s.canLeave (p - 0x90)
  else s

/-- A page's enable is set by a write (R377). -/
def State.onEnable (s : State) (p : Nat) : State :=
  if 0x90 ≤ p && p ≤ 0x97 then s.canJoin (p - 0x90)
  else if 0x70 ≤ p && p ≤ 0x74 then s.setMac (p - 0x70) { s.mac (p - 0x70) with number := 0 }
  else s

end Sys2Proof.Machine
end

