-- ==== Sys2Proof/Machine/Clove.lean ====
section
/-! DEFINITION. Clove channels (R381 to R415): turns, instructions, pins, small queues, bank swaps. `cloveTurn` is one turn of a channel as
R386 to R404 give it; `cloveRun` is the whole of an instruction, its turns and delay taken at once. -/
namespace Sys2Proof.Machine

/-! ### Registers of a channel -/

def State.clvSo (s : State) (e k : Nat) : Word := s.reg (rCLOV_CH_SO e k)
def State.clvSi (s : State) (e k : Nat) : Word := s.reg (rCLOV_CH_SI e k)
def State.clvCounter (s : State) (e k : Nat) : Nat := s.get (rCLOV_CH_COUNTER e k) fCLOV_CH_COUNTER_counter
def State.clvScratch0 (s : State) (e k : Nat) : Nat := s.get (rCLOV_CH_SCRATCH e k) fCLOV_CH_SCRATCH_scratch0
def State.clvScratch1 (s : State) (e k : Nat) : Nat := s.get (rCLOV_CH_SCRATCH e k) fCLOV_CH_SCRATCH_scratch1
def State.setClvSo (s : State) (e k : Nat) (w : Word) : State := s.setReg (rCLOV_CH_SO e k) w
def State.setClvSi (s : State) (e k : Nat) (w : Word) : State := s.setReg (rCLOV_CH_SI e k) w
def State.setClvCounter (s : State) (e k n : Nat) : State := s.put (rCLOV_CH_COUNTER e k) fCLOV_CH_COUNTER_counter n
def State.setClvScratch0 (s : State) (e k n : Nat) : State := s.put (rCLOV_CH_SCRATCH e k) fCLOV_CH_SCRATCH_scratch0 n
def State.setClvScratch1 (s : State) (e k n : Nat) : State := s.put (rCLOV_CH_SCRATCH e k) fCLOV_CH_SCRATCH_scratch1 n

/-- The rotation of an engine (R381). -/
def State.rotation (s : State) (e : Nat) : Nat := 2 ^ s.get (rCLOV_CFG e) fCLOV_CFG_rotation

/-- The join code of the group of channel k; 3 acts as 0 (R406). -/
def State.joinOf (s : State) (e k : Nat) : Nat :=
  let j := natBits (s.reg (rCLOV_CFG e)).toNat (17 + 2 * (k / 4)) (16 + 2 * (k / 4))
  if j = 3 then 0 else j

/-- The channel is given up in a join (R406). -/
def State.givenUp (s : State) (e k : Nat) : Bool :=
  let j := s.joinOf e k
  (j = 1 && k % 2 = 1) || (j = 2 && k % 4 != 0)

/-- Items in each small queue of the channel (R405, R406). -/
def State.smallDepth (s : State) (e k : Nat) : Nat := 4 * 2 ^ s.joinOf e k

/-- Every channel of the engine is idle (R382). -/
def State.cloveIdle (s : State) (e : Nat) : Bool := (List.range 16).all (fun k => (s.clv e k).state = 0)

/-! ### Faults -/

/-- The engine's fault source (R414). -/
def State.cloveFault (s : State) (e : Nat) : State := s.fault { source := 84 + e, page := 0xA8 + e }

/-- A program word as it is read: none where it is uncorrectable (R414, R589); a correctable error is corrected in place. -/
def State.progRead (s : State) (e bank a : Nat) : Option Word × State :=
  match s.armed (0xA8 + e) 0 with
  | none => (some (s.prog e bank a), s)
  | some false => (some (s.prog e bank a), s.disarm (0xA8 + e))
  | some true => (none, (s.disarm (0xA8 + e)).raiseInj (84 + e) (0xA8 + e))

/-! ### Pins (R384) -/

/-- The cluster pin of a pin offset. -/
def State.clvPin (s : State) (e k off : Nat) : Nat := s.get (rCLOV_CH_CFG e k) fCLOV_CH_CFG_pin_base + off
def State.clvCount (s : State) (e k : Nat) : Nat := s.get (rCLOV_CH_CFG e k) fCLOV_CH_CFG_pin_count

/-- What a channel reads at a pin offset: 0 beyond pin 31 and in function none. -/
def State.clvLevel (s : State) (e k off : Nat) : Bool :=
  let p := s.clvPin e k off
  p ≤ 31 && s.pinLevel e p

/-- A pin offset is driven or released; the level is kept, and reaches the ball only within the range and in function 0x02. -/
def State.clvDrive (s : State) (e k off : Nat) (v : Option Bool) : State :=
  let x := s.clv e k
  let s := s.setClv e k { x with pins := setNth x.pins off v }
  if off < s.clvCount e k && s.pinFn e (s.clvPin e k off) = 2 then s.emit (.clove e (s.clvPin e k off) v) else s

/-- Every pin of the range released. -/
def State.clvRelease (s : State) (e k : Nat) : State :=
  (List.range (s.clvCount e k)).foldl (fun s off => s.clvDrive e k off none) s

/-- The pin actions of an instruction; the data pin of a SHOUT takes none (R386, R394). -/
def State.clvActions (s : State) (e k : Nat) (w : Word) : State :=
  [0, 1, 2, 3].foldl (fun (s : State) off =>
    let a := natBits w.toNat (20 + 2 * off) (19 + 2 * off)
    if natBits w.toNat 31 27 = 4 && natBits w.toNat 6 5 = off then s
    else if a = 1 then s.clvDrive e k off (some false)
    else if a = 2 then s.clvDrive e k off (some true)
    else if a = 3 then s.clvDrive e k off none
    else s) s

/-- The channel's pin range overlaps that of a channel that is not idle (R384). -/
def State.clvOverlap (s : State) (e k : Nat) : Bool :=
  let a := s.clvPin e k 0
  let n := s.clvCount e k
  (List.range 16).any fun j =>
    let b := s.clvPin e j 0
    let m := s.clvCount e j
    j != k && (s.clv e j).state != 0 && a < b + m && b < a + n && n != 0 && m != 0

/-! ### Small queues (R405) -/

/-- The transmit small queue refilled from the field queue, while a committed word holds items. -/
def State.clvRefill : Nat → State → Nat → Nat → State
  | 0, s, _, _ => s
  | n + 1, s, e, k =>
    let x := s.clv e k
    if s.givenUp e k || !s.enabled (0xA8 + e) || s.smallDepth e k ≤ x.txq.length || !s.fqHasTx e (16 + k) then s
    else
      let r := s.fqTake e (16 + k)
      State.clvRefill n (r.2.setClv e k { r.2.clv e k with txq := x.txq ++ [(r.1.item, r.1.last)] }) e k

/-- The small queues of the channel of field queue q, after words came into it. -/
def State.fqFed (s : State) (c q : Nat) : State := if 16 ≤ q then s.clvRefill 16 c (q - 16) else s

/-- The receive small queue has room. -/
def State.clvRoom (s : State) (e k : Nat) : Bool := (s.fq e (16 + k)).hold.length < s.smallDepth e k

/-- Both small queues emptied. -/
def State.clvEmpty (s : State) (e k : Nat) : State :=
  (s.setClv e k { s.clv e k with txq := [] }).setFq e (16 + k) { s.fq e (16 + k) with hold := [] }

/-! ### Banks (R412) -/

def State.engineBank (s : State) (e : Nat) : Nat := s.get (rCLOV_BANK e) fCLOV_BANK_bank
def State.swapPending (s : State) (e : Nat) : Bool := s.flag (rCLOV_BANK e) fCLOV_BANK_swap_pending

/-- The entry of the engine's bank. -/
def State.clvEntry (s : State) (e k : Nat) : Nat :=
  s.get (rCLOV_CH_ENTRY e k) (if s.engineBank e = 0 then fCLOV_CH_ENTRY_entry_a else fCLOV_CH_ENTRY_entry_b)

/-- A pending swap ends when every channel is in the new bank. -/
def State.cloveSwapCheck (s : State) (e : Nat) : State :=
  if s.swapPending e && (List.range 16).all (fun k => (s.clv e k).bank = s.engineBank e) then
    (s.put (rCLOV_BANK e) fCLOV_BANK_swap_pending 0).irq (0xA8 + e) 5
  else s

/-- A channel becomes idle with a stop cause; its latched instruction is abandoned, and a pending swap moves it (R393, R409, R412). -/
def State.clvStop (s : State) (e k cause : Nat) : State :=
  (s.setClv e k { s.clv e k with state := 0, cause := cause, instr := none, turn := 0, delay := 0, left := 0, edges := 0, moves := false,
                                 bank := s.engineBank e }).cloveSwapCheck e

/-- An instruction that is not executed (R389, R414). -/
def State.clvError (s : State) (e k : Nat) (raised : Bool) : State :=
  let s := ((s.clvStop e k 3).inc (rCLOV_CNT_ERROR e)).irq (0xA8 + e) 4
  if raised then s else s.cloveFault e

/-- The latched instruction is done, delay included: the next turn executes at pc, or at the entry of the new bank where the swap found the
channel stalled (R386, R412). -/
def State.clvNext (s : State) (e k : Nat) : State :=
  let x := s.clv e k
  let pc := if x.moves then s.clvEntry e k else x.pc
  let bank := if x.moves then s.engineBank e else x.bank
  (s.setClv e k { x with state := 1, instr := none, turn := 0, delay := 0, left := 0, edges := 0, moves := false, pc := pc, bank := bank }).cloveSwapCheck e

/-! ### Shifts (R394, R395) -/

/-- SHOUT sends one bit of SO on its data pin. -/
def State.clvOut (s : State) (e k : Nat) (w : Word) : State :=
  let so := s.clvSo e k
  let lsb := bitOf w 7
  let b := bitOf so (if lsb then 0 else 31)
  (s.setClvSo e k (if lsb then so >>> 1 else so <<< 1)).clvDrive e k (natBits w.toNat 6 5) (some b)

/-- SHIN takes one bit into SI. -/
def State.clvIn (s : State) (e k : Nat) (w : Word) (b : Bool) : State :=
  let si := s.clvSi e k
  s.setClvSi e k (if bitOf w 7 then si >>> 1 ||| toW (b2n b * 2 ^ 31) else si <<< 1 ||| toW (b2n b))

/-- One bit of a shift; `b` is the level that a SHIN samples. -/
def State.clvBit (s : State) (e k : Nat) (w : Word) (b : Bool) : State :=
  if natBits w.toNat 31 27 = 4 then s.clvOut e k w else s.clvIn e k w b

/-- An edge of a channel's latch is used and the others are counted (R388). -/
def State.clvUseEdge (s : State) (e k : Nat) : State :=
  let x := s.clv e k
  (s.setClv e k { x with edges := 0 }).addCnt (rCLOV_CNT_EDGE_LOST e) (x.edges - 1)

/-- A waiting clocked shift recognises an edge: true when it was the n-th. -/
def State.clvClock (s : State) (e k : Nat) (w : Word) : Bool × State :=
  let s := s.clvUseEdge e k
  let x := s.clv e k
  let s := s.setClv e k { x with left := x.left - 1 }
  let shout := natBits w.toNat 31 27 = 4
  if x.left ≤ 1 then (true, if shout then s else s.clvIn e k w (s.clvLevel e k (natBits w.toNat 6 5)))
  else (false, s.clvBit e k w (s.clvLevel e k (natBits w.toNat 6 5)))

/-! ### Instructions (R390 to R404) -/

/-- COUNT (R391). -/
def State.clvCountdown (s : State) (e k reg : Nat) : Bool × State :=
  if reg = 1 then (true, s.setClvScratch0 e k ((s.clvScratch0 e k + 65535) % 65536))
  else if reg = 2 then (true, s.setClvScratch1 e k ((s.clvScratch1 e k + 65535) % 65536))
  else
    let n := (s.clvCounter e k + 65535) % 65536
    (reg = 3 || n != 0, s.setClvCounter e k n)

/-- EXCH (R396). -/
def State.clvExch (s : State) (e k op : Nat) : State :=
  let so := s.clvSo e k
  let si := s.clvSi e k
  let c := s.clvCounter e k
  if op = 0 then (s.setClvSo e k si).setClvSi e k so
  else if op = 1 then s.setClvSo e k si
  else if op = 2 then s.setClvSi e k 0
  else if op = 3 then (s.setClvCounter e k (s.clvScratch0 e k)).setClvScratch0 e k c
  else if op = 4 then (s.setClvCounter e k (s.clvScratch1 e k)).setClvScratch1 e k c
  else if op = 5 then s.setClvScratch0 e k (si.toNat % 65536)
  else if op = 6 then s.setClvScratch1 e k (si.toNat % 65536)
  else s.setClvSo e k 0

/-- LOADC (R397). -/
def State.clvLoad (s : State) (e k dest value : Nat) : State :=
  if dest = 0 then s.setClvCounter e k value
  else if dest = 1 then s.setClvScratch0 e k value
  else if dest = 2 then s.setClvScratch1 e k value
  else s.setClvCounter e k (s.clvScratch0 e k)

/-- The condition of a TEST (R398). -/
def State.clvTest (s : State) (e k cond md : Nat) : Bool :=
  let x := s.clv e k
  if cond = 0 then s.clvLevel e k md
  else if cond = 1 then !s.clvLevel e k md
  else
    let r := if cond = 2 then x.txq != []
      else if cond = 3 then s.clvRoom e k
      else if cond = 4 then s.clvCounter e k = 0
      else if cond = 5 then x.matched
      else if cond = 6 then (if md % 2 = 0 then x.idle else x.ended)
      else x.timeout
    r != (2 ≤ md : Bool)

/-- TAKE (R399). -/
def State.clvTake (s : State) (e k dest : Nat) : State :=
  let x := s.clv e k
  let it := match x.txq with
    | [] => ((s.reg (rFQ_IDLE e (16 + k))).toNat % 2 ^ (8 * s.fqWidth e (16 + k)), false)
    | i :: _ => i
  let s := s.setClv e k { x with txq := x.txq.drop 1, idle := x.txq = [], ended := it.2 }
  let s := if dest = 0 then s.setClvSo e k (toW it.1)
    else if dest = 1 then s.setClvCounter e k it.1
    else if dest = 2 then s.setClvScratch0 e k it.1
    else s.setClvScratch1 e k it.1
  s.clvRefill 16 e k

/-- GIVE, once there is room (R400). -/
def State.clvGive (s : State) (e k : Nat) (w : Word) : State :=
  let src := natBits w.toNat 1 0
  let v := if src = 0 then (s.clvSi e k).toNat else if src = 1 then (s.clvSo e k).toNat
    else if src = 2 then s.clvCounter e k else (s.reg (rCLOV_CH_SCRATCH e k)).toNat
  let s := s.fqProduce e (16 + k) (v / 2 ^ natBits w.toNat 7 3 % 2 ^ (8 * s.fqWidth e (16 + k))) (bitOf w 2)
  if !bitOf w 8 then s
  else if src = 0 then s.setClvSi e k 0
  else if src = 1 then s.setClvSo e k 0
  else if src = 2 then s.setClvCounter e k 0
  else s.setReg (rCLOV_CH_SCRATCH e k) 0

/-- MATCH (R401). -/
def State.clvMatch (s : State) (e k mode : Nat) : Bool :=
  let si := (s.clvSi e k).toNat % 65536
  if mode = 0 then si &&& s.clvScratch1 e k = s.clvScratch0 e k
  else if mode = 1 then s.clvScratch0 e k ≤ s.clvCounter e k
  else if mode = 2 then s.clvScratch1 e k ≤ s.clvCounter e k
  else si = s.clvScratch0 e k

def State.clvTimeout (s : State) (e k : Nat) (b : Bool) : State := s.setClv e k { s.clv e k with timeout := b }
def State.clvStalled (s : State) (e k : Nat) : State := s.setClv e k { s.clv e k with state := 2 }

/-- One own turn of the latched instruction, turn t from 0. The answer is the address to go on at once its own turns are done; none while they
are not, or where the channel has become idle. `smp` holds the levels that the samples of a timed SHIN met (log entry 8). -/
def State.clvOwn (s : State) (e k : Nat) (w : Word) (t : Nat) (smp : List Bool) : Option Nat × State :=
  let op := natBits w.toNat 31 27
  let arg := w.toNat % 4096
  let x := s.clv e k
  let next := (x.pc + 1) % 1024
  let target := arg % 1024
  if op = 0x00 then (some target, s)
  else if op = 0x01 then
    let r := s.clvCountdown e k (arg / 1024)
    (some (if r.1 then target else next), r.2)
  else if op = 0x02 then (if max 1 arg ≤ t + 1 then some next else none, s)
  else if op = 0x03 then
    let s := if bitOf w 0 then s.clvRelease e k else s
    (none, (s.clvStop e k 1).irq (0xA8 + e) 3)
  else if op = 0x04 || op = 0x05 then
    let n := natBits w.toNat 4 0 + 1
    let pin := natBits w.toNat 6 5
    if bitOf w 11 then
      if t = 0 then
        let s := if op = 0x04 then s.clvOut e k w else s
        (none, s.setClv e k { s.clv e k with left := n, edges := 0, state := 2 })
      else if x.edges = 0 then (none, s)
      else
        let r := s.clvClock e k w
        (if r.1 then some next else none, r.2)
    else
      let h := natBits w.toNat 10 8 + 1
      let s := if t % h = 0 then s.clvBit e k w (nthD smp (t / h) (s.clvLevel e k pin)) else s
      (if n * h ≤ t + 1 then some next else none, s)
  else if op = 0x06 then (some next, s.clvExch e k (arg % 8))
  else if op = 0x07 then (some next, s.clvLoad e k (arg / 1024) (arg % 1024))
  else if 0x08 ≤ op && op ≤ 0x0F then (some (if s.clvTest e k (op - 8) (arg / 1024) then target else next), s)
  else if op = 0x10 then (some next, s.clvTake e k (arg % 4))
  else if op = 0x11 then
    if s.clvRoom e k then (some next, s.clvGive e k w) else (none, s.clvStalled e k)
  else if op = 0x12 then (some next, s.setClv e k { x with matched := s.clvMatch e k (arg % 4) })
  else if op = 0x13 then
    let toEn := bitOf w 4
    let n := s.clvCounter e k
    if t = 0 then
      if toEn && n = 0 then (some next, s.clvTimeout e k true)
      else (none, (s.clvStalled e k).setClv e k { (s.clvStalled e k).clv e k with edges := 0 })
    else if x.edges != 0 then (some next, (s.clvUseEdge e k).clvTimeout e k false)
    else if toEn then
      let s := s.setClvCounter e k (n - 1)
      if n ≤ 1 then (some next, s.clvTimeout e k true) else (none, s)
    else (none, s)
  else if op = 0x14 then
    let ev := arg % 16
    let s := s.setReg (rCLOV_EVENT e) (s.reg (rCLOV_EVENT e) ||| toW (2 ^ ev))
    (some next, if bitOf (s.reg (rCLOV_EVENT_EN e)) ev then s.irq (0xA8 + e) 2 else s)
  else
    if s.swapPending e && x.bank != s.engineBank e then
      (some target, (s.setClv e k { x with bank := s.engineBank e, moves := false }).cloveSwapCheck e)
    else (some next, s)

/-- After an own turn: the instruction goes on, or takes its delay, or is done. -/
def State.clvAfter (s : State) (e k : Nat) (w : Word) (r : Option Nat) (fast : Bool) : State :=
  let x := s.clv e k
  match r with
  | none => if x.state = 0 then s else s.setClv e k { x with turn := x.turn + 1 }
  | some pc =>
    let d := natBits w.toNat 18 12
    let s := s.setClv e k { x with pc := pc, delay := d, state := 1, turn := x.turn + 1 }
    if fast || d = 0 then s.clvNext e k else s

/-- The opcode is one of R389's table. -/
def clvDefined (w : Word) : Bool := natBits w.toNat 31 27 ≤ 0x15

/-- The first turn of the instruction at pc: its pin actions and its first own turn; or the error of R389. -/
def State.clvFirst (s : State) (e k : Nat) (smp : List Bool) (fast : Bool) : State :=
  let x := s.clv e k
  match s.progRead e x.bank x.pc with
  | (none, s) => s.clvError e k true
  | (some w, s) =>
    if !clvDefined w then s.clvError e k false
    else
      let s := (s.setClv e k { x with instr := some w, turn := 0, delay := 0 }).clvActions e k w
      let r := s.clvOwn e k w 0 smp
      r.2.clvAfter e k w r.1 fast

/-- One turn of a channel (R386). -/
def State.clvTurn (s : State) (e k : Nat) (smp : List Bool) (fast : Bool) : State :=
  let x := s.clv e k
  if x.state = 0 then s
  else match x.instr with
    | none => s.clvFirst e k smp fast
    | some w =>
      if x.delay != 0 then
        let s := s.setClv e k { x with delay := x.delay - 1 }
        if x.delay ≤ 1 then s.clvNext e k else s
      else
        let r := s.clvOwn e k w x.turn smp
        r.2.clvAfter e k w r.1 fast

/-- The turns that a running latched instruction still takes, all at once, until it is done or stalls. -/
def State.clvFinish : Nat → State → Nat → Nat → List Bool → State
  | 0, s, _, _, _ => s
  | n + 1, s, e, k, smp =>
    let x := s.clv e k
    if x.state != 1 || x.instr = none then s else State.clvFinish n (s.clvTurn e k smp true) e k smp

/-- A latched PAUSE is taken to its last turn. -/
def State.clvSkip (s : State) (e k : Nat) : State :=
  let x := s.clv e k
  match x.instr with
  | some w => if natBits w.toNat 31 27 = 2 && x.delay = 0 then s.setClv e k { x with turn := max x.turn (w.toNat % 4096 - 1) } else s
  | none => s

/-- The turns that are left: at most 256 of a shift, or the delay. -/
def State.clvSettle (s : State) (e k : Nat) (smp : List Bool) : State := State.clvFinish 260 (s.clvSkip e k) e k smp

/-- The channel takes turns of its own: it is enabled, its island is not gated, and it is not in step mode. -/
def State.clvLive (s : State) (e : Nat) : Bool := s.enabled (0xA8 + e) && s.fieldRuns && !s.flag (rCLOV_EXP e) fCLOV_EXP_step_mode

/-- The opcode at the channel's pc. -/
def State.clvOpcode (s : State) (e k : Nat) : Nat := natBits (s.prog e (s.clv e k).bank (s.clv e k).pc).toNat 31 27

/-- A running channel executes the instruction at its pc, when that is one of the opcodes lo to hi, to its end or until it stalls. What a
left step mode has left of an earlier instruction is taken first. -/
def State.clvRun (s : State) (e k lo hi : Nat) (smp : List Bool) : State :=
  if !s.clvLive e then s
  else
    let s := s.clvSettle e k []
    let x := s.clv e k
    if x.state != 1 || s.clvOpcode e k < lo || hi < s.clvOpcode e k then s
    else (s.clvTurn e k smp true).clvSettle e k smp

/-! ### Edges (R388) -/

/-- The pin and edge kind that a stalled channel waits for: 1 rising, 2 falling, 3 either. -/
def State.clvAwaits (s : State) (e k : Nat) : Option (Nat × Nat) :=
  let x := s.clv e k
  match (if x.state = 2 then x.instr else none) with
  | none => none
  | some w =>
    let op := natBits w.toNat 31 27
    if op = 0x13 then
      let kind := natBits w.toNat 3 2
      some (s.clvPin e k (natBits w.toNat 1 0), if kind = 0 then 3 else kind)
    else if op = 0x04 || op = 0x05 then some (s.clvPin e k (natBits w.toNat 9 8), if bitOf w 10 then 2 else 1)
    else none

/-- An edge at pin p of the cluster is noted for every channel that waits for it. A clocked shift that has more edges to come takes it at its
next turn, at once; in step mode turns come only by CLOV_STEP. -/
def State.clvEdge (s : State) (c p : Nat) (rising : Bool) : State :=
  (List.range 16).foldl (fun (s : State) k =>
    match s.clvAwaits c k with
    | none => s
    | some (pin, kind) =>
      if pin = p && (kind = 3 || (kind = 1 && rising) || (kind = 2 && !rising)) then
        let x := s.clv c k
        let s := s.setClv c k { x with edges := x.edges + 1 }
        if 1 < x.left && s.clvLive c then s.clvTurn c k [] true else s
      else s) s

/-- The edges between two settings of a cluster's pins. -/
def State.clvPins (s : State) (c : Nat) (before : Word) : State :=
  if s.cloveIdle c then s
  else
    let now := s.gpioIn c
    (List.range 32).foldl (fun s p => if bitOf before p != bitOf now p then s.clvEdge c p (bitOf now p) else s) s

/-- A level that has changed at a pin: the channels that wait for it take its edge while their island runs, and an enabled edge is recorded
(R320, R321). -/
def State.pinSeen (s : State) (c p : Nat) (now : Bool) : State :=
  let s := if s.fieldRuns then s.clvEdge c p now else s
  let en := if now then rPMUX_GPIO_RISE_EN c else rPMUX_GPIO_FALL_EN c
  if !bitOf (s.reg en) p || !s.enabled (0xB0 + c) then s
  else
    let e := s.reg (rPMUX_GPIO_EDGE c)
    let s := s.setReg (rPMUX_GPIO_EDGE c) (e ||| toW (2 ^ p))
    if bitOf e p then s else s.irq (0xB0 + c) 2

/-- What follows where the cluster's GPIO pins may have come to drive other levels: each pin that shows another level than before has an edge. -/
def State.pinsSeen (s : State) (c : Nat) (before : Word) : State :=
  let now := s.gpioIn c
  if now = before then s
  else (List.range 32).foldl (fun s p => if bitOf before p != bitOf now p then s.pinSeen c p (bitOf now p) else s) s

/-- A stalled channel with one of the given opcodes takes its next turn, and what follows at once. -/
def State.clvResume (s : State) (e k : Nat) : State := (s.clvTurn e k [] true).clvSettle e k []

/-- The opcode that a stalled channel has latched. -/
def State.clvWaits (s : State) (e k : Nat) : Option Nat :=
  let x := s.clv e k
  if x.state = 2 then x.instr.map (fun w => natBits w.toNat 31 27) else none

/-! ### Start, stop, block reset (R409, R413) -/

/-- A start of channel k, or its refusal. -/
def State.clvStart (s : State) (e k : Nat) : State :=
  let x := s.clv e k
  if x.state != 0 || s.rotation e ≤ k || s.givenUp e k || s.clvOverlap e k then s.warn (0xA8 + e)
  else
    let y : ClovCh := { state := 1, pc := s.clvEntry e k, bank := s.engineBank e, pins := x.pins }
    ((s.setClv e k y).clvEmpty e k).clvRefill 16 e k

/-- A block reset of a CLOV page: every channel is in the new bank (R413). -/
def State.cloveBlockReset (s : State) (e : Nat) : State :=
  (List.range 16).foldl (fun s k =>
    let s := [0, 1, 2, 3].foldl (fun (s : State) off => if (nthD (s.clv e k).pins off none).isSome then s.clvDrive e k off none else s) s
    (s.setClv e k { cause := 2, bank := s.engineBank e }).clvEmpty e k) s

end Sys2Proof.Machine
end

