-- ==== Sys2Proof/Machine/Mac.lean ====
section
/-! DEFINITION. The Ethernet MACs (R416 to R432) as other blocks reach them: counters, the line, refusals at ingress, tunnelled event
messages, wake patterns. MAC 0 is the management MAC, MAC 1 + c is T1S MAC c. -/
namespace Sys2Proof.Machine

/-- The fault source of a MAC (R431). -/
def State.macFault (s : State) (m : Nat) : State := s.fault { source := if m = 0 then 112 else 87 + m, page := 0x70 + m }

/-- Bit 31 of counter i has changed (R428). -/
def State.macHalf (s : State) (m i : Nat) : State :=
  let a := if i < 32 then rxx_CNT_HALF m else rxx_CNT_HALF_HI m
  (s.setReg a (s.reg a ||| toW (2 ^ (i % 32)))).irq (0x70 + m) 2

/-- Counter i of a MAC adds n (R427, R428). -/
def State.macCnt (s : State) (m i n : Nat) : State :=
  let was := bitOf (s.reg (rxx_CNT m i)) 31
  let s := s.addCnt (rxx_CNT m i) n
  if bitOf (s.reg (rxx_CNT m i)) 31 = was then s else s.macHalf m i

/-- A frame or segment discarded on its way out (R422, R423): counted, irq 5, the fault source. -/
def State.macTxDrop (s : State) (m : Nat) : State := ((s.macCnt m 34 1).irq (0x70 + m) 5).macFault m

/-- The CRC-32 of IEEE 802.3 over octets. -/
def fcsStep (c : Word) (b : Byte) : Word :=
  (List.range 8).foldl (fun (c : Word) _ => if bitOf c 0 then (c >>> 1) ^^^ 0xEDB88320 else c >>> 1) (c ^^^ toW b.toNat)
def fcs (bs : List Byte) : Word := bs.foldl fcsStep 0xFFFFFFFF ^^^ 0xFFFFFFFF

/-- The octets of a frame on the line: padded with zeros to 60 and the FCS added, or as they are when the FCS is given (R423). -/
def lineOctets (given : Bool) (l : List Byte) : List Byte :=
  if given then l
  else
    let p := l ++ List.replicate (60 - l.length) 0
    p ++ leBytes 4 (fcs p).toNat

/-- A frame sent with success: its counters, and the line (R423, R427). -/
def State.macLine (s : State) (m : Nat) (l : List Byte) : State :=
  let o := lineOctets (s.flag (rxx_EXP m) fxx_EXP_tx_fcs_given) l
  let n := o.length
  let s := (s.macCnt m 20 1).macCnt m 21 n
  let s := if (o.take 6).all (· = 0xFF) then s.macCnt m 24 1 else if (nthD o 0 0).toNat % 2 = 1 then s.macCnt m 23 1 else s.macCnt m 22 1
  let s := if n < 128 then s.macCnt m 25 1 else if n < 512 then s.macCnt m 26 1 else s.macCnt m 27 1
  s.emit (.mac m o)

/-- A segment that ingress refuses: its frame counts once in rx_no_flow, with its first segment (R420). -/
def State.macRefused (s : State) (f : Frame) : State :=
  let m := (nthD f.payload 0 0).toNat
  if f.kind = 0 && m ≤ 4 && (nthD f.payload 1 0).toNat.testBit 7 then (s.macCnt m 19 1).irq (0x70 + m) 4 else s

/-- A block reset of a MAC's page: what it held is gone (R31). -/
def State.macBlockReset (s : State) (m : Nat) : State := s.setMac m {}

/-! ### Wake patterns (R429) -/

/-- The octets of a frame that pattern w selects, in frame order; none where the frame is too short. -/
def State.wakeOctets (s : State) (m w : Nat) (l : List Byte) : Option (List Byte) :=
  let sel := (List.range 128).filter (fun j => bitOf (s.reg (rxx_WAKE_MASK m w (j / 32))) (j % 32))
  if sel.all (fun j => j < l.length) then some (sel.map (fun j => nthD l j 0)) else none

/-- The enabled patterns that a frame with a good FCS matches. -/
def State.wakeHits (s : State) (m : Nat) (l : List Byte) : List Nat :=
  (List.range 8).filter (fun w => bitOf (s.reg (rxx_WAKE_CFG m)) w &&
    (match s.wakeOctets m w l with
      | some o => (crc16 o).toNat = s.get (rxx_WAKE_CHECK m w) fxx_WAKE_CHECK_check
      | none => false))

/-- Patterns matched. -/
def State.wakeMatch (s : State) (m : Nat) (hits : List Nat) : State :=
  if hits = [] then s
  else
    let s := s.setReg (rxx_WAKE_STATUS m) (hits.foldl (fun w h => w ||| toW (2 ^ h)) (s.reg (rxx_WAKE_STATUS m)))
    (s.macCnt m 37 1).irq (0x70 + m) 7

/-! ### Tunnelled event messages (R234) -/

/-- Where an IEEE 1588 message starts in a frame, where the tunnel takes it: layer 2 with l2_en, UDP over IPv4 to port 319 with udp_en. -/
def State.tunnelAt (s : State) (l : List Byte) : Option Nat :=
  let type := beNat (slice l 12 2)
  let ip := (nthD l 14 0).toNat % 16 * 4
  if type = 0x88F7 && bitOf (s.reg rTSU_TUNNEL) 2 then some 14
  else if type = 0x0800 && nthD l 23 0 = 17 && beNat (slice l (14 + ip + 2) 2) = 319 && bitOf (s.reg rTSU_TUNNEL) 3 then some (14 + ip + 8)
  else none

/-- An event message that the management MAC has received, without its FCS, goes to every valid peer; `island` is its receive stamp. -/
def State.tunnelOut (s : State) (l : List Byte) (island : Nat) : State :=
  if !bitOf (s.reg rTSU_TUNNEL) 0 || !s.enabled 0x44 then s
  else match s.tunnelAt l with
    | none => s
    | some at_ =>
      if 3 < (nthD l at_ 0).toNat % 16 then s
      else if 460 < l.length then s.inc rTSU_CNT_TUNNEL_LONG
      else
        let two := b2n (bitOf (s.reg rTSU_TUNNEL) 1)
        let body := [3, 1, toB two, 0] ++ beBytes 8 island ++ List.replicate 10 0 ++ beBytes 2 l.length ++ l
        (List.range 8).foldl (fun (s : State) n =>
          let w := s.reg (rTSU_PEER n)
          match (if bitOf w 0 then s.nodeId 0 else none) with
          | none => s
          | some me =>
            let f := mkFrame 7 1 0 0 0 (natBits w.toNat 31 14) me 0xF4F1 s.servo.seq1 body
            ({ s with servo := { s.servo with seq1 := (s.servo.seq1 + 1) % 65536 } }).present 14 f) s

end Sys2Proof.Machine
end

