-- ==== Sys2Proof/Machine/Pd.lean ====
section
/-! DEFINITION. The power die (R470 to R497): its registers and the hub's mirror of them, its events and pending fault sources, the hot-swap
sequencer, the discrete outputs, ERR_N, and the wake sources of R534. -/
namespace Sys2Proof.Machine

/-! ### Registers and the mirror (R8, R47, R486) -/

/-- The die link is up. -/
def State.pdUp (s : State) : Bool := s.flag rPD_LINK_STATUS fPD_LINK_STATUS_up

/-- Held on the hub die (R498). -/
def pdHubHeld (a : Nat) : Bool := a = rPD_LINK_STATUS || a = rPD_CNT_DISAGREE || a = rPD_CNT_LINK_LOSS

/-- A register that the hub mirrors: those of the PD pages beyond the header, and FLT_ERRN (R47, R498, R510). -/
def pdMirrored (a : Nat) : Bool :=
  a = rFLT_ERRN || (0xF0 ≤ a / 0x1000 && a / 0x1000 ≤ 0xF7 && 0x040 ≤ a % 0x1000 && !pdHubHeld a)

/-- A register of the power die. -/
def State.pdReg (s : State) (a : Nat) : Word := spGet resetWord s.pd.regs a
def State.pdGet (s : State) (a : Nat) (f : Fld) : Nat := fldOf (s.pdReg a) f
def State.pdFlag (s : State) (a : Nat) (f : Fld) : Bool := s.pdGet a f != 0

/-- The power die sets a register; the change is pushed to the mirror while the link is up (R486). -/
def State.pdSet (s : State) (a : Nat) (v : Word) : State :=
  let s := { s with pd := { s.pd with regs := spSet resetWord s.pd.regs a v } }
  if s.pdUp then s.setReg a v else s
def State.pdPut (s : State) (a : Nat) (f : Fld) (n : Nat) : State := s.pdSet a (fldPut (s.pdReg a) f n)
def State.pdInc (s : State) (a : Nat) : State := s.pdSet a (s.pdReg a + 1)
def State.pdOr (s : State) (a n : Nat) : State := s.pdSet a (s.pdReg a ||| toW n)

/-- The whole mirror takes the power die's values (R488). -/
def State.pdRefresh (s : State) : State :=
  s.pd.regs.foldl (fun (s : State) e => if pdMirrored e.1 then s.setReg e.1 e.2 else s) { s with regs := spDrop pdMirrored s.regs }

/-- An interrupt of a PD page, which the hub sees while the link is up. -/
def State.pdIrq (s : State) (p n : Nat) : State := if s.pdUp then s.irq p n else s

/-- VCORE_SET[3:0] show a code, which the power die reads at its balls: VCORE's nominal follows (R483, R573). Released, they show 15. -/
def State.driveVcore (s : State) (code : Nat) : State :=
  (s.emit (.vcore code)).pdPut rPD_SUP_VCORE_NOM fPD_SUP_VCORE_NOM_mv (600 + 20 * code)

/-! ### Events and pending sources (R482, R494) -/

/-- Milliseconds of the power die's clock. -/
def State.pdMs (s : State) : Nat := s.pd.ticks * 4 / 1000000

/-- A power-die event: to the ledger while the link is up, else to the buffer, or lost (R494, R512). -/
def State.pdEvent (s : State) (code arg : Nat) (data : List Byte) : State :=
  if s.pdUp then s.stage 0x03 (code * 256 + arg) data (some 0)
  else if s.pd.evts.length < 32 then
    let s := { s with pd := { s.pd with evts := s.pd.evts ++ [PdEvt.mk code arg data s.pdMs] } }
    s.pdPut rPD_EVT_STATUS fPD_EVT_STATUS_waiting s.pd.evts.length
  else s.pdPut rPD_EVT_STATUS fPD_EVT_STATUS_lost (satInc 65535 (s.pdGet rPD_EVT_STATUS fPD_EVT_STATUS_lost))

/-- A fault source of the power die: to the collector while the link is up, else its pending flag (R482). -/
def State.pdRaise (s : State) (src : Nat) (page : Nat := 0xFFF) : State :=
  if s.pdUp then s.raise src page
  else { s with pd := { s.pd with pend := s.pd.pend.filter (fun e => e.1 != src) ++ [(src, page)] } }

/-- A bit of PD_HS_FAULT is set, with its source (R482, R497). -/
def State.hsFault (s : State) (bit : Nat) : State :=
  let s := (s.pdOr rPD_HS_FAULT (2 ^ bit)).pdIrq 0xF0 3
  if bit = 0 then s.pdRaise 98 else if bit = 1 then s.pdRaise 99 else if bit = 2 then s.pdRaise 102
  else if bit = 3 then s.pdRaise 103 else if bit = 6 || bit = 7 then s.pdRaise 104 else s

/-! ### ERR_N (R510) -/

/-- ERR_N is pulled low and latched, unless it is latched already. -/
def State.pdErrN (s : State) (cause src : Nat) : State :=
  if s.pdFlag rFLT_ERRN fFLT_ERRN_asserted then s
  else (s.pdSet rFLT_ERRN (toW (src * 2 ^ 8 + cause * 2 + 1))).pdIrq 0x04 12

/-- A level 4 or 5 reaction asserts ERR_N: over the die link, which carries it unless it is silent. -/
def State.latchErrN (s : State) (cause src : Nat) : State :=
  if s.pdFlag rFLT_ERRN fFLT_ERRN_asserted || s.flag rPD_LINK_STATUS fPD_LINK_STATUS_silent then s
  else ((s.pdErrN cause src).setReg rFLT_ERRN (toW (src * 2 ^ 8 + cause * 2 + 1))).irq 0x04 12

/-! ### Discrete outputs (R488, R491, R492) -/

/-- PGOOD is released. -/
def State.pgood (s : State) : Bool := s.pdFlag rPD_HS_STATUS fPD_HS_STATUS_pgood

/-- Output i of group g conducts: its bit is 1, PGOOD is released, it is not latched off, and its group is not in the off state of a
link loss. -/
def State.outOn (s : State) (g i : Nat) : Bool :=
  bitOf (s.pdReg (rPD_DIO_OUT g)) i && s.pgood && !s.pd.latched.testBit (4 * g + i) &&
    !(s.pdFlag (rPD_DIO_STATE g) fPD_DIO_STATE_link_loss && !bitOf (s.pdReg rPD_STRAP) g)

/-- PD_DIO_STATE of group g as its outputs are. -/
def State.outShow (s : State) (g : Nat) : State :=
  let c := b2n (s.outOn g 0) + 2 * b2n (s.outOn g 1) + 4 * b2n (s.outOn g 2) + 8 * b2n (s.outOn g 3)
  let w := s.pdGet (rPD_DIO_STATE g) fPD_DIO_STATE_link_loss * 2 ^ 8 + b2n (bitOf (s.pdReg rPD_STRAP) g) * 2 ^ 9 + b2n (!s.pgood) * 2 ^ 10
  s.pdSet (rPD_DIO_STATE g) (toW (w + c))

def State.outsShow (s : State) : State := (((s.outShow 0).outShow 1).outShow 2).outShow 3

/-- Every group takes its link-loss state (R488). -/
def State.linkLoss (s : State) : State :=
  [0, 1, 2, 3].foldl (fun (s : State) g => (s.pdPut (rPD_DIO_STATE g) fPD_DIO_STATE_link_loss 1).outShow g) s

/-- A write to the outputs of group g (R488, R491, R492): it ends the link-loss state, and an output written 0 is unlatched. -/
def State.outWrite (s : State) (g : Nat) (v : Nat) : State :=
  let s := s.pdSet (rPD_DIO_OUT g) (toW (v % 16))
  let keep := [0, 1, 2, 3].foldl (fun l i => if v.testBit i then l else natPut l (4 * g + i) (4 * g + i) 0) s.pd.latched
  let s : State := { s with pd := { s.pd with latched := keep } }
  (s.pdPut (rPD_DIO_STATE g) fPD_DIO_STATE_link_loss 0).outShow g

/-! ### The hot-swap sequencer (R475 to R481) -/

/-- Sequencer states (R475). -/
abbrev hsWait : Nat := 0
abbrev hsDebounce : Nat := 1
abbrev hsCheck : Nat := 2
abbrev hsRamp : Nat := 3
abbrev hsSettle : Nat := 4
abbrev hsOn : Nat := 5
abbrev hsCool : Nat := 6
abbrev hsLatched : Nat := 7

def State.hs (s : State) : Nat := s.pdGet rPD_HS_STATUS fPD_HS_STATUS_state

/-- HSG is driven. -/
def State.hsDriven (s : State) : Bool := hsRamp ≤ s.hs && s.hs ≤ hsOn

/-- Feed ready: a feed is valid with its PRESn_N low (R475). -/
def State.hsReady (s : State) : Bool := s.pd.valid &&& s.pd.pres != 0

/-- The hot-swap settings in force: the OTP value until the first ramp is over (R471). -/
def State.hsCfg (s : State) : Word :=
  if s.pd.first then (s.pd.otp.getLast?).getD 0x3C043333 else s.pdReg rPD_HS_CFG

/-- HPWR_EN is released while PGOOD is and the hub is not in L6 (R478). Without it the hub die is unpowered, so the die link is not up. -/
def State.hpwr (s : State) : State :=
  let on := s.pgood && !s.pd.l6
  let was := s.pdFlag rPD_HS_STATUS fPD_HS_STATUS_hpwr_en
  let s := s.pdPut rPD_HS_STATUS fPD_HS_STATUS_hpwr_en (b2n on)
  if was && !on then s.put rPD_LINK_STATUS fPD_LINK_STATUS_up 0 else s

/-- PGOOD is released or pulled low (R478, R479, R485, R494). -/
def State.setPgood (s : State) (on : Bool) : State :=
  if on = s.pgood then s
  else
    let s := (s.pdPut rPD_HS_STATUS fPD_HS_STATUS_pgood (b2n on)).pdIrq 0xF0 2
    let s := s.pdEvent (if on then 0x03 else 0x04) 0 []
    let s := if !on && s.pdFlag rPD_HS_STATUS fPD_HS_STATUS_hpwr_en then s.pdOr rPD_RESET_CAUSE 2 else s
    let s : State := { s with pd := { s.pd with first := s.pd.first && !on, clearRun := on, held := s.pd.held && !on } }
    s.hpwr.outsShow

/-- The sequencer goes to state n: PGOOD is released in ON alone, and out of the driven states HSG is off and no limit acts. -/
def State.hsGo (s : State) (n : Nat) : State :=
  let s := s.pdPut rPD_HS_STATUS fPD_HS_STATUS_state n
  let s := s.pdPut rPD_HS_STATUS fPD_HS_STATUS_latched (b2n (decide (n = hsLatched)))
  let s : State := { s with pd := { s.pd with enh := false } }
  let s := if hsRamp ≤ n && n ≤ hsOn then s
    else { s.pdPut rPD_HS_STATUS fPD_HS_STATUS_in_limit 0 with pd := { (s.pdPut rPD_HS_STATUS fPD_HS_STATUS_in_limit 0).pd with held := false } }
  s.setPgood (n = hsOn)

/-- WAIT goes on to DEBOUNCE once a feed is ready, unless VIN is too high; DEBOUNCE goes on to CHECK once the debounce is complete. -/
def State.hsAdvance (s : State) : State :=
  let s := if s.hs = hsWait && s.hsReady && !s.pd.ov then s.hsGo hsDebounce else s
  if s.hs = hsDebounce && s.hsReady && s.pd.debounced && !s.pd.ov then s.hsGo hsCheck else s

/-- LATCHED, with latch_off beside the cause (R475, R482). -/
def State.hsLatch (s : State) (cause : Nat) : State := ((s.hsFault cause).hsFault 1).pdEvent 0x06 cause [] |>.hsGo hsLatched

/-- A trip: COOL, or LATCHED past the retries (R475, R482). Bit 0 is cause trip, bit 2 gate_no_rise. -/
def State.hsTrip (s : State) (cause : Nat) : State :=
  let cfg := s.hsCfg
  let n := s.pdGet rPD_HS_STATUS fPD_HS_STATUS_retry_count + 1
  let s := (s.pdInc rPD_CNT_TRIP).pdPut rPD_HS_STATUS fPD_HS_STATUS_retry_count n
  let s := s.pdEvent 0x05 cause []
  let s := if cause = 2 then s.pdEvent 0x08 0 [] else s
  let s : State := { s with pd := { s.pd with first := false } }
  if fldOf cfg fPD_HS_CFG_retries < n then s.hsLatch cause
  else
    let s := (s.hsFault cause).hsGo hsCool
    s.pdPut rPD_HS_STATUS fPD_HS_STATUS_cooldown_left ((fldOf cfg fPD_HS_CFG_cooldown + 1) * 100)

/-- Feed n conducts (R472): valid, present, not held off, and less than 40 mV below the other. -/
def State.conducts (s : State) (n : Nat) : Bool :=
  let can := fun k => s.pd.valid.testBit k && s.pd.pres.testBit k && !bitOf (s.pdReg rPD_HS_EXP) k
  let mv := fun k => if k = 0 then s.pd.mv1 else s.pd.mv2
  can n && (!can (1 - n) || mv (1 - n) < mv n + 40)

/-- PD_FEED_STATUS as the feeds are. -/
def State.feedShow (s : State) : State :=
  s.pdSet rPD_FEED_STATUS (toW (s.pd.valid + s.pd.pres * 2 ^ 4 + b2n (s.conducts 0) * 2 ^ 8 + b2n (s.conducts 1) * 2 ^ 9))

/-- The feeds have changed: feed n's readiness has been `was`, and that of the card `ready` (R472, R475, R476, R480, R481). -/
def State.feedsChanged (s : State) (n : Nat) (was ready : Bool) : State :=
  let now := s.pd.valid.testBit n && s.pd.pres.testBit n
  let s := s.feedShow.pdIrq 0xF0 4
  let s := if was = now then s else s.pdEvent 0x0A (n + 1) [toB (n + 1), toB (b2n now)]
  let s := if was && !now && s.pgood then s.pdInc rPD_CNT_FEED_LOSS else s
  if s.hsReady && !ready then
    let ms := if s.pd.seated.testBit n && !s.pd.lost then 5 else 100
    let s : State := { s with pd := { s.pd with debMs := ms, debounced := false } }
    let s := if s.hs = hsCool then (s.hsFault 4).pdEvent 0x07 0 [] else s
    s.hsAdvance
  else if !s.hsReady && ready then
    let s : State := { s with pd := { s.pd with lost := true, debounced := false } }
    if s.hs = hsCool || s.hs = hsLatched then s else s.hsGo hsWait
  else s

/-- A power-die reset (R471, R481, R526): every field of class P and the sequencer return to reset; the levels at its pins and the OTP stay. -/
def State.pdReset (s : State) (on : Bool) : State :=
  let p := s.pd
  { s with pd := { on := on, valid := p.valid, pres := p.pres, mv1 := p.mv1, mv2 := p.mv2, otp := p.otp, 
                   regs := spSet resetWord [] rPD_HS_CFG ((p.otp.getLast?).getD 0x3C043333) } }

/-- The end of a power-die reset (R471, R476, R488, R494): PRESn_N and the straps are sampled, and the sequencer starts fresh. -/
def State.pdStart (s : State) : State :=
  let s : State := { s with pd := { s.pd with on := true, seated := s.pd.pres, debMs := if s.pd.valid &&& s.pd.pres != 0 then 5 else 0 } }
  let s := s.pdPut rPD_HS_STATUS fPD_HS_STATUS_otp_rows s.pd.otp.length
  let s := (s.pdSet rPD_RESET_CAUSE 1).pdEvent 0x01 0 []
  (s.feedShow.outsShow).hsAdvance

/-! ### Input records (R490) -/

/-- The record of the count of input n. -/
def State.diRecord (s : State) (n : Nat) : State :=
  s.pdEvent 0x12 n ([toB n] ++ beBytes 4 (s.pdReg (rPD_DI_COUNT (n / 4) (n % 4))).toNat)

/-- At each hub-die start the inputs with ledger_en are recorded. -/
def State.diStart (s : State) : State :=
  (List.range 16).foldl (fun (s : State) n => if s.pdFlag (rPD_DI_CFG (n / 4) (n % 4)) fPD_DI_CFG_ledger_en then s.diRecord n else s) s

/-! ### Wake sources (R534) -/

/-- The levels at which a wake code acts. -/
def wakeActs (level code : Nat) : Bool :=
  if code = 0 || code = 5 then 2 ≤ level && level ≤ 5
  else if code ≤ 4 then 2 ≤ level && level ≤ 4
  else if code = 6 then 2 ≤ level && level ≤ 6
  else code = 7 && level = 6

/-- A wake source acts: recorded in PWR_WAKE_SRC and PWR_STATUS, the exit begins; WAKE runs its steps. A source of a later tick adds nothing. -/
def State.wakeBy (s : State) (codes : List Nat) : State :=
  let en := if s.pwr.level = 6 then s.pwr.wakeEn else (s.reg rPWR_WAKE_EN).toNat
  let hit := codes.filter (fun c => wakeActs s.pwr.level c && (c = 0 || en.testBit c))
  if s.pwr.waking || hit = [] then s
  else
    let s := s.setReg rPWR_WAKE_SRC (s.reg rPWR_WAKE_SRC ||| toW (hit.foldl (fun m c => m ||| 2 ^ c) 0))
    let s := (s.put rPWR_STATUS fPWR_STATUS_wake (hit.foldl min 7)).put rPWR_STATUS fPWR_STATUS_busy 1
    { s with pwr := { s.pwr with waking := true } }

end Sys2Proof.Machine
end

