-- ==== Sys2Proof/Machine/Blocks.lean ====
section
/-! DEFINITION. What a reset clears: fields by class (R6, R526), and block reset (R31, R32) with what each block's chapter adds. -/
namespace Sys2Proof.Machine

/-- The bits of a register that the given classes cover. -/
def lostMask (a : Nat) (lost : List Cls) : Word :=
  let fs := regFields (a / 0x1000) (a % 0x1000)
  toW (lost.foldl (fun m c => m ||| clsMask fs c) 0)

/-- A register value with the fields of the given classes at their reset values (R6). -/
def clearWord (lost : List Cls) (a : Nat) (v : Word) : Word :=
  let m := lostMask a lost
  (v &&& ~~~m) ||| (resetWord a &&& m)

/-- Every register of the pages chosen, with the fields of the given classes at their reset values. -/
def State.clearRegs (s : State) (pages : Nat → Bool) (lost : List Cls) : State :=
  { s with regs := spMap resetWord (fun a v => if pages (a / 0x1000) then clearWord lost a v else v) s.regs }

/-- A step of an atomic. -/
def Cont.isAtom : Cont → Bool
  | .atom _ => true
  | _ => false

/-- What a block reset of HBA or HBB clears with HBx_OUTSTANDING and HBx_FENCE: the posted-destination table and the requests that are outstanding,
with the atomics and the quad-SPI command that wait for one of them; none of these completes (R31, R280, log entry 72). -/
def State.bridgeReset (s : State) (h : Nat) : State :=
  let x := s.br h
  let mine := (x.outst ++ x.queue.filter (fun r => r.cont.isAtom)).any (fun r => r.cont = .qspi h) ||
    x.atoms.any (fun a => a.node.isSome && a.ret = .qspi h)
  s.setBr h { x with outst := [], pdt := [], queue := x.queue.filter (fun r => !r.cont.isAtom), atoms := x.atoms.filter (fun a => a.node.isNone),
                     busy := x.busy && !mine }

/-- What a block holds beside its V fields goes with them, before the fields are cleared: a ring's ports leave their states (R83), ring control goes to OFF (R89).
The other blocks' chapters add theirs here. -/
def State.blockBefore (s : State) (head : Nat) : State :=
  if head = 0x20 then (s.ringResetPort 0 0).ringResetPort 0 1
  else if head = 0x24 then (s.ringResetPort 1 0).ringResetPort 1 1
  else if head = 0x28 then (s.rcStop 0).rcStop 1
  else if head = 0x10 then s.rxDiscardOpen.fabReset
  else if head = 0x05 then { s with sems := [], beats := spMap (fun _ => ({} : BeatSt)) (fun _ b => { period := b.period }) s.beats }
  else if head = 0x08 then { s with tlb := [] }
  else if head = 0x38 then s.ttbReset
  else if head = 0x40 then s.tbReset
  else if head = 0x44 then { s with servo := { s.servo with cap := [], capLost := false, edgeAt := [], evtLevel := [], pulses := [], lateUnits := [], trigs := [] } }
  else if head = 0x68 || head = 0x69 then s.bridgeReset (head - 0x68)
  else if head = 0x6A then { s with poll := { s.poll with events := [], want := 0 } }
  else if head = 0x30 then s.flowReset
  else if 0x50 ≤ head && head ≤ 0x5F then s.dmaBlockReset (head - 0x50)
  else if 0xB4 ≤ head && head ≤ 0xB7 then s.fqBlockReset (head - 0xB4)
  else if (0x80 ≤ head && head ≤ 0x8F) || (0x98 ≤ head && head ≤ 0xA7) then s.unitBlockReset head
  else if 0x90 ≤ head && head ≤ 0x97 then s.canBlockReset (head - 0x90)
  else if 0xA8 ≤ head && head ≤ 0xAB then s.cloveBlockReset (head - 0xA8)
  else if 0x70 ≤ head && head ≤ 0x74 then s.macBlockReset (head - 0x70)
  else if head = 0x48 then s.cipherBlockReset
  else if head = 0xC0 then { s with boot := { s.boot with pages := [], asm := none, ho := 0, hoOpen := false, held := [] } }
  else if head = 0x4C then { s with kmgr := { seq := s.kmgr.seq } }
  else if head = 0x18 then { s with pace := { s.pace with settling := false, above := 0, below := false } }
  else s

/-- What the block does after its V fields are cleared. -/
def State.blockAfter (s : State) (head : Nat) : State :=
  if head = 0x20 then (s.ringRestartPort 0 0).ringRestartPort 0 1
  else if head = 0x24 then (s.ringRestartPort 1 0).ringRestartPort 1 1
  else if head = 0x28 then (s.rcStart 0).rcStart 1
  else if head = 0x40 then s.rootLock
  else if 0x50 ≤ head && head ≤ 0x5F then s.dmaRestart (head - 0x50)
  else if 0xB4 ≤ head && head ≤ 0xB7 then s.fqRestart (head - 0xB4)
  else s

/-- A block reset: every V field of the block, and what its chapter adds, and nothing else (R31). The fields clear at its start; it lasts until
the next tick, through which the block holds accesses beyond its header (log entry 12). What the power die reports of a bank stays (R318), and so does what FWU_STATUS shows of Cumin, recovery and the inactive slot (R565);
a swap of banks that was pending is complete (R413). During a warm or cold reset it is dropped (R524). -/
def State.blockReset (s : State) (head : Nat) : State :=
  if s.rst.active || s.resets.contains head then s else
  let ok := s.get (rPMUX_BANK (head - 0xB0)) fPMUX_BANK_supply_ok
  let fwu := s.reg rFWU_STATUS &&& 0x181
  let swap := 0xA8 ≤ head && head ≤ 0xAB && s.swapPending (head - 0xA8)
  let s := s.blockBefore head
  let s := s.clearRegs (fun p => (blockPages head).contains p) [.v]
  let s := if 0xB0 ≤ head && head ≤ 0xB3 then s.put (rPMUX_BANK (head - 0xB0)) fPMUX_BANK_supply_ok ok else s
  let s := if head = 0xC0 then s.setReg rFWU_STATUS (s.reg rFWU_STATUS ||| fwu) else s
  let s := if swap then s.irq head 5 else s
  { s with resets := s.resets ++ [head] }

end Sys2Proof.Machine
end

