-- ==== Sys2Proof/Machine/Collector.lean ====
section
/-! DEFINITION. The fault collector (R501 to R510, R592), the delivery of interrupts to the hosts (R248), and `finish`, with
which every meaning ends: it hands the fault events of the command to the collector and sends the messages that the change of
state calls for. -/
namespace Sys2Proof.Machine

/-- The class of a source (R501). -/
def srcClass (n : Nat) : Nat :=
  if n < 16 then 0 else if n < 32 then 1 else if n < 48 then 2 else if n < 60 then 3 else if n < 72 then 4
  else if n < 96 then 5 else if n < 112 then 6 else if n < 127 then 7 else 8

/-- The block that a level 3 reaction of a source resets, by its first page; none where level 3 acts as level 2 (R501). -/
def srcBlock (n : Nat) : Option Nat :=
  if n ≤ 6 then some 0x10 else if n ≤ 10 then some 0x18
  else if n = 11 || n = 13 || n = 14 then some 0x30 else if n = 12 || n = 15 then some 0x38
  else if n = 16 || n = 17 || n = 20 || n = 22 then some 0x20
  else if n = 18 || n = 19 || n = 21 || n = 23 then some 0x24
  else if 24 ≤ n && n ≤ 29 then some 0x28 else if n = 31 then some 0x44
  else if n = 36 || n = 37 || n = 40 then some 0x05 else if n = 60 then some 0x48 else if n = 112 then some 0x70
  else none

/-- The page whose PG_FAULT records a source; where the table leaves it to the event, the page given (R592). -/
def ownerPage (n page : Nat) : Option Nat :=
  if n ≤ 6 then some 0x10 else if n ≤ 10 then some 0x18
  else if n = 11 || n = 13 || n = 14 then some 0x30 else if n = 12 || n = 15 then some 0x38
  else if 16 ≤ n && n ≤ 19 then some (0x21 + (n - 16) % 2 + 4 * ((n - 16) / 2))
  else if n = 20 then some 0x20 else if n = 21 then some 0x24 else if n = 22 then some 0x23 else if n = 23 then some 0x27
  else if 24 ≤ n && n ≤ 29 then some 0x28 else if n = 30 then some 0x40 else if n = 31 then some 0x44
  else if n = 32 || n = 34 then some 0x68 else if n = 33 || n = 35 then some 0x69
  else if n = 36 || n = 37 || n = 39 || n = 40 then some 0x05
  else if n = 42 || n = 43 || n = 46 then some 0x6A
  else if n = 48 then none
  else if 49 ≤ n && n ≤ 51 then some 0x0A else if n = 52 then some 0x08 else if n = 55 then some 0x60
  else if (56 ≤ n && n ≤ 58) || n = 123 || n = 125 || n = 126 then some 0x00
  else if n = 59 || n = 120 then some 0xC1
  else if n = 60 || n = 63 || n = 69 || n = 70 then some 0x48
  else if n = 61 || n = 62 || (64 ≤ n && n ≤ 68) then some 0x4C
  else if (96 ≤ n && n ≤ 99) || (102 ≤ n && n ≤ 104) then some 0xF0
  else if n = 105 || n = 106 then some 0xF1 else if n = 100 || n = 101 || n = 111 then some 0xF2 else if n = 110 then some 0xF3
  else if n = 112 then some 0x70 else if n = 113 then some 0x01 else if n = 114 || n = 122 then some 0xC2
  else if 115 ≤ n && n ≤ 117 then some 0x06 else if n = 118 || n = 119 then some 0x03
  else if n = 121 then some 0xC0 else if n = 124 then some 0x04
  else if populated page then some page else none

/-- Level codes 6 and 7 act as 5 (R504). -/
def levelCode (n : Nat) : Nat := if 5 < n then 5 else n

/-- The capture of a class (R508): the first event fills it, later ones add to its count. -/
def State.capture (s : State) (c : Nat) (e : FaultEv) : State :=
  if bitOf (s.reg (rFLT_CAP c 0)) 31 then
    s.setReg (rFLT_CAP c 7) (toW (satInc 65535 (s.reg (rFLT_CAP c 7)).toNat))
  else
    let b := s.base 0
    let s := s.setReg (rFLT_CAP c 0) (toW (2 ^ 31 + b2n e.injected * 2 ^ 30 + e.source * 2 ^ 16 + e.master * 2 ^ 8 + e.type * 32))
    let s := s.setReg (rFLT_CAP c 1) (toW ((if e.master = 0x30 then e.node * 2 ^ 14 else 0) + e.size))
    let s := s.setReg (rFLT_CAP c 2) (toW e.addr)
    let s := s.setReg (rFLT_CAP c 3) (toW (e.addr / 2 ^ 32))
    let s := s.setReg (rFLT_CAP c 4) (toW b.ns)
    let s := s.setReg (rFLT_CAP c 5) (toW b.sec)
    let s := s.setReg (rFLT_CAP c 6) (toW (s.get (rTB_STATUS 0) fTB_STATUS_locked * 2 ^ 16 + b.sec / 2 ^ 32 % 2 ^ 16))
    s.setReg (rFLT_CAP c 7) 0

/-- The record of an event in a page's PG_FAULT (R29, R592). -/
def State.pageFault (s : State) (p : Nat) (src : Nat) (severe : Bool) : State :=
  let a := rPG_FAULT p
  if s.flag a fPG_FAULT_valid then
    let s := s.incSat a fPG_FAULT_count
    if severe && s.get a fPG_FAULT_source = src then s.put a fPG_FAULT_severe 1 else s
  else (s.setReg a (toW (2 ^ 31 + b2n severe * 2 ^ 16 + 2 ^ 8 + src))).irq p 1

/-- The ledger entry of a fault event (R512, R513): the first qualifying event of its source in the epoch makes a type 0x20
entry, later ones are counted. -/
def State.faultEntry (s : State) (e : FaultEv) (eff : Nat) (severe escalated : Bool) : State :=
  if eff < s.get rLEDG_CFG fLEDG_CFG_fault_level || !s.enabled 0x06 then s
  else match s.ledg.seen.find? (fun x => x.1 = e.source) with
    | some x => { s with ledg := { s.ledg with seen := (e.source, x.2.1 + 1, max x.2.2 eff) :: s.ledg.seen.filter (fun y => y.1 != e.source) } }
    | none =>
      let s := { s with ledg := { s.ledg with seen := (e.source, 0, 0) :: s.ledg.seen } }
      s.stage 0x20 (e.source * 256 + eff + 8 * b2n severe + 16 * b2n escalated + 32 * b2n e.injected + 64 * b2n e.wire)
        ([toB e.master, toB (e.type * 16)] ++ beBytes 4 (e.addr % 2 ^ 32))

/-- One event at the collector (R503, R504, R506, R508, R509): counted, classified, its level fixed, and the reactions of that
level and below. The blocks in `busy` are in block reset already and are not reset again; the list of blocks reset is returned. -/
def State.collectOne (s : State) (e : FaultEv) (busy : List Nat) : State × List Nat :=
  let owner := ownerPage e.source e.page
  if !s.enabled 0x04 || (e.source != 49 && owner.any fun p => !s.enabled p) then (s, busy)
  else
    let cfg := s.reg (rFLT_SRC_CFG e.source)
    let cw := rFLT_SRC_COUNT (e.source / 4)
    let b := e.source % 4
    let n := satInc 255 (natBits (s.reg cw).toNat (8 * b + 7) (8 * b))
    let countN := max 1 (fldOf cfg fFLT_SRC_CFG_count_n)
    let severe := decide (countN ≤ n)
    let s := s.setReg cw (toW (natPut (s.reg cw).toNat (8 * b + 7) (8 * b) n))
    let w := e.source / 32
    let bit := toW (2 ^ (e.source % 32))
    let s := if severe then s.setReg (rFLT_SEVERE w) (s.reg (rFLT_SEVERE w) ||| bit) else s
    let c := srcClass e.source
    let cfgLvl := levelCode (fldOf cfg (if severe then fFLT_SRC_CFG_severe_level else fFLT_SRC_CFG_minor_level))
    let pend := s.get rFLT_PENDING fFLT_PENDING_pending
    let escalated := decide (1 ≤ cfgLvl) && pend.testBit c
    let eff := if escalated then min 5 (cfgLvl + 1) else cfgLvl
    let eff := if e.injected && s.flag rFLT_CFG fFLT_CFG_inject_cap then min 1 eff else eff
    let eff := if s.flag rFLT_EXP fFLT_EXP_hold_high then min 2 eff else eff
    let s := if escalated then s.inc rFLT_CNT_ESCALATED else s
    let s := s.inc rFLT_CNT_EVENTS
    let s := s.setReg (rFLT_RAISED w) (s.reg (rFLT_RAISED w) ||| bit)
    let s := s.setReg rFLT_LAST (toW (e.source * 2 ^ 16 + eff * 2 ^ 8 + cfgLvl * 2 ^ 4 + 8 * b2n severe + 4 * b2n escalated +
      2 * b2n e.injected + b2n e.wire))
    let s := s.capture c e
    let s := match owner with
      | some p => s.pageFault p e.source severe
      | none => s
    let s := s.faultEntry e eff severe escalated
    let s := if 1 ≤ eff then
        let s := s.irq 0x04 (2 + c)
        if 1 ≤ cfgLvl then s.put rFLT_PENDING fFLT_PENDING_pending (pend ||| 2 ^ c) else s
      else s
    let s := if 2 ≤ eff then s.put rFLT_PENDING fFLT_PENDING_level2 (s.get rFLT_PENDING fFLT_PENDING_level2 ||| 2 ^ c) else s
    let r := match srcBlock e.source with
      | some head => if 3 ≤ eff && hasBlockReset head && !busy.contains head then (s.blockReset head, head :: busy) else (s, busy)
      | none => (s, busy)
    let s := r.1
    let s := if 2 ≤ eff then s.wakeBy [0] else s
    let s := if 4 ≤ eff then s.latchErrN (if eff = 5 then 2 else 1) e.source else s
    let s := if 5 ≤ eff then { (s.inc rFLT_CNT_CHIP_RESET) with level5 := true } else s
    (s, r.2)

/-- Events in rising source order, those of one source in the order raised (R507). -/
def insertEv (e : FaultEv) : List FaultEv → List FaultEv
  | [] => [e]
  | x :: l => if e.source < x.source then e :: x :: l else x :: insertEv e l

def sortEvs (l : List FaultEv) : List FaultEv := l.foldl (fun acc e => insertEv e acc) []

/-- The collector takes the events that are up; those that its own reactions raise are taken in further rounds. -/
def State.collectRounds : Nat → State → List Nat → State
  | 0, s, _ => { s with raises := [] }
  | k + 1, s, busy =>
    if s.raises = [] then s
    else
      let evs := sortEvs s.raises
      let r := evs.foldl (fun (acc : State × List Nat) e => acc.1.collectOne e acc.2) ({ s with raises := [] }, busy)
      State.collectRounds k r.1 r.2

/-- All events of a command collected. -/
def State.collect (s : State) : State := State.collectRounds 64 s []

/-! ### Interrupts to the hosts (R248, R253) -/

/-- The page of host port h. -/
def hostPage (h : Nat) : Nat := 0x68 + h

/-- The vector that page p requests at host h, 0 for none; a host port's page routes to its own port only (R248). -/
def State.routeOf (s : State) (h p : Nat) : Nat :=
  if p = 0x68 + (1 - h) then 0
  else natBits (s.reg (rHBx_IRQ_ROUTE h (p / 4))).toNat (8 * (p % 4) + 4) (8 * (p % 4))

/-- Page p's request counts at host h. A poll event requests the vector of the hosts that its entry's route names alone (R273). -/
def State.requests (s : State) (h p : Nat) : Bool :=
  p != 0x6A || s.poll.want.testBit h || (s.reg (rPG_IRQ_STAT p) &&& s.reg (rPG_IRQ_EN p) &&& ~~~(4 : Word)) != 0

/-- The vectors requested at host h: 0 while a class is pending at level 2 or above, and those of the requesting pages (R248). -/
def State.vectors (s : State) (h : Nat) : List Nat :=
  (if s.get rFLT_PENDING fFLT_PENDING_level2 = 0 then [] else [0]) ++
    (((s.reqPages.filter (s.requests h)).map (s.routeOf h)).filter (· != 0)).eraseDups

/-- HBx_MSIX_PBA: in quad-SPI mode its bits follow the vectors' requests (R253). -/
def State.pba (s : State) (h : Nat) : Word :=
  if s.get (rHBx_CFG h) fHBx_CFG_mode = 0 then s.reg (rHBx_MSIX_PBA h)
  else toW ((s.vectors h).foldl (fun m v => m ||| 2 ^ v) 0)

/-- IRQ_x_N is low (R253). -/
def State.irqPin (s : State) (h : Nat) : Bool :=
  s.enabled (hostPage h) && (s.pba h != 0 || s.get rFLT_PENDING fFLT_PENDING_level2 != 0)

/-- Host port h works and is a PCI Express endpoint (R33, R244). -/
def State.pcieOn (s : State) (h : Nat) : Bool := s.enabled (hostPage h) && s.get (rHBx_CFG h) fHBx_CFG_mode = 0

/-- A vector whose request has risen: the message, or the PBA bit while the vector is masked (R248). -/
def State.request (s : State) (h v : Nat) : State :=
  if s.flag (rHBx_MSIX_CTRL h v) fHBx_MSIX_CTRL_mask then
    s.setReg (rHBx_MSIX_PBA h) (s.reg (rHBx_MSIX_PBA h) ||| toW (2 ^ v))
  else s.emit (.msix h v)

/-- The messages of one host for the vectors that `after` requests and `before` did not. -/
def State.deliverHost (before after : State) (h : Nat) : State :=
  if after.pcieOn h then
    ((after.vectors h).filter (fun v => !(before.vectors h).contains v)).foldl (fun s v => s.request h v) after
  else after

/-- The messages to both hosts, and the trap to Anise when a class comes to be pending at level 2 or above (R504). -/
def State.deliver (before after : State) : State :=
  let t := if before.get rFLT_PENDING fFLT_PENDING_level2 = 0 && after.get rFLT_PENDING fFLT_PENDING_level2 != 0
    then after.emit .trap else after
  State.deliverHost before (State.deliverHost before t 0) 1

/-- What a command leaves, from the state before it and the state that its effect gives: the collector takes the command's fault events,
interrupts are delivered, and the queue of waiting commands is what it was. -/
def State.finished (before after : State) : State := { State.deliver before after.collect with pending := before.pending }

/-- How every meaning ends. -/
def finish (before after : State) : Host.Outcome State Fault Refusal := .next (State.finished before after)

end Sys2Proof.Machine
end

