-- ==== Sys2Proof/Machine/Resets.lean ====
section
/-! DEFINITION. Resets of the hub die and the power levels (R522 to R537): what each kind and each level loses, the record of the cause, and
the entry to a level. -/
namespace Sys2Proof.Machine

/-- What is lost (R526): by a warm, a cold or a power-die reset, or by an exit from L4 or L5. -/
inductive Loss where
  | warm | cold | powerDie | l4 | l5
deriving DecidableEq, Repr

/-- The classes lost (R526). -/
def Loss.classes : Loss → List Cls
  | .warm => [.v, .w]
  | .l4 => [.v, .w]
  | .l5 => [.v, .w, .s]
  | .cold => [.v, .w, .s, .k]
  | .powerDie => [.v, .w, .s, .k, .p]

/-- The retention bank is lost (R526). -/
def Loss.retention (k : Loss) : Bool := k = .cold || k = .powerDie || k = .l5

/-- The keep area is lost (R526). -/
def Loss.keep (k : Loss) : Bool := k = .cold || k = .powerDie

/-- General SRAM goes, and the retention bank and the keep area where the loss says so (R21, R526). -/
def lostAddr (k : Loss) (a : Nat) : Bool :=
  a < 0x300000 || (k.retention && 0x300000 ≤ a && a < 0x310000) || (k.keep && 0x310000 ≤ a && a < 0x310100)

/-- The Saffron store at a loss (R453): a warm reset takes the slots with expire = 1 and revokes their descendants; L4, L5 and a cold reset take
everything, the anti-rollback counters with it (R527). -/
def State.loseKeys (s : State) (k : Loss) : State :=
  if k = .warm then
    (List.range 256).foldl (fun (s : State) n =>
      if attrExpire (s.key n).attr && (s.key n).st != 0 then ((s.setKey n {}).revoke n).keyLog n 0x11 0 false 0 else s) s
  else ({ s with keys := [] }).clearRegs (fun p => p = 0x4C || p = 0x4D) [.v, .w, .s]

/-- The island count and the time bases at a loss (R215, R217, R218, R527). -/
def State.loseTime (s : State) (k : Loss) : State :=
  let bases := if k = .l4 then spMap (fun _ => ({} : BaseSt)) (fun _ b => { b with inc := 0x40000000000, step := none }) s.bases else []
  { s with bases := bases, servo := { island := if k = .warm || k = .l4 then s.servo.island else 0 } }

/-- TB1 to TB3 keep their sessions through L4 and L5 (R218): the number and step_used, as they were in s0. -/
def State.keepSessions (s s0 : State) (k : Loss) : State :=
  if k = .l4 || k = .l5 then
    [1, 2, 3].foldl (fun (s : State) b =>
      (s.put (rTB_SESSION b) fTB_SESSION_number (s0.get (rTB_SESSION b) fTB_SESSION_number)).put (rTB_STATUS b) fTB_STATUS_step_used
        (s0.get (rTB_STATUS b) fTB_STATUS_step_used)) s
  else s

/-- The levels at the pins of a port outlast every reset of the hub. -/
def PortSt.pins (x : PortSt) : PortSt := { modAbs := x.modAbs, txFault := x.txFault, los := x.los }

/-- What a reset of the hub die, or an exit from L4 or L5, loses: fields by class, memories, and the state of every block beside its
registers (R526, R527). -/
def State.lose (s : State) (k : Loss) : State :=
  let s := s.loseTime k
  let s : State := { s with
    ports := spMap (fun _ => ({} : PortSt)) (fun _ x => x.pins) s.ports
    mem := spDrop (lostAddr k) s.mem
    ttm := [], sramBad := [], rcs := [], claims := [], sems := [], beats := [], tlb := [], flw := {}, ttbs := [], ttbLog := [], fab := {}, brs := [],
    tgt := {}, poll := {}, dmas := [], barriers := [], fqs := [], units := [], cans := [], clvs := [], pmem := [], macs := [], ciph := {},
    pace := {}, pdWrites := [], held := [], resets := [], slot := 0, slotPhase := 0, raises := [], level5 := false,
    kmgr := {}, boot := { svn := s.boot.svn }
    ledg := if k = .warm || k = .l4 then { s.ledg with flushTo := 0 } else {} }
  ((s.clearRegs (fun _ => true) k.classes).keepSessions s k).loseKeys k

/-- Every hub-die output is released, the ring lanes go to electrical idle, and the power die takes the notice of R488 (R523 step 2). -/
def State.pinsOff (s : State) : State :=
  let s := [(0, 0), (0, 1), (1, 0), (1, 1)].foldl (fun (s : State) rp => s.emit (.lane rp.1 rp.2 .idle)) s
  let s := if s.flag rPACE_CODE fPACE_CODE_driving then s.driveVcore 15 else s
  s.linkLoss

/-- The flag of RST_CAUSE that a start code sets (R538). -/
def causeFlag (code : Nat) : Nat :=
  if code = 0x01 then 0 else if code = 0x02 || code = 0x03 then 1 else if code = 0x04 then 2 else if code = 0x10 then 3
  else if code = 0x11 then 4 else if code = 0x12 then 5 else if code = 0x13 then 6 else if code = 0x14 then 7 else 8

/-- RST_CAUSE takes the causes seen since t₀: every flag, and the code of the deepest kind, the lowest within it (R524). Cold codes are below
warm ones. -/
def State.recordCauses (s : State) : State :=
  let code := s.rst.causes.foldl min 0xFF
  let flags := s.rst.causes.foldl (fun m c => m ||| 2 ^ causeFlag c) 0
  s.setReg rRST_CAUSE ((fldPut (s.reg rRST_CAUSE) fRST_CAUSE_code code) ||| toW flags)

/-- A reset of the hub die takes place (R523). A sleep that had reached L4 or L5 has lost that level's state as well (R535). -/
def State.takeReset (s : State) (cold : Bool) (causes : List Nat) : State :=
  let s := s.pinsOff
  let s := if s.pwr.level = 4 then s.lose .l4 else if s.pwr.level = 5 then s.lose .l5 else s
  let s := s.lose (if cold then .cold else .warm)
  let s : State := { s with pwr := {}, rst := { active := true, cold := cold, causes := causes } }
  let s := if cold then s else s.inc rRST_CNT_WARM
  let s := [0, 1, 2, 3].foldl (fun (s : State) b => s.openSession b) s
  s.recordCauses.diStart

/-- A cause of a reset of the hub die: codes below 0x10 are cold (R522 to R525, R538). Causes seen before Cumin starts are combined. A warm cause
does nothing in L6. -/
def State.resetCause (s : State) (code : Nat) : State :=
  let cold := decide (code < 0x10)
  if !cold && s.pwr.level = 6 then s
  else if s.rst.active then
    let causes := if s.rst.causes.contains code then s.rst.causes else s.rst.causes ++ [code]
    if cold && !s.rst.cold then s.takeReset true causes
    else ({ s with rst := { s.rst with causes := causes } }).recordCauses
  else s.takeReset cold [code]

/-- A warm reset with a cause code (R522, R538). -/
def State.warmReset (s : State) (code : Nat) : State := s.resetCause code

/-! ### Entry to a level (R532, R537) -/

/-- The ports that are put to sleep: those in UP send one slot of idles; every port in use goes to electrical idle and to WAKE, where its exit
starts (R76, R532, R535). -/
def State.idlePorts (s : State) : State :=
  [(0, 0), (0, 1), (1, 0), (1, 1)].foldl (fun (s : State) rp =>
    if s.isUp rp.1 rp.2 then (s.emit (.lane rp.1 rp.2 .idle)).leaveUp rp.1 rp.2 pWake |>.toWake rp.1 rp.2
    else if pWake ≤ s.portState rp.1 rp.2 then (s.emit (.lane rp.1 rp.2 .idle)).toWake rp.1 rp.2
    else s) s

/-- The hub enters level n, 2 to 6: the steps of R532 that its depth takes. The watchdog pauses (R528). -/
def State.enterLevel (s : State) (n : Nat) : State :=
  let s := (s.idlePorts).inc rPWR_CNT_ENTRY
  let s := if 3 ≤ n then
      (s.put (rHBx_STATUS 0) fHBx_STATUS_ltssm 0).put (rHBx_STATUS 1) fHBx_STATUS_ltssm 0 else s
  let s := if 5 ≤ n && s.flag rPACE_CODE fPACE_CODE_driving then s.driveVcore 15 else s
  let s : State := { s with rst := { s.rst with stage := 0 }, pwr := { s.pwr with level := n, waking := false, wakeEn := (s.reg rPWR_WAKE_EN).toNat } }
  let s := s.put rPWR_STATUS fPWR_STATUS_last_level n
  if n = 6 then
    let s := s.linkLoss.pdEvent 0x13 0 []
    ({ s with pd := { s.pd with l6 := true } }).hpwr
  else s

/-- A MAC wake pattern (R429, R534). -/
def State.macWake (s : State) : State := s.wakeBy [4]

end Sys2Proof.Machine
end

