-- ==== Sys2Proof/Machine/FamLinks.lean ====
section
/-! DEFINITION. The meanings of the ring-port commands (03_ring_links_and_frames.md): training (R76, R77), modules (R80 to R82),
and the reception of a ring frame (R67 to R74, R108). -/
namespace Sys2Proof.Machine

/-! ### Training -/

/-- The effect of a write to RGA_PORT_CTRL: enable starts the state machine at MODULE, once the ring's block is enabled (R33); enable = 0
moves every state to OFF (R76). -/
def portCtrlFx (r p : Nat) (v : Word) (s : State) : State :=
  let was := s.flag (rRGA_PORT_CTRL r p) fRGA_PORT_CTRL_enable
  let s := s.store (rRGA_PORT_CTRL r p) v
  let now := s.flag (rRGA_PORT_CTRL r p) fRGA_PORT_CTRL_enable
  if now && !was then (if s.enabled (ringPage r) then s.toModule r p else s)
  else if !now then s.portOff r p
  else s

def execPortEnable (q : Req) (r p : Fin 2) (v : Word) (s : State) : Host.Outcome State Fault Refusal :=
  finish s (s.writeReg q (rRGA_PORT_CTRL r p) v (portCtrlFx r p))

/-- The checks of R80 on A0h bytes 0 and 12 and the pins. -/
def State.moduleOk (s : State) (r p : Nat) (b0 b12 : Byte) : Bool :=
  b0 = 0x03 && (if s.quarter r then 26 ≤ b12.toNat else 103 ≤ b12.toNat) && s.modulePinsOk r p

/-- The read of page A0h completes, with the bytes it brought; `ack` false is a module that does not answer. In MODULE the port
goes to WAKE when the checks pass; when they fail the module fault is raised once for this entry to MODULE (R76, R80, R81). -/
def State.moduleCheck (s : State) (r p : Nat) (ack : Bool) (b0 b12 b92 : Byte) : State :=
  let a := rRGA_MOD_STATUS r p
  let rateOk := if s.quarter r then 26 ≤ b12.toNat else 103 ≤ b12.toNat
  let s := s.setPort r p { s.port r p with diag := ack && b92.getLsbD 6 }
  let s := s.setReg a (toW (if ack then b0.toNat * 256 + b2n (b92.getLsbD 4) * 32 + s.get a fRGA_MOD_STATUS_diag_alarm * 16 +
    b2n (s.port r p).txFault * 8 + b2n rateOk * 4 + b2n (decide (b0 = 0x03)) * 2 + b2n (!(s.port r p).modAbs) else
    b2n (s.port r p).txFault * 8 + b2n (!(s.port r p).modAbs)))
  if s.portState r p != pModule then s
  else if ack && s.moduleOk r p b0 b12 then s.toWake r p
  else if (s.port r p).failRaised then s
  else (s.setPort r p { s.port r p with failRaised := true }).raise (22 + r) (modulePage r)

def execModuleCheck (r p : Fin 2) (ack : Bool) (b0 b12 b92 : Byte) (s : State) : Host.Outcome State Fault Refusal :=
  finish s (s.moduleCheck r p ack b0 b12 b92)

/-- The retry timer: the checks run again, that is, page A0h is read once more (R76). -/
def execModuleRetry (r p : Fin 2) (s : State) : Host.Outcome State Fault Refusal :=
  finish s (if s.portState r p = pModule then s.emit (.modBus r p 0 0 none) else s)

/-- The module pins change. A rise of MOD_ABS or TX_FAULT in WAKE or a later state raises the module fault (R81); WAKE goes to
MODULE and UP to DOWN (R76). -/
def State.pinChange (s : State) (r p : Nat) (modAbs txFault los : Bool) : State :=
  let x := s.port r p
  let rise := (modAbs && !x.modAbs) || (txFault && !x.txFault)
  let s := (s.setPort r p { x with modAbs := modAbs, txFault := txFault, los := los }).showPins r p
  let a := rRGA_MOD_STATUS r p
  let s := (s.put a fRGA_MOD_STATUS_present (b2n !modAbs)).put a fRGA_MOD_STATUS_tx_fault (b2n txFault)
  let s := if modAbs != x.modAbs then s.irq (modulePage r) (2 + p) else s
  let st := s.portState r p
  if rise && pWake ≤ st then
    let s := s.raise (22 + r) (modulePage r)
    if st = pWake then s.toModule r p else if st = pUp then s.upToDown r p else s
  else s

def execModulePinChange (r p : Fin 2) (modAbs txFault los : Bool) (s : State) : Host.Outcome State Fault Refusal :=
  finish s (s.pinChange r p modAbs txFault los)

def execBlockLock (r p : Fin 2) (s : State) : Host.Outcome State Fault Refusal :=
  let s1 := s.put (rRGA_PORT_STATE r p) fRGA_PORT_STATE_block_lock 1
  finish s (if s.portState r p = pWake then s1.setPortState r p pLock else s1)

def State.blockLockLost (s : State) (r p : Nat) : State :=
  let s := s.put (rRGA_PORT_STATE r p) fRGA_PORT_STATE_block_lock 0
  let st := s.portState r p
  if st = pLock || st = pAlign then s.toWake r p
  else if st = pUp then s.upToDown r p
  else s

def execBlockLockLost (r p : Fin 2) (s : State) : Host.Outcome State Fault Refusal := finish s (s.blockLockLost r p)

/-- A window of the error monitor ends (R53): its invalid sync headers, and its bit errors against PRBS31, which count while the port checks
for it (R83). A high bit error ratio takes a port in UP to DOWN (R76). -/
def State.berWindowEnd (s : State) (r p : Nat) (w : BerWindow) : State :=
  let hi := decide (berLimit ≤ w.bad)
  let s := s.put (rRGA_PORT_STATE r p) fRGA_PORT_STATE_hi_ber (b2n hi)
  let a := rRGA_PORT_PRBS_ERR r p
  let s := if bitOf (s.reg (rRGA_PORT_TEST r p)) 1 then s.setReg a (toW (min 0xFFFFFFFF ((s.reg a).toNat + w.errs))) else s
  if hi && s.isUp r p then s.upToDown r p else s

def execHighBer (r p : Fin 2) (w : BerWindow) (s : State) : Host.Outcome State Fault Refusal := finish s (s.berWindowEnd r p w)

def execTrainTimeout (r p : Fin 2) (s : State) : Host.Outcome State Fault Refusal :=
  let st := s.portState r p
  finish s (if st = pWake || st = pLock || st = pAlign then s.toWake r p else s)

/-- An alignment error: the port goes to DOWN and the error is counted (R57). -/
def State.alignError (s : State) (r p : Nat) : State :=
  if s.isUp r p then (s.inc (rRGA_CNT_SLIP r p)).upToDown r p else s

/-- A TRAIN set is received (R54, R57, R76). In LOCK one that names this port's own kind is a miswire; one of the right rate and
version from the opposite kind is acknowledged, and with ack 1 takes the port to ALIGN. In ALIGN it renews the peer's ready. In
UP it is an alignment error (log entry 15). -/
def State.trainSet (s : State) (r p : Nat) (t : Train) : State :=
  let st := s.portState r p
  let a := rRGA_PORT_STATE r p
  let valid := t.quarter = s.quarter r && t.version = 1
  if st = pUp then s.alignError r p
  else if st = pLock then
    let s := s.put a fRGA_PORT_STATE_peer_port t.port
    if t.port = p then
      if s.flag a fRGA_PORT_STATE_miswire then s else (s.put a fRGA_PORT_STATE_miswire 1).irq (portPage r p) 5
    else if valid then
      let x := s.port r p
      let s := s.setPort r p { x with peerSeen := true, peerReady := t.ready, slotSets := 0 }
      if t.ack then s.setPortState r p pAlign else s
    else s
  else if st = pAlign then
    let x := s.port r p
    if valid && t.port != p then s.setPort r p { x with peerReady := t.ready } else s
  else s

/-- A SLOT set in its place in ALIGN counts; with four of them 16 blocks apart and the peer ready the port enters UP (R76). -/
def execAlignComplete (r p : Fin 2) (s : State) : Host.Outcome State Fault Refusal :=
  finish s (if s.portState r p = pAlign && (s.port r p).peerReady then
    (s.setPort r p { s.port r p with slotSets := 4 }).enterUp r p else s)

/-- What block 0 of a received slot carries while the port is in UP (R57). -/
def State.block0 (s : State) (r p : Nat) (b : Block0) : State :=
  if !s.isUp r p then s
  else
    let x := s.port r p
    match b with
    | .frameData | .slotSet _ | .remoteFault => s.setPort r p { x with bareSlots := 0 }
    | .other => if 1 ≤ x.bareSlots then s.alignError r p else s.setPort r p { x with bareSlots := 1 }
    | .train _ | .misplacedSlot | .strayData => s.alignError r p

def execAlignmentError (r p : Fin 2) (b : Block0) (s : State) : Host.Outcome State Fault Refusal := finish s (s.block0 r p b)

/-- A reading of the elastic fill; past the limit of R59 with the transmit clock locked it is a slip. -/
def State.slip (s : State) (r p : Nat) (fill : Nat) : State :=
  let s := s.put (rRGA_PORT_STATE r p) fRGA_PORT_STATE_elastic_now fill
  let set := s.fillSet r p
  let off := if fill < set then set - fill else fill - set
  let s := if s.isUp r p then s.noteDelay r p else s
  if s.flag (rRGA_STATUS r) fRGA_STATUS_tx_clock_locked && (if s.quarter r then 1 else 2) < off && s.isUp r p then
    (s.inc (rRGA_CNT_SLIP r p)).upToDown r p
  else s

def execSlip (r p : Fin 2) (fill : Nat) (s : State) : Host.Outcome State Fault Refusal := finish s (s.slip r p fill)

def execHoldoffExpire (r p : Fin 2) (s : State) : Host.Outcome State Fault Refusal :=
  finish s (if s.portState r p = pDown then s.toWake r p else s)

/-- Remote fault sets arrive at a port in UP, or cease: the port stays in UP and reports its transmit direction as failed (R77). The span is out of
service until the peer's HEALED (R107, R112). -/
def State.remoteFault (s : State) (r p : Nat) (present : Bool) : State :=
  let a := rRGA_PORT_STATE r p
  if present then
    if s.isUp r p && !s.flag a fRGA_PORT_STATE_remote_fault_rx then
      let s := ((s.put a fRGA_PORT_STATE_remote_fault_rx 1).put a fRGA_PORT_STATE_tx_failed 1).irq (portPage r p) 4
      s.ifOn 0x28 fun s => (s.spanBreak r (s.spanStation r p) (p = 0) (p = 1)).holdSpan r p
    else s
  else (s.put a fRGA_PORT_STATE_remote_fault_rx 0).put a fRGA_PORT_STATE_tx_failed 0

def execRemoteFault (r p : Fin 2) (present : Bool) (s : State) : Host.Outcome State Fault Refusal := finish s (s.remoteFault r p present)

/-- RGA_PORT_CMD.retrain: the port goes to DOWN, and from there to WAKE when the holdoff expires (R83). -/
def portCmdFx (r p : Nat) (v : Word) (s : State) : State :=
  if bitOf v 0 && pWake ≤ s.portState r p then
    (if s.isUp r p then s.upToDown r p else s.setPortState r p pDown)
  else s

def execRetrain (q : Req) (r p : Fin 2) (v : Word) (s : State) : Host.Outcome State Fault Refusal :=
  finish s (s.writeReg q (rRGA_PORT_CMD r p) v (portCmdFx r p))

/-! ### Module access (R82) -/

/-- A write of RGA_MOD_ACC: with go = 1 an access starts, unless it is a write outside A2h bytes 0x80 to 0xF7, which returns
nack = 1 at once. A write that finds an access in progress changes nothing (log entry 16). -/
def modAccFx (r : Nat) (v : Word) (s : State) : State :=
  let a := rRGA_MOD_ACC r
  if s.flag a fRGA_MOD_ACC_go then s
  else
    let s := s.setReg a (storeWord a (s.reg a) v)
    if !bitOf v 31 then s
    else
      let addr := fldOf v fRGA_MOD_ACC_address
      let dev := fldOf v fRGA_MOD_ACC_device
      let port := fldOf v fRGA_MOD_ACC_port
      let wr := bitOf v 30
      if wr && !(dev = 1 && 0x80 ≤ addr && addr ≤ 0xF7) then (s.put a fRGA_MOD_ACC_nack 1).irq (modulePage r) 4
      else (s.put a fRGA_MOD_ACC_go 1).emit (.modBus r port dev addr (if wr then some (fldOf v fRGA_MOD_ACC_wdata) else none))

def execModuleAccess (q : Req) (r : Fin 2) (v : Word) (s : State) : Host.Outcome State Fault Refusal :=
  finish s (s.writeReg q (rRGA_MOD_ACC r) v (modAccFx r))

def execModuleAccessDone (r : Fin 2) (nack : Bool) (data : Byte) (s : State) : Host.Outcome State Fault Refusal :=
  let a := rRGA_MOD_ACC r
  finish s (if s.flag a fRGA_MOD_ACC_go then
      let s1 := (s.put a fRGA_MOD_ACC_go 0).put a fRGA_MOD_ACC_nack (b2n nack)
      let s2 := if s.flag a fRGA_MOD_ACC_write || nack then s1 else s1.put a fRGA_MOD_ACC_rdata data.toNat
      s2.irq (modulePage r) 4
    else s)

/-! ### Receiving a frame (R67 to R74, R108) -/

/-- How a received frame's tail is classed: sound, tail-marked, or wrong (R72 to R74). -/
inductive TailClass where
  | sound | marked | wrong
deriving DecidableEq, Repr

/-- The class of a tail from the received trailer and the blocks at its end (R74). -/
def tailClass (f : Frame) (crc : Word) (t : TailKind) : TailClass :=
  match t with
  | .broken => .wrong
  | .errorBlock => .marked
  | .clean => if crc = f.trailer then .sound else if crc = ~~~f.trailer then .marked else .wrong

/-- The trailer and tail with which a frame is sent on (R72, R73). -/
def tailOut (f : Frame) (crc : Word) (t : TailKind) : Word × TailKind :=
  match t, tailClass f crc t with
  | .broken, _ => (crc, .broken)
  | _, .wrong => (~~~f.trailer, .errorBlock)
  | k, _ => (crc, k)

/-- The octets that a port's take-off buffer holds (R71). -/
def takeoffOctets (l : List Taken) : Nat := l.foldl (fun n t => n + 28 + t.frame.length) 0

/-- What the take-off buffer of port p of ring r holds: frames not looked up yet, frames that wait on a miss, and cells not sent yet (R71, R147,
R173). -/
def State.takeoffUsed (s : State) (r p : Nat) : Nat :=
  takeoffOctets (s.port r p).takeoff +
    (s.flw.waiting.filter (fun w => w.inp = 2 * r + p)).foldl (fun n w => n + 28 + w.frame.length) 0 +
    (s.fabIn (2 * r + p)).foldl (fun n c => n + c.data.length + (if c.last then 4 else 0)) 0

/-- The slots that a port's transit buffer holds (R70). -/
def transitSlots (l : List Queued) : Nat := l.foldl (fun n t => n + t.frame.slots) 0

/-- Ring d is in the subtree of the lower ring (R118, RCTL_x_TREE.subtree_last). -/
def State.inSubtree (s : State) (d : Nat) : Bool :=
  let l := s.ringNo s.lowerAtt
  l ≤ d && d ≤ max l (s.get (rRCTL_TREE s.lowerAtt) fRCTL_TREE_subtree_last)

/-- A frame for ring d that arrives on attachment x goes to the other attachment (R17, R118). -/
def State.crosses (s : State) (x d : Nat) : Bool :=
  s.isBridge && d != s.ringNo x && (if x = s.lowerAtt then !s.inSubtree d else s.inSubtree d)

/-- The station of attachment x's ring toward which a frame for a node goes (R117): none when there is no route. -/
def State.nextStation (s : State) (x dest : Nat) : Option Nat :=
  let d := dest / 256
  if d = s.ringNo x then some (dest % 256)
  else
    match (List.range 64).find? (fun n =>
      let w := s.reg (rRCTL_ROUTE x n)
      fldOf w fRCTL_ROUTE_valid != 0 && fldOf w fRCTL_ROUTE_first ≤ d && d ≤ fldOf w fRCTL_ROUTE_last) with
    | some n => some (s.get (rRCTL_ROUTE x n) fRCTL_ROUTE_exit)
    | none =>
      let e := s.get (rRCTL_TREE x) fRCTL_TREE_up_exit
      if e = 0xFF then none else some e

/-- A frame begins on the lane of a port: its first slot leaves, and the port is taken for the rest (R56, R70). -/
def State.startFrame (s : State) (r p : Nat) (f : Frame) (crc : Word) (t : TailKind) : State :=
  let x := s.port r p
  (((s.setPort r p { x with inProgress := f.slots - 1 }).inc (rRGA_CNT_TX_FRAMES r p)).emit (.lane r p (.frame f crc t)))

/-- RGA_PORT_STATE.tx_buffer shows the fill of the transit buffer in slots. -/
def State.showTransit (s : State) (r p : Nat) : State :=
  s.put (rRGA_PORT_STATE r p) fRGA_PORT_STATE_tx_buffer (min 4 (transitSlots (s.port r p).transit))

/-- Puts a frame into the transit buffer of 4 slots; none when it does not fit (R70). A frame of several slots that does not fit is lost and
counted even where the buffer holds fewer than 4: R70 speaks of a full buffer only (DESIGN CHOICE, log entry 98). -/
def State.bufferTransit (s : State) (r p : Nat) (e : Queued) : Option State :=
  let x := s.port r p
  if 4 < transitSlots x.transit + e.frame.slots then none
  else some ((s.setPort r p { x with transit := x.transit ++ [e] }).showTransit r p)

/-- The trailer of a frame whose header has changed in an octet that it covers: right or inverted as it was before, else as received (R66, R72;
log entry 92). -/
def trailerAfter (old new : Frame) (crc : Word) : Word :=
  if crc = old.trailer then new.trailer else if crc = ~~~old.trailer then ~~~new.trailer else crc

/-- A frame of class 2 or 3 that would leave by a port that cannot send is wrapped: path inverted, hops set for the new path,
from the transit buffer of the port of the new path (R108; log entries 13 and 92); otherwise it is discarded and counted. -/
def State.wrap (s : State) (r p : Nat) (e : Queued) : State :=
  let f := e.frame
  if f.cls ≤ 1 then s.inc (rRCTL_CNT_TWIN_DROP r)
  else if f.dest % 256 = 255 || s.flag rRCTL_EXP fRCTL_EXP_no_wrap then s.inc (rRCTL_CNT_WRAP_DROP r)
  else
    let c := s.rc r
    let n := if c.count = 0 then 256 else c.count
    let path := 1 - f.path
    let hops := transits n path (s.station r) ((s.nextStation r f.dest).getD (f.dest % 256))
    let w := f.routed path hops
    match s.bufferTransit r (1 - p) { e with frame := w, crc := trailerAfter f w e.crc } with
    | some s' => s'.inc (rRCTL_CNT_WRAP r)
    | none => s.inc (rRCTL_CNT_WRAP_DROP r)

/-- The slots that a transit frame of n slots would take at port p, from the one after the slot last begun there, are unreserved (R183). -/
def State.nextFree (s : State) (r p n : Nat) : Bool :=
  match (s.port r p).slotAt with
  | some k => s.unreserved r (k + 1) n
  | none => true

/-- The residence of a frame that port 1 - p receives and port p sends at once, in ns: the transit delay, between the compensated stamps (R68, R69,
R223). -/
def State.residence (s : State) (r p : Nat) : Int :=
  ((s.delayNow r (1 - p) : Int) + s.rxComp (2 * r + (1 - p)) + s.txComp (2 * r + p)) / 10

/-- A transit frame leaves on port p: at once, in the next slot, when the output is free; else class 1 to 3 waits in the transit buffer and
class 0 is discarded (R70). A reserved slot is no free output for class 1 to 3 (R183, log entry 13). One that leaves at once has the residence
of the transit delay; one that waits gets its residence when it leaves (R68). -/
def State.transmit (s : State) (r p : Nat) (e : Queued) : State :=
  let x := s.port r p
  if !s.canSend r p then s.wrap r p e
  else if x.inProgress = 0 && (e.frame.cls = 0 || (x.transit.isEmpty && s.nextFree r p e.frame.slots)) then
    (s.setPort r p { x with slotAt := x.slotAt.map (· + 1) }).startFrame r p (e.frame.addCorrection (s.residence r p * 65536)).seal e.crc e.tail
  else if e.frame.cls = 0 then s.inc (rRGA_CNT_TRANSIT_DROP r p)
  else match s.bufferTransit r p e with
    | some s' => s'
    | none => s.inc (rRGA_CNT_TRANSIT_DROP r p)

/-- A forwarded frame but for its residence: hops less 1, and to a time frame the link delay of the port that received it is added
(R226), the header CRC made again (R68). -/
def forwardFrame (f : Frame) (link : Int) : Frame :=
  (({ f with w0 := toW (natPut f.w0.toNat 23 16 (f.hops - 1)) }).addCorrection (if f.kind = 7 then link * 65536 / 10 else 0)).seal

/-- A ring-control frame taken off (R85 to R88): a wrong version or unknown code is counted; a routed one passes the sequence
window of its source station; then it waits for ring control. The version and the code are checked before the window, so both twins of a bad
message count: R88 gives no order (DESIGN CHOICE, log entry 98). -/
def State.rcTakeOff (s : State) (r p : Nat) (f : Frame) (ic : Nat) : State :=
  let code := (nthD f.payload 0 0).toNat
  if nthD f.payload 1 0 != 1 || !knownRcCode code then s.inc rRCTL_CNT_BAD_MSG
  else
    let c := s.rc r
    let m : RcMsg := { port := p, src := f.src, payload := f.payload, stamp := ic }
    if f.src % 256 = 255 then s.setRc r { c with inbox := c.inbox ++ [m] }
    else
      let v := (spGet (fun _ => ({} : SeqWin)) c.windows (f.src % 256)).accept f.seq s.resync
      let c := { c with windows := spSet (fun _ => ({} : SeqWin)) c.windows (f.src % 256) v.2 }
      s.setRc r (if v.1.delivers then { c with inbox := c.inbox ++ [m] } else c)

/-- A frame waits in the take-off buffer of its port for the fabric, with its receive stamps `ic` and `tb` (R71, R74, R222). -/
def State.toFabric (s : State) (r p : Nat) (f : Frame) (tc : TailClass) (ic tb : Nat) : State :=
  let x := s.port r p
  if 4096 < s.takeoffUsed r p + 28 + f.length then s.inc (rRGA_CNT_RX_OVERFLOW r p)
  else s.setPort r p { x with takeoff := x.takeoff ++ [⟨f, decide (tc ≠ .sound), ic, tb⟩] }

/-- A frame taken off or copied at its destination: its kind and class are checked here, and kinds 0x8 and 0x9 go to ring control
(R64, R71, R74). -/
def State.takeOff (s : State) (r p : Nat) (f : Frame) (tc : TailClass) (ic tb : Nat) : State :=
  let s := s.inc (rRGA_CNT_TAKEOFF r p)
  if !kindAllows f.kind f.cls then s.inc (rRGA_CNT_MALFORMED r p)
  else if f.kind = 8 || f.kind = 9 then (if tc = .sound && s.rcOn r then s.rcTakeOff r p f ic else s)
  else s.toFabric r p f tc ic tb

/-- A frame forwarded on the opposite port (R67 row 6, R68, R72). -/
def State.forward (s : State) (r p : Nat) (f : Frame) (crc : Word) (t : TailKind) (ic : Nat) : State :=
  let o := tailOut f crc t
  (s.inc (rRGA_CNT_TRANSIT r p)).transmit r (1 - p)
    { frame := forwardFrame f ((s.linkDelay r p).getD 0), tail := o.2, crc := o.1, since := some (s.rxStamp r p ic) }

/-- The header checks of R67 items 2 to 4. -/
def malformed (p : Nat) (f : Frame) : Bool :=
  484 < f.length || f.payload.length != f.length || f.dest / 256 = 1023 || f.src / 256 = 1023 || f.path != arrivalPath p

/-- The table of R67 on a frame with an accepted header; `ic` and `tb` are the receive stamps of its block 0. A bridge adds the link delay
to a time frame that it takes over to its other ring (R226). -/
def State.routeFrame (s : State) (r p : Nat) (f : Frame) (crc : Word) (t : TailKind) (tc : TailClass) (ic tb : Nat) : State :=
  let own := s.nodeId r
  if own = some f.src then s.inc (rRGA_CNT_RETURNED r p)
  else if own = some f.dest then s.takeOff r p f tc ic tb
  else
    let copy := f.dest = s.ringNo r * 256 + 255
    if !copy && s.crosses r (f.dest / 256) then
      (s.inc (rRGA_CNT_TAKEOFF r p)).toFabric r p
        (if f.kind = 7 then f.addCorrection ((s.linkDelay r p).getD 0 * 65536 / 10) else f) tc ic tb
    else
      let s := if copy then s.takeOff r p f tc ic tb else s
      if f.hops = 0 then s.inc (rRGA_CNT_EXPIRED r p) else s.forward r p f crc t ic

/-- The reception of a frame at port p of ring r, `sub` ns after the last tick (R57, R67 to R74, R222). -/
def State.ringFrame (s : State) (r p : Nat) (f : Frame) (crc : Word) (t : TailKind) (sub : Nat) : State :=
  if !s.isUp r p then s
  else
    let s := s.setPort r p { s.port r p with bareSlots := 0 }
    if (s.armed (ringPage r) 2).isSome then ((s.disarm (ringPage r)).inc (rRGA_CNT_HDR_CRC r p)).raiseInj (20 + r) 0xFFF
    else if f.headerCrc != f.crcWanted then (s.inc (rRGA_CNT_HDR_CRC r p)).raise (20 + r)
    else if malformed p f then s.inc (rRGA_CNT_MALFORMED r p)
    else
      let s := s.inc (rRGA_CNT_RX_FRAMES r p)
      let tc := tailClass f crc t
      let s := match tc with
        | .sound => s
        | .marked => s.inc (rRGA_CNT_TAIL_MARKED r p)
        | .wrong => (s.inc (rRGA_CNT_CRC32 r p)).raise (20 + r)
      s.routeFrame r p f crc t tc (s.rawStamp sub) ((s.base 0).total + sub)

def execRingFrameReceived (r p : Fin 2) (f : Frame) (crc : Word) (t : TailKind) (sub : Fin 4) (s : State) :
    Host.Outcome State Fault Refusal := finish s (s.ringFrame r p f crc t sub)

/-! ### Loop pad and transmit clock -/

/-- The effect of a write to RGA_PORT_PAD: a value above the limit stores the limit and sets config_warning; while UP it waits
for PAD_APPLY (R61). -/
def portPadFx (r p : Nat) (v : Word) (s : State) : State :=
  let lim := if s.quarter r then 5 else 15
  let n := fldOf v fRGA_PORT_PAD_pad
  let s := (s.put (rRGA_PORT_PAD r p) fRGA_PORT_PAD_pad (min n lim))
  let s := if lim < n then s.warn (portPage r p) else s
  let x := s.port r p
  if s.isUp r p then s.setPort r p { x with padPending := true } else s

/-- A new pad takes effect in an empty slot: the elastic buffer and with it the transit delay change by the difference (R61, R69). -/
def State.padApply (s : State) (r p : Nat) : State :=
  let x := s.port r p
  if x.padPending && s.isUp r p then
    let n := s.get (rRGA_PORT_PAD r p) fRGA_PORT_PAD_pad
    let s := s.setPort r p { x with padForce := n, padPending := false }
    let a := rRGA_PORT_STATE r p
    (s.put a fRGA_PORT_STATE_elastic_now (s.get a fRGA_PORT_STATE_elastic_now + n - x.padForce)).noteDelay r p
  else s

def execPadApply (r p : Fin 2) (s : State) : Host.Outcome State Fault Refusal := finish s (s.padApply r p)

/-- The transmit clock of a ring locks to its source (R58, R59, R540). -/
def execTxClockLocked (r : Fin 2) (s : State) : Host.Outcome State Fault Refusal :=
  let s1 := (s.put (rRGA_STATUS r) fRGA_STATUS_timing_used (s.timingChoice r)).put (rRGA_STATUS r) fRGA_STATUS_tx_clock_locked 1
  finish s (s1.put rCLK_STATUS (if r.val = 0 then fCLK_STATUS_ring_a_lock else fCLK_STATUS_ring_b_lock) 1)

end Sys2Proof.Machine
end

