-- ==== Sys2Proof/Machine/Fabric.lean ====
section
/-! DEFINITION. The fabric core (R126 to R147): cells, the ingress lookup that fixes a frame's output (R132, R133, R157, R168, R178),
the aim rule (R135), rounds (R129 to R131), resequencing (R138, R139) and delivery at the outputs (R141). -/
namespace Sys2Proof.Machine

/-- The fabric works: enabled, in a power level in which the core is clocked (R33, the ladder of R529 to R532). -/
def State.fabRuns (s : State) : Bool := s.enabled 0x10 && s.pwr.level ≤ 1

/-- The island of port n is gated (CLK_GATE): Ring B, host A, host B, RGMII. -/
def State.gated (s : State) (n : Nat) : Bool :=
  let g := s.reg rCLK_GATE
  if n = 2 || n = 3 then bitOf g 1 else if n = 4 then bitOf g 2 else if n = 5 then bitOf g 3 else n = 8 && bitOf g 4

/-- Port n is in use (FAB_PORT_EN); the port of a gated island acts as if it were not (CLK_GATE). -/
def State.fabPort (s : State) (n : Nat) : Bool := (s.reg rFAB_PORT_EN).toNat.testBit n && !s.gated n

/-- The block of output o works, and its port is in use (R33, R155). -/
def State.outputOk (s : State) (o : Nat) : Bool :=
  s.fabPort o &&
    (if o < 2 then s.enabled 0x20 else if o < 4 then s.enabled 0x24 else if o = 7 then s.enabled 0x48 else if o = 8 then s.enabled 0x70
     else if o = 9 then s.enabled 0x71 || s.enabled 0x72 || s.enabled 0x73 || s.enabled 0x74
     else if 10 ≤ o && o ≤ 13 then s.enabled (0xB4 + (o - 10)) else true)

/-- A frame is discarded at ingress (R132, R155); `i` is the port it came from (R14). -/
def State.ingressDrop (s : State) (i : Nat) (f : Frame) : State := (s.discardCells i f.cells).irq 0x10 4

/-- A frame that its context has counted as sent is lost in the core (R168). -/
def State.lostSent (s : State) (h : Option HeldCtx) : State :=
  match h with
  | some h => if h.role = 1 || h.lost then s else s.countLostFlow h.flow
  | none => s

/-! ### Copies for the ring (R132 row 2, R63, R109, R117) -/

/-- A node is this hub (R20). -/
def State.isThisHub (s : State) (node : Nat) : Bool := node = 0x3FFFF || s.nodeId 0 = some node || s.nodeId 1 = some node

/-- Ring number 1023 resolved by the originating hub (R15). -/
def State.resolveRing (s : State) (node : Nat) : Nat := if node / 256 = 1023 && node != 0x3FFFF then s.ringNo 0 * 256 + node % 256 else node

/-- The attachment by which a frame for ring d leaves, from input i: the other one for a frame that a ring brought; else the one on
that ring, or the one that leads toward it (R17, R118). -/
def State.exitAtt (s : State) (i d : Nat) : Nat :=
  if i < 4 then 1 - i / 2
  else if !s.isBridge then 0
  else if d = s.ringNo 0 then 0 else if d = s.ringNo 1 then 1
  else if s.inSubtree d then s.lowerAtt else 1 - s.lowerAtt

/-- The frame's header with the sender's fields written (R168). -/
def Frame.stamped (f : Frame) (cls src dest seq : Nat) : Frame :=
  ({ f with w0 := toW (natPut f.w0.toNat 27 26 cls), w1 := toW (natPut f.w1.toNat 31 14 dest), w2 := toW (natPut f.w2.toNat 31 14 src),
            w3 := toW (natPut f.w3.toNat 15 0 seq) }).seal

/-- A node ID as it goes on the ring by attachment x: never "this hub" (R15). -/
def State.wireNode (s : State) (x node : Nat) : Nat := if node = 0x3FFFF then (s.nodeId x).getD node else node

/-- A node ID that no frame carries on a ring (R15). -/
def notOnRing (node : Nat) : Bool := node / 256 = 1023

/-- The copies of a frame for another station, each with its output (R132 row 2): none without a route, with source 29 and the count
(R117). A hub without a station number sends class 0 alone, which goes to both ports. A frame that would carry ring number 1023 on the ring
is discarded (R15). `o` is the port it came from. -/
def State.ringCopies (s : State) (i o : Nat) (h : Option HeldCtx) (f : Frame) : List (Nat × Frame) × State :=
  let x := s.exitAtt i (f.dest / 256)
  let c := s.rc x
  let f := if i < 4 then f else f.stamped f.cls (s.wireNode x f.src) f.dest f.seq
  if notOnRing f.src || notOnRing f.dest then ([], (s.ingressDrop o f).lostSent h)
  else if !c.numbered || c.count = 0 then
    if f.cls = 0 then
      ([0, 1].map (fun p => (2 * x + p, ({ f with w0 := toW (natPut f.w0.toNat 24 24 1) }).routed p 0)), s)
    else ([], (s.ingressDrop o f).lostSent h)
  else match s.nextStation x f.dest with
    | none => ([], ((s.inc (rRCTL_CNT_NOROUTE x)).raise 29).lostSent h)
    | some b =>
      let n := c.count
      let own := s.station x
      let hops (path : Nat) : Nat := if b = 255 then n - 1 else transits n path own b
      let cls := if 2 ≤ f.cls && f.kind = 1 && b = 255 && !c.broken.isEmpty then 1 else f.cls
      let f := { f with w0 := toW (natPut f.w0.toNat 27 26 cls) }
      if cls ≤ 1 then
        (([0, 1].filter (s.canSend x)).map (fun p => (2 * x + p, ({ f with w0 := toW (natPut f.w0.toNat 24 24 1) }).routed p (hops p))), s)
      else
        let p := s.choosePath x own b
        ([(2 * x + p, ({ f with w0 := toW (natPut f.w0.toNat 24 24 0) }).routed p (hops p))], s)

/-! ### Lookup (R133, R157, R168, R178, R179) -/

/-- What the lookup of a frame decides: it is gone, it stays at its source, it waits at the input, or it goes on, with what it takes of its
context when it has one (R13). -/
inductive Lookup where
  | gone
  | hold
  | wait
  | go (f : Frame) (h : Option HeldCtx)
deriving DecidableEq, Repr

/-- A frame counted at its source or at a relay (R168). -/
def State.countSent (s : State) (k seq octets : Nat) : State :=
  let s := (s.cntCtx k 0x40 1).addOctets k octets
  (s.setCtx k 0x2C 31 16 seq).setCtx k 0x78 31 0 (s.base 0).ns

/-- A frame discarded by R157 or R168 rows 1 to 3: its count, and source 14 (R180). -/
def State.refuseFrame (s : State) (cnt : Nat) : State := (s.inc cnt).raise 14

/-- Frames that wait at input i. -/
def State.waitingAt (s : State) (i : Nat) : List Delivered := s.flw.waiting.filter (fun w => w.inp = i)

/-- The frames an input may hold waiting: 1 to 4 (FLOW_PAGER_EXP). -/
def State.maxPending (s : State) : Nat := clampN 1 4 (s.get rFLOW_PAGER_EXP fFLOW_PAGER_EXP_max_pending)

/-- A frame of a user flow whose context is in slot k (R168 rows 3 and 4, R133). -/
def State.resident (s : State) (i : Nat) (d : Delivered) (k : Nat) : Lookup × State :=
  let f := d.frame
  let ring := decide (i < 4)
  if d.cipherDone then (.go f (some (s.holdCtx k)), s.markUse k)
  else if (ring && f.src != s.ctx k 4 31 14) || (!ring && s.ctxRole k != 0) then
    (.gone, (s.cntCtx k 0x70 1).refuseFrame rFLOW_CNT_FOREIGN)
  else
    let s := s.markUse k
    let h := s.holdCtx k
    if ring then
      let r := if f.cls ≤ 1 then s.windowCtx k f.seq else (.deliver, s)
      if !r.1.delivers then (.gone, r.2)
      else (.go f (some h), if s.ctxRole k = 2 then r.2.countSent k f.seq f.payload.length else r.2)
    else if s.ctx k 0x28 9 0 < f.payload.length then (.gone, s.inc rFLOW_CNT_DISABLED)
    else
      let seq := s.ctx k 0x0C 31 16
      let s := (s.setCtx k 0x0C 31 16 (seq + 1)).countSent k seq f.payload.length
      (.go (f.stamped (s.ctxClass k) (s.ctx k 4 31 14) (s.ctx k 8 31 14) seq) (some h), s)

/-- The checker's part in a lookup: one bit is corrected and counted, two raise source 13 (R180, R589). -/
def State.lookupEcc (s : State) : Bool × State :=
  match s.armed 0x30 0 with
  | none => (false, s)
  | some false => (false, (s.disarm 0x30).inc rFLOW_CNT_ECC_FIXED)
  | some true => (true, (s.disarm 0x30).raiseInj 13 0x30)

/-- The lookup of a frame of kind 0x0 (R168). A frame of the victim keeps it resident (R171). A frame that the cipher returns was past its
lookup before (R13). A flow whose context is not in a slot has its role in the entry, for row 3; its source node must wait for the fetch.
An uncorrectable entry or context disables the flow (R180). -/
def State.userLookup (s : State) (i : Nat) (d : Delivered) : Lookup × State :=
  let f := d.frame
  if d.cipherDone && d.held.isSome then (.go f d.held, s)
  else if !s.enabled 0x30 then (.gone, s.ingressDrop d.orig f)
  else
    let s := s.keepVictim f.flow
    if entState (s.ent f.flow) = 0 then (.gone, s.refuseFrame rFLOW_CNT_NO_FLOW)
    else
      let c := s.lookupEcc
      let s := if c.1 then c.2.eccDisable f.flow else c.2
      let e := s.ent f.flow
      let behind := s.flw.waiting.any (fun w => w.frame.flow = f.flow && w.inp = i)
      if c.1 then (.gone, s.inc rFLOW_CNT_DISABLED)
      else if !entEnabled e then (.gone, s.refuseFrame rFLOW_CNT_DISABLED)
      else if entState e = 1 && !behind then s.resident i d (entSlot e)
      else if 4 ≤ i && natBits e 25 24 != 0 then (.gone, s.refuseFrame rFLOW_CNT_FOREIGN)
      else if s.maxPending ≤ (s.waitingAt i).length then (.hold, s)
      else (.wait, if entState e = 1 then s else s.miss f.flow)

/-- The kinds of system flows (R157). -/
def sysKind (k : Nat) : Bool := (1 ≤ k && k ≤ 7) || (0xA ≤ k && k ≤ 0xC)

/-- The lookup of any frame (R157, R168, R178, R179). A frame of a system flow waits behind one of its source and flow that waits; each is
counted in FLOW_CNT_SYS_FULL once. -/
def State.lookup (s : State) (i : Nat) (d : Delivered) : Lookup × State :=
  let f := d.frame
  if f.flow < 0xF000 then
    if f.kind = 0 then s.userLookup i d else (.gone, s.refuseFrame rFLOW_CNT_NO_FLOW)
  else if f.flow = 0xFFFF || !sysKind f.kind then (.gone, s.refuseFrame rFLOW_CNT_NO_FLOW)
  else match sysPort f.flow with
    | none => (.gone, s.inc rFLOW_CNT_NO_FLOW)
    | some _ =>
      if i < 4 then
        let behind := s.flw.waiting.any (fun w => w.frame.flow = f.flow && w.frame.src = f.src && w.inp = i)
        match (if behind then none else s.windowSys f.src f.flow f.seq) with
        | none =>
          if s.maxPending ≤ (s.waitingAt i).length then (.hold, s) else (.wait, if d.waited then s else s.inc rFLOW_CNT_SYS_FULL)
        | some (v, s) => if f.cls ≤ 1 && !v.delivers then (.gone, s) else (.go f none, s)
      else (.go f none, s)

/-! ### Output selection (R132) -/

/-- The output that rows 3 to 6 give at this hub. -/
def localOutput (f : Frame) (h : Option HeldCtx) : Option Nat :=
  if f.kind = 0 then h.map HeldCtx.port
  else if f.kind = 4 || f.kind = 5 then sysPort f.flow
  else if f.kind = 1 || f.kind = 2 || f.kind = 3 || f.kind = 6 || f.kind = 0xA then some 6
  else if f.kind = 7 || f.kind = 0xC then some 14
  else if f.kind = 0xB then some 7
  else none

/-- The outputs of a frame after its lookup, with the frame as each takes it (R132, R15, R16). -/
def State.outputs (s : State) (i : Nat) (d : Delivered) (f : Frame) (h : Option HeldCtx) : List (Nat × Frame) × State :=
  let secured := h.any (fun h => h.role ≤ 1 && h.keyEn)
  if f.kind = 0 && secured && !d.cipherDone then ([(7, f)], s)
  else
    let f := if i < 4 then f else (f.stamped f.cls (s.resolveRing f.src) (s.resolveRing f.dest) f.seq)
    let dst := f.dest
    let own := s.isThisHub dst
    let bcastOwn := dst % 256 = 255 && (dst / 256 = s.ringNo 0 || (s.isBridge && dst / 256 = s.ringNo 1)) && !own
    let fromRing := i < 4 && dst / 256 = s.ringNo (i / 2)
    let loc := match localOutput f h with
      | some o => [(o, f)]
      | none => []
    if own || (bcastOwn && fromRing) then
      if loc.isEmpty then ([], s.ingressDrop d.orig f) else (loc, s)
    else
      let r := s.ringCopies i d.orig h f
      if bcastOwn && f.kind = 1 then (r.1 ++ loc, r.2) else r

/-- Cells of a frame join the cells at an input (R132). A cell for FP15 is refused to a Guest (R14), and one for an output that is off
is discarded (R33, R155). -/
def State.enterInput (s : State) (i : Nat) (d : Delivered) (o : Nat) (f : Frame) : State :=
  if !s.outputOk o then (s.ingressDrop d.orig f).lostSent d.held
  else if o = 15 && d.level = 0 then ((s.ingressDrop d.orig f).raise 6).lostSent d.held
  else s.setFabIn i (s.fabIn i ++ cellsOf o { d with inp := i, frame := f })

/-- The level of the sender of a frame from a ring port (R285). -/
def State.frameLevel (s : State) (i : Nat) (f : Frame) : Nat := lvlRank (s.remoteLevel f.src (i / 2))

/-- A frame as an input presents it: a ring port's level is that of its source (R285), and only FP15 keeps the port it came from (R14). -/
def State.asPresented (s : State) (i : Nat) (d : Delivered) : Delivered :=
  let d := if i < 4 then { d with level := s.frameLevel i d.frame } else d
  { d with inp := i, orig := if i = 15 then d.orig else i }

/-- What becomes of a frame that the lookup refuses, at its source: field queues and MACs count it, and their sources see it (R332, R423). -/
def State.sourceRefused (s : State) (i : Nat) (d : Delivered) : State :=
  if 10 ≤ i && i ≤ 13 then ((s.inc (rFQ_CNT_TX_REFUSED (i - 10))).irq (0xB4 + (i - 10)) 3).raise (72 + (i - 10))
  else if i = 8 || i = 9 then s.macRefused d.frame else s

/-- The ingress stage on one frame: none when the frame must stay at its source (R132, R169). -/
def State.ingress (s : State) (i : Nat) (d : Delivered) : Option State :=
  let d := s.asPresented i d
  match s.lookup i d with
  | (.hold, _) => none
  | (.gone, s) => some (s.sourceRefused i d)
  | (.wait, s) => some { s with flw := { s.flw with waiting := s.flw.waiting ++ [{ d with waited := true }] } }
  | (.go f h, s) =>
    let s := if 10 ≤ i && i ≤ 13 then s.inc (rFQ_CNT_RX_FRAMES (i - 10)) else s
    let r := s.outputs i d f h
    some (r.1.foldl (fun s e => s.enterInput i { d with held := h } e.1 e.2) r.2)

/-- Frames that waited for a flow, or for a system window, are looked up again in order (R169, R170, R179). -/
def State.retryWaiting (s : State) (p : Delivered → Bool) : State :=
  let l := s.flw.waiting.filter p
  let s := { s with flw := { s.flw with waiting := s.flw.waiting.filter (fun w => !p w) } }
  l.foldl (fun s w =>
    match s.ingress w.inp w with
    | some s' => s'
    | none => { s with flw := { s.flw with waiting := s.flw.waiting ++ [w] } }) s

/-- Frames of system flows that wait at an input look for an entry of the window cache again (R179). -/
def State.retrySystem (s : State) : State := s.retryWaiting (fun w => 0xF000 ≤ w.frame.flow)

/-! ### Delivery at the outputs (R139, R141) -/

/-- A whole frame leaves the core at output o (R141). At an output that reads from the banks its cells keep their space until the endpoint
takes it; FP15 is itself an input's source. -/
def State.deliverAt (s : State) (o : Nat) (d : Delivered) : State :=
  if !s.outputOk o || (d.discard && !atMemory o) then (s.discardCells d.orig d.frame.cells).countDropped d
  else if o < 4 && d.frame.cls != 0 then
    s.enqueue (o / 2) (o % 2) d.frame (if d.frame.kind = 7 then d.rx.map (fun t => s.rxStamp (d.inp / 2) (d.inp % 2) t.1) else none)
  else
    let s := if 8 ≤ o && o ≤ 13 then s.handOver d.frame else s
    s.setOutbox o (s.outbox o ++ [d])

/-- The frame whose cells are all there. -/
def frameOfEgress (l : List FCell) (c : FCell) : Delivered :=
  { inp := c.inp, frame := frameOfCells l, discard := l.any (fun x => x.discard), cipherDone := c.cipherDone, orig := c.orig, level := c.level,
    untrusted := c.untrusted, held := c.held, rx := c.rx, came := (l.head?.getD c).came, bank := if atMemory c.out then l.map FCell.place else [] }

/-- The cell that egress reads next in a class: one frame is completed before the next is begun (R141). -/
def EgressSt.next (e : EgressSt) : Option FCell :=
  match e.got with
  | [] => e.queue.head?
  | g :: _ => e.queue.find? (fun c => c.inp = g.inp)

/-- The egress of output o reads nothing now: a field port's buffer holds 16 frames (R329). -/
def State.egressHeld (s : State) (o : Nat) : Bool := 10 ≤ o && o ≤ 13 && 16 ≤ (s.outbox o).length

/-- Egress reads the released cells of a class at an output, and delivers each frame with its last (R141). -/
def State.egressRun : Nat → State → Nat → Nat → State
  | 0, s, _, _ => s
  | n + 1, s, o, cls =>
    let e := s.egress o cls
    match (if s.egressHeld o then none else e.next) with
    | none => s
    | some c =>
      let l := (if c.first then [] else e.got) ++ [c]
      let s := s.setEgress o cls { queue := e.queue.erase c, got := if c.last then [] else l }
      State.egressRun n (if c.last then s.deliverAt o (frameOfEgress l c) else s) o cls

/-- Egress reads what it can at an output, class 0 first (R141). -/
def State.egressPump (s : State) (o : Nat) : State :=
  (List.range 4).foldl (fun s cls => State.egressRun (s.egress o cls).queue.length s o cls) s

/-- A cell is released to egress: its credit returns to its input (R138, R139, R141). -/
def State.releaseCell (s : State) (c : FCell) : State :=
  let k := streamKey c.inp c.out c.cls
  let st := s.stream k
  let e := s.egress c.out c.cls
  let s := (s.setStream k { st with outst := st.outst - 1 }).inc (rFAB_CELLS_OUT c.out)
  (s.setEgress c.out c.cls { e with queue := e.queue ++ [{ c with came := (s.base 0).ns }] }).egressPump c.out

/-- Cells of a stream are released while the expected tag is held (R139). -/
def State.releaseRun : Nat → State → Nat → State
  | 0, s, _ => s
  | n + 1, s, k =>
    let st := s.stream k
    match st.held.find? (fun c => c.tag = st.e) with
    | none => s
    | some c =>
      State.releaseRun n ((s.setStream k { st with held := st.held.erase c, e := (st.e + 1) % 65536 }).releaseCell c) k

/-- A cell arrives at its output (R139). -/
def State.arriveCell (s : State) (c : FCell) : State :=
  let k := streamKey c.inp c.out c.cls
  let st := s.stream k
  if 64 ≤ (c.tag + 65536 - st.e) % 65536 then ((s.raise 3).inc rFAB_CNT_TAG_FAULT).releaseCell { c with discard := true }
  else State.releaseRun 65 (s.setStream k { st with held := st.held ++ [c] }) k

/-- The n-th cell, in the middles, the resequencers and the egress queues in turn, is marked discard, and with it its frame (R154). -/
def State.spoilCell (s : State) (n : Nat) : State :=
  let mark (c : FCell) : FCell := { c with discard := true }
  let hit (k : Nat) (l : List FCell) : List FCell := l.modify k mark
  let mids := s.fab.mids.foldl (fun (a : Nat × List (Nat × List FCell)) e => (a.1 + e.2.length, a.2 ++ [(e.1, if a.1 ≤ n then hit (n - a.1) e.2 else e.2)]))
    (0, [])
  let strs := s.fab.streams.foldl (fun (a : Nat × List (Nat × StreamSt)) e =>
    (a.1 + e.2.held.length, a.2 ++ [(e.1, if a.1 ≤ n then { e.2 with held := hit (n - a.1) e.2.held } else e.2)])) (mids.1, [])
  let egr := s.fab.egress.foldl (fun (a : Nat × List (Nat × EgressSt)) e =>
    (a.1 + e.2.queue.length, a.2 ++ [(e.1, if a.1 ≤ n then { e.2 with queue := hit (n - a.1) e.2.queue } else e.2)])) (strs.1, [])
  { s with fab := { s.fab with mids := mids.2, streams := strs.2, egress := egr.2 } }

/-- How many cells those are. -/
def State.spoilable (s : State) : Nat :=
  s.fab.mids.foldl (fun n e => n + e.2.length) 0 + s.fab.streams.foldl (fun n e => n + e.2.held.length) 0 +
    s.fab.egress.foldl (fun n e => n + e.2.queue.length) 0

/-- A real fault of source 1 or 2: some cell's frame is marked discard. Which one the report does not say: a free value (R154, log entry 85). -/
def State.cellFault (s : State) : State := if s.spoilable = 0 then s else s.step1.spoilCell (s.freeN % s.spoilable)

/-! ### The aim rule (R135, R136) -/

/-- An effective limit of input i for class c at a middle (R142, R143). -/
def State.fabLimit (s : State) (i c : Nat) : Nat :=
  let n := natBits (s.reg (rFAB_LIMIT i)).toNat (8 * c + 7) (8 * c)
  if c = 0 then max 1 n else n

/-- The effective cap of an output (R144, R155). -/
def State.outCap (s : State) (o : Nat) : Nat := max 16 (s.get (rFAB_OUTCAP o) fFAB_OUTCAP_cap)

/-- The first round after r in which middle m serves output o (R129). -/
def exitRound (m o r : Nat) : Nat := r + 1 + (o + 16 * (m + r + 1) - m - (r + 1)) % 16

/-- A seat is taken: one service of an output by middle m in round e (R135). -/
def State.seatTaken (s : State) (m e : Nat) : Bool :=
  s.fab.inputs.any (fun x => x.2.any (fun c => c.seated && c.mid = m && c.exit = e)) ||
    s.fab.mids.any (fun x => x.2.any (fun c => c.seated && c.mid = m && c.exit = e))

/-- Cells of input i and class c that hold space in bank m (R142). -/
def State.bankCount (s : State) (i c m : Nat) : Nat := (s.bankCells.filter (fun x => x.inp = i && x.cls = c && x.mid = m)).length

/-- The option of a class 0 cell of input i for output o that is booked before round r, with the count of options found booked: among 16
sends from round r the one with the earliest exit, or with aim_off the earliest send. The input's class 0 limit counts the cells in the bank and
those booked to it. -/
def State.aim (s : State) (i o r : Nat) : Option (Nat × Nat × Nat) × Nat :=
  let off := s.flag rFAB_EXP fFAB_EXP_aim_off
  (List.range 16).foldl (fun acc j =>
    let sr := r + j
    let m := (i + sr) % 16
    let e := exitRound m o sr
    if (s.fabIn i).any (fun c => c.send = sr + 1) || (!off && s.seatTaken m e) then (acc.1, acc.2 + 1)
    else
      let better := match acc.1 with
        | none => true
        | some b => !off && decide (e < b.2.2)
      let n := s.bankCount i 0 m + ((s.fabIn i).filter (fun c => c.send != 0 && c.mid = m)).length
      (if better && n < s.fabLimit i 0 then some (sr, m, e) else acc.1, acc.2)) (none, 0)

/-- A class 0 cell is presented to the aim rule once the cells of its stream before it have been sent, so that a stream keeps the order of its
frames; single cells that follow one another are presented together (R131, R135, R140; log entry 84). -/
def presented (before : List FCell) (c : FCell) : Bool :=
  let l := before.filter (fun x => x.cls = 0 && x.out = c.out)
  l.isEmpty || (c.first && c.last && l.all (fun x => x.first && x.last))

/-- The cell has its booking, and the aim registers have seen it (R135, R155). `q` options were found booked. -/
def State.book (s : State) (i r pos : Nat) (c : FCell) (sr m e q : Nat) : State :=
  let off := s.flag rFAB_EXP fFAB_EXP_aim_off
  let seen := if c.seen = 0 then r + 1 else c.seen
  let s := s.setFabIn i ((s.fabIn i).set pos { c with send := sr + 1, mid := m, exit := e, seated := !off, seen := seen })
  let s := s.addCnt rFAB_CNT_AIM_BLOCKED q
  let s := s.put rFAB_AIM_MAX fFAB_AIM_MAX_q (max (s.get rFAB_AIM_MAX fFAB_AIM_MAX_q) (min 255 q))
  s.put rFAB_AIM_MAX fFAB_AIM_MAX_crossing (max (s.get rFAB_AIM_MAX fFAB_AIM_MAX_crossing) (min 31 (e + 2 - seen)))

/-- The class 0 cells of input i that are presented and not booked yet are booked before round r, in order (R135). -/
def State.bookInput : Nat → State → Nat → Nat → Nat → State
  | 0, s, _, _, _ => s
  | n + 1, s, i, r, pos =>
    match (s.fabIn i)[pos]? with
    | none => s
    | some c =>
      if c.cls != 0 || c.send != 0 || !presented ((s.fabIn i).take pos) c then State.bookInput n s i r (pos + 1)
      else match s.aim i c.out r with
        | (none, _) =>
          let seen := if c.seen = 0 then r + 1 else c.seen
          State.bookInput n (s.setFabIn i ((s.fabIn i).set pos { c with seen := seen })) i r (pos + 1)
        | (some (sr, m, e), q) => State.bookInput n (s.book i r pos c sr m e q) i r (pos + 1)

/-- A cell whose booked round has passed without its send loses the booking, and is booked anew (R135; log entry 84). -/
def State.unbook (s : State) (i r : Nat) : State :=
  s.setFabIn i ((s.fabIn i).map (fun c => if c.send != 0 && c.send ≤ r then { c with send := 0, exit := 0, seated := false } else c))

/-! ### Sources and their hold (R147) -/

/-- The frames at an input's source, oldest first: the take-off buffer of a ring port (R71), what FP15 delivers (R14), else what a block of the
hub presents. -/
def State.sources (s : State) (i : Nat) : List Delivered :=
  if i < 4 then (s.port (i / 2) (i % 2)).takeoff.map (fun t => 
      { inp := i, frame := t.frame, discard := t.bad, cipherDone := false, orig := i, level := 0, rx := some (t.ic, t.tb) })
  else if i = 15 then s.outbox 15
  else s.fabSrc i

/-- The class with which a frame crosses the core: its header's, and at its source hub that of its flow (R159, R168). -/
def State.crossClass (s : State) (i : Nat) (f : Frame) : Nat :=
  if i < 4 || f.kind != 0 || entState (s.ent f.flow) = 0 then f.cls else natBits (s.ent f.flow) 27 26

/-- The input does not take a frame of this class now (R147): cells of it wait to be sent, beyond what class 0 books ahead (log entry 84). -/
def State.inputHolds (s : State) (i cls : Nat) : Bool :=
  (if cls = 0 then 16 else 1) ≤ ((s.fabIn i).filter (fun c => c.cls = cls)).length

/-- The oldest frame at an input's source of a class that the input takes. -/
def State.sourceNext (s : State) (i : Nat) : Option Nat :=
  (s.sources i).findIdx? (fun d => !s.inputHolds i (s.crossClass i d.frame))

/-- The port is held: frames wait at its source and the input takes none of them (R147). -/
def State.portHolds (s : State) (i : Nat) : Bool := !(s.sources i).isEmpty && (s.sourceNext i).isNone

/-! ### Rounds (R128 to R131) -/

/-- The trace item of a cell sent in a round (R155). -/
def traceItem (c : FCell) (round : Nat) : Nat :=
  c.tag * 2 ^ 48 + c.out * 2 ^ 44 + c.inp * 2 ^ 40 + c.cls * 2 ^ 38 + b2n c.first * 2 ^ 37 + b2n c.last * 2 ^ 36 + b2n c.discard * 2 ^ 35 +
    b2n c.cipherDone * 2 ^ 34 + b2n c.seated * 2 ^ 33 + c.data.length * 2 ^ 24 + c.mid * 16 + round % 16

/-- The trace buffer captures a cell that its filter matches, while it has room (R155). -/
def State.trace (s : State) (c : FCell) (round : Nat) : State :=
  let w := s.reg rFAB_TRACE_CFG
  if fldOf w fFAB_TRACE_CFG_enable = 1 && s.fab.trace.length < 64 && (fldOf w fFAB_TRACE_CFG_class_mask).testBit c.cls &&
      (fldOf w fFAB_TRACE_CFG_any_in = 1 || fldOf w fFAB_TRACE_CFG_in_port = c.inp) &&
      (fldOf w fFAB_TRACE_CFG_any_out = 1 || fldOf w fFAB_TRACE_CFG_out_port = c.out)
  then { s with fab := { s.fab with trace := s.fab.trace ++ [traceItem c round] } } else s

/-- Input i sends cell c to middle m in a round (R131, R138, R142): its tag, the counts, an injection of checker 0 or 1 (R154, R589). -/
def State.sendCell (s : State) (i m round : Nat) (c : FCell) : State :=
  let k := streamKey i c.out c.cls
  let st := s.stream k
  let s := s.setFabIn i ((s.fabIn i).erase c)
  let c := { c with tag := st.next, mid := m }
  let s := s.setStream k { st with next := (st.next + 1) % 65536, outst := st.outst + 1 }
  let r := match s.armed 0x10 0 with
    | some double => ((s.disarm 0x10).raiseInj (if double then 1 else 0) 0x10, c.discard || double)
    | none => match s.armed 0x10 1 with
      | some _ => ((s.disarm 0x10).raiseInj 2 0x10, true)
      | none => (s, c.discard)
  let s := r.1
  let c := { c with discard := r.2 }
  let s := s.setFabMid m (s.fabMid m ++ [c])
  let used := (s.bankCells.filter (fun x => x.mid = m)).length
  let s := s.put (rFAB_MID_OCC m) fFAB_MID_OCC_high_water (max (s.get (rFAB_MID_OCC m) fFAB_MID_OCC_high_water) (min 512 used))
  let s := s.inc (rFAB_CELLS_IN c.orig)
  (s.trace c round)

/-- The rounds per cell of a class at shedding level 1 (FAB_EXP). -/
def State.shedGap (s : State) (c : Nat) : Nat := max 1 (s.get rFAB_EXP (if c = 2 then fFAB_EXP_class2_gap else fFAB_EXP_class3_gap))

/-- Shedding lets input i send a cell of class c in this round (R150). -/
def State.shedAllows (s : State) (i c round : Nat) : Bool :=
  if c < 2 then true
  else if s.pace.shed = 2 then false
  else if s.pace.shed = 1 && 4 ≤ i then
    let last := spGet (fun _ => 0) s.fab.lastSent (i * 4 + c)
    last = 0 || s.shedGap c ≤ round + 1 - last
  else true

/-- The cell of a class 1 to 3 that input i may send to middle m, round-robin over outputs (R131, R142, R144); also whether R138 held one
back. -/
def State.candidate (s : State) (i m c : Nat) : Option FCell × Bool :=
  let start := spGet (fun _ => 15) s.fab.rr (i * 4 + c) + 1
  let full := s.fabLimit i c ≤ s.bankCount i c m
  (List.range 16).foldl (fun acc d =>
    match acc.1 with
    | some _ => acc
    | none =>
      let o := (start + d) % 16
      match (s.fabIn i).find? (fun x => x.cls = c && x.out = o) with
      | none => acc
      | some x =>
        if full || s.outCap o ≤ (s.bankCells.filter (fun y => y.out = o && y.cls != 0)).length then acc
        else if 64 ≤ (s.stream (streamKey i o c)).outst then (none, true)
        else (some x, acc.2)) (none, false)

/-- The class 0 cell that input i launches in a round: the one booked for it, while its stream has a tag to spend and the input's limit room
in that bank (R131, R138, R142, R145); also whether R138 held it back. -/
def State.launch (s : State) (i m round : Nat) : Option FCell × Bool :=
  match (s.fabIn i).find? (fun c => c.send = round + 1) with
  | none => (none, false)
  | some c =>
    if 64 ≤ (s.stream (streamKey i c.out 0)).outst then (none, true)
    else if s.fabLimit i 0 ≤ s.bankCount i 0 m then (none, false)
    else (some c, false)

/-- The cell of classes 1 to 3 that input i sends to middle m in a round (R131), and whether R138 held some cell back. -/
def State.pickUntimed (s : State) (i m round : Nat) : Option FCell × Bool :=
  [1, 2, 3].foldl (fun (a : Option FCell × Bool) c =>
    if a.1.isSome || !s.shedAllows i c round then a
    else
      let r := s.candidate i m c
      (r.1, a.2 || r.2)) (none, false)

/-- Input i sends its cell of a round (R131). The Bool says that R138 held some cell back. -/
def State.inputRound (s : State) (i round : Nat) : State × Bool :=
  let m := (i + round) % 16
  if !s.fabPort i || (s.fabIn i).isEmpty then (s, false)
  else
    let t := s.launch i m round
    match t.1 with
    | some c => (s.sendCell i m round c, false)
    | none =>
      let r := s.pickUntimed i m round
      match r.1 with
      | some c =>
        let s := s.sendCell i m round c
        let fab := s.fab
        let fab := { fab with rr := spSet (fun _ => 15) fab.rr (i * 4 + c.cls) c.out }
        let fab := { fab with lastSent := spSet (fun _ => 0) fab.lastSent (i * 4 + c.cls) (round + 1) }
        ({ s with fab := fab }, t.2 || r.2)
      | none => (s.inc (rFAB_HELD i), t.2 || r.2)

/-- Middle m sends a cell to the output it faces in a round: the oldest of the lowest class, which the output never refuses (R130). -/
def State.middleRound (s : State) (m round : Nat) : State :=
  let o := (m + round) % 16
  let best := ((s.fabMid m).filter (fun c => c.out = o)).foldl (fun b c =>
    match b with
    | none => some c
    | some x => if c.cls < x.cls then some c else some x) (none : Option FCell)
  match best with
  | none => s
  | some c => (s.setFabMid m ((s.fabMid m).erase c)).arriveCell c

/-- Something waits at an input or in a middle (R128). -/
def State.fabBusy (s : State) : Bool := s.fab.inputs.any (fun e => s.fabPort e.1 && !e.2.isEmpty) || !s.fab.mids.isEmpty

/-- One round on all 32 connections (R128 to R131): class 0 bookings, the middles' cells to the outputs, then the inputs' cells to the
middles, so that no cell crosses both halves in one round. -/
def State.fabRound (s : State) : State :=
  if !s.fabBusy then s
  else
    let k := s.fab.round
    let s := (List.range 16).foldl (fun (s : State) i => s.unbook i k) s
    let s := (List.range 16).foldl (fun s i => State.bookInput ((s.fabIn i).length + 1) s i k 0) s
    let s := (List.range 16).foldl (fun s m => s.middleRound m k) s
    let r := (List.range 16).foldl (fun (a : State × Bool) i =>
      let x := a.1.inputRound i k
      (x.1, a.2 || x.2)) (s, false)
    let s := if r.2 then r.1.inc rFAB_CNT_CREDIT_HOLD else r.1
    { s with fab := { s.fab with round := k + 1 } }

/-- Up to n rounds, until nothing is left in the core. -/
def State.drainRounds : Nat → State → State
  | 0, s => s
  | n + 1, s => if s.fabBusy then State.drainRounds n s.fabRound else s

/-- Every cell in the core is delivered while its inputs are held (R532 step 1): at most 32 rounds for each, unless the core is off or frozen. -/
def State.drainCore (s : State) : State :=
  let cells := s.fab.inputs.foldl (fun n e => n + e.2.length) 0 + s.fab.mids.foldl (fun n e => n + e.2.length) 0
  if s.fabRuns && !s.flag rFAB_TEST fFAB_TEST_freeze then State.drainRounds (32 * cells) s else s

end Sys2Proof.Machine
end

