-- ==== Sys2Proof/Machine/Bridge.lean ====
section
/-! DEFINITION. The bridge (R255 to R270) as far as it serves nothing locally: request frames, order and posted-destination table, the
failure log, completions; the semaphores (R278) with atomics at this hub and over the ring (R264); what the target engine sends back (R256,
R259, R266). -/
namespace Sys2Proof.Machine

/-! ### A bridge: 0 and 1 of the host ports, 2 + c of DMA channel c (R255, R299) -/

def brPage (b : Nat) : Nat := if b < 2 then 0x68 + b else 0x50 + (b - 2)
def brFlow (b p : Nat) : Nat := if b < 2 then 0xF000 + 0x100 * b + p else 0xF300 + 16 * (b - 2) + p
def brInput (b : Nat) : Nat := if b < 2 then 4 + b else 6
def brMaster (b : Nat) : Nat := if b < 2 then 1 + b else 0x10 + (b - 2)

/-- The node ID that the hub's own requests and answers carry (R16: a bridge hub answers to both of its IDs). -/
def State.ownNode (s : State) : Nat := (s.nodeId 0).getD 0

/-- A posted-write entry has writes in flight. -/
def inFlight (x : BrSt) : Nat := x.pdt.foldl (fun n e => n + e.n) 0

/-- A request payload (R256). -/
def reqOctets (tag master : Nat) (pf locked : Bool) (after : Option Nat) (retry lock addr len op : Nat) (data : List Byte) : List Byte :=
  beBytes 2 tag ++ [toB master, toB (b2n pf * 128 + b2n locked * 64 + b2n after.isSome * 32 + retry % 8)] ++ beBytes 2 (after.getD 0) ++
    beBytes 2 lock ++ beBytes 4 addr ++ [toB len, toB op, 0, 0] ++ data

/-- A notice payload: code, status and master of an error, tag, and the word of octets 8 to 11 (R256). -/
def noticeOctets (code st master tag word : Nat) : List Byte :=
  [toB code, 0, toB st, toB master] ++ beBytes 2 tag ++ [0, 0] ++ beBytes 4 word ++ [0, 0, 0, 0]

/-- A frame of bridge b on its flow p leaves, with the next sequence of that flow (R255). -/
def State.brSend (s : State) (b p kind cls node : Nat) (payload : List Byte) : State :=
  let x := s.br b
  let seq := if p = 0 then x.seq0 else x.seq1
  let n := (seq + 1) % 65536
  (s.setBr b (if p = 0 then { x with seq0 := n } else { x with seq1 := n })).present (brInput b)
    (mkFrame kind cls 0 0 0 node s.ownNode (brFlow b p) seq payload)

/-- The first tag from t on that is not in a list. -/
def freeTag : Nat → List Nat → Nat → Nat
  | 0, _, t => t
  | k + 1, busy, t => if busy.contains t then freeTag k busy ((t + 1) % 65536) else t

/-- A tag for a request (R255): which of those that are free is not stated, so the search starts at a free value (log entry 4). -/
def State.brTag (s : State) (b : Nat) : Nat × State :=
  let x := s.br b
  let flying := x.posted.filter (fun e => x.pdt.any (fun d => d.node = e.node && d.n != 0))
  let busy := x.outst.map NpReq.tag ++ flying.map Posted.tag
  let t := freeTag (busy.length + 1) busy (s.freeN % 65536)
  (t, s.step1.setBr b { x with issued := spSet (fun _ => false) x.issued t true })

/-- The sequence of the last posted write to a node, while it has an entry (R261). -/
def BrSt.after (x : BrSt) (node : Nat) : Option Nat := (x.pdt.find? (fun e => e.node = node)).map PdtEnt.seq

/-! ### Failures (R257, R267, R268, R270) -/

/-- The attribute register of a window, 16 for HBx_QATTR (R254). -/
def winAttr (h win : Nat) : Nat := if win = 16 then rHBx_QATTR h else rHBx_WIN_ATTR h win

/-- The last failure of a host port (R257). -/
def State.lastErr (s : State) (h st sub win tag : Nat) : State :=
  s.setReg (rHBx_LAST_ERR h) (toW (st * 2 ^ 28 + sub * 2 ^ 24 + win * 2 ^ 16 + tag % 65536))

/-- A failed non-posted request is recorded (R257, R280). -/
def State.npFail (s : State) (h st sub win tag : Nat) : State := (s.lastErr h st sub win tag).irq (brPage h) 3

/-- The lowest free entry of the failure log. -/
def State.pweFree (s : State) (h : Nat) : Option Nat :=
  (List.range 16).find? (fun n => !(s.get (rHBx_PWE_STATUS h) fHBx_PWE_STATUS_valid).testBit n)

/-- A failure of a write is logged at host port h (R257, R267 to R270); `fab` is the fabric address. -/
def State.pweLog (s : State) (h cause st sub tag fab win seq count : Nat) : State :=
  let s := s.lastErr h st sub win tag
  let s := s.incSat (rHBx_FENCE h) fHBx_FENCE_errors
  let t := s.base 0
  let s := match s.pweFree h with
    | some n =>
      let ws := [tag % 65536 * 2 ^ 16 + brMaster h * 2 ^ 8 + st % 16 * 16 + cause, fab, win * 2 ^ 27 + fab / 2 ^ 32 % 2 ^ 18, t.ns, t.sec,
        sub % 16 * 2 ^ 16 + t.sec / 2 ^ 32 % 65536, seq % 65536 * 2 ^ 16 + count % 65536, 0]
      let s := (List.range 8).foldl (fun (s : State) i => s.setReg (rHBx_PWE h n i) (toW (nthD ws i 0))) s
      let s := s.put (rHBx_PWE_STATUS h) fHBx_PWE_STATUS_valid (s.get (rHBx_PWE_STATUS h) fHBx_PWE_STATUS_valid ||| 2 ^ n)
      (s.irq (brPage h) 2).raise 44 (brPage h)
    | none => (s.incSat (rHBx_PWE_STATUS h) fHBx_PWE_STATUS_overflow).raise 45 (brPage h)
  if win ≤ 16 && s.flag (winAttr h win) fHBx_WIN_ATTR_halt_en && !s.flag (winAttr h win) fHBx_WIN_ATTR_halted then
    (s.put (winAttr h win) fHBx_WIN_ATTR_halted 1).irq (brPage h) 5
  else s

/-- A free value of 16 bits, for a field that the spec leaves without one (log entry 4). -/
def State.free16 (s : State) : Nat × State := (s.freeN % 65536, s.step1)

/-- A failed write that took no tag and no sequence of its own: those fields are free values. -/
def State.pweBare (s : State) (h cause st sub fab win : Nat) : State :=
  let t := s.free16
  let q := t.2.free16
  q.2.pweLog h cause st sub t.1 fab win q.1 1

/-- A non-posted failure of a request that took no tag: that field is a free value. -/
def State.npBare (s : State) (h st sub win : Nat) : State :=
  let t := s.free16
  t.2.npFail h st sub win t.1

/-- A posted write of a bridge has failed: logged at a host port; at a DMA channel counted, and the next fence told (R267, R299). -/
def State.postedFail (s : State) (b cause st sub tag fab win seq count : Nat) : State :=
  if b < 2 then s.pweLog b cause st sub tag fab win seq count
  else (s.inc (rDMA_CNT_POSTED_ERR (b - 2))).setDma (b - 2) { s.dma (b - 2) with postedErr := true }

/-- The number of posted writes in flight has been n: reaching 0 sets bit 4 (R269). -/
def State.fenceIrq (s : State) (b n : Nat) : State := if b < 2 && n != 0 && inFlight (s.br b) = 0 then s.irq (brPage b) 4 else s

/-- Writes of bridge b through this window are not sent (R270). -/
def State.halted (s : State) (b win : Nat) : Bool := b < 2 && win ≤ 16 && s.flag (winAttr b win) fHBx_WIN_ATTR_halted

/-- A posted write through a halted window is discarded, logged and counted (R270). -/
def State.haltDrop (s : State) (h fab win : Nat) : State := (s.inc (rHBx_CNT_HALT_DROP h)).pweBare h 1 7 2 fab win

/-! ### Completions -/

/-- A PCI Express completion status for an R28 status (R247): 0 Successful Completion, 1 Unsupported Request, 4 Completer Abort. -/
def cplStatus (st : Nat) : Nat := if st = 0 then 0 else if st = 1 then 1 else 4

/-- Pieces of a host's request are returned in address order (R247). -/
def State.returnParts : Nat → State → Nat → HostRd → State × HostRd
  | 0, s, _, r => (s, r)
  | k + 1, s, h, r =>
    match nthD r.parts r.sent none with
    | some (st, data) => State.returnParts k (s.emit (.cpl h r.id r.sent (cplStatus st) data)) h { r with sent := r.sent + 1 }
    | none => (s, r)

/-- Piece `part` of request `id` of host port h has its answer. -/
def State.hostPart (s : State) (h id part st : Nat) (data : List Byte) : State :=
  match (s.br h).reads.find? (fun r => r.id = id) with
  | none => s
  | some r =>
    let t := s.returnParts r.parts.length h { r with parts := r.parts.set part (some (st, data)) }
    let x := t.1.br h
    t.1.setBr h { x with reads := x.reads.filterMap (fun e => if e.id = id then (if t.2.sent < t.2.parts.length then some t.2 else none) else some e) }

/-- The pending quad-SPI command of host port h is done (R252). -/
def State.qspiDone (s : State) (h st sub : Nat) (data : List Byte) : State :=
  s.setBr h { s.br h with result := some (st, sub, if st = 0 then data else []), busy := false }

/-- A completion that leads to nothing further. -/
def State.completePlain (s : State) (c : Cont) (st sub : Nat) (data : List Byte) : State :=
  match c with
  | .done q => s.done q st (if st = 0 then data else [])
  | .host h id part => s.hostPart h id part st (if st = 0 then data else [])
  | .posted h fab win => if st = 0 then s else s.pweBare h 0 st sub fab win
  | .qspi h => s.qspiDone h st sub data
  | .npost _ _ => s
  | .dma c => s.setDma c { s.dma c with result := some (st, data) }
  | .atom _ => s
  | .ring _ => s
  | .here h win c => (if st = 0 then s else s.npBare h st sub win).completePlain c st sub data
  | .drop => s

/-! ### Posted writes (R261) -/

/-- The entries of a bridge's table with one for this node, when there is room: its own, a new one, or one in place of an entry with nothing
in flight that is older than 2^age_k slots. -/
def BrSt.room (x : BrSt) (node : Nat) : Option (List PdtEnt) :=
  if node % 256 = 255 || x.pdt.any (fun e => e.node = node) then some x.pdt
  else if x.pdt.length < 32 then some (x.pdt ++ [⟨node, 0, 0, false, 31⟩])
  else (x.pdt.find? (fun e => e.n = 0 && e.aged)).map (fun v => x.pdt.filter (fun e => e.node != v.node) ++ [⟨node, 0, 0, false, 31⟩])

/-- A posted write leaves (R255, R256, R261): a broadcast takes no entry. -/
def State.postSend (s : State) (b : Nat) (w : PostWait) (pdt : List PdtEnt) : State :=
  let after := (s.br b).after w.node
  let t := s.brTag b
  let s := t.2
  let x := s.br b
  let seq := x.seq0
  let bcast := decide (w.node % 256 = 255)
  let s := s.setBr b { x with
    pdt := if bcast then x.pdt else pdt.map (fun e => if e.node = w.node then ⟨e.node, seq, e.n + 1, false, w.win⟩ else e),
    posted := ⟨t.1, w.win, seq, w.node, bcast⟩ :: x.posted.filter (fun e => e.tag != t.1) }
  s.brSend b 0 1 w.cls w.node (reqOctets t.1 (brMaster b) false false after 0 0 w.addr w.data.length 0 w.data)

/-- Posted writes that waited for an entry leave, the oldest that can first; one whose window has been halted meanwhile is not sent (R270). -/
def State.postPump : Nat → State → Nat → State
  | 0, s, _ => s
  | k + 1, s, b =>
    let x := s.br b
    match x.wait.find? (fun w => s.halted b w.win || (x.room w.node).isSome) with
    | none => s
    | some w =>
      if s.halted b w.win then
        State.postPump k ((s.setBr b { x with wait := x.wait.erase w }).haltDrop b (w.node * 2 ^ 32 + w.addr) w.win) b
      else match x.room w.node with
      | none => s
      | some pdt => State.postPump k ((s.setBr b { x with wait := x.wait.erase w }).postSend b w pdt) b

/-! ### Non-posted requests (R258, R260) -/

/-- Requests that R260 does not hold: the further steps of an atomic that has its grant, and a release. -/
def NpReq.exempt (r : NpReq) : Bool := r.lock.isSome || (r.kind = 0xA && r.op = 3)

/-- Something earlier keeps a request back: a non-posted write or an atomic to its node that has not completed, or a posted write to it
that has not left (R260). -/
def BrSt.blocks (x : BrSt) (before : List NpReq) (r : NpReq) : Bool :=
  !r.exempt && ((x.outst ++ before).any (fun e => e.node = r.node && (e.kind = 2 || e.cont.isAtom)) || x.wait.any (fun w => w.node = r.node))

/-- The first request of a queue that may leave. -/
def BrSt.ready (x : BrSt) : List NpReq → List NpReq → Option NpReq
  | _, [] => none
  | before, r :: rest => if x.blocks before r then x.ready (before ++ [r]) rest else some r

/-- The frame of a request (R256, R262): a prefetch asks for the aligned 64 octets around it. -/
def State.npFrame (s : State) (b : Nat) (r : NpReq) : State :=
  let addr := if r.pf then r.addr / 64 * 64 else r.addr
  let len := if r.pf then 64 else r.len
  s.brSend b 1 r.kind r.cls r.node (reqOctets r.tag (brMaster b) r.pf r.lock.isSome ((s.br b).after r.node) r.retry (r.lock.getD 0) addr len
    r.op (if r.kind = 3 then [] else r.data))

/-- A write through a window, not a step of an atomic, that its halted window keeps from being sent (R270). -/
def State.haltStops (s : State) (b : Nat) (r : NpReq) : Bool := r.kind = 2 && r.lock.isNone && s.halted b r.win

/-- Requests leave while fewer than 32 are outstanding and the port is in use (R33, R245, R260). -/
def State.npPump : Nat → State → Nat → State
  | 0, s, _ => s
  | k + 1, s, b =>
    let x := s.br b
    if 32 ≤ x.outst.length then s
    else match x.ready [] x.queue with
      | none => s
      | some r =>
        if s.haltStops b r then
          State.npPump k (((s.setBr b { x with queue := x.queue.erase r }).npBare b 7 2 r.win).completePlain r.cont 7 2 []) b
        else
        let t := s.brTag b
        let r' := { r with tag := t.1 }
        let y := t.2.br b
        State.npPump k ((t.2.setBr b { y with outst := y.outst ++ [r'], queue := y.queue.erase r }).npFrame b r') b

/-- What a bridge can send leaves it, while its port is not held (R147). -/
def State.pump (s : State) (b : Nat) : State :=
  if s.enabled (brPage b) && !s.portHolds (brInput b) then
    let s := s.postPump ((s.br b).wait.length + 1) b
    s.npPump ((s.br b).queue.length + 1) b
  else s

/-- A request to another node joins the bridge's queue: a step of an atomic that has its grant, before the others. -/
def State.npQueue (s : State) (b : Nat) (r : NpReq) : State :=
  let x := s.br b
  (s.setBr b { x with queue := if r.exempt then r :: x.queue else x.queue ++ [r] }).pump b

/-- A posted write to another node. -/
def State.postQueue (s : State) (b : Nat) (w : PostWait) : State :=
  let x := s.br b
  (s.setBr b { x with wait := x.wait ++ [w] }).pump b

/-- No route leads to a node (R117): the hub has a number, and no station of its ring is the way. -/
def State.noRoute (s : State) (b node : Nat) : Bool :=
  let x := s.exitAtt (brInput b) (node / 256)
  let c := s.rc x
  c.numbered && c.count != 0 && (s.nextStation x node).isNone

/-- The count and source of R117 for a request that finds no route. -/
def State.noRouteEvent (s : State) (b node : Nat) : State :=
  (s.inc (rRCTL_CNT_NOROUTE (s.exitAtt (brInput b) (node / 256)))).raise 29

/-! ### What the target engine sends back (R256, R259, R266) -/

/-- The node ID with which the target engine answers a frame: the one it was addressed to, so that the bridge finds its entry. -/
def State.answerNode (s : State) (dest : Nat) : Nat := if s.isThisHub dest then dest else s.ownNode

/-- The response to a ring request f, and the entry of the response cache that waits for it. -/
def State.respond (s : State) (f : Frame) (st sub token : Nat) (data : List Byte) : State :=
  let p := f.payload
  let tag := beNat (slice p 0 2)
  let retry := (nthD p 3 0).toNat % 8
  let data := if st = 0 then data else []
  let t := s.tgt
  let s : State := { s with tgt := { t with cache := t.cache.map (fun e =>
    if e.src = f.src && e.flow = f.flow && e.tag = tag && e.status = 256 then { e with status := sub * 16 + st, data := data } else e) } }
  s.present 6 (mkFrame 4 f.cls 0 0 0 f.src (s.answerNode f.dest) f.flow f.seq
    (beBytes 2 tag ++ [toB (sub * 16 + st), toB retry] ++ beBytes 2 token ++ [0, 0, toB data.length, 0, 0, 0, 0, 0, 0, 0] ++ data))

/-- The entry of the system window cache of a source flow, changed (R179, R266). -/
def State.mapSys (s : State) (src flow : Nat) (g : SysWin → SysWin) : State :=
  { s with flw := { s.flw with sys := s.flw.sys.map (fun e => if e.src = src && e.flow = flow then g e else e) } }

/-- A notice from the target engine in class 1. -/
def State.notice (s : State) (src node flow seq : Nat) (payload : List Byte) : State :=
  s.present 6 (mkFrame 5 1 0 0 0 node src flow seq payload)

/-- A ring request is done: a posted write counts toward the next ack or brings an error notice, others bring a response. -/
def State.tgtDone (s : State) (f : Frame) (st sub : Nat) (data : List Byte) : State :=
  if f.kind = 1 then
    if st = 0 then s.mapSys f.src f.flow (fun e => { e with posted := e.posted + 1, ackSeq := f.seq, node := s.answerNode f.dest })
    else
      let p := f.payload
      s.notice (s.answerNode f.dest) f.src f.flow f.seq (noticeOctets 1 st (nthD p 2 0).toNat (beNat (slice p 0 2)) (beNat (slice p 8 4)))
  else s.respond f st sub 0 data

/-- The ack of a source's posted writes on `flow`, with the count since the last one, sent on flow `on` from one of this hub's node IDs
(R255, R266). The flow's window entry counts no posted writes then, and a frame that waits for an entry may take it (R179). -/
def State.sendAck (s : State) (src flow on seq node : Nat) : State :=
  let n := ((s.flw.sys.find? (fun e => e.src = src && e.flow = flow)).map SysWin.posted).getD 0
  ((s.mapSys src flow (fun e => { e with posted := 0 })).notice node src on seq (noticeOctets 2 0 0 0 n)).retrySystem

/-! ### Atomics (R264, R265) -/

/-- The atomic `id` of a bridge. -/
def State.atom? (s : State) (id : Nat) : Option Atom := (s.br (id % 2)).atoms.find? (fun a => a.id = id)

def State.putAtom (s : State) (a : Atom) : State :=
  let x := s.br (a.id % 2)
  s.setBr (a.id % 2) { x with atoms := x.atoms.map (fun e => if e.id = a.id then a else e) }

def State.dropAtom (s : State) (id : Nat) : State :=
  let x := s.br (id % 2)
  s.setBr (id % 2) { x with atoms := x.atoms.filter (fun e => e.id != id) }

/-- What an atomic writes over an old value: nothing where a CAS does not match (R264). -/
def Atom.value (a : Atom) (old : Nat) : Option Nat :=
  if a.op = 1 then some ((old + a.operand) % 2 ^ (8 * a.len))
  else if a.op = 2 then some (a.operand % 2 ^ (8 * a.len))
  else if old = a.compare % 2 ^ (8 * a.len) then some (a.operand % 2 ^ (8 * a.len)) else none

/-- An atomic ends: the failure is recorded, and it completes with the old value. -/
def State.atomEnd (s : State) (a : Atom) (st sub : Nat) : State :=
  let s := s.dropAtom a.id
  let s := if st = 0 then s else s.npBare (a.id % 2) st sub a.win
  s.completePlain a.ret st sub a.old

/-- The steps 3 to 8 of an atomic at this hub, which holds the semaphore (R264): a read, the value, a write. -/
def State.atomHere (s : State) (a : Atom) : State :=
  let q : Req := ⟨1 + a.id % 2, 0, 0⟩
  let r := s.memReadReq q a.addr a.len
  let s := r.2.2
  if r.1 != 0 then s.atomEnd a 7 5
  else
    let a := { a with old := r.2.1 }
    match a.value (leNat r.2.1) with
    | none => s.atomEnd a 0 0
    | some v =>
      let w := s.memWriteReq q a.addr (leBytes a.len v)
      if w.1 = 0 then w.2.atomEnd a 0 0
      else
        let s := w.2.pweBare (a.id % 2) 3 w.1 0 (a.name * 2 ^ 32 + a.addr) a.win
        s.atomEnd { a with old := [] } 7 5

/-! ### Semaphores (R278, R265) -/

/-- The grants that follow when semaphore n is free: its queue in order; an atomic of this hub takes its steps at once and releases. -/
def State.semNext : Nat → State → Nat → State
  | 0, s, _ => s
  | k + 1, s, n =>
    let x := s.sem n
    match x.waiters with
    | [] => s.setSem n {}
    | (q, c) :: rest =>
      let token := if q.master = 0x30 then s.freeN % 65536 else 0
      let s := if q.master = 0x30 then s.step1 else s
      let s := (s.setSem n { holder := some q, waiters := rest, token := token }).irq 0x05 2
      match c with
      | .ring f => s.respond f 0 0 token []
      | .atom id =>
        let s := match s.atom? id with
          | some a => s.atomHere a
          | none => s
        State.semNext k (s.setSem n { s.sem n with holder := none, token := 0 }) n
      | _ => s

/-- What a request for a semaphore comes to (R278). -/
inductive SemAns where
  | granted | mine | queued | already | full | busy
deriving DecidableEq, Repr

/-- A request for semaphore n by a requester, op 1, or 3 if it is free only (R278). -/
def State.semAsk (s : State) (n : Nat) (q : Req) (try_ : Bool) (c : Cont) : SemAns × State :=
  let q := q.who
  let x := s.sem n
  if x.holder = some q then (.mine, s)
  else if x.waiters.any (fun w => w.1 = q) then (.already, s)
  else if x.holder.isNone then (.granted, (s.setSem n { x with waiters := x.waiters ++ [(q, c)] }).semNext 10 n)
  else if try_ then (.busy, s)
  else if x.waiters.length < 8 then (.queued, s.setSem n { x with waiters := x.waiters ++ [(q, c)] })
  else (.full, s.inc rARB_CNT_SEM_FULL)

/-- The next atomic at this hub of host port h asks for bridge_sem; one that cannot wait for it fails (R264, R278). -/
def State.kickAtom : Nat → State → Nat → State
  | 0, s, _ => s
  | k + 1, s, h =>
    let l := (s.br h).atoms.filter (fun a => a.node.isNone)
    match l with
    | [] => s
    | a :: _ =>
      if a.step != 0 then s
      else
        let n := s.get rARB_CFG fARB_CFG_bridge_sem
        let s := s.putAtom { a with step := 1 }
        let r := s.semAsk n ⟨1 + h, 0, 0⟩ false (.atom a.id)
        match r.1 with
        | .granted => State.kickAtom k r.2 h
        | .mine =>
          let s := r.2.atomHere a
          State.kickAtom k ((s.setSem n { s.sem n with holder := none, token := 0 }).semNext 10 n) h
        | .queued => r.2
        | _ => State.kickAtom k (r.2.atomEnd { a with old := [] } 7 5) h

/-- After a change of a semaphore, atomics that waited behind one another go on. -/
def State.kickAtoms (s : State) : State :=
  let s := s.kickAtom ((s.br 0).atoms.length + 1) 0
  let s := s.kickAtom ((s.br 1).atoms.length + 1) 1
  s.kickAtom ((s.br 0).atoms.length + 1) 0

/-- Semaphore n is given up, and granted to the next. -/
def State.semFree (s : State) (n : Nat) : State :=
  ((s.setSem n { s.sem n with holder := none, token := 0 }).semNext 10 n).kickAtoms

/-- A release, or leaving the queue (R278): true where the requester neither holds nor waits. -/
def State.semDrop (s : State) (n : Nat) (q : Req) : Bool × State :=
  let q := q.who
  let x := s.sem n
  if x.holder = some q then (false, s.semFree n)
  else if x.waiters.any (fun w => w.1 = q) then
    let s := s.setSem n { x with waiters := x.waiters.filter (fun w => w.1 != q) }
    let s := (x.waiters.filter (fun w => w.1 = q)).foldl (fun (s : State) w =>
      match w.2 with
      | .atom id => match s.atom? id with
        | some a => s.atomEnd { a with old := [] } 7 5
        | none => s
      | _ => s) s
    (false, s.kickAtoms)
  else (true, s.refuse 0x05 fPG_STATUS_claim_refused)

/-- The token of a locked request holds bridge_sem (R265). -/
def State.tokenHolds (s : State) (q : Req) (token : Nat) : Bool :=
  let x := s.sem (s.get rARB_CFG fARB_CFG_bridge_sem)
  x.holder = some q.who && x.token = token

/-! ### Remote atomics, step by step (R264) -/

/-- A step of a remote atomic as a request of the bridge. -/
def atomReq (a : Atom) (kind op : Nat) (lock : Option Nat) (data : List Byte) (c : Cont) : NpReq :=
  { kind := kind, node := a.node.getD 0, addr := if kind = 0xA then 0 else a.addr, len := if kind = 0xA then 1 else a.len, data := data,
    win := a.win, cls := a.cls, lock := lock, op := op, cont := c }

/-- The release of step 7. -/
def State.atomRelease (s : State) (a : Atom) (sem : Byte) : State := s.npQueue (a.id % 2) (atomReq a 0xA 3 none [sem] .drop)

/-- The answer to a step of a remote atomic: status, subcode, octets and the token of a grant. -/
def State.atomStep (s : State) (id st sub token : Nat) (data : List Byte) : State :=
  match s.atom? id with
  | none => s
  | some a =>
    let h := id % 2
    let sem := toB (s.get rARB_CFG fARB_CFG_bridge_sem)
    if st != 0 then
      let s := if st = 7 && sub = 4 then s else s.atomRelease a sem
      s.atomEnd { a with old := [] } 7 5
    else if a.step = 1 then
      (s.putAtom { a with step := 3, token := token }).npQueue h (atomReq a 3 0 (some token) [] (.atom id))
    else if a.step = 3 then
      let a := { a with old := data }
      match a.value (leNat data) with
      | some v => (s.putAtom { a with step := 6 }).npQueue h (atomReq a 2 0 (some a.token) (leBytes a.len v) (.atom id))
      | none => (s.atomRelease a sem).atomEnd a 0 0
    else (s.atomRelease a sem).atomEnd a 0 0

/-- A request completes, wherever its completion goes. -/
def State.complete (s : State) (c : Cont) (st sub : Nat) (data : List Byte) (token : Nat := 0) : State :=
  match c with
  | .atom id => s.atomStep id st sub token data
  | .ring f => s.tgtDone f st sub data
  | c => s.completePlain c st sub data

/-! ### Ring requests at a semaphore: kind 0xA (R278) -/

/-- An acquire or release that came over the ring: answered at once, or with its grant. -/
def State.ringSem (s : State) (f : Frame) (q : Req) (op n : Nat) : State :=
  if op = 3 then
    let r := s.semDrop n q
    r.2.respond f 0 0 0 []
  else if op = 1 || op = 2 then
    let r := s.semAsk n q (op = 2) (.ring f)
    match r.1 with
    | .granted => r.2.kickAtoms
    | .queued => r.2
    | .mine => r.2.respond f 0 0 (r.2.sem n).token []
    | _ => r.2.respond f 0 0 0 []
  else s.respond f 0 0 0 []

end Sys2Proof.Machine
end

