-- ==== Sys2Proof/Machine/FamArb.lean ====
section
/-! DEFINITION. The arbiter (R274 to R278, R281): semaphore commands, heartbeats, and the Warden's clears. -/
namespace Sys2Proof.Machine

/-! ### Semaphores (R278, R281) -/

/-- ARB_SEM_CMD written: op 1 requests, 2 releases or leaves, 3 requests if free; other codes are ignored. -/
def semCmdFx (q : Req) (v : Word) (s : State) : State :=
  let n := fldOf v fARB_SEM_CMD_sem
  let op := fldOf v fARB_SEM_CMD_op
  if op = 1 || op = 3 then (s.semAsk n q (op = 3) .drop).2.kickAtoms
  else if op = 2 then (s.semDrop n q).2
  else s

/-- ARB_SEM_FORCE written: a Warden releases a semaphore. -/
def semForceFx (v : Word) (s : State) : State :=
  if bitOf v 31 && (s.sem (natBits v.toNat 5 0)).holder.isSome then s.semFree (natBits v.toNat 5 0) else s

/-- ARB_CLAIM_CLEAR written: every presented claim of a resource becomes 0 (R275). -/
def claimClearFx (v : Word) (s : State) : State :=
  let i := natBits v.toNat 5 0
  if bitOf v 31 && i < 56 then s.redecide i {} 2 else s

/-- A ring requester's hold of semaphore n has lasted bridge_hold_us (R265). -/
def State.semExpire (s : State) (n : Nat) : State :=
  match (s.sem n).holder with
  | some q =>
    if q.master = 0x30 && s.enabled 0x05 then (((s.inc rARB_CNT_SEM_EXPIRED).irq 0x05 7).raise 39).semFree n else s
  | none => s

/-! ### Heartbeats (R276, R277) -/

/-- The miss count and forced of host h in ARB_HB_STATUS. -/
def hbMissFld (h : Nat) : Fld := ⟨8 * h + 3, 8 * h⟩
def hbForcedFld (h : Nat) : Fld := ⟨8 * h + 4, 8 * h + 4⟩

/-- miss_count and period_ms of host h; 0 acts as 1. -/
def State.hbLimit (s : State) (h : Nat) : Nat := max 1 (s.get (rARB_HB_CFG h) fARB_HB_CFG_miss_count)
def State.hbPeriod (s : State) (h : Nat) : Nat := max 1 (s.get (rARB_HB_CFG h) fARB_HB_CFG_period_ms)

/-- The claims of host h are taken from it (R276): as this list of resources is decided anew, one by one. -/
def State.dropClaims (s : State) (h : Nat) : State :=
  (List.range 56).foldl (fun (s : State) i =>
    let c := s.claim i
    let c' := if h = 0 then { c with hostA := 0 } else { c with hostB := 0 }
    if c' = c then s else s.redecide i c' 1) s

/-- Every semaphore that host h holds or waits for is given up (R276). -/
def State.dropSems (s : State) (h : Nat) : State :=
  let q : Req := ⟨1 + h, 0, 0⟩
  (List.range 64).foldl (fun (s : State) n =>
    let x := s.sem n
    if x.holder = some q || x.waiters.any (fun w => w.1 = q) then (s.semDrop n q).2 else s) s

/-- Every DMA channel that host h owns is freed (R296). -/
def State.dropChannels (s : State) (h : Nat) : State :=
  (List.range 16).foldl (fun (s : State) c => if (s.dmaOwner c).any (fun o => o.master = 1 + h) then s.dmaFree c true else s) s

/-- A silent host is forced: its claims, semaphores and channels go (R276, R296). -/
def State.forceHost (s : State) (h : Nat) : State :=
  let s := ((s.put rARB_HB_STATUS (hbForcedFld h) 1).inc rARB_CNT_FORCED).irq 0x05 3
  (((s.raise (36 + h)).dropClaims h).dropSems h).dropChannels h

/-- A heartbeat window of host h ends (R276, R277). -/
def State.hbWindow (s : State) (h : Nat) : State :=
  if !s.flag (rARB_HB_CFG h) fARB_HB_CFG_en || !s.enabled 0x05 then s
  else
    let b := s.beat h
    let lim := s.hbLimit h
    let next : BeatSt := { beaten := false, good := 0, period := s.hbPeriod h }
    if s.flag rARB_HB_STATUS (hbForcedFld h) then
      if !b.beaten then s.setBeat h next
      else if lim ≤ b.good + 1 then
        ((s.setBeat h next).put rARB_HB_STATUS (hbForcedFld h) 0).put rARB_HB_STATUS (hbMissFld h) 0
      else s.setBeat h { next with good := b.good + 1 }
    else
      let s := s.setBeat h next
      if b.beaten then s.put rARB_HB_STATUS (hbMissFld h) 0
      else
        let n := min 15 (s.get rARB_HB_STATUS (hbMissFld h) + 1)
        let s := s.put rARB_HB_STATUS (hbMissFld h) n
        if lim ≤ n then s.forceHost h else s

/-- ARB_HB_A or ARB_HB_B written. -/
def hbFx (h : Nat) (_v : Word) (s : State) : State := s.setBeat h { s.beat h with beaten := true }

/-- ARB_HB_CFG_A or _B written: en from 0 to 1 begins the first window with no miss; a new period waits for the next window (R276). -/
def hbCfgFx (h : Nat) (v : Word) (s : State) : State :=
  let a := rARB_HB_CFG h
  let was := s.flag a fARB_HB_CFG_en
  let n := fldOf v fARB_HB_CFG_period_ms
  let s := s.store a (fldPut v fARB_HB_CFG_period_ms (min 1000 n))
  if !was && s.flag a fARB_HB_CFG_en then
    let s := if s.flag rARB_HB_STATUS (hbForcedFld h) then s else s.put rARB_HB_STATUS (hbMissFld h) 0
    s.setBeat h { beaten := false, good := 0, period := s.hbPeriod h }
  else s

/-! ### What the registers of page ARB show (R281) -/

def State.semHeld (s : State) (i : Nat) : Word :=
  toW ((List.range 32).foldl (fun m n => m + b2n (s.sem (32 * i + n)).holder.isSome * 2 ^ n) 0)

def State.semState (s : State) (q : Req) (n : Nat) : Word :=
  let x := s.sem n
  toW ((match x.holder with | some r => r.master | none => 0xFF) * 2 ^ 24 + x.waiters.length * 2 ^ 16 +
    b2n (x.waiters.any (fun w => w.1 = q.who)) * 2 + b2n (decide (x.holder = some q.who)))

def State.semNode (s : State) (n : Nat) : Word :=
  match (s.sem n).holder with
  | some r => if r.master = 0x30 then toW (r.node * 2 ^ 14) else 0
  | none => 0

/-! ### The rows -/

/-- ARB_SEM_CMD with the op of the row. -/
def semOp (v : Word) (op : Nat) : Word := fldPut v fARB_SEM_CMD_op op

def execSemRequest (q : Req) (v : Word) (s : State) : Host.Outcome State Fault Refusal :=
  finish s (s.writeReg q rARB_SEM_CMD (semOp v 1) (semCmdFx q))

def execSemRelease (q : Req) (v : Word) (s : State) : Host.Outcome State Fault Refusal :=
  finish s (s.writeReg q rARB_SEM_CMD (semOp v 2) (semCmdFx q))

def execSemTry (q : Req) (v : Word) (s : State) : Host.Outcome State Fault Refusal :=
  finish s (s.writeReg q rARB_SEM_CMD (semOp v 3) (semCmdFx q))

def execSemForce (q : Req) (v : Word) (s : State) : Host.Outcome State Fault Refusal :=
  finish s (s.writeReg q rARB_SEM_FORCE (v ||| 0x80000000) semForceFx)

def execClaimClear (q : Req) (v : Word) (s : State) : Host.Outcome State Fault Refusal :=
  finish s (s.writeReg q rARB_CLAIM_CLEAR (v ||| 0x80000000) claimClearFx)

def execSemHoldExpire (n : Fin 64) (s : State) : Host.Outcome State Fault Refusal := finish s (s.semExpire n.val)

def execHeartbeat (q : Req) (h : Fin 2) (v : Word) (s : State) : Host.Outcome State Fault Refusal :=
  finish s (s.writeReg q (rARB_HB h.val) v (hbFx h.val))

def execHeartbeatEnable (q : Req) (h : Fin 2) (v : Word) (s : State) : Host.Outcome State Fault Refusal :=
  finish s (s.writeReg q (rARB_HB_CFG h.val) (v ||| 0x80000000) (hbCfgFx h.val))

def execHeartbeatWindowEnd (h : Fin 2) (s : State) : Host.Outcome State Fault Refusal := finish s (s.hbWindow h.val)

end Sys2Proof.Machine
end

