-- ==== Sys2Proof/Machine/FamHeader.lean ====
section
/-! DEFINITION. The page header (R29 to R41, R274): the effects of writes to its registers, and the rows that carry them. -/
namespace Sys2Proof.Machine

/-- The bridge, the job rings or the field queues of a page that has just been enabled go on with what they
hold (R33). -/
def State.pumpPage (s : State) (p : Nat) : State :=
  if p = 0x68 || p = 0x69 then s.pump (p - 0x68) else if 0x50 ≤ p && p ≤ 0x5F then s.pump (p - 0x50 + 2)
  else if p = 0x48 then (s.jrStart 64 0).jrStart 64 1
  else if 0xB4 ≤ p && p ≤ 0xB7 then (s.fqSend (p - 0xB4)).fqRestart (p - 0xB4) else s

/-- A ring's block is enabled or disabled: its enabled ports start from MODULE, or all go to OFF (R33, R76); ring control starts where it
can (R89); the fabric's tags and windows are 0 at enable (R139). -/
def State.ringEnable (s : State) (p : Nat) (on : Bool) : State :=
  if p = 0x20 || p = 0x24 then
    [0, 1].foldl (fun s q => let r := (p - 0x20) / 4
      if !on then s.portOff r q else if s.flag (rRGA_PORT_CTRL r q) fRGA_PORT_CTRL_enable then s.toModule r q else s) s
  else if p = 0x28 && on then (s.rcStart 0).rcStart 1
  else if p = 0x10 && on then s.fabStart
  else s

/-- A host that has been forced may not present a claim until it has beaten miss_count windows (R277). -/
def State.claimShut (s : State) (q : Req) : Bool :=
  (q.master = 0x01 || q.master = 0x02) && bitOf (s.reg rARB_HB_STATUS) (8 * (q.master - 1) + 4)

/-- A write of PG_CTRL (R31 to R33, R40, R336, R339, R361): enable, which a unit refuses while its queue cannot serve it, the expert bit with its unlock code, and a block reset, which comes last. -/
def State.pgCtrl (s : State) (q : Req) (p : Nat) (v : Word) : State :=
  let a := rPG_CTRL p
  let was := s.flag a fPG_CTRL_enable
  let on := fldOf v fPG_CTRL_enable = 1
  let s := if on && !was && !s.mayEnable p then s.warn p else s.put a fPG_CTRL_enable (fldOf v fPG_CTRL_enable)
  let s := if was && !on then (s.onDisable p).ringEnable p false else if !was && s.flag a fPG_CTRL_enable then ((s.onEnable p).pumpPage p).ringEnable p true else s
  let s :=
    if fldOf v fPG_CTRL_expert = 0 then s.put a fPG_CTRL_expert 0
    else if s.flag a fPG_CTRL_expert then s
    else if fldOf v fPG_CTRL_unlock = 0x5A && (!s.flag (rPG_LOCK p) fPG_LOCK_lock || s.levelOf q = .warden) then s.put a fPG_CTRL_expert 1
    else s.expertRefused p
  if fldOf v fPG_CTRL_block_reset = 1 && hasBlockReset p then s.blockReset p else s

/-- A write of PG_CLAIM (R37, R274): the writer's presented claim is replaced and the resource decided again. -/
def State.pgClaim (s : State) (q : Req) (p : Nat) (v : Word) : State :=
  match resourceOf p with
  | none => s
  | some i =>
    let q := if 0x10 ≤ q.master && q.master ≤ 0x1F then (s.dmaOwner (q.master - 0x10)).getD q else q
    let c := s.claim i
    let n := v.toNat
    if s.claimShut q then s.refuse p fPG_STATUS_claim_refused
    else if q.master = 0x01 then s.redecide i { c with hostA := n } 0
    else if q.master = 0x02 then s.redecide i { c with hostB := n } 0
    else if q.master = 0x00 then s.redecide i { c with anise := n } 0
    else if q.master = 0x30 then
      let mine : RingClaim := { node := q.node, claim := n, att := q.att }
      if c.ring.any (fun e => e.node = q.node) then
        s.redecide i { c with ring := c.ring.map (fun e => if e.node = q.node then mine else e) } 0
      else
        let free := if c.ring.length < 2 then some c.ring
          else match c.ring with
            | [x, y] => if x.claim = 0 then some [y] else if y.claim = 0 then some [x] else none
            | l => some l
        match free with
        | some l => s.redecide i { c with ring := l ++ [mine] } 0
        | none => s.refuse p fPG_STATUS_claim_refused
    else s.refuse p fPG_STATUS_claim_refused

/-- A write of PG_FAULT_INJ (R36, R500, R589): an absent checker leaves the register unchanged; checker 5 drives a pair equal for one
collector cycle at once; the others arm. Which of a page's pairs FLT_WIRE then names is not stated: a free value (log entry 4). -/
def State.pgInject (s : State) (p : Nat) (v : Word) : State :=
  let a := rPG_FAULT_INJ p
  let c := fldOf v fPG_FAULT_INJ_checker
  if !(checkersOf p).testBit c then s
  else
    let s := (s.put a fPG_FAULT_INJ_checker c).put a fPG_FAULT_INJ_double (fldOf v fPG_FAULT_INJ_double)
    if fldOf v fPG_FAULT_INJ_arm = 0 then s
    else if c = 5 then
      let src := s.freeN % 128
      s.step1.ifOn 0x04 fun s => (((s.setReg rFLT_WIRE (toW (2 ^ 31 + src))).inc rFLT_CNT_WIRE).irq 0x04 11).raiseInj 127 p
    else s.put a fPG_FAULT_INJ_arm 1

/-- A write of PG_LOCK.lock = 1 (R38). -/
def State.pgLock (s : State) (q : Req) (p : Nat) (v : Word) : State :=
  if fldOf v fPG_LOCK_lock = 1 && !s.flag (rPG_LOCK p) fPG_LOCK_lock then
    (s.put (rPG_LOCK p) fPG_LOCK_lock 1).put (rPG_LOCK p) fPG_LOCK_locker q.master
  else s

/-- A write of PG_FAULT: valid = 1 clears every field of the page's view (R35). -/
def State.pgFault (s : State) (p : Nat) (v : Word) : State := if bitOf v 31 then s.setReg (rPG_FAULT p) 0 else s

/-- The effect of an accepted write to a header register. -/
def headerFx (q : Req) (p off : Nat) (v : Word) (s : State) : State :=
  if off = 0x004 then s.pgCtrl q p v
  else if off = 0x014 then s.irqBits p v
  else if off = 0x018 then s.pgFault p v
  else if off = 0x01C then s.pgInject p v
  else if off = 0x020 then s.pgClaim q p v
  else if off = 0x024 then s.pgLock q p v
  else s.store (p * 0x1000 + off) v

def execBlockReset (q : Req) (p : Nat) (v : Word) (s : State) : Host.Outcome State Fault Refusal :=
  finish s (s.writeReg q (rPG_CTRL p) v (headerFx q p 0x004))

def execBlockEnable (q : Req) (p : Nat) (v : Word) (s : State) : Host.Outcome State Fault Refusal :=
  finish s (s.writeReg q (rPG_CTRL p) v (fun v s => headerFx q p 0x004 v s))

def execExpertUnlock (q : Req) (p : Nat) (v : Word) (s : State) : Host.Outcome State Fault Refusal :=
  finish s (s.writeReg q (rPG_CTRL p) v (fun v s => s.pgCtrl q p v))

def execPgIrqForce (q : Req) (p : Nat) (v : Word) (s : State) : Host.Outcome State Fault Refusal :=
  finish s (s.writeReg q (rPG_IRQ_FORCE p) v (headerFx q p 0x014))

def execPgFaultClear (q : Req) (p : Nat) (v : Word) (s : State) : Host.Outcome State Fault Refusal :=
  finish s (s.writeReg q (rPG_FAULT p) v (headerFx q p 0x018))

def execPgFaultInj (q : Req) (p : Nat) (v : Word) (s : State) : Host.Outcome State Fault Refusal :=
  finish s (s.writeReg q (rPG_FAULT_INJ p) v (headerFx q p 0x01C))

def execPgClaim (q : Req) (p : Nat) (v : Word) (s : State) : Host.Outcome State Fault Refusal :=
  finish s (s.writeReg q (rPG_CLAIM p) v (headerFx q p 0x020))

def execPgLock (q : Req) (p : Nat) (v : Word) (s : State) : Host.Outcome State Fault Refusal :=
  finish s (s.writeReg q (rPG_LOCK p) v (headerFx q p 0x024))

end Sys2Proof.Machine
end

