-- ==== Sys2Proof/Machine/TimeMsg.lean ====
section
/-! DEFINITION. Time messages over the ring (R225 to R235): SYNC and UPLINK as sent and as received, and the TUNNEL of IEEE 1588 event messages with
its residences. -/
namespace Sys2Proof.Machine

/-! ### SYNC and UPLINK (R225, R229) -/

/-- A SYNC or UPLINK payload (R225). -/
def State.timePayload (s : State) (code : Nat) : List Byte :=
  let b := s.base 0
  let root := s.isRoot
  [toB code, 1, toB (b2n s.locked + 2 * b2n (root && s.flag (rTB_CFG 0) fTB_CFG_root_follow)),
    toB (if root then 0 else s.get (rTB_STATUS 0) fTB_STATUS_level)] ++
    beBytes 8 s.servo.island ++ beBytes 6 b.sec ++ beBytes 4 b.ns ++ beBytes 2 (s.get (rTB_SESSION 0) fTB_SESSION_number) ++
    beBytes 16 (if root then s.uid else s.servo.srcUid)

/-- SYNC by a ring master, UPLINK by a bridge that is not the master of its lower ring (R229), presented at FP14. -/
def State.syncSend (s : State) (x : Nat) : State :=
  let ready := s.flag (rRCTL_STATUS x) fRCTL_STATUS_ring_ready
  match s.nodeId x with
  | none => s
  | some me =>
    if !ready || !s.enabled 0x40 || s.flag (rTB_EXP 0) fTB_EXP_sync_off then s
    else
      let send (code station : Nat) (s : State) : State :=
        let f := mkFrame 7 1 0 0 0 (s.ringNo x * 256 + station) me 0xF4F0 s.servo.seq0 (s.timePayload code)
        ({ s with servo := { s.servo with seq0 := (s.servo.seq0 + 1) % 65536 } }).present 14 f
      if s.rcState x = rcMaster then send 1 255 s
      else if s.isBridge && x = s.lowerAtt then send 2 (s.get (rRCTL_MASTER x) fRCTL_MASTER_master_station) s
      else s

/-- The source of TB0 is a master with this unique ID: offsets gathered from another source of the epoch go (R230). -/
def State.setSource (s : State) (uid : Nat) : State :=
  if s.servo.srcUid = uid then s else { s with servo := { s.servo with srcUid := uid, sum := 0, n := 0 } }

/-- The offset of a time message in 1/655360 ns (R227); the stamp is the raw capture at the port, in nanoseconds of TB0. -/
def State.timeOffset (s : State) (x p : Nat) (f : Frame) (stamp : Nat) : Int :=
  let origin : Int := (beNat (slice f.payload 12 6) * 1000000000 + beNat (slice f.payload 18 4) : Nat)
  (s.rxStamp x p stamp - origin * 10 - (s.linkDelay x p).getD 0) * 65536 - f.correction * 10

/-- The lock is gained as soon as enough good updates are there (R231). -/
def State.lockIfGood (s : State) : State :=
  let good := s.servo.good
  let cnt := max 1 (s.get (rTB_CFG 0) fTB_CFG_lock_count)
  if cnt ≤ good then s.lockGain else s

/-- A time message acts, the link delay of its port known: from its source it is gathered for the servo and decides the lock
(R227, R228, R231). A change of the source's master opens a session (R220). -/
def State.actTime (s : State) (x p : Nat) (f : Frame) (stamp : Nat) : State :=
  let code := (nthD f.payload 0 0).toNat
  let kind := s.sourceKind
  let fromSource := x = s.timeAtt && code = kind && (kind = 1 || kind = 2) &&
    (kind = 2 || f.src = s.ringNo x * 256 + s.get (rRCTL_MASTER x) fRCTL_MASTER_master_station)
  if !fromSource then s
  else
    let uid := if kind = 1 then s.masterUid x else beNat (slice f.payload 24 16)
    let srcLocked := (nthD f.payload 2 0).toNat.testBit 0
    let s := if s.servo.srcUid != 0 && s.servo.srcUid != uid then s.openSession 0 else s
    let s := s.setSource uid
    let v := s.servo
    let s := { s with servo := { v with srcLocked := srcLocked, sum := v.sum + s.timeOffset x p f stamp, n := v.n + 1 } }
    let s := s.inc (rTB_CNT_SYNC 0)
    let s := s.setReg (rTB_SOURCE 0) (toW (f.src * 2 ^ 14 + kind))
    let s := (s.put (rTB_STATUS 0) fTB_STATUS_level ((nthD f.payload 3 0).toNat + 1)).put (rTB_STATUS 0) fTB_STATUS_source_valid 1
    if !srcLocked then s.lockLost
    else s.lockIfGood

/-! ### IEEE 1588 messages (R234, R235; field positions by IEEE 1588, log entry 39) -/

/-- The offset of an IEEE 1588 message in an Ethernet frame, with the offset of its UDP checksum when it is carried by UDP over IPv4 (R234). -/
def ptpOffset (l : List Byte) : Nat × Option Nat :=
  if beNat (slice l 12 2) = 0x0800 then
    let ip := (nthD l 14 0).toNat % 16 * 4
    (14 + ip + 8, some (14 + ip + 6))
  else (14, none)

/-- A frame that carries a message of type t: layer 2, or UDP over IPv4 to the port of event or general messages. -/
def isPtp (l : List Byte) (t : Nat) : Bool :=
  let o := ptpOffset l
  (beNat (slice l 12 2) = 0x88F7 || (beNat (slice l 12 2) = 0x0800 && nthD l 23 0 = 17 && (beNat (slice l (o.1 - 6) 2) = 319 || beNat (slice l (o.1 - 6) 2) = 320))) &&
    (nthD l o.1 0).toNat % 16 = t

/-- A message with a time added to its correctionField, its UDP checksum 0. -/
def addResidence (l : List Byte) (time : Int) : List Byte :=
  let o := ptpOffset l
  let c := sxInt 64 (beNat (slice l (o.1 + 8) 8)) + time
  let l := patchAt l (o.1 + 8) (beBytes 8 (toTwos 64 c))
  match o.2 with
  | some u => patchAt l u [0, 0]
  | none => l

/-- The residence of an event message, as posted (R235). -/
def residenceOf (l : List Byte) (time : Int) : Residence :=
  let o := (ptpOffset l).1
  { type := (nthD l o 0).toNat % 16, seq := beNat (slice l (o + 30) 2), port := slice l (o + 20) 10, time := time }

/-- A two-step residence is posted to Anise, at once or when a handover has ended (R235, R561). -/
def State.postResidence (s : State) (r : Residence) : State :=
  if s.flag rFWU_STATUS fFWU_STATUS_handover_active then { s with boot := { s.boot with heldRes := s.boot.heldRes ++ [r] } }
  else ({ s with servo := { s.servo with residences := s.servo.residences ++ [r] } }).emit (.residence r)

/-- The posted residence that a general message matches: a Follow_Up that of its Sync, a Delay_Resp that of its Delay_Req (R235). -/
def State.matching (s : State) (l : List Byte) : Option Residence :=
  let o := (ptpOffset l).1
  let seq := beNat (slice l (o + 30) 2)
  if isPtp l 8 then s.servo.residences.find? (fun r => r.type = 0 && r.seq = seq && r.port = slice l (o + 20) 10)
  else if isPtp l 9 then s.servo.residences.find? (fun r => r.type = 1 && r.seq = seq && r.port = slice l (o + 44) 10)
  else none

/-- A general message at the management MAC takes the residence that it matches (R235). -/
def State.takeResidence (s : State) (l : List Byte) : List Byte × State :=
  match s.matching l with
  | some r => (addResidence l r.time, { s with servo := { s.servo with residences := s.servo.residences.erase r } })
  | none => (l, s)

/-- A TUNNEL at the peer: the management MAC sends the event message, `sub` ns after the last tick; its residence is the ring correction, link_in
and the MAC's transmit stamp less the ring receive stamp. One-step adds it to correctionField; two-step posts it (R234, R235, log entry 39).
Pdelay_Req and Pdelay_Resp pass without correction. -/
def State.actTunnel (s : State) (x p : Nat) (f : Frame) (ic sub : Nat) : State :=
  let l := slice f.payload 24 (beNat (slice f.payload 22 2))
  let type := (nthD l (ptpOffset l).1 0).toNat % 16
  let tx : Int := (s.rawStamp sub : Int) * 10 + s.txComp 4
  let res : Int := f.correction + ((s.linkDelay x p).getD 0 + tx - s.rxStamp x p ic) * 65536 / 10
  if type = 2 || type = 3 then s.macLine 0 l
  else if (nthD f.payload 2 0).toNat.testBit 0 then (s.macLine 0 l).postResidence (residenceOf l res)
  else s.macLine 0 (addResidence l res)

/-- A time message that Anise has received through port p of attachment x, with its raw receive stamps `ic` and `tb`: another version
or an unknown code is counted (R225); while the port's link delay is unknown the message is held (R96). -/
def State.timeIn (s : State) (x p : Nat) (f : Frame) (ic tb sub : Nat) : State :=
  let code := (nthD f.payload 0 0).toNat
  if nthD f.payload 1 0 != 1 || code = 0 || 3 < code then s.inc (rTB_CNT_BAD 0)
  else if (s.linkDelay x p).isNone then
    let c := s.rc x
    s.setRc x { c with heldTime := c.heldTime ++ [(p, f, ic, tb)] }
  else if code = 3 then s.actTunnel x p f ic sub
  else s.actTime x p f tb

/-- Time message f of port p of attachment x among what the fabric has delivered to Anise: a TUNNEL, or another; `ic` names its raw receive
stamp in the island count where one is given (R222). -/
def State.timeFrame (s : State) (tunnel : Bool) (x p : Nat) (f : Frame) (ic : Option Nat) : Option Delivered :=
  (s.outbox 14).find? (fun d => d.frame = f && d.inp = 2 * x + p && f.kind = 7 && (nthD f.payload 0 0 = 3) = tunnel &&
    ic.all (fun t => d.rx.any (fun r => r.1 = t)))

/-- Anise takes it (R71, R228, R234); one whose discard mark is set is dropped (R74, R141). A message that has not been delivered changes nothing. -/
def State.takeTime (s : State) (tunnel : Bool) (x p : Nat) (f : Frame) (ic : Option Nat) (sub : Nat) : State :=
  match s.timeFrame tunnel x p f ic with
  | none => s
  | some d =>
    let s := s.setOutbox 14 ((s.outbox 14).erase d)
    match d.rx with
    | some (ic, tb) => if d.discard || !s.enabled 0x40 then s else s.timeIn x p f ic tb sub
    | none => s

end Sys2Proof.Machine
end

