-- ==== Sys2Proof/Machine/Numbering.lean ====
section
/-! DEFINITION. Ring control, what several commands share: mastery, counting and numbering (R94 to R98), READY (R89, R98), kept
passes (R103, R115), time messages (R225 to R231), healing (R111, R112), sleep (R120). -/
namespace Sys2Proof.Machine

/-! ### Mastery -/

/-- The registers that show the master of attachment x; a change of master is signalled (R125). -/
def State.setMaster (s : State) (x : Nat) (claim : Nat) (station : Nat) : State :=
  let c := s.rc x
  let new := decide (c.masterClaim ≠ claim)
  let s := s.setRc x { c with masterClaim := claim }
  let s := s.setReg (rRCTL_MASTER x) (toW (claim / 2 ^ 128 * 65536 + station))
  let s := [0, 1, 2, 3].foldl (fun s n => s.setReg (rRCTL_MASTER_UID x n) (toW (claim / 2 ^ (96 - 32 * n)))) s
  if new then s.irq 0x28 6 else s

/-- The own station number of attachment x, the hub numbered. -/
def State.takeNumber (s : State) (x n : Nat) : State :=
  (s.setRc x { s.rc x with numbered := true }).put (rRCTL_STATUS x) fRCTL_STATUS_station n

/-- N in RCTL_x_STATUS.stations, at most 255 (R94). -/
def State.setCount (s : State) (x n : Nat) : State :=
  (s.setRc x { s.rc x with count := n }).put (rRCTL_STATUS x) fRCTL_STATUS_stations (min n 255)

/-- The transit delay on a path: delay_max of the port that receives it (R96). -/
def State.transitDelay (s : State) (x path : Nat) : Int := s.get (rRGA_PORT_DELAY x (1 - path)) fRGA_PORT_DELAY_delay_max

/-- The offset registers show the offsets in 0.1 ns (R97). -/
def State.showOffsets (s : State) (x : Nat) : State :=
  let c := s.rc x
  let s := match c.off0 with
    | some i => s.setReg (rRCTL_OFFSET0 x) (toW (toTwos 32 i))
    | none => s
  match c.off1 with
  | some i => s.setReg (rRCTL_OFFSET1 x) (toW (toTwos 32 i))
  | none => s

/-- A pad written by ring control to a port of its hub (R61, R98, R111). -/
def State.writePad (s : State) (r p n : Nat) : State :=
  let s := s.put (rRGA_PORT_PAD r p) fRGA_PORT_PAD_pad n
  if s.isUp r p then s.setPort r p { s.port r p with padPending := true } else s

/-! ### Numbering (R95 to R98) -/

/-- A NUMBER sent by this hub (R95). -/
def State.sendNumber (s : State) (x station path : Nat) (kept opn : Bool) (uid : Nat) (fwd bwd : Int) : State :=
  s.sendLocal x 0x8 (NumberMsg.octets ⟨station, path, kept, opn, uid, fwd, bwd, s.transitDelay x (1 - path)⟩)

/-- The block time of R49 in 0.1 ns. -/
def State.blockTime (s : State) (x : Nat) : Int := blockTenths (s.quarter x)

/-- The least number of blocks that hold a time. -/
def ceilDiv (a b : Int) : Int := -((-a) / b)

/-- The loop of a path in 0.1 ns, from the REPORT of the station before the master on that path (R97, R98). -/
def State.loopTime (s : State) (x path : Nat) : Int :=
  let c := s.rc x
  let m := min c.count 255
  let lastStation := if path = 0 then m - 1 else 1
  let off : Int := match c.reports.find? (fun r => r.station = lastStation) with
    | some r => if path = 0 then r.off0 else r.off1
    | none => 0
  off + ((s.linkDelay x (1 - path)).getD 0) + s.transitDelay x path

/-- The pads of one path, station by station from the master on in path order: at most `lim` each; what is left over when they do not
fit (R98). -/
def spreadPad (lim : Nat) : List Nat → Nat → List (Nat × Nat) × Nat
  | [], left => ([], left)
  | k :: ks, left =>
    let t := min lim left
    let r := spreadPad lim ks (left - t)
    ((k, t) :: r.1, r.2)

/-- The stations of a ring of m from the master on in the order of a path. -/
def pathOrder (m path : Nat) : List Nat :=
  if path = 0 then List.range m else 0 :: (List.range (m - 1)).reverse.map (· + 1)

/-- The ring's pads and loops: whether they fit, the pad octet of each station, and the loops in slots (R98). -/
def State.computePads (s : State) (x : Nat) : Bool × List Nat × Nat × Nat :=
  let c := s.rc x
  let m := min c.count 255
  if c.openNum then (true, List.replicate m 0, 0, 0)
  else
    let one (path : Nat) : (List (Nat × Nat) × Nat) × Nat :=
      let blocks := (ceilDiv (s.loopTime x path) (s.blockTime x)).toNat
      let pad := (16 - blocks % 16) % 16
      (spreadPad (if s.quarter x then 5 else 15) (pathOrder m path) pad, (blocks + pad) / 16)
    let p0 := one 0
    let p1 := one 1
    let at' (l : List (Nat × Nat)) (k : Nat) : Nat := ((l.find? (fun e => e.1 = k)).map (·.2)).getD 0
    (p0.1.2 = 0 && p1.1.2 = 0, (List.range m).map (fun k => at' p0.1.1 k * 16 + at' p1.1.1 k), p0.2, p1.2)

/-- READY sent with the pads and loops given, and what it makes of this hub (R89, R98, R100). -/
def State.announceReady (s : State) (x : Nat) (pads : List Nat) (l0 l1 : Nat) : State :=
  let c := s.rc x
  let s := s.sendRouted x 0x9 255 (ReadyMsg.octets ⟨min c.count 255, c.openNum, l0, l1, pads⟩)
  let s := s.setRc x { s.rc x with pads := pads, reports := [], expect := [], pass := false }
  (s.showOpen x).setLoops x l0 l1

/-- Every REPORT of a numbering has arrived: pads, READY, TABLE, ring_ready and the first SYNC, or ELECT when the pads do not fit (R89, R98, R100,
R229). -/
def State.finishNumbering (s : State) (x : Nat) : State :=
  let r := s.computePads x
  if !r.1 then (s.enterElect x (s.flag (rRCTL_STATUS x) fRCTL_STATUS_kept) 6).raise 27
  else
    let own := nthD r.2.1 0 0
    let s := s.setRc x { s.rc x with broken := [], outOfService := [] }
    let s := s.announceReady x r.2.1 r.2.2.1 r.2.2.2
    let s := if (s.rc x).openNum then s else (s.writePad x 1 (own / 16)).writePad x 0 (own % 16)
    let s := s.setRc x { s.rc x with off0 := some 0, off1 := some 0 }
    let s := (s.showOffsets x).setRcState x rcMaster
    let s := (s.put (rRCTL_STATUS x) fRCTL_STATUS_heal_deferred 0).put (rRCTL_STATUS x) fRCTL_STATUS_order_broken 0
    let s := (s.showOpen x).put (rRGA_STATUS x) fRGA_STATUS_timing_used (if s.get (rRGA_CFG x) fRGA_CFG_timing = 3 then 0 else s.get (rRGA_STATUS x) fRGA_STATUS_timing_used)
    ((s.ringReadySet x).distribute x 0xFFFFFFFF).anise (0, x, 0) fun s => s.syncSend x

/-- Every REPORT of a kept pass has arrived: READY again, with the pads that stand (R103, R115); TABLE as well where two masters have met
(R113 step 7); after a quiet takeover, re-admission (R199). -/
def State.finishPass (s : State) (x : Nat) : State :=
  let c := s.rc x
  let m := min c.count 255
  let w := s.reg (rRCTL_LOOP x)
  let s := s.announceReady x ((c.pads ++ List.replicate m 0).take m) (fldOf w fRCTL_LOOP_loop0) (fldOf w fRCTL_LOOP_loop1)
  let s := s.setRc x { s.rc x with passTable := false, tookOver := false }
  let s := if c.passTable then s.distribute x 0xFFFFFFFF else s
  if c.tookOver then s.readmitAll else s

/-- The REPORTs are complete. -/
def State.checkReports (s : State) (x : Nat) : State :=
  let c := s.rc x
  if c.expect.all (fun k => c.reports.any (fun r => r.station = k)) then
    if s.rcState x = rcNumber then s.finishNumbering x
    else if s.rcState x = rcMaster && c.pass then s.finishPass x
    else s
  else s

/-- Counting is complete: N is known, the master is station 0 and numbers the others (R94, R95). `c0` is the END count of path 0. -/
def State.countDone (s : State) (x n : Nat) (opn : Bool) (c0 : Nat) : State :=
  let many := decide (255 < n)
  let s := if many then s.raise (24 + x) else s
  let s := (s.setCount x n).setMaster x s.ownClaim 0
  let s := (s.takeNumber x 0).setRcState x rcNumber
  let m := min n 255
  let exp := if !opn || !many then (List.range (m - 1)).map (· + 1) else (List.range (min c0 254)).map (· + 1)
  let c := s.rc x
  let near := (List.range m).map (fun k => (k, (k + m - 1) % m, (k + 1) % m))
  let c := { c with openNum := opn, reports := [], expect := exp, neighbours := near }
  let s := s.setRc x { c with uids := [(0, s.uid)], off0 := some 0, off1 := some 0 }
  let s := s.showOpen x
  let s := if n ≤ 1 then s
    else
      let s := s.sendNumber x 1 0 false opn s.uid 0 0
      if !opn then s.sendNumber x 0 1 true false s.uid 0 0
      else if many then s else s.sendNumber x (n - 1) 1 false true s.uid 0 0
  s.checkReports x

/-- Both END counts of an open ring are in (R94). -/
def State.checkEnds (s : State) (x : Nat) : State :=
  let c := s.rc x
  match decide (s.rcState x = rcCount), c.end0, c.end1 with
  | true, some a, some b =>
    let n := 1 + a + b
    s.countDone x (if a = 255 || b = 255 || 255 < n then 256 else n) true a
  | _, _, _ => s

/-- The hub starts counting (R94). -/
def State.startCount (s : State) (x : Nat) : State :=
  let s := s.setRcState x rcCount
  let s := s.setRc x { s.rc x with end0 := if s.isUp x 0 then none else some 0, end1 := if s.isUp x 1 then none else some 0 }
  let s := [0, 1].foldl (fun s p => if s.isUp x p then s.sendLocal x 0x8 (countOctets 0x02 0 p s.uid) else s) s
  s.checkEnds x

/-- Stations that the master takes as absent: both their spans are broken (R103). -/
def State.absent (s : State) (x k : Nat) : Bool :=
  let c := s.rc x
  let n := if c.count = 0 then 1 else c.count
  c.broken.any (fun b => b.station = k) && c.broken.any (fun b => b.station = (k + n - 1) % n)

/-- A NUMBER pass with kept = 1 over the ring as it stands (R95, R103, R113, R115). A master that took the ring over knows its stations by N. -/
def State.keptPass (s : State) (x : Nat) : State :=
  let c := s.rc x
  let own := s.station x
  let known := if c.uids.all (fun e => e.1 = own) then List.range (min c.count 255) else c.uids.map (·.1)
  let s := s.setRc x { c with reports := [], expect := known.filter (fun k => k != own && !s.absent x k), pass := true }
  let opn := s.flag (rRCTL_STATUS x) fRCTL_STATUS_open
  let s := (s.sendNumber x 0 0 true opn s.uid 0 0).sendNumber x 0 1 true opn s.uid 0 0
  s.checkReports x

/-- A station's REPORT to the master, once its offsets and the link delays of its ports that are UP are known (R96, R97). -/
def State.tryReport (s : State) (x : Nat) : State :=
  let c := s.rc x
  match c.heldReport, c.off0, c.off1 with
  | true, some a, some b =>
    if (!s.isUp x 0 || c.linkE.isSome) && (!s.isUp x 1 || c.linkW.isSome) then
      let s := s.setRc x { c with heldReport := false, off0 := none, off1 := none }
      s.sendRouted x 0x9 (s.get (rRCTL_MASTER x) fRCTL_MASTER_master_station)
        (Report.octets ⟨s.station x, s.uid, a, b, (c.linkW).getD 0, (c.linkE).getD 0⟩)
    else s
  | _, _, _ => s

/-- A NUMBER acts, the link delay of its port known (R95 to R97). -/
def State.actNumber (s : State) (x p : Nat) (m : NumberMsg) : State :=
  let st := s.rcState x
  if m.path != arrivalPath p || m.uid = s.uid || !(st = rcElect || st = rcAwait || st = rcMember) then s
  else
    let fresh := !m.kept && st = rcElect && !s.flag (rRCTL_STATUS x) fRCTL_STATUS_kept
    let s := if fresh then
        let c := s.rc x
        let claim := if c.best % 2 ^ 128 = m.uid then c.best else m.uid
        let s := (s.setMaster x claim 0).setRcState x rcAwait
        let s := s.setRc x { s.rc x with openNum := m.openRing, numbered := false }
        if m.station < 255 then s.takeNumber x m.station else s
      else s
    if !fresh && !m.kept && !(st = rcAwait && s.station x = m.station) then s
    else
      let q := 1 - m.path
      let link : Int := (s.linkDelay x p).getD 0
      let f := m.fwd + link + s.transitDelay x m.path
      let b : Option Int := if m.openRing then some (m.bwd - link - m.transit) else none
      let c := s.rc x
      let c := if m.path = 0 then { c with off0 := some f, off1 := b.or c.off1 } else { c with off1 := some f, off0 := b.or c.off0 }
      let s := s.setRc x { c with heldReport := true }
      let s := s.showOffsets x
      let next := if m.kept then m.station else if m.path = 0 then m.station + 1 else m.station - 1
      let s := if m.kept || 1 ≤ next then
          let back : Int := if q = 0 then (c.off0).getD 0 else (c.off1).getD 0
          s.sendNumber x (min next 255) m.path m.kept m.openRing m.uid f back
        else s
      if (s.rc x).numbered then s.tryReport x else s

/-! ### Link delays (R96) -/

/-- The link delay of a port is known: NUMBERs, the REPORT and time messages held for it act (R96). -/
def State.linkReady (s : State) (x p : Nat) : State :=
  let c := s.rc x
  let nums := c.heldNumber.filter (fun e => e.1 = p)
  let times := c.heldTime.filter (fun e => e.1 = p)
  let s := s.setRc x { c with heldNumber := c.heldNumber.filter (fun e => e.1 != p), heldTime := c.heldTime.filter (fun e => e.1 != p) }
  let s := nums.foldl (fun s e => s.actNumber x p e.2) s
  let s := times.foldl (fun s e => s.timeIn x p e.2.1 e.2.2.1 e.2.2.2 0) s
  s.tryReport x

/-! ### Healing (R111, R112) -/

/-- A direction of a span is no longer broken. -/
def dropBroken (l : List Broken) (b : Broken) : List Broken :=
  (l.map (fun e => if e.station = b.station then ⟨e.station, e.path0 && !b.path0, e.path1 && !b.path1⟩ else e)).filter (fun e => e.path0 || e.path1)

/-- The directions of a span are restored at this hub; RCTL_x_SPAN shows what is still broken (R125). -/
def State.restoreSpan (s : State) (x : Nat) (b : Broken) : State :=
  let c := s.rc x
  let s := s.setRc x { c with broken := dropBroken c.broken b }
  let s := match (s.rc x).broken.head? with
    | none => s.setReg (rRCTL_SPAN x) 0xFF
    | some e => s.showSpan x e.station
  (s.showOpen x).irq 0x28 5

/-- A healed span is kept out of service: shown, and source 27 (R111, R124, RCTL_EXP.hold_span). -/
def State.deferHeal (s : State) (x : Nat) : State := (s.put (rRCTL_STATUS x) fRCTL_STATUS_heal_deferred 1).raise 27

/-- Both hubs of a span that is UP again advertise the same master: this hub sets the pad of its receiving port, `pad` whole blocks, and
sends HEALED, or the heal is deferred (R111). The arriving direction's grid closes here: `step`, by which the arriving grid is later than the own
one, gives its loop (R112; log entry 94). -/
def State.heal (s : State) (x p pad : Nat) (step : Int) : State :=
  if s.flag rRCTL_EXP fRCTL_EXP_hold_span || (if s.quarter x then 5 else 15) < pad then s.deferHeal x
  else
    let b : Broken := ⟨s.spanStation x p, p = 1, p = 0⟩
    let l := ((step + pad * s.blockTime x) / (slotTenths (s.quarter x) : Int)).toNat
    let w := s.reg (rRCTL_LOOP x)
    let s := ((s.writePad x p pad).restoreSpan x b).inc (rRCTL_CNT_HEAL x)
    let s := s.setLoops x (if p = 1 then l else fldOf w fRCTL_LOOP_loop0) (if p = 0 then l else fldOf w fRCTL_LOOP_loop1)
    s.sendRouted x 0x9 255 (breakOctets 0x13 b.station b.path0 b.path1)

/-! ### Sleep (R120) -/

/-- The ring goes to sleep at this hub: 16 SLEEP sets on each port that is UP, electrical idle, ring control in SLEEP and the hub in
L3 (R120). -/
def State.sleepRing (s : State) (x : Nat) : State :=
  let s := [0, 1].foldl (fun s p =>
    if s.isUp x p then
      let s := (List.range 16).foldl (fun s i => s.emit (.lane x p (.set (.sleep (15 - i))))) s
      ((s.emit (.lane x p .idle)).leaveUp x p pWake).toWake x p
    else s) (s.setRcState x rcSleep)
  let s := s.ringReadyClear x
  let s := s.put (rRCTL_STATUS x) fRCTL_STATUS_last_cause 9
  (s.setRc x { s.rc x with sleepEpochs := none }).enterLevel 3

end Sys2Proof.Machine
end

