-- ==== Sys2Proof/Machine/FamRctl.lean ====
section
/-! DEFINITION. The meanings of the ring-control commands (04_ring_operation.md, R84 to R125). -/
namespace Sys2Proof.Machine

/-- The message acted on leaves the inbox. -/
def State.popInbox (s : State) (x code : Nat) : State :=
  let c := s.rc x
  match c.inbox.findIdx? (fun m => nthD m.payload 0 0 = toB code) with
  | some i => s.setRc x { c with inbox := c.inbox.eraseIdx i }
  | none => s

/-- The message from port p that its source node and its raw receive stamp (R222) name is taken out of the inbox; none where it does not wait
there. -/
def State.takeMsg (s : State) (x p code src stamp : Nat) : Option State :=
  let c := s.rc x
  match c.inbox.findIdx? (fun m => m.port = p && nthD m.payload 0 0 = toB code && m.src = src && m.stamp = stamp) with
  | some i => some (s.setRc x { c with inbox := c.inbox.eraseIdx i })
  | none => none

/-! ### Training sets (R54) -/

/-- An ordered set is received outside a frame. One of no defined kind is ignored and counted; a SLOT set in ALIGN is one of the four that
ALIGN_COMPLETE waits for (R54, R57, R76, R77, R120). -/
def State.ordSetIn (s : State) (r p : Nat) (t : OrdSet) : State :=
  if s.portState r p < pWake then s
  else match t.kind with
    | .train t => s.trainSet r p t
    | .remoteFault => s.remoteFault r p true
    | .sleep => s.ifOn 0x28 fun s => if s.rcState r = rcOff || s.rcState r = rcSleep then s else s.drainCore.sleepRing r
    | .slot _ =>
      let x := s.port r p
      if s.portState r p = pAlign then s.setPort r p { x with slotSets := min 4 (x.slotSets + 1) } else s
    | .unknown => s.inc (rRGA_CNT_UNKNOWN_SET r p)

def execTrain (r p : Fin 2) (t : OrdSet) (s : State) : Host.Outcome State Fault Refusal := finish s (s.ordSetIn r p t)

/-! ### Enable -/

/-- The attachment's enable changes (R89). -/
def State.rcEnableChange (s : State) (x : Nat) (was : Bool) : State :=
  let now := s.rcEnabled x
  if now && !was then (if s.ringNo x = 1023 then s.warn 0x28 else s.rcStart x)
  else if was && !now then s.rcStop x
  else s

/-- A write of RCTL_CTRL. -/
def rctlCtrlFx (v : Word) (s : State) : State :=
  let a := s.rcEnabled 0
  let b := s.rcEnabled 1
  ((s.store rRCTL_CTRL v).rcEnableChange 0 a).rcEnableChange 1 b

def execRctlEnable (q : Req) (v : Word) (s : State) : Host.Outcome State Fault Refusal := finish s (s.writeReg q rRCTL_CTRL v rctlCtrlFx)

/-! ### Claims (R91, R92, R102, R111, R113) -/

/-- The sender of a CLAIM is unnumbered: no ring is ready there and it names no master. -/
def ClaimMsg.unnumbered (m : ClaimMsg) : Bool := !m.ready && m.master = 0xFF

/-- A higher claim is adopted as the best one and sent on (R89, R91). -/
def State.adoptClaim (s : State) (x : Nat) (m : ClaimMsg) : State :=
  let c := s.rc x
  if c.best < m.claim then (s.setRc x { c with best := m.claim, bestReady := m.readyMaster }).sendClaim x else s

/-- Back to ELECT for a higher claim, which is adopted (R89). -/
def State.electFor (s : State) (x : Nat) (kept : Bool) (m : ClaimMsg) : State := (s.enterElect x kept 5).adoptClaim x m

/-- The number of an absent station whose recorded neighbours are the joiner's present ones: the reporting neighbour on its side, and on
the other a station that is not itself absent (R103). -/
def State.vacancy (s : State) (x station side : Nat) : Option Nat :=
  ((s.rc x).neighbours.find? (fun e => s.absent x e.1 &&
    (if side = 0 then e.2.1 = station && !s.absent x e.2.2 else e.2.2 = station && !s.absent x e.2.1))).map (·.1)

/-- The lowest number not in use (R103). -/
def State.lowestFree (s : State) (x : Nat) : Option Nat :=
  (List.range 255).find? (fun k => k != s.station x && !((s.rc x).uids.any (fun e => e.1 = k)))

/-- The number that a joiner has been given and the kept pass for it is still out: its other neighbour's JOIN is the same join (log entry 91). -/
def State.joining (s : State) (x uid : Nat) : Option Nat :=
  let c := s.rc x
  if c.pass then (c.uids.find? (fun e => e.2 = uid && c.expect.contains e.1)).map (·.1) else none

/-- The master gives a joiner its number and ASSIGNs it, then runs a kept pass (R103); on a ring with no number free it raises
source 24 or 25 (R124). Here `station` is the reporting neighbour and side 0 says that the joiner is at its East. -/
def State.join (s : State) (x station side uid : Nat) : State :=
  if s.rcState x != rcMaster then s
  else
    let old := (s.joining x uid).or (s.vacancy x station side)
    match old.or (s.lowestFree x) with
    | none => s.raise (24 + x)
    | some k =>
      let s := if old.isNone then s.put (rRCTL_STATUS x) fRCTL_STATUS_order_broken 1 else s
      let c := s.rc x
      let s := s.setRc x { c with uids := (k, uid) :: c.uids.filter (fun e => e.1 != k) }
      let s := s.setCount x (max c.count (k + 1))
      let body := assignOctets k station uid
      let s := if station = s.station x then s.sendLocal x 0x9 body else s.sendRouted x 0x9 station body
      s.keptPass x

/-- A ready station that hears an unnumbered neighbour answers, and reports the joiner to the master (R102). -/
def State.reportJoin (s : State) (x p : Nat) (uid : Nat) : State :=
  let s := s.sendClaim x
  if !s.flag rRCTL_CTRL fRCTL_CTRL_join_en then s
  else if s.rcState x = rcMaster then s.join x (s.station x) p uid
  else s.sendRouted x 0x9 (s.get (rRCTL_MASTER x) fRCTL_MASTER_master_station) (joinOctets (s.station x) p uid)

/-- The master of the losing segment broadcasts DEMOTE with its effect slot count and stops BEACON (R113 step 3). -/
def State.demoteMaster (s : State) (x : Nat) (m : DemoteMsg) : State :=
  let m := { m with effect := (s.slot + 65536) % 2 ^ 32 }
  let s := s.setRc x { s.rc x with demote := some m }
  s.sendRouted x 0x9 255 m.octets

/-- Two ready masters meet over a span: on the loser's side its hub tells the loser master, with the grid step measured (R113). -/
def State.meet (s : State) (x : Nat) (m : ClaimMsg) (step : Int) : State :=
  if m.claim ≤ (s.rc x).masterClaim || (s.rc x).demote.isSome then s
  else
    let d : DemoteMsg := ⟨m.claim, m.master, 0, step⟩
    if s.rcState x = rcMaster then s.demoteMaster x d
    else s.sendRouted x 0x9 (s.get (rRCTL_MASTER x) fRCTL_MASTER_master_station) d.octets

/-- The ring has been ready for less than one epoch (R89, R102). -/
def State.firstEpoch (s : State) (x : Nat) : Bool :=
  match (s.rc x).readyAt with
  | some n => s.slot < n + 2 ^ 20
  | none => false

/-- A CLAIM arrives at port p (R89, R92, R102, R111, R113, R115: only numbered stations take part in an election that keeps numbers). `step` is
the measured difference of the arriving grid to the own one, and `pad` the whole blocks with which the arriving grid meets the own
transmit grid. -/
def State.claimIn (s : State) (x p : Nat) (m : ClaimMsg) (step : Int) (pad : Nat) : State :=
  if m.ring != s.ringNo x then s.raise 26
  else
    let st := s.rcState x
    let c := s.rc x
    if st = rcElect then
      if m.readyMaster && !s.flag (rRCTL_STATUS x) fRCTL_STATUS_kept then
        ((s.setRc x { c with best := max c.best m.claim, bestReady := true }).setMaster x m.claim m.master).setRcState x rcAwait
      else if m.unnumbered && s.flag (rRCTL_STATUS x) fRCTL_STATUS_kept then s
      else s.adoptClaim x m
    else if st = rcCount || st = rcNumber then
      if s.ownClaim < m.claim then s.electFor x (s.flag (rRCTL_STATUS x) fRCTL_STATUS_kept) m else s
    else if st = rcAwait then
      if c.masterClaim < m.claim then s.electFor x (s.flag (rRCTL_STATUS x) fRCTL_STATUS_kept) m else s
    else if st = rcMaster || st = rcMember then
      let early := s.firstEpoch x
      if early && (c.masterClaim < m.claim || m.unnumbered) then
        let s := if m.unnumbered then s.sendClaim x else s
        (s.ringReadyClear x).electFor x false m
      else if m.unnumbered then s.reportJoin x p (m.claim % 2 ^ 128)
      else if m.readyMaster && m.claim != c.masterClaim then s.meet x m step
      else if m.claim = c.masterClaim && c.broken.any (fun b => b.station = s.spanStation x p) then s.heal x p pad step
      else s
    else s

def execClaimReceived (x p : Fin 2) (m : ClaimMsg) (step : Int) (pad : Nat) (s : State) : Host.Outcome State Fault Refusal :=
  finish s (s.ifOn 0x28 fun s => (s.popInbox x 0x01).claimIn x p m step pad)

def execClaimSend (x : Fin 2) (s : State) : Host.Outcome State Fault Refusal :=
  finish s (s.ifOn 0x28 fun s => if s.rcState x = rcElect then s.sendClaim x else s)

/-! ### Settle and timeout -/

/-- Quiet takeover: the winner keeps its grid, slot count and TB0, enters MASTER with offsets 0, sends BEACON with takeover and runs a
kept pass (R97, R115). What it does not know as master yet it takes from N and the ring order (R101). -/
def State.takeover (s : State) (x : Nat) : State :=
  let s := (s.setMaster x s.ownClaim (s.station x)).setRcState x rcMaster
  let c := s.rc x
  let m := min c.count 255
  let near := if c.neighbours = [] then (List.range m).map (fun k => (k, (k + m - 1) % m, (k + 1) % m)) else c.neighbours
  let uids := if c.uids = [] then [(s.station x, s.uid)] else c.uids
  let s := s.setRc x { c with beaconNo := c.beaconNo + 1, tookOver := true, off0 := some 0, off1 := some 0, neighbours := near, uids := uids }
  let b : BeaconMsg := ⟨s.ownClaim, s.station x, min 255 c.count, (c.beaconNo + 1) % 2 ^ 32, true⟩
  (((s.showOffsets x).sendRouted x 0x8 255 b.octets).keptPass x).rootLock

/-- Settle expires (R89, R93). -/
def State.settle (s : State) (x : Nat) : State :=
  if s.rcState x = rcElect && (s.rc x).best = s.ownClaim && s.get rRCTL_CFG fRCTL_CFG_priority != 0 then
    if s.flag (rRCTL_STATUS x) fRCTL_STATUS_kept then s.takeover x else s.startCount x
  else s

def execSettleExpire (x : Fin 2) (s : State) : Host.Outcome State Fault Refusal := finish s (s.ifOn 0x28 fun s => s.settle x)

/-- elect_timeout expires (R89); with no eligible master heard of it raises source 24 or 25 (R91, R124). -/
def State.electTimeout (s : State) (x : Nat) : State :=
  let st := s.rcState x
  if st = rcElect || st = rcCount || st = rcNumber || st = rcAwait then
    let s := if st = rcElect && (s.rc x).best / 2 ^ 128 = 0 then s.raise (24 + x) else s
    s.enterElect x (s.flag (rRCTL_STATUS x) fRCTL_STATUS_kept) 8
  else s

def execElectTimeout (x : Fin 2) (s : State) : Host.Outcome State Fault Refusal := finish s (s.ifOn 0x28 fun s => s.electTimeout x)

/-! ### Counting and numbering -/

/-- A COUNT acts through the copy that travels on its path: at its master it closes the ring; elsewhere it is relayed with hubs passed
raised, or answered with END where the other port is not UP (R94). -/
def State.countIn (s : State) (x p passed path uid : Nat) : State :=
  if path != arrivalPath p then s
  else if uid = s.uid then
    if s.rcState x = rcCount then s.countDone x (if passed = 255 then 256 else passed + 1) false 0 else s
  else if s.rcState x = rcElect || s.rcState x = rcAwait then
    let n := satInc 255 passed
    s.sendLocal x 0x8 (countOctets (if s.isUp x (1 - p) then 0x02 else 0x03) n path uid)
  else s

def execCountReceived (x p : Fin 2) (passed path uid : Nat) (s : State) : Host.Outcome State Fault Refusal :=
  finish s (s.ifOn 0x28 fun s => (s.popInbox x 0x02).countIn x p passed path uid)

/-- An END travels back toward the master, so it acts through the copy on the other path (R85, R94; log entry 17). -/
def State.endIn (s : State) (x p passed path uid : Nat) : State :=
  if path = arrivalPath p then s
  else if uid = s.uid then
    if s.rcState x = rcCount then
      let c := s.rc x
      (s.setRc x (if path = 0 then { c with end0 := some passed } else { c with end1 := some passed })).checkEnds x
    else s
  else if s.rcState x = rcElect || s.rcState x = rcAwait then s.sendLocal x 0x8 (countOctets 0x03 passed path uid)
  else s

def execEndReceived (x p : Fin 2) (passed path uid : Nat) (s : State) : Host.Outcome State Fault Refusal :=
  finish s (s.ifOn 0x28 fun s => (s.popInbox x 0x03).endIn x p passed path uid)

/-- A NUMBER waits until the link delay of its port is known (R96). -/
def State.numberIn (s : State) (x p : Nat) (m : NumberMsg) : State :=
  if (s.linkDelay x p).isSome then s.actNumber x p m
  else s.setRc x { s.rc x with heldNumber := (s.rc x).heldNumber ++ [(p, m)] }

def execNumberReceived (x p : Fin 2) (m : NumberMsg) (s : State) : Host.Outcome State Fault Refusal :=
  finish s (s.ifOn 0x28 fun s => (s.popInbox x 0x04).numberIn x p m)

/-! ### Delay exchanges (R96) -/

/-- A DELAY_REQ names the path of the measured link, the one on which frames arrive at this port; like every link-local message it is sent on
each port that is UP (R85). -/
def execDelayReqSend (x p : Fin 2) (s : State) : Host.Outcome State Fault Refusal :=
  finish s (s.ifOn 0x28 fun s => if s.isUp x p && s.rcEnabled x then s.sendLocal x 0x8 (delayReqOctets (arrivalPath p)) else s)

/-- The DELAY_REQ is answered with its receive stamp, and the send stamp that the response takes as it leaves (R88, R96, R223); it acts through
the copy that leaves against the path it names (log entry 17). -/
def State.delayReqIn (s : State) (x p path stamp : Nat) : State :=
  if path = arrivalPath p then s else s.sendLocal x 0x8 (delayRespOctets path (toTwos 64 (s.rxStamp x p stamp / 10)) 0)

/-- The DELAY_REQ that the operands name acts; one that has not been received changes nothing. -/
def execDelayReqReceived (x p : Fin 2) (path src stamp : Nat) (s : State) : Host.Outcome State Fault Refusal :=
  finish s (s.ifOn 0x28 fun s => (s.takeMsg x p 0x05 src stamp).elim s (fun s => s.delayReqIn x p path stamp))

/-- One exchange is done; after 8 their mean is the link delay (R96). t1 is the send stamp of the request that this port's slot sent, t4 the
receive stamp of the response (R222, R223); t2 and t3 are the responder's, in ns. -/
def State.delayIn (s : State) (x p path t2 t3 stamp : Nat) : State :=
  let t4 := s.rxStamp x p stamp
  let pt := s.port x p
  match (if path = arrivalPath p && s.isUp x p then pt.reqAt else none) with
  | none => s
  | some t1 =>
    let twice : Int := t4 - ((t1 : Int) * 10 + s.txComp (2 * x + p)) - ((t3 : Int) - t2) * 10
    let s := s.setPort x p { pt with reqAt := none }
    let c := s.rc x
    let mine := (p, twice) :: c.exch.filter (fun e => e.1 = p)
    let rest := c.exch.filter (fun e => e.1 != p)
    if mine.length < 8 then s.setRc x { c with exch := mine ++ rest }
    else
      let d : Int := (mine.foldl (fun n e => n + e.2) 0 + 8) / 16
      let c := { c with exch := rest }
      let c := if p = 0 then { c with linkE := some d } else { c with linkW := some d }
      (s.setRc x c).linkReady x p

/-- The DELAY_RESP that the operands name acts; one that has not been received changes nothing. -/
def execDelayRespReceived (x p : Fin 2) (path t2 t3 src stamp : Nat) (s : State) : Host.Outcome State Fault Refusal :=
  finish s (s.ifOn 0x28 fun s => (s.takeMsg x p 0x06 src stamp).elim s (fun s => s.delayIn x p path t2 t3 stamp))

/-! ### Reports and READY -/

/-- A REPORT reaches the master (R97, R98, R100); in a kept pass a number held by two hubs is given anew (R114). -/
def State.reportIn (s : State) (x : Nat) (m : Report) : State :=
  let st := s.rcState x
  if !(st = rcNumber || st = rcMaster) then s
  else
    let c := s.rc x
    match (if st = rcMaster then c.uids.find? (fun e => e.1 = m.station && e.2 != m.uid) else none) with
    | some _ =>
      match s.lowestFree x with
      | some k =>
        let s := s.setRc x { c with uids := (k, m.uid) :: c.uids }
        let s := ((s.setCount x (max c.count (k + 1))).put (rRCTL_STATUS x) fRCTL_STATUS_order_broken 1).inc (rRCTL_CNT_DEMOTE x)
        let n := if c.count = 0 then 1 else c.count
        s.sendRouted x 0x9 ((m.station + n - 1) % n) (assignOctets k ((m.station + n - 1) % n) m.uid)
      | none => s.raise (24 + x)
    | none =>
      let u := (m.station, m.uid) :: c.uids.filter (fun e => e.1 != m.station)
      let r := m :: c.reports.filter (fun e => e.station != m.station)
      (s.setRc x { c with uids := u, reports := r }).checkReports x

def execReportReceived (x : Fin 2) (m : Report) (s : State) : Host.Outcome State Fault Refusal :=
  finish s (s.ifOn 0x28 fun s => (s.popInbox x 0x10).reportIn x m)

/-- The pad octet of a station in a READY. -/
def ReadyMsg.pad (m : ReadyMsg) (k : Nat) : Nat := nthD m.pads k 0

/-- The pads of the stations before station k on each path of a ring of n, in blocks: the master's moves no station's grid (R98). -/
def ReadyMsg.before (m : ReadyMsg) (k : Nat) : Nat × Nat :=
  (((List.range (k - 1)).map (fun j => m.pad (j + 1) / 16)).foldl (· + ·) 0, ((List.range (m.n - 1 - k)).map (fun j => m.pad (j + k + 1) % 16)).foldl (· + ·) 0)

/-- What a READY brings a numbered station (R89, R98): N, its pads and the loops; the first one, in AWAIT, also the offsets of the pads before it and
a ring without broken spans. -/
def State.readyTake (s : State) (x : Nat) (m : ReadyMsg) (first : Bool) : State :=
  let k := s.station x
  let s := s.setCount x m.n
  let c := s.rc x
  let s := s.setRc x { c with openNum := m.openRing, broken := if first then [] else c.broken, outOfService := if first then [] else c.outOfService,
                              pads := m.pads, tookOver := false }
  let s := s.showOpen x
  let s := if first then s.put (rRCTL_STATUS x) fRCTL_STATUS_order_broken 0 else s
  let s := if m.openRing || m.n ≤ k then s else (s.writePad x 1 (m.pad k / 16)).writePad x 0 (m.pad k % 16)
  let blk := s.blockTime x
  let s := if first && !m.openRing then
      (s.setReg (rRCTL_OFFSET0 x) (s.reg (rRCTL_OFFSET0 x) + toW (toTwos 32 (((m.before k).1 : Int) * blk)))).setReg (rRCTL_OFFSET1 x)
        (s.reg (rRCTL_OFFSET1 x) + toW (toTwos 32 (((m.before k).2 : Int) * blk)))
    else s
  s.setLoops x m.loop0 m.loop1

/-- A station in AWAIT becomes a member of a ready ring (R89). The slot count is realigned to the ring's: a bridge takes it from its upper ring,
from the other only while that is not ready (R12). -/
def State.becomeMember (s : State) (x slot : Nat) : State :=
  let s := s.setRcState x rcMember
  let s := if x = s.timeAtt || !s.flag (rRCTL_STATUS s.timeAtt) fRCTL_STATUS_ring_ready then { s with slot := slot } else s
  (s.setRc x { s.rc x with misses := 0 }).ringReadySet x

/-- A READY reaches a station (R89, R98): in AWAIT it leads to MEMBER. The READY that ends a quiet takeover's NUMBER pass brings re-admission
(R199). -/
def State.readyIn (s : State) (x : Nat) (m : ReadyMsg) (slot : Nat) : State :=
  let st := s.rcState x
  if !((st = rcAwait || st = rcMember) && (s.rc x).numbered) then s
  else
    let t := s.readyTake x m (st = rcAwait)
    if st = rcAwait then t.becomeMember x slot else if (s.rc x).tookOver then t.readmitAll else t

def execReadyReceived (x : Fin 2) (m : ReadyMsg) (slot : Nat) (s : State) : Host.Outcome State Fault Refusal :=
  finish s (s.ifOn 0x28 fun s => (s.popInbox x 0x11).readyIn x m slot)

/-! ### Beacons (R101, R115) -/

/-- BEACON is due at the master, unless a DEMOTE has stopped it (R101, R113). -/
def State.beaconOut (s : State) (x : Nat) : State :=
  let c := s.rc x
  if s.rcState x = rcMaster && c.demote.isNone then
    let s := s.setRc x { c with beaconNo := (c.beaconNo + 1) % 2 ^ 32 }
    s.sendRouted x 0x8 255 (BeaconMsg.octets ⟨s.ownClaim, s.station x, min 255 c.count, (c.beaconNo + 1) % 2 ^ 32, false⟩)
  else s

def execBeaconSend (x : Fin 2) (s : State) : Host.Outcome State Fault Refusal := finish s (s.ifOn 0x28 fun s => s.beaconOut x)

/-- A BEACON reaches a station: it is not missed; with takeover a member, or a station in ELECT with kept = 1, adopts the new master
(R89, R115). No time-base session opens (R220). -/
def State.beaconIn (s : State) (x : Nat) (m : BeaconMsg) : State :=
  let st := s.rcState x
  let member := decide (st = rcMember)
  let voter := decide (st = rcElect) && s.flag (rRCTL_STATUS x) fRCTL_STATUS_kept
  if m.takeover && (member || voter) then
    let s := (s.setMaster x m.claim m.master).setRcState x rcMember
    let s := s.setRc x { s.rc x with misses := 0, tookOver := true }
    if x = s.timeAtt then s.setSource (m.claim % 2 ^ 128) else s
  else if member && m.claim = (s.rc x).masterClaim then s.setRc x { s.rc x with misses := 0 }
  else s

def execBeaconReceived (x : Fin 2) (m : BeaconMsg) (s : State) : Host.Outcome State Fault Refusal :=
  finish s (s.ifOn 0x28 fun s => (s.popInbox x 0x08).beaconIn x m)

/-- One more BEACON is missed; at beacon_miss of them the member enters ELECT with kept = 1 (R89, R115). -/
def State.beaconMiss (s : State) (x : Nat) : State :=
  if s.rcState x != rcMember then s
  else
    let c := s.rc x
    let lim := max 1 (s.get rRCTL_TIMERS fRCTL_TIMERS_beacon_miss)
    if c.misses + 1 < lim then s.setRc x { c with misses := c.misses + 1 }
    else (s.enterElect x true 2).raise 28

def execBeaconMiss (x : Fin 2) (s : State) : Host.Outcome State Fault Refusal := finish s (s.ifOn 0x28 fun s => s.beaconMiss x)

/-! ### Breaks and heals -/

/-- A BREAK reaches a station (R109, R125). -/
def State.breakIn (s : State) (x : Nat) (b : Broken) : State := if s.onRing x then s.markBroken x b else s

def execBreakReceived (x : Fin 2) (b : Broken) (s : State) : Host.Outcome State Fault Refusal := finish s (s.ifOn 0x28 fun s => (s.popInbox x 0x12).breakIn x b)

/-- The port of this hub that faces a span by the direction restored: East for path 0, West for path 1 (R112). -/
def State.healedPort (s : State) (x : Nat) (b : Broken) (p : Nat) : Bool :=
  (if p = 0 then b.path0 else b.path1) && b.station = s.spanStation x p && s.isUp x p

/-- A HEALED reaches a station (R112): the direction serves again; a port toward the span stops wrapping once it is UP, or the heal is deferred
there while hold_span = 1; the loops are those that ring control finds. A master whose ring had broken twice runs a kept pass over the whole ring,
which ends with TABLE (R113 steps 6 and 7). -/
def State.healedIn (s : State) (x : Nat) (b : Broken) (l0 l1 : Nat) : State :=
  if !s.onRing x then s
  else if s.flag rRCTL_EXP fRCTL_EXP_hold_span && (s.healedPort x b 0 || s.healedPort x b 1) then s.deferHeal x
  else
    let twice := 2 ≤ (s.rc x).broken.length
    let east := s.healedPort x b 0
    let west := s.healedPort x b 1
    let s := s.restoreSpan x b
    let c := s.rc x
    let s := s.setRc x { c with outOfService := c.outOfService.filter (fun p => !((p = 0 && east) || (p = 1 && west))) }
    let s := s.setLoops x l0 l1
    if twice && s.rcState x = rcMaster then (s.setRc x { s.rc x with passTable := true }).keptPass x else s

def execHealedReceived (x : Fin 2) (b : Broken) (loop0 loop1 : Nat) (s : State) : Host.Outcome State Fault Refusal :=
  finish s (s.ifOn 0x28 fun s => (s.popInbox x 0x13).healedIn x b loop0 loop1)

/-! ### Joining -/

def execJoinReceived (x : Fin 2) (station side uid : Nat) (s : State) : Host.Outcome State Fault Refusal :=
  finish s (s.ifOn 0x28 fun s => (s.popInbox x 0x14).join x station side uid)

/-- ASSIGN: the neighbour relays it link-local, and the hub it names takes the number (R103, R114). -/
def State.assignIn (s : State) (x station neighbour uid : Nat) : State :=
  let st := s.rcState x
  if uid = s.uid then
    if st = rcAwait || st = rcMember || (st = rcElect && !s.flag (rRCTL_STATUS x) fRCTL_STATUS_kept) then
      (if st = rcElect then s.setRcState x rcAwait else s).takeNumber x station
    else s
  else if (s.rc x).numbered && s.station x = neighbour && (st = rcMaster || st = rcMember) then
    s.sendLocal x 0x9 (assignOctets station neighbour uid)
  else s

def execAssignReceived (x : Fin 2) (station neighbour uid : Nat) (s : State) : Host.Outcome State Fault Refusal :=
  finish s (s.ifOn 0x28 fun s => (s.popInbox x 0x15).assignIn x station neighbour uid)

/-! ### Demotion (R113) -/

def State.demoteIn (s : State) (x : Nat) (m : DemoteMsg) : State :=
  if s.rcState x = rcMaster then (if (s.rc x).masterClaim < m.claim then s.demoteMaster x m else s)
  else if s.rcState x = rcMember then s.setRc x { s.rc x with demote := some m }
  else s

def execDemoteReceived (x : Fin 2) (m : DemoteMsg) (s : State) : Host.Outcome State Fault Refusal :=
  finish s (s.ifOn 0x28 fun s => (s.popInbox x 0x16).demoteIn x m)

/-- The slot time in 0.1 ns (R49). -/
def State.slotTime (s : State) (x : Nat) : Int := slotTenths (s.quarter x)

/-- The loser's hub is a member of the winner's ring (R113 step 4). -/
def State.demoteTo (s : State) (x : Nat) (m : DemoteMsg) : State :=
  ((s.setRc x { s.rc x with demote := none, misses := 0 }).setMaster x m.claim m.master).setRcState x rcMember

/-- On the ring that TB0 and the slot count follow, the slot count steps with the grids, a later grid lowering it, and a new TB0 session opens
(R113 step 4). -/
def State.gridStep (s : State) (x : Nat) (m : DemoteMsg) : State :=
  if x = s.timeAtt then
    (({ s with slot := ((s.slot : Int) - m.step / s.slotTime x).toNat }).openSession 0).setSource (m.claim % 2 ^ 128)
  else s

/-- The effect slot of a DEMOTE (R113 step 4): MEMBER of the winner, with the grid step; class 0 flows go to re-admission; the span hubs
exchange CLAIM again. -/
def State.demoteEffect (s : State) (x : Nat) : State :=
  match (if s.rcState x = rcMaster || s.rcState x = rcMember then (s.rc x).demote else none) with
  | none => s
  | some m =>
    let s := (((s.demoteTo x m).gridStep x m).inc (rRCTL_CNT_DEMOTE x)).irq 0x28 7
    let s := (s.timedFlows).foldl (fun s e => s.setReadmit e.1 true) s
    if (s.rc x).outOfService.isEmpty then s else s.sendClaim x

def execDemoteEffect (x : Fin 2) (s : State) : Host.Outcome State Fault Refusal := finish s (s.ifOn 0x28 fun s => s.demoteEffect x)

/-! ### Sleep (R120) -/

def State.sleepIn (s : State) (x : Nat) (cancel : Bool) : State :=
  if !(s.rcState x = rcMaster || s.rcState x = rcMember) then s
  else
    let s := (s.setRc x { s.rc x with sleepEpochs := if cancel then none else some 2 }).irq 0x28 8
    if !cancel && s.flag rRCTL_CTRL fRCTL_CTRL_sleep_veto then
      s.sendRouted x 0x9 (s.get (rRCTL_MASTER x) fRCTL_MASTER_master_station) (vetoOctets (s.station x))
    else s

def execSleepReceived (x : Fin 2) (cancel : Bool) (s : State) : Host.Outcome State Fault Refusal := finish s (s.ifOn 0x28 fun s => (s.popInbox x 0x18).sleepIn x cancel)

/-- A VETO before the next epoch boundary cancels the sleep (R120). -/
def State.vetoIn (s : State) (x : Nat) : State :=
  if s.rcState x = rcMaster && (s.rc x).sleepEpochs = some 2 then
    (s.setRc x { s.rc x with sleepEpochs := none }).sendRouted x 0x9 255 (sleepOctets true)
  else s

def execVetoReceived (x : Fin 2) (_station : Nat) (s : State) : Host.Outcome State Fault Refusal := finish s (s.ifOn 0x28 fun s => (s.popInbox x 0x19).vetoIn x)

/-- SLEEP sets without the SLEEP frame: the same at once (R120). -/
def execSleepSetReceived (x : Fin 2) (s : State) : Host.Outcome State Fault Refusal :=
  finish s (s.ifOn 0x28 fun s => if s.rcState x = rcOff || s.rcState x = rcSleep then s else s.drainCore.sleepRing x)

/-! ### Reset message (R122) -/

def State.resetIn (s : State) (x station : Nat) (key : Word) : State :=
  if (s.rc x).numbered && station = s.station x then
    if s.flag rRCTL_CTRL fRCTL_CTRL_remote_reset_en && key = s.reg rRCTL_RESET_KEY then s.warmReset 0x13 else s.inc rRCTL_CNT_BAD_MSG
  else s

def execResetMessage (x : Fin 2) (station : Nat) (key : Word) (s : State) : Host.Outcome State Fault Refusal :=
  finish s (s.ifOn 0x28 fun s => (s.popInbox x 0x1A).resetIn x station key)

/-! ### The ring tree (R119) -/

def State.treeIn (s : State) (x level : Nat) : State :=
  if s.rcState x = rcMaster || s.rcState x = rcMember then
    ((s.put (rRCTL_TREE x) fRCTL_TREE_joined 1).put (rRCTL_TREE x) fRCTL_TREE_level level).irq 0x28 9
  else s

def execTreeReceived (x : Fin 2) (level _upper : Nat) (s : State) : Host.Outcome State Fault Refusal := finish s (s.ifOn 0x28 fun s => (s.popInbox x 0x1B).treeIn x level)

/-- A bridge whose upper ring is joined and whose lower ring is ready sends TREE on the lower ring, and is joined there itself; a level
above 8 is not sent and raises source 29 (R119). -/
def State.treeOut (s : State) : State :=
  let lo := s.lowerAtt
  let up := 1 - lo
  if s.isBridge && s.flag (rRCTL_TREE up) fRCTL_TREE_joined && s.flag (rRCTL_STATUS lo) fRCTL_STATUS_ring_ready then
    let l := s.get (rRCTL_TREE up) fRCTL_TREE_level + 1
    if 8 < l then s.raise 29 else (s.sendRouted lo 0x9 255 (treeOctets l (s.ringNo up))).treeIn lo l
  else s

def execTreeSend (s : State) : Host.Outcome State Fault Refusal := finish s (s.ifOn 0x28 State.treeOut)

/-! ### RCTL_CMD -/

/-- A write of RCTL_CMD: each command bit that is 1 acts (R89, R120, R122, R125). -/
def rctlCmdFx (v : Word) (s : State) : State :=
  let onMaster (b : Bool) (x : Nat) (f : State → State) (s : State) : State := if b && s.rcState x = rcMaster then f s else s
  let s := onMaster (bitOf v 0) 0 (fun s => s.enterElect 0 true 3) s
  let s := onMaster (bitOf v 1) 1 (fun s => s.enterElect 1 true 3) s
  let s := onMaster (bitOf v 2) 0 (fun s => (s.ringReadyClear 0).enterElect 0 false 4) s
  let s := onMaster (bitOf v 3) 1 (fun s => (s.ringReadyClear 1).enterElect 1 false 4) s
  let sleep (x : Nat) (s : State) : State :=
    (s.setRc x { s.rc x with sleepEpochs := some 2 }).sendRouted x 0x9 255 (sleepOctets false)
  let s := onMaster (bitOf v 4) 0 (sleep 0) s
  let s := onMaster (bitOf v 4) 1 (sleep 1) s
  if bitOf v 5 then
    let t := s.get rRCTL_CMD_ARG fRCTL_CMD_ARG_station
    s.sendRouted 0 0x9 t (resetOctets t (s.reg rRCTL_RESET_KEY))
  else s

def execRctlElect (q : Req) (v : Word) (s : State) : Host.Outcome State Fault Refusal := finish s (s.writeReg q rRCTL_CMD v rctlCmdFx)
def execRctlRenumber (q : Req) (v : Word) (s : State) : Host.Outcome State Fault Refusal := finish s (s.writeReg q rRCTL_CMD v rctlCmdFx)
def execRctlSleep (q : Req) (v : Word) (s : State) : Host.Outcome State Fault Refusal := finish s (s.writeReg q rRCTL_CMD v rctlCmdFx)
def execRctlReset (q : Req) (v : Word) (s : State) : Host.Outcome State Fault Refusal := finish s (s.writeReg q rRCTL_CMD v rctlCmdFx)

/-- A write of RCTL_TIMERS: beacon_k is held within 12 to 20 (R101, R125). -/
def rctlTimersFx (v : Word) (s : State) : State :=
  let k := fldOf v fRCTL_TIMERS_beacon_k
  let n := clampN 12 20 k
  let s := s.store rRCTL_TIMERS (fldPut v fRCTL_TIMERS_beacon_k n)
  if n = k then s else s.warn 0x28

end Sys2Proof.Machine
end

