-- ==== Sys2Proof/Machine/FamReset.lean ====
section
/-! DEFINITION. Resets, the watchdog, the power-level command, the hush level, clocks and temperature (R522 to R540, R588). Waking is in FamLate,
since the exit from L4 replays register writes. -/
namespace Sys2Proof.Machine

/-! ### Resets (R522 to R525, R538) -/

/-- A cold cause: 0 power-on, 1 and 2 brownout of VCORE and VDD18, 3 exit from L6. -/
def execColdReset (cause : Fin 4) (s : State) : Host.Outcome State Fault Refusal := finish s (s.resetCause (cause + 1))

/-- A warm cause: 0 RESET_N, 1 watchdog, 2 level 5 reaction, 3 ring command, 4 software. -/
def execWarmReset (cause : Fin 5) (s : State) : Host.Outcome State Fault Refusal := finish s (s.resetCause (0x10 + cause))

/-- RESET_N has been low for 1 µs. -/
def execResetN (s : State) : Host.Outcome State Fault Refusal := finish s (s.resetCause 0x10)

/-- A write of RST_CMD: chip_reset acts only with its key. -/
def rstCmdFx (v : Word) (s : State) : State := if bitOf v 0 && natBits v.toNat 15 8 = 0xC3 then s.warmReset 0x14 else s

/-- The write completes, and the reset follows. -/
def execChipReset (q : Req) (v : Word) (s : State) : Host.Outcome State Fault Refusal := finish s (s.writeReg q rRST_CMD v rstCmdFx)

/-! ### The watchdog (R528) -/

/-- The length of a stage, ms. -/
def State.wdtMs (s : State) (stage : Nat) : Nat :=
  max 1 (if stage = 1 then s.get rRST_WDT_CFG fRST_WDT_CFG_stage1_ms else s.get rRST_WDT_CFG fRST_WDT_CFG_stage2_ms)

/-- Stage n starts. -/
def State.wdtStart (s : State) (n : Nat) : State := { s with rst := { s.rst with stage := n, since := s.pd.ticks } }

/-- RST_WDT_STATUS as read. -/
def State.wdtStatus (s : State) : Word :=
  if s.rst.stage = 0 then 0
  else toW (b2n (decide (s.rst.stage = 2)) * 2 ^ 31 + (s.wdtMs s.rst.stage - (s.pd.ticks - s.rst.since) * 4 / 1000000))

/-- A write of RST_WDT_CFG: enable, once set, stays; setting it starts stage 1. -/
def wdtCfgFx (v : Word) (s : State) : State :=
  let was := s.flag rRST_WDT_CFG fRST_WDT_CFG_enable
  let s := s.store rRST_WDT_CFG (if was then v ||| 0x80000000 else v)
  if !was && s.flag rRST_WDT_CFG fRST_WDT_CFG_enable && s.pwr.level = 0 then s.wdtStart 1 else s

def execWdtEnable (q : Req) (v : Word) (s : State) : Host.Outcome State Fault Refusal :=
  finish s (s.writeReg q rRST_WDT_CFG (v ||| 0x80000000) wdtCfgFx)

/-- A write of RST_WDT_KICK by q. -/
def wdtKickFx (q : Req) (v : Word) (s : State) : State :=
  let may := q.master = 0 || ((q.master = 1 || q.master = 2) && s.flag rRST_WDT_CFG fRST_WDT_CFG_host_kick)
  if v = 0x0000A55A && may && s.rst.stage != 0 then s.wdtStart 1 else s

def execWdtKick (q : Req) (v : Word) (s : State) : Host.Outcome State Fault Refusal := finish s (s.writeReg q rRST_WDT_KICK v (wdtKickFx q))

def execWdtStage1Expire (s : State) : Host.Outcome State Fault Refusal :=
  finish s (if s.rst.stage = 1 && s.enabled 0x01 then (((s.inc rRST_CNT_WDT).irq 0x01 2).raise 113).wdtStart 2 else s)

def execWdtStage2Expire (s : State) : Host.Outcome State Fault Refusal := finish s (if s.rst.stage = 2 && s.enabled 0x01 then s.resetCause 0x11 else s)

/-- The watchdog on a return to L0: stage 1 in full. -/
def State.wdtResume (s : State) : State := if s.flag rRST_WDT_CFG fRST_WDT_CFG_enable then s.wdtStart 1 else s

/-! ### The power-level command (R531, R532) -/

/-- Only wake patterns are in use at MAC m, with its receiver on. -/
def State.macWakeOnly (s : State) (m : Nat) : Bool :=
  s.get (rxx_WAKE_CFG m) fxx_WAKE_CFG_en != 0 && s.flag (rxx_CFG m) fxx_CFG_rx_en && !s.flag (rxx_CFG m) fxx_CFG_tx_en

/-- Refusal code 5: something is still at work. -/
def State.unitsBusy (s : State) : Bool :=
  (List.range 16).any (fun c => s.chState c = 2 || s.chState c = 3 || s.chState c = 5) ||
  [0, 1].any (fun r => s.jrState r = 1) ||
  (List.range 64).any (fun k => (s.clv (k / 16) (k % 16)).state != 0) ||
  (List.range 40).any (fun i => s.enabled (0x80 + i)) ||
  (List.range 5).any (fun m => s.enabled (0x70 + m) && !s.macWakeOnly m)

/-- Refusal code 3: the hub is master of a ready ring, or a bridge hub with a ready attachment. -/
def State.ringNeeds (s : State) : Bool :=
  let ready := fun x => s.flag (rRCTL_STATUS x) fRCTL_STATUS_ring_ready
  [0, 1].any (fun x => ready x && (s.rcState x = rcMaster || s.isBridge)) && !s.flag rPWR_CFG fPWR_CFG_allow_bridge

/-- The refusal code of a command, 0 where it is accepted: the first of the table's conditions that holds, the wait for the ledger's flush
apart. -/
def State.pwrRefusal (s : State) (target : Nat) : Nat :=
  let force := s.flag rPWR_EXP fPWR_EXP_force
  if target < 2 || 6 < target then 1
  else if !force && !s.timedFlows.isEmpty then 2
  else if !force && s.ringNeeds then 3
  else if 5 ≤ target && !s.flag rLEDG_STATUS fLEDG_STATUS_anchored then 4
  else if !force && s.unitsBusy then 5
  else if target = 6 && !s.pdUp then 6
  else 0

/-- An entry to L5 or L6 waits until what is staged has been flushed (R519). -/
def State.pwrWaits (s : State) (target : Nat) : Bool := decide (5 ≤ target) && decide (s.staged ≠ 0)

/-- A command decided: the code shown, and the entry or the count of refusals. -/
def State.pwrDecide (s : State) (target code : Nat) : State :=
  let s := s.put rPWR_STATUS fPWR_STATUS_refusal code
  if code = 0 then s.drainCore.enterLevel target else (s.inc rPWR_CNT_REFUSED).irq 0x02 3

/-- A write of PWR_CMD; during a handover it is ignored (R561). -/
def pwrCmdFx (v : Word) (s : State) : State :=
  if !bitOf v 31 then s
  else if s.flag rPWR_STATUS fPWR_STATUS_busy || s.flag rFWU_STATUS fFWU_STATUS_handover_active then s.warn 0x02
  else
    let n := v.toNat % 8
    let code := s.pwrRefusal n
    if s.pwrWaits n && (code = 0 || 4 < code) then
      { s.put rPWR_STATUS fPWR_STATUS_busy 1 with pwr := { s.pwr with waitFor := some (n, s.pd.ticks) } }
    else s.pwrDecide n code

/-- The staging area may have been flushed, or 2 s may have gone by, while an entry waits (R519, R531). -/
def State.pwrWaited (s : State) : State :=
  match s.pwr.waitFor with
  | none => s
  | some (n, since) =>
    let late := decide (500000000 < s.pd.ticks - since)
    if late || s.staged = 0 then
      let t : State := { s.put rPWR_STATUS fPWR_STATUS_busy 0 with pwr := { s.pwr with waitFor := none } }
      t.pwrDecide n (if late then 4 else t.pwrRefusal n)
    else s

def execPwrCmd (q : Req) (v : Word) (s : State) : Host.Outcome State Fault Refusal := finish s (s.writeReg q rPWR_CMD v pwrCmdFx)

/-- A write of PWR_WAKE_EN: bit 0 reads 1. -/
def wakeEnFx (v : Word) (s : State) : State := s.store rPWR_WAKE_EN (v ||| 1)

/-! ### Hush (R530) -/

/-- Nothing that keeps the hub in L0: no cell in the core or presented to it, no DMA channel in RUN, no cipher job. -/
def State.quiet (s : State) : Bool :=
  !s.fabBusy && s.fab.src.isEmpty && !(List.range 16).any (fun c => s.chState c = 2) && s.ciph.job0.isNone && s.ciph.job1.isNone && s.ciph.frame.isNone

def execHushEnter (s : State) : Host.Outcome State Fault Refusal :=
  finish s (if s.flag rPWR_CFG fPWR_CFG_hush_en && s.pwr.level = 0 && s.quiet && s.enabled 0x02 then
      { s.put rPWR_STATUS fPWR_STATUS_level 1 with pwr := { s.pwr with level := 1 }, rst := { s.rst with stage := 0 } }
    else s)

def execHushExit (s : State) : Host.Outcome State Fault Refusal :=
  finish s (if s.pwr.level = 1 then
      ({ s.put rPWR_STATUS fPWR_STATUS_level 0 with pwr := { s.pwr with level := 0 } }).wdtResume
    else s)

/-! ### Clocks and temperature (R540, R502, R588) -/

/-- A clocked-island PLL loses lock: 0 the field PLL, 1 and 2 the PCS clocks of the rings. -/
def execPllUnlock (pll : Fin 3) (s : State) : Host.Outcome State Fault Refusal :=
  finish s (if 3 ≤ s.pwr.level then s
    else
      let s : State := { s with pwr := { s.pwr with unlocked := s.pwr.unlocked ||| 2 ^ pll.val } }
      s.ifOn 0x03 fun s => ((s.inc rCLK_CNT_UNLOCK).irq 0x03 2).raise 118)

/-- The crystal runs. -/
def State.crystal (s : State) : Bool := s.flag rCLK_AON fCLK_AON_xtal32_en

/-- The check of the reference clock: absent, or its deviation from the crystal in 0.1 ppm, 16 bits signed. Without the crystal it is checked for
absence only. -/
def State.refCheck (s : State) (ppm : Option Nat) : State :=
  let bad := match ppm with
    | none => true
    | some p => s.crystal && 2000 < (sxInt 16 p).natAbs
  let s := match ppm with
    | some p => if s.crystal then s.setReg rCLK_REF_PPM (toW (p % 2 ^ 16)) else s
    | none => s
  let s : State := { s with pwr := { s.pwr with refBad := bad } }
  if bad then s.ifOn 0x03 fun s => (s.irq 0x03 3).raise 119 else s

def execRefclkFault (ppm : Option Nat) (s : State) : Host.Outcome State Fault Refusal := finish s (s.refCheck ppm)

/-- CLK_STATUS as read: the islands that run (R10), the locks, the crystal and the reference clock. -/
def State.clkStatus (s : State) : Word :=
  let g := s.reg rCLK_GATE
  let run := fun n => n = 8 || (s.pwr.level < 3 && !(s.pwr.level = 2 && 2 ≤ n && n ≤ 5) && !(1 ≤ n && n ≤ 4 && bitOf g n))
  let islands := (List.range 9).foldl (fun m n => if run n then m + 2 ^ n else m) 0
  let lock := fun n => b2n (s.pwr.level < 3 && !s.pwr.unlocked.testBit n)
  toW (islands + lock 0 * 2 ^ 16 + lock 1 * 2 ^ 17 + lock 2 * 2 ^ 18 + b2n s.crystal * 2 ^ 19 + b2n (!s.pwr.refBad) * 2 ^ 20)

/-- A write of CHIP_CMD. -/
def chipCmdFx (v : Word) (s : State) : State := if bitOf v 0 then s.setReg rCHIP_TEMP_MAX 0x8000 else s

def execChipTempCmd (q : Req) (v : Word) (s : State) : Host.Outcome State Fault Refusal := finish s (s.writeReg q rCHIP_CMD (v ||| 1) chipCmdFx)

/-- A measurement of the junction temperature, in 0.1 °C, 16 bits signed: sources 125 and 126 as it passes 115 °C and 130 °C. -/
def State.chipTemp (s : State) (t : Nat) : State :=
  let old := sxInt 16 (s.get rCHIP_TEMP fCHIP_TEMP_temp)
  let new := sxInt 16 t
  let s := s.setReg rCHIP_TEMP (toW (t % 2 ^ 16))
  let s := if sxInt 16 (s.get rCHIP_TEMP_MAX fCHIP_TEMP_MAX_max) < new then s.setReg rCHIP_TEMP_MAX (toW (t % 2 ^ 16)) else s
  s.ifOn 0x00 fun s =>
    let s := if old ≤ 1150 && 1150 < new then (s.irq 0x00 2).raise 125 else s
    if old ≤ 1300 && 1300 < new then (s.irq 0x00 3).raise 126 else s

def execChipTempHigh (t : Nat) (s : State) : Host.Outcome State Fault Refusal := finish s (s.chipTemp t)

end Sys2Proof.Machine
end

