-- ==== Sys2Proof/Machine/P256.lean ====
section
/-! DEFINITION. ECDSA verification on the curve P-256 (FIPS 186-5), which R547 names. The text of the standard is PRESUMED (log entry 7). -/
namespace Sys2Proof.Machine

/-- The prime of the field, the order of the group, the coefficient b and the base point. -/
def ecP : Nat := 0xFFFFFFFF00000001000000000000000000000000FFFFFFFFFFFFFFFFFFFFFFFF
def ecN : Nat := 0xFFFFFFFF00000000FFFFFFFFFFFFFFFFBCE6FAADA7179E84F3B9CAC2FC632551
def ecB : Nat := 0x5AC635D8AA3A93E7B3EBBD55769886BC651D06B0CC53B0F63BCE3C3E27D2604B
def ecGx : Nat := 0x6B17D1F2E12C4247F8BCE6E563A440F277037D812DEB33A0F4A13945D898C296
def ecGy : Nat := 0x4FE342E2FE1A7F9B8EE7EB4A7C0F9E162BCE33576B315ECECBB6406837BF51F5

/-- acc * b ^ e modulo m, for e below 2 ^ k. -/
def powMod (m : Nat) : Nat → Nat → Nat → Nat → Nat
  | 0, _, _, acc => acc
  | k + 1, b, e, acc => powMod m k (b * b % m) (e / 2) (if e % 2 = 1 then acc * b % m else acc)

/-- The inverse of a modulo a prime m. -/
def invMod (m a : Nat) : Nat := powMod m 256 (a % m) (m - 2) 1

/-- a - b modulo ecP, for b below ecP. -/
def subP (a b : Nat) : Nat := (a + ecP - b) % ecP

/-- A point in Jacobian coordinates; z = 0 is the point at infinity. -/
structure EcPt where
  x : Nat
  y : Nat
  z : Nat
deriving DecidableEq, Repr

def EcPt.double (a : EcPt) : EcPt :=
  let yy := a.y * a.y % ecP
  let zz := a.z * a.z % ecP
  let s := 4 * a.x * yy % ecP
  let m := 3 * subP a.x zz * (a.x + zz) % ecP
  let x := subP (m * m) (2 * s % ecP)
  ⟨x, subP (m * subP s x) (8 * yy * yy % ecP), 2 * a.y * a.z % ecP⟩

def EcPt.add (a b : EcPt) : EcPt :=
  if a.z = 0 then b
  else if b.z = 0 then a
  else
    let za := a.z * a.z % ecP
    let zb := b.z * b.z % ecP
    let u1 := a.x * zb % ecP
    let u2 := b.x * za % ecP
    let s1 := a.y * zb % ecP * b.z % ecP
    let s2 := b.y * za % ecP * a.z % ecP
    if u1 = u2 then (if s1 = s2 then a.double else ⟨1, 1, 0⟩)
    else
      let h := subP u2 u1
      let r := subP s2 s1
      let hh := h * h % ecP
      let hhh := h * hh % ecP
      let v := u1 * hh % ecP
      let x := subP (subP (r * r) hhh) (2 * v % ecP)
      ⟨x, subP (r * subP v x) (s1 * hhh % ecP), h * a.z % ecP * b.z % ecP⟩

/-- acc + e * a, for e below 2 ^ k. -/
def EcPt.mulAdd : Nat → Nat → EcPt → EcPt → EcPt
  | 0, _, _, acc => acc
  | k + 1, e, a, acc => EcPt.mulAdd k (e / 2) a.double (if e % 2 = 1 then acc.add a else acc)

/-- The signature (r, s) over a hash by the public key (x, y) is good. -/
def ecdsaOk (x y hash r s : Nat) : Bool :=
  let onCurve := x < ecP && y < ecP && (y * y) % ecP = (x * x % ecP * x + (ecP - 3) * x + ecB) % ecP
  if !onCurve || r = 0 || ecN ≤ r || s = 0 || ecN ≤ s then false
  else
    let w := invMod ecN s
    let p := EcPt.mulAdd 256 (r * w % ecN) ⟨x, y, 1⟩ (EcPt.mulAdd 256 (hash * w % ecN) ⟨ecGx, ecGy, 1⟩ ⟨1, 1, 0⟩)
    p.z != 0 && (let zi := invMod ecP p.z; p.x * (zi * zi % ecP) % ecP % ecN = r)

end Sys2Proof.Machine
end

