-- ==== Sys2Proof/Machine/FamTime.lean ====
section
/-! DEFINITION. The rows of the time bases and the stamping unit (R214 to R243). -/
namespace Sys2Proof.Machine

/-! ### Bases -/

/-- A snap of base b latches it and the island count (R242). -/
def State.snap (s : State) (b : Nat) : State :=
  let x := s.base b
  let ic := s.servo.island
  let s := ((s.setReg (rTB_SNAP_NS b) (toW x.ns)).setReg (rTB_SNAP_SEC_LO b) (toW x.sec)).setReg (rTB_SNAP_SEC_HI b) (toW (x.sec / 2 ^ 32))
  (s.setReg (rTB_SNAP_IC_LO b) (toW ic)).setReg (rTB_SNAP_IC_HI b) (toW (ic / 2 ^ 32))

/-- The step written for base b, signed nanoseconds (R219). -/
def State.stepValue (s : State) (b : Nat) : Int := sxInt 64 ((s.reg (rTB_STEP_LO b)).toNat + 2 ^ 32 * (s.reg (rTB_STEP_HI b)).toNat)

/-- A write of TB_CMD (R219, R242). -/
def tbCmdFx (b : Nat) (v : Word) (s : State) : State :=
  let s := if bitOf v 0 then s.snap b else s
  if bitOf v 1 then s.askStep b (s.stepValue b) else s

def execTbSnap (q : Req) (b : Fin 4) (v : Word) (s : State) : Host.Outcome State Fault Refusal := finish s (s.writeReg q (rTB_CMD b) v (tbCmdFx b))
def execTbStep (q : Req) (b : Fin 4) (v : Word) (s : State) : Host.Outcome State Fault Refusal :=
  finish s (s.writeReg q (rTB_CMD b) v (fun v s => tbCmdFx b v s))

/-- A write of TB_SESSION (R220). -/
def tbSessionFx (b : Nat) (v : Word) (s : State) : State := if bitOf v 0 then s.openSession b else s

def execTbSessionOpen (q : Req) (b : Fin 4) (v : Word) (s : State) : Host.Outcome State Fault Refusal :=
  finish s (s.writeReg q (rTB_SESSION b) v (tbSessionFx b))

/-- A write of TB_RATE_HI applies the 48-bit increment; a write of TB_RATE_LO alone is stored (R216). -/
def tbRateHiFx (b : Nat) (v : Word) (s : State) : State :=
  s.setRate b ((v.toNat % 65536) * 2 ^ 32 + (s.reg (rTB_RATE_LO b)).toNat)

def execTbRateWrite (q : Req) (b : Fin 4) (v : Word) (s : State) : Host.Outcome State Fault Refusal :=
  finish s (s.writeReg q (rTB_RATE_HI b) v (tbRateHiFx b))

/-- A write of a TB0 setting, which TB1 to TB3 ignore (R242). -/
def tbCfgFx (b : Nat) (v : Word) (s : State) : State :=
  if b != 0 then s
  else
    let k := fldOf v fTB_CFG_sync_k
    let s := (s.store (rTB_CFG 0) v).put (rTB_CFG 0) fTB_CFG_sync_k (clampN 14 20 k)
    let s := s.put (rTB_CFG 0) fTB_CFG_lock_ns (max 20 (fldOf v fTB_CFG_lock_ns))
    let s := if clampN 14 20 k = k then s else s.warn 0x40
    s.rootLock

/-- A write of TB_EXP (R221): when servo_off returns to 0 the servo takes up from the increment in force. -/
def tbExpFx (b : Nat) (v : Word) (s : State) : State :=
  if b != 0 then s
  else
    let was := s.flag (rTB_EXP 0) fTB_EXP_servo_off
    let s := s.store (rTB_EXP 0) v
    if was && !s.flag (rTB_EXP 0) fTB_EXP_servo_off then
      let n : Nat := 2 ^ 42
      { s with servo := { s.servo with y := ⟨(n : Int) - ((s.base 0).inc : Int), n⟩ } }
    else s

/-! ### Time messages (R225 to R235) -/

def execSyncSend (x : Fin 2) (s : State) : Host.Outcome State Fault Refusal :=
  finish s (s.anise (0, x, 0) fun s => s.syncSend x)

/-- The frame that a command consumes leaves the outbox of output o, where it stands in front. -/
def State.takeOut (s : State) (o : Nat) (f : Frame) : State :=
  match s.outbox o with
  | d :: rest => if d.frame = f then s.setOutbox o rest else s
  | [] => s

/-- Of the messages delivered the one that the operands name: its port, its frame, its raw receive stamp. -/
def execTimeMessageReceived (x p : Fin 2) (f : Frame) (stamp : Nat) (s : State) : Host.Outcome State Fault Refusal :=
  finish s (s.takeTime false x p f (some stamp) 0)

/-- No message from the source for 4 * 2^sync_k slots (R231). -/
def State.sourceTimeout (s : State) : State :=
  if s.isRoot || !s.enabled 0x40 then s else (s.put (rTB_STATUS 0) fTB_STATUS_source_valid 0).lockLost

def execSourceTimeout (s : State) : Host.Outcome State Fault Refusal := finish s s.sourceTimeout

def execTunnelReceived (x p : Fin 2) (f : Frame) (sub : Fin 4) (s : State) : Host.Outcome State Fault Refusal :=
  finish s (s.takeTime true x p f none sub)

/-- A posted residence that no general message has matched in 1 s is dropped and counted (R235). -/
def State.tcOrphan (s : State) (seq : Nat) : State :=
  match s.servo.residences.find? (fun r => r.seq = seq) with
  | some r => ({ s with servo := { s.servo with residences := s.servo.residences.erase r } }).inc rTSU_CNT_TC_ORPHAN
  | none => s

def execTcOrphanTimeout (seq : Nat) (s : State) : Host.Outcome State Fault Refusal := finish s (s.tcOrphan seq)

/-! ### The stamping unit (R237 to R243) -/

/-- A write of TSU_CMD: snap_all latches the four bases and the island count (R243). -/
def tsuCmdFx (v : Word) (s : State) : State :=
  if bitOf v 0 then
    let s := [0, 1, 2, 3].foldl (fun s b => s.snap b) s
    (s.setReg rTSU_IC_LO (toW s.servo.island)).setReg rTSU_IC_HI (toW (s.servo.island / 2 ^ 32))
  else s

def execTsuSnapAll (q : Req) (v : Word) (s : State) : Host.Outcome State Fault Refusal := finish s (s.writeReg q rTSU_CMD v tsuCmdFx)

/-- An armed unit whose compare time is not ahead of its base fires late (R239). -/
def State.fireLate (s : State) (u : Nat) : State :=
  let now := (s.base (s.unitBase u)).total
  if s.comparing u && s.compareTime u ≤ now then s.fireUnit u now true else s

/-- A write of TSU_ARM: bit u arms unit u, which is in compare mode; bit 16 + u disarms it (R239, R243). -/
def tsuArmFx (v : Word) (s : State) : State :=
  (List.range 16).foldl (fun s u =>
    let s := if bitOf v u && s.get (rTSU_EVT_CFG u) fTSU_EVT_CFG_mode = 2 then
        (s.put (rTSU_EVT_STATUS u) fTSU_EVT_STATUS_armed 1).fireLate u else s
    if bitOf v (16 + u) then s.put (rTSU_EVT_STATUS u) fTSU_EVT_STATUS_armed 0 else s) s

def execTsuArm (q : Req) (v : Word) (s : State) : Host.Outcome State Fault Refusal := finish s (s.writeReg q rTSU_ARM v tsuArmFx)

/-- A write of a unit's registers: nanoseconds at most 999,999,999; an armed unit whose time is no longer ahead fires, late, at the next
tick (R239, R243). -/
def tsuEvtFx (u off : Nat) (v : Word) (s : State) : State :=
  let a := rTSU_EVT_CFG u + off
  let drove := s.eventDrive u
  let s := if off = 0x04 || off = 0x10 then s.setReg a (toW (min 999999999 v.toNat)) else s.store a v
  let s := if s.eventDrive u = drove then s else s.emit (.evt u (s.eventDrive u))
  let rest := s.servo.lateUnits.filter (· != u)
  if off ≤ 0x0C then
    let late := s.comparing u && decide (s.compareTime u ≤ (s.base (s.unitBase u)).total)
    { s with servo := { s.servo with lateUnits := if late then u :: rest else rest } }
  else s

/-- The base of an armed unit has reached its compare time (R239). -/
def State.eventCompare (s : State) (u : Nat) : State :=
  let now := (s.base (s.unitBase u)).total
  if s.islandRuns && s.comparing u && s.compareTime u ≤ now then s.fireUnit u now (s.servo.lateUnits.contains u) else s

def execEventCompare (u : Fin 16) (s : State) : Host.Outcome State Fault Refusal := finish s (s.eventCompare u)

/-- A capture item (R238). -/
def captureItem (u base t : Nat) (rising overflow : Bool) : Nat :=
  t / 1000000000 % 65536 * 2 ^ 48 + u * 2 ^ 44 + base * 2 ^ 42 + b2n rising * 2 ^ 41 + b2n overflow * 2 ^ 40 + 2 ^ 39 + t % 1000000000

/-- An edge at the ball of event unit u, `sub` nanoseconds after the last tick of its base (R224, R238). The interpolator's self-check runs
with a capture; an armed checker 1 makes it fail (R241). An edge less than 20 ns after the unit's last captured one is counted as lost. -/
def State.eventCapture (s : State) (u sub : Nat) (rising : Bool) : State :=
  let cfg := s.reg (rTSU_EVT_CFG u)
  let rising := s.pinEdge u rising
  let e := fldOf cfg fTSU_EVT_CFG_edge
  if !s.enabled 0x44 || !s.islandRuns || !s.eventPin u || fldOf cfg fTSU_EVT_CFG_mode != 1 || !(if rising then e.testBit 0 else e.testBit 1) then s
  else
    let s := if (s.armed 0x44 1).isSome then (s.disarm 0x44).raiseInj 31 0x44 else s
    let t := s.servo.island + sub
    let last := spGet (fun _ => 0) s.servo.edgeAt u
    if last != 0 && t + 1 < last + 20 then s.incSat rTSU_CAP_STATUS fTSU_CAP_STATUS_lost
    else if 64 ≤ s.servo.cap.length then
      (((({ s with servo := { s.servo with capLost := true } }).incSat rTSU_CAP_STATUS fTSU_CAP_STATUS_lost).irq 0x44 3).raise 31)
    else
      let b := s.unitBase u
      let it := captureItem u b ((s.base b).total + sub) rising s.servo.capLost
      ({ s with servo := { s.servo with cap := s.servo.cap ++ [it], capLost := false,
                                        edgeAt := spSet (fun _ => 0) s.servo.edgeAt u (t + 1) } }).irq 0x44 2

def execEventCapture (u : Fin 16) (rising : Bool) (sub : Fin 4) (s : State) : Host.Outcome State Fault Refusal := finish s (s.eventCapture u sub rising)

/-- A capture item is popped (R45, R238). -/
def tsuCapPop (s : State) : Option (Nat × State) :=
  match s.servo.cap with
  | [] => none
  | t :: rest =>
    let s := { s with servo := { s.servo with cap := rest } }
    some (t, ((s.setReg rTSU_CAP_POP_HI (toW (t / 2 ^ 32))).setReg rTSU_CAP_REPLAY (toW t)).setReg rTSU_CAP_REPLAY_HI (toW (t / 2 ^ 32)))

def execTsuCapPop (q : Req) (mayPrefetch wide : Bool) (s : State) : Host.Outcome State Fault Refusal :=
  finish s (s.popRead q rTSU_CAP_POP mayPrefetch wide 0 tsuCapPop)

end Sys2Proof.Machine
end

