-- ==== Sys2Proof/Machine/Servo.lean ====
section
/-! DEFINITION. The TB0 servo's update at an epoch boundary (R221, R230, R231, R233). -/
namespace Sys2Proof.Machine

/-- The nearest whole number to a fraction with a positive denominator. -/
def roundDiv (a : Int) (b : Nat) : Int := (2 * a + b) / (2 * b)

/-- A fraction in lowest terms. -/
def Frac.reduce (f : Frac) : Frac :=
  let g := Nat.gcd f.num.natAbs f.den
  if g = 0 then f else ⟨f.num / g, f.den / g⟩

/-- A fraction held within ±1,000 ppm (R230). -/
def Frac.limit (f : Frac) : Frac :=
  if (f.den : Int) < f.num * 1000 then ⟨1, 1000⟩ else if f.num * 1000 < -(f.den : Int) then ⟨-1, 1000⟩ else f

/-- The lock of TB0 after an update with a mean of `sum / n` (R231). -/
def State.servoLock (s : State) (sum : Int) (n : Nat) : State :=
  let lim := s.get (rTB_CFG 0) fTB_CFG_lock_ns
  let cnt := max 1 (s.get (rTB_CFG 0) fTB_CFG_lock_count)
  let m := sum.natAbs
  let v := s.servo
  let good := if m ≤ lim * n * 655360 then v.good + 1 else 0
  let bad := if 4 * lim * n * 655360 < m then v.bad + 1 else 0
  let s : State := { s with servo := { v with good := good, bad := bad } }
  if s.locked then (if cnt ≤ bad then s.lockLost else s)
  else if v.srcLocked && cnt ≤ good then s.lockGain else s

/-- The offset of TB0 against TB1, in 1/655360 ns (R233). -/
def State.tb1Offset (s : State) : Int :=
  (((s.base 0).total : Int) - (s.base 1).total) * 655360 + (((s.base 0).frac : Int) - (s.base 1).frac) * 10 / 2 ^ 24

/-- The correction of TB0 for a mean of `sum / n` (R230): a step, or a rate and the frequency estimate; T is 2^46 in units of 1/655360 ns at full
rate, four times that at quarter rate. -/
def State.servoCorrect (s : State) (sum : Int) (n : Nat) : State :=
  let y := s.servo.y
  let step := s.get (rTB_SERVO 0) fTB_SERVO_step_ns
  if !s.flag (rTB_STATUS 0) fTB_STATUS_step_used && step != 0 && step * n * 655360 < sum.natAbs then
    s.applyStep 0 (roundDiv (-sum) (n * 655360))
  else
    let t : Nat := n * 2 ^ (if s.quarter s.timeAtt then 48 else 46)
    let num : Int := y.num * (t : Int) + sum * (y.den : Int)
    let inc := (2 : Int) ^ 42 - roundDiv ((2 : Int) ^ 42 * num) (y.den * t)
    let y := ((Frac.mk (y.num * ((4 * t : Nat) : Int) + sum * (y.den : Int)) (y.den * (4 * t))).limit).reduce
    (({ s with servo := { s.servo with y := y } }).setRate 0 inc.toNat)

/-- The servo's update at an epoch boundary (R221, R230, R233): the mean shows in TB_OFFSET and decides the lock; the correction is not made
while servo_off = 1. The root of ring 0 has a source only where it follows TB1, which is read once, at the boundary. -/
def State.servoUpdate (s : State) : State :=
  let v := s.servo
  let s : State := { s with servo := { v with sum := 0, n := 0 } }
  let follow := s.isRoot && s.flag (rTB_CFG 0) fTB_CFG_root_follow
  let sum := if follow then s.tb1Offset else v.sum
  let n := if follow then 1 else if s.isRoot then 0 else v.n
  if n = 0 || !s.enabled 0x40 then s
  else
    let s := s.setReg (rTB_OFFSET 0) (toW (toTwos 32 (roundDiv sum (n * 65536))))
    let s := if s.flag (rTB_EXP 0) fTB_EXP_servo_off then s else s.servoCorrect sum n
    if follow then s.rootLock else s.servoLock sum n

end Sys2Proof.Machine
end

