-- ==== Sys2Proof/Machine/FamBoot.lean ====
section
/-! DEFINITION. Boot, firmware update, handover and the mailboxes (R541 to R567). Cumin, FWU and the answers that Anise must give are modelled;
what else Anise's firmware does is the environment's (log entry 8). APPLY_CONFIGURATION, which writes registers, is in FamLate. -/
namespace Sys2Proof.Machine

/-! ### Images (R546, R547) -/

/-- The first octet of slot A or B in the CS0 window, and of the load area (R543, R549). -/
def slotBase (n : Nat) : Nat := if n = 0 then 0x20100000 else 0x20300000
def loadBase : Nat := 0x1C0000

/-- A big-endian field of an image header. -/
def hdrNat (h : List Byte) (i n : Nat) : Nat := beNat (slice h i n)
def hdrVersion (h : List Byte) : Nat := hdrNat h 8 4
def hdrLength (h : List Byte) : Nat := hdrNat h 12 4
def hdrSvn (h : List Byte) : Nat := hdrNat h 20 2

/-- The security version in force: OTP's, or what confirms have raised it to (R557). -/
def State.svn (s : State) : Nat := max Config.otpSvn.toNat s.boot.svn

/-- Octets i to i + n - 1 of a header are zero. -/
def hdrZero (h : List Byte) (i n : Nat) : Bool := (slice h i n).all (· = 0)

/-- Check 1 of R547. -/
def hdrBad (h : List Byte) : Bool :=
  let len := hdrLength h
  hdrNat h 0 4 != 0x414E4953 || hdrNat h 4 2 != 1 || 1 < hdrNat h 6 2 || len < 4 || 1048064 < len || len % 4 != 0 ||
    len ≤ hdrNat h 16 4 || !hdrZero h 28 4 || !hdrZero h 193 63 || !hdrZero h 384 128

/-- The verify code of an image whose header is h and whose body stands at `body` (R547); `bad` where an xSPI read fails. -/
def State.verify (s : State) (h : List Byte) (body : Nat) (bad : Bool) : Nat :=
  let k := hdrNat h 192 1
  let digest := beNat (sha256 (h.take 256))
  if bad then 8
  else if hdrBad h then 1
  else if 3 < k || Config.otpRevoked.toNat.testBit k || beNat (sha256 (slice h 64 64)) != (Config.otpVendorHash k).toNat then 2
  else if !ecdsaOk (hdrNat h 64 32) (hdrNat h 96 32) digest (hdrNat h 256 32) (hdrNat h 288 32) then 3
  else if Config.otpCustomerHash != 0 && beNat (sha256 (slice h 128 64)) != Config.otpCustomerHash.toNat then 4
  else if Config.otpCustomerHash != 0 && !ecdsaOk (hdrNat h 128 32) (hdrNat h 160 32) digest (hdrNat h 320 32) (hdrNat h 352 32) then 5
  else if hdrSvn h < s.svn then 6
  else if sha256 (s.bytes body (hdrLength h)) != slice h 32 32 then 7
  else 0

/-- The verify code of the image at an address. -/
def State.verifyAt (s : State) (a : Nat) (bad : Bool) : Nat := s.verify (s.bytes a 512) (a + 512) bad

/-! ### Boot control records (R544) -/

/-- Octets of copy 0 or 1. -/
def State.bcrCopy (s : State) (n : Nat) : List Byte := s.bytes (0x20000000 + 0x1000 * n) 64
def bcrValid (r : List Byte) : Bool := hdrNat r 0 4 = 0x424F4F54 && beNat (r.drop 60) = (crc32c (r.take 60)).toNat

/-- The copy that governs, none where neither is valid. -/
def State.bcrCopyNo (s : State) : Option Nat :=
  let v0 := bcrValid (s.bcrCopy 0)
  let v1 := bcrValid (s.bcrCopy 1)
  if v0 && v1 then some (if hdrNat (s.bcrCopy 0) 4 4 < hdrNat (s.bcrCopy 1) 4 4 then 1 else 0)
  else if v0 then some 0 else if v1 then some 1 else none

/-- The record that governs; slot A active and no trial where there is none. -/
def State.bcr (s : State) : List Byte :=
  match s.bcrCopyNo with
  | some n => s.bcrCopy n
  | none => beBytes 4 0x424F4F54 ++ beBytes 4 0 ++ [0, 0xFF, 0, 26] ++ List.replicate 52 0

def bcrActive (r : List Byte) : Nat := hdrNat r 8 1 % 2
def bcrTrial (r : List Byte) : Option Nat := if hdrNat r 10 1 = 1 && hdrNat r 9 1 ≤ 1 then some (hdrNat r 9 1) else none

/-- A new record in the other copy, with sequence + 1 and the fields given; the device sizes stay. -/
def State.writeBcr (s : State) (active trial left verActive verTrial : Nat) : State :=
  let r := s.bcr
  let n := match s.bcrCopyNo with
    | some n => 1 - n
    | none => 0
  let x := beBytes 4 0x424F4F54 ++ beBytes 4 (hdrNat r 4 4 + 1) ++ [toB active, toB trial, toB left] ++ slice r 11 2 ++ [0, 0, 0]
    ++ beBytes 4 verActive ++ beBytes 4 verTrial ++ List.replicate 36 0
  s.setBytes (0x20000000 + 0x1000 * n) (x ++ beBytes 4 (crc32c x).toNat)

/-- FWU_STATUS shows the inactive slot (R565). -/
def State.showInactive (s : State) : State := s.put rFWU_STATUS fFWU_STATUS_inactive (1 - bcrActive s.bcr)
def State.inactiveSlot (s : State) : Nat := 1 - bcrActive s.bcr

/-! ### Measurements (R549) -/

/-- MEASn as octets. -/
def State.meas (s : State) (n : Nat) : List Byte := (List.range 8).flatMap (fun w => beBytes 4 (s.reg (rFWU_MEAS n w)).toNat)

/-- MEASn is extended by 32 octets. -/
def State.extend (s : State) (n : Nat) (x : List Byte) : State :=
  let m := sha256 (s.meas n ++ x)
  (List.range 8).foldl (fun (s : State) w => s.setReg (rFWU_MEAS n w) (toW (beNat (slice m (4 * w) 4)))) s

/-! ### Starting an image (R548, R560, R562) -/

/-- The firmware partition takes the body at `a`, and Anise starts: the running header and version, MEAS1, and ANI_BOOT_INFO. -/
def State.startImage (s : State) (h : List Byte) (a slot : Nat) (info : Word) : State :=
  let s := s.setBytes 0 (s.bytes a (hdrLength h))
  let s := (s.extend 1 (sha256 h)).setReg rFWU_RUN_VERSION (toW (hdrVersion h))
  let s := s.setReg rANI_BOOT_INFO info
  { s with boot := { s.boot with hdr := h, slot := slot } }

/-- The 10 s of R557 begin. -/
def State.confirmStart (s : State) : State :=
  { s.put rFWU_STATUS fFWU_STATUS_confirm_pending 1 with boot := { s.boot with since := s.pd.ticks } }

/-- FWU_CONFIRM_LEFT as read. -/
def State.confirmLeft (s : State) : Word :=
  if s.flag rFWU_STATUS fFWU_STATUS_confirm_pending then toW (10000 - (s.pd.ticks - s.boot.since) * 4 / 1000000) else 0

/-- The tick with which less than 1 s is left to confirm sets PG_IRQ_STAT bit 5 (R565). -/
def State.confirmSoon (s : State) : State :=
  if s.flag rFWU_STATUS fFWU_STATUS_confirm_pending && s.pd.ticks = s.boot.since + 2250000001 then s.irq 0xC0 5 else s

/-- A type 0x40 ledger entry (R512). -/
def State.fwEntry (s : State) (detail slot version : Nat) : State := s.stage 0x40 detail ([toB slot, 0] ++ beBytes 4 version)

/-- The type 0x01 ledger entry of a start (R512): BOOT_SEL and the HPRIV straps as CHIP_STRAPS holds them. -/
def State.startEntry (s : State) (version : Nat) : State :=
  s.stage 0x01 (s.get rRST_CAUSE fRST_CAUSE_code) ([toB (s.reg rPD_RESET_CAUSE).toNat, toB ((s.reg rCHIP_STRAPS).toNat &&& 0x33)] ++ beBytes 4 version)

/-- BOOT_SEL as ANI_BOOT_INFO shows it. -/
def State.bootSel (s : State) : Nat := s.get rCHIP_STRAPS fCHIP_STRAPS_boot_sel

/-- Cumin waits for an image in the load area (R562): host boot, ring boot, or recovery. -/
def State.cuminWaits (s : State) (recovery : Bool) (sel : Nat) : State :=
  let s := (s.put rFWU_STATUS fFWU_STATUS_cumin 1).put rFWU_CFG fFWU_CFG_target 1
  let ring := sel = 3 && !recovery
  if recovery || (ring && Config.otpBootRing = 1023) then
    let s := s.put rFWU_STATUS fFWU_STATUS_recovery 1
    (s.put (rPG_CTRL 0x68) fPG_CTRL_enable 1).put (rPG_CTRL 0x69) fPG_CTRL_enable 1
  else if ring then
    let s := (s.put (rPG_CTRL 0x20) fPG_CTRL_enable 1).put (rPG_CTRL 0x28) fPG_CTRL_enable 1
    let s := (s.put rRCTL_CFG fRCTL_CFG_priority 0).put rRCTL_RING fRCTL_RING_ring_a Config.otpBootRing.toNat
    let s := s.put rFWU_CFG fFWU_CFG_ring_en 1
    let s := [0, 1].foldl (fun (s : State) p => portCtrlFx 0 p (s.reg (rRGA_PORT_CTRL 0 p) ||| 1) s) s
    rctlCtrlFx (s.reg rRCTL_CTRL ||| 1) s
  else s.put (rPG_CTRL (0x67 + sel)) fPG_CTRL_enable 1

/-- Boot from flash: steps 3 to 8 of R548. `bad` has bit n set where slot n fails to read. `trials` is false on exit from L4 or L5 (R536). -/
def State.flashBoot (s : State) (bad : Nat) (trials : Bool) : State :=
  let r := s.bcr
  let s := s.put rXSPI_CS0_CFG fXSPI_CS0_CFG_size (clampN 26 28 (hdrNat r 11 1))
  let s := s.put rXSPI_CS1_CFG fXSPI_CS1_CFG_size (if hdrNat r 12 1 = 0 then 0 else clampN 20 28 (hdrNat r 12 1))
  let trial := if trials then bcrTrial r else none
  let first := trial.getD (bcrActive r)
  let s := if trial.isSome then s.writeBcr (bcrActive r) first 0 (hdrNat r 16 4) (hdrNat r 20 4) else s
  let c1 := s.verifyAt (slotBase first) (bad.testBit first)
  let c2 := s.verifyAt (slotBase (1 - first)) (bad.testBit (1 - first))
  if c1 != 0 && c2 != 0 then (s.cuminWaits true 0).showInactive
  else
    let slot := if c1 = 0 then first else 1 - first
    let h := s.bytes (slotBase slot) 512
    let isTrial := trial.isSome && c1 = 0
    let info := slot + 2 * b2n (!trials) + 8 * b2n isTrial + s.bootSel * 2 ^ 16 + (if c1 = 0 then 0 else c1 * 2 ^ 24)
    let s := (s.extend 0 (beBytes 32 (Config.cuminMeasure s.svn).toNat)).startImage h (slotBase slot + 512) slot (toW info)
    let s := (s.startEntry (hdrVersion h)).showInactive
    if isTrial then (s.put rFWU_STATUS fFWU_STATUS_trial 1).confirmStart else s

/-- Cumin runs: after a reset (R548), or on exit from L4 or L5 (R536 step 4). -/
def State.cuminStart (s : State) (otpBad : Bool) (bad : Nat) : State :=
  if s.pwr.resume != 0 then ({ s with pwr := { s.pwr with resume := 0 } }).flashBoot bad false
  else if !s.rst.active then s
  else
    let s : State := { s with rst := { s.rst with active := false, causes := [] } }
    let s := s.setReg rXSPI_CS0_CFG (toW (b2n Config.otpXspiBoot * 2 ^ 8 + 26))
    let s := if otpBad then s.raise 123 else s
    if otpBad || !s.flag rCHIP_STRAPS fCHIP_STRAPS_recover_n then s.cuminWaits true 0
    else if s.bootSel = 0 then s.flashBoot bad true
    else s.cuminWaits false s.bootSel

def execCuminStart (otpBad : Bool) (bad : Nat) (s : State) : Host.Outcome State Fault Refusal := finish s (s.cuminStart otpBad bad)

/-! ### Update blocks (R550 to R555) -/

/-- The target is the load area: FWU_CFG.target, or Cumin runs (R549, R565). -/
def State.toLoad (s : State) : Bool := s.flag rFWU_STATUS fFWU_STATUS_cumin || s.flag rFWU_CFG fFWU_CFG_target
def State.updBase (s : State) : Nat := if s.toLoad then loadBase else slotBase s.inactiveSlot
def State.updSize (s : State) : Nat := if s.toLoad then 0x100000 else 0x200000

/-- FWU_RESULT of a command, which has completed. -/
def State.fwuResult (s : State) (bit verify block code : Nat) : State :=
  (s.setReg rFWU_RESULT (toW (2 ^ 31 + bit * 2 ^ 24 + verify * 2 ^ 16 + block * 2 ^ 8 + code))).irq 0xC0 2

/-- A refused block (R552). -/
def State.blockRefused (s : State) (bit code : Nat) : State := ((s.inc rFWU_CNT_REFUSED).irq 0xC0 4).fwuResult bit 0 code 0

/-- Memory of n octets at a holds what erased flash or a cleared area holds. -/
def State.eraseRange (s : State) (a n : Nat) : State := { s with mem := spDrop (fun x => a ≤ x && x < a + n) s.mem }

/-- FWU_CMD.open. -/
def State.fwuOpen (s : State) : State :=
  if s.flag rFWU_STATUS fFWU_STATUS_confirm_pending && s.boot.slot = s.inactiveSlot then s.blockRefused 0 6
  else
    let s := s.put rFWU_SESSION fFWU_SESSION_session (s.get rFWU_SESSION fFWU_SESSION_session + 1)
    let s := (s.put rFWU_STATUS fFWU_STATUS_session_open 1).put rFWU_STATUS fFWU_STATUS_commit_ok 0
    let s : State := { s with boot := { s.boot with pages := [] } }
    if s.toLoad then (s.eraseRange loadBase 0x100000).fwuResult 0 0 0 0 else s.put rFWU_STATUS fFWU_STATUS_erasing 1

/-- The erase of the inactive slot has ended. -/
def execFwuEraseDone (s : State) : Host.Outcome State Fault Refusal :=
  finish s (if s.flag rFWU_STATUS fFWU_STATUS_erasing then
      ((s.eraseRange (slotBase s.inactiveSlot) 0x200000).put rFWU_STATUS fFWU_STATUS_erasing 0).fwuResult 0 0 0 0
    else s)

/-- Blocks are not taken now: block code 6. -/
def State.fwuBusy (s : State) : Bool :=
  !s.flag rFWU_STATUS fFWU_STATUS_session_open || s.flag rFWU_STATUS fFWU_STATUS_erasing || s.flag rFWU_STATUS fFWU_STATUS_handover_active

/-- The pages that a block at an offset touches. -/
def blockPagesOf (off len : Nat) : List Nat := (List.range ((off + len - 1) / 256 + 1 - off / 256)).map (· + off / 256)

/-- The block code of a block (R552); `bad` where the device fails to program. -/
def State.blockCode (s : State) (h data : List Byte) (bad : Bool) : Nat :=
  let off := hdrNat h 8 4
  let len := hdrNat h 12 4
  if hdrNat h 0 4 != 0x4657424B || hdrNat h 4 2 != s.get rFWU_SESSION fFWU_SESSION_session then 1
  else if off % 256 != 0 || s.updSize < off + len then 2
  else if len = 0 || 65536 < len then 3
  else if (blockPagesOf off len).any s.boot.pages.contains then 4
  else if (crc32c data).toNat != hdrNat h 16 4 then 5
  else if s.fwuBusy then 6
  else if bad then 7
  else 0

/-- A block of octets at a local address is handled (R552). -/
def State.fwuBlock (s : State) (a bit : Nat) (bad : Bool) : State :=
  let h := s.bytes a 24
  let off := hdrNat h 8 4
  let len := hdrNat h 12 4
  let data := if len ≤ 65536 then s.bytes (a + 24) len else []
  let code := s.blockCode h data bad
  if code != 0 then s.blockRefused bit code
  else
    let s := s.setBytes (s.updBase + off) data
    let s : State := { s with boot := { s.boot with pages := s.boot.pages ++ blockPagesOf off len } }
    ((s.put rFWU_STATUS fFWU_STATUS_commit_ok 0).inc rFWU_CNT_BLOCKS).fwuResult bit 0 0 0

/-- FWU_CMD.write: a block in general SRAM or the CS1 window; anywhere else there is none. -/
def State.fwuWrite (s : State) (bad : Bool) : State :=
  let a := (s.reg rFWU_BLK_ADDR).toNat
  match s.memRange a 24 with
  | some .general | some .cs1 => s.fwuBlock a 1 bad
  | _ => s.blockRefused 1 1

/-- FWU_CMD.commit (R555). -/
def State.fwuCommit (s : State) (bad : Bool) : State :=
  if s.flag rFWU_STATUS fFWU_STATUS_erasing then s.fwuResult 2 0 6 0
  else
    let a := slotBase s.inactiveSlot
    let h := s.bytes a 512
    let c := s.verifyAt a bad
    if c = 0 then
      let s := (s.put rFWU_STATUS fFWU_STATUS_commit_ok 1).setReg rFWU_IMG_VERSION (toW (hdrVersion h))
      (s.fwEntry 1 s.inactiveSlot (hdrVersion h)).fwuResult 2 0 0 0
    else ((s.put rFWU_STATUS fFWU_STATUS_commit_ok 0).inc rFWU_CNT_COMMIT_FAIL).fwuResult 2 c 0 0

/-- FWU_CMD.activate, by a Warden (R556). -/
def State.fwuActivate (s : State) (q : Req) : State :=
  if s.flag rFWU_STATUS fFWU_STATUS_commit_ok && s.levelOf q = .warden then
    let r := s.bcr
    (s.writeBcr (bcrActive r) s.inactiveSlot 1 (hdrNat r 16 4) (s.reg rFWU_IMG_VERSION).toNat).fwuResult 3 0 0 0
  else s.fwuResult 3 0 0 9

/-! ### Handover (R559 to R561) -/

/-- A handover is refused (R560). -/
def State.handoverRefused (s : State) : Bool :=
  let h := s.bytes (slotBase s.inactiveSlot) 512
  let v := hdrNat s.boot.hdr 22 2
  !s.flag rFWU_STATUS fFWU_STATUS_commit_ok || v < hdrNat h 24 2 || hdrNat h 26 2 < v ||
    s.flag rFWU_STATUS fFWU_STATUS_confirm_pending || s.flag rFWU_STATUS fFWU_STATUS_trial || s.flag rFWU_STATUS fFWU_STATUS_cumin ||
    s.flag rKEY_STATUS fKEY_STATUS_pending || s.flag rFWU_STATUS fFWU_STATUS_erasing

/-- Step 1 of a handover, or of a rollback, to a slot's image. -/
def State.handoverBegin (s : State) (slot : Nat) (back : Bool) : State :=
  let s := (s.put rFWU_STATUS fFWU_STATUS_handover_active 1).emit .handover
  let s := s.setReg rANI_HANDOVER 0
  { s with boot := { s.boot with ho := 1, hoSlot := slot, hoBack := back, hoOpen := true } }

/-- FWU_CMD.handover by a Warden. -/
def State.fwuHandover (s : State) (q : Req) : State :=
  if s.levelOf q != .warden || s.handoverRefused then s.fwuResult 4 0 0 9
  else (s.handoverBegin s.inactiveSlot false).fwuResult 4 0 0 0

/-- Step 3: Anise is stopped and the watchdog held. -/
def State.handoverStop (s : State) : State :=
  if s.boot.ho = 1 then { s with boot := { s.boot with ho := 2 }, rst := { s.rst with stage := 0 } } else s

/-- The handover block is one that an image reads (R559). -/
def State.recordValid (s : State) (h : List Byte) : Bool :=
  let b := s.bytes 0x2F0000 32
  let n := hdrNat b 12 4
  hdrNat b 0 4 = 0x48414E44 && n ≤ 65504 && (crc32c (s.bytes 0x2F0020 n)).toNat = hdrNat b 16 4 &&
    hdrNat h 24 2 ≤ hdrNat b 4 2 && hdrNat b 4 2 ≤ hdrNat h 26 2

/-- Steps 4 and 5: the body is copied and checked again; where the check fails the active slot's image starts instead, as a rollback. -/
def State.handoverCopy (s : State) (bad : Nat) : State :=
  if s.boot.ho != 2 then s
  else
    let good := fun n => !bad.testBit n && (let h := s.bytes (slotBase n) 512; sha256 (s.bytes (slotBase n + 512) (hdrLength h)) = slice h 32 32)
    let ok := good s.boot.hoSlot
    let slot := if ok then s.boot.hoSlot else bcrActive s.bcr
    let back := s.boot.hoBack || !ok
    let h := s.bytes (slotBase slot) 512
    let info := slot + 32 + 64 * b2n back + 128 * b2n (s.recordValid h) + s.bootSel * 2 ^ 16
    let s := s.startImage h (slotBase slot + 512) slot (toW info)
    let s : State := { s with boot := { s.boot with ho := 3, hoOpen := false } }
    let s := (s.put rFWU_STATUS fFWU_STATUS_trial 0).confirmStart.wdtResume
    let s := s.fwEntry 2 slot (hdrVersion h)
    if ok then s else s.fwuResult 4 7 0 9

def execHandoverCopyDone (bad : Nat) (s : State) : Host.Outcome State Fault Refusal := finish s (s.handoverCopy bad)

/-- The last response of a mailbox again (R564). -/
def State.mbRepeat (s : State) (h : Nat) : State :=
  ((s.put (rANI_MB_STATUS h) fANI_MB_STATUS_busy 0).put (rANI_MB_STATUS h) fANI_MB_STATUS_done 1).irq 0xC2 (2 + h)

/-- Anise does what has waited for the end of the handover (R561). -/
def State.runHeld (s : State) (w : Nat × Nat × Nat) : State :=
  if w.1 = 0 then s.syncSend w.2.1 else if w.1 = 1 then s.servoUpdate else s.mbRepeat w.2.1

/-- A write of ANI_HANDOVER by master 0x00: ready ends step 2, resumed ends the handover,
and the work that has waited is done. -/
def aniHandoverFx (v : Word) (s : State) : State :=
  let s := s.store rANI_HANDOVER v
  let s := if bitOf v 0 then s.handoverStop else s
  if bitOf v 1 && s.boot.ho = 3 then
    let t : State := { s.put rFWU_STATUS fFWU_STATUS_handover_active 0 with boot := { s.boot with ho := 0, held := [], heldRes := [] } }
    s.boot.heldRes.foldl (fun (s : State) r => s.postResidence r) (s.boot.held.foldl (fun (s : State) w => s.runHeld w) t)
  else s

def execHandoverReady (q : Req) (v : Word) (s : State) : Host.Outcome State Fault Refusal := finish s (s.writeReg q rANI_HANDOVER (v ||| 1) aniHandoverFx)
def execHandoverResumed (q : Req) (v : Word) (s : State) : Host.Outcome State Fault Refusal :=
  finish s (s.writeReg q rANI_HANDOVER (v ||| 2) aniHandoverFx)

/-- 10 ms have passed without ready. -/
def execHandoverTimeout (s : State) : Host.Outcome State Fault Refusal := finish s s.handoverStop

/-! ### Confirm and rollback (R557, R558) -/

/-- FWU_CMD.confirm. The committed image, if it was this one, is no longer in the inactive slot. -/
def State.fwuConfirm (s : State) : State :=
  if !s.flag rFWU_STATUS fFWU_STATUS_confirm_pending then s.fwuResult 5 0 0 0
  else
    let v := hdrVersion s.boot.hdr
    let changed := s.boot.slot != bcrActive s.bcr
    let s := s.writeBcr s.boot.slot 0xFF 0 v 0
    let s := (s.put rFWU_STATUS fFWU_STATUS_confirm_pending 0).put rFWU_STATUS fFWU_STATUS_trial 0
    let s := if changed then s.put rFWU_STATUS fFWU_STATUS_commit_ok 0 else s
    let s : State := { s with boot := { s.boot with svn := if hdrNat s.boot.hdr 6 2 = 1 then max s.boot.svn (hdrSvn s.boot.hdr) else s.boot.svn } }
    ((s.fwEntry 3 s.boot.slot v).showInactive).fwuResult 5 0 0 0

/-- 10 s have passed without a confirm: a trial is rolled back by a warm reset, a handover by a handover back. -/
def State.confirmTimeout (s : State) : State :=
  if !s.flag rFWU_STATUS fFWU_STATUS_confirm_pending then s
  else
    let s := ((s.raise 121).irq 0xC0 5).fwEntry 4 s.boot.slot (hdrVersion s.boot.hdr)
    if s.flag rANI_BOOT_INFO fANI_BOOT_INFO_handover then
      (s.put rFWU_STATUS fFWU_STATUS_confirm_pending 0).handoverBegin (bcrActive s.bcr) true
    else s.warmReset 0x14

def execConfirmTimeout (s : State) : Host.Outcome State Fault Refusal := finish s (s.ifOn 0xC0 fun s => s.confirmTimeout)

/-! ### Load and send (R553, R562) -/

/-- FWU_CMD.load, while Cumin runs: an image that verifies starts from the load area. -/
def State.fwuLoad (s : State) : State :=
  if !s.flag rFWU_STATUS fFWU_STATUS_cumin then s
  else
    let h := s.bytes loadBase 512
    let c := s.verifyAt loadBase false
    if c != 0 then s.fwuResult 6 c 0 0
    else
      let rec_ := s.flag rFWU_STATUS fFWU_STATUS_recovery
      let s := s.extend 0 (beBytes 32 (Config.cuminMeasure s.svn).toNat)
      let s := s.startImage h (loadBase + 512) 0 (toW (4 + 16 * b2n rec_ + s.bootSel * 2 ^ 16))
      let s := (s.put rFWU_STATUS fFWU_STATUS_cumin 0).put rFWU_CFG fFWU_CFG_target 0
      let s := s.startEntry (hdrVersion h)
      let s := if rec_ then s.fwEntry 5 0 (hdrVersion h) else s
      s.fwuResult 6 0 0 0

/-- A fragment of a block (R553). -/
def fwFragment (l : List Byte) (session off len n count : Nat) : List Byte :=
  beBytes 2 session ++ beBytes 2 n ++ beBytes 4 off ++ beBytes 3 len ++ [0] ++ beBytes 2 count ++ [0, 0] ++ slice l (448 * n) 448

/-- FWU_CMD.send: header and data of the block at FWU_BLK_ADDR, in fragments to one node; a hub without a station number
sends none, and one to station 255 is refused (R16). -/
def State.fwuSend (s : State) : State :=
  match s.nodeId 0 with
  | none => (s.irq 0xC0 3).fwuResult 7 0 0 0
  | some me =>
    if s.get rFWU_SEND_NODE fFWU_SEND_NODE_node % 256 = 255 then s.fwuResult 7 0 0 9 else
    let h := s.bytes (s.reg rFWU_BLK_ADDR).toNat 24
    let len := min 65536 (hdrNat h 12 4)
    let l := s.bytes (s.reg rFWU_BLK_ADDR).toNat (24 + len)
    let count := (24 + len + 447) / 448
    let s := (List.range count).foldl (fun (s : State) n =>
      let f := mkFrame 0xC 3 0 0 0 (s.get rFWU_SEND_NODE fFWU_SEND_NODE_node) me 0xF4C0 s.boot.send
        (fwFragment l (hdrNat h 4 2) (hdrNat h 8 4) len n count)
      ({ s with boot := { s.boot with send := (s.boot.send + 1) % 65536 } }).present 14 f) s
    (s.irq 0xC0 3).fwuResult 7 0 0 0

/-- A write of FWU_CMD by q; `bad` where the device fails in it. -/
def fwuCmdFx (q : Req) (bad : Bool) (v : Word) (s : State) : State :=
  let s := if bitOf v 0 then s.fwuOpen else s
  let s := if bitOf v 1 then s.fwuWrite bad else s
  let s := if bitOf v 2 then s.fwuCommit bad else s
  let s := if bitOf v 3 then s.fwuActivate q else s
  let s := if bitOf v 4 then s.fwuHandover q else s
  let s := if bitOf v 5 then s.fwuConfirm else s
  let s := if bitOf v 6 then s.fwuLoad else s
  let s := if bitOf v 7 then s.fwuSend else s
  if bitOf v 8 then (s.put rFWU_STATUS fFWU_STATUS_session_open 0).fwuResult 8 0 0 0 else s

def execFwuOpen (q : Req) (v : Word) (s : State) : Host.Outcome State Fault Refusal := finish s (s.writeReg q rFWU_CMD (v ||| 0x001) (fwuCmdFx q false))
def execFwuWrite (q : Req) (v : Word) (bad : Bool) (s : State) : Host.Outcome State Fault Refusal :=
  finish s (s.writeReg q rFWU_CMD (v ||| 0x002) (fwuCmdFx q bad))
def execFwuCommit (q : Req) (v : Word) (bad : Bool) (s : State) : Host.Outcome State Fault Refusal :=
  finish s (s.writeReg q rFWU_CMD (v ||| 0x004) (fwuCmdFx q bad))
def execFwuActivate (q : Req) (v : Word) (s : State) : Host.Outcome State Fault Refusal := finish s (s.writeReg q rFWU_CMD (v ||| 0x008) (fwuCmdFx q false))
def execFwuHandover (q : Req) (v : Word) (s : State) : Host.Outcome State Fault Refusal := finish s (s.writeReg q rFWU_CMD (v ||| 0x010) (fwuCmdFx q false))
def execFwuConfirm (q : Req) (v : Word) (s : State) : Host.Outcome State Fault Refusal := finish s (s.writeReg q rFWU_CMD (v ||| 0x020) (fwuCmdFx q false))
def execFwuLoad (q : Req) (v : Word) (s : State) : Host.Outcome State Fault Refusal := finish s (s.writeReg q rFWU_CMD (v ||| 0x040) (fwuCmdFx q false))
def execFwuSend (q : Req) (v : Word) (s : State) : Host.Outcome State Fault Refusal := finish s (s.writeReg q rFWU_CMD (v ||| 0x080) (fwuCmdFx q false))
def execFwuAbort (q : Req) (v : Word) (s : State) : Host.Outcome State Fault Refusal := finish s (s.writeReg q rFWU_CMD (v ||| 0x100) (fwuCmdFx q false))

/-! ### Fragments (R554) -/

/-- The block being assembled is discarded. -/
def State.asmDrop (s : State) : State :=
  if s.boot.asm.isSome then { s.inc rFWU_CNT_FRAG_DISCARD with boot := { s.boot with asm := none } } else s

/-- A fragment joins its block, which is handled once complete; one beyond the assembly area is not taken; `bad` where the device fails in it. -/
def State.asmAdd (s : State) (l : List Byte) (bad : Bool) : State :=
  let session := hdrNat l 0 2
  let n := hdrNat l 2 2
  let off := hdrNat l 4 4
  let count := hdrNat l 12 2
  let same := s.boot.asm.any (fun a => a.session = session && a.offset = off)
  let s := if same then s else s.asmDrop
  let a := (s.boot.asm).getD ⟨session, off, hdrNat l 8 3, count, []⟩
  let fits := decide (n < 292)
  let a := if a.got.contains n || a.count ≤ n || !fits then a else { a with got := a.got ++ [n] }
  let s := if fits then s.setBytes (0x2C0000 + 448 * n) ((l.drop 16).take 448) else s
  if a.got.length = a.count && a.count != 0 then ({ s with boot := { s.boot with asm := none } }).fwuBlock 0x2C0000 1 bad
  else { s with boot := { s.boot with asm := some a } }

/-- FWU takes the oldest kind 0xC frame delivered at FP14. -/
def State.fwFragmentIn (s : State) (bad : Bool) : State :=
  match (s.outbox 14).find? (fun d => d.frame.kind = 0xC) with
  | none => s
  | some d =>
    let s := s.setOutbox 14 ((s.outbox 14).erase d)
    if d.discard then s
    else if !s.flag rFWU_CFG fFWU_CFG_ring_en || d.level = 0 || d.frame.payload.length < 16 then s.inc rFWU_CNT_FRAG_DISCARD
    else s.asmAdd d.frame.payload bad

def execFwFragmentReceived (bad : Bool) (s : State) : Host.Outcome State Fault Refusal :=
  finish s (s.ifOn 0xC0 fun s => s.fwFragmentIn bad)

/-- 100 ms after the first fragment of a block. -/
def execFwAssemblyTimeout (s : State) : Host.Outcome State Fault Refusal := finish s s.asmDrop

/-- A write of FWU_MEAS_EXT (R549). -/
def measExtFx (v : Word) (s : State) : State :=
  let n := v.toNat % 4
  if n < 2 then s.warn 0xC0 else s.extend n ((List.range 8).flatMap (fun w => beBytes 4 (s.reg (rFWU_MEAS_DATA w)).toNat))

def execFwuMeasExt (q : Req) (v : Word) (s : State) : Host.Outcome State Fault Refusal := finish s (s.writeReg q rFWU_MEAS_EXT v measExtFx)

/-- A device does not respond in its time (R566). -/
def execXspiTimeout (s : State) : Host.Outcome State Fault Refusal :=
  finish s (s.ifOn 0xC1 fun s => ((s.inc rXSPI_CNT_TIMEOUT).irq 0xC1 2).raise 120)

/-- FWU_OTP_INFO as read. -/
def State.otpInfo (s : State) : Word :=
  toW (Config.otpBootRing.toNat * 2 ^ 20 + b2n Config.otpXspiBoot * 2 ^ 16 + b2n (Config.otpCustomerHash != 0) * 2 ^ 12 + Config.otpRevoked.toNat * 2 ^ 8 + s.svn)

/-! ### Mailboxes (R563, R564) -/

/-- The request of host h. -/
def mbBase (h : Nat) : Nat := 0x2E0000 + 0x1000 * h
def State.mbCode (s : State) (h : Nat) : Nat := leNat (s.bytes (mbBase h) 2)
def State.mbLength (s : State) (h : Nat) : Nat := leNat (s.bytes (mbBase h + 4) 4)
def State.mbSeq (s : State) (h : Nat) : Nat := if h = 0 then s.boot.seqA else s.boot.seqB

/-- Anise writes a response and sets done. -/
def State.mbRespond (s : State) (h status : Nat) (payload : List Byte) : State :=
  let code := s.mbCode h
  let s := s.setBytes (mbBase h + 0x800) (leBytes 2 code ++ leBytes 2 (s.mbSeq h) ++ leBytes 4 payload.length ++ [toB status] ++ List.replicate 7 0 ++ payload)
  let s := s.setReg (rANI_MB_STATUS h) (toW (2 ^ 30 + s.mbSeq h))
  let s : State := { s with boot := if h = 0 then { s.boot with ansA := true } else { s.boot with ansB := true } }
  s.irq 0xC2 (2 + h)

/-- A doorbell of host h (R564): a violation while busy or done, a repeat of the last answer, or a new request. -/
def mbDoorbellFx (h : Nat) (v : Word) (s : State) : State :=
  let seq := v.toNat % 65536
  let a := rANI_MB_STATUS h
  if s.flag a fANI_MB_STATUS_busy || s.flag a fANI_MB_STATUS_done then (s.inc rANI_CNT_MB_VIOL).raise 122
  else if (if h = 0 then s.boot.ansA else s.boot.ansB) && s.get a fANI_MB_STATUS_seq = seq then
    (if s.flag rFWU_STATUS fFWU_STATUS_handover_active then s.put a fANI_MB_STATUS_busy 1 else s).anise (3, h, 0) fun s => s.mbRepeat h
  else
    let s : State := { s with boot := if h = 0 then { s.boot with seqA := seq } else { s.boot with seqB := seq } }
    s.put a fANI_MB_STATUS_busy 1

def execMailboxDoorbell (q : Req) (h : Fin 2) (v : Word) (s : State) : Host.Outcome State Fault Refusal :=
  finish s (s.writeReg q (rANI_MB_DOORBELL h) v (mbDoorbellFx h))

/-- Anise acts on the request of host h when it is of this code and its payload has this length; a code that no message has is answered with
status 1, a wrong length with 2. Nothing is answered during a handover (R561). -/
def State.mbAct (s : State) (h code len : Nat) (act : State → State) : State :=
  if !s.flag (rANI_MB_STATUS h) fANI_MB_STATUS_busy || s.flag rFWU_STATUS fFWU_STATUS_handover_active || s.flag rFWU_STATUS fFWU_STATUS_cumin then s
  else if s.mbCode h = code then (if s.mbLength h = len then act s else s.mbRespond h 2 [])
  else if [0x01, 0x02, 0x10, 0x11, 0x20, 0x30, 0x40, 0x50].contains (s.mbCode h) then s
  else s.mbRespond h 1 []

/-- The host of a mailbox as a requester. -/
def mbHost (h : Nat) : Req := ⟨1 + h, 0, 0⟩

def execMailboxVersion (h : Fin 2) (s : State) : Host.Outcome State Fault Refusal :=
  finish s (s.mbAct h 0x01 0 fun s =>
    let x := s.boot.hdr
    s.mbRespond h 0 (([hdrVersion x, hdrNat x 22 2, hdrNat x 24 2, hdrNat x 26 2, (s.reg rANI_CUMIN_VERSION).toNat, s.boot.slot].map (leBytes 4)).flatten))

/-- A register as the health message gives it; the level of a root reads 0 (R228). -/
def State.healthWord (s : State) (a : Nat) : Nat :=
  (if a = rTB_STATUS 0 && s.isRoot then fldPut (s.reg a) fTB_STATUS_level 0 else s.reg a).toNat

def execMailboxHealth (h : Fin 2) (s : State) : Host.Outcome State Fault Refusal :=
  finish s (s.mbAct h 0x02 0 fun s =>
    s.mbRespond h 0 (([rFLT_PENDING, rTB_STATUS 0, rRCTL_STATUS 0, rRCTL_STATUS 1, rPWR_STATUS].map (fun a => leBytes 4 (s.healthWord a))).flatten))

/-- The restore area as the firmware composes it is the operand. -/
def execSaveRestoreArea (h : Fin 2) (data : List Byte) (s : State) : Host.Outcome State Fault Refusal :=
  finish s (s.mbAct h 0x11 0 fun s =>
    let d := data.take 0xC000
    (s.setBytes 0x300000 d).mbRespond h 0 (leBytes 4 d.length))

def execServoState (h : Fin 2) (s : State) : Host.Outcome State Fault Refusal :=
  finish s (s.mbAct h 0x20 0 fun s =>
    s.mbRespond h 0 (([rTB_OFFSET 0, rTB_RATE_LO 0, rTB_CNT_STEP 0].map (fun a => leBytes 4 (s.reg a).toNat)).flatten))

/-- Record n of the key record partition, none where its CRC fails (R545). -/
def State.keyRecord (s : State) (n : Nat) : Option (List Byte) :=
  let r := s.bytes (0x20010000 + 128 * n) 128
  if beNat (r.drop 124) = (crc32c (r.take 124)).toNat then some (r.take 88) else none

/-- The records from number n on, up to the first whose CRC fails. -/
def State.keyRecords (s : State) : Nat → Nat → List (List Byte)
  | 0, _ => []
  | k + 1, n =>
    match s.keyRecord n with
    | some m => m :: s.keyRecords k (n + 1)
    | none => []

/-- A record is restored (R458): its message, with the restore flag, passes the checks of R456; the CMAC is that of the message as recorded. -/
def State.keyRestore (s : State) (d : List Byte) : Bool × State :=
  let m : KeyMsg := ⟨false, true, d.set 3 0x01⟩
  let good := s.flag rKEY_CTR_LOCK fKEY_CTR_LOCK_locked && !m.badFormat && beNat (slice d 4 16) = s.uid && 8 ≤ m.slot && s.keyOk 1 &&
    cmac (schedule (keyOctets (s.key 1).attr (s.key 1).key)) (d.take 72) = d.drop 72 && m.counter = (s.reg (rKEY_CTR m.slot)).toNat &&
    !(m.code = 1 && (s.msgKey m).isNone) && !s.badParent m && !m.badAttr
  if good then (true, s.msgApply m) else (false, s)

def execRestoreKeys (h : Fin 2) (s : State) : Host.Outcome State Fault Refusal :=
  finish s (s.mbAct h 0x30 0 fun s =>
    let r := (s.keyRecords 512 0).foldl (fun (acc : Nat × State) d => let x := acc.2.keyRestore d; (acc.1 + b2n x.1, x.2)) (0, s)
    r.2.mbRespond h 0 (leBytes 4 r.1))

/-- Anise writes PWR_CMD at the host's level; the response goes first (R531). -/
def execEnterLevel (h : Fin 2) (s : State) : Host.Outcome State Fault Refusal :=
  finish s (s.mbAct h 0x40 1 fun s =>
    let n := (s.byte (mbBase h + 16)).toNat
    if s.levelOf (mbHost h) != .warden then s.mbRespond h 4 []
    else pwrCmdFx (toW (2 ^ 31 + n % 8)) (s.mbRespond h (if n < 8 && s.pwrRefusal n = 0 then 0 else 3) []))

def execMailboxHandover (h : Fin 2) (s : State) : Host.Outcome State Fault Refusal :=
  finish s (s.mbAct h 0x50 0 fun s =>
    if s.levelOf (mbHost h) != .warden then s.mbRespond h 4 []
    else if s.handoverRefused then (s.fwuHandover (mbHost h)).mbRespond h 3 []
    else (s.mbRespond h 0 []).fwuHandover (mbHost h))

/-- A write of ANI_MB_ACK: each host clears its own done. -/
def mbAckFx (q : Req) (v : Word) (s : State) : State :=
  let s := if bitOf v 0 && q.master = 1 then s.put (rANI_MB_STATUS 0) fANI_MB_STATUS_done 0 else s
  if bitOf v 1 && q.master = 2 then s.put (rANI_MB_STATUS 1) fANI_MB_STATUS_done 0 else s

def execMailboxAck (q : Req) (v : Word) (s : State) : Host.Outcome State Fault Refusal := finish s (s.writeReg q rANI_MB_ACK v (mbAckFx q))

end Sys2Proof.Machine
end

