-- ==== Sys2Proof/Machine/FamCan.lean ====
section
/-! DEFINITION. CAN FD controllers (R360 to R380). -/
namespace Sys2Proof.Machine

/-! ### Settings (R361, R362) -/

/-- A timing write: values below their limits store the limit, and sjw at most min(tseg1, tseg2); each such case sets config_warning. -/
def canTiming (v : Word) (seg1 seg2 sjw : Fld) : Word :=
  let v := fldPut v seg1 (max 1 (fldOf v seg1))
  fldPut v sjw (min (fldOf v sjw) (min (fldOf v seg1) (fldOf v seg2)))

/-- A register whose value is corrected before it is stored, with config_warning where that changes it. -/
def State.storeFixed (s : State) (p a : Nat) (v w : Word) : State :=
  let s := s.store a w
  if v = w then s else s.warn p

def State.canWhileOff (s : State) (n : Nat) (f : State → State) : State :=
  if s.flag (rPG_CTRL (0x90 + n)) fPG_CTRL_enable then s.warn (0x90 + n) else f s

def canPlainFx (n a : Nat) (v : Word) (s : State) : State := s.canWhileOff n fun s => s.store a v
def canNbtFx (n : Nat) (v : Word) (s : State) : State :=
  s.canWhileOff n fun s => s.storeFixed (0x90 + n) (rCANF_NBT n) v (canTiming v fCANF_NBT_ntseg1 fCANF_NBT_ntseg2 fCANF_NBT_nsjw)
def canDbtFx (n : Nat) (v : Word) (s : State) : State :=
  s.canWhileOff n fun s => s.storeFixed (0x90 + n) (rCANF_DBT n) v (canTiming v fCANF_DBT_dtseg1 fCANF_DBT_dtseg2 fCANF_DBT_dsjw)

/-! ### Frames (R365) -/

def canIde (hdr : Nat) : Bool := hdr.testBit 31
def canRtr (hdr : Nat) : Bool := hdr.testBit 30
def canFdf (hdr : Nat) : Bool := hdr.testBit 29
def canId (hdr : Nat) : Nat := hdr % 2 ^ 29
def ctlBuf (ctl : Nat) : Nat := ctl / 2 ^ 30 % 4
def ctlBrs (ctl : Nat) : Bool := ctl.testBit 29
def ctlDlc (ctl : Nat) : Nat := ctl / 2 ^ 16 % 16

/-- The data length that a DLC gives (R365). -/
def canLen (fdf rtr : Bool) (dlc : Nat) : Nat :=
  if rtr && !fdf then 0
  else if dlc ≤ 8 then dlc
  else if !fdf then 8
  else nthD [12, 16, 20, 24, 32, 48, 64] (dlc - 9) 64

/-- The order of bus arbitration: the lower number wins. Identifier, SRR, IDE and RTR bits as they come on the bus; RRS counts as dominant (R368). -/
def canKey (hdr : Nat) : Nat :=
  let r := b2n (canRtr hdr && !canFdf hdr)
  let hi := canId hdr / 2 ^ 18
  if canIde hdr then hi * 2 ^ 21 + 2 ^ 20 + 2 ^ 19 + canId hdr % 2 ^ 18 * 2 + r
  else hi * 2 ^ 21 + r * 2 ^ 20

def CanSt.buf (x : CanSt) (b : Nat) : CanBuf := if b = 0 then x.buf0 else if b = 1 then x.buf1 else x.buf2
def CanSt.setBuf (x : CanSt) (b : Nat) (y : CanBuf) : CanSt :=
  if b = 0 then { x with buf0 := y } else if b = 1 then { x with buf1 := y } else { x with buf2 := y }

/-- The queue of controller n. -/
def canQ (n : Nat) : Nat := 8 + n % 2

/-- The fault source of the cluster's controllers (R379). -/
def State.canFault (s : State) (n : Nat) : State := s.fault { source := 80 + n / 2, page := 0x90 + n }

/-- A read of buffer or FIFO memory that an armed checker takes: true where the word is bad (R379, R589). -/
def State.canEcc (s : State) (n : Nat) : Bool × State :=
  match s.armed (0x90 + n) 0 with
  | none => (false, s)
  | some false => (false, s.disarm (0x90 + n))
  | some true => (true, (s.disarm (0x90 + n)).raiseInj (80 + n / 2) (0x90 + n))

/-! ### Transmitting (R366 to R370) -/

/-- A buffer is freed with a result (R369). -/
def State.canFree (s : State) (n b result : Nat) : State :=
  let a := rCANF_TXB n b
  let s := (s.setReg a (fldPut (fldPut (s.reg a) fCANF_TXB_state 0) fCANF_TXB_result result)).irq (0x90 + n) 3
  if 2 ≤ result then s.irq (0x90 + n) 4 else s

/-- The items of the packet at the head of a transmit queue; none while no word carries an end mark (R366). -/
def canPacket : List FqWord → Option (List Nat)
  | [] => none
  | w :: l =>
    let items := leNat (w.octets.take 4) :: (if 4 < w.valid then [leNat (w.octets.drop 4)] else [])
    if w.last then some items else (canPacket l).map (items ++ ·)

/-- k items taken from the transmit queue. -/
def State.canTake : Nat → State → Nat → Nat → State
  | 0, s, _, _ => s
  | k + 1, s, c, q => State.canTake k (s.fqTake c q).2 c q

/-- A packet is refused (R367). -/
def canRefused (fdOn : Bool) (items : List Nat) : Bool :=
  match items with
  | hdr :: ctl :: data =>
    (canRtr hdr && canFdf hdr) || (ctlBrs ctl && !canFdf hdr) || (canFdf hdr && !fdOn) ||
      data.length != (canLen (canFdf hdr) (canRtr hdr) (ctlDlc ctl) + 3) / 4
  | _ => true

/-- The free buffer that a packet may load. -/
def State.canSlot (s : State) (n want : Nat) : Option Nat :=
  (if want = 3 then [0, 1, 2] else [want]).find? (fun b => s.canBufState n b = 0)

/-- The loader takes a complete packet into the buffer it names, or refuses it (R366, R367). -/
def State.canLoad (s : State) (n : Nat) : State :=
  let c := n / 2
  let q := canQ n
  if !s.enabled (0x90 + n) || 2 ≤ s.canState n || s.flag (rCANF_CFG n) fCANF_CFG_listen_only || !s.fqOn c q then s
  else match canPacket (s.fq c q).tx with
    | none => s.setCan n { s.can n with waiting := false }
    | some items =>
      let bad := canRefused (s.flag (rCANF_CFG n) fCANF_CFG_fd_en) items
      let want := ctlBuf (nthD items 1 (3 * 2 ^ 30))
      match s.canSlot n want with
      | none => s.setCan n { s.can n with waiting := true }
      | some b =>
        let s := s.canTake items.length c q
        let s := s.setCan n { s.can n with waiting := false }
        if bad then (s.inc (rCANF_CNT_TX_BAD n)).canFault n
        else
          let ctl := nthD items 1 0
          let s := s.setCan n ((s.can n).setBuf b ⟨nthD items 0 0, ctl, items.drop 2⟩)
          s.setReg (rCANF_TXB n b) (toW (2 ^ 30 + ctl % 2 ^ 16))

def execCanTxLoad (n : Fin 8) (s : State) : Host.Outcome State Fault Refusal := finish s (s.onField fun s => s.canLoad n)

/-- The pending buffer that is sent next (R368): frames with identical arbitration fields go in buffer order. -/
def State.canPick (s : State) (n : Nat) : Option Nat :=
  let l := [0, 1, 2].filter (fun b => s.canBufState n b = 1)
  if s.flag (rCANF_CFG n) fCANF_CFG_tx_order then l.head?
  else
    let key (b : Nat) : Nat := canKey ((s.can n).buf b).hdr
    l.find? (fun b => l.all (fun d => decide (key b ≤ key d)))

/-- The controller chooses a frame and starts it (R368, R369); in an FD frame ESI is recessive while it is error passive (R365). With loopback
TXD stays recessive. -/
def State.canChoose (s : State) (n : Nat) : State :=
  if !s.enabled (0x90 + n) || !(s.can n).joined || 2 ≤ s.canState n || s.flag (rCANF_CFG n) fCANF_CFG_listen_only || (s.canOnBus n).isSome then s
  else match s.canPick n with
    | none => s
    | some b =>
      let r := s.canEcc n
      let s := r.2
      if r.1 then s.canFree n b 3
      else
        let a := rCANF_TXB n b
        let s := (s.put a fCANF_TXB_state 2).incSat a fCANF_TXB_attempts
        let f := (s.can n).buf b
        if s.flag (rCANF_EXP n) fCANF_EXP_loopback then s
        else s.emit (.can n f.hdr f.ctl (canFdf f.hdr && s.canState n = 1) f.data)

def execCanTxChoose (n : Fin 8) (s : State) : Host.Outcome State Fault Refusal := finish s (s.onField fun s => s.canChoose n)

/-- The frame on the bus has come to its end: a controller that is disabled leaves the bus (R377). -/
def State.canIdle (s : State) (n : Nat) : State :=
  if s.flag (rPG_CTRL (0x90 + n)) fPG_CTRL_enable then s else s.setCan n { s.can n with joined := false }

/-! ### Error confinement (R374, R375) -/

def State.canTec (s : State) (n : Nat) : Nat := s.get (rCANF_ERR n) fCANF_ERR_tec
def State.canRec (s : State) (n : Nat) : Nat := s.get (rCANF_ERR n) fCANF_ERR_rec

/-- Entry to bus-off: every pending or transmitting buffer is freed with result 5 (R375). -/
def State.canBusOff (s : State) (n : Nat) : State :=
  let s := [0, 1, 2].foldl (fun s b => if s.canBufState n b = 0 then s else s.canFree n b 5) s
  let s := s.setCan n { s.can n with joined := false }
  (((s.inc (rCANF_CNT_BUSOFF n)).irq (0x90 + n) 6).put (rCANF_STATUS n) fCANF_STATUS_recover_count 0).canFault n

/-- New error counts: warning, the confinement state, and what its change brings (R374, R375). The counts of a controller that only listens, is
bus-off or recovers do not move (R378, R375). -/
def State.canCounts (s : State) (n tec rec : Nat) : State :=
  if s.flag (rCANF_CFG n) fCANF_CFG_listen_only || 2 ≤ s.canState n then s
  else
    let a := rCANF_ERR n
    let old := s.canState n
    let new := if 255 < tec then 2 else if 128 ≤ tec || 128 ≤ rec then 1 else 0
    let s := (((s.put a fCANF_ERR_tec (min 511 tec)).put a fCANF_ERR_rec (min 255 rec)).put a fCANF_ERR_state new).put a fCANF_ERR_warning
      (b2n (96 ≤ tec || 96 ≤ rec))
    if new = old then s
    else
      let s := s.irq (0x90 + n) 5
      if new = 2 then s.canBusOff n
      else if new = 1 && s.flag (rCANF_CFG n) fCANF_CFG_warn_fault then s.canFault n
      else s

/-- An error on the bus: its counter, the last error, and the counts by ISO 11898-1: a transmitter's error adds 8 to TEC, a receiver's 1 or 8 to
REC (R374). A frame of this controller goes back to pending, or is freed (R369, R370). -/
def State.canError (s : State) (n code cnt : Nat) (dataPhase tx : Bool) (charge : CanCharge) : State :=
  let a := rCANF_ERR n
  let s := ((s.inc cnt).put a fCANF_ERR_lec code).put a fCANF_ERR_lec_data (b2n dataPhase)
  let s := if tx then (match s.canOnBus n with
      | none => s
      | some b =>
        if s.canBufState n b = 3 then s.canFree n b 4
        else if s.flag (rCANF_CFG n) fCANF_CFG_one_shot then s.canFree n b 3
        else s.put (rCANF_TXB n b) fCANF_TXB_state 1)
    else s
  let s := if charge = .none then s
    else if tx then s.canCounts n (s.canTec n + 8) (s.canRec n)
    else s.canCounts n (s.canTec n) (s.canRec n + (if charge = .more then 8 else 1))
  s.canIdle n

/-- The controller hears the bus: it takes part, and is neither bus-off nor recovering. -/
def State.canHears (s : State) (n : Nat) : Bool := ((s.can n).joined || (s.canOnBus n).isSome) && s.canState n ≤ 1

/-- A bus error of the given kind; a recessive res bit is a protocol exception where pex_en = 1, after which the controller waits for 11 recessive
bits, and otherwise a form error (R360). -/
def State.canBusError (s : State) (n : Nat) (e : CanErr) (dataPhase tx : Bool) (charge : CanCharge) : State :=
  let tx := tx && (s.canOnBus n).isSome
  if !s.canHears n then s
  else match e with
    | .stuff => s.canError n 1 (rCANF_CNT_STUFF_ERR n) dataPhase tx charge
    | .form => s.canError n 2 (rCANF_CNT_FORM_ERR n) dataPhase tx charge
    | .ack => s.canError n 3 (rCANF_CNT_ACK_ERR n) dataPhase tx charge
    | .bitRec => s.canError n 4 (rCANF_CNT_BIT_ERR n) dataPhase tx charge
    | .bitDom => s.canError n 5 (rCANF_CNT_BIT_ERR n) dataPhase tx charge
    | .crc => s.canError n 6 (rCANF_CNT_CRC_ERR n) dataPhase tx charge
    | .res =>
      if s.flag (rCANF_CFG n) fCANF_CFG_pex_en then (s.inc (rCANF_CNT_PEX n)).setCan n { s.can n with joined := false }
      else s.canError n 2 (rCANF_CNT_FORM_ERR n) dataPhase tx charge

def execCanBusError (n : Fin 8) (e : CanErr) (dataPhase tx : Bool) (charge : CanCharge) (s : State) : Host.Outcome State Fault Refusal :=
  finish s (s.onField fun s => s.canBusError n e dataPhase tx charge)

/-- The frame on the bus loses arbitration (R369, R370). -/
def State.canArbLost (s : State) (n : Nat) : State :=
  match s.canOnBus n with
  | none => s
  | some b =>
    let s := s.inc (rCANF_CNT_ARB_LOST n)
    let s := if s.canBufState n b = 3 then s.canFree n b 4
      else if s.flag (rCANF_CFG n) fCANF_CFG_one_shot then s.canFree n b 2
      else s.put (rCANF_TXB n b) fCANF_TXB_state 1
    s.canIdle n

def execCanArbLost (n : Fin 8) (s : State) : Host.Outcome State Fault Refusal := finish s (s.onField fun s => s.canArbLost n)

/-! ### Receiving (R371 to R373) -/

/-- The lowest-numbered filter that matches a frame (R371). -/
def State.canFilter (s : State) (n hdr : Nat) : Option Nat :=
  (List.range 32).find? fun k =>
    let w := s.reg (rCANF_FILT_ID n k)
    let m := s.get (rCANF_FILT_MASK n k) fCANF_FILT_MASK_mask
    let m := if canIde hdr then m else m / 2 ^ 18 * 2 ^ 18
    fldOf w fCANF_FILT_ID_enable = 1 && (fldOf w fCANF_FILT_ID_ide = 1) = canIde hdr && (canId hdr ^^^ fldOf w fCANF_FILT_ID_id) &&& m = 0

/-- A frame goes into the FIFO, or is lost when that holds 32 (R372, R373). -/
def State.canStore (s : State) (n hdr status : Nat) (data : List Byte) (len age : Nat) : State :=
  let c := n / 2
  let q := canQ n
  let hold := (s.fq c q).hold
  let s := s.inc (rCANF_CNT_RX_FRAMES n)
  if 32 ≤ (hold.filter (fun e => e.2)).length then
    let s := ((s.inc (rCANF_CNT_RX_LOST n)).irq (0x90 + n) 8).canFault n
    s.setCan n { s.can n with overrun := true }
  else
    let r := s.canEcc n
    let s := r.2
    if r.1 then s
    else
      let b := s.base (s.get (rCANF_CFG n) fCANF_CFG_tbase)
      let stamp := (b.ns + 1000000000 - age % 1000000000) % 1000000000
      let octets := (data ++ List.replicate 64 0).take len ++ List.replicate 3 0
      let words := (List.range ((len + 3) / 4)).map (fun k => leNat (slice octets (4 * k) 4))
      let items := [hdr, status + b2n (s.can n).overrun * 2 ^ 23, stamp] ++ words
      let marked := items.dropLast.map (fun i => (i, false)) ++ [(items.getLast?.getD 0, true)]
      let s := ((s.irq (0x90 + n) 2).setCan n { s.can n with overrun := false })
      (s.setFq c q { s.fq c q with hold := (s.fq c q).hold ++ marked }).fqGrant c q

/-- A valid frame is passed through the filters (R371). -/
def State.canPass (s : State) (n hdr dlc : Nat) (brs esi : Bool) (data : List Byte) (age : Nat) : State :=
  let fdf := canFdf hdr
  let hdr := if fdf then hdr &&& (2 ^ 32 - 1 - 2 ^ 30) else hdr % 2 ^ 32
  let hdr := if canIde hdr then hdr else hdr / 2 ^ 18 * 2 ^ 18
  let status := b2n (brs && fdf) * 2 ^ 25 + b2n (esi && fdf) * 2 ^ 24 + dlc % 16 * 2 ^ 16
  let len := canLen fdf (canRtr hdr) (dlc % 16)
  match s.canFilter n hdr with
  | some k =>
    if s.flag (rCANF_FILT_ID n k) fCANF_FILT_ID_action then s.inc (rCANF_CNT_FILTERED n)
    else s.canStore n hdr (status + k * 2 ^ 27) data len age
  | none =>
    if s.flag (rCANF_FILT_CFG n) fCANF_FILT_CFG_default then s.canStore n hdr (status + 2 ^ 26) data len age
    else s.inc (rCANF_CNT_FILTERED n)

/-- REC after a frame received valid (ISO 11898-1): less by 1, and from above 127 a value between 119 and 127, which the standard leaves open
(log entry 4). -/
def State.recGood (s : State) (n : Nat) : State :=
  if 127 < s.canRec n then s.step1.canCounts n (s.canTec n) (119 + s.freeN % 9)
  else if s.canRec n = 0 then s
  else s.canCounts n (s.canTec n) (s.canRec n - 1)

/-- A valid frame of another node at the last but one bit of EOF (R371); an FD frame with fd_en = 0 is a form error. With loopback the receiver
hears only the transmit path. -/
def State.canRx (s : State) (n hdr dlc : Nat) (brs esi : Bool) (data : List Byte) (age : Nat) : State :=
  if !s.canHears n || s.flag (rCANF_EXP n) fCANF_EXP_loopback || !s.routed (n / 2) (0x34 + 2 * (n % 2) + 1) then s
  else if canFdf hdr && !s.flag (rCANF_CFG n) fCANF_CFG_fd_en then s.canError n 2 (rCANF_CNT_FORM_ERR n) false false .plain
  else ((s.recGood n).canPass n hdr dlc brs esi data age).canIdle n

def execCanRxFrame (n : Fin 8) (hdr dlc : Nat) (brs esi : Bool) (data : List Byte) (age : Nat) (s : State) : Host.Outcome State Fault Refusal :=
  finish s (s.onField fun s => s.canRx n hdr dlc brs esi data age)

/-- The transmission succeeds at the end of EOF (R369): result 1, TEC less by 1; the loop delay is shown after an FD frame with BRS (R364); the
frame passes the filters with rx_own = 1. -/
def State.canDone (s : State) (n age measured : Nat) : State :=
  match s.canOnBus n with
  | none => s
  | some b =>
    let f := (s.can n).buf b
    let esi := s.canState n = 1
    let s := (s.canFree n b 1).inc (rCANF_CNT_TX_FRAMES n)
    let s := s.canCounts n (s.canTec n - 1) (s.canRec n)
    let tdc := s.flag (rCANF_TDC n) fCANF_TDC_tdc_en && s.get (rCANF_DBT n) fCANF_DBT_dbrp ≤ 1
    let s := if tdc && canFdf f.hdr && ctlBrs f.ctl then
        s.setReg (rCANF_TDC_MEAS n) (toW (min 127 measured + 128 * b2n (127 < measured + s.get (rCANF_TDC n) fCANF_TDC_tdc_offset)))
      else s
    let s := if s.flag (rCANF_EXP n) fCANF_EXP_rx_own then
        s.canPass n f.hdr (ctlDlc f.ctl) (ctlBrs f.ctl) esi (f.data.flatMap (fun w => leBytes 4 w)) age
      else s
    s.canIdle n

def execCanTxDone (n : Fin 8) (age measured : Nat) (s : State) : Host.Outcome State Fault Refusal := finish s (s.onField fun s => s.canDone n age measured)

/-! ### Commands and recovery (R370, R376, R377) -/

/-- A write of CANF_CMD: abort bits and recover. -/
def canCmdFx (n : Nat) (v : Word) (s : State) : State :=
  let s := [0, 1, 2].foldl (fun (s : State) b =>
    if bitOf v b then
      let k := s.canBufState n b
      if k = 1 then s.canFree n b 4 else if k = 2 then s.put (rCANF_TXB n b) fCANF_TXB_state 3 else s
    else s) s
  if bitOf v 8 && s.canState n = 2 then
    ((s.put (rCANF_ERR n) fCANF_ERR_state 3).put (rCANF_STATUS n) fCANF_STATUS_recover_count 0).irq (0x90 + n) 5
  else s

def execCanAbort (q : Req) (n : Fin 8) (v : Word) (s : State) : Host.Outcome State Fault Refusal :=
  finish s (s.writeReg q (rCANF_CMD n) v (canCmdFx n))
def execCanRecover (q : Req) (n : Fin 8) (v : Word) (s : State) : Host.Outcome State Fault Refusal :=
  finish s (s.writeReg q (rCANF_CMD n) v (fun v s => canCmdFx n v s))

/-- The 128th occurrence of 11 recessive bits (R376): error active, TEC and REC 0. A disabled controller stays off the bus. -/
def State.canRecovered (s : State) (n : Nat) : State :=
  if s.canState n = 3 then
    let s := s.setReg (rCANF_ERR n) (s.reg (rCANF_ERR n) &&& maskOf 30 27)
    let s := s.put (rCANF_STATUS n) fCANF_STATUS_recover_count 128
    let s := s.setCan n { s.can n with joined := s.flag (rPG_CTRL (0x90 + n)) fPG_CTRL_enable }
    (s.irq (0x90 + n) 7).irq (0x90 + n) 5
  else s

def execCanRecoveryComplete (n : Fin 8) (s : State) : Host.Outcome State Fault Refusal := finish s (s.onField fun s => s.canRecovered n)

/-- 11 consecutive recessive bits: one more occurrence while recovering (R376); otherwise an enabled controller takes part from now on (R377). -/
def State.canIntegrate (s : State) (n : Nat) : State :=
  let k := s.canState n
  if k = 3 then
    let c := s.get (rCANF_STATUS n) fCANF_STATUS_recover_count
    if 127 ≤ c then s.canRecovered n else s.put (rCANF_STATUS n) fCANF_STATUS_recover_count (c + 1)
  else if k ≤ 1 && s.flag (rPG_CTRL (0x90 + n)) fPG_CTRL_enable then s.setCan n { s.can n with joined := true }
  else s

def execCanBusIntegrate (n : Fin 8) (s : State) : Host.Outcome State Fault Refusal := finish s (s.onField fun s => s.canIntegrate n)

/-- CANF_STATUS. The bus is idle between the commands of a controller that takes part and has no frame on it. -/
def State.canStatus (s : State) (n : Nat) : Nat :=
  let tx := (s.canOnBus n).isSome
  ((s.fq (n / 2) (canQ n)).hold.filter (fun e => e.2)).length * 2 ^ 24 + s.get (rCANF_STATUS n) fCANF_STATUS_recover_count * 2 ^ 16 +
    b2n (s.can n).waiting * 16 + b2n tx * 2 + b2n ((s.can n).joined && !tx)

end Sys2Proof.Machine
end

