-- ==== Sys2Proof/Machine/FamCipher.lean ====
section
/-! DEFINITION. The rows of the cipher engine and the Saffron store (R433 to R469). -/
namespace Sys2Proof.Machine

/-! ### Protected frames (R438 to R443) -/

/-- The IV of a frame (R440). -/
def cipherIv (f : Frame) (count : Nat) : List Byte := beBytes 12 (f.src * 2 ^ 78 + f.flow * 2 ^ 62 + count % 2 ^ 62)

/-- The AAD of a frame with m octets of application payload (R440). -/
def cipherAad (f : Frame) (m : Nat) : List Byte :=
  beBytes 4 f.w1.toNat ++ beBytes 4 f.w2.toNat ++ beBytes 4 f.w3.toNat ++ [0, 0] ++ beBytes 2 m

/-- The payload on the ring of a frame that is protected (R439, R440). -/
def protectFrame (mode : Nat) (ks : List (List Byte)) (f : Frame) (count : Nat) : List Byte :=
  let m := f.payload
  let c := beBytes 8 count
  let iv := cipherIv f count
  let aad := cipherAad f m.length
  if mode = 0 then
    let ct := gcmData ks iv m
    c ++ ct ++ gcmTag ks iv aad ct
  else if mode = 1 then c ++ m ++ cmac ks (aad ++ c ++ m)
  else c ++ ctrMode ks (beNat (iv ++ [0, 0, 0, 2])) m

/-- The application payload of a frame that is opened, its invocation count, and whether its tag passes (a CTR frame has none) (R439, R440, R442).
A payload too short for the count and the tag does not pass. -/
def openFrame (mode : Nat) (ks : List (List Byte)) (f : Frame) : List Byte × Nat × Bool :=
  let p := f.payload
  let n := p.length
  let c := p.take 8
  let count := beNat c
  let iv := cipherIv f count
  let tagLen := if mode = 2 then 0 else 16
  let m := n - 8 - tagLen
  let body := slice p 8 m
  let tag := p.drop (8 + m)
  let aad := cipherAad f m
  let long := 8 + tagLen ≤ n
  if mode = 0 then (gcmData ks iv body, count, long && gcmTag ks iv aad body = tag)
  else if mode = 1 then (body, count, long && cmac ks (aad ++ c ++ body) = tag)
  else (ctrMode ks (beNat (iv ++ [0, 0, 0, 2])) body, count, true)

/-- The invocation count of a context (R441). -/
def State.cipherCount (s : State) (k : Nat) : Nat := s.ctx k 0x20 31 0 + 2 ^ 32 * s.ctx k 0x24 31 0
def State.setCipherCount (s : State) (k n : Nat) : State := (s.setCtx k 0x20 31 0 (n % 2 ^ 32)).setCtx k 0x24 31 0 (n / 2 ^ 32)

/-- The usage that a frame needs of its slot (R439). -/
def frameUsage (tx : Bool) (attr : Nat) : Bool :=
  if attrMode attr = 1 then attrMac attr else if tx then attrEncrypt attr else attrDecrypt attr

/-- A frame at FP7 is begun: the next by class, then by arrival (R435), under the context of its lookup (R13). The key checks and the use are
made now (R443, R463). A transmit flow deleted meanwhile has no invocation count any more: its frame ends with discard (log entry 86). -/
def State.cipherBegin (s : State) : State :=
  let l := (s.outbox 7).filter (fun d => d.frame.kind = 0)
  let c := l.foldl (fun m d => min m d.frame.cls) 3
  match (if s.ciph.frame.isSome || !s.enabled 0x48 then none else l.find? (fun d => d.frame.cls = c)) with
  | none => s
  | some d =>
    let s := s.setOutbox 7 ((s.outbox 7).erase d)
    match d.held with
    | none => s.cipherOut d d.frame true false
    | some h =>
      let tx := h.role = 0
      if h.role = 2 then s.cipherOut d d.frame false false
      else if tx && (s.ctxOf d.frame.flow).isNone then s.cipherOut d d.frame true false
      else
        let spent := tx && (s.ctxOf d.frame.flow).any (fun k => 2 ^ 62 ≤ s.cipherCount k)
        let u := if spent then (none, s) else s.keyStart h.key (frameUsage tx)
        { u.2 with ciph := { u.2.ciph with frame := some ⟨d, h.key, u.1⟩ } }

/-- A change to the context of a flow that has one in a slot. -/
def State.onCtx (s : State) (flow : Nat) (g : State → Nat → State) : State :=
  match s.ctxOf flow with
  | some k => g s k
  | none => s

/-- The invocation count that a frame of a transmit flow takes (R441). -/
def State.takeCount (s : State) (h : HeldCtx) (flow : Nat) : Nat × State :=
  let n := (s.ctxOf flow).elim 0 s.cipherCount
  (n, if h.role = 0 then (s.onCtx flow (fun s k => s.setCipherCount k (n + 1))).inc rCIPH_CNT_ENC else s)

/-- The rest of a frame's operation (R437, R439 to R443, R464). -/
def State.cipherEnd (s : State) : State :=
  match s.ciph.frame with
  | none => s
  | some x =>
    let s : State := { s with ciph := { s.ciph with frame := none } }
    let f := x.d.frame
    match x.use, x.d.held with
    | some u, some h =>
      let b := s.cipherArmed
      let s := b.2
      let revoked := s.revokedSince u
      let s := if revoked then s.inc rCIPH_CNT_REVOKED else s
      let mode := attrMode u.attr
      let t := s.takeCount h f.flow
      let s := t.2
      if b.1 then ((s.cipherOut x.d f true false).raiseInj 60 0x48).cipherMismatch false x.slot f.flow
      else if h.role = 0 then
        let f := f.stamped f.cls (s.resolveRing f.src) (s.resolveRing f.dest) f.seq
        let p := protectFrame mode (schedule u.key) f t.1
        if 484 < p.length then (s.inc rCIPH_CNT_OVERSIZE).cipherOut x.d f true false
        else s.cipherOut x.d (f.withPayload p) false false
      else
        let o := openFrame mode (schedule u.key) f
        let s := s.inc rCIPH_CNT_DEC
        let s := if o.2.2 then s.onCtx f.flow (fun s k => if s.cipherCount k < o.2.1 then s.setCipherCount k o.2.1 else s)
          else (((s.inc rCIPH_CNT_UNTRUSTED).irq 0x48 4).onCtx f.flow (fun s k => s.cntCtx k 0x60 1)).raise 69 0x48
        s.cipherOut x.d (f.withPayload o.1) false (!o.2.2 || revoked)
    | _, _ => ((s.inc rCIPH_CNT_KEY_REFUSED).raise 63 0x48).cipherOut x.d f true false

/-- An update message that has come to FP7 joins the store's queue (R459). -/
def State.keyArrive (s : State) : State :=
  match (s.outbox 7).find? (fun d => d.frame.kind = 0xB) with
  | none => s
  | some d =>
    let s := s.setOutbox 7 ((s.outbox 7).erase d)
    if d.discard || !s.enabled 0x4C then s else s.keyQueue ⟨true, false, d.frame.payload⟩

/-- CIPHER_FRAME: the engine serves FP7; update messages there go to the store once no frame of class 0 or 1 waits.
A frame that was begun is finished even if the block has been disabled meanwhile (R33). While input FP7 holds, the engine stalls (R147). -/
def State.cipherFrame (s : State) (ph : CiphPhase) : State :=
  if s.portHolds 7 then s else
  let urgent := (s.outbox 7).any (fun d => d.frame.kind = 0 && d.frame.cls ≤ 1)
  let key := (s.outbox 7).head?.any (fun d => d.frame.kind = 0xB) && !urgent
  if !s.enabled 0x48 && s.ciph.frame.isNone then s
  else if key && s.enabled 0x48 && ph != .rest && s.ciph.frame.isNone then s.keyArrive
  else match ph with
    | .whole => (if s.ciph.frame.isSome then s else s.cipherBegin).cipherEnd
    | .start => s.cipherBegin
    | .rest => s.cipherEnd

def execCipherFrame (ph : CiphPhase) (s : State) : Host.Outcome State Fault Refusal := finish s (s.cipherFrame ph)

/-! ### Faults that come with no checker armed (R437, R452, log entry 85) -/

/-- A real compare mismatch: of the frame in progress, or of a job in progress, which then ends with status 3. -/
def State.mismatchNow (s : State) : State :=
  let jobs := [0, 1].filter (fun r => (s.ciph.job r).isSome)
  let n := jobs.length + b2n s.ciph.frame.isSome
  let r := if n ≤ 1 then (0, s) else (s.freeN % n, s.step1)
  let s := r.2
  match (if r.1 < jobs.length then none else s.ciph.frame), jobs[r.1]? with
  | some x, _ =>
    let s : State := { s with ciph := { s.ciph with frame := none } }
    let s := match x.use, x.d.held with
      | some _, some h => (s.takeCount h x.d.frame.flow).2
      | _, _ => s
    (s.cipherOut x.d x.d.frame true false).cipherMismatch false x.slot x.d.frame.flow
  | none, some r => match s.ciph.job r with
    | some j => ((s.jrDone r 3 0 (s.revokedSince j.use) ((jobWord j.words 0).testBit 27)).cipherMismatch true j.use.slot r).jrStart 64 r
    | none => s
  | none, none => s

/-- A real uncorrectable error in key memory: some slot becomes invalid, and its descendants are revoked. -/
def State.keyFault (s : State) : State :=
  let n := s.freeN % 256
  let s := s.step1
  (s.setKey n { s.key n with st := 3 }).revoke n

/-! ### Alarms (R466) -/

def execGlitchAlarm (s : State) : Host.Outcome State Fault Refusal := finish s ((s.raise 67 0x4C).erase)
def execTamperAlarm (s : State) : Host.Outcome State Fault Refusal := finish s ((s.raise 68 0x4C).erase)

/-! ### Job rings (R444 to R446, R468) -/

/-- A write of CIPH_JRr_TAIL: one beyond 2^ring_k outstanding stores nothing. -/
def jrTailFx (r : Nat) (v : Word) (s : State) : State :=
  let tail := v.toNat % 65536
  if 2 ^ s.get (rCIPH_JR_CFG r) fCIPH_JR_CFG_ring_k < (tail + 65536 - s.jrHead r) % 65536 then s.warn 0x49
  else (s.setReg (rCIPH_JR_TAIL r) (toW tail)).jrStart 64 r

def execJobRingTail (q : Req) (r : Fin 2) (v : Word) (s : State) : Host.Outcome State Fault Refusal :=
  finish s (s.writeReg q (rCIPH_JR_TAIL r) v (jrTailFx r))

/-- A write of CIPH_JRr_CFG: ring_k stores the nearest limit; an enabled ring takes the jobs that wait. -/
def jrCfgFx (r : Nat) (v : Word) (s : State) : State :=
  (s.store (rCIPH_JR_CFG r) (fldPut v fCIPH_JR_CFG_ring_k (clampN 3 12 (fldOf v fCIPH_JR_CFG_ring_k)))).jrStart 64 r

/-- The job in progress on ring r comes to its end (R445, R446). -/
def State.jobComplete (s : State) (r : Nat) : State :=
  match s.ciph.job r with
  | none => s
  | some j =>
    let l := j.words
    let op := jobWord l 0 / 2 ^ 28
    let irq := (jobWord l 0).testBit 27
    let n := jobWord l 1 % 2 ^ 24
    let revoked := s.revokedSince j.use
    let src := s.jobRead r (jobWord l 2) n
    let aad := if op = 2 then ((none, 0, []), src.2) else src.2.jobRead r (jobWord l 4) (jobWord l 5 % 65536)
    let iv := if op ≤ 1 then aad.2.jobRead r (jobWord l 6) 12 else if op = 2 then aad.2.jobRead r (jobWord l 6) 16 else ((none, 0, []), aad.2)
    let tag := if op = 1 || op = 4 then iv.2.jobRead r (jobWord l 7) 16 else ((none, 0, []), iv.2)
    let s := tag.2
    match [src.1.1, aad.1.1, iv.1.1, tag.1.1].findSome? id with
    | some (cause, a) => s.jrFault r cause a
    | none =>
      if src.1.2.1 != 0 || aad.1.2.1 != 0 || iv.1.2.1 != 0 || tag.1.2.1 != 0 then (s.jrDone r 4 0 revoked irq).jrStart 64 r
      else
        let b := s.cipherArmed
        if b.1 then (((b.2.jrDone r 3 0 revoked irq).raiseInj 60 0x48).cipherMismatch true j.use.slot r).jrStart 64 r
        else
          let o := jobCompute op j.use.key iv.1.2.2 aad.1.2.2 src.1.2.2 tag.1.2.2
          let w := s.jobWrite r (jobWord l 3) o.data
          let t := w.2.jobWrite r (jobWord l 7) o.tag
          match w.1.1, t.1.1 with
          | some (cause, a), _ => w.2.jrFault r cause a
          | none, some (cause, a) => t.2.jrFault r cause a
          | none, none =>
            let bad := w.1.2 != 0 || t.1.2 != 0
            (t.2.jrDone r (if bad then 4 else o.status) (if bad then 0 else o.data.length) revoked irq).jrStart 64 r

def execCipherJobComplete (r : Fin 2) (s : State) : Host.Outcome State Fault Refusal := finish s (s.jobComplete r)

/-- A write of CIPH_JR_CMD: resume restarts a faulted ring's job from its start; abort completes the job with status 7 and stops the ring. -/
def jrCmdFx (v : Word) (s : State) : State :=
  [0, 1].foldl (fun (s : State) r =>
    let s := if bitOf v r && s.jrState r = 2 then (s.setReg (rCIPH_JR_STATUS r) 0).jrStart 64 r else s
    if bitOf v (8 + r) then
      match s.ciph.job r with
      | some j => s.jrDone r 7 0 (s.revokedSince j.use) ((jobWord j.words 0).testBit 27)
      | none => if s.jrState r = 2 then s.jrDone r 7 0 false false else s
    else s) s

def execJobRingResume (q : Req) (v : Word) (s : State) : Host.Outcome State Fault Refusal :=
  finish s (s.writeReg q rCIPH_JR_CMD v jrCmdFx)
def execJobRingAbort (q : Req) (v : Word) (s : State) : Host.Outcome State Fault Refusal :=
  finish s (s.writeReg q rCIPH_JR_CMD v (fun v s => jrCmdFx v s))

/-- A write of CIPH_MM_CMD: bit 0 clears the capture. -/
def ciphMmFx (v : Word) (s : State) : State := if bitOf v 0 then s.setReg rCIPH_MM_CAP 0 else s

def execCiphMmCmd (q : Req) (v : Word) (s : State) : Host.Outcome State Fault Refusal := finish s (s.writeReg q rCIPH_MM_CMD v ciphMmFx)

/-- A write of CIPH_KAT: the known-answer tests begin; their result is not there yet, and the bit reads 1 until it is (R5). -/
def ciphKatFx (v : Word) (s : State) : State := if bitOf v 0 then (s.setReg rCIPH_KAT_RESULT 0).setReg rCIPH_KAT 1 else s

def execCiphKat (q : Req) (v : Word) (s : State) : Host.Outcome State Fault Refusal := finish s (s.writeReg q rCIPH_KAT v ciphKatFx)

def execCiphKatDone (pass : Bool) (s : State) : Host.Outcome State Fault Refusal :=
  let t := (s.setReg rCIPH_KAT 0).setReg rCIPH_KAT_RESULT (toW (2 ^ 31 + b2n pass))
  finish s (if pass then t else t.raise 70 0x48)

/-! ### The Saffron store (R448, R454 to R459, R469) -/

/-- The message in KEY_MSG0 to 21. -/
def State.keyMsgOctets (s : State) : List Byte := (List.range 22).flatMap (fun i => beBytes 4 (s.reg (rKEY_MSG i)).toNat)

/-- KEY_CMD.send: the message goes to one node as a kind 0xB frame; one to station 255 is refused (R459, R16). -/
def State.keySend (s : State) : State :=
  let dst := s.get rKEY_CMD_NODE fKEY_CMD_NODE_node
  match (if dst % 256 = 255 then none else s.nodeId 0) with
  | none => s.warn 0x4C
  | some me =>
    let f := mkFrame 0xB 2 0 0 0 dst me 0xF4B0 s.kmgr.seq s.keyMsgOctets
    ({ s with kmgr := { s.kmgr with seq := (s.kmgr.seq + 1) % 65536 } }).present 7 f

/-- KEY_CMD.open_write (R448). -/
def State.keyOpenWrite (s : State) (n : Nat) : State :=
  let a := (s.reg rKEY_OPEN_ATTR_LO).toNat + 2 ^ 32 * (s.reg rKEY_OPEN_ATTR_HI).toNat
  if attrParent a != 0xFF || attrQrn a || attrMix a || attrBad a then s.keyResult n 9 true
  else
    let key := (List.range 8).flatMap (fun i => beBytes 4 (s.reg (rKEY_OPEN_DATA i)).toNat)
    let s := s.setKey n { st := 1, key := key, attr := a, left := attrUses a }
    let s := (List.range 8).foldl (fun s i => s.setReg (rKEY_OPEN_DATA i) 0) s
    (s.keyResult n 0 true).keyLog n 0x12 0 false 0

/-- KEY_CMD.open_clear: the slot becomes empty and its descendants revoked (R469). -/
def State.keyOpenClear (s : State) (n : Nat) : State :=
  let l := s.revoke n
  l.setKey n {}

/-- A send is in progress: its frame waits at input FP7 (R469). -/
def State.keySending (s : State) : Bool := (s.fabSrc 7).any (fun d => d.frame.kind = 0xB)

/-- A write of KEY_CMD (R469). -/
def keyCmdFx (q : Req) (v : Word) (s : State) : State :=
  if 4 ≤ s.kmgr.queue.length || s.keySending then s.warn 0x4C
  else
    let n := natBits v.toNat 10 8
    let s := if bitOf v 0 then s.keyQueue ⟨false, q.master = 0, s.keyMsgOctets⟩ else s
    let s := if bitOf v 1 then s.keySend else s
    let s := if bitOf v 2 then s.keyOpenWrite n else s
    if bitOf v 3 then s.keyOpenClear n else s

def execKeyApply (q : Req) (v : Word) (s : State) : Host.Outcome State Fault Refusal := finish s (s.writeReg q rKEY_CMD v (keyCmdFx q))
def execKeySend (q : Req) (v : Word) (s : State) : Host.Outcome State Fault Refusal :=
  finish s (s.writeReg q rKEY_CMD v (fun v s => keyCmdFx q v s))
def execKeyOpenWrite (q : Req) (v : Word) (s : State) : Host.Outcome State Fault Refusal :=
  finish s (answered q (s.regWrite q rKEY_CMD v (.done q) (keyCmdFx q)))
def execKeyOpenClear (q : Req) (v : Word) (s : State) : Host.Outcome State Fault Refusal :=
  finish s (answered q (s.regWrite q rKEY_CMD v (.done q) (fun v s => keyCmdFx q v s)))

/-- KEY_MESSAGE: a message that waits at FP7 comes in when the queue is empty, and the next one is checked. -/
def execKeyMessage (s : State) : Host.Outcome State Fault Refusal :=
  finish s (if s.enabled 0x4C then (if s.kmgr.queue = [] then s.keyArrive else s).keyMessage else s)

/-- A write of KEY_COMMIT by master 0x00. -/
def keyCommitFx (v : Word) (s : State) : State := if bitOf v 0 then s.keyCommitEnd true else if bitOf v 1 then s.keyCommitEnd false else s

def execKeyCommit (q : Req) (v : Word) (s : State) : Host.Outcome State Fault Refusal := finish s (s.writeReg q rKEY_COMMIT v keyCommitFx)
def execKeyCommitAbort (q : Req) (v : Word) (s : State) : Host.Outcome State Fault Refusal :=
  finish s (s.writeReg q rKEY_COMMIT v (fun v s => keyCommitFx v s))
def execKeyCommitTimeout (s : State) : Host.Outcome State Fault Refusal := finish s (s.keyCommitEnd false)

/-- A write of KEY_CTRn: by master 0x00 while the counters are not locked; entries 0 to 7 read 0 (R457, R469). -/
def keyCtrFx (n : Nat) (v : Word) (s : State) : State :=
  if s.flag rKEY_CTR_LOCK fKEY_CTR_LOCK_locked || n < 8 then s else s.store (rKEY_CTR n) v

/-- A write of KEY_CTR_LOCK sets locked (R457). -/
def keyCtrLockFx (v : Word) (s : State) : State := s.store rKEY_CTR_LOCK v

def execKeyCtrLock (q : Req) (v : Word) (s : State) : Host.Outcome State Fault Refusal :=
  finish s (s.writeReg q rKEY_CTR_LOCK v keyCtrLockFx)

/-- A result is popped; the high word and the replay registers show it (R469). -/
def keyLogPop (s : State) : Option (Nat × State) :=
  match s.kmgr.log with
  | [] => none
  | t :: rest =>
    let s : State := { s with kmgr := { s.kmgr with log := rest } }
    let hi := toW (t / 2 ^ 32)
    some (t, ((s.setReg rKEY_LOG_POP_HI hi).setReg rKEY_LOG_REPLAY (toW t)).setReg rKEY_LOG_REPLAY_HI hi)

def execKeyLogPop (q : Req) (mayPrefetch wide : Bool) (s : State) : Host.Outcome State Fault Refusal :=
  finish s (s.popRead q rKEY_LOG_POP mayPrefetch wide 0 keyLogPop)

/-! ### What the pages' registers read (R468, R469) -/

/-- CIPH_STATUS: pair busy shows a pair for each kind of work in progress. -/
def State.ciphStatus (s : State) : Nat :=
  let c0 := s.ciph.frame.any (fun x => x.d.frame.cls = 0)
  s.mismatches * 2 ^ 16 % 2 ^ 20 + b2n c0 * 2 ^ 8 + b2n (c0 || s.ciph.job0.isSome || s.ciph.job1.isSome) * 2 + b2n (s.ciph.frame.isSome)
/-- KEY_STATUS. -/
def State.keyStatus (s : State) : Nat :=
  natPut (s.reg rKEY_STATUS).toNat 6 4 s.kmgr.queue.length
/-- KEY_VIEW_STATE, KEY_VIEW_ATTR_LO, KEY_VIEW_ATTR_HI and KEY_VIEW_USES of the slot selected. -/
def State.keyView (s : State) (i : Nat) : Nat :=
  let x := s.key (s.get rKEY_SEL fKEY_SEL_slot)
  if i = 0 then x.parent * 2 ^ 8 + x.depth * 16 + x.st
  else if i = 1 then x.attr % 2 ^ 32
  else if i = 2 then x.attr / 2 ^ 32
  else if attrUses x.attr = 0 then 0 else x.left

end Sys2Proof.Machine
end

