-- ==== Sys2Proof/Machine/FamClove.lean ====
section
/-! DEFINITION. The commands of the Clove engines (R381 to R415): instructions as channels execute them, waits that end, the page's
commands, and the queue mover. -/
namespace Sys2Proof.Machine

/-! ### Instructions: a channel executes the instruction at its pc (R390 to R404) -/

def execJump (e : Fin 4) (k : Fin 16) (s : State) : Host.Outcome State Fault Refusal := finish s (s.clvRun e k 0x00 0x00 [])
def execCount (e : Fin 4) (k : Fin 16) (s : State) : Host.Outcome State Fault Refusal := finish s (s.clvRun e k 0x01 0x01 [])
def execPause (e : Fin 4) (k : Fin 16) (s : State) : Host.Outcome State Fault Refusal := finish s (s.clvRun e k 0x02 0x02 [])
def execHalt (e : Fin 4) (k : Fin 16) (s : State) : Host.Outcome State Fault Refusal := finish s (s.clvRun e k 0x03 0x03 [])
def execShout (e : Fin 4) (k : Fin 16) (s : State) : Host.Outcome State Fault Refusal := finish s (s.clvRun e k 0x04 0x04 [])
def execShin (e : Fin 4) (k : Fin 16) (pins : List Bool) (s : State) : Host.Outcome State Fault Refusal :=
  finish s (s.clvRun e k 0x05 0x05 pins)
def execExch (e : Fin 4) (k : Fin 16) (s : State) : Host.Outcome State Fault Refusal := finish s (s.clvRun e k 0x06 0x06 [])
def execLoadc (e : Fin 4) (k : Fin 16) (s : State) : Host.Outcome State Fault Refusal := finish s (s.clvRun e k 0x07 0x07 [])
def execTest (e : Fin 4) (k : Fin 16) (s : State) : Host.Outcome State Fault Refusal := finish s (s.clvRun e k 0x08 0x0F [])
def execTake (e : Fin 4) (k : Fin 16) (s : State) : Host.Outcome State Fault Refusal := finish s (s.clvRun e k 0x10 0x10 [])
def execGive (e : Fin 4) (k : Fin 16) (s : State) : Host.Outcome State Fault Refusal := finish s (s.clvRun e k 0x11 0x11 [])
def execCloveMatch (e : Fin 4) (k : Fin 16) (s : State) : Host.Outcome State Fault Refusal := finish s (s.clvRun e k 0x12 0x12 [])
def execEdge (e : Fin 4) (k : Fin 16) (s : State) : Host.Outcome State Fault Refusal := finish s (s.clvRun e k 0x13 0x13 [])
def execSignal (e : Fin 4) (k : Fin 16) (s : State) : Host.Outcome State Fault Refusal := finish s (s.clvRun e k 0x14 0x14 [])
def execBankpt (e : Fin 4) (k : Fin 16) (s : State) : Host.Outcome State Fault Refusal := finish s (s.clvRun e k 0x15 0x15 [])

/-- A channel meets a reserved opcode, or a program word that an armed checker makes uncorrectable (R389). -/
def State.clvReserved (s : State) (e k : Nat) : State :=
  if s.armed (0xA8 + e) 0 = some true then s.clvRun e k 0x00 0x1F [] else s.clvRun e k 0x16 0x1F []

def execCloveReservedOpcode (e : Fin 4) (k : Fin 16) (s : State) : Host.Outcome State Fault Refusal := finish s (s.clvReserved e k)

/-! ### Waits that end (R388, R394, R400, R402) -/

/-- A stalled GIVE finds room. -/
def State.clvGiveRoom (s : State) (e k : Nat) : State :=
  if s.clvLive e && s.clvWaits e k = some 0x11 && s.clvRoom e k then s.clvResume e k else s

def execCloveGiveRoom (e : Fin 4) (k : Fin 16) (s : State) : Host.Outcome State Fault Refusal := finish s (s.clvGiveRoom e k)

/-- A waiting EDGE recognises its edge, after `waited` turns that saw none and counted with the timeout enabled. -/
def State.clvEdgeSeen (s : State) (e k waited : Nat) : State :=
  let x := s.clv e k
  if s.clvLive e && s.clvWaits e k = some 0x13 && x.edges != 0 then
    let n := s.clvCounter e k
    let s := if x.instr.any (fun w => bitOf w 4) then s.setClvCounter e k (n - min waited (n - 1)) else s
    s.clvResume e k
  else s

def execCloveEdgeSeen (e : Fin 4) (k : Fin 16) (waited : Nat) (s : State) : Host.Outcome State Fault Refusal := finish s (s.clvEdgeSeen e k waited)

/-- A waiting EDGE's counter reaches 0 with no edge recognised. -/
def State.clvEdgeTimeout (s : State) (e k : Nat) : State :=
  let x := s.clv e k
  if s.clvLive e && s.clvWaits e k = some 0x13 && x.edges = 0 && x.instr.any (fun w => bitOf w 4) then (s.setClvCounter e k 1).clvResume e k
  else s

def execCloveEdgeTimeout (e : Fin 4) (k : Fin 16) (s : State) : Host.Outcome State Fault Refusal := finish s (s.clvEdgeTimeout e k)

/-- A clocked shift recognises its n-th clock edge. -/
def State.clvShiftDone (s : State) (e k : Nat) : State :=
  let x := s.clv e k
  if s.clvLive e && (s.clvWaits e k = some 0x04 || s.clvWaits e k = some 0x05) && x.edges != 0 then s.clvResume e k else s

def execCloveShiftComplete (e : Fin 4) (k : Fin 16) (s : State) : Host.Outcome State Fault Refusal := finish s (s.clvShiftDone e k)

/-! ### The page's commands (R382, R409 to R412, R415) -/

/-- A write of CLOV_CFG: only while every channel is idle; rotation 5 to 7 stores 4. -/
def clovCfgFx (e : Nat) (v : Word) (s : State) : State :=
  if !s.cloveIdle e then s.warn (0xA8 + e)
  else if 4 < fldOf v fCLOV_CFG_rotation then (s.store (rCLOV_CFG e) (fldPut v fCLOV_CFG_rotation 4)).warn (0xA8 + e)
  else s.store (rCLOV_CFG e) v

/-- A channel register takes writes only while its channel is idle (R415). -/
def clovChFx (e k a : Nat) (v : Word) (s : State) : State :=
  if (s.clv e k).state = 0 then s.store a v else s.warn (0xA8 + e)

/-- A write of CLOV_CHk_CFG: the largest pin count that fits. -/
def clovChCfgFx (e k : Nat) (v : Word) (s : State) : State :=
  if (s.clv e k).state != 0 then s.warn (0xA8 + e)
  else
    let n := min 4 (fldOf v fCLOV_CH_CFG_pin_count)
    let fit := min n (32 - fldOf v fCLOV_CH_CFG_pin_base)
    let s := s.store (rCLOV_CH_CFG e k) (fldPut v fCLOV_CH_CFG_pin_count fit)
    if fit < n then s.warn (0xA8 + e) else s

def clovStartFx (e : Nat) (v : Word) (s : State) : State :=
  (List.range 16).foldl (fun s k => if bitOf v k then s.clvStart e k else s) s
def clovStopFx (e : Nat) (v : Word) (s : State) : State :=
  (List.range 16).foldl (fun s k => if bitOf v k && (s.clv e k).state != 0 then s.clvStop e k 2 else s) s

def execClovStart (q : Req) (e : Fin 4) (v : Word) (s : State) : Host.Outcome State Fault Refusal :=
  finish s (s.writeReg q (rCLOV_START e) v (clovStartFx e))
def execClovStop (q : Req) (e : Fin 4) (v : Word) (s : State) : Host.Outcome State Fault Refusal :=
  finish s (s.writeReg q (rCLOV_STOP e) v (clovStopFx e))

/-- A write of CLOV_CMD.swap (R412): idle channels move at once, stalled ones once their instruction is done, running ones at BANKPT. -/
def clovCmdFx (e : Nat) (v : Word) (s : State) : State :=
  if !bitOf v 0 then s
  else if s.swapPending e then s.warn (0xA8 + e)
  else
    let b := 1 - s.engineBank e
    let s := (s.put (rCLOV_BANK e) fCLOV_BANK_bank b).put (rCLOV_BANK e) fCLOV_BANK_swap_pending 1
    let s := (List.range 16).foldl (fun (s : State) k =>
      let x := s.clv e k
      if x.state = 0 then s.setClv e k { x with bank := b }
      else if x.state = 2 then s.setClv e k { x with moves := true }
      else s) s
    s.cloveSwapCheck e

def execClovSwap (q : Req) (e : Fin 4) (v : Word) (s : State) : Host.Outcome State Fault Refusal :=
  finish s (s.writeReg q (rCLOV_CMD e) v (clovCmdFx e))

/-- Channel k of engine e is selected (R410). -/
def State.clvSelected (s : State) (e k : Nat) : Bool :=
  bitOf (s.reg (if e < 2 then rCLOV_SYNC_SEL_LO 0 else rCLOV_SYNC_SEL_HI 0)) (16 * (e % 2) + k)

/-- Every selected channel is started. -/
def State.clvSyncStart (s : State) : State :=
  (List.range 4).foldl (fun s e => (List.range 16).foldl (fun s k => if s.clvSelected e k then s.clvStart e k else s) s) s

/-- A write of CLOV_SYNC_CMD on page 0xA8 (R410): it is refused where the writer may not write an engine page that it selects. -/
def clovSyncFx (q : Req) (v : Word) (s : State) : State :=
  let may := (List.range 4).all (fun e => !(List.range 16).any (fun k => s.clvSelected e k) || s.claimAllows (44 + e) q)
  if !may then s.refuse 0xA8 fPG_STATUS_claim_refused
  else
    let s := s.put (rCLOV_SYNC_CMD 0) fCLOV_SYNC_CMD_unit (fldOf v fCLOV_SYNC_CMD_unit)
    let a := rCLOV_SYNC_STATUS 0
    let s := if fldOf v fCLOV_SYNC_CMD_disarm = 1 then s.put a fCLOV_SYNC_STATUS_armed 0 else s
    let s := if fldOf v fCLOV_SYNC_CMD_arm = 1 then (s.put a fCLOV_SYNC_STATUS_armed 1).put a fCLOV_SYNC_STATUS_unit (fldOf v fCLOV_SYNC_CMD_unit) else s
    if fldOf v fCLOV_SYNC_CMD_now = 1 then s.clvSyncStart else s

def execClovSyncNow (q : Req) (v : Word) (s : State) : Host.Outcome State Fault Refusal :=
  finish s (s.writeReg q (rCLOV_SYNC_CMD 0) v (clovSyncFx q))
def execClovSyncArm (q : Req) (v : Word) (s : State) : Host.Outcome State Fault Refusal :=
  finish s (s.writeReg q (rCLOV_SYNC_CMD 0) v (fun v s => clovSyncFx q v s))
def execClovSyncDisarm (q : Req) (v : Word) (s : State) : Host.Outcome State Fault Refusal :=
  finish s (answered q (s.regWrite q (rCLOV_SYNC_CMD 0) v (.done q) (clovSyncFx q)))

/-- The trigger of event unit u reaches an arm that waits for it (R240, R410). -/
def State.clvTrigger (s : State) (u : Nat) : State :=
  let a := rCLOV_SYNC_STATUS 0
  if s.flag a fCLOV_SYNC_STATUS_armed && s.get a fCLOV_SYNC_STATUS_unit = u then
    (s.clvSyncStart.put a fCLOV_SYNC_STATUS_armed 0).irq 0xA8 7
  else s

def execClovSyncTrigger (u : Fin 16) (s : State) : Host.Outcome State Fault Refusal := finish s (s.takeTrig u true fun s => s.clvTrigger u)

/-- A bank is in use while a channel that is not idle executes from it (R411). -/
def State.bankUsed (s : State) (e b : Nat) : Bool := (List.range 16).any (fun k => (s.clv e k).state != 0 && (s.clv e k).bank = b)

/-- A write of CLOV_PMEM_DATA. -/
def pmemFx (e : Nat) (v : Word) (s : State) : State :=
  let b := s.get (rCLOV_PMEM_ADDR e) fCLOV_PMEM_ADDR_bank
  if s.bankUsed e b then ((s.inc (rCLOV_CNT_REFUSED e)).irq (0xA8 + e) 4).cloveFault e
  else s.setProg e b (s.get (rCLOV_PMEM_ADDR e) fCLOV_PMEM_ADDR_word) v

/-- The word address moves on, wrapping within the bank. -/
def State.pmemNext (s : State) (e : Nat) : State :=
  s.put (rCLOV_PMEM_ADDR e) fCLOV_PMEM_ADDR_word ((s.get (rCLOV_PMEM_ADDR e) fCLOV_PMEM_ADDR_word + 1) % 1024)

def pmemIncFx (e : Nat) (v : Word) (s : State) : State := (pmemFx e v s).pmemNext e

/-- A read of CLOV_PMEM_DATA: an uncorrectable word reads 0 (R414). -/
def pmemRead (e : Nat) (s : State) : Nat × State :=
  let r := s.progRead e (s.get (rCLOV_PMEM_ADDR e) fCLOV_PMEM_ADDR_bank) (s.get (rCLOV_PMEM_ADDR e) fCLOV_PMEM_ADDR_word)
  ((r.1.getD 0).toNat, r.2)

def execClovPmemData (q : Req) (e : Fin 4) (v : Word) (s : State) : Host.Outcome State Fault Refusal :=
  finish s (s.writeReg q (rCLOV_PMEM_DATA e) v (pmemFx e))
def execClovPmemDataInc (q : Req) (e : Fin 4) (v : Word) (s : State) : Host.Outcome State Fault Refusal :=
  finish s (s.writeReg q (rCLOV_PMEM_DATA_INC e) v (pmemIncFx e))

/-- A write of CLOV_STEP: each channel named takes one turn, while step_mode = 1. -/
def clovStepFx (e : Nat) (v : Word) (s : State) : State :=
  if !s.flag (rCLOV_EXP e) fCLOV_EXP_step_mode || !s.enabled (0xA8 + e) then s
  else (List.range 16).foldl (fun s k => if bitOf v k then s.clvTurn e k [] false else s) s

def execClovStep (q : Req) (e : Fin 4) (v : Word) (s : State) : Host.Outcome State Fault Refusal :=
  finish s (s.writeReg q (rCLOV_STEP e) v (clovStepFx e))

/-! ### The queue mover (R407, R408) -/

/-- The mover of engine e as a translated master: channel 16 + e of `xlate`, whose master ID is 0x20 + e. -/
def moverOf (e : Nat) : Nat := 16 + e

/-- A side of a queue stops with its fault bit (R408). -/
def State.moverFault (s : State) (e k : Nat) (tx : Bool) : State :=
  (s.put (rCLOV_MV_CFG e k) (if tx then fCLOV_MV_CFG_tx_fault else fCLOV_MV_CFG_rx_fault) 1).irq (0xA8 + e) 6

/-- The mover moves one word of a queue's receive or transmit side, where its ring has an entry. An access that memory turns away stops the
side as one that translation turns away. -/
def State.moverMove (s : State) (e k : Nat) (tx : Bool) : State :=
  let cfg := s.reg (rCLOV_MV_CFG e k)
  let q := 16 + k
  let size := 2 ^ fldOf cfg fCLOV_MV_CFG_size
  let ring := if tx then rCLOV_MV_TX e k else rCLOV_MV_RX e k
  let head := s.get ring fCLOV_MV_RX_head
  let on := if tx then fldOf cfg fCLOV_MV_CFG_tx_en = 1 && fldOf cfg fCLOV_MV_CFG_tx_fault = 0 && s.txMode e q = 2
    else fldOf cfg fCLOV_MV_CFG_rx_en = 1 && fldOf cfg fCLOV_MV_CFG_rx_fault = 0 && s.rxMode e q = 2
  let a := (s.reg (rCLOV_MV_BASE e k)).toNat / 16 * 16 + (if tx then 16 * size else 0) + 16 * (head % size)
  if !s.enabled (0xA8 + e) || !s.fieldRuns || !on || !s.fqOn e q || s.givenUp e k || head = s.get ring fCLOV_MV_RX_tail then s
  else if tx then
    if s.txDepth e q ≤ (s.fq e q).tx.length then s
    else
      let r := s.xlate (moverOf e) a 16 .read
      match r.1.1 with
      | some _ => r.2.moverFault e k true
      | none =>
        let m := r.2.readPieces (moverOf e) [] r.1.2
        if m.1 != 0 then m.2.2.moverFault e k true
        else
          let s := m.2.2.put ring fCLOV_MV_TX_head ((head + 1) % 65536)
          let n := leNat (slice m.2.1 8 1)
          if n % 16 = 0 || 8 < n % 16 then ((s.inc (rCLOV_CNT_ERROR e)).irq (0xA8 + e) 4).cloveFault e
          else
            let w : FqWord := ⟨leNat (m.2.1.take 8), n % 16, n.testBit 4⟩
            (s.setFq e q { s.fq e q with tx := (s.fq e q).tx ++ [w] }).fqFed e q
  else match (s.fq e q).rx with
    | [] => s
    | w :: rest =>
      let r := s.xlate (moverOf e) a 16 .write
      match r.1.1 with
      | some _ => r.2.moverFault e k false
      | none =>
        let m := r.2.writePieces (moverOf e) r.1.2 (leBytes 8 w.data ++ leBytes 8 (w.valid + 16 * b2n w.last))
        if m.1 != 0 then m.2.moverFault e k false
        else ((m.2.put ring fCLOV_MV_RX_head ((head + 1) % 65536)).setFq e q { m.2.fq e q with rx := rest }).fqGrant e q

def execMoverTransfer (e : Fin 4) (k : Fin 16) (tx : Bool) (s : State) : Host.Outcome State Fault Refusal := finish s (s.moverMove e k tx)

/-- A write of CLOV_MVk_CFG: the fault bits clear, and their sides try the same entry again; the rest only while the channel is idle; a size
outside 2 to 12 stores the nearest limit. -/
def moverCfgFx (e k : Nat) (v : Word) (s : State) : State :=
  let a := rCLOV_MV_CFG e k
  let idle := (s.clv e k).state = 0
  let rx := fldOf v fCLOV_MV_CFG_rx_fault = 1 && s.flag a fCLOV_MV_CFG_rx_fault
  let tx := fldOf v fCLOV_MV_CFG_tx_fault = 1 && s.flag a fCLOV_MV_CFG_tx_fault
  let s := if idle then s.store a (fldPut v fCLOV_MV_CFG_size (clampN 2 12 (fldOf v fCLOV_MV_CFG_size)))
    else s.store a ((s.reg a &&& ~~~maskOf 29 28) ||| (v &&& maskOf 29 28))
  let s := if idle || (v &&& ~~~maskOf 29 28) = (s.reg a &&& ~~~maskOf 29 28) then s else s.warn (0xA8 + e)
  let s := if rx then s.moverMove e k false else s
  if tx then s.moverMove e k true else s

def execMoverFaultClear (q : Req) (e : Fin 4) (k : Fin 16) (v : Word) (s : State) : Host.Outcome State Fault Refusal :=
  finish s (s.writeReg q (rCLOV_MV_CFG e k) v (moverCfgFx e k))

/-- A write of CLOV_MVk_RX or CLOV_MVk_TX: a tail more than 2^size beyond the head stores nothing (R407). -/
def moverTailFx (e k : Nat) (tx : Bool) (v : Word) (s : State) : State :=
  let ring := if tx then rCLOV_MV_TX e k else rCLOV_MV_RX e k
  let head := s.get ring fCLOV_MV_RX_head
  let tail := v.toNat % 65536
  if 2 ^ s.get (rCLOV_MV_CFG e k) fCLOV_MV_CFG_size < (tail + 65536 - head) % 65536 then s.warn (0xA8 + e)
  else s.put ring fCLOV_MV_RX_tail tail

/-! ### What the page's registers read -/

/-- CLOV_STATUS, and the channels' banks of CLOV_BANK. -/
def State.cloveStatus (s : State) (e : Nat) : Nat :=
  (List.range 16).foldl (fun n k => n + b2n ((s.clv e k).state = 2) * 2 ^ (16 + k) + b2n ((s.clv e k).state != 0) * 2 ^ k) 0
def State.cloveBanks (s : State) (e : Nat) : Nat :=
  (s.reg (rCLOV_BANK e)).toNat % 4 + (List.range 16).foldl (fun n k => n + (s.clv e k).bank * 2 ^ (16 + k)) 0
/-- CLOV_CHk_STATUS. -/
def State.cloveChStatus (s : State) (e k : Nat) : Nat :=
  let x := s.clv e k
  x.pc * 2 ^ 16 + x.bank * 2 ^ 15 + b2n x.ended * 2 ^ 11 + b2n x.idle * 2 ^ 10 + b2n x.timeout * 2 ^ 9 + b2n x.matched * 2 ^ 8 + x.cause * 16 + x.state

end Sys2Proof.Machine
end

