-- ==== Sys2Proof/Machine/FamDma.lean ====
section
/-! DEFINITION. The DMA allocator, the commands of a channel and its receive queue (R209 to R211, R295 to R307, R310, R311). -/
namespace Sys2Proof.Machine

/-! ### Allocation (R295, R296, R311) -/

/-- A read of DMAA_ALLOC: the lowest free channel that the reader may hold (R295). -/
def dmaaAlloc (q : Req) (s : State) : Nat × State :=
  let warden := s.levelOf q = .warden
  match (List.range 16).find? (fun c => s.chState c = 0 && (warden || !bitOf (s.reg rDMAA_CFG) c)) with
  | none => (0, (s.inc rDMAA_CNT_NONE).irq 0x60 2)
  | some c =>
    let v := 2 ^ 31 + c
    let remote := q.master = 0x30
    let s := s.setReg (rDMAA_OWNER c) (toW ((if remote then q.node * 2 ^ 14 + q.att % 2 * 2 ^ 8 else 0) + q.master))
    let s := (s.put (rDMA_STATE c) fDMA_STATE_owner q.master).setChState c 1
    (v, s.setReg rDMAA_ALLOC_REPLAY (toW v))

def execDmaaAlloc (q : Req) (mayPrefetch : Bool) (s : State) : Host.Outcome State Fault Refusal :=
  finish s (s.rowRead q rDMAA_ALLOC mayPrefetch false (dmaaAlloc q))

/-- A write of DMAA_FREE by requester q (R296, R311). -/
def dmaaFreeFx (q : Req) (v : Word) (s : State) : State :=
  let c := v.toNat % 16
  let warden := s.levelOf q = .warden
  let force := bitOf v 31 && warden
  let st := s.chState c
  let busy := st = 2 || st = 3 || st = 5
  if (!warden && !s.dmaOwns c q) || (busy && !force) then s.refuse 0x60 fPG_STATUS_claim_refused
  else if st = 0 then s
  else s.dmaFree c force

def execDmaaFree (q : Req) (v : Word) (s : State) : Host.Outcome State Fault Refusal := finish s (s.writeReg q rDMAA_FREE v (dmaaFreeFx q))

/-! ### Commands of a channel (R301, R302) -/

/-- DMA_CMD.start. -/
def State.dmaStart (s : State) (c : Nat) : State :=
  let st := s.chState c
  let d := s.dma c
  let run : State := ((s.setDma c { d with rx := false, desc := [], started := false, gather := [], ending := none, stopReq := false, busy := false }).setReg
    (rDMA_CUR_DESC c) (s.reg (rDMA_DESC c))).setChState c 2
  if st = 4 then run
  else if st != 1 then s
  else if s.flag (rDMA_CTRL c) fDMA_CTRL_rx then
    (if (s.binding c).isSome then (s.setDma c { d with rx := true }).setChState c 5 else s)
  else run

/-- Buffers given to a ring in this hub's memory take up the frames that wait for them at once; the descriptors of a ring in a host's memory are
read when the next RX_FRAME_WRITE says what they hold (R211, R305). -/
def State.rxResume (s : State) (c : Nat) : State :=
  let a := (s.reg (rDMA_RX_RING c)).toNat / 32 * 32 +
    32 * (s.get (rDMA_RX_HEAD c) fDMA_RX_HEAD_head % 2 ^ s.get (rDMA_RX_CFG c) fDMA_RX_CFG_ring_k)
  let here := (s.xlate c a 8 .fetch).1.2.all (fun p => p.target = 0)
  if s.enabled (0x50 + c) && s.chState c = 5 && here then s.rxPump 16 c [] else s

/-- DMA_CMD.resume: the faulting burst is redone by the channel's next step; a receive channel retries the buffer (R306). -/
def State.dmaResume (s : State) (c : Nat) : State :=
  if s.chState c != 3 then s
  else
    let rx := s.flag (rDMA_CTRL c) fDMA_CTRL_rx
    let s := (s.setDma c { s.dma c with rx := rx }).setChState c (if rx then 5 else 2)
    if rx then s.rxResume c else s

/-- DMA_CMD.abort of a faulted channel. -/
def State.dmaAbort (s : State) (c : Nat) : State :=
  if s.chState c != 3 then s else ((s.dmaHalt c).setDma c { (s.dmaHalt c).dma c with rx := false }).dmaStopped c

/-- DMA_CMD.stop: RUN goes to IDLE once its descriptor completes, at once when none is in progress; RECEIVE once its open frames have
completed truncated. -/
def State.dmaStop (s : State) (c : Nat) : State :=
  let st := s.chState c
  let d := s.dma c
  if st = 2 then (if d.desc = [] then s.setChState c 1 else s.setDma c { d with stopReq := true })
  else if st = 5 then ((s.dmaHalt c).setDma c { (s.dmaHalt c).dma c with rx := false }).setChState c 1
  else s

/-- A write of DMA_CMD: its bits act in order, start, resume, abort, stop. -/
def dmaCmdFx (c : Nat) (v : Word) (s : State) : State :=
  let s := if bitOf v 0 then s.dmaStart c else s
  let s := if bitOf v 1 then s.dmaResume c else s
  let s := if bitOf v 2 then s.dmaAbort c else s
  if bitOf v 3 then s.dmaStop c else s

def execDmaStart (q : Req) (c : Fin 16) (v : Word) (s : State) : Host.Outcome State Fault Refusal :=
  finish s (s.writeReg q (rDMA_CMD c) v (dmaCmdFx c))
def execDmaResume (q : Req) (c : Fin 16) (v : Word) (s : State) : Host.Outcome State Fault Refusal :=
  finish s (s.writeReg q (rDMA_CMD c) v (fun v s => dmaCmdFx c v s))
def execDmaAbort (q : Req) (c : Fin 16) (v : Word) (s : State) : Host.Outcome State Fault Refusal :=
  finish s (s.writeReg q (rDMA_CMD c) v (fun w s => dmaCmdFx c w s))
def execDmaStop (q : Req) (c : Fin 16) (v : Word) (s : State) : Host.Outcome State Fault Refusal :=
  finish s (s.writeReg q (rDMA_CMD c) v (fun w t => dmaCmdFx c w t))

/-! ### Settings of a channel (R303, R305, R307, R310) -/

/-- A write of DMA_RX_TAIL: one that would overfill the ring stores nothing (R305). -/
def rxTailFx (c : Nat) (v : Word) (s : State) : State :=
  let t := v.toNat % 65536
  let n := (t + 65536 - s.get (rDMA_RX_HEAD c) fDMA_RX_HEAD_head) % 65536
  if 2 ^ s.get (rDMA_RX_CFG c) fDMA_RX_CFG_ring_k < n then s.warn (0x50 + c)
  else (s.put (rDMA_RX_TAIL c) fDMA_RX_TAIL_tail t).rxResume c

def execRxTailWrite (q : Req) (c : Fin 16) (v : Word) (s : State) : Host.Outcome State Fault Refusal :=
  finish s (s.writeReg q (rDMA_RX_TAIL c) v (rxTailFx c))

/-- A write of DMA_RSV_PUSH (R307): held buffers and filled items share 32 places. -/
def rsvPushFx (c : Nat) (v : Word) (s : State) : State :=
  let d := s.dma c
  if 32 ≤ d.rsv.length + d.fifo.length then s.warn (0x50 + c) else s.setDma c { d with rsv := d.rsv ++ [v.toNat] }

def execRsvPush (q : Req) (c : Fin 16) (v : Word) (s : State) : Host.Outcome State Fault Refusal :=
  finish s (s.writeReg q (rDMA_RSV_PUSH c) v (rsvPushFx c))

/-- A pop of DMA_RSV_POP (R45, R307). -/
def rsvPop (c : Nat) (s : State) : Option (Nat × State) :=
  let d := s.dma c
  match d.fifo with
  | [] => none
  | i :: rest =>
    let s := s.setDma c { d with fifo := rest }
    let s := s.setReg (rDMA_RSV_POP_HI c) (toW (i / 2 ^ 32))
    some (i, (s.setReg (rDMA_RSV_REPLAY c) (toW i)).setReg (rDMA_RSV_REPLAY_HI c) (toW (i / 2 ^ 32)))

def execRsvPop (q : Req) (c : Fin 16) (mayPrefetch wide : Bool) (s : State) : Host.Outcome State Fault Refusal :=
  finish s (s.popRead q (rDMA_RSV_POP c) mayPrefetch wide 0 (rsvPop c))

/-- A write of DMA_RX_CFG (R303, R310). -/
def rxCfgFx (c : Nat) (v : Word) (s : State) : State :=
  let st := s.chState c
  if st = 5 || st = 3 then s
  else
    let p := fldOf v fDMA_RX_CFG_port
    let ok := p = 0 || p = 4 || p = 5 || p = 6 || p = 14
    let p' := if ok then p else 0
    let s := if ok then s else s.warn (0x50 + c)
    let queue := fldOf v fDMA_RX_CFG_queue
    if p' != 0 && (List.range 16).any (fun e => e != c && s.binding e = some (p', queue)) then s.warn (0x50 + c)
    else
      let v := fldPut v fDMA_RX_CFG_port p'
      let v := fldPut v fDMA_RX_CFG_ring_k (clampN 3 12 (fldOf v fDMA_RX_CFG_ring_k))
      s.store (rDMA_RX_CFG c) (fldPut v fDMA_RX_CFG_stall (min 10000 (fldOf v fDMA_RX_CFG_stall)))

/-- A write of DMA_RX_RING (R310). -/
def rxRingFx (c : Nat) (v : Word) (s : State) : State :=
  let st := s.chState c
  if st = 5 || st = 3 then s else s.store (rDMA_RX_RING c) v

/-- A write of DMA_RSV_CFG stores the nearest length (R310). -/
def rsvCfgFx (c : Nat) (v : Word) (s : State) : State :=
  s.put (rDMA_RSV_CFG c) fDMA_RSV_CFG_buf_len (clampN 64 1984 ((fldOf v fDMA_RSV_CFG_buf_len + 32) / 64 * 64))

/-- A write of DMA_EXP: a timeout below 10 stores 10 (R310). -/
def dmaExpFx (c : Nat) (v : Word) (s : State) : State :=
  s.store (rDMA_EXP c) (fldPut v fDMA_EXP_rsp_timeout (max 10 (fldOf v fDMA_EXP_rsp_timeout)))

/-! ### Received frames -/

/-- The frames that wait for buffers at an endpoint port's channels go on (R211). -/
def State.rxPumpPort (s : State) (o : Nat) (host : List (Nat × Byte)) : State :=
  (List.range 16).foldl (fun s c =>
    if s.enabled (0x50 + c) && s.chState c = 5 && (s.binding c).any (fun b => b.1 = o) then s.rxPump 16 c host else s) s

/-- The frame that heads the endpoint port's deliveries, when it is a flow's, goes to its queue; then the frames that wait for buffers at the
port's channels go on (R211, R306). `host` is what the command reads of a host's memory. -/
def State.rxStep (s : State) (o : Nat) (host : List (Nat × Byte)) : State :=
  let s : State := match s.outbox o with
    | d :: rest => if d.frame.kind = 0 && (o = 4 || o = 5 || o = 6 || o = 14) then (s.setOutbox o rest).rxFrame o host d else s
    | [] => s
  s.rxPumpPort o host

def execRxFrameWrite (o : Fin 16) (host : List (Nat × Byte)) (s : State) : Host.Outcome State Fault Refusal := finish s (s.rxStep o host)

def execRxStallExpire (c : Fin 16) (s : State) : Host.Outcome State Fault Refusal := finish s (s.rxStall c)

end Sys2Proof.Machine
end

