-- ==== Sys2Proof/Machine/FamFabric.lean ====
section
/-! DEFINITION. The fabric rows (R129 to R155). -/
namespace Sys2Proof.Machine

/-- The n-th frame of an input's source has been taken in. -/
def State.dropSource (s : State) (i n : Nat) : State :=
  if i < 4 then
    let x := s.port (i / 2) (i % 2)
    s.setPort (i / 2) (i % 2) { x with takeoff := x.takeoff.eraseIdx n }
  else if i = 15 then (s.setOutbox 15 ((s.outbox 15).eraseIdx n)).egressPump 15
  else s.setFabSrc i ((s.fabSrc i).eraseIdx n)

/-- The level of a sender that presents a frame from outside: Anise is Warden, a host has its own (R283), a MAC's wire none. -/
def State.presenterLevel (s : State) (i : Nat) : Nat :=
  if i = 14 then 2 else if i = 4 || i = 5 then lvlRank (s.plainLevel ⟨i - 3, 0x3FFFF, 0⟩) else 0

/-- What a source does once the input has taken a frame of it: field queues send the next, a bridge what it kept back (R147). -/
def State.sourceTaken (s : State) (i : Nat) : State :=
  if 10 ≤ i && i ≤ 13 then s.fqSend (i - 10)
  else if i = 4 || i = 5 then s.pump (i - 4)
  else if i = 6 then (List.range 16).foldl (fun s c => s.pump (2 + c)) s
  else s

/-- FRAME_INGRESS at an input (R132): the oldest frame of its source that the input does not hold back (R147), or the frame that the
environment (Anise, a MAC's wire) presents there. An input that is off presents nothing (R155). -/
def State.frameIngress (s : State) (i : Nat) (env : Option Frame) : State :=
  if !s.fabRuns || !s.fabPort i then s
  else match env with
    | some f =>
      if s.inputHolds i (s.crossClass i f) then s
      else (s.ingress i { inp := i, frame := f, discard := false, cipherDone := false, orig := i, level := s.presenterLevel i }).getD s
    | none => match s.sourceNext i with
      | none => s
      | some n => match (s.sources i)[n]? with
        | none => s
        | some d => match (s.dropSource i n).ingress i d with
          | some s' => s'.sourceTaken i
          | none => s

def execFrameIngress (i : Fin 16) (env : Option Frame) (s : State) : Host.Outcome State Fault Refusal := finish s (s.frameIngress i env)

def execFabricRound (s : State) : Host.Outcome State Fault Refusal :=
  finish s (if s.fabRuns && !s.flag rFAB_TEST fFAB_TEST_freeze then s.fabRound else s)

/-- A bank's count has been found to disagree with its free list: source 4 (R154). The count that FAB_MID_OCC shows is computed from the
cells in the bank, so the rebuilt count is the one it shows. -/
def execBankCountRebuild (m : Fin 16) (s : State) : Host.Outcome State Fault Refusal :=
  finish s (if s.enabled 0x10 then (s.put (rFAB_MID_OCC m) fFAB_MID_OCC_used (s.bankCells.filter (fun x => x.mid = m.val)).length).raise 4 else s)

/-- The sum of the effective limits with FAB_LIMITn replaced by v (R143). -/
def State.limitSum (s : State) (n : Nat) (v : Word) : Nat :=
  (List.range 16).foldl (fun t i =>
    let w := if i = n then v else s.reg (rFAB_LIMIT i)
    t + max 1 (fldOf w fFAB_LIMIT_class0_cells) + fldOf w fFAB_LIMIT_class1_cells + fldOf w fFAB_LIMIT_class2_cells +
      fldOf w fFAB_LIMIT_class3_cells) 0

/-- A write to FAB_LIMITn (R143, R155). -/
def fabLimitFx (n : Nat) (v : Word) (s : State) : State :=
  if 512 < s.limitSum n v then (s.warn 0x11).irq 0x10 3
  else (s.store (rFAB_LIMIT n) v).put rFAB_LIMIT_SUM fFAB_LIMIT_SUM_sum (s.limitSum n v)

def execFabLimitWrite (q : Req) (n : Fin 16) (v : Word) (s : State) : Host.Outcome State Fault Refusal :=
  finish s (s.writeReg q (rFAB_LIMIT n) v (fabLimitFx n))

/-- A write to FAB_OUTCAPo: a cap above 8,192 stores 8,192 (R155). -/
def fabOutcapFx (o : Nat) (v : Word) (s : State) : State :=
  (s.put (rFAB_OUTCAP o) fFAB_OUTCAP_cap (min 8192 (fldOf v fFAB_OUTCAP_cap)))

/-- FAB_OCC_CMD bit 0 clears every high_water (R155). -/
def fabOccCmdFx (v : Word) (s : State) : State :=
  if bitOf v 0 then (List.range 16).foldl (fun s m => s.put (rFAB_MID_OCC m) fFAB_MID_OCC_high_water 0) s else s

def execFabOccCmd (q : Req) (v : Word) (s : State) : Host.Outcome State Fault Refusal := finish s (s.writeReg q rFAB_OCC_CMD v fabOccCmdFx)

/-- FAB_AIM_CMD bit 0 clears FAB_AIM_MAX (R155). -/
def fabAimCmdFx (v : Word) (s : State) : State := if bitOf v 0 then s.setReg rFAB_AIM_MAX 0 else s

def execFabAimCmd (q : Req) (v : Word) (s : State) : Host.Outcome State Fault Refusal := finish s (s.writeReg q rFAB_AIM_CMD v fabAimCmdFx)

/-- An item is popped: FAB_TRACE_POP_HI and the replay registers show it (R44, R45). Nothing to pop reads 0. -/
def fabTracePop (s : State) : Option (Nat × State) :=
  match s.fab.trace with
  | [] => none
  | t :: rest =>
    let s := { s with fab := { s.fab with trace := rest } }
    some (t, ((s.setReg rFAB_TRACE_POP_HI (toW (t / 2 ^ 32))).setReg rFAB_TRACE_REPLAY (toW t)).setReg rFAB_TRACE_REPLAY_HI (toW (t / 2 ^ 32)))

def execFabTracePop (q : Req) (mayPrefetch wide : Bool) (s : State) : Host.Outcome State Fault Refusal :=
  finish s (s.popRead q rFAB_TRACE_POP mayPrefetch wide 0 fabTracePop)

/-- FAB_TEST_STEP bit 0 executes one round while frozen (R155); with no cell waiting there is no round to execute, by the pause of R128, and
FAB_ROUND does not rise (DESIGN CHOICE, log entry 99). -/
def fabTestStepFx (v : Word) (s : State) : State :=
  if bitOf v 0 && s.flag rFAB_TEST fFAB_TEST_freeze && s.fabRuns then s.fabRound else s

def execFabTestStep (q : Req) (v : Word) (s : State) : Host.Outcome State Fault Refusal := finish s (s.writeReg q rFAB_TEST_STEP v fabTestStepFx)

end Sys2Proof.Machine
end

