-- ==== Sys2Proof/Machine/FamFault.lean ====
section
/-! DEFINITION. The fault collector's commands, and the inspection ledger: its commands, its chain and its flush (R499 to R521). -/
namespace Sys2Proof.Machine

/-! ### Sources and pairs (R499, R500) -/

/-- An uncorrectable word of general SRAM reads as all ones until it is rewritten (R502). A word is one of 32 bits (DEDUCED, log entry 85). -/
def State.sramFault (s : State) (a : Nat) : State :=
  if a < 0x300000 then ({ s with sramBad := a / 4 * 4 :: s.sramBad.filter (· != a / 4 * 4) } : State).setWord (a / 4 * 4) 0xFFFFFFFF else s

/-- A TLB parity error discards the entry of its address, which is walked again (R308; log entry 85). -/
def State.tlbFault (s : State) (a : Nat) : State := { s with tlb := s.tlb.filter (fun e => e.page != a / 4096) }

/-- An uncorrectable word of the staging area: its staged entry is corrupt (R511, R516). -/
def State.stagingFault (s : State) (a : Nat) : State :=
  let i := (a - stagingBase) / 32
  let at_ := stagingBase + 32 * i + 1
  if stagingBase ≤ a && a < stagingBase + 16384 && (i + 512 - s.ledg.head) % 512 < s.staged then s.setByte at_ (s.byte at_ ||| 8) else s

/-- What a fault does beside its report, where a rule says it: the counters of sources 59 and 114 (R566, R567), the frame that source 1 or 2
marks (R154), the flow that source 13 disables (R180), the words of sources 57 and 58 (R502, R516), the TLB entry of source 51 (R308), the slot that source 66 makes invalid (R452),
the mismatch of source 60 (R437). -/
def State.faultEffect (s : State) (src addr : Nat) : State :=
  if src = 59 then s.ifOn 0xC1 fun s => (s.inc rXSPI_CNT_READ_ERR).irq 0xC1 3
  else if src = 114 then s.ifOn 0xC2 fun s => s.inc rANI_CNT_EXCEPTION
  else if src = 1 || src = 2 then s.ifOn 0x10 fun s => s.cellFault
  else if src = 13 then s.ifOn 0x30 fun s => s.flowFault addr
  else if src = 60 then s.ifOn 0x48 fun s => s.mismatchNow
  else if src = 57 then s.sramFault addr
  else if src = 51 then s.ifOn 0x08 fun s => s.tlbFault addr
  else if src = 58 then s.stagingFault addr
  else if src = 66 then s.keyFault
  else s

/-- A source raises, with the access that its checker was at, none where the master is 0xFF (R508); `page` is the unit's where R592 leaves it to
the event. -/
def execFaultEvent (src : Fin 127) (page master node type size addr : Nat) (s : State) : Host.Outcome State Fault Refusal :=
  finish s ((s.fault (if master % 256 = 0xFF then { source := src, page := page }
    else { source := src, page := page, master := master % 256, node := node % 2 ^ 18, type := type % 8, size := size % 256, addr := addr % 2 ^ 64 })).faultEffect
    src addr)

/-- A pair reads equal for one cycle: it is recorded, and source 127 is raised on the page that carries the pair (R500, R592). -/
def execErrorPairEqual (src : Fin 127) (page : Nat) (s : State) : Host.Outcome State Fault Refusal :=
  finish s (s.ifOn 0x04 fun s => (((s.setReg rFLT_WIRE (toW (2 ^ 31 + src))).inc rFLT_CNT_WIRE).irq 0x04 11).raise 127 ((ownerPage src page).getD 0xFFF))

/-- A pair has been equal for 64 cycles: its source reports itself as raised (R500). -/
def execErrorPairStuck (src : Fin 127) (page : Nat) (s : State) : Host.Outcome State Fault Refusal :=
  finish s (s.fault { source := src, page := page, wire := true })

/-! ### Acknowledgement and clearing (R506, R508, R510, R520) -/

/-- A write of FLT_ACK: the classes written 1 are no longer pending. -/
def fltAckFx (v : Word) (s : State) : State :=
  let m := v.toNat % 512
  s.setReg rFLT_PENDING (s.reg rFLT_PENDING &&& ~~~(toW (m + m * 2 ^ 16)))

def execFltAck (q : Req) (v : Word) (s : State) : Host.Outcome State Fault Refusal := finish s (s.writeReg q rFLT_ACK v fltAckFx)

/-- A write of FLT_CAP_CLR: the captures written 1 are empty. -/
def fltCapClrFx (v : Word) (s : State) : State :=
  (List.range 9).foldl (fun (s : State) c =>
    if bitOf v c then (List.range 8).foldl (fun (s : State) w => s.setReg (rFLT_CAP c w) 0) s else s) s

def execFltCapClr (q : Req) (v : Word) (s : State) : Host.Outcome State Fault Refusal := finish s (s.writeReg q rFLT_CAP_CLR v fltCapClrFx)

/-- FLT_ERRN_CLR is a write to the power die (R9, R510): it waits for the die link, or completes with 0x5 while the link is silent. -/
def State.errnClr (s : State) (q : Req) (v : Word) (c : Cont) : Option Nat × State :=
  let silent := s.flag rPD_LINK_STATUS fPD_LINK_STATUS_silent
  let r := s.regWriteHold q rFLT_ERRN_CLR v c (fun w t =>
    if silent then (false, t) else (true, { t.emit (.die rFLT_ERRN_CLR w) with pdWrites := t.pdWrites ++ [⟨q, rFLT_ERRN_CLR, w, c⟩] }))
  if silent && r.1 = some 0 && s.reservedOk q rFLT_ERRN_CLR v then (some 5, r.2) else r

def execFltErrnClr (q : Req) (v : Word) (s : State) : Host.Outcome State Fault Refusal := finish s (answered q (s.errnClr q v (.done q)))

/-- The warm reset of a level 5 reaction (R505). -/
def execLevel5Reset (s : State) : Host.Outcome State Fault Refusal := finish s (if s.level5 then s.warmReset 0x12 else s)

/-! ### The chain (R514, R515) -/

/-- The ledger slot meets R515. -/
def State.ledgerKeyOk (s : State) : Bool :=
  let n := s.get rLEDG_CFG fLEDG_CFG_slot
  let a := (s.key n).attr
  8 ≤ n && s.keyOk n && attrLedger a && attrUses a = 0 && !attrMix a

/-- The last real tag. -/
def State.ledgerTag (s : State) : List Byte := beBytes 4 (s.reg rLEDG_TAG_HI).toNat ++ beBytes 4 (s.reg rLEDG_TAG_LO).toNat

/-- An entry of 24 octets with its tag, and the state with the tag as the last real one; untagged, with zeros, where the key is unusable. -/
def State.ledgerSeal (s : State) (e : List Byte) : List Byte × State :=
  if s.ledgerKeyOk then
    let t := (cmac (schedule (s.keyNow (s.get rLEDG_CFG fLEDG_CFG_slot))) (s.ledgerTag ++ e)).take 8
    (e ++ t, (s.setReg rLEDG_TAG_HI (toW (beNat (t.take 4)))).setReg rLEDG_TAG_LO (toW (beNat (t.drop 4))))
  else
    (e.set 1 (nthD e 1 0 ||| 0x10) ++ List.replicate 8 0, s.put rLEDG_STATUS fLEDG_STATUS_untagged 1)

/-! ### The partition (R517, R518) -/

/-- The base of the partition in the CS0 window. -/
def State.partBase (s : State) : Nat := 0x20000000 + (s.reg rLEDG_PART_BASE).toNat % 0x10000000
/-- Its sectors; 0 where there is no partition. -/
def State.partSectors (s : State) : Nat :=
  let n := s.get rLEDG_PART_SIZE fLEDG_PART_SIZE_sectors
  if n < 2 then 0 else n

/-- A sector is erased. -/
def State.eraseSector (s : State) (i : Nat) : State :=
  { s with mem := spDrop (fun a => s.partBase + 4096 * i ≤ a && a < s.partBase + 4096 * (i + 1)) s.mem }

/-- An entry is sealed and written at the next offset, the sector after a newly begun one erased ahead. The number is that of its place in the
chain. An entry written shows that the partition is not full. -/
def State.ledgerWrite (s : State) (e : List Byte) : State :=
  let size := 4096 * s.partSectors
  let off := if size ≤ (s.reg rLEDG_NEXT_OFF).toNat then 0 else (s.reg rLEDG_NEXT_OFF).toNat
  let num := s.reg rLEDG_NEXT_NUM
  let r := s.ledgerSeal (e.take 4 ++ beBytes 4 num.toNat ++ slice e 8 16)
  let s := r.2
  let next := off / 4096 + 1
  let s := if off % 4096 != 0 then s
    else if next < s.partSectors then s.eraseSector next
    else if s.flag rLEDG_CFG fLEDG_CFG_wrap then s.eraseSector 0 else s
  let s := s.setBytes (s.partBase + off) r.1
  (((s.setReg rLEDG_NEXT_NUM (num + 1)).setReg rLEDG_NEXT_OFF (toW (off + 32))).inc rLEDG_CNT_ENTRIES).put rLEDG_STATUS
    fLEDG_STATUS_partition_full 0

/-- The partition has no room for another entry (R518). -/
def State.partFull (s : State) : Bool :=
  4096 * s.partSectors ≤ (s.reg rLEDG_NEXT_OFF).toNat && (s.partSectors = 0 || !s.flag rLEDG_CFG fLEDG_CFG_wrap)

/-- The oldest staged entry. -/
def State.stagedHead (s : State) : List Byte := s.bytes (stagingBase + 32 * s.ledg.head) 24

/-- The flush writes n staged entries, or fewer where the partition is full. -/
def State.flushWrite : Nat → State → State
  | 0, s => s
  | n + 1, s =>
    if s.partFull then
      (if s.flag rLEDG_STATUS fLEDG_STATUS_partition_full then s else (s.put rLEDG_STATUS fLEDG_STATUS_partition_full 1).irq 0x06 4)
    else
      let s := s.ledgerWrite s.stagedHead
      let s := s.put rLEDG_STATUS fLEDG_STATUS_staged (s.staged - 1)
      State.flushWrite n { s with ledg := { s.ledg with head := (s.ledg.head + 1) % 512 } }

/-- A flush begins, of every entry staged so far (R517): only while anchored, with a partition. -/
def State.flushStart (s : State) : State :=
  if s.enabled 0x06 && s.flag rLEDG_STATUS fLEDG_STATUS_anchored && !s.flag rLEDG_STATUS fLEDG_STATUS_flushing && s.partSectors != 0 then
    { s.put rLEDG_STATUS fLEDG_STATUS_flushing 1 with ledg := { s.ledg with flushTo := s.staged } }
  else s

/-- A flush ends: every entry written, or `failed` of them before a program or erase failed (R517). -/
def State.flushDone (s : State) (failed : Option Nat) : State :=
  if !s.flag rLEDG_STATUS fLEDG_STATUS_flushing then s
  else
    let n := min s.ledg.flushTo s.staged
    let s := s.put rLEDG_STATUS fLEDG_STATUS_flushing 0
    let usable := s.ledgerKeyOk || n = 0
    let s := if usable then s else s.raise 117
    match failed with
    | some k => ((s.flushWrite (min k (n - 1))).inc rLEDG_CNT_FLUSH_ERR).raise 115
    | none =>
      let s := s.flushWrite n
      let s := if usable && n != 0 then s.put rLEDG_STATUS fLEDG_STATUS_untagged 0 else s
      { s.irq 0x06 2 with ledg := { s.ledg with flushTo := 0 } }

def execLedgerFlushDone (failed : Option Nat) (s : State) : Host.Outcome State Fault Refusal := finish s (s.flushDone failed).pwrWaited

/-! ### LEDG_CMD (R519, R521) -/

/-- The resume registers and the anchor and fresh commands are refused. -/
def State.ledgBusy (s : State) : Bool := s.flag rLEDG_STATUS fLEDG_STATUS_anchored && s.flag rLEDG_STATUS fLEDG_STATUS_flushing

/-- A write of a resume register. -/
def ledgResumeFx (a : Nat) (v : Word) (s : State) : State := if s.ledgBusy then s.warn 0x06 else s.store a v

/-- The chain resumes from the resume registers. -/
def State.ledgAnchor (s : State) : State :=
  if s.ledgBusy then s.warn 0x06
  else
    let s := (s.setReg rLEDG_NEXT_NUM (s.reg rLEDG_RESUME_NUM)).setReg rLEDG_NEXT_OFF (s.reg rLEDG_RESUME_OFF)
    let s := (s.setReg rLEDG_TAG_HI (s.reg rLEDG_RESUME_TAG_HI)).setReg rLEDG_TAG_LO (s.reg rLEDG_RESUME_TAG_LO)
    s.put rLEDG_STATUS fLEDG_STATUS_anchored 1

/-- A partition begins with a type 0x60 entry at offset 0, chained from zeros; without a partition the command does nothing. -/
def State.ledgFresh (s : State) : State :=
  if s.ledgBusy then s.warn 0x06
  else if s.partSectors = 0 then s
  else
    let s := ((s.setReg rLEDG_NEXT_NUM 0).setReg rLEDG_NEXT_OFF 0).setReg rLEDG_TAG_HI 0 |>.setReg rLEDG_TAG_LO 0
    let usable := s.ledgerKeyOk
    let s := s.ledgerWrite ((ledgerOctets s 0x60 0 (beBytes 4 (s.reg rLEDG_RESUME_NUM).toNat) false 0 none).take 24)
    let s := if usable then s else s.raise 117
    s.put rLEDG_STATUS fLEDG_STATUS_anchored 1

/-- A note is staged (R512). -/
def State.ledgNote (s : State) : State :=
  let hi := (s.reg rLEDG_NOTE_HI).toNat
  s.stage 0x70 (hi / 2 ^ 16) (beBytes 2 (hi % 2 ^ 16) ++ beBytes 4 (s.reg rLEDG_NOTE_LO).toNat)

/-- A write of LEDG_CMD. -/
def ledgCmdFx (v : Word) (s : State) : State :=
  let s := if bitOf v 0 then s.ledgAnchor else s
  let s := if bitOf v 1 then s.ledgFresh else s
  let s := if bitOf v 3 then s.ledgNote else s
  if bitOf v 2 then s.flushStart else s

def execLedgAnchor (q : Req) (v : Word) (s : State) : Host.Outcome State Fault Refusal := finish s (s.writeReg q rLEDG_CMD (v ||| 1) ledgCmdFx)
def execLedgFresh (q : Req) (v : Word) (s : State) : Host.Outcome State Fault Refusal := finish s (s.writeReg q rLEDG_CMD (v ||| 2) ledgCmdFx)
def execLedgFlushNow (q : Req) (v : Word) (s : State) : Host.Outcome State Fault Refusal := finish s (s.writeReg q rLEDG_CMD (v ||| 4) ledgCmdFx)
def execLedgNote (q : Req) (v : Word) (s : State) : Host.Outcome State Fault Refusal := finish s (s.writeReg q rLEDG_CMD (v ||| 8) ledgCmdFx)

/-! ### Epoch boundary (R503, R513, R517) -/

/-- The windows that begin at an epoch with this count: the counts and the severe state of their sources clear (R503). -/
def State.faultWindows (s : State) (epoch : Nat) : State :=
  (List.range 128).foldl (fun (s : State) n =>
    if epoch % 2 ^ s.get (rFLT_SRC_CFG n) fFLT_SRC_CFG_window_k != 0 then s
    else
      let c := rFLT_SRC_COUNT (n / 4)
      let s := if natBits (s.reg c).toNat (8 * (n % 4) + 7) (8 * (n % 4)) = 0 then s
        else s.setReg c (toW (natPut (s.reg c).toNat (8 * (n % 4) + 7) (8 * (n % 4)) 0))
      let w := rFLT_SEVERE (n / 32)
      if bitOf (s.reg w) (n % 32) then s.setReg w (s.reg w &&& ~~~(toW (2 ^ (n % 32)))) else s) s

/-- The events of the epoch that had no entry of their own (R513), in source order. -/
def State.ledgerSummary (s : State) : State :=
  let seen := s.ledg.seen
  let s : State := { s with ledg := { s.ledg with seen := [] } }
  (List.range 128).foldl (fun (s : State) n =>
    match seen.find? (fun x => x.1 = n) with
    | some x => if x.2.1 = 0 then s else (s.inc rLEDG_CNT_SUMMARY).stage 0x21 (n * 256) (beBytes 4 x.2.1 ++ [toB x.2.2])
    | none => s) s

/-- The ledger at an epoch boundary: a flush that has not completed fails and is retried with those staged since (R517); an entry to a level
that has waited 2 s is refused. -/
def State.ledgerEpoch (s : State) : State :=
  if !s.enabled 0x06 then { s with ledg := { s.ledg with seen := [] } } else
  let late := s.flag rLEDG_STATUS fLEDG_STATUS_flushing
  let s := if late then ((s.put rLEDG_STATUS fLEDG_STATUS_flushing 0).inc rLEDG_CNT_FLUSH_ERR).raise 115 else s
  s.ledgerSummary.pwrWaited.flushStart

end Sys2Proof.Machine
end

