-- ==== Sys2Proof/Machine/FamField.lean ====
section
/-! DEFINITION. Pins, GPIO and field queues (R314 to R334). -/
namespace Sys2Proof.Machine

/-! ### Pins (R315 to R318, R320, R321, R333) -/

/-- The function codes of R314. -/
def pinCode (p fn : Nat) : Bool :=
  fn ≤ 2 || (fn = 3 && p ≤ 3) || (0x10 ≤ fn && fn < 0x20 && (fn - 0x10) % 4 ≤ 2) || (0x20 ≤ fn && fn < 0x30 && (fn - 0x20) % 8 ≤ 6) ||
    (0x30 ≤ fn && fn ≤ 0x41)

/-- A write of PMUX_PINp (R315). -/
def pinFx (c p : Nat) (v : Word) (s : State) : State :=
  let fn := fldOf v fPMUX_PIN_function
  let taken := 0x10 ≤ fn && (List.range 32).any (fun x => x != p && s.pinFn c x = fn)
  let lvl := s.get (rPMUX_BANK c) fPMUX_BANK_level
  if !pinCode p fn || taken || lvl = 0 || lvl = 3 then s.warn (0xB0 + c) else (s.store (rPMUX_PIN c p) v).clvPins c (s.gpioIn c)

def execPinFunctionWrite (q : Req) (c : Fin 4) (p : Fin 32) (v : Word) (s : State) : Host.Outcome State Fault Refusal :=
  finish s (s.writeReg q (rPMUX_PIN c p) v (pinFx c p))

/-- A write of PMUX_BANK: the level changes only while every pin is in function none (R318). -/
def bankFx (c : Nat) (v : Word) (s : State) : State :=
  if fldOf v fPMUX_BANK_level = s.get (rPMUX_BANK c) fPMUX_BANK_level then s
  else if (List.range 32).all (fun p => s.pinFn c p = 0) then s.put (rPMUX_BANK c) fPMUX_BANK_level (fldOf v fPMUX_BANK_level)
  else s.warn (0xB0 + c)

def execBankLevelWrite (q : Req) (c : Fin 4) (v : Word) (s : State) : Host.Outcome State Fault Refusal :=
  finish s (s.writeReg q (rPMUX_BANK c) v (bankFx c))

/-- A write of PMUX_GPIO_SET or PMUX_GPIO_CLR changes only the bits written as 1 (R320); the balls and PMUX_GPIO_IN follow (R321). -/
def gpioSetFx (c : Nat) (v : Word) (s : State) : State :=
  (s.setReg (rPMUX_GPIO_OUT c) (s.reg (rPMUX_GPIO_OUT c) ||| v)).pinsSeen c (s.gpioIn c)
def gpioClrFx (c : Nat) (v : Word) (s : State) : State :=
  (s.setReg (rPMUX_GPIO_OUT c) (s.reg (rPMUX_GPIO_OUT c) &&& ~~~v)).pinsSeen c (s.gpioIn c)

/-- A write of PMUX_GPIO_OUT or PMUX_GPIO_OE (R320, R321). -/
def gpioPlainFx (c a : Nat) (v : Word) (s : State) : State := (s.store a v).pinsSeen c (s.gpioIn c)

def execGpioSet (q : Req) (c : Fin 4) (v : Word) (s : State) : Host.Outcome State Fault Refusal :=
  finish s (s.writeReg q (rPMUX_GPIO_SET c) v (gpioSetFx c))
def execGpioClr (q : Req) (c : Fin 4) (v : Word) (s : State) : Host.Outcome State Fault Refusal :=
  finish s (s.writeReg q (rPMUX_GPIO_CLR c) v (gpioClrFx c))

/-- A filtered level at pin p: PMUX_GPIO_IN follows, and an enabled edge is recorded (R320, R321). -/
def State.gpioEdge (s : State) (c p : Nat) (level : Bool) : State :=
  let was := s.pinLevel c p
  let s := s.setBall c (toW (natPut (s.ball c).toNat p p (b2n level)))
  let now := s.pinLevel c p
  if was = now then s else s.pinSeen c p now

def execGpioEdge (c : Fin 4) (p : Fin 32) (level : Bool) (s : State) : Host.Outcome State Fault Refusal := finish s (s.gpioEdge c p level)

/-! ### Field queues (R323 to R332) -/

def execFqItemProduced (c : Fin 4) (n : Fin 32) (item : Nat) (last : Bool) (s : State) : Host.Outcome State Fault Refusal :=
  finish s (s.onField fun s => (s.fqPut c n item last).fqGrant c n)

/-- A pop of FQ_POPq (R327): the tag of the word, whose data go to FQ_DATAq. -/
def fqPop (c q : Nat) (s : State) : Option (Nat × State) :=
  let x := s.fq c q
  match (if s.rxMode c q = 0 then x.rx else []) with
  | [] => none
  | w :: rest =>
    let r := s.fqEcc c
    let x' := { x with rx := rest }
    let s := (r.2.setFq c q x').fqGrant c q
    let tag := min 255 x'.packets * 2 ^ 24 + b2n r.1 * 2 ^ 12 + b2n w.last * 2 ^ 11 + w.valid
    let s := (s.setReg (rFQ_DATA_LO c q) (toW w.data)).setReg (rFQ_DATA_HI c q) (toW (w.data / 2 ^ 32))
    some (tag, s.setReg (rFQ_POP_REPLAY c q) (toW tag))

/-- The empty value of FQ_POPq: the idle tag; 0 for a queue number that does not exist (R327, R334). -/
def fqEmpty (q : Nat) : Nat := if fqExists q then 0x10000 else 0

def execFqPop (q : Req) (c : Fin 4) (n : Fin 32) (mayPrefetch : Bool) (s : State) : Host.Outcome State Fault Refusal :=
  finish s (s.popRead q (rFQ_POP c n) mayPrefetch false (fqEmpty n) (fqPop c n))

/-- A write of FQ_PUSHq (R327): refused without room, in another mode, or with a tag that is no number of octets. -/
def fqPushFx (c q : Nat) (v : Word) (s : State) : State :=
  let valid := v.toNat % 16
  if !fqExists q || !s.enabled (0xB4 + c) then s
  else if s.txFree c q = 0 || valid = 0 || 8 < valid then (s.inc (rFQ_CNT_PUSH_REFUSED c)).raise (72 + c)
  else
    let d := (s.reg (rFQ_TXDATA_HI c q)).toNat * 2 ^ 32 + (s.reg (rFQ_TXDATA_LO c q)).toNat
    let x := s.fq c q
    (s.setFq c q { x with tx := x.tx ++ [⟨d, valid, bitOf v 8⟩] }).fqFed c q

def execFqPush (q : Req) (c : Fin 4) (n : Fin 32) (v : Word) (s : State) : Host.Outcome State Fault Refusal :=
  finish s (s.writeReg q (rFQ_PUSH c n) v (fqPushFx c n))

/-- A write of FQ_CMD (R324, R331). -/
def fqCmdFx (c : Nat) (v : Word) (s : State) : State :=
  let q := fldOf v fFQ_CMD_queue
  if !fqExists q then s
  else
    let s := if fldOf v fFQ_CMD_close_rx = 1 && (s.fq c q).opened != [] then s.fqCommit c q true else s
    let s := if fldOf v fFQ_CMD_flush_rx = 1 then s.fqFlushRx c q else s
    if fldOf v fFQ_CMD_flush_tx = 1 then s.fqFlushTx c q else s

def execFqCloseRx (q : Req) (c : Fin 4) (v : Word) (s : State) : Host.Outcome State Fault Refusal :=
  finish s (s.writeReg q (rFQ_CMD c) v (fqCmdFx c))
def execFqFlushRx (q : Req) (c : Fin 4) (v : Word) (s : State) : Host.Outcome State Fault Refusal :=
  finish s (s.writeReg q (rFQ_CMD c) v (fun v s => fqCmdFx c v s))
def execFqFlushTx (q : Req) (c : Fin 4) (v : Word) (s : State) : Host.Outcome State Fault Refusal :=
  finish s (s.writeReg q (rFQ_CMD c) v (fun w s => fqCmdFx c w s))

/-- A depth of 1 to 3 stores 4 (R334). -/
def fqDepth (n : Nat) : Nat := if n = 0 then 0 else max 4 n

/-- A write of FQ_QCFGq (R330, R331). -/
def fqCfgFx (c q : Nat) (v : Word) (s : State) : State :=
  if !fqExists q then s
  else
    let rx := fqDepth (fldOf v fFQ_QCFG_rx_depth)
    let tx := fqDepth (fldOf v fFQ_QCFG_tx_depth)
    let v := fldPut (fldPut v fFQ_QCFG_rx_depth rx) fFQ_QCFG_tx_depth tx
    let on := s.flag (rFQ_QCFG c q) fFQ_QCFG_enable
    let others := (List.range 32).foldl (fun n x => if x = q || !fqExists x then n else n + s.rxDepth c x + s.txDepth c x) 0
    if 2048 < others + rx + tx || (on && (rx != s.rxDepth c q || tx != s.txDepth c q)) then s.warn (0xB4 + c)
    else
      let s := s.store (rFQ_QCFG c q) v
      let now := s.flag (rFQ_QCFG c q) fFQ_QCFG_enable
      if on && !now then s.fqClear c q
      else if !on && now then (s.setFq c q { hold := (s.fq c q).hold }).fqGrant c q
      else s.fqGrant c q

def execFqQcfgWrite (q : Req) (c : Fin 4) (n : Fin 32) (v : Word) (s : State) : Host.Outcome State Fault Refusal :=
  finish s (s.writeReg q (rFQ_QCFG c n) v (fqCfgFx c n))

/-- A write of FQ_BINDq (R330, R334). -/
def fqBindFx (c q : Nat) (v : Word) (s : State) : State :=
  let mode (m : Nat) : Nat := if m = 3 || (m = 2 && q < 16) then 0 else m
  let rm := fldOf v fFQ_BIND_rx_mode
  let tm := fldOf v fFQ_BIND_tx_mode
  if !fqExists q then s
  else
    let v := fldPut (fldPut v fFQ_BIND_rx_mode (mode rm)) fFQ_BIND_tx_mode (mode tm)
    let t := s.store (rFQ_BIND c q) (fldPut v fFQ_BIND_max_words (min 60 (fldOf v fFQ_BIND_max_words)))
    if s.flag (rFQ_QCFG c q) fFQ_QCFG_enable then (if t.reg (rFQ_BIND c q) = s.reg (rFQ_BIND c q) then s else s.warn (0xB4 + c))
    else if mode rm = rm && mode tm = tm then t else t.warn (0xB4 + c)

/-- Writes of FQ_IDLEq and FQ_TXDATAq: ignored for a queue number that does not exist (R334). -/
def fqPlainFx (q a : Nat) (v : Word) (s : State) : State := if fqExists q then s.store a v else s

/-! ### Frames to transmit queues (R329) -/

/-- The words of a frame's payload, when its field header agrees with its length. -/
def fqWords (l : List Byte) : Option (List FqWord) :=
  let n := l.length
  let b1 := (nthD l 1 0).toNat
  let valid := b1 % 16
  let words := (n - 4 + 7) / 8
  if n < 5 || n != 4 + 8 * (words - 1) + valid || valid = 0 || 8 < valid then none
  else some ((List.range words).map (fun i =>
    ⟨leNat (slice l (4 + 8 * i) 8), if i + 1 = words then valid else 8, decide (i + 1 = words) && decide (128 ≤ b1)⟩))

/-- What becomes of a frame in the egress buffer: 0 waits, 1 goes into queue q, 2 bad, 3 has no queue. -/
def State.fqFate (s : State) (c : Nat) (d : Delivered) : Nat × Nat × List FqWord :=
  let f := d.frame
  let q := (d.held.map HeldCtx.queue).getD 32
  if 32 ≤ q || !s.fqOn c q || s.txMode c q != 1 || s.txDepth c q = 0 then (3, q, [])
  else match fqWords f.payload with
    | none => (2, q, [])
    | some ws =>
      if s.txDepth c q < ws.length then (2, q, [])
      else if ws.length ≤ s.txDepth c q - (s.fq c q).tx.length then (1, q, ws) else (0, q, [])

/-- The first frame of the egress buffer that can move, moves; frames behind one of the same queue that waits stay behind it. -/
def State.fqDeliver (s : State) (c : Nat) : List Delivered → List Delivered → List Nat → State
  | _, [], _ => s
  | before, d :: after, blocked =>
    let r := s.fqFate c d
    let rest := s.setOutbox (10 + c) (before ++ after)
    if r.1 = 2 then (rest.inc (rFQ_CNT_BAD_FRAME c)).fqFault c
    else if r.1 = 3 then (rest.inc (rFQ_CNT_NO_QUEUE c)).fqFault c
    else if r.1 = 0 || blocked.contains r.2.1 then State.fqDeliver s c (before ++ [d]) after (r.2.1 :: blocked)
    else
      let x := rest.fq c r.2.1
      ((rest.setFq c r.2.1 { x with tx := x.tx ++ r.2.2 }).inc (rFQ_CNT_TX_FRAMES c)).fqFed c r.2.1

def execFqFrameDeliver (c : Fin 4) (s : State) : Host.Outcome State Fault Refusal :=
  finish s (if s.fieldRuns && s.enabled (0xB4 + c) then (s.fqDeliver c [] (s.outbox (10 + c)) []).egressPump (10 + c) else s)

/-! ### What FQ registers show (R334) -/

/-- FQ_MEM: the sum of depths and the words in use. -/
def State.fqMem (s : State) (c : Nat) : Nat :=
  (List.range 32).foldl (fun n q => if fqExists q then
    n + (s.rxDepth c q + s.txDepth c q) * 2 ^ 16 + (s.fq c q).rx.length + (s.fq c q).tx.length else n) 0

/-- FQ_STATUSq. -/
def State.fqStatus (s : State) (c q : Nat) : Nat :=
  let x := s.fq c q
  min 255 x.packets * 2 ^ 24 + x.rx.length * 2 ^ 16 + s.txFree c q * 2 ^ 8 + x.credits

end Sys2Proof.Machine
end

