-- ==== Sys2Proof/Machine/FamFlow.lean ====
section
/-! DEFINITION. Flow commands, the context view, the pager and the system window cache (R163 to R181). -/
namespace Sys2Proof.Machine

/-! ### Flow commands (R164, R165) -/

/-- A command completes with a code (R164, R165, R181). -/
def State.flowResult (s : State) (code detail : Nat) : State :=
  let s := { s with flw := { s.flw with wait := none, waitFault := false } }
  ((s.put rFLOW_CMD fFLOW_CMD_go 0).setReg rFLOW_RESULT (toW (2 ^ 31 + detail * 2 ^ 16 + code))).irq 0x30 2

/-- A view command completes (R166, R181). -/
def State.viewResult (s : State) (code : Nat) : State :=
  (({ s with flw := { s.flw with load := none } }).setReg rFLOW_VIEW_RESULT (toW (2 ^ 31 + code))).irq 0x31 2

/-- A command waits for the pager or for a write-back (R164). -/
def State.flowWait (s : State) (op f : Nat) : State := { s with flw := { s.flw with wait := some (op, f), waitFault := false } }

/-- The context of FLOW_ARG0 to FLOW_ARG3 written into slot k for flow f: resident, enabled 0, pinned 0 (R164 create). -/
def State.createCtx (s : State) (k f : Nat) : State :=
  let a0 := s.reg rFLOW_ARG0
  let role := fldOf a0 fFLOW_ARG0_role
  let cls := fldOf a0 fFLOW_ARG0_class
  let a3 := s.reg rFLOW_ARG3
  let back := if bitOf a3 31 then fldOf a3 fFLOW_ARG3_backing else f
  let words : List Nat := [
    f * 2 ^ 16 + role * 2 ^ 14 + cls * 2 ^ 12 + fldOf a0 fFLOW_ARG0_key_en * 2 ^ 8 + fldOf a0 fFLOW_ARG0_key_slot,
    s.get rFLOW_ARG1 fFLOW_ARG1_src_node * 2 ^ 14,
    s.get rFLOW_ARG2 fFLOW_ARG2_dest_node * 2 ^ 14 + fldOf a0 fFLOW_ARG0_endpoint_port * 2 ^ 8 + fldOf a0 fFLOW_ARG0_endpoint_queue,
    0xFFFF, 0xFFFFFFFF, 0xFFFFFFFF, back, 0, 0, 0, s.get rFLOW_ARG2 fFLOW_ARG2_max_payload]
  let s := s.setBytes (ctxAddr k) ((words.flatMap (leBytes 4)) ++ List.replicate 84 0)
  let s := ((s.setSlot k (some f)).touch k).unmarkUse k
  let s := s.setEnt f (2 ^ 30 + cls * 2 ^ 26 + role * 2 ^ 24 + k)
  { s with flw := { s.flw with total := s.flw.total + 1, stuck := spSet (fun _ => false) s.flw.stuck k false } }

/-- The arguments of a create are good (R165 code 9, R177). -/
def State.createArgsOk (s : State) (f : Nat) : Bool :=
  let a0 := s.reg rFLOW_ARG0
  let role := fldOf a0 fFLOW_ARG0_role
  let ep := fldOf a0 fFLOW_ARG0_endpoint_port
  let a3 := s.reg rFLOW_ARG3
  let back := if bitOf a3 31 then fldOf a3 fFLOW_ARG3_backing else f
  role != 3 && (role != 1 || (4 ≤ ep && ep ≤ 14)) && s.get rFLOW_ARG2 fFLOW_ARG2_max_payload ≤ 484 &&
    back < s.get rFLOW_BACK_SIZE fFLOW_BACK_SIZE_entries

/-- A context is pinned (R164, R174): the interrupt says that pin_max is reached. -/
def State.pinCtx (s : State) (f : Nat) : State :=
  let s := s.setPinned f (entSlot (s.ent f)) true
  if s.pinnedCount = s.get rFLOW_CFG fFLOW_CFG_pin_max then s.irq 0x30 4 else s

def State.cmdCreate (s : State) (f : Nat) : State :=
  if entState (s.ent f) != 0 then s.flowResult 2 0
  else if !s.createArgsOk f then s.flowResult 9 0
  else match s.freeSlot with
    | some k => (s.createCtx k f).flowResult 0 0
    | none =>
      if !s.flag rFLOW_CTRL fFLOW_CTRL_paging_en then s.flowResult 4 0
      else { (s.flowWait 1 f) with flw := { (s.flowWait 1 f).flw with misses := s.flw.misses ++ [.evict] } }

def State.cmdDelete (s : State) (f : Nat) : State :=
  let e := s.ent f
  if entState e = 0 then s.flowResult 3 0
  else if entEnabled e then s.flowResult 6 0
  else if s.flw.hold.any (fun h => h.flow = f) then s.flowResult 10 0
  else
    let s := (s.cancelFetch f).dropWaiting f
    let s := if entState e = 1 then s.setSlot (entSlot e) none else s
    let s := s.setEnt f 0
    let s := { s with flw := { s.flw with total := s.flw.total - 1, fresh := spSet (fun _ => false) s.flw.fresh f false } }
    let s := if s.flw.load.any (fun w => w.2 = f) then s.viewResult 3 else s
    s.flowResult 0 0

def State.cmdEnable (s : State) (f : Nat) : State :=
  let e := s.ent f
  if entState e = 0 then s.flowResult 3 0
  else if entEnabled e then s.flowResult 6 0
  else if entState e = 1 then
    let k := entSlot e
    let code := if s.ctxClass k = 0 then s.admission k else 0
    if code != 0 then (s.logRefusal f code false).flowResult 8 code
    else
      let s := if s.ctxClass k = 0 then s.install k else s
      (((s.startWindow k).setReadmit k false).setEnabled f k true).flowResult 0 0
  else if natBits e 27 26 = 0 then (s.logRefusal f 0x01 false).flowResult 8 0x01
  else
    let s := s.setEnt f (natPut (s.ent f) 28 28 1)
    ({ s with flw := { s.flw with fresh := spSet (fun _ => false) s.flw.fresh f true } }).flowResult 0 0

def State.cmdDisable (s : State) (f : Nat) : State :=
  let e := s.ent f
  if entState e = 0 then s.flowResult 3 0
  else if !entEnabled e then s.flowResult 6 0
  else if entState e = 1 then ((s.disableFlow f (entSlot e)).dropWaiting f).flowResult 0 0
  else (((s.setEnt f (natPut e 28 28 0)).unwanted f).dropWaiting f).flowResult 0 0

/-- Pin (R164). Of a flow that is pinned already it completes with code 0 and changes nothing (DESIGN CHOICE, log entry 83). -/
def State.cmdPin (s : State) (f : Nat) : State :=
  let e := s.ent f
  if entState e = 0 then s.flowResult 3 0
  else if entPinned e then s.flowResult 0 0
  else if s.get rFLOW_CFG fFLOW_CFG_pin_max ≤ s.pinnedCount then s.flowResult 5 0
  else if entState e = 1 then (s.pinCtx f).flowResult 0 0
  else (s.miss f).flowWait 5 f

def State.cmdUnpin (s : State) (f : Nat) : State :=
  let e := s.ent f
  if entState e = 0 then s.flowResult 3 0
  else if entEnabled e && natBits e 27 26 = 0 then s.flowResult 6 0
  else if entState e = 1 then (s.setPinned f (entSlot e) false).flowResult 0 0
  else s.flowResult 0 0

/-- Write back requires a resident context. Which code says otherwise is not stated: a free value (log entry 4). -/
def State.cmdWriteBack (s : State) (f : Nat) : State :=
  let e := s.ent f
  if entState e = 0 then s.flowResult 3 0
  else if entState e = 1 then s.flowWait 7 f
  else s.step1.flowResult (s.freeN % 16) 0

/-- A write of FLOW_CMD (R164, R165): ignored while a command runs; otherwise op and flow ID are stored, and go runs the command. -/
def flowCmdFx (v : Word) (s : State) : State :=
  if s.flag rFLOW_CMD fFLOW_CMD_go then s
  else
    let op := fldOf v fFLOW_CMD_op
    let f := fldOf v fFLOW_CMD_flow_id
    let s := s.setReg rFLOW_CMD (toW (op * 2 ^ 16 + f))
    if !bitOf v 31 then s
    else
      let s := (s.put rFLOW_CMD fFLOW_CMD_go 1).keepVictim f
      if 0xEFFF < f then s.flowResult 1 0
      else if op = 1 then s.cmdCreate f
      else if op = 2 then s.cmdDelete f
      else if op = 3 then s.cmdEnable f
      else if op = 4 then s.cmdDisable f
      else if op = 5 then s.cmdPin f
      else if op = 6 then s.cmdUnpin f
      else if op = 7 then s.cmdWriteBack f
      else s.flowResult 9 0

/-- The FLOW_CMD word of an operation on a flow. -/
def flowCmdWord (op f : Nat) : Word := toW (2 ^ 31 + op * 2 ^ 16 + f % 2 ^ 16)

/-- A requester starts an operation by its write of FLOW_CMD. -/
def State.flowCommand (s : State) (q : Req) (op f : Nat) : State := s.writeReg q rFLOW_CMD (flowCmdWord op f) flowCmdFx

def execFlowCreate (q : Req) (f : Nat) (s : State) : Host.Outcome State Fault Refusal := finish s (s.flowCommand q 1 f)
def execFlowDelete (q : Req) (f : Nat) (s : State) : Host.Outcome State Fault Refusal := finish s (s.flowCommand q 2 f)
def execFlowEnable (q : Req) (f : Nat) (s : State) : Host.Outcome State Fault Refusal := finish s (s.flowCommand q 3 f)
def execFlowDisable (q : Req) (f : Nat) (s : State) : Host.Outcome State Fault Refusal := finish s (s.flowCommand q 4 f)
def execFlowPin (q : Req) (f : Nat) (s : State) : Host.Outcome State Fault Refusal := finish s (s.flowCommand q 5 f)
def execFlowUnpin (q : Req) (f : Nat) (s : State) : Host.Outcome State Fault Refusal := finish s (s.flowCommand q 6 f)
def execFlowWriteBack (q : Req) (f : Nat) (s : State) : Host.Outcome State Fault Refusal := finish s (s.flowCommand q 7 f)

/-! ### Backing store (R170, R173) -/

/-- A backing-store fault: source 11, the count, the interrupt and the first-fault capture (R173, R181). -/
def State.pagerFault (s : State) (dir cause f a : Nat) : State :=
  let s := ((s.inc rFLOW_CNT_PAGER_FAULT).irq 0x30 3).raise 11
  if s.flag rFLOW_PF_CAP fFLOW_PF_CAP_valid then s
  else (s.setReg rFLOW_PF_CAP (toW (2 ^ 31 + dir * 2 ^ 18 + cause * 2 ^ 16 + f))).setReg rFLOW_PF_ADDR (toW a)

/-- The translated place of a backing index for the pager: the address where it passes, or the fault recorded by the translation unit. -/
def State.backing (s : State) (a : Nat) (x : Xfer) : Option Nat × State :=
  let r := s.translate 0x41 .warden a x
  if r.1.cause != 0 then (none, r.2.xltFault 0x41 a x r.1.cause 128)
  else if r.1.target != 0 || !s.backedBy r.1.out 128 then (none, r.2)
  else (some r.1.out, r.2)

/-- The context in slot k written to its backing index with its check word; false on a fault. `err` is what the xSPI port reports. -/
def State.writeBack (s : State) (k f : Nat) (err : Option Nat) : Bool × State :=
  let s := s.setWord (ctxAddr k + 0x7C) (s.ctxCheck k)
  let a := s.backAddr (s.ctx k 0x18 19 0)
  let r := s.backing a .write
  match r.1, err with
  | some out, none =>
    let s := r.2.setBytes out (r.2.bytes (ctxAddr k) 128)
    let flw := { s.flw with dirty := spSet (fun _ => false) s.flw.dirty k false }
    (true, ({ s with flw := flw }).inc rFLOW_CNT_WRITEBACK)
  | none, _ => (false, r.2.pagerFault 1 0 f a)
  | some _, some c => (false, r.2.pagerFault 1 c f a)

/-! ### The context view (R166) -/

/-- The view holds a flow for a requester. -/
def State.viewTake (s : State) (q : Req) (f : Nat) : State :=
  let k := entSlot (s.ent f)
  let s := (List.range 32).foldl (fun s i => s.setReg (rFLOW_VIEW i) (s.word (ctxAddr k + 4 * i))) s
  let s := s.put rFLOW_VIEW_SEL fFLOW_VIEW_SEL_holder q.master
  (({ s with flw := { s.flw with hold := some ⟨q, f, 2⟩ } })).viewResult 0

def State.endHold (s : State) : State :=
  ({ s with flw := { s.flw with hold := none } }).put rFLOW_VIEW_SEL fFLOW_VIEW_SEL_holder 0xFF

/-- The bits of a context word that the view may change (R162). -/
def viewMask (off : Nat) : Word :=
  if off = 0x00 then 0x1FF else if off = 0x08 then 0xFFF else if off = 0x0C || off = 0x10 || off = 0x14 || off = 0x1C then 0xFFFFFFFF
  else if off = 0x18 then 0xF0000000 else if off = 0x28 then 0x3FF else if 0x40 ≤ off && off < 0x74 then 0xFFFFFFFF else 0

/-- The view fields written back (R162, R166). -/
def State.viewStore (s : State) (f : Nat) : State :=
  let k := entSlot (s.ent f)
  let s := (List.range 32).foldl (fun s i =>
    let m := viewMask (4 * i)
    if m = 0 then s
    else s.setWord (ctxAddr k + 4 * i) ((s.word (ctxAddr k + 4 * i) &&& ~~~m) ||| (s.reg (rFLOW_VIEW i) &&& m))) s
  s.touch k

def State.viewLoad (s : State) (q : Req) : State :=
  let f := s.get rFLOW_VIEW_SEL fFLOW_VIEW_SEL_flow_id
  if 0xEFFF < f then s.viewResult 1
  else if entState (s.ent f) = 0 then s.viewResult 3
  else if s.flw.hold.any (fun h => h.q != q) then s.viewResult 10
  else
    let s := s.keepVictim f
    if entState (s.ent f) = 1 then s.viewTake q f
    else
      let s := s.miss f
      { s with flw := { s.flw with load := some (q, f) } }

/-- A write of FLOW_VIEW_CMD (R166). -/
def flowViewFx (q : Req) (v : Word) (s : State) : State :=
  let b := v.toNat % 8
  if b = 0 || s.flw.load.isSome then s
  else if b = 1 then s.viewLoad q
  else if b = 2 || b = 4 then
    match s.flw.hold with
    | none => s.viewResult 11
    | some h =>
      if h.q != q then s.viewResult 10
      else
        let s := if b = 2 then s.viewStore h.flow else s
        s.endHold.viewResult 0
  else s.viewResult 9

def execViewLoad (q : Req) (v : Word) (s : State) : Host.Outcome State Fault Refusal := finish s (s.writeReg q rFLOW_VIEW_CMD v (flowViewFx q))
def execViewStore (q : Req) (v : Word) (s : State) : Host.Outcome State Fault Refusal :=
  finish s (s.writeReg q rFLOW_VIEW_CMD v (fun v s => flowViewFx q v s))
def execViewRelease (q : Req) (v : Word) (s : State) : Host.Outcome State Fault Refusal :=
  finish s (s.writeReg q rFLOW_VIEW_CMD v (fun w t => flowViewFx q w t))

/-- A view hold lapses at the second epoch boundary after its load (R166, R181). -/
def State.viewLapse (s : State) : State :=
  match s.flw.hold with
  | none => s
  | some h => if h.epochs ≤ 1 then s.endHold.irq 0x31 3 else { s with flw := { s.flw with hold := some { h with epochs := h.epochs - 1 } } }

def execContextDirectWrite (q : Req) (a : Nat) (bs : List Byte) (s : State) : Host.Outcome State Fault Refusal :=
  let r := s.memWriteReq q a bs
  finish s (r.2.done q r.1)

/-! ### The pager (R170 to R173) -/

/-- A flow that leaves its slot: the entry is paged out at the context's backing index. -/
def State.pageOut (s : State) (k f : Nat) : State :=
  let b := s.ctx k 0x18 19 0
  (s.setEnt f (natPut (natPut (s.ent f) 31 30 2) 19 0 b)).setSlot k none

/-- The pager's job is done: nothing of it stays. -/
def State.jobDone (s : State) : State :=
  match s.flw.job with
  | none => s
  | some j => { s with flw := { s.flw with job := none, noVictim := s.flw.noVictim.filter (fun m => m != j.job) } }

/-- The pager takes the next miss: a free slot, or a victim, whose write-back starts when it has changed (R170, R171). -/
def State.pagerMiss (s : State) : State :=
  if !s.enabled 0x30 then s else match s.flw.job, s.flw.misses with
  | none, m :: rest =>
    let go (k : Nat) (v : Option Nat) (s : State) : State :=
      let s : State := { s with flw := { s.flw with misses := rest, job := some ⟨m, k, v⟩ } }
      if m = .evict && v.isNone then s.jobDone else s
    match s.freeSlot with
    | some k => go k none s
    | none => match s.victim with
      | none => if s.flw.noVictim.contains m then s
        else ({ s with flw := { s.flw with noVictim := m :: s.flw.noVictim } }.inc rFLOW_CNT_NO_VICTIM).irq 0x30 5
      | some (k, f) =>
        if spGet (fun _ => false) s.flw.dirty k then
          go k (some f) (s.setEnt f (natPut (natPut (s.ent f) 31 30 3) 19 0 (s.ctx k 0x18 19 0)))
        else go k none (s.pageOut k f)
  | _, _ => s

def execPagerMiss (s : State) : Host.Outcome State Fault Refusal := finish s s.pagerMiss

/-- The victim's write-back ends (R170, R173). -/
def State.pagerWroteBack (s : State) (err : Option Nat) : State :=
  match s.flw.job with
  | some ⟨m, k, some f⟩ =>
    let r := s.writeBack k f err
    if r.1 then
      let s := r.2.pageOut k f
      if m = Job.evict then s.jobDone else { s with flw := { s.flw with job := some ⟨m, k, none⟩ } }
    else
      let s := r.2.abandonEvict
      { s with flw := { s.flw with stuck := spSet (fun _ => false) s.flw.stuck k true } }
  | _ => s

def execPagerWritebackDone (err : Option Nat) (s : State) : Host.Outcome State Fault Refusal := finish s (s.pagerWroteBack err)

/-- The fetched octets are installed in slot k as the context of flow f: enabled, pinned and class as the entry has them now, the window
afresh when the flow was enabled while paged out (R161, R170). -/
def State.installCtx (s : State) (k f : Nat) (bs : List Byte) : State :=
  let e := s.ent f
  let s := (s.setBytes (ctxAddr k) bs).setSlot k (some f)
  let s := s.setEnt f (natPut (natPut e 31 30 1) 19 0 k)
  let w := (s.word (ctxAddr k)).toNat
  let w' := natPut (natPut (natPut w 11 11 (b2n (entEnabled e))) 10 10 (b2n (entPinned e))) 13 12 (natBits e 27 26)
  let flw := { s.flw with dirty := spSet (fun _ => false) s.flw.dirty k (decide (w ≠ w')) }
  let flw := { flw with stuck := spSet (fun _ => false) flw.stuck k false }
  let s := ({ s with flw := flw }).setWord (ctxAddr k) (toW w')
  let s := if spGet (fun _ => false) s.flw.fresh f then
      let s := s.startWindow k
      { s with flw := { s.flw with fresh := spSet (fun _ => false) s.flw.fresh f false } }
    else s
  (s.unmarkUse k).inc rFLOW_CNT_FETCH

/-- A fetch has faulted: the entry stays paged out and waits for its retry; a command that waits for it is told, and a view load ends with code 7
(R165, R166, R173). -/
def State.fetchFaulted (s : State) (f a cause : Nat) : State :=
  let s : State := { s with flw := { s.flw with job := none } }
  let s := (s.pagerFault 0 cause f a).setEnt f (natPut (s.ent f) 31 30 2)
  let s := { s with flw := { s.flw with retries := s.flw.retries ++ [f] } }
  let s := if s.flw.wait.any (fun w => w.2 = f) then { s with flw := { s.flw with waitFault := true } } else s
  if s.flw.load.any (fun w => w.2 = f) then s.viewResult 7 else s

/-- A context has been fetched into slot k: it is installed, a view load that waits for it takes it, and the frames of its flow are looked
up (R166, R170). -/
def State.fetchLanded (s : State) (f k : Nat) (bs : List Byte) : State :=
  let s := s.jobDone.installCtx k f bs
  let s := match s.flw.load with
    | some (q, g) => if g = f then s.viewTake q f else s
    | none => s
  s.retryWaiting (fun w => w.frame.flow = f)

/-- What a fetch from a translated place brings: the fault cause of R173, or the octets. `err` is 1 for an xSPI error, 3 for an uncorrectable
ECC error; a wrong check word is cause 2. -/
def fetchCause (place : Option Nat) (err : Option Nat) (bs : List Byte) : Option Nat :=
  match place, err with
  | none, _ => some 0
  | some _, some c => some c
  | some _, none => if crc32c (bs.take 124) = toW (leNat (slice bs 124 4)) then none else some 2

/-- A fetch ends (R170, R173). -/
def State.pagerFetched (s : State) (err : Option Nat) : State :=
  match s.flw.job with
  | some ⟨.fetch f, k, none⟩ =>
    let a := s.backAddr (entLoc (s.ent f))
    let r := s.backing a .read
    let bs := (r.1.map (fun out => r.2.bytes out 128)).getD []
    match fetchCause r.1 err bs with
    | some c => r.2.fetchFaulted f a c
    | none => r.2.fetchLanded f k bs
  | _ => s

def execPagerFetchDone (err : Option Nat) (s : State) : Host.Outcome State Fault Refusal := finish s (s.pagerFetched err)

/-- The retry interval of a faulted fetch has passed (R173). -/
def State.pagerRetry (s : State) (f : Nat) : State :=
  if s.flw.retries.contains f then
    let s := { s with flw := { s.flw with retries := s.flw.retries.filter (· != f), misses := s.flw.misses ++ [Job.fetch f] } }
    s.setEnt f (natPut (s.ent f) 31 30 3)
  else s

def execPagerRetry (f : Nat) (s : State) : Host.Outcome State Fault Refusal := finish s (s.pagerRetry f)

/-- The eviction that a create asked for and that has not begun is no longer wanted. -/
def State.dropEvict (s : State) : State :=
  let flw := { s.flw with misses := s.flw.misses.filter (fun (j : Job) => j != Job.evict) }
  { s with flw := { flw with noVictim := flw.noVictim.filter (fun (j : Job) => j != Job.evict) } }

/-- A command that had to fetch, evict or write back completes (R164, R165). `noVictim` says that 10 µs have passed with no victim eligible;
`err` is what the xSPI port reports to a write back command. -/
def State.flowComplete (s : State) (err : Option Nat) (noVictim : Bool) : State :=
  match s.flw.wait with
  | some (1, f) =>
    (match s.freeSlot with
      | some k => (s.dropEvict.createCtx k f).flowResult 0 0
      | none =>
        if noVictim then s.dropEvict.flowResult 4 0
        else if s.flw.misses.contains .evict || s.flw.job.any (fun j => j.job = .evict) then s
        else { s with flw := { s.flw with misses := s.flw.misses ++ [.evict] } })
  | some (5, f) =>
    if entState (s.ent f) = 1 then
      (if s.get rFLOW_CFG fFLOW_CFG_pin_max ≤ s.pinnedCount then s.flowResult 5 0 else (s.pinCtx f).flowResult 0 0)
    else if s.flw.waitFault || noVictim then
      let code := if s.flw.waitFault then 7 else 4
      (if s.flw.waiting.any (fun w => w.frame.flow = f) then s else s.cancelFetch f).flowResult code 0
    else s
  | some (7, f) =>
    if entState (s.ent f) = 1 then
      let k := entSlot (s.ent f)
      let r := s.writeBack k f err
      if r.1 then ({ r.2 with flw := { r.2.flw with stuck := spSet (fun _ => false) r.2.flw.stuck k false } }).flowResult 0 0
      else r.2.flowResult 7 0
    else s
  | _ => s

def execFlowCmdComplete (err : Option Nat) (noVictim : Bool) (s : State) : Host.Outcome State Fault Refusal :=
  finish s (s.flowComplete err noVictim)

/-! ### The system window cache (R179) -/

/-- The guard of an entry of the system window cache has passed: a frame that waits for an entry takes it. -/
def State.sysUnprotect (s : State) (src flow : Nat) : State :=
  let s := { s with flw := { s.flw with sys := s.flw.sys.map (fun (e : SysWin) => if e.src = src && e.flow = flow then { e with guarded := false } else e) } }
  s.retrySystem

def execSysWindowUnprotect (src flow : Nat) (s : State) : Host.Outcome State Fault Refusal := finish s (s.sysUnprotect src flow)

/-- A write of FLOW_PF_CMD (R181): bit 0 clears the capture. -/
def flowPfCmdFx (v : Word) (s : State) : State := if bitOf v 0 then (s.setReg rFLOW_PF_CAP 0).setReg rFLOW_PF_ADDR 0 else s

def execFlowPfCmd (q : Req) (v : Word) (s : State) : Host.Outcome State Fault Refusal := finish s (s.writeReg q rFLOW_PF_CMD v flowPfCmdFx)

/-! ### The other FLOW registers (R174, R177, R181) -/

/-- A write of FLOW_CTRL: paging_en stays 1 while an entry is paged out or moving (R177). -/
def flowCtrlFx (v : Word) (s : State) : State :=
  let out := (s.residents.filter (fun e => entState (s.ent e.2) = 1)).length < s.flw.total
  if s.flag rFLOW_CTRL fFLOW_CTRL_paging_en && !bitOf v 0 && out then s.warn 0x30 else s.store rFLOW_CTRL v

/-- A write of FLOW_CFG: pin_max at most 3,072 and at least the pinned count (R174). -/
def flowCfgFx (v : Word) (s : State) : State :=
  let n := fldOf v fFLOW_CFG_pin_max
  let m := max (min 3072 n) s.pinnedCount
  let s := s.put rFLOW_CFG fFLOW_CFG_pin_max m
  if m = n then s else s.warn 0x30

/-- A write of FLOW_BACK or FLOW_BACK_SIZE: ignored while paging_en = 1 (R177); sizes above 0x10_0000 store that (R181). -/
def flowBackFx (v : Word) (s : State) : State :=
  if s.flag rFLOW_CTRL fFLOW_CTRL_paging_en then s.warn 0x30 else s.store rFLOW_BACK v
def flowBackSizeFx (v : Word) (s : State) : State :=
  if s.flag rFLOW_CTRL fFLOW_CTRL_paging_en then s.warn 0x30
  else s.put rFLOW_BACK_SIZE fFLOW_BACK_SIZE_entries (min 0x100000 (fldOf v fFLOW_BACK_SIZE_entries))

/-- A write of FLOW_ARG0 to FLOW_ARG3: ignored while a command runs (R164). -/
def flowArgFx (a : Nat) (v : Word) (s : State) : State := if s.flag rFLOW_CMD fFLOW_CMD_go then s else s.store a v

/-- A write of FLOW_SYS_CFG: guard_k stores the nearest of 12 to 20 (R181). -/
def flowSysCfgFx (v : Word) (s : State) : State :=
  let n := fldOf v fFLOW_SYS_CFG_guard_k
  let s := s.put rFLOW_SYS_CFG fFLOW_SYS_CFG_guard_k (clampN 12 20 n)
  if clampN 12 20 n = n then s else s.warn 0x32

end Sys2Proof.Machine
end

