-- ==== Sys2Proof/Machine/FamHost.lean ====
section
/-! DEFINITION. Pages HBA and HBB (R244 to R270, R280): fence and failure log, windows, settings, the MSI-X table, and the PCI Express link.
The commands that bring requests are in FamBridge. -/
namespace Sys2Proof.Machine

/-! ### Fence, failure log, resume (R267, R269, R270) -/

/-- HBx_FENCE as a read finds it: errors, and what is in flight, both saturating. -/
def State.fence (s : State) (h : Nat) : Word :=
  toW (s.get (rHBx_FENCE h) fHBx_FENCE_errors * 65536 + min 65535 (inFlight (s.br h)))

/-- A read of HBx_FENCE clears the error count. -/
def fenceRead (h : Nat) (s : State) : Nat × State := ((s.fence h).toNat, s.put (rHBx_FENCE h) fHBx_FENCE_errors 0)

/-- HBx_FENCE_REQ written: an ack request to every node with writes in flight (R256, R269). -/
def fenceReqFx (h : Nat) (v : Word) (s : State) : State :=
  if bitOf v 0 then
    ((s.br h).pdt.filter (fun e => e.n != 0)).foldl (fun (s : State) e => s.brSend h 1 5 1 e.node (noticeOctets 3 0 0 0 0)) s
  else s

/-- HBx_PWE_CLR written: the entries named are free. -/
def pweClrFx (h : Nat) (v : Word) (s : State) : State :=
  s.put (rHBx_PWE_STATUS h) fHBx_PWE_STATUS_valid (s.get (rHBx_PWE_STATUS h) fHBx_PWE_STATUS_valid &&& (65535 - natBits v.toNat 15 0))

/-- HBx_WIN_RESUME written: halted is cleared in the windows named, 16 for HBx_QATTR. -/
def winResumeFx (h : Nat) (v : Word) (s : State) : State :=
  (List.range 17).foldl (fun (s : State) n => if bitOf v n then s.put (winAttr h n) fHBx_WIN_ATTR_halted 0 else s) s

/-! ### Windows and settings (R254, R263, R280) -/

/-- A window that would prefetch register pages is downgraded (R263). -/
def State.winCheck (s : State) (h n : Nat) : State :=
  let a := rHBx_WIN_ATTR h n
  if s.flag a fHBx_WIN_ATTR_prefetch && s.get (rHBx_WIN_BASE h n) fHBx_WIN_BASE_base % 1024 = 0x040 then
    ((s.put a fHBx_WIN_ATTR_prefetch 0).put a fHBx_WIN_ATTR_downgraded 1).warn (brPage h)
  else s

/-- The base of window n written. -/
def winBaseFx (h n : Nat) (v : Word) (s : State) : State := (s.store (rHBx_WIN_BASE h n) v).winCheck h n

/-- The attributes of window n written; a write that is not downgraded leaves downgraded clear. -/
def winAttrFx (h n : Nat) (v : Word) (s : State) : State :=
  ((s.store (rHBx_WIN_ATTR h n) v).put (rHBx_WIN_ATTR h n) fHBx_WIN_ATTR_downgraded 0).winCheck h n

/-- HBx_RETRY written: rsp_timeout below 10 stores 10. -/
def hbRetryFx (h : Nat) (v : Word) (s : State) : State :=
  let n := fldOf v fHBx_RETRY_rsp_timeout
  s.store (rHBx_RETRY h) (fldPut v fHBx_RETRY_rsp_timeout (max 10 n))

/-- HBx_POSTED written: age_k outside 12 to 20 stores the nearest limit. -/
def hbPostedFx (h : Nat) (v : Word) (s : State) : State :=
  let n := fldOf v fHBx_POSTED_age_k
  s.store (rHBx_POSTED h) (fldPut v fHBx_POSTED_age_k (clampN 12 20 n))

/-! ### MSI-X (R248) -/

/-- The vector control of vector n written: where it unmasks a pending vector, the PBA bit goes, and the message is sent if the request is
still 1. -/
def msixCtrlFx (h n : Nat) (v : Word) (s : State) : State :=
  let a := rHBx_MSIX_CTRL h n
  let was := s.flag a fHBx_MSIX_CTRL_mask
  let s := s.store a v
  if was && !s.flag a fHBx_MSIX_CTRL_mask && bitOf (s.reg (rHBx_MSIX_PBA h)) n then
    let s := s.setReg (rHBx_MSIX_PBA h) (toW (natPut (s.reg (rHBx_MSIX_PBA h)).toNat n n 0))
    if s.pcieOn h && (s.vectors h).contains n then s.emit (.msix h n) else s
  else s

/-! ### The rows -/

def execFenceRead (q : Req) (h : Fin 2) (mayPrefetch : Bool) (s : State) : Host.Outcome State Fault Refusal :=
  finish s (s.rowRead q (rHBx_FENCE h.val) mayPrefetch false (fenceRead h.val))

def execFenceRequest (q : Req) (h : Fin 2) (v : Word) (s : State) : Host.Outcome State Fault Refusal :=
  finish s (s.writeReg q (rHBx_FENCE_REQ h.val) (v ||| 1) (fenceReqFx h.val))

def execPweClear (q : Req) (h : Fin 2) (v : Word) (s : State) : Host.Outcome State Fault Refusal :=
  finish s (s.writeReg q (rHBx_PWE_CLR h.val) v (pweClrFx h.val))

def execWindowResume (q : Req) (h : Fin 2) (v : Word) (s : State) : Host.Outcome State Fault Refusal :=
  finish s (s.writeReg q (rHBx_WIN_RESUME h.val) v (winResumeFx h.val))

def execWindowAttrWrite (q : Req) (h : Fin 2) (n : Fin 16) (base : Bool) (v : Word) (s : State) : Host.Outcome State Fault Refusal :=
  finish s (s.writeReg q (if base then rHBx_WIN_BASE h.val n.val else rHBx_WIN_ATTR h.val n.val) v
    (if base then winBaseFx h.val n.val else winAttrFx h.val n.val))

def execMsixUnmask (q : Req) (h : Fin 2) (n : Fin 32) (v : Word) (s : State) : Host.Outcome State Fault Refusal :=
  finish s (s.writeReg q (rHBx_MSIX_CTRL h.val n.val) (fldPut v fHBx_MSIX_CTRL_mask 0) (msixCtrlFx h.val n.val))

/-- A PCI Express link changes (R279, R280): the LTSSM summary, the rate and link up; leaving DL_Active raises source 34 or 35. -/
def State.pcieLink (s : State) (h ltssm : Nat) (gen2 up : Bool) : State :=
  if s.get (rHBx_CFG h) fHBx_CFG_mode != 0 then s
  else
    let p := brPage h
    let was := (s.get (rPG_STATUS p) fPG_STATUS_block_status).testBit 0
    let s := s.setReg (rHBx_STATUS h) (toW (b2n gen2 * 16 + ltssm))
    let s := s.put (rPG_STATUS p) fPG_STATUS_block_status (b2n up)
    if was && !up && s.enabled p then s.raise (34 + h) p else s

def execPcieLinkChange (h : Fin 2) (ltssm : Fin 6) (gen2 up : Bool) (s : State) : Host.Outcome State Fault Refusal :=
  finish s (s.pcieLink h.val ltssm.val gen2 up)

end Sys2Proof.Machine
end

