-- ==== Sys2Proof/Machine/FamMac.lean ====
section
/-! DEFINITION. The rows of the Ethernet MACs (R416 to R432). -/
namespace Sys2Proof.Machine

/-! ### Settings (R432) -/

/-- A write of xx_CFG: max_frame stores the nearest limit; speed, the delays and max_frame change only while rx_en and tx_en are both 0. -/
def macCfgFx (m : Nat) (v : Word) (s : State) : State :=
  let a := rxx_CFG m
  let old := s.reg a
  let v := fldPut v fxx_CFG_max_frame (clampN 64 2000 (fldOf v fxx_CFG_max_frame))
  let new := storeWord a old v
  let held := [fxx_CFG_max_frame, fxx_CFG_speed, fxx_CFG_txc_delay, fxx_CFG_rxc_delay]
  let on := fldOf old fxx_CFG_rx_en = 1 || fldOf old fxx_CFG_tx_en = 1
  if on && held.any (fun f => fldOf new f != fldOf old f) then
    (s.setReg a (held.foldl (fun w f => fldPut w f (fldOf old f)) new)).warn (0x70 + m)
  else s.setReg a new

/-- A write of xx_EXP: backoff_limit above 10 stores 10. -/
def macExpFx (m : Nat) (v : Word) (s : State) : State :=
  s.store (rxx_EXP m) (fldPut v fxx_EXP_backoff_limit (min 10 (fldOf v fxx_EXP_backoff_limit)))

/-! ### Reception (R417 to R424) -/

/-- The station address. -/
def State.macAddr (s : State) (m : Nat) : List Byte := beBytes 2 ((s.reg (rxx_ADDR_HI m)).toNat % 65536) ++ beBytes 4 (s.reg (rxx_ADDR_LO m)).toNat

def isBroadcast (l : List Byte) : Bool := (l.take 6).all (· = 0xFF)
def isGroup (l : List Byte) : Bool := (nthD l 0 0).toNat % 2 = 1

/-- The MAC accepts a destination address (R419). -/
def State.macAccepts (s : State) (m : Nat) (l : List Byte) : Bool :=
  let cfg := s.reg (rxx_CFG m)
  fldOf cfg fxx_CFG_promisc = 1 || l.take 6 = s.macAddr m ||
    (if isBroadcast l then fldOf cfg fxx_CFG_bcast_en = 1 else isGroup l && fldOf cfg fxx_CFG_mcast_en = 1)

/-- UDP over IPv4 to port 319 or 320. -/
def isPtpUdp (l : List Byte) : Bool :=
  let port := beNat (slice l (14 + (nthD l 14 0).toNat % 16 * 4 + 2) 2)
  beNat (slice l 12 2) = 0x0800 && nthD l 23 0 = 17 && (port = 319 || port = 320)

/-- The flow of the first valid rule that matches (R420). -/
def State.macFlow (s : State) (m : Nat) (l : List Byte) : Option Nat :=
  let type := beNat (slice l 12 2)
  let hit (n : Nat) : Bool := if n = 0 then type = 0x88F7 || isPtpUdp l else if n = 1 then type = s.get (rxx_ETYPE m) fxx_ETYPE_etype
    else if n = 2 then isGroup l else true
  ((List.range 4).find? (fun n => s.flag (rxx_RX_BIND m n) fxx_RX_BIND_valid && hit n)).map
    (fun n => s.get (rxx_RX_BIND m n) fxx_RX_BIND_flow_id)

/-- The fabric port of a MAC. -/
def macPort (m : Nat) : Nat := if m = 0 then 8 else 9

/-- Octets in the receive FIFO of a MAC: those of its segments that the fabric has not taken (R147, R419). -/
def State.macFifo (s : State) (m : Nat) : Nat :=
  ((s.fabSrc (macPort m)).filter (fun d => nthD d.frame.payload 0 0 = toB m)).foldl (fun n d => n + (d.frame.payload.length - 12)) 0

/-- A read of FIFO memory that an armed checker takes: true where the frame is bad (R431, R589). -/
def State.macEcc (s : State) (m : Nat) : Bool × State :=
  match s.armed (0x70 + m) 0 with
  | none => (false, s)
  | some false => (false, s.disarm (0x70 + m))
  | some true => (true, (s.disarm (0x70 + m)).raiseInj (if m = 0 then 112 else 87 + m) (0x70 + m))

/-- A frame presented to the fabric as segments, back to back (R421, R424). -/
def State.macSegments (s : State) (m flow : Nat) (l : List Byte) (bad : Bool) (stamp : Nat) : State :=
  let x := s.mac m
  let d := l.length
  let k := max 1 ((d + 471) / 472)
  let head (j : Nat) : List Byte :=
    [toB m, toB (b2n (decide (j = 0)) * 128 + b2n (decide (j + 1 = k)) * 64 + 32 + b2n bad * 16)] ++ beBytes 2 x.number ++ beBytes 2 d ++
      beBytes 2 (stamp / 1000000000 % 65536) ++ beBytes 4 (stamp % 1000000000)
  let s := s.setMac m { x with number := (x.number + 1) % 65536 }
  (List.range k).foldl (fun s j =>
    s.present (macPort m) (mkFrame 0 0 0 0 0 0 0 flow 0 (head j ++ slice l (472 * j) 472))) s

/-- A received PAUSE (R416, R423). -/
def isPause (l : List Byte) : Bool := beNat (slice l 12 2) = 0x8808 && beNat (slice l 14 2) = 1

/-- A PAUSE is acted on: with quanta the transmitter stops, without it goes on. -/
def State.macPause (s : State) (quanta : Nat) : State :=
  let a := rxx_STATUS 0
  let was := s.flag a fxx_STATUS_pause_active
  if quanta = 0 then s.put a fxx_STATUS_pause_active 0
  else if was then s else (s.put a fxx_STATUS_pause_active 1).macCnt 0 35 1

/-- The counters of R427 for a frame received from the line. -/
def State.macRxCount (s : State) (m : Nat) (l : List Byte) (badFcs part phy : Bool) : State :=
  let n := l.length
  let limit := s.get (rxx_CFG m) fxx_CFG_max_frame
  let s := if badFcs then s.macCnt m (if part then 14 else 13) 1 else s
  let s := if n < 64 then s.macCnt m 15 1 else s
  let s := if limit < n then s.macCnt m 16 1 else s
  let s := if phy then s.macCnt m 17 1 else s
  let s := if badFcs || phy || n < 64 || limit < n then s
    else
      let s := (s.macCnt m 0 1).macCnt m 1 n
      let s := s.macCnt m (if isBroadcast l then 4 else if isGroup l then 3 else 2) 1
      if m = 0 && isPause l then s.macCnt 0 5 1 else s
  if n < 64 then s
  else s.macCnt m (if n = 64 then 6 else if n ≤ 127 then 7 else if n ≤ 255 then 8 else if n ≤ 511 then 9 else if n ≤ 1023 then 10
    else if n ≤ 1518 then 11 else 12) 1

/-- The RGMII in-band status between frames: link in bit 0, speed in bits 2:1, full duplex in bit 3 (R416, R417). -/
def State.macInband (s : State) (st : Nat) : State :=
  if !s.flag (rxx_CFG 0) fxx_CFG_inband then s
  else
    let a := rxx_STATUS 0
    let was := s.get a fxx_STATUS_link_up
    let s := (s.put a fxx_STATUS_link_up (st % 2)).put a fxx_STATUS_link_speed (min 2 (st / 2 % 4))
    let s := if was = st % 2 then s else s.irq 0x70 6
    let half := st % 2 = 1 && st / 8 % 2 = 0
    let s := if half && !s.flag a fxx_STATUS_half_duplex then s.macFault 0 else s
    s.put a fxx_STATUS_half_duplex (b2n half)

/-- A whole frame, FCS included, that the line has brought to an enabled receiver, which in L2 to L4 works only for wake patterns (R430, R534);
`age` is the time since its reference point, in ns. -/
def State.macRx (s : State) (m : Nat) (l : List Byte) (part phy : Bool) (age : Nat) : State :=
  let cfg := s.reg (rxx_CFG m)
  let wired := m = 0 || s.routed (m - 1) 0x3C
  if !s.enabled (0x70 + m) || fldOf cfg fxx_CFG_rx_en = 0 || !wired || (!s.fieldRuns && s.get (rxx_WAKE_CFG m) fxx_WAKE_CFG_en = 0) then s
  else
    let n := l.length
    let body := l.take (n - 4)
    let badFcs := part || n < 4 || leNat (l.drop (n - 4)) != (fcs body).toNat
    let s := s.macRxCount m l badFcs part phy
    let hits := if badFcs then [] else s.wakeHits m l
    let s := s.wakeMatch m hits
    if !s.fieldRuns then (if hits = [] then s else s.macWake)
    else
      let bad := badFcs || phy || n < 64 || fldOf cfg fxx_CFG_max_frame < n
      let room := if m = 0 then 32768 else 4096
      let base := s.base (natBits (s.reg rTSU_BASE_SEL).toNat (2 * m + 1) (2 * m))
      let raw : Int := ((base.total : Int) - age) * 10 - s.rxComp (4 + m)
      let stamp := (raw / 10).toNat
      if room < s.macFifo m + n then ((s.macCnt m 18 1).irq (0x70 + m) 4).macFault m
      else
        let e := s.macEcc m
        let s := e.2
        if e.1 then s
        else if !bad && m = 0 && isPause l then
          if fldOf cfg fxx_CFG_pause_en = 1 then s.macPause (beNat (slice l 16 2)) else s
        else if !s.macAccepts m l || (bad && !s.flag (rxx_EXP m) fxx_EXP_keep_bad) then s
        else
          let at_ : Int := ((s.servo.island : Int) - age) * 10 - s.rxComp 4
          let s := if m = 0 && !bad then s.tunnelOut body (at_ / 10).toNat else s
          let g := if m = 0 && !bad && isPtp body 9 then s.takeResidence body else (body, s)
          let l := if g.1 = body then l else g.1 ++ leBytes 4 (fcs g.1).toNat
          let s := g.2
          match s.macFlow m l with
          | none => (s.macCnt m 19 1).irq (0x70 + m) 4
          | some f => s.macSegments m f (if s.flag (rxx_EXP m) fxx_EXP_keep_fcs then l else g.1) bad stamp

def execMacFrameReceived (m : Fin 5) (data : List Byte) (partOctet phyErr : Bool) (age : Nat) (inband : Option Nat) (s : State) :
    Host.Outcome State Fault Refusal :=
  let s0 := match (if m.val = 0 then inband else none) with
    | some st => if s.enabled 0x70 then s.macInband st else s
    | none => s
  finish s (s0.macRx m data partOctet phyErr age)

/-! ### Segments to the line (R422) -/

/-- Octets in the transmit buffer of a MAC. -/
def State.macHeld (s : State) (m : Nat) : Nat :=
  (s.mac m).asm.foldl (fun n a => n + a.data.length) 0 + (s.mac m).txq.foldl (fun n a => n + a.data.length) 0

/-- A segment for MAC m: it opens, extends or completes an assembly, or is discarded with the assembly it concerns. -/
def State.macSegment (s : State) (m : Nat) (f : Frame) : State :=
  let x := s.mac m
  let p := f.payload
  let flags := (nthD p 1 0).toNat
  let number := beNat (slice p 2 2)
  let old := x.asm.find? (fun a => a.flow = f.flow)
  let rest := x.asm.filter (fun a => a.flow != f.flow)
  let go (s : State) (a : MacAsm) : State :=
    let a := { a with data := a.data ++ p.drop 12 }
    let y := s.mac m
    let others := y.asm.filter (fun b => b.flow != f.flow)
    if !flags.testBit 6 then s.setMac m { y with asm := others ++ [a] }
    else if a.data.length = a.size then s.setMac m { y with asm := others, txq := y.txq ++ [⟨a.data, a.number, a.stamp⟩] }
    else (s.setMac m { y with asm := others }).macTxDrop m
  if p.length < 12 then (s.setMac m { x with asm := rest }).macTxDrop m
  else if flags.testBit 7 then
    let s := if old.isSome then (s.setMac m { x with asm := rest }).macTxDrop m else s
    if 4 ≤ (s.mac m).asm.length then s.macTxDrop m
    else go s ⟨f.flow, number, beNat (slice p 4 2), flags.testBit 5, []⟩
  else match old with
    | none => s.macTxDrop m
    | some a => if a.number = number then go s a else (s.setMac m { x with asm := rest }).macTxDrop m

/-- The segment at the front of the egress buffer of FP8 or FP9; it waits while the transmit buffer has no room for it
and holds a packet that will leave (R422, log entry 49). -/
def State.macDeliver (s : State) (t1s : Bool) : State :=
  let o := if t1s then 9 else 8
  match s.outbox o with
  | [] => s
  | d :: rest =>
    let q := (d.held.map HeldCtx.queue).getD 0
    let m := if t1s then 1 + q else 0
    if t1s && 3 < q then ([1, 2, 3, 4].filter (fun m => s.enabled (0x70 + m))).foldl (fun s m => s.macTxDrop m) (s.setOutbox o rest)
    else if !s.enabled (0x70 + m) then (s.setOutbox o rest).discardCells d.orig d.frame.cells
    else if (s.mac m).txq != [] && (if m = 0 then 16384 else 4096) < s.macHeld m + (d.frame.payload.length - 12) then s
    else (s.setOutbox o rest).macSegment m d.frame

def execMacSegmentDeliver (t1s : Bool) (s : State) : Host.Outcome State Fault Refusal := finish s (s.onField fun s => s.macDeliver t1s)

/-! ### Transmission (R423, R425, R426) -/

/-- The stamp of a frame as it leaves enters the transmit stamp FIFO. -/
def State.macStamp (s : State) (m number : Nat) : State :=
  let x := s.mac m
  let base := s.base (natBits (s.reg rTSU_BASE_SEL).toNat (2 * m + 1) (2 * m))
  let raw : Int := (base.total : Int) * 10 + s.txComp (4 + m)
  let t := (raw / 10).toNat
  if 16 ≤ x.stamps.length then s.macCnt m 36 1
  else
    let item := number * 2 ^ 48 + t / 1000000000 % 65536 * 2 ^ 32 + 2 ^ 31 + t % 1000000000
    (s.setMac m { x with stamps := x.stamps ++ [item] }).irq (0x70 + m) 3

/-- The frame in progress is finished with, sent or discarded. -/
def State.macPop (s : State) (m : Nat) : State := s.setMac m { s.mac m with txq := (s.mac m).txq.drop 1, attempt := 0, backoff := none }

/-- A Follow_Up that the management MAC sends takes the residence that it matches; an FCS that it brings is made anew (R235, R423). -/
def State.followUp (s : State) (l : List Byte) : List Byte × State :=
  if !isPtp l 8 then (l, s)
  else if s.flag (rxx_EXP 0) fxx_EXP_tx_fcs_given then
    let g := s.takeResidence (l.take (l.length - 4))
    (if g.1 = l.take (l.length - 4) then l else g.1 ++ leBytes 4 (fcs g.1).toNat, g.2)
  else s.takeResidence l

/-- The level of CRS_DV at a T1S MAC. -/
def State.macCrs (s : State) (m : Nat) : Bool := m != 0 && s.inputLevel (m - 1) 0x3C false

/-- The transmitter sends the frame at the front, which may have had to defer; none while a PAUSE is in force, a back-off runs or CRS_DV is
high. -/
def State.macTx (s : State) (m : Nat) (deferred : Bool) : State :=
  let x := s.mac m
  let cfg := s.reg (rxx_CFG m)
  if !s.enabled (0x70 + m) || fldOf cfg fxx_CFG_tx_en = 0 || x.backoff.isSome || s.macCrs m ||
    (m = 0 && s.flag (rxx_STATUS 0) fxx_STATUS_pause_active) then s
  else match x.txq with
    | [] => s
    | f :: _ =>
      let s := s.macPop m
      let e := s.macEcc m
      let s := e.2
      if e.1 then s
      else if fldOf cfg fxx_CFG_max_frame < (lineOctets (s.flag (rxx_EXP m) fxx_EXP_tx_fcs_given) f.data).length then s.macTxDrop m
      else
        let s := if f.stamp then s.macStamp m f.number else s
        let g := if m = 0 then s.followUp f.data else (f.data, s)
        let s := g.2.macLine m g.1
        if m = 0 then s
        else
          let s := if deferred then s.macCnt m 28 1 else s
          if x.attempt = 1 then s.macCnt m 30 1 else if 1 < x.attempt then s.macCnt m 31 1 else s

def execMacTxFrame (m : Fin 5) (deferred : Bool) (s : State) : Host.Outcome State Fault Refusal := finish s (s.onField fun s => s.macTx m deferred)

def execPauseEnd (s : State) : Host.Outcome State Fault Refusal := finish s (s.put (rxx_STATUS 0) fxx_STATUS_pause_active 0)

/-- A collision while T1S MAC c sends the frame at its front (R426). The back-off is drawn as a free value (log entry 4). -/
def State.macCollision (s : State) (c : Nat) (late : Bool) : State :=
  let m := 1 + c
  let x := s.mac m
  if !s.enabled (0x70 + m) || x.txq = [] || x.backoff.isSome || !s.flag (rxx_CFG m) fxx_CFG_tx_en then s
  else
    let n := x.attempt + 1
    let s := (s.macCnt m 29 1).emit (.jam m)
    let drop (s : State) (i : Nat) : State := (((s.macPop m).macCnt m i 1).irq (0x70 + m) 5).macFault m
    if late then drop s 32
    else if s.get (rxx_EXP m) fxx_EXP_attempt_limit + 1 ≤ n then drop s 33
    else
      let k := min n (max 1 (s.get (rxx_EXP m) fxx_EXP_backoff_limit))
      s.step1.setMac m { x with attempt := n, backoff := some (s.freeN % 2 ^ k) }

def execT1sCollision (c : Fin 4) (late : Bool) (s : State) : Host.Outcome State Fault Refusal := finish s (s.onField fun s => s.macCollision c late)
def execT1sBackoffEnd (c : Fin 4) (s : State) : Host.Outcome State Fault Refusal :=
  finish s (s.setMac (1 + c) { s.mac (1 + c) with backoff := none })

/-! ### Management access, counters, stamps (R425, R428, R432) -/

/-- A write of xx_MDIO_ACC: go starts an access, and does nothing while one is in progress. -/
def mdioFx (m : Nat) (v : Word) (s : State) : State :=
  let a := rxx_MDIO_ACC m
  if s.flag a fxx_MDIO_ACC_go then s
  else
    let w := v &&& 0x7FF0FFFF
    if bitOf v 31 then (s.setReg a (w ||| 0x80000000)).emit (.mdio m (w ||| 0x80000000)) else s.setReg a w

def execMdioAccess (q : Req) (m : Fin 5) (v : Word) (s : State) : Host.Outcome State Fault Refusal :=
  finish s (s.writeReg q (rxx_MDIO_ACC m) v (mdioFx m))

/-- An access completes: go clears, and a read shows what it read. -/
def State.mdioEnd (s : State) (m data : Nat) : State :=
  let a := rxx_MDIO_ACC m
  if s.flag a fxx_MDIO_ACC_go then
    let s := s.put a fxx_MDIO_ACC_go 0
    if s.flag a fxx_MDIO_ACC_write then s else s.put a fxx_MDIO_ACC_data data
  else s

def execMdioDone (m : Fin 5) (data : Nat) (s : State) : Host.Outcome State Fault Refusal := finish s (s.mdioEnd m data)

/-- A write of xx_CNT_CMD: freeze copies the counters; clear in the same write sets them to 0. -/
def cntCmdFx (m : Nat) (v : Word) (s : State) : State :=
  if !bitOf v 0 then s
  else
    let s := (List.range 40).foldl (fun s i => s.setReg (rxx_SNAP m i) (s.reg (rxx_CNT m i))) s
    if !bitOf v 1 then s
    else (List.range 40).foldl (fun s i =>
      let s' := s.setReg (rxx_CNT m i) 0
      if bitOf (s.reg (rxx_CNT m i)) 31 then s'.macHalf m i else s') s

def execCntFreeze (q : Req) (m : Fin 5) (v : Word) (s : State) : Host.Outcome State Fault Refusal :=
  finish s (s.writeReg q (rxx_CNT_CMD m) v (cntCmdFx m))
def execCntClear (q : Req) (m : Fin 5) (v : Word) (s : State) : Host.Outcome State Fault Refusal :=
  finish s (s.writeReg q (rxx_CNT_CMD m) v (fun v s => cntCmdFx m v s))

/-- A stamp is popped; the high word and the replay registers show it. -/
def macTxsPop (m : Nat) (s : State) : Option (Nat × State) :=
  match (s.mac m).stamps with
  | [] => none
  | t :: rest =>
    let s := s.setMac m { s.mac m with stamps := rest }
    let hi := toW (t / 2 ^ 32)
    some (t, ((s.setReg (rxx_TXS_POP_HI m) hi).setReg (rxx_TXS_REPLAY m) (toW t)).setReg (rxx_TXS_REPLAY_HI m) hi)

def execTxsPop (q : Req) (m : Fin 5) (mayPrefetch wide : Bool) (s : State) : Host.Outcome State Fault Refusal :=
  finish s (s.popRead q (rxx_TXS_POP m) mayPrefetch wide 0 (macTxsPop m))

/-- xx_STATUS: of the T1S MACs the collisions of the frame in progress and the level of CRS_DV. Nothing is under way between commands. -/
def State.macStatus (s : State) (m : Nat) : Nat :=
  if m = 0 then (s.reg (rxx_STATUS 0)).toNat
  else (s.mac m).attempt % 16 * 2 ^ 8 + b2n (s.macCrs m) * 2 ^ 6

end Sys2Proof.Machine
end

