-- ==== Sys2Proof/Machine/FamPace.lean ====
section
/-! DEFINITION. The pace gauge and its loop (R148 to R152, R156). -/
namespace Sys2Proof.Machine

def State.paceMax (s : State) : Nat := s.get rPACE_CFG fPACE_CFG_max_code
/-- min_code above max_code acts as max_code (R156). -/
def State.paceMin (s : State) : Nat := min (s.get rPACE_CFG fPACE_CFG_min_code) s.paceMax
def State.paceCode (s : State) : Nat := s.get rPACE_CODE fPACE_CODE_code
def State.paceLoop (s : State) : Bool := s.flag rPACE_CTRL fPACE_CTRL_loop_en
def State.paceManual (s : State) : Bool := s.flag rPACE_EXP fPACE_EXP_manual

/-- The warning threshold (R150, R156): 0 acts as 900. -/
def State.paceWarn (s : State) : Nat :=
  let w := s.get rPACE_EXP fPACE_EXP_warn_at
  if w = 0 then 900 else w

/-- The code changes: counted up or down, the interrupts of R156 (bit 5 as the code comes to max_code: DESIGN CHOICE, log entry 88), and VCORE_SET
while it is driven (R151). -/
def State.setCode (s : State) (n : Nat) : State :=
  let c := s.paceCode
  if n = c then s
  else
    let s := (s.put rPACE_CODE fPACE_CODE_code n).irq 0x18 4
    let s := s.inc (if c < n then rPACE_CNT_UP else rPACE_CNT_DOWN)
    let s := if n = s.paceMax then s.irq 0x18 5 else s
    if s.flag rPACE_CODE fPACE_CODE_driving then s.driveVcore n else s

/-- The settle timer starts, and the count above raise_at with it (R151). -/
def State.startSettle (s : State) : State := { s with pace := { s.pace with settling := true, above := 0 } }

/-- The code that a value outside min_code to max_code acts as (R151, R156). -/
def State.nearCode (s : State) (n : Nat) : Nat := clampN s.paceMin s.paceMax n

/-- The shedding level that a reading gives, with the calm readings counted (R150). -/
def State.shedNext (s : State) (beat : Nat) : Fin 3 × Nat :=
  let w := s.paceWarn
  let l := s.pace.shed
  if 1000 < beat && l != 2 then (2, 0)
  else if l = 0 then (if w < beat then (1, 0) else (0, 0))
  else if beat ≤ (if l = 2 then 980 else w - 20) then
    (if 4 ≤ s.pace.calm + 1 then (l - 1, 0) else (l, s.pace.calm + 1))
  else (l, 0)

/-- The shedding level changes (R150, R155, R156). -/
def State.setShed (s : State) (n : Fin 3) (calm : Nat) : State :=
  let l := s.pace.shed
  let s := { s with pace := { s.pace with shed := n, calm := calm } }
  let s := s.put rPACE_CODE fPACE_CODE_shed_level n
  if n = l then s
  else
    let s := s.irq 0x10 2
    if n = 2 then ((s.inc rPACE_CNT_BREACH).irq 0x18 3).raise 8
    else if l = 0 then ((s.inc rPACE_CNT_WARN).irq 0x18 2).raise 7
    else s

/-- What a reading of the two replica rings, in 10 ps units, records (R148 to R151): the report is the slower ring; rings that differ by more
than 2 % of it, or an armed checker 4, fail the self-check; the shedding level, the flags and the counts of calm readings, of readings above
raise_at and of run without headroom follow. -/
def State.paceNote (s : State) (b0 b1 : Nat) : State :=
  let beat := max b0 b1 % 65536
  let inj := (s.armed 0x18 4).isSome
  let s := if inj then (s.disarm 0x18).raiseInj 10 0x18 else s
  let fail := 50 * (max b0 b1 - min b0 b1) > max b0 b1
  let s := if fail then s.raise 10 else s
  let s := if inj || fail then s.put rPACE_CODE fPACE_CODE_selfcheck_failed 1 else s
  let s := (s.put rPACE_BEAT fPACE_BEAT_beat beat).put rPACE_BEAT fPACE_BEAT_beat_max (max beat (s.get rPACE_BEAT fPACE_BEAT_beat_max))
  let s := s.put rPACE_BEAT_MIN fPACE_BEAT_MIN_beat_min (min beat (s.get rPACE_BEAT_MIN fPACE_BEAT_MIN_beat_min))
  let s := (s.put rPACE_CODE fPACE_CODE_breach (b2n (decide (1000 < beat)))).put rPACE_CODE fPACE_CODE_warning (b2n (decide (s.paceWarn < beat)))
  let r := s.shedNext beat
  let s := s.setShed r.1 r.2
  let run := decide (900 < beat) && s.paceCode = s.paceMax
  let s := if run && !s.pace.noHead then s.raise 9 else s
  let above := if s.pace.settling || beat ≤ s.get rPACE_THRESH fPACE_THRESH_raise_at then 0 else s.pace.above + 1
  { s with pace := { s.pace with noHead := run, above := above, below := decide (beat < s.get rPACE_THRESH fPACE_THRESH_lower_at) } }

/-- What the loop does after a reading has been recorded (R149 to R151). After a failed self-check a manual code still stands (DESIGN CHOICE,
log entry 88). -/
def State.paceAct (s : State) (beat : Nat) : State :=
  if !s.paceLoop then s
  else if 1000 < beat then s.setCode s.paceMax
  else if s.paceManual then s
  else if s.flag rPACE_CODE fPACE_CODE_selfcheck_failed then s.setCode s.paceMax
  else if !s.pace.settling && s.paceCode < s.paceMax && (900 < beat || 4 ≤ s.pace.above) then (s.setCode (s.paceCode + 1)).startSettle
  else s

/-- One reading (R148 to R152): recorded, then acted on. A gauge that is disabled or has no clock reads nothing. -/
def State.paceReading (s : State) (b0 b1 : Nat) : State :=
  if !s.enabled 0x18 || !s.islandRuns then s else (s.paceNote b0 b1).paceAct (max b0 b1 % 65536)

def execPaceReading (b0 b1 : Nat) (s : State) : Host.Outcome State Fault Refusal := finish s (s.paceReading b0 b1)

/-- A reading out of turn is judged like any other, and the request of PACE_CMD for one is done (R5, R152). -/
def execPaceOutOfTurn (b0 b1 : Nat) (s : State) : Host.Outcome State Fault Refusal := finish s ((s.setReg rPACE_CMD 0).paceReading b0 b1)

def execPaceSettleEnd (s : State) : Host.Outcome State Fault Refusal :=
  finish s { s with pace := { s.pace with settling := false, above := 0 } }

/-- VCORE's sticky dip flag (R151, R484). -/
def State.vcoreDip (s : State) : Bool := bitOf (s.reg rPD_SUP_DIP) 0

/-- The end of a lower_ms window below lower_at (R151). -/
def State.paceLower (s : State) : State :=
  if s.enabled 0x18 && s.pace.below && s.paceLoop && !s.paceManual && !s.flag rPACE_CODE fPACE_CODE_selfcheck_failed && !s.vcoreDip &&
      s.paceMin < s.paceCode then s.setCode (s.paceCode - 1)
  else s

def execPaceLower (s : State) : Host.Outcome State Fault Refusal := finish s s.paceLower

/-- While manual = 1 the code is manual_code, within the limits (R151). -/
def State.applyManual (s : State) : State :=
  if s.paceLoop && s.paceManual && !s.flag rPACE_CODE fPACE_CODE_breach then s.setCode (s.nearCode (s.get rPACE_EXP fPACE_EXP_manual_code)) else s

/-- A write of PACE_CTRL (R151): loop_en from 0 to 1 drives start_code, or max_code after a failed self-check (R149). -/
def paceCtrlFx (v : Word) (s : State) : State :=
  let was := s.paceLoop
  let s := s.store rPACE_CTRL v
  if s.paceLoop && !was then
    let code := if s.flag rPACE_CODE fPACE_CODE_selfcheck_failed then s.paceMax else s.nearCode (s.get rPACE_CFG fPACE_CFG_start_code)
    let s := ((s.setCode code).put rPACE_CODE fPACE_CODE_driving 1).driveVcore code
    s.startSettle.applyManual
  else s

def execPaceLoopEnable (q : Req) (v : Word) (s : State) : Host.Outcome State Fault Refusal := finish s (s.writeReg q rPACE_CTRL v paceCtrlFx)

/-- A write of PACE_CFG (R151): a code outside the limits moves to the nearest one; a raise starts the settle timer. While loop_en = 0
the code is frozen. -/
def paceCfgFx (v : Word) (s : State) : State :=
  let s := s.store rPACE_CFG v
  if s.paceLoop then
    let c := s.paceCode
    let n := s.nearCode c
    let s := s.setCode n
    (if c < n then s.startSettle else s).applyManual
  else s

def execPaceCfgWrite (q : Req) (v : Word) (s : State) : Host.Outcome State Fault Refusal := finish s (s.writeReg q rPACE_CFG v paceCfgFx)

/-- A write of PACE_CMD (R156): bit 0 clears beat_max and PACE_BEAT_MIN; bit 1 asks for a reading, which PACE_OUT_OF_TURN brings;
it reads 1 until then (R5). -/
def paceCmdFx (v : Word) (s : State) : State :=
  let s := if bitOf v 1 then s.setReg rPACE_CMD 2 else s
  if bitOf v 0 then (s.put rPACE_BEAT fPACE_BEAT_beat_max 0).setReg rPACE_BEAT_MIN 0xFFFF else s

def execPaceClearBeat (q : Req) (v : Word) (s : State) : Host.Outcome State Fault Refusal := finish s (s.writeReg q rPACE_CMD v paceCmdFx)

/-- A write of PACE_THRESH (R156): raise_at above 900 stores 900; lower_at above raise_at - 50 stores that and sets config_warning. -/
def paceThreshFx (v : Word) (s : State) : State :=
  let r := min 900 (fldOf v fPACE_THRESH_raise_at)
  let l := fldOf v fPACE_THRESH_lower_at
  let s := (s.put rPACE_THRESH fPACE_THRESH_raise_at r).put rPACE_THRESH fPACE_THRESH_lower_at (min l (r - 50))
  if r - 50 < l then s.warn 0x18 else s

/-- A write of PACE_EXP (R156): warn_at other than 0 stores the nearest of 700 to 900; PACE_LIMITS shows the threshold in force. -/
def paceExpFx (v : Word) (s : State) : State :=
  let s := s.store rPACE_EXP v
  let w := fldOf v fPACE_EXP_warn_at
  let s := s.put rPACE_EXP fPACE_EXP_warn_at (if w = 0 then 0 else clampN 700 900 w)
  (s.put rPACE_LIMITS fPACE_LIMITS_warning s.paceWarn).applyManual

end Sys2Proof.Machine
end

