-- ==== Sys2Proof/Machine/FamPd.lean ====
section
/-! DEFINITION. The power die's events and the writes that reach it (R470 to R498): feeds, the hot-swap sequencer, supplies, the die link's
mirror, and the discrete lines. Completing a forwarded write is in FamLate. -/
namespace Sys2Proof.Machine

/-- An event of the power die, which happens while it is out of its own reset. -/
def State.pdDo (s : State) (f : State → State) : State := if s.pd.on then f s else s

/-! ### Feeds (R472 to R474, R480, R481) -/

/-- Feed n is now valid or not, at this voltage (R472): fault source 96 or 97 when it is lost while the card runs. -/
def State.feedChange (s : State) (n : Nat) (valid : Bool) (mv : Nat) : State :=
  let was := s.pd.valid.testBit n
  let ready := s.hsReady
  let wasReady := was && s.pd.pres.testBit n
  let v := natPut s.pd.valid n n (b2n valid)
  let s : State := { s with pd := { s.pd with valid := v, mv1 := if n = 0 then mv else s.pd.mv1, mv2 := if n = 0 then s.pd.mv2 else mv } }
  s.pdDo fun s =>
    let s := if was && !valid && s.pgood then s.pdRaise (96 + n) else s
    if was = valid then s.feedShow else s.feedsChanged n wasReady ready

def execFeedChange (n : Fin 2) (valid : Bool) (mv : Nat) (s : State) : Host.Outcome State Fault Refusal := finish s (s.feedChange n valid mv)

/-- PRESn_N is now low or high (R476, R480). -/
def State.presenceChange (s : State) (n : Nat) (low : Bool) : State :=
  let was := s.pd.pres.testBit n
  let ready := s.hsReady
  let wasReady := was && s.pd.valid.testBit n
  let seated := if low then s.pd.seated else natPut s.pd.seated n n 0
  let s : State := { s with pd := { s.pd with pres := natPut s.pd.pres n n (b2n low), seated := seated } }
  s.pdDo fun s => if was = low then s else s.feedsChanged n wasReady ready

def execPresenceChange (n : Fin 2) (low : Bool) (s : State) : Host.Outcome State Fault Refusal := finish s (s.presenceChange n low)

/-- R473. -/
def execOringFault (n : Fin 2) (s : State) : Host.Outcome State Fault Refusal :=
  finish s (s.pdDo fun s => (s.hsFault (6 + n)).pdEvent 0x0B (n + 1) [toB (n + 1)])

/-- R474, R475: HSG off, which is no trip. -/
def execOvervoltage (s : State) : Host.Outcome State Fault Refusal :=
  finish s (s.pdDo fun s =>
    let s := ({ s with pd := { s.pd with ov := true } }).hsFault 5
    if s.hs = hsLatched || s.hs = hsCool then s else s.hsGo hsWait)

def execOvervoltageEnd (s : State) : Host.Outcome State Fault Refusal :=
  finish s (s.pdDo fun s =>
    if s.pd.ov then
      let s : State := { s with pd := { s.pd with ov := false } }
      if s.hs = hsWait && s.hsReady then s.hsGo hsCheck else s
    else s)

/-! ### The sequencer (R475 to R479) -/

/-- The debounce has run (R476): a COOL in progress goes on to its end first. -/
def execDebounceEnd (s : State) : Host.Outcome State Fault Refusal :=
  finish s (s.pdDo fun s => if s.hsReady then ({ s with pd := { s.pd with debounced := true } }).hsAdvance else s)

def execRampStart (s : State) : Host.Outcome State Fault Refusal :=
  finish s (s.pdDo fun s => if s.hs = hsCheck then (s.hsGo hsRamp).pdEvent 0x02 0 [] else s)

def execFetShort (s : State) : Host.Outcome State Fault Refusal :=
  finish s (s.pdDo fun s => if s.hs = hsCheck then (s.pdEvent 0x09 0 []).hsLatch 3 else s)

def execEnhancementBegin (s : State) : Host.Outcome State Fault Refusal :=
  finish s (s.pdDo fun s => if s.hs = hsRamp then { s with pd := { s.pd with enh := true } } else s)

def execGateEnhanced (s : State) : Host.Outcome State Fault Refusal :=
  finish s (s.pdDo fun s => if s.hs = hsRamp && s.pd.enh then s.hsGo hsSettle else s)

def execGateNoRise (s : State) : Host.Outcome State Fault Refusal :=
  finish s (s.pdDo fun s => if s.hs = hsRamp then s.hsTrip 2 else s)

/-- R477, R478: the fault timer runs while the limit acts, and an onset withholds a PGOOD not yet released. -/
def execLimitOnset (s : State) : Host.Outcome State Fault Refusal :=
  finish s (s.pdDo fun s =>
    if s.hsDriven then ({ s with pd := { s.pd with held := true } }).pdPut rPD_HS_STATUS fPD_HS_STATUS_in_limit 1 else s)

def execLimitEnd (s : State) : Host.Outcome State Fault Refusal :=
  finish s (s.pdDo fun s => s.pdPut rPD_HS_STATUS fPD_HS_STATUS_in_limit 0)

def execLimitClear (s : State) : Host.Outcome State Fault Refusal :=
  finish s (s.pdDo fun s =>
    if s.pdFlag rPD_HS_STATUS fPD_HS_STATUS_in_limit then s else { s with pd := { s.pd with held := false } })

def execHotswapTrip (s : State) : Host.Outcome State Fault Refusal :=
  finish s (s.pdDo fun s => if s.hsDriven && s.pdFlag rPD_HS_STATUS fPD_HS_STATUS_in_limit then s.hsTrip 0 else s)

/-- R478: PGOOD is released when the settle window completes, so not while a limit has ended less than 1 ms ago; an onset in the same tick comes
first. -/
def execPgoodRelease (s : State) : Host.Outcome State Fault Refusal :=
  finish s (s.pdDo fun s => if s.hs = hsSettle && !s.pdFlag rPD_HS_STATUS fPD_HS_STATUS_in_limit && !s.pd.held then s.hsGo hsOn else s)

def execPgoodLow (s : State) : Host.Outcome State Fault Refusal :=
  finish s (s.pdDo fun s => if s.hs = hsOn then s.hsGo hsSettle else s)

def execCooldownEnd (s : State) : Host.Outcome State Fault Refusal :=
  finish s (s.pdDo fun s =>
    if s.hs = hsCool then
      let s := s.pdPut rPD_HS_STATUS fPD_HS_STATUS_cooldown_left 0
      if s.hsReady && s.pd.debounced && !s.pd.ov then s.hsGo hsCheck else (s.hsGo hsWait).hsAdvance
    else s)

def execRetryClear (s : State) : Host.Outcome State Fault Refusal :=
  finish s (s.pdDo fun s =>
    if s.pd.clearRun then ({ s with pd := { s.pd with clearRun := false } }).pdPut rPD_HS_STATUS fPD_HS_STATUS_retry_count 0 else s)

/-! ### Writes to the power die: sent over the die link, performed at the acknowledgement (R9, R486) -/

def execClearRetries (q : Req) (v : Word) (s : State) : Host.Outcome State Fault Refusal := finish s (s.writeReg q rPD_HS_CMD v (fun _ t => t))
def execPdOtpProgram (q : Req) (v : Word) (s : State) : Host.Outcome State Fault Refusal := finish s (s.writeReg q rPD_OTP_PROG v (fun _ t => t))
def execPdDioSet (q : Req) (g : Fin 4) (v : Word) (s : State) : Host.Outcome State Fault Refusal :=
  finish s (s.writeReg q (rPD_DIO_SET g) v (fun _ t => t))
def execPdDioClr (q : Req) (g : Fin 4) (v : Word) (s : State) : Host.Outcome State Fault Refusal :=
  finish s (s.writeReg q (rPD_DIO_CLR g) v (fun _ t => t))
def execPdDioOutWrite (q : Req) (g : Fin 4) (v : Word) (s : State) : Host.Outcome State Fault Refusal :=
  finish s (s.writeReg q (rPD_DIO_OUT g) v (fun _ t => t))

/-- PD_OTP_PROG.program: the next of 4 rows takes PD_HS_CFG (R471). -/
def otpProg (v : Word) (s : State) : State :=
  if !bitOf v 0 then s
  else if 4 ≤ s.pd.otp.length then s.warn 0xF0
  else
    let s : State := { s with pd := { s.pd with otp := s.pd.otp ++ [s.pdReg rPD_HS_CFG] } }
    s.pdPut rPD_HS_STATUS fPD_HS_STATUS_otp_rows s.pd.otp.length

/-- A write of PD_HS_EXP: it holds feeds off, unless that would leave none conducting. -/
def hsExpWrite (v : Word) (s : State) : State :=
  let off := v.toNat % 4
  if s.pd.valid &&& s.pd.pres &&& (3 - off) = 0 then s.warn 0xF0 else (s.pdSet rPD_HS_EXP (toW off)).feedShow

/-- The write of a register at the power die. -/
def State.pdWrite (s : State) (a : Nat) (v : Word) : State :=
  let p := a / 0x1000
  let off := a % 0x1000
  let g := p - 0xF4
  if a = rFLT_ERRN_CLR then (if bitOf v 0 then s.pdSet rFLT_ERRN 0 else s)
  else if a = rPD_HS_CFG then
    let w := storeWord a (s.pdReg a) v
    s.pdSet a (fldPut w fPD_HS_CFG_vth (min 8 (fldOf w fPD_HS_CFG_vth)))
  else if a = rPD_HS_CMD then (if bitOf v 0 then s.pdPut rPD_HS_STATUS fPD_HS_STATUS_retry_count 0 else s)
  else if a = rPD_HS_EXP then hsExpWrite v s
  else if a = rPD_OTP_PROG then otpProg v s
  else if 0xF4 ≤ p && off = 0x048 then s.outWrite g v.toNat
  else if 0xF4 ≤ p && off = 0x600 then s.outWrite g ((s.pdReg (rPD_DIO_OUT g)).toNat ||| v.toNat % 16)
  else if 0xF4 ≤ p && off = 0x604 then s.outWrite g ((s.pdReg (rPD_DIO_OUT g) &&& ~~~v).toNat)
  else if pdMirrored a && (regDesc p off).isSome then s.pdSet a (storeWord a (s.pdReg a) v)
  else s

/-! ### Supplies (R483 to R485, R318) -/

/-- The supply is supervised: not in L6, which turns every supply of the hub off; a bank's only once its level is set (R483). -/
def State.supervised (s : State) (n : Nat) : Bool :=
  !s.pd.l6 && (n < 2 || (let l := s.get (rPMUX_BANK (n - 2)) fPMUX_BANK_level; l = 1 || l = 2))

/-- The nominal value of a supply, mV (R483). -/
def State.supplyNominal (s : State) (n : Nat) : Nat :=
  if n = 0 then s.pdGet rPD_SUP_VCORE_NOM fPD_SUP_VCORE_NOM_mv
  else if n = 1 || s.get (rPMUX_BANK (n - 2)) fPMUX_BANK_level = 1 then 1800 else 3300

/-- A bank's supply_ok (R318, R484): its GPIO outputs and what they show follow. -/
def State.bankOk (s : State) (c : Nat) (ok : Bool) : State := (s.put (rPMUX_BANK c) fPMUX_BANK_supply_ok (b2n ok)).pinsSeen c (s.gpioIn c)

/-- The bit of supply n in PD_SUP_STATUS, below warning, or below reset 8 higher. -/
def State.supBelow (s : State) (bit : Nat) (b : Bool) : State :=
  s.pdSet rPD_SUP_STATUS (toW (natPut (s.pdReg rPD_SUP_STATUS).toNat bit bit (b2n b)))

/-- R484: for VCORE the reading of R152 that follows is PACE_OUT_OF_TURN. -/
def execSupplyBelowWarning (n : Fin 6) (s : State) : Host.Outcome State Fault Refusal :=
  finish s (s.pdDo fun s =>
    if s.supervised n then
      let s := s.supBelow n true
      if 2 ≤ n.val then s.bankOk (n - 2) false else s
    else s)

/-- R484: the dip has ended above the warning level; `low` is the least sample in mV, none where no sample fell below it. -/
def State.supplyDip (s : State) (n : Nat) (low : Option Nat) (us : Nat) : State :=
  if !bitOf (s.pdReg rPD_SUP_STATUS) n || bitOf (s.pdReg rPD_SUP_STATUS) (n + 8) then s
  else
    let mv := (low.getD (s.supplyNominal n * 95 / 100)) % 2 ^ 16
    let s := (s.supBelow n false).pdOr rPD_SUP_DIP (2 ^ n)
    let s := (s.pdSet (rPD_SUP_LAST n) (toW (mv * 2 ^ 16 + min 65535 us))).pdInc rPD_CNT_DIP
    ((s.pdEvent 0x0C n ([toB n] ++ beBytes 2 mv ++ beBytes 3 us)).pdRaise 105).pdIrq 0xF1 2

def execSupplyDip (n : Fin 6) (low : Option Nat) (us : Nat) (s : State) : Host.Outcome State Fault Refusal :=
  finish s (s.pdDo fun s => s.supplyDip n low us)

/-- R485: the brownout of VCORE (0) or VDD18 (1), to the end of its 10 ms hold. -/
def execBrownout (n : Fin 2) (s : State) : Host.Outcome State Fault Refusal :=
  finish s (s.pdDo fun s =>
    if s.supervised n then
      let s := s.resetCause (2 + n)
      let s := (s.pdOr rPD_RESET_CAUSE (2 ^ (2 + n.val))).pdEvent 0x0D n [toB n]
      (s.supBelow n false).irq 0xF1 3
    else s)

def execViofResetLevel (c : Fin 4) (s : State) : Host.Outcome State Fault Refusal :=
  finish s (s.pdDo fun s =>
    if s.supervised (2 + c) then
      let s := ((s.supBelow (2 + c) true).supBelow (10 + c) true).bankOk c false
      ((s.pdEvent 0x0D (2 + c) [toB (2 + c)]).pdRaise 106).pdIrq 0xF1 3
    else s)

def execBankSupplyOk (c : Fin 4) (s : State) : Host.Outcome State Fault Refusal :=
  finish s (s.pdDo fun s =>
    if s.supervised (2 + c) then ((s.supBelow (2 + c) false).supBelow (10 + c) false).bankOk c true else s)

/-! ### The die link (R486 to R488) -/

/-- The frame that carries an unacknowledged write is sent again; the power die performs the write once. -/
def execPdWriteResend (s : State) : Host.Outcome State Fault Refusal :=
  finish s (match s.pdWrites with
    | w :: _ => if s.flag rPD_LINK_STATUS fPD_LINK_STATUS_silent then s else s.emit (.die w.addr w.value)
    | [] => s)

/-- The words that differ from the power die's, but for those with a write on its way (R487): replaced, counted, source 100. -/
def State.mirrorCompare (s : State) : State :=
  let keys := ((s.regs.map (·.1)) ++ s.pd.regs.map (·.1)).eraseDups.filter (fun a =>
    pdMirrored a && s.reg a != s.pdReg a && !(s.pdWrites.any (fun w => w.addr = a)))
  keys.foldl (fun (s : State) a =>
    ((((s.setReg a (s.pdReg a)).inc rPD_CNT_DISAGREE).irq 0xF2 4).raise 100)) s

/-- One pass of R487; `upset` are mirror words that have changed on the hub die since the last pass. -/
def execMirrorCompare (upset : List (Nat × Word)) (s : State) : Host.Outcome State Fault Refusal :=
  finish s (if s.pdUp && s.pd.on then
      (upset.foldl (fun (s : State) e => if pdMirrored e.1 then s.setReg e.1 (e.2 &&& fieldMask e.1) else s) s).mirrorCompare
    else s)

/-- What a refresh of the mirror shows that the hub had not seen (R498, R520). -/
def State.refreshIrqs (old s : State) : State :=
  let gained := fun (a : Nat) => s.reg a &&& ~~~(old.reg a) != 0
  let s := if s.get rPD_HS_STATUS fPD_HS_STATUS_pgood != old.get rPD_HS_STATUS fPD_HS_STATUS_pgood then s.irq 0xF0 2 else s
  let s := if gained rPD_HS_FAULT then s.irq 0xF0 3 else s
  let s := if s.reg rPD_FEED_STATUS != old.reg rPD_FEED_STATUS then s.irq 0xF0 4 else s
  let s := if gained rPD_SUP_DIP then s.irq 0xF1 2 else s
  let s := if s.get rPD_SUP_STATUS fPD_SUP_STATUS_below_reset != old.get rPD_SUP_STATUS fPD_SUP_STATUS_below_reset then s.irq 0xF1 3 else s
  let s := [0, 1, 2, 3].foldl (fun (s : State) g =>
    let s := if gained (rPD_DIO_EDGE g) then s.irq (0xF4 + g) 2 else s
    if gained (rPD_DIO_DIAG g) then s.irq (0xF4 + g) 3 else s) s
  if gained rFLT_ERRN && s.flag rFLT_ERRN fFLT_ERRN_asserted then s.irq 0x04 12 else s

/-- The link comes up: the mirror is refreshed, the event buffer goes to the ledger, and each pending flag raises its source once
(R482, R488, R494). -/
def State.dieLinkUp (s : State) : State :=
  let back := s.flag rPD_LINK_STATUS fPD_LINK_STATUS_silent
  let s := (s.put rPD_LINK_STATUS fPD_LINK_STATUS_up 1).put rPD_LINK_STATUS fPD_LINK_STATUS_silent 0
  let evts := s.pd.evts
  let pend := s.pd.pend
  let s : State := { s with pd := { s.pd with evts := [], pend := [] } }
  let s := State.refreshIrqs s s.pdRefresh
  let s := evts.foldl (fun (s : State) e => s.stage 0x03 (e.code * 256 + e.arg) e.data (some (s.pdMs - e.ms))) s
  let s := s.pdPut rPD_EVT_STATUS fPD_EVT_STATUS_waiting 0
  let s := pend.foldl (fun (s : State) e => s.raise e.1 e.2) s
  if back then (s.irq 0xF2 3).pdEvent 0x0F 0 [] else s

def execDieLinkRestored (s : State) : Host.Outcome State Fault Refusal :=
  finish s (if s.pd.on && s.pgood && !s.pd.l6 && !s.pdUp then s.dieLinkUp else s)

/-- The registers that the power die measures and pushes every 1 ms (R486). -/
def pdMeasured (a : Nat) : Bool :=
  a = rPD_MEAS_FEED || a = rPD_MEAS_VOUT || a = rPD_MEAS_CURRENT || a = rPD_MEAS_TEMP ||
    (0xF4 ≤ a / 0x1000 && a / 0x1000 ≤ 0xF7 && 0x090 ≤ a % 0x1000 && a % 0x1000 ≤ 0x09C && a % 4 = 0)

/-- A heartbeat or a push arrives, with the measured words it carries; a frame with a CRC error is dropped, and the mirror misses its words
(R486, R497). -/
def State.dieLinkPush (s : State) (crcError : Bool) (words : List (Nat × Word)) : State :=
  if !s.pdUp then s
  else if crcError then
    let s := s.incSat rPD_LINK_STATUS fPD_LINK_STATUS_dropped
    let regs := words.foldl (fun r e => if pdMeasured e.1 then spSet resetWord r e.1 (e.2 &&& fieldMask e.1) else r) s.pd.regs
    let s : State := { s with pd := { s.pd with regs := regs, crc := s.pd.crc + 1 } }
    if s.pd.crc = 17 then s.raise 111 else s
  else words.foldl (fun (s : State) e => if pdMeasured e.1 then s.pdSet e.1 (e.2 &&& fieldMask e.1) else s) s

def execDieLinkPush (crcError : Bool) (words : List (Nat × Word)) (s : State) : Host.Outcome State Fault Refusal :=
  finish s (s.pdDo fun s => s.dieLinkPush crcError words)

def execPdTemperatureHigh (s : State) : Host.Outcome State Fault Refusal := finish s (s.pdDo fun s => s.pdRaise 110)

/-! ### Discrete lines (R489 to R493) -/

/-- A filtered edge of input n (R490). -/
def State.diEdge (s : State) (n : Nat) (level : Bool) : State :=
  let g := n / 4
  let i := n % 4
  if bitOf (s.pdReg (rPD_DIO_IN g)) i = level then s
  else
    let cfg := s.pdReg (rPD_DI_CFG g i)
    let s := s.pdSet (rPD_DIO_IN g) (toW (natPut (s.pdReg (rPD_DIO_IN g)).toNat i i (b2n level)))
    let s := (s.pdOr (rPD_DIO_EDGE g) (2 ^ (if level then i else i + 4))).pdIrq (0xF4 + g) 2
    let s := if (fldOf cfg fPD_DI_CFG_count_edge).testBit (if level then 0 else 1) then
        let s := s.pdInc (rPD_DI_COUNT g i)
        if fldOf cfg fPD_DI_CFG_ledger_en != 0 && (s.pdReg (rPD_DI_COUNT g i)).toNat % 2 ^ fldOf cfg fPD_DI_CFG_ledger_m = 0 then s.diRecord n else s
      else s
    if fldOf cfg fPD_DI_CFG_wake != 0 then s.wakeBy [6] else s

def execDiEdge (n : Fin 16) (level : Bool) (s : State) : Host.Outcome State Fault Refusal := finish s (s.pdDo fun s => s.diEdge n level)

/-- R492. -/
def State.doShort (s : State) (n : Nat) (overtemp : Bool) : State :=
  let g := n / 4
  let i := n % 4
  if !s.outOn g i then s
  else
    let s : State := { s with pd := { s.pd with latched := s.pd.latched ||| 2 ^ n } }
    let s := (s.pdOr (rPD_DIO_DIAG g) (2 ^ (if overtemp then i + 8 else i))).pdIrq (0xF4 + g) 3
    ((s.outShow g).pdEvent 0x10 n [toB n, toB (b2n overtemp)]).pdRaise 107 (0xF4 + g)

def execDoShort (n : Fin 16) (overtemp : Bool) (s : State) : Host.Outcome State Fault Refusal := finish s (s.pdDo fun s => s.doShort n overtemp)

def State.doOpenLoad (s : State) (n : Nat) : State :=
  let g := n / 4
  let i := n % 4
  if s.outOn g i && s.pdFlag (rPD_DO_CFG g i) fPD_DO_CFG_open_det then
    let s := (s.pdOr (rPD_DIO_DIAG g) (2 ^ (i + 4))).pdIrq (0xF4 + g) 3
    (s.pdEvent 0x11 n [toB n]).pdRaise 108 (0xF4 + g)
  else s

def execDoOpenLoad (n : Fin 16) (s : State) : Host.Outcome State Fault Refusal := finish s (s.pdDo fun s => s.doOpenLoad n)

/-- The trigger of event unit u at output i of group g (R240, R493). -/
def State.doTimed (s : State) (u g i : Nat) : State :=
  let w := s.pdReg (rPD_DO_TIMED g i)
  if fldOf w fPD_DO_TIMED_arm = 0 || fldOf w fPD_DO_TIMED_unit != u then s
  else
    let s := (s.pdPut (rPD_DO_TIMED g i) fPD_DO_TIMED_arm 0).pdIrq (0xF4 + g) 4
    if s.pd.latched.testBit (4 * g + i) then s.pdRaise 109 (0xF4 + g)
    else (s.pdSet (rPD_DIO_OUT g) (toW (natPut (s.pdReg (rPD_DIO_OUT g)).toNat i i (fldOf w fPD_DO_TIMED_level)))).outShow g

/-- The trigger of event unit u at every output. -/
def State.doTimedAll (s : State) (u : Nat) : State := s.pdDo fun s => (List.range 16).foldl (fun (s : State) n => s.doTimed u (n / 4) (n % 4)) s

def execDoTimedFire (u : Fin 16) (s : State) : Host.Outcome State Fault Refusal := finish s (s.takeTrig u false fun s => s.doTimedAll u)

/-! ### The power die's own resets (R481, R522, R526) -/

/-- The power die resets, and through it the hub die as by a cold reset of every class. -/
def State.powerDieReset (s : State) (on : Bool) : State :=
  let s := (s.pinsOff).lose .powerDie
  let s : State := { s with pwr := {}, rst := { active := true, cold := true, causes := [0x01] } }
  let s := s.recordCauses.pdReset on
  if on then s.pdStart else s

/-- HOLDCAP falls below 3.0 V while both feeds are lost; the power die stays unpowered until POWER_DIE_RESET ends its reset. -/
def execHoldcapLow (s : State) : Host.Outcome State Fault Refusal :=
  finish s (s.pdDo fun s => if s.hsReady then s else s.powerDieReset false)

/-- The power die's own reset, to its end (R476, R522). -/
def execPowerDieReset (s : State) : Host.Outcome State Fault Refusal := finish s (s.powerDieReset true)

end Sys2Proof.Machine
end

