-- ==== Sys2Proof/Machine/FamPoll.lean ====
section
/-! DEFINITION. The polling engine (R271 to R273, R282). -/
namespace Sys2Proof.Machine

/-- The address of word w of entry i (R271). -/
def State.pollAddr (s : State) (i w : Nat) : Nat := (s.reg rPOLL_TABLE).toNat / 16 * 16 + 16 * i + 4 * w
def State.pollWord (s : State) (i w : Nat) : Nat := (s.word (s.pollAddr i w)).toNat

/-- POLL_COUNT written: more than 1,024 stores 1,024. -/
def pollCountFx (v : Word) (s : State) : State :=
  s.store rPOLL_COUNT (fldPut v fPOLL_COUNT_entries (min 1024 (fldOf v fPOLL_COUNT_entries)))

/-- The engine works (R33, POLL_CTRL). -/
def State.pollRuns (s : State) : Bool := s.enabled 0x6A && s.flag rPOLL_CTRL fPOLL_CTRL_run

/-- Entry i is due at slot count c (R272). -/
def State.pollIsDue (s : State) (i c : Nat) : Bool :=
  let w := s.pollWord i 0
  let k := clampN 8 20 (natBits w 27 23)
  natBits w 31 31 = 1 && c % 2 ^ k = 2 * i % 2 ^ k

/-- An event is pushed, or lost (R273); `route` has bit h for host h. -/
def State.pollEvent (s : State) (route item : Nat) : State :=
  if 64 ≤ s.poll.events.length then ((s.incSat rPOLL_STATUS fPOLL_STATUS_lost).irq 0x6A 3).raise 46
  else
    let old := if bitOf (s.reg (rPG_IRQ_STAT 0x6A)) 2 then s.poll.want else 0
    let s : State := { s with poll := { s.poll with events := s.poll.events ++ [item], want := old ||| route } }
    s.irq 0x6A 2

/-- An event item (R273). -/
def pollItem (value i : Nat) (miss : Bool) (st node : Nat) : Nat :=
  value % 2 ^ 32 * 2 ^ 32 + i % 1024 * 2 ^ 22 + b2n miss * 2 ^ 21 + st % 8 * 2 ^ 18 + node % 2 ^ 18

/-- A miss of entry i with a status (R272, R273). -/
def State.pollMiss (s : State) (i st : Nat) : State :=
  let w := s.pollWord i 0
  let s := s.inc rPOLL_CNT_MISS
  let n := natBits w 22 20 + 1
  let hit := decide (max 1 (s.get rPOLL_CFG fPOLL_CFG_miss_limit) ≤ n)
  let s := s.setWord (s.pollAddr i 0) (toW (natPut w 22 20 (if hit then 0 else n)))
  let s := if hit then s.raise 43 else s
  s.pollEvent (natBits w 30 29) (pollItem 0 i true st (natBits w 17 0))

/-- A poll of entry i leaves (R272): kind 0x6 on flow 0xF200. One to station 255 is refused and nothing is sent (R16): the entry misses, with a
status that is not stated (log entry 4). -/
def State.pollSend (s : State) (i : Nat) : State :=
  let w := s.pollWord i 0
  let node := natBits w 17 0
  if node % 256 = 255 && !s.isThisHub (s.resolveRing node) then s.step1.pollMiss i (1 + s.freeN % 7)
  else
  let p := s.poll
  let t := freeTag (p.outst.length + 1) (p.outst.map Prod.snd) (s.freeN % 65536)
  let s := s.step1
  let s : State := { s with poll := { p with outst := p.outst ++ [(i, t)], seq := (p.seq + 1) % 65536, issued := spSet (fun _ => false) p.issued t true } }
  (s.inc rPOLL_CNT_SENT).present 6 (mkFrame 6 (if natBits w 28 28 = 1 then 1 else 2) 0 0 0 (natBits w 17 0) s.ownNode 0xF200 p.seq
    (reqOctets t 0 false false none 0 0 (s.pollWord i 1) 4 0 []))

/-- The engine's turn at slot count c (R272): what is due joins what is unsent, a slip where it was unsent already; one poll every 2 slots,
lowest index first, and none while input FP6 holds (R147). -/
def State.pollDue (s : State) (c : Nat) : State :=
  if !s.pollRuns then s
  else
    let due := (List.range (min 1024 (s.get rPOLL_COUNT fPOLL_COUNT_entries))).filter (fun i => s.pollIsDue i c)
    let s := due.foldl (fun (s : State) i =>
      if s.poll.unsent.contains i then s.inc rPOLL_CNT_SLIP else { s with poll := { s.poll with unsent := s.poll.unsent ++ [i] } }) s
    let may := !s.portHolds 6 && match s.poll.last with
      | none => true
      | some l => decide (l + 2 ≤ c) || decide (c < l)
    let live := s.poll.unsent.filter (fun i => decide (i < s.get rPOLL_COUNT fPOLL_COUNT_entries) && natBits (s.pollWord i 0) 31 31 = 1)
    let first := live.foldl (fun (b : Option Nat) i => match b with
      | none => some i
      | some x => some (min x i)) none
    match first with
    | some i =>
      if may then
        let s : State := { s with poll := { s.poll with unsent := live.filter (fun x => x != i), last := some c } }
        s.pollSend i
      else s
    | none => { s with poll := { s.poll with unsent := [] } }

/-- A response to a poll: good, or a miss (R272, R273). -/
def State.pollAnswer (s : State) (f : Frame) : State :=
  let p := f.payload
  let tag := beNat (slice p 0 2)
  let st := (nthD p 2 0).toNat % 16
  let n := (nthD p 8 0).toNat
  if p.length < 16 || (st = 0 && (n != 4 || p.length < 20)) then s.raise 41 0x6A
  else match s.poll.outst.find? (fun e => e.2 = tag) with
    | none => if spGet (fun _ => false) s.poll.issued tag then s else s.raise 41 0x6A
    | some e =>
      let i := e.1
      let s : State := { s with poll := { s.poll with outst := s.poll.outst.erase e } }
      if st != 0 then s.pollMiss i st
      else
        let v := leNat (slice p 16 4)
        let w := s.pollWord i 0
        let s := s.setWord (s.pollAddr i 0) (toW (natPut w 22 20 0))
        let m := v &&& s.pollWord i 2
        if m = s.pollWord i 3 then s
        else (s.setWord (s.pollAddr i 3) (toW m)).pollEvent (natBits w 30 29) (pollItem v i false 0 (natBits w 17 0))

/-- The response to a poll at the head of FP6's frames is taken. -/
def State.pollResponse (s : State) : State :=
  match (s.outbox 6).find? (fun d => d.frame.kind = 4 && d.frame.flow = 0xF200) with
  | none => s
  | some d =>
    let s := s.setOutbox 6 ((s.outbox 6).erase d)
    if d.discard || !s.pollRuns then s else s.pollAnswer d.frame

/-- A poll of entry i has had no response within 2^k slots; the status its event carries is not stated: a free value (log entry 4). -/
def State.pollTimeout (s : State) (i : Nat) : State :=
  match s.poll.outst.find? (fun e => e.1 = i) with
  | none => s
  | some e =>
    let st := s.freeN % 8
    let s : State := { s.step1 with poll := { s.poll with outst := s.poll.outst.erase e } }
    if s.pollRuns then s.pollMiss i st else s

/-- An event is popped (R45, R273). -/
def pollEvtPop (s : State) : Option (Nat × State) :=
  match s.poll.events with
  | [] => none
  | t :: rest =>
    let s : State := { s with poll := { s.poll with events := rest } }
    some (t, ((s.setReg rPOLL_EVT_POP_HI (toW (t / 2 ^ 32))).setReg rPOLL_EVT_REPLAY (toW t)).setReg rPOLL_EVT_REPLAY_HI (toW (t / 2 ^ 32)))

def execPollDue (c : Nat) (s : State) : Host.Outcome State Fault Refusal := finish s (s.pollDue c)
def execPollResponse (s : State) : Host.Outcome State Fault Refusal := finish s s.pollResponse
def execPollMiss (i : Fin 1024) (s : State) : Host.Outcome State Fault Refusal := finish s (s.pollTimeout i.val)
def execPollEvtPop (q : Req) (mayPrefetch wide : Bool) (s : State) : Host.Outcome State Fault Refusal :=
  finish s (s.popRead q rPOLL_EVT_POP mayPrefetch wide 0 pollEvtPop)

end Sys2Proof.Machine
end

