-- ==== Sys2Proof/Machine/FamSerial.lean ====
section
/-! DEFINITION. UART, SPI and I2C units (R335 to R359). -/
namespace Sys2Proof.Machine

/-! ### Settings (R335) -/

/-- A configuration register at 0x040 to 0x04F takes writes only while enable = 0 (R335). -/
def State.whileOff (s : State) (p : Nat) (f : State → State) : State :=
  if s.flag (rPG_CTRL p) fPG_CTRL_enable then s.warn p else f s

/-- A write of UART_CFG. -/
def uartCfgFx (n : Nat) (v : Word) (s : State) : State :=
  s.whileOff (0x80 + n) fun s =>
    let b := fldOf v fUART_CFG_data_bits
    let b' := if 5 ≤ b && b ≤ 9 then b else 8
    let clash := b' = 9 && fldOf v fUART_CFG_addr_mode = 1
    let s := s.store (rUART_CFG n) (fldPut v fUART_CFG_data_bits (if clash then 8 else b'))
    if clash then s.warn (0x80 + n) else s
/-- A write of UART_BAUD: div below 8 stores 8. -/
def uartBaudFx (n : Nat) (v : Word) (s : State) : State :=
  s.whileOff (0x80 + n) fun s => s.store (rUART_BAUD n) (fldPut v fUART_BAUD_div (max 8 (fldOf v fUART_BAUD_div)))
/-- A write of UART_DE, UART_ADDR and the other plain settings of a unit. -/
def unitPlainFx (p a : Nat) (v : Word) (s : State) : State := s.whileOff p fun s => s.store a v
/-- A write of UART_BRK: below 13 stores 13. -/
def uartBrkFx (n : Nat) (v : Word) (s : State) : State := s.store (rUART_BRK n) (toW (max 13 (v.toNat % 256)))
/-- A write of SPI_CFG: frame_bits stores the nearest limit. -/
def spiCfgFx (n : Nat) (v : Word) (s : State) : State :=
  s.whileOff (0x98 + n) fun s => s.store (rSPI_CFG n) (fldPut v fSPI_CFG_frame_bits (clampN 4 32 (fldOf v fSPI_CFG_frame_bits)))
/-- A write of IIC_CFG: both roles store target_en = 0. -/
def iicCfgFx (n : Nat) (v : Word) (s : State) : State :=
  s.whileOff (0xA0 + n) fun s =>
    let both := fldOf v fIIC_CFG_controller_en = 1 && fldOf v fIIC_CFG_target_en = 1
    let s := s.store (rIIC_CFG n) (if both then fldPut v fIIC_CFG_target_en 0 else v)
    if both then s.warn (0xA0 + n) else s
/-- A write of IIC_SCL: values below 4 store 4. -/
def iicSclFx (n : Nat) (v : Word) (s : State) : State :=
  s.whileOff (0xA0 + n) fun s =>
    s.store (rIIC_SCL n) (fldPut (fldPut v fIIC_SCL_scl_high (max 4 (fldOf v fIIC_SCL_scl_high))) fIIC_SCL_scl_low (max 4 (fldOf v fIIC_SCL_scl_low)))

/-! ### UART (R341 to R347) -/

/-- The parity of a number's bits. -/
def oddBits : Nat → Nat → Bool
  | 0, _ => false
  | k + 1, n => (n % 2 = 1) != oddBits k (n / 2)

/-- The parity bit that a character should carry: none without parity (UART_CFG.parity; other codes act as 0). -/
def wantParity (mode data : Nat) (addr : Bool) : Option Bool :=
  if mode = 1 then some (oddBits 9 data != addr)
  else if mode = 2 then some !(oddBits 9 data != addr)
  else if mode = 3 then some true
  else if mode = 4 then some false
  else none

/-- A character's item is put in, with its error bits at width 2 or more (R347). -/
def State.uartPut (s : State) (n data : Nat) (par frame brk addr : Bool) : State :=
  let p := 0x80 + n
  let u := s.unit p
  let wide := 2 ≤ s.fqWidth (n / 4) (n % 4)
  let i := if wide then data + b2n addr * 2 ^ 9 + b2n u.overrun * 2 ^ 12 + b2n brk * 2 ^ 13 + b2n frame * 2 ^ 14 + b2n par * 2 ^ 15 else data % 256
  (s.setUnit p { u with overrun := false }).unitItem p i

/-- An error of a received character: its count, the interrupt, and the fault source while err_fault = 1 (R343). -/
def State.uartErr (s : State) (n cnt : Nat) (on : Bool) : State :=
  if on then
    let s := (s.inc cnt).irq (0x80 + n) 3
    if s.flag (rUART_CFG n) fUART_CFG_err_fault then s.unitFault (0x80 + n) else s
  else s

/-- The receiver keeps an item, or loses it when the holding buffer is full (R343). -/
def State.uartKeep (s : State) (n : Nat) (put : State → State) : State :=
  let p := 0x80 + n
  if 4 ≤ s.unitHeld p then
    (((s.inc (rUART_CNT_OVERRUN n)).irq p 3).unitFault p).setUnit p { s.unit p with overrun := true }
  else put s

/-- A character at RXD: its data, address, parity and first stop bit as sampled (R342 to R344). -/
def State.uartRx (s : State) (n data : Nat) (addr par stop : Bool) : State :=
  let p := 0x80 + n
  let cfg := s.reg (rUART_CFG n)
  let u := s.unit p
  if !s.enabled p || fldOf cfg fUART_CFG_rx_en = 0 || !s.routed (n / 4) (0x10 + 4 * (n % 4) + 1) ||
      (u.de && fldOf cfg fUART_CFG_rs485 = 1 && fldOf cfg fUART_CFG_echo_off = 1) then s
  else
    let addrMode := fldOf cfg fUART_CFG_addr_mode = 1
    let data := data % 2 ^ fldOf cfg fUART_CFG_data_bits
    let addr := addr && addrMode
    let want := wantParity (fldOf cfg fUART_CFG_parity) data addr
    let par := par && want.isSome
    let s := s.inc (rUART_CNT_RX_CHARS n)
    if data = 0 && !addr && !par && !stop then
      let s := (s.inc (rUART_CNT_BREAK n)).irq p 2
      let s := s.setUnit p { s.unit p with brk := true }
      (s.uartKeep n fun s => s.uartPut n 0 false false true false).unitRelease p true
    else
      let s := s.setUnit p { s.unit p with brk := false }
      let parErr := want.any (fun w => w != par)
      let s := (s.uartErr n (rUART_CNT_PARITY n) parErr).uartErr n (rUART_CNT_FRAMING n) (!stop)
      let filter := fldOf cfg fUART_CFG_addr_filter = 1
      let match_ := (data % 256) ^^^ s.get (rUART_ADDR n) fUART_ADDR_addr
      let hit := addr && match_ &&& s.get (rUART_ADDR n) fUART_ADDR_mask = 0
      let s := if filter && addr then (s.unitRelease p true).setUnit p { (s.unitRelease p true).unit p with pass := hit } else s
      let s := if filter && hit then s.irq p 5 else s
      if filter && !(s.unit p).pass then s.inc (rUART_CNT_FILTERED n)
      else s.uartKeep n fun s => s.uartPut n data parErr (!stop) false addr

def execUartRxChar (n : Fin 16) (data : Nat) (addr par stop : Bool) (s : State) : Host.Outcome State Fault Refusal :=
  finish s (s.onField fun s => s.uartRx n data addr par stop)

/-- idle_bits of mark after a stop bit end the packet (R344). -/
def State.uartIdle (s : State) (n : Nat) : State :=
  if s.enabled (0x80 + n) && s.get (rUART_CFG n) fUART_CFG_idle_bits != 0 then s.unitRelease (0x80 + n) true else s

def execUartIdleEnd (n : Fin 16) (s : State) : Host.Outcome State Fault Refusal := finish s (s.onField fun s => s.uartIdle n)

/-- The transmitter sends the next character of a committed word, DE active first with rs485 = 1; after an end mark it waits for DE (R345). -/
def State.uartTx (s : State) (n : Nat) : State :=
  let p := 0x80 + n
  let cfg := s.reg (rUART_CFG n)
  let rs := fldOf cfg fUART_CFG_rs485 = 1
  let u := s.unit p
  if !s.enabled p || fldOf cfg fUART_CFG_tx_en = 0 || !s.fqHasTx (n / 4) (n % 4) || (rs && u.de && u.lastEnd) then s
  else
    let r := s.fqTake (n / 4) (n % 4)
    let data := r.1.item % 2 ^ fldOf cfg fUART_CFG_data_bits
    let addr := fldOf cfg fUART_CFG_addr_mode = 1 && r.1.item.testBit 9
    let s := r.2.setUnit p { u with de := rs, lastEnd := r.1.last }
    (s.inc (rUART_CNT_TX_CHARS n)).emit (.uart n data addr)

def execUartTxChar (n : Fin 16) (s : State) : Host.Outcome State Fault Refusal := finish s (s.onField fun s => s.uartTx n)

/-- DE goes inactive de_hold after the last stop bit, when no word is committed or the last character carried the end mark (R345). -/
def State.uartRelease (s : State) (n : Nat) : State :=
  let p := 0x80 + n
  let u := s.unit p
  if u.de && (u.lastEnd || !s.fqHasTx (n / 4) (n % 4)) then
    let s := s.setUnit p { u with de := false, lastEnd := false }
    if u.lastEnd then s.irq p 4 else s
  else s

def execUartDeRelease (n : Fin 16) (s : State) : Host.Outcome State Fault Refusal := finish s (s.onField fun s => s.uartRelease n)

/-- A write of UART_CMD: bit 0 holds TXD low for brk_bits bit times, DE active with rs485 = 1 (R346). -/
def uartCmdFx (n : Nat) (v : Word) (s : State) : State :=
  let p := 0x80 + n
  if bitOf v 0 then
    let u := s.unit p
    let rs := s.flag (rUART_CFG n) fUART_CFG_rs485
    (s.setUnit p { u with de := rs, lastEnd := false }).emit (.uartBreak n (s.get (rUART_BRK n) fUART_BRK_brk_bits))
  else s

def execUartSendBreak (q : Req) (n : Fin 16) (v : Word) (s : State) : Host.Outcome State Fault Refusal :=
  finish s (s.writeReg q (rUART_CMD n) v (uartCmdFx n))

/-- UART_STATUS. -/
def State.uartStatus (s : State) (n : Nat) : Nat :=
  let u := s.unit (0x80 + n)
  let rxd := s.inputLevel (n / 4) (0x10 + 4 * (n % 4) + 1) true
  s.unitHeld (0x80 + n) * 2 ^ 8 + b2n (u.brk && !rxd) * 16 + b2n rxd * 8 + b2n u.de * 4

/-! ### SPI (R348 to R352) -/

def spiQ (n : Nat) : Nat := 4 + n % 2

/-- The controller ends its packet: CS released (R349). -/
def State.spiEnd (s : State) (n : Nat) : State :=
  let p := 0x98 + n
  ((s.setUnit p { s.unit p with cs := none, inPacket := false, waiting := false }).inc (rSPI_CNT_PACKETS n)).irq p 2

/-- The bits of a frame in the order of the line, the first as the most significant; an item in the line's order or the line's bits as an item:
least significant bit first reverses them (R348, log entry 45). -/
def State.spiOrder (s : State) (n v : Nat) : Nat :=
  let bits := s.get (rSPI_CFG n) fSPI_CFG_frame_bits
  if s.flag (rSPI_CFG n) fSPI_CFG_lsb_first then (List.range bits).foldl (fun w b => 2 * w + b2n (v.testBit b)) 0 else v % 2 ^ bits

/-- One frame of the controller on the wire: what it sends, and the value that MISO gave (R348, R349, R352). -/
def State.spiShift (s : State) (n send miso : Nat) (last : Bool) : State :=
  let p := 0x98 + n
  let u := s.unit p
  let bits := s.get (rSPI_CFG n) fSPI_CFG_frame_bits
  let cs := u.cs.getD (s.get (rSPI_CFG n) fSPI_CFG_cs)
  let s := s.setUnit p { u with cs := some cs, waiting := false }
  let s := (s.emit (.spi n cs bits (s.spiOrder n send))).inc (rSPI_CNT_FRAMES n)
  let got := if s.routed (n / 2) (0x20 + 8 * (n % 2) + 2) then s.spiOrder n miso else 0
  let s := if s.flag (rSPI_CFG n) fSPI_CFG_rx_en then s.fqProduce (n / 2) (spiQ n) got last else s
  if last then s.spiEnd n else s

/-- The controller's next frame, when it holds an item and a credit; it pauses otherwise (R349, R350). -/
def State.spiFrame (s : State) (n miso : Nat) : State :=
  let p := 0x98 + n
  let u := s.unit p
  let credit := !s.flag (rSPI_CFG n) fSPI_CFG_rx_en || (s.fq (n / 2) (spiQ n)).credits != 0
  if !s.enabled p || s.flag (rSPI_CFG n) fSPI_CFG_target then s
  else if u.count != 0 && !u.inPacket then
    if !credit then s.setUnit p { u with waiting := u.cs.isSome }
    else
      let send := (s.reg (rFQ_IDLE (n / 2) (spiQ n))).toNat
      let s := s.setUnit p { u with count := u.count - 1 }
      let s := s.spiShift n send miso (u.count = 1 && u.countEnd)
      if u.count = 1 then s.irq p 4 else s
  else if !credit || !s.fqHasTx (n / 2) (spiQ n) then s.setUnit p { u with waiting := u.cs.isSome }
  else
    let r := s.fqTake (n / 2) (spiQ n)
    let s := r.2.setUnit p { u with inPacket := true }
    s.spiShift n r.1.item miso r.1.last

def execSpiFrame (n : Fin 8) (miso : Nat) (s : State) : Host.Outcome State Fault Refusal := finish s (s.onField fun s => s.spiFrame n miso)

/-- A write of SPI_CMD (R350). -/
def spiCmdFx (n : Nat) (v : Word) (s : State) : State :=
  let p := 0x98 + n
  let u := s.unit p
  let k := fldOf v fSPI_CMD_count
  if u.count != 0 then s.warn p
  else if k = 0 then s
  else s.setUnit p { u with count := k, countEnd := fldOf v fSPI_CMD_end = 1 }

def execSpiCount (q : Req) (n : Fin 8) (v : Word) (s : State) : Host.Outcome State Fault Refusal :=
  finish s (s.writeReg q (rSPI_CMD n) v (spiCmdFx n))

/-- A complete frame at the target: one item goes out, the idle item from an empty queue, and one comes in or is lost (R351). -/
def State.spiTarget (s : State) (n mosi : Nat) : State :=
  let p := 0x98 + n
  let base := 0x20 + 8 * (n % 2)
  if !s.enabled p || !s.flag (rSPI_CFG n) fSPI_CFG_target || !s.routed (n / 2) (base + 3) then s
  else
    let bits := s.get (rSPI_CFG n) fSPI_CFG_frame_bits
    let r := s.fqTake (n / 2) (spiQ n)
    let s := r.2.setUnit p { r.2.unit p with cs := some 0 }
    let s := if r.1.idle then ((s.inc (rSPI_CNT_UNDERRUN n)).irq p 3).unitFault p else s
    let s := (s.emit (.spi n 0 bits (s.spiOrder n r.1.item))).inc (rSPI_CNT_FRAMES n)
    let got := if s.routed (n / 2) (base + 1) then s.spiOrder n mosi else 0
    if !s.flag (rSPI_CFG n) fSPI_CFG_rx_en then s
    else if 4 ≤ s.unitHeld p then ((s.inc (rSPI_CNT_OVERRUN n)).irq p 3).unitFault p
    else s.unitItem p got

def execSpiTargetFrame (n : Fin 8) (mosi : Nat) (s : State) : Host.Outcome State Fault Refusal := finish s (s.onField fun s => s.spiTarget n mosi)

/-- CS0 is released at the target: a partial frame is discarded and the packet ends (R351). -/
def State.spiRelease (s : State) (n : Nat) (part : Bool) : State :=
  let p := 0x98 + n
  if !s.enabled p || !s.flag (rSPI_CFG n) fSPI_CFG_target then s
  else
    let s := if part then s.inc (rSPI_CNT_ABORTED n) else s
    if (s.unit p).cs.isSome then
      let s := s.unitRelease p true
      ((s.setUnit p { s.unit p with cs := none }).inc (rSPI_CNT_PACKETS n)).irq p 2
    else s

def execSpiCsRelease (n : Fin 8) (part : Bool) (s : State) : Host.Outcome State Fault Refusal := finish s (s.onField fun s => s.spiRelease n part)

/-- SPI_STATUS. -/
def State.spiStatus (s : State) (n : Nat) : Nat :=
  let u := s.unit (0x98 + n)
  s.unitHeld (0x98 + n) * 2 ^ 8 + u.cs.getD 0 * 16 + b2n u.waiting * 4 + b2n u.cs.isSome * 2 + b2n (u.inPacket || u.count != 0)

/-! ### I2C controller (R353 to R356, R358, R359) -/

def iicQ (n : Nat) : Nat := 6 + n % 2

/-- The controller sends STOP if it holds the bus. -/
def State.iicStop (s : State) (n : Nat) : State :=
  let p := 0xA0 + n
  if (s.unit p).bus then (s.setUnit p { s.unit p with bus := false }).emit (.i2c n 3 0) else s

/-- A packet's transaction ends with a status (R356): its status item, counts, interrupts and fault; `more` while commands of the packet are
still to come, which are then discarded. -/
def State.iicEnd (s : State) (n status : Nat) (more : Bool) : State :=
  let p := 0xA0 + n
  let s := if status = 2 || status = 3 then (s.inc (rIIC_CNT_NACK n)).irq p 3
    else if status = 4 then (s.inc (rIIC_CNT_ARB_LOST n)).irq p 3
    else if status = 5 then (s.inc (rIIC_CNT_BUS_ERR n)).irq p 4
    else if status = 6 then s.irq p 4 else s
  let s := if 5 ≤ status then s.unitFault p else s
  let s := if status = 4 then s.setUnit p { s.unit p with bus := false } else if status = 1 then s else s.iicStop n
  let s := s.fqProduce (n / 2) (iicQ n) (status * 2 ^ 12) true
  (s.setUnit p { s.unit p with inPacket := false, skip := more }).irq p 2

/-- The controller carries out its next command item (R355, R356). `data` is what a READ received. -/
def State.iicCommand (s : State) (n : Nat) (b : IicBus) (data : Nat) : State :=
  let p := 0xA0 + n
  let u := s.unit p
  let c := n / 2
  if !s.enabled p || !s.flag (rIIC_CFG n) fIIC_CFG_controller_en || !s.fqHasTx c (iicQ n) || 4 ≤ (s.fq c (iicQ n)).hold.length then s
  else
    let r := s.fqTake c (iicQ n)
    let i := r.1.item
    let last := r.1.last
    let s := r.2
    if u.skip then
      let s := s.inc (rIIC_CNT_DISCARD n)
      if last then s.setUnit p { u with skip := false } else s
    else
      let op := i / 2 ^ 13 % 8
      let good := op ≤ 3 && (u.inPacket || op = 2) && (u.bus || op = 2)
      let s := s.setUnit p { u with inPacket := true }
      if !good then s.iicEnd n 7 (!last)
      else
        let s := if op = 2 then (s.setUnit p { s.unit p with bus := true }).emit (.i2c n 2 (i % 256))
          else if op = 0 then s.emit (.i2c n 0 (i % 256))
          else if op = 1 then s.emit (.i2c n (if i.testBit 8 then 4 else 1) 0)
          else s
        if b = .lost then s.iicEnd n 4 (!last)
        else if b = .error then s.iicEnd n 5 (!last)
        else if b = .nack && op = 2 then s.iicEnd n 2 (!last)
        else if b = .nack && op = 0 then s.iicEnd n 3 (!last)
        else
          let s := if op = 1 then s.fqProduce c (iicQ n) (data % 256) false else if op = 3 then s.iicStop n else s
          if last then s.iicEnd n 1 false else s

def execI2cCommand (n : Fin 8) (b : IicBus) (data : Nat) (s : State) : Host.Outcome State Fault Refusal := finish s (s.onField fun s => s.iicCommand n b data)

/-- SCL has been held low longer than timeout, in either role (R356, R359). -/
def State.iicTimeout (s : State) (n : Nat) : State :=
  let p := 0xA0 + n
  if !s.enabled p || s.get (rIIC_TIME n) fIIC_TIME_timeout = 0 then s
  else
    let s := s.inc (rIIC_CNT_TIMEOUT n)
    if (s.unit p).inPacket then s.iicEnd n 6 true else s.irq p 4

def execI2cSclTimeout (n : Fin 8) (s : State) : Host.Outcome State Fault Refusal := finish s (s.onField fun s => s.iicTimeout n)

/-- A write of IIC_CMD (R359): bit 0 clears the bus, unless the unit holds it, and has failed while SDA is still low; bit 1 sends STOP if the unit
holds the bus. -/
def iicCmdFx (n : Nat) (v : Word) (s : State) : State :=
  let p := 0xA0 + n
  let s := if bitOf v 0 && !(s.unit p).bus then
      let s := s.emit (.i2c n 5 0)
      if s.inputLevel (n / 2) (0x30 + 2 * (n % 2) + 1) true then s
      else ((s.inc (rIIC_CNT_BUS_ERR n)).irq p 4).unitFault p
    else s
  if bitOf v 1 then s.iicStop n else s

def execI2cBusClear (q : Req) (n : Fin 8) (v : Word) (s : State) : Host.Outcome State Fault Refusal :=
  finish s (s.writeReg q (rIIC_CMD n) v (iicCmdFx n))
def execI2cRelease (q : Req) (n : Fin 8) (v : Word) (s : State) : Host.Outcome State Fault Refusal :=
  finish s (s.writeReg q (rIIC_CMD n) v (fun v s => iicCmdFx n v s))

/-! ### I2C target (R357, R358) -/

/-- The target sends a transmit item; without one it stretches, or at its limit sends the idle item's low octet (R357). -/
def State.iicSend (s : State) (n : Nat) (limit : Bool) : State :=
  let p := 0xA0 + n
  let c := n / 2
  if s.fqHasTx c (iicQ n) then
    let r := s.fqTake c (iicQ n)
    (r.2.setUnit p { r.2.unit p with stretch := 0 }).emit (.i2c n 0 (r.1.item % 256))
  else if limit then
    let s := s.setUnit p { s.unit p with stretch := 0 }
    ((s.inc (rIIC_CNT_T_UNDERRUN n)).unitFault p).emit (.i2c n 0 ((s.reg (rFQ_IDLE c (iicQ n))).toNat % 256))
  else s.setUnit p { s.unit p with stretch := 2 }

/-- The target takes a received item, given a credit; without one it stretches, or at its limit NACKs the byte (R357). The answer says whether
the item was taken. -/
def State.iicTake (s : State) (n item : Nat) (limit : Bool) : Bool × State :=
  let p := 0xA0 + n
  let x := s.fq (n / 2) (iicQ n)
  if x.hold = [] && x.credits != 0 then
    let s := s.setUnit p { s.unit p with stretch := 0 }
    (true, (s.unitItem p item).emit (.i2c n 1 0))
  else if limit then
    let s := s.setUnit p { s.unit p with stretch := 0 }
    (false, ((s.inc (rIIC_CNT_T_OVERRUN n)).unitFault p).emit (.i2c n 4 0))
  else (false, s.setUnit p { s.unit p with stretch := 1 })

/-- A byte at the target. While it stretches, the same byte comes again once the queue can serve it. -/
def State.iicTarget (s : State) (n : Nat) (e : IicTgt) : State :=
  let p := 0xA0 + n
  let limit := s.get (rIIC_CFG n) fIIC_CFG_stretch_limit = 0
  if !s.enabled p || !s.flag (rIIC_CFG n) fIIC_CFG_target_en then s
  else match e with
    | .address restart byte =>
      let gc := byte = 0 && s.flag (rIIC_CFG n) fIIC_CFG_general_call
      if !gc && byte / 2 % 128 != s.get (rIIC_CFG n) fIIC_CFG_taddr then s.setUnit p { s.unit p with addressed := false }
      else
        let r := s.iicTake n (byte % 256 + 2 ^ 8 + b2n gc * 2 ^ 9 + b2n restart * 2 ^ 10) limit
        if !r.1 then r.2
        else
          let s := (r.2.setUnit p { r.2.unit p with addressed := true }).irq p 5
          if byte % 2 = 1 then s.iicSend n limit else s
    | .written byte => if (s.unit p).addressed then (s.iicTake n (byte % 256) limit).2 else s
    | .answered ack => if (s.unit p).addressed && ack then s.iicSend n limit else s

def execI2cTargetByte (n : Fin 8) (e : IicTgt) (s : State) : Host.Outcome State Fault Refusal := finish s (s.onField fun s => s.iicTarget n e)

/-- stretch_limit passes while the target stretches: without a credit it NACKs the byte, without an item it sends the idle octet (R357). -/
def State.iicLimit (s : State) (n : Nat) : State :=
  let p := 0xA0 + n
  let u := s.unit p
  if u.stretch = 1 then (((s.setUnit p { u with stretch := 0 }).inc (rIIC_CNT_T_OVERRUN n)).unitFault p).emit (.i2c n 4 0)
  else if u.stretch = 2 then s.iicSend n true
  else s

def execI2cStretchLimit (n : Fin 8) (s : State) : Host.Outcome State Fault Refusal := finish s (s.onField fun s => s.iicLimit n)

/-- A STOP on the bus ends the target's packet (R357). -/
def State.iicTargetStop (s : State) (n : Nat) : State :=
  let p := 0xA0 + n
  let had := (s.unit p).pend.isSome
  let s := s.unitRelease p true
  let s := s.setUnit p { s.unit p with addressed := false, stretch := 0 }
  if had then s.irq p 2 else s

def execI2cTargetStop (n : Fin 8) (s : State) : Host.Outcome State Fault Refusal :=
  finish s (if s.fieldRuns && s.enabled (0xA0 + n) && s.flag (rIIC_CFG n) fIIC_CFG_target_en then s.iicTargetStop n else s)

/-- IIC_STATUS. The bus is busy while the unit holds it, is addressed, or a line is low. -/
def State.iicStatus (s : State) (n : Nat) : Nat :=
  let u := s.unit (0xA0 + n)
  let sda := s.inputLevel (n / 2) (0x30 + 2 * (n % 2) + 1) true
  let scl := s.inputLevel (n / 2) (0x30 + 2 * (n % 2)) true
  b2n sda * 32 + b2n scl * 16 + b2n u.addressed * 8 + b2n (u.stretch != 0) * 4 + b2n u.bus * 2 + b2n (u.bus || u.addressed || !sda || !scl)

end Sys2Proof.Machine
end

