-- ==== Sys2Proof/Machine/FamTtb.lean ====
section
/-! DEFINITION. The timetable rows (R185 to R213) and the choice that a transmitter makes at each slot start (R60, R70, R196 to R198). -/
namespace Sys2Proof.Machine

/-! ### Distribution and reception (R187 to R192) -/

/-- The effect slot count of a commanded distribution (R189): the first period boundary at least 2^18 slots ahead, a boundary of the
image's period and of the active table's. -/
def State.effectSlot (s : State) (x : Nat) : Nat :=
  let n := min 16 (s.byte ((s.reg (rTTB_SRC x)).toNat + 6)).toNat
  let p := 2 ^ max n (if s.ttValid x then s.get (rTTB_STATUS x) fTTB_STATUS_n else 0)
  (s.slot + 2 ^ 18 + p - 1) / p * p % 2 ^ 20

/-- A write of TTB_CMD (R189, R213): distribute on each ring whose master this hub is. -/
def ttbCmdFx (v : Word) (s : State) : State :=
  [0, 1].foldl (fun s x => if bitOf v x && s.rcState x = rcMaster then s.distribute x (s.effectSlot x) else s) s

def execTtbDistribute (q : Req) (v : Word) (s : State) : Host.Outcome State Fault Refusal := finish s (s.writeReg q rTTB_CMD v ttbCmdFx)

/-- The first entry of attachment x's inbox that carries a code is taken. -/
def State.takeInbox (s : State) (x code : Nat) : State :=
  let c := s.rc x
  match c.inbox.find? (fun m => (nthD m.payload 0 0).toNat = code) with
  | none => s
  | some m => s.setRc x { c with inbox := c.inbox.erase m }

def execTableReceived (x : Fin 2) (id n stations effect no count : Nat) (crc : Word) (data : List Byte) (s : State) :
    Host.Outcome State Fault Refusal :=
  finish s ((s.takeInbox x 0x17).tableFragment x id n stations effect no count crc data)

def execTableEffect (x : Fin 2) (s : State) : Host.Outcome State Fault Refusal := finish s (if s.enabled 0x38 then s.tableEffect x else s)

/-! ### The class 0 transmit store (R196, R197) -/

def TtbSt.store (t : TtbSt) (p : Nat) : List (Nat × Queued) := if p = 0 then t.store0 else t.store1
def State.setStore (s : State) (x p : Nat) (l : List (Nat × Queued)) : State :=
  let t := s.ttb x
  s.setTtb x (if p = 0 then { t with store0 := l } else { t with store1 := l })

/-- The oldest frame delivered at ring output o is written to the transmit store, or discarded as R196 and R197 state. -/
def State.class0Store (s : State) (o : Nat) : State :=
  match s.outbox o with
  | [] => s
  | d :: rest =>
    let s := s.setOutbox o rest
    let x := o / 2
    let p := o % 2
    let f := d.frame.flow
    let e := s.ent f
    if entState e != 1 || !entEnabled e then s.discardCells d.inp d.frame.cells
    else
      let k := entSlot e
      let st := (s.ttb x).store p
      let limit := ((sends ((s.ctxList k).getD [])).filter (fun a => a.att = x)).length
      if s.ctxReadmit k then s.inc (rTTB_CNT_READMIT_DROP x)
      else if limit ≤ (st.filter (fun a => a.1 = f)).length then (s.inc (rTTB_CNT_OVERRUN x)).cntCtx k 0x6C 1
      else s.setStore x p (st ++ [(f, { frame := d.frame, tail := .clean, crc := d.frame.trailer })])

def execClass0Store (o : Fin 4) (s : State) : Host.Outcome State Fault Refusal := finish s (s.class0Store o)

/-! ### The slot start (R60, R70, R90, R197, R198) -/

/-- The SLOT set that block 0 of an empty slot carries: the slot count, and ring_ready in MASTER and MEMBER alone (R54, R90). -/
def State.slotValue (s : State) (x slot : Nat) : Nat :=
  slot % 2 ^ 20 + b2n ((s.rcState x = rcMaster || s.rcState x = rcMember) && s.flag (rRCTL_STATUS x) fRCTL_STATUS_ring_ready) * 2 ^ 20

/-- The TRAIN set that a port sends (R54). -/
def State.trainOut (s : State) (x p : Nat) (ack ready : Bool) : OrdSet := Train.ordSet ⟨s.quarter x, 1, p, ack, ready⟩

/-- What a port sends in a slot in which no frame leaves: in UP an empty slot, in the other states what R76 lists; PRBS31 in place of all
blocks while RGA_PORT_TEST asks for it (R83). -/
def State.quietSlot (s : State) (x p slot : Nat) : Option Lane :=
  let st := s.portState x p
  if st < pWake then none
  else if bitOf (s.reg (rRGA_PORT_TEST x p)) 0 then some .prbs
  else if st = pWake then some (.train (s.trainOut x p false false) none)
  else if st = pLock then some (.train (s.trainOut x p (s.port x p).peerSeen false) none)
  else if st = pAlign then some (.train (s.trainOut x p true true) (some (.slot (s.slotValue x slot))))
  else if st = pUp then some (.empty (s.slotValue x slot))
  else if s.flag (rRGA_PORT_STATE x p) fRGA_PORT_STATE_block_lock then some .idles
  else some .fault

/-- The quiet slot of a port goes on its lane. -/
def State.sendQuiet (s : State) (x p slot : Nat) : State :=
  match s.quietSlot x p slot with
  | some l => s.emit (.lane x p l)
  | none => s

/-- The next local frame of classes 1 to 3 by R198, from among the oldest of each class whose slots from this one on are unreserved: class 3
first when it has waited through bulk_gap slots. -/
def State.nextLocal (s : State) (x p slot : Nat) : Option Queued :=
  let q := (s.port x p).localQ
  let of (c : Nat) : Option Queued := (q.find? (fun e => e.frame.cls = c)).filter (fun e => s.unreserved x slot e.frame.slots)
  let gap := max 1 (s.get rTTB_CFG fTTB_CFG_bulk_gap)
  if gap ≤ (s.port x p).bulkWait && (of 3).isSome then of 3
  else ((of 1).orElse (fun _ => of 2)).orElse (fun _ => of 3)

/-- Item 5 of R70: a local frame of classes 1 to 3. Before its ring is ready a hub starts one in at most one slot of every eight (R60); while
missed = 1 it starts none (R192). -/
def State.pickLocal (s : State) (x p slot : Nat) : Option Queued × State :=
  let ready := s.flag (rRCTL_STATUS x) fRCTL_STATUS_ring_ready
  let pt := s.port x p
  if s.ttMissed x || (!ready && 0 < pt.fresh) then (none, s)
  else match s.nextLocal x p slot with
    | none => (none, s)
    | some e =>
      let bulk := (pt.localQ.find? (fun c => c.frame.cls = 3)).any (fun c => s.unreserved x slot c.frame.slots)
      (some e, s.setPort x p { pt with localQ := pt.localQ.erase e, fresh := if ready then 0 else 8,
                                       bulkWait := if e.frame.cls = 3 then 0 else if bulk then pt.bulkWait + 1 else pt.bulkWait })

/-- The frame that a port would start in a slot, taken from where it waits: by R197 the class 0 frame of the calendar entry that begins here,
else from the transit buffer, else a local frame (R70 items 3 and 5). -/
def State.pick (s : State) (x p slot : Nat) : Option Queued × State :=
  let k := slot % s.ttPeriod x
  match (if s.ttValid x then (s.calendar x).find? (fun e => e.slot = k) else none) with
  | some e =>
    let st := (s.ttb x).store p
    (match (if s.ctxReadmit e.ctx then none else st.find? (fun a => a.1 = s.ctxFlow e.ctx)) with
      | some a => (some a.2, s.setStore x p (st.erase a))
      | none => (none, s.inc (rTTB_CNT_EMPTY x)))
  | none =>
    match (s.port x p).transit with
    | t :: rest =>
      if s.unreserved x slot t.frame.slots then (some t, (s.setPort x p { s.port x p with transit := rest }).showTransit x p)
      else (none, s)
    | [] => s.pickLocal x p slot

/-- A frame as it leaves a port at an instant `sub` ns after the last tick: the time that it has waited is added to its correction (R68, R226);
a DELAY_RESP carries its send stamp (R88, R96). -/
def State.leaving (s : State) (x p sub : Nat) (e : Queued) : Queued :=
  let tx := s.txStamp x p sub
  let f := e.frame
  let since := match e.since with
    | some t => some t
    | none => if f.kind = 7 then some ((beNat (slice f.payload 4 8) : Int) * 10) else none
  match since with
  | some t => { e with frame := (f.addCorrection ((tx - t) / 10 * 65536)).seal, since := none }
  | none =>
    if f.kind = 8 && nthD f.payload 0 0 = 0x06 then
      let f := { f with payload := patchAt f.payload 16 (beBytes 8 (toTwos 64 (tx / 10))) }
      { e with frame := f, crc := f.trailer }
    else e

/-- A frame starts in this slot, or is wrapped or discarded where the port cannot send it (R108). A class 0 frame sent counts once for its
twins; the send stamp of a DELAY_REQ for this port's link is kept (R96). -/
def State.startSlot (s : State) (x p slot sub : Nat) (e : Queued) : State :=
  if s.mayLeave x p e.frame then
    let q := s.leaving x p sub e
    let f := q.frame
    let s := if f.cls = 0 && (p = 0 || !s.canSend x 0) then s.inc (rTTB_CNT_SENT x) else s
    let s := if f.kind = 8 && nthD f.payload 0 0 = 0x05 && (nthD f.payload 4 0).toNat = arrivalPath p then
        s.setPort x p { s.port x p with reqAt := some (s.servo.island + sub) } else s
    s.startFrame x p f q.crc q.tail
  else (s.wrap x p e).sendQuiet x p slot

/-- The slot that begins at a port is noted; the slot count of the hub follows the ring it takes it from (R12). Of the eight slots that R60
counts one more is over. -/
def State.noteSlot (s : State) (x p slot : Nat) : State :=
  let s := s.setPort x p { s.port x p with slotAt := some slot, fresh := (s.port x p).fresh - 1 }
  if x = s.timeAtt && s.flag (rRCTL_STATUS x) fRCTL_STATUS_ring_ready then { s with slot := s.slot / 2 ^ 20 * 2 ^ 20 + slot % 2 ^ 20 } else s

/-- The bank swap that TTB_EXP_SWAP asked for takes place at its period boundary (R213). -/
def State.swapDue (s : State) (x slot : Nat) : State :=
  match (s.ttb x).swap with
  | some e =>
    if notBefore e slot then s.activate x (s.get (rTTB_STATUS x) fTTB_STATUS_table_id) (s.swapN x) else s
  | none => s

/-- A slot begins at port p of ring x, `sub` ns after the last tick (R70). -/
def State.slotFill (s : State) (x p slot sub : Nat) : State :=
  let s := (s.noteSlot x p slot).swapDue x slot
  let pt := s.port x p
  if pWake ≤ s.portState x p && bitOf (s.reg (rRGA_PORT_TEST x p)) 0 then s.sendQuiet x p slot
  else if 0 < pt.inProgress then (s.setPort x p { pt with inProgress := pt.inProgress - 1 }).emit (.lane x p .cont)
  else
    let r := s.pick x p slot
    match r.1 with
    | some e => r.2.startSlot x p slot sub e
    | none => r.2.sendQuiet x p slot

def execSlotFill (x p : Fin 2) (slot : Nat) (sub : Fin 4) (s : State) : Host.Outcome State Fault Refusal := finish s (s.slotFill x p slot sub)

/-! ### The memory window and the log (R185, R195, R199, R213) -/

/-- A slot-list entry lies within the list of an enabled flow (R195). -/
def State.listInUse (s : State) (e : Nat) : Bool :=
  s.timedFlows.any (fun kf =>
    let b := s.ctx kf.1 0x1C 31 16
    b ≤ e && e < b + ((s.ctxList kf.1).getD []).length)

/-- A write of a word of timetable memory through the window (R185, R195, R213). -/
def State.ttWrite (s : State) (v : Word) : State :=
  let a := (s.reg rTTB_MEM_ADDR).toNat % 2 ^ 19 / 4 * 4
  let bw := s.flag rTTB_EXP fTTB_EXP_bank_write
  let inactive (x bank : Nat) : Bool := !s.ttValid x || s.ttBank x != bank
  let ok :=
    if 0x50000 ≤ a then !s.listInUse ((a - 0x50000) / 4)
    else if a < 0x40000 then bw && inactive (a / 0x20000) (a / 0x10000 % 2)
    else a < 0x44000 && bw
  if ok then s.setTtBytes a (leBytes 4 v.toNat) else s.warn 0x39

/-- TTB_MEM_ADDR adds 4. -/
def State.ttAdvance (s : State) : State := s.setReg rTTB_MEM_ADDR (toW (((s.reg rTTB_MEM_ADDR).toNat + 4) % 2 ^ 19))

/-- The period of the table that a bank holds: the active one's; in the inactive bank that of a pending table or of a set that is assembled there,
else the whole bank (R185; log entry 32). -/
def State.bankPeriod (s : State) (x bank : Nat) : Nat :=
  if s.ttValid x && s.ttBank x = bank then s.ttPeriod x
  else match (s.ttb x).pend, (s.ttb x).asm with
    | some t, _ => 2 ^ t.n
    | none, some a => 2 ^ min a.n 16
    | none, none => 0x10000

/-- An octet of timetable memory as the window shows it: bytes of a bank at offsets P and above read 0xFF (R185). -/
def State.ttShown (s : State) (a : Nat) : Byte :=
  if a < 0x40000 && s.bankPeriod (a / 0x20000) (a / 0x10000 % 2) ≤ a % 0x10000 then 0xFF else s.ttByte a

/-- The word that the window shows. -/
def State.ttWindow (s : State) : Word :=
  let a := (s.reg rTTB_MEM_ADDR).toNat % 2 ^ 19 / 4 * 4
  toW (leNat ((List.range 4).map (fun i => s.ttShown (a + i))))

def ttbMemDataFx (v : Word) (s : State) : State := s.ttWrite v
def ttbMemIncFx (v : Word) (s : State) : State := (s.ttWrite v).ttAdvance
def ttbMemIncRead (s : State) : Nat × State := (s.ttWindow.toNat, s.ttAdvance)

def execTtbMemData (q : Req) (v : Word) (s : State) : Host.Outcome State Fault Refusal := finish s (s.writeReg q rTTB_MEM_DATA v ttbMemDataFx)

/-- An access to TTB_MEM_DATA_INC: a write with a value, or a read. -/
def execTtbMemDataInc (q : Req) (w : Option Word) (mayPrefetch : Bool) (s : State) : Host.Outcome State Fault Refusal :=
  finish s (match w with
    | some v => s.writeReg q rTTB_MEM_DATA_INC v ttbMemIncFx
    | none => s.rowRead q rTTB_MEM_DATA_INC mayPrefetch false ttbMemIncRead)

/-- A write of TTB_EXP_SWAP, only while bank_write = 1 (R213). -/
def ttbSwapFx (v : Word) (s : State) : State :=
  if s.flag rTTB_EXP fTTB_EXP_bank_write then
    [0, 1].foldl (fun s x => if bitOf v x then
      let p := 2 ^ s.swapN x
      s.setTtb x { s.ttb x with swap := some ((s.slot / p + 1) * p % 2 ^ 20) } else s) s
  else s

def execTtbExpSwap (q : Req) (v : Word) (s : State) : Host.Outcome State Fault Refusal := finish s (s.writeReg q rTTB_EXP_SWAP v ttbSwapFx)

/-- A refusal is popped (R44, R199). -/
def ttbLogPop (s : State) : Option (Nat × State) :=
  match s.ttbLog with
  | [] => none
  | w :: rest => some (w.toNat, ({ s with ttbLog := rest }).setReg rTTB_LOG_REPLAY w)

def execTtbLogPop (q : Req) (mayPrefetch : Bool) (s : State) : Host.Outcome State Fault Refusal :=
  finish s (s.popRead q rTTB_LOG_POP mayPrefetch false 0 ttbLogPop)

/-- A write of TTB_CFG: share_pct above 75 stores 75 and sets config_warning (R213). -/
def ttbCfgFx (v : Word) (s : State) : State :=
  let s := s.store rTTB_CFG v
  let n := fldOf v fTTB_CFG_share_pct
  if 75 < n then (s.put rTTB_CFG fTTB_CFG_share_pct 75).warn 0x38 else s

end Sys2Proof.Machine
end

