-- ==== Sys2Proof/Machine/FamXlt.lean ====
section
/-! DEFINITION. Privilege and translation: levels, the table window, barriers, the fault capture (R284, R288, R293, R309). -/
namespace Sys2Proof.Machine

/-- The strap level of host h: 2 Warden, 1 Operator (R244). -/
def State.strapLevel (s : State) (h : Nat) : Nat := if s.flag (rHBx_CFG h) fHBx_CFG_strap_warden then 2 else 1

/-- One field of XLT_LEVEL written: a level above its port's strap level keeps the value (R284). -/
def State.setLevel (s : State) (h : Nat) (f : Fld) (v : Word) : State :=
  if s.strapLevel h < fldOf v f then s.warn 0x08 else s.put rXLT_LEVEL f (fldOf v f)

/-- A write of XLT_LEVEL (R284). -/
def xltLevelFx (v : Word) (s : State) : State := (s.setLevel 0 fXLT_LEVEL_host_a v).setLevel 1 fXLT_LEVEL_host_b v

def execLevelWrite (q : Req) (v : Word) (s : State) : Host.Outcome State Fault Refusal := finish s (s.writeReg q rXLT_LEVEL v xltLevelFx)

/-- A write of XLT_TABLE_BASE or XLT_TABLE_SIZE: a window that reaches outside general SRAM is stored, with a warning (R288). -/
def xltTableFx (a : Nat) (v : Word) (s : State) : State :=
  let s := s.store a v
  let b := (s.reg rXLT_TABLE_BASE).toNat / 4096 * 4096
  let n := (s.reg rXLT_TABLE_SIZE).toNat / 4096 * 4096
  if n != 0 && (b < 0x1C0000 || 0x300000 < b + n) then s.warn 0x08 else s

/-- A write of XLT_BARRIER: the entries in its scope go at once, and the write waits for the accesses translated before it (R293). -/
def xltBarrierFx (c : Cont) (v : Word) (s : State) : Bool × State :=
  let scope := fldOf v fXLT_BARRIER_scope
  let sp := fldOf v fXLT_BARRIER_space
  let pg := fldOf v fXLT_BARRIER_page
  let hit (e : TlbEnt) : Bool := scope = 1 || (scope = 2 && e.space = sp) || (scope = 3 && e.space = sp && e.page = pg)
  (true, ({ s with tlb := s.tlb.filter (fun e => !hit e), barriers := s.barriers ++ [c] }).put rXLT_STATUS fXLT_STATUS_barrier_busy 1)

def execBarrier (q : Req) (v : Word) (s : State) : Host.Outcome State Fault Refusal :=
  finish s (answered q (s.regWriteHold q rXLT_BARRIER v (.done q) (xltBarrierFx (.done q))))

/-- A barrier is not complete 10 µs after it was accepted (R293). -/
def State.barrierSlow (s : State) : State :=
  if s.barriers = [] then s else ((s.put rXLT_STATUS fXLT_STATUS_barrier_slow 1).irq 0x08 3).raise 52

def execBarrierSlow (s : State) : Host.Outcome State Fault Refusal := finish s s.barrierSlow

/-- A write of XLT_FCAP_CMD: bit 0 clears the capture (R309). -/
def xltFcapFx (v : Word) (s : State) : State :=
  if bitOf v 0 then ((s.setReg rXLT_FCAP_INFO 0).setReg rXLT_FCAP_ADDR 0).setReg rXLT_FCAP_NODE 0 else s

def execXltFcapCmd (q : Req) (v : Word) (s : State) : Host.Outcome State Fault Refusal := finish s (s.writeReg q rXLT_FCAP_CMD v xltFcapFx)

end Sys2Proof.Machine
end

