-- ==== Sys2Proof/Machine/Access.lean ====
section
/-! DEFINITION. Any access of a requester to the hub: what a write of each register does, what a read of each register returns and
changes, and accesses of all sizes to register pages and memory (R4, R5, R21, R22, R25, R27, R28, R43 to R47). -/
namespace Sys2Proof.Machine

/-! ### Writes, page by page: the effect of an accepted write of a register beyond the header; a register without a rule of its own is
stored by its access codes -/

/-- The copy number of a register: its distance from the first copy, by stride. -/
def nth (a first stride : Nat) : Nat := (a - first) / stride

/-- a is one of n copies of a register from `first` at a stride. -/
def isNth (a first n stride : Nat) : Bool := first ≤ a && a < first + n * stride && (a - first) % stride = 0

/-- XSPI_CSn_CFG written: a size outside the range stores the nearest limit; CS1 may have none (R566). -/
def xspiCfgFx (cs : Nat) (v : Word) (s : State) : State :=
  let a := if cs = 0 then rXSPI_CS0_CFG else rXSPI_CS1_CFG
  let n := fldOf v fXSPI_CS0_CFG_size
  let m := if cs = 0 then clampN 26 28 n else if n = 0 then 0 else clampN 20 28 n
  s.store a (fldPut v fXSPI_CS0_CFG_size m)

/-- RGA_EXP written: elastic_fill above 4 stores 4. -/
def rgaExpFx (r : Nat) (v : Word) (s : State) : State :=
  let n := fldOf v fRGA_EXP_elastic_fill
  let s := s.store (rRGA_EXP r) (fldPut v fRGA_EXP_elastic_fill (min 4 n))
  if 4 < n then s.warn (ringPage r) else s

/-- CLK_GATE written: a host may not gate the island that carries its write; what a port held goes on when its gate opens. -/
def clkGateFx (q : Req) (v : Word) (s : State) : State :=
  if (q.master = 1 && bitOf v 2) || (q.master = 2 && bitOf v 3) then s.warn 0x03 else s.store rCLK_GATE v

/-- Pages 0x00 to 0x06: identity, resets, power, clocks, faults, arbiter, ledger. -/
def globalFx (q : Req) (a : Nat) (v : Word) (s : State) : State :=
  if a = rCHIP_CMD then chipCmdFx v s
  else if a = rRST_CMD then rstCmdFx v s
  else if a = rRST_WDT_CFG then wdtCfgFx v s
  else if a = rRST_WDT_KICK then wdtKickFx q v s
  else if a = rPWR_CMD then pwrCmdFx v s
  else if a = rPWR_WAKE_EN then wakeEnFx v s
  else if a = rCLK_GATE then clkGateFx q v s
  else if a = rFLT_ACK then fltAckFx v s
  else if a = rFLT_CAP_CLR then fltCapClrFx v s
  else if a = rARB_SEM_CMD then semCmdFx q v s
  else if a = rARB_HB 0 then hbFx 0 v s
  else if a = rARB_HB 1 then hbFx 1 v s
  else if a = rARB_HB_CFG 0 then hbCfgFx 0 v s
  else if a = rARB_HB_CFG 1 then hbCfgFx 1 v s
  else if a = rARB_SEM_FORCE then semForceFx v s
  else if a = rARB_CLAIM_CLEAR then claimClearFx v s
  else if rLEDG_RESUME_NUM ≤ a && a ≤ rLEDG_RESUME_TAG_LO then ledgResumeFx a v s
  else if a = rLEDG_CMD then ledgCmdFx v s
  else s.store a v

/-- Pages 0x08 to 0x18: translation, fabric, pace. -/
def coreFx (a : Nat) (v : Word) (s : State) : State :=
  if a = rXLT_LEVEL then xltLevelFx v s
  else if a = rXLT_TABLE_BASE || a = rXLT_TABLE_SIZE then xltTableFx a v s
  else if a = rXLT_FCAP_CMD then xltFcapFx v s
  else if isNth a (rFAB_LIMIT 0) 16 4 then fabLimitFx (nth a (rFAB_LIMIT 0) 4) v s
  else if isNth a (rFAB_OUTCAP 0) 16 4 then fabOutcapFx (nth a (rFAB_OUTCAP 0) 4) v s
  else if a = rFAB_OCC_CMD then fabOccCmdFx v s
  else if a = rFAB_AIM_CMD then fabAimCmdFx v s
  else if a = rFAB_TEST_STEP then fabTestStepFx v s
  else if a = rPACE_CTRL then paceCtrlFx v s
  else if a = rPACE_CFG then paceCfgFx v s
  else if a = rPACE_THRESH then paceThreshFx v s
  else if a = rPACE_CMD then paceCmdFx v s
  else if a = rPACE_EXP then paceExpFx v s
  else s.store a v

/-- Pages 0x20 to 0x28: rings and ring control. -/
def ringFx (a : Nat) (v : Word) (s : State) : State :=
  if a = rRCTL_CTRL then rctlCtrlFx v s
  else if a = rRCTL_TIMERS then rctlTimersFx v s
  else if a = rRCTL_CMD then rctlCmdFx v s
  else if a = rRCTL_RING then ((s.store a v).rcStart 0).rcStart 1
  else if a = rRCTL_RESET_KEY then s.setReg a v
  else
    let r := (a - 0x20000) / 0x4000
    let p := (a / 0x1000 + 3) % 4
    if a = rRGA_EXP r then rgaExpFx r v s
    else if a = rRGA_MOD_ACC r then modAccFx r v s
    else if p < 2 && a = rRGA_PORT_CTRL r p then portCtrlFx r p v s
    else if p < 2 && a = rRGA_PORT_PAD r p then portPadFx r p v s
    else if p < 2 && a = rRGA_PORT_CMD r p then portCmdFx r p v s
    else s.store a v

/-- Pages 0x30 to 0x44: flows, timetable, time bases, stamping. -/
def planeFx (q : Req) (a : Nat) (v : Word) (s : State) : State :=
  if a = rFLOW_CTRL then flowCtrlFx v s
  else if a = rFLOW_CFG then flowCfgFx v s
  else if a = rFLOW_BACK then flowBackFx v s
  else if a = rFLOW_BACK_SIZE then flowBackSizeFx v s
  else if rFLOW_ARG0 ≤ a && a ≤ rFLOW_ARG3 then flowArgFx a v s
  else if a = rFLOW_CMD then flowCmdFx v s
  else if a = rFLOW_VIEW_CMD then flowViewFx q v s
  else if a = rFLOW_PF_CMD then flowPfCmdFx v s
  else if a = rFLOW_SYS_CFG then flowSysCfgFx v s
  else if a = rTTB_CFG then ttbCfgFx v s
  else if a = rTTB_CMD then ttbCmdFx v s
  else if a = rTTB_MEM_DATA then ttbMemDataFx v s
  else if a = rTTB_MEM_DATA_INC then ttbMemIncFx v s
  else if a = rTTB_EXP_SWAP then ttbSwapFx v s
  else if a = rTSU_CMD then tsuCmdFx v s
  else if a = rTSU_ARM then tsuArmFx v s
  else if rTSU_EVT_CFG 0 ≤ a && a < rTSU_EVT_CFG 16 then tsuEvtFx ((a - rTSU_EVT_CFG 0) / 0x20) ((a - rTSU_EVT_CFG 0) % 0x20) v s
  else
    let b := (a - 0x40000) / 0x1000
    if a = rTB_CFG b then tbCfgFx b v s
    else if a = rTB_CMD b then tbCmdFx b v s
    else if a = rTB_SESSION b then tbSessionFx b v s
    else if a = rTB_RATE_HI b then tbRateHiFx b v s
    else if a = rTB_EXP b then tbExpFx b v s
    else s.store a v

/-- Pages 0x48 to 0x4D: the cipher and the key store. -/
def cipherFx (q : Req) (a : Nat) (v : Word) (s : State) : State :=
  if a = rCIPH_MM_CMD then ciphMmFx v s
  else if a = rCIPH_KAT then ciphKatFx v s
  else if a = rCIPH_JR_CMD then jrCmdFx v s
  else if isNth a (rCIPH_JR_CFG 0) 2 0x20 then jrCfgFx (nth a (rCIPH_JR_CFG 0) 0x20) v s
  else if isNth a (rCIPH_JR_TAIL 0) 2 0x20 then jrTailFx (nth a (rCIPH_JR_TAIL 0) 0x20) v s
  else if a = rKEY_CMD then keyCmdFx q v s
  else if a = rKEY_COMMIT then keyCommitFx v s
  else if isNth a (rKEY_OPEN_DATA 0) 8 4 then s.setReg a v
  else if isNth a (rKEY_CTR 0) 256 4 then keyCtrFx (nth a (rKEY_CTR 0) 4) v s
  else if a = rKEY_CTR_LOCK then keyCtrLockFx v s
  else s.store a v

/-- Pages 0x50 to 0x60: DMA channels and their allocator. -/
def dmaFx (q : Req) (a : Nat) (v : Word) (s : State) : State :=
  let c := a / 0x1000 - 0x50
  if a = rDMAA_FREE then dmaaFreeFx q v s
  else if a = rDMA_CMD c then dmaCmdFx c v s
  else if a = rDMA_RX_CFG c then rxCfgFx c v s
  else if a = rDMA_RX_RING c then rxRingFx c v s
  else if a = rDMA_RX_TAIL c then rxTailFx c v s
  else if a = rDMA_RSV_CFG c then rsvCfgFx c v s
  else if a = rDMA_RSV_PUSH c then rsvPushFx c v s
  else if a = rDMA_EXP c then dmaExpFx c v s
  else s.store a v

/-- Pages 0x68 to 0x6A: host ports and polling. -/
def hostFx (a : Nat) (v : Word) (s : State) : State :=
  let h := (a / 0x1000) % 2
  if a = rPOLL_COUNT then pollCountFx v s
  else if a / 0x1000 = 0x6A then s.store a v
  else if a = rHBx_RETRY h then hbRetryFx h v s
  else if a = rHBx_POSTED h then hbPostedFx h v s
  else if isNth a (rHBx_WIN_BASE h 0) 16 8 then winBaseFx h (nth a (rHBx_WIN_BASE h 0) 8) v s
  else if isNth a (rHBx_WIN_ATTR h 0) 16 8 then winAttrFx h (nth a (rHBx_WIN_ATTR h 0) 8) v s
  else if isNth a (rHBx_MSIX_CTRL h 0) 32 16 then msixCtrlFx h (nth a (rHBx_MSIX_CTRL h 0) 16) v s
  else if a = rHBx_FENCE_REQ h then fenceReqFx h v s
  else if a = rHBx_PWE_CLR h then pweClrFx h v s
  else if a = rHBx_WIN_RESUME h then winResumeFx h v s
  else s.store a v

/-- Pages 0x70 to 0xA7: MACs, serial units, CAN. -/
def unitFx (a : Nat) (v : Word) (s : State) : State :=
  let p := a / 0x1000
  let off := a % 0x1000
  if p ≤ 0x74 then
    let m := p - 0x70
    if a = rxx_CFG m then macCfgFx m v s
    else if a = rxx_EXP m then macExpFx m v s
    else if a = rxx_MDIO_ACC m then mdioFx m v s
    else if a = rxx_CNT_CMD m then cntCmdFx m v s
    else s.store a v
  else if p ≤ 0x8F then
    let n := p - 0x80
    if a = rUART_CFG n then uartCfgFx n v s
    else if a = rUART_BAUD n then uartBaudFx n v s
    else if a = rUART_BRK n then uartBrkFx n v s
    else if a = rUART_CMD n then uartCmdFx n v s
    else if off < 0x050 then unitPlainFx p a v s else s.store a v
  else if p ≤ 0x97 then
    let n := p - 0x90
    if a = rCANF_NBT n then canNbtFx n v s
    else if a = rCANF_DBT n then canDbtFx n v s
    else if a = rCANF_CMD n then canCmdFx n v s
    else if off < 0x050 then canPlainFx n a v s else s.store a v
  else if p ≤ 0x9F then
    let n := p - 0x98
    if a = rSPI_CFG n then spiCfgFx n v s
    else if a = rSPI_CMD n then spiCmdFx n v s
    else if off < 0x050 then unitPlainFx p a v s else s.store a v
  else
    let n := p - 0xA0
    if a = rIIC_CFG n then iicCfgFx n v s
    else if a = rIIC_SCL n then iicSclFx n v s
    else if a = rIIC_CMD n then iicCmdFx n v s
    else if off < 0x050 then unitPlainFx p a v s else s.store a v

/-- Pages 0xA8 to 0xAB: Clove engines; the synchronised commands stand on page 0xA8 alone (R410). -/
def cloveFx (q : Req) (a : Nat) (v : Word) (s : State) : State :=
  let e := a / 0x1000 - 0xA8
  let off := a % 0x1000
  if a = rCLOV_CFG e then clovCfgFx e v s
  else if a = rCLOV_PMEM_DATA e then pmemFx e v s
  else if a = rCLOV_PMEM_DATA_INC e then pmemIncFx e v s
  else if a = rCLOV_START e then clovStartFx e v s
  else if a = rCLOV_STOP e then clovStopFx e v s
  else if a = rCLOV_CMD e then clovCmdFx e v s
  else if a = rCLOV_SYNC_CMD 0 then clovSyncFx q v s
  else if a = rCLOV_STEP e then clovStepFx e v s
  else if 0x100 ≤ off && off < 0x300 then
    let k := (off - 0x100) / 0x20
    if a = rCLOV_CH_CFG e k then clovChCfgFx e k v s else clovChFx e k a v s
  else if 0x300 ≤ off && off < 0x400 then
    let k := (off - 0x300) / 0x10
    if a = rCLOV_MV_CFG e k then moverCfgFx e k v s
    else if a = rCLOV_MV_RX e k then moverTailFx e k false v s
    else if a = rCLOV_MV_TX e k then moverTailFx e k true v s
    else clovChFx e k a v s
  else if (a = rCLOV_SYNC_SEL_LO e || a = rCLOV_SYNC_SEL_HI e || a = rCLOV_SYNC_CMD e) && e != 0 then s
  else s.store a v

/-- Pages 0xB0 to 0xC2: pins, queues, firmware, xSPI, Anise. -/
def fieldFx (q : Req) (a : Nat) (v : Word) (s : State) : State :=
  let c := a / 0x1000 % 4
  if 0xC0000 ≤ a then
    if a = rFWU_CMD then
      (fwuCmdFx q (s.freeN % 2 = 1) v s).step1
    else if a = rFWU_MEAS_EXT then measExtFx v s
    else if a = rXSPI_CS0_CFG then xspiCfgFx 0 v s
    else if a = rXSPI_CS1_CFG then xspiCfgFx 1 v s
    else if a = rANI_HANDOVER then aniHandoverFx v s
    else if a = rANI_MB_DOORBELL 0 then mbDoorbellFx 0 v s
    else if a = rANI_MB_DOORBELL 1 then mbDoorbellFx 1 v s
    else if a = rANI_MB_ACK then mbAckFx q v s
    else s.store a v
  else if a < 0xB4000 then
    if a = rPMUX_BANK c then bankFx c v s
    else if a = rPMUX_GPIO_SET c then gpioSetFx c v s
    else if a = rPMUX_GPIO_CLR c then gpioClrFx c v s
    else if a = rPMUX_GPIO_OUT c || a = rPMUX_GPIO_OE c then gpioPlainFx c a v s
    else if isNth a (rPMUX_PIN c 0) 32 4 then pinFx c (nth a (rPMUX_PIN c 0) 4) v s
    else s.store a v
  else if isNth a (rFQ_QCFG c 0) 32 4 then fqCfgFx c (nth a (rFQ_QCFG c 0) 4) v s
  else if isNth a (rFQ_BIND c 0) 32 4 then fqBindFx c (nth a (rFQ_BIND c 0) 4) v s
  else if isNth a (rFQ_IDLE c 0) 32 4 then fqPlainFx (nth a (rFQ_IDLE c 0) 4) a v s
  else if rFQ_TXDATA_LO c 0 ≤ a && a < rFQ_TXDATA_LO c 32 then fqPlainFx ((a - rFQ_TXDATA_LO c 0) / 8) a v s
  else if isNth a (rFQ_PUSH c 0) 32 4 then fqPushFx c (nth a (rFQ_PUSH c 0) 4) v s
  else if a = rFQ_CMD c then fqCmdFx c v s
  else s.store a v

/-- The effect of an accepted write of any register. True where its completion waits; `c` is where it goes then. -/
def writeFx (q : Req) (c : Cont) (a : Nat) (v : Word) (s : State) : Bool × State :=
  let p := a / 0x1000
  if a % 0x1000 < 0x040 then (false, headerFx q p (a % 0x1000) v s)
  else if a = rXLT_BARRIER then xltBarrierFx c v s
  else (false,
    if p < 0x08 then globalFx q a v s
    else if p < 0x20 then coreFx a v s
    else if p < 0x30 then ringFx a v s
    else if p < 0x48 then planeFx q a v s
    else if p < 0x50 then cipherFx q a v s
    else if p < 0x68 then dmaFx q a v s
    else if p < 0x70 then hostFx a v s
    else if p < 0xA8 then unitFx a v s
    else if p < 0xB0 then cloveFx q a v s
    else if p < 0xF0 then fieldFx q a v s
    else s.store a v)

/-- A 32-bit write to a register page by a requester: the status it completes with, none where it waits. -/
def State.regAccessW (s : State) (q : Req) (a : Nat) (v : Word) (c : Cont) : Option Nat × State :=
  if a = rFLT_ERRN_CLR then s.errnClr q v c else s.regWriteHold q a v c (writeFx q c a)

/-! ### Reads: registers whose value follows the hub's state -/

/-- The stream that FAB_RSQ_SEL names. -/
def State.rsqStream (s : State) : StreamSt :=
  let w := s.reg rFAB_RSQ_SEL
  s.stream (streamKey (natBits w.toNat 7 4) (natBits w.toNat 3 0) (natBits w.toNat 9 8))

/-- The held map of a stream: bit b for tag e + b (R139). -/
def StreamSt.heldMap (x : StreamSt) : Nat := x.held.foldl (fun m c => m ||| 2 ^ ((c.tag + 65536 - x.e) % 65536)) 0

/-- Class 0 seats booked: by cells that still wait at an input, and by those in a middle. -/
def State.seatsBooked (s : State) : Nat :=
  s.fab.inputs.foldl (fun n e => n + (e.2.filter (fun c => c.send != 0 && c.seated)).length) 0 +
    s.fab.mids.foldl (fun n e => n + (e.2.filter (fun c => c.seated)).length) 0

/-- Pages 0x00 to 0x1F. -/
def coreView (q : Req) (a : Nat) (s : State) : Word :=
  let w := s.reg a
  if a = rRST_WDT_STATUS then s.wdtStatus
  else if a = rCLK_STATUS then s.clkStatus
  else if a = rARB_SEM_HELD_LO then s.semHeld 0
  else if a = rARB_SEM_HELD_HI then s.semHeld 1
  else if isNth a (rARB_SEM_STATE 0) 64 4 then s.semState q (nth a (rARB_SEM_STATE 0) 4)
  else if isNth a (rARB_SEM_NODE 0) 64 4 then s.semNode (nth a (rARB_SEM_NODE 0) 4)
  else if a = rXLT_TLB_TAG || a = rXLT_TLB_PTE_LO || a = rXLT_TLB_PTE_HI then
    match s.tlb[natBits (s.reg rXLT_TLB_SEL).toNat 5 0]? with
    | none => 0
    | some e => if a = rXLT_TLB_TAG then toW (e.page * 2 ^ 12 + e.space * 2 ^ 8 + 1) else if a = rXLT_TLB_PTE_LO then e.lo else e.hi
  else if a = rXLT_STATUS then fldPut w fXLT_STATUS_barrier_busy (b2n (s.barriers != []))
  else if a = rFAB_STATUS then
    toW (natPut (natPut (natPut w.toNat 19 16 s.fab.round) 15 14 s.pace.shed.val) 8 0 s.seatsBooked)
  else if a = rFAB_ROUND then toW s.fab.round
  else if isNth a (rFAB_MID_OCC 0) 16 4 then
    toW (natPut w.toNat 9 0 (s.bankCells.filter (fun c => c.mid = nth a (rFAB_MID_OCC 0) 4)).length)
  else if isNth a (rFAB_OUT_OCC 0) 16 4 then
    let o := nth a (rFAB_OUT_OCC 0) 4
    let held := s.fab.streams.foldl (fun n e => if e.1 / 4 % 16 = o then n + e.2.held.length else n) 0
    toW (held * 2 ^ 16 + (s.bankCells.filter (fun c => c.out = o && c.cls != 0)).length)
  else if a = rFAB_LIMIT_SUM then toW (s.limitSum 16 0)
  else if a = rPACE_LIMITS then fldPut w fPACE_LIMITS_warning s.paceWarn
  else if a = rFAB_RSQ_VIEW then toW (s.rsqStream.e * 2 ^ 16 + s.rsqStream.next)
  else if a = rFAB_RSQ_HELD_LO then toW s.rsqStream.heldMap
  else if a = rFAB_RSQ_HELD_HI then toW (s.rsqStream.heldMap / 2 ^ 32)
  else w

/-- Pages 0x20 to 0x4F. -/
def planeView (a : Nat) (s : State) : Word :=
  let w := s.reg a
  if a = rRCTL_RESET_KEY then 0
  else if a = rFLOW_COUNT then toW (s.residents.length * 2 ^ 16 + s.pinnedCount)
  else if a = rFLOW_TOTAL then toW s.flw.total
  else if a = rFLOW_PAGER then
    toW ((match s.flw.job with
      | some j => (match j.job with | .fetch f => f | .evict => j.victim.getD 0) * 2 ^ 16 + 1
      | none => 0) + s.flw.misses.length % 64 * 16)
  else if a = rFLOW_SYS_COUNT then toW ((s.flw.sys.filter (fun e => e.guarded)).length * 2 ^ 16 + s.flw.sys.length)
  else if a = rTTB_USE 0 || a = rTTB_USE 1 then
    let x := nth a (rTTB_USE 0) 0x10
    let n := s.committed x 4096
    toW (n * 2 ^ 16 + min 256 n)
  else if a = rTTB_OWNED 0 || a = rTTB_OWNED 1 then toW (s.ownedCount (nth a (rTTB_OWNED 0) 0x10))
  else if a = rTTB_MEM_DATA || a = rTTB_MEM_DATA_INC then s.ttWindow
  else if a = rTTB_LOG_STATUS then toW (natPut w.toNat 20 16 s.ttbLog.length)
  else if a = rTB_SOURCE 0 then (if s.isRoot then toW s.sourceKind else w)
  else if a = rTB_STATUS 0 then (if s.isRoot then fldPut w fTB_STATUS_level 0 else w)
  else if a = rTSU_CAP_STATUS then toW (natPut w.toNat 22 16 s.servo.cap.length)
  else if a = rCIPH_STATUS then toW s.ciphStatus
  else if a = rKEY_STATUS then toW s.keyStatus
  else if a = rKEY_VIEW_STATE then toW (s.keyView 0)
  else if a = rKEY_VIEW_ATTR_LO then toW (s.keyView 1)
  else if a = rKEY_VIEW_ATTR_HI then toW (s.keyView 2)
  else if a = rKEY_VIEW_USES then toW (s.keyView 3)
  else if isNth a (rKEY_OPEN_DATA 0) 8 4 then 0
  else if isNth a (rKEY_CTR 0) 8 4 then 0
  else w

/-- Pages 0x50 to 0xFF. -/
def portView (a : Nat) (s : State) : Word :=
  let w := s.reg a
  let p := a / 0x1000
  if p ≤ 0x5F then
    let c := p - 0x50
    if a = rDMA_RSV_COUNT c then toW ((s.dma c).fifo.length * 2 ^ 16 + (s.dma c).rsv.length) else w
  else if a = rDMAA_STATUS then
    toW ((List.range 16).foldl (fun m c => m + b2n (s.dmaOwner c).isSome * 2 ^ c) 0)
  else if p = 0x68 || p = 0x69 then
    let h := p - 0x68
    if a = rHBx_OUTSTANDING h then toW ((s.br h).pdt.length * 2 ^ 24 + (s.br h).outst.length)
    else if a = rHBx_MSIX_PBA h then s.pba h
    else if a = rHBx_FENCE h then s.fence h
    else w
  else if a = rPOLL_STATUS then toW (natPut w.toNat 22 16 s.poll.events.length)
  else if 0x70 ≤ p && p ≤ 0x74 then (if a = rxx_STATUS (p - 0x70) then toW (s.macStatus (p - 0x70)) else w)
  else if 0x80 ≤ p && p ≤ 0x8F then (if a = rUART_STATUS (p - 0x80) then toW (s.uartStatus (p - 0x80)) else w)
  else if 0x90 ≤ p && p ≤ 0x97 then (if a = rCANF_STATUS (p - 0x90) then toW (s.canStatus (p - 0x90)) else w)
  else if 0x98 ≤ p && p ≤ 0x9F then 
    (if a = rSPI_STATUS (p - 0x98) then toW (s.spiStatus (p - 0x98)) else w)
  else if 0xA0 ≤ p && p ≤ 0xA7 then (if a = rIIC_STATUS (p - 0xA0) then toW (s.iicStatus (p - 0xA0)) else w)
  else if 0xA8 ≤ p && p ≤ 0xAB then
    let e := p - 0xA8
    let off := a % 0x1000
    if a = rCLOV_STATUS e then toW (s.cloveStatus e)
    else if a = rCLOV_BANK e then toW (s.cloveBanks e)
    else if 0x100 ≤ off && off < 0x300 then
      let k := (off - 0x100) / 0x20
      if a = rCLOV_CH_STATUS e k then toW (s.cloveChStatus e k)
      else if a = rCLOV_CH_PC e k then toW (s.clv e k).pc
      else w
    else w
  else if 0xB0 ≤ p && p ≤ 0xB3 then (if a = rPMUX_GPIO_IN (p - 0xB0) then s.gpioIn (p - 0xB0) else w)
  else if 0xB4 ≤ p && p ≤ 0xB7 then
    let c := p - 0xB4
    if a = rFQ_MEM c then toW (s.fqMem c)
    else if isNth a (rFQ_STATUS c 0) 32 4 then toW (s.fqStatus c (nth a (rFQ_STATUS c 0) 4))
    else w
  else if a = rFWU_OTP_INFO then s.otpInfo
  else if a = rFWU_CONFIRM_LEFT then s.confirmLeft
  else if a = rFWU_CFG then (if s.flag rFWU_STATUS fFWU_STATUS_cumin then w ||| 2 else w)
  else w

/-- PG_STATUS.block_status of a page whose chapter gives it a meaning: port states (R83), ring-control states (R125), the shedding level
(R155), pager busy (R181), tables in force (R213), link up, or 1 in quad-SPI mode (R280), the confinement state (R380), the bank of a Clove
engine (R415). -/
def State.blockStatus (s : State) (p : Nat) : Nat :=
  if p = 0x21 || p = 0x22 || p = 0x25 || p = 0x26 then s.portState ((p - 0x20) / 4) ((p - 1) % 4)
  else if p = 0x28 then s.rcState 1 * 16 + s.rcState 0
  else if p = 0x10 then s.pace.shed.val
  else if p = 0x30 then b2n s.flw.job.isSome
  else if p = 0x38 then b2n (s.flag (rTTB_STATUS 1) fTTB_STATUS_valid) * 2 + b2n (s.flag (rTTB_STATUS 0) fTTB_STATUS_valid)
  else if p = 0x68 || p = 0x69 then
    (if s.get (rHBx_CFG (p - 0x68)) fHBx_CFG_mode = 1 then 1 else s.get (rPG_STATUS p) fPG_STATUS_block_status)
  else if 0x90 ≤ p && p ≤ 0x97 then s.get (rCANF_ERR (p - 0x90)) fCANF_ERR_state
  else if 0xA8 ≤ p && p ≤ 0xAB then
    s.get (rCLOV_BANK (p - 0xA8)) fCLOV_BANK_bank * 2 + s.get (rCLOV_BANK (p - 0xA8)) fCLOV_BANK_swap_pending
  else 0

/-- The block of page p is in block reset (R31). -/
def State.inReset (s : State) (p : Nat) : Bool := s.resets.contains (blockHead p)

/-- PG_STATUS as a read finds it (R29): through a block reset reset_active is 1, and the block is not ready (R31). -/
def statusView (p : Nat) (s : State) : Word :=
  let w := fldPut (s.reg (rPG_STATUS p)) fPG_STATUS_block_status (s.blockStatus p)
  if s.inReset p then fldPut (fldPut w fPG_STATUS_reset_active 1) fPG_STATUS_ready 0 else w

/-- The header registers as a read finds them (R29): PG_CLAIM the accepted claim; PG_ID of an unpopulated page 0 (R30). -/
def headerView (p off : Nat) (s : State) : Word :=
  if !populated p then 0
  else if off = 0x004 then (if s.resets.contains p then fldPut (s.reg (rPG_CTRL p)) fPG_CTRL_block_reset 1 else s.reg (rPG_CTRL p))
  else if off = 0x008 then statusView p s
  else if off = 0x020 then (match resourceOf p with | some i => toW (s.claim i).accepted | none => 0)
  else s.reg (p * 0x1000 + off)

/-- The SC bits of commands that have not completed yet read 1 (R5): a step of a base that waits for its tick (R219), a swap that waits for its
boundary (R213, R412), a view load that waits for its fetch (R166), an abort or a recovery in progress (R370, R376), a stop of a channel (R296), a
flush (R517), an entry that waits (R531), a key message not yet checked or sent (R459). -/
def scView (a : Nat) (s : State) : Option Word :=
  let p := a / 0x1000
  if isNth a (rTB_CMD 0) 4 0x1000 then some (toW (b2n (s.base (nth a (rTB_CMD 0) 0x1000)).step.isSome * 2))
  else if a = rTTB_EXP_SWAP then some (toW (b2n (s.ttb 1).swap.isSome * 2 + b2n (s.ttb 0).swap.isSome))
  else if a = rFLOW_VIEW_CMD then some (toW (b2n s.flw.load.isSome))
  else if isNth a (rCLOV_CMD 0) 4 0x1000 then some (toW (b2n (s.swapPending (nth a (rCLOV_CMD 0) 0x1000))))
  else if isNth a (rDMA_CMD 0) 16 0x1000 then some (toW (b2n (s.dma (nth a (rDMA_CMD 0) 0x1000)).stopReq * 8))
  else if isNth a (rCANF_CMD 0) 8 0x1000 then
    let n := p - 0x90
    some (toW (b2n (decide (s.canState n = 3)) * 256 + ([0, 1, 2].foldl (fun m b => m + b2n (decide (s.canBufState n b = 3)) * 2 ^ b) 0)))
  else if isNth a (rSPI_CMD 0) 8 0x1000 then
    let u := s.unit p
    some (toW (u.count + b2n (u.count != 0 && u.countEnd) * 2 ^ 16))
  else if a = rLEDG_CMD then some (toW (s.get rLEDG_STATUS fLEDG_STATUS_flushing * 4))
  else if a = rPWR_CMD then some (toW (s.get rPWR_STATUS fPWR_STATUS_busy * 2 ^ 31))
  else if a = rKEY_CMD then some (toW (b2n s.keySending * 2 + b2n (s.kmgr.queue.any (fun m => !m.ring))))
  else none

/-- What a register shows to requester q. -/
def regView (q : Req) (a : Nat) (s : State) : Word :=
  let p := a / 0x1000
  if a % 0x1000 < 0x040 then headerView p (a % 0x1000) s
  else if (scView a s).isSome then (scView a s).getD 0
  else if p < 0x20 then coreView q a s
  else if p < 0x50 then planeView a s
  else portView a s

/-- Pops of 64-bit items: the pop, and the register's empty value 0. -/
def pop64 (a : Nat) : Option (State → Option (Nat × State)) :=
  if a = rFAB_TRACE_POP then some fabTracePop
  else if a = rTSU_CAP_POP then some tsuCapPop
  else if a = rKEY_LOG_POP then some keyLogPop
  else if a = rPOLL_EVT_POP then some pollEvtPop
  else if 0x50 ≤ a / 0x1000 && a / 0x1000 ≤ 0x5F && a = rDMA_RSV_POP (a / 0x1000 - 0x50) then some (rsvPop (a / 0x1000 - 0x50))
  else if 0x70 ≤ a / 0x1000 && a / 0x1000 ≤ 0x74 && a = rxx_TXS_POP (a / 0x1000 - 0x70) then some (macTxsPop (a / 0x1000 - 0x70))
  else none

/-- A read of a register, with what it changes (R43 to R45). -/
def regFetch (q : Req) (a : Nat) (s : State) : Nat × State :=
  match pop64 a with
  | some pop => let r := popOr 0 pop s; (r.1 % 2 ^ 32, r.2)
  | none =>
    let p := a / 0x1000
    if a = rTTB_LOG_POP then popOr 0 ttbLogPop s
    else if a = rDMAA_ALLOC then dmaaAlloc q s
    else if a = rTTB_MEM_DATA_INC then ttbMemIncRead s
    else if (p = 0x68 || p = 0x69) && a = rHBx_FENCE (p - 0x68) then fenceRead (p - 0x68) s
    else if 0xA8 ≤ p && p ≤ 0xAB && a = rCLOV_PMEM_DATA (p - 0xA8) then pmemRead (p - 0xA8) s
    else if 0xA8 ≤ p && p ≤ 0xAB && a = rCLOV_PMEM_DATA_INC (p - 0xA8) then
      let r := pmemRead (p - 0xA8) s
      (r.1, r.2.pmemNext (p - 0xA8))
    else if 0xB4 ≤ p && p ≤ 0xB7 && isNth a (rFQ_POP (p - 0xB4) 0) 32 4 then
      let n := nth a (rFQ_POP (p - 0xB4) 0) 4
      popOr (fqEmpty n) (fqPop (p - 0xB4) n) s
    else ((regView q a s).toNat, s)

/-- A 32-bit read of a register: status, value, effect. -/
def State.regAccessR (s : State) (q : Req) (a : Nat) (mayPrefetch : Bool) : Nat × Nat × State :=
  s.readItem q a mayPrefetch (regFetch q a)

/-! ### Accesses of any size (R22, R25, R26) -/

/-- The register pages (R21). -/
def inPages (a : Nat) : Bool := 0x10000000 ≤ a && a < 0x10100000

/-- The shapes a register page accepts: 32 bits aligned, or 64 bits aligned (R25). -/
def pageShape (a n : Nat) : Bool := (n = 4 && a % 4 = 0) || (n = 8 && a % 8 = 0)

/-- A read of n octets of the register pages that its page serves now: status, octets, effect. A 64-bit access of a page is two of 32 bits,
lower address first; at the pop of a 64-bit item it returns the whole item. -/
def State.readPage (s : State) (q : Req) (r n : Nat) (mayPrefetch : Bool) : Nat × List Byte × State :=
  if n = 4 then
    let x := s.regAccessR q r mayPrefetch
    (x.1, if x.1 = 0 then leBytes 4 x.2.1 else [], x.2.2)
  else match pop64 r with
    | some pop =>
      let x := s.readItem q r mayPrefetch (popOr 0 pop)
      (x.1, if x.1 = 0 then leBytes 8 x.2.1 else [], x.2.2)
    | none =>
      let x := s.regAccessR q r mayPrefetch
      if x.1 != 0 then (x.1, [], x.2.2)
      else
        let y := x.2.2.regAccessR q (r + 4) mayPrefetch
        (y.1, if y.1 = 0 then leBytes 4 x.2.1 ++ leBytes 4 y.2.1 else [], y.2.2)

/-- A read of n octets by a requester: the status, none where the access waits for its page and its completion goes to c; octets; effect. -/
def State.readAccess (s : State) (q : Req) (a n : Nat) (mayPrefetch : Bool) (c : Cont) : Option Nat × List Byte × State :=
  if inPages a then
    let r := a - 0x10000000
    if !pageShape a n then (some 3, [], s)
    else if s.pageBusy r then (none, [], s.hold q r (.read n mayPrefetch) c)
    else
      let x := s.readPage q r n mayPrefetch
      (some x.1, x.2)
  else
    let x := s.memReadReq q a n
    (some x.1, x.2)

/-- A 64-bit write of a register page: both halves are checked before either has its effect, so that one that is turned away leaves no part
of the access behind (R25, R28). -/
def State.writeWide (s : State) (q : Req) (r : Nat) (lo hi : Word) (c : Cont) : Option Nat × State :=
  match s.checkWrite q r lo with
  | (.stop st, t) =>
    if st != 0 then (some st, t) else t.regAccessW q (r + 4) hi c
  | (.go, t) =>
    match t.checkWrite q (r + 4) hi with
    | (.stop st, u) => if st != 0 then (some st, u) else u.regEffect q r lo c (writeFx q c r)
    | (.go, u) =>
      let x := u.regEffect q r lo .drop (writeFx q .drop r)
      x.2.regEffect q (r + 4) hi c (writeFx q c (r + 4))

/-- A write of octets by a requester: the status, none where the completion waits and goes to c. -/
def State.writeAccess (s : State) (q : Req) (a : Nat) (bs : List Byte) (c : Cont) : Option Nat × State :=
  if inPages a then
    let r := a - 0x10000000
    if !pageShape a bs.length then (some 3, s)
    else if bs.length = 4 then s.regAccessW q r (toW (leNat bs)) c
    else if s.pageBusy r then (none, s.hold q r (.write bs) c)
    else s.writeWide q r (toW (leNat (bs.take 4))) (toW (leNat (bs.drop 4))) c
  else
    let w := s.memWriteReq q a bs
    (some w.1, w.2)

/-- A transfer of a translated master, or one that the response cache answers, lies wholly or partly in a side-effect range, of which the page
header is then one (R43). -/
def touchesSideEffect (a n : Nat) : Bool :=
  inPages a && (List.range n).any (fun i => sideEffect ((a + i) % 0x1000) || (a + i) % 0x1000 < 0x040)

/-- A read lies wholly or partly in a range where reading may change state: the page header is none (R43). -/
def readsSideEffect (a n : Nat) : Bool := inPages a && (List.range n).any (fun i => sideEffect ((a + i) % 0x1000))

end Sys2Proof.Machine
end

