-- ==== Sys2Proof/Machine/FamBridge.lean ====
section
/-! DEFINITION. The bridge and the target engine at work (R244 to R270): PCI Express requests and quad-SPI frames, responses and notices,
retries, and requests from the rings. -/
namespace Sys2Proof.Machine

/-! ### Where a host's access goes (R18 to R20, R246, R254) -/

/-- The requester of host port h. -/
def hostReq (h : Nat) : Req := ⟨1 + h, 0, 0⟩

/-- A class that requests may use: 0 acts as 1 (R254). -/
def reqClass (n : Nat) : Nat := if n = 0 then 1 else n

/-- The local address that BAR4 maps an offset to (R246). -/
def State.bar4 (s : State) (h o : Nat) : Option Nat :=
  if o ≤ 0x03FFFFF then some o
  else if 0x1000000 ≤ o && o < 0x2000000 then
    some (0x20000000 + s.get (rHBx_BAR4_CS h) fHBx_BAR4_CS_cs0_sel * 2 ^ 24 + (o - 0x1000000))
  else if 0x2000000 ≤ o && o < 0x4000000 then
    some (0x30000000 + s.get (rHBx_BAR4_CS h) fHBx_BAR4_CS_cs1_sel * 2 ^ 25 + (o - 0x2000000))
  else none

/-- Octets cut at boundaries of `line` octets: address and length of each piece, in order (R247). -/
def cutAt : Nat → Nat → Nat → Nat → List (Nat × Nat)
  | 0, _, _, _ => []
  | k + 1, line, a, n =>
    if n = 0 then []
    else
      let m := min n (line - a % line)
      (a, m) :: cutAt k line (a + m) (n - m)

/-! ### Reads (R262) -/

/-- A fetch of 64 octets joins the read buffer, which keeps four (R262). -/
def State.bufferPut (s : State) (h key a : Nat) (bs : List Byte) : State :=
  let x := s.br h
  let l := x.buffer ++ [(key, a, bs)]
  s.setBr h { x with buffer := l.drop (l.length - 4) }

/-- The octets of an access that the read buffer holds. -/
def State.bufferGet (s : State) (h key a n : Nat) : Option (List Byte) :=
  ((s.br h).buffer.find? (fun e => e.1 = key && e.2.1 = a / 64 * 64)).bind (fun e => if a % 64 + n ≤ 64 then some (slice e.2.2 (a % 64) n) else none)

/-- A read of this hub by host h, recorded where it fails. -/
def State.plainRead (s : State) (h a n win : Nat) (c : Cont) : State :=
  let c := Cont.here h win c
  let r := s.readAccess (hostReq h) a n false c
  match r.1 with
  | some st => r.2.2.complete c st 0 r.2.1
  | none => r.2.2

/-- A read of this hub, through the read buffer where the window prefetches. -/
def State.readHere (s : State) (h a n win : Nat) (pf : Bool) (c : Cont) : State :=
  if pf then
    match s.bufferGet h 0 a n with
    | some bs => s.complete c 0 0 bs
    | none =>
      let r := s.readAccess (hostReq h) (a / 64 * 64) 64 true .drop
      let st := r.1.getD 0
      if st = 0 then (r.2.2.bufferPut h 0 (a / 64 * 64) r.2.1).complete c 0 0 (slice r.2.1 (a % 64) n)
      else if st = 6 then (r.2.2.inc (rHBx_CNT_PF_REFUSED h)).plainRead h a n win c
      else r.2.2.complete (.here h win c) st 0 []
  else s.plainRead h a n win c

/-! ### The order of a port's requests to its own hub (R260) -/

/-- The host port that a completion goes to. -/
def Cont.port : Cont → Option Nat
  | .host h _ _ => some h
  | .posted h _ _ => some h
  | .qspi h => some h
  | .npost h _ => some h
  | .here h _ _ => some h
  | _ => none

/-- A request of host port h to its own hub has begun and not ended: an access that waits for its page or for the die link, or an atomic that
waits for the semaphore. -/
def State.localBusy (s : State) (h : Nat) : Bool :=
  s.held.any (fun e => e.cont.port = some h) || s.pdWrites.any (fun w => w.cont.port = some h) || (s.br h).atoms.any (fun a => a.node.isNone)

/-- A request to this hub is served. -/
def State.serveLocal (s : State) (h : Nat) : LocalReq → State
  | .read a n win pf c => s.readHere h a n win pf c
  | .write a bs c =>
    let r := s.writeAccess (hostReq h) a bs c
    match r.1 with
    | none => r.2
    | some st => r.2.complete c st 0 []
  | .atomic a => (s.setBr h { s.br h with atoms := (s.br h).atoms ++ [a] }).kickAtoms

/-- Requests to this hub are served in issue order, each when the one before it has ended. -/
def State.localPump : Nat → State → Nat → State
  | 0, s, _ => s
  | k + 1, s, h =>
    match (s.br h).locals with
    | [] => s
    | r :: rest => if s.localBusy h then s else State.localPump k ((s.setBr h { s.br h with locals := rest }).serveLocal h r) h

/-- A request to this hub takes its turn. -/
def State.localIn (s : State) (h : Nat) (r : LocalReq) : State :=
  let l := (s.br h).locals ++ [r]
  State.localPump l.length (s.setBr h { s.br h with locals := l }) h

/-- What waited behind a request that has ended goes on, at both ports: after an access that waited, and at a tick (log entry 95). -/
def State.localTurn (s : State) : State :=
  let s := State.localPump (s.br 0).locals.length s 0
  State.localPump (s.br 1).locals.length s 1

/-- A read of this hub. -/
def State.hereRead (s : State) (h a n win : Nat) (pf : Bool) (c : Cont) : State := s.localIn h (.read a n win pf c)

/-- A read of fabric node and address by host h. -/
def State.hostRead (s : State) (h node a n win cls : Nat) (pf : Bool) (c : Cont) : State :=
  let node := s.resolveRing node
  if s.isThisHub node then s.hereRead h a n win pf c
  else if node % 256 = 255 then
    let st := 1 + s.freeN % 7
    (s.step1.npBare h st 0 win).complete c st 0 []
  else match (if pf then s.bufferGet h (node + 1) a n else none) with
    | some bs => s.complete c 0 0 bs
    | none =>
      if s.noRoute h node then ((s.noRouteEvent h node).npBare h 7 1 win).complete c 7 1 []
      else s.npQueue h { kind := 3, node := node, addr := a, len := n, data := [], win := win, cls := cls, pf := pf, cont := c }

/-! ### Writes (R254, R261, R270) -/

/-- A write of this hub by host h: `c` is where it completes, `np` whether a failure is a non-posted one. -/
def State.hereWrite (s : State) (h a : Nat) (bs : List Byte) (win : Nat) (np : Bool) (c : Cont) : State :=
  s.localIn h (.write a bs (if np then .here h win c else c))

/-- A write of fabric node and address by host h through a window, posted or not. -/
def State.hostWrite (s : State) (h node a : Nat) (bs : List Byte) (win cls : Nat) (posted : Bool) (c : Cont) : State :=
  let node := s.resolveRing node
  let fab := node * 2 ^ 32 + a
  if s.halted h win then
    if posted then s.haltDrop h fab win
    else (s.npBare h 7 2 win).complete c 7 2 []
  else if s.isThisHub node then s.hereWrite h a bs win (!posted) c
  else if posted then
    if s.noRoute h node then (s.noRouteEvent h node).pweBare h 1 7 1 fab win
    else s.postQueue h ⟨node, a, bs, win, cls⟩
  else if node % 256 = 255 then
    let st := 1 + s.freeN % 7
    (s.step1.npBare h st 0 win).complete c st 0 []
  else if s.noRoute h node then ((s.noRouteEvent h node).npBare h 7 1 win).complete c 7 1 []
  else s.npQueue h { kind := 2, node := node, addr := a, len := bs.length, data := bs, win := win, cls := cls, cont := c }

/-! ### Atomics (R264) -/

/-- An atomic of host h on fabric node and address. -/
def State.hostAtomic (s : State) (h node a len op operand compare win cls : Nat) (c : Cont) : State :=
  let name := node
  let node := s.resolveRing node
  let stop (s : State) (st sub : Nat) : State := (s.npBare h st sub win).complete c st sub []
  if inPages a then stop s 3 0
  else
    let x := s.br h
    let a' : Atom := { id := x.nextId * 2 + h, node := none, addr := a, len := len, op := op, operand := operand, compare := compare, win := win,
                       cls := cls, ret := c, name := name }
    if s.isThisHub node then (s.setBr h { x with nextId := x.nextId + 1 }).localIn h (.atomic a')
    else if node % 256 = 255 then stop s.step1 (1 + s.freeN % 7) 0
    else if s.noRoute h node then stop (s.noRouteEvent h node) 7 1
    else
      let a' := { a' with node := some node, step := 1 }
      (s.setBr h { x with nextId := x.nextId + 1, atoms := x.atoms ++ [a'] }).npQueue h
        (atomReq a' 0xA 1 none [toB (s.get rARB_CFG fARB_CFG_bridge_sem)] (.atom a'.id))

/-! ### PCI Express (R245 to R247) -/

/-- A host read or atomic begins, with the number of its pieces. -/
def State.openParts (s : State) (h id n : Nat) : State :=
  let x := s.br h
  s.setBr h { x with reads := x.reads.filter (fun r => r.id != id) ++ [{ id := id, parts := List.replicate n none }] }

/-- A request that completes at once with a status. -/
def State.pcieStop (s : State) (h id st win : Nat) : State := ((s.openParts h id 1).npBare h st 0 win).complete (.host h id 0) st 0 []

/-- The pieces of a request, each with its number. -/
def numbered (l : List (Nat × Nat)) : List (Nat × Nat × Nat) := (List.range l.length).zip l

/-- BAR0: one or two aligned DWORDs with all byte enables (R247). -/
def bar0Ok (off n : Nat) (full : Bool) : Bool := full && pageShape off n

def State.pcieBar0 (s : State) (h id off : Nat) (op : PcieOp) (full : Bool) : State :=
  let a := 0x10000000 + off
  match op with
  | .read n =>
    if 0x100000 ≤ off then s.pcieStop h id 1 31
    else if bar0Ok off n full then (s.openParts h id 1).hereRead h a n 31 false (.host h id 0)
    else s.pcieStop h id 3 31
  | .write bs =>
    let fab := 0x3FFFF * 2 ^ 32 + a
    if 0x100000 ≤ off then s.pweBare h 1 1 0 fab 31
    else if bar0Ok off bs.length full then s.hereWrite h a bs 31 false (.posted h fab 31)
    else s.pweBare h 0 3 0 fab 31
  | .atomic _ _ _ _ => s.pcieStop h id 3 31

/-- An AtomicOp of a form that the port completes (R245). -/
def atomicForm (op len : Nat) : Bool := (1 ≤ op && op ≤ 3) && (len = 4 || len = 8)

def State.pcieBar2 (s : State) (h id off : Nat) (op : PcieOp) : State :=
  let n := off / 2 ^ 22
  let w := rHBx_WIN_ATTR h n
  let fab := s.get (rHBx_WIN_BASE h n) fHBx_WIN_BASE_base * 2 ^ 22 + off % 2 ^ 22
  let node := fab / 2 ^ 32
  let on := decide (n < 16) && s.flag w fHBx_WIN_ATTR_enable
  let rcls := reqClass (s.get w fHBx_WIN_ATTR_rclass)
  let wcls := reqClass (s.get w fHBx_WIN_ATTR_wclass)
  let pf := s.flag w fHBx_WIN_ATTR_prefetch
  match op with
  | .read len =>
    if !on then s.pcieStop h id 1 n
    else
      let l := numbered (cutAt (len + 1) (if pf then 64 else 128) (fab % 2 ^ 32) len)
      l.foldl (fun (s : State) e => s.hostRead h node e.2.1 e.2.2 n rcls pf (.host h id e.1)) (s.openParts h id l.length)
  | .write bs =>
    if !on then s.pweBare h 1 1 0 fab (min n 31)
    else
      let posted := s.flag w fHBx_WIN_ATTR_posted
      let base := fab % 2 ^ 32
      (cutAt (bs.length + 1) 128 base bs.length).foldl (fun (s : State) e =>
        s.hostWrite h node e.1 (slice bs (e.1 - base) e.2) n (if posted then wcls else rcls) posted
          (if posted then .posted h (node * 2 ^ 32 + e.1) n else .npost h n)) s
  | .atomic o len x y =>
    if !on || !atomicForm o len then s.pcieStop h id 1 n
    else (s.openParts h id 1).hostAtomic h node (fab % 2 ^ 32) len o x y n rcls (.host h id 0)

def State.pcieBar4 (s : State) (h id off : Nat) (op : PcieOp) : State :=
  match s.bar4 h off with
  | none => match op with
    | .write _ => s.pweBare h 1 1 0 (0x3FFFF * 2 ^ 32 + off) 31
    | _ => s.pcieStop h id 1 31
  | some a => match op with
    | .read len =>
      let l := numbered (cutAt (len + 1) 64 a len)
      l.foldl (fun (s : State) e => s.hereRead h e.2.1 e.2.2 31 true (.host h id e.1)) (s.openParts h id l.length)
    | .write bs =>
      (cutAt (bs.length + 1) 128 a bs.length).foldl (fun (s : State) e => s.hereWrite h e.1 (slice bs (e.1 - a) e.2) 31 false (.posted h (0x3FFFF * 2 ^ 32 + e.1) 31)) s
    | .atomic o len x y =>
      if !atomicForm o len then s.pcieStop h id 1 31 else (s.openParts h id 1).hostAtomic h 0x3FFFF a len o x y 31 2 (.host h id 0)

/-- A PCI Express request in BAR 0, 2 or 4. In L2 and deeper the port is gated, and its receiver wakes the hub (R532, R534). -/
def State.pcie (s : State) (h id bar off : Nat) (op : PcieOp) (full : Bool) : State :=
  if s.get (rHBx_CFG h) fHBx_CFG_mode != 0 then s
  else if !s.fieldRuns then s.wakeBy [2]
  else
    let s := match op with
      | .read _ => s
      | _ => s.bufferDrop h
    if bar = 0 then s.pcieBar0 h id off op full else if bar = 1 then s.pcieBar2 h id off op else s.pcieBar4 h id off op

/-- What identifies the one function of a host port in PCI Express mode (R245). -/
structure PcieFunction where
  vendor : BitVec 16
  device : BitVec 16
  revision : Byte
  classCode : BitVec 24
  subsystemVendor : BitVec 16
  subsystem : BitVec 16
deriving DecidableEq, Repr

/-- The function's identity, the same for both ordering codes; its revision is the stepping (R245). It stands in configuration space, which no row
of the table reads (log entry 72). -/
def State.pcieFunction (s : State) : PcieFunction :=
  { vendor := 0x1F5A, device := 0x0128, revision := toB (s.get rCHIP_REV fCHIP_REV_stepping), classCode := 0x088000, subsystemVendor := 0x1F5A,
    subsystem := 0x0128 }

def execPcieRequest (h : Fin 2) (id : Nat) (bar : Fin 3) (off : Nat) (op : PcieOp) (full : Bool) (s : State) : Host.Outcome State Fault Refusal :=
  finish s (s.pcie h.val id bar.val off op full)

/-! ### Quad-SPI (R249 to R253) -/

/-- The status octet of a reply (R251). -/
def State.qspiStatus (s : State) (h : Nat) (done : Bool) (st : Nat) (crc refused : Bool) : Nat :=
  b2n done * 128 + st % 8 * 16 + b2n crc * 8 + b2n (s.irqPin h) * 4 + b2n refused * 2

/-- The hub's part of a frame: status octet, data, and the CRC-8 over both (R249). -/
def State.qspiReply (s : State) (h : Nat) (done : Bool) (st : Nat) (data : List Byte) (crc : Bool := false) (refused : Bool := false) : State :=
  let status := s.qspiStatus h done st crc refused
  s.emit (.qspi h status data (crc8 (toB status :: data)))

/-- A frame that is turned away because a command is pending, or because its CS_N woke the hub (R251). -/
def State.qspiRefuse (s : State) (h win : Nat) : State := (s.npBare h 7 6 win).qspiReply h true 7 [] false true

/-- A frame arrives: one that wakes the hub, that is damaged, or that comes while a command is pending is not acted on (R249, R252, R534).
Whether the island runs by the reply phase of a frame that woke the hub is not stated: a free value. -/
def State.qspiFrame (s : State) (h win : Nat) (bad always : Bool) (act : State → State) : State :=
  if s.get (rHBx_CFG h) fHBx_CFG_mode != 1 then s
  else if 2 ≤ s.pwr.level then
    let s := s.wakeBy [2]
    if s.pwr.waking && s.freeN % 2 = 0 then s.step1.qspiRefuse h win else s.step1
  else match s.armed (brPage h) 2 with
  | some _ => (((s.disarm (brPage h)).raiseInj (32 + h) (brPage h))).qspiReply h false 0 [] true
  | none =>
  if bad then (s.raise (32 + h) (brPage h)).qspiReply h false 0 [] true
  else if (s.br h).busy && !always then s.qspiRefuse h win
  else act s

/-- A new command takes the result buffer. -/
def State.qspiStart (s : State) (h : Nat) : State := s.setBr h { s.br h with result := none, busy := true }

/-- The reply to a local command: done with its result, or not yet, where it is late or its completion waits. -/
def State.qspiAnswer (s : State) (h : Nat) (late : Bool) : State :=
  match (s.br h).result with
  | some (st, _, data) => if late then s.qspiReply h false 0 [] else s.qspiReply h true st data
  | none => s.qspiReply h false 0 []

/-- LEN is 1 to 128 and the octets do not cross a 128-octet boundary (R249, R256). -/
def qspiLen (a n : Nat) : Bool := 1 ≤ n && n ≤ 128 && a % 128 + n ≤ 128

/-- A command on a fabric address (R18, R19, R254): stopped at this port, or the node and local address. -/
inductive QspiTo where
  | stop (st : Nat)
  | go (node addr : Nat)
deriving DecidableEq, Repr

def State.qspiTarget (s : State) (h fab n type : Nat) : QspiTo × State :=
  if 2 ^ 50 ≤ fab then (.stop 1, s.fault (accessEv 48 0xFFF (hostReq h) type n fab))
  else if !s.flag (rHBx_QATTR h) fHBx_QATTR_enable then (.stop 1, s)
  else if !qspiLen (fab % 128) n then (.stop 3, s)
  else (.go (fab / 2 ^ 32) (fab % 2 ^ 32), s)

/-- A fabric command of quad-SPI: its reply has done = 0, and its completion goes to the result buffer. -/
def State.qspiFabric (s : State) (h fab n type : Nat) (go : Nat → Nat → State → State) : State :=
  let s := s.qspiStart h
  let t := s.qspiTarget h fab n type
  let s := match t.1 with
    | .stop st => (t.2.npBare h st 0 16).complete (.qspi h) st 0 []
    | .go node a => go node a t.2
  s.qspiReply h false 0 []

def execQspiLocalRead (h : Fin 2) (bad late : Bool) (a len : Nat) (s : State) : Host.Outcome State Fault Refusal :=
  finish s (s.qspiFrame h.val 31 bad false (fun s =>
    let s := s.qspiStart h.val
    let s := if qspiLen a len then s.hereRead h.val a len 31 false (.qspi h.val) else (s.npBare h.val 3 0 31).complete (.qspi h.val) 3 0 []
    s.qspiAnswer h.val late))

def execQspiLocalWrite (h : Fin 2) (bad late : Bool) (a : Nat) (data : List Byte) (s : State) : Host.Outcome State Fault Refusal :=
  finish s (s.qspiFrame h.val 31 bad false (fun s =>
    let s := (s.qspiStart h.val).bufferDrop h.val
    let s := if qspiLen a data.length then s.hereWrite h.val a data 31 true (.qspi h.val)
      else (s.npBare h.val 3 0 31).complete (.qspi h.val) 3 0 []
    s.qspiAnswer h.val late))

def execQspiFabricRead (h : Fin 2) (bad : Bool) (fab len : Nat) (s : State) : Host.Outcome State Fault Refusal :=
  finish s (s.qspiFrame h.val 16 bad false (fun s => s.qspiFabric h.val fab len 1 (fun node a s =>
    s.hostRead h.val node a len 16 (reqClass (s.get (rHBx_QATTR h.val) fHBx_QATTR_rclass)) false (.qspi h.val))))

def execQspiFabricPostedWrite (h : Fin 2) (bad : Bool) (fab : Nat) (data : List Byte) (s : State) : Host.Outcome State Fault Refusal :=
  finish s (s.qspiFrame h.val 16 bad false (fun s =>
    let s := (s.setBr h.val { s.br h.val with result := none }).bufferDrop h.val
    let t := s.qspiTarget h.val fab data.length 2
    match t.1 with
    | .stop st =>
      let s := t.2.pweBare h.val 1 st 0 (fab % 2 ^ 50) 16
      (s.qspiDone h.val st 0 []).qspiReply h.val true st []
    | .go node a =>
      let s := t.2.hostWrite h.val node a data 16 (reqClass (s.get (rHBx_QATTR h.val) fHBx_QATTR_wclass)) true (.posted h.val (node * 2 ^ 32 + a) 16)
      (s.qspiDone h.val 0 0 []).qspiReply h.val true 0 []))

def execQspiFabricNonpostedWrite (h : Fin 2) (bad : Bool) (fab : Nat) (data : List Byte) (s : State) : Host.Outcome State Fault Refusal :=
  finish s (s.qspiFrame h.val 16 bad false (fun s => (s.bufferDrop h.val).qspiFabric h.val fab data.length 2 (fun node a s =>
    s.hostWrite h.val node a data 16 (reqClass (s.get (rHBx_QATTR h.val) fHBx_QATTR_rclass)) false (.qspi h.val))))

def execQspiFabricAtomic (h : Fin 2) (bad : Bool) (fab op len operand compare : Nat) (s : State) : Host.Outcome State Fault Refusal :=
  finish s (s.qspiFrame h.val 16 bad false (fun s => (s.bufferDrop h.val).qspiFabric h.val fab len 4 (fun node a s =>
    if atomicForm op len then
      s.hostAtomic h.val node a len op operand compare 16 (reqClass (s.get (rHBx_QATTR h.val) fHBx_QATTR_rclass)) (.qspi h.val)
    else (s.npBare h.val 3 0 16).complete (.qspi h.val) 3 0 [])))

def execQspiResult (h : Fin 2) (bad : Bool) (s : State) : Host.Outcome State Fault Refusal :=
  finish s (s.qspiFrame h.val 31 bad true (fun s =>
    if (s.br h.val).busy then s.qspiReply h.val false 0 []
    else match (s.br h.val).result with
      | some (st, _, data) => s.qspiReply h.val true st data
      | none => s.qspiReply h.val false 0 []))

def execQspiInterruptStatus (h : Fin 2) (bad : Bool) (s : State) : Host.Outcome State Fault Refusal :=
  finish s (s.qspiFrame h.val 31 bad true (fun s => s.qspiReply h.val true 0 (leBytes 4 (s.pba h.val).toNat)))

/-! ### Responses and notices at the bridge (R258, R266, R267) -/

/-- The bridge that a system flow belongs to (R178, R255). -/
def flowBridge (flow : Nat) : Option Nat :=
  let r := natBits flow 11 8
  if r = 0 then some 0 else if r = 1 then some 1 else if r = 3 then some (2 + natBits flow 7 4 % 16) else none

/-- A request has its answer: failures are recorded, that of a locked write is logged too, and what waited goes on. -/
def State.npAnswer (s : State) (b : Nat) (r : NpReq) (st sub token seq : Nat) (data : List Byte) : State :=
  let x := s.br b
  let s := s.setBr b { x with outst := x.outst.filter (fun e => e.tag != r.tag) }
  let s := if st != 0 && b < 2 && r.cont != .drop then s.npFail b st sub r.win r.tag else s
  let s := if st != 0 && b < 2 && r.kind = 2 && r.lock.isSome then s.pweLog b 3 st sub r.tag (r.node * 2 ^ 32 + r.addr) r.win seq 1 else s
  (s.complete r.cont st sub data token).pump b

/-- A response frame at bridge b. -/
def State.takeResponse (s : State) (b : Nat) (f : Frame) : State :=
  let p := f.payload
  let tag := beNat (slice p 0 2)
  let st := (nthD p 2 0).toNat % 16
  let sub := (nthD p 2 0).toNat / 16
  let n := (nthD p 8 0).toNat
  if p.length < 16 then s.raise 41 (brPage b)
  else match (s.br b).outst.find? (fun e => e.tag = tag) with
    | none =>
      if spGet (fun _ => false) (s.br b).issued tag then (if b < 2 then s.inc (rHBx_CNT_DUP_RSP b) else s) else s.raise 41 (brPage b)
    | some r =>
      let want := if r.kind = 3 then (if r.pf then 64 else r.len) else 0
      let data := slice p 16 n
      if st = 0 && (n != want || data.length != n) then s.raise 41 (brPage b)
      else if r.pf && st = 6 then
        let x := s.br b
        let t := (((s.inc (rHBx_CNT_PF_REFUSED b)).setBr b { x with outst := x.outst.erase r })).brTag b
        let r' := { r with pf := false, tag := t.1, retry := 0 }
        let y := t.2.br b
        (t.2.setBr b { y with outst := r' :: y.outst }).npFrame b r'
      else
        let s := if r.pf && st = 0 then s.bufferPut b (r.node + 1) (r.addr / 64 * 64) data else s
        s.npAnswer b r st sub (beNat (slice p 4 2)) f.seq (if r.pf && st = 0 then slice data (r.addr % 64) r.len else data)

/-- The first frame at endpoint port o of a kind that p holds of is taken; one that carries discard goes no further (R141). -/
def State.takeFrame (s : State) (o : Nat) (p : Frame → Bool) (act : Frame → State → State) : State :=
  match (s.outbox o).find? (fun d => p d.frame) with
  | none => s
  | some d =>
    let s := s.setOutbox o ((s.outbox o).erase d)
    if d.discard then s else act d.frame s

def execResponseReceived (port : Fin 3) (s : State) : Host.Outcome State Fault Refusal :=
  finish s (s.takeFrame (4 + port.val) (fun f => f.kind = 4 && (flowBridge f.flow).isSome) (fun f s =>
    match flowBridge f.flow with
    | some b => s.takeResponse b f
    | none => s))

/-- A posted write of node n of bridge b is no longer in flight, `k` of them. -/
def State.confirm (s : State) (b node k : Nat) : State :=
  let x := s.br b
  let was := inFlight x
  (s.setBr b { x with pdt := x.pdt.map (fun e => if e.node = node then { e with n := e.n - k } else e) }).fenceIrq b was

/-- A notice at bridge b: an error or an ack (R256, R266, R267). -/
def State.takeNotice (s : State) (b : Nat) (f : Frame) : State :=
  let p := f.payload
  let code := (nthD p 0 0).toNat
  let st := (nthD p 2 0).toNat
  if p.length < 16 || (code != 1 && code != 2) then s.raise 41 (brPage b)
  else if code = 2 then (s.confirm b f.src (beNat (slice p 8 4))).pump b
  else
    let tag := beNat (slice p 4 2)
    match (s.br b).posted.find? (fun e => e.tag = tag) with
    | none => s.raise 41 (brPage b)
    | some e =>
      let s := if e.bcast then s else s.confirm b e.node 1
      (s.postedFail b 0 (st % 16) (st / 16) tag ((if e.bcast then f.src else e.node) * 2 ^ 32 + beNat (slice p 8 4)) e.win f.seq 1).pump b

/-- An ack request, which goes to the target engine. -/
def isAckRequest (f : Frame) : Bool := f.kind = 5 && (nthD f.payload 0 0).toNat = 3

def execPostedNoticeReceived (port : Fin 3) (s : State) : Host.Outcome State Fault Refusal :=
  finish s (s.takeFrame (4 + port.val) (fun f => f.kind = 5 && !isAckRequest f && (flowBridge f.flow).isSome) (fun f s =>
    match flowBridge f.flow with
    | some b => s.takeNotice b f
    | none => s))

/-! ### Times of the bridge (R258, R261, R262, R267) -/

/-- A request of bridge b has had no response within rsp_timeout (R258). -/
def State.npTimeout (s : State) (b tag : Nat) : State :=
  match (s.br b).outst.find? (fun e => e.tag = tag) with
  | none => s
  | some r =>
    let lim := if b < 2 then s.get (rHBx_RETRY b) fHBx_RETRY_retries else s.get (rDMA_EXP (b - 2)) fDMA_EXP_retries
    if r.retry < lim then
      let x := s.br b
      let r' := { r with retry := r.retry + 1 }
      let s := s.setBr b { x with outst := x.outst.map (fun e => if e.tag = tag then r' else e) }
      (if b < 2 then s.inc (rHBx_CNT_RETRY b) else s).npFrame b r'
    else
      let q := s.free16
      (q.2.raise 38 (brPage b)).npAnswer b r 7 3 0 q.1 []

def execRequestRetry (b : Fin 18) (tag : Fin 65536) (s : State) : Host.Outcome State Fault Refusal := finish s (s.npTimeout b.val tag.val)

/-- Posted writes to a node have stayed unconfirmed for confirm_timeout (R267): one entry with their count. Its status, its low address bits,
tag and sequence are not stated: free values. -/
def State.unconfirmed (s : State) (h node : Nat) : State :=
  match (s.br h).pdt.find? (fun e => e.node = node && e.n != 0) with
  | none => s
  | some e =>
    let st := 1 + s.freeN % 7
    let s := s.step1
    let a := s.freeN % 2 ^ 32
    let s := s.step1
    let t := s.free16
    ((t.2.confirm h node e.n).pweLog h 2 st 0 t.1 (node * 2 ^ 32 + a) e.win e.seq e.n).pump h

def execPostedConfirmTimeout (h : Fin 2) (node : Nat) (s : State) : Host.Outcome State Fault Refusal := finish s (s.unconfirmed h.val node)

/-- An entry with no write in flight becomes older than 2^age_k slots (R261). -/
def State.pdtAged (s : State) (b node : Nat) : State :=
  let x := s.br b
  (s.setBr b { x with pdt := x.pdt.map (fun e => if e.node = node && e.n = 0 then { e with aged := true } else e) }).pump b

def execPostedEntryAged (b : Fin 18) (node : Nat) (s : State) : Host.Outcome State Fault Refusal := finish s (s.pdtAged b.val node)

/-- The oldest entry of the read buffer is 1 µs old (R262). -/
def execPrefetchExpire (h : Fin 2) (s : State) : Host.Outcome State Fault Refusal :=
  finish s (s.setBr h.val { s.br h.val with buffer := (s.br h.val).buffer.drop 1 })

/-! ### The target engine (R256, R259, R261, R264 to R266) -/

/-- The requester of a request frame that came in at fabric input i: a ring requester, or, for a broadcast of this hub's own, its originator.
A poll of this hub counts as from the ring. -/
def tgtReq (f : Frame) (inp : Nat) : Req :=
  if 4 ≤ inp && f.kind != 6 then ⟨(nthD f.payload 2 0).toNat, 0, 0⟩ else ⟨0x30, f.src, if 4 ≤ inp then 0 else inp / 2⟩

/-- A sequence window has received a sequence, or has left it behind (R261). -/
def SeqWin.has (w : SeqWin) (a : Nat) : Bool :=
  let d := (a + 65536 - w.top) % 65536
  if d = 0 then true else if d < 32768 then false else if 65536 - d < 64 then w.window.testBit (65536 - d) else true

/-- A request may be performed: what it comes after has been received and does not itself wait (R260, R261). -/
def State.tgtReady (s : State) (f : Frame) : Bool :=
  let p := f.payload
  if bitOf (toW (nthD p 3 0).toNat) 5 then
    let a := beNat (slice p 4 2)
    let flow := natPut f.flow 0 0 0
    let w := ((s.flw.sys.find? (fun e => e.src = f.src && e.flow = flow)).map SysWin.win).getD {}
    w.has a && !(s.tgt.waiting.any (fun x => x.1.src = f.src && x.1.flow = flow && x.1.kind = 1 && x.1.seq = a))
  else true

/-- The octets a request touches lie in a side-effect range, so that it needs an entry of the response cache (R259). -/
def tgtNeedsEntry (f : Frame) : Bool :=
  let p := f.payload
  (f.kind = 2 || f.kind = 3) && touchesSideEffect (beNat (slice p 8 4)) (nthD p 12 0).toNat

/-- Room in the response cache for one more entry: the cache without what it replaces (R259). -/
def TgtSt.room (t : TgtSt) (src flow tag : Nat) : Option (List CacheEnt) :=
  let l := t.cache.filter (fun e => !(e.src = src && e.flow = flow && e.tag = tag))
  if l.length < 256 then some l
  else match l.reverse.find? (fun e => !e.guarded) with
    | some v => some (l.erase v)
    | none => none

/-- A request is performed (R256, R264, R265). -/
def State.tgtPerform (s : State) (f : Frame) (inp : Nat) : State :=
  let p := f.payload
  let q := tgtReq f inp
  let b3 := toW (nthD p 3 0).toNat
  let a := beNat (slice p 8 4)
  let n := (nthD p 12 0).toNat
  let data := p.drop 16
  let fits := decide (1 ≤ n) && decide (n ≤ 128) && decide (a % 128 + n ≤ 128)
  if f.kind = 0xA then s.ringSem f q (nthD p 13 0).toNat ((nthD p 16 0).toNat % 64)
  else if bitOf b3 6 && !s.tokenHolds q (beNat (slice p 6 2)) then s.tgtDone f 7 4 []
  else if f.kind = 6 then
    if readsSideEffect a 4 then s.tgtDone f 6 0 []
    else
      let r := s.readAccess q a 4 false (.ring f)
      match r.1 with
      | some st => r.2.2.tgtDone f st 0 r.2.1
      | none => r.2.2
  else if !fits || (f.kind != 3 && data.length != n) then s.tgtDone f 3 0 []
  else if f.kind = 3 then
    let r := s.readAccess q a n (bitOf b3 7) (.ring f)
    match r.1 with
    | some st => r.2.2.tgtDone f st 0 r.2.1
    | none => r.2.2
  else
    let r := s.writeAccess q a data (.ring f)
    match r.1 with
    | some st => r.2.tgtDone f st 0 []
    | none => r.2

/-- One request at the engine: none where it must stay for want of a cache entry (R259). -/
def State.tgtTry (s : State) (f : Frame) (inp : Nat) : Option State :=
  let p := f.payload
  let tag := beNat (slice p 0 2)
  if p.length < 16 then some s
  else if isAckRequest f then some (s.sendAck f.src (natPut f.flow 0 0 0) f.flow f.seq (s.answerNode f.dest))
  else
    let hit := if (nthD p 3 0).toNat % 8 = 0 then none else s.tgt.cache.find? (fun e => e.src = f.src && e.flow = f.flow && e.tag = tag)
    match hit with
    | some e =>
      let s := s.inc rTGT_CNT_CACHE_HIT
      some (if e.status = 256 then s else s.respond f (e.status % 16) (e.status / 16) 0 e.data)
    | none =>
      if tgtNeedsEntry f then
        match s.tgt.room f.src f.flow tag with
        | none => none
        | some l =>
          let s : State := { s with tgt := { s.tgt with cache := ⟨f.src, f.flow, tag, 256, [], true⟩ :: l } }
          some (s.tgtPerform f inp)
      else some (s.tgtPerform f inp)

/-- Requests that waited and may be performed now are, the oldest first. -/
def State.tgtWaiting : Nat → State → State
  | 0, s => s
  | k + 1, s =>
    match s.tgt.waiting.find? (fun w => s.tgtReady w.1) with
    | none => s
    | some w =>
      match s.tgtTry w.1 w.2 with
      | none => s
      | some t => State.tgtWaiting k { t with tgt := { t.tgt with waiting := t.tgt.waiting.erase w } }

/-- Frames at an endpoint port that the target engine takes. -/
def tgtTakes (o : Nat) (f : Frame) : Bool :=
  isAckRequest f || (o = 6 && (f.kind = 1 || f.kind = 2 || f.kind = 3 || f.kind = 6 || f.kind = 0xA))

/-- The target engine's turn at endpoint port o: those that waited, then the frame at the head (R261). It pauses while input FP6 holds (R147). -/
def State.tgtTurn (s : State) (o : Nat) : State :=
  if s.portHolds 6 then s else
  let s := s.tgtWaiting (s.tgt.waiting.length + 1)
  match (s.outbox o).find? (fun d => tgtTakes o d.frame) with
  | none => s
  | some d =>
    let rest := (s.outbox o).erase d
    if d.discard then s.setOutbox o rest
    else if s.tgtReady d.frame then
      match s.tgtTry d.frame d.inp with
      | none => s
      | some t =>
        let t := t.setOutbox o ((t.outbox o).erase d)
        t.tgtWaiting (t.tgt.waiting.length + 1)
    else if s.tgt.waiting.length < 32 then
      let s := s.setOutbox o rest
      { s with tgt := { s.tgt with waiting := s.tgt.waiting ++ [(d.frame, d.inp)] } }
    else s

def execTargetRequest (port : Fin 3) (s : State) : Host.Outcome State Fault Refusal := finish s (s.tgtTurn (4 + port.val))

/-- The oldest waiting request has waited order_wait and is performed anyway (R261). -/
def State.orderExpire (s : State) : State :=
  match s.tgt.waiting with
  | [] => s
  | w :: rest =>
    match s.tgtTry w.1 w.2 with
    | none => s
    | some t =>
      let t : State := { t with tgt := { t.tgt with waiting := rest } }
      ((t.inc rTGT_CNT_ORDER_WAIT).raise 42).tgtWaiting (rest.length + 1)

def execOrderWaitExpire (s : State) : Host.Outcome State Fault Refusal := finish s s.orderExpire

/-- 2^10 slots have passed since the last ack to a source flow with a count (R266). -/
def State.ackDue (s : State) (src flow : Nat) : State :=
  match s.flw.sys.find? (fun e => e.src = src && e.flow = flow && e.posted != 0) with
  | none => s
  | some e => s.sendAck src flow flow e.ackSeq e.node

def execPostedAckSend (src flow : Nat) (s : State) : Host.Outcome State Fault Refusal := finish s (s.ackDue src flow)

/-- The protection of an entry of the response cache ends, and a request that waited at FP6 for one goes on (R259). -/
def State.unguard (s : State) (src flow tag : Nat) : State :=
  let s : State := { s with tgt := { s.tgt with cache := s.tgt.cache.map (fun e =>
    if e.src = src && e.flow = flow && e.tag = tag then { e with guarded := false } else e) } }
  s.tgtTurn 6

def execResponseCacheUnprotect (src flow tag : Nat) (s : State) : Host.Outcome State Fault Refusal := finish s (s.unguard src flow tag)

/-! ### Accesses by a requester (R46, R247) -/

def execRegisterWrite (q : Req) (a : Nat) (v : Word) (s : State) : Host.Outcome State Fault Refusal :=
  finish s (answered q (s.regAccessW q (a / 4 * 4 % 0x100000) v (.done q)))

def execHostRequest (q : Req) (a : Nat) (op : AccOp) (s : State) : Host.Outcome State Fault Refusal :=
  finish s (match op with
    | .read n pf =>
      let r := s.readAccess q a n pf (.done q)
      match r.1 with
      | some st => r.2.2.done q st r.2.1
      | none => r.2.2
    | .write bs => answered q (s.writeAccess q a bs (.done q)))

end Sys2Proof.Machine
end

