-- ==== Sys2Proof/Machine/FamLate.lean ====
section
/-! DEFINITION. Commands that draw on all the rest: the end of barriers and of writes over the die link (R9, R293), silence of the die link
(R488), the steps of DMA channels (R297 to R301), waking (R534 to R536), configuration records (R564), and the epoch boundary (R12). -/
namespace Sys2Proof.Machine

/-! ### Barriers and the die link -/

/-- The oldest barrier is complete (R293, R309). -/
def State.barrierDone (s : State) : State :=
  match s.barriers with
  | [] => s
  | c :: rest =>
    let s : State := ({ s with barriers := rest }).irq 0x08 2
    (if rest = [] then s.put rXLT_STATUS fXLT_STATUS_barrier_busy 0 else s).complete c 0 0 []

def execBarrierComplete (s : State) : Host.Outcome State Fault Refusal := finish s s.barrierDone

/-- An access that has waited reaches its page again (R27, R31). -/
def State.serve (s : State) (h : HeldAcc) : State :=
  match h.op with
  | .read n pf =>
    let r := s.readAccess h.q h.addr n pf h.cont
    match r.1 with
    | some st => r.2.2.complete h.cont st 0 r.2.1
    | none => r.2.2
  | .write bs =>
    let r := s.writeAccess h.q h.addr bs h.cont
    match r.1 with
    | some st => r.2.complete h.cont st 0 []
    | none => r.2

/-- The accesses that waited are served in their order; those whose page is still busy, or is so again, wait on (R27). -/
def State.serveHeld (s : State) : State := (s.held.foldl State.serve { s with held := [] }).localTurn

/-- The power die acknowledges the oldest write forwarded to it (R9, R486). -/
def State.pdAck (s : State) : State :=
  match s.pdWrites with
  | [] => s
  | w :: rest =>
    let s : State := { s with pdWrites := rest }
    ((s.pdWrite w.addr w.value).complete w.cont 0 0 []).serveHeld

def execPdWriteAck (s : State) : Host.Outcome State Fault Refusal := finish s s.pdAck

/-- No valid frame for 10 ms (R487, R488): both dies declare the link silent, whether it had come up before or not. Every write that waits
completes with 0x5. R9 leaves it open whether the power die has performed such a write; it has not here (DESIGN CHOICE, log entry 80). -/
def State.dieSilent (s : State) : State :=
  if s.flag rPD_LINK_STATUS fPD_LINK_STATUS_silent || s.pd.l6 then s
  else
    let s := (s.put rPD_LINK_STATUS fPD_LINK_STATUS_silent 1).put rPD_LINK_STATUS fPD_LINK_STATUS_up 0
    let s := ((s.inc rPD_CNT_LINK_LOSS).irq 0xF2 2).raise 101
    let l := s.pdWrites
    let s := l.foldl (fun (s : State) w => s.complete w.cont 5 0 []) { s with pdWrites := [] }
    let s := if s.rst.active then s else s.pdErrN 3 101
    ((s.pdEvent 0x0E 0 []).linkLoss).serveHeld

def execDieLinkSilent (s : State) : Host.Outcome State Fault Refusal := finish s s.dieSilent

/-! ### DMA channels, step by step (R297 to R301) -/

/-- A number of 64 bits that two words of a descriptor hold. -/
def DmaSt.wide (d : DmaSt) (i : Nat) : Nat := d.word i + d.word (i + 1) * 2 ^ 32

/-- The current source and destination of channel c. -/
def State.curSrc (s : State) (c : Nat) : Nat := (s.reg (rDMA_CUR_SRC_LO c)).toNat + (s.reg (rDMA_CUR_SRC_HI c)).toNat * 2 ^ 32
def State.curDst (s : State) (c : Nat) : Nat := (s.reg (rDMA_CUR_DST_LO c)).toNat + (s.reg (rDMA_CUR_DST_HI c)).toNat * 2 ^ 32
def State.curLeft (s : State) (c : Nat) : Nat := s.get (rDMA_CUR_LEFT c) fDMA_CUR_LEFT_left

/-- The current registers set. -/
def State.setCur (s : State) (c src dst left : Nat) : State :=
  let s := (s.setReg (rDMA_CUR_SRC_LO c) (toW src)).setReg (rDMA_CUR_SRC_HI c) (toW (src / 2 ^ 32))
  ((s.setReg (rDMA_CUR_DST_LO c) (toW dst)).setReg (rDMA_CUR_DST_HI c) (toW (dst / 2 ^ 32))).setReg (rDMA_CUR_LEFT c) (toW (left % 2 ^ 24))

/-- A burst of n octets is over (R300); the last one completes the descriptor. -/
def State.dmaAdvance (s : State) (c n : Nat) : State :=
  let left := s.curLeft c - n
  let s := s.setCur c (s.curSrc c + n) (s.curDst c + n) left
  if left = 0 then s.dmaComplete c 0 0 else s

/-- A piece lies in a register page that is busy (R27, R31): the burst waits for it. -/
def State.piecesBusy (s : State) (ps : List Piece) : Bool := ps.any (fun p => p.target = 0 && inPages p.out && s.pageBusy (p.out - 0x10000000))

/-- Octets of translated pieces, which may lie in a register page (R298). -/
def State.copyRead (s : State) (c : Nat) (host : List (Nat × Byte)) : List Piece → Nat × List Byte × State
  | [] => (0, [], s)
  | p :: ps =>
    let r := if p.target = 0 && inPages p.out then
        let x := s.readAccess (dmaReq c) p.out p.len false .drop
        (x.1.getD 0, x.2)
      else s.readPieces c host [p]
    if r.1 != 0 then (r.1, [], r.2.2)
    else
      let t := State.copyRead r.2.2 c host ps
      (t.1, r.2.1 ++ t.2.1, t.2.2)

/-- Octets written to translated pieces, which may lie in a register page: none where the write waits for the power die, and its completion
goes to the channel (R9). -/
def State.copyWrite (s : State) (c : Nat) : List Piece → List Byte → Option Nat × State
  | [], _ => (some 0, s)
  | p :: ps, bs =>
    let r := if p.target = 0 && inPages p.out then s.writeAccess (dmaReq c) p.out (bs.take p.len) (.dma c)
      else
        let x := s.writePieces c [p] (bs.take p.len)
        (some x.1, x.2)
    if r.1 != some 0 then r else State.copyWrite r.2 c ps (bs.drop p.len)

/-- A translated range of a transfer that starts at `first` is read: none where a fault has taken the channel to FAULTED or a page is busy. -/
def State.burstRead (s : State) (c a n first : Nat) (host : List (Nat × Byte)) : Option (Nat × List Byte) × State :=
  let r := s.xlate c a n .read (some first)
  match r.1.1 with
  | some (cause, fa) => (none, r.2.dmaFault c cause fa)
  | none =>
    if r.2.piecesBusy r.1.2 then (none, r.2)
    else
      let m := r.2.copyRead c host r.1.2
      (some (m.1, m.2.1), m.2.2)

/-- The pieces of a translated range that a transfer is about to write: none where a fault has taken the channel to FAULTED or a page is
busy. -/
def State.burstDest (s : State) (c a n first : Nat) : Option (List Piece) × State :=
  let r := s.xlate c a n .write (some first)
  match r.1.1 with
  | some (cause, fa) => (none, r.2.dmaFault c cause fa)
  | none => if r.2.piecesBusy r.1.2 then (none, r.2) else (some r.1.2, r.2)

/-- The next descriptor is fetched (R297, R301, R302). -/
def State.dmaFetch (s : State) (c : Nat) (host : List (Nat × Byte)) : State :=
  let a := (s.reg (rDMA_CUR_DESC c)).toNat
  let bad (s : State) (st sub : Nat) : State :=
    ((s.setCur c 0 0 0).setDma c { s.dma c with desc := List.replicate 8 0 }).dmaComplete c st sub
  if a % 32 != 0 then bad s 5 0
  else
    let r := s.xlate c a 32 .fetch
    match r.1.1 with
    | some (cause, fa) => r.2.dmaFault c cause fa
    | none =>
      let m := r.2.readPieces c host r.1.2
      if m.1 != 0 then bad m.2.2 3 m.1
      else
        let ws := (List.range 8).map (fun i => toW (leNat (slice m.2.1 (4 * i) 4)))
        let d : DmaSt := { m.2.2.dma c with desc := ws, started := false, gather := [] }
        (m.2.2.setDma c d).setCur c (d.wide 2) (d.wide 4) (natBits (d.word 1) 23 0)

/-- One side of a transfer at setup (R298): the fault of its first page, or whether a page with se = 1 does not hold all of it outside the
side-effect ranges. -/
def State.setupSide (s : State) (c a n : Nat) (x : Xfer) : Option (Nat × Nat) × Bool × State :=
  let m := min n (4096 - a % 4096)
  let r := s.translate (xlMaster c) (s.dmaLevel c) (a % 2 ^ 32) x (s.dmaBus c)
  if r.1.cause = 8 && r.1.se then (none, true, r.2)
  else if r.1.cause != 0 then (some (r.1.cause, a % 2 ^ 32), false, r.2.xltFault (xlMaster c) (a % 2 ^ 32) x r.1.cause m)
  else
    let refused := r.1.se && (m != n || (inPages r.1.out && (List.range m).any (fun i => sideEffectAddr (r.1.out + i))))
    (none, refused, r.2)

/-- The setup of a descriptor (R297 to R299). A fence waits for the channel's posted writes; one after a posted-write error completes with
status 6 without running. -/
def State.dmaSetup (s : State) (c : Nat) : State :=
  let d := s.dma c
  let op := natBits (d.word 0) 31 28
  let len := natBits (d.word 1) 23 0
  let b := s.br (2 + c)
  let fence := natBits (d.word 0) 23 23 = 1
  if fence && (inFlight b != 0 || b.wait != []) then s
  else if fence && d.postedErr then (s.setDma c { d with postedErr := false }).dmaComplete c 6 0
  else if 3 < op || (op != 3 && len = 0) then s.dmaComplete c 5 0
  else if op = 3 && 484 < len then s.dmaComplete c 4 0
  else
    let r := if (op = 0 || op = 1 || op = 3) && len != 0 then s.setupSide c (d.wide 2) len .read else (none, false, s)
    match r.1 with
    | some (cause, fa) => r.2.2.dmaFault c cause fa
    | none =>
      let w := if op = 0 || op = 2 then r.2.2.setupSide c (d.wide 4) len .write else (none, false, r.2.2)
      match w.1 with
      | some (cause, fa) => w.2.2.dmaFault c cause fa
      | none => if r.2.1 || w.2.1 then w.2.2.dmaComplete c 2 0 else w.2.2.setDma c { w.2.2.dma c with started := true }

/-- The class of a channel's remote requests: 0 acts as 1. -/
def DmaSt.cls (d : DmaSt) : Nat := reqClass (natBits (d.word 0) 27 26)

/-- A posted write of a channel is refused at this hub: counted, and the next fence told (R299). -/
def State.dmaPostedErr (s : State) (c : Nat) : State := s.postedFail (2 + c) 1 0 0 0 0 0 0 1

/-- Where a remote request of a channel cannot go (R16, R19, R117): the R28 status. A kind other than a posted write to station 255 fails with
a status that is not stated. -/
def State.dmaStop? (s : State) (c fab : Nat) (posted : Bool) : Option Nat × State :=
  let node := s.resolveRing (fab / 2 ^ 32)
  if 2 ^ 50 ≤ fab then (some 1, s.fault (accessEv 48 0xFFF (dmaReq c) 2 0 fab))
  else if s.isThisHub node then (none, s)
  else if !posted && node % 256 = 255 then (some (1 + s.freeN % 7), s.step1)
  else if s.noRoute (2 + c) node then (some 7, s.noRouteEvent (2 + c) node)
  else (none, s)

/-- The answer to the channel's request: the burst is over, or the descriptor fails. The write of octets that a remote read has returned
ends the burst. -/
def State.dmaTake (s : State) (c n : Nat) (act : List Byte → State → State) : Option State :=
  let d := s.dma c
  match d.result with
  | none => if d.busy then some s else none
  | some (st, data) =>
    let s := s.setDma c { d with busy := false, landing := false, result := none }
    some (if st != 0 then s.dmaComplete c 3 st else if n = 0 then s else if d.landing then s.dmaAdvance c n else act data s)

/-- The octets of a burst are written: the burst is over, or the descriptor fails, or the write waits for the power die. -/
def State.burstWrite (s : State) (c n : Nat) (ps : List Piece) (bs : List Byte) : State :=
  let w := s.copyWrite c ps bs
  match w.1 with
  | some 0 => w.2.dmaAdvance c n
  | some st => w.2.dmaComplete c 3 st
  | none => w.2.setDma c { w.2.dma c with busy := true, landing := true }

/-- Op 0: a burst of up to 64 octets within a 64-octet line of the destination. -/
def State.dmaCopy (s : State) (c : Nat) (host : List (Nat × Byte)) : State :=
  let d := s.dma c
  let n := min (s.curLeft c) (64 - s.curDst c % 64)
  match s.dmaTake c n (fun _ s => s.dmaAdvance c n) with
  | some s => s
  | none =>
    match s.burstRead c (s.curSrc c) n (d.word 2) host with
    | (none, s) => s
    | (some (st, bs), s) =>
      if st != 0 then s.dmaComplete c 3 st
      else match s.burstDest c (s.curDst c) n (d.word 4) with
        | (none, s) => s
        | (some ps, s) => s.burstWrite c n ps bs

/-- Op 1: a remote write of up to 128 octets (R299). -/
def State.dmaWrite (s : State) (c : Nat) (host : List (Nat × Byte)) : State :=
  let d := s.dma c
  let fab := s.curDst c
  let n := min (s.curLeft c) (128 - fab % 128)
  let posted := natBits (d.word 0) 22 22 = 1
  match s.dmaTake c n (fun _ s => s.dmaAdvance c n) with
  | some s => s
  | none =>
    if posted && (s.br (2 + c)).wait != [] then s
    else match s.burstRead c (s.curSrc c) n (d.word 2) host with
      | (none, s) => s
      | (some (st, bs), s) =>
        if st != 0 then s.dmaComplete c 3 st
        else
          let r := s.dmaStop? c fab posted
          let s := r.2
          let node := s.resolveRing (fab / 2 ^ 32)
          match r.1 with
          | some st => if posted then (s.dmaPostedErr c).dmaAdvance c n else s.dmaComplete c 3 st
          | none =>
            if s.isThisHub node then
              let w := s.writeAccess (dmaReq c) (fab % 2 ^ 32) bs (if posted then .drop else .dma c)
              if posted then (if w.1.getD 0 = 0 then w.2 else w.2.dmaPostedErr c).dmaAdvance c n
              else
                let s := w.2.setDma c { w.2.dma c with busy := true }
                match w.1 with
                | some st => s.complete (.dma c) st 0 []
                | none => s
            else if posted then (s.postQueue (2 + c) ⟨node, fab % 2 ^ 32, bs, 31, d.cls⟩).dmaAdvance c n
            else (s.setDma c { s.dma c with busy := true }).npQueue (2 + c)
              { kind := 2, node := node, addr := fab % 2 ^ 32, len := n, data := bs, win := 31, cls := d.cls, cont := .dma c }

/-- Op 2: a remote read of up to 128 octets (R299). The destination is translated before the request leaves. -/
def State.dmaRead (s : State) (c : Nat) : State :=
  let d := s.dma c
  let fab := s.curSrc c
  let n := min (s.curLeft c) (128 - fab % 128)
  match s.dmaTake c n (fun data s =>
    match s.burstDest c (s.curDst c) n (d.word 4) with
    | (none, s) => s
    | (some ps, s) => s.burstWrite c n ps data) with
  | some s => s
  | none =>
    match s.burstDest c (s.curDst c) n (d.word 4) with
    | (none, s) => s
    | (some _, s) =>
      let r := s.dmaStop? c fab false
      let s := r.2
      let node := s.resolveRing (fab / 2 ^ 32)
      match r.1 with
      | some st => s.dmaComplete c 3 st
      | none =>
        let s := s.setDma c { s.dma c with busy := true }
        if s.isThisHub node then
          let x := s.readAccess (dmaReq c) (fab % 2 ^ 32) n false (.dma c)
          match x.1 with
          | some st => x.2.2.complete (.dma c) st 0 x.2.1
          | none => x.2.2
        else s.npQueue (2 + c)
          { kind := 3, node := node, addr := fab % 2 ^ 32, len := n, data := [], win := 31, cls := d.cls, cont := .dma c }

/-- Op 3: the octets of the frame are gathered, then it is presented at FP6, once that port is not held (R147); one that R168 rows 1 to 3
refuse completes with status 4. -/
def State.dmaSend (s : State) (c : Nat) (host : List (Nat × Byte)) : State :=
  let d := s.dma c
  let n := min (s.curLeft c) (64 - s.curSrc c % 64)
  if n = 0 then
    let f := mkFrame 0 (natBits (d.word 0) 27 26) 0 0 0 0 0 (natBits (d.word 4) 15 0) 0 d.gather
    if s.portHolds 6 then s else
    match s.lookup 6 { inp := 6, frame := f, discard := false, cipherDone := false, orig := 6, level := lvlRank (s.dmaLevel c) } with
    | (.gone, s) => s.dmaComplete c 4 0
    | _ => (s.present 6 f (s.dmaLevel c)).dmaComplete c 0 0
  else match s.burstRead c (s.curSrc c) n (d.word 2) host with
    | (none, s) => s
    | (some (st, bs), s) =>
      if st != 0 then s.dmaComplete c 3 st
      else (s.setDma c { s.dma c with gather := (s.dma c).gather ++ bs }).setCur c (s.curSrc c + n) (s.curDst c) (s.curLeft c - n)

/-- One step of a channel in RUN: the write-back that a fault held up, a fetch, a setup, or a burst. -/
def State.dmaStep (s : State) (c : Nat) (host : List (Nat × Byte)) : State :=
  if !s.enabled (0x50 + c) || s.chState c != 2 then s
  else
    let d := s.dma c
    match d.ending with
    | some (st, sub) => (s.setDma c { d with ending := none }).dmaComplete c st sub
    | none =>
      if d.desc = [] then s.dmaFetch c host
      else if !d.started then s.dmaSetup c
      else
        let op := natBits (d.word 0) 31 28
        if op = 0 then s.dmaCopy c host else if op = 1 then s.dmaWrite c host else if op = 2 then s.dmaRead c else s.dmaSend c host

def execDmaBurst (c : Fin 16) (host : List (Nat × Byte)) (s : State) : Host.Outcome State Fault Refusal := finish s (s.dmaStep c.val host)

/-! ### Waking (R534 to R536) -/

/-- The requester of Cumin (R286). -/
def cuminReq : Req := ⟨0x31, 0, 0⟩

/-- The restore list (R536): each entry in a register page is written once, in order, as master 0x31; a bad list is not replayed. -/
def State.replayList (s : State) : State :=
  let base := 0x300000
  let n := (s.word (base + 4)).toNat
  if s.word base != 0x5253544C || 6142 < n || crc32c (s.bytes (base + 16) (8 * n)) != s.word (base + 8) then s
  else (List.range n).foldl (fun (s : State) i =>
    let a := (s.word (base + 16 + 8 * i)).toNat
    if inPages a then (s.regAccessW cuminReq (a - 0x10000000) (s.word (base + 20 + 8 * i)) .drop).2 else s) s

/-- At the restart of the PLLs a new TB0 session opens (R220, R535) and the pace gauge is read (R152). -/
def State.restartRead (s : State) (b0 b1 : Nat) : State :=
  ({ s with pwr := { s.pwr with unlocked := 0 } }.openSession 0).paceReading b0 b1

/-- The code held on entry to L4 goes with the other class W fields once the reading is taken: code, driving and selfcheck_failed; pins no
longer driven show the board's code 15 (R153). -/
def State.dropCode (s : State) (w : Word) : State :=
  let was := s.flag rPACE_CODE fPACE_CODE_driving
  let s := (s.put rPACE_CODE fPACE_CODE_code (fldOf w fPACE_CODE_code)).put rPACE_CODE fPACE_CODE_driving (fldOf w fPACE_CODE_driving)
  let s := s.put rPACE_CODE fPACE_CODE_selfcheck_failed (fldOf w fPACE_CODE_selfcheck_failed)
  if was then s.driveVcore 15 else s

/-- The hub comes back from L4 or L5 (R536): what the level lost, the cause code, the pace gauge's reading, under the code held on entry to L4
(R152), then the restore list after L4. -/
def State.resumeFrom (s : State) (d b0 b1 : Nat) : State :=
  let wake := s.get rPWR_STATUS fPWR_STATUS_wake
  let code := s.reg rPACE_CODE
  let s := s.lose (if d = 4 then .l4 else .l5)
  let reset := s.reg rPACE_CODE
  let s := if d = 4 then s.setReg rPACE_CODE code else s
  let s := ((s.put rRST_CAUSE fRST_CAUSE_code (if d = 4 then 0x20 else 0x21)).put rRST_CAUSE fRST_CAUSE_resume 1)
  let s := ((s.put rPWR_STATUS fPWR_STATUS_wake wake).put rPWR_STATUS fPWR_STATUS_last_level d)
  let s : State := { s with pwr := { s.pwr with level := 0, waking := false, resume := d } }
  let s := s.restartRead b0 b1
  if d = 4 then (s.dropCode reset).replayList else s

/-- Ring control of a ring that sleeps goes to ELECT, and no number is kept (R89, R121). -/
def State.wakeRing (s : State) (x : Nat) : State :=
  if s.enabled 0x28 && s.rcState x = rcSleep then s.enterElect x false 7 else s

/-- The exit from the present level runs (R534 to R536); from L3 on, PLLs restart. The pace gauge's reading at the PLL restart is b0 and b1 (R152). -/
def State.exitLevel (s : State) (b0 b1 : Nat) : State :=
  let d := s.pwr.level
  let wake := s.get rPWR_STATUS fPWR_STATUS_wake
  if d < 2 || !s.pwr.waking then s
  else if d = 6 then
    let s := (s.pdOr rPD_RESET_CAUSE 16).pdEvent 0x14 wake []
    ((({ s with pd := { s.pd with l6 := false } }).hpwr).resetCause 0x04).stage 0x02 (d * 256) [toB wake]
  else
    let s := if 4 ≤ d then s.resumeFrom d b0 b1
      else if d = 3 then ((({ s with pwr := { s.pwr with level := 0, waking := false } }).restartRead b0 b1).wakeRing 0).wakeRing 1
      else { s with pwr := { s.pwr with level := 0, waking := false } }
    let s := ((s.put rPWR_STATUS fPWR_STATUS_level 0).put rPWR_STATUS fPWR_STATUS_last_level d).put rPWR_STATUS fPWR_STATUS_busy 0
    (((s.wdtResume).irq 0x02 2).stage 0x02 (d * 256) [toB wake])

/-- Wake sources act, and the exit runs. -/
def State.wake (s : State) (codes : List Nat) (b0 b1 : Nat) : State := (s.wakeBy codes).exitLevel b0 b1

def execWake (codes : List (Fin 8)) (b0 b1 : Nat) (s : State) : Host.Outcome State Fault Refusal :=
  finish s (s.wake (codes.map Fin.val) b0 b1)

/-- PWR_WAKE_TIMER expires, or in L6 the power die's timer (R534). -/
def execWakeTimerExpire (b0 b1 : Nat) (s : State) : Host.Outcome State Fault Refusal :=
  finish s (s.wake (if s.pwr.level = 6 then [7] else if bitOf (s.reg rPWR_WAKE_TIMER) 31 then [5] else []) b0 b1)

/-! ### Configuration records (R564) -/

/-- The writes of a configuration record, made one after the other by Anise at the level of host h (R564): how many completed with
status 0, and the hub after them. -/
def State.applyConfig (s : State) (h : Nat) (writes : List (Nat × Word)) : Nat × State :=
  writes.foldl (fun (acc : Nat × State) w =>
    let x := acc.2.regAccessW (mbHost h) (w.1 / 4 * 4 % 0x100000) w.2 .drop
    (acc.1 + b2n (x.1 = some 0 || x.1 = none), x.2)) (0, s)

/-- The record's writes, and whether it passes its check, are the operand (log entry 8). -/
def execApplyConfiguration (h : Fin 2) (ok : Bool) (writes : List (Nat × Word)) (s : State) : Host.Outcome State Fault Refusal :=
  finish s (s.mbAct h 0x10 4 fun s =>
    if !ok then s.mbRespond h 5 []
    else
      let r := s.applyConfig h writes
      r.2.mbRespond h 0 (leBytes 4 r.1))

/-! ### The epoch boundary (R12) -/

/-- The diagnostics of a module, read once per epoch: A2h octets 96 to 105, then 112 and 113 (R80, R81). -/
def State.moduleDiag (s : State) (r p : Nat) (l : List Byte) : State :=
  if !s.enabled (ringPage r) || !s.flag (rRGA_MOD_CFG r) fRGA_MOD_CFG_poll_en || !(s.port r p).diag || l.length != 12 then s
  else
    let s := s.setReg (rRGA_MOD_TEMP_VCC r p) (toW (beNat (slice l 0 4)))
    let s := s.setReg (rRGA_MOD_BIAS_TXP r p) (toW (beNat (slice l 4 4)))
    let s := s.setReg (rRGA_MOD_RXP_ALARM r p) (toW (beNat (slice l 8 4)))
    let alarm := beNat (slice l 10 2) != 0
    let s := s.put (rRGA_MOD_STATUS r p) fRGA_MOD_STATUS_diag_alarm (b2n alarm)
    if alarm && s.flag (rRGA_MOD_CFG r) fRGA_MOD_CFG_alarm_fault_en then s.raise (22 + r) (modulePage r) else s

/-- The epoch of SLEEP's effect draws nearer, or is here (R120). -/
def State.sleepEpoch (s : State) (x : Nat) : State :=
  match (if s.enabled 0x28 && (s.rcState x = rcMaster || s.rcState x = rcMember) then (s.rc x).sleepEpochs else none) with
  | none => s
  | some k => if k ≤ 1 then s.drainCore.sleepRing x else s.setRc x { s.rc x with sleepEpochs := some (k - 1) }

/-- The master repeats its fragment set (R189). -/
def State.tableRepeat (s : State) (x : Nat) : State :=
  match (s.ttb x).sentEffect with
  | some e => if s.rcState x = rcMaster && s.flag (rRCTL_STATUS x) fRCTL_STATUS_ring_ready then s.distribute x e else s
  | none => s

/-- What the epoch boundary brings, with the diagnostics that the modules gave: key 2 * ring + port. -/
def State.epoch (s : State) (mods : List (Nat × List Byte)) : State :=
  let s : State := { s with slot := (s.slot / 2 ^ 20 + 1) * 2 ^ 20, pd := { s.pd with crc := 0 } }
  let s := mods.foldl (fun (s : State) e => s.moduleDiag (e.1 / 2 % 2) (e.1 % 2) e.2) s
  let s := s.viewLapse.anise (1, 0, 0) fun s => s.servoUpdate
  let s := (s.tableRepeat 0).tableRepeat 1
  let s := if s.enabled 0x38 then s.readmitAgain else s
  let s := ((s.faultWindows (s.slot / 2 ^ 20)).ledgerEpoch)
  (s.sleepEpoch 0).sleepEpoch 1

def execEpochBoundary (mods : List (Nat × List Byte)) (s : State) : Host.Outcome State Fault Refusal := finish s (s.epoch mods)

end Sys2Proof.Machine
end

