-- ==== Sys2Proof/Machine/FamTap.lean ====
section
/-! DEFINITION. The test access port (R582): what each of its instructions selects and drives; and the in-band status of the management
link (R417). -/
namespace Sys2Proof.Machine

/-- The port works at every level from L0 to L4 (R582); below, the supplies that it needs are off. -/
def State.tapWorks (s : State) : Bool := decide (s.pwr.level ≤ 4)

/-- An instruction comes into force. -/
def State.tapLoad (s : State) (ir : Nat) (reg : TapReg) (drive : TapDrive) : State :=
  if s.tapWorks then { s with tap := { s.tap with ir := ir, reg := reg, drive := drive } } else s

def execExtest (s : State) : Host.Outcome State Fault Refusal := finish s (s.tapLoad 0x00 .boundary .boundary)

def execIdcode (s : State) : Host.Outcome State Fault Refusal := finish s (s.tapLoad 0x01 .identification .hub)

/-- The levels of the balls are sampled and the boundary register is loaded, both in chain order, with the hub working on. -/
def State.tapSample (s : State) (pins load : List Bool) : State :=
  if s.tapWorks then { s with tap := { s.tap with sample := pins, boundary := load } } else s

def execSamplePreload (pins load : List Bool) (s : State) : Host.Outcome State Fault Refusal :=
  finish s ((s.tapLoad 0x02 .boundary .hub).tapSample pins load)

def execHighz (s : State) : Host.Outcome State Fault Refusal := finish s (s.tapLoad 0x03 .bypass .highZ)

def execClamp (s : State) : Host.Outcome State Fault Refusal := finish s (s.tapLoad 0x04 .bypass .boundary)

def execExtestPulse (s : State) : Host.Outcome State Fault Refusal := finish s (s.tapLoad 0x05 .boundary .pulse)

def execExtestTrain (s : State) : Host.Outcome State Fault Refusal := finish s (s.tapLoad 0x06 .boundary .train)

/-- Every code but those of the seven other instructions acts as BYPASS. -/
def execBypass (code : BitVec 8) (s : State) : Host.Outcome State Fault Refusal :=
  finish s (s.tapLoad (if code.toNat ≤ 6 then 0xFF else code.toNat) .bypass .hub)

/-- What the identification register gives. -/
def State.tapIdcode (s : State) : Word := s.reg rCHIP_IDCODE

/-- The in-band status reports a change: link in bit 0, speed in bits 2:1, full duplex in bit 3 (R416, R417). -/
def execInbandStatusChange (st : Fin 16) (s : State) : Host.Outcome State Fault Refusal :=
  finish s (if s.enabled 0x70 then s.macInband st else s)

end Sys2Proof.Machine
end

