-- ==== Sys2Proof/Machine/Dispatch.lean ====
section
/-! DEFINITION. One arm per command: a direct call of its meaning, or a rejection by name. -/
namespace Sys2Proof.Machine

def exec (i : Instr) (s : State) : Host.Outcome State Fault Refusal :=
  match i with
  | .registerWrite q a v => Sys2Proof.Machine.execRegisterWrite q a v s
  | .hostRequest q a op => Sys2Proof.Machine.execHostRequest q a op s
  | .blockReset q p v => Sys2Proof.Machine.execBlockReset q p v s
  | .blockEnable q p v => Sys2Proof.Machine.execBlockEnable q p v s
  | .expertUnlock q p v => Sys2Proof.Machine.execExpertUnlock q p v s
  | .pgIrqForce q p v => Sys2Proof.Machine.execPgIrqForce q p v s
  | .pgFaultClear q p v => Sys2Proof.Machine.execPgFaultClear q p v s
  | .pgFaultInj q p v => Sys2Proof.Machine.execPgFaultInj q p v s
  | .pgClaim q p v => Sys2Proof.Machine.execPgClaim q p v s
  | .pgLock q p v => Sys2Proof.Machine.execPgLock q p v s
  | .portEnable q r p v => Sys2Proof.Machine.execPortEnable q r p v s
  | .moduleCheck r p ack b0 b12 b92 => Sys2Proof.Machine.execModuleCheck r p ack b0 b12 b92 s
  | .moduleRetry r p => Sys2Proof.Machine.execModuleRetry r p s
  | .modulePinChange r p modAbs txFault los => Sys2Proof.Machine.execModulePinChange r p modAbs txFault los s
  | .blockLock r p => Sys2Proof.Machine.execBlockLock r p s
  | .blockLockLost r p => Sys2Proof.Machine.execBlockLockLost r p s
  | .highBer r p w => Sys2Proof.Machine.execHighBer r p w s
  | .trainTimeout r p => Sys2Proof.Machine.execTrainTimeout r p s
  | .train r p t => Sys2Proof.Machine.execTrain r p t s
  | .alignComplete r p => Sys2Proof.Machine.execAlignComplete r p s
  | .alignmentError r p b => Sys2Proof.Machine.execAlignmentError r p b s
  | .slip r p fill => Sys2Proof.Machine.execSlip r p fill s
  | .holdoffExpire r p => Sys2Proof.Machine.execHoldoffExpire r p s
  | .remoteFault r p present => Sys2Proof.Machine.execRemoteFault r p present s
  | .retrain q r p v => Sys2Proof.Machine.execRetrain q r p v s
  | .moduleAccess q r v => Sys2Proof.Machine.execModuleAccess q r v s
  | .moduleAccessDone r nack data => Sys2Proof.Machine.execModuleAccessDone r nack data s
  | .ringFrameReceived r p f crc t sub => Sys2Proof.Machine.execRingFrameReceived r p f crc t sub s
  | .slotFill x p slot sub => Sys2Proof.Machine.execSlotFill x p slot sub s
  | .padApply r p => Sys2Proof.Machine.execPadApply r p s
  | .rctlEnable q v => Sys2Proof.Machine.execRctlEnable q v s
  | .claimReceived x p m step pad => Sys2Proof.Machine.execClaimReceived x p m step pad s
  | .claimSend x => Sys2Proof.Machine.execClaimSend x s
  | .settleExpire x => Sys2Proof.Machine.execSettleExpire x s
  | .electTimeout x => Sys2Proof.Machine.execElectTimeout x s
  | .countReceived x p passed path uid => Sys2Proof.Machine.execCountReceived x p passed path uid s
  | .endReceived x p passed path uid => Sys2Proof.Machine.execEndReceived x p passed path uid s
  | .numberReceived x p m => Sys2Proof.Machine.execNumberReceived x p m s
  | .delayReqSend x p => Sys2Proof.Machine.execDelayReqSend x p s
  | .delayReqReceived x p path src stamp => Sys2Proof.Machine.execDelayReqReceived x p path src stamp s
  | .delayRespReceived x p path t2 t3 src stamp => Sys2Proof.Machine.execDelayRespReceived x p path t2 t3 src stamp s
  | .reportReceived x m => Sys2Proof.Machine.execReportReceived x m s
  | .readyReceived x m slot => Sys2Proof.Machine.execReadyReceived x m slot s
  | .beaconSend x => Sys2Proof.Machine.execBeaconSend x s
  | .beaconReceived x m => Sys2Proof.Machine.execBeaconReceived x m s
  | .beaconMiss x => Sys2Proof.Machine.execBeaconMiss x s
  | .breakReceived x b => Sys2Proof.Machine.execBreakReceived x b s
  | .healedReceived x b loop0 loop1 => Sys2Proof.Machine.execHealedReceived x b loop0 loop1 s
  | .joinReceived x station side uid => Sys2Proof.Machine.execJoinReceived x station side uid s
  | .assignReceived x station neighbour uid => Sys2Proof.Machine.execAssignReceived x station neighbour uid s
  | .demoteReceived x m => Sys2Proof.Machine.execDemoteReceived x m s
  | .demoteEffect x => Sys2Proof.Machine.execDemoteEffect x s
  | .sleepReceived x cancel => Sys2Proof.Machine.execSleepReceived x cancel s
  | .vetoReceived x station => Sys2Proof.Machine.execVetoReceived x station s
  | .sleepSetReceived x => Sys2Proof.Machine.execSleepSetReceived x s
  | .resetMessage x station key => Sys2Proof.Machine.execResetMessage x station key s
  | .treeReceived x level upper => Sys2Proof.Machine.execTreeReceived x level upper s
  | .treeSend => Sys2Proof.Machine.execTreeSend s
  | .rctlElect q v => Sys2Proof.Machine.execRctlElect q v s
  | .rctlRenumber q v => Sys2Proof.Machine.execRctlRenumber q v s
  | .rctlSleep q v => Sys2Proof.Machine.execRctlSleep q v s
  | .rctlReset q v => Sys2Proof.Machine.execRctlReset q v s
  | .epochBoundary mods => Sys2Proof.Machine.execEpochBoundary mods s
  | .frameIngress n env => Sys2Proof.Machine.execFrameIngress n env s
  | .fabricRound => Sys2Proof.Machine.execFabricRound s
  | .bankCountRebuild m => Sys2Proof.Machine.execBankCountRebuild m s
  | .fabLimitWrite q n v => Sys2Proof.Machine.execFabLimitWrite q n v s
  | .fabOccCmd q v => Sys2Proof.Machine.execFabOccCmd q v s
  | .fabAimCmd q v => Sys2Proof.Machine.execFabAimCmd q v s
  | .fabTracePop q mayPrefetch wide => Sys2Proof.Machine.execFabTracePop q mayPrefetch wide s
  | .fabTestStep q v => Sys2Proof.Machine.execFabTestStep q v s
  | .paceReading b0 b1 => Sys2Proof.Machine.execPaceReading b0 b1 s
  | .paceSettleEnd => Sys2Proof.Machine.execPaceSettleEnd s
  | .paceLower => Sys2Proof.Machine.execPaceLower s
  | .paceLoopEnable q v => Sys2Proof.Machine.execPaceLoopEnable q v s
  | .paceCfgWrite q v => Sys2Proof.Machine.execPaceCfgWrite q v s
  | .paceClearBeat q v => Sys2Proof.Machine.execPaceClearBeat q v s
  | .paceOutOfTurn b0 b1 => Sys2Proof.Machine.execPaceOutOfTurn b0 b1 s
  | .flowCreate q f => Sys2Proof.Machine.execFlowCreate q f s
  | .flowDelete q f => Sys2Proof.Machine.execFlowDelete q f s
  | .flowEnable q f => Sys2Proof.Machine.execFlowEnable q f s
  | .flowDisable q f => Sys2Proof.Machine.execFlowDisable q f s
  | .flowPin q f => Sys2Proof.Machine.execFlowPin q f s
  | .flowUnpin q f => Sys2Proof.Machine.execFlowUnpin q f s
  | .flowWriteBack q f => Sys2Proof.Machine.execFlowWriteBack q f s
  | .flowCmdComplete err noVictim => Sys2Proof.Machine.execFlowCmdComplete err noVictim s
  | .viewLoad q v => Sys2Proof.Machine.execViewLoad q v s
  | .viewStore q v => Sys2Proof.Machine.execViewStore q v s
  | .viewRelease q v => Sys2Proof.Machine.execViewRelease q v s
  | .contextDirectWrite q a bs => Sys2Proof.Machine.execContextDirectWrite q a bs s
  | .pagerMiss => Sys2Proof.Machine.execPagerMiss s
  | .pagerWritebackDone err => Sys2Proof.Machine.execPagerWritebackDone err s
  | .pagerFetchDone err => Sys2Proof.Machine.execPagerFetchDone err s
  | .pagerRetry f => Sys2Proof.Machine.execPagerRetry f s
  | .sysWindowUnprotect src flow => Sys2Proof.Machine.execSysWindowUnprotect src flow s
  | .flowPfCmd q v => Sys2Proof.Machine.execFlowPfCmd q v s
  | .ttbDistribute q v => Sys2Proof.Machine.execTtbDistribute q v s
  | .tableReceived x id n stations effect no count crc data => Sys2Proof.Machine.execTableReceived x id n stations effect no count crc data s
  | .tableEffect x => Sys2Proof.Machine.execTableEffect x s
  | .class0Store o => Sys2Proof.Machine.execClass0Store o s
  | .ttbMemData q v => Sys2Proof.Machine.execTtbMemData q v s
  | .ttbMemDataInc q w mayPrefetch => Sys2Proof.Machine.execTtbMemDataInc q w mayPrefetch s
  | .ttbExpSwap q v => Sys2Proof.Machine.execTtbExpSwap q v s
  | .ttbLogPop q mayPrefetch => Sys2Proof.Machine.execTtbLogPop q mayPrefetch s
  | .rxFrameWrite o host => Sys2Proof.Machine.execRxFrameWrite o host s
  | .rxStallExpire c => Sys2Proof.Machine.execRxStallExpire c s
  | .tbSnap q b v => Sys2Proof.Machine.execTbSnap q b v s
  | .tbStep q b v => Sys2Proof.Machine.execTbStep q b v s
  | .tbSessionOpen q b v => Sys2Proof.Machine.execTbSessionOpen q b v s
  | .tbRateWrite q b v => Sys2Proof.Machine.execTbRateWrite q b v s
  | .syncSend x => Sys2Proof.Machine.execSyncSend x s
  | .timeMessageReceived x p f stamp => Sys2Proof.Machine.execTimeMessageReceived x p f stamp s
  | .sourceTimeout => Sys2Proof.Machine.execSourceTimeout s
  | .tunnelReceived x p f sub => Sys2Proof.Machine.execTunnelReceived x p f sub s
  | .tcOrphanTimeout seq => Sys2Proof.Machine.execTcOrphanTimeout seq s
  | .tsuSnapAll q v => Sys2Proof.Machine.execTsuSnapAll q v s
  | .tsuArm q v => Sys2Proof.Machine.execTsuArm q v s
  | .eventCompare u => Sys2Proof.Machine.execEventCompare u s
  | .eventCapture u rising sub => Sys2Proof.Machine.execEventCapture u rising sub s
  | .tsuCapPop q mayPrefetch wide => Sys2Proof.Machine.execTsuCapPop q mayPrefetch wide s
  | .pcieRequest h id bar off op full => Sys2Proof.Machine.execPcieRequest h id bar off op full s
  | .msixUnmask q h n v => Sys2Proof.Machine.execMsixUnmask q h n v s
  | .qspiLocalRead h bad late a len => Sys2Proof.Machine.execQspiLocalRead h bad late a len s
  | .qspiLocalWrite h bad late a data => Sys2Proof.Machine.execQspiLocalWrite h bad late a data s
  | .qspiFabricRead h bad fab len => Sys2Proof.Machine.execQspiFabricRead h bad fab len s
  | .qspiFabricPostedWrite h bad fab data => Sys2Proof.Machine.execQspiFabricPostedWrite h bad fab data s
  | .qspiFabricNonpostedWrite h bad fab data => Sys2Proof.Machine.execQspiFabricNonpostedWrite h bad fab data s
  | .qspiFabricAtomic h bad fab op len operand compare => Sys2Proof.Machine.execQspiFabricAtomic h bad fab op len operand compare s
  | .qspiResult h bad => Sys2Proof.Machine.execQspiResult h bad s
  | .qspiInterruptStatus h bad => Sys2Proof.Machine.execQspiInterruptStatus h bad s
  | .responseReceived port => Sys2Proof.Machine.execResponseReceived port s
  | .requestRetry b tag => Sys2Proof.Machine.execRequestRetry b tag s
  | .targetRequest port => Sys2Proof.Machine.execTargetRequest port s
  | .orderWaitExpire => Sys2Proof.Machine.execOrderWaitExpire s
  | .postedAckSend src flow => Sys2Proof.Machine.execPostedAckSend src flow s
  | .postedNoticeReceived port => Sys2Proof.Machine.execPostedNoticeReceived port s
  | .postedConfirmTimeout h node => Sys2Proof.Machine.execPostedConfirmTimeout h node s
  | .prefetchExpire h => Sys2Proof.Machine.execPrefetchExpire h s
  | .semHoldExpire n => Sys2Proof.Machine.execSemHoldExpire n s
  | .fenceRead q h mayPrefetch => Sys2Proof.Machine.execFenceRead q h mayPrefetch s
  | .fenceRequest q h v => Sys2Proof.Machine.execFenceRequest q h v s
  | .pweClear q h v => Sys2Proof.Machine.execPweClear q h v s
  | .windowResume q h v => Sys2Proof.Machine.execWindowResume q h v s
  | .windowAttrWrite q h n base v => Sys2Proof.Machine.execWindowAttrWrite q h n base v s
  | .pollDue c => Sys2Proof.Machine.execPollDue c s
  | .pollResponse => Sys2Proof.Machine.execPollResponse s
  | .pollMiss n => Sys2Proof.Machine.execPollMiss n s
  | .pollEvtPop q mayPrefetch wide => Sys2Proof.Machine.execPollEvtPop q mayPrefetch wide s
  | .heartbeat q h v => Sys2Proof.Machine.execHeartbeat q h v s
  | .heartbeatEnable q h v => Sys2Proof.Machine.execHeartbeatEnable q h v s
  | .heartbeatWindowEnd h => Sys2Proof.Machine.execHeartbeatWindowEnd h s
  | .semRequest q v => Sys2Proof.Machine.execSemRequest q v s
  | .semRelease q v => Sys2Proof.Machine.execSemRelease q v s
  | .semTry q v => Sys2Proof.Machine.execSemTry q v s
  | .semForce q v => Sys2Proof.Machine.execSemForce q v s
  | .claimClear q v => Sys2Proof.Machine.execClaimClear q v s
  | .levelWrite q v => Sys2Proof.Machine.execLevelWrite q v s
  | .barrier q v => Sys2Proof.Machine.execBarrier q v s
  | .barrierComplete => Sys2Proof.Machine.execBarrierComplete s
  | .barrierSlow => Sys2Proof.Machine.execBarrierSlow s
  | .xltFcapCmd q v => Sys2Proof.Machine.execXltFcapCmd q v s
  | .dmaaAlloc q mayPrefetch => Sys2Proof.Machine.execDmaaAlloc q mayPrefetch s
  | .dmaaFree q v => Sys2Proof.Machine.execDmaaFree q v s
  | .dmaStart q c v => Sys2Proof.Machine.execDmaStart q c v s
  | .dmaResume q c v => Sys2Proof.Machine.execDmaResume q c v s
  | .dmaAbort q c v => Sys2Proof.Machine.execDmaAbort q c v s
  | .dmaStop q c v => Sys2Proof.Machine.execDmaStop q c v s
  | .dmaBurst c host => Sys2Proof.Machine.execDmaBurst c host s
  | .rxTailWrite q c v => Sys2Proof.Machine.execRxTailWrite q c v s
  | .rsvPush q c v => Sys2Proof.Machine.execRsvPush q c v s
  | .rsvPop q c mayPrefetch wide => Sys2Proof.Machine.execRsvPop q c mayPrefetch wide s
  | .pinFunctionWrite q c p v => Sys2Proof.Machine.execPinFunctionWrite q c p v s
  | .bankLevelWrite q c v => Sys2Proof.Machine.execBankLevelWrite q c v s
  | .gpioSet q c v => Sys2Proof.Machine.execGpioSet q c v s
  | .gpioClr q c v => Sys2Proof.Machine.execGpioClr q c v s
  | .gpioEdge c p level => Sys2Proof.Machine.execGpioEdge c p level s
  | .fqItemProduced c n item last => Sys2Proof.Machine.execFqItemProduced c n item last s
  | .fqPop q c n mayPrefetch => Sys2Proof.Machine.execFqPop q c n mayPrefetch s
  | .fqPush q c n v => Sys2Proof.Machine.execFqPush q c n v s
  | .fqCloseRx q c v => Sys2Proof.Machine.execFqCloseRx q c v s
  | .fqFlushRx q c v => Sys2Proof.Machine.execFqFlushRx q c v s
  | .fqFlushTx q c v => Sys2Proof.Machine.execFqFlushTx q c v s
  | .fqQcfgWrite q c n v => Sys2Proof.Machine.execFqQcfgWrite q c n v s
  | .fqFrameDeliver c => Sys2Proof.Machine.execFqFrameDeliver c s
  | .uartRxChar n data addr par stop => Sys2Proof.Machine.execUartRxChar n data addr par stop s
  | .uartIdleEnd n => Sys2Proof.Machine.execUartIdleEnd n s
  | .uartTxChar n => Sys2Proof.Machine.execUartTxChar n s
  | .uartDeRelease n => Sys2Proof.Machine.execUartDeRelease n s
  | .uartSendBreak q n v => Sys2Proof.Machine.execUartSendBreak q n v s
  | .spiFrame n miso => Sys2Proof.Machine.execSpiFrame n miso s
  | .spiCount q n v => Sys2Proof.Machine.execSpiCount q n v s
  | .spiTargetFrame n mosi => Sys2Proof.Machine.execSpiTargetFrame n mosi s
  | .spiCsRelease n part => Sys2Proof.Machine.execSpiCsRelease n part s
  | .i2cCommand n b data => Sys2Proof.Machine.execI2cCommand n b data s
  | .i2cSclTimeout n => Sys2Proof.Machine.execI2cSclTimeout n s
  | .i2cBusClear q n v => Sys2Proof.Machine.execI2cBusClear q n v s
  | .i2cRelease q n v => Sys2Proof.Machine.execI2cRelease q n v s
  | .i2cTargetByte n e => Sys2Proof.Machine.execI2cTargetByte n e s
  | .i2cStretchLimit n => Sys2Proof.Machine.execI2cStretchLimit n s
  | .i2cTargetStop n => Sys2Proof.Machine.execI2cTargetStop n s
  | .canTxLoad n => Sys2Proof.Machine.execCanTxLoad n s
  | .canTxChoose n => Sys2Proof.Machine.execCanTxChoose n s
  | .canTxDone n age measured => Sys2Proof.Machine.execCanTxDone n age measured s
  | .canArbLost n => Sys2Proof.Machine.execCanArbLost n s
  | .canBusError n e dataPhase tx charge => Sys2Proof.Machine.execCanBusError n e dataPhase tx charge s
  | .canRxFrame n hdr dlc brs esi data age => Sys2Proof.Machine.execCanRxFrame n hdr dlc brs esi data age s
  | .canAbort q n v => Sys2Proof.Machine.execCanAbort q n v s
  | .canRecover q n v => Sys2Proof.Machine.execCanRecover q n v s
  | .canRecoveryComplete n => Sys2Proof.Machine.execCanRecoveryComplete n s
  | .canBusIntegrate n => Sys2Proof.Machine.execCanBusIntegrate n s
  | .jump e k => Sys2Proof.Machine.execJump e k s
  | .count e k => Sys2Proof.Machine.execCount e k s
  | .pause e k => Sys2Proof.Machine.execPause e k s
  | .halt e k => Sys2Proof.Machine.execHalt e k s
  | .shout e k => Sys2Proof.Machine.execShout e k s
  | .shin e k pins => Sys2Proof.Machine.execShin e k pins s
  | .exch e k => Sys2Proof.Machine.execExch e k s
  | .loadc e k => Sys2Proof.Machine.execLoadc e k s
  | .test e k => Sys2Proof.Machine.execTest e k s
  | .take e k => Sys2Proof.Machine.execTake e k s
  | .give e k => Sys2Proof.Machine.execGive e k s
  | .cloveMatch e k => Sys2Proof.Machine.execCloveMatch e k s
  | .edge e k => Sys2Proof.Machine.execEdge e k s
  | .signal e k => Sys2Proof.Machine.execSignal e k s
  | .bankpt e k => Sys2Proof.Machine.execBankpt e k s
  | .cloveReservedOpcode e k => Sys2Proof.Machine.execCloveReservedOpcode e k s
  | .cloveGiveRoom e k => Sys2Proof.Machine.execCloveGiveRoom e k s
  | .cloveEdgeSeen e k waited => Sys2Proof.Machine.execCloveEdgeSeen e k waited s
  | .cloveEdgeTimeout e k => Sys2Proof.Machine.execCloveEdgeTimeout e k s
  | .cloveShiftComplete e k => Sys2Proof.Machine.execCloveShiftComplete e k s
  | .clovStart q e v => Sys2Proof.Machine.execClovStart q e v s
  | .clovStop q e v => Sys2Proof.Machine.execClovStop q e v s
  | .clovSwap q e v => Sys2Proof.Machine.execClovSwap q e v s
  | .clovSyncNow q v => Sys2Proof.Machine.execClovSyncNow q v s
  | .clovSyncArm q v => Sys2Proof.Machine.execClovSyncArm q v s
  | .clovSyncDisarm q v => Sys2Proof.Machine.execClovSyncDisarm q v s
  | .clovSyncTrigger u => Sys2Proof.Machine.execClovSyncTrigger u s
  | .clovPmemData q e v => Sys2Proof.Machine.execClovPmemData q e v s
  | .clovPmemDataInc q e v => Sys2Proof.Machine.execClovPmemDataInc q e v s
  | .clovStep q e v => Sys2Proof.Machine.execClovStep q e v s
  | .moverTransfer e k tx => Sys2Proof.Machine.execMoverTransfer e k tx s
  | .moverFaultClear q e k v => Sys2Proof.Machine.execMoverFaultClear q e k v s
  | .macFrameReceived m data partOctet phyErr age inband => Sys2Proof.Machine.execMacFrameReceived m data partOctet phyErr age inband s
  | .macSegmentDeliver t1s => Sys2Proof.Machine.execMacSegmentDeliver t1s s
  | .macTxFrame m deferred => Sys2Proof.Machine.execMacTxFrame m deferred s
  | .pauseEnd => Sys2Proof.Machine.execPauseEnd s
  | .t1sCollision c late => Sys2Proof.Machine.execT1sCollision c late s
  | .t1sBackoffEnd c => Sys2Proof.Machine.execT1sBackoffEnd c s
  | .mdioAccess q m v => Sys2Proof.Machine.execMdioAccess q m v s
  | .mdioDone m data => Sys2Proof.Machine.execMdioDone m data s
  | .cntFreeze q m v => Sys2Proof.Machine.execCntFreeze q m v s
  | .cntClear q m v => Sys2Proof.Machine.execCntClear q m v s
  | .txsPop q m mayPrefetch wide => Sys2Proof.Machine.execTxsPop q m mayPrefetch wide s
  | .cipherFrame ph => Sys2Proof.Machine.execCipherFrame ph s
  | .glitchAlarm => Sys2Proof.Machine.execGlitchAlarm s
  | .tamperAlarm => Sys2Proof.Machine.execTamperAlarm s
  | .jobRingTail q r v => Sys2Proof.Machine.execJobRingTail q r v s
  | .cipherJobComplete r => Sys2Proof.Machine.execCipherJobComplete r s
  | .jobRingResume q v => Sys2Proof.Machine.execJobRingResume q v s
  | .jobRingAbort q v => Sys2Proof.Machine.execJobRingAbort q v s
  | .ciphMmCmd q v => Sys2Proof.Machine.execCiphMmCmd q v s
  | .ciphKat q v => Sys2Proof.Machine.execCiphKat q v s
  | .ciphKatDone pass => Sys2Proof.Machine.execCiphKatDone pass s
  | .keyApply q v => Sys2Proof.Machine.execKeyApply q v s
  | .keySend q v => Sys2Proof.Machine.execKeySend q v s
  | .keyOpenWrite q v => Sys2Proof.Machine.execKeyOpenWrite q v s
  | .keyOpenClear q v => Sys2Proof.Machine.execKeyOpenClear q v s
  | .keyMessage => Sys2Proof.Machine.execKeyMessage s
  | .keyCommit q v => Sys2Proof.Machine.execKeyCommit q v s
  | .keyCommitAbort q v => Sys2Proof.Machine.execKeyCommitAbort q v s
  | .keyCommitTimeout => Sys2Proof.Machine.execKeyCommitTimeout s
  | .keyCtrLock q v => Sys2Proof.Machine.execKeyCtrLock q v s
  | .keyLogPop q mayPrefetch wide => Sys2Proof.Machine.execKeyLogPop q mayPrefetch wide s
  | .feedChange n valid mv => Sys2Proof.Machine.execFeedChange n valid mv s
  | .presenceChange n low => Sys2Proof.Machine.execPresenceChange n low s
  | .oringFault n => Sys2Proof.Machine.execOringFault n s
  | .overvoltage => Sys2Proof.Machine.execOvervoltage s
  | .overvoltageEnd => Sys2Proof.Machine.execOvervoltageEnd s
  | .debounceEnd => Sys2Proof.Machine.execDebounceEnd s
  | .rampStart => Sys2Proof.Machine.execRampStart s
  | .fetShort => Sys2Proof.Machine.execFetShort s
  | .enhancementBegin => Sys2Proof.Machine.execEnhancementBegin s
  | .gateEnhanced => Sys2Proof.Machine.execGateEnhanced s
  | .gateNoRise => Sys2Proof.Machine.execGateNoRise s
  | .limitOnset => Sys2Proof.Machine.execLimitOnset s
  | .limitEnd => Sys2Proof.Machine.execLimitEnd s
  | .limitClear => Sys2Proof.Machine.execLimitClear s
  | .hotswapTrip => Sys2Proof.Machine.execHotswapTrip s
  | .pgoodRelease => Sys2Proof.Machine.execPgoodRelease s
  | .pgoodLow => Sys2Proof.Machine.execPgoodLow s
  | .cooldownEnd => Sys2Proof.Machine.execCooldownEnd s
  | .retryClear => Sys2Proof.Machine.execRetryClear s
  | .clearRetries q v => Sys2Proof.Machine.execClearRetries q v s
  | .holdcapLow => Sys2Proof.Machine.execHoldcapLow s
  | .pdOtpProgram q v => Sys2Proof.Machine.execPdOtpProgram q v s
  | .supplyDip n low us => Sys2Proof.Machine.execSupplyDip n low us s
  | .brownout n => Sys2Proof.Machine.execBrownout n s
  | .viofResetLevel c => Sys2Proof.Machine.execViofResetLevel c s
  | .bankSupplyOk c => Sys2Proof.Machine.execBankSupplyOk c s
  | .pdWriteAck => Sys2Proof.Machine.execPdWriteAck s
  | .pdWriteResend => Sys2Proof.Machine.execPdWriteResend s
  | .mirrorCompare upset => Sys2Proof.Machine.execMirrorCompare upset s
  | .dieLinkSilent => Sys2Proof.Machine.execDieLinkSilent s
  | .dieLinkRestored => Sys2Proof.Machine.execDieLinkRestored s
  | .diEdge n level => Sys2Proof.Machine.execDiEdge n level s
  | .doShort n overtemp => Sys2Proof.Machine.execDoShort n overtemp s
  | .doOpenLoad n => Sys2Proof.Machine.execDoOpenLoad n s
  | .doTimedFire u => Sys2Proof.Machine.execDoTimedFire u s
  | .pdDioSet q g v => Sys2Proof.Machine.execPdDioSet q g v s
  | .pdDioClr q g v => Sys2Proof.Machine.execPdDioClr q g v s
  | .pdDioOutWrite q g v => Sys2Proof.Machine.execPdDioOutWrite q g v s
  | .pdTemperatureHigh => Sys2Proof.Machine.execPdTemperatureHigh s
  | .faultEvent src page master node type size addr => Sys2Proof.Machine.execFaultEvent src page master node type size addr s
  | .errorPairEqual src page => Sys2Proof.Machine.execErrorPairEqual src page s
  | .errorPairStuck src page => Sys2Proof.Machine.execErrorPairStuck src page s
  | .fltAck q v => Sys2Proof.Machine.execFltAck q v s
  | .fltCapClr q v => Sys2Proof.Machine.execFltCapClr q v s
  | .fltErrnClr q v => Sys2Proof.Machine.execFltErrnClr q v s
  | .level5Reset => Sys2Proof.Machine.execLevel5Reset s
  | .ledgerFlushDone failed => Sys2Proof.Machine.execLedgerFlushDone failed s
  | .ledgAnchor q v => Sys2Proof.Machine.execLedgAnchor q v s
  | .ledgFresh q v => Sys2Proof.Machine.execLedgFresh q v s
  | .ledgFlushNow q v => Sys2Proof.Machine.execLedgFlushNow q v s
  | .ledgNote q v => Sys2Proof.Machine.execLedgNote q v s
  | .coldReset cause => Sys2Proof.Machine.execColdReset cause s
  | .warmReset cause => Sys2Proof.Machine.execWarmReset cause s
  | .resetN => Sys2Proof.Machine.execResetN s
  | .powerDieReset => Sys2Proof.Machine.execPowerDieReset s
  | .chipReset q v => Sys2Proof.Machine.execChipReset q v s
  | .wdtEnable q v => Sys2Proof.Machine.execWdtEnable q v s
  | .wdtKick q v => Sys2Proof.Machine.execWdtKick q v s
  | .wdtStage1Expire => Sys2Proof.Machine.execWdtStage1Expire s
  | .wdtStage2Expire => Sys2Proof.Machine.execWdtStage2Expire s
  | .pwrCmd q v => Sys2Proof.Machine.execPwrCmd q v s
  | .hushEnter => Sys2Proof.Machine.execHushEnter s
  | .hushExit => Sys2Proof.Machine.execHushExit s
  | .wake codes b0 b1 => Sys2Proof.Machine.execWake codes b0 b1 s
  | .wakeTimerExpire b0 b1 => Sys2Proof.Machine.execWakeTimerExpire b0 b1 s
  | .pllUnlock pll => Sys2Proof.Machine.execPllUnlock pll s
  | .refclkFault ppm => Sys2Proof.Machine.execRefclkFault ppm s
  | .chipTempCmd q v => Sys2Proof.Machine.execChipTempCmd q v s
  | .chipTempHigh t => Sys2Proof.Machine.execChipTempHigh t s
  | .cuminStart otpBad bad => Sys2Proof.Machine.execCuminStart otpBad bad s
  | .fwuOpen q v => Sys2Proof.Machine.execFwuOpen q v s
  | .fwuEraseDone => Sys2Proof.Machine.execFwuEraseDone s
  | .fwuWrite q v bad => Sys2Proof.Machine.execFwuWrite q v bad s
  | .fwuCommit q v bad => Sys2Proof.Machine.execFwuCommit q v bad s
  | .fwuActivate q v => Sys2Proof.Machine.execFwuActivate q v s
  | .fwuHandover q v => Sys2Proof.Machine.execFwuHandover q v s
  | .fwuConfirm q v => Sys2Proof.Machine.execFwuConfirm q v s
  | .fwuLoad q v => Sys2Proof.Machine.execFwuLoad q v s
  | .fwuSend q v => Sys2Proof.Machine.execFwuSend q v s
  | .fwuAbort q v => Sys2Proof.Machine.execFwuAbort q v s
  | .fwFragmentReceived bad => Sys2Proof.Machine.execFwFragmentReceived bad s
  | .fwAssemblyTimeout => Sys2Proof.Machine.execFwAssemblyTimeout s
  | .confirmTimeout => Sys2Proof.Machine.execConfirmTimeout s
  | .handoverReady q v => Sys2Proof.Machine.execHandoverReady q v s
  | .handoverTimeout => Sys2Proof.Machine.execHandoverTimeout s
  | .handoverCopyDone bad => Sys2Proof.Machine.execHandoverCopyDone bad s
  | .handoverResumed q v => Sys2Proof.Machine.execHandoverResumed q v s
  | .fwuMeasExt q v => Sys2Proof.Machine.execFwuMeasExt q v s
  | .xspiTimeout => Sys2Proof.Machine.execXspiTimeout s
  | .mailboxDoorbell q h v => Sys2Proof.Machine.execMailboxDoorbell q h v s
  | .mailboxVersion h => Sys2Proof.Machine.execMailboxVersion h s
  | .mailboxHealth h => Sys2Proof.Machine.execMailboxHealth h s
  | .applyConfiguration h ok writes => Sys2Proof.Machine.execApplyConfiguration h ok writes s
  | .saveRestoreArea h data => Sys2Proof.Machine.execSaveRestoreArea h data s
  | .servoState h => Sys2Proof.Machine.execServoState h s
  | .restoreKeys h => Sys2Proof.Machine.execRestoreKeys h s
  | .enterLevel h => Sys2Proof.Machine.execEnterLevel h s
  | .mailboxHandover h => Sys2Proof.Machine.execMailboxHandover h s
  | .mailboxAck q v => Sys2Proof.Machine.execMailboxAck q v s
  | .extest => Sys2Proof.Machine.execExtest s
  | .idcode => Sys2Proof.Machine.execIdcode s
  | .samplePreload pins load => Sys2Proof.Machine.execSamplePreload pins load s
  | .highz => Sys2Proof.Machine.execHighz s
  | .clamp => Sys2Proof.Machine.execClamp s
  | .extestPulse => Sys2Proof.Machine.execExtestPulse s
  | .extestTrain => Sys2Proof.Machine.execExtestTrain s
  | .bypass code => Sys2Proof.Machine.execBypass code s
  | .txClockLocked r => Sys2Proof.Machine.execTxClockLocked r s
  | .responseCacheUnprotect src flow tag => Sys2Proof.Machine.execResponseCacheUnprotect src flow tag s
  | .postedEntryAged b node => Sys2Proof.Machine.execPostedEntryAged b node s
  | .pcieLinkChange h ltssm gen2 up => Sys2Proof.Machine.execPcieLinkChange h ltssm gen2 up s
  | .inbandStatusChange st => Sys2Proof.Machine.execInbandStatusChange st s
  | .supplyBelowWarning n => Sys2Proof.Machine.execSupplyBelowWarning n s
  | .dieLinkPush crcError words => Sys2Proof.Machine.execDieLinkPush crcError words s

end Sys2Proof.Machine
end

