-- ==== Sys2Proof/Machine/Tick.lean ====
section
/-! DEFINITION. What a tick of 4 ns brings: time goes on (R215, R217), steps and compares act (R219, R239), trigger lines reach the blocks
they serve (R240), the slot count of a hub without a ready ring (R12), block resets end (R31), and the last second of a
confirm begins (R565). -/
namespace Sys2Proof.Machine

/-- The trigger lines that stand are taken: by the armed start of Clove channels and by the timed discrete outputs (R240, R410, R493). -/
def State.deliverTrigs (s : State) : State :=
  s.servo.trigs.foldl (fun (s : State) t =>
    s.takeTrig t.1 t.2 fun s => if t.2 then s.clvTrigger t.1 else s.doTimedAll t.1) s

/-- Every block reset that runs is over: the blocks start again, and the accesses that they held are served (R31). -/
def State.endResets (s : State) : State :=
  if s.resets = [] then s
  else (s.resets.foldl (fun (s : State) h => s.blockAfter h) { s with resets := [] }).serveHeld

/-- One tick. -/
def State.tick (s : State) : State := (((s.deliverTrigs.timeTick).deliverTrigs).slotTick).endResets.localTurn.confirmSoon

end Sys2Proof.Machine
end

