-- ==== Sys2Proof/Machine/Step.lean ====
section
/-! DEFINITION. One step of the hub: the command at the front of the queue, or a tick of 4 ns when none waits. -/
namespace Sys2Proof.Machine

/-- The state with the waiting commands given. -/
def State.withQueue (s : State) (l : List Instr) : State := { s with pending := l }

/-- A step (log entry 1): the command at the front of the queue is executed with the queue's rest; with no command waiting the clock goes on
by one tick (R215). -/
def step (s : State) : Host.Outcome State Fault Refusal :=
  match s.pending with
  | [] => finish s s.tick
  | c :: rest => exec c (s.withQueue rest)

/-- The state with the command that a table word spells put at the front of its queue; a word spells none (log entry 2). -/
def State.withFetchWord (s : State) (nbits w : Nat) : State :=
  match decodeTableWord nbits w with
  | some c => s.withQueue (c :: s.pending)
  | none => s

end Sys2Proof.Machine
end

