-- ==== Sys2Proof/WellFormed.lean ====
section
/-! DEFINITION. Well-formed commands: every operand within the width or the set that the spec gives it. The meanings are total and take
ill-formed operands too; a sender sends well-formed commands only. -/
namespace Sys2Proof.Machine

/-- A master ID of the table of R286: Anise, the hosts, the DMA channels, the Clove engines, the ring, the cipher, the pager and the movers. -/
def masterOk (m : Nat) : Bool := decide (m ≤ 0x02) || (decide (0x10 ≤ m) && decide (m ≤ 0x1F)) || (decide (0x20 ≤ m) && decide (m ≤ 0x23)) || m == 0x30 ||
  m == 0x31 || m == 0x40 || m == 0x41

/-- A requester: a known master, an 18-bit node and an attachment. -/
def Req.wf (q : Req) : Bool := masterOk q.master && decide (q.node < 2 ^ 18) && decide (q.att < 2)

/-- A page number (R24). -/
def pageOk (p : Nat) : Bool := decide (p < 256)

/-- A flow number (R157). -/
def flowOk (f : Nat) : Bool := decide (f < 65536)

/-- A completion status (R28). -/
def statusOk (n : Nat) : Bool := decide (n < 16)

/-- The address of a register of a power-die page, beyond the header (R9). -/
def pdAddr (a : Nat) : Bool := decide (0xF0 ≤ a / 0x1000) && decide (a / 0x1000 ≤ 0xF7) && decide (0x040 ≤ a % 0x1000) && a % 4 == 0

/-- Octets of a host's memory, by host address. -/
def hostOk (l : List (Nat × Byte)) : Bool := l.all (fun e => decide (e.1 < 2 ^ 64))

/-- The payload of a frame is at most what the 10-bit payload_length field can say (R62). -/
def Frame.wf (f : Frame) : Bool := decide (f.payload.length < 1024)

def ClaimMsg.wf (m : ClaimMsg) : Bool := decide (m.claim < 2 ^ 144) && decide (m.ring < 1024) && decide (m.master < 256)
def NumberMsg.wf (m : NumberMsg) : Bool := decide (m.station < 256) && decide (m.path < 2) && decide (m.uid < 2 ^ 128)
def Report.wf (m : Report) : Bool := decide (m.station < 256) && decide (m.uid < 2 ^ 128)
def ReadyMsg.wf (m : ReadyMsg) : Bool := decide (m.n < 256) && m.pads.all (fun p => decide (p < 256))
def BeaconMsg.wf (m : BeaconMsg) : Bool := decide (m.claim < 2 ^ 144) && decide (m.master < 256) && decide (m.n < 256)
def DemoteMsg.wf (m : DemoteMsg) : Bool := decide (m.claim < 2 ^ 144) && decide (m.master < 256)
def Broken.wf (b : Broken) : Bool := decide (b.station < 256)

def IicTgt.wf : IicTgt → Bool
  | .address _ b => decide (b < 256)
  | .written b => decide (b < 256)
  | .answered _ => true

/-- The limits of the PCI Express function: reads of up to 512 octets, payloads of up to 256; a 128-bit CAS arrives too, and completes as UR (R245). -/
def PcieOp.wf : PcieOp → Bool
  | .read n => decide (n ≤ 512)
  | .write l => decide (l.length ≤ 256)
  | .atomic op len _ _ => decide (1 ≤ op) && decide (op ≤ 3) && (len == 4 || len == 8 || (op == 3 && len == 16))

def AccOp.wf : AccOp → Bool
  | .read n _ => decide (1 ≤ n)
  | .write l => !l.isEmpty

end Sys2Proof.Machine

namespace Sys2Proof
open Machine

/-- A well-formed command. -/
def Instr.wf : Instr → Bool
  | .registerWrite q a _ => q.wf && decide (a < 0x100000) && a % 4 == 0
  | .hostRequest q a op => q.wf && decide (a < 2 ^ 64) && op.wf
  | .blockReset q p _ => q.wf && pageOk p
  | .blockEnable q p _ => q.wf && pageOk p
  | .expertUnlock q p _ => q.wf && pageOk p
  | .pgIrqForce q p _ => q.wf && pageOk p
  | .pgFaultClear q p _ => q.wf && pageOk p
  | .pgFaultInj q p _ => q.wf && pageOk p
  | .pgClaim q p _ => q.wf && pageOk p
  | .pgLock q p _ => q.wf && pageOk p
  | .portEnable q _ _ _ => q.wf
  | .moduleCheck _ _ _ _ _ _ => true
  | .moduleRetry _ _ => true
  | .modulePinChange _ _ _ _ _ => true
  | .blockLock _ _ => true
  | .blockLockLost _ _ => true
  | .highBer _ _ _ => true
  | .trainTimeout _ _ => true
  | .train _ _ _ => true
  | .alignComplete _ _ => true
  | .alignmentError _ _ _ => true
  | .slip _ _ fill => decide (fill < 2 ^ 16)
  | .holdoffExpire _ _ => true
  | .remoteFault _ _ _ => true
  | .retrain q _ _ _ => q.wf
  | .moduleAccess q _ _ => q.wf
  | .moduleAccessDone _ _ _ => true
  | .ringFrameReceived _ _ f _ _ _ => f.wf
  | .slotFill _ _ slot _ => decide (slot < 2 ^ 20)
  | .padApply _ _ => true
  | .rctlEnable q _ => q.wf
  | .claimReceived _ _ m _ pad => m.wf && decide (pad < 256)
  | .claimSend _ => true
  | .settleExpire _ => true
  | .electTimeout _ => true
  | .countReceived _ _ passed path uid => decide (passed < 256) && decide (path < 2) && decide (uid < 2 ^ 128)
  | .endReceived _ _ passed path uid => decide (passed < 256) && decide (path < 2) && decide (uid < 2 ^ 128)
  | .numberReceived _ _ m => m.wf
  | .delayReqSend _ _ => true
  | .delayReqReceived _ _ path src stamp => decide (path < 2) && decide (src < 2 ^ 18) && decide (stamp < 2 ^ 64)
  | .delayRespReceived _ _ path t2 t3 src stamp => decide (path < 2) && decide (t2 < 2 ^ 64) && decide (t3 < 2 ^ 64) && decide (src < 2 ^ 18) && decide (stamp < 2 ^ 64)
  | .reportReceived _ m => m.wf
  | .readyReceived _ m _ => m.wf
  | .beaconSend _ => true
  | .beaconReceived _ m => m.wf
  | .beaconMiss _ => true
  | .breakReceived _ b => b.wf
  | .healedReceived _ b _ _ => b.wf
  | .joinReceived _ station side uid => decide (station < 256) && decide (side < 2) && decide (uid < 2 ^ 128)
  | .assignReceived _ station neighbour uid => decide (station < 256) && decide (neighbour < 256) && decide (uid < 2 ^ 128)
  | .demoteReceived _ m => m.wf
  | .demoteEffect _ => true
  | .sleepReceived _ _ => true
  | .vetoReceived _ station => decide (station < 256)
  | .sleepSetReceived _ => true
  | .resetMessage _ station _ => decide (station < 256)
  | .treeReceived _ level upper => decide (level < 256) && decide (upper < 1024)
  | .treeSend => true
  | .rctlElect q _ => q.wf
  | .rctlRenumber q _ => q.wf
  | .rctlSleep q _ => q.wf
  | .rctlReset q _ => q.wf
  | .epochBoundary mods => mods.all (fun e => decide (e.1 < 4) && decide (e.2.length = 12))
  | .frameIngress _ env => env.all Frame.wf
  | .fabricRound => true
  | .bankCountRebuild _ => true
  | .fabLimitWrite q _ _ => q.wf
  | .fabOccCmd q _ => q.wf
  | .fabAimCmd q _ => q.wf
  | .fabTracePop q _ _ => q.wf
  | .fabTestStep q _ => q.wf
  | .paceReading _ _ => true
  | .paceSettleEnd => true
  | .paceLower => true
  | .paceLoopEnable q _ => q.wf
  | .paceCfgWrite q _ => q.wf
  | .paceClearBeat q _ => q.wf
  | .paceOutOfTurn _ _ => true
  | .flowCreate q f => q.wf && flowOk f
  | .flowDelete q f => q.wf && flowOk f
  | .flowEnable q f => q.wf && flowOk f
  | .flowDisable q f => q.wf && flowOk f
  | .flowPin q f => q.wf && flowOk f
  | .flowUnpin q f => q.wf && flowOk f
  | .flowWriteBack q f => q.wf && flowOk f
  | .flowCmdComplete err _ => err.all statusOk
  | .viewLoad q _ => q.wf
  | .viewStore q _ => q.wf
  | .viewRelease q _ => q.wf
  | .contextDirectWrite q a bs => q.wf && decide (0x00100000 ≤ a) && decide (a + bs.length ≤ 0x00180000)
  | .pagerMiss => true
  | .pagerWritebackDone err => err.all statusOk
  | .pagerFetchDone err => err.all statusOk
  | .pagerRetry f => flowOk f
  | .sysWindowUnprotect src flow => decide (src < 2 ^ 18) && flowOk flow
  | .flowPfCmd q _ => q.wf
  | .ttbDistribute q _ => q.wf
  | .tableReceived _ _ _ stations _ _ _ _ data => decide (stations < 256) && decide (data.length ≤ 488)
  | .tableEffect _ => true
  | .class0Store _ => true
  | .ttbMemData q _ => q.wf
  | .ttbMemDataInc q _ _ => q.wf
  | .ttbExpSwap q _ => q.wf
  | .ttbLogPop q _ => q.wf
  | .rxFrameWrite _ host => hostOk host
  | .rxStallExpire _ => true
  | .tbSnap q _ _ => q.wf
  | .tbStep q _ _ => q.wf
  | .tbSessionOpen q _ _ => q.wf
  | .tbRateWrite q _ _ => q.wf
  | .syncSend _ => true
  | .timeMessageReceived _ _ f stamp => f.wf && decide (stamp < 2 ^ 64)
  | .sourceTimeout => true
  | .tunnelReceived _ _ f _ => f.wf
  | .tcOrphanTimeout seq => decide (seq < 2 ^ 16)
  | .tsuSnapAll q _ => q.wf
  | .tsuArm q _ => q.wf
  | .eventCompare _ => true
  | .eventCapture _ _ _ => true
  | .tsuCapPop q _ _ => q.wf
  | .pcieRequest _ _ _ _ op _ => op.wf
  | .msixUnmask q _ _ _ => q.wf
  | .qspiLocalRead _ _ _ a len => decide (a < 2 ^ 32) && decide (len < 2 ^ 16)
  | .qspiLocalWrite _ _ _ a _ => decide (a < 2 ^ 32)
  | .qspiFabricRead _ _ fab len => decide (fab < 2 ^ 64) && decide (len < 2 ^ 16)
  | .qspiFabricPostedWrite _ _ fab _ => decide (fab < 2 ^ 64)
  | .qspiFabricNonpostedWrite _ _ fab _ => decide (fab < 2 ^ 64)
  | .qspiFabricAtomic _ _ fab op len _ _ => decide (fab < 2 ^ 64) && decide (op < 4) && (len == 4 || len == 8 || (op == 3 && len == 16))
  | .qspiResult _ _ => true
  | .qspiInterruptStatus _ _ => true
  | .responseReceived _ => true
  | .requestRetry _ _ => true
  | .targetRequest _ => true
  | .orderWaitExpire => true
  | .postedAckSend src flow => decide (src < 2 ^ 18) && flowOk flow
  | .postedNoticeReceived _ => true
  | .postedConfirmTimeout _ node => decide (node < 2 ^ 18)
  | .prefetchExpire _ => true
  | .semHoldExpire _ => true
  | .fenceRead q _ _ => q.wf
  | .fenceRequest q _ _ => q.wf
  | .pweClear q _ _ => q.wf
  | .windowResume q _ _ => q.wf
  | .windowAttrWrite q _ _ _ _ => q.wf
  | .pollDue c => decide (c < 2 ^ 64)
  | .pollResponse => true
  | .pollMiss _ => true
  | .pollEvtPop q _ _ => q.wf
  | .heartbeat q _ _ => q.wf
  | .heartbeatEnable q _ _ => q.wf
  | .heartbeatWindowEnd _ => true
  | .semRequest q _ => q.wf
  | .semRelease q _ => q.wf
  | .semTry q _ => q.wf
  | .semForce q _ => q.wf
  | .claimClear q _ => q.wf
  | .levelWrite q _ => q.wf
  | .barrier q _ => q.wf
  | .barrierComplete => true
  | .barrierSlow => true
  | .xltFcapCmd q _ => q.wf
  | .dmaaAlloc q _ => q.wf
  | .dmaaFree q _ => q.wf
  | .dmaStart q _ _ => q.wf
  | .dmaResume q _ _ => q.wf
  | .dmaAbort q _ _ => q.wf
  | .dmaStop q _ _ => q.wf
  | .dmaBurst _ host => hostOk host
  | .rxTailWrite q _ _ => q.wf
  | .rsvPush q _ _ => q.wf
  | .rsvPop q _ _ _ => q.wf
  | .pinFunctionWrite q _ _ _ => q.wf
  | .bankLevelWrite q _ _ => q.wf
  | .gpioSet q _ _ => q.wf
  | .gpioClr q _ _ => q.wf
  | .gpioEdge _ _ _ => true
  | .fqItemProduced _ _ item _ => decide (item < 2 ^ 32)
  | .fqPop q _ _ _ => q.wf
  | .fqPush q _ _ _ => q.wf
  | .fqCloseRx q _ _ => q.wf
  | .fqFlushRx q _ _ => q.wf
  | .fqFlushTx q _ _ => q.wf
  | .fqQcfgWrite q _ _ _ => q.wf
  | .fqFrameDeliver _ => true
  | .uartRxChar _ data _ _ _ => decide (data < 512)
  | .uartIdleEnd _ => true
  | .uartTxChar _ => true
  | .uartDeRelease _ => true
  | .uartSendBreak q _ _ => q.wf
  | .spiFrame _ miso => decide (miso < 2 ^ 32)
  | .spiCount q _ _ => q.wf
  | .spiTargetFrame _ mosi => decide (mosi < 2 ^ 32)
  | .spiCsRelease _ _ => true
  | .i2cCommand _ _ data => decide (data < 256)
  | .i2cSclTimeout _ => true
  | .i2cBusClear q _ _ => q.wf
  | .i2cRelease q _ _ => q.wf
  | .i2cTargetByte _ e => e.wf
  | .i2cStretchLimit _ => true
  | .i2cTargetStop _ => true
  | .canTxLoad _ => true
  | .canTxChoose _ => true
  | .canTxDone _ _ _ => true
  | .canArbLost _ => true
  | .canBusError _ _ _ _ _ => true
  | .canRxFrame _ hdr dlc _ _ data _ => decide (hdr < 2 ^ 32) && decide (dlc < 16) && decide (data.length ≤ 64)
  | .canAbort q _ _ => q.wf
  | .canRecover q _ _ => q.wf
  | .canRecoveryComplete _ => true
  | .canBusIntegrate _ => true
  | .jump _ _ => true
  | .count _ _ => true
  | .pause _ _ => true
  | .halt _ _ => true
  | .shout _ _ => true
  | .shin _ _ _ => true
  | .exch _ _ => true
  | .loadc _ _ => true
  | .test _ _ => true
  | .take _ _ => true
  | .give _ _ => true
  | .cloveMatch _ _ => true
  | .edge _ _ => true
  | .signal _ _ => true
  | .bankpt _ _ => true
  | .cloveReservedOpcode _ _ => true
  | .cloveGiveRoom _ _ => true
  | .cloveEdgeSeen _ _ waited => decide (waited < 2 ^ 32)
  | .cloveEdgeTimeout _ _ => true
  | .cloveShiftComplete _ _ => true
  | .clovStart q _ _ => q.wf
  | .clovStop q _ _ => q.wf
  | .clovSwap q _ _ => q.wf
  | .clovSyncNow q _ => q.wf
  | .clovSyncArm q _ => q.wf
  | .clovSyncDisarm q _ => q.wf
  | .clovSyncTrigger _ => true
  | .clovPmemData q _ _ => q.wf
  | .clovPmemDataInc q _ _ => q.wf
  | .clovStep q _ _ => q.wf
  | .moverTransfer _ _ _ => true
  | .moverFaultClear q _ _ _ => q.wf
  | .macFrameReceived _ _ _ _ _ inband => inband.all (fun st => decide (st < 16))
  | .macSegmentDeliver _ => true
  | .macTxFrame _ _ => true
  | .pauseEnd => true
  | .t1sCollision _ _ => true
  | .t1sBackoffEnd _ => true
  | .mdioAccess q _ _ => q.wf
  | .mdioDone _ data => decide (data < 2 ^ 16)
  | .cntFreeze q _ _ => q.wf
  | .cntClear q _ _ => q.wf
  | .txsPop q _ _ _ => q.wf
  | .cipherFrame _ => true
  | .glitchAlarm => true
  | .tamperAlarm => true
  | .jobRingTail q _ _ => q.wf
  | .cipherJobComplete _ => true
  | .jobRingResume q _ => q.wf
  | .jobRingAbort q _ => q.wf
  | .ciphMmCmd q _ => q.wf
  | .ciphKat q _ => q.wf
  | .ciphKatDone _ => true
  | .keyApply q _ => q.wf
  | .keySend q _ => q.wf
  | .keyOpenWrite q _ => q.wf
  | .keyOpenClear q _ => q.wf
  | .keyMessage => true
  | .keyCommit q _ => q.wf
  | .keyCommitAbort q _ => q.wf
  | .keyCommitTimeout => true
  | .keyCtrLock q _ => q.wf
  | .keyLogPop q _ _ => q.wf
  | .feedChange _ _ mv => decide (mv < 2 ^ 16)
  | .presenceChange _ _ => true
  | .oringFault _ => true
  | .overvoltage => true
  | .overvoltageEnd => true
  | .debounceEnd => true
  | .rampStart => true
  | .fetShort => true
  | .enhancementBegin => true
  | .gateEnhanced => true
  | .gateNoRise => true
  | .limitOnset => true
  | .limitEnd => true
  | .limitClear => true
  | .hotswapTrip => true
  | .pgoodRelease => true
  | .pgoodLow => true
  | .cooldownEnd => true
  | .retryClear => true
  | .clearRetries q _ => q.wf
  | .holdcapLow => true
  | .pdOtpProgram q _ => q.wf
  | .supplyDip _ low _ => low.all (fun mv => decide (mv < 2 ^ 16))
  | .brownout _ => true
  | .viofResetLevel _ => true
  | .bankSupplyOk _ => true
  | .pdWriteAck => true
  | .pdWriteResend => true
  | .mirrorCompare upset => upset.all (fun e => pdAddr e.1)
  | .dieLinkSilent => true
  | .dieLinkRestored => true
  | .diEdge _ _ => true
  | .doShort _ _ => true
  | .doOpenLoad _ => true
  | .doTimedFire _ => true
  | .pdDioSet q _ _ => q.wf
  | .pdDioClr q _ _ => q.wf
  | .pdDioOutWrite q _ _ => q.wf
  | .pdTemperatureHigh => true
  | .faultEvent _ page master node type size addr => pageOk page && decide (master < 256) && decide (node < 2 ^ 18) && decide (type < 8) && decide (size < 256) && decide (addr < 2 ^ 64)
  | .errorPairEqual _ page => pageOk page
  | .errorPairStuck _ page => pageOk page
  | .fltAck q _ => q.wf
  | .fltCapClr q _ => q.wf
  | .fltErrnClr q _ => q.wf
  | .level5Reset => true
  | .ledgerFlushDone failed => failed.all (fun n => decide (n < 0x10000))
  | .ledgAnchor q _ => q.wf
  | .ledgFresh q _ => q.wf
  | .ledgFlushNow q _ => q.wf
  | .ledgNote q _ => q.wf
  | .coldReset _ => true
  | .warmReset _ => true
  | .resetN => true
  | .powerDieReset => true
  | .chipReset q _ => q.wf
  | .wdtEnable q _ => q.wf
  | .wdtKick q _ => q.wf
  | .wdtStage1Expire => true
  | .wdtStage2Expire => true
  | .pwrCmd q _ => q.wf
  | .hushEnter => true
  | .hushExit => true
  | .wake _ _ _ => true
  | .wakeTimerExpire _ _ => true
  | .pllUnlock _ => true
  | .refclkFault ppm => ppm.all (fun n => decide (n < 2 ^ 16))
  | .chipTempCmd q _ => q.wf
  | .chipTempHigh t => decide (t < 2 ^ 16)
  | .cuminStart _ _ => true
  | .fwuOpen q _ => q.wf
  | .fwuEraseDone => true
  | .fwuWrite q _ _ => q.wf
  | .fwuCommit q _ _ => q.wf
  | .fwuActivate q _ => q.wf
  | .fwuHandover q _ => q.wf
  | .fwuConfirm q _ => q.wf
  | .fwuLoad q _ => q.wf
  | .fwuSend q _ => q.wf
  | .fwuAbort q _ => q.wf
  | .fwFragmentReceived _ => true
  | .fwAssemblyTimeout => true
  | .confirmTimeout => true
  | .handoverReady q _ => q.wf
  | .handoverTimeout => true
  | .handoverCopyDone _ => true
  | .handoverResumed q _ => q.wf
  | .fwuMeasExt q _ => q.wf
  | .xspiTimeout => true
  | .mailboxDoorbell q _ _ => q.wf
  | .mailboxVersion _ => true
  | .mailboxHealth _ => true
  | .applyConfiguration _ _ writes => writes.all (fun w => decide (w.1 < 0x100000) && w.1 % 4 == 0)
  | .saveRestoreArea _ data => decide (data.length ≤ 0xC000)
  | .servoState _ => true
  | .restoreKeys _ => true
  | .enterLevel _ => true
  | .mailboxHandover _ => true
  | .mailboxAck q _ => q.wf
  | .extest => true
  | .idcode => true
  | .samplePreload _ _ => true
  | .highz => true
  | .clamp => true
  | .extestPulse => true
  | .extestTrain => true
  | .bypass code => decide (6 < code.toNat)
  | .txClockLocked _ => true
  | .responseCacheUnprotect src flow tag => decide (src < 2 ^ 18) && flowOk flow && decide (tag < 65536)
  | .postedEntryAged _ node => decide (node < 2 ^ 18)
  | .pcieLinkChange _ _ _ _ => true
  | .inbandStatusChange _ => true
  | .supplyBelowWarning _ => true
  | .dieLinkPush _ words => words.all (fun e => pdAddr e.1)

end Sys2Proof
end

