-- ==== Sys2Proof/Safety.lean ====
section
/-! DEFINITION. What claims are stated in: an accepted write and an allowed read, what a frame leaves alone, and the invariants of the hub. -/
namespace Sys2Proof.Machine

/-- A write by q of v to the register at a is accepted as it stands: the checks of R30 let it pass, PG_LOCK does not hold (R38), the register
is not one that lives on the power die (R9), a command in it reaches an enabled block (R33), and its page is not held (R27, R31). -/
abbrev State.accepts (s : State) (q : Req) (a : Nat) (v : Word) : Prop :=
  s.pageBusy a = false ∧ s.checkWrite q a v = (.go, s) ∧ s.flag (rPG_LOCK (a / 0x1000)) fPG_LOCK_lock = false ∧
    (a / 0x1000 < 0xF0 ∨ a % 0x1000 < 0x040) ∧ (scWindow (a % 0x1000) && !s.enabled (a / 0x1000) && commands a v) = false

/-- A write by q of v to the register at a, which lives on the power die, is forwarded to it (R9): it is no command to a disabled block
(R33), and no write of the page waits for its acknowledgement (R27). -/
abbrev State.forwards (s : State) (q : Req) (a : Nat) (v : Word) : Prop :=
  s.pageBusy a = false ∧ s.checkWrite q a v = (.go, s) ∧ s.flag (rPG_LOCK (a / 0x1000)) fPG_LOCK_lock = false ∧
    (scWindow (a % 0x1000) && !s.enabled (a / 0x1000) && commands a v) = false ∧
    0xF0 ≤ a / 0x1000 ∧ 0x040 ≤ a % 0x1000 ∧ s.flag rPD_LINK_STATUS fPD_LINK_STATUS_silent = false

/-- A read by q of the register at a is allowed (R39, R43, R46): the checks let it pass, and a register of the expert region is read while
the expert bit of its page is 1, and its page is not held (R27, R31). -/
abbrev State.allowsRead (s : State) (q : Req) (a : Nat) (mayPrefetch : Bool) : Prop :=
  s.pageBusy a = false ∧ s.checkRead q a mayPrefetch = (.go, s) ∧ (a % 0x1000 < 0x800 ∨ s.flag (rPG_CTRL (a / 0x1000)) fPG_CTRL_expert = true)

/-- FLOW_CMD holds an operation on a flow and go is set (R164); a write-back of that flow stops short (log entry 83). -/
def State.flowRuns (s : State) (op f : Nat) : State := ((s.setReg rFLOW_CMD (toW (op * 2 ^ 16 + f))).put rFLOW_CMD fFLOW_CMD_go 1).keepVictim f

/-- The states agree on every register but those listed. -/
def regsBut (l : List Nat) (s t : State) : Prop := ∀ a, a ∉ l → t.reg a = s.reg a

/-- Local memory reads the same everywhere. -/
def memSame (s t : State) : Prop := ∀ a, t.byte a = s.byte a

/-- The states agree on everything but the registers. -/
def restSame (s t : State) : Prop := t = { s with regs := t.regs }

/-- The registers, local memory and timetable memory have their canonical form, and no fault event waits for the collector. -/
def State.Canon (s : State) : Prop :=
  spWf resetWord s.regs = true ∧ Memory.wf s.mem = true ∧ Memory.ttWf s.ttm = true

/-- The bridges stand as they did, but for the read buffers of the host ports, which a write of the host drops (R262). -/
def bridgesSame (s t : State) : Prop := ∀ b, { t.br b with buffer := [] } = { s.br b with buffer := [] }

/-- The states differ in nothing but the registers listed, the outputs, the free values drawn, the fault events raised, the accesses that
wait for their page (R27, R31) and the read buffers of the host ports (R262). -/
def onlyRegs (l : List Nat) (s t : State) : Prop :=
  regsBut l s t ∧ bridgesSame s t ∧
    t = { s with regs := t.regs, out := t.out, free := t.free, raises := t.raises, held := t.held, brs := t.brs }

/-- The two registers of page p that the checks of an access may set: a refusal's flag and the interrupt that goes with it (R29). -/
def hdrRegs (p : Nat) : List Nat := [rPG_STATUS p, rPG_IRQ_STAT p]

/-- The states agree on local memory, the key store, the claims, the semaphores, the cipher engine and the ledger's staging. -/
def storesSame (s t : State) : Prop :=
  t.mem = s.mem ∧ t.keys = s.keys ∧ t.claims = s.claims ∧ t.sems = s.sems ∧ t.ciph = s.ciph ∧ t.ledg = s.ledg

/-- The commands whose effect writes no octet of local memory and no key slot, claim, semaphore, cipher state or ledger entry. -/
def storesNothing : Instr → Bool
  | .portEnable .. | .moduleCheck .. | .moduleRetry .. | .modulePinChange .. | .blockLock .. | .blockLockLost .. | .highBer ..
  | .trainTimeout .. | .alignComplete .. | .alignmentError .. | .slip .. | .holdoffExpire .. | .remoteFault .. | .retrain ..
  | .moduleAccess .. | .moduleAccessDone .. | .ringFrameReceived .. | .padApply .. | .claimSend .. | .electTimeout .. | .numberReceived ..
  | .delayReqSend .. | .delayReqReceived .. | .delayRespReceived .. | .beaconSend .. | .beaconReceived .. | .beaconMiss ..
  | .breakReceived .. | .assignReceived .. | .demoteReceived .. | .sleepReceived .. | .vetoReceived .. | .treeReceived .. | .treeSend ..
  | .bankCountRebuild .. | .fabLimitWrite .. | .fabOccCmd .. | .fabAimCmd .. | .fabTracePop .. | .paceReading .. | .paceSettleEnd ..
  | .paceLower .. | .paceLoopEnable .. | .paceCfgWrite .. | .paceClearBeat .. | .paceOutOfTurn .. | .flowPfCmd .. | .ttbMemData ..
  | .ttbMemDataInc .. | .ttbExpSwap .. | .ttbLogPop .. | .tbSessionOpen .. | .tbRateWrite .. | .syncSend .. | .timeMessageReceived ..
  | .sourceTimeout .. | .tunnelReceived .. | .tcOrphanTimeout .. | .tsuSnapAll .. | .tsuArm .. | .eventCompare .. | .eventCapture ..
  | .tsuCapPop .. | .msixUnmask .. | .qspiResult .. | .qspiInterruptStatus .. | .responseReceived .. | .requestRetry ..
  | .postedNoticeReceived .. | .postedConfirmTimeout .. | .prefetchExpire .. | .fenceRead .. | .fenceRequest .. | .pweClear ..
  | .windowResume .. | .windowAttrWrite .. | .pollEvtPop .. | .heartbeat .. | .heartbeatEnable .. | .levelWrite .. | .barrier ..
  | .barrierComplete .. | .barrierSlow .. | .xltFcapCmd .. | .dmaaAlloc .. | .rsvPush .. | .rsvPop .. | .pinFunctionWrite ..
  | .bankLevelWrite .. | .gpioSet .. | .gpioClr .. | .gpioEdge .. | .fqItemProduced .. | .fqPop .. | .fqPush .. | .fqCloseRx ..
  | .fqFlushRx .. | .fqFlushTx .. | .fqQcfgWrite .. | .uartRxChar .. | .uartIdleEnd .. | .uartTxChar .. | .uartDeRelease ..
  | .uartSendBreak .. | .spiFrame .. | .spiCount .. | .spiTargetFrame .. | .spiCsRelease .. | .i2cCommand .. | .i2cSclTimeout ..
  | .i2cBusClear .. | .i2cRelease .. | .i2cTargetByte .. | .i2cStretchLimit .. | .i2cTargetStop .. | .canTxLoad .. | .canTxChoose ..
  | .canTxDone .. | .canArbLost .. | .canBusError .. | .canRxFrame .. | .canAbort .. | .canRecover .. | .canRecoveryComplete ..
  | .canBusIntegrate .. | .jump .. | .count .. | .pause .. | .halt .. | .shout .. | .shin .. | .exch .. | .loadc .. | .test .. | .take ..
  | .give .. | .cloveMatch .. | .edge .. | .signal .. | .bankpt .. | .cloveReservedOpcode .. | .cloveGiveRoom .. | .cloveEdgeSeen ..
  | .cloveEdgeTimeout .. | .cloveShiftComplete .. | .clovStart .. | .clovStop .. | .clovSwap .. | .clovSyncNow .. | .clovSyncArm ..
  | .clovSyncDisarm .. | .clovSyncTrigger .. | .clovPmemData .. | .clovPmemDataInc .. | .clovStep .. | .macFrameReceived ..
  | .macSegmentDeliver .. | .macTxFrame .. | .pauseEnd .. | .t1sCollision .. | .t1sBackoffEnd .. | .mdioAccess .. | .mdioDone ..
  | .cntFreeze .. | .cntClear .. | .txsPop .. | .ciphMmCmd .. | .ciphKat .. | .ciphKatDone .. | .keyCtrLock .. | .keyLogPop ..
  | .enhancementBegin .. | .limitOnset .. | .limitEnd .. | .limitClear .. | .retryClear .. | .clearRetries .. | .pdOtpProgram ..
  | .bankSupplyOk .. | .pdWriteResend .. | .mirrorCompare .. | .doTimedFire .. | .pdDioSet .. | .pdDioClr .. | .pdDioOutWrite ..
  | .pdTemperatureHigh .. | .errorPairEqual .. | .errorPairStuck .. | .fltAck .. | .fltCapClr .. | .fltErrnClr .. | .wdtEnable ..
  | .wdtKick .. | .wdtStage1Expire .. | .hushEnter .. | .hushExit .. | .pllUnlock .. | .refclkFault .. | .chipTempCmd .. | .chipTempHigh ..
  | .fwAssemblyTimeout .. | .handoverTimeout .. | .fwuMeasExt .. | .xspiTimeout .. | .mailboxDoorbell .. | .mailboxAck .. | .extest ..
  | .idcode .. | .samplePreload .. | .highz .. | .clamp .. | .extestPulse .. | .extestTrain .. | .bypass .. | .txClockLocked ..
  | .postedEntryAged .. | .pcieLinkChange .. | .inbandStatusChange .. | .supplyBelowWarning .. | .dieLinkPush .. | .tbSnap .. | .tbStep ..
  => true
  | _ => false

/-- n steps, as long as each answers a next state. -/
def State.run : Nat → State → Option State
  | 0, s => some s
  | n + 1, s => match step s with
    | .next t => State.run n t
    | _ => none

/-- No fault event is left over from a command (R499). -/
def State.Settled (s : State) : Prop := s.raises = []

end Sys2Proof.Machine
end

