-- ==== Sys2Proof/Certificates/Slice0/Obligations.lean ====
section
/-! DEFINITION. The statements for the provers. An effect is written as the state that the command's own rule gives; State.finished adds what every
command ends with, the collector and the delivery of interrupts. -/
open Sys2Proof Sys2Proof.Machine

/-- The queue: with a command at its front, a step executes that command with the queue's rest. -/
def Obligations.StepRunsTheFrontCommand : Prop := ∀ (s : State) (c : Instr) (rest : List Instr), s.pending = c :: rest →
  step s = exec c { s with pending := rest }

/-- With no command waiting a step is one tick of 4 ns (log entry 1; R215, R217, R218): the power die's clock goes on, and while the time island runs
each enabled base takes its increment and the island count adds 4, wrapping at 64 bits; in L3 and deeper they stand. Registers, memory and outputs
of the clocks stay. Where nothing is due (no trigger, pulse, step, compare, block reset, waiting request or confirm) a tick is that and the slot
count (R12), which a hub with no ready ring takes from its clock: 40 of the 1024 parts of a slot a tick, standing at the last slot of an epoch (log
entry 81). -/
def Obligations.IdleStepIsOneTick : Prop := ∀ s : State,
  (s.pending = [] → step s = .next (s.finished s.tick)) ∧
  (let t := s.clockTick
   t.pd = { s.pd with ticks := s.pd.ticks + 1 } ∧ t.regs = s.regs ∧ t.mem = s.mem ∧ t.ttm = s.ttm ∧ t.out = s.out ∧
   (s.islandRuns = true → t.servo = { s.servo with island := (s.servo.island + 4) % 2 ^ 64 } ∧
    ∀ b, b < 4 → t.base b = if s.enabled (0x40 + b) then (s.base b).tick else s.base b) ∧
   (s.islandRuns = false → t.bases = s.bases ∧ t.servo = s.servo)) ∧
  (s.servo.trigs = [] → s.servo.pulses = [] → (∀ b, (s.base b).step = none) → (∀ u, u < 16 → s.comparing u = false) → s.resets = [] →
    (s.br 0).locals = [] → (s.br 1).locals = [] → s.flag rFWU_STATUS fFWU_STATUS_confirm_pending = false → s.tick = s.clockTick.slotTick) ∧
  (s.islandRuns = true → s.flag (rRCTL_STATUS 0) fRCTL_STATUS_ring_ready = false → s.flag (rRCTL_STATUS 1) fRCTL_STATUS_ring_ready = false →
    (s.slotPhase + 40 < 1024 → s.slotTick = { s with slotPhase := s.slotPhase + 40 }) ∧
    (1024 ≤ s.slotPhase + 40 → s.slot % 2 ^ 20 ≠ 2 ^ 20 - 1 → s.slotTick = { s with slotPhase := s.slotPhase + 40 - 1024, slot := s.slot + 1 }) ∧
    (1024 ≤ s.slotPhase + 40 → s.slot % 2 ^ 20 = 2 ^ 20 - 1 → s.slotTick = s))

/-- Every command of the table completes from every state: it answers a next state, leaves the waiting commands alone, and leaves no fault event that
the collector has not taken. -/
def Obligations.EveryCommandCompletes : Prop := ∀ (c : Instr) (s : State), ∃ t : State, exec c s = .next t ∧ t.pending = s.pending ∧ t.Settled

/-- The queue is worked off first in, first out: after n steps, n at most the number waiting, the first n commands are gone and the rest wait in their
order, and no fault event is left. -/
def Obligations.WaitingCommandsAreWorkedOff : Prop := ∀ (s : State) (n : Nat), n ≤ s.pending.length →
  ∃ t : State, s.run n = some t ∧ t.pending = s.pending.drop n ∧ (n ≠ 0 → t.Settled)

/-- At reset (R6, R29, R33, R185, R492, R501, R526): every register holds its reset value but RST_CAUSE, which names the power-on; local memory lists
nothing, no command waits, nothing is sent, no key slot, semaphore or claim is held, the time bases stand at zero; the canonical form holds.
Concrete values: PG_CTRL.enable of the fabric's page is 1 and of a UART's page 0, no host owns it, fault sources 0 and 127 have their settings, and
SRAM reads 0. What memory without a stated reset content reads as is the model's choice (log entry 10). -/
def Obligations.ResetLeaves : Prop := let s := State.reset
  (∀ a, a ≠ rRST_CAUSE → s.reg a = resetWord a) ∧ s.get rRST_CAUSE fRST_CAUSE_code = 1 ∧
  (∀ a, s.byte a = memDefault a) ∧ (∀ a, s.ttByte a = ttmDefault a) ∧ s.pending = [] ∧ s.out = [] ∧ s.raises = [] ∧
  (∀ n, s.key n = {} ∧ s.sem n = {} ∧ (s.claim n).own = .opened) ∧ (∀ b, (s.base b).total = 0) ∧ s.Canon ∧
  s.enabled 0x10 = true ∧ s.enabled 0x80 = false ∧ s.get (rPG_STATUS 0x80) fPG_STATUS_claim_owner = 0xFF ∧
  s.reg (rFLT_SRC_CFG 0) = 0x00030810 ∧ s.reg (rFLT_SRC_CFG 127) = 0x00030142 ∧ s.byte 0x1C0000 = 0

/-- Every step, of a command or a tick, keeps the canonical form of the registers, of local memory and of timetable memory. -/
def Obligations.EveryStepKeepsTheCanonicalForm : Prop := ∀ s t : State, s.Canon → step s = .next t → t.Canon

/-- What the end of a command adds to an effect that raised no fault event: outputs that are MSI-X messages or the trap, HBx_MSIX_PBA, and nothing else
(R248, R499). A vector that page requests have come to request at a PCI Express host sends its message, or sets its PBA bit while masked. -/
def Obligations.InterruptsAreDelivered : Prop := ∀ b t : State, t.raises = [] → let r := State.finished b t
  r = { t with regs := r.regs, out := r.out, pending := b.pending } ∧
  regsBut [rHBx_MSIX_PBA 0, rHBx_MSIX_PBA 1] t r ∧
  (∃ l, r.out = l ++ t.out ∧ ∀ o ∈ l, o = .trap ∨ ∃ h v, o = .msix h v) ∧
  (∀ h : Fin 2, t.pcieOn h = true → ∀ v ∈ t.vectors h, v ∉ b.vectors h → v < 32 →
    (t.flag (rHBx_MSIX_CTRL h v) fHBx_MSIX_CTRL_mask = false → .msix h v ∈ r.out) ∧
    (t.flag (rHBx_MSIX_CTRL h v) fHBx_MSIX_CTRL_mask = true → bitOf (r.reg (rHBx_MSIX_PBA h)) v = true))

/-- The frame of the commands that store nothing: before the collector takes its fault events, the effect of each leaves local memory, the key store,
the claims, the semaphores, the cipher engine and the ledger's staging as they were. -/
def Obligations.CommandsThatStoreNothing : Prop := ∀ (c : Instr) (s : State), storesNothing c = true →
  ∃ T : State, exec c s = .next (s.finished T) ∧ storesSame s T

/-- The frame of the register commands, for every requester and value, accepted, turned away or waiting for its page: each changes the registers named,
the refusal flags of its page, and beside them only what it sends, the fault events it raises, the list of accesses that wait and the read buffer of
its host (R27, R31, R262). GPIO_SET and GPIO_CLR do so while no pin of the cluster is a GPIO output. -/
def Obligations.RegisterCommandsStayWithinTheirRegisters : Prop := ∀ (s : State) (q : Req) (v : Word),
  (∀ p, ∃ T : State, exec (.pgIrqForce q p v) s = .next (s.finished T) ∧ onlyRegs (hdrRegs p) s T) ∧
  (∀ p, ∃ T : State, exec (.pgLock q p v) s = .next (s.finished T) ∧ onlyRegs (rPG_LOCK p :: hdrRegs p) s T) ∧
  (∃ T : State, exec (.fabAimCmd q v) s = .next (s.finished T) ∧ onlyRegs (rFAB_AIM_MAX :: hdrRegs 0x15) s T) ∧
  (∀ n, ∃ T : State, exec (.fabLimitWrite q n v) s = .next (s.finished T) ∧ onlyRegs (rFAB_LIMIT n :: rFAB_LIMIT_SUM :: hdrRegs 0x10 ++ hdrRegs 0x11) s T) ∧
  (∃ T : State, exec (.paceClearBeat q v) s = .next (s.finished T) ∧ onlyRegs (rPACE_BEAT :: rPACE_BEAT_MIN :: rPACE_CMD :: hdrRegs 0x18) s T) ∧
  (∃ T : State, exec (.fltAck q v) s = .next (s.finished T) ∧ onlyRegs (rFLT_PENDING :: hdrRegs 0x04) s T) ∧
  (∀ c : Fin 4, (∀ p : Fin 32, s.pinFn c p = 1 → bitOf (s.reg (rPMUX_GPIO_OE c)) p = false) →
    (∃ T : State, exec (.gpioSet q c v) s = .next (s.finished T) ∧ onlyRegs (rPMUX_GPIO_OUT c :: hdrRegs (0xB0 + c)) s T) ∧
    (∃ T : State, exec (.gpioClr q c v) s = .next (s.finished T) ∧ onlyRegs (rPMUX_GPIO_OUT c :: hdrRegs (0xB0 + c)) s T)) ∧
  (∃ T : State, exec (.mailboxAck q v) s = .next (s.finished T) ∧ onlyRegs (rANI_MB_STATUS 0 :: rANI_MB_STATUS 1 :: hdrRegs 0xC2) s T) ∧
  (∃ T : State, exec (.chipTempCmd q v) s = .next (s.finished T) ∧ onlyRegs (rCHIP_TEMP_MAX :: hdrRegs 0x00) s T) ∧
  (∃ T : State, exec (.xltFcapCmd q v) s = .next (s.finished T) ∧ onlyRegs (rXLT_FCAP_INFO :: rXLT_FCAP_ADDR :: rXLT_FCAP_NODE :: hdrRegs 0x0A) s T) ∧
  (∃ T : State, exec (.flowPfCmd q v) s = .next (s.finished T) ∧ onlyRegs (rFLOW_PF_CAP :: rFLOW_PF_ADDR :: hdrRegs 0x33) s T) ∧
  (∃ T : State, exec (.ciphMmCmd q v) s = .next (s.finished T) ∧ onlyRegs (rCIPH_MM_CAP :: hdrRegs 0x48) s T) ∧
  (∃ T : State, exec (.keyCtrLock q v) s = .next (s.finished T) ∧ onlyRegs (rKEY_CTR_LOCK :: hdrRegs 0x4D) s T) ∧
  (∃ T : State, exec (.ciphKat q v) s = .next (s.finished T) ∧ onlyRegs (rCIPH_KAT_RESULT :: rCIPH_KAT :: hdrRegs 0x48) s T) ∧
  (∀ m, ∃ T : State, exec (.mdioAccess q m v) s = .next (s.finished T) ∧ onlyRegs (rxx_MDIO_ACC m :: hdrRegs (0x70 + m)) s T)

/-- Training of a ring port (R76), clause by clause. A write of RGA_PORT_CTRL that sets enable takes the port to MODULE where its ring's block is
enabled. In MODULE a module whose bytes and pins pass R80 fills RGA_MOD_STATUS and takes the port to WAKE; the retry timer has page A0h read again.
Block lock in WAKE leads to LOCK. A training time-out in WAKE, LOCK or ALIGN leads to WAKE. In LOCK a TRAIN set of the opposite port, of the ring's
rate, version 1 and ack 1 leads to ALIGN. In ALIGN four aligned SLOT sets with the peer ready lead to UP. In DOWN the end of the holdoff leads to
WAKE. -/
def Obligations.TrainingFollowsItsEvents : Prop := ∀ (s : State) (r p : Fin 2),
  (∀ q v, s.accepts q (rRGA_PORT_CTRL r p) v → s.flag (rRGA_PORT_CTRL r p) fRGA_PORT_CTRL_enable = false →
    (s.store (rRGA_PORT_CTRL r p) v).flag (rRGA_PORT_CTRL r p) fRGA_PORT_CTRL_enable = true →
    (s.store (rRGA_PORT_CTRL r p) v).enabled (ringPage r) = true →
    exec (.portEnable q r p v) s = .next (s.finished (((s.store (rRGA_PORT_CTRL r p) v).toModule r p).wrote q 0))) ∧
  (∀ b0 b12 b92, s.portState r p = pModule → s.moduleOk r p b0 b12 = true →
    ∃ w, exec (.moduleCheck r p true b0 b12 b92) s = .next (s.finished
        (((s.setPort r p { s.port r p with diag := b92.getLsbD 6 }).setReg (rRGA_MOD_STATUS r p) w).toWake r p)) ∧
      fldOf w fRGA_MOD_STATUS_identifier = b0.toNat ∧ fldOf w fRGA_MOD_STATUS_id_ok = 1 ∧ fldOf w fRGA_MOD_STATUS_rate_ok = 1) ∧
  (s.portState r p = pModule → exec (.moduleRetry r p) s = .next (s.finished (s.emit (.modBus r p 0 0 none)))) ∧
  (s.portState r p = pWake → exec (.blockLock r p) s =
    .next (s.finished ((s.put (rRGA_PORT_STATE r p) fRGA_PORT_STATE_block_lock 1).setPortState r p pLock))) ∧
  (s.portState r p = pWake ∨ s.portState r p = pLock ∨ s.portState r p = pAlign →
    exec (.trainTimeout r p) s = .next (s.finished (s.toWake r p))) ∧
  (∀ ready, s.portState r p = pLock →
    exec (.train r p (Train.ordSet ⟨s.quarter r, 1, 1 - p.val, true, ready⟩)) s = .next (s.finished
      (((s.put (rRGA_PORT_STATE r p) fRGA_PORT_STATE_peer_port (1 - p.val)).setPort r p
        { s.port r p with peerSeen := true, peerReady := ready, slotSets := 0 }).setPortState r p pAlign))) ∧
  (s.portState r p = pAlign → (s.port r p).peerReady = true →
    exec (.alignComplete r p) s = .next (s.finished ((s.setPort r p { s.port r p with slotSets := 4 }).enterUp r p))) ∧
  (s.portState r p = pDown → exec (.holdoffExpire r p) s = .next (s.finished (s.toWake r p)))

/-- A port that is UP leaves it for DOWN (R57, R59, R76, R83): when block lock is lost; when a window of the error monitor ends with a high bit error
ratio, of which no bit error is counted where the port checks no PRBS31; when block 0 of a slot is a SLOT set out of its place; when a TRAIN set
arrives; when the elastic buffer departs by more than two blocks upwards from its set value with the transmit clock locked; and when
RGA_PORT_CMD.retrain is written. In WAKE a rise of MOD_ABS takes the port to MODULE and raises the module fault (R81). Remote fault at a port that
is UP (R77, R107): the port's state stays, remote_fault_rx and tx_failed are set with PG_IRQ_STAT bit 4, and where RCTL is enabled the broken
direction is reported to the ring and the span held out of service; when the sets cease both flags clear. Leaving UP for state n (R75, R77, R96):
the port's state is n, RGA_CNT_DOWN has counted it, fault source 16 to 19 of that port is raised, the link delay of the port is unknown, and memory
is as it was; of that state ring control is told. -/
def Obligations.PortsLeaveUpAndReportIt : Prop :=
 (∀ (s : State) (r p : Fin 2),
  (s.isUp r p = true → exec (.blockLockLost r p) s = .next (s.finished
    ((s.put (rRGA_PORT_STATE r p) fRGA_PORT_STATE_block_lock 0).upToDown r p))) ∧
  (∀ w : BerWindow, s.isUp r p = true → berLimit ≤ w.bad → bitOf (s.reg (rRGA_PORT_TEST r p)) 1 = false → exec (.highBer r p w) s = .next (s.finished
    ((s.put (rRGA_PORT_STATE r p) fRGA_PORT_STATE_hi_ber 1).upToDown r p))) ∧
  (s.isUp r p = true → exec (.alignmentError r p .misplacedSlot) s = .next (s.finished
    ((s.inc (rRGA_CNT_SLIP r p)).upToDown r p))) ∧
  (∀ o t, s.isUp r p = true → o.kind = .train t → exec (.train r p o) s = .next (s.finished
    ((s.inc (rRGA_CNT_SLIP r p)).upToDown r p))) ∧
  (∀ fill, let s1 := s.put (rRGA_PORT_STATE r p) fRGA_PORT_STATE_elastic_now fill
    s1.isUp r p = true → (s1.noteDelay r p).isUp r p = true → (s1.noteDelay r p).flag (rRGA_STATUS r) fRGA_STATUS_tx_clock_locked = true →
    s1.fillSet r p + 2 < fill → exec (.slip r p fill) s = .next (s.finished (((s1.noteDelay r p).inc (rRGA_CNT_SLIP r p)).upToDown r p))) ∧
  (∀ q v, s.accepts q (rRGA_PORT_CMD r p) v → bitOf v 0 = true → s.isUp r p = true →
    exec (.retrain q r p v) s = .next (s.finished ((s.upToDown r p).wrote q 0))) ∧
  (∀ (los txf : Bool), (s.port r p).modAbs = false → s.portState r p = pWake → ∃ T : State, T.portState r p = pWake ∧
    T.port r p = { s.port r p with modAbs := true, txFault := txf, los := los } ∧
    exec (.modulePinChange r p true txf los) s = .next (s.finished ((T.raise (22 + r) (modulePage r)).toModule r p)))) ∧
 (∀ (s : State) (r p : Fin 2),
  (s.isUp r p = true → s.flag (rRGA_PORT_STATE r p) fRGA_PORT_STATE_remote_fault_rx = false → exec (.remoteFault r p true) s = .next (s.finished
    (let t := ((s.put (rRGA_PORT_STATE r p) fRGA_PORT_STATE_remote_fault_rx 1).put (rRGA_PORT_STATE r p) fRGA_PORT_STATE_tx_failed 1).irq (portPage r p) 4
     if t.enabled 0x28 = true then (t.spanBreak r (t.spanStation r p) (p.val = 0) (p.val = 1)).holdSpan r p else t))) ∧
  exec (.remoteFault r p false) s = .next (s.finished
    ((s.put (rRGA_PORT_STATE r p) fRGA_PORT_STATE_remote_fault_rx 0).put (rRGA_PORT_STATE r p) fRGA_PORT_STATE_tx_failed 0))) ∧
 (∀ (s : State) (r p : Fin 2) (n : Nat), n < 8 →
  ∃ T : State, s.leaveUp r p n = T.rcPortDown r p ∧ T.portState r p = n ∧
    T.reg (rRGA_CNT_DOWN r p) = s.reg (rRGA_CNT_DOWN r p) + 1 ∧
    T.raises = s.raises ++ [{ source := 16 + 2 * r + p, page := portPage r p }] ∧
    T.linkDelay r p = none ∧ T.mem = s.mem)

/-- The reception of a frame at a port that is UP with no injection armed (R67, R68). A frame whose header CRC is wrong is counted and raises source 20
of Ring A or 21 of Ring B. A well-formed frame with a sound trailer is counted as received, and then: one of this hub's own is counted as returned;
one for this node is taken off; one for another station of the ring is counted as expired when hops is 0, and otherwise counted as transit and given
to the other port with hops less 1 and, in a time frame, the link delay added. What a port sends in a slot (R56, R60, R70), where its lane carries
no PRBS31 and after the slot has been noted: a further slot of the frame in progress; on a port that is UP, with no timetable, no frame in the
transit buffer and no local frame, an empty slot whose SLOT set carries the slot count; and on a port that can send, with no timetable, the first
frame of the transit buffer, once its slots are unreserved. Module accesses, loop pad and transmit clock (R58, R61, R69, R82). An accepted write of
RGA_MOD_ACC with go = 1 for a read, while no access is in progress, keeps go at 1 and begins the bus access; a read that completes clears go, stores
the byte and sets PG_IRQ_STAT bit 4 of the module page. At a port that is UP a pad that waits takes effect, moves the elastic fill by the difference
and measures the transit delay anew. The transmit clock's lock shows in RGA_STATUS, with the source used, and in CLK_STATUS. -/
def Obligations.RingFramesAndSlots : Prop :=
 (∀ (s : State) (r p : Fin 2) (f : Frame) (sub : Fin 4),
  let s0 := s.setPort r p { s.port r p with bareSlots := 0 }
  s.isUp r p = true → s.armed (ringPage r) 2 = none →
  (f.headerCrc ≠ f.crcWanted → ∀ crc t, exec (.ringFrameReceived r p f crc t sub) s =
    .next (s.finished ((s0.inc (rRGA_CNT_HDR_CRC r p)).raise (20 + r)))) ∧
  (f.headerCrc = f.crcWanted → malformed p f = false →
    let s1 := s0.inc (rRGA_CNT_RX_FRAMES r p)
    let ic := s1.rawStamp sub
    (s1.nodeId r = some f.src → exec (.ringFrameReceived r p f f.trailer .clean sub) s =
      .next (s.finished (s1.inc (rRGA_CNT_RETURNED r p)))) ∧
    (s1.nodeId r = some f.dest → f.dest ≠ f.src → exec (.ringFrameReceived r p f f.trailer .clean sub) s =
      .next (s.finished (s1.takeOff r p f .sound ic ((s1.base 0).total + sub)))) ∧
    (s1.nodeId r ≠ some f.src → s1.nodeId r ≠ some f.dest → f.dest ≠ s1.ringNo r * 256 + 255 → s1.crosses r (f.dest / 256) = false →
      (f.hops = 0 → exec (.ringFrameReceived r p f f.trailer .clean sub) s = .next (s.finished (s1.inc (rRGA_CNT_EXPIRED r p)))) ∧
      (f.hops ≠ 0 → exec (.ringFrameReceived r p f f.trailer .clean sub) s =
        .next (s.finished ((s1.inc (rRGA_CNT_TRANSIT r p)).transmit r (1 - p.val)
          { frame := forwardFrame f ((s1.linkDelay r p).getD 0), tail := .clean, crc := f.trailer, since := some (s1.rxStamp r p ic) })))))) ∧
 (∀ (s : State) (x p : Fin 2) (slot : Nat) (sub : Fin 4),
  let s1 := (s.noteSlot x p slot).swapDue x slot
  bitOf (s1.reg (rRGA_PORT_TEST x p)) 0 = false →
  (0 < (s1.port x p).inProgress → exec (.slotFill x p slot sub) s = .next (s.finished
    ((s1.setPort x p { s1.port x p with inProgress := (s1.port x p).inProgress - 1 }).emit (.lane x p .cont)))) ∧
  ((s1.port x p).inProgress = 0 → s1.ttValid x = false → (s1.port x p).transit = [] → (s1.port x p).localQ = [] → s1.isUp x p = true →
    exec (.slotFill x p slot sub) s = .next (s.finished (s1.emit (.lane x p (.empty (s1.slotValue x slot)))))) ∧
  (∀ t rest, (s1.port x p).inProgress = 0 → s1.ttValid x = false → (s1.port x p).transit = t :: rest →
    s1.unreserved x slot t.frame.slots = true →
    let s2 := (s1.setPort x p { s1.port x p with transit := rest }).showTransit x p
    let e := s2.leaving x p sub t
    s2.mayLeave x p t.frame = true → e.frame.cls ≠ 0 → e.frame.kind ≠ 8 →
    exec (.slotFill x p slot sub) s = .next (s.finished (s2.startFrame x p e.frame e.crc e.tail)))) ∧
 (∀ (s : State) (r p : Fin 2),
  (∀ q v, s.accepts q (rRGA_MOD_ACC r) v → s.flag (rRGA_MOD_ACC r) fRGA_MOD_ACC_go = false → bitOf v 31 = true → bitOf v 30 = false →
    exec (.moduleAccess q r v) s = .next (s.finished
      ((((s.store (rRGA_MOD_ACC r) v).put (rRGA_MOD_ACC r) fRGA_MOD_ACC_go 1).emit
        (.modBus r (fldOf v fRGA_MOD_ACC_port) (fldOf v fRGA_MOD_ACC_device) (fldOf v fRGA_MOD_ACC_address) none)).wrote q 0))) ∧
  (∀ data, s.flag (rRGA_MOD_ACC r) fRGA_MOD_ACC_go = true → s.flag (rRGA_MOD_ACC r) fRGA_MOD_ACC_write = false →
    exec (.moduleAccessDone r false data) s = .next (s.finished
      (((((s.put (rRGA_MOD_ACC r) fRGA_MOD_ACC_go 0).put (rRGA_MOD_ACC r) fRGA_MOD_ACC_nack 0).put (rRGA_MOD_ACC r) fRGA_MOD_ACC_rdata
        data.toNat)).irq (modulePage r) 4))) ∧
  ((s.port r p).padPending = true → s.isUp r p = true →
    let n := s.get (rRGA_PORT_PAD r p) fRGA_PORT_PAD_pad
    let t := s.setPort r p { s.port r p with padForce := n, padPending := false }
    exec (.padApply r p) s = .next (s.finished ((t.put (rRGA_PORT_STATE r p) fRGA_PORT_STATE_elastic_now
      (t.get (rRGA_PORT_STATE r p) fRGA_PORT_STATE_elastic_now + n - (s.port r p).padForce)).noteDelay r p))) ∧
  exec (.txClockLocked r) s = .next (s.finished
    (((s.put (rRGA_STATUS r) fRGA_STATUS_timing_used (s.timingChoice r)).put (rRGA_STATUS r) fRGA_STATUS_tx_clock_locked 1).put rCLK_STATUS
      (if r.val = 0 then fCLK_STATUS_ring_a_lock else fCLK_STATUS_ring_b_lock) 1)))

/-- Ring control begins and elects (R89, R91, R93, R125). A write of RCTL_CTRL that enables attachment 0, its ring number configured, a port UP and the
block enabled, takes it from OFF to ELECT with cause 1. While RCTL is disabled claims, settle and time-out do nothing. CLAIM is sent in ELECT. A
CLAIM of another ring raises source 26; in ELECT a higher claim that names no ready master is adopted and sent on, and one of a ready master, while
kept = 0, leads to AWAIT. When settle expires at the hub whose own eligible claim is best, it starts counting, or with kept = 1 takes the ring over
quietly. elect_timeout in COUNT, NUMBER and AWAIT leads to ELECT with cause 8; in ELECT it does the same, and raises source 24 or 25 where the best
claim has priority 0. At a master RCTL_CMD leads to ELECT with kept = 1 and cause 3, or with kept = 0 and cause 4; its sleep bit has each attachment
that is master broadcast SLEEP, and its reset bit sends RESET to the station of RCTL_CMD_ARG. -/
def Obligations.ElectionRunsByItsEvents : Prop := ∀ (s : State) (x p : Fin 2),
  (∀ q v, let t := s.store rRCTL_CTRL v
    s.accepts q rRCTL_CTRL v → s.rcEnabled 0 = false → t.rcEnabled 0 = true → t.rcState 0 = rcOff → t.enabled 0x28 = true →
    t.ringNo 0 ≠ 1023 → (t.isUp 0 0 || t.isUp 0 1) = true → (t.enterElect 0 false 1).rcEnabled 1 = s.rcEnabled 1 →
    exec (.rctlEnable q v) s = .next (s.finished ((t.enterElect 0 false 1).wrote q 0))) ∧
  (s.enabled 0x28 = false → exec (.claimSend x) s = .next (s.finished s) ∧ (∀ m step pad, exec (.claimReceived x p m step pad) s = .next (s.finished s)) ∧
    exec (.settleExpire x) s = .next (s.finished s) ∧ exec (.electTimeout x) s = .next (s.finished s)) ∧
  (s.enabled 0x28 = true → s.rcState x = rcElect → exec (.claimSend x) s = .next (s.finished (s.sendClaim x))) ∧
  (∀ m step pad, s.enabled 0x28 = true → let s1 := s.popInbox x 0x01
    (m.ring ≠ s1.ringNo x → exec (.claimReceived x p m step pad) s = .next (s.finished (s1.raise 26))) ∧
    (m.ring = s1.ringNo x → s1.rcState x = rcElect → m.readyMaster = false → m.unnumbered = false → (s1.rc x).best < m.claim →
      exec (.claimReceived x p m step pad) s = .next (s.finished
        ((s1.setRc x { s1.rc x with best := m.claim, bestReady := false }).sendClaim x))) ∧
    (m.ring = s1.ringNo x → s1.rcState x = rcElect → m.readyMaster = true → s1.flag (rRCTL_STATUS x) fRCTL_STATUS_kept = false →
      exec (.claimReceived x p m step pad) s = .next (s.finished
        (((s1.setRc x { s1.rc x with best := max (s1.rc x).best m.claim, bestReady := true }).setMaster x m.claim m.master).setRcState x rcAwait)))) ∧
  (s.enabled 0x28 = true → s.rcState x = rcElect → (s.rc x).best = s.ownClaim → s.get rRCTL_CFG fRCTL_CFG_priority ≠ 0 →
    (s.flag (rRCTL_STATUS x) fRCTL_STATUS_kept = false → exec (.settleExpire x) s = .next (s.finished (s.startCount x))) ∧
    (s.flag (rRCTL_STATUS x) fRCTL_STATUS_kept = true → exec (.settleExpire x) s = .next (s.finished (s.takeover x)))) ∧
  (s.enabled 0x28 = true → s.rcState x = rcCount ∨ s.rcState x = rcNumber ∨ s.rcState x = rcAwait → exec (.electTimeout x) s = .next (s.finished
    (s.enterElect x (s.flag (rRCTL_STATUS x) fRCTL_STATUS_kept) 8))) ∧
  (s.enabled 0x28 = true → s.rcState x = rcElect → let t := if (s.rc x).best / 2 ^ 128 = 0 then s.raise (24 + x) else s
    exec (.electTimeout x) s = .next (s.finished (t.enterElect x (s.flag (rRCTL_STATUS x) fRCTL_STATUS_kept) 8))) ∧
  (∀ q, s.accepts q rRCTL_CMD (toW (2 ^ x.val)) → s.rcState x = rcMaster →
    exec (.rctlElect q (toW (2 ^ x.val))) s = .next (s.finished ((s.enterElect x true 3).wrote q 0))) ∧
  (∀ q, s.accepts q rRCTL_CMD (toW (4 * 2 ^ x.val)) → s.rcState x = rcMaster →
    exec (.rctlRenumber q (toW (4 * 2 ^ x.val))) s = .next (s.finished (((s.ringReadyClear x).enterElect x false 4).wrote q 0))) ∧
  (∀ q, s.accepts q rRCTL_CMD 16 →
    let sleep (y : Nat) (t : State) : State :=
      if t.rcState y = rcMaster then (t.setRc y { t.rc y with sleepEpochs := some 2 }).sendRouted y 0x9 255 (sleepOctets false) else t
    exec (.rctlSleep q 16) s = .next (s.finished ((sleep 1 (sleep 0 s)).wrote q 0))) ∧
  (∀ q, s.accepts q rRCTL_CMD 32 → exec (.rctlReset q 32) s = .next (s.finished
    ((s.sendRouted 0 0x9 (s.get rRCTL_CMD_ARG fRCTL_CMD_ARG_station)
      (resetOctets (s.get rRCTL_CMD_ARG fRCTL_CMD_ARG_station) (s.reg rRCTL_RESET_KEY))).wrote q 0)))

/-- Counting, numbering and link delays while RCTL is enabled (R94 to R97). In COUNT a COUNT of this hub closes the ring with one hub more than it
passed; in ELECT another hub's is relayed with the count raised, or answered by END where the other port is not UP. In ELECT another hub's END goes
back; in COUNT an END of this hub on path 0 gives the count of that end. A NUMBER is held until the link delay of its port is known, and acts when
it is. A DELAY_REQ is sent for a port that is UP; one that names the path on which it was not received is answered with its receive stamp, the send
stamp still 0; the first response to a request keeps twice the measured delay. In NUMBER a REPORT is kept with its station's UID. -/
def Obligations.CountingAndNumbering : Prop := ∀ (s : State) (x p : Fin 2), s.enabled 0x28 = true →
  (∀ passed uid, let s1 := s.popInbox x 0x02
    (uid = s1.uid → s1.rcState x = rcCount → passed < 255 →
      exec (.countReceived x p passed (arrivalPath p) uid) s = .next (s.finished (s1.countDone x (passed + 1) false 0))) ∧
    (uid ≠ s1.uid → s1.rcState x = rcElect → s1.isUp x (1 - p.val) = true → passed < 255 →
      exec (.countReceived x p passed (arrivalPath p) uid) s = .next (s.finished
        (s1.sendLocal x 0x8 (countOctets 0x02 (passed + 1) (arrivalPath p) uid)))) ∧
    (uid ≠ s1.uid → s1.rcState x = rcElect → s1.isUp x (1 - p.val) = false → passed < 255 →
      exec (.countReceived x p passed (arrivalPath p) uid) s = .next (s.finished
        (s1.sendLocal x 0x8 (countOctets 0x03 (passed + 1) (arrivalPath p) uid))))) ∧
  (∀ passed path uid, path ≠ arrivalPath p → let s1 := s.popInbox x 0x03
    (uid ≠ s1.uid → s1.rcState x = rcElect → exec (.endReceived x p passed path uid) s = .next (s.finished
      (s1.sendLocal x 0x8 (countOctets 0x03 passed path uid)))) ∧
    (uid = s1.uid → s1.rcState x = rcCount → path = 0 → exec (.endReceived x p passed path uid) s = .next (s.finished
      ((s1.setRc x { s1.rc x with end0 := some passed }).checkEnds x)))) ∧
  (∀ m, let s1 := s.popInbox x 0x04
    (s1.linkDelay x p = none → exec (.numberReceived x p m) s = .next (s.finished
      (s1.setRc x { s1.rc x with heldNumber := (s1.rc x).heldNumber ++ [(p.val, m)] }))) ∧
    ((s1.linkDelay x p).isSome = true → exec (.numberReceived x p m) s = .next (s.finished (s1.actNumber x p m)))) ∧
  (s.isUp x p = true → s.rcEnabled x = true → exec (.delayReqSend x p) s = .next (s.finished
    (s.sendLocal x 0x8 (delayReqOctets (arrivalPath p))))) ∧
  (∀ path src stamp s1, s.takeMsg x p 0x05 src stamp = some s1 → path ≠ arrivalPath p → exec (.delayReqReceived x p path src stamp) s = .next (s.finished
    (s1.sendLocal x 0x8 (delayRespOctets path (toTwos 64 (s1.rxStamp x p stamp / 10)) 0)))) ∧
  (∀ (t1 t2 t3 src stamp : Nat) s1, s.takeMsg x p 0x06 src stamp = some s1 →
    s1.isUp x p = true → (s1.port x p).reqAt = some t1 → (s1.rc x).exch = [] →
    exec (.delayRespReceived x p (arrivalPath p) t2 t3 src stamp) s = .next (s.finished
      (let s2 := s1.setPort x p { s1.port x p with reqAt := none }
       s2.setRc x { s1.rc x with exch := [(p.val, s1.rxStamp x p stamp - ((t1 : Int) * 10 + s1.txComp (2 * x + p)) -
        ((t3 : Int) - t2) * 10)] }))) ∧
  (∀ m, let s1 := s.popInbox x 0x10
    s1.rcState x = rcNumber → exec (.reportReceived x m) s = .next (s.finished
      ((s1.setRc x { s1.rc x with uids := (m.station, m.uid) :: (s1.rc x).uids.filter (fun e => e.1 != m.station),
                                  reports := m :: (s1.rc x).reports.filter (fun e => e.station != m.station) }).checkReports x)))

/-- Ready rings, beacons and spans while RCTL is enabled (R89, R98, R101, R107, R109, R112, R115). READY takes a numbered station in AWAIT to MEMBER: it
keeps the pads named, has no broken span and no missed beacon, and its ring is ready. A numbered member takes from the READY of an open ring the
count, the pads and the loops. The master sends BEACON with the next number. In MEMBER the master's BEACON clears the count of those missed; a
missed one is counted, and at beacon_miss of them the member goes to ELECT with kept = 1 and cause 2 and raises source 28. BREAK marks the
directions it names as broken. HEALED restores them, ends the service break of a port of this hub that faces the span by a restored direction, and
sets the loops. -/
def Obligations.ReadyBeaconsAndSpans : Prop := ∀ (s : State) (x : Fin 2), s.enabled 0x28 = true →
  (∀ m slot, let s1 := s.popInbox x 0x11
    s1.rcState x = rcAwait → (s1.rc x).numbered = true → ∃ T : State,
      exec (.readyReceived x m slot) s = .next (s.finished (T.ringReadySet x)) ∧ T.rcState x = rcMember ∧ (T.rc x).misses = 0 ∧
      (T.rc x).pads = m.pads ∧ (T.rc x).broken = []) ∧
  (∀ m slot, let s1 := s.popInbox x 0x11
    s1.rcState x = rcMember → (s1.rc x).numbered = true → (s1.rc x).tookOver = false → m.openRing = true → let t := s1.setCount x m.n
    exec (.readyReceived x m slot) s = .next (s.finished
      (((t.setRc x { t.rc x with openNum := true, pads := m.pads, tookOver := false }).showOpen x).setLoops x m.loop0 m.loop1))) ∧
  (s.rcState x = rcMaster → (s.rc x).demote = none → exec (.beaconSend x) s = .next (s.finished
    ((s.setRc x { s.rc x with beaconNo := ((s.rc x).beaconNo + 1) % 2 ^ 32 }).sendRouted x 0x8 255
      (BeaconMsg.octets ⟨s.ownClaim, s.station x, min 255 (s.rc x).count, ((s.rc x).beaconNo + 1) % 2 ^ 32, false⟩)))) ∧
  (∀ m, let s1 := s.popInbox x 0x08
    s1.rcState x = rcMember → m.takeover = false → m.claim = (s1.rc x).masterClaim → exec (.beaconReceived x m) s = .next (s.finished
      (s1.setRc x { s1.rc x with misses := 0 }))) ∧
  (s.rcState x = rcMember → (s.rc x).misses + 1 < max 1 (s.get rRCTL_TIMERS fRCTL_TIMERS_beacon_miss) →
    exec (.beaconMiss x) s = .next (s.finished (s.setRc x { s.rc x with misses := (s.rc x).misses + 1 }))) ∧
  (s.rcState x = rcMember → max 1 (s.get rRCTL_TIMERS fRCTL_TIMERS_beacon_miss) ≤ (s.rc x).misses + 1 →
    exec (.beaconMiss x) s = .next (s.finished ((s.enterElect x true 2).raise 28))) ∧
  (∀ b, let s1 := s.popInbox x 0x12
    s1.rcState x = rcMember → exec (.breakReceived x b) s = .next (s.finished
      (((((s1.setRc x { s1.rc x with broken := addBroken (s1.rc x).broken b }).showSpan x b.station).showOpen x).setLoops x 0 0).irq
        0x28 4))) ∧
  (∀ b l0 l1, let s1 := s.popInbox x 0x13
    s1.rcState x = rcMember → s1.flag rRCTL_EXP fRCTL_EXP_hold_span = false → let t := s1.restoreSpan x b
    let stay := (t.rc x).outOfService.filter (fun p => !((p = 0 && s1.healedPort x b 0) || (p = 1 && s1.healedPort x b 1)))
    exec (.healedReceived x b l0 l1) s = .next (s.finished ((t.setRc x { t.rc x with outOfService := stay }).setLoops x l0 l1)))

/-- Joining, demotion, sleep, reset and the ring tree while RCTL is enabled (R102, R103, R113, R119, R120, R122). The master gives a joiner whose place
is not known the lowest free number, marks the order as broken, sends ASSIGN to the reporting station and runs a kept pass. In MEMBER the hub that
ASSIGN names takes the number, and DEMOTE is kept. At the effect slot a hub with no DEMOTE does nothing; one with a DEMOTE is a member of the master
it names, and its slot count steps by the slots of the grid step where its time comes from this ring. In MEMBER SLEEP sets the two epochs, or clears
them when it cancels, and is answered by VETO where sleep_veto is set; at the master VETO in time clears them and SLEEP cancels. SLEEP sets put the
ring to sleep. A RESET for this station resets the hub when remote_reset_en is set and the key is right, and is counted as bad when the key is
wrong. In MEMBER TREE joins the ring at its level. A bridge whose upper ring is joined and lower ring ready sends TREE below at the next level, or
raises source 29 above level 8. -/
def Obligations.MembersActOnRingMessages : Prop := ∀ (s : State) (x : Fin 2), s.enabled 0x28 = true →
  (∀ station side uid k, let s1 := s.popInbox x 0x14
    s1.rcState x = rcMaster → s1.joining x uid = none → s1.vacancy x station side = none → s1.lowestFree x = some k →
    let t := s1.put (rRCTL_STATUS x) fRCTL_STATUS_order_broken 1
    let u := (t.setRc x { t.rc x with uids := (k, uid) :: (t.rc x).uids.filter (fun e => e.1 != k) }).setCount x (max (t.rc x).count (k + 1))
    station ≠ u.station x → exec (.joinReceived x station side uid) s = .next (s.finished
        ((u.sendRouted x 0x9 station (assignOctets k station uid)).keptPass x))) ∧
  (∀ station neighbour, let s1 := s.popInbox x 0x15
    s1.rcState x = rcMember → exec (.assignReceived x station neighbour s1.uid) s = .next (s.finished (s1.takeNumber x station))) ∧
  (∀ m, let s1 := s.popInbox x 0x16
    s1.rcState x = rcMember → exec (.demoteReceived x m) s = .next (s.finished (s1.setRc x { s1.rc x with demote := some m }))) ∧
  ((s.rc x).demote = none → exec (.demoteEffect x) s = .next (s.finished s)) ∧
  (∀ m, s.rcState x = rcMember → (s.rc x).demote = some m →
    let s1 := ((s.setRc x { s.rc x with demote := none, misses := 0 }).setMaster x m.claim m.master).setRcState x rcMember
    let s2 := if x = s1.timeAtt then
        (({ s1 with slot := ((s1.slot : Int) - m.step / s1.slotTime x).toNat } : State).openSession 0).setSource (m.claim % 2 ^ 128) else s1
    let s3 := (s2.inc (rRCTL_CNT_DEMOTE x)).irq 0x28 7
    let s4 := s3.timedFlows.foldl (fun s e => s.setReadmit e.1 true) s3
    exec (.demoteEffect x) s = .next (s.finished (if (s4.rc x).outOfService.isEmpty = true then s4 else s4.sendClaim x))) ∧
  (∀ cancel, let s1 := s.popInbox x 0x18
    s1.rcState x = rcMember → let t := (s1.setRc x { s1.rc x with sleepEpochs := if cancel then none else some 2 }).irq 0x28 8
    (t.flag rRCTL_CTRL fRCTL_CTRL_sleep_veto = false → exec (.sleepReceived x cancel) s = .next (s.finished t)) ∧
    (t.flag rRCTL_CTRL fRCTL_CTRL_sleep_veto = true → cancel = false → exec (.sleepReceived x cancel) s = .next (s.finished
      (t.sendRouted x 0x9 (t.get (rRCTL_MASTER x) fRCTL_MASTER_master_station) (vetoOctets (t.station x)))))) ∧
  (∀ station, let s1 := s.popInbox x 0x19
    s1.rcState x = rcMaster → (s1.rc x).sleepEpochs = some 2 → exec (.vetoReceived x station) s = .next (s.finished
      ((s1.setRc x { s1.rc x with sleepEpochs := none }).sendRouted x 0x9 255 (sleepOctets true)))) ∧
  (s.rcState x = rcMember → exec (.sleepSetReceived x) s = .next (s.finished (s.drainCore.sleepRing x))) ∧
  (∀ key, let s1 := s.popInbox x 0x1A
    (s1.rc x).numbered = true → s1.flag rRCTL_CTRL fRCTL_CTRL_remote_reset_en = true →
    (key = s1.reg rRCTL_RESET_KEY → exec (.resetMessage x (s1.station x) key) s = .next (s.finished (s1.warmReset 0x13))) ∧
    (key ≠ s1.reg rRCTL_RESET_KEY → exec (.resetMessage x (s1.station x) key) s = .next (s.finished (s1.inc rRCTL_CNT_BAD_MSG)))) ∧
  (∀ level upper, let s1 := s.popInbox x 0x1B
    s1.rcState x = rcMember → exec (.treeReceived x level upper) s = .next (s.finished
      (((s1.put (rRCTL_TREE x) fRCTL_TREE_joined 1).put (rRCTL_TREE x) fRCTL_TREE_level level).irq 0x28 9))) ∧
  (s.isBridge = true → s.flag (rRCTL_TREE (1 - s.lowerAtt)) fRCTL_TREE_joined = true →
    s.flag (rRCTL_STATUS s.lowerAtt) fRCTL_STATUS_ring_ready = true → let l := s.get (rRCTL_TREE (1 - s.lowerAtt)) fRCTL_TREE_level + 1
    (l ≤ 8 → exec .treeSend s = .next (s.finished
      ((s.sendRouted s.lowerAtt 0x9 255 (treeOctets l (s.ringNo (1 - s.lowerAtt)))).treeIn s.lowerAtt l))) ∧
    (8 < l → exec .treeSend s = .next (s.finished (s.raise 29))))

/-- R92 and R122: a CLAIM of another ring number is ignored and raises source 26; a RESET message addressed to this station resets the hub only while
remote_reset_en = 1 and the key is its RCTL_RESET_KEY, and is counted in RCTL_CNT_BAD_MSG otherwise; the key sent is the hub's own. -/
def Obligations.RingNumberAndResetKeyAreChecked : Prop := ∀ (s : State) (x p : Fin 2),
  (∀ m step pad, s.enabled 0x28 = true → m.ring ≠ s.ringNo x → exec (.claimReceived x p m step pad) s = .next (s.finished ((s.popInbox x 0x01).raise 26))) ∧
  (∀ key, let s1 := s.popInbox x 0x1A
    s.enabled 0x28 = true → (s1.rc x).numbered = true →
    (s1.flag rRCTL_CTRL fRCTL_CTRL_remote_reset_en = true ∧ key = s1.reg rRCTL_RESET_KEY →
      exec (.resetMessage x (s1.station x) key) s = .next (s.finished (s1.warmReset 0x13))) ∧
    (¬ (s1.flag rRCTL_CTRL fRCTL_CTRL_remote_reset_en = true ∧ key = s1.reg rRCTL_RESET_KEY) →
      exec (.resetMessage x (s1.station x) key) s = .next (s.finished (s1.inc rRCTL_CNT_BAD_MSG)))) ∧
  (∀ q v, s.accepts q rRCTL_CMD v → (∀ k, k < 5 → bitOf v k = false) → bitOf v 5 = true → let t := s.get rRCTL_CMD_ARG fRCTL_CMD_ARG_station
    exec (.rctlReset q v) s = .next (s.finished ((s.sendRouted 0 0x9 t (resetOctets t (s.reg rRCTL_RESET_KEY))).wrote q 0)))

/-- The page header (R29, R31 to R40, R274): what accepted writes of its registers do. PG_CTRL enables a block that may be enabled, and disables one; it
takes a block reset where the block has one, keeping enable; it sets expert with unlock 0x5A, and with another code sets expert_refused instead.
PG_IRQ_FORCE sets the bits written. PG_FAULT with valid = 1 clears the page's view. PG_FAULT_INJ of an absent checker changes nothing, of a present
one but checker 5 it arms it. A claim of host A, host B or Anise replaces the one that it presented, unless the host has been forced. PG_LOCK sets
lock and names the writer. A register write by REGISTER_WRITE to a page that is not held (R30, R34, R46): to an unpopulated page it completes with
status 0x1 and raises source 48; by a requester below the page's level it completes with 0x2 and sets privilege_refused; an accepted write of
PG_IRQ_EN is stored whole. The value of a write to a locked page (R38): every RWL bit is the register's present one, every other bit is the one
written, and lock_refused is set exactly when an RWL bit would have changed. R30: a read of PG_ID on an unpopulated page returns 0 with status 0x0;
every other aligned 32-bit access to an unpopulated page completes with status 0x1 and raises fault source 48, so that reading offset 0 of each page
enumerates them. -/
def Obligations.PageHeadersAndRegisterChecks : Prop :=
 (∀ (s : State) (q : Req) (p : Nat), p < 256 →
  let c := rPG_CTRL p
  (s.accepts q c 1 → s.flag c fPG_CTRL_enable = false → s.mayEnable p = true →
    exec (.blockEnable q p 1) s = .next (s.finished ((((((s.put c fPG_CTRL_enable 1).onEnable p).pumpPage p).ringEnable p true).put c fPG_CTRL_expert 0).wrote q 0))) ∧
  (s.accepts q c 0 → s.flag c fPG_CTRL_enable = true →
    exec (.blockEnable q p 0) s = .next (s.finished (((((s.put c fPG_CTRL_enable 0).onDisable p).ringEnable p false).put c fPG_CTRL_expert 0).wrote q 0))) ∧
  (s.accepts q c 3 → s.flag c fPG_CTRL_enable = true → hasBlockReset p = true →
    exec (.blockReset q p 3) s = .next (s.finished ((((s.put c fPG_CTRL_enable 1).put c fPG_CTRL_expert 0).blockReset p).wrote q 0))) ∧
  (s.accepts q c 0x5A05 → s.flag c fPG_CTRL_enable = true → s.flag c fPG_CTRL_expert = false →
    exec (.expertUnlock q p 0x5A05) s = .next (s.finished (((s.put c fPG_CTRL_enable 1).put c fPG_CTRL_expert 1).wrote q 0))) ∧
  (s.accepts q c 0x5905 → s.flag c fPG_CTRL_enable = true → s.flag c fPG_CTRL_expert = false →
    exec (.expertUnlock q p 0x5905) s = .next (s.finished (((s.put c fPG_CTRL_enable 1).expertRefused p).wrote q 0))) ∧
  (∀ v, s.accepts q (rPG_IRQ_FORCE p) v → exec (.pgIrqForce q p v) s = .next (s.finished ((s.irqBits p v).wrote q 0))) ∧
  (∀ v, s.accepts q (rPG_FAULT p) v → bitOf v 31 = true →
    exec (.pgFaultClear q p v) s = .next (s.finished ((s.setReg (rPG_FAULT p) 0).wrote q 0))) ∧
  (∀ v, let n := fldOf v fPG_FAULT_INJ_checker
    s.accepts q (rPG_FAULT_INJ p) v →
    ((checkersOf p).testBit n = false → exec (.pgFaultInj q p v) s = .next (s.finished (s.wrote q 0))) ∧
    ((checkersOf p).testBit n = true → n ≠ 5 → fldOf v fPG_FAULT_INJ_arm = 1 → exec (.pgFaultInj q p v) s = .next (s.finished
      ((((s.put (rPG_FAULT_INJ p) fPG_FAULT_INJ_checker n).put (rPG_FAULT_INJ p) fPG_FAULT_INJ_double (fldOf v fPG_FAULT_INJ_double)).put
        (rPG_FAULT_INJ p) fPG_FAULT_INJ_arm 1).wrote q 0)))) ∧
  (∀ v i, s.accepts q (rPG_CLAIM p) v → resourceOf p = some i → s.claimShut q = false →
    (q.master = 1 → exec (.pgClaim q p v) s = .next (s.finished ((s.redecide i { s.claim i with hostA := v.toNat } 0).wrote q 0))) ∧
    (q.master = 2 → exec (.pgClaim q p v) s = .next (s.finished ((s.redecide i { s.claim i with hostB := v.toNat } 0).wrote q 0))) ∧
    (q.master = 0 → exec (.pgClaim q p v) s = .next (s.finished ((s.redecide i { s.claim i with anise := v.toNat } 0).wrote q 0)))) ∧
  (∀ v, s.accepts q (rPG_LOCK p) v → fldOf v fPG_LOCK_lock = 1 → exec (.pgLock q p v) s = .next (s.finished
    (((s.put (rPG_LOCK p) fPG_LOCK_lock 1).put (rPG_LOCK p) fPG_LOCK_locker q.master).wrote q 0)))) ∧
 (∀ (s : State) (q : Req) (a : Nat) (v : Word), a < 0x100000 → a % 4 = 0 → a ≠ rFLT_ERRN_CLR →
  (s.pageBusy a = false → populated (a / 0x1000) = false → exec (.registerWrite q a v) s =
    .next (s.finished ((s.fault (accessEv 48 0xFFF q 2 4 (0x10000000 + a))).wrote q 1))) ∧
  (s.pageBusy a = false → populated (a / 0x1000) = true → lvlRank (s.levelOf q) < lvlRank (s.writeNeeds q (a / 0x1000) (a % 0x1000)) →
    exec (.registerWrite q a v) s = .next (s.finished ((s.privRefused (a / 0x1000)).wrote q 2))) ∧
  (s.accepts q a v → a % 0x1000 = 0x010 → exec (.registerWrite q a v) s = .next (s.finished ((s.store a v).wrote q 0)) ∧ (s.store a v).reg a = v)) ∧
 (∀ (s : State) (a : Nat) (v : Word), s.flag (rPG_LOCK (a / 0x1000)) fPG_LOCK_lock = true →
  let m := toW (accMask (regFields (a / 0x1000) (a % 0x1000)) .rwl)
  (s.lockAdjust a v).1 &&& m = s.reg a &&& m ∧ (s.lockAdjust a v).1 &&& ~~~m = v &&& ~~~m ∧
  (v &&& m = s.reg a &&& m → (s.lockAdjust a v).2 = s) ∧
  (v &&& m ≠ s.reg a &&& m → (s.lockAdjust a v).2 = s.refuse (a / 0x1000) fPG_STATUS_lock_refused)) ∧
 (∀ (s : State) (q : Req) (a : Nat) (v : Word) (pf : Bool), a < 0x100000 → a % 4 = 0 →
  populated (a / 0x1000) = false → s.pageBusy a = false →
  (a % 0x1000 = 0 → exec (.hostRequest q (0x10000000 + a) (.read 4 pf)) s = .next (s.finished (s.done q 0 [0, 0, 0, 0]))) ∧
  (a % 0x1000 ≠ 0 → exec (.hostRequest q (0x10000000 + a) (.read 4 pf)) s = .next (s.finished
    ((s.fault (accessEv 48 0xFFF q 1 4 (0x10000000 + a))).done q 1 []))) ∧
  exec (.hostRequest q (0x10000000 + a) (.write (leBytes 4 v.toNat))) s = .next (s.finished
    ((s.fault (accessEv 48 0xFFF q 2 4 (0x10000000 + a))).wrote q 1)))

/-- What a reset of classes leaves (R6, R31, R526): in the pages concerned the fields of those classes have their reset values and every other bit
stays, and no field of another page changes. -/
def Obligations.ClearedClassesHaveResetValues : Prop := ∀ (s : State) (pages : Nat → Bool) (lost : List Cls) (a : Nat), s.Canon →
  let m := lostMask a lost
  ((s.clearRegs pages lost).reg a &&& m = if pages (a / 0x1000) then resetWord a &&& m else s.reg a &&& m) ∧
  (s.clearRegs pages lost).reg a &&& ~~~m = s.reg a &&& ~~~m

/-- The fabric at work (R132, R134, R143, R147, R154, R155): an input that is on takes in the frame presented there, where it does not hold its class
back and the ingress stage does not leave the frame at its source, and takes in the next frame of its own source; a round is made unless the fabric
is frozen, and one by FAB_TEST_STEP while it is; a bank count found wrong is shown rebuilt and raises source 4; a FAB_LIMIT that keeps the sum of
all limits within 512 is stored with that sum, and another is turned away with config_warning and PG_IRQ_STAT bit 3. The fabric's own commands (R44,
R155): FAB_AIM_CMD clears FAB_AIM_MAX and nothing else; FAB_OCC_CMD clears the sixteen high-water marks and keeps every other register and every
count of cells; a read of FAB_TRACE_POP returns the oldest item, takes it from the FIFO and shows it in FAB_TRACE_POP_HI and the replay registers;
with an empty FIFO it reads 0 and changes nothing. -/
def Obligations.FabricForwardsClearsAndPops : Prop :=
 (∀ (s : State),
  (∀ (i : Fin 16) (f : Frame) (t : State), s.fabRuns = true → s.fabPort i = true → s.inputHolds i (s.crossClass i f) = false →
    s.ingress i { inp := i, frame := f, discard := false, cipherDone := false, orig := i, level := s.presenterLevel i } = some t →
    exec (.frameIngress i (some f)) s = .next (s.finished t)) ∧
  (∀ (i : Fin 16) (n : Nat) (d : Delivered) (t : State), s.fabRuns = true → s.fabPort i = true → s.sourceNext i = some n → (s.sources i)[n]? = some d →
    (s.dropSource i n).ingress i d = some t → exec (.frameIngress i none) s = .next (s.finished (t.sourceTaken i))) ∧
  (s.fabRuns = true → s.flag rFAB_TEST fFAB_TEST_freeze = false → exec .fabricRound s = .next (s.finished s.fabRound)) ∧
  (∀ q v, s.accepts q rFAB_TEST_STEP v → bitOf v 0 = true → s.fabRuns = true → s.flag rFAB_TEST fFAB_TEST_freeze = true →
    exec (.fabTestStep q v) s = .next (s.finished (s.fabRound.wrote q 0))) ∧
  (∀ m, s.enabled 0x10 = true → exec (.bankCountRebuild m) s = .next (s.finished
    ((s.put (rFAB_MID_OCC m) fFAB_MID_OCC_used (s.bankCells.filter (fun x => x.mid = m.val)).length).raise 4))) ∧
  (∀ q (n : Fin 16) v, s.accepts q (rFAB_LIMIT n) v → s.limitSum n v ≤ 512 → exec (.fabLimitWrite q n v) s = .next (s.finished
    (((s.store (rFAB_LIMIT n) v).put rFAB_LIMIT_SUM fFAB_LIMIT_SUM_sum (s.limitSum n v)).wrote q 0))) ∧
  (∀ q (n : Fin 16) v, s.accepts q (rFAB_LIMIT n) v → 512 < s.limitSum n v → exec (.fabLimitWrite q n v) s = .next (s.finished
    (((s.warn 0x11).irq 0x10 3).wrote q 0)))) ∧
 (∀ (s : State) (q : Req),
  (∀ v, s.accepts q rFAB_AIM_CMD v → bitOf v 0 = true → exec (.fabAimCmd q v) s = .next (s.finished ((s.setReg rFAB_AIM_MAX 0).wrote q 0))) ∧
  (∀ v, s.accepts q rFAB_OCC_CMD v → bitOf v 0 = true →
    let t := (List.range 16).foldl (fun s m => s.put (rFAB_MID_OCC m) fFAB_MID_OCC_high_water 0) s
    exec (.fabOccCmd q v) s = .next (s.finished (t.wrote q 0)) ∧
    (∀ m : Fin 16, t.get (rFAB_MID_OCC m) fFAB_MID_OCC_high_water = 0 ∧
      t.get (rFAB_MID_OCC m) fFAB_MID_OCC_used = s.get (rFAB_MID_OCC m) fFAB_MID_OCC_used) ∧
    regsBut ((List.range 16).map rFAB_MID_OCC) s t) ∧
  (∀ mp wide n l, s.allowsRead q rFAB_TRACE_POP mp → s.fab.trace = n :: l → exec (.fabTracePop q mp wide) s = .next (s.finished
    ((((({ s with fab := { s.fab with trace := l } } : State).setReg rFAB_TRACE_POP_HI (toW (n / 2 ^ 32))).setReg rFAB_TRACE_REPLAY (toW n)).setReg
      rFAB_TRACE_REPLAY_HI (toW (n / 2 ^ 32))).done q 0 (leBytes (if wide then 8 else 4) n)))) ∧
  (∀ mp wide, s.allowsRead q rFAB_TRACE_POP mp → s.fab.trace = [] →
    exec (.fabTracePop q mp wide) s = .next (s.finished (s.done q 0 (leBytes (if wide then 8 else 4) 0)))))

/-- The pace loop (R148 to R152, R156). A write of PACE_CTRL that sets loop_en drives start_code, or max_code after a failed self-check, and starts the
settle timer; one that leaves loop_en as it was, or clears it, is stored. A reading of rings that agree within 2 % is recorded: PACE_BEAT.beat is
the slower ring's, the breach flag says that it is above 1,000. While loop_en = 0 it is recorded and no more; above 1,000 the code goes to max_code
at once. A reading out of turn does the same and clears the request of PACE_CMD. The settle timer ends. The code steps down by one at the end of a
window below lower_at. PACE_CFG is stored, and while loop_en = 1 the code goes to the nearest one within the limits, with the settle timer where it
rose. PACE_CMD clears the extremes. -/
def Obligations.PaceFollowsReadings : Prop := ∀ (s : State),
  (∀ q v, s.accepts q rPACE_CTRL v → let t := s.store rPACE_CTRL v
    let c := if t.flag rPACE_CODE fPACE_CODE_selfcheck_failed then t.paceMax else t.nearCode (t.get rPACE_CFG fPACE_CFG_start_code)
    (s.paceLoop = false → t.paceLoop = true → exec (.paceLoopEnable q v) s = .next (s.finished
      ((((t.setCode c).put rPACE_CODE fPACE_CODE_driving 1).driveVcore c).startSettle.applyManual.wrote q 0))) ∧
    ((s.paceLoop = true ∨ t.paceLoop = false) → exec (.paceLoopEnable q v) s = .next (s.finished (t.wrote q 0)))) ∧
  (∀ b0 b1 : Nat, s.enabled 0x18 = true → s.islandRuns = true → let t := s.paceNote b0 b1
    (t.paceLoop = false → exec (.paceReading b0 b1) s = .next (s.finished t)) ∧
    (t.paceLoop = true → 1000 < max b0 b1 % 65536 → exec (.paceReading b0 b1) s = .next (s.finished (t.setCode t.paceMax))) ∧
    t.get rPACE_BEAT fPACE_BEAT_beat = max b0 b1 % 65536 ∧ t.flag rPACE_CODE fPACE_CODE_breach = decide (1000 < max b0 b1 % 65536)) ∧
  (∀ b0 b1 : Nat, s.enabled 0x18 = true → s.islandRuns = true → let t := (s.setReg rPACE_CMD 0).paceNote b0 b1
    (t.paceLoop = false → exec (.paceOutOfTurn b0 b1) s = .next (s.finished t)) ∧
    (t.paceLoop = true → 1000 < max b0 b1 % 65536 → exec (.paceOutOfTurn b0 b1) s = .next (s.finished (t.setCode t.paceMax)))) ∧
  exec .paceSettleEnd s = .next (s.finished { s with pace := { s.pace with settling := false, above := 0 } }) ∧
  (s.enabled 0x18 = true → s.pace.below = true → s.paceLoop = true → s.paceManual = false →
    s.flag rPACE_CODE fPACE_CODE_selfcheck_failed = false → s.vcoreDip = false → s.paceMin < s.paceCode →
    exec .paceLower s = .next (s.finished (s.setCode (s.paceCode - 1)))) ∧
  (∀ q v, s.accepts q rPACE_CFG v → let t := s.store rPACE_CFG v; let n := t.nearCode t.paceCode
    (t.paceLoop = false → exec (.paceCfgWrite q v) s = .next (s.finished (t.wrote q 0))) ∧
    (t.paceLoop = true → t.paceCode < n → exec (.paceCfgWrite q v) s = .next (s.finished (((t.setCode n).startSettle.applyManual).wrote q 0))) ∧
    (t.paceLoop = true → n ≤ t.paceCode → exec (.paceCfgWrite q v) s = .next (s.finished (((t.setCode n).applyManual).wrote q 0)))) ∧
  (∀ q v, s.accepts q rPACE_CMD v → bitOf v 0 = true → bitOf v 1 = false → exec (.paceClearBeat q v) s = .next (s.finished
    (((s.put rPACE_BEAT fPACE_BEAT_beat_max 0).setReg rPACE_BEAT_MIN 0xFFFF).wrote q 0)))

/-- Flow commands (R161, R164, R165): each runs from an accepted write of FLOW_CMD while go is 0 and completes with code 0. Create takes the lowest free
slot. Delete of a flow that is not enabled ends its fetch, discards its waiting frames, frees its slot and clears its entry. Enable of a resident
flow starts its window, for class 0 after admission and with its slots, which else gives code 8 and is logged. Disable of a resident flow ends it.
Pin of a resident flow pins it while fewer than pin_max are; of one paged out it waits for the fetch. Unpin of a resident flow that is disabled, or
of class 1 to 3, unpins it. Write back of a resident flow waits. -/
def Obligations.FlowCommandsRun : Prop := ∀ (s : State) (q : Req) (f : Nat), f < 0xF000 → s.flag rFLOW_CMD fFLOW_CMD_go = false →
  (∀ k, let t := s.flowRuns 1 f
    s.accepts q rFLOW_CMD (flowCmdWord 1 f) → entState (t.ent f) = 0 → t.createArgsOk f = true → t.freeSlot = some k →
    exec (.flowCreate q f) s = .next (s.finished (((t.createCtx k f).flowResult 0 0).wrote q 0))) ∧
  (let t := s.flowRuns 2 f;
    s.accepts q rFLOW_CMD (flowCmdWord 2 f) → entState (t.ent f) ≠ 0 → entEnabled (t.ent f) = false → t.flw.hold.any (fun h => h.flow = f) = false →
    let u1 := (t.cancelFetch f).dropWaiting f
    let u2 := (if entState (t.ent f) = 1 then u1.setSlot (entSlot (t.ent f)) none else u1).setEnt f 0
    let u3 := ({ u2 with flw := { u2.flw with total := u2.flw.total - 1, fresh := spSet (fun _ => false) u2.flw.fresh f false } } : State)
    let u4 := if u3.flw.load.any (fun w => w.2 = f) then u3.viewResult 3 else u3
    exec (.flowDelete q f) s = .next (s.finished ((u4.flowResult 0 0).wrote q 0))) ∧
  (let t := s.flowRuns 3 f;
    s.accepts q rFLOW_CMD (flowCmdWord 3 f) → entState (t.ent f) = 1 → entEnabled (t.ent f) = false →
    let k := entSlot (t.ent f)
    (t.ctxClass k ≠ 0 → exec (.flowEnable q f) s = .next (s.finished
      (((((t.startWindow k).setReadmit k false).setEnabled f k true).flowResult 0 0).wrote q 0))) ∧
    (t.ctxClass k = 0 → t.admission k = 0 → exec (.flowEnable q f) s = .next (s.finished
      ((((((t.install k).startWindow k).setReadmit k false).setEnabled f k true).flowResult 0 0).wrote q 0))) ∧
    (t.ctxClass k = 0 → t.admission k ≠ 0 → exec (.flowEnable q f) s = .next (s.finished
      (((t.logRefusal f (t.admission k) false).flowResult 8 (t.admission k)).wrote q 0)))) ∧
  (let t := s.flowRuns 4 f;
    s.accepts q rFLOW_CMD (flowCmdWord 4 f) → entState (t.ent f) = 1 → entEnabled (t.ent f) = true →
    exec (.flowDisable q f) s = .next (s.finished ((((t.disableFlow f (entSlot (t.ent f))).dropWaiting f).flowResult 0 0).wrote q 0))) ∧
  (let t := s.flowRuns 5 f;
    s.accepts q rFLOW_CMD (flowCmdWord 5 f) → entState (t.ent f) ≠ 0 → entPinned (t.ent f) = false →
    t.pinnedCount < t.get rFLOW_CFG fFLOW_CFG_pin_max →
    (entState (t.ent f) = 1 → exec (.flowPin q f) s = .next (s.finished (((t.pinCtx f).flowResult 0 0).wrote q 0))) ∧
    (entState (t.ent f) ≠ 1 → exec (.flowPin q f) s = .next (s.finished (((t.miss f).flowWait 5 f).wrote q 0)))) ∧
  (let t := s.flowRuns 6 f;
    s.accepts q rFLOW_CMD (flowCmdWord 6 f) → entState (t.ent f) = 1 → (entEnabled (t.ent f) = false ∨ natBits (t.ent f) 27 26 ≠ 0) →
    exec (.flowUnpin q f) s = .next (s.finished (((t.setPinned f (entSlot (t.ent f)) false).flowResult 0 0).wrote q 0))) ∧
  (let t := s.flowRuns 7 f;
    s.accepts q rFLOW_CMD (flowCmdWord 7 f) → entState (t.ent f) = 1 →
    exec (.flowWriteBack q f) s = .next (s.finished ((t.flowWait 7 f).wrote q 0)))

/-- Refused flow commands (R164, R165): a flow ID of 0xF000 and above is code 1, create of a flow that exists code 2, create with bad arguments code 9,
any other command on an absent flow code 3, a delete or enable of an enabled flow code 6; a write of FLOW_CMD while go is 1 changes nothing. What
create leaves (R104, R160 to R162, R164): the entry of the flow is resident in the slot, neither enabled nor pinned; the context carries the flow
ID, neither flag, and the start values of the window; no octet outside the entry and the slot changes. -/
def Obligations.FlowCommandCodesAndCreatedContext : Prop :=
 (∀ (s : State) (q : Req) (f op : Nat), f < 0x10000 → 1 ≤ op → op ≤ 7 →
  s.accepts q rFLOW_CMD (flowCmdWord op f) →
  let t := s.flowRuns op f
  (s.flag rFLOW_CMD fFLOW_CMD_go = true → s.flowCommand q op f = s.wrote q 0) ∧
  (s.flag rFLOW_CMD fFLOW_CMD_go = false →
    (0xF000 ≤ f → s.flowCommand q op f = (t.flowResult 1 0).wrote q 0) ∧
    (f < 0xF000 → op = 1 → entState (t.ent f) ≠ 0 → s.flowCommand q op f = (t.flowResult 2 0).wrote q 0) ∧
    (f < 0xF000 → op = 1 → entState (t.ent f) = 0 → t.createArgsOk f = false → s.flowCommand q op f = (t.flowResult 9 0).wrote q 0) ∧
    (f < 0xF000 → op ≠ 1 → entState (t.ent f) = 0 → s.flowCommand q op f = (t.flowResult 3 0).wrote q 0) ∧
    (f < 0xF000 → op = 2 ∨ op = 3 → entState (t.ent f) ≠ 0 → entEnabled (t.ent f) = true →
      s.flowCommand q op f = (t.flowResult 6 0).wrote q 0))) ∧
 (∀ (s : State) (k f : Nat), k < 4096 → f < 0xF000 →
  let t := s.createCtx k f
  entState (t.ent f) = 1 ∧ entSlot (t.ent f) = k ∧ entEnabled (t.ent f) = false ∧ entPinned (t.ent f) = false ∧
  t.ctxFlow k = f ∧ t.ctxEnabled k = false ∧ t.ctxPinned k = false ∧ t.ctxReadmit k = false ∧ t.ctxWin k = ⟨0xFFFF, 2 ^ 64 - 1, 0⟩ ∧
  t.slotFlow k = some f ∧ t.regs = s.regs ∧
  (∀ a, (a < ctxAddr k ∨ ctxAddr k + 128 ≤ a) → (a < entAddr f ∨ entAddr f + 4 ≤ a) → t.byte a = s.byte a))

/-- The context view and direct writes (R163, R166). Load of a resident flow, which no other requester holds, copies its context and holds it; of one
paged out it waits for the fetch. Store by the holder writes the view back and ends the hold, release by the holder ends it; by another requester
each gives code 10. A direct write of the context store reaches offsets 0x40 to 0x73 of a resident context, and is else ignored and counted. The
pager (R164, R170, R171, R173, R179, R181). A miss takes a free slot, or the slot of a victim: a changed one is written back first, one as its
backing store has it is paged out at once; with no victim the miss is counted once. A victim written back is paged out, one whose write-back faults
stays. A context fetched with the right check word is installed and the frames of its flow are looked up; with a wrong one the entry is paged out
again, with fault cause 2, and waits for its retry, which asks for the fetch again. A pin that waited completes when its context is resident. A
system window's guard ends, and the frames that wait look again. FLOW_PF_CMD clears the capture. -/
def Obligations.ContextViewAndPager : Prop :=
 (∀ (s : State) (q : Req),
  (let f := s.get rFLOW_VIEW_SEL fFLOW_VIEW_SEL_flow_id
    let t := s.keepVictim f
    s.accepts q rFLOW_VIEW_CMD 1 → s.flw.load = none → f < 0xF000 → entState (s.ent f) ≠ 0 → s.flw.hold.any (fun h => h.q != q) = false →
    (entState (t.ent f) = 1 → exec (.viewLoad q 1) s = .next (s.finished ((t.viewTake q f).wrote q 0))) ∧
    (entState (t.ent f) ≠ 1 → exec (.viewLoad q 1) s = .next (s.finished
      (({ t.miss f with flw := { (t.miss f).flw with load := some (q, f) } } : State).wrote q 0)))) ∧
  (∀ h, s.accepts q rFLOW_VIEW_CMD 2 → s.flw.load = none → s.flw.hold = some h →
    (h.q = q → exec (.viewStore q 2) s = .next (s.finished ((((s.viewStore h.flow).endHold).viewResult 0).wrote q 0))) ∧
    (h.q ≠ q → exec (.viewStore q 2) s = .next (s.finished ((s.viewResult 10).wrote q 0)))) ∧
  (∀ h, s.accepts q rFLOW_VIEW_CMD 4 → s.flw.load = none → s.flw.hold = some h →
    (h.q = q → exec (.viewRelease q 4) s = .next (s.finished ((s.endHold.viewResult 0).wrote q 0))) ∧
    (h.q ≠ q → exec (.viewRelease q 4) s = .next (s.finished ((s.viewResult 10).wrote q 0)))) ∧
  (∀ a bs, regionOf a = some .context → s.memWriteStatus q.master (s.levelOf q) a bs.length = 0 →
    let k := (a - 0x100000) / 128
    let off := (a - 0x100000) % 128
    ((∃ f, s.slotFlow k = some f ∧ entState (s.ent f) = 1) → 0x40 ≤ off → off + bs.length ≤ 0x74 →
      exec (.contextDirectWrite q a bs) s = .next (s.finished (((s.setBytes a bs).touch k).done q 0))) ∧
    (s.slotFlow k = none ∨ (∃ f, s.slotFlow k = some f ∧ entState (s.ent f) ≠ 1) ∨ off < 0x40 ∨ 0x74 < off + bs.length →
      exec (.contextDirectWrite q a bs) s = .next (s.finished ((s.inc rFLOW_CNT_DIRECT_REFUSED).done q 0))))) ∧
 (∀ (s : State),
  (∀ m rest, s.enabled 0x30 = true → s.flw.job = none → s.flw.misses = .fetch m :: rest →
    (∀ k, s.freeSlot = some k → exec .pagerMiss s = .next (s.finished
      { s with flw := { s.flw with misses := rest, job := some ⟨.fetch m, k, none⟩ } })) ∧
    (∀ k f, s.freeSlot = none → s.victim = some (k, f) → spGet (fun _ => false) s.flw.dirty k = true →
      let t := s.setEnt f (natPut (natPut (s.ent f) 31 30 3) 19 0 (s.ctx k 0x18 19 0))
      exec .pagerMiss s = .next (s.finished { t with flw := { t.flw with misses := rest, job := some ⟨.fetch m, k, some f⟩ } })) ∧
    (∀ k f, s.freeSlot = none → s.victim = some (k, f) → spGet (fun _ => false) s.flw.dirty k = false →
      exec .pagerMiss s = .next (s.finished
        { s.pageOut k f with flw := { (s.pageOut k f).flw with misses := rest, job := some ⟨.fetch m, k, none⟩ } })) ∧
    (s.freeSlot = none → s.victim = none → s.flw.noVictim.contains (.fetch m) = false → exec .pagerMiss s = .next (s.finished
      (({ s with flw := { s.flw with noVictim := .fetch m :: s.flw.noVictim } }.inc rFLOW_CNT_NO_VICTIM).irq 0x30 5)))) ∧
  (∀ g k f err, s.flw.job = some ⟨.fetch g, k, some f⟩ →
    let w := s.writeBack k f err
    (w.1 = true → exec (.pagerWritebackDone err) s = .next (s.finished
      { w.2.pageOut k f with flw := { (w.2.pageOut k f).flw with job := some ⟨.fetch g, k, none⟩ } })) ∧
    (w.1 = false → exec (.pagerWritebackDone err) s = .next (s.finished
      { w.2.abandonEvict with flw := { w.2.abandonEvict.flw with stuck := spSet (fun _ => false) w.2.abandonEvict.flw.stuck k true } }))) ∧
  (∀ f k out, s.flw.job = some ⟨.fetch f, k, none⟩ →
    let a := s.backAddr (entLoc (s.ent f))
    (s.backing a .read).1 = some out →
    let t := (s.backing a .read).2
    let bs := t.bytes out 128
    (crc32c (bs.take 124) = toW (leNat (slice bs 124 4)) → exec (.pagerFetchDone none) s = .next (s.finished (t.fetchLanded f k bs))) ∧
    (crc32c (bs.take 124) ≠ toW (leNat (slice bs 124 4)) → exec (.pagerFetchDone none) s = .next (s.finished (t.fetchFaulted f a 2)))) ∧
  (∀ f, s.flw.retries.contains f = true → exec (.pagerRetry f) s = .next (s.finished
    (({ s with flw := { s.flw with retries := s.flw.retries.filter (· != f), misses := s.flw.misses ++ [Job.fetch f] } }).setEnt f
      (natPut (s.ent f) 31 30 3)))) ∧
  (∀ f err nv, s.flw.wait = some (5, f) → entState (s.ent f) = 1 → s.pinnedCount < s.get rFLOW_CFG fFLOW_CFG_pin_max →
    exec (.flowCmdComplete err nv) s = .next (s.finished ((s.pinCtx f).flowResult 0 0))) ∧
  (∀ src flow, exec (.sysWindowUnprotect src flow) s = .next (s.finished
    ({ s with flw := { s.flw with sys := s.flw.sys.map (fun e => if e.src = src && e.flow = flow then { e with guarded := false } else e) } } : State).retrySystem)) ∧
  (∀ q v, s.accepts q rFLOW_PF_CMD v → bitOf v 0 = true → exec (.flowPfCmd q v) s = .next (s.finished
    (((s.setReg rFLOW_PF_CAP 0).setReg rFLOW_PF_ADDR 0).wrote q 0))))

/-- The timetable (R185, R189, R190, R192, R196, R197, R213). A bit of TTB_CMD written as 1 distributes the image on that ring where the hub is its
master. The last fragment of the table in force has the flows re-admitted, any other of that table changes nothing; the first of two fragments of
another table begins a set that shows in the inactive bank. At its effect slot a pending table becomes active, and a set that is not complete clears
valid, sets missed, raises the interrupt and marks the flows of its ring for re-admission. The oldest class 0 frame at a ring output, of an enabled
flow, is stored, counted as dropped while its flow waits for re-admission, or counted as overrun with as many frames of the flow stored as its list
has sends; a frame of a flow that is not enabled is discarded. A bit of TTB_EXP_SWAP asks for a swap at the next period boundary. The window on
timetable memory (R44, R185, R195, R199, R213). A write of TTB_MEM_DATA within the slot lists, at an entry that no enabled flow uses, stores the
word at TTB_MEM_ADDR and leaves every other octet; one below 0x4_0000 while bank_write = 0 is ignored with config_warning. A write of
TTB_MEM_DATA_INC does as one of TTB_MEM_DATA and then adds 4 to the address; a read of it answers the word there and adds 4. A read of TTB_LOG_POP
takes the oldest refusal and shows it in the replay register; of an empty log it reads 0. -/
def Obligations.TimetableActs : Prop :=
 (∀ (s : State),
  (∀ q v (x : Fin 2), s.accepts q rTTB_CMD v → bitOf v x = true → bitOf v (1 - x : Fin 2) = false → s.rcState x = rcMaster →
    exec (.ttbDistribute q v) s = .next (s.finished ((s.distribute x (s.effectSlot x)).wrote q 0))) ∧
  (∀ (x : Fin 2) id n st effect no count crc data, let s1 := s.takeInbox x 0x17
    s1.enabled 0x38 = true → s1.flag rTTB_EXP fTTB_EXP_bank_write = false → s1.ttValid x = true → s1.get (rTTB_STATUS x) fTTB_STATUS_table_id = id →
    exec (.tableReceived x id n st effect no count crc data) s = .next (s.finished (if no + 1 = count then s1.readmitAll else s1))) ∧
  (∀ (x : Fin 2) id n st effect crc data, let s1 := s.takeInbox x 0x17
    s1.enabled 0x38 = true → s1.flag rTTB_EXP fTTB_EXP_bank_write = false → s1.ttValid x = false → (s1.ttb x).pend = none → (s1.ttb x).asm = none → effect < 2 ^ 20 →
    exec (.tableReceived x id n st effect 0 2 crc data) s = .next (s.finished
      ((s1.setTtb x { s1.ttb x with asm := some ⟨id, n, st, effect, 2, crc, [(0, data)]⟩, due := some effect }).showAsm x))) ∧
  (∀ (x : Fin 2) t, s.enabled 0x38 = true → (s.ttb x).pend = some t →
    exec (.tableEffect x) s = .next (s.finished (s.activate x t.id t.n))) ∧
  (∀ (x : Fin 2), s.enabled 0x38 = true → (s.ttb x).pend = none → (s.ttb x).due.isSome = true → (s.ttb x).asm.isSome = true →
    exec (.tableEffect x) s = .next (s.finished
      ((((((s.setTtb x { s.ttb x with due := none }).put (rTTB_STATUS x) fTTB_STATUS_valid 0).put (rTTB_STATUS x) fTTB_STATUS_missed 1).irq
        0x38 6).markReadmit x).ttbCause fTTB_FAULT_CAUSE_table_refused))) ∧
  (∀ (o : Fin 4) d rest, s.outbox o = d :: rest → let s1 := s.setOutbox o rest
    let e := s1.ent d.frame.flow
    let k := entSlot e
    let st := (s1.ttb (o.val / 2)).store (o.val % 2)
    let held := (st.filter (fun a => a.1 = d.frame.flow)).length
    let limit := ((sends ((s1.ctxList k).getD [])).filter (fun a => a.att = o.val / 2)).length
    (entState e ≠ 1 ∨ entEnabled e = false → exec (.class0Store o) s = .next (s.finished (s1.discardCells d.inp d.frame.cells))) ∧
    (entState e = 1 → entEnabled e = true → s1.ctxReadmit k = true → exec (.class0Store o) s = .next (s.finished (s1.inc (rTTB_CNT_READMIT_DROP (o.val / 2))))) ∧
    (entState e = 1 → entEnabled e = true → s1.ctxReadmit k = false → held < limit → exec (.class0Store o) s = .next (s.finished
      (s1.setStore (o.val / 2) (o.val % 2) (st ++ [(d.frame.flow, { frame := d.frame, tail := .clean, crc := d.frame.trailer })])))) ∧
    (entState e = 1 → entEnabled e = true → s1.ctxReadmit k = false → limit ≤ held →
      exec (.class0Store o) s = .next (s.finished ((s1.inc (rTTB_CNT_OVERRUN (o.val / 2))).cntCtx k 0x6C 1)))) ∧
  (∀ q v (x : Fin 2), s.accepts q rTTB_EXP_SWAP v → bitOf v x = true → bitOf v (1 - x : Fin 2) = false → s.flag rTTB_EXP fTTB_EXP_bank_write = true →
    let p := 2 ^ s.swapN x
    exec (.ttbExpSwap q v) s = .next (s.finished ((s.setTtb x { s.ttb x with swap := some ((s.slot / p + 1) * p % 2 ^ 20) }).wrote q 0)))) ∧
 (∀ (s : State) (q : Req),
  let a := (s.reg rTTB_MEM_ADDR).toNat % 2 ^ 19 / 4 * 4
  (∀ v, s.accepts q rTTB_MEM_DATA v → 0x50000 ≤ a → s.listInUse ((a - 0x50000) / 4) = false →
    exec (.ttbMemData q v) s = .next (s.finished ((s.setTtBytes a (leBytes 4 v.toNat)).wrote q 0)) ∧
    (s.setTtBytes a (leBytes 4 v.toNat)).ttWord a = v ∧
    ∀ b, (b < a ∨ a + 4 ≤ b) → (s.setTtBytes a (leBytes 4 v.toNat)).ttByte b = s.ttByte b) ∧
  (∀ v, s.accepts q rTTB_MEM_DATA v → a < 0x40000 → s.flag rTTB_EXP fTTB_EXP_bank_write = false →
    exec (.ttbMemData q v) s = .next (s.finished ((s.warn 0x39).wrote q 0))) ∧
  (∀ v mp, s.accepts q rTTB_MEM_DATA_INC v → exec (.ttbMemDataInc q (some v) mp) s = .next (s.finished ((s.ttWrite v).ttAdvance.wrote q 0))) ∧
  (∀ mp, s.allowsRead q rTTB_MEM_DATA_INC mp → exec (.ttbMemDataInc q none mp) s = .next (s.finished
    (s.ttAdvance.done q 0 (leBytes 4 s.ttWindow.toNat)))) ∧
  s.ttAdvance = s.setReg rTTB_MEM_ADDR (toW (((s.reg rTTB_MEM_ADDR).toNat + 4) % 2 ^ 19)) ∧
  (∀ mp w rest, s.allowsRead q rTTB_LOG_POP mp → s.ttbLog = w :: rest → exec (.ttbLogPop q mp) s = .next (s.finished
    ((({ s with ttbLog := rest } : State).setReg rTTB_LOG_REPLAY w).done q 0 (leBytes 4 w.toNat)))) ∧
  (∀ mp, s.allowsRead q rTTB_LOG_POP mp → s.ttbLog = [] → exec (.ttbLogPop q mp) s = .next (s.finished (s.done q 0 (leBytes 4 0)))))

/-- The slot-list rule R195: a write to an entry within the list of an enabled flow is ignored and sets PG_STATUS.config_warning of page 0x39, through
either data register. -/
def Obligations.ListOfEnabledFlowIsProtected : Prop := ∀ (s : State) (q : Req) (v : Word),
  let a := (s.reg rTTB_MEM_ADDR).toNat % 2 ^ 19 / 4 * 4
  0x50000 ≤ a → s.listInUse ((a - 0x50000) / 4) = true →
  (s.accepts q rTTB_MEM_DATA v → exec (.ttbMemData q v) s = .next (s.finished ((s.warn 0x39).wrote q 0))) ∧
  (s.accepts q rTTB_MEM_DATA_INC v →
    exec (.ttbMemDataInc q (some v) false) s = .next (s.finished ((s.warn 0x39).ttAdvance.wrote q 0))) ∧
  (s.warn 0x39).flag (rPG_STATUS 0x39) fPG_STATUS_config_warning = true ∧ (s.warn 0x39).ttm = s.ttm

/-- Time bases (R215 to R220, R232, R242). Bit 0 of TB_CMD latches the base and the island count into its snap registers and changes no base. Bit 1 asks
for a step: the first of a session waits for the next tick, a later one sets step_refused and the interrupt. Bit 0 of TB_SESSION opens a session. A
write of TB_RATE_HI sets the 48-bit increment. A source that falls silent clears source_valid of TB0, and where TB0 was locked it is so no more,
counted, with the interrupt and source 30. What a step and a tick's clocks do to a base (R215 to R219). A step moves the time by the signed value,
within the 48-bit seconds, and keeps fraction, increment and the island count. An increment is kept within 1,000 ppm and leaves the time and the
island count. While the time island runs, a tick adds the increment to fraction and nanoseconds of an enabled base, with the carry into the seconds,
and 4 to the island count; while it stands they stay. -/
def Obligations.TimeBasesStepAndTick : Prop :=
 (∀ (s : State) (q : Req) (b : Fin 4),
  (∀ v, s.accepts q (rTB_CMD b) v → bitOf v 0 = true → bitOf v 1 = false → let t := s.snap b
    exec (.tbSnap q b v) s = .next (s.finished (t.wrote q 0)) ∧ t.reg (rTB_SNAP_NS b) = toW (s.base b).ns ∧ t.reg (rTB_SNAP_SEC_LO b) = toW (s.base b).sec ∧
    t.reg (rTB_SNAP_SEC_HI b) = toW ((s.base b).sec / 2 ^ 32) ∧ t.reg (rTB_SNAP_IC_LO b) = toW s.servo.island ∧
    t.reg (rTB_SNAP_IC_HI b) = toW (s.servo.island / 2 ^ 32) ∧ t.bases = s.bases ∧ t.servo = s.servo) ∧
  (∀ v, s.accepts q (rTB_CMD b) v → bitOf v 0 = false → bitOf v 1 = true →
    (s.flag (rTB_STATUS b) fTB_STATUS_step_used = false → (s.base b).step = none →
      exec (.tbStep q b v) s = .next (s.finished ((s.setBase b { s.base b with step := some (s.stepValue b) }).wrote q 0))) ∧
    ((s.flag (rTB_STATUS b) fTB_STATUS_step_used = true ∨ (s.base b).step ≠ none) → exec (.tbStep q b v) s = .next (s.finished
      (((s.put (rTB_STATUS b) fTB_STATUS_step_refused 1).irq (0x40 + b) 3).wrote q 0)))) ∧
  (∀ v, s.accepts q (rTB_SESSION b) v → bitOf v 0 = true → exec (.tbSessionOpen q b v) s = .next (s.finished ((s.openSession b).wrote q 0))) ∧
  (∀ v, s.accepts q (rTB_RATE_HI b) v → exec (.tbRateWrite q b v) s = .next (s.finished
    ((s.setRate b ((v.toNat % 65536) * 2 ^ 32 + (s.reg (rTB_RATE_LO b)).toNat)).wrote q 0))) ∧
  (s.enabled 0x40 = true → s.isRoot = false →
    (s.locked = true → exec .sourceTimeout s = .next (s.finished
      (((((s.put (rTB_STATUS 0) fTB_STATUS_source_valid 0).setLocked false).inc (rTB_CNT_LOCK_LOST 0)).irq 0x40 5).raise 30))) ∧
    (s.locked = false → exec .sourceTimeout s = .next (s.finished (s.put (rTB_STATUS 0) fTB_STATUS_source_valid 0))))) ∧
 (∀ (s : State) (b : Fin 4),
  (∀ n : Int, 0 ≤ ((s.base b).total : Int) + n → ((s.base b).total : Int) + n < 2 ^ 48 * 1000000000 → let t := s.applyStep b n
    ((t.base b).total : Int) = (s.base b).total + n ∧ (t.base b).frac = (s.base b).frac ∧ (t.base b).inc = (s.base b).inc ∧
    t.servo.island = s.servo.island) ∧
  (∀ v, let t := s.setRate b v
    (t.base b).total = (s.base b).total ∧ 4393648464593 ≤ (t.base b).inc ∧ (t.base b).inc ≤ 4402444557615 ∧
    t.servo.island = s.servo.island) ∧
  (s.islandRuns = true → s.enabled (0x40 + b) = true → (s.base b).ns < 1000000000 → (s.base b).sec < 2 ^ 48 - 1 → (s.base b).frac < 2 ^ 40 →
    (s.base b).inc ≤ 4402444557615 → let t := s.clockTick.base b
    t.total * 2 ^ 40 + t.frac = (s.base b).total * 2 ^ 40 + (s.base b).frac + (s.base b).inc ∧ t.ns < 1000000000 ∧ t.frac < 2 ^ 40 ∧
    s.clockTick.servo.island = (s.servo.island + 4) % 2 ^ 64) ∧
  (s.islandRuns = false → s.clockTick.bases = s.bases ∧ s.clockTick.servo = s.servo))

/-- Time messages (R96, R225, R227, R229, R234, R235, R561). While no handover runs, the master of a ready ring presents a SYNC at FP14, and a bridge
that is not the master of its lower ring an UPLINK; during a handover the work is kept. Anise takes the oldest SYNC or UPLINK that the fabric has
delivered to it: one of another version is counted, one whose port has no link delay is held, and any other acts on the servo. So it takes the
oldest TUNNEL, which goes on by the management MAC. An orphan residence is dropped and counted. Event units and snaps (R44, R224, R238, R239, R241,
R243). Bit 0 of TSU_CMD latches the four bases and the island count. Arming a unit in compare mode whose time lies ahead leaves it armed and nothing
else. An armed unit fires when its base has reached its time, and not before. A selected edge is stamped into the FIFO of 64; within 20 ns of the
last it is counted as lost, and with the FIFO full too, with the interrupt and source 31. A read of TSU_CAP_POP takes the oldest item and shows it
in the high word and the replay registers; of an empty FIFO it reads 0. -/
def Obligations.TimeMessagesAndEventUnits : Prop :=
 (∀ (s : State) (x : Fin 2),
  (∀ me, s.nodeId x = some me → s.flag (rRCTL_STATUS x) fRCTL_STATUS_ring_ready = true → s.enabled 0x40 = true →
    s.flag (rTB_EXP 0) fTB_EXP_sync_off = false → s.flag rFWU_STATUS fFWU_STATUS_handover_active = false →
    let t : State := { s with servo := { s.servo with seq0 := (s.servo.seq0 + 1) % 65536 } }
    (s.rcState x = rcMaster → exec (.syncSend x) s = .next (s.finished
      (t.present 14 (mkFrame 7 1 0 0 0 (s.ringNo x * 256 + 255) me 0xF4F0 s.servo.seq0 (s.timePayload 1))))) ∧
    (s.rcState x ≠ rcMaster → s.isBridge = true → x = s.lowerAtt → exec (.syncSend x) s = .next (s.finished
      (t.present 14 (mkFrame 7 1 0 0 0 (s.ringNo x * 256 + s.get (rRCTL_MASTER x) fRCTL_MASTER_master_station) me 0xF4F0 s.servo.seq0 (s.timePayload 2)))))) ∧
  (s.flag rFWU_STATUS fFWU_STATUS_handover_active = true → s.boot.held.contains (0, x.val, 0) = false → exec (.syncSend x) s = .next (s.finished
    { s with boot := { s.boot with held := s.boot.held ++ [(0, x.val, 0)] } })) ∧
  (∀ (tunnel : Bool) (y p : Fin 2) (f : Frame) (d : Delivered) (ic tb : Nat) (sub : Fin 4),
    s.timeFrame tunnel y p f (if tunnel then none else some ic) = some d → d.rx = some (ic, tb) → d.discard = false →
    let t := s.setOutbox 14 ((s.outbox 14).erase d)
    let c := (nthD f.payload 0 0).toNat
    t.enabled 0x40 = true →
    let run := if tunnel then exec (.tunnelReceived y p f sub) s else exec (.timeMessageReceived y p f ic) s
    (nthD f.payload 1 0 ≠ 1 → run = .next (s.finished (t.inc (rTB_CNT_BAD 0)))) ∧
    (nthD f.payload 1 0 = 1 → 1 ≤ c → c ≤ 3 → t.linkDelay y p = none → run = .next (s.finished
      (t.setRc y { t.rc y with heldTime := (t.rc y).heldTime ++ [(p.val, f, ic, tb)] }))) ∧
    (nthD f.payload 1 0 = 1 → t.linkDelay y p ≠ none →
      (c = 1 ∨ c = 2 → run = .next (s.finished (t.actTime y p f tb))) ∧
      (c = 3 → tunnel = true → run = .next (s.finished (t.actTunnel y p f ic sub))))) ∧
  (∀ seq r, s.servo.residences.find? (fun r => r.seq = seq) = some r → exec (.tcOrphanTimeout seq) s = .next (s.finished
    (({ s with servo := { s.servo with residences := s.servo.residences.erase r } } : State).inc rTSU_CNT_TC_ORPHAN)))) ∧
 (∀ (s : State),
  (∀ q v, s.accepts q rTSU_CMD v → bitOf v 0 = true → exec (.tsuSnapAll q v) s = .next (s.finished
    (((((((s.snap 0).snap 1).snap 2).snap 3).setReg rTSU_IC_LO (toW s.servo.island)).setReg rTSU_IC_HI (toW (s.servo.island / 2 ^ 32))).wrote q 0))) ∧
  (∀ q (u : Fin 16), s.accepts q rTSU_ARM (toW (2 ^ u.val)) → s.get (rTSU_EVT_CFG u) fTSU_EVT_CFG_mode = 2 → (s.base (s.unitBase u)).total < s.compareTime u →
    exec (.tsuArm q (toW (2 ^ u.val))) s = .next (s.finished ((s.put (rTSU_EVT_STATUS u) fTSU_EVT_STATUS_armed 1).wrote q 0))) ∧
  (∀ u : Fin 16, s.islandRuns = true → s.comparing u = true → let now := (s.base (s.unitBase u)).total
    (s.compareTime u ≤ now → exec (.eventCompare u) s = .next (s.finished (s.fireUnit u now (s.servo.lateUnits.contains u.val)))) ∧
    (now < s.compareTime u → exec (.eventCompare u) s = .next (s.finished s))) ∧
  (∀ (u : Fin 16) (rising : Bool) (sub : Fin 4), s.enabled 0x44 = true → s.islandRuns = true → s.armed 0x44 1 = none → s.eventPin u = true →
    s.get (rTSU_EVT_CFG u) fTSU_EVT_CFG_mode = 1 →
    (s.get (rTSU_EVT_CFG u) fTSU_EVT_CFG_edge).testBit (if s.pinEdge u rising then 0 else 1) = true →
    let last := spGet (fun _ => 0) s.servo.edgeAt u
    let near := last ≠ 0 ∧ s.servo.island + sub + 1 < last + 20
    (near → exec (.eventCapture u rising sub) s = .next (s.finished (s.incSat rTSU_CAP_STATUS fTSU_CAP_STATUS_lost))) ∧
    (¬ near → s.servo.cap.length < 64 → exec (.eventCapture u rising sub) s = .next (s.finished
      (({ s with servo := { s.servo with
            cap := s.servo.cap ++ [captureItem u (s.unitBase u) ((s.base (s.unitBase u)).total + sub) (s.pinEdge u rising) s.servo.capLost],
            capLost := false, edgeAt := spSet (fun _ => 0) s.servo.edgeAt u (s.servo.island + sub + 1) } } : State).irq 0x44 2))) ∧
    (¬ near → 64 ≤ s.servo.cap.length → exec (.eventCapture u rising sub) s = .next (s.finished
      (((({ s with servo := { s.servo with capLost := true } } : State).incSat rTSU_CAP_STATUS fTSU_CAP_STATUS_lost).irq 0x44 3).raise 31)))) ∧
  (∀ q mp wide n l, s.allowsRead q rTSU_CAP_POP mp → s.servo.cap = n :: l → exec (.tsuCapPop q mp wide) s = .next (s.finished
    ((((({ s with servo := { s.servo with cap := l } } : State).setReg rTSU_CAP_POP_HI (toW (n / 2 ^ 32))).setReg rTSU_CAP_REPLAY (toW n)).setReg
      rTSU_CAP_REPLAY_HI (toW (n / 2 ^ 32))).done q 0 (leBytes (if wide then 8 else 4) n)))) ∧
  (∀ q mp wide, s.allowsRead q rTSU_CAP_POP mp → s.servo.cap = [] →
    exec (.tsuCapPop q mp wide) s = .next (s.finished (s.done q 0 (leBytes (if wide then 8 else 4) 0)))))

/-- Levels, barriers and the fault capture (R284, R293, R309). A write of XLT_LEVEL sets each field that is at or below its port's strap level, and of
another keeps the value and sets config_warning. A write of XLT_BARRIER drops the cached translations in its scope (all, a space, a page of a
space), waits behind those before it, and answers nothing yet; BARRIER_COMPLETE completes the oldest, with PG_IRQ_STAT bit 2, and the last one ends
barrier_busy. One that is slow sets barrier_slow and the interrupt and raises source 52. Bit 0 of XLT_FCAP_CMD clears the capture. Translation (R288
to R290). While the unit is disabled or the space has no good root every access fails with cause 1 and changes nothing. An access that passes every
check is at the page that the entry names with the address's own low 12 bits; a read needs the entry's read bit, a write its write bit, a fetch its
fetch bit, and a page for the Warden his level. No translation changes memory. -/
def Obligations.LevelsBarriersAndTranslation : Prop :=
 (∀ (s : State) (q : Req),
  (∀ v, s.accepts q rXLT_LEVEL v → let a := fldOf v fXLT_LEVEL_host_a; let b := fldOf v fXLT_LEVEL_host_b
    (a ≤ s.strapLevel 0 → b ≤ s.strapLevel 1 →
      exec (.levelWrite q v) s = .next (s.finished (((s.put rXLT_LEVEL fXLT_LEVEL_host_a a).put rXLT_LEVEL fXLT_LEVEL_host_b b).wrote q 0))) ∧
    (s.strapLevel 0 < a → b ≤ s.strapLevel 1 →
      exec (.levelWrite q v) s = .next (s.finished (((s.warn 0x08).put rXLT_LEVEL fXLT_LEVEL_host_b b).wrote q 0))) ∧
    (a ≤ s.strapLevel 0 → s.strapLevel 1 < b →
      exec (.levelWrite q v) s = .next (s.finished (((s.put rXLT_LEVEL fXLT_LEVEL_host_a a).warn 0x08).wrote q 0))) ∧
    (s.strapLevel 0 < a → s.strapLevel 1 < b → exec (.levelWrite q v) s = .next (s.finished (((s.warn 0x08).warn 0x08).wrote q 0)))) ∧
  (∀ v keep, s.accepts q rXLT_BARRIER v →
    (fldOf v fXLT_BARRIER_scope = 1 ∧ keep = [] ∨
     fldOf v fXLT_BARRIER_scope = 2 ∧ keep = s.tlb.filter (fun e => e.space != fldOf v fXLT_BARRIER_space) ∨
     fldOf v fXLT_BARRIER_scope = 3 ∧ keep = s.tlb.filter (fun e => e.space != fldOf v fXLT_BARRIER_space || e.page != fldOf v fXLT_BARRIER_page)) →
    exec (.barrier q v) s = .next (s.finished
      ((({ s with tlb := keep, barriers := s.barriers ++ [.done q] } : State).put rXLT_STATUS fXLT_STATUS_barrier_busy 1).hostWrote q))) ∧
  (s.barriers = [.done q] → exec .barrierComplete s = .next (s.finished
    (((({ s with barriers := [] } : State).irq 0x08 2).put rXLT_STATUS fXLT_STATUS_barrier_busy 0).done q 0))) ∧
  (∀ c rest, s.barriers = .done q :: c :: rest →
    exec .barrierComplete s = .next (s.finished ((({ s with barriers := c :: rest } : State).irq 0x08 2).done q 0))) ∧
  (s.barriers ≠ [] → exec .barrierSlow s = .next (s.finished
    (((s.put rXLT_STATUS fXLT_STATUS_barrier_slow 1).irq 0x08 3).raise 52))) ∧
  (∀ v, s.accepts q rXLT_FCAP_CMD v → bitOf v 0 = true → exec (.xltFcapCmd q v) s = .next (s.finished
    ((((s.setReg rXLT_FCAP_INFO 0).setReg rXLT_FCAP_ADDR 0).setReg rXLT_FCAP_NODE 0).wrote q 0)))) ∧
 (∀ (s : State) (m : Nat) (l : Level) (a : Nat) (x : Xfer) (bus : Nat),
  (s.enabled 0x08 = false ∨ s.rootOk (s.spaceOf m) = false → s.translate m l a x bus = (⟨1, 0, 0, false⟩, s)) ∧
  ((s.translate m l a x bus).1.cause = 0 → let e := (s.pageEntry (s.spaceOf m) a).1
    e.1 = 0 ∧ (s.translate m l a x bus).1.out = (e.2.2.toNat * 2 ^ 32 + e.2.1.toNat) / 4096 * 4096 + a % 4096 ∧
    (x = .write → bitOf e.2.1 5 = true) ∧ (x = .read → bitOf e.2.1 4 = true) ∧ (x = .fetch → bitOf e.2.1 6 = true) ∧
    (natBits e.2.1.toNat 9 8 = 2 → l = .warden)) ∧
  (s.translate m l a x bus).2.mem = s.mem)

/-- Channels are allocated, freed and commanded (R295, R296, R301, R302, R311). A read of DMAA_ALLOC gives the lowest channel that is free and that the
reader may hold, records its owner and makes it IDLE; with none it reads 0, is counted and sets the interrupt. The owner or the Warden frees a
channel that is IDLE or STOPPED; another requester below the Warden gets claim_refused. Start takes an IDLE channel to RUN at its first descriptor,
or to RECEIVE when it receives and is bound; resume takes a FAULTED channel back to RUN, or to RECEIVE, where the frames that wait retry their
buffer (R306); abort of one ends its work and stops it; stop of a channel in RUN makes it IDLE when no descriptor is in progress, and else waits for
the descriptor's end. Steps of a channel in RUN with no write-back held up (R297, R298, R300, R301). A descriptor that is not aligned to 32 octets
completes with status 5. A translation fault of the fetch takes the channel to FAULTED. A burst of a started copy takes the octets up to the end of
the 64-octet line of the destination, of the transfer at most; read, translated and written with status 0 it advances the current registers by as
many, read with another status it completes the descriptor with status 3. -/
def Obligations.ChannelsAreCommandedAndStep : Prop :=
 (∀ (s : State) (q : Req) (c : Fin 16),
  let mayHold (k : Fin 16) : Prop := s.chState k = 0 ∧ (s.levelOf q = .warden ∨ bitOf (s.reg rDMAA_CFG) k = false)
  (∀ mp, s.allowsRead q rDMAA_ALLOC mp → (∀ k : Fin 16, k < c → ¬ mayHold k) → mayHold c →
    let t := s.setReg (rDMAA_OWNER c) (toW ((if q.master = 0x30 then q.node * 2 ^ 14 + q.att % 2 * 2 ^ 8 else 0) + q.master))
    exec (.dmaaAlloc q mp) s = .next (s.finished
      ((((t.put (rDMA_STATE c) fDMA_STATE_owner q.master).setChState c 1).setReg rDMAA_ALLOC_REPLAY (toW (2 ^ 31 + c))).done q 0 (leBytes 4 (2 ^ 31 + c))))) ∧
  (∀ mp, s.allowsRead q rDMAA_ALLOC mp → (∀ k : Fin 16, ¬ mayHold k) → exec (.dmaaAlloc q mp) s = .next (s.finished
    (((s.inc rDMAA_CNT_NONE).irq 0x60 2).done q 0 (leBytes 4 0)))) ∧
  (∀ v, v.toNat % 16 = c.val → bitOf v 31 = false → s.accepts q rDMAA_FREE v → (s.levelOf q = .warden ∨ s.dmaOwns c q = true) → s.chState c = 1 ∨ s.chState c = 4 →
    exec (.dmaaFree q v) s = .next (s.finished ((s.dmaFree c false).wrote q 0))) ∧
  (∀ v, v.toNat % 16 = c.val → s.accepts q rDMAA_FREE v → s.levelOf q ≠ .warden → s.dmaOwns c q = false →
    exec (.dmaaFree q v) s = .next (s.finished ((s.refuse 0x60 fPG_STATUS_claim_refused).wrote q 0))) ∧
  (∀ v, s.accepts q (rDMA_CMD c) v → v.toNat % 16 = 1 → s.chState c = 1 →
    (s.flag (rDMA_CTRL c) fDMA_CTRL_rx = false → exec (.dmaStart q c v) s = .next (s.finished ((((s.setDma c { s.dma c with
      rx := false, desc := [], started := false, gather := [], ending := none, stopReq := false, busy := false }).setReg (rDMA_CUR_DESC c)
        (s.reg (rDMA_DESC c))).setChState c 2).wrote q 0))) ∧
    (s.flag (rDMA_CTRL c) fDMA_CTRL_rx = true → (s.binding c).isSome = true →
      exec (.dmaStart q c v) s = .next (s.finished (((s.setDma c { s.dma c with rx := true }).setChState c 5).wrote q 0)))) ∧
  (∀ v, s.accepts q (rDMA_CMD c) v → v.toNat % 16 = 2 → s.chState c = 3 → let rx := s.flag (rDMA_CTRL c) fDMA_CTRL_rx
    let t := (s.setDma c { s.dma c with rx := rx }).setChState c (if rx then 5 else 2)
    exec (.dmaResume q c v) s = .next (s.finished ((if rx then t.rxResume c else t).wrote q 0))) ∧
  (∀ v, s.accepts q (rDMA_CMD c) v → v.toNat % 16 = 4 → s.chState c = 3 → let t := s.dmaHalt c
    exec (.dmaAbort q c v) s = .next (s.finished (((t.setDma c { t.dma c with rx := false }).dmaStopped c).wrote q 0))) ∧
  (∀ v, s.accepts q (rDMA_CMD c) v → v.toNat % 16 = 8 → s.chState c = 2 →
    ((s.dma c).desc = [] → exec (.dmaStop q c v) s = .next (s.finished ((s.setChState c 1).wrote q 0))) ∧
    ((s.dma c).desc ≠ [] → exec (.dmaStop q c v) s = .next (s.finished ((s.setDma c { s.dma c with stopReq := true }).wrote q 0))))) ∧
 (∀ (s : State) (c : Fin 16) (host : List (Nat × Byte)),
  s.enabled (0x50 + c) = true → s.chState c = 2 → (s.dma c).ending = none →
  ((s.dma c).desc = [] → (s.reg (rDMA_CUR_DESC c)).toNat % 32 ≠ 0 → exec (.dmaBurst c host) s = .next (s.finished
    (((s.setCur c 0 0 0).setDma c { s.dma c with desc := List.replicate 8 0 }).dmaComplete c 5 0))) ∧
  (∀ cause fa l t, (s.dma c).desc = [] → let a := (s.reg (rDMA_CUR_DESC c)).toNat
    a % 32 = 0 → s.xlate c a 32 .fetch = ((some (cause, fa), l), t) → exec (.dmaBurst c host) s = .next (s.finished (t.dmaFault c cause fa))) ∧
  ((s.dma c).desc ≠ [] → (s.dma c).started = true → natBits ((s.dma c).word 0) 31 28 = 0 → (s.dma c).busy = false → (s.dma c).result = none →
    let n := min (s.curLeft c) (64 - s.curDst c % 64)
    (∀ bs t ps u v, s.burstRead c (s.curSrc c) n ((s.dma c).word 2) host = (some (0, bs), t) →
      t.burstDest c (t.curDst c) n ((s.dma c).word 4) = (some ps, u) → u.copyWrite c ps bs = (some 0, v) →
      exec (.dmaBurst c host) s = .next (s.finished (v.dmaAdvance c n))) ∧
    (∀ st bs t, st ≠ 0 → s.burstRead c (s.curSrc c) n ((s.dma c).word 2) host = (some (st, bs), t) →
      exec (.dmaBurst c host) s = .next (s.finished (t.dmaComplete c 3 st)))))

/-- Receive descriptors, the overflow reserve and delivered frames (R44, R211, R304, R305, R307). A tail that would overfill the ring stores nothing and
sets config_warning; another is stored, and a frame that waits for buffers goes on. A reserve buffer is kept while fewer than 32 places are taken,
and else sets config_warning. A read of DMA_RSV_POP takes the oldest item and shows it in the high word and the replay registers. A flow's frame
delivered at FP4, FP5, FP6 or FP14 goes to its queue, and then the frames that wait there. A stall with no buffer given ends the waiting frame as
truncated, counted and with the interrupt; with a buffer in the ring it does nothing. -/
def Obligations.ReceiveQueuesAct : Prop := ∀ (s : State) (q : Req) (c : Fin 16),
  (∀ v, s.accepts q (rDMA_RX_TAIL c) v → let t := v.toNat % 65536
    let n := (t + 65536 - s.get (rDMA_RX_HEAD c) fDMA_RX_HEAD_head) % 65536
    let ring := 2 ^ s.get (rDMA_RX_CFG c) fDMA_RX_CFG_ring_k
    (n ≤ ring → exec (.rxTailWrite q c v) s = .next (s.finished (((s.put (rDMA_RX_TAIL c) fDMA_RX_TAIL_tail t).rxResume c).wrote q 0))) ∧
    (ring < n → exec (.rxTailWrite q c v) s = .next (s.finished ((s.warn (0x50 + c)).wrote q 0)))) ∧
  (∀ v, s.accepts q (rDMA_RSV_PUSH c) v →
    ((s.dma c).rsv.length + (s.dma c).fifo.length < 32 →
      exec (.rsvPush q c v) s = .next (s.finished ((s.setDma c { s.dma c with rsv := (s.dma c).rsv ++ [v.toNat] }).wrote q 0))) ∧
    (32 ≤ (s.dma c).rsv.length + (s.dma c).fifo.length → exec (.rsvPush q c v) s = .next (s.finished ((s.warn (0x50 + c)).wrote q 0)))) ∧
  (∀ mp wide i rest, s.allowsRead q (rDMA_RSV_POP c) mp → (s.dma c).fifo = i :: rest → exec (.rsvPop q c mp wide) s = .next (s.finished
    (((((s.setDma c { s.dma c with fifo := rest }).setReg (rDMA_RSV_POP_HI c) (toW (i / 2 ^ 32))).setReg (rDMA_RSV_REPLAY c) (toW i)).setReg
      (rDMA_RSV_REPLAY_HI c) (toW (i / 2 ^ 32))).done q 0 (leBytes (if wide then 8 else 4) i)))) ∧
  (∀ (o : Fin 16) host d rest, s.outbox o = d :: rest → d.frame.kind = 0 → o = 4 ∨ o = 5 ∨ o = 6 ∨ o = 14 →
    exec (.rxFrameWrite o host) s = .next (s.finished (((s.setOutbox o rest).rxFrame o host d).rxPumpPort o host))) ∧
  (s.enabled (0x50 + c) = true →
    (∀ o rest, (s.dma c).open_ = o :: rest → (s.chState c ≠ 5 ∨ s.get (rDMA_RX_HEAD c) fDMA_RX_HEAD_head = s.get (rDMA_RX_TAIL c) fDMA_RX_TAIL_tail) →
      let head := if s.flag (rDMA_RX_CFG c) fDMA_RX_CFG_header then 0 else 24
      let t := (s.setDma c { s.dma c with open_ := rest }).discardCells o.d.orig (o.d.frame.cells - (o.pos + head) / 128)
      exec (.rxStallExpire c) s = .next (s.finished ((((t.inc (rDMA_CNT_STALL c)).irq (0x50 + c) 7).rxFinish c o 1).rxPump 16 c []))) ∧
    (s.chState c = 5 → s.get (rDMA_RX_HEAD c) fDMA_RX_HEAD_head ≠ s.get (rDMA_RX_TAIL c) fDMA_RX_TAIL_tail →
      exec (.rxStallExpire c) s = .next (s.finished s)))

/-- R304: a frame for a queue that has no channel in RECEIVE or FAULTED is discarded whole, counted in its flow's cnt_lost and in DMAA_CNT_UNBOUND, with
fault source 55, and as a loss with source 12 when it is of class 0. -/
def Obligations.FrameForNoChannel : Prop := ∀ (s : State) (o : Fin 16) (host : List (Nat × Byte)) (d : Delivered) (rest : List Delivered),
  o = 4 ∨ o = 5 ∨ o = 6 ∨ o = 14 → s.outbox o = d :: rest → d.frame.kind = 0 → let u := s.setOutbox o rest
  let queue := (d.held.map HeldCtx.queue).getD 0
  (∀ c : Fin 16, u.enabled (0x50 + c) = true → u.binding c = some (o.val, queue) → u.chState c ≠ 5 ∧ (u.chState c = 3 → (u.dma c).rx = false)) →
  let t := (((u.flowCount d.frame 0x68).inc rDMAA_CNT_UNBOUND).fault { source := 55, page := 0x60 })
  (d.frame.cls ≠ 0 → exec (.rxFrameWrite o host) s = .next (s.finished (t.rxPumpPort o host))) ∧
  (d.frame.cls = 0 → exec (.rxFrameWrite o host) s = .next (s.finished
    (((((t.inc rTTB_CNT_LOST0).ttbCause fTTB_FAULT_CAUSE_class0_lost).raise 12).irq 0x38 5).rxPumpPort o host)))

/-- PCI Express at a host port in that mode whose island runs (R245 to R248, R279). In BAR0 a read or write of an aligned DWORD or two with all byte
enables goes to the register pages, in the order of the port's requests to its hub; a read of another form completes with status 3, a write of one
is logged with it. A read through a window of BAR2 that is off completes with status 1. Unmasking a pending vector clears its PBA bit, and sends the
message where its request is 1. A link that leaves DL_Active shows its state and rate with block_status 0, and raises source 34 or 35. Quad-SPI
commands at a port in that mode whose island runs (R36, R249 to R253). A damaged frame of any of the eight is answered with the CRC flag and raises
source 32 or 33; so is a sound one while checker 2 of the port's page is armed, which injects it and disarms. Of the others, one of the six that act
is refused while a command is pending. With none pending a local read or write whose octets lie within a 128-octet line goes to this hub and is
answered as soon as it has ended, and one of another length completes with status 3. A fabric read above the fabric's 2^50 addresses completes with
status 1 and raises source 48; of another, with HBx_QATTR enabled and the octets within a line, the read goes out on its class. Command 0x07 reads
the result and 0x08 the pending vectors. Quad-SPI fabric writes and atomics (R249, R250, R254, R264), with no command pending, no checker armed,
HBx_QATTR enabled and the octets within a 128-octet line: an atomic of a form that R245 knows and a non-posted write go out on the read class and
are answered later, a posted write goes out on the write class and is answered with status 0. -/
def Obligations.HostPortsActOnRequests : Prop :=
 (∀ (s : State) (h : Fin 2) (id off : Nat), s.get (rHBx_CFG h) fHBx_CFG_mode = 0 →
  (s.fieldRuns = true → off < 0x100000 →
    (∀ n, pageShape off n = true → exec (.pcieRequest h id 0 off (.read n) true) s = .next (s.finished
      ((s.openParts h id 1).hereRead h (0x10000000 + off) n 31 false (.host h id 0)))) ∧
    (∀ n full, (full = false ∨ pageShape off n = false) → exec (.pcieRequest h id 0 off (.read n) full) s = .next (s.finished (s.pcieStop h id 3 31))) ∧
    (∀ bs, pageShape off bs.length = true → exec (.pcieRequest h id 0 off (.write bs) true) s = .next (s.finished
      ((s.bufferDrop h).hereWrite h (0x10000000 + off) bs 31 false (.posted h (0x3FFFF * 2 ^ 32 + (0x10000000 + off)) 31)))) ∧
    (∀ bs full, (full = false ∨ pageShape off bs.length = false) → exec (.pcieRequest h id 0 off (.write bs) full) s = .next (s.finished
      ((s.bufferDrop h).pweBare h 0 3 0 (0x3FFFF * 2 ^ 32 + (0x10000000 + off)) 31)))) ∧
  (∀ n full, s.fieldRuns = true → off < 2 ^ 26 → s.flag (rHBx_WIN_ATTR h (off / 2 ^ 22)) fHBx_WIN_ATTR_enable = false →
    exec (.pcieRequest h id 1 off (.read n) full) s = .next (s.finished (s.pcieStop h id 1 (off / 2 ^ 22)))) ∧
  (∀ q (n : Fin 32) v, let w := fldPut v fHBx_MSIX_CTRL_mask 0
    let a := rHBx_MSIX_CTRL h n
    let t := s.store a w
    s.accepts q a w → s.flag a fHBx_MSIX_CTRL_mask = true → bitOf (t.reg (rHBx_MSIX_PBA h)) n = true →
    let u := t.setReg (rHBx_MSIX_PBA h) (toW (natPut (t.reg (rHBx_MSIX_PBA h)).toNat n n 0))
    t.flag a fHBx_MSIX_CTRL_mask = false → u.pcieOn h = true →
    ((u.vectors h).contains n.val = true → exec (.msixUnmask q h n v) s = .next (s.finished ((u.emit (.msix h n)).wrote q 0))) ∧
    ((u.vectors h).contains n.val = false → exec (.msixUnmask q h n v) s = .next (s.finished (u.wrote q 0)))) ∧
  (∀ (l : Fin 6) g, (s.get (rPG_STATUS (0x68 + h)) fPG_STATUS_block_status).testBit 0 = true → s.enabled (0x68 + h) = true →
    let t := (s.setReg (rHBx_STATUS h) (toW (b2n g * 16 + l))).put (rPG_STATUS (0x68 + h)) fPG_STATUS_block_status 0
    t.enabled (0x68 + h) = true → exec (.pcieLinkChange h l g false) s = .next (s.finished (t.raise (34 + h) (0x68 + h))))) ∧
 (∀ (s : State) (h : Fin 2), s.get (rHBx_CFG h) fHBx_CFG_mode = 1 → s.pwr.level < 2 →
  (∀ a n l op x y bad late, (bad = true ∨ s.armed (0x68 + h) 2 ≠ none) → ∀ c ∈ [Instr.qspiLocalRead h bad late a n, .qspiLocalWrite h bad late a l, .qspiFabricRead h bad a n,
      .qspiFabricPostedWrite h bad a l, .qspiFabricNonpostedWrite h bad a l, .qspiFabricAtomic h bad a op n x y, .qspiResult h bad, .qspiInterruptStatus h bad],
    (s.armed (0x68 + h) 2 = none → exec c s = .next (s.finished ((s.raise (32 + h) (0x68 + h)).qspiReply h false 0 [] true))) ∧
    (s.armed (0x68 + h) 2 ≠ none → exec c s = .next (s.finished
      ((((s.disarm (0x68 + h)).raiseInj (32 + h) (0x68 + h))).qspiReply h false 0 [] true)))) ∧
  (s.armed (0x68 + h) 2 = none →
    ((s.br h).busy = true → ∀ a n l op x y late,
      (∀ c ∈ [Instr.qspiLocalRead h false late a n, .qspiLocalWrite h false late a l], exec c s = .next (s.finished (s.qspiRefuse h 31))) ∧
      (∀ c ∈ [Instr.qspiFabricRead h false a n, .qspiFabricPostedWrite h false a l, .qspiFabricNonpostedWrite h false a l, .qspiFabricAtomic h false a op n x y],
        exec c s = .next (s.finished (s.qspiRefuse h 16)))) ∧
    ((s.br h).busy = false → let t := s.qspiStart h
      (∀ a n late, (qspiLen a n = true →
          exec (.qspiLocalRead h false late a n) s = .next (s.finished ((t.hereRead h a n 31 false (.qspi h)).qspiAnswer h late))) ∧
        (qspiLen a n = false →
          exec (.qspiLocalRead h false late a n) s = .next (s.finished (((t.npBare h 3 0 31).complete (.qspi h) 3 0 []).qspiAnswer h late)))) ∧
      (∀ a l late, (qspiLen a l.length = true →
          exec (.qspiLocalWrite h false late a l) s = .next (s.finished (((t.bufferDrop h).hereWrite h a l 31 true (.qspi h)).qspiAnswer h late))) ∧
        (qspiLen a l.length = false → exec (.qspiLocalWrite h false late a l) s = .next (s.finished
          ((((t.bufferDrop h).npBare h 3 0 31).complete (.qspi h) 3 0 []).qspiAnswer h late)))) ∧
      (∀ fab n, 2 ^ 50 ≤ fab → exec (.qspiFabricRead h false fab n) s = .next (s.finished
        ((((t.fault (accessEv 48 0xFFF (hostReq h) 1 n fab)).npBare h 1 0 16).complete (.qspi h) 1 0 []).qspiReply h false 0 []))) ∧
      (∀ fab n, fab < 2 ^ 50 → t.flag (rHBx_QATTR h) fHBx_QATTR_enable = true → qspiLen (fab % 128) n = true →
        exec (.qspiFabricRead h false fab n) s = .next (s.finished ((t.hostRead h (fab / 2 ^ 32) (fab % 2 ^ 32) n 16
          (reqClass (t.get (rHBx_QATTR h) fHBx_QATTR_rclass)) false (.qspi h)).qspiReply h false 0 [])))) ∧
    (∀ st sub data, (s.br h).busy = false → (s.br h).result = some (st, sub, data) →
      exec (.qspiResult h false) s = .next (s.finished (s.qspiReply h true st data))) ∧
    exec (.qspiInterruptStatus h false) s = .next (s.finished (s.qspiReply h true 0 (leBytes 4 (s.pba h).toNat))))) ∧
 (∀ (s : State) (h : Fin 2) (fab : Nat), s.get (rHBx_CFG h) fHBx_CFG_mode = 1 → s.pwr.level < 2 →
  s.armed (0x68 + h) 2 = none → (s.br h).busy = false → fab < 2 ^ 50 →
  let t := (s.bufferDrop h).qspiStart h
  let u := (s.setBr h { s.br h with result := none }).bufferDrop h
  t.flag (rHBx_QATTR h) fHBx_QATTR_enable = true →
  (∀ op len x y, qspiLen (fab % 128) len = true → atomicForm op len = true →
    exec (.qspiFabricAtomic h false fab op len x y) s = .next (s.finished ((t.hostAtomic h (fab / 2 ^ 32) (fab % 2 ^ 32) len op x y 16
      (reqClass (t.get (rHBx_QATTR h) fHBx_QATTR_rclass)) (.qspi h)).qspiReply h false 0 []))) ∧
  (∀ l, qspiLen (fab % 128) l.length = true →
    exec (.qspiFabricNonpostedWrite h false fab l) s = .next (s.finished ((t.hostWrite h (fab / 2 ^ 32) (fab % 2 ^ 32) l 16
      (reqClass (t.get (rHBx_QATTR h) fHBx_QATTR_rclass)) false (.qspi h)).qspiReply h false 0 []))) ∧
  (∀ l, qspiLen (fab % 128) l.length = true → u.flag (rHBx_QATTR h) fHBx_QATTR_enable = true →
    exec (.qspiFabricPostedWrite h false fab l) s = .next (s.finished (((u.hostWrite h (fab / 2 ^ 32) (fab % 2 ^ 32) l 16
      (reqClass (u.get (rHBx_QATTR h) fHBx_QATTR_wclass)) true (.posted h (fab / 2 ^ 32 * 2 ^ 32 + fab % 2 ^ 32) 16)).qspiDone h 0 0 []).qspiReply h true 0 []))))

/-- Responses and notices at a bridge (R256, R258, R261, R262, R266, R267). The first response frame of a bridge at an endpoint port is taken from it. A
response to a tag in use with status 0 and the length asked ends the request with its data; one with another status ends it too and, at a host port,
records the failure. One to a tag that is not in use is a duplicate, counted and discarded, where the tag was issued, and raises source 41
otherwise. An ack lowers what is in flight to its sender. A request whose response is late is sent again while it has retries left, counted at a
host port; then it ends with status 7 and subcode 3, source 38 raised. Unconfirmed writes of a node become one log entry with their count (status,
address bits and tag are free values). An entry with nothing in flight ages; the oldest read buffer entry is dropped. The target engine (R256, R259
to R261, R265, R266). While input FP6 takes frames and nothing waits, the first request at an endpoint port that may be performed is, and leaves the
port. A sound read that needs no entry of the response cache answers with what the access gives, a sound write counts or answers with its status,
both once the access has ended; a request that is locked without holding bridge_sem ends with status 7 and subcode 4; a retry that the cache holds
answered is counted and answered from it. A request that waited order_wait is performed, counted and raises source 42. The ack of a source's posted
writes is sent when it is due. A cache entry loses its protection. -/
def Obligations.BridgeAndTargetEngine : Prop :=
 (∀ (s : State) (p : Fin 3),
  (∀ d b, (s.outbox (4 + p)).find? (fun d => d.frame.kind = 4 && (flowBridge d.frame.flow).isSome) = some d → d.discard = false →
    flowBridge d.frame.flow = some b →
    exec (.responseReceived p) s = .next (s.finished ((s.setOutbox (4 + p) ((s.outbox (4 + p)).erase d)).takeResponse b d.frame))) ∧
  (∀ (b : Fin 2) f, 16 ≤ f.payload.length → let tag := beNat (slice f.payload 0 2)
    (s.br b).outst.find? (fun e => e.tag = tag) = none →
    (spGet (fun _ => false) (s.br b).issued tag = true → s.takeResponse b f = s.inc (rHBx_CNT_DUP_RSP b)) ∧
    (spGet (fun _ => false) (s.br b).issued tag = false → s.takeResponse b f = s.raise 41 (0x68 + b))) ∧
  (∀ (b : Nat) f r, (s.br b).outst.find? (fun e => e.tag = beNat (slice f.payload 0 2)) = some r → r.pf = false →
    let n := (nthD f.payload 8 0).toNat
    let u := s.setBr b { s.br b with outst := (s.br b).outst.filter (fun e => e.tag != r.tag) }
    let data := slice f.payload 16 n
    16 ≤ f.payload.length →
    ((nthD f.payload 2 0).toNat = 0 → n = (if r.kind = 3 then r.len else 0) → data.length = n →
      s.takeResponse b f = (u.complete r.cont 0 0 data (beNat (slice f.payload 4 2))).pump b) ∧
    (∀ st sub, (nthD f.payload 2 0).toNat = sub * 16 + st → 0 < st → st < 16 → b < 2 → r.cont ≠ .drop → (r.kind ≠ 2 ∨ r.lock = none) →
      s.takeResponse b f = ((u.npFail b st sub r.win r.tag).complete r.cont st sub data (beNat (slice f.payload 4 2))).pump b)) ∧
  (∀ d b, (s.outbox (4 + p)).find? (fun d => d.frame.kind = 5 && !isAckRequest d.frame && (flowBridge d.frame.flow).isSome) = some d → d.discard = false →
    flowBridge d.frame.flow = some b → 16 ≤ d.frame.payload.length → (nthD d.frame.payload 0 0).toNat = 2 →
    exec (.postedNoticeReceived p) s = .next (s.finished
      (((s.setOutbox (4 + p) ((s.outbox (4 + p)).erase d)).confirm b d.frame.src (beNat (slice d.frame.payload 8 4))).pump b))) ∧
  (∀ (b : Fin 18) (tag : Fin 65536) r, (s.br b).outst.find? (fun e => e.tag = tag.val) = some r →
    let lim := if b.val < 2 then s.get (rHBx_RETRY b) fHBx_RETRY_retries else s.get (rDMA_EXP (b - 2)) fDMA_EXP_retries
    let t := s.setBr b { s.br b with outst := (s.br b).outst.map (fun e => if e.tag = tag.val then { r with retry := r.retry + 1 } else e) }
    (r.retry < lim → exec (.requestRetry b tag) s = .next (s.finished
      ((if b.val < 2 then t.inc (rHBx_CNT_RETRY b) else t).npFrame b { r with retry := r.retry + 1 }))) ∧
    (lim ≤ r.retry → exec (.requestRetry b tag) s = .next (s.finished
      ((s.step1.raise 38 (brPage b)).npAnswer b r 7 3 0 (s.freeN % 65536) [])))) ∧
  (∀ (h : Fin 2) node e, (s.br h).pdt.find? (fun e => e.node = node && e.n != 0) = some e →
    let u := s.step1
    let v := u.step1
    exec (.postedConfirmTimeout h node) s = .next (s.finished (((v.step1.confirm h node e.n).pweLog h 2 (1 + s.freeN % 7) 0 (v.freeN % 65536)
      (node * 2 ^ 32 + u.freeN % 2 ^ 32) e.win e.seq e.n).pump h))) ∧
  (∀ (b : Fin 18) node, exec (.postedEntryAged b node) s = .next (s.finished ((s.setBr b { s.br b with
    pdt := (s.br b).pdt.map (fun e => if e.node = node && e.n = 0 then { e with aged := true } else e) }).pump b))) ∧
  (∀ h : Fin 2, exec (.prefetchExpire h) s = .next (s.finished (s.setBr h { s.br h with buffer := (s.br h).buffer.drop 1 })))) ∧
 (∀ (s : State),
  (∀ (p : Fin 3) d t, s.portHolds 6 = false → s.tgt.waiting = [] → (s.outbox (4 + p)).find? (fun d => tgtTakes (4 + p) d.frame) = some d → d.discard = false →
    s.tgtReady d.frame = true → s.tgtTry d.frame d.inp = some t → t.tgt.waiting = [] →
    exec (.targetRequest p) s = .next (s.finished (t.setOutbox (4 + p) ((t.outbox (4 + p)).erase d)))) ∧
  (∀ f inp, 16 ≤ f.payload.length → let a := beNat (slice f.payload 8 4)
    let n := (nthD f.payload 12 0).toNat
    (nthD f.payload 3 0).toNat = 0 → tgtNeedsEntry f = false → 1 ≤ n → n ≤ 128 → a % 128 + n ≤ 128 →
    (f.kind = 3 → let r := s.readAccess (tgtReq f inp) a n false (.ring f)
      ∀ st, r.1 = some st → s.tgtTry f inp = some (r.2.2.tgtDone f st 0 r.2.1)) ∧
    (f.kind = 1 ∨ f.kind = 2 → (f.payload.drop 16).length = n → let r := s.writeAccess (tgtReq f inp) a (f.payload.drop 16) (.ring f)
      ∀ st, r.1 = some st → s.tgtTry f inp = some (r.2.tgtDone f st 0 []))) ∧
  (∀ f inp, 16 ≤ f.payload.length → f.kind ≠ 0xA → isAckRequest f = false → (nthD f.payload 3 0).toNat = 64 → tgtNeedsEntry f = false →
    s.tokenHolds (tgtReq f inp) (beNat (slice f.payload 6 2)) = false → s.tgtTry f inp = some (s.tgtDone f 7 4 [])) ∧
  (∀ f inp e, 16 ≤ f.payload.length → isAckRequest f = false → (nthD f.payload 3 0).toNat % 8 ≠ 0 → e.status < 256 →
    s.tgt.cache.find? (fun e => e.src = f.src && e.flow = f.flow && e.tag = beNat (slice f.payload 0 2)) = some e →
    s.tgtTry f inp = some ((s.inc rTGT_CNT_CACHE_HIT).respond f (e.status % 16) (e.status / 16) 0 e.data)) ∧
  (∀ w rest t, s.tgt.waiting = w :: rest → s.tgtTry w.1 w.2 = some t → exec .orderWaitExpire s = .next (s.finished
    (((({ t with tgt := { t.tgt with waiting := rest } }).inc rTGT_CNT_ORDER_WAIT).raise 42).tgtWaiting (rest.length + 1)))) ∧
  (∀ src flow e, s.flw.sys.find? (fun e => e.src = src && e.flow = flow && e.posted != 0) = some e →
    exec (.postedAckSend src flow) s = .next (s.finished (s.sendAck src flow flow e.ackSeq e.node))) ∧
  (∀ src flow tag, s.tgt.waiting = [] → s.outbox 6 = [] → exec (.responseCacheUnprotect src flow tag) s = .next (s.finished
    { s with tgt := { s.tgt with cache := s.tgt.cache.map (fun e =>
      if e.src = src && e.flow = flow && e.tag = tag then { e with guarded := false } else e) } })))

/-- Fence, failure log and windows (R263, R267, R269, R270). A read of HBx_FENCE answers the errors and the writes in flight, and clears the errors. A
write of HBx_FENCE_REQ that starts it sends an ack request to each node with writes in flight. The log entries named become free. The windows named
lose halted. A write of a window's attributes or base, where the window is not then a prefetching one of register pages, is stored; the attributes
with downgraded = 0. -/
def Obligations.FenceLogAndWindows : Prop := ∀ (s : State) (q : Req) (h : Fin 2),
  (∀ mp, s.allowsRead q (rHBx_FENCE h) mp → exec (.fenceRead q h mp) s = .next (s.finished
    ((s.put (rHBx_FENCE h) fHBx_FENCE_errors 0).done q 0
      (leBytes 4 (toW (s.get (rHBx_FENCE h) fHBx_FENCE_errors * 65536 + min 65535 (inFlight (s.br h)))).toNat)))) ∧
  (∀ v, s.accepts q (rHBx_FENCE_REQ h) (v ||| 1) → exec (.fenceRequest q h v) s = .next (s.finished
    ((((s.br h).pdt.filter (fun e => e.n != 0)).foldl (fun t e => State.brSend t h 1 5 1 e.node (noticeOctets 3 0 0 0 0)) s).wrote q 0))) ∧
  (∀ v, s.accepts q (rHBx_PWE_CLR h) v → exec (.pweClear q h v) s = .next (s.finished
    ((s.put (rHBx_PWE_STATUS h) fHBx_PWE_STATUS_valid (s.get (rHBx_PWE_STATUS h) fHBx_PWE_STATUS_valid &&& (65535 - v.toNat % 65536))).wrote q 0))) ∧
  (∀ v, s.accepts q (rHBx_WIN_RESUME h) v → exec (.windowResume q h v) s = .next (s.finished (((List.range 17).foldl (fun t n =>
    if bitOf v n then State.put t (if n = 16 then rHBx_QATTR h else rHBx_WIN_ATTR h n) fHBx_WIN_ATTR_halted 0 else t) s).wrote q 0))) ∧
  (∀ (n : Fin 16) v, let a := rHBx_WIN_ATTR h n
    let pages (t : State) : Prop := t.flag a fHBx_WIN_ATTR_prefetch = true ∧ t.get (rHBx_WIN_BASE h n) fHBx_WIN_BASE_base % 1024 = 0x040
    (let t := (s.store a v).put a fHBx_WIN_ATTR_downgraded 0;
      s.accepts q a v → ¬ pages t → exec (.windowAttrWrite q h n false v) s = .next (s.finished (t.wrote q 0))) ∧
    (let t := s.store (rHBx_WIN_BASE h n) v;
      s.accepts q (rHBx_WIN_BASE h n) v → ¬ pages t → exec (.windowAttrWrite q h n true v) s = .next (s.finished (t.wrote q 0))))

/-- R263: in a window whose base names the register pages, a write that sets prefetch stores prefetch = 0 and downgraded = 1 with config_warning,
whether it is the write of the attributes or a later one of the base; an interrupt poll of an address whose read may change state completes with
status 0x6 and no effect. -/
def Obligations.NoPrefetchOfRegisterPages : Prop := ∀ (s : State),
  (∀ (q : Req) (h : Fin 2) (n : Fin 16) (v : Word), let a := rHBx_WIN_ATTR h n
    let t := (s.store a v).put a fHBx_WIN_ATTR_downgraded 0
    s.accepts q a v → t.flag a fHBx_WIN_ATTR_prefetch = true → t.get (rHBx_WIN_BASE h n) fHBx_WIN_BASE_base % 1024 = 0x040 →
    exec (.windowAttrWrite q h n false v) s = .next (s.finished
      ((((t.put a fHBx_WIN_ATTR_prefetch 0).put a fHBx_WIN_ATTR_downgraded 1).warn (0x68 + h)).wrote q 0))) ∧
  (∀ (q : Req) (h : Fin 2) (n : Fin 16) (v : Word), let a := rHBx_WIN_ATTR h n
    let t := s.store (rHBx_WIN_BASE h n) v
    s.accepts q (rHBx_WIN_BASE h n) v → t.flag a fHBx_WIN_ATTR_prefetch = true → t.get (rHBx_WIN_BASE h n) fHBx_WIN_BASE_base % 1024 = 0x040 →
    exec (.windowAttrWrite q h n true v) s = .next (s.finished
      ((((t.put a fHBx_WIN_ATTR_prefetch 0).put a fHBx_WIN_ATTR_downgraded 1).warn (0x68 + h)).wrote q 0))) ∧
  (∀ f inp, f.kind = 6 → bitOf (toW (nthD f.payload 3 0).toNat) 6 = false → readsSideEffect (beNat (slice f.payload 8 4)) 4 = true →
    s.tgtPerform f inp = s.tgtDone f 6 0 [])

/-- Host requests to memory (R21, R22, R24, R26, R28, R163). A read of general SRAM of an accepted shape by an Operator or Warden completes with status
0x0 and the octets there, and has no other effect. A write of it, clear of the reserved areas and of the table window, completes with 0x0 and stores
the octets, and no others. A Guest's access of general SRAM completes with status 0x2, one of another shape with 0x3, a write of the Cumin ROM or of
the staging area with 0x4, and none has an effect. A write of the flow index table by Operator or Warden of an accepted shape completes with 0x0 and
changes nothing. An access that no memory range holds, as of a hole or above the fitted size of the device on CS0, completes with 0x1, raises source
48 and does nothing else. A word in local memory is little-endian (R590): written it is read back, its octets from the least significant upwards at
rising addresses, and every other octet stays. -/
def Obligations.HostRequestsReachMemory : Prop :=
 (∀ (s : State) (q : Req) (a : Nat), inPages a = false →
  (∀ n pf, regionOf a = some .general → regionOf (a + n - 1) = some .general → s.levelOf q ≠ .guest →
    (memShape a n = true → exec (.hostRequest q a (.read n pf)) s = .next (s.finished (s.done q 0 ((List.range n).map (fun i => s.byte (a + i)))))) ∧
    (memShape a n = false → exec (.hostRequest q a (.read n pf)) s = .next (s.finished (s.done q 3 [])))) ∧
  (∀ bs, let n := bs.length
    regionOf a = some .general → regionOf (a + n - 1) = some .general → s.levelOf q ≠ .guest → s.reservedArea q.master a n = false → s.touchesWindow a n = false →
    (memShape a n = true → exec (.hostRequest q a (.write bs)) s = .next (s.finished ((s.setBytes a bs).wrote q 0)) ∧
      (s.setBytes a bs).bytes a n = bs ∧ ∀ b, (b < a ∨ a + n ≤ b) → (s.setBytes a bs).byte b = s.byte b) ∧
    (memShape a n = false → exec (.hostRequest q a (.write bs)) s = .next (s.finished (s.wrote q 3)))) ∧
  (∀ n pf bs, regionOf a = some .general → s.levelOf q = .guest →
    (regionOf (a + n - 1) = some .general → exec (.hostRequest q a (.read n pf)) s = .next (s.finished (s.done q 2 []))) ∧
    (regionOf (a + bs.length - 1) = some .general → exec (.hostRequest q a (.write bs)) s = .next (s.finished (s.wrote q 2)))) ∧
  (∀ bs r, r = .rom ∨ r = .staging → regionOf a = some r → regionOf (a + bs.length - 1) = some r →
    exec (.hostRequest q a (.write bs)) s = .next (s.finished (s.wrote q 4))) ∧
  (∀ bs, regionOf a = some .index → regionOf (a + bs.length - 1) = some .index → memShape a bs.length = true →
    exec (.hostRequest q a (.write bs)) s = .next (s.finished (s.wrote q 0))) ∧
  (∀ n pf, s.memRange a n = none → exec (.hostRequest q a (.read n pf)) s = .next (s.finished
    ((s.fault (accessEv 48 0xFFF q 1 n a)).done q 1 []))) ∧
  (∀ bs, s.memRange a bs.length = none → exec (.hostRequest q a (.write bs)) s = .next (s.finished
    ((s.fault (accessEv 48 0xFFF q 2 bs.length a)).wrote q 1))) ∧
  (regionOf a = none → ∀ n, s.memRange a n = none) ∧
  (∀ n, 0x20000000 ≤ a → a < 0x30000000 → 0 < n → a + n ≤ 0x30000000 → s.fitted 0 < a + n - 0x20000000 → s.memRange a n = none)) ∧
 (∀ (s : State) (a : Nat) (w : Word),
  (s.setWord a w).word a = w ∧ (∀ i, i < 4 → (s.setWord a w).byte (a + i) = w.extractLsb' (8 * i) 8) ∧
  ∀ b, (b < a ∨ a + 4 ≤ b) → (s.setWord a w).byte b = s.byte b)

/-- Polling (R16, R271 to R273) while the engine runs. An entry that alone falls due, with none unsent and none sent before, is polled while input FP6
takes frames: its frame of kind 0x6 leaves on the class of the entry with a free tag, and is counted. The poll response first at FP6 is taken. One
that answers a poll clears the entry's misses; a changed masked value is stored and pushes an event. A poll without response is a miss, whose event
carries a free status. A pop takes the oldest event and shows it in the replay registers; of an empty queue it reads 0. -/
def Obligations.PollingAct : Prop := ∀ (s : State),
  (∀ c i, s.pollRuns = true → s.poll.unsent = [] → s.poll.last = none → s.portHolds 6 = false → i < 1024 →
    (List.range (min 1024 (s.get rPOLL_COUNT fPOLL_COUNT_entries))).filter (fun i => s.pollIsDue i c) = [i] → (s.pollWord i 0) % 256 ≠ 255 →
    let w := s.pollWord i 0
    let t := freeTag (s.poll.outst.length + 1) (s.poll.outst.map Prod.snd) (s.freeN % 65536)
    let p1 := { s.poll with unsent := [], last := some c, outst := s.poll.outst ++ [(i, t)], seq := (s.poll.seq + 1) % 65536 }
    let p := { p1 with issued := spSet (fun _ => false) s.poll.issued t true }
    exec (.pollDue c) s = .next (s.finished ((({ s.step1 with poll := p }).inc rPOLL_CNT_SENT).present 6
      (mkFrame 6 (if natBits w 28 28 = 1 then 1 else 2) 0 0 0 (natBits w 17 0) s.ownNode 0xF200 s.poll.seq
        (reqOctets t 0 false false none 0 0 (s.pollWord i 1) 4 0 []))))) ∧
  (∀ d, (s.outbox 6).find? (fun d => d.frame.kind = 4 && d.frame.flow = 0xF200) = some d → d.discard = false → s.pollRuns = true →
    exec .pollResponse s = .next (s.finished ((s.setOutbox 6 ((s.outbox 6).erase d)).pollAnswer d.frame))) ∧
  (∀ f e, 20 ≤ f.payload.length → (nthD f.payload 2 0).toNat % 16 = 0 → (nthD f.payload 8 0).toNat = 4 →
    s.poll.outst.find? (fun e => e.2 = beNat (slice f.payload 0 2)) = some e → let i := e.1
    let t := { s with poll := { s.poll with outst := s.poll.outst.erase e } }
    let v := leNat (slice f.payload 16 4)
    let u := t.setWord (t.pollAddr i 0) (toW (natPut (t.pollWord i 0) 22 20 0))
    let m := v &&& u.pollWord i 2
    (m = u.pollWord i 3 → s.pollAnswer f = u) ∧
    (m ≠ u.pollWord i 3 → s.pollAnswer f =
      (u.setWord (u.pollAddr i 3) (toW m)).pollEvent (natBits (t.pollWord i 0) 30 29) (pollItem v i false 0 (natBits (t.pollWord i 0) 17 0)))) ∧
  (∀ (i : Fin 1024) e, s.poll.outst.find? (fun e => e.1 = i.val) = some e → s.pollRuns = true →
    exec (.pollMiss i) s = .next (s.finished
      (({ s.step1 with poll := { s.poll with outst := s.poll.outst.erase e } }).pollMiss i (s.freeN % 8)))) ∧
  (∀ q mp wide, s.allowsRead q rPOLL_EVT_POP mp →
    (s.poll.events = [] → exec (.pollEvtPop q mp wide) s = .next (s.finished (s.done q 0 (leBytes (if wide then 8 else 4) 0)))) ∧
    (∀ t l, s.poll.events = t :: l → exec (.pollEvtPop q mp wide) s = .next (s.finished ((((({ s with poll := { s.poll with events := l } }).setReg
      rPOLL_EVT_POP_HI (toW (t / 2 ^ 32))).setReg rPOLL_EVT_REPLAY (toW t)).setReg rPOLL_EVT_REPLAY_HI (toW (t / 2 ^ 32))).done q 0
        (leBytes (if wide then 8 else 4) t)))))

/-- Semaphores and the Warden's clears (R265, R275, R278), with no atomic of a host port at work, for the semaphore the write names. A free semaphore is
granted to a requester of this hub, by request or try. One that another holds queues a requester that does not wait yet, while fewer than 8 wait,
and leaves a try without effect. Its holder releases it; with none waiting it is free then. A force releases it whoever holds it, and so does the
end of a ring requester's hold, which is counted and raises source 39. A claim clear takes all claims of its resource. Heartbeats (R276, R277). A
beat marks the window. A write that turns en on, of a period of at most 1000, begins the first window, with no miss where the host is not forced. At
the end of a window, with en and the page on: a beaten one clears the miss count of a host that is not forced, a missed one raises it by one, up to
15, and at miss_count forces the host. Of a forced host a missed window begins the count of good windows anew, a beaten one counts, and as many as
miss_count release it. Who owns a resource (R274, R275): nobody while every claim is 0, the one presenter of the largest claim, and no one while two
present it. -/
def Obligations.ArbiterActs : Prop :=
 (∀ (s : State) (q : Req) (v : Word), (s.br 0).atoms = [] → (s.br 1).atoms = [] →
  let n := fldOf v fARB_SEM_CMD_sem
  (q.master ≠ 0x30 → s.sem n = {} →
    (s.accepts q rARB_SEM_CMD (semOp v 1) → ∃ T : State, exec (.semRequest q v) s = .next (s.finished (T.wrote q 0)) ∧ T.sem n = { holder := some q.who } ∧
      T.regs = (s.irq 0x05 2).regs ∧ ∀ m, m ≠ n → T.sem m = s.sem m) ∧
    (s.accepts q rARB_SEM_CMD (semOp v 3) → ∃ T : State, exec (.semTry q v) s = .next (s.finished (T.wrote q 0)) ∧ T.sem n = { holder := some q.who } ∧
      T.regs = (s.irq 0x05 2).regs ∧ ∀ m, m ≠ n → T.sem m = s.sem m)) ∧
  (∀ h, (s.sem n).holder = some h → h ≠ q.who → (s.sem n).waiters.any (fun w => w.1 = q.who) = false →
    (s.accepts q rARB_SEM_CMD (semOp v 1) → (s.sem n).waiters.length < 8 → exec (.semRequest q v) s = .next (s.finished
      ((s.setSem n { s.sem n with waiters := (s.sem n).waiters ++ [(q.who, .drop)] }).wrote q 0))) ∧
    (s.accepts q rARB_SEM_CMD (semOp v 3) → exec (.semTry q v) s = .next (s.finished (s.wrote q 0)))) ∧
  (s.accepts q rARB_SEM_CMD (semOp v 2) → (s.sem n).holder = some q.who → exec (.semRelease q v) s = .next (s.finished ((s.semFree n).wrote q 0))) ∧
  ((s.sem n).waiters = [] → (s.semFree n).sem n = {} ∧ (s.semFree n).regs = s.regs ∧ ∀ m, m ≠ n → (s.semFree n).sem m = s.sem m) ∧
  (∀ w h, s.accepts q rARB_SEM_FORCE (w ||| 0x80000000) → (s.sem (natBits (w ||| 0x80000000).toNat 5 0)).holder = some h →
    exec (.semForce q w) s = .next (s.finished ((s.semFree (natBits (w ||| 0x80000000).toNat 5 0)).wrote q 0))) ∧
  (∀ (k : Fin 64) h, (s.sem k).holder = some h → h.master = 0x30 → s.enabled 0x05 = true → exec (.semHoldExpire k) s = .next (s.finished
    ((((s.inc rARB_CNT_SEM_EXPIRED).irq 0x05 7).raise 39).semFree k))) ∧
  (∀ w, s.accepts q rARB_CLAIM_CLEAR (w ||| 0x80000000) → natBits (w ||| 0x80000000).toNat 5 0 < 56 →
    exec (.claimClear q w) s = .next (s.finished ((s.redecide (natBits (w ||| 0x80000000).toNat 5 0) {} 2).wrote q 0)))) ∧
 (∀ (s : State) (h : Fin 2),
  (∀ q v, s.accepts q (rARB_HB h) v → exec (.heartbeat q h v) s = .next (s.finished
    ((s.setBeat h { s.beat h with beaten := true }).wrote q 0))) ∧
  (∀ q v, let w := v ||| 0x80000000
    let t := s.store (rARB_HB_CFG h) (fldPut w fARB_HB_CFG_period_ms (min 1000 (fldOf w fARB_HB_CFG_period_ms)))
    s.accepts q (rARB_HB_CFG h) w → s.flag (rARB_HB_CFG h) fARB_HB_CFG_en = false → t.flag (rARB_HB_CFG h) fARB_HB_CFG_en = true →
    (t.flag rARB_HB_STATUS (hbForcedFld h) = false → exec (.heartbeatEnable q h v) s = .next (s.finished (((t.put rARB_HB_STATUS (hbMissFld h) 0).setBeat h
      { beaten := false, good := 0, period := (t.put rARB_HB_STATUS (hbMissFld h) 0).hbPeriod h }).wrote q 0))) ∧
    (t.flag rARB_HB_STATUS (hbForcedFld h) = true → exec (.heartbeatEnable q h v) s = .next (s.finished ((t.setBeat h
      { beaten := false, good := 0, period := t.hbPeriod h }).wrote q 0)))) ∧
  (s.flag (rARB_HB_CFG h) fARB_HB_CFG_en = true → s.enabled 0x05 = true →
    let next : BeatSt := { beaten := false, good := 0, period := s.hbPeriod h }
    let miss := min 15 (s.get rARB_HB_STATUS (hbMissFld h) + 1)
    (s.flag rARB_HB_STATUS (hbForcedFld h) = false → ((s.beat h).beaten = true →
      exec (.heartbeatWindowEnd h) s = .next (s.finished ((s.setBeat h next).put rARB_HB_STATUS (hbMissFld h) 0))) ∧
    ((s.beat h).beaten = false → miss < s.hbLimit h →
      exec (.heartbeatWindowEnd h) s = .next (s.finished ((s.setBeat h next).put rARB_HB_STATUS (hbMissFld h) miss))) ∧
    ((s.beat h).beaten = false → s.hbLimit h ≤ miss →
      exec (.heartbeatWindowEnd h) s = .next (s.finished (((s.setBeat h next).put rARB_HB_STATUS (hbMissFld h) miss).forceHost h)))) ∧
    (s.flag rARB_HB_STATUS (hbForcedFld h) = true → ((s.beat h).beaten = false →
      exec (.heartbeatWindowEnd h) s = .next (s.finished (s.setBeat h next))) ∧
    ((s.beat h).beaten = true → (s.beat h).good + 1 < s.hbLimit h →
      exec (.heartbeatWindowEnd h) s = .next (s.finished (s.setBeat h { next with good := (s.beat h).good + 1 }))) ∧
    ((s.beat h).beaten = true → s.hbLimit h ≤ (s.beat h).good + 1 → exec (.heartbeatWindowEnd h) s = .next (s.finished
        (((s.setBeat h next).put rARB_HB_STATUS (hbForcedFld h) 0).put rARB_HB_STATUS (hbMissFld h) 0)))))) ∧
 (∀ (c : ClaimSt),
  let top := c.list.foldl (fun m e => max m e.2.2) 0
  ((∀ e ∈ c.list, e.2.2 = 0) → c.own = .opened) ∧
  (∀ e ∈ c.list, 0 < e.2.2 → (c.list.filter (fun f => e.2.2 ≤ f.2.2)).length = 1 → c.own = .owned e.1 e.2.1 ∧ c.accepted = e.2.2) ∧
  (0 < top → 2 ≤ (c.list.filter (fun f => f.2.2 = top)).length → c.own.isConflict = true ∧ c.own.master = 0xFF ∧ c.accepted = 0))

/-- Pins and GPIO (R315, R318, R320, R321). A pin takes a function of the table that no other pin holds while its bank has a level, and keeps its
setting with config_warning otherwise. A bank's level changes only while every pin of it has no function; with one it keeps it, with config_warning.
PMUX_GPIO_IN shows the level of each pin: 0 in function none, and of a GPIO output its bit of GPIO_OUT. GPIO_SET and GPIO_CLR change the bits
written as 1, and each pin that then shows another level has its edge. A level at a ball that changes the level of its pin comes to the Clove units
while their island runs, and records its edge, with the interrupt when it was not recorded, where the edge is enabled. -/
def Obligations.PinsAct : Prop := ∀ (s : State) (q : Req) (c : Fin 4),
  (∀ (p : Fin 32) v, s.accepts q (rPMUX_PIN c p) v → let fn := fldOf v fPMUX_PIN_function
    let lvl := s.get (rPMUX_BANK c) fPMUX_BANK_level
    (pinCode p fn = true → (∀ x : Fin 32, x ≠ p → fn < 0x10 ∨ s.pinFn c x ≠ fn) → lvl = 1 ∨ lvl = 2 →
      exec (.pinFunctionWrite q c p v) s = .next (s.finished (((s.store (rPMUX_PIN c p) v).clvPins c (s.gpioIn c)).wrote q 0))) ∧
    (pinCode p fn = false ∨ (0x10 ≤ fn ∧ ∃ x : Fin 32, x ≠ p ∧ s.pinFn c x = fn) ∨ lvl = 0 ∨ lvl = 3 →
      exec (.pinFunctionWrite q c p v) s = .next (s.finished ((s.warn (0xB0 + c)).wrote q 0)))) ∧
  (∀ v, s.accepts q (rPMUX_BANK c) v → (fldOf v fPMUX_BANK_level = s.get (rPMUX_BANK c) fPMUX_BANK_level →
      exec (.bankLevelWrite q c v) s = .next (s.finished (s.wrote q 0))) ∧
    (fldOf v fPMUX_BANK_level ≠ s.get (rPMUX_BANK c) fPMUX_BANK_level →
    ((∀ p : Fin 32, s.pinFn c p = 0) → exec (.bankLevelWrite q c v) s = .next (s.finished
      ((s.put (rPMUX_BANK c) fPMUX_BANK_level (fldOf v fPMUX_BANK_level)).wrote q 0))) ∧
    ((∃ p : Fin 32, s.pinFn c p ≠ 0) → exec (.bankLevelWrite q c v) s = .next (s.finished ((s.warn (0xB0 + c)).wrote q 0))))) ∧
  (∀ v, s.accepts q (rPMUX_GPIO_SET c) v → exec (.gpioSet q c v) s = .next (s.finished
    (((s.setReg (rPMUX_GPIO_OUT c) (s.reg (rPMUX_GPIO_OUT c) ||| v)).pinsSeen c (s.gpioIn c)).wrote q 0))) ∧
  (∀ v, s.accepts q (rPMUX_GPIO_CLR c) v → exec (.gpioClr q c v) s = .next (s.finished
    (((s.setReg (rPMUX_GPIO_OUT c) (s.reg (rPMUX_GPIO_OUT c) &&& ~~~v)).pinsSeen c (s.gpioIn c)).wrote q 0))) ∧
  (∀ p : Fin 32, bitOf (s.gpioIn c) p = s.pinLevel c p ∧ (s.pinFn c p = 0 → s.pinLevel c p = false) ∧
    (s.pinFn c p = 1 → bitOf (s.reg (rPMUX_GPIO_OE c)) p = true → s.flag (rPMUX_BANK c) fPMUX_BANK_supply_ok = true → s.enabled (0xB0 + c) = true →
      s.flag (rPMUX_PIN c p) fPMUX_PIN_od = false → s.pinLevel c p = bitOf (s.reg (rPMUX_GPIO_OUT c)) p)) ∧
  (∀ (p : Fin 32) level, let u := s.setBall c (toW (natPut (s.ball c).toNat p p (b2n level)))
    let now := u.pinLevel c p
    let t := if u.fieldRuns then u.clvEdge c p now else u
    let en := if now then rPMUX_GPIO_RISE_EN c else rPMUX_GPIO_FALL_EN c
    (now = s.pinLevel c p → exec (.gpioEdge c p level) s = .next (s.finished u)) ∧
    (now ≠ s.pinLevel c p → (bitOf (t.reg en) p = false ∨ t.enabled (0xB0 + c) = false) → exec (.gpioEdge c p level) s = .next (s.finished t)) ∧
    (now ≠ s.pinLevel c p → bitOf (t.reg en) p = true → t.enabled (0xB0 + c) = true →
      let e := t.setReg (rPMUX_GPIO_EDGE c) (t.reg (rPMUX_GPIO_EDGE c) ||| toW (2 ^ p.val))
      exec (.gpioEdge c p level) s = .next (s.finished (if bitOf (t.reg (rPMUX_GPIO_EDGE c)) p then e else e.irq (0xB0 + c) 2))))

/-- Field queues (R323 to R327, R331, R334). While the field island runs, an item produced against a credit goes into the open word, which is committed
when it is full or ends its packet. A pop of a register-mode queue, with no injected error armed, gives the tag of the oldest word and leaves its
data in FQ_DATAq; of an empty one it gives the idle tag. A push to a queue of an enabled page appends a word of 1 to 8 octets where there is room,
and else is counted as refused; to a disabled page it does nothing. Of FQ_CMD on an existing queue: a close commits the open word, if there is one;
a flush discards the words and counts them. Field-queue settings and frames (R329, R330, R331, R334). A write of a queue's settings that does not
fit the memory, or changes a depth of an enabled queue, is ignored with config_warning; one that enables a queue empties it and grants its credits,
one that disables it discards its words; another is stored. The binding of an enabled queue stays, with config_warning where the write would change
it. While the field island runs, the first frame for a cluster that its transmit queue has room for becomes the queue's words, and one for no such
queue is counted. -/
def Obligations.FieldQueuesActAndAreSet : Prop :=
 (∀ (s : State) (q : Req) (c : Fin 4) (n : Fin 32),
  (∀ item last, s.fieldRuns = true → s.fqOn c n = true → (s.fq c n).credits ≠ 0 →
    let l := (s.fq c n).opened ++ leBytes (s.fqWidth c n) item
    let t := s.setFq c n { s.fq c n with opened := l, credits := (s.fq c n).credits - 1 }
    (last = false → l.length < 8 → exec (.fqItemProduced c n item last) s = .next (s.finished ((t.fqTopUp c n).fqGrant c n))) ∧
    (last = true ∨ 8 ≤ l.length → exec (.fqItemProduced c n item last) s = .next (s.finished ((t.fqCommit c n last).fqGrant c n)))) ∧
  (∀ mp, s.allowsRead q (rFQ_POP c n) mp →
    (∀ w rest, s.rxMode c n = 0 → (s.fq c n).rx = w :: rest → s.armed (0xB4 + c) 0 = none →
      let t := (s.setFq c n { s.fq c n with rx := rest }).fqGrant c n
      let tag := min 255 (rest.filter (fun w => w.last)).length * 2 ^ 24 + b2n w.last * 2 ^ 11 + w.valid
      exec (.fqPop q c n mp) s = .next (s.finished ((((t.setReg (rFQ_DATA_LO c n) (toW w.data)).setReg (rFQ_DATA_HI c n)
        (toW (w.data / 2 ^ 32))).setReg (rFQ_POP_REPLAY c n) (toW tag)).done q 0 (leBytes 4 tag)))) ∧
    (((s.fq c n).rx = [] ∨ s.rxMode c n ≠ 0) → exec (.fqPop q c n mp) s = .next (s.finished
      (s.done q 0 (leBytes 4 (if fqExists n then 0x10000 else 0)))))) ∧
  (∀ v, s.accepts q (rFQ_PUSH c n) v → fqExists n = true →
    (s.enabled (0xB4 + c) = false → exec (.fqPush q c n v) s = .next (s.finished (s.wrote q 0))) ∧
    (s.enabled (0xB4 + c) = true → s.txFree c n ≠ 0 → 1 ≤ v.toNat % 16 → v.toNat % 16 ≤ 8 → exec (.fqPush q c n v) s = .next (s.finished
      (((s.setFq c n { s.fq c n with tx := (s.fq c n).tx ++
        [⟨(s.reg (rFQ_TXDATA_HI c n)).toNat * 2 ^ 32 + (s.reg (rFQ_TXDATA_LO c n)).toNat, v.toNat % 16, bitOf v 8⟩] }).fqFed c n).wrote q 0))) ∧
    (s.enabled (0xB4 + c) = true → (s.txFree c n = 0 ∨ v.toNat % 16 = 0 ∨ 8 < v.toNat % 16) → exec (.fqPush q c n v) s = .next (s.finished
      (((s.inc (rFQ_CNT_PUSH_REFUSED c)).raise (72 + c)).wrote q 0)))) ∧
  (∀ v, fldOf v fFQ_CMD_queue = n.val → fqExists n = true → s.accepts q (rFQ_CMD c) v →
    (fldOf v fFQ_CMD_close_rx = 1 → fldOf v fFQ_CMD_flush_rx = 0 → fldOf v fFQ_CMD_flush_tx = 0 →
      exec (.fqCloseRx q c v) s = .next (s.finished ((if (s.fq c n).opened = [] then s else s.fqCommit c n true).wrote q 0))) ∧
    (fldOf v fFQ_CMD_close_rx = 0 → fldOf v fFQ_CMD_flush_rx = 1 → fldOf v fFQ_CMD_flush_tx = 0 → ∃ inside : Bool,
      let x := s.fq c n
      let y : FqSt := { x with rx := [], opened := [], inside := inside, number := (x.number + (x.rx.filter (fun w => w.last)).length) % 65536 }
      exec (.fqFlushRx q c v) s = .next (s.finished ((((s.setFq c n y).fqDrop c x.rx.length).fqGrant c n).wrote q 0))) ∧
    (fldOf v fFQ_CMD_close_rx = 0 → fldOf v fFQ_CMD_flush_rx = 0 → fldOf v fFQ_CMD_flush_tx = 1 →
      exec (.fqFlushTx q c v) s = .next (s.finished (((s.setFq c n { s.fq c n with tx := [], txPos := 0 }).fqDrop c
        (s.fq c n).tx.length).wrote q 0))))) ∧
 (∀ (s : State) (q : Req) (c : Fin 4) (n : Fin 32), fqExists n = true →
  (∀ v, s.accepts q (rFQ_QCFG c n) v → let rx := fqDepth (fldOf v fFQ_QCFG_rx_depth)
    let tx := fqDepth (fldOf v fFQ_QCFG_tx_depth)
    let w := fldPut (fldPut v fFQ_QCFG_rx_depth rx) fFQ_QCFG_tx_depth tx
    let others := (List.range 32).foldl (fun m x => if x = n.val || !fqExists x then m else m + s.rxDepth c x + s.txDepth c x) 0
    (2048 < others + rx + tx → exec (.fqQcfgWrite q c n v) s = .next (s.finished ((s.warn (0xB4 + c)).wrote q 0))) ∧
    (s.flag (rFQ_QCFG c n) fFQ_QCFG_enable = true → rx ≠ s.rxDepth c n ∨ tx ≠ s.txDepth c n →
      exec (.fqQcfgWrite q c n v) s = .next (s.finished ((s.warn (0xB4 + c)).wrote q 0))) ∧
    (others + rx + tx ≤ 2048 → s.flag (rFQ_QCFG c n) fFQ_QCFG_enable = false → let t := s.store (rFQ_QCFG c n) w
      (t.flag (rFQ_QCFG c n) fFQ_QCFG_enable = true →
        exec (.fqQcfgWrite q c n v) s = .next (s.finished (((t.setFq c n { hold := (t.fq c n).hold }).fqGrant c n).wrote q 0))) ∧
      (t.flag (rFQ_QCFG c n) fFQ_QCFG_enable = false → exec (.fqQcfgWrite q c n v) s = .next (s.finished ((t.fqGrant c n).wrote q 0)))) ∧
    (others + rx + tx ≤ 2048 → s.flag (rFQ_QCFG c n) fFQ_QCFG_enable = true → rx = s.rxDepth c n → tx = s.txDepth c n →
      let t := s.store (rFQ_QCFG c n) w
      (t.flag (rFQ_QCFG c n) fFQ_QCFG_enable = false → exec (.fqQcfgWrite q c n v) s = .next (s.finished ((t.fqClear c n).wrote q 0))) ∧
      (t.flag (rFQ_QCFG c n) fFQ_QCFG_enable = true → exec (.fqQcfgWrite q c n v) s = .next (s.finished ((t.fqGrant c n).wrote q 0))))) ∧
  (∀ v, fldOf v fFQ_BIND_rx_mode ≤ 1 → fldOf v fFQ_BIND_tx_mode ≤ 1 → let w := fldPut (fldPut v fFQ_BIND_rx_mode (fldOf v fFQ_BIND_rx_mode)) fFQ_BIND_tx_mode (fldOf v fFQ_BIND_tx_mode)
    let t := s.store (rFQ_BIND c n) (fldPut w fFQ_BIND_max_words (min 60 (fldOf w fFQ_BIND_max_words)))
    (s.flag (rFQ_QCFG c n) fFQ_QCFG_enable = true → fqBindFx c n v s = if t.reg (rFQ_BIND c n) = s.reg (rFQ_BIND c n) then s else s.warn (0xB4 + c)) ∧
    (s.flag (rFQ_QCFG c n) fFQ_QCFG_enable = false → fqBindFx c n v s = t)) ∧
  (∀ d rest, s.fieldRuns = true → s.enabled (0xB4 + c) = true → s.outbox (10 + c) = d :: rest → let t := s.setOutbox (10 + c) rest
    (∀ ws, s.fqFate c d = (1, n.val, ws) → exec (.fqFrameDeliver c) s = .next (s.finished
      ((((t.setFq c n { t.fq c n with tx := (t.fq c n).tx ++ ws }).inc (rFQ_CNT_TX_FRAMES c)).fqFed c n).egressPump (10 + c)))) ∧
    (∀ h : HeldCtx, d.held = some h → h.queue = n.val → s.fqOn c n = true → s.txMode c n = 1 → s.txDepth c n ≠ 0 → ∀ ws, fqWords d.frame.payload = some ws →
      ws.length ≤ s.txDepth c n - (s.fq c n).tx.length → s.fqFate c d = (1, n.val, ws)) ∧
    ((d.held.map HeldCtx.queue).getD 32 = n.val → s.fqOn c n = false ∨ s.txMode c n ≠ 1 ∨ s.txDepth c n = 0 → exec (.fqFrameDeliver c) s = .next (s.finished
      ((((t.inc (rFQ_CNT_NO_QUEUE c)).irq (0xB4 + c) 3).raise (72 + c)).egressPump (10 + c))))))

/-- UART units with the page enabled, while the field island runs (R341 to R347). At an enabled receiver with a pin, whose DE is not active and that
filters nothing, a character counts; one that is no break also counts a wrong parity or stop bit, each with the interrupt and, with err_fault,
source 76 plus the cluster; fewer than 4 items held keep it, else it is lost, counts and sets overrun. A break counts, and is kept as one that ends
its packet. The idle time ends the packet. A transmitter that is not waiting for DE takes the next item and sends it, DE active with rs485. DE is
released after the end mark, with the interrupt, or when no word is committed. SEND_BREAK sends a break of brk_bits. SPI units with the page
enabled, while the field island runs (R348 to R352). A controller without a count takes the next item of its queue, given a credit where it
receives, and shifts it; it pauses without an item. With a count and no packet it shifts the idle item and counts down, the last one with the
interrupt. A shift on a controller that does not receive sends the frame to the selected line and counts it; the last of a packet also ends the
packet, which counts. A frame goes out with its most significant bit first, or with lsb_first its least significant. A count is taken while none
runs, and set aside with config_warning while one does. A target answers a frame with its next item, or the idle item with an underrun, which counts
and faults. The release of CS0 counts a part frame and ends the packet. -/
def Obligations.UartAndSpiUnitsAct : Prop :=
 (∀ (s : State) (n : Fin 16), s.fieldRuns = true → s.enabled (0x80 + n) = true →
  (∀ data addr par stop, let d := data % 2 ^ s.get (rUART_CFG n) fUART_CFG_data_bits
    let a := addr && s.flag (rUART_CFG n) fUART_CFG_addr_mode
    let want := wantParity (s.get (rUART_CFG n) fUART_CFG_parity) d a
    let isBreak := decide (d = 0) && !a && !(par && want.isSome) && !stop
    s.flag (rUART_CFG n) fUART_CFG_rx_en = true → s.routed (n / 4) (0x10 + 4 * (n % 4) + 1) = true → (s.unit (0x80 + n)).de = false →
    s.flag (rUART_CFG n) fUART_CFG_addr_filter = false →
    let lose (t : State) : State := (((t.inc (rUART_CNT_OVERRUN n)).irq (0x80 + n) 3).unitFault (0x80 + n)).setUnit (0x80 + n) { t.unit (0x80 + n) with overrun := true }
    (isBreak = false → let e := want.any (fun w => w != (par && want.isSome))
      let t := (s.inc (rUART_CNT_RX_CHARS n)).setUnit (0x80 + n) { s.unit (0x80 + n) with brk := false }
      let u := (t.uartErr n (rUART_CNT_PARITY n) e).uartErr n (rUART_CNT_FRAMING n) (!stop)
      (u.unitHeld (0x80 + n) < 4 → exec (.uartRxChar n data addr par stop) s = .next (s.finished (u.uartPut n d e (!stop) false a))) ∧
      (4 ≤ u.unitHeld (0x80 + n) → exec (.uartRxChar n data addr par stop) s = .next (s.finished (lose u)))) ∧
    (isBreak = true → let t := (((s.inc (rUART_CNT_RX_CHARS n)).inc (rUART_CNT_BREAK n)).irq (0x80 + n) 2).setUnit (0x80 + n) { s.unit (0x80 + n) with brk := true }
      exec (.uartRxChar n data addr par stop) s = .next (s.finished
        ((if 4 ≤ t.unitHeld (0x80 + n) then lose t else t.uartPut n 0 false false true false).unitRelease (0x80 + n) true)))) ∧
  (∀ cnt (t : State), let v := (t.inc cnt).irq (0x80 + n) 3
    t.uartErr n cnt false = t ∧ t.uartErr n cnt true = if v.flag (rUART_CFG n) fUART_CFG_err_fault then v.unitFault (0x80 + n) else v) ∧
  (s.get (rUART_CFG n) fUART_CFG_idle_bits ≠ 0 → exec (.uartIdleEnd n) s = .next (s.finished (s.unitRelease (0x80 + n) true))) ∧
  (let rs := s.flag (rUART_CFG n) fUART_CFG_rs485
    let x := s.unit (0x80 + n)
    s.flag (rUART_CFG n) fUART_CFG_tx_en = true → s.fqHasTx (n / 4) (n % 4) = true → (rs && x.de && x.lastEnd) = false →
    let r := s.fqTake (n / 4) (n % 4)
    exec (.uartTxChar n) s = .next (s.finished (((r.2.setUnit (0x80 + n) { x with de := rs, lastEnd := r.1.last }).inc (rUART_CNT_TX_CHARS n)).emit
      (.uart n (r.1.item % 2 ^ s.get (rUART_CFG n) fUART_CFG_data_bits) (s.flag (rUART_CFG n) fUART_CFG_addr_mode && r.1.item.testBit 9))))) ∧
  (let t := s.setUnit (0x80 + n) { s.unit (0x80 + n) with de := false, lastEnd := false };
    (s.unit (0x80 + n)).de = true →
    ((s.unit (0x80 + n)).lastEnd = true → exec (.uartDeRelease n) s = .next (s.finished (t.irq (0x80 + n) 4))) ∧
    ((s.unit (0x80 + n)).lastEnd = false → s.fqHasTx (n / 4) (n % 4) = false → exec (.uartDeRelease n) s = .next (s.finished t))) ∧
  (∀ q v, s.accepts q (rUART_CMD n) v → bitOf v 0 = true → let u := { s.unit (0x80 + n) with de := s.flag (rUART_CFG n) fUART_CFG_rs485, lastEnd := false }
    exec (.uartSendBreak q n v) s = .next (s.finished (((s.setUnit (0x80 + n) u).emit (.uartBreak n (s.get (rUART_BRK n) fUART_BRK_brk_bits))).wrote q 0)))) ∧
 (∀ (s : State) (n : Fin 8), s.fieldRuns = true → s.enabled (0x98 + n) = true →
  let x := s.unit (0x98 + n)
  let may := s.flag (rSPI_CFG n) fSPI_CFG_rx_en = false ∨ (s.fq (n / 2) (spiQ n)).credits ≠ 0
  (s.flag (rSPI_CFG n) fSPI_CFG_target = false → ∀ miso,
    (x.count = 0 ∨ x.inPacket = true → may → s.fqHasTx (n / 2) (spiQ n) = true → let r := s.fqTake (n / 2) (spiQ n)
      exec (.spiFrame n miso) s = .next (s.finished ((r.2.setUnit (0x98 + n) { x with inPacket := true }).spiShift n r.1.item miso r.1.last))) ∧
    (x.count = 0 ∨ x.inPacket = true → s.fqHasTx (n / 2) (spiQ n) = false → exec (.spiFrame n miso) s = .next (s.finished
      (s.setUnit (0x98 + n) { x with waiting := x.cs.isSome }))) ∧
    (x.count ≠ 0 → x.inPacket = false → may → let t := State.spiShift (s.setUnit (0x98 + n) { x with count := x.count - 1 }) n (s.reg (rFQ_IDLE (n / 2) (spiQ n))).toNat miso (x.count = 1 && x.countEnd)
      exec (.spiFrame n miso) s = .next (s.finished (if x.count = 1 then t.irq (0x98 + n) 4 else t)))) ∧
  (∀ send miso, let bits := s.get (rSPI_CFG n) fSPI_CFG_frame_bits
    let cs := x.cs.getD (s.get (rSPI_CFG n) fSPI_CFG_cs)
    let v := s.setUnit (0x98 + n) { x with cs := some cs, waiting := false }
    let t := (v.emit (.spi n cs bits (v.spiOrder n send))).inc (rSPI_CNT_FRAMES n)
    t.flag (rSPI_CFG n) fSPI_CFG_rx_en = false → s.spiShift n send miso false = t ∧
      s.spiShift n send miso true = ((t.setUnit (0x98 + n) { t.unit (0x98 + n) with cs := none, inPacket := false, waiting := false }).inc (rSPI_CNT_PACKETS n)).irq (0x98 + n) 2) ∧
  (∀ v b, let bits := s.get (rSPI_CFG n) fSPI_CFG_frame_bits
    b < bits → (s.spiOrder n v).testBit b = v.testBit (if s.flag (rSPI_CFG n) fSPI_CFG_lsb_first then bits - 1 - b else b)) ∧
  (∀ q v, s.accepts q (rSPI_CMD n) v →
    (x.count = 0 → fldOf v fSPI_CMD_count ≠ 0 → exec (.spiCount q n v) s = .next (s.finished
      ((s.setUnit (0x98 + n) { x with count := fldOf v fSPI_CMD_count, countEnd := fldOf v fSPI_CMD_end = 1 }).wrote q 0))) ∧
    (x.count ≠ 0 → exec (.spiCount q n v) s = .next (s.finished ((s.warn (0x98 + n)).wrote q 0)))) ∧
  (s.flag (rSPI_CFG n) fSPI_CFG_target = true → s.routed (n / 2) (0x20 + 8 * (n % 2) + 3) = true →
    ∀ mosi, let bits := s.get (rSPI_CFG n) fSPI_CFG_frame_bits
    let r := s.fqTake (n / 2) (spiQ n)
    let t := r.2.setUnit (0x98 + n) { r.2.unit (0x98 + n) with cs := some 0 }
    let v := if r.1.idle then ((t.inc (rSPI_CNT_UNDERRUN n)).irq (0x98 + n) 3).unitFault (0x98 + n) else t
    let u := (v.emit (.spi n 0 bits (v.spiOrder n r.1.item))).inc (rSPI_CNT_FRAMES n)
    u.flag (rSPI_CFG n) fSPI_CFG_rx_en = false → exec (.spiTargetFrame n mosi) s = .next (s.finished u)) ∧
  (s.flag (rSPI_CFG n) fSPI_CFG_target = true → ∀ part, let u := if part then s.inc (rSPI_CNT_ABORTED n) else s
    let t := u.unitRelease (0x98 + n) true
    (u.unit (0x98 + n)).cs.isSome = true → exec (.spiCsRelease n part) s = .next (s.finished
      (((t.setUnit (0x98 + n) { t.unit (0x98 + n) with cs := none }).inc (rSPI_CNT_PACKETS n)).irq (0x98 + n) 2))))

/-- I2C units with the page enabled, while the field island runs (R353 to R359). An enabled controller with a packet under way carries out the next
item: a START takes the bus and sends its address, a WRITE on the bus sends its octet; a NACK, lost arbitration or bus error ends the transaction
with status 2, 4 or 5, a WRITE outside a packet with 7, the last WRITE with 1. A clock held low too long counts, and ends a packet with status 6.
IIC_CMD clears the bus of a controller that does not hold it, and sends STOP for one that does. An addressed target takes a byte given a credit,
stretches without where a limit is set, and NACKs it at the limit, which counts and faults. A STOP ends the target's packet, with the interrupt
where there was one. -/
def Obligations.I2cUnitsAct : Prop := ∀ (s : State) (n : Fin 8), s.fieldRuns = true → s.enabled (0xA0 + n) = true →
  (s.flag (rIIC_CFG n) fIIC_CFG_controller_en = true → s.fqHasTx (n / 2) (iicQ n) = true → (s.fq (n / 2) (iicQ n)).hold.length < 4 →
    (s.unit (0xA0 + n)).skip = false → ∀ (b : IicBus) data, let r := s.fqTake (n / 2) (iicQ n)
    let i := r.1.item
    let t := r.2.setUnit (0xA0 + n) { s.unit (0xA0 + n) with inPacket := true }
    (i / 2 ^ 13 % 8 = 2 → r.1.last = false → let u := (t.setUnit (0xA0 + n) { t.unit (0xA0 + n) with bus := true }).emit (.i2c n 2 (i % 256))
      (b = .ok → exec (.i2cCommand n b data) s = .next (s.finished u)) ∧
      (b = .nack → exec (.i2cCommand n b data) s = .next (s.finished (u.iicEnd n 2 true))) ∧
      (b = .lost → exec (.i2cCommand n b data) s = .next (s.finished (u.iicEnd n 4 true))) ∧
      (b = .error → exec (.i2cCommand n b data) s = .next (s.finished (u.iicEnd n 5 true)))) ∧
    (i / 2 ^ 13 % 8 = 0 → (s.unit (0xA0 + n)).inPacket = true → (s.unit (0xA0 + n)).bus = true → b = .ok →
      exec (.i2cCommand n b data) s = .next (s.finished (if r.1.last then (t.emit (.i2c n 0 (i % 256))).iicEnd n 1 false else t.emit (.i2c n 0 (i % 256))))) ∧
    (i / 2 ^ 13 % 8 = 0 → (s.unit (0xA0 + n)).inPacket = false → exec (.i2cCommand n b data) s = .next (s.finished (t.iicEnd n 7 (!r.1.last))))) ∧
  (s.get (rIIC_TIME n) fIIC_TIME_timeout ≠ 0 → let t := s.inc (rIIC_CNT_TIMEOUT n)
    ((t.unit (0xA0 + n)).inPacket = true → exec (.i2cSclTimeout n) s = .next (s.finished (t.iicEnd n 6 true))) ∧
    ((t.unit (0xA0 + n)).inPacket = false → exec (.i2cSclTimeout n) s = .next (s.finished (t.irq (0xA0 + n) 4)))) ∧
  (∀ q v, s.accepts q (rIIC_CMD n) v → (bitOf v 0 = true → bitOf v 1 = false → (s.unit (0xA0 + n)).bus = false → let t := s.emit (.i2c n 5 0)
      (t.inputLevel (n / 2) (0x30 + 2 * (n % 2) + 1) true = true → exec (.i2cBusClear q n v) s = .next (s.finished (t.wrote q 0))) ∧
      (t.inputLevel (n / 2) (0x30 + 2 * (n % 2) + 1) true = false → exec (.i2cBusClear q n v) s = .next (s.finished
        ((((t.inc (rIIC_CNT_BUS_ERR n)).irq (0xA0 + n) 4).unitFault (0xA0 + n)).wrote q 0)))) ∧
    (bitOf v 0 = false → bitOf v 1 = true → (s.unit (0xA0 + n)).bus = true → exec (.i2cRelease q n v) s = .next (s.finished
      (((s.setUnit (0xA0 + n) { s.unit (0xA0 + n) with bus := false }).emit (.i2c n 3 0)).wrote q 0)))) ∧
  (s.flag (rIIC_CFG n) fIIC_CFG_target_en = true → (s.unit (0xA0 + n)).addressed = true → ∀ byte, let x := s.fq (n / 2) (iicQ n)
    (x.hold = [] → x.credits ≠ 0 → exec (.i2cTargetByte n (.written byte)) s = .next (s.finished
      (((s.setUnit (0xA0 + n) { s.unit (0xA0 + n) with stretch := 0 }).unitItem (0xA0 + n) (byte % 256)).emit (.i2c n 1 0)))) ∧
    (x.credits = 0 → s.get (rIIC_CFG n) fIIC_CFG_stretch_limit ≠ 0 → exec (.i2cTargetByte n (.written byte)) s = .next (s.finished
      (s.setUnit (0xA0 + n) { s.unit (0xA0 + n) with stretch := 1 })))) ∧
  ((s.unit (0xA0 + n)).stretch = 1 → exec (.i2cStretchLimit n) s = .next (s.finished
    ((((s.setUnit (0xA0 + n) { s.unit (0xA0 + n) with stretch := 0 }).inc (rIIC_CNT_T_OVERRUN n)).unitFault (0xA0 + n)).emit (.i2c n 4 0)))) ∧
  (s.flag (rIIC_CFG n) fIIC_CFG_target_en = true → let t := s.unitRelease (0xA0 + n) true
    let u := t.setUnit (0xA0 + n) { t.unit (0xA0 + n) with addressed := false, stretch := 0 }
    exec (.i2cTargetStop n) s = .next (s.finished (if (s.unit (0xA0 + n)).pend.isSome then u.irq (0xA0 + n) 2 else u)))

/-- CAN controllers that are neither bus-off nor recovering, while the field island runs (R365 to R373). A packet whose buffer is free is loaded and
made pending, or dropped and counted where it is refused; one for no free buffer waits. The pending buffer that wins is put on the bus of a
controller that takes part and sends (with no injected error armed and no loopback), an FD frame with ESI recessive while error passive. Success
frees its buffer with result 1, is counted and lowers TEC (here without delay measurement and own reception). A frame of another node that a
controller hears goes to the filters, an FD frame where FD is off is a form error. With no filter enabled an extended classic frame goes to the FIFO
or is counted, as FILT_CFG says. CAN errors, aborts and recovery, while the field island runs (R360, R369, R370, R374 to R377). A bus error that the
controller hears, with no frame of its own on the bus, counts and shows its kind, and adds 1 or 8 to REC as it is charged; one while its frame is
sent adds 8 to TEC and the frame waits again, without one-shot. A recessive res bit with pex_en takes the controller off the bus. Lost arbitration
is counted and the frame waits again. CAN_ABORT frees a pending buffer with result 4 and marks one on the bus. CAN_RECOVER starts from bus-off and
does nothing else elsewhere. The end of recovery leaves both error counts at 0, and an enabled controller taking part. 11 recessive bits let an
enabled controller that is neither bus-off nor recovering take part, and count while it recovers. -/
def Obligations.CanControllersAct : Prop :=
 (∀ (s : State) (n : Fin 8), s.fieldRuns = true → s.canState n ≤ 1 →
  (∀ items, s.enabled (0x90 + n) = true → s.flag (rCANF_CFG n) fCANF_CFG_listen_only = false → s.fqOn (n / 2) (canQ n) = true →
    canPacket (s.fq (n / 2) (canQ n)).tx = some items → let t := s.canTake items.length (n / 2) (canQ n)
    (∀ b : Fin 3, s.canSlot n (ctlBuf (nthD items 1 (3 * 2 ^ 30))) = some b.val →
      (canRefused (s.flag (rCANF_CFG n) fCANF_CFG_fd_en) items = false → exec (.canTxLoad n) s = .next (s.finished
        (let u := t.setCan n { t.can n with waiting := false };
         (u.setCan n ((u.can n).setBuf b ⟨nthD items 0 0, nthD items 1 0, items.drop 2⟩)).setReg (rCANF_TXB n b)
           (toW (2 ^ 30 + nthD items 1 0 % 2 ^ 16))))) ∧
      (canRefused (s.flag (rCANF_CFG n) fCANF_CFG_fd_en) items = true → exec (.canTxLoad n) s = .next (s.finished
        (((t.setCan n { t.can n with waiting := false }).inc (rCANF_CNT_TX_BAD n)).canFault n)))) ∧
    (s.canSlot n (ctlBuf (nthD items 1 (3 * 2 ^ 30))) = none →
      exec (.canTxLoad n) s = .next (s.finished (s.setCan n { s.can n with waiting := true })))) ∧
  (∀ b, s.enabled (0x90 + n) = true → (s.can n).joined = true → s.flag (rCANF_CFG n) fCANF_CFG_listen_only = false → s.canOnBus n = none →
    s.canPick n = some b → s.armed (0x90 + n) 0 = none →
    let t := (s.put (rCANF_TXB n b) fCANF_TXB_state 2).incSat (rCANF_TXB n b) fCANF_TXB_attempts
    let f := (t.can n).buf b
    t.flag (rCANF_EXP n) fCANF_EXP_loopback = false → exec (.canTxChoose n) s = .next (s.finished
      (t.emit (.can n f.hdr f.ctl (canFdf f.hdr && t.canState n = 1) f.data)))) ∧
  (∀ b age measured, s.canOnBus n = some b → let t := (s.canFree n b 1).inc (rCANF_CNT_TX_FRAMES n)
    let u := t.canCounts n (t.canTec n - 1) (t.canRec n)
    u.flag (rCANF_TDC n) fCANF_TDC_tdc_en = false → u.flag (rCANF_EXP n) fCANF_EXP_rx_own = false →
    exec (.canTxDone n age measured) s = .next (s.finished (u.canIdle n))) ∧
  (∀ hdr dlc brs esi data age, s.canHears n = true → s.flag (rCANF_EXP n) fCANF_EXP_loopback = false →
    s.routed (n / 2) (0x34 + 2 * (n % 2) + 1) = true →
    (canFdf hdr = false → exec (.canRxFrame n hdr dlc brs esi data age) s = .next (s.finished
      (((s.recGood n).canPass n hdr dlc brs esi data age).canIdle n))) ∧
    (canFdf hdr = true → s.flag (rCANF_CFG n) fCANF_CFG_fd_en = false → exec (.canRxFrame n hdr dlc brs esi data age) s = .next (s.finished
      (s.canError n 2 (rCANF_CNT_FORM_ERR n) false false .plain)))) ∧
  (∀ hdr dlc data age, canFdf hdr = false → canIde hdr = true → hdr < 2 ^ 32 →
    (∀ k : Fin 32, s.get (rCANF_FILT_ID n k) fCANF_FILT_ID_enable = 0) →
    (s.flag (rCANF_FILT_CFG n) fCANF_FILT_CFG_default = false →
      s.canPass n hdr dlc false false data age = s.inc (rCANF_CNT_FILTERED n)) ∧
    (s.flag (rCANF_FILT_CFG n) fCANF_FILT_CFG_default = true → s.canPass n hdr dlc false false data age =
      s.canStore n hdr (dlc % 16 * 2 ^ 16 + 2 ^ 26) data (canLen false (canRtr hdr) (dlc % 16)) age))) ∧
 (∀ (s : State) (n : Fin 8), s.fieldRuns = true →
  (s.canHears n = true → ∀ dataPhase, ∀ e ∈ [(CanErr.stuff, 1, rCANF_CNT_STUFF_ERR n), (.form, 2, rCANF_CNT_FORM_ERR n), (.ack, 3, rCANF_CNT_ACK_ERR n),
      (.bitRec, 4, rCANF_CNT_BIT_ERR n), (.bitDom, 5, rCANF_CNT_BIT_ERR n), (.crc, 6, rCANF_CNT_CRC_ERR n)],
    let t := ((s.inc e.2.2).put (rCANF_ERR n) fCANF_ERR_lec e.2.1).put (rCANF_ERR n) fCANF_ERR_lec_data (b2n dataPhase)
    (s.canOnBus n = none → ∀ tx,
      exec (.canBusError n e.1 dataPhase tx .none) s = .next (s.finished (t.canIdle n)) ∧
      exec (.canBusError n e.1 dataPhase tx .plain) s = .next (s.finished ((t.canCounts n (t.canTec n) (t.canRec n + 1)).canIdle n)) ∧
      exec (.canBusError n e.1 dataPhase tx .more) s = .next (s.finished ((t.canCounts n (t.canTec n) (t.canRec n + 8)).canIdle n))) ∧
    (∀ b, (s.canOnBus n).isSome = true → t.canOnBus n = some b → t.canBufState n b = 2 → t.flag (rCANF_CFG n) fCANF_CFG_one_shot = false → let u := t.put (rCANF_TXB n b) fCANF_TXB_state 1
      exec (.canBusError n e.1 dataPhase true .plain) s = .next (s.finished ((u.canCounts n (u.canTec n + 8) (u.canRec n)).canIdle n)))) ∧
  (s.canHears n = true → s.flag (rCANF_CFG n) fCANF_CFG_pex_en = true → ∀ dataPhase tx charge, exec (.canBusError n .res dataPhase tx charge) s =
    .next (s.finished ((s.inc (rCANF_CNT_PEX n)).setCan n { s.can n with joined := false }))) ∧
  (∀ b, s.canOnBus n = some b → let t := s.inc (rCANF_CNT_ARB_LOST n)
    t.canBufState n b = 2 → t.flag (rCANF_CFG n) fCANF_CFG_one_shot = false → exec (.canArbLost n) s =
    .next (s.finished ((t.put (rCANF_TXB n b) fCANF_TXB_state 1).canIdle n))) ∧
  (∀ q v, s.accepts q (rCANF_CMD n) v → (∀ b : Fin 3, bitOf v b = true → (∀ d : Fin 3, d ≠ b → bitOf v d = false) → bitOf v 8 = false →
    (s.canBufState n b = 1 → exec (.canAbort q n v) s = .next (s.finished ((s.canFree n b 4).wrote q 0))) ∧
    (s.canBufState n b = 2 → exec (.canAbort q n v) s = .next (s.finished ((s.put (rCANF_TXB n b) fCANF_TXB_state 3).wrote q 0))) ∧
    (s.canBufState n b = 0 → exec (.canAbort q n v) s = .next (s.finished (s.wrote q 0)))) ∧
    ((∀ d : Fin 3, bitOf v d = false) → bitOf v 8 = true →
    (s.canState n = 2 → exec (.canRecover q n v) s = .next (s.finished
      ((((s.put (rCANF_ERR n) fCANF_ERR_state 3).put (rCANF_STATUS n) fCANF_STATUS_recover_count 0).irq (0x90 + n) 5).wrote q 0))) ∧
    (s.canState n ≠ 2 → exec (.canRecover q n v) s = .next (s.finished (s.wrote q 0))))) ∧
  (s.canState n = 3 → ∃ T : State, exec (.canRecoveryComplete n) s = .next (s.finished T) ∧
    T.canState n = 0 ∧ T.canTec n = 0 ∧ T.canRec n = 0 ∧ (T.can n).joined = s.flag (rPG_CTRL (0x90 + n)) fPG_CTRL_enable) ∧
  (s.canState n ≤ 1 → s.flag (rPG_CTRL (0x90 + n)) fPG_CTRL_enable = true →
    exec (.canBusIntegrate n) s = .next (s.finished (s.setCan n { s.can n with joined := true }))) ∧
  (s.canState n = 3 → s.get (rCANF_STATUS n) fCANF_STATUS_recover_count < 127 → exec (.canBusIntegrate n) s = .next (s.finished
    (s.put (rCANF_STATUS n) fCANF_STATUS_recover_count (s.get (rCANF_STATUS n) fCANF_STATUS_recover_count + 1)))))

/-- Clove instructions in a live engine with no injected error armed (R386, R388, R389, R394, R400, R402). The command of an instruction, at a channel
that runs and has that opcode at its pc, does the pin actions and its first turn; an instruction done with that turn goes on at its address, its
delay taken; one that waits or stops leaves the channel so. A stalled GIVE that finds room, EDGE that recognises its edge or runs out of time, and
shift that recognises its last clock edge goes on so. A reserved opcode stops the channel with an error, counted, with interrupt and fault. The
first turns of Clove instructions (R390 to R404): where JUMP, COUNT of the counter, a PAUSE of one turn and TEST of a pin or of the counter go; what
EXCH of SO and SI, LOADC of the counter, TAKE to the counter of a waiting item, GIVE of SI with room, MATCH of SI and SIGNAL without its interrupt
change; that HALT without release leaves the channel idle with its interrupt, and that a clocked SHIN, a GIVE without room and an EDGE without
timeout leave it waiting; and BANKPT with no swap pending goes on. -/
def Obligations.CloveInstructionsExecute : Prop :=
 (∀ (s : State) (e : Fin 4) (k : Fin 16) (smp : List Bool), s.clvLive e = true →
  (∀ i lo hi w, (i, lo, hi) ∈ [(Instr.jump e k, 0x00, 0x00), (.count e k, 0x01, 0x01), (.pause e k, 0x02, 0x02), (.halt e k, 0x03, 0x03),
      (.shout e k, 0x04, 0x04), (.shin e k smp, 0x05, 0x05), (.exch e k, 0x06, 0x06), (.loadc e k, 0x07, 0x07), (.test e k, 0x08, 0x0F),
      (.take e k, 0x10, 0x10), (.give e k, 0x11, 0x11), (.cloveMatch e k, 0x12, 0x12), (.edge e k, 0x13, 0x13), (.signal e k, 0x14, 0x14),
      (.bankpt e k, 0x15, 0x15)] →
    let x := s.clv e k
    let given := if i = .shin e k smp then smp else []
    x.state = 1 → x.instr = none → s.armed (0xA8 + e) 0 = none → s.prog e x.bank x.pc = w → lo ≤ natBits w.toNat 31 27 → natBits w.toNat 31 27 ≤ hi →
    let t := (s.setClv e k { x with instr := some w, turn := 0, delay := 0 }).clvActions e k w
    (∀ pc u, t.clvOwn e k w 0 given = (some pc, u) → exec i s = .next (s.finished (u.clvAfter e k w (some pc) true))) ∧
    (∀ u, t.clvOwn e k w 0 given = (none, u) → (u.clv e k).state ≠ 1 → exec i s = .next (s.finished (u.clvAfter e k w none true)))) ∧
  (∀ w, let x := s.clv e k
    x.state = 2 → x.instr = some w → x.delay = 0 → ∀ pc u, s.clvOwn e k w x.turn [] = (some pc, u) → let go := u.clvAfter e k w (some pc) true
    (natBits w.toNat 31 27 = 0x11 → s.clvRoom e k = true → exec (.cloveGiveRoom e k) s = .next (s.finished go)) ∧
    (natBits w.toNat 31 27 = 0x13 → x.edges ≠ 0 → bitOf w 4 = false → ∀ waited, exec (.cloveEdgeSeen e k waited) s = .next (s.finished go)) ∧
    (natBits w.toNat 31 27 = 0x04 ∨ natBits w.toNat 31 27 = 0x05 → x.edges ≠ 0 → exec (.cloveShiftComplete e k) s = .next (s.finished go))) ∧
  (∀ w, let x := s.clv e k
    x.state = 2 → x.instr = some w → x.delay = 0 → natBits w.toNat 31 27 = 0x13 → x.edges = 0 → bitOf w 4 = true →
    ∀ pc u, (s.setClvCounter e k 1).clvOwn e k w x.turn [] = (some pc, u) →
      exec (.cloveEdgeTimeout e k) s = .next (s.finished (u.clvAfter e k w (some pc) true))) ∧
  (let x := s.clv e k;
    x.state = 1 → x.instr = none → s.armed (0xA8 + e) 0 = none → 0x16 ≤ natBits (s.prog e x.bank x.pc).toNat 31 27 →
    exec (.cloveReservedOpcode e k) s = .next (s.finished ((((s.clvStop e k 3).inc (rCLOV_CNT_ERROR e)).irq (0xA8 + e) 4).cloveFault e)))) ∧
 (∀ (s : State) (e : Fin 4) (k : Fin 16) (w : Word) (smp : List Bool),
  let x := s.clv e k
  let arg := w.toNat % 4096
  let next := (x.pc + 1) % 1024
  let target := arg % 1024
  (natBits w.toNat 31 27 = 0x00 → s.clvOwn e k w 0 smp = (some target, s)) ∧
  (natBits w.toNat 31 27 = 0x01 → arg / 1024 = 0 →
    s.clvOwn e k w 0 smp = (some (if (s.clvCounter e k + 65535) % 65536 ≠ 0 then target else next),
      s.setClvCounter e k ((s.clvCounter e k + 65535) % 65536))) ∧
  (natBits w.toNat 31 27 = 0x02 → arg ≤ 1 → s.clvOwn e k w 0 smp = (some next, s)) ∧
  (natBits w.toNat 31 27 = 0x03 → bitOf w 0 = false → s.clvOwn e k w 0 smp = (none, (s.clvStop e k 1).irq (0xA8 + e) 3)) ∧
  (natBits w.toNat 31 27 = 0x05 → bitOf w 11 = true →
    s.clvOwn e k w 0 smp = (none, s.setClv e k { x with left := natBits w.toNat 4 0 + 1, edges := 0, state := 2 })) ∧
  (natBits w.toNat 31 27 = 0x06 → arg % 8 = 0 → s.clvOwn e k w 0 smp = (some next, (s.setClvSo e k (s.clvSi e k)).setClvSi e k (s.clvSo e k))) ∧
  (natBits w.toNat 31 27 = 0x07 → arg / 1024 = 0 → s.clvOwn e k w 0 smp = (some next, s.setClvCounter e k (arg % 1024))) ∧
  (natBits w.toNat 31 27 = 0x08 → s.clvOwn e k w 0 smp = (some (if s.clvLevel e k (arg / 1024) then target else next), s)) ∧
  (natBits w.toNat 31 27 = 0x0C → arg / 1024 = 0 → s.clvOwn e k w 0 smp = (some (if s.clvCounter e k = 0 then target else next), s)) ∧
  (natBits w.toNat 31 27 = 0x10 → arg % 4 = 1 → ∀ i l, x.txq = i :: l →
    s.clvOwn e k w 0 smp = (some next, (((s.setClv e k { x with txq := l, idle := false, ended := i.2 }).setClvCounter e k i.1).clvRefill 16 e k))) ∧
  (natBits w.toNat 31 27 = 0x11 → s.clvRoom e k = false → s.clvOwn e k w 0 smp = (none, s.setClv e k { x with state := 2 })) ∧
  (natBits w.toNat 31 27 = 0x11 → s.clvRoom e k = true → arg % 4 = 0 → bitOf w 8 = false → s.clvOwn e k w 0 smp =
    (some next, s.fqProduce e (16 + k) ((s.clvSi e k).toNat / 2 ^ natBits w.toNat 7 3 % 2 ^ (8 * s.fqWidth e (16 + k))) (bitOf w 2))) ∧
  (natBits w.toNat 31 27 = 0x12 → arg % 4 = 3 →
    s.clvOwn e k w 0 smp = (some next, s.setClv e k { x with matched := decide ((s.clvSi e k).toNat % 65536 = s.clvScratch0 e k) })) ∧
  (natBits w.toNat 31 27 = 0x13 → bitOf w 4 = false → let u := s.setClv e k { x with state := 2 }
    s.clvOwn e k w 0 smp = (none, u.setClv e k { u.clv e k with edges := 0 })) ∧
  (natBits w.toNat 31 27 = 0x14 → bitOf (s.reg (rCLOV_EVENT_EN e)) (arg % 16) = false →
    s.clvOwn e k w 0 smp = (some next, s.setReg (rCLOV_EVENT e) (s.reg (rCLOV_EVENT e) ||| toW (2 ^ (arg % 16))))) ∧
  (natBits w.toNat 31 27 = 0x15 → s.swapPending e = false → s.clvOwn e k w 0 smp = (some next, s)))

/-- R390, R394: in a live engine, at a running channel with the instruction at its pc, a SHOUT or SHIN without a clock pin shifts n bits, most or least
significant bit first; when all are done the channel runs on at the next address with a SHOUT's SO shifted by n and a SHIN's samples shifted into
SI. A PAUSE runs on at the next address with SO and SI as they were. -/
def Obligations.TimedInstructionsComplete : Prop := ∀ (s : State) (e : Fin 4) (k : Fin 16) (w : Word),
  let x := s.clv e k
  let n := natBits w.toNat 4 0 + 1
  s.clvLive e = true → x.state = 1 → x.instr = none → s.armed (0xA8 + e) 0 = none → s.prog e x.bank x.pc = w → x.moves = false →
  (natBits w.toNat 31 27 = 0x04 → bitOf w 11 = false → ∃ T : State, exec (.shout e k) s = .next (s.finished T) ∧
    (T.clv e k).state = 1 ∧ (T.clv e k).pc = (x.pc + 1) % 1024 ∧ T.clvSi e k = s.clvSi e k ∧
    T.clvSo e k = if bitOf w 7 then s.clvSo e k >>> n else s.clvSo e k <<< n) ∧
  (natBits w.toNat 31 27 = 0x05 → bitOf w 11 = false → ∀ smp : List Bool, smp.length = n → ∃ T : State,
    exec (.shin e k smp) s = .next (s.finished T) ∧ (T.clv e k).state = 1 ∧ (T.clv e k).pc = (x.pc + 1) % 1024 ∧ T.clvSo e k = s.clvSo e k ∧
    T.clvSi e k = smp.foldl (fun (si : Word) b => if bitOf w 7 then si >>> 1 ||| toW (b2n b * 2 ^ 31) else si <<< 1 ||| toW (b2n b)) (s.clvSi e k)) ∧
  (natBits w.toNat 31 27 = 0x02 → ∃ T : State, exec (.pause e k) s = .next (s.finished T) ∧ (T.clv e k).state = 1 ∧
    (T.clv e k).pc = (x.pc + 1) % 1024 ∧ T.clvSi e k = s.clvSi e k ∧ T.clvSo e k = s.clvSo e k)

/-- The commands of a Clove page (R382, R409 to R412, R415). A start that names one channel takes it, idle, of the rotation and with pins of its own, to
running at its entry; another is refused with config_warning. A stop makes a busy channel idle. A swap is refused with config_warning while one is
pending; with every channel idle it changes the bank at once. A writer that may write every engine starts the selected channels now, arms or disarms
a start. An armed start is done when the trigger of its event unit comes. Program memory takes words for a bank that no channel uses, and refuses
those for another, counted, with interrupt and fault. In step mode a step is one turn of the channel; in no other. The queue mover (R407, R408),
while the field island runs and the queue is on: with a side enabled, without fault, and its ring not empty, it moves the oldest word of the receive
queue to memory, or an entry of memory, of 1 to 8 octets, to a transmit queue with room, and its head goes on. A translation fault of the receive
side stops it with its fault bit and the interrupt. A write of 1 to that bit, the channel busy and nothing else changed, clears it, and the side
tries its entry again. The queue of a channel given up in a join stays as it is (R406). -/
def Obligations.ClovePagesAndMover : Prop :=
 (∀ (s : State) (q : Req) (e : Fin 4) (k : Fin 16),
  (s.accepts q (rCLOV_START e) (toW (2 ^ k.val)) →
    ((s.clv e k).state = 0 → k < s.rotation e → s.givenUp e k = false → s.clvOverlap e k = false →
      exec (.clovStart q e (toW (2 ^ k.val))) s = .next (s.finished
        ((((s.setClv e k { state := 1, pc := s.clvEntry e k, bank := s.engineBank e, pins := (s.clv e k).pins }).clvEmpty e k).clvRefill 16 e k).wrote q 0))) ∧
    ((s.clv e k).state ≠ 0 ∨ s.rotation e ≤ k ∨ s.givenUp e k = true ∨ s.clvOverlap e k = true →
      exec (.clovStart q e (toW (2 ^ k.val))) s = .next (s.finished ((s.warn (0xA8 + e)).wrote q 0)))) ∧
  (s.accepts q (rCLOV_STOP e) (toW (2 ^ k.val)) → (s.clv e k).state ≠ 0 →
    exec (.clovStop q e (toW (2 ^ k.val))) s = .next (s.finished ((s.clvStop e k 2).wrote q 0))) ∧
  (s.accepts q (rCLOV_CMD e) 1 → s.swapPending e = true → exec (.clovSwap q e 1) s = .next (s.finished ((s.warn (0xA8 + e)).wrote q 0))) ∧
  (s.accepts q (rCLOV_CMD e) 1 → s.swapPending e = false → s.cloveIdle e = true → ∃ T : State,
    exec (.clovSwap q e 1) s = .next (s.finished (T.wrote q 0)) ∧ T.engineBank e = 1 - s.engineBank e ∧ T.swapPending e = false ∧
    (T.clv e k).bank = 1 - s.engineBank e) ∧
  ((∀ g : Fin 4, s.claimAllows (44 + g) q = true) → ∀ v, s.accepts q (rCLOV_SYNC_CMD 0) v →
    let t := s.put (rCLOV_SYNC_CMD 0) fCLOV_SYNC_CMD_unit (fldOf v fCLOV_SYNC_CMD_unit)
    (fldOf v fCLOV_SYNC_CMD_disarm = 0 → fldOf v fCLOV_SYNC_CMD_arm = 0 → fldOf v fCLOV_SYNC_CMD_now = 1 →
      exec (.clovSyncNow q v) s = .next (s.finished (t.clvSyncStart.wrote q 0))) ∧
    (fldOf v fCLOV_SYNC_CMD_disarm = 0 → fldOf v fCLOV_SYNC_CMD_arm = 1 → fldOf v fCLOV_SYNC_CMD_now = 0 →
      exec (.clovSyncArm q v) s = .next (s.finished (((t.put (rCLOV_SYNC_STATUS 0) fCLOV_SYNC_STATUS_armed 1).put (rCLOV_SYNC_STATUS 0)
        fCLOV_SYNC_STATUS_unit (fldOf v fCLOV_SYNC_CMD_unit)).wrote q 0))) ∧
    (fldOf v fCLOV_SYNC_CMD_disarm = 1 → fldOf v fCLOV_SYNC_CMD_arm = 0 → fldOf v fCLOV_SYNC_CMD_now = 0 →
      exec (.clovSyncDisarm q v) s = .next (s.finished ((t.put (rCLOV_SYNC_STATUS 0) fCLOV_SYNC_STATUS_armed 0).wrote q 0)))) ∧
  (∀ u : Fin 16, s.servo.trigs.contains (u.val, true) = true → s.flag (rCLOV_SYNC_STATUS 0) fCLOV_SYNC_STATUS_armed = true →
    s.get (rCLOV_SYNC_STATUS 0) fCLOV_SYNC_STATUS_unit = u.val →
    let t := { s with servo := { s.servo with trigs := s.servo.trigs.filter (· != (u.val, true)) } }
    exec (.clovSyncTrigger u) s = .next (s.finished ((t.clvSyncStart.put (rCLOV_SYNC_STATUS 0) fCLOV_SYNC_STATUS_armed 0).irq 0xA8 7))) ∧
  (∀ v, let b := s.get (rCLOV_PMEM_ADDR e) fCLOV_PMEM_ADDR_bank
    let a := s.get (rCLOV_PMEM_ADDR e) fCLOV_PMEM_ADDR_word
    (s.bankUsed e b = false → s.accepts q (rCLOV_PMEM_DATA e) v → exec (.clovPmemData q e v) s = .next (s.finished ((s.setProg e b a v).wrote q 0))) ∧
    (s.bankUsed e b = false → s.accepts q (rCLOV_PMEM_DATA_INC e) v → exec (.clovPmemDataInc q e v) s = .next (s.finished
      (((s.setProg e b a v).put (rCLOV_PMEM_ADDR e) fCLOV_PMEM_ADDR_word ((a + 1) % 1024)).wrote q 0))) ∧
    (s.bankUsed e b = true → s.accepts q (rCLOV_PMEM_DATA e) v → exec (.clovPmemData q e v) s = .next (s.finished
      ((((s.inc (rCLOV_CNT_REFUSED e)).irq (0xA8 + e) 4).cloveFault e).wrote q 0)))) ∧
  (s.accepts q (rCLOV_STEP e) (toW (2 ^ k.val)) → s.enabled (0xA8 + e) = true →
    (s.flag (rCLOV_EXP e) fCLOV_EXP_step_mode = true → exec (.clovStep q e (toW (2 ^ k.val))) s = .next (s.finished ((s.clvTurn e k [] false).wrote q 0))) ∧
    (s.flag (rCLOV_EXP e) fCLOV_EXP_step_mode = false → exec (.clovStep q e (toW (2 ^ k.val))) s = .next (s.finished (s.wrote q 0))))) ∧
 (∀ (s : State) (e : Fin 4) (k : Fin 16), s.fieldRuns = true → s.enabled (0xA8 + e) = true → s.fqOn e (16 + k) = true →
  let cfg := rCLOV_MV_CFG e k
  let size := 2 ^ s.get cfg fCLOV_MV_CFG_size
  (s.givenUp e k = false → s.flag cfg fCLOV_MV_CFG_rx_en = true → s.flag cfg fCLOV_MV_CFG_rx_fault = false → s.rxMode e (16 + k) = 2 →
    s.get (rCLOV_MV_RX e k) fCLOV_MV_RX_head ≠ s.get (rCLOV_MV_RX e k) fCLOV_MV_RX_tail → ∀ w rest, (s.fq e (16 + k)).rx = w :: rest →
    let head := s.get (rCLOV_MV_RX e k) fCLOV_MV_RX_head
    let a := (s.reg (rCLOV_MV_BASE e k)).toNat / 16 * 16 + 16 * (head % size)
    (∀ f l t, s.xlate (moverOf e) a 16 .write = ((some f, l), t) →
      exec (.moverTransfer e k false) s = .next (s.finished ((t.put cfg fCLOV_MV_CFG_rx_fault 1).irq (0xA8 + e) 6))) ∧
    (∀ l t u, s.xlate (moverOf e) a 16 .write = ((none, l), t) →
      t.writePieces (moverOf e) l (leBytes 8 w.data ++ leBytes 8 (w.valid + 16 * b2n w.last)) = (0, u) →
      exec (.moverTransfer e k false) s = .next (s.finished (((u.put (rCLOV_MV_RX e k) fCLOV_MV_RX_head ((head + 1) % 65536)).setFq e (16 + k)
        { u.fq e (16 + k) with rx := rest }).fqGrant e (16 + k))))) ∧
  (s.givenUp e k = false → s.flag cfg fCLOV_MV_CFG_tx_en = true → s.flag cfg fCLOV_MV_CFG_tx_fault = false → s.txMode e (16 + k) = 2 →
    s.get (rCLOV_MV_TX e k) fCLOV_MV_RX_head ≠ s.get (rCLOV_MV_TX e k) fCLOV_MV_RX_tail → (s.fq e (16 + k)).tx.length < s.txDepth e (16 + k) →
    let head := s.get (rCLOV_MV_TX e k) fCLOV_MV_RX_head
    let a := (s.reg (rCLOV_MV_BASE e k)).toNat / 16 * 16 + 16 * size + 16 * (head % size)
    ∀ l t bs u, s.xlate (moverOf e) a 16 .read = ((none, l), t) → t.readPieces (moverOf e) [] l = (0, bs, u) →
      let n := leNat (slice bs 8 1)
      1 ≤ n % 16 → n % 16 ≤ 8 → let v := u.put (rCLOV_MV_TX e k) fCLOV_MV_TX_head ((head + 1) % 65536)
      exec (.moverTransfer e k true) s = .next (s.finished ((v.setFq e (16 + k)
        { v.fq e (16 + k) with tx := (v.fq e (16 + k)).tx ++ [⟨leNat (bs.take 8), n % 16, n.testBit 4⟩] }).fqFed e (16 + k)))) ∧
  (∀ q v, s.accepts q cfg v → (s.clv e k).state ≠ 0 → (v &&& ~~~maskOf 29 28) = (s.reg cfg &&& ~~~maskOf 29 28) →
    fldOf v fCLOV_MV_CFG_rx_fault = 1 → s.flag cfg fCLOV_MV_CFG_rx_fault = true → fldOf v fCLOV_MV_CFG_tx_fault = 0 →
    exec (.moverFaultClear q e k v) s = .next (s.finished (((s.store cfg ((s.reg cfg &&& ~~~maskOf 29 28) ||| (v &&& maskOf 29 28))).moverMove
      e k false).wrote q 0))) ∧
  (s.givenUp e k = true → ∀ tx, exec (.moverTransfer e k tx) s = .next (s.finished s)))

/-- Ethernet reception (R416 to R424, R428). A good frame that a rule takes goes to the rule's flow as segments with its reference time (at the
management MAC: no event message of the tunnel); one that no rule takes is counted with irq 4, one not for this station only counted; a frame that
the FIFO has no room for is lost with irq 4 and a fault; a PAUSE that is acted on sets or clears pause_active. In-band status follows the line.
Freeze copies the counters, clear also sets them to 0. Ethernet transmission and management (R422, R423, R425, R426, R428). A segment whose MAC has
room for it, or no packet that will leave, is taken, and waits otherwise; a segment that is whole joins the transmit queue, one that fits no
assembly is discarded. The transmitter sends the frame at the front with its stamp; the end of a PAUSE clears pause_active; a collision backs off,
at most 1 after the first, and a late one drops the frame; the back-off ends. A management access starts and ends; a pop of the stamps gives the
oldest, or zeros. -/
def Obligations.MacsReceiveAndSend : Prop :=
 (∀ (s : State) (m : Fin 5), s.enabled (0x70 + m) = true →
  (∀ (body : List Byte) age, let l := body ++ leBytes 4 (fcs body).toNat
    s.flag (rxx_CFG m) fxx_CFG_rx_en = true → m = 0 ∨ s.routed (m - 1) 0x3C = true → s.reg (rxx_WAKE_CFG m) = 0 → s.fieldRuns = true →
    64 ≤ l.length → l.length ≤ s.get (rxx_CFG m) fxx_CFG_max_frame →
    let t := s.macRxCount m l false false false
    ((if m = 0 then 32768 else 4096) < t.macFifo m + l.length → exec (.macFrameReceived m l false false age none) s = .next (s.finished
      (((t.macCnt m 18 1).irq (0x70 + m) 4).macFault m))) ∧
    (t.macFifo m + l.length ≤ (if m = 0 then 32768 else 4096) → t.armed (0x70 + m) 0 = none →
      (m = 0 → isPause l = true → s.flag (rxx_CFG 0) fxx_CFG_pause_en = true → exec (.macFrameReceived m l false false age none) s =
        .next (s.finished (t.macPause (beNat (slice l 16 2))))) ∧
      (isPause l = false → t.macAccepts m l = false → exec (.macFrameReceived m l false false age none) s = .next (s.finished t)) ∧
      (isPause l = false → t.macAccepts m l = true → (m = 0 → bitOf (t.reg rTSU_TUNNEL) 0 = false ∧ isPtp body 9 = false) →
        (t.macFlow m l = none → exec (.macFrameReceived m l false false age none) s = .next (s.finished ((t.macCnt m 19 1).irq (0x70 + m) 4))) ∧
        (∀ f, t.macFlow m l = some f → t.flag (rxx_EXP m) fxx_EXP_keep_fcs = false →
          let base := t.base (natBits (t.reg rTSU_BASE_SEL).toNat (2 * m + 1) (2 * m))
          exec (.macFrameReceived m l false false age none) s = .next (s.finished
            (t.macSegments m f body false ((((base.total : Int) - age) * 10 - t.rxComp (4 + m)) / 10).toNat))))))
  ∧ (∀ n, n ≠ 0 → (s.macPause n).flag (rxx_STATUS 0) fxx_STATUS_pause_active = true ∧
    (s.macPause 0).flag (rxx_STATUS 0) fxx_STATUS_pause_active = false)
  ∧ (∀ st, s.flag (rxx_CFG 0) fxx_CFG_inband = true → s.enabled 0x70 = true →
    ∃ T : State, exec (.inbandStatusChange st) s = .next (s.finished T) ∧ T.get (rxx_STATUS 0) fxx_STATUS_link_up = st.val % 2 ∧
      T.get (rxx_STATUS 0) fxx_STATUS_link_speed = min 2 (st.val / 2 % 4) ∧
      T.get (rxx_STATUS 0) fxx_STATUS_half_duplex = b2n (st.val % 2 = 1 && st.val / 8 % 2 = 0))
  ∧ (∀ q v, s.accepts q (rxx_CNT_CMD m) v → bitOf v 0 = true →
    (bitOf v 1 = false → ∃ T : State, exec (.cntFreeze q m v) s = .next (s.finished (T.wrote q 0)) ∧
      (∀ i : Fin 40, T.reg (rxx_SNAP m i) = s.reg (rxx_CNT m i) ∧ T.reg (rxx_CNT m i) = s.reg (rxx_CNT m i))) ∧
    (bitOf v 1 = true → ∃ T : State, exec (.cntClear q m v) s = .next (s.finished (T.wrote q 0)) ∧
      (∀ i : Fin 40, T.reg (rxx_SNAP m i) = s.reg (rxx_CNT m i) ∧ T.reg (rxx_CNT m i) = 0)))) ∧
 (∀ (s : State) (m : Fin 5),
  (∀ d rest, s.fieldRuns = true → s.outbox 8 = d :: rest → s.enabled 0x70 = true →
    ((s.mac 0).txq = [] ∨ s.macHeld 0 + (d.frame.payload.length - 12) ≤ 16384 →
      exec (.macSegmentDeliver false) s = .next (s.finished ((s.setOutbox 8 rest).macSegment 0 d.frame))) ∧
    ((s.mac 0).txq ≠ [] → 16384 < s.macHeld 0 + (d.frame.payload.length - 12) → exec (.macSegmentDeliver false) s = .next (s.finished s))) ∧
  (∀ d rest (c : Fin 4), s.fieldRuns = true → s.outbox 9 = d :: rest → (d.held.map HeldCtx.queue).getD 0 = c → s.enabled (0x71 + c) = true →
    (s.mac (1 + c)).txq = [] ∨ s.macHeld (1 + c) + (d.frame.payload.length - 12) ≤ 4096 →
    exec (.macSegmentDeliver true) s = .next (s.finished ((s.setOutbox 9 rest).macSegment (1 + c) d.frame))) ∧
  (∀ f : Frame, 12 ≤ f.payload.length → (nthD f.payload 1 0).toNat.testBit 7 = true → (nthD f.payload 1 0).toNat.testBit 6 = true →
    (s.mac m).asm = [] → (f.payload.drop 12).length = beNat (slice f.payload 4 2) → ∃ x : MacTx, s.macSegment m f =
      s.setMac m { s.mac m with asm := [], txq := (s.mac m).txq ++ [x] } ∧ x.data = f.payload.drop 12) ∧
  (∀ f : Frame, 12 ≤ f.payload.length → (nthD f.payload 1 0).toNat.testBit 7 = false → (s.mac m).asm.find? (fun a => a.flow = f.flow) = none →
    s.macSegment m f = s.macTxDrop m) ∧
  (∀ f rest deferred, s.fieldRuns = true → s.enabled (0x70 + m) = true → s.flag (rxx_CFG m) fxx_CFG_tx_en = true → (s.mac m).backoff = none →
    (s.mac m).attempt = 0 → (m = 0 → s.flag (rxx_STATUS 0) fxx_STATUS_pause_active = false) → s.macCrs m = false → (s.mac m).txq = f :: rest →
    s.armed (0x70 + m) 0 = none → (lineOctets (s.flag (rxx_EXP m) fxx_EXP_tx_fcs_given) f.data).length ≤ s.get (rxx_CFG m) fxx_CFG_max_frame →
    let t := if f.stamp then (s.macPop m).macStamp m f.number else s.macPop m
    (m = 0 → exec (.macTxFrame m deferred) s = .next (s.finished ((t.followUp f.data).2.macLine m (t.followUp f.data).1))) ∧
    (m ≠ 0 → exec (.macTxFrame m deferred) s = .next (s.finished (if deferred then (t.macLine m f.data).macCnt m 28 1 else t.macLine m f.data)))) ∧
  exec .pauseEnd s = .next (s.finished (s.put (rxx_STATUS 0) fxx_STATUS_pause_active 0)) ∧
  (∀ c : Fin 4, s.fieldRuns = true → s.enabled (0x71 + c) = true → (s.mac (1 + c)).txq ≠ [] → (s.mac (1 + c)).backoff = none →
    s.flag (rxx_CFG (1 + c)) fxx_CFG_tx_en = true → let t := (s.macCnt (1 + c) 29 1).emit (.jam (1 + c))
    exec (.t1sCollision c true) s = .next (s.finished ((((t.macPop (1 + c)).macCnt (1 + c) 32 1).irq (0x71 + c) 5).macFault (1 + c))) ∧
    ((s.mac (1 + c)).attempt = 0 → t.get (rxx_EXP (1 + c)) fxx_EXP_attempt_limit ≠ 0 → ∃ T : State, exec (.t1sCollision c false) s = .next (s.finished T) ∧
      (T.mac (1 + c)).attempt = 1 ∧ ∃ r, (T.mac (1 + c)).backoff = some r ∧ r ≤ 1)) ∧
  (∀ c : Fin 4, exec (.t1sBackoffEnd c) s = .next (s.finished (s.setMac (1 + c) { s.mac (1 + c) with backoff := none }))) ∧
  (∀ q v, s.accepts q (rxx_MDIO_ACC m) v → s.flag (rxx_MDIO_ACC m) fxx_MDIO_ACC_go = false → bitOf v 31 = true →
    let w := v &&& 0x7FF0FFFF ||| 0x80000000
    exec (.mdioAccess q m v) s = .next (s.finished (((s.setReg (rxx_MDIO_ACC m) w).emit (.mdio m w)).wrote q 0))) ∧
  (∀ data : Fin 65536, s.flag (rxx_MDIO_ACC m) fxx_MDIO_ACC_go = true →
    let t := s.put (rxx_MDIO_ACC m) fxx_MDIO_ACC_go 0
    exec (.mdioDone m data) s = .next (s.finished (if t.flag (rxx_MDIO_ACC m) fxx_MDIO_ACC_write then t else t.put (rxx_MDIO_ACC m) fxx_MDIO_ACC_data data))) ∧
  (∀ q mp wide, s.allowsRead q (rxx_TXS_POP m) mp →
    ((s.mac m).stamps = [] → exec (.txsPop q m mp wide) s = .next (s.finished (s.done q 0 (leBytes (if wide then 8 else 4) 0)))) ∧
    (∀ t rest, (s.mac m).stamps = t :: rest → exec (.txsPop q m mp wide) s = .next (s.finished
      (((((s.setMac m { s.mac m with stamps := rest }).setReg (rxx_TXS_POP_HI m) (toW (t / 2 ^ 32))).setReg (rxx_TXS_REPLAY m) (toW t)).setReg
        (rxx_TXS_REPLAY_HI m) (toW (t / 2 ^ 32))).done q 0 (leBytes (if wide then 8 else 4) t))))))

/-- R417: a link that the in-band status reports in half duplex sets half_duplex and raises source 112, and the transmitter is as it was; with
half_duplex set the management MAC sends the frame at the front as without it. -/
def Obligations.HalfDuplexIsReported : Prop := ∀ (s : State), s.enabled 0x70 = true →
  (∀ st : Fin 16, s.flag (rxx_CFG 0) fxx_CFG_inband = true → st.val % 2 = 1 → st.val / 8 = 0 → s.flag (rxx_STATUS 0) fxx_STATUS_half_duplex = false →
    ∃ T : State, exec (.inbandStatusChange st) s = .next (s.finished T) ∧ T.get (rxx_STATUS 0) fxx_STATUS_half_duplex = 1 ∧
    (∃ e ∈ T.raises, e.source = 112 ∧ e.page = 0x70) ∧ T.mac 0 = s.mac 0 ∧ T.reg (rxx_CFG 0) = s.reg (rxx_CFG 0)) ∧
  (∀ f rest, s.flag (rxx_STATUS 0) fxx_STATUS_half_duplex = true → s.fieldRuns = true → s.flag (rxx_CFG 0) fxx_CFG_tx_en = true →
    (s.mac 0).backoff = none → s.flag (rxx_STATUS 0) fxx_STATUS_pause_active = false → (s.mac 0).txq = f :: rest → s.armed 0x70 0 = none →
    (lineOctets (s.flag (rxx_EXP 0) fxx_EXP_tx_fcs_given) f.data).length ≤ s.get (rxx_CFG 0) fxx_CFG_max_frame →
    let t := if f.stamp then (s.macPop 0).macStamp 0 f.number else s.macPop 0
    exec (.macTxFrame 0 false) s = .next (s.finished ((t.followUp f.data).2.macLine 0 (t.followUp f.data).1)))

/-- The cipher engine (R433 to R447). A frame under way whose flow transmits leaves sealed under its key with the next invocation count, or with discard
where it would be too long; one whose flow receives leaves opened, untrusted where its tag does not pass; one with no usable key leaves with discard
and source 63. The engine starts the frame at its front. A job ring takes its tail or warns of one too far; a CTR job writes its result and
completes, or stops its ring at a fault; resume and abort act on ring 0; the capture is cleared; the known-answer tests report; the alarms erase. -/
def Obligations.CipherEngineActs : Prop := ∀ (s : State),
  (∀ d slot u h, s.portHolds 7 = false → s.ciph.frame = some ⟨d, slot, some u⟩ → d.held = some h → s.armed 0x48 3 = none →
    s.revokedSince u = false →
    let t : State := { s with ciph := { s.ciph with frame := none } }
    (h.role = 0 → let c := t.takeCount h d.frame.flow
      let f := d.frame.stamped d.frame.cls (c.2.resolveRing d.frame.src) (c.2.resolveRing d.frame.dest) d.frame.seq
      let p := protectFrame (attrMode u.attr) (schedule u.key) f c.1
      (p.length ≤ 484 → exec (.cipherFrame .rest) s = .next (s.finished (c.2.cipherOut d (f.withPayload p) false false))) ∧
      (484 < p.length → exec (.cipherFrame .rest) s = .next (s.finished ((c.2.inc rCIPH_CNT_OVERSIZE).cipherOut d f true false)))) ∧
    (∀ k, h.role = 0 → s.ctxOf d.frame.flow = some k →
      t.takeCount h d.frame.flow = (t.cipherCount k, (t.setCipherCount k (t.cipherCount k + 1)).inc rCIPH_CNT_ENC)) ∧
    (h.role = 1 → let o := openFrame (attrMode u.attr) (schedule u.key) d.frame
      let v := t.inc rCIPH_CNT_DEC
      (∀ k, o.2.2 = true → s.ctxOf d.frame.flow = some k → exec (.cipherFrame .rest) s = .next (s.finished
        ((if v.cipherCount k < o.2.1 then v.setCipherCount k o.2.1 else v).cipherOut d (d.frame.withPayload o.1) false false))) ∧
      (∀ k, o.2.2 = false → s.ctxOf d.frame.flow = some k → exec (.cipherFrame .rest) s = .next (s.finished
        (((((v.inc rCIPH_CNT_UNTRUSTED).irq 0x48 4).cntCtx k 0x60 1).raise 69 0x48).cipherOut d (d.frame.withPayload o.1) false true))))) ∧
  (∀ d slot, s.portHolds 7 = false → s.ciph.frame = some ⟨d, slot, none⟩ → let t : State := { s with ciph := { s.ciph with frame := none } }
    exec (.cipherFrame .rest) s = .next (s.finished (((t.inc rCIPH_CNT_KEY_REFUSED).raise 63 0x48).cipherOut d d.frame true false))) ∧
  (∀ d h, s.portHolds 7 = false → s.enabled 0x48 = true → s.ciph.frame = none → s.outbox 7 = [d] → d.frame.kind = 0 → d.frame.cls ≤ 3 →
    d.held = some h → h.role ≠ 2 → (h.role = 0 → ∃ k, s.ctxOf d.frame.flow = some k ∧ s.cipherCount k < 2 ^ 62) →
    let u := (s.setOutbox 7 []).keyStart h.key (frameUsage (h.role = 0))
    exec (.cipherFrame .start) s = .next (s.finished { u.2 with ciph := { u.2.ciph with frame := some ⟨d, h.key, u.1⟩ } })) ∧
  (∀ q (r : Fin 2) v, s.accepts q (rCIPH_JR_TAIL r) v → let n := (v.toNat % 65536 + 65536 - s.jrHead r) % 65536
    (2 ^ s.get (rCIPH_JR_CFG r) fCIPH_JR_CFG_ring_k < n → exec (.jobRingTail q r v) s = .next (s.finished ((s.warn 0x49).wrote q 0))) ∧
    (n ≤ 2 ^ s.get (rCIPH_JR_CFG r) fCIPH_JR_CFG_ring_k → exec (.jobRingTail q r v) s = .next (s.finished
      (((s.setReg (rCIPH_JR_TAIL r) (toW (v.toNat % 65536))).jrStart 64 r).wrote q 0)))) ∧
  (∀ (r : Fin 2) j, s.ciph.job r = some j → jobWord j.words 0 / 2 ^ 28 = 2 → let src := s.jobRead r (jobWord j.words 2) (jobWord j.words 1 % 2 ^ 24)
    let iv := src.2.jobRead r (jobWord j.words 6) 16
    (∀ c a, src.1.1 = some (c, a) → exec (.cipherJobComplete r) s = .next (s.finished (iv.2.jrFault r c a))) ∧
    (src.1.1 = none → src.1.2.1 = 0 → iv.1.1 = none → iv.1.2.1 = 0 → iv.2.armed 0x48 3 = none →
      let o := ctrMode (schedule j.use.key) (beNat iv.1.2.2) src.1.2.2
      let w := iv.2.jobWrite r (jobWord j.words 3) o
      w.1.1 = none → w.1.2 = 0 → exec (.cipherJobComplete r) s = .next (s.finished
        ((w.2.jrDone r 0 o.length (s.revokedSince j.use) ((jobWord j.words 0).testBit 27)).jrStart 64 r)))) ∧
  (∀ q v, s.accepts q rCIPH_JR_CMD v → bitOf v 1 = false → bitOf v 9 = false →
    (bitOf v 0 = true → bitOf v 8 = false → s.jrState 0 = 2 → exec (.jobRingResume q v) s = .next (s.finished
      (((s.setReg (rCIPH_JR_STATUS 0) 0).jrStart 64 0).wrote q 0))) ∧
    (∀ j, bitOf v 0 = false → bitOf v 8 = true → s.ciph.job 0 = some j → exec (.jobRingAbort q v) s = .next (s.finished
      ((s.jrDone 0 7 0 (s.revokedSince j.use) ((jobWord j.words 0).testBit 27)).wrote q 0)))) ∧
  (∀ q v, s.accepts q rCIPH_MM_CMD v → bitOf v 0 = true → exec (.ciphMmCmd q v) s = .next (s.finished ((s.setReg rCIPH_MM_CAP 0).wrote q 0))) ∧
  (∀ q v, s.accepts q rCIPH_KAT v → bitOf v 0 = true →
    exec (.ciphKat q v) s = .next (s.finished (((s.setReg rCIPH_KAT_RESULT 0).setReg rCIPH_KAT 1).wrote q 0))) ∧
  exec (.ciphKatDone true) s = .next (s.finished ((s.setReg rCIPH_KAT 0).setReg rCIPH_KAT_RESULT (toW (2 ^ 31 + 1)))) ∧
  exec (.ciphKatDone false) s = .next (s.finished (((s.setReg rCIPH_KAT 0).setReg rCIPH_KAT_RESULT (toW (2 ^ 31))).raise 70 0x48)) ∧
  exec .glitchAlarm s = .next (s.finished ((s.raise 67 0x4C).erase)) ∧ exec .tamperAlarm s = .next (s.finished ((s.raise 68 0x4C).erase))

/-- The Saffron store's commands (R448, R454 to R459, R469): apply queues the message, send presents it to the fabric, an open write fills the slot and
clears the data words or is refused for its attributes, an open clear empties it; a good message waits for its commit, a bad one ends with its code;
commit applies it, abort and the timeout end it with code 10; the counter lock is set and then holds the counters; a pop of the log gives the oldest
item, or zeros; a command written while a send waits at the fabric is ignored with a warning. What an update message does (R456 to R458, R460, R464,
R465): unlocked counters, a bad format, another UID and an open slot end it in this order with codes 11, 2, 3 and 4; an install takes the counter
and sets the slot to the unwrapped key with its attributes and uses; a revocation takes the counter, invalidates its slot and revokes each
descendant; an operation takes one of several uses, and the last one disables the slot. -/
def Obligations.KeyStoreAndMessagesAct : Prop :=
 (∀ (s : State) (q : Req), s.kmgr.queue.length < 4 →
  (∀ v, s.keySending = false → s.accepts q rKEY_CMD v →
    (bitOf v 0 = true → bitOf v 1 = false → bitOf v 2 = false → bitOf v 3 = false → s.flag rKEY_CTR_LOCK fKEY_CTR_LOCK_locked = true →
      exec (.keyApply q v) s = .next (s.finished
        (({ s with kmgr := { s.kmgr with queue := s.kmgr.queue ++ [⟨false, q.master = 0, s.keyMsgOctets⟩] } } : State).wrote q 0))) ∧
    (∀ me, bitOf v 0 = false → bitOf v 1 = true → bitOf v 2 = false → bitOf v 3 = false → s.nodeId 0 = some me →
      let dst := s.get rKEY_CMD_NODE fKEY_CMD_NODE_node
      dst % 256 ≠ 255 → exec (.keySend q v) s = .next (s.finished (((({ s with kmgr := { s.kmgr with seq := (s.kmgr.seq + 1) % 65536 } } : State).present 7
        (mkFrame 0xB 2 0 0 0 dst me 0xF4B0 s.kmgr.seq s.keyMsgOctets))).wrote q 0))) ∧
    (bitOf v 0 = false → bitOf v 1 = false → bitOf v 2 = true → bitOf v 3 = false → let n := natBits v.toNat 10 8
      let a := (s.reg rKEY_OPEN_ATTR_LO).toNat + 2 ^ 32 * (s.reg rKEY_OPEN_ATTR_HI).toNat
      (attrParent a = 0xFF → attrQrn a = false → attrMix a = false → attrBad a = false → ∃ T : State,
        exec (.keyOpenWrite q v) s = .next (s.finished (T.wrote q 0)) ∧ (T.key n).st = 1 ∧ (T.key n).attr = a ∧
        (∀ i : Fin 8, T.reg (rKEY_OPEN_DATA i) = 0) ∧ T.reg rKEY_RESULT = toW (2 ^ 31 + n * 2 ^ 16)) ∧
      (attrBad a = true → exec (.keyOpenWrite q v) s = .next (s.finished ((s.keyResult n 9 true).wrote q 0)))) ∧
    (bitOf v 0 = false → bitOf v 1 = false → bitOf v 2 = false → bitOf v 3 = true → let n := natBits v.toNat 10 8
      exec (.keyOpenClear q v) s = .next (s.finished (((s.revoke n).setKey n {}).wrote q 0)))) ∧
  (∀ m rest, s.enabled 0x4C = true → s.kmgr.pending = none → s.kmgr.queue = m :: rest → let t : State := { s with kmgr := { s.kmgr with queue := rest } }
    (t.msgCheck m = 1 → m.restore = false → exec .keyMessage s = .next (s.finished
      ((({ t with kmgr := { t.kmgr with pending := some m } } : State).keyResult m.slot 1 false).put rKEY_STATUS fKEY_STATUS_pending 1 |>.irq 0x4C 3))) ∧
    (t.msgCheck m = 1 → m.restore = true → exec .keyMessage s = .next (s.finished (t.msgApply m))) ∧
    (t.msgCheck m ≠ 1 → exec .keyMessage s = .next (s.finished (t.msgEnd m (t.msgCheck m))))) ∧
  (∀ m, s.kmgr.pending = some m → let t := ({ s with kmgr := { s.kmgr with pending := none } } : State).put rKEY_STATUS fKEY_STATUS_pending 0
    (∀ v, s.accepts q rKEY_COMMIT v → (bitOf v 0 = true → exec (.keyCommit q v) s = .next (s.finished ((t.msgApply m).wrote q 0))) ∧
      (bitOf v 0 = false → bitOf v 1 = true → exec (.keyCommitAbort q v) s = .next (s.finished ((t.msgEnd m 10).wrote q 0)))) ∧
    exec .keyCommitTimeout s = .next (s.finished (t.msgEnd m 10))) ∧
  (∀ v, s.accepts q rKEY_CTR_LOCK v → exec (.keyCtrLock q v) s = .next (s.finished ((s.store rKEY_CTR_LOCK v).wrote q 0))) ∧
  (∀ mp wide, s.allowsRead q rKEY_LOG_POP mp →
    (s.kmgr.log = [] → exec (.keyLogPop q mp wide) s = .next (s.finished (s.done q 0 (leBytes (if wide then 8 else 4) 0)))) ∧
    (∀ t rest, s.kmgr.log = t :: rest → exec (.keyLogPop q mp wide) s = .next (s.finished
      ((((({ s with kmgr := { s.kmgr with log := rest } } : State).setReg rKEY_LOG_POP_HI (toW (t / 2 ^ 32))).setReg rKEY_LOG_REPLAY (toW t)).setReg
        rKEY_LOG_REPLAY_HI (toW (t / 2 ^ 32))).done q 0 (leBytes (if wide then 8 else 4) t))))) ∧
  (s.flag rKEY_CTR_LOCK fKEY_CTR_LOCK_locked = true → ∀ n v, keyCtrFx n v s = s) ∧
  (∀ v, s.keySending = true → s.accepts q rKEY_CMD v → exec (.keyApply q v) s = .next (s.finished ((s.warn 0x4C).wrote q 0)))) ∧
 (∀ (s : State) (m : KeyMsg),
  (s.flag rKEY_CTR_LOCK fKEY_CTR_LOCK_locked = false → s.msgCheck m = 11) ∧
  (s.flag rKEY_CTR_LOCK fKEY_CTR_LOCK_locked = true → m.badFormat = true → s.msgCheck m = 2) ∧
  (s.flag rKEY_CTR_LOCK fKEY_CTR_LOCK_locked = true → m.badFormat = false → beNat (slice m.data 4 16) ≠ s.uid → s.msgCheck m = 3) ∧
  (s.flag rKEY_CTR_LOCK fKEY_CTR_LOCK_locked = true → m.badFormat = false → beNat (slice m.data 4 16) = s.uid → m.slot < 8 → s.msgCheck m = 4) ∧
  (m.code = 3 → 8 ≤ m.slot → let t := s.setKey m.slot { s.key m.slot with st := 3 }
    t.isAncestor 5 m.slot m.slot = false → (s.msgApply m).reg (rKEY_CTR m.slot) = toW m.counter ∧ ((s.msgApply m).key m.slot).st = 3 ∧
    (∀ n : Fin 256, t.isAncestor 5 m.slot n = true → ((s.msgApply m).key n).st = 4)) ∧
  (∀ k, m.code = 1 → 8 ≤ m.slot → s.badParent m = false → attrParent m.attr = 0xFF → s.msgKey m = some k → let t := s.msgApply m
    t.reg (rKEY_CTR m.slot) = toW m.counter ∧ (t.key m.slot).st = 1 ∧ (t.key m.slot).attr = m.attr ∧ (t.key m.slot).left = attrUses m.attr ∧
    (t.key m.slot).key = k) ∧
  (∀ n, attrUses (s.key n).attr ≠ 0 → 1 < (s.key n).left → s.takeUse n = (false, s.setKey n { s.key n with left := (s.key n).left - 1 })) ∧
  (∀ n, attrUses (s.key n).attr ≠ 0 → (s.key n).left ≤ 1 → (s.setKey n { s.key n with left := 0, st := 2 }).isAncestor 5 n n = false →
    (s.takeUse n).1 = true ∧ ((s.takeUse n).2.key n).st = 2 ∧ ((s.takeUse n).2.key n).left = 0))

/-- The collector takes an event of an enabled block whose level is 1, its class not pending (R503, R504, R508): it is counted, FLT_RAISED and FLT_LAST
show it with its level, the capture of its class holds it or the earlier one, its page's PG_FAULT is valid, and its class is pending. -/
def Obligations.CollectorTakesEvents : Prop := ∀ (s : State) (e : FaultEv), e.source < 128 → e.master < 256 → e.type < 8 → s.enabled 0x04 = true →
  (∀ p, ownerPage e.source e.page = some p → s.enabled p = true) →
  let c := srcClass e.source
  let n := satInc 255 (natBits (s.reg (rFLT_SRC_COUNT (e.source / 4))).toNat (8 * (e.source % 4) + 7) (8 * (e.source % 4)))
  let severe := decide (max 1 (s.get (rFLT_SRC_CFG e.source) fFLT_SRC_CFG_count_n) ≤ n)
  let lvl := levelCode (s.get (rFLT_SRC_CFG e.source) (if severe then fFLT_SRC_CFG_severe_level else fFLT_SRC_CFG_minor_level))
  (s.get rFLT_PENDING fFLT_PENDING_pending).testBit c = false → lvl = 1 → e.injected = false → ∀ busy, (s.collectOne e busy).2 = busy ∧
    let t := (s.collectOne e busy).1
    natBits (t.reg (rFLT_SRC_COUNT (e.source / 4))).toNat (8 * (e.source % 4) + 7) (8 * (e.source % 4)) = n ∧
    (∀ p, ownerPage e.source e.page = some p → t.flag (rPG_FAULT p) fPG_FAULT_valid = true) ∧
    bitOf (t.reg (rFLT_RAISED (e.source / 32))) (e.source % 32) = true ∧ t.reg rFLT_CNT_EVENTS = s.reg rFLT_CNT_EVENTS + 1 ∧
    t.reg rFLT_LAST = toW (e.source * 2 ^ 16 + 2 ^ 8 + 2 ^ 4 + 8 * b2n severe + b2n e.wire) ∧
    (t.get rFLT_PENDING fFLT_PENDING_pending).testBit c = true ∧ (t.reg (rFLT_CAP c 0)).toNat.testBit 31 = true ∧
    (bitOf (s.reg (rFLT_CAP c 0)) 31 = true → t.reg (rFLT_CAP c 0) = s.reg (rFLT_CAP c 0))

/-- Fault commands (R499, R500, R505, R506, R508, R510): a source raises its event, with its access where a master is named; for every source but the
nine named the event is all; a pair that reads equal records its wire and raises source 127, one equal for 64 cycles raises its own; acknowledgement
and clearing act on the classes written; FLT_ERRN_CLR goes to the power die, or completes with 5 while the link is silent; level 5 resets. The
inspection ledger (R511, R514 to R519): anchor takes the chain up from the resume registers, or warns during a flush; fresh begins it with a type
0x60 entry; a note is staged and a flush begun on command. With a usable key a flush that succeeds writes what was staged when it began, one that
fails writes fewer, is counted and raises source 115; an entry written takes the next number; one for a full staging area is lost with source 116; a
disabled ledger takes no entry. -/
def Obligations.FaultCommandsAndLedger : Prop :=
 (∀ (s : State) (q : Req),
  (∀ (src : Fin 127) page m nd ty sz a,
    (m % 256 ≠ 0xFF → exec (.faultEvent src page m nd ty sz a) s = .next (s.finished ((s.fault
      { source := src, page := page, master := m % 256, node := nd % 2 ^ 18, type := ty % 8, size := sz % 256, addr := a % 2 ^ 64 }).faultEffect src a))) ∧
    (m % 256 = 0xFF → exec (.faultEvent src page m nd ty sz a) s =
      .next (s.finished ((s.fault { source := src, page := page }).faultEffect src a))) ∧
    ([1, 2, 13, 51, 57, 58, 59, 60, 66, 114].contains src.val = false → s.faultEffect src a = s)) ∧
  (∀ (src : Fin 127) page, s.enabled 0x04 = true → exec (.errorPairEqual src page) s = .next (s.finished
    ((((s.setReg rFLT_WIRE (toW (2 ^ 31 + src))).inc rFLT_CNT_WIRE).irq 0x04 11).raise 127 ((ownerPage src page).getD 0xFFF)))) ∧
  (∀ (src : Fin 127) page, exec (.errorPairStuck src page) s = .next (s.finished (s.fault { source := src, page := page, wire := true }))) ∧
  (∀ v, s.accepts q rFLT_ACK v → ∃ T : State, exec (.fltAck q v) s = .next (s.finished (T.wrote q 0)) ∧ regsBut [rFLT_PENDING] s T ∧ restSame s T ∧
    ∀ i < 32, bitOf (T.reg rFLT_PENDING) i = (bitOf (s.reg rFLT_PENDING) i && !(if i < 16 then i < 9 && bitOf v i else i < 25 && bitOf v (i - 16)))) ∧
  (∀ v, s.accepts q rFLT_CAP_CLR v → ∃ T : State, exec (.fltCapClr q v) s = .next (s.finished (T.wrote q 0)) ∧ restSame s T ∧
    ∀ (c : Fin 9) (w : Fin 8), T.reg (rFLT_CAP c w) = if bitOf v c then 0 else s.reg (rFLT_CAP c w)) ∧
  (∀ v, s.accepts q rFLT_ERRN_CLR v →
    (s.flag rPD_LINK_STATUS fPD_LINK_STATUS_silent = false → exec (.fltErrnClr q v) s = .next (s.finished
      (({ s.emit (.die rFLT_ERRN_CLR v) with pdWrites := s.pdWrites ++ [⟨q, rFLT_ERRN_CLR, v, .done q⟩] } : State).hostWrote q))) ∧
    (s.flag rPD_LINK_STATUS fPD_LINK_STATUS_silent = true → exec (.fltErrnClr q v) s = .next (s.finished (s.wrote q 5)))) ∧
  (s.level5 = true → exec .level5Reset s = .next (s.finished (s.warmReset 0x12))) ∧
  (s.level5 = false → exec .level5Reset s = .next (s.finished s))) ∧
 (∀ (s : State) (q : Req),
  (∀ v, s.accepts q rLEDG_CMD (v ||| 1) → bitOf v 1 = false → bitOf v 2 = false → bitOf v 3 = false →
    (s.ledgBusy = false → ∃ T : State, exec (.ledgAnchor q v) s = .next (s.finished (T.wrote q 0)) ∧
      T.reg rLEDG_NEXT_NUM = s.reg rLEDG_RESUME_NUM ∧ T.reg rLEDG_NEXT_OFF = s.reg rLEDG_RESUME_OFF ∧
      T.reg rLEDG_TAG_HI = s.reg rLEDG_RESUME_TAG_HI ∧ T.reg rLEDG_TAG_LO = s.reg rLEDG_RESUME_TAG_LO ∧
      T.flag rLEDG_STATUS fLEDG_STATUS_anchored = true ∧ memSame s T) ∧
    (s.ledgBusy = true → exec (.ledgAnchor q v) s = .next (s.finished ((s.warn 0x06).wrote q 0)))) ∧
  (∀ v, s.accepts q rLEDG_CMD (v ||| 2) → bitOf v 0 = false → bitOf v 2 = false → bitOf v 3 = false → s.ledgBusy = false → s.partSectors ≠ 0 →
    ∃ T : State, exec (.ledgFresh q v) s = .next (s.finished (T.wrote q 0)) ∧
    T.reg rLEDG_NEXT_NUM = 1 ∧ T.reg rLEDG_NEXT_OFF = 32 ∧ T.flag rLEDG_STATUS fLEDG_STATUS_anchored = true ∧ T.byte s.partBase = 0x60) ∧
  (∀ v, s.accepts q rLEDG_CMD (v ||| 8) → bitOf v 0 = false → bitOf v 1 = false → bitOf v 2 = false →
    exec (.ledgNote q v) s = .next (s.finished (s.ledgNote.wrote q 0))) ∧
  (∀ v, s.accepts q rLEDG_CMD (v ||| 4) → bitOf v 0 = false → bitOf v 1 = false → bitOf v 3 = false → s.enabled 0x06 = true →
    s.flag rLEDG_STATUS fLEDG_STATUS_anchored = true → s.flag rLEDG_STATUS fLEDG_STATUS_flushing = false → s.partSectors ≠ 0 →
    exec (.ledgFlushNow q v) s = .next (s.finished
      (({ s.put rLEDG_STATUS fLEDG_STATUS_flushing 1 with ledg := { s.ledg with flushTo := s.staged } } : State).wrote q 0))) ∧
  (s.flag rLEDG_STATUS fLEDG_STATUS_flushing = true → s.ledgerKeyOk = true → let n := min s.ledg.flushTo s.staged
    let t := s.put rLEDG_STATUS fLEDG_STATUS_flushing 0
    let u := if n = 0 then t else (t.flushWrite n).put rLEDG_STATUS fLEDG_STATUS_untagged 0
    exec (.ledgerFlushDone none) s = .next (s.finished ({ u.irq 0x06 2 with ledg := { u.ledg with flushTo := 0 } } : State).pwrWaited) ∧
    (∀ k, exec (.ledgerFlushDone (some k)) s = .next (s.finished
      (((t.flushWrite (min k (n - 1))).inc rLEDG_CNT_FLUSH_ERR).raise 115).pwrWaited))) ∧
  (s.partFull = false → s.ledgerKeyOk = true → let t := s.flushWrite 1
    t.reg rLEDG_NEXT_NUM = s.reg rLEDG_NEXT_NUM + 1 ∧ t.ledg.head = (s.ledg.head + 1) % 512) ∧
  (∀ type detail data, s.enabled 0x06 = true → s.ledg.lost = 0 → s.staged < 512 → let t := s.stage type detail data
    t.staged = s.staged + 1 ∧ t.byte (stagingBase + 32 * ((s.ledg.head + s.staged) % 512)) = toB type) ∧
  (∀ type detail data, s.enabled 0x06 = true → s.ledg.lost = 0 → 512 ≤ s.staged → s.stage type detail data =
    ((({ s with ledg := { s.ledg with lost := 1 } } : State).inc rLEDG_CNT_LOST).irq 0x06 3).raise 116) ∧
  (∀ type detail data, s.enabled 0x06 = false → s.stage type detail data = s))

/-- The epoch boundary (R12, R230, R231, R503, R561): the slot count comes to the next multiple of 2^20, then modules, view, servo, tables, lists, fault
windows, ledger and sleep are served in this order. The servo takes the mean of its epoch's samples and begins anew; work of Anise is done, or kept
during a handover; the fault windows that end are cleared, the others not. The test access port (R582): at L0 to L4 each of its instructions comes
into force with the register it selects and what it drives, and every code of no other instruction acts as BYPASS; SAMPLE_PRELOAD takes the levels
of the balls. -/
def Obligations.EpochBoundaryAndTap : Prop :=
 (∀ (s : State),
  (∀ mods : List (Nat × List Byte),
    let b : State := { s with slot := (s.slot / 2 ^ 20 + 1) * 2 ^ 20, pd := { s.pd with crc := 0 } };
    let m := mods.foldl (fun (x : State) e => x.moduleDiag (e.1 / 2 % 2) (e.1 % 2) e.2) b;
    let t := m.viewLapse.anise (1, 0, 0) (fun x => x.servoUpdate);
    let u := (t.tableRepeat 0).tableRepeat 1;
    let v := if u.enabled 0x38 then u.readmitAgain else u;
    exec (.epochBoundary mods) s = .next (s.finished ((((v.faultWindows (v.slot / 2 ^ 20)).ledgerEpoch).sleepEpoch 0).sleepEpoch 1))) ∧
  (s.servo.n ≠ 0 → s.isRoot = false → s.enabled 0x40 = true → s.flag (rTB_EXP 0) fTB_EXP_servo_off = false →
    s.get (rTB_SERVO 0) fTB_SERVO_step_ns = 0 → let t := s.servoUpdate
    t.servo.sum = 0 ∧ t.servo.n = 0 ∧ t.reg (rTB_OFFSET 0) = toW (toTwos 32 (roundDiv s.servo.sum (s.servo.n * 65536)))) ∧
  (s.servo.n = 0 → s.isRoot = false → s.servoUpdate = { s with servo := { s.servo with sum := 0, n := 0 } }) ∧
  (∀ w (act : State → State), s.flag rFWU_STATUS fFWU_STATUS_handover_active = false → s.anise w act = act s) ∧
  (∀ w (act : State → State), s.flag rFWU_STATUS fFWU_STATUS_handover_active = true → w ∉ s.boot.held →
    s.anise w act = { s with boot := { s.boot with held := s.boot.held ++ [w] } }) ∧
  (∀ (epoch : Nat) (n : Fin 128), let t := s.faultWindows epoch
    let cnt (x : State) := natBits (x.reg (rFLT_SRC_COUNT (n / 4))).toNat (8 * (n % 4) + 7) (8 * (n % 4))
    (epoch % 2 ^ s.get (rFLT_SRC_CFG n) fFLT_SRC_CFG_window_k = 0 → cnt t = 0 ∧ bitOf (t.reg (rFLT_SEVERE (n / 32))) (n % 32) = false) ∧
    (epoch % 2 ^ s.get (rFLT_SRC_CFG n) fFLT_SRC_CFG_window_k ≠ 0 → cnt t = cnt s ∧
      bitOf (t.reg (rFLT_SEVERE (n / 32))) (n % 32) = bitOf (s.reg (rFLT_SEVERE (n / 32))) (n % 32)))) ∧
 (∀ (s : State), s.pwr.level ≤ 4 →
  let load (ir : Nat) (reg : TapReg) (drive : TapDrive) := (.next (s.finished { s with tap := { s.tap with ir := ir, reg := reg, drive := drive } }) : Host.Outcome State Fault Refusal)
  exec .extest s = load 0x00 .boundary .boundary ∧ exec .idcode s = load 0x01 .identification .hub ∧
  exec .highz s = load 0x03 .bypass .highZ ∧ exec .clamp s = load 0x04 .bypass .boundary ∧
  exec .extestPulse s = load 0x05 .boundary .pulse ∧ exec .extestTrain s = load 0x06 .boundary .train ∧
  (∀ code : BitVec 8, 6 < code.toNat → exec (.bypass code) s = load code.toNat .bypass .hub) ∧
  (∀ pins cells, let x := { s.tap with ir := 0x02, reg := .boundary, drive := .hub, sample := pins, boundary := cells }
    exec (.samplePreload pins cells) s = .next (s.finished { s with tap := x })))

/-- Feeds and the hot-swap sequencer (R472 to R482): a state that the sequencer goes to shows in PD_HS_STATUS, with PGOOD released in ON alone; each
event takes the state it acts in to the next; a fault sets its bit of PD_HS_FAULT; a trip counts and goes to COOL, or to LATCHED past the retries;
HOLDCAP low resets the power die once no feed is ready. Feeds at the card (R472, R476, R480, R481): a feed whose validity changes shows in
PD_FEED_STATUS and is an event; a feed that becomes ready first starts its debounce in WAIT, short where the card was seated; the last feed that is
lost takes a running sequencer to WAIT. -/
def Obligations.HotSwapAndFeedsAct : Prop :=
 (∀ (s : State), s.pd.on = true →
  (∀ n : Fin 8, (s.hsGo n).hs = n ∧ ((s.hsGo n).pgood = true ↔ n.val = 5) ∧
    bitOf ((s.hsFault n).pdReg rPD_HS_FAULT) n = true) ∧
  (∀ n : Fin 2, exec (.oringFault n) s = .next (s.finished ((s.hsFault (6 + n)).pdEvent 0x0B (n + 1) [toB (n + 1)]))) ∧
  (s.hs ≠ hsLatched → s.hs ≠ hsCool → exec .overvoltage s = .next (s.finished
    ((({ s with pd := { s.pd with ov := true } } : State).hsFault 5).hsGo hsWait))) ∧
  (s.pd.ov = true → s.hs = hsWait → s.hsReady = true →
    exec .overvoltageEnd s = .next (s.finished (({ s with pd := { s.pd with ov := false } } : State).hsGo hsCheck))) ∧
  (s.hsReady = true → s.hs = hsDebounce → s.pd.ov = false →
    exec .debounceEnd s = .next (s.finished (({ s with pd := { s.pd with debounced := true } } : State).hsGo hsCheck))) ∧
  (s.hs = hsCheck → exec .rampStart s = .next (s.finished ((s.hsGo hsRamp).pdEvent 0x02 0 [])) ∧
    exec .fetShort s = .next (s.finished ((s.pdEvent 0x09 0 []).hsLatch 3))) ∧
  (s.hs = hsRamp → exec .enhancementBegin s = .next (s.finished { s with pd := { s.pd with enh := true } }) ∧
    (s.pd.enh = true → exec .gateEnhanced s = .next (s.finished (s.hsGo hsSettle))) ∧
    exec .gateNoRise s = .next (s.finished (s.hsTrip 2))) ∧
  (s.hsDriven = true → exec .limitOnset s = .next (s.finished
    (({ s with pd := { s.pd with held := true } } : State).pdPut rPD_HS_STATUS fPD_HS_STATUS_in_limit 1)) ∧
    (s.pdFlag rPD_HS_STATUS fPD_HS_STATUS_in_limit = true → exec .hotswapTrip s = .next (s.finished (s.hsTrip 0)))) ∧
  exec .limitEnd s = .next (s.finished (s.pdPut rPD_HS_STATUS fPD_HS_STATUS_in_limit 0)) ∧
  (s.pdFlag rPD_HS_STATUS fPD_HS_STATUS_in_limit = false →
    exec .limitClear s = .next (s.finished { s with pd := { s.pd with held := false } }) ∧
    (s.hs = hsSettle → s.pd.held = false → exec .pgoodRelease s = .next (s.finished (s.hsGo hsOn)))) ∧
  (s.hs = hsOn → exec .pgoodLow s = .next (s.finished (s.hsGo hsSettle))) ∧
  (s.hs = hsCool → s.hsReady = true → s.pd.debounced = true → s.pd.ov = false →
    exec .cooldownEnd s = .next (s.finished ((s.pdPut rPD_HS_STATUS fPD_HS_STATUS_cooldown_left 0).hsGo hsCheck))) ∧
  (s.pd.clearRun = true → exec .retryClear s = .next (s.finished
    (({ s with pd := { s.pd with clearRun := false } } : State).pdPut rPD_HS_STATUS fPD_HS_STATUS_retry_count 0))) ∧
  (∀ cause, cause = 0 ∨ cause = 2 → let n := s.pdGet rPD_HS_STATUS fPD_HS_STATUS_retry_count + 1
    (s.hsTrip cause).pdReg rPD_CNT_TRIP = s.pdReg rPD_CNT_TRIP + 1 ∧
    (n ≤ fldOf s.hsCfg fPD_HS_CFG_retries → (s.hsTrip cause).hs = hsCool) ∧
    (fldOf s.hsCfg fPD_HS_CFG_retries < n → n < 16 → (s.hsTrip cause).hs = hsLatched)) ∧
  (s.hsReady = true → exec .holdcapLow s = .next (s.finished s)) ∧
  (s.hsReady = false → exec .holdcapLow s = .next (s.finished (s.powerDieReset false)))) ∧
 (∀ (s : State) (n : Fin 2) (mv : Nat), s.pd.on = true →
  (∀ valid, s.pd.valid.testBit n = valid → let p := { s.pd with valid := natPut s.pd.valid n n (b2n valid), mv1 := if n = 0 then mv else s.pd.mv1, mv2 := if n = 0 then s.pd.mv2 else mv }
    exec (.feedChange n valid mv) s = .next (s.finished ({ s with pd := p } : State).feedShow)) ∧
  (s.pd.valid.testBit n = true → s.pgood = true → let p := { s.pd with valid := natPut s.pd.valid n n 0, mv1 := if n = 0 then mv else s.pd.mv1, mv2 := if n = 0 then s.pd.mv2 else mv }
    exec (.feedChange n false mv) s = .next (s.finished
      ((({ s with pd := p } : State).pdRaise (96 + n)).feedsChanged n (s.pd.pres.testBit n) s.hsReady))) ∧
  (∀ low, s.pd.pres.testBit n ≠ low → let p := { s.pd with pres := natPut s.pd.pres n n (b2n low), seated := if low then s.pd.seated else natPut s.pd.seated n n 0 }
    exec (.presenceChange n low) s = .next (s.finished
      (({ s with pd := p } : State).feedsChanged n (s.pd.pres.testBit n && s.pd.valid.testBit n) s.hsReady))) ∧
  (∀ was, s.hsReady = true → s.hs = hsWait → s.pd.ov = false → (s.feedsChanged n was false).hs = hsDebounce ∧
    (s.feedsChanged n was false).pd.debMs = if s.pd.seated.testBit n && !s.pd.lost then 5 else 100) ∧
  (∀ was, s.hsReady = false → s.hs ≠ hsCool → s.hs ≠ hsLatched → (s.feedsChanged n was true).hs = hsWait))

/-- Registers of the power die are written over the die link (R9, R486, R488): a write goes to the die and waits; its acknowledgement performs it and
completes it; a resend is the same frame; a link that falls silent completes every waiting write with status 5, and one that comes back is taken up;
a mirror that agrees stays, and a push brings the measured words. Supplies and the discrete lines (R483 to R485, R489 to R493, R497): a supervised
supply below its warning level shows and clears its bank's supply_ok; a dip that ends is recorded; a reset level of a bank turns it off and its
return sets it again; an edge of an input is shown, counted where its edge is selected, recorded where due and may wake; a shorted output is latched
off, an open one reported; an output armed for an event unit takes its level at the unit's trigger. -/
def Obligations.DieLinkSuppliesAndLines : Prop :=
 (∀ (s : State) (q : Req) (v : Word),
  let sent (a : Nat) (T : State) := T = ({ s.emit (.die a v) with pdWrites := s.pdWrites ++ [⟨q, a, v, .done q⟩] } : State).hostWrote q
  (s.forwards q rPD_HS_CMD v → ∃ T : State, exec (.clearRetries q v) s = .next (s.finished T) ∧ sent rPD_HS_CMD T) ∧
  (s.forwards q rPD_OTP_PROG v → ∃ T : State, exec (.pdOtpProgram q v) s = .next (s.finished T) ∧ sent rPD_OTP_PROG T) ∧
  (∀ g : Fin 4, (s.forwards q (rPD_DIO_SET g) v → ∃ T : State, exec (.pdDioSet q g v) s = .next (s.finished T) ∧ sent (rPD_DIO_SET g) T) ∧
    (s.forwards q (rPD_DIO_CLR g) v → ∃ T : State, exec (.pdDioClr q g v) s = .next (s.finished T) ∧ sent (rPD_DIO_CLR g) T) ∧
    (s.forwards q (rPD_DIO_OUT g) v → ∃ T : State, exec (.pdDioOutWrite q g v) s = .next (s.finished T) ∧ sent (rPD_DIO_OUT g) T)) ∧
  (∀ w rest, s.pdWrites = w :: rest →
    exec .pdWriteAck s = .next (s.finished ((({ s with pdWrites := rest } : State).pdWrite w.addr w.value).complete w.cont 0 0 []).serveHeld) ∧
    (s.flag rPD_LINK_STATUS fPD_LINK_STATUS_silent = false → exec .pdWriteResend s = .next (s.finished (s.emit (.die w.addr w.value))))) ∧
  (∀ g : Fin 4, s.pdWrite (rPD_DIO_OUT g) v = s.outWrite g v.toNat ∧
    s.pdWrite (rPD_DIO_SET g) v = s.outWrite g ((s.pdReg (rPD_DIO_OUT g)).toNat ||| v.toNat % 16) ∧
    s.pdWrite (rPD_DIO_CLR g) v = s.outWrite g (s.pdReg (rPD_DIO_OUT g) &&& ~~~v).toNat) ∧
  (bitOf v 0 = true → s.pdWrite rPD_HS_CMD v = s.pdPut rPD_HS_STATUS fPD_HS_STATUS_retry_count 0) ∧
  (bitOf v 0 = true → s.pd.otp.length < 4 → (s.pdWrite rPD_OTP_PROG v).pd.otp = s.pd.otp ++ [s.pdReg rPD_HS_CFG]) ∧
  (s.flag rPD_LINK_STATUS fPD_LINK_STATUS_silent = false → s.pd.l6 = false →
    let t := ((((s.put rPD_LINK_STATUS fPD_LINK_STATUS_silent 1).put rPD_LINK_STATUS fPD_LINK_STATUS_up 0).inc rPD_CNT_LINK_LOSS).irq 0xF2 2).raise 101
    let u := s.pdWrites.foldl (fun (x : State) w => x.complete w.cont 5 0 []) { t with pdWrites := [] }
    u.rst.active = false → exec .dieLinkSilent s = .next (s.finished (((u.pdErrN 3 101).pdEvent 0x0E 0 []).linkLoss).serveHeld)) ∧
  (s.pd.on = true → s.pgood = true → s.pd.l6 = false → s.pdUp = false → exec .dieLinkRestored s = .next (s.finished s.dieLinkUp)) ∧
  (s.pdUp = true → s.pd.on = true → (∀ a, pdMirrored a = true → s.reg a = s.pdReg a) → exec (.mirrorCompare []) s = .next (s.finished s)) ∧
  (∀ words, s.pd.on = true → s.pdUp = true → exec (.dieLinkPush false words) s = .next (s.finished
    (words.foldl (fun (s : State) e => if pdMeasured e.1 then s.pdSet e.1 (e.2 &&& fieldMask e.1) else s) s)))) ∧
 (∀ (s : State), s.pd.on = true →
  (∀ n : Fin 6, s.supervised n = true → exec (.supplyBelowWarning n) s = .next (s.finished
    (if 2 ≤ n.val then (s.supBelow n true).bankOk (n - 2) false else s.supBelow n true))) ∧
  (∀ (n : Fin 6) mv us, bitOf (s.pdReg rPD_SUP_STATUS) n = true → bitOf (s.pdReg rPD_SUP_STATUS) (n + 8) = false → mv < 65536 →
    let t := (s.supBelow n false).pdOr rPD_SUP_DIP (2 ^ n.val)
    let u := (t.pdSet (rPD_SUP_LAST n) (toW (mv * 2 ^ 16 + min 65535 us))).pdInc rPD_CNT_DIP
    exec (.supplyDip n (some mv) us) s = .next (s.finished
      (((u.pdEvent 0x0C n ([toB n] ++ beBytes 2 mv ++ beBytes 3 us)).pdRaise 105).pdIrq 0xF1 2))) ∧
  (∀ n : Fin 2, s.supervised n = true → let t := s.resetCause (2 + n)
    exec (.brownout n) s = .next (s.finished
      ((((t.pdOr rPD_RESET_CAUSE (2 ^ (2 + n.val))).pdEvent 0x0D n [toB n]).supBelow n false).irq 0xF1 3))) ∧
  (∀ c : Fin 4, s.supervised (2 + c) = true →
    exec (.viofResetLevel c) s = .next (s.finished
      ((((((s.supBelow (2 + c) true).supBelow (10 + c) true).bankOk c false).pdEvent 0x0D (2 + c) [toB (2 + c)]).pdRaise 106).pdIrq 0xF1 3)) ∧
    exec (.bankSupplyOk c) s = .next (s.finished (((s.supBelow (2 + c) false).supBelow (10 + c) false).bankOk c true))) ∧
  (∀ (n : Fin 16) level, bitOf (s.pdReg (rPD_DIO_IN (n / 4))) (n % 4) ≠ level → let cfg := s.pdReg (rPD_DI_CFG (n / 4) (n % 4))
    let t := s.pdSet (rPD_DIO_IN (n / 4)) (toW (natPut (s.pdReg (rPD_DIO_IN (n / 4))).toNat (n % 4) (n % 4) (b2n level)))
    let u := (t.pdOr (rPD_DIO_EDGE (n / 4)) (2 ^ (if level then n.val % 4 else n.val % 4 + 4))).pdIrq (0xF4 + n / 4) 2
    let c := u.pdInc (rPD_DI_COUNT (n / 4) (n % 4))
    let due := fldOf cfg fPD_DI_CFG_ledger_en ≠ 0 ∧ (c.pdReg (rPD_DI_COUNT (n / 4) (n % 4))).toNat % 2 ^ fldOf cfg fPD_DI_CFG_ledger_m = 0
    let w := if (fldOf cfg fPD_DI_CFG_count_edge).testBit (if level then 0 else 1) then (if due then c.diRecord n else c) else u
    exec (.diEdge n level) s = .next (s.finished (if fldOf cfg fPD_DI_CFG_wake ≠ 0 then w.wakeBy [6] else w))) ∧
  (∀ (n : Fin 16) level, bitOf (s.pdReg (rPD_DIO_IN (n / 4))) (n % 4) = level → exec (.diEdge n level) s = .next (s.finished s)) ∧
  (∀ n : Fin 16, s.outOn (n / 4) (n % 4) = true → let t : State := { s with pd := { s.pd with latched := s.pd.latched ||| 2 ^ n.val } }
    exec (.doShort n false) s = .next (s.finished
      (((((t.pdOr (rPD_DIO_DIAG (n / 4)) (2 ^ (n.val % 4))).pdIrq (0xF4 + n / 4) 3).outShow (n / 4)).pdEvent 0x10 n [toB n, toB 0]).pdRaise 107 (0xF4 + n / 4))) ∧
    (s.pdFlag (rPD_DO_CFG (n / 4) (n % 4)) fPD_DO_CFG_open_det = true → exec (.doOpenLoad n) s = .next (s.finished
      ((((s.pdOr (rPD_DIO_DIAG (n / 4)) (2 ^ (n.val % 4 + 4))).pdIrq (0xF4 + n / 4) 3).pdEvent 0x11 n [toB n]).pdRaise 108 (0xF4 + n / 4))))) ∧
  (∀ u : Fin 16, (s.servo.trigs.contains (u.val, false) = false → exec (.doTimedFire u) s = .next (s.finished s)) ∧
    (s.servo.trigs.contains (u.val, false) = true → exec (.doTimedFire u) s = .next (s.finished
      (({ s with servo := { s.servo with trigs := s.servo.trigs.filter (· != (u.val, false)) } } : State).doTimedAll u)))) ∧
  (∀ (u : Fin 16) g i, s.pdGet (rPD_DO_TIMED g i) fPD_DO_TIMED_arm = 1 → s.pdGet (rPD_DO_TIMED g i) fPD_DO_TIMED_unit = u.val →
    s.pd.latched.testBit (4 * g + i) = false → let t := (s.pdPut (rPD_DO_TIMED g i) fPD_DO_TIMED_arm 0).pdIrq (0xF4 + g) 4
    s.doTimed u g i = (t.pdSet (rPD_DIO_OUT g) (toW (natPut (t.pdReg (rPD_DIO_OUT g)).toNat i i
      (s.pdGet (rPD_DO_TIMED g i) fPD_DO_TIMED_level)))).outShow g) ∧
  exec .pdTemperatureHigh s = .next (s.finished (s.pdRaise 110)))

/-- Resets and the watchdog (R481, R522 to R528, R538): every reset command resets with its cause, chip_reset only with its key. A warm reset from L0
shows its cause, takes general SRAM and keeps the retention bank below the staging area and the keep area; L6 ignores it; further warm causes before
Cumin combine. The watchdog starts, is kicked by those who may, raises source 113 at the end of stage 1 and resets at the end of stage 2. -/
def Obligations.ResetsAndWatchdog : Prop := ∀ (s : State),
  (∀ c : Fin 4, exec (.coldReset c) s = .next (s.finished (s.resetCause (c + 1)))) ∧
  (∀ c : Fin 5, exec (.warmReset c) s = .next (s.finished (s.resetCause (0x10 + c)))) ∧
  exec .resetN s = .next (s.finished (s.resetCause 0x10)) ∧ exec .powerDieReset s = .next (s.finished (s.powerDieReset true)) ∧
  (∀ q v, s.accepts q rRST_CMD v →
    (bitOf v 0 = true → natBits v.toNat 15 8 = 0xC3 → exec (.chipReset q v) s = .next (s.finished ((s.resetCause 0x14).wrote q 0))) ∧
    (bitOf v 0 = false ∨ natBits v.toNat 15 8 ≠ 0xC3 → exec (.chipReset q v) s = .next (s.finished (s.wrote q 0)))) ∧
  (∀ code, code ∈ [0x10, 0x11, 0x12, 0x13, 0x14] → s.rst.active = false → s.pwr.level = 0 → let t := s.resetCause code
    t.rst.active = true ∧ t.rst.cold = false ∧ t.get rRST_CAUSE fRST_CAUSE_code = code ∧ (∀ a, a < 0x300000 → t.byte a = memDefault a) ∧
    (∀ a, 0x300000 ≤ a → a < 0x30C000 → t.byte a = s.byte a) ∧ (∀ a, 0x310000 ≤ a → a < 0x310100 → t.byte a = s.byte a)) ∧
  (∀ code, code ∈ [0x10, 0x11, 0x12, 0x13, 0x14] → s.pwr.level = 6 → s.resetCause code = s) ∧
  (∀ code, code ∈ [0x10, 0x11, 0x12, 0x13, 0x14] → s.rst.active = true → s.rst.causes.contains code = false → s.pwr.level ≠ 6 →
    s.resetCause code = ({ s with rst := { s.rst with causes := s.rst.causes ++ [code] } } : State).recordCauses) ∧
  (∀ q v, let w := v ||| 0x80000000
    s.accepts q rRST_WDT_CFG w → s.flag rRST_WDT_CFG fRST_WDT_CFG_enable = false → s.pwr.level = 0 →
    exec (.wdtEnable q v) s = .next (s.finished (((s.store rRST_WDT_CFG w).wdtStart 1).wrote q 0))) ∧
  (∀ q v, s.accepts q rRST_WDT_KICK v →
    let may := q.master = 0 ∨ (q.master = 1 ∨ q.master = 2) ∧ s.flag rRST_WDT_CFG fRST_WDT_CFG_host_kick = true
    (v = 0xA55A → may → s.rst.stage ≠ 0 → exec (.wdtKick q v) s = .next (s.finished ((s.wdtStart 1).wrote q 0))) ∧
    (v ≠ 0xA55A ∨ ¬ may ∨ s.rst.stage = 0 → exec (.wdtKick q v) s = .next (s.finished (s.wrote q 0)))) ∧
  (s.enabled 0x01 = true → s.rst.stage = 1 → exec .wdtStage1Expire s = .next (s.finished ((((s.inc rRST_CNT_WDT).irq 0x01 2).raise 113).wdtStart 2))) ∧
  (s.enabled 0x01 = true → s.rst.stage = 2 → exec .wdtStage2Expire s = .next (s.finished (s.resetCause 0x11))) ∧
  (s.rst.stage = 0 → exec .wdtStage1Expire s = .next (s.finished s) ∧ exec .wdtStage2Expire s = .next (s.finished s))

/-- Power levels (R519, R528 to R537): PWR_CMD drains the core and enters the level it names, or counts the refusal and shows its code; an entry to L5
or L6 waits for the ledger's flush, up to 2 s. The hush level is entered when the hub is quiet, and left. Error attention and an enabled timer wake
L2 and L3 to L0; L6 ends by a cold reset; L5 comes back with its cause code. Clocks and temperature (R540, R588): a PLL that unlocks is counted and
raises source 118 while its clock runs; a bad reference clock raises source 119; CHIP_CMD clears the maximum; a measurement that passes 115 degrees
raises source 125, one that passes 130 degrees source 126, one below neither. -/
def Obligations.PowerLevelsClocksAndTemperature : Prop :=
 (∀ (s : State),
  (∀ q v, s.accepts q rPWR_CMD v → bitOf v 31 = true → s.flag rPWR_STATUS fPWR_STATUS_busy = false →
    s.flag rFWU_STATUS fFWU_STATUS_handover_active = false → let n := v.toNat % 8
    let code := s.pwrRefusal n
    let t := s.put rPWR_STATUS fPWR_STATUS_refusal code
    (s.pwrWaits n = false → code = 0 → exec (.pwrCmd q v) s = .next (s.finished ((t.drainCore.enterLevel n).wrote q 0))) ∧
    (s.pwrWaits n = false ∨ 1 ≤ code ∧ code ≤ 4 → code ≠ 0 → exec (.pwrCmd q v) s = .next (s.finished
      (((t.inc rPWR_CNT_REFUSED).irq 0x02 3).wrote q 0))) ∧
    (s.pwrWaits n = true → code = 0 ∨ 4 < code → exec (.pwrCmd q v) s = .next (s.finished
      (({ s.put rPWR_STATUS fPWR_STATUS_busy 1 with pwr := { s.pwr with waitFor := some (n, s.pd.ticks) } } : State).wrote q 0)))) ∧
  (∀ n since, s.pwr.waitFor = some (n, since) → s.pd.ticks - since ≤ 500000000 →
    (s.staged ≠ 0 → s.pwrWaited = s) ∧
    (s.staged = 0 → let t : State := { s.put rPWR_STATUS fPWR_STATUS_busy 0 with pwr := { s.pwr with waitFor := none } }
      s.pwrWaited = t.pwrDecide n (t.pwrRefusal n))) ∧
  (∀ n since, s.pwr.waitFor = some (n, since) → 500000000 < s.pd.ticks - since →
    let t := (({ s with pwr := { s.pwr with waitFor := none } } : State).put rPWR_STATUS fPWR_STATUS_busy 0).put rPWR_STATUS fPWR_STATUS_refusal 4
    s.pwrWaited = (t.inc rPWR_CNT_REFUSED).irq 0x02 3) ∧
  (∀ n, 2 ≤ n → n ≤ 6 → let t := s.enterLevel n
    t.pwr.level = n ∧ t.pwr.waking = false ∧ t.rst.stage = 0 ∧ t.get rPWR_STATUS fPWR_STATUS_last_level = n) ∧
  (∀ n, n < 2 ∨ 6 < n → s.pwrRefusal n = 1) ∧
  (s.flag rPWR_CFG fPWR_CFG_hush_en = true → s.pwr.level = 0 → s.quiet = true → s.enabled 0x02 = true → exec .hushEnter s = .next (s.finished
    { s.put rPWR_STATUS fPWR_STATUS_level 1 with pwr := { s.pwr with level := 1 }, rst := { s.rst with stage := 0 } })) ∧
  (s.quiet = false → exec .hushEnter s = .next (s.finished s)) ∧
  (s.pwr.level = 1 → exec .hushExit s = .next (s.finished
    (({ s.put rPWR_STATUS fPWR_STATUS_level 0 with pwr := { s.pwr with level := 0 } } : State).wdtResume))) ∧
  (∀ b0 b1, s.pwr.level = 2 ∨ s.pwr.level = 3 → s.pwr.waking = false → ∃ T : State, exec (.wake [0] b0 b1) s = .next (s.finished T) ∧ T.pwr.level = 0 ∧
    T.pwr.waking = false ∧ T.get rPWR_STATUS fPWR_STATUS_level = 0 ∧ T.get rPWR_STATUS fPWR_STATUS_wake = 0 ∧
    T.get rPWR_STATUS fPWR_STATUS_busy = 0) ∧
  (∀ b0 b1, s.pwr.level = 2 ∨ s.pwr.level = 3 → s.pwr.waking = false → (s.reg rPWR_WAKE_EN).toNat.testBit 5 = true → bitOf (s.reg rPWR_WAKE_TIMER) 31 = true →
    ∃ T : State, exec (.wakeTimerExpire b0 b1) s = .next (s.finished T) ∧ T.pwr.level = 0 ∧ T.get rPWR_STATUS fPWR_STATUS_wake = 5) ∧
  (∀ b0 b1, s.pwr.level = 0 → s.pwr.waking = false → ∀ codes, exec (.wake codes b0 b1) s = .next (s.finished s)) ∧
  (∀ b0 b1, s.pwr.level = 6 → s.pwr.waking = true → let w := s.get rPWR_STATUS fPWR_STATUS_wake
    let x := (s.pdOr rPD_RESET_CAUSE 16).pdEvent 0x14 w []
    exec (.wake [] b0 b1) s = .next (s.finished
      (((({ x with pd := { x.pd with l6 := false } } : State).hpwr).resetCause 0x04).stage 0x02 (6 * 256) [toB w]))) ∧
  (∀ b0 b1, let t := s.resumeFrom 5 b0 b1
    t.get rRST_CAUSE fRST_CAUSE_code = 0x21 ∧ t.pwr.level = 0 ∧ t.pwr.resume = 5)) ∧
 (∀ (s : State) (q : Req),
  (∀ pll : Fin 3, s.pwr.level < 3 → s.enabled 0x03 = true → exec (.pllUnlock pll) s = .next (s.finished
    (((({ s with pwr := { s.pwr with unlocked := s.pwr.unlocked ||| 2 ^ pll.val } } : State).inc rCLK_CNT_UNLOCK).irq 0x03 2).raise 118))) ∧
  (s.enabled 0x03 = true → exec (.refclkFault none) s = .next (s.finished
    ((({ s with pwr := { s.pwr with refBad := true } } : State).irq 0x03 3).raise 119))) ∧
  (∀ p, s.crystal = true → (sxInt 16 p).natAbs ≤ 2000 → exec (.refclkFault (some p)) s = .next (s.finished
    (let t := s.setReg rCLK_REF_PPM (toW (p % 2 ^ 16)); { t with pwr := { t.pwr with refBad := false } }))) ∧
  (∀ v, s.accepts q rCHIP_CMD (v ||| 1) → exec (.chipTempCmd q v) s = .next (s.finished ((s.setReg rCHIP_TEMP_MAX 0x8000).wrote q 0))) ∧
  (∀ t, t < 32768 → s.enabled 0x00 = true → sxInt 16 (s.get rCHIP_TEMP fCHIP_TEMP_temp) ≤ 1150 → 1150 < t → t ≤ 1300 → ∃ T : State,
    exec (.chipTempHigh t) s = .next (s.finished (T.raise 125)) ∧ T.reg rCHIP_TEMP = toW t) ∧
  (∀ t, t < 32768 → s.enabled 0x00 = true → 1150 < sxInt 16 (s.get rCHIP_TEMP fCHIP_TEMP_temp) →
    sxInt 16 (s.get rCHIP_TEMP fCHIP_TEMP_temp) ≤ 1300 → 1300 < t → ∃ T : State,
    exec (.chipTempHigh t) s = .next (s.finished (T.raise 126)) ∧ T.reg rCHIP_TEMP = toW t) ∧
  (∀ t, t ≤ 1150 → ∃ T : State, exec (.chipTempHigh t) s = .next (s.finished T) ∧ T.reg rCHIP_TEMP = toW t ∧ T.raises = s.raises))

/-- Firmware update commands (R549 to R556, R562, R566). Open begins a session and erases its target, or is refused; write takes a good block and
refuses a bad one; commit verifies; activate is a Warden's, of a committed image; load starts an image that verifies; send makes fragments for one
node; abort ends the session. A fragment is taken on the ring only when allowed, and a late block dropped. Cumin boots from flash after a reset with
those straps, and on the way out of L4 and L5. -/
def Obligations.FirmwareUpdateActs : Prop := ∀ (s : State) (q : Req) (v : Word), v &&& 0x1FF = 0 →
  (s.accepts q rFWU_CMD (v ||| 0x001) → exec (.fwuOpen q v) s = .next (s.finished (s.fwuOpen.wrote q 0))) ∧
  (s.flag rFWU_STATUS fFWU_STATUS_confirm_pending = true → s.boot.slot = s.inactiveSlot → s.fwuOpen = s.blockRefused 0 6) ∧
  (s.flag rFWU_STATUS fFWU_STATUS_confirm_pending = false ∨ s.boot.slot ≠ s.inactiveSlot → s.toLoad = true → let t := s.fwuOpen
    t.flag rFWU_STATUS fFWU_STATUS_session_open = true ∧ t.boot.pages = [] ∧ t.reg rFWU_RESULT = toW (2 ^ 31) ∧
    ∀ a, loadBase ≤ a → a < loadBase + 0x100000 → t.byte a = memDefault a) ∧
  (s.flag rFWU_STATUS fFWU_STATUS_erasing = true → exec .fwuEraseDone s = .next (s.finished
    (((s.eraseRange (slotBase s.inactiveSlot) 0x200000).put rFWU_STATUS fFWU_STATUS_erasing 0).fwuResult 0 0 0 0))) ∧
  (∀ bad, s.accepts q rFWU_CMD (v ||| 0x002) → let a := (s.reg rFWU_BLK_ADDR).toNat
    let h := s.bytes a 24
    s.memRange a 24 = some .general ∨ s.memRange a 24 = some .cs1 → hdrNat h 12 4 ≤ 65536 → let data := s.bytes (a + 24) (hdrNat h 12 4)
    (s.blockCode h data bad ≠ 0 → exec (.fwuWrite q v bad) s = .next (s.finished ((s.blockRefused 1 (s.blockCode h data bad)).wrote q 0))) ∧
    (s.blockCode h data bad = 0 → let t := s.setBytes (s.updBase + hdrNat h 8 4) data
      let u : State := { t with boot := { t.boot with pages := t.boot.pages ++ blockPagesOf (hdrNat h 8 4) (hdrNat h 12 4) } }
      exec (.fwuWrite q v bad) s = .next (s.finished
        ((((u.put rFWU_STATUS fFWU_STATUS_commit_ok 0).inc rFWU_CNT_BLOCKS).fwuResult 1 0 0 0).wrote q 0)))) ∧
  (∀ bad, s.accepts q rFWU_CMD (v ||| 0x002) → s.memRange (s.reg rFWU_BLK_ADDR).toNat 24 = none →
    exec (.fwuWrite q v bad) s = .next (s.finished ((s.blockRefused 1 1).wrote q 0))) ∧
  (∀ bad, s.accepts q rFWU_CMD (v ||| 0x004) → s.flag rFWU_STATUS fFWU_STATUS_erasing = true →
    exec (.fwuCommit q v bad) s = .next (s.finished ((s.fwuResult 2 0 6 0).wrote q 0))) ∧
  (∀ bad, s.accepts q rFWU_CMD (v ||| 0x004) → s.flag rFWU_STATUS fFWU_STATUS_erasing = false → let c := s.verifyAt (slotBase s.inactiveSlot) bad
    (c ≠ 0 → exec (.fwuCommit q v bad) s = .next (s.finished
      ((((s.put rFWU_STATUS fFWU_STATUS_commit_ok 0).inc rFWU_CNT_COMMIT_FAIL).fwuResult 2 c 0 0).wrote q 0))) ∧
    (c = 0 → let n := hdrVersion (s.bytes (slotBase s.inactiveSlot) 512)
      let t := (s.put rFWU_STATUS fFWU_STATUS_commit_ok 1).setReg rFWU_IMG_VERSION (toW n)
      exec (.fwuCommit q v bad) s = .next (s.finished (((t.fwEntry 1 t.inactiveSlot n).fwuResult 2 0 0 0).wrote q 0)))) ∧
  (s.accepts q rFWU_CMD (v ||| 0x008) → (s.flag rFWU_STATUS fFWU_STATUS_commit_ok = true → s.levelOf q = .warden → exec (.fwuActivate q v) s = .next (s.finished
      (((s.writeBcr (bcrActive s.bcr) s.inactiveSlot 1 (hdrNat s.bcr 16 4) (s.reg rFWU_IMG_VERSION).toNat).fwuResult 3 0 0 0).wrote q 0))) ∧
    (s.flag rFWU_STATUS fFWU_STATUS_commit_ok = false ∨ s.levelOf q ≠ .warden → exec (.fwuActivate q v) s = .next (s.finished
      ((s.fwuResult 3 0 0 9).wrote q 0)))) ∧
  (s.accepts q rFWU_CMD (v ||| 0x040) → s.flag rFWU_STATUS fFWU_STATUS_cumin = true → s.verifyAt loadBase false ≠ 0 →
    exec (.fwuLoad q v) s = .next (s.finished ((s.fwuResult 6 (s.verifyAt loadBase false) 0 0).wrote q 0))) ∧
  (s.accepts q rFWU_CMD (v ||| 0x040) → s.flag rFWU_STATUS fFWU_STATUS_cumin = true → s.verifyAt loadBase false = 0 → ∃ T : State,
    exec (.fwuLoad q v) s = .next (s.finished (T.wrote q 0)) ∧ T.flag rFWU_STATUS fFWU_STATUS_cumin = false ∧
    T.boot.hdr = s.bytes loadBase 512 ∧ T.reg rFWU_RUN_VERSION = toW (hdrVersion (s.bytes loadBase 512))) ∧
  (s.accepts q rFWU_CMD (v ||| 0x080) → s.nodeId 0 = none → exec (.fwuSend q v) s = .next (s.finished (((s.irq 0xC0 3).fwuResult 7 0 0 0).wrote q 0))) ∧
  (∀ me, s.accepts q rFWU_CMD (v ||| 0x080) → s.nodeId 0 = some me → let dst := s.get rFWU_SEND_NODE fFWU_SEND_NODE_node
    (dst % 256 = 255 → exec (.fwuSend q v) s = .next (s.finished ((s.fwuResult 7 0 0 9).wrote q 0))) ∧
    (dst % 256 ≠ 255 → let a := (s.reg rFWU_BLK_ADDR).toNat
      let h := s.bytes a 24
      let len := min 65536 (hdrNat h 12 4)
      let l := s.bytes a (24 + len)
      let frag (x : State) (n : Nat) := mkFrame 0xC 3 0 0 0 (x.get rFWU_SEND_NODE fFWU_SEND_NODE_node) me 0xF4C0 x.boot.send
        (fwFragment l (hdrNat h 4 2) (hdrNat h 8 4) len n ((24 + len + 447) / 448))
      let t := (List.range ((24 + len + 447) / 448)).foldl (fun (x : State) n =>
        ({ x with boot := { x.boot with send := (x.boot.send + 1) % 65536 } } : State).present 14 (frag x n)) s
      exec (.fwuSend q v) s = .next (s.finished (((t.irq 0xC0 3).fwuResult 7 0 0 0).wrote q 0)))) ∧
  (s.accepts q rFWU_CMD (v ||| 0x100) → exec (.fwuAbort q v) s = .next (s.finished
    (((s.put rFWU_STATUS fFWU_STATUS_session_open 0).fwuResult 8 0 0 0).wrote q 0))) ∧
  (∀ bad d, s.enabled 0xC0 = true → (s.outbox 14).find? (fun d => d.frame.kind = 0xC) = some d → d.discard = false → let t := s.setOutbox 14 ((s.outbox 14).erase d)
    (s.flag rFWU_CFG fFWU_CFG_ring_en = false → exec (.fwFragmentReceived bad) s = .next (s.finished (t.inc rFWU_CNT_FRAG_DISCARD))) ∧
    (s.flag rFWU_CFG fFWU_CFG_ring_en = true → d.level ≠ 0 → 16 ≤ d.frame.payload.length →
      exec (.fwFragmentReceived bad) s = .next (s.finished (t.asmAdd d.frame.payload bad)))) ∧
  exec .fwAssemblyTimeout s = .next (s.finished s.asmDrop) ∧
  (∀ v : Word, s.accepts q rFWU_MEAS_EXT v → (v.toNat % 4 < 2 → exec (.fwuMeasExt q v) s = .next (s.finished ((s.warn 0xC0).wrote q 0))) ∧
    (2 ≤ v.toNat % 4 → exec (.fwuMeasExt q v) s = .next (s.finished
      ((s.extend (v.toNat % 4) ((List.range 8).flatMap (fun w => beBytes 4 (s.reg (rFWU_MEAS_DATA w)).toNat))).wrote q 0)))) ∧
  (s.enabled 0xC1 = true → exec .xspiTimeout s = .next (s.finished (((s.inc rXSPI_CNT_TIMEOUT).irq 0xC1 2).raise 120))) ∧
  (∀ otpBad bad, s.pwr.resume = 0 → s.rst.active = false → exec (.cuminStart otpBad bad) s = .next (s.finished s)) ∧
  (∀ otpBad bad, s.pwr.resume ≠ 0 → exec (.cuminStart otpBad bad) s = .next (s.finished
    (({ s with pwr := { s.pwr with resume := 0 } } : State).flashBoot bad false))) ∧
  (∀ bad, s.pwr.resume = 0 → s.rst.active = true →
    let t := ({ s with rst := { s.rst with active := false, causes := [] } } : State).setReg rXSPI_CS0_CFG (toW (b2n Config.otpXspiBoot * 2 ^ 8 + 26))
    t.flag rCHIP_STRAPS fCHIP_STRAPS_recover_n = true → t.bootSel = 0 →
    exec (.cuminStart false bad) s = .next (s.finished (t.flashBoot bad true)))

/-- Handover, confirm and rollback (R557 to R561): a Warden's handover of a committed image begins unless R560 refuses it; ready or the timeout stops
Anise; the copy starts an image whose body checks, and its confirm is pending; resumed ends the handover and the work held is done; confirm ends the
trial, and 10 s without it raise source 121 and hand back or reset. The mailboxes (R563, R564): a doorbell makes the request busy, one while busy or
done is a violation with source 122, a repeat of the last answer sets done; Anise's answers carry the request's code and sequence and its own
status; each host clears its own done. -/
def Obligations.HandoverConfirmAndMailboxes : Prop :=
 (∀ (s : State) (q : Req) (v : Word), v &&& 0x1FF = 0 →
  (s.accepts q rFWU_CMD (v ||| 0x010) → (s.levelOf q = .warden → s.handoverRefused = false → exec (.fwuHandover q v) s = .next (s.finished
      (((s.handoverBegin s.inactiveSlot false).fwuResult 4 0 0 0).wrote q 0))) ∧
    (s.levelOf q ≠ .warden ∨ s.handoverRefused = true → exec (.fwuHandover q v) s = .next (s.finished ((s.fwuResult 4 0 0 9).wrote q 0)))) ∧
  (s.boot.ho = 1 → let t : State := { s with boot := { s.boot with ho := 2 }, rst := { s.rst with stage := 0 } }
    exec .handoverTimeout s = .next (s.finished t)) ∧
  (∀ w : Word, s.boot.ho = 1 → s.accepts q rANI_HANDOVER (w ||| 1) → let t := s.store rANI_HANDOVER (w ||| 1)
    exec (.handoverReady q w) s = .next (s.finished
      (({ t with boot := { t.boot with ho := 2 }, rst := { t.rst with stage := 0 } } : State).wrote q 0))) ∧
  (s.boot.ho = 2 → ∀ bad, let h := s.bytes (slotBase s.boot.hoSlot) 512
    bad.testBit s.boot.hoSlot = false → sha256 (s.bytes (slotBase s.boot.hoSlot + 512) (hdrLength h)) = slice h 32 32 → ∃ T : State,
    exec (.handoverCopyDone bad) s = .next (s.finished T) ∧ T.boot.ho = 3 ∧ T.boot.slot = s.boot.hoSlot ∧ T.boot.hdr = h ∧
    T.flag rFWU_STATUS fFWU_STATUS_confirm_pending = true) ∧
  (∀ w : Word, s.boot.ho = 3 → s.accepts q rANI_HANDOVER (w ||| 2) → let t := s.store rANI_HANDOVER (w ||| 2)
    let u : State := { t.put rFWU_STATUS fFWU_STATUS_handover_active 0 with boot := { t.boot with ho := 0, held := [], heldRes := [] } }
    exec (.handoverResumed q w) s = .next (s.finished ((t.boot.heldRes.foldl (fun (x : State) r => x.postResidence r)
      (t.boot.held.foldl (fun (x : State) h => x.runHeld h) u)).wrote q 0))) ∧
  (s.accepts q rFWU_CMD (v ||| 0x020) → (s.flag rFWU_STATUS fFWU_STATUS_confirm_pending = false →
      exec (.fwuConfirm q v) s = .next (s.finished ((s.fwuResult 5 0 0 0).wrote q 0))) ∧
    (s.flag rFWU_STATUS fFWU_STATUS_confirm_pending = true → ∃ T : State, exec (.fwuConfirm q v) s = .next (s.finished (T.wrote q 0)) ∧
      T.flag rFWU_STATUS fFWU_STATUS_confirm_pending = false ∧ T.flag rFWU_STATUS fFWU_STATUS_trial = false ∧
      T.reg rFWU_RESULT = toW (2 ^ 31 + 5 * 2 ^ 24) ∧ T.boot.slot = s.boot.slot)) ∧
  (s.flag rFWU_STATUS fFWU_STATUS_confirm_pending = false → exec .confirmTimeout s = .next (s.finished s)) ∧
  (s.enabled 0xC0 = true → s.flag rFWU_STATUS fFWU_STATUS_confirm_pending = true → let t := ((s.raise 121).irq 0xC0 5).fwEntry 4 s.boot.slot (hdrVersion s.boot.hdr)
    (t.flag rANI_BOOT_INFO fANI_BOOT_INFO_handover = false → exec .confirmTimeout s = .next (s.finished (t.warmReset 0x14))) ∧
    (t.flag rANI_BOOT_INFO fANI_BOOT_INFO_handover = true → exec .confirmTimeout s = .next (s.finished
      ((t.put rFWU_STATUS fFWU_STATUS_confirm_pending 0).handoverBegin
        (bcrActive (t.put rFWU_STATUS fFWU_STATUS_confirm_pending 0).bcr) true))))) ∧
 (∀ (s : State) (q : Req) (h : Fin 2),
  (∀ v, s.accepts q (rANI_MB_DOORBELL h) v → let a := rANI_MB_STATUS h
    (s.flag a fANI_MB_STATUS_busy = true ∨ s.flag a fANI_MB_STATUS_done = true → exec (.mailboxDoorbell q h v) s = .next (s.finished
      (((s.inc rANI_CNT_MB_VIOL).raise 122).wrote q 0))) ∧
    (s.flag a fANI_MB_STATUS_busy = false → s.flag a fANI_MB_STATUS_done = false → (if h = 0 then s.boot.ansA else s.boot.ansB) = false →
      ∃ T : State, exec (.mailboxDoorbell q h v) s = .next (s.finished (T.wrote q 0)) ∧ T.flag a fANI_MB_STATUS_busy = true ∧
      T.mbSeq h = v.toNat % 65536) ∧
    (s.flag a fANI_MB_STATUS_busy = false → s.flag a fANI_MB_STATUS_done = false → (if h = 0 then s.boot.ansA else s.boot.ansB) = true →
      s.get a fANI_MB_STATUS_seq = v.toNat % 65536 → s.flag rFWU_STATUS fFWU_STATUS_handover_active = false →
      exec (.mailboxDoorbell q h v) s = .next (s.finished ((s.mbRepeat h).wrote q 0)))) ∧
  (s.flag (rANI_MB_STATUS h) fANI_MB_STATUS_busy = true → s.flag rFWU_STATUS fFWU_STATUS_handover_active = false →
    s.flag rFWU_STATUS fFWU_STATUS_cumin = false →
    (s.mbCode h = 0x01 → s.mbLength h = 0 → let x := s.boot.hdr
      exec (.mailboxVersion h) s = .next (s.finished (s.mbRespond h 0
        (([hdrVersion x, hdrNat x 22 2, hdrNat x 24 2, hdrNat x 26 2, (s.reg rANI_CUMIN_VERSION).toNat, s.boot.slot].map (leBytes 4)).flatten)))) ∧
    (s.mbCode h = 0x02 → s.mbLength h = 0 → exec (.mailboxHealth h) s = .next (s.finished (s.mbRespond h 0
      (([rFLT_PENDING, rTB_STATUS 0, rRCTL_STATUS 0, rRCTL_STATUS 1, rPWR_STATUS].map (fun a => leBytes 4 (s.healthWord a))).flatten)))) ∧
    (s.mbCode h = 0x10 → s.mbLength h = 4 → ∀ writes, exec (.applyConfiguration h false writes) s = .next (s.finished (s.mbRespond h 5 [])) ∧
      exec (.applyConfiguration h true writes) s = .next (s.finished
        ((s.applyConfig h writes).2.mbRespond h 0 (leBytes 4 (s.applyConfig h writes).1)))) ∧
    (s.mbCode h = 0x11 → s.mbLength h = 0 → ∀ data : List Byte, exec (.saveRestoreArea h data) s = .next (s.finished
      ((s.setBytes 0x300000 (data.take 0xC000)).mbRespond h 0 (leBytes 4 (data.take 0xC000).length)))) ∧
    (s.mbCode h = 0x20 → s.mbLength h = 0 → exec (.servoState h) s = .next (s.finished (s.mbRespond h 0
      (([rTB_OFFSET 0, rTB_RATE_LO 0, rTB_CNT_STEP 0].map (fun a => leBytes 4 (s.reg a).toNat)).flatten)))) ∧
    (s.mbCode h = 0x30 → s.mbLength h = 0 → let r := (s.keyRecords 512 0).foldl (fun (acc : Nat × State) d =>
        (acc.1 + b2n (acc.2.keyRestore d).1, (acc.2.keyRestore d).2)) (0, s)
      exec (.restoreKeys h) s = .next (s.finished (r.2.mbRespond h 0 (leBytes 4 r.1)))) ∧
    (s.mbCode h = 0x40 → s.mbLength h = 1 → s.levelOf (mbHost h) = .warden → let n := (s.byte (mbBase h + 16)).toNat
      exec (.enterLevel h) s = .next (s.finished
        (pwrCmdFx (toW (2 ^ 31 + n % 8)) (s.mbRespond h (if n < 8 && s.pwrRefusal n = 0 then 0 else 3) [])))) ∧
    (s.mbCode h = 0x50 → s.mbLength h = 0 → s.levelOf (mbHost h) = .warden → s.handoverRefused = false →
      exec (.mailboxHandover h) s = .next (s.finished ((s.mbRespond h 0 []).fwuHandover (mbHost h)))) ∧
    (s.mbCode h = 0x50 → s.mbLength h = 0 → s.levelOf (mbHost h) ≠ .warden →
      exec (.mailboxHandover h) s = .next (s.finished (s.mbRespond h 4 []))) ∧
    ([0x01, 0x02, 0x10, 0x11, 0x20, 0x30, 0x40, 0x50].contains (s.mbCode h) = false →
      exec (.mailboxVersion h) s = .next (s.finished (s.mbRespond h 1 []))) ∧
    (s.mbCode h = 0x01 → s.mbLength h ≠ 0 → exec (.mailboxVersion h) s = .next (s.finished (s.mbRespond h 2 [])))) ∧
  (∀ status, let t := s.mbRespond h status []
    t.reg (rANI_MB_STATUS h) = toW (2 ^ 30 + s.mbSeq h) ∧ t.bytes (mbBase h + 0x800) 9 =
      leBytes 2 (s.mbCode h) ++ leBytes 2 (s.mbSeq h) ++ leBytes 4 0 ++ [toB status]) ∧
  (∀ v, s.accepts q rANI_MB_ACK v →
    (bitOf v 0 = true → q.master = 1 → exec (.mailboxAck q v) s = .next (s.finished ((s.put (rANI_MB_STATUS 0) fANI_MB_STATUS_done 0).wrote q 0))) ∧
    (bitOf v 1 = true → q.master = 2 → exec (.mailboxAck q v) s = .next (s.finished ((s.put (rANI_MB_STATUS 1) fANI_MB_STATUS_done 0).wrote q 0))) ∧
    (bitOf v 0 = true → bitOf v 1 = false → q.master = 2 → exec (.mailboxAck q v) s = .next (s.finished (s.wrote q 0)))))
end

