-- ==== Sys2Proof/Laws/Sparse.lean ====
section
/-! SUPPORT. Laws of sparse stores: a read after a write, and that every operation keeps the canonical form. -/
namespace Sys2Proof.Machine

variable {β : Type}

theorem spGet_spErase_same (d : Nat → β) (m : List (Nat × β)) (k : Nat) : spGet d (spErase m k) k = d k := by
  induction m with
  | nil => rfl
  | cons e m ih =>
    obtain ⟨a, v⟩ := e
    by_cases h : a = k <;> simp [spErase, spGet, h, ih]

theorem spGet_spErase_ne (d : Nat → β) (m : List (Nat × β)) {j k : Nat} (h : j ≠ k) : spGet d (spErase m k) j = spGet d m j := by
  induction m with
  | nil => rfl
  | cons e m ih =>
    obtain ⟨a, v⟩ := e
    by_cases ha : a = k
    · subst ha
      simp [spErase, spGet, Ne.symm h, ih]
    · simp only [spErase, if_neg ha, spGet, ih]

theorem spGet_spInsert_same (d : Nat → β) (m : List (Nat × β)) (k : Nat) (v : β) : spGet d (spInsert (spErase m k) k v) k = v := by
  induction m with
  | nil => simp [spErase, spInsert, spGet]
  | cons e m ih =>
    obtain ⟨a, w⟩ := e
    by_cases ha : a = k
    · simp [spErase, ha, ih]
    · by_cases hk : k < a <;> simp [spErase, spInsert, spGet, ha, hk, ih]

theorem spGet_spInsert_ne (d : Nat → β) (m : List (Nat × β)) {j k : Nat} (v : β) (h : j ≠ k) :
    spGet d (spInsert m k v) j = spGet d m j := by
  induction m with
  | nil => simp [spInsert, spGet, Ne.symm h]
  | cons e m ih =>
    obtain ⟨a, w⟩ := e
    by_cases hk : k < a
    · simp [spInsert, spGet, hk, Ne.symm h]
    · simp only [spInsert, if_neg hk, spGet, ih]

/-- A key reads as what was written to it. -/
@[simp] theorem spGet_spSet_same [DecidableEq β] (d : Nat → β) (m : List (Nat × β)) (k : Nat) (v : β) : spGet d (spSet d m k v) k = v := by
  unfold spSet
  split
  · rename_i h
    rw [spGet_spErase_same, h]
  · exact spGet_spInsert_same d m k v

/-- A write leaves every other key alone. -/
theorem spGet_spSet_ne [DecidableEq β] (d : Nat → β) (m : List (Nat × β)) {j k : Nat} (v : β) (h : j ≠ k) :
    spGet d (spSet d m k v) j = spGet d m j := by
  unfold spSet
  split
  · exact spGet_spErase_ne d m h
  · rw [spGet_spInsert_ne d _ v h, spGet_spErase_ne d m h]

/-- Every key of a store lies above k. -/
def spAbove (k : Nat) (m : List (Nat × β)) : Prop := ∀ e ∈ m, k < e.1

theorem spWf_cons_iff [DecidableEq β] (d : Nat → β) (k : Nat) (v : β) (m : List (Nat × β)) :
    spWf d ((k, v) :: m) = true ↔ v ≠ d k ∧ spAbove k m ∧ spWf d m = true := by
  induction m generalizing k v with
  | nil => simp [spWf, spAbove]
  | cons e m ih =>
    obtain ⟨a, w⟩ := e
    simp only [spWf, Bool.and_eq_true, decide_eq_true_eq]
    constructor
    · rintro ⟨⟨h1, h2⟩, h3⟩
      refine ⟨h2, ?_, h3⟩
      intro e he
      rcases List.mem_cons.1 he with rfl | he
      · exact h1
      · exact Nat.lt_trans h1 (((ih a w).1 h3).2.1 e he)
    · rintro ⟨h1, h2, h3⟩
      exact ⟨⟨h2 (a, w) (List.mem_cons_self ..), h1⟩, h3⟩

theorem spAbove_spErase {k : Nat} {m : List (Nat × β)} (j : Nat) (h : spAbove k m) : spAbove k (spErase m j) := by
  induction m with
  | nil => exact h
  | cons e m ih =>
    obtain ⟨a, v⟩ := e
    have hm : spAbove k m := fun e he => h e (List.mem_cons_of_mem _ he)
    unfold spErase
    split
    · exact ih hm
    · intro e he
      rcases List.mem_cons.1 he with rfl | he
      · exact h _ (List.mem_cons_self ..)
      · exact ih hm e he

theorem spAbove_spInsert {k j : Nat} {m : List (Nat × β)} (v : β) (hj : k < j) (h : spAbove k m) : spAbove k (spInsert m j v) := by
  induction m with
  | nil => intro e he; simp [spInsert] at he; subst he; exact hj
  | cons e m ih =>
    obtain ⟨a, w⟩ := e
    have hm : spAbove k m := fun e he => h e (List.mem_cons_of_mem _ he)
    have ha : k < a := h (a, w) (List.mem_cons_self ..)
    unfold spInsert
    split <;> intro e he <;> rcases List.mem_cons.1 he with rfl | he
    · exact hj
    · rcases List.mem_cons.1 he with rfl | he
      · exact ha
      · exact hm e he
    · exact ha
    · exact ih hm e he

/-- No entry of an erased store has the erased key. -/
theorem not_mem_spErase (m : List (Nat × β)) (k : Nat) : ∀ e ∈ spErase m k, e.1 ≠ k := by
  induction m with
  | nil => intro e he; cases he
  | cons e m ih =>
    obtain ⟨a, v⟩ := e
    unfold spErase
    split
    · exact ih
    · intro e he
      rcases List.mem_cons.1 he with rfl | he
      · assumption
      · exact ih e he

theorem spWf_spErase [DecidableEq β] {d : Nat → β} {m : List (Nat × β)} (k : Nat) (h : spWf d m = true) : spWf d (spErase m k) = true := by
  induction m with
  | nil => exact h
  | cons e m ih =>
    obtain ⟨a, v⟩ := e
    obtain ⟨h1, h2, h3⟩ := (spWf_cons_iff d a v m).1 h
    unfold spErase
    split
    · exact ih h3
    · exact (spWf_cons_iff d a v _).2 ⟨h1, spAbove_spErase k h2, ih h3⟩

theorem spWf_spInsert [DecidableEq β] {d : Nat → β} {m : List (Nat × β)} {k : Nat} {v : β} (hv : v ≠ d k) (hk : ∀ e ∈ m, e.1 ≠ k)
    (h : spWf d m = true) : spWf d (spInsert m k v) = true := by
  induction m with
  | nil => simpa [spInsert, spWf] using hv
  | cons e m ih =>
    obtain ⟨a, w⟩ := e
    obtain ⟨h1, h2, h3⟩ := (spWf_cons_iff d a w m).1 h
    unfold spInsert
    split
    · rename_i hlt
      refine (spWf_cons_iff d k v _).2 ⟨hv, ?_, h⟩
      intro e he
      rcases List.mem_cons.1 he with rfl | he
      · exact hlt
      · exact Nat.lt_trans hlt (h2 e he)
    · rename_i hlt
      have hne : a ≠ k := hk (a, w) (List.mem_cons_self ..)
      exact (spWf_cons_iff d a w _).2 ⟨h1, spAbove_spInsert v (by omega) h2, ih (fun e he => hk e (List.mem_cons_of_mem _ he)) h3⟩

/-- A write keeps the canonical form. -/
theorem spWf_spSet [DecidableEq β] {d : Nat → β} {m : List (Nat × β)} (k : Nat) (v : β) (h : spWf d m = true) : spWf d (spSet d m k v) = true := by
  unfold spSet
  split
  · exact spWf_spErase k h
  · rename_i hv
    exact spWf_spInsert hv (not_mem_spErase m k) (spWf_spErase k h)

theorem spAbove_filter {k : Nat} {m : List (Nat × β)} (p : Nat × β → Bool) (h : spAbove k m) : spAbove k (m.filter p) :=
  fun e he => h e (List.mem_filter.1 he).1

/-- Leaving entries out keeps the canonical form. -/
theorem spWf_filter [DecidableEq β] {d : Nat → β} {m : List (Nat × β)} (p : Nat × β → Bool) (h : spWf d m = true) : spWf d (m.filter p) = true := by
  induction m with
  | nil => exact h
  | cons e m ih =>
    obtain ⟨a, v⟩ := e
    obtain ⟨h1, h2, h3⟩ := (spWf_cons_iff d a v m).1 h
    rw [List.filter_cons]
    split
    · exact (spWf_cons_iff d a v _).2 ⟨h1, spAbove_filter p h2, ih h3⟩
    · exact ih h3

theorem spWf_spDrop [DecidableEq β] {d : Nat → β} {m : List (Nat × β)} (p : Nat → Bool) (h : spWf d m = true) : spWf d (spDrop p m) = true :=
  spWf_filter _ h

theorem spAbove_spMap [DecidableEq β] {d : Nat → β} (f : Nat → β → β) {k : Nat} {m : List (Nat × β)} (h : spAbove k m) :
    spAbove k (spMap d f m) := by
  induction m with
  | nil => exact h
  | cons e m ih =>
    obtain ⟨a, w⟩ := e
    have hm : spAbove k m := fun e he => h e (List.mem_cons_of_mem _ he)
    unfold spMap
    dsimp only
    split
    · exact ih hm
    · intro e he
      rcases List.mem_cons.1 he with rfl | he
      · exact h (a, w) (List.mem_cons_self ..)
      · exact ih hm e he

/-- Passing every entry through a function keeps the canonical form. -/
theorem spWf_spMap [DecidableEq β] {d : Nat → β} (f : Nat → β → β) {m : List (Nat × β)} (h : spWf d m = true) : spWf d (spMap d f m) = true := by
  induction m with
  | nil => exact h
  | cons e m ih =>
    obtain ⟨a, w⟩ := e
    obtain ⟨_, h2, h3⟩ := (spWf_cons_iff d a w m).1 h
    unfold spMap
    dsimp only
    split
    · exact ih h3
    · rename_i hv
      exact (spWf_cons_iff d a _ _).2 ⟨hv, spAbove_spMap f h2, ih h3⟩

end Sys2Proof.Machine
end

