-- ==== Sys2Proof/Laws/State.lean ====
section
/-! SUPPORT. One lemma per field and per update: an update of one part of the state leaves every other part alone. -/
namespace Sys2Proof.Machine

@[simp] theorem State.setReg_mem (s : State) (a : Nat) (v : Word) : (s.setReg a v).mem = s.mem := rfl
@[simp] theorem State.setReg_ttm (s : State) (a : Nat) (v : Word) : (s.setReg a v).ttm = s.ttm := rfl
@[simp] theorem State.setReg_sramBad (s : State) (a : Nat) (v : Word) : (s.setReg a v).sramBad = s.sramBad := rfl
@[simp] theorem State.setReg_pending (s : State) (a : Nat) (v : Word) : (s.setReg a v).pending = s.pending := rfl
@[simp] theorem State.setReg_out (s : State) (a : Nat) (v : Word) : (s.setReg a v).out = s.out := rfl
@[simp] theorem State.setReg_free (s : State) (a : Nat) (v : Word) : (s.setReg a v).free = s.free := rfl
@[simp] theorem State.setReg_slot (s : State) (a : Nat) (v : Word) : (s.setReg a v).slot = s.slot := rfl
@[simp] theorem State.setReg_slotPhase (s : State) (a : Nat) (v : Word) : (s.setReg a v).slotPhase = s.slotPhase := rfl
@[simp] theorem State.setReg_ports (s : State) (a : Nat) (v : Word) : (s.setReg a v).ports = s.ports := rfl
@[simp] theorem State.setReg_rcs (s : State) (a : Nat) (v : Word) : (s.setReg a v).rcs = s.rcs := rfl
@[simp] theorem State.setReg_claims (s : State) (a : Nat) (v : Word) : (s.setReg a v).claims = s.claims := rfl
@[simp] theorem State.setReg_sems (s : State) (a : Nat) (v : Word) : (s.setReg a v).sems = s.sems := rfl
@[simp] theorem State.setReg_beats (s : State) (a : Nat) (v : Word) : (s.setReg a v).beats = s.beats := rfl
@[simp] theorem State.setReg_bases (s : State) (a : Nat) (v : Word) : (s.setReg a v).bases = s.bases := rfl
@[simp] theorem State.setReg_pdWrites (s : State) (a : Nat) (v : Word) : (s.setReg a v).pdWrites = s.pdWrites := rfl
@[simp] theorem State.setReg_held (s : State) (a : Nat) (v : Word) : (s.setReg a v).held = s.held := rfl
@[simp] theorem State.setReg_resets (s : State) (a : Nat) (v : Word) : (s.setReg a v).resets = s.resets := rfl
@[simp] theorem State.setReg_servo (s : State) (a : Nat) (v : Word) : (s.setReg a v).servo = s.servo := rfl
@[simp] theorem State.setReg_tlb (s : State) (a : Nat) (v : Word) : (s.setReg a v).tlb = s.tlb := rfl
@[simp] theorem State.setReg_flw (s : State) (a : Nat) (v : Word) : (s.setReg a v).flw = s.flw := rfl
@[simp] theorem State.setReg_ttbs (s : State) (a : Nat) (v : Word) : (s.setReg a v).ttbs = s.ttbs := rfl
@[simp] theorem State.setReg_ttbLog (s : State) (a : Nat) (v : Word) : (s.setReg a v).ttbLog = s.ttbLog := rfl
@[simp] theorem State.setReg_fab (s : State) (a : Nat) (v : Word) : (s.setReg a v).fab = s.fab := rfl
@[simp] theorem State.setReg_brs (s : State) (a : Nat) (v : Word) : (s.setReg a v).brs = s.brs := rfl
@[simp] theorem State.setReg_tgt (s : State) (a : Nat) (v : Word) : (s.setReg a v).tgt = s.tgt := rfl
@[simp] theorem State.setReg_poll (s : State) (a : Nat) (v : Word) : (s.setReg a v).poll = s.poll := rfl
@[simp] theorem State.setReg_dmas (s : State) (a : Nat) (v : Word) : (s.setReg a v).dmas = s.dmas := rfl
@[simp] theorem State.setReg_barriers (s : State) (a : Nat) (v : Word) : (s.setReg a v).barriers = s.barriers := rfl
@[simp] theorem State.setReg_balls (s : State) (a : Nat) (v : Word) : (s.setReg a v).balls = s.balls := rfl
@[simp] theorem State.setReg_fqs (s : State) (a : Nat) (v : Word) : (s.setReg a v).fqs = s.fqs := rfl
@[simp] theorem State.setReg_units (s : State) (a : Nat) (v : Word) : (s.setReg a v).units = s.units := rfl
@[simp] theorem State.setReg_cans (s : State) (a : Nat) (v : Word) : (s.setReg a v).cans = s.cans := rfl
@[simp] theorem State.setReg_clvs (s : State) (a : Nat) (v : Word) : (s.setReg a v).clvs = s.clvs := rfl
@[simp] theorem State.setReg_pmem (s : State) (a : Nat) (v : Word) : (s.setReg a v).pmem = s.pmem := rfl
@[simp] theorem State.setReg_macs (s : State) (a : Nat) (v : Word) : (s.setReg a v).macs = s.macs := rfl
@[simp] theorem State.setReg_pd (s : State) (a : Nat) (v : Word) : (s.setReg a v).pd = s.pd := rfl
@[simp] theorem State.setReg_pwr (s : State) (a : Nat) (v : Word) : (s.setReg a v).pwr = s.pwr := rfl
@[simp] theorem State.setReg_rst (s : State) (a : Nat) (v : Word) : (s.setReg a v).rst = s.rst := rfl
@[simp] theorem State.setReg_boot (s : State) (a : Nat) (v : Word) : (s.setReg a v).boot = s.boot := rfl
@[simp] theorem State.setReg_tap (s : State) (a : Nat) (v : Word) : (s.setReg a v).tap = s.tap := rfl
@[simp] theorem State.setReg_keys (s : State) (a : Nat) (v : Word) : (s.setReg a v).keys = s.keys := rfl
@[simp] theorem State.setReg_kmgr (s : State) (a : Nat) (v : Word) : (s.setReg a v).kmgr = s.kmgr := rfl
@[simp] theorem State.setReg_ciph (s : State) (a : Nat) (v : Word) : (s.setReg a v).ciph = s.ciph := rfl
@[simp] theorem State.setReg_pace (s : State) (a : Nat) (v : Word) : (s.setReg a v).pace = s.pace := rfl
@[simp] theorem State.setReg_ledg (s : State) (a : Nat) (v : Word) : (s.setReg a v).ledg = s.ledg := rfl
@[simp] theorem State.setReg_raises (s : State) (a : Nat) (v : Word) : (s.setReg a v).raises = s.raises := rfl
@[simp] theorem State.setReg_level5 (s : State) (a : Nat) (v : Word) : (s.setReg a v).level5 = s.level5 := rfl

@[simp] theorem State.put_mem (s : State) (a : Nat) (f : Fld) (v : Nat) : (s.put a f v).mem = s.mem := rfl
@[simp] theorem State.put_ttm (s : State) (a : Nat) (f : Fld) (v : Nat) : (s.put a f v).ttm = s.ttm := rfl
@[simp] theorem State.put_sramBad (s : State) (a : Nat) (f : Fld) (v : Nat) : (s.put a f v).sramBad = s.sramBad := rfl
@[simp] theorem State.put_pending (s : State) (a : Nat) (f : Fld) (v : Nat) : (s.put a f v).pending = s.pending := rfl
@[simp] theorem State.put_out (s : State) (a : Nat) (f : Fld) (v : Nat) : (s.put a f v).out = s.out := rfl
@[simp] theorem State.put_free (s : State) (a : Nat) (f : Fld) (v : Nat) : (s.put a f v).free = s.free := rfl
@[simp] theorem State.put_slot (s : State) (a : Nat) (f : Fld) (v : Nat) : (s.put a f v).slot = s.slot := rfl
@[simp] theorem State.put_slotPhase (s : State) (a : Nat) (f : Fld) (v : Nat) : (s.put a f v).slotPhase = s.slotPhase := rfl
@[simp] theorem State.put_ports (s : State) (a : Nat) (f : Fld) (v : Nat) : (s.put a f v).ports = s.ports := rfl
@[simp] theorem State.put_rcs (s : State) (a : Nat) (f : Fld) (v : Nat) : (s.put a f v).rcs = s.rcs := rfl
@[simp] theorem State.put_claims (s : State) (a : Nat) (f : Fld) (v : Nat) : (s.put a f v).claims = s.claims := rfl
@[simp] theorem State.put_sems (s : State) (a : Nat) (f : Fld) (v : Nat) : (s.put a f v).sems = s.sems := rfl
@[simp] theorem State.put_beats (s : State) (a : Nat) (f : Fld) (v : Nat) : (s.put a f v).beats = s.beats := rfl
@[simp] theorem State.put_bases (s : State) (a : Nat) (f : Fld) (v : Nat) : (s.put a f v).bases = s.bases := rfl
@[simp] theorem State.put_pdWrites (s : State) (a : Nat) (f : Fld) (v : Nat) : (s.put a f v).pdWrites = s.pdWrites := rfl
@[simp] theorem State.put_held (s : State) (a : Nat) (f : Fld) (v : Nat) : (s.put a f v).held = s.held := rfl
@[simp] theorem State.put_resets (s : State) (a : Nat) (f : Fld) (v : Nat) : (s.put a f v).resets = s.resets := rfl
@[simp] theorem State.put_servo (s : State) (a : Nat) (f : Fld) (v : Nat) : (s.put a f v).servo = s.servo := rfl
@[simp] theorem State.put_tlb (s : State) (a : Nat) (f : Fld) (v : Nat) : (s.put a f v).tlb = s.tlb := rfl
@[simp] theorem State.put_flw (s : State) (a : Nat) (f : Fld) (v : Nat) : (s.put a f v).flw = s.flw := rfl
@[simp] theorem State.put_ttbs (s : State) (a : Nat) (f : Fld) (v : Nat) : (s.put a f v).ttbs = s.ttbs := rfl
@[simp] theorem State.put_ttbLog (s : State) (a : Nat) (f : Fld) (v : Nat) : (s.put a f v).ttbLog = s.ttbLog := rfl
@[simp] theorem State.put_fab (s : State) (a : Nat) (f : Fld) (v : Nat) : (s.put a f v).fab = s.fab := rfl
@[simp] theorem State.put_brs (s : State) (a : Nat) (f : Fld) (v : Nat) : (s.put a f v).brs = s.brs := rfl
@[simp] theorem State.put_tgt (s : State) (a : Nat) (f : Fld) (v : Nat) : (s.put a f v).tgt = s.tgt := rfl
@[simp] theorem State.put_poll (s : State) (a : Nat) (f : Fld) (v : Nat) : (s.put a f v).poll = s.poll := rfl
@[simp] theorem State.put_dmas (s : State) (a : Nat) (f : Fld) (v : Nat) : (s.put a f v).dmas = s.dmas := rfl
@[simp] theorem State.put_barriers (s : State) (a : Nat) (f : Fld) (v : Nat) : (s.put a f v).barriers = s.barriers := rfl
@[simp] theorem State.put_balls (s : State) (a : Nat) (f : Fld) (v : Nat) : (s.put a f v).balls = s.balls := rfl
@[simp] theorem State.put_fqs (s : State) (a : Nat) (f : Fld) (v : Nat) : (s.put a f v).fqs = s.fqs := rfl
@[simp] theorem State.put_units (s : State) (a : Nat) (f : Fld) (v : Nat) : (s.put a f v).units = s.units := rfl
@[simp] theorem State.put_cans (s : State) (a : Nat) (f : Fld) (v : Nat) : (s.put a f v).cans = s.cans := rfl
@[simp] theorem State.put_clvs (s : State) (a : Nat) (f : Fld) (v : Nat) : (s.put a f v).clvs = s.clvs := rfl
@[simp] theorem State.put_pmem (s : State) (a : Nat) (f : Fld) (v : Nat) : (s.put a f v).pmem = s.pmem := rfl
@[simp] theorem State.put_macs (s : State) (a : Nat) (f : Fld) (v : Nat) : (s.put a f v).macs = s.macs := rfl
@[simp] theorem State.put_pd (s : State) (a : Nat) (f : Fld) (v : Nat) : (s.put a f v).pd = s.pd := rfl
@[simp] theorem State.put_pwr (s : State) (a : Nat) (f : Fld) (v : Nat) : (s.put a f v).pwr = s.pwr := rfl
@[simp] theorem State.put_rst (s : State) (a : Nat) (f : Fld) (v : Nat) : (s.put a f v).rst = s.rst := rfl
@[simp] theorem State.put_boot (s : State) (a : Nat) (f : Fld) (v : Nat) : (s.put a f v).boot = s.boot := rfl
@[simp] theorem State.put_tap (s : State) (a : Nat) (f : Fld) (v : Nat) : (s.put a f v).tap = s.tap := rfl
@[simp] theorem State.put_keys (s : State) (a : Nat) (f : Fld) (v : Nat) : (s.put a f v).keys = s.keys := rfl
@[simp] theorem State.put_kmgr (s : State) (a : Nat) (f : Fld) (v : Nat) : (s.put a f v).kmgr = s.kmgr := rfl
@[simp] theorem State.put_ciph (s : State) (a : Nat) (f : Fld) (v : Nat) : (s.put a f v).ciph = s.ciph := rfl
@[simp] theorem State.put_pace (s : State) (a : Nat) (f : Fld) (v : Nat) : (s.put a f v).pace = s.pace := rfl
@[simp] theorem State.put_ledg (s : State) (a : Nat) (f : Fld) (v : Nat) : (s.put a f v).ledg = s.ledg := rfl
@[simp] theorem State.put_raises (s : State) (a : Nat) (f : Fld) (v : Nat) : (s.put a f v).raises = s.raises := rfl
@[simp] theorem State.put_level5 (s : State) (a : Nat) (f : Fld) (v : Nat) : (s.put a f v).level5 = s.level5 := rfl

@[simp] theorem State.inc_mem (s : State) (a : Nat) : (s.inc a).mem = s.mem := rfl
@[simp] theorem State.inc_ttm (s : State) (a : Nat) : (s.inc a).ttm = s.ttm := rfl
@[simp] theorem State.inc_sramBad (s : State) (a : Nat) : (s.inc a).sramBad = s.sramBad := rfl
@[simp] theorem State.inc_pending (s : State) (a : Nat) : (s.inc a).pending = s.pending := rfl
@[simp] theorem State.inc_out (s : State) (a : Nat) : (s.inc a).out = s.out := rfl
@[simp] theorem State.inc_free (s : State) (a : Nat) : (s.inc a).free = s.free := rfl
@[simp] theorem State.inc_slot (s : State) (a : Nat) : (s.inc a).slot = s.slot := rfl
@[simp] theorem State.inc_slotPhase (s : State) (a : Nat) : (s.inc a).slotPhase = s.slotPhase := rfl
@[simp] theorem State.inc_ports (s : State) (a : Nat) : (s.inc a).ports = s.ports := rfl
@[simp] theorem State.inc_rcs (s : State) (a : Nat) : (s.inc a).rcs = s.rcs := rfl
@[simp] theorem State.inc_claims (s : State) (a : Nat) : (s.inc a).claims = s.claims := rfl
@[simp] theorem State.inc_sems (s : State) (a : Nat) : (s.inc a).sems = s.sems := rfl
@[simp] theorem State.inc_beats (s : State) (a : Nat) : (s.inc a).beats = s.beats := rfl
@[simp] theorem State.inc_bases (s : State) (a : Nat) : (s.inc a).bases = s.bases := rfl
@[simp] theorem State.inc_pdWrites (s : State) (a : Nat) : (s.inc a).pdWrites = s.pdWrites := rfl
@[simp] theorem State.inc_held (s : State) (a : Nat) : (s.inc a).held = s.held := rfl
@[simp] theorem State.inc_resets (s : State) (a : Nat) : (s.inc a).resets = s.resets := rfl
@[simp] theorem State.inc_servo (s : State) (a : Nat) : (s.inc a).servo = s.servo := rfl
@[simp] theorem State.inc_tlb (s : State) (a : Nat) : (s.inc a).tlb = s.tlb := rfl
@[simp] theorem State.inc_flw (s : State) (a : Nat) : (s.inc a).flw = s.flw := rfl
@[simp] theorem State.inc_ttbs (s : State) (a : Nat) : (s.inc a).ttbs = s.ttbs := rfl
@[simp] theorem State.inc_ttbLog (s : State) (a : Nat) : (s.inc a).ttbLog = s.ttbLog := rfl
@[simp] theorem State.inc_fab (s : State) (a : Nat) : (s.inc a).fab = s.fab := rfl
@[simp] theorem State.inc_brs (s : State) (a : Nat) : (s.inc a).brs = s.brs := rfl
@[simp] theorem State.inc_tgt (s : State) (a : Nat) : (s.inc a).tgt = s.tgt := rfl
@[simp] theorem State.inc_poll (s : State) (a : Nat) : (s.inc a).poll = s.poll := rfl
@[simp] theorem State.inc_dmas (s : State) (a : Nat) : (s.inc a).dmas = s.dmas := rfl
@[simp] theorem State.inc_barriers (s : State) (a : Nat) : (s.inc a).barriers = s.barriers := rfl
@[simp] theorem State.inc_balls (s : State) (a : Nat) : (s.inc a).balls = s.balls := rfl
@[simp] theorem State.inc_fqs (s : State) (a : Nat) : (s.inc a).fqs = s.fqs := rfl
@[simp] theorem State.inc_units (s : State) (a : Nat) : (s.inc a).units = s.units := rfl
@[simp] theorem State.inc_cans (s : State) (a : Nat) : (s.inc a).cans = s.cans := rfl
@[simp] theorem State.inc_clvs (s : State) (a : Nat) : (s.inc a).clvs = s.clvs := rfl
@[simp] theorem State.inc_pmem (s : State) (a : Nat) : (s.inc a).pmem = s.pmem := rfl
@[simp] theorem State.inc_macs (s : State) (a : Nat) : (s.inc a).macs = s.macs := rfl
@[simp] theorem State.inc_pd (s : State) (a : Nat) : (s.inc a).pd = s.pd := rfl
@[simp] theorem State.inc_pwr (s : State) (a : Nat) : (s.inc a).pwr = s.pwr := rfl
@[simp] theorem State.inc_rst (s : State) (a : Nat) : (s.inc a).rst = s.rst := rfl
@[simp] theorem State.inc_boot (s : State) (a : Nat) : (s.inc a).boot = s.boot := rfl
@[simp] theorem State.inc_tap (s : State) (a : Nat) : (s.inc a).tap = s.tap := rfl
@[simp] theorem State.inc_keys (s : State) (a : Nat) : (s.inc a).keys = s.keys := rfl
@[simp] theorem State.inc_kmgr (s : State) (a : Nat) : (s.inc a).kmgr = s.kmgr := rfl
@[simp] theorem State.inc_ciph (s : State) (a : Nat) : (s.inc a).ciph = s.ciph := rfl
@[simp] theorem State.inc_pace (s : State) (a : Nat) : (s.inc a).pace = s.pace := rfl
@[simp] theorem State.inc_ledg (s : State) (a : Nat) : (s.inc a).ledg = s.ledg := rfl
@[simp] theorem State.inc_raises (s : State) (a : Nat) : (s.inc a).raises = s.raises := rfl
@[simp] theorem State.inc_level5 (s : State) (a : Nat) : (s.inc a).level5 = s.level5 := rfl

@[simp] theorem State.irq_mem (s : State) (p n : Nat) : (s.irq p n).mem = s.mem := rfl
@[simp] theorem State.irq_ttm (s : State) (p n : Nat) : (s.irq p n).ttm = s.ttm := rfl
@[simp] theorem State.irq_sramBad (s : State) (p n : Nat) : (s.irq p n).sramBad = s.sramBad := rfl
@[simp] theorem State.irq_pending (s : State) (p n : Nat) : (s.irq p n).pending = s.pending := rfl
@[simp] theorem State.irq_out (s : State) (p n : Nat) : (s.irq p n).out = s.out := rfl
@[simp] theorem State.irq_free (s : State) (p n : Nat) : (s.irq p n).free = s.free := rfl
@[simp] theorem State.irq_slot (s : State) (p n : Nat) : (s.irq p n).slot = s.slot := rfl
@[simp] theorem State.irq_slotPhase (s : State) (p n : Nat) : (s.irq p n).slotPhase = s.slotPhase := rfl
@[simp] theorem State.irq_ports (s : State) (p n : Nat) : (s.irq p n).ports = s.ports := rfl
@[simp] theorem State.irq_rcs (s : State) (p n : Nat) : (s.irq p n).rcs = s.rcs := rfl
@[simp] theorem State.irq_claims (s : State) (p n : Nat) : (s.irq p n).claims = s.claims := rfl
@[simp] theorem State.irq_sems (s : State) (p n : Nat) : (s.irq p n).sems = s.sems := rfl
@[simp] theorem State.irq_beats (s : State) (p n : Nat) : (s.irq p n).beats = s.beats := rfl
@[simp] theorem State.irq_bases (s : State) (p n : Nat) : (s.irq p n).bases = s.bases := rfl
@[simp] theorem State.irq_pdWrites (s : State) (p n : Nat) : (s.irq p n).pdWrites = s.pdWrites := rfl
@[simp] theorem State.irq_held (s : State) (p n : Nat) : (s.irq p n).held = s.held := rfl
@[simp] theorem State.irq_resets (s : State) (p n : Nat) : (s.irq p n).resets = s.resets := rfl
@[simp] theorem State.irq_servo (s : State) (p n : Nat) : (s.irq p n).servo = s.servo := rfl
@[simp] theorem State.irq_tlb (s : State) (p n : Nat) : (s.irq p n).tlb = s.tlb := rfl
@[simp] theorem State.irq_flw (s : State) (p n : Nat) : (s.irq p n).flw = s.flw := rfl
@[simp] theorem State.irq_ttbs (s : State) (p n : Nat) : (s.irq p n).ttbs = s.ttbs := rfl
@[simp] theorem State.irq_ttbLog (s : State) (p n : Nat) : (s.irq p n).ttbLog = s.ttbLog := rfl
@[simp] theorem State.irq_fab (s : State) (p n : Nat) : (s.irq p n).fab = s.fab := rfl
@[simp] theorem State.irq_brs (s : State) (p n : Nat) : (s.irq p n).brs = s.brs := rfl
@[simp] theorem State.irq_tgt (s : State) (p n : Nat) : (s.irq p n).tgt = s.tgt := rfl
@[simp] theorem State.irq_poll (s : State) (p n : Nat) : (s.irq p n).poll = s.poll := rfl
@[simp] theorem State.irq_dmas (s : State) (p n : Nat) : (s.irq p n).dmas = s.dmas := rfl
@[simp] theorem State.irq_barriers (s : State) (p n : Nat) : (s.irq p n).barriers = s.barriers := rfl
@[simp] theorem State.irq_balls (s : State) (p n : Nat) : (s.irq p n).balls = s.balls := rfl
@[simp] theorem State.irq_fqs (s : State) (p n : Nat) : (s.irq p n).fqs = s.fqs := rfl
@[simp] theorem State.irq_units (s : State) (p n : Nat) : (s.irq p n).units = s.units := rfl
@[simp] theorem State.irq_cans (s : State) (p n : Nat) : (s.irq p n).cans = s.cans := rfl
@[simp] theorem State.irq_clvs (s : State) (p n : Nat) : (s.irq p n).clvs = s.clvs := rfl
@[simp] theorem State.irq_pmem (s : State) (p n : Nat) : (s.irq p n).pmem = s.pmem := rfl
@[simp] theorem State.irq_macs (s : State) (p n : Nat) : (s.irq p n).macs = s.macs := rfl
@[simp] theorem State.irq_pd (s : State) (p n : Nat) : (s.irq p n).pd = s.pd := rfl
@[simp] theorem State.irq_pwr (s : State) (p n : Nat) : (s.irq p n).pwr = s.pwr := rfl
@[simp] theorem State.irq_rst (s : State) (p n : Nat) : (s.irq p n).rst = s.rst := rfl
@[simp] theorem State.irq_boot (s : State) (p n : Nat) : (s.irq p n).boot = s.boot := rfl
@[simp] theorem State.irq_tap (s : State) (p n : Nat) : (s.irq p n).tap = s.tap := rfl
@[simp] theorem State.irq_keys (s : State) (p n : Nat) : (s.irq p n).keys = s.keys := rfl
@[simp] theorem State.irq_kmgr (s : State) (p n : Nat) : (s.irq p n).kmgr = s.kmgr := rfl
@[simp] theorem State.irq_ciph (s : State) (p n : Nat) : (s.irq p n).ciph = s.ciph := rfl
@[simp] theorem State.irq_pace (s : State) (p n : Nat) : (s.irq p n).pace = s.pace := rfl
@[simp] theorem State.irq_ledg (s : State) (p n : Nat) : (s.irq p n).ledg = s.ledg := rfl
@[simp] theorem State.irq_raises (s : State) (p n : Nat) : (s.irq p n).raises = s.raises := rfl
@[simp] theorem State.irq_level5 (s : State) (p n : Nat) : (s.irq p n).level5 = s.level5 := rfl

@[simp] theorem State.warn_mem (s : State) (p : Nat) : (s.warn p).mem = s.mem := rfl
@[simp] theorem State.warn_ttm (s : State) (p : Nat) : (s.warn p).ttm = s.ttm := rfl
@[simp] theorem State.warn_sramBad (s : State) (p : Nat) : (s.warn p).sramBad = s.sramBad := rfl
@[simp] theorem State.warn_pending (s : State) (p : Nat) : (s.warn p).pending = s.pending := rfl
@[simp] theorem State.warn_out (s : State) (p : Nat) : (s.warn p).out = s.out := rfl
@[simp] theorem State.warn_free (s : State) (p : Nat) : (s.warn p).free = s.free := rfl
@[simp] theorem State.warn_slot (s : State) (p : Nat) : (s.warn p).slot = s.slot := rfl
@[simp] theorem State.warn_slotPhase (s : State) (p : Nat) : (s.warn p).slotPhase = s.slotPhase := rfl
@[simp] theorem State.warn_ports (s : State) (p : Nat) : (s.warn p).ports = s.ports := rfl
@[simp] theorem State.warn_rcs (s : State) (p : Nat) : (s.warn p).rcs = s.rcs := rfl
@[simp] theorem State.warn_claims (s : State) (p : Nat) : (s.warn p).claims = s.claims := rfl
@[simp] theorem State.warn_sems (s : State) (p : Nat) : (s.warn p).sems = s.sems := rfl
@[simp] theorem State.warn_beats (s : State) (p : Nat) : (s.warn p).beats = s.beats := rfl
@[simp] theorem State.warn_bases (s : State) (p : Nat) : (s.warn p).bases = s.bases := rfl
@[simp] theorem State.warn_pdWrites (s : State) (p : Nat) : (s.warn p).pdWrites = s.pdWrites := rfl
@[simp] theorem State.warn_held (s : State) (p : Nat) : (s.warn p).held = s.held := rfl
@[simp] theorem State.warn_resets (s : State) (p : Nat) : (s.warn p).resets = s.resets := rfl
@[simp] theorem State.warn_servo (s : State) (p : Nat) : (s.warn p).servo = s.servo := rfl
@[simp] theorem State.warn_tlb (s : State) (p : Nat) : (s.warn p).tlb = s.tlb := rfl
@[simp] theorem State.warn_flw (s : State) (p : Nat) : (s.warn p).flw = s.flw := rfl
@[simp] theorem State.warn_ttbs (s : State) (p : Nat) : (s.warn p).ttbs = s.ttbs := rfl
@[simp] theorem State.warn_ttbLog (s : State) (p : Nat) : (s.warn p).ttbLog = s.ttbLog := rfl
@[simp] theorem State.warn_fab (s : State) (p : Nat) : (s.warn p).fab = s.fab := rfl
@[simp] theorem State.warn_brs (s : State) (p : Nat) : (s.warn p).brs = s.brs := rfl
@[simp] theorem State.warn_tgt (s : State) (p : Nat) : (s.warn p).tgt = s.tgt := rfl
@[simp] theorem State.warn_poll (s : State) (p : Nat) : (s.warn p).poll = s.poll := rfl
@[simp] theorem State.warn_dmas (s : State) (p : Nat) : (s.warn p).dmas = s.dmas := rfl
@[simp] theorem State.warn_barriers (s : State) (p : Nat) : (s.warn p).barriers = s.barriers := rfl
@[simp] theorem State.warn_balls (s : State) (p : Nat) : (s.warn p).balls = s.balls := rfl
@[simp] theorem State.warn_fqs (s : State) (p : Nat) : (s.warn p).fqs = s.fqs := rfl
@[simp] theorem State.warn_units (s : State) (p : Nat) : (s.warn p).units = s.units := rfl
@[simp] theorem State.warn_cans (s : State) (p : Nat) : (s.warn p).cans = s.cans := rfl
@[simp] theorem State.warn_clvs (s : State) (p : Nat) : (s.warn p).clvs = s.clvs := rfl
@[simp] theorem State.warn_pmem (s : State) (p : Nat) : (s.warn p).pmem = s.pmem := rfl
@[simp] theorem State.warn_macs (s : State) (p : Nat) : (s.warn p).macs = s.macs := rfl
@[simp] theorem State.warn_pd (s : State) (p : Nat) : (s.warn p).pd = s.pd := rfl
@[simp] theorem State.warn_pwr (s : State) (p : Nat) : (s.warn p).pwr = s.pwr := rfl
@[simp] theorem State.warn_rst (s : State) (p : Nat) : (s.warn p).rst = s.rst := rfl
@[simp] theorem State.warn_boot (s : State) (p : Nat) : (s.warn p).boot = s.boot := rfl
@[simp] theorem State.warn_tap (s : State) (p : Nat) : (s.warn p).tap = s.tap := rfl
@[simp] theorem State.warn_keys (s : State) (p : Nat) : (s.warn p).keys = s.keys := rfl
@[simp] theorem State.warn_kmgr (s : State) (p : Nat) : (s.warn p).kmgr = s.kmgr := rfl
@[simp] theorem State.warn_ciph (s : State) (p : Nat) : (s.warn p).ciph = s.ciph := rfl
@[simp] theorem State.warn_pace (s : State) (p : Nat) : (s.warn p).pace = s.pace := rfl
@[simp] theorem State.warn_ledg (s : State) (p : Nat) : (s.warn p).ledg = s.ledg := rfl
@[simp] theorem State.warn_raises (s : State) (p : Nat) : (s.warn p).raises = s.raises := rfl
@[simp] theorem State.warn_level5 (s : State) (p : Nat) : (s.warn p).level5 = s.level5 := rfl

@[simp] theorem State.emit_regs (s : State) (o : Out) : (s.emit o).regs = s.regs := rfl
@[simp] theorem State.emit_mem (s : State) (o : Out) : (s.emit o).mem = s.mem := rfl
@[simp] theorem State.emit_ttm (s : State) (o : Out) : (s.emit o).ttm = s.ttm := rfl
@[simp] theorem State.emit_sramBad (s : State) (o : Out) : (s.emit o).sramBad = s.sramBad := rfl
@[simp] theorem State.emit_pending (s : State) (o : Out) : (s.emit o).pending = s.pending := rfl
@[simp] theorem State.emit_free (s : State) (o : Out) : (s.emit o).free = s.free := rfl
@[simp] theorem State.emit_slot (s : State) (o : Out) : (s.emit o).slot = s.slot := rfl
@[simp] theorem State.emit_slotPhase (s : State) (o : Out) : (s.emit o).slotPhase = s.slotPhase := rfl
@[simp] theorem State.emit_ports (s : State) (o : Out) : (s.emit o).ports = s.ports := rfl
@[simp] theorem State.emit_rcs (s : State) (o : Out) : (s.emit o).rcs = s.rcs := rfl
@[simp] theorem State.emit_claims (s : State) (o : Out) : (s.emit o).claims = s.claims := rfl
@[simp] theorem State.emit_sems (s : State) (o : Out) : (s.emit o).sems = s.sems := rfl
@[simp] theorem State.emit_beats (s : State) (o : Out) : (s.emit o).beats = s.beats := rfl
@[simp] theorem State.emit_bases (s : State) (o : Out) : (s.emit o).bases = s.bases := rfl
@[simp] theorem State.emit_pdWrites (s : State) (o : Out) : (s.emit o).pdWrites = s.pdWrites := rfl
@[simp] theorem State.emit_held (s : State) (o : Out) : (s.emit o).held = s.held := rfl
@[simp] theorem State.emit_resets (s : State) (o : Out) : (s.emit o).resets = s.resets := rfl
@[simp] theorem State.emit_servo (s : State) (o : Out) : (s.emit o).servo = s.servo := rfl
@[simp] theorem State.emit_tlb (s : State) (o : Out) : (s.emit o).tlb = s.tlb := rfl
@[simp] theorem State.emit_flw (s : State) (o : Out) : (s.emit o).flw = s.flw := rfl
@[simp] theorem State.emit_ttbs (s : State) (o : Out) : (s.emit o).ttbs = s.ttbs := rfl
@[simp] theorem State.emit_ttbLog (s : State) (o : Out) : (s.emit o).ttbLog = s.ttbLog := rfl
@[simp] theorem State.emit_fab (s : State) (o : Out) : (s.emit o).fab = s.fab := rfl
@[simp] theorem State.emit_brs (s : State) (o : Out) : (s.emit o).brs = s.brs := rfl
@[simp] theorem State.emit_tgt (s : State) (o : Out) : (s.emit o).tgt = s.tgt := rfl
@[simp] theorem State.emit_poll (s : State) (o : Out) : (s.emit o).poll = s.poll := rfl
@[simp] theorem State.emit_dmas (s : State) (o : Out) : (s.emit o).dmas = s.dmas := rfl
@[simp] theorem State.emit_barriers (s : State) (o : Out) : (s.emit o).barriers = s.barriers := rfl
@[simp] theorem State.emit_balls (s : State) (o : Out) : (s.emit o).balls = s.balls := rfl
@[simp] theorem State.emit_fqs (s : State) (o : Out) : (s.emit o).fqs = s.fqs := rfl
@[simp] theorem State.emit_units (s : State) (o : Out) : (s.emit o).units = s.units := rfl
@[simp] theorem State.emit_cans (s : State) (o : Out) : (s.emit o).cans = s.cans := rfl
@[simp] theorem State.emit_clvs (s : State) (o : Out) : (s.emit o).clvs = s.clvs := rfl
@[simp] theorem State.emit_pmem (s : State) (o : Out) : (s.emit o).pmem = s.pmem := rfl
@[simp] theorem State.emit_macs (s : State) (o : Out) : (s.emit o).macs = s.macs := rfl
@[simp] theorem State.emit_pd (s : State) (o : Out) : (s.emit o).pd = s.pd := rfl
@[simp] theorem State.emit_pwr (s : State) (o : Out) : (s.emit o).pwr = s.pwr := rfl
@[simp] theorem State.emit_rst (s : State) (o : Out) : (s.emit o).rst = s.rst := rfl
@[simp] theorem State.emit_boot (s : State) (o : Out) : (s.emit o).boot = s.boot := rfl
@[simp] theorem State.emit_tap (s : State) (o : Out) : (s.emit o).tap = s.tap := rfl
@[simp] theorem State.emit_keys (s : State) (o : Out) : (s.emit o).keys = s.keys := rfl
@[simp] theorem State.emit_kmgr (s : State) (o : Out) : (s.emit o).kmgr = s.kmgr := rfl
@[simp] theorem State.emit_ciph (s : State) (o : Out) : (s.emit o).ciph = s.ciph := rfl
@[simp] theorem State.emit_pace (s : State) (o : Out) : (s.emit o).pace = s.pace := rfl
@[simp] theorem State.emit_ledg (s : State) (o : Out) : (s.emit o).ledg = s.ledg := rfl
@[simp] theorem State.emit_raises (s : State) (o : Out) : (s.emit o).raises = s.raises := rfl
@[simp] theorem State.emit_level5 (s : State) (o : Out) : (s.emit o).level5 = s.level5 := rfl

@[simp] theorem State.done_regs (s : State) (q : Req) (st : Nat) (l : List Byte) : (s.done q st l).regs = s.regs := rfl
@[simp] theorem State.done_mem (s : State) (q : Req) (st : Nat) (l : List Byte) : (s.done q st l).mem = s.mem := rfl
@[simp] theorem State.done_ttm (s : State) (q : Req) (st : Nat) (l : List Byte) : (s.done q st l).ttm = s.ttm := rfl
@[simp] theorem State.done_sramBad (s : State) (q : Req) (st : Nat) (l : List Byte) : (s.done q st l).sramBad = s.sramBad := rfl
@[simp] theorem State.done_pending (s : State) (q : Req) (st : Nat) (l : List Byte) : (s.done q st l).pending = s.pending := rfl
@[simp] theorem State.done_free (s : State) (q : Req) (st : Nat) (l : List Byte) : (s.done q st l).free = s.free := rfl
@[simp] theorem State.done_slot (s : State) (q : Req) (st : Nat) (l : List Byte) : (s.done q st l).slot = s.slot := rfl
@[simp] theorem State.done_slotPhase (s : State) (q : Req) (st : Nat) (l : List Byte) : (s.done q st l).slotPhase = s.slotPhase := rfl
@[simp] theorem State.done_ports (s : State) (q : Req) (st : Nat) (l : List Byte) : (s.done q st l).ports = s.ports := rfl
@[simp] theorem State.done_rcs (s : State) (q : Req) (st : Nat) (l : List Byte) : (s.done q st l).rcs = s.rcs := rfl
@[simp] theorem State.done_claims (s : State) (q : Req) (st : Nat) (l : List Byte) : (s.done q st l).claims = s.claims := rfl
@[simp] theorem State.done_sems (s : State) (q : Req) (st : Nat) (l : List Byte) : (s.done q st l).sems = s.sems := rfl
@[simp] theorem State.done_beats (s : State) (q : Req) (st : Nat) (l : List Byte) : (s.done q st l).beats = s.beats := rfl
@[simp] theorem State.done_bases (s : State) (q : Req) (st : Nat) (l : List Byte) : (s.done q st l).bases = s.bases := rfl
@[simp] theorem State.done_pdWrites (s : State) (q : Req) (st : Nat) (l : List Byte) : (s.done q st l).pdWrites = s.pdWrites := rfl
@[simp] theorem State.done_held (s : State) (q : Req) (st : Nat) (l : List Byte) : (s.done q st l).held = s.held := rfl
@[simp] theorem State.done_resets (s : State) (q : Req) (st : Nat) (l : List Byte) : (s.done q st l).resets = s.resets := rfl
@[simp] theorem State.done_servo (s : State) (q : Req) (st : Nat) (l : List Byte) : (s.done q st l).servo = s.servo := rfl
@[simp] theorem State.done_tlb (s : State) (q : Req) (st : Nat) (l : List Byte) : (s.done q st l).tlb = s.tlb := rfl
@[simp] theorem State.done_flw (s : State) (q : Req) (st : Nat) (l : List Byte) : (s.done q st l).flw = s.flw := rfl
@[simp] theorem State.done_ttbs (s : State) (q : Req) (st : Nat) (l : List Byte) : (s.done q st l).ttbs = s.ttbs := rfl
@[simp] theorem State.done_ttbLog (s : State) (q : Req) (st : Nat) (l : List Byte) : (s.done q st l).ttbLog = s.ttbLog := rfl
@[simp] theorem State.done_fab (s : State) (q : Req) (st : Nat) (l : List Byte) : (s.done q st l).fab = s.fab := rfl
@[simp] theorem State.done_brs (s : State) (q : Req) (st : Nat) (l : List Byte) : (s.done q st l).brs = s.brs := rfl
@[simp] theorem State.done_tgt (s : State) (q : Req) (st : Nat) (l : List Byte) : (s.done q st l).tgt = s.tgt := rfl
@[simp] theorem State.done_poll (s : State) (q : Req) (st : Nat) (l : List Byte) : (s.done q st l).poll = s.poll := rfl
@[simp] theorem State.done_dmas (s : State) (q : Req) (st : Nat) (l : List Byte) : (s.done q st l).dmas = s.dmas := rfl
@[simp] theorem State.done_barriers (s : State) (q : Req) (st : Nat) (l : List Byte) : (s.done q st l).barriers = s.barriers := rfl
@[simp] theorem State.done_balls (s : State) (q : Req) (st : Nat) (l : List Byte) : (s.done q st l).balls = s.balls := rfl
@[simp] theorem State.done_fqs (s : State) (q : Req) (st : Nat) (l : List Byte) : (s.done q st l).fqs = s.fqs := rfl
@[simp] theorem State.done_units (s : State) (q : Req) (st : Nat) (l : List Byte) : (s.done q st l).units = s.units := rfl
@[simp] theorem State.done_cans (s : State) (q : Req) (st : Nat) (l : List Byte) : (s.done q st l).cans = s.cans := rfl
@[simp] theorem State.done_clvs (s : State) (q : Req) (st : Nat) (l : List Byte) : (s.done q st l).clvs = s.clvs := rfl
@[simp] theorem State.done_pmem (s : State) (q : Req) (st : Nat) (l : List Byte) : (s.done q st l).pmem = s.pmem := rfl
@[simp] theorem State.done_macs (s : State) (q : Req) (st : Nat) (l : List Byte) : (s.done q st l).macs = s.macs := rfl
@[simp] theorem State.done_pd (s : State) (q : Req) (st : Nat) (l : List Byte) : (s.done q st l).pd = s.pd := rfl
@[simp] theorem State.done_pwr (s : State) (q : Req) (st : Nat) (l : List Byte) : (s.done q st l).pwr = s.pwr := rfl
@[simp] theorem State.done_rst (s : State) (q : Req) (st : Nat) (l : List Byte) : (s.done q st l).rst = s.rst := rfl
@[simp] theorem State.done_boot (s : State) (q : Req) (st : Nat) (l : List Byte) : (s.done q st l).boot = s.boot := rfl
@[simp] theorem State.done_tap (s : State) (q : Req) (st : Nat) (l : List Byte) : (s.done q st l).tap = s.tap := rfl
@[simp] theorem State.done_keys (s : State) (q : Req) (st : Nat) (l : List Byte) : (s.done q st l).keys = s.keys := rfl
@[simp] theorem State.done_kmgr (s : State) (q : Req) (st : Nat) (l : List Byte) : (s.done q st l).kmgr = s.kmgr := rfl
@[simp] theorem State.done_ciph (s : State) (q : Req) (st : Nat) (l : List Byte) : (s.done q st l).ciph = s.ciph := rfl
@[simp] theorem State.done_pace (s : State) (q : Req) (st : Nat) (l : List Byte) : (s.done q st l).pace = s.pace := rfl
@[simp] theorem State.done_ledg (s : State) (q : Req) (st : Nat) (l : List Byte) : (s.done q st l).ledg = s.ledg := rfl
@[simp] theorem State.done_raises (s : State) (q : Req) (st : Nat) (l : List Byte) : (s.done q st l).raises = s.raises := rfl
@[simp] theorem State.done_level5 (s : State) (q : Req) (st : Nat) (l : List Byte) : (s.done q st l).level5 = s.level5 := rfl

@[simp] theorem State.step1_regs (s : State) : (s.step1).regs = s.regs := rfl
@[simp] theorem State.step1_mem (s : State) : (s.step1).mem = s.mem := rfl
@[simp] theorem State.step1_ttm (s : State) : (s.step1).ttm = s.ttm := rfl
@[simp] theorem State.step1_sramBad (s : State) : (s.step1).sramBad = s.sramBad := rfl
@[simp] theorem State.step1_pending (s : State) : (s.step1).pending = s.pending := rfl
@[simp] theorem State.step1_out (s : State) : (s.step1).out = s.out := rfl
@[simp] theorem State.step1_slot (s : State) : (s.step1).slot = s.slot := rfl
@[simp] theorem State.step1_slotPhase (s : State) : (s.step1).slotPhase = s.slotPhase := rfl
@[simp] theorem State.step1_ports (s : State) : (s.step1).ports = s.ports := rfl
@[simp] theorem State.step1_rcs (s : State) : (s.step1).rcs = s.rcs := rfl
@[simp] theorem State.step1_claims (s : State) : (s.step1).claims = s.claims := rfl
@[simp] theorem State.step1_sems (s : State) : (s.step1).sems = s.sems := rfl
@[simp] theorem State.step1_beats (s : State) : (s.step1).beats = s.beats := rfl
@[simp] theorem State.step1_bases (s : State) : (s.step1).bases = s.bases := rfl
@[simp] theorem State.step1_pdWrites (s : State) : (s.step1).pdWrites = s.pdWrites := rfl
@[simp] theorem State.step1_held (s : State) : (s.step1).held = s.held := rfl
@[simp] theorem State.step1_resets (s : State) : (s.step1).resets = s.resets := rfl
@[simp] theorem State.step1_servo (s : State) : (s.step1).servo = s.servo := rfl
@[simp] theorem State.step1_tlb (s : State) : (s.step1).tlb = s.tlb := rfl
@[simp] theorem State.step1_flw (s : State) : (s.step1).flw = s.flw := rfl
@[simp] theorem State.step1_ttbs (s : State) : (s.step1).ttbs = s.ttbs := rfl
@[simp] theorem State.step1_ttbLog (s : State) : (s.step1).ttbLog = s.ttbLog := rfl
@[simp] theorem State.step1_fab (s : State) : (s.step1).fab = s.fab := rfl
@[simp] theorem State.step1_brs (s : State) : (s.step1).brs = s.brs := rfl
@[simp] theorem State.step1_tgt (s : State) : (s.step1).tgt = s.tgt := rfl
@[simp] theorem State.step1_poll (s : State) : (s.step1).poll = s.poll := rfl
@[simp] theorem State.step1_dmas (s : State) : (s.step1).dmas = s.dmas := rfl
@[simp] theorem State.step1_barriers (s : State) : (s.step1).barriers = s.barriers := rfl
@[simp] theorem State.step1_balls (s : State) : (s.step1).balls = s.balls := rfl
@[simp] theorem State.step1_fqs (s : State) : (s.step1).fqs = s.fqs := rfl
@[simp] theorem State.step1_units (s : State) : (s.step1).units = s.units := rfl
@[simp] theorem State.step1_cans (s : State) : (s.step1).cans = s.cans := rfl
@[simp] theorem State.step1_clvs (s : State) : (s.step1).clvs = s.clvs := rfl
@[simp] theorem State.step1_pmem (s : State) : (s.step1).pmem = s.pmem := rfl
@[simp] theorem State.step1_macs (s : State) : (s.step1).macs = s.macs := rfl
@[simp] theorem State.step1_pd (s : State) : (s.step1).pd = s.pd := rfl
@[simp] theorem State.step1_pwr (s : State) : (s.step1).pwr = s.pwr := rfl
@[simp] theorem State.step1_rst (s : State) : (s.step1).rst = s.rst := rfl
@[simp] theorem State.step1_boot (s : State) : (s.step1).boot = s.boot := rfl
@[simp] theorem State.step1_tap (s : State) : (s.step1).tap = s.tap := rfl
@[simp] theorem State.step1_keys (s : State) : (s.step1).keys = s.keys := rfl
@[simp] theorem State.step1_kmgr (s : State) : (s.step1).kmgr = s.kmgr := rfl
@[simp] theorem State.step1_ciph (s : State) : (s.step1).ciph = s.ciph := rfl
@[simp] theorem State.step1_pace (s : State) : (s.step1).pace = s.pace := rfl
@[simp] theorem State.step1_ledg (s : State) : (s.step1).ledg = s.ledg := rfl
@[simp] theorem State.step1_raises (s : State) : (s.step1).raises = s.raises := rfl
@[simp] theorem State.step1_level5 (s : State) : (s.step1).level5 = s.level5 := rfl

@[simp] theorem State.fault_regs (s : State) (e : FaultEv) : (s.fault e).regs = s.regs := rfl
@[simp] theorem State.fault_mem (s : State) (e : FaultEv) : (s.fault e).mem = s.mem := rfl
@[simp] theorem State.fault_ttm (s : State) (e : FaultEv) : (s.fault e).ttm = s.ttm := rfl
@[simp] theorem State.fault_sramBad (s : State) (e : FaultEv) : (s.fault e).sramBad = s.sramBad := rfl
@[simp] theorem State.fault_pending (s : State) (e : FaultEv) : (s.fault e).pending = s.pending := rfl
@[simp] theorem State.fault_out (s : State) (e : FaultEv) : (s.fault e).out = s.out := rfl
@[simp] theorem State.fault_free (s : State) (e : FaultEv) : (s.fault e).free = s.free := rfl
@[simp] theorem State.fault_slot (s : State) (e : FaultEv) : (s.fault e).slot = s.slot := rfl
@[simp] theorem State.fault_slotPhase (s : State) (e : FaultEv) : (s.fault e).slotPhase = s.slotPhase := rfl
@[simp] theorem State.fault_ports (s : State) (e : FaultEv) : (s.fault e).ports = s.ports := rfl
@[simp] theorem State.fault_rcs (s : State) (e : FaultEv) : (s.fault e).rcs = s.rcs := rfl
@[simp] theorem State.fault_claims (s : State) (e : FaultEv) : (s.fault e).claims = s.claims := rfl
@[simp] theorem State.fault_sems (s : State) (e : FaultEv) : (s.fault e).sems = s.sems := rfl
@[simp] theorem State.fault_beats (s : State) (e : FaultEv) : (s.fault e).beats = s.beats := rfl
@[simp] theorem State.fault_bases (s : State) (e : FaultEv) : (s.fault e).bases = s.bases := rfl
@[simp] theorem State.fault_pdWrites (s : State) (e : FaultEv) : (s.fault e).pdWrites = s.pdWrites := rfl
@[simp] theorem State.fault_held (s : State) (e : FaultEv) : (s.fault e).held = s.held := rfl
@[simp] theorem State.fault_resets (s : State) (e : FaultEv) : (s.fault e).resets = s.resets := rfl
@[simp] theorem State.fault_servo (s : State) (e : FaultEv) : (s.fault e).servo = s.servo := rfl
@[simp] theorem State.fault_tlb (s : State) (e : FaultEv) : (s.fault e).tlb = s.tlb := rfl
@[simp] theorem State.fault_flw (s : State) (e : FaultEv) : (s.fault e).flw = s.flw := rfl
@[simp] theorem State.fault_ttbs (s : State) (e : FaultEv) : (s.fault e).ttbs = s.ttbs := rfl
@[simp] theorem State.fault_ttbLog (s : State) (e : FaultEv) : (s.fault e).ttbLog = s.ttbLog := rfl
@[simp] theorem State.fault_fab (s : State) (e : FaultEv) : (s.fault e).fab = s.fab := rfl
@[simp] theorem State.fault_brs (s : State) (e : FaultEv) : (s.fault e).brs = s.brs := rfl
@[simp] theorem State.fault_tgt (s : State) (e : FaultEv) : (s.fault e).tgt = s.tgt := rfl
@[simp] theorem State.fault_poll (s : State) (e : FaultEv) : (s.fault e).poll = s.poll := rfl
@[simp] theorem State.fault_dmas (s : State) (e : FaultEv) : (s.fault e).dmas = s.dmas := rfl
@[simp] theorem State.fault_barriers (s : State) (e : FaultEv) : (s.fault e).barriers = s.barriers := rfl
@[simp] theorem State.fault_balls (s : State) (e : FaultEv) : (s.fault e).balls = s.balls := rfl
@[simp] theorem State.fault_fqs (s : State) (e : FaultEv) : (s.fault e).fqs = s.fqs := rfl
@[simp] theorem State.fault_units (s : State) (e : FaultEv) : (s.fault e).units = s.units := rfl
@[simp] theorem State.fault_cans (s : State) (e : FaultEv) : (s.fault e).cans = s.cans := rfl
@[simp] theorem State.fault_clvs (s : State) (e : FaultEv) : (s.fault e).clvs = s.clvs := rfl
@[simp] theorem State.fault_pmem (s : State) (e : FaultEv) : (s.fault e).pmem = s.pmem := rfl
@[simp] theorem State.fault_macs (s : State) (e : FaultEv) : (s.fault e).macs = s.macs := rfl
@[simp] theorem State.fault_pd (s : State) (e : FaultEv) : (s.fault e).pd = s.pd := rfl
@[simp] theorem State.fault_pwr (s : State) (e : FaultEv) : (s.fault e).pwr = s.pwr := rfl
@[simp] theorem State.fault_rst (s : State) (e : FaultEv) : (s.fault e).rst = s.rst := rfl
@[simp] theorem State.fault_boot (s : State) (e : FaultEv) : (s.fault e).boot = s.boot := rfl
@[simp] theorem State.fault_tap (s : State) (e : FaultEv) : (s.fault e).tap = s.tap := rfl
@[simp] theorem State.fault_keys (s : State) (e : FaultEv) : (s.fault e).keys = s.keys := rfl
@[simp] theorem State.fault_kmgr (s : State) (e : FaultEv) : (s.fault e).kmgr = s.kmgr := rfl
@[simp] theorem State.fault_ciph (s : State) (e : FaultEv) : (s.fault e).ciph = s.ciph := rfl
@[simp] theorem State.fault_pace (s : State) (e : FaultEv) : (s.fault e).pace = s.pace := rfl
@[simp] theorem State.fault_ledg (s : State) (e : FaultEv) : (s.fault e).ledg = s.ledg := rfl
@[simp] theorem State.fault_level5 (s : State) (e : FaultEv) : (s.fault e).level5 = s.level5 := rfl

@[simp] theorem State.raise_regs (s : State) (n p : Nat) : (s.raise n p).regs = s.regs := rfl
@[simp] theorem State.raise_mem (s : State) (n p : Nat) : (s.raise n p).mem = s.mem := rfl
@[simp] theorem State.raise_ttm (s : State) (n p : Nat) : (s.raise n p).ttm = s.ttm := rfl
@[simp] theorem State.raise_sramBad (s : State) (n p : Nat) : (s.raise n p).sramBad = s.sramBad := rfl
@[simp] theorem State.raise_pending (s : State) (n p : Nat) : (s.raise n p).pending = s.pending := rfl
@[simp] theorem State.raise_out (s : State) (n p : Nat) : (s.raise n p).out = s.out := rfl
@[simp] theorem State.raise_free (s : State) (n p : Nat) : (s.raise n p).free = s.free := rfl
@[simp] theorem State.raise_slot (s : State) (n p : Nat) : (s.raise n p).slot = s.slot := rfl
@[simp] theorem State.raise_slotPhase (s : State) (n p : Nat) : (s.raise n p).slotPhase = s.slotPhase := rfl
@[simp] theorem State.raise_ports (s : State) (n p : Nat) : (s.raise n p).ports = s.ports := rfl
@[simp] theorem State.raise_rcs (s : State) (n p : Nat) : (s.raise n p).rcs = s.rcs := rfl
@[simp] theorem State.raise_claims (s : State) (n p : Nat) : (s.raise n p).claims = s.claims := rfl
@[simp] theorem State.raise_sems (s : State) (n p : Nat) : (s.raise n p).sems = s.sems := rfl
@[simp] theorem State.raise_beats (s : State) (n p : Nat) : (s.raise n p).beats = s.beats := rfl
@[simp] theorem State.raise_bases (s : State) (n p : Nat) : (s.raise n p).bases = s.bases := rfl
@[simp] theorem State.raise_pdWrites (s : State) (n p : Nat) : (s.raise n p).pdWrites = s.pdWrites := rfl
@[simp] theorem State.raise_held (s : State) (n p : Nat) : (s.raise n p).held = s.held := rfl
@[simp] theorem State.raise_resets (s : State) (n p : Nat) : (s.raise n p).resets = s.resets := rfl
@[simp] theorem State.raise_servo (s : State) (n p : Nat) : (s.raise n p).servo = s.servo := rfl
@[simp] theorem State.raise_tlb (s : State) (n p : Nat) : (s.raise n p).tlb = s.tlb := rfl
@[simp] theorem State.raise_flw (s : State) (n p : Nat) : (s.raise n p).flw = s.flw := rfl
@[simp] theorem State.raise_ttbs (s : State) (n p : Nat) : (s.raise n p).ttbs = s.ttbs := rfl
@[simp] theorem State.raise_ttbLog (s : State) (n p : Nat) : (s.raise n p).ttbLog = s.ttbLog := rfl
@[simp] theorem State.raise_fab (s : State) (n p : Nat) : (s.raise n p).fab = s.fab := rfl
@[simp] theorem State.raise_brs (s : State) (n p : Nat) : (s.raise n p).brs = s.brs := rfl
@[simp] theorem State.raise_tgt (s : State) (n p : Nat) : (s.raise n p).tgt = s.tgt := rfl
@[simp] theorem State.raise_poll (s : State) (n p : Nat) : (s.raise n p).poll = s.poll := rfl
@[simp] theorem State.raise_dmas (s : State) (n p : Nat) : (s.raise n p).dmas = s.dmas := rfl
@[simp] theorem State.raise_barriers (s : State) (n p : Nat) : (s.raise n p).barriers = s.barriers := rfl
@[simp] theorem State.raise_balls (s : State) (n p : Nat) : (s.raise n p).balls = s.balls := rfl
@[simp] theorem State.raise_fqs (s : State) (n p : Nat) : (s.raise n p).fqs = s.fqs := rfl
@[simp] theorem State.raise_units (s : State) (n p : Nat) : (s.raise n p).units = s.units := rfl
@[simp] theorem State.raise_cans (s : State) (n p : Nat) : (s.raise n p).cans = s.cans := rfl
@[simp] theorem State.raise_clvs (s : State) (n p : Nat) : (s.raise n p).clvs = s.clvs := rfl
@[simp] theorem State.raise_pmem (s : State) (n p : Nat) : (s.raise n p).pmem = s.pmem := rfl
@[simp] theorem State.raise_macs (s : State) (n p : Nat) : (s.raise n p).macs = s.macs := rfl
@[simp] theorem State.raise_pd (s : State) (n p : Nat) : (s.raise n p).pd = s.pd := rfl
@[simp] theorem State.raise_pwr (s : State) (n p : Nat) : (s.raise n p).pwr = s.pwr := rfl
@[simp] theorem State.raise_rst (s : State) (n p : Nat) : (s.raise n p).rst = s.rst := rfl
@[simp] theorem State.raise_boot (s : State) (n p : Nat) : (s.raise n p).boot = s.boot := rfl
@[simp] theorem State.raise_tap (s : State) (n p : Nat) : (s.raise n p).tap = s.tap := rfl
@[simp] theorem State.raise_keys (s : State) (n p : Nat) : (s.raise n p).keys = s.keys := rfl
@[simp] theorem State.raise_kmgr (s : State) (n p : Nat) : (s.raise n p).kmgr = s.kmgr := rfl
@[simp] theorem State.raise_ciph (s : State) (n p : Nat) : (s.raise n p).ciph = s.ciph := rfl
@[simp] theorem State.raise_pace (s : State) (n p : Nat) : (s.raise n p).pace = s.pace := rfl
@[simp] theorem State.raise_ledg (s : State) (n p : Nat) : (s.raise n p).ledg = s.ledg := rfl
@[simp] theorem State.raise_level5 (s : State) (n p : Nat) : (s.raise n p).level5 = s.level5 := rfl

@[simp] theorem State.setByte_regs (s : State) (a : Nat) (b : Byte) : (s.setByte a b).regs = s.regs := rfl
@[simp] theorem State.setByte_ttm (s : State) (a : Nat) (b : Byte) : (s.setByte a b).ttm = s.ttm := rfl
@[simp] theorem State.setByte_sramBad (s : State) (a : Nat) (b : Byte) : (s.setByte a b).sramBad = s.sramBad := rfl
@[simp] theorem State.setByte_pending (s : State) (a : Nat) (b : Byte) : (s.setByte a b).pending = s.pending := rfl
@[simp] theorem State.setByte_out (s : State) (a : Nat) (b : Byte) : (s.setByte a b).out = s.out := rfl
@[simp] theorem State.setByte_free (s : State) (a : Nat) (b : Byte) : (s.setByte a b).free = s.free := rfl
@[simp] theorem State.setByte_slot (s : State) (a : Nat) (b : Byte) : (s.setByte a b).slot = s.slot := rfl
@[simp] theorem State.setByte_slotPhase (s : State) (a : Nat) (b : Byte) : (s.setByte a b).slotPhase = s.slotPhase := rfl
@[simp] theorem State.setByte_ports (s : State) (a : Nat) (b : Byte) : (s.setByte a b).ports = s.ports := rfl
@[simp] theorem State.setByte_rcs (s : State) (a : Nat) (b : Byte) : (s.setByte a b).rcs = s.rcs := rfl
@[simp] theorem State.setByte_claims (s : State) (a : Nat) (b : Byte) : (s.setByte a b).claims = s.claims := rfl
@[simp] theorem State.setByte_sems (s : State) (a : Nat) (b : Byte) : (s.setByte a b).sems = s.sems := rfl
@[simp] theorem State.setByte_beats (s : State) (a : Nat) (b : Byte) : (s.setByte a b).beats = s.beats := rfl
@[simp] theorem State.setByte_bases (s : State) (a : Nat) (b : Byte) : (s.setByte a b).bases = s.bases := rfl
@[simp] theorem State.setByte_pdWrites (s : State) (a : Nat) (b : Byte) : (s.setByte a b).pdWrites = s.pdWrites := rfl
@[simp] theorem State.setByte_held (s : State) (a : Nat) (b : Byte) : (s.setByte a b).held = s.held := rfl
@[simp] theorem State.setByte_resets (s : State) (a : Nat) (b : Byte) : (s.setByte a b).resets = s.resets := rfl
@[simp] theorem State.setByte_servo (s : State) (a : Nat) (b : Byte) : (s.setByte a b).servo = s.servo := rfl
@[simp] theorem State.setByte_tlb (s : State) (a : Nat) (b : Byte) : (s.setByte a b).tlb = s.tlb := rfl
@[simp] theorem State.setByte_flw (s : State) (a : Nat) (b : Byte) : (s.setByte a b).flw = s.flw := rfl
@[simp] theorem State.setByte_ttbs (s : State) (a : Nat) (b : Byte) : (s.setByte a b).ttbs = s.ttbs := rfl
@[simp] theorem State.setByte_ttbLog (s : State) (a : Nat) (b : Byte) : (s.setByte a b).ttbLog = s.ttbLog := rfl
@[simp] theorem State.setByte_fab (s : State) (a : Nat) (b : Byte) : (s.setByte a b).fab = s.fab := rfl
@[simp] theorem State.setByte_brs (s : State) (a : Nat) (b : Byte) : (s.setByte a b).brs = s.brs := rfl
@[simp] theorem State.setByte_tgt (s : State) (a : Nat) (b : Byte) : (s.setByte a b).tgt = s.tgt := rfl
@[simp] theorem State.setByte_poll (s : State) (a : Nat) (b : Byte) : (s.setByte a b).poll = s.poll := rfl
@[simp] theorem State.setByte_dmas (s : State) (a : Nat) (b : Byte) : (s.setByte a b).dmas = s.dmas := rfl
@[simp] theorem State.setByte_barriers (s : State) (a : Nat) (b : Byte) : (s.setByte a b).barriers = s.barriers := rfl
@[simp] theorem State.setByte_balls (s : State) (a : Nat) (b : Byte) : (s.setByte a b).balls = s.balls := rfl
@[simp] theorem State.setByte_fqs (s : State) (a : Nat) (b : Byte) : (s.setByte a b).fqs = s.fqs := rfl
@[simp] theorem State.setByte_units (s : State) (a : Nat) (b : Byte) : (s.setByte a b).units = s.units := rfl
@[simp] theorem State.setByte_cans (s : State) (a : Nat) (b : Byte) : (s.setByte a b).cans = s.cans := rfl
@[simp] theorem State.setByte_clvs (s : State) (a : Nat) (b : Byte) : (s.setByte a b).clvs = s.clvs := rfl
@[simp] theorem State.setByte_pmem (s : State) (a : Nat) (b : Byte) : (s.setByte a b).pmem = s.pmem := rfl
@[simp] theorem State.setByte_macs (s : State) (a : Nat) (b : Byte) : (s.setByte a b).macs = s.macs := rfl
@[simp] theorem State.setByte_pd (s : State) (a : Nat) (b : Byte) : (s.setByte a b).pd = s.pd := rfl
@[simp] theorem State.setByte_pwr (s : State) (a : Nat) (b : Byte) : (s.setByte a b).pwr = s.pwr := rfl
@[simp] theorem State.setByte_rst (s : State) (a : Nat) (b : Byte) : (s.setByte a b).rst = s.rst := rfl
@[simp] theorem State.setByte_boot (s : State) (a : Nat) (b : Byte) : (s.setByte a b).boot = s.boot := rfl
@[simp] theorem State.setByte_tap (s : State) (a : Nat) (b : Byte) : (s.setByte a b).tap = s.tap := rfl
@[simp] theorem State.setByte_keys (s : State) (a : Nat) (b : Byte) : (s.setByte a b).keys = s.keys := rfl
@[simp] theorem State.setByte_kmgr (s : State) (a : Nat) (b : Byte) : (s.setByte a b).kmgr = s.kmgr := rfl
@[simp] theorem State.setByte_ciph (s : State) (a : Nat) (b : Byte) : (s.setByte a b).ciph = s.ciph := rfl
@[simp] theorem State.setByte_pace (s : State) (a : Nat) (b : Byte) : (s.setByte a b).pace = s.pace := rfl
@[simp] theorem State.setByte_ledg (s : State) (a : Nat) (b : Byte) : (s.setByte a b).ledg = s.ledg := rfl
@[simp] theorem State.setByte_raises (s : State) (a : Nat) (b : Byte) : (s.setByte a b).raises = s.raises := rfl
@[simp] theorem State.setByte_level5 (s : State) (a : Nat) (b : Byte) : (s.setByte a b).level5 = s.level5 := rfl

@[simp] theorem State.setTtByte_regs (s : State) (a : Nat) (b : Byte) : (s.setTtByte a b).regs = s.regs := rfl
@[simp] theorem State.setTtByte_mem (s : State) (a : Nat) (b : Byte) : (s.setTtByte a b).mem = s.mem := rfl
@[simp] theorem State.setTtByte_sramBad (s : State) (a : Nat) (b : Byte) : (s.setTtByte a b).sramBad = s.sramBad := rfl
@[simp] theorem State.setTtByte_pending (s : State) (a : Nat) (b : Byte) : (s.setTtByte a b).pending = s.pending := rfl
@[simp] theorem State.setTtByte_out (s : State) (a : Nat) (b : Byte) : (s.setTtByte a b).out = s.out := rfl
@[simp] theorem State.setTtByte_free (s : State) (a : Nat) (b : Byte) : (s.setTtByte a b).free = s.free := rfl
@[simp] theorem State.setTtByte_slot (s : State) (a : Nat) (b : Byte) : (s.setTtByte a b).slot = s.slot := rfl
@[simp] theorem State.setTtByte_slotPhase (s : State) (a : Nat) (b : Byte) : (s.setTtByte a b).slotPhase = s.slotPhase := rfl
@[simp] theorem State.setTtByte_ports (s : State) (a : Nat) (b : Byte) : (s.setTtByte a b).ports = s.ports := rfl
@[simp] theorem State.setTtByte_rcs (s : State) (a : Nat) (b : Byte) : (s.setTtByte a b).rcs = s.rcs := rfl
@[simp] theorem State.setTtByte_claims (s : State) (a : Nat) (b : Byte) : (s.setTtByte a b).claims = s.claims := rfl
@[simp] theorem State.setTtByte_sems (s : State) (a : Nat) (b : Byte) : (s.setTtByte a b).sems = s.sems := rfl
@[simp] theorem State.setTtByte_beats (s : State) (a : Nat) (b : Byte) : (s.setTtByte a b).beats = s.beats := rfl
@[simp] theorem State.setTtByte_bases (s : State) (a : Nat) (b : Byte) : (s.setTtByte a b).bases = s.bases := rfl
@[simp] theorem State.setTtByte_pdWrites (s : State) (a : Nat) (b : Byte) : (s.setTtByte a b).pdWrites = s.pdWrites := rfl
@[simp] theorem State.setTtByte_held (s : State) (a : Nat) (b : Byte) : (s.setTtByte a b).held = s.held := rfl
@[simp] theorem State.setTtByte_resets (s : State) (a : Nat) (b : Byte) : (s.setTtByte a b).resets = s.resets := rfl
@[simp] theorem State.setTtByte_servo (s : State) (a : Nat) (b : Byte) : (s.setTtByte a b).servo = s.servo := rfl
@[simp] theorem State.setTtByte_tlb (s : State) (a : Nat) (b : Byte) : (s.setTtByte a b).tlb = s.tlb := rfl
@[simp] theorem State.setTtByte_flw (s : State) (a : Nat) (b : Byte) : (s.setTtByte a b).flw = s.flw := rfl
@[simp] theorem State.setTtByte_ttbs (s : State) (a : Nat) (b : Byte) : (s.setTtByte a b).ttbs = s.ttbs := rfl
@[simp] theorem State.setTtByte_ttbLog (s : State) (a : Nat) (b : Byte) : (s.setTtByte a b).ttbLog = s.ttbLog := rfl
@[simp] theorem State.setTtByte_fab (s : State) (a : Nat) (b : Byte) : (s.setTtByte a b).fab = s.fab := rfl
@[simp] theorem State.setTtByte_brs (s : State) (a : Nat) (b : Byte) : (s.setTtByte a b).brs = s.brs := rfl
@[simp] theorem State.setTtByte_tgt (s : State) (a : Nat) (b : Byte) : (s.setTtByte a b).tgt = s.tgt := rfl
@[simp] theorem State.setTtByte_poll (s : State) (a : Nat) (b : Byte) : (s.setTtByte a b).poll = s.poll := rfl
@[simp] theorem State.setTtByte_dmas (s : State) (a : Nat) (b : Byte) : (s.setTtByte a b).dmas = s.dmas := rfl
@[simp] theorem State.setTtByte_barriers (s : State) (a : Nat) (b : Byte) : (s.setTtByte a b).barriers = s.barriers := rfl
@[simp] theorem State.setTtByte_balls (s : State) (a : Nat) (b : Byte) : (s.setTtByte a b).balls = s.balls := rfl
@[simp] theorem State.setTtByte_fqs (s : State) (a : Nat) (b : Byte) : (s.setTtByte a b).fqs = s.fqs := rfl
@[simp] theorem State.setTtByte_units (s : State) (a : Nat) (b : Byte) : (s.setTtByte a b).units = s.units := rfl
@[simp] theorem State.setTtByte_cans (s : State) (a : Nat) (b : Byte) : (s.setTtByte a b).cans = s.cans := rfl
@[simp] theorem State.setTtByte_clvs (s : State) (a : Nat) (b : Byte) : (s.setTtByte a b).clvs = s.clvs := rfl
@[simp] theorem State.setTtByte_pmem (s : State) (a : Nat) (b : Byte) : (s.setTtByte a b).pmem = s.pmem := rfl
@[simp] theorem State.setTtByte_macs (s : State) (a : Nat) (b : Byte) : (s.setTtByte a b).macs = s.macs := rfl
@[simp] theorem State.setTtByte_pd (s : State) (a : Nat) (b : Byte) : (s.setTtByte a b).pd = s.pd := rfl
@[simp] theorem State.setTtByte_pwr (s : State) (a : Nat) (b : Byte) : (s.setTtByte a b).pwr = s.pwr := rfl
@[simp] theorem State.setTtByte_rst (s : State) (a : Nat) (b : Byte) : (s.setTtByte a b).rst = s.rst := rfl
@[simp] theorem State.setTtByte_boot (s : State) (a : Nat) (b : Byte) : (s.setTtByte a b).boot = s.boot := rfl
@[simp] theorem State.setTtByte_tap (s : State) (a : Nat) (b : Byte) : (s.setTtByte a b).tap = s.tap := rfl
@[simp] theorem State.setTtByte_keys (s : State) (a : Nat) (b : Byte) : (s.setTtByte a b).keys = s.keys := rfl
@[simp] theorem State.setTtByte_kmgr (s : State) (a : Nat) (b : Byte) : (s.setTtByte a b).kmgr = s.kmgr := rfl
@[simp] theorem State.setTtByte_ciph (s : State) (a : Nat) (b : Byte) : (s.setTtByte a b).ciph = s.ciph := rfl
@[simp] theorem State.setTtByte_pace (s : State) (a : Nat) (b : Byte) : (s.setTtByte a b).pace = s.pace := rfl
@[simp] theorem State.setTtByte_ledg (s : State) (a : Nat) (b : Byte) : (s.setTtByte a b).ledg = s.ledg := rfl
@[simp] theorem State.setTtByte_raises (s : State) (a : Nat) (b : Byte) : (s.setTtByte a b).raises = s.raises := rfl
@[simp] theorem State.setTtByte_level5 (s : State) (a : Nat) (b : Byte) : (s.setTtByte a b).level5 = s.level5 := rfl

@[simp] theorem State.setPort_regs (s : State) (r p : Nat) (x : PortSt) : (s.setPort r p x).regs = s.regs := rfl
@[simp] theorem State.setPort_mem (s : State) (r p : Nat) (x : PortSt) : (s.setPort r p x).mem = s.mem := rfl
@[simp] theorem State.setPort_ttm (s : State) (r p : Nat) (x : PortSt) : (s.setPort r p x).ttm = s.ttm := rfl
@[simp] theorem State.setPort_sramBad (s : State) (r p : Nat) (x : PortSt) : (s.setPort r p x).sramBad = s.sramBad := rfl
@[simp] theorem State.setPort_pending (s : State) (r p : Nat) (x : PortSt) : (s.setPort r p x).pending = s.pending := rfl
@[simp] theorem State.setPort_out (s : State) (r p : Nat) (x : PortSt) : (s.setPort r p x).out = s.out := rfl
@[simp] theorem State.setPort_free (s : State) (r p : Nat) (x : PortSt) : (s.setPort r p x).free = s.free := rfl
@[simp] theorem State.setPort_slot (s : State) (r p : Nat) (x : PortSt) : (s.setPort r p x).slot = s.slot := rfl
@[simp] theorem State.setPort_slotPhase (s : State) (r p : Nat) (x : PortSt) : (s.setPort r p x).slotPhase = s.slotPhase := rfl
@[simp] theorem State.setPort_rcs (s : State) (r p : Nat) (x : PortSt) : (s.setPort r p x).rcs = s.rcs := rfl
@[simp] theorem State.setPort_claims (s : State) (r p : Nat) (x : PortSt) : (s.setPort r p x).claims = s.claims := rfl
@[simp] theorem State.setPort_sems (s : State) (r p : Nat) (x : PortSt) : (s.setPort r p x).sems = s.sems := rfl
@[simp] theorem State.setPort_beats (s : State) (r p : Nat) (x : PortSt) : (s.setPort r p x).beats = s.beats := rfl
@[simp] theorem State.setPort_bases (s : State) (r p : Nat) (x : PortSt) : (s.setPort r p x).bases = s.bases := rfl
@[simp] theorem State.setPort_pdWrites (s : State) (r p : Nat) (x : PortSt) : (s.setPort r p x).pdWrites = s.pdWrites := rfl
@[simp] theorem State.setPort_held (s : State) (r p : Nat) (x : PortSt) : (s.setPort r p x).held = s.held := rfl
@[simp] theorem State.setPort_resets (s : State) (r p : Nat) (x : PortSt) : (s.setPort r p x).resets = s.resets := rfl
@[simp] theorem State.setPort_servo (s : State) (r p : Nat) (x : PortSt) : (s.setPort r p x).servo = s.servo := rfl
@[simp] theorem State.setPort_tlb (s : State) (r p : Nat) (x : PortSt) : (s.setPort r p x).tlb = s.tlb := rfl
@[simp] theorem State.setPort_flw (s : State) (r p : Nat) (x : PortSt) : (s.setPort r p x).flw = s.flw := rfl
@[simp] theorem State.setPort_ttbs (s : State) (r p : Nat) (x : PortSt) : (s.setPort r p x).ttbs = s.ttbs := rfl
@[simp] theorem State.setPort_ttbLog (s : State) (r p : Nat) (x : PortSt) : (s.setPort r p x).ttbLog = s.ttbLog := rfl
@[simp] theorem State.setPort_fab (s : State) (r p : Nat) (x : PortSt) : (s.setPort r p x).fab = s.fab := rfl
@[simp] theorem State.setPort_brs (s : State) (r p : Nat) (x : PortSt) : (s.setPort r p x).brs = s.brs := rfl
@[simp] theorem State.setPort_tgt (s : State) (r p : Nat) (x : PortSt) : (s.setPort r p x).tgt = s.tgt := rfl
@[simp] theorem State.setPort_poll (s : State) (r p : Nat) (x : PortSt) : (s.setPort r p x).poll = s.poll := rfl
@[simp] theorem State.setPort_dmas (s : State) (r p : Nat) (x : PortSt) : (s.setPort r p x).dmas = s.dmas := rfl
@[simp] theorem State.setPort_barriers (s : State) (r p : Nat) (x : PortSt) : (s.setPort r p x).barriers = s.barriers := rfl
@[simp] theorem State.setPort_balls (s : State) (r p : Nat) (x : PortSt) : (s.setPort r p x).balls = s.balls := rfl
@[simp] theorem State.setPort_fqs (s : State) (r p : Nat) (x : PortSt) : (s.setPort r p x).fqs = s.fqs := rfl
@[simp] theorem State.setPort_units (s : State) (r p : Nat) (x : PortSt) : (s.setPort r p x).units = s.units := rfl
@[simp] theorem State.setPort_cans (s : State) (r p : Nat) (x : PortSt) : (s.setPort r p x).cans = s.cans := rfl
@[simp] theorem State.setPort_clvs (s : State) (r p : Nat) (x : PortSt) : (s.setPort r p x).clvs = s.clvs := rfl
@[simp] theorem State.setPort_pmem (s : State) (r p : Nat) (x : PortSt) : (s.setPort r p x).pmem = s.pmem := rfl
@[simp] theorem State.setPort_macs (s : State) (r p : Nat) (x : PortSt) : (s.setPort r p x).macs = s.macs := rfl
@[simp] theorem State.setPort_pd (s : State) (r p : Nat) (x : PortSt) : (s.setPort r p x).pd = s.pd := rfl
@[simp] theorem State.setPort_pwr (s : State) (r p : Nat) (x : PortSt) : (s.setPort r p x).pwr = s.pwr := rfl
@[simp] theorem State.setPort_rst (s : State) (r p : Nat) (x : PortSt) : (s.setPort r p x).rst = s.rst := rfl
@[simp] theorem State.setPort_boot (s : State) (r p : Nat) (x : PortSt) : (s.setPort r p x).boot = s.boot := rfl
@[simp] theorem State.setPort_tap (s : State) (r p : Nat) (x : PortSt) : (s.setPort r p x).tap = s.tap := rfl
@[simp] theorem State.setPort_keys (s : State) (r p : Nat) (x : PortSt) : (s.setPort r p x).keys = s.keys := rfl
@[simp] theorem State.setPort_kmgr (s : State) (r p : Nat) (x : PortSt) : (s.setPort r p x).kmgr = s.kmgr := rfl
@[simp] theorem State.setPort_ciph (s : State) (r p : Nat) (x : PortSt) : (s.setPort r p x).ciph = s.ciph := rfl
@[simp] theorem State.setPort_pace (s : State) (r p : Nat) (x : PortSt) : (s.setPort r p x).pace = s.pace := rfl
@[simp] theorem State.setPort_ledg (s : State) (r p : Nat) (x : PortSt) : (s.setPort r p x).ledg = s.ledg := rfl
@[simp] theorem State.setPort_raises (s : State) (r p : Nat) (x : PortSt) : (s.setPort r p x).raises = s.raises := rfl
@[simp] theorem State.setPort_level5 (s : State) (r p : Nat) (x : PortSt) : (s.setPort r p x).level5 = s.level5 := rfl

@[simp] theorem State.setRc_regs (s : State) (i : Nat) (x : RcSt) : (s.setRc i x).regs = s.regs := rfl
@[simp] theorem State.setRc_mem (s : State) (i : Nat) (x : RcSt) : (s.setRc i x).mem = s.mem := rfl
@[simp] theorem State.setRc_ttm (s : State) (i : Nat) (x : RcSt) : (s.setRc i x).ttm = s.ttm := rfl
@[simp] theorem State.setRc_sramBad (s : State) (i : Nat) (x : RcSt) : (s.setRc i x).sramBad = s.sramBad := rfl
@[simp] theorem State.setRc_pending (s : State) (i : Nat) (x : RcSt) : (s.setRc i x).pending = s.pending := rfl
@[simp] theorem State.setRc_out (s : State) (i : Nat) (x : RcSt) : (s.setRc i x).out = s.out := rfl
@[simp] theorem State.setRc_free (s : State) (i : Nat) (x : RcSt) : (s.setRc i x).free = s.free := rfl
@[simp] theorem State.setRc_slot (s : State) (i : Nat) (x : RcSt) : (s.setRc i x).slot = s.slot := rfl
@[simp] theorem State.setRc_slotPhase (s : State) (i : Nat) (x : RcSt) : (s.setRc i x).slotPhase = s.slotPhase := rfl
@[simp] theorem State.setRc_ports (s : State) (i : Nat) (x : RcSt) : (s.setRc i x).ports = s.ports := rfl
@[simp] theorem State.setRc_claims (s : State) (i : Nat) (x : RcSt) : (s.setRc i x).claims = s.claims := rfl
@[simp] theorem State.setRc_sems (s : State) (i : Nat) (x : RcSt) : (s.setRc i x).sems = s.sems := rfl
@[simp] theorem State.setRc_beats (s : State) (i : Nat) (x : RcSt) : (s.setRc i x).beats = s.beats := rfl
@[simp] theorem State.setRc_bases (s : State) (i : Nat) (x : RcSt) : (s.setRc i x).bases = s.bases := rfl
@[simp] theorem State.setRc_pdWrites (s : State) (i : Nat) (x : RcSt) : (s.setRc i x).pdWrites = s.pdWrites := rfl
@[simp] theorem State.setRc_held (s : State) (i : Nat) (x : RcSt) : (s.setRc i x).held = s.held := rfl
@[simp] theorem State.setRc_resets (s : State) (i : Nat) (x : RcSt) : (s.setRc i x).resets = s.resets := rfl
@[simp] theorem State.setRc_servo (s : State) (i : Nat) (x : RcSt) : (s.setRc i x).servo = s.servo := rfl
@[simp] theorem State.setRc_tlb (s : State) (i : Nat) (x : RcSt) : (s.setRc i x).tlb = s.tlb := rfl
@[simp] theorem State.setRc_flw (s : State) (i : Nat) (x : RcSt) : (s.setRc i x).flw = s.flw := rfl
@[simp] theorem State.setRc_ttbs (s : State) (i : Nat) (x : RcSt) : (s.setRc i x).ttbs = s.ttbs := rfl
@[simp] theorem State.setRc_ttbLog (s : State) (i : Nat) (x : RcSt) : (s.setRc i x).ttbLog = s.ttbLog := rfl
@[simp] theorem State.setRc_fab (s : State) (i : Nat) (x : RcSt) : (s.setRc i x).fab = s.fab := rfl
@[simp] theorem State.setRc_brs (s : State) (i : Nat) (x : RcSt) : (s.setRc i x).brs = s.brs := rfl
@[simp] theorem State.setRc_tgt (s : State) (i : Nat) (x : RcSt) : (s.setRc i x).tgt = s.tgt := rfl
@[simp] theorem State.setRc_poll (s : State) (i : Nat) (x : RcSt) : (s.setRc i x).poll = s.poll := rfl
@[simp] theorem State.setRc_dmas (s : State) (i : Nat) (x : RcSt) : (s.setRc i x).dmas = s.dmas := rfl
@[simp] theorem State.setRc_barriers (s : State) (i : Nat) (x : RcSt) : (s.setRc i x).barriers = s.barriers := rfl
@[simp] theorem State.setRc_balls (s : State) (i : Nat) (x : RcSt) : (s.setRc i x).balls = s.balls := rfl
@[simp] theorem State.setRc_fqs (s : State) (i : Nat) (x : RcSt) : (s.setRc i x).fqs = s.fqs := rfl
@[simp] theorem State.setRc_units (s : State) (i : Nat) (x : RcSt) : (s.setRc i x).units = s.units := rfl
@[simp] theorem State.setRc_cans (s : State) (i : Nat) (x : RcSt) : (s.setRc i x).cans = s.cans := rfl
@[simp] theorem State.setRc_clvs (s : State) (i : Nat) (x : RcSt) : (s.setRc i x).clvs = s.clvs := rfl
@[simp] theorem State.setRc_pmem (s : State) (i : Nat) (x : RcSt) : (s.setRc i x).pmem = s.pmem := rfl
@[simp] theorem State.setRc_macs (s : State) (i : Nat) (x : RcSt) : (s.setRc i x).macs = s.macs := rfl
@[simp] theorem State.setRc_pd (s : State) (i : Nat) (x : RcSt) : (s.setRc i x).pd = s.pd := rfl
@[simp] theorem State.setRc_pwr (s : State) (i : Nat) (x : RcSt) : (s.setRc i x).pwr = s.pwr := rfl
@[simp] theorem State.setRc_rst (s : State) (i : Nat) (x : RcSt) : (s.setRc i x).rst = s.rst := rfl
@[simp] theorem State.setRc_boot (s : State) (i : Nat) (x : RcSt) : (s.setRc i x).boot = s.boot := rfl
@[simp] theorem State.setRc_tap (s : State) (i : Nat) (x : RcSt) : (s.setRc i x).tap = s.tap := rfl
@[simp] theorem State.setRc_keys (s : State) (i : Nat) (x : RcSt) : (s.setRc i x).keys = s.keys := rfl
@[simp] theorem State.setRc_kmgr (s : State) (i : Nat) (x : RcSt) : (s.setRc i x).kmgr = s.kmgr := rfl
@[simp] theorem State.setRc_ciph (s : State) (i : Nat) (x : RcSt) : (s.setRc i x).ciph = s.ciph := rfl
@[simp] theorem State.setRc_pace (s : State) (i : Nat) (x : RcSt) : (s.setRc i x).pace = s.pace := rfl
@[simp] theorem State.setRc_ledg (s : State) (i : Nat) (x : RcSt) : (s.setRc i x).ledg = s.ledg := rfl
@[simp] theorem State.setRc_raises (s : State) (i : Nat) (x : RcSt) : (s.setRc i x).raises = s.raises := rfl
@[simp] theorem State.setRc_level5 (s : State) (i : Nat) (x : RcSt) : (s.setRc i x).level5 = s.level5 := rfl

@[simp] theorem State.setClaim_regs (s : State) (i : Nat) (x : ClaimSt) : (s.setClaim i x).regs = s.regs := rfl
@[simp] theorem State.setClaim_mem (s : State) (i : Nat) (x : ClaimSt) : (s.setClaim i x).mem = s.mem := rfl
@[simp] theorem State.setClaim_ttm (s : State) (i : Nat) (x : ClaimSt) : (s.setClaim i x).ttm = s.ttm := rfl
@[simp] theorem State.setClaim_sramBad (s : State) (i : Nat) (x : ClaimSt) : (s.setClaim i x).sramBad = s.sramBad := rfl
@[simp] theorem State.setClaim_pending (s : State) (i : Nat) (x : ClaimSt) : (s.setClaim i x).pending = s.pending := rfl
@[simp] theorem State.setClaim_out (s : State) (i : Nat) (x : ClaimSt) : (s.setClaim i x).out = s.out := rfl
@[simp] theorem State.setClaim_free (s : State) (i : Nat) (x : ClaimSt) : (s.setClaim i x).free = s.free := rfl
@[simp] theorem State.setClaim_slot (s : State) (i : Nat) (x : ClaimSt) : (s.setClaim i x).slot = s.slot := rfl
@[simp] theorem State.setClaim_slotPhase (s : State) (i : Nat) (x : ClaimSt) : (s.setClaim i x).slotPhase = s.slotPhase := rfl
@[simp] theorem State.setClaim_ports (s : State) (i : Nat) (x : ClaimSt) : (s.setClaim i x).ports = s.ports := rfl
@[simp] theorem State.setClaim_rcs (s : State) (i : Nat) (x : ClaimSt) : (s.setClaim i x).rcs = s.rcs := rfl
@[simp] theorem State.setClaim_sems (s : State) (i : Nat) (x : ClaimSt) : (s.setClaim i x).sems = s.sems := rfl
@[simp] theorem State.setClaim_beats (s : State) (i : Nat) (x : ClaimSt) : (s.setClaim i x).beats = s.beats := rfl
@[simp] theorem State.setClaim_bases (s : State) (i : Nat) (x : ClaimSt) : (s.setClaim i x).bases = s.bases := rfl
@[simp] theorem State.setClaim_pdWrites (s : State) (i : Nat) (x : ClaimSt) : (s.setClaim i x).pdWrites = s.pdWrites := rfl
@[simp] theorem State.setClaim_held (s : State) (i : Nat) (x : ClaimSt) : (s.setClaim i x).held = s.held := rfl
@[simp] theorem State.setClaim_resets (s : State) (i : Nat) (x : ClaimSt) : (s.setClaim i x).resets = s.resets := rfl
@[simp] theorem State.setClaim_servo (s : State) (i : Nat) (x : ClaimSt) : (s.setClaim i x).servo = s.servo := rfl
@[simp] theorem State.setClaim_tlb (s : State) (i : Nat) (x : ClaimSt) : (s.setClaim i x).tlb = s.tlb := rfl
@[simp] theorem State.setClaim_flw (s : State) (i : Nat) (x : ClaimSt) : (s.setClaim i x).flw = s.flw := rfl
@[simp] theorem State.setClaim_ttbs (s : State) (i : Nat) (x : ClaimSt) : (s.setClaim i x).ttbs = s.ttbs := rfl
@[simp] theorem State.setClaim_ttbLog (s : State) (i : Nat) (x : ClaimSt) : (s.setClaim i x).ttbLog = s.ttbLog := rfl
@[simp] theorem State.setClaim_fab (s : State) (i : Nat) (x : ClaimSt) : (s.setClaim i x).fab = s.fab := rfl
@[simp] theorem State.setClaim_brs (s : State) (i : Nat) (x : ClaimSt) : (s.setClaim i x).brs = s.brs := rfl
@[simp] theorem State.setClaim_tgt (s : State) (i : Nat) (x : ClaimSt) : (s.setClaim i x).tgt = s.tgt := rfl
@[simp] theorem State.setClaim_poll (s : State) (i : Nat) (x : ClaimSt) : (s.setClaim i x).poll = s.poll := rfl
@[simp] theorem State.setClaim_dmas (s : State) (i : Nat) (x : ClaimSt) : (s.setClaim i x).dmas = s.dmas := rfl
@[simp] theorem State.setClaim_barriers (s : State) (i : Nat) (x : ClaimSt) : (s.setClaim i x).barriers = s.barriers := rfl
@[simp] theorem State.setClaim_balls (s : State) (i : Nat) (x : ClaimSt) : (s.setClaim i x).balls = s.balls := rfl
@[simp] theorem State.setClaim_fqs (s : State) (i : Nat) (x : ClaimSt) : (s.setClaim i x).fqs = s.fqs := rfl
@[simp] theorem State.setClaim_units (s : State) (i : Nat) (x : ClaimSt) : (s.setClaim i x).units = s.units := rfl
@[simp] theorem State.setClaim_cans (s : State) (i : Nat) (x : ClaimSt) : (s.setClaim i x).cans = s.cans := rfl
@[simp] theorem State.setClaim_clvs (s : State) (i : Nat) (x : ClaimSt) : (s.setClaim i x).clvs = s.clvs := rfl
@[simp] theorem State.setClaim_pmem (s : State) (i : Nat) (x : ClaimSt) : (s.setClaim i x).pmem = s.pmem := rfl
@[simp] theorem State.setClaim_macs (s : State) (i : Nat) (x : ClaimSt) : (s.setClaim i x).macs = s.macs := rfl
@[simp] theorem State.setClaim_pd (s : State) (i : Nat) (x : ClaimSt) : (s.setClaim i x).pd = s.pd := rfl
@[simp] theorem State.setClaim_pwr (s : State) (i : Nat) (x : ClaimSt) : (s.setClaim i x).pwr = s.pwr := rfl
@[simp] theorem State.setClaim_rst (s : State) (i : Nat) (x : ClaimSt) : (s.setClaim i x).rst = s.rst := rfl
@[simp] theorem State.setClaim_boot (s : State) (i : Nat) (x : ClaimSt) : (s.setClaim i x).boot = s.boot := rfl
@[simp] theorem State.setClaim_tap (s : State) (i : Nat) (x : ClaimSt) : (s.setClaim i x).tap = s.tap := rfl
@[simp] theorem State.setClaim_keys (s : State) (i : Nat) (x : ClaimSt) : (s.setClaim i x).keys = s.keys := rfl
@[simp] theorem State.setClaim_kmgr (s : State) (i : Nat) (x : ClaimSt) : (s.setClaim i x).kmgr = s.kmgr := rfl
@[simp] theorem State.setClaim_ciph (s : State) (i : Nat) (x : ClaimSt) : (s.setClaim i x).ciph = s.ciph := rfl
@[simp] theorem State.setClaim_pace (s : State) (i : Nat) (x : ClaimSt) : (s.setClaim i x).pace = s.pace := rfl
@[simp] theorem State.setClaim_ledg (s : State) (i : Nat) (x : ClaimSt) : (s.setClaim i x).ledg = s.ledg := rfl
@[simp] theorem State.setClaim_raises (s : State) (i : Nat) (x : ClaimSt) : (s.setClaim i x).raises = s.raises := rfl
@[simp] theorem State.setClaim_level5 (s : State) (i : Nat) (x : ClaimSt) : (s.setClaim i x).level5 = s.level5 := rfl

@[simp] theorem State.setSem_regs (s : State) (i : Nat) (x : SemSt) : (s.setSem i x).regs = s.regs := rfl
@[simp] theorem State.setSem_mem (s : State) (i : Nat) (x : SemSt) : (s.setSem i x).mem = s.mem := rfl
@[simp] theorem State.setSem_ttm (s : State) (i : Nat) (x : SemSt) : (s.setSem i x).ttm = s.ttm := rfl
@[simp] theorem State.setSem_sramBad (s : State) (i : Nat) (x : SemSt) : (s.setSem i x).sramBad = s.sramBad := rfl
@[simp] theorem State.setSem_pending (s : State) (i : Nat) (x : SemSt) : (s.setSem i x).pending = s.pending := rfl
@[simp] theorem State.setSem_out (s : State) (i : Nat) (x : SemSt) : (s.setSem i x).out = s.out := rfl
@[simp] theorem State.setSem_free (s : State) (i : Nat) (x : SemSt) : (s.setSem i x).free = s.free := rfl
@[simp] theorem State.setSem_slot (s : State) (i : Nat) (x : SemSt) : (s.setSem i x).slot = s.slot := rfl
@[simp] theorem State.setSem_slotPhase (s : State) (i : Nat) (x : SemSt) : (s.setSem i x).slotPhase = s.slotPhase := rfl
@[simp] theorem State.setSem_ports (s : State) (i : Nat) (x : SemSt) : (s.setSem i x).ports = s.ports := rfl
@[simp] theorem State.setSem_rcs (s : State) (i : Nat) (x : SemSt) : (s.setSem i x).rcs = s.rcs := rfl
@[simp] theorem State.setSem_claims (s : State) (i : Nat) (x : SemSt) : (s.setSem i x).claims = s.claims := rfl
@[simp] theorem State.setSem_beats (s : State) (i : Nat) (x : SemSt) : (s.setSem i x).beats = s.beats := rfl
@[simp] theorem State.setSem_bases (s : State) (i : Nat) (x : SemSt) : (s.setSem i x).bases = s.bases := rfl
@[simp] theorem State.setSem_pdWrites (s : State) (i : Nat) (x : SemSt) : (s.setSem i x).pdWrites = s.pdWrites := rfl
@[simp] theorem State.setSem_held (s : State) (i : Nat) (x : SemSt) : (s.setSem i x).held = s.held := rfl
@[simp] theorem State.setSem_resets (s : State) (i : Nat) (x : SemSt) : (s.setSem i x).resets = s.resets := rfl
@[simp] theorem State.setSem_servo (s : State) (i : Nat) (x : SemSt) : (s.setSem i x).servo = s.servo := rfl
@[simp] theorem State.setSem_tlb (s : State) (i : Nat) (x : SemSt) : (s.setSem i x).tlb = s.tlb := rfl
@[simp] theorem State.setSem_flw (s : State) (i : Nat) (x : SemSt) : (s.setSem i x).flw = s.flw := rfl
@[simp] theorem State.setSem_ttbs (s : State) (i : Nat) (x : SemSt) : (s.setSem i x).ttbs = s.ttbs := rfl
@[simp] theorem State.setSem_ttbLog (s : State) (i : Nat) (x : SemSt) : (s.setSem i x).ttbLog = s.ttbLog := rfl
@[simp] theorem State.setSem_fab (s : State) (i : Nat) (x : SemSt) : (s.setSem i x).fab = s.fab := rfl
@[simp] theorem State.setSem_brs (s : State) (i : Nat) (x : SemSt) : (s.setSem i x).brs = s.brs := rfl
@[simp] theorem State.setSem_tgt (s : State) (i : Nat) (x : SemSt) : (s.setSem i x).tgt = s.tgt := rfl
@[simp] theorem State.setSem_poll (s : State) (i : Nat) (x : SemSt) : (s.setSem i x).poll = s.poll := rfl
@[simp] theorem State.setSem_dmas (s : State) (i : Nat) (x : SemSt) : (s.setSem i x).dmas = s.dmas := rfl
@[simp] theorem State.setSem_barriers (s : State) (i : Nat) (x : SemSt) : (s.setSem i x).barriers = s.barriers := rfl
@[simp] theorem State.setSem_balls (s : State) (i : Nat) (x : SemSt) : (s.setSem i x).balls = s.balls := rfl
@[simp] theorem State.setSem_fqs (s : State) (i : Nat) (x : SemSt) : (s.setSem i x).fqs = s.fqs := rfl
@[simp] theorem State.setSem_units (s : State) (i : Nat) (x : SemSt) : (s.setSem i x).units = s.units := rfl
@[simp] theorem State.setSem_cans (s : State) (i : Nat) (x : SemSt) : (s.setSem i x).cans = s.cans := rfl
@[simp] theorem State.setSem_clvs (s : State) (i : Nat) (x : SemSt) : (s.setSem i x).clvs = s.clvs := rfl
@[simp] theorem State.setSem_pmem (s : State) (i : Nat) (x : SemSt) : (s.setSem i x).pmem = s.pmem := rfl
@[simp] theorem State.setSem_macs (s : State) (i : Nat) (x : SemSt) : (s.setSem i x).macs = s.macs := rfl
@[simp] theorem State.setSem_pd (s : State) (i : Nat) (x : SemSt) : (s.setSem i x).pd = s.pd := rfl
@[simp] theorem State.setSem_pwr (s : State) (i : Nat) (x : SemSt) : (s.setSem i x).pwr = s.pwr := rfl
@[simp] theorem State.setSem_rst (s : State) (i : Nat) (x : SemSt) : (s.setSem i x).rst = s.rst := rfl
@[simp] theorem State.setSem_boot (s : State) (i : Nat) (x : SemSt) : (s.setSem i x).boot = s.boot := rfl
@[simp] theorem State.setSem_tap (s : State) (i : Nat) (x : SemSt) : (s.setSem i x).tap = s.tap := rfl
@[simp] theorem State.setSem_keys (s : State) (i : Nat) (x : SemSt) : (s.setSem i x).keys = s.keys := rfl
@[simp] theorem State.setSem_kmgr (s : State) (i : Nat) (x : SemSt) : (s.setSem i x).kmgr = s.kmgr := rfl
@[simp] theorem State.setSem_ciph (s : State) (i : Nat) (x : SemSt) : (s.setSem i x).ciph = s.ciph := rfl
@[simp] theorem State.setSem_pace (s : State) (i : Nat) (x : SemSt) : (s.setSem i x).pace = s.pace := rfl
@[simp] theorem State.setSem_ledg (s : State) (i : Nat) (x : SemSt) : (s.setSem i x).ledg = s.ledg := rfl
@[simp] theorem State.setSem_raises (s : State) (i : Nat) (x : SemSt) : (s.setSem i x).raises = s.raises := rfl
@[simp] theorem State.setSem_level5 (s : State) (i : Nat) (x : SemSt) : (s.setSem i x).level5 = s.level5 := rfl

@[simp] theorem State.setBeat_regs (s : State) (i : Nat) (x : BeatSt) : (s.setBeat i x).regs = s.regs := rfl
@[simp] theorem State.setBeat_mem (s : State) (i : Nat) (x : BeatSt) : (s.setBeat i x).mem = s.mem := rfl
@[simp] theorem State.setBeat_ttm (s : State) (i : Nat) (x : BeatSt) : (s.setBeat i x).ttm = s.ttm := rfl
@[simp] theorem State.setBeat_sramBad (s : State) (i : Nat) (x : BeatSt) : (s.setBeat i x).sramBad = s.sramBad := rfl
@[simp] theorem State.setBeat_pending (s : State) (i : Nat) (x : BeatSt) : (s.setBeat i x).pending = s.pending := rfl
@[simp] theorem State.setBeat_out (s : State) (i : Nat) (x : BeatSt) : (s.setBeat i x).out = s.out := rfl
@[simp] theorem State.setBeat_free (s : State) (i : Nat) (x : BeatSt) : (s.setBeat i x).free = s.free := rfl
@[simp] theorem State.setBeat_slot (s : State) (i : Nat) (x : BeatSt) : (s.setBeat i x).slot = s.slot := rfl
@[simp] theorem State.setBeat_slotPhase (s : State) (i : Nat) (x : BeatSt) : (s.setBeat i x).slotPhase = s.slotPhase := rfl
@[simp] theorem State.setBeat_ports (s : State) (i : Nat) (x : BeatSt) : (s.setBeat i x).ports = s.ports := rfl
@[simp] theorem State.setBeat_rcs (s : State) (i : Nat) (x : BeatSt) : (s.setBeat i x).rcs = s.rcs := rfl
@[simp] theorem State.setBeat_claims (s : State) (i : Nat) (x : BeatSt) : (s.setBeat i x).claims = s.claims := rfl
@[simp] theorem State.setBeat_sems (s : State) (i : Nat) (x : BeatSt) : (s.setBeat i x).sems = s.sems := rfl
@[simp] theorem State.setBeat_bases (s : State) (i : Nat) (x : BeatSt) : (s.setBeat i x).bases = s.bases := rfl
@[simp] theorem State.setBeat_pdWrites (s : State) (i : Nat) (x : BeatSt) : (s.setBeat i x).pdWrites = s.pdWrites := rfl
@[simp] theorem State.setBeat_held (s : State) (i : Nat) (x : BeatSt) : (s.setBeat i x).held = s.held := rfl
@[simp] theorem State.setBeat_resets (s : State) (i : Nat) (x : BeatSt) : (s.setBeat i x).resets = s.resets := rfl
@[simp] theorem State.setBeat_servo (s : State) (i : Nat) (x : BeatSt) : (s.setBeat i x).servo = s.servo := rfl
@[simp] theorem State.setBeat_tlb (s : State) (i : Nat) (x : BeatSt) : (s.setBeat i x).tlb = s.tlb := rfl
@[simp] theorem State.setBeat_flw (s : State) (i : Nat) (x : BeatSt) : (s.setBeat i x).flw = s.flw := rfl
@[simp] theorem State.setBeat_ttbs (s : State) (i : Nat) (x : BeatSt) : (s.setBeat i x).ttbs = s.ttbs := rfl
@[simp] theorem State.setBeat_ttbLog (s : State) (i : Nat) (x : BeatSt) : (s.setBeat i x).ttbLog = s.ttbLog := rfl
@[simp] theorem State.setBeat_fab (s : State) (i : Nat) (x : BeatSt) : (s.setBeat i x).fab = s.fab := rfl
@[simp] theorem State.setBeat_brs (s : State) (i : Nat) (x : BeatSt) : (s.setBeat i x).brs = s.brs := rfl
@[simp] theorem State.setBeat_tgt (s : State) (i : Nat) (x : BeatSt) : (s.setBeat i x).tgt = s.tgt := rfl
@[simp] theorem State.setBeat_poll (s : State) (i : Nat) (x : BeatSt) : (s.setBeat i x).poll = s.poll := rfl
@[simp] theorem State.setBeat_dmas (s : State) (i : Nat) (x : BeatSt) : (s.setBeat i x).dmas = s.dmas := rfl
@[simp] theorem State.setBeat_barriers (s : State) (i : Nat) (x : BeatSt) : (s.setBeat i x).barriers = s.barriers := rfl
@[simp] theorem State.setBeat_balls (s : State) (i : Nat) (x : BeatSt) : (s.setBeat i x).balls = s.balls := rfl
@[simp] theorem State.setBeat_fqs (s : State) (i : Nat) (x : BeatSt) : (s.setBeat i x).fqs = s.fqs := rfl
@[simp] theorem State.setBeat_units (s : State) (i : Nat) (x : BeatSt) : (s.setBeat i x).units = s.units := rfl
@[simp] theorem State.setBeat_cans (s : State) (i : Nat) (x : BeatSt) : (s.setBeat i x).cans = s.cans := rfl
@[simp] theorem State.setBeat_clvs (s : State) (i : Nat) (x : BeatSt) : (s.setBeat i x).clvs = s.clvs := rfl
@[simp] theorem State.setBeat_pmem (s : State) (i : Nat) (x : BeatSt) : (s.setBeat i x).pmem = s.pmem := rfl
@[simp] theorem State.setBeat_macs (s : State) (i : Nat) (x : BeatSt) : (s.setBeat i x).macs = s.macs := rfl
@[simp] theorem State.setBeat_pd (s : State) (i : Nat) (x : BeatSt) : (s.setBeat i x).pd = s.pd := rfl
@[simp] theorem State.setBeat_pwr (s : State) (i : Nat) (x : BeatSt) : (s.setBeat i x).pwr = s.pwr := rfl
@[simp] theorem State.setBeat_rst (s : State) (i : Nat) (x : BeatSt) : (s.setBeat i x).rst = s.rst := rfl
@[simp] theorem State.setBeat_boot (s : State) (i : Nat) (x : BeatSt) : (s.setBeat i x).boot = s.boot := rfl
@[simp] theorem State.setBeat_tap (s : State) (i : Nat) (x : BeatSt) : (s.setBeat i x).tap = s.tap := rfl
@[simp] theorem State.setBeat_keys (s : State) (i : Nat) (x : BeatSt) : (s.setBeat i x).keys = s.keys := rfl
@[simp] theorem State.setBeat_kmgr (s : State) (i : Nat) (x : BeatSt) : (s.setBeat i x).kmgr = s.kmgr := rfl
@[simp] theorem State.setBeat_ciph (s : State) (i : Nat) (x : BeatSt) : (s.setBeat i x).ciph = s.ciph := rfl
@[simp] theorem State.setBeat_pace (s : State) (i : Nat) (x : BeatSt) : (s.setBeat i x).pace = s.pace := rfl
@[simp] theorem State.setBeat_ledg (s : State) (i : Nat) (x : BeatSt) : (s.setBeat i x).ledg = s.ledg := rfl
@[simp] theorem State.setBeat_raises (s : State) (i : Nat) (x : BeatSt) : (s.setBeat i x).raises = s.raises := rfl
@[simp] theorem State.setBeat_level5 (s : State) (i : Nat) (x : BeatSt) : (s.setBeat i x).level5 = s.level5 := rfl

@[simp] theorem State.setTtb_regs (s : State) (i : Nat) (x : TtbSt) : (s.setTtb i x).regs = s.regs := rfl
@[simp] theorem State.setTtb_mem (s : State) (i : Nat) (x : TtbSt) : (s.setTtb i x).mem = s.mem := rfl
@[simp] theorem State.setTtb_ttm (s : State) (i : Nat) (x : TtbSt) : (s.setTtb i x).ttm = s.ttm := rfl
@[simp] theorem State.setTtb_sramBad (s : State) (i : Nat) (x : TtbSt) : (s.setTtb i x).sramBad = s.sramBad := rfl
@[simp] theorem State.setTtb_pending (s : State) (i : Nat) (x : TtbSt) : (s.setTtb i x).pending = s.pending := rfl
@[simp] theorem State.setTtb_out (s : State) (i : Nat) (x : TtbSt) : (s.setTtb i x).out = s.out := rfl
@[simp] theorem State.setTtb_free (s : State) (i : Nat) (x : TtbSt) : (s.setTtb i x).free = s.free := rfl
@[simp] theorem State.setTtb_slot (s : State) (i : Nat) (x : TtbSt) : (s.setTtb i x).slot = s.slot := rfl
@[simp] theorem State.setTtb_slotPhase (s : State) (i : Nat) (x : TtbSt) : (s.setTtb i x).slotPhase = s.slotPhase := rfl
@[simp] theorem State.setTtb_ports (s : State) (i : Nat) (x : TtbSt) : (s.setTtb i x).ports = s.ports := rfl
@[simp] theorem State.setTtb_rcs (s : State) (i : Nat) (x : TtbSt) : (s.setTtb i x).rcs = s.rcs := rfl
@[simp] theorem State.setTtb_claims (s : State) (i : Nat) (x : TtbSt) : (s.setTtb i x).claims = s.claims := rfl
@[simp] theorem State.setTtb_sems (s : State) (i : Nat) (x : TtbSt) : (s.setTtb i x).sems = s.sems := rfl
@[simp] theorem State.setTtb_beats (s : State) (i : Nat) (x : TtbSt) : (s.setTtb i x).beats = s.beats := rfl
@[simp] theorem State.setTtb_bases (s : State) (i : Nat) (x : TtbSt) : (s.setTtb i x).bases = s.bases := rfl
@[simp] theorem State.setTtb_pdWrites (s : State) (i : Nat) (x : TtbSt) : (s.setTtb i x).pdWrites = s.pdWrites := rfl
@[simp] theorem State.setTtb_held (s : State) (i : Nat) (x : TtbSt) : (s.setTtb i x).held = s.held := rfl
@[simp] theorem State.setTtb_resets (s : State) (i : Nat) (x : TtbSt) : (s.setTtb i x).resets = s.resets := rfl
@[simp] theorem State.setTtb_servo (s : State) (i : Nat) (x : TtbSt) : (s.setTtb i x).servo = s.servo := rfl
@[simp] theorem State.setTtb_tlb (s : State) (i : Nat) (x : TtbSt) : (s.setTtb i x).tlb = s.tlb := rfl
@[simp] theorem State.setTtb_flw (s : State) (i : Nat) (x : TtbSt) : (s.setTtb i x).flw = s.flw := rfl
@[simp] theorem State.setTtb_ttbLog (s : State) (i : Nat) (x : TtbSt) : (s.setTtb i x).ttbLog = s.ttbLog := rfl
@[simp] theorem State.setTtb_fab (s : State) (i : Nat) (x : TtbSt) : (s.setTtb i x).fab = s.fab := rfl
@[simp] theorem State.setTtb_brs (s : State) (i : Nat) (x : TtbSt) : (s.setTtb i x).brs = s.brs := rfl
@[simp] theorem State.setTtb_tgt (s : State) (i : Nat) (x : TtbSt) : (s.setTtb i x).tgt = s.tgt := rfl
@[simp] theorem State.setTtb_poll (s : State) (i : Nat) (x : TtbSt) : (s.setTtb i x).poll = s.poll := rfl
@[simp] theorem State.setTtb_dmas (s : State) (i : Nat) (x : TtbSt) : (s.setTtb i x).dmas = s.dmas := rfl
@[simp] theorem State.setTtb_barriers (s : State) (i : Nat) (x : TtbSt) : (s.setTtb i x).barriers = s.barriers := rfl
@[simp] theorem State.setTtb_balls (s : State) (i : Nat) (x : TtbSt) : (s.setTtb i x).balls = s.balls := rfl
@[simp] theorem State.setTtb_fqs (s : State) (i : Nat) (x : TtbSt) : (s.setTtb i x).fqs = s.fqs := rfl
@[simp] theorem State.setTtb_units (s : State) (i : Nat) (x : TtbSt) : (s.setTtb i x).units = s.units := rfl
@[simp] theorem State.setTtb_cans (s : State) (i : Nat) (x : TtbSt) : (s.setTtb i x).cans = s.cans := rfl
@[simp] theorem State.setTtb_clvs (s : State) (i : Nat) (x : TtbSt) : (s.setTtb i x).clvs = s.clvs := rfl
@[simp] theorem State.setTtb_pmem (s : State) (i : Nat) (x : TtbSt) : (s.setTtb i x).pmem = s.pmem := rfl
@[simp] theorem State.setTtb_macs (s : State) (i : Nat) (x : TtbSt) : (s.setTtb i x).macs = s.macs := rfl
@[simp] theorem State.setTtb_pd (s : State) (i : Nat) (x : TtbSt) : (s.setTtb i x).pd = s.pd := rfl
@[simp] theorem State.setTtb_pwr (s : State) (i : Nat) (x : TtbSt) : (s.setTtb i x).pwr = s.pwr := rfl
@[simp] theorem State.setTtb_rst (s : State) (i : Nat) (x : TtbSt) : (s.setTtb i x).rst = s.rst := rfl
@[simp] theorem State.setTtb_boot (s : State) (i : Nat) (x : TtbSt) : (s.setTtb i x).boot = s.boot := rfl
@[simp] theorem State.setTtb_tap (s : State) (i : Nat) (x : TtbSt) : (s.setTtb i x).tap = s.tap := rfl
@[simp] theorem State.setTtb_keys (s : State) (i : Nat) (x : TtbSt) : (s.setTtb i x).keys = s.keys := rfl
@[simp] theorem State.setTtb_kmgr (s : State) (i : Nat) (x : TtbSt) : (s.setTtb i x).kmgr = s.kmgr := rfl
@[simp] theorem State.setTtb_ciph (s : State) (i : Nat) (x : TtbSt) : (s.setTtb i x).ciph = s.ciph := rfl
@[simp] theorem State.setTtb_pace (s : State) (i : Nat) (x : TtbSt) : (s.setTtb i x).pace = s.pace := rfl
@[simp] theorem State.setTtb_ledg (s : State) (i : Nat) (x : TtbSt) : (s.setTtb i x).ledg = s.ledg := rfl
@[simp] theorem State.setTtb_raises (s : State) (i : Nat) (x : TtbSt) : (s.setTtb i x).raises = s.raises := rfl
@[simp] theorem State.setTtb_level5 (s : State) (i : Nat) (x : TtbSt) : (s.setTtb i x).level5 = s.level5 := rfl

@[simp] theorem State.setBr_regs (s : State) (i : Nat) (x : BrSt) : (s.setBr i x).regs = s.regs := rfl
@[simp] theorem State.setBr_mem (s : State) (i : Nat) (x : BrSt) : (s.setBr i x).mem = s.mem := rfl
@[simp] theorem State.setBr_ttm (s : State) (i : Nat) (x : BrSt) : (s.setBr i x).ttm = s.ttm := rfl
@[simp] theorem State.setBr_sramBad (s : State) (i : Nat) (x : BrSt) : (s.setBr i x).sramBad = s.sramBad := rfl
@[simp] theorem State.setBr_pending (s : State) (i : Nat) (x : BrSt) : (s.setBr i x).pending = s.pending := rfl
@[simp] theorem State.setBr_out (s : State) (i : Nat) (x : BrSt) : (s.setBr i x).out = s.out := rfl
@[simp] theorem State.setBr_free (s : State) (i : Nat) (x : BrSt) : (s.setBr i x).free = s.free := rfl
@[simp] theorem State.setBr_slot (s : State) (i : Nat) (x : BrSt) : (s.setBr i x).slot = s.slot := rfl
@[simp] theorem State.setBr_slotPhase (s : State) (i : Nat) (x : BrSt) : (s.setBr i x).slotPhase = s.slotPhase := rfl
@[simp] theorem State.setBr_ports (s : State) (i : Nat) (x : BrSt) : (s.setBr i x).ports = s.ports := rfl
@[simp] theorem State.setBr_rcs (s : State) (i : Nat) (x : BrSt) : (s.setBr i x).rcs = s.rcs := rfl
@[simp] theorem State.setBr_claims (s : State) (i : Nat) (x : BrSt) : (s.setBr i x).claims = s.claims := rfl
@[simp] theorem State.setBr_sems (s : State) (i : Nat) (x : BrSt) : (s.setBr i x).sems = s.sems := rfl
@[simp] theorem State.setBr_beats (s : State) (i : Nat) (x : BrSt) : (s.setBr i x).beats = s.beats := rfl
@[simp] theorem State.setBr_bases (s : State) (i : Nat) (x : BrSt) : (s.setBr i x).bases = s.bases := rfl
@[simp] theorem State.setBr_pdWrites (s : State) (i : Nat) (x : BrSt) : (s.setBr i x).pdWrites = s.pdWrites := rfl
@[simp] theorem State.setBr_held (s : State) (i : Nat) (x : BrSt) : (s.setBr i x).held = s.held := rfl
@[simp] theorem State.setBr_resets (s : State) (i : Nat) (x : BrSt) : (s.setBr i x).resets = s.resets := rfl
@[simp] theorem State.setBr_servo (s : State) (i : Nat) (x : BrSt) : (s.setBr i x).servo = s.servo := rfl
@[simp] theorem State.setBr_tlb (s : State) (i : Nat) (x : BrSt) : (s.setBr i x).tlb = s.tlb := rfl
@[simp] theorem State.setBr_flw (s : State) (i : Nat) (x : BrSt) : (s.setBr i x).flw = s.flw := rfl
@[simp] theorem State.setBr_ttbs (s : State) (i : Nat) (x : BrSt) : (s.setBr i x).ttbs = s.ttbs := rfl
@[simp] theorem State.setBr_ttbLog (s : State) (i : Nat) (x : BrSt) : (s.setBr i x).ttbLog = s.ttbLog := rfl
@[simp] theorem State.setBr_fab (s : State) (i : Nat) (x : BrSt) : (s.setBr i x).fab = s.fab := rfl
@[simp] theorem State.setBr_tgt (s : State) (i : Nat) (x : BrSt) : (s.setBr i x).tgt = s.tgt := rfl
@[simp] theorem State.setBr_poll (s : State) (i : Nat) (x : BrSt) : (s.setBr i x).poll = s.poll := rfl
@[simp] theorem State.setBr_dmas (s : State) (i : Nat) (x : BrSt) : (s.setBr i x).dmas = s.dmas := rfl
@[simp] theorem State.setBr_barriers (s : State) (i : Nat) (x : BrSt) : (s.setBr i x).barriers = s.barriers := rfl
@[simp] theorem State.setBr_balls (s : State) (i : Nat) (x : BrSt) : (s.setBr i x).balls = s.balls := rfl
@[simp] theorem State.setBr_fqs (s : State) (i : Nat) (x : BrSt) : (s.setBr i x).fqs = s.fqs := rfl
@[simp] theorem State.setBr_units (s : State) (i : Nat) (x : BrSt) : (s.setBr i x).units = s.units := rfl
@[simp] theorem State.setBr_cans (s : State) (i : Nat) (x : BrSt) : (s.setBr i x).cans = s.cans := rfl
@[simp] theorem State.setBr_clvs (s : State) (i : Nat) (x : BrSt) : (s.setBr i x).clvs = s.clvs := rfl
@[simp] theorem State.setBr_pmem (s : State) (i : Nat) (x : BrSt) : (s.setBr i x).pmem = s.pmem := rfl
@[simp] theorem State.setBr_macs (s : State) (i : Nat) (x : BrSt) : (s.setBr i x).macs = s.macs := rfl
@[simp] theorem State.setBr_pd (s : State) (i : Nat) (x : BrSt) : (s.setBr i x).pd = s.pd := rfl
@[simp] theorem State.setBr_pwr (s : State) (i : Nat) (x : BrSt) : (s.setBr i x).pwr = s.pwr := rfl
@[simp] theorem State.setBr_rst (s : State) (i : Nat) (x : BrSt) : (s.setBr i x).rst = s.rst := rfl
@[simp] theorem State.setBr_boot (s : State) (i : Nat) (x : BrSt) : (s.setBr i x).boot = s.boot := rfl
@[simp] theorem State.setBr_tap (s : State) (i : Nat) (x : BrSt) : (s.setBr i x).tap = s.tap := rfl
@[simp] theorem State.setBr_keys (s : State) (i : Nat) (x : BrSt) : (s.setBr i x).keys = s.keys := rfl
@[simp] theorem State.setBr_kmgr (s : State) (i : Nat) (x : BrSt) : (s.setBr i x).kmgr = s.kmgr := rfl
@[simp] theorem State.setBr_ciph (s : State) (i : Nat) (x : BrSt) : (s.setBr i x).ciph = s.ciph := rfl
@[simp] theorem State.setBr_pace (s : State) (i : Nat) (x : BrSt) : (s.setBr i x).pace = s.pace := rfl
@[simp] theorem State.setBr_ledg (s : State) (i : Nat) (x : BrSt) : (s.setBr i x).ledg = s.ledg := rfl
@[simp] theorem State.setBr_raises (s : State) (i : Nat) (x : BrSt) : (s.setBr i x).raises = s.raises := rfl
@[simp] theorem State.setBr_level5 (s : State) (i : Nat) (x : BrSt) : (s.setBr i x).level5 = s.level5 := rfl

@[simp] theorem State.setDma_regs (s : State) (i : Nat) (x : DmaSt) : (s.setDma i x).regs = s.regs := rfl
@[simp] theorem State.setDma_mem (s : State) (i : Nat) (x : DmaSt) : (s.setDma i x).mem = s.mem := rfl
@[simp] theorem State.setDma_ttm (s : State) (i : Nat) (x : DmaSt) : (s.setDma i x).ttm = s.ttm := rfl
@[simp] theorem State.setDma_sramBad (s : State) (i : Nat) (x : DmaSt) : (s.setDma i x).sramBad = s.sramBad := rfl
@[simp] theorem State.setDma_pending (s : State) (i : Nat) (x : DmaSt) : (s.setDma i x).pending = s.pending := rfl
@[simp] theorem State.setDma_out (s : State) (i : Nat) (x : DmaSt) : (s.setDma i x).out = s.out := rfl
@[simp] theorem State.setDma_free (s : State) (i : Nat) (x : DmaSt) : (s.setDma i x).free = s.free := rfl
@[simp] theorem State.setDma_slot (s : State) (i : Nat) (x : DmaSt) : (s.setDma i x).slot = s.slot := rfl
@[simp] theorem State.setDma_slotPhase (s : State) (i : Nat) (x : DmaSt) : (s.setDma i x).slotPhase = s.slotPhase := rfl
@[simp] theorem State.setDma_ports (s : State) (i : Nat) (x : DmaSt) : (s.setDma i x).ports = s.ports := rfl
@[simp] theorem State.setDma_rcs (s : State) (i : Nat) (x : DmaSt) : (s.setDma i x).rcs = s.rcs := rfl
@[simp] theorem State.setDma_claims (s : State) (i : Nat) (x : DmaSt) : (s.setDma i x).claims = s.claims := rfl
@[simp] theorem State.setDma_sems (s : State) (i : Nat) (x : DmaSt) : (s.setDma i x).sems = s.sems := rfl
@[simp] theorem State.setDma_beats (s : State) (i : Nat) (x : DmaSt) : (s.setDma i x).beats = s.beats := rfl
@[simp] theorem State.setDma_bases (s : State) (i : Nat) (x : DmaSt) : (s.setDma i x).bases = s.bases := rfl
@[simp] theorem State.setDma_pdWrites (s : State) (i : Nat) (x : DmaSt) : (s.setDma i x).pdWrites = s.pdWrites := rfl
@[simp] theorem State.setDma_held (s : State) (i : Nat) (x : DmaSt) : (s.setDma i x).held = s.held := rfl
@[simp] theorem State.setDma_resets (s : State) (i : Nat) (x : DmaSt) : (s.setDma i x).resets = s.resets := rfl
@[simp] theorem State.setDma_servo (s : State) (i : Nat) (x : DmaSt) : (s.setDma i x).servo = s.servo := rfl
@[simp] theorem State.setDma_tlb (s : State) (i : Nat) (x : DmaSt) : (s.setDma i x).tlb = s.tlb := rfl
@[simp] theorem State.setDma_flw (s : State) (i : Nat) (x : DmaSt) : (s.setDma i x).flw = s.flw := rfl
@[simp] theorem State.setDma_ttbs (s : State) (i : Nat) (x : DmaSt) : (s.setDma i x).ttbs = s.ttbs := rfl
@[simp] theorem State.setDma_ttbLog (s : State) (i : Nat) (x : DmaSt) : (s.setDma i x).ttbLog = s.ttbLog := rfl
@[simp] theorem State.setDma_fab (s : State) (i : Nat) (x : DmaSt) : (s.setDma i x).fab = s.fab := rfl
@[simp] theorem State.setDma_brs (s : State) (i : Nat) (x : DmaSt) : (s.setDma i x).brs = s.brs := rfl
@[simp] theorem State.setDma_tgt (s : State) (i : Nat) (x : DmaSt) : (s.setDma i x).tgt = s.tgt := rfl
@[simp] theorem State.setDma_poll (s : State) (i : Nat) (x : DmaSt) : (s.setDma i x).poll = s.poll := rfl
@[simp] theorem State.setDma_barriers (s : State) (i : Nat) (x : DmaSt) : (s.setDma i x).barriers = s.barriers := rfl
@[simp] theorem State.setDma_balls (s : State) (i : Nat) (x : DmaSt) : (s.setDma i x).balls = s.balls := rfl
@[simp] theorem State.setDma_fqs (s : State) (i : Nat) (x : DmaSt) : (s.setDma i x).fqs = s.fqs := rfl
@[simp] theorem State.setDma_units (s : State) (i : Nat) (x : DmaSt) : (s.setDma i x).units = s.units := rfl
@[simp] theorem State.setDma_cans (s : State) (i : Nat) (x : DmaSt) : (s.setDma i x).cans = s.cans := rfl
@[simp] theorem State.setDma_clvs (s : State) (i : Nat) (x : DmaSt) : (s.setDma i x).clvs = s.clvs := rfl
@[simp] theorem State.setDma_pmem (s : State) (i : Nat) (x : DmaSt) : (s.setDma i x).pmem = s.pmem := rfl
@[simp] theorem State.setDma_macs (s : State) (i : Nat) (x : DmaSt) : (s.setDma i x).macs = s.macs := rfl
@[simp] theorem State.setDma_pd (s : State) (i : Nat) (x : DmaSt) : (s.setDma i x).pd = s.pd := rfl
@[simp] theorem State.setDma_pwr (s : State) (i : Nat) (x : DmaSt) : (s.setDma i x).pwr = s.pwr := rfl
@[simp] theorem State.setDma_rst (s : State) (i : Nat) (x : DmaSt) : (s.setDma i x).rst = s.rst := rfl
@[simp] theorem State.setDma_boot (s : State) (i : Nat) (x : DmaSt) : (s.setDma i x).boot = s.boot := rfl
@[simp] theorem State.setDma_tap (s : State) (i : Nat) (x : DmaSt) : (s.setDma i x).tap = s.tap := rfl
@[simp] theorem State.setDma_keys (s : State) (i : Nat) (x : DmaSt) : (s.setDma i x).keys = s.keys := rfl
@[simp] theorem State.setDma_kmgr (s : State) (i : Nat) (x : DmaSt) : (s.setDma i x).kmgr = s.kmgr := rfl
@[simp] theorem State.setDma_ciph (s : State) (i : Nat) (x : DmaSt) : (s.setDma i x).ciph = s.ciph := rfl
@[simp] theorem State.setDma_pace (s : State) (i : Nat) (x : DmaSt) : (s.setDma i x).pace = s.pace := rfl
@[simp] theorem State.setDma_ledg (s : State) (i : Nat) (x : DmaSt) : (s.setDma i x).ledg = s.ledg := rfl
@[simp] theorem State.setDma_raises (s : State) (i : Nat) (x : DmaSt) : (s.setDma i x).raises = s.raises := rfl
@[simp] theorem State.setDma_level5 (s : State) (i : Nat) (x : DmaSt) : (s.setDma i x).level5 = s.level5 := rfl

@[simp] theorem State.setBall_regs (s : State) (c : Nat) (w : Word) : (s.setBall c w).regs = s.regs := rfl
@[simp] theorem State.setBall_mem (s : State) (c : Nat) (w : Word) : (s.setBall c w).mem = s.mem := rfl
@[simp] theorem State.setBall_ttm (s : State) (c : Nat) (w : Word) : (s.setBall c w).ttm = s.ttm := rfl
@[simp] theorem State.setBall_sramBad (s : State) (c : Nat) (w : Word) : (s.setBall c w).sramBad = s.sramBad := rfl
@[simp] theorem State.setBall_pending (s : State) (c : Nat) (w : Word) : (s.setBall c w).pending = s.pending := rfl
@[simp] theorem State.setBall_out (s : State) (c : Nat) (w : Word) : (s.setBall c w).out = s.out := rfl
@[simp] theorem State.setBall_free (s : State) (c : Nat) (w : Word) : (s.setBall c w).free = s.free := rfl
@[simp] theorem State.setBall_slot (s : State) (c : Nat) (w : Word) : (s.setBall c w).slot = s.slot := rfl
@[simp] theorem State.setBall_slotPhase (s : State) (c : Nat) (w : Word) : (s.setBall c w).slotPhase = s.slotPhase := rfl
@[simp] theorem State.setBall_ports (s : State) (c : Nat) (w : Word) : (s.setBall c w).ports = s.ports := rfl
@[simp] theorem State.setBall_rcs (s : State) (c : Nat) (w : Word) : (s.setBall c w).rcs = s.rcs := rfl
@[simp] theorem State.setBall_claims (s : State) (c : Nat) (w : Word) : (s.setBall c w).claims = s.claims := rfl
@[simp] theorem State.setBall_sems (s : State) (c : Nat) (w : Word) : (s.setBall c w).sems = s.sems := rfl
@[simp] theorem State.setBall_beats (s : State) (c : Nat) (w : Word) : (s.setBall c w).beats = s.beats := rfl
@[simp] theorem State.setBall_bases (s : State) (c : Nat) (w : Word) : (s.setBall c w).bases = s.bases := rfl
@[simp] theorem State.setBall_pdWrites (s : State) (c : Nat) (w : Word) : (s.setBall c w).pdWrites = s.pdWrites := rfl
@[simp] theorem State.setBall_held (s : State) (c : Nat) (w : Word) : (s.setBall c w).held = s.held := rfl
@[simp] theorem State.setBall_resets (s : State) (c : Nat) (w : Word) : (s.setBall c w).resets = s.resets := rfl
@[simp] theorem State.setBall_servo (s : State) (c : Nat) (w : Word) : (s.setBall c w).servo = s.servo := rfl
@[simp] theorem State.setBall_tlb (s : State) (c : Nat) (w : Word) : (s.setBall c w).tlb = s.tlb := rfl
@[simp] theorem State.setBall_flw (s : State) (c : Nat) (w : Word) : (s.setBall c w).flw = s.flw := rfl
@[simp] theorem State.setBall_ttbs (s : State) (c : Nat) (w : Word) : (s.setBall c w).ttbs = s.ttbs := rfl
@[simp] theorem State.setBall_ttbLog (s : State) (c : Nat) (w : Word) : (s.setBall c w).ttbLog = s.ttbLog := rfl
@[simp] theorem State.setBall_fab (s : State) (c : Nat) (w : Word) : (s.setBall c w).fab = s.fab := rfl
@[simp] theorem State.setBall_brs (s : State) (c : Nat) (w : Word) : (s.setBall c w).brs = s.brs := rfl
@[simp] theorem State.setBall_tgt (s : State) (c : Nat) (w : Word) : (s.setBall c w).tgt = s.tgt := rfl
@[simp] theorem State.setBall_poll (s : State) (c : Nat) (w : Word) : (s.setBall c w).poll = s.poll := rfl
@[simp] theorem State.setBall_dmas (s : State) (c : Nat) (w : Word) : (s.setBall c w).dmas = s.dmas := rfl
@[simp] theorem State.setBall_barriers (s : State) (c : Nat) (w : Word) : (s.setBall c w).barriers = s.barriers := rfl
@[simp] theorem State.setBall_fqs (s : State) (c : Nat) (w : Word) : (s.setBall c w).fqs = s.fqs := rfl
@[simp] theorem State.setBall_units (s : State) (c : Nat) (w : Word) : (s.setBall c w).units = s.units := rfl
@[simp] theorem State.setBall_cans (s : State) (c : Nat) (w : Word) : (s.setBall c w).cans = s.cans := rfl
@[simp] theorem State.setBall_clvs (s : State) (c : Nat) (w : Word) : (s.setBall c w).clvs = s.clvs := rfl
@[simp] theorem State.setBall_pmem (s : State) (c : Nat) (w : Word) : (s.setBall c w).pmem = s.pmem := rfl
@[simp] theorem State.setBall_macs (s : State) (c : Nat) (w : Word) : (s.setBall c w).macs = s.macs := rfl
@[simp] theorem State.setBall_pd (s : State) (c : Nat) (w : Word) : (s.setBall c w).pd = s.pd := rfl
@[simp] theorem State.setBall_pwr (s : State) (c : Nat) (w : Word) : (s.setBall c w).pwr = s.pwr := rfl
@[simp] theorem State.setBall_rst (s : State) (c : Nat) (w : Word) : (s.setBall c w).rst = s.rst := rfl
@[simp] theorem State.setBall_boot (s : State) (c : Nat) (w : Word) : (s.setBall c w).boot = s.boot := rfl
@[simp] theorem State.setBall_tap (s : State) (c : Nat) (w : Word) : (s.setBall c w).tap = s.tap := rfl
@[simp] theorem State.setBall_keys (s : State) (c : Nat) (w : Word) : (s.setBall c w).keys = s.keys := rfl
@[simp] theorem State.setBall_kmgr (s : State) (c : Nat) (w : Word) : (s.setBall c w).kmgr = s.kmgr := rfl
@[simp] theorem State.setBall_ciph (s : State) (c : Nat) (w : Word) : (s.setBall c w).ciph = s.ciph := rfl
@[simp] theorem State.setBall_pace (s : State) (c : Nat) (w : Word) : (s.setBall c w).pace = s.pace := rfl
@[simp] theorem State.setBall_ledg (s : State) (c : Nat) (w : Word) : (s.setBall c w).ledg = s.ledg := rfl
@[simp] theorem State.setBall_raises (s : State) (c : Nat) (w : Word) : (s.setBall c w).raises = s.raises := rfl
@[simp] theorem State.setBall_level5 (s : State) (c : Nat) (w : Word) : (s.setBall c w).level5 = s.level5 := rfl

@[simp] theorem State.setFq_regs (s : State) (c q : Nat) (x : FqSt) : (s.setFq c q x).regs = s.regs := rfl
@[simp] theorem State.setFq_mem (s : State) (c q : Nat) (x : FqSt) : (s.setFq c q x).mem = s.mem := rfl
@[simp] theorem State.setFq_ttm (s : State) (c q : Nat) (x : FqSt) : (s.setFq c q x).ttm = s.ttm := rfl
@[simp] theorem State.setFq_sramBad (s : State) (c q : Nat) (x : FqSt) : (s.setFq c q x).sramBad = s.sramBad := rfl
@[simp] theorem State.setFq_pending (s : State) (c q : Nat) (x : FqSt) : (s.setFq c q x).pending = s.pending := rfl
@[simp] theorem State.setFq_out (s : State) (c q : Nat) (x : FqSt) : (s.setFq c q x).out = s.out := rfl
@[simp] theorem State.setFq_free (s : State) (c q : Nat) (x : FqSt) : (s.setFq c q x).free = s.free := rfl
@[simp] theorem State.setFq_slot (s : State) (c q : Nat) (x : FqSt) : (s.setFq c q x).slot = s.slot := rfl
@[simp] theorem State.setFq_slotPhase (s : State) (c q : Nat) (x : FqSt) : (s.setFq c q x).slotPhase = s.slotPhase := rfl
@[simp] theorem State.setFq_ports (s : State) (c q : Nat) (x : FqSt) : (s.setFq c q x).ports = s.ports := rfl
@[simp] theorem State.setFq_rcs (s : State) (c q : Nat) (x : FqSt) : (s.setFq c q x).rcs = s.rcs := rfl
@[simp] theorem State.setFq_claims (s : State) (c q : Nat) (x : FqSt) : (s.setFq c q x).claims = s.claims := rfl
@[simp] theorem State.setFq_sems (s : State) (c q : Nat) (x : FqSt) : (s.setFq c q x).sems = s.sems := rfl
@[simp] theorem State.setFq_beats (s : State) (c q : Nat) (x : FqSt) : (s.setFq c q x).beats = s.beats := rfl
@[simp] theorem State.setFq_bases (s : State) (c q : Nat) (x : FqSt) : (s.setFq c q x).bases = s.bases := rfl
@[simp] theorem State.setFq_pdWrites (s : State) (c q : Nat) (x : FqSt) : (s.setFq c q x).pdWrites = s.pdWrites := rfl
@[simp] theorem State.setFq_held (s : State) (c q : Nat) (x : FqSt) : (s.setFq c q x).held = s.held := rfl
@[simp] theorem State.setFq_resets (s : State) (c q : Nat) (x : FqSt) : (s.setFq c q x).resets = s.resets := rfl
@[simp] theorem State.setFq_servo (s : State) (c q : Nat) (x : FqSt) : (s.setFq c q x).servo = s.servo := rfl
@[simp] theorem State.setFq_tlb (s : State) (c q : Nat) (x : FqSt) : (s.setFq c q x).tlb = s.tlb := rfl
@[simp] theorem State.setFq_flw (s : State) (c q : Nat) (x : FqSt) : (s.setFq c q x).flw = s.flw := rfl
@[simp] theorem State.setFq_ttbs (s : State) (c q : Nat) (x : FqSt) : (s.setFq c q x).ttbs = s.ttbs := rfl
@[simp] theorem State.setFq_ttbLog (s : State) (c q : Nat) (x : FqSt) : (s.setFq c q x).ttbLog = s.ttbLog := rfl
@[simp] theorem State.setFq_fab (s : State) (c q : Nat) (x : FqSt) : (s.setFq c q x).fab = s.fab := rfl
@[simp] theorem State.setFq_brs (s : State) (c q : Nat) (x : FqSt) : (s.setFq c q x).brs = s.brs := rfl
@[simp] theorem State.setFq_tgt (s : State) (c q : Nat) (x : FqSt) : (s.setFq c q x).tgt = s.tgt := rfl
@[simp] theorem State.setFq_poll (s : State) (c q : Nat) (x : FqSt) : (s.setFq c q x).poll = s.poll := rfl
@[simp] theorem State.setFq_dmas (s : State) (c q : Nat) (x : FqSt) : (s.setFq c q x).dmas = s.dmas := rfl
@[simp] theorem State.setFq_barriers (s : State) (c q : Nat) (x : FqSt) : (s.setFq c q x).barriers = s.barriers := rfl
@[simp] theorem State.setFq_balls (s : State) (c q : Nat) (x : FqSt) : (s.setFq c q x).balls = s.balls := rfl
@[simp] theorem State.setFq_units (s : State) (c q : Nat) (x : FqSt) : (s.setFq c q x).units = s.units := rfl
@[simp] theorem State.setFq_cans (s : State) (c q : Nat) (x : FqSt) : (s.setFq c q x).cans = s.cans := rfl
@[simp] theorem State.setFq_clvs (s : State) (c q : Nat) (x : FqSt) : (s.setFq c q x).clvs = s.clvs := rfl
@[simp] theorem State.setFq_pmem (s : State) (c q : Nat) (x : FqSt) : (s.setFq c q x).pmem = s.pmem := rfl
@[simp] theorem State.setFq_macs (s : State) (c q : Nat) (x : FqSt) : (s.setFq c q x).macs = s.macs := rfl
@[simp] theorem State.setFq_pd (s : State) (c q : Nat) (x : FqSt) : (s.setFq c q x).pd = s.pd := rfl
@[simp] theorem State.setFq_pwr (s : State) (c q : Nat) (x : FqSt) : (s.setFq c q x).pwr = s.pwr := rfl
@[simp] theorem State.setFq_rst (s : State) (c q : Nat) (x : FqSt) : (s.setFq c q x).rst = s.rst := rfl
@[simp] theorem State.setFq_boot (s : State) (c q : Nat) (x : FqSt) : (s.setFq c q x).boot = s.boot := rfl
@[simp] theorem State.setFq_tap (s : State) (c q : Nat) (x : FqSt) : (s.setFq c q x).tap = s.tap := rfl
@[simp] theorem State.setFq_keys (s : State) (c q : Nat) (x : FqSt) : (s.setFq c q x).keys = s.keys := rfl
@[simp] theorem State.setFq_kmgr (s : State) (c q : Nat) (x : FqSt) : (s.setFq c q x).kmgr = s.kmgr := rfl
@[simp] theorem State.setFq_ciph (s : State) (c q : Nat) (x : FqSt) : (s.setFq c q x).ciph = s.ciph := rfl
@[simp] theorem State.setFq_pace (s : State) (c q : Nat) (x : FqSt) : (s.setFq c q x).pace = s.pace := rfl
@[simp] theorem State.setFq_ledg (s : State) (c q : Nat) (x : FqSt) : (s.setFq c q x).ledg = s.ledg := rfl
@[simp] theorem State.setFq_raises (s : State) (c q : Nat) (x : FqSt) : (s.setFq c q x).raises = s.raises := rfl
@[simp] theorem State.setFq_level5 (s : State) (c q : Nat) (x : FqSt) : (s.setFq c q x).level5 = s.level5 := rfl

@[simp] theorem State.setUnit_regs (s : State) (i : Nat) (x : UnitSt) : (s.setUnit i x).regs = s.regs := rfl
@[simp] theorem State.setUnit_mem (s : State) (i : Nat) (x : UnitSt) : (s.setUnit i x).mem = s.mem := rfl
@[simp] theorem State.setUnit_ttm (s : State) (i : Nat) (x : UnitSt) : (s.setUnit i x).ttm = s.ttm := rfl
@[simp] theorem State.setUnit_sramBad (s : State) (i : Nat) (x : UnitSt) : (s.setUnit i x).sramBad = s.sramBad := rfl
@[simp] theorem State.setUnit_pending (s : State) (i : Nat) (x : UnitSt) : (s.setUnit i x).pending = s.pending := rfl
@[simp] theorem State.setUnit_out (s : State) (i : Nat) (x : UnitSt) : (s.setUnit i x).out = s.out := rfl
@[simp] theorem State.setUnit_free (s : State) (i : Nat) (x : UnitSt) : (s.setUnit i x).free = s.free := rfl
@[simp] theorem State.setUnit_slot (s : State) (i : Nat) (x : UnitSt) : (s.setUnit i x).slot = s.slot := rfl
@[simp] theorem State.setUnit_slotPhase (s : State) (i : Nat) (x : UnitSt) : (s.setUnit i x).slotPhase = s.slotPhase := rfl
@[simp] theorem State.setUnit_ports (s : State) (i : Nat) (x : UnitSt) : (s.setUnit i x).ports = s.ports := rfl
@[simp] theorem State.setUnit_rcs (s : State) (i : Nat) (x : UnitSt) : (s.setUnit i x).rcs = s.rcs := rfl
@[simp] theorem State.setUnit_claims (s : State) (i : Nat) (x : UnitSt) : (s.setUnit i x).claims = s.claims := rfl
@[simp] theorem State.setUnit_sems (s : State) (i : Nat) (x : UnitSt) : (s.setUnit i x).sems = s.sems := rfl
@[simp] theorem State.setUnit_beats (s : State) (i : Nat) (x : UnitSt) : (s.setUnit i x).beats = s.beats := rfl
@[simp] theorem State.setUnit_bases (s : State) (i : Nat) (x : UnitSt) : (s.setUnit i x).bases = s.bases := rfl
@[simp] theorem State.setUnit_pdWrites (s : State) (i : Nat) (x : UnitSt) : (s.setUnit i x).pdWrites = s.pdWrites := rfl
@[simp] theorem State.setUnit_held (s : State) (i : Nat) (x : UnitSt) : (s.setUnit i x).held = s.held := rfl
@[simp] theorem State.setUnit_resets (s : State) (i : Nat) (x : UnitSt) : (s.setUnit i x).resets = s.resets := rfl
@[simp] theorem State.setUnit_servo (s : State) (i : Nat) (x : UnitSt) : (s.setUnit i x).servo = s.servo := rfl
@[simp] theorem State.setUnit_tlb (s : State) (i : Nat) (x : UnitSt) : (s.setUnit i x).tlb = s.tlb := rfl
@[simp] theorem State.setUnit_flw (s : State) (i : Nat) (x : UnitSt) : (s.setUnit i x).flw = s.flw := rfl
@[simp] theorem State.setUnit_ttbs (s : State) (i : Nat) (x : UnitSt) : (s.setUnit i x).ttbs = s.ttbs := rfl
@[simp] theorem State.setUnit_ttbLog (s : State) (i : Nat) (x : UnitSt) : (s.setUnit i x).ttbLog = s.ttbLog := rfl
@[simp] theorem State.setUnit_fab (s : State) (i : Nat) (x : UnitSt) : (s.setUnit i x).fab = s.fab := rfl
@[simp] theorem State.setUnit_brs (s : State) (i : Nat) (x : UnitSt) : (s.setUnit i x).brs = s.brs := rfl
@[simp] theorem State.setUnit_tgt (s : State) (i : Nat) (x : UnitSt) : (s.setUnit i x).tgt = s.tgt := rfl
@[simp] theorem State.setUnit_poll (s : State) (i : Nat) (x : UnitSt) : (s.setUnit i x).poll = s.poll := rfl
@[simp] theorem State.setUnit_dmas (s : State) (i : Nat) (x : UnitSt) : (s.setUnit i x).dmas = s.dmas := rfl
@[simp] theorem State.setUnit_barriers (s : State) (i : Nat) (x : UnitSt) : (s.setUnit i x).barriers = s.barriers := rfl
@[simp] theorem State.setUnit_balls (s : State) (i : Nat) (x : UnitSt) : (s.setUnit i x).balls = s.balls := rfl
@[simp] theorem State.setUnit_fqs (s : State) (i : Nat) (x : UnitSt) : (s.setUnit i x).fqs = s.fqs := rfl
@[simp] theorem State.setUnit_cans (s : State) (i : Nat) (x : UnitSt) : (s.setUnit i x).cans = s.cans := rfl
@[simp] theorem State.setUnit_clvs (s : State) (i : Nat) (x : UnitSt) : (s.setUnit i x).clvs = s.clvs := rfl
@[simp] theorem State.setUnit_pmem (s : State) (i : Nat) (x : UnitSt) : (s.setUnit i x).pmem = s.pmem := rfl
@[simp] theorem State.setUnit_macs (s : State) (i : Nat) (x : UnitSt) : (s.setUnit i x).macs = s.macs := rfl
@[simp] theorem State.setUnit_pd (s : State) (i : Nat) (x : UnitSt) : (s.setUnit i x).pd = s.pd := rfl
@[simp] theorem State.setUnit_pwr (s : State) (i : Nat) (x : UnitSt) : (s.setUnit i x).pwr = s.pwr := rfl
@[simp] theorem State.setUnit_rst (s : State) (i : Nat) (x : UnitSt) : (s.setUnit i x).rst = s.rst := rfl
@[simp] theorem State.setUnit_boot (s : State) (i : Nat) (x : UnitSt) : (s.setUnit i x).boot = s.boot := rfl
@[simp] theorem State.setUnit_tap (s : State) (i : Nat) (x : UnitSt) : (s.setUnit i x).tap = s.tap := rfl
@[simp] theorem State.setUnit_keys (s : State) (i : Nat) (x : UnitSt) : (s.setUnit i x).keys = s.keys := rfl
@[simp] theorem State.setUnit_kmgr (s : State) (i : Nat) (x : UnitSt) : (s.setUnit i x).kmgr = s.kmgr := rfl
@[simp] theorem State.setUnit_ciph (s : State) (i : Nat) (x : UnitSt) : (s.setUnit i x).ciph = s.ciph := rfl
@[simp] theorem State.setUnit_pace (s : State) (i : Nat) (x : UnitSt) : (s.setUnit i x).pace = s.pace := rfl
@[simp] theorem State.setUnit_ledg (s : State) (i : Nat) (x : UnitSt) : (s.setUnit i x).ledg = s.ledg := rfl
@[simp] theorem State.setUnit_raises (s : State) (i : Nat) (x : UnitSt) : (s.setUnit i x).raises = s.raises := rfl
@[simp] theorem State.setUnit_level5 (s : State) (i : Nat) (x : UnitSt) : (s.setUnit i x).level5 = s.level5 := rfl

@[simp] theorem State.setCan_regs (s : State) (i : Nat) (x : CanSt) : (s.setCan i x).regs = s.regs := rfl
@[simp] theorem State.setCan_mem (s : State) (i : Nat) (x : CanSt) : (s.setCan i x).mem = s.mem := rfl
@[simp] theorem State.setCan_ttm (s : State) (i : Nat) (x : CanSt) : (s.setCan i x).ttm = s.ttm := rfl
@[simp] theorem State.setCan_sramBad (s : State) (i : Nat) (x : CanSt) : (s.setCan i x).sramBad = s.sramBad := rfl
@[simp] theorem State.setCan_pending (s : State) (i : Nat) (x : CanSt) : (s.setCan i x).pending = s.pending := rfl
@[simp] theorem State.setCan_out (s : State) (i : Nat) (x : CanSt) : (s.setCan i x).out = s.out := rfl
@[simp] theorem State.setCan_free (s : State) (i : Nat) (x : CanSt) : (s.setCan i x).free = s.free := rfl
@[simp] theorem State.setCan_slot (s : State) (i : Nat) (x : CanSt) : (s.setCan i x).slot = s.slot := rfl
@[simp] theorem State.setCan_slotPhase (s : State) (i : Nat) (x : CanSt) : (s.setCan i x).slotPhase = s.slotPhase := rfl
@[simp] theorem State.setCan_ports (s : State) (i : Nat) (x : CanSt) : (s.setCan i x).ports = s.ports := rfl
@[simp] theorem State.setCan_rcs (s : State) (i : Nat) (x : CanSt) : (s.setCan i x).rcs = s.rcs := rfl
@[simp] theorem State.setCan_claims (s : State) (i : Nat) (x : CanSt) : (s.setCan i x).claims = s.claims := rfl
@[simp] theorem State.setCan_sems (s : State) (i : Nat) (x : CanSt) : (s.setCan i x).sems = s.sems := rfl
@[simp] theorem State.setCan_beats (s : State) (i : Nat) (x : CanSt) : (s.setCan i x).beats = s.beats := rfl
@[simp] theorem State.setCan_bases (s : State) (i : Nat) (x : CanSt) : (s.setCan i x).bases = s.bases := rfl
@[simp] theorem State.setCan_pdWrites (s : State) (i : Nat) (x : CanSt) : (s.setCan i x).pdWrites = s.pdWrites := rfl
@[simp] theorem State.setCan_held (s : State) (i : Nat) (x : CanSt) : (s.setCan i x).held = s.held := rfl
@[simp] theorem State.setCan_resets (s : State) (i : Nat) (x : CanSt) : (s.setCan i x).resets = s.resets := rfl
@[simp] theorem State.setCan_servo (s : State) (i : Nat) (x : CanSt) : (s.setCan i x).servo = s.servo := rfl
@[simp] theorem State.setCan_tlb (s : State) (i : Nat) (x : CanSt) : (s.setCan i x).tlb = s.tlb := rfl
@[simp] theorem State.setCan_flw (s : State) (i : Nat) (x : CanSt) : (s.setCan i x).flw = s.flw := rfl
@[simp] theorem State.setCan_ttbs (s : State) (i : Nat) (x : CanSt) : (s.setCan i x).ttbs = s.ttbs := rfl
@[simp] theorem State.setCan_ttbLog (s : State) (i : Nat) (x : CanSt) : (s.setCan i x).ttbLog = s.ttbLog := rfl
@[simp] theorem State.setCan_fab (s : State) (i : Nat) (x : CanSt) : (s.setCan i x).fab = s.fab := rfl
@[simp] theorem State.setCan_brs (s : State) (i : Nat) (x : CanSt) : (s.setCan i x).brs = s.brs := rfl
@[simp] theorem State.setCan_tgt (s : State) (i : Nat) (x : CanSt) : (s.setCan i x).tgt = s.tgt := rfl
@[simp] theorem State.setCan_poll (s : State) (i : Nat) (x : CanSt) : (s.setCan i x).poll = s.poll := rfl
@[simp] theorem State.setCan_dmas (s : State) (i : Nat) (x : CanSt) : (s.setCan i x).dmas = s.dmas := rfl
@[simp] theorem State.setCan_barriers (s : State) (i : Nat) (x : CanSt) : (s.setCan i x).barriers = s.barriers := rfl
@[simp] theorem State.setCan_balls (s : State) (i : Nat) (x : CanSt) : (s.setCan i x).balls = s.balls := rfl
@[simp] theorem State.setCan_fqs (s : State) (i : Nat) (x : CanSt) : (s.setCan i x).fqs = s.fqs := rfl
@[simp] theorem State.setCan_units (s : State) (i : Nat) (x : CanSt) : (s.setCan i x).units = s.units := rfl
@[simp] theorem State.setCan_clvs (s : State) (i : Nat) (x : CanSt) : (s.setCan i x).clvs = s.clvs := rfl
@[simp] theorem State.setCan_pmem (s : State) (i : Nat) (x : CanSt) : (s.setCan i x).pmem = s.pmem := rfl
@[simp] theorem State.setCan_macs (s : State) (i : Nat) (x : CanSt) : (s.setCan i x).macs = s.macs := rfl
@[simp] theorem State.setCan_pd (s : State) (i : Nat) (x : CanSt) : (s.setCan i x).pd = s.pd := rfl
@[simp] theorem State.setCan_pwr (s : State) (i : Nat) (x : CanSt) : (s.setCan i x).pwr = s.pwr := rfl
@[simp] theorem State.setCan_rst (s : State) (i : Nat) (x : CanSt) : (s.setCan i x).rst = s.rst := rfl
@[simp] theorem State.setCan_boot (s : State) (i : Nat) (x : CanSt) : (s.setCan i x).boot = s.boot := rfl
@[simp] theorem State.setCan_tap (s : State) (i : Nat) (x : CanSt) : (s.setCan i x).tap = s.tap := rfl
@[simp] theorem State.setCan_keys (s : State) (i : Nat) (x : CanSt) : (s.setCan i x).keys = s.keys := rfl
@[simp] theorem State.setCan_kmgr (s : State) (i : Nat) (x : CanSt) : (s.setCan i x).kmgr = s.kmgr := rfl
@[simp] theorem State.setCan_ciph (s : State) (i : Nat) (x : CanSt) : (s.setCan i x).ciph = s.ciph := rfl
@[simp] theorem State.setCan_pace (s : State) (i : Nat) (x : CanSt) : (s.setCan i x).pace = s.pace := rfl
@[simp] theorem State.setCan_ledg (s : State) (i : Nat) (x : CanSt) : (s.setCan i x).ledg = s.ledg := rfl
@[simp] theorem State.setCan_raises (s : State) (i : Nat) (x : CanSt) : (s.setCan i x).raises = s.raises := rfl
@[simp] theorem State.setCan_level5 (s : State) (i : Nat) (x : CanSt) : (s.setCan i x).level5 = s.level5 := rfl

@[simp] theorem State.setClv_regs (s : State) (e k : Nat) (x : ClovCh) : (s.setClv e k x).regs = s.regs := rfl
@[simp] theorem State.setClv_mem (s : State) (e k : Nat) (x : ClovCh) : (s.setClv e k x).mem = s.mem := rfl
@[simp] theorem State.setClv_ttm (s : State) (e k : Nat) (x : ClovCh) : (s.setClv e k x).ttm = s.ttm := rfl
@[simp] theorem State.setClv_sramBad (s : State) (e k : Nat) (x : ClovCh) : (s.setClv e k x).sramBad = s.sramBad := rfl
@[simp] theorem State.setClv_pending (s : State) (e k : Nat) (x : ClovCh) : (s.setClv e k x).pending = s.pending := rfl
@[simp] theorem State.setClv_out (s : State) (e k : Nat) (x : ClovCh) : (s.setClv e k x).out = s.out := rfl
@[simp] theorem State.setClv_free (s : State) (e k : Nat) (x : ClovCh) : (s.setClv e k x).free = s.free := rfl
@[simp] theorem State.setClv_slot (s : State) (e k : Nat) (x : ClovCh) : (s.setClv e k x).slot = s.slot := rfl
@[simp] theorem State.setClv_slotPhase (s : State) (e k : Nat) (x : ClovCh) : (s.setClv e k x).slotPhase = s.slotPhase := rfl
@[simp] theorem State.setClv_ports (s : State) (e k : Nat) (x : ClovCh) : (s.setClv e k x).ports = s.ports := rfl
@[simp] theorem State.setClv_rcs (s : State) (e k : Nat) (x : ClovCh) : (s.setClv e k x).rcs = s.rcs := rfl
@[simp] theorem State.setClv_claims (s : State) (e k : Nat) (x : ClovCh) : (s.setClv e k x).claims = s.claims := rfl
@[simp] theorem State.setClv_sems (s : State) (e k : Nat) (x : ClovCh) : (s.setClv e k x).sems = s.sems := rfl
@[simp] theorem State.setClv_beats (s : State) (e k : Nat) (x : ClovCh) : (s.setClv e k x).beats = s.beats := rfl
@[simp] theorem State.setClv_bases (s : State) (e k : Nat) (x : ClovCh) : (s.setClv e k x).bases = s.bases := rfl
@[simp] theorem State.setClv_pdWrites (s : State) (e k : Nat) (x : ClovCh) : (s.setClv e k x).pdWrites = s.pdWrites := rfl
@[simp] theorem State.setClv_held (s : State) (e k : Nat) (x : ClovCh) : (s.setClv e k x).held = s.held := rfl
@[simp] theorem State.setClv_resets (s : State) (e k : Nat) (x : ClovCh) : (s.setClv e k x).resets = s.resets := rfl
@[simp] theorem State.setClv_servo (s : State) (e k : Nat) (x : ClovCh) : (s.setClv e k x).servo = s.servo := rfl
@[simp] theorem State.setClv_tlb (s : State) (e k : Nat) (x : ClovCh) : (s.setClv e k x).tlb = s.tlb := rfl
@[simp] theorem State.setClv_flw (s : State) (e k : Nat) (x : ClovCh) : (s.setClv e k x).flw = s.flw := rfl
@[simp] theorem State.setClv_ttbs (s : State) (e k : Nat) (x : ClovCh) : (s.setClv e k x).ttbs = s.ttbs := rfl
@[simp] theorem State.setClv_ttbLog (s : State) (e k : Nat) (x : ClovCh) : (s.setClv e k x).ttbLog = s.ttbLog := rfl
@[simp] theorem State.setClv_fab (s : State) (e k : Nat) (x : ClovCh) : (s.setClv e k x).fab = s.fab := rfl
@[simp] theorem State.setClv_brs (s : State) (e k : Nat) (x : ClovCh) : (s.setClv e k x).brs = s.brs := rfl
@[simp] theorem State.setClv_tgt (s : State) (e k : Nat) (x : ClovCh) : (s.setClv e k x).tgt = s.tgt := rfl
@[simp] theorem State.setClv_poll (s : State) (e k : Nat) (x : ClovCh) : (s.setClv e k x).poll = s.poll := rfl
@[simp] theorem State.setClv_dmas (s : State) (e k : Nat) (x : ClovCh) : (s.setClv e k x).dmas = s.dmas := rfl
@[simp] theorem State.setClv_barriers (s : State) (e k : Nat) (x : ClovCh) : (s.setClv e k x).barriers = s.barriers := rfl
@[simp] theorem State.setClv_balls (s : State) (e k : Nat) (x : ClovCh) : (s.setClv e k x).balls = s.balls := rfl
@[simp] theorem State.setClv_fqs (s : State) (e k : Nat) (x : ClovCh) : (s.setClv e k x).fqs = s.fqs := rfl
@[simp] theorem State.setClv_units (s : State) (e k : Nat) (x : ClovCh) : (s.setClv e k x).units = s.units := rfl
@[simp] theorem State.setClv_cans (s : State) (e k : Nat) (x : ClovCh) : (s.setClv e k x).cans = s.cans := rfl
@[simp] theorem State.setClv_pmem (s : State) (e k : Nat) (x : ClovCh) : (s.setClv e k x).pmem = s.pmem := rfl
@[simp] theorem State.setClv_macs (s : State) (e k : Nat) (x : ClovCh) : (s.setClv e k x).macs = s.macs := rfl
@[simp] theorem State.setClv_pd (s : State) (e k : Nat) (x : ClovCh) : (s.setClv e k x).pd = s.pd := rfl
@[simp] theorem State.setClv_pwr (s : State) (e k : Nat) (x : ClovCh) : (s.setClv e k x).pwr = s.pwr := rfl
@[simp] theorem State.setClv_rst (s : State) (e k : Nat) (x : ClovCh) : (s.setClv e k x).rst = s.rst := rfl
@[simp] theorem State.setClv_boot (s : State) (e k : Nat) (x : ClovCh) : (s.setClv e k x).boot = s.boot := rfl
@[simp] theorem State.setClv_tap (s : State) (e k : Nat) (x : ClovCh) : (s.setClv e k x).tap = s.tap := rfl
@[simp] theorem State.setClv_keys (s : State) (e k : Nat) (x : ClovCh) : (s.setClv e k x).keys = s.keys := rfl
@[simp] theorem State.setClv_kmgr (s : State) (e k : Nat) (x : ClovCh) : (s.setClv e k x).kmgr = s.kmgr := rfl
@[simp] theorem State.setClv_ciph (s : State) (e k : Nat) (x : ClovCh) : (s.setClv e k x).ciph = s.ciph := rfl
@[simp] theorem State.setClv_pace (s : State) (e k : Nat) (x : ClovCh) : (s.setClv e k x).pace = s.pace := rfl
@[simp] theorem State.setClv_ledg (s : State) (e k : Nat) (x : ClovCh) : (s.setClv e k x).ledg = s.ledg := rfl
@[simp] theorem State.setClv_raises (s : State) (e k : Nat) (x : ClovCh) : (s.setClv e k x).raises = s.raises := rfl
@[simp] theorem State.setClv_level5 (s : State) (e k : Nat) (x : ClovCh) : (s.setClv e k x).level5 = s.level5 := rfl

@[simp] theorem State.setProg_regs (s : State) (e b a : Nat) (w : Word) : (s.setProg e b a w).regs = s.regs := rfl
@[simp] theorem State.setProg_mem (s : State) (e b a : Nat) (w : Word) : (s.setProg e b a w).mem = s.mem := rfl
@[simp] theorem State.setProg_ttm (s : State) (e b a : Nat) (w : Word) : (s.setProg e b a w).ttm = s.ttm := rfl
@[simp] theorem State.setProg_sramBad (s : State) (e b a : Nat) (w : Word) : (s.setProg e b a w).sramBad = s.sramBad := rfl
@[simp] theorem State.setProg_pending (s : State) (e b a : Nat) (w : Word) : (s.setProg e b a w).pending = s.pending := rfl
@[simp] theorem State.setProg_out (s : State) (e b a : Nat) (w : Word) : (s.setProg e b a w).out = s.out := rfl
@[simp] theorem State.setProg_free (s : State) (e b a : Nat) (w : Word) : (s.setProg e b a w).free = s.free := rfl
@[simp] theorem State.setProg_slot (s : State) (e b a : Nat) (w : Word) : (s.setProg e b a w).slot = s.slot := rfl
@[simp] theorem State.setProg_slotPhase (s : State) (e b a : Nat) (w : Word) : (s.setProg e b a w).slotPhase = s.slotPhase := rfl
@[simp] theorem State.setProg_ports (s : State) (e b a : Nat) (w : Word) : (s.setProg e b a w).ports = s.ports := rfl
@[simp] theorem State.setProg_rcs (s : State) (e b a : Nat) (w : Word) : (s.setProg e b a w).rcs = s.rcs := rfl
@[simp] theorem State.setProg_claims (s : State) (e b a : Nat) (w : Word) : (s.setProg e b a w).claims = s.claims := rfl
@[simp] theorem State.setProg_sems (s : State) (e b a : Nat) (w : Word) : (s.setProg e b a w).sems = s.sems := rfl
@[simp] theorem State.setProg_beats (s : State) (e b a : Nat) (w : Word) : (s.setProg e b a w).beats = s.beats := rfl
@[simp] theorem State.setProg_bases (s : State) (e b a : Nat) (w : Word) : (s.setProg e b a w).bases = s.bases := rfl
@[simp] theorem State.setProg_pdWrites (s : State) (e b a : Nat) (w : Word) : (s.setProg e b a w).pdWrites = s.pdWrites := rfl
@[simp] theorem State.setProg_held (s : State) (e b a : Nat) (w : Word) : (s.setProg e b a w).held = s.held := rfl
@[simp] theorem State.setProg_resets (s : State) (e b a : Nat) (w : Word) : (s.setProg e b a w).resets = s.resets := rfl
@[simp] theorem State.setProg_servo (s : State) (e b a : Nat) (w : Word) : (s.setProg e b a w).servo = s.servo := rfl
@[simp] theorem State.setProg_tlb (s : State) (e b a : Nat) (w : Word) : (s.setProg e b a w).tlb = s.tlb := rfl
@[simp] theorem State.setProg_flw (s : State) (e b a : Nat) (w : Word) : (s.setProg e b a w).flw = s.flw := rfl
@[simp] theorem State.setProg_ttbs (s : State) (e b a : Nat) (w : Word) : (s.setProg e b a w).ttbs = s.ttbs := rfl
@[simp] theorem State.setProg_ttbLog (s : State) (e b a : Nat) (w : Word) : (s.setProg e b a w).ttbLog = s.ttbLog := rfl
@[simp] theorem State.setProg_fab (s : State) (e b a : Nat) (w : Word) : (s.setProg e b a w).fab = s.fab := rfl
@[simp] theorem State.setProg_brs (s : State) (e b a : Nat) (w : Word) : (s.setProg e b a w).brs = s.brs := rfl
@[simp] theorem State.setProg_tgt (s : State) (e b a : Nat) (w : Word) : (s.setProg e b a w).tgt = s.tgt := rfl
@[simp] theorem State.setProg_poll (s : State) (e b a : Nat) (w : Word) : (s.setProg e b a w).poll = s.poll := rfl
@[simp] theorem State.setProg_dmas (s : State) (e b a : Nat) (w : Word) : (s.setProg e b a w).dmas = s.dmas := rfl
@[simp] theorem State.setProg_barriers (s : State) (e b a : Nat) (w : Word) : (s.setProg e b a w).barriers = s.barriers := rfl
@[simp] theorem State.setProg_balls (s : State) (e b a : Nat) (w : Word) : (s.setProg e b a w).balls = s.balls := rfl
@[simp] theorem State.setProg_fqs (s : State) (e b a : Nat) (w : Word) : (s.setProg e b a w).fqs = s.fqs := rfl
@[simp] theorem State.setProg_units (s : State) (e b a : Nat) (w : Word) : (s.setProg e b a w).units = s.units := rfl
@[simp] theorem State.setProg_cans (s : State) (e b a : Nat) (w : Word) : (s.setProg e b a w).cans = s.cans := rfl
@[simp] theorem State.setProg_clvs (s : State) (e b a : Nat) (w : Word) : (s.setProg e b a w).clvs = s.clvs := rfl
@[simp] theorem State.setProg_macs (s : State) (e b a : Nat) (w : Word) : (s.setProg e b a w).macs = s.macs := rfl
@[simp] theorem State.setProg_pd (s : State) (e b a : Nat) (w : Word) : (s.setProg e b a w).pd = s.pd := rfl
@[simp] theorem State.setProg_pwr (s : State) (e b a : Nat) (w : Word) : (s.setProg e b a w).pwr = s.pwr := rfl
@[simp] theorem State.setProg_rst (s : State) (e b a : Nat) (w : Word) : (s.setProg e b a w).rst = s.rst := rfl
@[simp] theorem State.setProg_boot (s : State) (e b a : Nat) (w : Word) : (s.setProg e b a w).boot = s.boot := rfl
@[simp] theorem State.setProg_tap (s : State) (e b a : Nat) (w : Word) : (s.setProg e b a w).tap = s.tap := rfl
@[simp] theorem State.setProg_keys (s : State) (e b a : Nat) (w : Word) : (s.setProg e b a w).keys = s.keys := rfl
@[simp] theorem State.setProg_kmgr (s : State) (e b a : Nat) (w : Word) : (s.setProg e b a w).kmgr = s.kmgr := rfl
@[simp] theorem State.setProg_ciph (s : State) (e b a : Nat) (w : Word) : (s.setProg e b a w).ciph = s.ciph := rfl
@[simp] theorem State.setProg_pace (s : State) (e b a : Nat) (w : Word) : (s.setProg e b a w).pace = s.pace := rfl
@[simp] theorem State.setProg_ledg (s : State) (e b a : Nat) (w : Word) : (s.setProg e b a w).ledg = s.ledg := rfl
@[simp] theorem State.setProg_raises (s : State) (e b a : Nat) (w : Word) : (s.setProg e b a w).raises = s.raises := rfl
@[simp] theorem State.setProg_level5 (s : State) (e b a : Nat) (w : Word) : (s.setProg e b a w).level5 = s.level5 := rfl

@[simp] theorem State.setMac_regs (s : State) (i : Nat) (x : MacSt) : (s.setMac i x).regs = s.regs := rfl
@[simp] theorem State.setMac_mem (s : State) (i : Nat) (x : MacSt) : (s.setMac i x).mem = s.mem := rfl
@[simp] theorem State.setMac_ttm (s : State) (i : Nat) (x : MacSt) : (s.setMac i x).ttm = s.ttm := rfl
@[simp] theorem State.setMac_sramBad (s : State) (i : Nat) (x : MacSt) : (s.setMac i x).sramBad = s.sramBad := rfl
@[simp] theorem State.setMac_pending (s : State) (i : Nat) (x : MacSt) : (s.setMac i x).pending = s.pending := rfl
@[simp] theorem State.setMac_out (s : State) (i : Nat) (x : MacSt) : (s.setMac i x).out = s.out := rfl
@[simp] theorem State.setMac_free (s : State) (i : Nat) (x : MacSt) : (s.setMac i x).free = s.free := rfl
@[simp] theorem State.setMac_slot (s : State) (i : Nat) (x : MacSt) : (s.setMac i x).slot = s.slot := rfl
@[simp] theorem State.setMac_slotPhase (s : State) (i : Nat) (x : MacSt) : (s.setMac i x).slotPhase = s.slotPhase := rfl
@[simp] theorem State.setMac_ports (s : State) (i : Nat) (x : MacSt) : (s.setMac i x).ports = s.ports := rfl
@[simp] theorem State.setMac_rcs (s : State) (i : Nat) (x : MacSt) : (s.setMac i x).rcs = s.rcs := rfl
@[simp] theorem State.setMac_claims (s : State) (i : Nat) (x : MacSt) : (s.setMac i x).claims = s.claims := rfl
@[simp] theorem State.setMac_sems (s : State) (i : Nat) (x : MacSt) : (s.setMac i x).sems = s.sems := rfl
@[simp] theorem State.setMac_beats (s : State) (i : Nat) (x : MacSt) : (s.setMac i x).beats = s.beats := rfl
@[simp] theorem State.setMac_bases (s : State) (i : Nat) (x : MacSt) : (s.setMac i x).bases = s.bases := rfl
@[simp] theorem State.setMac_pdWrites (s : State) (i : Nat) (x : MacSt) : (s.setMac i x).pdWrites = s.pdWrites := rfl
@[simp] theorem State.setMac_held (s : State) (i : Nat) (x : MacSt) : (s.setMac i x).held = s.held := rfl
@[simp] theorem State.setMac_resets (s : State) (i : Nat) (x : MacSt) : (s.setMac i x).resets = s.resets := rfl
@[simp] theorem State.setMac_servo (s : State) (i : Nat) (x : MacSt) : (s.setMac i x).servo = s.servo := rfl
@[simp] theorem State.setMac_tlb (s : State) (i : Nat) (x : MacSt) : (s.setMac i x).tlb = s.tlb := rfl
@[simp] theorem State.setMac_flw (s : State) (i : Nat) (x : MacSt) : (s.setMac i x).flw = s.flw := rfl
@[simp] theorem State.setMac_ttbs (s : State) (i : Nat) (x : MacSt) : (s.setMac i x).ttbs = s.ttbs := rfl
@[simp] theorem State.setMac_ttbLog (s : State) (i : Nat) (x : MacSt) : (s.setMac i x).ttbLog = s.ttbLog := rfl
@[simp] theorem State.setMac_fab (s : State) (i : Nat) (x : MacSt) : (s.setMac i x).fab = s.fab := rfl
@[simp] theorem State.setMac_brs (s : State) (i : Nat) (x : MacSt) : (s.setMac i x).brs = s.brs := rfl
@[simp] theorem State.setMac_tgt (s : State) (i : Nat) (x : MacSt) : (s.setMac i x).tgt = s.tgt := rfl
@[simp] theorem State.setMac_poll (s : State) (i : Nat) (x : MacSt) : (s.setMac i x).poll = s.poll := rfl
@[simp] theorem State.setMac_dmas (s : State) (i : Nat) (x : MacSt) : (s.setMac i x).dmas = s.dmas := rfl
@[simp] theorem State.setMac_barriers (s : State) (i : Nat) (x : MacSt) : (s.setMac i x).barriers = s.barriers := rfl
@[simp] theorem State.setMac_balls (s : State) (i : Nat) (x : MacSt) : (s.setMac i x).balls = s.balls := rfl
@[simp] theorem State.setMac_fqs (s : State) (i : Nat) (x : MacSt) : (s.setMac i x).fqs = s.fqs := rfl
@[simp] theorem State.setMac_units (s : State) (i : Nat) (x : MacSt) : (s.setMac i x).units = s.units := rfl
@[simp] theorem State.setMac_cans (s : State) (i : Nat) (x : MacSt) : (s.setMac i x).cans = s.cans := rfl
@[simp] theorem State.setMac_clvs (s : State) (i : Nat) (x : MacSt) : (s.setMac i x).clvs = s.clvs := rfl
@[simp] theorem State.setMac_pmem (s : State) (i : Nat) (x : MacSt) : (s.setMac i x).pmem = s.pmem := rfl
@[simp] theorem State.setMac_pd (s : State) (i : Nat) (x : MacSt) : (s.setMac i x).pd = s.pd := rfl
@[simp] theorem State.setMac_pwr (s : State) (i : Nat) (x : MacSt) : (s.setMac i x).pwr = s.pwr := rfl
@[simp] theorem State.setMac_rst (s : State) (i : Nat) (x : MacSt) : (s.setMac i x).rst = s.rst := rfl
@[simp] theorem State.setMac_boot (s : State) (i : Nat) (x : MacSt) : (s.setMac i x).boot = s.boot := rfl
@[simp] theorem State.setMac_tap (s : State) (i : Nat) (x : MacSt) : (s.setMac i x).tap = s.tap := rfl
@[simp] theorem State.setMac_keys (s : State) (i : Nat) (x : MacSt) : (s.setMac i x).keys = s.keys := rfl
@[simp] theorem State.setMac_kmgr (s : State) (i : Nat) (x : MacSt) : (s.setMac i x).kmgr = s.kmgr := rfl
@[simp] theorem State.setMac_ciph (s : State) (i : Nat) (x : MacSt) : (s.setMac i x).ciph = s.ciph := rfl
@[simp] theorem State.setMac_pace (s : State) (i : Nat) (x : MacSt) : (s.setMac i x).pace = s.pace := rfl
@[simp] theorem State.setMac_ledg (s : State) (i : Nat) (x : MacSt) : (s.setMac i x).ledg = s.ledg := rfl
@[simp] theorem State.setMac_raises (s : State) (i : Nat) (x : MacSt) : (s.setMac i x).raises = s.raises := rfl
@[simp] theorem State.setMac_level5 (s : State) (i : Nat) (x : MacSt) : (s.setMac i x).level5 = s.level5 := rfl

@[simp] theorem State.setKey_regs (s : State) (i : Nat) (x : KeySlot) : (s.setKey i x).regs = s.regs := rfl
@[simp] theorem State.setKey_mem (s : State) (i : Nat) (x : KeySlot) : (s.setKey i x).mem = s.mem := rfl
@[simp] theorem State.setKey_ttm (s : State) (i : Nat) (x : KeySlot) : (s.setKey i x).ttm = s.ttm := rfl
@[simp] theorem State.setKey_sramBad (s : State) (i : Nat) (x : KeySlot) : (s.setKey i x).sramBad = s.sramBad := rfl
@[simp] theorem State.setKey_pending (s : State) (i : Nat) (x : KeySlot) : (s.setKey i x).pending = s.pending := rfl
@[simp] theorem State.setKey_out (s : State) (i : Nat) (x : KeySlot) : (s.setKey i x).out = s.out := rfl
@[simp] theorem State.setKey_free (s : State) (i : Nat) (x : KeySlot) : (s.setKey i x).free = s.free := rfl
@[simp] theorem State.setKey_slot (s : State) (i : Nat) (x : KeySlot) : (s.setKey i x).slot = s.slot := rfl
@[simp] theorem State.setKey_slotPhase (s : State) (i : Nat) (x : KeySlot) : (s.setKey i x).slotPhase = s.slotPhase := rfl
@[simp] theorem State.setKey_ports (s : State) (i : Nat) (x : KeySlot) : (s.setKey i x).ports = s.ports := rfl
@[simp] theorem State.setKey_rcs (s : State) (i : Nat) (x : KeySlot) : (s.setKey i x).rcs = s.rcs := rfl
@[simp] theorem State.setKey_claims (s : State) (i : Nat) (x : KeySlot) : (s.setKey i x).claims = s.claims := rfl
@[simp] theorem State.setKey_sems (s : State) (i : Nat) (x : KeySlot) : (s.setKey i x).sems = s.sems := rfl
@[simp] theorem State.setKey_beats (s : State) (i : Nat) (x : KeySlot) : (s.setKey i x).beats = s.beats := rfl
@[simp] theorem State.setKey_bases (s : State) (i : Nat) (x : KeySlot) : (s.setKey i x).bases = s.bases := rfl
@[simp] theorem State.setKey_pdWrites (s : State) (i : Nat) (x : KeySlot) : (s.setKey i x).pdWrites = s.pdWrites := rfl
@[simp] theorem State.setKey_held (s : State) (i : Nat) (x : KeySlot) : (s.setKey i x).held = s.held := rfl
@[simp] theorem State.setKey_resets (s : State) (i : Nat) (x : KeySlot) : (s.setKey i x).resets = s.resets := rfl
@[simp] theorem State.setKey_servo (s : State) (i : Nat) (x : KeySlot) : (s.setKey i x).servo = s.servo := rfl
@[simp] theorem State.setKey_tlb (s : State) (i : Nat) (x : KeySlot) : (s.setKey i x).tlb = s.tlb := rfl
@[simp] theorem State.setKey_flw (s : State) (i : Nat) (x : KeySlot) : (s.setKey i x).flw = s.flw := rfl
@[simp] theorem State.setKey_ttbs (s : State) (i : Nat) (x : KeySlot) : (s.setKey i x).ttbs = s.ttbs := rfl
@[simp] theorem State.setKey_ttbLog (s : State) (i : Nat) (x : KeySlot) : (s.setKey i x).ttbLog = s.ttbLog := rfl
@[simp] theorem State.setKey_fab (s : State) (i : Nat) (x : KeySlot) : (s.setKey i x).fab = s.fab := rfl
@[simp] theorem State.setKey_brs (s : State) (i : Nat) (x : KeySlot) : (s.setKey i x).brs = s.brs := rfl
@[simp] theorem State.setKey_tgt (s : State) (i : Nat) (x : KeySlot) : (s.setKey i x).tgt = s.tgt := rfl
@[simp] theorem State.setKey_poll (s : State) (i : Nat) (x : KeySlot) : (s.setKey i x).poll = s.poll := rfl
@[simp] theorem State.setKey_dmas (s : State) (i : Nat) (x : KeySlot) : (s.setKey i x).dmas = s.dmas := rfl
@[simp] theorem State.setKey_barriers (s : State) (i : Nat) (x : KeySlot) : (s.setKey i x).barriers = s.barriers := rfl
@[simp] theorem State.setKey_balls (s : State) (i : Nat) (x : KeySlot) : (s.setKey i x).balls = s.balls := rfl
@[simp] theorem State.setKey_fqs (s : State) (i : Nat) (x : KeySlot) : (s.setKey i x).fqs = s.fqs := rfl
@[simp] theorem State.setKey_units (s : State) (i : Nat) (x : KeySlot) : (s.setKey i x).units = s.units := rfl
@[simp] theorem State.setKey_cans (s : State) (i : Nat) (x : KeySlot) : (s.setKey i x).cans = s.cans := rfl
@[simp] theorem State.setKey_clvs (s : State) (i : Nat) (x : KeySlot) : (s.setKey i x).clvs = s.clvs := rfl
@[simp] theorem State.setKey_pmem (s : State) (i : Nat) (x : KeySlot) : (s.setKey i x).pmem = s.pmem := rfl
@[simp] theorem State.setKey_macs (s : State) (i : Nat) (x : KeySlot) : (s.setKey i x).macs = s.macs := rfl
@[simp] theorem State.setKey_pd (s : State) (i : Nat) (x : KeySlot) : (s.setKey i x).pd = s.pd := rfl
@[simp] theorem State.setKey_pwr (s : State) (i : Nat) (x : KeySlot) : (s.setKey i x).pwr = s.pwr := rfl
@[simp] theorem State.setKey_rst (s : State) (i : Nat) (x : KeySlot) : (s.setKey i x).rst = s.rst := rfl
@[simp] theorem State.setKey_boot (s : State) (i : Nat) (x : KeySlot) : (s.setKey i x).boot = s.boot := rfl
@[simp] theorem State.setKey_tap (s : State) (i : Nat) (x : KeySlot) : (s.setKey i x).tap = s.tap := rfl
@[simp] theorem State.setKey_kmgr (s : State) (i : Nat) (x : KeySlot) : (s.setKey i x).kmgr = s.kmgr := rfl
@[simp] theorem State.setKey_ciph (s : State) (i : Nat) (x : KeySlot) : (s.setKey i x).ciph = s.ciph := rfl
@[simp] theorem State.setKey_pace (s : State) (i : Nat) (x : KeySlot) : (s.setKey i x).pace = s.pace := rfl
@[simp] theorem State.setKey_ledg (s : State) (i : Nat) (x : KeySlot) : (s.setKey i x).ledg = s.ledg := rfl
@[simp] theorem State.setKey_raises (s : State) (i : Nat) (x : KeySlot) : (s.setKey i x).raises = s.raises := rfl
@[simp] theorem State.setKey_level5 (s : State) (i : Nat) (x : KeySlot) : (s.setKey i x).level5 = s.level5 := rfl

@[simp] theorem State.withQueue_regs (s : State) (l : List Instr) : (s.withQueue l).regs = s.regs := rfl
@[simp] theorem State.withQueue_mem (s : State) (l : List Instr) : (s.withQueue l).mem = s.mem := rfl
@[simp] theorem State.withQueue_ttm (s : State) (l : List Instr) : (s.withQueue l).ttm = s.ttm := rfl
@[simp] theorem State.withQueue_sramBad (s : State) (l : List Instr) : (s.withQueue l).sramBad = s.sramBad := rfl
@[simp] theorem State.withQueue_out (s : State) (l : List Instr) : (s.withQueue l).out = s.out := rfl
@[simp] theorem State.withQueue_free (s : State) (l : List Instr) : (s.withQueue l).free = s.free := rfl
@[simp] theorem State.withQueue_slot (s : State) (l : List Instr) : (s.withQueue l).slot = s.slot := rfl
@[simp] theorem State.withQueue_slotPhase (s : State) (l : List Instr) : (s.withQueue l).slotPhase = s.slotPhase := rfl
@[simp] theorem State.withQueue_ports (s : State) (l : List Instr) : (s.withQueue l).ports = s.ports := rfl
@[simp] theorem State.withQueue_rcs (s : State) (l : List Instr) : (s.withQueue l).rcs = s.rcs := rfl
@[simp] theorem State.withQueue_claims (s : State) (l : List Instr) : (s.withQueue l).claims = s.claims := rfl
@[simp] theorem State.withQueue_sems (s : State) (l : List Instr) : (s.withQueue l).sems = s.sems := rfl
@[simp] theorem State.withQueue_beats (s : State) (l : List Instr) : (s.withQueue l).beats = s.beats := rfl
@[simp] theorem State.withQueue_bases (s : State) (l : List Instr) : (s.withQueue l).bases = s.bases := rfl
@[simp] theorem State.withQueue_pdWrites (s : State) (l : List Instr) : (s.withQueue l).pdWrites = s.pdWrites := rfl
@[simp] theorem State.withQueue_held (s : State) (l : List Instr) : (s.withQueue l).held = s.held := rfl
@[simp] theorem State.withQueue_resets (s : State) (l : List Instr) : (s.withQueue l).resets = s.resets := rfl
@[simp] theorem State.withQueue_servo (s : State) (l : List Instr) : (s.withQueue l).servo = s.servo := rfl
@[simp] theorem State.withQueue_tlb (s : State) (l : List Instr) : (s.withQueue l).tlb = s.tlb := rfl
@[simp] theorem State.withQueue_flw (s : State) (l : List Instr) : (s.withQueue l).flw = s.flw := rfl
@[simp] theorem State.withQueue_ttbs (s : State) (l : List Instr) : (s.withQueue l).ttbs = s.ttbs := rfl
@[simp] theorem State.withQueue_ttbLog (s : State) (l : List Instr) : (s.withQueue l).ttbLog = s.ttbLog := rfl
@[simp] theorem State.withQueue_fab (s : State) (l : List Instr) : (s.withQueue l).fab = s.fab := rfl
@[simp] theorem State.withQueue_brs (s : State) (l : List Instr) : (s.withQueue l).brs = s.brs := rfl
@[simp] theorem State.withQueue_tgt (s : State) (l : List Instr) : (s.withQueue l).tgt = s.tgt := rfl
@[simp] theorem State.withQueue_poll (s : State) (l : List Instr) : (s.withQueue l).poll = s.poll := rfl
@[simp] theorem State.withQueue_dmas (s : State) (l : List Instr) : (s.withQueue l).dmas = s.dmas := rfl
@[simp] theorem State.withQueue_barriers (s : State) (l : List Instr) : (s.withQueue l).barriers = s.barriers := rfl
@[simp] theorem State.withQueue_balls (s : State) (l : List Instr) : (s.withQueue l).balls = s.balls := rfl
@[simp] theorem State.withQueue_fqs (s : State) (l : List Instr) : (s.withQueue l).fqs = s.fqs := rfl
@[simp] theorem State.withQueue_units (s : State) (l : List Instr) : (s.withQueue l).units = s.units := rfl
@[simp] theorem State.withQueue_cans (s : State) (l : List Instr) : (s.withQueue l).cans = s.cans := rfl
@[simp] theorem State.withQueue_clvs (s : State) (l : List Instr) : (s.withQueue l).clvs = s.clvs := rfl
@[simp] theorem State.withQueue_pmem (s : State) (l : List Instr) : (s.withQueue l).pmem = s.pmem := rfl
@[simp] theorem State.withQueue_macs (s : State) (l : List Instr) : (s.withQueue l).macs = s.macs := rfl
@[simp] theorem State.withQueue_pd (s : State) (l : List Instr) : (s.withQueue l).pd = s.pd := rfl
@[simp] theorem State.withQueue_pwr (s : State) (l : List Instr) : (s.withQueue l).pwr = s.pwr := rfl
@[simp] theorem State.withQueue_rst (s : State) (l : List Instr) : (s.withQueue l).rst = s.rst := rfl
@[simp] theorem State.withQueue_boot (s : State) (l : List Instr) : (s.withQueue l).boot = s.boot := rfl
@[simp] theorem State.withQueue_tap (s : State) (l : List Instr) : (s.withQueue l).tap = s.tap := rfl
@[simp] theorem State.withQueue_keys (s : State) (l : List Instr) : (s.withQueue l).keys = s.keys := rfl
@[simp] theorem State.withQueue_kmgr (s : State) (l : List Instr) : (s.withQueue l).kmgr = s.kmgr := rfl
@[simp] theorem State.withQueue_ciph (s : State) (l : List Instr) : (s.withQueue l).ciph = s.ciph := rfl
@[simp] theorem State.withQueue_pace (s : State) (l : List Instr) : (s.withQueue l).pace = s.pace := rfl
@[simp] theorem State.withQueue_ledg (s : State) (l : List Instr) : (s.withQueue l).ledg = s.ledg := rfl
@[simp] theorem State.withQueue_raises (s : State) (l : List Instr) : (s.withQueue l).raises = s.raises := rfl
@[simp] theorem State.withQueue_level5 (s : State) (l : List Instr) : (s.withQueue l).level5 = s.level5 := rfl

/-! ### Accessors through updates -/

section
variable (s : State) (a : Nat) (v : Word) (o : Out) (e : FaultEv)

@[simp] theorem port_setReg (r p : Nat) : (s.setReg a v).port r p = s.port r p := rfl
@[simp] theorem port_emit (r p : Nat) : (s.emit o).port r p = s.port r p := rfl
@[simp] theorem port_step1 (r p : Nat) : s.step1.port r p = s.port r p := rfl
@[simp] theorem reg_setPort (r p : Nat) (x : PortSt) : (s.setPort r p x).reg a = s.reg a := rfl
@[simp] theorem port_setPort (r p : Nat) (x : PortSt) : (s.setPort r p x).port r p = x := spGet_spSet_same ..
@[simp] theorem rc_setReg (i : Nat) : (s.setReg a v).rc i = s.rc i := rfl
@[simp] theorem rc_emit (i : Nat) : (s.emit o).rc i = s.rc i := rfl
@[simp] theorem rc_step1 (i : Nat) : s.step1.rc i = s.rc i := rfl
@[simp] theorem reg_setRc (i : Nat) (x : RcSt) : (s.setRc i x).reg a = s.reg a := rfl
@[simp] theorem rc_setRc (i : Nat) (x : RcSt) : (s.setRc i x).rc i = x := spGet_spSet_same ..
@[simp] theorem claim_setReg (i : Nat) : (s.setReg a v).claim i = s.claim i := rfl
@[simp] theorem claim_emit (i : Nat) : (s.emit o).claim i = s.claim i := rfl
@[simp] theorem claim_step1 (i : Nat) : s.step1.claim i = s.claim i := rfl
@[simp] theorem reg_setClaim (i : Nat) (x : ClaimSt) : (s.setClaim i x).reg a = s.reg a := rfl
@[simp] theorem claim_setClaim (i : Nat) (x : ClaimSt) : (s.setClaim i x).claim i = x := spGet_spSet_same ..
@[simp] theorem sem_setReg (i : Nat) : (s.setReg a v).sem i = s.sem i := rfl
@[simp] theorem sem_emit (i : Nat) : (s.emit o).sem i = s.sem i := rfl
@[simp] theorem sem_step1 (i : Nat) : s.step1.sem i = s.sem i := rfl
@[simp] theorem reg_setSem (i : Nat) (x : SemSt) : (s.setSem i x).reg a = s.reg a := rfl
@[simp] theorem sem_setSem (i : Nat) (x : SemSt) : (s.setSem i x).sem i = x := spGet_spSet_same ..
@[simp] theorem beat_setReg (i : Nat) : (s.setReg a v).beat i = s.beat i := rfl
@[simp] theorem beat_emit (i : Nat) : (s.emit o).beat i = s.beat i := rfl
@[simp] theorem beat_step1 (i : Nat) : s.step1.beat i = s.beat i := rfl
@[simp] theorem reg_setBeat (i : Nat) (x : BeatSt) : (s.setBeat i x).reg a = s.reg a := rfl
@[simp] theorem beat_setBeat (i : Nat) (x : BeatSt) : (s.setBeat i x).beat i = x := spGet_spSet_same ..
@[simp] theorem ttb_setReg (i : Nat) : (s.setReg a v).ttb i = s.ttb i := rfl
@[simp] theorem ttb_emit (i : Nat) : (s.emit o).ttb i = s.ttb i := rfl
@[simp] theorem ttb_step1 (i : Nat) : s.step1.ttb i = s.ttb i := rfl
@[simp] theorem reg_setTtb (i : Nat) (x : TtbSt) : (s.setTtb i x).reg a = s.reg a := rfl
@[simp] theorem ttb_setTtb (i : Nat) (x : TtbSt) : (s.setTtb i x).ttb i = x := spGet_spSet_same ..
@[simp] theorem br_setReg (i : Nat) : (s.setReg a v).br i = s.br i := rfl
@[simp] theorem br_emit (i : Nat) : (s.emit o).br i = s.br i := rfl
@[simp] theorem br_step1 (i : Nat) : s.step1.br i = s.br i := rfl
@[simp] theorem reg_setBr (i : Nat) (x : BrSt) : (s.setBr i x).reg a = s.reg a := rfl
@[simp] theorem br_setBr (i : Nat) (x : BrSt) : (s.setBr i x).br i = x := spGet_spSet_same ..
@[simp] theorem dma_setReg (i : Nat) : (s.setReg a v).dma i = s.dma i := rfl
@[simp] theorem dma_emit (i : Nat) : (s.emit o).dma i = s.dma i := rfl
@[simp] theorem dma_step1 (i : Nat) : s.step1.dma i = s.dma i := rfl
@[simp] theorem reg_setDma (i : Nat) (x : DmaSt) : (s.setDma i x).reg a = s.reg a := rfl
@[simp] theorem dma_setDma (i : Nat) (x : DmaSt) : (s.setDma i x).dma i = x := spGet_spSet_same ..
@[simp] theorem ball_setReg (i : Nat) : (s.setReg a v).ball i = s.ball i := rfl
@[simp] theorem ball_emit (i : Nat) : (s.emit o).ball i = s.ball i := rfl
@[simp] theorem ball_step1 (i : Nat) : s.step1.ball i = s.ball i := rfl
@[simp] theorem reg_setBall (i : Nat) (x : Word) : (s.setBall i x).reg a = s.reg a := rfl
@[simp] theorem ball_setBall (i : Nat) (x : Word) : (s.setBall i x).ball i = x := spGet_spSet_same ..
@[simp] theorem fq_setReg (c q : Nat) : (s.setReg a v).fq c q = s.fq c q := rfl
@[simp] theorem fq_emit (c q : Nat) : (s.emit o).fq c q = s.fq c q := rfl
@[simp] theorem fq_step1 (c q : Nat) : s.step1.fq c q = s.fq c q := rfl
@[simp] theorem reg_setFq (c q : Nat) (x : FqSt) : (s.setFq c q x).reg a = s.reg a := rfl
@[simp] theorem fq_setFq (c q : Nat) (x : FqSt) : (s.setFq c q x).fq c q = x := spGet_spSet_same ..
@[simp] theorem unit_setReg (i : Nat) : (s.setReg a v).unit i = s.unit i := rfl
@[simp] theorem unit_emit (i : Nat) : (s.emit o).unit i = s.unit i := rfl
@[simp] theorem unit_step1 (i : Nat) : s.step1.unit i = s.unit i := rfl
@[simp] theorem reg_setUnit (i : Nat) (x : UnitSt) : (s.setUnit i x).reg a = s.reg a := rfl
@[simp] theorem unit_setUnit (i : Nat) (x : UnitSt) : (s.setUnit i x).unit i = x := spGet_spSet_same ..
@[simp] theorem can_setReg (i : Nat) : (s.setReg a v).can i = s.can i := rfl
@[simp] theorem can_emit (i : Nat) : (s.emit o).can i = s.can i := rfl
@[simp] theorem can_step1 (i : Nat) : s.step1.can i = s.can i := rfl
@[simp] theorem reg_setCan (i : Nat) (x : CanSt) : (s.setCan i x).reg a = s.reg a := rfl
@[simp] theorem can_setCan (i : Nat) (x : CanSt) : (s.setCan i x).can i = x := spGet_spSet_same ..
@[simp] theorem clv_setReg (e k : Nat) : (s.setReg a v).clv e k = s.clv e k := rfl
@[simp] theorem clv_emit (e k : Nat) : (s.emit o).clv e k = s.clv e k := rfl
@[simp] theorem clv_step1 (e k : Nat) : s.step1.clv e k = s.clv e k := rfl
@[simp] theorem reg_setClv (e k : Nat) (x : ClovCh) : (s.setClv e k x).reg a = s.reg a := rfl
@[simp] theorem clv_setClv (e k : Nat) (x : ClovCh) : (s.setClv e k x).clv e k = x := spGet_spSet_same ..
@[simp] theorem mac_setReg (i : Nat) : (s.setReg a v).mac i = s.mac i := rfl
@[simp] theorem mac_emit (i : Nat) : (s.emit o).mac i = s.mac i := rfl
@[simp] theorem mac_step1 (i : Nat) : s.step1.mac i = s.mac i := rfl
@[simp] theorem reg_setMac (i : Nat) (x : MacSt) : (s.setMac i x).reg a = s.reg a := rfl
@[simp] theorem mac_setMac (i : Nat) (x : MacSt) : (s.setMac i x).mac i = x := spGet_spSet_same ..
@[simp] theorem key_setReg (i : Nat) : (s.setReg a v).key i = s.key i := rfl
@[simp] theorem key_emit (i : Nat) : (s.emit o).key i = s.key i := rfl
@[simp] theorem key_step1 (i : Nat) : s.step1.key i = s.key i := rfl
@[simp] theorem reg_setKey (i : Nat) (x : KeySlot) : (s.setKey i x).reg a = s.reg a := rfl
@[simp] theorem key_setKey (i : Nat) (x : KeySlot) : (s.setKey i x).key i = x := spGet_spSet_same ..
end

@[simp] theorem State.withQueue_pending (s : State) (l : List Instr) : (s.withQueue l).pending = l := rfl
@[simp] theorem State.emit_out (s : State) (o : Out) : (s.emit o).out = o :: s.out := rfl
@[simp] theorem State.fault_raises (s : State) (e : FaultEv) : (s.fault e).raises = s.raises ++ [e] := rfl

end Sys2Proof.Machine
end

