-- ==== Sys2Proof/Laws/Ops.lean ====
section
/-! SUPPORT. Laws of the named operations: registers read what was written, other registers and memory stay, memory keeps its canonical
form. -/
namespace Sys2Proof.Machine

/-! ### Registers -/

@[simp] theorem reg_setReg_same (s : State) (a : Nat) (v : Word) : (s.setReg a v).reg a = v := spGet_spSet_same ..
theorem reg_setReg_ne (s : State) {a b : Nat} (v : Word) (h : b ≠ a) : (s.setReg a v).reg b = s.reg b := spGet_spSet_ne _ _ _ h
theorem reg_setReg (s : State) (a b : Nat) (v : Word) : (s.setReg a v).reg b = if b = a then v else s.reg b := by
  split
  · subst b; simp
  · exact reg_setReg_ne s v ‹_›

/-- A state with the same registers reads the same. -/
theorem reg_congr {s t : State} (h : s.regs = t.regs) (a : Nat) : s.reg a = t.reg a := by unfold State.reg; rw [h]

@[simp] theorem reg_emit (s : State) (o : Out) (a : Nat) : (s.emit o).reg a = s.reg a := rfl
@[simp] theorem reg_done (s : State) (q : Req) (n : Nat) (l : List Byte) (a : Nat) : (s.done q n l).reg a = s.reg a := rfl
@[simp] theorem reg_fault (s : State) (e : FaultEv) (a : Nat) : (s.fault e).reg a = s.reg a := rfl
@[simp] theorem reg_raise (s : State) (n p a : Nat) : (s.raise n p).reg a = s.reg a := rfl
@[simp] theorem reg_step1 (s : State) (a : Nat) : s.step1.reg a = s.reg a := rfl
@[simp] theorem reg_setByte (s : State) (x : Nat) (b : Byte) (a : Nat) : (s.setByte x b).reg a = s.reg a := rfl
@[simp] theorem reg_withQueue (s : State) (l : List Instr) (a : Nat) : (s.withQueue l).reg a = s.reg a := rfl

theorem reg_put (s : State) (a b : Nat) (f : Fld) (v : Nat) : (s.put a f v).reg b = if b = a then fldPut (s.reg a) f v else s.reg b :=
  reg_setReg ..
theorem reg_irq (s : State) (p n b : Nat) :
    (s.irq p n).reg b = if b = rPG_IRQ_STAT p then s.reg (rPG_IRQ_STAT p) ||| toW (2 ^ n) else s.reg b := reg_setReg ..
theorem reg_inc (s : State) (a b : Nat) : (s.inc a).reg b = if b = a then s.reg a + toW 1 else s.reg b := reg_setReg ..

/-- A flag or field of a register that an operation leaves alone. -/
theorem get_congr {s t : State} {a : Nat} (f : Fld) (h : s.reg a = t.reg a) : s.get a f = t.get a f := by unfold State.get; rw [h]
theorem flag_congr {s t : State} {a : Nat} (f : Fld) (h : s.reg a = t.reg a) : s.flag a f = t.flag a f := by
  unfold State.flag State.get; rw [h]

/-! ### Memory -/

@[simp] theorem byte_setByte_same (s : State) (a : Nat) (b : Byte) : (s.setByte a b).byte a = b := spGet_spSet_same ..
theorem byte_setByte_ne (s : State) {a x : Nat} (b : Byte) (h : x ≠ a) : (s.setByte a b).byte x = s.byte x := spGet_spSet_ne _ _ _ h
@[simp] theorem ttByte_setTtByte_same (s : State) (a : Nat) (b : Byte) : (s.setTtByte a b).ttByte a = b := spGet_spSet_same ..
theorem ttByte_setTtByte_ne (s : State) {a x : Nat} (b : Byte) (h : x ≠ a) : (s.setTtByte a b).ttByte x = s.ttByte x :=
  spGet_spSet_ne _ _ _ h
@[simp] theorem byte_setReg (s : State) (a x : Nat) (v : Word) : (s.setReg a v).byte x = s.byte x := rfl

/-- What is written outside the octets from a upwards stays. -/
theorem byte_setBytes_out (s : State) (a x : Nat) (l : List Byte) (h : x < a ∨ a + l.length ≤ x) : (s.setBytes a l).byte x = s.byte x := by
  induction l generalizing s a with
  | nil => rfl
  | cons b l ih =>
    simp only [List.length_cons] at h
    rw [State.setBytes, ih _ _ (by omega), byte_setByte_ne s b (by omega)]

/-- Octets written are read back. -/
theorem byte_setBytes_in (s : State) (a i : Nat) (l : List Byte) (h : i < l.length) : (s.setBytes a l).byte (a + i) = l[i] := by
  induction l generalizing s a i with
  | nil => simp at h
  | cons b l ih =>
    cases i with
    | zero => rw [State.setBytes, byte_setBytes_out _ _ _ _ (by omega)]; simp
    | succ i =>
      have := ih (s.setByte a b) (a + 1) i (by simpa using h)
      rw [State.setBytes, show a + (i + 1) = a + 1 + i by omega, this]; simp

theorem regs_setBytes (s : State) (a : Nat) (l : List Byte) : (s.setBytes a l).regs = s.regs := by
  induction l generalizing s a with
  | nil => rfl
  | cons b l ih => rw [State.setBytes, ih]; rfl

theorem memWf_setByte {s : State} (a : Nat) (b : Byte) (h : Memory.wf s.mem = true) : Memory.wf (s.setByte a b).mem = true := spWf_spSet a b h
theorem memWf_setBytes {s : State} (a : Nat) (l : List Byte) (h : Memory.wf s.mem = true) : Memory.wf (s.setBytes a l).mem = true := by
  induction l generalizing s a with
  | nil => exact h
  | cons b l ih => exact ih (a + 1) (memWf_setByte a b h)
theorem memWf_setWord {s : State} (a : Nat) (w : Word) (h : Memory.wf s.mem = true) : Memory.wf (s.setWord a w).mem = true := memWf_setBytes a _ h
theorem ttWf_setTtByte {s : State} (a : Nat) (b : Byte) (h : Memory.ttWf s.ttm = true) : Memory.ttWf (s.setTtByte a b).ttm = true :=
  spWf_spSet a b h
theorem ttWf_setTtBytes {s : State} (a : Nat) (l : List Byte) (h : Memory.ttWf s.ttm = true) : Memory.ttWf (s.setTtBytes a l).ttm = true := by
  induction l generalizing s a with
  | nil => exact h
  | cons b l ih => exact ih (a + 1) (ttWf_setTtByte a b h)
theorem memWf_drop {s : State} (p : Nat → Bool) (h : Memory.wf s.mem = true) : Memory.wf (spDrop p s.mem) = true := spWf_spDrop p h
theorem memWf_reset : Memory.wf State.reset.mem = true := rfl
theorem ttWf_reset : Memory.ttWf State.reset.ttm = true := rfl

/-- A block that is enabled does what it does of its own; one that is disabled does nothing (R33). -/
@[simp] theorem State.ifOn_on {s : State} {p : Nat} {f : State → State} (h : s.enabled p = true) : s.ifOn p f = f s := if_pos h
@[simp] theorem State.ifOn_off {s : State} {p : Nat} {f : State → State} (h : s.enabled p = false) : s.ifOn p f = s :=
  if_neg (by rw [h]; exact Bool.false_ne_true)

end Sys2Proof.Machine
end

