-- ==== Sys2Proof/Laws/Bits.lean ====
section
/-! SUPPORT. Laws of bit fields: a field reads as what was put into it, and a field beside it stays. -/
namespace Sys2Proof.Machine

theorem natPut_testBit (w hi lo v i : Nat) (h : lo ≤ hi) :
    (natPut w hi lo v).testBit i = if lo ≤ i ∧ i ≤ hi then v.testBit (i - lo) else w.testBit i := by
  have e : natPut w hi lo v = (w >>> (hi + 1)) * 2 ^ (hi + 1) + ((v % 2 ^ (hi + 1 - lo)) * 2 ^ lo + w % 2 ^ lo) := by
    unfold natPut; simp only [Nat.shiftLeft_eq]; omega
  have hlow : w % 2 ^ lo < 2 ^ lo := Nat.mod_lt _ (by positivity)
  have hmid : (v % 2 ^ (hi + 1 - lo)) * 2 ^ lo + w % 2 ^ lo < 2 ^ (hi + 1) := by
    have h1 : v % 2 ^ (hi + 1 - lo) < 2 ^ (hi + 1 - lo) := Nat.mod_lt _ (by positivity)
    have h2 : 2 ^ (hi + 1) = 2 ^ (hi + 1 - lo) * 2 ^ lo := by rw [← pow_add]; congr 1; omega
    rw [h2]; nlinarith [Nat.mul_le_mul_right (2 ^ lo) h1]
  rw [e, Nat.mul_comm _ (2 ^ (hi + 1)), Nat.testBit_two_pow_mul_add _ hmid, Nat.mul_comm _ (2 ^ lo)]
  split
  · rw [Nat.testBit_two_pow_mul_add _ hlow]
    split
    · rw [if_neg (by omega), Nat.testBit_mod_two_pow]; simp [*]
    · rw [if_pos (by omega), Nat.testBit_mod_two_pow]; simp; omega
  · rw [if_neg (by omega), Nat.testBit_shiftRight]; congr 1; omega

theorem natBits_testBit (w hi lo i : Nat) : (natBits w hi lo).testBit i = (decide (i < hi + 1 - lo) && w.testBit (lo + i)) := by
  unfold natBits; rw [Nat.testBit_mod_two_pow, Nat.testBit_shiftRight]

theorem natPut_lt {w hi lo v n : Nat} (h : lo ≤ hi) (hn : hi < n) (hw : w < 2 ^ n) : natPut w hi lo v < 2 ^ n := by
  apply Nat.lt_pow_two_of_testBit
  intro i hi'
  rw [natPut_testBit _ _ _ _ _ h, if_neg (by omega)]
  exact Nat.testBit_lt_two_pow (lt_of_lt_of_le hw (Nat.pow_le_pow_right (by norm_num) hi'))

/-- A field reads as what was put into it. -/
theorem fldOf_fldPut_same (w : Word) (f : Fld) (v : Nat) (h : f.lo ≤ f.hi) (h' : f.hi < 32) :
    fldOf (fldPut w f v) f = v % 2 ^ (f.hi + 1 - f.lo) := by
  unfold fldOf fldPut
  rw [BitVec.toNat_ofNat, Nat.mod_eq_of_lt (natPut_lt h h' w.isLt)]
  apply Nat.eq_of_testBit_eq
  intro i
  rw [natBits_testBit, Nat.testBit_mod_two_pow, natPut_testBit _ _ _ _ _ h]
  by_cases hi : i < f.hi + 1 - f.lo
  · rw [if_pos (by omega)]; simp
  · simp [hi]

/-- A field beside the one put into stays. -/
theorem fldOf_fldPut_other (w : Word) (f g : Fld) (v : Nat) (h : f.lo ≤ f.hi) (h' : f.hi < 32) (hg : g.hi < f.lo ∨ f.hi < g.lo) :
    fldOf (fldPut w f v) g = fldOf w g := by
  unfold fldOf fldPut
  rw [BitVec.toNat_ofNat, Nat.mod_eq_of_lt (natPut_lt h h' w.isLt)]
  apply Nat.eq_of_testBit_eq
  intro i
  rw [natBits_testBit, natBits_testBit, natPut_testBit _ _ _ _ _ h]
  by_cases hi : i < g.hi + 1 - g.lo
  · rw [if_neg (by omega)]
  · simp [hi]

theorem get_put_same (s : State) (a : Nat) (f : Fld) (v : Nat) (h : f.lo ≤ f.hi) (h' : f.hi < 32) :
    (s.put a f v).get a f = v % 2 ^ (f.hi + 1 - f.lo) := by
  unfold State.get State.put
  rw [reg_setReg_same, fldOf_fldPut_same _ _ _ h h']

theorem get_put_other (s : State) (a : Nat) (f g : Fld) (v : Nat) (h : f.lo ≤ f.hi) (h' : f.hi < 32) (hg : g.hi < f.lo ∨ f.hi < g.lo) :
    (s.put a f v).get a g = s.get a g := by
  unfold State.get State.put
  rw [reg_setReg_same, fldOf_fldPut_other _ _ _ _ h h' hg]

theorem get_put_ne (s : State) {a b : Nat} (f g : Fld) (v : Nat) (h : b ≠ a) : (s.put a f v).get b g = s.get b g :=
  get_congr g (reg_setReg_ne _ _ h)

end Sys2Proof.Machine
end

