-- ==== Sys2Proof/Laws/Collector.lean ====
section
/-! SUPPORT. What the end of a meaning does: the collector leaves no event, a command that raised none keeps what its effect gave, and the
delivery of interrupts changes outputs and pending MSI-X vectors alone. -/
namespace Sys2Proof.Machine

/-! ### The collector -/

theorem collectRounds_raises (k : Nat) (s : State) (busy : List Nat) : (State.collectRounds k s busy).raises = [] := by
  induction k generalizing s busy with
  | zero => rfl
  | succ k ih =>
    unfold State.collectRounds
    split
    · assumption
    · exact ih ..

/-- The collector leaves no event. -/
@[simp] theorem collect_raises (s : State) : s.collect.raises = [] := collectRounds_raises ..

/-- With no event the collector changes nothing. -/
theorem collect_of_nil {s : State} (h : s.raises = []) : s.collect = s := by
  unfold State.collect State.collectRounds; simp [h]

/-! ### The delivery of interrupts -/

/-- Two states that agree on everything but outputs and registers. -/
def SameCore (s t : State) : Prop := s = { t with out := s.out, regs := s.regs }

theorem SameCore.rfl' (s : State) : SameCore s s := by unfold SameCore; rfl

theorem SameCore.trans {s t u : State} (h : SameCore s t) (k : SameCore t u) : SameCore s u := by
  unfold SameCore at *; rw [h, k]

theorem request_core (s : State) (h v : Nat) : SameCore (s.request h v) s := by
  unfold State.request SameCore
  split <;> rfl

/-- The address of HBx_MSIX_PBA. -/
def isPba (a : Nat) : Prop := a = rHBx_MSIX_PBA 0 ∨ a = rHBx_MSIX_PBA 1

theorem request_reg (s : State) {h : Nat} (hh : h < 2) (v : Nat) {a : Nat} (ha : ¬ isPba a) : (s.request h v).reg a = s.reg a := by
  unfold State.request
  split
  · refine reg_setReg_ne _ _ ?_
    intro e; subst e; apply ha; unfold isPba
    have : h = 0 ∨ h = 1 := by omega
    rcases this with rfl | rfl <;> simp
  · rfl

theorem requests_core (l : List Nat) (s : State) (h : Nat) : SameCore (l.foldl (fun s v => s.request h v) s) s := by
  induction l generalizing s with
  | nil => exact .rfl' s
  | cons v l ih => exact (ih _).trans (request_core ..)

theorem requests_reg (l : List Nat) (s : State) {h : Nat} (hh : h < 2) {a : Nat} (ha : ¬ isPba a) :
    (l.foldl (fun s v => s.request h v) s).reg a = s.reg a := by
  induction l generalizing s with
  | nil => rfl
  | cons v l ih => rw [List.foldl_cons, ih, request_reg s hh v ha]

theorem deliverHost_core (b t : State) (h : Nat) : SameCore (State.deliverHost b t h) t := by
  unfold State.deliverHost
  split
  · exact requests_core ..
  · exact .rfl' t

theorem deliverHost_reg (b t : State) {h : Nat} (hh : h < 2) {a : Nat} (ha : ¬ isPba a) : (State.deliverHost b t h).reg a = t.reg a := by
  unfold State.deliverHost
  split
  · exact requests_reg _ _ hh ha
  · rfl

/-- Delivery changes outputs and registers alone. -/
theorem deliver_core (b t : State) : SameCore (State.deliver b t) t := by
  unfold State.deliver
  refine (deliverHost_core ..).trans ((deliverHost_core ..).trans ?_)
  split
  · unfold SameCore State.emit; rfl
  · exact .rfl' t

/-- Of the registers, delivery changes HBx_MSIX_PBA alone. -/
theorem deliver_reg (b t : State) {a : Nat} (ha : ¬ isPba a) : (State.deliver b t).reg a = t.reg a := by
  unfold State.deliver
  dsimp only
  rw [deliverHost_reg _ _ (by omega) ha, deliverHost_reg _ _ (by omega) ha]
  split <;> rfl

@[simp] theorem deliver_mem (b t : State) : (State.deliver b t).mem = t.mem := by have h := deliver_core b t; unfold SameCore at h; rw [h]
@[simp] theorem deliver_ttm (b t : State) : (State.deliver b t).ttm = t.ttm := by have h := deliver_core b t; unfold SameCore at h; rw [h]
@[simp] theorem deliver_sramBad (b t : State) : (State.deliver b t).sramBad = t.sramBad := by have h := deliver_core b t; unfold SameCore at h; rw [h]
@[simp] theorem deliver_free (b t : State) : (State.deliver b t).free = t.free := by have h := deliver_core b t; unfold SameCore at h; rw [h]
@[simp] theorem deliver_slot (b t : State) : (State.deliver b t).slot = t.slot := by have h := deliver_core b t; unfold SameCore at h; rw [h]
@[simp] theorem deliver_slotPhase (b t : State) : (State.deliver b t).slotPhase = t.slotPhase := by have h := deliver_core b t; unfold SameCore at h; rw [h]
@[simp] theorem deliver_ports (b t : State) : (State.deliver b t).ports = t.ports := by have h := deliver_core b t; unfold SameCore at h; rw [h]
@[simp] theorem deliver_rcs (b t : State) : (State.deliver b t).rcs = t.rcs := by have h := deliver_core b t; unfold SameCore at h; rw [h]
@[simp] theorem deliver_claims (b t : State) : (State.deliver b t).claims = t.claims := by have h := deliver_core b t; unfold SameCore at h; rw [h]
@[simp] theorem deliver_sems (b t : State) : (State.deliver b t).sems = t.sems := by have h := deliver_core b t; unfold SameCore at h; rw [h]
@[simp] theorem deliver_beats (b t : State) : (State.deliver b t).beats = t.beats := by have h := deliver_core b t; unfold SameCore at h; rw [h]
@[simp] theorem deliver_bases (b t : State) : (State.deliver b t).bases = t.bases := by have h := deliver_core b t; unfold SameCore at h; rw [h]
@[simp] theorem deliver_pdWrites (b t : State) : (State.deliver b t).pdWrites = t.pdWrites := by have h := deliver_core b t; unfold SameCore at h; rw [h]
@[simp] theorem deliver_held (b t : State) : (State.deliver b t).held = t.held := by have h := deliver_core b t; unfold SameCore at h; rw [h]
@[simp] theorem deliver_resets (b t : State) : (State.deliver b t).resets = t.resets := by have h := deliver_core b t; unfold SameCore at h; rw [h]
@[simp] theorem deliver_servo (b t : State) : (State.deliver b t).servo = t.servo := by have h := deliver_core b t; unfold SameCore at h; rw [h]
@[simp] theorem deliver_tlb (b t : State) : (State.deliver b t).tlb = t.tlb := by have h := deliver_core b t; unfold SameCore at h; rw [h]
@[simp] theorem deliver_flw (b t : State) : (State.deliver b t).flw = t.flw := by have h := deliver_core b t; unfold SameCore at h; rw [h]
@[simp] theorem deliver_ttbs (b t : State) : (State.deliver b t).ttbs = t.ttbs := by have h := deliver_core b t; unfold SameCore at h; rw [h]
@[simp] theorem deliver_ttbLog (b t : State) : (State.deliver b t).ttbLog = t.ttbLog := by have h := deliver_core b t; unfold SameCore at h; rw [h]
@[simp] theorem deliver_fab (b t : State) : (State.deliver b t).fab = t.fab := by have h := deliver_core b t; unfold SameCore at h; rw [h]
@[simp] theorem deliver_brs (b t : State) : (State.deliver b t).brs = t.brs := by have h := deliver_core b t; unfold SameCore at h; rw [h]
@[simp] theorem deliver_tgt (b t : State) : (State.deliver b t).tgt = t.tgt := by have h := deliver_core b t; unfold SameCore at h; rw [h]
@[simp] theorem deliver_poll (b t : State) : (State.deliver b t).poll = t.poll := by have h := deliver_core b t; unfold SameCore at h; rw [h]
@[simp] theorem deliver_dmas (b t : State) : (State.deliver b t).dmas = t.dmas := by have h := deliver_core b t; unfold SameCore at h; rw [h]
@[simp] theorem deliver_barriers (b t : State) : (State.deliver b t).barriers = t.barriers := by have h := deliver_core b t; unfold SameCore at h; rw [h]
@[simp] theorem deliver_balls (b t : State) : (State.deliver b t).balls = t.balls := by have h := deliver_core b t; unfold SameCore at h; rw [h]
@[simp] theorem deliver_fqs (b t : State) : (State.deliver b t).fqs = t.fqs := by have h := deliver_core b t; unfold SameCore at h; rw [h]
@[simp] theorem deliver_units (b t : State) : (State.deliver b t).units = t.units := by have h := deliver_core b t; unfold SameCore at h; rw [h]
@[simp] theorem deliver_cans (b t : State) : (State.deliver b t).cans = t.cans := by have h := deliver_core b t; unfold SameCore at h; rw [h]
@[simp] theorem deliver_clvs (b t : State) : (State.deliver b t).clvs = t.clvs := by have h := deliver_core b t; unfold SameCore at h; rw [h]
@[simp] theorem deliver_pmem (b t : State) : (State.deliver b t).pmem = t.pmem := by have h := deliver_core b t; unfold SameCore at h; rw [h]
@[simp] theorem deliver_macs (b t : State) : (State.deliver b t).macs = t.macs := by have h := deliver_core b t; unfold SameCore at h; rw [h]
@[simp] theorem deliver_pd (b t : State) : (State.deliver b t).pd = t.pd := by have h := deliver_core b t; unfold SameCore at h; rw [h]
@[simp] theorem deliver_pwr (b t : State) : (State.deliver b t).pwr = t.pwr := by have h := deliver_core b t; unfold SameCore at h; rw [h]
@[simp] theorem deliver_rst (b t : State) : (State.deliver b t).rst = t.rst := by have h := deliver_core b t; unfold SameCore at h; rw [h]
@[simp] theorem deliver_boot (b t : State) : (State.deliver b t).boot = t.boot := by have h := deliver_core b t; unfold SameCore at h; rw [h]
@[simp] theorem deliver_tap (b t : State) : (State.deliver b t).tap = t.tap := by have h := deliver_core b t; unfold SameCore at h; rw [h]
@[simp] theorem deliver_keys (b t : State) : (State.deliver b t).keys = t.keys := by have h := deliver_core b t; unfold SameCore at h; rw [h]
@[simp] theorem deliver_kmgr (b t : State) : (State.deliver b t).kmgr = t.kmgr := by have h := deliver_core b t; unfold SameCore at h; rw [h]
@[simp] theorem deliver_ciph (b t : State) : (State.deliver b t).ciph = t.ciph := by have h := deliver_core b t; unfold SameCore at h; rw [h]
@[simp] theorem deliver_pace (b t : State) : (State.deliver b t).pace = t.pace := by have h := deliver_core b t; unfold SameCore at h; rw [h]
@[simp] theorem deliver_ledg (b t : State) : (State.deliver b t).ledg = t.ledg := by have h := deliver_core b t; unfold SameCore at h; rw [h]
@[simp] theorem deliver_raises (b t : State) : (State.deliver b t).raises = t.raises := by have h := deliver_core b t; unfold SameCore at h; rw [h]
@[simp] theorem deliver_level5 (b t : State) : (State.deliver b t).level5 = t.level5 := by have h := deliver_core b t; unfold SameCore at h; rw [h]

/-! ### The end of a meaning -/

theorem finish_eq (b t : State) : finish b t = .next (State.finished b t) := rfl

/-- No fault event is left after a command. -/
@[simp] theorem finished_raises (b t : State) : (State.finished b t).raises = [] := by
  show (State.deliver b t.collect).raises = []
  rw [deliver_raises, collect_raises]

/-- A command leaves the queue alone. -/
@[simp] theorem finished_pending (b t : State) : (State.finished b t).pending = b.pending := rfl

/-- A command that raised nothing leaves the registers as its effect gave them. -/
theorem finished_reg {b t : State} (h : t.raises = []) {a : Nat} (ha : ¬ isPba a) : (State.finished b t).reg a = t.reg a := by
  show (State.deliver b t.collect).reg a = t.reg a
  rw [deliver_reg _ _ ha, collect_of_nil h]

theorem finished_mem {b t : State} (h : t.raises = []) : (State.finished b t).mem = t.mem := by
  show (State.deliver b t.collect).mem = t.mem
  rw [deliver_mem, collect_of_nil h]
theorem finished_ttm {b t : State} (h : t.raises = []) : (State.finished b t).ttm = t.ttm := by
  show (State.deliver b t.collect).ttm = t.ttm
  rw [deliver_ttm, collect_of_nil h]
theorem finished_sramBad {b t : State} (h : t.raises = []) : (State.finished b t).sramBad = t.sramBad := by
  show (State.deliver b t.collect).sramBad = t.sramBad
  rw [deliver_sramBad, collect_of_nil h]
theorem finished_free {b t : State} (h : t.raises = []) : (State.finished b t).free = t.free := by
  show (State.deliver b t.collect).free = t.free
  rw [deliver_free, collect_of_nil h]
theorem finished_slot {b t : State} (h : t.raises = []) : (State.finished b t).slot = t.slot := by
  show (State.deliver b t.collect).slot = t.slot
  rw [deliver_slot, collect_of_nil h]
theorem finished_slotPhase {b t : State} (h : t.raises = []) : (State.finished b t).slotPhase = t.slotPhase := by
  show (State.deliver b t.collect).slotPhase = t.slotPhase
  rw [deliver_slotPhase, collect_of_nil h]
theorem finished_ports {b t : State} (h : t.raises = []) : (State.finished b t).ports = t.ports := by
  show (State.deliver b t.collect).ports = t.ports
  rw [deliver_ports, collect_of_nil h]
theorem finished_rcs {b t : State} (h : t.raises = []) : (State.finished b t).rcs = t.rcs := by
  show (State.deliver b t.collect).rcs = t.rcs
  rw [deliver_rcs, collect_of_nil h]
theorem finished_claims {b t : State} (h : t.raises = []) : (State.finished b t).claims = t.claims := by
  show (State.deliver b t.collect).claims = t.claims
  rw [deliver_claims, collect_of_nil h]
theorem finished_sems {b t : State} (h : t.raises = []) : (State.finished b t).sems = t.sems := by
  show (State.deliver b t.collect).sems = t.sems
  rw [deliver_sems, collect_of_nil h]
theorem finished_beats {b t : State} (h : t.raises = []) : (State.finished b t).beats = t.beats := by
  show (State.deliver b t.collect).beats = t.beats
  rw [deliver_beats, collect_of_nil h]
theorem finished_bases {b t : State} (h : t.raises = []) : (State.finished b t).bases = t.bases := by
  show (State.deliver b t.collect).bases = t.bases
  rw [deliver_bases, collect_of_nil h]
theorem finished_pdWrites {b t : State} (h : t.raises = []) : (State.finished b t).pdWrites = t.pdWrites := by
  show (State.deliver b t.collect).pdWrites = t.pdWrites
  rw [deliver_pdWrites, collect_of_nil h]
theorem finished_held {b t : State} (h : t.raises = []) : (State.finished b t).held = t.held := by
  show (State.deliver b t.collect).held = t.held
  rw [deliver_held, collect_of_nil h]
theorem finished_resets {b t : State} (h : t.raises = []) : (State.finished b t).resets = t.resets := by
  show (State.deliver b t.collect).resets = t.resets
  rw [deliver_resets, collect_of_nil h]
theorem finished_servo {b t : State} (h : t.raises = []) : (State.finished b t).servo = t.servo := by
  show (State.deliver b t.collect).servo = t.servo
  rw [deliver_servo, collect_of_nil h]
theorem finished_tlb {b t : State} (h : t.raises = []) : (State.finished b t).tlb = t.tlb := by
  show (State.deliver b t.collect).tlb = t.tlb
  rw [deliver_tlb, collect_of_nil h]
theorem finished_flw {b t : State} (h : t.raises = []) : (State.finished b t).flw = t.flw := by
  show (State.deliver b t.collect).flw = t.flw
  rw [deliver_flw, collect_of_nil h]
theorem finished_ttbs {b t : State} (h : t.raises = []) : (State.finished b t).ttbs = t.ttbs := by
  show (State.deliver b t.collect).ttbs = t.ttbs
  rw [deliver_ttbs, collect_of_nil h]
theorem finished_ttbLog {b t : State} (h : t.raises = []) : (State.finished b t).ttbLog = t.ttbLog := by
  show (State.deliver b t.collect).ttbLog = t.ttbLog
  rw [deliver_ttbLog, collect_of_nil h]
theorem finished_fab {b t : State} (h : t.raises = []) : (State.finished b t).fab = t.fab := by
  show (State.deliver b t.collect).fab = t.fab
  rw [deliver_fab, collect_of_nil h]
theorem finished_brs {b t : State} (h : t.raises = []) : (State.finished b t).brs = t.brs := by
  show (State.deliver b t.collect).brs = t.brs
  rw [deliver_brs, collect_of_nil h]
theorem finished_tgt {b t : State} (h : t.raises = []) : (State.finished b t).tgt = t.tgt := by
  show (State.deliver b t.collect).tgt = t.tgt
  rw [deliver_tgt, collect_of_nil h]
theorem finished_poll {b t : State} (h : t.raises = []) : (State.finished b t).poll = t.poll := by
  show (State.deliver b t.collect).poll = t.poll
  rw [deliver_poll, collect_of_nil h]
theorem finished_dmas {b t : State} (h : t.raises = []) : (State.finished b t).dmas = t.dmas := by
  show (State.deliver b t.collect).dmas = t.dmas
  rw [deliver_dmas, collect_of_nil h]
theorem finished_barriers {b t : State} (h : t.raises = []) : (State.finished b t).barriers = t.barriers := by
  show (State.deliver b t.collect).barriers = t.barriers
  rw [deliver_barriers, collect_of_nil h]
theorem finished_balls {b t : State} (h : t.raises = []) : (State.finished b t).balls = t.balls := by
  show (State.deliver b t.collect).balls = t.balls
  rw [deliver_balls, collect_of_nil h]
theorem finished_fqs {b t : State} (h : t.raises = []) : (State.finished b t).fqs = t.fqs := by
  show (State.deliver b t.collect).fqs = t.fqs
  rw [deliver_fqs, collect_of_nil h]
theorem finished_units {b t : State} (h : t.raises = []) : (State.finished b t).units = t.units := by
  show (State.deliver b t.collect).units = t.units
  rw [deliver_units, collect_of_nil h]
theorem finished_cans {b t : State} (h : t.raises = []) : (State.finished b t).cans = t.cans := by
  show (State.deliver b t.collect).cans = t.cans
  rw [deliver_cans, collect_of_nil h]
theorem finished_clvs {b t : State} (h : t.raises = []) : (State.finished b t).clvs = t.clvs := by
  show (State.deliver b t.collect).clvs = t.clvs
  rw [deliver_clvs, collect_of_nil h]
theorem finished_pmem {b t : State} (h : t.raises = []) : (State.finished b t).pmem = t.pmem := by
  show (State.deliver b t.collect).pmem = t.pmem
  rw [deliver_pmem, collect_of_nil h]
theorem finished_macs {b t : State} (h : t.raises = []) : (State.finished b t).macs = t.macs := by
  show (State.deliver b t.collect).macs = t.macs
  rw [deliver_macs, collect_of_nil h]
theorem finished_pd {b t : State} (h : t.raises = []) : (State.finished b t).pd = t.pd := by
  show (State.deliver b t.collect).pd = t.pd
  rw [deliver_pd, collect_of_nil h]
theorem finished_pwr {b t : State} (h : t.raises = []) : (State.finished b t).pwr = t.pwr := by
  show (State.deliver b t.collect).pwr = t.pwr
  rw [deliver_pwr, collect_of_nil h]
theorem finished_rst {b t : State} (h : t.raises = []) : (State.finished b t).rst = t.rst := by
  show (State.deliver b t.collect).rst = t.rst
  rw [deliver_rst, collect_of_nil h]
theorem finished_boot {b t : State} (h : t.raises = []) : (State.finished b t).boot = t.boot := by
  show (State.deliver b t.collect).boot = t.boot
  rw [deliver_boot, collect_of_nil h]
theorem finished_tap {b t : State} (h : t.raises = []) : (State.finished b t).tap = t.tap := by
  show (State.deliver b t.collect).tap = t.tap
  rw [deliver_tap, collect_of_nil h]
theorem finished_keys {b t : State} (h : t.raises = []) : (State.finished b t).keys = t.keys := by
  show (State.deliver b t.collect).keys = t.keys
  rw [deliver_keys, collect_of_nil h]
theorem finished_kmgr {b t : State} (h : t.raises = []) : (State.finished b t).kmgr = t.kmgr := by
  show (State.deliver b t.collect).kmgr = t.kmgr
  rw [deliver_kmgr, collect_of_nil h]
theorem finished_ciph {b t : State} (h : t.raises = []) : (State.finished b t).ciph = t.ciph := by
  show (State.deliver b t.collect).ciph = t.ciph
  rw [deliver_ciph, collect_of_nil h]
theorem finished_pace {b t : State} (h : t.raises = []) : (State.finished b t).pace = t.pace := by
  show (State.deliver b t.collect).pace = t.pace
  rw [deliver_pace, collect_of_nil h]
theorem finished_ledg {b t : State} (h : t.raises = []) : (State.finished b t).ledg = t.ledg := by
  show (State.deliver b t.collect).ledg = t.ledg
  rw [deliver_ledg, collect_of_nil h]
theorem finished_level5 {b t : State} (h : t.raises = []) : (State.finished b t).level5 = t.level5 := by
  show (State.deliver b t.collect).level5 = t.level5
  rw [deliver_level5, collect_of_nil h]

end Sys2Proof.Machine
end

