-- ==== Sys2Proof/Laws/Guard.lean ====
section
/-! SUPPORT. What an accepted write and an allowed read do. -/
namespace Sys2Proof.Machine

/-- A write that passes the checks does what the register's effect says. -/
theorem regWrite_gone {s : State} {q : Req} {a : Nat} {v : Word} (hb : s.pageBusy a = false) (h : s.checkWrite q a v = (.go, s))
    (c : Cont) (fx : Word → State → State) : s.regWrite q a v c fx = s.regEffect q a v c (fun w t => (false, fx w t)) := by
  unfold State.regWrite State.regWriteHold
  rw [hb, if_neg Bool.false_ne_true, h]

/-- The lock of a page that is not set leaves the value written as it is. -/
theorem lockAdjust_open {s : State} {a : Nat} (h : s.flag (rPG_LOCK (a / 0x1000)) fPG_LOCK_lock = false) (v : Word) :
    s.lockAdjust a v = (v, s) := by
  unfold State.lockAdjust
  dsimp only
  rw [h, if_neg Bool.false_ne_true]

/-- An accepted write has the register's effect; it completes with status 0, or later where the effect holds its completion back. -/
theorem regWriteHold_accepted {s : State} {q : Req} {a : Nat} {v : Word} (h : s.accepts q a v) (c : Cont) (fx : Word → State → Bool × State) :
    s.regWriteHold q a v c fx = (if (fx v s).1 then none else some 0, (fx v s).2) := by
  obtain ⟨h0, h1, h2, h3, h4⟩ := h
  have h5 : ¬ (0xF0 ≤ a / 0x1000 ∧ 0x040 ≤ a % 0x1000) := by omega
  unfold State.regWriteHold
  rw [h0, if_neg Bool.false_ne_true, h1]
  unfold State.regEffect
  dsimp only
  rw [lockAdjust_open h2]
  simp only [Bool.and_eq_true, decide_eq_true_eq, h5, if_false]
  simp only [← Bool.and_eq_true, h4]
  rfl

/-- An accepted write has the register's effect and completes with status 0. -/
theorem writeReg_accepted {s : State} {q : Req} {a : Nat} {v : Word} (h : s.accepts q a v) (fx : Word → State → State) :
    s.writeReg q a v fx = (fx v s).wrote q 0 := by
  unfold State.writeReg State.regWrite
  rw [regWriteHold_accepted h]
  rfl

/-- A write to a register of the power die goes to the die and waits for its acknowledgement. -/
theorem writeReg_forwarded {s : State} {q : Req} {a : Nat} {v : Word} (h : s.forwards q a v) (fx : Word → State → State) :
    s.writeReg q a v fx = ({ s.emit (.die a v) with pdWrites := s.pdWrites ++ [⟨q, a, v, .done q⟩] } : State).hostWrote q := by
  obtain ⟨h0, h1, h2, h6, h3, h4, h5⟩ := h
  unfold State.writeReg
  rw [regWrite_gone h0 h1]
  unfold State.regEffect
  dsimp only
  rw [lockAdjust_open h2, h6, if_neg Bool.false_ne_true, if_pos (by simp [h3, h4]), h5, if_neg Bool.false_ne_true]
  rfl

/-- A write that the checks turn away completes with their status. -/
theorem writeReg_stopped {s t : State} {q : Req} {a : Nat} {v : Word} {st : Nat} (hb : s.pageBusy a = false)
    (h : s.checkWrite q a v = (.stop st, t)) (fx : Word → State → State) : s.writeReg q a v fx = t.wrote q st := by
  unfold State.writeReg State.regWrite State.regWriteHold
  rw [hb, if_neg Bool.false_ne_true, h]
  rfl

/-- An allowed read of an item answers it. -/
theorem rowRead_allowed {s : State} {q : Req} {a : Nat} {mp : Bool} (h : s.allowsRead q a mp) (wide : Bool) (rd : State → Nat × State) :
    s.rowRead q a mp wide rd = (rd s).2.done q 0 (leBytes (if wide then 8 else 4) (rd s).1) := by
  obtain ⟨h0, h1, h2⟩ := h
  have h3 : (decide (0x800 ≤ a % 0x1000) && populated (a / 0x1000) && !s.flag (rPG_CTRL (a / 0x1000)) fPG_CTRL_expert) = false := by
    rcases h2 with h2 | h2
    · simp [Nat.not_le.mpr h2]
    · simp [h2]
  unfold State.rowRead
  rw [h0, if_neg Bool.false_ne_true]
  unfold State.readItem
  rw [h1]
  dsimp only
  rw [h3, if_neg Bool.false_ne_true]
  rfl

/-- An allowed read that pops an item answers it. -/
theorem popRead_some {s s' : State} {q : Req} {a : Nat} {mp : Bool} (h : s.allowsRead q a mp) (wide : Bool) (empty n : Nat)
    (pop : State → Option (Nat × State)) (hp : pop s = some (n, s')) :
    s.popRead q a mp wide empty pop = s'.done q 0 (leBytes (if wide then 8 else 4) n) := by
  unfold State.popRead
  rw [rowRead_allowed h]
  simp only [popOr, hp, Option.getD_some]

/-- An allowed read of an empty queue answers the empty value. -/
theorem popRead_none {s : State} {q : Req} {a : Nat} {mp : Bool} (h : s.allowsRead q a mp) (wide : Bool) (empty : Nat)
    (pop : State → Option (Nat × State)) (hp : pop s = none) :
    s.popRead q a mp wide empty pop = s.done q 0 (leBytes (if wide then 8 else 4) empty) := by
  unfold State.popRead
  rw [rowRead_allowed h]
  simp only [popOr, hp, Option.getD_none]

/-- A unit of a gated island works while the hub is above L2. -/
theorem onField_runs {s : State} (h : s.fieldRuns = true) (f : State → State) : s.onField f = f s := by unfold State.onField; rw [if_pos h]

/-- A unit of a gated island does nothing in L2 and deeper (R532). -/
theorem onField_gated {s : State} (h : s.fieldRuns = false) (f : State → State) : s.onField f = s := by
  unfold State.onField; rw [if_neg (by rw [h]; decide)]

end Sys2Proof.Machine
end

