-- ==== Sys2Proof/Laws/Frames.lean ====
section
/-! SUPPORT. Frames: what an operation leaves alone, and that a register write changes no more than its effect and the refusal flags of its page. -/
namespace Sys2Proof.Machine

theorem bridgesSame.refl (s : State) : bridgesSame s s := fun _ => rfl
theorem bridgesSame.of_brs {s t : State} (h : t.brs = s.brs) : bridgesSame s t := fun b => by unfold State.br; rw [h]
theorem bridgesSame.trans {s t u : State} (h : bridgesSame s t) (k : bridgesSame t u) : bridgesSame s u := fun b => (k b).trans (h b)

/-- Dropping a read buffer leaves the rest of every bridge alone. -/
theorem bridgesSame.bufferDrop (s : State) (h : Nat) : bridgesSame s (s.bufferDrop h) := fun b => by
  unfold State.bufferDrop State.setBr State.br
  by_cases hb : b = h
  · subst hb; dsimp only; rw [spGet_spSet_same]
  · dsimp only; rw [spGet_spSet_ne _ _ _ hb]

theorem onlyRegs.refl (l) (s : State) : onlyRegs l s s := ⟨fun _ _ => rfl, .refl s, rfl⟩
theorem onlyRegs.trans {l l'} {s t u : State} (h : onlyRegs l s t) (k : onlyRegs l' t u) : onlyRegs (l ++ l') s u := by
  refine ⟨fun a ha => ?_, h.2.1.trans k.2.1, ?_⟩
  · simp at ha; rw [k.1 a ha.2, h.1 a ha.1]
  · rw [k.2.2, h.2.2]
theorem onlyRegs.mono {l l'} {s t : State} (h : onlyRegs l s t) (hl : ∀ a ∈ l, a ∈ l') : onlyRegs l' s t :=
  ⟨fun a ha => h.1 a (fun x => ha (hl a x)), h.2⟩
theorem onlyRegs.setReg (s : State) (a v) : onlyRegs [a] s (s.setReg a v) :=
  ⟨fun b hb => reg_setReg_ne s v (by simpa using hb), .of_brs rfl, rfl⟩
theorem onlyRegs.emit (s : State) (o l) : onlyRegs l s (s.emit o) := ⟨fun _ _ => rfl, .of_brs rfl, rfl⟩
theorem onlyRegs.hold (s : State) (q a op c l) : onlyRegs l s (s.hold q a op c) := ⟨fun _ _ => rfl, .of_brs rfl, rfl⟩
theorem onlyRegs.bufferDrop (s : State) (h l) : onlyRegs l s (s.bufferDrop h) := ⟨fun _ _ => rfl, .bufferDrop s h, rfl⟩
theorem onlyRegs.hostWrote (s : State) (q l) : onlyRegs l s (s.hostWrote q) := by
  unfold State.hostWrote; split
  · exact .bufferDrop _ _ _
  · exact .refl _ _
theorem onlyRegs.wrote {l} {s t : State} (h : onlyRegs l s t) (q n) : onlyRegs l s (t.wrote q n) :=
  ((h.trans (.hostWrote t q [])).trans (.emit _ _ [])).mono (by simp)
theorem onlyRegs.done {l} {s t : State} (h : onlyRegs l s t) (q n d) : onlyRegs l s (t.done q n d) :=
  (h.trans (.emit t _ [])).mono (by simp)
theorem onlyRegs.refuse (s : State) (p f) : onlyRegs (hdrRegs p) s (s.refuse p f) := by
  unfold State.refuse; split
  · exact .refl _ _
  · exact ((onlyRegs.setReg _ _ _).trans (onlyRegs.setReg _ _ _)).mono (by simp [hdrRegs])
theorem onlyRegs.fault (s : State) (e l) : onlyRegs l s (s.fault e) := ⟨fun _ _ => rfl, .of_brs rfl, rfl⟩
theorem onlyRegs.warn (s : State) (p) : onlyRegs (hdrRegs p) s (s.warn p) := (onlyRegs.setReg _ _ _).mono (by simp [hdrRegs])
theorem checkWrite_onlyRegs (s : State) (q a v) : onlyRegs (hdrRegs (a/0x1000)) s (s.checkWrite q a v).2 := by
  unfold State.checkWrite; dsimp only
  repeat' split
  all_goals first | exact .refl _ _ | exact .refuse _ _ _ | exact .fault _ _ _
theorem lockAdjust_onlyRegs (s : State) (a v) : onlyRegs (hdrRegs (a/0x1000)) s (s.lockAdjust a v).2 := by
  unfold State.lockAdjust; dsimp only
  repeat' split
  all_goals first | exact .refl _ _ | exact .refuse _ _ _

/-- What a write answers adds an output and may drop a read buffer. -/
theorem onlyRegs.answered {l} {s : State} {r : Option Nat × State} (h : onlyRegs l s r.2) (q) : onlyRegs l s (answered q r) := by
  unfold Machine.answered; split
  · exact h.wrote _ _
  · exact (h.trans (.hostWrote _ q [])).mono (by simp)

/-- A register write off the power die changes what its effect changes and the refusal flags of its page. -/
theorem writeReg_onlyRegs (s : State) (q : Req) (a : Nat) (v : Word) (l : List Nat) (fx : Word → State → State) (hd : ¬ (0xF0 ≤ a / 0x1000 ∧ 0x040 ≤ a % 0x1000))
   (hf : ∀ w t, onlyRegs l t (fx w t)) : onlyRegs (l ++ hdrRegs (a/0x1000)) s (s.writeReg q a v fx) := by
  have hc := checkWrite_onlyRegs s q a v
  have hd' : (decide (0xF0 ≤ a / 0x1000) && decide (0x040 ≤ a % 0x1000)) = false := by simpa using hd
  refine onlyRegs.answered ?_ q
  unfold State.regWrite State.regWriteHold
  split
  · exact .hold _ _ _ _ _ _
  · split
    · rename_i h; rw [h] at hc; exact hc.mono (by simp +contextual)
    · rename_i s' h
      rw [h] at hc
      have hl := hc.trans (lockAdjust_onlyRegs s' a v)
      unfold State.regEffect
      dsimp only
      rw [hd']
      simp only [Bool.false_eq_true, if_false]
      split
      · exact (hl.trans (.warn _ _)).mono (by simp +contextual)
      · exact (hl.trans (hf _ _)).mono (fun x hx => by simp at hx ⊢; exact hx.symm)

/-! ### The scrambler (R53) -/

/-- What a lane descrambles is what was scrambled, from the same history on. -/
theorem descramble_scramble : ∀ (l : List Bool) (h : BitVec 58), descramble h (scramble h l) = l
  | [], _ => rfl
  | d :: l, h => by
    simp only [scramble, descramble, scrambleBit, descrambleBit]
    rw [descramble_scramble l]
    cases d <;> cases h.getLsbD 38 <;> cases h.getLsbD 57 <;> rfl

end Sys2Proof.Machine
end

