-- ==== Sys2Proof/Tests/Slice0.lean ====
section
/-! SUPPORT. The model's own tests: ill-formed commands, the spec's worked examples, and for every obligation with premises a state and
operands that meet them (`witness_<statement>`, one clause per clause of the statement). An obligation that joins several statements has a
witness for each of its parts; the parts are named in NOTES.md. Where a premise asks for a verify code of 0, no closed state can show it,
since the vendor's key hash is an opaque constant of the chip (log entry 6); those two clauses of FirmwareUpdateActs have no witness. -/
open Sys2Proof Sys2Proof.Machine
namespace Sys2Proof.Tests
set_option Elab.async false
set_option maxRecDepth 20000
set_option linter.unusedVariables false

/-- Anise, a Warden. -/
def anise : Req := ⟨0, 0, 0⟩
/-- Host A, a Warden by the straps. -/
def hostA : Req := ⟨1, 0, 0⟩
/-- Host B, an Operator by the straps. -/
def hostB : Req := ⟨2, 0, 0⟩
/-- A node of the ring, a Guest. -/
def ringNode : Req := ⟨0x30, 5, 0⟩

/-- The reset state with some registers set. -/
def regs (l : List (Nat × Word)) : State := l.foldl (fun s e => s.setReg e.1 e.2) State.reset
/-- A page enabled. -/
def on (p : Nat) (s : State) : State := s.put (rPG_CTRL p) fPG_CTRL_enable 1
/-- A page enabled, with its expert bit set. -/
def onX (p : Nat) (s : State) : State := (on p s).put (rPG_CTRL p) fPG_CTRL_expert 1
/-- Port 1 of Ring A in a training state, with ring control and the ring on. -/
def port (n : Nat) : State := (on 0x28 (on 0x20 State.reset)).put (rRGA_PORT_STATE 0 1) fRGA_PORT_STATE_state n
/-- Ring control on, attachment 0 in a state. -/
def ring (n : Nat) : State := (on 0x28 State.reset).put (rRCTL_STATUS 0) fRCTL_STATUS_state n
/-- The state with ring control's own data of attachment 0 set. -/
def withRc (s : State) (c : RcSt) : State := s.setRc 0 c
/-- Port 1 of Ring A in UP at station 0 of ring 5. -/
def station : State := ((port pUp).put rRCTL_RING fRCTL_RING_ring_a 5).setRc 0 { numbered := true }
/-- A frame with no payload, on path 0. -/
def frame (dest src hops : Nat) : Frame := Frame.seal ⟨toW (hops * 2 ^ 16), toW (dest * 2 ^ 14), toW (src * 2 ^ 14), 0, 0, 0, []⟩
/-- A CLAIM of a ring. -/
def claim (c r : Nat) (ready : Bool) : ClaimMsg := { claim := c, ring := r, ready := ready, readyMaster := ready, master := 1 }

theorem own_withRc (s : State) (c : RcSt) : (withRc s c).ownClaim = s.ownClaim := by
  unfold State.ownClaim
  rw [show (withRc s c).get rRCTL_CFG fRCTL_CFG_priority = s.get rRCTL_CFG fRCTL_CFG_priority from rfl,
    show (withRc s c).uid = s.uid from rfl]
theorem own_best (s : State) : ((withRc s { best := s.ownClaim }).rc 0).best = (withRc s { best := s.ownClaim }).ownClaim := by
  rw [own_withRc]
  exact congrArg RcSt.best (spGet_spSet_same ..)
theorem uid_pop (s : State) (x c : Nat) : s.uid = (s.popInbox x c).uid := by
  unfold State.popInbox
  dsimp only
  split <;> rfl
theorem uid_pop_ne (s : State) (x c : Nat) : s.uid + 1 ≠ (s.popInbox x c).uid := by
  rw [← uid_pop]
  exact Nat.succ_ne_self _
theorem reset_canon : State.reset.Canon := by
  unfold State.Canon
  decide +kernel
/-- Translation of the page at 0x200000 onto itself, which also holds the backing store. -/
def mapped : State := { on 8 (regs [(rXLT_TABLE_BASE, 0x1C0000), (rXLT_TABLE_SIZE, 0x100000), (rXLT_ROOT 0, 0x1C0001), (rFLOW_BACK, 0x200000)]) with
  tlb := [⟨0x200, 0, 0x200071, 0⟩] }
/-- Flow 5 resident in context slot 0, of the class and role given. -/
def flow5 (cls role : Nat) : State :=
  (on 0x30 (regs [(rFLOW_ARG0, toW (cls * 2 ^ 28 + role * 2 ^ 30)), (rFLOW_BACK_SIZE, 16)])).createCtx 0 5
/-- Flow 5 of class 0, ready for admission to slot 0 of Ring A. -/
def timed : State :=
  ((((((((((flow5 0 0).setPinned 5 0 true).put (rTB_STATUS 0) fTB_STATUS_locked 1).put (rRCTL_STATUS 0) fRCTL_STATUS_ring_ready 1).put (rTTB_STATUS 0)
    fTTB_STATUS_valid 1).put (rTTB_STATUS 0) fTTB_STATUS_n 10).setTtBytes 0x50000 [0, 0, 0, 0x80]).setMapBit 0 0 true).setCtx 0 0x1C 15 0 1).setTtBytes (bankBase 0 0) [0]).put (rRCTL_STATUS 0) fRCTL_STATUS_station 0
/-- A frame of a flow, with the payload given, of class 1. -/
def queuedFrame (flow : Nat) (p : List Byte) : Frame := ⟨toW (2 ^ 26 + p.length), 0, 0, toW (flow * 2 ^ 16), 0, 0, p⟩
/-- A frame delivered at a port. -/
def delivered (f : Frame) : Delivered := { inp := 0, frame := f, discard := false, cipherDone := false }
/-- Time base 0 on, this hub master of ring 5 on Ring A and numbered. -/
def timeMaster : State :=
  ((((on 0x28 (on 0x40 State.reset)).put (rRCTL_STATUS 0) fRCTL_STATUS_state rcMaster).put (rRCTL_STATUS 0) fRCTL_STATUS_ring_ready 1).put
    (rRCTL_STATUS 0) fRCTL_STATUS_station 0).setRc 0 { numbered := true }
/-- DMA channel 0 on and allocated to Anise, in a state. -/
def channel (n : Nat) (s : State) : State := (((on 0x50 s).setReg (rDMAA_OWNER 0) 0).setChState 0 n)
/-- Event unit 0 in a mode. -/
def unit (mode edge : Nat) : State :=
  ((on 0x44 State.reset).put (rTSU_EVT_CFG 0) fTSU_EVT_CFG_mode mode).put (rTSU_EVT_CFG 0) fTSU_EVT_CFG_edge edge
/-- Host port A in quad-SPI mode. -/
def qspi : State := (on 0x68 State.reset).put (rHBx_CFG 0) fHBx_CFG_mode 1
/-- Host port A in PCI Express mode. -/
def pcie : State := (on 0x68 State.reset).put (rHBx_CFG 0) fHBx_CFG_mode 0
/-- A copy in progress: 64 octets from 0x200000 to 0x200800. -/
def copying : State := { (channel 2 mapped).setCur 0 0x200000 0x200800 64 with dmas := [(0, { desc := [0, 64, 0x200000, 0, 0x200800, 0, 0, 0], started := true })] }
/-- The octets its next burst reads, and the state after. -/
def copied : List Byte × State :=
  let r := copying.burstRead 0 0x200000 64 0x200000 []
  ((r.1.getD (0, [])).2, r.2)
/-- A frame of a kind on a flow, its payload beginning with the octets given. -/
def resp (kind flow : Nat) (p : List Byte) : Frame := ⟨toW (kind * 2 ^ 28 + 20), 0, 0, toW (flow * 2 ^ 16), 0, 0, p ++ List.replicate (20 - p.length) 0⟩
/-- Bridge 0 with one request outstanding, a read of 4 octets with tag 0. -/
def asking : State := State.reset.setBr 0 { outst := [⟨0, 2, 0, 0, 4, [], 31, 2, false, 0, none, 0, .host 0 0 0⟩] }
def asked : NpReq := ⟨0, 2, 0, 0, 4, [], 31, 2, false, 0, none, 0, .host 0 0 0⟩
/-- The polling engine runs. -/
def polling : State := (on 0x6A (regs [(rPOLL_TABLE, 0x200000), (rPOLL_COUNT, 1)])).put rPOLL_CTRL fPOLL_CTRL_run 1
/-- The heartbeat watch of host A works. -/
def watched (miss : Nat) : State :=
  (((on 5 State.reset).put (rARB_HB_CFG 0) fARB_HB_CFG_en 1).put (rARB_HB_CFG 0) fARB_HB_CFG_miss_count 3).put rARB_HB_STATUS (hbMissFld 0) miss
/-- Cluster 0's queue 0 on, with transmit and receive memory, and its pin page on. -/
def queue (w : Nat) : State := (on 0xB0 (on 0xB4 State.reset)).setReg (rFQ_QCFG 0 0) (toW w)
/-- UART 0 receives characters of 8 bits from the pin that carries its input. -/
def uart : State :=
  ((((on 0x80 (queue 0x80000400)).put (rUART_CFG 0) fUART_CFG_data_bits 8).put (rUART_CFG 0) fUART_CFG_rx_en 1).put (rUART_CFG 0) fUART_CFG_parity 0).put
    (rPMUX_PIN 0 0) fPMUX_PIN_function 0x11
/-- SPI unit 0 with a word to send in queue 4, of the width given. -/
def spi (n : Nat) : State :=
  ((on 0x98 (on 0xB4 State.reset)).setReg (rFQ_QCFG 0 4) (toW (0x80000000 + n * 256))).setFq 0 4 { tx := [⟨0x12, 1, true⟩] }
/-- I2C unit 0, a controller, with a command in queue 6 and more to come. -/
def iic (i : Nat) (going : Bool) : State :=
  ((((on 0xA0 (on 0xB4 State.reset)).setReg (rFQ_QCFG 0 6) 0x90000400).put (rIIC_CFG 0) fIIC_CFG_controller_en 1).setFq 0 6
    { tx := [⟨i, 2, false⟩, ⟨0, 2, true⟩] }).setUnit 0xA0 { inPacket := going, bus := going }
/-- I2C unit 0, a target that is addressed. -/
def iicTarget (credits : Nat) : State :=
  ((((on 0xA0 (on 0xB4 State.reset)).put (rIIC_CFG 0) fIIC_CFG_target_en 1).put (rIIC_CFG 0) fIIC_CFG_stretch_limit 255).setFq 0 6
    { credits := credits }).setUnit 0xA0 { addressed := true }
/-- CAN controller 0 on, with transmit words in queue 8. -/
def can (l : List FqWord) : State :=
  ((on 0x90 (on 0xB4 State.reset)).setReg (rFQ_QCFG 0 8) 0xA0000400).setFq 0 8 { tx := l }
theorem pair_of {α β : Type} (x : α × β) (a : α) (h : x.1 = a) : x = (a, x.2) := by
  subst h
  rfl
/-- Engine 0 on, with channel 0 running at an instruction. -/
def clove (w : Word) : State := ((on 0xA8 State.reset).setProg 0 0 0 w).setClv 0 0 { state := 1 }
/-- Engine 0 on, with channel 0 stalled in an instruction, after some edges. -/
def stalled (w : Word) (n left : Nat) : State := (on 0xA8 State.reset).setClv 0 0 { state := 2, instr := some w, turn := 1, edges := n, left := left }
/-- The queue mover of engine 0 with queue 16 on, in mover mode both ways, and one ring entry each way. -/
def mover (s : State) : State :=
  ((((((on 0xA8 (on 0xB4 s)).setReg (rFQ_QCFG 0 16) 0x80040400).put (rFQ_BIND 0 16) fFQ_BIND_rx_mode 2).put (rFQ_BIND 0 16) fFQ_BIND_tx_mode 2).setReg
    (rCLOV_MV_CFG 0 0) 0xC0000000).setReg (rCLOV_MV_RX 0 0) 1).setReg (rCLOV_MV_TX 0 0) 1
/-- A MAC on and receiving. -/
def mac (m : Nat) : State :=
  ((on (0x70 + m) State.reset).put (rxx_CFG m) fxx_CFG_rx_en 1).put (rPMUX_PIN (m - 1) 0) fPMUX_PIN_function 0x3C
/-- The mover with its rings at 0x200000, and a word to move. -/
def moving : State := ((mover (mapped.setClaim 44 { anise := 1 })).setReg (rCLOV_MV_BASE 0 0) 0x200000).setFq 0 16 { rx := [⟨1, 8, true⟩] }
/-- The Saffron store on, with key slot 1 valid and the counters loaded; the hub's unique ID is 0. -/
def store : State :=
  (on 0x4C ({ State.reset with regs := [(rCHIP_UID0, 0), (rCHIP_UID1, 0), (rCHIP_UID2, 0), (rCHIP_UID3, 0)] } : State)).setKey 1
    { st := 1, key := List.replicate 32 0 } |>.put rKEY_CTR_LOCK fKEY_CTR_LOCK_locked 1
/-- A revoke message of slot 8, with its tag under a key of zeros. -/
def message (restore : Bool) : KeyMsg :=
  ⟨false, true, [3, 1, 8, if restore then 1 else 0] ++ List.replicate 16 0 ++ [0, 0, 0, if restore then 0 else 1] ++ List.replicate 48 0 ++
    (if restore then [0x4a, 0x04, 0x10, 0x14, 0x28, 0x6b, 0x12, 0x83, 0xfd, 0x45, 0x07, 0x4a, 0x6e, 0x6d, 0x52, 0x76]
      else [0xfb, 0x9d, 0xd2, 0x1e, 0xd6, 0x82, 0xa3, 0xaf, 0x16, 0x0a, 0x4a, 0x62, 0x23, 0x5a, 0x51, 0xd0])⟩
/-- The state with a message at the head of the store's queue. -/
def asks (m : KeyMsg) (s : State) : State := { s with kmgr := { queue := [m] } }
/-- The use of key slot 8, a key of zeros in CTR mode. -/
def use8 : KeyUse := ⟨8, List.replicate 16 0, 2 ^ 30, false⟩
/-- The cipher engine on with a frame of flow 5 begun; key slot 8 valid. -/
def cipher (role : Nat) (d : Delivered) (u : Option KeyUse) : State :=
  ({ on 0x48 (flow5 1 role) with ciph := { frame := some ⟨d, 8, u⟩ } }.setKey 8 { st := 1 }).setCtx 0 0 8 0 0x108
/-- A frame of flow 5 at the cipher's port. -/
def plain (p : List Byte) : Delivered := delivered (queuedFrame 5 p)
/-- The hot-swap controller in a state, a feed valid and seated. -/
def hsIn (n : Nat) : State := { State.reset with pd := { valid := 1, pres := 1 } }.pdPut rPD_HS_STATUS fPD_HS_STATUS_state n
/-- The die link up. -/
def linked : State := ({ State.reset with regs := [] } : State).put rPD_LINK_STATUS fPD_LINK_STATUS_up 1
theorem linked_mirrors (a : Nat) (h : pdMirrored a = true) : linked.reg a = linked.pdReg a := by
  have h1 : a ≠ rPD_LINK_STATUS := by
    rintro rfl
    exact absurd h (by decide +kernel)
  unfold linked
  rw [reg_put, if_neg h1]
  rfl
/-- A firmware update block of one octet at 0x200000. -/
def block : State :=
  ((on 0xC0 (regs [(rFWU_BLK_ADDR, 0x200000)])).put rFWU_STATUS fFWU_STATUS_session_open 1).setBytes 0x200000
    [0x46, 0x57, 0x42, 0x4B, 0, 0, 0, 0, 0, 0, 0, 0, 0, 0, 0, 1, 0x52, 0x7d, 0x53, 0x51, 0, 0, 0, 0, 0]
/-- Slot A holds an image of no octets with the hash of none. -/
def emptyImage : State :=
  (State.reset.setBytes 0x2010000C [0, 0, 0, 0]).setBytes 0x20100020
    [227, 176, 196, 66, 152, 252, 28, 20, 154, 251, 244, 200, 153, 111, 185, 36, 39, 174, 65, 228, 100, 155, 147, 76, 164, 149, 153, 27, 120, 82, 184, 85]
/-- A mailbox request of host A with a code and a length, while Anise runs. -/
def mail (code n : Byte) : State :=
  ((on 0xC2 State.reset).put (rANI_MB_STATUS 0) fANI_MB_STATUS_busy 1).put rFWU_STATUS fFWU_STATUS_cumin 0 |>.setBytes (mbBase 0) [code, 0, 0, 0, n, 0, 0, 0]
/-- A handover that no rule refuses. -/
def ready (s : State) : State := ((on 0xC0 s).put rFWU_STATUS fFWU_STATUS_commit_ok 1).setBytes (slotBase s.inactiveSlot + 24) [0, 0, 255, 255]
/-- Event unit 0 captures edges of pin 0, which carries the event function. -/
def capture : State := (unit 1 3).put (rPMUX_PIN 0 0) fPMUX_PIN_function 3
/-- Every context slot occupied, a fetch of flow 5 asked for; paging on or off, some slots changed since their fetch. -/
def full (paging : Bool) (dirty : List (Nat × Bool)) : State :=
  { (on 0x30 State.reset).put rFLOW_CTRL fFLOW_CTRL_paging_en (b2n paging) with
    flw := { slots := (List.range 4096).map (fun k => (k, k + 1)), misses := [.fetch 5], dirty := dirty } }
theorem full_spGet (d : Nat → Nat) (k : Nat) : ∀ l : List Nat, k ∈ l → spGet d (l.map (fun k => (k, k + 1))) k = k + 1
  | a :: l, h => by
    by_cases e : a = k
    · simp [spGet, e]
    · rcases List.mem_cons.1 h with h | h
      · exact absurd h.symm e
      · simpa [spGet, e] using full_spGet d k l h
theorem full_freeSlot (b : Bool) (d : List (Nat × Bool)) : (full b d).freeSlot = none := by
  unfold State.freeSlot
  rw [List.find?_eq_none]
  intro k hk
  have h : (full b d).slotFlow k = some k := by
    unfold State.slotFlow
    rw [show (full b d).flw.slots = (List.range 4096).map (fun k => (k, k + 1)) from rfl, full_spGet _ k _ hk]
  simp [h]
/-- A time message at Anise's port that has crossed East of Ring A at instant 0, its payload beginning with the octets given. -/
def timeMsg (p : List Byte) : Delivered := { delivered (resp 7 0xF4F0 p) with rx := some (0, 0) }
/-- The same copy where the page holds no memory, and what its next burst reads. -/
def holed : State := { copying with tlb := [⟨0x200, 0, 0xFF071, 0⟩] }
def holedRead : (Nat × List Byte) × State :=
  let r := holed.burstRead 0 0x200000 64 0x200000 []
  (r.1.getD (0, []), r.2)
/-- A frame for queue 0 of cluster 0, of one word with one octet. -/
def fqFrame : Delivered :=
  { delivered { queuedFrame 5 [] with w0 := 8, payload := [0, 1, 0, 1, 7] } with held := some ⟨5, 1, false, 0, 10, 0, false⟩ }
/-- What the lookup of a frame of flow 5 took: its role, protected with key slot 8; and the frame with it at the cipher's port. -/
def ctx5 (role : Nat) : HeldCtx := ⟨5, role, true, 8, 7, 0, false⟩
def held5 (role : Nat) (p : List Byte) : Delivered := { plain p with held := some (ctx5 role) }
theorem straps_kept (s : State) (v : Word) (h : s.reg rCHIP_STRAPS = 0x100) :
    (s.setReg rXSPI_CS0_CFG v).flag rCHIP_STRAPS fCHIP_STRAPS_recover_n = true ∧ (s.setReg rXSPI_CS0_CFG v).bootSel = 0 := by
  unfold State.bootSel State.flag State.get
  rw [reg_setReg_ne s v (by decide), h]
  decide

/-! ## Ill-formed commands are refused, and the words of the table spell none -/

def req1 (master node att : Nat) : Req := ⟨master, node, att⟩

theorem test_wf_accepts : [Instr.registerWrite anise 0x93840 0x123, .hostRequest hostA 0x10093004 (.read 4 false), .blockReset ringNode 255 0,
    .slotFill 0 1 (2 ^ 20 - 1) 0, .flowCreate hostB 65535, .jump 3 15, .bypass 0x7F, .pollDue (2 ^ 64 - 1), .saveRestoreArea 1 []].all Instr.wf = true := by
  decide +kernel
theorem test_wf_requester : [Instr.blockReset (req1 3 0 0) 0 0, .blockReset (req1 0x0F 0 0) 0 0, .blockReset (req1 0x24 0 0) 0 0, .blockReset (req1 0x32 0 0) 0 0,
    .blockReset (req1 0x42 0 0) 0 0, .blockReset (req1 0x30 (2 ^ 18) 0) 0 0, .blockReset (req1 0x30 0 2) 0 0, .portEnable (req1 3 0 0) 0 0 0,
    .tsuArm (req1 3 0 0) 0, .pwrCmd (req1 3 0 0) 0].all (fun c => !c.wf) = true := by
  decide +kernel
theorem test_wf_pages : [Instr.blockReset anise 256 0, .blockEnable anise 256 0, .expertUnlock anise 256 0, .pgIrqForce anise 256 0, .pgFaultClear anise 256 0,
    .pgFaultInj anise 256 0, .pgClaim anise 256 0, .pgLock anise 256 0].all (fun c => !c.wf) = true := by
  decide +kernel
theorem test_wf_accesses : [Instr.registerWrite anise 0x100000 0, .registerWrite anise 0x93842 0, .hostRequest anise (2 ^ 64) (.read 4 false),
    .hostRequest anise 0 (.read 0 false), .hostRequest anise 0 (.write []), .contextDirectWrite anise 0x000FFFFF [0], .contextDirectWrite anise 0x0017FFFF [0, 0]].all
    (fun c => !c.wf) = true := by
  decide +kernel
theorem test_wf_ring : [Instr.slip 0 0 (2 ^ 16), .slotFill 0 0 (2 ^ 20) 0,
    .ringFrameReceived 0 0 { frame 0 0 0 with payload := List.replicate 1024 0 } 0 .clean 0, .frameIngress 0 (some { frame 0 0 0 with payload := List.replicate 1024 0 }),
    .claimReceived 0 0 (claim 0 0 false) 0 256, .claimReceived 0 0 (claim (2 ^ 144) 0 false) 0 0, .claimReceived 0 0 (claim 0 1024 false) 0 0,
    .claimReceived 0 0 { claim 0 0 false with master := 256 } 0 0, .countReceived 0 0 256 0 0, .countReceived 0 0 0 2 0, .countReceived 0 0 0 0 (2 ^ 128),
    .endReceived 0 0 256 0 0, .endReceived 0 0 0 2 0, .endReceived 0 0 0 0 (2 ^ 128)].all (fun c => !c.wf) = true := by
  decide +kernel
theorem test_wf_ring_messages : [Instr.numberReceived 0 0 ⟨256, 0, false, false, 0, 0, 0, 0⟩, .numberReceived 0 0 ⟨0, 2, false, false, 0, 0, 0, 0⟩,
    .numberReceived 0 0 ⟨0, 0, false, false, 2 ^ 128, 0, 0, 0⟩, .delayReqReceived 0 0 2 0 0, .delayReqReceived 0 0 0 (2 ^ 18) 0, .delayReqReceived 0 0 0 0 (2 ^ 64), .delayRespReceived 0 0 2 0 0 0 0,
    .delayRespReceived 0 0 0 (2 ^ 64) 0 0 0, .delayRespReceived 0 0 0 0 (2 ^ 64) 0 0, .delayRespReceived 0 0 0 0 0 (2 ^ 18) 0, .delayRespReceived 0 0 0 0 0 0 (2 ^ 64), .reportReceived 0 ⟨256, 0, 0, 0, 0, 0⟩,
    .reportReceived 0 ⟨0, 2 ^ 128, 0, 0, 0, 0⟩, .readyReceived 0 ⟨256, false, 0, 0, []⟩ 0, .readyReceived 0 ⟨1, false, 0, 0, [256]⟩ 0,
    .beaconReceived 0 ⟨2 ^ 144, 0, 0, 0, false⟩, .beaconReceived 0 ⟨0, 256, 0, 0, false⟩, .beaconReceived 0 ⟨0, 0, 256, 0, false⟩, .breakReceived 0 ⟨256, false, false⟩,
    .healedReceived 0 ⟨256, false, false⟩ 0 0, .joinReceived 0 256 0 0, .joinReceived 0 0 2 0, .joinReceived 0 0 0 (2 ^ 128), .assignReceived 0 256 0 0,
    .assignReceived 0 0 256 0, .assignReceived 0 0 0 (2 ^ 128), .demoteReceived 0 ⟨2 ^ 144, 0, 0, 0⟩, .demoteReceived 0 ⟨0, 256, 0, 0⟩, .vetoReceived 0 256,
    .resetMessage 0 256 0, .treeReceived 0 256 0, .treeReceived 0 0 1024, .epochBoundary [(4, List.replicate 12 0)], .epochBoundary [(0, [])]].all
    (fun c => !c.wf) = true := by
  decide +kernel
theorem test_wf_flows : [Instr.flowCreate anise 65536, .flowDelete anise 65536, .flowEnable anise 65536, .flowDisable anise 65536, .flowPin anise 65536,
    .flowUnpin anise 65536, .flowWriteBack anise 65536, .flowCmdComplete (some 16) false, .pagerWritebackDone (some 16), .pagerFetchDone (some 16), .pagerRetry 65536,
    .sysWindowUnprotect (2 ^ 18) 0, .sysWindowUnprotect 0 65536, .tableReceived 0 0 0 256 0 0 0 0 [], .tableReceived 0 0 0 0 0 0 0 0 (List.replicate 489 0),
    .rxFrameWrite 0 [(2 ^ 64, 0)], .tcOrphanTimeout (2 ^ 16), .timeMessageReceived 0 0 (frame 0 0 0) (2 ^ 64),
    .timeMessageReceived 0 0 { frame 0 0 0 with payload := List.replicate 1024 0 } 0, .tunnelReceived 0 0 { frame 0 0 0 with payload := List.replicate 1024 0 } 0].all (fun c => !c.wf) = true := by
  decide +kernel
theorem test_wf_hosts : [Instr.pcieRequest 0 0 0 0 (.read 513) true, .pcieRequest 0 0 0 0 (.write (List.replicate 257 0)) true, .pcieRequest 0 0 0 0 (.atomic 0 4 0 0) true,
    .pcieRequest 0 0 0 0 (.atomic 4 4 0 0) true, .pcieRequest 0 0 0 0 (.atomic 1 5 0 0) true, .pcieRequest 0 0 0 0 (.atomic 1 16 0 0) true, .qspiLocalRead 0 false false (2 ^ 32) 4,
    .qspiLocalRead 0 false false 0 (2 ^ 16), .qspiLocalWrite 0 false false (2 ^ 32) [], .qspiFabricRead 0 false (2 ^ 64) 4, .qspiFabricRead 0 false 0 (2 ^ 16),
    .qspiFabricPostedWrite 0 false (2 ^ 64) [], .qspiFabricNonpostedWrite 0 false (2 ^ 64) [], .qspiFabricAtomic 0 false (2 ^ 64) 1 4 0 0,
    .qspiFabricAtomic 0 false 0 4 4 0 0, .qspiFabricAtomic 0 false 0 1 5 0 0, .postedAckSend (2 ^ 18) 0, .postedAckSend 0 65536, .postedConfirmTimeout 0 (2 ^ 18),
    .pollDue (2 ^ 64), .responseCacheUnprotect (2 ^ 18) 0 0, .responseCacheUnprotect 0 65536 0, .responseCacheUnprotect 0 0 65536, .postedEntryAged 0 (2 ^ 18),
    .dmaBurst 0 [(2 ^ 64, 0)]].all (fun c => !c.wf) = true := by
  decide +kernel
theorem test_wf_field : [Instr.fqItemProduced 0 0 (2 ^ 32) false, .uartRxChar 0 512 false false false, .spiFrame 0 (2 ^ 32), .spiTargetFrame 0 (2 ^ 32), .i2cCommand 0 .ok 256,
    .i2cTargetByte 0 (.address false 256), .i2cTargetByte 0 (.written 256), .canRxFrame 0 (2 ^ 32) 0 false false [] 0, .canRxFrame 0 0 16 false false [] 0,
    .canRxFrame 0 0 15 false false (List.replicate 65 0) 0, .cloveEdgeSeen 0 0 (2 ^ 32), .macFrameReceived 0 [] false false 0 (some 16), .mdioDone 0 (2 ^ 16)].all
    (fun c => !c.wf) = true := by
  decide +kernel
theorem test_wf_power : [Instr.feedChange 0 true (2 ^ 16), .supplyDip 0 (some (2 ^ 16)) 0, .mirrorCompare [(0xEF040, 0)], .mirrorCompare [(0xF003C, 0)], .mirrorCompare [(0xF0042, 0)],
    .mirrorCompare [(0xF8040, 0)], .dieLinkPush false [(0xF8040, 0)], .faultEvent 0 256 0 0 0 0 0, .faultEvent 0 0 256 0 0 0 0, .faultEvent 0 0 0 (2 ^ 18) 0 0 0,
    .faultEvent 0 0 0 0 8 0 0, .faultEvent 0 0 0 0 0 256 0, .faultEvent 0 0 0 0 0 0 (2 ^ 64), .errorPairEqual 0 256, .errorPairStuck 0 256, .ledgerFlushDone (some 0x10000),
    .refclkFault (some (2 ^ 16)), .chipTempHigh (2 ^ 16), .applyConfiguration 0 true [(0x100000, 0)], .applyConfiguration 0 true [(2, 0)], .bypass 6].all
    (fun c => !c.wf) = true := by
  decide +kernel
theorem test_wf_restore_area : (Instr.saveRestoreArea 0 (List.replicate 0xC001 0)).wf = false := by
  rw [Instr.wf, List.length_replicate]
  rfl
theorem test_no_word_spells_a_command : [(0, 0), (8, 0), (16, 0xFFFF), (32, 0xFFFFFFFF)].all (fun e => decodeTableWord e.1 e.2 = none) = true := by decide +kernel

/-! ## The spec's own worked examples and published check values, one command at a time -/

/-- The state after a command, where it answers one. -/
def after (c : Instr) (s : State) : State :=
  match exec c s with
  | .next t => t
  | _ => State.reset
/-- What left the hub last. -/
def last (s : State) : Option Out := s.out.head?
/-- Host A at Operator level with the accepted claim of CAN controller 3, whose page 0x93 is enabled. -/
def worked2 : State := after (.pgClaim hostA 0x93 0x01000010) (on 0x93 (regs [(rXLT_LEVEL, 5)]))

-- The published check values, over the digits 1 to 9, of the parameters that R65 and R66 give: CRC-16/CCITT-FALSE and CRC-32C.
theorem test_crc16 : crc16 [0x31, 0x32, 0x33, 0x34, 0x35, 0x36, 0x37, 0x38, 0x39] = 0x29B1 := by decide +kernel
theorem test_crc32c : crc32c [0x31, 0x32, 0x33, 0x34, 0x35, 0x36, 0x37, 0x38, 0x39] = 0xE3069283 := by decide +kernel
-- R251: the check value of the CRC-8.
theorem test_crc8 : crc8 [0x31, 0x32, 0x33, 0x34, 0x35, 0x36, 0x37, 0x38, 0x39] = 0x4B := by decide +kernel
-- R250: a fabric read of 4 octets at 0x12345678 on the wire, its address most significant octet first; a flipped bit spoils the CRC-8.
theorem test_qspi_frame : ((qspiOctets (.qspiFabricRead 0 false 0x12345678 4)).getD []).take 10 = [3, 0, 0, 0, 0, 0x12, 0x34, 0x56, 0x78, 4] ∧
    qspiCommand 0 false ((qspiOctets (.qspiFabricRead 0 false 0x12345678 4)).getD []) = some (.qspiFabricRead 0 false 0x12345678 4) ∧
    qspiCommand 0 false [3, 0, 0, 0, 0, 0x12, 0x34, 0x56, 0x78, 4, 0] = some (.qspiFabricRead 0 true 0x12345678 4) := by decide +kernel
-- FIPS 197, appendix C.1 and C.3.
theorem test_aes128 : aes (schedule ((List.range 16).map toB)) ((List.range 16).map (fun i => toB (17 * i))) =
    [0x69, 0xc4, 0xe0, 0xd8, 0x6a, 0x7b, 0x04, 0x30, 0xd8, 0xcd, 0xb7, 0x80, 0x70, 0xb4, 0xc5, 0x5a] := by decide +kernel
theorem test_aes256 : aes (schedule ((List.range 32).map toB)) ((List.range 16).map (fun i => toB (17 * i))) =
    [0x8e, 0xa2, 0xb7, 0xca, 0x51, 0x67, 0x45, 0xbf, 0xea, 0xfc, 0x49, 0x90, 0x4b, 0x49, 0x60, 0x89] := by decide +kernel
-- RFC 4493, example 1: CMAC of the empty message.
theorem test_cmac : cmac (schedule [0x2b, 0x7e, 0x15, 0x16, 0x28, 0xae, 0xd2, 0xa6, 0xab, 0xf7, 0x15, 0x88, 0x09, 0xcf, 0x4f, 0x3c]) [] =
    [0xbb, 0x1d, 0x69, 0x29, 0xe9, 0x59, 0x37, 0x28, 0x7f, 0xa3, 0x7d, 0x12, 0x9b, 0x75, 0x67, 0x46] := by decide +kernel
-- GCM test case 1: no data, a key of zeros.
theorem test_gcm : gcmTag (schedule (List.replicate 16 0)) (List.replicate 12 0) [] [] =
    [0x58, 0xe2, 0xfc, 0xce, 0xfa, 0x7e, 0x30, 0x61, 0x36, 0x7f, 0x1d, 0x57, 0xa4, 0xe7, 0x45, 0x5a] := by decide +kernel

-- Address space, worked example: expert access to a CAN FD controller.
theorem test_expert_refused : (after (.registerWrite hostA 0x93840 0x123) worked2).reg 0x93840 = worked2.reg 0x93840 ∧
    last (after (.hostRequest hostA 0x10093008 (.read 4 false)) (after (.registerWrite hostA 0x93840 0x123) worked2)) =
      some (.done hostA 0 [0x11, 0, 0, 1]) := by decide +kernel
theorem test_expert_unlock : (after (.expertUnlock hostA 0x93 0x5A05) worked2).flag (rPG_CTRL 0x93) fPG_CTRL_expert = true ∧
    last (after (.registerWrite hostA 0x93840 0x123) (after (.expertUnlock hostA 0x93 0x5A05) worked2)) = some (.done hostA 0 []) ∧
    (after (.expertUnlock hostA 0x93 0xA505) worked2).flag (rPG_CTRL 0x93) fPG_CTRL_expert = false := by decide +kernel

/-- A frame that has crossed a hub, with its residence in nanoseconds and the link delay before it in 0.1 ns. -/
def crossed (f : Frame) (res link : Int) : Frame := ((forwardFrame f link).addCorrection (res * 65536)).seal
-- Ring links, worked example: the door frame crossing station 13.
def door : Frame := mkFrame 0 0 0 1 9 3 0x50C 0x42 0x1F3A (List.replicate 32 0)
theorem test_door_frame : door.w0 = 0x01090020 ∧ door.w1 = 0x0000C000 ∧ door.w2 = 0x01430000 ∧ door.w3 = 0x00421F3A ∧ door.w4 = 0 ∧
    (crossed door 100 0).w0 = 0x01080020 ∧ (crossed door 100 0).w1 = 0x0000C000 ∧ (crossed door 100 0).w4 = 0x64 ∧
    (crossed door 100 0).w5.toNat / 65536 = 0 ∧ (crossed door 100 0).trailer = door.trailer := by decide +kernel

-- Ring operation, worked example: numbering a five-station ring.
def numberingState : State :=
  ((State.reset.put (rRGA_PORT_DELAY 0 1) fRGA_PORT_DELAY_delay_max 1120).put (rRGA_PORT_DELAY 0 0) fRGA_PORT_DELAY_delay_max 1120).setRc 0
    { numbered := true, count := 5, linkW := some 8753, linkE := some 12500,
      reports := [⟨1, 0, 13620, 0, 0, 0⟩, ⟨2, 0, 17844, 0, 0, 0⟩, ⟨3, 0, 39415, 0, 0, 0⟩, ⟨4, 0, 41522, 0, 0, 0⟩] }
theorem test_numbering : (numberingState.computePads 0).1 = true ∧ nthD (numberingState.computePads 0).2.1 0 0 / 16 = 12 ∧
    (numberingState.computePads 0).2.2.1 = 51 := by decide +kernel

-- Fabric, worked example: aiming a door cell at input 0 for output 4 in round 3: send round 9, middle 9, exit round 11.
theorem test_aim : (State.reset.aim 0 4 3).1 = some (9, 9, 11) ∧ exitRound 3 4 3 = 17 ∧ exitRound 4 4 4 = 16 ∧ exitRound 8 4 8 = 12 ∧
    exitRound 10 4 10 = 26 := by decide +kernel

-- Fabric, worked example: a VCORE sag. The card runs at code 11 with loop_en.
def sagging : State :=
  ((State.reset.put rPACE_CTRL fPACE_CTRL_loop_en 1).put rPACE_CODE fPACE_CODE_code 11)
theorem test_sag : let t := after (.paceOutOfTurn 912 900) sagging
    t.pace.shed = 1 ∧ t.paceCode = 12 ∧ t.pace.settling = true ∧ t.get rPACE_CODE fPACE_CODE_shed_level = 1 := by decide +kernel

-- Flows, worked example: the entry and context of the door flow, and the miss of flow 0x2310.
theorem test_index_entry : entState 0x710000A7 = 1 ∧ entPinned 0x710000A7 = true ∧ entEnabled 0x710000A7 = true ∧ entSlot 0x710000A7 = 0xA7 ∧
    entAddr 0x42 = 0x00180108 ∧ ctxAddr 0xA7 = 0x00105380 ∧ entState 0x98002310 = 2 ∧ entLoc 0x98002310 = 0x2310 := by decide +kernel
theorem test_context_words : let s := (State.reset.setWord (ctxAddr 0xA7) 0x00424D21).setWord (ctxAddr 0xA7 + 8) 0x0000C402
    s.ctxFlow 0xA7 = 0x42 ∧ s.ctxRole 0xA7 = 1 ∧ s.ctxClass 0xA7 = 0 ∧ s.ctxEnabled 0xA7 = true ∧ s.ctxPinned 0xA7 = true ∧ s.ctxKeyEn 0xA7 = true ∧
    s.ctxKey 0xA7 = 0x21 ∧ s.ctxPort 0xA7 = 4 ∧ s.ctxQueue 0xA7 = 2 := by decide +kernel
theorem test_backing_address : (regs [(rFLOW_BACK, 0x31000000)]).backAddr 0x2310 = 0x31118800 ∧ (regs [(rFLOW_BACK, 0x31000000)]).backAddr 0x1B07 = 0x310D8380 := by
  decide +kernel
theorem test_miss_marks_moving : ((State.reset.setWord (entAddr 0x2310) 0x98002310).miss 0x2310).ent 0x2310 = 0xD8002310 := by decide +kernel

-- Timetable, worked example: the slot list entries, and the spacing of arrivals.
theorem test_slot_entries : slotEntOf 0x820004B0 = { slotEntOf 0 with last := true, arrive := false, att := 0, span := 2, sender := 0, slot := 1200 } ∧
    slotEntOf 0x422504B0 = { slotEntOf 0 with last := false, arrive := true, att := 0, span := 2, sender := 37, slot := 1200 } ∧
    slotEntOf 0xA2000280 = { slotEntOf 0 with last := true, arrive := false, att := 1, span := 2, sender := 0, slot := 640 } ∧
    slotEntOf 0xC2090280 = { slotEntOf 0 with last := true, arrive := true, att := 0, span := 2, sender := 9, slot := 640 } := by decide +kernel
theorem test_spacing : rangesMeet 2048 600 20 640 22 = false ∧ rangesMeet 2048 1096 20 640 22 = false ∧ rangesMeet 2048 600 20 1136 22 = false ∧
    rangesMeet 2048 621 20 640 22 = true := by decide +kernel

-- Time bases, worked example: an offset at station 3. The corrections at station 1 and 2, and the offset of 32.5 ns.
def syncFrame : Frame := ((mkFrame 7 1 0 1 3 0x5FF 0x500 0xF4F0 0 ([1, 1, 1, 0] ++ beBytes 8 0 ++ beBytes 6 1000 ++ beBytes 4 500000000 ++ [0, 0] ++ List.replicate 16 0)).addCorrection
  (1850 * 65536)).seal
theorem test_correction : syncFrame.w4 = 0x73A ∧ (crossed syncFrame 112 12500).w4 = 0xC8C ∧
    (crossed (crossed syncFrame 112 12500) 112 3104).w4 = 0xE32 ∧
    (crossed (crossed syncFrame 112 12500) 112 3104).w5.toNat / 65536 = 0x6666 := by decide +kernel
theorem test_offset : ((State.reset.setRc 0 { linkW := some 20451 }).timeOffset 0 1 (crossed (crossed syncFrame 112 12500) 112 3104) 1000500005712) =
    21299204 := by decide +kernel
-- The offset of 32.5 ns removed over one epoch of 107,374,182.4 ns, by R230 rounded to 2^-40 ns: 1,331,200 units (the example's 1,331,197 comes from
-- its own rounding of the rate to five digits; log entry 48); y is 32.5 / (4 * 107,374,182.4).
theorem test_servo : let s := ({ (on 0x40 (State.reset.put (rTB_STATUS 0) fTB_STATUS_step_used 1)) with servo := { sum := 21299200, n := 1 } } : State).servoUpdate
    (s.base 0).inc = 0x40000000000 - 1331200 ∧ s.servo.y.num * 4294967296 = 325 * s.servo.y.den := by decide +kernel

-- Bridge, worked example: the failure log entry of the posted write, and the window halted.
def failed : State := (on 0x68 (regs [(rHBx_WIN_ATTR 0 0, 0xA5800000)])).pweLog 0 0 2 0 0x35 0x00000C3010000850 0 0x210 1
theorem test_pwe : failed.reg (rHBx_PWE 0 0 0) = 0x00350120 ∧ failed.reg (rHBx_PWE 0 0 1) = 0x10000850 ∧ failed.reg (rHBx_PWE 0 0 2) = 0x00000C30 ∧
    failed.flag (rHBx_WIN_ATTR 0 0) fHBx_WIN_ATTR_halted = true := by decide +kernel

-- Arbiter, worked example: the third window without a beat forces host A; host B owns page 0x83.
def contested : State := ({ watched 2 with beats := [] } : State).setClaim 7 { hostA := 0x01000010, hostB := 0x01000008 }
theorem test_takeover : (contested.claim 7).own = .owned 1 0 ∧ ((after (.heartbeatWindowEnd 0) contested).claim 7).own = .owned 2 0 ∧
    (after (.heartbeatWindowEnd 0) contested).flag rARB_HB_STATUS (hbForcedFld 0) = true := by decide +kernel
-- Step 8: an equal claim is in conflict; step 9: a unique largest claim owns.
theorem test_equal_claim : ({ hostA := 0x01000008, hostB := 0x01000008 } : ClaimSt).own ∉ [.owned 1 0, .owned 2 0] ∧
    ({ hostA := 0x01000008, hostB := 0x02000008 } : ClaimSt).own = .owned 2 0 := by decide +kernel

-- Protection, worked example: the walk for 0x0080_2000 in space 1.
def mapped10 : State := ((regs [(rXLT_TABLE_BASE, 0x1C0000), (rXLT_TABLE_SIZE, 0x140000), (rXLT_ROOT 1, 0x1C0001)]).setWord 0x1C0020 0x1C4001).setWord 0x1C4010 0x00242111
theorem test_walk : mapped10.walk 1 0x802000 = (0, 0x00242111, 0) := by decide +kernel
-- R290, R502: the entry's upper word was found uncorrectable, and reads as all ones until it is rewritten.
theorem test_walk_bad : ((mapped10.sramFault 0x1C4016).walk 1 0x802000).1 = 10 ∧ ((mapped10.sramFault 0x1C4016).setWord 0x1C4014 0).walk 1 0x802000 = (0, 0x00242111, 0) := by
  decide +kernel

-- R317, R320, R321: a GPIO output that the pin inverts still shows its bit of PMUX_GPIO_OUT, and its rise is an edge.
theorem test_gpio_output : let s := ((((on 0xB0 State.reset).setReg (rPMUX_PIN 0 5) 0x00080001).setReg (rPMUX_GPIO_OE 0) 0x20).put (rPMUX_BANK 0)
      fPMUX_BANK_supply_ok 1).setReg (rPMUX_GPIO_RISE_EN 0) 0x20
    (s.gpioIn 0, (gpioSetFx 0 0x20 s).gpioIn 0, (gpioSetFx 0 0x20 s).reg (rPMUX_GPIO_EDGE 0)) = (0, 0x20, 0x20) := by decide +kernel

-- R348: least significant bit first.
theorem test_spi_order : (State.reset.put (rSPI_CFG 0) fSPI_CFG_lsb_first 1).spiOrder 0 0x1B = 0xD8 := by decide +kernel

-- Field queues, worked example: a 16-bit channel read by register. Items 1 to 6 of queue 18, then status, pops and close_rx.
def given : State :=
  let s := after (.fqQcfgWrite hostA 1 18 0x98101000) (on 0xB5 State.reset)
  (((((s.fqPut 1 18 0x1A2B false).fqPut 1 18 0x3C4D false).fqPut 1 18 0x5E6F false).fqPut 1 18 0x7081 false).fqPut 1 18 0x92A3 true).fqPut 1 18 0xB4C5 false
theorem test_fq_words : (given.fq 1 18).rx = [⟨0x70815E6F3C4D1A2B, 8, false⟩, ⟨0x92A3, 2, true⟩] ∧ (given.fq 1 18).credits = 8 ∧
    last (after (.hostRequest hostA 0x100B5248 (.read 4 false)) given) = some (.done hostA 0 [0x08, 0x10, 0x02, 0x01]) := by decide +kernel
theorem test_fq_pop : last (after (.fqPop hostA 1 18 false) given) = some (.done hostA 0 [0x08, 0, 0, 1]) ∧
    last (after (.hostRequest hostA 0x100B5310 (.read 8 false)) (after (.fqPop hostA 1 18 false) given)) =
      some (.done hostA 0 [0x2B, 0x1A, 0x4D, 0x3C, 0x6F, 0x5E, 0x81, 0x70]) := by decide +kernel
theorem test_fq_close : ((after (.fqCloseRx hostA 1 0x112) given).fq 1 18).rx.getLast? = some ⟨0xB4C5, 2, true⟩ := by decide +kernel

-- CAN, worked example: one FD frame out. Buffers 0 and 1 hold identifiers 0x300 and 0x080.
def canLoaded : State :=
  let s := ((onX 0x93 (on 0xB5 State.reset)).setReg (rFQ_QCFG 1 9) 0xA0000400).put (rCANF_CFG 3) fCANF_CFG_fd_en 1
  let s := (s.setFq 1 9 { tx := [⟨0xE0090042248C0000, 8, false⟩, ⟨0x0807060504030201, 8, false⟩, ⟨0x0C0B0A09, 4, true⟩] }).setCan 3
    { s.can 3 with buf0 := ⟨0x300 * 2 ^ 18, 0, []⟩, buf1 := ⟨0x080 * 2 ^ 18, 0, []⟩ }
  after (.canTxLoad 3) ((s.setReg (rCANF_TXB 3 0) 0x40000000).setReg (rCANF_TXB 3 1) 0x40000000)
theorem test_can_load : canLoaded.reg (rCANF_TXB 3 2) = 0x40000042 ∧ canLoaded.canPick 3 = some 1 ∧ canId 0x248C0000 = 0x123 * 2 ^ 18 ∧ canFdf 0x248C0000 = true ∧
    ctlBuf 0xE0090042 = 3 ∧ ctlBrs 0xE0090042 = true ∧ canLen true false (ctlDlc 0xE0090042) = 12 := by decide +kernel

-- Clove engines, worked examples: words of the Manchester receiver and of the encoder counter.
theorem test_clove_loadc : (after (.loadc 0 0) (clove 0x38000810)).clvScratch1 0 0 = 16 ∧
    (after (.loadc 0 0) ((clove 0x38000C00).setClvScratch0 0 0 0xCB7)).clvCounter 0 0 = 0xCB7 := by decide +kernel
theorem test_clove_count : ((after (.count 0 0) ((clove 0x0800000D).setClvCounter 0 0 2)).clv 0 0).pc = 0xD ∧
    ((after (.count 0 0) ((clove 0x0800000D).setClvCounter 0 0 1)).clv 0 0).pc = 1 ∧
    ((after (.count 0 0) (clove 0x08000450)).clv 0 0).pc = 0x50 ∧ (after (.count 0 0) (clove 0x08000450)).clvScratch0 0 0 = 0xFFFF ∧
    (after (.count 0 0) (clove 0x08000860)).clvScratch1 0 0 = 0xFFFF := by decide +kernel
theorem test_clove_jump_exch : ((after (.jump 0 0) (clove 0x0000000F)).clv 0 0).pc = 0xF ∧
    (after (.exch 0 0) ((clove 0x30000004).setClvScratch1 0 0 16)).clvCounter 0 0 = 16 := by decide +kernel
theorem test_clove_give : let s := after (.give 0 0) (((clove 0x88000104).setClvSi 0 0 0xA5C3).setReg (rFQ_QCFG 0 16) 0x98101000)
    (s.fq 0 16).hold = [(0xA5C3, true)] ∧ s.clvSi 0 0 = 0 := by decide +kernel

-- Cipher, worked example: the attributes of slots 0x20, 0x21 and 0x30.
theorem test_attributes : attrParent 0xFF00000010800000 = 0xFF ∧ attrUses 0xFF00000010800000 = 0 ∧ attrKey256 0xFF00000010800000 = true ∧
    attrParent 0x2000000014300000 = 0x20 ∧ attrKey256 0x2000000014300000 = true ∧ attrKey256 0x2000000002300000 = false ∧
    [0xFF00000010800000, 0x2000000014300000, 0x2000000002300000].all (fun a => !attrBad a) = true := by decide +kernel

-- Power die, worked example: a trip, and a re-insertion during the cool-down: PD_HS_FAULT reads 0x11.
theorem test_trip : let s := after .hotswapTrip ((hsIn hsOn).pdPut rPD_HS_STATUS fPD_HS_STATUS_in_limit 1)
    let t := after (.presenceChange 0 true) (after (.presenceChange 0 false) s)
    t.hs = hsCool ∧ t.pdReg rPD_HS_FAULT = 0x11 ∧ t.pdGet rPD_HS_STATUS fPD_HS_STATUS_retry_count = 1 := by decide +kernel

-- Faults, worked example: an escalated bridge failure and its entry.
/-- The state after two failures, each reported by the command given, 400 µs apart. -/
def escalated (c : Instr) : State :=
  let s := { regs [(rLEDG_CFG, 2), (rLEDG_NEXT_NUM, 0x00013A07)] with bases := [(0, { sec := 1700000000, ns := 249600400 })] }
  let s := after c ((on 0x68 (s.put rLEDG_CFG fLEDG_CFG_fault_level 2)).setLocked true)
  after c { s with bases := [(0, { sec := 1700000000, ns := 250000400 })] }
theorem test_capture : let s := escalated (.faultEvent 38 0x68 1 0 1 4 0x00000C3010000850)
    s.reg (rFLT_CAP 2 0) = 0x80260120 ∧ s.reg (rFLT_CAP 2 1) = 4 ∧ s.reg (rFLT_CAP 2 2) = 0x10000850 ∧
    s.reg (rFLT_CAP 2 3) = 0xC30 ∧ s.reg (rFLT_CAP 2 7) = 1 ∧ s.reg rFLT_PENDING = 0x00040004 := by decide +kernel
theorem test_entry : (escalated (.faultEvent 38 0x68 1 0 1 4 0x00000C3010000850)).bytes stagingBase 24 =
    [0x20, 0x01, 0x26, 0x12, 0x00, 0x01, 0x3A, 0x07, 0x00, 0x00, 0x65, 0x53, 0xF1, 0x00, 0x0E, 0xE6, 0xB4, 0x10, 0x01, 0x10, 0x10, 0x00, 0x08, 0x50] := by
  decide +kernel

-- Firmware update, worked example: the last fragment of a block begins 0x0007_0092, 0x0003_0000, 0x0100_0000, 0x0093_0000.
theorem test_fragment : (fwFragment [] 7 0x30000 0x10000 0x92 0x93).take 16 =
    [0x00, 0x07, 0x00, 0x92, 0x00, 0x03, 0x00, 0x00, 0x01, 0x00, 0x00, 0x00, 0x00, 0x93, 0x00, 0x00] := by decide +kernel

/-! ## Premises, part 1 -/

theorem witness_TrainingFollowsItsEvents :
  (∃ s : State, ∃ r : Fin 2, ∃ p : Fin 2, ∃ q : Req, ∃ v : Word, s.accepts q (rRGA_PORT_CTRL r p) v ∧ s.flag (rRGA_PORT_CTRL r p) fRGA_PORT_CTRL_enable = false ∧ (s.store (rRGA_PORT_CTRL r p) v).flag (rRGA_PORT_CTRL r p) fRGA_PORT_CTRL_enable = true ∧ (s.store (rRGA_PORT_CTRL r p) v).enabled (ringPage r) = true) ∧
  (∃ s : State, ∃ r : Fin 2, ∃ p : Fin 2, ∃ b0 : Byte, ∃ b12 : Byte, s.portState r p = pModule ∧ s.moduleOk r p b0 b12 = true) ∧
  (∃ s : State, ∃ r : Fin 2, ∃ p : Fin 2, s.portState r p = pModule) ∧
  (∃ s : State, ∃ r : Fin 2, ∃ p : Fin 2, s.portState r p = pWake) ∧
  (∃ s : State, ∃ r : Fin 2, ∃ p : Fin 2, (s.portState r p = pWake ∨ s.portState r p = pLock ∨ s.portState r p = pAlign)) ∧
  (∃ s : State, ∃ r : Fin 2, ∃ p : Fin 2, s.portState r p = pLock) ∧
  (∃ s : State, ∃ r : Fin 2, ∃ p : Fin 2, s.portState r p = pAlign ∧ (s.port r p).peerReady = true) ∧
  (∃ s : State, ∃ r : Fin 2, ∃ p : Fin 2, s.portState r p = pDown) :=
  ⟨⟨on 0x20 State.reset, 0, 1, anise, 1, by and_intros <;> decide +kernel⟩,
   ⟨port pModule, 0, 1, 3, 103, by and_intros <;> decide +kernel⟩,
   ⟨port pModule, 0, 1, (by decide +kernel)⟩,
   ⟨port pWake, 0, 1, (by decide +kernel)⟩,
   ⟨port pAlign, 0, 1, (by decide +kernel)⟩,
   ⟨port pLock, 0, 1, (by decide +kernel)⟩,
   ⟨(port pAlign).setPort 0 1 { peerReady := true }, 0, 1, by and_intros <;> decide +kernel⟩,
   ⟨port pDown, 0, 1, (by decide +kernel)⟩⟩

theorem witness_PortLeavesUp :
  (∃ s : State, ∃ r : Fin 2, ∃ p : Fin 2, s.isUp r p = true) ∧
  (∃ s : State, ∃ r : Fin 2, ∃ p : Fin 2, ∃ w : BerWindow, s.isUp r p = true ∧ berLimit ≤ w.bad ∧ bitOf (s.reg (rRGA_PORT_TEST r p)) 1 = false) ∧
  (∃ s : State, ∃ r : Fin 2, ∃ p : Fin 2, ∃ o : OrdSet, ∃ t : Train, s.isUp r p = true ∧ o.kind = .train t) ∧
  (∃ s : State, ∃ r : Fin 2, ∃ p : Fin 2, ∃ fill : Nat, let s1 := s.put (rRGA_PORT_STATE r p) fRGA_PORT_STATE_elastic_now fill; s1.isUp r p = true ∧ (s1.noteDelay r p).isUp r p = true ∧ (s1.noteDelay r p).flag (rRGA_STATUS r) fRGA_STATUS_tx_clock_locked = true ∧ s1.fillSet r p + 2 < fill) ∧
  (∃ s : State, ∃ r : Fin 2, ∃ p : Fin 2, ∃ q : Req, ∃ v : Word, s.accepts q (rRGA_PORT_CMD r p) v ∧ bitOf v 0 = true ∧ s.isUp r p = true) ∧
  (∃ s : State, ∃ r : Fin 2, ∃ p : Fin 2, (s.port r p).modAbs = false ∧ s.portState r p = pWake) :=
  ⟨⟨port pUp, 0, 1, (by decide +kernel)⟩,
   ⟨port pUp, 0, 1, ⟨berLimit, 0⟩, by and_intros <;> decide +kernel⟩,
   ⟨port pUp, 0, 1, (Train.ordSet ⟨false, 1, 0, true, true⟩), ⟨false, 1, 0, true, true⟩, by and_intros <;> decide +kernel⟩,
   ⟨(port pUp).put (rRGA_STATUS 0) fRGA_STATUS_tx_clock_locked 1, 0, 1, 15, by and_intros <;> decide +kernel⟩,
   ⟨on 0x20 (on 0x22 (port pUp)), 0, 1, anise, 1, by and_intros <;> decide +kernel⟩,
   ⟨port pWake, 0, 1, by and_intros <;> decide +kernel⟩⟩

theorem witness_RemoteFaultKeepsUp :
  (∃ s : State, ∃ r : Fin 2, ∃ p : Fin 2, s.isUp r p = true ∧ s.flag (rRGA_PORT_STATE r p) fRGA_PORT_STATE_remote_fault_rx = false) :=
  ⟨port pUp, 0, 1, by and_intros <;> decide +kernel⟩

theorem witness_LeavingUpIsCountedAndRaised :
  (∃ n : Nat, n < 8) :=
  ⟨7, by decide +kernel⟩

theorem witness_ModuleAccessPadAndClock :
  (∃ s : State, ∃ r : Fin 2, ∃ q : Req, ∃ v : Word, s.accepts q (rRGA_MOD_ACC r) v ∧ s.flag (rRGA_MOD_ACC r) fRGA_MOD_ACC_go = false ∧ bitOf v 31 = true ∧ bitOf v 30 = false) ∧
  (∃ s : State, ∃ r : Fin 2, s.flag (rRGA_MOD_ACC r) fRGA_MOD_ACC_go = true ∧ s.flag (rRGA_MOD_ACC r) fRGA_MOD_ACC_write = false) ∧
  (∃ s : State, ∃ r : Fin 2, ∃ p : Fin 2, (s.port r p).padPending = true ∧ s.isUp r p = true) :=
  ⟨⟨on 0x20 (on 0x23 State.reset), 0, anise, 0x80000000, by and_intros <;> decide +kernel⟩,
   ⟨regs [(rRGA_MOD_ACC 0, 0x80000000)], 0, by and_intros <;> decide +kernel⟩,
   ⟨(port pUp).setPort 0 1 { padPending := true }, 0, 1, by and_intros <;> decide +kernel⟩⟩

/-! ## Premises, part 2 -/

theorem witness_RingFrameReception :
  (∃ s : State, ∃ r : Fin 2, ∃ p : Fin 2, ∃ f : Frame, let s0 := s.setPort r p { s.port r p with bareSlots := 0 }; s.isUp r p = true ∧ s.armed (ringPage r) 2 = none ∧ f.headerCrc ≠ f.crcWanted) ∧
  (∃ s : State, ∃ r : Fin 2, ∃ p : Fin 2, ∃ f : Frame, ∃ sub : Fin 4, let s0 := s.setPort r p { s.port r p with bareSlots := 0 }; s.isUp r p = true ∧ s.armed (ringPage r) 2 = none ∧ f.headerCrc = f.crcWanted ∧ malformed p f = false ∧ let s1 := s0.inc (rRGA_CNT_RX_FRAMES r p); let ic := s1.rawStamp sub; s1.nodeId r = some f.src) ∧
  (∃ s : State, ∃ r : Fin 2, ∃ p : Fin 2, ∃ f : Frame, ∃ sub : Fin 4, let s0 := s.setPort r p { s.port r p with bareSlots := 0 }; s.isUp r p = true ∧ s.armed (ringPage r) 2 = none ∧ f.headerCrc = f.crcWanted ∧ malformed p f = false ∧ let s1 := s0.inc (rRGA_CNT_RX_FRAMES r p); let ic := s1.rawStamp sub; s1.nodeId r = some f.dest ∧ f.dest ≠ f.src) ∧
  (∃ s : State, ∃ r : Fin 2, ∃ p : Fin 2, ∃ f : Frame, ∃ sub : Fin 4, let s0 := s.setPort r p { s.port r p with bareSlots := 0 }; s.isUp r p = true ∧ s.armed (ringPage r) 2 = none ∧ f.headerCrc = f.crcWanted ∧ malformed p f = false ∧ let s1 := s0.inc (rRGA_CNT_RX_FRAMES r p); let ic := s1.rawStamp sub; s1.nodeId r ≠ some f.src ∧ s1.nodeId r ≠ some f.dest ∧ f.dest ≠ s1.ringNo r * 256 + 255 ∧ s1.crosses r (f.dest / 256) = false ∧ f.hops = 0) ∧
  (∃ s : State, ∃ r : Fin 2, ∃ p : Fin 2, ∃ f : Frame, ∃ sub : Fin 4, let s0 := s.setPort r p { s.port r p with bareSlots := 0 }; s.isUp r p = true ∧ s.armed (ringPage r) 2 = none ∧ f.headerCrc = f.crcWanted ∧ malformed p f = false ∧ let s1 := s0.inc (rRGA_CNT_RX_FRAMES r p); let ic := s1.rawStamp sub; s1.nodeId r ≠ some f.src ∧ s1.nodeId r ≠ some f.dest ∧ f.dest ≠ s1.ringNo r * 256 + 255 ∧ s1.crosses r (f.dest / 256) = false ∧ f.hops ≠ 0) :=
  ⟨⟨station, 0, 1, { frame 1280 1281 0 with w5 := 0 }, by and_intros <;> decide +kernel⟩,
   ⟨station, 0, 1, frame 1281 1280 0, 0, by and_intros <;> decide +kernel⟩,
   ⟨station, 0, 1, frame 1280 1281 0, 0, by and_intros <;> decide +kernel⟩,
   ⟨station, 0, 1, frame 1282 1281 0, 0, by and_intros <;> decide +kernel⟩,
   ⟨station, 0, 1, frame 1282 1281 255, 0, by and_intros <;> decide +kernel⟩⟩

theorem witness_SlotsOfAPort :
  (∃ s : State, ∃ x : Fin 2, ∃ p : Fin 2, ∃ slot : Nat, let s1 := (s.noteSlot x p slot).swapDue x slot; bitOf (s1.reg (rRGA_PORT_TEST x p)) 0 = false ∧ 0 < (s1.port x p).inProgress) ∧
  (∃ s : State, ∃ x : Fin 2, ∃ p : Fin 2, ∃ slot : Nat, let s1 := (s.noteSlot x p slot).swapDue x slot; bitOf (s1.reg (rRGA_PORT_TEST x p)) 0 = false ∧ (s1.port x p).inProgress = 0 ∧ s1.ttValid x = false ∧ (s1.port x p).transit = [] ∧ (s1.port x p).localQ = [] ∧ s1.isUp x p = true) ∧
  (∃ s : State, ∃ x : Fin 2, ∃ p : Fin 2, ∃ slot : Nat, ∃ sub : Fin 4, let s1 := (s.noteSlot x p slot).swapDue x slot; bitOf (s1.reg (rRGA_PORT_TEST x p)) 0 = false ∧ ∃ t : Queued, ∃ rest, (s1.port x p).inProgress = 0 ∧ s1.ttValid x = false ∧ (s1.port x p).transit = t :: rest ∧ s1.unreserved x slot t.frame.slots = true ∧ let s2 := (s1.setPort x p { s1.port x p with transit := rest }).showTransit x p; let e := s2.leaving x p sub t; s2.mayLeave x p t.frame = true ∧ e.frame.cls ≠ 0 ∧ e.frame.kind ≠ 8) :=
  ⟨⟨station.setPort 0 1 { inProgress := 1 }, 0, 1, 0, by and_intros <;> decide +kernel⟩,
   ⟨station, 0, 1, 0, by and_intros <;> decide +kernel⟩,
   ⟨station.setPort 0 1 { transit := [⟨queuedFrame 5 [], .clean, 0, none⟩] }, 0, 1, 0, 0, by decide +kernel, ⟨queuedFrame 5 [], .clean, 0, none⟩, [], by and_intros <;> decide +kernel⟩⟩

theorem witness_ElectionRunsByItsEvents :
  (∃ s : State, ∃ q : Req, ∃ v : Word, let t := s.store rRCTL_CTRL v; s.accepts q rRCTL_CTRL v ∧ s.rcEnabled 0 = false ∧ t.rcEnabled 0 = true ∧ t.rcState 0 = rcOff ∧ t.enabled 0x28 = true ∧ t.ringNo 0 ≠ 1023 ∧ (t.isUp 0 0 || t.isUp 0 1) = true ∧ (t.enterElect 0 false 1).rcEnabled 1 = s.rcEnabled 1) ∧
  (∃ s : State, s.enabled 0x28 = false) ∧
  (∃ s : State, ∃ x : Fin 2, ∃ m : ClaimMsg, s.enabled 0x28 = true ∧ let s1 := s.popInbox x 0x01; m.ring ≠ s1.ringNo x) ∧
  (∃ s : State, ∃ x : Fin 2, ∃ m : ClaimMsg, s.enabled 0x28 = true ∧ let s1 := s.popInbox x 0x01; m.ring = s1.ringNo x ∧ s1.rcState x = rcElect ∧ m.readyMaster = false ∧ m.unnumbered = false ∧ (s1.rc x).best < m.claim) ∧
  (∃ s : State, ∃ x : Fin 2, ∃ m : ClaimMsg, s.enabled 0x28 = true ∧ let s1 := s.popInbox x 0x01; m.ring = s1.ringNo x ∧ s1.rcState x = rcElect ∧ m.readyMaster = true ∧ s1.flag (rRCTL_STATUS x) fRCTL_STATUS_kept = false) ∧
  (∃ s : State, ∃ x : Fin 2, s.enabled 0x28 = true ∧ s.rcState x = rcElect ∧ (s.rc x).best = s.ownClaim ∧ s.get rRCTL_CFG fRCTL_CFG_priority ≠ 0 ∧ s.flag (rRCTL_STATUS x) fRCTL_STATUS_kept = false) ∧
  (∃ s : State, ∃ x : Fin 2, s.enabled 0x28 = true ∧ s.rcState x = rcElect ∧ (s.rc x).best = s.ownClaim ∧ s.get rRCTL_CFG fRCTL_CFG_priority ≠ 0 ∧ s.flag (rRCTL_STATUS x) fRCTL_STATUS_kept = true) ∧
  (∃ s : State, ∃ x : Fin 2, s.enabled 0x28 = true ∧ (s.rcState x = rcCount ∨ s.rcState x = rcNumber ∨ s.rcState x = rcAwait)) ∧
  (∃ s : State, ∃ x : Fin 2, ∃ q : Req, s.accepts q rRCTL_CMD (toW (2 ^ x.val)) ∧ s.rcState x = rcMaster) ∧
  (∃ s : State, ∃ x : Fin 2, ∃ q : Req, s.accepts q rRCTL_CMD (toW (4 * 2 ^ x.val)) ∧ s.rcState x = rcMaster) ∧
  (∃ s : State, ∃ q : Req, s.accepts q rRCTL_CMD 16) ∧
  (∃ s : State, ∃ q : Req, s.accepts q rRCTL_CMD 32) :=
  ⟨⟨(port pUp).put rRCTL_RING fRCTL_RING_ring_a 5, anise, 1, by and_intros <;> decide +kernel⟩,
   ⟨State.reset, by decide +kernel⟩,
   ⟨ring rcElect, 0, claim 0 1022 false, by and_intros <;> decide +kernel⟩,
   ⟨ring rcElect, 0, claim 1 1023 false, by and_intros <;> decide +kernel⟩,
   ⟨ring rcElect, 0, claim 1 1023 true, by and_intros <;> decide +kernel⟩,
   ⟨withRc ((ring rcElect).put rRCTL_CFG fRCTL_CFG_priority 1) { best := ((ring rcElect).put rRCTL_CFG fRCTL_CFG_priority 1).ownClaim }, 0, by decide +kernel, (by decide +kernel), own_best _, by and_intros <;> decide +kernel⟩,
   ⟨withRc (((ring rcElect).put (rRCTL_STATUS 0) fRCTL_STATUS_kept 1).put rRCTL_CFG fRCTL_CFG_priority 1) { best := (((ring rcElect).put (rRCTL_STATUS 0) fRCTL_STATUS_kept 1).put rRCTL_CFG fRCTL_CFG_priority 1).ownClaim }, 0, by decide +kernel, (by decide +kernel), own_best _, by and_intros <;> decide +kernel⟩,
   ⟨ring rcCount, 0, by and_intros <;> decide +kernel⟩,
   ⟨on 0x28 (ring rcMaster), 0, anise, by and_intros <;> decide +kernel⟩,
   ⟨on 0x28 (ring rcMaster), 0, anise, by and_intros <;> decide +kernel⟩,
   ⟨on 0x28 (ring rcMaster), anise, by decide +kernel⟩,
   ⟨on 0x28 (ring rcMaster), anise, by decide +kernel⟩⟩

theorem witness_CountingAndNumbering :
  (∃ s : State, ∃ x : Fin 2, s.enabled 0x28 = true ∧ ∃ passed : Nat, ∃ uid : Nat, let s1 := s.popInbox x 0x02; uid = s1.uid ∧ s1.rcState x = rcCount ∧ passed < 255) ∧
  (∃ s : State, ∃ x : Fin 2, ∃ p : Fin 2, s.enabled 0x28 = true ∧ ∃ passed : Nat, ∃ uid : Nat, let s1 := s.popInbox x 0x02; uid ≠ s1.uid ∧ s1.rcState x = rcElect ∧ s1.isUp x (1 - p.val) = true ∧ passed < 255) ∧
  (∃ s : State, ∃ x : Fin 2, ∃ p : Fin 2, s.enabled 0x28 = true ∧ ∃ passed : Nat, ∃ uid : Nat, let s1 := s.popInbox x 0x02; uid ≠ s1.uid ∧ s1.rcState x = rcElect ∧ s1.isUp x (1 - p.val) = false ∧ passed < 255) ∧
  (∃ s : State, ∃ x : Fin 2, ∃ p : Fin 2, s.enabled 0x28 = true ∧ ∃ path : Nat, ∃ uid : Nat, path ≠ arrivalPath p ∧ let s1 := s.popInbox x 0x03; uid ≠ s1.uid ∧ s1.rcState x = rcElect) ∧
  (∃ s : State, ∃ x : Fin 2, ∃ p : Fin 2, s.enabled 0x28 = true ∧ ∃ path : Nat, ∃ uid : Nat, path ≠ arrivalPath p ∧ let s1 := s.popInbox x 0x03; uid = s1.uid ∧ s1.rcState x = rcCount ∧ path = 0) ∧
  (∃ s : State, ∃ x : Fin 2, ∃ p : Fin 2, s.enabled 0x28 = true ∧ let s1 := s.popInbox x 0x04; s1.linkDelay x p = none) ∧
  (∃ s : State, ∃ x : Fin 2, ∃ p : Fin 2, s.enabled 0x28 = true ∧ let s1 := s.popInbox x 0x04; (s1.linkDelay x p).isSome = true) ∧
  (∃ s : State, ∃ x : Fin 2, ∃ p : Fin 2, s.enabled 0x28 = true ∧ s.isUp x p = true ∧ s.rcEnabled x = true) ∧
  (∃ s : State, ∃ x : Fin 2, ∃ p : Fin 2, s.enabled 0x28 = true ∧ ∃ path : Nat, ∃ src, ∃ stamp, ∃ s1, s.takeMsg x p 0x05 src stamp = some s1 ∧ path ≠ arrivalPath p) ∧
  (∃ s : State, ∃ x : Fin 2, ∃ p : Fin 2, s.enabled 0x28 = true ∧ ∃ t1 : Nat, ∃ src : Nat, ∃ stamp : Nat, ∃ s1, s.takeMsg x p 0x06 src stamp = some s1 ∧ s1.isUp x p = true ∧ (s1.port x p).reqAt = some t1 ∧ (s1.rc x).exch = []) ∧
  (∃ s : State, ∃ x : Fin 2, s.enabled 0x28 = true ∧ let s1 := s.popInbox x 0x10; s1.rcState x = rcNumber) :=
  ⟨⟨ring rcCount, 0, by decide +kernel, 254, (ring rcCount).uid, uid_pop _ _ _, by and_intros <;> decide +kernel⟩,
   ⟨(station.put (rRCTL_STATUS 0) fRCTL_STATUS_state rcElect), 0, 0, (by decide +kernel), 254, (station.put (rRCTL_STATUS 0) fRCTL_STATUS_state rcElect).uid + 1, uid_pop_ne _ _ _, by and_intros <;> decide +kernel⟩,
   ⟨ring rcElect, 0, 0, (by decide +kernel), 254, (ring rcElect).uid + 1, uid_pop_ne _ _ _, by and_intros <;> decide +kernel⟩,
   ⟨ring rcElect, 0, 0, (by decide +kernel), 0, (ring rcElect).uid + 1, by decide +kernel, uid_pop_ne _ _ _, by decide +kernel⟩,
   ⟨ring rcCount, 0, 0, (by decide +kernel), 0, (ring rcCount).uid, by decide +kernel, uid_pop _ _ _, by and_intros <;> decide +kernel⟩,
   ⟨ring 0, 0, 1, by and_intros <;> decide +kernel⟩,
   ⟨(ring 0).setRc 0 { linkE := some 0 }, 0, 0, by and_intros <;> decide +kernel⟩,
   ⟨station.put rRCTL_CTRL fRCTL_CTRL_enable_a 1, 0, 1, by and_intros <;> decide +kernel⟩,
   ⟨(ring 0).setRc 0 { inbox := [⟨1, 255, [5], 7⟩] }, 0, 1, (by decide +kernel), 1, 255, 7, ((ring 0).setRc 0 { inbox := [⟨1, 255, [5], 7⟩] }).setRc 0 {}, rfl, by decide +kernel⟩,
   ⟨(station.setPort 0 1 { reqAt := some 0 }).setRc 0 { inbox := [⟨1, 255, [6], 7⟩] }, 0, 1, (by decide +kernel), 0, 255, 7, ((station.setPort 0 1 { reqAt := some 0 }).setRc 0 { inbox := [⟨1, 255, [6], 7⟩] }).setRc 0 {}, rfl, by and_intros <;> decide +kernel⟩,
   ⟨ring rcNumber, 0, by and_intros <;> decide +kernel⟩⟩

theorem witness_ReadyBeaconsAndSpans :
  (∃ s : State, ∃ x : Fin 2, s.enabled 0x28 = true ∧ let s1 := s.popInbox x 0x11; s1.rcState x = rcAwait ∧ (s1.rc x).numbered = true) ∧
  (∃ s : State, ∃ x : Fin 2, s.enabled 0x28 = true ∧ ∃ m : ReadyMsg, let s1 := s.popInbox x 0x11; s1.rcState x = rcMember ∧ (s1.rc x).numbered = true ∧ (s1.rc x).tookOver = false ∧ m.openRing = true) ∧
  (∃ s : State, ∃ x : Fin 2, s.enabled 0x28 = true ∧ s.rcState x = rcMaster ∧ (s.rc x).demote = none) ∧
  (∃ s : State, ∃ x : Fin 2, s.enabled 0x28 = true ∧ ∃ m : BeaconMsg, let s1 := s.popInbox x 0x08; s1.rcState x = rcMember ∧ m.takeover = false ∧ m.claim = (s1.rc x).masterClaim) ∧
  (∃ s : State, ∃ x : Fin 2, s.enabled 0x28 = true ∧ s.rcState x = rcMember ∧ (s.rc x).misses + 1 < max 1 (s.get rRCTL_TIMERS fRCTL_TIMERS_beacon_miss)) ∧
  (∃ s : State, ∃ x : Fin 2, s.enabled 0x28 = true ∧ s.rcState x = rcMember ∧ max 1 (s.get rRCTL_TIMERS fRCTL_TIMERS_beacon_miss) ≤ (s.rc x).misses + 1) ∧
  (∃ s : State, ∃ x : Fin 2, s.enabled 0x28 = true ∧ let s1 := s.popInbox x 0x12; s1.rcState x = rcMember) ∧
  (∃ s : State, ∃ x : Fin 2, s.enabled 0x28 = true ∧ let s1 := s.popInbox x 0x13; s1.rcState x = rcMember ∧ s1.flag rRCTL_EXP fRCTL_EXP_hold_span = false) :=
  ⟨⟨withRc (ring rcAwait) { numbered := true }, 0, by and_intros <;> decide +kernel⟩,
   ⟨withRc (ring rcMember) { numbered := true }, 0, by decide +kernel, ⟨2, true, 0, 0, []⟩, by and_intros <;> decide +kernel⟩,
   ⟨ring rcMaster, 0, by and_intros <;> decide +kernel⟩,
   ⟨ring rcMember, 0, by decide +kernel, ⟨0, 0, 2, 0, false⟩, by and_intros <;> decide +kernel⟩,
   ⟨withRc (ring rcMember) { misses := 1 }, 0, by and_intros <;> decide +kernel⟩,
   ⟨withRc (ring rcMember) { misses := 2 }, 0, by and_intros <;> decide +kernel⟩,
   ⟨ring rcMember, 0, by and_intros <;> decide +kernel⟩,
   ⟨withRc (ring rcMember) { broken := [⟨1, true, false⟩] }, 0, by and_intros <;> decide +kernel⟩⟩

theorem witness_MembersActOnRingMessages :
  (∃ s : State, ∃ x : Fin 2, s.enabled 0x28 = true ∧ ∃ station : Nat, ∃ side : Nat, ∃ uid : Nat, ∃ k : Nat, let s1 := s.popInbox x 0x14; s1.rcState x = rcMaster ∧ s1.joining x uid = none ∧ s1.vacancy x station side = none ∧ s1.lowestFree x = some k ∧ let t := s1.put (rRCTL_STATUS x) fRCTL_STATUS_order_broken 1; let u := (t.setRc x { t.rc x with uids := (k, uid) :: (t.rc x).uids.filter (fun e => e.1 != k) }).setCount x (max (t.rc x).count (k + 1)); station ≠ u.station x) ∧
  (∃ s : State, ∃ x : Fin 2, s.enabled 0x28 = true ∧ let s1 := s.popInbox x 0x15; s1.rcState x = rcMember) ∧
  (∃ s : State, ∃ x : Fin 2, s.enabled 0x28 = true ∧ let s1 := s.popInbox x 0x16; s1.rcState x = rcMember) ∧
  (∃ s : State, ∃ x : Fin 2, s.enabled 0x28 = true ∧ (s.rc x).demote = none) ∧
  (∃ s : State, ∃ x : Fin 2, s.enabled 0x28 = true ∧ ∃ m : DemoteMsg, s.rcState x = rcMember ∧ (s.rc x).demote = some m) ∧
  (∃ s : State, ∃ x : Fin 2, s.enabled 0x28 = true ∧ ∃ cancel : Bool, let s1 := s.popInbox x 0x18; s1.rcState x = rcMember ∧ let t := (s1.setRc x { s1.rc x with sleepEpochs := if cancel then none else some 2 }).irq 0x28 8; t.flag rRCTL_CTRL fRCTL_CTRL_sleep_veto = false) ∧
  (∃ s : State, ∃ x : Fin 2, s.enabled 0x28 = true ∧ ∃ cancel : Bool, let s1 := s.popInbox x 0x18; s1.rcState x = rcMember ∧ let t := (s1.setRc x { s1.rc x with sleepEpochs := if cancel then none else some 2 }).irq 0x28 8; t.flag rRCTL_CTRL fRCTL_CTRL_sleep_veto = true ∧ cancel = false) ∧
  (∃ s : State, ∃ x : Fin 2, s.enabled 0x28 = true ∧ let s1 := s.popInbox x 0x19; s1.rcState x = rcMaster ∧ (s1.rc x).sleepEpochs = some 2) ∧
  (∃ s : State, ∃ x : Fin 2, s.enabled 0x28 = true ∧ s.rcState x = rcMember) ∧
  (∃ s : State, ∃ x : Fin 2, s.enabled 0x28 = true ∧ ∃ key : Word, let s1 := s.popInbox x 0x1A; (s1.rc x).numbered = true ∧ s1.flag rRCTL_CTRL fRCTL_CTRL_remote_reset_en = true ∧ key = s1.reg rRCTL_RESET_KEY) ∧
  (∃ s : State, ∃ x : Fin 2, s.enabled 0x28 = true ∧ ∃ key : Word, let s1 := s.popInbox x 0x1A; (s1.rc x).numbered = true ∧ s1.flag rRCTL_CTRL fRCTL_CTRL_remote_reset_en = true ∧ key ≠ s1.reg rRCTL_RESET_KEY) ∧
  (∃ s : State, ∃ x : Fin 2, s.enabled 0x28 = true ∧ let s1 := s.popInbox x 0x1B; s1.rcState x = rcMember) ∧
  (∃ s : State, s.enabled 0x28 = true ∧ s.isBridge = true ∧ s.flag (rRCTL_TREE (1 - s.lowerAtt)) fRCTL_TREE_joined = true ∧ s.flag (rRCTL_STATUS s.lowerAtt) fRCTL_STATUS_ring_ready = true ∧ let l := s.get (rRCTL_TREE (1 - s.lowerAtt)) fRCTL_TREE_level + 1; l ≤ 8) ∧
  (∃ s : State, s.enabled 0x28 = true ∧ s.isBridge = true ∧ s.flag (rRCTL_TREE (1 - s.lowerAtt)) fRCTL_TREE_joined = true ∧ s.flag (rRCTL_STATUS s.lowerAtt) fRCTL_STATUS_ring_ready = true ∧ let l := s.get (rRCTL_TREE (1 - s.lowerAtt)) fRCTL_TREE_level + 1; 8 < l) :=
  ⟨⟨ring rcMaster, 0, by decide +kernel, 1, 0, 7, 1, by and_intros <;> decide +kernel⟩,
   ⟨ring rcMember, 0, by and_intros <;> decide +kernel⟩,
   ⟨ring rcMember, 0, by and_intros <;> decide +kernel⟩,
   ⟨ring 0, 0, by and_intros <;> decide +kernel⟩,
   ⟨withRc (ring rcMember) { demote := some ⟨0, 0, 0, 0⟩ }, 0, by decide +kernel, ⟨0, 0, 0, 0⟩, by and_intros <;> decide +kernel⟩,
   ⟨ring rcMember, 0, by decide +kernel, false, by and_intros <;> decide +kernel⟩,
   ⟨(ring rcMember).put rRCTL_CTRL fRCTL_CTRL_sleep_veto 1, 0, by decide +kernel, false, by and_intros <;> decide +kernel⟩,
   ⟨withRc (ring rcMaster) { sleepEpochs := some 2 }, 0, by and_intros <;> decide +kernel⟩,
   ⟨ring rcMember, 0, by and_intros <;> decide +kernel⟩,
   ⟨withRc ((ring 0).put rRCTL_CTRL fRCTL_CTRL_remote_reset_en 1) { numbered := true }, 0, by decide +kernel, 0, by and_intros <;> decide +kernel⟩,
   ⟨withRc ((ring 0).put rRCTL_CTRL fRCTL_CTRL_remote_reset_en 1) { numbered := true }, 0, by decide +kernel, 1, by and_intros <;> decide +kernel⟩,
   ⟨ring rcMember, 0, by and_intros <;> decide +kernel⟩,
   ⟨((((ring 0).put rRCTL_CTRL fRCTL_CTRL_enable_b 1).put (rRCTL_TREE 0) fRCTL_TREE_joined 1).put (rRCTL_STATUS 1) fRCTL_STATUS_ring_ready 1).put (rRCTL_TREE 0) fRCTL_TREE_level 7, by and_intros <;> decide +kernel⟩,
   ⟨((((ring 0).put rRCTL_CTRL fRCTL_CTRL_enable_b 1).put (rRCTL_TREE 0) fRCTL_TREE_joined 1).put (rRCTL_STATUS 1) fRCTL_STATUS_ring_ready 1).put (rRCTL_TREE 0) fRCTL_TREE_level 8, by and_intros <;> decide +kernel⟩⟩

/-! ## Premises, part 3 -/

theorem witness_PageHeaderWrites :
  (∃ s : State, ∃ q : Req, ∃ p : Nat, p < 256 ∧ let c := rPG_CTRL p; s.accepts q c 1 ∧ s.flag c fPG_CTRL_enable = false ∧ s.mayEnable p = true) ∧
  (∃ s : State, ∃ q : Req, ∃ p : Nat, p < 256 ∧ let c := rPG_CTRL p; s.accepts q c 0 ∧ s.flag c fPG_CTRL_enable = true) ∧
  (∃ s : State, ∃ q : Req, ∃ p : Nat, p < 256 ∧ let c := rPG_CTRL p; s.accepts q c 3 ∧ s.flag c fPG_CTRL_enable = true ∧ hasBlockReset p = true) ∧
  (∃ s : State, ∃ q : Req, ∃ p : Nat, p < 256 ∧ let c := rPG_CTRL p; s.accepts q c 0x5A05 ∧ s.flag c fPG_CTRL_enable = true ∧ s.flag c fPG_CTRL_expert = false) ∧
  (∃ s : State, ∃ q : Req, ∃ p : Nat, p < 256 ∧ let c := rPG_CTRL p; s.accepts q c 0x5905 ∧ s.flag c fPG_CTRL_enable = true ∧ s.flag c fPG_CTRL_expert = false) ∧
  (∃ s : State, ∃ q : Req, ∃ p : Nat, p < 256 ∧ let c := rPG_CTRL p; ∃ v : Word, s.accepts q (rPG_IRQ_FORCE p) v) ∧
  (∃ s : State, ∃ q : Req, ∃ p : Nat, p < 256 ∧ let c := rPG_CTRL p; ∃ v : Word, s.accepts q (rPG_FAULT p) v ∧ bitOf v 31 = true) ∧
  (∃ s : State, ∃ q : Req, ∃ p : Nat, p < 256 ∧ let c := rPG_CTRL p; ∃ v : Word, let n := fldOf v fPG_FAULT_INJ_checker; s.accepts q (rPG_FAULT_INJ p) v ∧ (checkersOf p).testBit n = false) ∧
  (∃ s : State, ∃ q : Req, ∃ p : Nat, p < 256 ∧ let c := rPG_CTRL p; ∃ v : Word, let n := fldOf v fPG_FAULT_INJ_checker; s.accepts q (rPG_FAULT_INJ p) v ∧ (checkersOf p).testBit n = true ∧ n ≠ 5 ∧ fldOf v fPG_FAULT_INJ_arm = 1) ∧
  (∃ s : State, ∃ q : Req, ∃ p : Nat, p < 256 ∧ let c := rPG_CTRL p; ∃ v : Word, ∃ i : Nat, s.accepts q (rPG_CLAIM p) v ∧ resourceOf p = some i ∧ s.claimShut q = false ∧ q.master = 1) ∧
  (∃ s : State, ∃ q : Req, ∃ p : Nat, p < 256 ∧ let c := rPG_CTRL p; ∃ v : Word, ∃ i : Nat, s.accepts q (rPG_CLAIM p) v ∧ resourceOf p = some i ∧ s.claimShut q = false ∧ q.master = 2) ∧
  (∃ s : State, ∃ q : Req, ∃ p : Nat, p < 256 ∧ let c := rPG_CTRL p; ∃ v : Word, ∃ i : Nat, s.accepts q (rPG_CLAIM p) v ∧ resourceOf p = some i ∧ s.claimShut q = false ∧ q.master = 0) ∧
  (∃ s : State, ∃ q : Req, ∃ p : Nat, p < 256 ∧ let c := rPG_CTRL p; ∃ v : Word, s.accepts q (rPG_LOCK p) v ∧ fldOf v fPG_LOCK_lock = 1) :=
  ⟨⟨State.reset, hostA, 0x20, by and_intros <;> decide +kernel⟩,
   ⟨on 0x20 State.reset, hostA, 0x20, by and_intros <;> decide +kernel⟩,
   ⟨on 0x20 State.reset, anise, 0x20, by and_intros <;> decide +kernel⟩,
   ⟨on 0x20 State.reset, anise, 0x20, by and_intros <;> decide +kernel⟩,
   ⟨on 0x20 State.reset, anise, 0x20, by and_intros <;> decide +kernel⟩,
   ⟨State.reset, anise, 0x10, (by decide +kernel), 0xFFFFFFFF, by decide +kernel⟩,
   ⟨State.reset, anise, 0x10, (by decide +kernel), 0x80000000, by and_intros <;> decide +kernel⟩,
   ⟨State.reset, anise, 0x10, (by decide +kernel), 0xF01, by and_intros <;> decide +kernel⟩,
   ⟨State.reset, anise, 0x10, (by decide +kernel), 0x1, by and_intros <;> decide +kernel⟩,
   ⟨State.reset, hostA, 0x71, (by decide +kernel), 1, 0, by and_intros <;> decide +kernel⟩,
   ⟨State.reset, hostB, 0x71, (by decide +kernel), 1, 0, by and_intros <;> decide +kernel⟩,
   ⟨State.reset, anise, 0x71, (by decide +kernel), 1, 0, by and_intros <;> decide +kernel⟩,
   ⟨State.reset, anise, 0x10, (by decide +kernel), 1, by and_intros <;> decide +kernel⟩⟩

theorem witness_RegisterWriteChecks :
  (∃ s : State, ∃ a : Nat, a < 0x100000 ∧ a % 4 = 0 ∧ a ≠ rFLT_ERRN_CLR ∧ s.pageBusy a = false ∧ populated (a / 0x1000) = false) ∧
  (∃ s : State, ∃ q : Req, ∃ a : Nat, a < 0x100000 ∧ a % 4 = 0 ∧ a ≠ rFLT_ERRN_CLR ∧ s.pageBusy a = false ∧ populated (a / 0x1000) = true ∧ lvlRank (s.levelOf q) < lvlRank (s.writeNeeds q (a / 0x1000) (a % 0x1000))) ∧
  (∃ s : State, ∃ q : Req, ∃ a : Nat, ∃ v : Word, a < 0x100000 ∧ a % 4 = 0 ∧ a ≠ rFLT_ERRN_CLR ∧ s.accepts q a v ∧ a % 0x1000 = 0x010) :=
  ⟨⟨State.reset, 0xFF000, by and_intros <;> decide +kernel⟩,
   ⟨State.reset, ringNode, 0x10000, by and_intros <;> decide +kernel⟩,
   ⟨State.reset, anise, 0x10010, 1, by and_intros <;> decide +kernel⟩⟩

theorem witness_LockedFieldsStay :
  (∃ s : State, ∃ a : Nat, ∃ v : Word, s.flag (rPG_LOCK (a / 0x1000)) fPG_LOCK_lock = true ∧ let m := toW (accMask (regFields (a / 0x1000) (a % 0x1000)) .rwl); v &&& m = s.reg a &&& m) ∧
  (∃ s : State, ∃ a : Nat, ∃ v : Word, s.flag (rPG_LOCK (a / 0x1000)) fPG_LOCK_lock = true ∧ let m := toW (accMask (regFields (a / 0x1000) (a % 0x1000)) .rwl); v &&& m ≠ s.reg a &&& m) :=
  ⟨⟨State.reset.put (rPG_LOCK (rRCTL_RING / 0x1000)) fPG_LOCK_lock 1, rRCTL_RING, 0x03FF03FF, by and_intros <;> decide +kernel⟩,
   ⟨State.reset.put (rPG_LOCK (rRCTL_RING / 0x1000)) fPG_LOCK_lock 1, rRCTL_RING, 0, by and_intros <;> decide +kernel⟩⟩

theorem witness_ClearedClassesHaveResetValues :
  (∃ s : State, s.Canon) :=
  ⟨State.reset, reset_canon⟩

theorem witness_FabricTakesInAndForwards :
  (∃ s : State, ∃ i : Fin 16, ∃ f : Frame, ∃ t : State, s.fabRuns = true ∧ s.fabPort i = true ∧ s.inputHolds i (s.crossClass i f) = false ∧ s.ingress i { inp := i, frame := f, discard := false, cipherDone := false, orig := i, level := s.presenterLevel i } = some t) ∧
  (∃ s : State, ∃ i : Fin 16, ∃ n : Nat, ∃ d : Delivered, ∃ t : State, s.fabRuns = true ∧ s.fabPort i = true ∧ s.sourceNext i = some n ∧ (s.sources i)[n]? = some d ∧ (s.dropSource i n).ingress i d = some t) ∧
  (∃ s : State, s.fabRuns = true ∧ s.flag rFAB_TEST fFAB_TEST_freeze = false) ∧
  (∃ s : State, ∃ q : Req, ∃ v : Word, s.accepts q rFAB_TEST_STEP v ∧ bitOf v 0 = true ∧ s.fabRuns = true ∧ s.flag rFAB_TEST fFAB_TEST_freeze = true) ∧
  (∃ s : State, s.enabled 0x10 = true) ∧
  (∃ s : State, ∃ q : Req, ∃ n : Fin 16, ∃ v : Word, s.accepts q (rFAB_LIMIT n) v ∧ s.limitSum n v ≤ 512) ∧
  (∃ s : State, ∃ q : Req, ∃ n : Fin 16, ∃ v : Word, s.accepts q (rFAB_LIMIT n) v ∧ 512 < s.limitSum n v) :=
  ⟨⟨on 0x10 State.reset, 0, frame 0x3FFFF 0 3, _, by decide +kernel, by decide +kernel, by decide +kernel, (Option.some_get (by decide +kernel)).symm⟩,
   ⟨(on 0x10 State.reset).setPort 0 0 { takeoff := [⟨frame 0x3FFFF 0 3, false, 0, 0⟩] }, 0, 0, { delivered (frame 0x3FFFF 0 3) with level := 0, rx := some (0, 0) }, _, by decide +kernel, by decide +kernel, (by decide +kernel), by decide +kernel, (Option.some_get (by decide +kernel)).symm⟩,
   ⟨on 0x10 State.reset, by and_intros <;> decide +kernel⟩,
   ⟨(onX 0x17 (on 0x10 State.reset)).put rFAB_TEST fFAB_TEST_freeze 1, anise, 1, by and_intros <;> decide +kernel⟩,
   ⟨on 0x10 State.reset, by decide +kernel⟩,
   ⟨on 0x10 State.reset, anise, 0, 0, by and_intros <;> decide +kernel⟩,
   ⟨on 0x10 State.reset, anise, 15, 0xFFFFFFFF, by and_intros <;> decide +kernel⟩⟩

theorem witness_FabricCommandsClearAndPop :
  (∃ s : State, ∃ q : Req, ∃ v : Word, s.accepts q rFAB_AIM_CMD v ∧ bitOf v 0 = true) ∧
  (∃ s : State, ∃ q : Req, ∃ v : Word, s.accepts q rFAB_OCC_CMD v ∧ bitOf v 0 = true) ∧
  (∃ s : State, ∃ q : Req, ∃ mp : Bool, ∃ n : Nat, ∃ l, s.allowsRead q rFAB_TRACE_POP mp ∧ s.fab.trace = n :: l) ∧
  (∃ s : State, ∃ q : Req, ∃ mp : Bool, s.allowsRead q rFAB_TRACE_POP mp ∧ s.fab.trace = []) :=
  ⟨⟨on 0x10 State.reset, anise, 1, by and_intros <;> decide +kernel⟩,
   ⟨on 0x10 State.reset, anise, 1, by and_intros <;> decide +kernel⟩,
   ⟨{ onX 0x16 State.reset with fab := { trace := [1] } }, anise, false, 1, [], by and_intros <;> decide +kernel⟩,
   ⟨onX 0x16 State.reset, anise, false, by and_intros <;> decide +kernel⟩⟩

/-! ## Premises, part 4 -/

theorem witness_PaceFollowsReadings :
  (∃ s : State, ∃ q : Req, ∃ v : Word, s.accepts q rPACE_CTRL v ∧ let t := s.store rPACE_CTRL v; let c := if t.flag rPACE_CODE fPACE_CODE_selfcheck_failed then t.paceMax else t.nearCode (t.get rPACE_CFG fPACE_CFG_start_code); s.paceLoop = false ∧ t.paceLoop = true) ∧
  (∃ s : State, ∃ q : Req, ∃ v : Word, s.accepts q rPACE_CTRL v ∧ let t := s.store rPACE_CTRL v; let c := if t.flag rPACE_CODE fPACE_CODE_selfcheck_failed then t.paceMax else t.nearCode (t.get rPACE_CFG fPACE_CFG_start_code); ((s.paceLoop = true ∨ t.paceLoop = false))) ∧
  (∃ s : State, ∃ b0 : Nat, ∃ b1 : Nat, s.enabled 0x18 = true ∧ s.islandRuns = true ∧ let t := s.paceNote b0 b1; t.paceLoop = false) ∧
  (∃ s : State, ∃ b0 : Nat, ∃ b1 : Nat, s.enabled 0x18 = true ∧ s.islandRuns = true ∧ let t := s.paceNote b0 b1; t.paceLoop = true ∧ 1000 < max b0 b1 % 65536) ∧
  (∃ s : State, ∃ b0 : Nat, ∃ b1 : Nat, s.enabled 0x18 = true ∧ s.islandRuns = true ∧ let t := (s.setReg rPACE_CMD 0).paceNote b0 b1; t.paceLoop = false) ∧
  (∃ s : State, ∃ b0 : Nat, ∃ b1 : Nat, s.enabled 0x18 = true ∧ s.islandRuns = true ∧ let t := (s.setReg rPACE_CMD 0).paceNote b0 b1; t.paceLoop = true ∧ 1000 < max b0 b1 % 65536) ∧
  (∃ s : State, s.enabled 0x18 = true ∧ s.pace.below = true ∧ s.paceLoop = true ∧ s.paceManual = false ∧ s.flag rPACE_CODE fPACE_CODE_selfcheck_failed = false ∧ s.vcoreDip = false ∧ s.paceMin < s.paceCode) ∧
  (∃ s : State, ∃ q : Req, ∃ v : Word, s.accepts q rPACE_CFG v ∧ let t := s.store rPACE_CFG v; let n := t.nearCode t.paceCode; t.paceLoop = false) ∧
  (∃ s : State, ∃ q : Req, ∃ v : Word, s.accepts q rPACE_CFG v ∧ let t := s.store rPACE_CFG v; let n := t.nearCode t.paceCode; t.paceLoop = true ∧ t.paceCode < n) ∧
  (∃ s : State, ∃ q : Req, ∃ v : Word, s.accepts q rPACE_CFG v ∧ let t := s.store rPACE_CFG v; let n := t.nearCode t.paceCode; t.paceLoop = true ∧ n ≤ t.paceCode) ∧
  (∃ s : State, ∃ q : Req, ∃ v : Word, s.accepts q rPACE_CMD v ∧ bitOf v 0 = true ∧ bitOf v 1 = false) :=
  ⟨⟨on 0x18 State.reset, anise, 1, by and_intros <;> decide +kernel⟩,
   ⟨on 0x18 State.reset, anise, 0, by and_intros <;> decide +kernel⟩,
   ⟨on 0x18 State.reset, 0, 0, by and_intros <;> decide +kernel⟩,
   ⟨(on 0x18 State.reset).put rPACE_CTRL fPACE_CTRL_loop_en 1, 65535, 65535, by and_intros <;> decide +kernel⟩,
   ⟨on 0x18 State.reset, 0, 0, by and_intros <;> decide +kernel⟩,
   ⟨(on 0x18 State.reset).put rPACE_CTRL fPACE_CTRL_loop_en 1, 65535, 65535, by and_intros <;> decide +kernel⟩,
   ⟨{ ((on 0x18 State.reset).put rPACE_CTRL fPACE_CTRL_loop_en 1).put rPACE_CODE fPACE_CODE_code 15 with pace := { below := true } }, by and_intros <;> decide +kernel⟩,
   ⟨on 0x18 State.reset, anise, 0, by and_intros <;> decide +kernel⟩,
   ⟨((on 0x18 State.reset).put rPACE_CTRL fPACE_CTRL_loop_en 1).put rPACE_CODE fPACE_CODE_code 0, anise, 0x00000FF5, by and_intros <;> decide +kernel⟩,
   ⟨((on 0x18 State.reset).put rPACE_CTRL fPACE_CTRL_loop_en 1).put rPACE_CODE fPACE_CODE_code 15, anise, 0x00000FF0, by and_intros <;> decide +kernel⟩,
   ⟨on 0x18 State.reset, anise, 1, by and_intros <;> decide +kernel⟩⟩

theorem witness_FlowCommandsRun :
  (∃ s : State, ∃ q : Req, ∃ f : Nat, f < 0xF000 ∧ s.flag rFLOW_CMD fFLOW_CMD_go = false ∧ ∃ k : Nat, let t := s.flowRuns 1 f; s.accepts q rFLOW_CMD (flowCmdWord 1 f) ∧ entState (t.ent f) = 0 ∧ t.createArgsOk f = true ∧ t.freeSlot = some k) ∧
  (∃ s : State, ∃ q : Req, ∃ f : Nat, f < 0xF000 ∧ s.flag rFLOW_CMD fFLOW_CMD_go = false ∧ let t := s.flowRuns 2 f; s.accepts q rFLOW_CMD (flowCmdWord 2 f) ∧ entState (t.ent f) ≠ 0 ∧ entEnabled (t.ent f) = false ∧ t.flw.hold.any (fun h => h.flow = f) = false) ∧
  (∃ s : State, ∃ q : Req, ∃ f : Nat, f < 0xF000 ∧ s.flag rFLOW_CMD fFLOW_CMD_go = false ∧ let t := s.flowRuns 3 f; s.accepts q rFLOW_CMD (flowCmdWord 3 f) ∧ entState (t.ent f) = 1 ∧ entEnabled (t.ent f) = false ∧ let k := entSlot (t.ent f); t.ctxClass k ≠ 0) ∧
  (∃ s : State, ∃ q : Req, ∃ f : Nat, f < 0xF000 ∧ s.flag rFLOW_CMD fFLOW_CMD_go = false ∧ let t := s.flowRuns 3 f; s.accepts q rFLOW_CMD (flowCmdWord 3 f) ∧ entState (t.ent f) = 1 ∧ entEnabled (t.ent f) = false ∧ let k := entSlot (t.ent f); t.ctxClass k = 0 ∧ t.admission k = 0) ∧
  (∃ s : State, ∃ q : Req, ∃ f : Nat, f < 0xF000 ∧ s.flag rFLOW_CMD fFLOW_CMD_go = false ∧ let t := s.flowRuns 3 f; s.accepts q rFLOW_CMD (flowCmdWord 3 f) ∧ entState (t.ent f) = 1 ∧ entEnabled (t.ent f) = false ∧ let k := entSlot (t.ent f); t.ctxClass k = 0 ∧ t.admission k ≠ 0) ∧
  (∃ s : State, ∃ q : Req, ∃ f : Nat, f < 0xF000 ∧ s.flag rFLOW_CMD fFLOW_CMD_go = false ∧ let t := s.flowRuns 4 f; s.accepts q rFLOW_CMD (flowCmdWord 4 f) ∧ entState (t.ent f) = 1 ∧ entEnabled (t.ent f) = true) ∧
  (∃ s : State, ∃ q : Req, ∃ f : Nat, f < 0xF000 ∧ s.flag rFLOW_CMD fFLOW_CMD_go = false ∧ let t := s.flowRuns 5 f; s.accepts q rFLOW_CMD (flowCmdWord 5 f) ∧ entState (t.ent f) ≠ 0 ∧ entPinned (t.ent f) = false ∧ t.pinnedCount < t.get rFLOW_CFG fFLOW_CFG_pin_max ∧ entState (t.ent f) = 1) ∧
  (∃ s : State, ∃ q : Req, ∃ f : Nat, f < 0xF000 ∧ s.flag rFLOW_CMD fFLOW_CMD_go = false ∧ let t := s.flowRuns 5 f; s.accepts q rFLOW_CMD (flowCmdWord 5 f) ∧ entState (t.ent f) ≠ 0 ∧ entPinned (t.ent f) = false ∧ t.pinnedCount < t.get rFLOW_CFG fFLOW_CFG_pin_max ∧ entState (t.ent f) ≠ 1) ∧
  (∃ s : State, ∃ q : Req, ∃ f : Nat, f < 0xF000 ∧ s.flag rFLOW_CMD fFLOW_CMD_go = false ∧ let t := s.flowRuns 6 f; s.accepts q rFLOW_CMD (flowCmdWord 6 f) ∧ entState (t.ent f) = 1 ∧ ((entEnabled (t.ent f) = false ∨ natBits (t.ent f) 27 26 ≠ 0))) ∧
  (∃ s : State, ∃ q : Req, ∃ f : Nat, f < 0xF000 ∧ s.flag rFLOW_CMD fFLOW_CMD_go = false ∧ let t := s.flowRuns 7 f; s.accepts q rFLOW_CMD (flowCmdWord 7 f) ∧ entState (t.ent f) = 1) :=
  ⟨⟨on 0x30 (regs [(rFLOW_BACK_SIZE, 0x10000)]), anise, 0xEFFF, (by decide +kernel), by decide +kernel, 0, by and_intros <;> decide +kernel⟩,
   ⟨flow5 2 0, anise, 5, by and_intros <;> decide +kernel⟩,
   ⟨flow5 3 0, anise, 5, by and_intros <;> decide +kernel⟩,
   ⟨timed, anise, 5, by and_intros <;> decide +kernel⟩,
   ⟨flow5 0 0, anise, 5, by and_intros <;> decide +kernel⟩,
   ⟨(flow5 0 0).setEnabled 5 0 true, anise, 5, by and_intros <;> decide +kernel⟩,
   ⟨(flow5 1 0).put rFLOW_CFG fFLOW_CFG_pin_max 1, anise, 5, by and_intros <;> decide +kernel⟩,
   ⟨((flow5 1 0).setEnt 5 (3 * 2 ^ 30 + 5)).put rFLOW_CFG fFLOW_CFG_pin_max 1, anise, 5, by and_intros <;> decide +kernel⟩,
   ⟨(flow5 1 0), anise, 5, by and_intros <;> decide +kernel⟩,
   ⟨(flow5 1 0), anise, 5, by and_intros <;> decide +kernel⟩⟩

theorem witness_FlowCommandCodes :
  (∃ s : State, ∃ q : Req, ∃ f : Nat, ∃ op : Nat, f < 0x10000 ∧ 1 ≤ op ∧ op ≤ 7 ∧ s.accepts q rFLOW_CMD (flowCmdWord op f) ∧ let t := s.flowRuns op f; s.flag rFLOW_CMD fFLOW_CMD_go = true) ∧
  (∃ s : State, ∃ q : Req, ∃ f : Nat, ∃ op : Nat, f < 0x10000 ∧ 1 ≤ op ∧ op ≤ 7 ∧ s.accepts q rFLOW_CMD (flowCmdWord op f) ∧ let t := s.flowRuns op f; s.flag rFLOW_CMD fFLOW_CMD_go = false ∧ 0xF000 ≤ f) ∧
  (∃ s : State, ∃ q : Req, ∃ f : Nat, ∃ op : Nat, f < 0x10000 ∧ 1 ≤ op ∧ op ≤ 7 ∧ s.accepts q rFLOW_CMD (flowCmdWord op f) ∧ let t := s.flowRuns op f; s.flag rFLOW_CMD fFLOW_CMD_go = false ∧ f < 0xF000 ∧ op = 1 ∧ entState (t.ent f) ≠ 0) ∧
  (∃ s : State, ∃ q : Req, ∃ f : Nat, ∃ op : Nat, f < 0x10000 ∧ 1 ≤ op ∧ op ≤ 7 ∧ s.accepts q rFLOW_CMD (flowCmdWord op f) ∧ let t := s.flowRuns op f; s.flag rFLOW_CMD fFLOW_CMD_go = false ∧ f < 0xF000 ∧ op = 1 ∧ entState (t.ent f) = 0 ∧ t.createArgsOk f = false) ∧
  (∃ s : State, ∃ q : Req, ∃ f : Nat, ∃ op : Nat, f < 0x10000 ∧ 1 ≤ op ∧ op ≤ 7 ∧ s.accepts q rFLOW_CMD (flowCmdWord op f) ∧ let t := s.flowRuns op f; s.flag rFLOW_CMD fFLOW_CMD_go = false ∧ f < 0xF000 ∧ op ≠ 1 ∧ entState (t.ent f) = 0) ∧
  (∃ s : State, ∃ q : Req, ∃ f : Nat, ∃ op : Nat, f < 0x10000 ∧ 1 ≤ op ∧ op ≤ 7 ∧ s.accepts q rFLOW_CMD (flowCmdWord op f) ∧ let t := s.flowRuns op f; s.flag rFLOW_CMD fFLOW_CMD_go = false ∧ f < 0xF000 ∧ (op = 2 ∨ op = 3) ∧ entState (t.ent f) ≠ 0 ∧ entEnabled (t.ent f) = true) :=
  ⟨⟨(flow5 1 0).put rFLOW_CMD fFLOW_CMD_go 1, anise, 0xFFFF, 7, by and_intros <;> decide +kernel⟩,
   ⟨flow5 1 0, anise, 0xF000, 1, by and_intros <;> decide +kernel⟩,
   ⟨flow5 1 0, anise, 5, 1, by and_intros <;> decide +kernel⟩,
   ⟨flow5 1 0, anise, 0xEFFF, 1, by and_intros <;> decide +kernel⟩,
   ⟨flow5 1 0, anise, 0, 2, by and_intros <;> decide +kernel⟩,
   ⟨(flow5 1 0).setEnabled 5 0 true, anise, 5, 3, by decide +kernel, by decide +kernel, by decide +kernel, (by decide +kernel), by decide +kernel, by decide +kernel, Or.inr rfl, by and_intros <;> decide +kernel⟩⟩

theorem witness_CreatedContext :
  (∃ s : State, ∃ k : Nat, ∃ f : Nat, k < 4096 ∧ f < 0xF000 ∧ let t := s.createCtx k f; ∃ a : Nat, ((a < ctxAddr k ∨ ctxAddr k + 128 ≤ a)) ∧ ((a < entAddr f ∨ entAddr f + 4 ≤ a))) :=
  ⟨State.reset, 4095, 0xEFFF, (by decide +kernel), by decide +kernel, 0, by and_intros <;> decide +kernel⟩

theorem witness_ContextViewAndDirectWrites :
  (∃ s : State, ∃ q : Req, let f := s.get rFLOW_VIEW_SEL fFLOW_VIEW_SEL_flow_id; let t := s.keepVictim f; s.accepts q rFLOW_VIEW_CMD 1 ∧ s.flw.load = none ∧ f < 0xF000 ∧ entState (s.ent f) ≠ 0 ∧ s.flw.hold.any (fun h => h.q != q) = false ∧ entState (t.ent f) = 1) ∧
  (∃ s : State, ∃ q : Req, let f := s.get rFLOW_VIEW_SEL fFLOW_VIEW_SEL_flow_id; let t := s.keepVictim f; s.accepts q rFLOW_VIEW_CMD 1 ∧ s.flw.load = none ∧ f < 0xF000 ∧ entState (s.ent f) ≠ 0 ∧ s.flw.hold.any (fun h => h.q != q) = false ∧ entState (t.ent f) ≠ 1) ∧
  (∃ s : State, ∃ q : Req, ∃ h, s.accepts q rFLOW_VIEW_CMD 2 ∧ s.flw.load = none ∧ s.flw.hold = some h ∧ h.q = q) ∧
  (∃ s : State, ∃ q : Req, ∃ h, s.accepts q rFLOW_VIEW_CMD 2 ∧ s.flw.load = none ∧ s.flw.hold = some h ∧ h.q ≠ q) ∧
  (∃ s : State, ∃ q : Req, ∃ h, s.accepts q rFLOW_VIEW_CMD 4 ∧ s.flw.load = none ∧ s.flw.hold = some h ∧ h.q = q) ∧
  (∃ s : State, ∃ q : Req, ∃ h, s.accepts q rFLOW_VIEW_CMD 4 ∧ s.flw.load = none ∧ s.flw.hold = some h ∧ h.q ≠ q) ∧
  (∃ s : State, ∃ q : Req, ∃ a : Nat, ∃ bs : List Byte, regionOf a = some .context ∧ s.memWriteStatus q.master (s.levelOf q) a bs.length = 0 ∧ let k := (a - 0x100000) / 128; let off := (a - 0x100000) % 128; ((∃ f, s.slotFlow k = some f ∧ entState (s.ent f) = 1)) ∧ 0x40 ≤ off ∧ off + bs.length ≤ 0x74) ∧
  (∃ s : State, ∃ q : Req, ∃ a : Nat, ∃ bs : List Byte, regionOf a = some .context ∧ s.memWriteStatus q.master (s.levelOf q) a bs.length = 0 ∧ let k := (a - 0x100000) / 128; let off := (a - 0x100000) % 128; (s.slotFlow k = none ∨ (∃ f, s.slotFlow k = some f ∧ entState (s.ent f) ≠ 1) ∨ off < 0x40 ∨ 0x74 < off + bs.length)) :=
  ⟨⟨onX 0x31 ((flow5 1 0).put rFLOW_VIEW_SEL fFLOW_VIEW_SEL_flow_id 5), anise, by and_intros <;> decide +kernel⟩,
   ⟨onX 0x31 (((flow5 1 0).setEnt 5 (3 * 2 ^ 30 + 5)).put rFLOW_VIEW_SEL fFLOW_VIEW_SEL_flow_id 5), anise, by and_intros <;> decide +kernel⟩,
   ⟨{ onX 0x31 (flow5 1 0) with flw := { hold := some ⟨anise, 5, 2⟩ } }, anise, ⟨anise, 5, 2⟩, by and_intros <;> decide +kernel⟩,
   ⟨{ onX 0x31 (flow5 1 0) with flw := { hold := some ⟨anise, 5, 2⟩ } }, hostA, ⟨anise, 5, 2⟩, by and_intros <;> decide +kernel⟩,
   ⟨{ onX 0x31 (flow5 1 0) with flw := { hold := some ⟨anise, 5, 2⟩ } }, anise, ⟨anise, 5, 2⟩, by and_intros <;> decide +kernel⟩,
   ⟨{ onX 0x31 (flow5 1 0) with flw := { hold := some ⟨anise, 5, 2⟩ } }, hostA, ⟨anise, 5, 2⟩, by and_intros <;> decide +kernel⟩,
   ⟨flow5 1 0, anise, 0x100070, [0, 0, 0, 0], by decide +kernel, by decide +kernel, ⟨5, by decide +kernel⟩, by and_intros <;> decide +kernel⟩,
   ⟨flow5 1 0, anise, 0x100074, [0, 0, 0, 0], by and_intros <;> decide +kernel⟩⟩

theorem witness_PagerServesMisses :
  (∃ s : State, ∃ m : Nat, ∃ rest, s.enabled 0x30 = true ∧ s.flw.job = none ∧ s.flw.misses = .fetch m :: rest ∧ ∃ k : Nat, s.freeSlot = some k) ∧
  (∃ s : State, ∃ m : Nat, ∃ rest, s.enabled 0x30 = true ∧ s.flw.job = none ∧ s.flw.misses = .fetch m :: rest ∧ ∃ k : Nat, ∃ f : Nat, s.freeSlot = none ∧ s.victim = some (k, f) ∧ spGet (fun _ => false) s.flw.dirty k = true) ∧
  (∃ s : State, ∃ m : Nat, ∃ rest, s.enabled 0x30 = true ∧ s.flw.job = none ∧ s.flw.misses = .fetch m :: rest ∧ ∃ k : Nat, ∃ f : Nat, s.freeSlot = none ∧ s.victim = some (k, f) ∧ spGet (fun _ => false) s.flw.dirty k = false) ∧
  (∃ s : State, ∃ m : Nat, ∃ rest, s.enabled 0x30 = true ∧ s.flw.job = none ∧ s.flw.misses = .fetch m :: rest ∧ s.freeSlot = none ∧ s.victim = none ∧ s.flw.noVictim.contains (.fetch m) = false) ∧
  (∃ s : State, ∃ g, ∃ k : Nat, ∃ f : Nat, ∃ err, s.flw.job = some ⟨.fetch g, k, some f⟩ ∧ let w := s.writeBack k f err; w.1 = true) ∧
  (∃ s : State, ∃ g, ∃ k : Nat, ∃ f : Nat, ∃ err, s.flw.job = some ⟨.fetch g, k, some f⟩ ∧ let w := s.writeBack k f err; w.1 = false) ∧
  (∃ s : State, ∃ f : Nat, ∃ k : Nat, ∃ out, s.flw.job = some ⟨.fetch f, k, none⟩ ∧ let a := s.backAddr (entLoc (s.ent f)); (s.backing a .read).1 = some out ∧ let t := (s.backing a .read).2; let bs := t.bytes out 128; crc32c (bs.take 124) = toW (leNat (slice bs 124 4))) ∧
  (∃ s : State, ∃ f : Nat, ∃ k : Nat, ∃ out, s.flw.job = some ⟨.fetch f, k, none⟩ ∧ let a := s.backAddr (entLoc (s.ent f)); (s.backing a .read).1 = some out ∧ let t := (s.backing a .read).2; let bs := t.bytes out 128; crc32c (bs.take 124) ≠ toW (leNat (slice bs 124 4))) ∧
  (∃ s : State, ∃ f : Nat, s.flw.retries.contains f = true) ∧
  (∃ s : State, ∃ f : Nat, s.flw.wait = some (5, f) ∧ entState (s.ent f) = 1 ∧ s.pinnedCount < s.get rFLOW_CFG fFLOW_CFG_pin_max) ∧
  (∃ s : State, ∃ q : Req, ∃ v : Word, s.accepts q rFLOW_PF_CMD v ∧ bitOf v 0 = true) :=
  ⟨⟨{ on 0x30 State.reset with flw := { misses := [.fetch 5] } }, 5, [], (by decide +kernel), by decide +kernel, by decide +kernel, 0, (by decide +kernel)⟩,
   ⟨full true [(0, true)], 5, [], (by decide +kernel), by decide +kernel, by decide +kernel, 0, 0, full_freeSlot _ _, by and_intros <;> decide +kernel⟩,
   ⟨full true [], 5, [], (by decide +kernel), by decide +kernel, by decide +kernel, 0, 0, full_freeSlot _ _, by and_intros <;> decide +kernel⟩,
   ⟨full false [], 5, [], (by decide +kernel), by decide +kernel, by decide +kernel, full_freeSlot _ _, by and_intros <;> decide +kernel⟩,
   ⟨{ mapped.createCtx 0 5 with flw := { job := some ⟨.fetch 6, 0, some 5⟩ } }, 6, 0, 5, none, by and_intros <;> decide +kernel⟩,
   ⟨{ State.reset.createCtx 0 5 with flw := { job := some ⟨.fetch 6, 0, some 5⟩ } }, 6, 0, 5, none, by and_intros <;> decide +kernel⟩,
   ⟨{ (((mapped.createCtx 0 5).writeBack 0 5 none).2.setEnt 5 (3 * 2 ^ 30 + 5)) with flw := { job := some ⟨.fetch 5, 1, none⟩ } }, 5, 1, 0x200280, by and_intros <;> decide +kernel⟩,
   ⟨{ mapped.setEnt 5 (3 * 2 ^ 30 + 5) with flw := { job := some ⟨.fetch 5, 1, none⟩ } }, 5, 1, 0x200280, by and_intros <;> decide +kernel⟩,
   ⟨{ State.reset with flw := { retries := [5] } }, 5, by decide +kernel⟩,
   ⟨{ (flow5 1 0).put rFLOW_CFG fFLOW_CFG_pin_max 1 with flw := { wait := some (5, 5) } }, 5, by and_intros <;> decide +kernel⟩,
   ⟨on 0x30 State.reset, anise, 1, by and_intros <;> decide +kernel⟩⟩

theorem witness_TimetableRowsAct :
  (∃ s : State, ∃ q : Req, ∃ v : Word, ∃ x : Fin 2, s.accepts q rTTB_CMD v ∧ bitOf v x = true ∧ bitOf v (1 - x : Fin 2) = false ∧ s.rcState x = rcMaster) ∧
  (∃ s : State, ∃ x : Fin 2, ∃ id : Nat, let s1 := s.takeInbox x 0x17; s1.enabled 0x38 = true ∧ s1.flag rTTB_EXP fTTB_EXP_bank_write = false ∧ s1.ttValid x = true ∧ s1.get (rTTB_STATUS x) fTTB_STATUS_table_id = id) ∧
  (∃ s : State, ∃ x : Fin 2, ∃ effect, let s1 := s.takeInbox x 0x17; s1.enabled 0x38 = true ∧ s1.flag rTTB_EXP fTTB_EXP_bank_write = false ∧ s1.ttValid x = false ∧ (s1.ttb x).pend = none ∧ (s1.ttb x).asm = none ∧ effect < 2 ^ 20) ∧
  (∃ s : State, ∃ x : Fin 2, ∃ t, s.enabled 0x38 = true ∧ (s.ttb x).pend = some t) ∧
  (∃ s : State, ∃ x : Fin 2, s.enabled 0x38 = true ∧ (s.ttb x).pend = none ∧ (s.ttb x).due.isSome = true ∧ (s.ttb x).asm.isSome = true) ∧
  (∃ s : State, ∃ o : Fin 4, ∃ d, ∃ rest, s.outbox o = d :: rest ∧ let s1 := s.setOutbox o rest; let e := s1.ent d.frame.flow; let k := entSlot e; let st := (s1.ttb (o.val / 2)).store (o.val % 2); let held := (st.filter (fun a => a.1 = d.frame.flow)).length; let limit := ((sends ((s1.ctxList k).getD [])).filter (fun a => a.att = o.val / 2)).length; (entState e ≠ 1 ∨ entEnabled e = false)) ∧
  (∃ s : State, ∃ o : Fin 4, ∃ d, ∃ rest, s.outbox o = d :: rest ∧ let s1 := s.setOutbox o rest; let e := s1.ent d.frame.flow; let k := entSlot e; let st := (s1.ttb (o.val / 2)).store (o.val % 2); let held := (st.filter (fun a => a.1 = d.frame.flow)).length; let limit := ((sends ((s1.ctxList k).getD [])).filter (fun a => a.att = o.val / 2)).length; entState e = 1 ∧ entEnabled e = true ∧ s1.ctxReadmit k = true) ∧
  (∃ s : State, ∃ o : Fin 4, ∃ d, ∃ rest, s.outbox o = d :: rest ∧ let s1 := s.setOutbox o rest; let e := s1.ent d.frame.flow; let k := entSlot e; let st := (s1.ttb (o.val / 2)).store (o.val % 2); let held := (st.filter (fun a => a.1 = d.frame.flow)).length; let limit := ((sends ((s1.ctxList k).getD [])).filter (fun a => a.att = o.val / 2)).length; entState e = 1 ∧ entEnabled e = true ∧ s1.ctxReadmit k = false ∧ held < limit) ∧
  (∃ s : State, ∃ o : Fin 4, ∃ d, ∃ rest, s.outbox o = d :: rest ∧ let s1 := s.setOutbox o rest; let e := s1.ent d.frame.flow; let k := entSlot e; let st := (s1.ttb (o.val / 2)).store (o.val % 2); let held := (st.filter (fun a => a.1 = d.frame.flow)).length; let limit := ((sends ((s1.ctxList k).getD [])).filter (fun a => a.att = o.val / 2)).length; entState e = 1 ∧ entEnabled e = true ∧ s1.ctxReadmit k = false ∧ limit ≤ held) ∧
  (∃ s : State, ∃ q : Req, ∃ v : Word, ∃ x : Fin 2, s.accepts q rTTB_EXP_SWAP v ∧ bitOf v x = true ∧ bitOf v (1 - x : Fin 2) = false ∧ s.flag rTTB_EXP fTTB_EXP_bank_write = true) :=
  ⟨⟨(on 0x38 State.reset).put (rRCTL_STATUS 0) fRCTL_STATUS_state rcMaster, anise, 1, 0, by and_intros <;> decide +kernel⟩,
   ⟨(on 0x38 State.reset).put (rTTB_STATUS 0) fTTB_STATUS_valid 1, 0, 0, by and_intros <;> decide +kernel⟩,
   ⟨(on 0x38 State.reset), 1, 2 ^ 20 - 1, by and_intros <;> decide +kernel⟩,
   ⟨(on 0x38 State.reset).setTtb 0 { pend := some ⟨1, 10, 0⟩ }, 0, ⟨1, 10, 0⟩, by and_intros <;> decide +kernel⟩,
   ⟨(on 0x38 State.reset).setTtb 0 { due := some 5, asm := some ⟨1, 10, 2, 0, 1, 0, []⟩ }, 0, by and_intros <;> decide +kernel⟩,
   ⟨timed.setOutbox 0 [delivered (queuedFrame 5 [])], 0, delivered (queuedFrame 5 []), [], by and_intros <;> decide +kernel⟩,
   ⟨((timed.setEnabled 5 0 true).setReadmit 0 true).setOutbox 0 [delivered (queuedFrame 5 [])], 0, delivered (queuedFrame 5 []), [], by and_intros <;> decide +kernel⟩,
   ⟨(timed.setEnabled 5 0 true).setOutbox 0 [delivered (queuedFrame 5 [])], 0, delivered (queuedFrame 5 []), [], by and_intros <;> decide +kernel⟩,
   ⟨(timed.setEnabled 5 0 true).setOutbox 3 [delivered (queuedFrame 5 [])], 3, delivered (queuedFrame 5 []), [], by and_intros <;> decide +kernel⟩,
   ⟨(onX 0x38 State.reset).put rTTB_EXP fTTB_EXP_bank_write 1, anise, 2, 1, by and_intros <;> decide +kernel⟩⟩

theorem witness_TimetableWindowAndLog :
  (∃ s : State, ∃ q : Req, let a := (s.reg rTTB_MEM_ADDR).toNat % 2 ^ 19 / 4 * 4; ∃ v : Word, s.accepts q rTTB_MEM_DATA v ∧ 0x50000 ≤ a ∧ s.listInUse ((a - 0x50000) / 4) = false ∧ ∃ b, ((b < a ∨ a + 4 ≤ b))) ∧
  (∃ s : State, ∃ q : Req, let a := (s.reg rTTB_MEM_ADDR).toNat % 2 ^ 19 / 4 * 4; ∃ v : Word, s.accepts q rTTB_MEM_DATA v ∧ a < 0x40000 ∧ s.flag rTTB_EXP fTTB_EXP_bank_write = false) ∧
  (∃ s : State, ∃ q : Req, let a := (s.reg rTTB_MEM_ADDR).toNat % 2 ^ 19 / 4 * 4; ∃ v : Word, s.accepts q rTTB_MEM_DATA_INC v) ∧
  (∃ s : State, ∃ q : Req, let a := (s.reg rTTB_MEM_ADDR).toNat % 2 ^ 19 / 4 * 4; ∃ mp : Bool, s.allowsRead q rTTB_MEM_DATA_INC mp) ∧
  (∃ s : State, ∃ q : Req, let a := (s.reg rTTB_MEM_ADDR).toNat % 2 ^ 19 / 4 * 4; ∃ mp : Bool, ∃ w, ∃ rest, s.allowsRead q rTTB_LOG_POP mp ∧ s.ttbLog = w :: rest) ∧
  (∃ s : State, ∃ q : Req, let a := (s.reg rTTB_MEM_ADDR).toNat % 2 ^ 19 / 4 * 4; ∃ mp : Bool, s.allowsRead q rTTB_LOG_POP mp ∧ s.ttbLog = []) :=
  ⟨⟨(on 0x39 State.reset).setReg rTTB_MEM_ADDR 0x7FFFC, anise, 1, (by decide +kernel), by decide +kernel, by decide +kernel, 0, (by decide +kernel)⟩,
   ⟨(on 0x39 State.reset), anise, 1, by and_intros <;> decide +kernel⟩,
   ⟨(on 0x39 State.reset).setReg rTTB_MEM_ADDR 0x50000, anise, 1, (by decide +kernel)⟩,
   ⟨(on 0x39 State.reset), anise, false, (by decide +kernel)⟩,
   ⟨{ on 0x38 State.reset with ttbLog := [1] }, anise, false, 1, [], by and_intros <;> decide +kernel⟩,
   ⟨on 0x38 State.reset, anise, false, by and_intros <;> decide +kernel⟩⟩

theorem witness_ListOfEnabledFlowIsProtected :
  (∃ s : State, ∃ q : Req, ∃ v : Word, let a := (s.reg rTTB_MEM_ADDR).toNat % 2 ^ 19 / 4 * 4; 0x50000 ≤ a ∧ s.listInUse ((a - 0x50000) / 4) = true ∧ s.accepts q rTTB_MEM_DATA v) ∧
  (∃ s : State, ∃ q : Req, ∃ v : Word, let a := (s.reg rTTB_MEM_ADDR).toNat % 2 ^ 19 / 4 * 4; 0x50000 ≤ a ∧ s.listInUse ((a - 0x50000) / 4) = true ∧ s.accepts q rTTB_MEM_DATA_INC v) :=
  ⟨⟨(on 0x39 (timed.setEnabled 5 0 true)).setReg rTTB_MEM_ADDR 0x50000, anise, 0, by and_intros <;> decide +kernel⟩,
   ⟨(on 0x39 (timed.setEnabled 5 0 true)).setReg rTTB_MEM_ADDR 0x50000, anise, 0, by and_intros <;> decide +kernel⟩⟩

/-! ## Premises, part 5 -/

theorem witness_TimeBasesAct :
  (∃ s : State, ∃ q : Req, ∃ b : Fin 4, ∃ v : Word, s.accepts q (rTB_CMD b) v ∧ bitOf v 0 = true ∧ bitOf v 1 = false) ∧
  (∃ s : State, ∃ q : Req, ∃ b : Fin 4, ∃ v : Word, s.accepts q (rTB_CMD b) v ∧ bitOf v 0 = false ∧ bitOf v 1 = true ∧ s.flag (rTB_STATUS b) fTB_STATUS_step_used = false ∧ (s.base b).step = none) ∧
  (∃ s : State, ∃ q : Req, ∃ b : Fin 4, ∃ v : Word, s.accepts q (rTB_CMD b) v ∧ bitOf v 0 = false ∧ bitOf v 1 = true ∧ ((s.flag (rTB_STATUS b) fTB_STATUS_step_used = true ∨ (s.base b).step ≠ none))) ∧
  (∃ s : State, ∃ q : Req, ∃ b : Fin 4, ∃ v : Word, s.accepts q (rTB_SESSION b) v ∧ bitOf v 0 = true) ∧
  (∃ s : State, ∃ q : Req, ∃ b : Fin 4, ∃ v : Word, s.accepts q (rTB_RATE_HI b) v) ∧
  (∃ s : State, s.enabled 0x40 = true ∧ s.isRoot = false ∧ s.locked = true) ∧
  (∃ s : State, s.enabled 0x40 = true ∧ s.isRoot = false ∧ s.locked = false) :=
  ⟨⟨on 0x41 State.reset, anise, 1, 1, by and_intros <;> decide +kernel⟩,
   ⟨on 0x43 State.reset, anise, 3, 2, by and_intros <;> decide +kernel⟩,
   ⟨(on 0x43 State.reset).put (rTB_STATUS 3) fTB_STATUS_step_used 1, anise, 3, 2, by and_intros <;> decide +kernel⟩,
   ⟨on 0x40 State.reset, anise, 0, 1, by and_intros <;> decide +kernel⟩,
   ⟨on 0x42 State.reset, anise, 2, 0x400, by decide +kernel⟩,
   ⟨(on 0x40 State.reset).put (rTB_STATUS 0) fTB_STATUS_locked 1, by and_intros <;> decide +kernel⟩,
   ⟨on 0x40 State.reset, by and_intros <;> decide +kernel⟩⟩

theorem witness_StepsAndTicksOfABase :
  (∃ s : State, ∃ b : Fin 4, ∃ n : Int, 0 ≤ ((s.base b).total : Int) + n ∧ ((s.base b).total : Int) + n < 2 ^ 48 * 1000000000) ∧
  (∃ s : State, ∃ b : Fin 4, s.islandRuns = true ∧ s.enabled (0x40 + b) = true ∧ (s.base b).ns < 1000000000 ∧ (s.base b).sec < 2 ^ 48 - 1 ∧ (s.base b).frac < 2 ^ 40 ∧ (s.base b).inc ≤ 4402444557615) ∧
  (∃ s : State, s.islandRuns = false) :=
  ⟨⟨State.reset, 0, 281474976710655999999999, by and_intros <;> decide +kernel⟩,
   ⟨on 0x40 State.reset, 0, by and_intros <;> decide +kernel⟩,
   ⟨({ State.reset with pwr := { State.reset.pwr with level := 3 } } : State), by decide +kernel⟩⟩

theorem witness_TimeMessagesAct :
  (∃ s : State, ∃ x : Fin 2, ∃ me, s.nodeId x = some me ∧ s.flag (rRCTL_STATUS x) fRCTL_STATUS_ring_ready = true ∧ s.enabled 0x40 = true ∧ s.flag (rTB_EXP 0) fTB_EXP_sync_off = false ∧ s.flag rFWU_STATUS fFWU_STATUS_handover_active = false ∧ let t : State := { s with servo := { s.servo with seq0 := (s.servo.seq0 + 1) % 65536 } }; s.rcState x = rcMaster) ∧
  (∃ s : State, ∃ x : Fin 2, ∃ me, s.nodeId x = some me ∧ s.flag (rRCTL_STATUS x) fRCTL_STATUS_ring_ready = true ∧ s.enabled 0x40 = true ∧ s.flag (rTB_EXP 0) fTB_EXP_sync_off = false ∧ s.flag rFWU_STATUS fFWU_STATUS_handover_active = false ∧ let t : State := { s with servo := { s.servo with seq0 := (s.servo.seq0 + 1) % 65536 } }; s.rcState x ≠ rcMaster ∧ s.isBridge = true ∧ x = s.lowerAtt) ∧
  (∃ s : State, ∃ x : Fin 2, s.flag rFWU_STATUS fFWU_STATUS_handover_active = true ∧ s.boot.held.contains (0, x.val, 0) = false) ∧
  (∃ s : State, ∃ tunnel : Bool, ∃ y : Fin 2, ∃ p : Fin 2, ∃ f : Frame, ∃ d : Delivered, ∃ ic : Nat, ∃ tb : Nat, ∃ sub : Fin 4, s.timeFrame tunnel y p f (if tunnel then none else some ic) = some d ∧ d.rx = some (ic, tb) ∧ d.discard = false ∧ let t := s.setOutbox 14 ((s.outbox 14).erase d); let c := (nthD f.payload 0 0).toNat; t.enabled 0x40 = true ∧ let run := if tunnel then exec (.tunnelReceived y p f sub) s else exec (.timeMessageReceived y p f ic) s; nthD f.payload 1 0 ≠ 1) ∧
  (∃ s : State, ∃ tunnel : Bool, ∃ y : Fin 2, ∃ p : Fin 2, ∃ f : Frame, ∃ d : Delivered, ∃ ic : Nat, ∃ tb : Nat, ∃ sub : Fin 4, s.timeFrame tunnel y p f (if tunnel then none else some ic) = some d ∧ d.rx = some (ic, tb) ∧ d.discard = false ∧ let t := s.setOutbox 14 ((s.outbox 14).erase d); let c := (nthD f.payload 0 0).toNat; t.enabled 0x40 = true ∧ let run := if tunnel then exec (.tunnelReceived y p f sub) s else exec (.timeMessageReceived y p f ic) s; nthD f.payload 1 0 = 1 ∧ 1 ≤ c ∧ c ≤ 3 ∧ t.linkDelay y p = none) ∧
  (∃ s : State, ∃ tunnel : Bool, ∃ y : Fin 2, ∃ p : Fin 2, ∃ f : Frame, ∃ d : Delivered, ∃ ic : Nat, ∃ tb : Nat, ∃ sub : Fin 4, s.timeFrame tunnel y p f (if tunnel then none else some ic) = some d ∧ d.rx = some (ic, tb) ∧ d.discard = false ∧ let t := s.setOutbox 14 ((s.outbox 14).erase d); let c := (nthD f.payload 0 0).toNat; t.enabled 0x40 = true ∧ let run := if tunnel then exec (.tunnelReceived y p f sub) s else exec (.timeMessageReceived y p f ic) s; nthD f.payload 1 0 = 1 ∧ t.linkDelay y p ≠ none ∧ (c = 1 ∨ c = 2)) ∧
  (∃ s : State, ∃ tunnel : Bool, ∃ y : Fin 2, ∃ p : Fin 2, ∃ f : Frame, ∃ d : Delivered, ∃ ic : Nat, ∃ tb : Nat, ∃ sub : Fin 4, s.timeFrame tunnel y p f (if tunnel then none else some ic) = some d ∧ d.rx = some (ic, tb) ∧ d.discard = false ∧ let t := s.setOutbox 14 ((s.outbox 14).erase d); let c := (nthD f.payload 0 0).toNat; t.enabled 0x40 = true ∧ let run := if tunnel then exec (.tunnelReceived y p f sub) s else exec (.timeMessageReceived y p f ic) s; nthD f.payload 1 0 = 1 ∧ t.linkDelay y p ≠ none ∧ c = 3 ∧ tunnel = true) ∧
  (∃ s : State, ∃ seq, ∃ r, s.servo.residences.find? (fun r => r.seq = seq) = some r) :=
  ⟨⟨timeMaster, 0, 0x3FF00, by and_intros <;> decide +kernel⟩,
   ⟨(((on 0x28 (on 0x40 State.reset)).put rRCTL_CTRL fRCTL_CTRL_enable_b 1).put (rRCTL_STATUS 1) fRCTL_STATUS_ring_ready 1).setRc 1 { numbered := true }, 1, 0x3FF00, by and_intros <;> decide +kernel⟩,
   ⟨State.reset.put rFWU_STATUS fFWU_STATUS_handover_active 1, 0, by and_intros <;> decide +kernel⟩,
   ⟨(on 0x40 State.reset).setOutbox 14 [timeMsg [1, 2]], false, 0, 0, (timeMsg [1, 2]).frame, timeMsg [1, 2], 0, 0, 0, by and_intros <;> decide +kernel⟩,
   ⟨(on 0x40 State.reset).setOutbox 14 [timeMsg [1, 1]], false, 0, 0, (timeMsg [1, 1]).frame, timeMsg [1, 1], 0, 0, 0, by and_intros <;> decide +kernel⟩,
   ⟨((on 0x40 State.reset).setRc 0 { linkE := some 0 }).setOutbox 14 [timeMsg [1, 1]], false, 0, 0, (timeMsg [1, 1]).frame, timeMsg [1, 1], 0, 0, 0, by and_intros <;> decide +kernel⟩,
   ⟨((on 0x40 State.reset).setRc 0 { linkE := some 0 }).setOutbox 14 [timeMsg [3, 1]], true, 0, 0, (timeMsg [3, 1]).frame, timeMsg [3, 1], 0, 0, 3, by and_intros <;> decide +kernel⟩,
   ⟨{ State.reset with servo := { State.reset.servo with residences := [⟨0, 1, [], 2⟩] } }, 1, ⟨0, 1, [], 2⟩, (by decide +kernel)⟩⟩

theorem witness_EventUnitsAct :
  (∃ s : State, ∃ q : Req, ∃ v : Word, s.accepts q rTSU_CMD v ∧ bitOf v 0 = true) ∧
  (∃ s : State, ∃ q : Req, ∃ u : Fin 16, s.accepts q rTSU_ARM (toW (2 ^ u.val)) ∧ s.get (rTSU_EVT_CFG u) fTSU_EVT_CFG_mode = 2 ∧ (s.base (s.unitBase u)).total < s.compareTime u) ∧
  (∃ s : State, ∃ u : Fin 16, s.islandRuns = true ∧ s.comparing u = true ∧ let now := (s.base (s.unitBase u)).total; s.compareTime u ≤ now) ∧
  (∃ s : State, ∃ u : Fin 16, s.islandRuns = true ∧ s.comparing u = true ∧ let now := (s.base (s.unitBase u)).total; now < s.compareTime u) ∧
  (∃ s : State, ∃ u : Fin 16, ∃ rising : Bool, ∃ sub : Fin 4, s.enabled 0x44 = true ∧ s.islandRuns = true ∧ s.armed 0x44 1 = none ∧ s.eventPin u = true ∧ s.get (rTSU_EVT_CFG u) fTSU_EVT_CFG_mode = 1 ∧ (s.get (rTSU_EVT_CFG u) fTSU_EVT_CFG_edge).testBit (if s.pinEdge u rising then 0 else 1) = true ∧ let last := spGet (fun _ => 0) s.servo.edgeAt u; let near := last ≠ 0 ∧ s.servo.island + sub + 1 < last + 20; near) ∧
  (∃ s : State, ∃ u : Fin 16, ∃ rising : Bool, ∃ sub : Fin 4, s.enabled 0x44 = true ∧ s.islandRuns = true ∧ s.armed 0x44 1 = none ∧ s.eventPin u = true ∧ s.get (rTSU_EVT_CFG u) fTSU_EVT_CFG_mode = 1 ∧ (s.get (rTSU_EVT_CFG u) fTSU_EVT_CFG_edge).testBit (if s.pinEdge u rising then 0 else 1) = true ∧ let last := spGet (fun _ => 0) s.servo.edgeAt u; let near := last ≠ 0 ∧ s.servo.island + sub + 1 < last + 20; ¬ near ∧ s.servo.cap.length < 64) ∧
  (∃ s : State, ∃ u : Fin 16, ∃ rising : Bool, ∃ sub : Fin 4, s.enabled 0x44 = true ∧ s.islandRuns = true ∧ s.armed 0x44 1 = none ∧ s.eventPin u = true ∧ s.get (rTSU_EVT_CFG u) fTSU_EVT_CFG_mode = 1 ∧ (s.get (rTSU_EVT_CFG u) fTSU_EVT_CFG_edge).testBit (if s.pinEdge u rising then 0 else 1) = true ∧ let last := spGet (fun _ => 0) s.servo.edgeAt u; let near := last ≠ 0 ∧ s.servo.island + sub + 1 < last + 20; ¬ near ∧ 64 ≤ s.servo.cap.length) ∧
  (∃ s : State, ∃ q : Req, ∃ mp : Bool, ∃ n : Nat, ∃ l, s.allowsRead q rTSU_CAP_POP mp ∧ s.servo.cap = n :: l) ∧
  (∃ s : State, ∃ q : Req, ∃ mp : Bool, s.allowsRead q rTSU_CAP_POP mp ∧ s.servo.cap = []) :=
  ⟨⟨on 0x44 State.reset, anise, 1, by and_intros <;> decide +kernel⟩,
   ⟨(unit 2 0).setReg (rTSU_EVT_NS 0) 1, anise, 0, by and_intros <;> decide +kernel⟩,
   ⟨(unit 2 0).put (rTSU_EVT_STATUS 0) fTSU_EVT_STATUS_armed 1, 0, by and_intros <;> decide +kernel⟩,
   ⟨((unit 2 0).setReg (rTSU_EVT_NS 0) 1).put (rTSU_EVT_STATUS 0) fTSU_EVT_STATUS_armed 1, 0, by and_intros <;> decide +kernel⟩,
   ⟨{ capture with servo := { State.reset.servo with island := 0, edgeAt := [(0, 1)] } }, 0, true, 3, by and_intros <;> decide +kernel⟩,
   ⟨capture, 0, true, 3, by and_intros <;> decide +kernel⟩,
   ⟨{ capture with servo := { State.reset.servo with cap := List.replicate 64 0 } }, 0, false, 0, by and_intros <;> decide +kernel⟩,
   ⟨{ unit 1 3 with servo := { State.reset.servo with cap := [7] } }, anise, false, 7, [], by and_intros <;> decide +kernel⟩,
   ⟨unit 1 3, anise, false, by and_intros <;> decide +kernel⟩⟩

theorem witness_LevelsAndBarriers :
  (∃ s : State, ∃ q : Req, ∃ v : Word, s.accepts q rXLT_LEVEL v ∧ let a := fldOf v fXLT_LEVEL_host_a; let b := fldOf v fXLT_LEVEL_host_b; a ≤ s.strapLevel 0 ∧ b ≤ s.strapLevel 1) ∧
  (∃ s : State, ∃ q : Req, ∃ v : Word, s.accepts q rXLT_LEVEL v ∧ let a := fldOf v fXLT_LEVEL_host_a; let b := fldOf v fXLT_LEVEL_host_b; s.strapLevel 0 < a ∧ b ≤ s.strapLevel 1) ∧
  (∃ s : State, ∃ q : Req, ∃ v : Word, s.accepts q rXLT_LEVEL v ∧ let a := fldOf v fXLT_LEVEL_host_a; let b := fldOf v fXLT_LEVEL_host_b; a ≤ s.strapLevel 0 ∧ s.strapLevel 1 < b) ∧
  (∃ s : State, ∃ q : Req, ∃ v : Word, s.accepts q rXLT_LEVEL v ∧ let a := fldOf v fXLT_LEVEL_host_a; let b := fldOf v fXLT_LEVEL_host_b; s.strapLevel 0 < a ∧ s.strapLevel 1 < b) ∧
  (∃ s : State, ∃ q : Req, ∃ v : Word, ∃ keep, s.accepts q rXLT_BARRIER v ∧ ((fldOf v fXLT_BARRIER_scope = 1 ∧ keep = [] ∨ fldOf v fXLT_BARRIER_scope = 2 ∧ keep = s.tlb.filter (fun e => e.space != fldOf v fXLT_BARRIER_space) ∨ fldOf v fXLT_BARRIER_scope = 3 ∧ keep = s.tlb.filter (fun e => e.space != fldOf v fXLT_BARRIER_space || e.page != fldOf v fXLT_BARRIER_page)))) ∧
  (∃ s : State, ∃ q : Req, s.barriers = [.done q]) ∧
  (∃ s : State, ∃ q : Req, ∃ c : Cont, ∃ rest, s.barriers = .done q :: c :: rest) ∧
  (∃ s : State, s.barriers ≠ []) ∧
  (∃ s : State, ∃ q : Req, ∃ v : Word, s.accepts q rXLT_FCAP_CMD v ∧ bitOf v 0 = true) :=
  ⟨⟨on 8 State.reset, anise, 0, by and_intros <;> decide +kernel⟩,
   ⟨on 8 State.reset, anise, 3, by and_intros <;> decide +kernel⟩,
   ⟨on 8 State.reset, anise, 0xC, by and_intros <;> decide +kernel⟩,
   ⟨on 8 State.reset, anise, 0xF, by and_intros <;> decide +kernel⟩,
   ⟨on 8 State.reset, anise, 1, [], by and_intros <;> decide +kernel⟩,
   ⟨{ State.reset with barriers := [.done anise] }, anise, by decide +kernel⟩,
   ⟨{ State.reset with barriers := [.done anise, .done hostA] }, anise, .done hostA, [], by decide +kernel⟩,
   ⟨{ State.reset with barriers := [.done anise] }, by decide +kernel⟩,
   ⟨on 0x0A State.reset, anise, 1, by and_intros <;> decide +kernel⟩⟩

theorem witness_TranslationChecks :
  (∃ s : State, ∃ m : Nat, (s.enabled 0x08 = false ∨ s.rootOk (s.spaceOf m) = false)) ∧
  (∃ s : State, ∃ m : Nat, ∃ l : Level, ∃ a : Nat, ∃ x : Xfer, ∃ bus : Nat, (s.translate m l a x bus).1.cause = 0 ∧ let e := (s.pageEntry (s.spaceOf m) a).1; x = .write) ∧
  (∃ s : State, ∃ m : Nat, ∃ l : Level, ∃ a : Nat, ∃ x : Xfer, ∃ bus : Nat, (s.translate m l a x bus).1.cause = 0 ∧ let e := (s.pageEntry (s.spaceOf m) a).1; x = .read) ∧
  (∃ s : State, ∃ m : Nat, ∃ l : Level, ∃ a : Nat, ∃ x : Xfer, ∃ bus : Nat, (s.translate m l a x bus).1.cause = 0 ∧ let e := (s.pageEntry (s.spaceOf m) a).1; x = .fetch) ∧
  (∃ s : State, ∃ m : Nat, ∃ l : Level, ∃ a : Nat, ∃ x : Xfer, ∃ bus : Nat, (s.translate m l a x bus).1.cause = 0 ∧ let e := (s.pageEntry (s.spaceOf m) a).1; natBits e.2.1.toNat 9 8 = 2) :=
  ⟨⟨State.reset.put (rPG_CTRL 8) fPG_CTRL_enable 0, 0, Or.inl (by decide +kernel)⟩,
   ⟨mapped, 0x41, .warden, 0x200FFF, .write, 0, by and_intros <;> decide +kernel⟩,
   ⟨mapped, 0x41, .warden, 0x200FFF, .read, 0, by and_intros <;> decide +kernel⟩,
   ⟨mapped, 0x41, .warden, 0x200FFF, .fetch, 0, by and_intros <;> decide +kernel⟩,
   ⟨{ mapped with tlb := [⟨0x200, 0, 0x200271, 0⟩] }, 0x41, .warden, 0x200FFF, .fetch, 0, by and_intros <;> decide +kernel⟩⟩

theorem witness_ChannelsAreCommanded :
  (∃ s : State, ∃ q : Req, ∃ c : Fin 16, let mayHold (k : Fin 16) : Prop := s.chState k = 0 ∧ (s.levelOf q = .warden ∨ bitOf (s.reg rDMAA_CFG) k = false); ∃ mp : Bool, s.allowsRead q rDMAA_ALLOC mp ∧ ((∀ k : Fin 16, k < c → ¬ mayHold k)) ∧ mayHold c) ∧
  (∃ s : State, ∃ q : Req, let mayHold (k : Fin 16) : Prop := s.chState k = 0 ∧ (s.levelOf q = .warden ∨ bitOf (s.reg rDMAA_CFG) k = false); ∃ mp : Bool, s.allowsRead q rDMAA_ALLOC mp ∧ ((∀ k : Fin 16, ¬ mayHold k))) ∧
  (∃ s : State, ∃ q : Req, ∃ c : Fin 16, let mayHold (k : Fin 16) : Prop := s.chState k = 0 ∧ (s.levelOf q = .warden ∨ bitOf (s.reg rDMAA_CFG) k = false); ∃ v : Word, v.toNat % 16 = c.val ∧ bitOf v 31 = false ∧ s.accepts q rDMAA_FREE v ∧ ((s.levelOf q = .warden ∨ s.dmaOwns c q = true)) ∧ (s.chState c = 1 ∨ s.chState c = 4)) ∧
  (∃ s : State, ∃ q : Req, ∃ c : Fin 16, let mayHold (k : Fin 16) : Prop := s.chState k = 0 ∧ (s.levelOf q = .warden ∨ bitOf (s.reg rDMAA_CFG) k = false); ∃ v : Word, v.toNat % 16 = c.val ∧ s.accepts q rDMAA_FREE v ∧ s.levelOf q ≠ .warden ∧ s.dmaOwns c q = false) ∧
  (∃ s : State, ∃ q : Req, ∃ c : Fin 16, let mayHold (k : Fin 16) : Prop := s.chState k = 0 ∧ (s.levelOf q = .warden ∨ bitOf (s.reg rDMAA_CFG) k = false); ∃ v : Word, s.accepts q (rDMA_CMD c) v ∧ v.toNat % 16 = 1 ∧ s.chState c = 1 ∧ s.flag (rDMA_CTRL c) fDMA_CTRL_rx = false) ∧
  (∃ s : State, ∃ q : Req, ∃ c : Fin 16, let mayHold (k : Fin 16) : Prop := s.chState k = 0 ∧ (s.levelOf q = .warden ∨ bitOf (s.reg rDMAA_CFG) k = false); ∃ v : Word, s.accepts q (rDMA_CMD c) v ∧ v.toNat % 16 = 1 ∧ s.chState c = 1 ∧ s.flag (rDMA_CTRL c) fDMA_CTRL_rx = true ∧ (s.binding c).isSome = true) ∧
  (∃ s : State, ∃ q : Req, ∃ c : Fin 16, let mayHold (k : Fin 16) : Prop := s.chState k = 0 ∧ (s.levelOf q = .warden ∨ bitOf (s.reg rDMAA_CFG) k = false); ∃ v : Word, s.accepts q (rDMA_CMD c) v ∧ v.toNat % 16 = 2 ∧ s.chState c = 3) ∧
  (∃ s : State, ∃ q : Req, ∃ c : Fin 16, let mayHold (k : Fin 16) : Prop := s.chState k = 0 ∧ (s.levelOf q = .warden ∨ bitOf (s.reg rDMAA_CFG) k = false); ∃ v : Word, s.accepts q (rDMA_CMD c) v ∧ v.toNat % 16 = 4 ∧ s.chState c = 3) ∧
  (∃ s : State, ∃ q : Req, ∃ c : Fin 16, let mayHold (k : Fin 16) : Prop := s.chState k = 0 ∧ (s.levelOf q = .warden ∨ bitOf (s.reg rDMAA_CFG) k = false); ∃ v : Word, s.accepts q (rDMA_CMD c) v ∧ v.toNat % 16 = 8 ∧ s.chState c = 2 ∧ (s.dma c).desc = []) ∧
  (∃ s : State, ∃ q : Req, ∃ c : Fin 16, let mayHold (k : Fin 16) : Prop := s.chState k = 0 ∧ (s.levelOf q = .warden ∨ bitOf (s.reg rDMAA_CFG) k = false); ∃ v : Word, s.accepts q (rDMA_CMD c) v ∧ v.toNat % 16 = 8 ∧ s.chState c = 2 ∧ (s.dma c).desc ≠ []) :=
  ⟨⟨on 0x60 State.reset, anise, 0, false, by and_intros <;> decide +kernel⟩,
   ⟨(List.range 16).foldl (fun s c => s.setChState c 1) (on 0x60 State.reset), anise, false, by and_intros <;> decide +kernel⟩,
   ⟨on 0x60 (channel 4 State.reset), anise, 0, 0, by decide +kernel, by decide +kernel, by decide +kernel, (by decide +kernel), Or.inr (by decide +kernel)⟩,
   ⟨on 0x60 (channel 4 State.reset), hostB, 0, 0, by and_intros <;> decide +kernel⟩,
   ⟨channel 1 State.reset, anise, 0, 1, by and_intros <;> decide +kernel⟩,
   ⟨((channel 1 State.reset).put (rDMA_CTRL 0) fDMA_CTRL_rx 1).put (rDMA_RX_CFG 0) fDMA_RX_CFG_port 4, anise, 0, 1, by and_intros <;> decide +kernel⟩,
   ⟨channel 3 State.reset, anise, 0, 2, by and_intros <;> decide +kernel⟩,
   ⟨channel 3 State.reset, anise, 0, 4, by and_intros <;> decide +kernel⟩,
   ⟨channel 2 State.reset, anise, 0, 8, by and_intros <;> decide +kernel⟩,
   ⟨copying, anise, 0, 8, by and_intros <;> decide +kernel⟩⟩

theorem witness_ChannelSteps :
  (∃ s : State, ∃ c : Fin 16, s.enabled (0x50 + c) = true ∧ s.chState c = 2 ∧ (s.dma c).ending = none ∧ (s.dma c).desc = [] ∧ (s.reg (rDMA_CUR_DESC c)).toNat % 32 ≠ 0) ∧
  (∃ s : State, ∃ c : Fin 16, s.enabled (0x50 + c) = true ∧ s.chState c = 2 ∧ (s.dma c).ending = none ∧ ∃ cause, ∃ fa, ∃ l, ∃ t, (s.dma c).desc = [] ∧ let a := (s.reg (rDMA_CUR_DESC c)).toNat; a % 32 = 0 ∧ s.xlate c a 32 .fetch = ((some (cause, fa), l), t)) ∧
  (∃ s : State, ∃ c : Fin 16, ∃ host : List (Nat × Byte), s.enabled (0x50 + c) = true ∧ s.chState c = 2 ∧ (s.dma c).ending = none ∧ (s.dma c).desc ≠ [] ∧ (s.dma c).started = true ∧ natBits ((s.dma c).word 0) 31 28 = 0 ∧ (s.dma c).busy = false ∧ (s.dma c).result = none ∧ let n := min (s.curLeft c) (64 - s.curDst c % 64); ∃ bs : List Byte, ∃ t, ∃ ps, ∃ u, ∃ v : State, s.burstRead c (s.curSrc c) n ((s.dma c).word 2) host = (some (0, bs), t) ∧ t.burstDest c (t.curDst c) n ((s.dma c).word 4) = (some ps, u) ∧ u.copyWrite c ps bs = (some 0, v)) ∧
  (∃ s : State, ∃ c : Fin 16, ∃ host : List (Nat × Byte), s.enabled (0x50 + c) = true ∧ s.chState c = 2 ∧ (s.dma c).ending = none ∧ (s.dma c).desc ≠ [] ∧ (s.dma c).started = true ∧ natBits ((s.dma c).word 0) 31 28 = 0 ∧ (s.dma c).busy = false ∧ (s.dma c).result = none ∧ let n := min (s.curLeft c) (64 - s.curDst c % 64); ∃ st, ∃ bs : List Byte, ∃ t, st ≠ 0 ∧ s.burstRead c (s.curSrc c) n ((s.dma c).word 2) host = (some (st, bs), t)) :=
  ⟨⟨(channel 2 State.reset).setReg (rDMA_CUR_DESC 0) 4, 0, by and_intros <;> decide +kernel⟩,
   ⟨channel 2 State.reset, 0, by decide +kernel, (by decide +kernel), by decide +kernel, 1, 0, [], ((channel 2 State.reset).xlate 0 0 32 .fetch).2, by and_intros <;> decide +kernel⟩,
   ⟨copying, 0, [], (by decide +kernel), by decide +kernel, by decide +kernel, by decide +kernel, (by decide +kernel), by decide +kernel, by decide +kernel, by decide +kernel, copied.1, copied.2, [⟨0, 0x200800, 64⟩], (copied.2.burstDest 0 0x200800 64 0x200800).2, ((copied.2.burstDest 0 0x200800 64 0x200800).2.copyWrite 0 [⟨0, 0x200800, 64⟩] copied.1).2, by and_intros <;> decide +kernel⟩,
   ⟨holed, 0, [], (by decide +kernel), by decide +kernel, by decide +kernel, by decide +kernel, (by decide +kernel), by decide +kernel, by decide +kernel, by decide +kernel, holedRead.1.1, holedRead.1.2, holedRead.2, by and_intros <;> decide +kernel⟩⟩

theorem witness_ReceiveQueuesAct :
  (∃ s : State, ∃ q : Req, ∃ c : Fin 16, ∃ v : Word, s.accepts q (rDMA_RX_TAIL c) v ∧ let t := v.toNat % 65536; let n := (t + 65536 - s.get (rDMA_RX_HEAD c) fDMA_RX_HEAD_head) % 65536; let ring := 2 ^ s.get (rDMA_RX_CFG c) fDMA_RX_CFG_ring_k; n ≤ ring) ∧
  (∃ s : State, ∃ q : Req, ∃ c : Fin 16, ∃ v : Word, s.accepts q (rDMA_RX_TAIL c) v ∧ let t := v.toNat % 65536; let n := (t + 65536 - s.get (rDMA_RX_HEAD c) fDMA_RX_HEAD_head) % 65536; let ring := 2 ^ s.get (rDMA_RX_CFG c) fDMA_RX_CFG_ring_k; ring < n) ∧
  (∃ s : State, ∃ q : Req, ∃ c : Fin 16, ∃ v : Word, s.accepts q (rDMA_RSV_PUSH c) v ∧ (s.dma c).rsv.length + (s.dma c).fifo.length < 32) ∧
  (∃ s : State, ∃ q : Req, ∃ c : Fin 16, ∃ v : Word, s.accepts q (rDMA_RSV_PUSH c) v ∧ 32 ≤ (s.dma c).rsv.length + (s.dma c).fifo.length) ∧
  (∃ s : State, ∃ q : Req, ∃ c : Fin 16, ∃ mp : Bool, ∃ i : Nat, ∃ rest, s.allowsRead q (rDMA_RSV_POP c) mp ∧ (s.dma c).fifo = i :: rest) ∧
  (∃ s : State, ∃ o : Fin 16, ∃ d, ∃ rest, s.outbox o = d :: rest ∧ d.frame.kind = 0 ∧ (o = 4 ∨ o = 5 ∨ o = 6 ∨ o = 14)) ∧
  (∃ s : State, ∃ c : Fin 16, s.enabled (0x50 + c) = true ∧ ∃ o, ∃ rest, (s.dma c).open_ = o :: rest ∧ ((s.chState c ≠ 5 ∨ s.get (rDMA_RX_HEAD c) fDMA_RX_HEAD_head = s.get (rDMA_RX_TAIL c) fDMA_RX_TAIL_tail))) ∧
  (∃ s : State, ∃ c : Fin 16, s.enabled (0x50 + c) = true ∧ s.chState c = 5 ∧ s.get (rDMA_RX_HEAD c) fDMA_RX_HEAD_head ≠ s.get (rDMA_RX_TAIL c) fDMA_RX_TAIL_tail) :=
  ⟨⟨channel 5 State.reset, anise, 0, 1, by and_intros <;> decide +kernel⟩,
   ⟨channel 5 State.reset, anise, 0, 0xFFFF, by and_intros <;> decide +kernel⟩,
   ⟨channel 5 State.reset, anise, 0, 0, by and_intros <;> decide +kernel⟩,
   ⟨{ channel 5 State.reset with dmas := [(0, { rsv := List.replicate 31 0, fifo := [5] })] }, anise, 0, 0, by and_intros <;> decide +kernel⟩,
   ⟨{ channel 5 State.reset with dmas := [(0, { fifo := [5] })] }, anise, 0, false, 5, [], by and_intros <;> decide +kernel⟩,
   ⟨State.reset.setOutbox 14 [delivered (queuedFrame 0xF600 [])], 14, delivered (queuedFrame 0xF600 []), [], by decide +kernel, by decide +kernel, Or.inr (Or.inr (Or.inr rfl))⟩,
   ⟨{ channel 5 State.reset with dmas := [(0, { open_ := [⟨delivered (queuedFrame 0xF600 []), 0, [], 0⟩] })] }, 0, by decide +kernel, ⟨delivered (queuedFrame 0xF600 []), 0, [], 0⟩, [], by and_intros <;> decide +kernel⟩,
   ⟨(channel 5 State.reset).put (rDMA_RX_TAIL 0) fDMA_RX_TAIL_tail 1, 0, by and_intros <;> decide +kernel⟩⟩

theorem witness_FrameForNoChannel :
  (∃ s : State, ∃ o : Fin 16, ∃ d : Delivered, ∃ rest : List Delivered, (o = 4 ∨ o = 5 ∨ o = 6 ∨ o = 14) ∧ s.outbox o = d :: rest ∧ d.frame.kind = 0 ∧ let u := s.setOutbox o rest; let queue := (d.held.map HeldCtx.queue).getD 0; ((∀ c : Fin 16, u.enabled (0x50 + c) = true → u.binding c = some (o.val, queue) → u.chState c ≠ 5 ∧ (u.chState c = 3 → (u.dma c).rx = false))) ∧ let t := (((u.flowCount d.frame 0x68).inc rDMAA_CNT_UNBOUND).fault { source := 55, page := 0x60 }); d.frame.cls ≠ 0) ∧
  (∃ s : State, ∃ o : Fin 16, ∃ d : Delivered, ∃ rest : List Delivered, (o = 4 ∨ o = 5 ∨ o = 6 ∨ o = 14) ∧ s.outbox o = d :: rest ∧ d.frame.kind = 0 ∧ let u := s.setOutbox o rest; let queue := (d.held.map HeldCtx.queue).getD 0; ((∀ c : Fin 16, u.enabled (0x50 + c) = true → u.binding c = some (o.val, queue) → u.chState c ≠ 5 ∧ (u.chState c = 3 → (u.dma c).rx = false))) ∧ let t := (((u.flowCount d.frame 0x68).inc rDMAA_CNT_UNBOUND).fault { source := 55, page := 0x60 }); d.frame.cls = 0) :=
  ⟨⟨State.reset.setOutbox 14 [delivered (queuedFrame 0xF600 [])], 14, delivered (queuedFrame 0xF600 []), [], Or.inr (Or.inr (Or.inr rfl)), by and_intros <;> decide +kernel⟩,
   ⟨State.reset.setOutbox 4 [delivered { queuedFrame 0xF600 [] with w0 := 0 }], 4, delivered { queuedFrame 0xF600 [] with w0 := 0 }, [], Or.inl rfl, by and_intros <;> decide +kernel⟩⟩

theorem witness_PcieRequestsAct :
  (∃ s : State, ∃ h : Fin 2, ∃ off : Nat, s.get (rHBx_CFG h) fHBx_CFG_mode = 0 ∧ s.fieldRuns = true ∧ off < 0x100000 ∧ ∃ n : Nat, pageShape off n = true) ∧
  (∃ s : State, ∃ h : Fin 2, ∃ off : Nat, s.get (rHBx_CFG h) fHBx_CFG_mode = 0 ∧ s.fieldRuns = true ∧ off < 0x100000 ∧ ∃ n : Nat, ∃ full, ((full = false ∨ pageShape off n = false))) ∧
  (∃ s : State, ∃ h : Fin 2, ∃ off : Nat, s.get (rHBx_CFG h) fHBx_CFG_mode = 0 ∧ s.fieldRuns = true ∧ off < 0x100000 ∧ ∃ bs : List Byte, pageShape off bs.length = true) ∧
  (∃ s : State, ∃ h : Fin 2, ∃ off : Nat, s.get (rHBx_CFG h) fHBx_CFG_mode = 0 ∧ s.fieldRuns = true ∧ off < 0x100000 ∧ ∃ bs : List Byte, ∃ full, ((full = false ∨ pageShape off bs.length = false))) ∧
  (∃ s : State, ∃ h : Fin 2, ∃ off : Nat, s.get (rHBx_CFG h) fHBx_CFG_mode = 0 ∧ s.fieldRuns = true ∧ off < 2 ^ 26 ∧ s.flag (rHBx_WIN_ATTR h (off / 2 ^ 22)) fHBx_WIN_ATTR_enable = false) ∧
  (∃ s : State, ∃ h : Fin 2, s.get (rHBx_CFG h) fHBx_CFG_mode = 0 ∧ ∃ q : Req, ∃ n : Fin 32, ∃ v : Word, let w := fldPut v fHBx_MSIX_CTRL_mask 0; let a := rHBx_MSIX_CTRL h n; let t := s.store a w; s.accepts q a w ∧ s.flag a fHBx_MSIX_CTRL_mask = true ∧ bitOf (t.reg (rHBx_MSIX_PBA h)) n = true ∧ let u := t.setReg (rHBx_MSIX_PBA h) (toW (natPut (t.reg (rHBx_MSIX_PBA h)).toNat n n 0)); t.flag a fHBx_MSIX_CTRL_mask = false ∧ u.pcieOn h = true ∧ (u.vectors h).contains n.val = true) ∧
  (∃ s : State, ∃ h : Fin 2, s.get (rHBx_CFG h) fHBx_CFG_mode = 0 ∧ ∃ q : Req, ∃ n : Fin 32, ∃ v : Word, let w := fldPut v fHBx_MSIX_CTRL_mask 0; let a := rHBx_MSIX_CTRL h n; let t := s.store a w; s.accepts q a w ∧ s.flag a fHBx_MSIX_CTRL_mask = true ∧ bitOf (t.reg (rHBx_MSIX_PBA h)) n = true ∧ let u := t.setReg (rHBx_MSIX_PBA h) (toW (natPut (t.reg (rHBx_MSIX_PBA h)).toNat n n 0)); t.flag a fHBx_MSIX_CTRL_mask = false ∧ u.pcieOn h = true ∧ (u.vectors h).contains n.val = false) ∧
  (∃ s : State, ∃ h : Fin 2, s.get (rHBx_CFG h) fHBx_CFG_mode = 0 ∧ ∃ l : Fin 6, ∃ g, (s.get (rPG_STATUS (0x68 + h)) fPG_STATUS_block_status).testBit 0 = true ∧ s.enabled (0x68 + h) = true ∧ let t := (s.setReg (rHBx_STATUS h) (toW (b2n g * 16 + l))).put (rPG_STATUS (0x68 + h)) fPG_STATUS_block_status 0; t.enabled (0x68 + h) = true) :=
  ⟨⟨pcie, 0, 0xFFFFC, (by decide +kernel), by decide +kernel, by decide +kernel, 4, (by decide +kernel)⟩,
   ⟨pcie, 0, 0xFFFFC, (by decide +kernel), by decide +kernel, by decide +kernel, 8, true, by decide +kernel⟩,
   ⟨pcie, 0, 0xFFFF8, (by decide +kernel), by decide +kernel, by decide +kernel, List.replicate 8 0, (by decide +kernel)⟩,
   ⟨pcie, 0, 0xFFFFC, (by decide +kernel), by decide +kernel, by decide +kernel, [0, 0, 0, 0], false, by decide +kernel⟩,
   ⟨pcie, 0, 2 ^ 26 - 4, by and_intros <;> decide +kernel⟩,
   ⟨((on 0x6B pcie).setReg (rHBx_MSIX_PBA 0) 1).put rFLT_PENDING fFLT_PENDING_level2 1, 0, by decide +kernel, anise, 0, 1, by and_intros <;> decide +kernel⟩,
   ⟨((on 0x6B pcie).setReg (rHBx_MSIX_PBA 0) 0x80000000), 0, by decide +kernel, anise, 31, 1, by and_intros <;> decide +kernel⟩,
   ⟨pcie.put (rPG_STATUS 0x68) fPG_STATUS_block_status 1, 0, by decide +kernel, 0, false, by and_intros <;> decide +kernel⟩⟩

theorem witness_QspiCommandsAct :
  (∃ s : State, ∃ h : Fin 2, s.get (rHBx_CFG h) fHBx_CFG_mode = 1 ∧ s.pwr.level < 2 ∧ ∃ a : Nat, ∃ n : Nat, ∃ l, ∃ op, ∃ x : Nat, ∃ y, ∃ bad, ∃ late, ((bad = true ∨ s.armed (0x68 + h) 2 ≠ none)) ∧ ∃ c, c ∈ [Instr.qspiLocalRead h bad late a n, .qspiLocalWrite h bad late a l, .qspiFabricRead h bad a n, .qspiFabricPostedWrite h bad a l, .qspiFabricNonpostedWrite h bad a l, .qspiFabricAtomic h bad a op n x y, .qspiResult h bad, .qspiInterruptStatus h bad] ∧ s.armed (0x68 + h) 2 = none) ∧
  (∃ s : State, ∃ h : Fin 2, s.get (rHBx_CFG h) fHBx_CFG_mode = 1 ∧ s.pwr.level < 2 ∧ ∃ a : Nat, ∃ n : Nat, ∃ l, ∃ op, ∃ x : Nat, ∃ y, ∃ bad, ∃ late, ((bad = true ∨ s.armed (0x68 + h) 2 ≠ none)) ∧ ∃ c, c ∈ [Instr.qspiLocalRead h bad late a n, .qspiLocalWrite h bad late a l, .qspiFabricRead h bad a n, .qspiFabricPostedWrite h bad a l, .qspiFabricNonpostedWrite h bad a l, .qspiFabricAtomic h bad a op n x y, .qspiResult h bad, .qspiInterruptStatus h bad] ∧ s.armed (0x68 + h) 2 ≠ none) ∧
  (∃ s : State, ∃ h : Fin 2, s.get (rHBx_CFG h) fHBx_CFG_mode = 1 ∧ s.pwr.level < 2 ∧ s.armed (0x68 + h) 2 = none ∧ (s.br h).busy = true) ∧
  (∃ s : State, ∃ h : Fin 2, s.get (rHBx_CFG h) fHBx_CFG_mode = 1 ∧ s.pwr.level < 2 ∧ s.armed (0x68 + h) 2 = none ∧ (s.br h).busy = false ∧ let t := s.qspiStart h; ∃ a : Nat, ∃ n : Nat, qspiLen a n = true) ∧
  (∃ s : State, ∃ h : Fin 2, s.get (rHBx_CFG h) fHBx_CFG_mode = 1 ∧ s.pwr.level < 2 ∧ s.armed (0x68 + h) 2 = none ∧ (s.br h).busy = false ∧ let t := s.qspiStart h; ∃ a : Nat, ∃ n : Nat, qspiLen a n = false) ∧
  (∃ s : State, ∃ h : Fin 2, s.get (rHBx_CFG h) fHBx_CFG_mode = 1 ∧ s.pwr.level < 2 ∧ s.armed (0x68 + h) 2 = none ∧ (s.br h).busy = false ∧ let t := s.qspiStart h; ∃ a : Nat, ∃ l : List Byte, qspiLen a l.length = true) ∧
  (∃ s : State, ∃ h : Fin 2, s.get (rHBx_CFG h) fHBx_CFG_mode = 1 ∧ s.pwr.level < 2 ∧ s.armed (0x68 + h) 2 = none ∧ (s.br h).busy = false ∧ let t := s.qspiStart h; ∃ a : Nat, ∃ l : List Byte, qspiLen a l.length = false) ∧
  (∃ s : State, ∃ h : Fin 2, s.get (rHBx_CFG h) fHBx_CFG_mode = 1 ∧ s.pwr.level < 2 ∧ s.armed (0x68 + h) 2 = none ∧ (s.br h).busy = false ∧ let t := s.qspiStart h; ∃ fab, 2 ^ 50 ≤ fab) ∧
  (∃ s : State, ∃ h : Fin 2, s.get (rHBx_CFG h) fHBx_CFG_mode = 1 ∧ s.pwr.level < 2 ∧ s.armed (0x68 + h) 2 = none ∧ (s.br h).busy = false ∧ let t := s.qspiStart h; ∃ fab, ∃ n : Nat, fab < 2 ^ 50 ∧ t.flag (rHBx_QATTR h) fHBx_QATTR_enable = true ∧ qspiLen (fab % 128) n = true) ∧
  (∃ s : State, ∃ h : Fin 2, s.get (rHBx_CFG h) fHBx_CFG_mode = 1 ∧ s.pwr.level < 2 ∧ s.armed (0x68 + h) 2 = none ∧ ∃ st : Nat, ∃ sub : Nat, ∃ data : List Byte, (s.br h).busy = false ∧ (s.br h).result = some (st, sub, data)) :=
  ⟨⟨qspi, 0, by decide +kernel, (by decide +kernel), 0, 4, [], 0, 0, 0, true, false, by decide +kernel, Instr.qspiResult 0 true, by and_intros <;> decide +kernel⟩,
   ⟨qspi.setReg (rPG_FAULT_INJ 0x68) 0x201, 0, by decide +kernel, (by decide +kernel), 0, 4, [], 0, 0, 0, false, false, by decide +kernel, Instr.qspiResult 0 false, by and_intros <;> decide +kernel⟩,
   ⟨qspi.setBr 0 { busy := true }, 0, by and_intros <;> decide +kernel⟩,
   ⟨qspi, 0, by decide +kernel, (by decide +kernel), by decide +kernel, by decide +kernel, 0x10000000, 4, by decide +kernel⟩,
   ⟨qspi, 0, by decide +kernel, (by decide +kernel), by decide +kernel, by decide +kernel, 0x10000000, 129, by decide +kernel⟩,
   ⟨qspi, 0, by decide +kernel, (by decide +kernel), by decide +kernel, by decide +kernel, 127, [0], by decide +kernel⟩,
   ⟨qspi, 0, by decide +kernel, (by decide +kernel), by decide +kernel, by decide +kernel, 127, [0, 0], by decide +kernel⟩,
   ⟨qspi, 0, by decide +kernel, (by decide +kernel), by decide +kernel, by decide +kernel, 2 ^ 50, (by decide +kernel)⟩,
   ⟨qspi.put (rHBx_QATTR 0) fHBx_QATTR_enable 1, 0, by decide +kernel, (by decide +kernel), by decide +kernel, by decide +kernel, 2 ^ 50 - 1, 1, by and_intros <;> decide +kernel⟩,
   ⟨qspi.setBr 0 { result := some (1, 0, []) }, 0, by decide +kernel, (by decide +kernel), by decide +kernel, 1, 0, [], by and_intros <;> decide +kernel⟩⟩

theorem witness_QspiFabricWrites :
  (∃ s : State, ∃ h : Fin 2, ∃ fab : Nat, s.get (rHBx_CFG h) fHBx_CFG_mode = 1 ∧ s.pwr.level < 2 ∧ s.armed (0x68 + h) 2 = none ∧ (s.br h).busy = false ∧ fab < 2 ^ 50 ∧ let t := (s.bufferDrop h).qspiStart h; let u := (s.setBr h { s.br h with result := none }).bufferDrop h; t.flag (rHBx_QATTR h) fHBx_QATTR_enable = true ∧ ∃ op, ∃ len, qspiLen (fab % 128) len = true ∧ atomicForm op len = true) ∧
  (∃ s : State, ∃ h : Fin 2, ∃ fab : Nat, s.get (rHBx_CFG h) fHBx_CFG_mode = 1 ∧ s.pwr.level < 2 ∧ s.armed (0x68 + h) 2 = none ∧ (s.br h).busy = false ∧ fab < 2 ^ 50 ∧ let t := (s.bufferDrop h).qspiStart h; let u := (s.setBr h { s.br h with result := none }).bufferDrop h; t.flag (rHBx_QATTR h) fHBx_QATTR_enable = true ∧ ∃ l : List Byte, qspiLen (fab % 128) l.length = true ∧ u.flag (rHBx_QATTR h) fHBx_QATTR_enable = true) :=
  ⟨⟨qspi.put (rHBx_QATTR 0) fHBx_QATTR_enable 1, 0, 2 ^ 50 - 8, (by decide +kernel), by decide +kernel, by decide +kernel, by decide +kernel, (by decide +kernel), by decide +kernel, 3, 8, by and_intros <;> decide +kernel⟩,
   ⟨qspi.put (rHBx_QATTR 0) fHBx_QATTR_enable 1, 0, 2 ^ 50 - 1, (by decide +kernel), by decide +kernel, by decide +kernel, by decide +kernel, (by decide +kernel), by decide +kernel, [0], by and_intros <;> decide +kernel⟩⟩

/-! ## Premises, part 6 -/

theorem witness_BridgeTakesAnswers :
  (∃ s : State, ∃ p : Fin 3, ∃ d, ∃ b, (s.outbox (4 + p)).find? (fun d => d.frame.kind = 4 && (flowBridge d.frame.flow).isSome) = some d ∧ d.discard = false ∧ flowBridge d.frame.flow = some b) ∧
  (∃ s : State, ∃ b : Fin 2, ∃ f : Frame, 16 ≤ f.payload.length ∧ let tag := beNat (slice f.payload 0 2); (s.br b).outst.find? (fun e => e.tag = tag) = none ∧ spGet (fun _ => false) (s.br b).issued tag = true) ∧
  (∃ s : State, ∃ b : Fin 2, ∃ f : Frame, 16 ≤ f.payload.length ∧ let tag := beNat (slice f.payload 0 2); (s.br b).outst.find? (fun e => e.tag = tag) = none ∧ spGet (fun _ => false) (s.br b).issued tag = false) ∧
  (∃ s : State, ∃ b : Nat, ∃ f : Frame, ∃ r, (s.br b).outst.find? (fun e => e.tag = beNat (slice f.payload 0 2)) = some r ∧ r.pf = false ∧ let n := (nthD f.payload 8 0).toNat; let u := s.setBr b { s.br b with outst := (s.br b).outst.filter (fun e => e.tag != r.tag) }; let data := slice f.payload 16 n; 16 ≤ f.payload.length ∧ (nthD f.payload 2 0).toNat = 0 ∧ n = (if r.kind = 3 then r.len else 0) ∧ data.length = n) ∧
  (∃ s : State, ∃ b : Nat, ∃ f : Frame, ∃ r, (s.br b).outst.find? (fun e => e.tag = beNat (slice f.payload 0 2)) = some r ∧ r.pf = false ∧ let n := (nthD f.payload 8 0).toNat; let u := s.setBr b { s.br b with outst := (s.br b).outst.filter (fun e => e.tag != r.tag) }; let data := slice f.payload 16 n; 16 ≤ f.payload.length ∧ ∃ st, ∃ sub : Nat, (nthD f.payload 2 0).toNat = sub * 16 + st ∧ 0 < st ∧ st < 16 ∧ b < 2 ∧ r.cont ≠ .drop ∧ ((r.kind ≠ 2 ∨ r.lock = none))) ∧
  (∃ s : State, ∃ p : Fin 3, ∃ d, ∃ b, (s.outbox (4 + p)).find? (fun d => d.frame.kind = 5 && !isAckRequest d.frame && (flowBridge d.frame.flow).isSome) = some d ∧ d.discard = false ∧ flowBridge d.frame.flow = some b ∧ 16 ≤ d.frame.payload.length ∧ (nthD d.frame.payload 0 0).toNat = 2) ∧
  (∃ s : State, ∃ b : Fin 18, ∃ tag : Fin 65536, ∃ r, (s.br b).outst.find? (fun e => e.tag = tag.val) = some r ∧ let lim := if b.val < 2 then s.get (rHBx_RETRY b) fHBx_RETRY_retries else s.get (rDMA_EXP (b - 2)) fDMA_EXP_retries; let t := s.setBr b { s.br b with outst := (s.br b).outst.map (fun e => if e.tag = tag.val then { r with retry := r.retry + 1 } else e) }; r.retry < lim) ∧
  (∃ s : State, ∃ b : Fin 18, ∃ tag : Fin 65536, ∃ r, (s.br b).outst.find? (fun e => e.tag = tag.val) = some r ∧ let lim := if b.val < 2 then s.get (rHBx_RETRY b) fHBx_RETRY_retries else s.get (rDMA_EXP (b - 2)) fDMA_EXP_retries; let t := s.setBr b { s.br b with outst := (s.br b).outst.map (fun e => if e.tag = tag.val then { r with retry := r.retry + 1 } else e) }; lim ≤ r.retry) ∧
  (∃ s : State, ∃ h : Fin 2, ∃ node, ∃ e, (s.br h).pdt.find? (fun e => e.node = node && e.n != 0) = some e) :=
  ⟨⟨State.reset.setOutbox 4 [delivered (resp 4 0xF000 [])], 0, delivered (resp 4 0xF000 []), 0, by and_intros <;> decide +kernel⟩,
   ⟨State.reset.setBr 0 { issued := [(0, true)] }, 0, resp 4 0xF000 [], by and_intros <;> decide +kernel⟩,
   ⟨State.reset, 1, resp 4 0xF000 [], by and_intros <;> decide +kernel⟩,
   ⟨asking, 0, resp 4 0xF000 [], asked, by and_intros <;> decide +kernel⟩,
   ⟨asking, 0, resp 4 0xF000 [0, 0, 0x16], asked, by decide +kernel, by decide +kernel, by decide +kernel, 6, 1, by and_intros <;> decide +kernel⟩,
   ⟨State.reset.setOutbox 6 [delivered (resp 5 0xF300 [2])], 2, delivered (resp 5 0xF300 [2]), 2, by and_intros <;> decide +kernel⟩,
   ⟨asking.put (rHBx_RETRY 0) fHBx_RETRY_retries 1, 0, 0, asked, by and_intros <;> decide +kernel⟩,
   ⟨asking.put (rHBx_RETRY 0) fHBx_RETRY_retries 0, 0, 0, asked, by and_intros <;> decide +kernel⟩,
   ⟨State.reset.setBr 1 { pdt := [⟨5, 0, 1, false, 31⟩] }, 1, 5, ⟨5, 0, 1, false, 31⟩, by decide +kernel⟩⟩

theorem witness_TargetEnginePerforms :
  (∃ s : State, ∃ p : Fin 3, ∃ d, ∃ t, s.portHolds 6 = false ∧ s.tgt.waiting = [] ∧ (s.outbox (4 + p)).find? (fun d => tgtTakes (4 + p) d.frame) = some d ∧ d.discard = false ∧ s.tgtReady d.frame = true ∧ s.tgtTry d.frame d.inp = some t ∧ t.tgt.waiting = []) ∧
  (∃ s : State, ∃ f : Frame, ∃ inp, 16 ≤ f.payload.length ∧ let a := beNat (slice f.payload 8 4); let n := (nthD f.payload 12 0).toNat; (nthD f.payload 3 0).toNat = 0 ∧ tgtNeedsEntry f = false ∧ 1 ≤ n ∧ n ≤ 128 ∧ a % 128 + n ≤ 128 ∧ f.kind = 3 ∧ let r := s.readAccess (tgtReq f inp) a n false (.ring f); ∃ st, r.1 = some st) ∧
  (∃ s : State, ∃ f : Frame, ∃ inp, 16 ≤ f.payload.length ∧ let a := beNat (slice f.payload 8 4); let n := (nthD f.payload 12 0).toNat; (nthD f.payload 3 0).toNat = 0 ∧ tgtNeedsEntry f = false ∧ 1 ≤ n ∧ n ≤ 128 ∧ a % 128 + n ≤ 128 ∧ (f.kind = 1 ∨ f.kind = 2) ∧ (f.payload.drop 16).length = n ∧ let r := s.writeAccess (tgtReq f inp) a (f.payload.drop 16) (.ring f); ∃ st, r.1 = some st) ∧
  (∃ s : State, ∃ f : Frame, ∃ inp, 16 ≤ f.payload.length ∧ f.kind ≠ 0xA ∧ isAckRequest f = false ∧ (nthD f.payload 3 0).toNat = 64 ∧ tgtNeedsEntry f = false ∧ s.tokenHolds (tgtReq f inp) (beNat (slice f.payload 6 2)) = false) ∧
  (∃ s : State, ∃ f : Frame, ∃ e, 16 ≤ f.payload.length ∧ isAckRequest f = false ∧ (nthD f.payload 3 0).toNat % 8 ≠ 0 ∧ e.status < 256 ∧ s.tgt.cache.find? (fun e => e.src = f.src && e.flow = f.flow && e.tag = beNat (slice f.payload 0 2)) = some e) ∧
  (∃ s : State, ∃ w, ∃ rest, ∃ t, s.tgt.waiting = w :: rest ∧ s.tgtTry w.1 w.2 = some t) ∧
  (∃ s : State, ∃ src : Nat, ∃ flow : Nat, ∃ e, s.flw.sys.find? (fun e => e.src = src && e.flow = flow && e.posted != 0) = some e) ∧
  (∃ s : State, s.tgt.waiting = [] ∧ s.outbox 6 = []) :=
  ⟨⟨State.reset.setOutbox 6 [delivered (resp 2 0xF000 [])], 2, delivered (resp 2 0xF000 []), ((State.reset.setOutbox 6 [delivered (resp 2 0xF000 [])]).tgtTry (resp 2 0xF000 []) 0).getD State.reset, by and_intros <;> decide +kernel⟩,
   ⟨State.reset, resp 3 0xF000 [0, 0, 0, 0, 0, 0, 0, 0, 0, 0x20, 0, 0, 128], 0, (by decide +kernel), by decide +kernel, by decide +kernel, by decide +kernel, (by decide +kernel), by decide +kernel, by decide +kernel, 2, (by decide +kernel)⟩,
   ⟨State.reset, resp 2 0xF000 [0, 0, 0, 0, 0, 0, 0, 0, 0, 0x20, 0, 0, 4], 0, (by decide +kernel), by decide +kernel, by decide +kernel, by decide +kernel, (by decide +kernel), by decide +kernel, by decide +kernel, by decide +kernel, 2, by decide +kernel⟩,
   ⟨State.reset, resp 3 0xF000 [0, 0, 0, 64, 0, 0, 0, 1], 0, by and_intros <;> decide +kernel⟩,
   ⟨{ State.reset with tgt := { cache := [⟨0, 0xF000, 0, 255, [], true⟩] } }, resp 3 0xF000 [0, 0, 0, 1], ⟨0, 0xF000, 0, 255, [], true⟩, by and_intros <;> decide +kernel⟩,
   ⟨{ State.reset with tgt := { waiting := [(resp 3 0xF000 [], 0)] } }, (resp 3 0xF000 [], 0), [], ({ State.reset with tgt := { waiting := [(resp 3 0xF000 [], 0)] } } : State).tgtTry (resp 3 0xF000 []) 0 |>.getD State.reset, by and_intros <;> decide +kernel⟩,
   ⟨{ State.reset with flw := { sys := [⟨5, 0xF001, {}, 0, false, 1, 0, 0⟩] } }, 5, 0xF001, ⟨5, 0xF001, {}, 0, false, 1, 0, 0⟩, by decide +kernel⟩,
   ⟨State.reset, by and_intros <;> decide +kernel⟩⟩

theorem witness_FenceLogAndWindows :
  (∃ s : State, ∃ q : Req, ∃ h : Fin 2, ∃ mp : Bool, s.allowsRead q (rHBx_FENCE h) mp) ∧
  (∃ s : State, ∃ q : Req, ∃ h : Fin 2, ∃ v : Word, s.accepts q (rHBx_FENCE_REQ h) (v ||| 1)) ∧
  (∃ s : State, ∃ q : Req, ∃ h : Fin 2, ∃ v : Word, s.accepts q (rHBx_PWE_CLR h) v) ∧
  (∃ s : State, ∃ q : Req, ∃ h : Fin 2, ∃ v : Word, s.accepts q (rHBx_WIN_RESUME h) v) ∧
  (∃ s : State, ∃ q : Req, ∃ h : Fin 2, ∃ n : Fin 16, ∃ v : Word, let a := rHBx_WIN_ATTR h n; let pages (t : State) : Prop := t.flag a fHBx_WIN_ATTR_prefetch = true ∧ t.get (rHBx_WIN_BASE h n) fHBx_WIN_BASE_base % 1024 = 0x040; let t := (s.store a v).put a fHBx_WIN_ATTR_downgraded 0; s.accepts q a v ∧ ¬ pages t) ∧
  (∃ s : State, ∃ q : Req, ∃ h : Fin 2, ∃ n : Fin 16, ∃ v : Word, let a := rHBx_WIN_ATTR h n; let pages (t : State) : Prop := t.flag a fHBx_WIN_ATTR_prefetch = true ∧ t.get (rHBx_WIN_BASE h n) fHBx_WIN_BASE_base % 1024 = 0x040; let t := s.store (rHBx_WIN_BASE h n) v; s.accepts q (rHBx_WIN_BASE h n) v ∧ ¬ pages t) :=
  ⟨⟨on 0x68 State.reset, anise, 0, false, by decide +kernel⟩,
   ⟨on 0x68 State.reset, anise, 0, 0, by decide +kernel⟩,
   ⟨on 0x69 State.reset, anise, 1, 0xFFFFFFFF, by decide +kernel⟩,
   ⟨on 0x69 State.reset, anise, 1, 0xFFFFFFFF, by decide +kernel⟩,
   ⟨on 0x69 State.reset, anise, 1, 15, 0xFFFFFFFF, by and_intros <;> decide +kernel⟩,
   ⟨on 0x69 State.reset, anise, 1, 15, 0xFFFFFFFF, by and_intros <;> decide +kernel⟩⟩

theorem witness_NoPrefetchOfRegisterPages :
  (∃ s : State, ∃ q : Req, ∃ h : Fin 2, ∃ n : Fin 16, ∃ v : Word, let a := rHBx_WIN_ATTR h n; let t := (s.store a v).put a fHBx_WIN_ATTR_downgraded 0; s.accepts q a v ∧ t.flag a fHBx_WIN_ATTR_prefetch = true ∧ t.get (rHBx_WIN_BASE h n) fHBx_WIN_BASE_base % 1024 = 0x040) ∧
  (∃ s : State, ∃ q : Req, ∃ h : Fin 2, ∃ n : Fin 16, ∃ v : Word, let a := rHBx_WIN_ATTR h n; let t := s.store (rHBx_WIN_BASE h n) v; s.accepts q (rHBx_WIN_BASE h n) v ∧ t.flag a fHBx_WIN_ATTR_prefetch = true ∧ t.get (rHBx_WIN_BASE h n) fHBx_WIN_BASE_base % 1024 = 0x040) ∧
  (∃ f : Frame, f.kind = 6 ∧ bitOf (toW (nthD f.payload 3 0).toNat) 6 = false ∧ readsSideEffect (beNat (slice f.payload 8 4)) 4 = true) :=
  ⟨⟨(on 0x68 State.reset).put (rHBx_WIN_BASE 0 0) fHBx_WIN_BASE_base 0x40, anise, 0, 0, 0xFFFFFFFF, by and_intros <;> decide +kernel⟩,
   ⟨((on 0x68 State.reset).put (rHBx_WIN_ATTR 0 15) fHBx_WIN_ATTR_prefetch 1), anise, 0, 15, fldPut 0 fHBx_WIN_BASE_base 0x40, by and_intros <;> decide +kernel⟩,
   ⟨resp 6 0xF200 [0, 0, 0, 0, 0, 0, 0, 0, 0x10, 0x00, 0x06, 0x00], by and_intros <;> decide +kernel⟩⟩

theorem witness_HostRequestsReachMemory :
  (∃ s : State, ∃ q : Req, ∃ a : Nat, inPages a = false ∧ ∃ n : Nat, regionOf a = some .general ∧ regionOf (a + n - 1) = some .general ∧ s.levelOf q ≠ .guest ∧ memShape a n = true) ∧
  (∃ s : State, ∃ q : Req, ∃ a : Nat, inPages a = false ∧ ∃ n : Nat, regionOf a = some .general ∧ regionOf (a + n - 1) = some .general ∧ s.levelOf q ≠ .guest ∧ memShape a n = false) ∧
  (∃ s : State, ∃ q : Req, ∃ a : Nat, inPages a = false ∧ ∃ bs : List Byte, let n := bs.length; regionOf a = some .general ∧ regionOf (a + n - 1) = some .general ∧ s.levelOf q ≠ .guest ∧ s.reservedArea q.master a n = false ∧ s.touchesWindow a n = false ∧ memShape a n = true ∧ ∃ b, ((b < a ∨ a + n ≤ b))) ∧
  (∃ s : State, ∃ q : Req, ∃ a : Nat, inPages a = false ∧ ∃ bs : List Byte, let n := bs.length; regionOf a = some .general ∧ regionOf (a + n - 1) = some .general ∧ s.levelOf q ≠ .guest ∧ s.reservedArea q.master a n = false ∧ s.touchesWindow a n = false ∧ memShape a n = false) ∧
  (∃ s : State, ∃ q : Req, ∃ a : Nat, inPages a = false ∧ ∃ n : Nat, regionOf a = some .general ∧ s.levelOf q = .guest ∧ regionOf (a + n - 1) = some .general) ∧
  (∃ s : State, ∃ q : Req, ∃ a : Nat, inPages a = false ∧ ∃ bs : List Byte, regionOf a = some .general ∧ s.levelOf q = .guest ∧ regionOf (a + bs.length - 1) = some .general) ∧
  (∃ a : Nat, inPages a = false ∧ ∃ bs : List Byte, ∃ r, (r = .rom ∨ r = .staging) ∧ regionOf a = some r ∧ regionOf (a + bs.length - 1) = some r) ∧
  (∃ a : Nat, inPages a = false ∧ ∃ bs : List Byte, regionOf a = some .index ∧ regionOf (a + bs.length - 1) = some .index ∧ memShape a bs.length = true) ∧
  (∃ s : State, ∃ a : Nat, inPages a = false ∧ ∃ n : Nat, s.memRange a n = none) ∧
  (∃ s : State, ∃ a : Nat, inPages a = false ∧ ∃ bs : List Byte, s.memRange a bs.length = none) ∧
  (∃ a : Nat, inPages a = false ∧ regionOf a = none) ∧
  (∃ s : State, ∃ a : Nat, inPages a = false ∧ ∃ n : Nat, 0x20000000 ≤ a ∧ a < 0x30000000 ∧ 0 < n ∧ a + n ≤ 0x30000000 ∧ s.fitted 0 < a + n - 0x20000000) :=
  ⟨⟨State.reset, hostA, 0x2FFFFC, (by decide +kernel), 4, by and_intros <;> decide +kernel⟩,
   ⟨State.reset, hostA, 0x200070, (by decide +kernel), 32, by and_intros <;> decide +kernel⟩,
   ⟨State.reset, hostA, 0x2FFFFC, (by decide +kernel), [1, 2, 3, 4], by decide +kernel, by decide +kernel, (by decide +kernel), by decide +kernel, by decide +kernel, by decide +kernel, 0x300000, by decide +kernel⟩,
   ⟨State.reset, hostA, 0x200070, (by decide +kernel), List.replicate 32 0, by and_intros <;> decide +kernel⟩,
   ⟨State.reset, ringNode, 0x2FFFFC, (by decide +kernel), 4, by and_intros <;> decide +kernel⟩,
   ⟨State.reset, ringNode, 0x2FFFFC, (by decide +kernel), [1, 2, 3, 4], by and_intros <;> decide +kernel⟩,
   ⟨0xFFFFFFFC, by decide +kernel, [1, 2, 3, 4], .rom, by and_intros <;> decide +kernel⟩,
   ⟨0x1BFFFC, by decide +kernel, [1, 2, 3, 4], by and_intros <;> decide +kernel⟩,
   ⟨State.reset, 0x0FFFFFFE, by decide +kernel, 4, by decide +kernel⟩,
   ⟨State.reset, 0x0FFFFFFE, by decide +kernel, [1, 2, 3, 4], by decide +kernel⟩,
   ⟨0x0FFFFFFF, by and_intros <;> decide +kernel⟩,
   ⟨State.reset, 0x2FFFFFFC, by decide +kernel, 4, by and_intros <;> decide +kernel⟩⟩

theorem witness_UnpopulatedPages :
  (∃ s : State, ∃ a : Nat, a < 0x100000 ∧ a % 4 = 0 ∧ populated (a / 0x1000) = false ∧ s.pageBusy a = false ∧ a % 0x1000 = 0) ∧
  (∃ s : State, ∃ a : Nat, a < 0x100000 ∧ a % 4 = 0 ∧ populated (a / 0x1000) = false ∧ s.pageBusy a = false ∧ a % 0x1000 ≠ 0) :=
  ⟨⟨State.reset, 0xFF000, by and_intros <;> decide +kernel⟩,
   ⟨State.reset, 0xFFFFC, by and_intros <;> decide +kernel⟩⟩

theorem witness_PollingAct :
  (∃ s : State, ∃ c : Nat, ∃ i : Nat, s.pollRuns = true ∧ s.poll.unsent = [] ∧ s.poll.last = none ∧ s.portHolds 6 = false ∧ i < 1024 ∧ (List.range (min 1024 (s.get rPOLL_COUNT fPOLL_COUNT_entries))).filter (fun i => s.pollIsDue i c) = [i] ∧ (s.pollWord i 0) % 256 ≠ 255) ∧
  (∃ s : State, ∃ d, (s.outbox 6).find? (fun d => d.frame.kind = 4 && d.frame.flow = 0xF200) = some d ∧ d.discard = false ∧ s.pollRuns = true) ∧
  (∃ s : State, ∃ f : Frame, ∃ e, 20 ≤ f.payload.length ∧ (nthD f.payload 2 0).toNat % 16 = 0 ∧ (nthD f.payload 8 0).toNat = 4 ∧ s.poll.outst.find? (fun e => e.2 = beNat (slice f.payload 0 2)) = some e ∧ let i := e.1; let t := { s with poll := { s.poll with outst := s.poll.outst.erase e } }; let v := leNat (slice f.payload 16 4); let u := t.setWord (t.pollAddr i 0) (toW (natPut (t.pollWord i 0) 22 20 0)); let m := v &&& u.pollWord i 2; m = u.pollWord i 3) ∧
  (∃ s : State, ∃ f : Frame, ∃ e, 20 ≤ f.payload.length ∧ (nthD f.payload 2 0).toNat % 16 = 0 ∧ (nthD f.payload 8 0).toNat = 4 ∧ s.poll.outst.find? (fun e => e.2 = beNat (slice f.payload 0 2)) = some e ∧ let i := e.1; let t := { s with poll := { s.poll with outst := s.poll.outst.erase e } }; let v := leNat (slice f.payload 16 4); let u := t.setWord (t.pollAddr i 0) (toW (natPut (t.pollWord i 0) 22 20 0)); let m := v &&& u.pollWord i 2; m ≠ u.pollWord i 3) ∧
  (∃ s : State, ∃ i : Fin 1024, ∃ e, s.poll.outst.find? (fun e => e.1 = i.val) = some e ∧ s.pollRuns = true) ∧
  (∃ s : State, ∃ q : Req, ∃ mp : Bool, s.allowsRead q rPOLL_EVT_POP mp ∧ s.poll.events = []) ∧
  (∃ s : State, ∃ q : Req, ∃ mp : Bool, s.allowsRead q rPOLL_EVT_POP mp ∧ ∃ t, ∃ l, s.poll.events = t :: l) :=
  ⟨⟨polling.setWord 0x200000 0x80000000, 0, 0, by and_intros <;> decide +kernel⟩,
   ⟨polling.setOutbox 6 [delivered (resp 4 0xF200 [])], delivered (resp 4 0xF200 []), by and_intros <;> decide +kernel⟩,
   ⟨{ polling with poll := { outst := [(0, 0)] } }, resp 4 0xF200 [0, 0, 0, 0, 0, 0, 0, 0, 4], (0, 0), by and_intros <;> decide +kernel⟩,
   ⟨{ polling.setWord 0x20000C 1 with poll := { outst := [(0, 0)] } }, resp 4 0xF200 [0, 0, 0, 0, 0, 0, 0, 0, 4], (0, 0), by and_intros <;> decide +kernel⟩,
   ⟨{ polling with poll := { outst := [(1023, 0)] } }, 1023, (1023, 0), by and_intros <;> decide +kernel⟩,
   ⟨on 0x6A State.reset, anise, false, by and_intros <;> decide +kernel⟩,
   ⟨{ on 0x6A State.reset with poll := { events := [5] } }, anise, false, (by decide +kernel), 5, [], by decide +kernel⟩⟩

theorem witness_SemaphoresAct :
  (∃ s : State, ∃ q : Req, ∃ v : Word, (s.br 0).atoms = [] ∧ (s.br 1).atoms = [] ∧ let n := fldOf v fARB_SEM_CMD_sem; q.master ≠ 0x30 ∧ s.sem n = {} ∧ s.accepts q rARB_SEM_CMD (semOp v 1)) ∧
  (∃ s : State, ∃ q : Req, ∃ v : Word, (s.br 0).atoms = [] ∧ (s.br 1).atoms = [] ∧ let n := fldOf v fARB_SEM_CMD_sem; q.master ≠ 0x30 ∧ s.sem n = {} ∧ s.accepts q rARB_SEM_CMD (semOp v 3)) ∧
  (∃ s : State, ∃ q : Req, ∃ v : Word, (s.br 0).atoms = [] ∧ (s.br 1).atoms = [] ∧ let n := fldOf v fARB_SEM_CMD_sem; ∃ h, (s.sem n).holder = some h ∧ h ≠ q.who ∧ (s.sem n).waiters.any (fun w => w.1 = q.who) = false ∧ s.accepts q rARB_SEM_CMD (semOp v 1) ∧ (s.sem n).waiters.length < 8) ∧
  (∃ s : State, ∃ q : Req, ∃ v : Word, (s.br 0).atoms = [] ∧ (s.br 1).atoms = [] ∧ let n := fldOf v fARB_SEM_CMD_sem; ∃ h, (s.sem n).holder = some h ∧ h ≠ q.who ∧ (s.sem n).waiters.any (fun w => w.1 = q.who) = false ∧ s.accepts q rARB_SEM_CMD (semOp v 3)) ∧
  (∃ s : State, ∃ q : Req, ∃ v : Word, (s.br 0).atoms = [] ∧ (s.br 1).atoms = [] ∧ let n := fldOf v fARB_SEM_CMD_sem; s.accepts q rARB_SEM_CMD (semOp v 2) ∧ (s.sem n).holder = some q.who) ∧
  (∃ s : State, ∃ v : Word, (s.br 0).atoms = [] ∧ (s.br 1).atoms = [] ∧ let n := fldOf v fARB_SEM_CMD_sem; (s.sem n).waiters = [] ∧ ∃ m : Nat, m ≠ n) ∧
  (∃ s : State, ∃ q : Req, ∃ v : Word, (s.br 0).atoms = [] ∧ (s.br 1).atoms = [] ∧ let n := fldOf v fARB_SEM_CMD_sem; ∃ w, ∃ h, s.accepts q rARB_SEM_FORCE (w ||| 0x80000000) ∧ (s.sem (natBits (w ||| 0x80000000).toNat 5 0)).holder = some h) ∧
  (∃ s : State, ∃ v : Word, (s.br 0).atoms = [] ∧ (s.br 1).atoms = [] ∧ let n := fldOf v fARB_SEM_CMD_sem; ∃ k : Fin 64, ∃ h, (s.sem k).holder = some h ∧ h.master = 0x30 ∧ s.enabled 0x05 = true) ∧
  (∃ s : State, ∃ q : Req, ∃ v : Word, (s.br 0).atoms = [] ∧ (s.br 1).atoms = [] ∧ let n := fldOf v fARB_SEM_CMD_sem; ∃ w, s.accepts q rARB_CLAIM_CLEAR (w ||| 0x80000000) ∧ natBits (w ||| 0x80000000).toNat 5 0 < 56) :=
  ⟨⟨on 5 State.reset, anise, 63, by and_intros <;> decide +kernel⟩,
   ⟨on 5 State.reset, anise, 63, by and_intros <;> decide +kernel⟩,
   ⟨(on 5 State.reset).setSem 0 { holder := some hostA }, hostB, 0, (by decide +kernel), by decide +kernel, hostA, by and_intros <;> decide +kernel⟩,
   ⟨(on 5 State.reset).setSem 0 { holder := some hostA }, hostB, 0, (by decide +kernel), by decide +kernel, hostA, by and_intros <;> decide +kernel⟩,
   ⟨(on 5 State.reset).setSem 0 { holder := some hostA }, hostA, 0, by and_intros <;> decide +kernel⟩,
   ⟨on 5 State.reset, 0, by decide +kernel, (by decide +kernel), by decide +kernel, 63, by decide +kernel⟩,
   ⟨(on 5 State.reset).setSem 0 { holder := some hostA }, anise, 0, (by decide +kernel), by decide +kernel, 0, hostA, by and_intros <;> decide +kernel⟩,
   ⟨(on 5 State.reset).setSem 63 { holder := some ringNode }, 0, by decide +kernel, (by decide +kernel), 63, ringNode, by and_intros <;> decide +kernel⟩,
   ⟨on 5 State.reset, anise, 0, (by decide +kernel), by decide +kernel, 55, by and_intros <;> decide +kernel⟩⟩

theorem witness_HeartbeatsAct :
  (∃ s : State, ∃ h : Fin 2, ∃ q : Req, ∃ v : Word, s.accepts q (rARB_HB h) v) ∧
  (∃ s : State, ∃ h : Fin 2, ∃ q : Req, ∃ v : Word, let w := v ||| 0x80000000; let t := s.store (rARB_HB_CFG h) (fldPut w fARB_HB_CFG_period_ms (min 1000 (fldOf w fARB_HB_CFG_period_ms))); s.accepts q (rARB_HB_CFG h) w ∧ s.flag (rARB_HB_CFG h) fARB_HB_CFG_en = false ∧ t.flag (rARB_HB_CFG h) fARB_HB_CFG_en = true ∧ t.flag rARB_HB_STATUS (hbForcedFld h) = false) ∧
  (∃ s : State, ∃ h : Fin 2, ∃ q : Req, ∃ v : Word, let w := v ||| 0x80000000; let t := s.store (rARB_HB_CFG h) (fldPut w fARB_HB_CFG_period_ms (min 1000 (fldOf w fARB_HB_CFG_period_ms))); s.accepts q (rARB_HB_CFG h) w ∧ s.flag (rARB_HB_CFG h) fARB_HB_CFG_en = false ∧ t.flag (rARB_HB_CFG h) fARB_HB_CFG_en = true ∧ t.flag rARB_HB_STATUS (hbForcedFld h) = true) ∧
  (∃ s : State, ∃ h : Fin 2, s.flag (rARB_HB_CFG h) fARB_HB_CFG_en = true ∧ s.enabled 0x05 = true ∧ let next : BeatSt := { beaten := false, good := 0, period := s.hbPeriod h }; let miss := min 15 (s.get rARB_HB_STATUS (hbMissFld h) + 1); s.flag rARB_HB_STATUS (hbForcedFld h) = false ∧ (s.beat h).beaten = true) ∧
  (∃ s : State, ∃ h : Fin 2, s.flag (rARB_HB_CFG h) fARB_HB_CFG_en = true ∧ s.enabled 0x05 = true ∧ let next : BeatSt := { beaten := false, good := 0, period := s.hbPeriod h }; let miss := min 15 (s.get rARB_HB_STATUS (hbMissFld h) + 1); s.flag rARB_HB_STATUS (hbForcedFld h) = false ∧ (s.beat h).beaten = false ∧ miss < s.hbLimit h) ∧
  (∃ s : State, ∃ h : Fin 2, s.flag (rARB_HB_CFG h) fARB_HB_CFG_en = true ∧ s.enabled 0x05 = true ∧ let next : BeatSt := { beaten := false, good := 0, period := s.hbPeriod h }; let miss := min 15 (s.get rARB_HB_STATUS (hbMissFld h) + 1); s.flag rARB_HB_STATUS (hbForcedFld h) = false ∧ (s.beat h).beaten = false ∧ s.hbLimit h ≤ miss) ∧
  (∃ s : State, ∃ h : Fin 2, s.flag (rARB_HB_CFG h) fARB_HB_CFG_en = true ∧ s.enabled 0x05 = true ∧ let next : BeatSt := { beaten := false, good := 0, period := s.hbPeriod h }; let miss := min 15 (s.get rARB_HB_STATUS (hbMissFld h) + 1); s.flag rARB_HB_STATUS (hbForcedFld h) = true ∧ (s.beat h).beaten = false) ∧
  (∃ s : State, ∃ h : Fin 2, s.flag (rARB_HB_CFG h) fARB_HB_CFG_en = true ∧ s.enabled 0x05 = true ∧ let next : BeatSt := { beaten := false, good := 0, period := s.hbPeriod h }; let miss := min 15 (s.get rARB_HB_STATUS (hbMissFld h) + 1); s.flag rARB_HB_STATUS (hbForcedFld h) = true ∧ (s.beat h).beaten = true ∧ (s.beat h).good + 1 < s.hbLimit h) ∧
  (∃ s : State, ∃ h : Fin 2, s.flag (rARB_HB_CFG h) fARB_HB_CFG_en = true ∧ s.enabled 0x05 = true ∧ let next : BeatSt := { beaten := false, good := 0, period := s.hbPeriod h }; let miss := min 15 (s.get rARB_HB_STATUS (hbMissFld h) + 1); s.flag rARB_HB_STATUS (hbForcedFld h) = true ∧ (s.beat h).beaten = true ∧ s.hbLimit h ≤ (s.beat h).good + 1) :=
  ⟨⟨on 5 State.reset, 1, hostB, 0, by decide +kernel⟩,
   ⟨on 5 State.reset, 0, anise, 1000, by and_intros <;> decide +kernel⟩,
   ⟨(on 5 State.reset).put rARB_HB_STATUS (hbForcedFld 0) 1, 0, anise, 1000, by and_intros <;> decide +kernel⟩,
   ⟨(watched 0).setBeat 0 { beaten := true }, 0, by and_intros <;> decide +kernel⟩,
   ⟨watched 1, 0, by and_intros <;> decide +kernel⟩,
   ⟨watched 2, 0, by and_intros <;> decide +kernel⟩,
   ⟨(watched 3).put rARB_HB_STATUS (hbForcedFld 0) 1, 0, by and_intros <;> decide +kernel⟩,
   ⟨((watched 3).put rARB_HB_STATUS (hbForcedFld 0) 1).setBeat 0 { beaten := true, good := 1 }, 0, by and_intros <;> decide +kernel⟩,
   ⟨((watched 3).put rARB_HB_STATUS (hbForcedFld 0) 1).setBeat 0 { beaten := true, good := 2 }, 0, by and_intros <;> decide +kernel⟩⟩

theorem witness_LargestClaimOwns :
  (∃ c : ClaimSt, let top := c.list.foldl (fun m e => max m e.2.2) 0; ((∀ e ∈ c.list, e.2.2 = 0))) ∧
  (∃ c : ClaimSt, let top := c.list.foldl (fun m e => max m e.2.2) 0; ∃ e, e ∈ c.list ∧ 0 < e.2.2 ∧ (c.list.filter (fun f => e.2.2 ≤ f.2.2)).length = 1) ∧
  (∃ c : ClaimSt, let top := c.list.foldl (fun m e => max m e.2.2) 0; 0 < top ∧ 2 ≤ (c.list.filter (fun f => f.2.2 = top)).length) :=
  ⟨⟨{}, by decide +kernel⟩,
   ⟨⟨5, 4, 3, []⟩, (1, 0, 5), by and_intros <;> decide +kernel⟩,
   ⟨⟨5, 5, 3, []⟩, by and_intros <;> decide +kernel⟩⟩

theorem witness_PinsAct :
  (∃ s : State, ∃ q : Req, ∃ c : Fin 4, ∃ p : Fin 32, ∃ v : Word, s.accepts q (rPMUX_PIN c p) v ∧ let fn := fldOf v fPMUX_PIN_function; let lvl := s.get (rPMUX_BANK c) fPMUX_BANK_level; pinCode p fn = true ∧ ((∀ x : Fin 32, x ≠ p → fn < 0x10 ∨ s.pinFn c x ≠ fn)) ∧ (lvl = 1 ∨ lvl = 2)) ∧
  (∃ s : State, ∃ q : Req, ∃ c : Fin 4, ∃ p : Fin 32, ∃ v : Word, s.accepts q (rPMUX_PIN c p) v ∧ let fn := fldOf v fPMUX_PIN_function; let lvl := s.get (rPMUX_BANK c) fPMUX_BANK_level; (pinCode p fn = false ∨ (0x10 ≤ fn ∧ ∃ x : Fin 32, x ≠ p ∧ s.pinFn c x = fn) ∨ lvl = 0 ∨ lvl = 3)) ∧
  (∃ s : State, ∃ q : Req, ∃ c : Fin 4, ∃ v : Word, s.accepts q (rPMUX_BANK c) v ∧ fldOf v fPMUX_BANK_level = s.get (rPMUX_BANK c) fPMUX_BANK_level) ∧
  (∃ s : State, ∃ q : Req, ∃ c : Fin 4, ∃ v : Word, s.accepts q (rPMUX_BANK c) v ∧ fldOf v fPMUX_BANK_level ≠ s.get (rPMUX_BANK c) fPMUX_BANK_level ∧ ((∀ p : Fin 32, s.pinFn c p = 0))) ∧
  (∃ s : State, ∃ q : Req, ∃ c : Fin 4, ∃ v : Word, s.accepts q (rPMUX_BANK c) v ∧ fldOf v fPMUX_BANK_level ≠ s.get (rPMUX_BANK c) fPMUX_BANK_level ∧ ((∃ p : Fin 32, s.pinFn c p ≠ 0))) ∧
  (∃ s : State, ∃ q : Req, ∃ c : Fin 4, ∃ v : Word, s.accepts q (rPMUX_GPIO_SET c) v) ∧
  (∃ s : State, ∃ q : Req, ∃ c : Fin 4, ∃ v : Word, s.accepts q (rPMUX_GPIO_CLR c) v) ∧
  (∃ s : State, ∃ c : Fin 4, ∃ p : Fin 32, s.pinFn c p = 0) ∧
  (∃ s : State, ∃ c : Fin 4, ∃ p : Fin 32, s.pinFn c p = 1 ∧ bitOf (s.reg (rPMUX_GPIO_OE c)) p = true ∧ s.flag (rPMUX_BANK c) fPMUX_BANK_supply_ok = true ∧ s.enabled (0xB0 + c) = true ∧ s.flag (rPMUX_PIN c p) fPMUX_PIN_od = false) ∧
  (∃ s : State, ∃ c : Fin 4, ∃ p : Fin 32, ∃ level, let u := s.setBall c (toW (natPut (s.ball c).toNat p p (b2n level))); let now := u.pinLevel c p; let t := if u.fieldRuns then u.clvEdge c p now else u; let en := if now then rPMUX_GPIO_RISE_EN c else rPMUX_GPIO_FALL_EN c; now = s.pinLevel c p) ∧
  (∃ s : State, ∃ c : Fin 4, ∃ p : Fin 32, ∃ level, let u := s.setBall c (toW (natPut (s.ball c).toNat p p (b2n level))); let now := u.pinLevel c p; let t := if u.fieldRuns then u.clvEdge c p now else u; let en := if now then rPMUX_GPIO_RISE_EN c else rPMUX_GPIO_FALL_EN c; now ≠ s.pinLevel c p ∧ ((bitOf (t.reg en) p = false ∨ t.enabled (0xB0 + c) = false))) ∧
  (∃ s : State, ∃ c : Fin 4, ∃ p : Fin 32, ∃ level, let u := s.setBall c (toW (natPut (s.ball c).toNat p p (b2n level))); let now := u.pinLevel c p; let t := if u.fieldRuns then u.clvEdge c p now else u; let en := if now then rPMUX_GPIO_RISE_EN c else rPMUX_GPIO_FALL_EN c; now ≠ s.pinLevel c p ∧ bitOf (t.reg en) p = true ∧ t.enabled (0xB0 + c) = true) :=
  ⟨⟨(on 0xB0 State.reset).put (rPMUX_BANK 0) fPMUX_BANK_level 1, anise, 0, 31, 1, by decide +kernel, by decide +kernel, (by decide +kernel), Or.inl (by decide +kernel)⟩,
   ⟨on 0xB0 State.reset, anise, 0, 0, 0x42, by decide +kernel, Or.inl (by decide +kernel)⟩,
   ⟨on 0xB0 State.reset, anise, 0, 0, by and_intros <;> decide +kernel⟩,
   ⟨on 0xB0 State.reset, anise, 0, 1, by and_intros <;> decide +kernel⟩,
   ⟨(on 0xB0 State.reset).put (rPMUX_PIN 0 31) fPMUX_PIN_function 1, anise, 0, 1, by decide +kernel, by decide +kernel, ⟨31, by decide +kernel⟩⟩,
   ⟨on 0xB3 State.reset, anise, 3, 0xFFFFFFFF, by decide +kernel⟩,
   ⟨on 0xB3 State.reset, anise, 3, 0xFFFFFFFF, by decide +kernel⟩,
   ⟨State.reset, 3, 31, (by decide +kernel)⟩,
   ⟨(((on 0xB0 State.reset).put (rPMUX_PIN 0 31) fPMUX_PIN_function 1).setReg (rPMUX_GPIO_OE 0) 0x80000000).put (rPMUX_BANK 0) fPMUX_BANK_supply_ok 1, 0, 31, by and_intros <;> decide +kernel⟩,
   ⟨on 0xB0 State.reset, 0, 0, true, by decide +kernel⟩,
   ⟨(on 0xB0 State.reset).put (rPMUX_PIN 0 0) fPMUX_PIN_function 1, 0, 0, true, by and_intros <;> decide +kernel⟩,
   ⟨((on 0xB0 State.reset).put (rPMUX_PIN 0 0) fPMUX_PIN_function 1).setReg (rPMUX_GPIO_RISE_EN 0) 1, 0, 0, true, by and_intros <;> decide +kernel⟩⟩

/-! ## Premises, part 7 -/

theorem witness_FieldQueuesAct :
  (∃ s : State, ∃ c : Fin 4, ∃ n : Fin 32, ∃ item, ∃ last, s.fieldRuns = true ∧ s.fqOn c n = true ∧ (s.fq c n).credits ≠ 0 ∧ let l := (s.fq c n).opened ++ leBytes (s.fqWidth c n) item; let t := s.setFq c n { s.fq c n with opened := l, credits := (s.fq c n).credits - 1 }; last = false ∧ l.length < 8) ∧
  (∃ s : State, ∃ c : Fin 4, ∃ n : Fin 32, ∃ item, ∃ last, s.fieldRuns = true ∧ s.fqOn c n = true ∧ (s.fq c n).credits ≠ 0 ∧ let l := (s.fq c n).opened ++ leBytes (s.fqWidth c n) item; let t := s.setFq c n { s.fq c n with opened := l, credits := (s.fq c n).credits - 1 }; (last = true ∨ 8 ≤ l.length)) ∧
  (∃ s : State, ∃ q : Req, ∃ c : Fin 4, ∃ n : Fin 32, ∃ mp : Bool, s.allowsRead q (rFQ_POP c n) mp ∧ ∃ w, ∃ rest, s.rxMode c n = 0 ∧ (s.fq c n).rx = w :: rest ∧ s.armed (0xB4 + c) 0 = none) ∧
  (∃ s : State, ∃ q : Req, ∃ c : Fin 4, ∃ n : Fin 32, ∃ mp : Bool, s.allowsRead q (rFQ_POP c n) mp ∧ (((s.fq c n).rx = [] ∨ s.rxMode c n ≠ 0))) ∧
  (∃ s : State, ∃ q : Req, ∃ c : Fin 4, ∃ n : Fin 32, ∃ v : Word, s.accepts q (rFQ_PUSH c n) v ∧ fqExists n = true ∧ s.enabled (0xB4 + c) = false) ∧
  (∃ s : State, ∃ q : Req, ∃ c : Fin 4, ∃ n : Fin 32, ∃ v : Word, s.accepts q (rFQ_PUSH c n) v ∧ fqExists n = true ∧ s.enabled (0xB4 + c) = true ∧ s.txFree c n ≠ 0 ∧ 1 ≤ v.toNat % 16 ∧ v.toNat % 16 ≤ 8) ∧
  (∃ s : State, ∃ q : Req, ∃ c : Fin 4, ∃ n : Fin 32, ∃ v : Word, s.accepts q (rFQ_PUSH c n) v ∧ fqExists n = true ∧ s.enabled (0xB4 + c) = true ∧ ((s.txFree c n = 0 ∨ v.toNat % 16 = 0 ∨ 8 < v.toNat % 16))) ∧
  (∃ s : State, ∃ q : Req, ∃ c : Fin 4, ∃ n : Fin 32, ∃ v : Word, fldOf v fFQ_CMD_queue = n.val ∧ fqExists n = true ∧ s.accepts q (rFQ_CMD c) v ∧ fldOf v fFQ_CMD_close_rx = 1 ∧ fldOf v fFQ_CMD_flush_rx = 0 ∧ fldOf v fFQ_CMD_flush_tx = 0) ∧
  (∃ s : State, ∃ q : Req, ∃ c : Fin 4, ∃ n : Fin 32, ∃ v : Word, fldOf v fFQ_CMD_queue = n.val ∧ fqExists n = true ∧ s.accepts q (rFQ_CMD c) v ∧ fldOf v fFQ_CMD_close_rx = 0 ∧ fldOf v fFQ_CMD_flush_rx = 1 ∧ fldOf v fFQ_CMD_flush_tx = 0) ∧
  (∃ s : State, ∃ q : Req, ∃ c : Fin 4, ∃ n : Fin 32, ∃ v : Word, fldOf v fFQ_CMD_queue = n.val ∧ fqExists n = true ∧ s.accepts q (rFQ_CMD c) v ∧ fldOf v fFQ_CMD_close_rx = 0 ∧ fldOf v fFQ_CMD_flush_rx = 0 ∧ fldOf v fFQ_CMD_flush_tx = 1) :=
  ⟨⟨(queue 0x80000400).setFq 0 0 { credits := 1 }, 0, 0, 65, false, by and_intros <;> decide +kernel⟩,
   ⟨(queue 0x80000400).setFq 0 0 { credits := 1, opened := List.replicate 7 0 }, 0, 0, 65, false, by and_intros <;> decide +kernel⟩,
   ⟨(queue 0x80000400).setFq 0 0 { rx := [⟨1, 8, true⟩] }, anise, 0, 0, false, by decide +kernel, ⟨1, 8, true⟩, [], by and_intros <;> decide +kernel⟩,
   ⟨(queue 0x80000400), anise, 0, 31, false, by and_intros <;> decide +kernel⟩,
   ⟨State.reset.put (rPG_CTRL 0xB4) fPG_CTRL_enable 0, anise, 0, 0, 8, by and_intros <;> decide +kernel⟩,
   ⟨(queue 0x80000400), anise, 0, 0, 8, by and_intros <;> decide +kernel⟩,
   ⟨(queue 0x80000000), anise, 0, 0, 8, by and_intros <;> decide +kernel⟩,
   ⟨(queue 0x80000400).setFq 0 0 { opened := [1] }, anise, 0, 0, 0x100, by and_intros <;> decide +kernel⟩,
   ⟨(queue 0x80000400), anise, 0, 31, 0x21F, by and_intros <;> decide +kernel⟩,
   ⟨(queue 0x80000400), anise, 0, 16, 0x410, by and_intros <;> decide +kernel⟩⟩

theorem witness_QueueSettingsAndFrames :
  (∃ s : State, ∃ q : Req, ∃ c : Fin 4, ∃ n : Fin 32, fqExists n = true ∧ ∃ v : Word, s.accepts q (rFQ_QCFG c n) v ∧ let rx := fqDepth (fldOf v fFQ_QCFG_rx_depth); let tx := fqDepth (fldOf v fFQ_QCFG_tx_depth); let w := fldPut (fldPut v fFQ_QCFG_rx_depth rx) fFQ_QCFG_tx_depth tx; let others := (List.range 32).foldl (fun m x => if x = n.val || !fqExists x then m else m + s.rxDepth c x + s.txDepth c x) 0; 2048 < others + rx + tx) ∧
  (∃ s : State, ∃ q : Req, ∃ c : Fin 4, ∃ n : Fin 32, fqExists n = true ∧ ∃ v : Word, s.accepts q (rFQ_QCFG c n) v ∧ let rx := fqDepth (fldOf v fFQ_QCFG_rx_depth); let tx := fqDepth (fldOf v fFQ_QCFG_tx_depth); let w := fldPut (fldPut v fFQ_QCFG_rx_depth rx) fFQ_QCFG_tx_depth tx; let others := (List.range 32).foldl (fun m x => if x = n.val || !fqExists x then m else m + s.rxDepth c x + s.txDepth c x) 0; s.flag (rFQ_QCFG c n) fFQ_QCFG_enable = true ∧ (rx ≠ s.rxDepth c n ∨ tx ≠ s.txDepth c n)) ∧
  (∃ s : State, ∃ q : Req, ∃ c : Fin 4, ∃ n : Fin 32, fqExists n = true ∧ ∃ v : Word, s.accepts q (rFQ_QCFG c n) v ∧ let rx := fqDepth (fldOf v fFQ_QCFG_rx_depth); let tx := fqDepth (fldOf v fFQ_QCFG_tx_depth); let w := fldPut (fldPut v fFQ_QCFG_rx_depth rx) fFQ_QCFG_tx_depth tx; let others := (List.range 32).foldl (fun m x => if x = n.val || !fqExists x then m else m + s.rxDepth c x + s.txDepth c x) 0; others + rx + tx ≤ 2048 ∧ s.flag (rFQ_QCFG c n) fFQ_QCFG_enable = false ∧ let t := s.store (rFQ_QCFG c n) w; t.flag (rFQ_QCFG c n) fFQ_QCFG_enable = true) ∧
  (∃ s : State, ∃ q : Req, ∃ c : Fin 4, ∃ n : Fin 32, fqExists n = true ∧ ∃ v : Word, s.accepts q (rFQ_QCFG c n) v ∧ let rx := fqDepth (fldOf v fFQ_QCFG_rx_depth); let tx := fqDepth (fldOf v fFQ_QCFG_tx_depth); let w := fldPut (fldPut v fFQ_QCFG_rx_depth rx) fFQ_QCFG_tx_depth tx; let others := (List.range 32).foldl (fun m x => if x = n.val || !fqExists x then m else m + s.rxDepth c x + s.txDepth c x) 0; others + rx + tx ≤ 2048 ∧ s.flag (rFQ_QCFG c n) fFQ_QCFG_enable = false ∧ let t := s.store (rFQ_QCFG c n) w; t.flag (rFQ_QCFG c n) fFQ_QCFG_enable = false) ∧
  (∃ s : State, ∃ q : Req, ∃ c : Fin 4, ∃ n : Fin 32, fqExists n = true ∧ ∃ v : Word, s.accepts q (rFQ_QCFG c n) v ∧ let rx := fqDepth (fldOf v fFQ_QCFG_rx_depth); let tx := fqDepth (fldOf v fFQ_QCFG_tx_depth); let w := fldPut (fldPut v fFQ_QCFG_rx_depth rx) fFQ_QCFG_tx_depth tx; let others := (List.range 32).foldl (fun m x => if x = n.val || !fqExists x then m else m + s.rxDepth c x + s.txDepth c x) 0; others + rx + tx ≤ 2048 ∧ s.flag (rFQ_QCFG c n) fFQ_QCFG_enable = true ∧ rx = s.rxDepth c n ∧ tx = s.txDepth c n ∧ let t := s.store (rFQ_QCFG c n) w; t.flag (rFQ_QCFG c n) fFQ_QCFG_enable = false) ∧
  (∃ s : State, ∃ q : Req, ∃ c : Fin 4, ∃ n : Fin 32, fqExists n = true ∧ ∃ v : Word, s.accepts q (rFQ_QCFG c n) v ∧ let rx := fqDepth (fldOf v fFQ_QCFG_rx_depth); let tx := fqDepth (fldOf v fFQ_QCFG_tx_depth); let w := fldPut (fldPut v fFQ_QCFG_rx_depth rx) fFQ_QCFG_tx_depth tx; let others := (List.range 32).foldl (fun m x => if x = n.val || !fqExists x then m else m + s.rxDepth c x + s.txDepth c x) 0; others + rx + tx ≤ 2048 ∧ s.flag (rFQ_QCFG c n) fFQ_QCFG_enable = true ∧ rx = s.rxDepth c n ∧ tx = s.txDepth c n ∧ let t := s.store (rFQ_QCFG c n) w; t.flag (rFQ_QCFG c n) fFQ_QCFG_enable = true) ∧
  (∃ s : State, ∃ c : Fin 4, ∃ n : Fin 32, fqExists n = true ∧ ∃ v : Word, fldOf v fFQ_BIND_rx_mode ≤ 1 ∧ fldOf v fFQ_BIND_tx_mode ≤ 1 ∧ let w := fldPut (fldPut v fFQ_BIND_rx_mode (fldOf v fFQ_BIND_rx_mode)) fFQ_BIND_tx_mode (fldOf v fFQ_BIND_tx_mode); let t := s.store (rFQ_BIND c n) (fldPut w fFQ_BIND_max_words (min 60 (fldOf w fFQ_BIND_max_words))); s.flag (rFQ_QCFG c n) fFQ_QCFG_enable = true) ∧
  (∃ s : State, ∃ c : Fin 4, ∃ n : Fin 32, fqExists n = true ∧ ∃ v : Word, fldOf v fFQ_BIND_rx_mode ≤ 1 ∧ fldOf v fFQ_BIND_tx_mode ≤ 1 ∧ let w := fldPut (fldPut v fFQ_BIND_rx_mode (fldOf v fFQ_BIND_rx_mode)) fFQ_BIND_tx_mode (fldOf v fFQ_BIND_tx_mode); let t := s.store (rFQ_BIND c n) (fldPut w fFQ_BIND_max_words (min 60 (fldOf w fFQ_BIND_max_words))); s.flag (rFQ_QCFG c n) fFQ_QCFG_enable = false) ∧
  (∃ s : State, ∃ c : Fin 4, ∃ n : Fin 32, fqExists n = true ∧ ∃ d, ∃ rest, s.fieldRuns = true ∧ s.enabled (0xB4 + c) = true ∧ s.outbox (10 + c) = d :: rest ∧ let t := s.setOutbox (10 + c) rest; ∃ ws, s.fqFate c d = (1, n.val, ws)) ∧
  (∃ s : State, ∃ c : Fin 4, ∃ n : Fin 32, fqExists n = true ∧ ∃ d, ∃ rest, s.fieldRuns = true ∧ s.enabled (0xB4 + c) = true ∧ s.outbox (10 + c) = d :: rest ∧ let t := s.setOutbox (10 + c) rest; ∃ h : HeldCtx, d.held = some h ∧ h.queue = n.val ∧ s.fqOn c n = true ∧ s.txMode c n = 1 ∧ s.txDepth c n ≠ 0 ∧ ∃ ws, fqWords d.frame.payload = some ws ∧ ws.length ≤ s.txDepth c n - (s.fq c n).tx.length) ∧
  (∃ s : State, ∃ c : Fin 4, ∃ n : Fin 32, fqExists n = true ∧ ∃ d, ∃ rest, s.fieldRuns = true ∧ s.enabled (0xB4 + c) = true ∧ s.outbox (10 + c) = d :: rest ∧ let t := s.setOutbox (10 + c) rest; (d.held.map HeldCtx.queue).getD 32 = n.val ∧ (s.fqOn c n = false ∨ s.txMode c n ≠ 1 ∨ s.txDepth c n = 0)) :=
  ⟨⟨(queue 0x80FFFF00).setReg (rFQ_QCFG 0 1) 0x80FFFF00 |>.setReg (rFQ_QCFG 0 2) 0x80FFFF00 |>.setReg (rFQ_QCFG 0 3) 0x80FFFF00, anise, 0, 31, by decide +kernel, 0x00FFFF00, by and_intros <;> decide +kernel⟩,
   ⟨queue 0x80000400, anise, 0, 0, by decide +kernel, 0x80000800, by and_intros <;> decide +kernel⟩,
   ⟨queue 0, anise, 0, 0, by decide +kernel, 0x80FFFF00, by and_intros <;> decide +kernel⟩,
   ⟨queue 0, anise, 0, 0, by decide +kernel, 0x00040400, by and_intros <;> decide +kernel⟩,
   ⟨queue 0x80040400, anise, 0, 0, by decide +kernel, 0x00040400, by and_intros <;> decide +kernel⟩,
   ⟨queue 0x80040400, anise, 0, 0, by decide +kernel, 0x80040400, by and_intros <;> decide +kernel⟩,
   ⟨queue 0x80000000, 0, 0, (by decide +kernel), 0, by and_intros <;> decide +kernel⟩,
   ⟨queue 0, 0, 9, (by decide +kernel), fldPut 0 fFQ_BIND_tx_mode 1, by and_intros <;> decide +kernel⟩,
   ⟨((queue 0x80000400).put (rFQ_BIND 0 0) fFQ_BIND_tx_mode 1).setOutbox 10 [fqFrame], 0, 0, (by decide +kernel), fqFrame, [], by decide +kernel, (by decide +kernel), by decide +kernel, (fqWords [0, 1, 0, 1, 7]).getD [], by decide +kernel⟩,
   ⟨((queue 0x80000400).put (rFQ_BIND 0 0) fFQ_BIND_tx_mode 1).setOutbox 10 [fqFrame], 0, 0, (by decide +kernel), fqFrame, [], by decide +kernel, (by decide +kernel), by decide +kernel, ⟨5, 1, false, 0, 10, 0, false⟩, by decide +kernel, (by decide +kernel), by decide +kernel, by decide +kernel, by decide +kernel, (fqWords [0, 1, 0, 1, 7]).getD [], by and_intros <;> decide +kernel⟩,
   ⟨(queue 0x80000000).setOutbox 10 [fqFrame], 0, 0, (by decide +kernel), fqFrame, [], by and_intros <;> decide +kernel⟩⟩

theorem witness_UartsAct :
  (∃ s : State, ∃ n : Fin 16, s.fieldRuns = true ∧ s.enabled (0x80 + n) = true ∧ ∃ data : Nat, ∃ addr : Bool, ∃ par : Bool, ∃ stop : Bool, let d := data % 2 ^ s.get (rUART_CFG n) fUART_CFG_data_bits; let a := addr && s.flag (rUART_CFG n) fUART_CFG_addr_mode; let want := wantParity (s.get (rUART_CFG n) fUART_CFG_parity) d a; let isBreak := decide (d = 0) && !a && !(par && want.isSome) && !stop; s.flag (rUART_CFG n) fUART_CFG_rx_en = true ∧ s.routed (n / 4) (0x10 + 4 * (n % 4) + 1) = true ∧ (s.unit (0x80 + n)).de = false ∧ s.flag (rUART_CFG n) fUART_CFG_addr_filter = false ∧ let lose (t : State) : State := (((t.inc (rUART_CNT_OVERRUN n)).irq (0x80 + n) 3).unitFault (0x80 + n)).setUnit (0x80 + n) { t.unit (0x80 + n) with overrun := true }; isBreak = false ∧ let e := want.any (fun w => w != (par && want.isSome)); let t := (s.inc (rUART_CNT_RX_CHARS n)).setUnit (0x80 + n) { s.unit (0x80 + n) with brk := false }; let u := (t.uartErr n (rUART_CNT_PARITY n) e).uartErr n (rUART_CNT_FRAMING n) (!stop); u.unitHeld (0x80 + n) < 4) ∧
  (∃ s : State, ∃ n : Fin 16, s.fieldRuns = true ∧ s.enabled (0x80 + n) = true ∧ ∃ data : Nat, ∃ addr : Bool, ∃ par : Bool, ∃ stop : Bool, let d := data % 2 ^ s.get (rUART_CFG n) fUART_CFG_data_bits; let a := addr && s.flag (rUART_CFG n) fUART_CFG_addr_mode; let want := wantParity (s.get (rUART_CFG n) fUART_CFG_parity) d a; let isBreak := decide (d = 0) && !a && !(par && want.isSome) && !stop; s.flag (rUART_CFG n) fUART_CFG_rx_en = true ∧ s.routed (n / 4) (0x10 + 4 * (n % 4) + 1) = true ∧ (s.unit (0x80 + n)).de = false ∧ s.flag (rUART_CFG n) fUART_CFG_addr_filter = false ∧ let lose (t : State) : State := (((t.inc (rUART_CNT_OVERRUN n)).irq (0x80 + n) 3).unitFault (0x80 + n)).setUnit (0x80 + n) { t.unit (0x80 + n) with overrun := true }; isBreak = false ∧ let e := want.any (fun w => w != (par && want.isSome)); let t := (s.inc (rUART_CNT_RX_CHARS n)).setUnit (0x80 + n) { s.unit (0x80 + n) with brk := false }; let u := (t.uartErr n (rUART_CNT_PARITY n) e).uartErr n (rUART_CNT_FRAMING n) (!stop); 4 ≤ u.unitHeld (0x80 + n)) ∧
  (∃ s : State, ∃ n : Fin 16, s.fieldRuns = true ∧ s.enabled (0x80 + n) = true ∧ ∃ data : Nat, ∃ addr : Bool, ∃ par : Bool, ∃ stop : Bool, let d := data % 2 ^ s.get (rUART_CFG n) fUART_CFG_data_bits; let a := addr && s.flag (rUART_CFG n) fUART_CFG_addr_mode; let want := wantParity (s.get (rUART_CFG n) fUART_CFG_parity) d a; let isBreak := decide (d = 0) && !a && !(par && want.isSome) && !stop; s.flag (rUART_CFG n) fUART_CFG_rx_en = true ∧ s.routed (n / 4) (0x10 + 4 * (n % 4) + 1) = true ∧ (s.unit (0x80 + n)).de = false ∧ s.flag (rUART_CFG n) fUART_CFG_addr_filter = false ∧ let lose (t : State) : State := (((t.inc (rUART_CNT_OVERRUN n)).irq (0x80 + n) 3).unitFault (0x80 + n)).setUnit (0x80 + n) { t.unit (0x80 + n) with overrun := true }; isBreak = true) ∧
  (∃ s : State, ∃ n : Fin 16, s.fieldRuns = true ∧ s.enabled (0x80 + n) = true ∧ s.get (rUART_CFG n) fUART_CFG_idle_bits ≠ 0) ∧
  (∃ s : State, ∃ n : Fin 16, s.fieldRuns = true ∧ s.enabled (0x80 + n) = true ∧ let rs := s.flag (rUART_CFG n) fUART_CFG_rs485; let x := s.unit (0x80 + n); s.flag (rUART_CFG n) fUART_CFG_tx_en = true ∧ s.fqHasTx (n / 4) (n % 4) = true ∧ (rs && x.de && x.lastEnd) = false) ∧
  (∃ s : State, ∃ n : Fin 16, s.fieldRuns = true ∧ s.enabled (0x80 + n) = true ∧ let t := s.setUnit (0x80 + n) { s.unit (0x80 + n) with de := false, lastEnd := false }; (s.unit (0x80 + n)).de = true ∧ (s.unit (0x80 + n)).lastEnd = true) ∧
  (∃ s : State, ∃ n : Fin 16, s.fieldRuns = true ∧ s.enabled (0x80 + n) = true ∧ let t := s.setUnit (0x80 + n) { s.unit (0x80 + n) with de := false, lastEnd := false }; (s.unit (0x80 + n)).de = true ∧ (s.unit (0x80 + n)).lastEnd = false ∧ s.fqHasTx (n / 4) (n % 4) = false) ∧
  (∃ s : State, ∃ n : Fin 16, s.fieldRuns = true ∧ s.enabled (0x80 + n) = true ∧ ∃ q : Req, ∃ v : Word, s.accepts q (rUART_CMD n) v ∧ bitOf v 0 = true) :=
  ⟨⟨uart, 0, by decide +kernel, (by decide +kernel), 255, false, false, true, by and_intros <;> decide +kernel⟩,
   ⟨uart.setFq 0 0 { hold := [(1, false), (2, false), (3, false), (4, false)] }, 0, by decide +kernel, (by decide +kernel), 255, false, false, true, by and_intros <;> decide +kernel⟩,
   ⟨uart, 0, by decide +kernel, (by decide +kernel), 0, false, false, false, by and_intros <;> decide +kernel⟩,
   ⟨(on 0x8F State.reset).put (rUART_CFG 15) fUART_CFG_idle_bits 255, 15, by and_intros <;> decide +kernel⟩,
   ⟨(on 0x80 (queue 0x80000400)).put (rUART_CFG 0) fUART_CFG_tx_en 1 |>.setFq 0 0 { tx := [⟨65, 1, true⟩] }, 0, by and_intros <;> decide +kernel⟩,
   ⟨(on 0x80 State.reset).setUnit 0x80 { de := true, lastEnd := true }, 0, by and_intros <;> decide +kernel⟩,
   ⟨(on 0x80 State.reset).setUnit 0x80 { de := true }, 0, by and_intros <;> decide +kernel⟩,
   ⟨on 0x80 State.reset, 0, by decide +kernel, (by decide +kernel), anise, 1, by and_intros <;> decide +kernel⟩⟩

theorem witness_SpiUnitsAct :
  (∃ s : State, ∃ n : Fin 8, s.fieldRuns = true ∧ s.enabled (0x98 + n) = true ∧ let x := s.unit (0x98 + n); let may := s.flag (rSPI_CFG n) fSPI_CFG_rx_en = false ∨ (s.fq (n / 2) (spiQ n)).credits ≠ 0; s.flag (rSPI_CFG n) fSPI_CFG_target = false ∧ (x.count = 0 ∨ x.inPacket = true) ∧ may ∧ s.fqHasTx (n / 2) (spiQ n) = true) ∧
  (∃ s : State, ∃ n : Fin 8, s.fieldRuns = true ∧ s.enabled (0x98 + n) = true ∧ let x := s.unit (0x98 + n); let may := s.flag (rSPI_CFG n) fSPI_CFG_rx_en = false ∨ (s.fq (n / 2) (spiQ n)).credits ≠ 0; s.flag (rSPI_CFG n) fSPI_CFG_target = false ∧ (x.count = 0 ∨ x.inPacket = true) ∧ s.fqHasTx (n / 2) (spiQ n) = false) ∧
  (∃ s : State, ∃ n : Fin 8, s.fieldRuns = true ∧ s.enabled (0x98 + n) = true ∧ let x := s.unit (0x98 + n); let may := s.flag (rSPI_CFG n) fSPI_CFG_rx_en = false ∨ (s.fq (n / 2) (spiQ n)).credits ≠ 0; s.flag (rSPI_CFG n) fSPI_CFG_target = false ∧ x.count ≠ 0 ∧ x.inPacket = false ∧ may) ∧
  (∃ s : State, ∃ n : Fin 8, s.fieldRuns = true ∧ s.enabled (0x98 + n) = true ∧ let x := s.unit (0x98 + n); let may := s.flag (rSPI_CFG n) fSPI_CFG_rx_en = false ∨ (s.fq (n / 2) (spiQ n)).credits ≠ 0; ∃ send, let bits := s.get (rSPI_CFG n) fSPI_CFG_frame_bits; let cs := x.cs.getD (s.get (rSPI_CFG n) fSPI_CFG_cs); let v := s.setUnit (0x98 + n) { x with cs := some cs, waiting := false }; let t := (v.emit (.spi n cs bits (v.spiOrder n send))).inc (rSPI_CNT_FRAMES n); t.flag (rSPI_CFG n) fSPI_CFG_rx_en = false) ∧
  (∃ s : State, ∃ n : Fin 8, s.fieldRuns = true ∧ s.enabled (0x98 + n) = true ∧ let x := s.unit (0x98 + n); let may := s.flag (rSPI_CFG n) fSPI_CFG_rx_en = false ∨ (s.fq (n / 2) (spiQ n)).credits ≠ 0; ∃ b, let bits := s.get (rSPI_CFG n) fSPI_CFG_frame_bits; b < bits) ∧
  (∃ s : State, ∃ n : Fin 8, s.fieldRuns = true ∧ s.enabled (0x98 + n) = true ∧ let x := s.unit (0x98 + n); let may := s.flag (rSPI_CFG n) fSPI_CFG_rx_en = false ∨ (s.fq (n / 2) (spiQ n)).credits ≠ 0; ∃ q : Req, ∃ v : Word, s.accepts q (rSPI_CMD n) v ∧ x.count = 0 ∧ fldOf v fSPI_CMD_count ≠ 0) ∧
  (∃ s : State, ∃ n : Fin 8, s.fieldRuns = true ∧ s.enabled (0x98 + n) = true ∧ let x := s.unit (0x98 + n); let may := s.flag (rSPI_CFG n) fSPI_CFG_rx_en = false ∨ (s.fq (n / 2) (spiQ n)).credits ≠ 0; ∃ q : Req, ∃ v : Word, s.accepts q (rSPI_CMD n) v ∧ x.count ≠ 0) ∧
  (∃ s : State, ∃ n : Fin 8, s.fieldRuns = true ∧ s.enabled (0x98 + n) = true ∧ let x := s.unit (0x98 + n); let may := s.flag (rSPI_CFG n) fSPI_CFG_rx_en = false ∨ (s.fq (n / 2) (spiQ n)).credits ≠ 0; s.flag (rSPI_CFG n) fSPI_CFG_target = true ∧ s.routed (n / 2) (0x20 + 8 * (n % 2) + 3) = true ∧ let bits := s.get (rSPI_CFG n) fSPI_CFG_frame_bits; let r := s.fqTake (n / 2) (spiQ n); let t := r.2.setUnit (0x98 + n) { r.2.unit (0x98 + n) with cs := some 0 }; let v := if r.1.idle then ((t.inc (rSPI_CNT_UNDERRUN n)).irq (0x98 + n) 3).unitFault (0x98 + n) else t; let u := (v.emit (.spi n 0 bits (v.spiOrder n r.1.item))).inc (rSPI_CNT_FRAMES n); u.flag (rSPI_CFG n) fSPI_CFG_rx_en = false) ∧
  (∃ s : State, ∃ n : Fin 8, s.fieldRuns = true ∧ s.enabled (0x98 + n) = true ∧ let x := s.unit (0x98 + n); let may := s.flag (rSPI_CFG n) fSPI_CFG_rx_en = false ∨ (s.fq (n / 2) (spiQ n)).credits ≠ 0; s.flag (rSPI_CFG n) fSPI_CFG_target = true ∧ ∃ part : Bool, let u := if part then s.inc (rSPI_CNT_ABORTED n) else s; let t := u.unitRelease (0x98 + n) true; (u.unit (0x98 + n)).cs.isSome = true) :=
  ⟨⟨(spi 4).put (rSPI_CFG 0) fSPI_CFG_rx_en 0, 0, by and_intros <;> decide +kernel⟩,
   ⟨on 0x98 State.reset, 0, by and_intros <;> decide +kernel⟩,
   ⟨((on 0x98 State.reset).put (rSPI_CFG 0) fSPI_CFG_rx_en 0).setUnit 0x98 { count := 1 }, 0, by and_intros <;> decide +kernel⟩,
   ⟨(on 0x98 State.reset).put (rSPI_CFG 0) fSPI_CFG_rx_en 0, 0, by decide +kernel, (by decide +kernel), 0, by decide +kernel⟩,
   ⟨on 0x98 State.reset, 0, by decide +kernel, (by decide +kernel), 7, by decide +kernel⟩,
   ⟨on 0x9F State.reset, 7, by decide +kernel, (by decide +kernel), anise, fldPut 0 fSPI_CMD_count 1, by and_intros <;> decide +kernel⟩,
   ⟨(on 0x98 State.reset).setUnit 0x98 { count := 1 }, 0, by decide +kernel, (by decide +kernel), anise, 0, by and_intros <;> decide +kernel⟩,
   ⟨(((spi 4).put (rSPI_CFG 0) fSPI_CFG_rx_en 0).put (rSPI_CFG 0) fSPI_CFG_target 1).put (rPMUX_PIN 0 0) fPMUX_PIN_function 0x23, 0, by and_intros <;> decide +kernel⟩,
   ⟨((on 0x98 State.reset).put (rSPI_CFG 0) fSPI_CFG_target 1).setUnit 0x98 { cs := some 0 }, 0, by decide +kernel, (by decide +kernel), by decide +kernel, false, by decide +kernel⟩⟩

theorem witness_I2cUnitsAct :
  (∃ s : State, ∃ n : Fin 8, s.fieldRuns = true ∧ s.enabled (0xA0 + n) = true ∧ s.flag (rIIC_CFG n) fIIC_CFG_controller_en = true ∧ s.fqHasTx (n / 2) (iicQ n) = true ∧ (s.fq (n / 2) (iicQ n)).hold.length < 4 ∧ (s.unit (0xA0 + n)).skip = false ∧ ∃ b : IicBus, let r := s.fqTake (n / 2) (iicQ n); let i := r.1.item; let t := r.2.setUnit (0xA0 + n) { s.unit (0xA0 + n) with inPacket := true }; i / 2 ^ 13 % 8 = 2 ∧ r.1.last = false ∧ let u := (t.setUnit (0xA0 + n) { t.unit (0xA0 + n) with bus := true }).emit (.i2c n 2 (i % 256)); b = .ok) ∧
  (∃ s : State, ∃ n : Fin 8, s.fieldRuns = true ∧ s.enabled (0xA0 + n) = true ∧ s.flag (rIIC_CFG n) fIIC_CFG_controller_en = true ∧ s.fqHasTx (n / 2) (iicQ n) = true ∧ (s.fq (n / 2) (iicQ n)).hold.length < 4 ∧ (s.unit (0xA0 + n)).skip = false ∧ ∃ b : IicBus, let r := s.fqTake (n / 2) (iicQ n); let i := r.1.item; let t := r.2.setUnit (0xA0 + n) { s.unit (0xA0 + n) with inPacket := true }; i / 2 ^ 13 % 8 = 2 ∧ r.1.last = false ∧ let u := (t.setUnit (0xA0 + n) { t.unit (0xA0 + n) with bus := true }).emit (.i2c n 2 (i % 256)); b = .nack) ∧
  (∃ s : State, ∃ n : Fin 8, s.fieldRuns = true ∧ s.enabled (0xA0 + n) = true ∧ s.flag (rIIC_CFG n) fIIC_CFG_controller_en = true ∧ s.fqHasTx (n / 2) (iicQ n) = true ∧ (s.fq (n / 2) (iicQ n)).hold.length < 4 ∧ (s.unit (0xA0 + n)).skip = false ∧ ∃ b : IicBus, let r := s.fqTake (n / 2) (iicQ n); let i := r.1.item; let t := r.2.setUnit (0xA0 + n) { s.unit (0xA0 + n) with inPacket := true }; i / 2 ^ 13 % 8 = 2 ∧ r.1.last = false ∧ let u := (t.setUnit (0xA0 + n) { t.unit (0xA0 + n) with bus := true }).emit (.i2c n 2 (i % 256)); b = .lost) ∧
  (∃ s : State, ∃ n : Fin 8, s.fieldRuns = true ∧ s.enabled (0xA0 + n) = true ∧ s.flag (rIIC_CFG n) fIIC_CFG_controller_en = true ∧ s.fqHasTx (n / 2) (iicQ n) = true ∧ (s.fq (n / 2) (iicQ n)).hold.length < 4 ∧ (s.unit (0xA0 + n)).skip = false ∧ ∃ b : IicBus, let r := s.fqTake (n / 2) (iicQ n); let i := r.1.item; let t := r.2.setUnit (0xA0 + n) { s.unit (0xA0 + n) with inPacket := true }; i / 2 ^ 13 % 8 = 2 ∧ r.1.last = false ∧ let u := (t.setUnit (0xA0 + n) { t.unit (0xA0 + n) with bus := true }).emit (.i2c n 2 (i % 256)); b = .error) ∧
  (∃ s : State, ∃ n : Fin 8, s.fieldRuns = true ∧ s.enabled (0xA0 + n) = true ∧ s.flag (rIIC_CFG n) fIIC_CFG_controller_en = true ∧ s.fqHasTx (n / 2) (iicQ n) = true ∧ (s.fq (n / 2) (iicQ n)).hold.length < 4 ∧ (s.unit (0xA0 + n)).skip = false ∧ ∃ b : IicBus, let r := s.fqTake (n / 2) (iicQ n); let i := r.1.item; let t := r.2.setUnit (0xA0 + n) { s.unit (0xA0 + n) with inPacket := true }; i / 2 ^ 13 % 8 = 0 ∧ (s.unit (0xA0 + n)).inPacket = true ∧ (s.unit (0xA0 + n)).bus = true ∧ b = .ok) ∧
  (∃ s : State, ∃ n : Fin 8, s.fieldRuns = true ∧ s.enabled (0xA0 + n) = true ∧ s.flag (rIIC_CFG n) fIIC_CFG_controller_en = true ∧ s.fqHasTx (n / 2) (iicQ n) = true ∧ (s.fq (n / 2) (iicQ n)).hold.length < 4 ∧ (s.unit (0xA0 + n)).skip = false ∧ let r := s.fqTake (n / 2) (iicQ n); let i := r.1.item; let t := r.2.setUnit (0xA0 + n) { s.unit (0xA0 + n) with inPacket := true }; i / 2 ^ 13 % 8 = 0 ∧ (s.unit (0xA0 + n)).inPacket = false) ∧
  (∃ s : State, ∃ n : Fin 8, s.fieldRuns = true ∧ s.enabled (0xA0 + n) = true ∧ s.get (rIIC_TIME n) fIIC_TIME_timeout ≠ 0 ∧ let t := s.inc (rIIC_CNT_TIMEOUT n); (t.unit (0xA0 + n)).inPacket = true) ∧
  (∃ s : State, ∃ n : Fin 8, s.fieldRuns = true ∧ s.enabled (0xA0 + n) = true ∧ s.get (rIIC_TIME n) fIIC_TIME_timeout ≠ 0 ∧ let t := s.inc (rIIC_CNT_TIMEOUT n); (t.unit (0xA0 + n)).inPacket = false) ∧
  (∃ s : State, ∃ n : Fin 8, s.fieldRuns = true ∧ s.enabled (0xA0 + n) = true ∧ ∃ q : Req, ∃ v : Word, s.accepts q (rIIC_CMD n) v ∧ bitOf v 0 = true ∧ bitOf v 1 = false ∧ (s.unit (0xA0 + n)).bus = false ∧ let t := s.emit (.i2c n 5 0); t.inputLevel (n / 2) (0x30 + 2 * (n % 2) + 1) true = true) ∧
  (∃ s : State, ∃ n : Fin 8, s.fieldRuns = true ∧ s.enabled (0xA0 + n) = true ∧ ∃ q : Req, ∃ v : Word, s.accepts q (rIIC_CMD n) v ∧ bitOf v 0 = true ∧ bitOf v 1 = false ∧ (s.unit (0xA0 + n)).bus = false ∧ let t := s.emit (.i2c n 5 0); t.inputLevel (n / 2) (0x30 + 2 * (n % 2) + 1) true = false) ∧
  (∃ s : State, ∃ n : Fin 8, s.fieldRuns = true ∧ s.enabled (0xA0 + n) = true ∧ ∃ q : Req, ∃ v : Word, s.accepts q (rIIC_CMD n) v ∧ bitOf v 0 = false ∧ bitOf v 1 = true ∧ (s.unit (0xA0 + n)).bus = true) ∧
  (∃ s : State, ∃ n : Fin 8, s.fieldRuns = true ∧ s.enabled (0xA0 + n) = true ∧ s.flag (rIIC_CFG n) fIIC_CFG_target_en = true ∧ (s.unit (0xA0 + n)).addressed = true ∧ let x := s.fq (n / 2) (iicQ n); x.hold = [] ∧ x.credits ≠ 0) ∧
  (∃ s : State, ∃ n : Fin 8, s.fieldRuns = true ∧ s.enabled (0xA0 + n) = true ∧ s.flag (rIIC_CFG n) fIIC_CFG_target_en = true ∧ (s.unit (0xA0 + n)).addressed = true ∧ let x := s.fq (n / 2) (iicQ n); x.credits = 0 ∧ s.get (rIIC_CFG n) fIIC_CFG_stretch_limit ≠ 0) ∧
  (∃ s : State, ∃ n : Fin 8, s.fieldRuns = true ∧ s.enabled (0xA0 + n) = true ∧ (s.unit (0xA0 + n)).stretch = 1) :=
  ⟨⟨iic 0x40A0 false, 0, by decide +kernel, (by decide +kernel), by decide +kernel, by decide +kernel, by decide +kernel, (by decide +kernel), .ok, by and_intros <;> decide +kernel⟩,
   ⟨iic 0x40A0 false, 0, by decide +kernel, (by decide +kernel), by decide +kernel, by decide +kernel, by decide +kernel, (by decide +kernel), .nack, by and_intros <;> decide +kernel⟩,
   ⟨iic 0x40A0 false, 0, by decide +kernel, (by decide +kernel), by decide +kernel, by decide +kernel, by decide +kernel, (by decide +kernel), .lost, by and_intros <;> decide +kernel⟩,
   ⟨iic 0x40A0 false, 0, by decide +kernel, (by decide +kernel), by decide +kernel, by decide +kernel, by decide +kernel, (by decide +kernel), .error, by and_intros <;> decide +kernel⟩,
   ⟨iic 0x00A0 true, 0, by decide +kernel, (by decide +kernel), by decide +kernel, by decide +kernel, by decide +kernel, (by decide +kernel), .ok, by and_intros <;> decide +kernel⟩,
   ⟨iic 0x00A0 false, 0, by and_intros <;> decide +kernel⟩,
   ⟨(iic 0 true).put (rIIC_TIME 0) fIIC_TIME_timeout 1, 0, by and_intros <;> decide +kernel⟩,
   ⟨(on 0xA0 State.reset).put (rIIC_TIME 0) fIIC_TIME_timeout 1, 0, by and_intros <;> decide +kernel⟩,
   ⟨on 0xA7 State.reset, 7, by decide +kernel, (by decide +kernel), anise, 1, by and_intros <;> decide +kernel⟩,
   ⟨(on 0xA0 State.reset).put (rPMUX_PIN 0 0) fPMUX_PIN_function 0x31, 0, by decide +kernel, (by decide +kernel), anise, 1, by and_intros <;> decide +kernel⟩,
   ⟨(on 0xA0 State.reset).setUnit 0xA0 { bus := true }, 0, by decide +kernel, (by decide +kernel), anise, 2, by and_intros <;> decide +kernel⟩,
   ⟨iicTarget 1, 0, by and_intros <;> decide +kernel⟩,
   ⟨iicTarget 0, 0, by and_intros <;> decide +kernel⟩,
   ⟨(on 0xA0 State.reset).setUnit 0xA0 { stretch := 1 }, 0, by and_intros <;> decide +kernel⟩⟩

theorem witness_CanFramesAct :
  (∃ s : State, ∃ n : Fin 8, s.fieldRuns = true ∧ s.canState n ≤ 1 ∧ ∃ items, s.enabled (0x90 + n) = true ∧ s.flag (rCANF_CFG n) fCANF_CFG_listen_only = false ∧ s.fqOn (n / 2) (canQ n) = true ∧ canPacket (s.fq (n / 2) (canQ n)).tx = some items ∧ let t := s.canTake items.length (n / 2) (canQ n); ∃ b : Fin 3, s.canSlot n (ctlBuf (nthD items 1 (3 * 2 ^ 30))) = some b.val ∧ canRefused (s.flag (rCANF_CFG n) fCANF_CFG_fd_en) items = false) ∧
  (∃ s : State, ∃ n : Fin 8, s.fieldRuns = true ∧ s.canState n ≤ 1 ∧ ∃ items, s.enabled (0x90 + n) = true ∧ s.flag (rCANF_CFG n) fCANF_CFG_listen_only = false ∧ s.fqOn (n / 2) (canQ n) = true ∧ canPacket (s.fq (n / 2) (canQ n)).tx = some items ∧ let t := s.canTake items.length (n / 2) (canQ n); ∃ b : Fin 3, s.canSlot n (ctlBuf (nthD items 1 (3 * 2 ^ 30))) = some b.val ∧ canRefused (s.flag (rCANF_CFG n) fCANF_CFG_fd_en) items = true) ∧
  (∃ s : State, ∃ n : Fin 8, s.fieldRuns = true ∧ s.canState n ≤ 1 ∧ ∃ items, s.enabled (0x90 + n) = true ∧ s.flag (rCANF_CFG n) fCANF_CFG_listen_only = false ∧ s.fqOn (n / 2) (canQ n) = true ∧ canPacket (s.fq (n / 2) (canQ n)).tx = some items ∧ let t := s.canTake items.length (n / 2) (canQ n); s.canSlot n (ctlBuf (nthD items 1 (3 * 2 ^ 30))) = none) ∧
  (∃ s : State, ∃ n : Fin 8, s.fieldRuns = true ∧ s.canState n ≤ 1 ∧ ∃ b, s.enabled (0x90 + n) = true ∧ (s.can n).joined = true ∧ s.flag (rCANF_CFG n) fCANF_CFG_listen_only = false ∧ s.canOnBus n = none ∧ s.canPick n = some b ∧ s.armed (0x90 + n) 0 = none ∧ let t := (s.put (rCANF_TXB n b) fCANF_TXB_state 2).incSat (rCANF_TXB n b) fCANF_TXB_attempts; let f := (t.can n).buf b; t.flag (rCANF_EXP n) fCANF_EXP_loopback = false) ∧
  (∃ s : State, ∃ n : Fin 8, s.fieldRuns = true ∧ s.canState n ≤ 1 ∧ ∃ b, s.canOnBus n = some b ∧ let t := (s.canFree n b 1).inc (rCANF_CNT_TX_FRAMES n); let u := t.canCounts n (t.canTec n - 1) (t.canRec n); u.flag (rCANF_TDC n) fCANF_TDC_tdc_en = false ∧ u.flag (rCANF_EXP n) fCANF_EXP_rx_own = false) ∧
  (∃ s : State, ∃ n : Fin 8, s.fieldRuns = true ∧ s.canState n ≤ 1 ∧ ∃ hdr : Nat, s.canHears n = true ∧ s.flag (rCANF_EXP n) fCANF_EXP_loopback = false ∧ s.routed (n / 2) (0x34 + 2 * (n % 2) + 1) = true ∧ canFdf hdr = false) ∧
  (∃ s : State, ∃ n : Fin 8, s.fieldRuns = true ∧ s.canState n ≤ 1 ∧ ∃ hdr : Nat, s.canHears n = true ∧ s.flag (rCANF_EXP n) fCANF_EXP_loopback = false ∧ s.routed (n / 2) (0x34 + 2 * (n % 2) + 1) = true ∧ canFdf hdr = true ∧ s.flag (rCANF_CFG n) fCANF_CFG_fd_en = false) ∧
  (∃ s : State, ∃ n : Fin 8, s.fieldRuns = true ∧ s.canState n ≤ 1 ∧ ∃ hdr : Nat, canFdf hdr = false ∧ canIde hdr = true ∧ hdr < 2 ^ 32 ∧ ((∀ k : Fin 32, s.get (rCANF_FILT_ID n k) fCANF_FILT_ID_enable = 0)) ∧ s.flag (rCANF_FILT_CFG n) fCANF_FILT_CFG_default = false) ∧
  (∃ s : State, ∃ n : Fin 8, s.fieldRuns = true ∧ s.canState n ≤ 1 ∧ ∃ hdr : Nat, canFdf hdr = false ∧ canIde hdr = true ∧ hdr < 2 ^ 32 ∧ ((∀ k : Fin 32, s.get (rCANF_FILT_ID n k) fCANF_FILT_ID_enable = 0)) ∧ s.flag (rCANF_FILT_CFG n) fCANF_FILT_CFG_default = true) :=
  ⟨⟨can [⟨0, 8, true⟩], 0, by decide +kernel, (by decide +kernel), [0, 0], by decide +kernel, by decide +kernel, (by decide +kernel), by decide +kernel, 0, by and_intros <;> decide +kernel⟩,
   ⟨can [⟨2 ^ 61, 8, true⟩], 0, by decide +kernel, (by decide +kernel), [0, 2 ^ 29], by decide +kernel, by decide +kernel, (by decide +kernel), by decide +kernel, 0, by and_intros <;> decide +kernel⟩,
   ⟨(can [⟨0, 8, true⟩]).put (rCANF_TXB 0 0) fCANF_TXB_state 1, 0, by decide +kernel, (by decide +kernel), [0, 0], by and_intros <;> decide +kernel⟩,
   ⟨((can []).put (rCANF_TXB 0 2) fCANF_TXB_state 1).setCan 0 { joined := true }, 0, by decide +kernel, (by decide +kernel), 2, by and_intros <;> decide +kernel⟩,
   ⟨((can []).put (rCANF_TXB 0 2) fCANF_TXB_state 2).put (rCANF_TDC 0) fCANF_TDC_tdc_en 0, 0, by decide +kernel, (by decide +kernel), 2, by and_intros <;> decide +kernel⟩,
   ⟨((can []).put (rPMUX_PIN 0 0) fPMUX_PIN_function 0x35).setCan 0 { joined := true }, 0, by decide +kernel, (by decide +kernel), 0, by and_intros <;> decide +kernel⟩,
   ⟨(((can []).put (rPMUX_PIN 0 0) fPMUX_PIN_function 0x35).put (rCANF_CFG 0) fCANF_CFG_fd_en 0).setCan 0 { joined := true }, 0, by decide +kernel, (by decide +kernel), 2 ^ 29, by and_intros <;> decide +kernel⟩,
   ⟨State.reset.put (rCANF_FILT_CFG 0) fCANF_FILT_CFG_default 0, 0, by decide +kernel, (by decide +kernel), 2 ^ 31, by and_intros <;> decide +kernel⟩,
   ⟨State.reset.put (rCANF_FILT_CFG 7) fCANF_FILT_CFG_default 1, 7, by decide +kernel, (by decide +kernel), 2 ^ 31, by and_intros <;> decide +kernel⟩⟩

theorem witness_CanErrorsAndRecovery :
  (∃ s : State, ∃ n : Fin 8, s.fieldRuns = true ∧ s.canHears n = true ∧ ∃ dataPhase, ∃ e, e ∈ [(CanErr.stuff, 1, rCANF_CNT_STUFF_ERR n), (.form, 2, rCANF_CNT_FORM_ERR n), (.ack, 3, rCANF_CNT_ACK_ERR n), (.bitRec, 4, rCANF_CNT_BIT_ERR n), (.bitDom, 5, rCANF_CNT_BIT_ERR n), (.crc, 6, rCANF_CNT_CRC_ERR n)] ∧ let t := ((s.inc e.2.2).put (rCANF_ERR n) fCANF_ERR_lec e.2.1).put (rCANF_ERR n) fCANF_ERR_lec_data (b2n dataPhase); s.canOnBus n = none) ∧
  (∃ s : State, ∃ n : Fin 8, s.fieldRuns = true ∧ s.canHears n = true ∧ ∃ dataPhase, ∃ e, e ∈ [(CanErr.stuff, 1, rCANF_CNT_STUFF_ERR n), (.form, 2, rCANF_CNT_FORM_ERR n), (.ack, 3, rCANF_CNT_ACK_ERR n), (.bitRec, 4, rCANF_CNT_BIT_ERR n), (.bitDom, 5, rCANF_CNT_BIT_ERR n), (.crc, 6, rCANF_CNT_CRC_ERR n)] ∧ let t := ((s.inc e.2.2).put (rCANF_ERR n) fCANF_ERR_lec e.2.1).put (rCANF_ERR n) fCANF_ERR_lec_data (b2n dataPhase); ∃ b, (s.canOnBus n).isSome = true ∧ t.canOnBus n = some b ∧ t.canBufState n b = 2 ∧ t.flag (rCANF_CFG n) fCANF_CFG_one_shot = false) ∧
  (∃ s : State, ∃ n : Fin 8, s.fieldRuns = true ∧ s.canHears n = true ∧ s.flag (rCANF_CFG n) fCANF_CFG_pex_en = true) ∧
  (∃ s : State, ∃ n : Fin 8, s.fieldRuns = true ∧ ∃ b, s.canOnBus n = some b ∧ let t := s.inc (rCANF_CNT_ARB_LOST n); t.canBufState n b = 2 ∧ t.flag (rCANF_CFG n) fCANF_CFG_one_shot = false) ∧
  (∃ s : State, ∃ n : Fin 8, s.fieldRuns = true ∧ ∃ q : Req, ∃ v : Word, s.accepts q (rCANF_CMD n) v ∧ ∃ b : Fin 3, bitOf v b = true ∧ ((∀ d : Fin 3, d ≠ b → bitOf v d = false)) ∧ bitOf v 8 = false ∧ s.canBufState n b = 1) ∧
  (∃ s : State, ∃ n : Fin 8, s.fieldRuns = true ∧ ∃ q : Req, ∃ v : Word, s.accepts q (rCANF_CMD n) v ∧ ∃ b : Fin 3, bitOf v b = true ∧ ((∀ d : Fin 3, d ≠ b → bitOf v d = false)) ∧ bitOf v 8 = false ∧ s.canBufState n b = 2) ∧
  (∃ s : State, ∃ n : Fin 8, s.fieldRuns = true ∧ ∃ q : Req, ∃ v : Word, s.accepts q (rCANF_CMD n) v ∧ ∃ b : Fin 3, bitOf v b = true ∧ ((∀ d : Fin 3, d ≠ b → bitOf v d = false)) ∧ bitOf v 8 = false ∧ s.canBufState n b = 0) ∧
  (∃ s : State, ∃ n : Fin 8, s.fieldRuns = true ∧ ∃ q : Req, ∃ v : Word, s.accepts q (rCANF_CMD n) v ∧ ((∀ d : Fin 3, bitOf v d = false)) ∧ bitOf v 8 = true ∧ s.canState n = 2) ∧
  (∃ s : State, ∃ n : Fin 8, s.fieldRuns = true ∧ ∃ q : Req, ∃ v : Word, s.accepts q (rCANF_CMD n) v ∧ ((∀ d : Fin 3, bitOf v d = false)) ∧ bitOf v 8 = true ∧ s.canState n ≠ 2) ∧
  (∃ s : State, ∃ n : Fin 8, s.fieldRuns = true ∧ s.canState n ≤ 1 ∧ s.flag (rPG_CTRL (0x90 + n)) fPG_CTRL_enable = true) ∧
  (∃ s : State, ∃ n : Fin 8, s.fieldRuns = true ∧ s.canState n = 3 ∧ s.get (rCANF_STATUS n) fCANF_STATUS_recover_count < 127) :=
  ⟨⟨(can []).setCan 0 { joined := true }, 0, by decide +kernel, (by decide +kernel), false, (CanErr.stuff, 1, rCANF_CNT_STUFF_ERR 0), by and_intros <;> decide +kernel⟩,
   ⟨((can []).put (rCANF_TXB 0 0) fCANF_TXB_state 2).setCan 0 { joined := true }, 0, by decide +kernel, (by decide +kernel), true, (CanErr.crc, 6, rCANF_CNT_CRC_ERR 0), by decide +kernel, 0, by and_intros <;> decide +kernel⟩,
   ⟨((can []).put (rCANF_CFG 0) fCANF_CFG_pex_en 1).setCan 0 { joined := true }, 0, by and_intros <;> decide +kernel⟩,
   ⟨(can []).put (rCANF_TXB 0 0) fCANF_TXB_state 2, 0, by decide +kernel, 0, by and_intros <;> decide +kernel⟩,
   ⟨(can []).put (rCANF_TXB 0 0) fCANF_TXB_state 1, 0, by decide +kernel, anise, 1, by decide +kernel, 0, by and_intros <;> decide +kernel⟩,
   ⟨(can []).put (rCANF_TXB 0 2) fCANF_TXB_state 2, 0, by decide +kernel, anise, 4, by decide +kernel, 2, by and_intros <;> decide +kernel⟩,
   ⟨can [], 0, by decide +kernel, anise, 1, by decide +kernel, 0, by and_intros <;> decide +kernel⟩,
   ⟨(can []).put (rCANF_ERR 0) fCANF_ERR_state 2, 0, by decide +kernel, anise, 256, by and_intros <;> decide +kernel⟩,
   ⟨can [], 0, by decide +kernel, anise, 256, by and_intros <;> decide +kernel⟩,
   ⟨can [], 0, by and_intros <;> decide +kernel⟩,
   ⟨((can []).put (rCANF_ERR 0) fCANF_ERR_state 3).put (rCANF_STATUS 0) fCANF_STATUS_recover_count 126, 0, by and_intros <;> decide +kernel⟩⟩

/-! ## Premises, part 8 -/

theorem witness_CloveInstructionsExecute :
  (∃ s : State, ∃ e : Fin 4, ∃ k : Fin 16, ∃ smp : List Bool, s.clvLive e = true ∧ ∃ i : Instr, ∃ lo : Nat, ∃ hi : Nat, ∃ w : Word, (i, lo, hi) ∈ [(Instr.jump e k, 0x00, 0x00), (.count e k, 0x01, 0x01), (.pause e k, 0x02, 0x02), (.halt e k, 0x03, 0x03), (.shout e k, 0x04, 0x04), (.shin e k smp, 0x05, 0x05), (.exch e k, 0x06, 0x06), (.loadc e k, 0x07, 0x07), (.test e k, 0x08, 0x0F), (.take e k, 0x10, 0x10), (.give e k, 0x11, 0x11), (.cloveMatch e k, 0x12, 0x12), (.edge e k, 0x13, 0x13), (.signal e k, 0x14, 0x14), (.bankpt e k, 0x15, 0x15)] ∧ let x := s.clv e k; let given := if i = .shin e k smp then smp else []; x.state = 1 ∧ x.instr = none ∧ s.armed (0xA8 + e) 0 = none ∧ s.prog e x.bank x.pc = w ∧ lo ≤ natBits w.toNat 31 27 ∧ natBits w.toNat 31 27 ≤ hi ∧ let t := (s.setClv e k { x with instr := some w, turn := 0, delay := 0 }).clvActions e k w; ∃ pc : Nat, ∃ u : State, t.clvOwn e k w 0 given = (some pc, u)) ∧
  (∃ s : State, ∃ e : Fin 4, ∃ k : Fin 16, ∃ smp : List Bool, s.clvLive e = true ∧ ∃ i : Instr, ∃ lo : Nat, ∃ hi : Nat, ∃ w : Word, (i, lo, hi) ∈ [(Instr.jump e k, 0x00, 0x00), (.count e k, 0x01, 0x01), (.pause e k, 0x02, 0x02), (.halt e k, 0x03, 0x03), (.shout e k, 0x04, 0x04), (.shin e k smp, 0x05, 0x05), (.exch e k, 0x06, 0x06), (.loadc e k, 0x07, 0x07), (.test e k, 0x08, 0x0F), (.take e k, 0x10, 0x10), (.give e k, 0x11, 0x11), (.cloveMatch e k, 0x12, 0x12), (.edge e k, 0x13, 0x13), (.signal e k, 0x14, 0x14), (.bankpt e k, 0x15, 0x15)] ∧ let x := s.clv e k; let given := if i = .shin e k smp then smp else []; x.state = 1 ∧ x.instr = none ∧ s.armed (0xA8 + e) 0 = none ∧ s.prog e x.bank x.pc = w ∧ lo ≤ natBits w.toNat 31 27 ∧ natBits w.toNat 31 27 ≤ hi ∧ let t := (s.setClv e k { x with instr := some w, turn := 0, delay := 0 }).clvActions e k w; ∃ u : State, t.clvOwn e k w 0 given = (none, u) ∧ (u.clv e k).state ≠ 1) ∧
  (∃ s : State, ∃ e : Fin 4, ∃ k : Fin 16, s.clvLive e = true ∧ ∃ w : Word, let x := s.clv e k; x.state = 2 ∧ x.instr = some w ∧ x.delay = 0 ∧ ∃ pc : Nat, ∃ u : State, s.clvOwn e k w x.turn [] = (some pc, u) ∧ let go := u.clvAfter e k w (some pc) true; natBits w.toNat 31 27 = 0x11 ∧ s.clvRoom e k = true) ∧
  (∃ s : State, ∃ e : Fin 4, ∃ k : Fin 16, s.clvLive e = true ∧ ∃ w : Word, let x := s.clv e k; x.state = 2 ∧ x.instr = some w ∧ x.delay = 0 ∧ ∃ pc : Nat, ∃ u : State, s.clvOwn e k w x.turn [] = (some pc, u) ∧ let go := u.clvAfter e k w (some pc) true; natBits w.toNat 31 27 = 0x13 ∧ x.edges ≠ 0 ∧ bitOf w 4 = false) ∧
  (∃ s : State, ∃ e : Fin 4, ∃ k : Fin 16, s.clvLive e = true ∧ ∃ w : Word, let x := s.clv e k; x.state = 2 ∧ x.instr = some w ∧ x.delay = 0 ∧ ∃ pc : Nat, ∃ u : State, s.clvOwn e k w x.turn [] = (some pc, u) ∧ let go := u.clvAfter e k w (some pc) true; (natBits w.toNat 31 27 = 0x04 ∨ natBits w.toNat 31 27 = 0x05) ∧ x.edges ≠ 0) ∧
  (∃ s : State, ∃ e : Fin 4, ∃ k : Fin 16, s.clvLive e = true ∧ ∃ w : Word, let x := s.clv e k; x.state = 2 ∧ x.instr = some w ∧ x.delay = 0 ∧ natBits w.toNat 31 27 = 0x13 ∧ x.edges = 0 ∧ bitOf w 4 = true ∧ ∃ pc : Nat, ∃ u : State, (s.setClvCounter e k 1).clvOwn e k w x.turn [] = (some pc, u)) ∧
  (∃ s : State, ∃ e : Fin 4, ∃ k : Fin 16, s.clvLive e = true ∧ let x := s.clv e k; x.state = 1 ∧ x.instr = none ∧ s.armed (0xA8 + e) 0 = none ∧ 0x16 ≤ natBits (s.prog e x.bank x.pc).toNat 31 27) :=
  ⟨⟨clove 0, 0, 0, [], by decide +kernel, .jump 0 0, 0, 0, 0, by decide +kernel, by decide +kernel, (by decide +kernel), by decide +kernel, by decide +kernel, by decide +kernel, (by decide +kernel), 0, _, pair_of _ _ (by decide +kernel)⟩,
   ⟨clove 0x18000000, 0, 0, [], by decide +kernel, .halt 0 0, 3, 3, 0x18000000, by decide +kernel, by decide +kernel, (by decide +kernel), by decide +kernel, by decide +kernel, by decide +kernel, (by decide +kernel), (((((clove 0x18000000).setClv 0 0 { state := 1, instr := some 0x18000000 }).clvActions 0 0 0x18000000).clvOwn 0 0 0x18000000 0 []).2), by and_intros <;> decide +kernel⟩,
   ⟨stalled 0x88000000 0 0, 0, 0, (by decide +kernel), 0x88000000, by decide +kernel, by decide +kernel, (by decide +kernel), 1, ((stalled 0x88000000 0 0).clvOwn 0 0 0x88000000 1 []).2, by and_intros <;> decide +kernel⟩,
   ⟨stalled 0x98000000 1 0, 0, 0, (by decide +kernel), 0x98000000, by decide +kernel, by decide +kernel, (by decide +kernel), 1, ((stalled 0x98000000 1 0).clvOwn 0 0 0x98000000 1 []).2, by and_intros <;> decide +kernel⟩,
   ⟨stalled 0x20000800 1 1, 0, 0, (by decide +kernel), 0x20000800, by decide +kernel, by decide +kernel, (by decide +kernel), 1, ((stalled 0x20000800 1 1).clvOwn 0 0 0x20000800 1 []).2, by decide +kernel, Or.inl (by decide +kernel), by decide +kernel⟩,
   ⟨(stalled 0x98000010 0 0), 0, 0, (by decide +kernel), 0x98000010, by decide +kernel, by decide +kernel, (by decide +kernel), by decide +kernel, by decide +kernel, by decide +kernel, 1, (((stalled 0x98000010 0 0).setClvCounter 0 0 1).clvOwn 0 0 0x98000010 1 []).2, by decide +kernel⟩,
   ⟨clove 0xB0000000, 0, 0, by and_intros <;> decide +kernel⟩⟩

theorem witness_CloveInstructionEffects :
  (∃ s : State, ∃ e : Fin 4, ∃ k : Fin 16, ∃ w : Word, let x := s.clv e k; let arg := w.toNat % 4096; let next := (x.pc + 1) % 1024; let target := arg % 1024; natBits w.toNat 31 27 = 0x00) ∧
  (∃ s : State, ∃ e : Fin 4, ∃ k : Fin 16, ∃ w : Word, let x := s.clv e k; let arg := w.toNat % 4096; let next := (x.pc + 1) % 1024; let target := arg % 1024; natBits w.toNat 31 27 = 0x01 ∧ arg / 1024 = 0) ∧
  (∃ s : State, ∃ e : Fin 4, ∃ k : Fin 16, ∃ w : Word, let x := s.clv e k; let arg := w.toNat % 4096; let next := (x.pc + 1) % 1024; let target := arg % 1024; natBits w.toNat 31 27 = 0x02 ∧ arg ≤ 1) ∧
  (∃ s : State, ∃ e : Fin 4, ∃ k : Fin 16, ∃ w : Word, let x := s.clv e k; let arg := w.toNat % 4096; let next := (x.pc + 1) % 1024; let target := arg % 1024; natBits w.toNat 31 27 = 0x03 ∧ bitOf w 0 = false) ∧
  (∃ s : State, ∃ e : Fin 4, ∃ k : Fin 16, ∃ w : Word, let x := s.clv e k; let arg := w.toNat % 4096; let next := (x.pc + 1) % 1024; let target := arg % 1024; natBits w.toNat 31 27 = 0x05 ∧ bitOf w 11 = true) ∧
  (∃ s : State, ∃ e : Fin 4, ∃ k : Fin 16, ∃ w : Word, let x := s.clv e k; let arg := w.toNat % 4096; let next := (x.pc + 1) % 1024; let target := arg % 1024; natBits w.toNat 31 27 = 0x06 ∧ arg % 8 = 0) ∧
  (∃ s : State, ∃ e : Fin 4, ∃ k : Fin 16, ∃ w : Word, let x := s.clv e k; let arg := w.toNat % 4096; let next := (x.pc + 1) % 1024; let target := arg % 1024; natBits w.toNat 31 27 = 0x07 ∧ arg / 1024 = 0) ∧
  (∃ s : State, ∃ e : Fin 4, ∃ k : Fin 16, ∃ w : Word, let x := s.clv e k; let arg := w.toNat % 4096; let next := (x.pc + 1) % 1024; let target := arg % 1024; natBits w.toNat 31 27 = 0x08) ∧
  (∃ s : State, ∃ e : Fin 4, ∃ k : Fin 16, ∃ w : Word, let x := s.clv e k; let arg := w.toNat % 4096; let next := (x.pc + 1) % 1024; let target := arg % 1024; natBits w.toNat 31 27 = 0x0C ∧ arg / 1024 = 0) ∧
  (∃ s : State, ∃ e : Fin 4, ∃ k : Fin 16, ∃ w : Word, let x := s.clv e k; let arg := w.toNat % 4096; let next := (x.pc + 1) % 1024; let target := arg % 1024; natBits w.toNat 31 27 = 0x10 ∧ arg % 4 = 1 ∧ ∃ i : Nat × Bool, ∃ l : List (Nat × Bool), x.txq = i :: l) ∧
  (∃ s : State, ∃ e : Fin 4, ∃ k : Fin 16, ∃ w : Word, let x := s.clv e k; let arg := w.toNat % 4096; let next := (x.pc + 1) % 1024; let target := arg % 1024; natBits w.toNat 31 27 = 0x11 ∧ s.clvRoom e k = false) ∧
  (∃ s : State, ∃ e : Fin 4, ∃ k : Fin 16, ∃ w : Word, let x := s.clv e k; let arg := w.toNat % 4096; let next := (x.pc + 1) % 1024; let target := arg % 1024; natBits w.toNat 31 27 = 0x11 ∧ s.clvRoom e k = true ∧ arg % 4 = 0 ∧ bitOf w 8 = false) ∧
  (∃ s : State, ∃ e : Fin 4, ∃ k : Fin 16, ∃ w : Word, let x := s.clv e k; let arg := w.toNat % 4096; let next := (x.pc + 1) % 1024; let target := arg % 1024; natBits w.toNat 31 27 = 0x12 ∧ arg % 4 = 3) ∧
  (∃ s : State, ∃ e : Fin 4, ∃ k : Fin 16, ∃ w : Word, let x := s.clv e k; let arg := w.toNat % 4096; let next := (x.pc + 1) % 1024; let target := arg % 1024; natBits w.toNat 31 27 = 0x13 ∧ bitOf w 4 = false) ∧
  (∃ s : State, ∃ e : Fin 4, ∃ k : Fin 16, ∃ w : Word, let x := s.clv e k; let arg := w.toNat % 4096; let next := (x.pc + 1) % 1024; let target := arg % 1024; natBits w.toNat 31 27 = 0x14 ∧ bitOf (s.reg (rCLOV_EVENT_EN e)) (arg % 16) = false) ∧
  (∃ s : State, ∃ e : Fin 4, ∃ k : Fin 16, ∃ w : Word, let x := s.clv e k; let arg := w.toNat % 4096; let next := (x.pc + 1) % 1024; let target := arg % 1024; natBits w.toNat 31 27 = 0x15 ∧ s.swapPending e = false) :=
  ⟨⟨State.reset, 0, 0, 0, by decide +kernel⟩,
   ⟨State.reset, 0, 0, 0x08000000, by and_intros <;> decide +kernel⟩,
   ⟨State.reset, 0, 0, 0x10000001, by and_intros <;> decide +kernel⟩,
   ⟨State.reset, 0, 0, 0x18000000, by and_intros <;> decide +kernel⟩,
   ⟨State.reset, 0, 0, 0x28000800, by and_intros <;> decide +kernel⟩,
   ⟨State.reset, 0, 0, 0x30000000, by and_intros <;> decide +kernel⟩,
   ⟨State.reset, 0, 0, 0x380003FF, by and_intros <;> decide +kernel⟩,
   ⟨State.reset, 0, 0, 0x400003FF, by decide +kernel⟩,
   ⟨State.reset, 3, 15, 0x600003FF, by and_intros <;> decide +kernel⟩,
   ⟨State.reset.setClv 0 0 { txq := [(1, false)] }, 0, 0, 0x80000001, by decide +kernel, by decide +kernel, (1, false), [], by decide +kernel⟩,
   ⟨State.reset.setFq 0 16 { hold := List.replicate 4 (0, false) }, 0, 0, 0x88000000, by and_intros <;> decide +kernel⟩,
   ⟨State.reset, 0, 0, 0x88000000, by and_intros <;> decide +kernel⟩,
   ⟨State.reset, 0, 0, 0x90000003, by and_intros <;> decide +kernel⟩,
   ⟨State.reset, 0, 0, 0x98000000, by and_intros <;> decide +kernel⟩,
   ⟨State.reset, 0, 0, 0xA000000F, by and_intros <;> decide +kernel⟩,
   ⟨State.reset, 0, 0, 0xA8000000, by and_intros <;> decide +kernel⟩⟩

theorem witness_TimedInstructionsComplete :
  (∃ s : State, ∃ e : Fin 4, ∃ k : Fin 16, ∃ w : Word, let x := s.clv e k; let n := natBits w.toNat 4 0 + 1; s.clvLive e = true ∧ x.state = 1 ∧ x.instr = none ∧ s.armed (0xA8 + e) 0 = none ∧ s.prog e x.bank x.pc = w ∧ x.moves = false ∧ natBits w.toNat 31 27 = 0x04 ∧ bitOf w 11 = false) ∧
  (∃ s : State, ∃ e : Fin 4, ∃ k : Fin 16, ∃ w : Word, let x := s.clv e k; let n := natBits w.toNat 4 0 + 1; s.clvLive e = true ∧ x.state = 1 ∧ x.instr = none ∧ s.armed (0xA8 + e) 0 = none ∧ s.prog e x.bank x.pc = w ∧ x.moves = false ∧ natBits w.toNat 31 27 = 0x05 ∧ bitOf w 11 = false ∧ ∃ smp : List Bool, smp.length = n) ∧
  (∃ s : State, ∃ e : Fin 4, ∃ k : Fin 16, ∃ w : Word, let x := s.clv e k; let n := natBits w.toNat 4 0 + 1; s.clvLive e = true ∧ x.state = 1 ∧ x.instr = none ∧ s.armed (0xA8 + e) 0 = none ∧ s.prog e x.bank x.pc = w ∧ x.moves = false ∧ natBits w.toNat 31 27 = 0x02) :=
  ⟨⟨clove 0x2000001F, 0, 0, 0x2000001F, by and_intros <;> decide +kernel⟩,
   ⟨clove 0x28000000, 0, 0, 0x28000000, by decide +kernel, by decide +kernel, by decide +kernel, (by decide +kernel), by decide +kernel, by decide +kernel, by decide +kernel, (by decide +kernel), [true], by decide +kernel⟩,
   ⟨clove 0x10000FFF, 0, 0, 0x10000FFF, by and_intros <;> decide +kernel⟩⟩

theorem witness_ClovePageCommands :
  (∃ s : State, ∃ q : Req, ∃ e : Fin 4, ∃ k : Fin 16, s.accepts q (rCLOV_START e) (toW (2 ^ k.val)) ∧ (s.clv e k).state = 0 ∧ k < s.rotation e ∧ s.givenUp e k = false ∧ s.clvOverlap e k = false) ∧
  (∃ s : State, ∃ q : Req, ∃ e : Fin 4, ∃ k : Fin 16, s.accepts q (rCLOV_START e) (toW (2 ^ k.val)) ∧ ((s.clv e k).state ≠ 0 ∨ s.rotation e ≤ k ∨ s.givenUp e k = true ∨ s.clvOverlap e k = true)) ∧
  (∃ s : State, ∃ q : Req, ∃ e : Fin 4, ∃ k : Fin 16, s.accepts q (rCLOV_STOP e) (toW (2 ^ k.val)) ∧ (s.clv e k).state ≠ 0) ∧
  (∃ s : State, ∃ q : Req, ∃ e : Fin 4, s.accepts q (rCLOV_CMD e) 1 ∧ s.swapPending e = true) ∧
  (∃ s : State, ∃ q : Req, ∃ e : Fin 4, s.accepts q (rCLOV_CMD e) 1 ∧ s.swapPending e = false ∧ s.cloveIdle e = true) ∧
  (∃ s : State, ∃ q : Req, ((∀ g : Fin 4, s.claimAllows (44 + g) q = true)) ∧ ∃ v : Word, s.accepts q (rCLOV_SYNC_CMD 0) v ∧ let t := s.put (rCLOV_SYNC_CMD 0) fCLOV_SYNC_CMD_unit (fldOf v fCLOV_SYNC_CMD_unit); fldOf v fCLOV_SYNC_CMD_disarm = 0 ∧ fldOf v fCLOV_SYNC_CMD_arm = 0 ∧ fldOf v fCLOV_SYNC_CMD_now = 1) ∧
  (∃ s : State, ∃ q : Req, ((∀ g : Fin 4, s.claimAllows (44 + g) q = true)) ∧ ∃ v : Word, s.accepts q (rCLOV_SYNC_CMD 0) v ∧ let t := s.put (rCLOV_SYNC_CMD 0) fCLOV_SYNC_CMD_unit (fldOf v fCLOV_SYNC_CMD_unit); fldOf v fCLOV_SYNC_CMD_disarm = 0 ∧ fldOf v fCLOV_SYNC_CMD_arm = 1 ∧ fldOf v fCLOV_SYNC_CMD_now = 0) ∧
  (∃ s : State, ∃ q : Req, ((∀ g : Fin 4, s.claimAllows (44 + g) q = true)) ∧ ∃ v : Word, s.accepts q (rCLOV_SYNC_CMD 0) v ∧ let t := s.put (rCLOV_SYNC_CMD 0) fCLOV_SYNC_CMD_unit (fldOf v fCLOV_SYNC_CMD_unit); fldOf v fCLOV_SYNC_CMD_disarm = 1 ∧ fldOf v fCLOV_SYNC_CMD_arm = 0 ∧ fldOf v fCLOV_SYNC_CMD_now = 0) ∧
  (∃ s : State, ∃ u : Fin 16, s.servo.trigs.contains (u.val, true) = true ∧ s.flag (rCLOV_SYNC_STATUS 0) fCLOV_SYNC_STATUS_armed = true ∧ s.get (rCLOV_SYNC_STATUS 0) fCLOV_SYNC_STATUS_unit = u.val) ∧
  (∃ s : State, ∃ q : Req, ∃ e : Fin 4, ∃ v : Word, let b := s.get (rCLOV_PMEM_ADDR e) fCLOV_PMEM_ADDR_bank; let a := s.get (rCLOV_PMEM_ADDR e) fCLOV_PMEM_ADDR_word; s.bankUsed e b = false ∧ s.accepts q (rCLOV_PMEM_DATA e) v) ∧
  (∃ s : State, ∃ q : Req, ∃ e : Fin 4, ∃ v : Word, let b := s.get (rCLOV_PMEM_ADDR e) fCLOV_PMEM_ADDR_bank; let a := s.get (rCLOV_PMEM_ADDR e) fCLOV_PMEM_ADDR_word; s.bankUsed e b = false ∧ s.accepts q (rCLOV_PMEM_DATA_INC e) v) ∧
  (∃ s : State, ∃ q : Req, ∃ e : Fin 4, ∃ v : Word, let b := s.get (rCLOV_PMEM_ADDR e) fCLOV_PMEM_ADDR_bank; let a := s.get (rCLOV_PMEM_ADDR e) fCLOV_PMEM_ADDR_word; s.bankUsed e b = true ∧ s.accepts q (rCLOV_PMEM_DATA e) v) ∧
  (∃ s : State, ∃ q : Req, ∃ e : Fin 4, ∃ k : Fin 16, s.accepts q (rCLOV_STEP e) (toW (2 ^ k.val)) ∧ s.enabled (0xA8 + e) = true ∧ s.flag (rCLOV_EXP e) fCLOV_EXP_step_mode = true) ∧
  (∃ s : State, ∃ q : Req, ∃ e : Fin 4, ∃ k : Fin 16, s.accepts q (rCLOV_STEP e) (toW (2 ^ k.val)) ∧ s.enabled (0xA8 + e) = true ∧ s.flag (rCLOV_EXP e) fCLOV_EXP_step_mode = false) :=
  ⟨⟨on 0xA8 State.reset, anise, 0, 0, by and_intros <;> decide +kernel⟩,
   ⟨clove 0, anise, 0, 0, by decide +kernel, Or.inl (by decide +kernel)⟩,
   ⟨clove 0, anise, 0, 0, by and_intros <;> decide +kernel⟩,
   ⟨(on 0xA8 State.reset).put (rCLOV_BANK 0) fCLOV_BANK_swap_pending 1, anise, 0, by and_intros <;> decide +kernel⟩,
   ⟨on 0xA8 State.reset, anise, 0, by and_intros <;> decide +kernel⟩,
   ⟨on 0xA8 State.reset, anise, by decide +kernel, 0x100, by and_intros <;> decide +kernel⟩,
   ⟨on 0xA8 State.reset, anise, by decide +kernel, 0x20F, by and_intros <;> decide +kernel⟩,
   ⟨on 0xA8 State.reset, anise, by decide +kernel, 0x400, by and_intros <;> decide +kernel⟩,
   ⟨{ (State.reset.put (rCLOV_SYNC_STATUS 0) fCLOV_SYNC_STATUS_armed 1).put (rCLOV_SYNC_STATUS 0) fCLOV_SYNC_STATUS_unit 15 with servo := { State.reset.servo with trigs := [(15, true)] } }, 15, by and_intros <;> decide +kernel⟩,
   ⟨on 0xA8 State.reset, anise, 0, 5, by and_intros <;> decide +kernel⟩,
   ⟨(on 0xA8 State.reset).put (rCLOV_PMEM_ADDR 0) fCLOV_PMEM_ADDR_word 1023, anise, 0, 5, by and_intros <;> decide +kernel⟩,
   ⟨clove 0, anise, 0, 5, by and_intros <;> decide +kernel⟩,
   ⟨(onX 0xA8 State.reset).put (rCLOV_EXP 0) fCLOV_EXP_step_mode 1, anise, 0, 15, by and_intros <;> decide +kernel⟩,
   ⟨onX 0xAB State.reset, anise, 3, 15, by and_intros <;> decide +kernel⟩⟩

theorem witness_MoverActs :
  (∃ s : State, ∃ e : Fin 4, ∃ k : Fin 16, s.fieldRuns = true ∧ s.enabled (0xA8 + e) = true ∧ s.fqOn e (16 + k) = true ∧ let cfg := rCLOV_MV_CFG e k; let size := 2 ^ s.get cfg fCLOV_MV_CFG_size; s.givenUp e k = false ∧ s.flag cfg fCLOV_MV_CFG_rx_en = true ∧ s.flag cfg fCLOV_MV_CFG_rx_fault = false ∧ s.rxMode e (16 + k) = 2 ∧ s.get (rCLOV_MV_RX e k) fCLOV_MV_RX_head ≠ s.get (rCLOV_MV_RX e k) fCLOV_MV_RX_tail ∧ ∃ w, ∃ rest, (s.fq e (16 + k)).rx = w :: rest ∧ let head := s.get (rCLOV_MV_RX e k) fCLOV_MV_RX_head; let a := (s.reg (rCLOV_MV_BASE e k)).toNat / 16 * 16 + 16 * (head % size); ∃ f : Nat × Nat, ∃ l : List Piece, ∃ t : State, s.xlate (moverOf e) a 16 .write = ((some f, l), t)) ∧
  (∃ s : State, ∃ e : Fin 4, ∃ k : Fin 16, s.fieldRuns = true ∧ s.enabled (0xA8 + e) = true ∧ s.fqOn e (16 + k) = true ∧ let cfg := rCLOV_MV_CFG e k; let size := 2 ^ s.get cfg fCLOV_MV_CFG_size; s.givenUp e k = false ∧ s.flag cfg fCLOV_MV_CFG_rx_en = true ∧ s.flag cfg fCLOV_MV_CFG_rx_fault = false ∧ s.rxMode e (16 + k) = 2 ∧ s.get (rCLOV_MV_RX e k) fCLOV_MV_RX_head ≠ s.get (rCLOV_MV_RX e k) fCLOV_MV_RX_tail ∧ ∃ w, ∃ rest, (s.fq e (16 + k)).rx = w :: rest ∧ let head := s.get (rCLOV_MV_RX e k) fCLOV_MV_RX_head; let a := (s.reg (rCLOV_MV_BASE e k)).toNat / 16 * 16 + 16 * (head % size); ∃ l, ∃ t, ∃ u : State, s.xlate (moverOf e) a 16 .write = ((none, l), t) ∧ t.writePieces (moverOf e) l (leBytes 8 w.data ++ leBytes 8 (w.valid + 16 * b2n w.last)) = (0, u)) ∧
  (∃ s : State, ∃ e : Fin 4, ∃ k : Fin 16, s.fieldRuns = true ∧ s.enabled (0xA8 + e) = true ∧ s.fqOn e (16 + k) = true ∧ let cfg := rCLOV_MV_CFG e k; let size := 2 ^ s.get cfg fCLOV_MV_CFG_size; s.givenUp e k = false ∧ s.flag cfg fCLOV_MV_CFG_tx_en = true ∧ s.flag cfg fCLOV_MV_CFG_tx_fault = false ∧ s.txMode e (16 + k) = 2 ∧ s.get (rCLOV_MV_TX e k) fCLOV_MV_RX_head ≠ s.get (rCLOV_MV_TX e k) fCLOV_MV_RX_tail ∧ (s.fq e (16 + k)).tx.length < s.txDepth e (16 + k) ∧ let head := s.get (rCLOV_MV_TX e k) fCLOV_MV_RX_head; let a := (s.reg (rCLOV_MV_BASE e k)).toNat / 16 * 16 + 16 * size + 16 * (head % size); ∃ l, ∃ t, ∃ bs : List Byte, ∃ u : State, s.xlate (moverOf e) a 16 .read = ((none, l), t) ∧ t.readPieces (moverOf e) [] l = (0, bs, u) ∧ let n := leNat (slice bs 8 1); 1 ≤ n % 16 ∧ n % 16 ≤ 8) ∧
  (∃ s : State, ∃ e : Fin 4, ∃ k : Fin 16, s.fieldRuns = true ∧ s.enabled (0xA8 + e) = true ∧ s.fqOn e (16 + k) = true ∧ let cfg := rCLOV_MV_CFG e k; let size := 2 ^ s.get cfg fCLOV_MV_CFG_size; ∃ q : Req, ∃ v : Word, s.accepts q cfg v ∧ (s.clv e k).state ≠ 0 ∧ (v &&& ~~~maskOf 29 28) = (s.reg cfg &&& ~~~maskOf 29 28) ∧ fldOf v fCLOV_MV_CFG_rx_fault = 1 ∧ s.flag cfg fCLOV_MV_CFG_rx_fault = true ∧ fldOf v fCLOV_MV_CFG_tx_fault = 0) ∧
  (∃ s : State, ∃ e : Fin 4, ∃ k : Fin 16, s.fieldRuns = true ∧ s.enabled (0xA8 + e) = true ∧ s.fqOn e (16 + k) = true ∧ let cfg := rCLOV_MV_CFG e k; let size := 2 ^ s.get cfg fCLOV_MV_CFG_size; s.givenUp e k = true) :=
  ⟨⟨(mover State.reset).setFq 0 16 { rx := [⟨1, 8, true⟩] }, 0, 0, (by decide +kernel), by decide +kernel, by decide +kernel, by decide +kernel, (by decide +kernel), by decide +kernel, by decide +kernel, by decide +kernel, ⟨1, 8, true⟩, [], by decide +kernel, (1, 0), [], (((mover State.reset).setFq 0 16 { rx := [⟨1, 8, true⟩] }).xlate 16 0 16 .write).2, by decide +kernel⟩,
   ⟨moving, 0, 0, (by decide +kernel), by decide +kernel, by decide +kernel, by decide +kernel, (by decide +kernel), by decide +kernel, by decide +kernel, by decide +kernel, ⟨1, 8, true⟩, [], by decide +kernel, [⟨0, 0x200000, 16⟩], (moving.xlate 16 0x200000 16 .write).2, _, by decide +kernel, pair_of _ _ (by decide +kernel)⟩,
   ⟨(moving.setByte 0x200018 8), 0, 0, (by decide +kernel), by decide +kernel, by decide +kernel, by decide +kernel, (by decide +kernel), by decide +kernel, by decide +kernel, by decide +kernel, (by decide +kernel), [⟨0, 0x200010, 16⟩], ((moving.setByte 0x200018 8).xlate 16 0x200010 16 .read).2, (((moving.setByte 0x200018 8).xlate 16 0x200010 16 .read).2.readPieces 16 [] [⟨0, 0x200010, 16⟩]).2.1, (((moving.setByte 0x200018 8).xlate 16 0x200010 16 .read).2.readPieces 16 [] [⟨0, 0x200010, 16⟩]).2.2, by and_intros <;> decide +kernel⟩,
   ⟨(mover (clove 0)).setReg (rCLOV_MV_CFG 0 0) 0xE0000000, 0, 0, (by decide +kernel), by decide +kernel, by decide +kernel, anise, 0xE0000000, by and_intros <;> decide +kernel⟩,
   ⟨((on 0xA8 (on 0xB4 State.reset)).setReg (rFQ_QCFG 0 17) 0x80000000).setReg (rCLOV_CFG 0) 0x10000, 0, 1, by and_intros <;> decide +kernel⟩⟩

theorem witness_MacsReceive :
  (∃ s : State, ∃ m : Fin 5, s.enabled (0x70 + m) = true ∧ ∃ body : List Byte, let l := body ++ leBytes 4 (fcs body).toNat; s.flag (rxx_CFG m) fxx_CFG_rx_en = true ∧ (m = 0 ∨ s.routed (m - 1) 0x3C = true) ∧ s.reg (rxx_WAKE_CFG m) = 0 ∧ s.fieldRuns = true ∧ 64 ≤ l.length ∧ l.length ≤ s.get (rxx_CFG m) fxx_CFG_max_frame ∧ let t := s.macRxCount m l false false false; (if m = 0 then 32768 else 4096) < t.macFifo m + l.length) ∧
  (∃ s : State, ∃ m : Fin 5, s.enabled (0x70 + m) = true ∧ ∃ body : List Byte, let l := body ++ leBytes 4 (fcs body).toNat; s.flag (rxx_CFG m) fxx_CFG_rx_en = true ∧ (m = 0 ∨ s.routed (m - 1) 0x3C = true) ∧ s.reg (rxx_WAKE_CFG m) = 0 ∧ s.fieldRuns = true ∧ 64 ≤ l.length ∧ l.length ≤ s.get (rxx_CFG m) fxx_CFG_max_frame ∧ let t := s.macRxCount m l false false false; t.macFifo m + l.length ≤ (if m = 0 then 32768 else 4096) ∧ t.armed (0x70 + m) 0 = none ∧ m = 0 ∧ isPause l = true ∧ s.flag (rxx_CFG 0) fxx_CFG_pause_en = true) ∧
  (∃ s : State, ∃ m : Fin 5, s.enabled (0x70 + m) = true ∧ ∃ body : List Byte, let l := body ++ leBytes 4 (fcs body).toNat; s.flag (rxx_CFG m) fxx_CFG_rx_en = true ∧ (m = 0 ∨ s.routed (m - 1) 0x3C = true) ∧ s.reg (rxx_WAKE_CFG m) = 0 ∧ s.fieldRuns = true ∧ 64 ≤ l.length ∧ l.length ≤ s.get (rxx_CFG m) fxx_CFG_max_frame ∧ let t := s.macRxCount m l false false false; t.macFifo m + l.length ≤ (if m = 0 then 32768 else 4096) ∧ t.armed (0x70 + m) 0 = none ∧ isPause l = false ∧ t.macAccepts m l = false) ∧
  (∃ s : State, ∃ m : Fin 5, s.enabled (0x70 + m) = true ∧ ∃ body : List Byte, let l := body ++ leBytes 4 (fcs body).toNat; s.flag (rxx_CFG m) fxx_CFG_rx_en = true ∧ (m = 0 ∨ s.routed (m - 1) 0x3C = true) ∧ s.reg (rxx_WAKE_CFG m) = 0 ∧ s.fieldRuns = true ∧ 64 ≤ l.length ∧ l.length ≤ s.get (rxx_CFG m) fxx_CFG_max_frame ∧ let t := s.macRxCount m l false false false; t.macFifo m + l.length ≤ (if m = 0 then 32768 else 4096) ∧ t.armed (0x70 + m) 0 = none ∧ isPause l = false ∧ t.macAccepts m l = true ∧ ((m = 0 → bitOf (t.reg rTSU_TUNNEL) 0 = false ∧ isPtp body 9 = false)) ∧ t.macFlow m l = none) ∧
  (∃ s : State, ∃ m : Fin 5, s.enabled (0x70 + m) = true ∧ ∃ body : List Byte, let l := body ++ leBytes 4 (fcs body).toNat; s.flag (rxx_CFG m) fxx_CFG_rx_en = true ∧ (m = 0 ∨ s.routed (m - 1) 0x3C = true) ∧ s.reg (rxx_WAKE_CFG m) = 0 ∧ s.fieldRuns = true ∧ 64 ≤ l.length ∧ l.length ≤ s.get (rxx_CFG m) fxx_CFG_max_frame ∧ let t := s.macRxCount m l false false false; t.macFifo m + l.length ≤ (if m = 0 then 32768 else 4096) ∧ t.armed (0x70 + m) 0 = none ∧ isPause l = false ∧ t.macAccepts m l = true ∧ ((m = 0 → bitOf (t.reg rTSU_TUNNEL) 0 = false ∧ isPtp body 9 = false)) ∧ ∃ f : Nat, t.macFlow m l = some f ∧ t.flag (rxx_EXP m) fxx_EXP_keep_fcs = false) ∧
  (∃ s : State, ∃ m : Fin 5, s.enabled (0x70 + m) = true ∧ ∃ n : Nat, n ≠ 0) ∧
  (∃ s : State, ∃ m : Fin 5, s.enabled (0x70 + m) = true ∧ s.flag (rxx_CFG 0) fxx_CFG_inband = true ∧ s.enabled 0x70 = true) ∧
  (∃ s : State, ∃ m : Fin 5, s.enabled (0x70 + m) = true ∧ ∃ q : Req, ∃ v : Word, s.accepts q (rxx_CNT_CMD m) v ∧ bitOf v 0 = true ∧ bitOf v 1 = false) ∧
  (∃ s : State, ∃ m : Fin 5, s.enabled (0x70 + m) = true ∧ ∃ q : Req, ∃ v : Word, s.accepts q (rxx_CNT_CMD m) v ∧ bitOf v 0 = true ∧ bitOf v 1 = true) :=
  ⟨⟨{ mac 1 with fab := { src := [(9, [delivered { queuedFrame 0 [] with payload := List.replicate 4107 1 }])] } }, 1, by decide +kernel, List.replicate 60 0, by and_intros <;> decide +kernel⟩,
   ⟨(mac 0).put (rxx_CFG 0) fxx_CFG_pause_en 1, 0, by decide +kernel, [1, 0x80, 0xC2, 0, 0, 1, 2, 0, 0, 0, 0, 1, 0x88, 0x08, 0, 1, 0, 5] ++ List.replicate 42 0, by and_intros <;> decide +kernel⟩,
   ⟨mac 1, 1, by decide +kernel, List.replicate 6 2 ++ List.replicate 54 0, by and_intros <;> decide +kernel⟩,
   ⟨((mac 1).put (rxx_CFG 1) fxx_CFG_promisc 1), 1, by decide +kernel, List.replicate 60 0, by and_intros <;> decide +kernel⟩,
   ⟨((mac 1).put (rxx_CFG 1) fxx_CFG_promisc 1).setReg (rxx_RX_BIND 1 3) 0xFFFFFFFF, 1, by decide +kernel, List.replicate 60 0, by decide +kernel, by decide +kernel, by decide +kernel, (by decide +kernel), by decide +kernel, by decide +kernel, by decide +kernel, (by decide +kernel), by decide +kernel, by decide +kernel, by decide +kernel, 0xFFFF, by and_intros <;> decide +kernel⟩,
   ⟨on 0x70 State.reset, 0, by decide +kernel, 5, by decide +kernel⟩,
   ⟨(on 0x70 (mac 0)).put (rxx_CFG 0) fxx_CFG_inband 1, 0, by and_intros <;> decide +kernel⟩,
   ⟨on 0x74 State.reset, 4, by decide +kernel, anise, 1, by and_intros <;> decide +kernel⟩,
   ⟨on 0x74 State.reset, 4, by decide +kernel, anise, 3, by and_intros <;> decide +kernel⟩⟩

theorem witness_MacsSend :
  (∃ s : State, ∃ d, ∃ rest, s.fieldRuns = true ∧ s.outbox 8 = d :: rest ∧ s.enabled 0x70 = true ∧ ((s.mac 0).txq = [] ∨ s.macHeld 0 + (d.frame.payload.length - 12) ≤ 16384)) ∧
  (∃ s : State, ∃ d, ∃ rest, s.fieldRuns = true ∧ s.outbox 8 = d :: rest ∧ s.enabled 0x70 = true ∧ (s.mac 0).txq ≠ [] ∧ 16384 < s.macHeld 0 + (d.frame.payload.length - 12)) ∧
  (∃ s : State, ∃ d, ∃ rest, ∃ c : Fin 4, s.fieldRuns = true ∧ s.outbox 9 = d :: rest ∧ (d.held.map HeldCtx.queue).getD 0 = c ∧ s.enabled (0x71 + c) = true ∧ ((s.mac (1 + c)).txq = [] ∨ s.macHeld (1 + c) + (d.frame.payload.length - 12) ≤ 4096)) ∧
  (∃ s : State, ∃ m : Fin 5, ∃ f : Frame, 12 ≤ f.payload.length ∧ (nthD f.payload 1 0).toNat.testBit 7 = true ∧ (nthD f.payload 1 0).toNat.testBit 6 = true ∧ (s.mac m).asm = [] ∧ (f.payload.drop 12).length = beNat (slice f.payload 4 2)) ∧
  (∃ s : State, ∃ m : Fin 5, ∃ f : Frame, 12 ≤ f.payload.length ∧ (nthD f.payload 1 0).toNat.testBit 7 = false ∧ (s.mac m).asm.find? (fun a => a.flow = f.flow) = none) ∧
  (∃ s : State, ∃ m : Fin 5, ∃ f : MacTx, ∃ rest, s.fieldRuns = true ∧ s.enabled (0x70 + m) = true ∧ s.flag (rxx_CFG m) fxx_CFG_tx_en = true ∧ (s.mac m).backoff = none ∧ (s.mac m).attempt = 0 ∧ (m = 0 → s.flag (rxx_STATUS 0) fxx_STATUS_pause_active = false) ∧ s.macCrs m = false ∧ (s.mac m).txq = f :: rest ∧ s.armed (0x70 + m) 0 = none ∧ (lineOctets (s.flag (rxx_EXP m) fxx_EXP_tx_fcs_given) f.data).length ≤ s.get (rxx_CFG m) fxx_CFG_max_frame ∧ let t := if f.stamp then (s.macPop m).macStamp m f.number else s.macPop m; m = 0) ∧
  (∃ s : State, ∃ m : Fin 5, ∃ f : MacTx, ∃ rest, s.fieldRuns = true ∧ s.enabled (0x70 + m) = true ∧ s.flag (rxx_CFG m) fxx_CFG_tx_en = true ∧ (s.mac m).backoff = none ∧ (s.mac m).attempt = 0 ∧ (m = 0 → s.flag (rxx_STATUS 0) fxx_STATUS_pause_active = false) ∧ s.macCrs m = false ∧ (s.mac m).txq = f :: rest ∧ s.armed (0x70 + m) 0 = none ∧ (lineOctets (s.flag (rxx_EXP m) fxx_EXP_tx_fcs_given) f.data).length ≤ s.get (rxx_CFG m) fxx_CFG_max_frame ∧ let t := if f.stamp then (s.macPop m).macStamp m f.number else s.macPop m; m ≠ 0) ∧
  (∃ s : State, ∃ c : Fin 4, s.fieldRuns = true ∧ s.enabled (0x71 + c) = true ∧ (s.mac (1 + c)).txq ≠ [] ∧ (s.mac (1 + c)).backoff = none ∧ s.flag (rxx_CFG (1 + c)) fxx_CFG_tx_en = true ∧ let t := (s.macCnt (1 + c) 29 1).emit (.jam (1 + c)); (s.mac (1 + c)).attempt = 0 ∧ t.get (rxx_EXP (1 + c)) fxx_EXP_attempt_limit ≠ 0) ∧
  (∃ s : State, ∃ m : Fin 5, ∃ q : Req, ∃ v : Word, s.accepts q (rxx_MDIO_ACC m) v ∧ s.flag (rxx_MDIO_ACC m) fxx_MDIO_ACC_go = false ∧ bitOf v 31 = true) ∧
  (∃ s : State, ∃ m : Fin 5, s.flag (rxx_MDIO_ACC m) fxx_MDIO_ACC_go = true) ∧
  (∃ s : State, ∃ m : Fin 5, ∃ q : Req, ∃ mp : Bool, s.allowsRead q (rxx_TXS_POP m) mp ∧ (s.mac m).stamps = []) ∧
  (∃ s : State, ∃ m : Fin 5, ∃ q : Req, ∃ mp : Bool, s.allowsRead q (rxx_TXS_POP m) mp ∧ ∃ t, ∃ rest, (s.mac m).stamps = t :: rest) :=
  ⟨⟨(on 0x70 State.reset).setOutbox 8 [delivered (queuedFrame 5 (List.replicate 484 0))], delivered (queuedFrame 5 (List.replicate 484 0)), [], by and_intros <;> decide +kernel⟩,
   ⟨((on 0x70 State.reset).setMac 0 { txq := [⟨List.replicate 16384 0, 1, true⟩] }).setOutbox 8 [delivered (queuedFrame 5 (List.replicate 13 0))], delivered (queuedFrame 5 (List.replicate 13 0)), [], by and_intros <;> decide +kernel⟩,
   ⟨(on 0x71 State.reset).setOutbox 9 [delivered (queuedFrame 5 (List.replicate 484 0))], delivered (queuedFrame 5 (List.replicate 484 0)), [], 0, by and_intros <;> decide +kernel⟩,
   ⟨State.reset, 0, queuedFrame 5 ([0, 0xC0] ++ List.replicate 10 0), by and_intros <;> decide +kernel⟩,
   ⟨State.reset, 4, queuedFrame 5 ([0, 0x40] ++ List.replicate 10 0), by and_intros <;> decide +kernel⟩,
   ⟨((on 0x70 State.reset).put (rxx_CFG 0) fxx_CFG_tx_en 1).setMac 0 { txq := [⟨List.replicate 60 0, 1, true⟩] }, 0, ⟨List.replicate 60 0, 1, true⟩, [], by and_intros <;> decide +kernel⟩,
   ⟨((on 0x74 State.reset).put (rxx_CFG 4) fxx_CFG_tx_en 1).setMac 4 { txq := [⟨List.replicate 60 0, 1, true⟩] }, 4, ⟨List.replicate 60 0, 1, true⟩, [], by and_intros <;> decide +kernel⟩,
   ⟨((on 0x74 State.reset).put (rxx_CFG 4) fxx_CFG_tx_en 1).setMac 4 { txq := [⟨[], 1, true⟩] }, 3, by and_intros <;> decide +kernel⟩,
   ⟨on 0x70 State.reset, 0, anise, 0x80000000, by and_intros <;> decide +kernel⟩,
   ⟨(on 0x70 State.reset).put (rxx_MDIO_ACC 0) fxx_MDIO_ACC_go 1, 0, by decide +kernel⟩,
   ⟨on 0x70 State.reset, 0, anise, false, by and_intros <;> decide +kernel⟩,
   ⟨(on 0x70 State.reset).setMac 0 { stamps := [1] }, 0, anise, false, by decide +kernel, 1, [], (by decide +kernel)⟩⟩

theorem witness_HalfDuplexIsReported :
  (∃ s : State, s.enabled 0x70 = true ∧ ∃ st : Fin 16, s.flag (rxx_CFG 0) fxx_CFG_inband = true ∧ st.val % 2 = 1 ∧ st.val / 8 = 0 ∧ s.flag (rxx_STATUS 0) fxx_STATUS_half_duplex = false) ∧
  (∃ s : State, s.enabled 0x70 = true ∧ ∃ f : MacTx, ∃ rest, s.flag (rxx_STATUS 0) fxx_STATUS_half_duplex = true ∧ s.fieldRuns = true ∧ s.flag (rxx_CFG 0) fxx_CFG_tx_en = true ∧ (s.mac 0).backoff = none ∧ s.flag (rxx_STATUS 0) fxx_STATUS_pause_active = false ∧ (s.mac 0).txq = f :: rest ∧ s.armed 0x70 0 = none ∧ (lineOctets (s.flag (rxx_EXP 0) fxx_EXP_tx_fcs_given) f.data).length ≤ s.get (rxx_CFG 0) fxx_CFG_max_frame) :=
  ⟨⟨(on 0x70 State.reset).put (rxx_CFG 0) fxx_CFG_inband 1, by decide +kernel, 1, by and_intros <;> decide +kernel⟩,
   ⟨(((on 0x70 State.reset).put (rxx_STATUS 0) fxx_STATUS_half_duplex 1).put (rxx_CFG 0) fxx_CFG_tx_en 1).setMac 0 { txq := [⟨List.replicate 60 0, 1, true⟩] }, by decide +kernel, ⟨List.replicate 60 0, 1, true⟩, [], by and_intros <;> decide +kernel⟩⟩

/-! ## Premises, part 9 -/

theorem witness_CipherEngineActs :
  (∃ s : State, ∃ d, ∃ slot, ∃ u, ∃ h, s.portHolds 7 = false ∧ s.ciph.frame = some ⟨d, slot, some u⟩ ∧ d.held = some h ∧ s.armed 0x48 3 = none ∧ s.revokedSince u = false ∧ let t : State := { s with ciph := { s.ciph with frame := none } }; h.role = 0 ∧ let c := t.takeCount h d.frame.flow; let f := d.frame.stamped d.frame.cls (c.2.resolveRing d.frame.src) (c.2.resolveRing d.frame.dest) d.frame.seq; let p := protectFrame (attrMode u.attr) (schedule u.key) f c.1; p.length ≤ 484) ∧
  (∃ s : State, ∃ d, ∃ slot, ∃ u, ∃ h, s.portHolds 7 = false ∧ s.ciph.frame = some ⟨d, slot, some u⟩ ∧ d.held = some h ∧ s.armed 0x48 3 = none ∧ s.revokedSince u = false ∧ let t : State := { s with ciph := { s.ciph with frame := none } }; h.role = 0 ∧ let c := t.takeCount h d.frame.flow; let f := d.frame.stamped d.frame.cls (c.2.resolveRing d.frame.src) (c.2.resolveRing d.frame.dest) d.frame.seq; let p := protectFrame (attrMode u.attr) (schedule u.key) f c.1; 484 < p.length) ∧
  (∃ s : State, ∃ d, ∃ slot, ∃ u, ∃ h, s.portHolds 7 = false ∧ s.ciph.frame = some ⟨d, slot, some u⟩ ∧ d.held = some h ∧ s.armed 0x48 3 = none ∧ s.revokedSince u = false ∧ let t : State := { s with ciph := { s.ciph with frame := none } }; ∃ k : Nat, h.role = 0 ∧ s.ctxOf d.frame.flow = some k) ∧
  (∃ s : State, ∃ d, ∃ slot, ∃ u, ∃ h, s.portHolds 7 = false ∧ s.ciph.frame = some ⟨d, slot, some u⟩ ∧ d.held = some h ∧ s.armed 0x48 3 = none ∧ s.revokedSince u = false ∧ let t : State := { s with ciph := { s.ciph with frame := none } }; h.role = 1 ∧ let o := openFrame (attrMode u.attr) (schedule u.key) d.frame; let v := t.inc rCIPH_CNT_DEC; ∃ k : Nat, o.2.2 = true ∧ s.ctxOf d.frame.flow = some k) ∧
  (∃ s : State, ∃ d, ∃ slot, ∃ u, ∃ h, s.portHolds 7 = false ∧ s.ciph.frame = some ⟨d, slot, some u⟩ ∧ d.held = some h ∧ s.armed 0x48 3 = none ∧ s.revokedSince u = false ∧ let t : State := { s with ciph := { s.ciph with frame := none } }; h.role = 1 ∧ let o := openFrame (attrMode u.attr) (schedule u.key) d.frame; let v := t.inc rCIPH_CNT_DEC; ∃ k : Nat, o.2.2 = false ∧ s.ctxOf d.frame.flow = some k) ∧
  (∃ s : State, ∃ d, ∃ slot, s.portHolds 7 = false ∧ s.ciph.frame = some ⟨d, slot, none⟩) ∧
  (∃ s : State, ∃ d, ∃ h, s.portHolds 7 = false ∧ s.enabled 0x48 = true ∧ s.ciph.frame = none ∧ s.outbox 7 = [d] ∧ d.frame.kind = 0 ∧ d.frame.cls ≤ 3 ∧ d.held = some h ∧ h.role ≠ 2 ∧ ((h.role = 0 → ∃ k, s.ctxOf d.frame.flow = some k ∧ s.cipherCount k < 2 ^ 62))) ∧
  (∃ s : State, ∃ q : Req, ∃ r : Fin 2, ∃ v : Word, s.accepts q (rCIPH_JR_TAIL r) v ∧ let n := (v.toNat % 65536 + 65536 - s.jrHead r) % 65536; 2 ^ s.get (rCIPH_JR_CFG r) fCIPH_JR_CFG_ring_k < n) ∧
  (∃ s : State, ∃ q : Req, ∃ r : Fin 2, ∃ v : Word, s.accepts q (rCIPH_JR_TAIL r) v ∧ let n := (v.toNat % 65536 + 65536 - s.jrHead r) % 65536; n ≤ 2 ^ s.get (rCIPH_JR_CFG r) fCIPH_JR_CFG_ring_k) ∧
  (∃ s : State, ∃ r : Fin 2, ∃ j, s.ciph.job r = some j ∧ jobWord j.words 0 / 2 ^ 28 = 2 ∧ let src := s.jobRead r (jobWord j.words 2) (jobWord j.words 1 % 2 ^ 24); let iv := src.2.jobRead r (jobWord j.words 6) 16; ∃ c : Nat, ∃ a : Nat, src.1.1 = some (c, a)) ∧
  (∃ s : State, ∃ r : Fin 2, ∃ j, s.ciph.job r = some j ∧ jobWord j.words 0 / 2 ^ 28 = 2 ∧ let src := s.jobRead r (jobWord j.words 2) (jobWord j.words 1 % 2 ^ 24); let iv := src.2.jobRead r (jobWord j.words 6) 16; src.1.1 = none ∧ src.1.2.1 = 0 ∧ iv.1.1 = none ∧ iv.1.2.1 = 0 ∧ iv.2.armed 0x48 3 = none ∧ let o := ctrMode (schedule j.use.key) (beNat iv.1.2.2) src.1.2.2; let w := iv.2.jobWrite r (jobWord j.words 3) o; w.1.1 = none ∧ w.1.2 = 0) ∧
  (∃ s : State, ∃ q : Req, ∃ v : Word, s.accepts q rCIPH_JR_CMD v ∧ bitOf v 1 = false ∧ bitOf v 9 = false ∧ bitOf v 0 = true ∧ bitOf v 8 = false ∧ s.jrState 0 = 2) ∧
  (∃ s : State, ∃ q : Req, ∃ v : Word, s.accepts q rCIPH_JR_CMD v ∧ bitOf v 1 = false ∧ bitOf v 9 = false ∧ ∃ j, bitOf v 0 = false ∧ bitOf v 8 = true ∧ s.ciph.job 0 = some j) ∧
  (∃ s : State, ∃ q : Req, ∃ v : Word, s.accepts q rCIPH_MM_CMD v ∧ bitOf v 0 = true) ∧
  (∃ s : State, ∃ q : Req, ∃ v : Word, s.accepts q rCIPH_KAT v ∧ bitOf v 0 = true) :=
  ⟨⟨cipher 0 (held5 0 [1]) (some use8), held5 0 [1], 8, use8, ctx5 0, by and_intros <;> decide +kernel⟩,
   ⟨cipher 0 (held5 0 (List.replicate 484 0)) (some use8), held5 0 (List.replicate 484 0), 8, use8, ctx5 0, by and_intros <;> decide +kernel⟩,
   ⟨cipher 0 (held5 0 [1]) (some use8), held5 0 [1], 8, use8, ctx5 0, by decide +kernel, by decide +kernel, (by decide +kernel), by decide +kernel, by decide +kernel, 0, by and_intros <;> decide +kernel⟩,
   ⟨cipher 1 (held5 1 (List.replicate 9 0)) (some use8), held5 1 (List.replicate 9 0), 8, use8, ctx5 1, by decide +kernel, by decide +kernel, (by decide +kernel), by decide +kernel, by decide +kernel, by decide +kernel, 0, by and_intros <;> decide +kernel⟩,
   ⟨cipher 1 (held5 1 []) (some { use8 with attr := 0 }), held5 1 [], 8, { use8 with attr := 0 }, ctx5 1, by decide +kernel, by decide +kernel, (by decide +kernel), by decide +kernel, by decide +kernel, by decide +kernel, 0, by and_intros <;> decide +kernel⟩,
   ⟨cipher 1 (plain []) none, plain [], 8, by and_intros <;> decide +kernel⟩,
   ⟨(on 0x48 State.reset).setOutbox 7 [held5 1 []], held5 1 [], ctx5 1, (by decide +kernel), by decide +kernel, by decide +kernel, by decide +kernel, (by decide +kernel), by decide +kernel, by decide +kernel, by decide +kernel, fun h => absurd h (by decide)⟩,
   ⟨on 0x49 (on 0x48 State.reset), anise, 0, 0xFFFF, by and_intros <;> decide +kernel⟩,
   ⟨on 0x49 (on 0x48 State.reset), anise, 1, 1, by and_intros <;> decide +kernel⟩,
   ⟨{ on 0x48 State.reset with ciph := { job0 := some ⟨[0x20000000, 1, 0, 0], use8⟩ } }, 0, ⟨[0x20000000, 1, 0, 0], use8⟩, (by decide +kernel), by decide +kernel, 1, 0, (by decide +kernel)⟩,
   ⟨{ on 0x48 mapped with ciph := { job0 := some ⟨[0x20000000, 1, 0x200000, 0x200800, 0, 0, 0x200040], use8⟩ } }, 0, ⟨[0x20000000, 1, 0x200000, 0x200800, 0, 0, 0x200040], use8⟩, by and_intros <;> decide +kernel⟩,
   ⟨(on 0x49 (on 0x48 State.reset)).put (rCIPH_JR_STATUS 0) fCIPH_JR_STATUS_state 2, anise, 1, by and_intros <;> decide +kernel⟩,
   ⟨{ on 0x49 (on 0x48 State.reset) with ciph := { job0 := some ⟨[0x20000000, 1, 0, 0], use8⟩ } }, anise, 256, (by decide +kernel), by decide +kernel, by decide +kernel, ⟨[0x20000000, 1, 0, 0], use8⟩, by and_intros <;> decide +kernel⟩,
   ⟨on 0x48 State.reset, anise, 1, by and_intros <;> decide +kernel⟩,
   ⟨onX 0x4B (on 0x48 State.reset), anise, 1, by and_intros <;> decide +kernel⟩⟩

theorem witness_KeyStoreActs :
  (∃ s : State, ∃ q : Req, s.kmgr.queue.length < 4 ∧ ∃ v : Word, s.keySending = false ∧ s.accepts q rKEY_CMD v ∧ bitOf v 0 = true ∧ bitOf v 1 = false ∧ bitOf v 2 = false ∧ bitOf v 3 = false ∧ s.flag rKEY_CTR_LOCK fKEY_CTR_LOCK_locked = true) ∧
  (∃ s : State, ∃ q : Req, s.kmgr.queue.length < 4 ∧ ∃ v : Word, s.keySending = false ∧ s.accepts q rKEY_CMD v ∧ ∃ me, bitOf v 0 = false ∧ bitOf v 1 = true ∧ bitOf v 2 = false ∧ bitOf v 3 = false ∧ s.nodeId 0 = some me ∧ let dst := s.get rKEY_CMD_NODE fKEY_CMD_NODE_node; dst % 256 ≠ 255) ∧
  (∃ s : State, ∃ q : Req, s.kmgr.queue.length < 4 ∧ ∃ v : Word, s.keySending = false ∧ s.accepts q rKEY_CMD v ∧ bitOf v 0 = false ∧ bitOf v 1 = false ∧ bitOf v 2 = true ∧ bitOf v 3 = false ∧ let n := natBits v.toNat 10 8; let a := (s.reg rKEY_OPEN_ATTR_LO).toNat + 2 ^ 32 * (s.reg rKEY_OPEN_ATTR_HI).toNat; attrParent a = 0xFF ∧ attrQrn a = false ∧ attrMix a = false ∧ attrBad a = false) ∧
  (∃ s : State, ∃ q : Req, s.kmgr.queue.length < 4 ∧ ∃ v : Word, s.keySending = false ∧ s.accepts q rKEY_CMD v ∧ bitOf v 0 = false ∧ bitOf v 1 = false ∧ bitOf v 2 = true ∧ bitOf v 3 = false ∧ let n := natBits v.toNat 10 8; let a := (s.reg rKEY_OPEN_ATTR_LO).toNat + 2 ^ 32 * (s.reg rKEY_OPEN_ATTR_HI).toNat; attrBad a = true) ∧
  (∃ s : State, ∃ q : Req, s.kmgr.queue.length < 4 ∧ ∃ v : Word, s.keySending = false ∧ s.accepts q rKEY_CMD v ∧ bitOf v 0 = false ∧ bitOf v 1 = false ∧ bitOf v 2 = false ∧ bitOf v 3 = true) ∧
  (∃ s : State, s.kmgr.queue.length < 4 ∧ ∃ m : KeyMsg, ∃ rest, s.enabled 0x4C = true ∧ s.kmgr.pending = none ∧ s.kmgr.queue = m :: rest ∧ let t : State := { s with kmgr := { s.kmgr with queue := rest } }; t.msgCheck m = 1 ∧ m.restore = false) ∧
  (∃ s : State, s.kmgr.queue.length < 4 ∧ ∃ m : KeyMsg, ∃ rest, s.enabled 0x4C = true ∧ s.kmgr.pending = none ∧ s.kmgr.queue = m :: rest ∧ let t : State := { s with kmgr := { s.kmgr with queue := rest } }; t.msgCheck m = 1 ∧ m.restore = true) ∧
  (∃ s : State, s.kmgr.queue.length < 4 ∧ ∃ m : KeyMsg, ∃ rest, s.enabled 0x4C = true ∧ s.kmgr.pending = none ∧ s.kmgr.queue = m :: rest ∧ let t : State := { s with kmgr := { s.kmgr with queue := rest } }; t.msgCheck m ≠ 1) ∧
  (∃ s : State, ∃ q : Req, s.kmgr.queue.length < 4 ∧ ∃ m : KeyMsg, s.kmgr.pending = some m ∧ let t := ({ s with kmgr := { s.kmgr with pending := none } } : State).put rKEY_STATUS fKEY_STATUS_pending 0; ∃ v : Word, s.accepts q rKEY_COMMIT v ∧ bitOf v 0 = true) ∧
  (∃ s : State, ∃ q : Req, s.kmgr.queue.length < 4 ∧ ∃ m : KeyMsg, s.kmgr.pending = some m ∧ let t := ({ s with kmgr := { s.kmgr with pending := none } } : State).put rKEY_STATUS fKEY_STATUS_pending 0; ∃ v : Word, s.accepts q rKEY_COMMIT v ∧ bitOf v 0 = false ∧ bitOf v 1 = true) ∧
  (∃ s : State, ∃ q : Req, s.kmgr.queue.length < 4 ∧ ∃ v : Word, s.accepts q rKEY_CTR_LOCK v) ∧
  (∃ s : State, ∃ q : Req, s.kmgr.queue.length < 4 ∧ ∃ mp : Bool, s.allowsRead q rKEY_LOG_POP mp ∧ s.kmgr.log = []) ∧
  (∃ s : State, ∃ q : Req, s.kmgr.queue.length < 4 ∧ ∃ mp : Bool, s.allowsRead q rKEY_LOG_POP mp ∧ ∃ t, ∃ rest, s.kmgr.log = t :: rest) ∧
  (∃ s : State, s.kmgr.queue.length < 4 ∧ s.flag rKEY_CTR_LOCK fKEY_CTR_LOCK_locked = true) ∧
  (∃ s : State, ∃ q : Req, s.kmgr.queue.length < 4 ∧ ∃ v : Word, s.keySending = true ∧ s.accepts q rKEY_CMD v) :=
  ⟨⟨store, anise, by decide +kernel, 1, by and_intros <;> decide +kernel⟩,
   ⟨on 0x4C timeMaster, anise, by decide +kernel, 2, by decide +kernel, by decide +kernel, 0x3FF00, by and_intros <;> decide +kernel⟩,
   ⟨store, anise, by decide +kernel, 0x704, by and_intros <;> decide +kernel⟩,
   ⟨store.setReg rKEY_OPEN_ATTR_LO 1, anise, by decide +kernel, 4, by and_intros <;> decide +kernel⟩,
   ⟨store, anise, by decide +kernel, 8, by and_intros <;> decide +kernel⟩,
   ⟨asks (message false) store, by decide +kernel, message false, [], by and_intros <;> decide +kernel⟩,
   ⟨asks (message true) store, by decide +kernel, message true, [], by and_intros <;> decide +kernel⟩,
   ⟨asks ⟨false, true, []⟩ store, by decide +kernel, ⟨false, true, []⟩, [], by and_intros <;> decide +kernel⟩,
   ⟨{ store with kmgr := { pending := some (message false) } }, anise, by decide +kernel, message false, by decide +kernel, 1, by and_intros <;> decide +kernel⟩,
   ⟨{ store with kmgr := { pending := some (message false) } }, anise, by decide +kernel, message false, by decide +kernel, 2, by and_intros <;> decide +kernel⟩,
   ⟨store, anise, by decide +kernel, 1, by decide +kernel⟩,
   ⟨store, anise, by decide +kernel, false, by and_intros <;> decide +kernel⟩,
   ⟨{ store with kmgr := { log := [7] } }, anise, by decide +kernel, false, by decide +kernel, 7, [], (by decide +kernel)⟩,
   ⟨store, by and_intros <;> decide +kernel⟩,
   ⟨store.present 7 (resp 0xB 0xF4B0 []), anise, by decide +kernel, 1, by and_intros <;> decide +kernel⟩⟩

theorem witness_KeyMessagesAct :
  (∃ s : State, s.flag rKEY_CTR_LOCK fKEY_CTR_LOCK_locked = false) ∧
  (∃ s : State, ∃ m : KeyMsg, s.flag rKEY_CTR_LOCK fKEY_CTR_LOCK_locked = true ∧ m.badFormat = true) ∧
  (∃ s : State, ∃ m : KeyMsg, s.flag rKEY_CTR_LOCK fKEY_CTR_LOCK_locked = true ∧ m.badFormat = false ∧ beNat (slice m.data 4 16) ≠ s.uid) ∧
  (∃ s : State, ∃ m : KeyMsg, s.flag rKEY_CTR_LOCK fKEY_CTR_LOCK_locked = true ∧ m.badFormat = false ∧ beNat (slice m.data 4 16) = s.uid ∧ m.slot < 8) ∧
  (∃ s : State, ∃ m : KeyMsg, m.code = 3 ∧ 8 ≤ m.slot ∧ let t := s.setKey m.slot { s.key m.slot with st := 3 }; t.isAncestor 5 m.slot m.slot = false ∧ ∃ n : Fin 256, t.isAncestor 5 m.slot n = true) ∧
  (∃ s : State, ∃ m : KeyMsg, ∃ k : List Byte, m.code = 1 ∧ 8 ≤ m.slot ∧ s.badParent m = false ∧ attrParent m.attr = 0xFF ∧ s.msgKey m = some k) ∧
  (∃ s : State, ∃ n : Nat, attrUses (s.key n).attr ≠ 0 ∧ 1 < (s.key n).left) ∧
  (∃ s : State, ∃ n : Nat, attrUses (s.key n).attr ≠ 0 ∧ (s.key n).left ≤ 1 ∧ (s.setKey n { s.key n with left := 0, st := 2 }).isAncestor 5 n n = false) :=
  ⟨⟨State.reset, by decide +kernel⟩,
   ⟨store, ⟨false, true, []⟩, by and_intros <;> decide +kernel⟩,
   ⟨{ store with regs := List.cons (rCHIP_UID0, 1) store.regs }, message false, by and_intros <;> decide +kernel⟩,
   ⟨store, { message false with data := [3, 1, 7] ++ (message false).data.drop 3 }, by and_intros <;> decide +kernel⟩,
   ⟨store.setKey 9 { st := 1, depth := 1, attr := 8 * 2 ^ 56 }, message false, by decide +kernel, (by decide +kernel), by decide +kernel, 9, by decide +kernel⟩,
   ⟨store, ⟨false, true, [1, 1, 8] ++ List.replicate 21 0 ++ [0xFF] ++ List.replicate 7 0 ++ List.replicate 8 0xA6⟩, [], by and_intros <;> decide +kernel⟩,
   ⟨store.setKey 8 { st := 1, attr := 2 ^ 55, left := 2 }, 8, by and_intros <;> decide +kernel⟩,
   ⟨store.setKey 8 { st := 1, attr := 2 ^ 55, left := 1 }, 8, by and_intros <;> decide +kernel⟩⟩

theorem witness_CollectorTakesEvents :
  (∃ s : State, ∃ e : FaultEv, e.source < 128 ∧ e.master < 256 ∧ e.type < 8 ∧ s.enabled 0x04 = true ∧ ((∀ p, ownerPage e.source e.page = some p → s.enabled p = true)) ∧ let c := srcClass e.source; let n := satInc 255 (natBits (s.reg (rFLT_SRC_COUNT (e.source / 4))).toNat (8 * (e.source % 4) + 7) (8 * (e.source % 4))); let severe := decide (max 1 (s.get (rFLT_SRC_CFG e.source) fFLT_SRC_CFG_count_n) ≤ n); let lvl := levelCode (s.get (rFLT_SRC_CFG e.source) (if severe then fFLT_SRC_CFG_severe_level else fFLT_SRC_CFG_minor_level)); (s.get rFLT_PENDING fFLT_PENDING_pending).testBit c = false ∧ lvl = 1 ∧ e.injected = false ∧ ∃ p, ownerPage e.source e.page = some p) ∧
  (∃ s : State, ∃ e : FaultEv, e.source < 128 ∧ e.master < 256 ∧ e.type < 8 ∧ s.enabled 0x04 = true ∧ ((∀ p, ownerPage e.source e.page = some p → s.enabled p = true)) ∧ let c := srcClass e.source; let n := satInc 255 (natBits (s.reg (rFLT_SRC_COUNT (e.source / 4))).toNat (8 * (e.source % 4) + 7) (8 * (e.source % 4))); let severe := decide (max 1 (s.get (rFLT_SRC_CFG e.source) fFLT_SRC_CFG_count_n) ≤ n); let lvl := levelCode (s.get (rFLT_SRC_CFG e.source) (if severe then fFLT_SRC_CFG_severe_level else fFLT_SRC_CFG_minor_level)); (s.get rFLT_PENDING fFLT_PENDING_pending).testBit c = false ∧ lvl = 1 ∧ e.injected = false ∧ bitOf (s.reg (rFLT_CAP c 0)) 31 = true) :=
  ⟨⟨(on 0x04 (on 0x18 State.reset)).setReg (rFLT_SRC_CFG 9) 0x11, { source := 9, page := 0x18 }, by decide +kernel, (by decide +kernel), by decide +kernel, by decide +kernel, fun p h => by cases Option.some.inj ((show ownerPage 9 0x18 = some 0x18 by decide +kernel).symm.trans h); decide +kernel, (by decide +kernel), by decide +kernel, by decide +kernel, 0x18, (by decide +kernel)⟩,
   ⟨(on 0x04 (on 0x6A State.reset)).setReg (rFLT_SRC_CFG 48) 0x11 |>.setReg (rFLT_CAP 3 0) 0x80000000, { source := 48, page := 0 }, by decide +kernel, (by decide +kernel), by decide +kernel, by decide +kernel, fun p h => absurd ((show ownerPage 48 0 = none by decide +kernel).symm.trans h) (by simp), by and_intros <;> decide +kernel⟩⟩

theorem witness_FaultCommandsAct :
  (∃ m : Nat, m % 256 ≠ 0xFF) ∧
  (∃ m : Nat, m % 256 = 0xFF) ∧
  (∃ src : Fin 127, [1, 2, 13, 51, 57, 58, 59, 60, 66, 114].contains src.val = false) ∧
  (∃ s : State, s.enabled 0x04 = true) ∧
  (∃ s : State, ∃ q : Req, ∃ v : Word, s.accepts q rFLT_ACK v) ∧
  (∃ s : State, ∃ q : Req, ∃ v : Word, s.accepts q rFLT_CAP_CLR v) ∧
  (∃ s : State, ∃ q : Req, ∃ v : Word, s.accepts q rFLT_ERRN_CLR v ∧ s.flag rPD_LINK_STATUS fPD_LINK_STATUS_silent = false) ∧
  (∃ s : State, ∃ q : Req, ∃ v : Word, s.accepts q rFLT_ERRN_CLR v ∧ s.flag rPD_LINK_STATUS fPD_LINK_STATUS_silent = true) ∧
  (∃ s : State, s.level5 = true) ∧
  (∃ s : State, s.level5 = false) :=
  ⟨⟨0, by decide +kernel⟩,
   ⟨0xFF, by decide +kernel⟩,
   ⟨0, by decide +kernel⟩,
   ⟨on 4 State.reset, by decide +kernel⟩,
   ⟨on 4 State.reset, anise, 0x1FF, (by decide +kernel)⟩,
   ⟨on 4 State.reset, anise, 0x1FF, (by decide +kernel)⟩,
   ⟨on 4 (State.reset.put rPD_LINK_STATUS fPD_LINK_STATUS_silent 0), anise, 1, by and_intros <;> decide +kernel⟩,
   ⟨on 4 (State.reset.put rPD_LINK_STATUS fPD_LINK_STATUS_silent 1), anise, 1, by and_intros <;> decide +kernel⟩,
   ⟨{ State.reset with level5 := true }, by decide +kernel⟩,
   ⟨State.reset, by decide +kernel⟩⟩

theorem witness_LedgerActs :
  (∃ s : State, ∃ q : Req, ∃ v : Word, s.accepts q rLEDG_CMD (v ||| 1) ∧ bitOf v 1 = false ∧ bitOf v 2 = false ∧ bitOf v 3 = false ∧ s.ledgBusy = false) ∧
  (∃ s : State, ∃ q : Req, ∃ v : Word, s.accepts q rLEDG_CMD (v ||| 1) ∧ bitOf v 1 = false ∧ bitOf v 2 = false ∧ bitOf v 3 = false ∧ s.ledgBusy = true) ∧
  (∃ s : State, ∃ q : Req, ∃ v : Word, s.accepts q rLEDG_CMD (v ||| 2) ∧ bitOf v 0 = false ∧ bitOf v 2 = false ∧ bitOf v 3 = false ∧ s.ledgBusy = false ∧ s.partSectors ≠ 0) ∧
  (∃ s : State, ∃ q : Req, ∃ v : Word, s.accepts q rLEDG_CMD (v ||| 8) ∧ bitOf v 0 = false ∧ bitOf v 1 = false ∧ bitOf v 2 = false) ∧
  (∃ s : State, ∃ q : Req, ∃ v : Word, s.accepts q rLEDG_CMD (v ||| 4) ∧ bitOf v 0 = false ∧ bitOf v 1 = false ∧ bitOf v 3 = false ∧ s.enabled 0x06 = true ∧ s.flag rLEDG_STATUS fLEDG_STATUS_anchored = true ∧ s.flag rLEDG_STATUS fLEDG_STATUS_flushing = false ∧ s.partSectors ≠ 0) ∧
  (∃ s : State, s.flag rLEDG_STATUS fLEDG_STATUS_flushing = true ∧ s.ledgerKeyOk = true) ∧
  (∃ s : State, s.partFull = false ∧ s.ledgerKeyOk = true) ∧
  (∃ s : State, s.enabled 0x06 = true ∧ s.ledg.lost = 0 ∧ s.staged < 512) ∧
  (∃ s : State, s.enabled 0x06 = true ∧ s.ledg.lost = 0 ∧ 512 ≤ s.staged) ∧
  (∃ s : State, s.enabled 0x06 = false) :=
  ⟨⟨on 6 State.reset, anise, 0, by and_intros <;> decide +kernel⟩,
   ⟨((on 6 State.reset).put rLEDG_STATUS fLEDG_STATUS_anchored 1).put rLEDG_STATUS fLEDG_STATUS_flushing 1, anise, 0, by and_intros <;> decide +kernel⟩,
   ⟨(on 6 State.reset).put rLEDG_PART_SIZE fLEDG_PART_SIZE_sectors 2, anise, 0, by and_intros <;> decide +kernel⟩,
   ⟨on 6 State.reset, anise, 0, by and_intros <;> decide +kernel⟩,
   ⟨((on 6 State.reset).put rLEDG_STATUS fLEDG_STATUS_anchored 1).put rLEDG_PART_SIZE fLEDG_PART_SIZE_sectors 2, anise, 0, by and_intros <;> decide +kernel⟩,
   ⟨(((on 6 State.reset).put rLEDG_STATUS fLEDG_STATUS_flushing 1).put rLEDG_CFG fLEDG_CFG_slot 8).setKey 8 { st := 1, attr := 2 ^ 24 }, by and_intros <;> decide +kernel⟩,
   ⟨(((on 6 State.reset).put rLEDG_PART_SIZE fLEDG_PART_SIZE_sectors 2).put rLEDG_CFG fLEDG_CFG_slot 8).setKey 8 { st := 1, attr := 2 ^ 24 }, by and_intros <;> decide +kernel⟩,
   ⟨on 6 (State.reset.put rLEDG_STATUS fLEDG_STATUS_staged 511), by and_intros <;> decide +kernel⟩,
   ⟨on 6 (State.reset.put rLEDG_STATUS fLEDG_STATUS_staged 512), by and_intros <;> decide +kernel⟩,
   ⟨State.reset.put (rPG_CTRL 6) fPG_CTRL_enable 0, by decide +kernel⟩⟩

theorem witness_EpochBoundaryActs :
  (∃ s : State, s.servo.n ≠ 0 ∧ s.isRoot = false ∧ s.enabled 0x40 = true ∧ s.flag (rTB_EXP 0) fTB_EXP_servo_off = false ∧ s.get (rTB_SERVO 0) fTB_SERVO_step_ns = 0) ∧
  (∃ s : State, s.servo.n = 0 ∧ s.isRoot = false) ∧
  (∃ s : State, s.flag rFWU_STATUS fFWU_STATUS_handover_active = false) ∧
  (∃ s : State, ∃ w, s.flag rFWU_STATUS fFWU_STATUS_handover_active = true ∧ w ∉ s.boot.held) ∧
  (∃ s : State, ∃ epoch : Nat, ∃ n : Fin 128, let t := s.faultWindows epoch; let cnt (x : State) := natBits (x.reg (rFLT_SRC_COUNT (n / 4))).toNat (8 * (n % 4) + 7) (8 * (n % 4)); epoch % 2 ^ s.get (rFLT_SRC_CFG n) fFLT_SRC_CFG_window_k = 0) ∧
  (∃ s : State, ∃ epoch : Nat, ∃ n : Fin 128, let t := s.faultWindows epoch; let cnt (x : State) := natBits (x.reg (rFLT_SRC_COUNT (n / 4))).toNat (8 * (n % 4) + 7) (8 * (n % 4)); epoch % 2 ^ s.get (rFLT_SRC_CFG n) fFLT_SRC_CFG_window_k ≠ 0) :=
  ⟨⟨{ (on 0x40 State.reset).put (rTB_SERVO 0) fTB_SERVO_step_ns 0 with servo := { n := 1 } }, by and_intros <;> decide +kernel⟩,
   ⟨State.reset, by and_intros <;> decide +kernel⟩,
   ⟨State.reset, by decide +kernel⟩,
   ⟨State.reset.put rFWU_STATUS fFWU_STATUS_handover_active 1, (1, 0, 0), by and_intros <;> decide +kernel⟩,
   ⟨State.reset, 0, 127, (by decide +kernel)⟩,
   ⟨State.reset.put (rFLT_SRC_CFG 127) fFLT_SRC_CFG_window_k 1, 1, 127, (by decide +kernel)⟩⟩

theorem witness_TapInstructions :
  (∃ s : State, s.pwr.level ≤ 4 ∧ let load (ir : Nat) (reg : TapReg) (drive : TapDrive) := (.next (s.finished { s with tap := { s.tap with ir := ir, reg := reg, drive := drive } }) : Host.Outcome State Fault Refusal); ∃ code : BitVec 8, 6 < code.toNat) :=
  ⟨State.reset, by decide +kernel, 255, (by decide +kernel)⟩

/-! ## Premises, part 10 -/

theorem witness_HotSwapSequence :
  (∃ s : State, s.pd.on = true ∧ s.hs ≠ hsLatched ∧ s.hs ≠ hsCool) ∧
  (∃ s : State, s.pd.on = true ∧ s.pd.ov = true ∧ s.hs = hsWait ∧ s.hsReady = true) ∧
  (∃ s : State, s.pd.on = true ∧ s.hsReady = true ∧ s.hs = hsDebounce ∧ s.pd.ov = false) ∧
  (∃ s : State, s.pd.on = true ∧ s.hs = hsCheck) ∧
  (∃ s : State, s.pd.on = true ∧ s.hs = hsRamp ∧ s.pd.enh = true) ∧
  (∃ s : State, s.pd.on = true ∧ s.hsDriven = true ∧ s.pdFlag rPD_HS_STATUS fPD_HS_STATUS_in_limit = true) ∧
  (∃ s : State, s.pd.on = true ∧ s.pdFlag rPD_HS_STATUS fPD_HS_STATUS_in_limit = false ∧ s.hs = hsSettle ∧ s.pd.held = false) ∧
  (∃ s : State, s.pd.on = true ∧ s.hs = hsOn) ∧
  (∃ s : State, s.pd.on = true ∧ s.hs = hsCool ∧ s.hsReady = true ∧ s.pd.debounced = true ∧ s.pd.ov = false) ∧
  (∃ s : State, s.pd.on = true ∧ s.pd.clearRun = true) ∧
  (∃ s : State, s.pd.on = true ∧ ∃ cause, (cause = 0 ∨ cause = 2) ∧ let n := s.pdGet rPD_HS_STATUS fPD_HS_STATUS_retry_count + 1; n ≤ fldOf s.hsCfg fPD_HS_CFG_retries) ∧
  (∃ s : State, s.pd.on = true ∧ ∃ cause, (cause = 0 ∨ cause = 2) ∧ let n := s.pdGet rPD_HS_STATUS fPD_HS_STATUS_retry_count + 1; fldOf s.hsCfg fPD_HS_CFG_retries < n ∧ n < 16) ∧
  (∃ s : State, s.pd.on = true ∧ s.hsReady = false) :=
  ⟨⟨hsIn hsWait, by and_intros <;> decide +kernel⟩,
   ⟨{ hsIn hsWait with pd := { (hsIn hsWait).pd with ov := true } }, by and_intros <;> decide +kernel⟩,
   ⟨hsIn hsDebounce, by and_intros <;> decide +kernel⟩,
   ⟨hsIn hsCheck, by and_intros <;> decide +kernel⟩,
   ⟨{ hsIn hsRamp with pd := { (hsIn hsRamp).pd with enh := true } }, by and_intros <;> decide +kernel⟩,
   ⟨(hsIn hsOn).pdPut rPD_HS_STATUS fPD_HS_STATUS_in_limit 1, by and_intros <;> decide +kernel⟩,
   ⟨hsIn hsSettle, by and_intros <;> decide +kernel⟩,
   ⟨hsIn hsOn, by and_intros <;> decide +kernel⟩,
   ⟨{ hsIn hsCool with pd := { (hsIn hsCool).pd with debounced := true } }, by and_intros <;> decide +kernel⟩,
   ⟨{ hsIn hsWait with pd := { (hsIn hsWait).pd with clearRun := true } }, by and_intros <;> decide +kernel⟩,
   ⟨hsIn hsOn, by decide +kernel, 0, Or.inl rfl, by decide +kernel⟩,
   ⟨(hsIn hsOn).pdPut rPD_HS_STATUS fPD_HS_STATUS_retry_count 14, by decide +kernel, 2, Or.inr rfl, by and_intros <;> decide +kernel⟩,
   ⟨State.reset, by and_intros <;> decide +kernel⟩⟩

theorem witness_FeedsAct :
  (∃ s : State, ∃ n : Fin 2, s.pd.on = true ∧ ∃ valid, s.pd.valid.testBit n = valid) ∧
  (∃ s : State, ∃ n : Fin 2, s.pd.on = true ∧ s.pd.valid.testBit n = true ∧ s.pgood = true) ∧
  (∃ s : State, ∃ n : Fin 2, s.pd.on = true ∧ ∃ low, s.pd.pres.testBit n ≠ low) ∧
  (∃ s : State, s.pd.on = true ∧ s.hsReady = true ∧ s.hs = hsWait ∧ s.pd.ov = false) ∧
  (∃ s : State, s.pd.on = true ∧ s.hsReady = false ∧ s.hs ≠ hsCool ∧ s.hs ≠ hsLatched) :=
  ⟨⟨hsIn hsOn, 1, by decide +kernel, false, by decide +kernel⟩,
   ⟨(hsIn hsOn).pdPut rPD_HS_STATUS fPD_HS_STATUS_pgood 1, 0, by and_intros <;> decide +kernel⟩,
   ⟨hsIn hsOn, 0, by decide +kernel, false, by decide +kernel⟩,
   ⟨hsIn hsWait, by and_intros <;> decide +kernel⟩,
   ⟨State.reset, by and_intros <;> decide +kernel⟩⟩

theorem witness_DieLinkWrites :
  (∃ s : State, ∃ q : Req, ∃ v : Word, let sent (a : Nat) (T : State) := T = ({ s.emit (.die a v) with pdWrites := s.pdWrites ++ [⟨q, a, v, .done q⟩] } : State).hostWrote q; s.forwards q rPD_HS_CMD v) ∧
  (∃ s : State, ∃ q : Req, ∃ v : Word, let sent (a : Nat) (T : State) := T = ({ s.emit (.die a v) with pdWrites := s.pdWrites ++ [⟨q, a, v, .done q⟩] } : State).hostWrote q; s.forwards q rPD_OTP_PROG v) ∧
  (∃ s : State, ∃ q : Req, ∃ v : Word, let sent (a : Nat) (T : State) := T = ({ s.emit (.die a v) with pdWrites := s.pdWrites ++ [⟨q, a, v, .done q⟩] } : State).hostWrote q; ∃ g : Fin 4, s.forwards q (rPD_DIO_SET g) v) ∧
  (∃ s : State, ∃ q : Req, ∃ v : Word, let sent (a : Nat) (T : State) := T = ({ s.emit (.die a v) with pdWrites := s.pdWrites ++ [⟨q, a, v, .done q⟩] } : State).hostWrote q; ∃ g : Fin 4, s.forwards q (rPD_DIO_CLR g) v) ∧
  (∃ s : State, ∃ q : Req, ∃ v : Word, let sent (a : Nat) (T : State) := T = ({ s.emit (.die a v) with pdWrites := s.pdWrites ++ [⟨q, a, v, .done q⟩] } : State).hostWrote q; ∃ g : Fin 4, s.forwards q (rPD_DIO_OUT g) v) ∧
  (∃ s : State, ∃ q : Req, ∃ v : Word, let sent (a : Nat) (T : State) := T = ({ s.emit (.die a v) with pdWrites := s.pdWrites ++ [⟨q, a, v, .done q⟩] } : State).hostWrote q; ∃ w, ∃ rest, s.pdWrites = w :: rest ∧ s.flag rPD_LINK_STATUS fPD_LINK_STATUS_silent = false) ∧
  (∃ s : State, ∃ q : Req, ∃ v : Word, let sent (a : Nat) (T : State) := T = ({ s.emit (.die a v) with pdWrites := s.pdWrites ++ [⟨q, a, v, .done q⟩] } : State).hostWrote q; bitOf v 0 = true ∧ s.pd.otp.length < 4) ∧
  (∃ s : State, ∃ q : Req, ∃ v : Word, let sent (a : Nat) (T : State) := T = ({ s.emit (.die a v) with pdWrites := s.pdWrites ++ [⟨q, a, v, .done q⟩] } : State).hostWrote q; s.flag rPD_LINK_STATUS fPD_LINK_STATUS_silent = false ∧ s.pd.l6 = false ∧ let t := ((((s.put rPD_LINK_STATUS fPD_LINK_STATUS_silent 1).put rPD_LINK_STATUS fPD_LINK_STATUS_up 0).inc rPD_CNT_LINK_LOSS).irq 0xF2 2).raise 101; let u := s.pdWrites.foldl (fun (x : State) w => x.complete w.cont 5 0 []) { t with pdWrites := [] }; u.rst.active = false) ∧
  (∃ s : State, ∃ q : Req, ∃ v : Word, let sent (a : Nat) (T : State) := T = ({ s.emit (.die a v) with pdWrites := s.pdWrites ++ [⟨q, a, v, .done q⟩] } : State).hostWrote q; s.pd.on = true ∧ s.pgood = true ∧ s.pd.l6 = false ∧ s.pdUp = false) ∧
  (∃ s : State, ∃ q : Req, ∃ v : Word, let sent (a : Nat) (T : State) := T = ({ s.emit (.die a v) with pdWrites := s.pdWrites ++ [⟨q, a, v, .done q⟩] } : State).hostWrote q; s.pdUp = true ∧ s.pd.on = true ∧ ((∀ a, pdMirrored a = true → s.reg a = s.pdReg a))) ∧
  (∃ s : State, ∃ q : Req, ∃ v : Word, let sent (a : Nat) (T : State) := T = ({ s.emit (.die a v) with pdWrites := s.pdWrites ++ [⟨q, a, v, .done q⟩] } : State).hostWrote q; s.pd.on = true ∧ s.pdUp = true) :=
  ⟨⟨State.reset, anise, 1, (by decide +kernel)⟩,
   ⟨onX (rPD_OTP_PROG / 0x1000) State.reset, anise, 1, (by decide +kernel)⟩,
   ⟨State.reset, anise, 1, 3, by decide +kernel⟩,
   ⟨State.reset, anise, 1, 3, by decide +kernel⟩,
   ⟨State.reset, anise, 1, 3, by decide +kernel⟩,
   ⟨{ linked with pdWrites := [⟨anise, rPD_HS_CMD, 1, .done anise⟩] }, anise, 1, ⟨anise, rPD_HS_CMD, 1, .done anise⟩, [], by and_intros <;> decide +kernel⟩,
   ⟨State.reset, anise, 1, by and_intros <;> decide +kernel⟩,
   ⟨{ linked with rst := {} }, anise, 1, by and_intros <;> decide +kernel⟩,
   ⟨(hsIn hsOn).pdPut rPD_HS_STATUS fPD_HS_STATUS_pgood 1, anise, 1, by and_intros <;> decide +kernel⟩,
   ⟨linked, anise, 1, (by decide +kernel), by decide +kernel, linked_mirrors⟩,
   ⟨linked, anise, 1, by and_intros <;> decide +kernel⟩⟩

theorem witness_SuppliesAndLines :
  (∃ s : State, s.pd.on = true ∧ ∃ n : Fin 6, s.supervised n = true) ∧
  (∃ s : State, s.pd.on = true ∧ ∃ n : Fin 6, ∃ mv, bitOf (s.pdReg rPD_SUP_STATUS) n = true ∧ bitOf (s.pdReg rPD_SUP_STATUS) (n + 8) = false ∧ mv < 65536) ∧
  (∃ s : State, s.pd.on = true ∧ ∃ n : Fin 2, s.supervised n = true) ∧
  (∃ s : State, s.pd.on = true ∧ ∃ c : Fin 4, s.supervised (2 + c) = true) ∧
  (∃ s : State, s.pd.on = true ∧ ∃ n : Fin 16, ∃ level, bitOf (s.pdReg (rPD_DIO_IN (n / 4))) (n % 4) ≠ level) ∧
  (∃ s : State, s.pd.on = true ∧ ∃ n : Fin 16, ∃ level, bitOf (s.pdReg (rPD_DIO_IN (n / 4))) (n % 4) = level) ∧
  (∃ s : State, s.pd.on = true ∧ ∃ n : Fin 16, s.outOn (n / 4) (n % 4) = true ∧ let t : State := { s with pd := { s.pd with latched := s.pd.latched ||| 2 ^ n.val } }; s.pdFlag (rPD_DO_CFG (n / 4) (n % 4)) fPD_DO_CFG_open_det = true) ∧
  (∃ s : State, s.pd.on = true ∧ ∃ u : Fin 16, s.servo.trigs.contains (u.val, false) = false) ∧
  (∃ s : State, s.pd.on = true ∧ ∃ u : Fin 16, s.servo.trigs.contains (u.val, false) = true) ∧
  (∃ s : State, s.pd.on = true ∧ ∃ u : Fin 16, ∃ g, ∃ i : Nat, s.pdGet (rPD_DO_TIMED g i) fPD_DO_TIMED_arm = 1 ∧ s.pdGet (rPD_DO_TIMED g i) fPD_DO_TIMED_unit = u.val ∧ s.pd.latched.testBit (4 * g + i) = false) :=
  ⟨⟨State.reset, by decide +kernel, 0, (by decide +kernel)⟩,
   ⟨State.reset.pdSet rPD_SUP_STATUS 1, by decide +kernel, 0, 65535, by and_intros <;> decide +kernel⟩,
   ⟨State.reset, by decide +kernel, 1, (by decide +kernel)⟩,
   ⟨State.reset.put (rPMUX_BANK 3) fPMUX_BANK_level 1, by decide +kernel, 3, (by decide +kernel)⟩,
   ⟨State.reset.pdSet (rPD_DI_CFG 0 0) 0, by decide +kernel, 0, true, by decide +kernel⟩,
   ⟨State.reset, by decide +kernel, 0, false, by decide +kernel⟩,
   ⟨(((hsIn hsOn).pdPut rPD_HS_STATUS fPD_HS_STATUS_pgood 1).pdSet (rPD_DIO_OUT 0) 1).pdPut (rPD_DO_CFG 0 0) fPD_DO_CFG_open_det 1, by decide +kernel, 0, by and_intros <;> decide +kernel⟩,
   ⟨State.reset, by decide +kernel, 0, (by decide +kernel)⟩,
   ⟨{ State.reset with servo := { State.reset.servo with trigs := [(15, false)] } }, by decide +kernel, 15, (by decide +kernel)⟩,
   ⟨((State.reset.pdPut (rPD_DO_TIMED 3 3) fPD_DO_TIMED_arm 1).pdPut (rPD_DO_TIMED 3 3) fPD_DO_TIMED_unit 15), by decide +kernel, 15, 3, 3, by and_intros <;> decide +kernel⟩⟩

theorem witness_ResetsAndWatchdog :
  (∃ s : State, ∃ q : Req, ∃ v : Word, s.accepts q rRST_CMD v ∧ bitOf v 0 = true ∧ natBits v.toNat 15 8 = 0xC3) ∧
  (∃ s : State, ∃ q : Req, ∃ v : Word, s.accepts q rRST_CMD v ∧ (bitOf v 0 = false ∨ natBits v.toNat 15 8 ≠ 0xC3)) ∧
  (∃ s : State, ∃ code, code ∈ [0x10, 0x11, 0x12, 0x13, 0x14] ∧ s.rst.active = false ∧ s.pwr.level = 0 ∧ let t := s.resetCause code; ∃ a : Nat, a < 0x300000) ∧
  (∃ s : State, ∃ code, code ∈ [0x10, 0x11, 0x12, 0x13, 0x14] ∧ s.rst.active = false ∧ s.pwr.level = 0 ∧ let t := s.resetCause code; ∃ a : Nat, 0x300000 ≤ a ∧ a < 0x30C000) ∧
  (∃ s : State, ∃ code, code ∈ [0x10, 0x11, 0x12, 0x13, 0x14] ∧ s.rst.active = false ∧ s.pwr.level = 0 ∧ let t := s.resetCause code; ∃ a : Nat, 0x310000 ≤ a ∧ a < 0x310100) ∧
  (∃ s : State, ∃ code, code ∈ [0x10, 0x11, 0x12, 0x13, 0x14] ∧ s.pwr.level = 6) ∧
  (∃ s : State, ∃ code, code ∈ [0x10, 0x11, 0x12, 0x13, 0x14] ∧ s.rst.active = true ∧ s.rst.causes.contains code = false ∧ s.pwr.level ≠ 6) ∧
  (∃ s : State, ∃ q : Req, ∃ v : Word, let w := v ||| 0x80000000; s.accepts q rRST_WDT_CFG w ∧ s.flag rRST_WDT_CFG fRST_WDT_CFG_enable = false ∧ s.pwr.level = 0) ∧
  (∃ s : State, ∃ q : Req, ∃ v : Word, s.accepts q rRST_WDT_KICK v ∧ let may := q.master = 0 ∨ (q.master = 1 ∨ q.master = 2) ∧ s.flag rRST_WDT_CFG fRST_WDT_CFG_host_kick = true; v = 0xA55A ∧ may ∧ s.rst.stage ≠ 0) ∧
  (∃ s : State, ∃ q : Req, ∃ v : Word, s.accepts q rRST_WDT_KICK v ∧ let may := q.master = 0 ∨ (q.master = 1 ∨ q.master = 2) ∧ s.flag rRST_WDT_CFG fRST_WDT_CFG_host_kick = true; (v ≠ 0xA55A ∨ ¬ may ∨ s.rst.stage = 0)) ∧
  (∃ s : State, s.enabled 0x01 = true ∧ s.rst.stage = 1) ∧
  (∃ s : State, s.enabled 0x01 = true ∧ s.rst.stage = 2) ∧
  (∃ s : State, s.rst.stage = 0) :=
  ⟨⟨on 1 State.reset, anise, 0xC301, by and_intros <;> decide +kernel⟩,
   ⟨on 1 State.reset, anise, 0xC201, by and_intros <;> decide +kernel⟩,
   ⟨{ State.reset with rst := {} }, 0x10, by decide +kernel, (by decide +kernel), by decide +kernel, 0x2FFFFF, by decide +kernel⟩,
   ⟨{ State.reset with rst := {} }, 0x14, by decide +kernel, (by decide +kernel), by decide +kernel, 0x30BFFF, by and_intros <;> decide +kernel⟩,
   ⟨{ State.reset with rst := {} }, 0x12, by decide +kernel, (by decide +kernel), by decide +kernel, 0x3100FF, by and_intros <;> decide +kernel⟩,
   ⟨({ State.reset with pwr := { State.reset.pwr with level := 6 } } : State), 0x11, by and_intros <;> decide +kernel⟩,
   ⟨{ State.reset with rst := { active := true } }, 0x13, by and_intros <;> decide +kernel⟩,
   ⟨on 1 State.reset, anise, 0, by and_intros <;> decide +kernel⟩,
   ⟨{ on 1 State.reset with rst := { stage := 1 } }, anise, 0xA55A, by and_intros <;> decide +kernel⟩,
   ⟨{ on 1 (channel 1 State.reset) with rst := { stage := 1 } }, ⟨0x10, 0, 0⟩, 0xA55A, by and_intros <;> decide +kernel⟩,
   ⟨{ on 1 State.reset with rst := { stage := 1 } }, by and_intros <;> decide +kernel⟩,
   ⟨{ on 1 State.reset with rst := { stage := 2 } }, by and_intros <;> decide +kernel⟩,
   ⟨State.reset, by decide +kernel⟩⟩

theorem witness_PowerLevelsAct :
  (∃ s : State, ∃ q : Req, ∃ v : Word, s.accepts q rPWR_CMD v ∧ bitOf v 31 = true ∧ s.flag rPWR_STATUS fPWR_STATUS_busy = false ∧ s.flag rFWU_STATUS fFWU_STATUS_handover_active = false ∧ let n := v.toNat % 8; let code := s.pwrRefusal n; let t := s.put rPWR_STATUS fPWR_STATUS_refusal code; s.pwrWaits n = false ∧ code = 0) ∧
  (∃ s : State, ∃ q : Req, ∃ v : Word, s.accepts q rPWR_CMD v ∧ bitOf v 31 = true ∧ s.flag rPWR_STATUS fPWR_STATUS_busy = false ∧ s.flag rFWU_STATUS fFWU_STATUS_handover_active = false ∧ let n := v.toNat % 8; let code := s.pwrRefusal n; let t := s.put rPWR_STATUS fPWR_STATUS_refusal code; (s.pwrWaits n = false ∨ 1 ≤ code ∧ code ≤ 4) ∧ code ≠ 0) ∧
  (∃ s : State, ∃ q : Req, ∃ v : Word, s.accepts q rPWR_CMD v ∧ bitOf v 31 = true ∧ s.flag rPWR_STATUS fPWR_STATUS_busy = false ∧ s.flag rFWU_STATUS fFWU_STATUS_handover_active = false ∧ let n := v.toNat % 8; let code := s.pwrRefusal n; let t := s.put rPWR_STATUS fPWR_STATUS_refusal code; s.pwrWaits n = true ∧ (code = 0 ∨ 4 < code)) ∧
  (∃ s : State, ∃ n : Nat, ∃ since, s.pwr.waitFor = some (n, since) ∧ s.pd.ticks - since ≤ 500000000 ∧ s.staged ≠ 0) ∧
  (∃ s : State, ∃ n : Nat, ∃ since, s.pwr.waitFor = some (n, since) ∧ s.pd.ticks - since ≤ 500000000 ∧ s.staged = 0) ∧
  (∃ s : State, ∃ n : Nat, ∃ since, s.pwr.waitFor = some (n, since) ∧ 500000000 < s.pd.ticks - since) ∧
  (∃ n : Nat, 2 ≤ n ∧ n ≤ 6) ∧
  (∃ n : Nat, (n < 2 ∨ 6 < n)) ∧
  (∃ s : State, s.flag rPWR_CFG fPWR_CFG_hush_en = true ∧ s.pwr.level = 0 ∧ s.quiet = true ∧ s.enabled 0x02 = true) ∧
  (∃ s : State, s.quiet = false) ∧
  (∃ s : State, s.pwr.level = 1) ∧
  (∃ s : State, (s.pwr.level = 2 ∨ s.pwr.level = 3) ∧ s.pwr.waking = false ∧ (s.reg rPWR_WAKE_EN).toNat.testBit 5 = true ∧ bitOf (s.reg rPWR_WAKE_TIMER) 31 = true) ∧
  (∃ s : State, s.pwr.level = 0 ∧ s.pwr.waking = false) ∧
  (∃ s : State, s.pwr.level = 6 ∧ s.pwr.waking = true) :=
  ⟨⟨(on 2 State.reset).put rFWU_STATUS fFWU_STATUS_handover_active 0, anise, 0x80000002, by and_intros <;> decide +kernel⟩,
   ⟨(on 2 State.reset).put rFWU_STATUS fFWU_STATUS_handover_active 0, anise, 0x80000007, by and_intros <;> decide +kernel⟩,
   ⟨(((on 2 State.reset).put rFWU_STATUS fFWU_STATUS_handover_active 0).put rLEDG_STATUS fLEDG_STATUS_staged 1).put rLEDG_STATUS fLEDG_STATUS_anchored 1 |>.put rPWR_EXP fPWR_EXP_force 1, anise, 0x80000005, by and_intros <;> decide +kernel⟩,
   ⟨({ State.reset.put rLEDG_STATUS fLEDG_STATUS_staged 1 with pwr := { State.reset.pwr with waitFor := some (5, 0) } } : State), 5, 0, by and_intros <;> decide +kernel⟩,
   ⟨({ State.reset.put rLEDG_STATUS fLEDG_STATUS_staged 0 with pwr := { State.reset.pwr with waitFor := some (5, 0) } } : State), 5, 0, by and_intros <;> decide +kernel⟩,
   ⟨({ State.reset with pwr := { State.reset.pwr with waitFor := some (5, 0) }, pd := { State.reset.pd with ticks := 500000001 } } : State), 5, 0, by and_intros <;> decide +kernel⟩,
   ⟨6, by and_intros <;> decide +kernel⟩,
   ⟨7, Or.inr (by decide)⟩,
   ⟨(on 2 State.reset).put rPWR_CFG fPWR_CFG_hush_en 1, by and_intros <;> decide +kernel⟩,
   ⟨(channel 2 State.reset), by decide +kernel⟩,
   ⟨({ State.reset with pwr := { State.reset.pwr with level := 1 } } : State), by decide +kernel⟩,
   ⟨({ regs [(rPWR_WAKE_EN, 0x20), (rPWR_WAKE_TIMER, 0x80000000)] with pwr := { State.reset.pwr with level := 2 } } : State), by and_intros <;> decide +kernel⟩,
   ⟨State.reset, by and_intros <;> decide +kernel⟩,
   ⟨({ State.reset with pwr := { State.reset.pwr with level := 6, waking := true } } : State), by and_intros <;> decide +kernel⟩⟩

theorem witness_ClocksAndTemperature :
  (∃ s : State, s.pwr.level < 3 ∧ s.enabled 0x03 = true) ∧
  (∃ s : State, s.enabled 0x03 = true) ∧
  (∃ s : State, ∃ p, s.crystal = true ∧ (sxInt 16 p).natAbs ≤ 2000) ∧
  (∃ s : State, ∃ q : Req, ∃ v : Word, s.accepts q rCHIP_CMD (v ||| 1)) ∧
  (∃ s : State, ∃ t, t < 32768 ∧ s.enabled 0x00 = true ∧ sxInt 16 (s.get rCHIP_TEMP fCHIP_TEMP_temp) ≤ 1150 ∧ 1150 < t ∧ t ≤ 1300) ∧
  (∃ s : State, ∃ t, t < 32768 ∧ s.enabled 0x00 = true ∧ 1150 < sxInt 16 (s.get rCHIP_TEMP fCHIP_TEMP_temp) ∧ sxInt 16 (s.get rCHIP_TEMP fCHIP_TEMP_temp) ≤ 1300 ∧ 1300 < t) ∧
  (∃ t, t ≤ 1150) :=
  ⟨⟨on 3 State.reset, by and_intros <;> decide +kernel⟩,
   ⟨on 3 State.reset, by decide +kernel⟩,
   ⟨State.reset.put rCLK_AON fCLK_AON_xtal32_en 1, 2000, by and_intros <;> decide +kernel⟩,
   ⟨on 0 State.reset, anise, 0, (by decide +kernel)⟩,
   ⟨on 0 State.reset, 1300, by and_intros <;> decide +kernel⟩,
   ⟨(on 0 State.reset).put rCHIP_TEMP fCHIP_TEMP_temp 1200, 1400, by and_intros <;> decide +kernel⟩,
   ⟨1150, by decide +kernel⟩⟩

theorem witness_FirmwareUpdateActs :
  (∃ s : State, ∃ q : Req, ∃ v : Word, v &&& 0x1FF = 0 ∧ s.accepts q rFWU_CMD (v ||| 0x001)) ∧
  (∃ s : State, ∃ v : Word, v &&& 0x1FF = 0 ∧ s.flag rFWU_STATUS fFWU_STATUS_confirm_pending = true ∧ s.boot.slot = s.inactiveSlot) ∧
  (∃ s : State, ∃ v : Word, v &&& 0x1FF = 0 ∧ (s.flag rFWU_STATUS fFWU_STATUS_confirm_pending = false ∨ s.boot.slot ≠ s.inactiveSlot) ∧ s.toLoad = true ∧ let t := s.fwuOpen; ∃ a : Nat, loadBase ≤ a ∧ a < loadBase + 0x100000) ∧
  (∃ s : State, ∃ v : Word, v &&& 0x1FF = 0 ∧ s.flag rFWU_STATUS fFWU_STATUS_erasing = true) ∧
  (∃ s : State, ∃ q : Req, ∃ v : Word, v &&& 0x1FF = 0 ∧ ∃ bad, s.accepts q rFWU_CMD (v ||| 0x002) ∧ let a := (s.reg rFWU_BLK_ADDR).toNat; let h := s.bytes a 24; (s.memRange a 24 = some .general ∨ s.memRange a 24 = some .cs1) ∧ hdrNat h 12 4 ≤ 65536 ∧ let data := s.bytes (a + 24) (hdrNat h 12 4); s.blockCode h data bad ≠ 0) ∧
  (∃ s : State, ∃ q : Req, ∃ v : Word, v &&& 0x1FF = 0 ∧ ∃ bad, s.accepts q rFWU_CMD (v ||| 0x002) ∧ let a := (s.reg rFWU_BLK_ADDR).toNat; let h := s.bytes a 24; (s.memRange a 24 = some .general ∨ s.memRange a 24 = some .cs1) ∧ hdrNat h 12 4 ≤ 65536 ∧ let data := s.bytes (a + 24) (hdrNat h 12 4); s.blockCode h data bad = 0) ∧
  (∃ s : State, ∃ q : Req, ∃ v : Word, v &&& 0x1FF = 0 ∧ s.accepts q rFWU_CMD (v ||| 0x002) ∧ s.memRange (s.reg rFWU_BLK_ADDR).toNat 24 = none) ∧
  (∃ s : State, ∃ q : Req, ∃ v : Word, v &&& 0x1FF = 0 ∧ s.accepts q rFWU_CMD (v ||| 0x004) ∧ s.flag rFWU_STATUS fFWU_STATUS_erasing = true) ∧
  (∃ s : State, ∃ q : Req, ∃ v : Word, v &&& 0x1FF = 0 ∧ ∃ bad, s.accepts q rFWU_CMD (v ||| 0x004) ∧ s.flag rFWU_STATUS fFWU_STATUS_erasing = false ∧ let c := s.verifyAt (slotBase s.inactiveSlot) bad; c ≠ 0) ∧
  (∃ s : State, ∃ q : Req, ∃ v : Word, v &&& 0x1FF = 0 ∧ s.accepts q rFWU_CMD (v ||| 0x008) ∧ s.flag rFWU_STATUS fFWU_STATUS_commit_ok = true ∧ s.levelOf q = .warden) ∧
  (∃ s : State, ∃ q : Req, ∃ v : Word, v &&& 0x1FF = 0 ∧ s.accepts q rFWU_CMD (v ||| 0x008) ∧ (s.flag rFWU_STATUS fFWU_STATUS_commit_ok = false ∨ s.levelOf q ≠ .warden)) ∧
  (∃ s : State, ∃ q : Req, ∃ v : Word, v &&& 0x1FF = 0 ∧ s.accepts q rFWU_CMD (v ||| 0x040) ∧ s.flag rFWU_STATUS fFWU_STATUS_cumin = true ∧ s.verifyAt loadBase false ≠ 0) ∧
  (∃ s : State, ∃ q : Req, ∃ v : Word, v &&& 0x1FF = 0 ∧ s.accepts q rFWU_CMD (v ||| 0x080) ∧ s.nodeId 0 = none) ∧
  (∃ s : State, ∃ q : Req, ∃ v : Word, v &&& 0x1FF = 0 ∧ ∃ me, s.accepts q rFWU_CMD (v ||| 0x080) ∧ s.nodeId 0 = some me ∧ let dst := s.get rFWU_SEND_NODE fFWU_SEND_NODE_node; dst % 256 = 255) ∧
  (∃ s : State, ∃ q : Req, ∃ v : Word, v &&& 0x1FF = 0 ∧ ∃ me, s.accepts q rFWU_CMD (v ||| 0x080) ∧ s.nodeId 0 = some me ∧ let dst := s.get rFWU_SEND_NODE fFWU_SEND_NODE_node; dst % 256 ≠ 255) ∧
  (∃ s : State, ∃ q : Req, ∃ v : Word, v &&& 0x1FF = 0 ∧ s.accepts q rFWU_CMD (v ||| 0x100)) ∧
  (∃ s : State, ∃ v : Word, v &&& 0x1FF = 0 ∧ ∃ d, s.enabled 0xC0 = true ∧ (s.outbox 14).find? (fun d => d.frame.kind = 0xC) = some d ∧ d.discard = false ∧ let t := s.setOutbox 14 ((s.outbox 14).erase d); s.flag rFWU_CFG fFWU_CFG_ring_en = false) ∧
  (∃ s : State, ∃ v : Word, v &&& 0x1FF = 0 ∧ ∃ d, s.enabled 0xC0 = true ∧ (s.outbox 14).find? (fun d => d.frame.kind = 0xC) = some d ∧ d.discard = false ∧ let t := s.setOutbox 14 ((s.outbox 14).erase d); s.flag rFWU_CFG fFWU_CFG_ring_en = true ∧ d.level ≠ 0 ∧ 16 ≤ d.frame.payload.length) ∧
  (∃ s : State, ∃ q : Req, ∃ v : Word, v &&& 0x1FF = 0 ∧ ∃ v : Word, s.accepts q rFWU_MEAS_EXT v ∧ v.toNat % 4 < 2) ∧
  (∃ s : State, ∃ q : Req, ∃ v : Word, v &&& 0x1FF = 0 ∧ ∃ v : Word, s.accepts q rFWU_MEAS_EXT v ∧ 2 ≤ v.toNat % 4) ∧
  (∃ s : State, ∃ v : Word, v &&& 0x1FF = 0 ∧ s.enabled 0xC1 = true) ∧
  (∃ s : State, ∃ v : Word, v &&& 0x1FF = 0 ∧ s.pwr.resume = 0 ∧ s.rst.active = false) ∧
  (∃ s : State, ∃ v : Word, v &&& 0x1FF = 0 ∧ s.pwr.resume ≠ 0) ∧
  (∃ s : State, ∃ v : Word, v &&& 0x1FF = 0 ∧ s.pwr.resume = 0 ∧ s.rst.active = true ∧ let t := ({ s with rst := { s.rst with active := false, causes := [] } } : State).setReg rXSPI_CS0_CFG (toW (b2n Config.otpXspiBoot * 2 ^ 8 + 26)); t.flag rCHIP_STRAPS fCHIP_STRAPS_recover_n = true ∧ t.bootSel = 0) :=
  ⟨⟨on 0xC0 State.reset, anise, 0, by and_intros <;> decide +kernel⟩,
   ⟨State.reset.put rFWU_STATUS fFWU_STATUS_confirm_pending 1 |> fun s => { s with boot := { s.boot with slot := 1 } }, 0, by and_intros <;> decide +kernel⟩,
   ⟨State.reset.put rFWU_CFG fFWU_CFG_target 1, 0, by decide +kernel, (by decide +kernel), by decide +kernel, 0x2BFFFF, by and_intros <;> decide +kernel⟩,
   ⟨State.reset.put rFWU_STATUS fFWU_STATUS_erasing 1, 0, by and_intros <;> decide +kernel⟩,
   ⟨(block.setByte 0x20000C 0).setByte 0x200000 0, anise, 0, (by decide +kernel), false, by and_intros <;> decide +kernel⟩,
   ⟨block, anise, 0, (by decide +kernel), false, by and_intros <;> decide +kernel⟩,
   ⟨on 0xC0 (regs [(rFWU_BLK_ADDR, 0x0FFFFFF0)]), anise, 0, by and_intros <;> decide +kernel⟩,
   ⟨(on 0xC0 State.reset).put rFWU_STATUS fFWU_STATUS_erasing 1, anise, 0, by and_intros <;> decide +kernel⟩,
   ⟨on 0xC0 State.reset, anise, 0, (by decide +kernel), true, by and_intros <;> decide +kernel⟩,
   ⟨(on 0xC0 State.reset).put rFWU_STATUS fFWU_STATUS_commit_ok 1, anise, 0, by and_intros <;> decide +kernel⟩,
   ⟨on 0xC0 State.reset, anise, 0, by and_intros <;> decide +kernel⟩,
   ⟨(on 0xC0 State.reset).put rFWU_STATUS fFWU_STATUS_cumin 1, anise, 0, by and_intros <;> decide +kernel⟩,
   ⟨on 0xC0 State.reset, anise, 0, by and_intros <;> decide +kernel⟩,
   ⟨(on 0xC0 timeMaster).put rFWU_SEND_NODE fFWU_SEND_NODE_node 255, anise, 0, (by decide +kernel), 0x3FF00, by and_intros <;> decide +kernel⟩,
   ⟨on 0xC0 (timeMaster), anise, 0, (by decide +kernel), 0x3FF00, by and_intros <;> decide +kernel⟩,
   ⟨on 0xC0 State.reset, anise, 0, by and_intros <;> decide +kernel⟩,
   ⟨(on 0xC0 State.reset).setOutbox 14 [delivered (resp 0xC 0xF4C0 [])], 0, by decide +kernel, delivered (resp 0xC 0xF4C0 []), by and_intros <;> decide +kernel⟩,
   ⟨((on 0xC0 State.reset).put rFWU_CFG fFWU_CFG_ring_en 1).setOutbox 14 [delivered (resp 0xC 0xF4C0 [])], 0, by decide +kernel, delivered (resp 0xC 0xF4C0 []), by and_intros <;> decide +kernel⟩,
   ⟨on 0xC1 State.reset, anise, 0, (by decide +kernel), 1, by and_intros <;> decide +kernel⟩,
   ⟨on 0xC1 State.reset, anise, 0, (by decide +kernel), 2, by and_intros <;> decide +kernel⟩,
   ⟨on 0xC1 State.reset, 0, by and_intros <;> decide +kernel⟩,
   ⟨{ State.reset with rst := {} }, 0, by and_intros <;> decide +kernel⟩,
   ⟨({ State.reset with pwr := { State.reset.pwr with resume := 1 } } : State), 0, by and_intros <;> decide +kernel⟩,
   ⟨State.reset.setReg rCHIP_STRAPS 0x100, 0, by decide +kernel, (by decide +kernel), by decide +kernel, (straps_kept _ _ (by decide +kernel)).1, (straps_kept _ _ (by decide +kernel)).2⟩⟩

theorem witness_HandoverAndConfirm :
  (∃ s : State, ∃ q : Req, ∃ v : Word, v &&& 0x1FF = 0 ∧ s.accepts q rFWU_CMD (v ||| 0x010) ∧ s.levelOf q = .warden ∧ s.handoverRefused = false) ∧
  (∃ s : State, ∃ q : Req, ∃ v : Word, v &&& 0x1FF = 0 ∧ s.accepts q rFWU_CMD (v ||| 0x010) ∧ (s.levelOf q ≠ .warden ∨ s.handoverRefused = true)) ∧
  (∃ s : State, ∃ v : Word, v &&& 0x1FF = 0 ∧ s.boot.ho = 1) ∧
  (∃ s : State, ∃ q : Req, ∃ v : Word, v &&& 0x1FF = 0 ∧ ∃ w : Word, s.boot.ho = 1 ∧ s.accepts q rANI_HANDOVER (w ||| 1)) ∧
  (∃ s : State, ∃ v : Word, v &&& 0x1FF = 0 ∧ s.boot.ho = 2 ∧ ∃ bad : Nat, let h := s.bytes (slotBase s.boot.hoSlot) 512; bad.testBit s.boot.hoSlot = false ∧ sha256 (s.bytes (slotBase s.boot.hoSlot + 512) (hdrLength h)) = slice h 32 32) ∧
  (∃ s : State, ∃ q : Req, ∃ v : Word, v &&& 0x1FF = 0 ∧ ∃ w : Word, s.boot.ho = 3 ∧ s.accepts q rANI_HANDOVER (w ||| 2)) ∧
  (∃ s : State, ∃ q : Req, ∃ v : Word, v &&& 0x1FF = 0 ∧ s.accepts q rFWU_CMD (v ||| 0x020) ∧ s.flag rFWU_STATUS fFWU_STATUS_confirm_pending = false) ∧
  (∃ s : State, ∃ q : Req, ∃ v : Word, v &&& 0x1FF = 0 ∧ s.accepts q rFWU_CMD (v ||| 0x020) ∧ s.flag rFWU_STATUS fFWU_STATUS_confirm_pending = true) ∧
  (∃ s : State, ∃ v : Word, v &&& 0x1FF = 0 ∧ s.flag rFWU_STATUS fFWU_STATUS_confirm_pending = false) ∧
  (∃ s : State, ∃ v : Word, v &&& 0x1FF = 0 ∧ s.enabled 0xC0 = true ∧ s.flag rFWU_STATUS fFWU_STATUS_confirm_pending = true ∧ let t := ((s.raise 121).irq 0xC0 5).fwEntry 4 s.boot.slot (hdrVersion s.boot.hdr); t.flag rANI_BOOT_INFO fANI_BOOT_INFO_handover = false) ∧
  (∃ s : State, ∃ v : Word, v &&& 0x1FF = 0 ∧ s.enabled 0xC0 = true ∧ s.flag rFWU_STATUS fFWU_STATUS_confirm_pending = true ∧ let t := ((s.raise 121).irq 0xC0 5).fwEntry 4 s.boot.slot (hdrVersion s.boot.hdr); t.flag rANI_BOOT_INFO fANI_BOOT_INFO_handover = true) :=
  ⟨⟨ready (State.reset.put rFWU_STATUS fFWU_STATUS_cumin 0), anise, 0, by and_intros <;> decide +kernel⟩,
   ⟨on 0xC0 State.reset, anise, 0, by and_intros <;> decide +kernel⟩,
   ⟨{ on 0xC2 State.reset with boot := { ho := 1 } }, 0, by and_intros <;> decide +kernel⟩,
   ⟨{ on 0xC2 State.reset with boot := { ho := 1 } }, anise, 0, (by decide +kernel), 0, by and_intros <;> decide +kernel⟩,
   ⟨{ emptyImage with boot := { ho := 2 } }, 0, by decide +kernel, (by decide +kernel), 0, by and_intros <;> decide +kernel⟩,
   ⟨{ on 0xC2 State.reset with boot := { ho := 3 } }, anise, 0, (by decide +kernel), 0, by and_intros <;> decide +kernel⟩,
   ⟨on 0xC0 State.reset, anise, 0, by and_intros <;> decide +kernel⟩,
   ⟨(on 0xC0 State.reset).put rFWU_STATUS fFWU_STATUS_confirm_pending 1, anise, 0, by and_intros <;> decide +kernel⟩,
   ⟨State.reset, 0, by and_intros <;> decide +kernel⟩,
   ⟨((on 0xC0 State.reset).put rFWU_STATUS fFWU_STATUS_confirm_pending 1), 0, by and_intros <;> decide +kernel⟩,
   ⟨((on 0xC0 State.reset).put rFWU_STATUS fFWU_STATUS_confirm_pending 1).put rANI_BOOT_INFO fANI_BOOT_INFO_handover 1, 0, by and_intros <;> decide +kernel⟩⟩

theorem witness_MailboxesAct :
  (∃ s : State, ∃ q : Req, ∃ h : Fin 2, ∃ v : Word, s.accepts q (rANI_MB_DOORBELL h) v ∧ let a := rANI_MB_STATUS h; (s.flag a fANI_MB_STATUS_busy = true ∨ s.flag a fANI_MB_STATUS_done = true)) ∧
  (∃ s : State, ∃ q : Req, ∃ h : Fin 2, ∃ v : Word, s.accepts q (rANI_MB_DOORBELL h) v ∧ let a := rANI_MB_STATUS h; s.flag a fANI_MB_STATUS_busy = false ∧ s.flag a fANI_MB_STATUS_done = false ∧ (if h = 0 then s.boot.ansA else s.boot.ansB) = false) ∧
  (∃ s : State, ∃ q : Req, ∃ h : Fin 2, ∃ v : Word, s.accepts q (rANI_MB_DOORBELL h) v ∧ let a := rANI_MB_STATUS h; s.flag a fANI_MB_STATUS_busy = false ∧ s.flag a fANI_MB_STATUS_done = false ∧ (if h = 0 then s.boot.ansA else s.boot.ansB) = true ∧ s.get a fANI_MB_STATUS_seq = v.toNat % 65536 ∧ s.flag rFWU_STATUS fFWU_STATUS_handover_active = false) ∧
  (∃ s : State, ∃ h : Fin 2, s.flag (rANI_MB_STATUS h) fANI_MB_STATUS_busy = true ∧ s.flag rFWU_STATUS fFWU_STATUS_handover_active = false ∧ s.flag rFWU_STATUS fFWU_STATUS_cumin = false ∧ s.mbCode h = 0x01 ∧ s.mbLength h = 0) ∧
  (∃ s : State, ∃ h : Fin 2, s.flag (rANI_MB_STATUS h) fANI_MB_STATUS_busy = true ∧ s.flag rFWU_STATUS fFWU_STATUS_handover_active = false ∧ s.flag rFWU_STATUS fFWU_STATUS_cumin = false ∧ s.mbCode h = 0x02 ∧ s.mbLength h = 0) ∧
  (∃ s : State, ∃ h : Fin 2, s.flag (rANI_MB_STATUS h) fANI_MB_STATUS_busy = true ∧ s.flag rFWU_STATUS fFWU_STATUS_handover_active = false ∧ s.flag rFWU_STATUS fFWU_STATUS_cumin = false ∧ s.mbCode h = 0x10 ∧ s.mbLength h = 4) ∧
  (∃ s : State, ∃ h : Fin 2, s.flag (rANI_MB_STATUS h) fANI_MB_STATUS_busy = true ∧ s.flag rFWU_STATUS fFWU_STATUS_handover_active = false ∧ s.flag rFWU_STATUS fFWU_STATUS_cumin = false ∧ s.mbCode h = 0x11 ∧ s.mbLength h = 0) ∧
  (∃ s : State, ∃ h : Fin 2, s.flag (rANI_MB_STATUS h) fANI_MB_STATUS_busy = true ∧ s.flag rFWU_STATUS fFWU_STATUS_handover_active = false ∧ s.flag rFWU_STATUS fFWU_STATUS_cumin = false ∧ s.mbCode h = 0x20 ∧ s.mbLength h = 0) ∧
  (∃ s : State, ∃ h : Fin 2, s.flag (rANI_MB_STATUS h) fANI_MB_STATUS_busy = true ∧ s.flag rFWU_STATUS fFWU_STATUS_handover_active = false ∧ s.flag rFWU_STATUS fFWU_STATUS_cumin = false ∧ s.mbCode h = 0x30 ∧ s.mbLength h = 0) ∧
  (∃ s : State, ∃ h : Fin 2, s.flag (rANI_MB_STATUS h) fANI_MB_STATUS_busy = true ∧ s.flag rFWU_STATUS fFWU_STATUS_handover_active = false ∧ s.flag rFWU_STATUS fFWU_STATUS_cumin = false ∧ s.mbCode h = 0x40 ∧ s.mbLength h = 1 ∧ s.levelOf (mbHost h) = .warden) ∧
  (∃ s : State, ∃ h : Fin 2, s.flag (rANI_MB_STATUS h) fANI_MB_STATUS_busy = true ∧ s.flag rFWU_STATUS fFWU_STATUS_handover_active = false ∧ s.flag rFWU_STATUS fFWU_STATUS_cumin = false ∧ s.mbCode h = 0x50 ∧ s.mbLength h = 0 ∧ s.levelOf (mbHost h) = .warden ∧ s.handoverRefused = false) ∧
  (∃ s : State, ∃ h : Fin 2, s.flag (rANI_MB_STATUS h) fANI_MB_STATUS_busy = true ∧ s.flag rFWU_STATUS fFWU_STATUS_handover_active = false ∧ s.flag rFWU_STATUS fFWU_STATUS_cumin = false ∧ s.mbCode h = 0x50 ∧ s.mbLength h = 0 ∧ s.levelOf (mbHost h) ≠ .warden) ∧
  (∃ s : State, ∃ h : Fin 2, s.flag (rANI_MB_STATUS h) fANI_MB_STATUS_busy = true ∧ s.flag rFWU_STATUS fFWU_STATUS_handover_active = false ∧ s.flag rFWU_STATUS fFWU_STATUS_cumin = false ∧ [0x01, 0x02, 0x10, 0x11, 0x20, 0x30, 0x40, 0x50].contains (s.mbCode h) = false) ∧
  (∃ s : State, ∃ h : Fin 2, s.flag (rANI_MB_STATUS h) fANI_MB_STATUS_busy = true ∧ s.flag rFWU_STATUS fFWU_STATUS_handover_active = false ∧ s.flag rFWU_STATUS fFWU_STATUS_cumin = false ∧ s.mbCode h = 0x01 ∧ s.mbLength h ≠ 0) ∧
  (∃ s : State, ∃ q : Req, ∃ v : Word, s.accepts q rANI_MB_ACK v ∧ bitOf v 0 = true ∧ q.master = 1) ∧
  (∃ s : State, ∃ q : Req, ∃ v : Word, s.accepts q rANI_MB_ACK v ∧ bitOf v 1 = true ∧ q.master = 2) ∧
  (∃ s : State, ∃ q : Req, ∃ v : Word, s.accepts q rANI_MB_ACK v ∧ bitOf v 0 = true ∧ bitOf v 1 = false ∧ q.master = 2) :=
  ⟨⟨(on 0xC2 State.reset).put (rANI_MB_STATUS 0) fANI_MB_STATUS_busy 1, hostA, 0, 1, by and_intros <;> decide +kernel⟩,
   ⟨on 0xC2 State.reset, hostB, 1, 1, by and_intros <;> decide +kernel⟩,
   ⟨{ on 0xC2 State.reset with boot := { ansB := true } }, hostB, 1, 0, by and_intros <;> decide +kernel⟩,
   ⟨mail 1 0, 0, by and_intros <;> decide +kernel⟩,
   ⟨mail 2 0, 0, by and_intros <;> decide +kernel⟩,
   ⟨mail 0x10 4, 0, by and_intros <;> decide +kernel⟩,
   ⟨mail 0x11 0, 0, by and_intros <;> decide +kernel⟩,
   ⟨mail 0x20 0, 0, by and_intros <;> decide +kernel⟩,
   ⟨mail 0x30 0, 0, by and_intros <;> decide +kernel⟩,
   ⟨mail 0x40 1, 0, by and_intros <;> decide +kernel⟩,
   ⟨ready (mail 0x50 0), 0, by and_intros <;> decide +kernel⟩,
   ⟨(mail 0x50 0).put rXLT_LEVEL fXLT_LEVEL_host_a 0, 0, by and_intros <;> decide +kernel⟩,
   ⟨mail 0x99 0, 0, by and_intros <;> decide +kernel⟩,
   ⟨mail 1 255, 0, by and_intros <;> decide +kernel⟩,
   ⟨on 0xC2 State.reset, hostA, 1, by and_intros <;> decide +kernel⟩,
   ⟨on 0xC2 State.reset, hostB, 2, by and_intros <;> decide +kernel⟩,
   ⟨on 0xC2 State.reset, hostB, 1, by and_intros <;> decide +kernel⟩⟩

theorem witness_StepRunsTheFrontCommand :
  (∃ s : State, ∃ c : Instr, ∃ rest : List Instr, s.pending = c :: rest) :=
  ⟨{ State.reset with pending := [.hushEnter] }, .hushEnter, [], (by decide +kernel)⟩

theorem witness_IdleStepIsOneTick :
  (∃ s : State, s.pending = []) ∧
  (∃ s : State, let t := s.clockTick; s.islandRuns = true ∧ ∃ b, b < 4) ∧
  (∃ s : State, let t := s.clockTick; s.islandRuns = false) ∧
  (∃ s : State, s.servo.trigs = [] ∧ s.servo.pulses = [] ∧ ((∀ b, (s.base b).step = none)) ∧ ((∀ u, u < 16 → s.comparing u = false)) ∧ s.resets = [] ∧ (s.br 0).locals = [] ∧ (s.br 1).locals = [] ∧ s.flag rFWU_STATUS fFWU_STATUS_confirm_pending = false) ∧
  (∃ s : State, s.islandRuns = true ∧ s.flag (rRCTL_STATUS 0) fRCTL_STATUS_ring_ready = false ∧ s.flag (rRCTL_STATUS 1) fRCTL_STATUS_ring_ready = false ∧ s.slotPhase + 40 < 1024) ∧
  (∃ s : State, s.islandRuns = true ∧ s.flag (rRCTL_STATUS 0) fRCTL_STATUS_ring_ready = false ∧ s.flag (rRCTL_STATUS 1) fRCTL_STATUS_ring_ready = false ∧ 1024 ≤ s.slotPhase + 40 ∧ s.slot % 2 ^ 20 ≠ 2 ^ 20 - 1) ∧
  (∃ s : State, s.islandRuns = true ∧ s.flag (rRCTL_STATUS 0) fRCTL_STATUS_ring_ready = false ∧ s.flag (rRCTL_STATUS 1) fRCTL_STATUS_ring_ready = false ∧ 1024 ≤ s.slotPhase + 40 ∧ s.slot % 2 ^ 20 = 2 ^ 20 - 1) :=
  ⟨⟨State.reset, by decide +kernel⟩,
   ⟨State.reset, by decide +kernel, 3, (by decide +kernel)⟩,
   ⟨({ State.reset with pwr := { State.reset.pwr with level := 3 } } : State), by decide +kernel⟩,
   ⟨State.reset, by decide +kernel, by decide +kernel, fun _ => rfl, by and_intros <;> decide +kernel⟩,
   ⟨State.reset, by and_intros <;> decide +kernel⟩,
   ⟨{ State.reset with slotPhase := 984 }, by and_intros <;> decide +kernel⟩,
   ⟨{ State.reset with slotPhase := 984, slot := 2 ^ 20 - 1 }, by and_intros <;> decide +kernel⟩⟩

theorem witness_WaitingCommandsAreWorkedOff :
  (∃ s : State, ∃ n : Nat, n ≤ s.pending.length) :=
  ⟨{ State.reset with pending := [.hushEnter, .hushExit] }, 2, by decide +kernel⟩

theorem witness_ResetLeaves :
  (let s := State.reset; ∃ a : Nat, a ≠ rRST_CAUSE) :=
  ⟨0, by decide +kernel⟩

theorem witness_EveryStepKeepsTheCanonicalForm :
  (∃ s : State, ∃ t : State, s.Canon ∧ step s = .next t) :=
  ⟨State.reset, State.reset.finished State.reset.tick, reset_canon, rfl⟩

theorem witness_MemoryWordsAreLittleEndian :
  (∃ i : Nat, i < 4) ∧
  (∃ a : Nat, ∃ b, ((b < a ∨ a + 4 ≤ b))) :=
  ⟨⟨3, by decide +kernel⟩,
   ⟨0x200000, 0x200004, Or.inr (by decide)⟩⟩

theorem witness_InterruptsAreDelivered :
  (∃ b : State, ∃ t : State, t.raises = [] ∧ let r := State.finished b t; ∃ h : Fin 2, t.pcieOn h = true ∧ ∃ v, v ∈ t.vectors h ∧ v ∉ b.vectors h ∧ v < 32 ∧ t.flag (rHBx_MSIX_CTRL h v) fHBx_MSIX_CTRL_mask = false) ∧
  (∃ b : State, ∃ t : State, t.raises = [] ∧ let r := State.finished b t; ∃ h : Fin 2, t.pcieOn h = true ∧ ∃ v, v ∈ t.vectors h ∧ v ∉ b.vectors h ∧ v < 32 ∧ t.flag (rHBx_MSIX_CTRL h v) fHBx_MSIX_CTRL_mask = true) :=
  ⟨⟨pcie, pcie.put rFLT_PENDING fFLT_PENDING_level2 1 |>.put (rHBx_MSIX_CTRL 0 0) fHBx_MSIX_CTRL_mask 0, by decide +kernel, 0, by decide +kernel, 0, by and_intros <;> decide +kernel⟩,
   ⟨pcie, pcie.put rFLT_PENDING fFLT_PENDING_level2 1, by decide +kernel, 0, by decide +kernel, 0, by and_intros <;> decide +kernel⟩⟩

theorem witness_CommandsThatStoreNothing :
  (∃ c : Instr, storesNothing c = true) :=
  ⟨.hushEnter, by decide +kernel⟩

theorem witness_RingNumberAndResetKeyAreChecked :
  (∃ s : State, ∃ x : Fin 2, ∃ m : ClaimMsg, s.enabled 0x28 = true ∧ m.ring ≠ s.ringNo x) ∧
  (∃ s : State, ∃ x : Fin 2, ∃ key, let s1 := s.popInbox x 0x1A; s.enabled 0x28 = true ∧ (s1.rc x).numbered = true ∧ (s1.flag rRCTL_CTRL fRCTL_CTRL_remote_reset_en = true ∧ key = s1.reg rRCTL_RESET_KEY)) ∧
  (∃ s : State, ∃ x : Fin 2, ∃ key, let s1 := s.popInbox x 0x1A; s.enabled 0x28 = true ∧ (s1.rc x).numbered = true ∧ (¬ (s1.flag rRCTL_CTRL fRCTL_CTRL_remote_reset_en = true ∧ key = s1.reg rRCTL_RESET_KEY))) ∧
  (∃ s : State, ∃ q : Req, ∃ v : Word, s.accepts q rRCTL_CMD v ∧ ((∀ k, k < 5 → bitOf v k = false)) ∧ bitOf v 5 = true) :=
  ⟨⟨ring 0, 0, claim 1 5 false, by and_intros <;> decide +kernel⟩,
   ⟨(timeMaster.put rRCTL_CTRL fRCTL_CTRL_remote_reset_en 1), 0, 0, by and_intros <;> decide +kernel⟩,
   ⟨timeMaster, 0, 0, by and_intros <;> decide +kernel⟩,
   ⟨on 0x28 State.reset, anise, 32, by and_intros <;> decide +kernel⟩⟩

theorem witness_RegisterCommandsStayWithinTheirRegisters :
  (∃ s : State, ∃ c : Fin 4, ((∀ p : Fin 32, s.pinFn c p = 1 → bitOf (s.reg (rPMUX_GPIO_OE c)) p = false))) :=
  ⟨(on 0xB0 State.reset).put (rPMUX_PIN 0 31) fPMUX_PIN_function 1, 0, by decide +kernel⟩

end Sys2Proof.Tests
end

section
/-! PROOF. The registers and stores at large: what a reset of classes leaves in each register, and what the machine holds right after reset. -/
namespace Sys2Proof.Machine

/-! ### A read after a map of a sparse store -/

section Sparse

variable {β : Type}

/-- A key below every listed key is not listed. -/
theorem spGet_of_spAbove (d : Nat → β) {m : List (Nat × β)} {k : Nat} (h : spAbove k m) : spGet d m k = d k := by
  induction m with
  | nil => rfl
  | cons e m ih =>
    obtain ⟨a, v⟩ := e
    have hne : a ≠ k := Nat.ne_of_gt (h (a, v) List.mem_cons_self)
    simp only [spGet, if_neg hne]
    exact ih fun e he => h e (List.mem_cons_of_mem _ he)

/-- A read after spMap: a function that keeps the default of a key acts on what the key reads as, listed or not. -/
theorem spGet_spMap [DecidableEq β] {d : Nat → β} {f : Nat → β → β} {m : List (Nat × β)} {k : Nat} (h : spWf d m = true)
    (hf : f k (d k) = d k) : spGet d (spMap d f m) k = f k (spGet d m k) := by
  induction m with
  | nil => exact hf.symm
  | cons e m ih =>
    obtain ⟨a, v⟩ := e
    obtain ⟨-, habove, hm⟩ := (spWf_cons_iff d a v m).1 h
    by_cases hk : a = k
    · subst a
      by_cases hv : f k v = d k
      · have hrest : spGet d (spMap d f m) k = d k := spGet_of_spAbove d (spAbove_spMap f habove)
        simp [spMap, spGet, hv, hrest]
      · simp [spMap, spGet, hv]
    · by_cases hv : f a v = d a <;> simp [spMap, spGet, hv, hk, ih hm]

end Sparse

/-! ### A reset of classes -/

/-- A bit of a lost class has its reset value, and every other bit is as it was (R6). -/
theorem getElem_clearWord (lost : List Cls) (a : Nat) (v : Word) (i : Nat) (hi : i < 32) :
    (clearWord lost a v)[i] = if (lostMask a lost)[i] then (resetWord a)[i] else v[i] := by
  simp only [clearWord, BitVec.getElem_and, BitVec.getElem_or, BitVec.getElem_not]
  cases (lostMask a lost)[i] <;> simp

theorem clearWord_and_lostMask (lost : List Cls) (a : Nat) (v : Word) :
    clearWord lost a v &&& lostMask a lost = resetWord a &&& lostMask a lost := by
  ext i hi
  by_cases h : (lostMask a lost)[i] <;> simp [getElem_clearWord, h]

theorem clearWord_and_not_lostMask (lost : List Cls) (a : Nat) (v : Word) :
    clearWord lost a v &&& ~~~lostMask a lost = v &&& ~~~lostMask a lost := by
  ext i hi
  by_cases h : (lostMask a lost)[i] <;> simp [getElem_clearWord, h]

/-- A register at its reset value keeps it, so that a register which is not listed needs no entry. -/
theorem clearWord_resetWord (lost : List Cls) (a : Nat) : clearWord lost a (resetWord a) = resetWord a := by
  ext i hi
  rw [getElem_clearWord, ite_self]

/-- What each register reads after the classes of the pages chosen are cleared (R6). -/
theorem reg_clearRegs {s : State} (h : spWf resetWord s.regs = true) (pages : Nat → Bool) (lost : List Cls) (a : Nat) :
    (s.clearRegs pages lost).reg a = if pages (a / 0x1000) then clearWord lost a (s.reg a) else s.reg a := by
  have hdefault : (if pages (a / 0x1000) then clearWord lost a (resetWord a) else resetWord a) = resetWord a := by
    rw [clearWord_resetWord, ite_self]
  exact spGet_spMap h hdefault

/-- Settles O19: in a page concerned a register reads as clearWord of its value, taken apart by the mask of the lost classes; elsewhere as before. -/
theorem clearedClassesHaveResetValues : Obligations.ClearedClassesHaveResetValues := by
  intro s pages lost a ⟨hregs, _, _⟩
  dsimp only
  rw [reg_clearRegs hregs]
  by_cases hp : pages (a / 0x1000) = true
  · simp only [if_pos hp]
    exact ⟨clearWord_and_lostMask lost a _, clearWord_and_not_lostMask lost a _⟩
  · simp only [if_neg hp, and_self]

/-! ### The machine right after reset -/

/-- The one register listed at reset is RST_CAUSE; every other one holds its reset value (R6, R29, R501). -/
theorem reg_reset_of_ne {a : Nat} (h : a ≠ rRST_CAUSE) : State.reset.reg a = resetWord a :=
  if_neg h.symm

/-- The power-on cause differs from the reset value of RST_CAUSE, so that its entry is a canonical one. -/
theorem regsWf_reset : spWf resetWord State.reset.regs = true := by decide

/-- A time base at reset stands at zero (R215, R526). -/
theorem base_reset_total (b : Nat) : (State.reset.base b).total = 0 := by
  have hbase : State.reset.base b = {} := rfl
  simp [hbase, BaseSt.total]

/-- Settles O5: every store but that of the registers is empty at reset and reads its default, and the registers list RST_CAUSE alone.
Where the spec leaves the content open, it is the model's choice: the MSI-X tables (log entry 5), straps and values per chip (log entry 6),
memory (log entry 10), the moment that State.reset stands for (log entry 18). -/
theorem resetLeaves : Obligations.ResetLeaves := by
  have hcause : State.reset.get rRST_CAUSE fRST_CAUSE_code = 1 := by decide
  have hcanon : State.reset.Canon := ⟨regsWf_reset, memWf_reset, ttWf_reset⟩
  have hfabric : State.reset.enabled 0x10 = true := by decide
  have huart : State.reset.enabled 0x80 = false := by decide
  have howner : State.reset.get (rPG_STATUS 0x80) fPG_STATUS_claim_owner = 0xFF := by decide
  have hfirst : State.reset.reg (rFLT_SRC_CFG 0) = 0x00030810 := by decide
  have hlast : State.reset.reg (rFLT_SRC_CFG 127) = 0x00030142 := by decide
  exact ⟨fun _ => reg_reset_of_ne, hcause, fun _ => rfl, fun _ => rfl, rfl, rfl, rfl, fun _ => ⟨rfl, rfl, rfl⟩, base_reset_total, hcanon,
    hfabric, huart, howner, hfirst, hlast, rfl⟩

end Sys2Proof.Machine
end

section
/-! PROOF. The polling engine (R271 to R273): its turn with one entry due, a response, a miss, and a pop of an event. -/
namespace Sys2Proof.Machine

/-! ### The engine's turn -/

/-- What the engine keeps beside the table lies apart from registers, memory and the fabric. -/
@[simp] theorem get_withPoll (s : State) (p : PollSt) (a : Nat) (f : Fld) : ({ s with poll := p } : State).get a f = s.get a f := rfl
@[simp] theorem pollWord_withPoll (s : State) (p : PollSt) (i w : Nat) : ({ s with poll := p } : State).pollWord i w = s.pollWord i w := rfl
@[simp] theorem portHolds_withPoll (s : State) (p : PollSt) (i : Nat) : ({ s with poll := p } : State).portHolds i = s.portHolds i := rfl

/-- An entry that is due lies within the table's count and is valid (R272). -/
theorem valid_of_due {s : State} {c i : Nat}
    (hi : i ∈ (List.range (min 1024 (s.get rPOLL_COUNT fPOLL_COUNT_entries))).filter (fun i => s.pollIsDue i c)) :
    i < s.get rPOLL_COUNT fPOLL_COUNT_entries ∧ natBits (s.pollWord i 0) 31 31 = 1 := by
  obtain ⟨hrange, hdue⟩ := List.mem_filter.1 hi
  have hlt := List.mem_range.1 hrange
  simp only [State.pollIsDue, Bool.and_eq_true, decide_eq_true_eq] at hdue
  exact ⟨by omega, hdue.1⟩

/-- With one entry due, none unsent, none sent before and input FP6 free, the turn sends that entry. -/
theorem pollDue_single {s : State} {c i : Nat} (hruns : s.pollRuns = true) (hunsent : s.poll.unsent = []) (hlast : s.poll.last = none)
    (hholds : s.portHolds 6 = false)
    (hdue : (List.range (min 1024 (s.get rPOLL_COUNT fPOLL_COUNT_entries))).filter (fun i => s.pollIsDue i c) = [i]) :
    s.pollDue c = ({ s with poll := { s.poll with unsent := [], last := some c } } : State).pollSend i := by
  obtain ⟨hcount, hvalid⟩ := valid_of_due (hdue ▸ List.mem_singleton_self i)
  unfold State.pollDue
  simp [hruns, hdue, hunsent, hlast, hholds, hcount, hvalid]

/-- A poll to a station other than 255 leaves, with the tag drawn in its state (R16, R272). -/
theorem pollSend_of_station {s : State} {i : Nat} (hstation : s.pollWord i 0 % 256 ≠ 255) :
    let w := s.pollWord i 0
    let t := freeTag (s.poll.outst.length + 1) (s.poll.outst.map Prod.snd) (s.freeN % 65536)
    let p := { s.poll with outst := s.poll.outst ++ [(i, t)], seq := (s.poll.seq + 1) % 65536, issued := spSet (fun _ => false) s.poll.issued t true }
    s.pollSend i = (({ s.step1 with poll := p }).inc rPOLL_CNT_SENT).present 6
      (mkFrame 6 (if natBits w 28 28 = 1 then 1 else 2) 0 0 0 (natBits w 17 0) s.ownNode 0xF200 s.poll.seq
        (reqOctets t 0 false false none 0 0 (s.pollWord i 1) 4 0 [])) := by
  have hnode : natBits (s.pollWord i 0) 17 0 % 256 ≠ 255 := by
    unfold natBits; rw [Nat.shiftRight_zero]; omega
  dsimp only
  unfold State.pollSend
  rw [if_neg (by simp [hnode])]
  rfl

/-! ### Responses and misses -/

/-- The first poll response at FP6 is taken, and answers its poll while the engine runs. -/
theorem pollResponse_first {s : State} {d : Delivered} (hfind : (s.outbox 6).find? (fun d => d.frame.kind = 4 && d.frame.flow = 0xF200) = some d)
    (hkeep : d.discard = false) (hruns : s.pollRuns = true) :
    s.pollResponse = (s.setOutbox 6 ((s.outbox 6).erase d)).pollAnswer d.frame := by
  have hruns' : (s.setOutbox 6 ((s.outbox 6).erase d)).pollRuns = true := hruns
  unfold State.pollResponse
  simp only [hfind, hkeep, hruns', Bool.not_true, Bool.or_self, Bool.false_eq_true, if_false]

/-- A good answer of 4 octets to a poll that waits: the entry's misses clear, and a masked value other than the stored one is stored and
pushes an event (R272, R273). -/
theorem pollAnswer_good {s : State} {f : Frame} {e : Nat × Nat} (hlen : 20 ≤ f.payload.length) (hstatus : (nthD f.payload 2 0).toNat % 16 = 0)
    (hcount : (nthD f.payload 8 0).toNat = 4) (hfind : s.poll.outst.find? (fun e => e.2 = beNat (slice f.payload 0 2)) = some e) :
    let i := e.1
    let t : State := { s with poll := { s.poll with outst := s.poll.outst.erase e } }
    let v := leNat (slice f.payload 16 4)
    let u := t.setWord (t.pollAddr i 0) (toW (natPut (t.pollWord i 0) 22 20 0))
    let m := v &&& u.pollWord i 2
    s.pollAnswer f = if m = u.pollWord i 3 then u
      else (u.setWord (u.pollAddr i 3) (toW m)).pollEvent (natBits (t.pollWord i 0) 30 29) (pollItem v i false 0 (natBits (t.pollWord i 0) 17 0)) := by
  have hshort : ¬ f.payload.length < 16 := by omega
  have hshort' : ¬ f.payload.length < 20 := by omega
  unfold State.pollAnswer
  simp only [hstatus, hcount, hshort, hshort', hfind]
  rfl

/-- A poll that waits for its response is a miss while the engine runs, with a free status (log entry 4). -/
theorem pollTimeout_waiting {s : State} {i : Nat} {e : Nat × Nat} (hfind : s.poll.outst.find? (fun e => e.1 = i) = some e)
    (hruns : s.pollRuns = true) :
    s.pollTimeout i = ({ s.step1 with poll := { s.poll with outst := s.poll.outst.erase e } } : State).pollMiss i (s.freeN % 8) := by
  unfold State.pollTimeout
  simp only [hfind]
  exact if_pos hruns

/-! ### The poll engine -/

/-- Settles O38: each clause is the engine's own rule for the case named. The master octet of a poll and the engine's turn are log entry 69;
the tag and the status of a missed poll are free values (log entry 4). -/
theorem pollingAct : Obligations.PollingAct := by
  intro s
  refine ⟨?due, ?response, ?answer, ?miss, ?pop⟩
  case due =>
    intro c i hruns hunsent hlast hholds _ hdue hstation
    have hsent := pollSend_of_station (s := { s with poll := { s.poll with unsent := [], last := some c } }) (i := i) hstation
    exact congrArg (fun t => Host.Outcome.next (s.finished t)) ((pollDue_single hruns hunsent hlast hholds hdue).trans hsent)
  case response =>
    intro d hfind hkeep hruns
    exact congrArg (finish s) (pollResponse_first hfind hkeep hruns)
  case answer =>
    intro f e hlen hstatus hcount hfind
    have hgood := pollAnswer_good hlen hstatus hcount hfind
    exact ⟨fun hsame => hgood.trans (if_pos hsame), fun hother => hgood.trans (if_neg hother)⟩
  case miss =>
    intro i e hfind hruns
    exact congrArg (finish s) (pollTimeout_waiting hfind hruns)
  case pop =>
    intro q mp wide hread
    refine ⟨fun hnone => ?_, fun t l hsome => ?_⟩
    · exact congrArg (finish s) (popRead_none hread wide 0 pollEvtPop (by simp only [pollEvtPop, hnone]))
    · exact congrArg (finish s) (popRead_some hread wide 0 t pollEvtPop (by simp only [pollEvtPop, hsome]))

end Sys2Proof.Machine
end

section
/-! PROOF. The epoch boundary (R12): the servo's update (R230, R231), the fault windows (R503) and what Anise keeps during a handover (R561). -/
namespace Sys2Proof.Machine

/-! ### The servo's update -/

/-- Two states with the same samples of the epoch and the same shown mean. -/
structure SameMean (s t : State) : Prop where
  sum : t.servo.sum = s.servo.sum
  count : t.servo.n = s.servo.n
  shown : t.reg (rTB_OFFSET 0) = s.reg (rTB_OFFSET 0)

namespace SameMean

theorem refl (s : State) : SameMean s s := ⟨rfl, rfl, rfl⟩

theorem trans {s t u : State} (h : SameMean s t) (k : SameMean t u) : SameMean s u :=
  ⟨k.sum.trans h.sum, k.count.trans h.count, k.shown.trans h.shown⟩

/-- A write of any register but TB_OFFSET. -/
theorem setReg (s : State) {a : Nat} (v : Word) (ha : rTB_OFFSET 0 ≠ a) : SameMean s (s.setReg a v) := ⟨rfl, rfl, reg_setReg_ne s v ha⟩

theorem put (s : State) {a : Nat} (f : Fld) (n : Nat) (ha : rTB_OFFSET 0 ≠ a) : SameMean s (s.put a f n) := setReg s _ ha
theorem inc (s : State) {a : Nat} (ha : rTB_OFFSET 0 ≠ a) : SameMean s (s.inc a) := setReg s _ ha
theorem irq (s : State) (p n : Nat) (ha : rTB_OFFSET 0 ≠ rPG_IRQ_STAT p) : SameMean s (s.irq p n) := setReg s _ ha
theorem raise (s : State) (src : Nat) : SameMean s (s.raise src) := ⟨rfl, rfl, rfl⟩

theorem lockLost (s : State) : SameMean s s.lockLost := by
  unfold State.lockLost
  split
  · exact ((put s _ _ (by decide)).trans (inc _ (by decide))).trans ((irq _ _ _ (by decide)).trans (raise _ _))
  · exact refl s

theorem lockGain (s : State) : SameMean s s.lockGain := by
  unfold State.lockGain
  split
  · exact refl s
  · exact (put s _ _ (by decide)).trans (irq _ _ _ (by decide))

/-- The lock is decided from the mean, and leaves it. -/
theorem servoLock (s : State) (sum : Int) (n : Nat) : SameMean s (s.servoLock sum n) := by
  have hrows (good bad : Nat) : SameMean s { s with servo := { s.servo with good := good, bad := bad } } := ⟨rfl, rfl, rfl⟩
  unfold State.servoLock
  extract_lets lim cnt m v good bad t
  have ht : SameMean s t := hrows good bad
  split
  · split
    · exact ht.trans (lockLost t)
    · exact ht
  · split
    · exact ht.trans (lockGain t)
    · exact ht

theorem setRate (s : State) (v : Nat) : SameMean s (s.setRate 0 v) := by
  unfold State.setRate
  extract_lets n old based rated
  have hbased : SameMean s based := ⟨rfl, rfl, rfl⟩
  have hrated : SameMean s rated := (hbased.trans (setReg _ _ (by decide))).trans (setReg _ _ (by decide))
  split
  · exact hrated
  · exact hrated.trans (put _ _ _ (by decide))

/-- With no step threshold the correction is one of the rate (R230). -/
theorem servoCorrect {s : State} (hstep : s.get (rTB_SERVO 0) fTB_SERVO_step_ns = 0) (sum : Int) (n : Nat) :
    SameMean s (s.servoCorrect sum n) := by
  have hy (y : Frac) : SameMean s { s with servo := { s.servo with y := y } } := ⟨rfl, rfl, rfl⟩
  unfold State.servoCorrect
  dsimp only
  rw [if_neg (by simp [hstep])]
  exact (hy _).trans (setRate _ _)

end SameMean

/-- The epoch's samples begin anew, and their mean shows in TB_OFFSET (R230). -/
def State.meanShown (s : State) : State :=
  ({ s with servo := { s.servo with sum := 0, n := 0 } } : State).setReg (rTB_OFFSET 0)
    (toW (toTwos 32 (roundDiv s.servo.sum (s.servo.n * 65536))))

/-- The update with samples, off the root: the mean shows, then the correction is made and the lock decided. -/
theorem servoUpdate_eq {s : State} (hn : s.servo.n ≠ 0) (hroot : s.isRoot = false) (hon : s.enabled 0x40 = true)
    (hservo : s.flag (rTB_EXP 0) fTB_EXP_servo_off = false) :
    s.servoUpdate = (s.meanShown.servoCorrect s.servo.sum s.servo.n).servoLock s.servo.sum s.servo.n := by
  unfold State.servoUpdate
  extract_lets v t follow sum n shown corrected
  have hroot' : t.isRoot = false := hroot
  have hon' : t.enabled 0x40 = true := hon
  have hservo' : shown.flag (rTB_EXP 0) fTB_EXP_servo_off = false := (flag_congr _ (reg_setReg_ne _ _ (by decide))).trans hservo
  have hfollow : follow = false := by simp only [follow, hroot', Bool.false_and]
  have hsum : sum = s.servo.sum := by simp [sum, hfollow, v]
  have hcount : n = s.servo.n := by simp [n, hfollow, hroot', v]
  have hcorrected : corrected = shown.servoCorrect sum n := if_neg (by simp [hservo'])
  rw [if_neg (by simp [hn, hcount, hon']), if_neg (by simp [hfollow]), hcorrected, hsum, hcount]
  simp only [shown, hsum, hcount]
  rfl

/-- Correction and lock leave the mean that the update shows (R230, R231). -/
theorem servoUpdate_mean {s : State} (hn : s.servo.n ≠ 0) (hroot : s.isRoot = false) (hon : s.enabled 0x40 = true)
    (hservo : s.flag (rTB_EXP 0) fTB_EXP_servo_off = false) (hstep : s.get (rTB_SERVO 0) fTB_SERVO_step_ns = 0) :
    s.servoUpdate.servo.sum = 0 ∧ s.servoUpdate.servo.n = 0 ∧
      s.servoUpdate.reg (rTB_OFFSET 0) = toW (toTwos 32 (roundDiv s.servo.sum (s.servo.n * 65536))) := by
  have hstep' : s.meanShown.get (rTB_SERVO 0) fTB_SERVO_step_ns = 0 := (get_congr _ (reg_setReg_ne _ _ (by decide))).trans hstep
  obtain ⟨hsum, hcount, hshown⟩ := (SameMean.servoCorrect hstep' s.servo.sum s.servo.n).trans (SameMean.servoLock _ s.servo.sum s.servo.n)
  rw [servoUpdate_eq hn hroot hon hservo]
  exact ⟨hsum, hcount, hshown.trans (reg_setReg_same ..)⟩

/-- The update with no sample, off the root. -/
theorem servoUpdate_empty {s : State} (hn : s.servo.n = 0) (hroot : s.isRoot = false) :
    s.servoUpdate = { s with servo := { s.servo with sum := 0, n := 0 } } := by
  have hroot' : ({ s with servo := { s.servo with sum := 0, n := 0 } } : State).isRoot = false := hroot
  unfold State.servoUpdate
  simp [hroot', hn]

/-! ### Work of Anise (R561) -/

/-- A handover keeps work that it does not keep yet. -/
theorem anise_kept {s : State} {w : Nat × Nat × Nat} (hactive : s.flag rFWU_STATUS fFWU_STATUS_handover_active = true) (hnew : w ∉ s.boot.held)
    (act : State → State) : s.anise w act = { s with boot := { s.boot with held := s.boot.held ++ [w] } } := by
  unfold State.anise
  rw [if_pos hactive, if_neg (by simpa using hnew)]

/-- Without a handover the work is done. -/
theorem anise_done {s : State} (hactive : s.flag rFWU_STATUS fFWU_STATUS_handover_active = false) (w : Nat × Nat × Nat) (act : State → State) :
    s.anise w act = act s := by
  unfold State.anise
  rw [if_neg (by simp [hactive])]

/-! ### The fault windows (R503) -/

section Addresses

variable {m n : Nat}

theorem rFLT_SRC_COUNT_ne (h : m ≠ n) : rFLT_SRC_COUNT m ≠ rFLT_SRC_COUNT n := by dsimp only [rFLT_SRC_COUNT]; omega
theorem rFLT_SEVERE_ne (h : m ≠ n) : rFLT_SEVERE m ≠ rFLT_SEVERE n := by dsimp only [rFLT_SEVERE]; omega
theorem rFLT_SRC_CFG_ne_count (hm : m < 128) : rFLT_SRC_CFG m ≠ rFLT_SRC_COUNT n := by dsimp only [rFLT_SRC_CFG, rFLT_SRC_COUNT]; omega
theorem rFLT_SRC_CFG_ne_severe (hn : n < 128) : rFLT_SRC_CFG m ≠ rFLT_SEVERE (n / 32) := by dsimp only [rFLT_SRC_CFG, rFLT_SEVERE]; omega
theorem rFLT_SRC_COUNT_ne_severe (hn : n < 128) : rFLT_SRC_COUNT m ≠ rFLT_SEVERE (n / 32) := by dsimp only [rFLT_SRC_COUNT, rFLT_SEVERE]; omega

end Addresses

/-- The field of a source in its FLT_SRC_COUNT, which four sources share. -/
def countFld (n : Nat) : Fld := ⟨8 * (n % 4) + 7, 8 * (n % 4)⟩

/-- The count of a source in its window. -/
def State.srcCount (s : State) (n : Nat) : Nat := s.get (rFLT_SRC_COUNT (n / 4)) (countFld n)

/-- A source is in its severe state. -/
def State.srcSevere (s : State) (n : Nat) : Bool := bitOf (s.reg (rFLT_SEVERE (n / 32))) (n % 32)

/-- The window of a source ends at an epoch with this count. -/
def State.windowEnds (s : State) (epoch n : Nat) : Prop := epoch % 2 ^ s.get (rFLT_SRC_CFG n) fFLT_SRC_CFG_window_k = 0

/-- The count of a source cleared. -/
def State.clearCount (s : State) (n : Nat) : State :=
  if s.srcCount n = 0 then s else s.put (rFLT_SRC_COUNT (n / 4)) (countFld n) 0

/-- The severe state of a source cleared. -/
def State.clearSevere (s : State) (n : Nat) : State :=
  if s.srcSevere n then s.setReg (rFLT_SEVERE (n / 32)) (s.reg (rFLT_SEVERE (n / 32)) &&& ~~~(toW (2 ^ (n % 32)))) else s

/-- The part of one source in the clearing of the windows that end. -/
def State.faultWindow (epoch : Nat) (s : State) (n : Nat) : State :=
  if epoch % 2 ^ s.get (rFLT_SRC_CFG n) fFLT_SRC_CFG_window_k != 0 then s else (s.clearCount n).clearSevere n

theorem faultWindows_eq (s : State) (epoch : Nat) : s.faultWindows epoch = (List.range 128).foldl (State.faultWindow epoch) s := rfl

theorem faultWindow_of_ends {s : State} {epoch n : Nat} (h : s.windowEnds epoch n) :
    State.faultWindow epoch s n = (s.clearCount n).clearSevere n :=
  if_neg (by simpa [State.windowEnds] using h)

theorem faultWindow_of_open {s : State} {epoch n : Nat} (h : ¬ s.windowEnds epoch n) : State.faultWindow epoch s n = s :=
  if_pos (by simpa [State.windowEnds] using h)

/-- A bit of a word after one is cleared. -/
theorem bitOf_clear (w : Word) {k j : Nat} (hj : j < 32) : bitOf (w &&& ~~~(toW (2 ^ k))) j = (decide (j ≠ k) && bitOf w j) := by
  have hbit : (toW (2 ^ k)).getLsbD j = decide (j = k) := by
    rw [toW, BitVec.getLsbD_ofNat, Nat.testBit_two_pow]
    simp [hj, eq_comm]
  change (w &&& ~~~(toW (2 ^ k))).getLsbD j = (decide (j ≠ k) && w.getLsbD j)
  rw [BitVec.getLsbD_and, BitVec.getLsbD_not, hbit]
  simp [hj, Bool.and_comm]

/-- The clearing of a count touches no register but its own. -/
theorem reg_clearCount_ne (s : State) {a n : Nat} (ha : a ≠ rFLT_SRC_COUNT (n / 4)) : (s.clearCount n).reg a = s.reg a := by
  unfold State.clearCount
  split
  · rfl
  · exact reg_setReg_ne _ _ ha

/-- The clearing of a severe state touches no register but its own. -/
theorem reg_clearSevere_ne (s : State) {a n : Nat} (ha : a ≠ rFLT_SEVERE (n / 32)) : (s.clearSevere n).reg a = s.reg a := by
  unfold State.clearSevere
  split
  · exact reg_setReg_ne _ _ ha
  · rfl

theorem srcCount_clearCount_same (s : State) (n : Nat) : (s.clearCount n).srcCount n = 0 := by
  unfold State.clearCount
  split
  · assumption
  · have hwidth : (countFld n).lo ≤ (countFld n).hi := by simp only [countFld]; omega
    have hword : (countFld n).hi < 32 := by simp only [countFld]; omega
    exact (get_put_same s _ _ 0 hwidth hword).trans (Nat.zero_mod _)

theorem srcCount_clearCount_ne (s : State) {n m : Nat} (h : m ≠ n) : (s.clearCount n).srcCount m = s.srcCount m := by
  unfold State.clearCount
  split
  · rfl
  · unfold State.srcCount
    by_cases hdiv : m / 4 = n / 4
    · have hwidth : (countFld n).lo ≤ (countFld n).hi := by simp only [countFld]; omega
      have hword : (countFld n).hi < 32 := by simp only [countFld]; omega
      have hbeside : (countFld m).hi < (countFld n).lo ∨ (countFld n).hi < (countFld m).lo := by simp only [countFld]; omega
      rw [hdiv]
      exact get_put_other s _ _ _ 0 hwidth hword hbeside
    · exact get_put_ne s _ _ 0 (rFLT_SRC_COUNT_ne hdiv)

theorem srcSevere_clearSevere_same (s : State) (n : Nat) : (s.clearSevere n).srcSevere n = false := by
  unfold State.clearSevere
  split
  · unfold State.srcSevere
    rw [reg_setReg_same, bitOf_clear _ (Nat.mod_lt _ (by decide))]
    simp
  · simpa using ‹¬ s.srcSevere n = true›

theorem srcSevere_clearSevere_ne (s : State) {n m : Nat} (h : m ≠ n) : (s.clearSevere n).srcSevere m = s.srcSevere m := by
  unfold State.clearSevere
  split
  · unfold State.srcSevere
    by_cases hdiv : m / 32 = n / 32
    · have hbit : m % 32 ≠ n % 32 := by omega
      rw [hdiv, reg_setReg_same, bitOf_clear _ (Nat.mod_lt _ (by decide))]
      simp [hbit]
    · rw [reg_setReg_ne _ _ (rFLT_SEVERE_ne hdiv)]
  · rfl

/-- Count and severe state of a source, as the window's end leaves them cleared. -/
def State.srcState (s : State) (n : Nat) : Nat × Bool := (s.srcCount n, s.srcSevere n)

/-- No window's end changes when another window ends: FLT_SRC_CFG lies apart from the counts and the severe states. -/
theorem windowEnds_faultWindow {s : State} {epoch n m : Nat} (hn : n < 128) (hm : m < 128) :
    (State.faultWindow epoch s n).windowEnds epoch m ↔ s.windowEnds epoch m := by
  have hreg : (State.faultWindow epoch s n).reg (rFLT_SRC_CFG m) = s.reg (rFLT_SRC_CFG m) := by
    unfold State.faultWindow
    split
    · rfl
    · rw [reg_clearSevere_ne _ (rFLT_SRC_CFG_ne_severe hn), reg_clearCount_ne _ (rFLT_SRC_CFG_ne_count hm)]
  unfold State.windowEnds
  rw [get_congr _ hreg]

theorem srcState_faultWindow_same {s : State} {epoch n : Nat} (hn : n < 128) (h : s.windowEnds epoch n) :
    (State.faultWindow epoch s n).srcState n = (0, false) := by
  have hcount : (s.clearCount n |>.clearSevere n).srcCount n = 0 :=
    (get_congr _ (reg_clearSevere_ne _ (rFLT_SRC_COUNT_ne_severe hn))).trans (srcCount_clearCount_same s n)
  rw [faultWindow_of_ends h, State.srcState, hcount, srcSevere_clearSevere_same]

theorem srcState_faultWindow_ne {s : State} {epoch n m : Nat} (hn : n < 128) (hm : m < 128) (h : m ≠ n) :
    (State.faultWindow epoch s n).srcState m = s.srcState m := by
  by_cases hends : s.windowEnds epoch n
  · have hcount : (s.clearCount n |>.clearSevere n).srcCount m = s.srcCount m :=
      (get_congr _ (reg_clearSevere_ne _ (rFLT_SRC_COUNT_ne_severe hn))).trans (srcCount_clearCount_ne s h)
    have hsevere : (s.clearCount n).srcSevere m = s.srcSevere m := by
      unfold State.srcSevere
      rw [reg_clearCount_ne _ (rFLT_SRC_COUNT_ne_severe hm).symm]
    rw [faultWindow_of_ends hends, State.srcState, hcount, srcSevere_clearSevere_ne _ h, hsevere, State.srcState]
  · rw [faultWindow_of_open hends]

/-- After the windows of a list of sources, a source whose window does not end, or that is not listed, is as before. -/
theorem srcState_foldl_kept (epoch : Nat) {m : Nat} (hm : m < 128) (l : List Nat) (hl : ∀ n ∈ l, n < 128) (s : State)
    (h : m ∈ l → ¬ s.windowEnds epoch m) : (l.foldl (State.faultWindow epoch) s).srcState m = s.srcState m := by
  induction l generalizing s with
  | nil => rfl
  | cons n l ih =>
    have hn := hl n List.mem_cons_self
    have hstep : (State.faultWindow epoch s n).srcState m = s.srcState m := by
      by_cases hmn : m = n
      · subst hmn; rw [faultWindow_of_open (h List.mem_cons_self)]
      · exact srcState_faultWindow_ne hn hm hmn
    have hrest := ih (fun k hk => hl k (List.mem_cons_of_mem _ hk)) (State.faultWindow epoch s n)
      fun hk => mt (windowEnds_faultWindow hn hm).1 (h (List.mem_cons_of_mem _ hk))
    exact hrest.trans hstep

/-- After the windows of a list of sources, a listed source whose window ends is clear. -/
theorem srcState_foldl_ended (epoch : Nat) {m : Nat} (hm : m < 128) (l : List Nat) (hl : ∀ n ∈ l, n < 128) (s : State) (hmem : m ∈ l)
    (h : s.windowEnds epoch m) : (l.foldl (State.faultWindow epoch) s).srcState m = (0, false) := by
  induction l generalizing s with
  | nil => exact absurd hmem List.not_mem_nil
  | cons n l ih =>
    have hn := hl n List.mem_cons_self
    have hl' : ∀ k ∈ l, k < 128 := fun k hk => hl k (List.mem_cons_of_mem _ hk)
    have hends := (windowEnds_faultWindow hn hm).2 h
    by_cases hlater : m ∈ l
    · exact ih hl' (State.faultWindow epoch s n) hlater hends
    · obtain rfl : m = n := (List.mem_cons.1 hmem).resolve_right hlater
      have hkept := srcState_foldl_kept epoch hm l hl' (State.faultWindow epoch s m) fun hk => absurd hk hlater
      exact hkept.trans (srcState_faultWindow_same hm h)

/-- At the boundary of an epoch the sources whose window ends are clear, and the others stay (R503). -/
theorem srcState_faultWindows (s : State) (epoch : Nat) {m : Nat} (hm : m < 128) :
    (s.windowEnds epoch m → (s.faultWindows epoch).srcState m = (0, false)) ∧
      (¬ s.windowEnds epoch m → (s.faultWindows epoch).srcState m = s.srcState m) := by
  rw [faultWindows_eq]
  exact ⟨srcState_foldl_ended epoch hm _ (fun _ => List.mem_range.1) s (List.mem_range.2 hm),
    fun h => srcState_foldl_kept epoch hm _ (fun _ => List.mem_range.1) s fun _ => h⟩

/-! ### The test access port (R582) -/

theorem tapLoad_of_level {s : State} (h : s.pwr.level ≤ 4) (ir : Nat) (reg : TapReg) (drive : TapDrive) :
    s.tapLoad ir reg drive = { s with tap := { s.tap with ir := ir, reg := reg, drive := drive } } := if_pos (decide_eq_true h)

theorem tapSample_of_level {s : State} (h : s.pwr.level ≤ 4) (pins load : List Bool) :
    s.tapSample pins load = { s with tap := { s.tap with sample := pins, boundary := load } } := if_pos (decide_eq_true h)

/-- Settles O54: the boundary serves its parts in the model's order (log entry 74), the clauses on the servo, Anise and the fault windows are the
lemmas above, and each instruction of the test access port loads and drives as log entry 65 reads R582. -/
theorem epochBoundaryAndTap : Obligations.EpochBoundaryAndTap := by
  refine ⟨fun s => ⟨fun mods => rfl, servoUpdate_mean, servoUpdate_empty, fun w act h => anise_done h w act,
    fun w act h hnew => anise_kept h hnew act, ?windows⟩, ?tap⟩
  case windows =>
    intro epoch n
    obtain ⟨hended, hkept⟩ := srcState_faultWindows s epoch n.isLt
    exact ⟨fun h => Prod.ext_iff.1 (hended h), fun h => Prod.ext_iff.1 (hkept h)⟩
  case tap =>
    intro s hlevel
    have hload (ir : Nat) (reg : TapReg) (drive : TapDrive) := congrArg (finish s) (tapLoad_of_level hlevel ir reg drive)
    refine ⟨hload .., hload .., hload .., hload .., hload .., hload .., fun code hcode => ?_, fun pins cells => ?_⟩
    · have hcode' : ¬ code.toNat ≤ 6 := by omega
      have hbypass : exec (.bypass code) s = finish s (s.tapLoad code.toNat .bypass .hub) := by
        change execBypass code s = _
        rw [execBypass, if_neg hcode']
      exact hbypass.trans (hload ..)
    · have hsample := tapSample_of_level (s := { s with tap := { s.tap with ir := 0x02, reg := .boundary, drive := .hub } }) hlevel pins cells
      exact congrArg (finish s) ((congrArg (·.tapSample pins cells) (tapLoad_of_level hlevel 0x02 .boundary .hub)).trans hsample)

end Sys2Proof.Machine
end

section
/-! PROOF. The power die: registers written over the die link (R9, R486 to R488), supplies (R483 to R485) and discrete lines (R489 to R493). -/
namespace Sys2Proof.Machine

/-! ### The power die's registers -/

/-- A power die out of its reset does what an event asks. -/
theorem pdDo_on {s : State} (h : s.pd.on = true) (f : State → State) : s.pdDo f = f s := if_pos h

/-- The power die sets a register of its own alone; the mirror lies on the hub die. -/
@[simp] theorem pd_pdSet (s : State) (a : Nat) (v : Word) : (s.pdSet a v).pd = { s.pd with regs := spSet resetWord s.pd.regs a v } := by
  unfold State.pdSet
  dsimp only
  split <;> rfl

@[simp] theorem pd_pdPut (s : State) (a : Nat) (f : Fld) (n : Nat) :
    (s.pdPut a f n).pd = { s.pd with regs := spSet resetWord s.pd.regs a (fldPut (s.pdReg a) f n) } := pd_pdSet ..

@[simp] theorem pd_pdIrq (s : State) (p n : Nat) : (s.pdIrq p n).pd = s.pd := by
  unfold State.pdIrq
  split <;> rfl

/-! ### Writes over the die link (R9, R486, R488) -/

/-- A register of a group of lines has its rule by its offset alone: none of the registers that have a rule by address lies there. -/
theorem pdWrite_lines (s : State) (v : Word) (g : Nat) {off : Nat} (hoff : off < 0x1000) :
    let a := 0xF4000 + off + 0x1000 * g
    s.pdWrite a v =
      if off = 0x048 then s.outWrite g v.toNat
      else if off = 0x600 then s.outWrite g ((s.pdReg (rPD_DIO_OUT g)).toNat ||| v.toNat % 16)
      else if off = 0x604 then s.outWrite g (s.pdReg (rPD_DIO_OUT g) &&& ~~~v).toNat
      else if pdMirrored a && (regDesc (0xF4 + g) off).isSome then s.pdSet a (storeWord a (s.pdReg a) v) else s := by
  intro a
  have hpage : a / 0x1000 = 0xF4 + g := by omega
  have hmod : a % 0x1000 = off := by omega
  have hne (b : Nat) (hb : b < 0xF4000) : a ≠ b := by omega
  unfold State.pdWrite
  simp only [hpage, hmod, hne rFLT_ERRN_CLR (by decide), hne rPD_HS_CFG (by decide), hne rPD_HS_CMD (by decide), hne rPD_HS_EXP (by decide),
    hne rPD_OTP_PROG (by decide), if_false, Nat.le_add_right, Nat.add_sub_cancel_left, decide_true, Bool.true_and, decide_eq_true_eq]

section Outputs

variable (s : State) (v : Word) (g : Nat)

/-- PD_DIO_OUT writes the outputs as given (R491). -/
theorem pdWrite_dioOut : s.pdWrite (rPD_DIO_OUT g) v = s.outWrite g v.toNat :=
  (pdWrite_lines s v g (off := 0x048) (by decide)).trans (if_pos rfl)

/-- PD_DIO_SET writes the outputs with bits set (R491). -/
theorem pdWrite_dioSet : s.pdWrite (rPD_DIO_SET g) v = s.outWrite g ((s.pdReg (rPD_DIO_OUT g)).toNat ||| v.toNat % 16) :=
  (pdWrite_lines s v g (off := 0x600) (by decide)).trans ((if_neg (by decide)).trans (if_pos rfl))

/-- PD_DIO_CLR writes the outputs with bits cleared (R491). -/
theorem pdWrite_dioClr : s.pdWrite (rPD_DIO_CLR g) v = s.outWrite g (s.pdReg (rPD_DIO_OUT g) &&& ~~~v).toNat :=
  (pdWrite_lines s v g (off := 0x604) (by decide)).trans ((if_neg (by decide)).trans ((if_neg (by decide)).trans (if_pos rfl)))

end Outputs

/-- A program command with a row left takes the hot-swap settings into the next row (R471). -/
theorem otpProg_row {s : State} {v : Word} (hprogram : bitOf v 0 = true) (hroom : s.pd.otp.length < 4) :
    (otpProg v s).pd.otp = s.pd.otp ++ [s.pdReg rPD_HS_CFG] := by
  unfold otpProg
  rw [if_neg (by simp [hprogram]), if_neg (by omega)]
  simp

/-- The acknowledgement performs the oldest write and completes it. -/
theorem pdAck_cons {s : State} {w : PdWrite} {rest : List PdWrite} (h : s.pdWrites = w :: rest) :
    s.pdAck = ((({ s with pdWrites := rest } : State).pdWrite w.addr w.value).complete w.cont 0 0 []).serveHeld := by
  unfold State.pdAck
  rw [h]

/-- A resend is the frame of the oldest write again, while the link is not silent. -/
theorem exec_pdWriteResend_cons {s : State} {w : PdWrite} {rest : List PdWrite} (h : s.pdWrites = w :: rest)
    (hsilent : s.flag rPD_LINK_STATUS fPD_LINK_STATUS_silent = false) : exec .pdWriteResend s = finish s (s.emit (.die w.addr w.value)) := by
  change execPdWriteResend s = _
  unfold execPdWriteResend
  rw [h]
  exact congrArg (finish s) (if_neg (by simp [hsilent]))

/-- What both dies' declaration of silence leaves on the hub die before the waiting writes complete (R488). -/
def State.silentShown (s : State) : State :=
  ((((s.put rPD_LINK_STATUS fPD_LINK_STATUS_silent 1).put rPD_LINK_STATUS fPD_LINK_STATUS_up 0).inc rPD_CNT_LINK_LOSS).irq 0xF2 2).raise 101

/-- Silence completes every waiting write with status 5 (R488). -/
def State.silentCompleted (s : State) : State :=
  s.pdWrites.foldl (fun (x : State) w => x.complete w.cont 5 0 []) { s.silentShown with pdWrites := [] }

/-- A link that falls silent with no hub reset under way: ERR_N is asserted, and the outputs take their link-loss state (R488, R510). -/
theorem dieSilent_fresh {s : State} (hsilent : s.flag rPD_LINK_STATUS fPD_LINK_STATUS_silent = false) (hl6 : s.pd.l6 = false)
    (hactive : s.silentCompleted.rst.active = false) :
    s.dieSilent = (((s.silentCompleted.pdErrN 3 101).pdEvent 0x0E 0 []).linkLoss).serveHeld := by
  have herr : (if s.silentCompleted.rst.active then s.silentCompleted else s.silentCompleted.pdErrN 3 101) = s.silentCompleted.pdErrN 3 101 :=
    if_neg (by simp [hactive])
  unfold State.dieSilent
  rw [if_neg (by simp [hsilent, hl6]), ← herr]
  rfl

/-- A link that comes back to a running power die is taken up (R488). -/
theorem dieLinkRestored_ready {s : State} (hon : s.pd.on = true) (hpgood : s.pgood = true) (hl6 : s.pd.l6 = false) (hdown : s.pdUp = false) :
    exec .dieLinkRestored s = finish s s.dieLinkUp :=
  congrArg (finish s) (if_pos (by simp [hon, hpgood, hl6, hdown]))

/-- A mirror that agrees stays as it is (R487). -/
theorem mirrorCompare_agree {s : State} (h : ∀ a, pdMirrored a = true → s.reg a = s.pdReg a) : s.mirrorCompare = s := by
  have hkeys (l : List Nat) : l.filter (fun a => pdMirrored a && s.reg a != s.pdReg a && !(s.pdWrites.any (fun w => w.addr = a))) = [] := by
    refine List.filter_eq_nil_iff.2 fun a _ => ?_
    by_cases ha : pdMirrored a = true
    · simp [h a ha]
    · simp [ha]
  unfold State.mirrorCompare
  rw [hkeys]
  rfl

/-- A push without an error brings its measured words (R486). -/
theorem dieLinkPush_good {s : State} (hup : s.pdUp = true) (words : List (Nat × Word)) :
    s.dieLinkPush false words =
      words.foldl (fun (s : State) e => if pdMeasured e.1 then s.pdSet e.1 (e.2 &&& fieldMask e.1) else s) s := by
  unfold State.dieLinkPush
  rw [if_neg (by simp [hup]), if_neg Bool.false_ne_true]

/-! ### Supplies (R484) -/

/-- A dip that ended above the reset level, its least sample known. -/
theorem supplyDip_ended {s : State} {n mv : Nat} (us : Nat) (hwarned : bitOf (s.pdReg rPD_SUP_STATUS) n = true)
    (habove : bitOf (s.pdReg rPD_SUP_STATUS) (n + 8) = false) (hmv : mv < 65536) :
    let t := (s.supBelow n false).pdOr rPD_SUP_DIP (2 ^ n)
    let u := (t.pdSet (rPD_SUP_LAST n) (toW (mv * 2 ^ 16 + min 65535 us))).pdInc rPD_CNT_DIP
    s.supplyDip n (some mv) us = ((u.pdEvent 0x0C n ([toB n] ++ beBytes 2 mv ++ beBytes 3 us)).pdRaise 105).pdIrq 0xF1 2 := by
  have hword : mv % 2 ^ 16 = mv := Nat.mod_eq_of_lt hmv
  unfold State.supplyDip
  rw [if_neg (by simp [hwarned, habove])]
  simp only [Option.getD_some, hword]

/-! ### Discrete lines (R490, R492, R493) -/

/-- A new edge of an input is shown with its interrupt, counted where its edge is selected, recorded where its count is due, and may wake (R490). -/
theorem diEdge_new {s : State} {n : Nat} {level : Bool} (h : bitOf (s.pdReg (rPD_DIO_IN (n / 4))) (n % 4) ≠ level) :
    let cfg := s.pdReg (rPD_DI_CFG (n / 4) (n % 4))
    let t := s.pdSet (rPD_DIO_IN (n / 4)) (toW (natPut (s.pdReg (rPD_DIO_IN (n / 4))).toNat (n % 4) (n % 4) (b2n level)))
    let u := (t.pdOr (rPD_DIO_EDGE (n / 4)) (2 ^ (if level then n % 4 else n % 4 + 4))).pdIrq (0xF4 + n / 4) 2
    let c := u.pdInc (rPD_DI_COUNT (n / 4) (n % 4))
    let due := fldOf cfg fPD_DI_CFG_ledger_en ≠ 0 ∧ (c.pdReg (rPD_DI_COUNT (n / 4) (n % 4))).toNat % 2 ^ fldOf cfg fPD_DI_CFG_ledger_m = 0
    let w := if (fldOf cfg fPD_DI_CFG_count_edge).testBit (if level then 0 else 1) then (if due then c.diRecord n else c) else u
    s.diEdge n level = if fldOf cfg fPD_DI_CFG_wake ≠ 0 then w.wakeBy [6] else w := by
  unfold State.diEdge
  dsimp only
  rw [if_neg h]
  simp only [bne_iff_ne, Bool.and_eq_true, decide_eq_true_eq]

/-- An edge of an input that is shown already adds nothing. -/
theorem diEdge_same {s : State} {n : Nat} {level : Bool} (h : bitOf (s.pdReg (rPD_DIO_IN (n / 4))) (n % 4) = level) : s.diEdge n level = s :=
  if_pos h

/-- An output that is shorted while it conducts is latched off. -/
theorem doShort_on {s : State} {n : Nat} (h : s.outOn (n / 4) (n % 4) = true) :
    let t : State := { s with pd := { s.pd with latched := s.pd.latched ||| 2 ^ n } }
    s.doShort n false = ((((t.pdOr (rPD_DIO_DIAG (n / 4)) (2 ^ (n % 4))).pdIrq (0xF4 + n / 4) 3).outShow (n / 4)).pdEvent 0x10 n
      [toB n, toB 0]).pdRaise 107 (0xF4 + n / 4) := by
  unfold State.doShort
  dsimp only
  rw [if_neg (by simp [h])]
  rfl

/-- An open load at an output that conducts, with its detection on, is reported. -/
theorem doOpenLoad_on {s : State} {n : Nat} (h : s.outOn (n / 4) (n % 4) = true)
    (hdet : s.pdFlag (rPD_DO_CFG (n / 4) (n % 4)) fPD_DO_CFG_open_det = true) :
    s.doOpenLoad n = (((s.pdOr (rPD_DIO_DIAG (n / 4)) (2 ^ (n % 4 + 4))).pdIrq (0xF4 + n / 4) 3).pdEvent 0x11 n [toB n]).pdRaise 108
      (0xF4 + n / 4) :=
  if_pos (by simp [h, hdet])

/-- An output armed for the unit that triggers takes its level, unless it is latched off. -/
theorem doTimed_armed {s : State} {u g i : Nat} (harm : s.pdGet (rPD_DO_TIMED g i) fPD_DO_TIMED_arm = 1)
    (hunit : s.pdGet (rPD_DO_TIMED g i) fPD_DO_TIMED_unit = u) (hlatched : s.pd.latched.testBit (4 * g + i) = false) :
    let t := (s.pdPut (rPD_DO_TIMED g i) fPD_DO_TIMED_arm 0).pdIrq (0xF4 + g) 4
    s.doTimed u g i = (t.pdSet (rPD_DIO_OUT g) (toW (natPut (t.pdReg (rPD_DIO_OUT g)).toNat i i
      (s.pdGet (rPD_DO_TIMED g i) fPD_DO_TIMED_level)))).outShow g := by
  intro t
  unfold State.pdGet at harm hunit
  unfold State.doTimed
  dsimp only
  rw [if_neg (by simp [harm, hunit]), if_neg (by simp [hlatched])]
  rfl

/-! ### The statement -/

/-- Settles O56: each clause is the model's rule for its case. The choices it rests on are log entry 80 (a forwarded write that waits at silence is
dropped), 56 (arguments of events, the mirror), 57 and 58 (outputs and supplies). -/
theorem dieLinkSuppliesAndLines : Obligations.DieLinkSuppliesAndLines := by
  constructor
  · intro s q v sent
    have hsent {a : Nat} {c : Instr} (hc : exec c s = finish s (s.writeReg q a v fun _ t => t)) (hf : s.forwards q a v) :
        ∃ T : State, exec c s = .next (s.finished T) ∧ sent a T := ⟨_, hc, writeReg_forwarded hf _⟩
    refine ⟨hsent rfl, hsent rfl, fun g => ⟨hsent rfl, hsent rfl, hsent rfl⟩, ?waiting, ?outputs, fun hclear => if_pos hclear, otpProg_row, ?silent,
      dieLinkRestored_ready, ?mirror, ?push⟩
    case waiting => exact fun w rest hwaiting => ⟨congrArg (finish s) (pdAck_cons hwaiting), exec_pdWriteResend_cons hwaiting⟩
    case outputs => exact fun g => ⟨pdWrite_dioOut s v g, pdWrite_dioSet s v g, pdWrite_dioClr s v g⟩
    case silent => exact fun hsilent hl6 hactive => congrArg (finish s) (dieSilent_fresh hsilent hl6 hactive)
    case mirror =>
      intro hup hon hagree
      exact congrArg (finish s) ((if_pos (by simp [hup, hon])).trans (mirrorCompare_agree hagree))
    case push =>
      intro words hon hup
      exact congrArg (finish s) ((pdDo_on hon _).trans (dieLinkPush_good hup words))
  · intro s hon
    have hdo {c : Instr} {f : State → State} {t : State} (hc : exec c s = finish s (s.pdDo f)) (hf : f s = t) :
        exec c s = .next (s.finished t) := hc.trans (congrArg (finish s) ((pdDo_on hon f).trans hf))
    refine ⟨?warning, ?dip, ?brownout, ?bank, ?edge, ?shown, ?output, ?trigger, ?armed, ?temperature⟩
    case warning => exact fun n hsup => hdo rfl (if_pos hsup)
    case dip => exact fun n mv us hwarned habove hmv => hdo rfl (supplyDip_ended us hwarned habove hmv)
    case brownout => exact fun n hsup => hdo rfl (if_pos hsup)
    case bank => exact fun c hsup => ⟨hdo rfl (if_pos hsup), hdo rfl (if_pos hsup)⟩
    case edge => exact fun n level hnew => hdo rfl (diEdge_new hnew)
    case shown => exact fun n level hsame => hdo rfl (diEdge_same hsame)
    case output => exact fun n hout => ⟨hdo rfl (doShort_on hout), fun hdet => hdo rfl (doOpenLoad_on hout hdet)⟩
    case trigger =>
      intro u
      exact ⟨fun hnone => congrArg (finish s) (if_neg (by rw [hnone]; exact Bool.false_ne_true)), fun htrig => congrArg (finish s) (if_pos htrig)⟩
    case armed => exact fun u g i => doTimed_armed
    case temperature => exact hdo rfl rfl

end Sys2Proof.Machine
end

section
/-! PROOF. The queue of commands (log entry 1): a step executes the front command, every command ends with `finish`, and n steps work off n commands. -/
namespace Sys2Proof.Machine

/-- A step executes the front command with the queue's rest. -/
theorem step_of_pending {s : State} {c : Instr} {rest : List Instr} (h : s.pending = c :: rest) : step s = exec c { s with pending := rest } := by
  unfold step
  rw [h]
  rfl

/-- Settles O1: the match of `step` on the queue. -/
theorem stepRunsTheFrontCommand : Obligations.StepRunsTheFrontCommand :=
  fun _ _ _ => step_of_pending

/-- Every row of the dispatch ends with `finish`, whatever its effect is. -/
theorem exec_eq_finish (c : Instr) (s : State) : ∃ t, exec c s = finish s t := by
  cases c <;> exact ⟨_, rfl⟩

/-- A step with a command waiting answers a state with the queue's rest, and leaves no fault event. -/
theorem step_next_of_pending {s : State} {c : Instr} {rest : List Instr} (h : s.pending = c :: rest) :
    ∃ t, step s = .next t ∧ t.pending = rest ∧ t.Settled := by
  obtain ⟨u, hu⟩ := exec_eq_finish c { s with pending := rest }
  exact ⟨_, (step_of_pending h).trans hu, rfl, finished_raises ..⟩

theorem run_succ_of_next {s t : State} (h : step s = .next t) (n : Nat) : s.run (n + 1) = t.run n := by
  rw [State.run, h]

/-- Settles O4, by induction on the number of steps: each takes the front command off and leaves no fault event. -/
theorem waitingCommandsAreWorkedOff : Obligations.WaitingCommandsAreWorkedOff := by
  intro s n hn
  induction n generalizing s with
  | zero => exact ⟨s, rfl, rfl, fun h => absurd rfl h⟩
  | succ n ih =>
    cases hq : s.pending with
    | nil => simp [hq] at hn
    | cons c rest =>
      obtain ⟨u, hstep, hrest, hsettled⟩ := step_next_of_pending hq
      obtain ⟨t, hrun, hleft, hlast⟩ := ih u (by simpa [hrest, hq] using hn)
      refine ⟨t, (run_succ_of_next hstep n).trans hrun, by rw [hleft, hrest, List.drop_succ_cons], fun _ => ?_⟩
      cases n with
      | zero => cases hrun; exact hsettled
      | succ n => exact hlast n.succ_ne_zero

end Sys2Proof.Machine
end

section
/-! PROOF. Receive queues of the DMA channels (R209 to R211, R304 to R307): the ring's tail, the overflow reserve, deliveries and the stall. -/
namespace Sys2Proof.Machine

/-- A command that is one accepted register write completes with status 0 and has the register's effect. -/
theorem exec_writeReg_accepted {s t : State} {q : Req} {a : Nat} {v : Word} {c : Instr} {fx : Word → State → State}
    (hc : exec c s = finish s (s.writeReg q a v fx)) (ha : s.accepts q a v) (hfx : fx v s = t) : exec c s = .next (s.finished (t.wrote q 0)) := by
  rw [hc, writeReg_accepted ha, hfx, finish_eq]

/-- A frame of a flow that heads the deliveries at a receive port goes to its queue, and then the frames that wait there (R211). -/
theorem rxStep_of_flow {s : State} {o : Nat} {d : Delivered} {rest : List Delivered} (hout : s.outbox o = d :: rest) (hkind : d.frame.kind = 0)
    (hport : o = 4 ∨ o = 5 ∨ o = 6 ∨ o = 14) (host : List (Nat × Byte)) :
    s.rxStep o host = ((s.setOutbox o rest).rxFrame o host d).rxPumpPort o host := by
  unfold State.rxStep
  simp [hout, hkind, hport, or_assoc]

/-- With no buffer to be had the stall ends the first waiting frame as truncated: its unread cells go, and it is counted (R211). -/
theorem rxStall_of_dry {s : State} {c : Nat} {o : RxOpen} {rest : List RxOpen} (hon : s.enabled (0x50 + c) = true) (hopen : (s.dma c).open_ = o :: rest)
    (hdry : s.chState c ≠ 5 ∨ s.get (rDMA_RX_HEAD c) fDMA_RX_HEAD_head = s.get (rDMA_RX_TAIL c) fDMA_RX_TAIL_tail) :
    let head := if s.flag (rDMA_RX_CFG c) fDMA_RX_CFG_header then 0 else 24
    let t := (s.setDma c { s.dma c with open_ := rest }).discardCells o.d.orig (o.d.frame.cells - (o.pos + head) / 128)
    s.rxStall c = (((t.inc (rDMA_CNT_STALL c)).irq (0x50 + c) 7).rxFinish c o 1).rxPump 16 c [] := by
  have hguard : ¬ (decide (s.chState c = 5) &&
      (s.get (rDMA_RX_HEAD c) fDMA_RX_HEAD_head != s.get (rDMA_RX_TAIL c) fDMA_RX_TAIL_tail)) = true := by
    rcases hdry with h | h <;> simp [h]
  unfold State.rxStall
  simp only [hon, hguard, hopen, Bool.not_true, Bool.false_eq_true, if_false]

/-- While the ring holds a buffer no stall is due (R211). -/
theorem rxStall_of_buffer {s : State} {c : Nat} (hon : s.enabled (0x50 + c) = true) (hstate : s.chState c = 5)
    (hring : s.get (rDMA_RX_HEAD c) fDMA_RX_HEAD_head ≠ s.get (rDMA_RX_TAIL c) fDMA_RX_TAIL_tail) : s.rxStall c = s := by
  unfold State.rxStall
  simp [hon, hstate, hring]

/-- Settles O31: each clause is the channel's own rule for its case. That frames waiting at a ring in this hub's memory go on within the write
of the tail, and the others at the next RX_FRAME_WRITE, is log entry 42. -/
theorem receiveQueuesAct : Obligations.ReceiveQueuesAct := by
  intro s q c
  refine ⟨fun v ha => ⟨fun hfits => exec_writeReg_accepted rfl ha (if_neg (Nat.not_lt.2 hfits)), fun hover => exec_writeReg_accepted rfl ha (if_pos hover)⟩,
    fun v ha => ⟨fun hroom => exec_writeReg_accepted rfl ha (if_neg (Nat.not_le.2 hroom)), fun hfull => exec_writeReg_accepted rfl ha (if_pos hfull)⟩, ?pop, ?deliver, fun hon =>
    ⟨fun o rest hopen hdry => congrArg (finish s) (rxStall_of_dry hon hopen hdry), fun h5 hring => congrArg (finish s) (rxStall_of_buffer hon h5 hring)⟩⟩
  case pop =>
    intro mp wide i rest hread hfifo
    exact congrArg (finish s) (popRead_some hread wide 0 i (rsvPop c) (by simp only [rsvPop, hfifo]))
  case deliver => exact fun o host d rest hout hkind hport => congrArg (finish s) (rxStep_of_flow hout hkind (by omega) host)

end Sys2Proof.Machine
end

section
/-! PROOF. Local memory as host requests reach it (R21, R22, R24, R26, R28, R161): octets and words, the ranges, and what an access completes with. -/
namespace Sys2Proof.Machine

/-! ### Octets and words (R590) -/

theorem length_leBytes (n v : Nat) : (leBytes n v).length = n := by
  induction n generalizing v with
  | zero => rfl
  | succ n ih => rw [leBytes, List.length_cons, ih]

/-- Octet i of a number, least significant first. -/
theorem getElem_leBytes (n v i : Nat) (h : i < (leBytes n v).length) : (leBytes n v)[i] = toB (v / 256 ^ i) := by
  induction n generalizing v i with
  | zero => simp [leBytes] at h
  | succ n ih =>
    cases i with
    | zero => simp [leBytes]
    | succ i => simp only [leBytes, List.getElem_cons_succ, ih, Nat.div_div_eq_div_mul, Nat.pow_succ']

/-- The octets of a number stand for it. -/
theorem leNat_leBytes (n v : Nat) : leNat (leBytes n v) = v % 256 ^ n := by
  induction n generalizing v with
  | zero => simp [leBytes, leNat, Nat.mod_one]
  | succ n ih =>
    have hlow : (toB v).toNat = v % 256 := BitVec.toNat_ofNat v 8
    rw [leBytes, leNat, hlow, ih, Nat.pow_succ', Nat.mod_mul]

/-- The octets of a range, one by one. -/
theorem bytes_eq_map (s : State) (a n : Nat) : s.bytes a n = (List.range n).map fun i => s.byte (a + i) := by
  induction n generalizing a with
  | zero => rfl
  | succ n ih =>
    rw [State.bytes, ih, List.range_succ_eq_map, List.map_cons, List.map_map]
    simp only [Function.comp_def, Nat.add_zero, Nat.succ_eq_add_one, Nat.add_right_comm a 1]
    rfl

/-- What is written to a range is read back from it. -/
theorem bytes_setBytes (s : State) (a : Nat) (l : List Byte) : (s.setBytes a l).bytes a l.length = l := by
  rw [bytes_eq_map]
  refine List.ext_getElem (by simp) fun i h h' => ?_
  rw [List.getElem_map, List.getElem_range, byte_setBytes_in s a i l h']

theorem word_setWord (s : State) (a : Nat) (w : Word) : (s.setWord a w).word a = w := by
  have hbytes : (s.setWord a w).bytes a 4 = leBytes 4 w.toNat := bytes_setBytes s a (leBytes 4 w.toNat)
  have hw : w.toNat % 256 ^ 4 = w.toNat := Nat.mod_eq_of_lt w.isLt
  rw [State.word, hbytes, leNat_leBytes, hw, toW, BitVec.ofNat_toNat, BitVec.setWidth_eq]

/-- The octets of a word lie from the least significant upwards at rising addresses. -/
theorem byte_setWord (s : State) (a : Nat) (w : Word) {i : Nat} (h : i < 4) : (s.setWord a w).byte (a + i) = w.extractLsb' (8 * i) 8 := by
  have hlen : i < (leBytes 4 w.toNat).length := by rwa [length_leBytes]
  rw [State.setWord, byte_setBytes_in s a i _ hlen, getElem_leBytes]
  apply BitVec.eq_of_toNat_eq
  rw [toB, BitVec.toNat_ofNat, BitVec.extractLsb'_toNat, Nat.shiftRight_eq_div_pow, Nat.pow_mul]

theorem byte_setWord_out (s : State) (a : Nat) (w : Word) {b : Nat} (h : b < a ∨ a + 4 ≤ b) : (s.setWord a w).byte b = s.byte b :=
  byte_setBytes_out s a b _ (by rwa [length_leBytes])

/-! ### Ranges (R21, R22) -/

/-- An access whose ends lie in one range other than the xSPI devices lies in it. -/
theorem memRange_of_region {s : State} {a n : Nat} {r : Region} (hfirst : regionOf a = some r) (hlast : regionOf (a + n - 1) = some r)
    (h0 : r ≠ .cs0) (h1 : r ≠ .cs1) : s.memRange a n = some r := by
  unfold State.memRange
  simp [hfirst, hlast, h0, h1]

theorem memRange_of_hole {a : Nat} (s : State) (h : regionOf a = none) (n : Nat) : s.memRange a n = none := by
  unfold State.memRange
  rw [h]

/-- The bounds of general SRAM. -/
theorem general_bounds {a : Nat} (h : regionOf a = some .general) : 0x1C0000 ≤ a ∧ a < 0x300000 := by
  unfold regionOf at h
  split_ifs at h <;> simp_all

theorem regionOf_cs0 {a : Nat} (h : 0x20000000 ≤ a) (h' : a < 0x30000000) : regionOf a = some .cs0 := by
  unfold regionOf
  rw [if_neg (by omega), if_neg (by omega), if_neg (by omega), if_neg (by omega), if_neg (by omega), if_neg (by omega), if_neg (by omega),
    if_pos (by simp [h, h'])]

/-- Above the fitted size of the device on CS0 there is no memory (R22). -/
theorem memRange_above_fitted {s : State} {a n : Nat} (h : 0x20000000 ≤ a) (hn : 0 < n) (hend : a + n ≤ 0x30000000)
    (hfit : s.fitted 0 < a + n - 0x20000000) : s.memRange a n = none := by
  have hfirst : regionOf a = some .cs0 := regionOf_cs0 h (by omega)
  have hlast : regionOf (a + n - 1) = some .cs0 := regionOf_cs0 (by omega) (by omega)
  unfold State.memRange
  simp [hfirst, hlast, hfit]

/-- The octets of general SRAM are those of local memory. -/
theorem octets_general {s : State} {a n : Nat} (hfirst : regionOf a = some .general) (hlast : regionOf (a + n - 1) = some .general) :
    s.octets a n = (List.range n).map fun i => s.byte (a + i) := by
  have hbound := general_bounds hfirst
  have hbound' := general_bounds hlast
  refine List.map_congr_left fun i hi => ?_
  have hi' := List.mem_range.1 hi
  exact if_neg (by omega)

/-! ### Host requests to memory -/

section Requests

variable {s : State} {q : Req} {a : Nat}

/-- A read outside the register pages is answered at once with what memory says. -/
theorem exec_hostRead {n st : Nat} {l : List Byte} {t : State} (ha : inPages a = false) (pf : Bool) (h : s.memReadReq q a n = (st, l, t)) :
    exec (.hostRequest q a (.read n pf)) s = .next (s.finished (t.done q st l)) := by
  change execHostRequest q a (.read n pf) s = _
  unfold execHostRequest State.readAccess
  simp only [ha, h, Bool.false_eq_true, if_false]
  rfl

/-- A write outside the register pages is answered at once with what memory says. -/
theorem exec_hostWrite {bs : List Byte} {st : Nat} {t : State} (ha : inPages a = false) (h : s.memWriteReq q a bs = (st, t)) :
    exec (.hostRequest q a (.write bs)) s = .next (s.finished (t.wrote q st)) := by
  change execHostRequest q a (.write bs) s = _
  unfold execHostRequest State.writeAccess
  simp only [ha, h, Bool.false_eq_true, if_false]
  rfl

/-- A read that memory turns away, other than for a missing address, has no effect. -/
theorem memReadReq_refused {n st : Nat} (h : s.memReadStatus q.master (s.levelOf q) a n = st) (h0 : st ≠ 0) (h1 : st ≠ 1) :
    s.memReadReq q a n = (st, [], s) := by
  unfold State.memReadReq
  simp only [h, h0, h1, if_false]

theorem memReadReq_missing {n : Nat} (h : s.memRange a n = none) :
    s.memReadReq q a n = (1, [], s.fault (accessEv 48 0xFFF q 1 n a)) := by
  have hstatus : s.memReadStatus q.master (s.levelOf q) a n = 1 := by unfold State.memReadStatus; rw [h]
  unfold State.memReadReq
  simp only [hstatus, if_true]

/-- A write that memory turns away, other than for a missing address, has no effect. -/
theorem memWriteReq_refused {bs : List Byte} {st : Nat} (h : s.memWriteStatus q.master (s.levelOf q) a bs.length = st) (h0 : st ≠ 0) (h1 : st ≠ 1) :
    s.memWriteReq q a bs = (st, s) := by
  unfold State.memWriteReq
  simp only [h, h0, h1, if_false]

theorem memWriteReq_missing {bs : List Byte} (h : s.memRange a bs.length = none) :
    s.memWriteReq q a bs = (1, s.fault (accessEv 48 0xFFF q 2 bs.length a)) := by
  have hstatus : s.memWriteStatus q.master (s.levelOf q) a bs.length = 1 := by unfold State.memWriteStatus; rw [h]
  unfold State.memWriteReq
  simp only [hstatus, if_true]

theorem memWriteReq_taken {bs : List Byte} (h : s.memWriteStatus q.master (s.levelOf q) a bs.length = 0) :
    s.memWriteReq q a bs = (0, s.memStore a bs) := by
  unfold State.memWriteReq
  simp only [h, zero_ne_one, if_false, if_true]

/-- What a read of general SRAM completes with. -/
theorem memReadStatus_general {n : Nat} (hfirst : regionOf a = some .general) (hlast : regionOf (a + n - 1) = some .general) :
    s.memReadStatus q.master (s.levelOf q) a n = if s.levelOf q = .guest then 2 else if memShape a n then 0 else 3 := by
  unfold State.memReadStatus
  rw [memRange_of_region hfirst hlast (by decide) (by decide)]
  cases memShape a n <;> simp

/-- What a write of general SRAM completes with, clear of the reserved areas and of the table window. -/
theorem memWriteStatus_general {n : Nat} (hfirst : regionOf a = some .general) (hlast : regionOf (a + n - 1) = some .general)
    (hfree : s.levelOf q = .guest ∨ s.reservedArea q.master a n = false ∧ s.touchesWindow a n = false) :
    s.memWriteStatus q.master (s.levelOf q) a n = if s.levelOf q = .guest then 2 else if memShape a n then 0 else 3 := by
  unfold State.memWriteStatus
  rw [memRange_of_region hfirst hlast (by decide) (by decide)]
  rcases hfree with hguest | ⟨hreserved, hwindow⟩
  · simp [hguest]
  · cases memShape a n <;> simp [hreserved, hwindow]

/-- An allowed read of general SRAM brings the octets there, and has no other effect. -/
theorem memReadReq_general {n : Nat} (hfirst : regionOf a = some .general) (hlast : regionOf (a + n - 1) = some .general)
    (hlevel : s.levelOf q ≠ .guest) (hshape : memShape a n = true) :
    s.memReadReq q a n = (0, (List.range n).map fun i => s.byte (a + i), s) := by
  have hstatus : s.memReadStatus q.master (s.levelOf q) a n = 0 := by simp [memReadStatus_general hfirst hlast, hlevel, hshape]
  have hbound := general_bounds hfirst
  have hflow : ¬ (decide (0x100000 ≤ a) && decide (a < 0x1C0000)) = true := by simp; omega
  unfold State.memReadReq
  simp only [hstatus, zero_ne_one, if_false, if_true, if_neg hflow, octets_general hfirst hlast]

end Requests

/-- Settles O37: the status of each access, and what the store of an accepted one leaves. A Guest's access of general SRAM of another shape is
refused for its level, and a misaligned access within its line is served, by the model's choice (log entries 23 and 97). -/
theorem hostRequestsReachMemory : Obligations.HostRequestsReachMemory := by
  refine ⟨fun s q a ha => ⟨?read, ?write, ?guest, ?readOnly, ?index, ?missingRead, ?missingWrite, memRange_of_hole s,
    fun n h _ hn hend hfit => memRange_above_fitted h hn hend hfit⟩,
    fun s a w => ⟨word_setWord s a w, fun i hi => byte_setWord s a w hi, fun b hb => byte_setWord_out s a w hb⟩⟩
  case read =>
    intro n pf hfirst hlast hlevel
    refine ⟨fun hshape => exec_hostRead ha pf (memReadReq_general hfirst hlast hlevel hshape), fun hshape => exec_hostRead ha pf ?_⟩
    exact memReadReq_refused (by simp [memReadStatus_general hfirst hlast, hlevel, hshape]) (by decide) (by decide)
  case write =>
    intro bs n hfirst hlast hlevel hreserved hwindow
    have hstatus := memWriteStatus_general (q := q) hfirst hlast (.inr ⟨hreserved, hwindow⟩)
    refine ⟨fun hshape => ⟨exec_hostWrite ha ?_, bytes_setBytes s a bs, fun b hb => byte_setBytes_out s a b bs hb⟩, fun hshape => exec_hostWrite ha ?_⟩
    · rw [memWriteReq_taken (by simp [n, hstatus, hlevel, hshape]), State.memStore, hfirst]
    · exact memWriteReq_refused (by simp [n, hstatus, hlevel, hshape]) (by decide) (by decide)
  case guest =>
    intro n pf bs hfirst hguest
    refine ⟨fun hlast => exec_hostRead ha pf ?_, fun hlast => exec_hostWrite ha ?_⟩
    · exact memReadReq_refused ((memReadStatus_general hfirst hlast).trans (if_pos hguest)) (by decide) (by decide)
    · exact memWriteReq_refused ((memWriteStatus_general hfirst hlast (.inl hguest)).trans (if_pos hguest)) (by decide) (by decide)
  case readOnly =>
    intro bs r hr hfirst hlast
    have hrange : s.memRange a bs.length = some r := memRange_of_region hfirst hlast (by rcases hr with rfl | rfl <;> decide)
      (by rcases hr with rfl | rfl <;> decide)
    have hstatus : s.memWriteStatus q.master (s.levelOf q) a bs.length = 4 := by
      unfold State.memWriteStatus
      rcases hr with rfl | rfl <;> simp [hrange]
    exact exec_hostWrite ha (memWriteReq_refused hstatus (by decide) (by decide))
  case index =>
    intro bs hfirst hlast hshape
    have hstatus : s.memWriteStatus q.master (s.levelOf q) a bs.length = 0 := by
      unfold State.memWriteStatus
      simp [memRange_of_region hfirst hlast (by decide) (by decide), hshape]
    refine exec_hostWrite ha ?_
    rw [memWriteReq_taken hstatus, State.memStore, hfirst]
  case missingRead => exact fun n pf h => exec_hostRead ha pf (memReadReq_missing h)
  case missingWrite => exact fun bs h => exec_hostWrite ha (memWriteReq_missing h)

end Sys2Proof.Machine
end

section
/-! PROOF. The page header and the checks of a register access (R29 to R40, R46, R274): what PG_CTRL and its neighbours do when a write is accepted, what
REGISTER_WRITE completes with, the value that PG_LOCK leaves, and accesses of unpopulated pages. -/
namespace Sys2Proof.Machine

/-! ### PG_CTRL (R31 to R33, R40) -/

/-- PG_CTRL.enable that has been set is up. -/
theorem enable_put_one (s : State) (a : Nat) : (s.put a fPG_CTRL_enable 1).flag a fPG_CTRL_enable = true := by
  unfold State.flag
  rw [get_put_same s a fPG_CTRL_enable 1 (by decide) (by decide)]
  decide

theorem flag_put_other (s : State) (a : Nat) (f g : Fld) (v : Nat) (h : f.lo ≤ f.hi) (h' : f.hi < 32) (hg : g.hi < f.lo ∨ f.hi < g.lo) :
    (s.put a f v).flag a g = s.flag a g := by
  unfold State.flag
  rw [get_put_other s a f g v h h' hg]

theorem flag_put_ne (s : State) {a b : Nat} (f g : Fld) (v : Nat) (h : b ≠ a) : (s.put a f v).flag b g = s.flag b g :=
  flag_congr g (reg_setReg_ne _ _ h)

section PageControl

variable {s : State} {q : Req} {p : Nat} {v : Word}

/-- enable written 1 on a disabled block that may be enabled: the block starts. -/
theorem pgCtrl_enables (henable : fldOf v fPG_CTRL_enable = 1) (hexpert : fldOf v fPG_CTRL_expert = 0) (hreset : fldOf v fPG_CTRL_block_reset = 0)
    (hoff : s.flag (rPG_CTRL p) fPG_CTRL_enable = false) (hmay : s.mayEnable p = true) :
    s.pgCtrl q p v = (((((s.put (rPG_CTRL p) fPG_CTRL_enable 1).onEnable p).pumpPage p).ringEnable p true).put (rPG_CTRL p) fPG_CTRL_expert 0) := by
  have hon := enable_put_one s (rPG_CTRL p)
  simp [State.pgCtrl, henable, hexpert, hreset, hoff, hmay, hon]

/-- enable written 0 on an enabled block: the block stops. -/
theorem pgCtrl_disables (henable : fldOf v fPG_CTRL_enable = 0) (hexpert : fldOf v fPG_CTRL_expert = 0) (hreset : fldOf v fPG_CTRL_block_reset = 0)
    (hwas : s.flag (rPG_CTRL p) fPG_CTRL_enable = true) :
    s.pgCtrl q p v = ((((s.put (rPG_CTRL p) fPG_CTRL_enable 0).onDisable p).ringEnable p false).put (rPG_CTRL p) fPG_CTRL_expert 0) := by
  simp [State.pgCtrl, henable, hexpert, hreset, hwas]

section Kept

variable (henable : fldOf v fPG_CTRL_enable = 1) (hwas : s.flag (rPG_CTRL p) fPG_CTRL_enable = true)
include henable hwas

/-- A block reset comes last, and keeps enable. -/
theorem pgCtrl_resets (hexpert : fldOf v fPG_CTRL_expert = 0) (hreset : fldOf v fPG_CTRL_block_reset = 1) (hhas : hasBlockReset p = true) :
    s.pgCtrl q p v = ((s.put (rPG_CTRL p) fPG_CTRL_enable 1).put (rPG_CTRL p) fPG_CTRL_expert 0).blockReset p := by
  simp [State.pgCtrl, henable, hexpert, hreset, hhas, hwas]

variable (hexpert : fldOf v fPG_CTRL_expert = 1) (hreset : fldOf v fPG_CTRL_block_reset = 0)
  (hclosed : s.flag (rPG_CTRL p) fPG_CTRL_expert = false)
include hexpert hreset hclosed

theorem pgCtrl_unlocks (hunlock : fldOf v fPG_CTRL_unlock = 0x5A) (hlock : s.flag (rPG_LOCK p) fPG_LOCK_lock = false) :
    s.pgCtrl q p v = (s.put (rPG_CTRL p) fPG_CTRL_enable 1).put (rPG_CTRL p) fPG_CTRL_expert 1 := by
  have hclosed' := (flag_put_other s (rPG_CTRL p) fPG_CTRL_enable fPG_CTRL_expert 1 (by decide) (by decide) (by decide)).trans hclosed
  have hlock' := (flag_put_ne s fPG_CTRL_enable fPG_LOCK_lock 1 (a := rPG_CTRL p) (b := rPG_LOCK p) (by unfold rPG_CTRL rPG_LOCK; omega)).trans hlock
  simp [State.pgCtrl, henable, hwas, hexpert, hunlock, hreset, hclosed', hlock']

/-- Another unlock code opens nothing (R40). -/
theorem pgCtrl_wrong_unlock (hunlock : fldOf v fPG_CTRL_unlock ≠ 0x5A) :
    s.pgCtrl q p v = (s.put (rPG_CTRL p) fPG_CTRL_enable 1).expertRefused p := by
  have hclosed' := (flag_put_other s (rPG_CTRL p) fPG_CTRL_enable fPG_CTRL_expert 1 (by decide) (by decide) (by decide)).trans hclosed
  simp [State.pgCtrl, henable, hwas, hexpert, hunlock, hreset, hclosed']

end Kept

end PageControl

/-! ### The other header registers (R34 to R38, R274) -/

section Header

variable {s : State} {p : Nat} {v : Word}

theorem pgInject_absent (h : (checkersOf p).testBit (fldOf v fPG_FAULT_INJ_checker) = false) : s.pgInject p v = s :=
  if_pos (by simp [h])

/-- A checker that is present, other than that of the event pairs, is armed. -/
theorem pgInject_arms (h : (checkersOf p).testBit (fldOf v fPG_FAULT_INJ_checker) = true) (h5 : fldOf v fPG_FAULT_INJ_checker ≠ 5)
    (harm : fldOf v fPG_FAULT_INJ_arm = 1) :
    s.pgInject p v = ((s.put (rPG_FAULT_INJ p) fPG_FAULT_INJ_checker (fldOf v fPG_FAULT_INJ_checker)).put (rPG_FAULT_INJ p) fPG_FAULT_INJ_double
      (fldOf v fPG_FAULT_INJ_double)).put (rPG_FAULT_INJ p) fPG_FAULT_INJ_arm 1 := by
  unfold State.pgInject
  simp [h, h5, harm]

/-- A claim of host A, host B or Anise replaces the one that it presented. -/
theorem pgClaim_local {q : Req} {i : Nat} (hres : resourceOf p = some i) (hshut : s.claimShut q = false) :
    (q.master = 1 → s.pgClaim q p v = s.redecide i { s.claim i with hostA := v.toNat } 0) ∧
    (q.master = 2 → s.pgClaim q p v = s.redecide i { s.claim i with hostB := v.toNat } 0) ∧
    (q.master = 0 → s.pgClaim q p v = s.redecide i { s.claim i with anise := v.toNat } 0) := by
  refine ⟨fun hm => ?_, fun hm => ?_, fun hm => ?_⟩ <;> simp [State.pgClaim, hres, hshut, hm]

theorem pgLock_sets {q : Req} (hopen : s.flag (rPG_LOCK p) fPG_LOCK_lock = false) (hset : fldOf v fPG_LOCK_lock = 1) :
    s.pgLock q p v = (s.put (rPG_LOCK p) fPG_LOCK_lock 1).put (rPG_LOCK p) fPG_LOCK_locker q.master :=
  if_pos (by simp [hopen, hset])

end Header

/-! ### The checks of a write (R30, R34, R46) -/

section Checks

variable {s : State} {q : Req} {a : Nat} {v : Word}

theorem checkWrite_unpopulated (h : populated (a / 0x1000) = false) :
    s.checkWrite q a v = (.stop 1, s.fault (accessEv 48 0xFFF q 2 4 (0x10000000 + a))) := by
  unfold State.checkWrite
  dsimp only
  rw [h, if_pos (by decide)]

/-- A requester below the level of the page is turned away with status 2 and privilege_refused (R30, R46). -/
theorem checkWrite_of_level (hpage : populated (a / 0x1000) = true)
    (hlevel : lvlRank (s.levelOf q) < lvlRank (s.writeNeeds q (a / 0x1000) (a % 0x1000))) :
    s.checkWrite q a v = (.stop 2, s.privRefused (a / 0x1000)) := by
  unfold State.checkWrite
  dsimp only
  rw [hpage, if_neg (by decide), if_pos hlevel]

/-- Only a populated page lets a write pass. -/
theorem populated_of_accepts (h : s.accepts q a v) : populated (a / 0x1000) = true := by
  obtain ⟨-, hgo, -⟩ := h
  by_contra hp
  rw [checkWrite_unpopulated (by simpa using hp)] at hgo
  cases hgo

/-- The lock of the page of an accepted write is not set. -/
theorem lock_of_accepts {p : Nat} (h : s.accepts q a v) (hp : a / 0x1000 = p) : s.flag (rPG_LOCK p) fPG_LOCK_lock = false := by
  obtain ⟨-, -, hlock, -⟩ := h
  rwa [hp] at hlock

/-- A write that the checks turn away completes with their status and has no other effect. -/
theorem regAccessW_stopped {t : State} {st : Nat} (hbusy : s.pageBusy a = false) (herrn : a ≠ rFLT_ERRN_CLR) (hcheck : s.checkWrite q a v = (.stop st, t))
    (c : Cont) : s.regAccessW q a v c = (some st, t) := by
  unfold State.regAccessW State.regWriteHold
  rw [if_neg herrn, hbusy, if_neg Bool.false_ne_true, hcheck]

theorem exec_registerWrite (h : a < 0x100000) (halign : a % 4 = 0) :
    exec (.registerWrite q a v) s = finish s (answered q (s.regAccessW q a v (.done q))) := by
  have ha : a / 4 * 4 % 0x100000 = a := by omega
  change execRegisterWrite q a v s = _
  unfold execRegisterWrite
  rw [ha]

/-- The mask of a register whose one field is all 32 bits. -/
theorem storeWord_plain {old : Word} (h : regFields (a / 0x1000) (a % 0x1000) = [⟨31, 0, .rw, .v⟩]) : storeWord a old v = v := by
  have hrw : toW (accMask [⟨31, 0, .rw, .v⟩] .rw ||| accMask [⟨31, 0, .rw, .v⟩] .rwl) = BitVec.allOnes 32 := by decide
  have hw1c : toW (accMask [⟨31, 0, .rw, .v⟩] .w1c) = 0#32 := by decide
  have hw1s : toW (accMask [⟨31, 0, .rw, .v⟩] .w1s) = 0#32 := by decide
  unfold storeWord
  rw [h]
  simp only [hrw, hw1c, hw1s, BitVec.and_allOnes, BitVec.not_allOnes, BitVec.and_zero, BitVec.or_zero, BitVec.not_zero]

/-- PG_IRQ_EN is stored whole (R34). -/
theorem reg_store_irqEn {old : State} (hpage : populated (a / 0x1000) = true) (hoff : a % 0x1000 = 0x010) : (old.store a v).reg a = v := by
  have hfields : regFields (a / 0x1000) (a % 0x1000) = [⟨31, 0, .rw, .v⟩] := by
    rw [hoff]
    unfold regFields
    rw [if_pos (by decide), hpage]
    rfl
  rw [State.store, reg_setReg_same, storeWord_plain hfields]

end Checks

/-! ### PG_LOCK (R38) -/

theorem lockAdjust_locked {s : State} {a : Nat} (h : s.flag (rPG_LOCK (a / 0x1000)) fPG_LOCK_lock = true) (v : Word) :
    let m := toW (accMask (regFields (a / 0x1000) (a % 0x1000)) .rwl)
    s.lockAdjust a v = ((v &&& ~~~m) ||| (s.reg a &&& m),
      if v &&& m = s.reg a &&& m then s else s.refuse (a / 0x1000) fPG_STATUS_lock_refused) := by
  unfold State.lockAdjust
  dsimp only
  rw [h, if_pos rfl]

/-- A value taken from old within the mask and from v outside it. -/
theorem masked_and (v old m : Word) : ((v &&& ~~~m) ||| (old &&& m)) &&& m = old &&& m ∧ ((v &&& ~~~m) ||| (old &&& m)) &&& ~~~m = v &&& ~~~m := by
  constructor <;> ext i hi <;> by_cases h : m[i] <;> simp [h]

/-! ### Unpopulated pages (R30) -/

section Unpopulated

variable {s : State} {q : Req} {a : Nat} (ha : a < 0x100000) (halign : a % 4 = 0) (hpage : populated (a / 0x1000) = false)

/-- The offset of a page lies in the pages' range, 32 bits wide and aligned. -/
theorem inPages_add (ha : a < 0x100000) : inPages (0x10000000 + a) = true := by
  unfold inPages
  simp
  omega

include hpage in
/-- At the first word of a page without registers no register has a read rule of its own: it reads 0. -/
theorem regFetch_unpopulated (hoff : a % 0x1000 = 0) : regFetch q a s = (0, s) := by
  have hne (b : Nat) (hb : b % 0x1000 ≠ 0) : a ≠ b := fun h => hb (h ▸ hoff)
  have hpop : pop64 a = none := by
    unfold pop64
    rw [if_neg (hne _ (by decide)), if_neg (hne _ (by decide)), if_neg (hne _ (by decide)), if_neg (hne _ (by decide)),
      if_neg (by simp [hne (rDMA_RSV_POP (a / 0x1000 - 0x50)) (by unfold rDMA_RSV_POP; omega)]),
      if_neg (by simp [hne (rxx_TXS_POP (a / 0x1000 - 0x70)) (by unfold rxx_TXS_POP; omega)])]
  have hqueue : isNth a (rFQ_POP (a / 0x1000 - 0xB4) 0) 32 4 = false := by
    unfold isNth rFQ_POP
    simp
    omega
  have hview : regView q a s = 0 := by
    unfold regView headerView
    rw [if_pos (by omega), hpage, if_pos (by decide)]
  unfold regFetch
  rw [hpop]
  dsimp only
  rw [if_neg (hne _ (by decide)), if_neg (hne _ (by decide)), if_neg (hne _ (by decide)),
    if_neg (by simp [hne (rHBx_FENCE (a / 0x1000 - 0x68)) (by unfold rHBx_FENCE; omega)]),
    if_neg (by simp [hne (rCLOV_PMEM_DATA (a / 0x1000 - 0xA8)) (by unfold rCLOV_PMEM_DATA; omega)]),
    if_neg (by simp [hne (rCLOV_PMEM_DATA_INC (a / 0x1000 - 0xA8)) (by unfold rCLOV_PMEM_DATA_INC; omega)]), hqueue,
    if_neg (by simp), hview]
  rfl

/-- A 32-bit read of a register page that is not held. -/
theorem exec_pageRead {st n : Nat} {t : State} {pf : Bool} (ha : a < 0x100000) (halign : a % 4 = 0) (hbusy : s.pageBusy a = false)
    (h : s.regAccessR q a pf = (st, n, t)) :
    exec (.hostRequest q (0x10000000 + a) (.read 4 pf)) s = .next (s.finished (t.done q st (if st = 0 then leBytes 4 n else []))) := by
  have hshape : pageShape (0x10000000 + a) 4 = true := by unfold pageShape; simp; omega
  have hread : s.readPage q a 4 pf = (st, if st = 0 then leBytes 4 n else [], t) := by unfold State.readPage; rw [if_pos rfl, h]
  change execHostRequest q (0x10000000 + a) (.read 4 pf) s = _
  unfold execHostRequest State.readAccess
  simp only [inPages_add ha, hshape, Nat.add_sub_cancel_left, hbusy, hread, Bool.not_true, Bool.false_eq_true, if_true, if_false]
  rfl

/-- A 32-bit write of a register page. -/
theorem exec_pageWrite {st : Nat} {t : State} {v : Word} (ha : a < 0x100000) (halign : a % 4 = 0) (h : s.regAccessW q a v (.done q) = (some st, t)) :
    exec (.hostRequest q (0x10000000 + a) (.write (leBytes 4 v.toNat))) s = .next (s.finished (t.wrote q st)) := by
  have hlen : (leBytes 4 v.toNat).length = 4 := length_leBytes ..
  have hshape : pageShape (0x10000000 + a) 4 = true := by unfold pageShape; simp; omega
  have hword : toW (leNat (leBytes 4 v.toNat)) = v := by
    have hv : v.toNat % 256 ^ 4 = v.toNat := Nat.mod_eq_of_lt v.isLt
    rw [leNat_leBytes, hv, toW, BitVec.ofNat_toNat, BitVec.setWidth_eq]
  change execHostRequest q (0x10000000 + a) (.write (leBytes 4 v.toNat)) s = _
  unfold execHostRequest State.writeAccess
  simp only [inPages_add ha, hlen, hshape, Nat.add_sub_cancel_left, hword, h, Bool.not_true, Bool.false_eq_true, if_true, if_false]
  rfl

include hpage in
theorem pageGroup_unpopulated : pageGroup (a / 0x1000) = none := by
  unfold populated at hpage
  simpa using hpage

include hpage in
/-- PG_ID of an unpopulated page reads 0. -/
theorem regAccessR_id (pf : Bool) (hoff : a % 0x1000 = 0) : s.regAccessR q a pf = (0, 0, s) := by
  have hcheck : s.checkRead q a pf = (.go, s) := by
    unfold State.checkRead
    simp only [pageGroup_unpopulated hpage, hoff, if_true]
  unfold State.regAccessR State.readItem
  rw [hcheck]
  dsimp only
  rw [regFetch_unpopulated hpage hoff, if_neg (by simp [hoff])]

include hpage in
/-- Any other register of an unpopulated page is refused. -/
theorem regAccessR_other (pf : Bool) (hoff : a % 0x1000 ≠ 0) :
    s.regAccessR q a pf = (1, 0, s.fault (accessEv 48 0xFFF q 1 4 (0x10000000 + a))) := by
  have hcheck : s.checkRead q a pf = (.stop 1, s.fault (accessEv 48 0xFFF q 1 4 (0x10000000 + a))) := by
    unfold State.checkRead
    simp only [pageGroup_unpopulated hpage, hoff, if_false]
  unfold State.regAccessR State.readItem
  rw [hcheck]

end Unpopulated

/-! ### The statement -/

theorem headerFx_ctrl (q : Req) (p : Nat) (v : Word) (s : State) : headerFx q p 0x004 v s = s.pgCtrl q p v := rfl

/-- Settles O18: the header's registers, the checks that turn a write away, the lock's mask, and pages without registers, each by its rule above. -/
theorem pageHeadersAndRegisterChecks : Obligations.PageHeadersAndRegisterChecks := by
  refine ⟨fun s q p _ => ?header, fun s q a v ha halign herrn => ?write, fun s a v hlock => ?lock, fun s q a v pf ha halign hpage hbusy => ?unpopulated⟩
  case header =>
    refine ⟨fun hacc hoff hmay => ?_, fun hacc hwas => ?_, fun hacc hwas hhas => ?_, fun hacc hwas hclosed => ?_, fun hacc hwas hclosed => ?_,
      fun v hacc => exec_writeReg_accepted rfl hacc rfl, fun v hacc hvalid => exec_writeReg_accepted rfl hacc (if_pos hvalid),
      fun v hacc => ⟨fun habsent => exec_writeReg_accepted rfl hacc (pgInject_absent habsent),
        fun hpresent h5 harm => exec_writeReg_accepted rfl hacc (pgInject_arms hpresent h5 harm)⟩,
      fun v i hacc hres hshut => ?claim, fun v hacc hset => ?lockSet⟩
    · exact exec_writeReg_accepted rfl hacc ((headerFx_ctrl ..).trans (pgCtrl_enables (by decide) (by decide) (by decide) hoff hmay))
    · exact exec_writeReg_accepted rfl hacc ((headerFx_ctrl ..).trans (pgCtrl_disables (by decide) (by decide) (by decide) hwas))
    · exact exec_writeReg_accepted rfl hacc ((headerFx_ctrl ..).trans (pgCtrl_resets (by decide) hwas (by decide) (by decide) hhas))
    · have hopen : s.flag (rPG_LOCK p) fPG_LOCK_lock = false := lock_of_accepts hacc (by unfold rPG_CTRL; omega)
      exact exec_writeReg_accepted rfl hacc (pgCtrl_unlocks (by decide) hwas (by decide) (by decide) hclosed (by decide) hopen)
    · exact exec_writeReg_accepted rfl hacc (pgCtrl_wrong_unlock (by decide) hwas (by decide) (by decide) hclosed (by decide))
    case claim =>
      obtain ⟨hA, hB, hAnise⟩ := pgClaim_local (v := v) hres hshut
      exact ⟨fun hm => exec_writeReg_accepted rfl hacc (hA hm), fun hm => exec_writeReg_accepted rfl hacc (hB hm), fun hm => exec_writeReg_accepted rfl hacc (hAnise hm)⟩
    case lockSet => exact exec_writeReg_accepted rfl hacc (pgLock_sets (lock_of_accepts hacc (by unfold rPG_LOCK; omega)) hset)
  case write =>
    rw [exec_registerWrite ha halign]
    refine ⟨fun hbusy hpage => ?_, fun hbusy hpage hlevel => ?_, fun hacc hoff => ⟨?_, reg_store_irqEn (populated_of_accepts hacc) hoff⟩⟩
    · rw [regAccessW_stopped hbusy herrn (checkWrite_unpopulated hpage)]
      rfl
    · rw [regAccessW_stopped hbusy herrn (checkWrite_of_level hpage hlevel)]
      rfl
    · have hfx : writeFx q (.done q) a v s = (false, s.store a v) := by
        have ha' : a / 0x1000 * 0x1000 + 0x010 = a := by omega
        unfold writeFx
        rw [if_pos (by omega), hoff]
        exact congrArg (fun x => (false, s.store x v)) ha'
      have hw : s.regAccessW q a v (.done q) = (some 0, s.store a v) := by
        unfold State.regAccessW
        rw [if_neg herrn, regWriteHold_accepted hacc, hfx]
        rfl
      rw [hw]
      rfl
  case lock =>
    have hadj := lockAdjust_locked hlock v
    dsimp only at hadj ⊢
    rw [hadj]
    exact ⟨(masked_and ..).1, (masked_and ..).2, fun h => if_pos h, fun h => if_neg h⟩
  case unpopulated =>
    refine ⟨fun hoff => exec_pageRead ha halign hbusy (regAccessR_id hpage pf hoff),
      fun hoff => exec_pageRead ha halign hbusy (regAccessR_other hpage pf hoff), exec_pageWrite ha halign (regAccessW_stopped hbusy ?_ (checkWrite_unpopulated hpage) _)⟩
    rintro rfl
    exact absurd hpage (by decide)

end Sys2Proof.Machine
end

section
/-! PROOF. The frame of the register commands fails for CIPH_KAT: the register lies on page 0x4B, so that a refused write sets the flags of that page
(R30), where the statement names those of page 0x48. -/
namespace Sys2Proof.Machine

/-- A disabled collector takes no event (R33). -/
theorem collectOne_of_disabled {s : State} (h : s.enabled 0x04 = false) (e : FaultEv) (busy : List Nat) : s.collectOne e busy = (s, busy) :=
  if_pos (by simp [h])

/-- With no event up no round changes anything. -/
theorem collectRounds_of_nil (k : Nat) {s : State} (h : s.raises = []) (busy : List Nat) : State.collectRounds k s busy = s := by
  cases k with
  | zero => unfold State.collectRounds; rw [← h]
  | succ k => exact if_pos h

/-- A disabled collector drops the events that are up, and nothing else changes. -/
theorem collect_of_disabled {s : State} (h : s.enabled 0x04 = false) : s.collect = { s with raises := [] } := by
  have hoff : ({ s with raises := [] } : State).enabled 0x04 = false := h
  have hfold (l : List FaultEv) : l.foldl (fun (acc : State × List Nat) e => acc.1.collectOne e acc.2) ({ s with raises := [] }, []) =
      ({ s with raises := [] }, []) :=
    List.foldl_fixed' (fun e => collectOne_of_disabled hoff e []) l
  by_cases hnone : s.raises = []
  · rw [collect_of_nil hnone, ← hnone]
  · unfold State.collect State.collectRounds
    rw [if_neg hnone]
    dsimp only
    rw [hfold]
    exact collectRounds_of_nil 63 rfl []

/-- What a register holds after a command while the collector is disabled is what the effect gave it. -/
theorem finished_reg_of_disabled {b t : State} (h : t.enabled 0x04 = false) {a : Nat} (ha : ¬ isPba a) : (State.finished b t).reg a = t.reg a := by
  change (State.deliver b t.collect).reg a = t.reg a
  rw [deliver_reg _ _ ha, collect_of_disabled h]
  rfl

/-- The hub at reset with its fault collector disabled. -/
def collectorOff : State := State.reset.setReg (rPG_CTRL 0x04) 0

/-- A DMA channel that nobody owns, which acts as a Guest (R283). -/
def freeChannel : Req := ⟨0x10, 0, 0⟩

/-- The Guest's write of CIPH_KAT is turned away with status 2, and sets privilege_refused of page 0x4B. -/
theorem exec_ciphKat_guest : exec (.ciphKat freeChannel 1) collectorOff =
    .next (collectorOff.finished ((collectorOff.privRefused 0x4B).wrote freeChannel 2)) := by
  have hbusy : collectorOff.pageBusy rCIPH_KAT = false := by decide
  have hcheck : collectorOff.checkWrite freeChannel rCIPH_KAT 1 = (.stop 2, collectorOff.privRefused 0x4B) :=
    checkWrite_of_level (by decide) (by decide)
  exact congrArg (finish collectorOff) (writeReg_stopped hbusy hcheck ciphKatFx)

/-- Refutes O9: from reset with the collector disabled, a write of CIPH_KAT by a Guest sets PG_STATUS.privilege_refused of page 0x4B, which is
neither CIPH_KAT, nor CIPH_KAT_RESULT, nor a header register of page 0x48. -/
theorem not_registerCommandsStayWithinTheirRegisters : ¬ Obligations.RegisterCommandsStayWithinTheirRegisters := by
  intro h
  obtain ⟨-, -, -, -, -, -, -, -, -, -, -, -, -, hkat, -⟩ := h collectorOff freeChannel 1
  obtain ⟨T, hexec, hregs, -, -⟩ := hkat
  have hoff : T.enabled 0x04 = false := by
    have hctrl : T.reg (rPG_CTRL 0x04) = collectorOff.reg (rPG_CTRL 0x04) := hregs _ (by decide)
    exact (flag_congr _ hctrl).trans (by decide)
  have hsame : collectorOff.finished T = collectorOff.finished ((collectorOff.privRefused 0x4B).wrote freeChannel 2) :=
    Host.Outcome.next.inj (hexec.symm.trans exec_ciphKat_guest)
  have hkept : T.reg (rPG_STATUS 0x4B) = collectorOff.reg (rPG_STATUS 0x4B) := hregs _ (by decide)
  have hset : ((collectorOff.privRefused 0x4B).wrote freeChannel 2).reg (rPG_STATUS 0x4B) ≠ collectorOff.reg (rPG_STATUS 0x4B) := by decide
  have hpba : ¬ isPba (rPG_STATUS 0x4B) := by unfold isPba; decide
  have hreg := congrArg (fun u : State => u.reg (rPG_STATUS 0x4B)) hsame
  simp only [finished_reg_of_disabled hoff hpba] at hreg
  rw [finished_reg_of_disabled (by decide) hpba, hkept] at hreg
  exact hset hreg.symm

end Sys2Proof.Machine
end

section
/-! PROOF. What one state keeps of another: the canonical form of registers, local memory and timetable memory (R21) and, where nothing writes
them, the stores (local memory, keys, claims, semaphores, the cipher, the ledger's staging); and the rules of the shapes that operations are
built of. -/
namespace Sys2Proof.Machine

/-- From s to t the canonical form is kept, and with k so are the stores. -/
structure Keeps (k : Bool) (s t : State) : Prop where
  canon : s.Canon → t.Canon
  stores : k = true → storesSame s t

/-- The stores. -/
def State.stored (s : State) := (s.mem, s.keys, s.claims, s.sems, s.ciph, s.ledg)

namespace Keeps

variable {k : Bool} {s t u : State}

theorem refl : Keeps k s s := ⟨id, fun _ => ⟨rfl, rfl, rfl, rfl, rfl, rfl⟩⟩

/-- An update of registers and timetable memory in their canonical form. -/
theorem cells (h : Keeps k s t) (hregs : spWf resetWord t.regs = true → spWf resetWord u.regs = true)
    (httm : Memory.ttWf t.ttm = true → Memory.ttWf u.ttm = true) (e : u.stored = t.stored) : Keeps k s u := by
  simp only [State.stored, Prod.mk.injEq] at e
  obtain ⟨hmem, hkeys, hclaims, hsems, hciph, hledg⟩ := e
  constructor
  · intro hs
    obtain ⟨hr, hm, ht⟩ := h.canon hs
    exact ⟨hregs hr, hmem ▸ hm, httm ht⟩
  · intro hk
    unfold storesSame
    rw [hmem, hkeys, hclaims, hsems, hciph, hledg]
    exact h.stores hk

/-- An update of registers and memories in their canonical form, whatever becomes of the other stores. -/
theorem reform (h : Keeps false s t) (hregs : spWf resetWord t.regs = true → spWf resetWord u.regs = true)
    (hmem : Memory.wf t.mem = true → Memory.wf u.mem = true) (httm : Memory.ttWf t.ttm = true → Memory.ttWf u.ttm = true) : Keeps false s u :=
  ⟨fun hs => let ⟨hr, hm, ht⟩ := h.canon hs; ⟨hregs hr, hmem hm, httm ht⟩, fun hk => Bool.noConfusion hk⟩

/-- An update beside registers, memories and stores. -/
theorem beside
    {sramBad pending out free slot slotPhase ports rcs beats bases pdWrites held resets servo tlb flw ttbs ttbLog fab brs tgt poll dmas
    barriers balls fqs units cans clvs pmem macs pd pwr rst boot tap kmgr pace raises level5}
    (h : Keeps k s t) : Keeps k s { t with
      sramBad, pending, out, free, slot, slotPhase, ports, rcs, beats, bases, pdWrites, held, resets, servo, tlb, flw, ttbs, ttbLog, fab,
      brs, tgt, poll, dmas, barriers, balls, fqs, units, cans, clvs, pmem, macs, pd, pwr, rst, boot, tap, kmgr, pace, raises, level5 } :=
  h.cells id id rfl

/-- An update beside registers and memories. -/
theorem besideFormed
    {sramBad pending out free slot slotPhase ports rcs claims sems beats bases pdWrites held resets servo tlb flw ttbs ttbLog fab brs tgt
    poll dmas barriers balls fqs units cans clvs pmem macs pd pwr rst boot tap keys kmgr ciph pace ledg raises level5}
    (h : Keeps false s t) : Keeps false s { t with
      sramBad, pending, out, free, slot, slotPhase, ports, rcs, claims, sems, beats, bases, pdWrites, held, resets, servo, tlb, flw, ttbs,
      ttbLog, fab, brs, tgt, poll, dmas, barriers, balls, fqs, units, cans, clvs, pmem, macs, pd, pwr, rst, boot, tap, keys, kmgr, ciph,
      pace, ledg, raises, level5 } :=
  h.reform id id id

theorem dropTtm {p : Nat → Bool} (h : Keeps k s t) : Keeps k s { t with ttm := spDrop p t.ttm } := h.cells id (spWf_spDrop p) rfl
theorem dropMem {p : Nat → Bool} (h : Keeps false s t) : Keeps false s { t with mem := spDrop p t.mem } := h.reform id (spWf_spDrop p) id

/-- The state within a tuple. -/
theorem fst {α : Type} {x : α} (h : Keeps k s u) : Keeps k s (u, x).1 := h
theorem snd {α : Type} {x : α} (h : Keeps k s u) : Keeps k s (x, u).2 := h
theorem sndSnd {α β : Type} {x : α} {y : β} (h : Keeps k s u) : Keeps k s (x, y, u).2.2 := h

theorem ite {c : Prop} [Decidable c] (h : Keeps k s t) (h' : Keeps k s u) : Keeps k s (if c then t else u) := by
  split
  · exact h
  · exact h'

/-- A branch that goes on from what the other leaves. -/
theorem iteThen {c : Prop} [Decidable c] (h : Keeps k s t) (hu : Keeps k s t → Keeps k s u) : Keeps k s (if c then u else t) := (hu h).ite h
theorem iteElse {c : Prop} [Decidable c] (h : Keeps k s t) (hu : Keeps k s t → Keeps k s u) : Keeps k s (if c then t else u) := h.ite (hu h)

theorem iteFst {α : Type} {c : Prop} [Decidable c] {x y : State × α} (h : Keeps k s x.1) (h' : Keeps k s y.1) : Keeps k s (if c then x else y).1 := by
  split
  · exact h
  · exact h'

theorem iteSnd {α : Type} {c : Prop} [Decidable c] {x y : α × State} (h : Keeps k s x.2) (h' : Keeps k s y.2) : Keeps k s (if c then x else y).2 := by
  split
  · exact h
  · exact h'

theorem iteSndSnd {α β : Type} {c : Prop} [Decidable c] {x y : α × β × State} (h : Keeps k s x.2.2) (h' : Keeps k s y.2.2) :
    Keeps k s (if c then x else y).2.2 := by
  split
  · exact h
  · exact h'

theorem foldl {α : Type} {f : State → α → State} {l : List α} (h : Keeps k s t) (hf : ∀ {u x}, Keeps k s u → Keeps k s (f u x)) :
    Keeps k s (l.foldl f t) := by
  induction l generalizing t with
  | nil => exact h
  | cons x l ih => exact ih (hf h)

theorem foldlFst {α β : Type} {f : State × β → α → State × β} {l : List α} {r : State × β} (h : Keeps k s r.1)
    (hf : ∀ {r x}, Keeps k s r.1 → Keeps k s (f r x).1) : Keeps k s (l.foldl f r).1 := by
  induction l generalizing r with
  | nil => exact h
  | cons x l ih => exact ih (hf h)

theorem foldlSnd {α β : Type} {f : β × State → α → β × State} {l : List α} {r : β × State} (h : Keeps k s r.2)
    (hf : ∀ {r x}, Keeps k s r.2 → Keeps k s (f r x).2) : Keeps k s (l.foldl f r).2 := by
  induction l generalizing r with
  | nil => exact h
  | cons x l ih => exact ih (hf h)

theorem getD {o : Option State} (h : Keeps k s t) (ho : ∀ {u}, o = some u → Keeps k s u) : Keeps k s (o.getD t) := by
  cases o with
  | none => exact h
  | some u => exact ho rfl

theorem elim {o : Option State} {f : State → State} (h : Keeps k s t) (ho : ∀ {u}, o = some u → Keeps k s u)
    (hf : ∀ {u}, Keeps k s u → Keeps k s (f u)) : Keeps k s (o.elim t f) := by
  cases o with
  | none => exact h
  | some u => exact hf (ho rfl)

end Keeps

/-- A command's outcome is its effect finished, and the effect keeps. -/
def Ends (k : Bool) (s : State) (o : Host.Outcome State Fault Refusal) : Prop := ∃ t, o = finish s t ∧ Keeps k s t

theorem Ends.finish {k : Bool} {s t : State} (h : Keeps k s t) : Ends k s (finish s t) := ⟨t, rfl, h⟩

end Sys2Proof.Machine
end

section
/-! PROOF. What operations keep: registers, memory words and tables of the state; the checks of an access; frames sent, translation, time. -/
namespace Sys2Proof.Machine

variable {k : Bool} {s t u : State}

theorem Keeps.setReg {a v} (h : Keeps k s t) : Keeps k s (t.setReg a v) := h.cells (spWf_spSet a v) id rfl
theorem Keeps.put {a f v} (h : Keeps k s t) : Keeps k s (t.put a f v) := h.setReg
theorem Keeps.addCnt {a n} (h : Keeps k s t) : Keeps k s (t.addCnt a n) := h.setReg
theorem Keeps.inc {a} (h : Keeps k s t) : Keeps k s (t.inc a) := h.addCnt
theorem Keeps.incSat {a f} (h : Keeps k s t) : Keeps k s (t.incSat a f) := h.put
theorem Keeps.emit {o} (h : Keeps k s t) : Keeps k s (t.emit o) := h.beside
theorem Keeps.step1 (h : Keeps k s t) : Keeps k s t.step1 := h.beside
theorem Keeps.fault {e'} (h : Keeps k s t) : Keeps k s (t.fault e') := h.beside
theorem Keeps.raise {src page} (h : Keeps k s t) : Keeps k s (t.raise src page) := h.fault
theorem Keeps.irqBits {p m} (h : Keeps k s t) : Keeps k s (t.irqBits p m) := h.setReg
theorem Keeps.irq {p n} (h : Keeps k s t) : Keeps k s (t.irq p n) := h.irqBits
theorem Keeps.refuse {p f} (h : Keeps k s t) : Keeps k s (t.refuse p f) := .iteElse h (·.put.irq)
theorem Keeps.warn {p} (h : Keeps k s t) : Keeps k s (t.warn p) := h.put
theorem Keeps.ifOn {p} {f : State → State} (h : Keeps k s t) (hf : ∀ {u}, Keeps k s u → Keeps k s (f u)) : Keeps k s (t.ifOn p f) :=
  .iteThen h hf
theorem Keeps.onField {f : State → State} (h : Keeps k s t) (hf : ∀ {u}, Keeps k s u → Keeps k s (f u)) : Keeps k s (t.onField f) :=
  .iteThen h hf
theorem Keeps.disarm {p} (h : Keeps k s t) : Keeps k s (t.disarm p) := h.put
theorem Keeps.raiseInj {src page} (h : Keeps k s t) : Keeps k s (t.raiseInj src page) := h.fault
theorem Keeps.setByte {a b} (h : Keeps false s t) : Keeps false s (t.setByte a b) := h.reform id (memWf_setByte a b) id

theorem Keeps.setBytes {a l} (h : Keeps false s t) : Keeps false s (t.setBytes a l) := by
  induction l generalizing a t with
  | nil => exact h
  | cons b l ih => exact ih h.setByte

theorem Keeps.setWord {a w} (h : Keeps false s t) : Keeps false s (t.setWord a w) := h.setBytes
theorem Keeps.setTtByte {a b} (h : Keeps k s t) : Keeps k s (t.setTtByte a b) := h.cells id (ttWf_setTtByte a b) rfl

theorem Keeps.setTtBytes {a l} (h : Keeps k s t) : Keeps k s (t.setTtBytes a l) := by
  induction l generalizing a t with
  | nil => exact h
  | cons b l ih => exact ih h.setTtByte

theorem Keeps.setPort {r' p x} (h : Keeps k s t) : Keeps k s (t.setPort r' p x) := h.beside
theorem Keeps.setRc {x c} (h : Keeps k s t) : Keeps k s (t.setRc x c) := h.beside
theorem Keeps.setClaim {i c} (h : Keeps false s t) : Keeps false s (t.setClaim i c) := h.besideFormed
theorem Keeps.setSem {n x} (h : Keeps false s t) : Keeps false s (t.setSem n x) := h.besideFormed
theorem Keeps.setBeat {h' x} (h : Keeps k s t) : Keeps k s (t.setBeat h' x) := h.beside
theorem Keeps.setTtb {x t'} (h : Keeps k s t) : Keeps k s (t.setTtb x t') := h.beside
theorem Keeps.setBr {b x} (h : Keeps k s t) : Keeps k s (t.setBr b x) := h.beside
theorem Keeps.setDma {c x} (h : Keeps k s t) : Keeps k s (t.setDma c x) := h.beside
theorem Keeps.setBall {c w} (h : Keeps k s t) : Keeps k s (t.setBall c w) := h.beside
theorem Keeps.setFq {c q x} (h : Keeps k s t) : Keeps k s (t.setFq c q x) := h.beside
theorem Keeps.setUnit {p x} (h : Keeps k s t) : Keeps k s (t.setUnit p x) := h.beside
theorem Keeps.setCan {n x} (h : Keeps k s t) : Keeps k s (t.setCan n x) := h.beside
theorem Keeps.setClv {e' k' x} (h : Keeps k s t) : Keeps k s (t.setClv e' k' x) := h.beside
theorem Keeps.setProg {e' bank a w} (h : Keeps k s t) : Keeps k s (t.setProg e' bank a w) := h.beside
theorem Keeps.setMac {m x} (h : Keeps k s t) : Keeps k s (t.setMac m x) := h.beside
theorem Keeps.setKey {n k'} (h : Keeps false s t) : Keeps false s (t.setKey n k') := h.besideFormed

theorem Keeps.setBase {b x} (h : Keeps k s t) : Keeps k s (t.setBase b x) := h.beside
theorem Keeps.stagePut {type detail data gap pdMs} (h : Keeps false s t) : Keeps false s (t.stagePut type detail data gap pdMs) :=
  h.setBytes.put
theorem Keeps.stage {type detail data pdMs} (h : Keeps false s t) : Keeps false s (t.stage type detail data pdMs) :=
  .iteElse h (fun hu => .ite hu.besideFormed.inc.irq.raise (.ite hu.stagePut hu.besideFormed.stagePut.stagePut))

theorem Keeps.redecide {i c how} (h : Keeps false s t) : Keeps false s (t.redecide i c how) :=
  have hs0 := h.setClaim.put.setReg
  .iteElse (.ite hs0.setReg.inc.irq.raise.stage (.iteThen hs0.setReg (·.irq.stage))) (·.irq.stage)

theorem Keeps.done {q status data} (h : Keeps k s t) : Keeps k s (t.done q status data) := h.emit
theorem Keeps.privRefused {p} (h : Keeps k s t) : Keeps k s (t.privRefused p) := h.refuse
theorem Keeps.expertRefused {p} (h : Keeps k s t) : Keeps k s (t.expertRefused p) := h.refuse

theorem Keeps.lockAdjust {a v r} (h : Keeps k s t) (e : t.lockAdjust a v = r) : Keeps k s r.2 := by
  subst e
  exact .iteSnd (.iteElse h (·.refuse)) h

theorem Keeps.store {a v} (h : Keeps k s t) : Keeps k s (t.store a v) := h.setReg

theorem Keeps.checkWrite {q a v r} (h : Keeps k s t) (e : t.checkWrite q a v = r) : Keeps k s r.2 := by
  subst e
  exact .iteSnd h.fault (.iteSnd h.privRefused (.iteSnd h.privRefused (.iteSnd h.expertRefused (.iteSnd h.privRefused (by
    split
    · exact .iteSnd h.refuse h
    · exact h)))))

theorem Keeps.hold {q a op c} (h : Keeps k s t) : Keeps k s (t.hold q a op c) := h.beside

theorem Keeps.regEffect {q a v c r} {fx : Word → State → Bool × State} (h : Keeps k s t) (hfx : ∀ {x0 u}, Keeps k s u → Keeps k s (fx x0 u).2)
    (e : t.regEffect q a v c fx = r) : Keeps k s r.2 := by
  subst e
  exact
    have hlv0 := h.lockAdjust rfl
    .iteSnd hlv0.warn (.iteSnd (.iteSnd hlv0 hlv0.emit.beside) (hfx hlv0))

theorem Keeps.regWriteHold {q a v c r} {fx : Word → State → Bool × State} (h : Keeps k s t) (hfx : ∀ {x0 u}, Keeps k s u → Keeps k s (fx x0 u).2)
    (e : t.regWriteHold q a v c fx = r) : Keeps k s r.2 := by
  subst e
  exact .iteSnd h.hold (by
    split
    next heq => exact h.checkWrite heq
    next heq => exact (h.checkWrite heq).regEffect hfx rfl)

theorem Keeps.regWrite {q a v c r} {fx : Word → State → State} (h : Keeps k s t) (hfx : ∀ {x0 u}, Keeps k s u → Keeps k s (fx x0 u))
    (e : t.regWrite q a v c fx = r) : Keeps k s r.2 := by
  subst e
  exact h.regWriteHold hfx rfl

theorem Keeps.bufferDrop {h'} (h : Keeps k s t) : Keeps k s (t.bufferDrop h') := h.setBr
theorem Keeps.hostWrote {q} (h : Keeps k s t) : Keeps k s (t.hostWrote q) := .iteThen h (·.bufferDrop)
theorem Keeps.wrote {q st} (h : Keeps k s t) : Keeps k s (t.wrote q st) := h.hostWrote.done

theorem Keeps.answered {q} {r' : Option Nat × State} (h : Keeps k s r'.2) : Keeps k s (Machine.answered q r') := by
  unfold Machine.answered
  split
  · exact h.wrote
  · exact h.hostWrote

theorem Keeps.writeReg {q a v} {fx : Word → State → State} (h : Keeps k s t) (hfx : ∀ {x0 u}, Keeps k s u → Keeps k s (fx x0 u)) :
    Keeps k s (t.writeReg q a v fx) :=
  (h.regWrite hfx rfl).answered

theorem Keeps.checkRead {q a mayPrefetch r} (h : Keeps k s t) (e : t.checkRead q a mayPrefetch = r) : Keeps k s r.2 := by
  subst e
  unfold State.checkRead
  dsimp only
  split
  · exact .iteSnd h h.fault
  · exact .iteSnd h.privRefused (.iteSnd h.privRefused (.iteSnd h.refuse h))

theorem Keeps.readItem {q a mayPrefetch r} {rd : State → Nat × State} (h : Keeps k s t) (hrd : ∀ {u}, Keeps k s u → Keeps k s (rd u).2)
    (e : t.readItem q a mayPrefetch rd = r) : Keeps k s r.2.2 := by
  subst e
  unfold State.readItem
  split
  next heq => exact h.checkRead heq
  next heq => exact .iteSndSnd (h.checkRead heq).expertRefused (hrd (h.checkRead heq))

theorem Keeps.popOr {empty pop r} (h : Keeps k s t) (hpop : ∀ {u r}, Keeps k s u → pop u = some r → Keeps k s r.2) (e : Machine.popOr empty pop t = r)
    :
    Keeps k s r.2 := by
  subst e
  unfold Machine.popOr
  cases hp : pop t with
  | none => exact h
  | some r => exact hpop h hp

theorem Keeps.rowRead {q a mayPrefetch wide} {rd : State → Nat × State} (h : Keeps k s t) (hrd : ∀ {u}, Keeps k s u → Keeps k s (rd u).2) :
    Keeps k s (t.rowRead q a mayPrefetch wide rd) :=
  .ite h.hold (h.readItem hrd rfl).done

theorem Keeps.popRead {q a mayPrefetch wide empty} {pop : State → Option (Nat × State)} (h : Keeps k s t) (hpop : ∀ {u r}, Keeps k s u → pop u = some
    r → Keeps k s r.2) : Keeps k s (t.popRead q a mayPrefetch wide empty pop) :=
  h.rowRead (·.popOr hpop rfl)

theorem Keeps.enqueue {r' p f since} (h : Keeps k s t) : Keeps k s (t.enqueue r' p f since) := h.setPort
theorem Keeps.sendLocalOn {x ports kind payload} (h : Keeps k s t) : Keeps k s (t.sendLocalOn x ports kind payload) :=
  h.foldl (fun hu => .iteThen hu (·.enqueue))
theorem Keeps.sendLocal {x kind payload} (h : Keeps k s t) : Keeps k s (t.sendLocal x kind payload) := h.sendLocalOn
theorem Keeps.sendRing {x f} (h : Keeps k s t) : Keeps k s (t.sendRing x f) := .ite (h.foldl (fun hu => .iteThen hu (·.enqueue))) h.enqueue

theorem Keeps.sendRouted {x kind station payload} (h : Keeps k s t) : Keeps k s (t.sendRouted x kind station payload) := by
  unfold State.sendRouted
  split
  · exact h
  · exact h.setRc.sendRing

theorem Keeps.pageEntry {space a r} (h : Keeps k s t) (e : t.pageEntry space a = r) : Keeps k s r.2 := by
  subst e
  unfold State.pageEntry
  dsimp only
  split
  · exact .iteSnd h.inc h.inc.beside
  · split
    · exact
        have hs0 := h.disarm.raiseInj.beside.inc
        .iteSnd hs0 hs0.beside
    · exact h.inc.beside

theorem Keeps.translate {master level a x bus r} (h : Keeps k s t) (e : t.translate master level a x bus = r) : Keeps k s r.2 := by
  subst e
  exact .iteSnd h (h.pageEntry rfl)

theorem Keeps.xltFault {master a x cause size} (h : Keeps k s t) : Keeps k s (t.xltFault master a x cause size) :=
  .iteElse (.iteElse h.inc (·.setReg.setReg.setReg.irq)) (·.fault)

theorem Keeps.clockTick (h : Keeps k s t) : Keeps k s t.clockTick :=
  .iteThen h.beside (fun hu => (hu.foldl (fun hv => .iteThen hv (·.setBase))).beside)
theorem Keeps.slotTick (h : Keeps k s t) : Keeps k s t.slotTick := .iteElse h (fun hu => .ite hu.beside (.iteElse hu (·.beside)))
theorem Keeps.anise {w} {act : State → State} (h : Keeps k s t) (hact : ∀ {u}, Keeps k s u → Keeps k s (act u)) : Keeps k s (t.anise w act) :=
  .ite (.iteElse h (·.beside)) (hact h)
theorem Keeps.setLocked {b} (h : Keeps k s t) : Keeps k s (t.setLocked b) := h.put
theorem Keeps.lockLost (h : Keeps k s t) : Keeps k s t.lockLost := .iteThen h (·.setLocked.inc.irq.raise)
theorem Keeps.lockGain (h : Keeps k s t) : Keeps k s t.lockGain := .iteElse h (·.setLocked.irq)
theorem Keeps.rootLock (h : Keeps k s t) : Keeps k s t.rootLock :=
  .iteThen h (fun hu => .ite hu.lockLost (.ite hu.lockGain (.ite hu.step1.lockGain hu.step1.lockLost)))
theorem Keeps.tbReset (h : Keeps k s t) : Keeps k s t.tbReset := h.lockLost.beside
theorem Keeps.openSession {b} (h : Keeps k s t) : Keeps k s (t.openSession b) := .iteThen h.put.put.irq (·.beside.lockLost.rootLock)
theorem Keeps.setCompare {u' t'} (h : Keeps k s t) : Keeps k s (t.setCompare u' t') := h.setReg.setReg.setReg
theorem Keeps.setEvent {u' l} (h : Keeps k s t) : Keeps k s (t.setEvent u' l) := .iteThen h.beside (·.emit)
theorem Keeps.eventAction {u'} (h : Keeps k s t) : Keeps k s (t.eventAction u') :=
  .ite h.setEvent.beside (.ite h.setEvent (.iteThen h (·.setEvent)))
theorem Keeps.endPulses (h : Keeps k s t) : Keeps k s t.endPulses := h.foldl (fun hu => .iteThen hu (·.setEvent))
theorem Keeps.trigger {u' clove} (h : Keeps k s t) : Keeps k s (t.trigger u' clove) := .iteElse h (·.beside)

theorem Keeps.takeTrig {u' clove} {act : State → State} (h : Keeps k s t) (hact : ∀ {u}, Keeps k s u → Keeps k s (act u)) :
    Keeps k s (t.takeTrig u' clove act) :=
  .iteThen h (fun hu => hact hu.beside)

theorem Keeps.fireUnit {u' now late} (h : Keeps k s t) : Keeps k s (t.fireUnit u' now late) := by
  unfold State.fireUnit
  extract_lets cfg a fired servo cleared lateSet irqSet acted tc td sent clove out per c
  have hout : Keeps k s out := .iteThen (.iteThen (.iteThen (.eventAction (.iteThen (.iteThen h.put.beside (·.put.irq)) (·.irq))) (·.emit))
    (·.trigger)) (·.trigger)
  exact .ite hout.put hout.setCompare

theorem Keeps.applyStep {b n} (h : Keeps false s t) : Keeps false s (t.applyStep b n) :=
  .iteThen (.iteThen h.setBase.setReg.setReg.put.inc.irq (·.foldl (fun hv => .iteThen hv (·.fireUnit)))) (·.stage)
theorem Keeps.askStep {b n} (h : Keeps k s t) : Keeps k s (t.askStep b n) := .ite h.put.irq h.setBase
theorem Keeps.fireDue {b} (h : Keeps k s t) : Keeps k s (t.fireDue b) := h.foldl (fun hu => .iteThen hu (·.fireUnit))

theorem Keeps.stepDue {b} (h : Keeps false s t) : Keeps false s (t.stepDue b) := by
  unfold State.stepDue
  split
  · exact h
  · exact h.setBase.applyStep

theorem Keeps.timeTick (h : Keeps false s t) : Keeps false s t.timeTick := .iteThen h.clockTick (·.endPulses.foldl (·.stepDue.fireDue))
theorem Keeps.setRate {b v} (h : Keeps k s t) : Keeps k s (t.setRate b v) := .iteElse h.setBase.setReg.setReg (·.warn)

end Sys2Proof.Machine
end

section
/-! PROOF. What operations keep: flow contexts and their cache, the timetable, ring ports, the cells of the fabric. -/
namespace Sys2Proof.Machine

variable {k : Bool} {s t u : State}

theorem Keeps.setEnt {f n} (h : Keeps false s t) : Keeps false s (t.setEnt f n) := h.setWord
theorem Keeps.touch {k'} (h : Keeps k s t) : Keeps k s (t.touch k') := h.beside
theorem Keeps.setCtx {k' off hi lo v} (h : Keeps false s t) : Keeps false s (t.setCtx k' off hi lo v) := h.setWord.touch
theorem Keeps.cntCtx {k' off n} (h : Keeps false s t) : Keeps false s (t.cntCtx k' off n) := h.setWord.touch
theorem Keeps.addOctets {k' n} (h : Keeps false s t) : Keeps false s (t.addOctets k' n) := h.setWord.setWord.touch
theorem Keeps.setEnabled {f k' b} (h : Keeps false s t) : Keeps false s (t.setEnabled f k' b) := h.setEnt.setCtx
theorem Keeps.setPinned {f k' b} (h : Keeps false s t) : Keeps false s (t.setPinned f k' b) := h.setEnt.setCtx
theorem Keeps.setReadmit {k' b} (h : Keeps false s t) : Keeps false s (t.setReadmit k' b) := h.setCtx
theorem Keeps.startWindow {k'} (h : Keeps false s t) : Keeps false s (t.startWindow k') := h.setCtx.setCtx.setCtx.setCtx
theorem Keeps.setCtxWin {k' w} (h : Keeps false s t) : Keeps false s (t.setCtxWin k' w) := h.setCtx.setCtx.setCtx.setCtx

theorem Keeps.windowCtx {k' seq r} (h : Keeps false s t) (e : t.windowCtx k' seq = r) : Keeps false s r.2 := by
  subst e
  unfold State.windowCtx
  dsimp only
  split
  · exact h.setCtxWin
  · exact h.setCtxWin.cntCtx
  · exact h.setCtxWin.cntCtx
  · exact h.setCtxWin.cntCtx
  · exact h.setCtxWin.cntCtx

theorem Keeps.markUse {k'} (h : Keeps k s t) : Keeps k s (t.markUse k') := h.beside
theorem Keeps.unmarkUse {k'} (h : Keeps k s t) : Keeps k s (t.unmarkUse k') := h.beside
theorem Keeps.setSlot {k' f} (h : Keeps k s t) : Keeps k s (t.setSlot k' f) := h.beside
theorem Keeps.miss {f} (h : Keeps false s t) : Keeps false s (t.miss f) := .iteElse h (·.inc.setEnt.beside)
theorem Keeps.dropWaiting {f} (h : Keeps k s t) : Keeps k s (t.dropWaiting f) := h.beside.addCnt

theorem Keeps.abandonEvict (h : Keeps false s t) : Keeps false s t.abandonEvict := by
  unfold State.abandonEvict
  split
  · exact h
  · exact .beside (by
      split
      · exact h.setEnt
      · exact h)

theorem Keeps.keepVictim {f} (h : Keeps false s t) : Keeps false s (t.keepVictim f) := .iteThen h (·.abandonEvict)
theorem Keeps.cancelFetch {f} (h : Keeps false s t) : Keeps false s (t.cancelFetch f) :=
  .iteThen (.beside (.iteThen h (·.abandonEvict))) (·.setEnt)
theorem Keeps.unwanted {f} (h : Keeps false s t) : Keeps false s (t.unwanted f) := .iteElse h (·.cancelFetch)
theorem Keeps.flowReset (h : Keeps false s t) : Keeps false s t.flowReset := h.abandonEvict.beside

theorem Keeps.windowSys {src flow seq r} (h : Keeps k s t) (e : t.windowSys src flow seq = some r) : Keeps k s r.2 := by
  unfold State.windowSys at e
  dsimp only at e
  split at e
  · exact Option.some.inj e ▸ h.beside
  · split at e
    · exact Option.some.inj e ▸ h.beside
    · split at e
      · exact Option.some.inj e ▸ h.beside
      · exact nomatch e

theorem Keeps.setMapBit {x k' b} (h : Keeps k s t) : Keeps k s (t.setMapBit x k' b) := h.setTtByte
theorem Keeps.setMapBits {x k' n b} (h : Keeps k s t) : Keeps k s (t.setMapBits x k' n b) := h.foldl (·.setMapBit)
theorem Keeps.setCalendar {x l} (h : Keeps k s t) : Keeps k s (t.setCalendar x l) := h.setTtBytes
theorem Keeps.ttbCause {f} (h : Keeps k s t) : Keeps k s (t.ttbCause f) := .iteElse h (·.put.raise)
theorem Keeps.spacingRecheck {x} (h : Keeps k s t) : Keeps k s (t.spacingRecheck x) := .ite h.put h.put.ttbCause
theorem Keeps.install {k'} (h : Keeps k s t) : Keeps k s (t.install k') := .iteElse h (·.foldl (·.setMapBits.setCalendar))
theorem Keeps.uninstallOn {k' x} (h : Keeps k s t) : Keeps k s (t.uninstallOn k' x) :=
  .iteElse (.iteThen h (·.foldl (·.setMapBits))) (·.setCalendar)
theorem Keeps.uninstall {k'} (h : Keeps k s t) : Keeps k s (t.uninstall k') := h.uninstallOn.uninstallOn
theorem Keeps.logRefusal {flow code readmit} (h : Keeps k s t) : Keeps k s (t.logRefusal flow code readmit) :=
  .ite h.inc.beside.irq h.inc.incSat
theorem Keeps.dropStored {flow} (h : Keeps k s t) : Keeps k s (t.dropStored flow) :=
  h.foldl (fun hu => ((hu.foldl (fun hv => .iteThen hv (·.addCnt))).foldl (fun hv => .iteThen hv (·.addCnt))).setTtb)
theorem Keeps.disableFlow {f k'} (h : Keeps false s t) : Keeps false s (t.disableFlow f k') := .setEnabled (.iteThen h (·.uninstall.dropStored))

theorem Keeps.readmitOne {k' f} (h : Keeps false s t) : Keeps false s (t.readmitOne k' f) :=
  have ht0 := h.beside.uninstall
  .ite ht0.install.setReadmit.irq (.ite h.beside.beside ht0.disableFlow.setReadmit.logRefusal.irq.ttbCause)

theorem Keeps.readmitAll (h : Keeps false s t) : Keeps false s t.readmitAll := h.foldl (·.readmitOne)
theorem Keeps.readmitAgain (h : Keeps false s t) : Keeps false s t.readmitAgain := h.foldl (·.readmitOne)
theorem Keeps.markReadmit {x} (h : Keeps false s t) : Keeps false s (t.markReadmit x) := h.foldl (·.setReadmit)
theorem Keeps.rebuildMap {x} (h : Keeps k s t) : Keeps k s (t.rebuildMap x) := .foldl (h.dropTtm.foldl (·.setMapBit)) (·.foldl (·.setMapBits))

theorem Keeps.showAsm {x} (h : Keeps k s t) : Keeps k s (t.showAsm x) := by
  unfold State.showAsm
  split
  · exact h.foldl (·.setTtByte)
  · exact h

theorem Keeps.activate {x id n} (h : Keeps false s t) : Keeps false s (t.activate x id n) :=
  (h.setReg.setReg.setTtb.inc.irq.foldl (·.setReadmit)).setCalendar.rebuildMap.showAsm.readmitAll
theorem Keeps.loadBank {x owners} (h : Keeps k s t) : Keeps k s (t.loadBank x owners) := h.dropTtm.setTtBytes
theorem Keeps.pendTable {x id n effect} (h : Keeps k s t) : Keeps k s (t.pendTable x id n effect) := h.setTtb.put.setReg

theorem Keeps.acceptTable {x id n effect owners} (h : Keeps false s t) : Keeps false s (t.acceptTable x id n effect owners) :=
  have hs0 := h.setTtb.loadBank
  .ite hs0.put.pendTable (.ite hs0.activate hs0.pendTable)

theorem Keeps.completeTable {x a} (h : Keeps false s t) : Keeps false s (t.completeTable x a) := .ite h.acceptTable h.setTtb.ttbCause

theorem Keeps.tableFragment {x id n stations effect no count crc data} (h : Keeps false s t) :
    Keeps false s (t.tableFragment x id n stations effect no count crc data) :=
  .iteElse h (fun hu => .ite (.iteThen hu (·.readmitAll)) (.iteElse hu (fun hv => .iteThen hv.setTtb.showAsm (·.completeTable))))

theorem Keeps.tableEffect {x} (h : Keeps false s t) : Keeps false s (t.tableEffect x) := by
  unfold State.tableEffect
  split
  · exact h.activate
  · exact .iteThen h (·.setTtb.put.put.irq.markReadmit.ttbCause)

theorem Keeps.sendTable {x id n stations effect crc d} (h : Keeps k s t) : Keeps k s (t.sendTable x id n stations effect crc d) :=
  h.foldl (·.sendRouted)
theorem Keeps.distribute {x effect} (h : Keeps false s t) : Keeps false s (t.distribute x effect) :=
  .iteElse h (fun hu => .ite (have hs1 := hu.setTtb.sendTable; .ite hs1.readmitAll (.iteElse hs1 (·.acceptTable))) hu.ttbCause)
theorem Keeps.ttbReset (h : Keeps k s t) : Keeps k s t.ttbReset := h.beside.foldl (·.setTtb)
theorem Keeps.ringReadyClear {x} (h : Keeps false s t) : Keeps false s (t.ringReadyClear x) :=
  .iteThen h fun hu => .iteThen hu.put.put.irq.markReadmit.put.put.setReg.setTtb.dropTtm (·.lockLost)
theorem Keeps.ringReadySet {x} (h : Keeps k s t) : Keeps k s (t.ringReadySet x) :=
  .rootLock (.iteThen (.setRc (.iteElse h (·.put.put.irq))) (·.put.put))

theorem Keeps.setRcState {x n} (h : Keeps k s t) : Keeps k s (t.setRcState x n) := h.put
theorem Keeps.sendClaim {x} (h : Keeps k s t) : Keeps k s (t.sendClaim x) := h.sendLocal
theorem Keeps.enterElect {x kept cause} (h : Keeps k s t) : Keeps k s (t.enterElect x kept cause) :=
  .sendClaim (.setRc (.iteElse h.setRcState.put.put.inc (·.put)))
theorem Keeps.rcStart {x} (h : Keeps k s t) : Keeps k s (t.rcStart x) := .iteThen h (·.enterElect)
theorem Keeps.rcStop {x} (h : Keeps false s t) : Keeps false s (t.rcStop x) := h.ringReadyClear.setRcState.put.setRc

theorem Keeps.showSpan {x station} (h : Keeps k s t) : Keeps k s (t.showSpan x station) := by
  unfold State.showSpan
  split <;> exact h.setReg

theorem Keeps.showOpen {x} (h : Keeps k s t) : Keeps k s (t.showOpen x) := h.put
theorem Keeps.setLoops {x l0 l1} (h : Keeps k s t) : Keeps k s (t.setLoops x l0 l1) := .iteElse h (·.setReg.spacingRecheck)
theorem Keeps.markBroken {x b} (h : Keeps k s t) : Keeps k s (t.markBroken x b) := h.setRc.showSpan.showOpen.setLoops.irq
theorem Keeps.spanBreak {x station p0 p1} (h : Keeps k s t) : Keeps k s (t.spanBreak x station p0 p1) :=
  .iteThen h (·.markBroken.inc.sendRouted)
theorem Keeps.rcPortDown {x p} (h : Keeps k s t) : Keeps k s (t.rcPortDown x p) := .iteElse h (fun hu => .iteThen hu.spanBreak (·.sendClaim))
theorem Keeps.holdSpan {x p} (h : Keeps k s t) : Keeps k s (t.holdSpan x p) := .iteThen h (·.setRc)
theorem Keeps.rcPortUp {x p} (h : Keeps k s t) : Keeps k s (t.rcPortUp x p) := .iteElse h.rcStart (fun hu => .iteThen hu.holdSpan (·.sendClaim))
theorem Keeps.setPortState {r' p n} (h : Keeps k s t) : Keeps k s (t.setPortState r' p n) := h.put
theorem Keeps.toModule {r' p} (h : Keeps k s t) : Keeps k s (t.toModule r' p) := h.setPort.setPortState
theorem Keeps.toWake {r' p} (h : Keeps k s t) : Keeps k s (t.toWake r' p) := .ite h.setPort.put.setPortState h.put.toModule
theorem Keeps.timingDown {r' p} (h : Keeps k s t) : Keeps k s (t.timingDown r' p) := .iteThen h (·.put)
theorem Keeps.leaveUp {r' p next} (h : Keeps k s t) : Keeps k s (t.leaveUp r' p next) :=
  h.setPortState.inc.irq.raise.setPort.timingDown.setRc.rcPortDown
theorem Keeps.noteDelay {r' p} (h : Keeps k s t) : Keeps k s (t.noteDelay r' p) := h.put.put
theorem Keeps.enterUp {r' p} (h : Keeps k s t) : Keeps k s (t.enterUp r' p) := h.setPort.step1.put.setPortState.setReg.noteDelay.irq.rcPortUp
theorem Keeps.upToDown {r' p} (h : Keeps k s t) : Keeps k s (t.upToDown r' p) := h.leaveUp
theorem Keeps.ringResetPort {r' p} (h : Keeps k s t) : Keeps k s (t.ringResetPort r' p) := .setPort (.iteThen h (·.leaveUp))
theorem Keeps.showPins {r' p} (h : Keeps k s t) : Keeps k s (t.showPins r' p) := h.put.put.put
theorem Keeps.portOff {r' p} (h : Keeps k s t) : Keeps k s (t.portOff r' p) := .ite h.leaveUp h.setPortState

theorem Keeps.ringRestartPort {r' p} (h : Keeps k s t) : Keeps k s (t.ringRestartPort r' p) := by
  unfold State.ringRestartPort
  exact .iteThen h.showPins.put.put (·.toModule)

theorem Keeps.setFabIn {i l} (h : Keeps k s t) : Keeps k s (t.setFabIn i l) := h.beside
theorem Keeps.setFabMid {m l} (h : Keeps k s t) : Keeps k s (t.setFabMid m l) := h.beside
theorem Keeps.setStream {k' x} (h : Keeps k s t) : Keeps k s (t.setStream k' x) := h.beside
theorem Keeps.setEgress {o c x} (h : Keeps k s t) : Keeps k s (t.setEgress o c x) := h.beside
theorem Keeps.setFabSrc {i l} (h : Keeps k s t) : Keeps k s (t.setFabSrc i l) := h.beside
theorem Keeps.setOutbox {o l} (h : Keeps k s t) : Keeps k s (t.setOutbox o l) := h.beside
theorem Keeps.present {i f level cipherDone discard untrusted} (h : Keeps k s t) : Keeps k s (t.present i f level cipherDone discard untrusted) :=
  h.setFabSrc
theorem Keeps.discardCells {i n} (h : Keeps k s t) : Keeps k s (t.discardCells i n) := h.addCnt
theorem Keeps.handOver {f} (h : Keeps false s t) : Keeps false s (t.handOver f) := .iteThen h (·.cntCtx.addOctets.setCtx.setCtx)
theorem Keeps.countLostFlow {f} (h : Keeps false s t) : Keeps false s (t.countLostFlow f) := .iteThen h (·.cntCtx)
theorem Keeps.countLost {f} (h : Keeps false s t) : Keeps false s (t.countLost f) := .iteThen h (·.countLostFlow)
theorem Keeps.countDropped {d} (h : Keeps false s t) : Keeps false s (t.countDropped d) := .iteElse h (·.countLost)

theorem Keeps.loseCell {c} (h : Keeps false s t) : Keeps false s (t.loseCell c) := by
  unfold State.loseCell
  dsimp only
  split
  · exact .iteElse h.discardCells (·.countLostFlow)
  · exact h.discardCells

theorem Keeps.resetOutbox {o} (h : Keeps false s t) : Keeps false s (t.resetOutbox o) :=
  have hs0 := h.foldl (·.discardCells)
  .ite (hs0.setOutbox.foldl (·.countLost)) hs0.setOutbox

theorem Keeps.resetEgress {o cls} (h : Keeps false s t) : Keeps false s (t.resetEgress o cls) := by
  unfold State.resetEgress
  dsimp only
  split
  · exact h
  · exact .ite (h.foldl (·.loseCell)) h.setOutbox

theorem Keeps.fabReset (h : Keeps false s t) : Keeps false s t.fabReset :=
  (((h.foldl (fun hu => .ite hu.discardCells hu.loseCell)).foldl (·.resetOutbox)).foldl (·.resetEgress)).beside
theorem Keeps.fabStart (h : Keeps false s t) : Keeps false s t.fabStart := h.fabReset.beside

end Sys2Proof.Machine
end

section
/-! PROOF. What operations keep: local memory, the DMA channels, the key store, the cipher engine, field queues. -/
namespace Sys2Proof.Machine

variable {k : Bool} {s t u : State}

theorem Keeps.directWrite {a bs} (h : Keeps false s t) : Keeps false s (t.directWrite a bs) := .ite h.setBytes.touch h.inc

theorem Keeps.memStore {a bs} (h : Keeps false s t) : Keeps false s (t.memStore a bs) := by
  unfold State.memStore
  split
  · exact h
  · exact h.directWrite
  · exact h
  · exact h
  · exact h.setBytes
  · exact h

theorem Keeps.memWriteReq {q a bs r} (h : Keeps false s t) (e : t.memWriteReq q a bs = r) : Keeps false s r.2 := by
  subst e
  exact .iteSnd h.fault (.iteSnd h.memStore h)

theorem Keeps.eccDisable {f} (h : Keeps false s t) : Keeps false s (t.eccDisable f) :=
  .iteElse h (fun hu => .ite hu.disableFlow.dropWaiting hu.setEnt.unwanted.dropWaiting)

theorem Keeps.flowFault {a} (h : Keeps false s t) : Keeps false s (t.flowFault a) :=
  .ite (by
    split
    · exact h.eccDisable
    · exact h) h.step1.eccDisable

theorem Keeps.flowEcc {a} (h : Keeps false s t) : Keeps false s (t.flowEcc a) := by
  unfold State.flowEcc
  split
  · exact h
  · exact h.disarm.inc
  · dsimp only
    split
    · exact h.disarm.raiseInj
    · exact h.disarm.raiseInj.eccDisable

theorem Keeps.memReadReq {q a n r} (h : Keeps false s t) (e : t.memReadReq q a n = r) : Keeps false s r.2.2 := by
  subst e
  exact .iteSndSnd h.fault (.iteSndSnd (.iteThen h (·.flowEcc)) h)

theorem Keeps.setChState {c n} (h : Keeps k s t) : Keeps k s (t.setChState c n) := h.put

theorem Keeps.xlRange {n c a len x first r} (h : Keeps k s t) (e : t.xlRange n c a len x first = r) : Keeps k s r.2 := by
  subst e
  induction n generalizing t a len with
  | zero => exact h
  | succ n ih => exact .iteSnd h (.iteSnd (h.translate rfl).xltFault (ih (h.translate rfl)))

theorem Keeps.xlate {c a n x first r} (h : Keeps k s t) (e : t.xlate c a n x first = r) : Keeps k s r.2 := by
  subst e
  exact h.xlRange rfl

theorem Keeps.readLocal {n q a len r} (h : Keeps false s t) (e : t.readLocal n q a len = r) : Keeps false s r.2.2 := by
  subst e
  induction n generalizing t a len with
  | zero => exact h
  | succ n ih => exact .iteSndSnd h (.iteSndSnd (.sndSnd (h.memReadReq rfl)) (.sndSnd (ih (h.memReadReq rfl))))

theorem Keeps.writeLocal {n q a bs r} (h : Keeps false s t) (e : t.writeLocal n q a bs = r) : Keeps false s r.2 := by
  subst e
  induction n generalizing t a bs with
  | zero => exact h
  | succ n ih => exact .iteSnd h (.iteSnd (h.memWriteReq rfl) (ih (h.memWriteReq rfl)))

theorem Keeps.readPieces {c host l r} (h : Keeps false s t) (e : t.readPieces c host l = r) : Keeps false s r.2.2 := by
  subst e
  induction l generalizing t with
  | nil => exact h
  | cons p l ih =>
    have hp : Keeps false s (if p.target = 0 then t.readLocal (p.len / 128 + 2) (dmaReq c) p.out p.len
      else (0, (List.range p.len).map (fun i => hostOctet host t.free (p.out + i)), t.step1)).2.2 := .iteSndSnd (h.readLocal rfl) h.step1
    exact .iteSndSnd hp (ih hp)

theorem Keeps.writePieces {c l bs r} (h : Keeps false s t) (e : t.writePieces c l bs = r) : Keeps false s r.2 := by
  subst e
  induction l generalizing t bs with
  | nil => exact h
  | cons p l ih =>
    have hp : Keeps false s (if p.target = 0 then t.writeLocal (p.len / 128 + 2) (dmaReq c) p.out (bs.take p.len)
      else (0, t.emit (.busWrite (p.target - 1) p.out (bs.take p.len)))).2 := .iteSnd (h.writeLocal rfl) h.emit
    exact .iteSnd hp (ih hp)

theorem Keeps.dmaFault {c cause a} (h : Keeps k s t) : Keeps k s (t.dmaFault c cause a) := h.put.setReg.inc.irq.setChState
theorem Keeps.dmaStopped {c} (h : Keeps k s t) : Keeps k s (t.dmaStopped c) := h.setChState.irq
theorem Keeps.dmaDone {c st final} (h : Keeps k s t) : Keeps k s (t.dmaDone c st final) :=
  .iteElse (.iteThen h.setDma.inc (·.irq)) (fun hu => .ite hu.fault.dmaStopped (.ite hu.setDma.setChState hu.setReg))

theorem Keeps.dmaComplete {c st sub final} (h : Keeps false s t) : Keeps false s (t.dmaComplete c st sub final) := by
  unfold State.dmaComplete
  dsimp only
  split
  · exact .ite (h.xlate rfl).dmaDone (h.xlate rfl).setDma.dmaFault
  · exact ((h.xlate rfl).writePieces rfl).dmaDone

theorem Keeps.takeBuffer {c host want r} (h : Keeps false s t) (e : t.takeBuffer c host want = r) : Keeps false s r.2 := by
  subst e
  exact .iteSnd h (by
    dsimp only
    split
    · exact (h.xlate rfl).dmaFault
    · split
      · exact (((h.xlate rfl).readPieces rfl).xlate rfl).dmaFault
      · exact (((h.xlate rfl).readPieces rfl).xlate rfl).put)

theorem Keeps.rxFill {n c host o r} (h : Keeps false s t) (e : t.rxFill n c host o = r) : Keeps false s r.2.2 := by
  subst e
  induction n generalizing t o with
  | zero => exact h
  | succ n ih =>
    refine .iteSndSnd h ?_
    split
    next heq => exact h.takeBuffer heq
    next heq => exact ih ((h.takeBuffer heq).writePieces rfl)

theorem Keeps.rsvFill {n c o used r} (h : Keeps false s t) (e : t.rsvFill n c o used = r) : Keeps false s r.2.2 := by
  subst e
  induction n generalizing t o used with
  | zero => exact h
  | succ n ih =>
    unfold State.rsvFill
    dsimp only
    split
    · exact h
    · refine .iteSndSnd h ?_
      split
      · exact h.xlate rfl
      · exact ih ((h.xlate rfl).writePieces rfl).setDma.irq

theorem Keeps.rxDescs {c o status reserve} (h : Keeps false s t) : Keeps false s (t.rxDescs c o status reserve) :=
  h.foldl (fun hu => by
    dsimp only
    split
    · exact (hu.xlate rfl).dmaFault
    · exact (hu.xlate rfl).writePieces rfl)

theorem Keeps.flowCount {f off} (h : Keeps false s t) : Keeps false s (t.flowCount f off) := .iteThen h (·.cntCtx)

theorem Keeps.rxFinish {c o status reserve lost} (h : Keeps false s t) : Keeps false s (t.rxFinish c o status reserve lost) :=
  have hs0 := h.rxDescs.inc.irq
  .ite hs0.handOver (.ite hs0.countLost (.ite hs0.flowCount hs0.flowCount))

theorem Keeps.lost0 (h : Keeps k s t) : Keeps k s t.lost0 := h.inc.ttbCause.raise.irq

theorem Keeps.rxPump {n c host} (h : Keeps false s t) : Keeps false s (t.rxPump n c host) := by
  induction n generalizing t with
  | zero => exact h
  | succ n ih =>
    unfold State.rxPump
    split
    · exact h
    · split
      next heq => exact (h.rxFill heq).setDma
      next heq => exact ih (h.rxFill heq).setDma.rxFinish

theorem Keeps.rxFrame {port host d} (h : Keeps false s t) : Keeps false s (t.rxFrame port host d) := by
  unfold State.rxFrame
  dsimp only
  split
  · exact .iteThen h.flowCount.inc.fault (·.lost0)
  · refine .ite ?_ (.ite h.setDma.rxPump ?_)
    · split
      next heq => exact (h.takeBuffer heq).rxFinish
      next heq => exact (h.takeBuffer heq).rxFinish
    · split
      next heq => exact (h.rxFill heq).rxFinish
      next heq =>
        exact
          have hr := (h.rxFill heq).rsvFill rfl
          .ite (.rxFinish (.iteThen hr (·.inc))) (.rxFinish (.lost0 (.iteThen (.iteThen hr (·.inc)) (·.setDma))))

theorem Keeps.rxStall {c} (h : Keeps false s t) : Keeps false s (t.rxStall c) :=
  .iteElse h (fun hu => .iteElse hu (fun hv => by
    dsimp only
    split
    · exact hv
    · exact hv.setDma.discardCells.inc.irq.rxFinish.rxPump))

theorem Keeps.rxDiscardOpen (h : Keeps false s t) : Keeps false s t.rxDiscardOpen := h.foldl (·.setDma.foldl (·.discardCells.rxFinish))
theorem Keeps.dmaHalt {c} (h : Keeps false s t) : Keeps false s (t.dmaHalt c) :=
  .foldl (.setBr (.setDma (.iteElse h (·.dmaComplete)))) (·.rxFinish)
theorem Keeps.dmaFree {c forced} (h : Keeps false s t) : Keeps false s (t.dmaFree c forced) := .iteThen h.dmaHalt.setDma.setReg.setReg (·.inc)
theorem Keeps.dmaBlockReset {c} (h : Keeps false s t) : Keeps false s (t.dmaBlockReset c) := h.dmaHalt.setDma
theorem Keeps.dmaRestart {c} (h : Keeps k s t) : Keeps k s (t.dmaRestart c) := .iteElse h.setDma (·.put.setChState)

theorem Keeps.revoke {n} (h : Keeps false s t) : Keeps false s (t.revoke n) := .iteElse h (fun hu => (hu.foldl (·.setKey)).irq)
theorem Keeps.keyLog {slot code result ring counter} (h : Keeps false s t) : Keeps false s (t.keyLog slot code result ring counter) :=
  .stage (.irq (.iteThen h (·.beside)))

theorem Keeps.takeUse {n r} (h : Keeps false s t) (e : t.takeUse n = r) : Keeps false s r.2 := by
  subst e
  exact .iteSnd h (.iteSnd h.setKey h.setKey.revoke.irq.raise.keyLog)

theorem Keeps.keyEcc {n r} (h : Keeps false s t) (e : t.keyEcc n = r) : Keeps false s r.2 := by
  subst e
  unfold State.keyEcc
  split
  · exact h
  · exact h.disarm
  · exact h.disarm.setKey.revoke.raiseInj

theorem Keeps.keyStart {n r} {usage : Nat → Bool} (h : Keeps false s t) (e : t.keyStart n usage = r) : Keeps false s r.2 := by
  subst e
  exact .iteSnd h (.iteSnd (h.keyEcc rfl) ((h.keyEcc rfl).takeUse rfl))

theorem Keeps.keyErase (h : Keeps false s t) : Keeps false s t.keyErase := h.besideFormed.put.inc.irq.irq.raise.keyLog
theorem Keeps.keyResult {slot code done} (h : Keeps k s t) : Keeps k s (t.keyResult slot code done) := h.setReg

theorem Keeps.msgEnd {m code} (h : Keeps false s t) : Keeps false s (t.msgEnd m code) :=
  have hs0 := h.keyResult.keyLog
  .ite hs0.raise (.iteThen hs0 (·.raise))

theorem Keeps.msgNewKey {m r} (h : Keeps false s t) (e : t.msgNewKey m = r) : Keeps false s r.2 := by
  subst e
  exact .iteSnd h (.iteSnd h (h.takeUse rfl))

theorem Keeps.msgApply {m} (h : Keeps false s t) : Keeps false s (t.msgApply m) :=
  .ite h.msgEnd (.msgEnd (.setReg (.ite h.setKey.revoke (h.revoke.msgNewKey rfl).setKey)))

theorem Keeps.keyMessage (h : Keeps false s t) : Keeps false s t.keyMessage := by
  unfold State.keyMessage
  split
  · exact .ite h.beside.msgEnd (.ite h.beside.msgApply h.beside.beside.keyResult.put.irq)
  · exact h

theorem Keeps.keyCommitEnd {commit} (h : Keeps false s t) : Keeps false s (t.keyCommitEnd commit) := by
  unfold State.keyCommitEnd
  split
  · exact h
  · exact .ite h.beside.put.msgApply h.beside.put.msgEnd

theorem Keeps.keyQueue {m} (h : Keeps false s t) : Keeps false s (t.keyQueue m) := .ite h.msgEnd h.beside

theorem Keeps.cipherOut {d f discard untrusted} (h : Keeps false s t) : Keeps false s (t.cipherOut d f discard untrusted) :=
  .setFabSrc (by
    split
    · exact .iteThen h (·.countLostFlow)
    · exact h)

theorem Keeps.cipherDropFrame (h : Keeps false s t) : Keeps false s t.cipherDropFrame := by
  unfold State.cipherDropFrame
  split
  · exact h
  · exact h.besideFormed.cipherOut

theorem Keeps.cipherArmed {r} (h : Keeps k s t) (e : t.cipherArmed = r) : Keeps k s r.2 := by
  subst e
  unfold State.cipherArmed
  split
  · exact h
  · exact h.disarm

theorem Keeps.setJob {r' j} (h : Keeps false s t) : Keeps false s (t.setJob r' j) := h.besideFormed
theorem Keeps.jrFault {r' cause a} (h : Keeps false s t) : Keeps false s (t.jrFault r' cause a) := h.setReg.setReg.setJob.irq

theorem Keeps.jrDone {r' status bytes revoked irq} (h : Keeps false s t) : Keeps false s (t.jrDone r' status bytes revoked irq) := by
  unfold State.jrDone
  dsimp only
  split
  · exact (h.xlate rfl).jrFault
  · exact
      have hs0 := ((h.xlate rfl).writePieces rfl).setJob.inc.setReg
      .iteThen (.ite hs0.setReg.raise (.iteThen hs0.setReg (·.raise))) (·.irq)

theorem Keeps.jrStart {n r'} (h : Keeps false s t) : Keeps false s (t.jrStart n r') := by
  induction n generalizing t with
  | zero => exact h
  | succ n ih =>
    refine .ite h ?_
    dsimp only
    split
    · exact (h.xlate rfl).jrFault
    · refine .ite (ih ((h.xlate rfl).readPieces rfl).jrDone) (.ite (ih ((h.xlate rfl).readPieces rfl).jrDone) ?_)
      split
      · exact ih (((h.xlate rfl).readPieces rfl).keyStart rfl).jrDone
      · exact (((h.xlate rfl).readPieces rfl).keyStart rfl).setJob.setReg

theorem Keeps.jobRead {r' a n r} (h : Keeps false s t) (e : t.jobRead r' a n = r) : Keeps false s r.2 := by
  subst e
  unfold State.jobRead
  dsimp only
  split
  · exact h.xlate rfl
  · exact (h.xlate rfl).readPieces rfl

theorem Keeps.jobWrite {r' a bs r} (h : Keeps false s t) (e : t.jobWrite r' a bs = r) : Keeps false s r.2 := by
  subst e
  exact .iteSnd h (by
    dsimp only
    split
    · exact h.xlate rfl
    · exact (h.xlate rfl).writePieces rfl)

theorem Keeps.jobsEnd {status} (h : Keeps false s t) : Keeps false s (t.jobsEnd status) :=
  h.foldl (fun hu => by
    split
    · exact hu
    · exact hu.jrDone)

theorem Keeps.erase (h : Keeps false s t) : Keeps false s t.erase :=
  (h.cipherDropFrame.foldl (fun hu => by
    split
    · exact hu
    · exact hu.jrDone)).keyErase.jrStart.jrStart

theorem Keeps.cipherMismatch {job slot what} (h : Keeps false s t) : Keeps false s (t.cipherMismatch job slot what) :=
  .iteThen (.besideFormed (.iteElse h.inc.irq (·.step1.setReg))) (·.besideFormed.erase)
theorem Keeps.cipherBlockReset (h : Keeps false s t) : Keeps false s t.cipherBlockReset := h.cipherDropFrame.jobsEnd.besideFormed

theorem Keeps.fqTopUp {c q} (h : Keeps k s t) : Keeps k s (t.fqTopUp c q) := .ite h.setFq (.iteElse h (·.setFq))
theorem Keeps.fqFault {c} (h : Keeps k s t) : Keeps k s (t.fqFault c) := h.irq.raise

theorem Keeps.fqEcc {c r} (h : Keeps k s t) (e : t.fqEcc c = r) : Keeps k s r.2 := by
  subst e
  unfold State.fqEcc
  split
  · exact h
  · exact h.disarm.inc
  · exact h.disarm.irq.raiseInj

theorem Keeps.fqSendOne {c q} (h : Keeps k s t) : Keeps k s (t.fqSendOne c q) :=
  .iteElse h (fun hu => by
    split
    · exact hu
    · exact
        have hs1 := (hu.fqEcc rfl).setFq
        .ite hs1.inc.fqTopUp hs1.present.fqTopUp)

theorem Keeps.fqCommit {c q last} (h : Keeps k s t) : Keeps k s (t.fqCommit c q last) := .fqTopUp (.fqSendOne (.iteThen h.setFq (·.irq)))
theorem Keeps.fqPut {c q item last} (h : Keeps k s t) : Keeps k s (t.fqPut c q item last) :=
  .iteElse h (fun hu => .ite hu.setFq.fqCommit hu.setFq.fqTopUp)

theorem Keeps.fqDrain {n c q} (h : Keeps k s t) : Keeps k s (t.fqDrain n c q) := by
  induction n generalizing t with
  | zero => exact h
  | succ n ih =>
    unfold State.fqDrain
    dsimp only
    split
    · exact h
    · exact .ite h (ih h.setFq.fqPut)

theorem Keeps.fqGrant {c q} (h : Keeps k s t) : Keeps k s (t.fqGrant c q) := h.fqTopUp.fqDrain
theorem Keeps.fqSend {c} (h : Keeps k s t) : Keeps k s (t.fqSend c) :=
  .iteThen (h.foldl (fun hu => .iteThen hu (·.fqSendOne))) (·.foldl (fun hv => .iteThen hv (·.fqGrant)))
theorem Keeps.fqProduce {c q item last} (h : Keeps k s t) : Keeps k s (t.fqProduce c q item last) := .ite h.fqPut.fqGrant h.setFq

theorem Keeps.fqTake {c q r} (h : Keeps k s t) (e : t.fqTake c q = r) : Keeps k s r.2 := by
  subst e
  unfold State.fqTake
  dsimp only
  split
  · exact h
  · exact .iteThen (.iteThen h.setFq (·.inc)) (·.fqEcc rfl)

theorem Keeps.fqDrop {c n} (h : Keeps k s t) : Keeps k s (t.fqDrop c n) := .iteElse h (·.addCnt.irq)
theorem Keeps.fqFlushRx {c q} (h : Keeps k s t) : Keeps k s (t.fqFlushRx c q) := h.setFq.fqDrop.fqGrant
theorem Keeps.fqFlushTx {c q} (h : Keeps k s t) : Keeps k s (t.fqFlushTx c q) := h.setFq.fqDrop
theorem Keeps.fqClear {c q} (h : Keeps k s t) : Keeps k s (t.fqClear c q) := h.setFq.fqDrop
theorem Keeps.fqBlockReset {c} (h : Keeps k s t) : Keeps k s (t.fqBlockReset c) := h.foldl (·.fqClear)
theorem Keeps.fqRestart {c} (h : Keeps k s t) : Keeps k s (t.fqRestart c) := h.foldl (fun hu => .iteThen hu (·.fqGrant))

end Sys2Proof.Machine
end

section
/-! PROOF. What operations keep: serial units, cloves, MACs, the power die. -/
namespace Sys2Proof.Machine

variable {k : Bool} {s t u : State}

theorem Keeps.unitRelease {p last} (h : Keeps k s t) : Keeps k s (t.unitRelease p last) := by
  unfold State.unitRelease
  split
  · exact h.setUnit.fqProduce
  · exact h

theorem Keeps.unitItem {p i} (h : Keeps k s t) : Keeps k s (t.unitItem p i) := h.unitRelease.setUnit

theorem Keeps.unitFault {p} (h : Keeps k s t) : Keeps k s (t.unitFault p) := by
  unfold State.unitFault
  split
  · exact h.fault
  · exact h

theorem Keeps.unitStop {p owed} (h : Keeps k s t) : Keeps k s (t.unitStop p owed) := .setUnit (.iteThen h (·.emit))

theorem Keeps.unitBlockReset {p} (h : Keeps k s t) : Keeps k s (t.unitBlockReset p) := by
  unfold State.unitBlockReset
  split
  · exact h.setUnit.setFq
  · exact h

theorem Keeps.canBlockReset {n} (h : Keeps k s t) : Keeps k s (t.canBlockReset n) := h.setCan.setFq
theorem Keeps.canLeave {n} (h : Keeps k s t) : Keeps k s (t.canLeave n) := .iteElse h (·.setCan)
theorem Keeps.canJoin {n} (h : Keeps k s t) : Keeps k s (t.canJoin n) := h.setCan
theorem Keeps.onDisable {p} (h : Keeps k s t) : Keeps k s (t.onDisable p) := .ite h.unitStop (.iteThen h (·.canLeave))
theorem Keeps.onEnable {p} (h : Keeps k s t) : Keeps k s (t.onEnable p) := .ite h.canJoin (.iteThen h (·.setMac))

theorem Keeps.setClvSo {e' k' w} (h : Keeps k s t) : Keeps k s (t.setClvSo e' k' w) := h.setReg
theorem Keeps.setClvSi {e' k' w} (h : Keeps k s t) : Keeps k s (t.setClvSi e' k' w) := h.setReg
theorem Keeps.setClvCounter {e' k' n} (h : Keeps k s t) : Keeps k s (t.setClvCounter e' k' n) := h.put
theorem Keeps.setClvScratch0 {e' k' n} (h : Keeps k s t) : Keeps k s (t.setClvScratch0 e' k' n) := h.put
theorem Keeps.setClvScratch1 {e' k' n} (h : Keeps k s t) : Keeps k s (t.setClvScratch1 e' k' n) := h.put
theorem Keeps.cloveFault {e'} (h : Keeps k s t) : Keeps k s (t.cloveFault e') := h.fault

theorem Keeps.progRead {e' bank a r} (h : Keeps k s t) (e : t.progRead e' bank a = r) : Keeps k s r.2 := by
  subst e
  unfold State.progRead
  split
  · exact h
  · exact h.disarm
  · exact h.disarm.raiseInj

theorem Keeps.clvDrive {e' k' off v} (h : Keeps k s t) : Keeps k s (t.clvDrive e' k' off v) := .iteThen h.setClv (·.emit)
theorem Keeps.clvRelease {e' k'} (h : Keeps k s t) : Keeps k s (t.clvRelease e' k') := h.foldl (·.clvDrive)
theorem Keeps.clvActions {e' k' w} (h : Keeps k s t) : Keeps k s (t.clvActions e' k' w) :=
  h.foldl (fun hu => .iteElse hu (fun hv => .ite hv.clvDrive (.ite hv.clvDrive (.iteThen hv (·.clvDrive)))))

theorem Keeps.clvRefill {n e' k'} (h : Keeps k s t) : Keeps k s (t.clvRefill n e' k') := by
  induction n generalizing t with
  | zero => exact h
  | succ n ih => exact .ite h (ih (h.fqTake rfl).setClv)

theorem Keeps.fqFed {c q} (h : Keeps k s t) : Keeps k s (t.fqFed c q) := .iteThen h (·.clvRefill)
theorem Keeps.clvEmpty {e' k'} (h : Keeps k s t) : Keeps k s (t.clvEmpty e' k') := h.setClv.setFq
theorem Keeps.cloveSwapCheck {e'} (h : Keeps k s t) : Keeps k s (t.cloveSwapCheck e') := .iteThen h (·.put.irq)
theorem Keeps.clvStop {e' k' cause} (h : Keeps k s t) : Keeps k s (t.clvStop e' k' cause) := h.setClv.cloveSwapCheck
theorem Keeps.clvError {e' k' raised} (h : Keeps k s t) : Keeps k s (t.clvError e' k' raised) := .iteElse h.clvStop.inc.irq (·.cloveFault)
theorem Keeps.clvNext {e' k'} (h : Keeps k s t) : Keeps k s (t.clvNext e' k') := h.setClv.cloveSwapCheck
theorem Keeps.clvOut {e' k' w} (h : Keeps k s t) : Keeps k s (t.clvOut e' k' w) := h.setClvSo.clvDrive
theorem Keeps.clvIn {e' k' w b} (h : Keeps k s t) : Keeps k s (t.clvIn e' k' w b) := h.setClvSi
theorem Keeps.clvBit {e' k' w b} (h : Keeps k s t) : Keeps k s (t.clvBit e' k' w b) := .ite h.clvOut h.clvIn
theorem Keeps.clvUseEdge {e' k'} (h : Keeps k s t) : Keeps k s (t.clvUseEdge e' k') := h.setClv.addCnt

theorem Keeps.clvClock {e' k' w r} (h : Keeps k s t) (e : t.clvClock e' k' w = r) : Keeps k s r.2 := by
  subst e
  exact
    have hs0 := h.clvUseEdge.setClv
    .iteSnd (.iteElse hs0 (·.clvIn)) hs0.clvBit

theorem Keeps.clvCountdown {e' k' reg r} (h : Keeps k s t) (e : t.clvCountdown e' k' reg = r) : Keeps k s r.2 := by
  subst e
  exact .iteSnd h.setClvScratch0 (.iteSnd h.setClvScratch1 h.setClvCounter)

theorem Keeps.clvExch {e' k' op} (h : Keeps k s t) : Keeps k s (t.clvExch e' k' op) :=
  .ite h.setClvSo.setClvSi (.ite h.setClvSo (.ite h.setClvSi (.ite h.setClvCounter.setClvScratch0 (.ite h.setClvCounter.setClvScratch1
    (.ite h.setClvScratch0 (.ite h.setClvScratch1 h.setClvSo))))))

theorem Keeps.clvLoad {e' k' dest value} (h : Keeps k s t) : Keeps k s (t.clvLoad e' k' dest value) :=
  .ite h.setClvCounter (.ite h.setClvScratch0 (.ite h.setClvScratch1 h.setClvCounter))
theorem Keeps.clvTake {e' k' dest} (h : Keeps k s t) : Keeps k s (t.clvTake e' k' dest) :=
  .clvRefill (.ite h.setClv.setClvSo (.ite h.setClv.setClvCounter (.ite h.setClv.setClvScratch0 h.setClv.setClvScratch1)))
theorem Keeps.clvGive {e' k' w} (h : Keeps k s t) : Keeps k s (t.clvGive e' k' w) :=
  .iteElse h.fqProduce (fun hu => .ite hu.setClvSi (.ite hu.setClvSo (.ite hu.setClvCounter hu.setReg)))
theorem Keeps.clvTimeout {e' k' b} (h : Keeps k s t) : Keeps k s (t.clvTimeout e' k' b) := h.setClv
theorem Keeps.clvStalled {e' k'} (h : Keeps k s t) : Keeps k s (t.clvStalled e' k') := h.setClv

theorem Keeps.clvOwn {e' k' w t' smp r} (h : Keeps k s t) (e : t.clvOwn e' k' w t' smp = r) : Keeps k s r.2 := by
  subst e
  exact .iteSnd h (.iteSnd (h.clvCountdown rfl) (.iteSnd h (.iteSnd (.irq (.clvStop (.iteThen h (·.clvRelease))))
    (.iteSnd (.iteSnd (.iteSnd (.setClv (.iteThen h (·.clvOut))) (.iteSnd h (h.clvClock rfl))) (.iteThen h (·.clvBit)))
    (.iteSnd h.clvExch (.iteSnd h.clvLoad (.iteSnd h (.iteSnd h.clvTake (.iteSnd (.iteSnd h.clvGive h.clvStalled)
    (.iteSnd h.setClv (.iteSnd (.iteSnd (.iteSnd h.clvTimeout h.clvStalled.setClv) (.iteSnd h.clvUseEdge.clvTimeout
    (.iteSnd (have hs0 := h.setClvCounter; .iteSnd hs0.clvTimeout hs0) h))) (.iteSnd (.iteThen h.setReg (·.irq)) (.iteSnd h.setClv.cloveSwapCheck
    h)))))))))))))

theorem Keeps.clvAfter {e' k' w r' fast} (h : Keeps k s t) : Keeps k s (t.clvAfter e' k' w r' fast) := by
  unfold State.clvAfter
  dsimp only
  split
  · exact .iteElse h (·.setClv)
  · exact .iteThen h.setClv (·.clvNext)

theorem Keeps.clvFirst {e' k' smp fast} (h : Keeps k s t) : Keeps k s (t.clvFirst e' k' smp fast) := by
  unfold State.clvFirst
  dsimp only
  split
  next heq => exact (h.progRead heq).clvError
  next heq => exact .ite (h.progRead heq).clvError ((h.progRead heq).setClv.clvActions.clvOwn rfl).clvAfter

theorem Keeps.clvTurn {e' k' smp fast} (h : Keeps k s t) : Keeps k s (t.clvTurn e' k' smp fast) :=
  .iteElse h (fun hu => by
    dsimp only
    split
    · exact hu.clvFirst
    · exact .ite (.iteThen hu.setClv (·.clvNext)) (hu.clvOwn rfl).clvAfter)

theorem Keeps.clvFinish {n e' k' smp} (h : Keeps k s t) : Keeps k s (t.clvFinish n e' k' smp) := by
  induction n generalizing t with
  | zero => exact h
  | succ n ih => exact .ite h (ih h.clvTurn)

theorem Keeps.clvSkip {e' k'} (h : Keeps k s t) : Keeps k s (t.clvSkip e' k') := by
  unfold State.clvSkip
  dsimp only
  split
  · exact .iteThen h (·.setClv)
  · exact h

theorem Keeps.clvSettle {e' k' smp} (h : Keeps k s t) : Keeps k s (t.clvSettle e' k' smp) := h.clvSkip.clvFinish
theorem Keeps.clvRun {e' k' lo hi smp} (h : Keeps k s t) : Keeps k s (t.clvRun e' k' lo hi smp) :=
  .iteElse h (fun hu => .iteElse hu.clvSettle (·.clvTurn.clvSettle))

theorem Keeps.clvEdge {c p rising} (h : Keeps k s t) : Keeps k s (t.clvEdge c p rising) :=
  h.foldl (fun hu => by
    split
    · exact hu
    · exact .iteThen hu (fun hv => .iteThen hv.setClv (·.clvTurn)))

theorem Keeps.clvPins {c before} (h : Keeps k s t) : Keeps k s (t.clvPins c before) := .iteElse h (·.foldl (fun hv => .iteThen hv (·.clvEdge)))
theorem Keeps.pinSeen {c p now} (h : Keeps k s t) : Keeps k s (t.pinSeen c p now) :=
  .iteElse (.iteThen h (·.clvEdge)) (fun hu => .iteElse hu.setReg (·.irq))
theorem Keeps.pinsSeen {c before} (h : Keeps k s t) : Keeps k s (t.pinsSeen c before) :=
  .iteElse h (·.foldl (fun hv => .iteThen hv (·.pinSeen)))
theorem Keeps.clvResume {e' k'} (h : Keeps k s t) : Keeps k s (t.clvResume e' k') := h.clvTurn.clvSettle
theorem Keeps.clvStart {e' k'} (h : Keeps k s t) : Keeps k s (t.clvStart e' k') := .ite h.warn h.setClv.clvEmpty.clvRefill
theorem Keeps.cloveBlockReset {e'} (h : Keeps k s t) : Keeps k s (t.cloveBlockReset e') :=
  h.foldl (fun hu => (hu.foldl (fun hv => .iteThen hv (·.clvDrive))).setClv.clvEmpty)

theorem Keeps.macFault {m} (h : Keeps k s t) : Keeps k s (t.macFault m) := h.fault
theorem Keeps.macHalf {m i} (h : Keeps k s t) : Keeps k s (t.macHalf m i) := h.setReg.irq
theorem Keeps.macCnt {m i n} (h : Keeps k s t) : Keeps k s (t.macCnt m i n) := .iteElse h.addCnt (·.macHalf)
theorem Keeps.macTxDrop {m} (h : Keeps k s t) : Keeps k s (t.macTxDrop m) := h.macCnt.irq.macFault

theorem Keeps.macLine {m l} (h : Keeps k s t) : Keeps k s (t.macLine m l) :=
  have hs0 := h.macCnt.macCnt
  .emit (.ite (.macCnt (.ite hs0.macCnt (.ite hs0.macCnt hs0.macCnt))) (.ite (.macCnt (.ite hs0.macCnt (.ite hs0.macCnt hs0.macCnt)))
    (.macCnt (.ite hs0.macCnt (.ite hs0.macCnt hs0.macCnt)))))

theorem Keeps.macRefused {f} (h : Keeps k s t) : Keeps k s (t.macRefused f) := .iteThen h (·.macCnt.irq)
theorem Keeps.macBlockReset {m} (h : Keeps k s t) : Keeps k s (t.macBlockReset m) := h.setMac
theorem Keeps.wakeMatch {m hits} (h : Keeps k s t) : Keeps k s (t.wakeMatch m hits) := .iteElse h (·.setReg.macCnt.irq)

theorem Keeps.tunnelOut {l island} (h : Keeps k s t) : Keeps k s (t.tunnelOut l island) :=
  .iteElse h (fun hu => by
    split
    · exact hu
    · exact .iteElse hu (fun hv => .ite hv.inc (hv.foldl (fun hw => by
        dsimp only
        split
        · exact hw
        · exact hw.beside.present))))

theorem Keeps.pdSet {a v} (h : Keeps k s t) : Keeps k s (t.pdSet a v) := .iteThen h.beside (·.setReg)
theorem Keeps.pdPut {a f n} (h : Keeps k s t) : Keeps k s (t.pdPut a f n) := h.pdSet
theorem Keeps.pdInc {a} (h : Keeps k s t) : Keeps k s (t.pdInc a) := h.pdSet
theorem Keeps.pdOr {a n} (h : Keeps k s t) : Keeps k s (t.pdOr a n) := h.pdSet
theorem Keeps.pdRefresh (h : Keeps k s t) : Keeps k s t.pdRefresh := .foldl (h.cells (spWf_spDrop _) id rfl) (fun hu => .iteThen hu (·.setReg))
theorem Keeps.pdIrq {p n} (h : Keeps k s t) : Keeps k s (t.pdIrq p n) := .iteThen h (·.irq)
theorem Keeps.driveVcore {code} (h : Keeps k s t) : Keeps k s (t.driveVcore code) := h.emit.pdPut
theorem Keeps.pdEvent {code arg data} (h : Keeps false s t) : Keeps false s (t.pdEvent code arg data) :=
  .ite h.stage (.ite h.beside.pdPut h.pdPut)
theorem Keeps.pdRaise {src page} (h : Keeps k s t) : Keeps k s (t.pdRaise src page) := .ite h.raise h.beside
theorem Keeps.hsFault {bit} (h : Keeps k s t) : Keeps k s (t.hsFault bit) :=
  .ite h.pdOr.pdIrq.pdRaise (.ite h.pdOr.pdIrq.pdRaise (.ite h.pdOr.pdIrq.pdRaise (.ite h.pdOr.pdIrq.pdRaise (.iteThen h.pdOr.pdIrq (·.pdRaise)))))
theorem Keeps.pdErrN {cause src} (h : Keeps k s t) : Keeps k s (t.pdErrN cause src) := .iteElse h (·.pdSet.pdIrq)
theorem Keeps.latchErrN {cause src} (h : Keeps k s t) : Keeps k s (t.latchErrN cause src) := .iteElse h (·.pdErrN.setReg.irq)
theorem Keeps.outShow {g} (h : Keeps k s t) : Keeps k s (t.outShow g) := h.pdSet
theorem Keeps.outsShow (h : Keeps k s t) : Keeps k s t.outsShow := h.outShow.outShow.outShow.outShow
theorem Keeps.linkLoss (h : Keeps k s t) : Keeps k s t.linkLoss := h.foldl (·.pdPut.outShow)
theorem Keeps.outWrite {g v} (h : Keeps k s t) : Keeps k s (t.outWrite g v) := h.pdSet.beside.pdPut.outShow
theorem Keeps.hpwr (h : Keeps k s t) : Keeps k s t.hpwr := .iteThen h.pdPut (·.put)
theorem Keeps.setPgood {on} (h : Keeps false s t) : Keeps false s (t.setPgood on) :=
  .iteElse h (fun hu => .outsShow (.hpwr (.beside (.iteThen hu.pdPut.pdIrq.pdEvent (·.pdOr)))))
theorem Keeps.hsGo {n} (h : Keeps false s t) : Keeps false s (t.hsGo n) := .setPgood (.iteElse h.pdPut.pdPut.beside (·.pdPut.beside))
theorem Keeps.hsAdvance (h : Keeps false s t) : Keeps false s t.hsAdvance := .iteThen (.iteThen h (·.hsGo)) (·.hsGo)
theorem Keeps.hsLatch {cause} (h : Keeps false s t) : Keeps false s (t.hsLatch cause) := h.hsFault.hsFault.pdEvent.hsGo

theorem Keeps.hsTrip {cause} (h : Keeps false s t) : Keeps false s (t.hsTrip cause) :=
  have hs0 := h.pdInc.pdPut
  .ite (.hsLatch (.beside (.iteThen hs0.pdEvent (·.pdEvent)))) (.pdPut (.hsGo (.hsFault (.beside (.iteThen hs0.pdEvent (·.pdEvent))))))

theorem Keeps.feedShow (h : Keeps k s t) : Keeps k s t.feedShow := h.pdSet

theorem Keeps.feedsChanged {n was ready} (h : Keeps false s t) : Keeps false s (t.feedsChanged n was ready) :=
  have hs0 := h.feedShow.pdIrq
  .ite (.hsAdvance (.iteThen (.beside (.iteThen (.iteElse hs0 (·.pdEvent)) (·.pdInc))) (·.hsFault.pdEvent)))
    (.iteThen (.iteThen (.iteElse hs0 (·.pdEvent)) (·.pdInc)) (fun hv => .iteElse hv.beside (·.hsGo)))

theorem Keeps.pdReset {on} (h : Keeps k s t) : Keeps k s (t.pdReset on) := h.beside
theorem Keeps.pdStart (h : Keeps false s t) : Keeps false s t.pdStart := h.beside.pdPut.pdSet.pdEvent.feedShow.outsShow.hsAdvance
theorem Keeps.diRecord {n} (h : Keeps false s t) : Keeps false s (t.diRecord n) := h.pdEvent
theorem Keeps.diStart (h : Keeps false s t) : Keeps false s t.diStart := h.foldl (fun hu => .iteThen hu (·.diRecord))
theorem Keeps.wakeBy {codes} (h : Keeps k s t) : Keeps k s (t.wakeBy codes) := .iteElse h (·.setReg.put.put.beside)

end Sys2Proof.Machine
end

section
/-! PROOF. What operations keep: blocks, the fault collector and the end of a command, resets and power levels. -/
namespace Sys2Proof.Machine

variable {k : Bool} {s t u : State}

theorem Keeps.clearRegs {pages lost} (h : Keeps k s t) : Keeps k s (t.clearRegs pages lost) := h.cells (spWf_spMap _) id rfl
theorem Keeps.bridgeReset {h'} (h : Keeps k s t) : Keeps k s (t.bridgeReset h') := h.setBr

theorem Keeps.blockBefore {head} (h : Keeps false s t) : Keeps false s (t.blockBefore head) :=
  .ite h.ringResetPort.ringResetPort (.ite h.ringResetPort.ringResetPort (.ite h.rcStop.rcStop (.ite h.rxDiscardOpen.fabReset
    (.ite h.besideFormed (.ite h.beside (.ite h.ttbReset (.ite h.tbReset (.ite h.beside
    (.ite h.bridgeReset (.ite h.beside (.ite h.flowReset (.ite h.dmaBlockReset (.ite h.fqBlockReset
    (.ite h.unitBlockReset (.ite h.canBlockReset (.ite h.cloveBlockReset (.ite h.macBlockReset
    (.ite h.cipherBlockReset (.ite h.beside (.ite h.beside (.iteThen h (·.beside))))))))))))))))))))))

theorem Keeps.blockAfter {head} (h : Keeps k s t) : Keeps k s (t.blockAfter head) :=
  .ite h.ringRestartPort.ringRestartPort (.ite h.ringRestartPort.ringRestartPort (.ite h.rcStart.rcStart
    (.ite h.rootLock (.ite h.dmaRestart (.iteThen h (·.fqRestart))))))

theorem Keeps.blockReset {head} (h : Keeps false s t) : Keeps false s (t.blockReset head) :=
  .iteElse h (fun hu => .beside (.iteThen (.iteThen (.iteThen hu.blockBefore.clearRegs (·.put)) (·.setReg)) (·.irq)))

theorem Keeps.capture {c e'} (h : Keeps k s t) : Keeps k s (t.capture c e') :=
  .ite h.setReg h.setReg.setReg.setReg.setReg.setReg.setReg.setReg.setReg
theorem Keeps.pageFault {p src severe} (h : Keeps k s t) : Keeps k s (t.pageFault p src severe) := .ite (.iteThen h.incSat (·.put)) h.setReg.irq

theorem Keeps.faultEntry {e' eff severe escalated} (h : Keeps false s t) : Keeps false s (t.faultEntry e' eff severe escalated) :=
  .iteElse h (fun hu => by
    split
    · exact hu.besideFormed
    · exact hu.besideFormed.stage)

theorem Keeps.collectOne {e' busy r} (h : Keeps false s t) (e : t.collectOne e' busy = r) : Keeps false s r.1 := by
  subst e
  unfold State.collectOne
  extract_lets owner cfg cw b n countN severe counted w bit raised c cfgLvl pend escalated eff0 eff1 eff escd events flags last captured paged
    entered irqSet pending level2 r v waked latched ended
  have hcaptured : Keeps false s captured :=
    .capture (.setReg (.setReg (.inc (.iteThen (.iteThen h.setReg (·.setReg)) (·.inc)))))
  have hpaged : Keeps false s paged := by
    unfold paged owner
    split
    · exact hcaptured.pageFault
    · exact hcaptured
  have hlevel2 : Keeps false s level2 := .iteThen (.iteThen hpaged.faultEntry fun hu => .iteThen hu.irq (·.put)) (·.put)
  have hreset : Keeps false s r.1 := by
    unfold r
    split
    · exact .iteFst hlevel2.blockReset hlevel2
    · exact hlevel2
  exact .iteFst h (.iteThen (.iteThen (.iteThen hreset (·.wakeBy)) (·.latchErrN)) (·.inc.beside))

theorem Keeps.collectRounds {n busy} (h : Keeps false s t) : Keeps false s (t.collectRounds n busy) := by
  induction n generalizing t busy with
  | zero => exact h.beside
  | succ n ih => exact .ite h (ih (.foldlFst (h.beside) (·.collectOne rfl)))

theorem Keeps.collect (h : Keeps false s t) : Keeps false s t.collect := h.collectRounds
theorem Keeps.request {h' v} (h : Keeps k s t) : Keeps k s (t.request h' v) := .ite h.setReg h.emit
theorem Keeps.deliverHost {h'} {before : State} (h : Keeps k s t) : Keeps k s (before.deliverHost t h') := .iteThen h (·.foldl (·.request))
theorem Keeps.deliver {before : State} (h : Keeps k s t) : Keeps k s (before.deliver t) := .deliverHost (.deliverHost (.iteThen h (·.emit)))
theorem Keeps.finished {before : State} (h : Keeps false s t) : Keeps false s (before.finished t) := h.collect.deliver.beside

theorem Keeps.loseKeys {k'} (h : Keeps false s t) : Keeps false s (t.loseKeys k') :=
  .ite (h.foldl (fun hu => .iteThen hu (·.setKey.revoke.keyLog))) h.besideFormed.clearRegs
theorem Keeps.loseTime {k'} (h : Keeps k s t) : Keeps k s (t.loseTime k') := h.beside
theorem Keeps.keepSessions {k'} {s0 : State} (h : Keeps k s t) : Keeps k s (t.keepSessions s0 k') := .iteThen h (·.foldl (·.put.put))
theorem Keeps.lose {l} (h : Keeps false s t) : Keeps false s (t.lose l) :=
  .loseKeys (.keepSessions (.clearRegs (h.loseTime.reform id (memWf_drop _) (fun _ => rfl))))
theorem Keeps.pinsOff (h : Keeps k s t) : Keeps k s t.pinsOff := .linkLoss (.iteThen (h.foldl (·.emit)) (·.driveVcore))
theorem Keeps.recordCauses (h : Keeps k s t) : Keeps k s t.recordCauses := h.setReg
theorem Keeps.takeReset {cold causes} (h : Keeps false s t) : Keeps false s (t.takeReset cold causes) :=
  .diStart (.recordCauses (.foldl (.iteElse (.beside (.lose (.ite h.pinsOff.lose (.iteThen h.pinsOff (·.lose))))) (·.inc)) (·.openSession)))
theorem Keeps.resetCause {code} (h : Keeps false s t) : Keeps false s (t.resetCause code) :=
  .iteElse h (fun hu => .ite (.ite hu.takeReset hu.beside.recordCauses) hu.takeReset)
theorem Keeps.warmReset {code} (h : Keeps false s t) : Keeps false s (t.warmReset code) := h.resetCause
theorem Keeps.idlePorts (h : Keeps k s t) : Keeps k s t.idlePorts :=
  h.foldl (fun hu => .ite hu.emit.leaveUp.toWake (.iteThen hu (·.emit.toWake)))
theorem Keeps.enterLevel {n} (h : Keeps false s t) : Keeps false s (t.enterLevel n) :=
  .iteThen (.put (.beside (.iteThen (.iteThen h.idlePorts.inc (·.put.put)) (·.driveVcore)))) (·.linkLoss.pdEvent.beside.hpwr)
theorem Keeps.macWake (h : Keeps k s t) : Keeps k s t.macWake := h.wakeBy

end Sys2Proof.Machine
end

section
/-! PROOF. What operations keep: links, the fabric, the bridges. -/
namespace Sys2Proof.Machine

variable {k : Bool} {s t u : State}

theorem Keeps.portCtrlFx {r' p v} (h : Keeps k s t) : Keeps k s (Machine.portCtrlFx r' p v t) :=
  .ite (.iteThen h.store (·.toModule)) (.iteThen h.store (·.portOff))
theorem Ends.portEnable {q r' p v} : Ends k s (execPortEnable q r' p v s) := .finish (Keeps.refl.writeReg (·.portCtrlFx))
theorem Keeps.moduleCheck {r' p ack b0 b12 b92} (h : Keeps k s t) : Keeps k s (t.moduleCheck r' p ack b0 b12 b92) :=
  .iteElse h.setPort.setReg (fun hu => .ite hu.toWake (.iteElse hu (·.setPort.raise)))
theorem Ends.moduleCheck {r' p ack b0 b12 b92} : Ends k s (execModuleCheck r' p ack b0 b12 b92 s) := .finish Keeps.refl.moduleCheck
theorem Ends.moduleRetry {r' p} : Ends k s (execModuleRetry r' p s) := .finish (.iteThen Keeps.refl (·.emit))
theorem Keeps.pinChange {r' p modAbs txFault los} (h : Keeps k s t) : Keeps k s (t.pinChange r' p modAbs txFault los) :=
  .iteThen (.iteThen h.setPort.showPins.put.put (·.irq)) (fun hu => .ite hu.raise.toModule (.iteThen hu.raise (·.upToDown)))
theorem Ends.modulePinChange {r' p modAbs txFault los} : Ends k s (execModulePinChange r' p modAbs txFault los s) := .finish Keeps.refl.pinChange
theorem Ends.blockLock {r' p} : Ends k s (execBlockLock r' p s) := .finish (.iteThen Keeps.refl.put (·.setPortState))
theorem Keeps.blockLockLost {r' p} (h : Keeps k s t) : Keeps k s (t.blockLockLost r' p) := .ite h.put.toWake (.iteThen h.put (·.upToDown))
theorem Ends.blockLockLost {r' p} : Ends k s (execBlockLockLost r' p s) := .finish Keeps.refl.blockLockLost
theorem Keeps.berWindowEnd {r' p w} (h : Keeps k s t) : Keeps k s (t.berWindowEnd r' p w) := .iteThen (.iteThen h.put (·.setReg)) (·.upToDown)
theorem Ends.highBer {r' p w} : Ends k s (execHighBer r' p w s) := .finish Keeps.refl.berWindowEnd
theorem Ends.trainTimeout {r' p} : Ends k s (execTrainTimeout r' p s) := .finish (.iteThen Keeps.refl (·.toWake))
theorem Keeps.alignError {r' p} (h : Keeps k s t) : Keeps k s (t.alignError r' p) := .iteThen h (·.inc.upToDown)

theorem Keeps.trainSet {r' p t'} (h : Keeps k s t) : Keeps k s (t.trainSet r' p t') :=
  .ite h.alignError (.ite (.ite (.iteElse h.put (·.put.irq)) (.iteThen h.put (fun hu => .iteThen hu.setPort (·.setPortState))))
    (.iteThen h (fun hu => .iteThen hu (·.setPort))))

theorem Ends.alignComplete {r' p} : Ends k s (execAlignComplete r' p s) := .finish (.iteThen Keeps.refl (·.setPort.enterUp))

theorem Keeps.block0 {r' p b} (h : Keeps k s t) : Keeps k s (t.block0 r' p b) :=
  .iteElse h (fun hu => by
    dsimp only
    split
    · exact hu.setPort
    · exact hu.setPort
    · exact hu.setPort
    · exact .ite hu.alignError hu.setPort
    · exact hu.alignError
    · exact hu.alignError
    · exact hu.alignError)

theorem Ends.alignmentError {r' p b} : Ends k s (execAlignmentError r' p b s) := .finish Keeps.refl.block0
theorem Keeps.slip {r' p fill} (h : Keeps k s t) : Keeps k s (t.slip r' p fill) := .iteThen (.iteThen h.put (·.noteDelay)) (·.inc.upToDown)
theorem Ends.slip {r' p fill} : Ends k s (execSlip r' p fill s) := .finish Keeps.refl.slip
theorem Ends.holdoffExpire {r' p} : Ends k s (execHoldoffExpire r' p s) := .finish (.iteThen Keeps.refl (·.toWake))
theorem Keeps.remoteFault {r' p present} (h : Keeps k s t) : Keeps k s (t.remoteFault r' p present) :=
  .ite (.iteThen h (·.put.put.irq.ifOn (·.spanBreak.holdSpan))) h.put.put
theorem Ends.remoteFault {r' p present} : Ends k s (execRemoteFault r' p present s) := .finish Keeps.refl.remoteFault
theorem Keeps.portCmdFx {r' p v} (h : Keeps k s t) : Keeps k s (Machine.portCmdFx r' p v t) :=
  .iteThen h (fun hu => .ite hu.upToDown hu.setPortState)
theorem Ends.retrain {q r' p v} : Ends k s (execRetrain q r' p v s) := .finish (Keeps.refl.writeReg (·.portCmdFx))
theorem Keeps.modAccFx {r' v} (h : Keeps k s t) : Keeps k s (Machine.modAccFx r' v t) :=
  .iteElse h (fun hu => .iteElse hu.setReg (fun hv => .ite hv.put.irq hv.put.emit))
theorem Ends.moduleAccess {q r' v} : Ends k s (execModuleAccess q r' v s) := .finish (Keeps.refl.writeReg (·.modAccFx))
theorem Ends.moduleAccessDone {r' nack data} : Ends k s (execModuleAccessDone r' nack data s) :=
  .finish (.iteThen Keeps.refl (fun hu => .irq (.iteElse hu.put.put (·.put))))
theorem Keeps.startFrame {r' p f crc t'} (h : Keeps k s t) : Keeps k s (t.startFrame r' p f crc t') := h.setPort.inc.emit
theorem Keeps.showTransit {r' p} (h : Keeps k s t) : Keeps k s (t.showTransit r' p) := h.put

theorem Keeps.bufferTransit {r' p e' u} (h : Keeps k s t) (e : t.bufferTransit r' p e' = some u) : Keeps k s u := by
  unfold State.bufferTransit at e
  dsimp only at e
  split at e
  · exact nomatch e
  · exact Option.some.inj e ▸ h.setPort.showTransit

theorem Keeps.wrap {r' p e'} (h : Keeps k s t) : Keeps k s (t.wrap r' p e') :=
  .ite h.inc (.iteElse h.inc (fun hu => by
    dsimp only
    split
    next heq => exact (h.bufferTransit heq).inc
    · exact hu))

theorem Keeps.transmit {r' p e'} (h : Keeps k s t) : Keeps k s (t.transmit r' p e') :=
  .ite h.wrap (.ite h.setPort.startFrame (.iteElse h.inc (fun hu => by
    split
    next heq => exact h.bufferTransit heq
    · exact hu)))

theorem Keeps.rcTakeOff {r' p f ic} (h : Keeps k s t) : Keeps k s (t.rcTakeOff r' p f ic) := .ite h.inc (.ite h.setRc h.setRc)
theorem Keeps.toFabric {r' p f tc ic tb} (h : Keeps k s t) : Keeps k s (t.toFabric r' p f tc ic tb) := .ite h.inc h.setPort
theorem Keeps.takeOff {r' p f tc ic tb} (h : Keeps k s t) : Keeps k s (t.takeOff r' p f tc ic tb) :=
  .ite h.inc.inc (.ite (.iteThen h.inc (·.rcTakeOff)) h.inc.toFabric)
theorem Keeps.forward {r' p f crc t' ic} (h : Keeps k s t) : Keeps k s (t.forward r' p f crc t' ic) := h.inc.transmit
theorem Keeps.routeFrame {r' p f crc t' tc ic tb} (h : Keeps k s t) : Keeps k s (t.routeFrame r' p f crc t' tc ic tb) :=
  .ite h.inc (.iteElse h.takeOff (fun hu => .ite h.inc.toFabric (.ite (.inc (.ite hu h)) (.forward (.ite hu h)))))

theorem Keeps.ringFrame {r' p f crc t' sub} (h : Keeps k s t) : Keeps k s (t.ringFrame r' p f crc t' sub) :=
  .iteElse h (fun hu => .ite hu.setPort.disarm.inc.raiseInj (.ite hu.setPort.inc.raise (.ite hu.setPort.inc (.routeFrame (by
    dsimp only
    split
    · exact hu.setPort.inc
    · exact hu.setPort.inc.inc
    · exact hu.setPort.inc.inc.raise)))))

theorem Ends.ringFrameReceived {r' p f crc t' sub} : Ends k s (execRingFrameReceived r' p f crc t' sub s) := .finish Keeps.refl.ringFrame
theorem Keeps.portPadFx {r' p v} (h : Keeps k s t) : Keeps k s (Machine.portPadFx r' p v t) := .iteThen (.iteThen h.put (·.warn)) (·.setPort)
theorem Keeps.padApply {r' p} (h : Keeps k s t) : Keeps k s (t.padApply r' p) := .iteThen h (·.setPort.put.noteDelay)
theorem Ends.padApply {r' p} : Ends k s (execPadApply r' p s) := .finish Keeps.refl.padApply
theorem Ends.txClockLocked {r'} : Ends k s (execTxClockLocked r' s) := .finish Keeps.refl.put.put.put

theorem Keeps.ingressDrop {i f} (h : Keeps k s t) : Keeps k s (t.ingressDrop i f) := h.discardCells.irq

theorem Keeps.lostSent {h'} (h : Keeps false s t) : Keeps false s (t.lostSent h') := by
  unfold State.lostSent
  split
  · exact .iteElse h (·.countLostFlow)
  · exact h

theorem Keeps.ringCopies {i o h' f r} (h : Keeps false s t) (e : t.ringCopies i o h' f = r) : Keeps false s r.2 := by
  subst e
  exact .iteSnd h.ingressDrop.lostSent (.iteSnd (.iteSnd h h.ingressDrop.lostSent) (by
    dsimp only
    split
    · exact h.inc.raise.lostSent
    · exact .iteSnd h h))

theorem Keeps.countSent {k' seq octets} (h : Keeps false s t) : Keeps false s (t.countSent k' seq octets) := h.cntCtx.addOctets.setCtx.setCtx
theorem Keeps.refuseFrame {cnt} (h : Keeps k s t) : Keeps k s (t.refuseFrame cnt) := h.inc.raise

theorem Keeps.resident {i d k' r} (h : Keeps false s t) (e : t.resident i d k' = r) : Keeps false s r.2 := by
  subst e
  exact .iteSnd h.markUse (.iteSnd h.cntCtx.refuseFrame (.iteSnd (.iteSnd (.iteSnd (h.markUse.windowCtx rfl) h.markUse)
    (.iteThen (.iteSnd (h.markUse.windowCtx rfl) h.markUse) (·.countSent))) (.iteSnd h.markUse.inc h.markUse.setCtx.countSent)))

theorem Keeps.lookupEcc {r} (h : Keeps k s t) (e : t.lookupEcc = r) : Keeps k s r.2 := by
  subst e
  unfold State.lookupEcc
  split
  · exact h
  · exact h.disarm.inc
  · exact h.disarm.raiseInj

theorem Keeps.userLookup {i d r} (h : Keeps false s t) (e : t.userLookup i d = r) : Keeps false s r.2 := by
  subst e
  refine .iteSnd h (.iteSnd h.ingressDrop (.iteSnd h.keepVictim.refuseFrame ?_))
  extract_lets c v w behind
  have hv : Keeps false s v := .iteThen (h.keepVictim.lookupEcc rfl) (·.eccDisable)
  exact .iteSnd hv.inc (.iteSnd hv.refuseFrame (.iteSnd (hv.resident rfl) (.iteSnd hv.refuseFrame (.iteSnd hv (.snd (.iteElse hv (·.miss)))))))

theorem Keeps.lookup {i d r} (h : Keeps false s t) (e : t.lookup i d = r) : Keeps false s r.2 := by
  subst e
  refine .iteSnd (.iteSnd (h.userLookup rfl) h.refuseFrame) (.iteSnd h.refuseFrame ?_)
  split
  · exact h.inc
  · refine .iteSnd ?_ h
    extract_lets behind
    cases hb : behind with
    | true => exact .iteSnd h (.snd (.iteElse h (·.inc)))
    | false =>
      cases hw : t.windowSys d.frame.src d.frame.flow d.frame.seq with
      | none => exact .iteSnd h (.snd (.iteElse h (·.inc)))
      | some w => exact .iteSnd (h.windowSys hw) (h.windowSys hw)

theorem Keeps.outputs {i d f h' r} (h : Keeps false s t) (e : t.outputs i d f h' = r) : Keeps false s r.2 := by
  subst e
  exact .iteSnd h (.iteSnd (.iteSnd h.ingressDrop h) (have hr0 := h.ringCopies rfl; .iteSnd hr0 hr0))

theorem Keeps.enterInput {i d o f} (h : Keeps false s t) : Keeps false s (t.enterInput i d o f) :=
  .ite h.ingressDrop.lostSent (.ite h.ingressDrop.raise.lostSent h.setFabIn)
theorem Keeps.sourceRefused {i d} (h : Keeps k s t) : Keeps k s (t.sourceRefused i d) := .ite h.inc.irq.raise (.iteThen h (·.macRefused))

theorem Keeps.ingress {i d u} (h : Keeps false s t) (e : t.ingress i d = some u) : Keeps false s u := by
  unfold State.ingress at e
  dsimp only at e
  split at e
  · exact nomatch e
  next heq => exact Option.some.inj e ▸ (h.lookup heq).sourceRefused
  next heq => exact Option.some.inj e ▸ (h.lookup heq).beside
  next heq => exact Option.some.inj e ▸ .foldl (.outputs (.iteThen (h.lookup heq) (·.inc)) rfl) (·.enterInput)

theorem Keeps.retryWaiting {p : Delivered → Bool} (h : Keeps false s t) : Keeps false s (t.retryWaiting p) :=
  h.beside.foldl (fun hu => by
    dsimp only
    split
    next heq => exact hu.ingress heq
    · exact hu.beside)

theorem Keeps.retrySystem (h : Keeps false s t) : Keeps false s t.retrySystem := h.retryWaiting
theorem Keeps.deliverAt {o d} (h : Keeps false s t) : Keeps false s (t.deliverAt o d) :=
  .ite h.discardCells.countDropped (.ite h.enqueue (.setOutbox (.iteThen h (·.handOver))))

theorem Keeps.egressRun {n o cls} (h : Keeps false s t) : Keeps false s (t.egressRun n o cls) := by
  induction n generalizing t with
  | zero => exact h
  | succ n ih =>
    unfold State.egressRun
    dsimp only
    split
    · exact h
    · exact ih (.iteThen h.setEgress (·.deliverAt))

theorem Keeps.egressPump {o} (h : Keeps false s t) : Keeps false s (t.egressPump o) := h.foldl (·.egressRun)
theorem Keeps.releaseCell {c} (h : Keeps false s t) : Keeps false s (t.releaseCell c) := h.setStream.inc.setEgress.egressPump

theorem Keeps.releaseRun {n k'} (h : Keeps false s t) : Keeps false s (t.releaseRun n k') := by
  induction n generalizing t with
  | zero => exact h
  | succ n ih =>
    unfold State.releaseRun
    dsimp only
    split
    · exact h
    · exact ih h.setStream.releaseCell

theorem Keeps.arriveCell {c} (h : Keeps false s t) : Keeps false s (t.arriveCell c) := .ite h.raise.inc.releaseCell h.setStream.releaseRun
theorem Keeps.spoilCell {n} (h : Keeps k s t) : Keeps k s (t.spoilCell n) := h.beside
theorem Keeps.cellFault (h : Keeps k s t) : Keeps k s t.cellFault := .iteElse h (·.step1.spoilCell)
theorem Keeps.book {i r' pos c sr m e' q} (h : Keeps k s t) : Keeps k s (t.book i r' pos c sr m e' q) := h.setFabIn.addCnt.put.put

theorem Keeps.bookInput {n i r' pos} (h : Keeps k s t) : Keeps k s (t.bookInput n i r' pos) := by
  induction n generalizing t pos with
  | zero => exact h
  | succ n ih =>
    unfold State.bookInput
    split
    · exact h
    · refine .ite (ih h) ?_
      split
      · exact ih h.setFabIn
      · exact ih h.book

theorem Keeps.unbook {i r'} (h : Keeps k s t) : Keeps k s (t.unbook i r') := h.setFabIn
theorem Keeps.trace {c round} (h : Keeps k s t) : Keeps k s (t.trace c round) := .iteThen h (·.beside)

theorem Keeps.sendCell {i m round c} (h : Keeps k s t) : Keeps k s (t.sendCell i m round c) :=
  have hs0 := h.setFabIn.setStream
  .trace (.inc (.put (.setFabMid (by
    dsimp only
    split
    · exact hs0.disarm.raiseInj
    · split
      · exact hs0.disarm.raiseInj
      · exact hs0))))

theorem Keeps.inputRound {i round r} (h : Keeps k s t) (e : t.inputRound i round = r) : Keeps k s r.1 := by
  subst e
  exact .iteFst h (by
    dsimp only
    split
    · exact h.sendCell
    · split
      · exact h.sendCell.beside
      · exact h.inc)

theorem Keeps.middleRound {m round} (h : Keeps false s t) : Keeps false s (t.middleRound m round) := by
  unfold State.middleRound
  dsimp only
  split
  · exact h
  · exact h.setFabMid.arriveCell

theorem Keeps.fabRound (h : Keeps false s t) : Keeps false s t.fabRound :=
  .iteElse h fun hu => .beside (.iteThen ((((hu.foldl (·.unbook)).foldl (·.bookInput)).foldl (·.middleRound)).foldlFst fun hr => .fst
    (hr.inputRound rfl))
    (·.inc))

theorem Keeps.drainRounds {n} (h : Keeps false s t) : Keeps false s (t.drainRounds n) := by
  induction n generalizing t with
  | zero => exact h
  | succ n ih => exact .ite (ih h.fabRound) h

theorem Keeps.drainCore (h : Keeps false s t) : Keeps false s t.drainCore := .iteThen h (·.drainRounds)

theorem Keeps.brSend {b p kind cls node payload} (h : Keeps k s t) : Keeps k s (t.brSend b p kind cls node payload) := h.setBr.present

theorem Keeps.brTag {b r} (h : Keeps k s t) (e : t.brTag b = r) : Keeps k s r.2 := by
  subst e
  exact h.step1.setBr

theorem Keeps.lastErr {h' st sub win tag} (h : Keeps k s t) : Keeps k s (t.lastErr h' st sub win tag) := h.setReg
theorem Keeps.npFail {h' st sub win tag} (h : Keeps k s t) : Keeps k s (t.npFail h' st sub win tag) := h.lastErr.irq

theorem Keeps.pweLog {h' cause st sub tag fab win seq count} (h : Keeps k s t) : Keeps k s (t.pweLog h' cause st sub tag fab win seq count) := by
  unfold State.pweLog
  refine .iteThen ?_ (·.put.irq)
  split
  · exact (h.lastErr.incSat.foldl (·.setReg)).put.irq.raise
  · exact h.lastErr.incSat.incSat.raise

theorem Keeps.free16 {r} (h : Keeps k s t) (e : t.free16 = r) : Keeps k s r.2 := by
  subst e
  exact h.step1

theorem Keeps.pweBare {h' cause st sub fab win} (h : Keeps k s t) : Keeps k s (t.pweBare h' cause st sub fab win) :=
  ((h.free16 rfl).free16 rfl).pweLog
theorem Keeps.npBare {h' st sub win} (h : Keeps k s t) : Keeps k s (t.npBare h' st sub win) := (h.free16 rfl).npFail
theorem Keeps.postedFail {b cause st sub tag fab win seq count} (h : Keeps k s t) : Keeps k s (t.postedFail b cause st sub tag fab win seq count) :=
  .ite h.pweLog h.inc.setDma
theorem Keeps.fenceIrq {b n} (h : Keeps k s t) : Keeps k s (t.fenceIrq b n) := .iteThen h (·.irq)
theorem Keeps.haltDrop {h' fab win} (h : Keeps k s t) : Keeps k s (t.haltDrop h' fab win) := h.inc.pweBare

theorem Keeps.returnParts {n h' rd r} (h : Keeps k s t) (e : t.returnParts n h' rd = r) : Keeps k s r.1 := by
  subst e
  induction n generalizing t rd with
  | zero => exact h
  | succ n ih =>
    unfold State.returnParts
    split
    · exact ih h.emit
    · exact h

theorem Keeps.hostPart {h' id part st data} (h : Keeps k s t) : Keeps k s (t.hostPart h' id part st data) := by
  unfold State.hostPart
  split
  · exact h
  · exact (h.returnParts rfl).setBr

theorem Keeps.qspiDone {h' st sub data} (h : Keeps k s t) : Keeps k s (t.qspiDone h' st sub data) := h.setBr

theorem Keeps.completePlain {c st sub data} (h : Keeps k s t) : Keeps k s (t.completePlain c st sub data) := by
  induction c generalizing t with
  | done q => exact h.done
  | host h' id part => exact h.hostPart
  | posted h' fab win => exact .iteElse h (·.pweBare)
  | qspi h' => exact h.qspiDone
  | dma c => exact h.setDma
  | here h' win c ih => exact ih (.iteElse h (·.npBare))
  | npost | atom | ring | drop => exact h

theorem Keeps.postSend {b w pdt} (h : Keeps k s t) : Keeps k s (t.postSend b w pdt) := (h.brTag rfl).setBr.brSend

theorem Keeps.postPump {n b} (h : Keeps k s t) : Keeps k s (t.postPump n b) := by
  induction n generalizing t with
  | zero => exact h
  | succ n ih =>
    unfold State.postPump
    dsimp only
    split
    · exact h
    · refine .ite (ih h.setBr.haltDrop) ?_
      split
      · exact h
      · exact ih h.setBr.postSend

theorem Keeps.npFrame {b r'} (h : Keeps k s t) : Keeps k s (t.npFrame b r') := h.brSend

theorem Keeps.npPump {n b} (h : Keeps k s t) : Keeps k s (t.npPump n b) := by
  induction n generalizing t with
  | zero => exact h
  | succ n ih =>
    refine .ite h ?_
    split
    · exact h
    · exact .ite (ih h.setBr.npBare.completePlain) (ih (h.brTag rfl).setBr.npFrame)

theorem Keeps.pump {b} (h : Keeps k s t) : Keeps k s (t.pump b) := .iteThen h (·.postPump.npPump)
theorem Keeps.npQueue {b r'} (h : Keeps k s t) : Keeps k s (t.npQueue b r') := h.setBr.pump
theorem Keeps.postQueue {b w} (h : Keeps k s t) : Keeps k s (t.postQueue b w) := h.setBr.pump
theorem Keeps.noRouteEvent {b node} (h : Keeps k s t) : Keeps k s (t.noRouteEvent b node) := h.inc.raise
theorem Keeps.respond {f st sub token data} (h : Keeps k s t) : Keeps k s (t.respond f st sub token data) := h.beside.present
theorem Keeps.mapSys {src flow} {g : SysWin → SysWin} (h : Keeps k s t) : Keeps k s (t.mapSys src flow g) :=
  h.beside
theorem Keeps.notice {src node flow seq payload} (h : Keeps k s t) : Keeps k s (t.notice src node flow seq payload) := h.present
theorem Keeps.tgtDone {f st sub data} (h : Keeps k s t) : Keeps k s (t.tgtDone f st sub data) := .ite (.ite h.mapSys h.notice) h.respond
theorem Keeps.sendAck {src flow on seq node} (h : Keeps false s t) : Keeps false s (t.sendAck src flow on seq node) :=
  h.mapSys.notice.retrySystem
theorem Keeps.putAtom {a} (h : Keeps k s t) : Keeps k s (t.putAtom a) := h.setBr
theorem Keeps.dropAtom {id} (h : Keeps k s t) : Keeps k s (t.dropAtom id) := h.setBr
theorem Keeps.atomEnd {a st sub} (h : Keeps k s t) : Keeps k s (t.atomEnd a st sub) := .completePlain (.iteElse h.dropAtom (·.npBare))

theorem Keeps.atomHere {a} (h : Keeps false s t) : Keeps false s (t.atomHere a) :=
  have hr0 := h.memReadReq rfl
  .ite hr0.atomEnd (by
    dsimp only
    split
    · exact hr0.atomEnd
    · exact
        have hw1 := hr0.memWriteReq rfl
        .ite hw1.atomEnd hw1.pweBare.atomEnd)

theorem Keeps.semNext {n i} (h : Keeps false s t) : Keeps false s (t.semNext n i) := by
  induction n generalizing t with
  | zero => exact h
  | succ n ih =>
    unfold State.semNext
    dsimp only
    split
    · exact h.setSem
    · split
      · exact .respond (.irq (.setSem (.iteThen h (·.step1))))
      · refine ih (.setSem ?_)
        split
        · exact .atomHere (.irq (.setSem (.iteThen h (·.step1))))
        · exact .irq (.setSem (.iteThen h (·.step1)))
      · exact .irq (.setSem (.iteThen h (·.step1)))

theorem Keeps.semAsk {n q try_ c r} (h : Keeps false s t) (e : t.semAsk n q try_ c = r) : Keeps false s r.2 := by
  subst e
  exact .iteSnd h (.iteSnd h (.iteSnd h.setSem.semNext (.iteSnd h (.iteSnd h.setSem h.inc))))

theorem Keeps.kickAtom {n h'} (h : Keeps false s t) : Keeps false s (t.kickAtom n h') := by
  induction n generalizing t with
  | zero => exact h
  | succ n ih =>
    unfold State.kickAtom
    dsimp only
    split
    · exact h
    · refine .ite h ?_
      split
      · exact ih (h.putAtom.semAsk rfl)
      · exact ih (h.putAtom.semAsk rfl).atomHere.setSem.semNext
      · exact h.putAtom.semAsk rfl
      · exact ih (h.putAtom.semAsk rfl).atomEnd

theorem Keeps.kickAtoms (h : Keeps false s t) : Keeps false s t.kickAtoms := h.kickAtom.kickAtom.kickAtom
theorem Keeps.semFree {n} (h : Keeps false s t) : Keeps false s (t.semFree n) := h.setSem.semNext.kickAtoms

theorem Keeps.semDrop {n q r} (h : Keeps false s t) (e : t.semDrop n q = r) : Keeps false s r.2 := by
  subst e
  exact .iteSnd h.semFree (.iteSnd (h.setSem.foldl (fun hu => by
    split
    · split
      · exact hu.atomEnd
      · exact hu
    · exact hu)).kickAtoms h.refuse)

theorem Keeps.atomRelease {a sem} (h : Keeps k s t) : Keeps k s (t.atomRelease a sem) := h.npQueue

theorem Keeps.atomStep {id st sub token data} (h : Keeps k s t) : Keeps k s (t.atomStep id st sub token data) := by
  unfold State.atomStep
  split
  · exact h
  · exact .ite (.atomEnd (.iteElse h (·.atomRelease))) (.ite h.putAtom.npQueue (.ite (by
      dsimp only
      split
      · exact h.putAtom.npQueue
      · exact h.atomRelease.atomEnd) h.atomRelease.atomEnd))

theorem Keeps.complete {c st sub data token} (h : Keeps k s t) : Keeps k s (t.complete c st sub data token) := by
  unfold State.complete
  split
  · exact h.atomStep
  · exact h.tgtDone
  · exact h.completePlain

theorem Keeps.ringSem {f q op n} (h : Keeps false s t) : Keeps false s (t.ringSem f q op n) :=
  .ite (h.semDrop rfl).respond (.ite (by
    dsimp only
    split
    · exact (h.semAsk rfl).kickAtoms
    · exact h.semAsk rfl
    · exact (h.semAsk rfl).respond
    · exact (h.semAsk rfl).respond) h.respond)

end Sys2Proof.Machine
end

section
/-! PROOF. What operations keep: arbitration, page headers, time messages, the numbering of a ring and its control. -/
namespace Sys2Proof.Machine

variable {k : Bool} {s t u : State}

theorem Keeps.semCmdFx {q v} (h : Keeps false s t) : Keeps false s (Machine.semCmdFx q v t) :=
  .ite (h.semAsk rfl).kickAtoms (.iteThen h (·.semDrop rfl))
theorem Keeps.semForceFx {v} (h : Keeps false s t) : Keeps false s (Machine.semForceFx v t) := .iteThen h (·.semFree)
theorem Keeps.claimClearFx {v} (h : Keeps false s t) : Keeps false s (Machine.claimClearFx v t) := .iteThen h (·.redecide)

theorem Keeps.semExpire {n} (h : Keeps false s t) : Keeps false s (t.semExpire n) := by
  unfold State.semExpire
  split
  · exact .iteThen h (·.inc.irq.raise.semFree)
  · exact h

theorem Keeps.dropClaims {h'} (h : Keeps false s t) : Keeps false s (t.dropClaims h') := h.foldl (fun hu => .iteElse hu (·.redecide))
theorem Keeps.dropSems {h'} (h : Keeps false s t) : Keeps false s (t.dropSems h') := h.foldl (fun hu => .iteThen hu (·.semDrop rfl))
theorem Keeps.dropChannels {h'} (h : Keeps false s t) : Keeps false s (t.dropChannels h') := h.foldl (fun hu => .iteThen hu (·.dmaFree))
theorem Keeps.forceHost {h'} (h : Keeps false s t) : Keeps false s (t.forceHost h') := h.put.inc.irq.raise.dropClaims.dropSems.dropChannels

theorem Keeps.hbWindow {h'} (h : Keeps false s t) : Keeps false s (t.hbWindow h') :=
  .iteElse h (fun hu => .ite (.iteElse hu.setBeat (fun hv => .ite hv.put.put hu.setBeat))
    (.ite hu.setBeat.put (.iteThen hu.setBeat.put (·.forceHost))))

theorem Keeps.hbFx {h' v} (h : Keeps k s t) : Keeps k s (Machine.hbFx h' v t) := h.setBeat
theorem Keeps.hbCfgFx {h' v} (h : Keeps k s t) : Keeps k s (Machine.hbCfgFx h' v t) :=
  .iteThen h.store (fun hu => .setBeat (.iteElse hu (·.put)))
theorem Ends.semRequest {q v} : Ends false s (execSemRequest q v s) := .finish (Keeps.refl.writeReg (·.semCmdFx))
theorem Ends.semRelease {q v} : Ends false s (execSemRelease q v s) := .finish (Keeps.refl.writeReg (·.semCmdFx))
theorem Ends.semTry {q v} : Ends false s (execSemTry q v s) := .finish (Keeps.refl.writeReg (·.semCmdFx))
theorem Ends.semForce {q v} : Ends false s (execSemForce q v s) := .finish (Keeps.refl.writeReg (·.semForceFx))
theorem Ends.claimClear {q v} : Ends false s (execClaimClear q v s) := .finish (Keeps.refl.writeReg (·.claimClearFx))
theorem Ends.semHoldExpire {n} : Ends false s (execSemHoldExpire n s) := .finish Keeps.refl.semExpire
theorem Ends.heartbeat {q h' v} : Ends k s (execHeartbeat q h' v s) := .finish (Keeps.refl.writeReg (·.hbFx))
theorem Ends.heartbeatEnable {q h' v} : Ends k s (execHeartbeatEnable q h' v s) := .finish (Keeps.refl.writeReg (·.hbCfgFx))
theorem Ends.heartbeatWindowEnd {h'} : Ends false s (execHeartbeatWindowEnd h' s) := .finish Keeps.refl.hbWindow

theorem Keeps.pumpPage {p} (h : Keeps false s t) : Keeps false s (t.pumpPage p) :=
  .ite h.pump (.ite h.pump (.ite h.jrStart.jrStart (.iteThen h (·.fqSend.fqRestart))))
theorem Keeps.ringEnable {p on} (h : Keeps false s t) : Keeps false s (t.ringEnable p on) :=
  .ite (h.foldl (fun hu => .ite hu.portOff (.iteThen hu (·.toModule)))) (.ite h.rcStart.rcStart (.iteThen h (·.fabStart)))

theorem Keeps.pgCtrl {q p v} (h : Keeps false s t) : Keeps false s (t.pgCtrl q p v) :=
  .iteThen (.ite (.put (.ite (.ringEnable (.onDisable (.ite h.warn h.put))) (.iteThen (.ite h.warn h.put) (·.onEnable.pumpPage.ringEnable))))
    (.iteElse (.ite (.ringEnable (.onDisable (.ite h.warn h.put))) (.iteThen (.ite h.warn h.put) (·.onEnable.pumpPage.ringEnable)))
    (fun hu => .ite hu.put hu.expertRefused))) (·.blockReset)

theorem Keeps.pgClaim {q p v} (h : Keeps false s t) : Keeps false s (t.pgClaim q p v) := by
  unfold State.pgClaim
  split
  · exact h
  · exact .iteElse h.refuse (fun hu => .ite h.redecide (.ite h.redecide (.ite h.redecide (.iteThen hu (fun hv => .ite h.redecide (by
      dsimp only
      split
      · exact h.redecide
      · exact hv))))))

theorem Keeps.pgInject {p v} (h : Keeps k s t) : Keeps k s (t.pgInject p v) :=
  .iteElse h (fun hu => .iteElse hu.put.put (fun hv => .ite (hv.step1.ifOn (·.setReg.inc.irq.raiseInj)) hv.put))
theorem Keeps.pgLock {q p v} (h : Keeps k s t) : Keeps k s (t.pgLock q p v) := .iteThen h (·.put.put)
theorem Keeps.pgFault {p v} (h : Keeps k s t) : Keeps k s (t.pgFault p v) := .iteThen h (·.setReg)
theorem Keeps.headerFx {q p off v} (h : Keeps false s t) : Keeps false s (Machine.headerFx q p off v t) :=
  .ite h.pgCtrl (.ite h.irqBits (.ite h.pgFault (.ite h.pgInject (.ite h.pgClaim (.ite h.pgLock h.store)))))
theorem Ends.blockReset {q p v} : Ends false s (execBlockReset q p v s) := .finish (Keeps.refl.writeReg (·.headerFx))
theorem Ends.blockEnable {q p v} : Ends false s (execBlockEnable q p v s) := .finish (Keeps.refl.writeReg (·.headerFx))
theorem Ends.expertUnlock {q p v} : Ends false s (execExpertUnlock q p v s) := .finish (Keeps.refl.writeReg (·.pgCtrl))
theorem Ends.pgIrqForce {q p v} : Ends false s (execPgIrqForce q p v s) := .finish (Keeps.refl.writeReg (·.headerFx))
theorem Ends.pgFaultClear {q p v} : Ends false s (execPgFaultClear q p v s) := .finish (Keeps.refl.writeReg (·.headerFx))
theorem Ends.pgFaultInj {q p v} : Ends false s (execPgFaultInj q p v s) := .finish (Keeps.refl.writeReg (·.headerFx))
theorem Ends.pgClaim {q p v} : Ends false s (execPgClaim q p v s) := .finish (Keeps.refl.writeReg (·.headerFx))
theorem Ends.pgLock {q p v} : Ends false s (execPgLock q p v s) := .finish (Keeps.refl.writeReg (·.headerFx))

theorem Keeps.syncSend {x} (h : Keeps k s t) : Keeps k s (t.syncSend x) := by
  unfold State.syncSend
  dsimp only
  split
  · exact h
  · exact .iteElse h (fun hu => .ite hu.beside.present (.iteThen hu (·.beside.present)))

theorem Keeps.setSource {uid} (h : Keeps k s t) : Keeps k s (t.setSource uid) := .iteElse h (·.beside)
theorem Keeps.lockIfGood (h : Keeps k s t) : Keeps k s t.lockIfGood := .iteThen h (·.lockGain)

theorem Keeps.actTime {x p f stamp} (h : Keeps k s t) : Keeps k s (t.actTime x p f stamp) :=
  .iteElse h (fun hu => .ite (.lockLost (.put (.put (.setReg (.inc (.beside (.setSource (.iteThen hu (·.openSession)))))))))
    (.lockIfGood (.put (.put (.setReg (.inc (.beside (.setSource (.iteThen hu (·.openSession))))))))))

theorem Keeps.postResidence {r'} (h : Keeps k s t) : Keeps k s (t.postResidence r') := .ite h.beside h.beside.emit

theorem Keeps.takeResidence {l r} (h : Keeps k s t) (e : t.takeResidence l = r) : Keeps k s r.2 := by
  subst e
  unfold State.takeResidence
  split
  · exact h.beside
  · exact h

theorem Keeps.actTunnel {x p f ic sub} (h : Keeps k s t) : Keeps k s (t.actTunnel x p f ic sub) :=
  .iteElse h.macLine (fun hu => .ite hu.postResidence h.macLine)
theorem Keeps.timeIn {x p f ic tb sub} (h : Keeps k s t) : Keeps k s (t.timeIn x p f ic tb sub) :=
  .ite h.inc (.ite h.setRc (.ite h.actTunnel h.actTime))

theorem Keeps.takeTime {tunnel x p f ic sub} (h : Keeps k s t) : Keeps k s (t.takeTime tunnel x p f ic sub) := by
  unfold State.takeTime
  split
  · exact h
  · dsimp only
    split
    · exact .iteElse h.setOutbox (·.timeIn)
    · exact h.setOutbox

theorem Keeps.setMaster {x claim station} (h : Keeps k s t) : Keeps k s (t.setMaster x claim station) :=
  .iteThen (h.setRc.setReg.foldl (·.setReg)) (·.irq)
theorem Keeps.takeNumber {x n} (h : Keeps k s t) : Keeps k s (t.takeNumber x n) := h.setRc.put
theorem Keeps.setCount {x n} (h : Keeps k s t) : Keeps k s (t.setCount x n) := h.setRc.put

theorem Keeps.showOffsets {x} (h : Keeps k s t) : Keeps k s (t.showOffsets x) := by
  unfold State.showOffsets
  dsimp only
  split
  · exact .setReg (by
      split
      · exact h.setReg
      · exact h)
  · split
    · exact h.setReg
    · exact h

theorem Keeps.writePad {r' p n} (h : Keeps k s t) : Keeps k s (t.writePad r' p n) := .iteThen h.put (·.setPort)
theorem Keeps.sendNumber {x station path kept opn uid fwd bwd} (h : Keeps k s t) : Keeps k s (t.sendNumber x station path kept opn uid fwd bwd) :=
  h.sendLocal
theorem Keeps.announceReady {x pads l0 l1} (h : Keeps k s t) : Keeps k s (t.announceReady x pads l0 l1) := h.sendRouted.setRc.showOpen.setLoops

theorem Keeps.finishNumbering {x} (h : Keeps false s t) : Keeps false s (t.finishNumbering x) :=
  .ite h.enterElect.raise (.anise (.distribute (.ringReadySet (.put (.showOpen (.put
    (.put (.setRcState (.showOffsets (.setRc (.iteElse h.setRc.announceReady (·.writePad.writePad))))))))))) (·.syncSend))

theorem Keeps.finishPass {x} (h : Keeps false s t) : Keeps false s (t.finishPass x) :=
  .iteThen (.iteThen h.announceReady.setRc (·.distribute)) (·.readmitAll)
theorem Keeps.checkReports {x} (h : Keeps false s t) : Keeps false s (t.checkReports x) :=
  .iteThen h (fun hu => .ite hu.finishNumbering (.iteThen hu (·.finishPass)))

theorem Keeps.countDone {x n opn c0} (h : Keeps false s t) : Keeps false s (t.countDone x n opn c0) :=
  .checkReports (.iteElse (.showOpen (.setRc (.setRcState (.takeNumber (.setMaster (.setCount (.iteThen h (·.raise))))))))
    (fun hu => .ite hu.sendNumber.sendNumber (.iteElse hu.sendNumber (·.sendNumber))))

theorem Keeps.checkEnds {x} (h : Keeps false s t) : Keeps false s (t.checkEnds x) := by
  unfold State.checkEnds
  dsimp only
  split
  · exact h.countDone
  · exact h

theorem Keeps.startCount {x} (h : Keeps false s t) : Keeps false s (t.startCount x) :=
  (h.setRcState.setRc.foldl (fun hu => .iteThen hu (·.sendLocal))).checkEnds
theorem Keeps.keptPass {x} (h : Keeps false s t) : Keeps false s (t.keptPass x) := h.setRc.sendNumber.sendNumber.checkReports

theorem Keeps.tryReport {x} (h : Keeps k s t) : Keeps k s (t.tryReport x) := by
  unfold State.tryReport
  dsimp only
  split
  · exact .iteThen h (·.setRc.sendRouted)
  · exact h

theorem Keeps.actNumber {x p m} (h : Keeps k s t) : Keeps k s (t.actNumber x p m) :=
  .iteElse h (fun hu => .iteElse (.iteThen hu (fun hv => .iteThen hv.setMaster.setRcState.setRc (·.takeNumber)))
    (fun hv => .iteThen (.iteThen hv.setRc.showOffsets (·.sendNumber)) (·.tryReport)))

theorem Keeps.linkReady {x p} (h : Keeps k s t) : Keeps k s (t.linkReady x p) := ((h.setRc.foldl (·.actNumber)).foldl (·.timeIn)).tryReport

theorem Keeps.restoreSpan {x b} (h : Keeps k s t) : Keeps k s (t.restoreSpan x b) :=
  .irq (.showOpen (by
    split
    · exact h.setRc.setReg
    · exact h.setRc.showSpan))

theorem Keeps.deferHeal {x} (h : Keeps k s t) : Keeps k s (t.deferHeal x) := h.put.raise
theorem Keeps.heal {x p pad step} (h : Keeps k s t) : Keeps k s (t.heal x p pad step) :=
  .ite h.deferHeal h.writePad.restoreSpan.inc.setLoops.sendRouted

theorem Keeps.sleepRing {x} (h : Keeps false s t) : Keeps false s (t.sleepRing x) := by
  unfold State.sleepRing
  exact .enterLevel (.setRc (.put (.ringReadyClear (h.setRcState.foldl fun hu => .iteThen hu fun hv => (hv.foldl (·.emit)).emit.leaveUp.toWake))))

theorem Keeps.popInbox {x code} (h : Keeps k s t) : Keeps k s (t.popInbox x code) := by
  unfold State.popInbox
  dsimp only
  split
  · exact h.setRc
  · exact h

theorem Keeps.takeMsg {x p code src stamp u} (h : Keeps k s t) (e : t.takeMsg x p code src stamp = some u) : Keeps k s u := by
  unfold State.takeMsg at e
  dsimp only at e
  split at e
  · exact Option.some.inj e ▸ h.setRc
  · exact nomatch e

theorem Keeps.ordSetIn {r' p t'} (h : Keeps false s t) : Keeps false s (t.ordSetIn r' p t') :=
  .iteElse h (fun hu => by
    split
    · exact hu.trainSet
    · exact hu.remoteFault
    · exact hu.ifOn (fun hv => .iteElse hv (·.drainCore.sleepRing))
    · exact .iteThen hu (·.setPort)
    · exact hu.inc)

theorem Ends.train {r' p t'} : Ends false s (execTrain r' p t' s) := .finish Keeps.refl.ordSetIn
theorem Keeps.rcEnableChange {x was} (h : Keeps false s t) : Keeps false s (t.rcEnableChange x was) :=
  .ite (.ite h.warn h.rcStart) (.iteThen h (·.rcStop))
theorem Keeps.rctlCtrlFx {v} (h : Keeps false s t) : Keeps false s (Machine.rctlCtrlFx v t) := h.store.rcEnableChange.rcEnableChange
theorem Ends.rctlEnable {q v} : Ends false s (execRctlEnable q v s) := .finish (Keeps.refl.writeReg (·.rctlCtrlFx))
theorem Keeps.adoptClaim {x m} (h : Keeps k s t) : Keeps k s (t.adoptClaim x m) := .iteThen h (·.setRc.sendClaim)
theorem Keeps.electFor {x kept m} (h : Keeps k s t) : Keeps k s (t.electFor x kept m) := h.enterElect.adoptClaim

theorem Keeps.join {x station side uid} (h : Keeps false s t) : Keeps false s (t.join x station side uid) :=
  .iteElse h (fun hu => by
    dsimp only
    split
    · exact hu.raise
    · exact .keptPass (.ite (.sendLocal (.setCount (.setRc (.iteThen hu (·.put))))) (.sendRouted (.setCount (.setRc (.iteThen hu (·.put)))))))

theorem Keeps.reportJoin {x p uid} (h : Keeps false s t) : Keeps false s (t.reportJoin x p uid) :=
  .iteElse h.sendClaim (fun hu => .ite hu.join hu.sendRouted)
theorem Keeps.demoteMaster {x m} (h : Keeps k s t) : Keeps k s (t.demoteMaster x m) := h.setRc.sendRouted
theorem Keeps.meet {x m step} (h : Keeps k s t) : Keeps k s (t.meet x m step) := .iteElse h (fun hu => .ite hu.demoteMaster hu.sendRouted)

theorem Keeps.claimIn {x p m step pad} (h : Keeps false s t) : Keeps false s (t.claimIn x p m step pad) :=
  .ite h.raise (.ite (.ite h.setRc.setMaster.setRcState (.iteElse h (·.adoptClaim))) (.ite (.iteThen h (·.electFor)) (.ite (.iteThen h (·.electFor))
    (.iteThen h (fun hu => .ite (.electFor (.ringReadyClear (.iteThen hu (·.sendClaim))))
    (.ite hu.reportJoin (.ite hu.meet (.iteThen hu (·.heal)))))))))

theorem Ends.claimReceived {x p m step pad} : Ends false s (execClaimReceived x p m step pad s) := .finish (Keeps.refl.ifOn (·.popInbox.claimIn))
theorem Ends.claimSend {x} : Ends k s (execClaimSend x s) := .finish (Keeps.refl.ifOn (fun hu => .iteThen hu (·.sendClaim)))
theorem Keeps.takeover {x} (h : Keeps false s t) : Keeps false s (t.takeover x) :=
  h.setMaster.setRcState.setRc.showOffsets.sendRouted.keptPass.rootLock
theorem Keeps.settle {x} (h : Keeps false s t) : Keeps false s (t.settle x) := .iteThen h (fun hu => .ite hu.takeover hu.startCount)
theorem Ends.settleExpire {x} : Ends false s (execSettleExpire x s) := .finish (Keeps.refl.ifOn (·.settle))
theorem Keeps.electTimeout {x} (h : Keeps k s t) : Keeps k s (t.electTimeout x) := .iteThen h (fun hu => .enterElect (.iteThen hu (·.raise)))
theorem Ends.electTimeout {x} : Ends k s (execElectTimeout x s) := .finish (Keeps.refl.ifOn (·.electTimeout))
theorem Keeps.countIn {x p passed path uid} (h : Keeps false s t) : Keeps false s (t.countIn x p passed path uid) :=
  .iteElse h (fun hu => .ite (.iteThen hu (·.countDone)) (.iteThen hu (·.sendLocal)))
theorem Ends.countReceived {x p passed path uid} : Ends false s (execCountReceived x p passed path uid s) :=
  .finish (Keeps.refl.ifOn (·.popInbox.countIn))
theorem Keeps.endIn {x p passed path uid} (h : Keeps false s t) : Keeps false s (t.endIn x p passed path uid) :=
  .iteElse h (fun hu => .ite (.iteThen hu (·.setRc.checkEnds)) (.iteThen hu (·.sendLocal)))
theorem Ends.endReceived {x p passed path uid} : Ends false s (execEndReceived x p passed path uid s) := .finish (Keeps.refl.ifOn (·.popInbox.endIn))
theorem Keeps.numberIn {x p m} (h : Keeps k s t) : Keeps k s (t.numberIn x p m) := .ite h.actNumber h.setRc
theorem Ends.numberReceived {x p m} : Ends k s (execNumberReceived x p m s) := .finish (Keeps.refl.ifOn (·.popInbox.numberIn))
theorem Ends.delayReqSend {x p} : Ends k s (execDelayReqSend x p s) := .finish (Keeps.refl.ifOn (fun hu => .iteThen hu (·.sendLocal)))
theorem Keeps.delayReqIn {x p path stamp} (h : Keeps k s t) : Keeps k s (t.delayReqIn x p path stamp) := .iteElse h (·.sendLocal)
theorem Ends.delayReqReceived {x p path src stamp} : Ends k s (execDelayReqReceived x p path src stamp s) :=
  .finish <| Keeps.refl.ifOn fun hu => hu.elim (hu.takeMsg ·) (·.delayReqIn)

theorem Keeps.delayIn {x p path t2 t3 stamp} (h : Keeps k s t) : Keeps k s (t.delayIn x p path t2 t3 stamp) := by
  unfold State.delayIn
  dsimp only
  split
  · exact h
  · exact .ite h.setPort.setRc h.setPort.setRc.linkReady

theorem Ends.delayRespReceived {x p path t2 t3 src stamp} : Ends k s (execDelayRespReceived x p path t2 t3 src stamp s) :=
  .finish <| Keeps.refl.ifOn fun hu => hu.elim (hu.takeMsg ·) (·.delayIn)

theorem Keeps.reportIn {x m} (h : Keeps false s t) : Keeps false s (t.reportIn x m) :=
  .iteElse h (fun hu => by
    dsimp only
    split
    · split
      · exact hu.setRc.setCount.put.inc.sendRouted
      · exact hu.raise
    · exact hu.setRc.checkReports)

theorem Ends.reportReceived {x m} : Ends false s (execReportReceived x m s) := .finish (Keeps.refl.ifOn (·.popInbox.reportIn))
theorem Keeps.readyTake {x m first} (h : Keeps k s t) : Keeps k s (t.readyTake x m first) :=
  .setLoops (.iteThen (.iteElse (.iteThen h.setCount.setRc.showOpen (·.put)) (·.writePad.writePad)) (·.setReg.setReg))
theorem Keeps.becomeMember {x slot} (h : Keeps k s t) : Keeps k s (t.becomeMember x slot) :=
  .ringReadySet (.setRc (.iteThen h.setRcState (·.beside)))
theorem Keeps.readyIn {x m slot} (h : Keeps false s t) : Keeps false s (t.readyIn x m slot) :=
  .iteElse h (fun hu => .ite hu.readyTake.becomeMember (.iteThen hu.readyTake (·.readmitAll)))
theorem Ends.readyReceived {x m slot} : Ends false s (execReadyReceived x m slot s) := .finish (Keeps.refl.ifOn (·.popInbox.readyIn))
theorem Keeps.beaconOut {x} (h : Keeps k s t) : Keeps k s (t.beaconOut x) := .iteThen h (·.setRc.sendRouted)
theorem Ends.beaconSend {x} : Ends k s (execBeaconSend x s) := .finish (Keeps.refl.ifOn (·.beaconOut))
theorem Keeps.beaconIn {x m} (h : Keeps k s t) : Keeps k s (t.beaconIn x m) :=
  .ite (.iteThen h.setMaster.setRcState.setRc (·.setSource)) (.iteThen h (·.setRc))
theorem Ends.beaconReceived {x m} : Ends k s (execBeaconReceived x m s) := .finish (Keeps.refl.ifOn (·.popInbox.beaconIn))
theorem Keeps.beaconMiss {x} (h : Keeps k s t) : Keeps k s (t.beaconMiss x) := .iteElse h (fun hu => .ite hu.setRc hu.enterElect.raise)
theorem Ends.beaconMiss {x} : Ends k s (execBeaconMiss x s) := .finish (Keeps.refl.ifOn (·.beaconMiss))
theorem Keeps.breakIn {x b} (h : Keeps k s t) : Keeps k s (t.breakIn x b) := .iteThen h (·.markBroken)
theorem Ends.breakReceived {x b} : Ends k s (execBreakReceived x b s) := .finish (Keeps.refl.ifOn (·.popInbox.breakIn))
theorem Keeps.healedIn {x b l0 l1} (h : Keeps false s t) : Keeps false s (t.healedIn x b l0 l1) :=
  .iteElse h (fun hu => .ite hu.deferHeal (.iteThen hu.restoreSpan.setRc.setLoops (·.setRc.keptPass)))
theorem Ends.healedReceived {x b loop0 loop1} : Ends false s (execHealedReceived x b loop0 loop1 s) := .finish (Keeps.refl.ifOn (·.popInbox.healedIn))
theorem Ends.joinReceived {x station side uid} : Ends false s (execJoinReceived x station side uid s) := .finish (Keeps.refl.ifOn (·.popInbox.join))
theorem Keeps.assignIn {x station neighbour uid} (h : Keeps k s t) : Keeps k s (t.assignIn x station neighbour uid) :=
  .ite (.iteThen h (fun hu => .takeNumber (.iteThen hu (·.setRcState)))) (.iteThen h (·.sendLocal))
theorem Ends.assignReceived {x station neighbour uid} : Ends k s (execAssignReceived x station neighbour uid s) :=
  .finish (Keeps.refl.ifOn (·.popInbox.assignIn))
theorem Keeps.demoteIn {x m} (h : Keeps k s t) : Keeps k s (t.demoteIn x m) := .ite (.iteThen h (·.demoteMaster)) (.iteThen h (·.setRc))
theorem Ends.demoteReceived {x m} : Ends k s (execDemoteReceived x m s) := .finish (Keeps.refl.ifOn (·.popInbox.demoteIn))
theorem Keeps.demoteTo {x m} (h : Keeps k s t) : Keeps k s (t.demoteTo x m) := h.setRc.setMaster.setRcState
theorem Keeps.gridStep {x m} (h : Keeps k s t) : Keeps k s (t.gridStep x m) := .iteThen h (·.beside.openSession.setSource)

theorem Keeps.demoteEffect {x} (h : Keeps false s t) : Keeps false s (t.demoteEffect x) := by
  unfold State.demoteEffect
  split
  · exact h
  · exact .iteElse (h.demoteTo.gridStep.inc.irq.foldl (·.setReadmit)) (·.sendClaim)

theorem Ends.demoteEffect {x} : Ends false s (execDemoteEffect x s) := .finish (Keeps.refl.ifOn (·.demoteEffect))
theorem Keeps.sleepIn {x cancel} (h : Keeps k s t) : Keeps k s (t.sleepIn x cancel) :=
  .iteElse h (fun hu => .iteThen hu.setRc.irq (·.sendRouted))
theorem Ends.sleepReceived {x cancel} : Ends k s (execSleepReceived x cancel s) := .finish (Keeps.refl.ifOn (·.popInbox.sleepIn))
theorem Keeps.vetoIn {x} (h : Keeps k s t) : Keeps k s (t.vetoIn x) := .iteThen h (·.setRc.sendRouted)
theorem Ends.vetoReceived {x station} : Ends k s (execVetoReceived x station s) := .finish (Keeps.refl.ifOn (·.popInbox.vetoIn))
theorem Ends.sleepSetReceived {x} : Ends false s (execSleepSetReceived x s) :=
  .finish (Keeps.refl.ifOn (fun hu => .iteElse hu (·.drainCore.sleepRing)))
theorem Keeps.resetIn {x station key} (h : Keeps false s t) : Keeps false s (t.resetIn x station key) :=
  .iteThen h (fun hu => .ite hu.warmReset hu.inc)
theorem Ends.resetMessage {x station key} : Ends false s (execResetMessage x station key s) := .finish (Keeps.refl.ifOn (·.popInbox.resetIn))
theorem Keeps.treeIn {x level} (h : Keeps k s t) : Keeps k s (t.treeIn x level) := .iteThen h (·.put.put.irq)
theorem Ends.treeReceived {x level upper} : Ends k s (execTreeReceived x level upper s) := .finish (Keeps.refl.ifOn (·.popInbox.treeIn))
theorem Keeps.treeOut (h : Keeps k s t) : Keeps k s t.treeOut := .iteThen h (fun hu => .ite hu.raise hu.sendRouted.treeIn)
theorem Ends.treeSend : Ends k s (execTreeSend s) := .finish (Keeps.refl.ifOn (·.treeOut))

theorem Keeps.rctlCmdFx {v} (h : Keeps false s t) : Keeps false s (Machine.rctlCmdFx v t) :=
  .iteThen (.iteThen (.iteThen (.iteThen (.iteThen (.iteThen (.iteThen h (·.enterElect)) (·.enterElect)) (·.ringReadyClear.enterElect))
    (·.ringReadyClear.enterElect)) (·.setRc.sendRouted)) (·.setRc.sendRouted)) (·.sendRouted)

theorem Ends.rctlElect {q v} : Ends false s (execRctlElect q v s) := .finish (Keeps.refl.writeReg (·.rctlCmdFx))
theorem Ends.rctlRenumber {q v} : Ends false s (execRctlRenumber q v s) := .finish (Keeps.refl.writeReg (·.rctlCmdFx))
theorem Ends.rctlSleep {q v} : Ends false s (execRctlSleep q v s) := .finish (Keeps.refl.writeReg (·.rctlCmdFx))
theorem Ends.rctlReset {q v} : Ends false s (execRctlReset q v s) := .finish (Keeps.refl.writeReg (·.rctlCmdFx))
theorem Keeps.rctlTimersFx {v} (h : Keeps k s t) : Keeps k s (Machine.rctlTimersFx v t) := .iteElse h.store (·.warn)

end Sys2Proof.Machine
end

section
/-! PROOF. What operations keep: reset commands, time commands and the servo, boot and firmware update. -/
namespace Sys2Proof.Machine

variable {k : Bool} {s t u : State}

theorem Ends.coldReset {cause} : Ends false s (execColdReset cause s) := .finish Keeps.refl.resetCause
theorem Ends.warmReset {cause} : Ends false s (execWarmReset cause s) := .finish Keeps.refl.resetCause
theorem Ends.resetN : Ends false s (execResetN s) := .finish Keeps.refl.resetCause
theorem Keeps.rstCmdFx {v} (h : Keeps false s t) : Keeps false s (Machine.rstCmdFx v t) := .iteThen h (·.warmReset)
theorem Ends.chipReset {q v} : Ends false s (execChipReset q v s) := .finish (Keeps.refl.writeReg (·.rstCmdFx))
theorem Keeps.wdtStart {n} (h : Keeps k s t) : Keeps k s (t.wdtStart n) := h.beside
theorem Keeps.wdtCfgFx {v} (h : Keeps k s t) : Keeps k s (Machine.wdtCfgFx v t) := .iteThen h.store (·.wdtStart)
theorem Ends.wdtEnable {q v} : Ends k s (execWdtEnable q v s) := .finish (Keeps.refl.writeReg (·.wdtCfgFx))
theorem Keeps.wdtKickFx {q v} (h : Keeps k s t) : Keeps k s (Machine.wdtKickFx q v t) := .iteThen h (·.wdtStart)
theorem Ends.wdtKick {q v} : Ends k s (execWdtKick q v s) := .finish (Keeps.refl.writeReg (·.wdtKickFx))
theorem Ends.wdtStage1Expire : Ends k s (execWdtStage1Expire s) := .finish (.iteThen Keeps.refl (·.inc.irq.raise.wdtStart))
theorem Ends.wdtStage2Expire : Ends false s (execWdtStage2Expire s) := .finish (.iteThen Keeps.refl (·.resetCause))
theorem Keeps.wdtResume (h : Keeps k s t) : Keeps k s t.wdtResume := .iteThen h (·.wdtStart)
theorem Keeps.pwrDecide {target code} (h : Keeps false s t) : Keeps false s (t.pwrDecide target code) :=
  .ite h.put.drainCore.enterLevel h.put.inc.irq
theorem Keeps.pwrCmdFx {v} (h : Keeps false s t) : Keeps false s (Machine.pwrCmdFx v t) :=
  .iteElse h (fun hu => .ite hu.warn (.ite hu.put.beside hu.pwrDecide))

theorem Keeps.pwrWaited (h : Keeps false s t) : Keeps false s t.pwrWaited := by
  unfold State.pwrWaited
  split
  · exact h
  · exact .iteThen h (·.put.beside.pwrDecide)

theorem Ends.pwrCmd {q v} : Ends false s (execPwrCmd q v s) := .finish (Keeps.refl.writeReg (·.pwrCmdFx))
theorem Keeps.wakeEnFx {v} (h : Keeps k s t) : Keeps k s (Machine.wakeEnFx v t) := h.store
theorem Ends.hushEnter : Ends k s (execHushEnter s) := .finish (.iteThen Keeps.refl (·.put.beside))
theorem Ends.hushExit : Ends k s (execHushExit s) := .finish (.iteThen Keeps.refl (·.put.beside.wdtResume))
theorem Ends.pllUnlock {pll} : Ends k s (execPllUnlock pll s) := .finish (.iteElse Keeps.refl (·.beside.ifOn (·.inc.irq.raise)))

theorem Keeps.refCheck {ppm} (h : Keeps k s t) : Keeps k s (t.refCheck ppm) :=
  .iteThen (.beside (by
    split
    · exact .iteThen h (·.setReg)
    · exact h)) (·.ifOn (·.irq.raise))

theorem Ends.refclkFault {ppm} : Ends k s (execRefclkFault ppm s) := .finish Keeps.refl.refCheck
theorem Keeps.chipCmdFx {v} (h : Keeps k s t) : Keeps k s (Machine.chipCmdFx v t) := .iteThen h (·.setReg)
theorem Ends.chipTempCmd {q v} : Ends k s (execChipTempCmd q v s) := .finish (Keeps.refl.writeReg (·.chipCmdFx))
theorem Keeps.chipTemp {t'} (h : Keeps k s t) : Keeps k s (t.chipTemp t') :=
  .ifOn (.iteThen h.setReg (·.setReg)) (fun hu => .iteThen (.iteThen hu (·.irq.raise)) (·.irq.raise))
theorem Ends.chipTempHigh {t'} : Ends k s (execChipTempHigh t' s) := .finish Keeps.refl.chipTemp

theorem Keeps.snap {b} (h : Keeps k s t) : Keeps k s (t.snap b) := h.setReg.setReg.setReg.setReg.setReg
theorem Keeps.tbCmdFx {b v} (h : Keeps k s t) : Keeps k s (Machine.tbCmdFx b v t) := .iteThen (.iteThen h (·.snap)) (·.askStep)
theorem Ends.tbSnap {q b v} : Ends k s (execTbSnap q b v s) := .finish (Keeps.refl.writeReg (·.tbCmdFx))
theorem Ends.tbStep {q b v} : Ends k s (execTbStep q b v s) := .finish (Keeps.refl.writeReg (·.tbCmdFx))
theorem Keeps.tbSessionFx {b v} (h : Keeps k s t) : Keeps k s (Machine.tbSessionFx b v t) := .iteThen h (·.openSession)
theorem Ends.tbSessionOpen {q b v} : Ends k s (execTbSessionOpen q b v s) := .finish (Keeps.refl.writeReg (·.tbSessionFx))
theorem Keeps.tbRateHiFx {b v} (h : Keeps k s t) : Keeps k s (Machine.tbRateHiFx b v t) := h.setRate
theorem Ends.tbRateWrite {q b v} : Ends k s (execTbRateWrite q b v s) := .finish (Keeps.refl.writeReg (·.tbRateHiFx))
theorem Keeps.tbCfgFx {b v} (h : Keeps k s t) : Keeps k s (Machine.tbCfgFx b v t) :=
  .iteElse h (fun hu => .rootLock (.iteElse hu.store.put.put (·.warn)))
theorem Keeps.tbExpFx {b v} (h : Keeps k s t) : Keeps k s (Machine.tbExpFx b v t) := .iteElse h (fun hu => .iteThen hu.store (·.beside))
theorem Ends.syncSend {x} : Ends k s (execSyncSend x s) := .finish (Keeps.refl.anise (·.syncSend))
theorem Ends.timeMessageReceived {x p f stamp} : Ends k s (execTimeMessageReceived x p f stamp s) := .finish Keeps.refl.takeTime
theorem Keeps.sourceTimeout (h : Keeps k s t) : Keeps k s t.sourceTimeout := .iteElse h (·.put.lockLost)
theorem Ends.sourceTimeout : Ends k s (execSourceTimeout s) := .finish Keeps.refl.sourceTimeout
theorem Ends.tunnelReceived {x p f sub} : Ends k s (execTunnelReceived x p f sub s) := .finish Keeps.refl.takeTime

theorem Keeps.tcOrphan {seq} (h : Keeps k s t) : Keeps k s (t.tcOrphan seq) := by
  unfold State.tcOrphan
  split
  · exact h.beside.inc
  · exact h

theorem Ends.tcOrphanTimeout {seq} : Ends k s (execTcOrphanTimeout seq s) := .finish Keeps.refl.tcOrphan
theorem Keeps.tsuCmdFx {v} (h : Keeps k s t) : Keeps k s (Machine.tsuCmdFx v t) := .iteThen h (fun hu => (hu.foldl (·.snap)).setReg.setReg)
theorem Ends.tsuSnapAll {q v} : Ends k s (execTsuSnapAll q v s) := .finish (Keeps.refl.writeReg (·.tsuCmdFx))
theorem Keeps.fireLate {u'} (h : Keeps k s t) : Keeps k s (t.fireLate u') := .iteThen h (·.fireUnit)
theorem Keeps.tsuArmFx {v} (h : Keeps k s t) : Keeps k s (Machine.tsuArmFx v t) :=
  h.foldl (fun hu => .iteThen (.iteThen hu (·.put.fireLate)) (·.put))
theorem Ends.tsuArm {q v} : Ends k s (execTsuArm q v s) := .finish (Keeps.refl.writeReg (·.tsuArmFx))
theorem Keeps.tsuEvtFx {u' off v} (h : Keeps k s t) : Keeps k s (Machine.tsuEvtFx u' off v t) :=
  .iteThen (.iteElse (.ite h.setReg h.store) (·.emit)) (·.beside)
theorem Keeps.eventCompare {u'} (h : Keeps k s t) : Keeps k s (t.eventCompare u') := .iteThen h (·.fireUnit)
theorem Ends.eventCompare {u'} : Ends k s (execEventCompare u' s) := .finish Keeps.refl.eventCompare

theorem Keeps.eventCapture {u' sub rising} (h : Keeps k s t) : Keeps k s (t.eventCapture u' sub rising) :=
  .iteElse h (fun hu => .ite (.incSat (.iteThen hu (·.disarm.raiseInj))) (.ite (.raise (.irq (.incSat (.beside (.iteThen hu (·.disarm.raiseInj))))))
    (.irq (.beside (.iteThen hu (·.disarm.raiseInj))))))

theorem Ends.eventCapture {u' rising sub} : Ends k s (execEventCapture u' rising sub s) := .finish Keeps.refl.eventCapture

theorem Keeps.tsuCapPop {r} (h : Keeps k s t) (e : Machine.tsuCapPop t = some r) : Keeps k s r.2 := by
  unfold Machine.tsuCapPop at e
  split at e
  · exact nomatch e
  · exact Option.some.inj e ▸ .setReg (.setReg (.setReg (h.beside)))

theorem Ends.tsuCapPop {q mayPrefetch wide} : Ends k s (execTsuCapPop q mayPrefetch wide s) :=
  .finish (Keeps.refl.popRead (fun hu e => hu.tsuCapPop e))

theorem Keeps.servoLock {sum n} (h : Keeps k s t) : Keeps k s (t.servoLock sum n) :=
  .ite (.iteThen h.beside (·.lockLost)) (.iteThen h.beside (·.lockGain))
theorem Keeps.servoCorrect {sum n} (h : Keeps false s t) : Keeps false s (t.servoCorrect sum n) := .ite h.applyStep h.beside.setRate
theorem Keeps.servoUpdate (h : Keeps false s t) : Keeps false s t.servoUpdate :=
  .iteElse h.beside (fun hu => .ite (.rootLock (.iteElse hu.setReg (·.servoCorrect))) (.servoLock (.iteElse hu.setReg (·.servoCorrect))))

theorem Keeps.writeBcr {active trial left verActive verTrial} (h : Keeps false s t) :
    Keeps false s (t.writeBcr active trial left verActive verTrial) :=
  h.setBytes

theorem Keeps.showInactive (h : Keeps k s t) : Keeps k s t.showInactive := h.put
theorem Keeps.extend {n x} (h : Keeps k s t) : Keeps k s (t.extend n x) := h.foldl (·.setReg)
theorem Keeps.startImage {h' a slot info} (h : Keeps false s t) : Keeps false s (t.startImage h' a slot info) :=
  h.setBytes.extend.setReg.setReg.beside
theorem Keeps.confirmStart (h : Keeps k s t) : Keeps k s t.confirmStart := h.put.beside
theorem Keeps.confirmSoon (h : Keeps k s t) : Keeps k s t.confirmSoon := .iteThen h (·.irq)
theorem Keeps.fwEntry {detail slot version} (h : Keeps false s t) : Keeps false s (t.fwEntry detail slot version) := h.stage
theorem Keeps.startEntry {version} (h : Keeps false s t) : Keeps false s (t.startEntry version) := h.stage
theorem Keeps.cuminWaits {recovery sel} (h : Keeps false s t) : Keeps false s (t.cuminWaits recovery sel) :=
  .ite h.put.put.put.put.put (.ite (h.put.put.put.put.put.put.put.foldl (·.portCtrlFx)).rctlCtrlFx h.put.put.put)

theorem Keeps.flashBoot {bad trials} (h : Keeps false s t) : Keeps false s (t.flashBoot bad trials) :=
  .ite (.showInactive (.cuminWaits (.iteThen h.put.put (·.writeBcr)))) (.iteThen (.showInactive
    (.startEntry (.startImage (.extend (.iteThen h.put.put (·.writeBcr)))))) (·.put.confirmStart))

theorem Keeps.cuminStart {otpBad bad} (h : Keeps false s t) : Keeps false s (t.cuminStart otpBad bad) :=
  .ite h.beside.flashBoot (.iteElse h (fun hu => have hs1 := hu.beside.setReg
  .ite (.cuminWaits (.iteThen hs1 (·.raise))) (.ite (.flashBoot (.iteThen hs1 (·.raise))) (.cuminWaits (.iteThen hs1 (·.raise))))))

theorem Ends.cuminStart {otpBad bad} : Ends false s (execCuminStart otpBad bad s) := .finish Keeps.refl.cuminStart
theorem Keeps.fwuResult {bit verify block code} (h : Keeps k s t) : Keeps k s (t.fwuResult bit verify block code) := h.setReg.irq
theorem Keeps.blockRefused {bit code} (h : Keeps k s t) : Keeps k s (t.blockRefused bit code) := h.inc.irq.fwuResult
theorem Keeps.eraseRange {a n} (h : Keeps false s t) : Keeps false s (t.eraseRange a n) := h.dropMem
theorem Keeps.fwuOpen (h : Keeps false s t) : Keeps false s t.fwuOpen :=
  .ite h.blockRefused (have hs0 := h.put.put.put; .ite hs0.beside.eraseRange.fwuResult hs0.beside.put)
theorem Ends.fwuEraseDone : Ends false s (execFwuEraseDone s) := .finish (.iteThen Keeps.refl (·.eraseRange.put.fwuResult))
theorem Keeps.fwuBlock {a bit bad} (h : Keeps false s t) : Keeps false s (t.fwuBlock a bit bad) :=
  .ite h.blockRefused h.setBytes.beside.put.inc.fwuResult

theorem Keeps.fwuWrite {bad} (h : Keeps false s t) : Keeps false s (t.fwuWrite bad) := by
  unfold State.fwuWrite
  dsimp only
  split
  · exact h.fwuBlock
  · exact h.fwuBlock
  · exact h.blockRefused

theorem Keeps.fwuCommit {bad} (h : Keeps false s t) : Keeps false s (t.fwuCommit bad) :=
  .ite h.fwuResult (.ite h.put.setReg.fwEntry.fwuResult h.put.inc.fwuResult)
theorem Keeps.fwuActivate {q} (h : Keeps false s t) : Keeps false s (t.fwuActivate q) := .ite h.writeBcr.fwuResult h.fwuResult
theorem Keeps.handoverBegin {slot back} (h : Keeps k s t) : Keeps k s (t.handoverBegin slot back) := h.put.emit.setReg.beside
theorem Keeps.fwuHandover {q} (h : Keeps k s t) : Keeps k s (t.fwuHandover q) := .ite h.fwuResult h.handoverBegin.fwuResult
theorem Keeps.handoverStop (h : Keeps k s t) : Keeps k s t.handoverStop := .iteThen h (·.beside)
theorem Keeps.handoverCopy {bad} (h : Keeps false s t) : Keeps false s (t.handoverCopy bad) :=
  .iteElse h (fun hu => .iteElse hu.startImage.beside.put.confirmStart.wdtResume.fwEntry (·.fwuResult))
theorem Ends.handoverCopyDone {bad} : Ends false s (execHandoverCopyDone bad s) := .finish Keeps.refl.handoverCopy
theorem Keeps.mbRepeat {h'} (h : Keeps k s t) : Keeps k s (t.mbRepeat h') := h.put.put.irq
theorem Keeps.runHeld {w} (h : Keeps false s t) : Keeps false s (t.runHeld w) := .ite h.syncSend (.ite h.servoUpdate h.mbRepeat)
theorem Keeps.aniHandoverFx {v} (h : Keeps false s t) : Keeps false s (Machine.aniHandoverFx v t) :=
  .iteThen (.iteThen h.store (·.handoverStop)) (fun hu => (hu.put.beside.foldl (·.runHeld)).foldl (·.postResidence))
theorem Ends.handoverReady {q v} : Ends false s (execHandoverReady q v s) := .finish (Keeps.refl.writeReg (·.aniHandoverFx))
theorem Ends.handoverResumed {q v} : Ends false s (execHandoverResumed q v s) := .finish (Keeps.refl.writeReg (·.aniHandoverFx))
theorem Ends.handoverTimeout : Ends k s (execHandoverTimeout s) := .finish Keeps.refl.handoverStop
theorem Keeps.fwuConfirm (h : Keeps false s t) : Keeps false s t.fwuConfirm :=
  .ite h.fwuResult (.fwuResult (.showInactive (.fwEntry (.beside (.iteThen h.writeBcr.put.put (·.put))))))

theorem Keeps.confirmTimeout (h : Keeps false s t) : Keeps false s t.confirmTimeout :=
  .iteElse h (fun hu => have hs1 := hu.raise.irq.fwEntry
  .ite hs1.put.handoverBegin hs1.warmReset)

theorem Ends.confirmTimeout : Ends false s (execConfirmTimeout s) := .finish (Keeps.refl.ifOn (·.confirmTimeout))
theorem Keeps.fwuLoad (h : Keeps false s t) : Keeps false s t.fwuLoad :=
  .iteElse h (fun hu => .ite hu.fwuResult (.fwuResult (.iteThen hu.extend.startImage.put.put.startEntry (·.fwEntry))))

theorem Keeps.fwuSend (h : Keeps k s t) : Keeps k s t.fwuSend := by
  unfold State.fwuSend
  split
  · exact h.irq.fwuResult
  · exact .ite h.fwuResult (h.foldl (·.beside.present)).irq.fwuResult

theorem Keeps.fwuCmdFx {q bad v} (h : Keeps false s t) : Keeps false s (Machine.fwuCmdFx q bad v t) :=
  .iteThen (.iteThen (.iteThen (.iteThen (.iteThen (.iteThen (.iteThen (.iteThen (.iteThen h (·.fwuOpen)) (·.fwuWrite)) (·.fwuCommit))
    (·.fwuActivate)) (·.fwuHandover)) (·.fwuConfirm)) (·.fwuLoad)) (·.fwuSend)) (·.put.fwuResult)

theorem Ends.fwuOpen {q v} : Ends false s (execFwuOpen q v s) := .finish (Keeps.refl.writeReg (·.fwuCmdFx))
theorem Ends.fwuWrite {q v bad} : Ends false s (execFwuWrite q v bad s) := .finish (Keeps.refl.writeReg (·.fwuCmdFx))
theorem Ends.fwuCommit {q v bad} : Ends false s (execFwuCommit q v bad s) := .finish (Keeps.refl.writeReg (·.fwuCmdFx))
theorem Ends.fwuActivate {q v} : Ends false s (execFwuActivate q v s) := .finish (Keeps.refl.writeReg (·.fwuCmdFx))
theorem Ends.fwuHandover {q v} : Ends false s (execFwuHandover q v s) := .finish (Keeps.refl.writeReg (·.fwuCmdFx))
theorem Ends.fwuConfirm {q v} : Ends false s (execFwuConfirm q v s) := .finish (Keeps.refl.writeReg (·.fwuCmdFx))
theorem Ends.fwuLoad {q v} : Ends false s (execFwuLoad q v s) := .finish (Keeps.refl.writeReg (·.fwuCmdFx))
theorem Ends.fwuSend {q v} : Ends false s (execFwuSend q v s) := .finish (Keeps.refl.writeReg (·.fwuCmdFx))
theorem Ends.fwuAbort {q v} : Ends false s (execFwuAbort q v s) := .finish (Keeps.refl.writeReg (·.fwuCmdFx))
theorem Keeps.asmDrop (h : Keeps k s t) : Keeps k s t.asmDrop := .iteThen h (·.inc.beside)
theorem Keeps.asmAdd {l bad} (h : Keeps false s t) : Keeps false s (t.asmAdd l bad) :=
  .ite (.fwuBlock (.beside (.iteThen (.iteElse h (·.asmDrop)) (·.setBytes)))) (.beside (.iteThen (.iteElse h (·.asmDrop)) (·.setBytes)))

theorem Keeps.fwFragmentIn {bad} (h : Keeps false s t) : Keeps false s (t.fwFragmentIn bad) := by
  unfold State.fwFragmentIn
  split
  · exact h
  · exact .iteElse h.setOutbox (fun hu => .ite hu.inc hu.asmAdd)

theorem Ends.fwFragmentReceived {bad} : Ends false s (execFwFragmentReceived bad s) := .finish (Keeps.refl.ifOn (·.fwFragmentIn))
theorem Ends.fwAssemblyTimeout : Ends k s (execFwAssemblyTimeout s) := .finish Keeps.refl.asmDrop
theorem Keeps.measExtFx {v} (h : Keeps k s t) : Keeps k s (Machine.measExtFx v t) := .ite h.warn h.extend
theorem Ends.fwuMeasExt {q v} : Ends k s (execFwuMeasExt q v s) := .finish (Keeps.refl.writeReg (·.measExtFx))
theorem Ends.xspiTimeout : Ends k s (execXspiTimeout s) := .finish (Keeps.refl.ifOn (·.inc.irq.raise))
theorem Keeps.mbRespond {h' status payload} (h : Keeps false s t) : Keeps false s (t.mbRespond h' status payload) :=
  h.setBytes.setReg.beside.irq
theorem Keeps.mbDoorbellFx {h' v} (h : Keeps k s t) : Keeps k s (Machine.mbDoorbellFx h' v t) :=
  .ite h.inc.raise (.ite (.anise (.iteThen h (·.put)) (·.mbRepeat)) h.beside.put)
theorem Ends.mailboxDoorbell {q h' v} : Ends k s (execMailboxDoorbell q h' v s) := .finish (Keeps.refl.writeReg (·.mbDoorbellFx))

theorem Keeps.mbAct {h' code len} {act : State → State} (h : Keeps false s t) (hact : ∀ {u}, Keeps false s u → Keeps false s (act u)) :
    Keeps false s (t.mbAct h' code len act) :=
  .iteElse h (fun hu => .ite (.ite (hact hu) hu.mbRespond) (.iteElse hu (·.mbRespond)))

theorem Ends.mailboxVersion {h'} : Ends false s (execMailboxVersion h' s) := .finish (Keeps.refl.mbAct (·.mbRespond))
theorem Ends.mailboxHealth {h'} : Ends false s (execMailboxHealth h' s) := .finish (Keeps.refl.mbAct (·.mbRespond))
theorem Ends.saveRestoreArea {h' data} : Ends false s (execSaveRestoreArea h' data s) := .finish (Keeps.refl.mbAct (·.setBytes.mbRespond))
theorem Ends.servoState {h'} : Ends false s (execServoState h' s) := .finish (Keeps.refl.mbAct (·.mbRespond))

theorem Keeps.keyRestore {d r} (h : Keeps false s t) (e : t.keyRestore d = r) : Keeps false s r.2 := by
  subst e
  exact .iteSnd h.msgApply h

theorem Ends.restoreKeys {h'} : Ends false s (execRestoreKeys h' s) := by
  unfold execRestoreKeys
  exact .finish (Keeps.refl.mbAct fun hu => .mbRespond (.foldlSnd hu fun hr => .snd (hr.keyRestore rfl)))

theorem Ends.enterLevel {h'} : Ends false s (execEnterLevel h' s) := .finish (Keeps.refl.mbAct (fun hu => .ite hu.mbRespond hu.mbRespond.pwrCmdFx))
theorem Ends.mailboxHandover {h'} : Ends false s (execMailboxHandover h' s) :=
  .finish (Keeps.refl.mbAct (fun hu => .ite hu.mbRespond (.ite hu.fwuHandover.mbRespond hu.mbRespond.fwuHandover)))
theorem Keeps.mbAckFx {q v} (h : Keeps k s t) : Keeps k s (Machine.mbAckFx q v t) := .iteThen (.iteThen h (·.put)) (·.put)
theorem Ends.mailboxAck {q v} : Ends k s (execMailboxAck q v s) := .finish (Keeps.refl.writeReg (·.mbAckFx))

end Sys2Proof.Machine
end

section
/-! PROOF. What operations keep: CAN, the cipher, the cloves. -/
namespace Sys2Proof.Machine

variable {k : Bool} {s t u : State}

theorem Keeps.storeFixed {p a v w} (h : Keeps k s t) : Keeps k s (t.storeFixed p a v w) := .iteElse h.store (·.warn)
theorem Keeps.canWhileOff {n} {f : State → State} (h : Keeps k s t) (hf : ∀ {u}, Keeps k s u → Keeps k s (f u)) : Keeps k s (t.canWhileOff n f) :=
  .ite h.warn (hf h)
theorem Keeps.canPlainFx {n a v} (h : Keeps k s t) : Keeps k s (Machine.canPlainFx n a v t) := h.canWhileOff (·.store)
theorem Keeps.canNbtFx {n v} (h : Keeps k s t) : Keeps k s (Machine.canNbtFx n v t) := h.canWhileOff (·.storeFixed)
theorem Keeps.canDbtFx {n v} (h : Keeps k s t) : Keeps k s (Machine.canDbtFx n v t) := h.canWhileOff (·.storeFixed)
theorem Keeps.canFault {n} (h : Keeps k s t) : Keeps k s (t.canFault n) := h.fault

theorem Keeps.canEcc {n r} (h : Keeps k s t) (e : t.canEcc n = r) : Keeps k s r.2 := by
  subst e
  unfold State.canEcc
  split
  · exact h
  · exact h.disarm
  · exact h.disarm.raiseInj

theorem Keeps.canFree {n b result} (h : Keeps k s t) : Keeps k s (t.canFree n b result) := .iteThen h.setReg.irq (·.irq)

theorem Keeps.canTake {n c q} (h : Keeps k s t) : Keeps k s (t.canTake n c q) := by
  induction n generalizing t with
  | zero => exact h
  | succ n ih => exact ih (h.fqTake rfl)

theorem Keeps.canLoad {n} (h : Keeps k s t) : Keeps k s (t.canLoad n) :=
  .iteElse h (fun hu => by
    dsimp only
    split
    · exact hu.setCan
    · split
      · exact hu.setCan
      · exact
          have hs1 := hu.canTake.setCan
          .ite hs1.inc.canFault hs1.setCan.setReg)

theorem Ends.canTxLoad {n} : Ends k s (execCanTxLoad n s) := .finish (Keeps.refl.onField (·.canLoad))

theorem Keeps.canChoose {n} (h : Keeps k s t) : Keeps k s (t.canChoose n) :=
  .iteElse h (fun hu => by
    split
    · exact hu
    · exact .ite (hu.canEcc rfl).canFree (.iteElse (hu.canEcc rfl).put.incSat (·.emit)))

theorem Ends.canTxChoose {n} : Ends k s (execCanTxChoose n s) := .finish (Keeps.refl.onField (·.canChoose))
theorem Keeps.canIdle {n} (h : Keeps k s t) : Keeps k s (t.canIdle n) := .iteElse h (·.setCan)
theorem Keeps.canBusOff {n} (h : Keeps k s t) : Keeps k s (t.canBusOff n) :=
  (h.foldl (fun hu => .iteElse hu (·.canFree))).setCan.inc.irq.put.canFault
theorem Keeps.canCounts {n tec rec} (h : Keeps k s t) : Keeps k s (t.canCounts n tec rec) :=
  .iteElse h (fun hu => .iteElse hu.put.put.put.put (fun hv => .ite hv.irq.canBusOff (.iteThen hv.irq (·.canFault))))

theorem Keeps.canError {n code cnt dataPhase tx charge} (h : Keeps k s t) : Keeps k s (t.canError n code cnt dataPhase tx charge) :=
  .canIdle (.iteElse (.iteThen h.inc.put.put (fun hu => by
    split
    · exact hu
    · exact .ite hu.canFree (.ite hu.canFree hu.put))) (fun hu => .ite hu.canCounts hu.canCounts))

theorem Keeps.canBusError {n e' dataPhase tx charge} (h : Keeps k s t) : Keeps k s (t.canBusError n e' dataPhase tx charge) :=
  .iteElse h (fun hu => by
    dsimp only
    split
    · exact hu.canError
    · exact hu.canError
    · exact hu.canError
    · exact hu.canError
    · exact hu.canError
    · exact hu.canError
    · exact .ite hu.inc.setCan hu.canError)

theorem Ends.canBusError {n e' dataPhase tx charge} : Ends k s (execCanBusError n e' dataPhase tx charge s) :=
  .finish (Keeps.refl.onField (·.canBusError))

theorem Keeps.canArbLost {n} (h : Keeps k s t) : Keeps k s (t.canArbLost n) := by
  unfold State.canArbLost
  split
  · exact h
  · exact .canIdle (.ite h.inc.canFree (.ite h.inc.canFree h.inc.put))

theorem Ends.canArbLost {n} : Ends k s (execCanArbLost n s) := .finish (Keeps.refl.onField (·.canArbLost))
theorem Keeps.canStore {n hdr status data len age} (h : Keeps k s t) : Keeps k s (t.canStore n hdr status data len age) :=
  .ite h.inc.inc.irq.canFault.setCan (.iteElse (h.inc.canEcc rfl) (·.irq.setCan.setFq.fqGrant))

theorem Keeps.canPass {n hdr dlc brs esi data age} (h : Keeps k s t) : Keeps k s (t.canPass n hdr dlc brs esi data age) := by
  unfold State.canPass
  dsimp only
  split
  · exact .ite h.inc h.canStore
  · exact .ite h.canStore h.inc

theorem Keeps.recGood {n} (h : Keeps k s t) : Keeps k s (t.recGood n) := .ite h.step1.canCounts (.iteElse h (·.canCounts))
theorem Keeps.canRx {n hdr dlc brs esi data age} (h : Keeps k s t) : Keeps k s (t.canRx n hdr dlc brs esi data age) :=
  .iteElse h (fun hu => .ite hu.canError hu.recGood.canPass.canIdle)
theorem Ends.canRxFrame {n hdr dlc brs esi data age} : Ends k s (execCanRxFrame n hdr dlc brs esi data age s) :=
  .finish (Keeps.refl.onField (·.canRx))

theorem Keeps.canDone {n age measured} (h : Keeps k s t) : Keeps k s (t.canDone n age measured) := by
  unfold State.canDone
  split
  · exact h
  · exact .canIdle (.iteThen (.iteThen h.canFree.inc.canCounts (·.setReg)) (·.canPass))

theorem Ends.canTxDone {n age measured} : Ends k s (execCanTxDone n age measured s) := .finish (Keeps.refl.onField (·.canDone))
theorem Keeps.canCmdFx {n v} (h : Keeps k s t) : Keeps k s (Machine.canCmdFx n v t) :=
  .iteThen (h.foldl (fun hu => .iteThen hu (fun hv => .ite hv.canFree (.iteThen hv (·.put))))) (·.put.put.irq)
theorem Ends.canAbort {q n v} : Ends k s (execCanAbort q n v s) := .finish (Keeps.refl.writeReg (·.canCmdFx))
theorem Ends.canRecover {q n v} : Ends k s (execCanRecover q n v s) := .finish (Keeps.refl.writeReg (·.canCmdFx))
theorem Keeps.canRecovered {n} (h : Keeps k s t) : Keeps k s (t.canRecovered n) := .iteThen h (·.setReg.put.setCan.irq.irq)
theorem Ends.canRecoveryComplete {n} : Ends k s (execCanRecoveryComplete n s) := .finish (Keeps.refl.onField (·.canRecovered))
theorem Keeps.canIntegrate {n} (h : Keeps k s t) : Keeps k s (t.canIntegrate n) := .ite (.ite h.canRecovered h.put) (.iteThen h (·.setCan))
theorem Ends.canBusIntegrate {n} : Ends k s (execCanBusIntegrate n s) := .finish (Keeps.refl.onField (·.canIntegrate))

theorem Keeps.setCipherCount {k' n} (h : Keeps false s t) : Keeps false s (t.setCipherCount k' n) := h.setCtx.setCtx

theorem Keeps.cipherBegin (h : Keeps false s t) : Keeps false s t.cipherBegin := by
  unfold State.cipherBegin
  dsimp only
  split
  · exact h
  · split
    · exact h.setOutbox.cipherOut
    · exact .ite h.setOutbox.cipherOut (.ite h.setOutbox.cipherOut (.besideFormed (.iteSnd h.setOutbox (h.setOutbox.keyStart rfl))))

theorem Keeps.onCtx {flow} {g : State → Nat → State} (h : Keeps k s t) (hg : ∀ {u x1}, Keeps k s u → Keeps k s (g u x1)) :
    Keeps k s (t.onCtx flow g) := by
  unfold State.onCtx
  split
  · exact hg h
  · exact h

theorem Keeps.takeCount {h' flow r} (h : Keeps false s t) (e : t.takeCount h' flow = r) : Keeps false s r.2 := by
  subst e
  exact .iteThen h (fun hu => (hu.onCtx (·.setCipherCount)).inc)

theorem Keeps.cipherEnd (h : Keeps false s t) : Keeps false s t.cipherEnd := by
  unfold State.cipherEnd
  split
  · exact h
  · dsimp only
    split
    · exact
        have hb0 := h.besideFormed.cipherArmed rfl
        .ite (.cipherMismatch (.raiseInj (.cipherOut (.takeCount (.iteThen hb0 (·.inc)) rfl))))
          (.ite (.ite (.cipherOut (.inc (.takeCount (.iteThen hb0 (·.inc)) rfl))) (.cipherOut (.takeCount (.iteThen hb0 (·.inc)) rfl)))
          (.cipherOut (.ite (.onCtx (.inc (.takeCount (.iteThen hb0 (·.inc)) rfl)) (fun hv => .iteThen hv (·.setCipherCount)))
          (.raise (.onCtx (.irq (.inc (.inc (.takeCount (.iteThen hb0 (·.inc)) rfl)))) (·.cntCtx))))))
    · exact h.besideFormed.inc.raise.cipherOut

theorem Keeps.keyArrive (h : Keeps false s t) : Keeps false s t.keyArrive := by
  unfold State.keyArrive
  split
  · exact h
  · exact .iteElse h.setOutbox (·.keyQueue)

theorem Keeps.cipherFrame {ph} (h : Keeps false s t) : Keeps false s (t.cipherFrame ph) :=
  .iteElse h (fun hu => .iteElse hu (fun hv => .ite hv.keyArrive (by
    split
    · exact .cipherEnd (.iteElse hv (·.cipherBegin))
    · exact hv.cipherBegin
    · exact hv.cipherEnd)))

theorem Ends.cipherFrame {ph} : Ends false s (execCipherFrame ph s) := .finish Keeps.refl.cipherFrame

theorem Keeps.mismatchNow (h : Keeps false s t) : Keeps false s t.mismatchNow := by
  unfold State.mismatchNow
  dsimp only
  split
  · exact .cipherMismatch (.cipherOut (by
      split
      · exact .takeCount (.besideFormed (.iteSnd h h.step1)) rfl
      · exact .besideFormed (.iteSnd h h.step1)))
  · split
    · exact .jrStart (.cipherMismatch (.jrDone (.iteSnd h h.step1)))
    · exact .iteSnd h h.step1
  · exact .iteSnd h h.step1

theorem Keeps.keyFault (h : Keeps false s t) : Keeps false s t.keyFault := h.step1.setKey.revoke
theorem Ends.glitchAlarm : Ends false s (execGlitchAlarm s) := .finish Keeps.refl.raise.erase
theorem Ends.tamperAlarm : Ends false s (execTamperAlarm s) := .finish Keeps.refl.raise.erase
theorem Keeps.jrTailFx {r' v} (h : Keeps false s t) : Keeps false s (Machine.jrTailFx r' v t) := .ite h.warn h.setReg.jrStart
theorem Ends.jobRingTail {q r' v} : Ends false s (execJobRingTail q r' v s) := .finish (Keeps.refl.writeReg (·.jrTailFx))
theorem Keeps.jrCfgFx {r' v} (h : Keeps false s t) : Keeps false s (Machine.jrCfgFx r' v t) := h.store.jrStart

theorem Keeps.jobComplete {r'} (h : Keeps false s t) : Keeps false s (t.jobComplete r') := by
  unfold State.jobComplete
  split
  · exact h
  extract_lets l op irq n revoked src aad iv tag t' b o w v bad
  have hsrc : Keeps false s src.2 := h.jobRead rfl
  have haad : Keeps false s aad.2 := .iteSnd hsrc (hsrc.jobRead rfl)
  have hiv : Keeps false s iv.2 := .iteSnd (haad.jobRead rfl) (.iteSnd (haad.jobRead rfl) haad)
  have htag : Keeps false s t' := .iteSnd (hiv.jobRead rfl) hiv
  have hw : Keeps false s w.2 := htag.jobWrite rfl
  have hv : Keeps false s v.2 := hw.jobWrite rfl
  split
  · exact htag.jrFault
  · refine .ite htag.jrDone.jrStart (.ite (htag.cipherArmed rfl).jrDone.raiseInj.cipherMismatch.jrStart ?_)
    split
    · exact hw.jrFault
    · exact hv.jrFault
    · exact hv.jrDone.jrStart

theorem Ends.cipherJobComplete {r'} : Ends false s (execCipherJobComplete r' s) := .finish Keeps.refl.jobComplete

theorem Keeps.jrCmdFx {v} (h : Keeps false s t) : Keeps false s (Machine.jrCmdFx v t) :=
  h.foldl (fun hu => .iteThen (.iteThen hu (·.setReg.jrStart)) (fun hv => by
    split
    · exact hv.jrDone
    · exact .iteThen hv (·.jrDone)))

theorem Ends.jobRingResume {q v} : Ends false s (execJobRingResume q v s) := .finish (Keeps.refl.writeReg (·.jrCmdFx))
theorem Ends.jobRingAbort {q v} : Ends false s (execJobRingAbort q v s) := .finish (Keeps.refl.writeReg (·.jrCmdFx))
theorem Keeps.ciphMmFx {v} (h : Keeps k s t) : Keeps k s (Machine.ciphMmFx v t) := .iteThen h (·.setReg)
theorem Ends.ciphMmCmd {q v} : Ends k s (execCiphMmCmd q v s) := .finish (Keeps.refl.writeReg (·.ciphMmFx))
theorem Keeps.ciphKatFx {v} (h : Keeps k s t) : Keeps k s (Machine.ciphKatFx v t) := .iteThen h (·.setReg.setReg)
theorem Ends.ciphKat {q v} : Ends k s (execCiphKat q v s) := .finish (Keeps.refl.writeReg (·.ciphKatFx))
theorem Ends.ciphKatDone {pass} : Ends k s (execCiphKatDone pass s) := .finish (.iteElse Keeps.refl.setReg.setReg (·.raise))

theorem Keeps.keySend (h : Keeps k s t) : Keeps k s t.keySend := by
  unfold State.keySend
  dsimp only
  split
  · exact h.warn
  · exact h.beside.present

theorem Keeps.keyOpenWrite {n} (h : Keeps false s t) : Keeps false s (t.keyOpenWrite n) :=
  .ite h.keyResult (h.setKey.foldl (·.setReg)).keyResult.keyLog
theorem Keeps.keyOpenClear {n} (h : Keeps false s t) : Keeps false s (t.keyOpenClear n) := h.revoke.setKey
theorem Keeps.keyCmdFx {q v} (h : Keeps false s t) : Keeps false s (Machine.keyCmdFx q v t) :=
  .ite h.warn (.iteThen (.iteThen (.iteThen (.iteThen h (·.keyQueue)) (·.keySend)) (·.keyOpenWrite)) (·.keyOpenClear))
theorem Ends.keyApply {q v} : Ends false s (execKeyApply q v s) := .finish (Keeps.refl.writeReg (·.keyCmdFx))
theorem Ends.keySend {q v} : Ends false s (execKeySend q v s) := .finish (Keeps.refl.writeReg (·.keyCmdFx))
theorem Ends.keyOpenWrite {q v} : Ends false s (execKeyOpenWrite q v s) := .finish (Keeps.refl.regWrite (·.keyCmdFx) rfl).answered
theorem Ends.keyOpenClear {q v} : Ends false s (execKeyOpenClear q v s) := .finish (Keeps.refl.regWrite (·.keyCmdFx) rfl).answered
theorem Ends.keyMessage : Ends false s (execKeyMessage s) := .finish (.iteThen Keeps.refl (fun hu => .keyMessage (.iteThen hu (·.keyArrive))))
theorem Keeps.keyCommitFx {v} (h : Keeps false s t) : Keeps false s (Machine.keyCommitFx v t) :=
  .ite h.keyCommitEnd (.iteThen h (·.keyCommitEnd))
theorem Ends.keyCommit {q v} : Ends false s (execKeyCommit q v s) := .finish (Keeps.refl.writeReg (·.keyCommitFx))
theorem Ends.keyCommitAbort {q v} : Ends false s (execKeyCommitAbort q v s) := .finish (Keeps.refl.writeReg (·.keyCommitFx))
theorem Ends.keyCommitTimeout : Ends false s (execKeyCommitTimeout s) := .finish Keeps.refl.keyCommitEnd
theorem Keeps.keyCtrFx {n v} (h : Keeps k s t) : Keeps k s (Machine.keyCtrFx n v t) := .iteElse h (·.store)
theorem Keeps.keyCtrLockFx {v} (h : Keeps k s t) : Keeps k s (Machine.keyCtrLockFx v t) := h.store
theorem Ends.keyCtrLock {q v} : Ends k s (execKeyCtrLock q v s) := .finish (Keeps.refl.writeReg (·.keyCtrLockFx))

theorem Keeps.keyLogPop {r} (h : Keeps k s t) (e : Machine.keyLogPop t = some r) : Keeps k s r.2 := by
  unfold Machine.keyLogPop at e
  split at e
  · exact nomatch e
  · exact Option.some.inj e ▸ .setReg (.setReg (.setReg (h.beside)))

theorem Ends.keyLogPop {q mayPrefetch wide} : Ends k s (execKeyLogPop q mayPrefetch wide s) :=
  .finish (Keeps.refl.popRead (fun hu e => hu.keyLogPop e))

theorem Ends.jump {e' k'} : Ends k s (execJump e' k' s) := .finish Keeps.refl.clvRun
theorem Ends.count {e' k'} : Ends k s (execCount e' k' s) := .finish Keeps.refl.clvRun
theorem Ends.pause {e' k'} : Ends k s (execPause e' k' s) := .finish Keeps.refl.clvRun
theorem Ends.halt {e' k'} : Ends k s (execHalt e' k' s) := .finish Keeps.refl.clvRun
theorem Ends.shout {e' k'} : Ends k s (execShout e' k' s) := .finish Keeps.refl.clvRun
theorem Ends.shin {e' k' pins} : Ends k s (execShin e' k' pins s) := .finish Keeps.refl.clvRun
theorem Ends.exch {e' k'} : Ends k s (execExch e' k' s) := .finish Keeps.refl.clvRun
theorem Ends.loadc {e' k'} : Ends k s (execLoadc e' k' s) := .finish Keeps.refl.clvRun
theorem Ends.test {e' k'} : Ends k s (execTest e' k' s) := .finish Keeps.refl.clvRun
theorem Ends.take {e' k'} : Ends k s (execTake e' k' s) := .finish Keeps.refl.clvRun
theorem Ends.give {e' k'} : Ends k s (execGive e' k' s) := .finish Keeps.refl.clvRun
theorem Ends.cloveMatch {e' k'} : Ends k s (execCloveMatch e' k' s) := .finish Keeps.refl.clvRun
theorem Ends.edge {e' k'} : Ends k s (execEdge e' k' s) := .finish Keeps.refl.clvRun
theorem Ends.signal {e' k'} : Ends k s (execSignal e' k' s) := .finish Keeps.refl.clvRun
theorem Ends.bankpt {e' k'} : Ends k s (execBankpt e' k' s) := .finish Keeps.refl.clvRun
theorem Keeps.clvReserved {e' k'} (h : Keeps k s t) : Keeps k s (t.clvReserved e' k') := .ite h.clvRun h.clvRun
theorem Ends.cloveReservedOpcode {e' k'} : Ends k s (execCloveReservedOpcode e' k' s) := .finish Keeps.refl.clvReserved
theorem Keeps.clvGiveRoom {e' k'} (h : Keeps k s t) : Keeps k s (t.clvGiveRoom e' k') := .iteThen h (·.clvResume)
theorem Ends.cloveGiveRoom {e' k'} : Ends k s (execCloveGiveRoom e' k' s) := .finish Keeps.refl.clvGiveRoom
theorem Keeps.clvEdgeSeen {e' k' waited} (h : Keeps k s t) : Keeps k s (t.clvEdgeSeen e' k' waited) :=
  .iteThen h (fun hu => .clvResume (.iteThen hu (·.setClvCounter)))
theorem Ends.cloveEdgeSeen {e' k' waited} : Ends k s (execCloveEdgeSeen e' k' waited s) := .finish Keeps.refl.clvEdgeSeen
theorem Keeps.clvEdgeTimeout {e' k'} (h : Keeps k s t) : Keeps k s (t.clvEdgeTimeout e' k') := .iteThen h (·.setClvCounter.clvResume)
theorem Ends.cloveEdgeTimeout {e' k'} : Ends k s (execCloveEdgeTimeout e' k' s) := .finish Keeps.refl.clvEdgeTimeout
theorem Keeps.clvShiftDone {e' k'} (h : Keeps k s t) : Keeps k s (t.clvShiftDone e' k') := .iteThen h (·.clvResume)
theorem Ends.cloveShiftComplete {e' k'} : Ends k s (execCloveShiftComplete e' k' s) := .finish Keeps.refl.clvShiftDone
theorem Keeps.clovCfgFx {e' v} (h : Keeps k s t) : Keeps k s (Machine.clovCfgFx e' v t) := .ite h.warn (.ite h.store.warn h.store)
theorem Keeps.clovChFx {e' k' a v} (h : Keeps k s t) : Keeps k s (Machine.clovChFx e' k' a v t) := .ite h.store h.warn
theorem Keeps.clovChCfgFx {e' k' v} (h : Keeps k s t) : Keeps k s (Machine.clovChCfgFx e' k' v t) := .ite h.warn (.iteThen h.store (·.warn))
theorem Keeps.clovStartFx {e' v} (h : Keeps k s t) : Keeps k s (Machine.clovStartFx e' v t) := h.foldl (fun hu => .iteThen hu (·.clvStart))
theorem Keeps.clovStopFx {e' v} (h : Keeps k s t) : Keeps k s (Machine.clovStopFx e' v t) := h.foldl (fun hu => .iteThen hu (·.clvStop))
theorem Ends.clovStart {q e' v} : Ends k s (execClovStart q e' v s) := .finish (Keeps.refl.writeReg (·.clovStartFx))
theorem Ends.clovStop {q e' v} : Ends k s (execClovStop q e' v s) := .finish (Keeps.refl.writeReg (·.clovStopFx))
theorem Keeps.clovCmdFx {e' v} (h : Keeps k s t) : Keeps k s (Machine.clovCmdFx e' v t) :=
  .iteElse h (fun hu => .ite hu.warn (hu.put.put.foldl (fun hv => .ite hv.setClv (.iteThen hv (·.setClv)))).cloveSwapCheck)
theorem Ends.clovSwap {q e' v} : Ends k s (execClovSwap q e' v s) := .finish (Keeps.refl.writeReg (·.clovCmdFx))
theorem Keeps.clvSyncStart (h : Keeps k s t) : Keeps k s t.clvSyncStart := h.foldl (·.foldl (fun hv => .iteThen hv (·.clvStart)))
theorem Keeps.clovSyncFx {q v} (h : Keeps k s t) : Keeps k s (Machine.clovSyncFx q v t) :=
  .ite h.refuse (.iteThen (.iteThen (.iteThen h.put (·.put)) (·.put.put)) (·.clvSyncStart))
theorem Ends.clovSyncNow {q v} : Ends k s (execClovSyncNow q v s) := .finish (Keeps.refl.writeReg (·.clovSyncFx))
theorem Ends.clovSyncArm {q v} : Ends k s (execClovSyncArm q v s) := .finish (Keeps.refl.writeReg (·.clovSyncFx))
theorem Ends.clovSyncDisarm {q v} : Ends k s (execClovSyncDisarm q v s) := .finish (Keeps.refl.regWrite (·.clovSyncFx) rfl).answered
theorem Keeps.clvTrigger {u'} (h : Keeps k s t) : Keeps k s (t.clvTrigger u') := .iteThen h (·.clvSyncStart.put.irq)
theorem Ends.clovSyncTrigger {u'} : Ends k s (execClovSyncTrigger u' s) := .finish (Keeps.refl.takeTrig (·.clvTrigger))
theorem Keeps.pmemFx {e' v} (h : Keeps k s t) : Keeps k s (Machine.pmemFx e' v t) := .ite h.inc.irq.cloveFault h.setProg
theorem Keeps.pmemNext {e'} (h : Keeps k s t) : Keeps k s (t.pmemNext e') := h.put
theorem Keeps.pmemIncFx {e' v} (h : Keeps k s t) : Keeps k s (Machine.pmemIncFx e' v t) := h.pmemFx.pmemNext

theorem Keeps.pmemRead {e' r} (h : Keeps k s t) (e : Machine.pmemRead e' t = r) : Keeps k s r.2 := by
  subst e
  exact h.progRead rfl

theorem Ends.clovPmemData {q e' v} : Ends k s (execClovPmemData q e' v s) := .finish (Keeps.refl.writeReg (·.pmemFx))
theorem Ends.clovPmemDataInc {q e' v} : Ends k s (execClovPmemDataInc q e' v s) := .finish (Keeps.refl.writeReg (·.pmemIncFx))
theorem Keeps.clovStepFx {e' v} (h : Keeps k s t) : Keeps k s (Machine.clovStepFx e' v t) :=
  .iteElse h (·.foldl (fun hv => .iteThen hv (·.clvTurn)))
theorem Ends.clovStep {q e' v} : Ends k s (execClovStep q e' v s) := .finish (Keeps.refl.writeReg (·.clovStepFx))
theorem Keeps.moverFault {e' k' tx} (h : Keeps k s t) : Keeps k s (t.moverFault e' k' tx) := h.put.irq

theorem Keeps.moverMove {e' k' tx} (h : Keeps false s t) : Keeps false s (t.moverMove e' k' tx) :=
  .iteElse h (fun hu => .ite (.iteElse hu (fun hv => by
    dsimp only
    split
    · exact (hv.xlate rfl).moverFault
    · exact
        have hm2 := (hv.xlate rfl).readPieces rfl
        .ite hm2.moverFault (.ite hm2.put.inc.irq.cloveFault hm2.put.setFq.fqFed))) (by
    dsimp only
    split
    · exact hu
    · split
      · exact (hu.xlate rfl).moverFault
      · exact
          have hm1 := (hu.xlate rfl).writePieces rfl
          .ite hm1.moverFault hm1.put.setFq.fqGrant))

theorem Ends.moverTransfer {e' k' tx} : Ends false s (execMoverTransfer e' k' tx s) := .finish Keeps.refl.moverMove
theorem Keeps.moverCfgFx {e' k' v} (h : Keeps false s t) : Keeps false s (Machine.moverCfgFx e' k' v t) :=
  .iteThen (.iteThen (.iteElse (.ite h.store h.store) (·.warn)) (·.moverMove)) (·.moverMove)
theorem Ends.moverFaultClear {q e' k' v} : Ends false s (execMoverFaultClear q e' k' v s) := .finish (Keeps.refl.writeReg (·.moverCfgFx))
theorem Keeps.moverTailFx {e' k' tx v} (h : Keeps k s t) : Keeps k s (Machine.moverTailFx e' k' tx v t) := .ite h.warn h.put

end Sys2Proof.Machine
end

section
/-! PROOF. What operations keep: DMA, fabric, fault and field commands. -/
namespace Sys2Proof.Machine

variable {k : Bool} {s t u : State}

theorem Keeps.dmaaAlloc {q r} (h : Keeps k s t) (e : Machine.dmaaAlloc q t = r) : Keeps k s r.2 := by
  subst e
  unfold Machine.dmaaAlloc
  dsimp only
  split
  · exact h.inc.irq
  · exact h.setReg.put.setChState.setReg

theorem Ends.dmaaAlloc {q mayPrefetch} : Ends k s (execDmaaAlloc q mayPrefetch s) := .finish (Keeps.refl.rowRead (·.dmaaAlloc rfl))
theorem Keeps.dmaaFreeFx {q v} (h : Keeps false s t) : Keeps false s (Machine.dmaaFreeFx q v t) := .ite h.refuse (.iteElse h (·.dmaFree))
theorem Ends.dmaaFree {q v} : Ends false s (execDmaaFree q v s) := .finish (Keeps.refl.writeReg (·.dmaaFreeFx))
theorem Keeps.dmaStart {c} (h : Keeps k s t) : Keeps k s (t.dmaStart c) :=
  .iteElse h.setDma.setReg.setChState (fun hu => .iteElse h (fun hv => .ite (.iteThen hv (·.setDma.setChState)) hu))
theorem Keeps.rxResume {c} (h : Keeps false s t) : Keeps false s (t.rxResume c) := .iteThen h (·.rxPump)
theorem Keeps.dmaResume {c} (h : Keeps false s t) : Keeps false s (t.dmaResume c) :=
  .iteElse h (fun hu => .iteThen hu.setDma.setChState (·.rxResume))
theorem Keeps.dmaAbort {c} (h : Keeps false s t) : Keeps false s (t.dmaAbort c) := .iteElse h (·.dmaHalt.setDma.dmaStopped)
theorem Keeps.dmaStop {c} (h : Keeps false s t) : Keeps false s (t.dmaStop c) :=
  .ite (.ite h.setChState h.setDma) (.iteThen h (·.dmaHalt.setDma.setChState))
theorem Keeps.dmaCmdFx {c v} (h : Keeps false s t) : Keeps false s (Machine.dmaCmdFx c v t) :=
  .iteThen (.iteThen (.iteThen (.iteThen h (·.dmaStart)) (·.dmaResume)) (·.dmaAbort)) (·.dmaStop)
theorem Ends.dmaStart {q c v} : Ends false s (execDmaStart q c v s) := .finish (Keeps.refl.writeReg (·.dmaCmdFx))
theorem Ends.dmaResume {q c v} : Ends false s (execDmaResume q c v s) := .finish (Keeps.refl.writeReg (·.dmaCmdFx))
theorem Ends.dmaAbort {q c v} : Ends false s (execDmaAbort q c v s) := .finish (Keeps.refl.writeReg (·.dmaCmdFx))
theorem Ends.dmaStop {q c v} : Ends false s (execDmaStop q c v s) := .finish (Keeps.refl.writeReg (·.dmaCmdFx))
theorem Keeps.rxTailFx {c v} (h : Keeps false s t) : Keeps false s (Machine.rxTailFx c v t) := .ite h.warn h.put.rxResume
theorem Ends.rxTailWrite {q c v} : Ends false s (execRxTailWrite q c v s) := .finish (Keeps.refl.writeReg (·.rxTailFx))
theorem Keeps.rsvPushFx {c v} (h : Keeps k s t) : Keeps k s (Machine.rsvPushFx c v t) := .ite h.warn h.setDma
theorem Ends.rsvPush {q c v} : Ends k s (execRsvPush q c v s) := .finish (Keeps.refl.writeReg (·.rsvPushFx))

theorem Keeps.rsvPop {c r} (h : Keeps k s t) (e : Machine.rsvPop c t = some r) : Keeps k s r.2 := by
  unfold Machine.rsvPop at e
  dsimp only at e
  split at e
  · exact nomatch e
  · exact Option.some.inj e ▸ h.setDma.setReg.setReg.setReg

theorem Ends.rsvPop {q c mayPrefetch wide} : Ends k s (execRsvPop q c mayPrefetch wide s) := .finish (Keeps.refl.popRead (fun hu e => hu.rsvPop e))
theorem Keeps.rxCfgFx {c v} (h : Keeps k s t) : Keeps k s (Machine.rxCfgFx c v t) :=
  .iteElse h (fun hu => .ite (.warn (.iteElse hu (·.warn))) (.store (.iteElse hu (·.warn))))
theorem Keeps.rxRingFx {c v} (h : Keeps k s t) : Keeps k s (Machine.rxRingFx c v t) := .iteElse h (·.store)
theorem Keeps.rsvCfgFx {c v} (h : Keeps k s t) : Keeps k s (Machine.rsvCfgFx c v t) := h.put
theorem Keeps.dmaExpFx {c v} (h : Keeps k s t) : Keeps k s (Machine.dmaExpFx c v t) := h.store
theorem Keeps.rxPumpPort {o host} (h : Keeps false s t) : Keeps false s (t.rxPumpPort o host) := h.foldl (fun hu => .iteThen hu (·.rxPump))

theorem Keeps.rxStep {o host} (h : Keeps false s t) : Keeps false s (t.rxStep o host) :=
  .rxPumpPort (by
    split
    · exact .iteThen h (·.setOutbox.rxFrame)
    · exact h)

theorem Ends.rxFrameWrite {o host} : Ends false s (execRxFrameWrite o host s) := .finish Keeps.refl.rxStep
theorem Ends.rxStallExpire {c} : Ends false s (execRxStallExpire c s) := .finish Keeps.refl.rxStall

theorem Keeps.dropSource {i n} (h : Keeps false s t) : Keeps false s (t.dropSource i n) :=
  .ite h.setPort (.ite h.setOutbox.egressPump h.setFabSrc)
theorem Keeps.sourceTaken {i} (h : Keeps k s t) : Keeps k s (t.sourceTaken i) := .ite h.fqSend (.ite h.pump (.iteThen h (·.foldl (·.pump))))

theorem Keeps.frameIngress {i env} (h : Keeps false s t) : Keeps false s (t.frameIngress i env) := by
  refine .ite h ?_
  split
  · exact .ite h (h.getD (h.ingress ·))
  · split
    · exact h
    · split
      · exact h
      · split
        next heq => exact (h.dropSource.ingress heq).sourceTaken
        · exact h

theorem Ends.frameIngress {i env} : Ends false s (execFrameIngress i env s) := .finish Keeps.refl.frameIngress
theorem Ends.fabricRound : Ends false s (execFabricRound s) := .finish (.iteThen Keeps.refl (·.fabRound))
theorem Ends.bankCountRebuild {m} : Ends k s (execBankCountRebuild m s) := .finish (.iteThen Keeps.refl (·.put.raise))
theorem Keeps.fabLimitFx {n v} (h : Keeps k s t) : Keeps k s (Machine.fabLimitFx n v t) := .ite h.warn.irq h.store.put
theorem Ends.fabLimitWrite {q n v} : Ends k s (execFabLimitWrite q n v s) := .finish (Keeps.refl.writeReg (·.fabLimitFx))
theorem Keeps.fabOutcapFx {o v} (h : Keeps k s t) : Keeps k s (Machine.fabOutcapFx o v t) := h.put
theorem Keeps.fabOccCmdFx {v} (h : Keeps k s t) : Keeps k s (Machine.fabOccCmdFx v t) := .iteThen h (·.foldl (·.put))
theorem Ends.fabOccCmd {q v} : Ends k s (execFabOccCmd q v s) := .finish (Keeps.refl.writeReg (·.fabOccCmdFx))
theorem Keeps.fabAimCmdFx {v} (h : Keeps k s t) : Keeps k s (Machine.fabAimCmdFx v t) := .iteThen h (·.setReg)
theorem Ends.fabAimCmd {q v} : Ends k s (execFabAimCmd q v s) := .finish (Keeps.refl.writeReg (·.fabAimCmdFx))

theorem Keeps.fabTracePop {r} (h : Keeps k s t) (e : Machine.fabTracePop t = some r) : Keeps k s r.2 := by
  unfold Machine.fabTracePop at e
  split at e
  · exact nomatch e
  · exact Option.some.inj e ▸ .setReg (.setReg (.setReg (h.beside)))

theorem Ends.fabTracePop {q mayPrefetch wide} : Ends k s (execFabTracePop q mayPrefetch wide s) :=
  .finish (Keeps.refl.popRead (fun hu e => hu.fabTracePop e))
theorem Keeps.fabTestStepFx {v} (h : Keeps false s t) : Keeps false s (Machine.fabTestStepFx v t) := .iteThen h (·.fabRound)
theorem Ends.fabTestStep {q v} : Ends false s (execFabTestStep q v s) := .finish (Keeps.refl.writeReg (·.fabTestStepFx))

theorem Keeps.sramFault {a} (h : Keeps false s t) : Keeps false s (t.sramFault a) := .iteThen h (·.beside.setWord)
theorem Keeps.tlbFault {a} (h : Keeps k s t) : Keeps k s (t.tlbFault a) := h.beside
theorem Keeps.stagingFault {a} (h : Keeps false s t) : Keeps false s (t.stagingFault a) := .iteThen h (·.setByte)

theorem Keeps.faultEffect {src addr} (h : Keeps false s t) : Keeps false s (t.faultEffect src addr) :=
  .ite (h.ifOn (·.inc.irq)) (.ite (h.ifOn (·.inc)) (.ite (h.ifOn (·.cellFault)) (.ite (h.ifOn (·.flowFault)) (.ite (h.ifOn (·.mismatchNow))
    (.ite h.sramFault (.ite (h.ifOn (·.tlbFault)) (.ite h.stagingFault (.iteThen h (·.keyFault)))))))))

theorem Ends.faultEvent {src page master node type size addr} : Ends false s (execFaultEvent src page master node type size addr s) :=
  .finish Keeps.refl.fault.faultEffect
theorem Ends.errorPairEqual {src page} : Ends k s (execErrorPairEqual src page s) := .finish (Keeps.refl.ifOn (·.setReg.inc.irq.raise))
theorem Ends.errorPairStuck {src page} : Ends k s (execErrorPairStuck src page s) := .finish Keeps.refl.fault
theorem Keeps.fltAckFx {v} (h : Keeps k s t) : Keeps k s (Machine.fltAckFx v t) := h.setReg
theorem Ends.fltAck {q v} : Ends k s (execFltAck q v s) := .finish (Keeps.refl.writeReg (·.fltAckFx))
theorem Keeps.fltCapClrFx {v} (h : Keeps k s t) : Keeps k s (Machine.fltCapClrFx v t) := h.foldl (fun hu => .iteThen hu (·.foldl (·.setReg)))
theorem Ends.fltCapClr {q v} : Ends k s (execFltCapClr q v s) := .finish (Keeps.refl.writeReg (·.fltCapClrFx))

theorem Keeps.errnClr {q v c r} (h : Keeps k s t) (e : t.errnClr q v c = r) : Keeps k s r.2 := by
  subst e
  exact
    have hr0 := h.regWriteHold (fun hu => .iteSnd hu hu.emit.beside) rfl
    .iteSnd hr0 hr0

theorem Ends.fltErrnClr {q v} : Ends k s (execFltErrnClr q v s) := .finish (Keeps.refl.errnClr rfl).answered
theorem Ends.level5Reset : Ends false s (execLevel5Reset s) := .finish (.iteThen Keeps.refl (·.warmReset))

theorem Keeps.ledgerSeal {e' r} (h : Keeps k s t) (e : t.ledgerSeal e' = r) : Keeps k s r.2 := by
  subst e
  exact .iteSnd h.setReg.setReg h.put

theorem Keeps.eraseSector {i} (h : Keeps false s t) : Keeps false s (t.eraseSector i) := h.dropMem
theorem Keeps.ledgerWrite {e'} (h : Keeps false s t) : Keeps false s (t.ledgerWrite e') :=
  .put (.inc (.setReg (.setReg (.setBytes (.iteElse (h.ledgerSeal rfl) (fun hu => .ite hu.eraseSector (.iteThen hu (·.eraseSector))))))))

theorem Keeps.flushWrite {n} (h : Keeps false s t) : Keeps false s (t.flushWrite n) := by
  induction n generalizing t with
  | zero => exact h
  | succ n ih => exact .ite (.iteElse h (·.put.irq)) (ih (h.ledgerWrite.put.besideFormed))

theorem Keeps.flushStart (h : Keeps false s t) : Keeps false s t.flushStart := .iteThen h (·.put.besideFormed)

theorem Keeps.flushDone {failed} (h : Keeps false s t) : Keeps false s (t.flushDone failed) :=
  .iteElse h (fun hu => by
    dsimp only
    split
    · exact .raise (.inc (.flushWrite (.iteElse hu.put (·.raise))))
    · exact .besideFormed (.irq (.iteThen (.flushWrite (.iteElse hu.put (·.raise))) (·.put))))

theorem Ends.ledgerFlushDone {failed} : Ends false s (execLedgerFlushDone failed s) := .finish Keeps.refl.flushDone.pwrWaited
theorem Keeps.ledgResumeFx {a v} (h : Keeps k s t) : Keeps k s (Machine.ledgResumeFx a v t) := .ite h.warn h.store
theorem Keeps.ledgAnchor (h : Keeps k s t) : Keeps k s t.ledgAnchor := .ite h.warn h.setReg.setReg.setReg.setReg.put
theorem Keeps.ledgFresh (h : Keeps false s t) : Keeps false s t.ledgFresh :=
  .ite h.warn (.iteElse h (fun hu => .put (.iteElse hu.setReg.setReg.setReg.setReg.ledgerWrite (·.raise))))
theorem Keeps.ledgNote (h : Keeps false s t) : Keeps false s t.ledgNote := h.stage
theorem Keeps.ledgCmdFx {v} (h : Keeps false s t) : Keeps false s (Machine.ledgCmdFx v t) :=
  .iteThen (.iteThen (.iteThen (.iteThen h (·.ledgAnchor)) (·.ledgFresh)) (·.ledgNote)) (·.flushStart)
theorem Ends.ledgAnchor {q v} : Ends false s (execLedgAnchor q v s) := .finish (Keeps.refl.writeReg (·.ledgCmdFx))
theorem Ends.ledgFresh {q v} : Ends false s (execLedgFresh q v s) := .finish (Keeps.refl.writeReg (·.ledgCmdFx))
theorem Ends.ledgFlushNow {q v} : Ends false s (execLedgFlushNow q v s) := .finish (Keeps.refl.writeReg (·.ledgCmdFx))
theorem Ends.ledgNote {q v} : Ends false s (execLedgNote q v s) := .finish (Keeps.refl.writeReg (·.ledgCmdFx))
theorem Keeps.faultWindows {epoch} (h : Keeps k s t) : Keeps k s (t.faultWindows epoch) :=
  h.foldl (fun hu => .iteElse hu (fun hv => .iteThen (.iteElse hv (·.setReg)) (·.setReg)))

theorem Keeps.ledgerSummary (h : Keeps false s t) : Keeps false s t.ledgerSummary :=
  h.besideFormed.foldl (fun hu => by
    split
    · exact .iteElse hu (·.inc.stage)
    · exact hu)

theorem Keeps.ledgerEpoch (h : Keeps false s t) : Keeps false s t.ledgerEpoch :=
  .ite h.besideFormed (.flushStart (.pwrWaited (.ledgerSummary (.iteThen h (·.put.inc.raise)))))

theorem Keeps.pinFx {c p v} (h : Keeps k s t) : Keeps k s (Machine.pinFx c p v t) := .ite h.warn h.store.clvPins
theorem Ends.pinFunctionWrite {q c p v} : Ends k s (execPinFunctionWrite q c p v s) := .finish (Keeps.refl.writeReg (·.pinFx))
theorem Keeps.bankFx {c v} (h : Keeps k s t) : Keeps k s (Machine.bankFx c v t) := .iteElse h (fun hu => .ite hu.put hu.warn)
theorem Ends.bankLevelWrite {q c v} : Ends k s (execBankLevelWrite q c v s) := .finish (Keeps.refl.writeReg (·.bankFx))
theorem Keeps.gpioSetFx {c v} (h : Keeps k s t) : Keeps k s (Machine.gpioSetFx c v t) := h.setReg.pinsSeen
theorem Keeps.gpioClrFx {c v} (h : Keeps k s t) : Keeps k s (Machine.gpioClrFx c v t) := h.setReg.pinsSeen
theorem Keeps.gpioPlainFx {c a v} (h : Keeps k s t) : Keeps k s (Machine.gpioPlainFx c a v t) := h.store.pinsSeen
theorem Ends.gpioSet {q c v} : Ends k s (execGpioSet q c v s) := .finish (Keeps.refl.writeReg (·.gpioSetFx))
theorem Ends.gpioClr {q c v} : Ends k s (execGpioClr q c v s) := .finish (Keeps.refl.writeReg (·.gpioClrFx))
theorem Keeps.gpioEdge {c p level} (h : Keeps k s t) : Keeps k s (t.gpioEdge c p level) := .iteElse h.setBall (·.pinSeen)
theorem Ends.gpioEdge {c p level} : Ends k s (execGpioEdge c p level s) := .finish Keeps.refl.gpioEdge
theorem Ends.fqItemProduced {c n item last} : Ends k s (execFqItemProduced c n item last s) := .finish (Keeps.refl.onField (·.fqPut.fqGrant))

theorem Keeps.fqPop {c q r} (h : Keeps k s t) (e : Machine.fqPop c q t = some r) : Keeps k s r.2 := by
  unfold Machine.fqPop at e
  dsimp only at e
  split at e
  · exact nomatch e
  · exact Option.some.inj e ▸ (h.fqEcc rfl).setFq.fqGrant.setReg.setReg.setReg

theorem Ends.fqPop {q c n mayPrefetch} : Ends k s (execFqPop q c n mayPrefetch s) := .finish (Keeps.refl.popRead (fun hu e => hu.fqPop e))
theorem Keeps.fqPushFx {c q v} (h : Keeps k s t) : Keeps k s (Machine.fqPushFx c q v t) :=
  .iteElse h (fun hu => .ite hu.inc.raise hu.setFq.fqFed)
theorem Ends.fqPush {q c n v} : Ends k s (execFqPush q c n v s) := .finish (Keeps.refl.writeReg (·.fqPushFx))
theorem Keeps.fqCmdFx {c v} (h : Keeps k s t) : Keeps k s (Machine.fqCmdFx c v t) :=
  .iteElse h (fun hu => .iteThen (.iteThen (.iteThen hu (·.fqCommit)) (·.fqFlushRx)) (·.fqFlushTx))
theorem Ends.fqCloseRx {q c v} : Ends k s (execFqCloseRx q c v s) := .finish (Keeps.refl.writeReg (·.fqCmdFx))
theorem Ends.fqFlushRx {q c v} : Ends k s (execFqFlushRx q c v s) := .finish (Keeps.refl.writeReg (·.fqCmdFx))
theorem Ends.fqFlushTx {q c v} : Ends k s (execFqFlushTx q c v s) := .finish (Keeps.refl.writeReg (·.fqCmdFx))
theorem Keeps.fqCfgFx {c q v} (h : Keeps k s t) : Keeps k s (Machine.fqCfgFx c q v t) :=
  .iteElse h (fun hu => .ite hu.warn (.ite hu.store.fqClear (.ite hu.store.setFq.fqGrant hu.store.fqGrant)))
theorem Ends.fqQcfgWrite {q c n v} : Ends k s (execFqQcfgWrite q c n v s) := .finish (Keeps.refl.writeReg (·.fqCfgFx))
theorem Keeps.fqBindFx {c q v} (h : Keeps k s t) : Keeps k s (Machine.fqBindFx c q v t) :=
  .iteElse h (fun hu => .ite (.iteElse hu (·.warn)) (.iteElse hu.store (·.warn)))
theorem Keeps.fqPlainFx {q a v} (h : Keeps k s t) : Keeps k s (Machine.fqPlainFx q a v t) := .iteThen h (·.store)

theorem Keeps.fqDeliver {c before after blocked} (h : Keeps k s t) : Keeps k s (t.fqDeliver c before after blocked) := by
  induction after generalizing before blocked with
  | nil => exact h
  | cons d after ih => exact .ite h.setOutbox.inc.fqFault (.ite h.setOutbox.inc.fqFault (.ite ih h.setOutbox.setFq.inc.fqFed))

theorem Ends.fqFrameDeliver {c} : Ends false s (execFqFrameDeliver c s) := .finish (.iteThen Keeps.refl (·.fqDeliver.egressPump))

end Sys2Proof.Machine
end

section
/-! PROOF. What operations keep: flow, host and MAC commands. -/
namespace Sys2Proof.Machine

variable {k : Bool} {s t u : State}

theorem Keeps.flowResult {code detail} (h : Keeps k s t) : Keeps k s (t.flowResult code detail) := h.beside.put.setReg.irq
theorem Keeps.viewResult {code} (h : Keeps k s t) : Keeps k s (t.viewResult code) := h.beside.setReg.irq
theorem Keeps.flowWait {op f} (h : Keeps k s t) : Keeps k s (t.flowWait op f) := h.beside
theorem Keeps.createCtx {k' f} (h : Keeps false s t) : Keeps false s (t.createCtx k' f) := h.setBytes.setSlot.touch.unmarkUse.setEnt.beside
theorem Keeps.pinCtx {f} (h : Keeps false s t) : Keeps false s (t.pinCtx f) := .iteThen h.setPinned (·.irq)

theorem Keeps.cmdCreate {f} (h : Keeps false s t) : Keeps false s (t.cmdCreate f) :=
  .ite h.flowResult (.ite h.flowResult (by
    split
    · exact h.createCtx.flowResult
    · exact .ite h.flowResult h.flowWait.beside))

theorem Keeps.cmdDelete {f} (h : Keeps false s t) : Keeps false s (t.cmdDelete f) :=
  .ite h.flowResult (.ite h.flowResult (.ite h.flowResult (.flowResult (.iteThen (.beside (.setEnt (.iteThen h.cancelFetch.dropWaiting (·.setSlot))))
    (·.viewResult)))))

theorem Keeps.cmdEnable {f} (h : Keeps false s t) : Keeps false s (t.cmdEnable f) :=
  .ite h.flowResult (.ite h.flowResult (.ite (.ite h.logRefusal.flowResult (.flowResult
    (.setEnabled (.setReadmit (.startWindow (.iteThen h (·.install))))))) (.ite h.logRefusal.flowResult h.setEnt.beside.flowResult)))

theorem Keeps.cmdDisable {f} (h : Keeps false s t) : Keeps false s (t.cmdDisable f) :=
  .ite h.flowResult (.ite h.flowResult (.ite h.disableFlow.dropWaiting.flowResult h.setEnt.unwanted.dropWaiting.flowResult))
theorem Keeps.cmdPin {f} (h : Keeps false s t) : Keeps false s (t.cmdPin f) :=
  .ite h.flowResult (.ite h.flowResult (.ite h.flowResult (.ite h.pinCtx.flowResult h.miss.flowWait)))
theorem Keeps.cmdUnpin {f} (h : Keeps false s t) : Keeps false s (t.cmdUnpin f) :=
  .ite h.flowResult (.ite h.flowResult (.ite h.setPinned.flowResult h.flowResult))
theorem Keeps.cmdWriteBack {f} (h : Keeps k s t) : Keeps k s (t.cmdWriteBack f) := .ite h.flowResult (.ite h.flowWait h.step1.flowResult)

theorem Keeps.flowCmdFx {v} (h : Keeps false s t) : Keeps false s (Machine.flowCmdFx v t) :=
  .iteElse h (fun hu => .iteElse hu.setReg (fun hv => have hs2 := hv.put.keepVictim
  .ite hs2.flowResult (.ite hs2.cmdCreate (.ite hs2.cmdDelete (.ite hs2.cmdEnable (.ite hs2.cmdDisable
    (.ite hs2.cmdPin (.ite hs2.cmdUnpin (.ite hs2.cmdWriteBack hs2.flowResult)))))))))

theorem Keeps.flowCommand {q op f} (h : Keeps false s t) : Keeps false s (t.flowCommand q op f) := h.writeReg (·.flowCmdFx)
theorem Ends.flowCreate {q f} : Ends false s (execFlowCreate q f s) := .finish Keeps.refl.flowCommand
theorem Ends.flowDelete {q f} : Ends false s (execFlowDelete q f s) := .finish Keeps.refl.flowCommand
theorem Ends.flowEnable {q f} : Ends false s (execFlowEnable q f s) := .finish Keeps.refl.flowCommand
theorem Ends.flowDisable {q f} : Ends false s (execFlowDisable q f s) := .finish Keeps.refl.flowCommand
theorem Ends.flowPin {q f} : Ends false s (execFlowPin q f s) := .finish Keeps.refl.flowCommand
theorem Ends.flowUnpin {q f} : Ends false s (execFlowUnpin q f s) := .finish Keeps.refl.flowCommand
theorem Ends.flowWriteBack {q f} : Ends false s (execFlowWriteBack q f s) := .finish Keeps.refl.flowCommand
theorem Keeps.pagerFault {dir cause f a} (h : Keeps k s t) : Keeps k s (t.pagerFault dir cause f a) :=
  .iteElse h.inc.irq.raise (·.setReg.setReg)

theorem Keeps.backing {a x r} (h : Keeps k s t) (e : t.backing a x = r) : Keeps k s r.2 := by
  subst e
  exact
    have hr := h.translate rfl
    .iteSnd (.snd hr.xltFault) (.iteSnd (.snd hr) (.snd hr))

theorem Keeps.writeBack {k' f err r} (h : Keeps false s t) (e : t.writeBack k' f err = r) : Keeps false s r.2 := by
  subst e
  unfold State.writeBack
  dsimp only
  split
  · exact (h.setWord.backing rfl).setBytes.beside.inc
  · exact (h.setWord.backing rfl).pagerFault
  · exact (h.setWord.backing rfl).pagerFault

theorem Keeps.viewTake {q f} (h : Keeps k s t) : Keeps k s (t.viewTake q f) := (h.foldl (·.setReg)).put.beside.viewResult
theorem Keeps.endHold (h : Keeps k s t) : Keeps k s t.endHold := h.beside.put
theorem Keeps.viewStore {f} (h : Keeps false s t) : Keeps false s (t.viewStore f) := (h.foldl (fun hu => .iteElse hu (·.setWord))).touch
theorem Keeps.viewLoad {q} (h : Keeps false s t) : Keeps false s (t.viewLoad q) :=
  .ite h.viewResult (.ite h.viewResult (.ite h.viewResult (.ite h.keepVictim.viewTake h.keepVictim.miss.beside)))

theorem Keeps.flowViewFx {q v} (h : Keeps false s t) : Keeps false s (Machine.flowViewFx q v t) :=
  .iteElse h (fun hu => .ite hu.viewLoad (.ite (by
    dsimp only
    split
    · exact hu.viewResult
    · exact .ite hu.viewResult (.viewResult (.endHold (.iteThen hu (·.viewStore))))) hu.viewResult))

theorem Ends.viewLoad {q v} : Ends false s (execViewLoad q v s) := .finish (Keeps.refl.writeReg (·.flowViewFx))
theorem Ends.viewStore {q v} : Ends false s (execViewStore q v s) := .finish (Keeps.refl.writeReg (·.flowViewFx))
theorem Ends.viewRelease {q v} : Ends false s (execViewRelease q v s) := .finish (Keeps.refl.writeReg (·.flowViewFx))

theorem Keeps.viewLapse (h : Keeps k s t) : Keeps k s t.viewLapse := by
  unfold State.viewLapse
  split
  · exact h
  · exact .ite h.endHold.irq h.beside

theorem Ends.contextDirectWrite {q a bs} : Ends false s (execContextDirectWrite q a bs s) := .finish (Keeps.refl.memWriteReq rfl).done

theorem Keeps.pageOut {k' f} (h : Keeps false s t) : Keeps false s (t.pageOut k' f) := by
  unfold State.pageOut
  exact h.setEnt.setSlot

theorem Keeps.jobDone (h : Keeps k s t) : Keeps k s t.jobDone := by
  unfold State.jobDone
  split
  · exact h
  · exact h.beside

theorem Keeps.pagerMiss (h : Keeps false s t) : Keeps false s t.pagerMiss :=
  .iteElse h (fun hu => by
    split
    · dsimp only
      split
      · exact .iteThen hu.beside (·.jobDone)
      · split
        · exact .iteElse hu (·.beside.inc.irq)
        · exact .ite (.iteThen hu.setEnt.beside (·.jobDone)) (.iteThen hu.pageOut.beside (·.jobDone))
    · exact hu)

theorem Ends.pagerMiss : Ends false s (execPagerMiss s) := .finish Keeps.refl.pagerMiss

theorem Keeps.pagerWroteBack {err} (h : Keeps false s t) : Keeps false s (t.pagerWroteBack err) := by
  unfold State.pagerWroteBack
  split
  · exact
      have hr0 := h.writeBack rfl
      .ite (.ite hr0.pageOut.jobDone hr0.pageOut.beside) hr0.abandonEvict.beside
  · exact h

theorem Ends.pagerWritebackDone {err} : Ends false s (execPagerWritebackDone err s) := .finish Keeps.refl.pagerWroteBack
theorem Keeps.installCtx {k' f bs} (h : Keeps false s t) : Keeps false s (t.installCtx k' f bs) :=
  .inc (.unmarkUse (.iteThen h.setBytes.setSlot.setEnt.beside.setWord (·.startWindow.beside)))
theorem Keeps.fetchFaulted {f a cause} (h : Keeps false s t) : Keeps false s (t.fetchFaulted f a cause) :=
  .iteThen (.iteThen h.beside.pagerFault.setEnt.beside (·.beside)) (·.viewResult)

theorem Keeps.fetchLanded {f k' bs} (h : Keeps false s t) : Keeps false s (t.fetchLanded f k' bs) :=
  have hs0 := h.jobDone.installCtx
  .retryWaiting (by
    split
    · exact .iteThen hs0 (·.viewTake)
    · exact hs0)

theorem Keeps.pagerFetched {err} (h : Keeps false s t) : Keeps false s (t.pagerFetched err) := by
  unfold State.pagerFetched
  split
  · dsimp only
    split
    · exact (h.backing rfl).fetchFaulted
    · exact (h.backing rfl).fetchLanded
  · exact h

theorem Ends.pagerFetchDone {err} : Ends false s (execPagerFetchDone err s) := .finish Keeps.refl.pagerFetched
theorem Keeps.pagerRetry {f} (h : Keeps false s t) : Keeps false s (t.pagerRetry f) := .iteThen h (·.beside.setEnt)
theorem Ends.pagerRetry {f} : Ends false s (execPagerRetry f s) := .finish Keeps.refl.pagerRetry
theorem Keeps.dropEvict (h : Keeps k s t) : Keeps k s t.dropEvict := h.beside

theorem Keeps.flowComplete {err noVictim} (h : Keeps false s t) : Keeps false s (t.flowComplete err noVictim) := by
  unfold State.flowComplete
  split
  · split
    · exact h.dropEvict.createCtx.flowResult
    · exact .ite h.dropEvict.flowResult (.iteElse h (·.beside))
  · exact .ite (.ite h.flowResult h.pinCtx.flowResult) (.iteThen h (fun hu => .flowResult (.iteElse hu (·.cancelFetch))))
  · exact .iteThen h (fun hu => have hr1 := hu.writeBack rfl
    .ite hr1.beside.flowResult hr1.flowResult)
  · exact h

theorem Ends.flowCmdComplete {err noVictim} : Ends false s (execFlowCmdComplete err noVictim s) := .finish Keeps.refl.flowComplete
theorem Keeps.sysUnprotect {src flow} (h : Keeps false s t) : Keeps false s (t.sysUnprotect src flow) := h.beside.retrySystem
theorem Ends.sysWindowUnprotect {src flow} : Ends false s (execSysWindowUnprotect src flow s) := .finish Keeps.refl.sysUnprotect
theorem Keeps.flowPfCmdFx {v} (h : Keeps k s t) : Keeps k s (Machine.flowPfCmdFx v t) := .iteThen h (·.setReg.setReg)
theorem Ends.flowPfCmd {q v} : Ends k s (execFlowPfCmd q v s) := .finish (Keeps.refl.writeReg (·.flowPfCmdFx))
theorem Keeps.flowCtrlFx {v} (h : Keeps k s t) : Keeps k s (Machine.flowCtrlFx v t) := .ite h.warn h.store
theorem Keeps.flowCfgFx {v} (h : Keeps k s t) : Keeps k s (Machine.flowCfgFx v t) := .iteElse h.put (·.warn)
theorem Keeps.flowBackFx {v} (h : Keeps k s t) : Keeps k s (Machine.flowBackFx v t) := .ite h.warn h.store
theorem Keeps.flowBackSizeFx {v} (h : Keeps k s t) : Keeps k s (Machine.flowBackSizeFx v t) := .ite h.warn h.put
theorem Keeps.flowArgFx {a v} (h : Keeps k s t) : Keeps k s (Machine.flowArgFx a v t) := .iteElse h (·.store)
theorem Keeps.flowSysCfgFx {v} (h : Keeps k s t) : Keeps k s (Machine.flowSysCfgFx v t) := .iteElse h.put (·.warn)

theorem Keeps.fenceRead {h' r} (h : Keeps k s t) (e : Machine.fenceRead h' t = r) : Keeps k s r.2 := by
  subst e
  exact h.put

theorem Keeps.fenceReqFx {h' v} (h : Keeps k s t) : Keeps k s (Machine.fenceReqFx h' v t) := .iteThen h (·.foldl (·.brSend))
theorem Keeps.pweClrFx {h' v} (h : Keeps k s t) : Keeps k s (Machine.pweClrFx h' v t) := h.put
theorem Keeps.winResumeFx {h' v} (h : Keeps k s t) : Keeps k s (Machine.winResumeFx h' v t) := h.foldl (fun hu => .iteThen hu (·.put))
theorem Keeps.winCheck {h' n} (h : Keeps k s t) : Keeps k s (t.winCheck h' n) := .iteThen h (·.put.put.warn)
theorem Keeps.winBaseFx {h' n v} (h : Keeps k s t) : Keeps k s (Machine.winBaseFx h' n v t) := h.store.winCheck
theorem Keeps.winAttrFx {h' n v} (h : Keeps k s t) : Keeps k s (Machine.winAttrFx h' n v t) := h.store.put.winCheck
theorem Keeps.hbRetryFx {h' v} (h : Keeps k s t) : Keeps k s (Machine.hbRetryFx h' v t) := h.store
theorem Keeps.hbPostedFx {h' v} (h : Keeps k s t) : Keeps k s (Machine.hbPostedFx h' v t) := h.store
theorem Keeps.msixCtrlFx {h' n v} (h : Keeps k s t) : Keeps k s (Machine.msixCtrlFx h' n v t) :=
  .iteThen h.store (fun hu => .iteThen hu.setReg (·.emit))
theorem Ends.fenceRead {q h' mayPrefetch} : Ends k s (execFenceRead q h' mayPrefetch s) := .finish (Keeps.refl.rowRead (·.fenceRead rfl))
theorem Ends.fenceRequest {q h' v} : Ends k s (execFenceRequest q h' v s) := .finish (Keeps.refl.writeReg (·.fenceReqFx))
theorem Ends.pweClear {q h' v} : Ends k s (execPweClear q h' v s) := .finish (Keeps.refl.writeReg (·.pweClrFx))
theorem Ends.windowResume {q h' v} : Ends k s (execWindowResume q h' v s) := .finish (Keeps.refl.writeReg (·.winResumeFx))

theorem Ends.windowAttrWrite {q h' n base v} : Ends k s (execWindowAttrWrite q h' n base v s) := by
  refine .finish (Keeps.refl.writeReg fun hu => ?_)
  split
  · exact hu.winBaseFx
  · exact hu.winAttrFx

theorem Ends.msixUnmask {q h' n v} : Ends k s (execMsixUnmask q h' n v s) := .finish (Keeps.refl.writeReg (·.msixCtrlFx))
theorem Keeps.pcieLink {h' ltssm gen2 up} (h : Keeps k s t) : Keeps k s (t.pcieLink h' ltssm gen2 up) :=
  .iteElse h (fun hu => .iteThen hu.setReg.put (·.raise))
theorem Ends.pcieLinkChange {h' ltssm gen2 up} : Ends k s (execPcieLinkChange h' ltssm gen2 up s) := .finish Keeps.refl.pcieLink

theorem Keeps.macCfgFx {m v} (h : Keeps k s t) : Keeps k s (Machine.macCfgFx m v t) := .ite h.setReg.warn h.setReg
theorem Keeps.macExpFx {m v} (h : Keeps k s t) : Keeps k s (Machine.macExpFx m v t) := h.store

theorem Keeps.macEcc {m r} (h : Keeps k s t) (e : t.macEcc m = r) : Keeps k s r.2 := by
  subst e
  unfold State.macEcc
  split
  · exact h
  · exact h.disarm
  · exact h.disarm.raiseInj

theorem Keeps.macSegments {m flow l bad stamp} (h : Keeps k s t) : Keeps k s (t.macSegments m flow l bad stamp) := h.setMac.foldl (·.present)
theorem Keeps.macPause {quanta} (h : Keeps k s t) : Keeps k s (t.macPause quanta) := .ite h.put (.iteElse h (·.put.macCnt))

theorem Keeps.macRxCount {m l badFcs part phy} (h : Keeps k s t) : Keeps k s (t.macRxCount m l badFcs part phy) :=
  .iteElse (.iteElse (.iteThen (.iteThen (.iteThen (.iteThen h (·.macCnt)) (·.macCnt)) (·.macCnt)) (·.macCnt))
    (fun hu => .iteThen hu.macCnt.macCnt.macCnt (·.macCnt))) (·.macCnt)

theorem Keeps.macInband {st} (h : Keeps k s t) : Keeps k s (t.macInband st) :=
  .iteElse h (fun hu => .put (.iteThen (.iteElse hu.put.put (·.irq)) (·.macFault)))

theorem Keeps.macRx {m l part phy age} (h : Keeps k s t) : Keeps k s (t.macRx m l part phy age) :=
  .iteElse h (fun hu => have hs1 := hu.macRxCount.wakeMatch
  .ite (.iteElse hs1 (·.macWake)) (.ite hs1.macCnt.irq.macFault (.iteElse (hs1.macEcc rfl) (fun hw => .ite (.iteThen hw (·.macPause))
    (.iteElse hw (fun hx3 => by
    dsimp only
    split
    · exact .irq (.macCnt (.iteSnd (.takeResidence (.iteThen hx3 (·.tunnelOut)) rfl) (.iteThen hx3 (·.tunnelOut))))
    · exact .macSegments (.iteSnd (.takeResidence (.iteThen hx3 (·.tunnelOut)) rfl) (.iteThen hx3 (·.tunnelOut)))))))))

theorem Ends.macFrameReceived {m data partOctet phyErr age inband} : Ends k s (execMacFrameReceived m data partOctet phyErr age inband s) :=
  .finish (.macRx (by
    split
    · exact .iteThen Keeps.refl (·.macInband)
    · exact Keeps.refl))

theorem Keeps.macSegment {m f} (h : Keeps k s t) : Keeps k s (t.macSegment m f) :=
  .iteElse h.setMac.macTxDrop (fun hu => .ite (.ite (.macTxDrop (.ite hu h)) (.ite (.setMac (.ite hu h))
    (.ite (.setMac (.ite hu h)) (.macTxDrop (.setMac (.ite hu h)))))) (by
    dsimp only
    split
    · exact h.macTxDrop
    · exact .ite (.ite h.setMac (.ite h.setMac h.setMac.macTxDrop)) hu))

theorem Keeps.macDeliver {t1s} (h : Keeps k s t) : Keeps k s (t.macDeliver t1s) := by
  unfold State.macDeliver
  dsimp only
  split
  · exact h
  · exact .ite (h.setOutbox.foldl (·.macTxDrop)) (.ite h.setOutbox.discardCells (.iteElse h (·.setOutbox.macSegment)))

theorem Ends.macSegmentDeliver {t1s} : Ends k s (execMacSegmentDeliver t1s s) := .finish (Keeps.refl.onField (·.macDeliver))
theorem Keeps.macStamp {m number} (h : Keeps k s t) : Keeps k s (t.macStamp m number) := .ite h.macCnt h.setMac.irq
theorem Keeps.macPop {m} (h : Keeps k s t) : Keeps k s (t.macPop m) := h.setMac

theorem Keeps.followUp {l r} (h : Keeps k s t) (e : t.followUp l = r) : Keeps k s r.2 := by
  subst e
  exact .iteSnd h (.iteSnd (.snd (h.takeResidence rfl)) (h.takeResidence rfl))

theorem Keeps.macTx {m deferred} (h : Keeps k s t) : Keeps k s (t.macTx m deferred) :=
  .iteElse h (fun hu => by
    dsimp only
    split
    · exact hu
    · exact .iteElse (hu.macPop.macEcc rfl) (fun hv => .ite hv.macTxDrop (.iteElse (.macLine (.iteSnd (.followUp (.iteThen hv (·.macStamp)) rfl)
        (.iteThen hv (·.macStamp)))) (fun hw => .ite (.macCnt (.iteThen hw (·.macCnt))) (.iteThen (.iteThen hw (·.macCnt)) (·.macCnt))))))

theorem Ends.macTxFrame {m deferred} : Ends k s (execMacTxFrame m deferred s) := .finish (Keeps.refl.onField (·.macTx))
theorem Ends.pauseEnd : Ends k s (execPauseEnd s) := .finish Keeps.refl.put
theorem Keeps.macCollision {c late} (h : Keeps k s t) : Keeps k s (t.macCollision c late) :=
  .iteElse h (fun hu => .ite hu.macCnt.emit.macPop.macCnt.irq.macFault (.ite hu.macCnt.emit.macPop.macCnt.irq.macFault hu.macCnt.emit.step1.setMac))
theorem Ends.t1sCollision {c late} : Ends k s (execT1sCollision c late s) := .finish (Keeps.refl.onField (·.macCollision))
theorem Ends.t1sBackoffEnd {c} : Ends k s (execT1sBackoffEnd c s) := .finish Keeps.refl.setMac
theorem Keeps.mdioFx {m v} (h : Keeps k s t) : Keeps k s (Machine.mdioFx m v t) := .iteElse h (fun hu => .ite hu.setReg.emit hu.setReg)
theorem Ends.mdioAccess {q m v} : Ends k s (execMdioAccess q m v s) := .finish (Keeps.refl.writeReg (·.mdioFx))
theorem Keeps.mdioEnd {m data} (h : Keeps k s t) : Keeps k s (t.mdioEnd m data) := .iteThen h (fun hu => .iteElse hu.put (·.put))
theorem Ends.mdioDone {m data} : Ends k s (execMdioDone m data s) := .finish Keeps.refl.mdioEnd
theorem Keeps.cntCmdFx {m v} (h : Keeps k s t) : Keeps k s (Machine.cntCmdFx m v t) :=
  .iteElse h (fun hu => .iteElse (hu.foldl (·.setReg)) (·.foldl (fun hw => .iteThen hw.setReg (·.macHalf))))
theorem Ends.cntFreeze {q m v} : Ends k s (execCntFreeze q m v s) := .finish (Keeps.refl.writeReg (·.cntCmdFx))
theorem Ends.cntClear {q m v} : Ends k s (execCntClear q m v s) := .finish (Keeps.refl.writeReg (·.cntCmdFx))

theorem Keeps.macTxsPop {m r} (h : Keeps k s t) (e : Machine.macTxsPop m t = some r) : Keeps k s r.2 := by
  unfold Machine.macTxsPop at e
  split at e
  · exact nomatch e
  · exact Option.some.inj e ▸ h.setMac.setReg.setReg.setReg

theorem Ends.txsPop {q m mayPrefetch wide} : Ends k s (execTxsPop q m mayPrefetch wide s) := .finish (Keeps.refl.popRead (fun hu e => hu.macTxsPop e))

end Sys2Proof.Machine
end

section
/-! PROOF. What operations keep: pacing, power die, polling and serial commands. -/
namespace Sys2Proof.Machine

variable {k : Bool} {s t u : State}

theorem Keeps.setCode {n} (h : Keeps k s t) : Keeps k s (t.setCode n) :=
  .iteElse h (fun hu => .iteThen (.iteThen hu.put.irq.inc (·.irq)) (·.driveVcore))
theorem Keeps.startSettle (h : Keeps k s t) : Keeps k s t.startSettle := h.beside
theorem Keeps.setShed {n calm} (h : Keeps k s t) : Keeps k s (t.setShed n calm) :=
  .iteElse h.beside.put (fun hu => .ite hu.irq.inc.irq.raise (.iteThen hu.irq (·.inc.irq.raise)))
theorem Keeps.paceNote {b0 b1} (h : Keeps k s t) : Keeps k s (t.paceNote b0 b1) :=
  .beside (.iteThen (.setShed (.put (.put (.put (.put (.put (.iteThen (.iteThen (.iteThen h (·.disarm.raiseInj)) (·.raise)) (·.put)))))))) (·.raise))
theorem Keeps.paceAct {beat} (h : Keeps k s t) : Keeps k s (t.paceAct beat) :=
  .iteElse h (fun hu => .iteElse hu.setCode (fun hv => .iteElse hu (fun hw => .ite hv (.iteThen hw (·.setCode.startSettle)))))
theorem Keeps.paceReading {b0 b1} (h : Keeps k s t) : Keeps k s (t.paceReading b0 b1) := .iteElse h (·.paceNote.paceAct)
theorem Ends.paceReading {b0 b1} : Ends k s (execPaceReading b0 b1 s) := .finish Keeps.refl.paceReading
theorem Ends.paceOutOfTurn {b0 b1} : Ends k s (execPaceOutOfTurn b0 b1 s) := .finish Keeps.refl.setReg.paceReading
theorem Ends.paceSettleEnd : Ends k s (execPaceSettleEnd s) := .finish Keeps.refl.beside
theorem Keeps.paceLower (h : Keeps k s t) : Keeps k s t.paceLower := .iteThen h (·.setCode)
theorem Ends.paceLower : Ends k s (execPaceLower s) := .finish Keeps.refl.paceLower
theorem Keeps.applyManual (h : Keeps k s t) : Keeps k s t.applyManual := .iteThen h (·.setCode)
theorem Keeps.paceCtrlFx {v} (h : Keeps k s t) : Keeps k s (Machine.paceCtrlFx v t) :=
  .iteThen h.store (·.setCode.put.driveVcore.startSettle.applyManual)
theorem Ends.paceLoopEnable {q v} : Ends k s (execPaceLoopEnable q v s) := .finish (Keeps.refl.writeReg (·.paceCtrlFx))
theorem Keeps.paceCfgFx {v} (h : Keeps k s t) : Keeps k s (Machine.paceCfgFx v t) :=
  .iteThen h.store (fun hu => .applyManual (.iteThen hu.setCode (·.startSettle)))
theorem Ends.paceCfgWrite {q v} : Ends k s (execPaceCfgWrite q v s) := .finish (Keeps.refl.writeReg (·.paceCfgFx))
theorem Keeps.paceCmdFx {v} (h : Keeps k s t) : Keeps k s (Machine.paceCmdFx v t) := .iteThen (.iteThen h (·.setReg)) (·.put.setReg)
theorem Ends.paceClearBeat {q v} : Ends k s (execPaceClearBeat q v s) := .finish (Keeps.refl.writeReg (·.paceCmdFx))
theorem Keeps.paceThreshFx {v} (h : Keeps k s t) : Keeps k s (Machine.paceThreshFx v t) := .iteThen h.put.put (·.warn)
theorem Keeps.paceExpFx {v} (h : Keeps k s t) : Keeps k s (Machine.paceExpFx v t) := h.store.put.put.applyManual

theorem Keeps.pdDo {f : State → State} (h : Keeps k s t) (hf : ∀ {u}, Keeps k s u → Keeps k s (f u)) : Keeps k s (t.pdDo f) :=
  .iteThen h hf
theorem Keeps.feedChange {n valid mv} (h : Keeps false s t) : Keeps false s (t.feedChange n valid mv) :=
  h.beside.pdDo (fun hu => .ite (.feedShow (.iteThen hu (·.pdRaise))) (.feedsChanged (.iteThen hu (·.pdRaise))))
theorem Ends.feedChange {n valid mv} : Ends false s (execFeedChange n valid mv s) := .finish Keeps.refl.feedChange
theorem Keeps.presenceChange {n low} (h : Keeps false s t) : Keeps false s (t.presenceChange n low) :=
  h.beside.pdDo (fun hu => .iteElse hu (·.feedsChanged))
theorem Ends.presenceChange {n low} : Ends false s (execPresenceChange n low s) := .finish Keeps.refl.presenceChange
theorem Ends.oringFault {n} : Ends false s (execOringFault n s) := .finish (Keeps.refl.pdDo (·.hsFault.pdEvent))
theorem Ends.overvoltage : Ends false s (execOvervoltage s) := .finish (Keeps.refl.pdDo (fun hu => .iteElse hu.beside.hsFault (·.hsGo)))
theorem Ends.overvoltageEnd : Ends false s (execOvervoltageEnd s) :=
  .finish (Keeps.refl.pdDo (fun hu => .iteThen hu (fun hv => .iteThen hv.beside (·.hsGo))))
theorem Ends.debounceEnd : Ends false s (execDebounceEnd s) := .finish (Keeps.refl.pdDo (fun hu => .iteThen hu (·.beside.hsAdvance)))
theorem Ends.rampStart : Ends false s (execRampStart s) := .finish (Keeps.refl.pdDo (fun hu => .iteThen hu (·.hsGo.pdEvent)))
theorem Ends.fetShort : Ends false s (execFetShort s) := .finish (Keeps.refl.pdDo (fun hu => .iteThen hu (·.pdEvent.hsLatch)))
theorem Ends.enhancementBegin : Ends k s (execEnhancementBegin s) := .finish (Keeps.refl.pdDo (fun hu => .iteThen hu (·.beside)))
theorem Ends.gateEnhanced : Ends false s (execGateEnhanced s) := .finish (Keeps.refl.pdDo (fun hu => .iteThen hu (·.hsGo)))
theorem Ends.gateNoRise : Ends false s (execGateNoRise s) := .finish (Keeps.refl.pdDo (fun hu => .iteThen hu (·.hsTrip)))
theorem Ends.limitOnset : Ends k s (execLimitOnset s) := .finish (Keeps.refl.pdDo (fun hu => .iteThen hu (·.beside.pdPut)))
theorem Ends.limitEnd : Ends k s (execLimitEnd s) := .finish (Keeps.refl.pdDo (·.pdPut))
theorem Ends.limitClear : Ends k s (execLimitClear s) := .finish (Keeps.refl.pdDo (fun hu => .iteElse hu (·.beside)))
theorem Ends.hotswapTrip : Ends false s (execHotswapTrip s) := .finish (Keeps.refl.pdDo (fun hu => .iteThen hu (·.hsTrip)))
theorem Ends.pgoodRelease : Ends false s (execPgoodRelease s) := .finish (Keeps.refl.pdDo (fun hu => .iteThen hu (·.hsGo)))
theorem Ends.pgoodLow : Ends false s (execPgoodLow s) := .finish (Keeps.refl.pdDo (fun hu => .iteThen hu (·.hsGo)))
theorem Ends.cooldownEnd : Ends false s (execCooldownEnd s) :=
  .finish (Keeps.refl.pdDo (fun hu => .iteThen hu (fun hv => .ite hv.pdPut.hsGo hv.pdPut.hsGo.hsAdvance)))
theorem Ends.retryClear : Ends k s (execRetryClear s) := .finish (Keeps.refl.pdDo (fun hu => .iteThen hu (·.beside.pdPut)))
theorem Ends.clearRetries {q v} : Ends k s (execClearRetries q v s) := .finish (Keeps.refl.writeReg id)
theorem Ends.pdOtpProgram {q v} : Ends k s (execPdOtpProgram q v s) := .finish (Keeps.refl.writeReg id)
theorem Ends.pdDioSet {q g v} : Ends k s (execPdDioSet q g v s) := .finish (Keeps.refl.writeReg id)
theorem Ends.pdDioClr {q g v} : Ends k s (execPdDioClr q g v s) := .finish (Keeps.refl.writeReg id)
theorem Ends.pdDioOutWrite {q g v} : Ends k s (execPdDioOutWrite q g v s) := .finish (Keeps.refl.writeReg id)
theorem Keeps.otpProg {v} (h : Keeps k s t) : Keeps k s (Machine.otpProg v t) := .iteElse h (fun hu => .ite hu.warn hu.beside.pdPut)
theorem Keeps.hsExpWrite {v} (h : Keeps k s t) : Keeps k s (Machine.hsExpWrite v t) := .ite h.warn h.pdSet.feedShow

theorem Keeps.pdWrite {a v} (h : Keeps k s t) : Keeps k s (t.pdWrite a v) :=
  .ite (.iteThen h (·.pdSet)) (.ite h.pdSet (.ite (.iteThen h (·.pdPut)) (.ite h.hsExpWrite
    (.ite h.otpProg (.ite h.outWrite (.ite h.outWrite (.ite h.outWrite (.iteThen h (·.pdSet)))))))))

theorem Keeps.bankOk {c ok} (h : Keeps k s t) : Keeps k s (t.bankOk c ok) := h.put.pinsSeen
theorem Keeps.supBelow {bit b} (h : Keeps k s t) : Keeps k s (t.supBelow bit b) := h.pdSet
theorem Ends.supplyBelowWarning {n} : Ends k s (execSupplyBelowWarning n s) :=
  .finish (Keeps.refl.pdDo (fun hu => .iteThen hu (fun hv => .iteThen hv.supBelow (·.bankOk))))
theorem Keeps.supplyDip {n low us} (h : Keeps false s t) : Keeps false s (t.supplyDip n low us) :=
  .iteElse h (·.supBelow.pdOr.pdSet.pdInc.pdEvent.pdRaise.pdIrq)
theorem Ends.supplyDip {n low us} : Ends false s (execSupplyDip n low us s) := .finish (Keeps.refl.pdDo (·.supplyDip))
theorem Ends.brownout {n} : Ends false s (execBrownout n s) :=
  .finish (Keeps.refl.pdDo (fun hu => .iteThen hu (·.resetCause.pdOr.pdEvent.supBelow.irq)))
theorem Ends.viofResetLevel {c} : Ends false s (execViofResetLevel c s) :=
  .finish (Keeps.refl.pdDo (fun hu => .iteThen hu (·.supBelow.supBelow.bankOk.pdEvent.pdRaise.pdIrq)))
theorem Ends.bankSupplyOk {c} : Ends k s (execBankSupplyOk c s) := .finish (Keeps.refl.pdDo (fun hu => .iteThen hu (·.supBelow.supBelow.bankOk)))

theorem Ends.pdWriteResend : Ends k s (execPdWriteResend s) :=
  .finish <| by
    split
    · exact .iteElse Keeps.refl (·.emit)
    · exact Keeps.refl

theorem Keeps.mirrorCompare (h : Keeps k s t) : Keeps k s t.mirrorCompare := h.foldl (·.setReg.inc.irq.raise)
theorem Ends.mirrorCompare {upset} : Ends k s (execMirrorCompare upset s) :=
  .finish (.iteThen Keeps.refl (fun hu => (hu.foldl (fun hv => .iteThen hv (·.setReg))).mirrorCompare))

theorem Keeps.refreshIrqs {old : State} (h : Keeps k s t) : Keeps k s (old.refreshIrqs t) :=
  .iteThen (.foldl (.iteThen (.iteThen (.iteThen (.iteThen (.iteThen h (·.irq)) (·.irq)) (·.irq)) (·.irq)) (·.irq))
    (fun hu => .iteThen (.iteThen hu (·.irq)) (·.irq))) (·.irq)

theorem Keeps.dieLinkUp (h : Keeps false s t) : Keeps false s t.dieLinkUp :=
  .iteThen ((h.put.put.beside.pdRefresh.refreshIrqs.foldl (·.stage)).pdPut.foldl (·.raise)) (·.irq.pdEvent)
theorem Ends.dieLinkRestored : Ends false s (execDieLinkRestored s) := .finish (.iteThen Keeps.refl (·.dieLinkUp))
theorem Keeps.dieLinkPush {crcError words} (h : Keeps k s t) : Keeps k s (t.dieLinkPush crcError words) :=
  .iteElse h (fun hu => .ite (.iteThen hu.incSat.beside (·.raise)) (hu.foldl (fun hv => .iteThen hv (·.pdSet))))
theorem Ends.dieLinkPush {crcError words} : Ends k s (execDieLinkPush crcError words s) := .finish (Keeps.refl.pdDo (·.dieLinkPush))
theorem Ends.pdTemperatureHigh : Ends k s (execPdTemperatureHigh s) := .finish (Keeps.refl.pdDo (·.pdRaise))
theorem Keeps.diEdge {n level} (h : Keeps false s t) : Keeps false s (t.diEdge n level) :=
  .iteElse h (fun hu => .iteThen (.iteThen hu.pdSet.pdOr.pdIrq (fun hv => .iteThen hv.pdInc (·.diRecord))) (·.wakeBy))
theorem Ends.diEdge {n level} : Ends false s (execDiEdge n level s) := .finish (Keeps.refl.pdDo (·.diEdge))
theorem Keeps.doShort {n overtemp} (h : Keeps false s t) : Keeps false s (t.doShort n overtemp) :=
  .iteElse h (·.beside.pdOr.pdIrq.outShow.pdEvent.pdRaise)
theorem Ends.doShort {n overtemp} : Ends false s (execDoShort n overtemp s) := .finish (Keeps.refl.pdDo (·.doShort))
theorem Keeps.doOpenLoad {n} (h : Keeps false s t) : Keeps false s (t.doOpenLoad n) := .iteThen h (·.pdOr.pdIrq.pdEvent.pdRaise)
theorem Ends.doOpenLoad {n} : Ends false s (execDoOpenLoad n s) := .finish (Keeps.refl.pdDo (·.doOpenLoad))
theorem Keeps.doTimed {u' g i} (h : Keeps k s t) : Keeps k s (t.doTimed u' g i) :=
  .iteElse h (fun hu => .ite hu.pdPut.pdIrq.pdRaise hu.pdPut.pdIrq.pdSet.outShow)
theorem Keeps.doTimedAll {u'} (h : Keeps k s t) : Keeps k s (t.doTimedAll u') := h.pdDo (·.foldl (·.doTimed))
theorem Ends.doTimedFire {u'} : Ends k s (execDoTimedFire u' s) := .finish (Keeps.refl.takeTrig (·.doTimedAll))
theorem Keeps.powerDieReset {on} (h : Keeps false s t) : Keeps false s (t.powerDieReset on) :=
  .iteThen h.pinsOff.lose.beside.recordCauses.pdReset (·.pdStart)
theorem Ends.holdcapLow : Ends false s (execHoldcapLow s) := .finish (Keeps.refl.pdDo (fun hu => .iteElse hu (·.powerDieReset)))
theorem Ends.powerDieReset : Ends false s (execPowerDieReset s) := .finish Keeps.refl.powerDieReset

theorem Keeps.pollCountFx {v} (h : Keeps k s t) : Keeps k s (Machine.pollCountFx v t) := h.store
theorem Keeps.pollEvent {route item} (h : Keeps k s t) : Keeps k s (t.pollEvent route item) := .ite h.incSat.irq.raise h.beside.irq
theorem Keeps.pollMiss {i st} (h : Keeps false s t) : Keeps false s (t.pollMiss i st) := .pollEvent (.iteThen h.inc.setWord (·.raise))
theorem Keeps.pollSend {i} (h : Keeps false s t) : Keeps false s (t.pollSend i) := .ite h.step1.pollMiss h.step1.beside.inc.present

theorem Keeps.pollDue {c} (h : Keeps false s t) : Keeps false s (t.pollDue c) :=
  .iteElse h (fun hu => by
    dsimp only
    split
    · exact .iteThen (hu.foldl (fun hv => .ite hv.inc hv.beside)) (·.beside.pollSend)
    · exact (hu.foldl (fun hv => .ite hv.inc hv.beside)).beside)

theorem Keeps.pollAnswer {f} (h : Keeps false s t) : Keeps false s (t.pollAnswer f) :=
  .iteElse h.raise (fun hu => by
    dsimp only
    split
    · exact .ite h hu
    · exact .ite h.beside.pollMiss (.iteElse h.beside.setWord (·.setWord.pollEvent)))

theorem Keeps.pollResponse (h : Keeps false s t) : Keeps false s t.pollResponse := by
  unfold State.pollResponse
  split
  · exact h
  · exact .iteElse h.setOutbox (·.pollAnswer)

theorem Keeps.pollTimeout {i} (h : Keeps false s t) : Keeps false s (t.pollTimeout i) := by
  unfold State.pollTimeout
  split
  · exact h
  · exact .iteThen h.step1.beside (·.pollMiss)

theorem Keeps.pollEvtPop {r} (h : Keeps k s t) (e : Machine.pollEvtPop t = some r) : Keeps k s r.2 := by
  unfold Machine.pollEvtPop at e
  split at e
  · exact nomatch e
  · exact Option.some.inj e ▸ .setReg (.setReg (.setReg (h.beside)))

theorem Ends.pollDue {c} : Ends false s (execPollDue c s) := .finish Keeps.refl.pollDue
theorem Ends.pollResponse : Ends false s (execPollResponse s) := .finish Keeps.refl.pollResponse
theorem Ends.pollMiss {i} : Ends false s (execPollMiss i s) := .finish Keeps.refl.pollTimeout
theorem Ends.pollEvtPop {q mayPrefetch wide} : Ends k s (execPollEvtPop q mayPrefetch wide s) :=
  .finish (Keeps.refl.popRead (fun hu e => hu.pollEvtPop e))

theorem Keeps.whileOff {p} {f : State → State} (h : Keeps k s t) (hf : ∀ {u}, Keeps k s u → Keeps k s (f u)) : Keeps k s (t.whileOff p f) :=
  .ite h.warn (hf h)
theorem Keeps.uartCfgFx {n v} (h : Keeps k s t) : Keeps k s (Machine.uartCfgFx n v t) := h.whileOff (fun hu => .iteThen hu.store (·.warn))
theorem Keeps.uartBaudFx {n v} (h : Keeps k s t) : Keeps k s (Machine.uartBaudFx n v t) := h.whileOff (·.store)
theorem Keeps.unitPlainFx {p a v} (h : Keeps k s t) : Keeps k s (Machine.unitPlainFx p a v t) := h.whileOff (·.store)
theorem Keeps.uartBrkFx {n v} (h : Keeps k s t) : Keeps k s (Machine.uartBrkFx n v t) := h.store
theorem Keeps.spiCfgFx {n v} (h : Keeps k s t) : Keeps k s (Machine.spiCfgFx n v t) := h.whileOff (·.store)
theorem Keeps.iicCfgFx {n v} (h : Keeps k s t) : Keeps k s (Machine.iicCfgFx n v t) := h.whileOff (fun hu => .iteThen hu.store (·.warn))
theorem Keeps.iicSclFx {n v} (h : Keeps k s t) : Keeps k s (Machine.iicSclFx n v t) := h.whileOff (·.store)
theorem Keeps.uartPut {n data par frame brk addr} (h : Keeps k s t) : Keeps k s (t.uartPut n data par frame brk addr) := h.setUnit.unitItem
theorem Keeps.uartErr {n cnt on} (h : Keeps k s t) : Keeps k s (t.uartErr n cnt on) := .iteThen h (fun hu => .iteThen hu.inc.irq (·.unitFault))
theorem Keeps.uartKeep {n} {put : State → State} (h : Keeps k s t) (hput : ∀ {u}, Keeps k s u → Keeps k s (put u)) : Keeps k s (t.uartKeep n put) :=
  .ite h.inc.irq.unitFault.setUnit (hput h)

theorem Keeps.uartRx {n data addr par stop} (h : Keeps k s t) : Keeps k s (t.uartRx n data addr par stop) :=
  .iteElse h (fun hu => .ite (hu.inc.inc.irq.setUnit.uartKeep (·.uartPut)).unitRelease (have hs1 := hu.inc.setUnit.uartErr.uartErr; .ite
    (.inc (.iteThen (.iteThen hs1 (·.unitRelease.setUnit)) (·.irq))) (.uartKeep (.iteThen (.iteThen hs1 (·.unitRelease.setUnit)) (·.irq))
    (·.uartPut))))

theorem Ends.uartRxChar {n data addr par stop} : Ends k s (execUartRxChar n data addr par stop s) := .finish (Keeps.refl.onField (·.uartRx))
theorem Keeps.uartIdle {n} (h : Keeps k s t) : Keeps k s (t.uartIdle n) := .iteThen h (·.unitRelease)
theorem Ends.uartIdleEnd {n} : Ends k s (execUartIdleEnd n s) := .finish (Keeps.refl.onField (·.uartIdle))
theorem Keeps.uartTx {n} (h : Keeps k s t) : Keeps k s (t.uartTx n) := .iteElse h (fun hu => (hu.fqTake rfl).setUnit.inc.emit)
theorem Ends.uartTxChar {n} : Ends k s (execUartTxChar n s) := .finish (Keeps.refl.onField (·.uartTx))
theorem Keeps.uartRelease {n} (h : Keeps k s t) : Keeps k s (t.uartRelease n) := .iteThen h (fun hu => .iteThen hu.setUnit (·.irq))
theorem Ends.uartDeRelease {n} : Ends k s (execUartDeRelease n s) := .finish (Keeps.refl.onField (·.uartRelease))
theorem Keeps.uartCmdFx {n v} (h : Keeps k s t) : Keeps k s (Machine.uartCmdFx n v t) := .iteThen h (·.setUnit.emit)
theorem Ends.uartSendBreak {q n v} : Ends k s (execUartSendBreak q n v s) := .finish (Keeps.refl.writeReg (·.uartCmdFx))
theorem Keeps.spiEnd {n} (h : Keeps k s t) : Keeps k s (t.spiEnd n) := h.setUnit.inc.irq
theorem Keeps.spiShift {n send miso last} (h : Keeps k s t) : Keeps k s (t.spiShift n send miso last) :=
  .iteThen (.iteThen h.setUnit.emit.inc (·.fqProduce)) (·.spiEnd)
theorem Keeps.spiFrame {n miso} (h : Keeps k s t) : Keeps k s (t.spiFrame n miso) :=
  .iteElse h (fun hu => .ite (.ite hu.setUnit (.iteThen hu.setUnit.spiShift (·.irq))) (.ite hu.setUnit (hu.fqTake rfl).setUnit.spiShift))
theorem Ends.spiFrame {n miso} : Ends k s (execSpiFrame n miso s) := .finish (Keeps.refl.onField (·.spiFrame))
theorem Keeps.spiCmdFx {n v} (h : Keeps k s t) : Keeps k s (Machine.spiCmdFx n v t) := .ite h.warn (.iteElse h (·.setUnit))
theorem Ends.spiCount {q n v} : Ends k s (execSpiCount q n v s) := .finish (Keeps.refl.writeReg (·.spiCmdFx))

theorem Keeps.spiTarget {n mosi} (h : Keeps k s t) : Keeps k s (t.spiTarget n mosi) :=
  .iteElse h (fun hu => .iteElse (.inc (.emit (.iteThen (hu.fqTake rfl).setUnit (·.inc.irq.unitFault)))) (fun hv => .ite hv.inc.irq.unitFault
    hv.unitItem))

theorem Ends.spiTargetFrame {n mosi} : Ends k s (execSpiTargetFrame n mosi s) := .finish (Keeps.refl.onField (·.spiTarget))
theorem Keeps.spiRelease {n part} (h : Keeps k s t) : Keeps k s (t.spiRelease n part) :=
  .iteElse h (fun hu => .iteThen (.iteThen hu (·.inc)) (·.unitRelease.setUnit.inc.irq))
theorem Ends.spiCsRelease {n part} : Ends k s (execSpiCsRelease n part s) := .finish (Keeps.refl.onField (·.spiRelease))
theorem Keeps.iicStop {n} (h : Keeps k s t) : Keeps k s (t.iicStop n) := .iteThen h (·.setUnit.emit)

theorem Keeps.iicEnd {n status more} (h : Keeps k s t) : Keeps k s (t.iicEnd n status more) :=
  .irq (.setUnit (.fqProduce (.ite (.setUnit (.iteThen (.ite h.inc.irq (.ite h.inc.irq (.ite h.inc.irq (.iteThen h (·.irq))))) (·.unitFault)))
    (.iteElse (.iteThen (.ite h.inc.irq (.ite h.inc.irq (.ite h.inc.irq (.iteThen h (·.irq))))) (·.unitFault)) (·.iicStop)))))

theorem Keeps.iicCommand {n b data} (h : Keeps k s t) : Keeps k s (t.iicCommand n b data) :=
  .iteElse h (fun hu => .ite (.iteThen (hu.fqTake rfl).inc (·.setUnit)) (have hs1 := (hu.fqTake rfl).setUnit; .ite hs1.iicEnd
    (.ite (.iicEnd (.ite hs1.setUnit.emit (.ite hs1.emit (.iteThen hs1 (·.emit)))))
    (.ite (.iicEnd (.ite hs1.setUnit.emit (.ite hs1.emit (.iteThen hs1 (·.emit)))))
    (.ite (.iicEnd (.ite hs1.setUnit.emit (.ite hs1.emit (.iteThen hs1 (·.emit)))))
    (.ite (.iicEnd (.ite hs1.setUnit.emit (.ite hs1.emit (.iteThen hs1 (·.emit)))))
    (.iteThen (.ite (.fqProduce (.ite hs1.setUnit.emit (.ite hs1.emit (.iteThen hs1 (·.emit)))))
    (.iteThen (.ite hs1.setUnit.emit (.ite hs1.emit (.iteThen hs1 (·.emit)))) (·.iicStop))) (·.iicEnd))))))))

theorem Ends.i2cCommand {n b data} : Ends k s (execI2cCommand n b data s) := .finish (Keeps.refl.onField (·.iicCommand))
theorem Keeps.iicTimeout {n} (h : Keeps k s t) : Keeps k s (t.iicTimeout n) := .iteElse h (fun hu => .ite hu.inc.iicEnd hu.inc.irq)
theorem Ends.i2cSclTimeout {n} : Ends k s (execI2cSclTimeout n s) := .finish (Keeps.refl.onField (·.iicTimeout))
theorem Keeps.iicCmdFx {n v} (h : Keeps k s t) : Keeps k s (Machine.iicCmdFx n v t) :=
  .iteThen (.iteThen h (fun hu => .iteElse hu.emit (·.inc.irq.unitFault))) (·.iicStop)
theorem Ends.i2cBusClear {q n v} : Ends k s (execI2cBusClear q n v s) := .finish (Keeps.refl.writeReg (·.iicCmdFx))
theorem Ends.i2cRelease {q n v} : Ends k s (execI2cRelease q n v s) := .finish (Keeps.refl.writeReg (·.iicCmdFx))
theorem Keeps.iicSend {n limit} (h : Keeps k s t) : Keeps k s (t.iicSend n limit) :=
  .ite (h.fqTake rfl).setUnit.emit (.ite h.setUnit.inc.unitFault.emit h.setUnit)

theorem Keeps.iicTake {n item limit r} (h : Keeps k s t) (e : t.iicTake n item limit = r) : Keeps k s r.2 := by
  subst e
  exact .iteSnd h.setUnit.unitItem.emit (.iteSnd h.setUnit.inc.unitFault.emit h.setUnit)

theorem Keeps.iicTarget {n e'} (h : Keeps k s t) : Keeps k s (t.iicTarget n e') :=
  .iteElse h (fun hu => by
    dsimp only
    split
    · exact .ite hu.setUnit (.iteElse (hu.iicTake rfl) (fun hv => .iteThen hv.setUnit.irq (·.iicSend)))
    · exact .iteThen hu (·.iicTake rfl)
    · exact .iteThen hu (·.iicSend))

theorem Ends.i2cTargetByte {n e'} : Ends k s (execI2cTargetByte n e' s) := .finish (Keeps.refl.onField (·.iicTarget))
theorem Keeps.iicLimit {n} (h : Keeps k s t) : Keeps k s (t.iicLimit n) := .ite h.setUnit.inc.unitFault.emit (.iteThen h (·.iicSend))
theorem Ends.i2cStretchLimit {n} : Ends k s (execI2cStretchLimit n s) := .finish (Keeps.refl.onField (·.iicLimit))
theorem Keeps.iicTargetStop {n} (h : Keeps k s t) : Keeps k s (t.iicTargetStop n) := .iteThen h.unitRelease.setUnit (·.irq)
theorem Ends.i2cTargetStop {n} : Ends k s (execI2cTargetStop n s) := .finish (.iteThen Keeps.refl (·.iicTargetStop))

end Sys2Proof.Machine
end

section
/-! PROOF. What operations keep: timetable and translation commands, register and memory accesses of a requester. -/
namespace Sys2Proof.Machine

variable {k : Bool} {s t u : State}

theorem Keeps.ttbCmdFx {v} (h : Keeps false s t) : Keeps false s (Machine.ttbCmdFx v t) := h.foldl (fun hu => .iteThen hu (·.distribute))
theorem Ends.ttbDistribute {q v} : Ends false s (execTtbDistribute q v s) := .finish (Keeps.refl.writeReg (·.ttbCmdFx))

theorem Keeps.takeInbox {x code} (h : Keeps k s t) : Keeps k s (t.takeInbox x code) := by
  unfold State.takeInbox
  dsimp only
  split
  · exact h
  · exact h.setRc

theorem Ends.tableReceived {x id n stations effect no count crc data} : Ends false s (execTableReceived x id n stations effect no count crc data s) :=
  .finish Keeps.refl.takeInbox.tableFragment
theorem Ends.tableEffect {x} : Ends false s (execTableEffect x s) := .finish (.iteThen Keeps.refl (·.tableEffect))
theorem Keeps.setStore {x p l} (h : Keeps k s t) : Keeps k s (t.setStore x p l) := h.setTtb

theorem Keeps.class0Store {o} (h : Keeps false s t) : Keeps false s (t.class0Store o) := by
  unfold State.class0Store
  split
  · exact h
  · exact .ite h.setOutbox.discardCells (.ite h.setOutbox.inc (.ite h.setOutbox.inc.cntCtx h.setOutbox.setStore))

theorem Ends.class0Store {o} : Ends false s (execClass0Store o s) := .finish Keeps.refl.class0Store

theorem Keeps.sendQuiet {x p slot} (h : Keeps k s t) : Keeps k s (t.sendQuiet x p slot) := by
  unfold State.sendQuiet
  split
  · exact h.emit
  · exact h

theorem Keeps.pickLocal {x p slot r} (h : Keeps k s t) (e : t.pickLocal x p slot = r) : Keeps k s r.2 := by
  subst e
  exact .iteSnd h (by
    dsimp only
    split
    · exact h
    · exact h.setPort)

theorem Keeps.pick {x p slot r} (h : Keeps k s t) (e : t.pick x p slot = r) : Keeps k s r.2 := by
  subst e
  unfold State.pick
  dsimp only
  split
  · split
    · exact h.setStore
    · exact h.inc
  · split
    · exact .iteSnd h.setPort.showTransit h
    · exact h.pickLocal rfl

theorem Keeps.startSlot {x p slot sub e'} (h : Keeps k s t) : Keeps k s (t.startSlot x p slot sub e') :=
  .ite (.startFrame (.iteThen (.iteThen h (·.inc)) (·.setPort))) h.wrap.sendQuiet
theorem Keeps.noteSlot {x p slot} (h : Keeps k s t) : Keeps k s (t.noteSlot x p slot) := .iteThen h.setPort (·.beside)

theorem Keeps.swapDue {x slot} (h : Keeps false s t) : Keeps false s (t.swapDue x slot) := by
  unfold State.swapDue
  split
  · exact .iteThen h (·.activate)
  · exact h

theorem Keeps.slotFill {x p slot sub} (h : Keeps false s t) : Keeps false s (t.slotFill x p slot sub) :=
  have hs0 := h.noteSlot.swapDue
  .ite hs0.sendQuiet (.ite hs0.setPort.emit (by
    dsimp only
    split
    · exact (hs0.pick rfl).startSlot
    · exact (hs0.pick rfl).sendQuiet))

theorem Ends.slotFill {x p slot sub} : Ends false s (execSlotFill x p slot sub s) := .finish Keeps.refl.slotFill
theorem Keeps.ttWrite {v} (h : Keeps k s t) : Keeps k s (t.ttWrite v) := .ite h.setTtBytes h.warn
theorem Keeps.ttAdvance (h : Keeps k s t) : Keeps k s t.ttAdvance := h.setReg
theorem Keeps.ttbMemDataFx {v} (h : Keeps k s t) : Keeps k s (Machine.ttbMemDataFx v t) := h.ttWrite
theorem Keeps.ttbMemIncFx {v} (h : Keeps k s t) : Keeps k s (Machine.ttbMemIncFx v t) := h.ttWrite.ttAdvance

theorem Keeps.ttbMemIncRead {r} (h : Keeps k s t) (e : Machine.ttbMemIncRead t = r) : Keeps k s r.2 := by
  subst e
  exact h.ttAdvance

theorem Ends.ttbMemData {q v} : Ends k s (execTtbMemData q v s) := .finish (Keeps.refl.writeReg (·.ttbMemDataFx))

theorem Ends.ttbMemDataInc {q w mayPrefetch} : Ends k s (execTtbMemDataInc q w mayPrefetch s) :=
  .finish <| by
    split
    · exact Keeps.refl.writeReg (·.ttbMemIncFx)
    · exact Keeps.refl.rowRead (·.ttbMemIncRead rfl)

theorem Keeps.ttbSwapFx {v} (h : Keeps k s t) : Keeps k s (Machine.ttbSwapFx v t) := .iteThen h (·.foldl (fun hv => .iteThen hv (·.setTtb)))
theorem Ends.ttbExpSwap {q v} : Ends k s (execTtbExpSwap q v s) := .finish (Keeps.refl.writeReg (·.ttbSwapFx))

theorem Keeps.ttbLogPop {r} (h : Keeps k s t) (e : Machine.ttbLogPop t = some r) : Keeps k s r.2 := by
  unfold Machine.ttbLogPop at e
  split at e
  · exact nomatch e
  · exact Option.some.inj e ▸ .setReg (h.beside)

theorem Ends.ttbLogPop {q mayPrefetch} : Ends k s (execTtbLogPop q mayPrefetch s) := .finish (Keeps.refl.popRead (fun hu e => hu.ttbLogPop e))
theorem Keeps.ttbCfgFx {v} (h : Keeps k s t) : Keeps k s (Machine.ttbCfgFx v t) := .iteThen h.store (·.put.warn)

theorem Keeps.setLevel {h' f v} (h : Keeps k s t) : Keeps k s (t.setLevel h' f v) := .ite h.warn h.put
theorem Keeps.xltLevelFx {v} (h : Keeps k s t) : Keeps k s (Machine.xltLevelFx v t) := h.setLevel.setLevel
theorem Ends.levelWrite {q v} : Ends k s (execLevelWrite q v s) := .finish (Keeps.refl.writeReg (·.xltLevelFx))
theorem Keeps.xltTableFx {a v} (h : Keeps k s t) : Keeps k s (Machine.xltTableFx a v t) := .iteThen h.store (·.warn)

theorem Keeps.xltBarrierFx {c v r} (h : Keeps k s t) (e : Machine.xltBarrierFx c v t = r) : Keeps k s r.2 := by
  subst e
  exact h.beside.put

theorem Ends.barrier {q v} : Ends k s (execBarrier q v s) := .finish (Keeps.refl.regWriteHold (·.xltBarrierFx rfl) rfl).answered
theorem Keeps.barrierSlow (h : Keeps k s t) : Keeps k s t.barrierSlow := .iteElse h (·.put.irq.raise)
theorem Ends.barrierSlow : Ends k s (execBarrierSlow s) := .finish Keeps.refl.barrierSlow
theorem Keeps.xltFcapFx {v} (h : Keeps k s t) : Keeps k s (Machine.xltFcapFx v t) := .iteThen h (·.setReg.setReg.setReg)
theorem Ends.xltFcapCmd {q v} : Ends k s (execXltFcapCmd q v s) := .finish (Keeps.refl.writeReg (·.xltFcapFx))

theorem Keeps.xspiCfgFx {cs v} (h : Keeps k s t) : Keeps k s (Machine.xspiCfgFx cs v t) := h.store
theorem Keeps.rgaExpFx {r' v} (h : Keeps k s t) : Keeps k s (Machine.rgaExpFx r' v t) := .iteThen h.store (·.warn)
theorem Keeps.clkGateFx {q v} (h : Keeps k s t) : Keeps k s (Machine.clkGateFx q v t) := .ite h.warn h.store

theorem Keeps.globalFx {q a v} (h : Keeps false s t) : Keeps false s (Machine.globalFx q a v t) :=
  .ite h.chipCmdFx (.ite h.rstCmdFx (.ite h.wdtCfgFx (.ite h.wdtKickFx (.ite h.pwrCmdFx
    (.ite h.wakeEnFx (.ite h.clkGateFx (.ite h.fltAckFx (.ite h.fltCapClrFx (.ite h.semCmdFx
    (.ite h.hbFx (.ite h.hbFx (.ite h.hbCfgFx (.ite h.hbCfgFx (.ite h.semForceFx (.ite h.claimClearFx
    (.ite h.ledgResumeFx (.ite h.ledgCmdFx h.store)))))))))))))))))

theorem Keeps.coreFx {a v} (h : Keeps false s t) : Keeps false s (Machine.coreFx a v t) :=
  .ite h.xltLevelFx (.ite h.xltTableFx (.ite h.xltFcapFx (.ite h.fabLimitFx (.ite h.fabOutcapFx
    (.ite h.fabOccCmdFx (.ite h.fabAimCmdFx (.ite h.fabTestStepFx (.ite h.paceCtrlFx
    (.ite h.paceCfgFx (.ite h.paceThreshFx (.ite h.paceCmdFx (.ite h.paceExpFx h.store))))))))))))

theorem Keeps.ringFx {a v} (h : Keeps false s t) : Keeps false s (Machine.ringFx a v t) :=
  .ite h.rctlCtrlFx (.ite h.rctlTimersFx (.ite h.rctlCmdFx (.ite h.store.rcStart.rcStart
    (.ite h.setReg (.ite h.rgaExpFx (.ite h.modAccFx (.ite h.portCtrlFx (.ite h.portPadFx (.ite h.portCmdFx h.store)))))))))

theorem Keeps.planeFx {q a v} (h : Keeps false s t) : Keeps false s (Machine.planeFx q a v t) :=
  .ite h.flowCtrlFx (.ite h.flowCfgFx (.ite h.flowBackFx (.ite h.flowBackSizeFx (.ite h.flowArgFx
    (.ite h.flowCmdFx (.ite h.flowViewFx (.ite h.flowPfCmdFx (.ite h.flowSysCfgFx (.ite h.ttbCfgFx
    (.ite h.ttbCmdFx (.ite h.ttbMemDataFx (.ite h.ttbMemIncFx (.ite h.ttbSwapFx (.ite h.tsuCmdFx
    (.ite h.tsuArmFx (.ite h.tsuEvtFx (.ite h.tbCfgFx (.ite h.tbCmdFx (.ite h.tbSessionFx
    (.ite h.tbRateHiFx (.ite h.tbExpFx h.store)))))))))))))))))))))

theorem Keeps.cipherFx {q a v} (h : Keeps false s t) : Keeps false s (Machine.cipherFx q a v t) :=
  .ite h.ciphMmFx (.ite h.ciphKatFx (.ite h.jrCmdFx (.ite h.jrCfgFx (.ite h.jrTailFx
    (.ite h.keyCmdFx (.ite h.keyCommitFx (.ite h.setReg (.ite h.keyCtrFx (.ite h.keyCtrLockFx h.store)))))))))

theorem Keeps.dmaFx {q a v} (h : Keeps false s t) : Keeps false s (Machine.dmaFx q a v t) :=
  .ite h.dmaaFreeFx (.ite h.dmaCmdFx (.ite h.rxCfgFx (.ite h.rxRingFx (.ite h.rxTailFx
    (.ite h.rsvCfgFx (.ite h.rsvPushFx (.ite h.dmaExpFx h.store)))))))

theorem Keeps.hostFx {a v} (h : Keeps k s t) : Keeps k s (Machine.hostFx a v t) :=
  .ite h.pollCountFx (.iteElse h.store (fun hu => .ite h.hbRetryFx (.ite h.hbPostedFx
    (.ite h.winBaseFx (.ite h.winAttrFx (.ite h.msixCtrlFx (.ite h.fenceReqFx (.ite h.pweClrFx (.ite h.winResumeFx hu)))))))))

theorem Keeps.unitFx {a v} (h : Keeps k s t) : Keeps k s (Machine.unitFx a v t) :=
  .ite (.ite h.macCfgFx (.ite h.macExpFx (.ite h.mdioFx (.ite h.cntCmdFx h.store))))
    (.ite (.ite h.uartCfgFx (.ite h.uartBaudFx (.ite h.uartBrkFx (.ite h.uartCmdFx (.ite h.unitPlainFx h.store)))))
    (.ite (.ite h.canNbtFx (.ite h.canDbtFx (.ite h.canCmdFx (.ite h.canPlainFx h.store))))
    (.ite (.ite h.spiCfgFx (.ite h.spiCmdFx (.ite h.unitPlainFx h.store))) (.ite h.iicCfgFx
    (.ite h.iicSclFx (.ite h.iicCmdFx (.ite h.unitPlainFx h.store)))))))

theorem Keeps.cloveFx {q a v} (h : Keeps false s t) : Keeps false s (Machine.cloveFx q a v t) :=
  .ite h.clovCfgFx (.ite h.pmemFx (.ite h.pmemIncFx (.ite h.clovStartFx (.ite h.clovStopFx
    (.ite h.clovCmdFx (.ite h.clovSyncFx (.ite h.clovStepFx (.ite (.ite h.clovChCfgFx h.clovChFx)
    (.ite (.ite h.moverCfgFx (.ite h.moverTailFx (.ite h.moverTailFx h.clovChFx))) (.iteElse h (·.store)))))))))))

theorem Keeps.fieldFx {q a v} (h : Keeps false s t) : Keeps false s (Machine.fieldFx q a v t) :=
  .ite (.ite h.fwuCmdFx.step1 (.ite h.measExtFx (.ite h.xspiCfgFx (.ite h.xspiCfgFx
    (.ite h.aniHandoverFx (.ite h.mbDoorbellFx (.ite h.mbDoorbellFx (.ite h.mbAckFx h.store))))))))
    (.ite (.ite h.bankFx (.ite h.gpioSetFx (.ite h.gpioClrFx (.ite h.gpioPlainFx (.ite h.pinFx h.store)))))
    (.ite h.fqCfgFx (.ite h.fqBindFx (.ite h.fqPlainFx (.ite h.fqPlainFx (.ite h.fqPushFx (.ite h.fqCmdFx h.store)))))))

theorem Keeps.writeFx {q c a v r} (h : Keeps false s t) (e : Machine.writeFx q c a v t = r) : Keeps false s r.2 := by
  subst e
  exact .iteSnd h.headerFx (.iteSnd (h.xltBarrierFx rfl) (.ite h.globalFx (.ite h.coreFx
    (.ite h.ringFx (.ite h.planeFx (.ite h.cipherFx (.ite h.dmaFx (.ite h.hostFx (.ite h.unitFx (.ite h.cloveFx (.ite h.fieldFx h.store)))))))))))

theorem Keeps.regAccessW {q a v c r} (h : Keeps false s t) (e : t.regAccessW q a v c = r) : Keeps false s r.2 := by
  subst e
  exact .iteSnd (h.errnClr rfl) (h.regWriteHold (·.writeFx rfl) rfl)

theorem some_eq_or_of_ite {α : Type} {b : Prop} [Decidable b] {x y : α} {o : Option α} (h : (if b then some x else o) = some y) :
    x = y ∨ o = some y := by
  split at h
  · exact .inl (Option.some.inj h)
  · exact .inr h

theorem Keeps.pop64 {a pop r} (h : Keeps k s t) (hp : Machine.pop64 a = some pop) (e : pop t = some r) : Keeps k s r.2 := by
  obtain rfl | hp := some_eq_or_of_ite hp
  · exact h.fabTracePop e
  obtain rfl | hp := some_eq_or_of_ite hp
  · exact h.tsuCapPop e
  obtain rfl | hp := some_eq_or_of_ite hp
  · exact h.keyLogPop e
  obtain rfl | hp := some_eq_or_of_ite hp
  · exact h.pollEvtPop e
  obtain rfl | hp := some_eq_or_of_ite hp
  · exact h.rsvPop e
  obtain rfl | hp := some_eq_or_of_ite hp
  · exact h.macTxsPop e
  · exact nomatch hp

theorem Keeps.regFetch {q a r} (h : Keeps k s t) (e : Machine.regFetch q a t = r) : Keeps k s r.2 := by
  subst e
  unfold Machine.regFetch
  split
  next heq => exact .snd (h.popOr (·.pop64 heq) rfl)
  · exact .iteSnd (h.popOr (·.ttbLogPop) rfl) (.iteSnd (h.dmaaAlloc rfl) (.iteSnd (h.ttbMemIncRead rfl) (.iteSnd (h.fenceRead rfl)
      (.iteSnd (h.pmemRead rfl) (.iteSnd (h.pmemRead rfl).pmemNext (.iteSnd (h.popOr (·.fqPop) rfl) h))))))

theorem Keeps.regAccessR {q a mayPrefetch r} (h : Keeps k s t) (e : t.regAccessR q a mayPrefetch = r) : Keeps k s r.2.2 := by
  subst e
  exact h.readItem (·.regFetch rfl) rfl

theorem Keeps.readPage {q r' n mayPrefetch r} (h : Keeps k s t) (e : t.readPage q r' n mayPrefetch = r) : Keeps k s r.2.2 := by
  subst e
  refine .iteSndSnd (h.regAccessR rfl) ?_
  split
  next heq => exact h.readItem (·.popOr (·.pop64 heq) rfl) rfl
  · exact .iteSndSnd (h.regAccessR rfl) ((h.regAccessR rfl).regAccessR rfl)

theorem Keeps.readAccess {q a n mayPrefetch c r} (h : Keeps false s t) (e : t.readAccess q a n mayPrefetch c = r) : Keeps false s r.2.2 := by
  subst e
  exact .iteSndSnd (.iteSndSnd h (.iteSndSnd h.hold (h.readPage rfl))) (h.memReadReq rfl)

theorem Keeps.writeWide {q r' lo hi c r} (h : Keeps false s t) (e : t.writeWide q r' lo hi c = r) : Keeps false s r.2 := by
  subst e
  unfold State.writeWide
  split
  next heq => exact .iteSnd (h.checkWrite heq) ((h.checkWrite heq).regAccessW rfl)
  next heq =>
      split
      next heq1 => exact .iteSnd ((h.checkWrite heq).checkWrite heq1) (((h.checkWrite heq).checkWrite heq1).regEffect (·.writeFx rfl) rfl)
      next heq1 => exact (((h.checkWrite heq).checkWrite heq1).regEffect (·.writeFx rfl) rfl).regEffect (·.writeFx rfl) rfl

theorem Keeps.writeAccess {q a bs c r} (h : Keeps false s t) (e : t.writeAccess q a bs c = r) : Keeps false s r.2 := by
  subst e
  exact .iteSnd (.iteSnd h (.iteSnd (h.regAccessW rfl) (.iteSnd h.hold (h.writeWide rfl)))) (h.memWriteReq rfl)

end Sys2Proof.Machine
end

section
/-! PROOF. What operations keep: bridge commands, accesses that waited, DMA bursts, wake and the epoch, the TAP. -/
namespace Sys2Proof.Machine

variable {k : Bool} {s t u : State}

theorem Keeps.bufferPut {h' key a bs} (h : Keeps k s t) : Keeps k s (t.bufferPut h' key a bs) := h.setBr

theorem Keeps.plainRead {h' a n win c} (h : Keeps false s t) : Keeps false s (t.plainRead h' a n win c) := by
  unfold State.plainRead
  dsimp only
  split
  · exact (h.readAccess rfl).complete
  · exact h.readAccess rfl

theorem Keeps.readHere {h' a n win pf c} (h : Keeps false s t) : Keeps false s (t.readHere h' a n win pf c) :=
  .ite (by
    split
    · exact h.complete
    · exact
        have hr0 := h.readAccess rfl
        .ite hr0.bufferPut.complete (.ite hr0.inc.plainRead hr0.complete)) h.plainRead

theorem Keeps.serveLocal {h' a} (h : Keeps false s t) : Keeps false s (t.serveLocal h' a) := by
  unfold State.serveLocal
  split
  · exact h.readHere
  · dsimp only
    split
    · exact h.writeAccess rfl
    · exact (h.writeAccess rfl).complete
  · exact h.setBr.kickAtoms

theorem Keeps.localPump {n h'} (h : Keeps false s t) : Keeps false s (t.localPump n h') := by
  induction n generalizing t with
  | zero => exact h
  | succ n ih =>
    unfold State.localPump
    split
    · exact h
    · exact .ite h (ih h.setBr.serveLocal)

theorem Keeps.localIn {h' r'} (h : Keeps false s t) : Keeps false s (t.localIn h' r') := h.setBr.localPump
theorem Keeps.localTurn (h : Keeps false s t) : Keeps false s t.localTurn := h.localPump.localPump
theorem Keeps.hereRead {h' a n win pf c} (h : Keeps false s t) : Keeps false s (t.hereRead h' a n win pf c) := h.localIn

theorem Keeps.hostRead {h' node a n win cls pf c} (h : Keeps false s t) : Keeps false s (t.hostRead h' node a n win cls pf c) :=
  .ite h.hereRead (.ite h.step1.npBare.complete (by
    split
    · exact h.complete
    · exact .ite h.noRouteEvent.npBare.complete h.npQueue))

theorem Keeps.hereWrite {h' a bs win np c} (h : Keeps false s t) : Keeps false s (t.hereWrite h' a bs win np c) := h.localIn

theorem Keeps.hostWrite {h' node a bs win cls posted c} (h : Keeps false s t) : Keeps false s (t.hostWrite h' node a bs win cls posted c) :=
  .ite (.ite h.haltDrop h.npBare.complete) (.ite h.hereWrite (.ite (.ite h.noRouteEvent.pweBare h.postQueue)
    (.ite h.step1.npBare.complete (.ite h.noRouteEvent.npBare.complete h.npQueue))))

theorem Keeps.hostAtomic {h' node a len op operand compare win cls c} (h : Keeps false s t) :
    Keeps false s (t.hostAtomic h' node a len op operand compare win cls c) :=
  .ite h.npBare.complete (.ite h.setBr.localIn (.ite h.step1.npBare.complete (.ite h.noRouteEvent.npBare.complete h.setBr.npQueue)))

theorem Keeps.openParts {h' id n} (h : Keeps k s t) : Keeps k s (t.openParts h' id n) := h.setBr
theorem Keeps.pcieStop {h' id st win} (h : Keeps k s t) : Keeps k s (t.pcieStop h' id st win) := h.openParts.npBare.complete

theorem Keeps.pcieBar0 {h' id off op full} (h : Keeps false s t) : Keeps false s (t.pcieBar0 h' id off op full) := by
  unfold State.pcieBar0
  dsimp only
  split
  · exact .ite h.pcieStop (.ite h.openParts.hereRead h.pcieStop)
  · exact .ite h.pweBare (.ite h.hereWrite h.pweBare)
  · exact h.pcieStop

theorem Keeps.pcieBar2 {h' id off op} (h : Keeps false s t) : Keeps false s (t.pcieBar2 h' id off op) := by
  unfold State.pcieBar2
  dsimp only
  split
  · exact .ite h.pcieStop (h.openParts.foldl (·.hostRead))
  · exact .ite h.pweBare (h.foldl (·.hostWrite))
  · exact .ite h.pcieStop h.openParts.hostAtomic

theorem Keeps.pcieBar4 {h' id off op} (h : Keeps false s t) : Keeps false s (t.pcieBar4 h' id off op) := by
  unfold State.pcieBar4
  split
  · split
    · exact h.pweBare
    · exact h.pcieStop
  · split
    · exact h.openParts.foldl (·.hereRead)
    · exact h.foldl (·.hereWrite)
    · exact .ite h.pcieStop h.openParts.hostAtomic

theorem Keeps.pcie {h' id bar off op full} (h : Keeps false s t) : Keeps false s (t.pcie h' id bar off op full) :=
  .iteElse h (fun hu => .ite hu.wakeBy (.ite (.pcieBar0 (by
    split
    · exact hu
    · exact hu.bufferDrop)) (.ite (.pcieBar2 (by
    split
    · exact hu
    · exact hu.bufferDrop)) (.pcieBar4 (by
    split
    · exact hu
    · exact hu.bufferDrop)))))

theorem Ends.pcieRequest {h' id bar off op full} : Ends false s (execPcieRequest h' id bar off op full s) := .finish Keeps.refl.pcie
theorem Keeps.qspiReply {h' done st data crc refused} (h : Keeps k s t) : Keeps k s (t.qspiReply h' done st data crc refused) := h.emit
theorem Keeps.qspiRefuse {h' win} (h : Keeps k s t) : Keeps k s (t.qspiRefuse h' win) := h.npBare.qspiReply

theorem Keeps.qspiFrame {h' win bad always} {act : State → State} (h : Keeps k s t) (hact : ∀ {u}, Keeps k s u → Keeps k s (act u)) :
    Keeps k s (t.qspiFrame h' win bad always act) :=
  .iteElse h (fun hu => .ite (.iteThen hu.wakeBy.step1 (·.qspiRefuse)) (by
    split
    · exact hu.disarm.raiseInj.qspiReply
    · exact .ite hu.raise.qspiReply (.ite hu.qspiRefuse (hact hu))))

theorem Keeps.qspiStart {h'} (h : Keeps k s t) : Keeps k s (t.qspiStart h') := h.setBr

theorem Keeps.qspiAnswer {h' late} (h : Keeps k s t) : Keeps k s (t.qspiAnswer h' late) := by
  unfold State.qspiAnswer
  split
  · exact .ite h.qspiReply h.qspiReply
  · exact h.qspiReply

theorem Keeps.qspiTarget {h' fab n type r} (h : Keeps k s t) (e : t.qspiTarget h' fab n type = r) : Keeps k s r.2 := by
  subst e
  exact .iteSnd h.fault (.iteSnd h (.iteSnd h h))

theorem Keeps.qspiFabric {h' fab n type} {go : Nat → Nat → State → State} (h : Keeps k s t) (hgo : ∀ {x0 x1 u}, Keeps k s u → Keeps k s
    (go x0 x1 u)) : Keeps k s (t.qspiFabric h' fab n type go) :=
  have ht0 := h.qspiStart.qspiTarget rfl
  .qspiReply (by
    split
    · exact ht0.npBare.complete
    · exact hgo ht0)

theorem Ends.qspiLocalRead {h' bad late a len} : Ends false s (execQspiLocalRead h' bad late a len s) :=
  .finish (Keeps.refl.qspiFrame (fun hu => .qspiAnswer (.ite hu.qspiStart.hereRead hu.qspiStart.npBare.complete)))

theorem Ends.qspiLocalWrite {h' bad late a data} : Ends false s (execQspiLocalWrite h' bad late a data s) :=
  .finish (Keeps.refl.qspiFrame (fun hu => have hs1 := hu.qspiStart.bufferDrop
  .qspiAnswer (.ite hs1.hereWrite hs1.npBare.complete)))

theorem Ends.qspiFabricRead {h' bad fab len} : Ends false s (execQspiFabricRead h' bad fab len s) :=
  .finish (Keeps.refl.qspiFrame (·.qspiFabric (·.hostRead)))

theorem Ends.qspiFabricPostedWrite {h' bad fab data} : Ends false s (execQspiFabricPostedWrite h' bad fab data s) :=
  .finish (Keeps.refl.qspiFrame (fun hu => by
    dsimp only
    split
    · exact (hu.setBr.bufferDrop.qspiTarget rfl).pweBare.qspiDone.qspiReply
    · exact (hu.setBr.bufferDrop.qspiTarget rfl).hostWrite.qspiDone.qspiReply))

theorem Ends.qspiFabricNonpostedWrite {h' bad fab data} : Ends false s (execQspiFabricNonpostedWrite h' bad fab data s) :=
  .finish (Keeps.refl.qspiFrame (·.bufferDrop.qspiFabric (·.hostWrite)))
theorem Ends.qspiFabricAtomic {h' bad fab op len operand compare} : Ends false s (execQspiFabricAtomic h' bad fab op len operand compare s) :=
  .finish (Keeps.refl.qspiFrame (·.bufferDrop.qspiFabric (fun hv => .ite hv.hostAtomic hv.npBare.complete)))

theorem Ends.qspiResult {h' bad} : Ends k s (execQspiResult h' bad s) := .finish (Keeps.refl.qspiFrame (fun hu => .iteElse hu.qspiReply (fun hv => by
    split
    · exact hu.qspiReply
    · exact hv)))

theorem Ends.qspiInterruptStatus {h' bad} : Ends k s (execQspiInterruptStatus h' bad s) := .finish (Keeps.refl.qspiFrame (·.qspiReply))
theorem Keeps.npAnswer {b r' st sub token seq data} (h : Keeps k s t) : Keeps k s (t.npAnswer b r' st sub token seq data) :=
  .pump (.complete (.iteThen (.iteThen h.setBr (·.npFail)) (·.pweLog)))

theorem Keeps.takeResponse {b f} (h : Keeps k s t) : Keeps k s (t.takeResponse b f) :=
  .iteElse h.raise (fun hu => by
    dsimp only
    split
    · exact .ite (.iteThen h (·.inc)) hu
    · exact .ite hu (.ite (h.inc.setBr.brTag rfl).setBr.npFrame (.npAnswer (.iteThen h (·.bufferPut)))))

theorem Keeps.takeFrame {o} {p : Frame → Bool} {act : Frame → State → State} (h : Keeps k s t) (hact : ∀ {x0 u}, Keeps k s u → Keeps k s (act x0 u)) :
    Keeps k s (t.takeFrame o p act) := by
  unfold State.takeFrame
  split
  · exact h
  · exact .iteElse h.setOutbox hact

theorem Ends.responseReceived {port} : Ends k s (execResponseReceived port s) := .finish (Keeps.refl.takeFrame (fun hu => by
    split
    · exact hu.takeResponse
    · exact hu))

theorem Keeps.confirm {b node k'} (h : Keeps k s t) : Keeps k s (t.confirm b node k') := h.setBr.fenceIrq

theorem Keeps.takeNotice {b f} (h : Keeps k s t) : Keeps k s (t.takeNotice b f) :=
  .iteElse h.raise (fun hu => .ite h.confirm.pump (by
    dsimp only
    split
    · exact hu
    · exact .pump (.postedFail (.iteElse h (·.confirm)))))

theorem Ends.postedNoticeReceived {port} : Ends k s (execPostedNoticeReceived port s) := .finish (Keeps.refl.takeFrame (fun hu => by
    split
    · exact hu.takeNotice
    · exact hu))

theorem Keeps.npTimeout {b tag} (h : Keeps k s t) : Keeps k s (t.npTimeout b tag) := by
  unfold State.npTimeout
  split
  · exact h
  · exact .ite (.npFrame (.iteThen h.setBr (·.inc))) (h.free16 rfl).raise.npAnswer

theorem Ends.requestRetry {b tag} : Ends k s (execRequestRetry b tag s) := .finish Keeps.refl.npTimeout

theorem Keeps.unconfirmed {h' node} (h : Keeps k s t) : Keeps k s (t.unconfirmed h' node) := by
  unfold State.unconfirmed
  split
  · exact h
  · exact (h.step1.step1.free16 rfl).confirm.pweLog.pump

theorem Ends.postedConfirmTimeout {h' node} : Ends k s (execPostedConfirmTimeout h' node s) := .finish Keeps.refl.unconfirmed
theorem Keeps.pdtAged {b node} (h : Keeps k s t) : Keeps k s (t.pdtAged b node) := h.setBr.pump
theorem Ends.postedEntryAged {b node} : Ends k s (execPostedEntryAged b node s) := .finish Keeps.refl.pdtAged
theorem Ends.prefetchExpire {h'} : Ends k s (execPrefetchExpire h' s) := .finish Keeps.refl.setBr

theorem Keeps.tgtPerform {f inp} (h : Keeps false s t) : Keeps false s (t.tgtPerform f inp) :=
  .ite h.ringSem (.ite h.tgtDone (.ite (.ite h.tgtDone (by
    dsimp only
    split
    · exact (h.readAccess rfl).tgtDone
    · exact h.readAccess rfl)) (.ite h.tgtDone (.ite (by
    dsimp only
    split
    · exact (h.readAccess rfl).tgtDone
    · exact h.readAccess rfl) (by
    dsimp only
    split
    · exact (h.writeAccess rfl).tgtDone
    · exact h.writeAccess rfl)))))

theorem Keeps.tgtTry {f inp u} (h : Keeps false s t) (e : t.tgtTry f inp = some u) : Keeps false s u := by
  unfold State.tgtTry at e
  dsimp only at e
  split at e
  · exact Option.some.inj e ▸ h
  split at e
  · exact Option.some.inj e ▸ h.sendAck
  split at e
  · exact Option.some.inj e ▸ .iteElse h.inc (·.respond)
  split at e
  · split at e
    · exact nomatch e
    · exact Option.some.inj e ▸ .tgtPerform (h.beside)
  · exact Option.some.inj e ▸ h.tgtPerform

theorem Keeps.tgtWaiting {n} (h : Keeps false s t) : Keeps false s (t.tgtWaiting n) := by
  induction n generalizing t with
  | zero => exact h
  | succ n ih =>
    unfold State.tgtWaiting
    split
    · exact h
    · split
      · exact h
      next heq => exact ih ((h.tgtTry heq).beside)

theorem Keeps.tgtTurn {o} (h : Keeps false s t) : Keeps false s (t.tgtTurn o) :=
  .iteElse h (fun hu => by
    dsimp only
    split
    · exact hu.tgtWaiting
    next heq => exact .iteElse hu.tgtWaiting.setOutbox (fun hv => .ite (by
        split
        · exact hu.tgtWaiting
        next heq1 => exact (hu.tgtWaiting.tgtTry heq1).setOutbox.tgtWaiting) (.ite hv.beside hu.tgtWaiting)))

theorem Ends.targetRequest {port} : Ends false s (execTargetRequest port s) := .finish Keeps.refl.tgtTurn

theorem Keeps.orderExpire (h : Keeps false s t) : Keeps false s t.orderExpire := by
  unfold State.orderExpire
  split
  · exact h
  next heq =>
      split
      · exact h
      next heq1 => exact (h.tgtTry heq1).beside.inc.raise.tgtWaiting

theorem Ends.orderWaitExpire : Ends false s (execOrderWaitExpire s) := .finish Keeps.refl.orderExpire

theorem Keeps.ackDue {src flow} (h : Keeps false s t) : Keeps false s (t.ackDue src flow) := by
  unfold State.ackDue
  split
  · exact h
  · exact h.sendAck

theorem Ends.postedAckSend {src flow} : Ends false s (execPostedAckSend src flow s) := .finish Keeps.refl.ackDue
theorem Keeps.unguard {src flow tag} (h : Keeps false s t) : Keeps false s (t.unguard src flow tag) := h.beside.tgtTurn
theorem Ends.responseCacheUnprotect {src flow tag} : Ends false s (execResponseCacheUnprotect src flow tag s) := .finish Keeps.refl.unguard
theorem Ends.registerWrite {q a v} : Ends false s (execRegisterWrite q a v s) := .finish (Keeps.refl.regAccessW rfl).answered

theorem Ends.hostRequest {q a op} : Ends false s (execHostRequest q a op s) :=
  .finish <| by
    split
    · dsimp only
      split
      · exact (Keeps.refl.readAccess rfl).done
      · exact Keeps.refl.readAccess rfl
    · exact (Keeps.refl.writeAccess rfl).answered

theorem Keeps.barrierDone (h : Keeps k s t) : Keeps k s t.barrierDone := by
  unfold State.barrierDone
  split
  · exact h
  · exact .complete (.iteThen h.beside.irq (·.put))

theorem Ends.barrierComplete : Ends k s (execBarrierComplete s) := .finish Keeps.refl.barrierDone

theorem Keeps.serve {h'} (h : Keeps false s t) : Keeps false s (t.serve h') := by
  unfold State.serve
  split
  · dsimp only
    split
    · exact (h.readAccess rfl).complete
    · exact h.readAccess rfl
  · dsimp only
    split
    · exact (h.writeAccess rfl).complete
    · exact h.writeAccess rfl

theorem Keeps.serveHeld (h : Keeps false s t) : Keeps false s t.serveHeld := (h.beside.foldl (·.serve)).localTurn

theorem Keeps.pdAck (h : Keeps false s t) : Keeps false s t.pdAck := by
  unfold State.pdAck
  split
  · exact h
  · exact h.beside.pdWrite.complete.serveHeld

theorem Ends.pdWriteAck : Ends false s (execPdWriteAck s) := .finish Keeps.refl.pdAck
theorem Keeps.dieSilent (h : Keeps false s t) : Keeps false s t.dieSilent :=
  .iteElse h (fun hu => .serveHeld (.linkLoss (.pdEvent (.iteElse (hu.put.put.inc.irq.raise.beside.foldl (·.complete)) (·.pdErrN)))))
theorem Ends.dieLinkSilent : Ends false s (execDieLinkSilent s) := .finish Keeps.refl.dieSilent
theorem Keeps.setCur {c src dst left} (h : Keeps k s t) : Keeps k s (t.setCur c src dst left) := h.setReg.setReg.setReg.setReg.setReg
theorem Keeps.dmaAdvance {c n} (h : Keeps false s t) : Keeps false s (t.dmaAdvance c n) := .iteThen h.setCur (·.dmaComplete)

theorem Keeps.copyRead {c host l r} (h : Keeps false s t) (e : t.copyRead c host l = r) : Keeps false s r.2.2 := by
  subst e
  induction l generalizing t with
  | nil => exact h
  | cons p l ih =>
    have hp : Keeps false s (if p.target = 0 && inPages p.out then
        let x := t.readAccess (dmaReq c) p.out p.len false .drop
        (x.1.getD 0, x.2)
      else t.readPieces c host [p]).2.2 := .iteSndSnd (h.readAccess rfl) (h.readPieces rfl)
    exact .iteSndSnd hp (ih hp)

theorem Keeps.copyWrite {c l bs r} (h : Keeps false s t) (e : t.copyWrite c l bs = r) : Keeps false s r.2 := by
  subst e
  induction l generalizing t bs with
  | nil => exact h
  | cons p l ih =>
    have hp : Keeps false s (if p.target = 0 && inPages p.out then t.writeAccess (dmaReq c) p.out (bs.take p.len) (.dma c)
      else
        let x := t.writePieces c [p] (bs.take p.len)
        (some x.1, x.2)).2 := .iteSnd (h.writeAccess rfl) (h.writePieces rfl)
    exact .iteSnd hp (ih hp)

theorem Keeps.burstRead {c a n first host r} (h : Keeps false s t) (e : t.burstRead c a n first host = r) : Keeps false s r.2 := by
  subst e
  unfold State.burstRead
  dsimp only
  split
  · exact (h.xlate rfl).dmaFault
  · exact .iteSnd (h.xlate rfl) ((h.xlate rfl).copyRead rfl)

theorem Keeps.burstDest {c a n first r} (h : Keeps k s t) (e : t.burstDest c a n first = r) : Keeps k s r.2 := by
  subst e
  unfold State.burstDest
  dsimp only
  split
  · exact (h.xlate rfl).dmaFault
  · exact .iteSnd (h.xlate rfl) (h.xlate rfl)

theorem Keeps.dmaFetch {c host} (h : Keeps false s t) : Keeps false s (t.dmaFetch c host) :=
  .ite h.setCur.setDma.dmaComplete (by
    dsimp only
    split
    · exact (h.xlate rfl).dmaFault
    · exact
        have hm0 := (h.xlate rfl).readPieces rfl
        .ite hm0.setCur.setDma.dmaComplete hm0.setDma.setCur)

theorem Keeps.setupSide {c a n x r} (h : Keeps k s t) (e : t.setupSide c a n x = r) : Keeps k s r.2.2 := by
  subst e
  exact
    have hr0 := h.translate rfl
    .iteSndSnd hr0 (.iteSndSnd hr0.xltFault hr0)

theorem Keeps.dmaSetup {c} (h : Keeps false s t) : Keeps false s (t.dmaSetup c) :=
  .iteElse h (fun hu => .ite hu.setDma.dmaComplete (.ite hu.dmaComplete (.ite hu.dmaComplete (by
    dsimp only
    split
    · exact .dmaFault (.iteSndSnd (hu.setupSide rfl) hu)
    · split
      · exact .dmaFault (.iteSndSnd (.setupSide (.iteSndSnd (hu.setupSide rfl) hu) rfl) (.iteSndSnd (hu.setupSide rfl) hu))
      · exact .ite (.dmaComplete (.iteSndSnd (.setupSide (.iteSndSnd (hu.setupSide rfl) hu) rfl) (.iteSndSnd (hu.setupSide rfl) hu)))
          (.setDma (.iteSndSnd (.setupSide (.iteSndSnd (hu.setupSide rfl) hu) rfl) (.iteSndSnd (hu.setupSide rfl) hu)))))))

theorem Keeps.dmaPostedErr {c} (h : Keeps k s t) : Keeps k s (t.dmaPostedErr c) := h.postedFail

theorem Keeps.dmaStop? {c fab posted r} (h : Keeps k s t) (e : t.dmaStop? c fab posted = r) : Keeps k s r.2 := by
  subst e
  exact .iteSnd h.fault (.iteSnd h (.iteSnd h.step1 (.iteSnd h.noRouteEvent h)))

theorem Keeps.dmaTake {c n act u} (h : Keeps false s t) (hact : ∀ {x u}, Keeps false s u → Keeps false s (act x u)) (e : t.dmaTake c n act = some u) :
    Keeps false s u := by
  unfold State.dmaTake at e
  dsimp only at e
  split at e
  · split at e
    · exact Option.some.inj e ▸ h
    · exact nomatch e
  · exact Option.some.inj e ▸ .ite h.setDma.dmaComplete (.ite h.setDma (.ite h.setDma.dmaAdvance (hact h.setDma)))

theorem Keeps.burstWrite {c n ps bs} (h : Keeps false s t) : Keeps false s (t.burstWrite c n ps bs) := by
  unfold State.burstWrite
  dsimp only
  split
  · exact (h.copyWrite rfl).dmaAdvance
  · exact (h.copyWrite rfl).dmaComplete
  · exact (h.copyWrite rfl).setDma

theorem Keeps.dmaCopy {c host} (h : Keeps false s t) : Keeps false s (t.dmaCopy c host) := by
  unfold State.dmaCopy
  dsimp only
  split
  next heq => exact h.dmaTake (·.dmaAdvance) heq
  next heq =>
      split
      next heq1 => exact h.burstRead heq1
      next heq1 => exact .ite (h.burstRead heq1).dmaComplete (by
          split
          next heq2 => exact (h.burstRead heq1).burstDest heq2
          next heq2 => exact ((h.burstRead heq1).burstDest heq2).burstWrite)

theorem Keeps.dmaWrite {c host} (h : Keeps false s t) : Keeps false s (t.dmaWrite c host) := by
  have hstop {v c a p} (hv : Keeps false s v) : Keeps false s (State.dmaStop? v c a p).2 := hv.dmaStop? rfl
  have htake {n act v} (hact : ∀ {l w}, Keeps false s w → Keeps false s (act l w)) (e : State.dmaTake t c n act = some v) :
      Keeps false s v := h.dmaTake hact e
  have hwrite {v q a l r} (hv : Keeps false s v) : Keeps false s (State.writeAccess v q a l r).2 := hv.writeAccess rfl
  -- taken as variables: the kernel would evaluate these operations on symbolic addresses when it compares matches on their results
  unfold State.dmaWrite
  generalize State.dmaStop? = stop at hstop ⊢
  generalize State.dmaTake = take at htake ⊢
  generalize State.writeAccess = write at hwrite ⊢
  revert stop take write
  refine id fun stop hstop take htake write hwrite => ?_
  dsimp only
  split
  next heq => exact htake (·.dmaAdvance) heq
  · refine .ite h ?_
    split
    next heq => exact h.burstRead heq
    next heq =>
      have hb := h.burstRead heq
      refine .ite hb.dmaComplete ?_
      split
      · exact .ite (hstop hb).dmaPostedErr.dmaAdvance (hstop hb).dmaComplete
      · refine .ite (.ite (.dmaAdvance (.iteElse (hwrite (hstop hb)) (·.dmaPostedErr))) ?_)
          (.ite (hstop hb).postQueue.dmaAdvance (hstop hb).setDma.npQueue)
        split
        · exact (hwrite (hstop hb)).setDma.complete
        · exact (hwrite (hstop hb)).setDma

theorem Keeps.dmaRead {c} (h : Keeps false s t) : Keeps false s (t.dmaRead c) := by
  have hstop {v c a p} (hv : Keeps false s v) : Keeps false s (State.dmaStop? v c a p).2 := hv.dmaStop? rfl
  have htake {n act v} (hact : ∀ {l w}, Keeps false s w → Keeps false s (act l w)) (e : State.dmaTake t c n act = some v) :
      Keeps false s v := h.dmaTake hact e
  have hread {v q a n pf r} (hv : Keeps false s v) : Keeps false s (State.readAccess v q a n pf r).2.2 := hv.readAccess rfl
  -- as in `dmaWrite`
  unfold State.dmaRead
  generalize State.dmaStop? = stop at hstop ⊢
  generalize State.dmaTake = take at htake ⊢
  generalize State.readAccess = read at hread ⊢
  revert stop take read
  refine id fun stop hstop take htake read hread => ?_
  dsimp only
  split
  next heq =>
    refine htake (fun hu => ?_) heq
    split
    next heq => exact hu.burstDest heq
    next heq => exact (hu.burstDest heq).burstWrite
  · split
    next heq => exact h.burstDest heq
    next heq =>
      have hb := h.burstDest heq
      split
      · exact (hstop hb).dmaComplete
      · refine .ite ?_ (hstop hb).setDma.npQueue
        split
        · exact (hread (hstop hb).setDma).complete
        · exact hread (hstop hb).setDma

theorem Keeps.dmaSend {c host} (h : Keeps false s t) : Keeps false s (t.dmaSend c host) :=
  .ite (.iteElse h (fun hu => by
    split
    next heq => exact (hu.lookup heq).dmaComplete
    · exact hu.present.dmaComplete)) (by
    dsimp only
    split
    next heq => exact h.burstRead heq
    next heq => exact .ite (h.burstRead heq).dmaComplete (h.burstRead heq).setDma.setCur)

theorem Keeps.dmaStep {c host} (h : Keeps false s t) : Keeps false s (t.dmaStep c host) :=
  .iteElse h (fun hu => by
    dsimp only
    split
    · exact hu.setDma.dmaComplete
    · exact .ite hu.dmaFetch (.ite hu.dmaSetup (.ite hu.dmaCopy (.ite hu.dmaWrite (.ite hu.dmaRead hu.dmaSend)))))

theorem Ends.dmaBurst {c host} : Ends false s (execDmaBurst c host s) := .finish Keeps.refl.dmaStep
theorem Keeps.replayList (h : Keeps false s t) : Keeps false s t.replayList := .iteElse h (·.foldl (fun hv => .iteThen hv (·.regAccessW rfl)))
theorem Keeps.restartRead {b0 b1} (h : Keeps k s t) : Keeps k s (t.restartRead b0 b1) := h.beside.openSession.paceReading
theorem Keeps.dropCode {w} (h : Keeps k s t) : Keeps k s (t.dropCode w) := .iteThen h.put.put.put (·.driveVcore)
theorem Keeps.resumeFrom {d b0 b1} (h : Keeps false s t) : Keeps false s (t.resumeFrom d b0 b1) :=
  .iteThen (.restartRead (.beside (.put (.put (.put (.put (.iteThen h.lose (·.setReg)))))))) (·.dropCode.replayList)
theorem Keeps.wakeRing {x} (h : Keeps k s t) : Keeps k s (t.wakeRing x) := .iteThen h (·.enterElect)

theorem Keeps.exitLevel {b0 b1} (h : Keeps false s t) : Keeps false s (t.exitLevel b0 b1) :=
  .iteElse h (fun hu => .ite hu.pdOr.pdEvent.beside.hpwr.resetCause.stage (.stage (.irq
    (.wdtResume (.put (.put (.put (.ite hu.resumeFrom (.iteThen hu.beside (·.restartRead.wakeRing.wakeRing))))))))))

theorem Keeps.wake {codes b0 b1} (h : Keeps false s t) : Keeps false s (t.wake codes b0 b1) := h.wakeBy.exitLevel
theorem Ends.wake {codes b0 b1} : Ends false s (execWake codes b0 b1 s) := .finish Keeps.refl.wake
theorem Ends.wakeTimerExpire {b0 b1} : Ends false s (execWakeTimerExpire b0 b1 s) := .finish Keeps.refl.wake

theorem Keeps.applyConfig {h' writes r} (h : Keeps false s t) (e : t.applyConfig h' writes = r) : Keeps false s r.2 := by
  subst e
  exact h.foldlSnd (·.regAccessW rfl)

theorem Ends.applyConfiguration {h' ok writes} : Ends false s (execApplyConfiguration h' ok writes s) :=
  .finish (Keeps.refl.mbAct (fun hu => .ite hu.mbRespond (hu.applyConfig rfl).mbRespond))
theorem Keeps.moduleDiag {r' p l} (h : Keeps k s t) : Keeps k s (t.moduleDiag r' p l) :=
  .iteElse h (fun hu => .iteThen hu.setReg.setReg.setReg.put (·.raise))

theorem Keeps.sleepEpoch {x} (h : Keeps false s t) : Keeps false s (t.sleepEpoch x) := by
  unfold State.sleepEpoch
  split
  · exact h
  · exact .ite h.drainCore.sleepRing h.setRc

theorem Keeps.tableRepeat {x} (h : Keeps false s t) : Keeps false s (t.tableRepeat x) := by
  unfold State.tableRepeat
  split
  · exact .iteThen h (·.distribute)
  · exact h

theorem Keeps.epoch {mods} (h : Keeps false s t) : Keeps false s (t.epoch mods) :=
  .sleepEpoch (.sleepEpoch (.ledgerEpoch (.faultWindows (.iteThen ((h.beside.foldl (·.moduleDiag)).viewLapse.anise
    (·.servoUpdate)).tableRepeat.tableRepeat (·.readmitAgain)))))

theorem Ends.epochBoundary {mods} : Ends false s (execEpochBoundary mods s) := .finish Keeps.refl.epoch

theorem Keeps.tapLoad {ir reg drive} (h : Keeps k s t) : Keeps k s (t.tapLoad ir reg drive) := .iteThen h (·.beside)
theorem Ends.extest : Ends k s (execExtest s) := .finish Keeps.refl.tapLoad
theorem Ends.idcode : Ends k s (execIdcode s) := .finish Keeps.refl.tapLoad
theorem Keeps.tapSample {pins load} (h : Keeps k s t) : Keeps k s (t.tapSample pins load) := .iteThen h (·.beside)
theorem Ends.samplePreload {pins load} : Ends k s (execSamplePreload pins load s) := .finish Keeps.refl.tapLoad.tapSample
theorem Ends.highz : Ends k s (execHighz s) := .finish Keeps.refl.tapLoad
theorem Ends.clamp : Ends k s (execClamp s) := .finish Keeps.refl.tapLoad
theorem Ends.extestPulse : Ends k s (execExtestPulse s) := .finish Keeps.refl.tapLoad
theorem Ends.extestTrain : Ends k s (execExtestTrain s) := .finish Keeps.refl.tapLoad
theorem Ends.bypass {code} : Ends k s (execBypass code s) := .finish Keeps.refl.tapLoad
theorem Ends.inbandStatusChange {st} : Ends k s (execInbandStatusChange st s) := .finish (.iteThen Keeps.refl (·.macInband))

end Sys2Proof.Machine
end

section
/-! PROOF. What operations keep: the tick. -/
namespace Sys2Proof.Machine

variable {k : Bool} {s t u : State}

theorem Keeps.deliverTrigs (h : Keeps k s t) : Keeps k s t.deliverTrigs := h.foldl (·.takeTrig (fun hv => .ite hv.clvTrigger hv.doTimedAll))
theorem Keeps.endResets (h : Keeps false s t) : Keeps false s t.endResets := .iteElse h (fun hu => (hu.beside.foldl (·.blockAfter)).serveHeld)
theorem Keeps.tick (h : Keeps false s t) : Keeps false s t.tick :=
  h.deliverTrigs.timeTick.deliverTrigs.slotTick.endResets.localTurn.confirmSoon

theorem Keeps.withQueue {l} (h : Keeps k s t) : Keeps k s (t.withQueue l) := h.beside

end Sys2Proof.Machine
end

section
/-! PROOF. What a command and a step keep: every row of the dispatch by its own lemma, then the frame of the commands that store nothing (O8) and the
canonical form through every step (O6). -/
namespace Sys2Proof.Machine

/-- A command's effect keeps the canonical form, and the stores where the command stores nothing. -/
theorem exec_ends : ∀ (c : Instr) (s : State), Ends (storesNothing c) s (exec c s)
  | .registerWrite .., _ => .registerWrite | .hostRequest .., _ => .hostRequest | .blockReset .., _ => .blockReset
  | .blockEnable .., _ => .blockEnable | .expertUnlock .., _ => .expertUnlock | .pgIrqForce .., _ => .pgIrqForce
  | .pgFaultClear .., _ => .pgFaultClear | .pgFaultInj .., _ => .pgFaultInj | .pgClaim .., _ => .pgClaim | .pgLock .., _ => .pgLock
  | .portEnable .., _ => .portEnable | .moduleCheck .., _ => .moduleCheck | .moduleRetry .., _ => .moduleRetry
  | .modulePinChange .., _ => .modulePinChange | .blockLock .., _ => .blockLock | .blockLockLost .., _ => .blockLockLost | .highBer .., _ => .highBer
  | .trainTimeout .., _ => .trainTimeout | .train .., _ => .train | .alignComplete .., _ => .alignComplete | .alignmentError .., _ => .alignmentError
  | .slip .., _ => .slip | .holdoffExpire .., _ => .holdoffExpire | .remoteFault .., _ => .remoteFault | .retrain .., _ => .retrain
  | .moduleAccess .., _ => .moduleAccess | .moduleAccessDone .., _ => .moduleAccessDone | .ringFrameReceived .., _ => .ringFrameReceived
  | .slotFill .., _ => .slotFill | .padApply .., _ => .padApply | .rctlEnable .., _ => .rctlEnable | .claimReceived .., _ => .claimReceived
  | .claimSend .., _ => .claimSend | .settleExpire .., _ => .settleExpire | .electTimeout .., _ => .electTimeout
  | .countReceived .., _ => .countReceived | .endReceived .., _ => .endReceived | .numberReceived .., _ => .numberReceived
  | .delayReqSend .., _ => .delayReqSend | .delayReqReceived .., _ => .delayReqReceived | .delayRespReceived .., _ => .delayRespReceived
  | .reportReceived .., _ => .reportReceived | .readyReceived .., _ => .readyReceived | .beaconSend .., _ => .beaconSend
  | .beaconReceived .., _ => .beaconReceived | .beaconMiss .., _ => .beaconMiss | .breakReceived .., _ => .breakReceived
  | .healedReceived .., _ => .healedReceived | .joinReceived .., _ => .joinReceived | .assignReceived .., _ => .assignReceived
  | .demoteReceived .., _ => .demoteReceived | .demoteEffect .., _ => .demoteEffect | .sleepReceived .., _ => .sleepReceived
  | .vetoReceived _ n, _ => .vetoReceived (station := n) | .sleepSetReceived .., _ => .sleepSetReceived | .resetMessage .., _ => .resetMessage
  | .treeReceived _ _ n, _ => .treeReceived (upper := n) | .treeSend, _ => .treeSend | .rctlElect .., _ => .rctlElect | .rctlRenumber .., _ => .rctlRenumber
  | .rctlSleep .., _ => .rctlSleep | .rctlReset .., _ => .rctlReset | .epochBoundary .., _ => .epochBoundary | .frameIngress .., _ => .frameIngress
  | .fabricRound, _ => .fabricRound | .bankCountRebuild .., _ => .bankCountRebuild | .fabLimitWrite .., _ => .fabLimitWrite
  | .fabOccCmd .., _ => .fabOccCmd | .fabAimCmd .., _ => .fabAimCmd | .fabTracePop .., _ => .fabTracePop | .fabTestStep .., _ => .fabTestStep
  | .paceReading .., _ => .paceReading | .paceSettleEnd, _ => .paceSettleEnd | .paceLower, _ => .paceLower | .paceLoopEnable .., _ => .paceLoopEnable
  | .paceCfgWrite .., _ => .paceCfgWrite | .paceClearBeat .., _ => .paceClearBeat | .paceOutOfTurn .., _ => .paceOutOfTurn
  | .flowCreate .., _ => .flowCreate | .flowDelete .., _ => .flowDelete | .flowEnable .., _ => .flowEnable | .flowDisable .., _ => .flowDisable
  | .flowPin .., _ => .flowPin | .flowUnpin .., _ => .flowUnpin | .flowWriteBack .., _ => .flowWriteBack | .flowCmdComplete .., _ => .flowCmdComplete
  | .viewLoad .., _ => .viewLoad | .viewStore .., _ => .viewStore | .viewRelease .., _ => .viewRelease
  | .contextDirectWrite .., _ => .contextDirectWrite | .pagerMiss, _ => .pagerMiss | .pagerWritebackDone .., _ => .pagerWritebackDone
  | .pagerFetchDone .., _ => .pagerFetchDone | .pagerRetry .., _ => .pagerRetry | .sysWindowUnprotect .., _ => .sysWindowUnprotect
  | .flowPfCmd .., _ => .flowPfCmd | .ttbDistribute .., _ => .ttbDistribute | .tableReceived .., _ => .tableReceived
  | .tableEffect .., _ => .tableEffect | .class0Store .., _ => .class0Store | .ttbMemData .., _ => .ttbMemData
  | .ttbMemDataInc .., _ => .ttbMemDataInc | .ttbExpSwap .., _ => .ttbExpSwap | .ttbLogPop .., _ => .ttbLogPop | .rxFrameWrite .., _ => .rxFrameWrite
  | .rxStallExpire .., _ => .rxStallExpire | .tbSnap .., _ => .tbSnap | .tbStep .., _ => .tbStep | .tbSessionOpen .., _ => .tbSessionOpen
  | .tbRateWrite .., _ => .tbRateWrite | .syncSend .., _ => .syncSend | .timeMessageReceived .., _ => .timeMessageReceived
  | .sourceTimeout, _ => .sourceTimeout | .tunnelReceived .., _ => .tunnelReceived | .tcOrphanTimeout .., _ => .tcOrphanTimeout
  | .tsuSnapAll .., _ => .tsuSnapAll | .tsuArm .., _ => .tsuArm | .eventCompare .., _ => .eventCompare | .eventCapture .., _ => .eventCapture
  | .tsuCapPop .., _ => .tsuCapPop | .pcieRequest .., _ => .pcieRequest | .msixUnmask .., _ => .msixUnmask | .qspiLocalRead .., _ => .qspiLocalRead
  | .qspiLocalWrite .., _ => .qspiLocalWrite | .qspiFabricRead .., _ => .qspiFabricRead | .qspiFabricPostedWrite .., _ => .qspiFabricPostedWrite
  | .qspiFabricNonpostedWrite .., _ => .qspiFabricNonpostedWrite | .qspiFabricAtomic .., _ => .qspiFabricAtomic | .qspiResult .., _ => .qspiResult
  | .qspiInterruptStatus .., _ => .qspiInterruptStatus | .responseReceived .., _ => .responseReceived | .requestRetry .., _ => .requestRetry
  | .targetRequest .., _ => .targetRequest | .orderWaitExpire, _ => .orderWaitExpire | .postedAckSend .., _ => .postedAckSend
  | .postedNoticeReceived .., _ => .postedNoticeReceived | .postedConfirmTimeout .., _ => .postedConfirmTimeout
  | .prefetchExpire .., _ => .prefetchExpire | .semHoldExpire .., _ => .semHoldExpire | .fenceRead .., _ => .fenceRead
  | .fenceRequest .., _ => .fenceRequest | .pweClear .., _ => .pweClear | .windowResume .., _ => .windowResume
  | .windowAttrWrite .., _ => .windowAttrWrite | .pollDue .., _ => .pollDue | .pollResponse, _ => .pollResponse | .pollMiss .., _ => .pollMiss
  | .pollEvtPop .., _ => .pollEvtPop | .heartbeat .., _ => .heartbeat | .heartbeatEnable .., _ => .heartbeatEnable
  | .heartbeatWindowEnd .., _ => .heartbeatWindowEnd | .semRequest .., _ => .semRequest | .semRelease .., _ => .semRelease | .semTry .., _ => .semTry
  | .semForce .., _ => .semForce | .claimClear .., _ => .claimClear | .levelWrite .., _ => .levelWrite | .barrier .., _ => .barrier
  | .barrierComplete, _ => .barrierComplete | .barrierSlow, _ => .barrierSlow | .xltFcapCmd .., _ => .xltFcapCmd | .dmaaAlloc .., _ => .dmaaAlloc
  | .dmaaFree .., _ => .dmaaFree | .dmaStart .., _ => .dmaStart | .dmaResume .., _ => .dmaResume | .dmaAbort .., _ => .dmaAbort
  | .dmaStop .., _ => .dmaStop | .dmaBurst .., _ => .dmaBurst | .rxTailWrite .., _ => .rxTailWrite | .rsvPush .., _ => .rsvPush
  | .rsvPop .., _ => .rsvPop | .pinFunctionWrite .., _ => .pinFunctionWrite | .bankLevelWrite .., _ => .bankLevelWrite | .gpioSet .., _ => .gpioSet
  | .gpioClr .., _ => .gpioClr | .gpioEdge .., _ => .gpioEdge | .fqItemProduced .., _ => .fqItemProduced | .fqPop .., _ => .fqPop
  | .fqPush .., _ => .fqPush | .fqCloseRx .., _ => .fqCloseRx | .fqFlushRx .., _ => .fqFlushRx | .fqFlushTx .., _ => .fqFlushTx
  | .fqQcfgWrite .., _ => .fqQcfgWrite | .fqFrameDeliver .., _ => .fqFrameDeliver | .uartRxChar .., _ => .uartRxChar
  | .uartIdleEnd .., _ => .uartIdleEnd | .uartTxChar .., _ => .uartTxChar | .uartDeRelease .., _ => .uartDeRelease
  | .uartSendBreak .., _ => .uartSendBreak | .spiFrame .., _ => .spiFrame | .spiCount .., _ => .spiCount | .spiTargetFrame .., _ => .spiTargetFrame
  | .spiCsRelease .., _ => .spiCsRelease | .i2cCommand .., _ => .i2cCommand | .i2cSclTimeout .., _ => .i2cSclTimeout
  | .i2cBusClear .., _ => .i2cBusClear | .i2cRelease .., _ => .i2cRelease | .i2cTargetByte .., _ => .i2cTargetByte
  | .i2cStretchLimit .., _ => .i2cStretchLimit | .i2cTargetStop .., _ => .i2cTargetStop | .canTxLoad .., _ => .canTxLoad
  | .canTxChoose .., _ => .canTxChoose | .canTxDone .., _ => .canTxDone | .canArbLost .., _ => .canArbLost | .canBusError .., _ => .canBusError
  | .canRxFrame .., _ => .canRxFrame | .canAbort .., _ => .canAbort | .canRecover .., _ => .canRecover
  | .canRecoveryComplete .., _ => .canRecoveryComplete | .canBusIntegrate .., _ => .canBusIntegrate | .jump .., _ => .jump | .count .., _ => .count
  | .pause .., _ => .pause | .halt .., _ => .halt | .shout .., _ => .shout | .shin .., _ => .shin | .exch .., _ => .exch | .loadc .., _ => .loadc
  | .test .., _ => .test | .take .., _ => .take | .give .., _ => .give | .cloveMatch .., _ => .cloveMatch | .edge .., _ => .edge
  | .signal .., _ => .signal | .bankpt .., _ => .bankpt | .cloveReservedOpcode .., _ => .cloveReservedOpcode | .cloveGiveRoom .., _ => .cloveGiveRoom
  | .cloveEdgeSeen .., _ => .cloveEdgeSeen | .cloveEdgeTimeout .., _ => .cloveEdgeTimeout | .cloveShiftComplete .., _ => .cloveShiftComplete
  | .clovStart .., _ => .clovStart | .clovStop .., _ => .clovStop | .clovSwap .., _ => .clovSwap | .clovSyncNow .., _ => .clovSyncNow
  | .clovSyncArm .., _ => .clovSyncArm | .clovSyncDisarm .., _ => .clovSyncDisarm | .clovSyncTrigger .., _ => .clovSyncTrigger
  | .clovPmemData .., _ => .clovPmemData | .clovPmemDataInc .., _ => .clovPmemDataInc | .clovStep .., _ => .clovStep
  | .moverTransfer .., _ => .moverTransfer | .moverFaultClear .., _ => .moverFaultClear | .macFrameReceived .., _ => .macFrameReceived
  | .macSegmentDeliver .., _ => .macSegmentDeliver | .macTxFrame .., _ => .macTxFrame | .pauseEnd, _ => .pauseEnd
  | .t1sCollision .., _ => .t1sCollision | .t1sBackoffEnd .., _ => .t1sBackoffEnd | .mdioAccess .., _ => .mdioAccess | .mdioDone .., _ => .mdioDone
  | .cntFreeze .., _ => .cntFreeze | .cntClear .., _ => .cntClear | .txsPop .., _ => .txsPop | .cipherFrame .., _ => .cipherFrame
  | .glitchAlarm, _ => .glitchAlarm | .tamperAlarm, _ => .tamperAlarm | .jobRingTail .., _ => .jobRingTail
  | .cipherJobComplete .., _ => .cipherJobComplete | .jobRingResume .., _ => .jobRingResume | .jobRingAbort .., _ => .jobRingAbort
  | .ciphMmCmd .., _ => .ciphMmCmd | .ciphKat .., _ => .ciphKat | .ciphKatDone .., _ => .ciphKatDone | .keyApply .., _ => .keyApply
  | .keySend .., _ => .keySend | .keyOpenWrite .., _ => .keyOpenWrite | .keyOpenClear .., _ => .keyOpenClear | .keyMessage, _ => .keyMessage
  | .keyCommit .., _ => .keyCommit | .keyCommitAbort .., _ => .keyCommitAbort | .keyCommitTimeout, _ => .keyCommitTimeout
  | .keyCtrLock .., _ => .keyCtrLock | .keyLogPop .., _ => .keyLogPop | .feedChange .., _ => .feedChange | .presenceChange .., _ => .presenceChange
  | .oringFault .., _ => .oringFault | .overvoltage, _ => .overvoltage | .overvoltageEnd, _ => .overvoltageEnd | .debounceEnd, _ => .debounceEnd
  | .rampStart, _ => .rampStart | .fetShort, _ => .fetShort | .enhancementBegin, _ => .enhancementBegin | .gateEnhanced, _ => .gateEnhanced
  | .gateNoRise, _ => .gateNoRise | .limitOnset, _ => .limitOnset | .limitEnd, _ => .limitEnd | .limitClear, _ => .limitClear
  | .hotswapTrip, _ => .hotswapTrip | .pgoodRelease, _ => .pgoodRelease | .pgoodLow, _ => .pgoodLow | .cooldownEnd, _ => .cooldownEnd
  | .retryClear, _ => .retryClear | .clearRetries .., _ => .clearRetries | .holdcapLow, _ => .holdcapLow | .pdOtpProgram .., _ => .pdOtpProgram
  | .supplyDip .., _ => .supplyDip | .brownout .., _ => .brownout | .viofResetLevel .., _ => .viofResetLevel | .bankSupplyOk .., _ => .bankSupplyOk
  | .pdWriteAck, _ => .pdWriteAck | .pdWriteResend, _ => .pdWriteResend | .mirrorCompare .., _ => .mirrorCompare | .dieLinkSilent, _ => .dieLinkSilent
  | .dieLinkRestored, _ => .dieLinkRestored | .diEdge .., _ => .diEdge | .doShort .., _ => .doShort | .doOpenLoad .., _ => .doOpenLoad
  | .doTimedFire .., _ => .doTimedFire | .pdDioSet .., _ => .pdDioSet | .pdDioClr .., _ => .pdDioClr | .pdDioOutWrite .., _ => .pdDioOutWrite
  | .pdTemperatureHigh, _ => .pdTemperatureHigh | .faultEvent .., _ => .faultEvent | .errorPairEqual .., _ => .errorPairEqual
  | .errorPairStuck .., _ => .errorPairStuck | .fltAck .., _ => .fltAck | .fltCapClr .., _ => .fltCapClr | .fltErrnClr .., _ => .fltErrnClr
  | .level5Reset, _ => .level5Reset | .ledgerFlushDone .., _ => .ledgerFlushDone | .ledgAnchor .., _ => .ledgAnchor | .ledgFresh .., _ => .ledgFresh
  | .ledgFlushNow .., _ => .ledgFlushNow | .ledgNote .., _ => .ledgNote | .coldReset .., _ => .coldReset | .warmReset .., _ => .warmReset
  | .resetN, _ => .resetN | .powerDieReset, _ => .powerDieReset | .chipReset .., _ => .chipReset | .wdtEnable .., _ => .wdtEnable
  | .wdtKick .., _ => .wdtKick | .wdtStage1Expire, _ => .wdtStage1Expire | .wdtStage2Expire, _ => .wdtStage2Expire | .pwrCmd .., _ => .pwrCmd
  | .hushEnter, _ => .hushEnter | .hushExit, _ => .hushExit | .wake .., _ => .wake | .wakeTimerExpire .., _ => .wakeTimerExpire
  | .pllUnlock .., _ => .pllUnlock | .refclkFault .., _ => .refclkFault | .chipTempCmd .., _ => .chipTempCmd | .chipTempHigh .., _ => .chipTempHigh
  | .cuminStart .., _ => .cuminStart | .fwuOpen .., _ => .fwuOpen | .fwuEraseDone, _ => .fwuEraseDone | .fwuWrite .., _ => .fwuWrite
  | .fwuCommit .., _ => .fwuCommit | .fwuActivate .., _ => .fwuActivate | .fwuHandover .., _ => .fwuHandover | .fwuConfirm .., _ => .fwuConfirm
  | .fwuLoad .., _ => .fwuLoad | .fwuSend .., _ => .fwuSend | .fwuAbort .., _ => .fwuAbort | .fwFragmentReceived .., _ => .fwFragmentReceived
  | .fwAssemblyTimeout, _ => .fwAssemblyTimeout | .confirmTimeout, _ => .confirmTimeout | .handoverReady .., _ => .handoverReady
  | .handoverTimeout, _ => .handoverTimeout | .handoverCopyDone .., _ => .handoverCopyDone | .handoverResumed .., _ => .handoverResumed
  | .fwuMeasExt .., _ => .fwuMeasExt | .xspiTimeout, _ => .xspiTimeout | .mailboxDoorbell .., _ => .mailboxDoorbell
  | .mailboxVersion .., _ => .mailboxVersion | .mailboxHealth .., _ => .mailboxHealth | .applyConfiguration .., _ => .applyConfiguration
  | .saveRestoreArea .., _ => .saveRestoreArea | .servoState .., _ => .servoState | .restoreKeys .., _ => .restoreKeys
  | .enterLevel .., _ => .enterLevel | .mailboxHandover .., _ => .mailboxHandover | .mailboxAck .., _ => .mailboxAck | .extest, _ => .extest
  | .idcode, _ => .idcode | .samplePreload .., _ => .samplePreload | .highz, _ => .highz | .clamp, _ => .clamp | .extestPulse, _ => .extestPulse
  | .extestTrain, _ => .extestTrain | .bypass .., _ => .bypass | .txClockLocked .., _ => .txClockLocked
  | .responseCacheUnprotect .., _ => .responseCacheUnprotect | .postedEntryAged .., _ => .postedEntryAged | .pcieLinkChange .., _ => .pcieLinkChange
  | .inbandStatusChange .., _ => .inbandStatusChange | .supplyBelowWarning .., _ => .supplyBelowWarning | .dieLinkPush .., _ => .dieLinkPush

/-- Settles O8, by the lemma of the command's row. -/
theorem commandsThatStoreNothing : Obligations.CommandsThatStoreNothing := by
  intro c s hc
  obtain ⟨t, ht, hkeeps⟩ := exec_ends c s
  exact ⟨t, ht, hkeeps.stores hc⟩

/-- What is forgotten of the stores leaves the canonical form. -/
theorem Keeps.forget {k : Bool} {s t : State} (h : Keeps k s t) : Keeps false s t := ⟨h.canon, nofun⟩

theorem Ends.canon {k : Bool} {s t : State} {o : Host.Outcome State Fault Refusal} (h : Ends k s o) (hs : s.Canon) (ho : o = .next t) : t.Canon := by
  obtain ⟨u, rfl, hu⟩ := h
  cases ho
  exact hu.forget.finished.canon hs

/-- Settles O6: a tick and every command keep the canonical form, and so do the collector and the interrupts at their end. -/
theorem everyStepKeepsTheCanonicalForm : Obligations.EveryStepKeepsTheCanonicalForm := by
  intro s t hs hstep
  unfold step at hstep
  split at hstep
  · exact (Ends.finish Keeps.refl.tick).canon hs hstep
  next c rest _ => exact (exec_ends c (s.withQueue rest)).canon hs hstep

end Sys2Proof.Machine
end

section
/-! PROOF. Training of a ring port (R54, R57, R76, R80): its state among the registers, TRAIN sets, module checks, and each event's rule. -/
namespace Sys2Proof.Machine

/-! ### The state of a port among the registers -/

section PortState

variable {s : State} {r p : Nat}

theorem isUp_iff : s.isUp r p = true ↔ s.portState r p = pUp := decide_eq_true_iff

@[simp] theorem port_put (a : Nat) (f : Fld) (v : Nat) : (s.put a f v).port r p = s.port r p := rfl

theorem isUp_congr {t : State} (h : t.portState r p = s.portState r p) : t.isUp r p = s.isUp r p := by
  unfold State.isUp
  rw [h]

/-- A write of another register leaves the state of the port. -/
theorem portState_setReg_ne {a : Nat} (v : Word) (h : rRGA_PORT_STATE r p ≠ a) : (s.setReg a v).portState r p = s.portState r p :=
  get_congr _ (reg_setReg_ne s v h)

/-- A field of RGA_PORT_STATE above the state field leaves the state. -/
theorem portState_put_above (f : Fld) (v : Nat) (hlo : 2 < f.lo := by decide) (h : f.lo ≤ f.hi := by decide) (hhi : f.hi < 32 := by decide) :
    (s.put (rRGA_PORT_STATE r p) f v).portState r p = s.portState r p :=
  get_put_other s _ f fRGA_PORT_STATE_state v h hhi (Or.inl hlo)

/-- A state code of 3 bits is read back. -/
theorem portState_setPortState {n : Nat} (h : n < 8) : (s.setPortState r p n).portState r p = n :=
  (get_put_same s _ fRGA_PORT_STATE_state n (by decide) (by decide)).trans (Nat.mod_eq_of_lt h)

end PortState

/-! ### TRAIN sets (R54) -/

/-- D2 of a TRAIN set carries the port, ack and ready. -/
theorem trainOctet2_bits : ∀ (port : Fin 2) (ack ready : Bool), let d2 := toB (port.val * 128 + b2n ack * 64 + b2n ready * 32)
    b2n (d2.getLsbD 7) = port ∧ d2.getLsbD 6 = ack ∧ d2.getLsbD 5 = ready := by decide

/-- D3 of a TRAIN set carries the rate and the version. -/
theorem trainOctet3_bits : ∀ (quarter : Bool) (version : Fin 16), let d3 := toB (b2n quarter * 128 + version.val)
    d3.getLsbD 7 = quarter ∧ natBits d3.toNat 3 0 = version := by decide

/-- A TRAIN set is received as what it was made to say. -/
theorem kind_ordSet {t : Train} (hport : t.port < 2) (hversion : t.version < 16) : (Train.ordSet t).kind = .train t := by
  obtain ⟨quarter, version, port, ack, ready⟩ := t
  obtain ⟨hp, hack, hready⟩ := trainOctet2_bits ⟨port, hport⟩ ack ready
  obtain ⟨hquarter, hv⟩ := trainOctet3_bits quarter ⟨version, hversion⟩
  simp only [Train.ordSet, OrdSet.kind, hp, hack, hready, hquarter, hv]
  rfl

section Training

variable {s : State} {r p : Nat}

/-- A port that is awake takes a TRAIN set up. -/
theorem ordSetIn_train {o : OrdSet} {t : Train} (hawake : pWake ≤ s.portState r p) (hkind : o.kind = .train t) :
    s.ordSetIn r p o = s.trainSet r p t := by
  unfold State.ordSetIn
  rw [if_neg (Nat.not_lt.2 hawake), hkind]

/-- In LOCK a TRAIN set of the opposite port with ack 1, of the ring's rate and version 1, leads to ALIGN. -/
theorem trainSet_lock {t : Train} (hstate : s.portState r p = pLock) (hport : t.port ≠ p) (hquarter : t.quarter = s.quarter r)
    (hversion : t.version = 1) (hack : t.ack = true) :
    s.trainSet r p t = ((s.put (rRGA_PORT_STATE r p) fRGA_PORT_STATE_peer_port t.port).setPort r p
      { s.port r p with peerSeen := true, peerReady := t.ready, slotSets := 0 }).setPortState r p pAlign := by
  unfold State.trainSet
  simp [hstate, hport, hquarter, hversion, hack]

/-! ### The effects of the training events -/

/-- A write that sets enable in an enabled block starts the port at MODULE. -/
theorem portCtrlFx_enables {v : Word} (hwas : s.flag (rRGA_PORT_CTRL r p) fRGA_PORT_CTRL_enable = false)
    (hnow : (s.store (rRGA_PORT_CTRL r p) v).flag (rRGA_PORT_CTRL r p) fRGA_PORT_CTRL_enable = true)
    (hon : (s.store (rRGA_PORT_CTRL r p) v).enabled (ringPage r) = true) :
    portCtrlFx r p v s = (s.store (rRGA_PORT_CTRL r p) v).toModule r p := by
  unfold portCtrlFx
  simp only [hwas, hnow, hon, Bool.not_false, Bool.and_self, if_true]

/-- What RGA_MOD_STATUS shows of a module that answered (R80). -/
def State.moduleStatus (s : State) (r p : Nat) (b0 b12 b92 : Byte) : Word :=
  toW (b0.toNat * 256 + b2n (b92.getLsbD 4) * 32 + s.get (rRGA_MOD_STATUS r p) fRGA_MOD_STATUS_diag_alarm * 16 + b2n (s.port r p).txFault * 8 +
    b2n (decide (if s.quarter r then 26 ≤ b12.toNat else 103 ≤ b12.toNat)) * 4 + b2n (decide (b0 = 0x03)) * 2 + b2n (!(s.port r p).modAbs))

theorem b2n_le_one (b : Bool) : b2n b ≤ 1 := by cases b <;> decide

/-- The fields that R80's checks are shown in. -/
theorem moduleStatus_fields (b0 b12 b92 : Byte) : let w := s.moduleStatus r p b0 b12 b92
    fldOf w fRGA_MOD_STATUS_identifier = b0.toNat ∧ fldOf w fRGA_MOD_STATUS_id_ok = b2n (decide (b0 = 0x03)) ∧
    fldOf w fRGA_MOD_STATUS_rate_ok = b2n (decide (if s.quarter r then 26 ≤ b12.toNat else 103 ≤ b12.toNat)) := by
  have hb0 := b0.isLt
  have halarm : s.get (rRGA_MOD_STATUS r p) fRGA_MOD_STATUS_diag_alarm < 2 := Nat.mod_lt _ (by decide)
  have hext := b2n_le_one (b92.getLsbD 4)
  have hfault := b2n_le_one (s.port r p).txFault
  have hrate := b2n_le_one (decide (if s.quarter r then 26 ≤ b12.toNat else 103 ≤ b12.toNat))
  have hid := b2n_le_one (decide (b0 = 0x03))
  have hpresent := b2n_le_one (!(s.port r p).modAbs)
  simp only [State.moduleStatus, fldOf, natBits, toW, BitVec.toNat_ofNat, Nat.shiftRight_eq_div_pow]
  omega

/-- The checks of R80 pass when byte 0 and the rate are right and the pins are good. -/
theorem moduleOk_iff {b0 b12 : Byte} : s.moduleOk r p b0 b12 = true ↔
    b0 = 0x03 ∧ (if s.quarter r then 26 ≤ b12.toNat else 103 ≤ b12.toNat) ∧ s.modulePinsOk r p = true := by
  simp [State.moduleOk, and_assoc]

/-- What a module that answered leaves: whether it declares diagnostics, and RGA_MOD_STATUS (R80). -/
def State.moduleShown (s : State) (r p : Nat) (b0 b12 b92 : Byte) : State :=
  (s.setPort r p { s.port r p with diag := b92.getLsbD 6 }).setReg (rRGA_MOD_STATUS r p) (s.moduleStatus r p b0 b12 b92)

/-- The checks do not depend on what is shown of the module. -/
theorem moduleOk_moduleShown (b0 b12 b92 : Byte) : (s.moduleShown r p b0 b12 b92).moduleOk r p b0 b12 = s.moduleOk r p b0 b12 := by
  have hquarter : (s.moduleShown r p b0 b12 b92).quarter r = s.quarter r :=
    flag_congr _ (reg_setReg_ne _ _ (by dsimp only [rRGA_CFG, rRGA_MOD_STATUS]; omega))
  have hpins : (s.moduleShown r p b0 b12 b92).modulePinsOk r p = s.modulePinsOk r p := by
    simp [State.modulePinsOk, State.moduleShown]
  simp only [State.moduleOk, hquarter, hpins]

/-- A module that passes the checks in MODULE takes the port to WAKE. -/
theorem moduleCheck_passes {b0 b12 : Byte} (b92 : Byte) (hstate : s.portState r p = pModule) (hok : s.moduleOk r p b0 b12 = true) :
    s.moduleCheck r p true b0 b12 b92 = (s.moduleShown r p b0 b12 b92).toWake r p := by
  have hstate' : (s.moduleShown r p b0 b12 b92).portState r p = pModule :=
    (portState_setReg_ne _ (by dsimp only [rRGA_PORT_STATE, rRGA_MOD_STATUS]; omega)).trans hstate
  have hok' : (s.moduleShown r p b0 b12 b92).moduleOk r p b0 b12 = true := (moduleOk_moduleShown ..).trans hok
  unfold State.moduleCheck
  simp only [port_setPort, Bool.true_and, if_true]
  exact (if_neg fun hleft => bne_iff_ne.1 hleft hstate').trans (if_pos hok')

end Training

/-! ### The statement -/

/-- Settles O10: each clause is the rule of R76 for its event; the module's fields are those of R80's checks. -/
theorem trainingFollowsItsEvents : Obligations.TrainingFollowsItsEvents := by
  intro s r p
  refine ⟨?enable, ?check, ?retry, ?blockLock, ?timeout, ?train, ?align, ?holdoff⟩
  case enable => exact fun q v ha hwas hnow hon => exec_writeReg_accepted rfl ha (portCtrlFx_enables hwas hnow hon)
  case check =>
    intro b0 b12 b92 hstate hok
    obtain ⟨hid, hrate, _⟩ := moduleOk_iff.1 hok
    obtain ⟨hidentifier, hidOk, hrateOk⟩ := moduleStatus_fields (s := s) (r := r) (p := p) b0 b12 b92
    exact ⟨s.moduleStatus r p b0 b12 b92, congrArg (finish s) (moduleCheck_passes b92 hstate hok), hidentifier,
      hidOk.trans (by rw [decide_eq_true hid]; rfl), hrateOk.trans (by rw [decide_eq_true hrate]; rfl)⟩
  case retry => exact fun hstate => congrArg (finish s) (if_pos hstate)
  case blockLock => exact fun hstate => congrArg (finish s) (if_pos hstate)
  case timeout => exact fun hstate => congrArg (finish s) (if_pos (by simpa [or_assoc] using hstate))
  case train =>
    intro ready hstate
    have hkind : (Train.ordSet ⟨s.quarter r, 1, 1 - p.val, true, ready⟩).kind = .train ⟨s.quarter r, 1, 1 - p.val, true, ready⟩ :=
      kind_ordSet (by dsimp only; omega) (by dsimp only; omega)
    have hawake : pWake ≤ s.portState r p := hstate ▸ by decide
    have hopposite : 1 - p.val ≠ p := by omega
    exact congrArg (finish s) ((ordSetIn_train hawake hkind).trans (trainSet_lock hstate hopposite rfl rfl rfl))
  case align => exact fun hstate hready => congrArg (finish s) (if_pos (by simp [hstate, hready]))
  case holdoff => exact fun hstate => congrArg (finish s) (if_pos hstate)

end Sys2Proof.Machine
end

section
/-! PROOF. Leaving UP (R57, R59, R75 to R77, R81, R83, R107): the events that take a port to DOWN, the module's removal, remote fault, and what the
port leaves behind. -/
namespace Sys2Proof.Machine

section LeavingUp

variable {s : State} {r p : Nat}

/-- A page's interrupt leaves the state of a port. -/
@[simp] theorem portState_irq (pg n : Nat) : (s.irq pg n).portState r p = s.portState r p :=
  portState_setReg_ne _ (by dsimp only [rRGA_PORT_STATE, rPG_IRQ_STAT]; omega)

/-! ### The events that take a port from UP to DOWN -/

theorem blockLockLost_up (hup : s.isUp r p = true) :
    s.blockLockLost r p = (s.put (rRGA_PORT_STATE r p) fRGA_PORT_STATE_block_lock 0).upToDown r p := by
  have hstate : (s.put (rRGA_PORT_STATE r p) fRGA_PORT_STATE_block_lock 0).portState r p = pUp :=
    (portState_put_above _ _).trans (isUp_iff.1 hup)
  unfold State.blockLockLost
  simp [hstate]

theorem berWindowEnd_high {w : BerWindow} (hup : s.isUp r p = true) (hhigh : berLimit ≤ w.bad)
    (hprbs : bitOf (s.reg (rRGA_PORT_TEST r p)) 1 = false) :
    s.berWindowEnd r p w = (s.put (rRGA_PORT_STATE r p) fRGA_PORT_STATE_hi_ber 1).upToDown r p := by
  have hup' : (s.put (rRGA_PORT_STATE r p) fRGA_PORT_STATE_hi_ber 1).isUp r p = true :=
    (isUp_congr (portState_put_above _ _)).trans hup
  have hprbs' : bitOf ((s.put (rRGA_PORT_STATE r p) fRGA_PORT_STATE_hi_ber 1).reg (rRGA_PORT_TEST r p)) 1 = false := by
    rw [reg_put, if_neg (by dsimp only [rRGA_PORT_STATE, rRGA_PORT_TEST]; omega), hprbs]
  unfold State.berWindowEnd
  simp only [decide_eq_true hhigh, show b2n true = 1 from rfl, hprbs', hup', Bool.false_eq_true, Bool.and_self, if_false, if_true]

theorem alignError_up (hup : s.isUp r p = true) : s.alignError r p = (s.inc (rRGA_CNT_SLIP r p)).upToDown r p := if_pos hup

theorem block0_misplaced (hup : s.isUp r p = true) : s.block0 r p .misplacedSlot = (s.inc (rRGA_CNT_SLIP r p)).upToDown r p := by
  unfold State.block0
  rw [if_neg (by simp [hup])]
  exact alignError_up hup

/-- In UP a TRAIN set is an alignment error, whatever it says (log entry 15). -/
theorem trainSet_up (hup : s.isUp r p = true) (t : Train) : s.trainSet r p t = (s.inc (rRGA_CNT_SLIP r p)).upToDown r p :=
  (if_pos (isUp_iff.1 hup)).trans (alignError_up hup)

/-- A fill more than two blocks above its set value, with the transmit clock locked, is a slip (R59). -/
theorem slip_above {fill : Nat} : let u := s.put (rRGA_PORT_STATE r p) fRGA_PORT_STATE_elastic_now fill
    u.isUp r p = true → (u.noteDelay r p).isUp r p = true → (u.noteDelay r p).flag (rRGA_STATUS r) fRGA_STATUS_tx_clock_locked = true →
    u.fillSet r p + 2 < fill → s.slip r p fill = ((u.noteDelay r p).inc (rRGA_CNT_SLIP r p)).upToDown r p := by
  intro u hup hup' hlocked hfill
  have habove : ¬ fill < u.fillSet r p := by omega
  unfold State.slip
  dsimp only
  rw [if_pos hup, if_neg habove]
  have hlimit : (if (u.noteDelay r p).quarter r then 1 else 2) < fill - u.fillSet r p := by split <;> omega
  exact if_pos (Bool.and_eq_true_iff.2 ⟨Bool.and_eq_true_iff.2 ⟨hlocked, decide_eq_true hlimit⟩, hup'⟩)

theorem portCmdFx_retrain {v : Word} (hretrain : bitOf v 0 = true) (hup : s.isUp r p = true) : portCmdFx r p v s = s.upToDown r p := by
  have hawake : pWake ≤ s.portState r p := isUp_iff.1 hup ▸ by decide
  unfold portCmdFx
  rw [if_pos (by simp [hretrain, hawake]), if_pos hup]

/-! ### The module is taken out (R81) -/

/-- What the pins show after MOD_ABS has risen. -/
def State.moduleAbsent (s : State) (r p : Nat) (txFault los : Bool) : State :=
  let t := (s.setPort r p { s.port r p with modAbs := true, txFault := txFault, los := los }).showPins r p
  ((t.put (rRGA_MOD_STATUS r p) fRGA_MOD_STATUS_present 0).put (rRGA_MOD_STATUS r p) fRGA_MOD_STATUS_tx_fault (b2n txFault)).irq (modulePage r) (2 + p)

theorem portState_showPins : (s.showPins r p).portState r p = s.portState r p :=
  (portState_put_above fRGA_PORT_STATE_los _).trans ((portState_put_above fRGA_PORT_STATE_tx_fault _).trans
    (portState_put_above fRGA_PORT_STATE_mod_abs _))

theorem portState_moduleAbsent (txFault los : Bool) : (s.moduleAbsent r p txFault los).portState r p = s.portState r p := by
  have hne : rRGA_PORT_STATE r p ≠ rRGA_MOD_STATUS r p := by dsimp only [rRGA_PORT_STATE, rRGA_MOD_STATUS]; omega
  unfold State.moduleAbsent
  dsimp only
  rw [portState_irq]
  exact (portState_setReg_ne _ hne).trans ((portState_setReg_ne _ hne).trans portState_showPins)

theorem port_moduleAbsent (txFault los : Bool) :
    (s.moduleAbsent r p txFault los).port r p = { s.port r p with modAbs := true, txFault := txFault, los := los } := port_setPort ..

/-- In WAKE the rise takes the port to MODULE with the module fault. -/
theorem pinChange_absent {txFault los : Bool} (hpresent : (s.port r p).modAbs = false) (hstate : s.portState r p = pWake) :
    s.pinChange r p true txFault los = ((s.moduleAbsent r p txFault los).raise (22 + r) (modulePage r)).toModule r p := by
  have hstate' : (s.moduleAbsent r p txFault los).portState r p = pWake := (portState_moduleAbsent ..).trans hstate
  unfold State.pinChange
  simp only [hpresent]
  exact (if_pos (Bool.and_eq_true_iff.2 ⟨rfl, decide_eq_true hstate'.ge⟩)).trans (if_pos hstate')

/-! ### Remote fault (R77, R107) -/

theorem remoteFault_up (hup : s.isUp r p = true) (hnew : s.flag (rRGA_PORT_STATE r p) fRGA_PORT_STATE_remote_fault_rx = false) :
    s.remoteFault r p true =
      (((s.put (rRGA_PORT_STATE r p) fRGA_PORT_STATE_remote_fault_rx 1).put (rRGA_PORT_STATE r p) fRGA_PORT_STATE_tx_failed 1).irq
        (portPage r p) 4).ifOn 0x28 fun t => (t.spanBreak r (t.spanStation r p) (p = 0) (p = 1)).holdSpan r p :=
  if_pos (by simp [hup, hnew])

/-! ### What a port leaves behind (R75, R96) -/

/-- A port that has left UP for state n, before ring control is told. -/
def State.leftUp (s : State) (r p n : Nat) : State :=
  let t := (((s.setPortState r p n).inc (rRGA_CNT_DOWN r p)).irq (portPage r p) 3).raise (16 + 2 * r + p) (portPage r p)
  let u := (t.setPort r p { t.port r p with inProgress := 0, bareSlots := 0, slotSets := 0, reqAt := none }).timingDown r p
  let c := u.rc r
  u.setRc r { c with exch := c.exch.filter (fun e => e.1 != p), linkE := if p = 0 then none else c.linkE,
                     linkW := if p = 1 then none else c.linkW, outOfService := c.outOfService.filter (· != p) }

theorem leaveUp_eq (s : State) (r p n : Nat) : s.leaveUp r p n = (s.leftUp r p n).rcPortDown r p := rfl

/-- The holdover of the clock touches RGA_STATUS alone. -/
theorem reg_timingDown_ne {a : Nat} (h : a ≠ rRGA_STATUS r) : (s.timingDown r p).reg a = s.reg a := by
  unfold State.timingDown
  split
  · exact reg_setReg_ne _ _ h
  · rfl

theorem raises_timingDown : (s.timingDown r p).raises = s.raises := by
  unfold State.timingDown
  split <;> rfl

/-- Beside the state and the count a port that leaves UP touches its interrupts and the clock's RGA_STATUS. -/
theorem reg_leftUp (n : Nat) {a : Nat} (hclock : a ≠ rRGA_STATUS r) (hirq : a ≠ rPG_IRQ_STAT (portPage r p)) :
    (s.leftUp r p n).reg a = ((s.setPortState r p n).inc (rRGA_CNT_DOWN r p)).reg a :=
  (reg_timingDown_ne hclock).trans (reg_setReg_ne _ _ hirq)

theorem portState_leftUp {n : Nat} (hn : n < 8) : (s.leftUp r p n).portState r p = n := by
  have hleft : (s.leftUp r p n).portState r p = ((s.setPortState r p n).inc (rRGA_CNT_DOWN r p)).portState r p :=
    get_congr _ (reg_leftUp n (by dsimp only [rRGA_PORT_STATE, rRGA_STATUS]; omega) (by dsimp only [rRGA_PORT_STATE, rPG_IRQ_STAT]; omega))
  have hcount : rRGA_PORT_STATE r p ≠ rRGA_CNT_DOWN r p := by dsimp only [rRGA_PORT_STATE, rRGA_CNT_DOWN]; omega
  exact hleft.trans ((portState_setReg_ne _ hcount).trans (portState_setPortState hn))

theorem reg_leftUp_down (n : Nat) : (s.leftUp r p n).reg (rRGA_CNT_DOWN r p) = s.reg (rRGA_CNT_DOWN r p) + 1 := by
  have hstate : rRGA_CNT_DOWN r p ≠ rRGA_PORT_STATE r p := by dsimp only [rRGA_PORT_STATE, rRGA_CNT_DOWN]; omega
  rw [reg_leftUp n (by dsimp only [rRGA_CNT_DOWN, rRGA_STATUS]; omega) (by dsimp only [rRGA_CNT_DOWN, rPG_IRQ_STAT]; omega), reg_inc, if_pos rfl]
  exact congrArg (· + toW 1) (reg_setReg_ne _ _ hstate)

theorem raises_leftUp (n : Nat) : (s.leftUp r p n).raises = s.raises ++ [{ source := 16 + 2 * r + p, page := portPage r p }] :=
  raises_timingDown

theorem linkDelay_leftUp (n : Nat) (hp : p < 2) : (s.leftUp r p n).linkDelay r p = none := by
  have hport : p = 0 ∨ p = 1 := by omega
  unfold State.linkDelay State.leftUp
  rcases hport with rfl | rfl <;> simp

theorem mem_leftUp (n : Nat) : (s.leftUp r p n).mem = s.mem := by
  have hkeeps : Keeps true s (s.leftUp r p n) := Keeps.refl.setPortState.inc.irq.raise.setPort.timingDown.setRc
  exact (hkeeps.stores rfl).1

end LeavingUp

/-! ### The statement -/

/-- Settles O11: each event's rule for a port that is UP, the module's removal, remote fault, and the state before ring control is told. That a
TRAIN set takes an UP port to DOWN is log entry 15. -/
theorem portsLeaveUpAndReportIt : Obligations.PortsLeaveUpAndReportIt := by
  refine ⟨fun s r p => ⟨?lock, ?ber, ?misplaced, ?train, ?slip, ?retrain, ?absent⟩, fun s r p => ⟨?remote, rfl⟩, fun s r p n hn => ?left⟩
  case lock => exact fun hup => congrArg (finish s) (blockLockLost_up hup)
  case ber => exact fun w hup hhigh hprbs => congrArg (finish s) (berWindowEnd_high hup hhigh hprbs)
  case misplaced => exact fun hup => congrArg (finish s) (block0_misplaced hup)
  case train =>
    intro o t hup hkind
    have hawake : pWake ≤ s.portState r p := isUp_iff.1 hup ▸ by decide
    exact congrArg (finish s) ((ordSetIn_train hawake hkind).trans (trainSet_up hup t))
  case slip => exact fun fill hup hup' hlocked hfill => congrArg (finish s) (slip_above hup hup' hlocked hfill)
  case retrain => exact fun q v ha hretrain hup => exec_writeReg_accepted rfl ha (portCmdFx_retrain hretrain hup)
  case absent =>
    intro los txFault hpresent hstate
    have hstate' : (s.moduleAbsent r p txFault los).portState r p = pWake := (portState_moduleAbsent ..).trans hstate
    exact ⟨s.moduleAbsent r p txFault los, hstate', port_moduleAbsent .., congrArg (finish s) (pinChange_absent hpresent hstate)⟩
  case remote => exact fun hup hnew => congrArg (finish s) (remoteFault_up hup hnew)
  case left =>
    exact ⟨s.leftUp r p n, leaveUp_eq .., portState_leftUp hn, reg_leftUp_down n, raises_leftUp n, linkDelay_leftUp n p.isLt, mem_leftUp n⟩

end Sys2Proof.Machine
end

section
/-! PROOF. Reception of ring frames (R67, R68), what a port sends in a slot (R56, R60, R70), module accesses (R82), the loop pad and the
transmit clock (R58, R61, R69). -/
namespace Sys2Proof.Machine

/-! ### Reception (R67, R68) -/

section Reception

variable {s : State} {r p : Nat} {f : Frame}

/-- A frame block ends what R57 counts of slots with nothing of its own in block 0. -/
def State.frameBegun (s : State) (r p : Nat) : State := s.setPort r p { s.port r p with bareSlots := 0 }

/-- A header with a wrong CRC is counted and raised. -/
theorem ringFrame_badHeader (hup : s.isUp r p = true) (harmed : s.armed (ringPage r) 2 = none) (hcrc : f.headerCrc ≠ f.crcWanted)
    (crc : Word) (t : TailKind) (sub : Nat) :
    s.ringFrame r p f crc t sub = ((s.frameBegun r p).inc (rRGA_CNT_HDR_CRC r p)).raise (20 + r) := by
  have harmed' : ((s.frameBegun r p).armed (ringPage r) 2).isSome = false := congrArg Option.isSome harmed
  unfold State.ringFrame
  rw [if_neg (by simp [hup])]
  exact (if_neg (ne_true_of_eq_false harmed')).trans (if_pos (bne_iff_ne.2 hcrc))

/-- A well-formed frame with a sound trailer is counted as received and goes through the table of R67. -/
theorem ringFrame_sound (hup : s.isUp r p = true) (harmed : s.armed (ringPage r) 2 = none) (hcrc : f.headerCrc = f.crcWanted)
    (hformed : malformed p f = false) (sub : Nat) : let u := (s.frameBegun r p).inc (rRGA_CNT_RX_FRAMES r p)
    s.ringFrame r p f f.trailer .clean sub = u.routeFrame r p f f.trailer .clean .sound (u.rawStamp sub) ((u.base 0).total + sub) := by
  have harmed' : ((s.frameBegun r p).armed (ringPage r) 2).isSome = false := congrArg Option.isSome harmed
  have htail : tailClass f f.trailer .clean = .sound := if_pos rfl
  unfold State.ringFrame
  rw [if_neg (by simp [hup])]
  refine (if_neg (ne_true_of_eq_false harmed')).trans ((if_neg (by simp [hcrc])).trans ((if_neg (by simp [hformed])).trans ?_))
  rw [htail]
  rfl

variable (crc : Word) (t : TailKind) (tc : TailClass) (ic tb : Nat)

/-- A frame of this hub's own is counted as returned. -/
theorem routeFrame_own (hown : s.nodeId r = some f.src) : s.routeFrame r p f crc t tc ic tb = s.inc (rRGA_CNT_RETURNED r p) := if_pos hown

/-- A frame for this node is taken off. -/
theorem routeFrame_here (hown : s.nodeId r = some f.dest) (hsrc : f.dest ≠ f.src) :
    s.routeFrame r p f crc t tc ic tb = s.takeOff r p f tc ic tb :=
  (if_neg (by simp [hown, hsrc])).trans (if_pos hown)

/-- A frame for another station of the ring passes: it has expired with hops 0, and else is forwarded. -/
theorem routeFrame_passes (hsrc : s.nodeId r ≠ some f.src) (hdest : s.nodeId r ≠ some f.dest) (hall : f.dest ≠ s.ringNo r * 256 + 255)
    (hcross : s.crosses r (f.dest / 256) = false) :
    s.routeFrame r p f crc t tc ic tb = if f.hops = 0 then s.inc (rRGA_CNT_EXPIRED r p) else s.forward r p f crc t ic := by
  unfold State.routeFrame
  simp [hsrc, hdest, hall, hcross]

/-- A sound frame is sent on with its trailer and tail as they came (R72). -/
theorem forward_sound : s.forward r p f f.trailer .clean ic = (s.inc (rRGA_CNT_TRANSIT r p)).transmit r (1 - p)
    { frame := forwardFrame f ((s.linkDelay r p).getD 0), tail := .clean, crc := f.trailer, since := some (s.rxStamp r p ic) } := by
  have htail : tailOut f f.trailer .clean = (f.trailer, .clean) := by simp [tailOut, tailClass]
  unfold State.forward
  rw [htail]

end Reception

/-! ### The slot start (R56, R60, R70) -/

section SlotStart

variable {s : State} {x p slot sub : Nat}

/-- The slot as it begins: noted, and with a bank swap that was due. -/
def State.slotBegun (s : State) (x p slot : Nat) : State := (s.noteSlot x p slot).swapDue x slot

/-- A lane without PRBS31 carries the port's slots. -/
theorem slotFill_eq (hprbs : bitOf ((s.slotBegun x p slot).reg (rRGA_PORT_TEST x p)) 0 = false) : let u := s.slotBegun x p slot
    s.slotFill x p slot sub =
      if 0 < (u.port x p).inProgress then (u.setPort x p { u.port x p with inProgress := (u.port x p).inProgress - 1 }).emit (.lane x p .cont)
      else (u.pick x p slot).1.elim ((u.pick x p slot).2.sendQuiet x p slot) ((u.pick x p slot).2.startSlot x p slot sub) := by
  have hlane : ¬ (decide (pWake ≤ (s.slotBegun x p slot).portState x p) && bitOf ((s.slotBegun x p slot).reg (rRGA_PORT_TEST x p)) 0) = true := by
    simp [hprbs]
  refine (if_neg hlane).trans (ite_congr rfl (fun _ => rfl) fun _ => ?_)
  unfold State.slotBegun
  generalize State.pick _ x p slot = picked
  obtain ⟨e, u⟩ := picked
  cases e <;> rfl

/-- With no frame in progress the port starts what it picks, and else sends a quiet slot. -/
theorem slotFill_picks (hprbs : bitOf ((s.slotBegun x p slot).reg (rRGA_PORT_TEST x p)) 0 = false)
    (hfree : ((s.slotBegun x p slot).port x p).inProgress = 0) {e : Option Queued} {u : State} (hpick : (s.slotBegun x p slot).pick x p slot = (e, u)) :
    s.slotFill x p slot sub = e.elim (u.sendQuiet x p slot) (u.startSlot x p slot sub) := by
  rw [slotFill_eq hprbs, if_neg (Nat.not_lt.2 hfree.le), hpick]

/-- With no timetable the transit buffer is served first. -/
theorem pick_transit {t : Queued} {rest : List Queued} (htable : s.ttValid x = false) (htransit : (s.port x p).transit = t :: rest)
    (hopen : s.unreserved x slot t.frame.slots = true) :
    s.pick x p slot = (some t, (s.setPort x p { s.port x p with transit := rest }).showTransit x p) := by
  unfold State.pick
  simp [htable, htransit, hopen]

/-- With nothing waiting nothing is picked. -/
theorem pick_nothing (htable : s.ttValid x = false) (htransit : (s.port x p).transit = []) (hlocal : (s.port x p).localQ = []) :
    s.pick x p slot = (none, s) := by
  have hnext : s.nextLocal x p slot = none := by simp [State.nextLocal, hlocal]
  unfold State.pick State.pickLocal
  simp [htable, htransit, hnext]

/-- The quiet slot of a port in UP is an empty slot with its SLOT set. -/
theorem sendQuiet_up (hup : s.isUp x p = true) (hprbs : bitOf (s.reg (rRGA_PORT_TEST x p)) 0 = false) :
    s.sendQuiet x p slot = s.emit (.lane x p (.empty (s.slotValue x slot))) := by
  have hquiet : s.quietSlot x p slot = some (.empty (s.slotValue x slot)) := by simp [State.quietSlot, isUp_iff.1 hup, hprbs]
  unfold State.sendQuiet
  rw [hquiet]

/-- A frame of class 1 to 3 that is not of kind 0x8 starts with what leaving makes of it. -/
theorem startSlot_leaves {e : Queued} (hmay : s.mayLeave x p e.frame = true) (hcls : (s.leaving x p sub e).frame.cls ≠ 0)
    (hkind : (s.leaving x p sub e).frame.kind ≠ 8) :
    s.startSlot x p slot sub e = s.startFrame x p (s.leaving x p sub e).frame (s.leaving x p sub e).crc (s.leaving x p sub e).tail := by
  unfold State.startSlot
  simp [hmay, hcls, hkind]

end SlotStart

/-! ### Module accesses, loop pad (R61, R69, R82) -/

section Modules

variable {s : State} {r p : Nat}

/-- A read that is started while no access is in progress goes on the module's bus. -/
theorem modAccFx_reads {v : Word} (hidle : s.flag (rRGA_MOD_ACC r) fRGA_MOD_ACC_go = false) (hgo : bitOf v 31 = true) (hread : bitOf v 30 = false) :
    modAccFx r v s = ((s.store (rRGA_MOD_ACC r) v).put (rRGA_MOD_ACC r) fRGA_MOD_ACC_go 1).emit
      (.modBus r (fldOf v fRGA_MOD_ACC_port) (fldOf v fRGA_MOD_ACC_device) (fldOf v fRGA_MOD_ACC_address) none) := by
  unfold modAccFx
  simp [hidle, hgo, hread, State.store]

/-- A pad that waits takes effect at a port in UP. -/
theorem padApply_waiting (hpad : (s.port r p).padPending = true) (hup : s.isUp r p = true) :
    let n := s.get (rRGA_PORT_PAD r p) fRGA_PORT_PAD_pad
    let t := s.setPort r p { s.port r p with padForce := n, padPending := false }
    s.padApply r p = (t.put (rRGA_PORT_STATE r p) fRGA_PORT_STATE_elastic_now
      (t.get (rRGA_PORT_STATE r p) fRGA_PORT_STATE_elastic_now + n - (s.port r p).padForce)).noteDelay r p :=
  if_pos (by simp [hpad, hup])

end Modules

/-! ### The statement -/

/-- Settles O12: a frame goes through the checks and the table of R67; a slot carries on, starts what is picked, or is quiet; the module access, the
pad and the clock each by their own rule. -/
theorem ringFramesAndSlots : Obligations.RingFramesAndSlots := by
  refine ⟨fun s r p f sub => ?frames, fun s x p slot sub => ?slots, fun s r p => ⟨?access, ?read, fun hpad hup => ?pad, rfl⟩⟩
  case frames =>
    intro s0 hup harmed
    refine ⟨fun hcrc crc t => congrArg (finish s) (ringFrame_badHeader hup harmed hcrc crc t sub), fun hcrc hformed => ?_⟩
    intro s1 ic
    have hroute := ringFrame_sound hup harmed hcrc hformed sub
    refine ⟨fun hown => ?_, fun hown hsrc => ?_, fun hsrc hdest hall hcross => ?_⟩
    · exact congrArg (finish s) (hroute.trans (routeFrame_own _ _ _ _ _ hown))
    · exact congrArg (finish s) (hroute.trans (routeFrame_here _ _ _ _ _ hown hsrc))
    · have hpass := hroute.trans (routeFrame_passes _ _ _ _ _ hsrc hdest hall hcross)
      exact ⟨fun hops => congrArg (finish s) (hpass.trans (if_pos hops)),
        fun hops => congrArg (finish s) (hpass.trans ((if_neg hops).trans (forward_sound _)))⟩
  case slots =>
    intro s1 hprbs
    refine ⟨fun hbusy => congrArg (finish s) ((slotFill_eq hprbs).trans (if_pos hbusy)), ?empty, ?transit⟩
    case empty =>
      intro hfree htable htransit hlocal hup
      exact congrArg (finish s) ((slotFill_picks hprbs hfree (pick_nothing htable htransit hlocal)).trans (sendQuiet_up hup hprbs))
    case transit =>
      intro t rest hfree htable htransit hopen s2 e hmay hcls hkind
      exact congrArg (finish s) ((slotFill_picks hprbs hfree (pick_transit htable htransit hopen)).trans (startSlot_leaves hmay hcls hkind))
  case access => exact fun q v ha hidle hgo hread => exec_writeReg_accepted rfl ha (modAccFx_reads hidle hgo hread)
  case read =>
    intro data hgo hread
    exact congrArg (finish s) ((if_pos hgo).trans (congrArg (State.irq · (modulePage r) 4) (if_neg (by simp [hread]))))
  case pad => exact congrArg (finish s) (padApply_waiting hpad hup)

end Sys2Proof.Machine
end

section
/-! PROOF. Ring control begins and elects (R89, R91 to R93, R122, R125): what a message or an event does once ring control is enabled, claims, settle,
elect_timeout and the bits of RCTL_CMD. -/
namespace Sys2Proof.Machine

/-! ### Commands of ring control -/

/-- A command of ring control acts while its block is enabled. -/
theorem exec_ringControl {s t : State} {c : Instr} {f : State → State} (hc : exec c s = finish s (s.ifOn 0x28 f)) (hon : s.enabled 0x28 = true)
    (h : f s = t) : exec c s = .next (s.finished t) := by
  rw [hc, State.ifOn_on hon, h, finish_eq]

/-- A command of ring control changes nothing while its block is disabled. -/
theorem exec_ringControl_off {s : State} {c : Instr} {f : State → State} (hc : exec c s = finish s (s.ifOn 0x28 f)) (hoff : s.enabled 0x28 = false) :
    exec c s = .next (s.finished s) := by
  rw [hc, State.ifOn_off hoff, finish_eq]

/-- Taking a message out of the inbox leaves the registers. -/
@[simp] theorem regs_popInbox (s : State) (x code : Nat) : (s.popInbox x code).regs = s.regs := by
  unfold State.popInbox
  dsimp only
  split <;> rfl

theorem ringNo_popInbox (s : State) (x code : Nat) : (s.popInbox x code).ringNo x = s.ringNo x := by
  unfold State.ringNo
  rw [get_congr _ (reg_congr (regs_popInbox ..) _), get_congr _ (reg_congr (regs_popInbox ..) _)]

/-- The word 2^k has the bit k alone. -/
theorem bitOf_two_pow {k : Nat} (hk : k < 32) (j : Nat) : bitOf (toW (2 ^ k)) j = decide (j = k) := by
  have hsmall : 2 ^ k < 2 ^ 32 := Nat.pow_lt_pow_right (by decide) hk
  unfold bitOf toW
  rw [BitVec.toNat_ofNat, Nat.mod_eq_of_lt hsmall, Nat.testBit_two_pow]
  exact decide_eq_decide.2 eq_comm

section Election

variable {s : State} {x p : Nat}

/-! ### Enabling an attachment (R89) -/

/-- An attachment whose enable stays as it was goes on. -/
theorem rcEnableChange_same {was : Bool} (h : s.rcEnabled x = was) : s.rcEnableChange x was = s := by
  subst h
  simp [State.rcEnableChange]

/-- An attachment that is enabled, with its ring number configured, starts. -/
theorem rcEnableChange_enables (hnow : s.rcEnabled x = true) (hring : s.ringNo x ≠ 1023) : s.rcEnableChange x false = s.rcStart x := by
  simp [State.rcEnableChange, hnow, hring]

/-- Ring control in OFF goes to ELECT with kept = 0 and cause 1 when everything that it waits for is there. -/
theorem rcStart_off (hoff : s.rcState x = rcOff) (hnow : s.rcEnabled x = true) (hon : s.enabled 0x28 = true) (hring : s.ringNo x ≠ 1023)
    (hup : (s.isUp x 0 || s.isUp x 1) = true) : s.rcStart x = s.enterElect x false 1 :=
  if_pos (by simp [hoff, State.rcOn, hnow, hon, hring, hup])

/-- A write of RCTL_CTRL that enables attachment 0 alone starts it. -/
theorem rctlCtrlFx_enables {v : Word} (hwas : s.rcEnabled 0 = false) : let t := s.store rRCTL_CTRL v
    t.rcEnabled 0 = true → t.rcState 0 = rcOff → t.enabled 0x28 = true → t.ringNo 0 ≠ 1023 → (t.isUp 0 0 || t.isUp 0 1) = true →
    (t.enterElect 0 false 1).rcEnabled 1 = s.rcEnabled 1 → rctlCtrlFx v s = t.enterElect 0 false 1 := by
  intro t hnow hoff hon hring hup hother
  have hstart : t.rcEnableChange 0 (s.rcEnabled 0) = t.enterElect 0 false 1 := by
    rw [hwas, rcEnableChange_enables hnow hring, rcStart_off hoff hnow hon hring hup]
  unfold rctlCtrlFx
  dsimp only
  rw [hstart, rcEnableChange_same hother]

/-! ### Claims (R91, R92) -/

section Claims

variable {m : ClaimMsg} {step : Int} {pad : Nat}

/-- A CLAIM of another ring raises source 26 and does nothing else. -/
theorem claimIn_foreign (hring : m.ring ≠ s.ringNo x) : s.claimIn x p m step pad = s.raise 26 := if_pos (bne_iff_ne.2 hring)

/-- A CLAIM of the own ring in ELECT. -/
theorem claimIn_elect (hring : m.ring = s.ringNo x) (hstate : s.rcState x = rcElect) : s.claimIn x p m step pad =
    if m.readyMaster && !s.flag (rRCTL_STATUS x) fRCTL_STATUS_kept then
      ((s.setRc x { s.rc x with best := max (s.rc x).best m.claim, bestReady := true }).setMaster x m.claim m.master).setRcState x rcAwait
    else if m.unnumbered && s.flag (rRCTL_STATUS x) fRCTL_STATUS_kept then s
    else s.adoptClaim x m :=
  (if_neg (by simp [hring])).trans (if_pos hstate)

/-- A higher claim that names no ready master is adopted and sent on. -/
theorem claimIn_higher (hring : m.ring = s.ringNo x) (hstate : s.rcState x = rcElect) (hready : m.readyMaster = false)
    (hnumbered : m.unnumbered = false) (hhigher : (s.rc x).best < m.claim) :
    s.claimIn x p m step pad = (s.setRc x { s.rc x with best := m.claim, bestReady := false }).sendClaim x := by
  rw [claimIn_elect hring hstate, if_neg (by simp [hready]), if_neg (by simp [hnumbered])]
  exact (if_pos hhigher).trans (by rw [hready])

/-- The claim of a ready master leads to AWAIT unless numbers are kept. -/
theorem claimIn_readyMaster (hring : m.ring = s.ringNo x) (hstate : s.rcState x = rcElect) (hready : m.readyMaster = true)
    (hkept : s.flag (rRCTL_STATUS x) fRCTL_STATUS_kept = false) : s.claimIn x p m step pad =
      ((s.setRc x { s.rc x with best := max (s.rc x).best m.claim, bestReady := true }).setMaster x m.claim m.master).setRcState x rcAwait := by
  rw [claimIn_elect hring hstate, if_pos (by simp [hready, hkept])]

end Claims

/-! ### Settle and elect_timeout (R89, R93) -/

/-- The hub whose own eligible claim is best takes the ring over, or starts counting. -/
theorem settle_wins (hstate : s.rcState x = rcElect) (hbest : (s.rc x).best = s.ownClaim) (heligible : s.get rRCTL_CFG fRCTL_CFG_priority ≠ 0) :
    s.settle x = if s.flag (rRCTL_STATUS x) fRCTL_STATUS_kept then s.takeover x else s.startCount x :=
  if_pos (by simp [hstate, hbest, heligible])

/-- elect_timeout in COUNT, NUMBER or AWAIT starts a new election. -/
theorem electTimeout_later (hstate : s.rcState x = rcCount ∨ s.rcState x = rcNumber ∨ s.rcState x = rcAwait) :
    s.electTimeout x = s.enterElect x (s.flag (rRCTL_STATUS x) fRCTL_STATUS_kept) 8 := by
  unfold State.electTimeout
  rcases hstate with h | h | h <;> simp [h]

/-- elect_timeout in ELECT does so too, and with no eligible claim heard of it raises source 24 or 25. -/
theorem electTimeout_elect (hstate : s.rcState x = rcElect) : let t := if (s.rc x).best / 2 ^ 128 = 0 then s.raise (24 + x) else s
    s.electTimeout x = t.enterElect x (s.flag (rRCTL_STATUS x) fRCTL_STATUS_kept) 8 := by
  unfold State.electTimeout
  simp only [hstate, decide_true, Bool.true_or, Bool.true_and, if_true, decide_eq_true_eq]
  split <;> rfl

/-! ### RCTL_CMD (R125) -/

section Commands

variable {v : Word}

/-- The bit elect of a master's attachment leads to ELECT with kept = 1. -/
theorem rctlCmdFx_elect (hx : x < 2) (hbits : ∀ j, bitOf v j = decide (j = x)) (hmaster : s.rcState x = rcMaster) :
    rctlCmdFx v s = s.enterElect x true 3 := by
  obtain rfl | rfl : x = 0 ∨ x = 1 := by omega
  all_goals simp [rctlCmdFx, hbits, hmaster]

/-- The bit renumber of a master's attachment leads to ELECT with kept = 0, its ring no longer ready. -/
theorem rctlCmdFx_renumber (hx : x < 2) (hbits : ∀ j, bitOf v j = decide (j = x + 2)) (hmaster : s.rcState x = rcMaster) :
    rctlCmdFx v s = (s.ringReadyClear x).enterElect x false 4 := by
  obtain rfl | rfl : x = 0 ∨ x = 1 := by omega
  all_goals simp [rctlCmdFx, hbits, hmaster]

/-- SLEEP as a master broadcasts it: its ring has two epochs left (R120). -/
def State.commandSleep (s : State) (x : Nat) : State :=
  if s.rcState x = rcMaster then (s.setRc x { s.rc x with sleepEpochs := some 2 }).sendRouted x 0x9 255 (sleepOctets false) else s

/-- The bit sleep acts at each attachment. -/
theorem rctlCmdFx_sleep (hbits : ∀ j, bitOf v j = decide (j = 4)) : rctlCmdFx v s = (s.commandSleep 0).commandSleep 1 := by
  unfold rctlCmdFx State.commandSleep
  simp [hbits]

/-- The bit reset alone sends RESET with the hub's own key to the station of RCTL_CMD_ARG. -/
theorem rctlCmdFx_reset (hothers : ∀ k, k < 5 → bitOf v k = false) (hreset : bitOf v 5 = true) :
    let t := s.get rRCTL_CMD_ARG fRCTL_CMD_ARG_station
    rctlCmdFx v s = s.sendRouted 0 0x9 t (resetOctets t (s.reg rRCTL_RESET_KEY)) := by
  unfold rctlCmdFx
  simp [hothers, hreset]

end Commands

end Election

/-! ### The statement -/

/-- Settles O13: enabling, claims, settle and elect_timeout by their own rules, and the bits of RCTL_CMD one by one. -/
theorem electionRunsByItsEvents : Obligations.ElectionRunsByItsEvents := by
  refine fun s x p => ⟨?enables, ?disabled, fun hon hstate => exec_ringControl rfl hon (if_pos hstate), fun m step pad hon => ?claim, ?settle,
    fun hon hstate => exec_ringControl rfl hon (electTimeout_later hstate), fun hon hstate => exec_ringControl rfl hon (electTimeout_elect hstate),
    ?elect, ?renumber, ?sleep, ?reset⟩
  case enables =>
    exact fun q v ha hwas hnow hoff hon hring hup hother =>
      exec_writeReg_accepted rfl ha (rctlCtrlFx_enables hwas hnow hoff hon hring hup hother)
  case disabled =>
    exact fun hoff => ⟨exec_ringControl_off rfl hoff, fun _ _ _ => exec_ringControl_off rfl hoff, exec_ringControl_off rfl hoff,
      exec_ringControl_off rfl hoff⟩
  case claim =>
    exact ⟨fun hring => exec_ringControl rfl hon (claimIn_foreign hring),
      fun hring hstate hready hnumbered hhigher => exec_ringControl rfl hon (claimIn_higher hring hstate hready hnumbered hhigher),
      fun hring hstate hready hkept => exec_ringControl rfl hon (claimIn_readyMaster hring hstate hready hkept)⟩
  case settle =>
    intro hon hstate hbest heligible
    have hwins := settle_wins hstate hbest heligible
    exact ⟨fun hkept => exec_ringControl rfl hon (hwins.trans (if_neg (by simp [hkept]))),
      fun hkept => exec_ringControl rfl hon (hwins.trans (if_pos hkept))⟩
  case elect => exact fun q ha hmaster => exec_writeReg_accepted rfl ha (rctlCmdFx_elect x.isLt (bitOf_two_pow (by omega)) hmaster)
  case renumber =>
    have hpow : 4 * 2 ^ x.val = 2 ^ (x.val + 2) := by ring
    rw [hpow]
    exact fun q ha hmaster => exec_writeReg_accepted rfl ha (rctlCmdFx_renumber x.isLt (bitOf_two_pow (by omega)) hmaster)
  case sleep => exact fun q ha => exec_writeReg_accepted rfl ha (rctlCmdFx_sleep (bitOf_two_pow (k := 4) (by decide)))
  case reset => exact fun q ha => exec_writeReg_accepted rfl ha (rctlCmdFx_reset (by decide) (by decide))

end Sys2Proof.Machine
end

section
/-! PROOF. Counting, numbering and link delays of a ring (R94 to R97). Which copy of END, DELAY_REQ and DELAY_RESP acts is log entry 17. -/
namespace Sys2Proof.Machine

section Numbering

variable {s : State} {x p : Nat}

/-! ### COUNT and END (R94) -/

/-- The COUNT of this hub closes the ring with one hub more than it passed. -/
theorem countIn_own {passed uid : Nat} (hown : uid = s.uid) (hstate : s.rcState x = rcCount) (hroom : passed < 255) :
    s.countIn x p passed (arrivalPath p) uid = s.countDone x (passed + 1) false 0 := by
  unfold State.countIn
  simp [hown, hstate, hroom.ne]

/-- The COUNT of another hub in ELECT is relayed, or answered by END where the other port is not UP. -/
theorem countIn_other {passed uid : Nat} (hother : uid ≠ s.uid) (hstate : s.rcState x = rcElect) (hroom : passed < 255) :
    s.countIn x p passed (arrivalPath p) uid =
      s.sendLocal x 0x8 (countOctets (if s.isUp x (1 - p) then 0x02 else 0x03) (passed + 1) (arrivalPath p) uid) := by
  have hcount : satInc 255 passed = passed + 1 := by simp [satInc, hroom]
  unfold State.countIn
  simp [hother, hstate, hcount]

/-- The END of another hub in ELECT goes back. -/
theorem endIn_other {passed path uid : Nat} (hback : path ≠ arrivalPath p) (hother : uid ≠ s.uid) (hstate : s.rcState x = rcElect) :
    s.endIn x p passed path uid = s.sendLocal x 0x8 (countOctets 0x03 passed path uid) := by
  unfold State.endIn
  simp [hback, hother, hstate]

/-- The END of this hub on path 0 gives the count of that end. -/
theorem endIn_own {passed uid : Nat} (hback : 0 ≠ arrivalPath p) (hown : uid = s.uid) (hstate : s.rcState x = rcCount) :
    s.endIn x p passed 0 uid = (s.setRc x { s.rc x with end0 := some passed }).checkEnds x := by
  unfold State.endIn
  simp [hback, hown, hstate]

/-! ### NUMBER and REPORT (R95, R97) -/

/-- A NUMBER is held until the link delay of its port is known. -/
theorem numberIn_held {m : NumberMsg} (hunknown : s.linkDelay x p = none) :
    s.numberIn x p m = s.setRc x { s.rc x with heldNumber := (s.rc x).heldNumber ++ [(p, m)] } :=
  if_neg (by simp [hunknown])

/-- A REPORT in NUMBER is kept with its station's UID. -/
theorem reportIn_number {m : Report} (hstate : s.rcState x = rcNumber) : s.reportIn x m =
    (s.setRc x { s.rc x with uids := (m.station, m.uid) :: (s.rc x).uids.filter (fun e => e.1 != m.station),
                             reports := m :: (s.rc x).reports.filter (fun e => e.station != m.station) }).checkReports x := by
  unfold State.reportIn
  simp [hstate]

/-! ### Link delays (R96) -/

/-- The DELAY_REQ of a port that is UP is sent. -/
theorem exec_delayReqSend {x p : Fin 2} (hon : s.enabled 0x28 = true) (hup : s.isUp x p = true) (hrc : s.rcEnabled x = true) :
    exec (.delayReqSend x p) s = .next (s.finished (s.sendLocal x 0x8 (delayReqOctets (arrivalPath p)))) :=
  exec_ringControl rfl hon (if_pos (by simp [hup, hrc]))

/-- The first response to a request keeps twice the measured delay. -/
theorem delayIn_first {t1 t2 t3 stamp : Nat} (hup : s.isUp x p = true) (hasked : (s.port x p).reqAt = some t1) (hfirst : (s.rc x).exch = []) :
    s.delayIn x p (arrivalPath p) t2 t3 stamp = (s.setPort x p { s.port x p with reqAt := none }).setRc x
      { s.rc x with exch := [(p, s.rxStamp x p stamp - ((t1 : Int) * 10 + s.txComp (2 * x + p)) - ((t3 : Int) - t2) * 10)] } := by
  have hrc : ∀ y, (s.setPort x p y).rc x = s.rc x := fun _ => rfl
  unfold State.delayIn
  simp [hup, hasked, hrc, hfirst]

end Numbering

/-! ### The statement -/

/-- Settles O14: each message by its own rule, the block enabled. The copies of END, DELAY_REQ and DELAY_RESP that act are those of log entry 17. -/
theorem countingAndNumbering : Obligations.CountingAndNumbering := by
  refine fun s x p hon => ⟨fun passed uid => ?count, fun passed path uid hback => ?ends, fun m => ?number,
    fun hup hrc => exec_delayReqSend hon hup hrc, ?request, ?response, fun m hstate => exec_ringControl rfl hon (reportIn_number hstate)⟩
  case count =>
    refine ⟨fun hown hstate hroom => exec_ringControl rfl hon (countIn_own hown hstate hroom), fun hother hstate hup hroom => ?_,
      fun hother hstate hdown hroom => ?_⟩
    · exact exec_ringControl rfl hon ((countIn_other hother hstate hroom).trans (by rw [if_pos hup]))
    · exact exec_ringControl rfl hon ((countIn_other hother hstate hroom).trans (by rw [if_neg (by simp [hdown])]))
  case ends =>
    refine ⟨fun hother hstate => exec_ringControl rfl hon (endIn_other hback hother hstate), fun hown hstate hpath => ?_⟩
    subst hpath
    exact exec_ringControl rfl hon (endIn_own hback hown hstate)
  case number =>
    exact ⟨fun hunknown => exec_ringControl rfl hon (numberIn_held hunknown), fun hknown => exec_ringControl rfl hon (if_pos hknown)⟩
  case request =>
    intro path src stamp s1 htake hback
    refine exec_ringControl rfl hon ?_
    rw [htake]
    exact if_neg hback
  case response =>
    intro t1 t2 t3 src stamp s1 htake hup hasked hfirst
    refine exec_ringControl rfl hon ?_
    rw [htake]
    exact delayIn_first hup hasked hfirst

end Sys2Proof.Machine
end

section
/-! PROOF. Ready rings, beacons and broken spans (R89, R98, R101, R107, R109, R112, R115): what showing the loops leaves alone, then each message. -/
namespace Sys2Proof.Machine

section Spans

variable {s : State} {x : Nat}

/-! ### What pads and loops leave alone -/

@[simp] theorem rc_put (a : Nat) (f : Fld) (v i : Nat) : (s.put a f v).rc i = s.rc i := rfl
@[simp] theorem rc_raise (n pg i : Nat) : (s.raise n pg).rc i = s.rc i := rfl
@[simp] theorem rc_showOpen (y i : Nat) : (s.showOpen y).rc i = s.rc i := rfl

@[simp] theorem rc_writePad (r p n i : Nat) : (s.writePad r p n).rc i = s.rc i := by
  unfold State.writePad
  dsimp only
  split <;> rfl

theorem rc_ttbCause (f : Fld) (i : Nat) : (s.ttbCause f).rc i = s.rc i := by
  unfold State.ttbCause
  split
  · rfl
  · exact (rc_raise ..).trans (rc_put ..)

theorem reg_ttbCause_ne (f : Fld) {a : Nat} (ha : a ≠ rTTB_FAULT_CAUSE) : (s.ttbCause f).reg a = s.reg a := by
  unfold State.ttbCause
  split
  · rfl
  · exact reg_setReg_ne s _ ha

/-- The check of spacing shows its outcome in TTB_STATUS, and a flow too close to another in TTB_FAULT_CAUSE. -/
theorem spacingRecheck_cases : s.spacingRecheck x = s.put (rTTB_STATUS x) fTTB_STATUS_spacing_stale 0 ∨
    s.spacingRecheck x = (s.put (rTTB_STATUS x) fTTB_STATUS_spacing_stale 1).ttbCause fTTB_FAULT_CAUSE_spacing_stale := by
  unfold State.spacingRecheck
  exact ite_eq_or_eq ..

/-- It touches no ring control. -/
theorem rc_spacingRecheck (i : Nat) : (s.spacingRecheck x).rc i = s.rc i := by
  rcases spacingRecheck_cases (s := s) (x := x) with h | h <;> rw [h]
  · exact rc_put ..
  · exact (rc_ttbCause _ i).trans (rc_put ..)

/-- Among the registers it touches the two that its outcome shows in. -/
theorem reg_spacingRecheck_ne {a : Nat} (hstatus : a ≠ rTTB_STATUS x) (hcause : a ≠ rTTB_FAULT_CAUSE) :
    (s.spacingRecheck x).reg a = s.reg a := by
  rcases spacingRecheck_cases (s := s) (x := x) with h | h <;> rw [h]
  · exact reg_setReg_ne _ _ hstatus
  · exact (reg_ttbCause_ne _ hcause).trans (reg_setReg_ne _ _ hstatus)

/-- The word that RCTL_x_LOOP shows for two loops: 0 while the ring is open. -/
def State.loopWord (s : State) (x l0 l1 : Nat) : Word :=
  if s.flag (rRCTL_STATUS x) fRCTL_STATUS_open then 0 else toW (l1 % 65536 * 65536 + l0 % 65536)

theorem setLoops_eq (s : State) (x l0 l1 : Nat) : s.setLoops x l0 l1 =
    if s.loopWord x l0 l1 = s.reg (rRCTL_LOOP x) then s else (s.setReg (rRCTL_LOOP x) (s.loopWord x l0 l1)).spacingRecheck x := rfl

@[simp] theorem rc_setLoops (l0 l1 i : Nat) : (s.setLoops x l0 l1).rc i = s.rc i := by
  rw [setLoops_eq]
  split
  · rfl
  · exact (rc_spacingRecheck i).trans (rc_setReg ..)

/-- A write of another register leaves the state of ring control. -/
theorem rcState_setReg_ne {a : Nat} (w : Word) (h : rRCTL_STATUS x ≠ a) : (s.setReg a w).rcState x = s.rcState x :=
  get_congr _ (reg_setReg_ne s w h)

/-- Loops leave the state of ring control. -/
theorem rcState_setLoops (hx : x < 2) (l0 l1 : Nat) : (s.setLoops x l0 l1).rcState x = s.rcState x := by
  have hchanged (w : Word) : ((s.setReg (rRCTL_LOOP x) w).spacingRecheck x).rcState x = s.rcState x :=
    (get_congr _ (reg_spacingRecheck_ne (by dsimp only [rRCTL_STATUS, rTTB_STATUS]; omega)
      (by dsimp only [rRCTL_STATUS, rTTB_FAULT_CAUSE]; omega))).trans (rcState_setReg_ne w (by dsimp only [rRCTL_STATUS, rRCTL_LOOP]; omega))
  rw [setLoops_eq]
  split
  · rfl
  · exact hchanged _

/-- What a restored span shows leaves the state of ring control. -/
theorem rcState_restoreSpan (b : Broken) : (s.restoreSpan x b).rcState x = s.rcState x := by
  have hspan : rRCTL_STATUS x ≠ rRCTL_SPAN x := by dsimp only [rRCTL_STATUS, rRCTL_SPAN]; omega
  have hirq : rRCTL_STATUS x ≠ rPG_IRQ_STAT 0x28 := by dsimp only [rRCTL_STATUS, rPG_IRQ_STAT]; omega
  have hopen (t : State) : (t.showOpen x).rcState x = t.rcState x := get_put_other _ _ _ _ _ (by decide) (by decide) (by decide)
  unfold State.restoreSpan State.showSpan
  dsimp only
  refine (rcState_setReg_ne _ hirq).trans ((hopen _).trans ?_)
  split
  · exact rcState_setReg_ne _ hspan
  · split <;> exact rcState_setReg_ne _ hspan

theorem rcState_setRcState {n : Nat} (hn : n < 8) : (s.setRcState x n).rcState x = n :=
  (get_put_same _ _ _ _ (by decide) (by decide)).trans (Nat.mod_eq_of_lt hn)

/-! ### READY (R89, R98) -/

variable {m : ReadyMsg}

/-- What the first READY leaves in ring control: the pads named and no broken span. -/
theorem rc_readyTake_first : ((s.readyTake x m true).rc x).pads = m.pads ∧ ((s.readyTake x m true).rc x).broken = [] := by
  unfold State.readyTake
  dsimp only
  rw [rc_setLoops]
  simp only [↓reduceIte, Bool.true_and]
  split_ifs <;> simp

/-- The READY of an open ring brings a member the count, the pads and the loops. -/
theorem readyTake_open (hopen : m.openRing = true) : let t := s.setCount x m.n
    s.readyTake x m false =
      ((t.setRc x { t.rc x with openNum := true, pads := m.pads, tookOver := false }).showOpen x).setLoops x m.loop0 m.loop1 := by
  unfold State.readyTake
  simp [hopen]

/-- The member that a READY in AWAIT makes, its ring not yet shown as ready. -/
def State.member (s : State) (x slot : Nat) : State :=
  let t := s.setRcState x rcMember
  let u : State := if x = t.timeAtt || !t.flag (rRCTL_STATUS t.timeAtt) fRCTL_STATUS_ring_ready then { t with slot := slot } else t
  u.setRc x { u.rc x with misses := 0 }

theorem becomeMember_eq (slot : Nat) : s.becomeMember x slot = (s.member x slot).ringReadySet x := rfl

theorem rcState_member (slot : Nat) : (s.member x slot).rcState x = rcMember := by
  have hset : (s.setRcState x rcMember).rcState x = rcMember := rcState_setRcState (by decide)
  unfold State.member
  dsimp only
  split <;> exact hset

theorem rc_member (slot : Nat) : (s.member x slot).rc x = { s.rc x with misses := 0 } := by
  unfold State.member
  dsimp only
  rw [rc_setRc]
  split <;> rfl

/-- READY takes a numbered station in AWAIT to MEMBER. -/
theorem readyIn_await (hstate : s.rcState x = rcAwait) (hnumbered : (s.rc x).numbered = true) (slot : Nat) :
    s.readyIn x m slot = ((s.readyTake x m true).member x slot).ringReadySet x := by
  unfold State.readyIn
  simp [hstate, hnumbered, becomeMember_eq]

/-- A numbered member that did not take part in a takeover takes what READY brings. -/
theorem readyIn_member (hstate : s.rcState x = rcMember) (hnumbered : (s.rc x).numbered = true) (htook : (s.rc x).tookOver = false) (slot : Nat) :
    s.readyIn x m slot = s.readyTake x m false := by
  unfold State.readyIn
  simp [hstate, hnumbered, htook]

/-! ### Beacons (R101, R115) -/

/-- The beacon of the master of a member is not missed. -/
theorem beaconIn_master {b : BeaconMsg} (hstate : s.rcState x = rcMember) (hplain : b.takeover = false) (hclaim : b.claim = (s.rc x).masterClaim) :
    s.beaconIn x b = s.setRc x { s.rc x with misses := 0 } := by
  unfold State.beaconIn
  simp [hstate, hplain, hclaim]

/-- A missed beacon is counted, or the last one that a member may miss leads to ELECT. -/
theorem beaconMiss_member (hstate : s.rcState x = rcMember) : s.beaconMiss x =
    if (s.rc x).misses + 1 < max 1 (s.get rRCTL_TIMERS fRCTL_TIMERS_beacon_miss) then s.setRc x { s.rc x with misses := (s.rc x).misses + 1 }
    else (s.enterElect x true 2).raise 28 :=
  if_neg (by simp [hstate])

/-! ### BREAK and HEALED (R109, R112) -/

theorem onRing_member (hstate : s.rcState x = rcMember) : s.onRing x = true := by simp [State.onRing, hstate]

/-- HEALED at a member that holds no span out of service. -/
theorem healedIn_member (hx : x < 2) {b : Broken} (l0 l1 : Nat) (hstate : s.rcState x = rcMember) (hhold : s.flag rRCTL_EXP fRCTL_EXP_hold_span = false) :
    let t := s.restoreSpan x b
    let stay := (t.rc x).outOfService.filter (fun p => !((p = 0 && s.healedPort x b 0) || (p = 1 && s.healedPort x b 1)))
    s.healedIn x b l0 l1 = (t.setRc x { t.rc x with outOfService := stay }).setLoops x l0 l1 := by
  intro t stay
  have hmember : ((t.setRc x { t.rc x with outOfService := stay }).setLoops x l0 l1).rcState x = rcMember :=
    (rcState_setLoops hx ..).trans ((rcState_restoreSpan b).trans hstate)
  unfold State.healedIn
  rw [if_neg (by simp [onRing_member hstate]), if_neg (by simp [hhold])]
  refine if_neg fun h => ?_
  have hmaster : ((t.setRc x { t.rc x with outOfService := stay }).setLoops x l0 l1).rcState x = rcMaster :=
    of_decide_eq_true (Bool.and_eq_true_iff.1 h).2
  exact absurd (hmember.symm.trans hmaster) (by decide)

end Spans

/-! ### The statement -/

/-- Settles O15: each message by its own rule, the block enabled. That the loops of HEALED are operands is log entry 31. -/
theorem readyBeaconsAndSpans : Obligations.ReadyBeaconsAndSpans := by
  refine fun s x hon => ⟨fun m slot => ?ready, fun m slot => ?open_, fun hmaster hkept => ?send,
    fun m hstate hplain hclaim => exec_ringControl rfl hon (beaconIn_master hstate hplain hclaim),
    fun hstate hfew => exec_ringControl rfl hon ((beaconMiss_member hstate).trans (if_pos hfew)),
    fun hstate hmany => exec_ringControl rfl hon ((beaconMiss_member hstate).trans (if_neg (Nat.not_lt.2 hmany))),
    fun b hstate => exec_ringControl rfl hon (if_pos (onRing_member hstate)),
    fun b l0 l1 hstate hhold => exec_ringControl rfl hon (healedIn_member x.isLt l0 l1 hstate hhold)⟩
  case ready =>
    intro s1 hstate hnumbered
    obtain ⟨hpads, hbroken⟩ := rc_readyTake_first (s := s1) (x := x) (m := m)
    refine ⟨(s1.readyTake x m true).member x slot, exec_ringControl rfl hon (readyIn_await hstate hnumbered slot), rcState_member slot, ?_⟩
    rw [rc_member]
    exact ⟨rfl, hpads, hbroken⟩
  case open_ =>
    exact fun hstate hnumbered htook hopen =>
      exec_ringControl rfl hon ((readyIn_member hstate hnumbered htook slot).trans (readyTake_open hopen))
  case send => exact exec_ringControl rfl hon (if_pos (by simp [hmaster, hkept]))

end Sys2Proof.Machine
end

section
/-! PROOF. Members of a ring (R92, R102, R103, R113, R119, R120, R122): joining, demotion, sleep, RESET and the ring tree. -/
namespace Sys2Proof.Machine

section Members

variable {s : State} {x : Nat}

/-! ### Joining (R103) -/

/-- The master gives a joiner whose place is not known the lowest free number. -/
theorem join_new {station side uid k : Nat} (hmaster : s.rcState x = rcMaster) (hfresh : s.joining x uid = none)
    (hplace : s.vacancy x station side = none) (hfree : s.lowestFree x = some k) :
    let t := s.put (rRCTL_STATUS x) fRCTL_STATUS_order_broken 1
    let u := (t.setRc x { t.rc x with uids := (k, uid) :: (t.rc x).uids.filter (fun e => e.1 != k) }).setCount x (max (t.rc x).count (k + 1))
    station ≠ u.station x → s.join x station side uid = (u.sendRouted x 0x9 station (assignOctets k station uid)).keptPass x := by
  intro t u hother
  unfold State.join
  rw [if_neg (by simp [hmaster])]
  simp only [hfresh, hplace, hfree]
  exact congrArg (State.keptPass · x) (if_neg hother)

/-- The hub that ASSIGN names takes the number. -/
theorem assignIn_named (station neighbour : Nat) (hstate : s.rcState x = rcMember) : s.assignIn x station neighbour s.uid = s.takeNumber x station := by
  unfold State.assignIn
  simp [hstate]

/-! ### Demotion (R113) -/

theorem demoteIn_member (m : DemoteMsg) (hstate : s.rcState x = rcMember) : s.demoteIn x m = s.setRc x { s.rc x with demote := some m } := by
  unfold State.demoteIn
  simp [hstate]

/-- Without a DEMOTE the effect slot passes. -/
theorem demoteEffect_none (hnone : (s.rc x).demote = none) : s.demoteEffect x = s := by
  unfold State.demoteEffect
  simp [hnone]

/-- At the effect slot of a DEMOTE the hub is a member of the master that it names. -/
theorem demoteEffect_member {m : DemoteMsg} (hstate : s.rcState x = rcMember) (hdemote : (s.rc x).demote = some m) :
    let u := (((s.demoteTo x m).gridStep x m).inc (rRCTL_CNT_DEMOTE x)).irq 0x28 7
    let v := u.timedFlows.foldl (fun s e => s.setReadmit e.1 true) u
    s.demoteEffect x = if (v.rc x).outOfService.isEmpty then v else v.sendClaim x := by
  unfold State.demoteEffect
  simp only [hstate, hdemote]
  rfl

/-! ### Sleep (R120) -/

/-- SLEEP at a member sets or clears the two epochs, and is answered by VETO where sleep_veto is set. -/
theorem sleepIn_member (cancel : Bool) (hstate : s.rcState x = rcMember) :
    let t := (s.setRc x { s.rc x with sleepEpochs := if cancel then none else some 2 }).irq 0x28 8
    s.sleepIn x cancel = if !cancel && t.flag rRCTL_CTRL fRCTL_CTRL_sleep_veto then
      t.sendRouted x 0x9 (t.get (rRCTL_MASTER x) fRCTL_MASTER_master_station) (vetoOctets (t.station x)) else t :=
  if_neg (by simp [hstate])

theorem vetoIn_inTime (hmaster : s.rcState x = rcMaster) (hsleep : (s.rc x).sleepEpochs = some 2) :
    s.vetoIn x = (s.setRc x { s.rc x with sleepEpochs := none }).sendRouted x 0x9 255 (sleepOctets true) :=
  if_pos (by simp [hmaster, hsleep])

/-! ### RESET (R122) -/

/-- A RESET for this station resets the hub where the key is right and resets from afar are enabled, and else is counted as bad. -/
theorem resetIn_here (key : Word) (hnumbered : (s.rc x).numbered = true) : s.resetIn x (s.station x) key =
    if s.flag rRCTL_CTRL fRCTL_CTRL_remote_reset_en && key = s.reg rRCTL_RESET_KEY then s.warmReset 0x13 else s.inc rRCTL_CNT_BAD_MSG :=
  if_pos (by simp [hnumbered])

/-! ### The ring tree (R119) -/

theorem treeIn_member (level : Nat) (hstate : s.rcState x = rcMember) :
    s.treeIn x level = ((s.put (rRCTL_TREE x) fRCTL_TREE_joined 1).put (rRCTL_TREE x) fRCTL_TREE_level level).irq 0x28 9 :=
  if_pos (by simp [hstate])

/-- A bridge whose upper ring is joined and whose lower ring is ready sends TREE below unless the level is above 8. -/
theorem treeOut_bridge (hbridge : s.isBridge = true) (hjoined : s.flag (rRCTL_TREE (1 - s.lowerAtt)) fRCTL_TREE_joined = true)
    (hready : s.flag (rRCTL_STATUS s.lowerAtt) fRCTL_STATUS_ring_ready = true) : let l := s.get (rRCTL_TREE (1 - s.lowerAtt)) fRCTL_TREE_level + 1
    s.treeOut = if 8 < l then s.raise 29
      else (s.sendRouted s.lowerAtt 0x9 255 (treeOctets l (s.ringNo (1 - s.lowerAtt)))).treeIn s.lowerAtt l :=
  if_pos (by simp [hbridge, hjoined, hready])

end Members

/-! ### The statements -/

/-- Settles O16: each message by its own rule, the block enabled. -/
theorem membersActOnRingMessages : Obligations.MembersActOnRingMessages := by
  refine fun s x hon => ⟨fun station side uid k => ?join, fun station neighbour hstate => exec_ringControl rfl hon (assignIn_named _ _ hstate),
    fun m hstate => exec_ringControl rfl hon (demoteIn_member m hstate), fun hnone => exec_ringControl rfl hon (demoteEffect_none hnone),
    fun m hstate hdemote => exec_ringControl rfl hon (demoteEffect_member hstate hdemote), fun cancel => ?sleep,
    fun station hmaster hsleep => exec_ringControl rfl hon (vetoIn_inTime hmaster hsleep), fun hstate => ?sleepSet, fun key => ?reset,
    fun level upper hstate => exec_ringControl rfl hon (treeIn_member level hstate), fun hbridge hjoined hready => ?tree⟩
  case join =>
    exact fun hmaster hfresh hplace hfree hother => exec_ringControl rfl hon (join_new hmaster hfresh hplace hfree hother)
  case sleep =>
    intro s1 hstate t
    have hsleep : s1.sleepIn x cancel = _ := sleepIn_member cancel hstate
    refine ⟨fun hno => exec_ringControl rfl hon (hsleep.trans (if_neg ?_)), fun hveto hset => exec_ringControl rfl hon (hsleep.trans (if_pos ?_))⟩
    · exact fun h => Bool.false_ne_true (hno.symm.trans (Bool.and_eq_true_iff.1 h).2)
    · subst hset
      exact hveto
  case sleepSet => exact exec_ringControl rfl hon (if_neg (by simp [hstate]))
  case reset =>
    intro s1 hnumbered hremote
    have hhere := resetIn_here key hnumbered
    exact ⟨fun hkey => exec_ringControl rfl hon (hhere.trans (if_pos (by simp [hremote, hkey]))),
      fun hkey => exec_ringControl rfl hon (hhere.trans (if_neg (by simp [hkey])))⟩
  case tree =>
    have hout := treeOut_bridge hbridge hjoined hready
    exact ⟨fun hlevel => exec_ringControl rfl hon (hout.trans (if_neg (Nat.not_lt.2 hlevel))),
      fun hlevel => exec_ringControl rfl hon (hout.trans (if_pos hlevel))⟩

/-- Settles O17: the ring number of a CLAIM is checked first, the key of a RESET before anything is reset, and RCTL_CMD sends the hub's own key. -/
theorem ringNumberAndResetKeyAreChecked : Obligations.RingNumberAndResetKeyAreChecked := by
  refine fun s x p => ⟨fun m step pad hon hring => ?claim, fun key => ?reset,
    fun q v ha hothers hreset => exec_writeReg_accepted rfl ha (rctlCmdFx_reset hothers hreset)⟩
  case claim => exact exec_ringControl rfl hon (claimIn_foreign (by rwa [ringNo_popInbox]))
  case reset =>
    intro s1 hon hnumbered
    have hhere := resetIn_here key hnumbered
    exact ⟨fun hright => exec_ringControl rfl hon (hhere.trans (if_pos (by simpa using hright))),
      fun hwrong => exec_ringControl rfl hon (hhere.trans (if_neg (by simpa using hwrong)))⟩

end Sys2Proof.Machine
end

section
/-! PROOF. Time messages (R96, R225, R227, R229, R234, R235) and the stamping unit (R224, R237 to R243). That the 20 ns of R238 run from the last
edge captured is log entry 40. -/
namespace Sys2Proof.Machine

section TimeMessages

variable {s : State} {x p : Nat}

/-! ### SYNC and UPLINK (R229) -/

/-- A time message of a code to a station of the ring, presented at FP14. -/
def State.sendTime (s : State) (x me code station : Nat) : State :=
  ({ s with servo := { s.servo with seq0 := (s.servo.seq0 + 1) % 65536 } } : State).present 14
    (mkFrame 7 1 0 0 0 (s.ringNo x * 256 + station) me 0xF4F0 s.servo.seq0 (s.timePayload code))

/-- A numbered station of a ready ring sends SYNC as its master, or UPLINK as a bridge on its lower ring. -/
theorem syncSend_ready {me : Nat} (hme : s.nodeId x = some me) (hready : s.flag (rRCTL_STATUS x) fRCTL_STATUS_ring_ready = true)
    (hon : s.enabled 0x40 = true) (hsync : s.flag (rTB_EXP 0) fTB_EXP_sync_off = false) : s.syncSend x =
      if s.rcState x = rcMaster then s.sendTime x me 1 255
      else if s.isBridge && x = s.lowerAtt then s.sendTime x me 2 (s.get (rRCTL_MASTER x) fRCTL_MASTER_master_station) else s := by
  unfold State.syncSend
  rw [hme]
  exact if_neg (by simp [hready, hon, hsync])

/-! ### Messages that Anise takes (R96, R225) -/

/-- A delivered message that is not marked to be dropped leaves the outbox and acts. -/
theorem takeTime_delivered {tunnel : Bool} {f : Frame} {o : Option Nat} {d : Delivered} {ic tb : Nat} (hfound : s.timeFrame tunnel x p f o = some d)
    (hrx : d.rx = some (ic, tb)) (hkeep : d.discard = false) (sub : Nat) : let t := s.setOutbox 14 ((s.outbox 14).erase d)
    t.enabled 0x40 = true → s.takeTime tunnel x p f o sub = t.timeIn x p f ic tb sub := by
  intro t hon
  unfold State.takeTime
  rw [hfound]
  dsimp only
  rw [hrx]
  exact if_neg (by simp [hkeep, hon, t])

section Delivery

variable {f : Frame} {ic tb sub : Nat}

/-- A message of another version is counted. -/
theorem timeIn_version (hversion : nthD f.payload 1 0 ≠ 1) : s.timeIn x p f ic tb sub = s.inc (rTB_CNT_BAD 0) :=
  if_pos (by rw [bne_iff_ne.2 hversion]; rfl)

/-- A message of version 1 with a defined code waits for the link delay of its port, and else acts by its code. -/
theorem timeIn_defined {code : Nat} (hversion : nthD f.payload 1 0 = 1) (hcode : (nthD f.payload 0 0).toNat = code) (hlo : 1 ≤ code) (hhi : code ≤ 3) :
    s.timeIn x p f ic tb sub =
      if (s.linkDelay x p).isNone then s.setRc x { s.rc x with heldTime := (s.rc x).heldTime ++ [(p, f, ic, tb)] }
      else if code = 3 then s.actTunnel x p f ic sub else s.actTime x p f tb := by
  unfold State.timeIn
  rw [hcode, hversion]
  exact if_neg (by simp; omega)

end Delivery

/-- A residence that waits under its sequence number is dropped and counted. -/
theorem tcOrphan_found {seq : Nat} {r : Residence} (hfound : s.servo.residences.find? (fun r => r.seq = seq) = some r) :
    s.tcOrphan seq = ({ s with servo := { s.servo with residences := s.servo.residences.erase r } } : State).inc rTSU_CNT_TC_ORPHAN := by
  unfold State.tcOrphan
  rw [hfound]

end TimeMessages

/-! ### Event units (R238, R239, R243) -/

section EventUnits

variable {s : State} {u : Nat}

/-- A fold whose steps leave the state at every element but one that occurs once is that element's step. -/
theorem foldl_eq_of_unique {α β : Type} {f : β → α → β} {a : α} {l : List α} (hmem : a ∈ l) (hnodup : l.Nodup)
    (hskip : ∀ b, ∀ c ∈ l, c ≠ a → f b c = b) (b : β) : l.foldl f b = f b a := by
  have hfixed : ∀ m : List α, m ⊆ l → a ∉ m → ∀ b, m.foldl f b = b := by
    intro m hsub ha b
    rw [List.foldl_ext f (fun b _ => b) b fun b c hc => hskip b c (hsub hc) fun h => ha (h ▸ hc)]
    exact List.foldl_fixed' (fun _ => rfl) m
  obtain ⟨l₁, l₂, rfl⟩ := List.append_of_mem hmem
  obtain ⟨h₁, h₂⟩ : a ∉ l₁ ∧ a ∉ l₂ := by
    rw [List.nodup_middle, List.nodup_cons, List.mem_append, not_or] at hnodup
    exact hnodup.1
  rw [List.foldl_append, List.foldl_cons, hfixed l₁ (by simp) h₁, hfixed l₂ (by simp) h₂]

/-- A unit whose time lies ahead of its base does not fire late. -/
theorem fireLate_ahead (hahead : (s.base (s.unitBase u)).total < s.compareTime u) : s.fireLate u = s :=
  if_neg (by simp [hahead])

/-- What a write of TSU_ARM does with unit j. -/
def State.armUnit (v : Word) (s : State) (j : Nat) : State :=
  let t := if bitOf v j && s.get (rTSU_EVT_CFG j) fTSU_EVT_CFG_mode = 2 then (s.put (rTSU_EVT_STATUS j) fTSU_EVT_STATUS_armed 1).fireLate j else s
  if bitOf v (16 + j) then t.put (rTSU_EVT_STATUS j) fTSU_EVT_STATUS_armed 0 else t

theorem tsuArmFx_eq (v : Word) (s : State) : tsuArmFx v s = (List.range 16).foldl (State.armUnit v) s := rfl

/-- A write of an event unit's status leaves the other registers. -/
theorem reg_putStatus_ne (f : Fld) (v : Nat) {a : Nat} (ha : a ≠ rTSU_EVT_STATUS u) : (s.put (rTSU_EVT_STATUS u) f v).reg a = s.reg a :=
  reg_setReg_ne s _ ha

theorem compareTime_putStatus (f : Fld) (v : Nat) : (s.put (rTSU_EVT_STATUS u) f v).compareTime u = s.compareTime u := by
  unfold State.compareTime State.get
  rw [reg_putStatus_ne f v (by dsimp only [rTSU_EVT_SEC_HI, rTSU_EVT_STATUS]; omega),
    reg_putStatus_ne f v (by dsimp only [rTSU_EVT_SEC_LO, rTSU_EVT_STATUS]; omega),
    reg_putStatus_ne f v (by dsimp only [rTSU_EVT_NS, rTSU_EVT_STATUS]; omega)]

theorem unitBase_putStatus (f : Fld) (v : Nat) : (s.put (rTSU_EVT_STATUS u) f v).unitBase u = s.unitBase u :=
  get_congr _ (reg_putStatus_ne f v (by dsimp only [rTSU_EVT_CFG, rTSU_EVT_STATUS]; omega))

/-- A unit in compare mode whose time lies ahead is armed, and nothing else. -/
theorem tsuArmFx_ahead (hu : u < 16) (hmode : s.get (rTSU_EVT_CFG u) fTSU_EVT_CFG_mode = 2)
    (hahead : (s.base (s.unitBase u)).total < s.compareTime u) :
    tsuArmFx (toW (2 ^ u)) s = s.put (rTSU_EVT_STATUS u) fTSU_EVT_STATUS_armed 1 := by
  have hbits := bitOf_two_pow (k := u) (by omega)
  have hlate : (s.put (rTSU_EVT_STATUS u) fTSU_EVT_STATUS_armed 1).fireLate u = s.put (rTSU_EVT_STATUS u) fTSU_EVT_STATUS_armed 1 :=
    fireLate_ahead (by rw [unitBase_putStatus, compareTime_putStatus]; exact hahead)
  have hskip (t : State) (j : Nat) (hj : j ∈ List.range 16) (hne : j ≠ u) : State.armUnit (toW (2 ^ u)) t j = t := by
    have hdisarm : 16 + j ≠ u := by omega
    simp [State.armUnit, hbits, hne, hdisarm]
  have harm : State.armUnit (toW (2 ^ u)) s u = s.put (rTSU_EVT_STATUS u) fTSU_EVT_STATUS_armed 1 := by
    have hdisarm : 16 + u ≠ u := by omega
    simp [State.armUnit, hbits, hmode, hlate]
  rw [tsuArmFx_eq, foldl_eq_of_unique (List.mem_range.2 hu) List.nodup_range hskip, harm]

/-- A unit that compares fires once its base has reached its time. -/
theorem eventCompare_runs (hruns : s.islandRuns = true) (hcomparing : s.comparing u = true) : let now := (s.base (s.unitBase u)).total
    s.eventCompare u = if s.compareTime u ≤ now then s.fireUnit u now (s.servo.lateUnits.contains u) else s := by
  unfold State.eventCompare
  simp [hruns, hcomparing]

/-- The state in which unit u has captured an edge, `sub` nanoseconds after the tick. -/
def State.captured (s : State) (u sub : Nat) (rising : Bool) : State :=
  ({ s with servo := { s.servo with
      cap := s.servo.cap ++ [captureItem u (s.unitBase u) ((s.base (s.unitBase u)).total + sub) (s.pinEdge u rising) s.servo.capLost],
      capLost := false, edgeAt := spSet (fun _ => 0) s.servo.edgeAt u (s.servo.island + sub + 1) } } : State).irq 0x44 2

/-- A selected edge is lost within 20 ns of the last or with the FIFO full, and else captured. -/
theorem eventCapture_selected {sub : Nat} {rising : Bool} (hon : s.enabled 0x44 = true) (hruns : s.islandRuns = true)
    (harmed : s.armed 0x44 1 = none) (hpin : s.eventPin u = true) (hmode : s.get (rTSU_EVT_CFG u) fTSU_EVT_CFG_mode = 1)
    (hedge : (s.get (rTSU_EVT_CFG u) fTSU_EVT_CFG_edge).testBit (if s.pinEdge u rising then 0 else 1) = true) :
    let last := spGet (fun _ => 0) s.servo.edgeAt u
    s.eventCapture u sub rising =
      if last != 0 && s.servo.island + sub + 1 < last + 20 then s.incSat rTSU_CAP_STATUS fTSU_CAP_STATUS_lost
      else if 64 ≤ s.servo.cap.length then
        ((({ s with servo := { s.servo with capLost := true } } : State).incSat rTSU_CAP_STATUS fTSU_CAP_STATUS_lost).irq 0x44 3).raise 31
      else s.captured u sub rising := by
  have hmode' : fldOf (s.reg (rTSU_EVT_CFG u)) fTSU_EVT_CFG_mode = 1 := hmode
  have hedge' : (if s.pinEdge u rising then (fldOf (s.reg (rTSU_EVT_CFG u)) fTSU_EVT_CFG_edge).testBit 0
      else (fldOf (s.reg (rTSU_EVT_CFG u)) fTSU_EVT_CFG_edge).testBit 1) = true := by
    rw [← apply_ite (Nat.testBit _)]
    exact hedge
  unfold State.eventCapture
  dsimp only
  rw [hedge', if_neg (by simp [hon, hruns, hpin, hmode']), harmed]
  rfl

/-- A pop shows the item in the high word and the replay registers. -/
theorem tsuCapPop_cons {n : Nat} {l : List Nat} (hcap : s.servo.cap = n :: l) : tsuCapPop s =
    some (n, ((({ s with servo := { s.servo with cap := l } } : State).setReg rTSU_CAP_POP_HI (toW (n / 2 ^ 32))).setReg rTSU_CAP_REPLAY (toW n)).setReg
      rTSU_CAP_REPLAY_HI (toW (n / 2 ^ 32))) := by
  unfold tsuCapPop
  rw [hcap]

theorem tsuCapPop_nil (hcap : s.servo.cap = []) : tsuCapPop s = none := by
  unfold tsuCapPop
  rw [hcap]

end EventUnits

/-! ### The statement -/

/-- Settles O28: time messages, event units and snaps each by their own rule. That the 20 ns run from the last edge captured, and that the loss sets no
overflow, is log entry 40; stamps inside a tick are log entry 101. -/
theorem timeMessagesAndEventUnits : Obligations.TimeMessagesAndEventUnits := by
  refine ⟨fun s x => ⟨fun me hme hready hon hsync hactive => ?sync, fun hactive hnew => ?kept, fun tunnel y p f d ic tb sub => ?taken,
    fun seq r hfound => congrArg (finish s) (tcOrphan_found hfound)⟩,
    fun s => ⟨fun q v ha hall => exec_writeReg_accepted rfl ha (if_pos hall),
      fun q u ha hmode hahead => exec_writeReg_accepted rfl ha (tsuArmFx_ahead u.isLt hmode hahead), fun u hruns hcomparing => ?compare,
      fun u rising sub hon hruns harmed hpin hmode hedge => ?capture, ?pop, ?empty⟩⟩
  case sync =>
    have hsend := (anise_done hactive (0, x.val, 0) fun s => s.syncSend x).trans (syncSend_ready hme hready hon hsync)
    exact ⟨fun hmaster => congrArg (finish s) (hsend.trans (if_pos hmaster)),
      fun hother hbridge hlower => congrArg (finish s) (hsend.trans ((if_neg hother).trans (if_pos (by simp [hbridge, hlower]))))⟩
  case kept => exact congrArg (finish s) (anise_kept hactive (by simpa using hnew) _)
  case taken =>
    intro hfound hrx hkeep t c hon run
    have hrun : run = finish s (t.timeIn y p f ic tb (if tunnel then sub else 0)) := by
      cases tunnel with
      | false => exact congrArg (finish s) (takeTime_delivered hfound hrx hkeep 0 hon)
      | true => exact congrArg (finish s) (takeTime_delivered hfound hrx hkeep sub hon)
    refine ⟨fun hversion => hrun.trans (congrArg (finish s) (timeIn_version hversion)), fun hversion hlo hhi hnone => ?_, fun hversion hknown => ?_⟩
    · exact hrun.trans (congrArg (finish s) ((timeIn_defined hversion rfl hlo hhi).trans (if_pos (Option.isNone_iff_eq_none.2 hnone))))
    · have hacts {code : Nat} (hcode : c = code) (hlo : 1 ≤ code) (hhi : code ≤ 3) (sub : Nat) :
          t.timeIn y p f ic tb sub = if code = 3 then t.actTunnel y p f ic sub else t.actTime y p f tb :=
        (timeIn_defined hversion hcode hlo hhi).trans (if_neg (mt Option.isNone_iff_eq_none.1 hknown))
      refine ⟨fun hcode => hrun.trans (congrArg (finish s) ?_), fun hcode htunnel => hrun.trans (congrArg (finish s) ?_)⟩
      · exact (hacts rfl (by omega) (by omega) _).trans (if_neg (by omega))
      · rw [if_pos htunnel]
        exact (hacts hcode (by decide) (by decide) _).trans (if_pos rfl)
  case compare =>
    have hcompare := eventCompare_runs hruns hcomparing
    exact ⟨fun hdue => congrArg (finish s) (hcompare.trans (if_pos hdue)),
      fun hahead => congrArg (finish s) (hcompare.trans (if_neg (Nat.not_le.2 hahead)))⟩
  case capture =>
    intro last near
    have hcapture := eventCapture_selected (sub := sub) hon hruns harmed hpin hmode hedge
    have hnear : (last != 0 && decide (s.servo.island + sub + 1 < last + 20)) = true ↔ near := by simp [near]
    refine ⟨fun h => ?_, fun h hroom => ?_, fun h hfull => ?_⟩
    · exact congrArg (finish s) (hcapture.trans (if_pos (hnear.2 h)))
    · exact congrArg (finish s) (hcapture.trans ((if_neg (mt hnear.1 h)).trans (if_neg (Nat.not_le.2 hroom))))
    · exact congrArg (finish s) (hcapture.trans ((if_neg (mt hnear.1 h)).trans (if_pos hfull)))
  case pop => exact fun q mp wide n l ha hcap => congrArg (finish s) (popRead_some ha wide 0 n tsuCapPop (tsuCapPop_cons hcap))
  case empty => exact fun q mp wide ha hcap => congrArg (finish s) (popRead_none ha wide 0 tsuCapPop (tsuCapPop_nil hcap))

end Sys2Proof.Machine
end

section
/-! PROOF. The fabric at work (R132, R134, R143, R147, R154, R155): frames taken in, rounds, limits, and the fabric's own commands. That a step of a
frozen fabric with no cell waiting makes no round is log entry 99. -/
namespace Sys2Proof.Machine

section Fabric

variable {s : State}

/-! ### Frames and rounds (R132, R134, R147) -/

/-- A frame that the environment presents is taken in unless the input holds its class back or the ingress stage leaves it at its source. -/
theorem frameIngress_presented {i : Nat} {f : Frame} {t : State} (hruns : s.fabRuns = true) (hport : s.fabPort i = true)
    (hopen : s.inputHolds i (s.crossClass i f) = false)
    (htaken : s.ingress i { inp := i, frame := f, discard := false, cipherDone := false, orig := i, level := s.presenterLevel i } = some t) :
    s.frameIngress i (some f) = t :=
  (if_neg (by simp [hruns, hport])).trans ((if_neg (ne_true_of_eq_false hopen)).trans (by rw [htaken, Option.getD_some]))

/-- The next frame of the input's own source leaves it when the ingress stage takes it in. -/
theorem frameIngress_own {i n : Nat} {d : Delivered} {t : State} (hruns : s.fabRuns = true) (hport : s.fabPort i = true)
    (hnext : s.sourceNext i = some n) (hframe : (s.sources i)[n]? = some d) (htaken : (s.dropSource i n).ingress i d = some t) :
    s.frameIngress i none = t.sourceTaken i := by
  refine (if_neg (by simp [hruns, hport])).trans ?_
  simp only [hnext, hframe, htaken]

theorem fabTestStepFx_frozen {v : Word} (hstep : bitOf v 0 = true) (hruns : s.fabRuns = true) (hfrozen : s.flag rFAB_TEST fFAB_TEST_freeze = true) :
    fabTestStepFx v s = s.fabRound := if_pos (by simp [hstep, hfrozen, hruns])

/-! ### High-water marks (R155) -/

/-- The high-water marks of the banks listed are cleared. -/
def State.clearHighWater (s : State) (banks : List Nat) : State := banks.foldl (fun s m => s.put (rFAB_MID_OCC m) fFAB_MID_OCC_high_water 0) s

theorem clearHighWater_cons (m : Nat) (banks : List Nat) :
    s.clearHighWater (m :: banks) = (s.put (rFAB_MID_OCC m) fFAB_MID_OCC_high_water 0).clearHighWater banks := rfl

theorem fabOccCmdFx_clears {v : Word} (hclear : bitOf v 0 = true) : fabOccCmdFx v s = s.clearHighWater (List.range 16) := if_pos hclear

/-- A bank that is cleared, or whose mark is 0 already, ends with the mark 0. -/
theorem highWater_clearHighWater {banks : List Nat} {m : Nat} (h : m ∈ banks ∨ s.get (rFAB_MID_OCC m) fFAB_MID_OCC_high_water = 0) :
    (s.clearHighWater banks).get (rFAB_MID_OCC m) fFAB_MID_OCC_high_water = 0 := by
  induction banks generalizing s with
  | nil => exact h.resolve_left List.not_mem_nil
  | cons k banks ih =>
    rw [clearHighWater_cons]
    apply ih
    by_cases hmk : m = k
    · subst hmk
      exact Or.inr (get_put_same _ _ _ _ (by decide) (by decide))
    · refine h.imp (fun hm => (List.mem_cons.1 hm).resolve_left hmk) fun hzero => ?_
      rw [get_put_ne _ _ _ _ (by dsimp only [rFAB_MID_OCC]; omega), hzero]

theorem used_clearHighWater (banks : List Nat) (m : Nat) :
    (s.clearHighWater banks).get (rFAB_MID_OCC m) fFAB_MID_OCC_used = s.get (rFAB_MID_OCC m) fFAB_MID_OCC_used := by
  induction banks generalizing s with
  | nil => rfl
  | cons k banks ih =>
    rw [clearHighWater_cons, ih]
    by_cases hmk : m = k
    · subst hmk
      exact get_put_other _ _ _ _ _ (by decide) (by decide) (by decide)
    · exact get_put_ne _ _ _ _ (by dsimp only [rFAB_MID_OCC]; omega)

theorem regsBut_clearHighWater (banks : List Nat) : regsBut (banks.map rFAB_MID_OCC) s (s.clearHighWater banks) := by
  induction banks generalizing s with
  | nil => exact fun _ _ => rfl
  | cons k banks ih =>
    intro a ha
    obtain ⟨hk, hrest⟩ := not_or.1 (mt List.mem_cons.2 ha)
    rw [clearHighWater_cons, ih a hrest]
    exact reg_setReg_ne _ _ hk

/-! ### The trace FIFO (R44, R155) -/

theorem fabTracePop_cons {n : Nat} {l : List Nat} (htrace : s.fab.trace = n :: l) : fabTracePop s =
    some (n, ((({ s with fab := { s.fab with trace := l } } : State).setReg rFAB_TRACE_POP_HI (toW (n / 2 ^ 32))).setReg rFAB_TRACE_REPLAY
      (toW n)).setReg rFAB_TRACE_REPLAY_HI (toW (n / 2 ^ 32))) := by
  unfold fabTracePop
  rw [htrace]

theorem fabTracePop_nil (htrace : s.fab.trace = []) : fabTracePop s = none := by
  unfold fabTracePop
  rw [htrace]

end Fabric

/-! ### The statement -/

/-- Settles O20: frames, rounds and limits as they are taken, then the fabric's commands, each by its own rule. -/
theorem fabricForwardsClearsAndPops : Obligations.FabricForwardsClearsAndPops := by
  refine ⟨fun s => ⟨fun i f t hruns hport hopen htaken => congrArg (finish s) (frameIngress_presented hruns hport hopen htaken),
      fun i n d t hruns hport hnext hframe htaken => congrArg (finish s) (frameIngress_own hruns hport hnext hframe htaken),
      fun hruns hthawed => congrArg (finish s) (if_pos (by simp [hruns, hthawed])),
      fun q v ha hstep hruns hfrozen => exec_writeReg_accepted rfl ha (fabTestStepFx_frozen hstep hruns hfrozen),
      fun m hon => congrArg (finish s) (if_pos hon),
      fun q n v ha hfits => exec_writeReg_accepted rfl ha (if_neg (Nat.not_lt.2 hfits)),
      fun q n v ha hover => exec_writeReg_accepted rfl ha (if_pos hover)⟩,
    fun s q => ⟨fun v ha hclear => exec_writeReg_accepted rfl ha (if_pos hclear), fun v ha hclear => ?occ,
      fun mp wide n l ha htrace => congrArg (finish s) (popRead_some ha wide 0 n fabTracePop (fabTracePop_cons htrace)),
      fun mp wide ha htrace => congrArg (finish s) (popRead_none ha wide 0 fabTracePop (fabTracePop_nil htrace))⟩⟩
  case occ =>
    exact ⟨exec_writeReg_accepted rfl ha (fabOccCmdFx_clears hclear),
      fun m => ⟨highWater_clearHighWater (.inl (List.mem_range.2 m.isLt)), used_clearHighWater _ _⟩, regsBut_clearHighWater _⟩

end Sys2Proof.Machine
end

section
/-! PROOF. The pace gauge and its loop (R148 to R152, R156): what a reading records, what it does to the code, and the writes of its registers. What a
manual code does after a failed self-check, and when PG_IRQ_STAT bit 5 is set, are log entry 88. -/
namespace Sys2Proof.Machine

section Pace

variable {s : State}

/-! ### What a reading records (R148 to R151) -/

/-- The self-check of a reading: an armed checker 4, and rings that differ by more than 2 %, fail it. -/
def State.selfChecked (s : State) (b0 b1 : Nat) : State :=
  let inj := (s.armed 0x18 4).isSome
  let s := if inj then (s.disarm 0x18).raiseInj 10 0x18 else s
  let fail := 50 * (max b0 b1 - min b0 b1) > max b0 b1
  let s := if fail then s.raise 10 else s
  if inj || fail then s.put rPACE_CODE fPACE_CODE_selfcheck_failed 1 else s

/-- PACE_BEAT and PACE_BEAT_MIN show a reading. -/
def State.beatShown (s : State) (beat : Nat) : State :=
  let s := (s.put rPACE_BEAT fPACE_BEAT_beat beat).put rPACE_BEAT fPACE_BEAT_beat_max (max beat (s.get rPACE_BEAT fPACE_BEAT_beat_max))
  s.put rPACE_BEAT_MIN fPACE_BEAT_MIN_beat_min (min beat (s.get rPACE_BEAT_MIN fPACE_BEAT_MIN_beat_min))

/-- The breach and warning flags show a reading. -/
def State.beatFlagged (s : State) (beat : Nat) : State :=
  (s.put rPACE_CODE fPACE_CODE_breach (b2n (decide (1000 < beat)))).put rPACE_CODE fPACE_CODE_warning (b2n (decide (s.paceWarn < beat)))

/-- The run without headroom and the counts of the loop follow a reading. -/
def State.loopCounted (s : State) (beat : Nat) : State :=
  let run := decide (900 < beat) && s.paceCode = s.paceMax
  let s := if run && !s.pace.noHead then s.raise 9 else s
  let above := if s.pace.settling || beat ≤ s.get rPACE_THRESH fPACE_THRESH_raise_at then 0 else s.pace.above + 1
  { s with pace := { s.pace with noHead := run, above := above, below := decide (beat < s.get rPACE_THRESH fPACE_THRESH_lower_at) } }

theorem paceNote_eq (s : State) (b0 b1 : Nat) : s.paceNote b0 b1 =
    let beat := max b0 b1 % 65536
    let u := ((s.selfChecked b0 b1).beatShown beat).beatFlagged beat
    (u.setShed (u.shedNext beat).1 (u.shedNext beat).2).loopCounted beat := rfl

@[simp] theorem reg_loopCounted (beat a : Nat) : (s.loopCounted beat).reg a = s.reg a := by
  unfold State.loopCounted
  dsimp only
  split <;> rfl

/-- Beside its field, a shedding level touches interrupts and counts alone. -/
theorem reg_setShed (n : Fin 3) (calm : Nat) {a : Nat} (hfabric : a ≠ rPG_IRQ_STAT 0x10) (hpace : a ≠ rPG_IRQ_STAT 0x18)
    (hbreach : a ≠ rPACE_CNT_BREACH) (hwarn : a ≠ rPACE_CNT_WARN) :
    (s.setShed n calm).reg a = (s.put rPACE_CODE fPACE_CODE_shed_level n).reg a := by
  unfold State.setShed
  dsimp only
  split
  case isTrue => rfl
  case isFalse =>
    have hirq (t : State) : (t.irq 0x10 2).reg a = t.reg a := reg_setReg_ne _ _ hfabric
    split
    case isTrue => exact (reg_setReg_ne _ _ hpace).trans ((reg_setReg_ne _ _ hbreach).trans (hirq _))
    case isFalse =>
      split
      case isTrue => exact (reg_setReg_ne _ _ hpace).trans ((reg_setReg_ne _ _ hwarn).trans (hirq _))
      case isFalse => exact hirq _

theorem beat_beatShown (beat : Nat) : (s.beatShown beat).get rPACE_BEAT fPACE_BEAT_beat = beat % 65536 := by
  unfold State.beatShown
  dsimp only
  rw [get_put_ne _ _ _ _ (by decide), get_put_other _ _ _ _ _ (by decide) (by decide) (by decide)]
  exact get_put_same _ _ _ _ (by decide) (by decide)

theorem breach_beatFlagged (beat : Nat) : (s.beatFlagged beat).flag rPACE_CODE fPACE_CODE_breach = decide (1000 < beat) := by
  unfold State.beatFlagged
  rw [flag_put_other _ _ _ _ _ (by decide) (by decide) (by decide)]
  unfold State.flag
  rw [get_put_same _ _ _ _ (by decide) (by decide)]
  cases decide (1000 < beat) <;> rfl

/-- PACE_BEAT.beat is the slower ring's reading. -/
theorem beat_paceNote (b0 b1 : Nat) : (s.paceNote b0 b1).get rPACE_BEAT fPACE_BEAT_beat = max b0 b1 % 65536 := by
  have hshed (u : State) (n : Fin 3) (calm : Nat) : (u.setShed n calm).reg rPACE_BEAT = u.reg rPACE_BEAT :=
    (reg_setShed n calm (by decide) (by decide) (by decide) (by decide)).trans (reg_setReg_ne _ _ (by decide))
  have hflags (u : State) (beat : Nat) : (u.beatFlagged beat).reg rPACE_BEAT = u.reg rPACE_BEAT :=
    (reg_setReg_ne _ _ (by decide)).trans (reg_setReg_ne _ _ (by decide))
  rw [paceNote_eq]
  dsimp only
  rw [get_congr _ (reg_loopCounted ..), get_congr _ (hshed ..), get_congr _ (hflags ..), beat_beatShown, Nat.mod_mod]

/-- The breach flag says that the reading is above 1,000. -/
theorem breach_paceNote (b0 b1 : Nat) : (s.paceNote b0 b1).flag rPACE_CODE fPACE_CODE_breach = decide (1000 < max b0 b1 % 65536) := by
  have hshed (u : State) (n : Fin 3) (calm : Nat) : (u.setShed n calm).flag rPACE_CODE fPACE_CODE_breach = u.flag rPACE_CODE fPACE_CODE_breach :=
    (flag_congr _ (reg_setShed n calm (by decide) (by decide) (by decide) (by decide))).trans
      (flag_put_other _ _ _ _ _ (by decide) (by decide) (by decide))
  rw [paceNote_eq]
  dsimp only
  rw [flag_congr _ (reg_loopCounted ..), hshed, breach_beatFlagged]

/-! ### What a reading does to the code (R149 to R152) -/

/-- A gauge that is enabled and has its clock records a reading and acts on it. -/
theorem paceReading_runs (b0 b1 : Nat) (hon : s.enabled 0x18 = true) (hruns : s.islandRuns = true) :
    s.paceReading b0 b1 = (s.paceNote b0 b1).paceAct (max b0 b1 % 65536) := if_neg (by simp [hon, hruns])

/-- While loop_en = 0 a reading does nothing to the code. -/
theorem paceAct_frozen {beat : Nat} (hloop : s.paceLoop = false) : s.paceAct beat = s := if_pos (by simp [hloop])

/-- A breach takes the code to max_code at once. -/
theorem paceAct_breach {beat : Nat} (hloop : s.paceLoop = true) (hbreach : 1000 < beat) : s.paceAct beat = s.setCode s.paceMax :=
  (if_neg (by simp [hloop])).trans (if_pos hbreach)

/-- The request of PACE_CMD does not bear on whether the gauge is enabled. -/
theorem enabled_setReg_paceCmd (v : Word) : (s.setReg rPACE_CMD v).enabled 0x18 = s.enabled 0x18 := flag_congr _ (reg_setReg_ne _ _ (by decide))

theorem paceLower_steps (hon : s.enabled 0x18 = true) (hbelow : s.pace.below = true) (hloop : s.paceLoop = true) (hmanual : s.paceManual = false)
    (hcheck : s.flag rPACE_CODE fPACE_CODE_selfcheck_failed = false) (hdip : s.vcoreDip = false) (habove : s.paceMin < s.paceCode) :
    s.paceLower = s.setCode (s.paceCode - 1) := if_pos (by simp [hon, hbelow, hloop, hmanual, hcheck, hdip, habove])

/-! ### Writes of the registers (R149, R151, R156) -/

theorem paceCtrlFx_enables {v : Word} : let t := s.store rPACE_CTRL v
    let c := if t.flag rPACE_CODE fPACE_CODE_selfcheck_failed then t.paceMax else t.nearCode (t.get rPACE_CFG fPACE_CFG_start_code)
    s.paceLoop = false → t.paceLoop = true →
    paceCtrlFx v s = (((t.setCode c).put rPACE_CODE fPACE_CODE_driving 1).driveVcore c).startSettle.applyManual :=
  fun hwas hnow => if_pos (by simp [hwas, hnow])

/-- A write of PACE_CTRL that does not set loop_en anew is stored and no more. -/
theorem paceCtrlFx_stores {v : Word} (h : s.paceLoop = true ∨ (s.store rPACE_CTRL v).paceLoop = false) : paceCtrlFx v s = s.store rPACE_CTRL v := by
  refine if_neg ?_
  rcases h with hwas | hnow
  · simp [hwas]
  · simp [hnow]

theorem paceCfgFx_frozen {v : Word} (hloop : (s.store rPACE_CFG v).paceLoop = false) : paceCfgFx v s = s.store rPACE_CFG v :=
  if_neg (ne_true_of_eq_false hloop)

/-- While loop_en = 1 the code goes to the nearest one within the limits that are stored; a raise starts the settle timer. -/
theorem paceCfgFx_moves {v : Word} : let t := s.store rPACE_CFG v; let n := t.nearCode t.paceCode
    t.paceLoop = true → paceCfgFx v s = (if t.paceCode < n then (t.setCode n).startSettle else t.setCode n).applyManual := fun hloop => if_pos hloop

theorem paceCmdFx_clears {v : Word} (hclear : bitOf v 0 = true) (hread : bitOf v 1 = false) :
    paceCmdFx v s = (s.put rPACE_BEAT fPACE_BEAT_beat_max 0).setReg rPACE_BEAT_MIN 0xFFFF := by
  unfold paceCmdFx
  rw [hread, hclear]
  rfl

end Pace

/-! ### The statement -/

/-- Settles O21: a reading is recorded and then acted on, in turn or out of it; each write of the gauge's registers has its own rule. -/
theorem paceFollowsReadings : Obligations.PaceFollowsReadings := by
  refine fun s => ⟨fun q v ha => ⟨fun hwas hnow => exec_writeReg_accepted rfl ha (paceCtrlFx_enables hwas hnow),
      fun h => exec_writeReg_accepted rfl ha (paceCtrlFx_stores h)⟩, fun b0 b1 hon hruns => ?reading, fun b0 b1 hon hruns => ?outOfTurn, rfl,
    fun hon hbelow hloop hmanual hcheck hdip habove => congrArg (finish s) (paceLower_steps hon hbelow hloop hmanual hcheck hdip habove),
    fun q v ha => ⟨fun hloop => exec_writeReg_accepted rfl ha (paceCfgFx_frozen hloop), ?rise, ?fall⟩,
    fun q v ha hclear hread => exec_writeReg_accepted rfl ha (paceCmdFx_clears hclear hread)⟩
  case reading =>
    have hact := paceReading_runs b0 b1 hon hruns
    exact ⟨fun hloop => congrArg (finish s) (hact.trans (paceAct_frozen hloop)),
      fun hloop hbreach => congrArg (finish s) (hact.trans (paceAct_breach hloop hbreach)), beat_paceNote b0 b1, breach_paceNote b0 b1⟩
  case outOfTurn =>
    have hact := paceReading_runs (s := s.setReg rPACE_CMD 0) b0 b1 ((enabled_setReg_paceCmd 0).trans hon) hruns
    exact ⟨fun hloop => congrArg (finish s) (hact.trans (paceAct_frozen hloop)),
      fun hloop hbreach => congrArg (finish s) (hact.trans (paceAct_breach hloop hbreach))⟩
  case rise =>
    exact fun hloop hrise => exec_writeReg_accepted rfl ha ((paceCfgFx_moves hloop).trans (congrArg State.applyManual (if_pos hrise)))
  case fall =>
    exact fun hloop hfall => exec_writeReg_accepted rfl ha
      ((paceCfgFx_moves hloop).trans (congrArg State.applyManual (if_neg (Nat.not_lt.2 hfall))))

end Sys2Proof.Machine
end

section
/-! PROOF. Flow commands (R161, R164, R165): the word of FLOW_CMD, which command it runs, the codes, and what a create leaves. That a command stops
the write-back of its own flow short is log entry 83 (State.flowRuns); that a create takes the lowest free slot is log entry 34. -/
namespace Sys2Proof.Machine

section FlowCommands

variable {s : State} {op f : Nat}

/-! ### The command word -/

theorem toNat_flowCmdWord (hop : op < 16) : (flowCmdWord op f).toNat = 2 ^ 31 + op * 2 ^ 16 + f % 2 ^ 16 := by
  unfold flowCmdWord toW
  rw [BitVec.toNat_ofNat]
  omega

theorem op_flowCmdWord (hop : op < 16) : fldOf (flowCmdWord op f) fFLOW_CMD_op = op := by
  change natBits (flowCmdWord op f).toNat 19 16 = op
  rw [natBits, toNat_flowCmdWord hop, Nat.shiftRight_eq_div_pow]
  omega

theorem flowId_flowCmdWord (hop : op < 16) (hf : f < 0x10000) : fldOf (flowCmdWord op f) fFLOW_CMD_flow_id = f := by
  change natBits (flowCmdWord op f).toNat 15 0 = f
  rw [natBits, toNat_flowCmdWord hop, Nat.shiftRight_eq_div_pow]
  omega

/-- The word of a command sets go. -/
theorem go_flowCmdWord (hop : op < 16) : bitOf (flowCmdWord op f) 31 = true := by
  unfold bitOf
  rw [toNat_flowCmdWord hop, Nat.testBit_eq_decide_div_mod_eq, decide_eq_true_eq]
  omega

/-! ### The command that runs -/

/-- The command of an op code on a flow. -/
def State.flowOp (s : State) (op f : Nat) : State :=
  match op with
  | 1 => s.cmdCreate f
  | 2 => s.cmdDelete f
  | 3 => s.cmdEnable f
  | 4 => s.cmdDisable f
  | 5 => s.cmdPin f
  | 6 => s.cmdUnpin f
  | 7 => s.cmdWriteBack f
  | _ => s.flowResult 9 0

theorem flowOp_eq_ite : s.flowOp op f =
    if op = 1 then s.cmdCreate f else if op = 2 then s.cmdDelete f else if op = 3 then s.cmdEnable f else if op = 4 then s.cmdDisable f
    else if op = 5 then s.cmdPin f else if op = 6 then s.cmdUnpin f else if op = 7 then s.cmdWriteBack f else s.flowResult 9 0 := by
  unfold State.flowOp
  split <;> simp_all

theorem flowCmdFx_busy {v : Word} (hgo : s.flag rFLOW_CMD fFLOW_CMD_go = true) : flowCmdFx v s = s := if_pos hgo

/-- With go 0 a command runs, once its flow ID is below 0xF000. -/
theorem flowCmdFx_idle (hgo : s.flag rFLOW_CMD fFLOW_CMD_go = false) (hop : op < 16) (hf : f < 0x10000) :
    flowCmdFx (flowCmdWord op f) s = if 0xEFFF < f then (s.flowRuns op f).flowResult 1 0 else (s.flowRuns op f).flowOp op f := by
  unfold flowCmdFx
  simp only [hgo, op_flowCmdWord hop, flowId_flowCmdWord hop hf, go_flowCmdWord hop, Bool.false_eq_true, Bool.not_true, if_false, flowOp_eq_ite]
  rfl

theorem flowCommand_accepted {q : Req} (ha : s.accepts q rFLOW_CMD (flowCmdWord op f)) :
    s.flowCommand q op f = (flowCmdFx (flowCmdWord op f) s).wrote q 0 := writeReg_accepted ha flowCmdFx

/-- A command on a flow runs and completes its write. -/
theorem flowCommand_runs {q : Req} {t : State} (hgo : s.flag rFLOW_CMD fFLOW_CMD_go = false) (hop : op < 16) (hf : f < 0xF000)
    (ha : s.accepts q rFLOW_CMD (flowCmdWord op f)) (hrun : (s.flowRuns op f).flowOp op f = t) : s.flowCommand q op f = t.wrote q 0 := by
  rw [flowCommand_accepted ha, flowCmdFx_idle hgo hop (by omega), if_neg (by omega), hrun]

theorem exec_flowCommand {q : Req} {c : Instr} {t : State} (hc : exec c s = finish s (s.flowCommand q op f))
    (hgo : s.flag rFLOW_CMD fFLOW_CMD_go = false) (hop : op < 16) (hf : f < 0xF000) (ha : s.accepts q rFLOW_CMD (flowCmdWord op f))
    (hrun : (s.flowRuns op f).flowOp op f = t) : exec c s = .next (s.finished (t.wrote q 0)) := by
  rw [hc, flowCommand_runs hgo hop hf ha hrun, finish_eq]

/-! ### Each command, case by case -/

theorem cmdCreate_exists (h : entState (s.ent f) ≠ 0) : s.cmdCreate f = s.flowResult 2 0 := if_pos (by simp [h])

theorem cmdCreate_badArgs (h : entState (s.ent f) = 0) (hargs : s.createArgsOk f = false) : s.cmdCreate f = s.flowResult 9 0 :=
  (if_neg (by simp [h])).trans (if_pos (by simp [hargs]))

theorem cmdCreate_free {k : Nat} (h : entState (s.ent f) = 0) (hargs : s.createArgsOk f = true) (hslot : s.freeSlot = some k) :
    s.cmdCreate f = (s.createCtx k f).flowResult 0 0 := by
  refine (if_neg (by simp [h])).trans ((if_neg (by simp [hargs])).trans ?_)
  rw [hslot]

/-- Every command but create needs a flow that exists. -/
theorem flowOp_absent (h : entState (s.ent f) = 0) (hlow : 2 ≤ op) (hhigh : op ≤ 7) : s.flowOp op f = s.flowResult 3 0 := by
  interval_cases op
  all_goals exact if_pos h

theorem cmdDelete_enabled (h : entState (s.ent f) ≠ 0) (hon : entEnabled (s.ent f) = true) : s.cmdDelete f = s.flowResult 6 0 :=
  (if_neg h).trans (if_pos hon)

theorem cmdEnable_enabled (h : entState (s.ent f) ≠ 0) (hon : entEnabled (s.ent f) = true) : s.cmdEnable f = s.flowResult 6 0 :=
  (if_neg h).trans (if_pos hon)

/-- A flow that is not enabled and not in the view goes, with its fetch, its waiting frames, its slot and its entry. -/
theorem cmdDelete_deletes (h : entState (s.ent f) ≠ 0) (hoff : entEnabled (s.ent f) = false)
    (hview : s.flw.hold.any (fun h => h.flow = f) = false) :
    let u1 := (s.cancelFetch f).dropWaiting f
    let u2 := (if entState (s.ent f) = 1 then u1.setSlot (entSlot (s.ent f)) none else u1).setEnt f 0
    let u3 := ({ u2 with flw := { u2.flw with total := u2.flw.total - 1, fresh := spSet (fun _ => false) u2.flw.fresh f false } } : State)
    let u4 := if u3.flw.load.any (fun w => w.2 = f) then u3.viewResult 3 else u3
    s.cmdDelete f = u4.flowResult 0 0 :=
  (if_neg h).trans ((if_neg (ne_true_of_eq_false hoff)).trans (if_neg (ne_true_of_eq_false hview)))

section Enable

variable (hres : entState (s.ent f) = 1) (hoff : entEnabled (s.ent f) = false)
include hres hoff

/-- The enable of a resident flow turns on the code of its admission, which class 0 alone needs. -/
theorem cmdEnable_resident : let k := entSlot (s.ent f); let code := if s.ctxClass k = 0 then s.admission k else 0
    s.cmdEnable f = if code != 0 then (s.logRefusal f code false).flowResult 8 code
      else ((((if s.ctxClass k = 0 then s.install k else s).startWindow k).setReadmit k false).setEnabled f k true).flowResult 0 0 :=
  (if_neg (by simp [hres])).trans ((if_neg (ne_true_of_eq_false hoff)).trans (if_pos hres))

theorem cmdEnable_untimed (hclass : s.ctxClass (entSlot (s.ent f)) ≠ 0) : let k := entSlot (s.ent f)
    s.cmdEnable f = (((s.startWindow k).setReadmit k false).setEnabled f k true).flowResult 0 0 := by
  refine (cmdEnable_resident hres hoff).trans ?_
  simp only [hclass, if_false]
  rfl

theorem cmdEnable_admitted (hclass : s.ctxClass (entSlot (s.ent f)) = 0) (hcode : s.admission (entSlot (s.ent f)) = 0) :
    let k := entSlot (s.ent f)
    s.cmdEnable f = ((((s.install k).startWindow k).setReadmit k false).setEnabled f k true).flowResult 0 0 := by
  refine (cmdEnable_resident hres hoff).trans ?_
  simp only [hclass, hcode, if_true]
  rfl

theorem cmdEnable_refused (hclass : s.ctxClass (entSlot (s.ent f)) = 0) (hcode : s.admission (entSlot (s.ent f)) ≠ 0) :
    let code := s.admission (entSlot (s.ent f))
    s.cmdEnable f = (s.logRefusal f code false).flowResult 8 code := by
  refine (cmdEnable_resident hres hoff).trans ?_
  simp only [hclass, if_true]
  exact if_pos (by simp [hcode])

end Enable

theorem cmdDisable_resident (hres : entState (s.ent f) = 1) (hon : entEnabled (s.ent f) = true) :
    s.cmdDisable f = ((s.disableFlow f (entSlot (s.ent f))).dropWaiting f).flowResult 0 0 :=
  (if_neg (by simp [hres])).trans ((if_neg (by simp [hon])).trans (if_pos hres))

section Pin

variable (hpin : entPinned (s.ent f) = false) (hroom : s.pinnedCount < s.get rFLOW_CFG fFLOW_CFG_pin_max)
include hpin hroom

theorem cmdPin_resident (hres : entState (s.ent f) = 1) : s.cmdPin f = (s.pinCtx f).flowResult 0 0 :=
  (if_neg (by simp [hres])).trans ((if_neg (ne_true_of_eq_false hpin)).trans ((if_neg (Nat.not_le.2 hroom)).trans (if_pos hres)))

theorem cmdPin_away (h : entState (s.ent f) ≠ 0) (haway : entState (s.ent f) ≠ 1) : s.cmdPin f = (s.miss f).flowWait 5 f :=
  (if_neg h).trans ((if_neg (ne_true_of_eq_false hpin)).trans ((if_neg (Nat.not_le.2 hroom)).trans (if_neg haway)))

end Pin

/-- Only an enabled flow of class 0 must stay pinned. -/
theorem cmdUnpin_resident (hres : entState (s.ent f) = 1) (hmay : entEnabled (s.ent f) = false ∨ natBits (s.ent f) 27 26 ≠ 0) :
    s.cmdUnpin f = (s.setPinned f (entSlot (s.ent f)) false).flowResult 0 0 := by
  refine (if_neg (by simp [hres])).trans ((if_neg ?_).trans (if_pos hres))
  rcases hmay with hoff | hclass
  · simp [hoff]
  · simp [hclass]

theorem cmdWriteBack_resident (hres : entState (s.ent f) = 1) : s.cmdWriteBack f = s.flowWait 7 f :=
  (if_neg (by simp [hres])).trans (if_pos hres)

end FlowCommands

/-! ### What a create leaves (R104, R160 to R162) -/

section Create

variable {s : State} {k f : Nat}

theorem fldOf_lt (w : Word) (g : Fld) : fldOf w g < 2 ^ (g.hi + 1 - g.lo) := Nat.mod_lt _ (Nat.two_pow_pos _)

/-- A word is what its four octets say. -/
theorem word_congr {t : State} {a : Nat} (h : ∀ i, i < 4 → s.byte (a + i) = t.byte (a + i)) : s.word a = t.word a := by
  unfold State.word
  rw [bytes_eq_map, bytes_eq_map]
  exact congrArg (fun l => toW (leNat l)) (List.map_congr_left fun i hi => h i (List.mem_range.1 hi))

theorem setBytes_append (s : State) (a : Nat) (l m : List Byte) : s.setBytes a (l ++ m) = (s.setBytes a l).setBytes (a + l.length) m := by
  induction l generalizing s a with
  | nil => rfl
  | cons b l ih => rw [List.cons_append, State.setBytes, ih, List.length_cons, Nat.add_right_comm, Nat.add_assoc]; rfl

/-- Numbers laid out as words one after another, least significant octet first, are read back as those words. -/
theorem word_setBytes_words (s : State) (a : Nat) (ws : List Nat) (rest : List Byte) {i : Nat} (h : i < ws.length) :
    (s.setBytes a (ws.flatMap (leBytes 4) ++ rest)).word (a + 4 * i) = toW ws[i] := by
  induction ws generalizing s a i with
  | nil => exact absurd h (Nat.not_lt_zero i)
  | cons w ws ih =>
    rw [List.flatMap_cons, List.append_assoc, setBytes_append, length_leBytes]
    cases i with
    | zero =>
      have hkept : ∀ j, j < 4 → ((s.setBytes a (leBytes 4 w)).setBytes (a + 4) (ws.flatMap (leBytes 4) ++ rest)).byte (a + j) =
          (s.setBytes a (leBytes 4 w)).byte (a + j) := fun j hj => byte_setBytes_out _ _ _ _ (by omega)
      have hbytes : (s.setBytes a (leBytes 4 w)).bytes a 4 = leBytes 4 w := bytes_setBytes s a (leBytes 4 w)
      rw [Nat.mul_zero, Nat.add_zero a, word_congr hkept, State.word, hbytes, leNat_leBytes, List.getElem_cons_zero]
      apply BitVec.eq_of_toNat_eq
      simp only [toW, BitVec.toNat_ofNat]
      omega
    | succ i =>
      have haddr : a + 4 * (i + 1) = a + 4 + 4 * i := by omega
      rw [haddr, ih _ _ (Nat.lt_of_succ_lt_succ h), List.getElem_cons_succ]

/-- The first word of a new context: the flow ID, the role, the class and the key. -/
def State.newCtxHead (s : State) (f : Nat) : Nat :=
  let a0 := s.reg rFLOW_ARG0
  f * 2 ^ 16 + fldOf a0 fFLOW_ARG0_role * 2 ^ 14 + fldOf a0 fFLOW_ARG0_class * 2 ^ 12 + fldOf a0 fFLOW_ARG0_key_en * 2 ^ 8 + fldOf a0 fFLOW_ARG0_key_slot

/-- The backing index of a new context. -/
def State.newBacking (s : State) (f : Nat) : Nat :=
  if bitOf (s.reg rFLOW_ARG3) 31 then fldOf (s.reg rFLOW_ARG3) fFLOW_ARG3_backing else f

/-- The words of a new context, from offset 0 on. -/
def State.newCtxWords (s : State) (f : Nat) : List Nat :=
  let a0 := s.reg rFLOW_ARG0
  [s.newCtxHead f, s.get rFLOW_ARG1 fFLOW_ARG1_src_node * 2 ^ 14,
    s.get rFLOW_ARG2 fFLOW_ARG2_dest_node * 2 ^ 14 + fldOf a0 fFLOW_ARG0_endpoint_port * 2 ^ 8 + fldOf a0 fFLOW_ARG0_endpoint_queue,
    0xFFFF, 0xFFFFFFFF, 0xFFFFFFFF, s.newBacking f, 0, 0, 0, s.get rFLOW_ARG2 fFLOW_ARG2_max_payload]

/-- The octets of a new context. -/
def State.newCtxBytes (s : State) (f : Nat) : List Byte := (s.newCtxWords f).flatMap (leBytes 4) ++ List.replicate 84 0

/-- The entry of a new flow. -/
def State.newEnt (s : State) (k : Nat) : Nat :=
  2 ^ 30 + fldOf (s.reg rFLOW_ARG0) fFLOW_ARG0_class * 2 ^ 26 + fldOf (s.reg rFLOW_ARG0) fFLOW_ARG0_role * 2 ^ 24 + k

theorem length_newCtxBytes (s : State) (f : Nat) : (s.newCtxBytes f).length = 128 := by
  simp [State.newCtxBytes, State.newCtxWords, length_leBytes]

/-- The slot bookkeeping of a new context. -/
def State.slotTaken (s : State) (k f : Nat) : State := ((s.setSlot k (some f)).touch k).unmarkUse k

/-- The count of flows and the mark of a faulted write-back after a create. -/
def State.createCounted (s : State) (k : Nat) : State :=
  { s with flw := { s.flw with total := s.flw.total + 1, stuck := spSet (fun _ => false) s.flw.stuck k false } }

/-- A create writes the context, takes the slot, writes the entry and counts. -/
theorem createCtx_eq (s : State) (k f : Nat) :
    s.createCtx k f = (((s.setBytes (ctxAddr k) (s.newCtxBytes f)).slotTaken k f).setEnt f (s.newEnt k)).createCounted k := rfl

@[simp] theorem mem_slotTaken (s : State) (k f : Nat) : (s.slotTaken k f).mem = s.mem := rfl
@[simp] theorem mem_createCounted (s : State) (k : Nat) : (s.createCounted k).mem = s.mem := rfl
@[simp] theorem regs_slotTaken (s : State) (k f : Nat) : (s.slotTaken k f).regs = s.regs := rfl
@[simp] theorem regs_createCounted (s : State) (k : Nat) : (s.createCounted k).regs = s.regs := rfl

@[simp] theorem slots_slotTaken (s : State) (k f : Nat) : (s.slotTaken k f).flw.slots = spSet (fun _ => 0) s.flw.slots k (f + 1) := rfl
@[simp] theorem slots_createCounted (s : State) (k : Nat) : (s.createCounted k).flw.slots = s.flw.slots := rfl

theorem byte_of_mem {t : State} (h : s.mem = t.mem) (a : Nat) : s.byte a = t.byte a := by unfold State.byte; rw [h]

/-- Octets written to memory leave the context manager's own state. -/
theorem flw_setBytes (s : State) (a : Nat) (l : List Byte) : (s.setBytes a l).flw = s.flw := by
  induction l generalizing s a with
  | nil => rfl
  | cons b l ih => rw [State.setBytes, ih]; rfl

/-- Beside its entry, a create writes the octets of the context alone. -/
theorem byte_createCtx_beside_entry {a : Nat} (h : a < entAddr f ∨ entAddr f + 4 ≤ a) :
    (s.createCtx k f).byte a = (s.setBytes (ctxAddr k) (s.newCtxBytes f)).byte a := by
  rw [createCtx_eq, byte_of_mem (mem_createCounted _ _), State.setEnt, byte_setWord_out _ _ _ h, byte_of_mem (mem_slotTaken _ _ _)]

theorem byte_createCtx_out {a : Nat} (hslot : a < ctxAddr k ∨ ctxAddr k + 128 ≤ a) (hent : a < entAddr f ∨ entAddr f + 4 ≤ a) :
    (s.createCtx k f).byte a = s.byte a :=
  (byte_createCtx_beside_entry hent).trans (byte_setBytes_out s _ _ _ (by rwa [length_newCtxBytes]))

theorem regs_createCtx : (s.createCtx k f).regs = s.regs := by
  rw [createCtx_eq, regs_createCounted, State.setEnt, State.setWord, regs_setBytes, regs_slotTaken, regs_setBytes]

theorem slotFlow_createCtx : (s.createCtx k f).slotFlow k = some f := by
  have hslots : (s.createCtx k f).flw.slots = spSet (fun _ => 0) s.flw.slots k (f + 1) := by
    rw [createCtx_eq, slots_createCounted, State.setEnt, State.setWord, flw_setBytes, slots_slotTaken, flw_setBytes]
  rw [State.slotFlow, hslots, spGet_spSet_same]

/-- The words of the context read as they were laid out. -/
theorem word_createCtx (hk : k < 4096) {i : Nat} (h : i < 11) :
    (s.createCtx k f).word (ctxAddr k + 4 * i) = toW ((s.newCtxWords f)[i]'h) := by
  have hkept : ∀ j, j < 4 → (s.createCtx k f).byte (ctxAddr k + 4 * i + j) =
      (s.setBytes (ctxAddr k) (s.newCtxBytes f)).byte (ctxAddr k + 4 * i + j) :=
    fun j hj => byte_createCtx_beside_entry (.inl (by unfold ctxAddr entAddr; omega))
  rw [word_congr hkept]
  exact word_setBytes_words s _ _ _ h

theorem ent_createCtx (hk : k < 4096) : (s.createCtx k f).ent f = s.newEnt k := by
  have hword : (s.createCtx k f).word (entAddr f) = toW (s.newEnt k) := by
    rw [createCtx_eq, word_congr fun _ _ => byte_of_mem (mem_createCounted _ _) _]
    exact word_setWord _ _ _
  have hclass : fldOf (s.reg rFLOW_ARG0) fFLOW_ARG0_class < 4 := fldOf_lt _ _
  have hrole : fldOf (s.reg rFLOW_ARG0) fFLOW_ARG0_role < 4 := fldOf_lt _ _
  rw [State.ent, hword, toW, BitVec.toNat_ofNat]
  exact Nat.mod_eq_of_lt (by unfold State.newEnt; omega)

/-- The entry of a new flow: resident in its slot, neither enabled nor pinned (R160). -/
theorem newEnt_fields (hk : k < 4096) : entState (s.newEnt k) = 1 ∧ entSlot (s.newEnt k) = k ∧ entEnabled (s.newEnt k) = false ∧
    entPinned (s.newEnt k) = false := by
  have hclass : fldOf (s.reg rFLOW_ARG0) fFLOW_ARG0_class < 4 := fldOf_lt _ _
  have hrole : fldOf (s.reg rFLOW_ARG0) fFLOW_ARG0_role < 4 := fldOf_lt _ _
  unfold entState entSlot entEnabled entPinned State.newEnt natBits
  simp only [Nat.shiftRight_eq_div_pow, decide_eq_false_iff_not]
  and_intros <;> omega

/-- The first word of a new context carries the flow ID, and none of its flags is set (R162). -/
theorem newCtxHead_fields (hf : f < 0xF000) : let w := (toW (s.newCtxHead f)).toNat
    natBits w 31 16 = f ∧ natBits w 11 11 = 0 ∧ natBits w 10 10 = 0 ∧ natBits w 9 9 = 0 := by
  have hrole : fldOf (s.reg rFLOW_ARG0) fFLOW_ARG0_role < 4 := fldOf_lt _ _
  have hclass : fldOf (s.reg rFLOW_ARG0) fFLOW_ARG0_class < 4 := fldOf_lt _ _
  have hkeyEn : fldOf (s.reg rFLOW_ARG0) fFLOW_ARG0_key_en < 2 := fldOf_lt _ _
  have hkey : fldOf (s.reg rFLOW_ARG0) fFLOW_ARG0_key_slot < 256 := fldOf_lt _ _
  unfold natBits toW State.newCtxHead
  simp only [Nat.shiftRight_eq_div_pow, BitVec.toNat_ofNat]
  and_intros <;> omega

/-- A new context carries its flow ID and is neither enabled, nor pinned, nor marked for re-admission. -/
theorem ctxFlags_createCtx (hk : k < 4096) (hf : f < 0xF000) : (s.createCtx k f).ctxFlow k = f ∧ (s.createCtx k f).ctxEnabled k = false ∧
    (s.createCtx k f).ctxPinned k = false ∧ (s.createCtx k f).ctxReadmit k = false := by
  have hword : (s.createCtx k f).word (ctxAddr k + 0) = toW (s.newCtxHead f) := word_createCtx hk (i := 0) (by decide)
  obtain ⟨hflow, henabled, hpinned, hreadmit⟩ := newCtxHead_fields (s := s) hf
  unfold State.ctxFlow State.ctxEnabled State.ctxPinned State.ctxReadmit State.ctx
  rw [hword, hflow, henabled, hpinned, hreadmit]
  exact ⟨rfl, rfl, rfl, rfl⟩

/-- The backing index leaves old_run, above it in its word, at 0. -/
theorem newBacking_lt (hf : f < 0xF000) : s.newBacking f < 2 ^ 20 := by
  unfold State.newBacking
  split
  · exact fldOf_lt _ _
  · omega

/-- The window of a new context has the start values of R104. -/
theorem ctxWin_createCtx (hk : k < 4096) (hf : f < 0xF000) : (s.createCtx k f).ctxWin k = ⟨0xFFFF, 2 ^ 64 - 1, 0⟩ := by
  have htop : (s.createCtx k f).word (ctxAddr k + 0x0C) = toW 0xFFFF := word_createCtx hk (i := 3) (by decide)
  have hlow : (s.createCtx k f).word (ctxAddr k + 0x10) = toW 0xFFFFFFFF := word_createCtx hk (i := 4) (by decide)
  have hhigh : (s.createCtx k f).word (ctxAddr k + 0x14) = toW 0xFFFFFFFF := word_createCtx hk (i := 5) (by decide)
  have hback : (s.createCtx k f).word (ctxAddr k + 0x18) = toW (s.newBacking f) := word_createCtx hk (i := 6) (by decide)
  have hrun : natBits (toW (s.newBacking f)).toNat 31 28 = 0 := by
    have hlt := newBacking_lt (s := s) hf
    unfold natBits toW
    rw [Nat.shiftRight_eq_div_pow, BitVec.toNat_ofNat]
    omega
  unfold State.ctxWin State.ctx
  rw [htop, hlow, hhigh, hback, hrun]
  rfl

end Create

/-! ### The statements -/

/-- Settles O23: the code of each command that is refused, and then the entry, the context and the slot of a new flow. The codes are those of the
state in which a write-back of the flow has stopped short (log entry 83). -/
theorem flowCommandCodesAndCreatedContext : Obligations.FlowCommandCodesAndCreatedContext := by
  refine ⟨fun s q f op hf hlow hhigh ha => ⟨fun hgo => ?busy, fun hgo => ⟨fun hbig => ?system, ?existing, ?badArgs, ?absent, ?enabled⟩⟩,
    fun s k f hk hf => ?created⟩
  case busy => rw [flowCommand_accepted ha, flowCmdFx_busy hgo]
  case system => rw [flowCommand_accepted ha, flowCmdFx_idle hgo (by omega) hf, if_pos (by omega)]
  case existing =>
    rintro hf rfl hent
    exact flowCommand_runs hgo (by omega) hf ha (cmdCreate_exists hent)
  case badArgs =>
    rintro hf rfl hent hargs
    exact flowCommand_runs hgo (by omega) hf ha (cmdCreate_badArgs hent hargs)
  case absent => exact fun hf hop hent => flowCommand_runs hgo (by omega) hf ha (flowOp_absent hent (by omega) hhigh)
  case enabled =>
    rintro hf (rfl | rfl) hent hon
    · exact flowCommand_runs hgo (by omega) hf ha (cmdDelete_enabled hent hon)
    · exact flowCommand_runs hgo (by omega) hf ha (cmdEnable_enabled hent hon)
  case created =>
    obtain ⟨hstate, hslot, hoff, hfree⟩ := newEnt_fields (s := s) hk
    rw [← ent_createCtx (f := f) hk] at hstate hslot hoff hfree
    obtain ⟨hflow, hdisabled, hunpinned, hreadmit⟩ := ctxFlags_createCtx (s := s) hk hf
    exact ⟨hstate, hslot, hoff, hfree, hflow, hdisabled, hunpinned, hreadmit, ctxWin_createCtx hk hf, slotFlow_createCtx, regs_createCtx,
      fun _ => byte_createCtx_out⟩

/-- Settles O22: each command runs from the accepted write and takes the branch of its case. -/
theorem flowCommandsRun : Obligations.FlowCommandsRun := by
  intro s q f hf hgo
  refine ⟨fun k ha hent hargs hslot => exec_flowCommand rfl hgo (by decide) hf ha (cmdCreate_free hent hargs hslot),
    fun ha hent hoff hview => exec_flowCommand rfl hgo (by decide) hf ha (cmdDelete_deletes hent hoff hview),
    fun ha hres hoff => ⟨fun hclass => exec_flowCommand rfl hgo (by decide) hf ha (cmdEnable_untimed hres hoff hclass),
      fun hclass hcode => exec_flowCommand rfl hgo (by decide) hf ha (cmdEnable_admitted hres hoff hclass hcode),
      fun hclass hcode => exec_flowCommand rfl hgo (by decide) hf ha (cmdEnable_refused hres hoff hclass hcode)⟩,
    fun ha hres hon => exec_flowCommand rfl hgo (by decide) hf ha (cmdDisable_resident hres hon),
    fun ha hent hpin hroom => ⟨fun hres => exec_flowCommand rfl hgo (by decide) hf ha (cmdPin_resident hpin hroom hres),
      fun haway => exec_flowCommand rfl hgo (by decide) hf ha (cmdPin_away hpin hroom hent haway)⟩,
    fun ha hres hmay => exec_flowCommand rfl hgo (by decide) hf ha (cmdUnpin_resident hres hmay),
    fun ha hres => exec_flowCommand rfl hgo (by decide) hf ha (cmdWriteBack_resident hres)⟩

end Sys2Proof.Machine
end

section
/-! PROOF. The context view, direct writes of the context store, and the pager (R163, R166, R170, R171, R173, R179, R181). That a view load stops the
write-back of its own flow short is log entry 83; which slot a miss takes is log entry 34. -/
namespace Sys2Proof.Machine

/-! ### The context view (R166) -/

section View

variable {s : State} {q : Req}

theorem flowViewFx_load {v : Word} (hv : v.toNat % 8 = 1) (hidle : s.flw.load = none) : flowViewFx q v s = s.viewLoad q := by
  unfold flowViewFx
  simp [hv, hidle]

/-- A load of a flow that exists and that no other requester holds goes on with the flow kept in its slot. -/
theorem viewLoad_goes : let f := s.get rFLOW_VIEW_SEL fFLOW_VIEW_SEL_flow_id; let t := s.keepVictim f
    f < 0xF000 → entState (s.ent f) ≠ 0 → s.flw.hold.any (fun h => h.q != q) = false →
    s.viewLoad q = if entState (t.ent f) = 1 then t.viewTake q f
      else { t.miss f with flw := { (t.miss f).flw with load := some (q, f) } } :=
  fun hf hent hfree => (if_neg (by omega)).trans ((if_neg hent).trans (if_neg (ne_true_of_eq_false hfree)))

section Held

variable {v : Word} {h : Hold} (hidle : s.flw.load = none) (hhold : s.flw.hold = some h)
include hidle hhold

/-- A store (2) by the holder writes the view back before the hold ends. -/
theorem flowViewFx_store (hv : v.toNat % 8 = 2) (hown : h.q = q) : flowViewFx q v s = (s.viewStore h.flow).endHold.viewResult 0 := by
  unfold flowViewFx
  simp [hv, hidle, hhold, hown]

/-- A release (4) by the holder ends the hold alone. -/
theorem flowViewFx_release (hv : v.toNat % 8 = 4) (hown : h.q = q) : flowViewFx q v s = s.endHold.viewResult 0 := by
  unfold flowViewFx
  simp [hv, hidle, hhold, hown]

/-- Of a view that another requester holds, neither. -/
theorem flowViewFx_other (hv : v.toNat % 8 = 2 ∨ v.toNat % 8 = 4) (hother : h.q ≠ q) : flowViewFx q v s = s.viewResult 10 := by
  unfold flowViewFx
  rcases hv with hv | hv
  · simp [hv, hidle, hhold, hother]
  · simp [hv, hidle, hhold, hother]

end Held

end View

/-! ### Direct writes of the context store (R163) -/

section Direct

variable {s : State} {q : Req} {a : Nat} {bs : List Byte}

/-- The slot at an address of the context store holds a resident context. -/
def State.residentAt (s : State) (a : Nat) : Prop := ∃ f, s.slotFlow ((a - 0x100000) / 128) = some f ∧ entState (s.ent f) = 1

/-- The octets lie within what a direct write may reach. -/
def directOffsets (a n : Nat) : Prop := 0x40 ≤ (a - 0x100000) % 128 ∧ (a - 0x100000) % 128 + n ≤ 0x74

theorem directWrite_reaches (hres : s.residentAt a) (hoff : directOffsets a bs.length) :
    s.directWrite a bs = (s.setBytes a bs).touch ((a - 0x100000) / 128) := by
  obtain ⟨f, hslot, hent⟩ := hres
  obtain ⟨hlow, hhigh⟩ := hoff
  unfold State.directWrite
  simp [hslot, hent, hlow, hhigh]

theorem directWrite_ignored (h : ¬ (s.residentAt a ∧ directOffsets a bs.length)) : s.directWrite a bs = s.inc rFLOW_CNT_DIRECT_REFUSED := by
  refine if_neg fun hgo => h ?_
  simp only [Bool.and_eq_true, decide_eq_true_eq] at hgo
  obtain ⟨⟨hres, hlow⟩, hhigh⟩ := hgo
  refine ⟨?_, hlow, hhigh⟩
  cases hslot : s.slotFlow ((a - 0x100000) / 128) with
  | none => simp [hslot] at hres
  | some f => exact ⟨f, hslot, by simpa [hslot] using hres⟩

theorem exec_contextDirectWrite {t : State} (hregion : regionOf a = some .context) (hstatus : s.memWriteStatus q.master (s.levelOf q) a bs.length = 0)
    (ht : s.directWrite a bs = t) : exec (.contextDirectWrite q a bs) s = .next (s.finished (t.done q 0)) := by
  have hstore : s.memStore a bs = t := by rw [State.memStore, hregion, ht]
  change finish s ((s.memWriteReq q a bs).2.done q (s.memWriteReq q a bs).1) = _
  rw [memWriteReq_taken hstatus, hstore, finish_eq]

end Direct

/-! ### The pager (R170, R171, R173) -/

section Pager

variable {s : State}

section Miss

variable {m : Nat} {rest : List Job} (hon : s.enabled 0x30 = true) (hidle : s.flw.job = none) (hmiss : s.flw.misses = .fetch m :: rest)
include hon hidle hmiss

theorem pagerMiss_free {k : Nat} (hslot : s.freeSlot = some k) :
    s.pagerMiss = { s with flw := { s.flw with misses := rest, job := some ⟨.fetch m, k, none⟩ } } := by
  unfold State.pagerMiss
  simp [hon, hidle, hmiss, hslot]

variable (hfull : s.freeSlot = none)
include hfull

/-- A victim that has changed is written back first, its entry moving with the backing index. -/
theorem pagerMiss_dirty {k f : Nat} (hvictim : s.victim = some (k, f)) (hdirty : spGet (fun _ => false) s.flw.dirty k = true) :
    let t := s.setEnt f (natPut (natPut (s.ent f) 31 30 3) 19 0 (s.ctx k 0x18 19 0))
    s.pagerMiss = { t with flw := { t.flw with misses := rest, job := some ⟨.fetch m, k, some f⟩ } } := by
  unfold State.pagerMiss
  simp [hon, hidle, hmiss, hfull, hvictim, hdirty]

theorem pagerMiss_clean {k f : Nat} (hvictim : s.victim = some (k, f)) (hclean : spGet (fun _ => false) s.flw.dirty k = false) :
    s.pagerMiss = { s.pageOut k f with flw := { (s.pageOut k f).flw with misses := rest, job := some ⟨.fetch m, k, none⟩ } } := by
  unfold State.pagerMiss
  simp [hon, hidle, hmiss, hfull, hvictim, hclean]

theorem pagerMiss_noVictim (hvictim : s.victim = none) (hnew : s.flw.noVictim.contains (.fetch m) = false) :
    s.pagerMiss = (({ s with flw := { s.flw with noVictim := .fetch m :: s.flw.noVictim } }.inc rFLOW_CNT_NO_VICTIM).irq 0x30 5) := by
  unfold State.pagerMiss
  simp only [hon, hidle, hmiss, hfull, hvictim, hnew, Bool.not_true, Bool.false_eq_true, if_false]

end Miss

section WriteBack

variable {g k f : Nat} {err : Option Nat} (hjob : s.flw.job = some ⟨.fetch g, k, some f⟩)
include hjob

theorem pagerWroteBack_done : let w := s.writeBack k f err
    w.1 = true → s.pagerWroteBack err = { w.2.pageOut k f with flw := { (w.2.pageOut k f).flw with job := some ⟨.fetch g, k, none⟩ } } := by
  intro w hw
  unfold State.pagerWroteBack
  rw [hjob]
  exact if_pos hw

/-- A victim whose write-back faults stays, and is not chosen again. -/
theorem pagerWroteBack_faulted : let w := s.writeBack k f err
    w.1 = false → s.pagerWroteBack err =
      { w.2.abandonEvict with flw := { w.2.abandonEvict.flw with stuck := spSet (fun _ => false) w.2.abandonEvict.flw.stuck k true } } := by
  intro w hw
  unfold State.pagerWroteBack
  rw [hjob]
  exact if_neg (ne_true_of_eq_false hw)

end WriteBack

section Fetch

variable {f k out : Nat} (hjob : s.flw.job = some ⟨.fetch f, k, none⟩) (hplace : (s.backing (s.backAddr (entLoc (s.ent f))) .read).1 = some out)
include hjob hplace

/-- A fetch that no error cuts short turns on the check word. -/
theorem pagerFetched_placed : let a := s.backAddr (entLoc (s.ent f)); let t := (s.backing a .read).2; let bs := t.bytes out 128
    s.pagerFetched none = if crc32c (bs.take 124) = toW (leNat (slice bs 124 4)) then t.fetchLanded f k bs else t.fetchFaulted f a 2 := by
  unfold State.pagerFetched
  simp only [hjob, hplace, fetchCause, Option.map_some, Option.getD_some]
  split_ifs <;> rfl

end Fetch

theorem pagerRetry_asks {f : Nat} (h : s.flw.retries.contains f = true) :
    s.pagerRetry f = ({ s with flw := { s.flw with retries := s.flw.retries.filter (· != f), misses := s.flw.misses ++ [Job.fetch f] } } : State).setEnt f
      (natPut (s.ent f) 31 30 3) := if_pos h

/-- A pin that waited completes when its context is resident. -/
theorem flowComplete_pin {f : Nat} {err : Option Nat} {nv : Bool} (hwait : s.flw.wait = some (5, f)) (hres : entState (s.ent f) = 1)
    (hroom : s.pinnedCount < s.get rFLOW_CFG fFLOW_CFG_pin_max) : s.flowComplete err nv = (s.pinCtx f).flowResult 0 0 := by
  unfold State.flowComplete
  rw [hwait]
  exact (if_pos hres).trans (if_neg (Nat.not_le.2 hroom))

end Pager

/-! ### The statement -/

/-- Settles O24: the view's commands by who holds it, direct writes by where they lie, and the pager's steps one by one. -/
theorem contextViewAndPager : Obligations.ContextViewAndPager := by
  refine ⟨fun s q => ⟨fun ha hidle hf hent hfree => ?load, fun h ha hidle hhold => ?store, fun h ha hidle hhold => ?release, fun a bs hregion hstatus => ?direct⟩,
    fun s => ⟨fun m rest hon hidle hmiss => ?miss,
      fun g k f err hjob => ⟨fun hw => congrArg (finish s) (pagerWroteBack_done hjob hw), fun hw => congrArg (finish s) (pagerWroteBack_faulted hjob hw)⟩,
      fun f k out hjob hplace => ?fetch, fun f hwaits => congrArg (finish s) (pagerRetry_asks hwaits),
      fun f err nv hwait hres hroom => congrArg (finish s) (flowComplete_pin hwait hres hroom), fun src flow => rfl,
      fun q v ha hclear => exec_writeReg_accepted rfl ha (if_pos hclear)⟩⟩
  case load =>
    have hload := (flowViewFx_load (v := 1) (by decide) hidle).trans (viewLoad_goes hf hent hfree)
    exact ⟨fun hres => exec_writeReg_accepted rfl ha (hload.trans (if_pos hres)), fun haway => exec_writeReg_accepted rfl ha (hload.trans (if_neg haway))⟩
  case store =>
    exact ⟨fun hown => exec_writeReg_accepted rfl ha (flowViewFx_store hidle hhold (by decide) hown),
      fun hother => exec_writeReg_accepted rfl ha (flowViewFx_other hidle hhold (.inl (by decide)) hother)⟩
  case release =>
    exact ⟨fun hown => exec_writeReg_accepted rfl ha (flowViewFx_release hidle hhold (by decide) hown),
      fun hother => exec_writeReg_accepted rfl ha (flowViewFx_other hidle hhold (.inr (by decide)) hother)⟩
  case direct =>
    refine ⟨fun hres hlow hhigh => exec_contextDirectWrite hregion hstatus (directWrite_reaches hres ⟨hlow, hhigh⟩),
      fun hmiss => exec_contextDirectWrite hregion hstatus (directWrite_ignored ?_)⟩
    rintro ⟨⟨f, hslot, hent⟩, hlow, hhigh⟩
    rcases hmiss with hfree | ⟨g, hslot', hent'⟩ | hbelow | habove
    · rw [hfree] at hslot
      cases hslot
    · obtain rfl := Option.some.inj (hslot.symm.trans hslot')
      exact hent' hent
    · exact Nat.not_le.2 hbelow hlow
    · exact Nat.not_le.2 habove hhigh
  case miss =>
    exact ⟨fun k hslot => congrArg (finish s) (pagerMiss_free hon hidle hmiss hslot),
      fun k f hfull hvictim hdirty => congrArg (finish s) (pagerMiss_dirty hon hidle hmiss hfull hvictim hdirty),
      fun k f hfull hvictim hclean => congrArg (finish s) (pagerMiss_clean hon hidle hmiss hfull hvictim hclean),
      fun hfull hvictim hnew => congrArg (finish s) (pagerMiss_noVictim hon hidle hmiss hfull hvictim hnew)⟩
  case fetch =>
    have hfetched := pagerFetched_placed hjob hplace
    exact ⟨fun hcheck => congrArg (finish s) (hfetched.trans (if_pos hcheck)), fun hcheck => congrArg (finish s) (hfetched.trans (if_neg hcheck))⟩

end Sys2Proof.Machine
end

section
/-! PROOF. The window on timetable memory and the refusal log (R44, R185, R195, R199, R213): octets and words, what a write through the window does,
and what a pop takes. -/
namespace Sys2Proof.Machine

/-! ### Octets and words of timetable memory (R590) -/

/-- What is written outside the octets from a upwards stays. -/
theorem ttByte_setTtBytes_out (s : State) (a : Nat) (l : List Byte) {b : Nat} (h : b < a ∨ a + l.length ≤ b) :
    (s.setTtBytes a l).ttByte b = s.ttByte b := by
  induction l generalizing s a with
  | nil => rfl
  | cons c l ih =>
    rw [List.length_cons] at h
    rw [State.setTtBytes, ih _ _ (by omega), ttByte_setTtByte_ne s c (by omega)]

/-- Octets written are read back. -/
theorem ttByte_setTtBytes_in (s : State) (a i : Nat) (l : List Byte) (h : i < l.length) : (s.setTtBytes a l).ttByte (a + i) = l[i] := by
  induction l generalizing s a i with
  | nil => exact absurd h (Nat.not_lt_zero i)
  | cons c l ih =>
    cases i with
    | zero => exact (ttByte_setTtBytes_out _ _ _ (.inl a.lt_succ_self)).trans (ttByte_setTtByte_same s a c)
    | succ i =>
      have hrest := ih (s.setTtByte a c) (a + 1) i (Nat.lt_of_succ_lt_succ h)
      rwa [Nat.succ_add_eq_add_succ] at hrest

/-- A word written as its octets is read back. -/
theorem ttWord_setTtBytes_leBytes (s : State) (a : Nat) (v : Word) : (s.setTtBytes a (leBytes 4 v.toNat)).ttWord a = v := by
  have hoctet (i : Nat) (hi : i < 4) : ((s.setTtBytes a (leBytes 4 v.toNat)).ttByte (a + i)).toNat = v.toNat / 256 ^ i % 256 := by
    have hlen : i < (leBytes 4 v.toNat).length := by rwa [length_leBytes]
    rw [ttByte_setTtBytes_in s a i _ hlen, getElem_leBytes, toB, BitVec.toNat_ofNat]
  have h0 := hoctet 0 (by decide)
  have h1 := hoctet 1 (by decide)
  have h2 := hoctet 2 (by decide)
  have h3 := hoctet 3 (by decide)
  rw [Nat.add_zero] at h0
  apply BitVec.eq_of_toNat_eq
  rw [State.ttWord, h0, h1, h2, h3, toW, BitVec.toNat_ofNat]
  have hv := v.isLt
  omega

/-! ### A write through the window (R185, R195, R213) -/

/-- A block that corrects a setting shows it (R29). -/
theorem flag_warn (s : State) (p : Nat) : (s.warn p).flag (rPG_STATUS p) fPG_STATUS_config_warning = true := by
  unfold State.flag State.warn
  rw [get_put_same s _ _ 1 (by decide) (by decide)]
  decide

/-- Where the window stands: the word that TTB_MEM_ADDR names. -/
def State.windowAddr (s : State) : Nat := (s.reg rTTB_MEM_ADDR).toNat % 2 ^ 19 / 4 * 4

section Window

variable {s : State} {v : Word}

/-- Within the slot lists the list of an enabled flow is not written, and any other entry is (R195). -/
theorem ttWrite_slotList (hlist : 0x50000 ≤ s.windowAddr) : s.ttWrite v =
    if s.listInUse ((s.windowAddr - 0x50000) / 4) then s.warn 0x39 else s.setTtBytes s.windowAddr (leBytes 4 v.toNat) := by
  change (if (if 0x50000 ≤ s.windowAddr then !s.listInUse ((s.windowAddr - 0x50000) / 4) else _) = true then _ else _) = _
  rw [if_pos hlist]
  cases s.listInUse ((s.windowAddr - 0x50000) / 4) <;> rfl

/-- The owner maps are not written while bank_write is 0 (R185, R213). -/
theorem ttWrite_closedBank (hbank : s.windowAddr < 0x40000) (hclosed : s.flag rTTB_EXP fTTB_EXP_bank_write = false) :
    s.ttWrite v = s.warn 0x39 := by
  refine if_neg ?_
  change ¬ (if 0x50000 ≤ s.windowAddr then _ else if s.windowAddr < 0x40000 then _ else _) = true
  rw [if_neg (by omega), if_pos hbank, hclosed]
  exact Bool.false_ne_true

end Window

/-! ### The refusal log (R44, R199) -/

section Log

variable {s : State}

theorem ttbLogPop_cons {w : Word} {rest : List Word} (hlog : s.ttbLog = w :: rest) :
    ttbLogPop s = some (w.toNat, ({ s with ttbLog := rest } : State).setReg rTTB_LOG_REPLAY w) := by
  unfold ttbLogPop
  rw [hlog]

theorem ttbLogPop_nil (hlog : s.ttbLog = []) : ttbLogPop s = none := by
  unfold ttbLogPop
  rw [hlog]

end Log

/-! ### The statement -/

/-- Settles O26: through either data register the write is one write of the window, which leaves the list of an enabled flow alone. That
TTB_MEM_DATA_INC steps the address all the same is log entry 76. -/
theorem listOfEnabledFlowIsProtected : Obligations.ListOfEnabledFlowIsProtected := by
  intro s q v a hlist huse
  have hwarns : s.ttWrite v = s.warn 0x39 := (ttWrite_slotList hlist).trans (if_pos huse)
  exact ⟨fun ha => exec_writeReg_accepted rfl ha hwarns, fun ha => exec_writeReg_accepted rfl ha (congrArg State.ttAdvance hwarns),
    flag_warn s 0x39, rfl⟩

end Sys2Proof.Machine
end

section
/-! PROOF. The timetable's rows (R185, R189, R190, R192, R196, R197, R213): distribution, fragments, the effect slot, the class 0 transmit store and
the swap of banks. That fragments show in the inactive bank as they come, and the boundary a swap waits for, are log entry 32. -/
namespace Sys2Proof.Machine

/-- Of both attachments in turn, one that leaves the state as it is drops out. -/
theorem foldl_attachments {f : State → Nat → State} (x : Fin 2) (hskip : ∀ t, f t (1 - x : Fin 2) = t) (s : State) :
    [0, 1].foldl f s = f s x := by
  obtain rfl | rfl : x = 0 ∨ x = 1 := by omega
  · exact hskip (f s 0)
  · exact congrArg (f · 1) (hskip s)

section Rows

variable {s : State} {v : Word} {x : Fin 2}

/-! ### Commands on one attachment (R189, R213) -/

/-- The bit of a master's attachment alone distributes its image there. -/
theorem ttbCmdFx_distributes (hbit : bitOf v x = true) (hother : bitOf v (1 - x : Fin 2) = false) (hmaster : s.rcState x = rcMaster) :
    ttbCmdFx v s = s.distribute x (s.effectSlot x) :=
  (foldl_attachments x (fun t => if_neg (by simp [hother])) s).trans (if_pos (by simp [hbit, hmaster]))

/-- The bit of an attachment alone has its banks change places at the next period boundary. -/
theorem ttbSwapFx_asks (hbit : bitOf v x = true) (hother : bitOf v (1 - x : Fin 2) = false) (hopen : s.flag rTTB_EXP fTTB_EXP_bank_write = true) :
    let p := 2 ^ s.swapN x
    ttbSwapFx v s = s.setTtb x { s.ttb x with swap := some ((s.slot / p + 1) * p % 2 ^ 20) } :=
  (if_pos hopen).trans ((foldl_attachments x (fun _ => if_neg (ne_true_of_eq_false hother)) s).trans (if_pos hbit))

/-! ### Fragments of a table (R190, R192) -/

section Fragments

variable {id n st effect : Nat} {crc : Word} {data : List Byte} (hon : s.enabled 0x38 = true)
  (hclosed : s.flag rTTB_EXP fTTB_EXP_bank_write = false)
include hon hclosed

/-- Of the table in force only the last fragment counts. -/
theorem tableFragment_inForce (no count : Nat) (hvalid : s.ttValid x = true) (hid : s.get (rTTB_STATUS x) fTTB_STATUS_table_id = id) :
    s.tableFragment x id n st effect no count crc data = if no + 1 = count then s.readmitAll else s :=
  (if_neg (by simp [hon, hclosed])).trans (if_pos (by simp [hvalid, hid]))

/-- The first fragment of two begins a set, which is not complete yet. -/
theorem tableFragment_begins (hnone : s.ttValid x = false) (hpend : (s.ttb x).pend = none) (hasm : (s.ttb x).asm = none) (heffect : effect < 2 ^ 20) :
    s.tableFragment x id n st effect 0 2 crc data =
      (s.setTtb x { s.ttb x with asm := some ⟨id, n, st, effect, 2, crc, [(0, data)]⟩, due := some effect }).showAsm x := by
  have htimed : effect ≠ 0xFFFFFFFF := by omega
  refine (if_neg (by simp [hon, hclosed])).trans ((if_neg (by simp [hnone])).trans ((if_neg (by simp [hpend])).trans ?_))
  simp only [hasm, List.filter_nil, if_neg htimed, Nat.mod_eq_of_lt heffect]
  exact if_neg (by simp [List.range_succ])

end Fragments

/-! ### The effect slot (R190, R192) -/

theorem tableEffect_pending {t : TablePend} (hpend : (s.ttb x).pend = some t) : s.tableEffect x = s.activate x t.id t.n := by
  unfold State.tableEffect
  rw [hpend]

/-- A set that is not complete by its effect slot is missed. -/
theorem tableEffect_missed (hpend : (s.ttb x).pend = none) (hdue : (s.ttb x).due.isSome = true) (hasm : (s.ttb x).asm.isSome = true) :
    s.tableEffect x = (((((s.setTtb x { s.ttb x with due := none }).put (rTTB_STATUS x) fTTB_STATUS_valid 0).put (rTTB_STATUS x)
      fTTB_STATUS_missed 1).irq 0x38 6).markReadmit x).ttbCause fTTB_FAULT_CAUSE_table_refused := by
  unfold State.tableEffect
  rw [hpend]
  exact if_pos (by simp [hdue, hasm])

end Rows

/-! ### The class 0 transmit store (R196, R197) -/

section Class0

variable {s : State} {o : Nat} {d : Delivered} {rest : List Delivered} (hout : s.outbox o = d :: rest)
include hout

/-- A frame of a flow that is not resident and enabled is discarded. -/
theorem class0Store_disabled (h : let e := (s.setOutbox o rest).ent d.frame.flow; entState e ≠ 1 ∨ entEnabled e = false) :
    s.class0Store o = (s.setOutbox o rest).discardCells d.inp d.frame.cells := by
  unfold State.class0Store
  rw [hout]
  exact if_pos (by simpa using h)

/-- A frame of an enabled flow: dropped while the flow waits for re-admission, an overrun with the store at its limit, else stored. -/
theorem class0Store_enabled :
    let s1 := s.setOutbox o rest
    let e := s1.ent d.frame.flow
    let k := entSlot e
    let st := (s1.ttb (o / 2)).store (o % 2)
    entState e = 1 → entEnabled e = true → s.class0Store o =
      if s1.ctxReadmit k = true then s1.inc (rTTB_CNT_READMIT_DROP (o / 2))
      else if ((sends ((s1.ctxList k).getD [])).filter (fun a => a.att = o / 2)).length ≤ (st.filter (fun a => a.1 = d.frame.flow)).length then
        (s1.inc (rTTB_CNT_OVERRUN (o / 2))).cntCtx k 0x6C 1
      else s1.setStore (o / 2) (o % 2) (st ++ [(d.frame.flow, { frame := d.frame, tail := .clean, crc := d.frame.trailer })]) := by
  intro s1 e k st hres hen
  unfold State.class0Store
  rw [hout]
  exact if_neg (by simp [hres, hen, e, s1])

end Class0

/-! ### The statement -/

/-- Settles O25: the rows by their own cases, then the window and the log. -/
theorem timetableActs : Obligations.TimetableActs := by
  refine ⟨fun s => ⟨fun q v x ha hbit hother hmaster => exec_writeReg_accepted rfl ha (ttbCmdFx_distributes hbit hother hmaster),
      fun x id n st effect no count crc data hon hclosed hvalid hid =>
        congrArg (finish s) (tableFragment_inForce hon hclosed no count hvalid hid),
      fun x id n st effect crc data hon hclosed hnone hpend hasm heffect =>
        congrArg (finish s) (tableFragment_begins hon hclosed hnone hpend hasm heffect),
      fun x t hon hpend => congrArg (finish s) ((if_pos hon).trans (tableEffect_pending hpend)),
      fun x hon hpend hdue hasm => congrArg (finish s) ((if_pos hon).trans (tableEffect_missed hpend hdue hasm)), ?class0,
      fun q v x ha hbit hother hopen => exec_writeReg_accepted rfl ha (ttbSwapFx_asks hbit hother hopen)⟩,
    fun s q => ⟨?entry, fun v ha hbank hclosed => exec_writeReg_accepted rfl ha (ttWrite_closedBank hbank hclosed),
      fun v mp ha => exec_writeReg_accepted rfl ha rfl, fun mp ha => congrArg (finish s) (rowRead_allowed ha false ttbMemIncRead), rfl,
      fun mp w rest ha hlog => congrArg (finish s) (popRead_some ha false 0 w.toNat ttbLogPop (ttbLogPop_cons hlog)),
      fun mp ha hlog => congrArg (finish s) (popRead_none ha false 0 ttbLogPop (ttbLogPop_nil hlog))⟩⟩
  case class0 =>
    intro o d rest hout s1 e k st held limit
    refine ⟨fun h => congrArg (finish s) (class0Store_disabled hout h), fun hres hen hwait => ?drop, fun hres hen hgo hroom => ?store,
      fun hres hen hgo hfull => ?overrun⟩
    all_goals refine congrArg (finish s) ((class0Store_enabled hout hres hen).trans ?_)
    case drop => exact if_pos hwait
    case store => exact (if_neg (ne_true_of_eq_false hgo)).trans (if_neg (Nat.not_le.2 hroom))
    case overrun => exact (if_neg (ne_true_of_eq_false hgo)).trans (if_pos hfull)
  case entry =>
    intro v ha hlist hfree
    have hstores : s.ttWrite v = s.setTtBytes s.windowAddr (leBytes 4 v.toNat) :=
      (ttWrite_slotList hlist).trans (if_neg (ne_true_of_eq_false hfree))
    exact ⟨exec_writeReg_accepted rfl ha hstores, ttWord_setTtBytes_leBytes s _ v, fun b hb => ttByte_setTtBytes_out s _ _ hb⟩

end Sys2Proof.Machine
end

section
/-! PROOF. The time bases (R215 to R220, R231, R232, R242): what a tick of the clocks, a step and a rate make of a base, and what a step beside it
leaves alone; then the commands of the bases. -/
namespace Sys2Proof.Machine

/-! ### One base -/

@[simp] theorem base_setBase (s : State) (b : Nat) (x : BaseSt) : (s.setBase b x).base b = x := spGet_spSet_same ..

theorem base_setBase_ne (s : State) {b c : Nat} (x : BaseSt) (h : c ≠ b) : (s.setBase b x).base c = s.base c := spGet_spSet_ne _ _ _ h

/-- A state with the same bases reads the same. -/
theorem base_congr {s t : State} (h : s.bases = t.bases) (b : Nat) : s.base b = t.base b := by
  unfold State.base
  rw [h]

namespace BaseSt

/-- A base set to a time within its 48-bit seconds is at that time. -/
theorem total_setTotal (x : BaseSt) {n : Nat} (h : n < 2 ^ 48 * 1000000000) : (x.setTotal n).total = n := by
  simp only [total, setTotal]
  omega

@[simp] theorem step_tick (x : BaseSt) : x.tick.step = x.step := by rw [tick, setTotal]

theorem ns_tick_lt (x : BaseSt) : x.tick.ns < 1000000000 := Nat.mod_lt _ (by decide)

theorem frac_tick_lt (x : BaseSt) : x.tick.frac < 2 ^ 40 := Nat.mod_lt _ (by decide)

/-- A tick adds the increment to time and fraction together, while the carry stays within the seconds (R215). -/
theorem total_tick {x : BaseSt} (h : x.total + (x.frac + x.inc) / 2 ^ 40 < 2 ^ 48 * 1000000000) :
    x.tick.total * 2 ^ 40 + x.tick.frac = x.total * 2 ^ 40 + x.frac + x.inc := by
  have htotal : x.tick.total = x.total + (x.frac + x.inc) / 2 ^ 40 := total_setTotal x h
  have hfrac : x.tick.frac = (x.frac + x.inc) % 2 ^ 40 := rfl
  omega

/-- A base whose seconds are not the last of the 48 bits has room for a tick at the largest increment (R216). -/
theorem tick_fits {x : BaseSt} (hns : x.ns < 1000000000) (hsec : x.sec < 2 ^ 48 - 1) (hfrac : x.frac < 2 ^ 40) (hinc : x.inc ≤ incMax) :
    x.total + (x.frac + x.inc) / 2 ^ 40 < 2 ^ 48 * 1000000000 := by
  unfold incMax at hinc
  unfold total
  omega

end BaseSt

/-! ### A tick of the clocks (R215, R217, R218) -/

/-- Base b takes its increment, where it is enabled. -/
def State.tickBase (s : State) (b : Nat) : State := if s.enabled (0x40 + b) then s.setBase b (s.base b).tick else s

/-- The four bases take their increments. -/
def State.tickBases (s : State) : State := [0, 1, 2, 3].foldl State.tickBase s

/-- The power die's clock goes on by one tick. -/
def State.powerTick (s : State) : State := { s with pd := { s.pd with ticks := s.pd.ticks + 1 } }

section Tick

variable (s : State)

theorem tickBase_eq (b : Nat) : s.tickBase b = { s with bases := (s.tickBase b).bases } := by
  unfold State.tickBase
  split <;> rfl

theorem foldl_tickBase_eq (l : List Nat) : l.foldl State.tickBase s = { s with bases := (l.foldl State.tickBase s).bases } := by
  induction l generalizing s with
  | nil => rfl
  | cons b l ih => rw [List.foldl_cons, ih, tickBase_eq]

theorem enabled_tickBase (b p : Nat) : (s.tickBase b).enabled p = s.enabled p := by
  rw [tickBase_eq]
  rfl

theorem base_tickBase_ne {b c : Nat} (h : c ≠ b) : (s.tickBase b).base c = s.base c := by
  unfold State.tickBase
  split
  · exact base_setBase_ne s _ h
  · rfl

theorem base_tickBase (b : Nat) : (s.tickBase b).base b = if s.enabled (0x40 + b) then (s.base b).tick else s.base b := by
  unfold State.tickBase
  split
  · exact base_setBase s b _
  · rfl

/-- Each base of a list without repeats takes its increment once, and no other. -/
theorem base_foldl_tickBase {l : List Nat} (hl : l.Nodup) (b : Nat) :
    (l.foldl State.tickBase s).base b = if b ∈ l ∧ s.enabled (0x40 + b) = true then (s.base b).tick else s.base b := by
  induction l generalizing s with
  | nil => simp
  | cons c l ih =>
    obtain ⟨hc, hl⟩ := List.nodup_cons.1 hl
    rw [List.foldl_cons, ih _ hl, enabled_tickBase]
    by_cases hb : b = c
    · subst hb
      simp [hc, base_tickBase]
    · simp [hb, base_tickBase_ne s hb]

theorem base_tickBases {b : Nat} (hb : b < 4) : s.tickBases.base b = if s.enabled (0x40 + b) then (s.base b).tick else s.base b := by
  have hmem : b ∈ [0, 1, 2, 3] := by simp; omega
  unfold State.tickBases
  rw [base_foldl_tickBase s (by decide)]
  simp only [hmem, true_and]

/-- A tick while the time island runs (R215, R217). -/
theorem clockTick_runs (h : s.islandRuns = true) : s.clockTick = { s.powerTick with
    bases := s.powerTick.tickBases.bases, servo := { s.servo with island := (s.servo.island + 4) % 2 ^ 64 } } := by
  have htick : s.clockTick = { s.powerTick.tickBases with
      servo := { s.powerTick.tickBases.servo with island := (s.powerTick.tickBases.servo.island + 4) % 2 ^ 64 } } := if_pos h
  rw [htick]
  unfold State.tickBases
  rw [foldl_tickBase_eq]
  rfl

/-- A tick while the time island stands (R218). -/
theorem clockTick_stands (h : s.islandRuns = false) : s.clockTick = s.powerTick := if_neg (ne_true_of_eq_false h)

theorem base_clockTick (h : s.islandRuns = true) {b : Nat} (hb : b < 4) :
    s.clockTick.base b = if s.enabled (0x40 + b) then (s.base b).tick else s.base b := by
  rw [clockTick_runs s h]
  exact base_tickBases s.powerTick hb

end Tick

/-! ### What a step of a base leaves alone (R219, R239, R512) -/

/-- From s to t the bases and the island count are kept. -/
structure SameClocks (s t : State) : Prop where
  bases : t.bases = s.bases
  island : t.servo.island = s.servo.island

namespace SameClocks

variable {s t u : State}

theorem refl (s : State) : SameClocks s s := ⟨rfl, rfl⟩

theorem ite {c : Prop} [Decidable c] (h : SameClocks s t) (h' : SameClocks s u) : SameClocks s (if c then t else u) := by
  split
  · exact h
  · exact h'

/-- A branch that goes on from what the other leaves. -/
theorem iteThen {c : Prop} [Decidable c] (h : SameClocks s t) (hu : SameClocks s t → SameClocks s u) : SameClocks s (if c then u else t) :=
  (hu h).ite h
theorem iteElse {c : Prop} [Decidable c] (h : SameClocks s t) (hu : SameClocks s t → SameClocks s u) : SameClocks s (if c then t else u) :=
  h.ite (hu h)

theorem foldl {α : Type} {f : State → α → State} {l : List α} (h : SameClocks s t) (hf : ∀ {u x}, SameClocks s u → SameClocks s (f u x)) :
    SameClocks s (l.foldl f t) := List.foldlRecOn l f h fun _ hu _ _ => hf hu

theorem setReg {a v} (h : SameClocks s t) : SameClocks s (t.setReg a v) := ⟨h.bases, h.island⟩
theorem put {a f v} (h : SameClocks s t) : SameClocks s (t.put a f v) := h.setReg
theorem inc {a} (h : SameClocks s t) : SameClocks s (t.inc a) := h.setReg
theorem irq {p n} (h : SameClocks s t) : SameClocks s (t.irq p n) := h.setReg
theorem warn {p} (h : SameClocks s t) : SameClocks s (t.warn p) := h.put
theorem emit {o} (h : SameClocks s t) : SameClocks s (t.emit o) := ⟨h.bases, h.island⟩
theorem raise {src} (h : SameClocks s t) : SameClocks s (t.raise src) := ⟨h.bases, h.island⟩

theorem setBytes {a l} (h : SameClocks s t) : SameClocks s (t.setBytes a l) := by
  induction l generalizing t a with
  | nil => exact h
  | cons x l ih => exact ih ⟨h.bases, h.island⟩

theorem stagePut {type detail data gap pdMs} (h : SameClocks s t) : SameClocks s (t.stagePut type detail data gap pdMs) := h.setBytes.put

theorem stage {type detail data pdMs} (h : SameClocks s t) : SameClocks s (t.stage type detail data pdMs) := by
  have hledg (l : LedgSt) : SameClocks s { t with ledg := l } := ⟨h.bases, h.island⟩
  exact .ite h (.ite (hledg _).inc.irq.raise (.ite h.stagePut (hledg _).stagePut.stagePut))

theorem setCompare {n time} (h : SameClocks s t) : SameClocks s (t.setCompare n time) := h.setReg.setReg.setReg

theorem setEvent {n l} (h : SameClocks s t) : SameClocks s (t.setEvent n l) := .iteThen ⟨h.bases, h.island⟩ (·.emit)

theorem eventAction {n} (h : SameClocks s t) : SameClocks s (t.eventAction n) := by
  have hpulse (l : Bool) : SameClocks s (t.setEvent n l) := h.setEvent
  exact .ite ⟨(hpulse _).bases, (hpulse _).island⟩ (.ite h.setEvent (.iteThen h (·.setEvent)))

theorem trigger {n clove} (h : SameClocks s t) : SameClocks s (t.trigger n clove) := .iteElse h (fun h => ⟨h.bases, h.island⟩)

/-- An event unit that fires. -/
theorem fireUnit {n now late} (h : SameClocks s t) : SameClocks s (t.fireUnit n now late) := by
  unfold State.fireUnit
  extract_lets cfg a fired servo cleared lateSet irqSet acted tc td sent clove out per c
  have hcleared : SameClocks s cleared := ⟨h.bases, h.island⟩
  have hacted : SameClocks s acted := .eventAction (.iteThen (.iteThen hcleared (·.put.irq)) (·.irq))
  have hout : SameClocks s out := .iteThen (.iteThen (.iteThen hacted (·.emit)) (·.trigger)) (·.trigger)
  exact .ite hout.put hout.setCompare

end SameClocks

/-! ### Steps and rates (R216, R219) -/

/-- Base b at the time that a step of n nanoseconds leads to, within the 48-bit seconds. -/
def State.steppedBase (s : State) (b : Nat) (n : Int) : BaseSt :=
  (s.base b).setTotal (((s.base b).total + n) % ((2 : Int) ^ 48 * 1000000000)).toNat

/-- All that a step does beside moving its base leaves bases and island count alone: the record of the count, the units passed over, the ledger. -/
theorem applyStep_sameClocks (s : State) (b : Nat) (n : Int) : SameClocks (s.setBase b (s.steppedBase b n)) (s.applyStep b n) :=
  .iteThen (.iteThen (SameClocks.refl _).setReg.setReg.put.inc.irq (·.foldl (fun h => .iteThen h (·.fireUnit)))) (·.stage)

theorem base_applyStep (s : State) (b : Nat) (n : Int) : (s.applyStep b n).base b = s.steppedBase b n :=
  (base_congr (applyStep_sameClocks s b n).bases b).trans (base_setBase ..)

/-- A step that stays within the seconds moves the time by its value. -/
theorem total_steppedBase {s : State} {b : Nat} {n : Int} (hlo : 0 ≤ ((s.base b).total : Int) + n)
    (hhi : ((s.base b).total : Int) + n < 2 ^ 48 * 1000000000) : ((s.steppedBase b n).total : Int) = (s.base b).total + n := by
  have hmod : (((s.base b).total + n) % ((2 : Int) ^ 48 * 1000000000)) = (s.base b).total + n := Int.emod_eq_of_lt hlo hhi
  unfold State.steppedBase
  rw [hmod, BaseSt.total_setTotal _ (by omega)]
  omega

theorem clampN_mem {lo hi : Nat} (h : lo ≤ hi) (n : Nat) : lo ≤ clampN lo hi n ∧ clampN lo hi n ≤ hi := by
  unfold clampN
  split_ifs <;> omega

theorem setRate_sameClocks (s : State) (b v : Nat) :
    SameClocks (s.setBase b { s.base b with inc := clampN incMin incMax v }) (s.setRate b v) :=
  .iteElse (SameClocks.refl _).setReg.setReg (·.warn)

theorem base_setRate (s : State) (b v : Nat) : (s.setRate b v).base b = { s.base b with inc := clampN incMin incMax v } :=
  (base_congr (setRate_sameClocks s b v).bases b).trans (base_setBase ..)

/-! ### The commands of the bases (R219, R220, R231, R232, R242) -/

section Commands

variable {s : State} {b : Nat} {v : Word}

theorem tbCmdFx_snap (h0 : bitOf v 0 = true) (h1 : bitOf v 1 = false) : tbCmdFx b v s = s.snap b := by
  simp [tbCmdFx, h0, h1]

theorem tbCmdFx_step (h0 : bitOf v 0 = false) (h1 : bitOf v 1 = true) : tbCmdFx b v s = s.askStep b (s.stepValue b) := by
  simp [tbCmdFx, h0, h1]

theorem askStep_first (hused : s.flag (rTB_STATUS b) fTB_STATUS_step_used = false) (hnone : (s.base b).step = none) (n : Int) :
    s.askStep b n = s.setBase b { s.base b with step := some n } := if_neg (by simp [hused, hnone])

theorem askStep_refused (h : s.flag (rTB_STATUS b) fTB_STATUS_step_used = true ∨ (s.base b).step ≠ none) (n : Int) :
    s.askStep b n = (s.put (rTB_STATUS b) fTB_STATUS_step_refused 1).irq (0x40 + b) 3 :=
  if_pos (by simpa [Option.isSome_iff_ne_none] using h)

/-- The snap registers of a base after a snap (R242). -/
theorem snap_reg (s : State) (b : Nat) :
    (s.snap b).reg (rTB_SNAP_NS b) = toW (s.base b).ns ∧ (s.snap b).reg (rTB_SNAP_SEC_LO b) = toW (s.base b).sec ∧
    (s.snap b).reg (rTB_SNAP_SEC_HI b) = toW ((s.base b).sec / 2 ^ 32) ∧ (s.snap b).reg (rTB_SNAP_IC_LO b) = toW s.servo.island ∧
    (s.snap b).reg (rTB_SNAP_IC_HI b) = toW (s.servo.island / 2 ^ 32) := by
  simp [State.snap, reg_setReg]

theorem lockLost_locked (h : s.locked = true) : s.lockLost = (((s.setLocked false).inc (rTB_CNT_LOCK_LOST 0)).irq 0x40 5).raise 30 := if_pos h

theorem lockLost_unlocked (h : s.locked = false) : s.lockLost = s := if_neg (ne_true_of_eq_false h)

theorem locked_putSourceValid (s : State) (n : Nat) : (s.put (rTB_STATUS 0) fTB_STATUS_source_valid n).locked = s.locked :=
  flag_put_other s _ _ _ n (by decide) (by decide) (by decide)

/-- A source of an enabled TB0 that falls silent, off the root (R231). -/
theorem sourceTimeout_on (hon : s.enabled 0x40 = true) (hroot : s.isRoot = false) :
    s.sourceTimeout = (s.put (rTB_STATUS 0) fTB_STATUS_source_valid 0).lockLost := if_neg (by simp [hon, hroot])

end Commands

/-! ### The statement -/

/-- Settles O27: the commands of the bases by their own rules, then what a step, a rate and a tick make of a base. -/
theorem timeBasesStepAndTick : Obligations.TimeBasesStepAndTick := by
  refine ⟨fun s q b => ⟨?snap, fun v ha h0 h1 => ⟨?step, ?refused⟩, fun v ha h0 => exec_writeReg_accepted rfl ha (if_pos h0),
      fun v ha => exec_writeReg_accepted rfl ha rfl, fun hon hroot => ⟨?silentLocked, ?silent⟩⟩,
    fun s b => ⟨?stepped, ?rate, ?ticks, ?stands⟩⟩
  case snap =>
    intro v ha h0 h1 t
    obtain ⟨hns, hlo, hhi, hislandLo, hislandHi⟩ := snap_reg s b
    exact ⟨exec_writeReg_accepted rfl ha (tbCmdFx_snap h0 h1), hns, hlo, hhi, hislandLo, hislandHi, rfl, rfl⟩
  case step =>
    exact fun hused hnone => exec_writeReg_accepted rfl ha ((tbCmdFx_step h0 h1).trans (askStep_first hused hnone _))
  case refused =>
    exact fun h => exec_writeReg_accepted rfl ha ((tbCmdFx_step h0 h1).trans (askStep_refused h _))
  case silentLocked =>
    exact fun hlocked => congrArg (finish s)
      ((sourceTimeout_on hon hroot).trans (lockLost_locked ((locked_putSourceValid s 0).trans hlocked)))
  case silent =>
    exact fun hlocked => congrArg (finish s)
      ((sourceTimeout_on hon hroot).trans (lockLost_unlocked ((locked_putSourceValid s 0).trans hlocked)))
  case stepped =>
    intro n hlo hhi t
    have hbase : t.base b = s.steppedBase b n := base_applyStep s b n
    rw [hbase]
    exact ⟨total_steppedBase hlo hhi, rfl, rfl, (applyStep_sameClocks s b n).island⟩
  case rate =>
    intro v t
    have hbase : t.base b = { s.base b with inc := clampN incMin incMax v } := base_setRate s b v
    obtain ⟨hlo, hhi⟩ := clampN_mem (by decide : incMin ≤ incMax) v
    rw [hbase]
    exact ⟨rfl, hlo, hhi, (setRate_sameClocks s b v).island⟩
  case ticks =>
    intro hruns hon hns hsec hfrac hinc t
    have hbase : t = (s.base b).tick := (base_clockTick s hruns b.isLt).trans (if_pos hon)
    rw [hbase]
    exact ⟨BaseSt.total_tick (BaseSt.tick_fits hns hsec hfrac hinc), BaseSt.ns_tick_lt _, BaseSt.frac_tick_lt _, by rw [clockTick_runs s hruns]⟩
  case stands =>
    intro hstands
    rw [clockTick_stands s hstands]
    exact ⟨rfl, rfl⟩

end Sys2Proof.Machine
end

section
/-! PROOF. A step with no command waiting (log entry 1): the tick of a hub where nothing is due, and the slot count without a ready ring (R12). That
the count stands at the last slot of an epoch is log entry 81. -/
namespace Sys2Proof.Machine

/-! ### The parts of a tick that find nothing to do -/

/-- A fold whose every step leaves the state gives the state. -/
theorem foldl_eq_self {α β : Type} {f : β → α → β} {l : List α} {b : β} (h : ∀ a ∈ l, f b a = b) : l.foldl f b = b := by
  induction l with
  | nil => rfl
  | cons a l ih =>
    rw [List.foldl_cons, h a (List.mem_cons_self ..)]
    exact ih fun c hc => h c (List.mem_cons_of_mem _ hc)

section Quiet

variable {s : State}

theorem deliverTrigs_none (h : s.servo.trigs = []) : s.deliverTrigs = s := by
  unfold State.deliverTrigs
  rw [h]
  rfl

theorem endPulses_none (h : s.servo.pulses = []) : s.endPulses = s := by
  unfold State.endPulses
  rw [h]
  rfl

theorem stepDue_none {b : Nat} (h : (s.base b).step = none) : s.stepDue b = s := by
  unfold State.stepDue
  rw [h]

theorem fireDue_none (h : ∀ u, u < 16 → s.comparing u = false) (b : Nat) : s.fireDue b = s :=
  foldl_eq_self fun u hu => if_neg (by simp [h u (List.mem_range.1 hu)])

theorem endResets_none (h : s.resets = []) : s.endResets = s := if_pos h

/-- With no request to this hub waiting at either port no turn is taken. -/
theorem localTurn_none (h0 : (s.br 0).locals = []) (h1 : (s.br 1).locals = []) : s.localTurn = s := by
  have hpump : State.localPump (s.br 0).locals.length s 0 = s := by rw [h0]; rfl
  unfold State.localTurn
  dsimp only
  rw [hpump, h1]
  rfl

theorem confirmSoon_none (h : s.flag rFWU_STATUS fFWU_STATUS_confirm_pending = false) : s.confirmSoon = s := if_neg (by simp [h])

end Quiet

/-! ### What the clocks leave alone -/

/-- A tick of the clocks moves the power die's clock, the bases and the island count, and nothing else. -/
theorem clockTick_eq (s : State) : s.clockTick = { s with
    pd := { s.pd with ticks := s.pd.ticks + 1 }, bases := s.clockTick.bases,
    servo := { s.servo with island := s.clockTick.servo.island } } := by
  cases h : s.islandRuns with
  | true => rw [clockTick_runs s h]; rfl
  | false => rw [clockTick_stands s h]; rfl

/-- A tick of the clocks leaves the steps that wait. -/
theorem step_clockTick (s : State) {b : Nat} (hb : b < 4) : (s.clockTick.base b).step = (s.base b).step := by
  cases h : s.islandRuns with
  | false => rw [clockTick_stands s h]; rfl
  | true =>
    rw [base_clockTick s h hb]
    split
    · exact BaseSt.step_tick _
    · rfl

theorem comparing_clockTick (s : State) (u : Nat) : s.clockTick.comparing u = s.comparing u := by
  rw [clockTick_eq]
  rfl

/-- The slot count moves within the slot and from slot to slot, and nothing else. -/
theorem slotTick_eq (s : State) : s.slotTick = { s with slotPhase := s.slotTick.slotPhase, slot := s.slotTick.slot } := by
  unfold State.slotTick
  split_ifs <;> rfl

/-- With no pulse, step or compare due the time island brings no more than its clocks. -/
theorem timeTick_quiet {s : State} (hpulses : s.servo.pulses = []) (hsteps : ∀ b, (s.base b).step = none)
    (hcompares : ∀ u, u < 16 → s.comparing u = false) : s.timeTick = s.clockTick := by
  have hpulses' : s.clockTick.servo.pulses = [] := by rw [clockTick_eq]; exact hpulses
  have hcompares' (u : Nat) (hu : u < 16) : s.clockTick.comparing u = false := (comparing_clockTick s u).trans (hcompares u hu)
  unfold State.timeTick
  dsimp only
  split
  · rw [endPulses_none hpulses']
    refine foldl_eq_self fun b hb => ?_
    have hlt : b < 4 := by simp at hb; omega
    rw [stepDue_none ((step_clockTick s hlt).trans (hsteps b)), fireDue_none hcompares']
  · rfl

/-- Where nothing is due a tick is the clocks' and the slot count's. -/
theorem tick_quiet {s : State} (htrigs : s.servo.trigs = []) (hpulses : s.servo.pulses = []) (hsteps : ∀ b, (s.base b).step = none)
    (hcompares : ∀ u, u < 16 → s.comparing u = false) (hresets : s.resets = []) (hlocals0 : (s.br 0).locals = [])
    (hlocals1 : (s.br 1).locals = []) (hconfirm : s.flag rFWU_STATUS fFWU_STATUS_confirm_pending = false) : s.tick = s.clockTick.slotTick := by
  have htrigs' : s.clockTick.servo.trigs = [] := by rw [clockTick_eq]; exact htrigs
  have hresets' : s.clockTick.slotTick.resets = [] := by rw [slotTick_eq, clockTick_eq]; exact hresets
  have hbr (h : Nat) : s.clockTick.slotTick.br h = s.br h := by rw [slotTick_eq, clockTick_eq]; rfl
  have hconfirm' : s.clockTick.slotTick.flag rFWU_STATUS fFWU_STATUS_confirm_pending = false := by
    rw [slotTick_eq, clockTick_eq]; exact hconfirm
  unfold State.tick
  rw [deliverTrigs_none htrigs, timeTick_quiet hpulses hsteps hcompares, deliverTrigs_none htrigs', endResets_none hresets',
    localTurn_none ((congrArg BrSt.locals (hbr 0)).trans hlocals0) ((congrArg BrSt.locals (hbr 1)).trans hlocals1), confirmSoon_none hconfirm']

/-! ### The slot count (R12) -/

/-- Without a ready ring a tick is 40 of the slot's 1024 parts; the last slot of an epoch does not end by itself. -/
theorem slotTick_unready {s : State} (hruns : s.islandRuns = true) (h0 : s.flag (rRCTL_STATUS 0) fRCTL_STATUS_ring_ready = false)
    (h1 : s.flag (rRCTL_STATUS 1) fRCTL_STATUS_ring_ready = false) :
    s.slotTick = if s.slotPhase + 40 < 1024 then { s with slotPhase := s.slotPhase + 40 }
      else if s.slot % 2 ^ 20 = 2 ^ 20 - 1 then s
      else { s with slotPhase := s.slotPhase + 40 - 1024, slot := s.slot + 1 } := if_neg (by simp [hruns, h0, h1])

/-! ### The statement -/

/-- Settles O2: the step of an empty queue, the clocks' tick, the tick where nothing is due, the slot count. That the count stands at the last slot
of an epoch is log entry 81. -/
theorem idleStepIsOneTick : Obligations.IdleStepIsOneTick := by
  refine fun s => ⟨fun hidle => ?step, ?clocks, tick_quiet, fun hruns h0 h1 => ?slots⟩
  case step =>
    unfold step
    rw [hidle, finish_eq]
  case clocks =>
    rw [clockTick_eq]
    refine ⟨rfl, rfl, rfl, rfl, rfl, fun hruns => ⟨?island, fun b hb => base_clockTick s hruns hb⟩, fun hstands => ?stands⟩
    case island => rw [clockTick_runs s hruns]
    case stands =>
      rw [clockTick_stands s hstands]
      exact ⟨rfl, rfl⟩
  case slots =>
    have hslot := slotTick_unready hruns h0 h1
    refine ⟨fun hwithin => hslot.trans (if_pos hwithin), fun hends hnext => ?next, fun hends hlast => ?last⟩
    all_goals refine (hslot.trans (if_neg (Nat.not_lt.2 hends))).trans ?_
    case next => exact if_neg hnext
    case last => exact if_pos hlast

end Sys2Proof.Machine
end

section
/-! PROOF. Interrupts to the hosts (R248, R499, R504): what the requests of pages depend on, what a message or a PBA bit leaves, and what the end of a
command adds to an effect that raised no fault event. -/
namespace Sys2Proof.Machine

/-! ### A selection of a sparse store -/

section Sparse

variable {β : Type} {p : Nat × β → Bool} {k : Nat}

theorem filter_spErase (hp : ∀ v, p (k, v) = false) (m : List (Nat × β)) : (spErase m k).filter p = m.filter p := by
  induction m with
  | nil => rfl
  | cons e m ih =>
    obtain ⟨a, v⟩ := e
    by_cases ha : a = k
    · subst a
      simp [spErase, ih, hp]
    · simp [spErase, ha, List.filter_cons, ih]

theorem filter_spInsert (hp : ∀ v, p (k, v) = false) (m : List (Nat × β)) (v : β) : (spInsert m k v).filter p = m.filter p := by
  induction m with
  | nil => simp [spInsert, hp]
  | cons e m ih =>
    obtain ⟨a, w⟩ := e
    by_cases hk : k < a
    · simp [spInsert, hk, List.filter_cons, hp]
    · simp [spInsert, hk, List.filter_cons, ih]

/-- A selection that never takes key k does not see a write of it. -/
theorem filter_spSet [DecidableEq β] (d : Nat → β) (hp : ∀ v, p (k, v) = false) (m : List (Nat × β)) (v : β) :
    (spSet d m k v).filter p = m.filter p := by
  unfold spSet
  split
  · exact filter_spErase hp m
  · rw [filter_spInsert hp, filter_spErase hp]

end Sparse

/-! ### The vectors that pages request -/

section Delivery

variable {s t : State} {g h : Nat}

/-- HBx_MSIX_PBA has an offset of its own in its page. -/
theorem offset_pba (h : Nat) : rHBx_MSIX_PBA h % 0x1000 = 0x068 := by unfold rHBx_MSIX_PBA; omega

theorem ne_pba {a : Nat} (ha : a % 0x1000 ≠ 0x068) (h : Nat) : a ≠ rHBx_MSIX_PBA h := fun heq => ha (heq ▸ offset_pba h)

theorem not_isPba {a : Nat} (ha : a % 0x1000 ≠ 0x068) : ¬ isPba a := not_or.2 ⟨ne_pba ha 0, ne_pba ha 1⟩

/-- The vector controls lie at offsets of another residue than HBx_MSIX_PBA. -/
theorem not_isPba_msixCtrl (h v : Nat) : ¬ isPba (rHBx_MSIX_CTRL h v) := by
  refine not_isPba ?_
  unfold rHBx_MSIX_CTRL
  omega

theorem pba_ne (hgh : g ≠ h) : rHBx_MSIX_PBA h ≠ rHBx_MSIX_PBA g := by
  unfold rHBx_MSIX_PBA
  omega

/-- The routes of a host lie above its HBx_MSIX_PBA and above that of a lower host. -/
theorem route_ne_pba (hgh : g ≤ h) (n : Nat) : rHBx_IRQ_ROUTE h n ≠ rHBx_MSIX_PBA g := by
  unfold rHBx_IRQ_ROUTE rHBx_MSIX_PBA
  omega

/-- Which pages request an interrupt rests on PG_IRQ_STAT and PG_IRQ_EN alone (R34). -/
theorem reqPages_setReg (s : State) {a : Nat} (w : Word) (hstat : a % 0x1000 ≠ 0x00C) (hen : a % 0x1000 ≠ 0x010) :
    (s.setReg a w).reqPages = s.reqPages := by
  have hread (e : Nat × Word) : (decide (e.1 % 0x1000 = 0x00C) && (e.2 &&& (s.setReg a w).reg (e.1 + 4)) != 0) =
      (decide (e.1 % 0x1000 = 0x00C) && (e.2 &&& s.reg (e.1 + 4)) != 0) := by
    by_cases he : e.1 % 0x1000 = 0x00C
    · rw [reg_setReg_ne s w (by omega)]
    · simp [he]
  unfold State.reqPages
  rw [List.filter_congr fun e _ => hread e]
  exact congrArg _ (filter_spSet _ (by simp [hstat]) _ _)

theorem vectors_setReg_pba (s : State) (w : Word) (hgh : g ≤ h) : (s.setReg (rHBx_MSIX_PBA g) w).vectors h = s.vectors h := by
  have hpages : (s.setReg (rHBx_MSIX_PBA g) w).reqPages = s.reqPages :=
    reqPages_setReg s w (by rw [offset_pba]; decide) (by rw [offset_pba]; decide)
  have hlevel : (s.setReg (rHBx_MSIX_PBA g) w).get rFLT_PENDING fFLT_PENDING_level2 = s.get rFLT_PENDING fFLT_PENDING_level2 :=
    get_congr _ (reg_setReg_ne s w (ne_pba (by decide) g))
  have hroute : (s.setReg (rHBx_MSIX_PBA g) w).routeOf h = s.routeOf h := by
    funext p
    unfold State.routeOf
    rw [reg_setReg_ne s w (route_ne_pba hgh _)]
  have hrequests : (s.setReg (rHBx_MSIX_PBA g) w).requests h = s.requests h := by
    funext p
    unfold State.requests
    rw [reg_setReg_ne s w (ne_pba (by unfold rPG_IRQ_STAT; omega) g), reg_setReg_ne s w (ne_pba (by unfold rPG_IRQ_EN; omega) g)]
    rfl
  unfold State.vectors
  rw [hpages, hlevel, hroute, hrequests]

/-! ### What the delivery at one host leaves -/

/-- What every request of a vector keeps, the delivery at a host keeps. -/
theorem deliverHost_keeps {P : State → Prop} (s : State) (ht : P t) (hrequest : ∀ u v, P u → P (u.request h v)) :
    P (State.deliverHost s t h) := by
  unfold State.deliverHost
  split
  · exact List.foldlRecOn _ _ ht fun u hu v _ => hrequest u v hu
  · exact ht

/-- The delivery at host A does not bear on the vectors of host B. -/
theorem vectors_deliverHost (s t : State) (hgh : g ≤ h) : (State.deliverHost s t g).vectors h = t.vectors h := by
  refine deliverHost_keeps (P := fun u => u.vectors h = t.vectors h) s rfl fun u v hu => Eq.trans ?_ hu
  unfold State.request
  split
  · exact vectors_setReg_pba u _ hgh
  · rfl

theorem reg_pba_deliverHost (s t : State) (hgh : g ≠ h) : (State.deliverHost s t g).reg (rHBx_MSIX_PBA h) = t.reg (rHBx_MSIX_PBA h) := by
  refine deliverHost_keeps (P := fun u => u.reg (rHBx_MSIX_PBA h) = t.reg (rHBx_MSIX_PBA h)) s rfl fun u v hu => Eq.trans ?_ hu
  unfold State.request
  split
  · exact reg_setReg_ne _ _ (pba_ne hgh)
  · rfl

theorem pcieOn_deliverHost (s t : State) (hg : g < 2) : (State.deliverHost s t g).pcieOn h = t.pcieOn h := by
  have henabled : (State.deliverHost s t g).enabled (hostPage h) = t.enabled (hostPage h) :=
    flag_congr _ (deliverHost_reg s t hg (not_isPba (by unfold rPG_CTRL; omega)))
  have hmode : (State.deliverHost s t g).get (rHBx_CFG h) fHBx_CFG_mode = t.get (rHBx_CFG h) fHBx_CFG_mode :=
    get_congr _ (deliverHost_reg s t hg (not_isPba (by unfold rHBx_CFG; omega)))
  unfold State.pcieOn
  rw [henabled, hmode]

/-- From s to t nothing is sent but MSI-X messages and the trap. -/
def AddsInterrupts (s t : State) : Prop := ∃ l, t.out = l ++ s.out ∧ ∀ o ∈ l, o = .trap ∨ ∃ h v, o = .msix h v

theorem AddsInterrupts.refl (s : State) : AddsInterrupts s s := ⟨[], rfl, by simp⟩

theorem AddsInterrupts.trans {u : State} (h : AddsInterrupts s t) (k : AddsInterrupts t u) : AddsInterrupts s u := by
  obtain ⟨l, hl, hall⟩ := h
  obtain ⟨m, hm, hall'⟩ := k
  refine ⟨m ++ l, by rw [hm, hl, List.append_assoc], fun o ho => ?_⟩
  rcases List.mem_append.1 ho with ho | ho
  · exact hall' o ho
  · exact hall o ho

/-- What has been sent stays sent. -/
theorem AddsInterrupts.mem {o : Out} (h : AddsInterrupts s t) (ho : o ∈ s.out) : o ∈ t.out := by
  obtain ⟨l, hl, -⟩ := h
  rw [hl]
  exact List.mem_append_right l ho

theorem request_adds (s : State) (h v : Nat) : AddsInterrupts s (s.request h v) := by
  unfold State.request
  split
  · exact .refl s
  · exact ⟨[.msix h v], rfl, by simp⟩

theorem deliverHost_adds (s t : State) (h : Nat) : AddsInterrupts t (State.deliverHost s t h) :=
  deliverHost_keeps s (.refl t) fun u v hu => hu.trans (request_adds u h v)

/-! ### What the delivery at one host brings -/

theorem bitOf_or (v w : Word) (n : Nat) : bitOf (v ||| w) n = (bitOf v n || bitOf w n) := by
  unfold bitOf
  rw [BitVec.toNat_or, Nat.testBit_or]

/-- A vector that is requested has its message, or its PBA bit while it is masked. -/
def VectorAnswered (s t : State) (h v : Nat) : Prop :=
  (s.flag (rHBx_MSIX_CTRL h v) fHBx_MSIX_CTRL_mask = false → .msix h v ∈ t.out) ∧
  (s.flag (rHBx_MSIX_CTRL h v) fHBx_MSIX_CTRL_mask = true → v < 32 → bitOf (t.reg (rHBx_MSIX_PBA h)) v = true)

theorem VectorAnswered.request (s : State) (h v : Nat) : VectorAnswered s (s.request h v) h v := by
  unfold State.request
  refine ⟨fun hopen => ?_, fun hmasked hlt => ?_⟩
  · rw [if_neg (ne_true_of_eq_false hopen)]
    exact List.mem_cons_self
  · rw [if_pos hmasked, reg_setReg_same, bitOf_or, bitOf_two_pow hlt, decide_eq_true rfl, Bool.or_true]

/-- A message stays sent and a PBA bit stays set while other vectors are requested. -/
theorem VectorAnswered.requestMore {v : Nat} (ha : VectorAnswered s t h v) (w : Nat) : VectorAnswered s (t.request h w) h v := by
  obtain ⟨hsent, hset⟩ := ha
  refine ⟨fun hopen => (request_adds t h w).mem (hsent hopen), fun hmasked hlt => ?_⟩
  unfold State.request
  split
  · rw [reg_setReg_same, bitOf_or, hset hmasked hlt, Bool.true_or]
  · exact hset hmasked hlt

theorem VectorAnswered.requests (hh : h < 2) {l : List Nat} {v : Nat} (hv : v ∈ l) : VectorAnswered s (l.foldl (fun s v => s.request h v) s) h v := by
  induction l generalizing s with
  | nil => cases hv
  | cons w l ih =>
    rcases List.mem_cons.1 hv with rfl | hv
    · exact List.foldlRecOn (motive := fun u => VectorAnswered s u h v) l _ (.request s h v) fun u hu w _ => hu.requestMore w
    · have hmask := flag_congr fHBx_MSIX_CTRL_mask (request_reg s hh w (not_isPba_msixCtrl h v))
      have htail : VectorAnswered (s.request h w) _ h v := ih hv
      unfold VectorAnswered at htail ⊢
      rwa [hmask] at htail

/-- A vector that has come to be requested at a host port in PCI Express mode is answered (R248). -/
theorem deliverHost_answers {v : Nat} (hh : h < 2) (hon : t.pcieOn h = true) (hnow : v ∈ t.vectors h) (hwas : v ∉ s.vectors h) :
    VectorAnswered t (State.deliverHost s t h) h v := by
  unfold State.deliverHost
  rw [if_pos hon]
  exact .requests hh (List.mem_filter.2 ⟨hnow, by simpa using hwas⟩)

end Delivery

/-! ### The end of a command -/

/-- The trap to Anise when a class comes to be pending at level 2 or above (R504). -/
def State.trapSent (before after : State) : State :=
  if before.get rFLT_PENDING fFLT_PENDING_level2 = 0 && after.get rFLT_PENDING fFLT_PENDING_level2 != 0 then after.emit .trap else after

theorem deliver_eq (b t : State) : State.deliver b t = State.deliverHost b (State.deliverHost b (State.trapSent b t) 0) 1 := rfl

theorem trapSent_adds (b t : State) : AddsInterrupts t (State.trapSent b t) := by
  unfold State.trapSent
  split
  · exact ⟨[.trap], rfl, by simp⟩
  · exact .refl t

/-- The trap is an output and nothing else. -/
theorem trapSent_eq (b t : State) : State.trapSent b t = { t with out := (State.trapSent b t).out } := by
  unfold State.trapSent
  split <;> rfl

theorem deliver_adds (b t : State) : AddsInterrupts t (State.deliver b t) :=
  (trapSent_adds b t).trans ((deliverHost_adds b _ 0).trans (deliverHost_adds b _ 1))

/-- A vector that has come to be requested at either host is answered. -/
theorem deliver_answers {b t : State} {h v : Nat} (hh : h < 2) (hon : t.pcieOn h = true) (hnow : v ∈ t.vectors h) (hwas : v ∉ b.vectors h) :
    VectorAnswered t (State.deliver b t) h v := by
  have htrap := trapSent_eq b t
  have hon' : (State.trapSent b t).pcieOn h = true := by rw [htrap]; exact hon
  have hnow' : v ∈ (State.trapSent b t).vectors h := by rw [htrap]; exact hnow
  have hmask : (State.trapSent b t).flag (rHBx_MSIX_CTRL h v) fHBx_MSIX_CTRL_mask = t.flag (rHBx_MSIX_CTRL h v) fHBx_MSIX_CTRL_mask := by
    rw [htrap]; rfl
  rw [deliver_eq]
  rcases (by omega : h = 0 ∨ h = 1) with rfl | rfl
  · obtain ⟨hsent, hset⟩ := deliverHost_answers hh hon' hnow' hwas
    refine ⟨fun hopen => (deliverHost_adds b _ 1).mem (hsent (hmask.trans hopen)), fun hmasked hlt => ?_⟩
    rw [reg_pba_deliverHost _ _ (by decide)]
    exact hset (hmask.trans hmasked) hlt
  · have hkept := flag_congr fHBx_MSIX_CTRL_mask (deliverHost_reg b (State.trapSent b t) (h := 0) (by decide) (not_isPba_msixCtrl 1 v))
    have hon1 := (pcieOn_deliverHost b (State.trapSent b t) (g := 0) (by decide)).trans hon'
    have hvectors := vectors_deliverHost b (State.trapSent b t) (g := 0) (h := 1) (by decide)
    obtain ⟨hsent, hset⟩ := deliverHost_answers hh hon1 (hvectors ▸ hnow') hwas
    exact ⟨fun hopen => hsent ((hkept.trans hmask).trans hopen), fun hmasked => hset ((hkept.trans hmask).trans hmasked)⟩

/-- Settles O7: with no fault event the end of a command is the delivery of interrupts, at host A and then at host B, of what both requested before
either was served (log entry 79). -/
theorem interruptsAreDelivered : Obligations.InterruptsAreDelivered := by
  intro b t hraises r
  have hr : r = { State.deliver b t with pending := b.pending } :=
    congrArg (fun u => { State.deliver b u with pending := b.pending }) (collect_of_nil hraises)
  refine ⟨?core, ?regs, ?outputs, fun h hon v hnow hwas hlt => ?messages⟩
  case core =>
    have hcore : SameCore (State.deliver b t) t := deliver_core b t
    rw [hr]
    exact congrArg (fun u : State => { u with pending := b.pending }) hcore
  case regs =>
    intro a ha
    exact finished_reg hraises (by simpa [isPba] using ha)
  case outputs =>
    rw [hr]
    exact deliver_adds b t
  case messages =>
    obtain ⟨hsent, hset⟩ := deliver_answers h.isLt hon hnow hwas
    rw [hr]
    exact ⟨hsent, fun hmasked => hset hmasked hlt⟩

end Sys2Proof.Machine
end

section
/-! PROOF. The arbiter (R265, R274 to R278): semaphores while no atomic of a host port is at work, the Warden's clears, heartbeats, and who owns a
resource. -/
namespace Sys2Proof.Machine

/-! ### Semaphores (R265, R278) -/

section Semaphores

variable {s : State} {q : Req} {v : Word} {n : Nat}

/-- ARB_SEM_CMD names its semaphore beside the op of the row. -/
theorem sem_semOp (v : Word) (op : Nat) : fldOf (semOp v op) fARB_SEM_CMD_sem = fldOf v fARB_SEM_CMD_sem :=
  fldOf_fldPut_other _ _ _ _ (by decide) (by decide) (by decide)

theorem op_semOp (v : Word) {op : Nat} (hop : op < 8) : fldOf (semOp v op) fARB_SEM_CMD_op = op :=
  (fldOf_fldPut_same _ _ _ (by decide) (by decide)).trans (Nat.mod_eq_of_lt hop)

theorem sem_setSem_ne (s : State) {m n : Nat} (x : SemSt) (h : m ≠ n) : (s.setSem n x).sem m = s.sem m := spGet_spSet_ne _ _ _ h

/-- With no atomic at work at a host port there is none to go on. -/
theorem kickAtom_idle {h : Nat} (hidle : (s.br h).atoms = []) (k : Nat) : s.kickAtom k h = s := by
  cases k with
  | zero => rfl
  | succ k => simp only [State.kickAtom, hidle, List.filter_nil]

theorem kickAtoms_idle (h0 : (s.br 0).atoms = []) (h1 : (s.br 1).atoms = []) : s.kickAtoms = s := by
  unfold State.kickAtoms
  dsimp only
  rw [kickAtom_idle h0, kickAtom_idle h1, kickAtom_idle h0]

/-- Semaphore n granted to a requester with no other waiting, and the interrupt of a grant. -/
def State.semGranted (s : State) (n : Nat) (q : Req) : State :=
  ((s.setSem n { waiters := [(q.who, .drop)] }).setSem n { holder := some q.who }).irq 0x05 2

theorem sem_semGranted (s : State) (n : Nat) (q : Req) : (s.semGranted n q).sem n = { holder := some q.who } :=
  (sem_setReg ..).trans (sem_setSem ..)

theorem sem_semGranted_ne (s : State) {m n : Nat} (q : Req) (h : m ≠ n) : (s.semGranted n q).sem m = s.sem m :=
  (sem_setReg ..).trans ((sem_setSem_ne _ _ h).trans (sem_setSem_ne _ _ h))

theorem regs_semGranted (s : State) (n : Nat) (q : Req) : (s.semGranted n q).regs = (s.irq 0x05 2).regs := rfl

/-- A requester off the ring has no node and no token. -/
theorem who_of_hub (hq : q.master ≠ 0x30) : q.who.master ≠ 0x30 := by
  unfold Req.who
  rw [if_neg hq]
  exact hq

theorem semAsk_free (hq : q.master ≠ 0x30) (hfree : s.sem n = {}) (try_ : Bool) : s.semAsk n q try_ .drop = (.granted, s.semGranted n q) := by
  unfold State.semAsk
  simp only [hfree, reduceCtorEq, if_false, List.any_nil, Bool.false_eq_true, Option.isNone_none, if_true, List.nil_append]
  simp only [State.semNext, sem_setSem, who_of_hub hq, if_false]
  rfl

/-- A free semaphore is granted to a requester of this hub, by request (1) or try (3). -/
theorem semCmdFx_granted {op : Nat} (hop : op = 1 ∨ op = 3) (h0 : (s.br 0).atoms = []) (h1 : (s.br 1).atoms = []) (hq : q.master ≠ 0x30)
    (hfree : s.sem (fldOf v fARB_SEM_CMD_sem) = {}) : semCmdFx q (semOp v op) s = s.semGranted (fldOf v fARB_SEM_CMD_sem) q := by
  unfold semCmdFx
  dsimp only
  rw [sem_semOp, op_semOp v (by omega), semAsk_free hq hfree, if_pos (by simpa using hop)]
  exact kickAtoms_idle h0 h1

/-- A request for a semaphore that another holds waits, while fewer than 8 do. -/
theorem semCmdFx_queued {h : Req} (h0 : (s.br 0).atoms = []) (h1 : (s.br 1).atoms = []) (hheld : (s.sem (fldOf v fARB_SEM_CMD_sem)).holder = some h)
    (hother : h ≠ q.who) (hnew : (s.sem (fldOf v fARB_SEM_CMD_sem)).waiters.any (fun w => w.1 = q.who) = false)
    (hroom : (s.sem (fldOf v fARB_SEM_CMD_sem)).waiters.length < 8) :
    semCmdFx q (semOp v 1) s = s.setSem (fldOf v fARB_SEM_CMD_sem)
      { s.sem (fldOf v fARB_SEM_CMD_sem) with waiters := (s.sem (fldOf v fARB_SEM_CMD_sem)).waiters ++ [(q.who, .drop)] } := by
  unfold semCmdFx State.semAsk
  simp only [sem_semOp, op_semOp v (show 1 < 8 by decide), hheld, Option.some.injEq, hother, hnew, hroom, if_true, if_false]
  exact kickAtoms_idle h0 h1

/-- A try for a semaphore that another holds does nothing. -/
theorem semCmdFx_busy {h : Req} (h0 : (s.br 0).atoms = []) (h1 : (s.br 1).atoms = []) (hheld : (s.sem (fldOf v fARB_SEM_CMD_sem)).holder = some h)
    (hother : h ≠ q.who) (hnew : (s.sem (fldOf v fARB_SEM_CMD_sem)).waiters.any (fun w => w.1 = q.who) = false) :
    semCmdFx q (semOp v 3) s = s := by
  unfold semCmdFx State.semAsk
  simp only [sem_semOp, op_semOp v (show 3 < 8 by decide), hheld, Option.some.injEq, hother, hnew]
  exact kickAtoms_idle h0 h1

theorem semCmdFx_released (hheld : (s.sem (fldOf v fARB_SEM_CMD_sem)).holder = some q.who) :
    semCmdFx q (semOp v 2) s = s.semFree (fldOf v fARB_SEM_CMD_sem) := by
  unfold semCmdFx State.semDrop
  simp only [sem_semOp, op_semOp v (show 2 < 8 by decide), hheld]
  rfl

/-- A semaphore for which nobody waits is free once it is given up. -/
theorem semFree_unwaited (h0 : (s.br 0).atoms = []) (h1 : (s.br 1).atoms = []) (hnone : (s.sem n).waiters = []) :
    s.semFree n = (s.setSem n { s.sem n with holder := none, token := 0 }).setSem n {} := by
  unfold State.semFree
  have hnext (t : State) (ht : (t.sem n).waiters = []) : t.semNext 10 n = t.setSem n {} := by simp only [State.semNext, ht]
  rw [hnext _ (by rw [sem_setSem]; exact hnone)]
  exact kickAtoms_idle h0 h1

/-- Bit 31 of a word that a row writes with go. -/
theorem go_set (w : Word) : bitOf (w ||| 0x80000000) 31 = true := by
  rw [bitOf_or, show bitOf (0x80000000 : Word) 31 = true by decide, Bool.or_true]

theorem semForceFx_held {h : Req} (hgo : bitOf v 31 = true) (hheld : (s.sem (natBits v.toNat 5 0)).holder = some h) :
    semForceFx v s = s.semFree (natBits v.toNat 5 0) := if_pos (by simp [hgo, hheld])

/-- A ring requester's hold that has lasted too long is counted, raises source 39 and ends (R265). -/
theorem semExpire_ring {h : Req} (hheld : (s.sem n).holder = some h) (hring : h.master = 0x30) (hon : s.enabled 0x05 = true) :
    s.semExpire n = (((s.inc rARB_CNT_SEM_EXPIRED).irq 0x05 7).raise 39).semFree n := by
  unfold State.semExpire
  simp only [hheld, hring, hon]
  rfl

theorem claimClearFx_takes (hgo : bitOf v 31 = true) (hres : natBits v.toNat 5 0 < 56) :
    claimClearFx v s = s.redecide (natBits v.toNat 5 0) {} 2 := if_pos (by simp [hgo, hres])

end Semaphores

/-! ### Heartbeats (R276, R277) -/

section Heartbeats

variable {s : State} {h : Nat} {v : Word}

theorem hbCfgFx_begins : let t := s.store (rARB_HB_CFG h) (fldPut v fARB_HB_CFG_period_ms (min 1000 (fldOf v fARB_HB_CFG_period_ms)))
    let u := if t.flag rARB_HB_STATUS (hbForcedFld h) then t else t.put rARB_HB_STATUS (hbMissFld h) 0
    s.flag (rARB_HB_CFG h) fARB_HB_CFG_en = false → t.flag (rARB_HB_CFG h) fARB_HB_CFG_en = true →
    hbCfgFx h v s = u.setBeat h { beaten := false, good := 0, period := u.hbPeriod h } := fun hwas hnow => if_pos (by simp [hwas, hnow])

/-- The end of a window while en and the page are on. -/
theorem hbWindow_runs (hen : s.flag (rARB_HB_CFG h) fARB_HB_CFG_en = true) (hon : s.enabled 0x05 = true) :
    let next : BeatSt := { beaten := false, good := 0, period := s.hbPeriod h }
    let miss := min 15 (s.get rARB_HB_STATUS (hbMissFld h) + 1)
    s.hbWindow h = if s.flag rARB_HB_STATUS (hbForcedFld h) then
        if !(s.beat h).beaten then s.setBeat h next
        else if s.hbLimit h ≤ (s.beat h).good + 1 then
          ((s.setBeat h next).put rARB_HB_STATUS (hbForcedFld h) 0).put rARB_HB_STATUS (hbMissFld h) 0
        else s.setBeat h { next with good := (s.beat h).good + 1 }
      else if (s.beat h).beaten then (s.setBeat h next).put rARB_HB_STATUS (hbMissFld h) 0
      else if s.hbLimit h ≤ miss then ((s.setBeat h next).put rARB_HB_STATUS (hbMissFld h) miss).forceHost h
      else (s.setBeat h next).put rARB_HB_STATUS (hbMissFld h) miss := if_neg (by simp [hen, hon])

end Heartbeats

/-! ### Who owns a resource (R274, R275) -/

namespace ClaimSt

/-- The largest claim presented. -/
def top (c : ClaimSt) : Nat := c.list.foldl (fun m e => max m e.2.2) 0

theorem own_eq (c : ClaimSt) : c.own = if c.top = 0 then .opened else match c.list.filter (fun e => e.2.2 = c.top) with
    | [e] => .owned e.1 e.2.1
    | e :: f :: _ => .conflict e.1 f.1
    | [] => .opened := rfl

/-- A fold of the larger claim is at least its start and every claim, and it is one of them. -/
theorem foldl_max_claim (l : List (Nat × Nat × Nat)) (m : Nat) : let top := l.foldl (fun m e => max m e.2.2) m
    m ≤ top ∧ (∀ e ∈ l, e.2.2 ≤ top) ∧ (top = m ∨ ∃ e ∈ l, e.2.2 = top) := by
  induction l generalizing m with
  | nil => exact ⟨le_rfl, by simp, .inl rfl⟩
  | cons e l ih =>
    obtain ⟨hstart, hall, hone⟩ := ih (max m e.2.2)
    refine ⟨(le_max_left ..).trans hstart, fun f hf => ?_, ?_⟩
    · rcases List.mem_cons.1 hf with rfl | hf
      · exact (le_max_right ..).trans hstart
      · exact hall f hf
    · rcases hone with hone | ⟨f, hf, hone⟩
      · rcases max_choice m e.2.2 with hmax | hmax
        · exact .inl (hone.trans hmax)
        · exact .inr ⟨e, List.mem_cons_self, (hone.trans hmax).symm⟩
      · exact .inr ⟨f, List.mem_cons_of_mem _ hf, hone⟩

variable {c : ClaimSt} {e : Nat × Nat × Nat}

theorem le_top (he : e ∈ c.list) : e.2.2 ≤ c.top := (foldl_max_claim c.list 0).2.1 e he

theorem top_presented (htop : 0 < c.top) : ∃ e ∈ c.list, e.2.2 = c.top :=
  (foldl_max_claim c.list 0).2.2.resolve_left (Nat.ne_of_gt htop)

theorem own_unclaimed (hnone : ∀ e ∈ c.list, e.2.2 = 0) : c.own = .opened := by
  have htop : c.top = 0 := by
    by_contra hpos
    obtain ⟨e, he, heq⟩ := top_presented (Nat.pos_of_ne_zero hpos)
    exact hpos (heq.symm.trans (hnone e he))
  exact if_pos htop

/-- One presenter alone at or above its own claim presents the largest. -/
theorem filter_top_of_single (he : e ∈ c.list) (hpos : 0 < e.2.2) (hone : (c.list.filter (fun f => e.2.2 ≤ f.2.2)).length = 1) :
    c.top = e.2.2 ∧ c.list.filter (fun f => f.2.2 = c.top) = [e] := by
  obtain ⟨x, hx⟩ := List.length_eq_one_iff.1 hone
  have halone (f) (hf : f ∈ c.list) (hle : e.2.2 ≤ f.2.2) : f = x := by
    have hmem : f ∈ c.list.filter (fun f => e.2.2 ≤ f.2.2) := List.mem_filter.2 ⟨hf, decide_eq_true hle⟩
    rwa [hx, List.mem_singleton] at hmem
  have hex : e = x := halone e he le_rfl
  subst x
  obtain ⟨f, hf, hftop⟩ := top_presented (lt_of_lt_of_le hpos (le_top he))
  have htop : c.top = e.2.2 := by rw [← hftop, halone f hf (hftop ▸ le_top he)]
  refine ⟨htop, Eq.trans (List.filter_congr fun f hf => ?_) hx⟩
  rw [htop]
  exact decide_eq_decide.2 ⟨fun heq => heq.ge, fun hle => by rw [halone f hf hle]⟩

/-- The one presenter of the largest claim owns the resource, with that claim. -/
theorem own_single (he : e ∈ c.list) (hpos : 0 < e.2.2) (hone : (c.list.filter (fun f => e.2.2 ≤ f.2.2)).length = 1) :
    c.own = .owned e.1 e.2.1 ∧ c.accepted = e.2.2 := by
  obtain ⟨htop, hfilter⟩ := filter_top_of_single he hpos hone
  have hown : c.own = .owned e.1 e.2.1 := by rw [own_eq, hfilter, if_neg (by omega)]
  refine ⟨hown, ?_⟩
  unfold accepted
  rw [hown]
  exact htop

/-- Two presenters of the largest claim are in conflict, and nobody owns the resource. -/
theorem own_conflict (htop : 0 < c.top) (htwo : 2 ≤ (c.list.filter (fun f => f.2.2 = c.top)).length) :
    c.own.isConflict = true ∧ c.own.master = 0xFF ∧ c.accepted = 0 := by
  obtain ⟨e, f, rest, hfilter⟩ : ∃ e f rest, c.list.filter (fun f => f.2.2 = c.top) = e :: f :: rest := by
    rcases hl : c.list.filter (fun f => f.2.2 = c.top) with _ | ⟨e, _ | ⟨f, rest⟩⟩
    · simp [hl] at htwo
    · simp [hl] at htwo
    · exact ⟨e, f, rest, hl⟩
  have hown : c.own = .conflict e.1 f.1 := by rw [own_eq, hfilter, if_neg (by omega)]
  unfold accepted
  rw [hown]
  exact ⟨rfl, rfl, rfl⟩

end ClaimSt

/-! ### The statement -/

/-- Settles O39: each command by its own rule; an atomic that waits behind a semaphore would go on with it (R264), which the first premise leaves out. -/
theorem arbiterActs : Obligations.ArbiterActs := by
  refine ⟨fun s q v h0 h1 => ⟨fun hq hfree => ⟨fun ha => ?request, fun ha => ?try_⟩, fun h hheld hother hnew =>
      ⟨fun ha hroom => exec_writeReg_accepted rfl ha (semCmdFx_queued h0 h1 hheld hother hnew hroom),
        fun ha => exec_writeReg_accepted rfl ha (semCmdFx_busy h0 h1 hheld hother hnew)⟩,
      fun ha hheld => exec_writeReg_accepted rfl ha (semCmdFx_released hheld), fun hnone => ?free,
      fun w h ha hheld => exec_writeReg_accepted rfl ha (semForceFx_held (go_set w) hheld),
      fun k h hheld hring hon => congrArg (finish s) (semExpire_ring hheld hring hon),
      fun w ha hres => exec_writeReg_accepted rfl ha (claimClearFx_takes (go_set w) hres)⟩,
    fun s h => ⟨fun q v ha => exec_writeReg_accepted rfl ha rfl, fun q v ha hwas hnow => ⟨fun hfree => ?begins, fun hforced => ?beginsForced⟩,
      fun hen hon => ⟨fun hfree => ?window, fun hforced => ?windowForced⟩⟩,
    fun c => ⟨ClaimSt.own_unclaimed, fun e he hpos hone => ClaimSt.own_single he hpos hone, ClaimSt.own_conflict⟩⟩
  case request =>
    exact ⟨_, exec_writeReg_accepted rfl ha (semCmdFx_granted (.inl rfl) h0 h1 hq hfree), sem_semGranted .., regs_semGranted ..,
      fun m hm => sem_semGranted_ne s q hm⟩
  case try_ =>
    exact ⟨_, exec_writeReg_accepted rfl ha (semCmdFx_granted (.inr rfl) h0 h1 hq hfree), sem_semGranted .., regs_semGranted ..,
      fun m hm => sem_semGranted_ne s q hm⟩
  case free =>
    rw [semFree_unwaited h0 h1 hnone]
    exact ⟨sem_setSem .., rfl, fun m hm => (sem_setSem_ne _ _ hm).trans (sem_setSem_ne _ _ hm)⟩
  case begins =>
    have hbegins := hbCfgFx_begins hwas hnow
    rw [if_neg (ne_true_of_eq_false hfree)] at hbegins
    exact exec_writeReg_accepted rfl ha hbegins
  case beginsForced =>
    have hbegins := hbCfgFx_begins hwas hnow
    rw [if_pos hforced] at hbegins
    exact exec_writeReg_accepted rfl ha hbegins
  case window =>
    have hwindow := (hbWindow_runs hen hon).trans (if_neg (ne_true_of_eq_false hfree))
    refine ⟨fun hbeat => congrArg (finish s) (hwindow.trans (if_pos hbeat)), fun hquiet hfew => ?_, fun hquiet hmany => ?_⟩
    all_goals refine congrArg (finish s) (hwindow.trans ((if_neg (ne_true_of_eq_false hquiet)).trans ?_))
    · exact if_neg (Nat.not_le.2 hfew)
    · exact if_pos hmany
  case windowForced =>
    have hwindow := (hbWindow_runs hen hon).trans (if_pos hforced)
    refine ⟨fun hquiet => congrArg (finish s) (hwindow.trans (if_pos (by simp [hquiet]))), fun hbeat hfew => ?_, fun hbeat hmany => ?_⟩
    all_goals refine congrArg (finish s) (hwindow.trans ((if_neg (by simp [hbeat])).trans ?_))
    · exact if_neg (Nat.not_le.2 hfew)
    · exact if_pos hmany

end Sys2Proof.Machine
end

section
/-! PROOF. Host ports as their hosts use them: PCI Express requests, vectors and the link (R245 to R248, R279), quad-SPI frames and the commands in them
(R249 to R254). BAR0 failures with node 0x3_FFFF and status 3 for a LEN outside 1 to 128 are log entry 66. -/
namespace Sys2Proof.Machine

/-- The page of a host port's bridge. -/
theorem brPage_host (h : Fin 2) : brPage h = 0x68 + h := if_pos h.isLt

/-! ### PCI Express (R245 to R248, R279) -/

section PciExpress

variable {s : State} {h id off : Nat}

/-- A request at a port in PCI Express mode whose island runs goes to its BAR; anything but a read drops the read buffer first (R262). -/
theorem pcie_runs (hmode : s.get (rHBx_CFG h) fHBx_CFG_mode = 0) (hruns : s.fieldRuns = true) (bar : Nat) (op : PcieOp) (full : Bool) :
    s.pcie h id bar off op full =
      let t := match op with
        | .read _ => s
        | _ => s.bufferDrop h
      if bar = 0 then t.pcieBar0 h id off op full else if bar = 1 then t.pcieBar2 h id off op else t.pcieBar4 h id off op := by
  unfold State.pcie
  rw [hmode, hruns]
  rfl

/-- A read of BAR0 goes to the register pages, or completes with status 3 where its form is not one of theirs (R247). -/
theorem pcie_readPages (hmode : s.get (rHBx_CFG h) fHBx_CFG_mode = 0) (hruns : s.fieldRuns = true) (hoff : off < 0x100000) (n : Nat) (full : Bool) :
    s.pcie h id 0 off (.read n) full =
      if bar0Ok off n full then (s.openParts h id 1).hereRead h (0x10000000 + off) n 31 false (.host h id 0) else s.pcieStop h id 3 31 :=
  (pcie_runs hmode hruns 0 (.read n) full).trans (if_neg (Nat.not_le.2 hoff))

/-- A write of BAR0 goes to the register pages, or is logged with status 3. -/
theorem pcie_writePages (hmode : s.get (rHBx_CFG h) fHBx_CFG_mode = 0) (hruns : s.fieldRuns = true) (hoff : off < 0x100000) (bs : List Byte)
    (full : Bool) : let fab := 0x3FFFF * 2 ^ 32 + (0x10000000 + off)
    s.pcie h id 0 off (.write bs) full =
      if bar0Ok off bs.length full then (s.bufferDrop h).hereWrite h (0x10000000 + off) bs 31 false (.posted h fab 31)
      else (s.bufferDrop h).pweBare h 0 3 0 fab 31 := (pcie_runs hmode hruns 0 (.write bs) full).trans (if_neg (Nat.not_le.2 hoff))

theorem bar0Ok_false {n : Nat} {full : Bool} (hbad : full = false ∨ pageShape off n = false) : bar0Ok off n full = false := by
  unfold bar0Ok
  rcases hbad with hbad | hbad
  · rw [hbad, Bool.false_and]
  · rw [hbad, Bool.and_false]

/-- A read through a window that is off is an Unsupported Request. -/
theorem pcieBar2_read_off (hoff : s.flag (rHBx_WIN_ATTR h (off / 2 ^ 22)) fHBx_WIN_ATTR_enable = false) (n : Nat) :
    s.pcieBar2 h id off (.read n) = s.pcieStop h id 1 (off / 2 ^ 22) := if_pos (by rw [hoff, Bool.and_false]; rfl)

/-- Unmasking a pending vector clears its PBA bit; the message goes while the vector is still requested (R248). -/
theorem msixCtrlFx_unmasks {n : Nat} {w : Word} (hwas : s.flag (rHBx_MSIX_CTRL h n) fHBx_MSIX_CTRL_mask = true) :
    let t := s.store (rHBx_MSIX_CTRL h n) w
    let u := t.setReg (rHBx_MSIX_PBA h) (toW (natPut (t.reg (rHBx_MSIX_PBA h)).toNat n n 0))
    bitOf (t.reg (rHBx_MSIX_PBA h)) n = true → t.flag (rHBx_MSIX_CTRL h n) fHBx_MSIX_CTRL_mask = false → u.pcieOn h = true →
    msixCtrlFx h n w s = if (u.vectors h).contains n then u.emit (.msix h n) else u := by
  intro t u hpending hopen hon
  have hunmasked : (s.flag (rHBx_MSIX_CTRL h n) fHBx_MSIX_CTRL_mask && !t.flag (rHBx_MSIX_CTRL h n) fHBx_MSIX_CTRL_mask &&
      bitOf (t.reg (rHBx_MSIX_PBA h)) n) = true := by rw [hwas, hopen, hpending]; rfl
  refine (if_pos hunmasked).trans ?_
  change (if (u.pcieOn h && (u.vectors h).contains n) = true then _ else _) = _
  rw [hon, Bool.true_and]

/-- A link that leaves DL_Active shows its state, and raises the source of its port (R279). -/
theorem pcieLink_leaves {ltssm : Nat} {gen2 : Bool} (hmode : s.get (rHBx_CFG h) fHBx_CFG_mode = 0)
    (hup : (s.get (rPG_STATUS (brPage h)) fPG_STATUS_block_status).testBit 0 = true) :
    let t := (s.setReg (rHBx_STATUS h) (toW (b2n gen2 * 16 + ltssm))).put (rPG_STATUS (brPage h)) fPG_STATUS_block_status 0
    t.enabled (brPage h) = true → s.pcieLink h ltssm gen2 false = t.raise (34 + h) (brPage h) := by
  intro t hon
  have hmode' : ¬ (s.get (rHBx_CFG h) fHBx_CFG_mode != 0) = true := by simp [hmode]
  exact (if_neg hmode').trans (if_pos (by simp only [hup, Bool.not_false, Bool.true_and]; exact hon))

end PciExpress

/-! ### Quad-SPI frames (R36, R249 to R252) -/

section Frames

variable {s : State} {h : Fin 2} {win : Nat} {bad always : Bool} {act : State → State}

/-- While checker 2 of the port's page is armed, every frame is taken as damaged, and the injection is made (R36). -/
theorem qspiFrame_injected (hmode : s.get (rHBx_CFG h) fHBx_CFG_mode = 1) (hlevel : s.pwr.level < 2) (harmed : s.armed (0x68 + h) 2 ≠ none) :
    s.qspiFrame h win bad always act = ((s.disarm (0x68 + h)).raiseInj (32 + h) (0x68 + h)).qspiReply h false 0 [] true := by
  obtain ⟨two, htwo⟩ := Option.ne_none_iff_exists'.1 harmed
  unfold State.qspiFrame
  rw [brPage_host, if_neg (by simp [hmode]), if_neg (Nat.not_le.2 hlevel), htwo]

/-- Else a damaged frame is answered with the CRC flag, one that may not come while a command is pending is refused, and another acts. -/
theorem qspiFrame_unarmed (hmode : s.get (rHBx_CFG h) fHBx_CFG_mode = 1) (hlevel : s.pwr.level < 2) (harmed : s.armed (0x68 + h) 2 = none) :
    s.qspiFrame h win bad always act = if bad then (s.raise (32 + h) (0x68 + h)).qspiReply h false 0 [] true
      else if (s.br h).busy && !always then s.qspiRefuse h win else act s := by
  unfold State.qspiFrame
  rw [brPage_host, if_neg (by simp [hmode]), if_neg (Nat.not_le.2 hlevel), harmed]

theorem qspiFrame_damaged (hmode : s.get (rHBx_CFG h) fHBx_CFG_mode = 1) (hlevel : s.pwr.level < 2) (harmed : s.armed (0x68 + h) 2 = none)
    (hbad : bad = true) : s.qspiFrame h win bad always act = (s.raise (32 + h) (0x68 + h)).qspiReply h false 0 [] true :=
  (qspiFrame_unarmed hmode hlevel harmed).trans (if_pos hbad)

theorem qspiFrame_refused (hmode : s.get (rHBx_CFG h) fHBx_CFG_mode = 1) (hlevel : s.pwr.level < 2) (harmed : s.armed (0x68 + h) 2 = none)
    (hbusy : (s.br h).busy = true) : s.qspiFrame h win false false act = s.qspiRefuse h win :=
  (qspiFrame_unarmed hmode hlevel harmed).trans ((if_neg Bool.false_ne_true).trans (if_pos (by simp [hbusy])))

theorem qspiFrame_acts (hmode : s.get (rHBx_CFG h) fHBx_CFG_mode = 1) (hlevel : s.pwr.level < 2) (harmed : s.armed (0x68 + h) 2 = none)
    (hfree : always = true ∨ (s.br h).busy = false) : s.qspiFrame h win false always act = act s :=
  (qspiFrame_unarmed hmode hlevel harmed).trans ((if_neg Bool.false_ne_true).trans (if_neg (by rcases hfree with hfree | hfree <;> simp [hfree])))

/-- Each of the eight commands comes in a frame of its own. -/
theorem exec_qspi_eq_frame {a n op x y : Nat} {l : List Byte} {late : Bool} {c : Instr}
    (hc : c ∈ [Instr.qspiLocalRead h bad late a n, .qspiLocalWrite h bad late a l, .qspiFabricRead h bad a n, .qspiFabricPostedWrite h bad a l,
      .qspiFabricNonpostedWrite h bad a l, .qspiFabricAtomic h bad a op n x y, .qspiResult h bad, .qspiInterruptStatus h bad]) :
    ∃ win always act, exec c s = finish s (s.qspiFrame h win bad always act) := by
  simp only [List.mem_cons, List.not_mem_nil, or_false] at hc
  rcases hc with rfl | rfl | rfl | rfl | rfl | rfl | rfl | rfl <;> exact ⟨_, _, _, rfl⟩

end Frames

/-! ### The commands in the frames (R249 to R254) -/

section Commands

variable {s : State} {h fab n type : Nat}

/-- A fabric address names a node and a local address once HBx_QATTR is enabled and the octets lie within a line (R18, R254). -/
theorem qspiTarget_go (haddr : fab < 2 ^ 50) (hon : s.flag (rHBx_QATTR h) fHBx_QATTR_enable = true) (hlen : qspiLen (fab % 128) n = true) :
    s.qspiTarget h fab n type = (.go (fab / 2 ^ 32) (fab % 2 ^ 32), s) := by
  unfold State.qspiTarget
  rw [if_neg (Nat.not_le.2 haddr), if_neg (by simp [hon]), if_neg (by simp [hlen])]

theorem qspiFabric_go {go : Nat → Nat → State → State} (haddr : fab < 2 ^ 50)
    (hon : (s.qspiStart h).flag (rHBx_QATTR h) fHBx_QATTR_enable = true) (hlen : qspiLen (fab % 128) n = true) :
    s.qspiFabric h fab n type go = (go (fab / 2 ^ 32) (fab % 2 ^ 32) (s.qspiStart h)).qspiReply h false 0 [] := by
  unfold State.qspiFabric
  dsimp only
  rw [qspiTarget_go haddr hon hlen]

/-- An address above the fabric's ends the command with status 1 and raises source 48 (R18). -/
theorem qspiFabric_above {go : Nat → Nat → State → State} (haddr : 2 ^ 50 ≤ fab) : s.qspiFabric h fab n type go =
    ((((s.qspiStart h).fault (accessEv 48 0xFFF (hostReq h) type n fab)).npBare h 1 0 16).complete (.qspi h) 1 0 []).qspiReply h false 0 [] := by
  unfold State.qspiFabric State.qspiTarget
  dsimp only
  rw [if_pos haddr]

end Commands

/-! ### The statement -/

/-- Settles O33: what the port does with a request or a frame, up to its own hub or its bridge, each by the rule of its form (log entry 66). -/
theorem hostPortsActOnRequests : Obligations.HostPortsActOnRequests := by
  refine ⟨fun s h id off hmode => ⟨fun hruns hoff => ?bar0, fun n full hruns _ hwin => ?bar2, fun q n v ha hwas hpending hopen hon => ?unmask,
      fun l g hup _ hon => ?link⟩,
    fun s h hmode hlevel => ⟨fun a n l op x y bad late hbad c hc => ?damaged, fun harmed => ⟨fun hbusy a n l op x y late => ?refused,
      fun hfree => ?commands, fun st sub data hfree hresult => ?result, ?status⟩⟩,
    fun s h fab hmode hlevel harmed hfree haddr hon => ⟨fun op len x y hlen hform => ?atomic, fun l hlen => ?nonposted, fun l hlen honU => ?posted⟩⟩
  case bar0 =>
    have hread (n : Nat) (full : Bool) := pcie_readPages (id := id) hmode hruns hoff n full
    have hwrite (bs : List Byte) (full : Bool) := pcie_writePages (id := id) hmode hruns hoff bs full
    refine ⟨fun n hshape => congrArg (finish s) ((hread n true).trans (if_pos hshape)),
      fun n full hbad => congrArg (finish s) ((hread n full).trans (if_neg (ne_true_of_eq_false (bar0Ok_false hbad)))),
      fun bs hshape => congrArg (finish s) ((hwrite bs true).trans (if_pos hshape)),
      fun bs full hbad => congrArg (finish s) ((hwrite bs full).trans (if_neg (ne_true_of_eq_false (bar0Ok_false hbad))))⟩
  case bar2 => exact congrArg (finish s) ((pcie_runs hmode hruns 1 (.read n) full).trans (pcieBar2_read_off hwin n))
  case unmask =>
    have hfx := msixCtrlFx_unmasks hwas hpending hopen hon
    exact ⟨fun hrequested => exec_writeReg_accepted rfl ha (hfx.trans (if_pos hrequested)),
      fun hquiet => exec_writeReg_accepted rfl ha (hfx.trans (if_neg (ne_true_of_eq_false hquiet)))⟩
  case link =>
    have hlink := pcieLink_leaves (ltssm := l) (gen2 := g) hmode (by rw [brPage_host]; exact hup)
    rw [brPage_host] at hlink
    exact congrArg (finish s) (hlink hon)
  case damaged =>
    obtain ⟨win, always, act, hframe⟩ := exec_qspi_eq_frame (s := s) hc
    refine ⟨fun hunarmed => hframe.trans (congrArg (finish s) ?_), fun harmed => hframe.trans (congrArg (finish s) ?_)⟩
    · exact qspiFrame_damaged hmode hlevel hunarmed (hbad.resolve_right (not_not_intro hunarmed))
    · exact qspiFrame_injected hmode hlevel harmed
  case refused =>
    have hrefused {win : Nat} (act : State → State) : finish s (s.qspiFrame h win false false act) = finish s (s.qspiRefuse h win) :=
      congrArg (finish s) (qspiFrame_refused hmode hlevel harmed hbusy)
    refine ⟨fun c hc => ?_, fun c hc => ?_⟩
    all_goals simp only [List.mem_cons, List.not_mem_nil, or_false] at hc
    · rcases hc with rfl | rfl <;> exact hrefused _
    · rcases hc with rfl | rfl | rfl | rfl <;> exact hrefused _
  case commands =>
    have hacts {win : Nat} (act : State → State) : s.qspiFrame h win false false act = act s := qspiFrame_acts hmode hlevel harmed (.inr hfree)
    refine ⟨fun a n late => ⟨fun hlen => ?_, fun hlen => ?_⟩, fun a l late => ⟨fun hlen => ?_, fun hlen => ?_⟩, fun fab n haddr => ?_,
      fun fab n haddr hon hlen => ?_⟩
    all_goals refine congrArg (finish s) ((hacts _).trans ?_)
    · exact congrArg (State.qspiAnswer · h late) (if_pos hlen)
    · exact congrArg (State.qspiAnswer · h late) (if_neg (ne_true_of_eq_false hlen))
    · exact congrArg (State.qspiAnswer · h late) (if_pos hlen)
    · exact congrArg (State.qspiAnswer · h late) (if_neg (ne_true_of_eq_false hlen))
    · exact qspiFabric_above haddr
    · exact qspiFabric_go haddr hon hlen
  case result =>
    refine congrArg (finish s) ((qspiFrame_acts hmode hlevel harmed (.inl rfl)).trans ((if_neg (ne_true_of_eq_false hfree)).trans ?_))
    simp only [hresult]
  case status => exact congrArg (finish s) (qspiFrame_acts hmode hlevel harmed (.inl rfl))
  case atomic =>
    exact congrArg (finish s) ((qspiFrame_acts hmode hlevel harmed (.inr hfree)).trans ((qspiFabric_go haddr hon hlen).trans
      (congrArg (State.qspiReply · h false 0 []) (if_pos hform))))
  case nonposted => exact congrArg (finish s) ((qspiFrame_acts hmode hlevel harmed (.inr hfree)).trans (qspiFabric_go haddr hon hlen))
  case posted =>
    refine congrArg (finish s) ((qspiFrame_acts hmode hlevel harmed (.inr hfree)).trans ?_)
    simp only [qspiTarget_go haddr honU hlen]

end Sys2Proof.Machine
end

section
/-! PROOF. Fence, failure log and windows of a host port (R263, R267, R269, R270), and R263 of the register pages: no prefetch and no poll of them. -/
namespace Sys2Proof.Machine

section HostPages

variable {s : State} {h n : Nat} {v : Word}

/-! ### Fence and failure log (R267, R269) -/

/-- Bit 0 of a word that a row writes with send. -/
theorem send_set (w : Word) : bitOf (w ||| 1) 0 = true := by
  rw [bitOf_or, show bitOf (1 : Word) 0 = true by decide, Bool.or_true]

theorem fenceReqFx_sends (hsend : bitOf v 0 = true) : fenceReqFx h v s =
    ((s.br h).pdt.filter (fun e => e.n != 0)).foldl (fun t e => State.brSend t h 1 5 1 e.node (noticeOctets 3 0 0 0 0)) s := if_pos hsend

/-- The low 16 bits of a number. -/
theorem natBits_low16 (n : Nat) : natBits n 15 0 = n % 65536 := congrArg (· % 65536) (Nat.shiftRight_zero (n := n))

/-- The entries named become free. -/
theorem pweClrFx_frees : pweClrFx h v s = s.put (rHBx_PWE_STATUS h) fHBx_PWE_STATUS_valid
    (s.get (rHBx_PWE_STATUS h) fHBx_PWE_STATUS_valid &&& (65535 - v.toNat % 65536)) :=
  congrArg (fun n => s.put (rHBx_PWE_STATUS h) fHBx_PWE_STATUS_valid (s.get (rHBx_PWE_STATUS h) fHBx_PWE_STATUS_valid &&& (65535 - n)))
    (natBits_low16 v.toNat)

/-! ### Windows (R263) -/

/-- The window prefetches register pages. -/
def State.prefetchesPages (s : State) (h n : Nat) : Prop :=
  s.flag (rHBx_WIN_ATTR h n) fHBx_WIN_ATTR_prefetch = true ∧ s.get (rHBx_WIN_BASE h n) fHBx_WIN_BASE_base % 1024 = 0x040

theorem winCheck_kept (hpages : ¬ s.prefetchesPages h n) : s.winCheck h n = s :=
  if_neg (by simpa [State.prefetchesPages] using hpages)

theorem winCheck_downgraded (hpages : s.prefetchesPages h n) : s.winCheck h n =
    ((s.put (rHBx_WIN_ATTR h n) fHBx_WIN_ATTR_prefetch 0).put (rHBx_WIN_ATTR h n) fHBx_WIN_ATTR_downgraded 1).warn (brPage h) :=
  if_pos (by simpa [State.prefetchesPages] using hpages)

/-! ### Polls (R263, R271) -/

/-- A poll that is not locked of an address whose read may change state is refused with status 6. -/
theorem tgtPerform_poll_refused {f : Frame} (inp : Nat) (hkind : f.kind = 6) (hlock : bitOf (toW (nthD f.payload 3 0).toNat) 6 = false)
    (hside : readsSideEffect (beNat (slice f.payload 8 4)) 4 = true) : s.tgtPerform f inp = s.tgtDone f 6 0 [] := by
  unfold State.tgtPerform
  simp only [hkind, hlock, hside, Bool.false_and, Bool.false_eq_true, if_false, if_true]
  rfl

end HostPages

/-! ### The statements -/

/-- Settles O35: each command of the page by its own rule; that a window written anew has downgraded = 0 is log entry 72. -/
theorem fenceLogAndWindows : Obligations.FenceLogAndWindows := by
  refine fun s q h => ⟨fun mp hread => congrArg (finish s) (rowRead_allowed hread false (fenceRead h)),
    fun v ha => exec_writeReg_accepted rfl ha (fenceReqFx_sends (send_set v)), fun v ha => exec_writeReg_accepted rfl ha pweClrFx_frees,
    fun v ha => exec_writeReg_accepted rfl ha rfl, fun n v => ⟨fun ha hpages => exec_writeReg_accepted rfl ha (winCheck_kept hpages),
      fun ha hpages => exec_writeReg_accepted rfl ha (winCheck_kept hpages)⟩⟩

/-- Settles O36: either write of the window meets the same check; a poll is refused before it reads. -/
theorem noPrefetchOfRegisterPages : Obligations.NoPrefetchOfRegisterPages := by
  refine fun s => ⟨fun q h n v ha hprefetch hbase => exec_writeReg_accepted rfl ha ?_,
    fun q h n v ha hprefetch hbase => exec_writeReg_accepted rfl ha ?_, fun f inp => tgtPerform_poll_refused inp⟩
  all_goals rw [← brPage_host h]
  · exact winCheck_downgraded ⟨hprefetch, hbase⟩
  · exact winCheck_downgraded ⟨hprefetch, hbase⟩

end Sys2Proof.Machine
end

section
/-! PROOF. The bridge takes its answers (R256, R258, R261, R262, R266, R267), and the target engine performs requests (R256, R259 to R261, R265, R266).
Free values stand where the rules leave a field open (log entry 4); details of both are log entries 66 and 67. -/
namespace Sys2Proof.Machine

/-! ### Frames that the bridge takes (R256, R258, R266) -/

section Bridge

variable {s : State} {b : Nat} {f : Frame} {r : NpReq}

/-- The first frame of its kind at an endpoint port is taken, and acts unless it carries discard. -/
theorem takeFrame_first {o : Nat} {p : Frame → Bool} {act : Frame → State → State} {d : Delivered}
    (hfind : (s.outbox o).find? (fun d => p d.frame) = some d) (hkeep : d.discard = false) :
    s.takeFrame o p act = act d.frame (s.setOutbox o ((s.outbox o).erase d)) := by
  unfold State.takeFrame
  simp only [hfind, hkeep, Bool.false_eq_true, if_false]

/-- A response to a tag that is not in use: a duplicate where the tag was issued, else source 41. -/
theorem takeResponse_unused (hlen : 16 ≤ f.payload.length)
    (hnone : (s.br b).outst.find? (fun e => e.tag = beNat (slice f.payload 0 2)) = none) :
    s.takeResponse b f = if spGet (fun _ => false) (s.br b).issued (beNat (slice f.payload 0 2)) then
        if b < 2 then s.inc (rHBx_CNT_DUP_RSP b) else s
      else s.raise 41 (brPage b) := by
  unfold State.takeResponse
  simp only [Nat.not_lt.2 hlen, hnone, if_false]

/-- A response to a request in use, not a prefetch: with status 0 it must bring the length asked (R258). -/
theorem takeResponse_used {st sub n : Nat} (hlen : 16 ≤ f.payload.length)
    (hsome : (s.br b).outst.find? (fun e => e.tag = beNat (slice f.payload 0 2)) = some r) (hplain : r.pf = false)
    (hstatus : (nthD f.payload 2 0).toNat = sub * 16 + st) (hst : st < 16) (hcount : (nthD f.payload 8 0).toNat = n)
    (hdata : st = 0 → n = (if r.kind = 3 then r.len else 0) ∧ (slice f.payload 16 n).length = n) :
    s.takeResponse b f = s.npAnswer b r st sub (beNat (slice f.payload 4 2)) f.seq (slice f.payload 16 n) := by
  have hlow : (sub * 16 + st) % 16 = st := by omega
  have hhigh : (sub * 16 + st) / 16 = sub := by omega
  have hfits : (decide (st = 0) && (n != (if r.kind = 3 then r.len else 0) || (slice f.payload 16 n).length != n)) = false := by
    by_cases h0 : st = 0
    · obtain ⟨hwant, hall⟩ := hdata h0
      rw [← hwant, hall]
      simp
    · simp [h0]
  unfold State.takeResponse
  simp only [Nat.not_lt.2 hlen, hsome, hstatus, hlow, hhigh, hcount, hplain, hfits, Bool.false_eq_true, Bool.false_and, if_false]

/-- A request without one of its own. -/
def State.npEnded (s : State) (b : Nat) (r : NpReq) : State :=
  s.setBr b { s.br b with outst := (s.br b).outst.filter (fun e => e.tag != r.tag) }

/-- A request that has succeeded is recorded nowhere. -/
theorem npAnswer_good (token seq : Nat) (data : List Byte) :
    s.npAnswer b r 0 0 token seq data = ((s.npEnded b r).complete r.cont 0 0 data token).pump b := rfl

/-- A failure at a host port is recorded, and logged only where the request is a write under a lock. -/
theorem npAnswer_failed {st : Nat} (sub token seq : Nat) (data : List Byte) (hst : 0 < st) (hhost : b < 2) (hcont : r.cont ≠ .drop)
    (hplain : r.kind ≠ 2 ∨ r.lock = none) :
    s.npAnswer b r st sub token seq data = (((s.npEnded b r).npFail b st sub r.win r.tag).complete r.cont st sub data token).pump b := by
  have hlogged : (st != 0 && decide (b < 2) && decide (r.kind = 2) && r.lock.isSome) = false := by
    rcases hplain with hkind | hlock
    · simp [hkind]
    · simp [hlock]
  have hrecorded : (st != 0 && decide (b < 2) && r.cont != .drop) = true := by simp [hhost, hcont, Nat.ne_of_gt hst]
  unfold State.npAnswer
  simp only [hlogged, hrecorded, Bool.false_eq_true, if_false, if_true]
  rfl

/-- An ack lowers what is in flight to its sender (R266). -/
theorem takeNotice_ack (hlen : 16 ≤ f.payload.length) (hcode : (nthD f.payload 0 0).toNat = 2) :
    s.takeNotice b f = (s.confirm b f.src (beNat (slice f.payload 8 4))).pump b := by
  unfold State.takeNotice
  simp only [Nat.not_lt.2 hlen, hcode]
  rfl

/-- How often a request of bridge b is sent again (R258). -/
def State.retryLimit (s : State) (b : Nat) : Nat :=
  if b < 2 then s.get (rHBx_RETRY b) fHBx_RETRY_retries else s.get (rDMA_EXP (b - 2)) fDMA_EXP_retries

theorem npTimeout_some {tag : Nat} (hsome : (s.br b).outst.find? (fun e => e.tag = tag) = some r) :
    let t := s.setBr b { s.br b with outst := (s.br b).outst.map (fun e => if e.tag = tag then { r with retry := r.retry + 1 } else e) }
    s.npTimeout b tag = if r.retry < s.retryLimit b then
        (if b < 2 then t.inc (rHBx_CNT_RETRY b) else t).npFrame b { r with retry := r.retry + 1 }
      else (s.step1.raise 38 (brPage b)).npAnswer b r 7 3 0 (s.freeN % 65536) [] := by
  unfold State.npTimeout
  rw [hsome]
  rfl

/-- Posted writes that stay unconfirmed make one log entry with their count; its status, low address and tag are free values. -/
theorem unconfirmed_some {h node : Nat} {e : PdtEnt} (hsome : (s.br h).pdt.find? (fun e => e.node = node && e.n != 0) = some e) :
    let u := s.step1
    let v := u.step1
    s.unconfirmed h node = ((v.step1.confirm h node e.n).pweLog h 2 (1 + s.freeN % 7) 0 (v.freeN % 65536)
      (node * 2 ^ 32 + u.freeN % 2 ^ 32) e.win e.seq e.n).pump h := by
  unfold State.unconfirmed
  rw [hsome]
  rfl

end Bridge

/-! ### The target engine's turn (R256, R261) -/

section Engine

variable {s t : State}

/-- With no request waiting none is performed. -/
theorem tgtWaiting_none (hnone : s.tgt.waiting = []) (k : Nat) : s.tgtWaiting k = s := by
  cases k with
  | zero => rfl
  | succ k => simp only [State.tgtWaiting, hnone, List.find?_nil]

/-- The first request at an endpoint port that may be performed is, and leaves the port. -/
theorem tgtTurn_performs {o : Nat} {d : Delivered} (hholds : s.portHolds 6 = false) (hnone : s.tgt.waiting = [])
    (hfind : (s.outbox o).find? (fun d => tgtTakes o d.frame) = some d) (hkeep : d.discard = false) (hready : s.tgtReady d.frame = true)
    (htry : s.tgtTry d.frame d.inp = some t) (hrest : t.tgt.waiting = []) : s.tgtTurn o = t.setOutbox o ((t.outbox o).erase d) := by
  have hrest' : (t.setOutbox o ((t.outbox o).erase d)).tgt.waiting = [] := hrest
  unfold State.tgtTurn
  simp only [hholds, tgtWaiting_none hnone, hfind, hkeep, hready, htry, Bool.false_eq_true, if_false, if_true]
  exact tgtWaiting_none hrest' _

/-- With no request at the port and none waiting the turn does nothing. -/
theorem tgtTurn_idle {o : Nat} (hnone : s.tgt.waiting = []) (hempty : s.outbox o = []) : s.tgtTurn o = s := by
  unfold State.tgtTurn
  simp only [tgtWaiting_none hnone, hempty, List.find?_nil, ite_self]

theorem orderExpire_performs {w : Frame × Nat} {rest : List (Frame × Nat)} (hwaits : s.tgt.waiting = w :: rest)
    (htry : s.tgtTry w.1 w.2 = some t) : s.orderExpire =
    ((({ t with tgt := { t.tgt with waiting := rest } } : State).inc rTGT_CNT_ORDER_WAIT).raise 42).tgtWaiting (rest.length + 1) := by
  unfold State.orderExpire
  simp only [hwaits, htry]

theorem ackDue_some {src flow : Nat} {e : SysWin}
    (hsome : s.flw.sys.find? (fun e => e.src = src && e.flow = flow && e.posted != 0) = some e) :
    s.ackDue src flow = s.sendAck src flow flow e.ackSeq e.node := by
  unfold State.ackDue
  rw [hsome]

end Engine

/-! ### What the engine makes of a request (R256, R259, R265) -/

section Requests

variable {s : State} {f : Frame} {inp : Nat}

/-- A first sending that needs no entry of the response cache is performed. -/
theorem tgtTry_first (hlen : 16 ≤ f.payload.length) (hack : isAckRequest f = false) (hfirst : (nthD f.payload 3 0).toNat % 8 = 0)
    (hentry : tgtNeedsEntry f = false) : s.tgtTry f inp = some (s.tgtPerform f inp) := by
  unfold State.tgtTry
  simp only [Nat.not_lt.2 hlen, hack, hfirst, hentry, Bool.false_eq_true, if_false, if_true]

/-- A retry that the cache holds answered is counted and answered from it (R259). -/
theorem tgtTry_cached {e : CacheEnt} (hlen : 16 ≤ f.payload.length) (hack : isAckRequest f = false) (hretry : (nthD f.payload 3 0).toNat % 8 ≠ 0)
    (hanswered : e.status < 256)
    (hfind : s.tgt.cache.find? (fun e => e.src = f.src && e.flow = f.flow && e.tag = beNat (slice f.payload 0 2)) = some e) :
    s.tgtTry f inp = some ((s.inc rTGT_CNT_CACHE_HIT).respond f (e.status % 16) (e.status / 16) 0 e.data) := by
  unfold State.tgtTry
  simp only [Nat.not_lt.2 hlen, hack, hretry, hfind, Nat.ne_of_lt hanswered, Bool.false_eq_true, if_false]

/-- Only a notice asks for an ack. -/
theorem isAckRequest_of_kind (hkind : f.kind ≠ 5) : isAckRequest f = false := by
  unfold isAckRequest
  simp [hkind]

/-- A request that is locked without holding bridge_sem ends with status 7 and subcode 4 (R265). -/
theorem tgtPerform_unlocked (hkind : f.kind ≠ 0xA) (hlocked : (nthD f.payload 3 0).toNat = 64)
    (hholds : s.tokenHolds (tgtReq f inp) (beNat (slice f.payload 6 2)) = false) : s.tgtPerform f inp = s.tgtDone f 7 4 [] := by
  have hbit : bitOf (toW 64) 6 = true := by decide
  unfold State.tgtPerform
  simp only [hkind, hlocked, hbit, hholds, if_false]
  rfl

/-- A request without flags is not locked and may not prefetch. -/
theorem bitOf_zero (i : Nat) : bitOf (toW 0) i = false := by simp [bitOf, toW]

/-- A sound read of 1 to 128 octets within a line answers with what the access gives, once it has ended. -/
theorem tgtPerform_read {st : Nat} (hflags : (nthD f.payload 3 0).toNat = 0) (hkind : f.kind = 3) :
    let a := beNat (slice f.payload 8 4)
    let n := (nthD f.payload 12 0).toNat
    let r := s.readAccess (tgtReq f inp) a n false (.ring f)
    1 ≤ n → n ≤ 128 → a % 128 + n ≤ 128 → r.1 = some st → s.tgtPerform f inp = r.2.2.tgtDone f st 0 r.2.1 := by
  intro a n r hsome hmost hline hended
  have hfits : (decide (1 ≤ n) && decide (n ≤ 128) && decide (a % 128 + n ≤ 128)) = true := by simp [hsome, hmost, hline]
  unfold State.tgtPerform
  simp only [hkind, hflags, bitOf_zero, a, n] at hfits ⊢
  simp only [hfits]
  rw [hended]
  rfl

/-- A sound write, posted or not, answers with its status once the access has ended. -/
theorem tgtPerform_write {st : Nat} (hflags : (nthD f.payload 3 0).toNat = 0) (hkind : f.kind = 1 ∨ f.kind = 2) :
    let a := beNat (slice f.payload 8 4)
    let n := (nthD f.payload 12 0).toNat
    let r := s.writeAccess (tgtReq f inp) a (f.payload.drop 16) (.ring f)
    1 ≤ n → n ≤ 128 → a % 128 + n ≤ 128 → (f.payload.drop 16).length = n → r.1 = some st → s.tgtPerform f inp = r.2.tgtDone f st 0 [] := by
  intro a n r hsome hmost hline hdata hended
  have hfits : (decide (1 ≤ n) && decide (n ≤ 128) && decide (a % 128 + n ≤ 128)) = true := by simp [hsome, hmost, hline]
  unfold State.tgtPerform
  rcases hkind with hkind | hkind
  all_goals
    simp only [hkind, hflags, bitOf_zero, hdata, a, n] at hfits ⊢
    simp only [hfits, bne_self_eq_false, Bool.and_false]
    rw [hended]
    rfl

end Requests

/-! ### The statement -/

/-- Settles O34: each response, notice, time and request by its own rule. The answers of an unconfirmed write are free values (log entry 4); what a
late response, a resend and an ack meet in the bridge is log entries 66 and 67. -/
theorem bridgeAndTargetEngine : Obligations.BridgeAndTargetEngine := by
  refine ⟨fun s p => ⟨fun d b hfind hkeep hflow => ?response, fun b f hlen hnone => ⟨fun hissued => ?duplicate, fun hnever => ?unknown⟩,
      fun b f r hsome hplain hlen => ⟨fun hstatus hcount hall => ?good, fun st sub hstatus hst hst' hhost hcont hwrite => ?failed⟩,
      fun d b hfind hkeep hflow hlen hcode => ?notice, fun b tag r hsome => ⟨fun hleft => ?again, fun hspent => ?late⟩,
      fun h node e hsome => congrArg (finish s) (unconfirmed_some hsome), fun b node => rfl, fun h => rfl⟩,
    fun s => ⟨fun p d t hholds hnone hfind hkeep hready htry hrest => congrArg (finish s) (tgtTurn_performs hholds hnone hfind hkeep hready htry hrest),
      fun f inp hlen hflags hentry hsome hmost hline => ⟨fun hkind st hst => ?read, fun hkind hdata st hst => ?write⟩,
      fun f inp hlen hkind hack hlocked hentry hholds => ?locked, fun f inp e => tgtTry_cached,
      fun w rest t hwaits htry => congrArg (finish s) (orderExpire_performs hwaits htry),
      fun src flow e hsome => congrArg (finish s) (ackDue_some hsome),
      fun src flow tag hnone hempty => congrArg (finish s) (tgtTurn_idle hnone hempty)⟩⟩
  case response =>
    refine congrArg (finish s) ((takeFrame_first hfind hkeep).trans ?_)
    simp only [hflow]
  case duplicate => exact (takeResponse_unused hlen hnone).trans ((if_pos hissued).trans (if_pos b.isLt))
  case unknown => exact (takeResponse_unused hlen hnone).trans ((if_neg (ne_true_of_eq_false hnever)).trans (by rw [brPage_host]))
  case good =>
    exact (takeResponse_used (sub := 0) hlen hsome hplain hstatus (by decide) rfl fun _ => ⟨hcount, hall⟩).trans (npAnswer_good ..)
  case failed =>
    exact (takeResponse_used hlen hsome hplain hstatus hst' rfl fun h0 => absurd h0 (Nat.ne_of_gt hst)).trans
      (npAnswer_failed _ _ _ _ hst hhost hcont hwrite)
  case notice =>
    refine congrArg (finish s) ((takeFrame_first hfind hkeep).trans ?_)
    simp only [hflow]
    exact takeNotice_ack hlen hcode
  case again => exact congrArg (finish s) ((npTimeout_some hsome).trans (if_pos hleft))
  case late => exact congrArg (finish s) ((npTimeout_some hsome).trans (if_neg (Nat.not_lt.2 hspent)))
  case read =>
    rw [tgtTry_first hlen (isAckRequest_of_kind (by omega)) (by rw [hflags]) hentry, tgtPerform_read hflags hkind hsome hmost hline hst]
  case write =>
    rw [tgtTry_first hlen (isAckRequest_of_kind (by omega)) (by rw [hflags]) hentry, tgtPerform_write hflags hkind hsome hmost hline hdata hst]
  case locked =>
    rw [tgtTry_first hlen hack (by rw [hlocked]) hentry, tgtPerform_unlocked hkind hlocked hholds]

end Sys2Proof.Machine
end

section
/-! PROOF. Levels, barriers and the fault capture (R284, R293, R309), and what a translation that passes every check says (R288 to R290). -/
namespace Sys2Proof.Machine

section Xlt

variable {s : State}

/-! ### The levels of the host ports (R284) -/

/-- One field of XLT_LEVEL at or below its port's strap level is set. -/
theorem setLevel_allowed {h : Nat} {f : Fld} {v : Word} (hfits : fldOf v f ≤ s.strapLevel h) : s.setLevel h f v = s.put rXLT_LEVEL f (fldOf v f) :=
  if_neg (Nat.not_lt.2 hfits)

/-- One field of XLT_LEVEL above its port's strap level keeps its value. -/
theorem setLevel_above {h : Nat} {f : Fld} {v : Word} (habove : s.strapLevel h < fldOf v f) : s.setLevel h f v = s.warn 0x08 := if_pos habove

/-- Neither what a level is set to nor a warning moves the straps. -/
theorem strapLevel_setLevel (h k : Nat) (f : Fld) (v : Word) : (s.setLevel h f v).strapLevel k = s.strapLevel k := by
  have hlevel : rHBx_CFG k ≠ rXLT_LEVEL := by dsimp only [rHBx_CFG, rXLT_LEVEL]; omega
  have hstatus : rHBx_CFG k ≠ rPG_STATUS 0x08 := by dsimp only [rHBx_CFG, rPG_STATUS]; omega
  have hflag : (s.setLevel h f v).flag (rHBx_CFG k) fHBx_CFG_strap_warden = s.flag (rHBx_CFG k) fHBx_CFG_strap_warden := by
    unfold State.setLevel
    split
    · exact flag_put_ne _ _ _ _ hstatus
    · exact flag_put_ne _ _ _ _ hlevel
  unfold State.strapLevel
  rw [hflag]

/-- The second field of XLT_LEVEL meets the straps as they were before the first. -/
theorem xltLevelFx_eq {v : Word} : xltLevelFx v s = let t := s.setLevel 0 fXLT_LEVEL_host_a v
    if s.strapLevel 1 < fldOf v fXLT_LEVEL_host_b then t.warn 0x08 else t.put rXLT_LEVEL fXLT_LEVEL_host_b (fldOf v fXLT_LEVEL_host_b) := by
  rw [← strapLevel_setLevel (s := s) 0 1 fXLT_LEVEL_host_a v]
  rfl

/-! ### Barriers (R293) -/

/-- What a barrier leaves of the cached translations: none, those of other spaces, or those of other pages. -/
def State.barrierLeaves (s : State) (v : Word) (keep : List TlbEnt) : Prop :=
  fldOf v fXLT_BARRIER_scope = 1 ∧ keep = [] ∨
  fldOf v fXLT_BARRIER_scope = 2 ∧ keep = s.tlb.filter (fun e => e.space != fldOf v fXLT_BARRIER_space) ∨
  fldOf v fXLT_BARRIER_scope = 3 ∧
    keep = s.tlb.filter (fun e => e.space != fldOf v fXLT_BARRIER_space || e.page != fldOf v fXLT_BARRIER_page)

theorem xltBarrierFx_leaves {c : Cont} {v : Word} {keep : List TlbEnt} (hkeep : s.barrierLeaves v keep) :
    xltBarrierFx c v s = (true, ({ s with tlb := keep, barriers := s.barriers ++ [c] } : State).put rXLT_STATUS fXLT_STATUS_barrier_busy 1) := by
  unfold xltBarrierFx
  rcases hkeep with ⟨hscope, rfl⟩ | ⟨hscope, rfl⟩ | ⟨hscope, rfl⟩
  · simp [hscope]
  · simp [hscope, bne, beq_eq_decide]
  · simp [hscope, bne, beq_eq_decide]

/-- A barrier's write has its effect and is not answered yet. -/
theorem exec_barrier_accepted {q : Req} {v : Word} {t : State} (ha : s.accepts q rXLT_BARRIER v) (hfx : xltBarrierFx (.done q) v s = (true, t)) :
    exec (.barrier q v) s = .next (s.finished (t.hostWrote q)) := by
  refine congrArg (finish s) ?_
  rw [regWriteHold_accepted ha, hfx]
  rfl

theorem barrierDone_last {c : Cont} (h : s.barriers = [c]) :
    s.barrierDone = ((({ s with barriers := [] } : State).irq 0x08 2).put rXLT_STATUS fXLT_STATUS_barrier_busy 0).complete c 0 0 [] := by
  unfold State.barrierDone
  simp only [h, if_true]

theorem barrierDone_more {c d : Cont} {rest : List Cont} (h : s.barriers = c :: d :: rest) :
    s.barrierDone = (({ s with barriers := d :: rest } : State).irq 0x08 2).complete c 0 0 [] := by
  unfold State.barrierDone
  simp only [h, reduceCtorEq, if_false]

/-! ### Translation (R288 to R290) -/

variable {m : Nat} {l : Level} {a : Nat} {x : Xfer} {bus : Nat}

theorem translate_off (hoff : s.enabled 0x08 = false ∨ s.rootOk (s.spaceOf m) = false) : s.translate m l a x bus = (⟨1, 0, 0, false⟩, s) :=
  if_pos (by simpa using hoff)

/-- No translation touches memory: the TLB, counts and an armed checker are all that a walk or a hit changes. -/
theorem mem_translate : (s.translate m l a x bus).2.mem = s.mem := ((Keeps.refl (k := true)).translate rfl).stores rfl |>.1

/-- The Warden alone ranks above the Operator. -/
theorem warden_of_rank (h : 1 < lvlRank l) : l = .warden := by
  cases l with
  | guest => exact absurd h (by decide)
  | operator => exact absurd h (by decide)
  | warden => rfl

/-- A list of checks gives no cause when the first one holds and the rest give none. -/
theorem ite_cause_eq_zero {c : Prop} [Decidable c] {n r : Nat} (hn : c → n ≠ 0) : (if c then n else r) = 0 ↔ ¬ c ∧ r = 0 := by
  by_cases hc : c <;> simp [hc, hn]

/-- An access that passes every check found its entry, at the page that the entry names, with the permission and the level that it needs. -/
theorem translate_passed (h : (s.translate m l a x bus).1.cause = 0) : let e := (s.pageEntry (s.spaceOf m) a).1
    e.1 = 0 ∧ (s.translate m l a x bus).1.out = (e.2.2.toNat * 2 ^ 32 + e.2.1.toNat) / 4096 * 4096 + a % 4096 ∧
    (x = .write → bitOf e.2.1 5 = true) ∧ (x = .read → bitOf e.2.1 4 = true) ∧ (x = .fetch → bitOf e.2.1 6 = true) ∧
    (natBits e.2.1.toNat 9 8 = 2 → l = .warden) := by
  intro e
  by_cases hoff : s.enabled 0x08 = false ∨ s.rootOk (s.spaceOf m) = false
  · rw [translate_off hoff] at h
    exact absurd h one_ne_zero
  have hon : ¬ (!s.enabled 0x08 || !s.rootOk (s.spaceOf m)) = true := by simpa using hoff
  unfold State.translate at h ⊢
  simp only [if_neg hon] at h ⊢
  rw [ite_cause_eq_zero (by simp +contextual)] at h
  iterate 7 rw [ite_cause_eq_zero (fun _ => OfNat.ofNat_ne_zero _)] at h
  obtain ⟨hwalk, hread, hwrite, hfetch, hlevel, -, -, hsound, -⟩ := h
  refine ⟨by simpa [hsound] using hwalk, rfl, fun hx => by simpa [hx] using hwrite, fun hx => by simpa [hx] using hread,
    fun hx => by simpa [hx] using hfetch, fun hmin => warden_of_rank ?_⟩
  simpa [e, hmin] using hlevel

end Xlt

/-! ### The statement -/

/-- Settles O29: the writes, a barrier's course and the translation, each by its own rule. -/
theorem levelsBarriersAndTranslation : Obligations.LevelsBarriersAndTranslation := by
  refine ⟨fun s q => ⟨fun v ha => ⟨fun hA hB => ?both, fun hA hB => ?onlyB, fun hA hB => ?onlyA, fun hA hB => ?neither⟩,
      fun v keep ha hkeep => exec_barrier_accepted ha (xltBarrierFx_leaves hkeep),
      fun h => congrArg (finish s) (barrierDone_last h), fun c rest h => congrArg (finish s) (barrierDone_more h),
      fun h => congrArg (finish s) (if_neg h), fun v ha hclear => exec_writeReg_accepted rfl ha (if_pos hclear)⟩,
    fun s m l a x bus => ⟨translate_off, translate_passed, mem_translate⟩⟩
  all_goals refine exec_writeReg_accepted rfl ha (xltLevelFx_eq.trans ?_)
  case both => rw [setLevel_allowed hA, if_neg (Nat.not_lt.2 hB)]
  case onlyB => rw [setLevel_above hA, if_neg (Nat.not_lt.2 hB)]
  case onlyA => rw [setLevel_allowed hA, if_pos hB]
  case neither => rw [setLevel_above hA, if_pos hB]

end Sys2Proof.Machine
end

section
/-! PROOF. DMA channels: allocation and freeing (R295, R296, R311), the commands of a channel (R301, R302, R306), and its steps (R297, R298, R300). -/
namespace Sys2Proof.Machine

section Channels

variable {s : State} {q : Req} {v : Word} {c : Nat} {host : List (Nat × Byte)}

/-! ### Allocation and freeing (R295, R296, R311) -/

/-- The channel is free and the requester may hold it. -/
def State.mayHold (s : State) (q : Req) (k : Nat) : Prop := s.chState k = 0 ∧ (s.levelOf q = .warden ∨ bitOf (s.reg rDMAA_CFG) k = false)

theorem mayHold_iff (k : Nat) : (s.chState k = 0 && (s.levelOf q = .warden || !bitOf (s.reg rDMAA_CFG) k)) = true ↔ s.mayHold q k := by
  simp [State.mayHold]

/-- The search of the allocator ends at the lowest channel that may be held. -/
theorem dmaaAlloc_lowest (hc : c < 16) (hlower : ∀ k, k < c → ¬ s.mayHold q k) (hfree : s.mayHold q c) :
    let t := s.setReg (rDMAA_OWNER c) (toW ((if q.master = 0x30 then q.node * 2 ^ 14 + q.att % 2 * 2 ^ 8 else 0) + q.master))
    dmaaAlloc q s = (2 ^ 31 + c, ((t.put (rDMA_STATE c) fDMA_STATE_owner q.master).setChState c 1).setReg rDMAA_ALLOC_REPLAY (toW (2 ^ 31 + c))) := by
  have hfind : (List.range 16).find? (fun k => s.chState k = 0 && (s.levelOf q = .warden || !bitOf (s.reg rDMAA_CFG) k)) = some c :=
    List.find?_range_eq_some.2 ⟨(mayHold_iff c).2 hfree, List.mem_range.2 hc,
      fun k hk => by rw [Bool.not_eq_true', Bool.eq_false_iff]; exact mt (mayHold_iff k).1 (hlower k hk)⟩
  unfold dmaaAlloc
  dsimp only
  rw [hfind]

theorem dmaaAlloc_none (hnone : ∀ k, k < 16 → ¬ s.mayHold q k) : dmaaAlloc q s = (0, (s.inc rDMAA_CNT_NONE).irq 0x60 2) := by
  have hfind : (List.range 16).find? (fun k => s.chState k = 0 && (s.levelOf q = .warden || !bitOf (s.reg rDMAA_CFG) k)) = none :=
    List.find?_eq_none.2 fun k hk => mt (mayHold_iff k).1 (hnone k (List.mem_range.1 hk))
  unfold dmaaAlloc
  dsimp only
  rw [hfind]

/-- The owner or the Warden frees a channel at rest without force. -/
theorem dmaaFreeFx_frees (hchannel : v.toNat % 16 = c) (hforce : bitOf v 31 = false) (hmay : s.levelOf q = .warden ∨ s.dmaOwns c q = true)
    (hrest : s.chState c = 1 ∨ s.chState c = 4) : dmaaFreeFx q v s = s.dmaFree c false := by
  have hallowed : (!decide (s.levelOf q = .warden) && !s.dmaOwns c q) = false := by rcases hmay with h | h <;> simp [h]
  unfold dmaaFreeFx
  simp only [hchannel, hforce, hallowed]
  rcases hrest with h | h <;> simp [h]

/-- A requester below the Warden that does not own the channel is refused. -/
theorem dmaaFreeFx_refused (hchannel : v.toNat % 16 = c) (hlevel : s.levelOf q ≠ .warden) (howner : s.dmaOwns c q = false) :
    dmaaFreeFx q v s = s.refuse 0x60 fPG_STATUS_claim_refused := by
  unfold dmaaFreeFx
  simp [hchannel, hlevel, howner]

/-! ### Commands (R301, R302, R306) -/

/-- Of the lowest four bits of a word one alone is set. -/
theorem bitOf_low {w : Word} {k : Nat} (h : w.toNat % 2 ^ 4 = 2 ^ k) {i : Nat} (hi : i < 4) : bitOf w i = decide (k = i) := by
  have hlow := Nat.testBit_mod_two_pow w.toNat 4 i
  rw [h, Nat.testBit_two_pow, decide_eq_true hi, Bool.true_and] at hlow
  exact hlow.symm

theorem dmaCmdFx_start (h : v.toNat % 16 = 1) : dmaCmdFx c v s = s.dmaStart c := by
  simp [dmaCmdFx, bitOf_low (k := 0) h]

theorem dmaCmdFx_resume (h : v.toNat % 16 = 2) : dmaCmdFx c v s = s.dmaResume c := by
  simp [dmaCmdFx, bitOf_low (k := 1) h]

theorem dmaCmdFx_abort (h : v.toNat % 16 = 4) : dmaCmdFx c v s = s.dmaAbort c := by
  simp [dmaCmdFx, bitOf_low (k := 2) h]

theorem dmaCmdFx_stop (h : v.toNat % 16 = 8) : dmaCmdFx c v s = s.dmaStop c := by
  simp [dmaCmdFx, bitOf_low (k := 3) h]

theorem dmaStart_run (hidle : s.chState c = 1) (hrx : s.flag (rDMA_CTRL c) fDMA_CTRL_rx = false) : s.dmaStart c =
    ((s.setDma c { s.dma c with rx := false, desc := [], started := false, gather := [], ending := none, stopReq := false, busy := false }).setReg
      (rDMA_CUR_DESC c) (s.reg (rDMA_DESC c))).setChState c 2 := by
  unfold State.dmaStart
  simp [hidle, hrx]

theorem dmaStart_receive (hidle : s.chState c = 1) (hrx : s.flag (rDMA_CTRL c) fDMA_CTRL_rx = true) (hbound : (s.binding c).isSome = true) :
    s.dmaStart c = (s.setDma c { s.dma c with rx := true }).setChState c 5 := by
  unfold State.dmaStart
  simp [hidle, hrx, hbound]

theorem dmaResume_faulted (hfaulted : s.chState c = 3) : let rx := s.flag (rDMA_CTRL c) fDMA_CTRL_rx
    let t := (s.setDma c { s.dma c with rx := rx }).setChState c (if rx then 5 else 2)
    s.dmaResume c = if rx then t.rxResume c else t := if_neg (by simp [hfaulted])

theorem dmaAbort_faulted (hfaulted : s.chState c = 3) : let t := s.dmaHalt c
    s.dmaAbort c = (t.setDma c { t.dma c with rx := false }).dmaStopped c := if_neg (by simp [hfaulted])

theorem dmaStop_run (hrun : s.chState c = 2) :
    s.dmaStop c = if (s.dma c).desc = [] then s.setChState c 1 else s.setDma c { s.dma c with stopReq := true } := if_pos hrun

/-! ### Steps of a channel in RUN (R297, R298, R300, R301) -/

section Run

variable (hon : s.enabled (0x50 + c) = true) (hrun : s.chState c = 2) (hfree : (s.dma c).ending = none)
include hon hrun hfree

/-- Between descriptors the step is a fetch. -/
theorem dmaStep_fetch (hdesc : (s.dma c).desc = []) : s.dmaStep c host = s.dmaFetch c host := by
  unfold State.dmaStep
  simp [hon, hrun, hfree, hdesc]

/-- In a copy that has been set up the step is a burst. -/
theorem dmaStep_copy (hdesc : (s.dma c).desc ≠ []) (hstarted : (s.dma c).started = true) (hop : natBits ((s.dma c).word 0) 31 28 = 0) :
    s.dmaStep c host = s.dmaCopy c host := by
  unfold State.dmaStep
  simp [hon, hrun, hfree, hdesc, hstarted, hop]

end Run

/-- A descriptor that is not aligned completes with status 5 (R297). -/
theorem dmaFetch_misaligned (halign : (s.reg (rDMA_CUR_DESC c)).toNat % 32 ≠ 0) :
    s.dmaFetch c host = ((s.setCur c 0 0 0).setDma c { s.dma c with desc := List.replicate 8 0 }).dmaComplete c 5 0 :=
  if_pos (by simpa using halign)

/-- A translation fault of the fetch takes the channel to FAULTED (R301). -/
theorem dmaFetch_faults {cause fa : Nat} {l : List Piece} {t : State} (halign : (s.reg (rDMA_CUR_DESC c)).toNat % 32 = 0)
    (hx : s.xlate c (s.reg (rDMA_CUR_DESC c)).toNat 32 .fetch = ((some (cause, fa), l), t)) : s.dmaFetch c host = t.dmaFault c cause fa := by
  unfold State.dmaFetch
  simp [halign, hx]

section Burst

variable {n : Nat} (hn : n = min (s.curLeft c) (64 - s.curDst c % 64)) (hidle : (s.dma c).busy = false) (hnone : (s.dma c).result = none)
include hn hidle hnone

/-- A burst that is read, translated and written is over (R300). -/
theorem dmaCopy_advances {bs : List Byte} {ps : List Piece} {t u w : State}
    (hread : s.burstRead c (s.curSrc c) n ((s.dma c).word 2) host = (some (0, bs), t))
    (hdest : t.burstDest c (t.curDst c) n ((s.dma c).word 4) = (some ps, u)) (hwrite : u.copyWrite c ps bs = (some 0, w)) :
    s.dmaCopy c host = w.dmaAdvance c n := by
  subst hn
  unfold State.dmaCopy State.dmaTake State.burstWrite
  simp [hidle, hnone, hread, hdest, hwrite]

/-- A burst whose read fails completes the descriptor with status 3 (R301). -/
theorem dmaCopy_failed {st : Nat} {bs : List Byte} {t : State} (hst : st ≠ 0)
    (hread : s.burstRead c (s.curSrc c) n ((s.dma c).word 2) host = (some (st, bs), t)) : s.dmaCopy c host = t.dmaComplete c 3 st := by
  subst hn
  unfold State.dmaCopy State.dmaTake
  simp [hidle, hnone, hread, hst]

end Burst

end Channels

/-! ### Frames for a queue that no channel serves (R304) -/

theorem rxChannel_none {u : State} {port queue : Nat} (hnone : ∀ c : Fin 16, u.enabled (0x50 + c) = true → u.binding c = some (port, queue) →
    u.chState c ≠ 5 ∧ (u.chState c = 3 → (u.dma c).rx = false)) : u.rxChannel port queue = none := by
  refine List.find?_eq_none.2 fun c hc hserves => ?_
  simp only [Bool.and_eq_true, Bool.or_eq_true, decide_eq_true_eq] at hserves
  obtain ⟨⟨hon, hbound⟩, hstate⟩ := hserves
  obtain ⟨hreceive, hfaulted⟩ := hnone ⟨c, List.mem_range.1 hc⟩ hon hbound
  rcases hstate with h5 | ⟨h3, hrx⟩
  · exact hreceive h5
  · exact ne_true_of_eq_false (hfaulted h3) hrx

theorem rxFrame_unbound {u : State} {port : Nat} (host : List (Nat × Byte)) {d : Delivered}
    (hnone : u.rxChannel port ((d.held.map HeldCtx.queue).getD 0) = none) :
    let t := ((u.flowCount d.frame 0x68).inc rDMAA_CNT_UNBOUND).fault { source := 55, page := 0x60 }
    u.rxFrame port host d = if d.frame.cls = 0 then t.lost0 else t := by
  unfold State.rxFrame
  simp only [hnone]

/-! ### The statements -/

/-- Settles O30: the allocator's search, then each command by its bit and each step by the channel's place in its descriptor. That resume goes by
DMA_CTRL.rx and abort acts only on FAULTED is log entry 43; that a local access of a burst that fails ends its descriptor with status 3 is log
entry 42. -/
theorem channelsAreCommandedAndStep : Obligations.ChannelsAreCommandedAndStep := by
  refine ⟨fun s q c => ⟨?alloc, ?noneFree, fun v hc hforce ha hmay hrest => exec_writeReg_accepted rfl ha (dmaaFreeFx_frees hc hforce hmay hrest),
      fun v hc ha hlevel howner => exec_writeReg_accepted rfl ha (dmaaFreeFx_refused hc hlevel howner),
      fun v ha hv hidle => ⟨fun hrx => exec_writeReg_accepted rfl ha ((dmaCmdFx_start hv).trans (dmaStart_run hidle hrx)),
        fun hrx hbound => exec_writeReg_accepted rfl ha ((dmaCmdFx_start hv).trans (dmaStart_receive hidle hrx hbound))⟩,
      fun v ha hv hfaulted => exec_writeReg_accepted rfl ha ((dmaCmdFx_resume hv).trans (dmaResume_faulted hfaulted)),
      fun v ha hv hfaulted => exec_writeReg_accepted rfl ha ((dmaCmdFx_abort hv).trans (dmaAbort_faulted hfaulted)),
      fun v ha hv hrun => have hstop := (dmaCmdFx_stop hv).trans (dmaStop_run hrun)
        ⟨fun hdesc => exec_writeReg_accepted rfl ha (hstop.trans (if_pos hdesc)),
          fun hdesc => exec_writeReg_accepted rfl ha (hstop.trans (if_neg hdesc))⟩⟩,
    fun s c host hon hrun hfree => ⟨?misaligned, ?faults, fun hdesc hstarted hop hidle hnone => ⟨?advances, ?failed⟩⟩⟩
  case alloc =>
    intro mp hread hlower hfree
    refine congrArg (finish s) ((rowRead_allowed hread false (dmaaAlloc q)).trans ?_)
    rw [dmaaAlloc_lowest c.isLt (fun k hk => hlower ⟨k, hk.trans c.isLt⟩ hk) hfree]
    rfl
  case noneFree =>
    intro mp hread hnone
    refine congrArg (finish s) ((rowRead_allowed hread false (dmaaAlloc q)).trans ?_)
    rw [dmaaAlloc_none fun k hk => hnone ⟨k, hk⟩]
    rfl
  case misaligned => exact fun hdesc halign => congrArg (finish s) ((dmaStep_fetch hon hrun hfree hdesc).trans (dmaFetch_misaligned halign))
  case faults =>
    exact fun cause fa l t hdesc halign hx => congrArg (finish s)
      ((dmaStep_fetch hon hrun hfree hdesc).trans (dmaFetch_faults halign hx))
  case advances =>
    exact fun bs t ps u v hread hdest hwrite => congrArg (finish s)
      ((dmaStep_copy hon hrun hfree hdesc hstarted hop).trans (dmaCopy_advances rfl hidle hnone hread hdest hwrite))
  case failed =>
    exact fun st bs t hst hread => congrArg (finish s)
      ((dmaStep_copy hon hrun hfree hdesc hstarted hop).trans (dmaCopy_failed rfl hidle hnone hst hread))

/-- Settles O32: no channel serves the queue, so the frame goes, and the frames that wait at the port go on. -/
theorem frameForNoChannel : Obligations.FrameForNoChannel := by
  intro s o host d rest hport hout hkind u queue hnone t
  have hdiscarded : s.rxStep o host = (if d.frame.cls = 0 then t.lost0 else t).rxPumpPort o host := by
    rw [rxStep_of_flow hout hkind (by omega) host, rxFrame_unbound host (rxChannel_none hnone)]
  exact ⟨fun hcls => congrArg (finish s) (hdiscarded.trans (by rw [if_neg hcls])),
    fun hcls => congrArg (finish s) (hdiscarded.trans (by rw [if_pos hcls, State.lost0]))⟩

end Sys2Proof.Machine
end

section
/-! PROOF. Every command of the table completes (R499), from what every row of the dispatch ends with. -/
namespace Sys2Proof.Machine

/-- Settles O3: every arm of the dispatch ends with `finish`, which keeps the queue and leaves no event. -/
theorem everyCommandCompletes : Obligations.EveryCommandCompletes := by
  intro c s
  obtain ⟨t, ht⟩ := exec_eq_finish c s
  exact ⟨_, ht, finished_pending s t, finished_raises s t⟩

end Sys2Proof.Machine
end

section
/-! PROOF. The fault collector (R503, R504, R508): what it shows of an event at level 1, and which registers the capture, the page's record and the
ledger's entry leave alone. -/
namespace Sys2Proof.Machine

/-! ### What the record of an event leaves alone -/

section Records

variable {s : State} {e : FaultEv} {a c p : Nat}

/-- The capture of a class writes its eight words alone. -/
theorem reg_capture_ne (h : a < rFLT_CAP c 0 ∨ rFLT_CAP c 7 < a) : (s.capture c e).reg a = s.reg a := by
  unfold State.capture
  simp only [rFLT_CAP] at h
  split <;> simp (disch := omega) only [rFLT_CAP, reg_setReg_ne]

/-- The first word of a capture is valid once it holds an event, and stays while it is. -/
theorem reg_capture_head (hsource : e.source < 128) (hmaster : e.master < 256) (htype : e.type < 8) :
    bitOf ((s.capture c e).reg (rFLT_CAP c 0)) 31 = true ∧
    (bitOf (s.reg (rFLT_CAP c 0)) 31 = true → (s.capture c e).reg (rFLT_CAP c 0) = s.reg (rFLT_CAP c 0)) := by
  unfold State.capture
  split
  · rename_i hvalid
    rw [reg_setReg_ne _ _ (by dsimp only [rFLT_CAP]; omega)]
    exact ⟨hvalid, fun _ => rfl⟩
  · rename_i hfree
    refine ⟨?_, fun h => absurd h hfree⟩
    have hinj : b2n e.injected ≤ 1 := by unfold b2n; split <;> omega
    simp (disch := omega) only [rFLT_CAP, reg_setReg_ne, reg_setReg_same]
    unfold bitOf toW
    rw [BitVec.toNat_ofNat, Nat.mod_eq_of_lt (by omega), Nat.testBit_eq_decide_div_mod_eq]
    simp
    omega

/-- The record in a page's PG_FAULT touches the header of the page alone. -/
theorem reg_pageFault_ne {src : Nat} {severe : Bool} (hfault : a ≠ rPG_FAULT p) (hirq : a ≠ rPG_IRQ_STAT p) :
    (s.pageFault p src severe).reg a = s.reg a := by
  unfold State.pageFault
  dsimp only
  split
  · split
    · exact (reg_setReg_ne _ _ hfault).trans (reg_setReg_ne _ _ hfault)
    · exact reg_setReg_ne _ _ hfault
  · exact (reg_setReg_ne _ _ hirq).trans (reg_setReg_ne _ _ hfault)

theorem flag_pageFault {src : Nat} {severe : Bool} (hsource : src < 128) : (s.pageFault p src severe).flag (rPG_FAULT p) fPG_FAULT_valid = true := by
  have hkeeps (f : Fld) (t : State) (v : Nat) (hf : f = fPG_FAULT_count ∨ f = fPG_FAULT_severe) :
      (t.put (rPG_FAULT p) f v).flag (rPG_FAULT p) fPG_FAULT_valid = t.flag (rPG_FAULT p) fPG_FAULT_valid := by
    rcases hf with rfl | rfl <;> exact flag_put_other _ _ _ _ _ (by decide) (by decide) (by decide)
  unfold State.pageFault
  dsimp only
  split
  · rename_i hvalid
    split
    · rw [hkeeps _ _ _ (.inr rfl), State.incSat, hkeeps _ _ _ (.inl rfl), hvalid]
    · rw [State.incSat, hkeeps _ _ _ (.inl rfl), hvalid]
  · have hsevere : b2n severe ≤ 1 := by unfold b2n; split <;> omega
    have hread : ((s.setReg (rPG_FAULT p) (toW (2 ^ 31 + b2n severe * 2 ^ 16 + 2 ^ 8 + src))).irq p 1).reg (rPG_FAULT p) =
        toW (2 ^ 31 + b2n severe * 2 ^ 16 + 2 ^ 8 + src) :=
      (reg_setReg_ne _ _ (by dsimp only [rPG_FAULT, rPG_IRQ_STAT]; omega)).trans (reg_setReg_same ..)
    unfold State.flag State.get
    rw [hread]
    have hword : 2 ^ 31 + b2n severe * 2 ^ 16 + 2 ^ 8 + src < 2 ^ 32 := by omega
    unfold fldOf natBits toW
    rw [BitVec.toNat_ofNat, Nat.mod_eq_of_lt hword, Nat.shiftRight_eq_div_pow]
    simp
    omega

/-- The registers of the ledger that staging writes (R516). -/
def stageRegs : List Nat := [rLEDG_STATUS, rLEDG_CNT_LOST, rPG_IRQ_STAT 0x06]

theorem reg_stage_ne {type detail : Nat} {data : List Byte} {pdMs : Option Nat} (h : a ∉ stageRegs) : (s.stage type detail data pdMs).reg a = s.reg a := by
  simp only [stageRegs, List.mem_cons, List.not_mem_nil, or_false, not_or] at h
  obtain ⟨hstatus, hlost, hirq⟩ := h
  have hput (t : State) (type detail : Nat) (data : List Byte) (gap : Bool) (pdMs : Option Nat) : (t.stagePut type detail data gap pdMs).reg a = t.reg a :=
    (reg_setReg_ne _ _ hstatus).trans (reg_congr (regs_setBytes ..) a)
  unfold State.stage
  dsimp only
  generalize (if s.ledg.lost = 0 then 1 else 2) = need
  split
  · rfl
  · split
    · rw [reg_raise, reg_irq, if_neg hirq, reg_inc, if_neg hlost]
      rfl
    · split
      · exact hput ..
      · rw [hput, hput]
        rfl

theorem not_mem_stageRegs (h : a / 0x1000 ≠ 0x06 ∨ a % 0x1000 = 0x018) : a ∉ stageRegs := by
  simp only [stageRegs, List.mem_cons, List.not_mem_nil, or_false, rPG_IRQ_STAT, rLEDG_STATUS, rLEDG_CNT_LOST]
  omega

/-- The ledger's entry of an event touches no page but the ledger's, and no PG_FAULT. -/
theorem reg_faultEntry_ne {eff : Nat} {severe escalated : Bool} (h : a / 0x1000 ≠ 0x06 ∨ a % 0x1000 = 0x018) :
    (s.faultEntry e eff severe escalated).reg a = s.reg a := by
  unfold State.faultEntry
  split
  · rfl
  · split
    · rfl
    · rw [reg_stage_ne (not_mem_stageRegs h)]
      rfl

end Records

/-! ### The parts of the collector -/

section Parts

/-- The source is counted in its window, and shown as severe (R503). -/
def State.countSource (s : State) (e : FaultEv) (n : Nat) (severe : Bool) : State :=
  let t := s.setReg (rFLT_SRC_COUNT (e.source / 4)) (toW (natPut (s.reg (rFLT_SRC_COUNT (e.source / 4))).toNat (8 * (e.source % 4) + 7) (8 * (e.source % 4)) n))
  if severe then t.setReg (rFLT_SEVERE (e.source / 32)) (t.reg (rFLT_SEVERE (e.source / 32)) ||| toW (2 ^ (e.source % 32))) else t

/-- The level at which an event acts: escalated by one while its class is pending, and held down by FLT_CFG and FLT_EXP (R504, R509). -/
def State.effective (s : State) (e : FaultEv) (lvl : Nat) (escalated : Bool) : Nat :=
  let eff := if escalated then min 5 (lvl + 1) else lvl
  let eff := if e.injected && s.flag rFLT_CFG fFLT_CFG_inject_cap then min 1 eff else eff
  if s.flag rFLT_EXP fFLT_EXP_hold_high then min 2 eff else eff

/-- The counters, FLT_RAISED and FLT_LAST show an event. -/
def State.showEvent (s : State) (e : FaultEv) (eff lvl : Nat) (severe escalated : Bool) : State :=
  let t := if escalated then s.inc rFLT_CNT_ESCALATED else s
  let t := t.inc rFLT_CNT_EVENTS
  let t := t.setReg (rFLT_RAISED (e.source / 32)) (t.reg (rFLT_RAISED (e.source / 32)) ||| toW (2 ^ (e.source % 32)))
  t.setReg rFLT_LAST (toW (e.source * 2 ^ 16 + eff * 2 ^ 8 + lvl * 2 ^ 4 + 8 * b2n severe + 4 * b2n escalated + 2 * b2n e.injected + b2n e.wire))

/-- The records of an event: the capture of its class, the PG_FAULT of its page, and the ledger's entry (R508, R512, R592). -/
def State.recordEvent (s : State) (e : FaultEv) (eff : Nat) (severe escalated : Bool) : State :=
  let t := s.capture (srcClass e.source) e
  let t := match ownerPage e.source e.page with
    | some p => t.pageFault p e.source severe
    | none => t
  t.faultEntry e eff severe escalated

/-- The reactions of the level at which an event acts and of those below it (R504, R505). -/
def State.react (s : State) (e : FaultEv) (eff lvl pend : Nat) (busy : List Nat) : State × List Nat :=
  let c := srcClass e.source
  let s := if 1 ≤ eff then
      let s := s.irq 0x04 (2 + c)
      if 1 ≤ lvl then s.put rFLT_PENDING fFLT_PENDING_pending (pend ||| 2 ^ c) else s
    else s
  let s := if 2 ≤ eff then s.put rFLT_PENDING fFLT_PENDING_level2 (s.get rFLT_PENDING fFLT_PENDING_level2 ||| 2 ^ c) else s
  let r := match srcBlock e.source with
    | some head => if 3 ≤ eff && hasBlockReset head && !busy.contains head then (s.blockReset head, head :: busy) else (s, busy)
    | none => (s, busy)
  let s := r.1
  let s := if 2 ≤ eff then s.wakeBy [0] else s
  let s := if 4 ≤ eff then s.latchErrN (if eff = 5 then 2 else 1) e.source else s
  let s := if 5 ≤ eff then { (s.inc rFLT_CNT_CHIP_RESET) with level5 := true } else s
  (s, r.2)

/-- The collector takes an event of an enabled block part by part. -/
theorem collectOne_eq {s : State} {e : FaultEv} {n lvl eff : Nat} {severe escalated : Bool} (hon : s.enabled 0x04 = true)
    (howner : ∀ p, ownerPage e.source e.page = some p → s.enabled p = true)
    (hn : satInc 255 (natBits (s.reg (rFLT_SRC_COUNT (e.source / 4))).toNat (8 * (e.source % 4) + 7) (8 * (e.source % 4))) = n)
    (hsevere : decide (max 1 (s.get (rFLT_SRC_CFG e.source) fFLT_SRC_CFG_count_n) ≤ n) = severe)
    (hlvl : levelCode (s.get (rFLT_SRC_CFG e.source) (if severe then fFLT_SRC_CFG_severe_level else fFLT_SRC_CFG_minor_level)) = lvl)
    (hescalated : (decide (1 ≤ lvl) && ((s.countSource e n severe).get rFLT_PENDING fFLT_PENDING_pending).testBit (srcClass e.source)) = escalated)
    (heff : (s.countSource e n severe).effective e lvl escalated = eff) (busy : List Nat) :
    s.collectOne e busy = (((s.countSource e n severe).showEvent e eff lvl severe escalated).recordEvent e eff severe escalated).react e eff lvl
      ((s.countSource e n severe).get rFLT_PENDING fFLT_PENDING_pending) busy := by
  subst hn hsevere hlvl hescalated heff
  have hguard : (!s.enabled 0x04 || (e.source != 49 && (ownerPage e.source e.page).any fun p => !s.enabled p)) = false := by
    rw [hon]
    cases hp : ownerPage e.source e.page with
    | none => simp
    | some p => simp [howner p hp]
  exact if_neg (ne_true_of_eq_false hguard)

/-- At level 1 an event is escalated no further, and its only reaction is the interrupt and the pending bit of its class. -/
theorem effective_one (s : State) (e : FaultEv) (hreal : e.injected = false) : s.effective e 1 false = 1 := by
  unfold State.effective
  simp [hreal]

theorem react_one (s : State) (e : FaultEv) (pend : Nat) (busy : List Nat) : s.react e 1 1 pend busy =
    ((s.irq 0x04 (2 + srcClass e.source)).put rFLT_PENDING fFLT_PENDING_pending (pend ||| 2 ^ srcClass e.source), busy) := by
  unfold State.react
  cases srcBlock e.source <;> rfl

end Parts

/-! ### What the parts show -/

section Shown

variable {s : State} {e : FaultEv} {severe escalated : Bool} {n eff lvl a : Nat}

theorem srcClass_le (n : Nat) : srcClass n ≤ 8 := by
  unfold srcClass
  split_ifs <;> omega

theorem reg_countSource_ne (hcount : a ≠ rFLT_SRC_COUNT (e.source / 4)) (hsevere : a ≠ rFLT_SEVERE (e.source / 32)) :
    (s.countSource e n severe).reg a = s.reg a := by
  unfold State.countSource
  dsimp only
  split
  · rw [reg_setReg_ne _ _ hsevere, reg_setReg_ne _ _ hcount]
  · exact reg_setReg_ne _ _ hcount

theorem srcCount_countSource (hsource : e.source < 128) : (s.countSource e n severe).srcCount e.source = n % 2 ^ 8 := by
  have hput : (s.put (rFLT_SRC_COUNT (e.source / 4)) (countFld e.source) n).srcCount e.source = n % 2 ^ 8 := by
    refine (get_put_same s _ _ n (by dsimp only [countFld]; omega) (by dsimp only [countFld]; omega)).trans ?_
    congr 2
    dsimp only [countFld]
    omega
  unfold State.countSource
  dsimp only
  split
  · exact (get_congr _ (reg_setReg_ne _ _ (rFLT_SRC_COUNT_ne_severe hsource))).trans hput
  · exact hput

theorem reg_showEvent_ne (hrange : a < rFLT_LAST ∨ (rFLT_LAST < a ∧ a < rFLT_RAISED 0) ∨ rFLT_CNT_ESCALATED < a) (hsource : e.source < 128) :
    (s.showEvent e eff lvl severe escalated).reg a = s.reg a := by
  have hraised : a ≠ rFLT_RAISED (e.source / 32) := by
    dsimp only [rFLT_LAST, rFLT_RAISED, rFLT_CNT_ESCALATED] at hrange ⊢
    omega
  dsimp only [rFLT_LAST, rFLT_RAISED, rFLT_CNT_ESCALATED] at hrange
  unfold State.showEvent
  dsimp only
  rw [reg_setReg_ne _ _ (by dsimp only [rFLT_LAST]; omega), reg_setReg_ne _ _ hraised, reg_inc, if_neg (by dsimp only [rFLT_CNT_EVENTS]; omega)]
  split
  · rw [reg_inc, if_neg (by dsimp only [rFLT_CNT_ESCALATED]; omega)]
  · rfl

theorem reg_recordEvent_flt (hpage : a / 0x1000 = 0x04) (hhead : 0x040 ≤ a % 0x1000)
    (hcap : a < rFLT_CAP (srcClass e.source) 0 ∨ rFLT_CAP (srcClass e.source) 7 < a) : (s.recordEvent e eff severe escalated).reg a = s.reg a := by
  unfold State.recordEvent
  dsimp only
  rw [reg_faultEntry_ne (by omega)]
  split
  · rw [reg_pageFault_ne (by dsimp only [rPG_FAULT]; omega) (by dsimp only [rPG_IRQ_STAT]; omega), reg_capture_ne hcap]
  · exact reg_capture_ne hcap

theorem reg_recordEvent_cap : (s.recordEvent e eff severe escalated).reg (rFLT_CAP (srcClass e.source) 0) =
    (s.capture (srcClass e.source) e).reg (rFLT_CAP (srcClass e.source) 0) := by
  have hclass := srcClass_le e.source
  unfold State.recordEvent
  dsimp only
  rw [reg_faultEntry_ne (by dsimp only [rFLT_CAP]; omega)]
  split
  · exact reg_pageFault_ne (by dsimp only [rFLT_CAP, rPG_FAULT]; omega) (by dsimp only [rFLT_CAP, rPG_IRQ_STAT]; omega)
  · rfl

theorem flag_recordEvent {p : Nat} (hsource : e.source < 128) (howner : ownerPage e.source e.page = some p) :
    (s.recordEvent e eff severe escalated).flag (rPG_FAULT p) fPG_FAULT_valid = true := by
  unfold State.recordEvent
  rw [howner]
  exact (flag_congr _ (reg_faultEntry_ne (by dsimp only [rPG_FAULT]; omega))).trans (flag_pageFault hsource)

/-- The registers that show an event, and the records beside them. -/
theorem reg_showEvent_raised :
    bitOf ((s.showEvent e eff lvl severe escalated).reg (rFLT_RAISED (e.source / 32))) (e.source % 32) = true := by
  have hbit : bitOf (toW (2 ^ (e.source % 32))) (e.source % 32) = true := by
    have hlt : 2 ^ (e.source % 32) < 2 ^ 32 := Nat.pow_lt_pow_right (by decide) (by omega)
    rw [bitOf, toW, BitVec.toNat_ofNat, Nat.mod_eq_of_lt hlt, Nat.testBit_two_pow_self]
  unfold State.showEvent
  dsimp only
  rw [reg_setReg_ne _ _ (by dsimp only [rFLT_LAST, rFLT_RAISED]; omega), reg_setReg_same, bitOf_or, hbit, Bool.or_true]

theorem reg_showEvent_last : (s.showEvent e 1 1 severe false).reg rFLT_LAST =
    toW (e.source * 2 ^ 16 + 1 * 2 ^ 8 + 1 * 2 ^ 4 + 8 * b2n severe + 4 * b2n false + 2 * b2n e.injected + b2n e.wire) := reg_setReg_same ..

theorem reg_showEvent_count (hsource : e.source < 128) : (s.showEvent e eff lvl severe false).reg rFLT_CNT_EVENTS = s.reg rFLT_CNT_EVENTS + 1 := by
  unfold State.showEvent
  dsimp only
  rw [reg_setReg_ne _ _ (by decide), reg_setReg_ne _ _ (by dsimp only [rFLT_CNT_EVENTS, rFLT_RAISED]; omega), reg_inc, if_pos rfl]
  rfl

end Shown

/-- The end of an event at level 1 touches FLT_PENDING and the collector's PG_IRQ_STAT alone. -/
theorem reg_pend_ne {s : State} {c n a : Nat} (hpend : a ≠ rFLT_PENDING) (hirq : a ≠ rPG_IRQ_STAT 0x04) :
    ((s.irq 0x04 c).put rFLT_PENDING fFLT_PENDING_pending n).reg a = s.reg a := (reg_setReg_ne _ _ hpend).trans (reg_setReg_ne _ _ hirq)

/-- Settles O52: the collector's parts at level 1, each register read through the parts after it. -/
theorem collectorTakesEvents : Obligations.CollectorTakesEvents := by
  intro s e hsource hmaster htype hon howner c n severe lvl hidle hlevel hreal busy
  have hclass : c ≤ 8 := srcClass_le e.source
  let t := s.countSource e n severe
  have hpending : t.get rFLT_PENDING fFLT_PENDING_pending = s.get rFLT_PENDING fFLT_PENDING_pending :=
    get_congr _ (reg_countSource_ne (by dsimp only [rFLT_PENDING, rFLT_SRC_COUNT]; omega) (by dsimp only [rFLT_PENDING, rFLT_SEVERE]; omega))
  have hescalated : (decide (1 ≤ 1) && (t.get rFLT_PENDING fFLT_PENDING_pending).testBit c) = false := by rw [hpending, hidle, Bool.and_false]
  rw [collectOne_eq hon howner rfl rfl hlevel hescalated (effective_one _ e hreal) busy, react_one, hpending]
  refine ⟨rfl, ?_⟩
  intro u
  have hu {a : Nat} (hpend : a ≠ rFLT_PENDING) (hirq : a ≠ rPG_IRQ_STAT 0x04) :
      u.reg a = ((t.showEvent e 1 1 severe false).recordEvent e 1 severe false).reg a := reg_pend_ne hpend hirq
  have hshown {a : Nat} (hpage : a / 0x1000 = 0x04) (hhead : 0x040 ≤ a % 0x1000) (hpend : a ≠ rFLT_PENDING)
      (hcap : a < rFLT_CAP (srcClass e.source) 0 ∨ rFLT_CAP (srcClass e.source) 7 < a) : u.reg a = (t.showEvent e 1 1 severe false).reg a :=
    (hu hpend (by dsimp only [rPG_IRQ_STAT]; omega)).trans (reg_recordEvent_flt hpage hhead hcap)
  have hcap0 : u.reg (rFLT_CAP c 0) = ((t.showEvent e 1 1 severe false).capture c e).reg (rFLT_CAP c 0) :=
    (hu (by dsimp only [rFLT_CAP, rFLT_PENDING]; omega) (by dsimp only [rFLT_CAP, rPG_IRQ_STAT]; omega)).trans reg_recordEvent_cap
  refine ⟨?count, fun p howns => ?fault, ?raised, ?events, ?last, ?pending, ?valid, fun hheld => ?kept⟩
  case count =>
    have hcount : u.reg (rFLT_SRC_COUNT (e.source / 4)) = t.reg (rFLT_SRC_COUNT (e.source / 4)) :=
      (hshown (by dsimp only [rFLT_SRC_COUNT]; omega) (by dsimp only [rFLT_SRC_COUNT]; omega) (by dsimp only [rFLT_SRC_COUNT, rFLT_PENDING]; omega)
        (by dsimp only [rFLT_SRC_COUNT, rFLT_CAP]; omega)).trans
        (reg_showEvent_ne (by dsimp only [rFLT_SRC_COUNT, rFLT_CNT_ESCALATED]; omega) hsource)
    have hn : n < 2 ^ 8 := by
      change satInc 255 _ < 2 ^ 8
      unfold satInc
      split <;> omega
    change u.srcCount e.source = n
    exact (get_congr _ hcount).trans ((srcCount_countSource hsource).trans (Nat.mod_eq_of_lt hn))
  case fault =>
    exact (flag_congr _ (hu (by dsimp only [rPG_FAULT, rFLT_PENDING]; omega) (by dsimp only [rPG_FAULT, rPG_IRQ_STAT]; omega))).trans
      (flag_recordEvent hsource howns)
  case raised =>
    rw [hshown (by dsimp only [rFLT_RAISED]; omega) (by dsimp only [rFLT_RAISED]; omega) (by dsimp only [rFLT_RAISED, rFLT_PENDING]; omega)
      (by dsimp only [rFLT_RAISED, rFLT_CAP]; omega)]
    exact reg_showEvent_raised
  case events =>
    rw [hshown rfl (by decide) (by decide) (.inl (by dsimp only [rFLT_CNT_EVENTS, rFLT_CAP]; omega)), reg_showEvent_count hsource,
      reg_countSource_ne (by dsimp only [rFLT_CNT_EVENTS, rFLT_SRC_COUNT]; omega) (by dsimp only [rFLT_CNT_EVENTS, rFLT_SEVERE]; omega)]
  case last =>
    rw [hshown rfl (by decide) (by decide) (.inl (by dsimp only [rFLT_LAST, rFLT_CAP]; omega)), reg_showEvent_last, hreal]
    simp [b2n]
  case pending =>
    have hput : u.get rFLT_PENDING fFLT_PENDING_pending = (s.get rFLT_PENDING fFLT_PENDING_pending ||| 2 ^ c) % 2 ^ 9 :=
      get_put_same _ _ _ _ (by decide) (by decide)
    rw [hput, Nat.testBit_mod_two_pow, Nat.testBit_or, Nat.testBit_two_pow_self, Bool.or_true, Bool.and_true]
    exact decide_eq_true (by omega)
  case valid =>
    rw [hcap0]
    exact (reg_capture_head hsource hmaster htype).1
  case kept =>
    have hs : (t.showEvent e 1 1 severe false).reg (rFLT_CAP c 0) = s.reg (rFLT_CAP c 0) :=
      (reg_showEvent_ne (by dsimp only [rFLT_CAP, rFLT_CNT_ESCALATED]; omega) hsource).trans
        (reg_countSource_ne (by dsimp only [rFLT_CAP, rFLT_SRC_COUNT]; omega) (by dsimp only [rFLT_CAP, rFLT_SEVERE]; omega))
    rw [hcap0]
    exact ((reg_capture_head hsource hmaster htype).2 (by rw [hs]; exact hheld)).trans hs

end Sys2Proof.Machine
end

section
/-! PROOF. Turns of Clove channels (R386, R390 to R404): what a pin action, the end of an instruction and a settled channel leave, the first turn of
every instruction, and the turns of a timed shift and of a PAUSE taken to their end. -/
namespace Sys2Proof.Machine

/-! ### What the parts of a turn leave -/

section Parts

variable {s t u : State} {e k : Nat} {w : Word}

/-- The states agree on the registers, and on channel k of engine e but for the levels that its pins are driven to. -/
def DrivesPins (e k : Nat) (s t : State) : Prop := t.regs = s.regs ∧ ∃ pins, t.clv e k = { s.clv e k with pins := pins }

theorem DrivesPins.refl (s : State) : DrivesPins e k s s := ⟨rfl, _, rfl⟩

theorem DrivesPins.trans (h : DrivesPins e k s t) (h' : DrivesPins e k t u) : DrivesPins e k s u := by
  obtain ⟨hregs, pins, hclv⟩ := h
  obtain ⟨hregs', pins', hclv'⟩ := h'
  exact ⟨hregs'.trans hregs, pins', by rw [hclv', hclv]⟩

theorem DrivesPins.reg (h : DrivesPins e k s t) (a : Nat) : t.reg a = s.reg a := reg_congr h.1 a

theorem drivesPins_clvDrive (s : State) (off : Nat) (v : Option Bool) : DrivesPins e k s (s.clvDrive e k off v) := by
  unfold State.clvDrive
  dsimp only
  split
  · exact ⟨rfl, _, clv_setClv ..⟩
  · exact ⟨rfl, _, clv_setClv ..⟩

/-- Pin actions drive pins (R386). -/
theorem drivesPins_clvActions (s : State) : DrivesPins e k s (s.clvActions e k w) := by
  have hfold (l : List Nat) (t : State) (f : State → Nat → State) (hf : ∀ u off, DrivesPins e k u (f u off)) : DrivesPins e k t (l.foldl f t) := by
    induction l generalizing t with
    | nil => exact .refl t
    | cons off l ih => exact (hf t off).trans (ih _)
  refine hfold _ _ _ fun u off => ?_
  dsimp only
  split_ifs
  · exact .refl u
  · exact drivesPins_clvDrive ..
  · exact drivesPins_clvDrive ..
  · exact drivesPins_clvDrive ..
  · exact .refl u

/-- The end of a swap touches the bank register and the interrupt of the engine alone. -/
theorem reg_cloveSwapCheck_ne {a : Nat} (hbank : a ≠ rCLOV_BANK e) (hirq : a ≠ rPG_IRQ_STAT (0xA8 + e)) : (s.cloveSwapCheck e).reg a = s.reg a := by
  unfold State.cloveSwapCheck
  split
  · exact (reg_setReg_ne _ _ hirq).trans (reg_setReg_ne _ _ hbank)
  · rfl

@[simp] theorem clvs_cloveSwapCheck (s : State) : (s.cloveSwapCheck e).clvs = s.clvs := by
  unfold State.cloveSwapCheck
  split <;> rfl

@[simp] theorem clv_cloveSwapCheck (s : State) (e' k' : Nat) : (s.cloveSwapCheck e).clv e' k' = s.clv e' k' := by
  unfold State.clv
  rw [clvs_cloveSwapCheck]

theorem clv_clvStop (s : State) (cause : Nat) : (s.clvStop e k cause).clv e k = { s.clv e k with
    state := 0, cause := cause, instr := none, turn := 0, delay := 0, left := 0, edges := 0, moves := false, bank := s.engineBank e } :=
  (clv_cloveSwapCheck ..).trans (clv_setClv ..)

/-- A channel that is done with its instruction runs, with none latched. -/
theorem clv_clvNext (s : State) : (s.clvNext e k).clv e k = { s.clv e k with
    state := 1, instr := none, turn := 0, delay := 0, left := 0, edges := 0, moves := false,
    pc := if (s.clv e k).moves then s.clvEntry e k else (s.clv e k).pc, bank := if (s.clv e k).moves then s.engineBank e else (s.clv e k).bank } :=
  (clv_cloveSwapCheck ..).trans (clv_setClv ..)

theorem reg_clvNext_ne {a : Nat} (hbank : a ≠ rCLOV_BANK e) (hirq : a ≠ rPG_IRQ_STAT (0xA8 + e)) : (s.clvNext e k).reg a = s.reg a :=
  reg_cloveSwapCheck_ne hbank hirq

/-- An instruction whose own turns are done goes on at its address, its delay taken at once. -/
theorem clvAfter_done (s : State) (w : Word) (pc : Nat) : s.clvAfter e k w (some pc) true =
    (s.setClv e k { s.clv e k with pc := pc, delay := natBits w.toNat 18 12, state := 1, turn := (s.clv e k).turn + 1 }).clvNext e k := rfl

theorem clvAfter_more (hstate : (s.clv e k).state ≠ 0) (fast : Bool) : s.clvAfter e k w none fast =
    s.setClv e k { s.clv e k with turn := (s.clv e k).turn + 1 } := if_neg hstate

theorem clvAfter_idle (hstate : (s.clv e k).state = 0) (fast : Bool) : s.clvAfter e k w none fast = s := if_pos hstate

end Parts

/-! ### Settled channels -/

section Settled

variable {s : State} {e k : Nat} {w : Word} {smp : List Bool}

/-- The channel takes no further turn of its own: it has no instruction latched, or waits with one other than PAUSE. -/
def State.clvRests (s : State) (e k : Nat) : Prop :=
  (s.clv e k).instr = none ∨ ((s.clv e k).state ≠ 1 ∧ ∀ w, (s.clv e k).instr = some w → natBits w.toNat 31 27 ≠ 2)

theorem clvSettle_rests (h : s.clvRests e k) (smp : List Bool) : s.clvSettle e k smp = s := by
  have hskip : s.clvSkip e k = s := by
    unfold State.clvSkip
    dsimp only
    split
    · rename_i w hw
      rcases h with h | ⟨-, h⟩
      · rw [h] at hw; cases hw
      · exact if_neg (by simp [h w hw])
    · rfl
  unfold State.clvSettle
  rw [hskip]
  refine if_pos ?_
  rcases h with h | ⟨h, -⟩ <;> simp [h]

theorem clvRests_done (u : State) (pc : Nat) : (u.clvAfter e k w (some pc) true).clvRests e k := by
  refine .inl ?_
  rw [clvAfter_done, clv_clvNext]

/-- The channel runs with no instruction latched, no injected error is armed, and the word at its pc is w. -/
def State.clvAt (s : State) (e k : Nat) (w : Word) : Prop :=
  (s.clv e k).state = 1 ∧ (s.clv e k).instr = none ∧ s.armed (0xA8 + e) 0 = none ∧ s.prog e (s.clv e k).bank (s.clv e k).pc = w

/-- The channel with the instruction w latched and its pin actions done. -/
def State.clvLatch (s : State) (e k : Nat) (w : Word) : State :=
  (s.setClv e k { s.clv e k with instr := some w, turn := 0, delay := 0 }).clvActions e k w

theorem clv_clvLatch (s : State) (e k : Nat) (w : Word) : DrivesPins e k (s.setClv e k { s.clv e k with instr := some w, turn := 0, delay := 0 })
    (s.clvLatch e k w) := drivesPins_clvActions _

theorem clvTurn_latches (hat : s.clvAt e k w) (hdefined : clvDefined w = true) (smp : List Bool) : s.clvTurn e k smp true =
    ((s.clvLatch e k w).clvOwn e k w 0 smp).2.clvAfter e k w ((s.clvLatch e k w).clvOwn e k w 0 smp).1 true := by
  obtain ⟨hstate, hinstr, harmed, hword⟩ := hat
  have hread : s.progRead e (s.clv e k).bank (s.clv e k).pc = (some w, s) := by
    unfold State.progRead
    rw [harmed, hword]
  unfold State.clvTurn
  dsimp only
  rw [if_neg (by rw [hstate]; decide), hinstr]
  dsimp only
  unfold State.clvFirst
  dsimp only
  rw [hread]
  dsimp only
  rw [hdefined, if_neg (by decide)]
  rfl

/-- A reserved opcode is not executed: the channel stops with an error (R389). -/
theorem clvTurn_reserved (hat : s.clvAt e k w) (hreserved : clvDefined w = false) (smp : List Bool) :
    s.clvTurn e k smp true = s.clvError e k false := by
  obtain ⟨hstate, hinstr, harmed, hword⟩ := hat
  have hread : s.progRead e (s.clv e k).bank (s.clv e k).pc = (some w, s) := by
    unfold State.progRead
    rw [harmed, hword]
  unfold State.clvTurn
  dsimp only
  rw [if_neg (by rw [hstate]; decide), hinstr]
  dsimp only
  unfold State.clvFirst
  dsimp only
  rw [hread]
  dsimp only
  rw [hreserved, if_pos (by decide)]

/-- A channel at an instruction of the row takes its first turn, and then those that follow at once. -/
theorem clvRun_at (hlive : s.clvLive e = true) (hat : s.clvAt e k w) {lo hi : Nat} (hlo : lo ≤ natBits w.toNat 31 27) (hhi : natBits w.toNat 31 27 ≤ hi)
    (smp : List Bool) : s.clvRun e k lo hi smp = (s.clvTurn e k smp true).clvSettle e k smp := by
  obtain ⟨hstate, hinstr, harmed, hword⟩ := hat
  have hopcode : s.clvOpcode e k = natBits w.toNat 31 27 := by rw [State.clvOpcode, hword]
  unfold State.clvRun
  rw [hlive, if_neg (by decide)]
  dsimp only
  rw [clvSettle_rests (.inl hinstr), hopcode, hstate, if_neg]
  simp
  omega

/-- A channel with an instruction latched takes its next own turn. -/
theorem clvTurn_latched (hstate : (s.clv e k).state ≠ 0) (hinstr : (s.clv e k).instr = some w) (hdelay : (s.clv e k).delay = 0) (smp : List Bool)
    (fast : Bool) : s.clvTurn e k smp fast =
      (s.clvOwn e k w (s.clv e k).turn smp).2.clvAfter e k w (s.clvOwn e k w (s.clv e k).turn smp).1 fast := by
  unfold State.clvTurn
  dsimp only
  rw [if_neg hstate, hinstr]
  dsimp only
  rw [hdelay, if_neg (by decide)]

/-- A waiting channel whose turn is its instruction's last goes on. -/
theorem clvResume_done {pc : Nat} {u : State} (hstate : (s.clv e k).state = 2) (hinstr : (s.clv e k).instr = some w) (hdelay : (s.clv e k).delay = 0)
    (hown : s.clvOwn e k w (s.clv e k).turn [] = (some pc, u)) : s.clvResume e k = u.clvAfter e k w (some pc) true := by
  unfold State.clvResume
  rw [clvTurn_latched (by rw [hstate]; decide) hinstr hdelay, hown]
  exact clvSettle_rests (clvRests_done u pc) []

end Settled

end Sys2Proof.Machine
end

section
/-! PROOF. Clove instructions (R386 to R404): the first turn of each, how a command runs one, and the waits that end. That a row acts on its opcode at
the channel's pc, and takes the delay whole, is log entry 47. -/
namespace Sys2Proof.Machine

/-! ### Own turns, opcode by opcode -/

section Own

variable {s u : State} {e k t : Nat} {w : Word} {smp : List Bool}

theorem clvOwn_jump (hop : natBits w.toNat 31 27 = 0x00) : s.clvOwn e k w t smp = (some (w.toNat % 4096 % 1024), s) := if_pos hop

theorem clvOwn_count (hop : natBits w.toNat 31 27 = 0x01) : s.clvOwn e k w t smp =
    (some (if (s.clvCountdown e k (w.toNat % 4096 / 1024)).1 then w.toNat % 4096 % 1024 else ((s.clv e k).pc + 1) % 1024),
      (s.clvCountdown e k (w.toNat % 4096 / 1024)).2) := by
  simp only [State.clvOwn, hop, OfNat.one_ne_ofNat, one_ne_zero, if_true, if_false]

theorem clvOwn_pause (hop : natBits w.toNat 31 27 = 0x02) : s.clvOwn e k w t smp =
    (if max 1 (w.toNat % 4096) ≤ t + 1 then some (((s.clv e k).pc + 1) % 1024) else none, s) := by
  simp only [State.clvOwn, hop, if_true]
  rfl

theorem clvOwn_halt (hop : natBits w.toNat 31 27 = 0x03) : s.clvOwn e k w t smp =
    (none, ((if bitOf w 0 then s.clvRelease e k else s).clvStop e k 1).irq (0xA8 + e) 3) := by
  simp only [State.clvOwn, hop]
  rfl

theorem clvOwn_clocked (hop : natBits w.toNat 31 27 = 0x04 ∨ natBits w.toNat 31 27 = 0x05) (hclock : bitOf w 11 = true) :
    s.clvOwn e k w 0 smp =
      let v := if natBits w.toNat 31 27 = 0x04 then s.clvOut e k w else s
      (none, v.setClv e k { v.clv e k with left := natBits w.toNat 4 0 + 1, edges := 0, state := 2 }) := by
  rcases hop with hop | hop <;> simp only [State.clvOwn, hop, hclock] <;> rfl

/-- One turn of a timed shift: at the first turn of each bit the bit is shifted (R394). -/
theorem clvOwn_timed (hop : natBits w.toNat 31 27 = 0x04 ∨ natBits w.toNat 31 27 = 0x05) (htimed : bitOf w 11 = false) :
    s.clvOwn e k w t smp =
      let h := natBits w.toNat 10 8 + 1
      (if (natBits w.toNat 4 0 + 1) * h ≤ t + 1 then some (((s.clv e k).pc + 1) % 1024) else none,
        if t % h = 0 then s.clvBit e k w (nthD smp (t / h) (s.clvLevel e k (natBits w.toNat 6 5))) else s) := by
  rcases hop with hop | hop <;> simp only [State.clvOwn, hop, htimed] <;> rfl

theorem clvOwn_exch (hop : natBits w.toNat 31 27 = 0x06) : s.clvOwn e k w t smp =
    (some (((s.clv e k).pc + 1) % 1024), s.clvExch e k (w.toNat % 4096 % 8)) := by
  simp only [State.clvOwn, hop]
  rfl

theorem clvOwn_loadc (hop : natBits w.toNat 31 27 = 0x07) : s.clvOwn e k w t smp =
    (some (((s.clv e k).pc + 1) % 1024), s.clvLoad e k (w.toNat % 4096 / 1024) (w.toNat % 4096 % 1024)) := by
  simp only [State.clvOwn, hop]
  rfl

theorem clvOwn_test {cond : Nat} (hop : natBits w.toNat 31 27 = 0x08 + cond) (hcond : cond < 8) : s.clvOwn e k w t smp =
    (some (if s.clvTest e k cond (w.toNat % 4096 / 1024) then w.toNat % 4096 % 1024 else ((s.clv e k).pc + 1) % 1024), s) := by
  interval_cases cond <;> simp only [State.clvOwn, hop] <;> rfl

theorem clvOwn_take (hop : natBits w.toNat 31 27 = 0x10) : s.clvOwn e k w t smp =
    (some (((s.clv e k).pc + 1) % 1024), s.clvTake e k (w.toNat % 4096 % 4)) := by
  simp only [State.clvOwn, hop]
  rfl

theorem clvOwn_give (hop : natBits w.toNat 31 27 = 0x11) : s.clvOwn e k w t smp =
    if s.clvRoom e k then (some (((s.clv e k).pc + 1) % 1024), s.clvGive e k w) else (none, s.clvStalled e k) := by
  simp only [State.clvOwn, hop]
  rfl

theorem clvOwn_match (hop : natBits w.toNat 31 27 = 0x12) : s.clvOwn e k w t smp =
    (some (((s.clv e k).pc + 1) % 1024), s.setClv e k { s.clv e k with matched := s.clvMatch e k (w.toNat % 4096 % 4) }) := by
  simp only [State.clvOwn, hop]
  rfl

theorem clvOwn_edge (hop : natBits w.toNat 31 27 = 0x13) : s.clvOwn e k w 0 smp =
    if bitOf w 4 && s.clvCounter e k = 0 then (some (((s.clv e k).pc + 1) % 1024), s.clvTimeout e k true)
    else (none, (s.clvStalled e k).setClv e k { (s.clvStalled e k).clv e k with edges := 0 }) := by
  simp only [State.clvOwn, hop]
  rfl

theorem clvOwn_signal (hop : natBits w.toNat 31 27 = 0x14) : s.clvOwn e k w t smp =
    (some (((s.clv e k).pc + 1) % 1024),
      let v := s.setReg (rCLOV_EVENT e) (s.reg (rCLOV_EVENT e) ||| toW (2 ^ (w.toNat % 4096 % 16)))
      if bitOf (v.reg (rCLOV_EVENT_EN e)) (w.toNat % 4096 % 16) then v.irq (0xA8 + e) 2 else v) := by
  simp only [State.clvOwn, hop]
  rfl

theorem clvOwn_bankpt (hop : natBits w.toNat 31 27 = 0x15) : s.clvOwn e k w t smp =
    if s.swapPending e && (s.clv e k).bank != s.engineBank e then
      (some (w.toNat % 4096 % 1024), (s.setClv e k { s.clv e k with bank := s.engineBank e, moves := false }).cloveSwapCheck e)
    else (some (((s.clv e k).pc + 1) % 1024), s) := by
  simp only [State.clvOwn, hop]
  rfl

/-- Every other instruction than PAUSE, HALT, a shift, GIVE and EDGE is done with its first turn. -/
theorem clvOwn_single (h2 : natBits w.toNat 31 27 ≠ 0x02) (h3 : natBits w.toNat 31 27 ≠ 0x03) (h4 : natBits w.toNat 31 27 ≠ 0x04)
    (h5 : natBits w.toNat 31 27 ≠ 0x05) (h17 : natBits w.toNat 31 27 ≠ 0x11) (h19 : natBits w.toNat 31 27 ≠ 0x13) :
    s.clvOwn e k w t smp ≠ (none, u) := by
  simp only [State.clvOwn, h2, h3, h4, h5, h17, h19, if_false, decide_false, Bool.or_self, Bool.false_eq_true]
  split_ifs <;> nofun

end Own

/-! ### The first turn's end -/

section First

variable {s u : State} {e k : Nat} {w : Word} {smp : List Bool}

/-- One bit of a shift touches no part of the channel but the levels that it drives. -/
theorem clv_clvBit (s : State) (b : Bool) : ∃ pins, (s.clvBit e k w b).clv e k = { s.clv e k with pins := pins } := by
  unfold State.clvBit
  split
  · exact (drivesPins_clvDrive (s.setClvSo e k _) _ _).2
  · exact ⟨_, rfl⟩

theorem clv_clvOut (s : State) : ∃ pins, (s.clvOut e k w).clv e k = { s.clv e k with pins := pins } := (drivesPins_clvDrive (s.setClvSo e k _) _ _).2

/-- A first turn that leaves the channel neither running nor done leaves it idle, or waiting with its instruction. -/
theorem instr_of_waits (hinstr : (s.clv e k).instr = some w) (hstate : (s.clv e k).state = 1) (hown : s.clvOwn e k w 0 smp = (none, u))
    (hleft : (u.clv e k).state ≠ 1) : (u.clv e k).instr = none ∨ (u.clv e k).instr = some w ∧ natBits w.toNat 31 27 ≠ 2 := by
  by_cases h2 : natBits w.toNat 31 27 = 0x02
  · rw [clvOwn_pause h2] at hown
    cases (Prod.mk.inj hown).2
    exact absurd hstate hleft
  by_cases h3 : natBits w.toNat 31 27 = 0x03
  · rw [clvOwn_halt h3] at hown
    cases (Prod.mk.inj hown).2
    exact .inl (congrArg ClovCh.instr (clv_clvStop ..))
  by_cases hshift : natBits w.toNat 31 27 = 0x04 ∨ natBits w.toNat 31 27 = 0x05
  · cases hclock : bitOf w 11
    · rw [clvOwn_timed hshift hclock] at hown
      cases (Prod.mk.inj hown).2
      simp only [Nat.zero_mod, if_true] at hleft
      obtain ⟨pins, hpins⟩ := clv_clvBit (e := e) (k := k) (w := w) s (nthD smp (0 / (natBits w.toNat 10 8 + 1)) (s.clvLevel e k (natBits w.toNat 6 5)))
      exact absurd ((congrArg ClovCh.state hpins).trans hstate) hleft
    · rw [clvOwn_clocked hshift hclock] at hown
      cases (Prod.mk.inj hown).2
      refine .inr ⟨?_, h2⟩
      rw [clv_setClv]
      split
      · obtain ⟨pins, hpins⟩ := clv_clvOut (e := e) (k := k) (w := w) s
        exact (congrArg ClovCh.instr hpins).trans hinstr
      · exact hinstr
  by_cases h17 : natBits w.toNat 31 27 = 0x11
  · rw [clvOwn_give h17] at hown
    split at hown
    · cases hown
    · cases (Prod.mk.inj hown).2
      exact .inr ⟨(congrArg ClovCh.instr (clv_setClv ..)).trans hinstr, h2⟩
  by_cases h19 : natBits w.toNat 31 27 = 0x13
  · rw [clvOwn_edge h19] at hown
    split at hown
    · cases hown
    · cases (Prod.mk.inj hown).2
      exact .inr ⟨(congrArg ClovCh.instr (clv_setClv ..)).trans ((congrArg ClovCh.instr (clv_setClv ..)).trans hinstr), h2⟩
  exact absurd hown (clvOwn_single h2 h3 (fun h => hshift (.inl h)) (fun h => hshift (.inr h)) h17 h19)

theorem clvRests_of_waits (hinstr : (s.clv e k).instr = some w) (hstate : (s.clv e k).state = 1) (hown : s.clvOwn e k w 0 smp = (none, u))
    (hleft : (u.clv e k).state ≠ 1) : (u.clvAfter e k w none true).clvRests e k := by
  have hrest : ∀ w', (u.clv e k).instr = some w' → (u.clv e k).instr = none ∨ natBits w'.toNat 31 27 ≠ 2 := fun w' hw' =>
    (instr_of_waits hinstr hstate hown hleft).imp id fun hw => by rw [hw.1] at hw'; cases hw'; exact hw.2
  have hnone (h : (u.clv e k).instr ≠ none) : ∀ w', (u.clv e k).instr = some w' → natBits w'.toNat 31 27 ≠ 2 := fun w' hw' =>
    (hrest w' hw').resolve_left h
  unfold State.clvRests
  by_cases hidle : (u.clv e k).state = 0
  · rw [clvAfter_idle hidle]
    exact Classical.or_iff_not_imp_left.2 fun h => ⟨hleft, hnone h⟩
  · rw [clvAfter_more hidle, clv_setClv]
    exact Classical.or_iff_not_imp_left.2 fun h => ⟨hleft, hnone h⟩

/-- The latched channel runs its instruction's first turn. -/
theorem clvLatch_fields (s : State) (w : Word) : ((s.clvLatch e k w).clv e k).instr = some w ∧ ((s.clvLatch e k w).clv e k).state = (s.clv e k).state := by
  obtain ⟨-, pins, hpins⟩ := clv_clvLatch s e k w
  rw [hpins, clv_setClv]
  exact ⟨rfl, rfl⟩

end First

/-! ### The rows of the instructions -/

section Rows

variable {s u : State} {e : Fin 4} {k : Fin 16} {w : Word} {smp : List Bool} {i : Instr} {lo hi : Nat}

/-- The instructions, each with the opcodes on which its row acts. -/
def cloveRows (e : Fin 4) (k : Fin 16) (smp : List Bool) : List (Instr × Nat × Nat) :=
  [(.jump e k, 0x00, 0x00), (.count e k, 0x01, 0x01), (.pause e k, 0x02, 0x02), (.halt e k, 0x03, 0x03), (.shout e k, 0x04, 0x04),
    (.shin e k smp, 0x05, 0x05), (.exch e k, 0x06, 0x06), (.loadc e k, 0x07, 0x07), (.test e k, 0x08, 0x0F), (.take e k, 0x10, 0x10),
    (.give e k, 0x11, 0x11), (.cloveMatch e k, 0x12, 0x12), (.edge e k, 0x13, 0x13), (.signal e k, 0x14, 0x14), (.bankpt e k, 0x15, 0x15)]

theorem exec_cloveRow (hrow : (i, lo, hi) ∈ cloveRows e k smp) (s : State) :
    exec i s = finish s (s.clvRun e k lo hi (if i = .shin e k smp then smp else [])) ∧ hi ≤ 0x15 := by
  simp only [cloveRows, List.mem_cons, List.not_mem_nil, or_false, Prod.mk.injEq] at hrow
  by_cases hshin : i = .shin e k smp
  · subst hshin
    simp only [reduceCtorEq, false_and, false_or, or_false, true_and] at hrow
    obtain ⟨rfl, rfl⟩ := hrow
    rw [if_pos rfl]
    exact ⟨rfl, by decide⟩
  · rw [if_neg hshin]
    rcases hrow with ⟨rfl, rfl, rfl⟩ | ⟨rfl, rfl, rfl⟩ | ⟨rfl, rfl, rfl⟩ | ⟨rfl, rfl, rfl⟩ | ⟨rfl, rfl, rfl⟩ | ⟨rfl, -⟩ | ⟨rfl, rfl, rfl⟩ | ⟨rfl, rfl, rfl⟩ |
      ⟨rfl, rfl, rfl⟩ | ⟨rfl, rfl, rfl⟩ | ⟨rfl, rfl, rfl⟩ | ⟨rfl, rfl, rfl⟩ | ⟨rfl, rfl, rfl⟩ | ⟨rfl, rfl, rfl⟩ | ⟨rfl, rfl, rfl⟩
    case inr.inr.inr.inr.inr.inl => exact absurd rfl hshin
    all_goals exact ⟨rfl, by decide⟩

variable (hlive : s.clvLive e = true) (hat : s.clvAt e k w) (hlo : lo ≤ natBits w.toNat 31 27) (hhi : natBits w.toNat 31 27 ≤ hi)
include hlive hat hlo hhi

theorem clvRun_done {pc : Nat} (hdefined : hi ≤ 0x15) (hown : (s.clvLatch e k w).clvOwn e k w 0 smp = (some pc, u)) :
    s.clvRun e k lo hi smp = u.clvAfter e k w (some pc) true := by
  rw [clvRun_at hlive hat hlo hhi, clvTurn_latches hat (decide_eq_true (hhi.trans hdefined)), hown]
  exact clvSettle_rests (clvRests_done u pc) smp

theorem clvRun_waits (hdefined : hi ≤ 0x15) (hown : (s.clvLatch e k w).clvOwn e k w 0 smp = (none, u)) (hleft : (u.clv e k).state ≠ 1) :
    s.clvRun e k lo hi smp = u.clvAfter e k w none true := by
  obtain ⟨hinstr, hstate⟩ := clvLatch_fields (e := e) (k := k) s w
  have hruns : (s.clv e k).state = 1 := hat.1
  rw [clvRun_at hlive hat hlo hhi, clvTurn_latches hat (decide_eq_true (hhi.trans hdefined)), hown]
  exact clvSettle_rests (clvRests_of_waits hinstr (hstate.trans hruns) hown hleft) smp

end Rows

/-! ### Waits that end -/

section Waits

variable {s u : State} {e k pc : Nat} {w : Word} (hlive : s.clvLive e = true) (hstate : (s.clv e k).state = 2) (hinstr : (s.clv e k).instr = some w)
  (hdelay : (s.clv e k).delay = 0)

include hstate hinstr in
theorem clvWaits_of_latched : s.clvWaits e k = some (natBits w.toNat 31 27) := by
  unfold State.clvWaits
  dsimp only
  rw [if_pos hstate, hinstr]
  rfl

include hlive hstate hinstr hdelay

theorem clvGiveRoom_done (hown : s.clvOwn e k w (s.clv e k).turn [] = (some pc, u)) (hop : natBits w.toNat 31 27 = 0x11) (hroom : s.clvRoom e k = true) :
    s.clvGiveRoom e k = u.clvAfter e k w (some pc) true := by
  unfold State.clvGiveRoom
  rw [if_pos (by simp [hlive, clvWaits_of_latched hstate hinstr, hop, hroom])]
  exact clvResume_done hstate hinstr hdelay hown

/-- An EDGE without a timeout keeps its counter. -/
theorem clvEdgeSeen_done (hown : s.clvOwn e k w (s.clv e k).turn [] = (some pc, u)) (hop : natBits w.toNat 31 27 = 0x13) (hedges : (s.clv e k).edges ≠ 0)
    (hfree : bitOf w 4 = false) (waited : Nat) : s.clvEdgeSeen e k waited = u.clvAfter e k w (some pc) true := by
  unfold State.clvEdgeSeen
  dsimp only
  rw [if_pos (by simp [hlive, clvWaits_of_latched hstate hinstr, hop, hedges]), hinstr, if_neg (by simp [hfree])]
  exact clvResume_done hstate hinstr hdelay hown

theorem clvEdgeTimeout_done (hown : (s.setClvCounter e k 1).clvOwn e k w (s.clv e k).turn [] = (some pc, u)) (hop : natBits w.toNat 31 27 = 0x13)
    (hedges : (s.clv e k).edges = 0) (htimed : bitOf w 4 = true) : s.clvEdgeTimeout e k = u.clvAfter e k w (some pc) true := by
  unfold State.clvEdgeTimeout
  dsimp only
  rw [if_pos (by simp [hlive, clvWaits_of_latched hstate hinstr, hop, hedges, hinstr, htimed])]
  exact clvResume_done hstate hinstr hdelay hown

theorem clvShiftDone_done (hown : s.clvOwn e k w (s.clv e k).turn [] = (some pc, u)) (hop : natBits w.toNat 31 27 = 0x04 ∨ natBits w.toNat 31 27 = 0x05)
    (hedges : (s.clv e k).edges ≠ 0) : s.clvShiftDone e k = u.clvAfter e k w (some pc) true := by
  unfold State.clvShiftDone
  dsimp only
  rw [if_pos (by simpa [hlive, clvWaits_of_latched hstate hinstr, hedges] using hop)]
  exact clvResume_done hstate hinstr hdelay hown

end Waits

/-! ### Reserved opcodes -/

/-- The opcode of a word has 5 bits. -/
theorem opcode_lt (w : Word) : natBits w.toNat 31 27 < 32 := Nat.mod_lt _ (by decide)

theorem clvReserved_stops {s : State} {e k : Nat} {w : Word} (hlive : s.clvLive e = true) (hat : s.clvAt e k w) (hop : 0x16 ≤ natBits w.toNat 31 27) :
    s.clvReserved e k = (((s.clvStop e k 3).inc (rCLOV_CNT_ERROR e)).irq (0xA8 + e) 4).cloveFault e := by
  have harmed : s.armed (0xA8 + e) 0 = none := hat.2.2.1
  have hreserved : clvDefined w = false := decide_eq_false (by omega)
  have hhi : natBits w.toNat 31 27 ≤ 0x1F := Nat.le_of_lt_succ (opcode_lt w)
  have hidle : ((s.clvError e k false).clv e k).instr = none := congrArg ClovCh.instr (clv_clvStop s 3)
  unfold State.clvReserved
  rw [harmed, if_neg (by decide), clvRun_at hlive hat hop hhi, clvTurn_reserved hat hreserved]
  exact clvSettle_rests (.inl hidle) []

/-! ### What the instructions change -/

section Changes

variable {s : State} {e k : Nat} {w : Word}

theorem clvCountdown_counter : s.clvCountdown e k 0 = ((s.clvCounter e k + 65535) % 65536 != 0, s.setClvCounter e k ((s.clvCounter e k + 65535) % 65536)) := by
  unfold State.clvCountdown
  simp

/-- The test of the counter for 0, not negated (R398). -/
theorem clvTest_zero : s.clvTest e k 4 0 = decide (s.clvCounter e k = 0) := by
  unfold State.clvTest
  simp

theorem clvTake_counter {i : Nat × Bool} {l : List (Nat × Bool)} (htxq : (s.clv e k).txq = i :: l) : s.clvTake e k 1 =
    ((s.setClv e k { s.clv e k with txq := l, idle := false, ended := i.2 }).setClvCounter e k i.1).clvRefill 16 e k := by
  unfold State.clvTake
  simp only [htxq]
  rfl

theorem clvGive_si (hsrc : natBits w.toNat 1 0 = 0) (hkeep : bitOf w 8 = false) : s.clvGive e k w =
    s.fqProduce e (16 + k) ((s.clvSi e k).toNat / 2 ^ natBits w.toNat 7 3 % 2 ^ (8 * s.fqWidth e (16 + k))) (bitOf w 2) := by
  unfold State.clvGive
  simp only [hsrc, hkeep]
  rfl

end Changes

/-! ### The statement -/

/-- The low bits of a word's argument. -/
theorem natBits_low2 (n : Nat) : natBits n 1 0 = n % 4096 % 4 := by
  unfold natBits
  rw [Nat.shiftRight_zero]
  omega

/-- Settles O45: a row runs the first turn of its opcode; a wait that ends takes the next one; and the first turn of each opcode by its own rule. That
a row acts only on its opcode at pc, takes the delay whole and times an EDGE out as it does is log entry 47. -/
theorem cloveInstructionsExecute : Obligations.CloveInstructionsExecute := by
  refine ⟨fun s e k smp hlive => ⟨fun i lo hi w hrow hstate hinstr harmed hword hlo hhi => ?rows, fun w hstate hinstr hdelay pc u hown => ?waits,
    fun w hstate hinstr hdelay hop hedges htimed pc u hown => ?timeout, fun hstate hinstr harmed hop => ?reserved⟩, fun s e k w smp => ?first⟩
  case rows =>
    obtain ⟨hexec, hdefined⟩ := exec_cloveRow hrow s
    have hat : s.clvAt e k w := ⟨hstate, hinstr, harmed, hword⟩
    exact ⟨fun pc u hown => hexec.trans (congrArg (finish s) (clvRun_done hlive hat hlo hhi hdefined hown)),
      fun u hown hleft => hexec.trans (congrArg (finish s) (clvRun_waits hlive hat hlo hhi hdefined hown hleft))⟩
  case waits =>
    exact ⟨fun hop hroom => congrArg (finish s) (clvGiveRoom_done hlive hstate hinstr hdelay hown hop hroom),
      fun hop hedges hfree waited => congrArg (finish s) (clvEdgeSeen_done hlive hstate hinstr hdelay hown hop hedges hfree waited),
      fun hop hedges => congrArg (finish s) (clvShiftDone_done hlive hstate hinstr hdelay hown hop hedges)⟩
  case timeout => exact congrArg (finish s) (clvEdgeTimeout_done hlive hstate hinstr hdelay hown hop hedges htimed)
  case reserved => exact congrArg (finish s) (clvReserved_stops hlive ⟨hstate, hinstr, harmed, rfl⟩ hop)
  case first =>
    intro x arg next target
    refine ⟨clvOwn_jump, fun hop hreg => ?_, fun hop harg => ?_, fun hop hkeep => ?_, fun hop hclock => ?_, fun hop hcode => ?_, fun hop hdest => ?_,
      fun hop => ?_, fun hop hmode => ?_, fun hop hdest i l htxq => ?_, fun hop hfull => ?_, fun hop hroom hsrc hclear => ?_, fun hop hmode => ?_,
      fun hop htimeout => ?_, fun hop hquiet => ?_, fun hop hpending => ?_⟩
    · rw [clvOwn_count hop, hreg]
      rw [clvCountdown_counter]
      simp only [bne_iff_ne]
      rfl
    · exact (clvOwn_pause hop).trans (by rw [if_pos (by omega)])
    · rw [clvOwn_halt hop, hkeep]
      rfl
    · exact (clvOwn_clocked (.inr hop) hclock).trans (by rw [hop]; rfl)
    · rw [clvOwn_exch hop, hcode]
      rfl
    · rw [clvOwn_loadc hop, hdest]
      rfl
    · exact clvOwn_test (cond := 0) hop (by decide)
    · rw [clvOwn_test (cond := 4) hop (by decide), hmode]
      rw [clvTest_zero]
      simp only [decide_eq_true_eq]
      rfl
    · rw [clvOwn_take hop, hdest, clvTake_counter htxq]
    · rw [clvOwn_give hop, hfull]
      rfl
    · rw [clvOwn_give hop, if_pos hroom, clvGive_si ((natBits_low2 _).trans hsrc) hclear]
    · rw [clvOwn_match hop, hmode]
      rfl
    · rw [clvOwn_edge hop, htimeout]
      rfl
    · rw [clvOwn_signal hop]
      dsimp only
      rw [reg_setReg_ne _ _ (by dsimp only [rCLOV_EVENT, rCLOV_EVENT_EN]; omega), hquiet]
      rfl
    · rw [clvOwn_bankpt hop, hpending]
      rfl

end Sys2Proof.Machine
end

section
/-! PROOF. Timed Clove instructions taken to their end (R390, R394): the bits of a shift that a number of turns has shifted, by induction on the turns
that are left, and the last turn of a PAUSE. That an instruction is taken whole is log entry 47. -/
namespace Sys2Proof.Machine

/-! ### One bit of a shift -/

section Bits

variable {s : State} {e k : Nat} {w : Word}

/-- The shift registers of the channel hold these words. -/
def State.shiftRegs (s : State) (e k : Nat) (r : Word × Word) : Prop := s.clvSo e k = r.1 ∧ s.clvSi e k = r.2

theorem shiftRegs_congr {t : State} {r : Word × Word} (h : s.shiftRegs e k r) (ht : t.regs = s.regs) : t.shiftRegs e k r :=
  ⟨(reg_congr ht _).trans h.1, (reg_congr ht _).trans h.2⟩

theorem clvSo_ne_clvSi : rCLOV_CH_SI e k ≠ rCLOV_CH_SO e k := by
  dsimp only [rCLOV_CH_SI, rCLOV_CH_SO]
  omega

/-- The shift registers after a bit of a SHOUT, or of a SHIN that samples b. -/
def shiftBit (w : Word) (r : Word × Word) (b : Bool) : Word × Word :=
  if natBits w.toNat 31 27 = 4 then (if bitOf w 7 then r.1 >>> 1 else r.1 <<< 1, r.2)
  else (r.1, if bitOf w 7 then r.2 >>> 1 ||| toW (b2n b * 2 ^ 31) else r.2 <<< 1 ||| toW (b2n b))

theorem shiftRegs_clvBit {r : Word × Word} (h : s.shiftRegs e k r) (b : Bool) : (s.clvBit e k w b).shiftRegs e k (shiftBit w r b) := by
  obtain ⟨hso, hsi⟩ := h
  unfold State.clvBit shiftBit
  split
  · have hdrives := drivesPins_clvDrive (e := e) (k := k) (s.setClvSo e k (if bitOf w 7 then s.clvSo e k >>> 1 else s.clvSo e k <<< 1))
      (natBits w.toNat 6 5) (some (bitOf (s.clvSo e k) (if bitOf w 7 then 0 else 31)))
    refine ⟨(hdrives.reg _).trans ?_, (hdrives.reg _).trans ?_⟩
    · rw [State.setClvSo, reg_setReg_same, hso]
    · exact (reg_setReg_ne _ _ clvSo_ne_clvSi).trans hsi
  · refine ⟨(reg_setReg_ne _ _ clvSo_ne_clvSi.symm).trans hso, ?_⟩
    unfold State.clvIn State.clvSi
    rw [State.setClvSi, reg_setReg_same]
    rw [State.clvSi] at hsi
    rw [hsi]

end Bits

/-! ### The turns of a shift -/

section Shift

variable {s : State} {e k : Nat} {w : Word} {smp : List Bool}

/-- The channel c, but for its pins, with t turns of w taken. -/
def State.shifting (s : State) (e k : Nat) (c : ClovCh) (w : Word) (t : Nat) (r : Word × Word) : Prop :=
  (∃ pins, s.clv e k = { c with state := 1, instr := some w, turn := t, delay := 0, moves := false, pins := pins }) ∧ s.shiftRegs e k r

/-- The channel runs at the address after c's, with no instruction latched. -/
def State.shifted (s : State) (e k : Nat) (c : ClovCh) (r : Word × Word) : Prop :=
  (s.clv e k).state = 1 ∧ (s.clv e k).instr = none ∧ (s.clv e k).pc = (c.pc + 1) % 1024 ∧ s.shiftRegs e k r

theorem shiftRegs_clvAfter_done {r : Word × Word} (h : s.shiftRegs e k r) (pc : Nat) : (s.clvAfter e k w (some pc) true).shiftRegs e k r := by
  obtain ⟨hso, hsi⟩ := h
  rw [clvAfter_done]
  refine ⟨(reg_clvNext_ne ?_ ?_).trans hso, (reg_clvNext_ne ?_ ?_).trans hsi⟩
  all_goals dsimp only [rCLOV_CH_SO, rCLOV_CH_SI, rCLOV_BANK, rPG_IRQ_STAT]; omega

/-- An instruction that is done leaves its channel at the address it goes to. -/
theorem clv_clvAfter_done (s : State) {pc : Nat} (hmoves : (s.clv e k).moves = false) :
    ((s.clvAfter e k w (some pc) true).clv e k).state = 1 ∧ ((s.clvAfter e k w (some pc) true).clv e k).instr = none ∧
    ((s.clvAfter e k w (some pc) true).clv e k).pc = pc := by
  rw [clvAfter_done, clv_clvNext, clv_setClv]
  dsimp only
  rw [hmoves]
  exact ⟨rfl, rfl, rfl⟩

/-- The channel that latches w has taken no turn of it. -/
theorem shifting_clvLatch (hstate : (s.clv e k).state = 1) (hmoves : (s.clv e k).moves = false) :
    (s.clvLatch e k w).shifting e k (s.clv e k) w 0 (s.clvSo e k, s.clvSi e k) := by
  obtain ⟨hregs, pins, hpins⟩ := clv_clvLatch s e k w
  rw [clv_setClv] at hpins
  refine ⟨⟨pins, hpins.trans ?_⟩, shiftRegs_congr (s := s) ⟨rfl, rfl⟩ hregs⟩
  rw [← hstate, ← hmoves]

/-- One own turn of w, and what follows it at once. -/
def State.clvOwnTurn (s : State) (e k : Nat) (w : Word) (t : Nat) (smp : List Bool) : State :=
  (s.clvOwn e k w t smp).2.clvAfter e k w (s.clvOwn e k w t smp).1 true

/-- A turn that is not the last counts, one that is goes on at the next address. -/
theorem shifting_next {c : ClovCh} {t : Nat} {r : Word × Word} (h : s.shifting e k c w t r) :
    (s.clvAfter e k w none true).shifting e k c w (t + 1) r ∧ (s.clvAfter e k w (some ((c.pc + 1) % 1024)) true).shifted e k c r := by
  obtain ⟨⟨pins, hclv⟩, hregs⟩ := h
  refine ⟨⟨⟨pins, ?_⟩, ?_⟩, ?_⟩
  · rw [clvAfter_more (by rw [hclv]; exact Nat.one_ne_zero), clv_setClv, hclv]
  · rw [clvAfter_more (by rw [hclv]; exact Nat.one_ne_zero)]
    exact hregs
  · obtain ⟨hstate, hinstr, hpc⟩ := clv_clvAfter_done (w := w) s (pc := (c.pc + 1) % 1024) (congrArg ClovCh.moves hclv)
    exact ⟨hstate, hinstr, hpc, shiftRegs_clvAfter_done hregs _⟩

/-- The bits that have been shifted after t turns of h each. -/
def bitsAt (h t : Nat) : Nat := (t + h - 1) / h

theorem bitsAt_succ {h t : Nat} (hh : 0 < h) : bitsAt h (t + 1) = if t % h = 0 then t / h + 1 else bitsAt h t := by
  have hnext : bitsAt h (t + 1) = t / h + 1 := by
    unfold bitsAt
    rw [show t + 1 + h - 1 = t + h by omega, Nat.add_div_right _ hh]
  split
  · exact hnext
  · rename_i hm
    obtain ⟨u, rfl⟩ : ∃ u, t = u + 1 := Nat.exists_eq_succ_of_ne_zero fun ht => hm (by rw [ht, Nat.zero_mod])
    rw [hnext, bitsAt, show u + 1 + h - 1 = u + h by omega, Nat.add_div_right _ hh, Nat.succ_div_of_not_dvd fun hd => hm (Nat.mod_eq_zero_of_dvd hd)]

theorem bitsAt_start {h t : Nat} (hh : 0 < h) (ht : t % h = 0) : bitsAt h t = t / h := by
  obtain ⟨q, rfl⟩ := Nat.dvd_of_mod_eq_zero ht
  unfold bitsAt
  rw [Nat.add_sub_assoc hh, Nat.mul_add_div hh, Nat.div_eq_of_lt (by omega : h - 1 < h), Nat.mul_div_cancel_left _ hh, Nat.add_zero]

theorem bitsAt_end {h : Nat} (hh : 0 < h) (n : Nat) : bitsAt h (n * h) = n := by
  rw [bitsAt_start hh (Nat.mul_mod_left n h), Nat.mul_div_cancel _ hh]

end Shift

/-! ### A timed shift as a whole -/

section Whole

variable {s : State} {e k : Nat} {w : Word} {smp bits : List Bool} {c : ClovCh} {r : Word × Word} {t : Nat}

/-- w is a timed SHOUT or SHIN of as many bits as the list holds, and shifts them whatever its pins show. -/
structure TimedShift (w : Word) (smp bits : List Bool) : Prop where
  op : natBits w.toNat 31 27 = 0x04 ∨ natBits w.toNat 31 27 = 0x05
  timed : bitOf w 11 = false
  length : bits.length = natBits w.toNat 4 0 + 1
  bit : ∀ (j : Nat) (hj : j < bits.length) (r : Word × Word) (d : Bool), shiftBit w r (nthD smp j d) = shiftBit w r bits[j]

/-- The turns of a timed shift. -/
def shiftLength (w : Word) : Nat := (natBits w.toNat 4 0 + 1) * (natBits w.toNat 10 8 + 1)

theorem shiftLength_le (w : Word) : 0 < shiftLength w ∧ shiftLength w ≤ 256 := by
  have hn : natBits w.toNat 4 0 < 32 := Nat.mod_lt _ (by decide)
  have hh : natBits w.toNat 10 8 < 8 := Nat.mod_lt _ (by decide)
  exact ⟨Nat.mul_pos (Nat.succ_pos _) (Nat.succ_pos _), Nat.mul_le_mul (by omega : _ ≤ 32) (by omega : _ ≤ 8)⟩

/-- The shift registers with the first j bits shifted. -/
def shiftedBits (w : Word) (bits : List Bool) (r : Word × Word) (j : Nat) : Word × Word := (bits.take j).foldl (shiftBit w) r

theorem shiftedBits_succ {j : Nat} (hj : j < bits.length) : shiftedBits w bits r (j + 1) = shiftBit w (shiftedBits w bits r j) bits[j] := by
  unfold shiftedBits
  rw [List.take_add_one, List.getElem?_eq_getElem hj, List.foldl_append]
  rfl

/-- A turn of a timed shift. -/
theorem clvOwnTurn_shift (hw : TimedShift w smp bits) (ht : t < shiftLength w)
    (hs : s.shifting e k c w t (shiftedBits w bits r (bitsAt (natBits w.toNat 10 8 + 1) t))) :
    if t + 1 < shiftLength w then (s.clvOwnTurn e k w t smp).shifting e k c w (t + 1) (shiftedBits w bits r (bitsAt (natBits w.toNat 10 8 + 1) (t + 1)))
    else (s.clvOwnTurn e k w t smp).shifted e k c (bits.foldl (shiftBit w) r) := by
  have hh : 0 < natBits w.toNat 10 8 + 1 := Nat.succ_pos _
  have hpc : (s.clv e k).pc = c.pc := by
    obtain ⟨⟨pins, hclv⟩, -⟩ := hs
    rw [hclv]
  let b := nthD smp (t / (natBits w.toNat 10 8 + 1)) (s.clvLevel e k (natBits w.toNat 6 5))
  let v := if t % (natBits w.toNat 10 8 + 1) = 0 then s.clvBit e k w b else s
  have hv : v.shifting e k c w t (shiftedBits w bits r (bitsAt (natBits w.toNat 10 8 + 1) (t + 1))) := by
    rw [bitsAt_succ hh]
    by_cases hm : t % (natBits w.toNat 10 8 + 1) = 0
    · obtain ⟨⟨pins, hclv⟩, hregs⟩ := hs
      obtain ⟨pins', hclv'⟩ := clv_clvBit (e := e) (k := k) (w := w) s b
      have hj : t / (natBits w.toNat 10 8 + 1) < bits.length := by
        rw [hw.length]
        exact Nat.div_lt_of_lt_mul (by rwa [Nat.mul_comm])
      rw [bitsAt_start hh hm] at hregs
      have hbit := shiftRegs_clvBit (w := w) hregs b
      rw [hw.bit _ hj, ← shiftedBits_succ hj] at hbit
      simp only [v, hm, if_true]
      exact ⟨⟨pins', hclv'.trans (by rw [hclv])⟩, hbit⟩
    · simpa only [v, hm, if_false] using hs
  obtain ⟨hmore, hdone⟩ := shifting_next hv
  have hown : s.clvOwn e k w t smp = (if shiftLength w ≤ t + 1 then some ((c.pc + 1) % 1024) else none, v) := by
    rw [clvOwn_timed hw.op hw.timed, hpc]
    rfl
  unfold State.clvOwnTurn
  rw [hown]
  split
  · rename_i hlt
    rw [if_neg (Nat.not_le.2 hlt)]
    exact hmore
  · rename_i hge
    have hlast : t + 1 = shiftLength w := by omega
    rw [hlast, shiftLength, bitsAt_end hh, ← hw.length, shiftedBits, List.take_length] at hdone
    rw [if_pos (Nat.not_lt.1 hge)]
    exact hdone

theorem clvFinish_shifted (h : s.shifted e k c r) (m : Nat) (smp : List Bool) : s.clvFinish m e k smp = s := by
  obtain ⟨-, hinstr, -⟩ := h
  cases m with
  | zero => rfl
  | succ m => exact if_pos (by simp [hinstr])

theorem clvFinish_shift (hw : TimedShift w smp bits) (m : Nat) (hm : shiftLength w ≤ t + m) (ht : t < shiftLength w)
    (hs : s.shifting e k c w t (shiftedBits w bits r (bitsAt (natBits w.toNat 10 8 + 1) t))) :
    (s.clvFinish m e k smp).shifted e k c (bits.foldl (shiftBit w) r) := by
  induction m generalizing s t with
  | zero => omega
  | succ m ih =>
    have hturn := clvOwnTurn_shift hw ht hs
    obtain ⟨⟨pins, hclv⟩, -⟩ := hs
    have hnext : s.clvTurn e k smp true = s.clvOwnTurn e k w t smp := by
      rw [clvTurn_latched (w := w) (by rw [hclv]; exact Nat.one_ne_zero) (by rw [hclv]) (by rw [hclv]), hclv]
      rfl
    have hfinish : s.clvFinish (m + 1) e k smp = (s.clvOwnTurn e k w t smp).clvFinish m e k smp := by
      rw [← hnext]
      exact if_neg (by simp [hclv])
    rw [hfinish]
    split at hturn
    · rename_i hlt
      exact ih (by omega) hlt hturn
    · rw [clvFinish_shifted hturn]
      exact hturn

/-- A running channel at a timed shift runs on at the next address with its bits shifted (R394). -/
theorem clvRun_shift (hlive : s.clvLive e = true) (hat : s.clvAt e k w) (hmoves : (s.clv e k).moves = false) (hw : TimedShift w smp bits) {lo : Nat}
    (hlo : natBits w.toNat 31 27 = lo) : (s.clvRun e k lo lo smp).shifted e k (s.clv e k) (bits.foldl (shiftBit w) (s.clvSo e k, s.clvSi e k)) := by
  have hstate : (s.clv e k).state = 1 := hat.1
  have hdefined : clvDefined w = true := decide_eq_true (by rcases hw.op with h | h <;> omega)
  obtain ⟨hpos, hle⟩ := shiftLength_le w
  have hzero : bitsAt (natBits w.toNat 10 8 + 1) 0 = 0 := bitsAt_start (Nat.succ_pos _) (Nat.zero_mod _) |>.trans (Nat.zero_div _)
  have hfirst := clvOwnTurn_shift (r := (s.clvSo e k, s.clvSi e k)) hw hpos (by rw [hzero]; exact shifting_clvLatch hstate hmoves)
  rw [clvRun_at hlive hat hlo.ge hlo.le, clvTurn_latches hat hdefined]
  change (((s.clvLatch e k w).clvOwnTurn e k w 0 smp).clvSettle e k smp).shifted e k _ _
  split at hfirst
  · rename_i hlt
    have hskip : ((s.clvLatch e k w).clvOwnTurn e k w 0 smp).clvSkip e k = (s.clvLatch e k w).clvOwnTurn e k w 0 smp := by
      obtain ⟨⟨pins, hclv⟩, -⟩ := hfirst
      unfold State.clvSkip
      rw [hclv]
      exact if_neg (by rcases hw.op with h | h <;> simp [h])
    unfold State.clvSettle
    rw [hskip]
    exact clvFinish_shift hw 260 (by omega) hlt hfirst
  · rw [clvSettle_rests (.inl hfirst.2.1)]
    exact hfirst

end Whole

/-! ### The two shifts, and PAUSE -/

section Instructions

variable {w : Word}

theorem shiftBit_shout (hop : natBits w.toNat 31 27 = 0x04) (r : Word × Word) (b : Bool) :
    shiftBit w r b = (if bitOf w 7 then r.1 >>> 1 else r.1 <<< 1, r.2) := if_pos hop

theorem shiftBit_shin (hop : natBits w.toNat 31 27 = 0x05) (r : Word × Word) (b : Bool) :
    shiftBit w r b = (r.1, if bitOf w 7 then r.2 >>> 1 ||| toW (b2n b * 2 ^ 31) else r.2 <<< 1 ||| toW (b2n b)) := if_neg (by omega)

/-- A SHOUT sends its bits whatever they are sampled as. -/
theorem timedShift_shout (hop : natBits w.toNat 31 27 = 0x04) (htimed : bitOf w 11 = false) :
    TimedShift w [] (List.replicate (natBits w.toNat 4 0 + 1) false) where
  op := .inl hop
  timed := htimed
  length := List.length_replicate
  bit _ _ r _ := by rw [shiftBit_shout hop, shiftBit_shout hop]

theorem timedShift_shin (hop : natBits w.toNat 31 27 = 0x05) (htimed : bitOf w 11 = false) {smp : List Bool} (hlen : smp.length = natBits w.toNat 4 0 + 1) :
    TimedShift w smp smp where
  op := .inr hop
  timed := htimed
  length := hlen
  bit j hj r d := by rw [nthD, List.getElem?_eq_getElem hj, Option.getD_some]

theorem foldl_shout (hop : natBits w.toNat 31 27 = 0x04) (r : Word × Word) (n : Nat) :
    (List.replicate n false).foldl (shiftBit w) r = (if bitOf w 7 then r.1 >>> n else r.1 <<< n, r.2) := by
  induction n generalizing r with
  | zero => simp
  | succ n ih =>
    rw [List.replicate_succ, List.foldl_cons, shiftBit_shout hop, ih]
    split
    · rw [← BitVec.shiftRight_add, Nat.add_comm]
    · rw [← BitVec.shiftLeft_add, Nat.add_comm]

theorem foldl_shin (hop : natBits w.toNat 31 27 = 0x05) (r : Word × Word) (l : List Bool) : l.foldl (shiftBit w) r =
    (r.1, l.foldl (fun (si : Word) b => if bitOf w 7 then si >>> 1 ||| toW (b2n b * 2 ^ 31) else si <<< 1 ||| toW (b2n b)) r.2) := by
  induction l generalizing r with
  | nil => rfl
  | cons b l ih => rw [List.foldl_cons, shiftBit_shin hop, ih, List.foldl_cons]

/-- A PAUSE runs on at the next address, its turns taken at once. -/
theorem clvRun_pause {s : State} {e k : Nat} (hlive : s.clvLive e = true) (hat : s.clvAt e k w) (hmoves : (s.clv e k).moves = false)
    (hop : natBits w.toNat 31 27 = 0x02) : (s.clvRun e k 2 2 []).shifted e k (s.clv e k) (s.clvSo e k, s.clvSi e k) := by
  have hstate : (s.clv e k).state = 1 := hat.1
  have hdefined : clvDefined w = true := decide_eq_true (by omega)
  have hown {u : State} {t : Nat} (hu : u.shifting e k (s.clv e k) w t (s.clvSo e k, s.clvSi e k)) : u.clvOwn e k w t [] =
      (if max 1 (w.toNat % 4096) ≤ t + 1 then some (((s.clv e k).pc + 1) % 1024) else none, u) := by
    obtain ⟨⟨pins, hclv⟩, -⟩ := hu
    rw [clvOwn_pause hop, hclv]
  have hlatch := shifting_clvLatch (w := w) hstate hmoves
  obtain ⟨hmore, hdone⟩ := shifting_next hlatch
  rw [clvRun_at hlive hat hop.ge hop.le, clvTurn_latches hat hdefined, hown hlatch]
  by_cases hone : max 1 (w.toNat % 4096) ≤ 0 + 1
  · rw [if_pos hone, clvSettle_rests (.inl hdone.2.1)]
    exact hdone
  · rw [if_neg hone]
    dsimp only
    let v := (s.clvLatch e k w).clvAfter e k w none true
    obtain ⟨⟨pins, hclv⟩, hregs⟩ := hmore
    have hskip : v.clvSkip e k = v.setClv e k { v.clv e k with turn := max (v.clv e k).turn (w.toNat % 4096 - 1) } := by
      unfold State.clvSkip
      dsimp only [v]
      rw [hclv]
      exact if_pos (by simp [hop])
    have hlast : (v.clvSkip e k).shifting e k (s.clv e k) w (w.toNat % 4096 - 1) (s.clvSo e k, s.clvSi e k) := by
      rw [hskip]
      refine ⟨⟨pins, ?_⟩, hregs⟩
      have hturns : max (0 + 1) (w.toNat % 4096 - 1) = w.toNat % 4096 - 1 := by omega
      rw [clv_setClv, hclv]
      dsimp only
      rw [hturns]
    have hend : max 1 (w.toNat % 4096) ≤ w.toNat % 4096 - 1 + 1 := by omega
    have hturn : (v.clvSkip e k).clvTurn e k [] true = (v.clvSkip e k).clvAfter e k w (some (((s.clv e k).pc + 1) % 1024)) true := by
      have hown' := hown hlast
      obtain ⟨⟨pins', hclv'⟩, -⟩ := hlast
      rw [if_pos hend] at hown'
      rw [clvTurn_latched (w := w) (by rw [hclv']; exact Nat.one_ne_zero) (by rw [hclv']) (by rw [hclv']), hclv']
      dsimp only
      rw [hown']
    have hsettle : v.clvSettle e k [] = ((v.clvSkip e k).clvAfter e k w (some (((s.clv e k).pc + 1) % 1024)) true).clvFinish 259 e k [] := by
      rw [← hturn]
      obtain ⟨⟨pins', hclv'⟩, -⟩ := hlast
      exact if_neg (by simp [hclv'])
    obtain ⟨-, hrun⟩ := shifting_next hlast
    rw [hsettle, clvFinish_shifted hrun]
    exact hrun

end Instructions

/-- Settles O46: a shift turn by turn, then its bits as one shift of SO or one fold over the samples; and a PAUSE to its last turn. -/
theorem timedInstructionsComplete : Obligations.TimedInstructionsComplete := by
  intro s e k w x n hlive hstate hinstr harmed hword hmoves
  have hat : s.clvAt e k w := ⟨hstate, hinstr, harmed, hword⟩
  refine ⟨fun hop htimed => ⟨_, rfl, ?_⟩, fun hop htimed smp hlen => ⟨_, rfl, ?_⟩, fun hop => ⟨_, rfl, ?_⟩⟩
  · obtain ⟨hrun, -, hpc, hso, hsi⟩ := clvRun_shift hlive hat hmoves (timedShift_shout hop htimed) hop
    rw [foldl_shout hop] at hso hsi
    exact ⟨hrun, hpc, hsi, hso⟩
  · obtain ⟨hrun, -, hpc, hso, hsi⟩ := clvRun_shift hlive hat hmoves (timedShift_shin hop htimed hlen) hop
    rw [foldl_shin hop] at hso hsi
    exact ⟨hrun, hpc, hso, hsi⟩
  · obtain ⟨hrun, -, hpc, hso, hsi⟩ := clvRun_pause hlive hat hmoves hop
    exact ⟨hrun, hpc, hsi, hso⟩

end Sys2Proof.Machine
end

section
/-! PROOF. O47: the commands of a Clove page (R382, R409 to R412, R415) and the queue mover (R406 to R408). -/
namespace Sys2Proof.Machine

/-! ### Fields of one bit, and a fold at which one channel acts -/

section Bits

variable {s : State} {a : Nat} {f : Fld}

/-- A flag that is set reads 1. -/
theorem get_of_flag (hbit : f.hi = f.lo) (h : s.flag a f = true) : s.get a f = 1 := by
  have hlt : s.get a f < 2 := (fldOf_lt (s.reg a) f).trans_eq (by rw [hbit, Nat.add_sub_cancel_left, pow_one])
  have hne : s.get a f ≠ 0 := by simpa [State.flag] using h
  omega

/-- A flag that is clear reads 0. -/
theorem get_of_not_flag (h : s.flag a f = false) : s.get a f = 0 := by simpa [State.flag] using h

/-- A write that names one channel acts on that channel alone. -/
theorem foldl_named_channel {act : State → Nat → State} {v : Word} {k : Fin 16} (hv : v = toW (2 ^ k.val)) (s : State)
    (hskip : ∀ t j, bitOf v j = false → act t j = t) : (List.range 16).foldl act s = act s k := by
  refine foldl_eq_of_unique (List.mem_range.2 k.isLt) List.nodup_range (fun t j _ hj => hskip t j ?_) s
  rw [hv, bitOf_two_pow (by omega)]
  exact decide_eq_false hj

theorem bitOf_named (k : Fin 16) : bitOf (toW (2 ^ k.val)) k = true := by
  rw [bitOf_two_pow (by omega), decide_eq_true rfl]

end Bits

/-! ### Start, stop and step -/

section Channels

variable {s : State} {e : Nat} {k : Fin 16}

theorem clovStartFx_named : clovStartFx e (toW (2 ^ k.val)) s = s.clvStart e k := by
  unfold clovStartFx
  rw [foldl_named_channel rfl s fun t j hj => by rw [hj]; rfl]
  exact if_pos (bitOf_named k)

/-- A channel that may start runs at its entry, its small queues refilled (R409). -/
theorem clvStart_idle (hidle : (s.clv e k).state = 0) (hrot : k < s.rotation e) (hown : s.givenUp e k = false) (hpins : s.clvOverlap e k = false) :
    s.clvStart e k =
      ((s.setClv e k { state := 1, pc := s.clvEntry e k, bank := s.engineBank e, pins := (s.clv e k).pins }).clvEmpty e k).clvRefill 16 e k :=
  if_neg (by simp [hidle, hown, hpins, hrot])

theorem clvStart_refused (h : (s.clv e k).state ≠ 0 ∨ s.rotation e ≤ k ∨ s.givenUp e k = true ∨ s.clvOverlap e k = true) :
    s.clvStart e k = s.warn (0xA8 + e) :=
  if_pos (by simpa [or_assoc] using h)

theorem clovStopFx_named (hbusy : (s.clv e k).state ≠ 0) : clovStopFx e (toW (2 ^ k.val)) s = s.clvStop e k 2 := by
  unfold clovStopFx
  rw [foldl_named_channel rfl s fun t j hj => by rw [hj]; rfl]
  exact if_pos (by simp [bitOf_named, hbusy])

theorem clovStepFx_named (hon : s.enabled (0xA8 + e) = true) (hmode : s.flag (rCLOV_EXP e) fCLOV_EXP_step_mode = true) :
    clovStepFx e (toW (2 ^ k.val)) s = s.clvTurn e k [] false := by
  unfold clovStepFx
  rw [if_neg (by simp [hon, hmode]), foldl_named_channel rfl s fun t j hj => by rw [hj]; rfl]
  exact if_pos (bitOf_named k)

theorem clovStepFx_off (v : Word) (hmode : s.flag (rCLOV_EXP e) fCLOV_EXP_step_mode = false) : clovStepFx e v s = s :=
  if_pos (by simp [hmode])

end Channels

/-! ### Bank swaps (R412) -/

section Swaps

variable {s : State} {e : Nat}

theorem clv_setClv_ne (s : State) (e : Nat) {j k : Nat} (x : ClovCh) (h : j ≠ k) : (s.setClv e k x).clv e j = s.clv e j :=
  spGet_spSet_ne _ _ _ (by omega)

/-- A swap's move of channel k to bank b: at once where it is idle, after its instruction where it is stalled. -/
def State.swapMove (s : State) (e b k : Nat) : State :=
  let x := s.clv e k
  if x.state = 0 then s.setClv e k { x with bank := b } else if x.state = 2 then s.setClv e k { x with moves := true } else s

theorem clovCmdFx_pending (h : s.swapPending e = true) : clovCmdFx e 1 s = s.warn (0xA8 + e) := by
  unfold clovCmdFx
  rw [if_neg (by decide), if_pos h]

theorem clovCmdFx_free (h : s.swapPending e = false) : clovCmdFx e 1 s =
    ((List.range 16).foldl (fun t k => t.swapMove e (1 - s.engineBank e) k)
      ((s.put (rCLOV_BANK e) fCLOV_BANK_bank (1 - s.engineBank e)).put (rCLOV_BANK e) fCLOV_BANK_swap_pending 1)).cloveSwapCheck e := by
  unfold clovCmdFx
  rw [if_neg (by decide), if_neg (by simp [h])]
  rfl

theorem reg_foldl_swapMove (b a : Nat) (l : List Nat) (s : State) : (l.foldl (fun t k => t.swapMove e b k) s).reg a = s.reg a := by
  induction l generalizing s with
  | nil => rfl
  | cons k l ih =>
    rw [List.foldl_cons, ih]
    unfold State.swapMove
    dsimp only
    split_ifs <;> rfl

/-- Idle channels stay idle, and come to the new bank in turn. -/
theorem clv_foldl_swapMove (b : Nat) (l : List Nat) (s : State) (hidle : ∀ j, j ∈ l → (s.clv e j).state = 0) (j : Nat) (hj : j ∈ l ∨ (s.clv e j).bank = b) :
    ((l.foldl (fun t k => t.swapMove e b k) s).clv e j).bank = b := by
  induction l generalizing s with
  | nil => simpa using hj
  | cons k l ih =>
    have hmove : s.swapMove e b k = s.setClv e k { s.clv e k with bank := b } := if_pos (hidle k List.mem_cons_self)
    rw [List.foldl_cons, hmove]
    refine ih _ (fun i hi => ?_) ?_
    · by_cases hik : i = k
      · rw [hik, clv_setClv]
        exact hidle k List.mem_cons_self
      · rw [clv_setClv_ne _ _ _ hik]
        exact hidle i (List.mem_cons_of_mem _ hi)
    · by_cases hjk : j = k
      · exact .inr (by rw [hjk, clv_setClv])
      · rw [clv_setClv_ne _ _ _ hjk]
        exact hj.imp_left fun h => (List.mem_cons.1 h).resolve_left hjk

theorem cloveSwapCheck_ends (hpending : s.swapPending e = true) (hbanks : ∀ k, k < 16 → (s.clv e k).bank = s.engineBank e) :
    s.cloveSwapCheck e = (s.put (rCLOV_BANK e) fCLOV_BANK_swap_pending 0).irq (0xA8 + e) 5 :=
  if_pos (by simpa [hpending] using hbanks)

/-- A swap while every channel is idle changes the bank at once (R412). -/
theorem clovCmdFx_idle (e : Fin 4) (k : Fin 16) (hfree : s.swapPending e = false) (hidle : s.cloveIdle e = true) :
    (clovCmdFx e 1 s).engineBank e = 1 - s.engineBank e ∧ (clovCmdFx e 1 s).swapPending e = false ∧
    ((clovCmdFx e 1 s).clv e k).bank = 1 - s.engineBank e := by
  have hall : ∀ j, j < 16 → (s.clv e j).state = 0 := by simpa [State.cloveIdle] using hidle
  rw [clovCmdFx_free hfree]
  generalize hb : 1 - s.engineBank e = b
  generalize hu : (List.range 16).foldl (fun (t : State) k => t.swapMove e b k) _ = u
  have hreg (f : Fld) : u.get (rCLOV_BANK e) f = ((s.put (rCLOV_BANK e) fCLOV_BANK_bank b).put (rCLOV_BANK e) fCLOV_BANK_swap_pending 1).get (rCLOV_BANK e) f :=
    get_congr f (by rw [← hu, reg_foldl_swapMove])
  have hbank : u.engineBank e = b := by
    unfold State.engineBank
    rw [hreg, get_put_other _ _ _ _ _ (by decide) (by decide) (by decide), get_put_same _ _ _ _ (by decide) (by decide)]
    exact Nat.mod_eq_of_lt (by rw [← hb]; dsimp only; omega)
  have hpending : u.swapPending e = true := by
    unfold State.swapPending State.flag
    rw [hreg, get_put_same _ _ _ _ (by decide) (by decide)]
    rfl
  have hmoved : ∀ j, j < 16 → (u.clv e j).bank = u.engineBank e := fun j hj => by
    rw [hbank, ← hu]
    refine clv_foldl_swapMove b _ _ (fun i hi => ?_) j (.inl (List.mem_range.2 hj))
    rw [State.put, State.put, clv_setReg, clv_setReg, hall i (List.mem_range.1 hi)]
  have hirq : rCLOV_BANK e ≠ rPG_IRQ_STAT (0xA8 + e) := by dsimp only [rCLOV_BANK, rPG_IRQ_STAT]; omega
  have hend (f : Fld) : (u.cloveSwapCheck e).get (rCLOV_BANK e) f = (u.put (rCLOV_BANK e) fCLOV_BANK_swap_pending 0).get (rCLOV_BANK e) f := by
    rw [cloveSwapCheck_ends hpending hmoved]
    exact get_congr f (reg_setReg_ne _ _ hirq)
  refine ⟨?_, ?_, ?_⟩
  · unfold State.engineBank
    rw [hend, get_put_other _ _ _ _ _ (by decide) (by decide) (by decide)]
    exact hbank
  · unfold State.swapPending State.flag
    rw [hend, get_put_same _ _ _ _ (by decide) (by decide)]
    rfl
  · rw [clv_cloveSwapCheck, hmoved k k.isLt, hbank]

end Swaps

/-! ### Starts of every engine (R410) -/

section SyncStarts

variable {s : State} {q : Req} {v : Word}

/-- A writer that may write every engine page is let through; what follows is said by the command's bits. -/
theorem clovSyncFx_may (hmay : ∀ g : Fin 4, s.claimAllows (44 + g) q = true) : clovSyncFx q v s =
    let t := s.put (rCLOV_SYNC_CMD 0) fCLOV_SYNC_CMD_unit (fldOf v fCLOV_SYNC_CMD_unit)
    let a := rCLOV_SYNC_STATUS 0
    let t := if fldOf v fCLOV_SYNC_CMD_disarm = 1 then t.put a fCLOV_SYNC_STATUS_armed 0 else t
    let t := if fldOf v fCLOV_SYNC_CMD_arm = 1 then (t.put a fCLOV_SYNC_STATUS_armed 1).put a fCLOV_SYNC_STATUS_unit (fldOf v fCLOV_SYNC_CMD_unit) else t
    if fldOf v fCLOV_SYNC_CMD_now = 1 then t.clvSyncStart else t := by
  have hall : (List.range 4).all (fun e => !(List.range 16).any (fun k => s.clvSelected e k) || s.claimAllows (44 + e) q) = true := by
    rw [List.all_eq_true]
    intro e he
    rw [hmay ⟨e, List.mem_range.1 he⟩, Bool.or_true]
  unfold clovSyncFx
  dsimp only
  rw [if_neg (by rw [hall]; exact Bool.false_ne_true)]

theorem takeTrig_driven {u : Nat} {clove : Bool} (h : s.servo.trigs.contains (u, clove) = true) (act : State → State) :
    s.takeTrig u clove act = act { s with servo := { s.servo with trigs := s.servo.trigs.filter (· != (u, clove)) } } := if_pos h

/-- An armed start is done at the trigger of its unit. -/
theorem clvTrigger_armed {u : Nat} (harmed : s.flag (rCLOV_SYNC_STATUS 0) fCLOV_SYNC_STATUS_armed = true)
    (hunit : s.get (rCLOV_SYNC_STATUS 0) fCLOV_SYNC_STATUS_unit = u) :
    s.clvTrigger u = (s.clvSyncStart.put (rCLOV_SYNC_STATUS 0) fCLOV_SYNC_STATUS_armed 0).irq 0xA8 7 :=
  if_pos (by simp [harmed, hunit])

end SyncStarts

/-! ### The queue mover (R406 to R408) -/

section Mover

variable {s : State} {e k : Nat}

/-- The mover serves a side of a queue of its engine that has an entry to move. -/
def State.moverServes (s : State) (e k : Nat) (tx : Bool) : Prop :=
  s.fieldRuns = true ∧ s.enabled (0xA8 + e) = true ∧ s.fqOn e (16 + k) = true ∧ s.givenUp e k = false ∧
  s.flag (rCLOV_MV_CFG e k) (if tx then fCLOV_MV_CFG_tx_en else fCLOV_MV_CFG_rx_en) = true ∧
  s.flag (rCLOV_MV_CFG e k) (if tx then fCLOV_MV_CFG_tx_fault else fCLOV_MV_CFG_rx_fault) = false ∧
  (if tx then s.txMode e (16 + k) else s.rxMode e (16 + k)) = 2 ∧
  s.get (if tx then rCLOV_MV_TX e k else rCLOV_MV_RX e k) fCLOV_MV_RX_head ≠ s.get (if tx then rCLOV_MV_TX e k else rCLOV_MV_RX e k) fCLOV_MV_RX_tail

/-- The address of the ring entry at the head of a side. -/
def State.moverEntry (s : State) (e k : Nat) (tx : Bool) : Nat :=
  let size := 2 ^ s.get (rCLOV_MV_CFG e k) fCLOV_MV_CFG_size
  (s.reg (rCLOV_MV_BASE e k)).toNat / 16 * 16 + (if tx then 16 * size else 0) +
    16 * (s.get (if tx then rCLOV_MV_TX e k else rCLOV_MV_RX e k) fCLOV_MV_RX_head % size)

/-- The oldest word of a receive queue that the mover serves, and where it goes. -/
theorem moverMove_rx (h : s.moverServes e k false) {w : FqWord} {rest : List FqWord} (hrx : (s.fq e (16 + k)).rx = w :: rest) :
    s.moverMove e k false =
      let r := s.xlate (moverOf e) (s.moverEntry e k false) 16 .write
      match r.1.1 with
      | some _ => r.2.moverFault e k false
      | none =>
        let m := r.2.writePieces (moverOf e) r.1.2 (leBytes 8 w.data ++ leBytes 8 (w.valid + 16 * b2n w.last))
        if m.1 != 0 then m.2.moverFault e k false
        else ((m.2.put (rCLOV_MV_RX e k) fCLOV_MV_RX_head ((s.get (rCLOV_MV_RX e k) fCLOV_MV_RX_head + 1) % 65536)).setFq e (16 + k)
          { m.2.fq e (16 + k) with rx := rest }).fqGrant e (16 + k) := by
  obtain ⟨hfield, hpage, hqueue, hown, hen, hfault, hmode, hring⟩ := h
  have hen := get_of_flag rfl hen
  have hfault := get_of_not_flag hfault
  simp only [Bool.false_eq_true, if_false, State.get] at hen hfault hmode hring
  unfold State.moverMove
  refine (if_neg (by simp [hfield, hpage, hqueue, hown, hen, hfault, hmode, hring, State.get])).trans ((if_neg Bool.false_ne_true).trans ?_)
  rw [hrx]
  rfl

/-- An entry of memory for a transmit queue with room that the mover serves. -/
theorem moverMove_tx (h : s.moverServes e k true) (hroom : (s.fq e (16 + k)).tx.length < s.txDepth e (16 + k)) :
    s.moverMove e k true =
      let r := s.xlate (moverOf e) (s.moverEntry e k true) 16 .read
      match r.1.1 with
      | some _ => r.2.moverFault e k true
      | none =>
        let m := r.2.readPieces (moverOf e) [] r.1.2
        if m.1 != 0 then m.2.2.moverFault e k true
        else
          let t := m.2.2.put (rCLOV_MV_TX e k) fCLOV_MV_TX_head ((s.get (rCLOV_MV_TX e k) fCLOV_MV_RX_head + 1) % 65536)
          let n := leNat (slice m.2.1 8 1)
          if n % 16 = 0 || 8 < n % 16 then ((t.inc (rCLOV_CNT_ERROR e)).irq (0xA8 + e) 4).cloveFault e
          else (t.setFq e (16 + k) { t.fq e (16 + k) with
            tx := (t.fq e (16 + k)).tx ++ [⟨leNat (m.2.1.take 8), n % 16, n.testBit 4⟩] }).fqFed e (16 + k) := by
  obtain ⟨hfield, hpage, hqueue, hown, hen, hfault, hmode, hring⟩ := h
  have hen := get_of_flag rfl hen
  have hfault := get_of_not_flag hfault
  simp only [if_true, State.get] at hen hfault hmode hring
  unfold State.moverMove
  exact (if_neg (by simp [hfield, hpage, hqueue, hown, hen, hfault, hmode, hring, State.get])).trans
    ((if_pos rfl).trans (if_neg (Nat.not_le.2 hroom)))

theorem moverMove_givenUp (h : s.givenUp e k = true) (tx : Bool) : s.moverMove e k tx = s := by
  unfold State.moverMove
  simp only [h, Bool.or_true, Bool.true_or, if_true]

/-- The fault bits of CLOV_MVk_CFG are cleared by writing them as 1; a store that keeps the other bits of the value changes no other bit. -/
theorem reg_store_moverCfg (e : Fin 4) (k : Fin 16) (v : Word) :
    (s.store (rCLOV_MV_CFG e k) ((s.reg (rCLOV_MV_CFG e k) &&& ~~~maskOf 29 28) ||| (v &&& maskOf 29 28))).reg (rCLOV_MV_CFG e k) &&& ~~~maskOf 29 28 =
      s.reg (rCLOV_MV_CFG e k) &&& ~~~maskOf 29 28 := by
  have hfields : ∀ (e : Fin 4) (k : Fin 16), regFields (rCLOV_MV_CFG e k / 0x1000) (rCLOV_MV_CFG e k % 0x1000) =
      [⟨31, 31, .rw, .w⟩, ⟨30, 30, .rw, .w⟩, ⟨29, 29, .w1c, .w⟩, ⟨28, 28, .w1c, .w⟩, ⟨3, 0, .rw, .w⟩] := by decide +kernel
  unfold State.store
  rw [reg_setReg_same]
  generalize s.reg (rCLOV_MV_CFG e k) = old
  unfold storeWord
  rw [hfields]
  have hw1c : toW (accMask [⟨31, 31, .rw, .w⟩, ⟨30, 30, .rw, .w⟩, ⟨29, 29, .w1c, .w⟩, ⟨28, 28, .w1c, .w⟩, ⟨3, 0, .rw, .w⟩] .w1c) = maskOf 29 28 := by decide
  have hw1s : toW (accMask [⟨31, 31, .rw, .w⟩, ⟨30, 30, .rw, .w⟩, ⟨29, 29, .w1c, .w⟩, ⟨28, 28, .w1c, .w⟩, ⟨3, 0, .rw, .w⟩] .w1s) = 0 := by decide
  dsimp only
  rw [hw1c, hw1s]
  generalize toW (accMask _ .rw ||| accMask _ .rwl) = plain
  ext i hi
  simp only [BitVec.getElem_or, BitVec.getElem_and, BitVec.getElem_not]
  cases (maskOf 29 28)[i] <;> simp [← Bool.and_or_distrib_left]

theorem moverCfgFx_clears (e : Fin 4) (k : Fin 16) {v : Word} (hbusy : (s.clv e k).state ≠ 0)
    (hsame : (v &&& ~~~maskOf 29 28) = (s.reg (rCLOV_MV_CFG e k) &&& ~~~maskOf 29 28)) (hrx : fldOf v fCLOV_MV_CFG_rx_fault = 1)
    (hset : s.flag (rCLOV_MV_CFG e k) fCLOV_MV_CFG_rx_fault = true) (htx : fldOf v fCLOV_MV_CFG_tx_fault = 0) :
    moverCfgFx e k v s =
      (s.store (rCLOV_MV_CFG e k) ((s.reg (rCLOV_MV_CFG e k) &&& ~~~maskOf 29 28) ||| (v &&& maskOf 29 28))).moverMove e k false := by
  unfold moverCfgFx
  dsimp only
  simp only [if_neg hbusy, hrx, hset, htx, reg_store_moverCfg, hsame]
  simp

end Mover

/-! ### The statement -/

section Settle

variable {s : State} {e : Fin 4} {k : Fin 16}

theorem pmemFx_free {v : Word} (h : s.bankUsed e (s.get (rCLOV_PMEM_ADDR e) fCLOV_PMEM_ADDR_bank) = false) :
    pmemFx e v s = s.setProg e (s.get (rCLOV_PMEM_ADDR e) fCLOV_PMEM_ADDR_bank) (s.get (rCLOV_PMEM_ADDR e) fCLOV_PMEM_ADDR_word) v :=
  if_neg (by rw [h]; exact Bool.false_ne_true)

theorem pmemFx_used {v : Word} (h : s.bankUsed e (s.get (rCLOV_PMEM_ADDR e) fCLOV_PMEM_ADDR_bank) = true) :
    pmemFx e v s = ((s.inc (rCLOV_CNT_REFUSED e)).irq (0xA8 + e) 4).cloveFault e := if_pos h

theorem pmemIncFx_free {v : Word} (h : s.bankUsed e (s.get (rCLOV_PMEM_ADDR e) fCLOV_PMEM_ADDR_bank) = false) :
    pmemIncFx e v s = (s.setProg e (s.get (rCLOV_PMEM_ADDR e) fCLOV_PMEM_ADDR_bank) (s.get (rCLOV_PMEM_ADDR e) fCLOV_PMEM_ADDR_word) v).put
      (rCLOV_PMEM_ADDR e) fCLOV_PMEM_ADDR_word ((s.get (rCLOV_PMEM_ADDR e) fCLOV_PMEM_ADDR_word + 1) % 1024) := by
  unfold pmemIncFx
  rw [pmemFx_free h]
  rfl

end Settle

/-- Settles O47: a named channel is the one on which a fold over the channels acts, a swap of idle channels is done at once, and the mover serves
an entry or stops at its fault. -/
theorem clovePagesAndMover : Obligations.ClovePagesAndMover := by
  unfold Obligations.ClovePagesAndMover
  refine ⟨fun s q e k => ⟨fun ha => ⟨fun hidle hrot hown hpins => ?start, fun h => ?refused⟩, fun ha hbusy => ?stop, fun ha h => ?pending,
    fun ha hfree hidle => ?swap, fun hmay v ha => ⟨fun hdis harm hnow => ?now, fun hdis harm hnow => ?arm, fun hdis harm hnow => ?disarm⟩,
    fun u hdriven harmed hunit => ?trigger, fun v => ⟨fun hfree ha => ?word, fun hfree ha => ?next, fun hused ha => ?refusedWord⟩,
    fun ha hon => ⟨fun hmode => ?step, fun hmode => ?noStep⟩⟩,
    fun s e k hfield hpage hqueue => ⟨fun hown hen hfault hmode hring w rest hrx => ⟨fun f l t hx => ?rxFault, fun l t u hx hw => ?rxMove⟩,
      fun hown hen hfault hmode hring hroom l t bs u hx hr hmin hmax => ?txMove, fun q v ha hbusy hsame hrx hset htx => ?clears, fun hown tx => ?givenUp⟩⟩
  case start => exact exec_writeReg_accepted rfl ha (clovStartFx_named.trans (clvStart_idle hidle hrot hown hpins))
  case refused => exact exec_writeReg_accepted rfl ha (clovStartFx_named.trans (clvStart_refused h))
  case stop => exact exec_writeReg_accepted rfl ha (clovStopFx_named hbusy)
  case pending => exact exec_writeReg_accepted rfl ha (clovCmdFx_pending h)
  case swap => exact ⟨_, exec_writeReg_accepted rfl ha rfl, clovCmdFx_idle e k hfree hidle⟩
  case now =>
    refine exec_writeReg_accepted rfl ha ((clovSyncFx_may hmay).trans ?_)
    simp only [hdis, harm, hnow, if_true, if_neg zero_ne_one]
  case arm =>
    refine exec_writeReg_accepted rfl ha ((clovSyncFx_may hmay).trans ?_)
    simp only [hdis, harm, hnow, if_true, if_neg zero_ne_one]
  case disarm =>
    refine exec_writeReg_accepted (a := rCLOV_SYNC_CMD 0) (fx := clovSyncFx q) rfl ha ((clovSyncFx_may hmay).trans ?_)
    simp only [hdis, harm, hnow, if_true, if_neg zero_ne_one]
  case trigger => exact congrArg (finish s) ((takeTrig_driven hdriven _).trans (clvTrigger_armed harmed hunit))
  case word => exact exec_writeReg_accepted rfl ha (pmemFx_free hfree)
  case next => exact exec_writeReg_accepted rfl ha (pmemIncFx_free hfree)
  case refusedWord => exact exec_writeReg_accepted rfl ha (pmemFx_used hused)
  case step => exact exec_writeReg_accepted rfl ha (clovStepFx_named hon hmode)
  case noStep => exact exec_writeReg_accepted rfl ha (clovStepFx_off _ hmode)
  case rxFault =>
    refine congrArg (finish s) ((moverMove_rx ⟨hfield, hpage, hqueue, hown, hen, hfault, hmode, hring⟩ hrx).trans ?_)
    have hx' : s.xlate (moverOf e) (s.moverEntry e k false) 16 .write = ((some f, l), t) := hx
    rw [hx']
    rfl
  case rxMove =>
    refine congrArg (finish s) ((moverMove_rx ⟨hfield, hpage, hqueue, hown, hen, hfault, hmode, hring⟩ hrx).trans ?_)
    have hx' : s.xlate (moverOf e) (s.moverEntry e k false) 16 .write = ((none, l), t) := hx
    simp only [hx', hw]
    rfl
  case txMove =>
    refine congrArg (finish s) ((moverMove_tx ⟨hfield, hpage, hqueue, hown, hen, hfault, hmode, hring⟩ hroom).trans ?_)
    have hx' : s.xlate (moverOf e) (s.moverEntry e k true) 16 .read = ((none, l), t) := hx
    simp only [hx', hr]
    exact (if_neg (by decide)).trans (if_neg (by simp; omega))
  case clears => exact exec_writeReg_accepted rfl ha (moverCfgFx_clears e k hbusy hsame hrx hset htx)
  case givenUp => exact congrArg (finish s) (moverMove_givenUp hown tx)
end Sys2Proof.Machine
end

section
/-! PROOF. O40 and O41: pins and GPIO (R315 to R321), field queues, their settings and their frames (R323 to R334). -/
namespace Sys2Proof.Machine

/-! ### PMUX_GPIO_IN (R320) -/

/-- A sum of powers of two over a range is below the next power, and its bits are the terms' bits. -/
theorem testBit_foldl_range (b : Nat → Bool) (n : Nat) : let x := (List.range n).foldl (fun m p => m + b2n (b p) * 2 ^ p) 0
    x < 2 ^ n ∧ ∀ p, p < n → x.testBit p = b p := by
  induction n with
  | zero => exact ⟨Nat.one_pos, fun p hp => absurd hp (Nat.not_lt_zero p)⟩
  | succ n ih =>
    obtain ⟨hlt, hbits⟩ := ih
    dsimp only
    rw [List.range_succ, List.foldl_append, List.foldl_cons, List.foldl_nil]
    generalize (List.range n).foldl (fun m p => m + b2n (b p) * 2 ^ p) 0 = x at hlt hbits
    rw [Nat.add_comm x, Nat.mul_comm]
    refine ⟨?_, fun p hp => ?_⟩
    · have := Nat.mul_le_mul_left (2 ^ n) (b2n_le_one (b n))
      rw [Nat.pow_succ]
      omega
    · rw [Nat.testBit_two_pow_mul_add _ hlt]
      split
      · exact hbits p ‹_›
      · obtain rfl : p = n := by omega
        rw [Nat.sub_self]
        cases b p <;> rfl

section Pins

variable {s : State} {c p : Nat} {v : Word}

theorem bitOf_gpioIn (hp : p < 32) : bitOf (s.gpioIn c) p = s.pinLevel c p := by
  obtain ⟨hlt, hbits⟩ := testBit_foldl_range (s.pinLevel c) 32
  unfold bitOf State.gpioIn toW
  rw [BitVec.toNat_ofNat, Nat.mod_eq_of_lt hlt, hbits p hp]

/-- In function none a pin shows 0. -/
theorem pinLevel_none (h : s.pinFn c p = 0) : s.pinLevel c p = false := by
  unfold State.pinLevel
  rw [h]
  rfl

/-- A pin that drives its GPIO output shows it: the invert at the output and at the input cancel. -/
theorem pinLevel_output (hfn : s.pinFn c p = 1) (hoe : bitOf (s.reg (rPMUX_GPIO_OE c)) p = true)
    (hsupply : s.flag (rPMUX_BANK c) fPMUX_BANK_supply_ok = true) (hon : s.enabled (0xB0 + c) = true)
    (hod : s.flag (rPMUX_PIN c p) fPMUX_PIN_od = false) : s.pinLevel c p = bitOf (s.reg (rPMUX_GPIO_OUT c)) p := by
  unfold State.pinLevel State.ballLevel State.gpioDrive
  simp [hfn, hoe, hsupply, hon, hod]

/-- A pin takes a function that its bank's level and the other pins leave to it (R315). -/
theorem pinFx_free (hcode : pinCode p (fldOf v fPMUX_PIN_function) = true)
    (hfree : ∀ x : Fin 32, x ≠ p → fldOf v fPMUX_PIN_function < 0x10 ∨ s.pinFn c x ≠ fldOf v fPMUX_PIN_function)
    (hlevel : s.get (rPMUX_BANK c) fPMUX_BANK_level = 1 ∨ s.get (rPMUX_BANK c) fPMUX_BANK_level = 2) :
    pinFx c p v s = (s.store (rPMUX_PIN c p) v).clvPins c (s.gpioIn c) := by
  have htaken : (decide (0x10 ≤ fldOf v fPMUX_PIN_function) &&
      (List.range 32).any (fun x => x != p && s.pinFn c x = fldOf v fPMUX_PIN_function)) = false := by
    rw [Bool.and_eq_false_imp]
    intro hpin
    rw [List.any_eq_false]
    intro x hx
    have := hfree ⟨x, List.mem_range.1 hx⟩
    have hpin := of_decide_eq_true hpin
    simp only [Bool.and_eq_true, bne_iff_ne, decide_eq_true_eq, not_and]
    intro hne
    exact (this hne).resolve_left (by omega)
  unfold pinFx
  dsimp only
  rw [htaken, hcode]
  exact if_neg (by rcases hlevel with h | h <;> simp [h])

theorem pinFx_refused (h : pinCode p (fldOf v fPMUX_PIN_function) = false ∨
      (0x10 ≤ fldOf v fPMUX_PIN_function ∧ ∃ x : Fin 32, x.val ≠ p ∧ s.pinFn c x = fldOf v fPMUX_PIN_function) ∨
      s.get (rPMUX_BANK c) fPMUX_BANK_level = 0 ∨ s.get (rPMUX_BANK c) fPMUX_BANK_level = 3) : pinFx c p v s = s.warn (0xB0 + c) := by
  refine if_pos ?_
  rcases h with h | ⟨hpin, x, hne, hx⟩ | h | h
  · simp [h]
  · have htaken : (List.range 32).any (fun y => y != p && s.pinFn c y = fldOf v fPMUX_PIN_function) = true :=
      List.any_eq_true.2 ⟨x, List.mem_range.2 x.isLt, by simp [hne, hx]⟩
    simp [hpin, htaken]
  · simp [h]
  · simp [h]

theorem bankFx_same (h : fldOf v fPMUX_BANK_level = s.get (rPMUX_BANK c) fPMUX_BANK_level) : bankFx c v s = s := if_pos h

theorem bankFx_free (h : fldOf v fPMUX_BANK_level ≠ s.get (rPMUX_BANK c) fPMUX_BANK_level) (hnone : ∀ p : Fin 32, s.pinFn c p = 0) :
    bankFx c v s = s.put (rPMUX_BANK c) fPMUX_BANK_level (fldOf v fPMUX_BANK_level) :=
  (if_neg h).trans (if_pos (List.all_eq_true.2 fun p hp => decide_eq_true (hnone ⟨p, List.mem_range.1 hp⟩)))

theorem bankFx_used (h : fldOf v fPMUX_BANK_level ≠ s.get (rPMUX_BANK c) fPMUX_BANK_level) (hsome : ∃ p : Fin 32, s.pinFn c p ≠ 0) :
    bankFx c v s = s.warn (0xB0 + c) := by
  obtain ⟨p, hp⟩ := hsome
  refine (if_neg h).trans (if_neg fun hall => hp ?_)
  exact of_decide_eq_true (List.all_eq_true.1 hall p (List.mem_range.2 p.isLt))

theorem gpioEdge_same {level : Bool} (h : (s.setBall c (toW (natPut (s.ball c).toNat p p (b2n level)))).pinLevel c p = s.pinLevel c p) :
    s.gpioEdge c p level = s.setBall c (toW (natPut (s.ball c).toNat p p (b2n level))) := if_pos h.symm

theorem gpioEdge_changed {level : Bool} (h : (s.setBall c (toW (natPut (s.ball c).toNat p p (b2n level)))).pinLevel c p ≠ s.pinLevel c p) :
    let u := s.setBall c (toW (natPut (s.ball c).toNat p p (b2n level)))
    s.gpioEdge c p level = u.pinSeen c p (u.pinLevel c p) := if_neg (Ne.symm h)

end Pins

/-- Settles O40: each write and each level takes the branch of its register's rule that the premises name. -/
theorem pinsAct : Obligations.PinsAct := by
  unfold Obligations.PinsAct
  intro s q c
  refine ⟨fun p v ha => ⟨fun hcode hfree hlevel => ?pin, fun h => ?pinRefused⟩, fun v ha => ⟨fun h => ?same, fun h => ⟨fun hnone => ?level, fun hsome => ?used⟩⟩,
    fun v ha => ?set, fun v ha => ?clr, fun p => ⟨bitOf_gpioIn p.isLt, pinLevel_none, pinLevel_output⟩,
    fun p level => ⟨fun h => ?quiet, fun h hoff => ?off, fun h hen hon => ?edge⟩⟩
  case pin => exact exec_writeReg_accepted rfl ha (pinFx_free hcode (fun x hx => hfree x (fun h => hx (congrArg Fin.val h))) hlevel)
  case pinRefused =>
    refine exec_writeReg_accepted rfl ha (pinFx_refused (h.imp_right (.imp_left ?_)))
    rintro ⟨hpin, x, hne, hx⟩
    exact ⟨hpin, x, fun h => hne (Fin.ext h), hx⟩
  case same => exact exec_writeReg_accepted rfl ha (bankFx_same h)
  case level => exact exec_writeReg_accepted rfl ha (bankFx_free h hnone)
  case used => exact exec_writeReg_accepted rfl ha (bankFx_used h hsome)
  case set => exact exec_writeReg_accepted rfl ha rfl
  case clr => exact exec_writeReg_accepted rfl ha rfl
  case quiet => exact congrArg (finish s) (gpioEdge_same h)
  case off => exact congrArg (finish s) ((gpioEdge_changed h).trans (if_pos (by simpa using hoff)))
  case edge => exact congrArg (finish s) ((gpioEdge_changed h).trans (if_neg (by simp [hen, hon])))

/-! ### Field queues -/

section Queues

variable {s : State} {c n : Nat} {v : Word}

theorem fqPut_open {item : Nat} (hon : s.fqOn c n = true) (hcredit : (s.fq c n).credits ≠ 0)
    (hroom : ((s.fq c n).opened ++ leBytes (s.fqWidth c n) item).length < 8) : s.fqPut c n item false =
      (s.setFq c n { s.fq c n with opened := (s.fq c n).opened ++ leBytes (s.fqWidth c n) item, credits := (s.fq c n).credits - 1 }).fqTopUp c n :=
  (if_neg (by simp [hon, hcredit])).trans (if_neg (by simpa using hroom))

theorem fqPut_commit {item : Nat} {last : Bool} (hon : s.fqOn c n = true) (hcredit : (s.fq c n).credits ≠ 0)
    (hend : last = true ∨ 8 ≤ ((s.fq c n).opened ++ leBytes (s.fqWidth c n) item).length) : s.fqPut c n item last =
      (s.setFq c n { s.fq c n with opened := (s.fq c n).opened ++ leBytes (s.fqWidth c n) item, credits := (s.fq c n).credits - 1 }).fqCommit c n last :=
  (if_neg (by simp [hon, hcredit])).trans (if_pos (by simpa using hend))

/-- With no injected error armed a read of queue memory is good. -/
theorem fqEcc_none (h : s.armed (0xB4 + c) 0 = none) : s.fqEcc c = (false, s) := by
  unfold State.fqEcc
  rw [h]

theorem fqPop_word {w : FqWord} {rest : List FqWord} (hmode : s.rxMode c n = 0) (hrx : (s.fq c n).rx = w :: rest) (hecc : s.armed (0xB4 + c) 0 = none) :
    let t := (s.setFq c n { s.fq c n with rx := rest }).fqGrant c n
    let tag := min 255 (rest.filter (fun w => w.last)).length * 2 ^ 24 + b2n w.last * 2 ^ 11 + w.valid
    fqPop c n s = some (tag, ((t.setReg (rFQ_DATA_LO c n) (toW w.data)).setReg (rFQ_DATA_HI c n) (toW (w.data / 2 ^ 32))).setReg (rFQ_POP_REPLAY c n) (toW tag)) := by
  unfold fqPop
  dsimp only
  rw [if_pos hmode, hrx]
  have hgood : b2n false = 0 := rfl
  simp only [fqEcc_none hecc, hgood, Nat.zero_mul, Nat.add_zero]
  rfl

theorem fqPop_empty (h : (s.fq c n).rx = [] ∨ s.rxMode c n ≠ 0) : fqPop c n s = none := by
  unfold fqPop
  dsimp only
  rcases h with h | h
  · rw [h, ite_self]
  · rw [if_neg h]

theorem fqPushFx_off (h : s.enabled (0xB4 + c) = false) : fqPushFx c n v s = s := if_pos (by simp [h])

theorem fqPushFx_room (hq : fqExists n = true) (hon : s.enabled (0xB4 + c) = true) (hfree : s.txFree c n ≠ 0) (hmin : 1 ≤ v.toNat % 16) (hmax : v.toNat % 16 ≤ 8) :
    fqPushFx c n v s = (s.setFq c n { s.fq c n with tx := (s.fq c n).tx ++
      [⟨(s.reg (rFQ_TXDATA_HI c n)).toNat * 2 ^ 32 + (s.reg (rFQ_TXDATA_LO c n)).toNat, v.toNat % 16, bitOf v 8⟩] }).fqFed c n :=
  (if_neg (by simp [hq, hon])).trans (if_neg (by simp; omega))

theorem fqPushFx_refused (hq : fqExists n = true) (hon : s.enabled (0xB4 + c) = true) (h : s.txFree c n = 0 ∨ v.toNat % 16 = 0 ∨ 8 < v.toNat % 16) :
    fqPushFx c n v s = (s.inc (rFQ_CNT_PUSH_REFUSED c)).raise (72 + c) :=
  (if_neg (by simp [hq, hon])).trans (if_pos (by simpa [or_assoc] using h))

theorem fqCmdFx_close (hq : fqExists n = true) (hn : fldOf v fFQ_CMD_queue = n) (hclose : fldOf v fFQ_CMD_close_rx = 1) (hrx : fldOf v fFQ_CMD_flush_rx = 0)
    (htx : fldOf v fFQ_CMD_flush_tx = 0) : fqCmdFx c v s = if (s.fq c n).opened = [] then s else s.fqCommit c n true := by
  unfold fqCmdFx
  simp only [hn, hq, hclose, hrx, htx]
  by_cases h : (s.fq c n).opened = []
  · simp [h]
  · simp [h]

theorem fqCmdFx_flushRx (hq : fqExists n = true) (hn : fldOf v fFQ_CMD_queue = n) (hclose : fldOf v fFQ_CMD_close_rx = 0) (hrx : fldOf v fFQ_CMD_flush_rx = 1)
    (htx : fldOf v fFQ_CMD_flush_tx = 0) : fqCmdFx c v s = s.fqFlushRx c n := by
  unfold fqCmdFx
  simp [hn, hq, hclose, hrx, htx]

theorem fqCmdFx_flushTx (hq : fqExists n = true) (hn : fldOf v fFQ_CMD_queue = n) (hclose : fldOf v fFQ_CMD_close_rx = 0) (hrx : fldOf v fFQ_CMD_flush_rx = 0)
    (htx : fldOf v fFQ_CMD_flush_tx = 1) : fqCmdFx c v s = s.fqFlushTx c n := by
  unfold fqCmdFx
  simp [hn, hq, hclose, hrx, htx]

end Queues

/-! ### Settings of field queues (R329, R330, R334) -/

section Settings

variable {s : State} {c n : Nat} {v : Word}

/-- The words that the other queues of a cluster hold of its memory. -/
def State.otherDepths (s : State) (c n : Nat) : Nat :=
  (List.range 32).foldl (fun m x => if x = n || !fqExists x then m else m + s.rxDepth c x + s.txDepth c x) 0

/-- FQ_QCFG as it is stored, with a depth of 1 to 3 as 4. -/
def fqCfgWord (v : Word) : Word :=
  fldPut (fldPut v fFQ_QCFG_rx_depth (fqDepth (fldOf v fFQ_QCFG_rx_depth))) fFQ_QCFG_tx_depth (fqDepth (fldOf v fFQ_QCFG_tx_depth))

/-- A write of a queue's settings by what it asks for. -/
theorem fqCfgFx_eq (hq : fqExists n = true) : fqCfgFx c n v s =
    if 2048 < s.otherDepths c n + fqDepth (fldOf v fFQ_QCFG_rx_depth) + fqDepth (fldOf v fFQ_QCFG_tx_depth) ∨
      (s.flag (rFQ_QCFG c n) fFQ_QCFG_enable = true ∧
        (fqDepth (fldOf v fFQ_QCFG_rx_depth) ≠ s.rxDepth c n ∨ fqDepth (fldOf v fFQ_QCFG_tx_depth) ≠ s.txDepth c n)) then s.warn (0xB4 + c)
    else
      let t := s.store (rFQ_QCFG c n) (fqCfgWord v)
      if s.flag (rFQ_QCFG c n) fFQ_QCFG_enable = true ∧ t.flag (rFQ_QCFG c n) fFQ_QCFG_enable = false then t.fqClear c n
      else if s.flag (rFQ_QCFG c n) fFQ_QCFG_enable = false ∧ t.flag (rFQ_QCFG c n) fFQ_QCFG_enable = true then
        (t.setFq c n { hold := (t.fq c n).hold }).fqGrant c n
      else t.fqGrant c n := by
  unfold fqCfgFx State.otherDepths fqCfgWord
  dsimp only
  generalize (List.range 32).foldl (fun m x => if x = n || !fqExists x then m else m + s.rxDepth c x + s.txDepth c x) 0 = others
  simp only [hq, Bool.not_true, Bool.false_eq_true, if_false, Bool.or_eq_true, Bool.and_eq_true, decide_eq_true_eq, bne_iff_ne, Bool.not_eq_true']

/-- A binding mode of 0 or 1 is stored as written. -/
theorem fqBindFx_plain (hq : fqExists n = true) (hrx : fldOf v fFQ_BIND_rx_mode ≤ 1) (htx : fldOf v fFQ_BIND_tx_mode ≤ 1) :
    let w := fldPut (fldPut v fFQ_BIND_rx_mode (fldOf v fFQ_BIND_rx_mode)) fFQ_BIND_tx_mode (fldOf v fFQ_BIND_tx_mode)
    let t := s.store (rFQ_BIND c n) (fldPut w fFQ_BIND_max_words (min 60 (fldOf w fFQ_BIND_max_words)))
    fqBindFx c n v s = if s.flag (rFQ_QCFG c n) fFQ_QCFG_enable = true then (if t.reg (rFQ_BIND c n) = s.reg (rFQ_BIND c n) then s else s.warn (0xB4 + c))
      else t := by
  have hmode (m : Nat) (hm : m ≤ 1) : (if m = 3 || (m = 2 && n < 16) then 0 else m) = m := if_neg (by simp; omega)
  unfold fqBindFx
  simp only [hq, hmode _ hrx, hmode _ htx]
  rfl

end Settings

/-! ### Frames to transmit queues (R329) -/

section Frames

variable {s : State} {c n : Nat} {d : Delivered} {rest : List Delivered} {ws : List FqWord}

theorem fqDeliver_goes (hout : s.outbox (10 + c) = d :: rest) (hfate : s.fqFate c d = (1, n, ws)) : s.fqDeliver c [] (s.outbox (10 + c)) [] =
    (((s.setOutbox (10 + c) rest).setFq c n { (s.setOutbox (10 + c) rest).fq c n with tx := ((s.setOutbox (10 + c) rest).fq c n).tx ++ ws }).inc
      (rFQ_CNT_TX_FRAMES c)).fqFed c n := by
  rw [hout]
  unfold State.fqDeliver
  simp [hfate]

theorem fqDeliver_noQueue (hout : s.outbox (10 + c) = d :: rest) (hfate : (s.fqFate c d).1 = 3) : s.fqDeliver c [] (s.outbox (10 + c)) [] =
    (((s.setOutbox (10 + c) rest).inc (rFQ_CNT_NO_QUEUE c)).irq (0xB4 + c) 3).raise (72 + c) := by
  rw [hout]
  unfold State.fqDeliver
  simp [hfate]
  rfl

theorem fqFate_room {h : HeldCtx} (hheld : d.held = some h) (hqueue : h.queue = n) (hn : n < 32) (hon : s.fqOn c n = true) (hmode : s.txMode c n = 1)
    (hdepth : s.txDepth c n ≠ 0) (hws : fqWords d.frame.payload = some ws) (hroom : ws.length ≤ s.txDepth c n - (s.fq c n).tx.length) :
    s.fqFate c d = (1, n, ws) := by
  have hfits : ¬ s.txDepth c n < ws.length := by omega
  unfold State.fqFate
  simp [hheld, hqueue, Nat.not_le.2 hn, hon, hmode, hdepth, hws, hroom, hfits]

theorem fqFate_noQueue (hqueue : (d.held.map HeldCtx.queue).getD 32 = n) (h : s.fqOn c n = false ∨ s.txMode c n ≠ 1 ∨ s.txDepth c n = 0) :
    (s.fqFate c d).1 = 3 := by
  unfold State.fqFate
  dsimp only
  rw [hqueue, if_pos]
  rcases h with h | h | h <;> simp [h]

theorem execFqFrameDeliver_runs {c : Fin 4} (hfield : s.fieldRuns = true) (hon : s.enabled (0xB4 + c) = true) :
    exec (.fqFrameDeliver c) s = finish s ((s.fqDeliver c [] (s.outbox (10 + c)) []).egressPump (10 + c)) :=
  congrArg (finish s) (if_pos (by simp [hfield, hon]))

end Frames

/-- Settles O41: each command takes the branch of its rule that the premises name. -/
theorem fieldQueuesActAndAreSet : Obligations.FieldQueuesActAndAreSet := by
  unfold Obligations.FieldQueuesActAndAreSet
  refine ⟨fun s q c n => ⟨fun item last hfield hon hcredit => ⟨fun hlast hroom => ?opened, fun hend => ?committed⟩,
    fun mp ha => ⟨fun w rest hmode hrx hecc => ?pop, fun h => ?popNone⟩,
    fun v ha hq => ⟨fun hoff => ?pushOff, fun hon hfree hmin hmax => ?push, fun hon h => ?pushRefused⟩,
    fun v hn hq ha => ⟨fun hclose hrx htx => ?close, fun hclose hrx htx => ?flushRx, fun hclose hrx htx => ?flushTx⟩⟩,
    fun s q c n hq => ⟨fun v ha => ⟨fun hbig => ?big, fun hon hdepth => ?fixed, fun hfits hoff => ⟨fun hnow => ?enables, fun hnow => ?stays⟩,
      fun hfits hon hrx htx => ⟨fun hnow => ?disables, fun hnow => ?kept⟩⟩,
    fun v hrx htx => ⟨fun hon => (fqBindFx_plain hq hrx htx).trans (if_pos hon), fun hoff => (fqBindFx_plain hq hrx htx).trans (if_neg (by simp [hoff]))⟩,
    fun d rest hfield hon hout => ⟨fun ws hfate => ?goes, fun h hheld hqueue hqon hmode hdepth ws hws hroom => ?room, fun hqueue h => ?none⟩⟩⟩
  case opened =>
    subst hlast
    exact congrArg (finish s) ((onField_runs hfield _).trans (congrArg (State.fqGrant · c n) (fqPut_open hon hcredit hroom)))
  case committed => exact congrArg (finish s) ((onField_runs hfield _).trans (congrArg (State.fqGrant · c n) (fqPut_commit hon hcredit hend)))
  case pop => exact congrArg (finish s) (popRead_some ha false (fqEmpty n) _ (fqPop c n) (fqPop_word hmode hrx hecc))
  case popNone => exact congrArg (finish s) (popRead_none ha false (fqEmpty n) (fqPop c n) (fqPop_empty h))
  case pushOff => exact exec_writeReg_accepted rfl ha (fqPushFx_off hoff)
  case push => exact exec_writeReg_accepted rfl ha (fqPushFx_room hq hon hfree hmin hmax)
  case pushRefused => exact exec_writeReg_accepted rfl ha (fqPushFx_refused hq hon h)
  case close => exact exec_writeReg_accepted rfl ha (fqCmdFx_close hq hn hclose hrx htx)
  case flushRx => exact ⟨_, exec_writeReg_accepted rfl ha (fqCmdFx_flushRx hq hn hclose hrx htx)⟩
  case flushTx => exact exec_writeReg_accepted rfl ha (fqCmdFx_flushTx hq hn hclose hrx htx)
  case big => exact exec_writeReg_accepted rfl ha ((fqCfgFx_eq hq).trans (if_pos (.inl hbig)))
  case fixed => exact exec_writeReg_accepted rfl ha ((fqCfgFx_eq hq).trans (if_pos (.inr ⟨hon, hdepth⟩)))
  case enables =>
    refine exec_writeReg_accepted rfl ha ((fqCfgFx_eq hq).trans ((if_neg ?_).trans ((if_neg ?_).trans (if_pos ⟨hoff, hnow⟩))))
    · exact not_or.2 ⟨Nat.not_lt.2 hfits, by simp [hoff]⟩
    · simp [hoff]
  case stays =>
    refine exec_writeReg_accepted rfl ha ((fqCfgFx_eq hq).trans ((if_neg ?_).trans ((if_neg ?_).trans (if_neg fun h => ?_))))
    · exact not_or.2 ⟨Nat.not_lt.2 hfits, by simp [hoff]⟩
    · simp [hoff]
    · exact Bool.false_ne_true (hnow.symm.trans h.2)
  case disables =>
    refine exec_writeReg_accepted rfl ha ((fqCfgFx_eq hq).trans ((if_neg ?_).trans (if_pos ⟨hon, hnow⟩)))
    exact not_or.2 ⟨Nat.not_lt.2 hfits, by simp [hrx, htx]⟩
  case kept =>
    refine exec_writeReg_accepted rfl ha ((fqCfgFx_eq hq).trans ((if_neg ?_).trans ((if_neg fun h => ?_).trans (if_neg (by simp [hon])))))
    · exact not_or.2 ⟨Nat.not_lt.2 hfits, by simp [hrx, htx]⟩
    · exact Bool.false_ne_true (h.2.symm.trans hnow)
  case goes =>
    exact (execFqFrameDeliver_runs hfield hon).trans (congrArg (fun t => finish s (State.egressPump t (10 + c))) (fqDeliver_goes hout hfate))
  case room => exact fqFate_room hheld hqueue n.isLt hqon hmode hdepth hws hroom
  case none =>
    exact (execFqFrameDeliver_runs hfield hon).trans
      (congrArg (fun t => finish s (State.egressPump t (10 + c))) (fqDeliver_noQueue hout (fqFate_noQueue hqueue h)))
end Sys2Proof.Machine
end

section
/-! PROOF. O42: UART and SPI units (R341 to R352). -/
namespace Sys2Proof.Machine

/-! ### A field of one bit as a condition -/

section Conditions

variable {s : State} {a : Nat} {f : Fld}

theorem get_eq_one_iff (hbit : f.hi = f.lo) : s.get a f = 1 ↔ s.flag a f = true := by
  refine ⟨fun h => ?_, get_of_flag hbit⟩
  unfold State.flag
  rw [h]
  rfl

/-- A condition on a register's bit, as the model writes it with the register read first. -/
theorem decide_fldOf_one (hbit : f.hi = f.lo) : decide (fldOf (s.reg a) f = 1) = s.flag a f :=
  (Bool.eq_iff_iff.2 (decide_eq_true_iff.trans (get_eq_one_iff hbit)))

theorem fldOf_eq_zero (h : s.flag a f = false) : fldOf (s.reg a) f = 0 := get_of_not_flag h

theorem fldOf_ne_zero (h : s.flag a f = true) : fldOf (s.reg a) f ≠ 0 := by simpa [State.flag, State.get] using h

end Conditions

/-! ### UART (R341 to R347) -/

section Uart

variable {s : State} {n : Nat}

theorem uartKeep_room (put : State → State) (h : s.unitHeld (0x80 + n) < 4) : s.uartKeep n put = put s := if_neg (Nat.not_le.2 h)

theorem uartKeep_full (put : State → State) (h : 4 ≤ s.unitHeld (0x80 + n)) : s.uartKeep n put =
    (((s.inc (rUART_CNT_OVERRUN n)).irq (0x80 + n) 3).unitFault (0x80 + n)).setUnit (0x80 + n) { s.unit (0x80 + n) with overrun := true } := if_pos h

/-- What an enabled receiver does that hears its pin and filters nothing: a break, or a character with its errors (R342 to R344). -/
theorem uartRx_heard {data : Nat} {addr par stop : Bool} (hon : s.enabled (0x80 + n) = true) (hrx : s.flag (rUART_CFG n) fUART_CFG_rx_en = true)
    (hpin : s.routed (n / 4) (0x10 + 4 * (n % 4) + 1) = true) (hde : (s.unit (0x80 + n)).de = false)
    (hfilter : s.flag (rUART_CFG n) fUART_CFG_addr_filter = false) : s.uartRx n data addr par stop =
      let d := data % 2 ^ s.get (rUART_CFG n) fUART_CFG_data_bits
      let a := addr && s.flag (rUART_CFG n) fUART_CFG_addr_mode
      let want := wantParity (s.get (rUART_CFG n) fUART_CFG_parity) d a
      let bit := par && want.isSome
      let e := want.any (fun w => w != bit)
      if decide (d = 0) && !a && !bit && !stop then
        ((((((s.inc (rUART_CNT_RX_CHARS n)).inc (rUART_CNT_BREAK n)).irq (0x80 + n) 2).setUnit (0x80 + n) { s.unit (0x80 + n) with brk := true }).uartKeep n
          fun s => s.uartPut n 0 false false true false)).unitRelease (0x80 + n) true
      else
        (((((s.inc (rUART_CNT_RX_CHARS n)).setUnit (0x80 + n) { s.unit (0x80 + n) with brk := false }).uartErr n (rUART_CNT_PARITY n) e).uartErr n
          (rUART_CNT_FRAMING n) (!stop)).uartKeep n fun s => s.uartPut n d e (!stop) false a) := by
  unfold State.uartRx
  dsimp only
  rw [if_neg (by simp [hon, hpin, hde, fldOf_ne_zero hrx])]
  simp only [decide_fldOf_one (f := fUART_CFG_addr_mode) rfl, decide_fldOf_one (f := fUART_CFG_addr_filter) rfl, hfilter, Bool.false_and,
    Bool.false_eq_true, if_false]
  rfl

theorem uartIdle_ends (hon : s.enabled (0x80 + n) = true) (hidle : s.get (rUART_CFG n) fUART_CFG_idle_bits ≠ 0) :
    s.uartIdle n = s.unitRelease (0x80 + n) true := if_pos (by simp [hon, hidle])

/-- A transmitter that does not wait for DE takes its next item and sends it (R345). -/
theorem uartTx_sends (hon : s.enabled (0x80 + n) = true) (htx : s.flag (rUART_CFG n) fUART_CFG_tx_en = true) (hitem : s.fqHasTx (n / 4) (n % 4) = true)
    (hfree : (s.flag (rUART_CFG n) fUART_CFG_rs485 && (s.unit (0x80 + n)).de && (s.unit (0x80 + n)).lastEnd) = false) :
    s.uartTx n = let r := s.fqTake (n / 4) (n % 4)
      ((r.2.setUnit (0x80 + n) { s.unit (0x80 + n) with de := s.flag (rUART_CFG n) fUART_CFG_rs485, lastEnd := r.1.last }).inc (rUART_CNT_TX_CHARS n)).emit
        (.uart n (r.1.item % 2 ^ s.get (rUART_CFG n) fUART_CFG_data_bits) (s.flag (rUART_CFG n) fUART_CFG_addr_mode && r.1.item.testBit 9)) := by
  unfold State.uartTx
  dsimp only
  rw [decide_fldOf_one (f := fUART_CFG_rs485) rfl, decide_fldOf_one (f := fUART_CFG_addr_mode) rfl,
    if_neg (by rw [hfree]; simp [hon, hitem, fldOf_ne_zero htx])]
  rfl

theorem uartRelease_ends (hde : (s.unit (0x80 + n)).de = true) (h : (s.unit (0x80 + n)).lastEnd = true ∨ s.fqHasTx (n / 4) (n % 4) = false) :
    s.uartRelease n = let t := s.setUnit (0x80 + n) { s.unit (0x80 + n) with de := false, lastEnd := false }
      if (s.unit (0x80 + n)).lastEnd then t.irq (0x80 + n) 4 else t :=
  if_pos (by rcases h with h | h <;> simp [hde, h])

end Uart

/-! ### SPI (R348 to R352) -/

section Spi

variable {s : State} {n : Nat}

/-- Appending the bits of a number from bit 0 on reverses them. -/
theorem testBit_reversed (v k : Nat) {b : Nat} (hb : b < k) : ((List.range k).foldl (fun w b => 2 * w + b2n (v.testBit b)) 0).testBit b = v.testBit (k - 1 - b) := by
  induction k generalizing b with
  | zero => omega
  | succ k ih =>
    rw [List.range_succ, List.foldl_append, List.foldl_cons, List.foldl_nil]
    generalize (List.range k).foldl (fun w b => 2 * w + b2n (v.testBit b)) 0 = x at ih
    cases b with
    | zero => cases hv : v.testBit k <;> simp [b2n, hv]
    | succ b =>
      have hhalf : (2 * x + b2n (v.testBit k)) / 2 = x := by have := b2n_le_one (v.testBit k); omega
      rw [Nat.testBit_succ, hhalf, ih (by omega), Nat.add_sub_cancel, Nat.sub_sub, Nat.add_comm 1 b]

/-- A frame's bits in the order of the line (R348). -/
theorem testBit_spiOrder {v b : Nat} (hb : b < s.get (rSPI_CFG n) fSPI_CFG_frame_bits) : (s.spiOrder n v).testBit b =
    v.testBit (if s.flag (rSPI_CFG n) fSPI_CFG_lsb_first then s.get (rSPI_CFG n) fSPI_CFG_frame_bits - 1 - b else b) := by
  unfold State.spiOrder
  dsimp only
  split
  · exact testBit_reversed v _ hb
  · rw [Nat.testBit_mod_two_pow, decide_eq_true hb, Bool.true_and]

/-- The controller may go on: it does not receive, or holds a credit. -/
def State.spiMay (s : State) (n : Nat) : Bool := !s.flag (rSPI_CFG n) fSPI_CFG_rx_en || (s.fq (n / 2) (spiQ n)).credits != 0

theorem spiMay_iff : s.spiMay n = true ↔ s.flag (rSPI_CFG n) fSPI_CFG_rx_en = false ∨ (s.fq (n / 2) (spiQ n)).credits ≠ 0 := by
  simp [State.spiMay]

/-- A controller's next frame: of its queue, or of a count while no packet runs; it pauses where it may not or has none (R349, R350). -/
theorem spiFrame_eq (hon : s.enabled (0x98 + n) = true) (hrole : s.flag (rSPI_CFG n) fSPI_CFG_target = false) (miso : Nat) : s.spiFrame n miso =
    let x := s.unit (0x98 + n)
    if x.count != 0 && !x.inPacket then
      if !s.spiMay n then s.setUnit (0x98 + n) { x with waiting := x.cs.isSome }
      else
        let t := (s.setUnit (0x98 + n) { x with count := x.count - 1 }).spiShift n (s.reg (rFQ_IDLE (n / 2) (spiQ n))).toNat miso (x.count = 1 && x.countEnd)
        if x.count = 1 then t.irq (0x98 + n) 4 else t
    else if !s.spiMay n || !s.fqHasTx (n / 2) (spiQ n) then s.setUnit (0x98 + n) { x with waiting := x.cs.isSome }
    else
      let r := s.fqTake (n / 2) (spiQ n)
      (r.2.setUnit (0x98 + n) { x with inPacket := true }).spiShift n r.1.item miso r.1.last :=
  if_neg (by simp [hon, hrole])

/-- A shift on a controller that does not receive: the frame goes out and is counted; the last of a packet ends it (R348, R349). -/
theorem spiShift_sends (send miso : Nat) (last : Bool) : let x := s.unit (0x98 + n)
    let cs := x.cs.getD (s.get (rSPI_CFG n) fSPI_CFG_cs)
    let v := s.setUnit (0x98 + n) { x with cs := some cs, waiting := false }
    let t := (v.emit (.spi n cs (s.get (rSPI_CFG n) fSPI_CFG_frame_bits) (v.spiOrder n send))).inc (rSPI_CNT_FRAMES n)
    t.flag (rSPI_CFG n) fSPI_CFG_rx_en = false → s.spiShift n send miso last = if last then t.spiEnd n else t := by
  intro x cs v t hrx
  exact congrArg (fun w : State => if last then w.spiEnd n else w) (if_neg (by rw [hrx]; exact Bool.false_ne_true))

theorem spiCmdFx_free {v : Word} (hnone : (s.unit (0x98 + n)).count = 0) (hcount : fldOf v fSPI_CMD_count ≠ 0) : spiCmdFx n v s =
    s.setUnit (0x98 + n) { s.unit (0x98 + n) with count := fldOf v fSPI_CMD_count, countEnd := fldOf v fSPI_CMD_end = 1 } :=
  (if_neg (by simp [hnone])).trans (if_neg hcount)

theorem spiCmdFx_running {v : Word} (hrun : (s.unit (0x98 + n)).count ≠ 0) : spiCmdFx n v s = s.warn (0x98 + n) := if_pos (by simp [hrun])

/-- A complete frame at a target that does not receive (R351). -/
theorem spiTarget_sends (hon : s.enabled (0x98 + n) = true) (hrole : s.flag (rSPI_CFG n) fSPI_CFG_target = true)
    (hpin : s.routed (n / 2) (0x20 + 8 * (n % 2) + 3) = true) (mosi : Nat) :
    let r := s.fqTake (n / 2) (spiQ n)
    let t := r.2.setUnit (0x98 + n) { r.2.unit (0x98 + n) with cs := some 0 }
    let v := if r.1.idle then ((t.inc (rSPI_CNT_UNDERRUN n)).irq (0x98 + n) 3).unitFault (0x98 + n) else t
    let u := (v.emit (.spi n 0 (s.get (rSPI_CFG n) fSPI_CFG_frame_bits) (v.spiOrder n r.1.item))).inc (rSPI_CNT_FRAMES n)
    u.flag (rSPI_CFG n) fSPI_CFG_rx_en = false → s.spiTarget n mosi = u := by
  intro r t v u hrx
  exact (if_neg (by simp [hon, hrole, hpin])).trans (if_pos (by simpa using hrx))

/-- The release of CS0 at a selected target (R351). -/
theorem spiRelease_ends (hon : s.enabled (0x98 + n) = true) (hrole : s.flag (rSPI_CFG n) fSPI_CFG_target = true) (part : Bool) :
    let u := if part then s.inc (rSPI_CNT_ABORTED n) else s
    let t := u.unitRelease (0x98 + n) true
    (u.unit (0x98 + n)).cs.isSome = true →
      s.spiRelease n part = ((t.setUnit (0x98 + n) { t.unit (0x98 + n) with cs := none }).inc (rSPI_CNT_PACKETS n)).irq (0x98 + n) 2 := by
  intro u t hcs
  exact (if_neg (by simp [hon, hrole])).trans (if_pos hcs)

end Spi

/-- Settles O42: each event finds its unit enabled, and takes the branch of the unit's rule that the premises name. -/
theorem uartAndSpiUnitsAct : Obligations.UartAndSpiUnitsAct := by
  unfold Obligations.UartAndSpiUnitsAct
  refine ⟨fun s n hfield hon => ⟨fun data addr par stop hrx hpin hde hfilter => ⟨fun hchar => ⟨fun hroom => ?kept, fun hfull => ?lost⟩, fun hbreak => ?broke⟩,
      fun cnt t => ⟨rfl, rfl⟩, fun hidle => ?idle, fun htx hitem hfree => ?sends, fun hde => ⟨fun hend => ?ended, fun hend hnone => ?empty⟩,
      fun q v ha hbit => ?sendBreak⟩,
    fun s n hfield hon => ⟨fun hrole miso => ⟨fun hno hmay hitem => ?takes, fun hno hnone => ?pauses, fun hcount hpacket hmay => ?counts⟩,
      fun send miso hrx => ⟨?shift, ?lastShift⟩, fun v b hb => testBit_spiOrder hb, fun q v ha => ⟨fun hnone hcount => ?count, fun hrun => ?warns⟩,
      fun hrole hpin mosi hrx => ?target, fun hrole part hcs => ?release⟩⟩
  case kept =>
    refine congrArg (finish s) ((onField_runs hfield _).trans ((uartRx_heard hon hrx hpin hde hfilter).trans ?_))
    exact (if_neg (by rw [hchar]; exact Bool.false_ne_true)).trans (uartKeep_room _ hroom)
  case lost =>
    refine congrArg (finish s) ((onField_runs hfield _).trans ((uartRx_heard hon hrx hpin hde hfilter).trans ?_))
    exact (if_neg (by rw [hchar]; exact Bool.false_ne_true)).trans (uartKeep_full _ hfull)
  case broke =>
    exact congrArg (finish s) ((onField_runs hfield _).trans ((uartRx_heard hon hrx hpin hde hfilter).trans (if_pos hbreak)))
  case idle => exact congrArg (finish s) ((onField_runs hfield _).trans (uartIdle_ends hon hidle))
  case sends => exact congrArg (finish s) ((onField_runs hfield _).trans (uartTx_sends hon htx hitem hfree))
  case ended => exact congrArg (finish s) ((onField_runs hfield _).trans ((uartRelease_ends hde (.inl hend)).trans (if_pos hend)))
  case empty =>
    exact congrArg (finish s) ((onField_runs hfield _).trans ((uartRelease_ends hde (.inr hnone)).trans (if_neg (by rw [hend]; exact Bool.false_ne_true))))
  case sendBreak => exact exec_writeReg_accepted rfl ha (if_pos hbit)
  case takes =>
    refine congrArg (finish s) ((onField_runs hfield _).trans ((spiFrame_eq hon hrole miso).trans ?_))
    exact (if_neg (by rcases hno with h | h <;> simp [h])).trans (if_neg (by simp [spiMay_iff.2 hmay, hitem]))
  case pauses =>
    refine congrArg (finish s) ((onField_runs hfield _).trans ((spiFrame_eq hon hrole miso).trans ?_))
    exact (if_neg (by rcases hno with h | h <;> simp [h])).trans (if_pos (by simp [hnone]))
  case counts =>
    refine congrArg (finish s) ((onField_runs hfield _).trans ((spiFrame_eq hon hrole miso).trans ?_))
    exact (if_pos (by simp [hcount, hpacket])).trans (if_neg (by simp [spiMay_iff.2 hmay]))
  case shift => exact spiShift_sends send miso false hrx
  case lastShift => exact spiShift_sends send miso true hrx
  case count => exact exec_writeReg_accepted rfl ha (spiCmdFx_free hnone hcount)
  case warns => exact exec_writeReg_accepted rfl ha (spiCmdFx_running hrun)
  case target => exact congrArg (finish s) ((onField_runs hfield _).trans (spiTarget_sends hon hrole hpin mosi hrx))
  case release => exact congrArg (finish s) ((onField_runs hfield _).trans (spiRelease_ends hon hrole part hcs))
end Sys2Proof.Machine
end

section
/-! PROOF. O43: I2C units (R353 to R359). -/
namespace Sys2Proof.Machine

section I2c

variable {s : State} {n : Nat}

/-- A controller with an item and room for its answer carries it out (R355, R356). -/
theorem iicCommand_item (hon : s.enabled (0xA0 + n) = true) (hrole : s.flag (rIIC_CFG n) fIIC_CFG_controller_en = true)
    (hitem : s.fqHasTx (n / 2) (iicQ n) = true) (hhold : (s.fq (n / 2) (iicQ n)).hold.length < 4) (hskip : (s.unit (0xA0 + n)).skip = false)
    (b : IicBus) (data : Nat) {op : Nat} (hop : (s.fqTake (n / 2) (iicQ n)).1.item / 2 ^ 13 % 8 = op) : s.iicCommand n b data =
      let x := s.unit (0xA0 + n)
      let r := s.fqTake (n / 2) (iicQ n)
      let t := r.2.setUnit (0xA0 + n) { x with inPacket := true }
      if !(decide (op ≤ 3) && (x.inPacket || decide (op = 2)) && (x.bus || decide (op = 2))) then t.iicEnd n 7 (!r.1.last)
      else
        let u := if op = 2 then (t.setUnit (0xA0 + n) { t.unit (0xA0 + n) with bus := true }).emit (.i2c n 2 (r.1.item % 256))
          else if op = 0 then t.emit (.i2c n 0 (r.1.item % 256))
          else if op = 1 then t.emit (.i2c n (if r.1.item.testBit 8 then 4 else 1) 0)
          else t
        if b = .lost then u.iicEnd n 4 (!r.1.last)
        else if b = .error then u.iicEnd n 5 (!r.1.last)
        else if b = .nack && op = 2 then u.iicEnd n 2 (!r.1.last)
        else if b = .nack && op = 0 then u.iicEnd n 3 (!r.1.last)
        else
          let w := if op = 1 then u.fqProduce (n / 2) (iicQ n) (data % 256) false else if op = 3 then u.iicStop n else u
          if r.1.last then w.iicEnd n 1 false else w := by
  subst hop
  exact (if_neg (by simp [hon, hrole, hitem, Nat.not_le.2 hhold])).trans (if_neg (by rw [hskip]; exact Bool.false_ne_true))

theorem iicTimeout_eq (hon : s.enabled (0xA0 + n) = true) (htime : s.get (rIIC_TIME n) fIIC_TIME_timeout ≠ 0) : s.iicTimeout n =
    if ((s.inc (rIIC_CNT_TIMEOUT n)).unit (0xA0 + n)).inPacket then (s.inc (rIIC_CNT_TIMEOUT n)).iicEnd n 6 true
    else (s.inc (rIIC_CNT_TIMEOUT n)).irq (0xA0 + n) 4 := if_neg (by simp [hon, htime])

/-- A bus clear of a unit that does not hold the bus fails while SDA stays low (R359). -/
theorem iicCmdFx_clears {v : Word} (hclear : bitOf v 0 = true) (hstop : bitOf v 1 = false) (hfree : (s.unit (0xA0 + n)).bus = false) : iicCmdFx n v s =
    if (s.emit (.i2c n 5 0)).inputLevel (n / 2) (0x30 + 2 * (n % 2) + 1) true then s.emit (.i2c n 5 0)
    else (((s.emit (.i2c n 5 0)).inc (rIIC_CNT_BUS_ERR n)).irq (0xA0 + n) 4).unitFault (0xA0 + n) :=
  (if_neg (by rw [hstop]; exact Bool.false_ne_true)).trans (if_pos (by simp [hclear, hfree]))

theorem iicCmdFx_stops {v : Word} (hclear : bitOf v 0 = false) (hstop : bitOf v 1 = true) (hheld : (s.unit (0xA0 + n)).bus = true) : iicCmdFx n v s =
    (s.setUnit (0xA0 + n) { s.unit (0xA0 + n) with bus := false }).emit (.i2c n 3 0) := by
  have hkept : (bitOf v 0 && !(s.unit (0xA0 + n)).bus) = false := by rw [hclear, Bool.false_and]
  unfold iicCmdFx
  dsimp only
  rw [if_pos hstop, hkept, if_neg Bool.false_ne_true]
  exact if_pos hheld

/-- A byte that the bus writes to an addressed target (R357). -/
theorem iicTarget_written (hon : s.enabled (0xA0 + n) = true) (hrole : s.flag (rIIC_CFG n) fIIC_CFG_target_en = true)
    (haddr : (s.unit (0xA0 + n)).addressed = true) (byte : Nat) : s.iicTarget n (.written byte) =
      (s.iicTake n (byte % 256) (s.get (rIIC_CFG n) fIIC_CFG_stretch_limit = 0)).2 :=
  (if_neg (by simp [hon, hrole])).trans (if_pos haddr)

theorem iicTake_credit {item : Nat} {limit : Bool} (hhold : (s.fq (n / 2) (iicQ n)).hold = []) (hcredit : (s.fq (n / 2) (iicQ n)).credits ≠ 0) :
    s.iicTake n item limit =
      (true, ((s.setUnit (0xA0 + n) { s.unit (0xA0 + n) with stretch := 0 }).unitItem (0xA0 + n) item).emit (.i2c n 1 0)) :=
  if_pos (by simp [hhold, hcredit])

theorem iicTake_stretch {item : Nat} (hcredit : (s.fq (n / 2) (iicQ n)).credits = 0) :
    s.iicTake n item false = (false, s.setUnit (0xA0 + n) { s.unit (0xA0 + n) with stretch := 1 }) :=
  (if_neg (by simp [hcredit])).trans (if_neg Bool.false_ne_true)

theorem iicLimit_nacks (h : (s.unit (0xA0 + n)).stretch = 1) : s.iicLimit n =
    (((s.setUnit (0xA0 + n) { s.unit (0xA0 + n) with stretch := 0 }).inc (rIIC_CNT_T_OVERRUN n)).unitFault (0xA0 + n)).emit (.i2c n 4 0) := if_pos h

end I2c

/-- Settles O43: the item's operation and the answer of the bus choose the branch of the controller's rule. -/
theorem i2cUnitsAct : Obligations.I2cUnitsAct := by
  unfold Obligations.I2cUnitsAct
  intro s n hfield hon
  refine ⟨fun hrole hitem hhold hskip b data => ⟨fun hop hlast => ?start, fun hop hpacket hbus hok => ?write, fun hop hpacket => ?outside⟩,
    fun htime => ⟨fun hpacket => ?timeoutEnds, fun hpacket => ?timeout⟩,
    fun q v ha => ⟨fun hclear hstop hfree => ⟨fun hhigh => ?cleared, fun hlow => ?failed⟩, fun hclear hstop hheld => ?stopped⟩,
    fun hrole haddr byte => ⟨fun hheld hcredit => ?taken, fun hcredit hlimit => ?stretched⟩, fun hstretch => ?nacked, fun hrole => ?targetStop⟩
  case start =>
    have hrun := iicCommand_item hon hrole hitem hhold hskip b data hop
    refine ⟨fun hb => ?_, fun hb => ?_, fun hb => ?_, fun hb => ?_⟩
    · exact congrArg (finish s) ((onField_runs hfield _).trans (hrun.trans (by simp [hlast, hb])))
    · exact congrArg (finish s) ((onField_runs hfield _).trans (hrun.trans (by simp [hlast, hb])))
    · exact congrArg (finish s) ((onField_runs hfield _).trans (hrun.trans (by simp [hlast, hb])))
    · exact congrArg (finish s) ((onField_runs hfield _).trans (hrun.trans (by simp [hlast, hb])))
  case write =>
    exact congrArg (finish s) ((onField_runs hfield _).trans ((iicCommand_item hon hrole hitem hhold hskip b data hop).trans (by simp [hpacket, hbus, hok])))
  case outside =>
    exact congrArg (finish s) ((onField_runs hfield _).trans ((iicCommand_item hon hrole hitem hhold hskip b data hop).trans (if_pos (by simp [hpacket]))))
  case timeoutEnds => exact congrArg (finish s) ((onField_runs hfield _).trans ((iicTimeout_eq hon htime).trans (if_pos hpacket)))
  case timeout =>
    exact congrArg (finish s) ((onField_runs hfield _).trans ((iicTimeout_eq hon htime).trans (if_neg (by rw [hpacket]; exact Bool.false_ne_true))))
  case cleared => exact exec_writeReg_accepted rfl ha ((iicCmdFx_clears hclear hstop hfree).trans (if_pos hhigh))
  case failed => exact exec_writeReg_accepted rfl ha ((iicCmdFx_clears hclear hstop hfree).trans (if_neg (by rw [hlow]; exact Bool.false_ne_true)))
  case stopped => exact exec_writeReg_accepted rfl ha (iicCmdFx_stops hclear hstop hheld)
  case taken =>
    exact congrArg (finish s) ((onField_runs hfield _).trans ((iicTarget_written hon hrole haddr byte).trans (congrArg Prod.snd (iicTake_credit hheld hcredit))))
  case stretched =>
    refine congrArg (finish s) ((onField_runs hfield _).trans ((iicTarget_written hon hrole haddr byte).trans ?_))
    rw [decide_eq_false hlimit, iicTake_stretch hcredit]
  case nacked => exact congrArg (finish s) ((onField_runs hfield _).trans (iicLimit_nacks hstretch))
  case targetStop => exact congrArg (finish s) (if_pos (by simp [hfield, hon, hrole]))
end Sys2Proof.Machine
end

section
/-! PROOF. O44: CAN controllers, their frames, errors and recovery (R360 to R377). -/
namespace Sys2Proof.Machine

/-! ### Frames (R365 to R373) -/

section Frames

variable {s : State} {n : Nat}

/-- A complete packet at a controller that loads: into the free buffer it names, refused, or it waits (R366, R367). -/
theorem canLoad_packet {items : List Nat} (hstate : s.canState n ≤ 1) (hon : s.enabled (0x90 + n) = true)
    (hlisten : s.flag (rCANF_CFG n) fCANF_CFG_listen_only = false) (hqueue : s.fqOn (n / 2) (canQ n) = true)
    (hpacket : canPacket (s.fq (n / 2) (canQ n)).tx = some items) : s.canLoad n =
      match s.canSlot n (ctlBuf (nthD items 1 (3 * 2 ^ 30))) with
      | none => s.setCan n { s.can n with waiting := true }
      | some b =>
        let t := s.canTake items.length (n / 2) (canQ n)
        let u := t.setCan n { t.can n with waiting := false }
        if canRefused (s.flag (rCANF_CFG n) fCANF_CFG_fd_en) items then (u.inc (rCANF_CNT_TX_BAD n)).canFault n
        else (u.setCan n ((u.can n).setBuf b ⟨nthD items 0 0, nthD items 1 0, items.drop 2⟩)).setReg (rCANF_TXB n b)
          (toW (2 ^ 30 + nthD items 1 0 % 2 ^ 16)) := by
  unfold State.canLoad
  dsimp only
  rw [if_neg (by simp [hon, hlisten, hqueue]; omega), hpacket] <;> rfl

/-- With no injected error armed a read of buffer memory is good. -/
theorem canEcc_none (h : s.armed (0x90 + n) 0 = none) : s.canEcc n = (false, s) := by
  unfold State.canEcc
  rw [h]

/-- A controller that takes part and sends puts the chosen buffer on the bus (R368, R369). -/
theorem canChoose_picks {b : Nat} (hstate : s.canState n ≤ 1) (hon : s.enabled (0x90 + n) = true) (hjoined : (s.can n).joined = true)
    (hlisten : s.flag (rCANF_CFG n) fCANF_CFG_listen_only = false) (hbus : s.canOnBus n = none) (hpick : s.canPick n = some b)
    (hecc : s.armed (0x90 + n) 0 = none) :
    let t := (s.put (rCANF_TXB n b) fCANF_TXB_state 2).incSat (rCANF_TXB n b) fCANF_TXB_attempts
    let f := (t.can n).buf b
    s.canChoose n = if t.flag (rCANF_EXP n) fCANF_EXP_loopback then t else t.emit (.can n f.hdr f.ctl (canFdf f.hdr && t.canState n = 1) f.data) := by
  unfold State.canChoose
  rw [if_neg (by simp [hon, hjoined, hlisten, hbus]; omega), hpick]
  simp only [canEcc_none hecc, Bool.false_eq_true, if_false]

/-- A frame sent without delay measurement and own reception (R369). -/
theorem canDone_plain {b age measured : Nat} (hbus : s.canOnBus n = some b) : let t := (s.canFree n b 1).inc (rCANF_CNT_TX_FRAMES n)
    let u := t.canCounts n (t.canTec n - 1) (t.canRec n)
    u.flag (rCANF_TDC n) fCANF_TDC_tdc_en = false → u.flag (rCANF_EXP n) fCANF_EXP_rx_own = false → s.canDone n age measured = u.canIdle n := by
  intro t u htdc hown
  unfold State.canDone
  rw [hbus]
  dsimp only
  rw [htdc, Bool.false_and, Bool.false_and, Bool.false_and, if_neg Bool.false_ne_true, hown, if_neg Bool.false_ne_true]

/-- A frame of another node that the controller hears at its pin (R371). -/
theorem canRx_heard {hdr dlc : Nat} {brs esi : Bool} {data : List Byte} {age : Nat} (hhears : s.canHears n = true)
    (hloop : s.flag (rCANF_EXP n) fCANF_EXP_loopback = false) (hpin : s.routed (n / 2) (0x34 + 2 * (n % 2) + 1) = true) :
    s.canRx n hdr dlc brs esi data age =
      if canFdf hdr && !s.flag (rCANF_CFG n) fCANF_CFG_fd_en then s.canError n 2 (rCANF_CNT_FORM_ERR n) false false .plain
      else ((s.recGood n).canPass n hdr dlc brs esi data age).canIdle n := if_neg (by simp [hhears, hloop, hpin])

/-- With no filter enabled none matches. -/
theorem canFilter_none (hnone : ∀ k : Fin 32, s.get (rCANF_FILT_ID n k) fCANF_FILT_ID_enable = 0) (hdr : Nat) : s.canFilter n hdr = none := by
  refine List.find?_eq_none.2 fun k hk => ?_
  have hoff : fldOf (s.reg (rCANF_FILT_ID n k)) fCANF_FILT_ID_enable = 0 := hnone ⟨k, List.mem_range.1 hk⟩
  simp [hoff]

/-- An extended classic frame with no filter enabled goes where FILT_CFG says (R371). -/
theorem canPass_unfiltered {hdr dlc : Nat} {data : List Byte} {age : Nat} (hfdf : canFdf hdr = false) (hide : canIde hdr = true) (hhdr : hdr < 2 ^ 32)
    (hnone : ∀ k : Fin 32, s.get (rCANF_FILT_ID n k) fCANF_FILT_ID_enable = 0) : s.canPass n hdr dlc false false data age =
      if s.flag (rCANF_FILT_CFG n) fCANF_FILT_CFG_default then
        s.canStore n hdr (dlc % 16 * 2 ^ 16 + 2 ^ 26) data (canLen false (canRtr hdr) (dlc % 16)) age
      else s.inc (rCANF_CNT_FILTERED n) := by
  have hzero : b2n false = 0 := rfl
  unfold State.canPass
  simp only [hfdf, Bool.false_eq_true, if_false, Nat.mod_eq_of_lt hhdr, hide, if_true, canFilter_none hnone, Bool.false_and, hzero, Nat.zero_mul, Nat.zero_add]

end Frames

/-! ### Errors (R360, R369, R370, R374) -/

section Errors

variable {s : State} {n : Nat}

/-- The states with a bus error counted and shown. -/
def State.canShown (s : State) (n code cnt : Nat) (dataPhase : Bool) : State :=
  ((s.inc cnt).put (rCANF_ERR n) fCANF_ERR_lec code).put (rCANF_ERR n) fCANF_ERR_lec_data (b2n dataPhase)

/-- A receiver's error is charged to REC (R374). -/
theorem canError_receiver (code cnt : Nat) (dataPhase : Bool) (charge : CanCharge) : let t := s.canShown n code cnt dataPhase
    s.canError n code cnt dataPhase false charge =
      (if charge = .none then t else t.canCounts n (t.canTec n) (t.canRec n + (if charge = .more then 8 else 1))).canIdle n := rfl

/-- A transmitter's error is charged to TEC, and its frame waits again without one-shot (R369, R370, R374). -/
theorem canError_transmitter {b : Nat} (code cnt : Nat) (dataPhase : Bool) : let t := s.canShown n code cnt dataPhase
    t.canOnBus n = some b → t.canBufState n b = 2 → t.flag (rCANF_CFG n) fCANF_CFG_one_shot = false →
    let u := t.put (rCANF_TXB n b) fCANF_TXB_state 1
    s.canError n code cnt dataPhase true .plain = (u.canCounts n (u.canTec n + 8) (u.canRec n)).canIdle n := by
  intro t hbus hsent hshot u
  have hframe : (match t.canOnBus n with
      | none => t
      | some b => if t.canBufState n b = 3 then t.canFree n b 4 else if t.flag (rCANF_CFG n) fCANF_CFG_one_shot then t.canFree n b 3
        else t.put (rCANF_TXB n b) fCANF_TXB_state 1) = u := by
    rw [hbus]
    dsimp only
    rw [hsent, hshot]
    rfl
  exact congrArg (fun w : State => (w.canCounts n (w.canTec n + 8) (w.canRec n)).canIdle n) hframe

/-- A bus error other than a recessive res bit, at a controller that hears it, by its code and counter. -/
theorem canBusError_of_mem {e : CanErr × Nat × Nat} (hhears : s.canHears n = true)
    (he : e ∈ [(CanErr.stuff, 1, rCANF_CNT_STUFF_ERR n), (.form, 2, rCANF_CNT_FORM_ERR n), (.ack, 3, rCANF_CNT_ACK_ERR n),
      (.bitRec, 4, rCANF_CNT_BIT_ERR n), (.bitDom, 5, rCANF_CNT_BIT_ERR n), (.crc, 6, rCANF_CNT_CRC_ERR n)]) (dataPhase tx : Bool) (charge : CanCharge) :
    s.canBusError n e.1 dataPhase tx charge = s.canError n e.2.1 e.2.2 dataPhase (tx && (s.canOnBus n).isSome) charge := by
  have hheard : ¬ (!s.canHears n) = true := by rw [hhears]; exact Bool.false_ne_true
  simp only [List.mem_cons, List.not_mem_nil, or_false] at he
  rcases he with rfl | rfl | rfl | rfl | rfl | rfl <;> exact if_neg hheard

theorem canBusError_res (hhears : s.canHears n = true) (hpex : s.flag (rCANF_CFG n) fCANF_CFG_pex_en = true) (dataPhase tx : Bool) (charge : CanCharge) :
    s.canBusError n .res dataPhase tx charge = (s.inc (rCANF_CNT_PEX n)).setCan n { s.can n with joined := false } :=
  (if_neg (by rw [hhears]; exact Bool.false_ne_true)).trans (if_pos hpex)

/-- Lost arbitration is counted, and the frame waits again without one-shot (R369, R370). -/
theorem canArbLost_again {b : Nat} (hbus : s.canOnBus n = some b) (hsent : (s.inc (rCANF_CNT_ARB_LOST n)).canBufState n b = 2)
    (hshot : (s.inc (rCANF_CNT_ARB_LOST n)).flag (rCANF_CFG n) fCANF_CFG_one_shot = false) :
    s.canArbLost n = ((s.inc (rCANF_CNT_ARB_LOST n)).put (rCANF_TXB n b) fCANF_TXB_state 1).canIdle n := by
  unfold State.canArbLost
  rw [hbus]
  dsimp only
  rw [hsent, hshot]
  rfl

end Errors

/-! ### Commands and recovery (R370, R376, R377) -/

section Commands

variable {s : State} {n : Nat} {v : Word}

/-- What an abort does with buffer b (R370). -/
def State.canAbortBuf (s : State) (n b : Nat) : State :=
  if s.canBufState n b = 1 then s.canFree n b 4 else if s.canBufState n b = 2 then s.put (rCANF_TXB n b) fCANF_TXB_state 3 else s

theorem canCmdFx_abort (b : Fin 3) (hb : bitOf v b = true) (hothers : ∀ d : Fin 3, d ≠ b → bitOf v d = false) (hrecover : bitOf v 8 = false) :
    canCmdFx n v s = s.canAbortBuf n b := by
  have hfold : [0, 1, 2].foldl (fun (s : State) b => if bitOf v b then s.canAbortBuf n b else s) s = s.canAbortBuf n b := by
    refine (foldl_eq_of_unique (a := b.val) (by fin_cases b <;> simp) (by decide) (fun t d hd hne => ?_) s).trans (if_pos hb)
    have hd3 : d < 3 := by simp at hd; omega
    exact if_neg (by rw [hothers ⟨d, hd3⟩ fun h => hne (congrArg Fin.val h)]; exact Bool.false_ne_true)
  exact (if_neg (by rw [hrecover, Bool.false_and]; exact Bool.false_ne_true)).trans hfold

theorem canCmdFx_recover (hnone : ∀ d : Fin 3, bitOf v d = false) (hrecover : bitOf v 8 = true) : canCmdFx n v s =
    if s.canState n = 2 then ((s.put (rCANF_ERR n) fCANF_ERR_state 3).put (rCANF_STATUS n) fCANF_STATUS_recover_count 0).irq (0x90 + n) 5 else s := by
  have hfold : [0, 1, 2].foldl (fun (s : State) b => if bitOf v b then s.canAbortBuf n b else s) s = s := by
    refine foldl_eq_self fun d hd => ?_
    have hd3 : d < 3 := by simp at hd; omega
    exact if_neg (by rw [hnone ⟨d, hd3⟩]; exact Bool.false_ne_true)
  have hcmd : canCmdFx n v s = let t := [0, 1, 2].foldl (fun (s : State) b => if bitOf v b then s.canAbortBuf n b else s) s
      if bitOf v 8 && t.canState n = 2 then
        ((t.put (rCANF_ERR n) fCANF_ERR_state 3).put (rCANF_STATUS n) fCANF_STATUS_recover_count 0).irq (0x90 + n) 5 else t := rfl
  rw [hcmd, hfold, hrecover]
  simp only [Bool.true_and, decide_eq_true_eq]

/-- A mask that lies above a field leaves nothing of it. -/
theorem fldOf_and_maskOf {w : Word} {f : Fld} {hi lo : Nat} (hf : f.hi < lo) : fldOf (w &&& maskOf hi lo) f = 0 := by
  refine Nat.eq_of_testBit_eq fun i => ?_
  unfold fldOf maskOf
  rw [natBits_testBit, BitVec.toNat_and, Nat.testBit_and, BitVec.toNat_ofNat, Nat.testBit_mod_two_pow, Nat.testBit_shiftLeft, Nat.zero_testBit]
  simp
  omega

/-- The end of recovery leaves the controller error active with both counts at 0 (R376, R377). -/
theorem canRecovered_active (n : Fin 8) (h : s.canState n = 3) : (s.canRecovered n).canState n = 0 ∧ (s.canRecovered n).canTec n = 0 ∧
    (s.canRecovered n).canRec n = 0 ∧ ((s.canRecovered n).can n).joined = s.flag (rPG_CTRL (0x90 + n)) fPG_CTRL_enable := by
  have hirq : rCANF_ERR n ≠ rPG_IRQ_STAT (0x90 + n) := by dsimp only [rCANF_ERR, rPG_IRQ_STAT]; omega
  have hstatus : rCANF_ERR n ≠ rCANF_STATUS n := by dsimp only [rCANF_ERR, rCANF_STATUS]; omega
  have hctrl : rPG_CTRL (0x90 + n) ≠ rCANF_STATUS n := by dsimp only [rPG_CTRL, rCANF_STATUS]; omega
  have hctrl' : rPG_CTRL (0x90 + n) ≠ rCANF_ERR n := by dsimp only [rPG_CTRL, rCANF_ERR]; omega
  have hrec : s.canRecovered n = _ := if_pos h
  have herr : (s.canRecovered n).reg (rCANF_ERR n) = s.reg (rCANF_ERR n) &&& maskOf 30 27 := by
    rw [hrec, reg_irq, if_neg hirq, reg_irq, if_neg hirq, reg_setCan, reg_put, if_neg hstatus, reg_setReg_same]
  have hzero (f : Fld) (hf : f.hi < 27) : (s.canRecovered n).get (rCANF_ERR n) f = 0 := by
    unfold State.get
    rw [herr, fldOf_and_maskOf hf]
  refine ⟨hzero _ (by decide), hzero _ (by decide), hzero _ (by decide), ?_⟩
  rw [hrec]
  have hflag : ((s.setReg (rCANF_ERR n) (s.reg (rCANF_ERR n) &&& maskOf 30 27)).put (rCANF_STATUS n) fCANF_STATUS_recover_count 128).flag
      (rPG_CTRL (0x90 + n)) fPG_CTRL_enable = s.flag (rPG_CTRL (0x90 + n)) fPG_CTRL_enable :=
    flag_congr _ (by rw [reg_put, if_neg hctrl, reg_setReg_ne _ _ hctrl'])
  rw [State.irq, State.irqBits, can_setReg, State.irq, State.irqBits, can_setReg, can_setCan]
  exact hflag

theorem canIntegrate_joins (hstate : s.canState n ≤ 1) (hon : s.flag (rPG_CTRL (0x90 + n)) fPG_CTRL_enable = true) :
    s.canIntegrate n = s.setCan n { s.can n with joined := true } :=
  (if_neg (by omega)).trans (if_pos (by simp [hstate, hon]))

theorem canIntegrate_counts (hstate : s.canState n = 3) (hcount : s.get (rCANF_STATUS n) fCANF_STATUS_recover_count < 127) :
    s.canIntegrate n = s.put (rCANF_STATUS n) fCANF_STATUS_recover_count (s.get (rCANF_STATUS n) fCANF_STATUS_recover_count + 1) :=
  (if_pos hstate).trans (if_neg (Nat.not_le.2 hcount))

end Commands

/-- Settles O44: each event at a controller that hears the bus takes the branch of its rule that the premises name. -/
theorem canControllersAct : Obligations.CanControllersAct := by
  unfold Obligations.CanControllersAct
  refine ⟨fun s n hfield hstate => ⟨fun items hon hlisten hqueue hpacket => ⟨fun b hslot => ⟨fun hgood => ?loads, fun hbad => ?refuses⟩, fun hslot => ?waits⟩,
      fun b hon hjoined hlisten hbus hpick hecc hloop => ?chooses, fun b age measured hbus htdc hown => ?done,
      fun hdr dlc brs esi data age hhears hloop hpin => ⟨fun hclassic => ?classic, fun hfd hoff => ?formError⟩,
      fun hdr dlc data age hfdf hide hhdr hnone => ⟨fun hoff => ?filtered, fun hdefault => ?stored⟩⟩,
    fun s n hfield => ⟨fun hhears dataPhase e he => ⟨fun hbus tx => ?receives, fun b hsome hbus hsent hshot => ?transmits⟩,
      fun hhears hpex dataPhase tx charge => ?exception, fun b hbus hsent hshot => ?lost,
      fun q v ha => ⟨fun b hb hothers hrecover => ⟨fun h => ?freed, fun h => ?marked, fun h => ?nothing⟩, fun hnone hrecover => ⟨fun h => ?recovers, fun h => ?ignored⟩⟩,
      fun h => ⟨_, congrArg (finish s) (onField_runs hfield _), canRecovered_active n h⟩, fun hstate hon => ?joins, fun hstate hcount => ?counts⟩⟩
  case loads =>
    refine congrArg (finish s) ((onField_runs hfield _).trans ((canLoad_packet hstate hon hlisten hqueue hpacket).trans ?_))
    rw [hslot]
    exact if_neg (by rw [hgood]; exact Bool.false_ne_true)
  case refuses =>
    refine congrArg (finish s) ((onField_runs hfield _).trans ((canLoad_packet hstate hon hlisten hqueue hpacket).trans ?_))
    rw [hslot]
    exact if_pos hbad
  case waits =>
    refine congrArg (finish s) ((onField_runs hfield _).trans ((canLoad_packet hstate hon hlisten hqueue hpacket).trans ?_))
    rw [hslot]
  case chooses =>
    refine congrArg (finish s) ((onField_runs hfield _).trans ((canChoose_picks hstate hon hjoined hlisten hbus hpick hecc).trans (if_neg ?_)))
    rw [hloop]
    exact Bool.false_ne_true
  case done => exact congrArg (finish s) ((onField_runs hfield _).trans (canDone_plain hbus htdc hown))
  case classic =>
    exact congrArg (finish s) ((onField_runs hfield _).trans ((canRx_heard hhears hloop hpin).trans (if_neg (by rw [hclassic, Bool.false_and]; exact Bool.false_ne_true))))
  case formError => exact congrArg (finish s) ((onField_runs hfield _).trans ((canRx_heard hhears hloop hpin).trans (if_pos (by rw [hfd, hoff]; rfl))))
  case filtered => exact (canPass_unfiltered hfdf hide hhdr hnone).trans (if_neg (by rw [hoff]; exact Bool.false_ne_true))
  case stored => exact (canPass_unfiltered hfdf hide hhdr hnone).trans (if_pos hdefault)
  case receives =>
    have herror (charge : CanCharge) : s.canBusError n e.1 dataPhase tx charge = s.canError n e.2.1 e.2.2 dataPhase false charge := by
      rw [canBusError_of_mem hhears he, hbus]
      exact congrArg (s.canError n e.2.1 e.2.2 dataPhase · charge) (Bool.and_false tx)
    refine ⟨?_, ?_, ?_⟩
    · exact congrArg (finish s) ((onField_runs hfield _).trans ((herror .none).trans (canError_receiver ..)))
    · exact congrArg (finish s) ((onField_runs hfield _).trans ((herror .plain).trans (canError_receiver ..)))
    · exact congrArg (finish s) ((onField_runs hfield _).trans ((herror .more).trans (canError_receiver ..)))
  case transmits =>
    refine congrArg (finish s) ((onField_runs hfield _).trans ((canBusError_of_mem hhears he dataPhase true .plain).trans ?_))
    rw [hsome]
    exact canError_transmitter e.2.1 e.2.2 dataPhase hbus hsent hshot
  case exception => exact congrArg (finish s) ((onField_runs hfield _).trans (canBusError_res hhears hpex dataPhase tx charge))
  case lost => exact congrArg (finish s) ((onField_runs hfield _).trans (canArbLost_again hbus hsent hshot))
  case freed => exact exec_writeReg_accepted rfl ha ((canCmdFx_abort b hb hothers hrecover).trans (if_pos h))
  case marked => exact exec_writeReg_accepted rfl ha ((canCmdFx_abort b hb hothers hrecover).trans ((if_neg (by omega)).trans (if_pos h)))
  case nothing => exact exec_writeReg_accepted rfl ha ((canCmdFx_abort b hb hothers hrecover).trans ((if_neg (by omega)).trans (if_neg (by omega))))
  case recovers => exact exec_writeReg_accepted rfl ha ((canCmdFx_recover hnone hrecover).trans (if_pos h))
  case ignored => exact exec_writeReg_accepted rfl ha ((canCmdFx_recover hnone hrecover).trans (if_neg h))
  case joins => exact congrArg (finish s) ((onField_runs hfield _).trans (canIntegrate_joins hstate hon))
  case counts => exact congrArg (finish s) ((onField_runs hfield _).trans (canIntegrate_counts hstate hcount))
end Sys2Proof.Machine
end

section
/-! PROOF. O48 and O49: the Ethernet MACs receive and send (R416 to R428), and report a half-duplex link (R417). -/
namespace Sys2Proof.Machine

/-! ### What the counters of a MAC leave -/

section Counters

variable {s t u : State} {m : Nat}

/-- The register is none that a count of MAC m writes: no counter, no half-way mark, not the interrupt status of its page. -/
def NoCounter (m a : Nat) : Prop := a ≠ rPG_IRQ_STAT (0x70 + m) ∧ a ≠ rxx_CNT_HALF m ∧ a ≠ rxx_CNT_HALF_HI m ∧ ∀ i, a ≠ rxx_CNT m i

/-- The states agree but for the counters of MAC m. -/
def Counted (m : Nat) (s t : State) : Prop := t = { s with regs := t.regs } ∧ ∀ a, NoCounter m a → t.reg a = s.reg a

theorem Counted.refl (s : State) : Counted m s s := ⟨rfl, fun _ _ => rfl⟩

theorem Counted.trans (h : Counted m s t) (h' : Counted m t u) : Counted m s u :=
  ⟨h'.1.trans (congrArg (fun x : State => { x with regs := u.regs }) h.1), fun a ha => (h'.2 a ha).trans (h.2 a ha)⟩

theorem counted_macHalf (s : State) (i : Nat) : Counted m s (s.macHalf m i) := by
  refine ⟨rfl, fun a ha => ?_⟩
  obtain ⟨hirq, hlo, hhi, -⟩ := ha
  unfold State.macHalf
  dsimp only
  rw [reg_irq, if_neg hirq]
  split
  · exact reg_setReg_ne _ _ hlo
  · exact reg_setReg_ne _ _ hhi

theorem counted_macCnt (s : State) (i n : Nat) : Counted m s (s.macCnt m i n) := by
  have hadd : Counted m s (s.addCnt (rxx_CNT m i) n) := ⟨rfl, fun a ha => reg_setReg_ne _ _ (ha.2.2.2 i)⟩
  unfold State.macCnt
  dsimp only
  split
  · exact hadd
  · exact hadd.trans (counted_macHalf ..)

/-- The counters of a received frame (R427). -/
theorem counted_macRxCount (s : State) (l : List Byte) (badFcs part phy : Bool) : Counted m s (s.macRxCount m l badFcs part phy) := by
  have hstep (c : Prop) [Decidable c] (i n : Nat) (x : State) : Counted m x (if c then x.macCnt m i n else x) := by
    split
    · exact counted_macCnt ..
    · exact .refl x
  have hpause (x : State) : Counted m x (if m = 0 && isPause l then x.macCnt 0 5 1 else x) := by
    split
    · rename_i h
      obtain ⟨hm, -⟩ := Bool.and_eq_true_iff.1 h
      obtain rfl := of_decide_eq_true hm
      exact counted_macCnt ..
    · exact .refl x
  have hgood (c : Prop) [Decidable c] (n i : Nat) (x : State) : Counted m x (if c then x else
      let y := ((x.macCnt m 0 1).macCnt m 1 n).macCnt m i 1
      if m = 0 && isPause l then y.macCnt 0 5 1 else y) := by
    split
    · exact .refl x
    · exact (counted_macCnt ..).trans ((counted_macCnt ..).trans ((counted_macCnt ..).trans (hpause _)))
  have hsize (c : Prop) [Decidable c] (i : Nat) (x : State) : Counted m x (if c then x else x.macCnt m i 1) := by
    split
    · exact .refl x
    · exact counted_macCnt ..
  exact (hstep ..).trans ((hstep ..).trans ((hstep ..).trans ((hstep ..).trans ((hgood ..).trans (hsize ..)))))

theorem Counted.fieldRuns (h : Counted m s t) : t.fieldRuns = s.fieldRuns := (congrArg State.fieldRuns h.1).trans rfl

theorem noCounter_wake : NoCounter m (rxx_WAKE_CFG m) := by
  refine ⟨?_, ?_, ?_, fun i => ?_⟩
  all_goals dsimp only [rxx_WAKE_CFG, rPG_IRQ_STAT, rxx_CNT_HALF, rxx_CNT_HALF_HI, rxx_CNT]; omega

theorem noCounter_status : NoCounter m (rxx_STATUS m) := by
  refine ⟨?_, ?_, ?_, fun i => ?_⟩
  all_goals dsimp only [rxx_STATUS, rPG_IRQ_STAT, rxx_CNT_HALF, rxx_CNT_HALF_HI, rxx_CNT]; omega

end Counters

/-! ### Reception (R416 to R424) -/

section Reception

variable {s : State} {m : Nat}

/-- With no pattern enabled none wakes. -/
theorem wakeHits_none (h : s.reg (rxx_WAKE_CFG m) = 0) (l : List Byte) : s.wakeHits m l = [] := by
  refine List.filter_eq_nil_iff.2 fun w _ => ?_
  have hbit : bitOf 0 w = false := Nat.zero_testBit w
  rw [h, hbit, Bool.false_and]
  exact Bool.false_ne_true

theorem macEcc_none (h : s.armed (0x70 + m) 0 = none) : s.macEcc m = (false, s) := by
  unfold State.macEcc
  rw [h]

/-- A frame that ends in its FCS. -/
def withFcs (body : List Byte) : List Byte := body ++ leBytes 4 (fcs body).toNat

theorem length_withFcs (body : List Byte) : (withFcs body).length = body.length + 4 := by
  rw [withFcs, List.length_append, length_leBytes]

theorem take_withFcs (body : List Byte) : (withFcs body).take ((withFcs body).length - 4) = body := by
  rw [length_withFcs, Nat.add_sub_cancel, withFcs, List.take_left]

theorem fcs_withFcs (body : List Byte) : leNat ((withFcs body).drop ((withFcs body).length - 4)) = (fcs body).toNat := by
  rw [length_withFcs, Nat.add_sub_cancel, withFcs, List.drop_left, leNat_leBytes]
  exact Nat.mod_eq_of_lt (fcs body).isLt

/-- What a good frame at an enabled receiver comes to, after its counters: lost, a PAUSE, not for this station, without a flow, or segments
(R419 to R424). -/
theorem macRx_good {body : List Byte} {age : Nat} (hon : s.enabled (0x70 + m) = true) (hrx : s.flag (rxx_CFG m) fxx_CFG_rx_en = true)
    (hwired : m = 0 ∨ s.routed (m - 1) 0x3C = true) (hwake : s.reg (rxx_WAKE_CFG m) = 0) (hfield : s.fieldRuns = true)
    (hmin : 64 ≤ (withFcs body).length) (hmax : (withFcs body).length ≤ s.get (rxx_CFG m) fxx_CFG_max_frame) :
    let l := withFcs body
    let t := s.macRxCount m l false false false
    s.macRx m l false false age =
      if (if m = 0 then 32768 else 4096) < t.macFifo m + l.length then ((t.macCnt m 18 1).irq (0x70 + m) 4).macFault m
      else
        let e := t.macEcc m
        if e.1 then e.2
        else if m = 0 && isPause l then
          if fldOf (s.reg (rxx_CFG m)) fxx_CFG_pause_en = 1 then e.2.macPause (beNat (slice l 16 2)) else e.2
        else if !e.2.macAccepts m l then e.2
        else
          let base := t.base (natBits (t.reg rTSU_BASE_SEL).toNat (2 * m + 1) (2 * m))
          let u := if m = 0 then e.2.tunnelOut body ((((e.2.servo.island : Int) - age) * 10 - e.2.rxComp 4) / 10).toNat else e.2
          let g := if m = 0 && isPtp body 9 then u.takeResidence body else (body, u)
          let l' := if g.1 = body then l else g.1 ++ leBytes 4 (fcs g.1).toNat
          match g.2.macFlow m l' with
          | none => (g.2.macCnt m 19 1).irq (0x70 + m) 4
          | some f => g.2.macSegments m f (if g.2.flag (rxx_EXP m) fxx_EXP_keep_fcs then l' else g.1) false
              ((((base.total : Int) - age) * 10 - t.rxComp (4 + m)) / 10).toNat := by
  intro l t
  have hcounted : Counted m s t := counted_macRxCount ..
  have hhits : t.wakeHits m l = [] := wakeHits_none ((hcounted.2 _ noCounter_wake).trans hwake) l
  have hruns : t.fieldRuns = true := hcounted.fieldRuns.trans hfield
  have hbad : (false || decide (l.length < 4) || leNat (l.drop (l.length - 4)) != (fcs body).toNat) = false := by
    rw [fcs_withFcs, bne_self_eq_false, Bool.or_false, Bool.false_or]
    exact decide_eq_false (Nat.not_lt.2 (le_trans (by decide) hmin))
  have hshort : decide (l.length < 64) = false := decide_eq_false (Nat.not_lt.2 hmin)
  have hlong : decide (fldOf (s.reg (rxx_CFG m)) fxx_CFG_max_frame < l.length) = false := decide_eq_false (Nat.not_lt.2 hmax)
  have hpin : (!(decide (m = 0) || s.routed (m - 1) 0x3C)) = false := by rcases hwired with h | h <;> simp [h]
  have htake : l.take (l.length - 4) = body := take_withFcs body
  have hnone : t.wakeMatch m [] = t := if_pos rfl
  unfold State.macRx
  refine (if_neg ?_).trans ?_
  · rw [hpin]
    simp [hon, hfield, fldOf_ne_zero hrx]
  · dsimp only
    rw [htake, hbad]
    simp only [hshort, hlong, Bool.false_and, Bool.or_false, Bool.not_false, Bool.true_and, Bool.and_true, Bool.false_eq_true, if_false,
      decide_eq_true_eq]
    rw [show s.macRxCount m l false false false = t from rfl, hhits, hnone, hruns]
    rfl

/-- A good frame that the FIFO takes, with no injected error armed, acts as a PAUSE or is passed to the rules where it is for this station. -/
theorem macRx_taken {body : List Byte} {age : Nat} (hon : s.enabled (0x70 + m) = true) (hrx : s.flag (rxx_CFG m) fxx_CFG_rx_en = true)
    (hwired : m = 0 ∨ s.routed (m - 1) 0x3C = true) (hwake : s.reg (rxx_WAKE_CFG m) = 0) (hfield : s.fieldRuns = true)
    (hmin : 64 ≤ (withFcs body).length) (hmax : (withFcs body).length ≤ s.get (rxx_CFG m) fxx_CFG_max_frame) :
    let l := withFcs body
    let t := s.macRxCount m l false false false
    t.macFifo m + l.length ≤ (if m = 0 then 32768 else 4096) → t.armed (0x70 + m) 0 = none →
    (m = 0 → isPause l = false → t.macAccepts m l = true → bitOf (t.reg rTSU_TUNNEL) 0 = false ∧ isPtp body 9 = false) →
    s.macRx m l false false age =
      if m = 0 && isPause l then (if fldOf (s.reg (rxx_CFG m)) fxx_CFG_pause_en = 1 then t.macPause (beNat (slice l 16 2)) else t)
      else if !t.macAccepts m l then t
      else
        match t.macFlow m l with
        | none => (t.macCnt m 19 1).irq (0x70 + m) 4
        | some f =>
          let base := t.base (natBits (t.reg rTSU_BASE_SEL).toNat (2 * m + 1) (2 * m))
          t.macSegments m f (if t.flag (rxx_EXP m) fxx_EXP_keep_fcs then l else body) false ((((base.total : Int) - age) * 10 - t.rxComp (4 + m)) / 10).toNat := by
  intro l t hroom hecc hevent
  refine (macRx_good hon hrx hwired hwake hfield hmin hmax).trans ((if_neg (Nat.not_lt.2 hroom)).trans ?_)
  have hgood : t.macEcc m = (false, t) := macEcc_none hecc
  dsimp only
  rw [show (s.macRxCount m (withFcs body) false false false).macEcc m = (false, t) from hgood]
  refine (if_neg Bool.false_ne_true).trans ?_
  by_cases hpause : (decide (m = 0) && isPause (withFcs body)) = true
  · rw [if_pos hpause, if_pos hpause]
  · rw [if_neg hpause, if_neg hpause]
    by_cases hmine : (!t.macAccepts m (withFcs body)) = true
    · rw [if_pos hmine, if_pos hmine]
    · have hplain : m = 0 → bitOf (t.reg rTSU_TUNNEL) 0 = false ∧ isPtp body 9 = false :=
        fun hm => hevent hm (by simpa [hm] using hpause) (by simpa using hmine)
      have hptp : (decide (m = 0) && isPtp body 9) = false := by
        by_cases hm : m = 0
        · rw [(hplain hm).2, Bool.and_false]
        · rw [decide_eq_false hm, Bool.false_and]
      have htunnel (at_ : Nat) : (if m = 0 then t.tunnelOut body at_ else t) = t := by
        by_cases hm : m = 0
        · exact (if_pos hm).trans (if_pos (by rw [(hplain hm).1]; rfl))
        · exact if_neg hm
      rw [if_neg hmine, if_neg hmine, htunnel, hptp]
      simp only [Bool.false_eq_true, if_false, if_true]
      rfl

/-- A frame that the line brings with no in-band status between. -/
theorem exec_macFrameReceived (m : Fin 5) (l : List Byte) (age : Nat) : exec (.macFrameReceived m l false false age none) s = finish s (s.macRx m l false false age) := by
  show execMacFrameReceived m l false false age none s = _
  unfold execMacFrameReceived
  dsimp only
  rw [ite_self]

theorem macPause_stops {n : Nat} (hn : n ≠ 0) : (s.macPause n).flag (rxx_STATUS 0) fxx_STATUS_pause_active = true := by
  unfold State.macPause
  dsimp only
  rw [if_neg hn]
  split
  · assumption
  · refine (flag_congr _ ((counted_macCnt ..).2 _ noCounter_status)).trans ?_
    unfold State.flag
    rw [get_put_same _ _ _ _ (by decide) (by decide)]
    rfl

theorem macPause_goes : (s.macPause 0).flag (rxx_STATUS 0) fxx_STATUS_pause_active = false := by
  show (s.put (rxx_STATUS 0) fxx_STATUS_pause_active 0).flag (rxx_STATUS 0) fxx_STATUS_pause_active = false
  unfold State.flag
  rw [get_put_same _ _ _ _ (by decide) (by decide)]
  rfl

end Reception

/-! ### In-band status (R416, R417) -/

section Inband

variable {s : State}

/-- In-band status says half duplex. -/
def inbandHalf (st : Nat) : Bool := st % 2 = 1 && st / 8 % 2 = 0

/-- The state with the link and its speed shown, and the interrupt of a link that changed. -/
def State.linkShown (s : State) (st : Nat) : State :=
  let t := (s.put (rxx_STATUS 0) fxx_STATUS_link_up (st % 2)).put (rxx_STATUS 0) fxx_STATUS_link_speed (min 2 (st / 2 % 4))
  if s.get (rxx_STATUS 0) fxx_STATUS_link_up = st % 2 then t else t.irq 0x70 6

theorem macInband_on (h : s.flag (rxx_CFG 0) fxx_CFG_inband = true) (st : Nat) : s.macInband st =
    (if inbandHalf st && !(s.linkShown st).flag (rxx_STATUS 0) fxx_STATUS_half_duplex then (s.linkShown st).macFault 0 else s.linkShown st).put
      (rxx_STATUS 0) fxx_STATUS_half_duplex (b2n (inbandHalf st)) := if_neg (by rw [h]; exact Bool.false_ne_true)

theorem exec_inbandStatusChange (hon : s.enabled 0x70 = true) (st : Fin 16) : exec (.inbandStatusChange st) s = finish s (s.macInband st) :=
  congrArg (finish s) (if_pos hon)

theorem reg_linkShown (s : State) (st : Nat) {a : Nat} (h : a ≠ rPG_IRQ_STAT 0x70) : (s.linkShown st).reg a =
    ((s.put (rxx_STATUS 0) fxx_STATUS_link_up (st % 2)).put (rxx_STATUS 0) fxx_STATUS_link_speed (min 2 (st / 2 % 4))).reg a := by
  unfold State.linkShown
  dsimp only
  split
  · rfl
  · rw [reg_irq, if_neg h]

/-- The fault of a half-duplex link writes no register. -/
theorem reg_macInband (h : s.flag (rxx_CFG 0) fxx_CFG_inband = true) (st : Nat) : (s.macInband st).reg =
    ((s.linkShown st).put (rxx_STATUS 0) fxx_STATUS_half_duplex (b2n (inbandHalf st))).reg := by
  rw [macInband_on h]
  split <;> rfl

/-- In-band status follows the line (R416, R417). -/
theorem macInband_shows (h : s.flag (rxx_CFG 0) fxx_CFG_inband = true) (st : Nat) : (s.macInband st).get (rxx_STATUS 0) fxx_STATUS_link_up = st % 2 ∧
    (s.macInband st).get (rxx_STATUS 0) fxx_STATUS_link_speed = min 2 (st / 2 % 4) ∧
    (s.macInband st).get (rxx_STATUS 0) fxx_STATUS_half_duplex = b2n (inbandHalf st) := by
  have hreg (f : Fld) : (s.macInband st).get (rxx_STATUS 0) f =
      ((s.linkShown st).put (rxx_STATUS 0) fxx_STATUS_half_duplex (b2n (inbandHalf st))).get (rxx_STATUS 0) f :=
    get_congr f (congrFun (reg_macInband h st) _)
  have hshown (f : Fld) : (s.linkShown st).get (rxx_STATUS 0) f = _ := get_congr f (reg_linkShown s st (by decide))
  refine ⟨?_, ?_, ?_⟩
  · rw [hreg, get_put_other _ _ _ _ _ (by decide) (by decide) (by decide), hshown, get_put_other _ _ _ _ _ (by decide) (by decide) (by decide),
      get_put_same _ _ _ _ (by decide) (by decide)]
    exact Nat.mod_mod st 2
  · rw [hreg, get_put_other _ _ _ _ _ (by decide) (by decide) (by decide), hshown, get_put_same _ _ _ _ (by decide) (by decide)]
    exact Nat.mod_eq_of_lt (Nat.lt_of_le_of_lt (Nat.min_le_left ..) (by decide))
  · rw [hreg, get_put_same _ _ _ _ (by decide) (by decide)]
    exact Nat.mod_eq_of_lt (Nat.lt_succ_of_le (b2n_le_one _))

/-- A link that comes to half duplex raises the fault source and changes nothing of the transmitter (R417). -/
theorem macInband_half (h : s.flag (rxx_CFG 0) fxx_CFG_inband = true) {st : Nat} (hhalf : inbandHalf st = true)
    (hfull : s.flag (rxx_STATUS 0) fxx_STATUS_half_duplex = false) : (∃ e ∈ (s.macInband st).raises, e.source = 112 ∧ e.page = 0x70) ∧
    (s.macInband st).mac 0 = s.mac 0 ∧ (s.macInband st).reg (rxx_CFG 0) = s.reg (rxx_CFG 0) := by
  have hflag : (s.linkShown st).flag (rxx_STATUS 0) fxx_STATUS_half_duplex = false := by
    rw [flag_congr _ (reg_linkShown s st (by decide)), flag_put_other _ _ _ _ _ (by decide) (by decide) (by decide),
      flag_put_other _ _ _ _ _ (by decide) (by decide) (by decide), hfull]
  have hmac : (s.linkShown st).mac 0 = s.mac 0 := by
    unfold State.linkShown
    dsimp only
    split <;> rfl
  refine ⟨?_, ?_, ?_⟩
  · rw [macInband_on h, hhalf, hflag]
    exact ⟨_, List.mem_append_right _ (List.mem_singleton_self _), rfl, rfl⟩
  · rw [macInband_on h, hhalf, hflag]
    exact hmac
  · rw [congrFun (reg_macInband h st), reg_put, if_neg (by decide), reg_linkShown _ _ (by decide), reg_put, if_neg (by decide), reg_put, if_neg (by decide)]

end Inband

/-! ### The counters' commands (R428) -/

section CounterCommands

variable {s : State} {m : Nat}

/-- The first k counters copied. -/
def State.cntFrozen (s : State) (m k : Nat) : State := (List.range k).foldl (fun s i => s.setReg (rxx_SNAP m i) (s.reg (rxx_CNT m i))) s

/-- The first k counters set to 0. -/
def State.cntCleared (s : State) (m k : Nat) : State := (List.range k).foldl (fun s i =>
  let t := s.setReg (rxx_CNT m i) 0
  if bitOf (s.reg (rxx_CNT m i)) 31 then t.macHalf m i else t) s

theorem reg_cntFrozen {k : Nat} (hk : k ≤ 40) : (∀ i, i < k → (s.cntFrozen m k).reg (rxx_SNAP m i) = s.reg (rxx_CNT m i)) ∧
    ∀ a, (∀ i, i < k → a ≠ rxx_SNAP m i) → (s.cntFrozen m k).reg a = s.reg a := by
  induction k with
  | zero => exact ⟨fun i hi => absurd hi (Nat.not_lt_zero i), fun _ _ => rfl⟩
  | succ k ih =>
    obtain ⟨hcopied, hrest⟩ := ih (Nat.le_of_succ_le hk)
    have hlast : s.cntFrozen m (k + 1) = (s.cntFrozen m k).setReg (rxx_SNAP m k) ((s.cntFrozen m k).reg (rxx_CNT m k)) := by
      unfold State.cntFrozen
      rw [List.range_succ, List.foldl_append, List.foldl_cons, List.foldl_nil]
    rw [hlast]
    refine ⟨fun i hi => ?_, fun a ha => ?_⟩
    · by_cases hik : i = k
      · rw [hik, reg_setReg_same, hrest _ fun j hj => by dsimp only [rxx_CNT, rxx_SNAP]; omega]
      · rw [reg_setReg_ne _ _ (by dsimp only [rxx_SNAP]; omega), hcopied i (by omega)]
    · rw [reg_setReg_ne _ _ (ha k (Nat.lt_succ_self k)), hrest a fun i hi => ha i (Nat.lt_succ_of_lt hi)]

theorem reg_cntCleared {k : Nat} : (∀ i, i < k → (s.cntCleared m k).reg (rxx_CNT m i) = 0) ∧
    ∀ a, a ≠ rPG_IRQ_STAT (0x70 + m) → a ≠ rxx_CNT_HALF m → a ≠ rxx_CNT_HALF_HI m → (∀ i, i < k → a ≠ rxx_CNT m i) →
      (s.cntCleared m k).reg a = s.reg a := by
  induction k with
  | zero => exact ⟨fun i hi => absurd hi (Nat.not_lt_zero i), fun _ _ _ _ _ => rfl⟩
  | succ k ih =>
    obtain ⟨hzero, hrest⟩ := ih
    have hlast (a : Nat) (hirq : a ≠ rPG_IRQ_STAT (0x70 + m)) (hlo : a ≠ rxx_CNT_HALF m) (hhi : a ≠ rxx_CNT_HALF_HI m) :
        (s.cntCleared m (k + 1)).reg a = ((s.cntCleared m k).setReg (rxx_CNT m k) 0).reg a := by
      unfold State.cntCleared
      rw [List.range_succ, List.foldl_append, List.foldl_cons, List.foldl_nil]
      dsimp only
      split
      · unfold State.macHalf
        dsimp only
        rw [reg_irq, if_neg hirq]
        split
        · exact reg_setReg_ne _ _ hlo
        · exact reg_setReg_ne _ _ hhi
      · rfl
    refine ⟨fun i hi => ?_, fun a hirq hlo hhi hcnt => ?_⟩
    · rw [hlast _ (by dsimp only [rxx_CNT, rPG_IRQ_STAT]; omega) (by dsimp only [rxx_CNT, rxx_CNT_HALF]; omega) (by dsimp only [rxx_CNT, rxx_CNT_HALF_HI]; omega)]
      by_cases hik : i = k
      · rw [hik, reg_setReg_same]
      · rw [reg_setReg_ne _ _ (by dsimp only [rxx_CNT]; omega), hzero i (by omega)]
    · rw [hlast a hirq hlo hhi, reg_setReg_ne _ _ (hcnt k (Nat.lt_succ_self k)), hrest a hirq hlo hhi fun i hi => hcnt i (Nat.lt_succ_of_lt hi)]

theorem cntCmdFx_freeze {v : Word} (h0 : bitOf v 0 = true) (h1 : bitOf v 1 = false) : cntCmdFx m v s = s.cntFrozen m 40 :=
  (if_neg (by rw [h0]; exact Bool.false_ne_true)).trans (if_pos (by rw [h1]; rfl))

theorem cntCmdFx_clear {v : Word} (h0 : bitOf v 0 = true) (h1 : bitOf v 1 = true) : cntCmdFx m v s = (s.cntFrozen m 40).cntCleared m 40 :=
  (if_neg (by rw [h0]; exact Bool.false_ne_true)).trans (if_neg (by rw [h1]; exact Bool.false_ne_true))

theorem cntFrozen_shows (i : Fin 40) : (s.cntFrozen m 40).reg (rxx_SNAP m i) = s.reg (rxx_CNT m i) ∧ (s.cntFrozen m 40).reg (rxx_CNT m i) = s.reg (rxx_CNT m i) := by
  obtain ⟨hcopied, hrest⟩ := reg_cntFrozen (s := s) (m := m) (Nat.le_refl 40)
  exact ⟨hcopied i i.isLt, hrest _ fun j hj => by dsimp only [rxx_CNT, rxx_SNAP]; omega⟩

theorem cntCleared_shows (i : Fin 40) : ((s.cntFrozen m 40).cntCleared m 40).reg (rxx_SNAP m i) = s.reg (rxx_CNT m i) ∧
    ((s.cntFrozen m 40).cntCleared m 40).reg (rxx_CNT m i) = 0 := by
  obtain ⟨hzero, hrest⟩ := reg_cntCleared (s := s.cntFrozen m 40) (m := m) (k := 40)
  refine ⟨(hrest _ ?_ ?_ ?_ fun j hj => ?_).trans (cntFrozen_shows i).1, hzero i i.isLt⟩
  all_goals dsimp only [rxx_SNAP, rPG_IRQ_STAT, rxx_CNT_HALF, rxx_CNT_HALF_HI, rxx_CNT]; omega

end CounterCommands

/-! ### Segments to the line, and the transmitter (R422 to R426) -/

section Transmission

variable {s : State} {m : Nat}

/-- The segment at the front of FP8 is the management MAC's. -/
theorem macDeliver_mgmt {d : Delivered} {rest : List Delivered} (hout : s.outbox 8 = d :: rest) (hon : s.enabled 0x70 = true) : s.macDeliver false =
    if (s.mac 0).txq != [] && 16384 < s.macHeld 0 + (d.frame.payload.length - 12) then s else (s.setOutbox 8 rest).macSegment 0 d.frame := by
  have hout' : s.outbox (if false = true then 9 else 8) = d :: rest := hout
  unfold State.macDeliver
  dsimp only
  rw [hout']
  exact (if_neg Bool.false_ne_true).trans (if_neg (by simp [hon]))

/-- The segment at the front of FP9 is that of the T1S MAC that its context names. -/
theorem macDeliver_t1s {d : Delivered} {rest : List Delivered} {c : Nat} (hc : c < 4) (hout : s.outbox 9 = d :: rest)
    (hqueue : (d.held.map HeldCtx.queue).getD 0 = c) (hon : s.enabled (0x71 + c) = true) : s.macDeliver true =
    if (s.mac (1 + c)).txq != [] && 4096 < s.macHeld (1 + c) + (d.frame.payload.length - 12) then s else (s.setOutbox 9 rest).macSegment (1 + c) d.frame := by
  have hout' : s.outbox (if true = true then 9 else 8) = d :: rest := hout
  have hpage : 0x70 + (1 + c) = 0x71 + c := by omega
  have hm : (if 1 + c = 0 then 16384 else 4096) = 4096 := if_neg (by omega)
  unfold State.macDeliver
  dsimp only
  rw [hout']
  dsimp only
  simp only [hqueue, if_true, hpage, hm, hon]
  exact (if_neg (by simp; omega)).trans (if_neg Bool.false_ne_true)

/-- A packet of one segment that is whole joins the transmit queue (R422). -/
theorem macSegment_whole {f : Frame} (hlen : 12 ≤ f.payload.length) (hfirst : (nthD f.payload 1 0).toNat.testBit 7 = true)
    (hlast : (nthD f.payload 1 0).toNat.testBit 6 = true) (hnone : (s.mac m).asm = []) (hsize : (f.payload.drop 12).length = beNat (slice f.payload 4 2)) :
    s.macSegment m f = s.setMac m { s.mac m with asm := [], txq := (s.mac m).txq ++
      [⟨f.payload.drop 12, beNat (slice f.payload 2 2), (nthD f.payload 1 0).toNat.testBit 5⟩] } := by
  unfold State.macSegment
  simp only [if_neg (Nat.not_lt.2 hlen), hfirst, hlast, hnone, if_true, List.find?_nil, Option.isSome_none, Bool.false_eq_true, if_false, List.length_nil,
    List.nil_append, List.filter_nil, hsize, Bool.not_true]
  rfl

/-- A segment that continues no open assembly is discarded (R422). -/
theorem macSegment_stray {f : Frame} (hlen : 12 ≤ f.payload.length) (hfirst : (nthD f.payload 1 0).toNat.testBit 7 = false)
    (hnone : (s.mac m).asm.find? (fun a => a.flow = f.flow) = none) : s.macSegment m f = s.macTxDrop m := by
  unfold State.macSegment
  dsimp only
  rw [if_neg (Nat.not_lt.2 hlen), hfirst, if_neg Bool.false_ne_true, hnone]

/-- The transmitter sends the frame at the front, which has had no collision (R423, R425). -/
theorem macTx_sends {f : MacTx} {rest : List MacTx} {deferred : Bool} (hon : s.enabled (0x70 + m) = true)
    (htx : s.flag (rxx_CFG m) fxx_CFG_tx_en = true) (hback : (s.mac m).backoff = none) (hpause : m = 0 → s.flag (rxx_STATUS 0) fxx_STATUS_pause_active = false)
    (hcrs : s.macCrs m = false) (hq : (s.mac m).txq = f :: rest) (hecc : s.armed (0x70 + m) 0 = none)
    (hlen : (lineOctets (s.flag (rxx_EXP m) fxx_EXP_tx_fcs_given) f.data).length ≤ s.get (rxx_CFG m) fxx_CFG_max_frame) :
    s.macTx m deferred =
      let t := if f.stamp then (s.macPop m).macStamp m f.number else s.macPop m
      let g := if m = 0 then t.followUp f.data else (f.data, t)
      let u := g.2.macLine m g.1
      if m = 0 then u
      else
        let u := if deferred then u.macCnt m 28 1 else u
        if (s.mac m).attempt = 1 then u.macCnt m 30 1 else if 1 < (s.mac m).attempt then u.macCnt m 31 1 else u := by
  have hecc' : (s.macPop m).macEcc m = (false, s.macPop m) := macEcc_none hecc
  have hfree : (decide (m = 0) && s.flag (rxx_STATUS 0) fxx_STATUS_pause_active) = false := by
    by_cases h : m = 0
    · simp [h, hpause h]
    · simp [h]
  unfold State.macTx
  dsimp only
  rw [hfree, if_neg (by simp [hon, hback, hcrs, fldOf_ne_zero htx]), hq]
  dsimp only
  rw [hecc']
  exact (if_neg Bool.false_ne_true).trans (if_neg (Nat.not_lt.2 hlen))

/-- A collision at a T1S MAC that sends (R426). -/
theorem macCollision_sending {c : Nat} {late : Bool} (hon : s.enabled (0x71 + c) = true) (hq : (s.mac (1 + c)).txq ≠ []) (hback : (s.mac (1 + c)).backoff = none)
    (htx : s.flag (rxx_CFG (1 + c)) fxx_CFG_tx_en = true) : let t := (s.macCnt (1 + c) 29 1).emit (.jam (1 + c))
    let drop (i : Nat) := (((t.macPop (1 + c)).macCnt (1 + c) i 1).irq (0x71 + c) 5).macFault (1 + c)
    s.macCollision c late =
      if late then drop 32
      else if t.get (rxx_EXP (1 + c)) fxx_EXP_attempt_limit + 1 ≤ (s.mac (1 + c)).attempt + 1 then drop 33
      else t.step1.setMac (1 + c) { s.mac (1 + c) with
        attempt := (s.mac (1 + c)).attempt + 1
        backoff := some (t.freeN % 2 ^ min ((s.mac (1 + c)).attempt + 1) (max 1 (t.get (rxx_EXP (1 + c)) fxx_EXP_backoff_limit))) } := by
  have hpage : 0x70 + (1 + c) = 0x71 + c := by omega
  unfold State.macCollision
  dsimp only
  rw [hpage]
  exact if_neg (by simp [hon, hq, hback, htx])

theorem mdioFx_starts {v : Word} (hidle : s.flag (rxx_MDIO_ACC m) fxx_MDIO_ACC_go = false) (hgo : bitOf v 31 = true) : mdioFx m v s =
    (s.setReg (rxx_MDIO_ACC m) (v &&& 0x7FF0FFFF ||| 0x80000000)).emit (.mdio m (v &&& 0x7FF0FFFF ||| 0x80000000)) :=
  (if_neg (by rw [hidle]; exact Bool.false_ne_true)).trans (if_pos hgo)

theorem macTxsPop_stamp {t : Nat} {rest : List Nat} (h : (s.mac m).stamps = t :: rest) : macTxsPop m s =
    some (t, (((s.setMac m { s.mac m with stamps := rest }).setReg (rxx_TXS_POP_HI m) (toW (t / 2 ^ 32))).setReg (rxx_TXS_REPLAY m) (toW t)).setReg
      (rxx_TXS_REPLAY_HI m) (toW (t / 2 ^ 32))) := by
  unfold macTxsPop
  rw [h]

theorem macTxsPop_none (h : (s.mac m).stamps = []) : macTxsPop m s = none := by
  unfold macTxsPop
  rw [h]

end Transmission

/-- Settles O48: a frame received and a frame sent take the branch of their MAC's rule that the premises name. -/
theorem macsReceiveAndSend : Obligations.MacsReceiveAndSend := by
  unfold Obligations.MacsReceiveAndSend
  refine ⟨fun s m hon => ⟨fun body age hrx hwired hwake hfield hmin hmax => ?received, fun n hn => ⟨macPause_stops hn, macPause_goes⟩,
      fun st hinband hmgmt => ⟨_, exec_inbandStatusChange hmgmt st, macInband_shows hinband st⟩,
      fun q v ha h0 => ⟨fun h1 => ⟨_, exec_writeReg_accepted rfl ha (cntCmdFx_freeze h0 h1), cntFrozen_shows⟩,
        fun h1 => ⟨_, exec_writeReg_accepted rfl ha (cntCmdFx_clear h0 h1), cntCleared_shows⟩⟩⟩,
    fun s m => ⟨fun d rest hfield hout hon => ⟨fun hroom => ?taken, fun hq hfull => ?waits⟩, fun d rest c hfield hout hqueue hon hroom => ?takenT1s,
      fun f hlen hfirst hlast hnone hsize => ⟨_, macSegment_whole hlen hfirst hlast hnone hsize, rfl⟩, fun f hlen hfirst hnone => macSegment_stray hlen hfirst hnone,
      fun f rest deferred hfield hon htx hback hattempt hpause hcrs hq hecc hlen => ?sends, rfl,
      fun c hfield hon hq hback htx => ⟨?late, fun hattempt hlimit => ?backsOff⟩, fun c => rfl, fun q v ha hidle hgo => exec_writeReg_accepted rfl ha (mdioFx_starts hidle hgo),
      fun data hgo => congrArg (finish s) (if_pos hgo),
      fun q mp wide ha => ⟨fun h => ?popNone, fun t rest h => ?pop⟩⟩⟩
  case received =>
    rw [show body ++ leBytes 4 (fcs body).toNat = withFcs body from rfl] at hmin hmax ⊢
    have hcap : (if m = 0 then 32768 else 4096) = if m.val = 0 then 32768 else 4096 := if_congr Fin.ext_iff rfl rfl
    have hval : m.val = 0 → m = 0 := fun h => Fin.ext h
    have hwired' : m.val = 0 ∨ s.routed (m - 1) 0x3C = true := hwired.imp_left (congrArg Fin.val)
    refine ⟨fun hfull => ?_, fun hroom hecc => ⟨fun hm hpause hen => ?_, fun hpause hother => ?_, fun hpause hmine hevent => ⟨fun hnone => ?_, fun f hflow hkeep => ?_⟩⟩⟩
    · rw [hcap] at hfull
      exact (exec_macFrameReceived ..).trans (congrArg (finish s) ((macRx_good hon hrx hwired' hwake hfield hmin hmax).trans (if_pos hfull)))
    all_goals rw [hcap] at hroom
    · refine (exec_macFrameReceived ..).trans (congrArg (finish s) ((macRx_taken hon hrx hwired' hwake hfield hmin hmax hroom hecc
        fun _ h => absurd (hpause.symm.trans h) (by decide)).trans ((if_pos ?_).trans (if_pos ?_))))
      · rw [hm]
        exact hpause
      · rw [hm]
        exact get_of_flag rfl hen
    · refine (exec_macFrameReceived ..).trans (congrArg (finish s) ((macRx_taken hon hrx hwired' hwake hfield hmin hmax hroom hecc
        fun _ _ h => absurd (hother.symm.trans h) (by decide)).trans ((if_neg ?_).trans (if_pos ?_))))
      · rw [hpause, Bool.and_false]
        exact Bool.false_ne_true
      · exact congrArg (!·) hother
    all_goals
      refine (exec_macFrameReceived ..).trans (congrArg (finish s) ((macRx_taken hon hrx hwired' hwake hfield hmin hmax hroom hecc
        fun h _ _ => hevent (hval h)).trans ((if_neg ?_).trans ((if_neg ?_).trans ?_))))
    · rw [hpause, Bool.and_false]
      exact Bool.false_ne_true
    · rw [hmine]
      exact Bool.false_ne_true
    · rw [hnone]
    · rw [hpause, Bool.and_false]
      exact Bool.false_ne_true
    · rw [hmine]
      exact Bool.false_ne_true
    · rw [hflow]
      dsimp only
      rw [hkeep]
      rfl
  case taken =>
    refine congrArg (finish s) ((onField_runs hfield _).trans ((macDeliver_mgmt hout hon).trans (if_neg ?_)))
    rcases hroom with h | h
    · simp [h]
    · simp [Nat.not_lt.2 h]
  case waits => exact congrArg (finish s) ((onField_runs hfield _).trans ((macDeliver_mgmt hout hon).trans (if_pos (by simp [hq, hfull]))))
  case takenT1s =>
    refine congrArg (finish s) ((onField_runs hfield _).trans ((macDeliver_t1s c.isLt hout hqueue hon).trans (if_neg ?_)))
    rcases hroom with h | h
    · simp [h]
    · simp [Nat.not_lt.2 h]
  case sends =>
    have hsend := (onField_runs hfield (fun s => s.macTx m deferred)).trans (macTx_sends (deferred := deferred) hon htx hback (fun h => hpause (Fin.ext h)) hcrs hq hecc hlen)
    refine ⟨fun hm => ?_, fun hm => ?_⟩
    · subst hm
      exact congrArg (finish s) hsend
    · have hval : m.val ≠ 0 := fun h => hm (Fin.ext h)
      refine congrArg (finish s) (hsend.trans ?_)
      simp only [hval, if_false, hattempt]
      rfl
  case late => exact congrArg (finish s) ((onField_runs hfield _).trans ((macCollision_sending hon hq hback htx).trans (if_pos rfl)))
  case backsOff =>
    refine ⟨_, congrArg (finish s) ((onField_runs hfield _).trans ((macCollision_sending hon hq hback htx).trans
      ((if_neg Bool.false_ne_true).trans (if_neg (by omega))))), ?_⟩
    rw [mac_setMac, hattempt]
    have hone (k : Nat) : min (0 + 1) (max 1 k) = 1 := by omega
    refine ⟨rfl, _, rfl, ?_⟩
    rw [hone]
    exact Nat.lt_succ_iff.1 (Nat.mod_lt _ (by decide))
  case popNone => exact congrArg (finish s) (popRead_none ha wide 0 (macTxsPop m) (macTxsPop_none h))
  case pop => exact congrArg (finish s) (popRead_some ha wide 0 _ (macTxsPop m) (macTxsPop_stamp h))

/-- Settles O49: the fault of a half-duplex link is raised with its flag, and no branch of the transmitter reads the flag. -/
theorem halfDuplexIsReported : Obligations.HalfDuplexIsReported := by
  unfold Obligations.HalfDuplexIsReported
  intro s hon
  refine ⟨fun st hinband hlink hduplex hfull => ?reported, fun f rest _ hfield htx hback hpause hq hecc hlen => ?sends⟩
  case reported =>
    have hhalf : inbandHalf st = true := by
      unfold inbandHalf
      rw [hlink, hduplex]
      rfl
    refine ⟨_, exec_inbandStatusChange hon st, ?_, macInband_half hinband hhalf hfull⟩
    rw [(macInband_shows hinband st).2.2, hhalf]
    rfl
  case sends =>
    exact congrArg (finish s) ((onField_runs hfield _).trans (macTx_sends (m := 0) (deferred := false) hon htx hback (fun _ => hpause) rfl hq hecc hlen))
end Sys2Proof.Machine
end

section
/-! PROOF. O50: the cipher engine (R433 to R447). -/
namespace Sys2Proof.Machine

/-! ### Frames at FP7 (R435 to R443) -/

section Frames

variable {s : State}

/-- The state with no frame under way. -/
def State.frameTaken (s : State) : State := { s with ciph := { s.ciph with frame := none } }

/-- A frame that was begun is finished while the input is free, even in a disabled block. -/
theorem cipherFrame_rest {x : CiphFrame} (hfree : s.portHolds 7 = false) (hframe : s.ciph.frame = some x) : s.cipherFrame .rest = s.cipherEnd := by
  unfold State.cipherFrame
  simp [hfree, hframe]

/-- With no compare checker armed the block compares equal. -/
theorem cipherArmed_none (h : s.armed 0x48 3 = none) : s.cipherArmed = (false, s) := by
  unfold State.cipherArmed
  rw [h]

/-- The end of a frame whose use stands, with no checker armed: sealed where its flow transmits, opened where it receives (R439 to R443). -/
theorem cipherEnd_used {d : Delivered} {slot : Nat} {u : KeyUse} {h : HeldCtx} (hframe : s.ciph.frame = some ⟨d, slot, some u⟩) (hheld : d.held = some h)
    (harmed : s.armed 0x48 3 = none) (hvalid : s.revokedSince u = false) : s.cipherEnd =
      let c := s.frameTaken.takeCount h d.frame.flow
      if h.role = 0 then
        let f := d.frame.stamped d.frame.cls (c.2.resolveRing d.frame.src) (c.2.resolveRing d.frame.dest) d.frame.seq
        let p := protectFrame (attrMode u.attr) (schedule u.key) f c.1
        if 484 < p.length then (c.2.inc rCIPH_CNT_OVERSIZE).cipherOut d f true false else c.2.cipherOut d (f.withPayload p) false false
      else
        let o := openFrame (attrMode u.attr) (schedule u.key) d.frame
        let v := c.2.inc rCIPH_CNT_DEC
        (if o.2.2 then v.onCtx d.frame.flow (fun s k => if s.cipherCount k < o.2.1 then s.setCipherCount k o.2.1 else s)
          else (((v.inc rCIPH_CNT_UNTRUSTED).irq 0x48 4).onCtx d.frame.flow (fun s k => s.cntCtx k 0x60 1)).raise 69 0x48).cipherOut d
            (d.frame.withPayload o.1) false !o.2.2 := by
  have harmed' : s.frameTaken.cipherArmed = (false, s.frameTaken) := cipherArmed_none harmed
  have hvalid' : s.frameTaken.revokedSince u = false := hvalid
  unfold State.cipherEnd
  rw [hframe]
  generalize ht : ({ s with ciph := { s.ciph with frame := none } } : State) = t
  rw [show s.frameTaken = t from ht] at harmed' hvalid' ⊢
  simp only [hheld, harmed', hvalid', Bool.false_eq_true, if_false, Bool.or_false]

/-- A frame that no usable key was found for leaves with discard (R443). -/
theorem cipherEnd_refused {d : Delivered} {slot : Nat} (hframe : s.ciph.frame = some ⟨d, slot, none⟩) :
    s.cipherEnd = ((s.frameTaken.inc rCIPH_CNT_KEY_REFUSED).raise 63 0x48).cipherOut d d.frame true false := by
  unfold State.cipherEnd
  rw [hframe]
  rfl

theorem onCtx_resident {flow k : Nat} {g : State → Nat → State} (h : s.ctxOf flow = some k) : s.onCtx flow g = g s k := by
  unfold State.onCtx
  rw [h]

/-- A frame of a transmit flow takes the next invocation count of its context (R441). -/
theorem takeCount_transmit {h : HeldCtx} {flow k : Nat} (hrole : h.role = 0) (hctx : s.ctxOf flow = some k) :
    s.takeCount h flow = (s.cipherCount k, (s.setCipherCount k (s.cipherCount k + 1)).inc rCIPH_CNT_ENC) := by
  unfold State.takeCount
  simp only [hctx, hrole, if_true, onCtx_resident hctx, Option.elim_some]

theorem takeCount_receive {h : HeldCtx} {flow : Nat} (hrole : h.role = 1) : (s.takeCount h flow).2 = s := by
  unfold State.takeCount
  exact if_neg (by omega)

/-- The engine takes the only frame that waits at FP7 and uses its key (R435, R443). -/
theorem cipherFrame_start {d : Delivered} {h : HeldCtx} (hfree : s.portHolds 7 = false) (hon : s.enabled 0x48 = true) (hidle : s.ciph.frame = none)
    (hout : s.outbox 7 = [d]) (hkind : d.frame.kind = 0) (hcls : d.frame.cls ≤ 3) (hheld : d.held = some h) (hrole : h.role ≠ 2)
    (hcount : h.role = 0 → ∃ k, s.ctxOf d.frame.flow = some k ∧ s.cipherCount k < 2 ^ 62) :
    let u := (s.setOutbox 7 []).keyStart h.key (frameUsage (h.role = 0))
    s.cipherFrame .start = { u.2 with ciph := { u.2.ciph with frame := some ⟨d, h.key, u.1⟩ } } := by
  intro u
  have hbegin : s.cipherFrame .start = s.cipherBegin := by
    unfold State.cipherFrame
    simp [hfree, hon, hout, hkind]
  have hwaits : (s.outbox 7).filter (fun d => d.frame.kind = 0) = [d] := by simp [hout, hkind]
  have hctx : (decide (h.role = 0) && ((s.setOutbox 7 []).ctxOf d.frame.flow).isNone) = false ∧
      (decide (h.role = 0) && ((s.setOutbox 7 []).ctxOf d.frame.flow).any (fun k => 2 ^ 62 ≤ (s.setOutbox 7 []).cipherCount k)) = false := by
    by_cases htx : h.role = 0
    · obtain ⟨k, hk, hlt⟩ := hcount htx
      have hk' : (s.setOutbox 7 []).ctxOf d.frame.flow = some k := hk
      have hlt' : (s.setOutbox 7 []).cipherCount k < 2 ^ 62 := hlt
      rw [hk', Option.isNone_some, Bool.and_false, Option.any_some, decide_eq_false (Nat.not_le.2 hlt'), Bool.and_false]
      exact ⟨rfl, rfl⟩
    · rw [decide_eq_false htx, Bool.false_and, Bool.false_and]
      exact ⟨rfl, rfl⟩
  have hfind : (if s.ciph.frame.isSome || !s.enabled 0x48 then none else [d].find? (fun e => e.frame.cls = [d].foldl (fun m e => min m e.frame.cls) 3)) = some d := by
    simp [hidle, hon, hcls]
  rw [hbegin]
  have herase : [d].erase d = [] := List.erase_cons_head ..
  unfold State.cipherBegin
  dsimp only
  rw [hwaits, hfind, hout]
  simp only [herase, hheld, if_neg hrole, hctx.1, hctx.2, Bool.false_eq_true, if_false]
  rfl

end Frames

/-! ### Job rings (R444 to R446) -/

section Jobs

variable {s : State} {r : Nat}

theorem jrTailFx_far {v : Word} (h : 2 ^ s.get (rCIPH_JR_CFG r) fCIPH_JR_CFG_ring_k < (v.toNat % 65536 + 65536 - s.jrHead r) % 65536) :
    jrTailFx r v s = s.warn 0x49 := if_pos h

theorem jrTailFx_near {v : Word} (h : (v.toNat % 65536 + 65536 - s.jrHead r) % 65536 ≤ 2 ^ s.get (rCIPH_JR_CFG r) fCIPH_JR_CFG_ring_k) :
    jrTailFx r v s = (s.setReg (rCIPH_JR_TAIL r) (toW (v.toNat % 65536))).jrStart 64 r := if_neg (Nat.not_lt.2 h)

/-- A CTR job reads its source and its counter block, and takes its branch by what the reads gave (R445, R446). -/
theorem jobComplete_ctr {j : CiphJob} (hjob : s.ciph.job r = some j) (hop : jobWord j.words 0 / 2 ^ 28 = 2) : s.jobComplete r =
    let irq := (jobWord j.words 0).testBit 27
    let revoked := s.revokedSince j.use
    let src := s.jobRead r (jobWord j.words 2) (jobWord j.words 1 % 2 ^ 24)
    let iv := src.2.jobRead r (jobWord j.words 6) 16
    match [src.1.1, none, iv.1.1, none].findSome? id with
    | some (cause, a) => iv.2.jrFault r cause a
    | none =>
      if src.1.2.1 != 0 || iv.1.2.1 != 0 then (iv.2.jrDone r 4 0 revoked irq).jrStart 64 r
      else
        let b := iv.2.cipherArmed
        if b.1 then (((b.2.jrDone r 3 0 revoked irq).raiseInj 60 0x48).cipherMismatch true j.use.slot r).jrStart 64 r
        else
          let o := ctrMode (schedule j.use.key) (beNat iv.1.2.2) src.1.2.2
          let w := iv.2.jobWrite r (jobWord j.words 3) o
          match w.1.1 with
          | some (cause, a) => w.2.jrFault r cause a
          | none => (w.2.jrDone r (if w.1.2 != 0 then 4 else 0) (if w.1.2 != 0 then 0 else o.length) revoked irq).jrStart 64 r := by
  unfold State.jobComplete
  rw [hjob]
  dsimp only
  rw [hop]
  have hcompute (iv aad src tag : List Byte) : jobCompute 2 j.use.key iv aad src tag = ⟨ctrMode (schedule j.use.key) (beNat iv) src, [], 0⟩ := rfl
  have htag (u : State) (a : Nat) : u.jobWrite r a [] = ((none, 0), u) := if_pos rfl
  have hle : ¬ (2 ≤ 1) := by decide
  have hnoTag : (decide (2 = 1) || decide (2 = 4)) = false := rfl
  simp only [hcompute, htag, hle, hnoTag, if_true, if_false, bne_self_eq_false, Bool.or_false, Bool.false_eq_true]
  generalize s.jobRead r (jobWord j.words 2) (jobWord j.words 1 % 2 ^ 24) = src
  generalize src.2.jobRead r (jobWord j.words 6) 16 = iv
  generalize iv.2.jobWrite r (jobWord j.words 3) (ctrMode (schedule j.use.key) (beNat iv.1.2.2) src.1.2.2) = w
  rcases w with ⟨⟨_ | ⟨cause, a⟩, status⟩, t⟩
  · rfl
  · rfl

/-- What a write of CIPH_JR_CMD does with ring r. -/
def State.jrCommanded (s : State) (v : Word) (r : Nat) : State :=
  let t := if bitOf v r && s.jrState r = 2 then (s.setReg (rCIPH_JR_STATUS r) 0).jrStart 64 r else s
  if bitOf v (8 + r) then
    match t.ciph.job r with
    | some j => t.jrDone r 7 0 (t.revokedSince j.use) ((jobWord j.words 0).testBit 27)
    | none => if t.jrState r = 2 then t.jrDone r 7 0 false false else t
  else t

/-- A write that names ring 0 alone acts on it alone. -/
theorem jrCmdFx_ring0 {v : Word} (h1 : bitOf v 1 = false) (h9 : bitOf v 9 = false) : jrCmdFx v s = s.jrCommanded v 0 := by
  have hskip : (s.jrCommanded v 0).jrCommanded v 1 = s.jrCommanded v 0 := by
    generalize s.jrCommanded v 0 = t
    unfold State.jrCommanded
    dsimp only
    rw [h1, h9, Bool.false_and, if_neg Bool.false_ne_true, if_neg Bool.false_ne_true]
  exact hskip

theorem jrCommanded_resume {v : Word} (hresume : bitOf v 0 = true) (habort : bitOf v 8 = false) (hfaulted : s.jrState 0 = 2) :
    s.jrCommanded v 0 = (s.setReg (rCIPH_JR_STATUS 0) 0).jrStart 64 0 :=
  (if_neg (by rw [habort]; exact Bool.false_ne_true)).trans (if_pos (by simp [hresume, hfaulted]))

theorem jrCommanded_abort {v : Word} {j : CiphJob} (hresume : bitOf v 0 = false) (habort : bitOf v 8 = true) (hjob : s.ciph.job 0 = some j) :
    s.jrCommanded v 0 = s.jrDone 0 7 0 (s.revokedSince j.use) ((jobWord j.words 0).testBit 27) := by
  unfold State.jrCommanded
  dsimp only
  rw [if_pos habort, hresume, Bool.false_and, if_neg Bool.false_ne_true, hjob]

end Jobs

/-- Settles O50: with no checker armed each end of a frame or a job is the branch that its use, its role and its reads choose. -/
theorem cipherEngineActs : Obligations.CipherEngineActs := by
  unfold Obligations.CipherEngineActs
  intro s
  refine ⟨fun d slot u h hfree hframe hheld harmed hvalid => ⟨fun hrole => ⟨fun hfits => ?sealed, fun hlong => ?oversize⟩,
      fun k hrole hctx => takeCount_transmit hrole hctx, fun hrole => ⟨fun k hpass hctx => ?opened, fun k hfail hctx => ?untrusted⟩⟩,
    fun d slot hfree hframe => ?refused, fun d h hfree hon hidle hout hkind hcls hheld hrole hcount => ?started,
    fun q r v ha => ⟨fun hfar => exec_writeReg_accepted rfl ha (jrTailFx_far hfar), fun hnear => exec_writeReg_accepted rfl ha (jrTailFx_near hnear)⟩,
    fun r j hjob hop => ⟨fun c a hsrc => ?jobFault, fun hsrc hsrcOk hiv hivOk harmed hw hwOk => ?jobDone⟩,
    fun q v ha h1 h9 => ⟨fun hresume habort hfaulted => ?resumes, fun j hresume habort hjob => ?aborts⟩,
    fun q v ha h => exec_writeReg_accepted rfl ha (if_pos h), fun q v ha h => exec_writeReg_accepted rfl ha (if_pos h), rfl, rfl, rfl, rfl⟩
  case sealed =>
    refine congrArg (finish s) ((cipherFrame_rest hfree hframe).trans ((cipherEnd_used hframe hheld harmed hvalid).trans ((if_pos hrole).trans ?_)))
    exact if_neg (Nat.not_lt.2 hfits)
  case oversize =>
    exact congrArg (finish s) ((cipherFrame_rest hfree hframe).trans ((cipherEnd_used hframe hheld harmed hvalid).trans ((if_pos hrole).trans (if_pos hlong))))
  case opened =>
    refine congrArg (finish s) ((cipherFrame_rest hfree hframe).trans ((cipherEnd_used hframe hheld harmed hvalid).trans ((if_neg (by omega)).trans ?_)))
    rw [takeCount_receive hrole]
    dsimp only
    rw [hpass, if_pos rfl]
    exact congrArg (State.cipherOut · d (d.frame.withPayload _) false false) (onCtx_resident hctx)
  case untrusted =>
    refine congrArg (finish s) ((cipherFrame_rest hfree hframe).trans ((cipherEnd_used hframe hheld harmed hvalid).trans ((if_neg (by omega)).trans ?_)))
    rw [takeCount_receive hrole]
    dsimp only
    rw [hfail, if_neg Bool.false_ne_true]
    exact congrArg (fun t : State => (t.raise 69 0x48).cipherOut d (d.frame.withPayload _) false true) (onCtx_resident hctx)
  case refused => exact congrArg (finish s) ((cipherFrame_rest hfree hframe).trans (cipherEnd_refused hframe))
  case started => exact congrArg (finish s) (cipherFrame_start hfree hon hidle hout hkind hcls hheld hrole hcount)
  case jobFault =>
    refine congrArg (finish s) ((jobComplete_ctr hjob hop).trans ?_)
    dsimp only
    rw [hsrc]
    rfl
  case jobDone =>
    refine congrArg (finish s) ((jobComplete_ctr hjob hop).trans ?_)
    dsimp only
    rw [hsrc, hiv, hsrcOk, hivOk, cipherArmed_none harmed]
    refine (if_neg Bool.false_ne_true).trans ((if_neg Bool.false_ne_true).trans ?_)
    rw [hw, hwOk]
    rfl
  case resumes => exact exec_writeReg_accepted rfl ha ((jrCmdFx_ring0 h1 h9).trans (jrCommanded_resume hresume habort hfaulted))
  case aborts => exact exec_writeReg_accepted rfl ha ((jrCmdFx_ring0 h1 h9).trans (jrCommanded_abort hresume habort hjob))
end Sys2Proof.Machine
end

section
/-! PROOF. O51: the key store's commands and update messages (R448 to R469). -/
namespace Sys2Proof.Machine

/-! ### What the ledger and the log leave of the store -/

section Records

variable {s : State} {n a : Nat}

theorem keys_setReg (s : State) (a : Nat) (v : Word) : (s.setReg a v).keys = s.keys := rfl

theorem keys_setBytes (s : State) (a : Nat) (l : List Byte) : (s.setBytes a l).keys = s.keys := by
  induction l generalizing s a with
  | nil => rfl
  | cons b l ih => rw [State.setBytes, ih]; rfl

theorem keys_stage (s : State) (type detail : Nat) (data : List Byte) (pdMs : Option Nat) : (s.stage type detail data pdMs).keys = s.keys := by
  have hput (t : State) (type detail : Nat) (data : List Byte) (gap : Bool) (pdMs : Option Nat) : (t.stagePut type detail data gap pdMs).keys = t.keys := by
    unfold State.stagePut State.put
    dsimp only
    rw [keys_setReg, keys_setBytes]
  unfold State.stage
  dsimp only
  generalize (if s.ledg.lost = 0 then 1 else 2) = need
  split_ifs
  · rfl
  · rfl
  · exact hput ..
  · exact (hput ..).trans (hput ..)

theorem key_congr {t : State} (h : t.keys = s.keys) (n : Nat) : t.key n = s.key n := by
  unfold State.key
  rw [h]

/-- A result that is logged changes no slot. -/
@[simp] theorem key_keyLog (s : State) (slot code result : Nat) (ring : Bool) (counter n : Nat) : (s.keyLog slot code result ring counter).key n = s.key n := by
  unfold State.keyLog
  dsimp only
  rw [key_congr (keys_stage ..)]
  split <;> rfl

theorem reg_keyLog_ne {slot code result counter : Nat} {ring : Bool} (hirq : a ≠ rPG_IRQ_STAT 0x4C) (hledger : a / 0x1000 ≠ 0x06) :
    (s.keyLog slot code result ring counter).reg a = s.reg a := by
  unfold State.keyLog
  dsimp only
  rw [reg_stage_ne (not_mem_stageRegs (.inl hledger)), reg_irq, if_neg hirq]
  split <;> rfl

/-- The end of a message logs its result, and changes no slot. -/
theorem key_msgEnd (s : State) (m : KeyMsg) (code n : Nat) : (s.msgEnd m code).key n = s.key n := by
  have hlog : ((s.keyResult m.slot code true).keyLog m.slot m.code code m.ring m.counter).key n = s.key n := key_keyLog ..
  unfold State.msgEnd
  split_ifs
  · exact hlog
  · exact hlog
  · exact hlog

theorem reg_msgEnd_ne {m : KeyMsg} {code : Nat} (hresult : a ≠ rKEY_RESULT) (hirq : a ≠ rPG_IRQ_STAT 0x4C) (hledger : a / 0x1000 ≠ 0x06) :
    (s.msgEnd m code).reg a = s.reg a := by
  have hlog : ((s.keyResult m.slot code true).keyLog m.slot m.code code m.ring m.counter).reg a = s.reg a :=
    (reg_keyLog_ne hirq hledger).trans (reg_setReg_ne _ _ hresult)
  unfold State.msgEnd
  split_ifs
  · exact hlog
  · exact hlog
  · exact hlog

theorem key_setKey_ne {x : KeySlot} {j : Nat} (h : j ≠ n) : (s.setKey n x).key j = s.key j := spGet_spSet_ne _ _ _ h

end Records

/-! ### Revocation (R464, R465) -/

section Revocation

variable {s : State} {n : Nat}

theorem key_foldl_revoked (l : List Nat) (s : State) (x : Nat) :
    (l.foldl (fun (s : State) x => s.setKey x { s.key x with st := 4 }) s).key x = if x ∈ l then { s.key x with st := 4 } else s.key x := by
  induction l generalizing s with
  | nil => rfl
  | cons y l ih =>
    rw [List.foldl_cons, ih]
    by_cases hxy : x = y
    · subst hxy
      rw [key_setKey, if_pos List.mem_cons_self, ite_self]
    · rw [key_setKey_ne hxy]
      simp only [List.mem_cons, hxy, false_or]

/-- A revocation takes the descendants of a slot and no other (R465). -/
theorem key_revoke (s : State) (n x : Nat) :
    (s.revoke n).key x = if x < 256 ∧ s.isAncestor 5 n x = true then { s.key x with st := 4 } else s.key x := by
  have hmem : x ∈ (List.range 256).filter (fun x => s.isAncestor 5 n x) ↔ x < 256 ∧ s.isAncestor 5 n x = true := by
    rw [List.mem_filter, List.mem_range]
  unfold State.revoke
  dsimp only
  rw [← if_congr hmem rfl rfl]
  generalize (List.range 256).filter (fun x => s.isAncestor 5 n x) = l
  by_cases hl : l = []
  · rw [if_pos hl, hl]
    rfl
  · rw [if_neg hl]
    exact key_foldl_revoked l s x

/-- A slot that is not its own ancestor stays as it is when its descendants are revoked. -/
theorem key_revoke_self (h : s.isAncestor 5 n n = false) : (s.revoke n).key n = s.key n := by
  rw [key_revoke, if_neg (by simp [h])]

theorem st_revoke_descendant {x : Nat} (hx : x < 256) (h : s.isAncestor 5 n x = true) : ((s.revoke n).key x).st = 4 := by
  rw [key_revoke, if_pos ⟨hx, h⟩]

/-- A revocation changes no key's octets nor attributes. -/
theorem material_revoke (s : State) (n x : Nat) : ((s.revoke n).key x).key = (s.key x).key ∧ ((s.revoke n).key x).attr = (s.key x).attr := by
  rw [key_revoke]
  split <;> exact ⟨rfl, rfl⟩

theorem msgKey_revoke (m : KeyMsg) : (s.revoke n).msgKey m = s.msgKey m := by
  obtain ⟨hkey, hattr⟩ := material_revoke s n 1
  unfold State.msgKey
  dsimp only
  rw [hkey, hattr]

end Revocation

/-! ### The store's commands (R448, R469) -/

section Commands

variable {s : State} {q : Req} {v : Word}

/-- A write of KEY_CMD while the store takes commands, by its four bits. -/
theorem keyCmdFx_open (hroom : s.kmgr.queue.length < 4) (hfree : s.keySending = false) : keyCmdFx q v s =
    let t := if bitOf v 0 then s.keyQueue ⟨false, q.master = 0, s.keyMsgOctets⟩ else s
    let t := if bitOf v 1 then t.keySend else t
    let t := if bitOf v 2 then t.keyOpenWrite (natBits v.toNat 10 8) else t
    if bitOf v 3 then t.keyOpenClear (natBits v.toNat 10 8) else t := if_neg (by simp [hroom, hfree])

theorem keyQueue_room {m : KeyMsg} (hroom : s.kmgr.queue.length < 4) (hlocked : s.flag rKEY_CTR_LOCK fKEY_CTR_LOCK_locked = true) :
    s.keyQueue m = { s with kmgr := { s.kmgr with queue := s.kmgr.queue ++ [m] } } := if_neg (by simp [hroom, hlocked])

theorem keySend_node {me : Nat} (hme : s.nodeId 0 = some me) (hnode : s.get rKEY_CMD_NODE fKEY_CMD_NODE_node % 256 ≠ 255) : s.keySend =
    ({ s with kmgr := { s.kmgr with seq := (s.kmgr.seq + 1) % 65536 } } : State).present 7
      (mkFrame 0xB 2 0 0 0 (s.get rKEY_CMD_NODE fKEY_CMD_NODE_node) me 0xF4B0 s.kmgr.seq s.keyMsgOctets) := by
  unfold State.keySend
  dsimp only
  rw [if_neg hnode, hme]

/-- The data words of an open write cleared, the first k of them. -/
def State.openCleared (s : State) (k : Nat) : State := (List.range k).foldl (fun s i => s.setReg (rKEY_OPEN_DATA i) 0) s

theorem reg_openCleared (k : Nat) : ∀ i, i < k → (s.openCleared k).reg (rKEY_OPEN_DATA i) = 0 := by
  induction k with
  | zero => exact fun i hi => absurd hi (Nat.not_lt_zero i)
  | succ k ih =>
    intro i hi
    have hlast : s.openCleared (k + 1) = (s.openCleared k).setReg (rKEY_OPEN_DATA k) 0 := by
      unfold State.openCleared
      rw [List.range_succ, List.foldl_append, List.foldl_cons, List.foldl_nil]
    rw [hlast]
    by_cases hik : i = k
    · rw [hik, reg_setReg_same]
    · rw [reg_setReg_ne _ _ (by dsimp only [rKEY_OPEN_DATA]; omega), ih i (by omega)]

theorem keys_openCleared (k : Nat) : (s.openCleared k).keys = s.keys := by
  induction k with
  | zero => rfl
  | succ k ih =>
    unfold State.openCleared at ih ⊢
    rw [List.range_succ, List.foldl_append, List.foldl_cons, List.foldl_nil]
    exact ih

/-- The attributes in the open-write registers. -/
def State.openAttr (s : State) : Nat := (s.reg rKEY_OPEN_ATTR_LO).toNat + 2 ^ 32 * (s.reg rKEY_OPEN_ATTR_HI).toNat

/-- An open write of a slot with attributes that do (R448). -/
theorem keyOpenWrite_fills {n : Nat} (hparent : attrParent s.openAttr = 0xFF) (hqrn : attrQrn s.openAttr = false) (hmix : attrMix s.openAttr = false)
    (hgood : attrBad s.openAttr = false) : let t := s.keyOpenWrite n
    (t.key n).st = 1 ∧ (t.key n).attr = s.openAttr ∧ (∀ i : Fin 8, t.reg (rKEY_OPEN_DATA i) = 0) ∧ t.reg rKEY_RESULT = toW (2 ^ 31 + n * 2 ^ 16) := by
  let key := (List.range 8).flatMap (fun i => beBytes 4 (s.reg (rKEY_OPEN_DATA i)).toNat)
  have hwrite : s.keyOpenWrite n = ((((s.setKey n { st := 1, key := key, attr := s.openAttr, left := attrUses s.openAttr }).openCleared 8).keyResult n 0 true).keyLog
      n 0x12 0 false 0) := by
    unfold State.keyOpenWrite
    dsimp only
    rw [show (s.reg rKEY_OPEN_ATTR_LO).toNat + 2 ^ 32 * (s.reg rKEY_OPEN_ATTR_HI).toNat = s.openAttr from rfl,
      if_neg (by simp [hparent, hqrn, hmix, hgood])]
    rfl
  have hkey : (s.keyOpenWrite n).key n = { st := 1, key := key, attr := s.openAttr, left := attrUses s.openAttr } := by
    rw [hwrite, key_keyLog, State.keyResult, key_setReg, key_congr (keys_openCleared 8), key_setKey]
  dsimp only
  rw [hkey]
  refine ⟨rfl, rfl, fun i => ?_, ?_⟩
  · rw [hwrite, reg_keyLog_ne (by dsimp only [rKEY_OPEN_DATA, rPG_IRQ_STAT]; omega) (by dsimp only [rKEY_OPEN_DATA]; omega), State.keyResult,
      reg_setReg_ne _ _ (by dsimp only [rKEY_OPEN_DATA, rKEY_RESULT]; omega)]
    exact reg_openCleared 8 i i.isLt
  · rw [hwrite, reg_keyLog_ne (by decide) (by decide), State.keyResult, reg_setReg_same]
    exact congrArg toW (by simp [b2n])

theorem keyOpenWrite_bad {n : Nat} (hbad : attrBad s.openAttr = true) : s.keyOpenWrite n = s.keyResult n 9 true :=
  if_pos (by
    rw [show (s.reg rKEY_OPEN_ATTR_LO).toNat + 2 ^ 32 * (s.reg rKEY_OPEN_ATTR_HI).toNat = s.openAttr from rfl]
    simp [hbad])

end Commands

/-! ### Update messages (R454 to R458, R465) -/

section Messages

variable {s : State} {m : KeyMsg}

/-- The store takes the next message of its queue, and its check decides what becomes of it. -/
theorem execKeyMessage_next {rest : List KeyMsg} (hon : s.enabled 0x4C = true) (hnone : s.kmgr.pending = none) (hqueue : s.kmgr.queue = m :: rest) :
    let t : State := { s with kmgr := { s.kmgr with queue := rest } }
    exec .keyMessage s = finish s (if t.msgCheck m != 1 then t.msgEnd m (t.msgCheck m) else if m.restore then t.msgApply m
      else ((({ t with kmgr := { t.kmgr with pending := some m } } : State).keyResult m.slot 1 false).put rKEY_STATUS fKEY_STATUS_pending 1).irq 0x4C 3) := by
  intro t
  have hwaits : s.kmgr.queue ≠ [] := by rw [hqueue]; exact List.cons_ne_nil m rest
  refine congrArg (finish s) ((if_pos hon).trans ?_)
  rw [if_neg hwaits]
  unfold State.keyMessage
  rw [hnone, hqueue]

theorem keyCommitEnd_pending (h : s.kmgr.pending = some m) (commit : Bool) :
    let t := ({ s with kmgr := { s.kmgr with pending := none } } : State).put rKEY_STATUS fKEY_STATUS_pending 0
    s.keyCommitEnd commit = if commit then t.msgApply m else t.msgEnd m 10 := by
  unfold State.keyCommitEnd
  rw [h]

theorem keyLogPop_item {t : Nat} {rest : List Nat} (h : s.kmgr.log = t :: rest) : keyLogPop s =
    some (t, (((({ s with kmgr := { s.kmgr with log := rest } } : State).setReg rKEY_LOG_POP_HI (toW (t / 2 ^ 32))).setReg rKEY_LOG_REPLAY (toW t)).setReg
      rKEY_LOG_REPLAY_HI (toW (t / 2 ^ 32)))) := by
  unfold keyLogPop
  rw [h]

theorem keyLogPop_none (h : s.kmgr.log = []) : keyLogPop s = none := by
  unfold keyLogPop
  rw [h]

/-- A message that takes effect leaves its slots as they are just before it takes its counter, and shows the counter. -/
theorem msgApply_taken {u : State} (happly : s.msgApply m = (u.setReg (rKEY_CTR m.slot) (toW m.counter)).msgEnd m 0) :
    (s.msgApply m).reg (rKEY_CTR m.slot) = toW m.counter ∧ ∀ n, (s.msgApply m).key n = u.key n := by
  rw [happly]
  refine ⟨?_, fun n => key_msgEnd ..⟩
  rw [reg_msgEnd_ne (by dsimp only [rKEY_CTR, rKEY_RESULT]; omega) (by dsimp only [rKEY_CTR, rPG_IRQ_STAT]; omega) (by dsimp only [rKEY_CTR]; omega),
    reg_setReg_same]

/-- A revocation message (R465). -/
theorem msgApply_revokes (hcode : m.code = 3) : s.msgApply m =
    (((s.setKey m.slot { s.key m.slot with st := 3 }).revoke m.slot).setReg (rKEY_CTR m.slot) (toW m.counter)).msgEnd m 0 := by
  have hparent : s.badParent m = false := if_pos hcode
  unfold State.msgApply
  dsimp only
  rw [hparent, if_neg Bool.false_ne_true, if_pos hcode]

/-- An install of a key with no parent (R455, R457, R458). -/
theorem msgApply_installs {k : List Byte} (hcode : m.code = 1) (hparent : s.badParent m = false) (hroot : attrParent m.attr = 0xFF)
    (hkey : s.msgKey m = some k) : s.msgApply m =
    (((s.revoke m.slot).setKey m.slot { st := 1, key := k, attr := m.attr, left := attrUses m.attr }).setReg (rKEY_CTR m.slot) (toW m.counter)).msgEnd m 0 := by
  have hnew : (s.revoke m.slot).msgNewKey m = (k, s.revoke m.slot) := by
    unfold State.msgNewKey
    dsimp only
    rw [if_pos hcode, msgKey_revoke, hkey, Option.getD_some]
  unfold State.msgApply
  dsimp only
  rw [hparent, if_neg Bool.false_ne_true, if_neg (by omega), hnew, if_neg (by omega : m.code ≠ 2), if_pos hroot]

/-- The last use of a slot disables it (R464). -/
theorem takeUse_last {n : Nat} (huses : attrUses (s.key n).attr ≠ 0) (hlast : (s.key n).left ≤ 1)
    (hself : (s.setKey n { s.key n with left := 0, st := 2 }).isAncestor 5 n n = false) :
    (s.takeUse n).1 = true ∧ (s.takeUse n).2.key n = { s.key n with left := 0, st := 2 } := by
  have huse : s.takeUse n = (true, ((((s.setKey n { s.key n with left := 0, st := 2 }).revoke n).irq 0x4C 6).raise 64 0x4C).keyLog n 0x10 0 false 0) :=
    (if_neg huses).trans (if_neg (by omega))
  rw [huse]
  exact ⟨rfl, (key_keyLog ..).trans ((key_revoke_self hself).trans (key_setKey ..))⟩

end Messages

/-- Settles O51: each bit of KEY_CMD and each check of a message chooses one branch, and a revocation touches the state of descendants alone. -/
theorem keyStoreAndMessagesAct : Obligations.KeyStoreAndMessagesAct := by
  unfold Obligations.KeyStoreAndMessagesAct
  refine ⟨fun s q hroom => ⟨fun v hfree ha => ⟨fun h0 h1 h2 h3 hlocked => ?apply, fun me h0 h1 h2 h3 hme hnode => ?send,
        fun h0 h1 h2 h3 => ⟨fun hparent hqrn hmix hgood =>
          ⟨_, exec_writeReg_accepted (fx := keyCmdFx q) rfl ha ?write, keyOpenWrite_fills hparent hqrn hmix hgood⟩, fun hbad => ?badAttr⟩,
        fun h0 h1 h2 h3 => ?clear⟩,
      fun m rest hon hnone hqueue => ⟨fun hgood hrestore => ?waits, fun hgood hrestore => ?restores, fun hbad => ?ends⟩,
      fun m hpending => ⟨fun v ha => ⟨fun h0 => ?commit, fun h0 h1 => ?abort⟩,
        congrArg (finish s) ((keyCommitEnd_pending hpending false).trans (if_neg Bool.false_ne_true))⟩,
      fun v ha => exec_writeReg_accepted rfl ha rfl,
      fun mp wide ha => ⟨fun h => congrArg (finish s) (popRead_none ha wide 0 keyLogPop (keyLogPop_none h)),
        fun t rest h => congrArg (finish s) (popRead_some ha wide 0 _ keyLogPop (keyLogPop_item h))⟩,
      fun hlocked n v => if_pos (by simp [hlocked]), fun v hsending ha => exec_writeReg_accepted rfl ha (if_pos (by simp [hsending]))⟩,
    fun s m => ⟨fun hopen => if_pos (by simp [hopen]), fun hlocked hformat => ?format, fun hlocked hformat huid => ?uid, fun hlocked hformat huid hslot => ?openSlot,
      fun hcode hslot hself => ?revokes, fun k hcode hslot hparent hroot hkey => ?installs, fun n huses hleft => (if_neg huses).trans (if_pos hleft),
      fun n huses hlast hself => ?lastUse⟩⟩
  case apply =>
    refine exec_writeReg_accepted rfl ha ((keyCmdFx_open hroom hfree).trans ?_)
    simp only [h0, h1, h2, h3, if_true, Bool.false_eq_true, if_false]
    exact keyQueue_room hroom hlocked
  case send =>
    refine exec_writeReg_accepted rfl ha ((keyCmdFx_open hroom hfree).trans ?_)
    simp only [h0, h1, h2, h3, if_true, Bool.false_eq_true, if_false]
    exact keySend_node hme hnode
  case write =>
    refine (keyCmdFx_open hroom hfree).trans ?_
    simp only [h0, h1, h2, h3, if_true, Bool.false_eq_true, if_false]
  case badAttr =>
    refine exec_writeReg_accepted (a := rKEY_CMD) (fx := keyCmdFx q) rfl ha ((keyCmdFx_open hroom hfree).trans ?_)
    simp only [h0, h1, h2, h3, if_true, Bool.false_eq_true, if_false]
    exact keyOpenWrite_bad hbad
  case clear =>
    refine exec_writeReg_accepted (a := rKEY_CMD) (fx := keyCmdFx q) rfl ha ((keyCmdFx_open hroom hfree).trans ?_)
    simp only [h0, h1, h2, h3, if_true, Bool.false_eq_true, if_false]
    rfl
  case waits =>
    refine (execKeyMessage_next hon hnone hqueue).trans (congrArg (finish s) ((if_neg ?_).trans (if_neg ?_)))
    · simpa using hgood
    · rw [hrestore]
      exact Bool.false_ne_true
  case restores => exact (execKeyMessage_next hon hnone hqueue).trans (congrArg (finish s) ((if_neg (by simpa using hgood)).trans (if_pos hrestore)))
  case ends => exact (execKeyMessage_next hon hnone hqueue).trans (congrArg (finish s) (if_pos (by simpa using hbad)))
  case commit => exact exec_writeReg_accepted rfl ha ((if_pos h0).trans ((keyCommitEnd_pending hpending true).trans (if_pos rfl)))
  case abort =>
    exact exec_writeReg_accepted rfl ha ((if_neg (by rw [h0]; exact Bool.false_ne_true)).trans ((if_pos h1).trans
      ((keyCommitEnd_pending hpending false).trans (if_neg Bool.false_ne_true))))
  case format => exact (if_neg (by simp [hlocked])).trans (if_pos hformat)
  case uid => exact (if_neg (by simp [hlocked])).trans ((if_neg (by simp [hformat])).trans (if_pos (by simpa using huid)))
  case openSlot =>
    exact (if_neg (by simp [hlocked])).trans ((if_neg (by simp [hformat])).trans ((if_neg (by simp [huid])).trans (if_pos hslot)))
  case revokes =>
    obtain ⟨hctr, hkeys⟩ := msgApply_taken (msgApply_revokes (s := s) hcode)
    refine ⟨hctr, ?_, fun n hn => ?_⟩
    · rw [hkeys, key_revoke_self hself, key_setKey]
    · rw [hkeys]
      exact st_revoke_descendant n.isLt hn
  case installs =>
    obtain ⟨hctr, hkeys⟩ := msgApply_taken (msgApply_installs hcode hparent hroot hkey)
    dsimp only
    rw [hkeys, key_setKey]
    exact ⟨hctr, rfl, rfl, rfl, rfl⟩
  case lastUse =>
    obtain ⟨hended, hslot⟩ := takeUse_last huses hlast hself
    rw [hslot]
    exact ⟨hended, rfl, rfl⟩
end Sys2Proof.Machine
end

section
/-! PROOF. O53: the fault commands and the inspection ledger (R499 to R519). -/
namespace Sys2Proof.Machine

/-! ### Fault commands (R499, R506, R508) -/

section FaultCommands

variable {s : State}

/-- A source that no rule gives an effect of its own has none beside its report. -/
theorem faultEffect_none {src a : Nat} (h : [1, 2, 13, 51, 57, 58, 59, 60, 66, 114].contains src = false) : s.faultEffect src a = s := by
  simp only [List.contains_eq_mem, List.mem_cons, List.not_mem_nil, or_false, decide_eq_false_iff_not, not_or] at h
  obtain ⟨h1, h2, h13, h51, h57, h58, h59, h60, h66, h114⟩ := h
  unfold State.faultEffect
  simp only [h1, h2, h13, h51, h57, h58, h59, h60, h66, h114, decide_false, Bool.or_self, Bool.false_eq_true, if_false]

theorem bitOf_and_not (w u : Word) {i : Nat} (hi : i < 32) : bitOf (w &&& ~~~u) i = (bitOf w i && !bitOf u i) := by
  change (w &&& ~~~u).getLsbD i = (w.getLsbD i && !u.getLsbD i)
  rw [BitVec.getLsbD_and, BitVec.getLsbD_not, decide_eq_true hi, Bool.true_and]

/-- The classes that a write of FLT_ACK names, as bits of FLT_PENDING: pending in the low half, level 2 in the high one. -/
theorem bitOf_ackMask (v : Word) {i : Nat} (hi : i < 32) :
    bitOf (toW (v.toNat % 512 + v.toNat % 512 * 2 ^ 16)) i = if i < 16 then decide (i < 9) && bitOf v i else decide (i < 25) && bitOf v (i - 16) := by
  have hsmall : v.toNat % 512 < 2 ^ 16 := by omega
  have hsum : v.toNat % 512 + v.toNat % 512 * 2 ^ 16 = 2 ^ 16 * (v.toNat % 512) + v.toNat % 512 := by omega
  have hlow (j : Nat) : (v.toNat % 512).testBit j = (decide (j < 9) && bitOf v j) := Nat.testBit_mod_two_pow v.toNat 9 j
  unfold bitOf toW at *
  rw [BitVec.toNat_ofNat, Nat.mod_eq_of_lt (by omega), hsum, Nat.testBit_two_pow_mul_add _ hsmall, hlow, hlow]
  refine if_congr Iff.rfl rfl (congrArg (· && _) ?_)
  exact decide_eq_decide.2 (by omega)

theorem restSame_setReg (s : State) (a : Nat) (v : Word) : restSame s (s.setReg a v) := rfl

theorem fltAckFx_eq (v : Word) (s : State) :
    fltAckFx v s = s.setReg rFLT_PENDING (s.reg rFLT_PENDING &&& ~~~(toW (v.toNat % 512 + v.toNat % 512 * 2 ^ 16))) := rfl

theorem bitOf_fltAckFx (v : Word) (s : State) {i : Nat} (hi : i < 32) : bitOf ((fltAckFx v s).reg rFLT_PENDING) i =
    (bitOf (s.reg rFLT_PENDING) i && !(if i < 16 then decide (i < 9) && bitOf v i else decide (i < 25) && bitOf v (i - 16))) := by
  rw [fltAckFx_eq, reg_setReg_same, bitOf_and_not _ _ hi, bitOf_ackMask v hi]

theorem fltAckFx_frame (v : Word) (s : State) : regsBut [rFLT_PENDING] s (fltAckFx v s) ∧ restSame s (fltAckFx v s) := by
  rw [fltAckFx_eq]
  exact ⟨fun a ha => reg_setReg_ne _ _ (by simpa using ha), restSame_setReg ..⟩

/-- The captures of class c emptied (R508). -/
def State.captureEmptied (s : State) (c : Nat) : State := (List.range 8).foldl (fun (s : State) w => s.setReg (rFLT_CAP c w) 0) s

/-- A fold of writes of 0 clears the registers that it names and no other. -/
theorem reg_foldl_zeros (f : Nat → Nat) (l : List Nat) (s : State) (a : Nat) :
    (l.foldl (fun (s : State) w => s.setReg (f w) 0) s).reg a = if a ∈ l.map f then 0 else s.reg a := by
  induction l generalizing s with
  | nil => rfl
  | cons w l ih =>
    rw [List.foldl_cons, ih, reg_setReg, List.map_cons]
    by_cases ha : a = f w
    · simp [ha]
    · simp [ha]

theorem reg_captureEmptied (s : State) (c d : Nat) {w : Nat} (hw : w < 8) :
    (s.captureEmptied c).reg (rFLT_CAP d w) = if d = c then 0 else s.reg (rFLT_CAP d w) := by
  have hmem : rFLT_CAP d w ∈ (List.range 8).map (rFLT_CAP c) ↔ d = c := by
    simp only [List.mem_map, List.mem_range]
    refine ⟨fun ⟨x, hx, hcap⟩ => ?_, fun h => ⟨w, hw, by rw [h]⟩⟩
    dsimp only [rFLT_CAP] at hcap
    omega
  unfold State.captureEmptied
  rw [reg_foldl_zeros, if_congr hmem rfl rfl]

/-- The captures below k that a write of FLT_CAP_CLR names emptied. -/
def State.capturesCleared (s : State) (v : Word) (k : Nat) : State :=
  (List.range k).foldl (fun (s : State) c => if bitOf v c then s.captureEmptied c else s) s

theorem capturesCleared_succ (s : State) (v : Word) (k : Nat) :
    s.capturesCleared v (k + 1) = if bitOf v k then (s.capturesCleared v k).captureEmptied k else s.capturesCleared v k := by
  unfold State.capturesCleared
  rw [List.range_succ, List.foldl_append, List.foldl_cons, List.foldl_nil]

theorem reg_capturesCleared (s : State) (v : Word) (k c : Nat) {w : Nat} (hw : w < 8) :
    (s.capturesCleared v k).reg (rFLT_CAP c w) = if c < k ∧ bitOf v c = true then 0 else s.reg (rFLT_CAP c w) := by
  induction k with
  | zero => rw [if_neg (by omega)]; rfl
  | succ k ih =>
    rw [capturesCleared_succ]
    by_cases hc : c = k
    · subst hc
      by_cases hv : bitOf v c = true
      · rw [if_pos hv, reg_captureEmptied _ _ _ hw, if_pos rfl, if_pos ⟨Nat.lt_succ_self c, hv⟩]
      · rw [if_neg hv, ih, if_neg (by omega), if_neg (by tauto)]
    · have hlt : c < k + 1 ∧ bitOf v c = true ↔ c < k ∧ bitOf v c = true := by rw [show c < k + 1 ↔ c < k by omega]
      rw [if_congr hlt rfl rfl, ← ih]
      by_cases hv : bitOf v k = true
      · rw [if_pos hv, reg_captureEmptied _ _ _ hw, if_neg hc]
      · rw [if_neg hv]

theorem restSame_trans {t u : State} (h : restSame s t) (h' : restSame t u) : restSame s u :=
  h'.trans (congrArg (fun x : State => { x with regs := u.regs }) h)

theorem restSame_foldl {α : Type} {f : State → α → State} (hf : ∀ t x, restSame t (f t x)) (l : List α) (s : State) : restSame s (l.foldl f s) := by
  induction l generalizing s with
  | nil => rfl
  | cons x l ih => exact restSame_trans (hf s x) (ih (f s x))

theorem restSame_capturesCleared (s : State) (v : Word) (k : Nat) : restSame s (s.capturesCleared v k) :=
  restSame_foldl (fun t c => by
    split
    · exact restSame_foldl (fun _ _ => restSame_setReg ..) _ t
    · exact rfl) _ s

theorem fltCapClrFx_eq (v : Word) (s : State) : fltCapClrFx v s = s.capturesCleared v 9 := rfl

variable {q : Req} {v : Word}

/-- What an accepted write of FLT_ERRN_CLR does: it goes to the power die and waits, and nothing while the link is silent. -/
def errnForward (q : Req) (c : Cont) (silent : Bool) (w : Word) (t : State) : Bool × State :=
  if silent then (false, t) else (true, { t.emit (.die rFLT_ERRN_CLR w) with pdWrites := t.pdWrites ++ [⟨q, rFLT_ERRN_CLR, w, c⟩] })

theorem errnClr_accepted (ha : s.accepts q rFLT_ERRN_CLR v) (c : Cont) :
    let silent := s.flag rPD_LINK_STATUS fPD_LINK_STATUS_silent
    let e := errnForward q c silent v s
    s.errnClr q v c = if silent && decide ((if e.1 then none else some 0) = some 0) && s.reservedOk q rFLT_ERRN_CLR v then (some 5, e.2)
      else (if e.1 then none else some 0, e.2) := by
  intro silent e
  have hwrite : s.regWriteHold q rFLT_ERRN_CLR v c (errnForward q c silent) = (if e.1 then none else some 0, e.2) := regWriteHold_accepted ha c _
  change (if silent && decide ((s.regWriteHold q rFLT_ERRN_CLR v c (errnForward q c silent)).1 = some 0) && s.reservedOk q rFLT_ERRN_CLR v
    then (some 5, (s.regWriteHold q rFLT_ERRN_CLR v c (errnForward q c silent)).2) else s.regWriteHold q rFLT_ERRN_CLR v c (errnForward q c silent)) = _
  rw [hwrite]

theorem answered_errnClr_up (ha : s.accepts q rFLT_ERRN_CLR v) (hup : s.flag rPD_LINK_STATUS fPD_LINK_STATUS_silent = false) :
    answered q (s.errnClr q v (.done q)) =
      ({ s.emit (.die rFLT_ERRN_CLR v) with pdWrites := s.pdWrites ++ [⟨q, rFLT_ERRN_CLR, v, .done q⟩] } : State).hostWrote q := by
  rw [errnClr_accepted ha, hup]
  rfl

/-- A write that the checks let pass keeps the rules of the reserved fields. -/
theorem reservedOk_of_go {a : Nat} (h : s.checkWrite q a v = (.go, s)) : s.reservedOk q a v = true := by
  by_contra hno
  have hstop : s.reservedOk q a v = false := Bool.eq_false_iff.2 hno
  have hverdict := congrArg Prod.fst h
  unfold State.checkWrite at hverdict
  dsimp only at hverdict
  rw [hstop] at hverdict
  split_ifs at hverdict
  simp_all

/-- While the link is silent it completes with 0x5. -/
theorem answered_errnClr_silent (ha : s.accepts q rFLT_ERRN_CLR v) (hsilent : s.flag rPD_LINK_STATUS fPD_LINK_STATUS_silent = true) :
    answered q (s.errnClr q v (.done q)) = s.wrote q 5 := by
  rw [errnClr_accepted ha, hsilent, reservedOk_of_go ha.2.1]
  rfl

end FaultCommands

/-! ### The chain and the flush (R514 to R518) -/

section Chain

variable {s : State} {a : Nat}

theorem keyOk_congr {t : State} (h : t.keys = s.keys) (n : Nat) : t.keyOk n = s.keyOk n := by
  have hchain (k : Nat) : ∀ n, t.chainOk k n = s.chainOk k n := by
    induction k with
    | zero => exact fun _ => rfl
    | succ k ih =>
      intro n
      unfold State.chainOk
      rw [key_congr h]
      exact congrArg (fun b => _ && (_ || b)) (ih _)
  exact hchain 5 n

theorem ledgerKeyOk_congr {t : State} (hkeys : t.keys = s.keys) (hcfg : t.reg rLEDG_CFG = s.reg rLEDG_CFG) : t.ledgerKeyOk = s.ledgerKeyOk := by
  unfold State.ledgerKeyOk State.get
  dsimp only
  rw [hcfg, keyOk_congr hkeys, key_congr hkeys]

/-- Sealing an entry changes the ledger's tag, or its status. -/
theorem ledgerSeal_frame (s : State) (e : List Byte) : restSame s (s.ledgerSeal e).2 ∧
    regsBut [rLEDG_TAG_HI, rLEDG_TAG_LO, rLEDG_STATUS] s (s.ledgerSeal e).2 := by
  unfold State.ledgerSeal
  split
  · refine ⟨rfl, fun a ha => ?_⟩
    simp only [List.mem_cons, List.not_mem_nil, or_false, not_or] at ha
    exact (reg_setReg_ne _ _ ha.2.1).trans (reg_setReg_ne _ _ ha.1)
  · refine ⟨rfl, fun a ha => ?_⟩
    simp only [List.mem_cons, List.not_mem_nil, or_false, not_or] at ha
    exact reg_setReg_ne _ _ ha.2.2

/-- The seal leaves the first octet, the type. -/
theorem ledgerSeal_type (s : State) (b : Byte) (l : List Byte) : ∃ r, (s.ledgerSeal (b :: l)).1 = b :: r := by
  unfold State.ledgerSeal
  split <;> exact ⟨_, rfl⟩

/-- The offset at which the next entry is written (R517). -/
def State.ledgerOff (s : State) : Nat := if 4096 * s.partSectors ≤ (s.reg rLEDG_NEXT_OFF).toNat then 0 else (s.reg rLEDG_NEXT_OFF).toNat

/-- The sector ahead of an entry that begins one is erased. -/
def State.eraseAhead (s : State) (off sectors : Nat) : State :=
  if off % 4096 != 0 then s
  else if off / 4096 + 1 < sectors then s.eraseSector (off / 4096 + 1)
  else if s.flag rLEDG_CFG fLEDG_CFG_wrap then s.eraseSector 0 else s

/-- The state with an entry sealed and its octets in the partition, before the chain goes on to the next. -/
def State.entryStored (s : State) (e : List Byte) : State :=
  let r := s.ledgerSeal (e.take 4 ++ beBytes 4 (s.reg rLEDG_NEXT_NUM).toNat ++ slice e 8 16)
  let t := r.2.eraseAhead s.ledgerOff r.2.partSectors
  t.setBytes (t.partBase + s.ledgerOff) r.1

theorem ledgerWrite_eq (s : State) (e : List Byte) : s.ledgerWrite e =
    ((((s.entryStored e).setReg rLEDG_NEXT_NUM (s.reg rLEDG_NEXT_NUM + 1)).setReg rLEDG_NEXT_OFF (toW (s.ledgerOff + 32))).inc
      rLEDG_CNT_ENTRIES).put rLEDG_STATUS fLEDG_STATUS_partition_full 0 := rfl

theorem eraseAhead_frame (s : State) (off sectors : Nat) : (s.eraseAhead off sectors).regs = s.regs ∧ (s.eraseAhead off sectors).ledg = s.ledg := by
  unfold State.eraseAhead
  split
  · exact ⟨rfl, rfl⟩
  · split
    · exact ⟨rfl, rfl⟩
    · split <;> exact ⟨rfl, rfl⟩

theorem ledg_setBytes (s : State) (a : Nat) (l : List Byte) : (s.setBytes a l).ledg = s.ledg := by
  induction l generalizing s a with
  | nil => rfl
  | cons b l ih => rw [State.setBytes, ih]; rfl

theorem ledg_entryStored (s : State) (e : List Byte) : (s.entryStored e).ledg = s.ledg := by
  unfold State.entryStored
  rw [ledg_setBytes, (eraseAhead_frame ..).2, (ledgerSeal_frame s _).1]

/-- The first octet of an entry, its type, stands at its place in the partition. -/
theorem byte_entryStored (s : State) (b : Byte) (l : List Byte) : (s.entryStored (b :: l)).byte (s.partBase + s.ledgerOff) = b := by
  let e := b :: (l.take 3 ++ beBytes 4 (s.reg rLEDG_NEXT_NUM).toNat ++ slice (b :: l) 8 16)
  obtain ⟨r, hseal⟩ := ledgerSeal_type s b (l.take 3 ++ beBytes 4 (s.reg rLEDG_NEXT_NUM).toNat ++ slice (b :: l) 8 16)
  have hstored : s.entryStored (b :: l) = ((s.ledgerSeal e).2.eraseAhead s.ledgerOff (s.ledgerSeal e).2.partSectors).setBytes
      (((s.ledgerSeal e).2.eraseAhead s.ledgerOff (s.ledgerSeal e).2.partSectors).partBase + s.ledgerOff) (s.ledgerSeal e).1 := rfl
  have hbase : ((s.ledgerSeal e).2.eraseAhead s.ledgerOff (s.ledgerSeal e).2.partSectors).partBase = s.partBase := by
    unfold State.partBase
    rw [reg_congr (eraseAhead_frame ..).1, (ledgerSeal_frame s e).2 rLEDG_PART_BASE (by decide)]
  rw [hstored, hbase, hseal]
  exact byte_setBytes_in _ _ 0 (b :: r) (by simp)

/-- An entry written takes the next number and offset. -/
theorem reg_ledgerWrite_num (s : State) (e : List Byte) : (s.ledgerWrite e).reg rLEDG_NEXT_NUM = s.reg rLEDG_NEXT_NUM + 1 := by
  rw [ledgerWrite_eq, reg_put, if_neg (by decide), reg_inc, if_neg (by decide), reg_setReg_ne _ _ (by decide), reg_setReg_same]

theorem reg_ledgerWrite_off (s : State) (e : List Byte) : (s.ledgerWrite e).reg rLEDG_NEXT_OFF = toW (s.ledgerOff + 32) := by
  rw [ledgerWrite_eq, reg_put, if_neg (by decide), reg_inc, if_neg (by decide), reg_setReg_same]

theorem ledgerWrite_mem (s : State) (e : List Byte) : (s.ledgerWrite e).mem = (s.entryStored e).mem := by
  rw [ledgerWrite_eq, State.put_mem, State.inc_mem, State.setReg_mem, State.setReg_mem]

theorem byte_ledgerWrite (s : State) (b : Byte) (l : List Byte) : (s.ledgerWrite (b :: l)).byte (s.partBase + s.ledgerOff) = b := by
  have hstored := byte_entryStored s b l
  unfold State.byte at *
  rw [ledgerWrite_mem]
  exact hstored

theorem ledg_ledgerWrite (s : State) (e : List Byte) : (s.ledgerWrite e).ledg = s.ledg := by
  rw [ledgerWrite_eq, State.put_ledg, State.inc_ledg, State.setReg_ledg, State.setReg_ledg, ledg_entryStored]

/-- One entry flushed, where the partition has room (R517). -/
theorem flushWrite_one (hroom : s.partFull = false) : let t := s.ledgerWrite s.stagedHead
    s.flushWrite 1 = { t.put rLEDG_STATUS fLEDG_STATUS_staged (t.staged - 1) with ledg := { t.ledg with head := (t.ledg.head + 1) % 512 } } := by
  rw [State.flushWrite, hroom, if_neg Bool.false_ne_true]
  rfl

theorem reg_withLedg (s : State) (l : LedgSt) (a : Nat) : ({ s with ledg := l } : State).reg a = s.reg a := rfl

theorem flushWrite_one_goes (hroom : s.partFull = false) :
    (s.flushWrite 1).reg rLEDG_NEXT_NUM = s.reg rLEDG_NEXT_NUM + 1 ∧ (s.flushWrite 1).ledg.head = (s.ledg.head + 1) % 512 := by
  have hnum := reg_ledgerWrite_num s s.stagedHead
  have hledg := ledg_ledgerWrite s s.stagedHead
  rw [flushWrite_one hroom]
  generalize s.ledgerWrite s.stagedHead = w at *
  refine ⟨?_, ?_⟩
  · rw [reg_withLedg, reg_put, if_neg (by decide), hnum]
  · rw [hledg]

/-- A flush under way that ends with the key usable writes what it was begun with, or fewer where it failed. -/
theorem flushDone_usable (hflush : s.flag rLEDG_STATUS fLEDG_STATUS_flushing = true) (hkey : s.ledgerKeyOk = true) (failed : Option Nat) :
    let n := min s.ledg.flushTo s.staged
    let t := s.put rLEDG_STATUS fLEDG_STATUS_flushing 0
    s.flushDone failed = match failed with
      | some k => ((t.flushWrite (min k (n - 1))).inc rLEDG_CNT_FLUSH_ERR).raise 115
      | none =>
        let u := if n != 0 then (t.flushWrite n).put rLEDG_STATUS fLEDG_STATUS_untagged 0 else t.flushWrite n
        { u.irq 0x06 2 with ledg := { u.ledg with flushTo := 0 } } := by
  intro n t
  have ht : t.ledgerKeyOk = true := (ledgerKeyOk_congr (s := s) (t := t) rfl (reg_setReg_ne _ _ (by decide))).trans hkey
  unfold State.flushDone
  rw [hflush, if_neg (by decide)]
  dsimp only
  change (let usable := t.ledgerKeyOk || decide (n = 0); _) = _
  rw [ht]
  cases failed with
  | none => rfl
  | some k => rfl

end Chain

/-! ### Staging (R516, R518) -/

section Staging

variable {s : State} {type detail : Nat} {data : List Byte}

theorem stage_room (hon : s.enabled 0x06 = true) (hlost : s.ledg.lost = 0) (hroom : s.staged < 512) :
    s.stage type detail data = s.stagePut type detail data false none := by
  unfold State.stage
  dsimp only
  rw [hon, if_neg (by decide), hlost, if_neg (by rw [if_pos rfl]; omega), if_pos rfl]

theorem stage_full (hon : s.enabled 0x06 = true) (hlost : s.ledg.lost = 0) (hfull : 512 ≤ s.staged) : s.stage type detail data =
    ((({ s with ledg := { s.ledg with lost := 1 } } : State).inc rLEDG_CNT_LOST).irq 0x06 3).raise 116 := by
  unfold State.stage
  dsimp only
  rw [hon, if_neg (by decide), hlost, if_pos (by rw [if_pos rfl]; omega)]

theorem staged_stagePut {gap : Bool} {pdMs : Option Nat} (hroom : s.staged < 512) : (s.stagePut type detail data gap pdMs).staged = s.staged + 1 := by
  have hput := get_put_same (s.setBytes (stagingBase + 32 * ((s.ledg.head + s.staged) % 512)) (ledgerOctets s type detail data gap
    (((s.reg rLEDG_NEXT_NUM).toNat + s.staged) % 2 ^ 32) pdMs)) rLEDG_STATUS fLEDG_STATUS_staged (s.staged + 1) (by decide) (by decide)
  exact hput.trans (Nat.mod_eq_of_lt (by dsimp only; omega))

/-- The first octet of a staged entry is its type. -/
theorem byte_stagePut {gap : Bool} {pdMs : Option Nat} :
    (s.stagePut type detail data gap pdMs).byte (stagingBase + 32 * ((s.ledg.head + s.staged) % 512)) = toB type :=
  byte_setBytes_in _ _ 0 (ledgerOctets s type detail data gap (((s.reg rLEDG_NEXT_NUM).toNat + s.staged) % 2 ^ 32) pdMs) (Nat.succ_pos _)

end Staging

/-! ### LEDG_CMD (R519) -/

section LedgerCommands

variable {s : State}

/-- A flag that has been set is up. -/
theorem flag_put_one {a : Nat} {f : Fld} (hbit : f.hi = f.lo) (hword : f.hi < 32) : (s.put a f 1).flag a f = true := by
  unfold State.flag
  rw [get_put_same s a f 1 hbit.ge hword, hbit, Nat.add_sub_cancel_left]
  rfl

/-- The chain taken up from the resume registers. -/
def State.ledgAnchored (s : State) : State :=
  let t := (s.setReg rLEDG_NEXT_NUM (s.reg rLEDG_RESUME_NUM)).setReg rLEDG_NEXT_OFF (s.reg rLEDG_RESUME_OFF)
  let t := (t.setReg rLEDG_TAG_HI (t.reg rLEDG_RESUME_TAG_HI)).setReg rLEDG_TAG_LO (t.reg rLEDG_RESUME_TAG_LO)
  t.put rLEDG_STATUS fLEDG_STATUS_anchored 1

theorem ledgAnchor_idle (hidle : s.ledgBusy = false) : s.ledgAnchor = s.ledgAnchored := if_neg (by rw [hidle]; exact Bool.false_ne_true)

theorem reg_ledgAnchored_num : s.ledgAnchored.reg rLEDG_NEXT_NUM = s.reg rLEDG_RESUME_NUM := by
  unfold State.ledgAnchored
  rw [reg_put, if_neg (by decide), reg_setReg_ne _ _ (by decide), reg_setReg_ne _ _ (by decide), reg_setReg_ne _ _ (by decide), reg_setReg_same]

theorem reg_ledgAnchored_off : s.ledgAnchored.reg rLEDG_NEXT_OFF = s.reg rLEDG_RESUME_OFF := by
  unfold State.ledgAnchored
  rw [reg_put, if_neg (by decide), reg_setReg_ne _ _ (by decide), reg_setReg_ne _ _ (by decide), reg_setReg_same]

theorem reg_ledgAnchored_tagHi : s.ledgAnchored.reg rLEDG_TAG_HI = s.reg rLEDG_RESUME_TAG_HI := by
  unfold State.ledgAnchored
  rw [reg_put, if_neg (by decide), reg_setReg_ne _ _ (by decide), reg_setReg_same, reg_setReg_ne _ _ (by decide), reg_setReg_ne _ _ (by decide)]

theorem reg_ledgAnchored_tagLo : s.ledgAnchored.reg rLEDG_TAG_LO = s.reg rLEDG_RESUME_TAG_LO := by
  unfold State.ledgAnchored
  rw [reg_put, if_neg (by decide), reg_setReg_same, reg_setReg_ne _ _ (by decide), reg_setReg_ne _ _ (by decide)]

theorem memSame_ledgAnchored : memSame s s.ledgAnchored := by
  have hmem : s.ledgAnchored.mem = s.mem := by
    unfold State.ledgAnchored
    rw [State.put_mem, State.setReg_mem, State.setReg_mem, State.setReg_mem, State.setReg_mem]
  intro a
  unfold State.byte
  rw [hmem]

theorem flag_ledgAnchored : s.ledgAnchored.flag rLEDG_STATUS fLEDG_STATUS_anchored = true := by
  unfold State.ledgAnchored
  exact flag_put_one rfl (by decide)

/-- The chain cleared for a fresh partition. -/
def State.ledgCleared (s : State) : State := (((s.setReg rLEDG_NEXT_NUM 0).setReg rLEDG_NEXT_OFF 0).setReg rLEDG_TAG_HI 0).setReg rLEDG_TAG_LO 0

theorem reg_ledgCleared_num : s.ledgCleared.reg rLEDG_NEXT_NUM = 0 := by
  unfold State.ledgCleared
  rw [reg_setReg_ne _ _ (by decide), reg_setReg_ne _ _ (by decide), reg_setReg_ne _ _ (by decide), reg_setReg_same]

theorem ledgerOff_ledgCleared : s.ledgCleared.ledgerOff = 0 := by
  have hzero : s.ledgCleared.reg rLEDG_NEXT_OFF = 0 := by
    unfold State.ledgCleared
    rw [reg_setReg_ne _ _ (by decide), reg_setReg_ne _ _ (by decide), reg_setReg_same]
  unfold State.ledgerOff
  rw [hzero]
  exact ite_self _

theorem partBase_ledgCleared : s.ledgCleared.partBase = s.partBase := by
  unfold State.partBase State.ledgCleared
  rw [reg_setReg_ne _ _ (by decide), reg_setReg_ne _ _ (by decide), reg_setReg_ne _ _ (by decide), reg_setReg_ne _ _ (by decide)]

/-- A fresh chain is the type 0x60 entry at offset 0 of a cleared one. -/
theorem ledgFresh_idle (hidle : s.ledgBusy = false) (hpart : s.partSectors ≠ 0) : ∃ l, let w := s.ledgCleared.ledgerWrite (0x60 :: l)
    s.ledgFresh = (if s.ledgCleared.ledgerKeyOk then w else w.raise 117).put rLEDG_STATUS fLEDG_STATUS_anchored 1 :=
  ⟨_, (if_neg (by rw [hidle]; exact Bool.false_ne_true)).trans (if_neg hpart)⟩

theorem ledgFresh_begins (hidle : s.ledgBusy = false) (hpart : s.partSectors ≠ 0) : let t := s.ledgFresh
    t.reg rLEDG_NEXT_NUM = 1 ∧ t.reg rLEDG_NEXT_OFF = 32 ∧ t.flag rLEDG_STATUS fLEDG_STATUS_anchored = true ∧ t.byte s.partBase = 0x60 := by
  obtain ⟨l, hfresh⟩ := ledgFresh_idle hidle hpart
  have hnum := reg_ledgerWrite_num s.ledgCleared (0x60 :: l)
  have hoff := reg_ledgerWrite_off s.ledgCleared (0x60 :: l)
  have hbyte := byte_ledgerWrite s.ledgCleared 0x60 l
  rw [reg_ledgCleared_num] at hnum
  rw [ledgerOff_ledgCleared] at hoff
  rw [ledgerOff_ledgCleared, partBase_ledgCleared] at hbyte
  dsimp only at hfresh ⊢
  rw [hfresh]
  generalize s.ledgCleared.ledgerWrite (0x60 :: l) = w at *
  have hreg (a : Nat) : (if s.ledgCleared.ledgerKeyOk then w else w.raise 117).reg a = w.reg a := by
    split
    · rfl
    · exact reg_raise ..
  have hmem (a : Nat) : (if s.ledgCleared.ledgerKeyOk then w else w.raise 117).byte a = w.byte a := by
    split
    · rfl
    · exact rfl
  generalize (if s.ledgCleared.ledgerKeyOk then w else w.raise 117) = u at *
  refine ⟨?_, ?_, flag_put_one rfl (by decide), ?_⟩
  · rw [reg_put, if_neg (by decide), hreg, hnum]
    rfl
  · rw [reg_put, if_neg (by decide), hreg, hoff]
    rfl
  · unfold State.put
    rw [byte_setReg, hmem, ← hbyte, Nat.add_zero]

/-- A flush on command, of what is staged (R517). -/
theorem flushStart_anchored (hon : s.enabled 0x06 = true) (hanchored : s.flag rLEDG_STATUS fLEDG_STATUS_anchored = true)
    (hidle : s.flag rLEDG_STATUS fLEDG_STATUS_flushing = false) (hpart : s.partSectors ≠ 0) : s.flushStart =
    { s.put rLEDG_STATUS fLEDG_STATUS_flushing 1 with ledg := { s.ledg with flushTo := s.staged } } :=
  if_pos (by simp [hon, hanchored, hidle, hpart])

theorem bitOf_or_set {v m : Word} {n : Nat} (hm : bitOf m n = true) : bitOf (v ||| m) n = true := by rw [bitOf_or, hm, Bool.or_true]

theorem bitOf_or_clear {v m : Word} {n : Nat} {b : Bool} (h : bitOf v n = b) (hm : bitOf m n = false) : bitOf (v ||| m) n = b := by
  rw [bitOf_or, hm, Bool.or_false, h]

/-- A write of LEDG_CMD with one bit set does that bit's command. -/
theorem ledgCmdFx_anchor {v : Word} (h1 : bitOf v 1 = false) (h2 : bitOf v 2 = false) (h3 : bitOf v 3 = false) :
    ledgCmdFx (v ||| 1) s = s.ledgAnchor := by
  unfold ledgCmdFx
  simp only [bitOf_or_set (m := 1) (n := 0) rfl, bitOf_or_clear (m := 1) h1 rfl, bitOf_or_clear (m := 1) h2 rfl, bitOf_or_clear (m := 1) h3 rfl,
    if_true, Bool.false_eq_true, if_false]

theorem ledgCmdFx_fresh {v : Word} (h0 : bitOf v 0 = false) (h2 : bitOf v 2 = false) (h3 : bitOf v 3 = false) :
    ledgCmdFx (v ||| 2) s = s.ledgFresh := by
  unfold ledgCmdFx
  simp only [bitOf_or_set (m := 2) (n := 1) rfl, bitOf_or_clear (m := 2) h0 rfl, bitOf_or_clear (m := 2) h2 rfl, bitOf_or_clear (m := 2) h3 rfl,
    if_true, Bool.false_eq_true, if_false]

theorem ledgCmdFx_note {v : Word} (h0 : bitOf v 0 = false) (h1 : bitOf v 1 = false) (h2 : bitOf v 2 = false) :
    ledgCmdFx (v ||| 8) s = s.ledgNote := by
  unfold ledgCmdFx
  simp only [bitOf_or_set (m := 8) (n := 3) rfl, bitOf_or_clear (m := 8) h0 rfl, bitOf_or_clear (m := 8) h1 rfl, bitOf_or_clear (m := 8) h2 rfl,
    if_true, Bool.false_eq_true, if_false]

theorem ledgCmdFx_flush {v : Word} (h0 : bitOf v 0 = false) (h1 : bitOf v 1 = false) (h3 : bitOf v 3 = false) :
    ledgCmdFx (v ||| 4) s = s.flushStart := by
  unfold ledgCmdFx
  simp only [bitOf_or_set (m := 4) (n := 2) rfl, bitOf_or_clear (m := 4) h0 rfl, bitOf_or_clear (m := 4) h1 rfl, bitOf_or_clear (m := 4) h3 rfl,
    if_true, Bool.false_eq_true, if_false]

end LedgerCommands

/-- Settles O53: each fault command's effect is one branch; the ledger's commands are read by their bit, its flush by what it was begun with. -/
theorem faultCommandsAndLedger : Obligations.FaultCommandsAndLedger := by
  unfold Obligations.FaultCommandsAndLedger
  refine ⟨fun s q => ⟨fun src page m nd ty sz a => ⟨fun hm => ?_, fun hm => ?_, faultEffect_none⟩, fun src page hon => congrArg (finish s) (if_pos hon),
      fun src page => rfl, fun v ha => ⟨_, exec_writeReg_accepted (fx := fltAckFx) rfl ha rfl, (fltAckFx_frame v s).1, (fltAckFx_frame v s).2,
        fun i hi => bitOf_fltAckFx v s hi⟩,
      fun v ha => ⟨_, exec_writeReg_accepted (fx := fltCapClrFx) rfl ha (fltCapClrFx_eq v s), restSame_capturesCleared s v 9, fun c w => ?_⟩,
      fun v ha => ⟨fun hup => congrArg (finish s) (answered_errnClr_up ha hup), fun hsilent => congrArg (finish s) (answered_errnClr_silent ha hsilent)⟩,
      fun h => congrArg (finish s) (if_pos h), fun h => congrArg (finish s) (if_neg (by rw [h]; exact Bool.false_ne_true))⟩,
    fun s q => ⟨fun v ha h1 h2 h3 => ⟨fun hidle => ?anchor, fun hbusy => ?anchorBusy⟩, fun v ha h0 h2 h3 hidle hpart => ?fresh,
      fun v ha h0 h1 h2 => ?note, fun v ha h0 h1 h3 hon hanchored hidle hpart => ?flush, fun hflush hkey => ⟨?done, fun k => ?failed⟩,
      fun hroom hkey => ?written, fun type detail data hon hlost hroom => ?staged, fun type detail data => stage_full,
      fun type detail data hoff => ?off⟩⟩
  · exact congrArg (finish s) (congrArg (State.faultEffect · src a) (congrArg s.fault (if_neg hm)))
  · exact congrArg (finish s) (congrArg (State.faultEffect · src a) (congrArg s.fault (if_pos hm)))
  · rw [reg_capturesCleared s v 9 c w.isLt]
    exact if_congr (and_iff_right c.isLt) rfl rfl
  case anchor =>
    exact ⟨s.ledgAnchored, exec_writeReg_accepted rfl ha ((ledgCmdFx_anchor h1 h2 h3).trans (ledgAnchor_idle hidle)), reg_ledgAnchored_num,
      reg_ledgAnchored_off, reg_ledgAnchored_tagHi, reg_ledgAnchored_tagLo, flag_ledgAnchored, memSame_ledgAnchored⟩
  case anchorBusy => exact exec_writeReg_accepted rfl ha ((ledgCmdFx_anchor h1 h2 h3).trans (if_pos hbusy))
  case fresh => exact ⟨s.ledgFresh, exec_writeReg_accepted rfl ha (ledgCmdFx_fresh h0 h2 h3), ledgFresh_begins hidle hpart⟩
  case note => exact exec_writeReg_accepted rfl ha (ledgCmdFx_note h0 h1 h2)
  case flush => exact exec_writeReg_accepted rfl ha ((ledgCmdFx_flush h0 h1 h3).trans (flushStart_anchored hon hanchored hidle hpart))
  case done =>
    refine congrArg (fun t : State => finish s t.pwrWaited) ((flushDone_usable hflush hkey none).trans ?_)
    by_cases hn : min s.ledg.flushTo s.staged = 0
    · simp [hn, State.flushWrite]
    · simp [hn]
  case failed => exact congrArg (fun t : State => finish s t.pwrWaited) (flushDone_usable hflush hkey (some k))
  case written => exact flushWrite_one_goes hroom
  case staged =>
    dsimp only
    rw [stage_room hon hlost hroom]
    exact ⟨staged_stagePut hroom, byte_stagePut⟩
  case off => exact if_pos (by simp [hoff])
end Sys2Proof.Machine
end

section
/-! PROOF. O55: the feeds and the hot-swap sequencer of the power die (R472 to R482). -/
namespace Sys2Proof.Machine

/-! ### The power die's registers through its operations -/

section PdRegisters

variable {s : State} {a b : Nat}

theorem pdReg_congr {t : State} (h : t.pd.regs = s.pd.regs) (a : Nat) : t.pdReg a = s.pdReg a := by
  unfold State.pdReg
  rw [h]

theorem pdReg_pdSet_same (s : State) (a : Nat) (v : Word) : (s.pdSet a v).pdReg a = v := by
  unfold State.pdReg
  rw [pd_pdSet]
  exact spGet_spSet_same ..

theorem pdReg_pdSet_ne (v : Word) (h : b ≠ a) : (s.pdSet a v).pdReg b = s.pdReg b := by
  unfold State.pdReg
  rw [pd_pdSet]
  exact spGet_spSet_ne _ _ _ h

theorem pdReg_pdPut_ne (f : Fld) (n : Nat) (h : b ≠ a) : (s.pdPut a f n).pdReg b = s.pdReg b := pdReg_pdSet_ne _ h

theorem pdGet_pdPut_same (s : State) (a : Nat) (f : Fld) (n : Nat) (h : f.lo ≤ f.hi) (h' : f.hi < 32) :
    (s.pdPut a f n).pdGet a f = n % 2 ^ (f.hi + 1 - f.lo) := by
  unfold State.pdGet State.pdPut
  rw [pdReg_pdSet_same, fldOf_fldPut_same _ _ _ h h']

theorem pdGet_pdPut_other (s : State) (a : Nat) (f g : Fld) (n : Nat) (h : f.lo ≤ f.hi) (h' : f.hi < 32) (hg : g.hi < f.lo ∨ f.hi < g.lo) :
    (s.pdPut a f n).pdGet a g = s.pdGet a g := by
  unfold State.pdGet State.pdPut
  rw [pdReg_pdSet_same, fldOf_fldPut_other _ _ _ _ h h' hg]

theorem pdGet_congr {t : State} {f : Fld} (h : t.pdReg a = s.pdReg a) : t.pdGet a f = s.pdGet a f := by
  unfold State.pdGet
  rw [h]

theorem pd_stage (s : State) (type detail : Nat) (data : List Byte) (pdMs : Option Nat) : (s.stage type detail data pdMs).pd = s.pd := by
  have hset (t : State) (a : Nat) (l : List Byte) : (t.setBytes a l).pd = t.pd := by
    induction l generalizing t a with
    | nil => rfl
    | cons b l ih => rw [State.setBytes, ih]; rfl
  have hput (t : State) (type detail : Nat) (data : List Byte) (gap : Bool) (pdMs : Option Nat) : (t.stagePut type detail data gap pdMs).pd = t.pd := by
    unfold State.stagePut
    dsimp only
    rw [State.put_pd, hset]
  unfold State.stage
  dsimp only
  generalize (if s.ledg.lost = 0 then 1 else 2) = need
  split_ifs
  · rfl
  · rfl
  · exact hput ..
  · exact (hput ..).trans (hput ..)

/-- An event changes no register of the power die but the count of its buffer. -/
theorem pdReg_pdEvent_ne {code arg : Nat} {data : List Byte} (h : a ≠ rPD_EVT_STATUS) : (s.pdEvent code arg data).pdReg a = s.pdReg a := by
  unfold State.pdEvent
  split
  · exact pdReg_congr (congrArg PdSt.regs (pd_stage ..)) a
  · split
    · exact (pdReg_pdPut_ne _ _ h).trans rfl
    · exact pdReg_pdPut_ne _ _ h

theorem pdReg_pdRaise (s : State) (src page a : Nat) : (s.pdRaise src page).pdReg a = s.pdReg a := by
  unfold State.pdRaise
  split <;> rfl

theorem pdReg_pdIrq (s : State) (p n a : Nat) : (s.pdIrq p n).pdReg a = s.pdReg a := pdReg_congr (congrArg PdSt.regs (pd_pdIrq ..)) a

theorem pdReg_outsShow (h : a < 0xF4000) : s.outsShow.pdReg a = s.pdReg a := by
  have hshow (t : State) (g : Nat) : (t.outShow g).pdReg a = t.pdReg a := pdReg_pdSet_ne _ (by dsimp only [rPD_DIO_STATE]; omega)
  unfold State.outsShow
  rw [hshow, hshow, hshow, hshow]

end PdRegisters

/-! ### What the sequencer leaves of the feeds -/

section Feeds

/-- The feeds, and the debounce. -/
def State.feeds (s : State) : Nat × Nat × Bool × Bool × Nat × Nat × Bool :=
  (s.pd.valid, s.pd.pres, s.pd.ov, s.pd.debounced, s.pd.debMs, s.pd.seated, s.pd.lost)

theorem feeds_congr {s t : State} (h : t.pd = s.pd) : t.feeds = s.feeds := by
  unfold State.feeds
  rw [h]

variable (s : State)

theorem feeds_pdSet (a : Nat) (v : Word) : (s.pdSet a v).feeds = s.feeds := by
  unfold State.feeds
  rw [pd_pdSet]

theorem feeds_pdPut (a : Nat) (f : Fld) (n : Nat) : (s.pdPut a f n).feeds = s.feeds := feeds_pdSet ..

theorem feeds_pdIrq (p n : Nat) : (s.pdIrq p n).feeds = s.feeds := feeds_congr (pd_pdIrq ..)

theorem feeds_pdEvent (code arg : Nat) (data : List Byte) : (s.pdEvent code arg data).feeds = s.feeds := by
  unfold State.pdEvent
  split
  · exact feeds_congr (pd_stage ..)
  · split
    · exact (feeds_pdPut ..).trans rfl
    · exact feeds_pdPut ..

theorem feeds_outsShow : s.outsShow.feeds = s.feeds := by
  have hshow (t : State) (g : Nat) : (t.outShow g).feeds = t.feeds := feeds_pdSet ..
  unfold State.outsShow
  rw [hshow, hshow, hshow, hshow]

end Feeds

/-! ### PGOOD and the states (R475, R478) -/

section Sequencer

variable {s : State}

/-- HPWR_EN follows PGOOD in its own field of PD_HS_STATUS. -/
theorem hpwr_shown (s : State) : ∃ n, s.hpwr.pd = (s.pdPut rPD_HS_STATUS fPD_HS_STATUS_hpwr_en n).pd := by
  refine ⟨b2n (s.pgood && !s.pd.l6), ?_⟩
  unfold State.hpwr
  dsimp only
  split
  · exact State.put_pd ..
  · rfl

/-- A change of PGOOD shown, with its event. -/
def State.pgoodShown (s : State) (on : Bool) : State :=
  ((s.pdPut rPD_HS_STATUS fPD_HS_STATUS_pgood (b2n on)).pdIrq 0xF0 2).pdEvent (if on then 0x03 else 0x04) 0 []

/-- A fall of PGOOD with HPWR_EN released is a reset's cause. -/
def State.pgoodCaused (s : State) (on : Bool) : State :=
  if !on && (s.pgoodShown on).pdFlag rPD_HS_STATUS fPD_HS_STATUS_hpwr_en then (s.pgoodShown on).pdOr rPD_RESET_CAUSE 2 else s.pgoodShown on

/-- What a change of PGOOD does before it goes on to HPWR_EN and the outputs. -/
def State.pgoodTurned (s : State) (on : Bool) : State :=
  { s.pgoodCaused on with pd := { (s.pgoodCaused on).pd with
      first := (s.pgoodCaused on).pd.first && !on, clearRun := on, held := (s.pgoodCaused on).pd.held && !on } }

theorem setPgood_turned {on : Bool} (h : on ≠ s.pgood) : s.setPgood on = (s.pgoodTurned on).hpwr.outsShow := if_neg h

theorem pdReg_pgoodTurned {a : Nat} (on : Bool) (hevt : a ≠ rPD_EVT_STATUS) (hcause : a ≠ rPD_RESET_CAUSE) :
    (s.pgoodTurned on).pdReg a = (s.pdPut rPD_HS_STATUS fPD_HS_STATUS_pgood (b2n on)).pdReg a := by
  have hshown : (s.pgoodShown on).pdReg a = (s.pdPut rPD_HS_STATUS fPD_HS_STATUS_pgood (b2n on)).pdReg a :=
    (pdReg_pdEvent_ne hevt).trans (pdReg_pdIrq ..)
  refine (pdReg_congr (s := s.pgoodCaused on) rfl a).trans (Eq.trans ?_ hshown)
  unfold State.pgoodCaused
  split
  · exact pdReg_pdSet_ne _ hcause
  · rfl

theorem feeds_pgoodTurned (on : Bool) : (s.pgoodTurned on).feeds = s.feeds := by
  have hshown : (s.pgoodShown on).feeds = s.feeds := (feeds_pdEvent ..).trans ((feeds_pdIrq ..).trans (feeds_pdPut ..))
  refine Eq.trans ?_ hshown
  change (s.pgoodCaused on).feeds = (s.pgoodShown on).feeds
  unfold State.pgoodCaused
  split
  · exact feeds_pdSet ..
  · rfl

theorem feeds_setPgood (on : Bool) : (s.setPgood on).feeds = s.feeds := by
  by_cases h : on = s.pgood
  · exact congrArg State.feeds (if_pos h)
  · obtain ⟨n, hpd⟩ := hpwr_shown (s.pgoodTurned on)
    rw [setPgood_turned h, feeds_outsShow, feeds_congr hpd, feeds_pdPut, feeds_pgoodTurned]

/-- A field of PD_HS_STATUS beside HPWR_EN's, once PGOOD has turned. -/
theorem pdGet_setPgood_of_turned {on : Bool} {f : Fld} (h : on ≠ s.pgood) (hf : f.hi < 21 ∨ 21 < f.lo) :
    (s.setPgood on).pdGet rPD_HS_STATUS f = (s.pdPut rPD_HS_STATUS fPD_HS_STATUS_pgood (b2n on)).pdGet rPD_HS_STATUS f := by
  obtain ⟨n, hpd⟩ := hpwr_shown (s.pgoodTurned on)
  rw [setPgood_turned h, pdGet_congr (pdReg_outsShow (by decide)), pdGet_congr (pdReg_congr (congrArg PdSt.regs hpd) _),
    pdGet_pdPut_other _ _ _ _ _ (by decide) (by decide) hf, pdGet_congr (pdReg_pgoodTurned on (by decide) (by decide))]

/-- A field of PD_HS_STATUS beside those of PGOOD and HPWR_EN. -/
theorem pdGet_setPgood (on : Bool) {f : Fld} (hf : f.hi < 21 ∨ 21 < f.lo) (hf' : f.hi < 23 ∨ 23 < f.lo) :
    (s.setPgood on).pdGet rPD_HS_STATUS f = s.pdGet rPD_HS_STATUS f := by
  by_cases h : on = s.pgood
  · exact congrArg (State.pdGet · _ _) (if_pos h)
  · rw [pdGet_setPgood_of_turned h hf, pdGet_pdPut_other _ _ _ _ _ (by decide) (by decide) hf']

theorem pgood_setPgood (on : Bool) : (s.setPgood on).pgood = on := by
  by_cases h : on = s.pgood
  · rw [show s.setPgood on = s from if_pos h, h]
  · unfold State.pgood State.pdFlag
    rw [pdGet_setPgood_of_turned h (by decide), pdGet_pdPut_same _ _ _ _ (by decide) (by decide)]
    cases on <;> rfl

theorem pdReg_setPgood {a : Nat} (on : Bool) (ha : a < 0xF4000) (hstatus : a ≠ rPD_HS_STATUS) (hevt : a ≠ rPD_EVT_STATUS) (hcause : a ≠ rPD_RESET_CAUSE) :
    (s.setPgood on).pdReg a = s.pdReg a := by
  by_cases h : on = s.pgood
  · exact congrArg (State.pdReg · a) (if_pos h)
  · obtain ⟨n, hpd⟩ := hpwr_shown (s.pgoodTurned on)
    rw [setPgood_turned h, pdReg_outsShow ha, pdReg_congr (congrArg PdSt.regs hpd), pdReg_pdPut_ne _ _ hstatus, pdReg_pgoodTurned on hevt hcause,
      pdReg_pdPut_ne _ _ hstatus]

/-- The enhancement ends. -/
def State.enhOff (s : State) : State := { s with pd := { s.pd with enh := false } }

/-- The fault timer is clear. -/
def State.heldOff (s : State) : State := { s with pd := { s.pd with held := false } }

theorem pdReg_enhOff (s : State) (a : Nat) : s.enhOff.pdReg a = s.pdReg a := rfl
theorem pdReg_heldOff (s : State) (a : Nat) : s.heldOff.pdReg a = s.pdReg a := rfl
theorem feeds_enhOff (s : State) : s.enhOff.feeds = s.feeds := rfl
theorem feeds_heldOff (s : State) : s.heldOff.feeds = s.feeds := rfl

/-- The sequencer's state shown. -/
def State.hsShown (s : State) (n : Nat) : State :=
  ((s.pdPut rPD_HS_STATUS fPD_HS_STATUS_state n).pdPut rPD_HS_STATUS fPD_HS_STATUS_latched (b2n (decide (n = hsLatched)))).enhOff

/-- Out of the driven states no limit acts. -/
def State.limitOff (s : State) : State := (s.pdPut rPD_HS_STATUS fPD_HS_STATUS_in_limit 0).heldOff

theorem hsGo_eq (s : State) (n : Nat) :
    s.hsGo n = (if hsRamp ≤ n && n ≤ hsOn then s.hsShown n else (s.hsShown n).limitOff).setPgood (decide (n = hsOn)) := by
  unfold State.hsGo State.limitOff State.heldOff State.hsShown State.enhOff
  rfl

theorem pgood_hsGo (s : State) (n : Nat) : (s.hsGo n).pgood = decide (n = hsOn) := pgood_setPgood ..

/-- The state shows in PD_HS_STATUS. -/
theorem hs_hsGo (s : State) {n : Nat} (hn : n < 8) : (s.hsGo n).hs = n := by
  have hshown : (s.hsShown n).pdGet rPD_HS_STATUS fPD_HS_STATUS_state = n := by
    unfold State.hsShown
    rw [pdGet_congr (pdReg_enhOff ..), pdGet_pdPut_other _ _ _ _ _ (by decide) (by decide) (by decide),
      pdGet_pdPut_same _ _ _ _ (by decide) (by decide)]
    exact Nat.mod_eq_of_lt hn
  unfold State.hs
  rw [hsGo_eq, pdGet_setPgood _ (by decide) (by decide)]
  split
  · exact hshown
  · unfold State.limitOff
    rw [pdGet_congr (pdReg_heldOff ..), pdGet_pdPut_other _ _ _ _ _ (by decide) (by decide) (by decide), hshown]

theorem feeds_hsGo (s : State) (n : Nat) : (s.hsGo n).feeds = s.feeds := by
  have hshown : (s.hsShown n).feeds = s.feeds := by
    unfold State.hsShown
    rw [feeds_enhOff, feeds_pdPut, feeds_pdPut]
  rw [hsGo_eq, feeds_setPgood]
  split
  · exact hshown
  · unfold State.limitOff
    rw [feeds_heldOff, feeds_pdPut, hshown]

theorem pdReg_hsGo {n a : Nat} (ha : a < 0xF4000) (hstatus : a ≠ rPD_HS_STATUS) (hevt : a ≠ rPD_EVT_STATUS) (hcause : a ≠ rPD_RESET_CAUSE) :
    (s.hsGo n).pdReg a = s.pdReg a := by
  have hshown : (s.hsShown n).pdReg a = s.pdReg a := by
    unfold State.hsShown
    rw [pdReg_enhOff, pdReg_pdPut_ne _ _ hstatus, pdReg_pdPut_ne _ _ hstatus]
  rw [hsGo_eq, pdReg_setPgood _ ha hstatus hevt hcause]
  split
  · exact hshown
  · unfold State.limitOff
    rw [pdReg_heldOff, pdReg_pdPut_ne _ _ hstatus, hshown]

/-- A fault of the sequencer is its bit, and at most a source beside. -/
theorem hsFault_raises (s : State) (bit : Nat) : let t := (s.pdOr rPD_HS_FAULT (2 ^ bit)).pdIrq 0xF0 3
    s.hsFault bit = t ∨ ∃ src, s.hsFault bit = t.pdRaise src := by
  unfold State.hsFault
  dsimp only
  split_ifs
  · exact .inr ⟨98, rfl⟩
  · exact .inr ⟨99, rfl⟩
  · exact .inr ⟨102, rfl⟩
  · exact .inr ⟨103, rfl⟩
  · exact .inr ⟨104, rfl⟩
  · exact .inl rfl

/-- A fault of the sequencer writes its bit of PD_HS_FAULT, and no other register of the power die. -/
theorem pdReg_hsFault (s : State) (bit a : Nat) :
    (s.hsFault bit).pdReg a = if a = rPD_HS_FAULT then s.pdReg rPD_HS_FAULT ||| toW (2 ^ bit) else s.pdReg a := by
  have hraised : (s.hsFault bit).pdReg a = ((s.pdOr rPD_HS_FAULT (2 ^ bit)).pdIrq 0xF0 3).pdReg a := by
    obtain h | ⟨src, h⟩ := hsFault_raises s bit
    · rw [h]
    · rw [h, pdReg_pdRaise]
  rw [hraised, pdReg_pdIrq]
  split
  · next h => rw [h]; exact pdReg_pdSet_same ..
  · next h => exact pdReg_pdSet_ne _ h

theorem hs_hsFault (s : State) (bit : Nat) : (s.hsFault bit).hs = s.hs := pdGet_congr ((pdReg_hsFault ..).trans (if_neg (by decide)))

theorem feeds_hsFault (s : State) (bit : Nat) : (s.hsFault bit).feeds = s.feeds := by
  have hraise (t : State) (src page : Nat) : (t.pdRaise src page).feeds = t.feeds := by
    unfold State.pdRaise
    split <;> rfl
  have hbit : ((s.pdOr rPD_HS_FAULT (2 ^ bit)).pdIrq 0xF0 3).feeds = s.feeds := (feeds_pdIrq ..).trans (feeds_pdSet ..)
  obtain h | ⟨src, h⟩ := hsFault_raises s bit
  · rw [h, hbit]
  · rw [h, hraise, hbit]

/-! ### Trips (R475, R482) -/

theorem hs_hsLatch (s : State) (cause : Nat) : (s.hsLatch cause).hs = hsLatched := hs_hsGo _ (by decide)

theorem trips_hsLatch (s : State) (cause : Nat) : (s.hsLatch cause).pdReg rPD_CNT_TRIP = s.pdReg rPD_CNT_TRIP := by
  unfold State.hsLatch
  rw [pdReg_hsGo (by decide) (by decide) (by decide) (by decide), pdReg_pdEvent_ne (by decide), pdReg_hsFault, if_neg (by decide), pdReg_hsFault,
    if_neg (by decide)]

/-- A trip counted, with the retries that it has taken. -/
def State.tripCounted (s : State) : State :=
  (s.pdInc rPD_CNT_TRIP).pdPut rPD_HS_STATUS fPD_HS_STATUS_retry_count (s.pdGet rPD_HS_STATUS fPD_HS_STATUS_retry_count + 1)

/-- The events of a trip. -/
def State.tripNoted (s : State) (cause : Nat) : State :=
  if cause = 2 then (s.tripCounted.pdEvent 0x05 cause []).pdEvent 0x08 0 [] else s.tripCounted.pdEvent 0x05 cause []

/-- A trip ends the first ramp. -/
def State.tripped (s : State) (cause : Nat) : State := { s.tripNoted cause with pd := { (s.tripNoted cause).pd with first := false } }

theorem hsTrip_eq (s : State) (cause : Nat) : s.hsTrip cause =
    if fldOf s.hsCfg fPD_HS_CFG_retries < s.pdGet rPD_HS_STATUS fPD_HS_STATUS_retry_count + 1 then (s.tripped cause).hsLatch cause
    else (((s.tripped cause).hsFault cause).hsGo hsCool).pdPut rPD_HS_STATUS fPD_HS_STATUS_cooldown_left
      ((fldOf s.hsCfg fPD_HS_CFG_cooldown + 1) * 100) := by
  unfold State.hsTrip State.tripped State.tripNoted State.tripCounted
  rfl

theorem trips_tripped (s : State) (cause : Nat) : (s.tripped cause).pdReg rPD_CNT_TRIP = s.pdReg rPD_CNT_TRIP + 1 := by
  have hcounted : s.tripCounted.pdReg rPD_CNT_TRIP = s.pdReg rPD_CNT_TRIP + 1 := (pdReg_pdPut_ne _ _ (by decide)).trans (pdReg_pdSet_same ..)
  have hnoted : (s.tripNoted cause).pdReg rPD_CNT_TRIP = s.pdReg rPD_CNT_TRIP + 1 := by
    unfold State.tripNoted
    split
    · rw [pdReg_pdEvent_ne (by decide), pdReg_pdEvent_ne (by decide), hcounted]
    · rw [pdReg_pdEvent_ne (by decide), hcounted]
  exact hnoted

theorem trips_hsTrip (s : State) (cause : Nat) : (s.hsTrip cause).pdReg rPD_CNT_TRIP = s.pdReg rPD_CNT_TRIP + 1 := by
  rw [hsTrip_eq, ← trips_tripped s cause]
  split
  · exact trips_hsLatch ..
  · rw [pdReg_pdPut_ne _ _ (by decide), pdReg_hsGo (by decide) (by decide) (by decide) (by decide), pdReg_hsFault, if_neg (by decide)]

theorem hs_hsTrip_cools (cause : Nat) (h : s.pdGet rPD_HS_STATUS fPD_HS_STATUS_retry_count + 1 ≤ fldOf s.hsCfg fPD_HS_CFG_retries) :
    (s.hsTrip cause).hs = hsCool := by
  unfold State.hs
  rw [hsTrip_eq, if_neg (by omega), pdGet_pdPut_other _ _ _ _ _ (by decide) (by decide) (by decide)]
  exact hs_hsGo _ (by decide)

theorem hs_hsTrip_latches (cause : Nat) (h : fldOf s.hsCfg fPD_HS_CFG_retries < s.pdGet rPD_HS_STATUS fPD_HS_STATUS_retry_count + 1) :
    (s.hsTrip cause).hs = hsLatched := by
  rw [hsTrip_eq, if_pos h]
  exact hs_hsLatch ..

/-! ### Readiness (R475, R476, R481) -/

theorem hsReady_of_feeds {t : State} (h : t.feeds = s.feeds) : t.hsReady = s.hsReady := by
  simp only [State.feeds, Prod.mk.injEq] at h
  obtain ⟨hvalid, hpres, _⟩ := h
  unfold State.hsReady
  rw [hvalid, hpres]

/-- In WAIT with a feed ready and its debounce to run, the sequencer goes on to DEBOUNCE and no further. -/
theorem hsAdvance_waits (hwait : s.hs = hsWait) (hready : s.hsReady = true) (hov : s.pd.ov = false) (hdeb : s.pd.debounced = false) :
    s.hsAdvance = s.hsGo hsDebounce := by
  have hdeb' : (s.hsGo hsDebounce).pd.debounced = false := (congrArg (fun f : Nat × Nat × Bool × Bool × Nat × Nat × Bool => f.2.2.2.1) (feeds_hsGo s hsDebounce)).trans hdeb
  have hfirst : (if s.hs = hsWait && s.hsReady && !s.pd.ov then s.hsGo hsDebounce else s) = s.hsGo hsDebounce := if_pos (by simp [hwait, hready, hov])
  unfold State.hsAdvance
  dsimp only
  rw [hfirst, if_neg (by simp [hdeb'])]

theorem hsAdvance_debounced (hstate : s.hs = hsDebounce) (hready : s.hsReady = true) (hov : s.pd.ov = false) (hdeb : s.pd.debounced = true) :
    s.hsAdvance = s.hsGo hsCheck := by
  have hfirst : (if s.hs = hsWait && s.hsReady && !s.pd.ov then s.hsGo hsDebounce else s) = s := if_neg (by simp [hstate])
  unfold State.hsAdvance
  dsimp only
  rw [hfirst, if_pos (by simp [hstate, hready, hov, hdeb])]

/-- A change of the feeds shown, with its event, and the loss of one that carried the card counted. -/
def State.feedsNoted (s : State) (n : Nat) (was : Bool) : State :=
  let now := s.pd.valid.testBit n && s.pd.pres.testBit n
  let t := s.feedShow.pdIrq 0xF0 4
  let u := if was = now then t else t.pdEvent 0x0A (n + 1) [toB (n + 1), toB (b2n now)]
  if was && !now && u.pgood then u.pdInc rPD_CNT_FEED_LOSS else u

/-- A feed that is ready first: its debounce starts, short where the card was seated. -/
def State.debounceBegun (s : State) (n : Nat) : State :=
  { s with pd := { s.pd with debMs := if s.pd.seated.testBit n && !s.pd.lost then 5 else 100, debounced := false } }

/-- The last feed is lost. -/
def State.feedsLost (s : State) : State := { s with pd := { s.pd with lost := true, debounced := false } }

theorem feedsChanged_eq (s : State) (n : Nat) (was ready : Bool) : s.feedsChanged n was ready =
    if (s.feedsNoted n was).hsReady && !ready then
      (if ((s.feedsNoted n was).debounceBegun n).hs = hsCool then (((s.feedsNoted n was).debounceBegun n).hsFault 4).pdEvent 0x07 0 []
        else (s.feedsNoted n was).debounceBegun n).hsAdvance
    else if !(s.feedsNoted n was).hsReady && ready then
      (if (s.feedsNoted n was).feedsLost.hs = hsCool || (s.feedsNoted n was).feedsLost.hs = hsLatched then (s.feedsNoted n was).feedsLost
        else (s.feedsNoted n was).feedsLost.hsGo hsWait)
    else s.feedsNoted n was := by
  unfold State.feedsChanged State.debounceBegun State.feedsLost State.feedsNoted
  rfl

theorem feedsNoted_frame (s : State) (n : Nat) (was : Bool) : (s.feedsNoted n was).feeds = s.feeds ∧ (s.feedsNoted n was).hs = s.hs := by
  have hshow : (s.feedShow.pdIrq 0xF0 4).feeds = s.feeds := (feeds_pdIrq ..).trans (feeds_pdSet ..)
  have hstate : (s.feedShow.pdIrq 0xF0 4).hs = s.hs := pdGet_congr ((pdReg_pdIrq ..).trans (pdReg_pdSet_ne _ (by decide)))
  have hevent (code arg : Nat) (data : List Byte) : ((s.feedShow.pdIrq 0xF0 4).pdEvent code arg data).feeds = s.feeds ∧
      ((s.feedShow.pdIrq 0xF0 4).pdEvent code arg data).hs = s.hs :=
    ⟨(feeds_pdEvent ..).trans hshow, (pdGet_congr (pdReg_pdEvent_ne (by decide))).trans hstate⟩
  have hloss (t : State) (h : t.feeds = s.feeds ∧ t.hs = s.hs) : (t.pdInc rPD_CNT_FEED_LOSS).feeds = s.feeds ∧ (t.pdInc rPD_CNT_FEED_LOSS).hs = s.hs :=
    ⟨(feeds_pdSet ..).trans h.1, (pdGet_congr (pdReg_pdSet_ne _ (by decide))).trans h.2⟩
  unfold State.feedsNoted
  dsimp only
  split_ifs
  · exact hloss _ ⟨hshow, hstate⟩
  · exact ⟨hshow, hstate⟩
  · exact hloss _ (hevent ..)
  · exact hevent ..

/-- The first feed ready takes WAIT to DEBOUNCE, with its debounce time. -/
theorem feedsChanged_ready {n : Nat} {was : Bool} (hready : s.hsReady = true) (hwait : s.hs = hsWait) (hov : s.pd.ov = false) :
    (s.feedsChanged n was false).hs = hsDebounce ∧ (s.feedsChanged n was false).pd.debMs = if s.pd.seated.testBit n && !s.pd.lost then 5 else 100 := by
  obtain ⟨hfeeds, hstate⟩ := feedsNoted_frame s n was
  have hready' := (hsReady_of_feeds hfeeds).trans hready
  simp only [State.feeds, Prod.mk.injEq] at hfeeds
  obtain ⟨_, _, hov', _, _, hseated, hlost⟩ := hfeeds
  rw [hwait] at hstate
  rw [hov] at hov'
  rw [feedsChanged_eq, if_pos (by simp [hready']), ← hseated, ← hlost]
  generalize s.feedsNoted n was = t at *
  have hchanged : (if (t.debounceBegun n).hs = hsCool then ((t.debounceBegun n).hsFault 4).pdEvent 0x07 0 [] else t.debounceBegun n).hsAdvance =
      (t.debounceBegun n).hsGo hsDebounce := by
    rw [if_neg (by rw [show (t.debounceBegun n).hs = t.hs from rfl, hstate]; decide)]
    exact hsAdvance_waits hstate hready' hov' rfl
  rw [hchanged]
  exact ⟨hs_hsGo _ (by decide), congrArg (fun f : Nat × Nat × Bool × Bool × Nat × Nat × Bool => f.2.2.2.2.1) (feeds_hsGo (t.debounceBegun n) hsDebounce)⟩

/-- The last feed lost takes a running sequencer to WAIT. -/
theorem feedsChanged_lost {n : Nat} {was : Bool} (hready : s.hsReady = false) (hcool : s.hs ≠ hsCool) (hlatched : s.hs ≠ hsLatched) :
    (s.feedsChanged n was true).hs = hsWait := by
  obtain ⟨hfeeds, hstate⟩ := feedsNoted_frame s n was
  have hready' := (hsReady_of_feeds hfeeds).trans hready
  rw [feedsChanged_eq, if_neg (by simp), if_pos (by simp [hready'])]
  generalize s.feedsNoted n was = t at *
  have hstate' : t.feedsLost.hs = s.hs := hstate
  rw [if_neg (by simp [hstate', hcool, hlatched])]
  exact hs_hsGo _ (by decide)

/-! ### A feed's validity (R472) -/

/-- Feed n's validity and voltage taken. -/
def State.feedSet (s : State) (n : Fin 2) (valid : Bool) (mv : Nat) : State :=
  { s with pd := { s.pd with valid := natPut s.pd.valid n n (b2n valid), mv1 := if n = 0 then mv else s.pd.mv1, mv2 := if n = 0 then s.pd.mv2 else mv } }

/-- What a feed's change does beside, from the state before it and the one with it taken. -/
def State.feedActs (s t : State) (n : Nat) (valid : Bool) : State :=
  let u := if s.pd.valid.testBit n && !valid && t.pgood then t.pdRaise (96 + n) else t
  if s.pd.valid.testBit n = valid then u.feedShow else u.feedsChanged n (s.pd.valid.testBit n && s.pd.pres.testBit n) s.hsReady

theorem feedChange_on (hon : s.pd.on = true) (n : Fin 2) (valid : Bool) (mv : Nat) : s.feedChange n valid mv = s.feedActs (s.feedSet n valid mv) n valid := by
  unfold State.feedChange
  simp only [Fin.val_eq_zero_iff]
  exact if_pos hon

theorem feedActs_same {t : State} {n : Nat} {valid : Bool} (h : s.pd.valid.testBit n = valid) : s.feedActs t n valid = t.feedShow := by
  have hraise : (if s.pd.valid.testBit n && !valid && t.pgood then t.pdRaise (96 + n) else t) = t := if_neg (by simp [h])
  unfold State.feedActs
  rw [hraise]
  exact if_pos h

theorem feedActs_lost {t : State} {n : Nat} (h : s.pd.valid.testBit n = true) (hpgood : t.pgood = true) :
    s.feedActs t n false = (t.pdRaise (96 + n)).feedsChanged n (s.pd.pres.testBit n) s.hsReady := by
  have hraise : (if s.pd.valid.testBit n && !false && t.pgood then t.pdRaise (96 + n) else t) = t.pdRaise (96 + n) := if_pos (by simp [h, hpgood])
  unfold State.feedActs
  rw [hraise, h]
  rfl

end Sequencer

/-- Settles O55: each event of the sequencer acts in its state, by its branch; the state and the feeds are read through what the branch does after. -/
theorem hotSwapAndFeedsAct : Obligations.HotSwapAndFeedsAct := by
  unfold Obligations.HotSwapAndFeedsAct
  refine ⟨fun s hon => ?sequencer, fun s n mv hon => ?feeds⟩
  case sequencer =>
    have hdo {c : Instr} {f : State → State} {t : State} (hc : exec c s = finish s (s.pdDo f)) (hf : f s = t) : exec c s = .next (s.finished t) := by
      rw [hc, pdDo_on hon, hf, finish_eq]
    refine ⟨fun n => ⟨hs_hsGo s n.isLt, ?pgood, ?fault⟩, fun n => hdo rfl rfl, fun hlatched hcool => hdo rfl ?overvoltage,
      fun hov hwait hready => hdo rfl ?overvoltageEnd, fun hready hstate hov => hdo rfl ?debounceEnd,
      fun hcheck => ⟨hdo rfl (if_pos hcheck), hdo rfl (if_pos hcheck)⟩,
      fun hramp => ⟨hdo rfl (if_pos hramp), fun henh => hdo rfl (if_pos (by simp [hramp, henh])), hdo rfl (if_pos hramp)⟩,
      fun hdriven => ⟨hdo rfl (if_pos hdriven), fun hlimit => hdo rfl (if_pos (by simp [hdriven, hlimit]))⟩, hdo rfl rfl,
      fun hlimit => ⟨hdo rfl (if_neg (by simp [hlimit])), fun hsettle hheld => hdo rfl (if_pos (by simp [hsettle, hlimit, hheld]))⟩,
      fun hstate => hdo rfl (if_pos hstate), fun hcool hready hdeb hov => hdo rfl ?cooled, fun hrun => hdo rfl (if_pos hrun),
      fun cause hcause => ⟨trips_hsTrip s cause, hs_hsTrip_cools cause, fun h _ => hs_hsTrip_latches cause h⟩,
      fun hready => hdo rfl (if_pos hready), fun hready => hdo rfl (if_neg (by simp [hready]))⟩
    case pgood => rw [pgood_hsGo, decide_eq_true_eq]
    case fault => rw [pdReg_hsFault, if_pos rfl, bitOf_or, bitOf_two_pow (by omega), decide_eq_true rfl, Bool.or_true]
    case overvoltage =>
      let t : State := { s with pd := { s.pd with ov := true } }
      have hstate : (t.hsFault 5).hs = s.hs := hs_hsFault t 5
      exact if_neg (by simp [t, hstate, hlatched, hcool])
    case overvoltageEnd => exact (if_pos hov).trans (if_pos (by rw [Bool.and_eq_true, decide_eq_true_eq]; exact ⟨hwait, hready⟩))
    case debounceEnd =>
      exact (if_pos hready).trans (hsAdvance_debounced (s := { s with pd := { s.pd with debounced := true } }) hstate hready hov rfl)
    case cooled =>
      have hready' : (s.pdPut rPD_HS_STATUS fPD_HS_STATUS_cooldown_left 0).hsReady = true := (hsReady_of_feeds (feeds_pdPut ..)).trans hready
      exact (if_pos hcool).trans (if_pos (by simp [hready', hdeb, hov]))
  case feeds =>
    have hexec (valid : Bool) : exec (.feedChange n valid mv) s = .next (s.finished (s.feedActs (s.feedSet n valid mv) n valid)) := by
      rw [← feedChange_on hon]
      rfl
    refine ⟨fun valid hvalid => ?_, fun hvalid hpgood => ?_, fun low hlow => congrArg (finish s) ((if_pos hon).trans (if_neg hlow)),
      fun was => feedsChanged_ready, fun was => feedsChanged_lost⟩
    · rw [hexec, feedActs_same hvalid]
      rfl
    · rw [hexec, feedActs_lost (t := s.feedSet n false mv) hvalid hpgood]
      rfl
end Sys2Proof.Machine
end

section
/-! PROOF. O57: resets and the watchdog (R522 to R528, R538). -/
namespace Sys2Proof.Machine

/-! ### What staging, logs and the power die leave of the hub -/

theorem length_beBytes (k n : Nat) : (beBytes k n).length = k := by
  unfold beBytes
  rw [List.length_reverse, length_leBytes]

theorem length_ledgerOctets (s : State) (type detail : Nat) (data : List Byte) (gap : Bool) (number : Nat) (pdMs : Option Nat) :
    (ledgerOctets s type detail data gap number pdMs).length = 32 := by
  unfold ledgerOctets
  simp [length_beBytes]

/-- From s to t the reset state and the power level are kept, and memory outside the staging area. -/
structure StagingOnly (s t : State) : Prop where
  rst : t.rst = s.rst
  pwr : t.pwr = s.pwr
  byte : ∀ a, a < stagingBase ∨ stagingBase + 16384 ≤ a → t.byte a = s.byte a

namespace StagingOnly

variable {s t u : State}

theorem refl (s : State) : StagingOnly s s := ⟨rfl, rfl, fun _ _ => rfl⟩

theorem trans (h : StagingOnly s t) (h' : StagingOnly t u) : StagingOnly s u :=
  ⟨h'.rst.trans h.rst, h'.pwr.trans h.pwr, fun a ha => (h'.byte a ha).trans (h.byte a ha)⟩

theorem ite {c : Prop} [Decidable c] (h : StagingOnly s t) (h' : StagingOnly s u) : StagingOnly s (if c then t else u) := by
  split
  · exact h
  · exact h'

theorem foldl {α : Type} {f : State → α → State} {l : List α} (h : StagingOnly s t) (hf : ∀ {u x}, StagingOnly s u → StagingOnly s (f u x)) :
    StagingOnly s (l.foldl f t) := List.foldlRecOn l f h fun _ hu _ _ => hf hu

theorem setReg {a v} (h : StagingOnly s t) : StagingOnly s (t.setReg a v) := ⟨h.rst, h.pwr, h.byte⟩
theorem put {a f v} (h : StagingOnly s t) : StagingOnly s (t.put a f v) := h.setReg
theorem inc {a} (h : StagingOnly s t) : StagingOnly s (t.inc a) := h.setReg
theorem irq {p n} (h : StagingOnly s t) : StagingOnly s (t.irq p n) := h.setReg
theorem raise {src p} (h : StagingOnly s t) : StagingOnly s (t.raise src p) := ⟨h.rst, h.pwr, h.byte⟩
theorem emit {o} (h : StagingOnly s t) : StagingOnly s (t.emit o) := ⟨h.rst, h.pwr, h.byte⟩
theorem step1 (h : StagingOnly s t) : StagingOnly s t.step1 := ⟨h.rst, h.pwr, h.byte⟩
theorem withPd {p} (h : StagingOnly s t) : StagingOnly s { t with pd := p } := ⟨h.rst, h.pwr, h.byte⟩
theorem withServo {x} (h : StagingOnly s t) : StagingOnly s { t with servo := x } := ⟨h.rst, h.pwr, h.byte⟩
theorem withKmgr {x} (h : StagingOnly s t) : StagingOnly s { t with kmgr := x } := ⟨h.rst, h.pwr, h.byte⟩
theorem withLedg {x} (h : StagingOnly s t) : StagingOnly s { t with ledg := x } := ⟨h.rst, h.pwr, h.byte⟩
theorem setKey {n x} (h : StagingOnly s t) : StagingOnly s (t.setKey n x) := ⟨h.rst, h.pwr, h.byte⟩

/-- A write of memory within the staging area. -/
theorem setBytes {a : Nat} {l : List Byte} (h : StagingOnly s t) (hlo : stagingBase ≤ a) (hhi : a + l.length ≤ stagingBase + 16384) :
    StagingOnly s (t.setBytes a l) := by
  have hset (u : State) (b : Nat) (l : List Byte) : (u.setBytes b l).rst = u.rst ∧ (u.setBytes b l).pwr = u.pwr := by
    induction l generalizing u b with
    | nil => exact ⟨rfl, rfl⟩
    | cons x l ih => exact ih ..
  refine ⟨(hset ..).1.trans h.rst, (hset ..).2.trans h.pwr, fun x hx => ?_⟩
  rw [byte_setBytes_out _ _ _ _ (by omega)]
  exact h.byte x hx

theorem stagePut {type detail data gap pdMs} (h : StagingOnly s t) : StagingOnly s (t.stagePut type detail data gap pdMs) :=
  put (h.setBytes (Nat.le_add_right ..) (by rw [length_ledgerOctets]; omega))

theorem stage {type detail data pdMs} (h : StagingOnly s t) : StagingOnly s (t.stage type detail data pdMs) :=
  .ite h (.ite h.withLedg.inc.irq.raise (.ite h.stagePut h.withLedg.stagePut.stagePut))

theorem pdSet {a v} (h : StagingOnly s t) : StagingOnly s (t.pdSet a v) := .ite h.withPd.setReg h.withPd
theorem pdPut {a f n} (h : StagingOnly s t) : StagingOnly s (t.pdPut a f n) := h.pdSet
theorem pdEvent {code arg data} (h : StagingOnly s t) : StagingOnly s (t.pdEvent code arg data) := .ite h.stage (.ite h.withPd.pdPut h.pdPut)
theorem keyLog {slot code result ring counter} (h : StagingOnly s t) : StagingOnly s (t.keyLog slot code result ring counter) :=
  .stage (.irq (.ite h.withKmgr h))
theorem revoke {n} (h : StagingOnly s t) : StagingOnly s (t.revoke n) := .ite h (.irq (h.foldl (·.setKey)))
theorem linkLoss (h : StagingOnly s t) : StagingOnly s t.linkLoss := h.foldl (·.pdPut.pdSet)
theorem driveVcore {code} (h : StagingOnly s t) : StagingOnly s (t.driveVcore code) := h.emit.pdPut
theorem pinsOff (h : StagingOnly s t) : StagingOnly s t.pinsOff :=
  have hlanes : StagingOnly s ([(0, 0), (0, 1), (1, 0), (1, 1)].foldl (fun (s : State) rp => s.emit (.lane rp.1 rp.2 .idle)) t) := h.foldl (·.emit)
  .linkLoss (.ite hlanes.driveVcore hlanes)
theorem lockLost (h : StagingOnly s t) : StagingOnly s t.lockLost := .ite h.put.inc.irq.raise h
theorem lockGain (h : StagingOnly s t) : StagingOnly s t.lockGain := .ite h h.put.irq
theorem rootLock (h : StagingOnly s t) : StagingOnly s t.rootLock :=
  .ite (.ite h.lockLost (.ite h.lockGain (.ite h.step1.lockGain h.step1.lockLost))) h
theorem openSession {b} (h : StagingOnly s t) : StagingOnly s (t.openSession b) := .ite h.put.put.irq.withServo.lockLost.rootLock h.put.put.irq
theorem diStart (h : StagingOnly s t) : StagingOnly s t.diStart := h.foldl (fun h => .ite h.pdEvent h)

end StagingOnly

/-! ### What a warm reset loses (R526) -/

section Loss

variable {s : State}

theorem spGet_spDrop {β : Type} (d : Nat → β) (p : Nat → Bool) (m : List (Nat × β)) (k : Nat) : spGet d (spDrop p m) k = if p k then d k else spGet d m k := by
  induction m with
  | nil => exact (ite_self _).symm
  | cons e m ih =>
    obtain ⟨a, v⟩ := e
    unfold spDrop at ih ⊢
    by_cases hp : p a = true
    · rw [List.filter_cons_of_neg (by simp [hp]), ih]
      by_cases hk : a = k
      · rw [← hk, if_pos hp, if_pos hp]
      · exact congrArg (fun x => if p k = true then d k else x) (if_neg hk).symm
    · rw [List.filter_cons_of_pos (by simp [hp])]
      by_cases hk : a = k
      · subst hk
        rw [if_neg hp, spGet, spGet, if_pos rfl, if_pos rfl]
      · rw [spGet, if_neg hk, ih, spGet, if_neg hk]

theorem loseKeys_warm (s : State) : StagingOnly s (s.loseKeys .warm) :=
  .ite ((StagingOnly.refl s).foldl fun h => .ite h.setKey.revoke.keyLog h) ⟨rfl, rfl, fun _ _ => rfl⟩

theorem byte_lose_warm {a : Nat} (ha : a < stagingBase ∨ stagingBase + 16384 ≤ a) :
    (s.lose .warm).byte a = if a < 0x300000 then memDefault a else s.byte a := by
  have hkeep (t u : State) : t.keepSessions u .warm = t := if_neg (by decide)
  have hlost : lostAddr .warm a = decide (a < 0x300000) := by
    unfold lostAddr
    rw [show Loss.retention .warm = false from rfl, show Loss.keep .warm = false from rfl]
    simp
  unfold State.lose
  rw [(loseKeys_warm _).byte a ha, hkeep]
  refine (spGet_spDrop memDefault (lostAddr .warm) s.mem a).trans ?_
  rw [hlost]
  simp only [decide_eq_true_eq]
  rfl

/-- The hub die out of a warm reset that takes what s holds, before its sessions open. -/
def State.warmStarted (s : State) (code : Nat) : State :=
  { s.lose .warm with pwr := {}, rst := { active := true, cold := false, causes := [code] } }

/-- The sessions of the time bases opened. -/
def State.sessionsOpened (s : State) : State := [0, 1, 2, 3].foldl (fun (s : State) b => s.openSession b) s

theorem takeReset_warm {code : Nat} (hlevel : s.pwr.level = 0) :
    s.takeReset false [code] = ((s.pinsOff.warmStarted code).inc rRST_CNT_WARM).sessionsOpened.recordCauses.diStart := by
  have hpwr : s.pinsOff.pwr.level = 0 := (congrArg PwrSt.level (StagingOnly.refl s).pinsOff.pwr).trans hlevel
  have hawake : (if s.pinsOff.pwr.level = 4 then s.pinsOff.lose .l4 else if s.pinsOff.pwr.level = 5 then s.pinsOff.lose .l5 else s.pinsOff) = s.pinsOff :=
    (if_neg (by omega)).trans (if_neg (by omega))
  have htake : s.takeReset false [code] = ((State.warmStarted (if s.pinsOff.pwr.level = 4 then s.pinsOff.lose .l4
    else if s.pinsOff.pwr.level = 5 then s.pinsOff.lose .l5 else s.pinsOff) code).inc rRST_CNT_WARM).sessionsOpened.recordCauses.diStart := rfl
  rw [htake, hawake]

theorem warmStarted_goes (code : Nat) :
    StagingOnly (s.warmStarted code) ((s.warmStarted code).inc rRST_CNT_WARM).sessionsOpened.recordCauses.diStart :=
  .diStart (.setReg ((StagingOnly.refl _).inc.foldl (·.openSession)))

theorem byte_warmStarted {a : Nat} (code : Nat) (ha : a < stagingBase ∨ stagingBase + 16384 ≤ a) :
    (s.warmStarted code).byte a = if a < 0x300000 then memDefault a else s.byte a := by
  have hlose : (s.warmStarted code).byte a = (s.lose .warm).byte a := rfl
  rw [hlose, byte_lose_warm ha]

/-! ### The cause shown (R524, R538) -/

theorem reg_pdEvent_ne {a code arg : Nat} {data : List Byte} (hevt : a ≠ rPD_EVT_STATUS) (hstage : a ∉ stageRegs) :
    (s.pdEvent code arg data).reg a = s.reg a := by
  have hput (t : State) (f : Fld) (n : Nat) : (t.pdPut rPD_EVT_STATUS f n).reg a = t.reg a := by
    unfold State.pdPut State.pdSet
    dsimp only
    split
    · exact reg_setReg_ne _ _ hevt
    · rfl
  unfold State.pdEvent
  split
  · exact reg_stage_ne hstage
  · split
    · exact hput ..
    · exact hput ..

theorem reg_diStart_ne {a : Nat} (hevt : a ≠ rPD_EVT_STATUS) (hstage : a ∉ stageRegs) : s.diStart.reg a = s.reg a := by
  unfold State.diStart
  refine List.foldlRecOn (motive := fun t : State => t.reg a = s.reg a) _ _ rfl fun t ht n _ => ?_
  split
  · exact (reg_pdEvent_ne hevt hstage).trans ht
  · exact ht

/-- Flags below a field leave it. -/
theorem fldOf_or_low (w : Word) {f : Fld} {m : Nat} (hm : m < 2 ^ f.lo) (hword : m < 2 ^ 32) : fldOf (w ||| toW m) f = fldOf w f := by
  unfold fldOf natBits toW
  rw [BitVec.toNat_or, BitVec.toNat_ofNat, Nat.mod_eq_of_lt hword, Nat.shiftRight_or_distrib, Nat.shiftRight_eq_div_pow m, Nat.div_eq_of_lt hm,
    Nat.or_zero]

/-- A single cause is the code shown. -/
theorem cause_recordCauses {code : Nat} (hcauses : s.rst.causes = [code]) (hcode : code < 2 ^ 8) :
    s.recordCauses.get rRST_CAUSE fRST_CAUSE_code = code := by
  have hmin : [code].foldl min 0xFF = code := Nat.min_eq_right (Nat.le_of_lt_succ hcode)
  have hflag : causeFlag code ≤ 8 := by
    unfold causeFlag
    split_ifs <;> decide
  have hflags : [code].foldl (fun m c => m ||| 2 ^ causeFlag c) 0 = 2 ^ causeFlag code := Nat.zero_or _
  have hpow : 2 ^ causeFlag code ≤ 2 ^ 8 := Nat.pow_le_pow_right (by decide) hflag
  unfold State.recordCauses State.get
  dsimp only
  rw [reg_setReg_same, hcauses, hmin, hflags, fldOf_or_low _ (hpow.trans_lt (by decide)) (hpow.trans_lt (by decide)),
    fldOf_fldPut_same _ _ _ (by decide) (by decide)]
  exact Nat.mod_eq_of_lt hcode

end Loss

/-! ### Causes and the watchdog (R522 to R528) -/

section Causes

variable {s : State} {code : Nat}

/-- The codes of a warm reset (R538). -/
theorem warm_code (h : code ∈ [0x10, 0x11, 0x12, 0x13, 0x14]) : 0x10 ≤ code ∧ code < 2 ^ 8 := by
  simp only [List.mem_cons, List.not_mem_nil, or_false] at h
  omega

theorem resetCause_warm_first (hwarm : 0x10 ≤ code) (hactive : s.rst.active = false) (hlevel : s.pwr.level = 0) :
    s.resetCause code = s.takeReset false [code] := by
  have hcold : decide (code < 0x10) = false := decide_eq_false (by omega)
  unfold State.resetCause
  dsimp only
  rw [hcold, if_neg (by simp [hlevel]), if_neg (by rw [hactive]; exact Bool.false_ne_true)]

theorem resetCause_asleep (hwarm : 0x10 ≤ code) (hlevel : s.pwr.level = 6) : s.resetCause code = s := by
  have hcold : decide (code < 0x10) = false := decide_eq_false (by omega)
  unfold State.resetCause
  dsimp only
  rw [hcold]
  exact if_pos (by simp [hlevel])

theorem resetCause_combined (hwarm : 0x10 ≤ code) (hactive : s.rst.active = true) (hnew : s.rst.causes.contains code = false) (hlevel : s.pwr.level ≠ 6) :
    s.resetCause code = ({ s with rst := { s.rst with causes := s.rst.causes ++ [code] } } : State).recordCauses := by
  have hcold : decide (code < 0x10) = false := decide_eq_false (by omega)
  unfold State.resetCause
  dsimp only
  rw [hcold, if_neg (by simp [hlevel]), if_pos hactive, if_neg (by simp), if_neg (by rw [hnew]; exact Bool.false_ne_true)]

theorem bitOf_and (v w : Word) (n : Nat) : bitOf (v &&& w) n = (bitOf v n && bitOf w n) := by
  unfold bitOf
  rw [BitVec.toNat_and, Nat.testBit_and]

/-- A flag is its bit. -/
theorem flag_eq_bitOf {a : Nat} {f : Fld} (hbit : f.hi = f.lo) : s.flag a f = bitOf (s.reg a) f.lo := by
  unfold State.flag State.get fldOf natBits bitOf
  rw [hbit, Nat.add_sub_cancel_left, pow_one, Nat.shiftRight_eq_div_pow, Nat.testBit_eq_decide_div_mod_eq]
  obtain h | h := Nat.mod_two_eq_zero_or_one ((s.reg a).toNat / 2 ^ f.lo)
  · rw [h]; rfl
  · rw [h]; rfl

/-- Bit 31 of RST_WDT_CFG is stored as written. -/
theorem enable_store_wdt {w : Word} (h : bitOf w 31 = true) : (s.store rRST_WDT_CFG w).flag rRST_WDT_CFG fRST_WDT_CFG_enable = true := by
  have hfields : regFields (rRST_WDT_CFG / 0x1000) (rRST_WDT_CFG % 0x1000) =
      [⟨31, 31, .rwl, .w⟩, ⟨30, 30, .rwl, .w⟩, ⟨27, 16, .rwl, .w⟩, ⟨15, 0, .rwl, .w⟩] := rfl
  have hbit : bitOf (storeWord rRST_WDT_CFG (s.reg rRST_WDT_CFG) w) 31 = true := by
    have hrw : toW (accMask [⟨31, 31, .rwl, .w⟩, ⟨30, 30, .rwl, .w⟩, ⟨27, 16, .rwl, .w⟩, ⟨15, 0, .rwl, .w⟩] .rw |||
      accMask [⟨31, 31, .rwl, .w⟩, ⟨30, 30, .rwl, .w⟩, ⟨27, 16, .rwl, .w⟩, ⟨15, 0, .rwl, .w⟩] .rwl) = 0xCFFFFFFF#32 := by decide
    have hw1c : toW (accMask [⟨31, 31, .rwl, .w⟩, ⟨30, 30, .rwl, .w⟩, ⟨27, 16, .rwl, .w⟩, ⟨15, 0, .rwl, .w⟩] .w1c) = 0#32 := by decide
    have hset : bitOf 0xCFFFFFFF#32 31 = true := by decide
    unfold storeWord
    rw [hfields]
    dsimp only
    rw [hrw, hw1c, BitVec.and_zero, BitVec.not_zero, BitVec.and_allOnes, bitOf_or, bitOf_or, bitOf_and, h, hset]
    rfl
  rw [flag_eq_bitOf rfl, State.store, reg_setReg_same]
  exact hbit

/-- A watchdog that is enabled in L0 starts. -/
theorem wdtCfgFx_enables {w : Word} (h : bitOf w 31 = true) (hoff : s.flag rRST_WDT_CFG fRST_WDT_CFG_enable = false) (hlevel : s.pwr.level = 0) :
    wdtCfgFx w s = (s.store rRST_WDT_CFG w).wdtStart 1 := by
  have hlevel' : (s.store rRST_WDT_CFG w).pwr.level = 0 := hlevel
  unfold wdtCfgFx
  dsimp only
  rw [hoff, if_neg Bool.false_ne_true, enable_store_wdt h, if_pos (by simp [hlevel'])]

/-- Who kicks a watchdog that runs, and how. -/
theorem kicks_iff {q : Req} {v : Word} :
    (decide (v = 0x0000A55A) && (decide (q.master = 0) || ((decide (q.master = 1) || decide (q.master = 2)) && s.flag rRST_WDT_CFG fRST_WDT_CFG_host_kick)) &&
      s.rst.stage != 0) = true ↔
    v = 0xA55A ∧ (q.master = 0 ∨ (q.master = 1 ∨ q.master = 2) ∧ s.flag rRST_WDT_CFG fRST_WDT_CFG_host_kick = true) ∧ s.rst.stage ≠ 0 := by
  simp only [Bool.and_eq_true, Bool.or_eq_true, decide_eq_true_eq, bne_iff_ne, and_assoc]

end Causes

/-- Settles O57: a warm reset is followed to its end, with what comes after the loss of memory kept to the staging area; the rest is one branch each. -/
theorem resetsAndWatchdog : Obligations.ResetsAndWatchdog := by
  unfold Obligations.ResetsAndWatchdog
  intro s
  refine ⟨fun c => rfl, fun c => rfl, rfl, rfl, fun q v ha => ⟨fun h0 hkey => ?reset, fun h => ?keep⟩, fun code hcode hactive hlevel => ?warm,
    fun code hcode hlevel => resetCause_asleep (warm_code hcode).1 hlevel,
    fun code hcode hactive hnew hlevel => resetCause_combined (warm_code hcode).1 hactive hnew hlevel,
    fun q v ha hoff hlevel => exec_writeReg_accepted rfl ha (wdtCfgFx_enables (go_set v) hoff hlevel),
    fun q v ha => ⟨fun hv hmay hstage => ?kick, fun h => ?noKick⟩, fun hon hstage => congrArg (finish s) (if_pos (by simp [hon, hstage])),
    fun hon hstage => congrArg (finish s) (if_pos (by simp [hon, hstage])),
    fun hstage => ⟨congrArg (finish s) (if_neg (by simp [hstage])), congrArg (finish s) (if_neg (by simp [hstage]))⟩⟩
  case reset => exact exec_writeReg_accepted rfl ha (if_pos (by simp [h0, hkey]))
  case keep =>
    refine exec_writeReg_accepted (fx := rstCmdFx) rfl ha (if_neg ?_)
    obtain h | h := h
    · simp [h]
    · simp [h]
  case warm =>
    obtain ⟨hlo, hhi⟩ := warm_code hcode
    have hgoes := warmStarted_goes (s := s.pinsOff) code
    have hbyte {a : Nat} (ha : a < stagingBase ∨ stagingBase + 16384 ≤ a) : (s.resetCause code).byte a = if a < 0x300000 then memDefault a else s.byte a := by
      rw [resetCause_warm_first hlo hactive hlevel, takeReset_warm hlevel, hgoes.byte a ha, byte_warmStarted code ha,
        (StagingOnly.refl s).pinsOff.byte a ha]
    have hrst : (s.resetCause code).rst = (s.pinsOff.warmStarted code).rst := by
      rw [resetCause_warm_first hlo hactive hlevel, takeReset_warm hlevel, hgoes.rst]
    refine ⟨congrArg RstSt.active hrst, congrArg RstSt.cold hrst, ?_, fun a ha => ?_, fun a hlo hhi => ?_, fun a hlo hhi => ?_⟩
    · have hcauses : ((s.pinsOff.warmStarted code).inc rRST_CNT_WARM).sessionsOpened.rst.causes = [code] :=
        congrArg RstSt.causes ((StagingOnly.refl (s.pinsOff.warmStarted code)).inc.foldl (·.openSession)).rst
      rw [resetCause_warm_first hlo hactive hlevel, takeReset_warm hlevel]
      exact (get_congr _ (reg_diStart_ne (by decide) (by decide))).trans (cause_recordCauses hcauses hhi)
    · rw [hbyte (.inl (by dsimp only [stagingBase]; omega)), if_pos ha]
    · rw [hbyte (.inl hhi), if_neg (by omega)]
    · rw [hbyte (.inr hlo), if_neg (by omega)]
  case kick =>
    exact exec_writeReg_accepted (fx := wdtKickFx q) rfl ha (if_pos (kicks_iff.2 ⟨hv, hmay, hstage⟩))
  case noKick =>
    refine exec_writeReg_accepted (fx := wdtKickFx q) rfl ha (if_neg fun hkick => ?_)
    obtain ⟨hv, hmay, hstage⟩ := kicks_iff.1 hkick
    exact h.elim (· hv) fun h => h.elim (· hmay) hstage
end Sys2Proof.Machine
end

section
/-! PROOF. O58: power levels (R519, R528 to R537), clocks and temperature (R540, R588). -/
namespace Sys2Proof.Machine

/-! ### What leaves the power level and its status alone -/

/-- From s to t the power level is kept, with PWR_STATUS and RST_CAUSE. -/
structure SamePower (s t : State) : Prop where
  pwr : t.pwr = s.pwr
  status : t.reg rPWR_STATUS = s.reg rPWR_STATUS
  cause : t.reg rRST_CAUSE = s.reg rRST_CAUSE

namespace SamePower

variable {s t u : State}

theorem refl (s : State) : SamePower s s := ⟨rfl, rfl, rfl⟩

theorem ite {c : Prop} [Decidable c] (h : SamePower s t) (h' : SamePower s u) : SamePower s (if c then t else u) := by
  split
  · exact h
  · exact h'

theorem foldl {α : Type} {f : State → α → State} {l : List α} (h : SamePower s t) (hf : ∀ {u x}, SamePower s u → SamePower s (f u x)) :
    SamePower s (l.foldl f t) := List.foldlRecOn l f h fun _ hu _ _ => hf hu

theorem setReg {a v} (h : SamePower s t) (ha : rPWR_STATUS ≠ a := by decide) (hc : rRST_CAUSE ≠ a := by decide) : SamePower s (t.setReg a v) :=
  ⟨h.pwr, (reg_setReg_ne _ _ ha).trans h.status, (reg_setReg_ne _ _ hc).trans h.cause⟩
theorem put {a f v} (h : SamePower s t) (ha : rPWR_STATUS ≠ a := by decide) (hc : rRST_CAUSE ≠ a := by decide) : SamePower s (t.put a f v) :=
  h.setReg ha hc
theorem inc {a} (h : SamePower s t) (ha : rPWR_STATUS ≠ a := by decide) (hc : rRST_CAUSE ≠ a := by decide) : SamePower s (t.inc a) := h.setReg ha hc
theorem irq {p n} (h : SamePower s t) : SamePower s (t.irq p n) :=
  h.setReg (by dsimp only [rPWR_STATUS, rPG_IRQ_STAT]; omega) (by dsimp only [rRST_CAUSE, rPG_IRQ_STAT]; omega)
theorem raise {src p} (h : SamePower s t) : SamePower s (t.raise src p) := ⟨h.pwr, h.status, h.cause⟩
theorem raiseInj {src p} (h : SamePower s t) : SamePower s (t.raiseInj src p) := ⟨h.pwr, h.status, h.cause⟩
theorem emit {o} (h : SamePower s t) : SamePower s (t.emit o) := ⟨h.pwr, h.status, h.cause⟩
theorem step1 (h : SamePower s t) : SamePower s t.step1 := ⟨h.pwr, h.status, h.cause⟩
theorem withPd {p} (h : SamePower s t) : SamePower s { t with pd := p } := ⟨h.pwr, h.status, h.cause⟩
theorem withServo {x} (h : SamePower s t) : SamePower s { t with servo := x } := ⟨h.pwr, h.status, h.cause⟩
theorem withPace {x} (h : SamePower s t) : SamePower s { t with pace := x } := ⟨h.pwr, h.status, h.cause⟩
theorem withRst {x} (h : SamePower s t) : SamePower s { t with rst := x } := ⟨h.pwr, h.status, h.cause⟩
theorem setPort {r p x} (h : SamePower s t) : SamePower s (t.setPort r p x) := ⟨h.pwr, h.status, h.cause⟩
theorem setRc {x c} (h : SamePower s t) : SamePower s (t.setRc x c) := ⟨h.pwr, h.status, h.cause⟩

theorem stage {type detail data pdMs} (h : SamePower s t) : SamePower s (t.stage type detail data pdMs) :=
  ⟨((StagingOnly.refl t).stage.pwr).trans h.pwr, (reg_stage_ne (by decide)).trans h.status, (reg_stage_ne (by decide)).trans h.cause⟩

theorem pdSet {a v} (h : SamePower s t) (ha : rPWR_STATUS ≠ a := by decide) (hc : rRST_CAUSE ≠ a := by decide) : SamePower s (t.pdSet a v) :=
  .ite (h.withPd.setReg ha hc) h.withPd
theorem pdPut {a f n} (h : SamePower s t) (ha : rPWR_STATUS ≠ a := by decide) (hc : rRST_CAUSE ≠ a := by decide) : SamePower s (t.pdPut a f n) :=
  h.pdSet ha hc
theorem pdEvent {code arg data} (h : SamePower s t) : SamePower s (t.pdEvent code arg data) := .ite h.stage (.ite h.withPd.pdPut h.pdPut)
theorem hpwr (h : SamePower s t) : SamePower s t.hpwr := .ite h.pdPut.put h.pdPut
theorem driveVcore {code} (h : SamePower s t) : SamePower s (t.driveVcore code) := h.emit.pdPut
theorem linkLoss (h : SamePower s t) : SamePower s t.linkLoss :=
  h.foldl fun h => (h.pdPut (by dsimp only [rPWR_STATUS, rPD_DIO_STATE]; omega) (by dsimp only [rRST_CAUSE, rPD_DIO_STATE]; omega)).pdSet
    (by dsimp only [rPWR_STATUS, rPD_DIO_STATE]; omega) (by dsimp only [rRST_CAUSE, rPD_DIO_STATE]; omega)
theorem lockLost (h : SamePower s t) : SamePower s t.lockLost := .ite h.put.inc.irq.raise h
theorem lockGain (h : SamePower s t) : SamePower s t.lockGain := .ite h h.put.irq
theorem rootLock (h : SamePower s t) : SamePower s t.rootLock :=
  .ite (.ite h.lockLost (.ite h.lockGain (.ite h.step1.lockGain h.step1.lockLost))) h
theorem openSession {b} (h : SamePower s t) : SamePower s (t.openSession b) := by
  have hshown : SamePower s (((t.put (rTB_STATUS b) fTB_STATUS_step_used 0).put (rTB_SESSION b) fTB_SESSION_number
      ((t.put (rTB_STATUS b) fTB_STATUS_step_used 0).get (rTB_SESSION b) fTB_SESSION_number + 1)).irq (0x40 + b) 6) := by
    refine SamePower.irq (.put (.put h ?_ ?_) ?_ ?_)
    all_goals dsimp only [rPWR_STATUS, rRST_CAUSE, rTB_STATUS, rTB_SESSION]; omega
  exact .ite hshown.withServo.lockLost.rootLock hshown

theorem iteThen {c : Prop} [Decidable c] (h : SamePower s t) (hu : SamePower s t → SamePower s u) : SamePower s (if c then u else t) := (hu h).ite h
theorem iteElse {c : Prop} [Decidable c] (h : SamePower s t) (hu : SamePower s t → SamePower s u) : SamePower s (if c then t else u) := h.ite (hu h)

theorem setCode {n} (h : SamePower s t) : SamePower s (t.setCode n) :=
  .iteElse h fun hu =>
    have hcount : SamePower s ((((t.put rPACE_CODE fPACE_CODE_code n).irq 0x18 4).inc (if t.paceCode < n then rPACE_CNT_UP else rPACE_CNT_DOWN))) :=
      hu.put.irq.inc (by split <;> decide) (by split <;> decide)
    .iteThen (.iteThen hcount (·.irq)) (·.driveVcore)
theorem setShed {n calm} (h : SamePower s t) : SamePower s (t.setShed n calm) :=
  .iteElse h.withPace.put fun hu => .ite hu.irq.inc.irq.raise (.iteThen hu.irq (·.inc.irq.raise))
theorem paceNote {b0 b1} (h : SamePower s t) : SamePower s (t.paceNote b0 b1) :=
  .withPace (.iteThen (.setShed (.put (.put (.put (.put (.put (.iteThen (.iteThen (.iteThen h (·.put.raiseInj)) (·.raise)) (·.put)))))))) (·.raise))
theorem paceAct {beat} (h : SamePower s t) : SamePower s (t.paceAct beat) :=
  .iteElse h fun hu => .iteElse hu.setCode fun hv => .iteElse hu fun hw => .ite hv (.iteThen hw (·.setCode.withPace))
theorem paceReading {b0 b1} (h : SamePower s t) : SamePower s (t.paceReading b0 b1) := .iteElse h (·.paceNote.paceAct)

theorem enterElect {x kept cause} (h : SamePower s t) : SamePower s (t.enterElect x kept cause) :=
  have hshown : SamePower s ((((t.setRcState x rcElect).put (rRCTL_STATUS x) fRCTL_STATUS_kept (b2n kept)).put (rRCTL_STATUS x)
      fRCTL_STATUS_last_cause cause).inc (rRCTL_CNT_ELECT x)) := by
    refine SamePower.inc (.put (.put (.put h ?_ ?_) ?_ ?_) ?_ ?_) ?_ ?_
    all_goals dsimp only [rPWR_STATUS, rRST_CAUSE, rRCTL_STATUS, rRCTL_CNT_ELECT]; omega
  have hkept : SamePower s (if kept then _ else _) := hshown.iteElse fun hu =>
    hu.put (a := rRCTL_STATUS x) (f := fRCTL_STATUS_heal_deferred) (v := 0) (by dsimp only [rPWR_STATUS, rRCTL_STATUS]; omega)
      (by dsimp only [rRST_CAUSE, rRCTL_STATUS]; omega)
  hkept.setRc.foldl fun hu => .iteThen hu (·.setPort)
theorem wakeRing {x} (h : SamePower s t) : SamePower s (t.wakeRing x) := .iteThen h (·.enterElect)

end SamePower

/-! ### PWR_CMD and the entry to a level (R519, R531, R532) -/

section Commands

variable {s : State} {v : Word} {n : Nat}

/-- A command that is taken waits for the ledger's flush, or is decided. -/
theorem pwrCmdFx_taken (hgo : bitOf v 31 = true) (hidle : s.flag rPWR_STATUS fPWR_STATUS_busy = false)
    (hfree : s.flag rFWU_STATUS fFWU_STATUS_handover_active = false) : let n := v.toNat % 8
    pwrCmdFx v s = if s.pwrWaits n && (decide (s.pwrRefusal n = 0) || decide (4 < s.pwrRefusal n)) then
      { s.put rPWR_STATUS fPWR_STATUS_busy 1 with pwr := { s.pwr with waitFor := some (n, s.pd.ticks) } } else s.pwrDecide n (s.pwrRefusal n) :=
  (if_neg (by simp [hgo])).trans (if_neg (by simp [hidle, hfree]))

theorem pwrDecide_accepted (s : State) (n : Nat) : s.pwrDecide n 0 = (s.put rPWR_STATUS fPWR_STATUS_refusal 0).drainCore.enterLevel n := rfl

theorem pwrDecide_refused {code : Nat} (h : code ≠ 0) :
    s.pwrDecide n code = ((s.put rPWR_STATUS fPWR_STATUS_refusal code).inc rPWR_CNT_REFUSED).irq 0x02 3 := if_neg h

/-- A command that no longer waits. -/
def State.waitEnded (s : State) : State := { s.put rPWR_STATUS fPWR_STATUS_busy 0 with pwr := { s.pwr with waitFor := none } }

theorem pwrWaited_some {since : Nat} (h : s.pwr.waitFor = some (n, since)) : let late := decide (500000000 < s.pd.ticks - since)
    s.pwrWaited = if late || decide (s.staged = 0) then s.waitEnded.pwrDecide n (if late then 4 else s.waitEnded.pwrRefusal n) else s := by
  unfold State.pwrWaited
  rw [h]
  rfl

theorem pwrRefusal_level (h : n < 2 ∨ 6 < n) : s.pwrRefusal n = 1 := if_pos (by simpa using h)

/-- The level taken and shown, with the watchdog paused. -/
def State.levelTaken (s : State) (n : Nat) : State :=
  ({ s with rst := { s.rst with stage := 0 }, pwr := { s.pwr with level := n, waking := false, wakeEn := (s.reg rPWR_WAKE_EN).toNat } } : State).put
    rPWR_STATUS fPWR_STATUS_last_level n

/-- L6: the power die takes the outputs to their link-loss state and HPWR_EN low. -/
def State.powerOff (s : State) : State :=
  ({ s.linkLoss.pdEvent 0x13 0 [] with pd := { (s.linkLoss.pdEvent 0x13 0 []).pd with l6 := true } } : State).hpwr

theorem enterLevel_eq (s : State) (n : Nat) : ∃ t : State, s.enterLevel n = if n = 6 then (t.levelTaken n).powerOff else t.levelTaken n := by
  unfold State.enterLevel State.levelTaken State.powerOff
  exact ⟨_, rfl⟩

theorem StagingOnly.hpwr {s t : State} (h : StagingOnly s t) : StagingOnly s t.hpwr := .ite h.pdPut.put h.pdPut

theorem powerOff_same (s : State) : SamePower s s.powerOff := SamePower.hpwr (.withPd (.pdEvent (.linkLoss (.refl s))))

theorem rst_powerOff (s : State) : s.powerOff.rst = s.rst := (StagingOnly.hpwr (.withPd (.pdEvent (.linkLoss (.refl s))))).rst

theorem enterLevel_shows (hn : n ≤ 6) : let t := s.enterLevel n
    t.pwr.level = n ∧ t.pwr.waking = false ∧ t.rst.stage = 0 ∧ t.get rPWR_STATUS fPWR_STATUS_last_level = n := by
  obtain ⟨t, ht⟩ := enterLevel_eq s n
  have hlast : (t.levelTaken n).get rPWR_STATUS fPWR_STATUS_last_level = n := by
    unfold State.levelTaken
    rw [get_put_same _ _ _ _ (by decide) (by decide)]
    exact Nat.mod_eq_of_lt (by dsimp only; omega)
  have hpwr : (t.levelTaken n).pwr.level = n ∧ (t.levelTaken n).pwr.waking = false := ⟨rfl, rfl⟩
  have hrst : (t.levelTaken n).rst.stage = 0 := rfl
  dsimp only
  rw [ht]
  generalize t.levelTaken n = u at *
  obtain ⟨hlevel, hwaking⟩ := hpwr
  split
  · have hsame := powerOff_same u
    rw [hsame.pwr, rst_powerOff, get_congr _ hsame.status]
    exact ⟨hlevel, hwaking, hrst, hlast⟩
  · exact ⟨hlevel, hwaking, hrst, hlast⟩

end Commands

/-! ### Waking (R534 to R536) -/

section Waking

variable {s : State} {b0 b1 : Nat}

/-- The level left. -/
def State.levelLeft (s : State) : State := { s with pwr := { s.pwr with level := 0, waking := false } }

/-- The PLLs locked anew. -/
def State.relocked (s : State) : State := { s with pwr := { s.pwr with unlocked := 0 } }

theorem restartRead_same (s : State) (b0 b1 : Nat) : SamePower s.relocked (s.restartRead b0 b1) := (SamePower.refl s.relocked).openSession.paceReading

/-- The present level, 2 or 3, is left: what its exit does before it is shown. -/
def State.shallowExit (s : State) (b0 b1 : Nat) : State :=
  if s.pwr.level = 3 then ((s.levelLeft.restartRead b0 b1).wakeRing 0).wakeRing 1 else s.levelLeft

theorem shallowExit_frame (s : State) (b0 b1 : Nat) : let t := s.shallowExit b0 b1
    t.pwr.level = 0 ∧ t.pwr.waking = false ∧ t.reg rPWR_STATUS = s.reg rPWR_STATUS := by
  have hlocked : s.levelLeft.relocked.pwr.level = 0 ∧ s.levelLeft.relocked.pwr.waking = false ∧ s.levelLeft.relocked.reg rPWR_STATUS = s.reg rPWR_STATUS :=
    ⟨rfl, rfl, rfl⟩
  have hsame := (restartRead_same s.levelLeft b0 b1).wakeRing (x := 0) |>.wakeRing (x := 1)
  unfold State.shallowExit
  dsimp only
  split
  · rw [hsame.pwr, hsame.status]
    exact hlocked
  · exact ⟨rfl, rfl, rfl⟩

/-- An exit shown in PWR_STATUS. -/
def State.exitShown (s : State) (d : Nat) : State :=
  ((s.put rPWR_STATUS fPWR_STATUS_level 0).put rPWR_STATUS fPWR_STATUS_last_level d).put rPWR_STATUS fPWR_STATUS_busy 0

theorem exitLevel_shallow (hlevel : s.pwr.level = 2 ∨ s.pwr.level = 3) (hwaking : s.pwr.waking = true) : s.exitLevel b0 b1 =
    ((((s.shallowExit b0 b1).exitShown s.pwr.level).wdtResume).irq 0x02 2).stage 0x02 (s.pwr.level * 256) [toB (s.get rPWR_STATUS fPWR_STATUS_wake)] := by
  have hdeep : (if 4 ≤ s.pwr.level then s.resumeFrom s.pwr.level b0 b1 else s.shallowExit b0 b1) = s.shallowExit b0 b1 := if_neg (by omega)
  unfold State.exitLevel
  refine (if_neg (by simp [hwaking]; omega)).trans ((if_neg (by omega)).trans ?_)
  rw [← hdeep]
  rfl

/-- What follows an exit leaves the level, and PWR_STATUS. -/
theorem exit_same (t : State) (type detail : Nat) (data : List Byte) : SamePower t (((t.wdtResume).irq 0x02 2).stage type detail data) :=
  .stage (.irq (.ite (.withRst (.refl t)) (.refl t)))

theorem exitLevel_shown (hlevel : s.pwr.level = 2 ∨ s.pwr.level = 3) (hwaking : s.pwr.waking = true) : let t := s.exitLevel b0 b1
    t.pwr.level = 0 ∧ t.pwr.waking = false ∧ t.get rPWR_STATUS fPWR_STATUS_level = 0 ∧
    t.get rPWR_STATUS fPWR_STATUS_wake = s.get rPWR_STATUS fPWR_STATUS_wake ∧ t.get rPWR_STATUS fPWR_STATUS_busy = 0 := by
  obtain ⟨hlow, hawake, hstatus⟩ := shallowExit_frame s b0 b1
  dsimp only
  rw [exitLevel_shallow hlevel hwaking]
  have hsame := exit_same ((s.shallowExit b0 b1).exitShown s.pwr.level) 0x02 (s.pwr.level * 256) [toB (s.get rPWR_STATUS fPWR_STATUS_wake)]
  rw [hsame.pwr, get_congr _ hsame.status, get_congr _ hsame.status, get_congr _ hsame.status]
  unfold State.exitShown
  refine ⟨hlow, hawake, ?_, ?_, ?_⟩
  · rw [get_put_other _ _ _ _ _ (by decide) (by decide) (by decide), get_put_other _ _ _ _ _ (by decide) (by decide) (by decide),
      get_put_same _ _ _ _ (by decide) (by decide)]
    rfl
  · rw [get_put_other _ _ _ _ _ (by decide) (by decide) (by decide), get_put_other _ _ _ _ _ (by decide) (by decide) (by decide),
      get_put_other _ _ _ _ _ (by decide) (by decide) (by decide), get_congr _ hstatus]
  · rw [get_put_same _ _ _ _ (by decide) (by decide)]
    rfl

/-- A source that acts shown, as code c. -/
def State.wakeShown (s : State) (c : Nat) : State :=
  ((s.setReg rPWR_WAKE_SRC (s.reg rPWR_WAKE_SRC ||| toW (0 ||| 2 ^ c))).put rPWR_STATUS fPWR_STATUS_wake c).put rPWR_STATUS fPWR_STATUS_busy 1

/-- The exit begins. -/
def State.exitBegun (s : State) : State := { s with pwr := { s.pwr with waking := true } }

theorem pwr_exitBegun (s : State) : s.exitBegun.pwr = { s.pwr with waking := true } := rfl
theorem reg_exitBegun (s : State) (a : Nat) : s.exitBegun.reg a = s.reg a := rfl

/-- A source that acts in L2 or L3 begins the exit, and shows as the one that woke the hub. -/
theorem wakeBy_shallow {c : Nat} (hlevel : s.pwr.level = 2 ∨ s.pwr.level = 3) (hidle : s.pwr.waking = false) (hc : c = 0 ∨ c = 5)
    (hacts : c = 0 ∨ (s.reg rPWR_WAKE_EN).toNat.testBit c = true) : let t := s.wakeBy [c]
    t.pwr.level = s.pwr.level ∧ t.pwr.waking = true ∧ t.get rPWR_STATUS fPWR_STATUS_wake = c := by
  have hen : (if s.pwr.level = 6 then s.pwr.wakeEn else (s.reg rPWR_WAKE_EN).toNat) = (s.reg rPWR_WAKE_EN).toNat := if_neg (by omega)
  have hwakes : wakeActs s.pwr.level c = true := (if_pos (by simpa using hc)).trans (by simp; omega)
  have hhit : [c].filter (fun c => wakeActs s.pwr.level c && (decide (c = 0) || (s.reg rPWR_WAKE_EN).toNat.testBit c)) = [c] := by
    rw [List.filter_cons_of_pos (by simpa [hwakes] using hacts), List.filter_nil]
  have hmin : [c].foldl min 7 = c := Nat.min_eq_right (by omega)
  have hwake : s.wakeBy [c] = (s.wakeShown c).exitBegun := by
    unfold State.wakeBy State.exitBegun State.wakeShown
    dsimp only
    rw [hen, hhit, hmin, if_neg (by simp [hidle]), List.foldl_cons, List.foldl_nil]
  have hshown : (s.wakeShown c).get rPWR_STATUS fPWR_STATUS_wake = c := by
    unfold State.wakeShown
    rw [get_put_other _ _ _ _ _ (by decide) (by decide) (by decide), get_put_same _ _ _ _ (by decide) (by decide)]
    exact Nat.mod_eq_of_lt (by dsimp only; omega)
  have hlevel' : (s.wakeShown c).pwr.level = s.pwr.level := by
    unfold State.wakeShown
    rw [State.put_pwr, State.put_pwr, State.setReg_pwr]
  dsimp only
  rw [hwake, pwr_exitBegun, get_congr _ (reg_exitBegun (s.wakeShown c) _)]
  exact ⟨hlevel', rfl, hshown⟩

/-- Awake, nothing wakes the hub. -/
theorem wake_awake (hlevel : s.pwr.level = 0) (codes : List (Fin 8)) : s.wake (codes.map Fin.val) b0 b1 = s := by
  have hhit (en : Nat) : (codes.map Fin.val).filter (fun c => wakeActs s.pwr.level c && (decide (c = 0) || en.testBit c)) = [] := by
    refine List.filter_eq_nil_iff.2 fun c _ => ?_
    have hasleep : wakeActs s.pwr.level c = false := by
      unfold wakeActs
      rw [hlevel]
      simp
    simp [hasleep]
  have hwake : s.wakeBy (codes.map Fin.val) = s := by
    unfold State.wakeBy
    dsimp only
    rw [hhit]
    exact if_pos (by simp)
  unfold State.wake
  rw [hwake]
  exact if_pos (by simp [hlevel])

/-- In L6 the exit is a cold reset, recorded by the power die and the ledger. -/
theorem wake_deep (hlevel : s.pwr.level = 6) (hwaking : s.pwr.waking = true) : let w := s.get rPWR_STATUS fPWR_STATUS_wake
    let x := (s.pdOr rPD_RESET_CAUSE 16).pdEvent 0x14 w []
    s.wake [] b0 b1 = ((({ x with pd := { x.pd with l6 := false } } : State).hpwr).resetCause 0x04).stage 0x02 (6 * 256) [toB w] := by
  have hwake : s.wakeBy [] = s := if_pos (by simp [hwaking])
  unfold State.wake
  rw [hwake]
  unfold State.exitLevel
  refine (if_neg (by simp [hlevel, hwaking])).trans ((if_pos hlevel).trans ?_)
  rw [hlevel]

/-- The hub back from L5, its cause shown, before the PLLs restart. -/
def State.resumeShown (s : State) (wake : Nat) : State :=
  (((s.put rRST_CAUSE fRST_CAUSE_code 0x21).put rRST_CAUSE fRST_CAUSE_resume 1).put rPWR_STATUS fPWR_STATUS_wake wake).put rPWR_STATUS
    fPWR_STATUS_last_level 5

/-- L5 left. -/
def State.resumed (s : State) : State := { s with pwr := { s.pwr with level := 0, waking := false, resume := 5 } }

theorem reg_relocked_resumed (s : State) (a : Nat) : s.resumed.relocked.reg a = s.reg a := rfl

theorem resumeFrom_five (s : State) (b0 b1 : Nat) :
    s.resumeFrom 5 b0 b1 = ((s.lose .l5).resumeShown (s.get rPWR_STATUS fPWR_STATUS_wake)).resumed.restartRead b0 b1 := by
  unfold State.resumeFrom State.resumeShown State.resumed
  simp only [show ¬ (5 : Nat) = 4 by decide, if_false]

theorem resumeFrom_five_shows (s : State) (b0 b1 : Nat) : let t := s.resumeFrom 5 b0 b1
    t.get rRST_CAUSE fRST_CAUSE_code = 0x21 ∧ t.pwr.level = 0 ∧ t.pwr.resume = 5 := by
  have hcause : ((s.lose .l5).resumeShown (s.get rPWR_STATUS fPWR_STATUS_wake)).get rRST_CAUSE fRST_CAUSE_code = 0x21 := by
    unfold State.resumeShown
    rw [get_put_ne _ _ _ _ (by decide), get_put_ne _ _ _ _ (by decide), get_put_other _ _ _ _ _ (by decide) (by decide) (by decide),
      get_put_same _ _ _ _ (by decide) (by decide)]
    rfl
  dsimp only
  rw [resumeFrom_five]
  generalize (s.lose .l5).resumeShown (s.get rPWR_STATUS fPWR_STATUS_wake) = t at *
  have hsame := restartRead_same t.resumed b0 b1
  rw [hsame.pwr, get_congr _ hsame.cause, get_congr _ (reg_relocked_resumed t _)]
  exact ⟨hcause, rfl, rfl⟩

end Waking

/-! ### Clocks and temperature (R540, R588) -/

section Temperature

variable {s : State} {t : Nat}

/-- A measurement recorded, with the greatest one. -/
def State.tempShown (s : State) (t : Nat) : State :=
  let u := s.setReg rCHIP_TEMP (toW (t % 2 ^ 16))
  if sxInt 16 (u.get rCHIP_TEMP_MAX fCHIP_TEMP_MAX_max) < sxInt 16 t then u.setReg rCHIP_TEMP_MAX (toW (t % 2 ^ 16)) else u

theorem tempShown_shows (ht : t < 2 ^ 16) : (s.tempShown t).reg rCHIP_TEMP = toW t ∧ (s.tempShown t).raises = s.raises ∧
    (s.tempShown t).enabled 0x00 = s.enabled 0x00 := by
  unfold State.tempShown
  dsimp only
  rw [Nat.mod_eq_of_lt ht]
  split
  · refine ⟨(reg_setReg_ne _ _ (by decide)).trans (reg_setReg_same ..), rfl, ?_⟩
    exact flag_congr _ ((reg_setReg_ne _ _ (by decide)).trans (reg_setReg_ne _ _ (by decide)))
  · exact ⟨reg_setReg_same .., rfl, flag_congr _ (reg_setReg_ne _ _ (by decide))⟩

theorem chipTemp_eq (s : State) (t : Nat) : let old := sxInt 16 (s.get rCHIP_TEMP fCHIP_TEMP_temp)
    s.chipTemp t = (s.tempShown t).ifOn 0x00 fun s =>
      let s := if decide (old ≤ 1150) && decide (1150 < sxInt 16 t) then (s.irq 0x00 2).raise 125 else s
      if decide (old ≤ 1300) && decide (1300 < sxInt 16 t) then (s.irq 0x00 3).raise 126 else s := rfl

/-- A measurement of no more than 0x7FFF is itself. -/
theorem sxInt_small (ht : t < 32768) : sxInt 16 t = t := by
  have hmod : t % 2 ^ 16 = t := Nat.mod_eq_of_lt (by omega)
  unfold sxInt
  dsimp only
  rw [hmod, if_neg (by omega)]

/-- A measurement that stays at or below 115 degrees raises nothing. -/
theorem chipTemp_low {m : Nat} (hnew : sxInt 16 m ≤ 1150) : s.chipTemp m = s.tempShown m := by
  rw [chipTemp_eq]
  dsimp only
  have h115 (u : State) : (if decide (sxInt 16 (s.get rCHIP_TEMP fCHIP_TEMP_temp) ≤ 1150) && decide (1150 < sxInt 16 m) then (u.irq 0x00 2).raise 125
      else u) = u := if_neg (by simp; omega)
  have h130 (u : State) : (if decide (sxInt 16 (s.get rCHIP_TEMP fCHIP_TEMP_temp) ≤ 1300) && decide (1300 < sxInt 16 m) then (u.irq 0x00 3).raise 126
      else u) = u := if_neg (by simp; omega)
  simp only [h115, h130]
  exact ite_self _

theorem chipTemp_passes115 (hon : s.enabled 0x00 = true) (hold : sxInt 16 (s.get rCHIP_TEMP fCHIP_TEMP_temp) ≤ 1150) (hlo : 1150 < sxInt 16 t)
    (hhi : sxInt 16 t ≤ 1300) (ht : t < 2 ^ 16) : s.chipTemp t = ((s.tempShown t).irq 0x00 2).raise 125 := by
  have h115 (u : State) : (if decide (sxInt 16 (s.get rCHIP_TEMP fCHIP_TEMP_temp) ≤ 1150) && decide (1150 < sxInt 16 t) then (u.irq 0x00 2).raise 125
      else u) = (u.irq 0x00 2).raise 125 := if_pos (by simp; omega)
  have h130 (u : State) : (if decide (sxInt 16 (s.get rCHIP_TEMP fCHIP_TEMP_temp) ≤ 1300) && decide (1300 < sxInt 16 t) then (u.irq 0x00 3).raise 126
      else u) = u := if_neg (by simp; omega)
  rw [chipTemp_eq]
  dsimp only
  simp only [h115, h130]
  exact State.ifOn_on ((tempShown_shows ht).2.2.trans hon)

theorem chipTemp_passes130 (hon : s.enabled 0x00 = true) (hlo : 1150 < sxInt 16 (s.get rCHIP_TEMP fCHIP_TEMP_temp))
    (hhi : sxInt 16 (s.get rCHIP_TEMP fCHIP_TEMP_temp) ≤ 1300) (hnew : 1300 < sxInt 16 t) (ht : t < 2 ^ 16) :
    s.chipTemp t = ((s.tempShown t).irq 0x00 3).raise 126 := by
  have h115 (u : State) : (if decide (sxInt 16 (s.get rCHIP_TEMP fCHIP_TEMP_temp) ≤ 1150) && decide (1150 < sxInt 16 t) then (u.irq 0x00 2).raise 125
      else u) = u := if_neg (by simp; omega)
  have h130 (u : State) : (if decide (sxInt 16 (s.get rCHIP_TEMP fCHIP_TEMP_temp) ≤ 1300) && decide (1300 < sxInt 16 t) then (u.irq 0x00 3).raise 126
      else u) = (u.irq 0x00 3).raise 126 := if_pos (by simp; omega)
  rw [chipTemp_eq]
  dsimp only
  simp only [h115, h130]
  exact State.ifOn_on ((tempShown_shows ht).2.2.trans hon)

/-- The reference clock absent. -/
theorem refCheck_absent (hon : s.enabled 0x03 = true) :
    s.refCheck none = (({ s with pwr := { s.pwr with refBad := true } } : State).irq 0x03 3).raise 119 := by
  unfold State.refCheck
  dsimp only
  rw [if_pos rfl]
  exact State.ifOn_on hon

/-- The reference clock within its limits. -/
theorem refCheck_good {p : Nat} (hcrystal : s.crystal = true) (hgood : (sxInt 16 p).natAbs ≤ 2000) :
    s.refCheck (some p) = let t := s.setReg rCLK_REF_PPM (toW (p % 2 ^ 16)); { t with pwr := { t.pwr with refBad := false } } := by
  have hbad : (s.crystal && decide (2000 < (sxInt 16 p).natAbs)) = false := by simp [hgood]
  unfold State.refCheck
  dsimp only
  rw [hbad, if_pos hcrystal, if_neg Bool.false_ne_true]

end Temperature

/-- Settles O58: a command, a wake and a measurement are one branch each; the level and PWR_STATUS are read through what an exit does beside. -/
theorem powerLevelsClocksAndTemperature : Obligations.PowerLevelsClocksAndTemperature := by
  unfold Obligations.PowerLevelsClocksAndTemperature
  refine ⟨fun s => ⟨fun q v ha hgo hidle hfree => ⟨fun hwaits hcode => ?taken, fun hnow hcode => ?refused, fun hwaits hcode => ?waits⟩,
      fun n since hwait hdue => ⟨fun hstaged => ?stays, fun hstaged => ?flushed⟩, fun n since hwait hlate => ?late,
      fun n _ hn => enterLevel_shows hn, fun n => pwrRefusal_level, fun hen hlevel hquiet hon => congrArg (finish s) (if_pos (by simp [hen, hlevel, hquiet, hon])),
      fun hquiet => congrArg (finish s) (if_neg (by simp [hquiet])), fun hlevel => congrArg (finish s) (if_pos hlevel),
      fun b0 b1 hlevel hidle => ?error, fun b0 b1 hlevel hidle hen htimer => ?timer, fun b0 b1 hlevel _ codes => congrArg (finish s) (wake_awake hlevel codes),
      fun b0 b1 hlevel hwaking => congrArg (finish s) (wake_deep hlevel hwaking), fun b0 b1 => resumeFrom_five_shows s b0 b1⟩,
    fun s q => ⟨fun pll hlevel hon => ?unlock, fun hon => ?absent, fun p hcrystal hgood => congrArg (finish s) (refCheck_good hcrystal hgood),
      fun v ha => exec_writeReg_accepted rfl ha (if_pos (bitOf_or_set rfl)), fun t ht hon hold hlo hhi => ?warm, fun t ht hon hlo hhi hnew => ?hot,
      fun t ht => ?cool⟩⟩
  case taken =>
    refine exec_writeReg_accepted (fx := pwrCmdFx) rfl ha ((pwrCmdFx_taken hgo hidle hfree).trans ((if_neg (by simp [hwaits])).trans ?_))
    rw [hcode]
    exact pwrDecide_accepted ..
  case refused =>
    refine exec_writeReg_accepted (fx := pwrCmdFx) rfl ha ((pwrCmdFx_taken hgo hidle hfree).trans ((if_neg ?_).trans (pwrDecide_refused hcode)))
    obtain hwaits | ⟨hlo, hhi⟩ := hnow
    · simp [hwaits]
    · simp; omega
  case waits =>
    exact exec_writeReg_accepted (fx := pwrCmdFx) rfl ha ((pwrCmdFx_taken hgo hidle hfree).trans (if_pos (by simpa [hwaits] using hcode)))
  case stays =>
    have hlate : decide (500000000 < s.pd.ticks - since) = false := decide_eq_false (by omega)
    refine (pwrWaited_some hwait).trans (if_neg ?_)
    simp [hlate, hstaged]
  case flushed =>
    have hlate : decide (500000000 < s.pd.ticks - since) = false := decide_eq_false (by omega)
    rw [pwrWaited_some hwait, hlate]
    exact if_pos (by simp [hstaged])
  case late =>
    rw [pwrWaited_some hwait, decide_eq_true hlate]
    refine (if_pos rfl).trans ?_
    rw [if_pos rfl]
    exact pwrDecide_refused (by decide)
  case error =>
    obtain ⟨hlevel', hwaking, hwake⟩ := wakeBy_shallow (c := 0) hlevel hidle (.inl rfl) (.inl rfl)
    rw [← hlevel'] at hlevel
    obtain ⟨hlow, hawake, hshown, hcode, hbusy⟩ := exitLevel_shown (b0 := b0) (b1 := b1) hlevel hwaking
    exact ⟨_, rfl, hlow, hawake, hshown, hcode.trans hwake, hbusy⟩
  case timer =>
    have hcodes : (if s.pwr.level = 6 then [7] else if bitOf (s.reg rPWR_WAKE_TIMER) 31 then [5] else []) = [5] := (if_neg (by omega)).trans (if_pos htimer)
    obtain ⟨hlevel', hwaking, hwake⟩ := wakeBy_shallow (c := 5) hlevel hidle (.inr rfl) (.inr hen)
    rw [← hlevel'] at hlevel
    obtain ⟨hlow, _, _, hcode, _⟩ := exitLevel_shown (b0 := b0) (b1 := b1) hlevel hwaking
    exact ⟨s.wake [5] b0 b1, congrArg (fun l => finish s (s.wake l b0 b1)) hcodes, hlow, hcode.trans hwake⟩
  case unlock => exact congrArg (finish s) ((if_neg (by omega)).trans (State.ifOn_on hon))
  case absent => exact congrArg (finish s) (refCheck_absent hon)
  case warm =>
    have ht' := sxInt_small ht
    have hsmall : t < 2 ^ 16 := by omega
    refine ⟨(s.tempShown t).irq 0x00 2, congrArg (finish s) (chipTemp_passes115 hon hold (by omega) (by omega) hsmall), ?_⟩
    rw [reg_irq, if_neg (by decide), (tempShown_shows hsmall).1]
  case hot =>
    have ht' := sxInt_small ht
    have hsmall : t < 2 ^ 16 := by omega
    refine ⟨(s.tempShown t).irq 0x00 3, congrArg (finish s) (chipTemp_passes130 hon hlo hhi (by omega) hsmall), ?_⟩
    rw [reg_irq, if_neg (by decide), (tempShown_shows hsmall).1]
  case cool =>
    have ht' := sxInt_small (show t < 32768 by omega)
    obtain ⟨hshown, hraises, _⟩ := tempShown_shows (s := s) (show t < 2 ^ 16 by omega)
    exact ⟨s.tempShown t, congrArg (finish s) (chipTemp_low (by omega)), hshown, hraises⟩
end Sys2Proof.Machine
end

section
/-! PROOF. O59: the firmware update commands (R549 to R556, R562, R566). -/
namespace Sys2Proof.Machine

/-! ### FWU_CMD, by its bit (R565) -/

section Commands

variable {s : State} {q : Req} {v : Word} {bad : Bool}

/-- What bit k of FWU_CMD does. -/
def fwuStep (q : Req) (bad : Bool) (s : State) : Fin 9 → State
  | 0 => s.fwuOpen
  | 1 => s.fwuWrite bad
  | 2 => s.fwuCommit bad
  | 3 => s.fwuActivate q
  | 4 => s.fwuHandover q
  | 5 => s.fwuConfirm
  | 6 => s.fwuLoad
  | 7 => s.fwuSend
  | 8 => (s.put rFWU_STATUS fFWU_STATUS_session_open 0).fwuResult 8 0 0 0

/-- A word without commands and one command beside. -/
theorem bitOf_single (hv : v &&& 0x1FF = 0) (k : Fin 9) {j : Nat} (hj : j < 9) : bitOf (v ||| toW (2 ^ k.val)) j = decide (j = k) := by
  have hmask : bitOf (0x1FF : Word) j = true := by
    interval_cases j <;> rfl
  have hclear : bitOf v j = false := by
    have hand := bitOf_and v 0x1FF j
    rw [hv, hmask, Bool.and_true] at hand
    exact hand.symm.trans (bitOf_zero j)
  rw [bitOf_or, hclear, Bool.false_or, bitOf_two_pow (by omega)]

/-- A write of FWU_CMD with one bit set does that bit's command. -/
theorem fwuCmdFx_single (hv : v &&& 0x1FF = 0) (k : Fin 9) : fwuCmdFx q bad (v ||| toW (2 ^ k.val)) s = fwuStep q bad s k := by
  have hbit {j : Nat} (hj : j < 9) := bitOf_single hv k hj
  unfold fwuCmdFx
  rw [hbit (show 0 < 9 by decide), hbit (show 1 < 9 by decide), hbit (show 2 < 9 by decide), hbit (show 3 < 9 by decide), hbit (show 4 < 9 by decide),
    hbit (show 5 < 9 by decide), hbit (show 6 < 9 by decide), hbit (show 7 < 9 by decide), hbit (show 8 < 9 by decide)]
  fin_cases k <;> rfl

/-- The row of a command of FWU_CMD that is accepted. -/
theorem exec_fwuCmd {c : Instr} {t : State} (hv : v &&& 0x1FF = 0) (k : Fin 9)
    (hc : exec c s = finish s (s.writeReg q rFWU_CMD (v ||| toW (2 ^ k.val)) (fwuCmdFx q bad))) (ha : s.accepts q rFWU_CMD (v ||| toW (2 ^ k.val)))
    (hstep : fwuStep q bad s k = t) : exec c s = .next (s.finished (t.wrote q 0)) :=
  exec_writeReg_accepted hc ha ((fwuCmdFx_single hv k).trans hstep)

end Commands

/-! ### Sessions, blocks and images (R549 to R555, R562) -/

section Images

variable {s : State}

theorem boot_setBytes (s : State) (a : Nat) (l : List Byte) : (s.setBytes a l).boot = s.boot := by
  induction l generalizing s a with
  | nil => rfl
  | cons b l ih => rw [State.setBytes, ih, State.setByte_boot]

theorem boot_stage (s : State) (type detail : Nat) (data : List Byte) (pdMs : Option Nat) : (s.stage type detail data pdMs).boot = s.boot := by
  have hput (t : State) (type detail : Nat) (data : List Byte) (gap : Bool) (pdMs : Option Nat) : (t.stagePut type detail data gap pdMs).boot = t.boot := by
    unfold State.stagePut
    dsimp only
    rw [State.put_boot, boot_setBytes]
  unfold State.stage
  dsimp only
  generalize (if s.ledg.lost = 0 then 1 else 2) = need
  split_ifs
  · rfl
  · rfl
  · exact hput ..
  · exact (hput ..).trans (hput ..)

/-- A command's result is shown, with its interrupt, and changes nothing else. -/
theorem reg_fwuResult (s : State) (bit verify block code : Nat) :
    (s.fwuResult bit verify block code).reg rFWU_RESULT = toW (2 ^ 31 + bit * 2 ^ 24 + verify * 2 ^ 16 + block * 2 ^ 8 + code) := by
  unfold State.fwuResult
  rw [reg_irq, if_neg (by decide), reg_setReg_same]

theorem reg_fwuResult_ne {a bit verify block code : Nat} (ha : a ≠ rFWU_RESULT) (hirq : a ≠ rPG_IRQ_STAT 0xC0) :
    (s.fwuResult bit verify block code).reg a = s.reg a := by
  unfold State.fwuResult
  rw [reg_irq, if_neg hirq, reg_setReg_ne _ _ ha]

theorem boot_fwuResult (s : State) (bit verify block code : Nat) : (s.fwuResult bit verify block code).boot = s.boot := by
  unfold State.fwuResult
  rw [State.irq_boot, State.setReg_boot]

theorem mem_fwuResult (s : State) (bit verify block code : Nat) : (s.fwuResult bit verify block code).mem = s.mem := by
  unfold State.fwuResult
  rw [State.irq_mem, State.setReg_mem]

/-- What the registers show of a session begun: its number, open and nothing committed. -/
def State.sessionShown (s : State) : State :=
  ((s.put rFWU_SESSION fFWU_SESSION_session (s.get rFWU_SESSION fFWU_SESSION_session + 1)).put rFWU_STATUS fFWU_STATUS_session_open 1).put
    rFWU_STATUS fFWU_STATUS_commit_ok 0

/-- A session begun, with no page written. -/
def State.sessionBegun (s : State) : State := { s.sessionShown with boot := { s.sessionShown.boot with pages := [] } }

theorem reg_withBoot (s : State) (b : BootSt) (a : Nat) : ({ s with boot := b } : State).reg a = s.reg a := rfl

theorem reg_sessionBegun (s : State) (a : Nat) : s.sessionBegun.reg a = s.sessionShown.reg a := by
  unfold State.sessionBegun
  exact reg_withBoot ..

theorem open_sessionShown (s : State) : s.sessionShown.flag rFWU_STATUS fFWU_STATUS_session_open = true :=
  (flag_put_other _ rFWU_STATUS _ _ _ (by decide) (by decide) (by decide)).trans (flag_put_one rfl (by decide))

theorem toLoad_sessionShown (s : State) : s.sessionShown.toLoad = s.toLoad := by
  have hcumin : s.sessionShown.flag rFWU_STATUS fFWU_STATUS_cumin = s.flag rFWU_STATUS fFWU_STATUS_cumin := by
    unfold State.sessionShown
    rw [flag_put_other _ _ _ _ _ (by decide) (by decide) (by decide), flag_put_other _ _ _ _ _ (by decide) (by decide) (by decide),
      flag_put_ne _ _ _ _ (by decide)]
  have htarget : s.sessionShown.flag rFWU_CFG fFWU_CFG_target = s.flag rFWU_CFG fFWU_CFG_target := by
    unfold State.sessionShown
    rw [flag_put_ne _ _ _ _ (by decide), flag_put_ne _ _ _ _ (by decide), flag_put_ne _ _ _ _ (by decide)]
  unfold State.toLoad
  rw [hcumin, htarget]

theorem toLoad_sessionBegun (s : State) : s.sessionBegun.toLoad = s.toLoad :=
  (congrArg₂ (· || ·) (flag_congr _ (reg_sessionBegun ..)) (flag_congr _ (reg_sessionBegun ..))).trans (toLoad_sessionShown s)

theorem fwuOpen_begins (h : ¬ (s.flag rFWU_STATUS fFWU_STATUS_confirm_pending && decide (s.boot.slot = s.inactiveSlot)) = true) :
    s.fwuOpen = if s.sessionBegun.toLoad then (s.sessionBegun.eraseRange loadBase 0x100000).fwuResult 0 0 0 0
      else s.sessionBegun.put rFWU_STATUS fFWU_STATUS_erasing 1 := if_neg h

theorem fwuOpen_load (h : ¬ (s.flag rFWU_STATUS fFWU_STATUS_confirm_pending && decide (s.boot.slot = s.inactiveSlot)) = true) (hload : s.toLoad = true) :
    s.fwuOpen = (s.sessionBegun.eraseRange loadBase 0x100000).fwuResult 0 0 0 0 := by
  rw [fwuOpen_begins h, if_pos ((toLoad_sessionBegun s).trans hload)]

theorem reg_eraseRange (s : State) (b n a : Nat) : (s.eraseRange b n).reg a = s.reg a := rfl

theorem boot_eraseRange (s : State) (b n : Nat) : (s.eraseRange b n).boot = s.boot := rfl

theorem byte_eraseRange {b n a : Nat} (hlo : b ≤ a) (hhi : a < b + n) : (s.eraseRange b n).byte a = memDefault a := by
  refine (spGet_spDrop memDefault (fun x => decide (b ≤ x) && decide (x < b + n)) s.mem a).trans (if_pos ?_)
  simp [hlo, hhi]

/-- FWU_CMD.write takes its block from general SRAM or the CS1 window. -/
theorem fwuWrite_ranged {bad : Bool} (h : s.memRange (s.reg rFWU_BLK_ADDR).toNat 24 = some .general ∨ s.memRange (s.reg rFWU_BLK_ADDR).toNat 24 = some .cs1) :
    s.fwuWrite bad = s.fwuBlock (s.reg rFWU_BLK_ADDR).toNat 1 bad := by
  unfold State.fwuWrite
  dsimp only
  obtain h | h := h
  · rw [h]
  · rw [h]

theorem fwuWrite_unranged {bad : Bool} (h : s.memRange (s.reg rFWU_BLK_ADDR).toNat 24 = none) : s.fwuWrite bad = s.blockRefused 1 1 := by
  unfold State.fwuWrite
  dsimp only
  rw [h]

/-- A block whose length fits is refused with its code, or programmed. -/
theorem fwuBlock_fits {a bit : Nat} {bad : Bool} (hlen : hdrNat (s.bytes a 24) 12 4 ≤ 65536) : let h := s.bytes a 24
    let data := s.bytes (a + 24) (hdrNat h 12 4)
    let t := s.setBytes (s.updBase + hdrNat h 8 4) data
    let u : State := { t with boot := { t.boot with pages := t.boot.pages ++ blockPagesOf (hdrNat h 8 4) (hdrNat h 12 4) } }
    s.fwuBlock a bit bad = if (s.blockCode h data bad != 0) = true then s.blockRefused bit (s.blockCode h data bad)
      else ((u.put rFWU_STATUS fFWU_STATUS_commit_ok 0).inc rFWU_CNT_BLOCKS).fwuResult bit 0 0 0 := by
  unfold State.fwuBlock
  dsimp only
  rw [if_pos hlen]

/-- An image that starts is the running one. -/
theorem startImage_shows (h : List Byte) (a slot : Nat) (info : Word) : let t := s.startImage h a slot info
    t.boot.hdr = h ∧ t.boot.slot = slot ∧ t.reg rFWU_RUN_VERSION = toW (hdrVersion h) :=
  ⟨rfl, rfl, (reg_setReg_ne _ _ (by decide)).trans (reg_setReg_same ..)⟩

/-- The flag that a write of 0 leaves. -/
theorem flag_put_zero {a : Nat} {f : Fld} (hle : f.lo ≤ f.hi) (hword : f.hi < 32) : (s.put a f 0).flag a f = false := by
  unfold State.flag
  rw [get_put_same s a f 0 hle hword, Nat.zero_mod]
  rfl

/-- An image of the load area is measured and started, and Cumin ends (R562). -/
def State.loadStarted (s : State) (info : Word) : State :=
  (((s.extend 0 (beBytes 32 (Config.cuminMeasure s.svn).toNat)).startImage (s.bytes loadBase 512) (loadBase + 512) 0 info).put
    rFWU_STATUS fFWU_STATUS_cumin 0).put rFWU_CFG fFWU_CFG_target 0

theorem loadStarted_shows (info : Word) : let t := s.loadStarted info
    t.flag rFWU_STATUS fFWU_STATUS_cumin = false ∧ t.boot.hdr = s.bytes loadBase 512 ∧
    t.reg rFWU_RUN_VERSION = toW (hdrVersion (s.bytes loadBase 512)) := by
  obtain ⟨hhdr, _, hversion⟩ := startImage_shows (s := s.extend 0 (beBytes 32 (Config.cuminMeasure s.svn).toNat)) (s.bytes loadBase 512) (loadBase + 512) 0 info
  unfold State.loadStarted
  refine ⟨(flag_put_ne _ _ _ _ (by decide)).trans (flag_put_zero (by decide) (by decide)), ?_, ?_⟩
  · rw [State.put_boot, State.put_boot, hhdr]
  · rw [reg_put, if_neg (by decide), reg_put, if_neg (by decide), hversion]

theorem fwuLoad_starts (hcumin : s.flag rFWU_STATUS fFWU_STATUS_cumin = true) (hgood : s.verifyAt loadBase false = 0) : ∃ info : Word,
    let t := (s.loadStarted info).startEntry (hdrVersion (s.bytes loadBase 512))
    s.fwuLoad = (if s.flag rFWU_STATUS fFWU_STATUS_recovery then t.fwEntry 5 0 (hdrVersion (s.bytes loadBase 512)) else t).fwuResult 6 0 0 0 :=
  ⟨_, (if_neg (by simp [hcumin])).trans (if_neg (by simp [hgood]))⟩

theorem fwuLoad_fails (hcumin : s.flag rFWU_STATUS fFWU_STATUS_cumin = true) (hbad : s.verifyAt loadBase false ≠ 0) :
    s.fwuLoad = s.fwuResult 6 (s.verifyAt loadBase false) 0 0 :=
  (if_neg (by simp [hcumin])).trans (if_pos (by simpa using hbad))

/-- The two ledger entries of a start leave the boot state and every register of FWU. -/
theorem startEntries_frame (c : Bool) (version a : Nat) (ha : a ∉ stageRegs) : let t := if c then (s.startEntry version).fwEntry 5 0 version else s.startEntry version
    t.boot = s.boot ∧ t.reg a = s.reg a := by
  cases c with
  | false => exact ⟨boot_stage .., reg_stage_ne ha⟩
  | true => exact ⟨(boot_stage ..).trans (boot_stage ..), (reg_stage_ne ha).trans (reg_stage_ne ha)⟩

/-- FWU_CMD.load of an image that verifies. -/
theorem fwuLoad_shows (hcumin : s.flag rFWU_STATUS fFWU_STATUS_cumin = true) (hgood : s.verifyAt loadBase false = 0) : let t := s.fwuLoad
    t.flag rFWU_STATUS fFWU_STATUS_cumin = false ∧ t.boot.hdr = s.bytes loadBase 512 ∧ t.reg rFWU_RUN_VERSION = toW (hdrVersion (s.bytes loadBase 512)) := by
  obtain ⟨info, hload⟩ := fwuLoad_starts hcumin hgood
  obtain ⟨hended, hhdr, hversion⟩ := loadStarted_shows (s := s) info
  have hframe := startEntries_frame (s := s.loadStarted info) (s.flag rFWU_STATUS fFWU_STATUS_recovery) (hdrVersion (s.bytes loadBase 512))
  refine ⟨(flag_congr _ ?_).trans hended, ?_, ?_⟩
  · rw [hload]
    exact (reg_fwuResult_ne (by decide) (by decide)).trans (hframe rFWU_STATUS (by decide)).2
  · rw [hload, boot_fwuResult]
    exact (congrArg BootSt.hdr (hframe rFWU_STATUS (by decide)).1).trans hhdr
  · rw [hload]
    exact ((reg_fwuResult_ne (by decide) (by decide)).trans (hframe rFWU_RUN_VERSION (by decide)).2).trans hversion

theorem fwuSend_unnumbered (h : s.nodeId 0 = none) : s.fwuSend = (s.irq 0xC0 3).fwuResult 7 0 0 0 := by
  unfold State.fwuSend
  rw [h]

/-- The fragments of the block at FWU_BLK_ADDR, sent by node me. -/
theorem fwuSend_numbered {me : Nat} (h : s.nodeId 0 = some me) : let a := (s.reg rFWU_BLK_ADDR).toNat
    let h := s.bytes a 24
    let len := min 65536 (hdrNat h 12 4)
    let l := s.bytes a (24 + len)
    let frag (x : State) (n : Nat) := mkFrame 0xC 3 0 0 0 (x.get rFWU_SEND_NODE fFWU_SEND_NODE_node) me 0xF4C0 x.boot.send
      (fwFragment l (hdrNat h 4 2) (hdrNat h 8 4) len n ((24 + len + 447) / 448))
    s.fwuSend = if s.get rFWU_SEND_NODE fFWU_SEND_NODE_node % 256 = 255 then s.fwuResult 7 0 0 9 else
      (((List.range ((24 + len + 447) / 448)).foldl (fun (x : State) n =>
        ({ x with boot := { x.boot with send := (x.boot.send + 1) % 65536 } } : State).present 14 (frag x n)) s).irq 0xC0 3).fwuResult 7 0 0 0 := by
  unfold State.fwuSend
  rw [h]

/-- A kind 0xC frame delivered at FP14. -/
theorem fwFragmentIn_some {d : Delivered} {bad : Bool} (hfind : (s.outbox 14).find? (fun d => d.frame.kind = 0xC) = some d) (hkept : d.discard = false) :
    let t := s.setOutbox 14 ((s.outbox 14).erase d)
    s.fwFragmentIn bad = if (!s.flag rFWU_CFG fFWU_CFG_ring_en || decide (d.level = 0) || decide (d.frame.payload.length < 16)) = true
      then t.inc rFWU_CNT_FRAG_DISCARD else t.asmAdd d.frame.payload bad := by
  unfold State.fwFragmentIn
  rw [hfind]
  exact if_neg (by rw [hkept]; exact Bool.false_ne_true)

/-- Cumin's start after a reset: the flags of the reset cleared and CS0 set up (R548). -/
def State.cuminReset (s : State) : State :=
  ({ s with rst := { s.rst with active := false, causes := [] } } : State).setReg rXSPI_CS0_CFG (toW (b2n Config.otpXspiBoot * 2 ^ 8 + 26))

theorem cuminStart_flash {bad : Nat} (hresume : s.pwr.resume = 0) (hactive : s.rst.active = true)
    (hstrap : s.cuminReset.flag rCHIP_STRAPS fCHIP_STRAPS_recover_n = true) (hsel : s.cuminReset.bootSel = 0) :
    s.cuminStart false bad = s.cuminReset.flashBoot bad true := by
  have hgood : (false || !s.cuminReset.flag rCHIP_STRAPS fCHIP_STRAPS_recover_n) = false := by
    rw [hstrap]
    rfl
  exact (if_neg (by simp [hresume])).trans ((if_neg (by simp [hactive])).trans ((if_neg (ne_true_of_eq_false hgood)).trans (if_pos hsel)))

end Images

/-- Settles O59: a command is the step of its bit, and a step is read off one branch of its definition. -/
theorem firmwareUpdateActs : Obligations.FirmwareUpdateActs := by
  unfold Obligations.FirmwareUpdateActs
  refine fun s q v hv => ⟨fun ha => exec_fwuCmd hv 0 rfl ha rfl, fun hpending hslot => if_pos (by simp [hpending, hslot]), fun hfree hload => ?opened,
    fun herasing => congrArg (finish s) (if_pos herasing), fun bad ha => fun hrange hlen => ⟨fun hcode => ?refused, fun hcode => ?taken⟩,
    fun bad ha hrange => exec_fwuCmd hv 1 rfl ha (fwuWrite_unranged hrange), fun bad ha herasing => exec_fwuCmd hv 2 rfl ha (if_pos herasing),
    fun bad ha hdone => ⟨fun hcode => ?failed, fun hcode => ?committed⟩,
    fun ha => ⟨fun hok hlevel => exec_fwuCmd hv 3 rfl ha (if_pos (by simp [hok, hlevel])), fun hbad => exec_fwuCmd hv 3 rfl ha (if_neg ?inactive)⟩,
    fun ha hcumin hbad => exec_fwuCmd hv 6 rfl ha (fwuLoad_fails hcumin hbad),
    fun ha hcumin hgood => ⟨s.fwuLoad, exec_fwuCmd hv 6 rfl ha rfl, fwuLoad_shows hcumin hgood⟩,
    fun ha hnode => exec_fwuCmd hv 7 rfl ha (fwuSend_unnumbered hnode),
    fun me ha hnode => ⟨fun hdst => exec_fwuCmd hv 7 rfl ha ((fwuSend_numbered hnode).trans (if_pos hdst)),
      fun hdst => exec_fwuCmd hv 7 rfl ha ((fwuSend_numbered hnode).trans (if_neg hdst))⟩,
    fun ha => exec_fwuCmd hv 8 rfl ha rfl,
    fun bad d hon hfind hkept => ⟨fun hoff => ?dropped, fun hen hlevel hlength => ?joined⟩, rfl,
    fun w ha => ⟨fun hlow => exec_writeReg_accepted (fx := measExtFx) rfl ha (if_pos hlow),
      fun hhigh => exec_writeReg_accepted (fx := measExtFx) rfl ha (if_neg (by omega))⟩,
    fun hon => congrArg (finish s) (State.ifOn_on hon), fun otpBad bad hresume hidle => ?runs, fun otpBad bad hresume => ?resumes,
    fun bad hresume hactive => ?boots⟩
  case opened =>
    have hopen := fwuOpen_load (s := s) (by obtain h | h := hfree <;> simp [h]) hload
    rw [hopen]
    refine ⟨?_, ?_, ?_, fun a hlo hhi => ?_⟩
    · exact (flag_congr _ (reg_fwuResult_ne (by decide) (by decide))).trans ((flag_congr _ ((reg_eraseRange ..).trans (reg_sessionBegun ..))).trans (open_sessionShown s))
    · rw [boot_fwuResult, boot_eraseRange]
      rfl
    · exact reg_fwuResult _ 0 0 0 0
    · exact (congrArg (fun m => spGet memDefault m a) (mem_fwuResult ..)).trans (byte_eraseRange hlo hhi)
  case refused =>
    exact exec_fwuCmd hv 1 rfl ha ((fwuWrite_ranged hrange).trans ((fwuBlock_fits hlen).trans (if_pos (by simpa using hcode))))
  case taken =>
    exact exec_fwuCmd hv 1 rfl ha ((fwuWrite_ranged hrange).trans ((fwuBlock_fits hlen).trans (if_neg (by simpa using hcode))))
  case failed => exact exec_fwuCmd hv 2 rfl ha ((if_neg (by simp [hdone])).trans (if_neg hcode))
  case committed => exact exec_fwuCmd hv 2 rfl ha ((if_neg (by simp [hdone])).trans (if_pos hcode))
  case inactive => obtain h | h := hbad <;> simp [h]
  case dropped =>
    exact congrArg (finish s) ((State.ifOn_on hon).trans ((fwFragmentIn_some hfind hkept).trans (if_pos (by simp [hoff]))))
  case joined =>
    exact congrArg (finish s) ((State.ifOn_on hon).trans ((fwFragmentIn_some hfind hkept).trans (if_neg (by simp [hen, hlevel, hlength]))))
  case runs => exact congrArg (finish s) ((if_neg (by simp [hresume])).trans (if_pos (by simp [hidle])))
  case resumes => exact congrArg (finish s) (if_pos (by simpa using hresume))
  case boots => exact fun hstrap hsel => congrArg (finish s) (cuminStart_flash hresume hactive hstrap hsel)
end Sys2Proof.Machine
end

section
/-! PROOF. O60: handover, confirm and rollback (R557 to R561), and the mailboxes (R563, R564). -/
namespace Sys2Proof.Machine

/-! ### Handover (R559 to R561) -/

section Handover

variable {s : State}

/-- Anise stopped and the watchdog held. -/
def State.aniseStopped (s : State) : State := { s with boot := { s.boot with ho := 2 }, rst := { s.rst with stage := 0 } }

theorem handoverStop_begun (h : s.boot.ho = 1) : s.handoverStop = s.aniseStopped := if_pos h

/-- A write with ready, in step 2. -/
theorem aniHandoverFx_ready {w : Word} (hready : bitOf w 0 = true) (hho : s.boot.ho = 1) : aniHandoverFx w s = (s.store rANI_HANDOVER w).aniseStopped := by
  unfold aniHandoverFx
  dsimp only
  rw [if_pos hready, handoverStop_begun (s := s.store rANI_HANDOVER w) hho]
  exact if_neg (by simp [State.aniseStopped])

/-- A write with resumed, once the image has started. -/
theorem aniHandoverFx_resumed {w : Word} (hresumed : bitOf w 1 = true) (hho : s.boot.ho = 3) : let t := s.store rANI_HANDOVER w
    let u : State := { t.put rFWU_STATUS fFWU_STATUS_handover_active 0 with boot := { t.boot with ho := 0, held := [], heldRes := [] } }
    aniHandoverFx w s = t.boot.heldRes.foldl (fun (x : State) r => x.postResidence r) (t.boot.held.foldl (fun (x : State) h => x.runHeld h) u) := by
  have hstored : (s.store rANI_HANDOVER w).boot.ho = 3 := hho
  have hstop : (s.store rANI_HANDOVER w).handoverStop = s.store rANI_HANDOVER w := if_neg (by rw [hstored]; decide)
  unfold aniHandoverFx
  dsimp only
  rw [hstop, ite_self, hresumed, hstored]
  exact if_pos rfl

theorem boot_wdtResume (s : State) : s.wdtResume.boot = s.boot := by
  unfold State.wdtResume
  split_ifs
  · rfl
  · rfl

theorem reg_wdtResume (s : State) (a : Nat) : s.wdtResume.reg a = s.reg a := by
  unfold State.wdtResume
  split_ifs
  · rfl
  · rfl

theorem boot_confirmStart (s : State) : s.confirmStart.boot = { s.boot with since := s.pd.ticks } := rfl

theorem pending_confirmStart (s : State) : s.confirmStart.flag rFWU_STATUS fFWU_STATUS_confirm_pending = true := by
  refine (flag_congr _ ?_).trans (flag_put_one (s := s) (a := rFWU_STATUS) (f := fFWU_STATUS_confirm_pending) rfl (by decide))
  unfold State.confirmStart
  exact reg_withBoot ..

/-- The image of a slot copied and started, in step 5 of a handover. -/
def State.slotStarted (s : State) (slot : Nat) (info : Word) : State :=
  let t := s.startImage (s.bytes (slotBase slot) 512) (slotBase slot + 512) slot info
  { t with boot := { t.boot with ho := 3, hoOpen := false } }

theorem boot_slotStarted (s : State) (slot : Nat) (info : Word) : (s.slotStarted slot info).boot.ho = 3 ∧ (s.slotStarted slot info).boot.slot = slot ∧
    (s.slotStarted slot info).boot.hdr = s.bytes (slotBase slot) 512 := ⟨rfl, rfl, rfl⟩

/-- Step 5 of a handover: the image of its slot, or the active one where the body does not check. -/
def State.copyEnds (s : State) (ok : Bool) : State :=
  let slot := if ok then s.boot.hoSlot else bcrActive s.bcr
  let h := s.bytes (slotBase slot) 512
  let info := slot + 32 + 64 * b2n (s.boot.hoBack || !ok) + 128 * b2n (s.recordValid h) + s.bootSel * 2 ^ 16
  let t := (((s.slotStarted slot (toW info)).put rFWU_STATUS fFWU_STATUS_trial 0).confirmStart.wdtResume).fwEntry 2 slot (hdrVersion h)
  if ok then t else t.fwuResult 4 7 0 9

theorem handoverCopy_eq {bad : Nat} (hho : s.boot.ho = 2) : let h := s.bytes (slotBase s.boot.hoSlot) 512
    s.handoverCopy bad = s.copyEnds (!bad.testBit s.boot.hoSlot && decide (sha256 (s.bytes (slotBase s.boot.hoSlot + 512) (hdrLength h)) = slice h 32 32)) :=
  if_neg (by simp [hho])

theorem copyEnds_good (s : State) : ∃ info version, s.copyEnds true =
    (((s.slotStarted s.boot.hoSlot info).put rFWU_STATUS fFWU_STATUS_trial 0).confirmStart.wdtResume).fwEntry 2 s.boot.hoSlot version := by
  unfold State.copyEnds
  dsimp only
  rw [if_pos rfl, if_pos rfl]
  exact ⟨_, _, rfl⟩

/-- A copy whose body checks starts the image of the handover's slot, with its confirm pending. -/
theorem handoverCopy_shows {bad : Nat} (hho : s.boot.ho = 2) (hread : bad.testBit s.boot.hoSlot = false)
    (hbody : sha256 (s.bytes (slotBase s.boot.hoSlot + 512) (hdrLength (s.bytes (slotBase s.boot.hoSlot) 512))) = slice (s.bytes (slotBase s.boot.hoSlot) 512) 32 32) :
    let t := s.handoverCopy bad
    t.boot.ho = 3 ∧ t.boot.slot = s.boot.hoSlot ∧ t.boot.hdr = s.bytes (slotBase s.boot.hoSlot) 512 ∧
    t.flag rFWU_STATUS fFWU_STATUS_confirm_pending = true := by
  have hok : s.handoverCopy bad = s.copyEnds true := (handoverCopy_eq hho).trans (by rw [hread, decide_eq_true hbody]; rfl)
  obtain ⟨info, version, hcopy⟩ := copyEnds_good s
  rw [← hok] at hcopy
  obtain ⟨hthree, hslot, hhdr⟩ := boot_slotStarted s s.boot.hoSlot info
  have hboot : (s.handoverCopy bad).boot =
      { (s.slotStarted s.boot.hoSlot info).boot with since := ((s.slotStarted s.boot.hoSlot info).put rFWU_STATUS fFWU_STATUS_trial 0).pd.ticks } := by
    rw [hcopy, State.fwEntry, boot_stage, boot_wdtResume, boot_confirmStart, State.put_boot]
  dsimp only
  rw [hboot]
  refine ⟨hthree, hslot, hhdr, ?_⟩
  rw [hcopy]
  exact (flag_congr _ ((reg_stage_ne (by decide)).trans (reg_wdtResume ..))).trans (pending_confirmStart _)

end Handover

/-! ### Confirm (R557, R558) -/

section Confirm

variable {s : State}

/-- A confirm's boot control record, and the flags that it clears. -/
def State.confirmShown (s : State) : State :=
  ((s.writeBcr s.boot.slot 0xFF 0 (hdrVersion s.boot.hdr) 0).put rFWU_STATUS fFWU_STATUS_confirm_pending 0).put rFWU_STATUS fFWU_STATUS_trial 0

/-- With commit_ok cleared where the committed image is no longer in the inactive slot. -/
def State.confirmTaken (s : State) : State :=
  if s.boot.slot != bcrActive s.bcr then s.confirmShown.put rFWU_STATUS fFWU_STATUS_commit_ok 0 else s.confirmShown

theorem boot_confirmShown (s : State) : s.confirmShown.boot = s.boot := by
  unfold State.confirmShown State.writeBcr
  dsimp only
  rw [State.put_boot, State.put_boot, boot_setBytes]

theorem boot_confirmTaken (s : State) : s.confirmTaken.boot = s.boot := by
  unfold State.confirmTaken
  split_ifs
  · rw [State.put_boot, boot_confirmShown]
  · exact boot_confirmShown s

/-- The trial's flags are clear, and stay so beside commit_ok and the inactive slot. -/
theorem flag_confirmTaken (s : State) : s.confirmTaken.flag rFWU_STATUS fFWU_STATUS_confirm_pending = false ∧
    s.confirmTaken.flag rFWU_STATUS fFWU_STATUS_trial = false := by
  have hshown : s.confirmShown.flag rFWU_STATUS fFWU_STATUS_confirm_pending = false ∧ s.confirmShown.flag rFWU_STATUS fFWU_STATUS_trial = false :=
    ⟨(flag_put_other _ rFWU_STATUS _ _ _ (by decide) (by decide) (by decide)).trans (flag_put_zero (by decide) (by decide)), flag_put_zero (by decide) (by decide)⟩
  unfold State.confirmTaken
  split_ifs
  · exact ⟨(flag_put_other _ rFWU_STATUS _ _ _ (by decide) (by decide) (by decide)).trans hshown.1,
      (flag_put_other _ rFWU_STATUS _ _ _ (by decide) (by decide) (by decide)).trans hshown.2⟩
  · exact hshown

/-- A confirm while one is pending raises the security version and leaves its ledger entry. -/
theorem fwuConfirm_pending (h : s.flag rFWU_STATUS fFWU_STATUS_confirm_pending = true) : ∃ svn slot version,
    s.fwuConfirm = ((({ s.confirmTaken with boot := { s.confirmTaken.boot with svn := svn } } : State).fwEntry 3 slot version).showInactive).fwuResult 5 0 0 0 :=
  ⟨_, _, _, if_neg (by simp [h])⟩

theorem fwuConfirm_shows (h : s.flag rFWU_STATUS fFWU_STATUS_confirm_pending = true) : let t := s.fwuConfirm
    t.flag rFWU_STATUS fFWU_STATUS_confirm_pending = false ∧ t.flag rFWU_STATUS fFWU_STATUS_trial = false ∧
    t.reg rFWU_RESULT = toW (2 ^ 31 + 5 * 2 ^ 24) ∧ t.boot.slot = s.boot.slot := by
  obtain ⟨svn, slot, version, hconfirm⟩ := fwuConfirm_pending h
  obtain ⟨hended, htrial⟩ := flag_confirmTaken s
  have hflag (f : Fld) (hf : f.hi < 0 ∨ 0 < f.lo) : s.fwuConfirm.flag rFWU_STATUS f = s.confirmTaken.flag rFWU_STATUS f := by
    rw [hconfirm, flag_congr f (reg_fwuResult_ne (by decide) (by decide)), State.showInactive, flag_put_other _ _ _ _ _ (by decide) (by decide) hf]
    exact flag_congr f ((reg_stage_ne (by decide)).trans (reg_withBoot ..))
  refine ⟨(hflag _ (by decide)).trans hended, (hflag _ (by decide)).trans htrial, ?_, ?_⟩
  · rw [hconfirm]
    exact reg_fwuResult _ 5 0 0 0
  · rw [hconfirm, boot_fwuResult, State.showInactive, State.put_boot, State.fwEntry, boot_stage]
    have hslot : s.confirmTaken.boot.slot = s.boot.slot := congrArg BootSt.slot (boot_confirmTaken s)
    exact hslot

end Confirm

/-! ### The mailboxes (R563, R564) -/

section Mailboxes

variable {s : State} {h code len : Nat} {act : State → State}

theorem mbAct_open (hbusy : s.flag (rANI_MB_STATUS h) fANI_MB_STATUS_busy = true) (hfree : s.flag rFWU_STATUS fFWU_STATUS_handover_active = false)
    (hcumin : s.flag rFWU_STATUS fFWU_STATUS_cumin = false) : s.mbAct h code len act =
      if s.mbCode h = code then (if s.mbLength h = len then act s else s.mbRespond h 2 [])
      else if [0x01, 0x02, 0x10, 0x11, 0x20, 0x30, 0x40, 0x50].contains (s.mbCode h) then s else s.mbRespond h 1 [] :=
  if_neg (by simp [hbusy, hfree, hcumin])

/-- Octets at the front of those written. -/
theorem bytes_setBytes_front (s : State) (a : Nat) (l r : List Byte) : (s.setBytes a (l ++ r)).bytes a l.length = l := by
  rw [bytes_eq_map]
  refine List.ext_getElem (by simp) fun i hi hl => ?_
  rw [List.getElem_map, List.getElem_range, byte_setBytes_in s a i (l ++ r) (by rw [List.length_append]; omega), List.getElem_append_left hl]

theorem bytes_congr {t : State} (hmem : t.mem = s.mem) (a n : Nat) : t.bytes a n = s.bytes a n := by
  have hbyte (x : Nat) : t.byte x = s.byte x := congrArg (fun m => spGet memDefault m x) hmem
  rw [bytes_eq_map, bytes_eq_map]
  exact List.map_congr_left fun i _ => hbyte _

theorem mbSeq_congr {t : State} (hboot : t.boot = s.boot) (h : Nat) : t.mbSeq h = s.mbSeq h := by
  unfold State.mbSeq
  rw [hboot]

/-- What a response without payload begins with. -/
def State.mbAnswer (s : State) (h status : Nat) : List Byte := leBytes 2 (s.mbCode h) ++ leBytes 2 (s.mbSeq h) ++ leBytes 4 0 ++ [toB status]

theorem length_mbAnswer (s : State) (h status : Nat) : (s.mbAnswer h status).length = 9 := by
  simp [State.mbAnswer, length_leBytes]

theorem mem_withBoot (s : State) (b : BootSt) : ({ s with boot := b } : State).mem = s.mem := rfl

theorem mem_mbRespond (s : State) (h status : Nat) :
    (s.mbRespond h status []).mem = (s.setBytes (mbBase h + 0x800) (s.mbAnswer h status ++ List.replicate 7 0)).mem := by
  unfold State.mbRespond State.mbAnswer
  dsimp only
  rw [State.irq_mem, mem_withBoot, State.setReg_mem, List.append_nil, List.length_nil]

/-- A response without payload shows done and the request's sequence, and carries its code, its sequence and a status. -/
theorem mbRespond_shows (h : Nat) (hh : h < 2) (status : Nat) : let t := s.mbRespond h status []
    t.reg (rANI_MB_STATUS h) = toW (2 ^ 30 + s.mbSeq h) ∧ t.bytes (mbBase h + 0x800) 9 = s.mbAnswer h status := by
  have hseq (a : Nat) (l : List Byte) : (s.setBytes a l).mbSeq h = s.mbSeq h := mbSeq_congr (boot_setBytes ..) h
  have hirq : rANI_MB_STATUS h ≠ rPG_IRQ_STAT 0xC2 := by
    dsimp only [rANI_MB_STATUS, rPG_IRQ_STAT]
    omega
  constructor
  · unfold State.mbRespond
    dsimp only
    rw [reg_irq, if_neg hirq, reg_withBoot, reg_setReg_same, hseq]
  · have hfront := bytes_setBytes_front s (mbBase h + 0x800) (s.mbAnswer h status) (List.replicate 7 0)
    rw [length_mbAnswer] at hfront
    exact (bytes_congr (mem_mbRespond ..) _ _).trans hfront

/-- A doorbell at a free mailbox. -/
theorem mbDoorbellFx_free {v : Word} (hbusy : s.flag (rANI_MB_STATUS h) fANI_MB_STATUS_busy = false)
    (hdone : s.flag (rANI_MB_STATUS h) fANI_MB_STATUS_done = false) : let seq := v.toNat % 65536
    let t : State := { s with boot := if h = 0 then { s.boot with seqA := seq } else { s.boot with seqB := seq } }
    mbDoorbellFx h v s = if ((if h = 0 then s.boot.ansA else s.boot.ansB) && decide (s.get (rANI_MB_STATUS h) fANI_MB_STATUS_seq = seq)) = true then
        (if s.flag rFWU_STATUS fFWU_STATUS_handover_active then s.put (rANI_MB_STATUS h) fANI_MB_STATUS_busy 1 else s).anise (3, h, 0) fun s => s.mbRepeat h
      else t.put (rANI_MB_STATUS h) fANI_MB_STATUS_busy 1 := if_neg (by simp [hbusy, hdone])

end Mailboxes

/-- Settles O60: a step of a handover, a confirm and a mailbox row are each read off one branch; a response is read through what it writes. -/
theorem handoverConfirmAndMailboxes : Obligations.HandoverConfirmAndMailboxes := by
  unfold Obligations.HandoverConfirmAndMailboxes
  refine ⟨fun s q v hv => ⟨fun ha => ⟨fun hlevel hok => exec_fwuCmd hv 4 rfl ha (if_neg (by simp [hlevel, hok])),
        fun hbad => exec_fwuCmd hv 4 rfl ha (if_pos ?refused)⟩,
      fun hho => congrArg (finish s) (handoverStop_begun hho),
      fun w hho ha => exec_writeReg_accepted rfl ha (aniHandoverFx_ready (bitOf_or_set rfl) hho),
      fun hho bad => fun hread hbody => ⟨s.handoverCopy bad, rfl, handoverCopy_shows hho hread hbody⟩,
      fun w hho ha => exec_writeReg_accepted rfl ha (aniHandoverFx_resumed (bitOf_or_set rfl) hho),
      fun ha => ⟨fun hnone => exec_fwuCmd hv 5 rfl ha (if_pos (by simp [hnone])),
        fun hpending => ⟨s.fwuConfirm, exec_fwuCmd hv 5 rfl ha rfl, fwuConfirm_shows hpending⟩⟩,
      fun hnone => ?idle, fun hon hpending => ⟨fun htrial => ?reset, fun hhanded => ?back⟩⟩,
    fun s q h => ⟨fun v ha => ⟨fun hheld => exec_writeReg_accepted rfl ha (if_pos ?violation), fun hbusy hdone hnew => ?new, fun hbusy hdone hans hseq hfree => ?repeated⟩,
      fun hbusy hfree hcumin => ?acts, fun status => mbRespond_shows h h.isLt status,
      fun v ha => ⟨fun hbit hmaster => ?ackA, fun hbit hmaster => ?ackB, fun hbit hbit' hmaster => ?ackNone⟩⟩⟩
  case refused => obtain hlevel | hbad := hbad <;> simp [*]
  case idle =>
    have hstay : s.confirmTimeout = s := if_pos (by simp [hnone])
    refine congrArg (finish s) ?_
    cases hon : s.enabled 0xC0 with
    | true => exact (State.ifOn_on hon).trans hstay
    | false => exact State.ifOn_off hon
  case reset =>
    exact congrArg (finish s) ((State.ifOn_on hon).trans ((if_neg (by simp [hpending])).trans (if_neg (by rw [htrial]; exact Bool.false_ne_true))))
  case back => exact congrArg (finish s) ((State.ifOn_on hon).trans ((if_neg (by simp [hpending])).trans (if_pos hhanded)))
  case violation => simpa using hheld
  case new =>
    refine ⟨_, exec_writeReg_accepted (fx := mbDoorbellFx h) rfl ha ((mbDoorbellFx_free hbusy hdone).trans (if_neg ?_)), flag_put_one rfl (by decide), ?_⟩
    · simp only [Fin.val_eq_zero_iff, hnew, Bool.false_and]
      exact Bool.false_ne_true
    · unfold State.mbSeq
      rw [State.put_boot]
      split_ifs
      · rfl
      · rfl
  case repeated =>
    refine exec_writeReg_accepted (fx := mbDoorbellFx h) rfl ha ((mbDoorbellFx_free hbusy hdone).trans ((if_pos ?_).trans ?_))
    · simp only [Fin.val_eq_zero_iff, hans, hseq, decide_true, Bool.and_true]
    · rw [if_neg (by rw [hfree]; exact Bool.false_ne_true)]
      exact if_neg (by rw [hfree]; exact Bool.false_ne_true)
  case acts =>
    have hopen {code len : Nat} {act : State → State} := mbAct_open (code := code) (len := len) (act := act) hbusy hfree hcumin
    have hacts {code len : Nat} {act : State → State} (hcode : s.mbCode h = code) (hlen : s.mbLength h = len) : s.mbAct h code len act = act s :=
      hopen.trans ((if_pos hcode).trans (if_pos hlen))
    refine ⟨fun hcode hlen => congrArg (finish s) (hacts hcode hlen), fun hcode hlen => congrArg (finish s) (hacts hcode hlen),
      fun hcode hlen writes => ⟨congrArg (finish s) ((hacts hcode hlen).trans (if_pos rfl)),
        congrArg (finish s) ((hacts hcode hlen).trans (if_neg (by decide)))⟩,
      fun hcode hlen data => congrArg (finish s) (hacts hcode hlen), fun hcode hlen => congrArg (finish s) (hacts hcode hlen),
      fun hcode hlen => congrArg (finish s) (hacts hcode hlen),
      fun hcode hlen hlevel => congrArg (finish s) ((hacts hcode hlen).trans (if_neg (by simp [hlevel]))),
      fun hcode hlen hlevel hok => congrArg (finish s) ((hacts hcode hlen).trans ((if_neg (by simp [hlevel])).trans (if_neg (by simp [hok])))),
      fun hcode hlen hlevel => congrArg (finish s) ((hacts hcode hlen).trans (if_pos (by simpa using hlevel))),
      fun hcode => congrArg (finish s) (hopen.trans ((if_neg ?_).trans (if_neg (by rw [hcode]; exact Bool.false_ne_true)))),
      fun hcode hlen => congrArg (finish s) (hopen.trans ((if_pos hcode).trans (if_neg hlen)))⟩
    intro hone
    rw [hone] at hcode
    exact absurd hcode (by decide)
  case ackA =>
    refine exec_writeReg_accepted (fx := mbAckFx q) rfl ha ((if_neg (by simp [hmaster])).trans (if_pos (by simp [hbit, hmaster])))
  case ackB =>
    refine exec_writeReg_accepted (fx := mbAckFx q) rfl ha ((if_pos (by simp [hbit, hmaster])).trans ?_)
    rw [if_neg (by simp [hmaster])]
  case ackNone =>
    refine exec_writeReg_accepted (fx := mbAckFx q) rfl ha ((if_neg (by simp [hbit'])).trans (if_neg (by simp [hmaster])))
end Sys2Proof.Machine
end
